-- ==== Sys2Proof/Word.lean ====
section
/-! DEFINITION. The machine word (R9: every register is 32 bits wide), bytes, and the plainest reading of a word as a
natural or a signed number. -/

namespace Sys2Proof

/-- A register of the device: 32 bits (R9). -/
abbrev Word := BitVec 32

/-- One byte of memory. -/
abbrev Byte := BitVec 8

/-- The bits `hi` to `lo` of a word, as a natural number. -/
def Word.bits (w : Word) (hi lo : Nat) : Nat := (w.toNat >>> lo) % 2 ^ (hi + 1 - lo)

/-- Bit `i` of a word. -/
def Word.bit (w : Word) (i : Nat) : Bool := w.toNat.testBit i

/-- `w` with the bits `hi` to `lo` replaced by the low bits of `v`. -/
def Word.withBits (w : Word) (hi lo v : Nat) : Word :=
  let m := 2 ^ (hi + 1 - lo)
  BitVec.ofNat 32 (w.toNat - ((w.toNat >>> lo) % m) * 2 ^ lo + (v % m) * 2 ^ lo)

/-- `w` with bit `i` set to `b`. -/
def Word.withBit (w : Word) (i : Nat) (b : Bool) : Word := w.withBits i i b.toNat

/-- The signed reading of the low `n` bits of a natural number. -/
def signed (n v : Nat) : Int :=
  let u := v % 2 ^ n
  if 2 * u < 2 ^ n then (u : Int) else (u : Int) - 2 ^ n

/-- The low `n` bits of an integer, as a natural number (two's complement). -/
def unsigned (n : Nat) (v : Int) : Nat := (v % 2 ^ n).toNat

/-- A word holding a signed number. -/
def wordOf (v : Int) : Word := BitVec.ofInt 32 v

end Sys2Proof
end

