-- ==== Sys2Proof/Config.lean ====
section
/-! DEFINITION. What one module fixes for good and the spec leaves open, and the free values: constants without a body, so
that no proof can lean on what they are. -/

namespace Sys2Proof.Config

/-- Free values (log entry 2): the spec gives no number, and a claim about one holds for every number. The argument is the
model's own counter `State.free`, advanced at each use. -/
opaque freeValue : Nat → BitVec 64

/-- The silicon stepping, MAJOR and MINOR of SYS_SILICON (R29), fixed at manufacture. -/
opaque stepping : BitVec 16

/-- The unique number as manufactured, before R30's two excluded values are ruled out. -/
opaque uidRaw : BitVec 64

/-- R30: the 64-bit unique number, never 0 and never all ones. -/
def uid : BitVec 64 :=
  if uidRaw = 0#64 then 1#64 else if uidRaw = BitVec.allOnes 64 then 2#64 else uidRaw

/-- The hash of Gnostindi's own signing key, key slot 0, in boot ROM (R448): the spec gives no value. -/
opaque romKeyHash : BitVec 256

/-- The salt that a password record takes from the device (R426): the spec gives no value. -/
opaque saltOf : Nat → BitVec 128

/-- Volts of 1.0 in the UDC accumulator of LVC_ACC1, the base of a DCX slot (R173): the integrator's divider sets it, and no
register or payload gives it. -/
opaque linkBase : BitVec 16

/-- The charger's bases of R251, in volts and amperes, which no field of the payloads gives: VAB and IAB of the grid, and the DC
voltage and current base. One less is held, so that none is 0. -/
opaque chgVabLess : BitVec 16
opaque chgIabLess : BitVec 16
opaque chgVdcLess : BitVec 16
opaque chgIdcLess : BitVec 16

/-- VAB, IAB and the DC bases (R251). -/
def chgVab : Nat := chgVabLess.toNat + 1
def chgIab : Nat := chgIabLess.toNat + 1
def chgVdc : Nat := chgVdcLess.toNat + 1
def chgIdc : Nat := chgIdcLess.toNat + 1

/-- VPROF of an actuator drive, in 2^-8 edges per tick (R286): no register or payload gives it. -/
opaque vprof : Nat → BitVec 16

end Sys2Proof.Config
end

