-- ==== Sys2Proof/Syntax.lean ====
section
/-! DEFINITION. The commands of the block: one constructor of `Instr` for every row of the table of operations and events,
with what the outside world supplies at that row as operands. Every command names the pipeline cycle of its tick at which it
happens (`cyc`, R378). -/

namespace Sys2Proof

/-- The three variants (R1, R2). -/
inductive Variant where
  | px960 | px945 | px930
  deriving DecidableEq, Repr, Inhabited

/-- The two lanes. -/
inductive Lane where
  | a | b
  deriving DecidableEq, Repr, Inhabited

/-- Lane A is 0, lane B is 1, as the per-lane register copies are laid out. -/
def Lane.ix : Lane → Nat
  | .a => 0
  | .b => 1

/-- The lane of index `i`. -/
def Lane.ofIx (i : Nat) : Lane := if i = 0 then .a else .b

/-- The lane that is not this one. -/
def Lane.other : Lane → Lane
  | .a => .b
  | .b => .a

/-- ORIGIN of a lane's event or write (R308, R381). -/
def Lane.origin (l : Lane) : Nat := 1 + l.ix

/-- Who writes or reads a register (R13, R302). -/
inductive Writer where
  | lane (l : Lane)
  | safety
  deriving DecidableEq, Repr, Inhabited

/-- Who made an access, byte 5 of R515. -/
inductive Requester where
  | lane (l : Lane)
  | dma (l : Lane)
  | safety
  deriving DecidableEq, Repr, Inhabited

/-- The requester of a register access. -/
def Writer.requester : Writer → Requester
  | .lane l => .lane l
  | .safety => .safety

/-- The reader's place among the snapshots of R13. -/
def Writer.ix : Writer → Nat
  | .lane l => l.ix
  | .safety => 2

/-- Byte 5 of the record of R515. -/
def Requester.code : Requester → Nat
  | .lane l => l.ix
  | .dma l => 2 + l.ix
  | .safety => 4

/-- The width of an access, bits 2 and 1 of byte 6 of R515. -/
inductive Width where
  | word | byte | half | wide
  deriving DecidableEq, Repr, Inhabited

/-- The code of a width in R515. -/
def Width.code : Width → Nat
  | .word => 0
  | .byte => 1
  | .half => 2
  | .wide => 3

/-- An asynchronous input as one accession unit receives it (R304, R309). -/
structure AsyncIn where
  kind : Nat
  src : Nat
  origin : Nat
  addr : Nat
  value : Nat
  payload : List Nat
  deriving DecidableEq, Repr, Inhabited

/-- One reading of a temperature sensor: the code of an NTC input, or the two diodes of an on-die sensor in 0.1 °C (R486). -/
structure TempReading where
  sensor : Nat
  ntc : Nat
  dieA : Int
  dieB : Int
  selfOk : Bool
  deriving DecidableEq, Repr, Inhabited

/-- What an off-state diagnostic reads of one channel or leg (R214): the nanoseconds in which the main (or VDS) and the hard
comparator trip, and whether one trips at half the main level; under 1 mA, the nanoseconds in which the gate reaches 15 V and its
millivolts at 50 µs; the node's millivolts pulled up and pulled down, of the supply, and of the lower of the other two phases. -/
structure DiagReading where
  tMain : Option Nat
  tHard : Option Nat
  below : Bool
  t15 : Option Nat
  v50 : Nat
  up : Nat
  down : Nat
  supply : Nat
  others : Nat
  deriving DecidableEq, Repr, Inhabited

/-- What the outside world supplies at a tick boundary: the interval since the last boundary by Bedrock's oscillator in
nanoseconds (R41), the level of WAKE_IN0 (R472), the temperature readings (R486), and the window means of LVC_FB in 2^-29 V and
of LVC_SENSE in millivolts (R228), and the link voltage that Bedrock measures, by slot, in the units of the slot's HUDC (R326),
and whether a change-log entry verifies (R427). -/
structure BoundaryIn where
  bedrockNs : Nat
  wakeIn0 : Bool
  temps : List TempReading
  lvcFb : Int
  lvcSense : Int
  udcB : List Int
  logOk : Bool
  deriving DecidableEq, Repr, Inhabited

/-- The commands, in the order of the table of operations and events. -/
inductive Instr where
  /-- TICK_BOUNDARY (R42): The tick generator reaches the end of the period and runs the ordered boundary work in pipeline cycle 0. -/
  | tickBoundary (env : BoundaryIn)
  /-- BOUNDARY_MISSING (R41): No boundary arrives within 1.5 periods of the last one, and Bedrock raises an F4. -/
  | boundaryMissing (cyc : Nat)
  /-- ACCESSION_TAKES_EFFECT (R305): Inputs whose accession tick has arrived take effect at step 2 of the boundary in journal order. -/
  | accessionTakesEffect (cyc : Nat)
  /-- ASYNC_INPUT_ARRIVAL (R304): An asynchronous input reaches both accession units, which form, exchange and journal its entry or drop it. -/
  | asyncInputArrival (cyc : Nat) (inA : AsyncIn) (inB : AsyncIn) (bad : Option Lane)
  /-- FRAME_EMIT (R172): A slot's frame leaves Emit and goes to the Sieve. -/
  | frameEmit (cyc : Nat) (lane : Lane) (k : Fin 16)
  /-- EMIT_DEADLINE (R49): Cycle D is reached and any slot that has not left Emit is in tick overrun. -/
  | emitDeadline (cyc : Nat)
  /-- TICK_TASK_DEADLINE (R56): TASKDL passes without DONE, so a tick-task overrun is raised and later shadow writes are discarded. -/
  | tickTaskDeadline (cyc : Nat) (lane : Lane)
  /-- TICK_CMD_DONE (R53): DONE ends the tick task, completes source 1 and leaves tick context. -/
  | tickCmdDone (cyc : Nat) (who : Writer) (lane : Lane)
  /-- TICK_CMD_ARM (R54): ARM arms tick entry. -/
  | tickCmdArm (cyc : Nat) (who : Writer) (lane : Lane)
  /-- TICK_CMD_CLROVR (R67): CLROVR clears TICK_OVRCNT. -/
  | tickCmdClrovr (cyc : Nat) (who : Writer) (lane : Lane)
  /-- TICK_CMD_CLRMARG (R67): CLRMARG sets both minimum margins to 0xFFFF. -/
  | tickCmdClrmarg (cyc : Nat) (who : Writer) (lane : Lane)
  /-- TICK_CONTEXT_ACCESS (R58): A tick-context access outside lane SRAM and peripheral space faults and raises an F2. -/
  | tickContextAccess (cyc : Nat) (lane : Lane) (addr : BitVec 40) (width : Width) (write : Bool)
  /-- REGISTER_WRITE (R302): A write to a register with no row of its own is applied, collected, accessioned or ignored by arrangement and context. -/
  | registerWrite (cyc : Nat) (who : Writer) (addr : BitVec 40) (value : Word)
  /-- NARROW_ACCESS (R9): A byte, halfword or unaligned access returns an access fault and is recorded. -/
  | narrowAccess (cyc : Nat) (req : Requester) (addr : BitVec 40) (width : Width) (write : Bool)
  /-- OUT_OF_REGION_ACCESS (R8): An access outside every region returns an access fault and is recorded. -/
  | outOfRegionAccess (cyc : Nat) (req : Requester) (addr : BitVec 40) (width : Width) (write : Bool)
  /-- RSN_LEAD_READ (R13): A read of an rsn group's lead latches a coherent snapshot for that reader. -/
  | rsnLeadRead (cyc : Nat) (who : Writer) (addr : BitVec 40)
  /-- SYS_MODE_REQUEST (R31): A write to SYS_MODE_REQ submits a mode request as an asynchronous input. -/
  | sysModeRequest (cyc : Nat) (who : Writer) (value : Word)
  /-- MODE_REQUEST_TIMEOUT (R473): A pending request that has not completed within REQTMO ticks ends with refusal 3. -/
  | modeRequestTimeout (cyc : Nat)
  /-- SEQUENCE_TRIGGER (R75): A sequence's trigger instant arrives and its run starts or truncates the previous run. -/
  | sequenceTrigger (cyc : Nat) (q : Fin 16)
  /-- GROUP_START (R74): A group starts once all of its converters are free, with one shared sample instant. -/
  | groupStart (cyc : Nat) (q : Fin 16)
  /-- CONVERSION_COMPLETE (R82): A conversion completes and its sample goes to the open window's accumulator and tracker. -/
  | conversionComplete (cyc : Nat) (c : Fin 12) (nv : Int)
  /-- URGENT_REQUEST (R80): An urgent conversion request is queued or refused. -/
  | urgentRequest (cyc : Nat) (who : Writer) (value : Word)
  /-- URGENT_CONVERSION_START (R79): An urgent conversion suspends the sequence on its converter and starts. -/
  | urgentConversionStart (cyc : Nat) (c : Fin 12)
  /-- SELF_CHECK_CONVERSION (R86): Sequence 15 converts the reference, ground, supplies or temperature and may mark a converter failed. -/
  | selfCheckConversion (cyc : Nat) (c : Fin 12) (item : Nat) (value : Int)
  /-- CALIBRATION_REQUEST (R88): An ACQ_CAL_REQ write requests offset calibration or is answered DEFERRED. -/
  | calibrationRequest (cyc : Nat) (who : Writer) (value : Word)
  /-- CALIBRATION_COMPLETE (R87): The 256 samples of a calibration are taken and new offsets are applied or refused. -/
  | calibrationComplete (cyc : Nat) (sums : List (Nat × Nat))
  /-- VDDA_LOW (R89): VDDA falls below its monitor threshold and ACQ discards every sample. -/
  | vddaLow (cyc : Nat)
  /-- RESOLVER_UPDATE (R95): The resolver tracking loop updates every 2,500 pipeline cycles. -/
  | resolverUpdate (cyc : Nat) (x : Fin 2) (theta : BitVec 16) (vel : Int) (sin : BitVec 16) (cos : BitVec 16) (exc : Bool)
  /-- ENCODER_COUNT (R96): A filtered A or B change decodes a count, updating R, C and the direction hysteresis. -/
  | encoderCount (cyc : Nat) (x : Fin 2) (a : Bool) (b : Bool)
  /-- Z_EDGE (R97): A rising edge of Z checks the count against the first index. -/
  | zEdge (cyc : Nat) (x : Fin 2)
  /-- SENT_FRAME (R98): A SENT transmission is received whole and updates the angle and speed. -/
  | sentFrame (cyc : Nat) (x : Fin 2) (start : Nat) (cal : Nat) (pulses : List Nat)
  /-- SSI_READ (R99): One SSI read runs per tick, starting at the latch cycle. -/
  | ssiRead (cyc : Nat) (x : Fin 2) (data : Nat) (stuck : Bool)
  /-- HALL_EDGE (R100): A filtered hall state change counts as an edge, a skip or an invalid state. -/
  | hallEdge (cyc : Nat) (t : Fin 6) (state : BitVec 3)
  /-- POSITION_LATCH (R94): At the latch cycle each channel samples its angle, speed and flags and runs its plausibility checks. -/
  | positionLatch (cyc : Nat) (what : Fin 8)
  /-- PROBE_EDGE (R106): An armed probe latches an edge with its timebase, angle and sector, and may raise urgent conversions. -/
  | probeEdge (cyc : Nat) (p : Fin 2) (rise : Bool)
  /-- LAW_PORT_WRITE (R122): A LAW_CW_DATA write is accepted into the inactive bank or refused, and advances the address. -/
  | lawPortWrite (cyc : Nat) (who : Writer) (lane : Lane) (value : Word)
  /-- LAW_PORT_READ (R122): A LAW_CW_DATA read returns the selected bank or topology word and advances the address. -/
  | lawPortRead (cyc : Nat) (lane : Lane)
  /-- LAW_SWAP_REQUEST (R124): A LAW_SWAP write requests a bank swap and seals the slot's banks. -/
  | lawSwapRequest (cyc : Nat) (who : Writer) (lane : Lane) (value : Word)
  /-- SECTION_PRESET (R121): An LAW_PRE_IDX write with EN requests a preset of a section's state at the next shadow transfer. -/
  | sectionPreset (cyc : Nat) (who : Writer) (lane : Lane) (value : Word)
  /-- INJECTOR_START (R126): START in LAW_INJ_CTRL starts or refuses an injection at the next boundary. -/
  | injectorStart (cyc : Nat) (who : Writer) (lane : Lane) (value : Word)
  /-- INJECTOR_STOP (R126): STOP in LAW_INJ_CTRL begins ramp-out. -/
  | injectorStop (cyc : Nat) (who : Writer) (lane : Lane) (value : Word)
  /-- INJECTION_DURATION_END (R126): A run reaches DUR ticks or a chirp passes F1, and ramp-out begins. -/
  | injectionDurationEnd (cyc : Nat) (lane : Lane)
  /-- INJECTION_RAMP_OUT_END (R126): Ramp-out lasts RAMP ticks and ends the run. -/
  | injectionRampOutEnd (cyc : Nat) (lane : Lane)
  /-- OSCILLATION_WINDOW_END (R128): The detector window reaches OSCWIN ticks and its swing count restarts. -/
  | oscillationWindowEnd (cyc : Nat) (lane : Lane) (k : Fin 16)
  /-- LAW_MEMORY_ERROR (R131): An uncorrectable error in law memory raises an F2 for the lane. -/
  | lawMemoryError (cyc : Nat) (lane : Lane) (corrected : Bool)
  /-- PHASE_CURRENT_SUM_FAULT (R139): The phase-current sum exceeds I0LIM for three ticks and the slot goes to its safe state. -/
  | phaseCurrentSumFault (cyc : Nat) (lane : Lane) (motor : Fin 2)
  /-- POLARITY_DETECTION (R147): Polarity detection runs its phases and flips the angle or repeats. -/
  | polarityDetection (cyc : Nat) (lane : Lane) (motor : Fin 2)
  /-- SENSOR_DIVERGENCE (R150): The sensor and the estimate differ beyond DIVLIM for 16 ticks and DIV is set. -/
  | sensorDivergence (cyc : Nat) (lane : Lane) (motor : Fin 2)
  /-- OBSERVER_LOSS (R151): The residual exceeds RESLIM for three ticks and loss is declared, with a switch to the sensor or extrapolation. -/
  | observerLoss (cyc : Nat) (lane : Lane) (motor : Fin 2)
  /-- OBSERVER_REACQUIRED (R153): The observer meets the re-acquisition test and normal gains resume. -/
  | observerReacquired (cyc : Nat) (lane : Lane) (motor : Fin 2)
  /-- REACQUISITION_FAILED (R154): LOSTMAX ticks pass without re-acquisition, and active short circuit or freewheel is commanded. -/
  | reacquisitionFailed (cyc : Nat) (lane : Lane) (motor : Fin 2)
  /-- SHORT_CIRCUIT_RELEASE (R155): EMFHI clears or the current stays low for 16 ticks, the short circuit is released and a flying start is requested. -/
  | shortCircuitRelease (cyc : Nat) (lane : Lane) (motor : Fin 2)
  /-- INJECTION_CONTRAST_LOST (R157): The contrast stays below HMIN for 8 ticks and the slot goes to its safe state. -/
  | injectionContrastLost (cyc : Nat) (lane : Lane) (motor : Fin 2)
  /-- MOD_START (R177): A START command takes the slot to SENSING, CATCH or RUN, or is refused. -/
  | modStart (cyc : Nat) (who : Writer) (lane : Lane) (k : Fin 16) (value : Word)
  /-- MOD_STOP (R183): A STOP command begins the ramp, torque or immediate stop. -/
  | modStop (cyc : Nat) (who : Writer) (lane : Lane) (k : Fin 16) (value : Word)
  /-- FLYING_START_DECISION (R180): Sensing ends after two turns or 5 ms, or is forced, and decides standstill, inconsistency or CATCH. -/
  | flyingStartDecision (cyc : Nat) (lane : Lane) (k : Fin 16)
  /-- STOP_COMPLETE (R183): The stop's dwell at zero is met and the slot goes to IDLE. -/
  | stopComplete (cyc : Nat) (lane : Lane) (k : Fin 16)
  /-- GATE_EDGE (R194): An edge turns the outgoing switch off and the complement on after DT and the interlock. -/
  | gateEdge (cyc : Nat) (iso : Bool) (i : Nat) (ext : Nat) (tm : Option Nat)
  /-- STUCK_GATE (R194): The outgoing gate is still high 1 µs after its edge and the leg latches off. -/
  | stuckGate (cyc : Nat) (iso : Bool) (i : Nat)
  /-- SHORT_CIRCUIT_DETECTION (R200): A comparator crossing makes the channel turn off softly, latch and report. -/
  | shortCircuitDetection (cyc : Nat) (ch : Fin 32) (mv : Nat) (ns : Nat)
  /-- SHORT_CIRCUIT_CLASSIFY (R201): GDI classifies a slot's detections 25 ns after the first and acts on its other switches. -/
  | shortCircuitClassify (cyc : Nat) (k : Fin 16)
  /-- GDI_CLEAR (R203): A GDI_CLR write clears a pair's latches or is ignored. -/
  | gdiClear (cyc : Nat) (who : Writer) (value : Word) (quiet : BitVec 16)
  /-- GDL_CLEAR (R209): A GDL_CLR write clears a leg's latch under its conditions or is ignored. -/
  | gdlClear (cyc : Nat) (who : Writer) (value : Word) (good : BitVec 24)
  /-- OVERVOLTAGE_CLAMP (R204): The link rises above VON and Bedrock turns the chopper fully on. -/
  | overvoltageClamp (cyc : Nat)
  /-- CLAMP_RELEASE (R204): The link falls below VOFF and the chopper returns to its frames. -/
  | clampRelease (cyc : Nat)
  /-- LINK_HARD_OVERVOLTAGE (R205): The link stays above HARD for 0.5 µs and the charger channels' enables are withdrawn. -/
  | linkHardOvervoltage (cyc : Nat)
  /-- PUMP_FAULT (R207): A high-side pump output stays below 10.5 V for 10 µs. -/
  | pumpFault (cyc : Nat) (leg : Fin 24)
  /-- REFRESH_PULSE (R208): GDL inserts a refresh pulse at the carrier peak for a starved bootstrap. -/
  | refreshPulse (cyc : Nat) (leg : Fin 24)
  /-- HIGH_SIDE_UNDERVOLTAGE (R209): A high-side supply stays below 8.0 V for 1 µs and the leg latches off. -/
  | highSideUndervoltage (cyc : Nat) (leg : Fin 24)
  /-- VDS_OVERCURRENT (R211): A drive switch's VDS exceeds VDSTHR and the drive turns off. -/
  | vdsOvercurrent (cyc : Nat) (leg : Fin 24) (mv : Nat)
  /-- GATE_DIAG_REQUEST (R215): A GDI or GDL diagnostic request runs or is answered DEFERRED. -/
  | gateDiagRequest (cyc : Nat) (who : Writer) (gdl : Bool) (value : Word)
  /-- GATE_DIAG_COMPLETE (R216): A diagnostic item completes and its result is submitted for accession. -/
  | gateDiagComplete (cyc : Nat) (gdl : Bool) (i : Nat) (h : DiagReading) (l : DiagReading)
  /-- ISOLATED_RAIL_UNDERVOLTAGE (R217): An isolated channel's rail leaves its window for 1 µs and the channel turns off. -/
  | isolatedRailUndervoltage (cyc : Nat) (ch : Fin 32)
  /-- BARRIER_LOSS (R217): A secondary gets no valid message for 2 µs and turns off softly. -/
  | barrierLoss (cyc : Nat) (ch : Fin 32)
  /-- DRIVE_SUPPLY_LOW (R217): The 12 V drive supply stays below 10 V for 1 µs and every low-voltage channel turns off. -/
  | driveSupplyLow (cyc : Nat)
  /-- LVC_FAST_TRIP (R235): A phase comparator crosses SCTHR and the phase is blocked. -/
  | lvcFastTrip (cyc : Nat) (phase : Fin 6)
  /-- LVC_OUTPUT_OVERVOLTAGE (R241): LVC_SENSE exceeds OVP for 1 µs and the buck latches off. -/
  | lvcOutputOvervoltage (cyc : Nat)
  /-- LVC_OUTPUT_SHORT (R236): The output stays low for 2 × TSS ticks and the machine enters HICCUP or LATCHED. -/
  | lvcOutputShort (cyc : Nat)
  /-- LVC_HICCUP_END (R236): HICCUP lasts 100 ms and the machine re-enters SOFTSTART. -/
  | lvcHiccupEnd (cyc : Nat)
  /-- LVC_RETRY_CLEAR (R236): One second of good output clears RETRY. -/
  | lvcRetryClear (cyc : Nat)
  /-- LVC_PRECHARGE_TIMEOUT (R231): PRECHG lasts PCMAX ticks without reaching SOFTSTART. -/
  | lvcPrechargeTimeout (cyc : Nat)
  /-- LVC_SHED_START (R238): Low current holds for SHDWELL ticks and the highest phase begins ramp-out. -/
  | lvcShedStart (cyc : Nat)
  /-- LVC_BURST_ENTRY (R240): Low load holds for 64 ticks and the machine enters BURST-ON. -/
  | lvcBurstEntry (cyc : Nat)
  /-- LVC_ENABLE_WRITE (R241): A write of LVC_CTRL.EN enables or disables the converter. -/
  | lvcEnableWrite (cyc : Nat) (who : Writer) (value : Word)
  /-- LVC_CLEAR (R236): LVC_CTRL.CLR clears LATCHED. -/
  | lvcClear (cyc : Nat) (who : Writer) (value : Word)
  /-- LVC_DIAG_REQUEST (R242): A request runs fast-trip comparator tests or is answered DEFERRED. -/
  | lvcDiagRequest (cyc : Nat) (who : Writer) (value : Word)
  /-- LVC_DIAG_COMPLETE (R242): A fast-trip test completes and its result is submitted for accession. -/
  | lvcDiagComplete (cyc : Nat) (phase : Fin 6) (high : Bool) (low : Bool)
  /-- LVC_FAULT_RECORD_WRITE (R245): A queued fault record is written to flash and verified. -/
  | lvcFaultRecordWrite (cyc : Nat) (ok : Bool)
  /-- CHG_START (R262): START in CHG_CTRL is accepted into REQUEST or refused. -/
  | chgStart (cyc : Nat) (who : Writer) (value : Word)
  /-- CHG_STOP (R274): STOP in CHG_CTRL enters STOPPING with TERM 1. -/
  | chgStop (cyc : Nat) (who : Writer) (value : Word)
  /-- CHG_TIMER_CLEAR (R271): TCLR clears the safety-timer count, or is ignored in a timed state. -/
  | chgTimerClear (cyc : Nat) (who : Writer) (value : Word)
  /-- CHG_IMPEDANCE_RESTART (R268): ZRST restarts the impedance plan from point 0. -/
  | chgImpedanceRestart (cyc : Nat) (who : Writer) (value : Word)
  /-- CHG_PULSE_WRITE (R266): A CHG_PULSE write sets the pulse timing or is ignored. -/
  | chgPulseWrite (cyc : Nat) (who : Writer) (value : Word)
  /-- CHG_TIMER_WRITE (R271): A CHG_TIMER write sets TLIM from its accession tick or is ignored. -/
  | chgTimerWrite (cyc : Nat) (who : Writer) (value : Word)
  /-- PILOT_PERIOD (R257): One pilot period is measured and the CP state and duty are decoded. -/
  | pilotPeriod (cyc : Nat) (high : Int) (low : Int) (freq : Nat) (duty : Nat)
  /-- PROXIMITY_MEASUREMENT (R259): The PP resistance is measured every 10 ms and the cable rating is decoded. -/
  | proximityMeasurement (cyc : Nat) (ohms : Nat)
  /-- BMS_PERMIT_CHANGE (R274): BMS_PERMIT opens or closes. -/
  | bmsPermitChange (cyc : Nat) (closed : Bool)
  /-- SEQUENCE_TIMEOUT (R263): REQUEST, PRECHG or BUS runs out its time and the charge ends in DONE. -/
  | sequenceTimeout (cyc : Nat)
  /-- PULSE_PHASE_END (R266): An ON or REST phase reaches its length and the other begins. -/
  | pulsePhaseEnd (cyc : Nat)
  /-- STOPPING_RAMP_END (R264): S6 reaches zero, the slots stop and the machine enters DONE. -/
  | stoppingRampEnd (cyc : Nat)
  /-- SAFETY_TIMER_EXPIRY (R272): The charge count reaches its limit and the machine stops with TERM 2. -/
  | safetyTimerExpiry (cyc : Nat)
  /-- GRID_FAULT (R256): A grid condition persists and the charge ends with TERM 8. -/
  | gridFault (cyc : Nat)
  /-- IMPEDANCE_POINT_END (R270): A point's window ends and its impedance and VALID are computed. -/
  | impedancePointEnd (cyc : Nat)
  /-- DRIVE_BLOCKED (R289): No hall edge for STALLT ticks at duty: an end-stop or a stall. -/
  | driveBlocked (cyc : Nat) (d : Fin 6)
  /-- HALL_FAULT (R290): INV or SKIP persists, so position is lost and the drive is held safe. -/
  | hallFault (cyc : Nat) (d : Fin 6)
  /-- HALL_FAULT_CLEAR (R290): 64 clean sets clear HALLFLT. -/
  | hallFaultClear (cyc : Nat) (d : Fin 6)
  /-- PUMP_RETRY_END (R292): A pump's one-second RETRY ends in RUN or OFF. -/
  | pumpRetryEnd (cyc : Nat) (d : Fin 6)
  /-- PUMP_COMMAND_MEASUREMENT (R291): ACT completes a measurement of the pump command pin. -/
  | pumpCommandMeasurement (cyc : Nat) (p : Fin 2) (value : Nat) (freq : Nat) (held : Bool)
  /-- ACT_DRIVE_REQUEST (R285): An ACT_DRV_REQ write submits a request code. -/
  | actDriveRequest (cyc : Nat) (who : Writer) (d : Fin 6) (value : Word)
  /-- ACT_PUMP_FAULT_CLEAR (R292): CLR in ACT_DRV_REQ clears pump FAULT. -/
  | actPumpFaultClear (cyc : Nat) (who : Writer) (d : Fin 6) (value : Word)
  /-- ACT_PUMP_SETPOINT (R291): An ACT_PMP_SPD write submits a pump setpoint. -/
  | actPumpSetpoint (cyc : Nat) (who : Writer) (d : Fin 6) (value : Word)
  /-- START_CREDIT_WAIT (R481): A start has waited 250 ms for credits and raises 0x4809. -/
  | startCreditWait (cyc : Nat)
  /-- INBOX_READ (R306): A LANE_L_IN_DATA read returns the next word of the tick's entries. -/
  | inboxRead (cyc : Nat) (lane : Lane) (bad : Bool)
  /-- JOURNAL_READ (R343): A LANE_JRN_DATA read returns a journal word and advances the address. -/
  | journalRead (cyc : Nat) (bad : Bool)
  /-- CHECKPOINT_START (R310): A checkpoint tick ends and the lane copies its state into the Archive. -/
  | checkpointStart (cyc : Nat) (lane : Lane)
  /-- CHECKPOINT_COMPLETE (R311): The copy and its CRC complete, and the checkpoint becomes usable and is compared. -/
  | checkpointComplete (cyc : Nat) (lane : Lane) (ok : Bool)
  /-- SIEVE_FRAME_ARRIVAL (R315): A frame reaches the Sieve and is accepted, compared or discarded. -/
  | sieveFrameArrival (cyc : Nat) (lane : Lane) (k : Fin 16) (chkOk : Bool)
  /-- SIEVE_CUTOFF (R314): Cycle P − 128 closes frame acceptance, substitutes frames and judges disagreements. -/
  | sieveCutoff (cyc : Nat)
  /-- OUTGOING_MESSAGE_SIEVE (R317): A tick-context message copy is transmitted, held or compared by flow. -/
  | outgoingMessageSieve (cyc : Nat) (lane : Lane)
  /-- LANE_RECOVERY_START (R322): A lane's F2 puts it in RESET at the next boundary and begins recovery. -/
  | laneRecoveryStart (cyc : Nat) (lane : Lane)
  /-- CODE_CHECK_COMPLETE (R322): The code check and coefficient transfer complete, with a reload if the check failed. -/
  | codeCheckComplete (cyc : Nat) (lane : Lane)
  /-- RECOVERY_CHECKPOINT_LOAD (R322): The healthy lane's next usable checkpoint is copied to the recovering lane. -/
  | recoveryCheckpointLoad (cyc : Nat) (lane : Lane)
  /-- LANE_ADMISSION (R324): Two equal SHADOW ticks readmit the recovering lane. -/
  | laneAdmission (cyc : Nat) (lane : Lane)
  /-- RECOVERY_TIMEOUT (R324): A lane not admitted within 64 ticks restarts recovery with 0x3004. -/
  | recoveryTimeout (cyc : Nat) (lane : Lane)
  /-- BOTH_LANE_RESTART (R325): Both lanes enter RESET and Bedrock's ride-through hold begins. -/
  | bothLaneRestart (cyc : Nat)
  /-- CROSS_LANE_LINK_LOSS (R325): The cross-lane link carries no valid transfer for 2 ticks. -/
  | crossLaneLinkLoss (cyc : Nat)
  /-- HOLD_LIMIT_REACHED (R328): A slot's held boundaries reach HOLDLIM and it goes to its safe state. -/
  | holdLimitReached (cyc : Nat) (k : Fin 16)
  /-- RESTORE_COMPLETE (R329): Each lane finishes restoring its newest usable checkpoint. -/
  | restoreComplete (cyc : Nat) (lane : Lane) (sramErr : Bool)
  /-- REPLAY_TICK (R330): A journalled tick is replayed back to back and its frames are compared. -/
  | replayTick (cyc : Nat) (wA : List (Nat × Word)) (wB : List (Nat × Word)) (last : Nat) (done : Nat)
  /-- RESYNC_TICK (R331): The first boundary after replay applies skipped entries and advances the estimators. -/
  | resyncTick (cyc : Nat)
  /-- ARRANGEMENT_REQUEST (R337): A LANE_ARR write requests paired or split and is accessioned or refused. -/
  | arrangementRequest (cyc : Nat) (who : Writer) (value : Word)
  /-- ARRANGEMENT_HANDOVER (R339): The arrangement changes after the next checkpoint, for split to paired by a planned restart. -/
  | arrangementHandover (cyc : Nat)
  /-- WATCHDOG_KICK (R343): KICK in LANE_L_CMD restarts the background watchdog. -/
  | watchdogKick (cyc : Nat) (who : Writer) (lane : Lane)
  /-- LANE_SELF_FAULT (R343): SELF in LANE_L_CMD declares a fault of this lane. -/
  | laneSelfFault (cyc : Nat) (who : Writer) (lane : Lane)
  /-- WATCHDOG_EXPIRY (R320): TMO ms without KICK sets WDOG and raises a lane fault. -/
  | watchdogExpiry (cyc : Nat) (lane : Lane)
  /-- DRAM_ERROR (R347): A DRAM read corrects one symbol or poisons an uncorrectable codeword, attributed by part. -/
  | dramError (cyc : Nat) (req : Nat) (addr : BitVec 32) (sym : Option Nat)
  /-- SCRUB_LINE (R350): The patrol scrub reads and corrects one line every 1.28 ms. -/
  | scrubLine (cyc : Nat)
  /-- REFRESH_FAILURE (R349): A refresh cannot be issued in time, or too many codewords fail, raising an F4; `ns` is the time
  since the refresh before it. -/
  | refreshFailure (cyc ns : Nat)
  /-- DESCRIPTOR_POST (R355): A DMA_R_TAIL write posts descriptors for the ring to fetch and execute. -/
  | descriptorPost (cyc : Nat) (who : Writer) (lane : Lane) (r : Fin 16) (value : Word)
  /-- TRANSACTION_ISSUE (R357): The engine translates and issues a 256-byte transaction. -/
  | transactionIssue (cyc : Nat) (lane : Lane)
  /-- TRANSACTION_COMPLETE (R358): A transaction completes and may complete its descriptor with a completion record. -/
  | transactionComplete (cyc : Nat) (lane : Lane) (r : Fin 16) (i : Fin 32)
  /-- COMPLETION_WRITE (R359): The Collator writes a completion record once order and queue room allow. -/
  | completionWrite (cyc : Nat) (lane : Lane) (r : Fin 16)
  /-- STREAM_RECORD (R361): A producing port hands a record to its ring, which takes or drops it. -/
  | streamRecord (cyc : Nat) (lane : Lane) (r : Fin 16)
  /-- RING_RESUME (R365): RESUME replays a faulted ring's parked transactions. -/
  | ringResume (cyc : Nat) (who : Writer) (lane : Lane) (r : Fin 16)
  /-- RING_ABORT (R366): ABORT discards parked and unissued transactions and halts the ring. -/
  | ringAbort (cyc : Nat) (who : Writer) (lane : Lane) (r : Fin 16)
  /-- RING_GO (R366): GO returns a halted ring to RUNNING. -/
  | ringGo (cyc : Nat) (who : Writer) (lane : Lane) (r : Fin 16)
  /-- IOTLB_INVALIDATE (R354): A DMA_L_INVAL write invalidates IOTLB entries by scope. -/
  | iotlbInvalidate (cyc : Nat) (who : Writer) (lane : Lane) (value : Word)
  /-- CRC_START (R368): START initialises a check-value unit and scans LEN bytes. -/
  | crcStart (cyc : Nat) (who : Writer) (lane : Lane) (u : Fin 4)
  /-- CRC_CONT (R368): CONT continues a scan from POS with v as it stands. -/
  | crcCont (cyc : Nat) (who : Writer) (lane : Lane) (u : Fin 4)
  /-- CRC_STOP (R369): STOP halts the scan at the next block end. -/
  | crcStop (cyc : Nat) (who : Writer) (lane : Lane) (u : Fin 4)
  /-- CRC_SCAN_BLOCK (R369): A unit finishes a 64-byte block, or completes, faults or errors at it. -/
  | crcScanBlock (cyc : Nat) (lane : Lane) (u : Fin 4)
  /-- TIME_RATE_WRITE (R377): A TIME_RATE write sets the rate trim, clamped at ±200 ppm. -/
  | timeRateWrite (cyc : Nat) (who : Writer) (value : Word)
  /-- TIME_SLEW_WRITE (R377): A TIME_SLEW write adds to the pending slew. -/
  | timeSlewWrite (cyc : Nat) (who : Writer) (value : Word)
  /-- EVENT_DELIVERY (R380): A block delivers an event to the Collator within 1 µs of its stamp. -/
  | eventDelivery (cyc : Nat) (i : Nat)
  /-- COLLATOR_RELEASE (R380): An event 2 µs old is released in order and queued as a Catalogue record. -/
  | collatorRelease (cyc : Nat)
  /-- CATALOGUE_STREAM (R382): The writer passes queued records to port 4 of the service lane. -/
  | catalogueStream (cyc : Nat) (n : Nat)
  /-- FLASH_CATALOGUE_WRITE (R383): A record of class F1 or higher, or a boot record, is written to the flash Catalogue. -/
  | flashCatalogueWrite (cyc : Nat) (ok : Bool)
  /-- CAPTURE_ARM (R385): ARM arms the fault capture from the next boundary. -/
  | captureArm (cyc : Nat) (who : Writer) (value : Word)
  /-- CAPTURE_DISARM (R392): DISARM disarms the fault capture. -/
  | captureDisarm (cyc : Nat) (who : Writer) (value : Word)
  /-- CAPTURE_FREEZE (R385): POST lines after the trigger, the store freezes. -/
  | captureFreeze (cyc : Nat)
  /-- CAPTURE_FLASH_COPY (R386): A frozen store is copied to a flash slot with its header. -/
  | captureFlashCopy (cyc : Nat)
  /-- CAPTURE_DATA_READ (R392): A TIME_CAP_DATA read returns a stored word and advances the address. -/
  | captureDataRead (cyc : Nat)
  /-- FRAME_RECEIVE (R388): A received Ethernet or CAN frame is matched to a flow and delivered, accessioned or discarded. -/
  | frameReceive (cyc : Nat) (p : Fin 7) (ago : Nat) (etype : Nat) (vid : Option Nat) (ide : Bool) (id : Nat) (fdf : Bool) (brs : Bool) (esi : Bool) (payload : List Nat)
  /-- TICK_MESSAGE_SEND (R390): A NET_L_TXCMD write sends a message slot or is refused. -/
  | tickMessageSend (cyc : Nat) (who : Writer) (lane : Lane) (value : Word)
  /-- TRANSMIT_STAMP_READ (R394): A NET_P_TXTS_INFO read latches and removes the oldest transmit stamp. -/
  | transmitStampRead (cyc : Nat) (who : Writer) (p : Fin 7)
  /-- LINK_STATE_CHANGE (R396): An Ethernet link goes down or up. -/
  | linkStateChange (cyc : Nat) (p : Fin 3) (up : Bool)
  /-- CAN_ERROR_STATE_CHANGE (R387): A CAN controller becomes error-passive or bus-off and recovers. -/
  | canErrorStateChange (cyc : Nat) (c : Fin 4) (st : Fin 3) (tec : BitVec 8) (rec_ : BitVec 8)
  /-- PLCA_BEACON_LOST (R396): The 10BASE-T1S port sees no PLCA beacon for 10 ms. -/
  | plcaBeaconLost (cyc : Nat)
  /-- SAFETY_CYCLE (R398): An evaluator runs its safety cycle: inputs, remote bits, functions, timers, enables and exchange. -/
  | safetyCycle (cyc : Nat) (sp : Bool) (levels : List (Int × Int))
  /-- EXCHANGE_LOSS (R400): No exchange arrives for 2 × SCYC and the evaluator withdraws its enables. -/
  | exchangeLoss (cyc : Nat) (sp : Bool)
  /-- TEST_PULSE (R403): A TP output pulses low and its channels are checked for shorts. -/
  | testPulse (cyc : Nat) (sp : Bool) (k : Fin 8) (lowA : BitVec 16) (lowB : BitVec 16) (dipA : BitVec 16) (dipB : BitVec 16) (readback : Bool)
  /-- INPUT_DISCREPANCY (R402): Channels disagree for longer than DISC and the input enters fault. -/
  | inputDiscrepancy (cyc : Nat) (sp : Bool) (i : Fin 16)
  /-- SS1_EXPIRY (R412): The SS1 timer expires, the slot goes under STO and standstill is checked. -/
  | ss1Expiry (cyc : Nat) (sp : Bool) (k : Fin 16)
  /-- SAFE_OUTPUT_TEST (R415): Each evaluator opens its switch for 200 µs and reads the output back. -/
  | safeOutputTest (cyc : Nat) (sp : Bool) (o : Fin 4) (ok : Bool)
  /-- AEDDY_RECEIVE (R420): A safe-channel message is checked and accepted or discarded. -/
  | aeddyReceive (cyc : Nat)
  /-- AEDDY_WATCHDOG_EXPIRY (R421): A connection's watchdog reaches WD and its remote bits read 0. -/
  | aeddyWatchdogExpiry (cyc : Nat) (c : Fin 8)
  /-- AEDDY_TRANSMIT (R422): The safety processor sends a message per period or on a SAFEBITS change. -/
  | aeddyTransmit (cyc : Nat) (c : Fin 8)
  /-- AEDDY_ACK (R421): AEACK in SAFE_CMD completes a relatched recovery. -/
  | aeddyAck (cyc : Nat) (who : Writer) (value : Word)
  /-- SESSION_OPEN (R423): OPEN submits a password for checking. -/
  | sessionOpen (cyc : Nat) (who : Writer) (value : Word)
  /-- PASSWORD_CHECK_COMPLETE (R424): The iterated hash completes and the session opens or the attempt fails. -/
  | passwordCheckComplete (cyc : Nat) (ok : Bool)
  /-- SESSION_CLOSE (R425): CLOSE closes the session, or is refused in SERVICE. -/
  | sessionClose (cyc : Nat) (who : Writer) (value : Word) (ok : Bool)
  /-- SESSION_TIMEOUT (R425): SESSTMO passes without a session command and the session closes. -/
  | sessionTimeout (cyc : Nat) (ok : Bool)
  /-- SET_PASSWORD (R426): SETPW writes a new password record. -/
  | setPassword (cyc : Nat) (who : Writer) (value : Word) (ok : Bool)
  /-- IMAGE_BEGIN (R451): BEGIN erases the staging bank's blocks. -/
  | imageBegin (cyc : Nat) (who : Writer) (value : Word)
  /-- STAGING_ERASE_COMPLETE (R451): The erase completes and STAGE reads 2. -/
  | stagingEraseComplete (cyc : Nat) (ok : Bool)
  /-- IMAGE_PAGE_PROGRAM (R451): A port-5 descriptor's pages are programmed and read back, or refused. -/
  | imagePageProgram (cyc : Nat) (lane : Lane) (r : Fin 16) (ok : Bool)
  /-- IMAGE_VERIFY (R452): VERIFY checks the staged image under every rejection rule. -/
  | imageVerify (cyc : Nat) (who : Writer) (value : Word)
  /-- IMAGE_VERIFY_COMPLETE (R445): The check ends and STAGE reads 5 or 7, with any rejection reported. -/
  | imageVerifyComplete (cyc : Nat)
  /-- IMAGE_COMMIT (R452): COMMIT writes and verifies the commit record, after any session check. -/
  | imageCommit (cyc : Nat) (who : Writer) (value : Word) (logOk : Bool) (ok : Bool)
  /-- IMAGE_ABORT (R453): ABORT returns STAGE to 0. -/
  | imageAbort (cyc : Nat) (who : Writer) (value : Word)
  /-- IMAGE_REBOOT (R453): REBOOT performs a device reset in STANDBY or is refused. -/
  | imageReboot (cyc : Nat) (who : Writer) (value : Word)
  /-- INVALID_IMAGE_COMMAND (R453): An IMG_CMD value without meaning is ignored with 0x4407. -/
  | invalidImageCommand (cyc : Nat) (who : Writer) (value : Word)
  /-- KEY_PROGRAM (R448): IMG_KEYCMD programs a key slot from IMG_KEYBUF. -/
  | keyProgram (cyc : Nat) (who : Writer) (value : Word)
  /-- KEY_REVOKE (R448): IMG_KEYCMD revokes a programmed key slot. -/
  | keyRevoke (cyc : Nat) (who : Writer) (value : Word)
  /-- SLOT_MACHINE_REQUEST (R444): An IMG_SM_REQ write submits a request code. -/
  | slotMachineRequest (cyc : Nat) (who : Writer) (k : Fin 16) (value : Word)
  /-- RECOVERY_FRAME (R456): The recovery loader stages a received image frame and answers it. -/
  | recoveryFrame (cyc : Nat) (payload : List Nat) (ok : Bool)
  /-- POWER_ON (R468): VIN_AUX is applied and the device boots with CAUSE 0. -/
  | powerOn (cyc : Nat) (sources : BitVec 16)
  /-- RST_N_ASSERT (R468): RST_N held low for 10 µs starts a device reset. -/
  | rstNAssert (cyc : Nat)
  /-- VIN_AUX_LOW (R468): VIN_AUX falls below 8.0 V and the rails power down before reset. -/
  | vinAuxLow (cyc : Nat)
  /-- RAIL_FAULT (R464): A rail leaves its window for 2 µs and causes a device reset. -/
  | railFault (cyc : Nat) (rail : Fin 6)
  /-- DEVICE_RESET (R469): Every reset domain except wake logic and Bedrock is reset and boot runs. -/
  | deviceReset (cyc : Nat)
  /-- POWER_UP_SEQUENCE (R465): The rails are enabled in order and each must become good within 2 ms. -/
  | powerUpSequence (cyc : Nat) (good : Fin 7)
  /-- RAIL_RISE_TIMEOUT (R465): A rail not good within 2 ms powers the rails down for a retry. -/
  | railRiseTimeout (cyc : Nat)
  /-- POWER_DOWN_SEQUENCE (R466): The rails are disabled in reverse order. -/
  | powerDownSequence (cyc : Nat)
  /-- BOOT_COMPLETE (R471): Boot ends in STANDBY with DEV_OK high, or in the recovery state. -/
  | bootComplete (cyc : Nat) (levels : List (Bool × Bool)) (halls : List Nat) (env : BoundaryIn)
  /-- CRYSTAL_LOSS (R470): Bedrock finds the crystal off by 5 % and holds every slot safe. -/
  | crystalLoss (cyc : Nat)
  /-- CRYSTAL_RESTORED (R470): The crystal stays within 1 % for 10 ms and a device reset follows. -/
  | crystalRestored (cyc : Nat)
  /-- SLEEP_ENTRY (R477): After SLEEP takes effect, PWR stops the tick, closes the session, drains flash and powers down. -/
  | sleepEntry (cyc : Nat) (logOk : Bool)
  /-- WAKE_SOURCE (R478): A wake source asserts and starts a wake, joined by sources within 1 ms. -/
  | wakeSource (cyc : Nat) (src : Fin 16) (late : Bool)
  /-- WAKE_TIMER_EXPIRY (R478): The wake timer expires in SLEEP. -/
  | wakeTimerExpiry (cyc : Nat)
  /-- ISOLATED_RAIL_RECOVERY (R217): An isolated channel whose rails have been above 16.0 V and below −4.5 V for 1 ms recovers without a latch and waits for its frames. -/
  | isolatedRailRecovery (cyc : Nat) (ch : Fin 32)
  /-- PUMP_FAULT_RECOVERY (R207): A high-side pump output that has been above 11.0 V for 1 ms sets PUMPOK back to 1. -/
  | pumpFaultRecovery (cyc : Nat) (leg : Fin 24)
  /-- DRIVE_SUPPLY_RESTORED (R295): The 12 V low-voltage drive supply returns above its threshold and the drives may block or fault as they restart. -/
  | driveSupplyRestored (cyc : Nat)
  /-- VDDA_RESTORED (R89): VDDA rises back above its monitor threshold, VDDA_OK sets and ACQ stops discarding samples. -/
  | vddaRestored (cyc : Nat)
  /-- VIN_AUX_RESTORED (R468): VIN_AUX rises back above 8.5 V after a dip below 8.0 V and the device boots with CAUSE 6. -/
  | vinAuxRestored (cyc : Nat)
  /-- PILOT_CONSTANT_LEVEL (R257): After 3 ms of a constant pilot level with no PWM, CHG takes the decoded pilot state. -/
  | pilotConstantLevel (cyc : Nat) (level : Int)
  /-- SESSION_LOCKOUT_EXPIRY (R424): The password lockout time runs out, and the session state leaves locked-out so that attempts are accepted again. -/
  | sessionLockoutExpiry (cyc : Nat)
  /-- TIME_SLEW_COMPLETE (R377): The pending slew drains to zero, s returns to 0 and TIME_STATUS.SLEWING clears. -/
  | timeSlewComplete (cyc : Nat)
  /-- FRAME_TRANSMIT (R390): A port sends a queued message on the medium, stamps it and, for TSTAMP flows, enters the stamp in NET_P_TXTS. -/
  | frameTransmit (cyc : Nat) (p : Fin 7) (ago : Nat)
  /-- HEARTBEAT_TOGGLE (R483): Bedrock toggles HEARTBEAT every 1.000 ms on its own oscillator. -/
  | heartbeatToggle (cyc : Nat)
  /-- BEDROCK_SELF_TEST_FAIL (R483): Bedrock's own self-test or supply monitor fails, HEARTBEAT stops and DEV_OK falls. -/
  | bedrockSelfTestFail (cyc : Nat)
  /-- LANE_SRAM_ERROR (R349): A lane SRAM read finds a corrected error, raising 0x3404, or an uncorrectable one, raising F2 0x3405 and setting MEMECC. -/
  | laneSramError (cyc : Nat) (lane : Lane) (addr : BitVec 21) (corrected : Bool)
  /-- OTHER_LANE_PART_ACCESS (R348): A lane processor access outside tick context to the other lane's DRAM part returns an access fault and raises 0x0001 with cause 4. -/
  | otherLanePartAccess (cyc : Nat) (lane : Lane) (addr : BitVec 32) (width : Width) (write : Bool)
  deriving DecidableEq, Repr, Inhabited

end Sys2Proof
end

