-- ==== Sys2Proof/Decode.lean ====
section
/-! DEFINITION. The words of the table of operations and events: it gives none of its rows an encoding, so no word spells a
command. -/

namespace Sys2Proof

/-- The command that `nbits` bits of value `w` spell, by the table's bits: the table gives its rows no bits. -/
def decodeTableWord (_nbits _w : Nat) : Option Instr := none

end Sys2Proof
end

