-- ==== Sys2Proof/Machine/Arith.lean ====
section
/-! DEFINITION. The exact integer arithmetic of the pipeline: saturation, rounding, gains, roots, sines and arctangents
(R81, R115, R138, R146, R179), curves (R441) and the check values of frames and records. -/

namespace Sys2Proof.Machine

/-- `lo` to `hi`, the upper limit applied last as in R115. -/
def clampI (lo hi v : Int) : Int :=
  let y := if v < lo then lo else v
  if y > hi then hi else y

/-- Saturation to `n` signed bits. -/
def satN (n : Nat) (v : Int) : Int := clampI (-(2 ^ (n - 1))) (2 ^ (n - 1) - 1) v

/-- R115: clamps to −2^31 to 2^31 − 1. -/
def sat32 (v : Int) : Int := satN 32 v

/-- R115: a 64-bit addition that saturates. -/
def addsat64 (x y : Int) : Int := satN 64 (x + y)

/-- An arithmetic right shift, rounding toward −∞. -/
def asr (v : Int) (s : Nat) : Int := v / 2 ^ s

/-- Division toward zero; a zero divisor gives 0. -/
def tdiv (a b : Int) : Int := Int.tdiv a b

/-- Rounding of a quotient to the nearest integer, halves away from zero; the divisor is positive. -/
def roundHalfAway (a : Int) (b : Nat) : Int :=
  if a < 0 then -(((-a).toNat * 2 + b) / (2 * b) : Nat) else ((a.toNat * 2 + b) / (2 * b) : Nat)

/-- R138: the product of two Q2.29 values. -/
def mulq (a b : Int) : Int := sat32 (asr (a * b) 29)

/-- A gain: a mantissa and a shift (R146). -/
structure Gain where
  m : Int
  s : Nat
  deriving DecidableEq, Repr, Inhabited

/-- The gain of a register: S in [31:27], the signed mantissa M in [26:0] (R146, R160). -/
def gainOf (w : Word) : Gain := ⟨signed 27 (w.bits 26 0), w.bits 31 27⟩

/-- R146: a value times a gain. -/
def mulg (x : Int) (g : Gain) : Int := asr (x * g.m) g.s

/-- The wrapped 32-bit reading of an integer, as an unsigned number. -/
def u32 (v : Int) : Nat := unsigned 32 v

/-- The wrapped 32-bit reading of an integer, as a signed number. -/
def s32 (v : Int) : Int := signed 32 (u32 v)

/-- The integer square root, one bit at a time from bit `n - 1` down. -/
def isqrtBits : Nat → Nat → Nat → Nat
  | 0, _, r => r
  | i + 1, v, r => isqrtBits i v (if (r + 2 ^ i) * (r + 2 ^ i) ≤ v then r + 2 ^ i else r)

/-- The largest integer whose square is at most `v`, for a `v` below 2^80. -/
def isqrt (v : Int) : Int := isqrtBits 40 v.toNat 0

/-- 2π in units of 2^−96. -/
def twoPi96 : Nat := 497805226624462170461043889244

/-- Terms of the sine series: `t` is the term reached, `i` the next odd factor's index, `n` terms are left; all in units of 2^−96. -/
def sinTerms : Nat → Nat → Nat → Int → Int
  | 0, _, _, _ => 0
  | n + 1, i, x2, t => t + sinTerms n (i + 2) x2 (-(t * x2 / 2 ^ 96 / ((i + 1) * (i + 2) : Nat)))

/-- The sine of an angle of the first quarter, `k` counting 2^20 to the turn, times 2^30 and rounded. -/
def sinQuarter (k : Nat) : Int :=
  let x := twoPi96 * k / 2 ^ 20
  roundHalfAway (sinTerms 18 1 (x * x / 2 ^ 96) x) (2 ^ 66)

/-- R138: round_half_away(2^30 × sin(2π × θ[31:12] / 2^20)). -/
def sin30 (theta : Nat) : Int :=
  let k := theta / 2 ^ 12 % 2 ^ 20
  let q := k / 2 ^ 18
  let r := k % 2 ^ 18
  match q with
  | 0 => sinQuarter r
  | 1 => sinQuarter (2 ^ 18 - r)
  | 2 => -(sinQuarter r)
  | _ => -(sinQuarter (2 ^ 18 - r))

/-- R138: the cosine as the sine a quarter turn on. -/
def cos30 (theta : Nat) : Int := sin30 ((theta + 2 ^ 30) % 2 ^ 32)

/-- Terms of the arctangent series in units of 2^−96. -/
def atanTerms : Nat → Nat → Nat → Int → Int
  | 0, _, _, _ => 0
  | n + 1, i, x2, t => tdiv t i + atanTerms n (i + 2) x2 (-(tdiv (t * x2) (2 ^ 96)))

/-- One halving of an arctangent's argument r = x / 2^96: r / (1 + sqrt(1 + r²)). -/
def halveAtan (x : Nat) : Nat :=
  x * 2 ^ 96 / (2 ^ 96 + isqrtBits 100 (2 ^ 192 + x * x) 0)

/-- The angle of the ratio `a / b` with 0 ≤ a ≤ b, 0 < b, in 2^−32 turns and scaled by 2^40. -/
def atanRatio (a b : Nat) : Nat :=
  let x := halveAtan (halveAtan (halveAtan (a * 2 ^ 96 / b)))
  ((atanTerms 24 1 (x * x / 2 ^ 96) x).toNat * 8 * 2 ^ 72) / twoPi96

/-- R179: round_half_away(atan2(y, x) / 2π × 2^32) mod 2^32, with atan2 in (−π, π]; 0 at the origin. -/
def atan32 (y x : Int) : Nat :=
  let ay := y.natAbs
  let ax := x.natAbs
  if ay = 0 ∧ ax = 0 then 0 else
    let oct := if ay ≤ ax then atanRatio ay ax else 2 ^ 70 - atanRatio ax ay
    let half := if x < 0 then 2 ^ 71 - oct else oct
    u32 (roundHalfAway (if y < 0 then -(half : Int) else half) (2 ^ 40))

/-- R441: a curve's value; clamped at its ends, linear between its points, the division toward zero. -/
def evalCurve : List (Int × Int) → Int → Int
  | [], _ => 0
  | [p], _ => p.2
  | p :: q :: rest, x =>
    if x ≤ p.1 then p.2
    else if x < q.1 then p.2 + tdiv ((q.2 - p.2) * (x - p.1)) (q.1 - p.1)
    else evalCurve (q :: rest) x

/-! ### Check values -/

/-- One bit of a reflected CRC register. -/
def crcBit (poly r : Nat) : Nat := if r % 2 = 1 then (r / 2) ^^^ poly else r / 2

/-- One byte into a reflected CRC register. -/
def crcByte (poly r b : Nat) : Nat :=
  crcBit poly (crcBit poly (crcBit poly (crcBit poly (crcBit poly (crcBit poly (crcBit poly (crcBit poly (r ^^^ b))))))))

/-- CRC-32C (Castagnoli) of a list of bytes. -/
def crc32c (bytes : List Nat) : Nat := (bytes.foldl (crcByte 0x82F63B78) 0xFFFFFFFF) ^^^ 0xFFFFFFFF

/-- One bit of the CRC-16-CCITT register, most significant bit first. -/
def crc16Bit (r : Nat) : Nat := if r / 2 ^ 15 % 2 = 1 then ((r * 2) % 2 ^ 16) ^^^ 0x1021 else (r * 2) % 2 ^ 16

/-- One byte into the CRC-16-CCITT register. -/
def crc16Byte (r b : Nat) : Nat :=
  crc16Bit (crc16Bit (crc16Bit (crc16Bit (crc16Bit (crc16Bit (crc16Bit (crc16Bit (r ^^^ (b * 2 ^ 8)))))))))

/-- R172: CRC-16-CCITT with initial value 0xFFFF. -/
def crc16 (bytes : List Nat) : Nat := bytes.foldl crc16Byte 0xFFFF

/-- The `n` little-endian bytes of a number. -/
def leBytes : Nat → Nat → List Nat
  | 0, _ => []
  | n + 1, v => v % 256 :: leBytes n (v / 256)

/-- The number whose little-endian bytes these are. -/
def ofLeBytes : List Nat → Nat
  | [] => 0
  | b :: t => b + 256 * ofLeBytes t

/-- A list cut or filled with zeros to `n` entries. -/
def padTo (n : Nat) (l : List Nat) : List Nat := (l ++ List.replicate n 0).take n

end Sys2Proof.Machine
end

