-- ==== Sys2Proof/Machine/RegMap.lean ====
section
/-! DEFINITION. The register map of peripheral space (R7): for every register its name, its offset in peripheral space (the
block index in bits 23 to 16, the offset in the block's window below), its copies, who may write it and how, its reset
value and its rsn group (R11, R13). The field tables of the chapters give each row; the rule is named at each. -/

namespace Sys2Proof.Machine

/-- Which unit's absence makes a register absent (R3). The index in `pair`, `leg`, `drive` and `port` is the register's own. -/
inductive RegUnit where
  | always | resb | trb | chg | pair | leg | drive | port
  deriving DecidableEq, Repr

/-- How a register takes a write. -/
inductive RegKind where
  /-- A command register of R55: it goes to the shadow. -/
  | command
  /-- An asynchronous input without a row of its own (R302). -/
  | async
  /-- A register that a write changes at once. -/
  | plain
  /-- Read only: writes are ignored. -/
  | result
  /-- A register whose write is a row of the command table, with a meaning of its own. -/
  | ownRow
  /-- A register that the image loads and R14 locks. -/
  | locked
  deriving DecidableEq, Repr

/-- Where a register's reset value comes from. -/
inductive RegReset where
  | value (v : Nat)
  | sysId | silicon | sysUnits | uidLo | uidHi | channels | motors | gdi | chg | portCfg
  deriving DecidableEq, Repr

/-- One row of the map: the copies of a register lie `stride` apart, the outermost dimension first. -/
structure RegRow where
  name : String
  base : Nat
  dims : List (Nat × Nat)
  unit : RegUnit
  kind : RegKind
  /-- Bits that a write replaces. -/
  rw : Nat
  /-- Bits that a write replaces until the lock of R14 is set. -/
  rwl : Nat
  /-- Bits that a write of 1 clears. -/
  w1c : Nat
  reset : RegReset
  /-- The rsn group, empty for none (R13). -/
  group : String
  /-- Whether this is the group's lead. -/
  lead : Bool
  deriving DecidableEq, Repr

namespace Reg

/-- SYS_ID (R28). -/
abbrev SYS_ID : Nat := 0x00000
/-- SYS_SILICON (R29). -/
abbrev SYS_SILICON : Nat := 0x00004
/-- SYS_UNITS (R1,R2). -/
abbrev SYS_UNITS : Nat := 0x00008
/-- SYS_UID_LO (R30). -/
abbrev SYS_UID_LO : Nat := 0x0000C
/-- SYS_UID_HI (R30). -/
abbrev SYS_UID_HI : Nat := 0x00010
/-- SYS_MODE_REQ (R31). -/
abbrev SYS_MODE_REQ : Nat := 0x00020
/-- SYS_MODE_STAT (R32). -/
abbrev SYS_MODE_STAT : Nat := 0x00024
/-- SYS_MODE_LAST (R33). -/
abbrev SYS_MODE_LAST : Nat := 0x00028
/-- SYS_MODE_TLO (R34). -/
abbrev SYS_MODE_TLO : Nat := 0x0002C
/-- SYS_MODE_THI (R34). -/
abbrev SYS_MODE_THI : Nat := 0x00030
/-- SYS_IRQ_STAT (R35). -/
abbrev SYS_IRQ_STAT : Nat := 0x00040
/-- SYS_IRQ_EN (R35). -/
abbrev SYS_IRQ_EN : Nat := 0x00044
/-- TICK_PERIOD (R61). -/
abbrev TICK_PERIOD : Nat := 0x10000
/-- TICK_DEADLINE (R62). -/
abbrev TICK_DEADLINE : Nat := 0x10004
/-- TICK_LAWCAP (R62). -/
abbrev TICK_LAWCAP : Nat := 0x10008
/-- TICK_SEQ_LO (R63). -/
abbrev TICK_SEQ_LO : Nat := 0x10010
/-- TICK_SEQ_HI (R63). -/
abbrev TICK_SEQ_HI : Nat := 0x10014
/-- TICK_T0_LO (R63). -/
abbrev TICK_T0_LO : Nat := 0x10018
/-- TICK_T0_HI (R63). -/
abbrev TICK_T0_HI : Nat := 0x1001C
/-- TICK_CYCLE (R63). -/
abbrev TICK_CYCLE : Nat := 0x10020
/-- TICK_VEC_LO (R64). -/
abbrev TICK_VEC_LO (lane : Nat) : Nat := 0x10100 + 0x100 * lane
/-- TICK_VEC_HI (R64). -/
abbrev TICK_VEC_HI (lane : Nat) : Nat := 0x10104 + 0x100 * lane
/-- TICK_TASKDL (R65). -/
abbrev TICK_TASKDL (lane : Nat) : Nat := 0x10108 + 0x100 * lane
/-- TICK_WARN (R65). -/
abbrev TICK_WARN (lane : Nat) : Nat := 0x1010C + 0x100 * lane
/-- TICK_PREDICT (R65). -/
abbrev TICK_PREDICT (lane : Nat) : Nat := 0x10110 + 0x100 * lane
/-- TICK_LAST (R66). -/
abbrev TICK_LAST (lane : Nat) : Nat := 0x10114 + 0x100 * lane
/-- TICK_MINMARG (R66). -/
abbrev TICK_MINMARG (lane : Nat) : Nat := 0x10118 + 0x100 * lane
/-- TICK_OVRCNT (R66). -/
abbrev TICK_OVRCNT (lane : Nat) : Nat := 0x1011C + 0x100 * lane
/-- TICK_CMD (R67). -/
abbrev TICK_CMD (lane : Nat) : Nat := 0x10120 + 0x100 * lane
/-- TICK_CTX (R67). -/
abbrev TICK_CTX (lane : Nat) : Nat := 0x10124 + 0x100 * lane
/-- TICK_IRQ_STAT (R68). -/
abbrev TICK_IRQ_STAT (lane : Nat) : Nat := 0x10128 + 0x100 * lane
/-- TICK_IRQ_EN (R68). -/
abbrev TICK_IRQ_EN (lane : Nat) : Nat := 0x1012C + 0x100 * lane
/-- TICK_SAVE (R52). -/
abbrev TICK_SAVE (lane : Nat) (w : Nat) : Nat := 0x10140 + 0x100 * lane + 0x4 * w
/-- ACQ_STATUS (R90). -/
abbrev ACQ_STATUS : Nat := 0x20000
/-- ACQ_CAL_REQ (R90,R88). -/
abbrev ACQ_CAL_REQ : Nat := 0x20010
/-- ACQ_CAL_STAT (R90). -/
abbrev ACQ_CAL_STAT : Nat := 0x20014
/-- ACQ_URG_REQ (R90,R80). -/
abbrev ACQ_URG_REQ : Nat := 0x20020
/-- ACQ_URG_STAT (R90). -/
abbrev ACQ_URG_STAT : Nat := 0x20024
/-- ACQ_SNAP (R90). -/
abbrev ACQ_SNAP : Nat := 0x20030
/-- ACQ_COUNTS (R90). -/
abbrev ACQ_COUNTS : Nat := 0x20034
/-- ACQ_IRQ_STAT (R91). -/
abbrev ACQ_IRQ_STAT : Nat := 0x20040
/-- ACQ_IRQ_EN (R91). -/
abbrev ACQ_IRQ_EN : Nat := 0x20044
/-- ACQ_IN (R90). -/
abbrev ACQ_IN (i : Nat) : Nat := 0x20100 + 0x4 * i
/-- ACQ_CHK (R86,R90). -/
abbrev ACQ_CHK (c : Nat) : Nat := 0x20400 + 0x4 * c
/-- ACQ_SUP (R86,R90). -/
abbrev ACQ_SUP (k : Nat) : Nat := 0x20440 + 0x4 * k
/-- ACQ_RES_VALUE (R81,R90). -/
abbrev ACQ_RES_VALUE (n : Nat) : Nat := 0x21000 + 0x8 * n
/-- ACQ_RES_INFO (R83,R90). -/
abbrev ACQ_RES_INFO (n : Nat) : Nat := 0x21004 + 0x8 * n
/-- ACQ_TRK_MIN (R85,R90). -/
abbrev ACQ_TRK_MIN (t : Nat) : Nat := 0x21800 + 0x10 * t
/-- ACQ_TRK_MAX (R85,R90). -/
abbrev ACQ_TRK_MAX (t : Nat) : Nat := 0x21804 + 0x10 * t
/-- ACQ_TRK_CYC (R85,R90). -/
abbrev ACQ_TRK_CYC (t : Nat) : Nat := 0x21808 + 0x10 * t
/-- ACQ_TRK_FLAGS (R85,R90). -/
abbrev ACQ_TRK_FLAGS (t : Nat) : Nat := 0x2180C + 0x10 * t
/-- ACQ_ACFG_M (R81,R90). -/
abbrev ACQ_ACFG_M (n : Nat) : Nat := 0x22000 + 0x8 * n
/-- ACQ_ACFG_CTRL (R81,R90). -/
abbrev ACQ_ACFG_CTRL (n : Nat) : Nat := 0x22004 + 0x8 * n
/-- ACQ_TCFG_HI (R85,R90). -/
abbrev ACQ_TCFG_HI (t : Nat) : Nat := 0x22800 + 0x10 * t
/-- ACQ_TCFG_LO (R85,R90). -/
abbrev ACQ_TCFG_LO (t : Nat) : Nat := 0x22804 + 0x10 * t
/-- ACQ_TCFG_M (R85,R90). -/
abbrev ACQ_TCFG_M (t : Nat) : Nat := 0x22808 + 0x10 * t
/-- ACQ_TCFG_CTRL (R85,R90). -/
abbrev ACQ_TCFG_CTRL (t : Nat) : Nat := 0x2280C + 0x10 * t
/-- ACQ_SEQ_TRIG (R75,R90). -/
abbrev ACQ_SEQ_TRIG (q : Nat) : Nat := 0x23000 + 0x100 * q
/-- ACQ_SEQ_ENT (R74,R90). -/
abbrev ACQ_SEQ_ENT (q : Nat) (e : Nat) : Nat := 0x23080 + 0x100 * q + 0x4 * e
/-- POS_STATUS (R110). -/
abbrev POS_STATUS : Nat := 0x30000
/-- POS_SNAP (R110). -/
abbrev POS_SNAP : Nat := 0x30010
/-- POS_IRQ_STAT (R111). -/
abbrev POS_IRQ_STAT : Nat := 0x30040
/-- POS_IRQ_EN (R111). -/
abbrev POS_IRQ_EN : Nat := 0x30044
/-- POS_CH_CFG (R110). -/
abbrev POS_CH_CFG (x : Nat) : Nat := 0x30100 + 0x100 * x
/-- POS_CH_OFS (R110). -/
abbrev POS_CH_OFS (x : Nat) : Nat := 0x30104 + 0x100 * x
/-- POS_CH_FMT (R96-R99). -/
abbrev POS_CH_FMT (x : Nat) : Nat := 0x30108 + 0x100 * x
/-- POS_CH_LIM (R103). -/
abbrev POS_CH_LIM (x : Nat) : Nat := 0x3010C + 0x100 * x
/-- POS_CH_STILL (R102,R104). -/
abbrev POS_CH_STILL (x : Nat) : Nat := 0x30110 + 0x100 * x
/-- POS_CH_BASE (R110). -/
abbrev POS_CH_BASE (x : Nat) : Nat := 0x30114 + 0x100 * x
/-- POS_CH_ADVK (R105). -/
abbrev POS_CH_ADVK (x : Nat) : Nat := 0x30118 + 0x100 * x
/-- POS_CH_ANG (R94). -/
abbrev POS_CH_ANG (x : Nat) : Nat := 0x30120 + 0x100 * x
/-- POS_CH_SPD (R94). -/
abbrev POS_CH_SPD (x : Nat) : Nat := 0x30124 + 0x100 * x
/-- POS_CH_CNT (R96). -/
abbrev POS_CH_CNT (x : Nat) : Nat := 0x30128 + 0x100 * x
/-- POS_CH_FLT (R103,R104). -/
abbrev POS_CH_FLT (x : Nat) : Nat := 0x3012C + 0x100 * x
/-- POS_CH_SLOW (R98). -/
abbrev POS_CH_SLOW (x : Nat) : Nat := 0x30130 + 0x100 * x
/-- POS_HL_CFG (R100). -/
abbrev POS_HL_CFG (t : Nat) : Nat := 0x30400 + 0x20 * t
/-- POS_HL_STILL (R100,R102). -/
abbrev POS_HL_STILL (t : Nat) : Nat := 0x30404 + 0x20 * t
/-- POS_HL_ST (R100,R102). -/
abbrev POS_HL_ST (t : Nat) : Nat := 0x30408 + 0x20 * t
/-- POS_HL_SPD (R100). -/
abbrev POS_HL_SPD (t : Nat) : Nat := 0x3040C + 0x20 * t
/-- POS_PRB_CFG (R106). -/
abbrev POS_PRB_CFG (p : Nat) : Nat := 0x30600 + 0x100 * p
/-- POS_PRB_URG (R108). -/
abbrev POS_PRB_URG (p : Nat) : Nat := 0x30604 + 0x100 * p
/-- POS_PRB_NUM (R107). -/
abbrev POS_PRB_NUM (p : Nat) : Nat := 0x30608 + 0x100 * p
/-- POS_PRB_REC_TLO (R106). -/
abbrev POS_PRB_REC_TLO (p : Nat) (j : Nat) : Nat := 0x30640 + 0x100 * p + 0x10 * j
/-- POS_PRB_REC_THI (R106). -/
abbrev POS_PRB_REC_THI (p : Nat) (j : Nat) : Nat := 0x30644 + 0x100 * p + 0x10 * j
/-- POS_PRB_REC_ANG (R106). -/
abbrev POS_PRB_REC_ANG (p : Nat) (j : Nat) : Nat := 0x30648 + 0x100 * p + 0x10 * j
/-- POS_PRB_REC_INFO (R106,R107). -/
abbrev POS_PRB_REC_INFO (p : Nat) (j : Nat) : Nat := 0x3064C + 0x100 * p + 0x10 * j
/-- LAW_STATUS (R133). -/
abbrev LAW_STATUS (lane : Nat) : Nat := 0x40000 + 0x8000 * lane
/-- LAW_ECC (R131). -/
abbrev LAW_ECC (lane : Nat) : Nat := 0x40004 + 0x8000 * lane
/-- LAW_SWAP (R123). -/
abbrev LAW_SWAP (lane : Nat) : Nat := 0x40010 + 0x8000 * lane
/-- LAW_PRE_IDX (R121). -/
abbrev LAW_PRE_IDX (lane : Nat) : Nat := 0x40014 + 0x8000 * lane
/-- LAW_PRE_VAL (R121). -/
abbrev LAW_PRE_VAL (lane : Nat) : Nat := 0x40018 + 0x8000 * lane
/-- LAW_CW_ADDR (R122). -/
abbrev LAW_CW_ADDR (lane : Nat) : Nat := 0x40020 + 0x8000 * lane
/-- LAW_CW_DATA (R122). -/
abbrev LAW_CW_DATA (lane : Nat) : Nat := 0x40024 + 0x8000 * lane
/-- LAW_CW_STAT (R122). -/
abbrev LAW_CW_STAT (lane : Nat) : Nat := 0x40028 + 0x8000 * lane
/-- LAW_INJ_CTRL (R126). -/
abbrev LAW_INJ_CTRL (lane : Nat) : Nat := 0x40030 + 0x8000 * lane
/-- LAW_INJ_AMP (R125). -/
abbrev LAW_INJ_AMP (lane : Nat) : Nat := 0x40034 + 0x8000 * lane
/-- LAW_INJ_F0 (R125). -/
abbrev LAW_INJ_F0 (lane : Nat) : Nat := 0x40038 + 0x8000 * lane
/-- LAW_INJ_F1 (R125). -/
abbrev LAW_INJ_F1 (lane : Nat) : Nat := 0x4003C + 0x8000 * lane
/-- LAW_INJ_RATE (R125). -/
abbrev LAW_INJ_RATE (lane : Nat) : Nat := 0x40040 + 0x8000 * lane
/-- LAW_INJ_DUR (R126). -/
abbrev LAW_INJ_DUR (lane : Nat) : Nat := 0x40044 + 0x8000 * lane
/-- LAW_INJ_AUX (R125). -/
abbrev LAW_INJ_AUX (lane : Nat) : Nat := 0x40048 + 0x8000 * lane
/-- LAW_INJ_SEED (R126). -/
abbrev LAW_INJ_SEED (lane : Nat) : Nat := 0x4004C + 0x8000 * lane
/-- LAW_INJ_STAT (R126). -/
abbrev LAW_INJ_STAT (lane : Nat) : Nat := 0x40050 + 0x8000 * lane
/-- LAW_INJ_TICKS (R126). -/
abbrev LAW_INJ_TICKS (lane : Nat) : Nat := 0x40054 + 0x8000 * lane
/-- LAW_CAP_CFG (R127). -/
abbrev LAW_CAP_CFG (lane : Nat) : Nat := 0x40058 + 0x8000 * lane
/-- LAW_CAP_SIG0 (R127). -/
abbrev LAW_CAP_SIG0 (lane : Nat) : Nat := 0x4005C + 0x8000 * lane
/-- LAW_CAP_SIG1 (R127). -/
abbrev LAW_CAP_SIG1 (lane : Nat) : Nat := 0x40060 + 0x8000 * lane
/-- LAW_CAP_STAT (R127). -/
abbrev LAW_CAP_STAT (lane : Nat) : Nat := 0x40064 + 0x8000 * lane
/-- LAW_SNAP (R133). -/
abbrev LAW_SNAP (lane : Nat) : Nat := 0x40068 + 0x8000 * lane
/-- LAW_IRQ_STAT (R134). -/
abbrev LAW_IRQ_STAT (lane : Nat) : Nat := 0x40070 + 0x8000 * lane
/-- LAW_IRQ_EN (R134). -/
abbrev LAW_IRQ_EN (lane : Nat) : Nat := 0x40074 + 0x8000 * lane
/-- LAW_SLOT_CFG (R119). -/
abbrev LAW_SLOT_CFG (lane : Nat) (k : Nat) : Nat := 0x40100 + 0x8000 * lane + 0x20 * k
/-- LAW_SLOT_OSC (R128,R129). -/
abbrev LAW_SLOT_OSC (lane : Nat) (k : Nat) : Nat := 0x40104 + 0x8000 * lane + 0x20 * k
/-- LAW_SLOT_OSCAMP (R128). -/
abbrev LAW_SLOT_OSCAMP (lane : Nat) (k : Nat) : Nat := 0x40108 + 0x8000 * lane + 0x20 * k
/-- LAW_SLOT_INJMAX (R125). -/
abbrev LAW_SLOT_INJMAX (lane : Nat) (k : Nat) : Nat := 0x4010C + 0x8000 * lane + 0x20 * k
/-- LAW_SLOT_STAT (R116,R133). -/
abbrev LAW_SLOT_STAT (lane : Nat) (k : Nat) : Nat := 0x40110 + 0x8000 * lane + 0x20 * k
/-- LAW_SETP (R113). -/
abbrev LAW_SETP (lane : Nat) (k : Nat) (j : Nat) : Nat := 0x40400 + 0x8000 * lane + 0x20 * k + 0x4 * j
/-- LAW_SIG (R113,R133). -/
abbrev LAW_SIG (lane : Nat) (k : Nat) (j : Nat) : Nat := 0x41000 + 0x8000 * lane + 0x100 * k + 0x4 * j
/-- FOC_STATUS (R136,R160). -/
abbrev FOC_STATUS (lane : Nat) : Nat := 0x50000 + 0x8000 * lane
/-- FOC_SNAP (R160). -/
abbrev FOC_SNAP (lane : Nat) : Nat := 0x50010 + 0x8000 * lane
/-- FOC_M_CFG (R136,R145). -/
abbrev FOC_M_CFG (lane : Nat) (m : Nat) : Nat := 0x50100 + 0x8000 * lane + 0x100 * m
/-- FOC_M_ACC (R138). -/
abbrev FOC_M_ACC (lane : Nat) (m : Nat) : Nat := 0x50104 + 0x8000 * lane + 0x100 * m
/-- FOC_M_LD (R143). -/
abbrev FOC_M_LD (lane : Nat) (m : Nat) : Nat := 0x50108 + 0x8000 * lane + 0x100 * m
/-- FOC_M_LQ (R143). -/
abbrev FOC_M_LQ (lane : Nat) (m : Nat) : Nat := 0x5010C + 0x8000 * lane + 0x100 * m
/-- FOC_M_RS (R148). -/
abbrev FOC_M_RS (lane : Nat) (m : Nat) : Nat := 0x50110 + 0x8000 * lane + 0x100 * m
/-- FOC_M_PSI (R143). -/
abbrev FOC_M_PSI (lane : Nat) (m : Nat) : Nat := 0x50114 + 0x8000 * lane + 0x100 * m
/-- FOC_M_IMAX (R139,R143). -/
abbrev FOC_M_IMAX (lane : Nat) (m : Nat) : Nat := 0x50118 + 0x8000 * lane + 0x100 * m
/-- FOC_M_VLIM (R137,R143). -/
abbrev FOC_M_VLIM (lane : Nat) (m : Nat) : Nat := 0x5011C + 0x8000 * lane + 0x100 * m
/-- FOC_M_UDCA (R142). -/
abbrev FOC_M_UDCA (lane : Nat) (m : Nat) : Nat := 0x50120 + 0x8000 * lane + 0x100 * m
/-- FOC_M_UDCB (R142). -/
abbrev FOC_M_UDCB (lane : Nat) (m : Nat) : Nat := 0x50124 + 0x8000 * lane + 0x100 * m
/-- FOC_M_CRV (R141-R143). -/
abbrev FOC_M_CRV (lane : Nat) (m : Nat) : Nat := 0x50128 + 0x8000 * lane + 0x100 * m
/-- FOC_M_FW (R142,R143). -/
abbrev FOC_M_FW (lane : Nat) (m : Nat) : Nat := 0x5012C + 0x8000 * lane + 0x100 * m
/-- FOC_M_OKP (R148). -/
abbrev FOC_M_OKP (lane : Nat) (m : Nat) : Nat := 0x50130 + 0x8000 * lane + 0x100 * m
/-- FOC_M_OKI (R148). -/
abbrev FOC_M_OKI (lane : Nat) (m : Nat) : Nat := 0x50134 + 0x8000 * lane + 0x100 * m
/-- FOC_M_HKP (R146). -/
abbrev FOC_M_HKP (lane : Nat) (m : Nat) : Nat := 0x50138 + 0x8000 * lane + 0x100 * m
/-- FOC_M_HKI (R146). -/
abbrev FOC_M_HKI (lane : Nat) (m : Nat) : Nat := 0x5013C + 0x8000 * lane + 0x100 * m
/-- FOC_M_HKH (R146). -/
abbrev FOC_M_HKH (lane : Nat) (m : Nat) : Nat := 0x50140 + 0x8000 * lane + 0x100 * m
/-- FOC_M_KC (R148). -/
abbrev FOC_M_KC (lane : Nat) (m : Nat) : Nat := 0x50144 + 0x8000 * lane + 0x100 * m
/-- FOC_M_HFI (R149). -/
abbrev FOC_M_HFI (lane : Nat) (m : Nat) : Nat := 0x50148 + 0x8000 * lane + 0x100 * m
/-- FOC_M_PD (R147). -/
abbrev FOC_M_PD (lane : Nat) (m : Nat) : Nat := 0x5014C + 0x8000 * lane + 0x100 * m
/-- FOC_M_LOSS (R151). -/
abbrev FOC_M_LOSS (lane : Nat) (m : Nat) : Nat := 0x50150 + 0x8000 * lane + 0x100 * m
/-- FOC_M_EMF (R154). -/
abbrev FOC_M_EMF (lane : Nat) (m : Nat) : Nat := 0x50154 + 0x8000 * lane + 0x100 * m
/-- FOC_M_HMIN (R157). -/
abbrev FOC_M_HMIN (lane : Nat) (m : Nat) : Nat := 0x50158 + 0x8000 * lane + 0x100 * m
/-- FOC_M_IMK (R144). -/
abbrev FOC_M_IMK (lane : Nat) (m : Nat) : Nat := 0x5015C + 0x8000 * lane + 0x100 * m
/-- FOC_M_ADVK (R145). -/
abbrev FOC_M_ADVK (lane : Nat) (m : Nat) : Nat := 0x50160 + 0x8000 * lane + 0x100 * m
/-- FOC_M_KW (R146). -/
abbrev FOC_M_KW (lane : Nat) (m : Nat) : Nat := 0x50164 + 0x8000 * lane + 0x100 * m
/-- FOC_M_KT (R148). -/
abbrev FOC_M_KT (lane : Nat) (m : Nat) : Nat := 0x50168 + 0x8000 * lane + 0x100 * m
/-- FOC_M_RPSI (R148). -/
abbrev FOC_M_RPSI (lane : Nat) (m : Nat) : Nat := 0x5016C + 0x8000 * lane + 0x100 * m
/-- FOC_M_EMFK (R143). -/
abbrev FOC_M_EMFK (lane : Nat) (m : Nat) : Nat := 0x50170 + 0x8000 * lane + 0x100 * m
/-- FOC_M_KSL (R144). -/
abbrev FOC_M_KSL (lane : Nat) (m : Nat) : Nat := 0x50174 + 0x8000 * lane + 0x100 * m
/-- FOC_M_BASE (R136). -/
abbrev FOC_M_BASE (lane : Nat) (m : Nat) : Nat := 0x50178 + 0x8000 * lane + 0x100 * m
/-- FOC_M_CTRL (R160). -/
abbrev FOC_M_CTRL (lane : Nat) (m : Nat) : Nat := 0x50180 + 0x8000 * lane + 0x100 * m
/-- FOC_M_TQCMD (R141). -/
abbrev FOC_M_TQCMD (lane : Nat) (m : Nat) : Nat := 0x50184 + 0x8000 * lane + 0x100 * m
/-- FOC_M_TQLIM (R141). -/
abbrev FOC_M_TQLIM (lane : Nat) (m : Nat) : Nat := 0x50188 + 0x8000 * lane + 0x100 * m
/-- FOC_M_TQRATE (R141). -/
abbrev FOC_M_TQRATE (lane : Nat) (m : Nat) : Nat := 0x5018C + 0x8000 * lane + 0x100 * m
/-- FOC_M_STAT (R160). -/
abbrev FOC_M_STAT (lane : Nat) (m : Nat) : Nat := 0x501C0 + 0x8000 * lane + 0x100 * m
/-- FOC_M_ANG (R160). -/
abbrev FOC_M_ANG (lane : Nat) (m : Nat) : Nat := 0x501C4 + 0x8000 * lane + 0x100 * m
/-- FOC_M_SPD (R160). -/
abbrev FOC_M_SPD (lane : Nat) (m : Nat) : Nat := 0x501C8 + 0x8000 * lane + 0x100 * m
/-- FOC_M_TQEST (R160). -/
abbrev FOC_M_TQEST (lane : Nat) (m : Nat) : Nat := 0x501CC + 0x8000 * lane + 0x100 * m
/-- FOC_M_RESID (R160). -/
abbrev FOC_M_RESID (lane : Nat) (m : Nat) : Nat := 0x501D0 + 0x8000 * lane + 0x100 * m
/-- FOC_M_DERATE (R160). -/
abbrev FOC_M_DERATE (lane : Nat) (m : Nat) : Nat := 0x501D4 + 0x8000 * lane + 0x100 * m
/-- FOC_M_EVCNT (R160). -/
abbrev FOC_M_EVCNT (lane : Nat) (m : Nat) : Nat := 0x501D8 + 0x8000 * lane + 0x100 * m
/-- MOD_STATUS (R188). -/
abbrev MOD_STATUS (lane : Nat) : Nat := 0x60000 + 0x8000 * lane
/-- MOD_SNAP (R188). -/
abbrev MOD_SNAP (lane : Nat) : Nat := 0x60010 + 0x8000 * lane
/-- MOD_CFG (R164,R168,R188). -/
abbrev MOD_CFG (lane : Nat) (k : Nat) : Nat := 0x60100 + 0x8000 * lane + 0x40 * k
/-- MOD_PULSE (R168). -/
abbrev MOD_PULSE (lane : Nat) (k : Nat) : Nat := 0x60104 + 0x8000 * lane + 0x40 * k
/-- MOD_DTA (R166). -/
abbrev MOD_DTA (lane : Nat) (k : Nat) : Nat := 0x60108 + 0x8000 * lane + 0x40 * k
/-- MOD_DTB (R166). -/
abbrev MOD_DTB (lane : Nat) (k : Nat) : Nat := 0x6010C + 0x8000 * lane + 0x40 * k
/-- MOD_FLY (R179). -/
abbrev MOD_FLY (lane : Nat) (k : Nat) : Nat := 0x60110 + 0x8000 * lane + 0x40 * k
/-- MOD_FLYSEC (R181). -/
abbrev MOD_FLYSEC (lane : Nat) (k : Nat) : Nat := 0x60114 + 0x8000 * lane + 0x40 * k
/-- MOD_SPDSEC (R181,R182). -/
abbrev MOD_SPDSEC (lane : Nat) (k : Nat) : Nat := 0x60118 + 0x8000 * lane + 0x40 * k
/-- MOD_EMFMIN (R180). -/
abbrev MOD_EMFMIN (lane : Nat) (k : Nat) : Nat := 0x6011C + 0x8000 * lane + 0x40 * k
/-- MOD_CMD (R177,R183). -/
abbrev MOD_CMD (lane : Nat) (k : Nat) : Nat := 0x60120 + 0x8000 * lane + 0x40 * k
/-- MOD_RTGT (R176). -/
abbrev MOD_RTGT (lane : Nat) (k : Nat) : Nat := 0x60124 + 0x8000 * lane + 0x40 * k
/-- MOD_RACC (R176). -/
abbrev MOD_RACC (lane : Nat) (k : Nat) : Nat := 0x60128 + 0x8000 * lane + 0x40 * k
/-- MOD_RQDEC (R176). -/
abbrev MOD_RQDEC (lane : Nat) (k : Nat) : Nat := 0x6012C + 0x8000 * lane + 0x40 * k
/-- MOD_STAT (R177,R188). -/
abbrev MOD_STAT (lane : Nat) (k : Nat) : Nat := 0x60130 + 0x8000 * lane + 0x40 * k
/-- MOD_RAMP (R176). -/
abbrev MOD_RAMP (lane : Nat) (k : Nat) : Nat := 0x60134 + 0x8000 * lane + 0x40 * k
/-- MOD_FLYSPD (R180). -/
abbrev MOD_FLYSPD (lane : Nat) (k : Nat) : Nat := 0x60138 + 0x8000 * lane + 0x40 * k
/-- MOD_FLYANG (R180). -/
abbrev MOD_FLYANG (lane : Nat) (k : Nat) : Nat := 0x6013C + 0x8000 * lane + 0x40 * k
/-- GDI_STATUS (R219). -/
abbrev GDI_STATUS : Nat := 0x70000
/-- GDI_FAULT (R203,R219). -/
abbrev GDI_FAULT : Nat := 0x70004
/-- GDI_OV (R204,R219). -/
abbrev GDI_OV : Nat := 0x70008
/-- GDI_OVSTAT (R204,R219). -/
abbrev GDI_OVSTAT : Nat := 0x7000C
/-- GDI_SNAP (R219). -/
abbrev GDI_SNAP : Nat := 0x70010
/-- GDI_DIAG_REQ (R215). -/
abbrev GDI_DIAG_REQ : Nat := 0x70020
/-- GDI_CLR (R203). -/
abbrev GDI_CLR : Nat := 0x70024
/-- GDI_IRQ_STAT (R220). -/
abbrev GDI_IRQ_STAT : Nat := 0x70040
/-- GDI_IRQ_EN (R220). -/
abbrev GDI_IRQ_EN : Nat := 0x70044
/-- GDI_PR_CFG (R199,R219). -/
abbrev GDI_PR_CFG (p : Nat) : Nat := 0x70100 + 0x40 * p
/-- GDI_PR_STR (R197,R219). -/
abbrev GDI_PR_STR (p : Nat) : Nat := 0x70104 + 0x40 * p
/-- GDI_PR_TON (R196,R219). -/
abbrev GDI_PR_TON (p : Nat) : Nat := 0x70108 + 0x40 * p
/-- GDI_PR_TOFF (R196,R219). -/
abbrev GDI_PR_TOFF (p : Nat) : Nat := 0x7010C + 0x40 * p
/-- GDI_PR_TB4 (R196,R219). -/
abbrev GDI_PR_TB4 (p : Nat) : Nat := 0x70110 + 0x40 * p
/-- GDI_PR_SKEW (R193,R219). -/
abbrev GDI_PR_SKEW (p : Nat) : Nat := 0x70114 + 0x40 * p
/-- GDI_PR_STAT (R197,R219). -/
abbrev GDI_PR_STAT (p : Nat) : Nat := 0x70120 + 0x40 * p
/-- GDI_PR_TSWH (R196,R219). -/
abbrev GDI_PR_TSWH (p : Nat) : Nat := 0x70124 + 0x40 * p
/-- GDI_PR_TSWL (R196,R219). -/
abbrev GDI_PR_TSWL (p : Nat) : Nat := 0x70128 + 0x40 * p
/-- GDI_PR_DIAG (R216,R219). -/
abbrev GDI_PR_DIAG (p : Nat) : Nat := 0x7012C + 0x40 * p
/-- GDI_PR_CNT (R196,R219). -/
abbrev GDI_PR_CNT (p : Nat) : Nat := 0x70130 + 0x40 * p
/-- GDL_STATUS (R221). -/
abbrev GDL_STATUS : Nat := 0x80000
/-- GDL_FAULT (R221). -/
abbrev GDL_FAULT : Nat := 0x80004
/-- GDL_SNAP (R221). -/
abbrev GDL_SNAP : Nat := 0x80010
/-- GDL_DIAG_REQ (R215). -/
abbrev GDL_DIAG_REQ : Nat := 0x80020
/-- GDL_CLR (R209). -/
abbrev GDL_CLR : Nat := 0x80024
/-- GDL_IRQ_STAT (R222). -/
abbrev GDL_IRQ_STAT : Nat := 0x80040
/-- GDL_IRQ_EN (R222). -/
abbrev GDL_IRQ_EN : Nat := 0x80044
/-- GDL_LEG_CFG (R207,R211,R221). -/
abbrev GDL_LEG_CFG (j : Nat) : Nat := 0x80100 + 0x10 * j
/-- GDL_LEG_STAT (R207,R209,R221). -/
abbrev GDL_LEG_STAT (j : Nat) : Nat := 0x80104 + 0x10 * j
/-- GDL_DRV_CFG (R212,R221). -/
abbrev GDL_DRV_CFG (d : Nat) : Nat := 0x80400 + 0x10 * d
/-- GDL_DRV_STAT (R212,R213,R221). -/
abbrev GDL_DRV_STAT (d : Nat) : Nat := 0x80404 + 0x10 * d
/-- LVC_STATUS (R247). -/
abbrev LVC_STATUS : Nat := 0x90000
/-- LVC_CFG (R247). -/
abbrev LVC_CFG : Nat := 0x90004
/-- LVC_RATIO (R226). -/
abbrev LVC_RATIO : Nat := 0x90008
/-- LVC_ACC0 (R247). -/
abbrev LVC_ACC0 : Nat := 0x9000C
/-- LVC_ACC1 (R247). -/
abbrev LVC_ACC1 : Nat := 0x90010
/-- LVC_LIM (R233). -/
abbrev LVC_LIM : Nat := 0x90014
/-- LVC_PROT (R235,R241). -/
abbrev LVC_PROT : Nat := 0x90018
/-- LVC_SHED (R237,R238). -/
abbrev LVC_SHED : Nat := 0x9001C
/-- LVC_STEP (R237). -/
abbrev LVC_STEP : Nat := 0x90020
/-- LVC_BURST (R240). -/
abbrev LVC_BURST : Nat := 0x90024
/-- LVC_SS (R231,R232). -/
abbrev LVC_SS : Nat := 0x90028
/-- LVC_CTRL (R247). -/
abbrev LVC_CTRL : Nat := 0x90030
/-- LVC_DIAG_REQ (R242). -/
abbrev LVC_DIAG_REQ : Nat := 0x90034
/-- LVC_DIAG (R242). -/
abbrev LVC_DIAG : Nat := 0x90038
/-- LVC_SNAP (R228). -/
abbrev LVC_SNAP : Nat := 0x90040
/-- LVC_STAT (R230,R247). -/
abbrev LVC_STAT : Nat := 0x90044
/-- LVC_VOUT (R247). -/
abbrev LVC_VOUT : Nat := 0x90048
/-- LVC_VIN (R247). -/
abbrev LVC_VIN : Nat := 0x9004C
/-- LVC_IOUT (R247). -/
abbrev LVC_IOUT : Nat := 0x90050
/-- LVC_FRBASE (R245). -/
abbrev LVC_FRBASE : Nat := 0x90060
/-- LVC_FRSEQ (R247). -/
abbrev LVC_FRSEQ : Nat := 0x90064
/-- LVC_FRSTAT (R243). -/
abbrev LVC_FRSTAT : Nat := 0x90068
/-- LVC_IRQ_STAT (R248). -/
abbrev LVC_IRQ_STAT : Nat := 0x90070
/-- LVC_IRQ_EN (R248). -/
abbrev LVC_IRQ_EN : Nat := 0x90074
/-- CHG_STATUS (R277). -/
abbrev CHG_STATUS : Nat := 0xA0000
/-- CHG_CFG (R277). -/
abbrev CHG_CFG : Nat := 0xA0004
/-- CHG_ACC0 (R251). -/
abbrev CHG_ACC0 : Nat := 0xA0008
/-- CHG_ACC1 (R251). -/
abbrev CHG_ACC1 : Nat := 0xA000C
/-- CHG_ACC2 (R251). -/
abbrev CHG_ACC2 : Nat := 0xA0010
/-- CHG_ACC3 (R251). -/
abbrev CHG_ACC3 : Nat := 0xA0014
/-- CHG_GRID (R256). -/
abbrev CHG_GRID : Nat := 0xA0018
/-- CHG_GKP (R255). -/
abbrev CHG_GKP : Nat := 0xA001C
/-- CHG_GKI (R255). -/
abbrev CHG_GKI : Nat := 0xA0020
/-- CHG_BUS (R263). -/
abbrev CHG_BUS : Nat := 0xA0024
/-- CHG_SEQ (R263,R264,R268). -/
abbrev CHG_SEQ : Nat := 0xA0028
/-- CHG_LIM (R265,R273). -/
abbrev CHG_LIM : Nat := 0xA002C
/-- CHG_IMP (R269,R270). -/
abbrev CHG_IMP : Nat := 0xA0030
/-- CHG_PLAN (R267). -/
abbrev CHG_PLAN (p : Nat) : Nat := 0xA0040 + 0x4 * p
/-- CHG_KP (R265). -/
abbrev CHG_KP : Nat := 0xA0080
/-- CHG_KIAC (R265). -/
abbrev CHG_KIAC : Nat := 0xA0084
/-- CHG_KWG (R255). -/
abbrev CHG_KWG : Nat := 0xA0088
/-- CHG_ZBU (R270). -/
abbrev CHG_ZBU : Nat := 0xA008C
/-- CHG_CTRL (R277). -/
abbrev CHG_CTRL : Nat := 0xA0090
/-- CHG_TGT (R265). -/
abbrev CHG_TGT : Nat := 0xA0094
/-- CHG_ACLIM (R265). -/
abbrev CHG_ACLIM : Nat := 0xA0098
/-- CHG_PULSE (R266). -/
abbrev CHG_PULSE : Nat := 0xA009C
/-- CHG_TIMER (R271). -/
abbrev CHG_TIMER : Nat := 0xA00A0
/-- CHG_SNAP (R252). -/
abbrev CHG_SNAP : Nat := 0xA00B0
/-- CHG_STAT (R261,R277). -/
abbrev CHG_STAT : Nat := 0xA00B4
/-- CHG_PILOT (R257,R258). -/
abbrev CHG_PILOT : Nat := 0xA00B8
/-- CHG_ILIM (R265). -/
abbrev CHG_ILIM : Nat := 0xA00BC
/-- CHG_TIME (R271). -/
abbrev CHG_TIME : Nat := 0xA00C0
/-- CHG_THALF (R272). -/
abbrev CHG_THALF : Nat := 0xA00C4
/-- CHG_VREST (R266). -/
abbrev CHG_VREST : Nat := 0xA00C8
/-- CHG_ZINFO (R268,R270). -/
abbrev CHG_ZINFO : Nat := 0xA00CC
/-- CHG_KVB (R253). -/
abbrev CHG_KVB : Nat := 0xA00D0
/-- CHG_IRQ_STAT (R278). -/
abbrev CHG_IRQ_STAT : Nat := 0xA00E0
/-- CHG_IRQ_EN (R278). -/
abbrev CHG_IRQ_EN : Nat := 0xA00E4
/-- CHG_OUT_EN (R275,R278). -/
abbrev CHG_OUT_EN : Nat := 0xA00E8
/-- CHG_Z_ZR (R270). -/
abbrev CHG_Z_ZR (p : Nat) : Nat := 0xA0100 + 0x8 * p
/-- CHG_Z_ZI (R270). -/
abbrev CHG_Z_ZI (p : Nat) : Nat := 0xA0104 + 0x8 * p
/-- ACT_STATUS (R288,R296). -/
abbrev ACT_STATUS : Nat := 0xB0000
/-- ACT_PLCFG (R287). -/
abbrev ACT_PLCFG : Nat := 0xB0004
/-- ACT_PLHD0 (R287). -/
abbrev ACT_PLHD0 : Nat := 0xB0008
/-- ACT_PLHD1 (R287). -/
abbrev ACT_PLHD1 : Nat := 0xB000C
/-- ACT_SNAP (R282). -/
abbrev ACT_SNAP : Nat := 0xB0010
/-- ACT_IRQ_STAT (R297). -/
abbrev ACT_IRQ_STAT : Nat := 0xB0040
/-- ACT_IRQ_EN (R297). -/
abbrev ACT_IRQ_EN : Nat := 0xB0044
/-- ACT_DRV_CFG (R280,R296). -/
abbrev ACT_DRV_CFG (d : Nat) : Nat := 0xB0100 + 0x40 * d
/-- ACT_DRV_TRAV (R283,R296). -/
abbrev ACT_DRV_TRAV (d : Nat) : Nat := 0xB0104 + 0x40 * d
/-- ACT_DRV_POS01 (R286,R296). -/
abbrev ACT_DRV_POS01 (d : Nat) : Nat := 0xB0108 + 0x40 * d
/-- ACT_DRV_POS23 (R286,R296). -/
abbrev ACT_DRV_POS23 (d : Nat) : Nat := 0xB010C + 0x40 * d
/-- ACT_DRV_LIM (R289,R296). -/
abbrev ACT_DRV_LIM (d : Nat) : Nat := 0xB0110 + 0x40 * d
/-- ACT_DRV_STALL (R289,R296). -/
abbrev ACT_DRV_STALL (d : Nat) : Nat := 0xB0114 + 0x40 * d
/-- ACT_PMP_CFG (R291,R296). -/
abbrev ACT_PMP_CFG (d : Nat) : Nat := 0xB0118 + 0x40 * d
/-- ACT_PMP_MAP (R291,R296). -/
abbrev ACT_PMP_MAP (d : Nat) : Nat := 0xB011C + 0x40 * d
/-- ACT_PMP_GKP (R293,R296). -/
abbrev ACT_PMP_GKP (d : Nat) : Nat := 0xB0120 + 0x40 * d
/-- ACT_PMP_GKI (R293,R296). -/
abbrev ACT_PMP_GKI (d : Nat) : Nat := 0xB0124 + 0x40 * d
/-- ACT_DRV_REQ (R285,R292). -/
abbrev ACT_DRV_REQ (d : Nat) : Nat := 0xB0128 + 0x40 * d
/-- ACT_PMP_SPD (R291). -/
abbrev ACT_PMP_SPD (d : Nat) : Nat := 0xB012C + 0x40 * d
/-- ACT_DRV_STAT (R285,R296). -/
abbrev ACT_DRV_STAT (d : Nat) : Nat := 0xB0130 + 0x40 * d
/-- ACT_DRV_POSN (R283). -/
abbrev ACT_DRV_POSN (d : Nat) : Nat := 0xB0134 + 0x40 * d
/-- ACT_DRV_PIN (R291). -/
abbrev ACT_DRV_PIN (d : Nat) : Nat := 0xB0138 + 0x40 * d
/-- LANE_ARR (R343,R337). -/
abbrev LANE_ARR : Nat := 0xC0000
/-- LANE_CFG (R343). -/
abbrev LANE_CFG : Nat := 0xC0004
/-- LANE_STATUS (R342,R343). -/
abbrev LANE_STATUS : Nat := 0xC0010
/-- LANE_HEALTHA (R320). -/
abbrev LANE_HEALTHA : Nat := 0xC0014
/-- LANE_HEALTHB (R320). -/
abbrev LANE_HEALTHB : Nat := 0xC0018
/-- LANE_CKSTAT (R343). -/
abbrev LANE_CKSTAT : Nat := 0xC001C
/-- LANE_FAULTS (R343). -/
abbrev LANE_FAULTS : Nat := 0xC0020
/-- LANE_LASTRST (R343). -/
abbrev LANE_LASTRST : Nat := 0xC0024
/-- LANE_ACCSTAT (R305). -/
abbrev LANE_ACCSTAT : Nat := 0xC0028
/-- LANE_NETSTAT (R302,R317). -/
abbrev LANE_NETSTAT : Nat := 0xC002C
/-- LANE_HOLDLIM (R328). -/
abbrev LANE_HOLDLIM (i : Nat) : Nat := 0xC0040 + 0x4 * i
/-- LANE_JRN_ADDR (R343). -/
abbrev LANE_JRN_ADDR : Nat := 0xC0060
/-- LANE_JRN_DATA (R343). -/
abbrev LANE_JRN_DATA : Nat := 0xC0064
/-- LANE_L_CMD (R343). -/
abbrev LANE_L_CMD (lane : Nat) : Nat := 0xC0100 + 0x100 * lane
/-- LANE_L_WDOG (R343). -/
abbrev LANE_L_WDOG (lane : Nat) : Nat := 0xC0104 + 0x100 * lane
/-- LANE_L_CTX (R343). -/
abbrev LANE_L_CTX (lane : Nat) : Nat := 0xC0108 + 0x100 * lane
/-- LANE_L_IN_CNT (R306). -/
abbrev LANE_L_IN_CNT (lane : Nat) : Nat := 0xC010C + 0x100 * lane
/-- LANE_L_IN_DATA (R306). -/
abbrev LANE_L_IN_DATA (lane : Nat) : Nat := 0xC0110 + 0x100 * lane
/-- LANE_L_JHEAD (R343). -/
abbrev LANE_L_JHEAD (lane : Nat) : Nat := 0xC0114 + 0x100 * lane
/-- LANE_L_FWREG (R338). -/
abbrev LANE_L_FWREG (lane : Nat) : Nat := 0xC0118 + 0x100 * lane
/-- LANE_L_CODE (R322). -/
abbrev LANE_L_CODE (lane : Nat) : Nat := 0xC011C + 0x100 * lane
/-- LANE_L_RPL (R343). -/
abbrev LANE_L_RPL (lane : Nat) : Nat := 0xC0120 + 0x100 * lane
/-- LANE_L_IRQ_STAT (R344). -/
abbrev LANE_L_IRQ_STAT (lane : Nat) : Nat := 0xC0128 + 0x100 * lane
/-- LANE_L_IRQ_EN (R344). -/
abbrev LANE_L_IRQ_EN (lane : Nat) : Nat := 0xC012C + 0x100 * lane
/-- DMA_MEMCFG (R348,R371). -/
abbrev DMA_MEMCFG : Nat := 0xD0000
/-- DMA_ECCSTAT (R371). -/
abbrev DMA_ECCSTAT : Nat := 0xD0010
/-- DMA_ECCADDR_LO (R371). -/
abbrev DMA_ECCADDR_LO : Nat := 0xD0014
/-- DMA_ECCADDR_HI (R371). -/
abbrev DMA_ECCADDR_HI : Nat := 0xD0018
/-- DMA_ECCINFO (R371). -/
abbrev DMA_ECCINFO : Nat := 0xD001C
/-- DMA_SCRUB (R350,R371). -/
abbrev DMA_SCRUB : Nat := 0xD0020
/-- DMA_L_STATUS (R371). -/
abbrev DMA_L_STATUS (lane : Nat) : Nat := 0xD1000 + 0x1000 * lane
/-- DMA_L_FRBASE_LO (R371). -/
abbrev DMA_L_FRBASE_LO (lane : Nat) : Nat := 0xD1004 + 0x1000 * lane
/-- DMA_L_FRBASE_HI (R371). -/
abbrev DMA_L_FRBASE_HI (lane : Nat) : Nat := 0xD1008 + 0x1000 * lane
/-- DMA_L_FRCFG (R371). -/
abbrev DMA_L_FRCFG (lane : Nat) : Nat := 0xD100C + 0x1000 * lane
/-- DMA_L_FRHEAD (R371). -/
abbrev DMA_L_FRHEAD (lane : Nat) : Nat := 0xD1010 + 0x1000 * lane
/-- DMA_L_FRTAIL (R371). -/
abbrev DMA_L_FRTAIL (lane : Nat) : Nat := 0xD1014 + 0x1000 * lane
/-- DMA_L_FSTAT (R371). -/
abbrev DMA_L_FSTAT (lane : Nat) : Nat := 0xD1018 + 0x1000 * lane
/-- DMA_L_INVAL (R354). -/
abbrev DMA_L_INVAL (lane : Nat) : Nat := 0xD101C + 0x1000 * lane
/-- DMA_L_IRQ_STAT (R372). -/
abbrev DMA_L_IRQ_STAT (lane : Nat) : Nat := 0xD1020 + 0x1000 * lane
/-- DMA_L_IRQ_EN (R372). -/
abbrev DMA_L_IRQ_EN (lane : Nat) : Nat := 0xD1024 + 0x1000 * lane
/-- DMA_L_CTX_LO (R354). -/
abbrev DMA_L_CTX_LO (lane : Nat) (c : Nat) : Nat := 0xD1040 + 0x1000 * lane + 0x8 * c
/-- DMA_L_CTX_HI (R354). -/
abbrev DMA_L_CTX_HI (lane : Nat) (c : Nat) : Nat := 0xD1044 + 0x1000 * lane + 0x8 * c
/-- DMA_R_CFG (R371). -/
abbrev DMA_R_CFG (lane : Nat) (r : Nat) : Nat := 0xD1100 + 0x1000 * lane + 0x40 * r
/-- DMA_R_BASE_LO (R371). -/
abbrev DMA_R_BASE_LO (lane : Nat) (r : Nat) : Nat := 0xD1104 + 0x1000 * lane + 0x40 * r
/-- DMA_R_BASE_HI (R371). -/
abbrev DMA_R_BASE_HI (lane : Nat) (r : Nat) : Nat := 0xD1108 + 0x1000 * lane + 0x40 * r
/-- DMA_R_CQ_LO (R371). -/
abbrev DMA_R_CQ_LO (lane : Nat) (r : Nat) : Nat := 0xD110C + 0x1000 * lane + 0x40 * r
/-- DMA_R_CQ_HI (R371). -/
abbrev DMA_R_CQ_HI (lane : Nat) (r : Nat) : Nat := 0xD1110 + 0x1000 * lane + 0x40 * r
/-- DMA_R_TAIL (R355). -/
abbrev DMA_R_TAIL (lane : Nat) (r : Nat) : Nat := 0xD1114 + 0x1000 * lane + 0x40 * r
/-- DMA_R_HEAD (R371). -/
abbrev DMA_R_HEAD (lane : Nat) (r : Nat) : Nat := 0xD1118 + 0x1000 * lane + 0x40 * r
/-- DMA_R_CQHEAD (R371). -/
abbrev DMA_R_CQHEAD (lane : Nat) (r : Nat) : Nat := 0xD111C + 0x1000 * lane + 0x40 * r
/-- DMA_R_CQTAIL (R359). -/
abbrev DMA_R_CQTAIL (lane : Nat) (r : Nat) : Nat := 0xD1120 + 0x1000 * lane + 0x40 * r
/-- DMA_R_CTRL (R365,R366). -/
abbrev DMA_R_CTRL (lane : Nat) (r : Nat) : Nat := 0xD1124 + 0x1000 * lane + 0x40 * r
/-- DMA_R_STAT (R371). -/
abbrev DMA_R_STAT (lane : Nat) (r : Nat) : Nat := 0xD1128 + 0x1000 * lane + 0x40 * r
/-- DMA_R_IRQ (R371). -/
abbrev DMA_R_IRQ (lane : Nat) (r : Nat) : Nat := 0xD112C + 0x1000 * lane + 0x40 * r
/-- CRC_U_CFG (R374). -/
abbrev CRC_U_CFG (lane : Nat) (u : Nat) : Nat := 0xE0100 + 0x200 * lane + 0x80 * u
/-- CRC_U_POLY_LO (R374). -/
abbrev CRC_U_POLY_LO (lane : Nat) (u : Nat) : Nat := 0xE0104 + 0x200 * lane + 0x80 * u
/-- CRC_U_POLY_HI (R374). -/
abbrev CRC_U_POLY_HI (lane : Nat) (u : Nat) : Nat := 0xE0108 + 0x200 * lane + 0x80 * u
/-- CRC_U_INIT_LO (R374). -/
abbrev CRC_U_INIT_LO (lane : Nat) (u : Nat) : Nat := 0xE010C + 0x200 * lane + 0x80 * u
/-- CRC_U_INIT_HI (R374). -/
abbrev CRC_U_INIT_HI (lane : Nat) (u : Nat) : Nat := 0xE0110 + 0x200 * lane + 0x80 * u
/-- CRC_U_XOR_LO (R374). -/
abbrev CRC_U_XOR_LO (lane : Nat) (u : Nat) : Nat := 0xE0114 + 0x200 * lane + 0x80 * u
/-- CRC_U_XOR_HI (R374). -/
abbrev CRC_U_XOR_HI (lane : Nat) (u : Nat) : Nat := 0xE0118 + 0x200 * lane + 0x80 * u
/-- CRC_U_ADDR_LO (R374). -/
abbrev CRC_U_ADDR_LO (lane : Nat) (u : Nat) : Nat := 0xE011C + 0x200 * lane + 0x80 * u
/-- CRC_U_ADDR_HI (R374). -/
abbrev CRC_U_ADDR_HI (lane : Nat) (u : Nat) : Nat := 0xE0120 + 0x200 * lane + 0x80 * u
/-- CRC_U_LEN (R374). -/
abbrev CRC_U_LEN (lane : Nat) (u : Nat) : Nat := 0xE0124 + 0x200 * lane + 0x80 * u
/-- CRC_U_VAL_LO (R368,R374). -/
abbrev CRC_U_VAL_LO (lane : Nat) (u : Nat) : Nat := 0xE0128 + 0x200 * lane + 0x80 * u
/-- CRC_U_VAL_HI (R368,R374). -/
abbrev CRC_U_VAL_HI (lane : Nat) (u : Nat) : Nat := 0xE012C + 0x200 * lane + 0x80 * u
/-- CRC_U_POS (R374). -/
abbrev CRC_U_POS (lane : Nat) (u : Nat) : Nat := 0xE0130 + 0x200 * lane + 0x80 * u
/-- CRC_U_CTRL (R368,R369). -/
abbrev CRC_U_CTRL (lane : Nat) (u : Nat) : Nat := 0xE0134 + 0x200 * lane + 0x80 * u
/-- CRC_U_STAT (R374). -/
abbrev CRC_U_STAT (lane : Nat) (u : Nat) : Nat := 0xE0138 + 0x200 * lane + 0x80 * u
/-- CRC_U_RES_LO (R368). -/
abbrev CRC_U_RES_LO (lane : Nat) (u : Nat) : Nat := 0xE0140 + 0x200 * lane + 0x80 * u
/-- CRC_U_RES_HI (R368). -/
abbrev CRC_U_RES_HI (lane : Nat) (u : Nat) : Nat := 0xE0144 + 0x200 * lane + 0x80 * u
/-- TIME_NOW_LO (R392). -/
abbrev TIME_NOW_LO : Nat := 0xF0000
/-- TIME_NOW_HI (R392). -/
abbrev TIME_NOW_HI : Nat := 0xF0004
/-- TIME_RATE (R377). -/
abbrev TIME_RATE : Nat := 0xF0008
/-- TIME_SLEW (R377). -/
abbrev TIME_SLEW : Nat := 0xF000C
/-- TIME_STATUS (R392). -/
abbrev TIME_STATUS : Nat := 0xF0010
/-- TIME_CATCFG (R392). -/
abbrev TIME_CATCFG : Nat := 0xF0020
/-- TIME_CATSTAT (R392). -/
abbrev TIME_CATSTAT : Nat := 0xF0024
/-- TIME_CATSEQ (R392). -/
abbrev TIME_CATSEQ : Nat := 0xF0028
/-- TIME_BOOT (R383). -/
abbrev TIME_BOOT : Nat := 0xF002C
/-- TIME_CAPCFG (R392). -/
abbrev TIME_CAPCFG : Nat := 0xF0040
/-- TIME_CAPTRIG (R392). -/
abbrev TIME_CAPTRIG : Nat := 0xF0044
/-- TIME_CAPSTAT (R392). -/
abbrev TIME_CAPSTAT : Nat := 0xF0048
/-- TIME_CAP_ADDR (R392). -/
abbrev TIME_CAP_ADDR : Nat := 0xF004C
/-- TIME_CAP_DATA (R392). -/
abbrev TIME_CAP_DATA : Nat := 0xF0050
/-- TIME_CAPSRC (R392,R385). -/
abbrev TIME_CAPSRC (c : Nat) : Nat := 0xF0080 + 0x4 * c
/-- TIME_IRQ_STAT (R393). -/
abbrev TIME_IRQ_STAT : Nat := 0xF00C0
/-- TIME_IRQ_EN (R393). -/
abbrev TIME_IRQ_EN : Nat := 0xF00C4
/-- SAFE_STATUS (R431). -/
abbrev SAFE_STATUS : Nat := 0x100000
/-- SAFE_INPUTS (R431). -/
abbrev SAFE_INPUTS : Nat := 0x100004
/-- SAFE_FUNC (R431). -/
abbrev SAFE_FUNC : Nat := 0x100008
/-- SAFE_STO (R431). -/
abbrev SAFE_STO : Nat := 0x10000C
/-- SAFE_SLS (R431). -/
abbrev SAFE_SLS : Nat := 0x100010
/-- SAFE_OUTS (R431). -/
abbrev SAFE_OUTS : Nat := 0x100014
/-- SAFE_AEDDY (R431). -/
abbrev SAFE_AEDDY : Nat := 0x100018
/-- SAFE_AECNT (R431). -/
abbrev SAFE_AECNT : Nat := 0x100020
/-- SAFE_IRQ_STAT (R432). -/
abbrev SAFE_IRQ_STAT : Nat := 0x100024
/-- SAFE_IRQ_EN (R432). -/
abbrev SAFE_IRQ_EN : Nat := 0x100028
/-- SAFE_CFG (R431). -/
abbrev SAFE_CFG : Nat := 0x100030
/-- SAFE_SOREQ (R415,R431). -/
abbrev SAFE_SOREQ : Nat := 0x100034
/-- SAFE_CMD (R421). -/
abbrev SAFE_CMD : Nat := 0x100038
/-- SAFE_IN_CFG (R401,R431). -/
abbrev SAFE_IN_CFG (i : Nat) : Nat := 0x100040 + 0x4 * i
/-- SAFE_FN_CFG_W0 (R405,R431). -/
abbrev SAFE_FN_CFG_W0 (f : Nat) : Nat := 0x100080 + 0x10 * f
/-- SAFE_FN_CFG_W1 (R431). -/
abbrev SAFE_FN_CFG_W1 (f : Nat) : Nat := 0x100084 + 0x10 * f
/-- SAFE_FN_CFG_W2 (R431). -/
abbrev SAFE_FN_CFG_W2 (f : Nat) : Nat := 0x100088 + 0x10 * f
/-- SAFE_FN_CFG_W3 (R431). -/
abbrev SAFE_FN_CFG_W3 (f : Nat) : Nat := 0x10008C + 0x10 * f
/-- SAFE_AE_CFG_W0 (R418,R431). -/
abbrev SAFE_AE_CFG_W0 (c : Nat) : Nat := 0x100200 + 0x10 * c
/-- SAFE_AE_CFG_W1 (R431). -/
abbrev SAFE_AE_CFG_W1 (c : Nat) : Nat := 0x100204 + 0x10 * c
/-- SAFE_AE_CFG_W2 (R431). -/
abbrev SAFE_AE_CFG_W2 (c : Nat) : Nat := 0x100208 + 0x10 * c
/-- SAFE_AE_CFG_W3 (R431). -/
abbrev SAFE_AE_CFG_W3 (c : Nat) : Nat := 0x10020C + 0x10 * c
/-- SAFE_SESS_CMD (R431). -/
abbrev SAFE_SESS_CMD : Nat := 0x100300
/-- SAFE_SESS_STAT (R431). -/
abbrev SAFE_SESS_STAT : Nat := 0x100304
/-- SAFE_PW_BUF (R423). -/
abbrev SAFE_PW_BUF (w : Nat) : Nat := 0x100310 + 0x4 * w
/-- SAFE_WHO (R423). -/
abbrev SAFE_WHO (w : Nat) : Nat := 0x100330 + 0x4 * w
/-- SAFE_LOG_STAT (R427). -/
abbrev SAFE_LOG_STAT : Nat := 0x100340
/-- SAFE_MBOX_TX (R422). -/
abbrev SAFE_MBOX_TX (c : Nat) (w : Nat) : Nat := 0x100400 + 0x40 * c + 0x4 * w
/-- SAFE_MBOX_RX (R420). -/
abbrev SAFE_MBOX_RX (c : Nat) (w : Nat) : Nat := 0x100600 + 0x40 * c + 0x4 * w
/-- NET_STATUS (R394). -/
abbrev NET_STATUS : Nat := 0x130000
/-- NET_IRQ_STAT (R395). -/
abbrev NET_IRQ_STAT : Nat := 0x130040
/-- NET_IRQ_EN (R395). -/
abbrev NET_IRQ_EN : Nat := 0x130044
/-- NET_P_CFG (R394). -/
abbrev NET_P_CFG (p : Nat) : Nat := 0x130100 + 0x40 * p
/-- NET_P_MACLO (R394). -/
abbrev NET_P_MACLO (p : Nat) : Nat := 0x130104 + 0x40 * p
/-- NET_P_MACHI (R394). -/
abbrev NET_P_MACHI (p : Nat) : Nat := 0x130108 + 0x40 * p
/-- NET_P_STAT (R394). -/
abbrev NET_P_STAT (p : Nat) : Nat := 0x130110 + 0x40 * p
/-- NET_P_CNT (R394). -/
abbrev NET_P_CNT (p : Nat) : Nat := 0x130114 + 0x40 * p
/-- NET_P_TXTS_INFO (R394). -/
abbrev NET_P_TXTS_INFO (p : Nat) : Nat := 0x130118 + 0x40 * p
/-- NET_P_TXTS_LO (R394). -/
abbrev NET_P_TXTS_LO (p : Nat) : Nat := 0x13011C + 0x40 * p
/-- NET_P_TXTS_HI (R394). -/
abbrev NET_P_TXTS_HI (p : Nat) : Nat := 0x130120 + 0x40 * p
/-- NET_FLOW_W0 (R388,R394). -/
abbrev NET_FLOW_W0 (f : Nat) : Nat := 0x130800 + 0x8 * f
/-- NET_FLOW_W1 (R388,R394). -/
abbrev NET_FLOW_W1 (f : Nat) : Nat := 0x130804 + 0x8 * f
/-- NET_L_TXBUF (R390,R394). -/
abbrev NET_L_TXBUF (lane : Nat) (w : Nat) : Nat := 0x131000 + 0x1000 * lane + 0x4 * w
/-- NET_L_TXCMD (R390). -/
abbrev NET_L_TXCMD (lane : Nat) : Nat := 0x131100 + 0x1000 * lane
/-- NET_L_TXSTAT (R394). -/
abbrev NET_L_TXSTAT (lane : Nat) : Nat := 0x131104 + 0x1000 * lane
/-- IMG_STATUS (R461). -/
abbrev IMG_STATUS : Nat := 0x110000
/-- IMG_RUNSEQ (R461). -/
abbrev IMG_RUNSEQ : Nat := 0x110004
/-- IMG_RUNVER (R461). -/
abbrev IMG_RUNVER : Nat := 0x110008
/-- IMG_BUILD_LO (R461). -/
abbrev IMG_BUILD_LO : Nat := 0x11000C
/-- IMG_BUILD_HI (R461). -/
abbrev IMG_BUILD_HI : Nat := 0x110010
/-- IMG_STRUCT (R461). -/
abbrev IMG_STRUCT : Nat := 0x110014
/-- IMG_SAFETY (R461). -/
abbrev IMG_SAFETY : Nat := 0x110018
/-- IMG_CMD (R453,R461). -/
abbrev IMG_CMD : Nat := 0x110020
/-- IMG_LEN (R461). -/
abbrev IMG_LEN : Nat := 0x110024
/-- IMG_PROG (R461). -/
abbrev IMG_PROG : Nat := 0x110028
/-- IMG_REJECT (R461). -/
abbrev IMG_REJECT : Nat := 0x11002C
/-- IMG_REJOFF (R461). -/
abbrev IMG_REJOFF : Nat := 0x110030
/-- IMG_KEYS (R461). -/
abbrev IMG_KEYS : Nat := 0x110034
/-- IMG_KEYCMD (R448,R461). -/
abbrev IMG_KEYCMD : Nat := 0x110038
/-- IMG_SNAP (R461). -/
abbrev IMG_SNAP : Nat := 0x110040
/-- IMG_IRQ_STAT (R462). -/
abbrev IMG_IRQ_STAT : Nat := 0x110060
/-- IMG_IRQ_EN (R462). -/
abbrev IMG_IRQ_EN : Nat := 0x110064
/-- IMG_KEYBUF (R461). -/
abbrev IMG_KEYBUF (w : Nat) : Nat := 0x110080 + 0x4 * w
/-- IMG_SM_REQ (R444,R461). -/
abbrev IMG_SM_REQ (k : Nat) : Nat := 0x110100 + 0x8 * k
/-- IMG_SM_STAT (R444,R461). -/
abbrev IMG_SM_STAT (k : Nat) : Nat := 0x110104 + 0x8 * k
/-- PWR_STATUS (R491). -/
abbrev PWR_STATUS : Nat := 0x120000
/-- PWR_RSTCAUSE (R491). -/
abbrev PWR_RSTCAUSE : Nat := 0x120004
/-- PWR_WAKE (R491). -/
abbrev PWR_WAKE : Nat := 0x120008
/-- PWR_WAKECFG (R491). -/
abbrev PWR_WAKECFG : Nat := 0x12000C
/-- PWR_WTIMER (R491). -/
abbrev PWR_WTIMER : Nat := 0x120010
/-- PWR_LINES (R491). -/
abbrev PWR_LINES : Nat := 0x120014
/-- PWR_MODECFG (R491). -/
abbrev PWR_MODECFG : Nat := 0x120018
/-- PWR_SCHED (R491). -/
abbrev PWR_SCHED : Nat := 0x120020
/-- PWR_SCHSTAT (R491). -/
abbrev PWR_SCHSTAT : Nat := 0x120024
/-- PWR_SNAP (R491). -/
abbrev PWR_SNAP : Nat := 0x120030
/-- PWR_IRQ_STAT (R492). -/
abbrev PWR_IRQ_STAT : Nat := 0x120060
/-- PWR_IRQ_EN (R492). -/
abbrev PWR_IRQ_EN : Nat := 0x120064
/-- PWR_SCOST (R491). -/
abbrev PWR_SCOST (s : Nat) : Nat := 0x120080 + 0x4 * s
/-- PWR_SL_TMASK (R491). -/
abbrev PWR_SL_TMASK (s : Nat) : Nat := 0x1200C0 + 0x4 * s
/-- PWR_SL_TH (R491). -/
abbrev PWR_SL_TH (s : Nat) : Nat := 0x120100 + 0x4 * s
/-- PWR_TS_CFG_W0 (R491). -/
abbrev PWR_TS_CFG_W0 (i : Nat) : Nat := 0x120200 + 0x10 * i
/-- PWR_TS_CFG_W1 (R491). -/
abbrev PWR_TS_CFG_W1 (i : Nat) : Nat := 0x120204 + 0x10 * i
/-- PWR_TS_CFG_W2 (R491). -/
abbrev PWR_TS_CFG_W2 (i : Nat) : Nat := 0x120208 + 0x10 * i
/-- PWR_TS_VAL (R491). -/
abbrev PWR_TS_VAL (i : Nat) : Nat := 0x120400 + 0x4 * i

end Reg

/-- The registers of block 0x00. -/
def sysRows : List RegRow := [
  ⟨"SYS_ID", 0x00000, [], .always, .result, 0x0, 0x0, 0x0, .sysId, "", false⟩,
  ⟨"SYS_SILICON", 0x00004, [], .always, .result, 0x0, 0x0, 0x0, .silicon, "", false⟩,
  ⟨"SYS_UNITS", 0x00008, [], .always, .result, 0x0, 0x0, 0x0, .sysUnits, "", false⟩,
  ⟨"SYS_UID_LO", 0x0000C, [], .always, .result, 0x0, 0x0, 0x0, .uidLo, "", false⟩,
  ⟨"SYS_UID_HI", 0x00010, [], .always, .result, 0x0, 0x0, 0x0, .uidHi, "", false⟩,
  ⟨"SYS_MODE_REQ", 0x00020, [], .always, .ownRow, 0x7, 0x0, 0x0, .value 0x1, "", false⟩,
  ⟨"SYS_MODE_STAT", 0x00024, [], .always, .result, 0x0, 0x0, 0x0, .value 0x10, "mode", true⟩,
  ⟨"SYS_MODE_LAST", 0x00028, [], .always, .result, 0x0, 0x0, 0x0, .value 0x0, "mode", false⟩,
  ⟨"SYS_MODE_TLO", 0x0002C, [], .always, .result, 0x0, 0x0, 0x0, .value 0x0, "mode", false⟩,
  ⟨"SYS_MODE_THI", 0x00030, [], .always, .result, 0x0, 0x0, 0x0, .value 0x0, "mode", false⟩,
  ⟨"SYS_IRQ_STAT", 0x00040, [], .always, .plain, 0x0, 0x0, 0xF, .value 0x0, "", false⟩,
  ⟨"SYS_IRQ_EN", 0x00044, [], .always, .plain, 0xF, 0x0, 0x0, .value 0x0, "", false⟩]

/-- The registers of block 0x01. -/
def tickRows : List RegRow := [
  ⟨"TICK_PERIOD", 0x10000, [], .always, .locked, 0x0, 0xFFFF, 0x0, .value 0x1F40, "", false⟩,
  ⟨"TICK_DEADLINE", 0x10004, [], .always, .result, 0x0, 0x0, 0x0, .value 0x1A90, "", false⟩,
  ⟨"TICK_LAWCAP", 0x10008, [], .always, .result, 0x0, 0x0, 0x0, .value 0x1800, "", false⟩,
  ⟨"TICK_SEQ_LO", 0x10010, [], .always, .result, 0x0, 0x0, 0x0, .value 0x0, "seq", true⟩,
  ⟨"TICK_SEQ_HI", 0x10014, [], .always, .result, 0x0, 0x0, 0x0, .value 0x0, "seq", false⟩,
  ⟨"TICK_T0_LO", 0x10018, [], .always, .result, 0x0, 0x0, 0x0, .value 0x0, "seq", false⟩,
  ⟨"TICK_T0_HI", 0x1001C, [], .always, .result, 0x0, 0x0, 0x0, .value 0x0, "seq", false⟩,
  ⟨"TICK_CYCLE", 0x10020, [], .always, .result, 0x0, 0x0, 0x0, .value 0x0, "seq", false⟩,
  ⟨"TICK_VEC_LO", 0x10100, [(2, 0x100)], .always, .locked, 0x0, 0xFFFFFFFF, 0x0, .value 0x0, "", false⟩,
  ⟨"TICK_VEC_HI", 0x10104, [(2, 0x100)], .always, .locked, 0x0, 0xFFFFFFFF, 0x0, .value 0x0, "", false⟩,
  ⟨"TICK_TASKDL", 0x10108, [(2, 0x100)], .always, .locked, 0x0, 0xFFFF, 0x0, .value 0x1DB0, "", false⟩,
  ⟨"TICK_WARN", 0x1010C, [(2, 0x100)], .always, .plain, 0xFFFF, 0x0, 0x0, .value 0x190, "", false⟩,
  ⟨"TICK_PREDICT", 0x10110, [(2, 0x100)], .always, .result, 0x0, 0x0, 0x0, .value 0x0, "", false⟩,
  ⟨"TICK_LAST", 0x10114, [(2, 0x100)], .always, .result, 0x0, 0x0, 0x0, .value 0x0, "ticklast", true⟩,
  ⟨"TICK_MINMARG", 0x10118, [(2, 0x100)], .always, .result, 0x0, 0x0, 0x0, .value 0xFFFFFFFF, "ticklast", false⟩,
  ⟨"TICK_OVRCNT", 0x1011C, [(2, 0x100)], .always, .result, 0x0, 0x0, 0x0, .value 0x0, "ticklast", false⟩,
  ⟨"TICK_CMD", 0x10120, [(2, 0x100)], .always, .ownRow, 0x0, 0x0, 0x0, .value 0x0, "", false⟩,
  ⟨"TICK_CTX", 0x10124, [(2, 0x100)], .always, .result, 0x0, 0x0, 0x0, .value 0x0, "", false⟩,
  ⟨"TICK_IRQ_STAT", 0x10128, [(2, 0x100)], .always, .plain, 0x0, 0x0, 0xF, .value 0x0, "", false⟩,
  ⟨"TICK_IRQ_EN", 0x1012C, [(2, 0x100)], .always, .plain, 0xF, 0x0, 0x0, .value 0x0, "", false⟩,
  ⟨"TICK_SAVE", 0x10140, [(2, 0x100), (10, 0x4)], .always, .result, 0x0, 0x0, 0x0, .value 0x0, "", false⟩]

/-- The registers of block 0x02. -/
def acqRows : List RegRow := [
  ⟨"ACQ_STATUS", 0x20000, [], .always, .result, 0x0, 0x0, 0x0, .value 0x0, "", false⟩,
  ⟨"ACQ_CAL_REQ", 0x20010, [], .always, .ownRow, 0xFFFF, 0x0, 0x0, .value 0x0, "", false⟩,
  ⟨"ACQ_CAL_STAT", 0x20014, [], .always, .result, 0x0, 0x0, 0x0, .value 0x0, "calstat", true⟩,
  ⟨"ACQ_URG_REQ", 0x20020, [], .always, .ownRow, 0x0, 0x0, 0x0, .value 0x0, "", false⟩,
  ⟨"ACQ_URG_STAT", 0x20024, [], .always, .result, 0x0, 0x0, 0x0, .value 0x0, "", false⟩,
  ⟨"ACQ_SNAP", 0x20030, [], .always, .result, 0x0, 0x0, 0x0, .value 0x0, "acq", true⟩,
  ⟨"ACQ_COUNTS", 0x20034, [], .always, .result, 0x0, 0x0, 0x0, .value 0x0, "acq", false⟩,
  ⟨"ACQ_IRQ_STAT", 0x20040, [], .always, .plain, 0x0, 0x0, 0x3F, .value 0x0, "", false⟩,
  ⟨"ACQ_IRQ_EN", 0x20044, [], .always, .plain, 0x3F, 0x0, 0x0, .value 0x0, "", false⟩,
  ⟨"ACQ_IN", 0x20100, [(96, 0x4)], .always, .locked, 0x0, 0x8000FFFF, 0x0, .value 0x0, "", false⟩,
  ⟨"ACQ_CHK", 0x20400, [(12, 0x4)], .always, .result, 0x0, 0x0, 0x0, .value 0x0, "", false⟩,
  ⟨"ACQ_SUP", 0x20440, [(8, 0x4)], .always, .result, 0x0, 0x0, 0x0, .value 0x0, "", false⟩,
  ⟨"ACQ_RES_VALUE", 0x21000, [(256, 0x8)], .always, .result, 0x0, 0x0, 0x0, .value 0x0, "acq", false⟩,
  ⟨"ACQ_RES_INFO", 0x21004, [(256, 0x8)], .always, .result, 0x0, 0x0, 0x0, .value 0x0, "acq", false⟩,
  ⟨"ACQ_TRK_MIN", 0x21800, [(64, 0x10)], .always, .result, 0x0, 0x0, 0x0, .value 0x0, "acq", false⟩,
  ⟨"ACQ_TRK_MAX", 0x21804, [(64, 0x10)], .always, .result, 0x0, 0x0, 0x0, .value 0x0, "acq", false⟩,
  ⟨"ACQ_TRK_CYC", 0x21808, [(64, 0x10)], .always, .result, 0x0, 0x0, 0x0, .value 0x0, "acq", false⟩,
  ⟨"ACQ_TRK_FLAGS", 0x2180C, [(64, 0x10)], .always, .result, 0x0, 0x0, 0x0, .value 0x0, "acq", false⟩,
  ⟨"ACQ_ACFG_M", 0x22000, [(256, 0x8)], .always, .locked, 0x0, 0xFFFFFFFF, 0x0, .value 0x0, "", false⟩,
  ⟨"ACQ_ACFG_CTRL", 0x22004, [(256, 0x8)], .always, .locked, 0x0, 0xFF800000, 0x0, .value 0x0, "", false⟩,
  ⟨"ACQ_TCFG_HI", 0x22800, [(64, 0x10)], .always, .locked, 0x0, 0xFFFFFFFF, 0x0, .value 0x7FFFFFFF, "", false⟩,
  ⟨"ACQ_TCFG_LO", 0x22804, [(64, 0x10)], .always, .locked, 0x0, 0xFFFFFFFF, 0x0, .value 0x80000000, "", false⟩,
  ⟨"ACQ_TCFG_M", 0x22808, [(64, 0x10)], .always, .locked, 0x0, 0xFFFFFFFF, 0x0, .value 0x0, "", false⟩,
  ⟨"ACQ_TCFG_CTRL", 0x2280C, [(64, 0x10)], .always, .locked, 0x0, 0x7F, 0x0, .value 0x0, "", false⟩,
  ⟨"ACQ_SEQ_TRIG", 0x23000, [(15, 0x100)], .always, .locked, 0x0, 0xFFFFFF1F, 0x0, .value 0x0, "", false⟩,
  ⟨"ACQ_SEQ_ENT", 0x23080, [(15, 0x100), (32, 0x4)], .always, .locked, 0x0, 0xFFFFFFFF, 0x0, .value 0x0, "", false⟩,
  ⟨"ACQ_SEQ_TRIG", 0x23F00, [], .always, .result, 0x0, 0x0, 0x0, .value 0x0, "", false⟩,
  ⟨"ACQ_SEQ_ENT", 0x23F80, [(32, 0x4)], .always, .result, 0x0, 0x0, 0x0, .value 0x0, "", false⟩]

/-- The registers of block 0x03. -/
def posRows : List RegRow := [
  ⟨"POS_STATUS", 0x30000, [], .always, .result, 0x0, 0x0, 0x0, .channels, "", false⟩,
  ⟨"POS_SNAP", 0x30010, [], .always, .result, 0x0, 0x0, 0x0, .value 0x0, "pos", true⟩,
  ⟨"POS_IRQ_STAT", 0x30040, [], .always, .plain, 0x0, 0x0, 0x3F, .value 0x0, "", false⟩,
  ⟨"POS_IRQ_EN", 0x30044, [], .always, .plain, 0x3F, 0x0, 0x0, .value 0x0, "", false⟩,
  ⟨"POS_CH_CFG", 0x30100, [(2, 0x100)], .resb, .locked, 0x0, 0xFFF9FFFF, 0x0, .value 0x0, "", false⟩,
  ⟨"POS_CH_OFS", 0x30104, [(2, 0x100)], .resb, .locked, 0x0, 0xFFFFFFFF, 0x0, .value 0x0, "", false⟩,
  ⟨"POS_CH_FMT", 0x30108, [(2, 0x100)], .resb, .locked, 0x0, 0xFFFFFF, 0x0, .value 0x0, "", false⟩,
  ⟨"POS_CH_LIM", 0x3010C, [(2, 0x100)], .resb, .locked, 0x0, 0xFFFFFFFF, 0x0, .value 0x4004E020, "", false⟩,
  ⟨"POS_CH_STILL", 0x30110, [(2, 0x100)], .resb, .locked, 0x0, 0xFFFFFFFF, 0x0, .value 0x400100, "", false⟩,
  ⟨"POS_CH_BASE", 0x30114, [(2, 0x100)], .resb, .locked, 0x0, 0xFFFFFFFF, 0x0, .value 0x0, "", false⟩,
  ⟨"POS_CH_ADVK", 0x30118, [(2, 0x100)], .resb, .result, 0x0, 0x0, 0x0, .value 0x0, "", false⟩,
  ⟨"POS_CH_ANG", 0x30120, [(2, 0x100)], .resb, .result, 0x0, 0x0, 0x0, .value 0x0, "pos", false⟩,
  ⟨"POS_CH_SPD", 0x30124, [(2, 0x100)], .resb, .result, 0x0, 0x0, 0x0, .value 0x0, "pos", false⟩,
  ⟨"POS_CH_CNT", 0x30128, [(2, 0x100)], .resb, .result, 0x0, 0x0, 0x0, .value 0x0, "pos", false⟩,
  ⟨"POS_CH_FLT", 0x3012C, [(2, 0x100)], .resb, .result, 0x0, 0x0, 0x0, .value 0x0, "pos", false⟩,
  ⟨"POS_CH_SLOW", 0x30130, [(2, 0x100)], .resb, .result, 0x0, 0x0, 0x0, .value 0x0, "", false⟩,
  ⟨"POS_HL_CFG", 0x30400, [(6, 0x20)], .always, .locked, 0x0, 0xFFFFFFFF, 0x0, .value 0xFFFFFF, "", false⟩,
  ⟨"POS_HL_STILL", 0x30404, [(6, 0x20)], .always, .locked, 0x0, 0xFFFFFFFF, 0x0, .value 0x100, "", false⟩,
  ⟨"POS_HL_ST", 0x30408, [(6, 0x20)], .always, .result, 0x0, 0x0, 0x0, .value 0x0, "pos", false⟩,
  ⟨"POS_HL_SPD", 0x3040C, [(6, 0x20)], .always, .result, 0x0, 0x0, 0x0, .value 0x0, "pos", false⟩,
  ⟨"POS_PRB_CFG", 0x30600, [(2, 0x100)], .always, .plain, 0x80000000, 0x7FFF0001, 0x0, .value 0x0, "", false⟩,
  ⟨"POS_PRB_URG", 0x30604, [(2, 0x100)], .always, .locked, 0x0, 0xFFFFFFFF, 0x0, .value 0x0, "", false⟩,
  ⟨"POS_PRB_NUM", 0x30608, [(2, 0x100)], .always, .result, 0x0, 0x0, 0x0, .value 0x0, "prb", true⟩,
  ⟨"POS_PRB_REC_TLO", 0x30640, [(2, 0x100), (4, 0x10)], .always, .result, 0x0, 0x0, 0x0, .value 0x0, "prb", false⟩,
  ⟨"POS_PRB_REC_THI", 0x30644, [(2, 0x100), (4, 0x10)], .always, .result, 0x0, 0x0, 0x0, .value 0x0, "prb", false⟩,
  ⟨"POS_PRB_REC_ANG", 0x30648, [(2, 0x100), (4, 0x10)], .always, .result, 0x0, 0x0, 0x0, .value 0x0, "prb", false⟩,
  ⟨"POS_PRB_REC_INFO", 0x3064C, [(2, 0x100), (4, 0x10)], .always, .result, 0x0, 0x0, 0x0, .value 0x0, "prb", false⟩]

/-- The registers of block 0x04. -/
def lawRows : List RegRow := [
  ⟨"LAW_STATUS", 0x40000, [(2, 0x8000)], .always, .result, 0x0, 0x0, 0x0, .value 0x1800, "", false⟩,
  ⟨"LAW_ECC", 0x40004, [(2, 0x8000)], .always, .result, 0x0, 0x0, 0x0, .value 0x0, "", false⟩,
  ⟨"LAW_SWAP", 0x40010, [(2, 0x8000)], .always, .ownRow, 0x0, 0x0, 0x0, .value 0x0, "", false⟩,
  ⟨"LAW_PRE_IDX", 0x40014, [(2, 0x8000)], .always, .ownRow, 0x80001FFF, 0x0, 0x0, .value 0x0, "", false⟩,
  ⟨"LAW_PRE_VAL", 0x40018, [(2, 0x8000)], .always, .command, 0xFFFFFFFF, 0x0, 0x0, .value 0x0, "", false⟩,
  ⟨"LAW_CW_ADDR", 0x40020, [(2, 0x8000)], .always, .plain, 0x6000FFFF, 0x0, 0x0, .value 0x0, "", false⟩,
  ⟨"LAW_CW_DATA", 0x40024, [(2, 0x8000)], .always, .ownRow, 0x0, 0x0, 0x0, .value 0x0, "", false⟩,
  ⟨"LAW_CW_STAT", 0x40028, [(2, 0x8000)], .always, .result, 0x0, 0x0, 0x0, .value 0x0, "", false⟩,
  ⟨"LAW_INJ_CTRL", 0x40030, [(2, 0x8000)], .always, .command, 0xCF700FFF, 0x0, 0x0, .value 0x0, "", false⟩,
  ⟨"LAW_INJ_AMP", 0x40034, [(2, 0x8000)], .always, .command, 0x7FFFFFFF, 0x0, 0x0, .value 0x0, "", false⟩,
  ⟨"LAW_INJ_F0", 0x40038, [(2, 0x8000)], .always, .command, 0xFFFFFFFF, 0x0, 0x0, .value 0x0, "", false⟩,
  ⟨"LAW_INJ_F1", 0x4003C, [(2, 0x8000)], .always, .command, 0xFFFFFFFF, 0x0, 0x0, .value 0x0, "", false⟩,
  ⟨"LAW_INJ_RATE", 0x40040, [(2, 0x8000)], .always, .command, 0xFFFFFFFF, 0x0, 0x0, .value 0x0, "", false⟩,
  ⟨"LAW_INJ_DUR", 0x40044, [(2, 0x8000)], .always, .command, 0xFFFFFFFF, 0x0, 0x0, .value 0x0, "", false⟩,
  ⟨"LAW_INJ_AUX", 0x40048, [(2, 0x8000)], .always, .command, 0xFFFF07FF, 0x0, 0x0, .value 0x0, "", false⟩,
  ⟨"LAW_INJ_SEED", 0x4004C, [(2, 0x8000)], .always, .command, 0x7FFFFFFF, 0x0, 0x0, .value 0x1, "", false⟩,
  ⟨"LAW_INJ_STAT", 0x40050, [(2, 0x8000)], .always, .result, 0x0, 0x0, 0x0, .value 0x0, "", false⟩,
  ⟨"LAW_INJ_TICKS", 0x40054, [(2, 0x8000)], .always, .result, 0x0, 0x0, 0x0, .value 0x0, "", false⟩,
  ⟨"LAW_CAP_CFG", 0x40058, [(2, 0x8000)], .always, .plain, 0x8FFF0F07, 0x0, 0x0, .value 0x0, "", false⟩,
  ⟨"LAW_CAP_SIG0", 0x4005C, [(2, 0x8000)], .always, .plain, 0x3F3F3F3F, 0x0, 0x0, .value 0x0, "", false⟩,
  ⟨"LAW_CAP_SIG1", 0x40060, [(2, 0x8000)], .always, .plain, 0x3F3F3F3F, 0x0, 0x0, .value 0x0, "", false⟩,
  ⟨"LAW_CAP_STAT", 0x40064, [(2, 0x8000)], .always, .result, 0x0, 0x0, 0x0, .value 0x0, "", false⟩,
  ⟨"LAW_SNAP", 0x40068, [(2, 0x8000)], .always, .result, 0x0, 0x0, 0x0, .value 0x0, "law", true⟩,
  ⟨"LAW_IRQ_STAT", 0x40070, [(2, 0x8000)], .always, .plain, 0x0, 0x0, 0x7F, .value 0x0, "", false⟩,
  ⟨"LAW_IRQ_EN", 0x40074, [(2, 0x8000)], .always, .plain, 0x7F, 0x0, 0x0, .value 0x0, "", false⟩,
  ⟨"LAW_SLOT_CFG", 0x40100, [(2, 0x8000), (16, 0x20)], .always, .locked, 0x0, 0x1FFF9FFF, 0x0, .value 0x0, "", false⟩,
  ⟨"LAW_SLOT_OSC", 0x40104, [(2, 0x8000), (16, 0x20)], .always, .locked, 0x0, 0xFFFFFFFF, 0x0, .value 0x2000000, "", false⟩,
  ⟨"LAW_SLOT_OSCAMP", 0x40108, [(2, 0x8000), (16, 0x20)], .always, .locked, 0x0, 0xFFFFFFFF, 0x0, .value 0x80000000, "", false⟩,
  ⟨"LAW_SLOT_INJMAX", 0x4010C, [(2, 0x8000), (16, 0x20)], .always, .locked, 0x0, 0xFFFFFFFF, 0x0, .value 0x0, "", false⟩,
  ⟨"LAW_SLOT_STAT", 0x40110, [(2, 0x8000), (16, 0x20)], .always, .result, 0x0, 0x0, 0x0, .value 0x0, "law", false⟩,
  ⟨"LAW_SETP", 0x40400, [(2, 0x8000), (16, 0x20), (8, 0x4)], .always, .command, 0xFFFFFFFF, 0x0, 0x0, .value 0x0, "", false⟩,
  ⟨"LAW_SIG", 0x41000, [(2, 0x8000), (16, 0x100), (64, 0x4)], .always, .result, 0x0, 0x0, 0x0, .value 0x0, "law", false⟩]

/-- The registers of block 0x05. -/
def focRows : List RegRow := [
  ⟨"FOC_STATUS", 0x50000, [(2, 0x8000)], .always, .result, 0x0, 0x0, 0x0, .motors, "", false⟩,
  ⟨"FOC_SNAP", 0x50010, [(2, 0x8000)], .always, .result, 0x0, 0x0, 0x0, .value 0x0, "foc", true⟩,
  ⟨"FOC_M_CFG", 0x50100, [(2, 0x8000), (2, 0x100)], .trb, .locked, 0x0, 0xFFC0FFFF, 0x0, .value 0x0, "", false⟩,
  ⟨"FOC_M_ACC", 0x50104, [(2, 0x8000), (2, 0x100)], .trb, .locked, 0x0, 0xFFFFFFFF, 0x0, .value 0x0, "", false⟩,
  ⟨"FOC_M_LD", 0x50108, [(2, 0x8000), (2, 0x100)], .trb, .locked, 0x0, 0xFFFFFFFF, 0x0, .value 0x0, "", false⟩,
  ⟨"FOC_M_LQ", 0x5010C, [(2, 0x8000), (2, 0x100)], .trb, .locked, 0x0, 0xFFFFFFFF, 0x0, .value 0x0, "", false⟩,
  ⟨"FOC_M_RS", 0x50110, [(2, 0x8000), (2, 0x100)], .trb, .locked, 0x0, 0xFFFFFFFF, 0x0, .value 0x0, "", false⟩,
  ⟨"FOC_M_PSI", 0x50114, [(2, 0x8000), (2, 0x100)], .trb, .locked, 0x0, 0xFFFFFFFF, 0x0, .value 0x0, "", false⟩,
  ⟨"FOC_M_IMAX", 0x50118, [(2, 0x8000), (2, 0x100)], .trb, .locked, 0x0, 0xFFFFFFFF, 0x0, .value 0x0, "", false⟩,
  ⟨"FOC_M_VLIM", 0x5011C, [(2, 0x8000), (2, 0x100)], .trb, .locked, 0x0, 0xFFFFFFFF, 0x0, .value 0x93CDF333, "", false⟩,
  ⟨"FOC_M_UDCA", 0x50120, [(2, 0x8000), (2, 0x100)], .trb, .locked, 0x0, 0xFFFFFFFF, 0x0, .value 0x0, "", false⟩,
  ⟨"FOC_M_UDCB", 0x50124, [(2, 0x8000), (2, 0x100)], .trb, .locked, 0x0, 0xFFFFFFFF, 0x0, .value 0x0, "", false⟩,
  ⟨"FOC_M_CRV", 0x50128, [(2, 0x8000), (2, 0x100)], .trb, .locked, 0x0, 0xFFFFFFFF, 0x0, .value 0x0, "", false⟩,
  ⟨"FOC_M_FW", 0x5012C, [(2, 0x8000), (2, 0x100)], .trb, .locked, 0x0, 0xFF00FFFF, 0x0, .value 0x0, "", false⟩,
  ⟨"FOC_M_OKP", 0x50130, [(2, 0x8000), (2, 0x100)], .trb, .locked, 0x0, 0xFFFFFFFF, 0x0, .value 0x0, "", false⟩,
  ⟨"FOC_M_OKI", 0x50134, [(2, 0x8000), (2, 0x100)], .trb, .locked, 0x0, 0xFFFFFFFF, 0x0, .value 0x0, "", false⟩,
  ⟨"FOC_M_HKP", 0x50138, [(2, 0x8000), (2, 0x100)], .trb, .locked, 0x0, 0xFFFFFFFF, 0x0, .value 0x0, "", false⟩,
  ⟨"FOC_M_HKI", 0x5013C, [(2, 0x8000), (2, 0x100)], .trb, .locked, 0x0, 0xFFFFFFFF, 0x0, .value 0x0, "", false⟩,
  ⟨"FOC_M_HKH", 0x50140, [(2, 0x8000), (2, 0x100)], .trb, .locked, 0x0, 0xFFFFFFFF, 0x0, .value 0x0, "", false⟩,
  ⟨"FOC_M_KC", 0x50144, [(2, 0x8000), (2, 0x100)], .trb, .locked, 0x0, 0xFFFFFFFF, 0x0, .value 0x0, "", false⟩,
  ⟨"FOC_M_HFI", 0x50148, [(2, 0x8000), (2, 0x100)], .trb, .locked, 0x0, 0xFFFFFFFF, 0x0, .value 0x0, "", false⟩,
  ⟨"FOC_M_PD", 0x5014C, [(2, 0x8000), (2, 0x100)], .trb, .locked, 0x0, 0xFFFFFFFF, 0x0, .value 0x0, "", false⟩,
  ⟨"FOC_M_LOSS", 0x50150, [(2, 0x8000), (2, 0x100)], .trb, .locked, 0x0, 0xFFFFFFFF, 0x0, .value 0x40006010, "", false⟩,
  ⟨"FOC_M_EMF", 0x50154, [(2, 0x8000), (2, 0x100)], .trb, .locked, 0x0, 0xFFFFFFFF, 0x0, .value 0xE666CCCD, "", false⟩,
  ⟨"FOC_M_HMIN", 0x50158, [(2, 0x8000), (2, 0x100)], .trb, .locked, 0x0, 0xFFFF, 0x0, .value 0x0, "", false⟩,
  ⟨"FOC_M_IMK", 0x5015C, [(2, 0x8000), (2, 0x100)], .trb, .locked, 0x0, 0xFFFFFFFF, 0x0, .value 0x0, "", false⟩,
  ⟨"FOC_M_ADVK", 0x50160, [(2, 0x8000), (2, 0x100)], .trb, .result, 0x0, 0x0, 0x0, .value 0x0, "", false⟩,
  ⟨"FOC_M_KW", 0x50164, [(2, 0x8000), (2, 0x100)], .trb, .result, 0x0, 0x0, 0x0, .value 0x0, "", false⟩,
  ⟨"FOC_M_KT", 0x50168, [(2, 0x8000), (2, 0x100)], .trb, .result, 0x0, 0x0, 0x0, .value 0x0, "", false⟩,
  ⟨"FOC_M_RPSI", 0x5016C, [(2, 0x8000), (2, 0x100)], .trb, .result, 0x0, 0x0, 0x0, .value 0x0, "", false⟩,
  ⟨"FOC_M_EMFK", 0x50170, [(2, 0x8000), (2, 0x100)], .trb, .result, 0x0, 0x0, 0x0, .value 0x0, "", false⟩,
  ⟨"FOC_M_KSL", 0x50174, [(2, 0x8000), (2, 0x100)], .trb, .result, 0x0, 0x0, 0x0, .value 0x0, "", false⟩,
  ⟨"FOC_M_BASE", 0x50178, [(2, 0x8000), (2, 0x100)], .trb, .locked, 0x0, 0xFFFFFFFF, 0x0, .value 0x0, "", false⟩,
  ⟨"FOC_M_CTRL", 0x50180, [(2, 0x8000), (2, 0x100)], .trb, .command, 0x80000003, 0x0, 0x0, .value 0x0, "", false⟩,
  ⟨"FOC_M_TQCMD", 0x50184, [(2, 0x8000), (2, 0x100)], .trb, .command, 0xFFFFFFFF, 0x0, 0x0, .value 0x0, "", false⟩,
  ⟨"FOC_M_TQLIM", 0x50188, [(2, 0x8000), (2, 0x100)], .trb, .command, 0xFFFFFFFF, 0x0, 0x0, .value 0x0, "", false⟩,
  ⟨"FOC_M_TQRATE", 0x5018C, [(2, 0x8000), (2, 0x100)], .trb, .command, 0xFFFFFFFF, 0x0, 0x0, .value 0x0, "", false⟩,
  ⟨"FOC_M_STAT", 0x501C0, [(2, 0x8000), (2, 0x100)], .trb, .result, 0x0, 0x0, 0x0, .value 0x0, "foc", false⟩,
  ⟨"FOC_M_ANG", 0x501C4, [(2, 0x8000), (2, 0x100)], .trb, .result, 0x0, 0x0, 0x0, .value 0x0, "foc", false⟩,
  ⟨"FOC_M_SPD", 0x501C8, [(2, 0x8000), (2, 0x100)], .trb, .result, 0x0, 0x0, 0x0, .value 0x0, "foc", false⟩,
  ⟨"FOC_M_TQEST", 0x501CC, [(2, 0x8000), (2, 0x100)], .trb, .result, 0x0, 0x0, 0x0, .value 0x0, "foc", false⟩,
  ⟨"FOC_M_RESID", 0x501D0, [(2, 0x8000), (2, 0x100)], .trb, .result, 0x0, 0x0, 0x0, .value 0x0, "foc", false⟩,
  ⟨"FOC_M_DERATE", 0x501D4, [(2, 0x8000), (2, 0x100)], .trb, .result, 0x0, 0x0, 0x0, .value 0x0, "foc", false⟩,
  ⟨"FOC_M_EVCNT", 0x501D8, [(2, 0x8000), (2, 0x100)], .trb, .result, 0x0, 0x0, 0x0, .value 0x0, "foc", false⟩]

/-- The registers of block 0x06. -/
def modRows : List RegRow := [
  ⟨"MOD_STATUS", 0x60000, [(2, 0x8000)], .always, .result, 0x0, 0x0, 0x0, .value 0x0, "", false⟩,
  ⟨"MOD_SNAP", 0x60010, [(2, 0x8000)], .always, .result, 0x0, 0x0, 0x0, .value 0x0, "mod", true⟩,
  ⟨"MOD_CFG", 0x60100, [(2, 0x8000), (16, 0x40)], .always, .locked, 0x0, 0xFE00FFFF, 0x0, .value 0x0, "", false⟩,
  ⟨"MOD_PULSE", 0x60104, [(2, 0x8000), (16, 0x40)], .always, .locked, 0x0, 0xFFFFFFFF, 0x0, .value 0x500000, "", false⟩,
  ⟨"MOD_DTA", 0x60108, [(2, 0x8000), (16, 0x40)], .always, .locked, 0x0, 0xFFFFFFFF, 0x0, .value 0xFFFFFFFF, "", false⟩,
  ⟨"MOD_DTB", 0x6010C, [(2, 0x8000), (16, 0x40)], .always, .locked, 0x0, 0xFF, 0x0, .value 0xFF, "", false⟩,
  ⟨"MOD_FLY", 0x60110, [(2, 0x8000), (16, 0x40)], .always, .locked, 0x0, 0xFFFFFFFF, 0x0, .value 0x52, "", false⟩,
  ⟨"MOD_FLYSEC", 0x60114, [(2, 0x8000), (16, 0x40)], .always, .locked, 0x0, 0x1FFF1FFF, 0x0, .value 0x0, "", false⟩,
  ⟨"MOD_SPDSEC", 0x60118, [(2, 0x8000), (16, 0x40)], .always, .locked, 0x0, 0xFFFF1FFF, 0x0, .value 0x0, "", false⟩,
  ⟨"MOD_EMFMIN", 0x6011C, [(2, 0x8000), (16, 0x40)], .always, .locked, 0x0, 0xFFFF, 0x0, .value 0x0, "", false⟩,
  ⟨"MOD_CMD", 0x60120, [(2, 0x8000), (16, 0x40)], .always, .command, 0xF0000000, 0x0, 0x0, .value 0x0, "", false⟩,
  ⟨"MOD_RTGT", 0x60124, [(2, 0x8000), (16, 0x40)], .always, .command, 0xFFFFFFFF, 0x0, 0x0, .value 0x0, "", false⟩,
  ⟨"MOD_RACC", 0x60128, [(2, 0x8000), (16, 0x40)], .always, .command, 0xFFFFFFFF, 0x0, 0x0, .value 0x0, "", false⟩,
  ⟨"MOD_RQDEC", 0x6012C, [(2, 0x8000), (16, 0x40)], .always, .command, 0xFFFF, 0x0, 0x0, .value 0x0, "", false⟩,
  ⟨"MOD_STAT", 0x60130, [(2, 0x8000), (16, 0x40)], .always, .result, 0x0, 0x0, 0x0, .value 0x0, "mod", false⟩,
  ⟨"MOD_RAMP", 0x60134, [(2, 0x8000), (16, 0x40)], .always, .result, 0x0, 0x0, 0x0, .value 0x0, "mod", false⟩,
  ⟨"MOD_FLYSPD", 0x60138, [(2, 0x8000), (16, 0x40)], .always, .result, 0x0, 0x0, 0x0, .value 0x0, "mod", false⟩,
  ⟨"MOD_FLYANG", 0x6013C, [(2, 0x8000), (16, 0x40)], .always, .result, 0x0, 0x0, 0x0, .value 0x0, "mod", false⟩]

/-- The registers of block 0x07. -/
def gdiRows : List RegRow := [
  ⟨"GDI_STATUS", 0x70000, [], .always, .result, 0x0, 0x0, 0x0, .gdi, "", false⟩,
  ⟨"GDI_FAULT", 0x70004, [], .always, .result, 0x0, 0x0, 0x0, .value 0x0, "", false⟩,
  ⟨"GDI_OV", 0x70008, [], .always, .locked, 0x0, 0x3FFFFFFF, 0x0, .value 0x3FFFFFFF, "", false⟩,
  ⟨"GDI_OVSTAT", 0x7000C, [], .always, .result, 0x0, 0x0, 0x0, .value 0x0, "", false⟩,
  ⟨"GDI_SNAP", 0x70010, [], .always, .result, 0x0, 0x0, 0x0, .value 0x0, "gdi", true⟩,
  ⟨"GDI_DIAG_REQ", 0x70020, [], .always, .ownRow, 0xFFFF, 0x0, 0x0, .value 0x0, "", false⟩,
  ⟨"GDI_CLR", 0x70024, [], .always, .ownRow, 0x0, 0x0, 0x0, .value 0x0, "", false⟩,
  ⟨"GDI_IRQ_STAT", 0x70040, [], .always, .plain, 0x0, 0x0, 0x1FF, .value 0x0, "", false⟩,
  ⟨"GDI_IRQ_EN", 0x70044, [], .always, .plain, 0x1FF, 0x0, 0x0, .value 0x0, "", false⟩,
  ⟨"GDI_PR_CFG", 0x70100, [(16, 0x40)], .pair, .locked, 0x0, 0xFFFFFFFF, 0x0, .value 0x7F5281, "", false⟩,
  ⟨"GDI_PR_STR", 0x70104, [(16, 0x40)], .pair, .locked, 0x0, 0xFFFFFFFF, 0x0, .value 0x88880F14, "", false⟩,
  ⟨"GDI_PR_TON", 0x70108, [(16, 0x40)], .pair, .locked, 0x0, 0xFFFFFFFF, 0x0, .value 0x0, "", false⟩,
  ⟨"GDI_PR_TOFF", 0x7010C, [(16, 0x40)], .pair, .locked, 0x0, 0xFFFFFFFF, 0x0, .value 0x0, "", false⟩,
  ⟨"GDI_PR_TB4", 0x70110, [(16, 0x40)], .pair, .locked, 0x0, 0xFFFFFF00, 0x0, .value 0x1000, "", false⟩,
  ⟨"GDI_PR_SKEW", 0x70114, [(16, 0x40)], .pair, .locked, 0x0, 0xFFFFFFFF, 0x0, .value 0x0, "", false⟩,
  ⟨"GDI_PR_STAT", 0x70120, [(16, 0x40)], .pair, .result, 0x0, 0x0, 0x0, .value 0x88880000, "gdi", false⟩,
  ⟨"GDI_PR_TSWH", 0x70124, [(16, 0x40)], .pair, .result, 0x0, 0x0, 0x0, .value 0x0, "gdi", false⟩,
  ⟨"GDI_PR_TSWL", 0x70128, [(16, 0x40)], .pair, .result, 0x0, 0x0, 0x0, .value 0x0, "gdi", false⟩,
  ⟨"GDI_PR_DIAG", 0x7012C, [(16, 0x40)], .pair, .result, 0x0, 0x0, 0x0, .value 0x0, "gdi", false⟩,
  ⟨"GDI_PR_CNT", 0x70130, [(16, 0x40)], .pair, .result, 0x0, 0x0, 0x0, .value 0x0, "gdi", false⟩]

/-- The registers of block 0x08. -/
def gdlRows : List RegRow := [
  ⟨"GDL_STATUS", 0x80000, [], .always, .result, 0x0, 0x0, 0x0, .value 0xFFFFFF, "", false⟩,
  ⟨"GDL_FAULT", 0x80004, [], .always, .result, 0x0, 0x0, 0x0, .value 0x0, "", false⟩,
  ⟨"GDL_SNAP", 0x80010, [], .always, .result, 0x0, 0x0, 0x0, .value 0x0, "gdl", true⟩,
  ⟨"GDL_DIAG_REQ", 0x80020, [], .always, .ownRow, 0xFFFFFF, 0x0, 0x0, .value 0x0, "", false⟩,
  ⟨"GDL_CLR", 0x80024, [], .always, .ownRow, 0x0, 0x0, 0x0, .value 0x0, "", false⟩,
  ⟨"GDL_IRQ_STAT", 0x80040, [], .always, .plain, 0x0, 0x0, 0x3F, .value 0x0, "", false⟩,
  ⟨"GDL_IRQ_EN", 0x80044, [], .always, .plain, 0x3F, 0x0, 0x0, .value 0x0, "", false⟩,
  ⟨"GDL_LEG_CFG", 0x80100, [(24, 0x10)], .leg, .locked, 0x0, 0xFFFFFF00, 0x0, .value 0x6400, "", false⟩,
  ⟨"GDL_LEG_STAT", 0x80104, [(24, 0x10)], .leg, .result, 0x0, 0x0, 0x0, .value 0x0, "gdl", false⟩,
  ⟨"GDL_DRV_CFG", 0x80400, [(6, 0x10)], .drive, .locked, 0x0, 0xFF800000, 0x0, .value 0x0, "", false⟩,
  ⟨"GDL_DRV_STAT", 0x80404, [(6, 0x10)], .drive, .result, 0x0, 0x0, 0x0, .value 0x0, "gdl", false⟩]

/-- The registers of block 0x09. -/
def lvcRows : List RegRow := [
  ⟨"LVC_STATUS", 0x90000, [], .always, .result, 0x0, 0x0, 0x0, .value 0x1, "", false⟩,
  ⟨"LVC_CFG", 0x90004, [], .always, .locked, 0x0, 0xFFFFFFEF, 0x0, .value 0x10E680, "", false⟩,
  ⟨"LVC_RATIO", 0x90008, [], .always, .locked, 0x0, 0xFFFFFFFF, 0x0, .value 0x7000, "", false⟩,
  ⟨"LVC_ACC0", 0x9000C, [], .always, .locked, 0x0, 0xFFFFFFFF, 0x0, .value 0x0, "", false⟩,
  ⟨"LVC_ACC1", 0x90010, [], .always, .locked, 0x0, 0xFFFFFFFF, 0x0, .value 0x0, "", false⟩,
  ⟨"LVC_LIM", 0x90014, [], .always, .locked, 0x0, 0xFFFFFFFF, 0x0, .value 0x50004000, "", false⟩,
  ⟨"LVC_PROT", 0x90018, [], .always, .locked, 0x0, 0xFFFFFFF0, 0x0, .value 0xBB8261A0, "", false⟩,
  ⟨"LVC_SHED", 0x9001C, [], .always, .locked, 0x0, 0xFFFFFF07, 0x0, .value 0x8004001, "", false⟩,
  ⟨"LVC_STEP", 0x90020, [], .always, .locked, 0x0, 0xFFFFFFFF, 0x0, .value 0xAAB0148, "", false⟩,
  ⟨"LVC_BURST", 0x90024, [], .always, .locked, 0x0, 0xFFFFFFFF, 0x0, .value 0x1EC0A0A, "", false⟩,
  ⟨"LVC_SS", 0x90028, [], .always, .locked, 0x0, 0xFFFFFFFF, 0x0, .value 0xFA87D0, "", false⟩,
  ⟨"LVC_CTRL", 0x90030, [], .always, .ownRow, 0x3, 0x0, 0x0, .value 0x1, "", false⟩,
  ⟨"LVC_DIAG_REQ", 0x90034, [], .always, .ownRow, 0x3F, 0x0, 0x0, .value 0x0, "", false⟩,
  ⟨"LVC_DIAG", 0x90038, [], .always, .result, 0x0, 0x0, 0x0, .value 0x0, "", false⟩,
  ⟨"LVC_SNAP", 0x90040, [], .always, .result, 0x0, 0x0, 0x0, .value 0x0, "lvc", true⟩,
  ⟨"LVC_STAT", 0x90044, [], .always, .result, 0x0, 0x0, 0x0, .value 0x1C000, "lvc", false⟩,
  ⟨"LVC_VOUT", 0x90048, [], .always, .result, 0x0, 0x0, 0x0, .value 0x0, "lvc", false⟩,
  ⟨"LVC_VIN", 0x9004C, [], .always, .result, 0x0, 0x0, 0x0, .value 0x0, "lvc", false⟩,
  ⟨"LVC_IOUT", 0x90050, [], .always, .result, 0x0, 0x0, 0x0, .value 0x0, "lvc", false⟩,
  ⟨"LVC_FRBASE", 0x90060, [], .always, .result, 0x0, 0x0, 0x0, .value 0x7FFE000, "", false⟩,
  ⟨"LVC_FRSEQ", 0x90064, [], .always, .result, 0x0, 0x0, 0x0, .value 0x0, "", false⟩,
  ⟨"LVC_FRSTAT", 0x90068, [], .always, .result, 0x0, 0x0, 0x0, .value 0x0, "", false⟩,
  ⟨"LVC_IRQ_STAT", 0x90070, [], .always, .plain, 0x0, 0x0, 0x7FF, .value 0x0, "", false⟩,
  ⟨"LVC_IRQ_EN", 0x90074, [], .always, .plain, 0x7FF, 0x0, 0x0, .value 0x0, "", false⟩]

/-- The registers of block 0x0A. -/
def chgRows : List RegRow := [
  ⟨"CHG_STATUS", 0xA0000, [], .chg, .result, 0x0, 0x0, 0x0, .chg, "", false⟩,
  ⟨"CHG_CFG", 0xA0004, [], .chg, .locked, 0x0, 0xFFE00000, 0x0, .value 0x0, "", false⟩,
  ⟨"CHG_ACC0", 0xA0008, [], .chg, .locked, 0x0, 0xFFFFFFFF, 0x0, .value 0x0, "", false⟩,
  ⟨"CHG_ACC1", 0xA000C, [], .chg, .locked, 0x0, 0xFFFFFFFF, 0x0, .value 0x0, "", false⟩,
  ⟨"CHG_ACC2", 0xA0010, [], .chg, .locked, 0x0, 0xFFFFFFFF, 0x0, .value 0x0, "", false⟩,
  ⟨"CHG_ACC3", 0xA0014, [], .chg, .locked, 0x0, 0xFFFFFFFF, 0x0, .value 0x0, "", false⟩,
  ⟨"CHG_GRID", 0xA0018, [], .chg, .locked, 0x0, 0xFFFFFFFF, 0x0, .value 0xCD260000, "", false⟩,
  ⟨"CHG_GKP", 0xA001C, [], .chg, .locked, 0x0, 0xFFFFFFFF, 0x0, .value 0x0, "", false⟩,
  ⟨"CHG_GKI", 0xA0020, [], .chg, .locked, 0x0, 0xFFFFFFFF, 0x0, .value 0x0, "", false⟩,
  ⟨"CHG_BUS", 0xA0024, [], .chg, .locked, 0x0, 0xFFFFFFFF, 0x0, .value 0x0, "", false⟩,
  ⟨"CHG_SEQ", 0xA0028, [], .chg, .locked, 0x0, 0xFFFFFFFF, 0x0, .value 0xAC8321F4, "", false⟩,
  ⟨"CHG_LIM", 0xA002C, [], .chg, .locked, 0x0, 0xFFFFFF00, 0x0, .value 0x52F300, "", false⟩,
  ⟨"CHG_IMP", 0xA0030, [], .chg, .locked, 0x0, 0xFFFFFFFF, 0x0, .value 0x0, "", false⟩,
  ⟨"CHG_PLAN", 0xA0040, [(16, 0x4)], .chg, .locked, 0x0, 0xFC0FFFFF, 0x0, .value 0x0, "", false⟩,
  ⟨"CHG_KP", 0xA0080, [], .chg, .result, 0x0, 0x0, 0x0, .value 0x0, "", false⟩,
  ⟨"CHG_KIAC", 0xA0084, [], .chg, .result, 0x0, 0x0, 0x0, .value 0x0, "", false⟩,
  ⟨"CHG_KWG", 0xA0088, [], .chg, .result, 0x0, 0x0, 0x0, .value 0x0, "", false⟩,
  ⟨"CHG_ZBU", 0xA008C, [], .chg, .result, 0x0, 0x0, 0x0, .value 0x0, "", false⟩,
  ⟨"CHG_CTRL", 0xA0090, [], .chg, .ownRow, 0xF, 0x0, 0x0, .value 0x0, "", false⟩,
  ⟨"CHG_TGT", 0xA0094, [], .chg, .async, 0xFFFFFFFF, 0x0, 0x0, .value 0x0, "", false⟩,
  ⟨"CHG_ACLIM", 0xA0098, [], .chg, .async, 0xFFFF, 0x0, 0x0, .value 0x0, "", false⟩,
  ⟨"CHG_PULSE", 0xA009C, [], .chg, .ownRow, 0xFFFF87FF, 0x0, 0x0, .value 0x271000C8, "", false⟩,
  ⟨"CHG_TIMER", 0xA00A0, [], .chg, .ownRow, 0xFFFFFFFF, 0x0, 0x0, .value 0x3840, "", false⟩,
  ⟨"CHG_SNAP", 0xA00B0, [], .chg, .result, 0x0, 0x0, 0x0, .value 0x0, "chg", true⟩,
  ⟨"CHG_STAT", 0xA00B4, [], .chg, .result, 0x0, 0x0, 0x0, .value 0x0, "chg", false⟩,
  ⟨"CHG_PILOT", 0xA00B8, [], .chg, .result, 0x0, 0x0, 0x0, .value 0x0, "chg", false⟩,
  ⟨"CHG_ILIM", 0xA00BC, [], .chg, .result, 0x0, 0x0, 0x0, .value 0x0, "chg", false⟩,
  ⟨"CHG_TIME", 0xA00C0, [], .chg, .result, 0x0, 0x0, 0x0, .value 0x0, "chg", false⟩,
  ⟨"CHG_THALF", 0xA00C4, [], .chg, .result, 0x0, 0x0, 0x0, .value 0x0, "chg", false⟩,
  ⟨"CHG_VREST", 0xA00C8, [], .chg, .result, 0x0, 0x0, 0x0, .value 0x0, "chg", false⟩,
  ⟨"CHG_ZINFO", 0xA00CC, [], .chg, .result, 0x0, 0x0, 0x0, .value 0x0, "chg", false⟩,
  ⟨"CHG_KVB", 0xA00D0, [], .chg, .result, 0x0, 0x0, 0x0, .value 0x0, "", false⟩,
  ⟨"CHG_IRQ_STAT", 0xA00E0, [], .chg, .plain, 0x0, 0x0, 0x3FF, .value 0x0, "", false⟩,
  ⟨"CHG_IRQ_EN", 0xA00E4, [], .chg, .plain, 0x3FF, 0x0, 0x0, .value 0x0, "", false⟩,
  ⟨"CHG_OUT_EN", 0xA00E8, [], .chg, .plain, 0x3FF, 0x0, 0x0, .value 0x0, "", false⟩,
  ⟨"CHG_Z_ZR", 0xA0100, [(16, 0x8)], .chg, .result, 0x0, 0x0, 0x0, .value 0x0, "chg", false⟩,
  ⟨"CHG_Z_ZI", 0xA0104, [(16, 0x8)], .chg, .result, 0x0, 0x0, 0x0, .value 0x0, "chg", false⟩]

/-- The registers of block 0x0B. -/
def actRows : List RegRow := [
  ⟨"ACT_STATUS", 0xB0000, [], .always, .result, 0x0, 0x0, 0x0, .value 0x3F, "act", false⟩,
  ⟨"ACT_PLCFG", 0xB0004, [], .always, .locked, 0x0, 0xFF, 0x0, .value 0xC, "", false⟩,
  ⟨"ACT_PLHD0", 0xB0008, [], .always, .result, 0x0, 0x0, 0x0, .value 0x0, "", false⟩,
  ⟨"ACT_PLHD1", 0xB000C, [], .always, .result, 0x0, 0x0, 0x0, .value 0x0, "", false⟩,
  ⟨"ACT_SNAP", 0xB0010, [], .always, .result, 0x0, 0x0, 0x0, .value 0x0, "act", true⟩,
  ⟨"ACT_IRQ_STAT", 0xB0040, [], .always, .plain, 0x0, 0x0, 0x3F, .value 0x0, "", false⟩,
  ⟨"ACT_IRQ_EN", 0xB0044, [], .always, .plain, 0x3F, 0x0, 0x0, .value 0x0, "", false⟩,
  ⟨"ACT_DRV_CFG", 0xB0100, [(6, 0x40)], .drive, .locked, 0x0, 0xFEFFFF00, 0x0, .value 0x0, "", false⟩,
  ⟨"ACT_DRV_TRAV", 0xB0104, [(6, 0x40)], .drive, .locked, 0x0, 0xFFFFFF00, 0x0, .value 0x0, "", false⟩,
  ⟨"ACT_DRV_POS01", 0xB0108, [(6, 0x40)], .drive, .locked, 0x0, 0xFFFFFFFF, 0x0, .value 0x0, "", false⟩,
  ⟨"ACT_DRV_POS23", 0xB010C, [(6, 0x40)], .drive, .locked, 0x0, 0xFFFFFFFF, 0x0, .value 0x0, "", false⟩,
  ⟨"ACT_DRV_LIM", 0xB0110, [(6, 0x40)], .drive, .locked, 0x0, 0xFFFFFFFF, 0x0, .value 0x0, "", false⟩,
  ⟨"ACT_DRV_STALL", 0xB0114, [(6, 0x40)], .drive, .locked, 0x0, 0xFFFFFFFF, 0x0, .value 0x8001900, "", false⟩,
  ⟨"ACT_PMP_CFG", 0xB0118, [(6, 0x40)], .drive, .locked, 0x0, 0xFFFFFC00, 0x0, .value 0x0, "", false⟩,
  ⟨"ACT_PMP_MAP", 0xB011C, [(6, 0x40)], .drive, .locked, 0x0, 0xFFFFFFFF, 0x0, .value 0x0, "", false⟩,
  ⟨"ACT_PMP_GKP", 0xB0120, [(6, 0x40)], .drive, .locked, 0x0, 0xFFFFFFFF, 0x0, .value 0x0, "", false⟩,
  ⟨"ACT_PMP_GKI", 0xB0124, [(6, 0x40)], .drive, .locked, 0x0, 0xFFFFFFFF, 0x0, .value 0x0, "", false⟩,
  ⟨"ACT_DRV_REQ", 0xB0128, [(6, 0x40)], .drive, .ownRow, 0x8000003F, 0x0, 0x0, .value 0x0, "", false⟩,
  ⟨"ACT_PMP_SPD", 0xB012C, [(6, 0x40)], .drive, .ownRow, 0xFFFFFFFF, 0x0, 0x0, .value 0x0, "", false⟩,
  ⟨"ACT_DRV_STAT", 0xB0130, [(6, 0x40)], .drive, .result, 0x0, 0x0, 0x0, .value 0x0, "act", false⟩,
  ⟨"ACT_DRV_POSN", 0xB0134, [(6, 0x40)], .drive, .result, 0x0, 0x0, 0x0, .value 0x0, "act", false⟩,
  ⟨"ACT_DRV_PIN", 0xB0138, [(6, 0x40)], .drive, .result, 0x0, 0x0, 0x0, .value 0x0, "act", false⟩]

/-- The registers of block 0x0C. -/
def laneRows : List RegRow := [
  ⟨"LANE_ARR", 0xC0000, [], .always, .ownRow, 0x3, 0x0, 0x0, .value 0x1, "", false⟩,
  ⟨"LANE_CFG", 0xC0004, [], .always, .locked, 0x0, 0x1F, 0x0, .value 0x4, "", false⟩,
  ⟨"LANE_STATUS", 0xC0010, [], .always, .result, 0x0, 0x0, 0x0, .value 0x0, "lane", true⟩,
  ⟨"LANE_HEALTHA", 0xC0014, [], .always, .result, 0x0, 0x0, 0x0, .value 0x0, "lane", false⟩,
  ⟨"LANE_HEALTHB", 0xC0018, [], .always, .result, 0x0, 0x0, 0x0, .value 0x0, "lane", false⟩,
  ⟨"LANE_CKSTAT", 0xC001C, [], .always, .result, 0x0, 0x0, 0x0, .value 0x0, "lane", false⟩,
  ⟨"LANE_FAULTS", 0xC0020, [], .always, .result, 0x0, 0x0, 0x0, .value 0x0, "lane", false⟩,
  ⟨"LANE_LASTRST", 0xC0024, [], .always, .result, 0x0, 0x0, 0x0, .value 0x0, "lane", false⟩,
  ⟨"LANE_ACCSTAT", 0xC0028, [], .always, .result, 0x0, 0x0, 0x0, .value 0x0, "lane", false⟩,
  ⟨"LANE_NETSTAT", 0xC002C, [], .always, .result, 0x0, 0x0, 0x0, .value 0x0, "lane", false⟩,
  ⟨"LANE_HOLDLIM", 0xC0040, [(4, 0x4)], .always, .locked, 0x0, 0xFFFFFFFF, 0x0, .value 0x10101010, "", false⟩,
  ⟨"LANE_JRN_ADDR", 0xC0060, [], .always, .plain, 0xC0003FFF, 0x0, 0x0, .value 0x0, "", false⟩,
  ⟨"LANE_JRN_DATA", 0xC0064, [], .always, .result, 0x0, 0x0, 0x0, .value 0x0, "", false⟩,
  ⟨"LANE_L_CMD", 0xC0100, [(2, 0x100)], .always, .ownRow, 0x0, 0x0, 0x0, .value 0x0, "", false⟩,
  ⟨"LANE_L_WDOG", 0xC0104, [(2, 0x100)], .always, .locked, 0x0, 0xFF, 0x0, .value 0x0, "", false⟩,
  ⟨"LANE_L_CTX", 0xC0108, [(2, 0x100)], .always, .result, 0x0, 0x0, 0x0, .value 0x0, "", false⟩,
  ⟨"LANE_L_IN_CNT", 0xC010C, [(2, 0x100)], .always, .result, 0x0, 0x0, 0x0, .value 0x0, "", false⟩,
  ⟨"LANE_L_IN_DATA", 0xC0110, [(2, 0x100)], .always, .result, 0x0, 0x0, 0x0, .value 0x0, "", false⟩,
  ⟨"LANE_L_JHEAD", 0xC0114, [(2, 0x100)], .always, .result, 0x0, 0x0, 0x0, .value 0x0, "", false⟩,
  ⟨"LANE_L_FWREG", 0xC0118, [(2, 0x100)], .always, .locked, 0x0, 0x7FFFFFFF, 0x0, .value 0x0, "", false⟩,
  ⟨"LANE_L_CODE", 0xC011C, [(2, 0x100)], .always, .locked, 0x0, 0x7FFFFFFF, 0x0, .value 0x0, "", false⟩,
  ⟨"LANE_L_RPL", 0xC0120, [(2, 0x100)], .always, .result, 0x0, 0x0, 0x0, .value 0x0, "", false⟩,
  ⟨"LANE_L_IRQ_STAT", 0xC0128, [(2, 0x100)], .always, .plain, 0x0, 0x0, 0xFF, .value 0x0, "", false⟩,
  ⟨"LANE_L_IRQ_EN", 0xC012C, [(2, 0x100)], .always, .plain, 0xFF, 0x0, 0x0, .value 0x0, "", false⟩]

/-- The registers of block 0x0D. -/
def dmaRows : List RegRow := [
  ⟨"DMA_MEMCFG", 0xD0000, [], .always, .locked, 0x0, 0xFFFF, 0x0, .value 0x1010, "", false⟩,
  ⟨"DMA_ECCSTAT", 0xD0010, [], .always, .result, 0x0, 0x0, 0x0, .value 0x0, "ecc", true⟩,
  ⟨"DMA_ECCADDR_LO", 0xD0014, [], .always, .result, 0x0, 0x0, 0x0, .value 0x0, "ecc", false⟩,
  ⟨"DMA_ECCADDR_HI", 0xD0018, [], .always, .result, 0x0, 0x0, 0x0, .value 0x0, "ecc", false⟩,
  ⟨"DMA_ECCINFO", 0xD001C, [], .always, .result, 0x0, 0x0, 0x0, .value 0x0, "ecc", false⟩,
  ⟨"DMA_SCRUB", 0xD0020, [], .always, .result, 0x0, 0x0, 0x0, .value 0x0, "ecc", false⟩,
  ⟨"DMA_L_STATUS", 0xD1000, [(2, 0x1000)], .always, .result, 0x0, 0x0, 0x0, .value 0x0, "", false⟩,
  ⟨"DMA_L_FRBASE_LO", 0xD1004, [(2, 0x1000)], .always, .plain, 0xFFFFFFE0, 0x0, 0x0, .value 0x0, "", false⟩,
  ⟨"DMA_L_FRBASE_HI", 0xD1008, [(2, 0x1000)], .always, .plain, 0xFF, 0x0, 0x0, .value 0x0, "", false⟩,
  ⟨"DMA_L_FRCFG", 0xD100C, [(2, 0x1000)], .always, .plain, 0xF, 0x0, 0x0, .value 0x8, "", false⟩,
  ⟨"DMA_L_FRHEAD", 0xD1010, [(2, 0x1000)], .always, .result, 0x0, 0x0, 0x0, .value 0x0, "", false⟩,
  ⟨"DMA_L_FRTAIL", 0xD1014, [(2, 0x1000)], .always, .plain, 0x3FF, 0x0, 0x0, .value 0x0, "", false⟩,
  ⟨"DMA_L_FSTAT", 0xD1018, [(2, 0x1000)], .always, .result, 0x0, 0x0, 0x0, .value 0x0, "", false⟩,
  ⟨"DMA_L_INVAL", 0xD101C, [(2, 0x1000)], .always, .ownRow, 0x0, 0x0, 0x0, .value 0x0, "", false⟩,
  ⟨"DMA_L_IRQ_STAT", 0xD1020, [(2, 0x1000)], .always, .plain, 0x0, 0x0, 0x1F, .value 0x0, "", false⟩,
  ⟨"DMA_L_IRQ_EN", 0xD1024, [(2, 0x1000)], .always, .plain, 0x1F, 0x0, 0x0, .value 0x0, "", false⟩,
  ⟨"DMA_L_CTX_LO", 0xD1040, [(2, 0x1000), (4, 0x8)], .always, .plain, 0xFFFFFFF, 0x0, 0x0, .value 0x0, "", false⟩,
  ⟨"DMA_L_CTX_HI", 0xD1044, [(2, 0x1000), (4, 0x8)], .always, .plain, 0xF000FFFF, 0x0, 0x0, .value 0x0, "", false⟩,
  ⟨"DMA_R_CFG", 0xD1100, [(2, 0x1000), (16, 0x40)], .always, .plain, 0xFFFFC001, 0x0, 0x0, .value 0x0, "", false⟩,
  ⟨"DMA_R_BASE_LO", 0xD1104, [(2, 0x1000), (16, 0x40)], .always, .plain, 0xFFFFFFE0, 0x0, 0x0, .value 0x0, "", false⟩,
  ⟨"DMA_R_BASE_HI", 0xD1108, [(2, 0x1000), (16, 0x40)], .always, .plain, 0xFF, 0x0, 0x0, .value 0x0, "", false⟩,
  ⟨"DMA_R_CQ_LO", 0xD110C, [(2, 0x1000), (16, 0x40)], .always, .plain, 0xFFFFFFE0, 0x0, 0x0, .value 0x0, "", false⟩,
  ⟨"DMA_R_CQ_HI", 0xD1110, [(2, 0x1000), (16, 0x40)], .always, .plain, 0xFF, 0x0, 0x0, .value 0x0, "", false⟩,
  ⟨"DMA_R_TAIL", 0xD1114, [(2, 0x1000), (16, 0x40)], .always, .ownRow, 0xFFF, 0x0, 0x0, .value 0x0, "", false⟩,
  ⟨"DMA_R_HEAD", 0xD1118, [(2, 0x1000), (16, 0x40)], .always, .result, 0x0, 0x0, 0x0, .value 0x0, "", false⟩,
  ⟨"DMA_R_CQHEAD", 0xD111C, [(2, 0x1000), (16, 0x40)], .always, .result, 0x0, 0x0, 0x0, .value 0x0, "", false⟩,
  ⟨"DMA_R_CQTAIL", 0xD1120, [(2, 0x1000), (16, 0x40)], .always, .plain, 0xFFF, 0x0, 0x0, .value 0x0, "", false⟩,
  ⟨"DMA_R_CTRL", 0xD1124, [(2, 0x1000), (16, 0x40)], .always, .ownRow, 0x0, 0x0, 0x0, .value 0x0, "", false⟩,
  ⟨"DMA_R_STAT", 0xD1128, [(2, 0x1000), (16, 0x40)], .always, .result, 0x0, 0x0, 0x0, .value 0x0, "", false⟩,
  ⟨"DMA_R_IRQ", 0xD112C, [(2, 0x1000), (16, 0x40)], .always, .plain, 0x0, 0x0, 0xF, .value 0x0, "", false⟩]

/-- The registers of block 0x0E. -/
def crcRows : List RegRow := [
  ⟨"CRC_U_CFG", 0xE0100, [(2, 0x200), (4, 0x80)], .always, .plain, 0xFFFF8000, 0x0, 0x0, .value 0x0, "", false⟩,
  ⟨"CRC_U_POLY_LO", 0xE0104, [(2, 0x200), (4, 0x80)], .always, .plain, 0xFFFFFFFF, 0x0, 0x0, .value 0x0, "", false⟩,
  ⟨"CRC_U_POLY_HI", 0xE0108, [(2, 0x200), (4, 0x80)], .always, .plain, 0xFFFFFFFF, 0x0, 0x0, .value 0x0, "", false⟩,
  ⟨"CRC_U_INIT_LO", 0xE010C, [(2, 0x200), (4, 0x80)], .always, .plain, 0xFFFFFFFF, 0x0, 0x0, .value 0x0, "", false⟩,
  ⟨"CRC_U_INIT_HI", 0xE0110, [(2, 0x200), (4, 0x80)], .always, .plain, 0xFFFFFFFF, 0x0, 0x0, .value 0x0, "", false⟩,
  ⟨"CRC_U_XOR_LO", 0xE0114, [(2, 0x200), (4, 0x80)], .always, .plain, 0xFFFFFFFF, 0x0, 0x0, .value 0x0, "", false⟩,
  ⟨"CRC_U_XOR_HI", 0xE0118, [(2, 0x200), (4, 0x80)], .always, .plain, 0xFFFFFFFF, 0x0, 0x0, .value 0x0, "", false⟩,
  ⟨"CRC_U_ADDR_LO", 0xE011C, [(2, 0x200), (4, 0x80)], .always, .plain, 0xFFFFFFFF, 0x0, 0x0, .value 0x0, "", false⟩,
  ⟨"CRC_U_ADDR_HI", 0xE0120, [(2, 0x200), (4, 0x80)], .always, .plain, 0xFFFFFFFF, 0x0, 0x0, .value 0x0, "", false⟩,
  ⟨"CRC_U_LEN", 0xE0124, [(2, 0x200), (4, 0x80)], .always, .plain, 0xFFFFFFFF, 0x0, 0x0, .value 0x0, "", false⟩,
  ⟨"CRC_U_VAL_LO", 0xE0128, [(2, 0x200), (4, 0x80)], .always, .plain, 0xFFFFFFFF, 0x0, 0x0, .value 0x0, "", false⟩,
  ⟨"CRC_U_VAL_HI", 0xE012C, [(2, 0x200), (4, 0x80)], .always, .plain, 0xFFFFFFFF, 0x0, 0x0, .value 0x0, "", false⟩,
  ⟨"CRC_U_POS", 0xE0130, [(2, 0x200), (4, 0x80)], .always, .plain, 0xFFFFFFFF, 0x0, 0x0, .value 0x0, "", false⟩,
  ⟨"CRC_U_CTRL", 0xE0134, [(2, 0x200), (4, 0x80)], .always, .ownRow, 0x0, 0x0, 0x0, .value 0x0, "", false⟩,
  ⟨"CRC_U_STAT", 0xE0138, [(2, 0x200), (4, 0x80)], .always, .result, 0x0, 0x0, 0x0, .value 0x0, "", false⟩,
  ⟨"CRC_U_RES_LO", 0xE0140, [(2, 0x200), (4, 0x80)], .always, .result, 0x0, 0x0, 0x0, .value 0x0, "", false⟩,
  ⟨"CRC_U_RES_HI", 0xE0144, [(2, 0x200), (4, 0x80)], .always, .result, 0x0, 0x0, 0x0, .value 0x0, "", false⟩]

/-- The registers of block 0x0F. -/
def timeRows : List RegRow := [
  ⟨"TIME_NOW_LO", 0xF0000, [], .always, .result, 0x0, 0x0, 0x0, .value 0x0, "now", true⟩,
  ⟨"TIME_NOW_HI", 0xF0004, [], .always, .result, 0x0, 0x0, 0x0, .value 0x0, "now", false⟩,
  ⟨"TIME_RATE", 0xF0008, [], .always, .ownRow, 0xFFFFFFFF, 0x0, 0x0, .value 0x0, "", false⟩,
  ⟨"TIME_SLEW", 0xF000C, [], .always, .ownRow, 0x0, 0x0, 0x0, .value 0x0, "", false⟩,
  ⟨"TIME_STATUS", 0xF0010, [], .always, .result, 0x0, 0x0, 0x0, .value 0x0, "", false⟩,
  ⟨"TIME_CATCFG", 0xF0020, [], .always, .plain, 0x8000000F, 0x0, 0x0, .value 0x0, "", false⟩,
  ⟨"TIME_CATSTAT", 0xF0024, [], .always, .result, 0x0, 0x0, 0x0, .value 0x0, "cat", true⟩,
  ⟨"TIME_CATSEQ", 0xF0028, [], .always, .result, 0x0, 0x0, 0x0, .value 0x0, "cat", false⟩,
  ⟨"TIME_BOOT", 0xF002C, [], .always, .result, 0x0, 0x0, 0x0, .value 0x0, "", false⟩,
  ⟨"TIME_CAPCFG", 0xF0040, [], .always, .ownRow, 0x3FFF0000, 0x0, 0x0, .value 0xD000000, "", false⟩,
  ⟨"TIME_CAPTRIG", 0xF0044, [], .always, .plain, 0x8000FFFF, 0x0, 0x0, .value 0x0, "", false⟩,
  ⟨"TIME_CAPSTAT", 0xF0048, [], .always, .result, 0x0, 0x0, 0x0, .value 0x0, "", false⟩,
  ⟨"TIME_CAP_ADDR", 0xF004C, [], .always, .plain, 0x3FFF, 0x0, 0x0, .value 0x0, "", false⟩,
  ⟨"TIME_CAP_DATA", 0xF0050, [], .always, .result, 0x0, 0x0, 0x0, .value 0x0, "", false⟩,
  ⟨"TIME_CAPSRC", 0xF0080, [(12, 0x4)], .always, .plain, 0xF00000FF, 0x0, 0x0, .value 0x0, "", false⟩,
  ⟨"TIME_IRQ_STAT", 0xF00C0, [], .always, .plain, 0x0, 0x0, 0xF, .value 0x0, "", false⟩,
  ⟨"TIME_IRQ_EN", 0xF00C4, [], .always, .plain, 0xF, 0x0, 0x0, .value 0x0, "", false⟩]

/-- The registers of block 0x10. -/
def safeRows : List RegRow := [
  ⟨"SAFE_STATUS", 0x100000, [], .always, .result, 0x0, 0x0, 0x0, .value 0x0, "safe", true⟩,
  ⟨"SAFE_INPUTS", 0x100004, [], .always, .result, 0x0, 0x0, 0x0, .value 0x0, "safe", false⟩,
  ⟨"SAFE_FUNC", 0x100008, [], .always, .result, 0x0, 0x0, 0x0, .value 0x0, "safe", false⟩,
  ⟨"SAFE_STO", 0x10000C, [], .always, .result, 0x0, 0x0, 0x0, .value 0x0, "safe", false⟩,
  ⟨"SAFE_SLS", 0x100010, [], .always, .result, 0x0, 0x0, 0x0, .value 0x0, "safe", false⟩,
  ⟨"SAFE_OUTS", 0x100014, [], .always, .result, 0x0, 0x0, 0x0, .value 0x0, "safe", false⟩,
  ⟨"SAFE_AEDDY", 0x100018, [], .always, .result, 0x0, 0x0, 0x0, .value 0x0, "safe", false⟩,
  ⟨"SAFE_AECNT", 0x100020, [], .always, .result, 0x0, 0x0, 0x0, .value 0x0, "safe", false⟩,
  ⟨"SAFE_IRQ_STAT", 0x100024, [], .always, .plain, 0x0, 0x0, 0xFF, .value 0x0, "", false⟩,
  ⟨"SAFE_IRQ_EN", 0x100028, [], .always, .plain, 0xFF, 0x0, 0x0, .value 0x0, "", false⟩,
  ⟨"SAFE_CFG", 0x100030, [], .always, .locked, 0x0, 0xFFFFFFFF, 0x0, .value 0x321E0028, "", false⟩,
  ⟨"SAFE_SOREQ", 0x100034, [], .always, .plain, 0xF, 0x0, 0x0, .value 0x0, "", false⟩,
  ⟨"SAFE_CMD", 0x100038, [], .always, .ownRow, 0x0, 0x0, 0x0, .value 0x0, "", false⟩,
  ⟨"SAFE_IN_CFG", 0x100040, [(16, 0x4)], .always, .locked, 0x0, 0xFFFFFFFF, 0x0, .value 0x3FCC8064, "", false⟩,
  ⟨"SAFE_FN_CFG_W0", 0x100080, [(16, 0x10)], .always, .locked, 0x0, 0xFFFFFF7F, 0x0, .value 0xFFFF00, "", false⟩,
  ⟨"SAFE_FN_CFG_W1", 0x100084, [(16, 0x10)], .always, .locked, 0x0, 0xFFFFFFFF, 0x0, .value 0x0, "", false⟩,
  ⟨"SAFE_FN_CFG_W2", 0x100088, [(16, 0x10)], .always, .locked, 0x0, 0xFFFFFFFF, 0x0, .value 0x0, "", false⟩,
  ⟨"SAFE_FN_CFG_W3", 0x10008C, [(16, 0x10)], .always, .locked, 0x0, 0xFFFFFF00, 0x0, .value 0x0, "", false⟩,
  ⟨"SAFE_AE_CFG_W0", 0x100200, [(8, 0x10)], .always, .locked, 0x0, 0xFFFFFFFF, 0x0, .value 0x0, "", false⟩,
  ⟨"SAFE_AE_CFG_W1", 0x100204, [(8, 0x10)], .always, .locked, 0x0, 0xFFFFFFFF, 0x0, .value 0x800, "", false⟩,
  ⟨"SAFE_AE_CFG_W2", 0x100208, [(8, 0x10)], .always, .locked, 0x0, 0xFFFFFFFF, 0x0, .value 0x0, "", false⟩,
  ⟨"SAFE_AE_CFG_W3", 0x10020C, [(8, 0x10)], .always, .locked, 0x0, 0xFFC00000, 0x0, .value 0x0, "", false⟩,
  ⟨"SAFE_SESS_CMD", 0x100300, [], .always, .ownRow, 0x0, 0x0, 0x0, .value 0x0, "", false⟩,
  ⟨"SAFE_SESS_STAT", 0x100304, [], .always, .result, 0x0, 0x0, 0x0, .value 0x0, "", false⟩,
  ⟨"SAFE_PW_BUF", 0x100310, [(8, 0x4)], .always, .plain, 0xFFFFFFFF, 0x0, 0x0, .value 0x0, "", false⟩,
  ⟨"SAFE_WHO", 0x100330, [(4, 0x4)], .always, .plain, 0xFFFFFFFF, 0x0, 0x0, .value 0x0, "", false⟩,
  ⟨"SAFE_LOG_STAT", 0x100340, [], .always, .result, 0x0, 0x0, 0x0, .value 0x0, "", false⟩,
  ⟨"SAFE_MBOX_TX", 0x100400, [(8, 0x40), (12, 0x4)], .always, .plain, 0xFFFFFFFF, 0x0, 0x0, .value 0x0, "", false⟩,
  ⟨"SAFE_MBOX_RX", 0x100600, [(8, 0x40), (12, 0x4)], .always, .result, 0x0, 0x0, 0x0, .value 0x0, "", false⟩]

/-- The registers of block 0x11. -/
def imgRows : List RegRow := [
  ⟨"IMG_STATUS", 0x110000, [], .always, .result, 0x0, 0x0, 0x0, .value 0x0, "", false⟩,
  ⟨"IMG_RUNSEQ", 0x110004, [], .always, .result, 0x0, 0x0, 0x0, .value 0x0, "", false⟩,
  ⟨"IMG_RUNVER", 0x110008, [], .always, .result, 0x0, 0x0, 0x0, .value 0x0, "", false⟩,
  ⟨"IMG_BUILD_LO", 0x11000C, [], .always, .result, 0x0, 0x0, 0x0, .value 0x0, "", false⟩,
  ⟨"IMG_BUILD_HI", 0x110010, [], .always, .result, 0x0, 0x0, 0x0, .value 0x0, "", false⟩,
  ⟨"IMG_STRUCT", 0x110014, [], .always, .result, 0x0, 0x0, 0x0, .value 0x0, "", false⟩,
  ⟨"IMG_SAFETY", 0x110018, [], .always, .result, 0x0, 0x0, 0x0, .value 0x0, "", false⟩,
  ⟨"IMG_CMD", 0x110020, [], .always, .ownRow, 0x0, 0x0, 0x0, .value 0x0, "", false⟩,
  ⟨"IMG_LEN", 0x110024, [], .always, .plain, 0xFFFFFFFF, 0x0, 0x0, .value 0x0, "", false⟩,
  ⟨"IMG_PROG", 0x110028, [], .always, .result, 0x0, 0x0, 0x0, .value 0x0, "", false⟩,
  ⟨"IMG_REJECT", 0x11002C, [], .always, .result, 0x0, 0x0, 0x0, .value 0x0, "", false⟩,
  ⟨"IMG_REJOFF", 0x110030, [], .always, .result, 0x0, 0x0, 0x0, .value 0x0, "", false⟩,
  ⟨"IMG_KEYS", 0x110034, [], .always, .result, 0x0, 0x0, 0x0, .value 0x0, "", false⟩,
  ⟨"IMG_KEYCMD", 0x110038, [], .always, .ownRow, 0x0, 0x0, 0x0, .value 0x0, "", false⟩,
  ⟨"IMG_SNAP", 0x110040, [], .always, .result, 0x0, 0x0, 0x0, .value 0x0, "img", true⟩,
  ⟨"IMG_IRQ_STAT", 0x110060, [], .always, .plain, 0x0, 0x0, 0x1F, .value 0x0, "", false⟩,
  ⟨"IMG_IRQ_EN", 0x110064, [], .always, .plain, 0x1F, 0x0, 0x0, .value 0x0, "", false⟩,
  ⟨"IMG_KEYBUF", 0x110080, [(8, 0x4)], .always, .plain, 0xFFFFFFFF, 0x0, 0x0, .value 0x0, "", false⟩,
  ⟨"IMG_SM_REQ", 0x110100, [(16, 0x8)], .always, .ownRow, 0x3F, 0x0, 0x0, .value 0x0, "", false⟩,
  ⟨"IMG_SM_STAT", 0x110104, [(16, 0x8)], .always, .result, 0x0, 0x0, 0x0, .value 0x0, "img", false⟩]

/-- The registers of block 0x12. -/
def pwrRows : List RegRow := [
  ⟨"PWR_STATUS", 0x120000, [], .always, .result, 0x0, 0x0, 0x0, .value 0x0, "", false⟩,
  ⟨"PWR_RSTCAUSE", 0x120004, [], .always, .result, 0x0, 0x0, 0x0, .value 0x0, "", false⟩,
  ⟨"PWR_WAKE", 0x120008, [], .always, .result, 0x0, 0x0, 0x0, .value 0x0, "", false⟩,
  ⟨"PWR_WAKECFG", 0x12000C, [], .always, .plain, 0xFF8F, 0x0, 0x0, .value 0x81, "", false⟩,
  ⟨"PWR_WTIMER", 0x120010, [], .always, .plain, 0xFFFF, 0x0, 0x0, .value 0x0, "", false⟩,
  ⟨"PWR_LINES", 0x120014, [], .always, .locked, 0x0, 0x7, 0x0, .value 0x0, "", false⟩,
  ⟨"PWR_MODECFG", 0x120018, [], .always, .locked, 0x0, 0xFFFF, 0x0, .value 0x1388, "", false⟩,
  ⟨"PWR_SCHED", 0x120020, [], .always, .locked, 0x0, 0xFFFFFFFF, 0x0, .value 0x12C00CD, "", false⟩,
  ⟨"PWR_SCHSTAT", 0x120024, [], .always, .result, 0x0, 0x0, 0x0, .value 0x0, "pwr", false⟩,
  ⟨"PWR_SNAP", 0x120030, [], .always, .result, 0x0, 0x0, 0x0, .value 0x0, "pwr", true⟩,
  ⟨"PWR_IRQ_STAT", 0x120060, [], .always, .plain, 0x0, 0x0, 0x7F, .value 0x0, "", false⟩,
  ⟨"PWR_IRQ_EN", 0x120064, [], .always, .plain, 0x7F, 0x0, 0x0, .value 0x0, "", false⟩,
  ⟨"PWR_SCOST", 0x120080, [(16, 0x4)], .always, .locked, 0x0, 0x3FFFF, 0x0, .value 0x0, "", false⟩,
  ⟨"PWR_SL_TMASK", 0x1200C0, [(16, 0x4)], .always, .locked, 0x0, 0xFFFFF, 0x0, .value 0x0, "", false⟩,
  ⟨"PWR_SL_TH", 0x120100, [(16, 0x4)], .always, .result, 0x0, 0x0, 0x0, .value 0xFFFF0001, "pwr", false⟩,
  ⟨"PWR_TS_CFG_W0", 0x120200, [(20, 0x10)], .always, .locked, 0x0, 0xFFFFFFFF, 0x0, .value 0x7FFF7FFF, "", false⟩,
  ⟨"PWR_TS_CFG_W1", 0x120204, [(20, 0x10)], .always, .locked, 0x0, 0xFFFFFFFF, 0x0, .value 0x7FFF0000, "", false⟩,
  ⟨"PWR_TS_CFG_W2", 0x120208, [(20, 0x10)], .always, .locked, 0x0, 0xFF, 0x0, .value 0x0, "", false⟩,
  ⟨"PWR_TS_VAL", 0x120400, [(20, 0x4)], .always, .result, 0x0, 0x0, 0x0, .value 0x0, "pwr", false⟩]

/-- The registers of block 0x13. -/
def netRows : List RegRow := [
  ⟨"NET_STATUS", 0x130000, [], .always, .result, 0x0, 0x0, 0x0, .value 0x7F, "", false⟩,
  ⟨"NET_IRQ_STAT", 0x130040, [], .always, .plain, 0x0, 0x0, 0x3F, .value 0x0, "", false⟩,
  ⟨"NET_IRQ_EN", 0x130044, [], .always, .plain, 0x3F, 0x0, 0x0, .value 0x0, "", false⟩,
  ⟨"NET_P_CFG", 0x130100, [(7, 0x40)], .port, .locked, 0x0, 0xFFFFFFFF, 0x0, .portCfg, "", false⟩,
  ⟨"NET_P_MACLO", 0x130104, [(7, 0x40)], .port, .locked, 0x0, 0xFFFFFFFF, 0x0, .value 0x0, "", false⟩,
  ⟨"NET_P_MACHI", 0x130108, [(7, 0x40)], .port, .locked, 0x0, 0xFFFF, 0x0, .value 0x0, "", false⟩,
  ⟨"NET_P_STAT", 0x130110, [(7, 0x40)], .port, .result, 0x0, 0x0, 0x0, .value 0x0, "", false⟩,
  ⟨"NET_P_CNT", 0x130114, [(7, 0x40)], .port, .result, 0x0, 0x0, 0x0, .value 0x0, "", false⟩,
  ⟨"NET_P_TXTS_INFO", 0x130118, [(7, 0x40)], .port, .result, 0x0, 0x0, 0x0, .value 0x0, "txts", true⟩,
  ⟨"NET_P_TXTS_LO", 0x13011C, [(7, 0x40)], .port, .result, 0x0, 0x0, 0x0, .value 0x0, "txts", false⟩,
  ⟨"NET_P_TXTS_HI", 0x130120, [(7, 0x40)], .port, .result, 0x0, 0x0, 0x0, .value 0x0, "txts", false⟩,
  ⟨"NET_FLOW_W0", 0x130800, [(64, 0x8)], .always, .locked, 0x0, 0xFFFFFFFF, 0x0, .value 0x0, "", false⟩,
  ⟨"NET_FLOW_W1", 0x130804, [(64, 0x8)], .always, .locked, 0x0, 0xFFFFFFFF, 0x0, .value 0x0, "", false⟩,
  ⟨"NET_L_TXBUF", 0x131000, [(2, 0x1000), (64, 0x4)], .always, .plain, 0xFFFFFFFF, 0x0, 0x0, .value 0x0, "", false⟩,
  ⟨"NET_L_TXCMD", 0x131100, [(2, 0x1000)], .always, .ownRow, 0x0, 0x0, 0x0, .value 0x0, "", false⟩,
  ⟨"NET_L_TXSTAT", 0x131104, [(2, 0x1000)], .always, .result, 0x0, 0x0, 0x0, .value 0x0, "", false⟩]

/-- The rows of the block with index `b` (R7). -/
def blockRows (b : Nat) : List RegRow :=
  match b with
  | 0x00 => sysRows
  | 0x01 => tickRows
  | 0x02 => acqRows
  | 0x03 => posRows
  | 0x04 => lawRows
  | 0x05 => focRows
  | 0x06 => modRows
  | 0x07 => gdiRows
  | 0x08 => gdlRows
  | 0x09 => lvcRows
  | 0x0A => chgRows
  | 0x0B => actRows
  | 0x0C => laneRows
  | 0x0D => dmaRows
  | 0x0E => crcRows
  | 0x0F => timeRows
  | 0x10 => safeRows
  | 0x11 => imgRows
  | 0x12 => pwrRows
  | 0x13 => netRows
  | _ => []

end Sys2Proof.Machine
end

