-- ==== Sys2Proof/Machine/State.lean ====
section
/-! DEFINITION. The state of the block as plain data: the register file (every register of the map, kept as a list of the
registers that differ from their reset value), what no register shows block by block, the memory, and the queue of commands
that wait. -/

namespace Sys2Proof.Machine

/-- Two copies, one per lane. -/
structure Two (α : Type) where
  a : α
  b : α
  deriving DecidableEq, Repr, Inhabited

/-- The copy of a lane. -/
def Two.get {α : Type} (t : Two α) : Lane → α
  | .a => t.a
  | .b => t.b

/-- `t` with the copy of one lane replaced. -/
def Two.set {α : Type} (t : Two α) : Lane → α → Two α
  | .a, x => { t with a := x }
  | .b, x => { t with b := x }

/-- The types of slot, with the codes of R439. -/
inductive SlotType where
  | traction | chopper | pfc3 | dab | dcx | buckn | bldc | pump
  deriving DecidableEq, Repr, Inhabited

/-- The six operating modes (R23, R31), and nothing else: codes 6 and 7 are invalid. -/
inductive Mode where
  | sleep | standby | drive | charge | service | safeHold
  deriving DecidableEq, Repr, Inhabited

/-- The code of a mode in SYS_MODE_REQ and SYS_MODE_STAT. -/
def Mode.code : Mode → Nat
  | .sleep => 0
  | .standby => 1
  | .drive => 2
  | .charge => 3
  | .service => 4
  | .safeHold => 5

/-- The mode of a code; 6 and 7 name none. -/
def Mode.ofCode : Nat → Option Mode
  | 0 => some .sleep
  | 1 => some .standby
  | 2 => some .drive
  | 3 => some .charge
  | 4 => some .service
  | 5 => some .safeHold
  | _ => none

/-- An event as raised (R15, R16, R381): stamp, tick, code, class 0–4, ORIGIN, REPLAY, slot (0xFF for none) and the DATA
bytes before zero-filling. -/
structure Event where
  time : Nat
  tick : Nat
  code : Nat
  cls : Nat
  origin : Nat
  replay : Bool
  slot : Nat
  data : List Nat
  deriving DecidableEq, Repr, Inhabited

/-- What a bus access returned to its requester (R8, R9, R58). -/
inductive BusReply where
  | none
  | data (w : Word)
  | accessFault
  deriving DecidableEq, Repr, Inhabited

/-- A journal entry (R308): the header's fields and the payload; `start` is its first word in the 64 KiB ring. -/
structure JEntry where
  time : Nat
  accTick : Nat
  num : Nat
  kind : Nat
  src : Nat
  origin : Nat
  deferred : Bool
  merged : Bool
  addr : Nat
  value : Nat
  payload : List Nat
  start : Nat
  deriving DecidableEq, Repr, Inhabited

/-- The state a table is in and the evaluations spent there (R443). -/
structure TabState where
  state : Nat
  dwell : Nat
  deriving DecidableEq, Repr, Inhabited

/-- A leg record of a frame (R175); an edge of 0xFF_FFFF is none. -/
structure Leg where
  e1 : Nat
  e2 : Nat
  dt : Nat
  mode : Nat
  dir : Bool
  level0 : Bool
  deriving DecidableEq, Repr, Inhabited

/-- A modulation frame (R172); NLEG is the number of leg records. -/
structure Frame where
  seq : Nat
  slot : Nat
  patlen : Nat
  holdok : Bool
  start : Bool
  inj : Bool
  replay : Bool
  emfhi : Bool
  asc : Bool
  safe : Bool
  overrun : Bool
  hva : Int
  hvb : Int
  hdth : Int
  hudc : Int
  legs : List Leg
  deriving DecidableEq, Repr, Inhabited

/-! ### The running image, as loading decoded it (R437 to R442) -/

/-- A slot entry of the STRUCTURE folio (R439); `accs` are the slot's entries of the accumulator lists. -/
structure SlotEntry where
  slot : Nat
  type : SlotType
  slane : Lane
  rlog : Int
  pairs : Nat
  table : Option Nat
  legs : Nat
  possrc : Nat
  accs : List Nat
  deriving DecidableEq, Repr, Inhabited

/-- A curve (R441). -/
structure Curve where
  num : Nat
  pts : List (Int × Int)
  deriving DecidableEq, Repr, Inhabited

/-- A row of a state table (R442). -/
structure TableRow where
  source : Nat
  dest : Nat
  modes : Nat
  action : Nat
  mask : Nat
  value : Nat
  dwell : Nat
  deriving DecidableEq, Repr, Inhabited

/-- A state table (R442); `flags` holds SWITCHING of each state. -/
structure Table where
  num : Nat
  owner : Nat
  nstate : Nat
  init : Nat
  flags : List Bool
  rows : List TableRow
  deriving DecidableEq, Repr, Inhabited

/-- A slot's envelope (R318). -/
structure Envelope where
  slot : Nat
  dtmin : List Nat
  modes : Nat
  patlen : Nat
  vmax : Int
  hdthmax : Int
  dhdth : Int
  nleg : Nat
  deriving DecidableEq, Repr, Inhabited

/-- A firmware segment (R439): target 0 to 3, offset within it, and the bytes. -/
structure Segment where
  target : Nat
  offset : Nat
  data : List Nat
  deriving DecidableEq, Repr, Inhabited

/-- What the loaded image gives the device besides register values (R437). -/
structure Image where
  /-- An image is loaded (R455); false before the first load and in the recovery state. -/
  loaded : Bool
  arrinit : Nat
  arrok : Nat
  /-- The motors that the load lists configure (R136). -/
  motors : List Nat
  slots : List SlotEntry
  curves : List Curve
  tables : List Table
  envelopes : List Envelope
  /-- Aeddy seeds, by connection (R419). -/
  seeds : List (Nat × Nat)
  /-- SESSTMO of the SAFETY folio, in seconds (R425, R440). -/
  sesstmo : Nat
  bgentry : Nat
  codecrc : Nat
  /-- SECVER, needed to load with no change of register (R446 rule 5). -/
  secver : Nat
  deriving DecidableEq, Repr, Inhabited

/-! ### SYS and PWR: the mode manager (R25, R31 to R34, R472 to R476) -/

/-- What the mode registers do not show. -/
structure SysState where
  /-- The OWNER 0 table's dwell in the current mode (R443). -/
  dwell : Nat
  /-- A request held while a transition is in progress (R25). -/
  held : Option Nat
  /-- Ticks the pending request has waited (R473). -/
  waited : Nat
  /-- Code of an F4 event that demands SAFE_HOLD at the next boundary (R25). -/
  f4 : Option Nat
  /-- The SAFE_HOLD in force was entered, or turned, by an F4 event (R475). -/
  holdByF4 : Bool
  /-- Mode changed at the boundary just taken (R384). -/
  changed : Bool
  deriving DecidableEq, Repr, Inhabited

/-! ### The control tick (R38 to R70) -/

/-- The part of a lane processor that tick entry saves and restores (R52, R53). -/
structure Cpu where
  pc : Nat
  mstatus : Nat
  mepc : Nat
  mcause : Nat
  mtval : Nat
  /-- Machine mode. -/
  machine : Bool
  deriving DecidableEq, Repr, Inhabited

/-- Per-lane tick state beside the TICK registers. -/
structure TickLane where
  cpu : Cpu
  /-- Privilege saved at tick entry, restored with the saved context (R53). -/
  savedMachine : Bool
  /-- Shadow writes of the tick (R55): register offset and value, oldest first. -/
  shadow : List (Nat × Word)
  /-- Cycle at which DONE was written in this tick (R66). -/
  doneAt : Option Nat
  /-- TASKDL passed without DONE in this tick (R56). -/
  taskOverrun : Bool
  /-- Cycle at which the last frame of this tick left Emit. -/
  lastEmit : Nat
  /-- Slots whose frame has left Emit in this tick. -/
  emitted : List Nat
  /-- Slots found in tick overrun in this tick (R49). -/
  overran : List Nat
  /-- The margin warning is armed (R48). -/
  warnArmed : Bool
  deriving DecidableEq, Repr, Inhabited

/-- The tick generator and Bedrock's view of it. -/
structure TickState where
  /-- The tick runs (R40). -/
  running : Bool
  /-- Boundaries so far since the tick began. -/
  begun : Bool
  lanes : Two TickLane
  deriving DecidableEq, Repr, Inhabited

/-! ### Time, Catalogue and capture (R376 to R386) -/

/-- A line of the fault capture (R384). -/
structure CapLine where
  t0 : Nat
  seq : Nat
  flags : Nat
  evcnt : Nat
  ch : List Word
  deriving DecidableEq, Repr, Inhabited

structure TimeState where
  /-- T, in 0.5 ns units, and the 32-bit fraction f (R376), both at cycle `cyc` of the tick. -/
  t : Nat
  f : Nat
  cyc : Nat
  /-- The pending slew in 1/64 unit (R377). -/
  slew : Int
  /-- Events raised and not yet delivered to the Collator (R380). -/
  raised : List Event
  /-- Events the Collator holds (R380). -/
  collator : List Event
  /-- The writer's queue for port 4, oldest first, with SEQ (R382). -/
  queue : List (Event × Nat)
  /-- SEQ of the next record (R381). -/
  nextSeq : Nat
  /-- A run of discards is under way (R382). -/
  discarding : Bool
  /-- The flash queue, at most 64 records (R383). -/
  flashQueue : List (Event × Nat)
  /-- The flash Catalogue: sector and record slot at which the next record goes (R383). -/
  flashSector : Nat
  flashSlot : Nat
  /-- Number of the sector being filled; 0 before any. -/
  flashSectorNum : Nat
  /-- Fault capture: the lines in the store, oldest first (at most 1024). -/
  lines : List CapLine
  /-- ARM acts at the next boundary (R385). -/
  armPending : Bool
  /-- Lines still to be written, the trigger line included while it is not placed; meaningful in the post-trigger state. -/
  postLeft : Nat
  /-- The trigger event with its Catalogue number once released, and whether its line stands in the store. -/
  trigger : Option Event
  trigSeq : Nat
  trigPlaced : Bool
  /-- Stamp of the boundary from which the capture is armed. -/
  armedSince : Nat
  /-- Which of the two flash slots takes the next copy (R386). -/
  nextCopySlot : Nat
  /-- Events stamped in the tick so far (R384). -/
  evcnt : Nat
  deriving DecidableEq, Repr, Inhabited

/-! ### Networks (R387 to R396) -/

/-- A queued message or frame: flow, payload bytes, lane or background, order. -/
structure TxMsg where
  flow : Nat
  data : List Nat
  tick : Nat
  order : Nat
  deriving DecidableEq, Repr, Inhabited

structure NetPort where
  /-- Messages waiting to be sent, at most 32 (R390). -/
  queue : List TxMsg
  /-- Transmit stamps, oldest first, at most 16: flow, message count of the flow, stamp (R390). -/
  txts : List (Nat × Nat × Nat)
  deriving DecidableEq, Repr, Inhabited

/-- A message of the outgoing-message Sieve held for its second copy (R317). -/
structure HeldMsg where
  msg : TxMsg
  lane : Lane
  /-- The copy has already been sent (FIRST). -/
  sent : Bool
  deriving DecidableEq, Repr, Inhabited

structure NetState where
  ports : List NetPort
  /-- Copies on their way from a lane to the Sieve, oldest first (R317). -/
  copies : List (Lane × TxMsg)
  /-- Messages sent on each flow so far, modulo 65,536 (R394). -/
  flowCount : List Nat
  /-- Copies waiting for the other lane's (R317). -/
  held : List HeldMsg
  /-- Frames handed to the safety processor: flow and payload (R388). -/
  safetyInbox : List (Nat × List Nat)
  deriving DecidableEq, Repr, Inhabited

/-! ### Lanes, the Sieve and Bedrock (R299 to R345) -/

/-- Where a lane stands in recovery (R322); `none` while it is not recovering. -/
inductive RecStep where
  | none | reset | check | waitCkpt | replay | shadow
  deriving DecidableEq, Repr, Inhabited

/-- A disagreement of the tick (R321): what the two lanes disagreed about. -/
inductive Dispute where
  | writes | entry | frame (slot : Nat) | checkpoint | message
  deriving DecidableEq, Repr, Inhabited

structure SieveSlot where
  /-- The accepted frame of the tick, with the lane that sent it (R315), and the cycle of its arrival. -/
  accepted : Option (Frame × Lane)
  acceptedAt : Nat
  /-- The other lane's valid frame. -/
  second : Option (Frame × Lane)
  /-- Whether the accepted and the second frame failed the envelope (R318). -/
  acceptedBad : Bool
  secondBad : Bool
  /-- The frame of a lane in SHADOW, compared only (R322). -/
  shadow : Option Frame
  /-- Bedrock's own frame for the next boundary, in place of an accepted one (R294, R319). -/
  sub : Option Frame
  /-- The last accepted frames loaded, newest first: as many as one carrier period spans (R326). -/
  last : List Frame
  /-- The frame in execution at the gates (R193); `none` holds the slot off. -/
  exec : Option Frame
  /-- Held by the ride-through hold, and held boundaries so far (R326). -/
  held : Bool
  heldCount : Nat
  /-- Bedrock keeps the slot in its safe state: for the rest of a hold (R328), and until device reset (R336). -/
  limited : Bool
  forcedSafe : Bool
  deriving DecidableEq, Repr, Inhabited

/-- A lane's restart under the ride-through hold (R325 to R335). -/
structure Restart where
  /-- The disputed tick m. -/
  m : Nat
  /-- Both lanes restart together. -/
  both : Bool
  /-- Planned, for split to paired (R339). -/
  planned : Bool
  /-- The restore is done (R329). -/
  restored : Bool
  replayed : Nat
  /-- Resync ticks taken (R332), and whether further ones may follow. -/
  resync : Nat
  more : Bool
  skip : Nat
  deriving DecidableEq, Repr, Inhabited

structure LaneBlock where
  /-- Entries waiting for their accession tick, in journal order (R305). -/
  waiting : List JEntry
  /-- The disagreements of the tick (R321), and entries on which the two units differ (R304): lane A's and lane B's. -/
  disputes : List Dispute
  disputed : List (JEntry × JEntry)
  slots : List SieveSlot
  /-- The cutoff of the tick has been taken (R314). -/
  cut : Bool
  /-- A restart of both lanes that begins at the next boundary, with its cause (R325). -/
  pendRestart : Option Nat
  /-- An arrangement hand-over in progress: the new arrangement and its accession tick (R339). -/
  handover : Option (Nat × Nat)
  /-- Frames on their way from Emit to the Sieve. -/
  inFlight : List (Lane × Frame)
  deriving DecidableEq, Repr, Inhabited

/-! ### PWR (R464 to R493) -/

/-- A temperature sensor (R486 to R490). -/
structure TempSensor where
  brokenRun : Nat
  validRun : Nat
  tripRun : Nat
  /-- The faster rate of R488, with the measurements spent away from the limits. -/
  fast : Bool
  awayRun : Nat
  deriving DecidableEq, Repr, Inhabited

/-- A start waiting in the start-credit scheduler (R480, R481). -/
structure StartWait where
  drive : Nat
  /-- The boundary at which it was requested. -/
  since : Nat
  told : Bool
  deriving DecidableEq, Repr, Inhabited

/-- Where the power sequencer stands (R465, R466, R477): rails down, up, or falling; waiting for the next try, given up; in SLEEP. -/
inductive PowerPhase where
  | off | up | falling | waiting | gaveUp | asleep
  deriving DecidableEq, Repr, Inhabited

structure PwrState where
  phase : PowerPhase
  tries : Nat
  /-- VIN_AUX is good (R464). -/
  vinOk : Bool
  /-- CAUSE of the device reset that is due (R468), and its rail. -/
  due : Option Nat
  rail : Nat
  /-- Boot has completed (R471). -/
  booted : Bool
  /-- Crystal loss in force (R470). -/
  crystalLost : Bool
  /-- Bedrock's own self-test and supply monitor pass (R483). -/
  bedrockOk : Bool
  /-- ASCBOOT as the wake logic holds it (R484), and whether it pulls ASC_REQ_N now. -/
  ascBoot : Bool
  ascPull : Bool
  /-- ASC_REQ_N is pulled low. -/
  ascReq : Bool
  /-- Wake sources latched since SLEEP took effect (R479). -/
  wakeLatch : Nat
  /-- The wake has been decided by a first source (R478). -/
  waking : Bool
  sensors : List TempSensor
  /-- Credits, in 2^-8 (R481). -/
  balance : Int
  starts : List StartWait
  /-- Drives granted at this boundary. -/
  granted : List Nat
  /-- Supply drift: readings outside and inside in a row, and the arm, per rail (R467). -/
  driftOut : List Nat
  driftIn : List Nat
  driftTold : List Bool
  /-- A factor of the slot has fallen below 1.0 and been told (R489). -/
  throttled : List Bool
  deriving DecidableEq, Repr, Inhabited

/-! ### ACQ (R71 to R93) -/

/-- The open window of an accumulator (R81 to R83). -/
structure AccWindow where
  sum : Int
  count : Nat
  last : Int
  failconv : Bool
  deriving DecidableEq, Repr, Inhabited

/-- A tracker's window, open or frozen (R85). -/
structure TrkWindow where
  min : Int
  max : Int
  mincyc : Nat
  maxcyc : Nat
  hi : Bool
  lo : Bool
  count : Nat
  deriving DecidableEq, Repr, Inhabited

/-- A tracker window without a sample (R85). -/
def TrkWindow.empty : TrkWindow := ⟨0x7FFFFFFF, -0x80000000, 0, 0, false, false, 0⟩

/-- A frozen accumulator result (R81, R83). -/
structure AccResult where
  value : Int
  stale : Bool
  sat : Bool
  failconv : Bool
  count : Nat
  deriving DecidableEq, Repr, Inhabited

/-- A set of the result shelf (R84). -/
structure AcqSet where
  tag : Nat
  acc : List AccResult
  trk : List TrkWindow
  trunc : Nat
  susp : Nat
  deriving DecidableEq, Repr, Inhabited

/-- A sequence's run (R74 to R77): the entries of the group under way that have not completed, and the first entry after it. -/
structure SeqRun where
  active : Bool
  /-- The group under way has started. -/
  started : Bool
  gStart : Nat
  gEnd : Nat
  left : List Nat
  /-- Sample instant of the group under way, in cycles of the current tick; negative when it lay in the tick before. -/
  sampleAt : Int
  deriving DecidableEq, Repr, Inhabited

/-- An urgent request (R79, R80). -/
structure UrgentReq where
  input : Nat
  acqt : Nat
  acc : Option Nat
  probe : Bool
  deriving DecidableEq, Repr, Inhabited

/-- What a converter is doing. -/
inductive ConvUse where
  | free
  | seq (q e : Nat) (sampleAt : Int)
  | urgent (r : UrgentReq) (sampleAt : Int)
  deriving DecidableEq, Repr, Inhabited

structure Converter where
  use : ConvUse
  /-- Urgent requests waiting, in the order of service, at most four (R80). -/
  queue : List UrgentReq
  /-- Out-of-window readings in a row, of the check reference and of ground (R86). -/
  refRun : Nat
  gndRun : Nat
  /-- Tick at which the converter was marked failed (R86). -/
  failedAt : Nat
  deriving DecidableEq, Repr, Inhabited

structure AcqState where
  convs : List Converter
  runs : List SeqRun
  acc : List AccWindow
  trk : List TrkWindow
  /-- The result shelf, newest first, at most 32 sets (R84). -/
  shelf : List AcqSet
  trunc : Nat
  susp : Nat
  /-- Slots of each calibration request taken, the one that runs first, and the inputs it still has to measure (R87). -/
  calQueue : List Nat
  calLeft : List Nat
  /-- New offsets waiting for the boundary, and whether one was refused, with the slots that failed. -/
  calNew : List (Nat × Int)
  calFailed : Nat
  /-- Slots whose calibration waits for the next entry to STANDBY (R88). -/
  calDeferred : Nat
  /-- The first entry to STANDBY after boot has calibrated every CAL input. -/
  calFirstDone : Bool
  /-- Last die temperature of each converter, once read (R90, ACQ_SUP[7]). -/
  dieTemp : List (Option Int)
  /-- Firmware's urgent requests, for cycle 1 of the tick (R79). -/
  firmware : List UrgentReq
  deriving DecidableEq, Repr, Inhabited

/-! ### POS (R93 to R112) -/

/-- Standstill detection (R102): the positions of the last latches, newest first, and where standstill was declared. -/
structure Standstill where
  hist : List Int
  declared : Option Int
  deriving DecidableEq, Repr, Inhabited

/-- What one channel latched (R94): the registers ANG, SPD, CNT and FLT. -/
structure ChanSample where
  ang : Nat
  spd : Int
  cnt : Int
  flt : Nat
  deriving DecidableEq, Repr, Inhabited

/-- A channel's excitation output (R95, R109): high impedance until boot ends, then running for a resolver; stopped in SLEEP. -/
inductive Excitation where
  | highZ | running | stopped
  deriving DecidableEq, Repr, Inhabited

/-- A position channel (R93 to R104). -/
structure PosChannel where
  excitation : Excitation
  /-- Resolver: tracked sensor angle (2^32 to the turn), loop velocity (2^−32 turn per update), and the cycle of the update, counted
  from the present boundary. -/
  theta : Nat
  vel : Int
  thetaCyc : Int
  /-- Loop velocities of the updates of the window (R95). -/
  velSum : Int
  velCount : Nat
  losRun : Nat
  lotRun : Nat
  /-- Encoder (R96, R97). -/
  r : Int
  c : Int
  dirFwd : Bool
  held : Bool
  levelA : Bool
  levelB : Bool
  zFirst : Option Int
  /-- The cycle of a Z edge that is not yet compared: the counts of its own cycle come first (R97). -/
  zDue : Option Nat
  /-- Last count of the current window, and of the most recent earlier window that had one: C and stamp (R101). -/
  winCount : Option (Int × Nat)
  pastCount : Option (Int × Nat)
  /-- SENT and SSI: the last two good frames, newest first: sensor angle and stamp (R98, R99). -/
  frames : List (Nat × Nat)
  /-- SENT: the last calibration pulse in ns, and bits 2 and 3 of the status nibbles of the error-free frames in a row, newest
  first (R98). -/
  cal : Nat
  serial : List (Bool × Bool)
  /-- SSI: a read is under way; outside one the clock output is high (R99, R109). -/
  reading : Bool
  crcRun : Nat
  timRun : Nat
  stuckRun : Nat
  lastGood : Nat
  /-- The excitation is faulty; the last frame's status nibble had an error bit set. -/
  excBad : Bool
  statusBad : Bool
  /-- Flags of R103 set since the last latch. -/
  flags : Nat
  /-- The latch of this tick has come, and its stamp. -/
  latchDone : Bool
  latchAt : Nat
  /-- Flag-free ticks in a row, and whether the channel has ever been healthy (R104). -/
  clean : Nat
  everHealthy : Bool
  healthy : Bool
  still : Standstill
  /-- Electrical angle at the latch of the previous tick (R103 JUMP). -/
  prevAng : Option Nat
  /-- Speed in use, also for extrapolation. -/
  spd : Int
  /-- The sample latched in this tick (R94), and the last frozen one. -/
  latched : ChanSample
  deriving DecidableEq, Repr, Inhabited

structure HallTriplet where
  pins : Nat
  sector : Nat
  /-- Last valid sector, from which the next edge is judged. -/
  lastSector : Nat
  fwd : Bool
  skip : Bool
  inv : Bool
  /-- Stamps of the edges since the last reversal or standstill, newest first, at most 7 (R100). -/
  stamps : List Nat
  /-- Edges in the window and edges counted with their sign. -/
  edges : Nat
  pos : Int
  still : Standstill
  /-- ST and SPD as latched in this tick. -/
  st : Nat
  spd : Int
  latchDone : Bool
  deriving DecidableEq, Repr, Inhabited

/-- A position set of the shelf (R94). -/
structure PosSet where
  tag : Nat
  chans : List ChanSample
  halls : List (Nat × Int)
  deriving DecidableEq, Repr, Inhabited

structure PosState where
  chans : List PosChannel
  halls : List HallTriplet
  /-- Latches of each probe awaiting accession (R107). -/
  prbWaiting : List Nat
  /-- The position shelf, newest first, at most 32 sets. -/
  shelf : List PosSet
  deriving DecidableEq, Repr, Inhabited

/-! ### LAW (R113 to R135), per lane -/

/-- A record that a producing port holds for a ring (R361): lane, ring, port and the bytes. -/
structure Offer where
  lane : Lane
  ring : Nat
  port : Nat
  bytes : List Nat
  deriving DecidableEq, Repr, Inhabited

structure LawSlot where
  /-- The signal file S0 to S63 (R113). -/
  sig : List Int
  /-- s1 and s2 of the cascade's sections, in order (R115). -/
  states : List (Int × Int)
  /-- The signals and the states with which the tick's Law stage began (R50). -/
  before : List Int × List (Int × Int)
  /-- Checkpoints that must still complete before the seal lifts (R124); 2 while a swap waits. -/
  sealLeft : Nat
  /-- What the seal returns to when a requested swap's shadow is discarded (R124). -/
  sealBefore : Nat
  /-- A swap that a tick task asked for waits for the next boundary (R123). -/
  fwSwap : Bool
  /-- A swap was requested in this tick, whether or not the shadow still holds it: its seal is set (R124). -/
  asked : Bool
  /-- A detector swap waits for the next boundary (R129). -/
  detSwap : Bool
  /-- The detector (R128). -/
  mean : Int
  sgn : Int
  peak : Int
  swings : Nat
  win : Nat
  /-- Tick of the last detector swap (R129). -/
  swapTick : Option Nat
  /-- An oscillation was detected in the last tick (R127). -/
  detected : Bool
  deriving DecidableEq, Repr, Inhabited

/-- The injector (R125, R126); its state, target and cause stand in LAW_INJ_STAT, its ticks in LAW_INJ_TICKS. -/
structure Injector where
  /-- Phase at the current boundary, 2^48 to the turn, and FREQ. -/
  phi : Nat
  freq : Nat
  shift : Nat
  /-- FREQ and the shift register of the tick before, for a sample instant that lay in it (R81). -/
  freqBefore : Nat
  shiftBefore : Nat
  chip : Nat
  /-- Ticks of ramp-out left. -/
  rampLeft : Nat
  amp : Int
  deriving DecidableEq, Repr, Inhabited

structure LawLane where
  slots : List LawSlot
  /-- Law memory (R117, R118, R122): a coefficient word at bank × 2^16 + 8 × section + word, a topology word at 2^17 + section;
  zero words are not listed. -/
  words : List (Nat × Word)
  inj : Injector
  /-- Capture: ticks since the last record, and a run of drops under way (R127). -/
  capSkip : Nat
  capDropping : Bool
  deriving DecidableEq, Repr, Inhabited

/-! ### FOC (R136 to R161), per lane and motor -/

/-- Where a motor stands after a loss of the rotor (R151 to R155). -/
inductive LossPhase where
  | none
  /-- Extrapolating (R153). -/
  | extrapolating
  /-- Re-acquisition failed, or contrast lost (R154, R157). -/
  | failed
  /-- On the sensor after a loss (R152). -/
  | onSensor
  deriving DecidableEq, Repr, Inhabited

structure FocMotor where
  /-- The observer and the injection estimator (R146, R148). -/
  pa : Int
  pb : Int
  tho : Nat
  wo : Int
  thh : Nat
  wh : Int
  rdp : Int
  rqp : Int
  /-- Speed in use in the previous tick, and the torque demand of the previous tick. -/
  wp : Int
  tprev : Int
  /-- Induction motors (R144). -/
  psir : Int
  thsl : Nat
  /-- Volt-seconds of the frame that governed the previous tick. -/
  val : Int
  vbe : Int
  /-- The loss state (R151 to R156). -/
  phase : LossPhase
  lossCount : Nat
  k : Nat
  thL : Nat
  wL : Int
  tL : Int
  lcap : Int
  /-- Angle and speed of the last tick whose residual was within the limit. -/
  thGood : Nat
  wGood : Int
  /-- Stamp of the last loss restart, and whether a flying start is requested (R155). -/
  lastRestart : Option Nat
  restartReq : Bool
  i0Count : Nat
  reacq : Nat
  emfhi : Bool
  divCount : Nat
  div : Bool
  /-- Polarity detection (R147): step 0 none, 1 to 4, 5 the decision is due; ticks in the step, sums of the last 8 |dd|, tries. -/
  polStep : Nat
  polTick : Nat
  polPos : Int
  polNeg : Int
  polTries : Nat
  polOk : Bool
  hcCount : Nat
  /-- KTH has fallen below 1.0 and been told (R142). -/
  derated : Bool
  /-- Short circuit after a loss (R154, R155): held, ticks with a low current, and released although EMFHI is set. -/
  ascHeld : Bool
  scLow : Nat
  ascReleased : Bool
  /-- SRC 2 is on its sensor (R150). -/
  onSensor : Bool
  /-- Of the tick executed: θm, θc, speed, blend weight, injection amplitude, residual, contrast, |dd|, filtered currents of the
  injection, and ANGSRC. -/
  thm : Nat
  thc : Nat
  omega : Int
  w : Int
  amp : Int
  r : Int
  hc : Int
  dd : Int
  fd : Int
  fq : Int
  angsrc : Nat
  /-- The re-acquisition test is met in this tick (R153). -/
  reacqNow : Bool
  deriving DecidableEq, Repr, Inhabited

/-! ### MOD (R162 to R189), per lane and slot -/

/-- A volt-second record (R171). -/
structure VoltSec where
  val : Int
  vbe : Int
  deriving DecidableEq, Repr, Inhabited

structure ModSlot where
  /-- Debt of each leg, in 1/32 cycle (R168). -/
  debts : List Int
  /-- On-times of the half that is running, in 1/32 cycle, for r < 1 (R163). -/
  halfOn : List Int
  /-- The ramp output g (R176). -/
  g : Int
  /-- Sensing (R179). -/
  n : Nat
  phi : Int
  phiprev : Int
  emagMin : Int
  /-- First tick that forms a vector, and whether the decision has been repeated once (R179, R180). -/
  senseFrom : Nat
  repeated : Bool
  /-- Sensing is complete, or forced by diode conduction (R179): the decision is due. -/
  decide : Bool
  forced : Bool
  /-- The last back-EMF vector (R179). -/
  ea : Int
  eb : Int
  /-- Angle differences of continuous sensing, newest first, at most 16 (R185). -/
  diffs : List Int
  /-- The speed of continuous sensing. -/
  contW : Int
  /-- STOPT of the stop under way, and ticks its condition has held (R183). -/
  stopt : Nat
  stopRun : Nat
  /-- The two latest volt-second records, newest first (R171). -/
  volts : List VoltSec
  /-- Kind of the safe-state command last emitted: 1 freewheel, 2 LOWON, 3 HIGHON (R185). -/
  safeKind : Nat
  /-- Dead-time band (R166) and throttle factor (R142) in force. -/
  band : Nat
  throttle : Nat
  /-- A run of halves with drops is under way (R169). -/
  dropping : Bool
  /-- CATCH has been decided with this speed and angle, for the next boundary (R181). -/
  catching : Option (Int × Nat)
  /-- A START waits until active short circuit is released (R178). -/
  startHeld : Bool
  /-- The slot was permitted to switch at the last boundary (R184). -/
  permitted : Bool
  /-- The frame that the pipeline has finished and Emit has not sent. -/
  frame : Option Frame
  deriving DecidableEq, Repr, Inhabited

/-! ### GDI and GDL (R190 to R223) -/

/-- A command on its way to a leg's two switches, at an instant in 1/32 cycle from the boundary of the running tick (R193). -/
structure GateEdge where
  at_ : Int
  h : Bool
  l : Bool
  deriving DecidableEq, Repr, Inhabited

/-- What a record commands of the high and the low switch: as last executed, the instants of the last turn-on of each, and the
commands that follow (R193, R194). -/
structure Gates where
  h : Bool
  l : Bool
  onH : Option Int
  onL : Option Int
  edges : List GateEdge
  deriving DecidableEq, Repr, Inhabited

/-- An isolated pair (R190): the commands of its pattern, its latches and what holds it off. -/
structure GatePair where
  /-- MODE executed, after R195 and R202. -/
  mode : Nat
  out : Gates
  latchH : Bool
  latchL : Bool
  /-- FLT code of the latch (R219). -/
  code : Nat
  /-- Stamps at which a soft turn-off of the channel began (R200). -/
  softH : Option Nat
  softL : Option Nat
  /-- A rail outside its window (R217). -/
  uvH : Bool
  uvL : Bool
  /-- Off until the next frame loads (R217). -/
  waitH : Bool
  waitL : Bool
  /-- Stamps of the faults latched in the last 60 s (R203). -/
  times : List Nat
  /-- Measured edges in a row at SMAX beyond the tolerance, and whether 0x1C07 was raised: high on, high off, low on, low off. -/
  sat : List Nat
  satTold : List Bool
  /-- Blocked by a failed diagnostic (R216), and a diagnostic running. -/
  blocked : Bool
  running : Bool
  deriving DecidableEq, Repr, Inhabited

/-- What a leg does in a row of hall commutation (R212). -/
inductive CommRole where
  | off | pulse | ret
  deriving DecidableEq, Repr, Inhabited

/-- A low-voltage leg (R191). -/
structure GateLeg where
  mode : Nat
  /-- Dead time of the record in execution, in cycles. -/
  dt : Nat
  out : Gates
  /-- Phase under COMM, and the instant up to which a commutation keeps the leg's incoming switch off (R213). -/
  role : CommRole
  onFrom : Int
  /-- FLT code of the latch (R221). -/
  code : Nat
  /-- Low-side on-time in 1/32 cycle: of the running tick up to instant `seen`, and of the ticks before, the latest first (R208). -/
  seen : Int
  lowNow : Int
  low : List Int
  /-- Start of the refresh pulse inserted last, and one that was cut and is due again (R208, R210). -/
  refreshAt : Option Int
  refreshDue : Bool
  latch : Bool
  /-- Off until a frame with FLAGS.SAFE loads (R209, R211). -/
  wait : Bool
  /-- A pump fault is in force (R207). -/
  pumpBad : Bool
  /-- Refresh pulses of the tick (R221). -/
  refr : Nat
  blocked : Bool
  running : Bool
  deriving DecidableEq, Repr, Inhabited

/-- A reported short-circuit detection that GDI has not classified (R200, R201). -/
structure Detection where
  slot : Nat
  pair : Nat
  ch : Nat
  hard : Bool
  at_ : Nat
  /-- The instant in pipeline cycles of its tick (R200). -/
  cyc : Nat
  deriving DecidableEq, Repr, Inhabited

structure GateState where
  pairs : List GatePair
  legs : List GateLeg
  /-- Slots held off after a detection until a SAFE frame loads, slots with a leg-to-leg fault, and slots whose short circuit
  was moved to the other side and told (R202); one bit per slot. -/
  held : Nat
  l2l : Nat
  moved : Nat
  detections : List Detection
  /-- Slots that Bedrock and the safety processor enable (R19), and the slots whose outputs are enabled (R218). -/
  enB : Nat
  enS : Nat
  enabled : Nat
  /-- Slots of which the safety processor holds the high and the low switches off under STO (R411). -/
  stoH : Nat
  stoL : Nat
  /-- Slots whose enable R205 has withdrawn, and HARD crossed since the last boundary (R273). -/
  hardOff : Nat
  hardSeen : Bool
  /-- The chopper switch is held on by the clamp (R204). -/
  clamped : Bool
  /-- Stamp since which the link has been below VOFF (R205). -/
  voffAt : Option Nat
  /-- Comparators below their levels, per pair, and supplies above 9.0 V for 1 ms, per leg, as last read for a clear (R203, R209). -/
  quiet : Nat
  good : Nat
  /-- The low-voltage drive supply is low (R217). -/
  lvLow : Bool
  /-- DIR in force of the drives' COMM patterns (R212). -/
  dir : List Bool
  /-- Diagnostics that wait for the next entry to STANDBY, of pairs and of legs; the first entry has come (R215). -/
  deferG : Nat
  deferL : Nat
  diagFirst : Bool
  deriving DecidableEq, Repr, Inhabited

/-! ### LVC (R224 to R249) -/

/-- An LVC set (R228): the state, the sharing mask, the weights in eighths and the signals S0 to S15. -/
structure LvcSet where
  tag : Nat
  state : Nat
  mask : Nat
  weights : List Nat
  sig : List Int
  deriving DecidableEq, Repr, Inhabited

structure LvcState where
  /-- State of R230. -/
  state : Nat
  mask : Nat
  /-- Weights of the phases in eighths (R238). -/
  weights : List Nat
  /-- Phases blocked by a fast trip and by a failed test (R235, R242); tests running and waiting for STANDBY. -/
  trip : Nat
  diagBad : Nat
  diagRun : Nat
  diagDefer : Nat
  diagFirst : Bool
  /-- The phase in ramp-out, 7 for none, and j (R238). -/
  rampPh : Nat
  rampJ : Nat
  retry : Nat
  slow : Bool
  /-- Reference of R232. -/
  r : Int
  /-- S2 of the last M ticks, newest first (R234), and the mean. -/
  recent : List Int
  s14 : Int
  /-- Feedback, intermediate bus, phase currents, link and sense of the last boundary: Q2.29, and millivolts for the sense. -/
  s1 : Int
  s3 : Int
  iph : List Int
  s2 : Int
  s2prev : Int
  udc : Int
  sense : Int
  /-- Ticks in the state, and runs of ticks: short, good output, implausible, bus outside its window, low current, low load. -/
  ticks : Nat
  shortRun : Nat
  goodRun : Nat
  plausRun : Nat
  windowRun : Nat
  dwell : Nat
  burstRun : Nat
  /-- Fast trips in the tick (R235). -/
  trips : Nat
  /-- An F3 cause of a slot takes effect at this boundary (R224), and LATCHED by an over-voltage, which holds legs 0 to 5 off
  (R241). -/
  caused : Bool
  ovOff : Bool
  /-- The shelf, newest first, at most 32 sets. -/
  shelf : List LvcSet
  /-- Fault records that wait, without SEQ and CRC (R243), and where the next one goes (R245). -/
  queue : List (List Nat)
  nextSeq : Nat
  sector : Nat
  slot : Nat
  deriving DecidableEq, Repr, Inhabited

/-! ### CHG (R250 to R279) -/

/-- A command of R269 to the injector, frozen at one boundary and acting at the next. -/
inductive ZCommand where
  | none | start | stop
  deriving DecidableEq, Repr, Inhabited

/-- A CHG set (R252). -/
structure ChgSet where
  tag : Nat
  state : Nat
  half : Bool
  /-- Signals S0 to S15 of the PFC3 and of the DAB slot, S6, S7 and S8 of the former left to Transform. -/
  pfc : List Int
  dab : List Int
  thg : Nat
  iac : Int
  /-- The injector command of R269, with its FREQ. -/
  zc : ZCommand
  zfreq : Nat
  /-- Pulse counters (R266), the timer with THALF (R271), and the impedance point with its ticks and sums (R270). -/
  pulse : Nat × Nat × Nat
  timer : Nat × Nat
  zRun : Option (Nat × Nat)
  sums : List Int
  deriving DecidableEq, Repr, Inhabited

structure ChgState where
  /-- State of R261 and TERM. -/
  state : Nat
  term : Nat
  /-- Ticks in the state. -/
  ticks : Nat
  /-- Pilot: the state taken, coded as CHG_STAT.CP, the candidate and its run, PWM present, and the duty in 0.1 %. -/
  cp : Nat
  cpNext : Nat
  cpRun : Nat
  pwm : Bool
  duty : Nat
  /-- Proximity: the reading taken, coded as CHG_STAT.PP, the candidate and its run (R259). -/
  pp : Nat
  ppNext : Nat
  ppRun : Nat
  /-- BMS_PERMIT closed; seen open since TERM 3; PERMSEEN (R262). -/
  permit : Bool
  permOpened : Bool
  permSeen : Bool
  /-- Grid (R255, R256). -/
  thg : Nat
  wg : Int
  vm : Int
  lock : Bool
  lockRun : Nat
  unlockRun : Nat
  vgRun : Nat
  lostRun : Nat
  freqRun : Nat
  /-- Bus start (R263). -/
  s9 : Int
  busRun : Nat
  /-- S6, and its value at the entry to STOPPING (R264). -/
  s6 : Int
  s6Entry : Int
  /-- Pulse lengths in force, in ticks; 0 for no REST (R266). -/
  onLen : Nat
  restLen : Nat
  /-- The charge has had its first ON; 0x280B has been raised in this charge. -/
  firstOn : Bool
  halfTold : Bool
  /-- Safety timer (R271): C, expired, and ticks with HALF. -/
  c : Nat
  expired : Bool
  thalf : Nat
  /-- The limit in force (R265), of the last evaluation. -/
  iac : Int
  avail : Int
  ilim : Int
  imach : Int
  udc : Int
  ucb : Int
  ibat : Int
  vbat : Int
  half : Bool
  therm : Bool
  prio : Bool
  input : Bool
  vrest : Int
  /-- Impedance (R268 to R270): next point, ticks of the point that runs, the sweep has ended, command, sums, VALID, SWEEPS. -/
  zNext : Nat
  zRun : Option Nat
  zDone : Bool
  /-- No point starts before the next REST (R268, R269); ZRST has been accessioned. -/
  zHold : Bool
  zRst : Bool
  zCommand : ZCommand
  svi : Int
  svq : Int
  sii : Int
  siq : Int
  valid : Nat
  sweeps : Nat
  /-- START and STOP accessioned for this boundary; an F3 cause for either slot has taken effect (R274). -/
  startReq : Bool
  stopReq : Bool
  f3 : Bool
  shelf : List ChgSet
  deriving DecidableEq, Repr, Inhabited

/-! ### ACT (R280 to R298) -/

/-- What a drive's table last commanded (R286). -/
inductive ActMove where
  | none
  | move (pos : Nat)
  | hold
  | release
  | seekLo
  | seekHi
  | fault
  deriving DecidableEq, Repr, Inhabited

/-- One drive (R280 to R294). -/
structure ActDrive where
  posn : Int
  ref : Bool
  /-- ENDLO, ENDHI and STALL, until the next action. -/
  endlo : Bool
  endhi : Bool
  stall : Bool
  hallFlt : Bool
  /-- An action has been taken since HALLFLT cleared. -/
  sinceFlt : Bool
  tab : TabState
  move : ActMove
  /-- Target of the last MOVE, in edges (R285 ATTGT). -/
  target : Option Int
  /-- Ticks since the last action. -/
  since : Nat
  /-- Profile position and speed in 2^-8 edges, and whether the profile waits: for the park-lock permit or for credits. -/
  prof : Int
  profV : Int
  waiting : Bool
  /-- The action switches once its start is granted (R288, R480). -/
  granted : Bool
  /-- ATTGT has been set since the action was taken (R288). -/
  reached : Bool
  dclamp : Int
  req : Nat
  /-- Halls: sets in a row with INV, SKIP of the last 64 sets, newest first, clean sets in a row, ticks without an edge, edge seen. -/
  invRun : Nat
  skips : List Bool
  clean : Nat
  noEdge : Nat
  edge : Bool
  /-- The position set shows STILL; the speed of the set. -/
  still : Bool
  spd : Int
  /-- Duty that the executed and the accepted frame commands, Q2.29. -/
  duty : Int
  /-- Pump: state of R292, the tick in which RETRY was entered, ticks of RUN, the counts of RUN at which RETRY was entered in the last
  10 s, the latest first, and the setpoint. -/
  pstate : Nat
  retryAt : Nat
  runTicks : Nat
  retries : List Nat
  sp : Int
  /-- Pump input: last measurement, invalid. -/
  pin : Nat
  invalid : Bool
  /-- Governor (R293, R294). -/
  gi : Int
  g : Int
  gov : Bool
  deriving DecidableEq, Repr, Inhabited

/-- One drive in an ACT set: whether it is in a switching state, the signals S0 to S6, and DCLAMP. -/
structure ActSetDrive where
  switching : Bool
  sig : List Int
  dclamp : Int
  deriving DecidableEq, Repr, Inhabited

/-- An ACT set (R282). -/
structure ActSet where
  tag : Nat
  drives : List ActSetDrive
  deriving DecidableEq, Repr, Inhabited

structure ActState where
  drives : List ActDrive
  plok : Bool
  engaged : Bool
  shelf : List ActSet
  deriving DecidableEq, Repr, Inhabited

/-! ### DMA and the check-value units (R346 to R375) -/

/-- A descriptor as fetched (R355); `bad` is a descriptor error (R356), `seq` counts the ring's descriptors. -/
structure DmaDesc where
  seq : Nat
  index : Nat
  src : Nat
  dst : Nat
  len : Nat
  tag : Nat
  op : Nat
  flags : Nat
  param : Nat
  bad : Bool
  deriving DecidableEq, Repr, Inhabited

/-- A descriptor that has begun (R357): bytes issued, stamp of the first issue, the stream record, parks, the chunks moved. -/
structure DmaActive where
  desc : DmaDesc
  issued : Nat
  issueAt : Option Nat
  data : List Nat
  /-- Bytes the descriptor moves: LEN, or those of the stream record. -/
  len : Nat
  status : Nat
  parks : Nat
  chunks : List (Nat × List Nat)
  deriving DecidableEq, Repr, Inhabited

/-- A transaction (R357): its descriptor, its place in it, bytes already written, and the physical page parts it reads and
writes. -/
structure DmaTxn where
  seq : Nat
  off : Nat
  size : Nat
  written : Nat
  reads : List (Nat × Nat)
  writes : List (Nat × Nat)
  deriving DecidableEq, Repr, Inhabited

/-- A ring's engine (R355 to R366); its state and indices stand in DMA_R_STAT, DMA_R_HEAD and DMA_R_CQHEAD. -/
structure DmaRing where
  fetched : List DmaDesc
  active : List DmaActive
  out : List DmaTxn
  parked : List DmaTxn
  /-- Completion records that wait: sequence, bytes, and whether CQ is to be set. -/
  ready : List (Nat × List Nat × Bool)
  nextSeq : Nat
  /-- A run of drops is under way (R361). -/
  dropping : Bool
  /-- Faulting virtual address (R365). -/
  faultVa : Nat
  deriving DecidableEq, Repr, Inhabited

/-- An IOTLB entry (R354): context, ASID, page number, level and the leaf. -/
structure TlbEntry where
  ctx : Nat
  asid : Nat
  vpn : Nat
  level : Nat
  pte : Nat
  deriving DecidableEq, Repr, Inhabited

/-- A check-value unit (R368, R369): STOP has been written; its interrupt has been cleared by a write of CRC_U_CTRL. -/
structure CrcUnit where
  stop : Bool
  quiet : Bool
  deriving DecidableEq, Repr, Inhabited

structure DmaLane where
  rings : List DmaRing
  /-- Newest first, at most 128. -/
  iotlb : List TlbEntry
  /-- The ring served last at each PRIO (R357). -/
  served : List Nat
  units : List CrcUnit
  deriving DecidableEq, Repr, Inhabited

/-- A completion on an accessioned ring that waits for the other lane's (R304): ring, index, data CRC, record and tick. -/
structure AccDone where
  lane : Lane
  ring : Nat
  index : Nat
  /-- The cycle of the tick at which it came. -/
  cyc : Nat
  crc : Nat
  record : List Nat
  tick : Nat
  deriving DecidableEq, Repr, Inhabited

/-- Data that a STREAM_OUT descriptor has brought to port 5 (R451). -/
structure PortData where
  lane : Lane
  ring : Nat
  param : Nat
  bytes : List Nat
  deriving DecidableEq, Repr, Inhabited

structure DmaState where
  lanes : Two DmaLane
  /-- Poisoned codewords, by address / 32 (R347). -/
  poison : List Nat
  /-- Stamps of the last 0x3401 and 0x3404, and the uncorrectable codewords of the last millisecond (R349). -/
  corrAt : Option Nat
  sramAt : Option Nat
  unc : List (Nat × Nat)
  acc : List AccDone
  port5 : List PortData
  deriving DecidableEq, Repr, Inhabited

/-! ### SAFE (R397 to R433) -/

/-- One safety input as one evaluator sees it (R401 to R403). Stamps say since when a condition has held. -/
structure SafeInput where
  levelA : Bool
  levelB : Bool
  /-- Channel A, channel B shows demand; both show enable; both show demand; they disagree. -/
  demA : Option Nat
  demB : Option Nat
  enBoth : Option Nat
  demBoth : Option Nat
  odd : Option Nat
  state : Bool
  /-- Stamp at which the state last rose. -/
  since : Nat
  fault : Bool
  /-- Own pulses missed in a row (R403). -/
  missA : Nat
  missB : Nat
  deriving DecidableEq, Repr, Inhabited

/-- One safety function in one evaluator (R405 to R407, R413). -/
structure SafeFn where
  tab : TabState
  /-- RESULT of the row last taken. -/
  out : Bool
  result : Bool
  latch : Bool
  /-- Two-hand control: both inputs have read demand; stamp of the first enable; synchrony holds (R406). -/
  thArmed : Bool
  thFirst : Option Nat
  thOk : Bool
  /-- Cycles in a row beyond the limit (R413). -/
  beyond : Nat
  /-- Stamp since which every slot of SLOTS is at standstill. -/
  stillAt : Option Nat
  deriving DecidableEq, Repr, Inhabited

/-- What an evaluator exchanges (R398 step 6). -/
structure SafeWords where
  input : Nat
  result : Nat
  sto : Nat
  ss1 : Nat
  sls : Nat
  /-- Outputs as SAFE_OUTS[6:0] names them. -/
  outs : Nat
  deriving DecidableEq, Repr, Inhabited

/-- One evaluator (R397, R398). -/
structure Evaluator where
  inputs : List SafeInput
  fns : List SafeFn
  /-- Remote bits taken, by connection. -/
  remote : List Nat
  /-- End of each slot's SS1 timer (R412). -/
  ss1 : List (Option Nat)
  words : SafeWords
  /-- Stamp of its last exchange; `lost` says that it has had none from the other evaluator for 2 × SCYC (R400). -/
  lastAt : Option Nat
  lost : Bool
  /-- Test pulses seen since boot, per TP output, and outputs whose switches have been tested (R430). -/
  tps : Nat
  tests : Nat
  deriving DecidableEq, Repr, Inhabited

/-- An Aeddy connection (R418 to R422); its state stands in SAFE_AEDDY. -/
structure AeConn where
  /-- SEQ of the last accepted message. -/
  last : Option Nat
  sent : Nat
  /-- Stamp of the last accepted message (the watchdog). -/
  wdAt : Nat
  errRun : Nat
  okRun : Nat
  /-- A run of discards has been told. -/
  told : Bool
  /-- SAFEBITS after RXMASK, of the last accepted message. -/
  bits : Nat
  deriving DecidableEq, Repr, Inhabited

/-- A password record as stored (R426), with its sector. -/
structure PwRecord where
  gen : Nat
  iter : Nat
  salt : List Nat
  hash : List Nat
  sector : Nat
  deriving DecidableEq, Repr, Inhabited

structure SafeState where
  bed : Evaluator
  sp : Evaluator
  conns : List AeConn
  /-- End of the pulse window of each TP output (R403). -/
  tpUntil : List Nat
  /-- Differing bits of the exchanged words, by word × 32 + bit, with Bedrock cycles in a row (R399); cycles that agreed (R430). -/
  diff : List (Nat × Nat)
  agree : Nat
  /-- Functions whose SLS check is exceeded (R413). -/
  exceeded : Nat
  /-- Largest |HDTH| of the accepted frames and largest |speed| of the position sets since the evaluator's last cycle, by slot. -/
  peakB : List Nat
  peakP : List Nat
  /-- A run of messages that no connection holds has been told (R420). -/
  strayTold : Bool
  /-- The governing password record (R426), the password that is checked, and the operator tag of the session. -/
  pw : PwRecord
  tried : List Nat
  who : List Nat
  /-- Stamp of the last session command, and the end of the lockout (R424, R425). -/
  sessAt : Nat
  lockUntil : Nat
  /-- Change log: sector and place of the next entry, number of the sector being filled (R427). -/
  logSector : Nat
  logSlot : Nat
  logSectorNum : Nat
  deriving DecidableEq, Repr, Inhabited

/-! ### IMG (R434 to R463) -/

/-- A set of the shelf of generic slot machines (R444): state of each slot's table. -/
structure SmSet where
  tag : Nat
  states : List Nat
  deriving DecidableEq, Repr, Inhabited

structure ImgState where
  /-- Generic machines, by slot (R443, R444), and their shelf, newest first, at most 32 sets. -/
  sm : List TabState
  shelf : List SmSet
  /-- Key slots 1 to 3: the hash programmed, and revoked (R448). -/
  keys : List (Option (List Nat))
  revoked : List Bool
  deriving DecidableEq, Repr, Inhabited
/-! ### Each lane's own state (R301 to R324) -/

/-- A checkpoint (R312): the sections of the list as the state they hold. -/
structure Checkpoint where
  arr : Nat
  tick : Nat
  t0 : Nat
  /-- NUM of the tick marker of the next tick. -/
  jpos : Nat
  law : List LawSlot
  inj : Injector
  foc : List FocMotor
  mod : List ModSlot
  /-- Status that LAW, FOC and MOD registers show and command values in force, by the offset of lane A's copy. -/
  regs : List (Nat × Word)
  /-- The shadow as written in the tick, by the offset of lane A's copy. -/
  shadow : List (Nat × Word)
  armed : Bool
  /-- The firmware regions of both lanes (R338). -/
  fwA : List Nat
  fwB : List Nat
  deriving DecidableEq, Repr, Inhabited

structure LaneState where
  /-- The lane raised an F2 event in this tick and is no longer admitted (R316). -/
  f2 : Bool
  /-- Health bits [12:0] of this tick and of the previous one (R320). -/
  hwNow : Nat
  hwPrev : Nat
  /-- Write list of the tick, oldest first: register offset and value (R302). -/
  writeList : List (Nat × Word)
  /-- Stamps of the lane faults of the last second (R336). -/
  faults : List Nat
  step : RecStep
  /-- Tick of the fault that recovery started from, equal SHADOW ticks so far, a difference in the last one, and the tick at
  which the wait for a checkpoint began (R322, R324). -/
  faultTick : Nat
  shadowEqual : Nat
  shadowBad : Bool
  waitFrom : Nat
  /-- The next tick to replay (R322, R330). -/
  next : Nat
  /-- The lane's restart under the hold; a lane put into recovery waits in reset while the other restarts (R459). -/
  restart : Option Restart
  afterwards : Bool
  /-- Messages of the tick, for the comparison in SHADOW. -/
  msgs : List TxMsg
  /-- Judged wrong at this tick's cutoff (R321). -/
  wrong : Bool
  /-- The two buffers of the Archive, and which holds the newest usable checkpoint (R311). -/
  buf0 : Option Checkpoint
  buf1 : Option Checkpoint
  usable : Option Bool
  /-- The checkpoint being copied, and one complete but not yet usable (R310). -/
  copying : Option Checkpoint
  complete : Option Checkpoint
  /-- An F2 event or a disagreement arose in the copy tick (R310). -/
  ckptSpoilt : Bool
  /-- The journal, oldest entry first; next NUM; next word of the ring (R307). -/
  journal : List JEntry
  jNext : Nat
  jWord : Nat
  /-- The words of the inbox of the tick executed that have not been read (R306). -/
  inbox : List Nat
  /-- Stamp of the last KICK (R343). -/
  kickAt : Nat
  deriving DecidableEq, Repr, Inhabited

/-! ### The whole machine -/

/-- A lane's interrupt controller (R17, R51), as the RISC-V PLIC has it: priorities by source, enables, threshold, the sources
whose request has been forwarded and waits although the line may have fallen, and those claimed and not completed. -/
structure Plic where
  prio : List Nat
  enable : Nat
  threshold : Nat
  latched : Nat
  claimed : Nat
  deriving DecidableEq, Repr, Inhabited

/-- Everything but the memory and the queue. -/
structure Mach where
  variant : Variant
  /-- The register file: the registers of the map that differ from their reset value, by offset in peripheral space. Within a
  command the newest write stands first; the end of every command restores the one canonical form (`settle`). -/
  regs : List (Nat × Word)
  /-- The rsn snapshots (R13): reader (0 lane A, 1 lane B, 2 safety processor), lead, member, value; zero values are not listed. -/
  snaps : List (Nat × Nat × Nat × Word)
  /-- The register file as at the current boundary, before the pipeline's work of the tick, and LAW's signals with it: what a
  tick task reads (R58). -/
  marks : List (Nat × Word)
  /-- The bits that hardware has set in the present pipeline cycle, by register (R12). -/
  setNow : List (Nat × Nat)
  /-- Each lane's interrupt controller. -/
  plic : Two Plic
  /-- What the last access returned to its requester. -/
  reply : BusReply
  /-- The rwl lock (R14, R455). -/
  locked : Bool
  /-- Free values used so far (log entry 2): the model's own field, not the spec's. -/
  free : Nat
  image : Image
  sys : SysState
  tick : TickState
  acq : AcqState
  pos : PosState
  law : Two LawLane
  foc : Two (List FocMotor)
  mod : Two (List ModSlot)
  gate : GateState
  lvc : LvcState
  chg : ChgState
  act : ActState
  /-- Records that producing ports hold for their rings (R361). -/
  offers : List Offer
  dma : DmaState
  time : TimeState
  net : NetState
  lanes : Two LaneState
  lane : LaneBlock
  pwr : PwrState
  safe : SafeState
  img : ImgState
  deriving DecidableEq, Repr, Inhabited

/-- The state of the block: the machine, the memory, and the commands that wait, first in, first out. -/
structure State where
  m : Mach
  /-- Memory of the address map that differs from what an unlisted byte reads as (`Memory.unlisted`). -/
  mem : List Host.Cell
  pending : List Instr
  deriving DecidableEq, Repr, Inhabited

/-- Why a step stops with a fault. No meaning of this model raises one: every stop that the spec describes is the device's own
reaction, which goes on. Safe: nothing is claimed of a fault. -/
inductive Fault where
  /-- Raised by no one; kept so that the type has a name for a stop without a reason of the spec. -/
  | impossible
  deriving DecidableEq, Repr, Inhabited

/-- Why a step refuses a command. -/
inductive Refusal where
  /-- A row of the table without a meaning; raised by `exec` only. Safe: nothing is claimed of the row. -/
  | notModelled (mnemonic : String)
  deriving DecidableEq, Repr, Inhabited

/-! ### What a lane reset and a device reset leave (R132, R159, R187) -/

/-- A slot of the Law stage without state. -/
def LawSlot.fresh : LawSlot :=
  { sig := List.replicate 64 0, states := [], before := ([], []), sealLeft := 0, sealBefore := 0, fwSwap := false, asked := false,
    detSwap := false, mean := 0, sgn := 0, peak := 0, swings := 0, win := 0, swapTick := none, detected := false }

/-- An injector that has not run. -/
def Injector.fresh : Injector :=
  { phi := 0, freq := 0, shift := 0, freqBefore := 0, shiftBefore := 0, chip := 0, rampLeft := 0, amp := 0 }

/-- A motor without estimator state; no loss has lowered the torque limit. -/
def FocMotor.fresh : FocMotor :=
  { pa := 0, pb := 0, tho := 0, wo := 0, thh := 0, wh := 0, rdp := 0, rqp := 0, wp := 0, tprev := 0, psir := 0, thsl := 0,
    val := 0, vbe := 0, phase := .none, lossCount := 0, k := 0, thL := 0, wL := 0, tL := 0, lcap := 0x7FFFFFFF, thGood := 0,
    wGood := 0, lastRestart := none, restartReq := false, i0Count := 0, reacq := 0, emfhi := false, divCount := 0, div := false,
    polStep := 0, polTick := 0, polPos := 0, polNeg := 0, polTries := 0, polOk := false, hcCount := 0, derated := false,
    ascHeld := false, scLow := 0, ascReleased := false, onSensor := false, thm := 0, thc := 0, omega := 0, w := 0, amp := 0,
    r := 0, hc := 0, dd := 0, fd := 0, fq := 0, angsrc := 0, reacqNow := false }

/-- A slot of Modulate in IDLE, in band 1, unthrottled. -/
def ModSlot.fresh : ModSlot :=
  { debts := [], halfOn := [], g := 0, n := 0, phi := 0, phiprev := 0, emagMin := 0, senseFrom := 0, repeated := false,
    decide := false, forced := false, ea := 0, eb := 0, diffs := [], contW := 0, stopt := 0, stopRun := 0,
    volts := [], safeKind := 1, band := 1, throttle := 0xFFFF, dropping := false, catching := none, startHeld := false,
    permitted := false, frame := none }

/-- The Law engine of a lane with this law memory. -/
def LawLane.fresh (words : List (Nat × Word)) : LawLane :=
  { slots := List.replicate 16 LawSlot.fresh, words := words, inj := Injector.fresh, capSkip := 0, capDropping := false }

/-- The tick part of a lane at rest. -/
def TickLane.fresh : TickLane :=
  { cpu := ⟨0, 0, 0, 0, 0, true⟩, savedMachine := true, shadow := [], doneAt := none, taskOverrun := false, lastEmit := 0,
    emitted := [], overran := [], warnArmed := true }

/-- An interrupt controller at reset: no priority, enable or request. -/
def Plic.fresh : Plic := ⟨List.replicate 128 0, 0, 0, 0, 0⟩

/-- A ring's engine. -/
def DmaRing.fresh : DmaRing := ⟨[], [], [], [], [], 0, false, 0⟩

/-- A lane's engines. -/
def DmaLane.fresh : DmaLane := ⟨List.replicate 16 DmaRing.fresh, [], List.replicate 4 15, List.replicate 4 ⟨false, false⟩⟩

/-! ### After power-on -/

/-- A safety function at boot: the latch holds (R407), the table in no row yet. -/
def SafeFn.fresh : SafeFn := { (default : SafeFn) with latch := true }

/-- An evaluator at boot. -/
def Evaluator.fresh : Evaluator :=
  { inputs := List.replicate 16 default, fns := List.replicate 16 SafeFn.fresh, remote := List.replicate 8 0,
    ss1 := List.replicate 16 none, words := default, lastAt := none, lost := false, tps := 0, tests := 0 }

/-- The power block when VIN_AUX comes: rails down, the device reset of CAUSE 0 due (R468). -/
def PwrState.fresh : PwrState :=
  { phase := .off, tries := 0, vinOk := true, due := some 0, rail := 0, booted := false, crystalLost := false, bedrockOk := true,
    ascBoot := false, ascPull := false, ascReq := false, wakeLatch := 0, waking := false, sensors := List.replicate 20 default,
    balance := 0, starts := [], granted := [], driftOut := List.replicate 6 0, driftIn := List.replicate 6 0,
    driftTold := List.replicate 6 false, throttled := List.replicate 16 false }

/-- R37, R89, R109, R132, R159, R187, R218, R246, R276, R295, R341, R370, R391, R469: the machine of a variant as a device reset
leaves it: every register at its reset value, every queue empty, no image loaded, the tick stopped. -/
def Mach.initial (v : Variant) : Mach :=
  { variant := v, regs := [], snaps := [], marks := [], setNow := [], plic := ⟨Plic.fresh, Plic.fresh⟩, reply := .none, locked := false, free := 0,
    image := default,
    sys := default,
    tick := ⟨false, false, ⟨TickLane.fresh, TickLane.fresh⟩⟩,
    acq := { (default : AcqState) with
      convs := List.replicate 12 ⟨.free, [], 0, 0, 0⟩, runs := List.replicate 16 default, acc := List.replicate 256 default,
      trk := List.replicate 64 TrkWindow.empty, dieTemp := List.replicate 12 none },
    pos := ⟨List.replicate 2 default, List.replicate 6 default, [0, 0], []⟩,
    law := ⟨LawLane.fresh [], LawLane.fresh []⟩,
    foc := ⟨List.replicate 2 FocMotor.fresh, List.replicate 2 FocMotor.fresh⟩,
    mod := ⟨List.replicate 16 ModSlot.fresh, List.replicate 16 ModSlot.fresh⟩,
    gate := { (default : GateState) with
      pairs := List.replicate 16 default, legs := List.replicate 24 default, voffAt := some 0,
      dir := List.replicate 6 false },
    lvc := { (default : LvcState) with
      weights := List.replicate 6 8, rampPh := 7, iph := List.replicate 6 0, nextSeq := 1 },
    chg := default,
    act := { (default : ActState) with drives := List.replicate 6 { (default : ActDrive) with sinceFlt := true } },
    offers := [],
    dma := { (default : DmaState) with lanes := ⟨DmaLane.fresh, DmaLane.fresh⟩ },
    time := default,
    net := { (default : NetState) with ports := List.replicate 7 default, flowCount := List.replicate 64 0 },
    lanes := ⟨default, default⟩,
    lane := { (default : LaneBlock) with slots := List.replicate 16 default },
    pwr := PwrState.fresh,
    safe := { (default : SafeState) with
      bed := Evaluator.fresh, sp := Evaluator.fresh, conns := List.replicate 8 default, tpUntil := List.replicate 8 0,
      peakB := List.replicate 16 0, peakP := List.replicate 16 0 },
    img := ⟨List.replicate 16 default, [], [none, none, none], [false, false, false]⟩ }

/-- The block right after reset: a PX-960 to which VIN_AUX has just been applied (log entry 1), memory as no one has written it,
no command waiting. -/
def State.reset : State := ⟨Mach.initial .px960, [], []⟩
end Sys2Proof.Machine
end

