-- ==== Sys2Proof/Machine/Operands.lean ====
section
/-! DEFINITION. How a register address is read: the row and the copy it names, presence in the variant (R3), the reset
value, and the sparse store that holds the register file. -/

namespace Sys2Proof.Machine

/-- The copy that `d` bytes past the base names, outermost index first; `none` when it names no copy. -/
def copyIndex : List (Nat × Nat) → Nat → Option (List Nat)
  | [], d => if d = 0 then some [] else none
  | (count, stride) :: rest, d =>
    let i := min (d / stride) (count - 1)
    (copyIndex rest (d - i * stride)).map (i :: ·)

/-- The row that the peripheral-space offset `a` names, with the indices of its copy. -/
def findRow : List RegRow → Nat → Option (RegRow × List Nat)
  | [], _ => none
  | r :: rest, a =>
    if r.base ≤ a then
      match copyIndex r.dims (a - r.base) with
      | some ix => some (r, ix)
      | none => findRow rest a
    else findRow rest a

/-- The register at an offset of peripheral space; none where R8 says that no register lies. -/
def regAt (a : Nat) : Option (RegRow × List Nat) := findRow (blockRows (a / 2 ^ 16)) a

/-- R2 and R219: isolated gate channels bonded out, one bit per channel. -/
def gdiChannels : Variant → Nat
  | .px960 => 0xFFFFFFFF
  | .px945 => 0xC000FFFF
  | .px930 => 0xC000F03F

/-- R2: SYS_UNITS of each variant. -/
def sysUnits : Variant → Nat
  | .px960 => 0x1FF
  | .px945 => 0x1F7
  | .px930 => 0x175

/-- R28: the VARIANT code of SYS_ID. -/
def variantCode : Variant → Nat
  | .px960 => 0x3C
  | .px945 => 0x2D
  | .px930 => 0x1E

/-- Whether a unit of SYS_UNITS is present. -/
def hasUnit (v : Variant) (bit : Nat) : Bool := (sysUnits v).testBit bit

/-- The reset value of a register copy. -/
def resetValue (v : Variant) (r : RegReset) (ix : List Nat) : Word :=
  match r with
  | .value n => BitVec.ofNat 32 n
  | .sysId => BitVec.ofNat 32 (0x09600047 + variantCode v * 2 ^ 8)
  | .silicon => Config.stepping.setWidth 32
  | .sysUnits => BitVec.ofNat 32 (sysUnits v)
  | .uidLo => Config.uid.setWidth 32
  | .uidHi => (Config.uid >>> 32).setWidth 32
  | .channels => if hasUnit v 7 then 3#32 else 1#32
  | .motors => if hasUnit v 1 then 3#32 else 1#32
  | .gdi => BitVec.ofNat 32 (gdiChannels v)
  | .chg => if hasUnit v 3 then 1#32 else 0#32
  | .portCfg =>
    match ix with
    | [0] => 0#32
    | [1] => 0#32
    | [2] => 0x4000#32
    | _ => 0x000CCC00#32

/-- The reset value of the register at `a`, and zero where none lies. -/
def regReset (v : Variant) (a : Nat) : Word :=
  match regAt a with
  | some (r, ix) => resetValue v r.reset ix
  | none => 0#32

/-- R3: whether the unit that owns this register copy is absent in the variant. -/
def absentReg (v : Variant) (r : RegRow) (ix : List Nat) : Bool :=
  match r.unit with
  | .always => false
  | .resb => ix.head? == some 1 && !hasUnit v 7
  | .trb => ix.getD 1 0 == 1 && !hasUnit v 1
  | .chg => !hasUnit v 3
  | .pair => !(gdiChannels v).testBit (2 * ix.headD 0)
  | .leg => !hasUnit v (if ix.headD 0 < 6 then 4 else if ix.headD 0 < 18 then 5 else 6)
  | .drive => !hasUnit v (if ix.headD 0 < 4 then 5 else 6)
  | .port => ix.head? == some 1 && !hasUnit v 8

/-! ### The sparse store -/

/-- The entry at `a`; the first one counts. -/
def Cells.get {w : Nat} : List (Nat × BitVec w) → Nat → Option (BitVec w)
  | [], _ => none
  | (b, x) :: t, a => if b = a then some x else Cells.get t a

/-- `l`, sorted, with `x` at `a`; an entry equal to `d`, what an unlisted place reads as, is left out. -/
def Cells.put {w : Nat} (d : BitVec w) (a : Nat) (x : BitVec w) : List (Nat × BitVec w) → List (Nat × BitVec w)
  | [] => if x = d then [] else [(a, x)]
  | (b, y) :: t =>
    if a < b then (if x = d then (b, y) :: t else (a, x) :: (b, y) :: t)
    else if a = b then (if x = d then t else (a, x) :: t)
    else (b, y) :: Cells.put d a x t

/-- Strictly rising addresses, and no entry equal to what an unlisted place reads as. -/
def Cells.canonical {w : Nat} (d : Nat → BitVec w) : List (Nat × BitVec w) → Bool
  | [] => true
  | [(a, x)] => decide (x ≠ d a)
  | (a, x) :: (b, y) :: t => decide (a < b) && decide (x ≠ d a) && Cells.canonical d ((b, y) :: t)

/-- The canonical form of a list whose newest write stands first. -/
def Cells.settle {w : Nat} (d : Nat → BitVec w) : List (Nat × BitVec w) → List (Nat × BitVec w)
  | [] => []
  | (a, x) :: t => Cells.put (d a) a x (Cells.settle d t)

/-- The canonical form of the register file. -/
def settleRegs (v : Variant) (l : List (Nat × Word)) : List (Nat × Word) := Cells.settle (regReset v) l

end Sys2Proof.Machine
end

