-- ==== Sys2Proof/Machine/Ops.lean ====
section
/-! DEFINITION. The named operations that every meaning is built from: registers, time, events and their classes, accession,
the slots of the running image, lane states, and how a command ends. -/

namespace Sys2Proof.Machine

/-! ### The register file -/

/-- The value of the register at `a`, as hardware holds it. -/
def Mach.rd (m : Mach) (a : Nat) : Word := (Cells.get m.regs a).getD (regReset m.variant a)

/-- A write by hardware. -/
def Mach.wr (m : Mach) (a : Nat) (w : Word) : Mach := { m with regs := (a, w) :: m.regs }

/-- The field `hi` to `lo` of a register. -/
def Mach.fld (m : Mach) (a hi lo : Nat) : Nat := (m.rd a).bits hi lo

/-- Bit `i` of a register. -/
def Mach.bit (m : Mach) (a i : Nat) : Bool := (m.rd a).bit i

/-- A register read as a signed number. -/
def Mach.rdS (m : Mach) (a : Nat) : Int := (m.rd a).toInt

/-- A write of a number. -/
def Mach.wrN (m : Mach) (a v : Nat) : Mach := m.wr a (BitVec.ofNat 32 v)

/-- A write of a signed number. -/
def Mach.wrS (m : Mach) (a : Nat) (v : Int) : Mach := m.wr a (wordOf v)

/-- The field `hi` to `lo` of a register replaced. -/
def Mach.setFld (m : Mach) (a hi lo v : Nat) : Mach := m.wr a ((m.rd a).withBits hi lo v)

/-- Bit `i` of a register replaced. -/
def Mach.setBit (m : Mach) (a i : Nat) (b : Bool) : Mach := m.wr a ((m.rd a).withBit i b)

/-- Hardware sets bits of a register: a status bit sets whatever its enable holds, and a write of the same cycle does not clear
it (R12). -/
def Mach.orr (m : Mach) (a mask : Nat) : Mach :=
  { m.wr a (m.rd a ||| BitVec.ofNat 32 mask) with setNow := (a, mask) :: m.setNow }

/-- R12: the bits of a register that hardware has set in the present cycle. -/
def Mach.setBits (m : Mach) (a : Nat) : Nat := ((m.setNow.filter fun x => x.1 == a).map (·.2)).foldl (· ||| ·) 0

/-- A counter field that saturates. -/
def Mach.incSat (m : Mach) (a hi lo : Nat) : Mach :=
  m.setFld a hi lo (min (m.fld a hi lo + 1) (2 ^ (hi + 1 - lo) - 1))

/-- A counter field that wraps. -/
def Mach.incMod (m : Mach) (a hi lo : Nat) : Mach := m.setFld a hi lo (m.fld a hi lo + 1)

/-- A 64-bit value in two registers. -/
def Mach.rd64 (m : Mach) (lo hi : Nat) : Nat := (m.rd lo).toNat + 2 ^ 32 * (m.rd hi).toNat

/-- A 64-bit value into two registers. -/
def Mach.wr64 (m : Mach) (lo hi v : Nat) : Mach := (m.wrN lo v).wrN hi (v / 2 ^ 32)

/-! ### Lists as fixed tables -/

/-- The entry `i` of a table; a place outside it reads as the type's default. -/
def nth {α : Type} [Inhabited α] (l : List α) (i : Nat) : α := l.getD i default

/-- The table with entry `i` changed; a place outside it changes nothing. -/
def upd {α : Type} (l : List α) (i : Nat) (f : α → α) : List α := l.modify i f

/-- A run over the numbers below `n`, in rising order. -/
def forN (n : Nat) (f : Nat → Mach → Mach) (m : Mach) : Mach := (List.range n).foldl (fun m i => f i m) m

/-- A run over a list. -/
def forL {α : Type} (l : List α) (f : α → Mach → Mach) (m : Mach) : Mach := l.foldl (fun m x => f x m) m

/-- The numbers of the bits that are set, below `n`. -/
def bitsOf (n mask : Nat) : List Nat := (List.range n).filter mask.testBit

/-! ### Tick, mode and time -/

/-- The tick period P in pipeline cycles (R38, R61). -/
def Mach.period (m : Mach) : Nat := m.fld Reg.TICK_PERIOD 15 0

/-- The emit deadline D (R62). -/
def Mach.deadline (m : Mach) : Nat := m.fld Reg.TICK_DEADLINE 15 0

/-- TICK_SEQ (R40, R63). -/
def Mach.seq (m : Mach) : Nat := m.rd64 Reg.TICK_SEQ_LO Reg.TICK_SEQ_HI

/-- TICK_T0, the timebase at the current boundary (R39). -/
def Mach.t0 (m : Mach) : Nat := m.rd64 Reg.TICK_T0_LO Reg.TICK_T0_HI

/-- The current mode: SYS_MODE_STAT.MODE (R32); it holds 0 to 5 only. -/
def Mach.mode (m : Mach) : Mode := (Mode.ofCode (m.fld Reg.SYS_MODE_STAT 2 0)).getD .safeHold

/-! ### Parts of the state -/

/-- The SYS part changed. -/
def Mach.onSys (m : Mach) (f : SysState → SysState) : Mach := { m with sys := f m.sys }
/-- What both lanes' ticks share. -/
def Mach.onTicks (m : Mach) (f : TickState → TickState) : Mach := { m with tick := f m.tick }
/-- The ACT part changed. -/
def Mach.onAct (m : Mach) (f : ActState → ActState) : Mach := { m with act := f m.act }
/-- The records that producing ports hold. -/
def Mach.onOffers (m : Mach) (f : List Offer → List Offer) : Mach := { m with offers := f m.offers }
/-- A lane's interrupt controller changed. -/
def Mach.onPlic (m : Mach) (l : Lane) (f : Plic → Plic) : Mach := { m with plic := m.plic.set l (f (m.plic.get l)) }
/-- The TIME part changed. -/
def Mach.onTime (m : Mach) (f : TimeState → TimeState) : Mach := { m with time := f m.time }
/-- Both lanes' own parts changed. -/
def Mach.onLanes (m : Mach) (f : Lane → LaneState → LaneState) : Mach := { m with lanes := ⟨f .a m.lanes.a, f .b m.lanes.b⟩ }
/-- The LANE part changed. -/
def Mach.onLb (m : Mach) (f : LaneBlock → LaneBlock) : Mach := { m with lane := f m.lane }
/-- The PWR part changed. -/
def Mach.onPwr (m : Mach) (f : PwrState → PwrState) : Mach := { m with pwr := f m.pwr }
/-- The reply goes to the requester. -/
def Mach.say (m : Mach) (r : BusReply) : Mach := { m with reply := r }
/-- `n` free values are used up. -/
def Mach.spend (m : Mach) (n : Nat) : Mach := { m with free := m.free + n }

/-- The timebase now (R376). -/
def Mach.now (m : Mach) : Nat := m.time.t

/-- The sign of the slew, s of R376 in units of 2^26. -/
def slewSign (s : Int) : Int := if s > 0 then 1 else if s < 0 then -1 else 0

/-- R376, R377: the timebase moved on to cycle `cyc` of the tick; a cycle already past moves nothing. -/
def Mach.advanceTo (m : Mach) (cyc : Nat) : Mach :=
  let d := cyc - m.time.cyc
  let slewed := min d m.time.slew.natAbs
  let fr : Int := m.time.f + d * (5 * 2 ^ 32 + m.rdS Reg.TIME_RATE) + slewSign m.time.slew * 2 ^ 26 * slewed
  let fr := fr.toNat
  { m with setNow := if d = 0 then m.setNow else [], time := { m.time with
      t := m.time.t + fr / 2 ^ 32, f := fr % 2 ^ 32, cyc := m.time.cyc + d,
      slew := m.time.slew - slewSign m.time.slew * slewed } }

/-! ### Free values -/

/-- A free value of `w` bits, and the counter advanced (log entry 2). -/
def Mach.freeVal (m : Mach) (w : Nat) : Nat × Mach :=
  ((Config.freeValue m.free).toNat % 2 ^ w, m.spend 1)

/-- `n` free bytes. -/
def Mach.freeBytes (m : Mach) (n : Nat) : List Nat × Mach :=
  ((List.range n).map fun i => (Config.freeValue (m.free + i)).toNat % 256, m.spend n)

/-- A per-unit quotient, rounded half away from zero and saturated to ±4 pu (R101); with a zero divisor the rules state no
value, and it is free (log entry 2). -/
def Mach.quotPu (m : Mach) (num : Int) (den : Nat) : Int × Mach :=
  if den = 0 then
    let r := m.freeVal 32
    (signed 32 r.1, r.2)
  else (sat32 (roundHalfAway num den), m)

/-! ### The running image -/

/-- The image configures motor `i` (R136). -/
def Mach.motorSet (m : Mach) (i : Nat) : Bool := m.image.motors.contains i

/-- The entry of slot `k` in the slot map (R439). -/
def Mach.slotEntry (m : Mach) (k : Nat) : Option SlotEntry := m.image.slots.find? (fun e => e.slot == k)

/-- The slot map holds slot `k`. -/
def Mach.hasSlot (m : Mach) (k : Nat) : Bool := (m.slotEntry k).isSome

/-- The type of slot `k`. -/
def Mach.slotType (m : Mach) (k : Nat) : Option SlotType := (m.slotEntry k).map (·.type)

/-- Whether slot `k` has this type. -/
def Mach.isType (m : Mach) (k : Nat) (t : SlotType) : Bool := m.slotType k == some t

/-- Schedule class of a type (R45). -/
def SlotType.rank : SlotType → Nat
  | .chopper => 0
  | .traction => 1
  | .pfc3 => 2
  | .dab => 2
  | .dcx => 2
  | .buckn => 3
  | .bldc => 4
  | .pump => 4

/-- R45: the slots in schedule order: by class, and within a class by number. -/
def Mach.schedule (m : Mach) : List Nat :=
  (List.range 5).flatMap fun c => (List.range 16).filter fun k =>
    match m.slotType k with
    | some t => t.rank == c
    | none => false

/-- The numbers of the slots of one type. -/
def Mach.slotsOf (m : Mach) (t : SlotType) : List Nat := (List.range 16).filter fun k => m.isType k t

/-- A state table by number (R442). -/
def Mach.table (m : Mach) (n : Nat) : Option Table := m.image.tables.find? (fun t => t.num == n)

/-- A curve by number, evaluated (R441). -/
def Mach.curve (m : Mach) (n : Nat) (x : Int) : Int :=
  match m.image.curves.find? (fun c => c.num == n) with
  | some c => evalCurve c.pts x
  | none => 0

/-- Y of a curve's last point, for R142's broken sensor. -/
def Mach.curveLast (m : Mach) (n : Nat) : Int :=
  match m.image.curves.find? (fun c => c.num == n) with
  | some c => (c.pts.getLast?.map (·.2)).getD 0
  | none => 0

/-- Carrier ratio r = 2^RLOG as numerator and denominator (R43, R439). -/
def ratio (rlog : Int) : Nat × Nat := if rlog < 0 then (1, 2 ^ rlog.natAbs) else (2 ^ rlog.natAbs, 1)

/-- R163, R165: H32 = 32 × H = 16 × P / r, the half of a carrier period in 1/32 cycle. -/
def Mach.half32 (m : Mach) (rlog : Int) : Nat :=
  let r := ratio rlog
  16 * m.period * r.2 / r.1

/-- Bits of a mask that a slot owns, as a list: its isolated pairs or its low-voltage legs. -/
def SlotEntry.pairList (e : SlotEntry) : List Nat := bitsOf 16 e.pairs
def SlotEntry.legList (e : SlotEntry) : List Nat := bitsOf 24 e.legs

/-! ### R23: what a mode permits -/

/-- R23: whether a slot of this type may switch in a mode; R409 bounds the jogging of SERVICE further. The off-state reactions of
STANDBY and SAFE_HOLD are no switching. -/
def permits : Mode → SlotType → Bool
  | .sleep, _ => false
  | .standby, _ => false
  | .safeHold, _ => false
  | .drive, .pfc3 => false
  | .drive, .dab => false
  | .drive, _ => true
  | .charge, .traction => false
  | .charge, .bldc => false
  | .charge, _ => true
  | .service, .pfc3 => false
  | .service, .dab => false
  | .service, _ => true

/-- R409: in SERVICE a TRACTION or BLDC slot may switch only while a TWOHAND function that covers it has RESULT 1, and a TRACTION
slot only while an SLS function that covers it is active as well. -/
def Mach.jogAllowed (m : Mach) (k : Nat) (t : SlotType) : Bool :=
  let held := (List.range 16).any fun f => m.fld (Reg.SAFE_FN_CFG_W0 f) 31 28 == 3 &&
    m.bit (Reg.SAFE_FN_CFG_W1 f) (16 + k) && m.bit Reg.SAFE_FUNC f
  match t with
  | .traction => held && m.bit Reg.SAFE_SLS k
  | .bldc => held
  | _ => true

/-- R23, R409: whether slot `k` may switch now. -/
def Mach.permitted (m : Mach) (k : Nat) : Bool :=
  match m.slotType k with
  | some t => permits m.mode t && (m.mode != .service || m.jogAllowed k t)
  | none => false

/-! ### State tables (R442, R443) -/

/-- R443: a row applies in this state, mode and condition word. -/
def TableRow.applies (r : TableRow) (mode cond : Nat) (s : TabState) : Bool :=
  (r.source == s.state || r.source == 0xFF) && r.modes.testBit mode && (cond &&& r.mask) == r.value && decide (r.dwell ≤ s.dwell)

/-- R443: one evaluation: the first row that applies is taken and gives its action; otherwise the state lasts on. -/
def Table.eval (t : Table) (mode cond : Nat) (s : TabState) : TabState × Option TableRow :=
  match t.rows.find? fun r => r.applies mode cond s with
  | some r => (⟨r.dest, 1⟩, some r)
  | none => (⟨s.state, min (s.dwell + 1) (2 ^ 32 - 1)⟩, none)

/-- The SWITCHING flag of a state (R442). -/
def Table.switching (t : Table) (state : Nat) : Bool := t.flags.getD state false

/-- A table as device reset leaves it. -/
def Table.start (t : Table) : TabState := ⟨t.init, 0⟩

/-! ### Lanes -/

/-- The state of a lane: LANE_STATUS.STATEA or STATEB, coded as R301. -/
def Mach.laneCode (m : Mach) : Lane → Nat
  | .a => m.fld Reg.LANE_STATUS 9 7
  | .b => m.fld Reg.LANE_STATUS 12 10

/-- The lane's health word (R320). -/
def healthReg : Lane → Nat
  | .a => Reg.LANE_HEALTHA
  | .b => Reg.LANE_HEALTHB

/-- One second of the timebase (R336). -/
def oneSecond : Nat := 2000000000

/-- R320: field COUNT of a health word: the lane's faults in the last second, saturating. -/
def Mach.faultCount (m : Mach) (l : Lane) : Nat :=
  min ((m.lanes.get l).faults.filter fun t => decide (m.now < t + oneSecond)).length 255

/-- R301: a lane takes a state; LANE_STATUS and the health word show it. -/
def Mach.setLaneCode (m : Mach) (l : Lane) (c : Nat) : Mach :=
  ((match l with
    | .a => m.setFld Reg.LANE_STATUS 9 7 c
    | .b => m.setFld Reg.LANE_STATUS 12 10 c)).setFld (healthReg l) 26 24 c

/-- R301: the lane is LIVE. -/
def Mach.live (m : Mach) (l : Lane) : Bool := m.laneCode l == 1

/-- R301, R316: only a LIVE lane that has raised no F2 event in this tick is admitted. -/
def Mach.admitted (m : Mach) (l : Lane) : Bool := m.live l && !(m.lanes.get l).f2

/-- The arrangement in force: 1 paired, 2 split (LANE_STATUS.ARR). -/
def Mach.arr (m : Mach) : Nat := m.fld Reg.LANE_STATUS 5 4

/-- The active lane (R299). -/
def Mach.active (m : Mach) : Lane := Lane.ofIx (m.fld Reg.LANE_STATUS 6 6)

/-- The service lane (R300). -/
def Mach.service (m : Mach) : Lane := Lane.ofIx (m.fld Reg.LANE_STATUS 17 17)

/-- Paired arrangement with both lanes admitted: the case in which R302 collects and compares. -/
def Mach.pairedLive (m : Mach) : Bool := m.arr == 1 && m.admitted .a && m.admitted .b

/-- Both lanes run and are judged against each other in this tick (R303, R304, R317, R321). -/
def Mach.pairJudged (m : Mach) : Bool := m.arr == 1 && m.live .a && m.live .b

/-- R299, R314: whether a lane runs slot `k` in the arrangement in force. -/
def Mach.runsSlot (m : Mach) (l : Lane) (k : Nat) : Bool :=
  match m.slotEntry k with
  | some e => m.arr != 2 || e.slane == l
  | none => false

/-- A lane's own part changed. -/
def Mach.onLane (m : Mach) (l : Lane) (f : LaneState → LaneState) : Mach :=
  { m with lanes := m.lanes.set l (f (m.lanes.get l)) }

/-- A lane's tick part changed. -/
def Mach.onTick (m : Mach) (l : Lane) (f : TickLane → TickLane) : Mach :=
  { m with tick := { m.tick with lanes := m.tick.lanes.set l (f (m.tick.lanes.get l)) } }

/-- A lane's tick part. -/
def Mach.tl (m : Mach) (l : Lane) : TickLane := m.tick.lanes.get l

/-- The lane is in tick context (R67). -/
def Mach.inTick (m : Mach) (l : Lane) : Bool := m.bit (Reg.TICK_CTX l.ix) 0

/-- R299, R300: the roles after a lane has entered or left LIVE: the standby takes over from an active lane that is not LIVE. The
service lane is the active one while both lanes run paired or restart together, and otherwise lane A while LIVE, else lane B. -/
def Mach.setRoles (m : Mach) : Mach :=
  let act := if m.live m.active then m.active else if m.live m.active.other then m.active.other else m.active
  let both := m.arr == 1 && m.live .a == m.live .b && m.laneCode .a != 6 && m.laneCode .b != 6
  let srv := if both then act else if m.live .a then Lane.a else Lane.b
  (m.setFld Reg.LANE_STATUS 6 6 act.ix).setFld Reg.LANE_STATUS 17 17 srv.ix

/-- R27: the lane is held in reset and neither recovers nor restarts. -/
def Mach.heldReset (m : Mach) (l : Lane) : Bool :=
  m.laneCode l == 2 && (m.lanes.get l).step == .none && (m.lanes.get l).restart.isNone

/-- R27: the lane is unavailable: isolated, or held in reset with no rejoin possible; one that waits for the other to become LIVE
(R324) rejoins unless that one is unavailable. -/
def Mach.unavailable (m : Mach) (l : Lane) : Bool :=
  let gone (x : Lane) := m.laneCode x == 6 || (m.heldReset x && !(m.lanes.get x).afterwards)
  gone l || (m.heldReset l && (gone l.other || m.heldReset l.other))

/-- R27, R336: DEGRADED: a lane is unavailable. -/
def Mach.setDegraded (m : Mach) : Mach :=
  let d := m.tick.running && (m.unavailable .a || m.unavailable .b)
  (m.setBit Reg.SYS_MODE_STAT 11 d).setBit Reg.LANE_STATUS 16 d

/-! ### Events -/

/-- Whether an event of this ORIGIN is a lane's in REPLAY or SHADOW (R381). -/
def Mach.replayed (m : Mach) (origin : Nat) : Bool :=
  let c := if origin = 1 then m.laneCode .a else if origin = 2 then m.laneCode .b else 0
  c == 4 || c == 5

/-- R39, R381: TICK_SEQ at the present stamp: at cycle PERIOD the next tick has begun. -/
def Mach.tickNow (m : Mach) : Nat := m.seq + (m.tick.running && m.time.cyc == m.period).toNat

/-- R378, R380: an event raised now, on its way to the Catalogue. -/
def Mach.raise (m : Mach) (code cls : Nat) (slot : Nat := 0xFF) (data : List Nat := []) (origin : Nat := 0) : Mach :=
  m.onTime fun t => { t with
    raised := t.raised ++ [⟨m.now, m.tickNow % 2 ^ 32, code, cls, origin, m.replayed origin, slot, data⟩], evcnt := t.evcnt + 1 }

/-- The same IRQ status bit in both lanes' copies. -/
def Mach.orrBoth (m : Mach) (reg : Nat → Nat) (mask : Nat) : Mach := (m.orr (reg 0) mask).orr (reg 1) mask

/-! ### Accession (R304, R305) -/

/-- Bytes an entry takes in the ring: header and padded payload (R308). -/
def entryBytes (payload : List Nat) : Nat := 32 + (payload.length + 15) / 16 * 16

/-- Bytes that wait for an accession tick (R305). -/
def Mach.waitingBytes (m : Mach) (t : Nat) : Nat :=
  ((m.lane.waiting.filter (fun e => e.accTick == t)).map (fun e => entryBytes e.payload)).sum

/-- R305: entries of one accession tick stand by arrival, then KIND, then SRC. -/
def entryBefore (x y : JEntry) : Bool :=
  if x.accTick != y.accTick then decide (x.accTick < y.accTick)
  else if x.time != y.time then decide (x.time < y.time)
  else if x.kind != y.kind then decide (x.kind < y.kind)
  else decide (x.src ≤ y.src)

/-- An entry put in its place. -/
def insertEntry (e : JEntry) : List JEntry → List JEntry
  | [] => [e]
  | x :: t => if entryBefore x e then x :: insertEntry e t else e :: x :: t

/-- An entry added to those that wait. -/
def Mach.wait (m : Mach) (e : JEntry) : Mach := m.onLb fun b => { b with waiting := insertEntry e b.waiting }

/-- R305: an entry into accession tick `first`; it moves to the next tick, no later than `last`, when that is full, or is dropped
with event 0x300D. -/
def Mach.place (m : Mach) (first last : Nat) (entry : Nat → JEntry) : Mach :=
  let n := entryBytes (entry first).payload
  if m.waitingBytes first + n ≤ 1024 then m.wait (entry first)
  else if first + 1 ≤ last ∧ m.waitingBytes (first + 1) + n ≤ 1024 then
    (m.wait { entry (first + 1) with deferred := true }).incSat Reg.LANE_ACCSTAT 15 0
  else
    (((m.incSat Reg.LANE_ACCSTAT 31 16).raise 0x300D 1)).orrBoth Reg.LANE_L_IRQ_STAT 0x80

/-- The entry of an input arriving now, for accession tick `t` (R308). -/
def Mach.entryOf (m : Mach) (t : Nat) (x : AsyncIn) : JEntry :=
  ⟨m.now, t, 0, x.kind, x.src, x.origin, false, false, x.addr, x.value, x.payload, 0⟩

/-- R305: the accession tick of what arrives now; before the first boundary it is tick 0. -/
def Mach.accTickNow (m : Mach) : Nat :=
  if !m.tick.running then m.seq else if m.time.cyc ≤ m.deadline then m.seq + 1 else m.seq + 2

/-- R305: an input arriving now; `i` gives the input for an accession tick. -/
def Mach.accedeAt (m : Mach) (i : Nat → AsyncIn) : Mach :=
  m.place m.accTickNow (m.seq + 2) fun t => m.entryOf t (i t)

/-- R305: an input that does not name its accession tick. -/
def Mach.accede (m : Mach) (i : AsyncIn) : Mach := m.accedeAt fun _ => i

/-! ### Classes (R16) -/

/-- A health bit of a lane set in this tick (R320). -/
def Mach.health (m : Mach) (l : Lane) (bit : Nat) : Mach :=
  let m := m.onLane l fun s => { s with hwNow := s.hwNow ||| 2 ^ bit }
  m.setFld (healthReg l) 12 0 ((m.lanes.get l).hwNow ||| (m.lanes.get l).hwPrev)

/-- R16, R316: an F2 event of a lane: from this cycle the lane is not admitted, and a checkpoint being copied is spoilt. -/
def Mach.raiseF2 (m : Mach) (l : Lane) (code : Nat) (slot : Nat := 0xFF) (data : List Nat := []) : Mach :=
  (m.raise code 2 slot data l.origin).onLanes fun x s => { s with f2 := s.f2 || l == x, ckptSpoilt := true }

/-- R309: an F3 or F4 event for a slot reaches the lanes as an entry of KIND 10; what both lanes' pipelines find is one input,
and what a lane finds in a replayed tick stands in the journal already. -/
def Mach.accedeCause (m : Mach) (code slot origin : Nat) : Mach :=
  let waits := m.lane.waiting.any fun e => e.kind == 10 && e.src == slot && e.value == code && e.accTick == m.accTickNow
  if m.replayed origin || (origin != 0 && waits) then m else m.accede ⟨10, slot, 0, 0, code, []⟩

/-- R16, R309: an F3 event for a slot. -/
def Mach.raiseF3 (m : Mach) (code slot : Nat) (data : List Nat := []) (origin : Nat := 0) : Mach :=
  (m.raise code 3 slot data origin).accedeCause code slot origin

/-- DEV_OK of R483, in PWR_STATUS. -/
def Mach.setLines (m : Mach) : Mach :=
  let ok := m.pwr.bedrockOk && m.pwr.booted && !m.bit Reg.IMG_STATUS 27 &&
    !(m.mode == .safeHold && m.sys.holdByF4) && !m.pwr.crystalLost
  (m.setBit Reg.PWR_STATUS 6 ok).setBit Reg.PWR_STATUS 8 m.pwr.ascReq

/-- R485: Bedrock has failed, or R470 or an F4 SAFE_HOLD is in force: safe outputs are off and the charge lines open. -/
def Mach.linesOff (m : Mach) : Bool := !m.pwr.bedrockOk || m.pwr.crystalLost || (m.mode == .safeHold && m.sys.holdByF4)

/-- R16, R25, R309, R475: an F4 event demands SAFE_HOLD at the next boundary, and turns a SAFE_HOLD in force into one of F4; an
F4 event for a slot reaches the lanes as an entry of KIND 10. A request to leave the hold that waits then ends with refusal 7 at that
boundary, a point that the spec leaves open (log entry 15). -/
def Mach.raiseF4 (m : Mach) (code : Nat) (slot : Nat := 0xFF) (data : List Nat := []) (origin : Nat := 0) : Mach :=
  let m : Mach := m.raise code 4 slot data origin
  let hold := m.mode == .safeHold
  let m : Mach := m.onSys fun x => { x with f4 := some (x.f4.getD code), holdByF4 := x.holdByF4 || hold }
  let m : Mach := if slot = 0xFF then m else m.accedeCause code slot origin
  m.setLines

/-- An event whose class a field chooses: F0 to F4 by number, an F3 for its slot. -/
def Mach.raiseClass (m : Mach) (cls code slot : Nat) (data : List Nat := []) : Mach :=
  match cls with
  | 3 => m.raiseF3 code slot data
  | 4 => m.raiseF4 code slot data
  | c => m.raise code c slot data

/-! ### SYS records -/

/-- The bytes of an access. -/
def widthBytes : Width → Nat
  | .word => 4
  | .byte => 1
  | .half => 2
  | .wide => 8

/-- The record of event 0x0001 (R515). -/
def accessRecord (addr : Nat) (req : Requester) (write : Bool) (width : Width) (unaligned : Bool) (cause : Nat) : List Nat :=
  leBytes 5 addr ++ [req.code, write.toNat + 2 * width.code + 8 * unaligned.toNat, cause]

/-- R36, R515: event 0x0001; ACCESS of SYS_IRQ_STAT sets for causes 1 and 2. -/
def Mach.accessEvent (m : Mach) (addr : Nat) (req : Requester) (write : Bool) (width : Width) (unaligned : Bool) (cause : Nat) :
    Mach :=
  let m := m.raise 0x0001 0 0xFF (accessRecord addr req write width unaligned cause)
  if cause ≤ 2 then m.orr Reg.SYS_IRQ_STAT 8 else m

/-- The physical address of an offset in peripheral space (R6, R7). -/
def physical (a : Nat) : Nat := 0x0300000000 + a

/-- R515 cause 5: an invalid value written to the register at offset `a`. -/
def Mach.badValue (m : Mach) (who : Writer) (a : Nat) : Mach := m.accessEvent (physical a) who.requester true .word false 5

/-- R515 cause 3: a write to another lane's copy. -/
def Mach.foreignCopy (m : Mach) (who : Writer) (a : Nat) : Mach := m.accessEvent (physical a) who.requester true .word false 3

/-! ### Writes to device-wide registers (R302) -/

/-- What becomes of a write under R302. -/
inductive Route where
  | now
  | collect (l : Lane)
  | ignore
  deriving DecidableEq, Repr

/-- R302, R314: how a write to a device-wide register is handled. A lane that is not admitted has no effect outside itself. -/
def Mach.route (m : Mach) (l : Lane) : Route :=
  if m.pairedLive then
    if m.inTick l then .collect l
    else if m.active == l then .now
    else .ignore
  else if m.admitted l || (m.laneCode l == 0 && !m.tick.running) then .now
  else if m.inTick l then .collect l
  else .ignore

/-- R302: a write collected in the lane's write list of the tick. -/
def Mach.collect (m : Mach) (l : Lane) (a : Nat) (v : Word) : Mach :=
  m.onLane l fun s => { s with writeList := s.writeList ++ [(a, v)] }

/-- R302: a device-wide write of a lane: `eff` where it applies at once. The write list also holds what a lane writes in tick
context while the other is in SHADOW, for the comparison of R322 step 6. -/
def Mach.devWrite (m : Mach) (l : Lane) (a : Nat) (v : Word) (eff : Mach → Mach) : Mach :=
  match m.route l with
  | .now => eff (if m.inTick l && m.laneCode l.other == 5 then m.collect l a v else m)
  | .collect l => m.collect l a v
  | .ignore => m.incMod Reg.LANE_NETSTAT 15 0

/-- R302, R304: a write to a register that is an asynchronous input. -/
def Mach.asyncWrite (m : Mach) (l : Lane) (a : Nat) (v : Word) : Mach :=
  m.devWrite l a v fun m => m.accede ⟨1, 0, l.origin, physical a % 2 ^ 32, v.toNat, []⟩

/-- R300: a write to a duty of the service lane: the other lane's is ignored and counted. -/
def Mach.serviceWrite (m : Mach) (l : Lane) (a : Nat) (v : Word) (eff : Mach → Mach) : Mach :=
  if m.inTick l && m.pairedLive then m.collect l a v
  else if m.service == l && (m.admitted l || !m.tick.running) then eff m
  else m.incMod Reg.LANE_NETSTAT 15 0

/-- The same for any writer; the safety processor's writes are ignored where a chapter says so. -/
def Mach.laneOnly (m : Mach) (who : Writer) (f : Lane → Mach → Mach) : Mach :=
  match who with
  | .lane l => f l m
  | .safety => m

/-- R60, R133, R160, R188: a lane writes its own copy only; the other lane's write is ignored with event 0x0001. -/
def Mach.ownCopy (m : Mach) (who : Writer) (l : Lane) (a : Nat) (f : Mach → Mach) : Mach :=
  m.laneOnly who fun w m => if w = l then f m else m.foreignCopy (.lane w) a

/-! ### How a command ends -/

/-- The register file takes its one canonical form. -/
def Mach.settle (m : Mach) : Mach := { m with regs := settleRegs m.variant m.regs }

/-- Every command of the block that touches no memory: time moves to its cycle, `f` acts, and the register file takes its
canonical form. -/
def run (s : State) (cyc : Nat) (f : Mach → Mach) : Host.Outcome State Fault Refusal :=
  .next { s with m := (f (s.m.advanceTo cyc)).settle }

/-- A command that touches memory. -/
def runMem (s : State) (cyc : Nat) (f : Mach → List Host.Cell → Mach × List Host.Cell) : Host.Outcome State Fault Refusal :=
  .next { s with m := (f (s.m.advanceTo cyc) s.mem).1.settle, mem := (f (s.m.advanceTo cyc) s.mem).2 }

/-! ### Memory (R6) -/

/-- R6: the region of a physical address. -/
inductive Region where
  | dram | sram (l : Lane) | archive (l : Lane) | flash | peripheral | none
  deriving DecidableEq, Repr

/-- R6: the address map. -/
def regionOf (a : Nat) : Region :=
  if a < 0x100000000 then .dram
  else if 0x100000000 ≤ a ∧ a < 0x100200000 then .sram .a
  else if 0x100200000 ≤ a ∧ a < 0x100400000 then .sram .b
  else if 0x140000000 ≤ a ∧ a < 0x140040000 then .archive .a
  else if 0x140040000 ≤ a ∧ a < 0x140080000 then .archive .b
  else if 0x200000000 ≤ a ∧ a < 0x208000000 then .flash
  else if 0x300000000 ≤ a ∧ a < 0x300140000 then .peripheral
  else .none

/-- What a byte that no one has written reads as: erased flash reads 0xFF (R449), DRAM is filled with zeros at boot (R352),
and for the on-die memories the spec gives no contents (log entry 3). -/
def Memory.unlisted (a : Nat) : Byte := if regionOf a = .flash then 0xFF#8 else 0#8

/-- One byte of memory. -/
def Memory.read (mem : List Host.Cell) (a : Nat) : Byte := (Cells.get mem a).getD (Memory.unlisted a)

/-- One byte written; the canonical form is kept. -/
def Memory.write (mem : List Host.Cell) (a : Nat) (b : Byte) : List Host.Cell := Cells.put (Memory.unlisted a) a b mem

/-- The canonical form of memory: strictly rising addresses, no entry equal to what an unlisted byte reads as. -/
def Memory.wf (mem : List Host.Cell) : Bool := Cells.canonical Memory.unlisted mem

/-- `n` bytes from `a` on. -/
def Memory.readN (mem : List Host.Cell) (a n : Nat) : List Nat := (List.range n).map fun i => (Memory.read mem (a + i)).toNat

/-- Bytes written from `a` on, in order. -/
def Memory.writeL (mem : List Host.Cell) (a : Nat) : List Nat → List Host.Cell
  | [] => mem
  | b :: t => Memory.writeL (Memory.write mem a (BitVec.ofNat 8 b)) (a + 1) t

/-- Every byte from `a` to below `b` back to what an unlisted byte reads as (erased flash, zero-filled DRAM). -/
def Memory.clear (mem : List Host.Cell) (a b : Nat) : List Host.Cell := mem.filter fun c => !(decide (a ≤ c.1) && decide (c.1 < b))

/-- Flash-window offsets as physical addresses (R449). -/
def flashBase : Nat := 0x200000000

/-- Base of a lane's SRAM (R6). -/
def sramBase (l : Lane) : Nat := 0x100000000 + 0x200000 * l.ix

end Sys2Proof.Machine
end

