-- ==== Sys2Proof/Machine/Net.lean ====
section
/-! DEFINITION. The network ports and their flows, and the Sieve for outgoing messages (R317, R387 to R395). -/

namespace Sys2Proof.Machine

/-- The NET part changed. -/
def Mach.onNet (m : Mach) (f : NetState → NetState) : Mach := { m with net := f m.net }

/-- A port's queues. -/
def Mach.port (m : Mach) (p : Nat) : NetPort := nth m.net.ports p

/-- A NET interrupt, in both lanes alike (R395). -/
def Mach.netIrq (m : Mach) (bit : Nat) : Mach := m.orr Reg.NET_IRQ_STAT (2 ^ bit)

/-- Port p is enabled and boot has ended (R391, R394). -/
def Mach.portOn (m : Mach) (p : Nat) : Bool :=
  m.pwr.booted && (m.bit (Reg.NET_P_CFG p) 31 || (p == 0 && m.bit Reg.IMG_STATUS 27))

/-- The words of a flow (R394). -/
def Mach.flow (m : Mach) (f : Nat) : Word := m.rd (Reg.NET_FLOW_W0 f)

/-- The port of a flow. -/
def Mach.flowPort (m : Mach) (f : Nat) : Nat := (m.flow f).bits 25 23

/-- Flow `f` is an enabled transmit flow. -/
def Mach.txFlow (m : Mach) (f : Nat) : Bool := (m.flow f).bit 31 && (m.flow f).bit 30

/-! ### Latching a group (R13) -/

/-- R13: a reader's snapshot of a group replaced by these values; zero values are not listed. -/
def Mach.latch (m : Mach) (who lead : Nat) (vals : List (Nat × Word)) : Mach :=
  let rest := m.snaps.filter fun s => !(s.1 == who && s.2.1 == lead)
  { m with snaps := rest ++ (vals.filter fun v => v.2 != 0#32).map fun v => (who, lead, v.1, v.2) }

/-- R13: what a member reads as for a reader. -/
def Mach.latched (m : Mach) (who lead a : Nat) : Word :=
  match m.snaps.find? fun s => s.1 == who && s.2.1 == lead && s.2.2.1 == a with
  | some s => s.2.2.2
  | none => 0#32

/-! ### Transmission (R390) -/

/-- The longest payload of a port: 1,518 bytes without FCS on Ethernet (R387), 64 on a CAN FD port, 8 on classical CAN. -/
def Mach.portMax (m : Mach) (p : Nat) : Nat := if p < 3 then 1518 else if m.bit (Reg.NET_P_CFG p) 29 then 64 else 8

/-- R390: a message into the queue of its port, at most 32; a full queue discards it with 0x4C04. -/
def Mach.netQueue (m : Mach) (msg : TxMsg) : Mach :=
  let p := m.flowPort msg.flow
  if (m.port p).queue.length < 32 then
    m.onNet fun n => { n with ports := upd n.ports p fun x => { x with queue := x.queue ++ [msg] } }
  else (m.raise 0x4C04 0).netIrq 4

/-- R390: a refused transmission. -/
def Mach.txRefused (m : Mach) (l : Lane) : Mach := (m.raise 0x4C07 0 0xFF [] l.origin).netIrq 4

/-- R390, R302: a message of background code through a ring of port 3; whether it was sent. In paired arrangement the standby
lane's is ignored and counted. -/
def Mach.netBackground (m : Mach) (l : Lane) (param : Nat) (bytes : List Nat) : Bool × Mach :=
  let f := param % 64
  if m.portMax (m.flowPort f) < bytes.length || !m.txFlow f then (false, m.txRefused l)
  else if m.pairedLive && m.active != l then (true, m.incMod Reg.LANE_NETSTAT 15 0)
  else if m.admitted l then (true, m.netQueue ⟨f, bytes, m.seq, 0⟩)
  else (true, m.incMod Reg.LANE_NETSTAT 15 0)

/-- The bytes of a transmit slot. -/
def Mach.txSlot (m : Mach) (l : Lane) (s len : Nat) : List Nat :=
  ((List.range 16).flatMap fun w => leBytes 4 (m.rd (Reg.NET_L_TXBUF l.ix (16 * s + w))).toNat).take len

/-- R390: a write of NET_L_TXCMD; the message is a copy on its way to the Sieve, keyed by flow, tick and order. -/
def Mach.txCommand (m : Mach) (l : Lane) (v : Word) : Mach :=
  let used := m.fld (Reg.NET_L_TXSTAT l.ix) 2 0
  let f := v.bits 12 7
  if !v.bit 31 then m
  else if 64 < v.bits 6 0 then m.badValue (.lane l) (Reg.NET_L_TXCMD l.ix)
  else if !m.inTick l || 4 ≤ used || !m.txFlow f then m.txRefused l
  else
    let msg : TxMsg := ⟨f, m.txSlot l (v.bits 14 13) (v.bits 6 0), m.seq, used⟩
    let m := m.setFld (Reg.NET_L_TXSTAT l.ix) 2 0 (used + 1)
    let m := m.onLane l fun s => { s with msgs := s.msgs ++ [msg] }
    m.onNet fun n => { n with copies := n.copies ++ [(l, msg)] }

/-! ### The Sieve of outgoing messages (R317) -/

/-- A disagreement of the tick (R321); it spoils the checkpoints being copied (R310). -/
def Mach.dispute (m : Mach) (d : Dispute) : Mach :=
  (m.onLb fun b => { b with disputes := b.disputes ++ [d] }).onLanes fun _ s => { s with ckptSpoilt := true }

/-- R317: two copies carry one key. -/
def TxMsg.sameKey (x y : TxMsg) : Bool := x.flow == y.flow && x.tick == y.tick && x.order == y.order

/-- R317: a copy of a lane: sent, held for the other lane's, or compared with it. -/
def Mach.sieveMessage (m : Mach) (l : Lane) (msg : TxMsg) : Mach :=
  if !m.admitted l then m
  else if !m.pairJudged then m.netQueue msg
  else match m.net.held.find? fun h => h.msg.sameKey msg && h.lane != l with
    | some h =>
      if h.msg.data = msg.data then
        let m := m.onNet fun n => { n with held := n.held.filter fun x => !(x.msg.sameKey msg) }
        (if h.sent then m else m.netQueue msg).incMod Reg.LANE_NETSTAT 31 16
      else (m.onNet fun n => { n with held := n.held ++ [⟨msg, l, h.sent⟩] }).dispute .message
    | none =>
      let first := !(m.flow msg.flow).bit 28
      let m := if first then m.netQueue msg else m
      m.onNet fun n => { n with held := n.held ++ [⟨msg, l, first⟩] }

/-- R317: at a cutoff, the copies of the tick before that still wait: each is a missing copy. -/
def Mach.overdue (m : Mach) : List HeldMsg := m.net.held.filter fun h => decide (h.msg.tick < m.seq)

/-- R317, R321: after the judgement, two copies that differ and the copies overdue leave; one not yet sent goes out unless its
lane is wrong, and of two that differ only that of a lane found right. -/
def Mach.releaseHeld (m : Mach) : Mach :=
  let clash (h : HeldMsg) := m.net.held.any fun x => x.msg.sameKey h.msg && x.lane != h.lane
  let late (h : HeldMsg) := decide (h.msg.tick < m.seq)
  let wrong (l : Lane) := (m.lanes.get l).wrong
  let go := m.net.held.filter fun h => (clash h && wrong h.lane.other && !wrong h.lane) || (!clash h && late h && !wrong h.lane)
  let m := m.onNet fun n => { n with held := n.held.filter fun h => !clash h && !late h }
  forL go (fun h m => if h.sent then m else m.netQueue h.msg) m

/-! ### Reception (R388, R389) -/

/-- What a received frame is matched by: EtherType and VLAN ID, or the CAN identifier with its 29-bit flag. -/
structure RxKey where
  etype : Nat
  vid : Option Nat
  ide : Bool
  id : Nat
  deriving DecidableEq, Repr, Inhabited

/-- R388, R394: flow `f` takes a frame of port `p`. -/
def Mach.flowMatches (m : Mach) (p f : Nat) (k : RxKey) : Bool :=
  let w0 := m.flow f
  let w1 := m.rd (Reg.NET_FLOW_W1 f)
  let shift := 8 * w1.bits 30 29
  w0.bit 31 && !w0.bit 30 && w0.bits 25 23 == p &&
    (if p < 3 then w0.bits 15 0 == k.etype && (w1.bits 31 20 == 0xFFF || some (w1.bits 31 20) == k.vid)
     else w1.bit 31 == k.ide && w1.bits 28 0 >>> shift == k.id >>> shift)

/-- R387: the destination address is one that the port accepts; CAN frames carry none. -/
def Mach.macAccepts (m : Mach) (p : Nat) (payload : List Nat) : Bool :=
  let d := payload.take 6
  if 3 ≤ p then true
  else if d = List.replicate 6 0xFF then true
  else if d.headD 0 % 2 = 1 then m.bit (Reg.NET_P_CFG p) 28
  else d == leBytes 4 (m.rd (Reg.NET_P_MACLO p)).toNat ++ leBytes 2 (m.fld (Reg.NET_P_MACHI p) 15 0)

/-- R389: the stream record of a frame. -/
def rxRecord (stamp p f : Nat) (k : RxKey) (fdf brs esi : Bool) (payload : List Nat) : List Nat :=
  let id := if 3 ≤ p then k.id + 2 ^ 31 * k.ide.toNat else 0
  leBytes 8 stamp ++ leBytes 4 id ++ leBytes 2 payload.length ++
    [f, p + 8 * fdf.toNat + 16 * brs.toNat + 32 * esi.toNat] ++ payload

/-- An input whose arrival stamp is not this instant (R388). -/
def Mach.accedeStamped (m : Mach) (stamp : Nat) (i : AsyncIn) : Mach :=
  let now := m.time.t
  ((m.onTime fun t => { t with t := stamp }).accede i).onTime fun t => { t with t := now }

/-- R388: a received frame: to the safety processor, accessioned, to the rings of the admitted lanes, or discarded. -/
def Mach.receive (m : Mach) (p stamp : Nat) (k : RxKey) (fdf brs esi : Bool) (payload : List Nat) : Mach :=
  let drop (m : Mach) := m.incSat (Reg.NET_P_CNT p) 15 0
  let ok (m : Mach) := m.incMod (Reg.NET_P_CNT p) 31 16
  match (List.range 64).find? fun f => m.flowMatches p f k with
  | none => drop m
  | some f =>
    let w0 := m.flow f
    if w0.bit 27 then ok (m.onNet fun n => { n with safetyInbox := n.safetyInbox ++ [(f, payload)] })
    else if w0.bit 29 && decide (64 < payload.length) then drop ((m.raise 0x4C03 0).netIrq 1)
    else
      let m := if w0.bit 29 then m.accedeStamped stamp ⟨5, f, 0, 0, payload.length, payload⟩ else m
      let rings := [Lane.a, .b].filter fun l => m.admitted l && m.fld (Reg.DMA_R_CFG l.ix (w0.bits 19 16)) 27 25 == 2
      let rec_ := rxRecord stamp p f k fdf brs esi payload
      ok (m.onOffers fun x => x ++ rings.map fun l => ⟨l, w0.bits 19 16, 2, rec_⟩)

/-! ### The NET rows -/

/-- OUTGOING_MESSAGE_SIEVE (R317): the oldest copy of a lane reaches the Sieve. -/
def execOutgoingMessageSieve (cyc : Nat) (lane : Lane) (s : State) : Host.Outcome State Fault Refusal :=
  run s cyc fun m =>
    match m.net.copies.find? fun c => c.1 == lane with
    | some c => ((m.onNet fun n => { n with copies := n.copies.erase c })).sieveMessage lane c.2
    | none => m

/-- FRAME_RECEIVE (R388): `ago` is how long before this instant the frame's timestamp point lay, in units of R376. -/
def execFrameReceive (cyc : Nat) (p : Fin 7) (ago : Nat) (etype : Nat) (vid : Option Nat) (ide : Bool) (id : Nat) (fdf : Bool)
    (brs : Bool) (esi : Bool) (payload : List Nat) (s : State) : Host.Outcome State Fault Refusal :=
  run s cyc fun m =>
    if m.portOn p && m.mode != .sleep && m.macAccepts p payload then
      m.receive p (m.now - ago) ⟨etype, vid, ide, id⟩ fdf brs esi payload
    else m

/-- TICK_MESSAGE_SEND (R390). -/
def execTickMessageSend (cyc : Nat) (who : Writer) (lane : Lane) (value : Word) (s : State) : Host.Outcome State Fault Refusal :=
  run s cyc fun m => m.ownCopy who lane (Reg.NET_L_TXCMD lane.ix) fun m => m.txCommand lane value

/-- The first of the messages with the greatest PRIO (R387). -/
def bestMsg (prio : TxMsg → Nat) : List TxMsg → Option TxMsg
  | [] => none
  | x :: t => match bestMsg prio t with
    | some y => if prio x < prio y then some y else some x
    | none => some x

/-- R390: the message sent next on a port, with the port's queue after it. -/
def Mach.transmit (m : Mach) (p : Nat) (stamp : Nat) : Mach :=
  match bestMsg (fun x => (m.flow x.flow).bits 22 20) (m.port p).queue with
  | none => m
  | some x =>
    let count := (nth m.net.flowCount x.flow + 1) % 2 ^ 16
    let m := m.onNet fun n => { n with
      flowCount := upd n.flowCount x.flow fun _ => count,
      ports := upd n.ports p fun q => { q with queue := q.queue.erase x } }
    if (m.flow x.flow).bit 26 then
      (m.onNet fun n => { n with ports := upd n.ports p fun q =>
        let t := q.txts ++ [(x.flow, count, stamp)]
        { q with txts := t.drop (t.length - 16) } }).netIrq 2
    else m

/-- FRAME_TRANSMIT (R390): `ago` as in FRAME_RECEIVE. -/
def execFrameTransmit (cyc : Nat) (p : Fin 7) (ago : Nat) (s : State) : Host.Outcome State Fault Refusal :=
  run s cyc fun m => if m.portOn p && (m.mode != .sleep || m.bit Reg.IMG_STATUS 27) then m.transmit p (m.now - ago) else m

/-- R394: NET_P_TXTS_INFO read by `who`: the group is latched and the oldest entry leaves the FIFO. -/
def Mach.stampRead (m : Mach) (who p : Nat) : Mach :=
  let e := (m.port p).txts.head?
  let info := match e with
    | some t => BitVec.ofNat 32 (2 ^ 31 + t.1 * 2 ^ 16 + t.2.1)
    | none => 0#32
  let ts := match e with
    | some t => t.2.2
    | none => 0
  let lo := BitVec.ofNat 32 ts
  let hi := BitVec.ofNat 32 (ts / 2 ^ 32)
  let a := Reg.NET_P_TXTS_INFO p
  let m := m.latch who a [(a, info), (Reg.NET_P_TXTS_LO p, lo), (Reg.NET_P_TXTS_HI p, hi)]
  let m := m.onNet fun n => { n with ports := upd n.ports p fun q => { q with txts := q.txts.drop 1 } }
  m.say (.data info)

/-- TRANSMIT_STAMP_READ (R394). -/
def execTransmitStampRead (cyc : Nat) (who : Writer) (p : Fin 7) (s : State) : Host.Outcome State Fault Refusal :=
  run s cyc fun m => m.stampRead who.ix p

/-- LINK_STATE_CHANGE (R394, R396): an Ethernet link. -/
def execLinkStateChange (cyc : Nat) (p : Fin 3) (up : Bool) (s : State) : Host.Outcome State Fault Refusal :=
  run s cyc fun m =>
    if !m.portOn p then m
    else
      let m := (m.setBit Reg.NET_STATUS (8 + p) up).setFld (Reg.NET_P_STAT p) 1 0 (if up then 0 else 3)
      (if up then m.raise 0x4C02 0 else m.raise 0x4C01 1 0xFF [p]).netIrq 0

/-- CAN_ERROR_STATE_CHANGE (R387, R394, R396): 0 active, 1 passive, 2 bus-off. -/
def execCanErrorStateChange (cyc : Nat) (c : Fin 4) (st : Fin 3) (tec : BitVec 8) (rec_ : BitVec 8) (s : State) :
    Host.Outcome State Fault Refusal :=
  run s cyc fun m =>
    let p := 3 + c.val
    if !m.portOn p then m
    else
      let m := ((m.setFld (Reg.NET_P_STAT p) 31 24 tec.toNat).setFld (Reg.NET_P_STAT p) 23 16 rec_.toNat).setFld
        (Reg.NET_P_STAT p) 1 0 st
      let m := m.setBit Reg.NET_STATUS (8 + p) (st.val == 0)
      if st.val = 1 then (m.raise 0x4C05 1).netIrq 3
      else if st.val = 2 then (m.raise 0x4C06 1).netIrq 3
      else m

/-- PLCA_BEACON_LOST (R396): no beacon on port 2 for 10 ms. -/
def execPlcaBeaconLost (cyc : Nat) (s : State) : Host.Outcome State Fault Refusal :=
  run s cyc fun m =>
    if m.portOn 2 && m.bit (Reg.NET_P_CFG 2) 27 then (m.raise 0x4C08 1).netIrq 5 else m

end Sys2Proof.Machine
end

