-- ==== Sys2Proof/Machine/Dma.lean ====
section
/-! DEFINITION. The memory and its errors, the translation of the DTU, the DMA rings and the check-value units (R346 to
R375). -/

namespace Sys2Proof.Machine

/-! ### Accessors -/

/-- The memory, the rings and the check-value units run: not in SLEEP, nor without power (R350, R352). -/
def Mach.dmaRuns (m : Mach) : Bool := m.mode != .sleep && m.pwr.phase == .up

/-- The DMA part changed. -/
def Mach.onDma (m : Mach) (f : DmaState → DmaState) : Mach := { m with dma := f m.dma }

/-- A lane's engines changed. -/
def Mach.onDmaLane (m : Mach) (l : Lane) (f : DmaLane → DmaLane) : Mach :=
  m.onDma fun d => { d with lanes := d.lanes.set l (f (d.lanes.get l)) }

/-- A ring's engine. -/
def Mach.ring (m : Mach) (l : Lane) (r : Nat) : DmaRing := nth (m.dma.lanes.get l).rings r

/-- A ring's engine changed. -/
def Mach.onRing (m : Mach) (l : Lane) (r : Nat) (f : DmaRing → DmaRing) : Mach :=
  m.onDmaLane l fun d => { d with rings := upd d.rings r f }

/-- The state of a ring: 0 DISABLED, 1 RUNNING, 2 FAULTED, 3 HALTED (R371). -/
def Mach.ringState (m : Mach) (l : Lane) (r : Nat) : Nat := m.fld (Reg.DMA_R_STAT l.ix r) 15 14

/-- A ring takes a state. -/
def Mach.setRing (m : Mach) (l : Lane) (r c : Nat) : Mach := m.setFld (Reg.DMA_R_STAT l.ix r) 15 14 c

/-- The entries of a ring's queues: 2 to 4,096 (R371). -/
def Mach.ringSize (m : Mach) (l : Lane) (r : Nat) : Nat := min (2 ^ (m.fld (Reg.DMA_R_CFG l.ix r) 17 14 + 1)) 4096

/-- A physical base of 32-byte entries (R371). -/
def Mach.base40 (m : Mach) (lo hi : Nat) : Nat := (m.rd lo).toNat / 32 * 32 + 2 ^ 32 * m.fld hi 7 0

/-- A bit of a ring's interrupt status (R371). -/
def Mach.ringIrq (m : Mach) (l : Lane) (r bit : Nat) : Mach := m.orr (Reg.DMA_R_IRQ l.ix r) (2 ^ bit)

/-- A memory interrupt in both lanes' copies (R372). -/
def Mach.memIrq (m : Mach) (bit : Nat) : Mach := m.orrBoth Reg.DMA_L_IRQ_STAT (2 ^ bit)

/-- The counts that the ring and lane registers show (R371). -/
def Mach.dmaShow (m : Mach) (l : Lane) (r : Nat) : Mach :=
  let g := m.ring l r
  let m := (m.setFld (Reg.DMA_R_STAT l.ix r) 13 6 g.parked.length).setFld (Reg.DMA_R_STAT l.ix r) 5 0 g.out.length
  let rs := (m.dma.lanes.get l).rings
  let rd := (rs.map fun g => (g.out.filter fun t => !t.reads.isEmpty).length).sum
  let wr := (rs.map fun g => (g.out.filter fun t => !t.writes.isEmpty).length).sum
  let m := (m.setFld (Reg.DMA_L_STATUS l.ix) 24 16 wr).setFld (Reg.DMA_L_STATUS l.ix) 8 0 rd
  m.setFld (Reg.DMA_L_FSTAT l.ix) 9 0 (rs.map fun g => g.parked.length).sum

/-! ### Memory parts and errors (R347 to R350) -/

/-- R348: the lane whose DRAM part holds an address; `none` for the shared part. -/
def Mach.partOf (m : Mach) (a : Nat) : Option Lane :=
  let ap := m.fld Reg.DMA_MEMCFG 7 0 * 2 ^ 26
  let bp := m.fld Reg.DMA_MEMCFG 15 8 * 2 ^ 26
  if a < ap then some .a else if a < ap + bp then some .b else none

/-- R348: whether a lane's processor, rings and units may reach a physical address. -/
def Mach.dmaReach (m : Mach) (l : Lane) (write : Bool) (a : Nat) : Bool :=
  match regionOf a with
  | .dram => match m.partOf a with
    | some o => o == l
    | none => true
  | .sram o => o == l
  | .flash => !write
  | _ => false

/-- An error's address and detail (R371). -/
def Mach.eccInfo (m : Mach) (a : Nat) (unc : Bool) (req sym : Nat) : Mach :=
  ((m.wrN Reg.DMA_ECCADDR_LO a).setFld Reg.DMA_ECCADDR_HI 7 0 (a / 2 ^ 32)).wrN Reg.DMA_ECCINFO
    (unc.toNat * 2 ^ 31 + req % 8 * 2 ^ 28 + sym % 64 * 2 ^ 22)

/-- R349: at most one event a millisecond. -/
def pastMs (now : Nat) (t : Option Nat) : Bool :=
  match t with
  | some t => decide (t + 2000000 ≤ now)
  | none => true

/-- R346, R349: a corrected DRAM error. -/
def Mach.dramCorrected (m : Mach) (req a sym : Nat) : Mach :=
  let m := ((m.incSat Reg.DMA_ECCSTAT 15 0).eccInfo a false req sym).memIrq 0
  if pastMs m.now m.dma.corrAt then (m.raise 0x3401 0).onDma fun d => { d with corrAt := some m.now } else m

/-- R349: the uncorrectable codewords of the last millisecond with one more; distinct addresses count once. -/
def uncAdd (now cw : Nat) (l : List (Nat × Nat)) : List (Nat × Nat) :=
  (cw, now) :: l.filter fun x => x.1 != cw && !pastMs now (some x.2)

/-- R349: whom an uncorrectable DRAM error is laid to. -/
def Mach.dramBlame (m : Mach) (a : Nat) : Mach :=
  match m.partOf a with
  | some l => (m.raiseF2 l 0x3402 0xFF (l.ix :: leBytes 5 a)).health l 5
  | none => m.raise 0x3403 1

/-- R347: a codeword poisoned. -/
def Mach.poisonWord (m : Mach) (cw : Nat) : Mach :=
  m.onDma fun d => { d with
    poison := if d.poison.contains cw then d.poison else cw :: d.poison, unc := uncAdd m.now cw d.unc }

/-- R347, R349: an uncorrectable DRAM error: the codeword is poisoned, and the error attributed by part. -/
def Mach.dramPoison (m : Mach) (req a : Nat) : Mach :=
  let m : Mach := ((m.incSat Reg.DMA_ECCSTAT 31 16).eccInfo a true req 0).memIrq 1
  let m : Mach := (m.poisonWord (a / 32)).dramBlame a
  if m.dma.unc.length = 8 then m.raiseF4 0x340B else m

/-- A byte range touches a poisoned codeword; only DRAM holds any. -/
def Mach.poisoned (m : Mach) (a n : Nat) : Bool :=
  m.dma.poison.any fun c => decide (c * 32 < a + n) && decide (a < c * 32 + 32)

/-- R347, R349: a read of `n` bytes meets poison: every poisoned codeword among them reports again; the requester as DMA_ECCINFO.REQ
codes it. -/
def Mach.poisonRead (m : Mach) (req a n : Nat) : Mach :=
  forL ((List.range ((a + n + 31) / 32 - a / 32)).filter fun i => m.dma.poison.contains (a / 32 + i))
    (fun i m => m.dramPoison req (32 * (a / 32 + i))) m

/-- DMA_ECCINFO.REQ of a lane's rings (R371). -/
def dmaReq (l : Lane) : Nat := 3 + l.ix

/-- Bytes cut at codeword borders, each piece with its address. -/
def codewords : Nat → Nat → List Nat → List (Nat × List Nat)
  | 0, _, _ => []
  | n + 1, a, bytes =>
    if bytes.isEmpty then []
    else
      let k := 32 - a % 32
      (a, bytes.take k) :: codewords n (a + k) (bytes.drop k)

/-- R346, R347: bytes written to memory codeword by codeword: a whole codeword clears its poison, and a part of a poisoned one
is not written, its merge read reporting the poison; the pieces written are given by their place in `bytes`. -/
def Mach.dmaWrite (m : Mach) (mem : List Host.Cell) (req a : Nat) (bytes : List Nat) :
    List (Nat × List Nat) × Mach × List Host.Cell :=
  (codewords (bytes.length + 1) a bytes).foldl (fun x p =>
    let done := x.1 ++ [(p.1 - a, p.2)]
    if x.2.1.poisoned p.1 p.2.length then
      if p.2.length = 32 then
        (done, x.2.1.onDma fun d => { d with poison := d.poison.erase (p.1 / 32) }, Memory.writeL x.2.2 p.1 p.2)
      else (x.1, x.2.1.poisonRead req p.1 p.2.length, x.2.2)
    else (done, x.2.1, Memory.writeL x.2.2 p.1 p.2)) ([], m, mem)

/-! ### Translation (R353, R354, R362) -/

/-- What the DTU answers: a physical address, or a cause of R364; with cause WALK, the address of the entry that is poisoned. -/
structure Xlate where
  pa : Nat
  cause : Nat
  fill : Option TlbEntry
  deriving DecidableEq, Repr, Inhabited

/-- The physical address of a leaf (R354). -/
def leafPa (level pte va : Nat) : Nat := pte / 2 ^ 10 % 2 ^ 44 * 2 ^ 12 + va % 2 ^ (12 + 9 * level)

/-- R362: the permission of a leaf: READ, WRITE, ACCESSED, DIRTY or none. -/
def leafCause (pte : Nat) (write : Bool) : Nat :=
  if !write && !pte.testBit 1 then 2
  else if write && !pte.testBit 2 then 3
  else if !pte.testBit 6 then 4
  else if write && !pte.testBit 7 then 5
  else 0

/-- R354: the walk from a table at physical page `ppn`; `level` counts down. -/
def Mach.walk (m : Mach) (mem : List Host.Cell) (c asid va : Nat) (write : Bool) : Nat → Nat → Xlate
  | level, ppn =>
    let a := ppn * 2 ^ 12 + va / 2 ^ (12 + 9 * level) % 2 ^ 9 * 8
    if regionOf a ≠ .dram then ⟨va, 9, none⟩
    else if m.poisoned a 8 then ⟨a, 10, none⟩
    else
      let pte := ofLeBytes (Memory.readN mem a 8)
      if !pte.testBit 0 then ⟨va, 1, none⟩
      else if pte / 2 ^ 54 ≠ 0 ∨ (!pte.testBit 1 ∧ pte.testBit 2) then ⟨va, 7, none⟩
      else if pte.testBit 1 || pte.testBit 3 then
        if 2 ≤ level then ⟨va, 6, none⟩
        else if level = 1 ∧ pte / 2 ^ 10 % 2 ^ 9 ≠ 0 then ⟨va, 7, none⟩
        else
          let e : TlbEntry := ⟨c, asid, va / 2 ^ 12 % 2 ^ 27, level, pte⟩
          ⟨leafPa level pte va, leafCause pte write, if leafCause pte write = 0 then some e else none⟩
      else
        match level with
        | 0 => ⟨va, 1, none⟩
        | n + 1 => m.walk mem c asid va write n (pte / 2 ^ 10 % 2 ^ 44)

/-- R354: an IOTLB entry translates a page of a context. -/
def TlbEntry.hits (e : TlbEntry) (c asid va : Nat) : Bool :=
  e.ctx == c && e.asid == asid && e.vpn / 2 ^ (9 * e.level) == va / 2 ^ (12 + 9 * e.level) % 2 ^ (27 - 9 * e.level)

/-- R348, R354, R362: an address of context `c` translated. -/
def Mach.translate (m : Mach) (mem : List Host.Cell) (l : Lane) (c va : Nat) (write : Bool) : Xlate :=
  let hi := m.rd (Reg.DMA_L_CTX_HI l.ix c)
  let phys (x : Xlate) : Xlate := if x.cause = 0 ∧ !m.dmaReach l write x.pa then { x with cause := 9 } else x
  if hi.bits 31 28 ≠ 8 then phys ⟨va, 0, none⟩
  else if va / 2 ^ 39 ≠ (if va.testBit 38 then 2 ^ 25 - 1 else 0) then ⟨va, 8, none⟩
  else match (m.dma.lanes.get l).iotlb.find? fun e => e.hits c (hi.bits 15 0) va with
    | some e => phys ⟨leafPa e.level e.pte va, leafCause e.pte write, none⟩
    | none => phys (m.walk mem c (hi.bits 15 0) va write 2 (m.fld (Reg.DMA_L_CTX_LO l.ix c) 27 0))

/-- R354: a translation cached; the oldest of 128 gives way. -/
def Mach.cacheXlate (m : Mach) (l : Lane) (x : Xlate) : Mach :=
  match x.fill with
  | some e => m.onDmaLane l fun d => { d with iotlb := (e :: d.iotlb).take 128 }
  | none => m

/-- The page parts of a range: start and length (R362). -/
def pageParts (va n : Nat) : List (Nat × Nat) :=
  let k := 4096 - va % 4096
  if n = 0 then [] else if n ≤ k then [(va, n)] else [(va, k), (va + k, n - k)]

/-- R362: page parts translated in order: the physical parts, and the first fault with its address. -/
def Mach.translateParts (m : Mach) (mem : List Host.Cell) (l : Lane) (c : Nat) (write : Bool) :
    List (Nat × Nat) → List (Nat × Nat) × Option (Nat × Nat) × Mach
  | [] => ([], none, m)
  | p :: t =>
    let x := m.translate mem l c p.1 write
    if x.cause ≠ 0 then ([], some (x.cause, p.1), if x.cause = 10 then m.poisonRead (dmaReq l) x.pa 8 else m)
    else
      let r := (m.cacheXlate l x).translateParts mem l c write t
      ((x.pa, p.2) :: r.1, r.2)

/-! ### Fault records (R363, R364) -/

/-- R363, R364: a record into the lane's fault ring, or lost. -/
def Mach.faultRecord (m : Mach) (mem : List Host.Cell) (l : Lane) (va src cause ctx parked index tag done : Nat) :
    Mach × List Host.Cell :=
  let body := leBytes 8 m.now ++ leBytes 8 va ++ [src, cause, ctx, parked] ++ leBytes 2 index ++ leBytes 2 tag ++ leBytes 4 done
  let n := 2 ^ min (m.fld (Reg.DMA_L_FRCFG l.ix) 3 0) 10
  let h := m.fld (Reg.DMA_L_FRHEAD l.ix) 9 0 % n
  if (h + 1) % n = m.fld (Reg.DMA_L_FRTAIL l.ix) 9 0 % n then
    (((m.incSat (Reg.DMA_L_FSTAT l.ix) 31 16).raise 0x3407 0 0xFF [] l.origin).orr (Reg.DMA_L_IRQ_STAT l.ix) 8, mem)
  else
    let a := m.base40 (Reg.DMA_L_FRBASE_LO l.ix) (Reg.DMA_L_FRBASE_HI l.ix) + 32 * h
    let m := m.setFld (Reg.DMA_L_FRHEAD l.ix) 9 0 ((h + 1) % n)
    (m.dmaWrite mem (dmaReq l) a (body ++ leBytes 4 (crc32c body))).2

/-! ### Descriptors and completion (R355 to R360) -/

/-- R355, R356: a descriptor as it stands in memory. -/
def Mach.readDesc (m : Mach) (mem : List Host.Cell) (l : Lane) (r seq index : Nat) : DmaDesc :=
  let cfg := m.rd (Reg.DMA_R_CFG l.ix r)
  let b := Memory.readN mem (m.base40 (Reg.DMA_R_BASE_LO l.ix r) (Reg.DMA_R_BASE_HI l.ix r) + 32 * index) 32
  let f (o n : Nat) := ofLeBytes ((b.drop o).take n)
  let op := f 22 1
  let port := cfg.bits 27 25
  let len := f 16 4
  let badPort := (op == 2 && !(port == 1 || port == 2 || port == 4)) || (op == 3 && !(port == 3 || port == 5))
  let bad := decide (4 < op) || (op != 4 && (len == 0 || decide (16777216 < len))) || badPort || decide (4 ≤ f 23 1) ||
    (cfg.bit 22 && f 28 4 != crc32c (b.take 28))
  ⟨seq, index, f 0 8, f 8 8, len, f 20 2, op, f 23 1, f 24 4, bad⟩

/-- R355: the ring fetches what is posted. -/
def Mach.fetchRing (m : Mach) (mem : List Host.Cell) (l : Lane) (r : Nat) : Mach :=
  let n := m.ringSize l r
  let g := m.ring l r
  let start := m.fld (Reg.DMA_R_HEAD l.ix r) 11 0 + g.fetched.length
  let count := (m.fld (Reg.DMA_R_TAIL l.ix r) 11 0 + n - start % n) % n
  if m.ringState l r ≠ 1 then m
  else
    let ds := (List.range count).map fun i => m.readDesc mem l r (g.nextSeq + i) ((start + i) % n)
    m.onRing l r fun g => { g with fetched := g.fetched ++ ds, nextSeq := g.nextSeq + count }

/-- R366: DMA_R_HEAD moves past a descriptor. -/
def Mach.headPast (m : Mach) (l : Lane) (r : Nat) (d : DmaDesc) : Mach :=
  m.setFld (Reg.DMA_R_HEAD l.ix r) 11 0 ((d.index + 1) % m.ringSize l r)

/-- The bytes moved by a descriptor, in address order (R358). -/
def DmaActive.moved (a : DmaActive) : List Nat :=
  (a.chunks.mergeSort fun x y => decide (x.1 ≤ y.1)).flatMap (·.2)

/-- R304, R360: a completion on an accessioned ring: taken alone, or once both lanes have completed the same descriptor. -/
def Mach.accCompletion (m : Mach) (l : Lane) (r index crc : Nat) (rec_ : List Nat) : Mach :=
  let input (rec_ : List Nat) : AsyncIn := ⟨6, r, 0, 0, crc, rec_⟩
  if !m.pairJudged then if m.admitted l then m.accede (input rec_) else m
  else match m.dma.acc.find? fun x => x.ring == r && x.index == index && x.lane != l with
    | some x =>
      let m := m.onDma fun d => { d with acc := d.acc.erase x }
      if x.crc = crc then m.accede (input (if m.active = l then rec_ else x.record)) else m.dispute .entry
    | none => m.onDma fun d => { d with acc := d.acc ++ [⟨l, r, index, m.time.cyc, crc, rec_, m.seq⟩] }

/-- R358: a descriptor completes: its record waits for the completion queue, and its data reaches a port. -/
def Mach.finishDesc (m : Mach) (l : Lane) (r : Nat) (a : DmaActive) : Mach :=
  let d := a.desc
  let moved := a.moved
  let port := m.fld (Reg.DMA_R_CFG l.ix r) 27 25
  let sent := if d.op = 3 ∧ port = 3 ∧ a.status = 0 then m.netBackground l d.param moved else (true, m)
  let m := sent.2
  let moved := if sent.1 then moved else []
  let m : Mach := if d.op = 3 ∧ port = 5 ∧ a.status = 0 then
    m.onDma fun x => { x with port5 := x.port5 ++ [⟨l, r, d.param, moved⟩] } else m
  let issue : Nat × Mach := match a.issueAt with
    | some t => (t, m)
    | none => m.freeVal 64
  let m := issue.2
  let rec_ := leBytes 8 m.now ++ leBytes 8 issue.1 ++ leBytes 2 d.index ++ leBytes 2 d.tag ++ [a.status, l.ix * 16 + r] ++
    leBytes 2 (min a.parks 0xFFFF) ++ leBytes 4 moved.length ++ leBytes 4 (crc32c moved)
  let m := m.onRing l r fun g => { g with
    active := g.active.filter fun x => x.desc.seq != d.seq
    ready := g.ready ++ [(d.seq, rec_, d.flags % 2 == 1)] }
  if m.bit (Reg.DMA_R_CFG l.ix r) 23 then m.accCompletion l r d.index (crc32c moved) rec_ else m

/-- A descriptor that begins (R355, R357). -/
def Mach.beginDesc (m : Mach) (l : Lane) (r : Nat) (d : DmaDesc) (data : List Nat) (len status : Nat) : Mach :=
  (m.onRing l r fun g => { g with
    fetched := g.fetched.drop 1, active := g.active ++ [⟨d, 0, none, data, len, status, 0, []⟩] }).headPast l r d

/-- R356: a descriptor error at the head of a running ring. -/
def Mach.descError (m : Mach) (l : Lane) (r : Nat) (d : DmaDesc) : Mach :=
  let m := ((m.beginDesc l r d [] 0 3).finishDesc l r ⟨d, 0, none, [], 0, 3, 0, []⟩).setRing l r 3
  (m.raise 0x3409 1 0xFF [] l.origin).ringIrq l r 2

/-- R355, R356: one thing that follows of itself on a ring: a FENCE completes once nothing earlier is left; at the head of a running
ring a FENCE begins, and a descriptor error completes with DESCERR and halts the ring. -/
def Mach.settleOne (m : Mach) (l : Lane) (r : Nat) : Option Mach :=
  let g := m.ring l r
  match (g.active.head?).filter fun a => a.desc.op == 4 with
  | some a => some (m.finishDesc l r a)
  | none => match g.fetched.head? with
    | some d =>
      if m.ringState l r ≠ 1 then none
      else if d.bad then some (m.descError l r d)
      else if d.op = 4 then some (m.beginDesc l r d [] 0 0)
      else none
    | none => none

/-- At most so many of them. -/
def Mach.settleSteps (m : Mach) (l : Lane) (r : Nat) : Nat → Mach
  | 0 => m
  | n + 1 => match m.settleOne l r with
    | some m => m.settleSteps l r n
    | none => m

/-- All of them: each descriptor begins once and completes once. -/
def Mach.settleRing (m : Mach) (l : Lane) (r : Nat) : Mach :=
  m.settleSteps l r (2 * ((m.ring l r).fetched.length + (m.ring l r).active.length))

/-- A descriptor with nothing more to issue and nothing outstanding completes (R358). -/
def Mach.endDesc (m : Mach) (l : Lane) (r seq : Nat) : Mach :=
  let g := m.ring l r
  match g.active.find? fun a => a.desc.seq == seq with
  | some a =>
    if a.issued < a.len ∨ g.out.any (fun t => t.seq == seq) ∨ g.parked.any (fun t => t.seq == seq) then m
    else (m.finishDesc l r a).settleRing l r
  | none => m

/-! ### Issue (R357, R362) -/

/-- R359: the completion queue has a free entry. -/
def Mach.cqFree (m : Mach) (l : Lane) (r : Nat) : Bool :=
  let n := m.ringSize l r
  decide ((m.fld (Reg.DMA_R_CQHEAD l.ix r) 11 0 + 1) % n ≠ m.fld (Reg.DMA_R_CQTAIL l.ix r) 11 0 % n)

/-- The descriptor whose transaction a ring would issue next: one under way, else the one at the head. A STREAM_IN descriptor
begins with its record only. -/
def Mach.nextWork (m : Mach) (l : Lane) (r : Nat) : Option (Bool × DmaDesc) :=
  let g := m.ring l r
  if m.ringState l r ≠ 1 ∨ !m.cqFree l r ∨ 32 ≤ g.out.length then none
  else match g.active.find? fun a => decide (a.issued < a.len) with
    | some a => some (true, a.desc)
    | none => match g.fetched.head? with
      | some d => if d.bad ∨ d.op = 4 ∨ d.op = 2 ∨ (2 ≤ d.flags ∧ !g.active.isEmpty) then none else some (false, d)
      | none => none

/-- R357: reads or writes outstanding in the lane and in the device leave room for `n` more transactions of an OP. -/
def Mach.dmaRoom (m : Mach) (l : Lane) (op n : Nat) : Bool :=
  let count (l : Lane) := ((m.dma.lanes.get l).rings.map fun g => g.out.length).sum
  let reads := op == 0 || op == 3
  let writes := op != 3
  (!reads || decide (m.fld (Reg.DMA_L_STATUS l.ix) 8 0 + n ≤ 256)) &&
    (!writes || decide (m.fld (Reg.DMA_L_STATUS l.ix) 24 16 + n ≤ 256)) && decide (count .a + count .b + n ≤ 1024)

/-- R357: the ring that the engine serves: the highest PRIO with work, round robin within it. -/
def Mach.chooseRing (m : Mach) (l : Lane) : Option Nat :=
  [3, 2, 1, 0].findSome? fun p =>
    let last := nth (m.dma.lanes.get l).served p
    ((List.range 16).map fun i => (last + 1 + i) % 16).find? fun r =>
      m.fld (Reg.DMA_R_CFG l.ix r) 21 20 == p && (m.nextWork l r).any fun w => m.dmaRoom l w.2.op 1

/-- R357: the next transaction of a descriptor under way. -/
def DmaActive.nextTxn (a : DmaActive) : DmaTxn :=
  ⟨a.desc.seq, a.issued, min 256 (a.len - a.issued), 0, [], []⟩

/-- An active descriptor changed. -/
def Mach.onActive (m : Mach) (l : Lane) (r seq : Nat) (f : DmaActive → DmaActive) : Mach :=
  m.onRing l r fun g => { g with active := g.active.map fun a => if a.desc.seq = seq then f a else a }

/-- The bytes that a transaction writes, when they are known before it reads: a pattern or a stream record (R355). -/
def DmaActive.source (a : DmaActive) (off n : Nat) : List Nat :=
  if a.desc.op = 1 then (List.range n).map fun i => a.desc.param / 2 ^ (8 * ((off + i) % 4)) % 256
  else (a.data.drop off).take n

/-- R362: the page parts of a transaction translated in order; on a fault, the bytes written before it. -/
def Mach.issueTxn (m : Mach) (mem : List Host.Cell) (l : Lane) (r : Nat) (a : DmaActive) (t : DmaTxn) :
    DmaTxn × Option (Nat × Nat) × Mach × List Host.Cell :=
  let c := m.fld (Reg.DMA_R_CFG l.ix r) 19 18
  let d := a.desc
  let srcs := if d.op = 0 ∨ d.op = 3 then pageParts (d.src + t.off) t.size else []
  let dsts := if d.op = 3 then [] else pageParts (d.dst + t.off + t.written) (t.size - t.written)
  let rs := m.translateParts mem l c false srcs
  match rs.2.1 with
  | some e => (t, some e, rs.2.2, mem)
  | none =>
    let ws := rs.2.2.translateParts mem l c true dsts
    match ws.2.1 with
    | none => ({ t with reads := rs.1, writes := ws.1 }, none, ws.2.2, mem)
    | some e =>
      if d.op = 0 then (t, some e, ws.2.2, mem)
      else
        let done := ws.1.foldl (fun (x : Nat × Mach × List Host.Cell) p =>
          let w := x.2.1.dmaWrite x.2.2 (dmaReq l) p.1 (a.source (t.off + x.1) p.2)
          (x.1 + p.2, w.2)) (t.written, ws.2.2, mem)
        ({ t with written := done.1 }, some e, done.2)

/-- R362, R363: a translation fault: the ring parks what is not translated, with a record and an event. A stream record parks
with all its further transactions. -/
def Mach.parkRing (m : Mach) (mem : List Host.Cell) (l : Lane) (r : Nat) (a : DmaActive) (ts : List DmaTxn) (e : Nat × Nat) :
    Mach × List Host.Cell :=
  let d := a.desc
  let m := (m.onRing l r fun g => { g with parked := ts, faultVa := e.2 }).setRing l r 2
  let m := m.onActive l r d.seq fun a => { a with parks := a.parks + 1, issued := if d.op = 2 then a.len else a.issued }
  let m := (m.dmaShow l r).ringIrq l r 1
  let m := (m.raise 0x3406 0 0xFF [] l.origin).orr (Reg.DMA_L_IRQ_STAT l.ix) 4
  let done := (a.chunks.map fun c => c.2.length).sum + (ts.headD default).written
  m.faultRecord mem l e.2 r e.1 (m.fld (Reg.DMA_R_CFG l.ix r) 19 18) ts.length d.index d.tag done

/-- The transactions of a stream record after `t`, not yet translated. -/
def DmaActive.laterTxns (a : DmaActive) : Nat → Nat → List DmaTxn
  | 0, _ => []
  | n + 1, off => if a.len ≤ off then [] else ⟨a.desc.seq, off, min 256 (a.len - off), 0, [], []⟩ :: a.laterTxns n (off + 256)

/-- R357: one transaction issued on ring `r`. -/
def Mach.issueRing (m : Mach) (mem : List Host.Cell) (l : Lane) (r : Nat) : Mach × List Host.Cell :=
  match m.nextWork l r with
  | none => (m, mem)
  | some (begun, d) =>
    let m := if begun then m else m.beginDesc l r d [] d.len 0
    match (m.ring l r).active.find? fun a => a.desc.seq == d.seq with
    | none => (m, mem)
    | some a =>
      let m := m.onDmaLane l fun x => { x with served := upd x.served (m.fld (Reg.DMA_R_CFG l.ix r) 21 20) fun _ => r }
      let t := a.nextTxn
      let m := m.onActive l r d.seq fun a => { a with
        issueAt := some (a.issueAt.getD m.now), issued := a.issued + t.size }
      let x := m.issueTxn mem l r a t
      match x.2.1 with
      | none => ((x.2.2.1.onRing l r fun g => { g with out := g.out ++ [x.1] }).dmaShow l r, x.2.2.2)
      | some e =>
        let later := if d.op = 2 then a.laterTxns 8 (t.off + t.size) else []
        x.2.2.1.parkRing x.2.2.2 l r a (x.1 :: later) e

/-- R347, R358: the data of an outstanding transaction of a lane moves: read, then written; the flag says that nothing met poison, and
the pieces moved stand by their place in the descriptor. -/
def Mach.moveTxn (m : Mach) (mem : List Host.Cell) (l : Lane) (a : DmaActive) (t : DmaTxn) :
    Bool × List (Nat × List Nat) × Mach × List Host.Cell :=
  if t.reads.any fun p => m.poisoned p.1 p.2 then (false, [], forL t.reads (fun p m => m.poisonRead (dmaReq l) p.1 p.2) m, mem)
  else
    let bytes := if t.reads.isEmpty then a.source t.off t.size else t.reads.flatMap fun p => Memory.readN mem p.1 p.2
    if t.writes.isEmpty then (true, [(t.off, bytes)], m, mem)
    else
      let w := t.writes.foldl (fun (x : List (Nat × List Nat) × Nat × Mach × List Host.Cell) p =>
        let y := x.2.2.1.dmaWrite x.2.2.2 (dmaReq l) p.1 ((bytes.drop x.2.1).take p.2)
        (x.1 ++ y.1.map fun c => (t.off + x.2.1 + c.1, c.2), x.2.1 + p.2, y.2)) ([], t.written, m, mem)
      let parts := (if t.written = 0 then [] else [(t.off, bytes.take t.written)]) ++ w.1
      ((parts.map fun c => c.2.length).sum == t.size, parts, w.2.2)

/-- R358: transaction `i` of a ring completes. -/
def Mach.completeTxn (m : Mach) (mem : List Host.Cell) (l : Lane) (r i : Nat) : Mach × List Host.Cell :=
  match (m.ring l r).out[i]? with
  | none => (m, mem)
  | some t =>
    let m := (m.onRing l r fun g => { g with out := g.out.eraseIdx i }).dmaShow l r
    match (m.ring l r).active.find? fun a => a.desc.seq == t.seq with
    | none => (m, mem)
    | some a =>
      let x := m.moveTxn mem l a t
      let m := x.2.2.1.onActive l r t.seq fun a =>
        let a := { a with chunks := a.chunks ++ x.2.1 }
        if x.1 then a else { a with status := 1, issued := a.len }
      (m.endDesc l r t.seq, x.2.2.2)

/-! ### Completion records (R359) -/

/-- The first of some records in index order. -/
def firstReady (l : List (Nat × List Nat × Bool)) : Option (Nat × List Nat × Bool) :=
  l.foldl (fun x y => match x with
    | some z => if y.1 < z.1 then some y else some z
    | none => some y) none

/-- R359: the record that the Collator writes next: the first in index order, on an unordered ring among those of the earliest
completion (field TIME). -/
def Mach.nextRecord (m : Mach) (l : Lane) (r : Nat) : Option (Nat × List Nat × Bool) :=
  let g := m.ring l r
  if m.bit (Reg.DMA_R_CFG l.ix r) 24 then
    (firstReady g.ready).filter fun y => !g.active.any fun a => decide (a.desc.seq < y.1)
  else firstReady (g.ready.filter fun y => some (y.2.1.take 8) == g.ready.head?.map fun x => x.2.1.take 8)

/-- R359: a completion record written to the completion queue. -/
def Mach.writeRecord (m : Mach) (mem : List Host.Cell) (l : Lane) (r : Nat) : Mach × List Host.Cell :=
  match m.nextRecord l r with
  | none => (m, mem)
  | some y =>
    if !m.cqFree l r then (m, mem)
    else
      let h := m.fld (Reg.DMA_R_CQHEAD l.ix r) 11 0
      let a := m.base40 (Reg.DMA_R_CQ_LO l.ix r) (Reg.DMA_R_CQ_HI l.ix r) + 32 * h
      let m := m.onRing l r fun g => { g with ready := g.ready.erase y }
      let m := m.setFld (Reg.DMA_R_CQHEAD l.ix r) 11 0 ((h + 1) % m.ringSize l r)
      ((if y.2.2 then m.ringIrq l r 0 else m).dmaWrite mem (dmaReq l) a y.2.1).2

/-! ### Stream records (R361) -/

/-- R361: a record is taken only at once; the flag says so. -/
def Mach.streamTake (m : Mach) (l : Lane) (r port : Nat) (bytes : List Nat) : Bool × Mach :=
  let g := m.ring l r
  let n := (bytes.length + 255) / 256
  let room := decide (g.out.length + n ≤ 32) && m.dmaRoom l 2 n
  match g.fetched.head? with
  | some d =>
    if m.ringState l r = 1 ∧ m.fld (Reg.DMA_R_CFG l.ix r) 27 25 = port ∧ d.op = 2 ∧ !d.bad ∧ m.cqFree l r ∧ room ∧
        !(2 ≤ d.flags ∧ !g.active.isEmpty) then
      let len := min bytes.length d.len
      (true, (m.beginDesc l r d bytes len (if d.len < bytes.length then 4 else 0)).onRing l r fun g => { g with dropping := false })
    else (false, m)
  | none => (false, m)

/-- R361: a dropped record counts, and the first of a run raises 0x3408. -/
def Mach.streamDrop (m : Mach) (l : Lane) (r : Nat) : Mach :=
  let run := (m.ring l r).dropping
  let m := (m.incSat (Reg.DMA_R_STAT l.ix r) 31 16).ringIrq l r 3
  let m := m.onRing l r fun g => { g with dropping := true }
  if run then m else m.raise 0x3408 0 0xFF [] l.origin

/-- The capture's run of drops (R127). -/
def Mach.capRun (m : Mach) (l : Lane) (b : Bool) : Mach :=
  { m with law := m.law.set l { m.law.get l with capDropping := b } }

/-- R127: the LAW capture counts a record written or dropped. -/
def Mach.captureCount (m : Mach) (l : Lane) (taken : Bool) : Mach :=
  if taken then ((m.incMod (Reg.LAW_CAP_STAT l.ix) 15 0).orr (Reg.LAW_IRQ_STAT l.ix) 1).capRun l false
  else
    let told := (m.law.get l).capDropping
    let m := ((m.incSat (Reg.LAW_CAP_STAT l.ix) 31 16).orr (Reg.LAW_IRQ_STAT l.ix) 2).capRun l true
    if told then m else (m.raise 0x1007 0 0xFF [] l.origin)

/-- R361: the record that a producing port holds for a ring. -/
def Mach.streamOffer (m : Mach) (o : Offer) : Mach :=
  let m := m.onOffers fun x => x.erase o
  let x := m.streamTake o.lane o.ring o.port o.bytes
  let m := if x.1 then x.2 else x.2.streamDrop o.lane o.ring
  if o.port = 1 then m.captureCount o.lane x.1
  else if o.port = 2 ∧ !x.1 then m.incSat (Reg.NET_P_CNT (o.bytes.getD 15 0 % 8)) 15 0
  else m

/-! ### Ring commands (R365, R366) -/

/-- R354: the IOTLB entries that an invalidation names leave. -/
def Mach.tlbDrop (m : Mach) (l : Lane) (p : TlbEntry → Bool) : Mach :=
  m.onDmaLane l fun d => { d with iotlb := d.iotlb.filter fun e => !p e }

/-- The entry translates virtual page `vpn` of context `c`. -/
def TlbEntry.covers (e : TlbEntry) (c vpn : Nat) : Bool := e.ctx == c && e.vpn / 2 ^ (9 * e.level) == vpn / 2 ^ (9 * e.level)

/-- R365: parked transactions replayed in order until one faults again. -/
def Mach.replayParked (m : Mach) (mem : List Host.Cell) (l : Lane) (r : Nat) : List DmaTxn → Mach × List Host.Cell
  | [] => (((m.onRing l r fun g => { g with parked := [] }).setRing l r 1).dmaShow l r, mem)
  | t :: rest =>
    match (m.ring l r).active.find? fun a => a.desc.seq == t.seq with
    | none => m.replayParked mem l r rest
    | some a =>
      let x := m.issueTxn mem l r a t
      match x.2.1 with
      | none => (x.2.2.1.onRing l r fun g => { g with out := g.out ++ [x.1] }).replayParked x.2.2.2 l r rest
      | some e => x.2.2.1.parkRing x.2.2.2 l r a (x.1 :: rest) e

/-- R366: a ring command that does not apply. -/
def Mach.ringIgnored (m : Mach) (l : Lane) : Mach := m.raise 0x340A 0 0xFF [] l.origin

/-- RESUME (R365). -/
def Mach.ringResume (m : Mach) (mem : List Host.Cell) (l : Lane) (r : Nat) : Mach × List Host.Cell :=
  if m.ringState l r ≠ 2 then (m.ringIgnored l, mem)
  else
    let g := m.ring l r
    let c := m.fld (Reg.DMA_R_CFG l.ix r) 19 18
    let m := m.tlbDrop l fun e => e.covers c (g.faultVa / 4096 % 2 ^ 27)
    let x := m.replayParked mem l r g.parked
    ((x.1.fetchRing x.2 l r).settleRing l r, x.2)

/-- ABORT (R366): begun descriptors complete as ABORTED once what is outstanding has completed. -/
def Mach.ringAbort (m : Mach) (l : Lane) (r : Nat) : Mach :=
  if m.ringState l r = 0 then m.ringIgnored l
  else
    let g := m.ring l r
    let partly (a : DmaActive) := (g.parked.filter fun t => t.seq == a.desc.seq && decide (0 < t.written)).map fun t =>
      (t.off, (a.source t.off t.written))
    let m := m.onRing l r fun g => { g with
      parked := []
      active := g.active.map fun a => { a with status := 2, issued := a.len, chunks := a.chunks ++ partly a } }
    let m := ((m.setRing l r 3).dmaShow l r).ringIrq l r 2
    let m := m.ringIgnored l
    forL (g.active.map fun a => a.desc.seq) (fun s m => m.endDesc l r s) m

/-- GO (R366). -/
def Mach.ringGo (m : Mach) (mem : List Host.Cell) (l : Lane) (r : Nat) : Mach :=
  if m.ringState l r ≠ 3 then m.ringIgnored l
  else ((m.setRing l r 1).fetchRing mem l r).settleRing l r

/-- DMA_R_TAIL (R355). -/
def Mach.ringPost (m : Mach) (mem : List Host.Cell) (l : Lane) (r : Nat) (v : Word) : Mach :=
  ((m.wrN (Reg.DMA_R_TAIL l.ix r) (v.bits 11 0 % m.ringSize l r)).fetchRing mem l r).settleRing l r

/-- DMA_R_CFG (R371): EN starts or disables the ring; a PORT of 6 or 7 is refused. -/
def Mach.ringConfig (m : Mach) (mem : List Host.Cell) (l : Lane) (r : Nat) (v : Word) : Mach :=
  if 6 ≤ v.bits 27 25 then m
  else
    let was := m.ringState l r
    let m := m.wr (Reg.DMA_R_CFG l.ix r) (v &&& 0xFFFFC001#32)
    if v.bit 0 then
      if was = 0 then ((m.setRing l r 1).fetchRing mem l r).settleRing l r else m
    else (m.onRing l r fun g => { g with fetched := [] }).setRing l r 0

/-- R304: two ticks have passed since a completion. -/
def AccDone.late (x : AccDone) (seq cyc : Nat) : Bool := decide (x.tick + 2 < seq) || (x.tick + 2 == seq && decide (x.cyc ≤ cyc))

/-- R304: a completion whose partner has not come within 2 ticks is a disagreement. -/
def Mach.accOverdue (m : Mach) : Mach :=
  let late := m.dma.acc.filter fun x => x.late m.seq m.time.cyc
  forL late (fun _ m => m.dispute .entry) (m.onDma fun d => { d with acc := d.acc.filter fun x => !x.late m.seq m.time.cyc })

/-! ### Check-value units (R368, R369, R374) -/

/-- W of a unit. -/
def Mach.crcWidth (m : Mach) (l : Lane) (u : Nat) : Nat := m.fld (Reg.CRC_U_CFG l.ix u) 28 22

/-- STATE of a unit (R374). -/
def Mach.crcState (m : Mach) (l : Lane) (u : Nat) : Nat := m.fld (Reg.CRC_U_STAT l.ix u) 2 0

/-- A unit's own part changed. -/
def Mach.onUnit (m : Mach) (l : Lane) (u : Nat) (f : CrcUnit → CrcUnit) : Mach :=
  m.onDmaLane l fun d => { d with units := upd d.units u f }

/-- The lowest `w` bits of `v`, mirrored. -/
def reflect (w v : Nat) : Nat := (List.range w).foldl (fun x i => if v.testBit i then x + 2 ^ (w - 1 - i) else x) 0

/-- One bit of R368. -/
def unitBit (refin : Bool) (w poly rpoly v : Nat) : Nat :=
  if refin then (if v % 2 = 1 then (v / 2) ^^^ rpoly else v / 2)
  else if v.testBit (w - 1) then (v * 2 ^^^ poly) % 2 ^ w else v * 2 % 2 ^ w

/-- One byte of R368. -/
def unitByte (refin : Bool) (w poly v b : Nat) : Nat :=
  let rpoly := reflect w poly
  let f := unitBit refin w poly rpoly
  let v := if refin then v ^^^ b else v ^^^ (b * 2 ^ (w - 8))
  f (f (f (f (f (f (f (f v)))))))

/-- R368: CRC_U_RES. -/
def Mach.crcResult (m : Mach) (l : Lane) (u : Nat) : Nat :=
  let cfg := m.rd (Reg.CRC_U_CFG l.ix u)
  let w := cfg.bits 28 22
  let v := m.rd64 (Reg.CRC_U_VAL_LO l.ix u) (Reg.CRC_U_VAL_HI l.ix u)
  let x := m.rd64 (Reg.CRC_U_XOR_LO l.ix u) (Reg.CRC_U_XOR_HI l.ix u)
  ((if cfg.bit 21 = cfg.bit 20 then v else reflect w v) ^^^ x) % 2 ^ w

/-- R368: CRC_U_RES shows the result of v and the configuration. -/
def Mach.showResult (m : Mach) (l : Lane) (u : Nat) : Mach :=
  m.wr64 (Reg.CRC_U_RES_LO l.ix u) (Reg.CRC_U_RES_HI l.ix u) (m.crcResult l u)

/-- A unit takes a state; its result shows (R374). -/
def Mach.setUnit (m : Mach) (l : Lane) (u c : Nat) : Mach :=
  ((m.setFld (Reg.CRC_U_STAT l.ix u) 2 0 c).onUnit l u fun x => { x with quiet := false }).showResult l u

/-- R375: a refused command or configuration. -/
def Mach.crcRefused (m : Mach) (l : Lane) : Mach := m.raise 0x3803 0 0xFF [] l.origin

/-- START and CONT (R368). -/
def Mach.crcStart (m : Mach) (l : Lane) (u : Nat) (fresh : Bool) : Mach :=
  let cfg := m.rd (Reg.CRC_U_CFG l.ix u)
  let w := cfg.bits 28 22
  let init := m.rd64 (Reg.CRC_U_INIT_LO l.ix u) (Reg.CRC_U_INIT_HI l.ix u)
  let m := m.onUnit l u fun x => { x with quiet := true }
  if w < 8 ∨ 64 < w ∨ m.rd (Reg.CRC_U_LEN l.ix u) = 0#32 ∨ m.crcState l u = 1 then m.crcRefused l
  else
    let m := if fresh then
      (m.wr64 (Reg.CRC_U_VAL_LO l.ix u) (Reg.CRC_U_VAL_HI l.ix u) (if cfg.bit 21 then reflect w init else init % 2 ^ w)).wrN
        (Reg.CRC_U_POS l.ix u) 0 else m
    (m.setUnit l u 1).onUnit l u fun x => { x with stop := false }

/-- R369: a block of a scan: 64 bytes counted from ADDR, or what is left. -/
def Mach.crcBlock (m : Mach) (mem : List Host.Cell) (l : Lane) (u : Nat) : Mach × List Host.Cell :=
  let cfg := m.rd (Reg.CRC_U_CFG l.ix u)
  let pos := (m.rd (Reg.CRC_U_POS l.ix u)).toNat
  let len := (m.rd (Reg.CRC_U_LEN l.ix u)).toNat
  let addr := m.rd64 (Reg.CRC_U_ADDR_LO l.ix u) (Reg.CRC_U_ADDR_HI l.ix u)
  if m.crcState l u ≠ 1 then (m, mem)
  else if len ≤ pos then (m.setUnit l u 2, mem)
  else
    let n := min 64 (len - pos)
    let c := cfg.bits 19 18
    let x := m.translateParts mem l c false (pageParts (addr + pos) n)
    let m := x.2.2
    match x.2.1 with
    | some e =>
      let m := ((m.setUnit l u 4).raise 0x3801 0 0xFF [] l.origin).orr (Reg.DMA_L_IRQ_STAT l.ix) 4
      m.faultRecord mem l e.2 (16 + u) e.1 c 0 0 0 pos
    | none =>
      if x.1.any fun p => m.poisoned p.1 p.2 then
        let m := forL x.1 (fun p m => m.poisonRead 5 p.1 p.2) m
        ((m.setUnit l u 5).raise 0x3802 0 0xFF [] l.origin, mem)
      else
        let w := cfg.bits 28 22
        let poly := m.rd64 (Reg.CRC_U_POLY_LO l.ix u) (Reg.CRC_U_POLY_HI l.ix u)
        let v := m.rd64 (Reg.CRC_U_VAL_LO l.ix u) (Reg.CRC_U_VAL_HI l.ix u)
        let v := (x.1.flatMap fun p => Memory.readN mem p.1 p.2).foldl (unitByte (cfg.bit 21) w poly) v
        let m := (m.wr64 (Reg.CRC_U_VAL_LO l.ix u) (Reg.CRC_U_VAL_HI l.ix u) v).wrN (Reg.CRC_U_POS l.ix u) (pos + n)
        if len ≤ pos + n then (m.setUnit l u 2, mem)
        else if (nth (m.dma.lanes.get l).units u).stop then (m.setUnit l u 3, mem)
        else (m.showResult l u, mem)

/-- The presets of R368: W, POLY, INIT, both reflections, XOROUT. -/
def crcPreset : Nat → Option (Nat × Nat × Nat × Bool × Nat)
  | 1 => some (32, 0x04C11DB7, 0xFFFFFFFF, true, 0xFFFFFFFF)
  | 2 => some (32, 0x1EDC6F41, 0xFFFFFFFF, true, 0xFFFFFFFF)
  | 3 => some (16, 0x1021, 0xFFFF, false, 0)
  | 4 => some (8, 0x1D, 0xFF, false, 0xFF)
  | _ => none

/-- R374: the bits of a LO or HI word of a W-bit value. -/
def crcKeep (w : Nat) (hi : Bool) : Nat := if hi then min (w - 32) 32 else min w 32

/-- R374: bits above W read 0. -/
def Mach.crcTrim (m : Mach) (l : Lane) (u : Nat) : Mach :=
  let w := m.crcWidth l u
  let cut (hi : Bool) (a : Nat) (m : Mach) : Mach := m.wrN a ((m.rd a).toNat % 2 ^ crcKeep w hi)
  let m := forL [Reg.CRC_U_POLY_LO l.ix u, Reg.CRC_U_INIT_LO l.ix u, Reg.CRC_U_XOR_LO l.ix u, Reg.CRC_U_VAL_LO l.ix u] (cut false) m
  forL [Reg.CRC_U_POLY_HI l.ix u, Reg.CRC_U_INIT_HI l.ix u, Reg.CRC_U_XOR_HI l.ix u, Reg.CRC_U_VAL_HI l.ix u] (cut true) m

/-- R374: a write of CRC_U_CFG. -/
def Mach.crcConfig (m : Mach) (l : Lane) (u : Nat) (v : Word) : Mach :=
  let put (m : Mach) := m.wr (Reg.CRC_U_CFG l.ix u) (v &&& 0xFFFF8000#32)
  match v.bits 31 29, crcPreset (v.bits 31 29) with
  | 0, _ => (put m).crcTrim l u
  | _, some p =>
    let m := put m
    let m := ((m.setFld (Reg.CRC_U_CFG l.ix u) 28 22 p.1).setBit (Reg.CRC_U_CFG l.ix u) 21 p.2.2.2.1).setBit
      (Reg.CRC_U_CFG l.ix u) 20 p.2.2.2.1
    let m := m.wr64 (Reg.CRC_U_POLY_LO l.ix u) (Reg.CRC_U_POLY_HI l.ix u) p.2.1
    let m := m.wr64 (Reg.CRC_U_INIT_LO l.ix u) (Reg.CRC_U_INIT_HI l.ix u) p.2.2.1
    (m.wr64 (Reg.CRC_U_XOR_LO l.ix u) (Reg.CRC_U_XOR_HI l.ix u) p.2.2.2.2).crcTrim l u
  | _, none => m

/-- R374: a write of another configuration register; bits above W of the 64-bit values are ignored. -/
def Mach.crcValue (m : Mach) (l : Lane) (u off a : Nat) (v : Word) : Mach :=
  let hi := off == 0x08 || off == 0x10 || off == 0x18 || off == 0x2C
  let lo := off == 0x04 || off == 0x0C || off == 0x14 || off == 0x28
  m.wrN a (v.toNat % 2 ^ (if lo || hi then crcKeep (m.crcWidth l u) hi else 32))

/-- R369, R374: a write of a unit's configuration: refused while it runs. -/
def Mach.crcWrite (m : Mach) (l : Lane) (u off a : Nat) (v : Word) : Mach :=
  if m.crcState l u = 1 then m.crcRefused l
  else (if off = 0 then m.crcConfig l u v else m.crcValue l u off a v).showResult l u

/-! ### Lane reset (R367, R370) -/

/-- R367, R370: a lane reset of the rings and units. -/
def Mach.dmaLaneReset (m : Mach) (l : Lane) : Mach :=
  let m := m.onDmaLane l fun _ => DmaLane.fresh
  let m := m.onDma fun d => { d with acc := d.acc.filter fun x => x.lane != l, port5 := d.port5.filter fun x => x.lane != l }
  let m := m.onOffers fun x => x.filter fun o => o.lane != l
  let m := forN 16 (fun r m => ((m.setBit (Reg.DMA_R_CFG l.ix r) 0 false).setRing l r 0).dmaShow l r) m
  forN 4 (fun u m => ((((m.wrN (Reg.CRC_U_STAT l.ix u) 0).wrN (Reg.CRC_U_POS l.ix u) 0).wrN (Reg.CRC_U_VAL_LO l.ix u) 0).wrN
    (Reg.CRC_U_VAL_HI l.ix u) 0).showResult l u) m

/-! ### The rows of chapter 13 -/

/-- DRAM_ERROR (R347, R349): requester as DMA_ECCINFO.REQ codes it; `sym` is the symbol corrected, none for an uncorrectable
error. -/
def execDramError (cyc : Nat) (req : Nat) (addr : BitVec 32) (sym : Option Nat) (s : State) : Host.Outcome State Fault Refusal :=
  run s cyc fun m => match sym with
    | some y => m.dramCorrected req addr.toNat y
    | none => m.dramPoison req addr.toNat

/-- SCRUB_LINE (R350): the line is read, and poison in it reports. -/
def execScrubLine (cyc : Nat) (s : State) : Host.Outcome State Fault Refusal :=
  run s cyc fun m =>
    let line := m.fld Reg.DMA_SCRUB 25 0
    if !m.dmaRuns then m
    else
      let m := m.poisonRead 0 (64 * line) 64
      if line = 2 ^ 26 - 1 then ((((m.setFld Reg.DMA_SCRUB 25 0 0).incSat Reg.DMA_SCRUB 31 26).raise 0x340C 0)).memIrq 4
      else m.setFld Reg.DMA_SCRUB 25 0 (line + 1)

/-- R351: the refresh interval in ns, by the higher band of the two memory dies; a broken sensor's reading is band 4. -/
def Mach.refreshNs (m : Mach) : Nat :=
  match max (m.fld (Reg.PWR_TS_VAL 3) 2 0) (m.fld (Reg.PWR_TS_VAL 4) 2 0) with
  | 3 => 1952
  | 4 => 976
  | _ => 3904

/-- R349: a refresh that could not be issued for `ns` ns, longer than its interval. -/
def Mach.refreshLate (m : Mach) (ns : Nat) : Mach := if m.refreshNs < ns then m.raiseF4 0x340B else m

/-- REFRESH_FAILURE (R349): `ns` is the time since the refresh before. The other cause, eight codewords in 1 ms, is `dramPoison`'s. -/
def execRefreshFailure (cyc ns : Nat) (s : State) : Host.Outcome State Fault Refusal := run s cyc fun m => m.refreshLate ns

/-- DESCRIPTOR_POST (R355): the write of DMA_R_TAIL. -/
def execDescriptorPost (cyc : Nat) (who : Writer) (lane : Lane) (r : Fin 16) (value : Word) (s : State) :
    Host.Outcome State Fault Refusal :=
  runMem s cyc fun m mem =>
    (m.ownCopy who lane (Reg.DMA_R_TAIL lane.ix r) fun m => m.ringPost mem lane r value, mem)

/-- TRANSACTION_ISSUE (R357): the lane's engine issues one transaction of the ring that it chooses. -/
def execTransactionIssue (cyc : Nat) (lane : Lane) (s : State) : Host.Outcome State Fault Refusal :=
  runMem s cyc fun m mem => match (m.chooseRing lane).filter fun _ => m.dmaRuns with
    | some r => m.issueRing mem lane r
    | none => (m, mem)

/-- TRANSACTION_COMPLETE (R358): the ring's outstanding transaction `i`. -/
def execTransactionComplete (cyc : Nat) (lane : Lane) (r : Fin 16) (i : Fin 32) (s : State) :
    Host.Outcome State Fault Refusal :=
  runMem s cyc fun m mem => if m.dmaRuns then m.completeTxn mem lane r i else (m, mem)

/-- COMPLETION_WRITE (R359). -/
def execCompletionWrite (cyc : Nat) (lane : Lane) (r : Fin 16) (s : State) : Host.Outcome State Fault Refusal :=
  runMem s cyc fun m mem => if m.dmaRuns then m.writeRecord mem lane r else (m, mem)

/-- STREAM_RECORD (R361): the oldest record held for the lane's ring. -/
def execStreamRecord (cyc : Nat) (lane : Lane) (r : Fin 16) (s : State) : Host.Outcome State Fault Refusal :=
  run s cyc fun m => match m.offers.find? fun o => o.lane == lane && o.ring == r.val with
    | some o => m.streamOffer o
    | none => m

/-- RING_RESUME (R365). -/
def execRingResume (cyc : Nat) (who : Writer) (lane : Lane) (r : Fin 16) (s : State) : Host.Outcome State Fault Refusal :=
  runMem s cyc fun m mem =>
    if who = .lane lane then m.ringResume mem lane r
    else (m.ownCopy who lane (Reg.DMA_R_CTRL lane.ix r) id, mem)

/-- RING_ABORT (R366). -/
def execRingAbort (cyc : Nat) (who : Writer) (lane : Lane) (r : Fin 16) (s : State) : Host.Outcome State Fault Refusal :=
  run s cyc fun m => m.ownCopy who lane (Reg.DMA_R_CTRL lane.ix r) fun m => m.ringAbort lane r

/-- RING_GO (R366). -/
def execRingGo (cyc : Nat) (who : Writer) (lane : Lane) (r : Fin 16) (s : State) : Host.Outcome State Fault Refusal :=
  runMem s cyc fun m mem => (m.ownCopy who lane (Reg.DMA_R_CTRL lane.ix r) fun m => m.ringGo mem lane r, mem)

/-- R354: DMA_L_INVAL. -/
def Mach.invalidate (m : Mach) (l : Lane) (v : Word) : Mach :=
  match v.bits 31 30 with
  | 0 => m.tlbDrop l fun _ => true
  | 1 => m.tlbDrop l fun e => e.ctx == v.bits 29 28
  | 2 => m.tlbDrop l fun e => e.covers (v.bits 29 28) (v.bits 26 0)
  | _ => m

/-- IOTLB_INVALIDATE (R354). -/
def execIotlbInvalidate (cyc : Nat) (who : Writer) (lane : Lane) (value : Word) (s : State) :
    Host.Outcome State Fault Refusal :=
  run s cyc fun m => m.ownCopy who lane (Reg.DMA_L_INVAL lane.ix) fun m => m.invalidate lane value

/-- CRC_START (R368). -/
def execCrcStart (cyc : Nat) (who : Writer) (lane : Lane) (u : Fin 4) (s : State) : Host.Outcome State Fault Refusal :=
  run s cyc fun m => m.ownCopy who lane (Reg.CRC_U_CTRL lane.ix u) fun m => m.crcStart lane u true

/-- CRC_CONT (R368). -/
def execCrcCont (cyc : Nat) (who : Writer) (lane : Lane) (u : Fin 4) (s : State) : Host.Outcome State Fault Refusal :=
  run s cyc fun m => m.ownCopy who lane (Reg.CRC_U_CTRL lane.ix u) fun m => m.crcStart lane u false

/-- STOP (R369): it acts at the next block end. -/
def Mach.crcStop (m : Mach) (l : Lane) (u : Nat) : Mach :=
  m.onUnit l u fun x => ⟨x.stop || m.crcState l u == 1, true⟩

/-- CRC_STOP (R369). -/
def execCrcStop (cyc : Nat) (who : Writer) (lane : Lane) (u : Fin 4) (s : State) : Host.Outcome State Fault Refusal :=
  run s cyc fun m => m.ownCopy who lane (Reg.CRC_U_CTRL lane.ix u) fun m => m.crcStop lane u

/-- CRC_SCAN_BLOCK (R369). -/
def execCrcScanBlock (cyc : Nat) (lane : Lane) (u : Fin 4) (s : State) : Host.Outcome State Fault Refusal :=
  runMem s cyc fun m mem => if m.dmaRuns then m.crcBlock mem lane u else (m, mem)

/-- LANE_SRAM_ERROR (R349). -/
def execLaneSramError (cyc : Nat) (lane : Lane) (addr : BitVec 21) (corrected : Bool) (s : State) :
    Host.Outcome State Fault Refusal :=
  run s cyc fun m =>
    let a := sramBase lane + addr.toNat
    if corrected then
      let m := ((m.incSat Reg.DMA_ECCSTAT 15 0).eccInfo a false 6 0).memIrq 0
      if pastMs m.now m.dma.sramAt then
        (m.raise 0x3404 0).onDma fun d => { d with sramAt := some m.now } else m
    else
      let m := ((m.incSat Reg.DMA_ECCSTAT 31 16).eccInfo a true 6 0).memIrq 1
      (m.raiseF2 lane 0x3405).health lane 5

/-- OTHER_LANE_PART_ACCESS (R348): a lane processor's access to the other lane's DRAM part. -/
def execOtherLanePartAccess (cyc : Nat) (lane : Lane) (addr : BitVec 32) (width : Width) (write : Bool) (s : State) :
    Host.Outcome State Fault Refusal :=
  run s cyc fun m =>
    if m.partOf addr.toNat ≠ some lane.other then m
    else
      let m := m.say .accessFault
      if m.inTick lane then ((m.raiseF2 lane 0x0408).health lane 3)
      else m.accessEvent addr.toNat (.lane lane) write width (addr.toNat % widthBytes width != 0) 4

end Sys2Proof.Machine
end

