-- ==== Sys2Proof/Machine/Flags.lean ====
section
/-! DEFINITION. The interrupt lines, which follow from the status and enable registers of their blocks, and each lane's interrupt
controller (R17, R51). -/

namespace Sys2Proof.Machine

/-- Bits `hi` to `lo` of a status register that are set in its enable register too. -/
def Mach.irqAny (m : Mach) (stat en hi lo : Nat) : Bool :=
  decide ((m.rd stat &&& m.rd en).bits hi lo ≠ 0)

/-- A block's assignment of its status bits to sources: source, highest bit, lowest bit. -/
def irqSource (n : Nat) : List (Nat × Nat × Nat) → Option (Nat × Nat)
  | [] => none
  | (s, hi, lo) :: rest => if s = n then some (hi, lo) else irqSource n rest

/-- R220. -/
def gdiSources : List (Nat × Nat × Nat) := [(48, 2, 0), (49, 4, 3), (50, 6, 5), (51, 7, 7), (52, 8, 8)]
/-- R222. -/
def gdlSources : List (Nat × Nat × Nat) := [(60, 1, 0), (61, 3, 2), (62, 4, 4), (63, 5, 5)]
/-- R248. -/
def lvcSources : List (Nat × Nat × Nat) := [(56, 3, 0), (57, 5, 4), (58, 7, 6), (59, 10, 8)]
/-- R278. -/
def chgSources : List (Nat × Nat × Nat) :=
  [(64, 1, 0), (65, 2, 2), (66, 3, 3), (67, 5, 4), (68, 6, 6), (69, 7, 7), (70, 9, 8)]
/-- R344. -/
def laneSources : List (Nat × Nat × Nat) :=
  [(80, 1, 0), (81, 2, 2), (82, 3, 3), (83, 4, 4), (84, 5, 5), (85, 6, 6), (86, 7, 7)]
/-- R372. -/
def memorySources : List (Nat × Nat × Nat) := [(40, 0, 0), (41, 1, 1), (42, 2, 2), (43, 4, 3)]

/-- One bit per source, from `first` on, `count` of them: R297, R393, R395, R432, R462, R492. -/
def bitSources (first count : Nat) : List (Nat × Nat × Nat) := (List.range count).map fun i => (first + i, i, i)

/-- The block behind source `n` of lane `l`: its status register, its enable register and its assignment of bits. -/
def irqBlock (l : Lane) (n : Nat) : Option (Nat × Nat × List (Nat × Nat × Nat)) :=
  if n = 2 then some (Reg.TICK_IRQ_STAT l.ix, Reg.TICK_IRQ_EN l.ix, [(2, 0, 0)])
  else if n = 3 then some (Reg.TICK_IRQ_STAT l.ix, Reg.TICK_IRQ_EN l.ix, [(3, 3, 1)])
  else if n = 4 then some (Reg.ACQ_IRQ_STAT, Reg.ACQ_IRQ_EN, [(4, 5, 0)])
  else if n = 5 then some (Reg.POS_IRQ_STAT, Reg.POS_IRQ_EN, [(5, 5, 0)])
  else if 40 ≤ n ∧ n < 44 then some (Reg.DMA_L_IRQ_STAT l.ix, Reg.DMA_L_IRQ_EN l.ix, memorySources)
  else if 48 ≤ n ∧ n < 56 then some (Reg.GDI_IRQ_STAT, Reg.GDI_IRQ_EN, gdiSources)
  else if 56 ≤ n ∧ n < 60 then some (Reg.LVC_IRQ_STAT, Reg.LVC_IRQ_EN, lvcSources)
  else if 60 ≤ n ∧ n < 64 then some (Reg.GDL_IRQ_STAT, Reg.GDL_IRQ_EN, gdlSources)
  else if 64 ≤ n ∧ n < 72 then some (Reg.CHG_IRQ_STAT, Reg.CHG_IRQ_EN, chgSources)
  else if 72 ≤ n ∧ n < 80 then some (Reg.ACT_IRQ_STAT, Reg.ACT_IRQ_EN, bitSources 72 6)
  else if 80 ≤ n ∧ n < 88 then some (Reg.LANE_L_IRQ_STAT l.ix, Reg.LANE_L_IRQ_EN l.ix, laneSources)
  else if 88 ≤ n ∧ n < 96 then some (Reg.TIME_IRQ_STAT, Reg.TIME_IRQ_EN, bitSources 88 4)
  else if 96 ≤ n ∧ n < 104 then some (Reg.SAFE_IRQ_STAT, Reg.SAFE_IRQ_EN, bitSources 96 8)
  else if 104 ≤ n ∧ n < 112 then some (Reg.IMG_IRQ_STAT, Reg.IMG_IRQ_EN, bitSources 104 5)
  else if n = 112 then some (Reg.SYS_IRQ_STAT, Reg.SYS_IRQ_EN, [(112, 3, 0)])
  else if 113 ≤ n ∧ n < 120 then some (Reg.PWR_IRQ_STAT, Reg.PWR_IRQ_EN, bitSources 113 7)
  else if 120 ≤ n ∧ n < 128 then some (Reg.NET_IRQ_STAT, Reg.NET_IRQ_EN, bitSources 120 6)
  else none

/-- R134: LAW's sources 6, for OSC and ECC, and 7, for the other bits, of the lane's own copy. -/
def Mach.lawAsserts (m : Mach) (l : Lane) (osc : Bool) : Bool :=
  m.irqAny (Reg.LAW_IRQ_STAT l.ix) (Reg.LAW_IRQ_EN l.ix) (if osc then 6 else 4) (if osc then 5 else 0)

/-- R371: ring `r` of lane `l` asserts its source in both lanes' controllers. -/
def Mach.ringAsserts (m : Mach) (l r : Nat) : Bool :=
  decide (m.fld (Reg.DMA_R_IRQ l r) 3 0 &&& m.fld (Reg.DMA_R_CFG l r) 31 28 ≠ 0)

/-- R375: a check-value unit asserts until CRC_U_CTRL is written. -/
def Mach.unitAsserts (m : Mach) (l : Lane) (u : Nat) : Bool :=
  decide (2 ≤ m.crcState l u) && m.bit (Reg.CRC_U_CFG l.ix u) 15 && !(nth (m.dma.lanes.get l).units u).quiet

/-- R17: whether source `n` of lane `l`'s interrupt controller asserts. Source 1 is the tick start, which the lane holds until it
writes TICK_CMD.DONE (R51, R53). -/
def Mach.sourceAsserts (m : Mach) (l : Lane) (n : Nat) : Bool :=
  if n = 1 then m.inTick l
  else if n = 6 then m.lawAsserts l true
  else if n = 7 then m.lawAsserts l false
  else if 8 ≤ n ∧ n < 24 then m.ringAsserts 0 (n - 8)
  else if 24 ≤ n ∧ n < 40 then m.ringAsserts 1 (n - 24)
  else if 44 ≤ n ∧ n < 48 then m.unitAsserts l (n - 44)
  else match irqBlock l n with
    | none => false
    | some (stat, en, table) =>
      match irqSource n table with
      | none => false
      | some (hi, lo) => m.irqAny stat en hi lo

/-! ### The interrupt controllers (R17, R51) -/

/-- The largest priority; the model's choice, for the PLIC leaves the number of levels to the device (log entry 13). -/
def plicMax : Nat := 7

/-- R51: the priority of a source; that of source 1 reads as the maximum. -/
def Plic.priority (p : Plic) (n : Nat) : Nat := if n = 1 then plicMax else nth p.prio n

/-- R51: a source is enabled; source 1 always is. -/
def Plic.enabled (p : Plic) (n : Nat) : Bool := n == 1 || p.enable.testBit n

/-- A write of a source's priority; sources 0 and 1 ignore it (R17, R51). -/
def Plic.setPriority (p : Plic) (n v : Nat) : Plic := if n < 2 then p else { p with prio := upd p.prio n fun _ => v % (plicMax + 1) }

/-- A write of the enables; source 1 ignores it (R51). -/
def Plic.setEnables (p : Plic) (v : Nat) : Plic := { p with enable := v % 2 ^ 128 / 4 * 4 }

/-- R17: a source is pending: its request waits, or its line asserts and is not claimed. -/
def Mach.plicPending (m : Mach) (l : Lane) (n : Nat) : Bool :=
  let p := m.plic.get l
  0 < n && n < 128 && (p.latched.testBit n || (m.sourceAsserts l n && !p.claimed.testBit n))

/-- R17: the source that a claim takes: of those pending and enabled above priority 0 the highest in priority, the lowest in
number; 0 where there is none. -/
def Mach.plicBest (m : Mach) (l : Lane) : Nat :=
  let p := m.plic.get l
  (List.range 128).foldl (fun best n =>
    if m.plicPending l n && p.enabled n && decide ((if best = 0 then 0 else p.priority best) < p.priority n) then n else best) 0

/-- R17: the controller interrupts its lane: the best source lies above the threshold. -/
def Mach.plicInterrupts (m : Mach) (l : Lane) : Bool :=
  let p := m.plic.get l
  m.plicBest l != 0 && decide (p.threshold < p.priority (m.plicBest l))

/-- R17: the requests of the lines that assert now stay with the controller when their lines fall. -/
def Mach.plicLatch (m : Mach) (l : Lane) : Mach :=
  let now := ((List.range 128).map fun n => if m.plicPending l n then 2 ^ n else 0).sum
  m.onPlic l fun p => { p with latched := now }

/-- A source asks by a pulse: the tick start (R51). -/
def Mach.plicRequest (m : Mach) (l : Lane) (n : Nat) : Mach := m.onPlic l fun p => { p with latched := p.latched ||| 2 ^ n }

/-- A source is claimed. -/
def Mach.plicTake (m : Mach) (l : Lane) (n : Nat) : Mach :=
  m.onPlic l fun p => { p with latched := p.latched &&& (2 ^ 128 - 1 - 2 ^ n), claimed := p.claimed ||| 2 ^ n }

/-- A source is completed. -/
def Mach.plicComplete (m : Mach) (l : Lane) (n : Nat) : Mach :=
  m.onPlic l fun p => { p with claimed := p.claimed &&& (2 ^ 128 - 1 - 2 ^ n) }

/-- The interrupt enables of the blocks. -/
def irqEnable (a : Nat) : Bool :=
  [Reg.SYS_IRQ_EN, Reg.ACQ_IRQ_EN, Reg.POS_IRQ_EN, Reg.GDI_IRQ_EN, Reg.GDL_IRQ_EN, Reg.LVC_IRQ_EN, Reg.CHG_IRQ_EN, Reg.ACT_IRQ_EN,
    Reg.TIME_IRQ_EN, Reg.SAFE_IRQ_EN, Reg.IMG_IRQ_EN, Reg.PWR_IRQ_EN, Reg.NET_IRQ_EN].contains a ||
    [0, 1].any fun l => [Reg.TICK_IRQ_EN l, Reg.LAW_IRQ_EN l, Reg.LANE_L_IRQ_EN l, Reg.DMA_L_IRQ_EN l].contains a

end Sys2Proof.Machine
end

