-- ==== Sys2Proof/Machine/Crypto.lean ====
section
/-! DEFINITION. SHA-256 and the ECDSA verification over P-256 that passwords, images and keys rest on (R424, R447, R448). -/

namespace Sys2Proof.Machine

/-! ### SHA-256 -/

/-- The largest `r` whose `k`-th power is at most `x`, its bits tried from bit `n - 1` down. -/
def rootFloor (k x : Nat) : Nat → Nat → Nat
  | 0, r => r
  | n + 1, r => rootFloor k x n (if (r + 2 ^ n) ^ k ≤ x then r + 2 ^ n else r)

/-- The primes up to 311, the sixty-fourth: what no prime up to 17 divides properly. -/
def smallPrimes : List Nat :=
  ((List.range 312).drop 2).filter fun x => [2, 3, 5, 7, 11, 13, 17].all fun q => x == q || x % q != 0

/-- The first 32 bits of the fractional part of the `k`-th root of `p`. -/
def rootFraction (k p : Nat) : Nat := rootFloor k (p * 2 ^ (32 * k)) 37 0 % 2 ^ 32

/-- The round constants of SHA-256: the cube roots of the first sixty-four primes. -/
def shaConstants : List Nat := smallPrimes.map (rootFraction 3)

/-- The eight working words of SHA-256. -/
structure Sha where
  a : Nat
  b : Nat
  c : Nat
  d : Nat
  e : Nat
  f : Nat
  g : Nat
  h : Nat
  deriving DecidableEq, Repr

/-- The working words from a list of eight. -/
def Sha.ofList (l : List Nat) : Sha :=
  let w (i : Nat) := l.getD i 0
  ⟨w 0, w 1, w 2, w 3, w 4, w 5, w 6, w 7⟩

/-- The working words as a list. -/
def Sha.words (s : Sha) : List Nat := [s.a, s.b, s.c, s.d, s.e, s.f, s.g, s.h]

/-- The initial words: the square roots of the first eight primes. -/
def Sha.start : Sha := Sha.ofList ((smallPrimes.take 8).map (rootFraction 2))

/-- A 32-bit rotation to the right. -/
def rotr (n x : Nat) : Nat := (x / 2 ^ n) ||| (x * 2 ^ (32 - n) % 2 ^ 32)

/-- One round, with schedule word plus constant `kw`. -/
def Sha.round (s : Sha) (kw : Nat) : Sha :=
  let ch := (s.e &&& s.f) ^^^ ((s.e ^^^ 0xFFFFFFFF) &&& s.g)
  let t1 := s.h + (rotr 6 s.e ^^^ rotr 11 s.e ^^^ rotr 25 s.e) + ch + kw
  let maj := (s.a &&& s.b) ^^^ (s.a &&& s.c) ^^^ (s.b &&& s.c)
  let t2 := (rotr 2 s.a ^^^ rotr 13 s.a ^^^ rotr 22 s.a) + maj
  ⟨(t1 + t2) % 2 ^ 32, s.a, s.b, s.c, (s.d + t1) % 2 ^ 32, s.e, s.f, s.g⟩

/-- The message schedule, newest word first, extended by `n` words. -/
def shaExtend : Nat → List Nat → List Nat
  | 0, w => w
  | n + 1, w =>
    let at_ (i : Nat) := w.getD (i - 1) 0
    let x := at_ 15
    let y := at_ 2
    let s0 := rotr 7 x ^^^ rotr 18 x ^^^ (x / 2 ^ 3)
    let s1 := rotr 17 y ^^^ rotr 19 y ^^^ (y / 2 ^ 10)
    shaExtend n (((at_ 16 + s0 + at_ 7 + s1) % 2 ^ 32) :: w)

/-- The number whose big-endian bytes these are. -/
def ofBeBytes (l : List Nat) : Nat := l.foldl (fun v b => v * 256 + b % 256) 0

/-- The `n` big-endian bytes of a number. -/
def beBytes (n v : Nat) : List Nat := (leBytes n v).reverse

/-- One 64-byte block. -/
def Sha.block (s : Sha) (b : List Nat) : Sha :=
  let w := ((List.range 16).map fun i => ofBeBytes ((b.drop (4 * i)).take 4)).reverse
  let r := ((shaExtend 48 w).reverse.zip shaConstants).foldl (fun x kw => x.round (kw.1 + kw.2)) s
  Sha.ofList ((s.words.zip r.words).map fun v => (v.1 + v.2) % 2 ^ 32)

/-- The blocks of a padded message, `n` of them. -/
def Sha.blocks : Nat → List Nat → Sha → Sha
  | 0, _, s => s
  | n + 1, b, s => Sha.blocks n (b.drop 64) (s.block (b.take 64))

/-- SHA-256 of a list of bytes, as 32 bytes. -/
def sha256 (msg : List Nat) : List Nat :=
  let n := (msg.length + 9 + 63) / 64
  let padded := padTo (64 * n - 8) (msg ++ [0x80]) ++ beBytes 8 (8 * msg.length)
  (Sha.blocks n padded Sha.start).words.flatMap (beBytes 4)

/-- R424: H_ITER of a salt and a password, after `n` further rounds from `h`. -/
def hashRounds (pw : List Nat) : Nat → List Nat → List Nat
  | 0, h => h
  | n + 1, h => hashRounds pw n (sha256 (h ++ pw))

/-- R424: the hash of a password record. -/
def passwordHash (salt pw : List Nat) (iter : Nat) : List Nat := hashRounds pw (iter - 1) (sha256 (salt ++ pw))

/-! ### P-256 -/

/-- The field prime of P-256. -/
def p256 : Nat := 0xffffffff00000001000000000000000000000000ffffffffffffffffffffffff

/-- The order of the group of P-256. -/
def n256 : Nat := 0xffffffff00000000ffffffffffffffffbce6faada7179e84f3b9cac2fc632551

/-- The constant b of the curve. -/
def b256 : Nat := 0x5ac635d8aa3a93e7b3ebbd55769886bc651d06b0cc53b0f63bce3c3e27d2604b

/-- The base point. -/
def g256 : Nat × Nat :=
  (0x6b17d1f2e12c4247f8bce6e563a440f277037d812deb33a0f4a13945d898c296,
   0x4fe342e2fe1a7f9b8ee7eb4a7c0f9e162bce33576b315ececbb6406837bf51f5)

/-- x^e mod m, by the bits of `e` from the least on. -/
def powMod (m : Nat) : Nat → Nat → Nat → Nat → Nat
  | 0, _, _, acc => acc
  | k + 1, x, e, acc => powMod m k (x * x % m) (e / 2) (if e % 2 = 1 then acc * x % m else acc)

/-- The inverse of a residue modulo a prime of 256 bits. -/
def invMod (m x : Nat) : Nat := powMod m 256 (x % m) (m - 2) 1

/-- A point of the curve; `none` is the point at infinity. -/
abbrev Point := Option (Nat × Nat)

/-- The sum of two points. -/
def Point.add (x y : Point) : Point :=
  match x, y with
  | none, q => q
  | p, none => p
  | some a, some b =>
    if a.1 = b.1 ∧ (a.2 + b.2) % p256 = 0 then none
    else
      let l := if a = b then (3 * a.1 * a.1 + (p256 - 3)) * invMod p256 (2 * a.2) % p256
        else (b.2 + p256 - a.2) * invMod p256 (b.1 + p256 - a.1) % p256
      let u := (l * l + 2 * p256 - a.1 - b.1) % p256
      some (u, (l * (a.1 + p256 - u) + p256 - a.2) % p256)

/-- A multiple of a point, by the bits of the factor from the least on. -/
def Point.mul : Nat → Nat → Point → Point → Point
  | 0, _, _, acc => acc
  | k + 1, e, q, acc => Point.mul k (e / 2) (q.add q) (if e % 2 = 1 then acc.add q else acc)

/-- PUB is a point of P-256 (R447). -/
def onCurve (x y : Nat) : Bool :=
  decide (x < p256) && decide (y < p256) && (y * y % p256 == (x * x * x + (p256 - 3) * x + b256) % p256)

/-- R447: ECDSA over P-256 with SHA-256 accepts `(r, s)` for a message under a public key. -/
def ecdsaAccepts (msg : List Nat) (x y r s : Nat) : Bool :=
  onCurve x y && decide (1 ≤ r) && decide (r < n256) && decide (1 ≤ s) && decide (s < n256) &&
    (let z := ofBeBytes (sha256 msg)
     let w := invMod n256 s
     let u := (Point.mul 256 (z * w % n256) (some g256) none).add (Point.mul 256 (r * w % n256) (some (x, y)) none)
     match u with
     | some p => p.1 % n256 == r
     | none => false)

/-- R447: a 144-byte signature block: KEY, the public key and the signature. -/
structure Signature where
  key : Nat
  pub : List Nat
  r : Nat
  s : Nat
  deriving DecidableEq, Repr

/-- R447: a signature block read. -/
def Signature.ofBytes (b : List Nat) : Signature :=
  ⟨b.headD 0, (b.drop 16).take 64, ofBeBytes ((b.drop 80).take 32), ofBeBytes ((b.drop 112).take 32)⟩

/-- R447: the signature accepts a message under its own public key, whose hash is the one programmed. -/
def Signature.accepts (g : Signature) (msg hash : List Nat) : Bool :=
  sha256 g.pub == hash && ecdsaAccepts msg (ofBeBytes (g.pub.take 32)) (ofBeBytes (g.pub.drop 32)) g.r g.s

end Sys2Proof.Machine
end

