-- ==== Sys2Proof/Machine/Law.lean ====
section
/-! DEFINITION. The law engine (chapter 5): sections, banks, the injector, the capture and the oscillation detector, and the
commands of the LAW block. -/

namespace Sys2Proof.Machine

/-! ### Access -/

/-- A lane's law part changed. -/
def Mach.onLaw (m : Mach) (l : Lane) (f : LawLane → LawLane) : Mach := { m with law := m.law.set l (f (m.law.get l)) }

/-- A slot's law part. -/
def Mach.lawSlot (m : Mach) (l : Lane) (k : Nat) : LawSlot := nth (m.law.get l).slots k

/-- A slot's law part changed. -/
def Mach.onLawSlot (m : Mach) (l : Lane) (k : Nat) (f : LawSlot → LawSlot) : Mach :=
  m.onLaw l fun x => { x with slots := upd x.slots k f }

/-- Signal j of slot k in lane l (R113). -/
def Mach.sig (m : Mach) (l : Lane) (k j : Nat) : Int := nth (m.lawSlot l k).sig j

/-- A signal written. -/
def Mach.setSig (m : Mach) (l : Lane) (k j : Nat) (v : Int) : Mach :=
  m.onLawSlot l k fun s => { s with sig := s.sig.set j v }

/-- The run flag of a slot in the tick executed: LAW_SLOT_STAT.RUN (R119). -/
def Mach.runFlag (m : Mach) (l : Lane) (k : Nat) : Bool := m.bit (Reg.LAW_SLOT_STAT l.ix k) 31

/-- A word of law memory. -/
def LawLane.word (x : LawLane) (a : Nat) : Word := (Cells.get x.words a).getD 0#32

/-- A word of law memory written. -/
def LawLane.setWord (x : LawLane) (a : Nat) (w : Word) : LawLane := { x with words := Cells.put 0#32 a w x.words }

/-- Key of a coefficient word (R122). -/
def coefKey (bank : Bool) (addr : Nat) : Nat := bank.toNat * 2 ^ 16 + addr

/-- Key of a topology word. -/
def topoKey (section_ : Nat) : Nat := 2 ^ 17 + section_

/-- First section and number of sections of a slot's cascade (LAW_SLOT_CFG). -/
def Mach.cascade (m : Mach) (l : Lane) (k : Nat) : Nat × Nat :=
  (m.fld (Reg.LAW_SLOT_CFG l.ix k) 12 0, m.fld (Reg.LAW_SLOT_CFG l.ix k) 28 16)

/-- The slot of those that the lane runs whose cascade holds a section (R121, R122). -/
def Mach.slotOfSection (m : Mach) (l : Lane) (n : Nat) : Option Nat :=
  (List.range 16).find? fun k => m.runsSlot l k &&
    (let c := m.cascade l k
     decide (c.1 ≤ n) && decide (n < c.1 + c.2))

/-! ### The section (R115, R116) -/

/-- A coefficient record (R118). -/
structure Coef where
  b0 : Gain
  b1 : Gain
  b2 : Gain
  a1 : Gain
  a2 : Gain
  hi : Int
  lo : Int
  deriving DecidableEq, Repr

/-- The record of a section in one bank. -/
def LawLane.coef (x : LawLane) (bank : Bool) (n : Nat) : Coef :=
  let w := fun i => x.word (coefKey bank (8 * n + i))
  let sh := w 5
  { b0 := ⟨(w 0).toInt, sh.bits 4 0⟩, b1 := ⟨(w 1).toInt, sh.bits 9 5⟩, b2 := ⟨(w 2).toInt, sh.bits 14 10⟩,
    a1 := ⟨(w 3).toInt, sh.bits 19 15⟩, a2 := ⟨(w 4).toInt, sh.bits 24 20⟩, hi := (w 6).toInt, lo := (w 7).toInt }

/-- R116: the limits of a section. -/
def sectionLimits (t : Word) (c : Coef) (sig : List Int) : Int × Int :=
  let s := nth sig (t.bits 8 3)
  match t.bits 10 9 with
  | 0 => (c.lo, c.hi)
  | 1 => (-(sat32 s.natAbs), sat32 s.natAbs)
  | 2 => (c.lo, s)
  | _ => (s, c.hi)

/-- What runs through a cascade: the signal file, the previous section's output, and the clamped sections so far. -/
structure Flow where
  sig : List Int
  prev : Int
  clamped : Nat
  deriving DecidableEq, Repr

/-- R115, R116: one section on its state, with the topology word and coefficients given; it counts as clamped when narrowing or either
limit changed y. -/
def runSection (t : Word) (c : Coef) (runs : Bool) (st : Int × Int) (f : Flow) : (Int × Int) × Flow :=
  let a := if t.bit 31 then f.prev else nth f.sig (t.bits 30 25)
  let b := nth f.sig (t.bits 24 19)
  let x := match t.bits 18 17 with
    | 0 => a
    | 1 => sat32 (a - b)
    | _ => sat32 (a + b)
  let x := if t.bit 2 then sat32 (x + nth f.sig 24) else x
  let p0 := mulg x c.b0
  let p1 := mulg x c.b1
  let p2 := mulg x c.b2
  let wide := addsat64 p0 st.1
  let y0 := sat32 wide
  let lim := sectionLimits t c f.sig
  let y := clampI lim.1 lim.2 y0
  let changed := y0 != wide || decide (y0 < lim.1) || decide (lim.2 < max y0 lim.1)
  let q1 := mulg y c.a1
  let q2 := mulg y c.a2
  let s1 := sat32 (addsat64 (addsat64 p1 (-q1)) st.2)
  let s2 := sat32 (addsat64 p2 (-q2))
  let held := t.bit 1 && !runs
  let dest := t.bits 16 11
  ((if held then (0, 0) else (s1, s2)),
   { sig := if dest = 0 then f.sig else f.sig.set dest y, prev := y, clamped := f.clamped + changed.toNat })

/-- R114, R120 step 2: a cascade in ascending order, from section `n` on. -/
def runCascade (x : LawLane) (bank runs : Bool) : Nat → List (Int × Int) → Flow → List (Int × Int) × Flow
  | _, [], f => ([], f)
  | n, st :: rest, f =>
    let r := runSection (x.word (topoKey n)) (x.coef bank n) runs st f
    let r2 := runCascade x bank runs (n + 1) rest r.2
    (r.1 :: r2.1, r2.2)

/-! ### The injector (R125, R126) -/

/-- R125: t(k) = round_half_away(32,767 × sin(2πk / 65,536)), from the exact quarter series. -/
def sin15 (k : Nat) : Int :=
  let k := k % 65536
  let r := k % 16384
  let val (j : Nat) : Int :=
    let x := twoPi96 * j / 2 ^ 16
    roundHalfAway (32767 * sinTerms 18 1 (x * x / 2 ^ 96) x) (2 ^ 96)
  match k / 16384 with
  | 0 => val r
  | 1 => val (16384 - r)
  | 2 => -(val r)
  | _ => -(val (16384 - r))

/-- LAW_INJ_STAT.STATE: 0 idle, 1 running, 2 ramping out. -/
def Mach.injState (m : Mach) (l : Lane) : Nat := m.fld (Reg.LAW_INJ_STAT l.ix) 31 30

/-- LAW_INJ_STAT.SLOT: the target of the last start. -/
def Mach.injSlot (m : Mach) (l : Lane) : Nat := m.fld (Reg.LAW_INJ_STAT l.ix) 29 26

/-- A lane's injector. -/
def Mach.inj (m : Mach) (l : Lane) : Injector := (m.law.get l).inj

/-- A lane's injector changed. -/
def Mach.onInj (m : Mach) (l : Lane) (f : Injector → Injector) : Mach := m.onLaw l fun x => { x with inj := f x.inj }

/-- Degree and second tap of the polynomial of LAW_INJ_AUX.POLY (R125). -/
def prbsPoly : Nat → Option (Nat × Nat)
  | 0 => some (7, 6)
  | 1 => some (9, 5)
  | 2 => some (11, 9)
  | 3 => some (15, 14)
  | 4 => some (23, 18)
  | 5 => some (31, 28)
  | _ => none

/-- R125: the Fibonacci shift register one bit on; the newest bit is bit 0. -/
def prbsNext (deg tap reg : Nat) : Nat :=
  (reg * 2 + ((reg.testBit (deg - 1)) ^^ (reg.testBit (tap - 1))).toNat) % 2 ^ deg

/-- R125: FREQ one step on: the chirps add to it at each boundary. -/
def Mach.freqStep (m : Mach) (l : Lane) (f : Int) : Int :=
  let rate := m.rdS (Reg.LAW_INJ_RATE l.ix)
  match m.fld (Reg.LAW_INJ_CTRL l.ix) 22 20 with
  | 2 => f + rate
  | 3 => f + asr (f * rate) 32
  | _ => f

/-- R126: a chirp's FREQ has reached F1. -/
def Mach.freqPassed (m : Mach) (l : Lane) (f : Int) : Bool :=
  let mode := m.fld (Reg.LAW_INJ_CTRL l.ix) 22 20
  let f0 : Int := (m.rd (Reg.LAW_INJ_F0 l.ix)).toNat
  let f1 : Int := (m.rd (Reg.LAW_INJ_F1 l.ix)).toNat
  decide (mode = 2 ∨ mode = 3) && decide ((f0 ≤ f1 ∧ f1 ≤ f ∧ f ≠ f0) ∨ (f1 < f0 ∧ f ≤ f1))

/-- FREQ of the tick after this one: a chirp holds at F1. -/
def Mach.freqNext (m : Mach) (l : Lane) : Int :=
  let f := m.freqStep l (m.inj l).freq
  if m.freqPassed l f then (m.rd (Reg.LAW_INJ_F1 l.ix)).toNat else f

/-- R125: the reference at a phase, and with `bit` for PRBS. -/
def Mach.injWave (m : Mach) (l : Lane) (quad : Bool) (phi : Int) (bit : Bool) : Int :=
  if m.fld (Reg.LAW_INJ_CTRL l.ix) 22 20 = 4 then (if quad then 0 else if bit then 32767 else -32767)
  else sin15 (unsigned 48 phi / 2 ^ 32 + (if quad then 16384 else 0))

/-- R81, R125: the in-phase (or quadrature) reference of a lane's injector at a cycle of the tick, Q1.15. -/
def Mach.injRef (m : Mach) (l : Lane) (quad : Bool) (cyc : Int) : Int :=
  let i := m.inj l
  if cyc < 0 then m.injWave l quad (i.phi + cyc * i.freqBefore) (i.shiftBefore.testBit 0)
  else m.injWave l quad (i.phi + cyc * i.freq) (i.shift.testBit 0)

/-- R125: the reference at boundary n + 1.5P: FREQ steps at boundary n + 1. -/
def Mach.injMid (m : Mach) (l : Lane) (quad : Bool) : Int :=
  let i := m.inj l
  m.injWave l quad (i.phi + m.period * i.freq + m.period * m.freqNext l / 2) (i.shift.testBit 0)

/-- R126: the lane whose injector serves ACQ: the one that runs the target slot, lane A's while it is healthy when paired. In split
arrangement both may run; the spec then names none for an accumulator, and the model takes lane A's first (log entry 28). -/
def Mach.refLane (m : Mach) : Lane :=
  if m.arr == 1 then (if m.live .a then .a else .b)
  else if m.injState .a != 0 then .a else if m.injState .b != 0 then .b else .a

/-- R81: the reference of a DEMOD accumulator. -/
def Mach.demodRef (m : Mach) (quad : Bool) (cyc : Int) : Int := m.injRef m.refLane quad cyc

/-- R126: an injection ends with a cause, at once: S24 is 0 from the next Law stage. -/
def Mach.injEnd (m : Mach) (l : Lane) (cause : Nat) : Mach :=
  let m := m.setFld (Reg.LAW_INJ_STAT l.ix) 31 30 0
  let m := m.setFld (Reg.LAW_INJ_STAT l.ix) 25 22 cause
  let m := m.onInj l fun i => { i with rampLeft := 0 }
  (m.raise 0x1006 0 (m.injSlot l) [cause] l.origin).orr (Reg.LAW_IRQ_STAT l.ix) 8

/-- R126: ramp-out begins; with RAMP 0 the run ends with the tick. -/
def Mach.injRampOut (m : Mach) (l : Lane) (cause : Nat) : Mach :=
  let m := m.setFld (Reg.LAW_INJ_STAT l.ix) 31 30 2
  let m := m.setFld (Reg.LAW_INJ_STAT l.ix) 25 22 cause
  m.onInj l fun i => { i with rampLeft := m.fld (Reg.LAW_INJ_CTRL l.ix) 11 0 }

/-- R126: a chirp's FREQ is held at F1. -/
def Mach.freqHold (m : Mach) (l : Lane) : Mach := m.onInj l fun i => { i with freq := (m.rd (Reg.LAW_INJ_F1 l.ix)).toNat }

/-- R126: DUR reached, or a chirp's FREQ at or past F1, while running: the ramp-out of that cause. A chirp already ramping out is
held at F1 too. -/
def Mach.injDurationEnd (m : Mach) (l : Lane) : Mach :=
  if m.injState l = 1 then
    let dur := (m.rd (Reg.LAW_INJ_DUR l.ix)).toNat
    if m.freqPassed l (m.inj l).freq then (m.freqHold l).injRampOut l 2
    else if dur ≠ 0 ∧ dur ≤ (m.rd (Reg.LAW_INJ_TICKS l.ix)).toNat then m.injRampOut l 1
    else m
  else if m.injState l = 2 && m.freqPassed l (m.inj l).freq then m.freqHold l
  else m

/-- R126: the ramp-out is over: the run ends with the cause that began it. -/
def Mach.injRampEnd (m : Mach) (l : Lane) : Mach :=
  if m.injState l = 2 ∧ (m.inj l).rampLeft = 0 then m.injEnd l (m.fld (Reg.LAW_INJ_STAT l.ix) 25 22) else m

/-- R126: the codes of a refused start, in the order of the rule; `chgBusy` is code 7's condition (R269). -/
def Mach.injRefusal (m : Mach) (l : Lane) (chgBusy : Bool) : Option Nat :=
  let ctrl := m.rd (Reg.LAW_INJ_CTRL l.ix)
  let k := ctrl.bits 27 24
  let mode := ctrl.bits 22 20
  let aux := m.rd (Reg.LAW_INJ_AUX l.ix)
  let fmax := 2 ^ 48 / (4 * m.period)
  if !m.bit (Reg.LAW_SLOT_CFG l.ix k) 15 || !m.runsSlot l k then some 1
  else if !m.runFlag l k then some 2
  else if (m.rd (Reg.LAW_INJ_F0 l.ix)).toNat > fmax ∨ (m.rd (Reg.LAW_INJ_F1 l.ix)).toNat > fmax then some 3
  else if mode = 0 ∨ 5 ≤ mode ∨ (prbsPoly (aux.bits 10 8)).isNone then some 4
  else if mode = 4 ∧ (m.rd (Reg.LAW_INJ_SEED l.ix)).toNat % 2 ^ ((prbsPoly (aux.bits 10 8)).getD (31, 28)).1 = 0 then some 5
  else if m.mode ≠ .service ∧ ¬(m.mode = .charge ∧ m.isType k .dab) then some 6
  else if chgBusy then some 7
  else none

/-- R125, R126: a start acts: AMP is clipped to INJMAX, φ starts at PH0, FREQ at F0, the shift register at SEED. -/
def Mach.injStart (m : Mach) (l : Lane) (chgBusy : Bool) : Mach :=
  let k := m.fld (Reg.LAW_INJ_CTRL l.ix) 27 24
  match m.injRefusal l chgBusy with
  | some c =>
    let m := m.setFld (Reg.LAW_INJ_STAT l.ix) 25 22 8
    (m.raise 0x1005 0 k [c] l.origin).orr (Reg.LAW_IRQ_STAT l.ix) 4
  | none =>
    let amp := m.rdS (Reg.LAW_INJ_AMP l.ix)
    let top := m.rdS (Reg.LAW_SLOT_INJMAX l.ix k)
    let aux := m.rd (Reg.LAW_INJ_AUX l.ix)
    let deg := ((prbsPoly (aux.bits 10 8)).getD (31, 28)).1
    let m := m.wrN (Reg.LAW_INJ_STAT l.ix) (2 ^ 30 + k * 2 ^ 26 + (if amp > top then 1 else 0))
    let m := m.wrN (Reg.LAW_INJ_TICKS l.ix) 0
    m.onInj l fun _ =>
      { phi := aux.bits 31 16 * 2 ^ 32, freq := (m.rd (Reg.LAW_INJ_F0 l.ix)).toNat,
        shift := (m.rd (Reg.LAW_INJ_SEED l.ix)).toNat % 2 ^ deg, freqBefore := (m.rd (Reg.LAW_INJ_F0 l.ix)).toNat,
        shiftBefore := (m.rd (Reg.LAW_INJ_SEED l.ix)).toNat % 2 ^ deg, chip := 0, rampLeft := 0,
        amp := if amp > top then top else amp }

/-- R125: at a boundary a running injector's phase moves on one tick, then FREQ steps and the chip advances. -/
def Mach.injAdvance (m : Mach) (l : Lane) : Mach :=
  if m.injState l = 0 then m else
    let mode := m.fld (Reg.LAW_INJ_CTRL l.ix) 22 20
    let aux := m.rd (Reg.LAW_INJ_AUX l.ix)
    let poly := (prbsPoly (aux.bits 10 8)).getD (31, 28)
    let chips := if aux.bits 7 0 = 0 then 256 else aux.bits 7 0
    let ticks := (m.rd (Reg.LAW_INJ_TICKS l.ix)).toNat
    let m := m.wrN (Reg.LAW_INJ_TICKS l.ix) (min (ticks + 1) (2 ^ 32 - 1))
    let f := m.freqStep l (m.inj l).freq
    m.onInj l fun i =>
      let step := i.chip + 1 ≥ chips
      { i with
        phi := (i.phi + i.freq * m.period) % 2 ^ 48
        freq := f.toNat
        freqBefore := i.freq
        shiftBefore := i.shift
        chip := if step then 0 else i.chip + 1
        shift := if mode = 4 ∧ step then prbsNext poly.1 poly.2 i.shift else i.shift
        rampLeft := i.rampLeft - 1 }

/-- R125: the value injected in the tick executed. -/
def Mach.injValue (m : Mach) (l : Lane) : Int :=
  if m.injState l = 0 then 0 else
    let i := m.inj l
    let rampLen := m.fld (Reg.LAW_INJ_CTRL l.ix) 11 0
    let u0 : Int :=
      if m.fld (Reg.LAW_INJ_CTRL l.ix) 22 20 = 4 then (if i.shift.testBit 0 then i.amp else -i.amp)
      else asr (i.amp * m.injMid l false) 15
    let since := (m.rd (Reg.LAW_INJ_TICKS l.ix)).toNat
    let e := min since (min rampLen (if m.injState l = 2 then i.rampLeft else rampLen))
    if rampLen = 0 then u0 else tdiv (u0 * e) rampLen

/-! ### The oscillation detector (R128, R129) -/

/-- The sign of a number. -/
def sgnI (v : Int) : Int := if v < 0 then -1 else if v > 0 then 1 else 0

/-- R128: one tick of the detector, up to the window's count; the window's end is `oscWindowEnd`. -/
def oscSample (v : Int) (kShift : Nat) (amp : Int) (s : LawSlot) : LawSlot :=
  let mean := sat32 (s.mean + asr (v - s.mean) kShift)
  let d := v - mean
  let s := { s with mean := mean }
  let s := if d ≠ 0 ∧ sgnI d ≠ s.sgn then
      { s with swings := if s.peak ≥ amp then s.swings + 1 else s.swings, sgn := sgnI d, peak := d.natAbs }
    else { s with peak := max s.peak d.natAbs }
  { s with win := s.win + 1 }

/-- R128: at OSCWIN ticks the window ends and its swing count restarts. -/
def oscWindowEnd (oscwin : Nat) (s : LawSlot) : LawSlot :=
  if oscwin ≤ s.win then { s with win := 0, swings := 0 } else s

/-- R128: while the run flag is 0 the detector holds. -/
def oscHold (v : Int) (s : LawSlot) : LawSlot := { s with mean := v, sgn := 0, peak := 0, swings := 0, win := 0 }

/-- R129: a detection: 0x1004 soon after a detector swap, otherwise 0x1003 with what OSCACT selects; an injection on the slot
ends. -/
def Mach.oscDetect (m : Mach) (l : Lane) (k n : Nat) : Mach :=
  let cfg := m.rd (Reg.LAW_SLOT_OSC l.ix k)
  let s := m.lawSlot l k
  let soon := match s.swapTick with
    | some t => decide (n ≤ t + 2 * cfg.bits 31 16)
    | none => false
  let data := [k, cfg.bits 5 0] ++ leBytes 2 s.swings
  let m := m.orr (Reg.LAW_IRQ_STAT l.ix) 0x20
  let m := m.incSat (Reg.LAW_SLOT_STAT l.ix k) 7 0
  let m := if soon then m.raiseF3 0x1004 k [] l.origin
    else match cfg.bits 7 6 with
      | 0 => m.raise 0x1003 0 k data l.origin
      | 1 => (((m.raise 0x1003 1 k data l.origin).setBit (Reg.LAW_SLOT_STAT l.ix k) 28 true).setBit (Reg.LAW_SLOT_STAT l.ix k) 29
          true).onLawSlot l k fun s => { s with detSwap := true, sealLeft := 2 }
      | _ => m.raiseF3 0x1003 k data l.origin
  let m := m.onLawSlot l k fun s => { s with win := 0, swings := 0, detected := true }
  if m.injState l ≠ 0 ∧ m.injSlot l = k then m.injEnd l 6 else m

/-- R120 step 3: the detector of a slot in the tick executed; off while OSCCNT is 0. -/
def Mach.oscillation (m : Mach) (l : Lane) (k n : Nat) : Mach :=
  let cfg := m.rd (Reg.LAW_SLOT_OSC l.ix k)
  let amp := m.rd (Reg.LAW_SLOT_OSCAMP l.ix k)
  let v := m.sig l k (cfg.bits 5 0)
  let m := m.onLawSlot l k fun s => { s with detected := false }
  if !m.runFlag l k then (m.onLawSlot l k (oscHold v)).setFld (Reg.LAW_SLOT_STAT l.ix k) 15 8 0
  else
    let m := m.onLawSlot l k fun s => oscWindowEnd (cfg.bits 31 16) (oscSample v (amp.bits 31 28) (amp.bits 27 0) s)
    let m := if cfg.bits 15 8 ≠ 0 ∧ cfg.bits 15 8 ≤ (m.lawSlot l k).swings then m.oscDetect l k n else m
    m.setFld (Reg.LAW_SLOT_STAT l.ix k) 15 8 (m.lawSlot l k).swings

/-! ### The capture (R127) -/

/-- R127: the 64-byte record of the tick executed. -/
def Mach.captureRecord (m : Mach) (l : Lane) (k n t0 : Nat) : List Nat :=
  let cfg := m.rd (Reg.LAW_CAP_CFG l.ix)
  let nsig := cfg.bits 2 0 + 1
  let onSlot := m.injState l != 0 && m.injSlot l == k
  let names := leBytes 4 (m.rd (Reg.LAW_CAP_SIG0 l.ix)).toNat ++ leBytes 4 (m.rd (Reg.LAW_CAP_SIG1 l.ix)).toNat
  let flags := onSlot.toNat + 2 * (m.laneCode l == 4).toNat + 4 * (m.runFlag l k).toNat +
    8 * (m.bit (Reg.LAW_SLOT_STAT l.ix k) 30).toNat + 16 * (m.lawSlot l k).detected.toNat
  leBytes 8 t0 ++ leBytes 4 n ++ [k, nsig] ++ leBytes 2 flags ++ leBytes 4 (u32 (m.sig l k 24)) ++
    leBytes 2 (unsigned 16 (m.injMid l false)) ++ leBytes 2 (unsigned 16 (m.injMid l true)) ++
    leBytes 2 (m.fld (Reg.LAW_SLOT_STAT l.ix k) 27 16) ++ List.replicate 6 0 ++
    padTo 32 ((names.take nsig).flatMap fun j => leBytes 4 (u32 (m.sig l k (j % 64))))

/-- R120 step 4: every DEC + 1 ticks the record of the captured slot goes to its ring through port 1. -/
def Mach.capture (m : Mach) (l : Lane) (k n t0 : Nat) : Mach :=
  let cfg := m.rd (Reg.LAW_CAP_CFG l.ix)
  if !cfg.bit 31 || cfg.bits 27 24 ≠ k then m
  else if (m.law.get l).capSkip < cfg.bits 23 16 then m.onLaw l fun x => { x with capSkip := x.capSkip + 1 }
  else
    let m := m.onOffers fun x => x ++ [⟨l, cfg.bits 11 8, 1, m.captureRecord l k n t0⟩]
    m.onLaw l fun x => { x with capSkip := 0 }

/-! ### The Law stage (R120) -/

/-- R120: the Law stage of a slot in tick `n` with boundary stamp `t0`, after Transform has written S0 to S15. -/
def Mach.lawStage (m : Mach) (l : Lane) (k n t0 : Nat) : Mach :=
  let m := m.setSig l k 24 (if m.injSlot l = k then m.injValue l else 0)
  let x := m.law.get l
  let s := m.lawSlot l k
  let r := runCascade x (m.bit (Reg.LAW_SLOT_STAT l.ix k) 30) (m.runFlag l k) (m.cascade l k).1 s.states ⟨s.sig, 0, 0⟩
  let m := m.onLawSlot l k fun x => { x with states := r.1, sig := r.2.sig, before := (s.sig, s.states) }
  let m := m.setFld (Reg.LAW_SLOT_STAT l.ix k) 27 16 (min r.2.clamped 0xFFF)
  (m.oscillation l k n).capture l k n t0

/-- R50: the law state of a slot that the tick's end abandons is that left by the last section that completed; how far the stage came is
not stated, so the number of sections is a free value (log entries 2 and 83). -/
def Mach.lawAbandon (m : Mach) (l : Lane) (k : Nat) : Mach :=
  let x := m.law.get l
  let s := m.lawSlot l k
  let f := m.freeVal 16
  let j := f.1 % (s.before.2.length + 1)
  let r := runCascade x (m.bit (Reg.LAW_SLOT_STAT l.ix k) 30) (m.runFlag l k) (m.cascade l k).1 (s.before.2.take j) ⟨s.before.1, 0, 0⟩
  f.2.onLawSlot l k fun s => { s with states := r.1 ++ s.before.2.drop j, sig := r.2.sig }

/-! ### Boundary work -/

/-- R121: a section's state preset; `s1` to a value, `s2` to 0. -/
def Mach.presetSection (m : Mach) (l : Lane) (n : Nat) (v : Int) : Mach :=
  match m.slotOfSection l n with
  | some k => m.onLawSlot l k fun s => { s with states := s.states.set (n - (m.cascade l k).1) (v, 0) }
  | none => m

/-- R121: the pending preset acts at the shadow transfer and EN clears, or it is refused with event 0x1009 and EN stays. -/
def Mach.takePreset (m : Mach) (l : Lane) : Mach :=
  let idx := m.rd (Reg.LAW_PRE_IDX l.ix)
  if !idx.bit 31 then m
  else
    match m.slotOfSection l (idx.bits 12 0) with
    | some _ => (m.presetSection l (idx.bits 12 0) (m.rdS (Reg.LAW_PRE_VAL l.ix))).setBit (Reg.LAW_PRE_IDX l.ix) 31 false
    | none => (m.raise 0x1009 0 0xFF [] l.origin).orr (Reg.LAW_IRQ_STAT l.ix) 0x10

/-- R123, R124: a slot's banks exchange, and the seal counts from here. -/
def Mach.swapBanks (m : Mach) (l : Lane) (k : Nat) : Mach :=
  let st := Reg.LAW_SLOT_STAT l.ix k
  let m := m.setBit st 30 (!m.bit st 30)
  let m := (m.setBit st 29 true).setBit st 28 false
  m.onLawSlot l k fun s => { s with sealLeft := 2, sealBefore := 2, fwSwap := false, asked := false }

/-- R124: the seal that a request set lifts where the swap does not take effect; an earlier swap's seal goes on. -/
def Mach.sealReturns (m : Mach) (l : Lane) (k : Nat) : Mach :=
  let b := (m.lawSlot l k).sealBefore
  (m.setBit (Reg.LAW_SLOT_STAT l.ix k) 29 (b != 0)).onLawSlot l k fun s => { s with sealLeft := b, asked := false }

/-- R42 step 4, R123, R129: the swaps of a lane due at this boundary; a detector swap discards a firmware swap, and the seal of a
request that is not in the transferred value returns (R124). -/
def Mach.takeSwaps (m : Mach) (l : Lane) (n : Nat) : Mach :=
  forN 16 (fun k m =>
    let s := m.lawSlot l k
    if s.detSwap then
      let m := m.swapBanks l k
      let m := m.onLawSlot l k fun s => { s with detSwap := false, swapTick := some n }
      if s.fwSwap then m.raise 0x1008 0 k [] l.origin else m
    else if s.fwSwap then m.swapBanks l k
    else if s.asked then m.sealReturns l k
    else m) m

/-- R123: the slots whose swap waits in the shadow are those of a mask; a detector swap stays. -/
def Mach.swapsWaiting (m : Mach) (l : Lane) (mask : Nat) : Mach :=
  forN 16 (fun k m =>
    let on := mask.testBit k
    (m.onLawSlot l k fun s => { s with fwSwap := on }).setBit (Reg.LAW_SLOT_STAT l.ix k) 28 (on || (m.lawSlot l k).detSwap)) m

/-- R124: a checkpoint has completed: each seal whose swap has taken effect is one nearer to lifting; while a swap waits, what its
seal would return to is. -/
def Mach.sealLift (m : Mach) (l : Lane) : Mach :=
  forN 16 (fun k m =>
    let s := m.lawSlot l k
    if s.sealLeft = 0 then m
    else if s.asked || s.detSwap then m.onLawSlot l k fun s => { s with sealBefore := s.sealBefore - 1 }
    else
      let m := m.onLawSlot l k fun s => { s with sealLeft := s.sealLeft - 1, sealBefore := s.sealLeft - 1 }
      m.setBit (Reg.LAW_SLOT_STAT l.ix k) 29 (s.sealLeft ≠ 1)) m

/-- R123, R124: LAW_SWAP written: its slots are the shadow's, and each is sealed from the write on. -/
def Mach.requestSwap (m : Mach) (l : Lane) (mask : Nat) : Mach :=
  forL (bitsOf 16 mask) (fun k m =>
    (m.setBit (Reg.LAW_SLOT_STAT l.ix k) 29 true).onLawSlot l k fun s => { s with asked := true, sealLeft := 2 }) (m.swapsWaiting l mask)

/-! ### Command registers (R55, R56) -/

/-- R55: a command register's write: outside tick context it is ignored with 0x0405; after TASKDL it is discarded. -/
def Mach.shadowWrite (m : Mach) (l : Lane) (a : Nat) (v : Word) (eff : Mach → Mach := fun m => m) : Mach :=
  if !m.inTick l then m.raise 0x0405 0 0xFF [] l.origin
  else if (m.tl l).taskOverrun then m
  else eff (m.onTick l fun t => { t with shadow := t.shadow ++ [(a, v)] })

/-- The value last written to a command register: the shadow's, else the one in force (R11). -/
def Mach.lastWritten (m : Mach) (l : Lane) (a : Nat) : Word :=
  match (m.tl l).shadow.reverse.find? (fun c => c.1 == a) with
  | some c => c.2
  | none => m.rd a

/-! ### The LAW commands -/

/-- R121, R122: event and count of a refused port write. -/
def Mach.portRefused (m : Mach) (l : Lane) : Mach :=
  ((m.incSat (Reg.LAW_CW_STAT l.ix) 31 16).raise 0x1002 0 0xFF [] l.origin).orr (Reg.LAW_IRQ_STAT l.ix) 0x10

/-- R122: every access to LAW_CW_DATA advances the address by one. -/
def Mach.portAdvance (m : Mach) (l : Lane) : Mach := m.incMod (Reg.LAW_CW_ADDR l.ix) 15 0

/-- R122: the slot whose inactive bank a port write may change now. -/
def Mach.portSlot (m : Mach) (l : Lane) : Option Nat :=
  let cw := m.rd (Reg.LAW_CW_ADDR l.ix)
  if !m.inTick l || cw.bit 29 then none
  else match m.slotOfSection l (cw.bits 15 0 / 8) with
    | some k => if m.bit (Reg.LAW_SLOT_STAT l.ix k) 29 then none else some k
    | none => none

/-- R122, R323: a port write, repeated on a lane that is recovering. -/
def Mach.portWrite (m : Mach) (l : Lane) (v : Word) : Mach :=
  let cw := m.rd (Reg.LAW_CW_ADDR l.ix)
  let m := match m.portSlot l with
    | some k =>
      let key := coefKey (!m.bit (Reg.LAW_SLOT_STAT l.ix k) 30) (cw.bits 15 0)
      let m := m.onLaw l fun x => x.setWord key v
      if m.laneCode l.other ∈ [3, 4, 5] then m.onLaw l.other fun x => x.setWord key v else m
    | none => m.portRefused l
  m.portAdvance l

/-- R122: what a port read returns. -/
def Mach.portWord (m : Mach) (l : Lane) : Word :=
  let cw := m.rd (Reg.LAW_CW_ADDR l.ix)
  let x := m.law.get l
  if cw.bit 29 then x.word (topoKey (cw.bits 15 0 / 8))
  else
    let active := match (List.range 16).find? fun k =>
        (let c := m.cascade l k
         decide (c.1 ≤ cw.bits 15 0 / 8) && decide (cw.bits 15 0 / 8 < c.1 + c.2)) with
      | some k => m.bit (Reg.LAW_SLOT_STAT l.ix k) 30
      | none => false
    x.word (coefKey (active == cw.bit 30) (cw.bits 15 0))

/-- LAW_PORT_WRITE (R122). -/
def execLawPortWrite (cyc : Nat) (who : Writer) (lane : Lane) (value : Word) (s : State) : Host.Outcome State Fault Refusal :=
  run s cyc fun m => m.ownCopy who lane (Reg.LAW_CW_DATA lane.ix) fun m => m.portWrite lane value

/-- LAW_PORT_READ (R122): any reader, any context; the read advances the lane's own address. -/
def execLawPortRead (cyc : Nat) (lane : Lane) (s : State) : Host.Outcome State Fault Refusal :=
  run s cyc fun m => (m.say (.data (m.portWord lane))).portAdvance lane

/-- LAW_SWAP_REQUEST (R123, R124). -/
def execLawSwapRequest (cyc : Nat) (who : Writer) (lane : Lane) (value : Word) (s : State) :
    Host.Outcome State Fault Refusal :=
  run s cyc fun m => m.ownCopy who lane (Reg.LAW_SWAP lane.ix) fun m =>
    m.shadowWrite lane (Reg.LAW_SWAP lane.ix) (value &&& 0xFFFF#32) fun m => m.requestSwap lane (value.bits 15 0)

/-- SECTION_PRESET (R121): the write of LAW_PRE_IDX with EN; the boundary acts on it. -/
def execSectionPreset (cyc : Nat) (who : Writer) (lane : Lane) (value : Word) (s : State) : Host.Outcome State Fault Refusal :=
  run s cyc fun m => m.ownCopy who lane (Reg.LAW_PRE_IDX lane.ix) fun m =>
    m.shadowWrite lane (Reg.LAW_PRE_IDX lane.ix) ((value &&& 0x1FFF#32) ||| 0x80000000#32)

/-- INJECTOR_START (R126): the write of LAW_INJ_CTRL with START; the boundary starts or refuses. -/
def execInjectorStart (cyc : Nat) (who : Writer) (lane : Lane) (value : Word) (s : State) : Host.Outcome State Fault Refusal :=
  run s cyc fun m => m.ownCopy who lane (Reg.LAW_INJ_CTRL lane.ix) fun m =>
    m.shadowWrite lane (Reg.LAW_INJ_CTRL lane.ix) ((value &&& 0xCF700FFF#32) ||| 0x80000000#32)

/-- INJECTOR_STOP (R126): the write of LAW_INJ_CTRL with STOP; the boundary begins ramp-out. -/
def execInjectorStop (cyc : Nat) (who : Writer) (lane : Lane) (value : Word) (s : State) : Host.Outcome State Fault Refusal :=
  run s cyc fun m => m.ownCopy who lane (Reg.LAW_INJ_CTRL lane.ix) fun m =>
    m.shadowWrite lane (Reg.LAW_INJ_CTRL lane.ix) ((value &&& 0xCF700FFF#32) ||| 0x40000000#32)

/-- INJECTION_DURATION_END (R126). -/
def execInjectionDurationEnd (cyc : Nat) (lane : Lane) (s : State) : Host.Outcome State Fault Refusal :=
  run s cyc fun m => m.injDurationEnd lane

/-- INJECTION_RAMP_OUT_END (R126). -/
def execInjectionRampOutEnd (cyc : Nat) (lane : Lane) (s : State) : Host.Outcome State Fault Refusal :=
  run s cyc fun m => m.injRampEnd lane

/-- OSCILLATION_WINDOW_END (R128). -/
def execOscillationWindowEnd (cyc : Nat) (lane : Lane) (k : Fin 16) (s : State) : Host.Outcome State Fault Refusal :=
  run s cyc fun m =>
    let m := m.onLawSlot lane k (oscWindowEnd (m.fld (Reg.LAW_SLOT_OSC lane.ix k) 31 16))
    m.setFld (Reg.LAW_SLOT_STAT lane.ix k) 15 8 (m.lawSlot lane k).swings

/-- LAW_MEMORY_ERROR (R131): a corrected error counts; an uncorrectable one is an F2 of the lane. -/
def execLawMemoryError (cyc : Nat) (lane : Lane) (corrected : Bool) (s : State) : Host.Outcome State Fault Refusal :=
  run s cyc fun m =>
    if corrected then m.incSat (Reg.LAW_ECC lane.ix) 15 0
    else ((m.raiseF2 lane 0x1001).health lane 4).orr (Reg.LAW_IRQ_STAT lane.ix) 0x40

end Sys2Proof.Machine
end

