-- ==== Sys2Proof/Machine/Channels.lean ====
section
/-! DEFINITION. The gate channels as they stand (chapter 8): what the frames in execution command at an instant, and what latches,
enables, the clamp, a refresh pulse and hall commutation leave of it. -/

namespace Sys2Proof.Machine

/-! ### Access -/

/-- The gate part changed. -/
def Mach.onGate (m : Mach) (f : GateState → GateState) : Mach := { m with gate := f m.gate }

/-- An isolated pair. -/
def Mach.pair (m : Mach) (p : Nat) : GatePair := nth m.gate.pairs p

/-- An isolated pair changed. -/
def Mach.onPair (m : Mach) (p : Nat) (f : GatePair → GatePair) : Mach := m.onGate fun g => { g with pairs := upd g.pairs p f }

/-- A low-voltage leg. -/
def Mach.leg (m : Mach) (j : Nat) : GateLeg := nth m.gate.legs j

/-- A low-voltage leg changed. -/
def Mach.onLeg (m : Mach) (j : Nat) (f : GateLeg → GateLeg) : Mach := m.onGate fun g => { g with legs := upd g.legs j f }

/-- The slot that a pair serves; none while USE is 0 (R219). -/
def Mach.slotOfPair (m : Mach) (p : Nat) : Option Nat :=
  let c := m.rd (Reg.GDI_PR_CFG p)
  if c.bits 27 26 = 0 then none else some (c.bits 31 28)

/-- The slot that a leg serves; none while USE is 0 (R221). -/
def Mach.slotOfLeg (m : Mach) (j : Nat) : Option Nat :=
  let c := m.rd (Reg.GDL_LEG_CFG j)
  if c.bit 27 then some (c.bits 31 28) else none

/-- The pairs and the legs of a slot, in leg order (R190, R191). -/
def Mach.pairsOf (m : Mach) (k : Nat) : List Nat := (List.range 16).filter fun p => m.slotOfPair p == some k
def Mach.legsOf (m : Mach) (k : Nat) : List Nat := (List.range 24).filter fun j => m.slotOfLeg j == some k

/-- The drive of a leg (R191). -/
def driveOf (j : Nat) : Option Nat := if 6 ≤ j ∧ j < 24 then some ((j - 6) / 3) else none

/-- The last frame accepted for a slot: this tick's, or the one last loaded (R203). -/
def Mach.lastAccepted (m : Mach) (k : Nat) : Option Frame :=
  let s := nth m.lane.slots k
  match s.accepted with
  | some f => some f.1
  | none => s.last.head?

/-- A channel of slot `k` is latched, on the high and on the low side. -/
def Mach.slotLatches (m : Mach) (k : Nat) : Bool × Bool :=
  ((m.pairsOf k).any fun p => (m.pair p).latchH, (m.pairsOf k).any fun p => (m.pair p).latchL)

/-! ### What a record commands at an instant (R193, R194)

Instants are in 1/32 cycle from the boundary of the running tick. -/

/-- One command executed: a channel that comes on was turned on at the command's instant. -/
def Gates.apply (g : Gates) (e : GateEdge) : Gates :=
  { g with h := e.h, l := e.l
           onH := if e.h && !g.h then some e.at_ else g.onH
           onL := if e.l && !g.l then some e.at_ else g.onL }

/-- The commands up to and including instant `t` executed. -/
def Gates.upTo (g : Gates) (t : Int) : Gates :=
  { (g.edges.takeWhile fun e => decide (e.at_ ≤ t)).foldl Gates.apply g with edges := g.edges.dropWhile fun e => decide (e.at_ ≤ t) }

/-- The last instant of cycle `c`. -/
def endOf (c : Nat) : Int := 32 * c + 31

/-- R193: the fixed channel latency of 120 ns, in cycles. -/
def tpd : Nat := 48

/-- R194: the commands that take the switches from `was` to `nxt` at instant `t`: what turns off does so at the edge, what turns on
does so the dead time `dt` (cycles) later. -/
def transition (t : Int) (dt : Nat) (was nxt : Bool × Bool) : List GateEdge :=
  let off := (was.1 && nxt.1, was.2 && nxt.2)
  (if off = was then [] else [⟨t, off.1, off.2⟩]) ++ (if off = nxt then [] else [⟨t + 32 * dt, nxt.1, nxt.2⟩])

/-- R195: what a MODE and a level command: high switch, low switch. -/
def modeCmd (mode : Nat) (level : Bool) : Bool × Bool :=
  match mode with
  | 0 => (level, !level)
  | 2 => (false, true)
  | 3 => (true, false)
  | 4 => (level, false)
  | 5 => (level, !level)
  | _ => (false, false)

/-- R175: the toggles of a record that a mode uses, over `reps` repeats of the pattern, in 1/32 cycle from its start. -/
def Leg.toggles (g : Leg) (mode patlen reps : Nat) : List Nat :=
  if mode = 0 ∨ mode = 4 ∨ mode = 5 then
    (List.range reps).flatMap fun i => ([g.e1, g.e2].filter (· != 0xFFFFFF)).map (· + 32 * patlen * i)
  else []

/-- R193, R194: the commands of a record that loads at instant `t0`: first the start of the pattern, then its toggles. `skew` is the
trim of the high and of the low channel; an edge takes that of the channel that turns off, and with none that of the one that turns
on. A later edge cuts what an earlier one has not yet turned on. -/
def Leg.commands (g : Leg) (mode patlen reps : Nat) (t0 : Int) (skew : Int × Int) (was : Bool × Bool) : List GateEdge :=
  let dt := if mode = 4 then 0 else g.dt
  let trim (was nxt : Bool × Bool) : Int :=
    if was.1 && !nxt.1 then skew.1 else if was.2 && !nxt.2 then skew.2 else if nxt.1 && !was.1 then skew.1 else skew.2
  let step (x : List GateEdge × (Bool × Bool) × Bool) (e : Int) (level : Bool) :=
    let nxt := modeCmd mode level
    let at_ := t0 + e + trim x.2.1 nxt
    let kept := x.1.filter fun y => decide (y.at_ < at_)
    let now := match kept.getLast? with
      | some y => (y.h, y.l)
      | none => was
    (kept ++ transition at_ dt now nxt, nxt, level)
  ((g.toggles mode patlen reps).foldl (fun x e => step x e (!x.2.2)) (step ([], was, g.level0) 0 g.level0)).1

/-- R193: a record loads into a channel at instant `t`, and its commands follow the channel latency; what is already on its way
within the latency takes effect before, and so does a turn-on that leads to where the pattern starts. -/
def Gates.load (g : Gates) (r : Leg) (mode patlen reps : Nat) (t : Int) (skew : Int × Int) : Gates :=
  let t0 := t + 32 * tpd
  let sent := match g.edges.filter fun e => decide (t0 ≤ e.at_) with
    | [e] => if (e.h, e.l) = modeCmd mode r.level0 then g.edges else g.edges.filter fun e => decide (e.at_ < t0)
    | _ => g.edges.filter fun e => decide (e.at_ < t0)
  let was := match sent.getLast? with
    | some e => (e.h, e.l)
    | none => (g.h, g.l)
  { g with edges := sent ++ r.commands mode patlen reps t0 skew was }

/-- The instants counted from the next boundary, `p` cycles on. -/
def Gates.shift (g : Gates) (p : Nat) : Gates :=
  let d : Int := 32 * p
  { g with onH := g.onH.map (· - d), onL := g.onL.map (· - d), edges := g.edges.map fun e => { e with at_ := e.at_ - d } }

/-! ### Hall commutation (R212) -/

/-- R212: the pulse, the return and the off phase of a row. -/
def commPhases : Nat → Nat × Nat
  | 0 => (0, 1)
  | 1 => (0, 2)
  | 2 => (1, 2)
  | 3 => (1, 0)
  | 4 => (2, 0)
  | _ => (2, 1)

/-- R212: the row for a sector and DIR. -/
def commRow (sector : Nat) (dir : Bool) : Nat := if dir then (sector + 3) % 6 else sector

/-- R212: what the phase of a leg leaves of the pulse's switches: the pulse phase follows it, its low side with SYNC only, the
return phase is LOWON, the off phase OFF. -/
def CommRole.cmd (r : CommRole) (sync : Bool) (c : Bool × Bool) : Bool × Bool :=
  match r with
  | .pulse => (c.1, c.2 && sync)
  | .ret => (false, true)
  | .off => (false, false)

/-- What a leg's pattern commands with the pulse's switches at `c`. -/
def GateLeg.cmd (x : GateLeg) (sync : Bool) (c : Bool × Bool) : Bool × Bool := if x.mode = 5 then x.role.cmd sync c else c

/-- The refresh pulse of a leg stands at instant `t`: high and low switch under it (R208). -/
def GateLeg.refreshCmd (x : GateLeg) (t : Int) : Option (Bool × Bool) :=
  match x.refreshAt with
  | some s =>
    let d : Int := 32 * x.dt
    if s ≤ t ∧ t < s + 2 * d + 32 * 60 then some (false, decide (s + d ≤ t) && decide (t < s + d + 32 * 60)) else none
  | none => none

/-- SYNC of the drive of a leg (R221). -/
def Mach.syncOf (m : Mach) (j : Nat) : Bool :=
  match driveOf j with
  | some d => m.bit (Reg.GDL_DRV_CFG d) 23
  | none => false

/-- What a leg's pattern, its commutation and a refresh pulse command at instant `t`; a commutation's incoming switch waits for its
dead time (R213). -/
def Mach.legCmd (m : Mach) (j : Nat) (t : Int) : Bool × Bool :=
  let x := m.leg j
  match x.refreshCmd t with
  | some c => c
  | none =>
    let g := x.out.upTo t
    if t < x.onFrom then (false, false) else x.cmd (m.syncOf j) (g.h, g.l)

/-! ### What the gates do (R192, R194, R200 to R204, R216 to R218) -/

/-- The clamp forces a pair's high switch on; a latch on the pair disables it, and without its rails the channel is off (R204, R217,
R218). -/
def Mach.clampForces (m : Mach) (p : Nat) : Bool :=
  match m.slotOfPair p with
  | some k => m.gate.clamped && m.isType k .chopper && !(m.pair p).latchH && !(m.pair p).latchL && !(m.pair p).uvH &&
      m.mode != .sleep && m.pwr.phase == .up
  | none => false

/-- A slot's channels may be on: enabled (R19, R218), not withdrawn by R205, not held by R202, no item blocked (R216). -/
def Mach.slotOn (m : Mach) (k : Nat) : Bool :=
  m.gate.enabled.testBit k && !m.gate.hardOff.testBit k && !m.gate.held.testBit k &&
    !((m.pairsOf k).any fun p => (m.pair p).blocked) && !((m.legsOf k).any fun j => (m.leg j).blocked)

/-- The frame in execution carries FLAGS.SAFE. -/
def Mach.execSafe (m : Mach) (k : Nat) : Bool :=
  match (nth m.lane.slots k).exec with
  | some f => f.safe
  | none => false

/-- The two gates of an isolated pair where its record commands `c`: a latched channel is never on, and the complement of a latched
one only under a safe-state frame. -/
def Mach.pairGates (m : Mach) (p : Nat) (c : Bool × Bool) : Bool × Bool :=
  let x := m.pair p
  match m.slotOfPair p with
  | none => (false, false)
  | some k =>
    let on := m.slotOn k
    let safe := m.execSafe k
    let h := on && c.1 && !m.gate.stoH.testBit k && !x.latchH && !x.uvH && !x.waitH && (!x.latchL || safe)
    let l := on && c.2 && !m.gate.stoL.testBit k && !x.latchL && !x.uvL && !x.waitL && (!x.latchH || safe)
    if m.clampForces p then (true, false) else (h, l)

/-- The two gates of an isolated pair as they stand. -/
def Mach.pairOut (m : Mach) (p : Nat) : Bool × Bool :=
  let g := (m.pair p).out.upTo (endOf m.time.cyc)
  m.pairGates p (g.h, g.l)

/-- The two gates of a low-voltage leg as they stand; a phase's fast trip and an over-voltage hold legs 0 to 5 off (R235, R241). -/
def Mach.legOut (m : Mach) (j : Nat) : Bool × Bool :=
  let x := m.leg j
  match m.slotOfLeg j with
  | none => (false, false)
  | some k =>
    let on := m.slotOn k && !x.latch && !x.wait && !m.gate.lvLow && !(decide (j < 6) && (m.lvc.trip.testBit j || m.lvc.ovOff))
    let c := m.legCmd j (endOf m.time.cyc)
    (on && c.1 && !m.gate.stoH.testBit k, on && c.2 && !m.gate.stoL.testBit k)

/-- The gates of slot `k` are all off (R75, R215). -/
def Mach.gatesOff (m : Mach) (k : Nat) : Bool :=
  ((m.pairsOf k).all fun p => m.pairOut p == (false, false)) && (m.legsOf k).all fun j => m.legOut j == (false, false)

/-- R200: the strength step with which a channel that is off is held off: SOFT while a soft turn-off runs, then 15; its own turn-off
step otherwise. -/
def Mach.sinkStep (m : Mach) (p : Nat) (low : Bool) : Nat :=
  let x := m.pair p
  match (if low then x.softL else x.softH) with
  | some t => if m.now < t + 200 * m.fld (Reg.GDI_PR_STR p) 7 0 then m.fld (Reg.GDI_PR_CFG p) 3 0 else 15
  | none => if low then m.fld (Reg.GDI_PR_STAT p) 19 16 else m.fld (Reg.GDI_PR_STAT p) 27 24

end Sys2Proof.Machine
end

