-- ==== Sys2Proof/Machine/Acq.lean ====
section
/-! DEFINITION. Acquisition (chapter 3): sequences, urgent requests, accumulators, trackers, the self-check and the offset
calibration, with the supply drift check of R467. -/

namespace Sys2Proof.Machine

/-! ### Access -/

/-- The ACQ part changed. -/
def Mach.onAcq (m : Mach) (f : AcqState → AcqState) : Mach := { m with acq := f m.acq }

/-- A converter. -/
def Mach.conv (m : Mach) (c : Nat) : Converter := nth m.acq.convs c

/-- A converter changed. -/
def Mach.onConv (m : Mach) (c : Nat) (f : Converter → Converter) : Mach :=
  m.onAcq fun a => { a with convs := upd a.convs c f }

/-- A sequence's run. -/
def Mach.seqRun (m : Mach) (q : Nat) : SeqRun := nth m.acq.runs q

/-- A sequence's run changed. -/
def Mach.onRun (m : Mach) (q : Nat) (f : SeqRun → SeqRun) : Mach := m.onAcq fun a => { a with runs := upd a.runs q f }

/-- The entry word of a sequence (R90). -/
def Mach.seqEnt (m : Mach) (q e : Nat) : Word := m.rd (Reg.ACQ_SEQ_ENT q e)

/-- CONV of an entry. -/
def entConv (w : Word) : Nat := w.bits 23 20

/-- The input that an entry names, 8 × c + pin (R71). -/
def entInput (w : Word) : Nat := 8 * entConv w + w.bits 19 17

/-- Entries of a sequence: LEN + 1. -/
def Mach.seqLen (m : Mach) (q : Nat) : Nat := m.fld (Reg.ACQ_SEQ_TRIG q) 4 0 + 1

/-- The entry after the group that begins at entry `e` (R74): entries with WITH set join. -/
def Mach.groupEnd (m : Mach) (q e : Nat) : Nat :=
  let joined := (List.range 32).takeWhile fun i => decide (e + 1 + i < m.seqLen q) && (m.seqEnt q (e + 1 + i)).bit 31
  e + 1 + joined.length

/-- The entries of a group. -/
def groupList (a b : Nat) : List Nat := (List.range (b - a)).map (a + ·)

/-- VDDA stands above its monitor threshold (R89). -/
def Mach.vddaOk (m : Mach) : Bool := m.bit Reg.ACQ_STATUS 12

/-- A converter is marked failed (R86). -/
def Mach.convFailed (m : Mach) (c : Nat) : Bool := m.bit Reg.ACQ_STATUS c

/-! ### Samples (R71, R81, R85) -/

/-- R71: the code of an input voltage in nanovolts: the nearest of 62.5 µV each, 0 below 0 V and 65,535 at the top. -/
def adcCode (nv : Int) : Nat := min ((2 * nv + 62500) / 125000).toNat 65535

/-- R81: x of a code; a value outside 17 signed bits is one that the rule does not state, and is free (log entry 2). -/
def Mach.sampleOf (m : Mach) (input code : Nat) : Int × Mach :=
  let w := m.rd (Reg.ACQ_IN input)
  let x : Int := code - (w.bits 15 0 + signed 15 (w.bits 30 16))
  if x = signed 17 (unsigned 17 x) then (x, m)
  else
    let r := m.freeVal 17
    (signed 17 r.1, r.2)

/-- R81: a sample into an accumulator's open window. -/
def Mach.accSample (m : Mach) (n : Nat) (x : Int) (sampleAt : Int) : Mach :=
  let add : Int := match m.fld (Reg.ACQ_ACFG_CTRL n) 31 29 with
    | 2 => x * x
    | 3 => x * m.demodRef false sampleAt
    | 4 => x * m.demodRef true sampleAt
    | _ => x
  m.onAcq fun a => { a with acc := upd a.acc n fun w =>
    { w with sum := satN 64 (w.sum + add), count := w.count + 1, last := x } }

/-- R85: the alarm of one limit; ACT 3 stops the first slot of the map that lists the tracker, and none where none does (log entry
23). -/
def Mach.trkAlarm (m : Mach) (t : Nat) (limit : Nat) (v : Int) (at_ : Nat) : Mach :=
  let act := m.fld (Reg.ACQ_TCFG_CTRL t) 1 0
  let data := [t, limit] ++ leBytes 4 (u32 v) ++ leBytes 2 at_
  let owner := m.image.slots.find? fun e => e.accs.contains (0x8000 + t)
  match act with
  | 0 => m
  | 3 => (match owner with
      | some e => m.raiseF3 0x0805 e.slot data
      | none => m.raise 0x0805 3 0xFF data).orr Reg.ACQ_IRQ_STAT 0x10
  | c => (m.raise 0x0805 (c - 1) 0xFF data).orr Reg.ACQ_IRQ_STAT 0x10

/-- R85: a sample into a tracker's window, with its alarms. -/
def Mach.trkSample (m : Mach) (t : Nat) (x : Int) (sampleAt : Int) : Mach :=
  let v := sat32 (asr (x * m.rdS (Reg.ACQ_TCFG_M t)) (m.fld (Reg.ACQ_TCFG_CTRL t) 6 2))
  let at_ := (sampleAt % (m.period : Int)).toNat
  let above := decide (m.rdS (Reg.ACQ_TCFG_HI t) < v)
  let below := decide (v < m.rdS (Reg.ACQ_TCFG_LO t))
  let m := m.onAcq fun a => { a with trk := upd a.trk t fun w =>
    let w := if w.count = 0 ∨ v < w.min then { w with min := v, mincyc := at_ } else w
    let w := if w.count = 0 ∨ w.max < v then { w with max := v, maxcyc := at_ } else w
    { w with count := w.count + 1, hi := w.hi || above, lo := w.lo || below } }
  let m := if above then m.trkAlarm t 1 v at_ else m
  if below then m.trkAlarm t 2 v at_ else m

/-- R81, R83, R85, R89: a completed conversion's sample goes to its accumulator and its tracker. -/
def Mach.deliver (m : Mach) (input code : Nat) (acc trk : Option Nat) (sampleAt : Int) : Mach :=
  if !m.vddaOk then m
  else if m.convFailed (input / 8) then
    match acc with
    | some n => m.onAcq fun a => { a with acc := upd a.acc n fun w => { w with failconv := true } }
    | none => m
  else
    let r := m.sampleOf input code
    let m := r.2
    let m := match acc with
      | some n => m.accSample n r.1 sampleAt
      | none => m
    match trk with
    | some t => m.trkSample t r.1 sampleAt
    | none => m

/-! ### Sequences (R74 to R78) -/

/-- A run's converters leave the group under way when it is still acquiring in cycle `cyc`. -/
def Mach.dropGroup (m : Mach) (q cyc : Nat) : Mach :=
  m.onAcq fun a => { a with convs := a.convs.map fun c =>
    match c.use with
    | .seq q' _ s => if q' = q ∧ (cyc : Int) < s then { c with use := .free } else c
    | _ => c }

/-- R75, R77: a trigger starts a run, and truncates the one before when it still has entries to give up. -/
def Mach.trigger (m : Mach) (q : Nat) : Mach :=
  let r := m.seqRun q
  let acquiring := r.started && decide ((m.time.cyc : Int) < r.sampleAt)
  let drops := r.active && (!r.started || acquiring || decide (r.gEnd < m.seqLen q))
  let m := if r.active then m.dropGroup q m.time.cyc else m
  let m := if drops then
      ((m.onAcq fun a => { a with trunc := a.trunc + 1 }).raise 0x0803 0).orr Reg.ACQ_IRQ_STAT 4
    else m
  m.onRun q fun r => { r with active := true, started := false, gStart := 0, gEnd := 0, left := [] }

/-- R75, R163: a carrier extreme of slot `k` falls on cycle `x`, counted from the boundary at which the last period of a carrier
that spans ticks could begin; `valley` and `peak` say which extremes count. -/
def Mach.extremeAt (m : Mach) (k : Nat) (x : Int) (valley peak : Bool) : Bool :=
  match m.slotEntry k with
  | none => false
  | some e =>
    let num : Int := max (m.period * (ratio e.rlog).2) 1
    let den : Int := 2 * (ratio e.rlog).1
    let is (j : Int) : Bool := j * num / den == x && (if j % 2 = 0 then valley else peak)
    is (x * den / num) || is (x * den / num + 1)

/-- R75: the present cycle is a trigger instant of sequence `q`: a source instant plus the offset. -/
def Mach.trigsNow (m : Mach) (q : Nat) : Bool :=
  let t := m.rd (Reg.ACQ_SEQ_TRIG q)
  let k := t.bits 27 24
  let p := max m.period 1
  let span := ((m.slotEntry k).map fun e => (ratio e.rlog).2).getD 1
  let x : Int := (m.seq % span * p + m.time.cyc : Nat) - signed 16 (t.bits 23 8)
  let inTick := (x % p).toNat
  match t.bits 31 28 with
  | 1 => m.extremeAt k x true false
  | 2 => m.extremeAt k x false true
  | 3 => m.extremeAt k x true true
  | 4 => inTick == 0
  | 5 => [0, p / 4, p / 2, 3 * p / 4].contains inTick && m.gatesOff k
  | 6 => m.extremeAt k (x + ((m.fld (Reg.MOD_CFG 0 k) 15 0 + 1) / 2 : Nat)) true true
  | _ => false

/-- R75: SEQUENCE_TRIGGER acts at a trigger instant of a sequence of the image. -/
def Mach.triggerSeq (m : Mach) (q : Nat) : Mach :=
  if q = 15 ∨ !m.tick.running ∨ m.mode = .sleep ∨ !m.trigsNow q then m else m.trigger q

/-- R76: the converters that a sequence's run waits for: those of the groups that have not started. -/
def Mach.waitsFor (m : Mach) (q : Nat) : List Nat :=
  let r := m.seqRun q
  if !r.active then [] else
    let from_ := if r.started then r.gEnd else r.gStart
    (groupList from_ (m.seqLen q)).map fun e => entConv (m.seqEnt q e)

/-- R74, R76, R79: the next group of a run can start. -/
def Mach.groupReady (m : Mach) (q : Nat) : Bool :=
  let r := m.seqRun q
  let convs := (groupList r.gStart (m.groupEnd q r.gStart)).map fun e => entConv (m.seqEnt q e)
  r.active && !r.started && decide (r.gStart < m.seqLen q) &&
    (convs.all fun c => (m.conv c).use == .free && (m.conv c).queue.isEmpty) &&
    (List.range q).all fun p => (m.waitsFor p).all fun c => !convs.contains c

/-- R74: a group starts; its sample instant lies the largest ACQT ahead. -/
def Mach.groupStart (m : Mach) (q : Nat) : Mach :=
  if !m.groupReady q then m else
    let r := m.seqRun q
    let es := groupList r.gStart (m.groupEnd q r.gStart)
    let longest := (es.map fun e => (m.seqEnt q e).bits 7 0).foldl max 0
    let s : Int := m.time.cyc + longest
    let m := forL es (fun e m => m.onConv (entConv (m.seqEnt q e)) fun c => { c with use := .seq q e s }) m
    m.onRun q fun r => { r with started := true, gEnd := r.gStart + es.length, left := es, sampleAt := s }

/-- R74: an entry of the group under way has completed; after the last the run moves on or ends. -/
def Mach.entryDone (m : Mach) (q e : Nat) : Mach :=
  let r := m.seqRun q
  if !(r.started && r.left.contains e) then m else
    let left := r.left.erase e
    let len := m.seqLen q
    m.onRun q fun r =>
      if !left.isEmpty then { r with left := left }
      else if r.gEnd < len then { r with left := [], started := false, gStart := r.gEnd }
      else { r with left := [], started := false, active := false }

/-- R71, R82: the conversion of a converter completes, in the cycle 64 after its sample instant. -/
def Mach.completeConv (m : Mach) (c code : Nat) : Mach :=
  match (m.conv c).use with
  | .seq q e s =>
    if (m.time.cyc : Int) ≠ s + 64 then m else
      let w := m.seqEnt q e
      let m := m.onConv c fun x => { x with use := .free }
      let m := m.deliver (entInput w) code (if w.bit 16 then some (w.bits 15 8) else none)
        (if w.bit 30 then some (w.bits 29 24) else none) s
      m.entryDone q e
  | .urgent r s =>
    if (m.time.cyc : Int) ≠ s + 64 then m else
      let m := m.onConv c fun x => { x with use := .free }
      m.deliver r.input code r.acc none s
  | .free => m

/-! ### Urgent requests (R79, R80) -/

/-- ACQ_URG_STAT.PEND: requests queued. -/
def Mach.setPend (m : Mach) : Mach := m.setFld Reg.ACQ_URG_STAT 5 0 ((m.acq.convs.map fun c => c.queue.length).sum)

/-- R80: a refused request. -/
def Mach.urgRefuse (m : Mach) : Mach := ((m.incSat Reg.ACQ_URG_STAT 31 16).raise 0x0804 0).orr Reg.ACQ_IRQ_STAT 8

/-- R80: probe requests stand ahead of firmware requests, each kind in arrival order. -/
def enqueueUrgent (r : UrgentReq) (l : List UrgentReq) : List UrgentReq :=
  if r.probe then l.filter (·.probe) ++ [r] ++ l.filter (fun x => !x.probe) else l ++ [r]

/-- R79: the sequence on the converter is suspended in cycle `cyc`: an acquisition is abandoned with its whole group, a conversion
completes. -/
def Mach.suspend (m : Mach) (c cyc : Nat) : Mach :=
  match (m.conv c).use with
  | .seq q _ s =>
    let m := m.onAcq fun a => { a with susp := a.susp + 1 }
    if (cyc : Int) < s then (m.dropGroup q cyc).onRun q fun r => { r with started := false, left := [] } else m
  | _ => m

/-- R80: a request of cycle `cyc` queued or refused. -/
def Mach.urgentRequest (m : Mach) (cyc : Nat) (r : UrgentReq) : Mach :=
  let c := r.input / 8
  let badAcc := match r.acc with
    | some n => !r.probe && (m.image.slots.any (fun e => e.accs.contains n) || m.fld (Reg.ACQ_ACFG_CTRL n) 31 29 != 1)
    | none => false
  if r.input > 95 ∨ badAcc = true ∨ 4 ≤ (m.conv c).queue.length then m.urgRefuse
  else ((m.suspend c cyc).onConv c fun x => { x with queue := enqueueUrgent r x.queue }).setPend

/-- R80, R90: the request of an ACQ_URG_REQ value waits for cycle 1 of its accession tick. -/
def Mach.firmwareUrgent (m : Mach) (v : Word) : Mach :=
  m.onAcq fun a => { a with firmware := a.firmware ++ [⟨v.bits 14 8, max 16 (v.bits 23 16), some (v.bits 7 0), false⟩] }

/-- R79: cycle 1 of the tick, after the windows of the tick before have closed: firmware's requests are issued. -/
def Mach.issueFirmware (m : Mach) : Mach :=
  let rs := m.acq.firmware
  forL rs (fun r m => m.urgentRequest 1 r) (m.onAcq fun a => { a with firmware := [] })

/-- R79: the converter, free again, serves the first request that waits. -/
def Mach.urgentStart (m : Mach) (c : Nat) : Mach :=
  let x := m.conv c
  match x.use, x.queue with
  | .free, r :: rest =>
    (m.onConv c fun x => { x with use := .urgent r (m.time.cyc + r.acqt), queue := rest }).setPend
  | _, _ => m

/-! ### Self-check (R86, R467) -/

/-- R86: a converter marked failed; the third within 16 ticks is an F4. -/
def Mach.markFailed (m : Mach) (c : Nat) : Mach :=
  if m.convFailed c then m else
    let m := (m.setBit Reg.ACQ_STATUS c true).onConv c fun x => { x with failedAt := m.seq }
    let m := (m.raise 0x0801 1).orr Reg.ACQ_IRQ_STAT 1
    let recent := ((List.range 12).filter fun i => m.convFailed i && decide (m.seq ≤ (m.conv i).failedAt + 16)).length
    if recent = 3 then m.raiseF4 0x0809 else m

/-- R86: one reading of the check reference or of ground against its window. -/
def Mach.checkReading (m : Mach) (c : Nat) (ground : Bool) (dev : Int) : Mach :=
  let window : Int := if ground then 24 else 48
  let bad := decide (dev < -window) || decide (window < dev)
  let m := if ground then m.setFld (Reg.ACQ_CHK c) 15 0 (unsigned 16 dev) else m.setFld (Reg.ACQ_CHK c) 31 16 (unsigned 16 dev)
  let m := m.onConv c fun x =>
    if ground then { x with gndRun := if bad then x.gndRun + 1 else 0 }
    else { x with refRun := if bad then x.refRun + 1 else 0 }
  if 2 ≤ (if ground then (m.conv c).gndRun else (m.conv c).refRun) then m.markFailed c else m

/-- R467: the nominal values in mV, in the order of ACQ_SUP; VIN_AUX has none. -/
def supplyNominal : Nat → Option Nat
  | 0 => some 800
  | 1 => some 1100
  | 2 => some 1800
  | 3 => some 3300
  | 4 => some 5000
  | 5 => some 15000
  | _ => none

/-- R467: the drift check of one supply reading. -/
def Mach.supplyDrift (m : Mach) (k : Nat) (mv : Int) : Mach :=
  match supplyNominal k with
  | none => m
  | some n =>
    let err := (mv - n).natAbs
    let outside := decide (n * 5 < err * 100)
    let inside := decide (err * 100 ≤ n * 4)
    let m := m.onPwr fun p => { p with
      driftOut := upd p.driftOut k fun x => if outside then x + 1 else 0
      driftIn := upd p.driftIn k fun x => if inside then x + 1 else 0 }
    let told := nth m.pwr.driftTold k
    if 8 ≤ nth m.pwr.driftOut k ∧ !told then
      ((m.onPwr fun p => { p with driftTold := p.driftTold.set k true }).raise 0x4803 1 0xFF [k]).orr
        Reg.PWR_IRQ_STAT 1
    else if 8 ≤ nth m.pwr.driftIn k ∧ told then m.onPwr fun p => { p with driftTold := p.driftTold.set k false }
    else m

/-- R76, R86: sequence 15 may convert: the converter has power, and no sequence and no urgent request claims it. -/
def Mach.checkRuns (m : Mach) (c : Nat) : Bool :=
  m.vddaOk && m.pwr.phase == .up && !(m.tick.running && m.mode == .sleep) && (m.conv c).use == .free && (m.conv c).queue.isEmpty &&
    (List.range 15).all fun q => !(m.waitsFor q).contains c

/-- R86: one self-check conversion of a converter. -/
def Mach.selfCheck (m : Mach) (c item : Nat) (v : Int) : Mach :=
  if !m.checkRuns c then m
  else if item = 0 then m.checkReading c false v
  else if item = 1 then m.checkReading c true v
  else if item ≤ 8 then (m.wrN (Reg.ACQ_SUP (item - 2)) (unsigned 16 v)).supplyDrift (item - 2) v
  else if item = 9 then
    let m := m.onAcq fun a => { a with dieTemp := a.dieTemp.set c (some v) }
    m.wrN (Reg.ACQ_SUP 7) (unsigned 16 ((m.acq.dieTemp.filterMap id).foldl max v))
  else m

/-! ### Calibration (R87, R88) -/

/-- Inputs marked CAL whose samples feed an accumulator or a tracker of slot `k`. -/
def Mach.calInputs (m : Mach) (k : Nat) : List Nat :=
  match m.slotEntry k with
  | none => []
  | some s =>
    ((List.range 15).flatMap fun q =>
      if m.fld (Reg.ACQ_SEQ_TRIG q) 31 28 = 0 then []
      else (List.range (m.seqLen q)).filterMap fun e =>
        let w := m.seqEnt q e
        let feeds := (w.bit 16 && s.accs.contains (w.bits 15 8)) || (w.bit 30 && s.accs.contains (0x8000 + w.bits 29 24))
        if feeds && m.bit (Reg.ACQ_IN (entInput w)) 31 then some (entInput w) else none).dedup

/-- The answer of a slot in ACQ_CAL_STAT. -/
def Mach.setCal (m : Mach) (k v : Nat) : Mach := m.setFld Reg.ACQ_CAL_STAT (2 * k + 1) (2 * k) v

/-- R88: a TRACTION slot whose speed from Locate, FOC_M_SPD of its motor, exceeds 2 % of rated speed (1.0 pu). -/
def Mach.tooFast (m : Mach) (k : Nat) : Bool :=
  let l := match m.slotEntry k with
    | some e => if m.arr == 2 then e.slane else m.active
    | none => m.active
  m.isType k .traction && (List.range 2).any fun i =>
    m.motorSet i && m.fld (Reg.FOC_M_CFG l.ix i) 31 28 == k &&
      decide (2 * 2 ^ 29 < 100 * (m.rdS (Reg.FOC_M_SPD l.ix i)).natAbs)

/-- R88: a calibration answered DEFERRED. -/
def Mach.calDefer (m : Mach) (mask : Nat) : Mach :=
  if mask = 0 then m else
    let m := forL (bitsOf 16 mask) (fun k m => m.setCal k 2) m
    let m := m.onAcq fun a => { a with calDeferred := a.calDeferred ||| mask }
    (m.raise 0x0806 0).orr Reg.ACQ_IRQ_STAT 0x20

/-- R88: the calibration of every CAL input, which bit 16 beside the slots' bits stands for. -/
def calAll : Nat := 0x10000

/-- R88: every CAL input but those of deferred slots. -/
def Mach.calEvery (m : Mach) : List Nat :=
  let later := (bitsOf 16 m.acq.calDeferred).flatMap m.calInputs
  (List.range 96).filter fun i => m.bit (Reg.ACQ_IN i) 31 && !later.contains i

/-- The inputs of a calibration. -/
def Mach.calTargets (m : Mach) (mask : Nat) : List Nat :=
  (((bitsOf 16 mask).flatMap m.calInputs) ++ if mask.testBit 16 then m.calEvery else []).dedup

/-- R87: the first calibration in the queue begins to measure. -/
def Mach.calBegin (m : Mach) : Mach :=
  match m.acq.calQueue with
  | [] => m.setBit Reg.ACQ_STATUS 13 false
  | mask :: _ =>
    (m.setBit Reg.ACQ_STATUS 13 true).onAcq fun a =>
      { a with calLeft := m.calTargets mask, calNew := [], calFailed := 0 }

/-- R87, R88: slots taken for calibration; a request made while one runs is taken after it (log entry 23). -/
def Mach.calRun (m : Mach) (mask : Nat) : Mach :=
  if mask = 0 then m else
    let m := forL (bitsOf 16 mask) (fun k m => m.setCal k 1) m
    let first := m.acq.calQueue.isEmpty
    let m := m.onAcq fun a => { a with calQueue := a.calQueue ++ [mask], calDeferred := a.calDeferred &&& (0xFFFF - mask % calAll) }
    if first then m.calBegin else m

/-- R88: a request at its accession tick. -/
def Mach.calRequest (m : Mach) (mask : Nat) : Mach :=
  let m := m.wr Reg.ACQ_CAL_REQ 0#32
  if m.mode ≠ .standby then m.calDefer mask
  else
    let fast := ((bitsOf 16 mask).filter m.tooFast).map (2 ^ ·) |>.sum
    (m.calDefer fast).calRun (mask - fast)

/-- R87: the 256 samples of an input are in: its new offset, or its refusal. -/
def Mach.calInput (m : Mach) (i sum : Nat) : Mach :=
  if !m.acq.calLeft.contains i then m else
    let off : Int := roundHalfAway sum 256 - m.fld (Reg.ACQ_IN i) 15 0
    let m := m.onAcq fun a => { a with calLeft := a.calLeft.erase i }
    if off.natAbs ≤ 1311 then m.onAcq fun a => { a with calNew := a.calNew ++ [(i, off)] }
    else
      let slots := ((List.range 16).filter fun k => (m.acq.calQueue.headD 0).testBit k && (m.calInputs k).contains i).map (2 ^ ·)
      ((m.onAcq fun a => { a with calFailed := a.calFailed ||| slots.sum }).raise 0x0807 1).orr Reg.ACQ_IRQ_STAT 0x20

/-- R87: at the boundary after the last input the new offsets apply together and the request ends. -/
def Mach.calEnd (m : Mach) : Mach :=
  match m.acq.calQueue with
  | [] => m
  | mask :: rest =>
    if !m.acq.calLeft.isEmpty then m else
      let m := forL m.acq.calNew (fun p m => m.setFld (Reg.ACQ_IN p.1) 30 16 (unsigned 15 p.2)) m
      let failed := m.acq.calFailed
      let m := forL (bitsOf 16 mask) (fun k m => m.setCal k (if failed.testBit k then 3 else 0)) m
      let m := m.onAcq fun a => { a with calQueue := rest, calNew := [], calFailed := 0 }
      ((m.raise 0x0808 0).orr Reg.ACQ_IRQ_STAT 0x20).calBegin

/-- R88: calibration runs only in STANDBY: what is still running when STANDBY is left is answered DEFERRED; an entry to STANDBY
runs what was deferred, and the first after boot every CAL input. -/
def Mach.calMode (m : Mach) : Mach :=
  if m.mode ≠ .standby then
    if m.acq.calQueue.isEmpty then m
    else
      let mask := m.acq.calQueue.foldl (· ||| ·) 0 % calAll
      ((m.onAcq fun a => { a with calQueue := [], calLeft := [], calNew := [] }).setBit Reg.ACQ_STATUS 13 false).calDefer mask
  else if m.sys.changed ∨ !m.acq.calFirstDone then
    let all := ((List.range 16).filter fun k => !(m.calInputs k).isEmpty).map (2 ^ ·) |>.sum
    let first := !m.acq.calFirstDone
    let mask := m.acq.calDeferred ||| (if first then all else 0)
    let fast := ((bitsOf 16 mask).filter m.tooFast).map (2 ^ ·) |>.sum
    let m := (m.onAcq fun a => { a with calFirstDone := true }).calDefer fast
    m.calRun (mask - fast + if first && !m.calEvery.isEmpty then calAll else 0)
  else m

/-! ### The close (R82 to R85, R89) -/

/-- R81: VALUE and SAT of an accumulator's window with samples. -/
def accValue (op : Nat) (mant : Int) (s : Nat) (w : AccWindow) : Int × Bool :=
  let mean := if op = 1 then w.last else roundHalfAway w.sum w.count
  let v := asr (mean * mant) (if op = 3 ∨ op = 4 then s + 15 else s)
  (sat32 v, decide (sat32 v ≠ v))

/-- The newest set of the shelf. -/
def Mach.acqHead (m : Mach) : AcqSet := m.acq.shelf.headD ⟨0, [], [], 0, 0⟩

/-- The set of the shelf whose tag is this tick's (R84). -/
def Mach.acqSet (m : Mach) (tick : Nat) : AcqSet :=
  (m.acq.shelf.find? fun s => s.tag == tick % 2 ^ 32).getD ⟨0, [], [], 0, 0⟩

/-- R81, R83: an accumulator's frozen result. A window without a sample shows the SAT of the set before it (log entry 23). -/
def Mach.accResult (m : Mach) (n : Nat) (w : AccWindow) : AccResult :=
  let ctrl := m.rd (Reg.ACQ_ACFG_CTRL n)
  if w.count = 0 then
    let old := nth m.acqHead.acc n
    { value := old.value, stale := true, sat := old.sat, failconv := w.failconv, count := 0 }
  else
    let v := accValue (ctrl.bits 31 29) (m.rdS (Reg.ACQ_ACFG_M n)) (ctrl.bits 28 24) w
    { value := v.1, stale := false, sat := v.2, failconv := w.failconv, count := min w.count 0xFFFF }

/-- The accumulator is fed by a sensing sequence of a slot whose gates switch: its critical marking is suspended. -/
def Mach.sensingSuspended (m : Mach) (n : Nat) : Bool :=
  (List.range 15).any fun q =>
    let t := m.rd (Reg.ACQ_SEQ_TRIG q)
    t.bits 31 28 == 5 && !m.gatesOff (t.bits 27 24) &&
      (List.range (m.seqLen q)).any fun e => (m.seqEnt q e).bit 16 && (m.seqEnt q e).bits 15 8 == n

/-- R83: event 0x0802 for each slot that reads a critical accumulator without a sample. -/
def Mach.critical (m : Mach) (n : Nat) : Mach :=
  if m.bit (Reg.ACQ_ACFG_CTRL n) 23 && (nth m.acqHead.acc n).stale && m.vddaOk && decide (m.seq ≠ 0) && !m.sensingSuspended n then
    forL (m.image.slots.filter fun e => e.accs.contains n) (fun e m => (m.raiseF3 0x0802 e.slot).orr Reg.ACQ_IRQ_STAT 2) m
  else m

/-- R82: the close of step 5: one set freezes on the shelf, and the windows restart. -/
def Mach.acqClose (m : Mach) : Mach :=
  let set : AcqSet :=
    { tag := m.seq % 2 ^ 32, acc := m.acq.acc.mapIdx m.accResult, trk := m.acq.trk, trunc := min m.acq.trunc 0xFFFF,
      susp := min m.acq.susp 0xFFFF }
  let m := m.onAcq fun a => { a with
    shelf := (set :: a.shelf).take 32, acc := a.acc.map fun _ => ⟨0, 0, 0, false⟩, trk := a.trk.map fun _ => TrkWindow.empty,
    trunc := 0, susp := 0 }
  let m := (m.wrN Reg.ACQ_SNAP set.tag).wrN Reg.ACQ_COUNTS (set.trunc * 2 ^ 16 + set.susp)
  (forN 256 (fun n m => m.critical n) m).calEnd.calMode

/-- Sample instants are kept in cycles of the current tick: at a boundary they move back by one period. -/
def Mach.acqNewTick (m : Mach) : Mach :=
  let p : Int := m.period
  m.onAcq fun a => { a with
    runs := a.runs.map fun r => { r with sampleAt := r.sampleAt - p }
    convs := a.convs.map fun c =>
      match c.use with
      | .seq q e s => { c with use := .seq q e (s - p) }
      | .urgent r s => { c with use := .urgent r (s - p) }
      | .free => c }

/-! ### What a read of the frozen set shows (R90) -/

/-- INFO of a result. -/
def accInfo (r : AccResult) : Nat :=
  r.stale.toNat * 2 ^ 31 + r.sat.toNat * 2 ^ 30 + r.failconv.toNat * 2 ^ 29 + r.count

/-- FLAGS of a tracker. -/
def trkFlags (w : TrkWindow) : Nat :=
  (decide (w.count = 0)).toNat * 2 ^ 31 + w.hi.toNat * 2 ^ 30 + w.lo.toNat * 2 ^ 29 + min w.count 0xFFFF

/-! ### The ACQ commands -/

/-- SEQUENCE_TRIGGER (R75, R77). -/
def execSequenceTrigger (cyc : Nat) (q : Fin 16) (s : State) : Host.Outcome State Fault Refusal :=
  run s cyc fun m => m.triggerSeq q

/-- GROUP_START (R74, R76). -/
def execGroupStart (cyc : Nat) (q : Fin 16) (s : State) : Host.Outcome State Fault Refusal :=
  run s cyc fun m => m.groupStart q

/-- CONVERSION_COMPLETE (R71, R82): `nv` is the voltage held at the sample instant, in nanovolts. -/
def execConversionComplete (cyc : Nat) (c : Fin 12) (nv : Int) (s : State) : Host.Outcome State Fault Refusal :=
  run s cyc fun m => m.completeConv c (adcCode nv)

/-- URGENT_REQUEST (R80): a write of ACQ_URG_REQ, an asynchronous input. -/
def execUrgentRequest (cyc : Nat) (who : Writer) (value : Word) (s : State) : Host.Outcome State Fault Refusal :=
  run s cyc fun m => m.laneOnly who fun l m => m.asyncWrite l Reg.ACQ_URG_REQ value

/-- URGENT_CONVERSION_START (R79). -/
def execUrgentConversionStart (cyc : Nat) (c : Fin 12) (s : State) : Host.Outcome State Fault Refusal :=
  run s cyc fun m => m.urgentStart c

/-- SELF_CHECK_CONVERSION (R86): item 0 the reference's deviation, 1 ground's, 2 to 8 a supply in mV, 9 a temperature in 0.1 °C. -/
def execSelfCheckConversion (cyc : Nat) (c : Fin 12) (item : Nat) (value : Int) (s : State) :
    Host.Outcome State Fault Refusal :=
  run s cyc fun m => m.selfCheck c item value

/-- CALIBRATION_REQUEST (R88): a write of ACQ_CAL_REQ, an asynchronous input, shown until it is taken. -/
def execCalibrationRequest (cyc : Nat) (who : Writer) (value : Word) (s : State) : Host.Outcome State Fault Refusal :=
  run s cyc fun m => m.laneOnly who fun l m => m.asyncWrite l Reg.ACQ_CAL_REQ (value &&& 0xFFFF#32)

/-- CALIBRATION_COMPLETE (R87): the sums of 256 samples of inputs that the calibration was measuring. -/
def execCalibrationComplete (cyc : Nat) (sums : List (Nat × Nat)) (s : State) : Host.Outcome State Fault Refusal :=
  run s cyc fun m => forL sums (fun p m => m.calInput p.1 p.2) m

/-- VDDA_LOW (R89). -/
def execVddaLow (cyc : Nat) (s : State) : Host.Outcome State Fault Refusal :=
  run s cyc fun m => m.setBit Reg.ACQ_STATUS 12 false

/-- VDDA_RESTORED (R89). -/
def execVddaRestored (cyc : Nat) (s : State) : Host.Outcome State Fault Refusal :=
  run s cyc fun m => m.setBit Reg.ACQ_STATUS 12 true

end Sys2Proof.Machine
end

