-- ==== Sys2Proof/Machine/Pos.lean ====
section
/-! DEFINITION. Position and speed feedback (chapter 4): resolvers, encoders, SENT and SSI sensors, hall triplets, probes, and
the position set. -/

namespace Sys2Proof.Machine

/-! ### Access -/

/-- The POS part changed. -/
def Mach.onPos (m : Mach) (f : PosState → PosState) : Mach := { m with pos := f m.pos }

/-- A position channel. -/
def Mach.chan (m : Mach) (x : Nat) : PosChannel := nth m.pos.chans x

/-- A position channel changed. -/
def Mach.onChan (m : Mach) (x : Nat) (f : PosChannel → PosChannel) : Mach := m.onPos fun p => { p with chans := upd p.chans x f }

/-- A hall triplet. -/
def Mach.hall (m : Mach) (t : Nat) : HallTriplet := nth m.pos.halls t

/-- A hall triplet changed. -/
def Mach.onHall (m : Mach) (t : Nat) (f : HallTriplet → HallTriplet) : Mach := m.onPos fun p => { p with halls := upd p.halls t f }

/-- TYPE of a channel: 0 off, 1 resolver, 2 encoder, 3 SENT, 4 SSI. -/
def Mach.chanType (m : Mach) (x : Nat) : Nat := m.fld (Reg.POS_CH_CFG x) 31 29

/-- MULT of a channel (R94). -/
def Mach.chanMult (m : Mach) (x : Nat) : Nat := m.fld (Reg.POS_CH_CFG x) 28 24

/-- BASE of a channel in mHz. -/
def Mach.chanBase (m : Mach) (x : Nat) : Nat := (m.rd (Reg.POS_CH_BASE x)).toNat

/-- CPR of an encoder (R96). -/
def Mach.chanCpr (m : Mach) (x : Nat) : Nat := 4 * m.fld (Reg.POS_CH_FMT x) 13 0

/-- MISS of a channel (R103). -/
def Mach.chanMiss (m : Mach) (x : Nat) : Nat := m.fld (Reg.POS_CH_LIM x) 7 0

/-- POS runs in every mode but SLEEP (R109). -/
def Mach.posRuns (m : Mach) (x ty : Nat) : Bool := m.mode != .sleep && m.chanType x == ty

/-- A flag of R103 set until the next latch reports it. -/
def Mach.chanFlag (m : Mach) (x bit : Nat) : Mach := m.onChan x fun c => { c with flags := c.flags ||| 2 ^ bit }

/-! ### Sensors -/

/-- The amplitude √(sin² + cos²) lies below `n`/256 of full scale, 2^15 of the converters' codes. -/
def ampBelow (sin cos : Int) (n : Nat) : Bool := decide (sin * sin + cos * cos < (128 * n : Nat) * (128 * n : Nat))

/-- The amplitude √(sin² + cos²) lies above `n`/256 of full scale. -/
def ampAbove (sin cos : Int) (n : Nat) : Bool := decide (((128 * n : Nat) : Int) * (128 * n : Nat) < sin * sin + cos * cos)

/-- R95, R103: one update of the tracking loop: the loop's angle and velocity (2^−32 turn per update), the demodulated windings,
and the excitation's state. The tracking error is the angle of the windings less the loop's (log entry 25). -/
def Mach.resolver (m : Mach) (x : Nat) (theta : Nat) (vel sin cos : Int) (exc : Bool) : Mach :=
  if !m.posRuns x 1 then m else
    let lim := m.rd (Reg.POS_CH_LIM x)
    let err := (s32 ((atan32 sin cos : Int) - theta * 2 ^ 16)).natAbs
    m.onChan x fun c =>
      let los := if ampBelow sin cos (lim.bits 7 0) || ampAbove sin cos (lim.bits 15 8) then c.losRun + 1 else 0
      let lot := if lim.bits 23 16 * 2 ^ 24 < err then c.lotRun + 1 else 0
      { c with
        theta := theta * 2 ^ 16 % 2 ^ 32, vel := vel, thetaCyc := m.time.cyc, velSum := c.velSum + vel, velCount := c.velCount + 1,
        losRun := los, lotRun := lot, excBad := exc,
        flags := c.flags ||| (if 8 ≤ los then 1 else 0) ||| (if 8 ≤ lot then 2 else 0) ||| (if exc then 4 else 0) }

/-- R96: one decoded count. -/
def encoderCount (d : Int) (c : PosChannel) : PosChannel :=
  let fwd := decide (0 < d)
  let c := { c with r := c.r + d }
  if !c.held then
    if fwd = c.dirFwd then { c with c := c.c + d } else { c with held := true }
  else
    let c := { c with held := false }
    if fwd ≠ c.dirFwd then { c with c := c.c + d, dirFwd := fwd } else c

/-- The count that a single change of A or B stands for; A leads B forward (log entry 10). -/
def quadDelta (a b a' b' : Bool) : Int :=
  let pos : Bool → Bool → Nat := fun a b => if a then (if b then 2 else 1) else (if b then 3 else 0)
  if (pos a' b' + 4 - pos a b) % 4 = 1 then 1 else -1

/-- The smallest signed difference modulo `n`. -/
def signedMod (d : Int) (n : Nat) : Int :=
  let r := d % (n : Int)
  if 2 * r < n then r else r - n

/-- R97: a Z edge is compared once the counts of its cycle are in. The difference of two values of C mod CPR is taken around the
turn, as R102 takes positions (log entry 25). -/
def Mach.zCompare (m : Mach) (x : Nat) : Mach :=
  let pos := (m.chan x).c % (m.chanCpr x : Int)
  let m := m.onChan x fun c => { c with zDue := none }
  match (m.chan x).zFirst with
  | none => m.onChan x fun c => { c with zFirst := some pos }
  | some z => if 1 < (signedMod (pos - z) (m.chanCpr x)).natAbs then m.chanFlag x 4 else m

/-- R97: a Z edge of an earlier cycle is compared. -/
def Mach.zSettle (m : Mach) (x : Nat) : Mach :=
  match (m.chan x).zDue with
  | some t => if t < m.now then m.zCompare x else m
  | none => m

/-- R97: a filtered rising edge of Z. -/
def Mach.zEdge (m : Mach) (x : Nat) : Mach :=
  if !m.posRuns x 2 || !m.bit (Reg.POS_CH_FMT x) 14 then m
  else (m.zSettle x).onChan x fun c => { c with zDue := some m.now }

/-- R96, R97, R101: new filtered levels of A and B. -/
def Mach.encoder (m : Mach) (x : Nat) (a b : Bool) : Mach :=
  if !m.posRuns x 2 then m else
    let m := m.zSettle x
    let c := m.chan x
    if c.levelA ≠ a ∧ c.levelB ≠ b then (m.chanFlag x 3).onChan x fun c => { c with levelA := a, levelB := b }
    else if c.levelA = a ∧ c.levelB = b then m
    else
      let last := match c.winCount, c.pastCount with
        | some w, _ => some w.2
        | none, some p => some p.2
        | none, none => none
      let m := match last with
        | some t => if m.now < t + 100 then m.chanFlag x 5 else m
        | none => m
      m.onChan x fun c =>
        let c := encoderCount (quadDelta c.levelA c.levelB a b) c
        { c with levelA := a, levelB := b, winCount := some (c.c, m.now) }

/-! ### SENT (R98, R103; the code of SAE J2716: log entry 25) -/

/-- The table of SAE J2716's CRC-4, polynomial x⁴ + x³ + x² + 1. -/
def sentTable : List Nat := [0, 13, 7, 10, 14, 3, 9, 4, 1, 12, 6, 11, 15, 2, 8, 5]

/-- R98: the CRC-4 of nibbles with seed 0b0101: the recommended code appends a nibble of zeros, the legacy code does not. -/
def sentCrc (legacy : Bool) (ns : List Nat) : Nat :=
  let c := ns.foldl (fun c n => nth sentTable c ^^^ n) 5
  if legacy then c else nth sentTable c

/-- A bit list's value, first bit highest. -/
def ofBits (bs : List Bool) : Nat := bs.foldl (fun v b => 2 * v + b.toNat) 0

/-- A nibble list's value, first nibble highest. -/
def ofNibbles (ns : List Nat) : Nat := ns.foldl (fun v n => 16 * v + n) 0

/-- The CRC-6 of an enhanced serial message: polynomial x⁶ + x⁴ + x³ + 1, seed 0b010101, six zeros appended. -/
def sentCrc6 (bs : List Bool) : Nat :=
  (bs ++ List.replicate 6 false).foldl (fun c b =>
    let d := (2 * c + b.toNat) % 64
    if 32 ≤ c then d ^^^ 0x19 else d) 0x15

/-- A pulse's value in clock ticks, one calibration pulse being 56 of them. -/
def sentTicks (cal pulse : Nat) : Nat := if cal = 0 then 0 else (2 * 56 * pulse + cal) / (2 * cal)

/-- R98: the calibration pulse is within ±20 % of 56 clock ticks of `ut` × 250 ns and within 1/64 of the one before. -/
def sentCalOk (ut prev cal : Nat) : Bool :=
  let nominal := 56 * 250 * ut
  decide (5 * (((cal : Int) - nominal).natAbs) ≤ nominal) && (prev == 0 || decide (64 * ((cal : Int) - prev).natAbs ≤ prev))

/-- The nibbles of a frame's pulses, where there are `n` of them, each of 12 to 27 ticks, and a pause pulse of 12 to 768 ticks
where one is configured. -/
def sentNibbles (n : Nat) (pause : Bool) (cal : Nat) (pulses : List Nat) : Option (List Nat) :=
  let ts := pulses.map (sentTicks cal)
  let ns := ts.take n
  let rest := ts.drop n
  let restOk := if pause then rest.length == 1 && rest.all fun t => decide (12 ≤ t) && decide (t ≤ 768) else rest.isEmpty
  if ns.length = n ∧ ns.all (fun t => decide (12 ≤ t) && decide (t ≤ 27)) ∧ restOk then some (ns.map (· - 12)) else none

/-- R98: the serial message that the latest frame completes, as POS_CH_SLOW shows it: bits 2 and 3 of the status nibbles, newest
first. The short message has 16 frames, an enhanced one 18. -/
def sentSlow (legacy : Bool) (serial : List (Bool × Bool)) : Option Word :=
  let e := (serial.take 18).reverse
  let s := (serial.take 16).reverse
  let data := e.map (·.1)
  let mark := e.map (·.2)
  let at_ (i : Nat) : Bool := nth mark i
  let shortNs := [0, 1, 2].map fun i => ofBits (((s.map (·.1)).drop (4 * i)).take 4)
  let word (id kind v : Nat) : Word := BitVec.ofNat 32 (id * 2 ^ 24 + kind * 2 ^ 22 + v)
  if e.length = 18 ∧ (mark.take 7) = [true, true, true, true, true, true, false] ∧ !at_ 12 ∧ !at_ 17 ∧
      ofBits (data.take 6) = sentCrc6 ((e.drop 6).flatMap fun p => [p.1, p.2]) then
    let low := ofBits (data.drop 6)
    let hi := ofBits ((mark.drop 8).take 4)
    let lo := ofBits ((mark.drop 13).take 4)
    some (if at_ 7 then word hi 3 (lo * 2 ^ 12 + low) else word (hi * 16 + lo) 2 low)
  else if s.length = 16 ∧ (s.map (·.2)) = true :: List.replicate 15 false ∧
      ofBits ((s.map (·.1)).drop 12) = sentCrc legacy shortNs then
    some (word (shortNs.headD 0) 1 (ofNibbles (shortNs.drop 1)))
  else none

/-- R98: a serial message completes as an asynchronous input. -/
def Mach.slowMessage (m : Mach) (x : Nat) (legacy : Bool) : Mach :=
  match sentSlow legacy (m.chan x).serial with
  | some w =>
    let m := m.onChan x fun c => { c with serial := [] }
    if m.bit (Reg.POS_CH_FMT x) 19 then m.accede ⟨9, x, 0, 0, w.toNat, []⟩ else m
  | none => m

/-- R98, R103: a SENT frame whose calibration pulse began at `start` and lasted `cal` ns; then the pulses of its status, data and
CRC nibbles and of the pause, in ns. -/
def Mach.sentFrame (m : Mach) (x start cal : Nat) (pulses : List Nat) : Mach :=
  if !m.posRuns x 3 then m else
    let fmt := m.rd (Reg.POS_CH_FMT x)
    let n := fmt.bits 11 9
    let bits := fmt.bits 16 12
    let legacy := fmt.bit 17
    let miss := m.chanMiss x
    let ns := sentNibbles (n + 2) (fmt.bit 18) cal pulses
    let timOk := sentCalOk (fmt.bits 8 0) (m.chan x).cal cal && ns.isSome
    let status := (ns.getD []).headD 0
    let data := ((ns.getD []).drop 1).take n
    let crcOk := ns.isNone || (ns.getD []).getLastD 0 == sentCrc legacy data
    let good := timOk && crcOk
    let m := m.onChan x fun c =>
      let crc := if ns.isNone then c.crcRun else if crcOk then 0 else c.crcRun + 1
      let tim := if timOk then 0 else c.timRun + 1
      { c with cal := cal, crcRun := crc, timRun := tim,
               serial := if good then ((status.testBit 2, status.testBit 3) :: c.serial).take 18 else [],
               flags := c.flags ||| (if miss < crc then 2 ^ 6 else 0) ||| (if miss < tim then 2 ^ 7 else 0) }
    if good then
      let bad := decide (status % 4 ≠ 0)
      (m.onChan x fun c =>
        { c with frames := (ofNibbles data * 2 ^ (32 - 4 * n) / 2 ^ (32 - bits) * 2 ^ (32 - bits), start) :: c.frames.take 1,
                 lastGood := m.now, statusBad := bad, flags := c.flags ||| (if bad then 2 ^ 9 else 0) }).slowMessage x legacy
    else m

/-! ### SSI (R99) -/

/-- A Gray code's value. -/
def grayValue (bits w : Nat) : Nat := (List.range bits).foldl (fun v i => v ^^^ (w >>> i)) 0 % 2 ^ bits

/-- The ones in the low `n` bits. -/
def onesIn (n w : Nat) : Nat := ((List.range n).filter fun i => w.testBit i).length

/-- R99, R103: the read of an SSI channel that began at the latch: the bits read, first bit highest, the parity bit last where
there is one, and DAT low at the start. -/
def Mach.ssiRead (m : Mach) (x raw : Nat) (stuck : Bool) : Mach :=
  if !m.posRuns x 4 || !(m.chan x).reading then m else
    let fmt := m.rd (Reg.POS_CH_FMT x)
    let bits := fmt.bits 5 0
    let miss := m.chanMiss x
    let bad := fmt.bit 7 && onesIn (bits + 1) raw % 2 == 1
    let data := (if fmt.bit 7 then raw / 2 else raw) % 2 ^ bits
    m.onChan x fun c =>
      let crc := if bad then c.crcRun + 1 else 0
      let st := if stuck then c.stuckRun + 1 else 0
      let c := { c with crcRun := crc, stuckRun := st, reading := false,
                        flags := c.flags ||| (if miss < crc then 2 ^ 6 else 0) ||| (if miss < st then 2 ^ 10 else 0) }
      if bad || stuck then c
      else
        let v := if fmt.bit 6 then grayValue bits data else data
        { c with frames := (v * 2 ^ (32 - bits) % 2 ^ 32, c.latchAt) :: c.frames.take 1, lastGood := m.now }

/-! ### Angles and speeds (R94, R95, R98, R101) -/

/-- The sensor angle at the cycle `cyc` of the tick and the stamp `t`, 2^32 to the turn; SENT and SSI extrapolate with the speed
`spd`. -/
def Mach.sensorAngle (m : Mach) (x t : Nat) (cyc spd : Int) : Nat :=
  let c := m.chan x
  match m.chanType x with
  | 1 => u32 (c.theta + roundHalfAway (c.vel * (cyc - c.thetaCyc)) 2500)
  | 2 =>
    let cpr := m.chanCpr x
    if cpr = 0 then 0 else u32 (roundHalfAway (c.c % (cpr : Int) * 2 ^ 32) cpr)
  | _ =>
    match c.frames with
    | [] => 0
    | f :: _ =>
      if m.chanMult x = 0 then f.1
      else u32 (f.1 + roundHalfAway (spd * m.chanBase x * ((t : Int) - f.2) * 8) (2000000000000 * m.chanMult x))

/-- R94: the electrical angle of a sensor angle. -/
def Mach.electrical (m : Mach) (x s : Nat) : Nat := (s * m.chanMult x + (m.rd (Reg.POS_CH_OFS x)).toNat) % 2 ^ 32

/-- R98, R99, R101: the speed of a channel at its latch, before standstill; a resolver's last one stands until the set freezes. -/
def Mach.channelSpeed (m : Mach) (x t : Nat) : Int × Mach :=
  let c := m.chan x
  let mult := m.chanMult x
  let base := m.chanBase x
  match m.chanType x with
  | 1 => (c.spd, m)
  | 2 =>
    match c.winCount, c.pastCount with
    | some w, some p =>
      m.quotPu ((w.1 - p.1) * mult * 2000000000000 * 2 ^ 29) (m.chanCpr x * (w.2 - p.2) * base)
    | some _, none => (0, m)
    | none, some p =>
      let r := m.quotPu ((mult : Int) * 2000000000000 * 2 ^ 29) (m.chanCpr x * (t - p.2) * base)
      (sgnI c.spd * min c.spd.natAbs r.1.natAbs, r.2)
    | none, none => (0, m)
  | _ =>
    match c.frames with
    | f :: g :: _ => m.quotPu (s32 ((f.1 : Int) - g.1) * mult * 2000000000000) (8 * (f.2 - g.2) * base)
    | _ => m.quotPu 0 0

/-- R95: the mean of the loop velocities of the window's updates, per unit. -/
def Mach.resolverSpeed (m : Mach) (x : Nat) : Int × Mach :=
  let c := m.chan x
  if c.velCount = 0 then (c.spd, m) else m.quotPu (c.velSum * m.chanMult x * 20000000) (c.velCount * m.chanBase x)

/-! ### Standstill and health (R102 to R104) -/

/-- R102: standstill after a latch at position `p`, positions taken modulo `n`, over STILL ticks. -/
def Standstill.latch (s : Standstill) (p : Int) (n still : Nat) : Standstill :=
  let hist := (p :: s.hist).take (still + 1)
  let first := hist.getLastD p
  let ds := hist.map fun h => if n = 0 then h - first else signedMod (h - first) n
  let spread := ds.foldl max 0 - ds.foldl min 0
  match s.declared with
  | some d =>
    let moved := if n = 0 then p - d else signedMod (p - d) n
    if 2 ≤ moved.natAbs then { hist := hist, declared := none } else { hist := hist, declared := some d }
  | none => { hist := hist, declared := if hist.length = still + 1 ∧ spread ≤ 1 then some p else none }

/-- Position in sensor counts and counts in one sensor turn (R102). -/
def Mach.stillPos (m : Mach) (x s : Nat) : Int × Nat :=
  match m.chanType x with
  | 1 => ((s / 2 ^ 16 : Nat), 2 ^ 16)
  | 2 => ((m.chan x).c, m.chanCpr x)
  | 3 => ((s / 2 ^ (32 - m.fld (Reg.POS_CH_FMT x) 16 12) : Nat), 2 ^ m.fld (Reg.POS_CH_FMT x) 16 12)
  | _ => ((s / 2 ^ (32 - m.fld (Reg.POS_CH_FMT x) 5 0) : Nat), 2 ^ m.fld (Reg.POS_CH_FMT x) 5 0)

/-- R103: the flags that stand by their run counts at a latch. -/
def Mach.standingFlags (m : Mach) (x t : Nat) : Nat :=
  let c := m.chan x
  let miss := m.chanMiss x
  match m.chanType x with
  | 1 => (if 8 ≤ c.losRun then 1 else 0) + (if 8 ≤ c.lotRun then 2 else 0) + (if c.excBad then 4 else 0)
  | 3 => (if miss < c.crcRun then 2 ^ 6 else 0) + (if miss < c.timRun then 2 ^ 7 else 0) +
      (if c.lastGood + (miss + 1) * 2000000 < t then 2 ^ 8 else 0) + (if c.statusBad then 2 ^ 9 else 0)
  | 4 => (if miss < c.crcRun then 2 ^ 6 else 0) + (if miss < c.stuckRun then 2 ^ 10 else 0)
  | _ => 0

/-- R103: JUMP: the electrical angle moved further in one tick than the speed allows. -/
def Mach.jumped (m : Mach) (x ang : Nat) : Bool :=
  let c := m.chan x
  match c.prevAng with
  | none => false
  | some p =>
    let d := (s32 ((ang : Int) - p)).natAbs
    decide (c.latched.spd.natAbs * m.chanBase x * m.period + m.fld (Reg.POS_CH_LIM x) 31 24 * 2 ^ 22 * 50000000000 < d * 50000000000)

/-- R104: the slot that uses a channel, for the F3 class of ACT. -/
def Mach.slotOfChan (m : Mach) (x : Nat) : Nat :=
  match m.image.slots.find? fun e => e.possrc == x with
  | some e => e.slot
  | none => 0xFF

/-- The reading of a channel at the cycle `cyc` and the stamp `t`: its speed before standstill and its sensor angle. A channel at
standstill has speed 0 and is extrapolated with that (R98, R102). -/
def Mach.chanReading (m : Mach) (x t : Nat) (cyc : Int) : (Int × Nat) × Mach :=
  let rs := m.channelSpeed x t
  let m := rs.2
  ((rs.1, m.sensorAngle x t cyc (if (m.chan x).still.declared.isSome then 0 else rs.1)), m)

/-- R94, R101 to R104: what a channel samples at its latch, in the cycle `cyc` at the stamp `t`. -/
def Mach.latchEval (m : Mach) (x t : Nat) (cyc : Int) : Mach :=
  let m := if (m.chan x).zDue.isSome then m.zCompare x else m
  let r := m.chanReading x t cyc
  let m := r.2
  let theta := r.1.2
  let ang := m.electrical x theta
  let c := m.chan x
  let sp := m.stillPos x theta
  let still := c.still.latch sp.1 sp.2 (m.fld (Reg.POS_CH_STILL x) 15 0)
  let atRest := still.declared.isSome
  let spd := if atRest then 0 else r.1.1
  let flt := c.flags ||| m.standingFlags x t ||| (if m.jumped x ang then 2 ^ 11 else 0)
  let clean := if flt = 0 then c.clean + 1 else 0
  let healthy := decide (flt = 0) && decide (m.fld (Reg.POS_CH_STILL x) 31 16 ≤ clean)
  let lost := c.healthy && decide (flt ≠ 0)
  let m := if lost then
      (if m.bit (Reg.POS_CH_CFG x) 16 then m.raiseF3 0x0C01 (m.slotOfChan x) (leBytes 2 flt)
       else m.raise 0x0C01 1 0xFF (leBytes 2 flt)).orr Reg.POS_IRQ_STAT 4
    else if healthy && !c.healthy && c.everHealthy then m.raise 0x0C02 0
    else m
  let hold := c.everHealthy && !healthy
  let word := healthy.toNat * 2 ^ 31 + atRest.toNat * 2 ^ 30 + c.held.toNat * 2 ^ 29 + (!c.dirFwd).toNat * 2 ^ 28 + flt
  m.onChan x fun c =>
    { c with
      spd := spd, still := still, clean := clean, healthy := healthy, everHealthy := c.everHealthy || healthy,
      prevAng := some ang, flags := 0, latchDone := true,
      winCount := none, pastCount := if c.winCount.isSome then c.winCount else c.pastCount,
      latched := { ang := if hold then c.latched.ang else ang, spd := if hold then c.latched.spd else spd,
                   cnt := if m.chanType x = 2 then c.c else s32 theta, flt := word } }

/-- R94: the latch of a channel. An SSI channel's read begins here, and its outcome is evaluated when the set freezes. -/
def Mach.latchChan (m : Mach) (x : Nat) : Mach :=
  if m.mode = .sleep ∨ m.chanType x = 0 ∨ m.time.cyc ≠ m.fld (Reg.POS_CH_CFG x) 15 0 then m else
    let m := m.onChan x fun c => { c with latchAt := m.now }
    if m.chanType x = 4 then m.onChan x fun c => { c with reading := true }
    else m.latchEval x m.now m.time.cyc

/-- R95: the speed that a resolver's set holds is that of the window that ends with the set; 0 at standstill, and held while the
channel is unhealthy (R102, R104). -/
def Mach.freezeSpeed (m : Mach) (x : Nat) : Mach :=
  if m.chanType x ≠ 1 then m else
    let r := m.resolverSpeed x
    r.2.onChan x fun c =>
      let spd := if c.still.declared.isSome then 0 else r.1
      { c with spd := spd, velSum := 0, velCount := 0,
               latched := if c.everHealthy && !c.healthy then c.latched else { c.latched with spd := spd } }

/-! ### Halls (R100) -/

/-- The sector of a pin state. -/
def Mach.hallMap (m : Mach) (t state : Nat) : Nat := m.fld (Reg.POS_HL_CFG t) (3 * state + 2) (3 * state)

/-- R100: event 0x0C03. -/
def Mach.hallBad (m : Mach) (t state : Nat) : Mach := (m.raise 0x0C03 1 0xFF [t, state]).orr Reg.POS_IRQ_STAT 8

/-- R100: a counted edge with its direction. -/
def hallStep (now : Nat) (fwd : Bool) (h : HallTriplet) : HallTriplet :=
  { h with
    stamps := if fwd = h.fwd ∧ !h.stamps.isEmpty then now :: h.stamps.take 6 else [now],
    fwd := fwd, skip := false, inv := false, edges := h.edges + 1, pos := h.pos + (if fwd then 1 else -1) }

/-- R100: a filtered change of a triplet's pins. -/
def Mach.hallEdge (m : Mach) (t state : Nat) : Mach :=
  if m.mode = .sleep then m else
    let sec := m.hallMap t state
    let h := m.hall t
    let m := m.onHall t fun h => { h with pins := state, sector := sec }
    if 6 ≤ sec then (m.onHall t fun h => { h with inv := true }).hallBad t state
    else
      let d := (sec + 6 - h.lastSector) % 6
      let m := m.onHall t fun h => { h with lastSector := sec }
      if 6 ≤ h.lastSector ∨ d = 0 then m
      else if d = 1 then m.onHall t (hallStep m.now true)
      else if d = 5 then m.onHall t (hallStep m.now false)
      else (m.onHall t fun h => { h with skip := true }).hallBad t state

/-- R100: the speed of a triplet. -/
def Mach.hallSpeed (m : Mach) (t : Nat) : Int × Mach :=
  let h := m.hall t
  let k := h.stamps.length - 1
  if k = 0 then (0, m) else
    let mag : Int := (k : Int) * 2000000000 * 2 ^ 29
    m.quotPu (if h.fwd then mag else -mag) (6 * (h.stamps.headD 0 - h.stamps.getLastD 0) * m.fld (Reg.POS_HL_STILL t) 31 16)

/-- R94, R100, R102: what a triplet samples at its latch. No field gives a triplet a latch cycle: it latches where
POSITION_LATCH names it, and else when the set freezes (log entry 25). -/
def Mach.latchHall (m : Mach) (t : Nat) : Mach :=
  if m.mode = .sleep then m else
    let r := m.hallSpeed t
    let m := r.2
    let h := m.hall t
    let still := h.still.latch h.pos 6 (m.fld (Reg.POS_HL_STILL t) 15 0)
    let atRest := still.declared.isSome
    let st := (!h.skip && !h.inv).toNat * 2 ^ 31 + atRest.toNat * 2 ^ 30 + (!h.fwd).toNat * 2 ^ 29 + h.inv.toNat * 2 ^ 28 +
      h.skip.toNat * 2 ^ 27 + min h.edges 255 * 2 ^ 8 + h.pins * 2 ^ 5 + (if 6 ≤ h.sector then 7 else h.sector)
    m.onHall t fun h =>
      { h with still := still, edges := 0, st := st, spd := if atRest then 0 else r.1, latchDone := true,
               stamps := if atRest then [] else h.stamps }

/-! ### The position set (R94) -/

/-- R94: what is still to be latched when the set freezes; at boundary 0 nothing is. -/
def Mach.latchRest (m : Mach) : Mach :=
  if m.seq = 0 then m else
    let m := forN 2 (fun x m =>
      let latch := m.fld (Reg.POS_CH_CFG x) 15 0
      let c := m.chan x
      if m.chanType x = 0 ∨ c.latchDone then m
      else m.latchEval x (if c.latchAt = 0 then m.now - (m.period - latch) * 5 else c.latchAt) latch) m
    let m := forN 2 (fun x m => m.freezeSpeed x) m
    forN 6 (fun t m => if (m.hall t).latchDone then m else m.latchHall t) m

/-- The channels and triplets at the start of a tick. -/
def PosState.nextTick (p : PosState) (period : Nat) : PosState :=
  { p with
    chans := p.chans.map fun c => { c with latchDone := false, latchAt := 0, reading := false, thetaCyc := c.thetaCyc - period }
    halls := p.halls.map fun h => { h with latchDone := false } }

/-- R110: the registers of a set. -/
def Mach.showSet (m : Mach) (set : PosSet) : Mach :=
  let m := m.wrN Reg.POS_SNAP set.tag
  let m := forN 2 (fun x m =>
    let s := nth set.chans x
    ((((m.wrN (Reg.POS_CH_ANG x) s.ang).wrS (Reg.POS_CH_SPD x) s.spd).wrS (Reg.POS_CH_CNT x) s.cnt).wrN (Reg.POS_CH_FLT x) s.flt).setBit
      Reg.POS_STATUS (2 + x) ((m.chan x).healthy)) m
  forN 6 (fun t m =>
    let s := nth set.halls t
    ((m.wrN (Reg.POS_HL_ST t) s.1).wrS (Reg.POS_HL_SPD t) s.2).setBit Reg.POS_STATUS (4 + t) (s.1.testBit 31)) m

/-- R94, R104, R109: the set freezes at step 5 of the boundary; in SLEEP POS is off, and shelf and registers hold. -/
def Mach.posFreeze (m : Mach) : Mach :=
  if m.mode = .sleep then
    m.onPos fun p => { p with chans := p.chans.map fun c => { c with reading := false, excitation := .stopped } }
  else
    let m := m.latchRest
    let set : PosSet := { tag := m.seq % 2 ^ 32, chans := m.pos.chans.map (·.latched), halls := m.pos.halls.map fun h => (h.st, h.spd) }
    let m := m.onPos fun p => { p.nextTick m.period with shelf := (set :: p.shelf).take 32 }
    m.showSet set

/-- The position set of the tick executed (R94); the newest one in SLEEP, where the shelf holds. -/
def Mach.posSet (m : Mach) (tick : Nat) : PosSet :=
  match m.pos.shelf.find? fun s => s.tag == tick % 2 ^ 32 with
  | some s => s
  | none => if m.mode = .sleep then m.pos.shelf.headD ⟨0, [], []⟩ else ⟨0, [], []⟩

/-- R95, R96, R100, R109: at the end of boot the channels start with the levels that A and B then have, the triplets with the
states that their pins then have, and a resolver's excitation starts. -/
def Mach.posStart (m : Mach) (levels : List (Bool × Bool)) (states : List Nat) : Mach :=
  m.onPos fun p => { p with
    chans := p.chans.mapIdx fun x c =>
      { c with r := 0, c := 0, dirFwd := true, held := false, levelA := (nth levels x).1, levelB := (nth levels x).2, lastGood := m.now,
               excitation := if m.chanType x = 1 then .running else .stopped }
    halls := p.halls.mapIdx fun t h =>
      let sec := m.hallMap t (nth states t)
      { h with pins := nth states t, sector := sec, lastSector := if sec < 6 then sec else 7 } }

/-! ### Probes (R106 to R108) -/

/-- R108: one urgent conversion of a probe. -/
def Mach.probeUrgent (m : Mach) (p i : Nat) : Mach :=
  let u := m.rd (Reg.POS_PRB_URG p)
  if u.bit (16 * i + 15) then m.urgentRequest m.time.cyc ⟨u.bits (16 * i + 14) (16 * i + 8), 40, some (u.bits (16 * i + 7) (16 * i)), true⟩ else m

/-- R106: the 16-byte record of a latch that is accessioned for tick `a`. -/
def probeRecord (t ang : Nat) (ok rise : Bool) (sector a : Nat) : List Nat :=
  leBytes 8 t ++ leBytes 4 ang ++ leBytes 4 (ok.toNat * 2 ^ 31 + rise.toNat * 2 ^ 30 + sector * 2 ^ 27 + a % 2 ^ 24)

/-- R106, R107: an edge of a probe input, filtered, stamped with the cycle in which it reached the land. -/
def Mach.probeEdge (m : Mach) (p : Nat) (rise : Bool) : Mach :=
  let cfg := m.rd (Reg.POS_PRB_CFG p)
  let wanted := match cfg.bits 30 29 with
    | 1 => rise
    | 2 => !rise
    | 3 => true
    | _ => false
  if !cfg.bit 31 || !wanted || m.mode == .sleep then m
  else if 4 ≤ nth m.pos.prbWaiting p then ((m.incSat (Reg.POS_PRB_NUM p) 31 16).raise 0x0C04 0).orr Reg.POS_IRQ_STAT 16
  else
    let ch := cfg.bits 28 28
    let r := m.chanReading ch m.now m.time.cyc
    let m := r.2
    let ang := if m.chanType ch = 0 then 0 else m.electrical ch r.1.2
    let hall := cfg.bits 27 24
    let sector := if hall < 6 ∧ (m.hall hall).sector < 6 then (m.hall hall).sector else 7
    let n := m.fld (Reg.POS_PRB_NUM p) 15 0 + nth m.pos.prbWaiting p + 1
    let held := m.lane.waiting.length
    let t := m.now
    let ok := (m.chan ch).healthy
    let m := m.accedeAt fun a => ⟨3, p, 0, 0, n % 2 ^ 16, probeRecord t ang ok rise sector a⟩
    let m := if held < m.lane.waiting.length then m.onPos fun s => { s with prbWaiting := upd s.prbWaiting p (· + 1) } else m
    let m := if cfg.bit 0 then m.setBit (Reg.POS_PRB_CFG p) 31 false else m
    (m.probeUrgent p 0).probeUrgent p 1

/-- R107: an accessioned latch goes to its record; the number of a latch counts from 1. -/
def Mach.probeAccessed (m : Mach) (p : Nat) (record : List Nat) : Mach :=
  let m := m.incMod (Reg.POS_PRB_NUM p) 15 0
  let j := m.fld (Reg.POS_PRB_NUM p) 15 0 % 4
  let w := fun i => ofLeBytes ((record.drop (4 * i)).take 4)
  let m := (((m.wrN (Reg.POS_PRB_REC_TLO p j) (w 0)).wrN (Reg.POS_PRB_REC_THI p j) (w 1)).wrN (Reg.POS_PRB_REC_ANG p j) (w 2)).wrN
    (Reg.POS_PRB_REC_INFO p j) (w 3)
  let m := m.onPos fun s => { s with prbWaiting := upd s.prbWaiting p (· - 1) }
  m.orr Reg.POS_IRQ_STAT (if p = 0 then 1 else 2)

/-- R98: an accessioned slow message. -/
def Mach.slowAccessed (m : Mach) (x v : Nat) : Mach := (m.wrN (Reg.POS_CH_SLOW x) v).orr Reg.POS_IRQ_STAT 32

/-! ### The POS commands -/

/-- RESOLVER_UPDATE (R95, R103): what the tracking loop reaches in this update, and the demodulated windings. -/
def execResolverUpdate (cyc : Nat) (x : Fin 2) (theta : BitVec 16) (vel : Int) (sin cos : BitVec 16) (exc : Bool) (s : State) :
    Host.Outcome State Fault Refusal :=
  run s cyc fun m => m.resolver x theta.toNat vel sin.toInt cos.toInt exc

/-- ENCODER_COUNT (R96, R97): the filtered levels of A and B after a change. -/
def execEncoderCount (cyc : Nat) (x : Fin 2) (a : Bool) (b : Bool) (s : State) : Host.Outcome State Fault Refusal :=
  run s cyc fun m => m.encoder x a b

/-- Z_EDGE (R97). -/
def execZEdge (cyc : Nat) (x : Fin 2) (s : State) : Host.Outcome State Fault Refusal := run s cyc fun m => m.zEdge x

/-- SENT_FRAME (R98): the stamp of the frame's first edge, its calibration pulse and its further pulses in ns. -/
def execSentFrame (cyc : Nat) (x : Fin 2) (start : Nat) (cal : Nat) (pulses : List Nat) (s : State) :
    Host.Outcome State Fault Refusal :=
  run s cyc fun m => m.sentFrame x start cal pulses

/-- SSI_READ (R99): the bits read, and DAT low at the start. -/
def execSsiRead (cyc : Nat) (x : Fin 2) (data : Nat) (stuck : Bool) (s : State) : Host.Outcome State Fault Refusal :=
  run s cyc fun m => m.ssiRead x data stuck

/-- POSITION_LATCH (R94): a channel (0, 1) or a triplet (2 to 7). -/
def execPositionLatch (cyc : Nat) (what : Fin 8) (s : State) : Host.Outcome State Fault Refusal :=
  run s cyc fun m => if what.val < 2 then m.latchChan what else m.latchHall (what.val - 2)

/-- PROBE_EDGE (R106). -/
def execProbeEdge (cyc : Nat) (p : Fin 2) (rise : Bool) (s : State) : Host.Outcome State Fault Refusal :=
  run s cyc fun m => m.probeEdge p rise

end Sys2Proof.Machine
end

