-- ==== Sys2Proof/Machine/Foc.lean ====
section
/-! DEFINITION. Field control (chapter 6): the estimators of Locate, the Transform of a TRACTION slot, the loss of the rotor,
and the commands of the FOC block. -/

namespace Sys2Proof.Machine

/-! ### Access -/

/-- A motor of a lane. -/
def Mach.motor (m : Mach) (l : Lane) (i : Nat) : FocMotor := nth (m.foc.get l) i

/-- A motor of a lane changed. -/
def Mach.onMotor (m : Mach) (l : Lane) (i : Nat) (f : FocMotor → FocMotor) : Mach :=
  { m with foc := m.foc.set l (upd (m.foc.get l) i f) }

/-- R136: the configured motor that serves slot `k`. -/
def Mach.motorOf (m : Mach) (l : Lane) (k : Nat) : Option Nat :=
  (List.range 2).find? fun i => m.motorSet i && m.fld (Reg.FOC_M_CFG l.ix i) 31 28 == k

/-- The slot that a motor serves. -/
def Mach.slotOfMotor (m : Mach) (l : Lane) (i : Nat) : Nat := m.fld (Reg.FOC_M_CFG l.ix i) 31 28

/-- SRC of R145. -/
def Mach.src (m : Mach) (l : Lane) (i : Nat) : Nat := m.fld (Reg.FOC_M_CFG l.ix i) 26 25

/-- A slot's modulation part. -/
def Mach.modSlot (m : Mach) (l : Lane) (k : Nat) : ModSlot := nth (m.mod.get l) k

/-- A slot's modulation part changed. -/
def Mach.onMod (m : Mach) (l : Lane) (k : Nat) (f : ModSlot → ModSlot) : Mach :=
  { m with mod := m.mod.set l (upd (m.mod.get l) k f) }

/-- MOD_STAT.STATE (R177): 0 IDLE, 1 SENSING, 2 CATCH, 3 BRAKE, 4 RUN, 5 STOPPING, 6 FAULT. -/
def Mach.modState (m : Mach) (l : Lane) (k : Nat) : Nat := m.fld (Reg.MOD_STAT l.ix k) 31 28

/-- A slot takes a start state. -/
def Mach.setModState (m : Mach) (l : Lane) (k c : Nat) : Mach := m.setFld (Reg.MOD_STAT l.ix k) 31 28 c

/-- A slot leaves its run for IDLE (0) or FAULT (6); what was under way for it ends (R156, R184). -/
def Mach.modOff (m : Mach) (l : Lane) (k c : Nat) : Mach :=
  let m := m.setModState l k c
  let m := m.onMod l k fun s => { s with startHeld := false, catching := none, decide := false, stopRun := 0 }
  match m.motorOf l k with
  | some i => m.onMotor l i fun f => { f with polStep := 0 }
  | none => m

/-- R156 rule 1: the loss handling ends. -/
def Mach.lossEnd (m : Mach) (l : Lane) (k : Nat) : Mach :=
  match m.motorOf l k with
  | some i => m.onMotor l i fun f =>
      { f with phase := .none, lossCount := 0, k := 0, lcap := 0x7FFFFFFF, ascHeld := false, restartReq := false }
  | none => m

/-- A curve field of FOC_M_CRV. -/
def Mach.crv (m : Mach) (l : Lane) (i hi lo : Nat) (x : Int) : Int := m.curve (m.fld (Reg.FOC_M_CRV l.ix i) hi lo) x

/-- The VALUE of an accumulator in a set. -/
def AcqSet.val (s : AcqSet) (n : Nat) : Int := (nth s.acc n).value

/-! ### Rotations (R138) -/

/-- The d component of a vector in a frame of cosine `c` and sine `s`. -/
def parkD (a b c s : Int) : Int := sat32 (asr (a * c + b * s) 30)

/-- The q component. -/
def parkQ (a b c s : Int) : Int := sat32 (asr (b * c - a * s) 30)

/-- R138: the phase currents of a motor: ia, ib, ic, i0 and the αβ currents. -/
structure Currents where
  ia : Int
  ib : Int
  ic : Int
  i0 : Int
  al : Int
  be : Int
  deriving DecidableEq, Repr

/-- R138: the currents of the set that the tick reads. -/
def Mach.currents (m : Mach) (l : Lane) (i : Nat) (set : AcqSet) : Currents :=
  let a := m.rd (Reg.FOC_M_ACC l.ix i)
  let ia := set.val (a.bits 31 24)
  let ib := set.val (a.bits 23 16)
  let ic := set.val (a.bits 15 8)
  let i0 := tdiv (ia + ib + ic) 3
  ⟨ia, ib, ic, i0, sat32 (ia - i0), sat32 (asr ((ib - ic) * 619925131) 30)⟩

/-! ### The estimators (R146, R148, R149, R155) -/

/-- The angle after a step of a speed: (ω × KW) >> 29 and a proportional part. -/
def angleStep (th : Nat) (w kw p : Int) : Nat := u32 (th + s32 (asr (w * kw) 29) + p)

/-- R146: the injection estimator; `sn` is s(n). -/
def injectStep (c : Currents) (sn kw : Int) (hkh hki hkp : Gain) (f : FocMotor) : FocMotor :=
  let cs := cos30 f.thh
  let sn' := sin30 f.thh
  let rd := parkD c.al c.be cs sn'
  let rq := parkQ c.al c.be cs sn'
  let dd := sn * asr (rd - f.rdp) 1
  let dq := sn * asr (rq - f.rqp) 1
  let eh := mulg dq hkh
  let wh := sat32 (f.wh + mulg eh hki)
  { f with
    wh := wh, thh := angleStep f.thh wh kw (sat32 (mulg eh hkp)), rdp := rd, rqp := rq, dd := dd,
    hc := isqrt (dd * dd + dq * dq), fd := asr (rd + f.rdp) 1, fq := asr (rq + f.rqp) 1 }

/-- R155: the tracking of a rotating short-circuit current, with the gains of the observer and S2 as the last Transform left it. -/
def trackStep (c : Currents) (s2 kw : Int) (oki okp : Gain) (f : FocMotor) : FocMotor :=
  let cs := cos30 f.thh
  let sn := sin30 f.thh
  let eh := tdiv (asr (c.be * cs - c.al * sn) 30 * 2 ^ 29) (max s2 0x00800000)
  let wh := sat32 (f.wh + mulg eh oki)
  { f with wh := wh, thh := angleStep f.thh wh kw (sat32 (mulg eh okp)) }

/-- What the observer reads of a motor's registers. -/
structure ObsCfg where
  ld : Int
  lq : Int
  rs : Int
  psi : Int
  rpsi : Int
  kt : Int
  kw : Int
  kc : Gain
  oki : Gain
  okp : Gain
  deriving DecidableEq, Repr

/-- The observer's registers; `widen` while R153 widens the gains. -/
def Mach.obsCfg (m : Mach) (l : Lane) (i : Nat) (widen : Bool) : ObsCfg :=
  let w := if widen then m.fld (Reg.FOC_M_LOSS l.ix i) 15 14 else 0
  let g (r : Nat) : Gain :=
    let x := gainOf (m.rd r)
    ⟨x.m, x.s - w⟩
  { ld := m.rdS (Reg.FOC_M_LD l.ix i), lq := m.rdS (Reg.FOC_M_LQ l.ix i), rs := m.rdS (Reg.FOC_M_RS l.ix i),
    psi := m.rdS (Reg.FOC_M_PSI l.ix i), rpsi := m.rdS (Reg.FOC_M_RPSI l.ix i), kt := m.rdS (Reg.FOC_M_KT l.ix i),
    kw := m.rdS (Reg.FOC_M_KW l.ix i), kc := gainOf (m.rd (Reg.FOC_M_KC l.ix i)),
    oki := g (Reg.FOC_M_OKI l.ix i), okp := g (Reg.FOC_M_OKP l.ix i) }

/-- R148: the active-flux observer, one tick. -/
def observeStep (c : Currents) (x : ObsCfg) (f : FocMotor) : FocMotor :=
  let cs := cos30 f.tho
  let sn := sin30 f.tho
  let idh := parkD c.al c.be cs sn
  let iqh := parkQ c.al c.be cs sn
  let md := sat32 (mulq x.ld idh + x.psi)
  let mq := mulq x.lq iqh
  let ma := sat32 (asr (md * cs - mq * sn) 30)
  let mb := sat32 (asr (md * sn + mq * cs) 30)
  let pa := sat32 (f.pa + asr (sat32 (f.val - mulq x.rs c.al) * x.kt) 30)
  let pb := sat32 (f.pb + asr (sat32 (f.vbe - mulq x.rs c.be) * x.kt) 30)
  let r := mulq (max (pa - ma).natAbs (pb - mb).natAbs : Nat) x.rpsi
  let pa := sat32 (pa + mulg (sat32 (ma - pa)) x.kc)
  let pb := sat32 (pb + mulg (sat32 (mb - pb)) x.kc)
  let fa := sat32 (pa - mulq x.lq c.al)
  let fb := sat32 (pb - mulq x.lq c.be)
  let eo := mulq (sat32 (asr (fb * cs - fa * sn) 30)) x.rpsi
  let wo := sat32 (f.wo + mulg eo x.oki)
  { f with pa := pa, pb := pb, r := r, wo := wo, tho := angleStep f.tho wo x.kw (sat32 (mulg eo x.okp)) }

/-- R149: blend weight, estimate's angle and speed, and amplitude. -/
def Mach.blend (m : Mach) (l : Lane) (i : Nat) (f : FocMotor) : Int × Nat × Int × Int :=
  let hfi := m.rd (Reg.FOC_M_HFI l.ix i)
  let bhi : Int := hfi.bits 31 22
  let blo : Int := hfi.bits 21 12
  let w := clampI 0 (2 ^ 30) (tdiv ((f.wp.natAbs - blo * 2 ^ 19) * 2 ^ 30) ((bhi - blo) * 2 ^ 19))
  let reslim : Int := m.fld (Reg.FOC_M_LOSS l.ix i) 31 16
  let w := if w < 2 ^ 30 ∧ reslim * 2 ^ 13 < f.r then 0 else w
  let th := u32 (f.thh + asr (s32 ((f.tho : Int) - f.thh) * w) 30)
  let om := sat32 (f.wh + asr ((f.wo - f.wh) * w) 30)
  (w, th, om, asr (hfi.bits 11 0 * 2 ^ 17 * (2 ^ 30 - w)) 30)

/-- Frame n's injection sign s(n) (R146). -/
def injSign (n : Nat) : Int := if n % 2 = 0 then 1 else -1

/-- The sensor's sample in the set of tick `n`: angle, speed, HEALTH. -/
def Mach.sensor (m : Mach) (l : Lane) (i n : Nat) : Nat × Int × Bool :=
  let s := nth (m.posSet n).chans (m.fld (Reg.FOC_M_CFG l.ix i) 24 24)
  (s.ang, s.spd, s.flt.testBit 31)

/-- R153: an extrapolated angle at tick `k` of the loss. -/
def extrapolate (f : FocMotor) (k : Nat) (kw : Int) : Nat := u32 (f.thL + k * s32 (asr (f.wL * kw) 29))

/-- LOSTMAX. -/
def Mach.lostMax (m : Mach) (l : Lane) (i : Nat) : Nat := m.fld (Reg.FOC_M_LOSS l.ix i) 13 8

/-- R151: loss is declared in this tick. -/
def FocMotor.declaring (f : FocMotor) : Bool := f.phase == .none && decide (3 ≤ f.lossCount)

/-- R105, R145 to R155: Locate of a TRACTION slot in tick `n`. -/
def Mach.locateTraction (m : Mach) (l : Lane) (k i n : Nat) : Mach :=
  let c := m.currents l i (m.acqSet n)
  let f := m.motor l i
  let kw := m.rdS (Reg.FOC_M_KW l.ix i)
  let src := m.src l i
  let sen := m.sensor l i n
  let run := m.runFlag l k
  let estRun := decide (src ≠ 0) && (m.mode == .drive || m.mode == .service)
  let blind := decide (src = 1) || !sen.2.2
  let onEst := decide (src = 1) || decide (src = 3) || (decide (src = 2) && blind)
  let shorted := onEst && decide (2 ≤ (m.modSlot l k).safeKind) && !run && (estRun || m.mode == .safeHold)
  let volts := (m.modSlot l k).volts.getD 1 ⟨0, 0⟩
  let f : FocMotor := { f with val := volts.val, vbe := volts.vbe }
  let reslim : Int := m.fld (Reg.FOC_M_LOSS l.ix i) 31 16
  let armed (w r : Int) : Bool := (decide (src = 1) || decide (src = 3)) && decide (w = 2 ^ 30) && run && f.phase == .none &&
    decide (reslim * 2 ^ 13 < r)
  -- R153: the gains widen from the declaring tick on; the residual that declares does not depend on them
  let first := observeStep c (m.obsCfg l i false) f
  let widen := f.phase == .extrapolating ||
    (estRun && decide (2 ≤ f.lossCount) && armed (m.blend l i first).1 first.r && !(src == 3 && sen.2.2))
  let x := m.obsCfg l i widen
  let f := if shorted then trackStep c (m.sig l k 2) kw x.oki x.okp f
    else if estRun then
      injectStep c (injSign n) kw (gainOf (m.rd (Reg.FOC_M_HKH l.ix i))) (gainOf (m.rd (Reg.FOC_M_HKI l.ix i)))
        (gainOf (m.rd (Reg.FOC_M_HKP l.ix i))) f
    else f
  let f := if estRun then observeStep c x f else f
  let b := m.blend l i f
  -- R151: the count
  let f : FocMotor := { f with lossCount := if armed b.1 f.r then min (f.lossCount + 1) 3 else 0 }
  -- R153: the re-acquisition test
  let lost := f.phase == .extrapolating || f.phase == .onSensor
  let f : FocMotor := { f with reacq := if lost then (if f.r ≤ reslim * 2 ^ 12 then f.reacq + 1 else 0) else 0 }
  let reacqNow := lost && decide (4 ≤ f.reacq) && decide ((f.wo - f.wL).natAbs ≤ f.wL.natAbs / 8)
  let f := if f.declaring then { f with thL := f.thGood, wL := f.wGood } else f
  let kNow := if f.declaring then 1 else if f.phase == .extrapolating then min (f.k + 1) (m.lostMax l i) else f.k
  let f : FocMotor := { f with k := if f.phase == .extrapolating then kNow else f.k, reacqNow := reacqNow }
  -- the angle and speed in use
  let est := (b.2.1, b.2.2.1, if b.1 = 0 then 2 else if b.1 < 2 ^ 30 then 3 else 4)
  let sensor := (sen.1, sen.2.1, 1)
  let extra := (extrapolate f kNow kw, f.wL, 5)
  let use : Nat × Int × Nat :=
    if src = 0 then (if !run && blind then (sen.1, (m.modSlot l k).contW, 0) else sensor)
    else if shorted then (f.thh, f.wh, 6)
    else if src = 2 then (if sen.2.2 then sensor else if run then est else (est.1, (m.modSlot l k).contW, 0))
    else if f.declaring then (if src = 3 ∧ sen.2.2 then sensor else extra)
    else if f.phase == .extrapolating then (if reacqNow then est else extra)
    else if f.phase == .onSensor then (if reacqNow then est else sensor)
    else if !run && blind then (est.1, (m.modSlot l k).contW, 0)
    else est
  let advk := (m.rd (if src = 0 then Reg.POS_CH_ADVK (m.fld (Reg.FOC_M_CFG l.ix i) 24 24) else Reg.FOC_M_ADVK l.ix i)).toNat
  let onSensor := decide (use.2.2 = 1)
  let injects := estRun && !shorted && !(src == 2 && onSensor && !m.bit (Reg.FOC_M_CFG l.ix i) 23)
  let f := { f with
    thm := use.1, omega := use.2.1, angsrc := use.2.2, thc := u32 (use.1 + s32 (asr (use.2.1 * advk) 29)), w := b.1,
    amp := if injects then b.2.2.2 else 0 }
  let f := if f.r ≤ reslim * 2 ^ 13 then { f with thGood := use.1, wGood := use.2.1 } else f
  -- R157: the contrast
  let f := { f with hcCount :=
    if estRun && decide (f.w < 2 ^ 30) && run && injects then
      (if f.hc < m.fld (Reg.FOC_M_HMIN l.ix i) 15 0 * 2 ^ 13 then f.hcCount + 1 else 0) else 0 }
  -- R150: divergence and the change of source of SRC 2
  let diff := (s32 ((sen.1 : Int) - b.2.1)).natAbs
  let diverges := decide (src = 2) && sen.2.2 && decide (b.1 = 2 ^ 30) &&
    decide (m.fld (Reg.FOC_M_LOSS l.ix i) 7 0 * 2 ^ 24 < diff)
  let f := { f with divCount := if diverges then f.divCount + 1 else 0, div := f.div && diverges }
  let left := decide (src = 2) && f.onSensor && !onSensor
  let unready := left && !m.bit (Reg.FOC_M_CFG l.ix i) 23 &&
    decide (f.wp.natAbs < m.fld (Reg.FOC_M_HFI l.ix i) 31 22 * 2 ^ 19)
  let f := { f with onSensor := decide (src = 2) && onSensor }
  let m := m.onMotor l i fun _ => f
  let m := if left then m.raise 0x140B 1 k [] l.origin else m
  if unready then (m.raiseF3 0x140C k [] l.origin).modOff l k 6 else m

/-! ### Transform of a TRACTION slot (R138 to R144) -/

/-- R142: a taper of the link voltage, clamped to 0 to 1.0. -/
def taper (num den : Int) : Int := clampI 0 (2 ^ 29) (tdiv (num * 2 ^ 29) den)

/-- R142: the slot's throttle factor as a Q2.29 factor. -/
def throttleQ (t : Nat) : Int := if 0xFFFF ≤ t then 2 ^ 29 else t * 2 ^ 13

/-- R142: KTH. -/
def Mach.kth (m : Mach) (l : Lane) (k i : Nat) (set : AcqSet) : Int :=
  let th := throttleQ (m.modSlot l k).throttle
  if !m.bit (Reg.FOC_M_CFG l.ix i) 22 then clampI 0 (2 ^ 29) th
  else
    let a := nth set.acc (m.fld (Reg.FOC_M_FW l.ix i) 31 24)
    let c := m.fld (Reg.FOC_M_CRV l.ix i) 7 0
    clampI 0 (2 ^ 29) (min (if a.stale || a.sat then m.curveLast c else m.curve c a.value) th)

/-- R141, R147, R182, R183: the torque demand before its limits. -/
def Mach.torqueDemand (m : Mach) (l : Lane) (k i : Nat) (omega : Int) : Int :=
  let rampen := m.bit (Reg.MOD_CFG l.ix k) 25
  if m.modState l k = 3 ∧ !rampen then -(sgnI omega) * m.fld (Reg.MOD_SPDSEC l.ix k) 31 16 * 2 ^ 15
  else if m.modState l k = 5 ∧ (m.modSlot l k).stopt = 1 then 0
  else if m.fld (Reg.FOC_M_CTRL l.ix i) 1 0 = 1 then m.sig l k 32
  else m.rdS (Reg.FOC_M_TQCMD l.ix i)

/-- R147: one tick of polarity detection. -/
def polarityStep (pdticks : Nat) (f : FocMotor) : FocMotor :=
  let f := { f with polTick := f.polTick + 1 }
  let late := pdticks < f.polTick + 8
  match f.polStep with
  | 1 => if 64 ≤ f.polTick then { f with polStep := 2, polTick := 0, polPos := 0, polNeg := 0 } else f
  | 2 =>
    let f := if late then { f with polPos := f.polPos + f.dd.natAbs } else f
    if pdticks ≤ f.polTick then { f with polStep := 3, polTick := 0 } else f
  | 3 => if pdticks ≤ f.polTick then { f with polStep := 4, polTick := 0 } else f
  | 4 =>
    let f := if late then { f with polNeg := f.polNeg + f.dd.natAbs } else f
    if pdticks ≤ f.polTick then { f with polStep := 5, polTick := 0 } else f
  | _ => f

/-- R140: S3, the VALUE of the UDC accumulator, or UDCMIN when it closed STALE. -/
def Mach.linkVoltage (m : Mach) (l : Lane) (i : Nat) (set : AcqSet) : Int :=
  let a := nth set.acc (m.fld (Reg.FOC_M_ACC l.ix i) 7 0)
  if a.stale then m.fld (Reg.FOC_M_UDCA l.ix i) 31 16 * 2 ^ 15 else a.value

/-- S0 to S15 of a slot. -/
def Mach.setInputs (m : Mach) (l : Lane) (k : Nat) (v : List Int) : Mach :=
  m.onLawSlot l k fun s => { s with sig := ((v ++ List.replicate 16 0).take 16) ++ s.sig.drop 16 }

/-- R137 to R144: Transform of a TRACTION slot in tick `n`. -/
def Mach.transformTraction (m : Mach) (l : Lane) (k i n : Nat) : Mach :=
  let set := m.acqSet n
  let c := m.currents l i set
  let f := m.motor l i
  let run := m.runFlag l k
  let injects := decide (f.amp ≠ 0)
  -- currents in the rotor frame
  let d := (u32 ((f.thm : Int) - f.thh))
  let im := m.bit (Reg.FOC_M_CFG l.ix i) 27
  let thp := if im then u32 ((f.thm : Int) + f.thsl) else f.thm
  let id := if injects then parkD f.fd f.fq (cos30 d) (sin30 d) else parkD c.al c.be (cos30 thp) (sin30 thp)
  let iq := if injects then parkQ f.fd f.fq (cos30 d) (sin30 d) else parkQ c.al c.be (cos30 thp) (sin30 thp)
  -- R144: induction motors
  let ld := m.rdS (Reg.FOC_M_LD l.ix i)
  let lq := m.rdS (Reg.FOC_M_LQ l.ix i)
  let psi := m.rdS (Reg.FOC_M_PSI l.ix i)
  let psir := sat32 (f.psir + asr ((mulq ld id - f.psir) * m.rdS (Reg.FOC_M_IMK l.ix i)) 30)
  let ws := sat32 (tdiv (mulq (m.rdS (Reg.FOC_M_KSL l.ix i)) iq * 2 ^ 29) (max psir 0x01000000))
  let thsl := u32 (f.thsl + s32 (asr (ws * m.rdS (Reg.FOC_M_KW l.ix i)) 29))
  let f := if im then
      { f with psir := psir, thsl := thsl, thm := u32 ((f.thm : Int) + thsl), thc := u32 ((f.thc : Int) + thsl) }
    else f
  -- R139: the phase-current sum
  let i0lim : Int := m.fld (Reg.FOC_M_IMAX l.ix i) 15 0 * 2 ^ 15
  let f := { f with i0Count := if run && decide (i0lim < c.i0.natAbs) then f.i0Count + 1 else 0 }
  -- R140 to R142: link and tapers
  let udc := m.linkVoltage l i set
  let vlim : Int := m.fld (Reg.FOC_M_VLIM l.ix i) 31 16
  let s4 := asr (udc * vlim) 16
  let a := m.rd (Reg.FOC_M_UDCA l.ix i)
  let b := m.rd (Reg.FOC_M_UDCB l.ix i)
  let omega := f.omega
  let t0 := m.torqueDemand l k i omega
  let mot := decide (0 ≤ t0) == decide (0 ≤ omega)
  let kth := m.kth l k i set
  let klo := taper (udc - a.bits 31 16 * 2 ^ 15) ((a.bits 15 0 : Int) * 2 ^ 15 - a.bits 31 16 * 2 ^ 15)
  let khi := taper (b.bits 15 0 * 2 ^ 15 - udc) ((b.bits 15 0 : Int) * 2 ^ 15 - b.bits 31 16 * 2 ^ 15)
  let kdc := if mot then klo else khi
  -- R141: the demand
  let rate := m.rdS (Reg.FOC_M_TQRATE l.ix i)
  let t1 := if rate = 0 then t0 else clampI (f.tprev - rate) (f.tprev + rate) t0
  let tq := m.rd (Reg.FOC_M_TQLIM l.ix i)
  let lim : Int := max 0 (min (m.crv l i 15 8 omega.natAbs) ((if mot then tq.bits 31 16 else tq.bits 15 0) * 2 ^ 15))
  let lim := mulq (mulq lim kth) kdc
  let uncapped := clampI (-lim) lim t1
  let lmax := m.lostMax l i
  let f := if f.declaring then { f with tL := uncapped.natAbs } else f
  let lostNow := f.declaring && f.angsrc == 5
  let kEff := if lostNow then 1 else f.k
  let capped := lostNow || (f.phase == .extrapolating && !f.reacqNow)
  let f := if capped then { f with lcap := tdiv (f.tL * ((lmax : Int) - kEff)) lmax }
    else if f.lcap < 0x7FFFFFFF ∧ (f.phase = .none ∨ f.reacqNow) then
      (if rate = 0 ∨ lim ≤ f.lcap + rate then { f with lcap := 0x7FFFFFFF } else { f with lcap := f.lcap + rate })
    else f
  let lim := min lim f.lcap
  let t := clampI (-lim) lim t1
  let detecting := f.polStep ≠ 0 && run
  let t := if detecting then 0 else t
  let f := { f with tprev := t }
  -- R143: references
  let fw := clampI (-((m.fld (Reg.FOC_M_FW l.ix i) 15 0 : Int) * 2 ^ 15)) 0 (m.sig l k 58)
  let idr := sat32 (m.crv l i 31 24 t.natAbs + fw)
  let pdamp : Int := m.fld (Reg.FOC_M_PD l.ix i) 31 20 * 2 ^ 19
  let idr := if !detecting then idr else match f.polStep with
    | 2 => pdamp
    | 3 => 0
    | 4 => -pdamp
    | _ => idr
  let imax : Int := m.fld (Reg.FOC_M_IMAX l.ix i) 31 16 * 2 ^ 15
  let iql := isqrt (max (imax * imax - idr * idr) 0)
  let iqr := min (m.crv l i 23 16 t.natAbs) iql
  let iqr := if t < 0 then -iqr else iqr
  let iqr := if detecting then 0 else iqr
  let s2 := isqrt (id * id + iq * iq)
  let s10 := if im then mulq psir iq else sat32 (mulq psi iq + mulq (mulq (sat32 (ld - lq)) id) iq)
  let s11 := -(mulq omega (mulq lq iq))
  let s12 := if im then mulq omega (sat32 (mulq lq id + psir)) else mulq omega (sat32 (mulq ld id + psi))
  let s13 := mulq omega.natAbs (m.rdS (Reg.FOC_M_EMFK l.ix i))
  let vfw : Int := m.fld (Reg.FOC_M_VLIM l.ix i) 15 0
  let s14 := sat32 (asr (s4 * vfw) 16 - isqrt (m.sig l k 56 * m.sig l k 56 + m.sig l k 57 * m.sig l k 57))
  let s15 := mulq kth kdc
  -- R154: EMFHI
  let emf := m.rd (Reg.FOC_M_EMF l.ix i)
  let hi := if asr (udc * emf.bits 31 16) 16 < s13 then true else if s13 < asr (udc * emf.bits 15 0) 16 then false else f.emfhi
  let f := { f with emfhi := hi, ascReleased := f.ascReleased && hi, wp := omega, scLow := if f.ascHeld && s2 < 2 ^ 22 then f.scLow + 1 else 0 }
  -- R147
  let f := if detecting then polarityStep (m.fld (Reg.FOC_M_PD l.ix i) 19 12) f else f
  let newly := decide (kth < 2 ^ 29) && !f.derated
  let f := { f with derated := decide (kth < 2 ^ 29) }
  let m := m.setInputs l k [id, iq, s2, udc, s4, omega, idr, iqr, iql, t, s10, s11, s12, s13, s14, s15]
  let started := m.modState l k ≠ 0 ∧ m.modState l k ≠ 6
  let m := m.onMotor l i fun _ => { f with restartReq := f.restartReq && !started }
  let m := if newly then m.raise 0x140E 1 k [] l.origin else m
  -- R160: the results
  let loss := match f.phase with
    | .extrapolating => 2
    | .failed => 3
    | _ => if lostNow then 2 else if f.declaring then 0 else if 0 < f.lossCount then 1 else 0
  let stat := f.angsrc * 2 ^ 29 + loss * 2 ^ 27 + f.emfhi.toNat * 2 ^ 26 + f.div.toNat * 2 ^ 25 + f.polOk.toNat * 2 ^ 24 +
    f.restartReq.toNat * 2 ^ 23 + f.derated.toNat * 2 ^ 22 + min kEff 63 * 2 ^ 16 + (min 255 (asr f.w 22)).toNat * 2 ^ 8
  let m := ((m.wrN (Reg.FOC_M_STAT l.ix i) stat).wrN (Reg.FOC_M_ANG l.ix i) f.thm).wrS (Reg.FOC_M_SPD l.ix i) omega
  let m := m.wrS (Reg.FOC_M_TQEST l.ix i) s10
  let m := m.wrN (Reg.FOC_M_RESID l.ix i) ((clampI 0 0xFFFF (asr f.r 13)).toNat * 2 ^ 16 + (clampI 0 0xFFFF (asr f.hc 13)).toNat)
  m.wrN (Reg.FOC_M_DERATE l.ix i) ((clampI 0 0xFFFF (asr kth 13)).toNat * 2 ^ 16 + (clampI 0 0xFFFF (asr kdc 13)).toNat)

/-! ### What the counts lead to -/

/-- R139: the sum check has failed for three ticks. -/
def Mach.sumFault (m : Mach) (l : Lane) (i : Nat) : Mach :=
  if (m.motor l i).i0Count < 3 then m else
    let k := m.slotOfMotor l i
    let m := m.onMotor l i fun f => { f with i0Count := 0 }
    ((m.raiseF3 0x1401 k [] l.origin).lossEnd l k).modOff l k 6

/-- R147 steps 5 and 6: the decision after a try. -/
def Mach.polarityDecide (m : Mach) (l : Lane) (i : Nat) : Mach :=
  let f := m.motor l i
  if f.polStep ≠ 5 then m else
    let k := m.slotOfMotor l i
    let lim : Int := 8 * m.fld (Reg.FOC_M_PD l.ix i) 11 0 * 2 ^ 13
    if lim < f.polNeg - f.polPos then
      m.onMotor l i fun f => { f with polStep := 0, polOk := true, thh := (f.thh + 2 ^ 31) % 2 ^ 32 }
    else if lim < f.polPos - f.polNeg then m.onMotor l i fun f => { f with polStep := 0, polOk := true }
    else if f.polTries + 1 < 3 then
      m.onMotor l i fun f => { f with polStep := 2, polTick := 0, polPos := 0, polNeg := 0, polTries := f.polTries + 1 }
    else
      let m := m.onMotor l i fun f => { f with polStep := 0, polTries := 0 }
      ((m.raiseF3 0x1409 k [] l.origin).lossEnd l k).modOff l k 6

/-- R150: sensor and estimate have differed for 16 ticks. -/
def Mach.divergence (m : Mach) (l : Lane) (i : Nat) : Mach :=
  let f := m.motor l i
  if f.divCount < 16 ∨ f.div then m else
    let m := m.onMotor l i fun f => { f with div := true }
    (m.setBit (Reg.FOC_M_STAT l.ix i) 25 true).raise 0x140A 1 (m.slotOfMotor l i) [] l.origin

/-- R151 to R153, R155: a loss is declared. -/
def Mach.declareLoss (m : Mach) (l : Lane) (i : Nat) : Mach :=
  let f := m.motor l i
  if !f.declaring then m else
    let k := m.slotOfMotor l i
    let again := match f.lastRestart with
      | some t => decide (m.now ≤ t + 2000000000)
      | none => false
    let m := m.incSat (Reg.FOC_M_EVCNT l.ix i) 31 24
    if f.angsrc = 1 then
      (m.onMotor l i fun f => { f with phase := .onSensor, lossCount := 0, reacq := 0 }).raise 0x1402 1 k [] l.origin
    else
      let m := (m.onMotor l i fun f => { f with phase := .extrapolating, k := 1, lossCount := 0, reacq := 0 }).raise 0x1403 0 k
        [] l.origin
      if again then ((m.raiseF3 0x1408 k [] l.origin).lossEnd l k).modOff l k 6 else m

/-- R153: the observer is re-acquired. -/
def Mach.reacquire (m : Mach) (l : Lane) (i : Nat) : Mach :=
  let f := m.motor l i
  if !(f.reacqNow && (f.phase == .extrapolating || f.phase == .onSensor)) then m else
    let m := m.onMotor l i fun f => { f with phase := .none, k := 0, reacq := 0, reacqNow := false, lossCount := 0 }
    (m.incSat (Reg.FOC_M_EVCNT l.ix i) 23 16).raise 0x1404 0 (m.slotOfMotor l i) [] l.origin

/-- R154, R155: the safe state of a failed observer: active short circuit while EMFHI, else freewheel and a flying start at once. -/
def Mach.failSafe (m : Mach) (l : Lane) (i : Nat) : Mach :=
  let k := m.slotOfMotor l i
  let m := m.onMotor l i fun f =>
    { f with phase := .failed, lossCount := 0, ascHeld := f.emfhi, ascReleased := false, scLow := 0, restartReq := !f.emfhi }
  m.modOff l k 6

/-- R154: LOSTMAX ticks have passed without re-acquisition. -/
def Mach.reacqFail (m : Mach) (l : Lane) (i : Nat) : Mach :=
  let f := m.motor l i
  if f.phase ≠ .extrapolating ∨ f.k < m.lostMax l i ∨ f.reacqNow then m else
    let k := m.slotOfMotor l i
    let m := if f.emfhi then (m.incSat (Reg.FOC_M_EVCNT l.ix i) 15 8).raiseF3 0x1405 k [] l.origin
      else (m.incSat (Reg.FOC_M_EVCNT l.ix i) 7 0).raiseF3 0x1406 k [] l.origin
    m.failSafe l i

/-- R155: the short circuit is released and a flying start is requested. -/
def Mach.shortRelease (m : Mach) (l : Lane) (i : Nat) : Mach :=
  let f := m.motor l i
  if !(f.ascHeld && (!f.emfhi || decide (16 ≤ f.scLow))) then m else
    let m := m.onMotor l i fun f => { f with ascHeld := false, ascReleased := true, scLow := 0, restartReq := true }
    m.raise 0x1407 0 (m.slotOfMotor l i) [] l.origin

/-- R157: the injection has lost its contrast. -/
def Mach.contrastLost (m : Mach) (l : Lane) (i : Nat) : Mach :=
  if (m.motor l i).hcCount < 8 then m else
    let m := m.onMotor l i fun f => { f with hcCount := 0 }
    (m.raiseF3 0x140D (m.slotOfMotor l i) [] l.origin).failSafe l i

/-- R156 item 1: a motor whose slot the mode no longer permits has no loss handling any more. -/
def Mach.lossPermit (m : Mach) (l : Lane) (i : Nat) : Mach :=
  let k := m.slotOfMotor l i
  if m.motorSet i && !m.permitted k && (m.motor l i).phase != .none then m.lossEnd l k else m

/-- The decisions of the tick before that no command has taken. -/
def Mach.focPrelude (m : Mach) (l : Lane) : Mach :=
  forN 2 (fun i m =>
    (((((((((m.lossPermit l i).reacquire l i).declareLoss l i).reacqFail l i).shortRelease l i).contrastLost l i).sumFault l i).polarityDecide
      l i).divergence l i)) m

/-! ### Command registers (R160) -/

/-- R160: TQSRC 2 and 3 keep the value before, with event 0x140F; the other fields take effect. -/
def Mach.focCtrlWrite (m : Mach) (l : Lane) (i : Nat) (v : Word) : Mach :=
  let a := Reg.FOC_M_CTRL l.ix i
  if 2 ≤ v.bits 1 0 then
    m.shadowWrite l a (v.withBits 1 0 ((m.lastWritten l a).bits 1 0)) fun m => m.raise 0x140F 0 (m.slotOfMotor l i) [] l.origin
  else m.shadowWrite l a v

/-- R180, R181: FOC takes over the angle and speed of a caught motor; with SRC 0 no estimator runs (R145). -/
def Mach.focSeed (m : Mach) (l : Lane) (k : Nat) (th : Nat) (w : Int) : Mach :=
  match m.motorOf l k with
  | some i => if m.src l i = 0 then m else m.onMotor l i fun f =>
      { f with thh := th, tho := th, wh := w, wo := w, wp := w, polStep := 0, polOk := true, phase := .none, lossCount := 0, k := 0,
               lcap := 0x7FFFFFFF }
  | none => m

/-- R147: a start from standstill begins polarity detection when the slot has no healthy sensor in use. -/
def Mach.focStandstill (m : Mach) (l : Lane) (k n : Nat) : Mach :=
  match m.motorOf l k with
  | some i =>
    let src := m.src l i
    if src = 1 ∨ src = 3 ∨ (src = 2 ∧ !(m.sensor l i n).2.2) then
      m.onMotor l i fun f => { f with polStep := 1, polTick := 0, polTries := 0, polOk := false, phase := .none, lossCount := 0,
                                      lcap := 0x7FFFFFFF }
    else m
  | none => m

/-! ### The FOC commands -/

/-- PHASE_CURRENT_SUM_FAULT (R139). -/
def execPhaseCurrentSumFault (cyc : Nat) (lane : Lane) (motor : Fin 2) (s : State) : Host.Outcome State Fault Refusal :=
  run s cyc fun m => m.sumFault lane motor

/-- POLARITY_DETECTION (R147). -/
def execPolarityDetection (cyc : Nat) (lane : Lane) (motor : Fin 2) (s : State) : Host.Outcome State Fault Refusal :=
  run s cyc fun m => m.polarityDecide lane motor

/-- SENSOR_DIVERGENCE (R150). -/
def execSensorDivergence (cyc : Nat) (lane : Lane) (motor : Fin 2) (s : State) : Host.Outcome State Fault Refusal :=
  run s cyc fun m => m.divergence lane motor

/-- OBSERVER_LOSS (R151 to R153). -/
def execObserverLoss (cyc : Nat) (lane : Lane) (motor : Fin 2) (s : State) : Host.Outcome State Fault Refusal :=
  run s cyc fun m => m.declareLoss lane motor

/-- OBSERVER_REACQUIRED (R153). -/
def execObserverReacquired (cyc : Nat) (lane : Lane) (motor : Fin 2) (s : State) : Host.Outcome State Fault Refusal :=
  run s cyc fun m => m.reacquire lane motor

/-- REACQUISITION_FAILED (R154). -/
def execReacquisitionFailed (cyc : Nat) (lane : Lane) (motor : Fin 2) (s : State) : Host.Outcome State Fault Refusal :=
  run s cyc fun m => m.reacqFail lane motor

/-- SHORT_CIRCUIT_RELEASE (R155). -/
def execShortCircuitRelease (cyc : Nat) (lane : Lane) (motor : Fin 2) (s : State) : Host.Outcome State Fault Refusal :=
  run s cyc fun m => m.shortRelease lane motor

/-- INJECTION_CONTRAST_LOST (R157). -/
def execInjectionContrastLost (cyc : Nat) (lane : Lane) (motor : Fin 2) (s : State) : Host.Outcome State Fault Refusal :=
  run s cyc fun m => m.contrastLost lane motor

end Sys2Proof.Machine
end

