-- ==== Sys2Proof/Machine/Mod.lean ====
section
/-! DEFINITION. Modulation, starting and stopping (chapter 7): start states, the speed ramp, sensing, the edges of every slot
type and the modulation frame, with the commands of the MOD block. -/

namespace Sys2Proof.Machine

/-! ### Carrier and legs (R163 to R168, R175) -/

/-- An edge field without an edge (R175). -/
def noEdge : Nat := 0xFFFFFF

/-- A leg with both switches off. -/
def offLeg (dt : Nat) : Leg := ⟨noEdge, noEdge, dt, 1, false, false⟩

/-- A leg held by a safe-state command: 1 freewheel, 2 LOWON, 3 HIGHON (R185); the modes of R175 have the same codes. -/
def safeLeg (dt kind : Nat) : Leg := ⟨noEdge, noEdge, dt, kind, false, kind == 3⟩

/-- A leg of level `l0` and toggles in rising order; a pattern carries two. -/
def legOf (mode dt : Nat) (dir l0 : Bool) (edges : List Nat) : Leg :=
  ⟨edges.getD 0 noEdge, edges.getD 1 noEdge, dt, mode, dir, l0⟩

/-- What R168 reads of a slot. -/
structure PulseCfg where
  h32 : Int
  asym : Bool
  twin32 : Int
  dt32 : Int
  minp32 : Int
  carries : Bool
  deriving DecidableEq, Repr

/-- One half of one leg (R168): on-time of the half, the new debt, what was dropped, and whether a pulse was shifted. -/
structure Half where
  w : Int
  debt : Int
  dropped : Int
  shifted : Bool
  deriving DecidableEq, Repr

/-- R168: one half of one leg; for r ≥ 2 no debt is carried. -/
def halfStep (c : PulseCfg) (toValley : Bool) (on debt : Int) : Half :=
  let t := on + (if c.carries then debt else 0)
  let w := clampI 0 c.h32 t
  let dropped := t - w
  let e := if toValley then c.h32 - w else w
  let shift := c.asym && decide (0 < w) && decide (w < c.h32) && decide (c.h32 - c.twin32 ≤ e + c.dt32)
  let d := if !shift then 0 else if toValley then w else -(c.h32 - w)
  let w := if !shift then w else if toValley then 0 else c.h32
  let low := decide (0 < w) && decide (w < c.minp32)
  let d := if low then d + w else d
  let w := if low then 0 else w
  let high := decide (0 < c.h32 - w) && decide (c.h32 - w < c.minp32)
  let d := if high then d - (c.h32 - w) else d
  let w := if high then c.h32 else w
  ⟨w, if c.carries then d else 0, dropped, shift⟩

/-- Level at the start of a half, and its edge if it has one (R165). -/
def halfEdges (h32 : Int) (toValley : Bool) (w : Int) : Bool × List Int :=
  if toValley then (decide (w = h32), if 0 < w ∧ w < h32 then [h32 - w] else [])
  else (decide (0 < w), if 0 < w ∧ w < h32 then [w] else [])

/-- R163: the two halves of a carrier period as one pattern: level at its start and its toggles. -/
def periodEdges (h32 w1 w2 : Int) : Bool × List Int :=
  let a := halfEdges h32 false w1
  let b := halfEdges h32 true w2
  let endA := a.1 ^^ !a.2.isEmpty
  (a.1, a.2 ++ (if endA = b.1 then [] else [h32]) ++ b.2.map (h32 + ·))

/-- The part of a half that one tick governs, `start` 1/32 cycles into it: level and toggles within the tick. -/
def sliceEdges (h32 : Int) (toValley : Bool) (w start len : Int) : Bool × List Int :=
  let a := halfEdges h32 toValley w
  let before := a.2.filter fun e => decide (e < start)
  (a.1 ^^ !before.isEmpty, (a.2.filter fun e => decide (start ≤ e) && decide (e < start + len)).map (· - start))

/-- R162: a cyclic pattern delayed by `d` within a period of `t32`, as level and toggles. A pattern whose end differs from its
start toggles at its start too. -/
def delayEdges (t32 d : Int) (p : Bool × List Int) : Bool × List Int :=
  if d = 0 then p else
    let cyc := if p.2.length % 2 = 1 then 0 :: p.2 else p.2
    let level := p.1 ^^ ((p.2.filter fun e => decide (0 < e) && decide (e ≤ t32 - d)).length % 2 == 1)
    let moved := cyc.map fun e => e + d
    let wrapped := (moved.filter fun e => decide (t32 < e)).map (· - t32)
    (level, wrapped ++ moved.filter fun e => decide (e < t32))

/-- R170: a low-voltage channel rounds an edge to the nearest whole cycle, halves up. -/
def wholeCycle (e : Int) : Int := (e + 16) / 32 * 32

/-- The toggles of a low-voltage pattern of length `len`, each on a whole cycle: one that reaches the end is the start's own, and
two that meet are none. -/
def wholeEdges (len : Int) (es : List Int) : List Int :=
  match (es.map wholeCycle).filter fun e => decide (e < len) with
  | [a, b] => if a = b then [] else [a, b]
  | es => es

/-- A leg record of a list of toggles in a pattern of length `len`. -/
def legFrom (mode dt : Nat) (dir lv : Bool) (len : Int) (p : Bool × List Int) : Leg :=
  legOf mode dt dir p.1 ((if lv then wholeEdges len p.2 else p.2).map Int.toNat)

/-- Duty from a Q2.29 signal: clamped to 0 to 1.0 and shifted to Q1.30 (R162). -/
def dutyOf (s : Int) : Int := clampI 0 (2 ^ 29) s * 2

/-- A 50 % square wave delayed by `d`, of period `t32` (R162). -/
def square (t32 d : Int) : Bool × List Int :=
  let d := d % t32
  let h := t32 / 2
  if d = 0 then (true, [h])
  else if d < h then (false, [d, d + h])
  else if d = h then (false, [h])
  else (true, [d - h, d])

/-! ### R164: three-leg arithmetic -/

/-- R164: the three duties and the αβ voltage after the circle limit. -/
def threeLeg (va vb udc lim : Int) (ovm zseq : Bool) : List Int × Int × Int :=
  let n := isqrt (va * va + vb * vb)
  let v := if !ovm ∧ lim < n then (tdiv (va * lim) n, tdiv (vb * lim) n) else (va, vb)
  let x0 := v.1
  let x1 := sat32 (asr (-v.1 + asr (v.2 * 929887697) 29) 1)
  let x2 := sat32 (asr (-v.1 - asr (v.2 * 929887697) 29) 1)
  let v0 := if zseq then 0 else asr (max x0 (max x1 x2) + min x0 (min x1 x2)) 1
  let d (x : Int) : Int := clampI 0 (2 ^ 30) (2 ^ 29 + tdiv ((x - v0) * 2 ^ 30) (max udc (2 ^ 22)))
  ([d x0, d x1, d x2], v)

/-! ### Dead time (R166) -/

/-- R166: the dead time of a slot, by the band in force. -/
def Mach.deadTime (m : Mach) (l : Lane) (k : Nat) : Nat :=
  let b := (m.modSlot l k).band
  if b < 4 then m.fld (Reg.MOD_DTA l.ix k) (8 * b + 7) (8 * b) else m.fld (Reg.MOD_DTB l.ix k) 7 0

/-! ### The legs of a centre-aligned slot -/

/-- What the halves of a tick come to: levels and toggles of each leg, and the total on-time of each leg in the tick. -/
structure Pattern where
  legs : List (Bool × List Int)
  on : List Int
  debts : List Int
  halfOn : List Int
  dropped : List Bool
  shifted : Bool
  deriving DecidableEq, Repr

/-- R163, R168: the halves that a frame emitted in tick `n` governs, for duties in Q1.30 and a correction of each on-time. -/
def centreLegs (rlog : Int) (p n : Nat) (c : PulseCfg) (duties comp debts halfOn : List Int) : Pattern :=
  let ons := duties.mapIdx fun i d => asr (d * c.h32) 30 + nth comp i
  if 0 ≤ rlog then
    let h1 := ons.mapIdx fun i on => halfStep c false on (nth debts i)
    let h2 := ons.mapIdx fun i on => halfStep c true on (h1.getD i ⟨0, 0, 0, false⟩).debt
    let w1 := h1.map (·.w)
    let w2 := h2.map (·.w)
    { legs := (w1.zip w2).map fun w => periodEdges c.h32 w.1 w.2
      on := (w1.zip w2).map fun w => w.1 + w.2
      debts := h2.map (·.debt), halfOn := []
      dropped := [h1.any fun h => decide (h.dropped ≠ 0), h2.any fun h => decide (h.dropped ≠ 0)]
      shifted := (h1 ++ h2).any (·.shifted) }
  else
    let ticks := 2 ^ rlog.natAbs
    let pos := (n + 1) % ticks
    let span := ticks / 2
    let toValley := decide (span ≤ pos)
    let sub := pos % span
    let fresh := decide (sub = 0) || halfOn.isEmpty
    let hs := ons.mapIdx fun i on => halfStep c toValley on (nth debts i)
    let ws := if fresh then hs.map (·.w) else halfOn
    let start : Int := 32 * p * sub
    let len : Int := 32 * p
    { legs := ws.map fun w => sliceEdges c.h32 toValley w start len
      on := ws.map fun w =>
        let lo := if toValley then c.h32 - w else 0
        let hi := if toValley then c.h32 else w
        max 0 (min hi (start + len) - max lo start)
      debts := if fresh then hs.map (·.debt) else debts, halfOn := ws
      dropped := if fresh then [hs.any fun h => decide (h.dropped ≠ 0)] else []
      shifted := fresh && hs.any (·.shifted) }

/-- What Modulate reads for R168. -/
def Mach.pulseCfg (m : Mach) (l : Lane) (k : Nat) (rlog : Int) (dt : Nat) : PulseCfg :=
  let cfg := m.rd (Reg.MOD_CFG l.ix k)
  { h32 := m.half32 rlog, asym := cfg.bit 30, twin32 := 32 * cfg.bits 15 0, dt32 := 32 * dt,
    minp32 := 32 * m.fld (Reg.MOD_PULSE l.ix k) 31 16, carries := decide (rlog ≤ 0) }

/-! ### Safe state (R185) -/

/-- R185: the kind of a slot's safe-state command now. -/
def Mach.safeKindNow (m : Mach) (l : Lane) (k : Nat) : Nat :=
  match m.motorOf l k with
  | some i =>
    let f := m.motor l i
    if m.isType k .traction && f.emfhi && !f.ascReleased then (if m.bit (Reg.MOD_CFG l.ix k) 28 then 3 else 2) else 1
  | none => 1

/-- R185: the kind re-evaluated; a change raises event 0x1807. -/
def Mach.safeKindStep (m : Mach) (l : Lane) (k : Nat) : Mach :=
  let c := m.safeKindNow l k
  let old := (m.modSlot l k).safeKind
  let m := m.onMod l k fun s => { s with safeKind := c }
  if c = old then m else m.raise 0x1807 0 k [] l.origin

/-! ### Drops and the record (R169, R171) -/

/-- R169: the halves of a tick, each with or without drops. -/
def Mach.countDrops (m : Mach) (l : Lane) (k : Nat) (halves : List Bool) : Mach :=
  halves.foldl (fun m d =>
    let was := (m.modSlot l k).dropping
    let m := m.onMod l k fun s => { s with dropping := d }
    if !d then m
    else
      let m := m.incSat (Reg.MOD_STAT l.ix k) 15 8
      if was then m else m.raise 0x1805 0 k [] l.origin) m

/-- R171: the volt-second record of a TRACTION frame. -/
def voltSeconds (on : List Int) (t32 udc : Int) : VoltSec :=
  let u (i : Nat) : Int := tdiv ((2 * nth on i - t32) * udc) (2 * t32)
  ⟨tdiv (2 * u 0 - u 1 - u 2) 3, sat32 (asr ((u 1 - u 2) * 619925131) 30)⟩

/-- A record taken. -/
def Mach.recordVolts (m : Mach) (l : Lane) (k : Nat) (v : VoltSec) : Mach :=
  m.onMod l k fun s => { s with volts := v :: s.volts.take 1 }

/-! ### Modulate (R162 to R175) -/

/-- Legs of a slot by its type (R162). -/
def SlotType.legs : SlotType → Nat
  | .traction => 3
  | .pfc3 => 3
  | .chopper => 1
  | .dab => 4
  | .dcx => 1
  | .buckn => 6
  | .bldc => 3
  | .pump => 3

/-- R167: the dead-time correction of each phase of a TRACTION slot. -/
def Mach.deadComp (m : Mach) (l : Lane) (k n : Nat) (dt : Nat) : List Int :=
  match m.motorOf l k with
  | some i =>
    if !m.bit (Reg.MOD_CFG l.ix k) 29 then [0, 0, 0]
    else
      let idb : Int := m.fld (Reg.MOD_PULSE l.ix k) 15 0 * 2 ^ 15
      let c := m.currents l i (m.acqSet n)
      [c.ia, c.ib, c.ic].map fun x => tdiv (32 * dt * clampI (-idb) idb x) idb
  | none => [0, 0, 0]

/-- R164 for a slot: duties, and the αβ voltage. -/
def Mach.slotDuties (m : Mach) (l : Lane) (k n : Nat) : List Int × Int × Int :=
  let cfg := m.rd (Reg.MOD_CFG l.ix k)
  let sg := m.sig l k
  match m.slotType k with
  | some .traction =>
    match m.motorOf l k with
    | some i =>
      let f := m.motor l i
      let c := cos30 f.thc
      let s := sin30 f.thc
      let va := sat32 (asr (sg 56 * c - sg 57 * s) 30)
      let vb := sat32 (asr (sg 56 * s + sg 57 * c) 30)
      let va := sat32 (va + injSign n * asr (f.amp * c) 30)
      let vb := sat32 (vb + injSign n * asr (f.amp * s) 30)
      threeLeg va vb (sg 3) (sg 4) (cfg.bit 31) (cfg.bit 27)
    | none => ([], 0, 0)
  | some .pfc3 => threeLeg (sg 56) (sg 57) (sg 11) (sg 12) (cfg.bit 31) (cfg.bit 27)
  | some .chopper => ([dutyOf (sg 56)], 0, 0)
  | some .buckn =>
    let dmax : Int := m.fld Reg.LVC_CFG 15 8 * 2 ^ 21
    ((List.range 6).map fun i => dutyOf (min dmax (sg 56 + sg (57 + i))), 0, 0)
  | some .bldc => (List.replicate 3 (dutyOf (sg 56).natAbs), 0, 0)
  | some .pump => (List.replicate 3 (dutyOf (sg 56).natAbs), 0, 0)
  | _ => ([], 0, 0)

/-- The leg records of a switching slot, with the state and drops that they leave; `mask` is the sharing mask of a BUCKN. -/
def Mach.switchLegs (m : Mach) (l : Lane) (k n mask : Nat) (t : SlotType) (rlog : Int) (dt : Nat) : List Leg × Mach :=
  let ra := ratio rlog
  let t32 : Int := 32 * (m.period * ra.2 / ra.1 : Nat)
  let sg := m.sig l k
  match t with
  | .dab =>
    let d1 := asr (clampI 0 (2 ^ 29) (sg 57) * (t32 / 2)) 29
    let d2 := asr (clampI 0 (2 ^ 29) (sg 58) * (t32 / 2)) 29
    let ph := asr (clampI (-(2 ^ 28)) (2 ^ 28) (sg 56) * (t32 / 2)) 29
    ([0, d1, ph, ph + d2].map fun d => legFrom 0 dt false false t32 (square t32 d), m)
  | .dcx => ([legFrom 0 dt false false t32 (square t32 0)], m)
  | _ =>
    let s := m.modSlot l k
    let du := m.slotDuties l k n
    let comp := if t = .traction then m.deadComp l k n dt else []
    let p := centreLegs rlog m.period n (m.pulseCfg l k rlog dt) du.1 comp s.debts s.halfOn
    let m := m.onMod l k fun s => { s with debts := p.debts, halfOn := p.halfOn }
    let m := (m.countDrops l k p.dropped).setBit (Reg.MOD_STAT l.ix k) 20 p.shifted
    let m := if t = .traction then m.recordVolts l k (voltSeconds (p.on.map (· * ra.1)) (32 * m.period) (sg 3)) else m
    let len : Int := 32 * (if ra.1 < 2 then m.period else m.period / ra.1)
    let legs := p.legs.mapIdx fun i e => match t with
      | .chopper => legFrom 4 dt false false len e
      | .buckn =>
        if mask.testBit i then legFrom 0 dt false true len (delayEdges t32 (t32 * i / 6) e) else offLeg dt
      | .bldc => legFrom 5 dt (decide (sg 56 < 0)) true len e
      | .pump => legFrom 5 dt (decide (sg 56 < 0)) true len e
      | _ => legFrom 0 dt false false len e
    (legs, m)

/-- R173: HUDC and, for a DAB, HVB. -/
def switchedVoltage (t : SlotType) (sg : Nat → Int) : Int × Int :=
  match t with
  | .pfc3 => (sg 4, 0)
  | .dab => (sg 2, sg 1)
  | _ => (sg 3, 0)

/-- R162 to R175: Modulate of a slot in tick `n`; `sw` when it switches. The frame waits for Emit. -/
def Mach.modulate (m : Mach) (l : Lane) (k n : Nat) (sw : Bool) (mask : Nat) : Mach :=
  match m.slotEntry k with
  | none => m
  | some e =>
    let m := m.safeKindStep l k
    let dt := m.deadTime l k
    let kind := (m.modSlot l k).safeKind
    let ra := ratio e.rlog
    let patlen := if ra.1 < 2 then m.period else m.period / ra.1
    let r := if sw then m.switchLegs l k n mask e.type e.rlog dt
      else (List.replicate e.type.legs (safeLeg dt kind),
        (((m.onMod l k fun s => { s with debts := [], halfOn := [], dropping := false }).recordVolts l k ⟨0, 0⟩).setBit
          (Reg.MOD_STAT l.ix k) 20 false))
    let m := r.2
    let sg := m.sig l k
    let v := switchedVoltage e.type sg
    let tr := decide (e.type = .traction)
    let f : FocMotor := match m.motorOf l k with
      | some i => m.motor l i
      | none => default
    let du := m.slotDuties l k n
    let frac (x : Int) : Int := sat32 (tdiv (x * 2 ^ 30) (max (sg 3) (2 ^ 22)))
    let kw := match m.motorOf l k with
      | some i => m.rdS (Reg.FOC_M_KW l.ix i)
      | none => 0
    let st := m.modState l k
    let frame : Frame :=
      { seq := n, slot := k, patlen := patlen
        holdok := tr && sw && m.runFlag l k && decide (st = 4) && decide (f.amp = 0)
        start := decide (st = 2 ∨ st = 3)
        inj := tr && sw && decide (f.amp ≠ 0), replay := decide (m.laneCode l = 4), emfhi := tr && f.emfhi,
        asc := tr && decide (2 ≤ kind), safe := !sw, overrun := false,
        hva := if tr then frac du.2.1 else 0, hvb := if tr then frac du.2.2 else v.2,
        hdth := if tr then s32 (asr (f.omega * kw) 29) else 0, hudc := v.1, legs := r.1 }
    let m := m.onMod l k fun s => { s with frame := some frame }
    let m := m.setFld (Reg.MOD_STAT l.ix k) 27 26 (if sw then 0 else kind)
    m.setFld (Reg.MOD_STAT l.ix k) 23 21 (m.modSlot l k).band

/-! ### Frames as bytes (R172, R174, R175) -/

/-- R175: a leg record. -/
def Leg.bytes (g : Leg) : List Nat :=
  leBytes 8 (g.e2 % 2 ^ 24 * 2 ^ 40 + g.e1 % 2 ^ 24 * 2 ^ 16 + g.dt % 256 * 2 ^ 8 + g.mode % 8 * 2 ^ 5 + g.dir.toNat * 2 +
    g.level0.toNat)

/-- R174. -/
def Frame.flags (f : Frame) : Nat :=
  f.holdok.toNat * 2 ^ 7 + f.start.toNat * 2 ^ 6 + f.inj.toNat * 2 ^ 5 + f.replay.toNat * 2 ^ 4 + f.emfhi.toNat * 2 ^ 3 +
    f.asc.toNat * 2 ^ 2 + f.safe.toNat * 2 + f.overrun.toNat

/-- R172: a frame with CHK taken as `chk`. -/
def Frame.bytesWith (f : Frame) (chk : Nat) : List Nat :=
  leBytes 8 f.seq ++ [f.slot, f.legs.length] ++ leBytes 2 f.flags ++ leBytes 2 f.patlen ++ leBytes 2 chk ++
    leBytes 4 (u32 f.hva) ++ leBytes 4 (u32 f.hvb) ++ leBytes 4 (u32 f.hdth) ++ leBytes 4 (u32 f.hudc) ++ f.legs.flatMap Leg.bytes

/-- R172: the frame as it leaves Emit. -/
def Frame.bytes (f : Frame) : List Nat := f.bytesWith (crc16 (f.bytesWith 0))

/-! ### Sensing (R179, R185) -/

/-- R179: the back-EMF vector of the sensing accumulators. -/
def Mach.emfVector (m : Mach) (l : Lane) (k n : Nat) : Int × Int :=
  let fly := m.rd (Reg.MOD_FLY l.ix k)
  let set := m.acqSet n
  let uab := set.val (fly.bits 31 24) - set.val (fly.bits 23 16)
  let ubc := set.val (fly.bits 23 16) - set.val (fly.bits 15 8)
  (tdiv (2 * uab + ubc) 3, sat32 (asr (ubc * 619925131) 30))

/-- R179: a phase tracker's MAX has reached 0.97 × u_dc. -/
def Mach.diodeConduction (m : Mach) (l : Lane) (k n : Nat) : Bool :=
  let fly := m.rd (Reg.MOD_FLY l.ix k)
  let set := m.acqSet n
  let phases := [fly.bits 31 24, fly.bits 23 16, fly.bits 15 8]
  (List.range 15).any fun q => m.fld (Reg.ACQ_SEQ_TRIG q) 31 28 == 5 && (List.range (m.seqLen q)).any fun e =>
    let w := m.seqEnt q e
    w.bit 16 && phases.contains (w.bits 15 8) && w.bit 30 &&
      (let t := nth set.trk (w.bits 29 24)
       decide (t.count ≠ 0) && decide (97 * m.sig l k 3 ≤ 100 * t.max))

/-- R179: ticks of differences that make 5 ms. -/
def Mach.senseTicks (m : Mach) : Nat := (2000000 + m.period - 1) / m.period

/-- R179: one tick of SENSING. -/
def Mach.senseStep (m : Mach) (l : Lane) (k n : Nat) : Mach :=
  let s := m.modSlot l k
  if n < s.senseFrom ∨ s.decide then m else
    let e := m.emfVector l k n
    let phi := atan32 e.2 e.1
    let total := if 0 < s.n then s.phi + s32 ((phi : Int) - s.phiprev) else s.phi
    let mag := isqrt (e.1 * e.1 + e.2 * e.2)
    let forced := decide (8 ≤ s.n) && m.diodeConduction l k n
    let done := decide (2 ^ 33 ≤ total.natAbs) || decide (m.senseTicks ≤ s.n) || forced
    let m := m.onMod l k fun s =>
      { s with n := s.n + 1, phi := total, phiprev := phi, emagMin := min s.emagMin mag, ea := e.1, eb := e.2,
               decide := done, forced := forced }
    if forced then m.raise 0x1809 0 k [] l.origin else m

/-- R179: ω of a sum of angle differences; with KW 0 the rule states no value and it is free (log entry 2). -/
def Mach.senseSpeed (m : Mach) (total : Int) (count : Nat) (kw : Int) : Int × Mach :=
  if (count : Int) * kw = 0 then
    let r := m.freeVal 32
    (signed 32 r.1, r.2)
  else (tdiv (total * 2 ^ 29) (count * kw), m)

/-- R185: continuous sensing of a freewheeling slot without a healthy sensor, over the last 16 differences. -/
def Mach.senseContinuous (m : Mach) (l : Lane) (k i n : Nat) : Mach :=
  let e := m.emfVector l k n
  let phi := atan32 e.2 e.1
  let s := m.modSlot l k
  let diffs := (s32 ((phi : Int) - s.phiprev) :: s.diffs).take 16
  let r := m.senseSpeed diffs.sum diffs.length (m.rdS (Reg.FOC_M_KW l.ix i))
  let m := r.2.onMod l k fun s => { s with diffs := diffs, phiprev := phi, contW := r.1, ea := e.1, eb := e.2 }
  m.wrS (Reg.MOD_FLYSPD l.ix k) r.1

/-! ### Start and stop (R176 to R184) -/

/-- R176: one step of the speed ramp. -/
def rampStep (acc dec tgt g : Int) : Int :=
  let a := acc * 2 ^ 5
  let b := dec * 2 ^ 5
  let g := if g < tgt then min (g + (if 0 ≤ g then a else b)) (if g < 0 ∧ 0 < tgt then 0 else tgt) else g
  if tgt < g then max (g - (if g ≤ 0 then a else b)) (if 0 < g ∧ tgt < 0 then 0 else tgt) else g

/-- R176: the ramp of a slot at step 3, into S16; without RAMPEN S16 comes from LAW_SETP. -/
def Mach.rampSlot (m : Mach) (l : Lane) (k : Nat) (entered : Bool) : Mach :=
  if !m.bit (Reg.MOD_CFG l.ix k) 25 then m else
    let s := m.modSlot l k
    let acc := m.rd (Reg.MOD_RACC l.ix k)
    let stopping := m.modState l k = 5 ∧ s.stopt = 0
    let g := if entered then s.g
      else if stopping then rampStep (acc.bits 31 16) (m.fld (Reg.MOD_RQDEC l.ix k) 15 0) 0 s.g
      else rampStep (acc.bits 31 16) (acc.bits 15 0) (m.rdS (Reg.MOD_RTGT l.ix k)) s.g
    let m := (m.onMod l k fun s => { s with g := g }).setSig l k 16 g
    m.wrS (Reg.MOD_RAMP l.ix k) g

/-- R181: a slot enters CATCH with a speed and an angle: sections and ramp preset, FOC seeded. -/
def Mach.catchEntry (m : Mach) (l : Lane) (k : Nat) (w : Int) (th : Nat) : Mach :=
  let psi := match m.motorOf l k with
    | some i => m.rdS (Reg.FOC_M_PSI l.ix i)
    | none => 0
  let m := m.setModState l k 2
  let m := m.presetSection l (m.fld (Reg.MOD_FLYSEC l.ix k) 12 0) (mulq w psi)
  let m := m.presetSection l (m.fld (Reg.MOD_FLYSEC l.ix k) 28 16) 0
  let m := m.presetSection l (m.fld (Reg.MOD_SPDSEC l.ix k) 12 0) 0
  let m := m.onMod l k fun s => { s with catching := none, decide := false, g := if m.bit (Reg.MOD_CFG l.ix k) 25 then w else s.g }
  (m.wrS (Reg.MOD_FLYSPD l.ix k) w).focSeed l k th w

/-- SENSING begins at this boundary of tick `n`; the first vector is that of the next tick (R179). -/
def Mach.senseEntry (m : Mach) (l : Lane) (k n : Nat) : Mach :=
  (m.setModState l k 1).onMod l k fun s =>
    { s with n := 0, phi := 0, phiprev := 0, emagMin := 2 ^ 62, senseFrom := n + 1, repeated := false, decide := false,
             forced := false, diffs := [], catching := none }

/-- R177, R178: what a START leads to in IDLE, SENSING or FAULT at boundary `n`: step 3 sees the sensor in the set of tick `n - 1`,
since the set of `n` freezes at step 5 (R42). -/
def Mach.startSlot (m : Mach) (l : Lane) (k n : Nat) : Mach :=
  match m.slotType k, m.motorOf l k with
  | some .traction, some i =>
    if 2 ≤ (m.modSlot l k).safeKind then (m.setModState l k 0).onMod l k fun s => { s with startHeld := true }
    else
      let m := m.onMod l k fun s => { s with startHeld := false }
      let sen := m.sensor l i (n - 1)
      let src := m.src l i
      if src = 0 ∨ (src = 2 ∧ sen.2.2) then m.catchEntry l k sen.2.1 sen.1
      else if m.bit (Reg.MOD_CFG l.ix k) 26 then m.senseEntry l k n
      else (m.setModState l k 4).focStandstill l k (n - 1)
  | _, _ => m.setModState l k 4

/-- R183: a stop is complete. -/
def Mach.stopDone (m : Mach) (l : Lane) (k : Nat) : Mach := (m.modOff l k 0).raise 0x1806 0 k [] l.origin

/-- R183: a STOP of a slot that is running or sensing. -/
def Mach.stopSlot (m : Mach) (l : Lane) (k stopt : Nat) : Mach :=
  let st := m.modState l k
  let m := m.onMod l k fun s => { s with startHeld := false }
  if st = 0 ∨ st = 6 then m
  else if st = 1 ∨ stopt = 2 ∨ !m.isType k .traction then m.stopDone l k
  else
    let t := if stopt = 0 ∧ m.bit (Reg.MOD_CFG l.ix k) 25 then 0 else 1
    (m.setModState l k 5).onMod l k fun s => { s with stopt := t, stopRun := 0 }

/-- R181: ω is backward against the target or the torque command. -/
def Mach.backward (m : Mach) (l : Lane) (k : Nat) (w : Int) : Bool :=
  let ref := if m.bit (Reg.MOD_CFG l.ix k) 25 then m.rdS (Reg.MOD_RTGT l.ix k)
    else match m.motorOf l k with
      | some i => m.rdS (Reg.FOC_M_TQCMD l.ix i)
      | none => 0
  decide (sgnI ref * sgnI w < 0)

/-- R183: the dwell of a stop is met: 16 ticks at zero speed, or 4 at zero demand. -/
def Mach.stopComplete (m : Mach) (l : Lane) (k : Nat) : Mach :=
  let s := m.modSlot l k
  if m.modState l k = 5 ∧ (if s.stopt = 0 then 16 else 4) ≤ s.stopRun then m.stopDone l k else m

/-- R180: the decision of a flying start. -/
def Mach.flyingDecision (m : Mach) (l : Lane) (k t : Nat) : Mach :=
  let s := m.modSlot l k
  match m.motorOf l k with
  | none => m
  | some i =>
    if m.modState l k ≠ 1 ∨ !s.decide then m else
      let kw := m.rdS (Reg.FOC_M_KW l.ix i)
      let r := m.senseSpeed s.phi (s.n - 1) kw
      let m := r.2
      let w := r.1
      let psiw := mulq w.natAbs (m.rdS (Reg.FOC_M_PSI l.ix i))
      let mag := isqrt (s.ea * s.ea + s.eb * s.eb)
      let still := w.natAbs < m.fld (Reg.MOD_FLY l.ix k) 7 0 * 2 ^ 17 ∨ s.emagMin < m.fld (Reg.MOD_EMFMIN l.ix k) 15 0 * 2 ^ 13
      let odd := psiw < 4 * ((mag - psiw).natAbs : Int)
      let p : Int := m.period
      let th := u32 (s.phiprev - sgnI w * 2 ^ 30 +
        (asr (w * kw) 29 * (8 * (m.fld (Reg.FOC_M_CFG l.ix i) 15 0 : Int) - 3 * p)) / (8 * p))
      let m := (m.wrS (Reg.MOD_FLYSPD l.ix k) w).onMod l k fun s => { s with decide := false }
      let out := if still then 0 else if odd then 1 else 2
      let m := m.raise 0x1801 0 k (leBytes 4 (u32 w) ++ [out]) l.origin
      if still then ((m.setBit (Reg.MOD_STAT l.ix k) 24 true).setModState l k 4).focStandstill l k t
      else
        let m := m.setBit (Reg.MOD_STAT l.ix k) 24 false
        if odd then
          if s.repeated then (m.raiseF3 0x1802 k [] l.origin).modOff l k 6
          else m.onMod l k fun s => { s with n := 0, phi := 0, emagMin := 2 ^ 62, repeated := true }
        else (m.wrN (Reg.MOD_FLYANG l.ix k) th).onMod l k fun s => { s with catching := some (w, th) }

/-- The decisions of the tick before that no command has taken. -/
def Mach.modPrelude (m : Mach) (l : Lane) (n : Nat) : Mach := forN 16 (fun k m => (m.flyingDecision l k (n - 1)).stopComplete l k) m

/-- R24, R184: without permission a slot is in IDLE, and a START that waits is gone; one in FAULT enters IDLE where a transition
withdraws the permission. -/
def Mach.startPermit (m : Mach) (l : Lane) (k : Nat) : Mach :=
  let may := m.permitted k
  let had := (m.modSlot l k).permitted
  let m := m.onMod l k fun s => { s with permitted := may, startHeld := s.startHeld && may }
  if may || m.modState l k == 0 || (m.modState l k == 6 && !had) then m else (m.lossEnd l k).modOff l k 0

/-- R181: CATCH is entered after a decision, and left at the boundary after. -/
def Mach.startCatch (m : Mach) (l : Lane) (k : Nat) : Mach :=
  match m.modState l k, (m.modSlot l k).catching with
  | 2, _ =>
    let b := m.backward l k (m.rdS (Reg.MOD_FLYSPD l.ix k))
    (m.setBit (Reg.MOD_STAT l.ix k) 25 b).setModState l k (if b then 3 else 4)
  | 1, some c => m.catchEntry l k c.1 c.2
  | _, _ => m

/-- R155: the flying start that FOC requested after a loss. -/
def Mach.startRestart (m : Mach) (l : Lane) (k n : Nat) : Mach :=
  match m.motorOf l k with
  | none => m
  | some i =>
    if !(m.motor l i).restartReq then m else
      if m.permitted k && !m.bit (Reg.FOC_M_CTRL l.ix i) 31 && (m.modState l k == 0 || m.modState l k == 6) then
        (m.onMotor l i fun f =>
          { f with phase := .none, lossCount := 0, lcap := 0x7FFFFFFF, lastRestart := some m.now }).startSlot l k n
      else m.onMotor l i fun f => { f with restartReq := false }

/-- R178: a START that waited for the release from active short circuit. -/
def Mach.startReleased (m : Mach) (l : Lane) (k n : Nat) : Mach :=
  if m.permitted k && (m.modSlot l k).startHeld && (m.modSlot l k).safeKind == 1 then m.startSlot l k n else m

/-- R177, R183, R184: START and STOP of MOD_CMD; STOP prevails. -/
def Mach.startCommand (m : Mach) (l : Lane) (k n : Nat) (cmd : Word) : Mach :=
  let st := m.modState l k
  if cmd.bit 30 && cmd.bits 29 28 == 3 then m.raise 0x1808 0 k [] l.origin
  else if cmd.bit 30 then m.stopSlot l k (cmd.bits 29 28)
  else if !cmd.bit 31 then m
  else if !m.permitted k then m.raise 0x1808 0 k [] l.origin
  else if st == 5 then m.setModState l k 4
  else if st == 0 || st == 1 || st == 6 then m.startSlot l k n
  else m

/-- R250, R281: the types whose start state follows a machine; they refuse START and STOP. -/
def SlotType.machineStarts : SlotType → Bool
  | .pfc3 => true
  | .dab => true
  | .bldc => true
  | .pump => true
  | _ => false

/-- R250, R281: RUN while the slot's machine switches, IDLE while it does not; START and STOP are refused. -/
def Mach.machineStart (m : Mach) (l : Lane) (k : Nat) (cmd : Word) (runs : Bool) : Mach :=
  let m := if cmd.bit 31 || cmd.bit 30 then m.raise 0x1808 0 k [] l.origin else m
  if m.modState l k == 6 && !runs then m
  else m.setModState l k (if runs && m.permitted k then 4 else 0)

/-- R177 to R184: the start state of a slot at step 3 of the boundary of tick `n`; `runs` is what a machine of its own says. -/
def Mach.startStep (m : Mach) (l : Lane) (k n : Nat) (runs : Option Bool) : Mach :=
  let cmd := m.rd (Reg.MOD_CMD l.ix k)
  let m := m.wr (Reg.MOD_CMD l.ix k) ((cmd.withBit 31 false).withBit 30 false)
  let before := m.modState l k
  let m := m.startPermit l k
  let m := if (m.slotType k).any (·.machineStarts) then m.machineStart l k cmd (runs.getD false)
    else (((m.startCatch l k).startRestart l k n).startReleased l k n).startCommand l k n cmd
  m.rampSlot l k (before != 2 && m.modState l k == 2)

/-- R182, R183: what the tick's torque and speed say to BRAKE and STOPPING, after Transform. -/
def Mach.afterTransform (m : Mach) (l : Lane) (k : Nat) : Mach :=
  let w := m.sig l k 5
  let slow := w.natAbs < m.fld (Reg.MOD_FLY l.ix k) 7 0 * 2 ^ 17
  match m.modState l k with
  | 3 => if slow then (m.setModState l k 4).raise 0x1804 0 k [] l.origin else m
  | 5 =>
    let s := m.modSlot l k
    let ok := if s.stopt = 0 then s.g = 0 ∧ slow else m.sig l k 9 = 0
    m.onMod l k fun s => { s with stopRun := if ok then s.stopRun + 1 else 0 }
  | _ => m

/-- R179, R185: the sensing of a TRACTION slot in tick `n`. -/
def Mach.senseTick (m : Mach) (l : Lane) (k n : Nat) : Mach :=
  match m.motorOf l k with
  | none => m
  | some i =>
    if m.modState l k = 1 then m.senseStep l k n
    else
      let blind := m.src l i = 1 ∨ !(m.sensor l i n).2.2
      if !m.runFlag l k ∧ blind ∧ (m.modSlot l k).safeKind = 1 then
        m.senseContinuous l k i n
      else m

/-- R184: an F3 cause stops a slot of a lane, with no ramp. An F4 event withdraws every permission (R25). -/
def Mach.causeStop (m : Mach) (l : Lane) (k : Nat) : Mach := if m.hasSlot k then m.modOff l k 6 else m

/-! ### The MOD commands -/

/-- A write of MOD_CMD, a command register (R188). -/
def modCmdWrite (cyc : Nat) (who : Writer) (lane : Lane) (k : Nat) (v : Word) (s : State) : Host.Outcome State Fault Refusal :=
  run s cyc fun m => m.ownCopy who lane (Reg.MOD_CMD lane.ix k) fun m =>
    m.shadowWrite lane (Reg.MOD_CMD lane.ix k) (v &&& 0xF0000000#32)

/-- MOD_START (R177): a write of MOD_CMD with START. -/
def execModStart (cyc : Nat) (who : Writer) (lane : Lane) (k : Fin 16) (value : Word) (s : State) :
    Host.Outcome State Fault Refusal :=
  modCmdWrite cyc who lane k (value ||| 0x80000000#32) s

/-- MOD_STOP (R183): a write of MOD_CMD with STOP. -/
def execModStop (cyc : Nat) (who : Writer) (lane : Lane) (k : Fin 16) (value : Word) (s : State) :
    Host.Outcome State Fault Refusal :=
  modCmdWrite cyc who lane k (value ||| 0x40000000#32) s

/-- FLYING_START_DECISION (R180). -/
def execFlyingStartDecision (cyc : Nat) (lane : Lane) (k : Fin 16) (s : State) : Host.Outcome State Fault Refusal :=
  run s cyc fun m => m.flyingDecision lane k m.seq

/-- STOP_COMPLETE (R183). -/
def execStopComplete (cyc : Nat) (lane : Lane) (k : Fin 16) (s : State) : Host.Outcome State Fault Refusal :=
  run s cyc fun m => m.stopComplete lane k

end Sys2Proof.Machine
end

