-- ==== Sys2Proof/Machine/Gate.lean ====
section
/-! DEFINITION. Gate drive and power-stage protection (chapter 8): the execution of frames, adaptive strength, short circuits,
the over-voltage clamp, low-voltage legs, hall commutation and the off-state diagnostics. -/

namespace Sys2Proof.Machine

/-! ### Low-side on-time (R208) -/

/-- The time between instants `a` and `b` in which `f` holds of the switches, from `c` on and through the commands `es`. -/
def timeWith (f : Bool × Bool → Bool) (c : Bool × Bool) (a b : Int) (es : List GateEdge) : Int :=
  match es with
  | [] => if f c then b - a else 0
  | e :: es =>
    let i := max a (min b e.at_)
    (if f c then i - a else 0) + timeWith f (e.h, e.l) i b es

/-- The low-side on-time of leg `j` from where it has been counted to instant `t`. -/
def Mach.lowUntil (m : Mach) (j : Nat) (t : Int) : Int :=
  let x := m.leg j
  let a := min t (max x.seen x.onFrom)
  timeWith (fun c => (x.cmd (m.syncOf j) c).2) (x.out.h, x.out.l) a t x.out.edges

/-- A leg's commands up to instant `t` executed, with its low-side on-time counted. -/
def Mach.legSettle (m : Mach) (j : Nat) (t : Int) : Mach :=
  let low := m.lowUntil j t
  m.onLeg j fun x => { x with out := x.out.upTo t, lowNow := x.lowNow + low, seen := max x.seen t }

/-! ### Hall commutation (R212, R213) -/

/-- R213: leg `j` takes a new phase: an incoming switch waits for the dead time, and a refresh pulse is cut and due again (R210). -/
def Mach.takeRole (m : Mach) (j : Nat) (r : CommRole) : Mach :=
  let t : Int := 32 * m.time.cyc
  if (m.leg j).role = r then m else
    let m := m.legSettle j t
    let x := m.leg j
    let sync := m.syncOf j
    let was := x.role.cmd sync (x.out.h, x.out.l)
    let nxt := r.cmd sync (x.out.h, x.out.l)
    let on := (nxt.1 && !was.1) || (nxt.2 && !was.2)
    let cut := (x.refreshCmd t).isSome
    m.onLeg j fun x => { x with
      role := r, onFrom := if on then t + 32 * x.dt else x.onFrom
      refreshAt := if cut then none else x.refreshAt, refreshDue := x.refreshDue || cut }

/-- R212, R213: the legs of drive `d` follow the hall sector and DIR while they execute COMM; the sector shows in every mode. -/
def Mach.commutate (m : Mach) (d : Nat) : Mach :=
  let j0 := 6 + 3 * d
  let st := Reg.GDL_DRV_STAT d
  let sector := (m.hall (m.fld (Reg.GDL_DRV_CFG d) 27 24)).sector
  let dir := nth m.gate.dir d
  let comm := decide ((m.leg j0).mode = 5)
  let inv := decide (6 ≤ sector)
  let row := commRow sector dir
  let ph := commPhases row
  let was := m.bit st 4
  let role (i : Nat) : CommRole := if inv then .off else if i = ph.1 then .pulse else if i = ph.2 then .ret else .off
  let m := if comm then forN 3 (fun i m => m.takeRole (j0 + i) (role i)) m else m
  let m := ((m.setFld st 2 0 sector).setBit st 3 dir).setBit st 4 (comm && inv)
  let m := if comm && !inv then m.setFld st 7 5 row else m
  if comm && inv && !was then m.orr Reg.GDL_IRQ_STAT 0x20 else m

/-! ### Loading a frame (R193, R195, R202) -/

/-- R195: whether an isolated pair can execute a MODE: USE 2 is a single switch. -/
def pairModeOk (use mode : Nat) : Bool :=
  if use = 1 then decide (mode ≤ 4) else mode == 1 || mode == 4

/-- R195: whether a low-voltage leg can execute a MODE; COMM belongs to the legs of a drive. -/
def legModeOk (j mode : Nat) : Bool := decide (mode ≤ 4) || (mode == 5 && decide (6 ≤ j))

/-- R202: the MODE that a TRACTION slot with latched channels executes in place of a leg record's. -/
def latchedMode (hi lo l2l : Bool) (mode : Nat) : Nat :=
  if l2l || (hi && lo) then 1
  else if lo && mode == 2 then 3
  else if hi && mode == 3 then 2
  else mode

/-- R219: FLT of a pair shows a fault that stands: the one it shows, else a latch, an undervoltage or a diagnostic block. -/
def Mach.showFlt (m : Mach) (p : Nat) : Mach :=
  let x := m.pair p
  let latched := x.latchH || x.latchL
  let stands (c : Nat) : Bool := (latched && c == x.code) || (c == 4 && (x.uvH || x.uvL)) || (c == 7 && x.blocked)
  if stands (m.fld (Reg.GDI_PR_STAT p) 12 10) then m
  else m.setFld (Reg.GDI_PR_STAT p) 12 10 (([x.code, 4, 7].find? stands).getD 0)

/-- R221: FLT of a leg shows a fault that stands: the one it shows, else a latch or a diagnostic block. -/
def Mach.showLegFlt (m : Mach) (j : Nat) : Mach :=
  let x := m.leg j
  let stands (c : Nat) : Bool := (x.latch && c == x.code) || (c == 4 && x.blocked)
  if stands (m.fld (Reg.GDL_LEG_STAT j) 28 26) then m
  else m.setFld (Reg.GDL_LEG_STAT j) 28 26 (([x.code, 4].find? stands).getD 0)

/-- How often the pattern of a frame runs in the tick (R175). -/
def Mach.patternReps (m : Mach) (f : Frame) : Nat := max 1 (m.period / max 1 f.patlen)

/-- R193, R195: a leg record into an isolated pair; `told` where the frame loads and does not repeat. -/
def Mach.loadPair (m : Mach) (f : Frame) (p : Nat) (g : Leg) (mode : Nat) (told : Bool) : Mach :=
  let ok := pairModeOk (m.fld (Reg.GDI_PR_CFG p) 27 26) mode
  let m := if ok || !told then m else m.raiseF3 0x1C0F f.slot
  let mode := if ok then mode else 1
  let sk := m.rd (Reg.GDI_PR_SKEW p)
  let skew := (signed 16 (sk.bits 31 16), signed 16 (sk.bits 15 0))
  let c := m.time.cyc
  let n := m.patternReps f
  m.onPair p fun x => { x with mode := mode, out := x.out.load g mode f.patlen n (32 * c) skew, waitH := false, waitL := false }

/-- R193, R195: a leg record into a low-voltage leg; a pattern that ends COMM leaves the switches as they stood. -/
def Mach.loadLeg (m : Mach) (f : Frame) (j i : Nat) (g : Leg) (told : Bool) : Mach :=
  let ok := legModeOk j g.mode
  let m := if ok || !told then m else m.raiseF3 0x2009 f.slot
  let m := if ok then m.showLegFlt j else m.setFld (Reg.GDL_LEG_STAT j) 28 26 5
  let mode := if ok then g.mode else 1
  let t : Int := 32 * m.time.cyc
  let n := m.patternReps f
  let sync := m.syncOf j
  let m := (m.legSettle j t).onLeg j fun x =>
    let c := x.cmd sync (x.out.h, x.out.l)
    let out : Gates := if x.mode = 5 ∧ mode ≠ 5 then { x.out with h := c.1, l := c.2, edges := [] } else x.out
    { x with mode := mode, dt := g.dt, out := out.load g mode f.patlen n t (0, 0)
             onFrom := if x.mode ≠ 5 ∧ mode = 5 then t + 32 * (tpd + g.dt) else x.onFrom
             wait := x.wait && !(f.safe && told) }
  match driveOf j with
  | some d => if mode = 5 ∧ i = 0 then m.onGate fun y => { y with dir := upd y.dir d fun _ => g.dir } else m
  | none => m

/-- R193, R202: the pattern of a frame in the channels of slot `k`; `told` where the frame loads and does not repeat. While a channel
of the slot is latched only a safe-state frame is executed. -/
def Mach.gateRun (m : Mach) (k : Nat) (f : Frame) (told : Bool) : Mach :=
  let m := m.onLb fun b => { b with slots := upd b.slots k fun s => { s with exec := some f } }
  let lat := m.slotLatches k
  let any := lat.1 || lat.2
  if any && !f.safe then m else
    let tr := m.isType k .traction && any
    let modeOf (x : Nat) : Nat := if tr then latchedMode lat.1 lat.2 (m.gate.l2l.testBit k) x else x
    let side := tr && (f.legs.any fun g => modeOf g.mode != g.mode && modeOf g.mode != 1)
    let m := if side && !m.gate.moved.testBit k then
        (m.raise 0x1C0D 0 k).onGate fun g => { g with moved := g.moved ||| 2 ^ k }
      else m
    let m := forL (m.pairsOf k).zipIdx (fun x m => match f.legs[x.2]? with
      | some g => m.loadPair f x.1 g (modeOf g.mode) told
      | none => m) m
    let m := forL (m.legsOf k).zipIdx (fun x m => match f.legs[x.2]? with
      | some g => m.loadLeg f x.1 x.2 g told
      | none => m) m
    match (m.legsOf k).head?.bind driveOf with
    | some d => m.commutate d
    | none => m

/-- R20, R193, R202: the frame of slot `k` loads into its channels at a boundary; a safe-state frame ends the hold of R202. -/
def Mach.gateLoad (m : Mach) (k : Nat) (f : Frame) : Mach :=
  (if f.safe then m.onGate fun g => { g with held := g.held &&& (0xFFFF ^^^ 2 ^ k) } else m).gateRun k f true

/-- R175: at a boundary without a new frame the pattern of the slot begins again. -/
def Mach.gateRepeat (m : Mach) (k : Nat) : Mach :=
  match (nth m.lane.slots k).exec with
  | some f => m.gateRun k f false
  | none => m

/-- The commands of the tick that ends are executed, and what is still on its way counts from the new boundary; the leg's low-side
on-time of the tick joins the record of 32 ticks (R193, R208). -/
def Mach.gateTurn (m : Mach) : Mach :=
  let p := m.period
  let d : Int := 32 * p
  let m := forN 24 (fun j m => m.legSettle j d) m
  m.onGate fun g => { g with
    pairs := g.pairs.map fun x => { x with out := (x.out.upTo d).shift p }
    legs := g.legs.map fun x => { x with
      out := x.out.shift p, onFrom := x.onFrom - d, seen := 0, lowNow := 0, low := (x.lowNow :: x.low).take 32
      refreshAt := x.refreshAt.map (· - d) } }

/-- R204, R207, R219, R221: what the boundary of tick `n` updates: the clamp's hand-over, outputs enabled (R218), refresh, and
the snapshots' SEQ. -/
def Mach.gateBoundary (m : Mach) (n : Nat) : Mach :=
  let m := m.gateTurn.onGate fun g =>
    { g with clamped := g.clamped && m.bit Reg.GDI_OVSTAT 0
             enabled := if 1 ≤ n then g.enB &&& g.enS else g.enabled }
  let m := forN 24 (fun j m =>
    let x := m.leg j
    let boot := m.fld (Reg.GDL_LEG_CFG j) 26 25
    let refr := (m.slotOfLeg j).isSome && (boot == 1 || (boot == 0 && x.pumpBad))
    ((m.setBit (Reg.GDL_LEG_STAT j) 30 refr).setFld (Reg.GDL_LEG_STAT j) 15 8 (min x.refr 255)).onLeg j
      fun x => { x with refr := 0 }) m
  (m.wrN Reg.GDI_SNAP (n % 2 ^ 32)).wrN Reg.GDL_SNAP (n % 2 ^ 32)

/-! ### Edges and adaptive strength (R194, R196 to R198) -/

/-- R196: the number of the target curve for a band. -/
def Mach.targetCurve (m : Mach) (p : Nat) (on : Bool) : Nat :=
  let b := m.fld (Reg.GDI_PR_STAT p) 15 13
  if 4 ≤ b then (if on then m.fld (Reg.GDI_PR_TB4 p) 31 24 else m.fld (Reg.GDI_PR_TB4 p) 23 16)
  else if on then m.fld (Reg.GDI_PR_TON p) (8 * b + 7) (8 * b) else m.fld (Reg.GDI_PR_TOFF p) (8 * b + 7) (8 * b)

/-- R196: the voltage that a pair's edge crosses: HUDC, and HVB for legs 2 and 3 of a DAB. -/
def Mach.crossVoltage (m : Mach) (p : Nat) : Int :=
  match m.slotOfPair p with
  | none => 0
  | some k =>
    match (nth m.lane.slots k).exec with
    | none => 0
    | some f => if m.isType k .dab && decide (2 ≤ (m.pairsOf k).findIdx (· == p)) then f.hvb else f.hudc

/-- The low bit of a channel's and direction's step in GDI_PR_STAT: KONH, KOFFH, KONL, KOFFL. -/
def stepBit (low on : Bool) : Nat := 28 - 4 * (2 * low.toNat + (!on).toNat)

/-- R197: one step of the strength; `err` is t_m − T. -/
def nextStep (err tol : Int) (smin smax k : Nat) : Nat :=
  if tol < err then min (k + 1) smax else if err < -tol then max (k - 1) smin else k

/-- R196, R198: a switching edge of one channel; `tm` is the transition time, none without a crossing within 1 µs. -/
def Mach.measureEdge (m : Mach) (p : Nat) (low on : Bool) (tm : Option Nat) : Mach :=
  if !m.bit (Reg.GDI_PR_CFG p) 23 then m else
    match tm with
    | none => m.incSat (Reg.GDI_PR_CNT p) 31 16
    | some t =>
      let str := m.rd (Reg.GDI_PR_STR p)
      let lo := stepBit low on
      let k := m.fld (Reg.GDI_PR_STAT p) (lo + 3) lo
      let tol : Int := m.fld (Reg.GDI_PR_TB4 p) 15 8
      let err : Int := t - m.curve (m.targetCurve p on) (m.crossVoltage p)
      let d := 2 * low.toNat + (!on).toNat
      let m := m.setFld (Reg.GDI_PR_STAT p) (lo + 3) lo (nextStep err tol (str.bits 15 12) (str.bits 11 8) k)
      let a := if low then Reg.GDI_PR_TSWL p else Reg.GDI_PR_TSWH p
      let m := if on then m.setFld a 31 16 (min t 0xFFFF) else m.setFld a 15 0 (min t 0xFFFF)
      let stuck := decide (k = str.bits 11 8) && decide (tol < err)
      let n := if stuck then nth (m.pair p).sat d + 1 else 0
      let told := nth (m.pair p).satTold d && !decide (err.natAbs ≤ tol.natAbs)
      let fire := decide (256 ≤ n) && !told
      let m := m.onPair p fun x =>
        { x with sat := upd x.sat d fun _ => min n 256, satTold := upd x.satTold d fun _ => told || fire }
      if fire then (m.raise 0x1C07 1 ((m.slotOfPair p).getD 0xFF)).orr Reg.GDI_IRQ_STAT 0x100
      else m

/-- R194: where `e` has just turned a switch off, the complement that follows waits `ext` cycles longer for the outgoing gate; a
later edge cuts it. -/
def holdOn (was : Bool × Bool) (e : GateEdge) (ext : Nat) (es : List GateEdge) : List GateEdge :=
  match es with
  | n :: r =>
    let off := (was.1 && !e.h) || (was.2 && !e.l)
    let on := (n.h && !e.h) || (n.l && !e.l)
    if off && on && decide (0 < ext) then
      let n := { n with at_ := n.at_ + 32 * ext }
      if r.head?.any fun y => decide (y.at_ ≤ n.at_) then r else n :: r
    else es
  | [] => []

/-- R194: the command that falls in the present cycle, with the switches before it and what follows; none otherwise. -/
def Mach.edgeNow (m : Mach) (g : Gates) (ext : Nat) : Option (Gates × Gates) :=
  let g := g.upTo (32 * m.time.cyc - 1)
  match g.edges with
  | e :: es => if e.at_ ≤ endOf m.time.cyc then some (g, { g.apply e with edges := holdOn (g.h, g.l) e ext es }) else none
  | [] => none

/-- R194, R195: an edge of isolated pair `p` in the present cycle, as the record places it; `ext` cycles by which the interlock
extends DT, `tm` the transition time. -/
def Mach.pairEdge (m : Mach) (p ext : Nat) (tm : Option Nat) : Mach :=
  if (m.slotOfPair p).isNone then m else
    match m.edgeNow (m.pair p).out ext with
    | none => m
    | some (g, x) =>
      let before := m.pairGates p (g.h, g.l)
      let after := m.pairGates p (x.h, x.l)
      let extended := decide (x.edges ≠ g.edges.drop 1)
      let m := m.onPair p fun y => { y with out := x }
      let m := if extended then m.setFld (Reg.GDI_PR_STAT p) 7 0 (min (m.fld (Reg.GDI_PR_STAT p) 7 0 + ext) 255) else m
      let m := if before.1 != after.1 then m.measureEdge p false after.1 tm else m
      if before.2 != after.2 then m.measureEdge p true after.2 tm else m

/-- R194, R195: an edge of low-voltage leg `j` in the present cycle, as the record places it. -/
def Mach.legEdge (m : Mach) (j ext : Nat) : Mach :=
  if (m.slotOfLeg j).isNone then m else
    match m.edgeNow (m.leg j).out ext with
    | none => m
    | some (_, x) => (m.legSettle j (32 * m.time.cyc - 1)).onLeg j fun y => { y with out := x }

/-! ### Latches (R200 to R203) -/

/-- 60 s in timebase units (R203, R376). -/
def lockTime : Nat := 120000000000

/-- R219: LATCH of a pair as its channels stand. -/
def Mach.showLatch (m : Mach) (p : Nat) : Mach := m.setBit Reg.GDI_FAULT p ((m.pair p).latchH || (m.pair p).latchL)

/-- The chopper pairs that the clamp may turn on: those without a latch (R204). -/
def Mach.clampPairs (m : Mach) : List Nat :=
  (List.range 16).filter fun p => match m.slotOfPair p with
    | some k => m.isType k .chopper && !(m.pair p).latchH && !(m.pair p).latchL
    | none => false

/-- R204, R219: a latched fault on the chopper pair disables the clamp. -/
def Mach.clampEnds (m : Mach) : Mach :=
  if m.gate.clamped && m.clampPairs.isEmpty then (m.setBit Reg.GDI_OVSTAT 0 false).onGate fun g => { g with clamped := false }
  else m

/-- R200, R203: channels of a pair latch with a fault code, with a soft turn-off where `soft`; the third fault of the pair within
60 s locks it. -/
def Mach.latchPair (m : Mach) (p : Nat) (h l : Bool) (code : Nat) (soft : Bool) : Mach :=
  let x := m.pair p
  let first := (h || l) && !x.latchH && !x.latchL
  let times := if first then m.now :: (x.times.filter fun t => decide (m.now < t + lockTime)) else x.times
  let at_ (b latched : Bool) (old : Option Nat) : Option Nat :=
    if b && !latched then (if soft then some m.now else none) else old
  let m := m.onPair p fun x => { x with
    latchH := x.latchH || h, latchL := x.latchL || l, code := code, times := times.take 3
    softH := at_ h x.latchH x.softH, softL := at_ l x.latchL x.softL }
  let m := ((m.setFld (Reg.GDI_PR_STAT p) 12 10 code).showLatch p).clampEnds
  if first && decide (3 ≤ times.length) then m.setBit Reg.GDI_FAULT (16 + p) true else m

/-- R194: the outgoing gate has not fallen 1 µs after its edge. -/
def Mach.stuckPair (m : Mach) (p : Nat) : Mach :=
  match m.slotOfPair p with
  | none => m
  | some k => ((m.latchPair p true true 6 false).raiseF3 0x1C06 k).orr Reg.GDI_IRQ_STAT 4

/-- A leg latches with a fault code (R194, R209, R211, R221). -/
def Mach.latchLeg (m : Mach) (j code : Nat) : Mach :=
  ((m.onLeg j fun x => { x with latch := true, code := code }).setBit Reg.GDL_FAULT j true).setFld (Reg.GDL_LEG_STAT j) 28 26 code

/-- R194 for a low-voltage leg. -/
def Mach.stuckLeg (m : Mach) (j : Nat) : Mach :=
  match m.slotOfLeg j with
  | none => m
  | some k =>
    ((m.latchLeg j 3).raiseF3 0x2005 k).orr Reg.GDL_IRQ_STAT 8

/-- R199: whether a crossing of `mv` millivolts that has lasted `ns` nanoseconds is a detection of the channel now, and whether of the
hard level; the main level is ignored from a turn-on edge until BLANK has elapsed. -/
def Mach.scLevel (m : Mach) (ch mv ns : Nat) : Option Bool :=
  let c := m.rd (Reg.GDI_PR_CFG (ch / 2))
  let g := (m.pair (ch / 2)).out.upTo (endOf m.time.cyc)
  let quiet : Int := 32 * 4 * (c.bits 11 4 + c.bits 15 12)
  let open_ := match (if ch % 2 = 1 then g.onL else g.onH) with
    | some t => decide (t + quiet ≤ endOf m.time.cyc)
    | none => true
  if 10 * c.bits 22 16 < mv ∧ 20 ≤ ns then some true
  else if 5 * c.bits 22 16 < mv ∧ 10 * c.bits 15 12 ≤ ns ∧ open_ = true then some false
  else none

/-- R200: a detection turns the channel off softly, latches it, holds its complement and reports. -/
def Mach.detect (m : Mach) (ch mv ns : Nat) : Mach :=
  let p := ch / 2
  let low := decide (ch % 2 = 1)
  match m.slotOfPair p, m.scLevel ch mv ns with
  | some k, some hard =>
    let x := m.pair p
    if (if low then x.latchL else x.latchH) then m else
      let m := m.latchPair p (!low) low (if hard then 2 else 1) true
      let m := m.incSat (Reg.GDI_PR_CNT p) 15 0
      m.onGate fun g => { g with held := g.held ||| 2 ^ k, detections := g.detections ++ [⟨k, p, ch, hard, m.now, m.time.cyc⟩] }
  | _, _ => m

/-- R200, R201: one slot's short circuit that stands alone: the channel, and the instant in pipeline cycles, in the record. -/
def Mach.singleShort (m : Mach) (k : Nat) (d : Detection) : Mach :=
  (m.raiseF3 (if d.hard then 0x1C02 else 0x1C01) k (d.ch :: leBytes 2 d.cyc)).orr Reg.GDI_IRQ_STAT 1

/-- R201: two or more legs: every channel of the slot latches. -/
def Mach.legToLeg (m : Mach) (k : Nat) (ps : List Nat) : Mach :=
  let m := forL (m.pairsOf k) (fun p m => m.latchPair p true true 3 true) m
  let m := m.onGate fun g => { g with l2l := g.l2l ||| 2 ^ k }
  (m.raiseF3 0x1C03 k (leBytes 2 ((ps.map (2 ^ ·)).sum))).orr Reg.GDI_IRQ_STAT 2

/-- R201: the detections of slot `k` classified, once 25 ns have passed since the first. -/
def Mach.classify (m : Mach) (k : Nat) : Mach :=
  let mine := m.gate.detections.filter (·.slot == k)
  match mine with
  | [] => m
  | d :: _ =>
    if m.now < d.at_ + 50 then m else
      let near := mine.filter fun x => decide (x.at_ ≤ d.at_ + 50)
      let rest := mine.filter fun x => !decide (x.at_ ≤ d.at_ + 50)
      let ps := (near.map (·.pair)).dedup
      let m := m.onGate fun g => { g with detections := g.detections.filter fun x => x.slot != k, held := g.held ||| 2 ^ k }
      let m := if ps.length ≤ 1 then m.singleShort k d else m.legToLeg k ps
      forL rest (fun x m => m.singleShort k x) m

/-- R203: a clear of one pair's latches. -/
def Mach.clearPair (m : Mach) (p : Nat) : Mach :=
  match m.slotOfPair p with
  | none => m
  | some k =>
    if m.bit Reg.GDI_FAULT (16 + p) then m
    else if !(match m.lastAccepted k with
        | some f => f.safe
        | none => false) || !m.gate.quiet.testBit p then m.raise 0x1C0E 0 k
    else
      let m := m.onPair p fun x => { x with latchH := false, latchL := false, softH := none, softL := none }
      let m := (m.showFlt p).showLatch p
      let lat := m.slotLatches k
      if lat.1 || lat.2 then m
      else m.onGate fun g => { g with l2l := g.l2l &&& (0xFFFF ^^^ 2 ^ k), moved := g.moved &&& (0xFFFF ^^^ 2 ^ k) }

/-- R203, R209: a clear of one leg's latch: a SAFE frame was the last accepted, and the supply has recovered. -/
def Mach.clearLeg (m : Mach) (j : Nat) : Mach :=
  match m.slotOfLeg j with
  | none => m
  | some k =>
    let safe := match m.lastAccepted k with
      | some f => f.safe
      | none => false
    if !safe || !m.gate.good.testBit j then m
    else
      let m := (m.onLeg j fun x => { x with latch := false }).setBit Reg.GDL_FAULT j false
      (m.setBit (Reg.GDL_LEG_STAT j) 29 false).showLegFlt j

/-- R203: the pairs of a GDI_CLR write. -/
def Mach.gdiClear (m : Mach) (mask : Nat) : Mach := forL (bitsOf 16 mask) (fun p m => m.clearPair p) m

/-- R209: the legs of a GDL_CLR write. -/
def Mach.gdlClear (m : Mach) (mask : Nat) : Mach := forL (bitsOf 24 mask) (fun j m => m.clearLeg j) m

/-! ### Off-state diagnostics (R214 to R216) -/

/-- The slot of an item is switching (R215): its gates are not all off. -/
def Mach.itemSwitching (m : Mach) (slot : Option Nat) : Bool :=
  match slot with
  | some k => !m.gatesOff k
  | none => false

/-- R216: a result code of a pair's channels; a single switch has none for the odd channel. -/
def Mach.pairCodes (m : Mach) (p h l : Nat) : Nat := 16 * h + (if m.fld (Reg.GDI_PR_CFG p) 27 26 = 2 then 0 else l)

/-- R214: the result of one isolated channel by its method: the comparators trip at 1.5 and 1.2 times their levels within their
filter time plus 40 ns, and neither at half; 1 mA takes the gate neither to 15 V in 5 µs nor leaves it below 1 V at 50 µs. -/
def Mach.channelResult (m : Mach) (p : Nat) (r : DiagReading) : Nat :=
  let c := m.rd (Reg.GDI_PR_CFG p)
  let comp := (r.tMain.any fun t => decide (t ≤ 10 * c.bits 15 12 + 40)) && (r.tHard.any fun t => decide (t ≤ 60)) && !r.below
  let gate := if r.t15.any fun t => decide (t ≤ 5000) then 5 else if r.v50 < 1000 then 6 else 1
  match c.bits 25 24 with
  | 1 => if comp then 1 else 4
  | 2 => gate
  | _ => if comp then gate else 4

/-- R214: the result of a low-voltage leg by its method: the VDS comparator, then the node pulled up and down, and on a drive the
other two phases. -/
def Mach.legResult (m : Mach) (j : Nat) (r : DiagReading) : Nat :=
  let comp := (r.tMain.any fun t => decide (t ≤ 40)) && !r.below
  let node := if r.up < 1000 then 7 else if r.supply < r.down + 1000 then 8
    else if (driveOf j).isSome ∧ r.others + 1000 < r.up then 9 else 1
  match m.fld (Reg.GDL_LEG_CFG j) 24 23 with
  | 1 => if comp then 1 else 4
  | 2 => node
  | _ => if comp then node else 4

/-- R215: the diagnostic of a pair runs, or is answered DEFERRED and waits for STANDBY. -/
def Mach.diagPair (m : Mach) (p : Nat) : Mach :=
  if (m.slotOfPair p).isNone || m.fld (Reg.GDI_PR_CFG p) 25 24 == 0 then m
  else if m.mode ≠ .standby ∨ m.itemSwitching (m.slotOfPair p) = true then
    ((m.wrN (Reg.GDI_PR_DIAG p) (m.pairCodes p 2 2)).raise 0x1C08 0 ((m.slotOfPair p).getD 0xFF)).onGate
      fun g => { g with deferG := g.deferG ||| 2 ^ p }
  else (m.wrN (Reg.GDI_PR_DIAG p) (m.pairCodes p 10 10)).onPair p fun x => { x with running := true }

/-- R215: the diagnostic of a leg. -/
def Mach.diagLeg (m : Mach) (j : Nat) : Mach :=
  if (m.slotOfLeg j).isNone || m.fld (Reg.GDL_LEG_CFG j) 24 23 == 0 then m
  else if m.mode ≠ .standby ∨ m.itemSwitching (m.slotOfLeg j) = true then
    ((m.setFld (Reg.GDL_LEG_STAT j) 3 0 2).raise 0x2006 0 ((m.slotOfLeg j).getD 0xFF)).onGate
      fun g => { g with deferL := g.deferL ||| 2 ^ j }
  else (m.setFld (Reg.GDL_LEG_STAT j) 3 0 10).onLeg j fun x => { x with running := true }

/-- R215: a GDI_DIAG_REQ or GDL_DIAG_REQ taken at its accession tick. -/
def Mach.diagRequest (m : Mach) (gdl : Bool) (mask : Nat) : Mach :=
  if gdl then forL (bitsOf 24 mask) (fun j m => m.diagLeg j) (m.wr Reg.GDL_DIAG_REQ 0#32)
  else forL (bitsOf 16 mask) (fun p m => m.diagPair p) (m.wr Reg.GDI_DIAG_REQ 0#32)

/-- R215: the entry to STANDBY runs what waits, and at the first entry after boot every item with a method. -/
def Mach.diagStandby (m : Mach) : Mach :=
  let first := !m.gate.diagFirst
  let g := if first then 0xFFFF else m.gate.deferG
  let l := if first then 0xFFFFFF else m.gate.deferL
  let m := m.onGate fun x => { x with deferG := 0, deferL := 0, diagFirst := true }
  forL (bitsOf 24 l) (fun j m => m.diagLeg j) (forL (bitsOf 16 g) (fun p m => m.diagPair p) m)

/-- R309: the result of an item is submitted for accession as KIND 8. -/
def Mach.diagDone (m : Mach) (gdl : Bool) (i : Nat) (h l : DiagReading) : Mach :=
  if gdl then
    if !(m.leg i).running then m
    else (m.onLeg i fun x => { x with running := false }).accede ⟨8, 0x20 + i, 0, 0, m.legResult i h, []⟩
  else
    if !(m.pair i).running then m
    else (m.onPair i fun x => { x with running := false }).accede
      ⟨8, i, 0, 0, m.pairCodes i (m.channelResult i h) (m.channelResult i l), []⟩

/-- A running diagnostic of a pair aborts, and runs again at the next entry to STANDBY (R215). -/
def Mach.abortDiag (m : Mach) (p : Nat) : Mach :=
  if !(m.pair p).running then m
  else ((m.onPair p fun x => { x with running := false }).accede ⟨8, p, 0, 0, m.pairCodes p 3 3, []⟩).onGate
    fun g => { g with deferG := g.deferG ||| 2 ^ p }

/-- A running diagnostic of a leg aborts. -/
def Mach.abortLegDiag (m : Mach) (j : Nat) : Mach :=
  if !(m.leg j).running then m
  else ((m.onLeg j fun x => { x with running := false }).accede ⟨8, 0x20 + j, 0, 0, 3, []⟩).onGate
    fun g => { g with deferL := g.deferL ||| 2 ^ j }

/-- R215: a diagnostic runs only in STANDBY: one that runs when STANDBY is left is aborted (DESIGN CHOICE, log entry 81). -/
def Mach.diagLeave (m : Mach) : Mach := forN 24 (fun j m => m.abortLegDiag j) (forN 16 (fun p m => m.abortDiag p) m)

/-- R216: the result of a pair takes effect at its accession tick. -/
def Mach.diagPairResult (m : Mach) (p v : Nat) : Mach :=
  let slot := (m.slotOfPair p).getD 0xFF
  let m := (m.wrN (Reg.GDI_PR_DIAG p) (v % 256)).orr Reg.GDI_IRQ_STAT 0x80
  let h := v / 16 % 16
  let l := v % 16
  let fails (r : Nat) : Bool := decide (4 ≤ r) && decide (r ≤ 9)
  if fails h || fails l then
    ((m.onPair p fun x => { x with blocked := true }).setFld (Reg.GDI_PR_STAT p) 12 10 7).raiseF3 0x1C09 slot
  else if h == 1 || l == 1 then
    ((m.onPair p fun x => { x with blocked := false }).showFlt p).raise 0x1C0A 0 slot
  else m

/-- R216: the result of a low-voltage leg takes effect. -/
def Mach.diagLegResult (m : Mach) (j v : Nat) : Mach :=
  let slot := (m.slotOfLeg j).getD 0xFF
  let r := v % 16
  let m := (m.setFld (Reg.GDL_LEG_STAT j) 3 0 r).orr Reg.GDL_IRQ_STAT 0x10
  if 4 ≤ r ∧ r ≤ 9 then
    ((m.onLeg j fun x => { x with blocked := true }).setFld (Reg.GDL_LEG_STAT j) 28 26 4).raiseF3 0x2007 slot
  else if r = 1 then
    ((m.onLeg j fun x => { x with blocked := false }).showLegFlt j).raise 0x2008 0 slot
  else m

/-! ### The link: clamp and HARD (R204, R205) -/

/-- R204: the link rises above VON, with every rail good and boot over (R218); a diagnostic of a chopper pair aborts (R215). -/
def Mach.clampOn (m : Mach) : Mach :=
  let m := m.onGate fun g => { g with voffAt := none }
  let ps := m.clampPairs
  if ps.isEmpty || m.mode == .sleep || m.bit Reg.GDI_OVSTAT 0 || !m.pwr.booted || m.pwr.phase != .up || m.pwr.due.isSome then m
  else
    let m := forL ps (fun p m => m.abortDiag p) m
    let m := m.onGate fun g => { g with clamped := true }
    let m := (m.setBit Reg.GDI_OVSTAT 0 true).incSat Reg.GDI_OVSTAT 31 16
    (m.raise 0x1C0B 0).orr Reg.GDI_IRQ_STAT 0x20

/-- R204, R205: the link falls below VOFF; the switch returns to its frames at the next pattern start. -/
def Mach.clampOff (m : Mach) : Mach :=
  ((m.setBit Reg.GDI_OVSTAT 0 false).setBit Reg.GDI_OVSTAT 1 false).onGate fun g => { g with voffAt := some (g.voffAt.getD m.now) }

/-- R205: the link has been below VOFF for 1 ms. -/
def Mach.linkLow (m : Mach) : Bool :=
  match m.gate.voffAt with
  | some t => decide (t + 2000000 ≤ m.now)
  | none => false

/-- R205: the link stays above HARD: the enables of every PFC3 and DAB channel are withdrawn. -/
def Mach.linkHard (m : Mach) : Mach :=
  let ks := m.slotsOf .pfc3 ++ m.slotsOf .dab
  let m := (m.setBit Reg.GDI_OVSTAT 1 true).onGate fun g =>
    { g with hardOff := g.hardOff ||| (ks.map (2 ^ ·)).sum, hardSeen := true, voffAt := none }
  (forL ks (fun k m => m.raiseF3 0x1C0C k) m).orr Reg.GDI_IRQ_STAT (if ks.isEmpty then 0 else 0x40)

/-- R205: a slot that is started again gets its enable back, once the link has been below VOFF for 1 ms. -/
def Mach.hardReturn (m : Mach) (k : Nat) (started : Bool) : Mach :=
  if started && m.gate.hardOff.testBit k && m.linkLow then
    m.onGate fun g => { g with hardOff := g.hardOff &&& (0xFFFF ^^^ 2 ^ k) }
  else m

/-! ### Low-voltage legs (R207 to R211, R217) -/

/-- R207: a pump output below 10.5 V. -/
def Mach.pumpFault (m : Mach) (j : Nat) : Mach :=
  if (m.slotOfLeg j).isNone || m.fld (Reg.GDL_LEG_CFG j) 26 25 == 1 || (m.leg j).pumpBad then m
  else
    let m := (m.onLeg j fun x => { x with pumpBad := true }).setBit (Reg.GDL_LEG_STAT j) 31 false
    let m := if m.fld (Reg.GDL_LEG_CFG j) 26 25 = 0 then m.setBit (Reg.GDL_LEG_STAT j) 30 true else m
    (m.raise 0x2001 1 ((m.slotOfLeg j).getD 0xFF)).orr Reg.GDL_IRQ_STAT 1

/-- R207: 1 ms above 11.0 V. -/
def Mach.pumpGood (m : Mach) (j : Nat) : Mach :=
  if (m.slotOfLeg j).isNone || m.fld (Reg.GDL_LEG_CFG j) 26 25 == 1 then m
  else
    let m := (m.onLeg j fun x => { x with pumpBad := false }).setBit (Reg.GDL_LEG_STAT j) 31 true
    m.setBit (Reg.GDL_LEG_STAT j) 30 false

/-- R208: the low side of leg `j` of slot `k` is on for less than 150 ns in total over the running carrier period and the 15 before. -/
def Mach.starved (m : Mach) (j k : Nat) : Bool :=
  let x := m.leg j
  let r := ratio (((m.slotEntry k).map (·.rlog)).getD 0)
  let p := max m.period 1
  let q := m.time.cyc * r.1 / p
  let now := x.lowNow + m.lowUntil j (32 * p * (q + 1) / r.1)
  let full := if r.1 = 1 then 15 * r.2 + m.seq % r.2 else (15 - q) / r.1
  let rest : Int := if r.1 = 1 then 0 else x.low.getD full 0 * ((15 - q) % r.1 : Nat) / r.1
  decide (now + (x.low.take full).sum + rest < 32 * 60)

/-- R208, R210: a refresh pulse at the carrier peak while refresh is in force, where the leg's bootstrap is starved or a pulse was cut;
OFF and LOWON need none. -/
def Mach.refreshPulse (m : Mach) (j : Nat) : Mach :=
  match m.slotOfLeg j with
  | none => m
  | some k =>
    let x := m.leg j
    let t : Int := 32 * m.time.cyc
    let span := ((m.slotEntry k).map fun e => (ratio e.rlog).2).getD 1
    let peak := m.extremeAt k (m.seq % span * m.period + m.time.cyc : Nat) false true
    if m.bit (Reg.GDL_LEG_STAT j) 30 && !(x.mode == 1 || x.mode == 2) && peak && (x.refreshDue || m.starved j k) then
      (m.legSettle j t).onLeg j fun x =>
        { x with refr := x.refr + 1, refreshAt := some t, refreshDue := false, lowNow := x.lowNow + 32 * 60 }
    else m

/-- The legs of a drive are turned off until a SAFE frame loads. -/
def Mach.driveOff (m : Mach) (d : Nat) : Mach := forN 3 (fun i m => m.onLeg (6 + 3 * d + i) fun x => { x with wait := true }) m

/-- R209: a high-side supply below 8.0 V; the caller clears the phase's bit of the sharing mask. -/
def Mach.highSideLow (m : Mach) (j : Nat) : Mach :=
  match m.slotOfLeg j with
  | none => m
  | some k =>
    let m := (m.latchLeg j 1).setBit (Reg.GDL_LEG_STAT j) 29 true
    let m := m.orr Reg.GDL_IRQ_STAT 2
    match driveOf j with
    | none => m.raise 0x2002 1 k
    | some d => (m.driveOff d).raiseF3 0x2003 k

/-- R211: an on switch of leg `j` has been on for VDSBLK since its turn-on. -/
def Mach.vdsWatched (m : Mach) (j : Nat) : Bool :=
  let t := endOf m.time.cyc
  let x := m.leg j
  let g := x.out.upTo t
  let blk : Int := 32 * 4 * m.fld (Reg.GDL_LEG_CFG j) 15 8
  let past (on : Bool) (at_ : Option Int) : Bool := on && decide (max (at_.getD (t - blk)) x.onFrom + blk ≤ t)
  let o := m.legOut j
  past o.1 g.onH || past o.2 g.onL

/-- R211: the drain-source voltage of a drive leg's on switch stands at `mv` millivolts, above VDSTHR, after its blanking. -/
def Mach.vdsOver (m : Mach) (j mv : Nat) : Mach :=
  match m.slotOfLeg j, driveOf j with
  | some k, some d =>
    let thr := m.fld (Reg.GDL_LEG_CFG j) 22 16
    if thr = 0 ∨ mv ≤ 20 * thr ∨ !m.vdsWatched j then m else
      (((m.latchLeg j 2).driveOff d).raiseF3 0x2004 k).orr Reg.GDL_IRQ_STAT 4
  | _, _ => m

/-- R217: an isolated channel's rail leaves its window. -/
def Mach.railLow (m : Mach) (ch : Nat) : Mach :=
  let p := ch / 2
  match m.slotOfPair p with
  | none => m
  | some k =>
    let m := m.onPair p fun x => if ch % 2 = 0 then { x with uvH := true } else { x with uvL := true }
    ((m.setFld (Reg.GDI_PR_STAT p) 12 10 4).raiseF3 0x1C04 k).orr Reg.GDI_IRQ_STAT 8

/-- R217: its rails have been good for 1 ms: no latch; the channel waits for its frames. -/
def Mach.railGood (m : Mach) (ch : Nat) : Mach :=
  let p := ch / 2
  let x := m.pair p
  if !(if ch % 2 = 0 then x.uvH else x.uvL) then m else
    let m := m.onPair p fun x => if ch % 2 = 0 then { x with uvH := false, waitH := true } else { x with uvL := false, waitL := true }
    m.showFlt p

/-- R217: a secondary has received no valid message for 2 µs. -/
def Mach.barrierLoss (m : Mach) (ch : Nat) : Mach :=
  let p := ch / 2
  match m.slotOfPair p with
  | none => m
  | some k =>
    ((m.latchPair p (decide (ch % 2 = 0)) (decide (ch % 2 = 1)) 5 true).raiseF3 0x1C05 k).orr Reg.GDI_IRQ_STAT 0x10

/-! ### The chopper's signals (R206) -/

/-- R206: Transform of a CHOPPER slot in tick `n`. -/
def Mach.transformChopper (m : Mach) (l : Lane) (k n : Nat) : Mach :=
  match m.slotEntry k with
  | none => m
  | some e =>
    let set := m.acqSet n
    let value (x : Nat) : Int := if x < 0x8000 then set.val (x % 256) else (nth set.trk (x % 64)).max
    let u := match e.accs[0]? with
      | some x => value x
      | none => 0
    let i := match e.accs[1]? with
      | some x => value x
      | none => 0
    m.setInputs l k [u, i, if m.bit Reg.GDI_OVSTAT 0 then 2 ^ 29 else 0, u, 0, 0, 0, 0, 0, 0, 0, 0, 0, 0, 0, 0]

/-! ### The commands -/

/-- GATE_EDGE (R194): the edge of pair or leg `i` that its record places in this cycle: a turn-off or a turn-on. -/
def execGateEdge (cyc : Nat) (iso : Bool) (i : Nat) (ext : Nat) (tm : Option Nat) (s : State) : Host.Outcome State Fault Refusal :=
  run s cyc fun m => if iso then m.pairEdge i ext tm else m.legEdge i ext

/-- STUCK_GATE (R194). -/
def execStuckGate (cyc : Nat) (iso : Bool) (i : Nat) (s : State) : Host.Outcome State Fault Refusal :=
  run s cyc fun m => if iso then m.stuckPair i else m.stuckLeg i

/-- SHORT_CIRCUIT_DETECTION (R200). -/
def execShortCircuitDetection (cyc : Nat) (ch : Fin 32) (mv ns : Nat) (s : State) : Host.Outcome State Fault Refusal :=
  run s cyc fun m => m.detect ch mv ns

/-- SHORT_CIRCUIT_CLASSIFY (R201). -/
def execShortCircuitClassify (cyc : Nat) (k : Fin 16) (s : State) : Host.Outcome State Fault Refusal :=
  run s cyc fun m => m.classify k

/-- GDI_CLEAR (R203): `quiet` names the pairs whose comparators both read below their levels. -/
def execGdiClear (cyc : Nat) (who : Writer) (value : Word) (quiet : BitVec 16) (s : State) : Host.Outcome State Fault Refusal :=
  run s cyc fun m => (m.onGate fun g => { g with quiet := quiet.toNat }).laneOnly who fun l m =>
    m.devWrite l Reg.GDI_CLR (value &&& 0xFFFF#32) fun m => m.gdiClear (value.bits 15 0)

/-- GDL_CLEAR (R209): `good` names the legs whose supply has been above 9.0 V for 1 ms. -/
def execGdlClear (cyc : Nat) (who : Writer) (value : Word) (good : BitVec 24) (s : State) : Host.Outcome State Fault Refusal :=
  run s cyc fun m => (m.onGate fun g => { g with good := good.toNat }).laneOnly who fun l m =>
    m.devWrite l Reg.GDL_CLR (value &&& 0xFFFFFF#32) fun m => m.gdlClear (value.bits 23 0)

/-- OVERVOLTAGE_CLAMP (R204). -/
def execOvervoltageClamp (cyc : Nat) (s : State) : Host.Outcome State Fault Refusal := run s cyc fun m => m.clampOn

/-- CLAMP_RELEASE (R204). -/
def execClampRelease (cyc : Nat) (s : State) : Host.Outcome State Fault Refusal := run s cyc fun m => m.clampOff

/-- LINK_HARD_OVERVOLTAGE (R205). -/
def execLinkHardOvervoltage (cyc : Nat) (s : State) : Host.Outcome State Fault Refusal := run s cyc fun m => m.linkHard

/-- PUMP_FAULT (R207). -/
def execPumpFault (cyc : Nat) (leg : Fin 24) (s : State) : Host.Outcome State Fault Refusal := run s cyc fun m => m.pumpFault leg

/-- PUMP_FAULT_RECOVERY (R207). -/
def execPumpFaultRecovery (cyc : Nat) (leg : Fin 24) (s : State) : Host.Outcome State Fault Refusal :=
  run s cyc fun m => m.pumpGood leg

/-- REFRESH_PULSE (R208). -/
def execRefreshPulse (cyc : Nat) (leg : Fin 24) (s : State) : Host.Outcome State Fault Refusal :=
  run s cyc fun m => m.refreshPulse leg

/-- VDS_OVERCURRENT (R211). -/
def execVdsOvercurrent (cyc : Nat) (leg : Fin 24) (mv : Nat) (s : State) : Host.Outcome State Fault Refusal :=
  run s cyc fun m => m.vdsOver leg mv

/-- GATE_DIAG_REQUEST (R215): a write of GDI_DIAG_REQ or GDL_DIAG_REQ. -/
def execGateDiagRequest (cyc : Nat) (who : Writer) (gdl : Bool) (value : Word) (s : State) : Host.Outcome State Fault Refusal :=
  run s cyc fun m => m.laneOnly who fun l m =>
    if gdl then m.asyncWrite l Reg.GDL_DIAG_REQ (value &&& 0xFFFFFF#32) else m.asyncWrite l Reg.GDI_DIAG_REQ (value &&& 0xFFFF#32)

/-- GATE_DIAG_COMPLETE (R216). -/
def execGateDiagComplete (cyc : Nat) (gdl : Bool) (i : Nat) (h : DiagReading) (l : DiagReading) (s : State) :
    Host.Outcome State Fault Refusal :=
  run s cyc fun m => m.diagDone gdl i h l

/-- ISOLATED_RAIL_UNDERVOLTAGE (R217). -/
def execIsolatedRailUndervoltage (cyc : Nat) (ch : Fin 32) (s : State) : Host.Outcome State Fault Refusal :=
  run s cyc fun m => m.railLow ch

/-- ISOLATED_RAIL_RECOVERY (R217). -/
def execIsolatedRailRecovery (cyc : Nat) (ch : Fin 32) (s : State) : Host.Outcome State Fault Refusal :=
  run s cyc fun m => m.railGood ch

/-- BARRIER_LOSS (R217). -/
def execBarrierLoss (cyc : Nat) (ch : Fin 32) (s : State) : Host.Outcome State Fault Refusal := run s cyc fun m => m.barrierLoss ch

end Sys2Proof.Machine
end

