-- ==== Sys2Proof/Machine/Lvc.lean ====
section
/-! DEFINITION. The low-voltage converter (chapter 9): the machine of the DCX and BUCKN slots, sharing and shedding, burst mode,
limits, the LVC set, diagnostics and the fault records in flash. -/

namespace Sys2Proof.Machine

/-- 1.0 in Q2.29. -/
def one29 : Int := 2 ^ 29

/-! ### Access -/

/-- The LVC part changed. -/
def Mach.onLvc (m : Mach) (f : LvcState → LvcState) : Mach := { m with lvc := f m.lvc }

/-- The BUCKN slot and the DCX slots (R224); the second DCX slot with D2EN. -/
def Mach.buckSlot (m : Mach) : Nat := m.fld Reg.LVC_CFG 31 28
def Mach.dcxSlots (m : Mach) : List Nat :=
  m.fld Reg.LVC_CFG 27 24 :: (if m.bit Reg.LVC_CFG 5 then [m.fld Reg.LVC_CFG 3 0] else [])

/-- The image has a BUCKN and a DCX slot. -/
def Mach.lvcPresent (m : Mach) : Bool := m.isType m.buckSlot .buckn && (m.dcxSlots.any fun k => m.isType k .dcx)

/-- A per-phase value: entry `k` of a list of six. -/
def phases : List Nat := List.range 6

/-- Phases blocked (R230): a fast trip, a GDL latch, or a failed diagnostic. -/
def Mach.lvcBlocked (m : Mach) : Nat :=
  ((phases.filter fun k => m.lvc.trip.testBit k || m.lvc.diagBad.testBit k || (m.leg k).latch || (m.leg k).blocked).map
    (2 ^ ·)).sum

/-- Phases available (R230). -/
def Mach.lvcAvailable (m : Mach) : Nat := 0x3F ^^^ m.lvcBlocked

/-- The number of phases in a mask. -/
def countBits (mask : Nat) : Nat := (bitsOf 16 mask).length

/-- R236, R240: the buck switches in these states. -/
def buckSwitches (st : Nat) : Bool := st == 2 || st == 3 || st == 4

/-- R230: the DCX switches in these states; in PRECHG it does in one tick of every PCDIV (R231). -/
def dcxSwitches (st n pcdiv : Nat) : Bool :=
  st == 2 || st == 3 || st == 4 || st == 6 || (st == 1 && decide (n % pcdiv = 0))

/-- R232, R248: the machine enters a state; RUN and BURST-ON are one to the counts of R236, and burst entered or left is told. -/
def Mach.lvcEnter (m : Mach) (st : Nat) : Mach :=
  let burst (s : Nat) : Bool := s == 4 || s == 5
  let on (s : Nat) : Bool := s == 3 || s == 4
  let m := if burst m.lvc.state != burst st then m.orr Reg.LVC_IRQ_STAT 0x80 else m
  m.onLvc fun x => { x with
    state := st, ticks := 0, windowRun := 0, dwell := if on x.state && on st then x.dwell else 0
    shortRun := if on x.state && on st then x.shortRun else 0, goodRun := if on x.state && on st then x.goodRun else 0
    ovOff := x.ovOff && st == 7
    mask := if st = 0 ∨ st = 1 ∨ st = 6 ∨ st = 7 then 0 else x.mask
    rampPh := if st = 3 ∨ st = 4 ∨ st = 5 then x.rampPh else 7
    rampJ := if st = 3 ∨ st = 4 ∨ st = 5 then x.rampJ else 0 }

/-- Phases that join sharing, with w = 1 (R237). -/
def Mach.lvcJoin (m : Mach) (mask : Nat) : Mach :=
  m.onLvc fun x => { x with
    mask := x.mask ||| mask
    weights := x.weights.mapIdx fun i w => if mask.testBit i && !x.mask.testBit i then 8 else w }

/-- R232: SOFTSTART: r from the output, fast-trip latches cleared, every available phase. -/
def Mach.lvcSoftStart (m : Mach) : Mach :=
  let m := (m.lvcEnter 2).onLvc fun x => { x with trip := 0, trips := 0, r := clampI 0 one29 x.s1, mask := 0 }
  m.lvcJoin m.lvcAvailable

/-! ### Events and fault records (R243, R244) -/

/-- Millivolts of a per-unit output voltage (R226). -/
def Mach.lvcMilli (m : Mach) (v : Int) : Int := v * m.fld Reg.LVC_RATIO 15 0 * 1000 / 2 ^ 39

/-- 0.1 A of a per-unit current. -/
def Mach.lvcDeci (m : Mach) (i : Int) : Int := i * m.fld Reg.LVC_RATIO 31 16 * 10 / 2 ^ 29

/-- A field of 2^−16 that shows 1.0 as 0xFFFF. -/
def fold16 (f : Int) : Nat := (clampI 0 0xFFFF (asr f 13)).toNat

/-- R233: the fold-back factor. -/
def foldFactor (s1 : Int) : Int := clampI 161061274 one29 (161061274 + s32 (tdiv (s1 * 7) 5))

/-- R244: bytes 8 to 59 of a record of an event; SEQ and CRC are set when it is written. -/
def Mach.lvcRecord (m : Mach) (code st : Nat) : List Nat :=
  let x := m.lvc
  let flags := x.slow.toNat + 2 * (decide (st = 4 ∨ st = 5)).toNat + 4 * (decide (x.rampPh < 6)).toNat + 8 * (decide (st = 2)).toNat
  leBytes 8 m.now ++ leBytes 8 m.seq ++ leBytes 2 code ++ [st, x.retry, x.mask, m.lvcBlocked, flags,
    m.fld (Reg.PWR_SL_TH m.buckSlot) 2 0] ++
    leBytes 2 (unsigned 16 (m.lvcMilli x.s1)) ++ leBytes 2 (unsigned 16 x.sense) ++ leBytes 2 (unsigned 16 (m.lvcMilli x.s3)) ++
    leBytes 2 (unsigned 16 (x.udc * Config.linkBase.toNat / 2 ^ 29)) ++
    (phases.flatMap fun k => leBytes 2 (unsigned 16 (m.lvcDeci (nth x.iph k)))) ++
    leBytes 2 (unsigned 16 (m.lvcDeci x.s2)) ++ leBytes 2 (unsigned 16 (m.lvcDeci x.s14)) ++
    leBytes 2 (fold16 (foldFactor x.s1)) ++ leBytes 2 (m.fld (Reg.ACQ_SUP 7) 15 0)

/-- A record is dropped or not written (R243). -/
def Mach.lvcDrop (m : Mach) : Mach := ((m.incSat Reg.LVC_FRSTAT 31 16).raise 0x240C 0 m.buckSlot []).orr Reg.LVC_IRQ_STAT 0x400

/-- R243: a record of an event into the queue of four; `st` is the state before the event. -/
def Mach.lvcCapture (m : Mach) (code st : Nat) : Mach :=
  if 4 ≤ m.lvc.queue.length then m.lvcDrop
  else
    let r := m.lvcRecord code st
    let m := m.onLvc fun x => { x with queue := x.queue ++ [r] }
    m.setFld Reg.LVC_FRSTAT 2 0 m.lvc.queue.length

/-- An LVC event of class F1 or F3, with its interrupt bit and its record. -/
def Mach.lvcEvent (m : Mach) (code cls irq st : Nat) (data : List Nat := []) : Mach :=
  let m := m.raiseClass cls code m.buckSlot data
  (m.orr Reg.LVC_IRQ_STAT (2 ^ irq)).lvcCapture code st

/-- R235, R236: the machine latches off. -/
def Mach.lvcLatch (m : Mach) : Mach :=
  let st := m.lvc.state
  (m.lvcEnter 7).lvcEvent 0x2404 3 5 st

/-! ### The steps of R241 -/

/-- R241 item 1, R224, R230, R236: permission, EN, an F3 cause of this boundary, and the clearing of LATCHED at entry to STANDBY. -/
def Mach.lvcPermission (m : Mach) (standby : Bool) : Mach :=
  let ok := m.lvcPresent && m.permitted m.buckSlot && (m.dcxSlots.all fun k => m.permitted k) && m.bit Reg.LVC_CTRL 0
  let caused := m.lvc.caused
  let m := m.onLvc fun x => { x with caused := false }
  let m := if m.lvc.state = 7 ∧ standby = true then m.lvcEnter 0 else m
  if m.lvc.state = 7 then m
  else if !ok || caused then (if m.lvc.state = 0 then m else m.lvcEnter 0)
  else if m.lvc.state = 0 then m.lvcEnter 1
  else m

/-- R231: the bus has come up in PRECHG; volts on both sides scaled by NDCX, 2^39 and 10. -/
def Mach.busAt (m : Mach) (s3 udc : Int) : Int × Int :=
  (s3 * m.fld Reg.LVC_RATIO 15 0 * m.fld Reg.LVC_CFG 23 16, udc * Config.linkBase.toNat * 1024)

/-- R231: PRECHG has not led to SOFTSTART within PCMAX ticks. -/
def Mach.lvcPrecharge (m : Mach) : Mach :=
  if m.lvc.state = 1 ∧ m.fld Reg.LVC_SS 11 0 ≤ m.lvc.ticks then (m.lvcEnter 0).lvcEvent 0x2407 3 3 1 else m

/-- R231, R232: PRECHG to SOFTSTART, and SOFTSTART to RUN; r rises. -/
def Mach.lvcAdvance (m : Mach) : Mach :=
  let x := m.lvc
  match x.state with
  | 1 =>
    let b := m.busAt x.s3 x.udc
    if 9 * b.2 ≤ 10 * b.1 then m.lvcSoftStart else m
  | 2 =>
    let r := if x.ticks = 0 then x.r else min one29 (x.r + one29 / m.fld Reg.LVC_SS 31 16)
    let m := m.onLvc fun x => { x with r := r }
    if r = one29 ∧ 9 * one29 ≤ 10 * x.s1 then m.lvcEnter 3 else m
  | _ => m

/-- R241 item 2: readback plausibility and the window of the intermediate bus. -/
def Mach.lvcProtect (m : Mach) : Mach :=
  let x := m.lvc
  let vnom := m.lvcMilli one29
  let bad := decide (m.fld Reg.LVC_PROT 11 4 * vnom < 256 * (m.lvcMilli x.s1 - x.sense).natAbs)
  let n := if !buckSwitches x.state then x.plausRun else if bad then x.plausRun + 1 else 0
  let m := m.onLvc fun x => { x with plausRun := n }
  if 8 ≤ n then ((m.lvcEnter 7).onLvc fun x => { x with plausRun := 0 }).lvcEvent 0x2406 3 3 x.state
  else
    let b := m.busAt x.s3 x.udc
    let out := decide (10 * b.1 < 8 * b.2) || decide (12 * b.2 < 10 * b.1)
    let w := if x.state = 3 ∧ out = true then x.windowRun + 1 else 0
    let m := m.onLvc fun x => { x with windowRun := w }
    if 4 ≤ w then (m.lvcEnter 0).lvcEvent 0x2407 3 3 x.state else m

/-- R241 item 2: LVC_SENSE above (1 + OVP/256) × Vnom for 1 µs. -/
def Mach.lvcOver (m : Mach) : Mach :=
  let st := m.lvc.state
  if st = 7 ∨ !m.lvcPresent then m
  else ((m.lvcEnter 7).onLvc fun x => { x with ovOff := true }).lvcEvent 0x2405 3 2 st

/-- R236: an output short: HICCUP, or LATCHED when RETRY is 5. -/
def Mach.lvcShort (m : Mach) : Mach :=
  let x := m.lvc
  let low := decide (5 * x.s1 < one29)
  let lim := 2 * m.fld Reg.LVC_SS 31 16
  let due := (x.state == 2 && decide (x.ticks = lim) && low) || ((x.state == 3 || x.state == 4) && decide (lim ≤ x.shortRun))
  if !due then m
  else if 5 ≤ x.retry then m.lvcLatch
  else (m.lvcEnter 6).lvcEvent 0x2403 1 4 x.state [x.retry]

/-- R236: 100 ms in ticks. -/
def Mach.hiccupTicks (m : Mach) : Nat := (40000000 + m.period - 1) / m.period

/-- R236: the end of HICCUP. -/
def Mach.lvcHiccupEnd (m : Mach) : Mach :=
  if m.lvc.state = 6 ∧ m.hiccupTicks ≤ m.lvc.ticks then
    (m.onLvc fun x => { x with retry := min (x.retry + 1) 7 }).lvcSoftStart
  else m

/-- R236: one second in RUN or BURST-ON with a good output clears RETRY. -/
def Mach.lvcRetryClear (m : Mach) : Mach :=
  if (m.lvc.state = 3 ∨ m.lvc.state = 4) ∧ (400000000 + m.period - 1) / m.period ≤ m.lvc.goodRun then
    m.onLvc fun x => { x with retry := 0 }
  else m

/-- R238: a ramp-out is aborted: the phase is back at w = 1. -/
def Mach.lvcAbort (m : Mach) : Mach :=
  m.onLvc fun x => { x with weights := upd x.weights x.rampPh fun _ => 8, rampPh := 7, rampJ := 0, dwell := 0 }

/-- R235, R238, R241 item 4: blocked phases leave the mask; LATCHED when none is available. -/
def Mach.lvcForced (m : Mach) : Mach :=
  let x := m.lvc
  let gone := x.mask &&& m.lvcBlocked
  let m := if gone = 0 then m else m.onLvc fun x => { x with mask := x.mask ^^^ gone }
  let m := if gone = 0 ∨ x.rampPh = 7 then m
    else if gone.testBit x.rampPh then m.onLvc fun x => { x with rampPh := 7, rampJ := 0 }
    else m.lvcAbort
  if m.lvcAvailable = 0 ∧ 2 ≤ x.state ∧ x.state ≠ 7 then m.lvcLatch else m

/-- S0 of R229: r − S1, held at 0 in BURST-SLEEP. -/
def LvcState.err (x : LvcState) : Int := if x.state = 5 then 0 else sat32 (x.r - x.s1)

/-- R237: a load step. -/
def Mach.loadStep (m : Mach) : Bool :=
  let x := m.lvc
  decide ((m.fld Reg.LVC_STEP 15 0 : Int) * 2 ^ 13 < x.err) || decide ((m.fld Reg.LVC_STEP 31 16 : Int) * 2 ^ 15 < x.s2 - x.s2prev)

/-- R237: the target number of phases; a PHI of 0 leaves it open (log entry 2). -/
def Mach.lvcTarget (m : Mach) : Nat × Mach :=
  let phi := m.fld Reg.LVC_SHED 31 16 * 2 ^ 15
  let avail := countBits m.lvcAvailable
  let q := if phi = 0 then m.freeVal 3 else ((m.lvc.s2.natAbs + phi - 1) / phi, m)
  (min (max q.1 (m.fld Reg.LVC_SHED 2 0)) avail, q.2)

/-- R237, R241 item 5: the add rule in RUN. -/
def Mach.lvcAdd (m : Mach) (step : Bool) : Mach :=
  let inBurst := m.lvc.state == 4 || m.lvc.state == 5
  if step && (m.lvc.state == 3 || inBurst) then
    let m := if m.lvc.rampPh < 6 then (m.lvcAbort.raise 0x2408 0 m.buckSlot []).orr Reg.LVC_IRQ_STAT 0x40 else m
    let m := m.lvcJoin m.lvcAvailable
    if inBurst then m.lvcEnter 3 else m
  else if m.lvc.state == 3 then
    let t := m.lvcTarget
    let m := t.2
    let out := bitsOf 6 (m.lvcAvailable &&& (0x3F ^^^ m.lvc.mask))
    m.lvcJoin (((out.take (t.1 - countBits m.lvc.mask)).map (2 ^ ·)).sum)
  else m

/-- R238, R241 item 6: one boundary of a ramp-out. -/
def Mach.lvcRamp (m : Mach) : Mach :=
  let x := m.lvc
  if x.rampPh = 7 then m
  else
    let j := x.rampJ + 1
    let m := m.onLvc fun x => { x with rampJ := j, weights := upd x.weights x.rampPh fun _ => 8 - j }
    if 8 ≤ j then m.onLvc fun x => { x with mask := x.mask &&& (0x3F ^^^ 2 ^ x.rampPh), rampPh := 7, rampJ := 0 } else m

/-- R238: the current is low enough to shed. -/
def Mach.lvcLow (m : Mach) : Bool :=
  decide (5 * (m.lvc.s2.natAbs : Int) < 4 * (countBits m.lvc.mask - 1 : Int) * (m.fld Reg.LVC_SHED 31 16 * 2 ^ 15))

/-- R238, R241 item 7: the highest-numbered phase in sharing begins its ramp-out. -/
def Mach.lvcShed (m : Mach) : Mach :=
  let x := m.lvc
  if x.state = 3 ∧ m.fld Reg.LVC_SHED 15 8 ≤ x.dwell ∧ 0 < x.dwell ∧ x.rampPh = 7 ∧
      m.fld Reg.LVC_SHED 2 0 < countBits x.mask then
    match (bitsOf 6 x.mask).getLast? with
    | some k => m.onLvc fun x => { x with rampPh := k, rampJ := 0 }
    | none => m
  else m

/-- R240: entry to burst mode. -/
def Mach.lvcBurstEntry (m : Mach) : Mach :=
  let x := m.lvc
  if m.bit Reg.LVC_CFG 6 = true ∧ x.state = 3 ∧ countBits x.mask = 1 ∧ x.rampPh = 7 ∧ 64 ≤ x.burstRun then
    m.lvcEnter 4
  else m

/-- R240: the transitions inside burst mode and out of it. -/
def Mach.lvcBurst (m : Mach) : Mach :=
  let x := m.lvc
  if x.state ≠ 4 ∧ x.state ≠ 5 then m
  else
    let vhi : Int := m.fld Reg.LVC_BURST 15 8
    let vlo : Int := m.fld Reg.LVC_BURST 7 0
    let bi : Int := m.fld Reg.LVC_BURST 31 16 * 2 ^ 15
    if 1024 * x.s1 < one29 * (1024 - 4 * vlo) ∨ 2 * bi < x.s14 then m.lvcEnter 3
    else if x.state = 4 ∧ one29 * (1024 + vhi) ≤ 1024 * x.s1 then m.lvcEnter 5
    else if x.state = 5 ∧ 1024 * x.s1 ≤ one29 * (1024 - vlo) then m.lvcEnter 4
    else m

/-- R234, R241 item 9: the slow limit. -/
def Mach.lvcSlow (m : Mach) : Mach :=
  let lim : Int := m.fld Reg.LVC_LIM 15 0 * 2 ^ 15
  let x := m.lvc
  if !m.lvcPresent then m
  else if !x.slow ∧ lim < x.s14 then (m.onLvc fun x => { x with slow := true }).lvcEvent 0x2402 1 1 x.state
  else if x.slow ∧ 16 * x.s14 < 15 * lim then m.onLvc fun x => { x with slow := false }
  else m

/-- R229: the signals of the BUCKN slot; S5 with no bus voltage is not stated and is free within its clamp (log entry 2). -/
def Mach.lvcSignals (m : Mach) : List Int × Mach :=
  let x := m.lvc
  let dmax : Int := m.fld Reg.LVC_CFG 15 8 * 2 ^ 21
  let f := foldFactor x.s1
  let lim : Int := (if x.slow then m.fld Reg.LVC_LIM 15 0 else m.fld Reg.LVC_LIM 31 16) * 2 ^ 15
  let q := if x.s3 = 0 then (fun r : Nat × Mach => ((r.1 : Int), r.2)) (m.freeVal 30) else (tdiv (x.r * 2 ^ 29) x.s3, m)
  let w := (phases.map fun k => if x.mask.testBit k then nth x.weights k else 0).sum
  let share := phases.map fun k =>
    if x.mask.testBit k then sat32 (tdiv (nth x.weights k * x.s2) w - nth x.iph k) else 0
  ([x.err, x.s1, x.s2, x.s3, mulq f lim, clampI 0 dmax q.1] ++ share ++ [x.r, f, x.s14, 0], q.2)

/-- R228: the LVC set of tick `n` frozen, and the registers that show it. -/
def Mach.lvcFreeze (m : Mach) (n : Nat) : Mach :=
  let r := m.lvcSignals
  let m := r.2
  let x := m.lvc
  let m := m.onLvc fun x => { x with shelf := (⟨n, x.state, x.mask, x.weights, r.1⟩ :: x.shelf.filter (·.tag != n)).take 32 }
  let f := foldFactor x.s1
  let stat := x.state * 2 ^ 29 + x.mask * 2 ^ 23 + m.lvcBlocked * 2 ^ 17 + x.rampPh * 2 ^ 14 + x.rampJ * 2 ^ 10 + x.retry * 2 ^ 7 +
    x.slow.toNat * 2 ^ 6 + (decide (f < one29)).toNat * 2 ^ 5
  let m := (m.wrN Reg.LVC_SNAP (n % 2 ^ 32)).wrN Reg.LVC_STAT stat
  let m := m.wrN Reg.LVC_VOUT (unsigned 16 (m.lvcMilli x.s1) * 2 ^ 16 + unsigned 16 x.sense)
  let m := m.wrN Reg.LVC_VIN (unsigned 16 (m.lvcMilli x.s3) * 2 ^ 16 + fold16 f)
  m.wrN Reg.LVC_IOUT (unsigned 16 (m.lvcDeci x.s2) * 2 ^ 16 + unsigned 16 (m.lvcDeci x.s14))

/-- R228, R234: the measurements of a boundary, and the runs that they lengthen or end. -/
def Mach.lvcMeasure (m : Mach) (fb sense : Int) : Mach :=
  let set := m.acqHead
  let a0 := m.rd Reg.LVC_ACC0
  let a1 := m.rd Reg.LVC_ACC1
  let iph := [a0.bits 31 24, a0.bits 23 16, a0.bits 15 8, a0.bits 7 0, a1.bits 31 24, a1.bits 23 16].map set.val
  let s2 := sat32 iph.sum
  let mm := (400000 + m.period - 1) / m.period
  let s1 := sat32 fb
  m.onLvc fun x =>
    let recent := (s2 :: x.recent).take mm
    let s14 := recent.sum / mm
    let run := x.state == 3 || x.state == 4
    { x with
      s1 := s1, s3 := set.val (a1.bits 15 8), udc := set.val (a1.bits 7 0), sense := sense, iph := iph
      s2prev := x.s2, s2 := s2, recent := recent, s14 := s14, ticks := x.ticks + 1, trips := 0
      shortRun := if run && decide (5 * s1 < one29) then x.shortRun + 1 else 0
      goodRun := if run && decide (9 * one29 ≤ 10 * s1) then x.goodRun + 1 else 0
      burstRun := if decide (s14 < m.fld Reg.LVC_BURST 31 16 * 2 ^ 15) then x.burstRun + 1 else 0 }

/-- R238: the dwell of a low current; it runs on through a ramp-out. -/
def Mach.lvcDwell (m : Mach) : Mach :=
  m.onLvc fun x => { x with dwell := if x.state = 3 ∧ m.lvcLow = true then x.dwell + 1 else 0 }

/-- R241: LVC evaluates its machine at the boundary of tick `n`; `standby` at an entry to STANDBY. -/
def Mach.lvcEval (m : Mach) (n : Nat) (fb sense : Int) (standby : Bool) : Mach :=
  let m := (m.lvcMeasure fb sense).lvcPermission standby
  let m := m.lvcProtect
  let m := (m.lvcShort.lvcHiccupEnd).lvcRetryClear
  let m := m.lvcForced
  let m := m.lvcAdvance.lvcPrecharge
  let ran := m.lvc.state
  let m := m.lvcAdd m.loadStep
  let m := m.lvcRamp
  let m := (m.lvcDwell).lvcShed
  let m := if ran = 3 then m.lvcBurstEntry else m.lvcBurst
  (m.lvcSlow).lvcFreeze n

/-- R228: the LVC set tagged with a tick. -/
def Mach.lvcSet (m : Mach) (n : Nat) : LvcSet := (m.lvc.shelf.find? (·.tag == n)).getD ⟨n, 0, 0, [], []⟩

/-- R229: Transform of the BUCKN slot and of a DCX slot in tick `n`. -/
def Mach.transformBuck (m : Mach) (l : Lane) (k n : Nat) : Mach :=
  let s := (m.lvcSet n).sig
  m.setInputs l k ((List.range 16).map fun i => nth s i)

/-- R229: a DCX slot's S3 is the link voltage. -/
def Mach.transformDcx (m : Mach) (l : Lane) (k n : Nat) : Mach :=
  m.setInputs l k ((List.range 16).map fun i => if i = 3 then (m.acqSet n).val (m.fld Reg.LVC_ACC1 7 0) else 0)

/-! ### Trips, commands and diagnostics -/

/-- R235: a phase's comparator crosses SCTHR: its leg is off while the trip stands. -/
def Mach.lvcTrip (m : Mach) (k : Nat) : Mach :=
  if m.lvc.trip.testBit k || !m.lvcPresent then m
  else
    let st := m.lvc.state
    let m := m.onLvc fun x => { x with trip := x.trip ||| 2 ^ k, trips := x.trips + 1 }
    let m := m.lvcEvent 0x2401 1 0 st
    let m := m.lvcForced
    if m.lvc.state ≠ 7 ∧ buckSwitches st ∧ 3 ≤ m.lvc.trips then m.lvcEnter 6 else m

/-- R209, R238: a high-side undervoltage of a BUCKN leg takes its phase out of sharing at once. -/
def Mach.lvcUnder (m : Mach) (j : Nat) : Mach := if j < 6 && (m.slotOfLeg j).isSome then m.lvcForced else m

/-- R236, R241: a write of LVC_CTRL at its accession tick. -/
def Mach.lvcControl (m : Mach) (v : Word) : Mach :=
  let m := m.wr Reg.LVC_CTRL (v &&& 1#32)
  if v.bit 1 && m.lvc.state == 7 then m.lvcEnter 0 else m

/-- R224, R309: an F3 cause of a BUCKN or DCX slot takes effect: the machine goes to OFF. -/
def Mach.lvcCause (m : Mach) (k : Nat) : Mach :=
  if (k == m.buckSlot || m.dcxSlots.contains k) && m.lvcPresent && m.lvc.state != 7 then
    (m.lvcEnter 0).onLvc fun x => { x with caused := true }
  else m

/-- R242: a request takes effect: the tests run in STANDBY, else they are DEFERRED. -/
def Mach.lvcDiagTake (m : Mach) (mask : Nat) : Mach :=
  let m := m.wr Reg.LVC_DIAG_REQ 0#32
  let ks := bitsOf 6 mask
  if ks.isEmpty then m
  else if m.mode = .standby then
    forL ks (fun k m => m.setFld Reg.LVC_DIAG (4 * k + 3) (4 * k) 10) (m.onLvc fun x => { x with diagRun := x.diagRun ||| mask % 64 })
  else
    let m := (forL ks (fun k m => m.setFld Reg.LVC_DIAG (4 * k + 3) (4 * k) 2) m).raise 0x2409 0 m.buckSlot
    m.onLvc fun x => { x with diagDefer := x.diagDefer ||| mask % 64 }

/-- R242: the entry to STANDBY runs the tests that wait, and at the first entry every test. -/
def Mach.lvcDiagStandby (m : Mach) : Mach :=
  let mask := if m.lvc.diagFirst then m.lvc.diagDefer else 0x3F
  let m := m.onLvc fun x => { x with diagDefer := 0, diagFirst := true }
  if m.lvcPresent then m.lvcDiagTake mask else m

/-- R242, R216: the result of a phase's test is submitted for accession: it must trip at 1.5 × SCTHR and not at 0.5 × SCTHR. -/
def Mach.lvcDiagDone (m : Mach) (k : Nat) (high low : Bool) : Mach :=
  if !m.lvc.diagRun.testBit k then m
  else (m.onLvc fun x => { x with diagRun := x.diagRun &&& (0x3F ^^^ 2 ^ k) }).accede
    ⟨8, 0x40 + k, 0, 0, if high && !low then 1 else 4, []⟩

/-- R242: a test runs only in STANDBY: one that runs when STANDBY is left aborts and runs again (DESIGN CHOICE, log entry 81). -/
def Mach.lvcDiagLeave (m : Mach) : Mach :=
  forL (bitsOf 6 m.lvc.diagRun) (fun k m =>
    (m.onLvc fun x => { x with diagRun := x.diagRun &&& (0x3F ^^^ 2 ^ k), diagDefer := x.diagDefer ||| 2 ^ k }).accede
      ⟨8, 0x40 + k, 0, 0, 3, []⟩) m

/-- R242: the result takes effect. -/
def Mach.lvcDiagResult (m : Mach) (k v : Nat) : Mach :=
  let r := v % 16
  let m := (m.setFld Reg.LVC_DIAG (4 * k + 3) (4 * k) r).orr Reg.LVC_IRQ_STAT 0x100
  if 4 ≤ r ∧ r ≤ 9 then
    let st := m.lvc.state
    let m := (m.onLvc fun x => { x with diagBad := x.diagBad ||| 2 ^ k }).raiseF3 0x240A m.buckSlot
    m.lvcCapture 0x240A st
  else if r = 1 then (m.onLvc fun x => { x with diagBad := x.diagBad &&& (0x3F ^^^ 2 ^ k) }).raise 0x240B 0 m.buckSlot
  else m

/-! ### Records in flash (R245) -/

/-- Flash-window offset of the record area. -/
def lvcArea : Nat := flashBase + 0x07FFE000

/-- R244: a whole record: MAGIC, SEQ, the body of 52 bytes, and CRC. -/
def lvcBytes (seq : Nat) (body : List Nat) : List Nat :=
  let b := leBytes 4 0x5246564C ++ leBytes 4 seq ++ body
  b ++ leBytes 4 (crc32c b)

/-- R245: the oldest record of the queue is written, at the start of a sector after its erase; `ok` when it verifies. -/
def Mach.lvcWrite (m : Mach) (mem : List Host.Cell) (ok : Bool) : Mach × List Host.Cell :=
  match m.lvc.queue with
  | [] => (m, mem)
  | r :: rest =>
    let x := m.lvc
    let base := lvcArea + 0x1000 * x.sector
    let mem := if x.slot = 0 then Memory.clear mem base (base + 0x1000) else mem
    let w := if ok then (lvcBytes x.nextSeq r, m) else m.freeBytes 64
    let m := w.2
    let mem := Memory.writeL mem (base + 64 * x.slot) w.1
    let m := m.onLvc fun x => { x with
      queue := rest, nextSeq := x.nextSeq + 1
      slot := (x.slot + 1) % 64, sector := if x.slot = 63 then 1 - x.sector else x.sector }
    let m := m.setFld Reg.LVC_FRSTAT 2 0 m.lvc.queue.length
    if ok then (((m.wrN Reg.LVC_FRSEQ x.nextSeq).orr Reg.LVC_IRQ_STAT 0x200), mem) else (m.lvcDrop, mem)

/-- R245: SEQ of the record at place `i` of 128, when its MAGIC and CRC are valid. -/
def lvcRecordAt (mem : List Host.Cell) (i : Nat) : Option Nat :=
  let b := Memory.readN mem (lvcArea + 64 * i) 64
  if ofLeBytes (b.take 4) = 0x5246564C ∧ ofLeBytes (b.drop 60) = crc32c (b.take 60) then some (ofLeBytes ((b.drop 4).take 4)) else none

/-- R245: boot finds the last record; the next one follows it. -/
def Mach.lvcScan (m : Mach) (mem : List Host.Cell) : Mach :=
  let best := (List.range 128).foldl (fun (b : Option (Nat × Nat)) i =>
    match lvcRecordAt mem i, b with
    | some s, some c => if c.1 < s then some (s, i) else b
    | some s, none => some (s, i)
    | none, _ => b) none
  match best with
  | none => m.onLvc fun x => { x with nextSeq := 1, sector := 0, slot := 0 }
  | some (s, i) =>
    (m.onLvc fun x => { x with nextSeq := s + 1, sector := (i + 1) / 64 % 2, slot := (i + 1) % 64 }).wrN Reg.LVC_FRSEQ s

/-! ### The commands -/

/-- HIGH_SIDE_UNDERVOLTAGE (R209). -/
def execHighSideUndervoltage (cyc : Nat) (leg : Fin 24) (s : State) : Host.Outcome State Fault Refusal :=
  run s cyc fun m => (m.highSideLow leg).lvcUnder leg

/-- LVC_FAST_TRIP (R235). -/
def execLvcFastTrip (cyc : Nat) (phase : Fin 6) (s : State) : Host.Outcome State Fault Refusal :=
  run s cyc fun m => m.lvcTrip phase

/-- LVC_OUTPUT_OVERVOLTAGE (R241). -/
def execLvcOutputOvervoltage (cyc : Nat) (s : State) : Host.Outcome State Fault Refusal := run s cyc fun m => m.lvcOver

/-- LVC_OUTPUT_SHORT (R236). -/
def execLvcOutputShort (cyc : Nat) (s : State) : Host.Outcome State Fault Refusal :=
  run s cyc fun m => m.lvcShort

/-- LVC_HICCUP_END (R236). -/
def execLvcHiccupEnd (cyc : Nat) (s : State) : Host.Outcome State Fault Refusal :=
  run s cyc fun m => m.lvcHiccupEnd

/-- LVC_RETRY_CLEAR (R236). -/
def execLvcRetryClear (cyc : Nat) (s : State) : Host.Outcome State Fault Refusal :=
  run s cyc fun m => m.lvcRetryClear

/-- LVC_PRECHARGE_TIMEOUT (R231). -/
def execLvcPrechargeTimeout (cyc : Nat) (s : State) : Host.Outcome State Fault Refusal :=
  run s cyc fun m => m.lvcPrecharge

/-- LVC_SHED_START (R238). -/
def execLvcShedStart (cyc : Nat) (s : State) : Host.Outcome State Fault Refusal :=
  run s cyc fun m => m.lvcShed

/-- LVC_BURST_ENTRY (R240). -/
def execLvcBurstEntry (cyc : Nat) (s : State) : Host.Outcome State Fault Refusal :=
  run s cyc fun m => m.lvcBurstEntry

/-- LVC_ENABLE_WRITE (R241): a write of LVC_CTRL that sets or clears EN. -/
def execLvcEnableWrite (cyc : Nat) (who : Writer) (value : Word) (s : State) : Host.Outcome State Fault Refusal :=
  run s cyc fun m => m.laneOnly who fun l m => m.asyncWrite l Reg.LVC_CTRL (value &&& 3#32)

/-- LVC_CLEAR (R236): a write of LVC_CTRL with CLR. -/
def execLvcClear (cyc : Nat) (who : Writer) (value : Word) (s : State) : Host.Outcome State Fault Refusal :=
  run s cyc fun m => m.laneOnly who fun l m => m.asyncWrite l Reg.LVC_CTRL ((value &&& 1#32) ||| 2#32)

/-- LVC_DIAG_REQUEST (R242). -/
def execLvcDiagRequest (cyc : Nat) (who : Writer) (value : Word) (s : State) : Host.Outcome State Fault Refusal :=
  run s cyc fun m => m.laneOnly who fun l m => m.asyncWrite l Reg.LVC_DIAG_REQ (value &&& 0x3F#32)

/-- LVC_DIAG_COMPLETE (R242). -/
def execLvcDiagComplete (cyc : Nat) (phase : Fin 6) (high : Bool) (low : Bool) (s : State) :
    Host.Outcome State Fault Refusal :=
  run s cyc fun m => m.lvcDiagDone phase high low

/-- LVC_FAULT_RECORD_WRITE (R245). -/
def execLvcFaultRecordWrite (cyc : Nat) (ok : Bool) (s : State) : Host.Outcome State Fault Refusal :=
  runMem s cyc fun m mem => m.lvcWrite mem ok

end Sys2Proof.Machine
end

