-- ==== Sys2Proof/Machine/Chg.lean ====
section
/-! DEFINITION. Charging and the power path (chapter 10): grid synchronisation, pilot and proximity, the charge machine, the limit
in force, pulses, impedance points and the safety timer. -/

namespace Sys2Proof.Machine

/-! ### Access -/

/-- The CHG part changed. -/
def Mach.onChg (m : Mach) (f : ChgState → ChgState) : Mach := { m with chg := f m.chg }

/-- The PFC3 and the DAB slot. -/
def Mach.pfcSlot (m : Mach) : Nat := m.fld Reg.CHG_CFG 31 28
def Mach.dabSlot (m : Mach) : Nat := m.fld Reg.CHG_CFG 27 24

/-- The charger is present (R1) and the image has its slots (R250). -/
def Mach.chgPresent (m : Mach) : Bool := hasUnit m.variant 3 && m.isType m.pfcSlot .pfc3 && m.isType m.dabSlot .dab

/-- Ticks of a number of milliseconds, rounded up. -/
def Mach.msTicks (m : Mach) (ms : Nat) : Nat := (ms * 400000 + m.period - 1) / m.period

/-! ### Derived constants (R253, R265, R270), each to the nearest -/

/-- R265: KP = 1.5 × VAB × IAB × ETA / (DC voltage base × DC current base) in Q2.29; ETA in 2^−8. -/
def chgKp (vab iab vdc idc eta : Nat) : Nat := (2 * (3 * vab * iab * eta * 2 ^ 20) + vdc * idc) / (2 * vdc * idc)

/-- R265: KIAC = round(√2 × 2^37 / (10 × IAB)). -/
def chgKiac (iab : Nat) : Nat := (isqrtBits 40 (2 ^ 77 / (100 * iab * iab)) 0 + 1) / 2

/-- R270: ZBU, the impedance of the DC voltage base over the DC current base, in µΩ. -/
def chgZbu (vdc idc : Nat) : Nat := (2 * vdc * 1000000 + idc) / (2 * idc)

/-- R253: KVB = DC voltage base / VAB in Q2.29. -/
def chgKvb (vdc vab : Nat) : Nat := (2 * vdc * 2 ^ 29 + vab) / (2 * vab)

/-- The VALUE of an accumulator that a CHG_ACC field names. -/
def Mach.chgAcc (m : Mach) (a hi lo : Nat) : Int := m.acqHead.val (m.fld a hi lo)

/-- R138: the αβ pair of three phase quantities. -/
def alphaBeta (a b c : Int) : Int × Int :=
  (sat32 (a - tdiv (a + b + c) 3), sat32 (asr ((b - c) * 619925131) 30))

/-- The machine enters a state (R261); at a REST an impedance point may start again (R268). -/
def Mach.chgEnter (m : Mach) (st : Nat) : Mach :=
  (m.onChg fun x => { x with state := st, ticks := 0, busRun := 0, zHold := x.zHold && st != 6 }).orr Reg.CHG_IRQ_STAT 1

/-- An F3 event for both slots. -/
def Mach.chgF3 (m : Mach) (code : Nat) (data : List Nat) : Mach := (m.raiseF3 code m.pfcSlot data).raiseF3 code m.dabSlot data

/-- The charge ends in DONE; once STOPPING has been entered TERM stays (R274). -/
def Mach.chgEndDone (m : Mach) (term : Nat) : Mach :=
  let t := if m.chg.state = 7 then m.chg.term else term
  (m.onChg fun x => { x with term := t, s6 := 0 }).chgEnter 8

/-- The machine enters STOPPING with a TERM (R264). -/
def Mach.chgStopping (m : Mach) (term : Nat) : Mach := (m.onChg fun x => { x with term := term, s6Entry := x.s6 }).chgEnter 7

/-- States from REQUEST to REST. -/
def chgRunning (st : Nat) : Bool := decide (2 ≤ st) && decide (st ≤ 6)

/-! ### Pilot and proximity (R257 to R259) -/

/-- R257: the state of a high level in millivolts, coded as CHG_STAT.CP. -/
def pilotState (mv : Int) (pwm : Bool) : Nat :=
  if 10500 < mv then 1
  else if 7500 ≤ mv then 2
  else if 4500 ≤ mv then 3
  else if 1500 < mv then 4
  else if -1500 ≤ mv then 5
  else if mv < -10500 ∧ !pwm then 6
  else 0

/-- A pilot state is taken; the decode's interrupt when it changes. -/
def Mach.pilotTake (m : Mach) (c : Nat) : Mach :=
  if m.chg.cp = c then m else (m.onChg fun x => { x with cp := c }).orr Reg.CHG_IRQ_STAT 8

/-- R257: one pilot period; levels in millivolts, frequency in 0.1 Hz, duty in 0.1 %. -/
def Mach.pilotPeriod (m : Mach) (high low : Int) (freq duty : Nat) : Mach :=
  if !hasUnit m.variant 3 || m.mode == .sleep then m
  else
    let ok := 9800 ≤ freq ∧ freq ≤ 10200 ∧ -13000 ≤ low ∧ low ≤ -11000
    let c := if ok then pilotState high true else 0
    let n := if m.chg.cpNext = c then m.chg.cpRun + 1 else 1
    let m := m.onChg fun x => { x with cpNext := c, cpRun := min n 3, pwm := true, duty := min duty 1000 }
    if 3 ≤ n then m.pilotTake c else m

/-- R257: 3 ms of a constant level. -/
def Mach.pilotConstant (m : Mach) (level : Int) : Mach :=
  if !hasUnit m.variant 3 || m.mode == .sleep then m
  else (m.onChg fun x => { x with cpNext := 0, cpRun := 0, pwm := false, duty := 0 }).pilotTake (pilotState level false)

/-- R258: digital communication. -/
def ChgState.hlc (x : ChgState) : Bool := x.pwm && decide (30 ≤ x.duty) && decide (x.duty ≤ 70)

/-- R258: the pilot current in 0.1 A, for a duty with PWM; none where no current is permitted, and none in HLC. -/
def pilotCurrent (d : Nat) : Option Nat :=
  if 80 ≤ d ∧ d < 100 then some 60
  else if 100 ≤ d ∧ d ≤ 850 then some (d * 6 / 10)
  else if 850 < d ∧ d ≤ 960 then some ((d - 640) * 5 / 2)
  else if 960 < d ∧ d ≤ 970 then some 800
  else none

/-- R258: the duty permits charging. -/
def ChgState.dutyOk (x : ChgState) : Bool := x.hlc || (x.pwm && (pilotCurrent x.duty).isSome)

/-- R259: the reading of a resistance in ohms, coded as CHG_STAT.PP. -/
def ppCode (ohms : Nat) : Nat :=
  if 4500 < ohms then 0
  else if 1100 ≤ ohms ∧ ohms ≤ 2460 then 1
  else if 400 ≤ ohms ∧ ohms ≤ 936 then 2
  else if 164 ≤ ohms ∧ ohms ≤ 308 then 3
  else if 80 ≤ ohms ∧ ohms ≤ 140 then 4
  else 5

/-- R259: the cable rating in 0.1 A; without a valid plug none. -/
def cableCurrent (pp : Nat) : Nat :=
  match pp with
  | 1 => 130
  | 2 => 200
  | 3 => 320
  | 4 => 630
  | _ => 0

/-- PP is valid. -/
def ChgState.ppOk (x : ChgState) : Bool := decide (1 ≤ x.pp) && decide (x.pp ≤ 4)

/-- R259: one measurement; three that agree are taken. -/
def Mach.proximity (m : Mach) (ohms : Nat) : Mach :=
  if !hasUnit m.variant 3 || m.mode == .sleep then m
  else
    let c := ppCode ohms
    let n := if m.chg.ppNext = c then m.chg.ppRun + 1 else 1
    let m := m.onChg fun x => { x with ppNext := c, ppRun := min n 3 }
    if 3 ≤ n ∧ m.chg.pp ≠ c then (m.onChg fun x => { x with pp := c }).orr Reg.CHG_IRQ_STAT 8 else m

/-- R262: BMS_PERMIT opens or closes; PERMSEEN sets when it closes after having been open. -/
def Mach.bmsPermit (m : Mach) (closed : Bool) : Mach :=
  m.onChg fun x => { x with
    permit := closed
    permOpened := x.permOpened || !closed
    permSeen := x.permSeen || (closed && x.permOpened) }

/-- R260: what the charge machine requests of CP_SC, the AC relay and the permit loop (R261). -/
def chgRequests (st : Nat) : Bool × Bool × Bool :=
  let all := decide (3 ≤ st) && decide (st ≤ 7)
  (st == 2 || all, all, st == 2 || all)

/-- R275: IRQ_OUT_N is driven low; an unpowered or resetting module leaves it released. -/
def Mach.irqOutLow (m : Mach) : Bool :=
  m.pwr.phase == .up && m.pwr.due.isNone && (decide ((m.rd Reg.CHG_IRQ_STAT &&& m.rd Reg.CHG_OUT_EN) ≠ 0#32) ||
    (m.chg.state == 8 && (m.chg.term == 3 || m.chg.term == 9)))

/-! ### Grid (R255, R256) -/

/-- R255: one step of the grid loop. -/
def Mach.gridStep (m : Mach) : Mach :=
  let x := m.chg
  let ab := alphaBeta (m.chgAcc Reg.CHG_ACC1 31 24) (m.chgAcc Reg.CHG_ACC1 23 16) (m.chgAcc Reg.CHG_ACC1 15 8)
  let vq := sat32 (asr (ab.2 * cos30 x.thg - ab.1 * sin30 x.thg) 30)
  let vm := isqrt (ab.1 * ab.1 + ab.2 * ab.2)
  let e := s32 (tdiv (vq * 2 ^ 29) (max vm (2 ^ 25)))
  let wg := sat32 (x.wg + mulg e (gainOf (m.rd Reg.CHG_GKI)))
  let thg := u32 (x.thg + s32 (asr (wg * (m.rd Reg.CHG_KWG).toNat) 29) + sat32 (mulg e (gainOf (m.rd Reg.CHG_GKP))))
  let up := if e.natAbs < 2 ^ 23 then x.lockRun + 1 else 0
  let down := if 2 ^ 25 ≤ e.natAbs then x.unlockRun + 1 else 0
  let lock := if 16 ≤ up then true else if 4 ≤ down then false else x.lock
  m.onChg fun x => { x with wg := wg, thg := thg, vm := vm, lockRun := min up 16, unlockRun := min down 4, lock := lock }

/-- R256: vm lies within VGLO to VGHI of VGNOM. -/
def Mach.gridOk (m : Mach) : Bool :=
  let g := m.rd Reg.CHG_GRID
  let nom : Int := g.bits 15 0 * 2 ^ 15
  decide (nom * g.bits 31 24 ≤ 256 * m.chg.vm) && decide (256 * m.chg.vm ≤ nom * (256 + g.bits 23 16))

/-- R256: how long each grid condition has persisted. -/
def Mach.gridRuns (m : Mach) : Mach :=
  let ok := m.gridOk
  let f : Int := m.chg.wg * (if m.bit Reg.CHG_CFG 23 then 60 else 50)
  let off := decide (f < 45 * one29) || decide (65 * one29 < f)
  m.onChg fun x => { x with
    vgRun := if ok then 0 else x.vgRun + 1
    lostRun := if x.lock then 0 else x.lostRun + 1
    freqRun := if off then x.freqRun + 1 else 0 }

/-- R256, R274 item 4: a grid fault. -/
def Mach.gridFault (m : Mach) : Mach :=
  let x := m.chg
  if 4 ≤ x.state ∧ x.state ≤ 7 ∧ (8 ≤ x.vgRun ∨ 16 ≤ x.lostRun ∨ 8 ≤ x.freqRun) then
    ((m.chgEndDone 8).chgF3 0x2807 []).orr Reg.CHG_IRQ_STAT 0x80
  else m

/-! ### The limit in force (R265) -/

/-- R258, R259, R265: the input current in 0.1 A rms. -/
def Mach.inputCurrent (m : Mach) : Nat :=
  let x := m.chg
  let ac := m.fld Reg.CHG_ACLIM 15 0
  let cable := cableCurrent x.pp
  if x.hlc then min cable ac
  else
    let p := if x.pwm then (pilotCurrent x.duty).getD 0 else 0
    if ac = 0 then min p cable else min (min p cable) ac

/-- The throttle factor of a slot (R489). -/
def Mach.throttleOf (m : Mach) (k : Nat) : Int := throttleQ (m.fld (Reg.PWR_SL_TH k) 31 16)

/-- R265: the limit in force and its causes. -/
def Mach.chgLimit (m : Mach) : Mach :=
  let iac := s32 (asr (m.inputCurrent * (m.rd Reg.CHG_KIAC).toNat) 8)
  let pav := mulq (mulq m.chg.vm iac) (m.rd Reg.CHG_KP).toNat
  let avail := s32 (tdiv (pav * 2 ^ 29) (max m.chg.udc (2 ^ 27)))
  let cut := sat32 (avail - m.chg.imach)
  let tgt : Int := m.fld Reg.CHG_TGT 31 16 * 2 ^ 15
  let ith := mulq tgt (min (m.throttleOf m.pfcSlot) (m.throttleOf m.dabSlot))
  let ilim := max 0 (min tgt (min cut ith))
  let input := decide (avail < tgt)
  let prio := decide (0 < m.chg.imach) && decide (cut < tgt)
  let therm := decide (ith < tgt)
  m.onChg fun x => { x with iac := iac, avail := avail, ilim := ilim, input := input, prio := prio, therm := therm
                            half := decide (ilim < tgt) && (input || prio || therm) }

/-- R251: the DC quantities of the boundary. -/
def Mach.chgMeasure (m : Mach) : Mach :=
  let ucb := m.chgAcc Reg.CHG_ACC0 7 0
  let udc := m.chgAcc Reg.CHG_ACC1 7 0
  let a := m.rd Reg.CHG_ACC2
  let set := m.acqHead
  let m := m.onChg fun x => { x with
    ucb := ucb, udc := udc, ibat := set.val (a.bits 23 16), vbat := set.val (a.bits 15 8), imach := set.val (a.bits 7 0)
    ticks := x.ticks + 1 }
  m.gridStep.gridRuns

/-! ### The causes of R274, items 1 to 8 -/

/-- R273, R274 item 1: HARD since the last boundary. -/
def Mach.chgHard (m : Mach) : Mach :=
  let seen := m.gate.hardSeen
  let m := m.onGate fun g => { g with hardSeen := false }
  if !seen || !(chgRunning m.chg.state || m.chg.state == 7) then m
  else if m.chg.ibat.natAbs < m.fld Reg.CHG_LIM 31 16 * 2 ^ 15 then
    let m := ((m.chgEndDone 3).chgF3 0x2804 []).orr Reg.CHG_IRQ_STAT 0x100
    m.onChg fun x => { x with permSeen := false, permOpened := !x.permit }
  else ((m.chgEndDone 9).chgF3 0x2809 []).orr Reg.CHG_IRQ_STAT 0x200

/-- R274 item 2: outside CHARGE a charge ends. -/
def Mach.chgMode (m : Mach) : Mach :=
  if m.mode ≠ .charge ∧ (chgRunning m.chg.state || m.chg.state == 7) = true then m.chgEndDone 7 else m

/-- R274 item 3: an F3 event for either slot has taken effect. -/
def Mach.chgCause (m : Mach) : Mach :=
  let f := m.chg.f3
  let m := m.onChg fun x => { x with f3 := false }
  if f && (chgRunning m.chg.state || m.chg.state == 7) then m.chgEndDone 6 else m

/-- R274 items 5 to 7: pilot or proximity, the permit, and STOP. -/
def Mach.chgStops (m : Mach) : Mach :=
  let x := m.chg
  let stop := x.stopReq
  let m := m.onChg fun x => { x with stopReq := false, startReq := x.startReq && !x.stopReq }
  if 3 ≤ x.state ∧ x.state ≤ 6 ∧ (x.cp ≠ 3 ∨ !x.dutyOk ∨ !x.ppOk) then (m.chgStopping 5).raise 0x2805 1 m.dabSlot
  else if chgRunning x.state = true ∧ !x.permit then (m.chgStopping 4).raise 0x2806 1 m.dabSlot []
  else if chgRunning x.state = true ∧ stop then m.chgStopping 1
  else m

/-- A state in which the safety timer runs (R261). -/
def chgTimed (st : Nat) : Bool := st == 5 || st == 6

/-- Seconds of a number of ticks. -/
def Mach.tickSeconds (m : Mach) (n : Nat) : Nat := n * m.period / 400000000

/-- R271: the count of the tick that ends, by the set of the previous boundary. -/
def Mach.chgCount (m : Mach) : Mach :=
  match m.chg.shelf.head? with
  | none => m
  | some s =>
    if !chgTimed s.state then m
    else
      let m := m.onChg fun x => { x with c := x.c + (if s.half then 1 else 2), thalf := x.thalf + s.half.toNat }
      if s.half && !m.chg.halfTold then
        ((m.onChg fun x => { x with halfTold := true }).raise 0x280B 0 m.dabSlot []).orr Reg.CHG_IRQ_STAT 0x40
      else m

/-- R271: the count at which the timer expires. -/
def Mach.timerLimit (m : Mach) : Nat := 2 * (((m.rd Reg.CHG_TIMER).toNat * 400000000 + m.period - 1) / m.period)

/-- R272: expiry. -/
def Mach.timerExpiry (m : Mach) : Mach :=
  let x := m.chg
  if x.expired || decide (x.c < m.timerLimit) then m
  else
    let flags := x.therm.toNat + 2 * x.prio.toNat + 4 * x.input.toNat
    let m := m.onChg fun x => { x with expired := true }
    let m := m.raise 0x2803 1 m.dabSlot (flags :: leBytes 4 (m.tickSeconds x.thalf))
    if chgRunning x.state then m.chgStopping 2 else m

/-! ### START, sequencing and pulses (R262 to R264, R266) -/

/-- R262: the first reason to refuse a START. -/
def Mach.startRefusal (m : Mach) : Option Nat :=
  let x := m.chg
  if m.mode ≠ .charge then some 1
  else if x.state ≠ 1 ∧ x.state ≠ 8 then some 2
  else if !x.permit ∨ (x.term = 3 ∧ !x.permSeen) then some 3
  else if x.expired then some 4
  else if !m.linkLow then some 5
  else if m.inputCurrent * (m.rd Reg.CHG_KIAC).toNat / 2 ^ 8 = 0 then some 6
  else if x.cp ≠ 2 ∨ !x.dutyOk ∨ !x.ppOk then some 7
  else none

/-- R262, R274 item 9: a START takes effect. -/
def Mach.chgStart (m : Mach) : Mach :=
  if !m.chg.startReq then m
  else
    let m := m.onChg fun x => { x with startReq := false }
    match m.startRefusal with
    | some c => (m.raise 0x280A 0 m.dabSlot [c]).orr Reg.CHG_IRQ_STAT 4
    | none => (m.onChg fun x => { x with term := 0, firstOn := false, halfTold := false, s9 := 0, s6 := 0 }).chgEnter 2

/-- R266: ON begins, with the pulse timing as last written. -/
def Mach.chgOn (m : Mach) : Mach :=
  let p := m.rd Reg.CHG_PULSE
  let on := if p.bit 15 then m.msTicks (p.bits 31 16 - p.bits 10 0) else 0
  let rest := if p.bit 15 then m.msTicks (p.bits 10 0) else 0
  let first := !m.chg.firstOn
  let m := (m.onChg fun x => { x with onLen := on, restLen := rest, firstOn := true }).chgEnter 5
  if first then m.raise 0x2801 0 m.dabSlot [] else m

/-- R266: an ON or REST phase that has reached its length gives way to the other. -/
def Mach.pulseEnd (m : Mach) : Mach :=
  let x := m.chg
  if x.state = 5 ∧ 0 < x.restLen ∧ x.onLen ≤ x.ticks then m.chgEnter 6
  else if x.state = 6 ∧ x.restLen ≤ x.ticks then m.chgOn
  else m

/-- R264: S6 has reached 0 in STOPPING. -/
def Mach.stoppingEnd (m : Mach) : Mach :=
  if m.chg.state = 7 ∧ m.chg.s6 = 0 ∧ 1 ≤ m.chg.ticks then
    ((m.chgEnter 8).raise 0x2802 0 m.dabSlot [m.chg.term]).orr Reg.CHG_IRQ_STAT 2
  else m

/-- R263: the times of REQUEST, PRECHG and BUS run out. -/
def Mach.chgTimeout (m : Mach) : Mach :=
  let x := m.chg
  let seq := m.rd Reg.CHG_SEQ
  if x.state = 2 ∧ m.msTicks (1000 * seq.bits 31 28) ≤ x.ticks then m.chgEndDone 5
  else if x.state = 3 ∧ m.msTicks (10 * seq.bits 27 20) ≤ x.ticks then
    ((m.chgEndDone 8).chgF3 0x2808 [3]).orr Reg.CHG_IRQ_STAT 0x80
  else if x.state = 4 ∧ m.msTicks 1000 ≤ x.ticks then ((m.chgEndDone 6).chgF3 0x2808 [4]).orr Reg.CHG_IRQ_STAT 0x80
  else m

/-- R263, R277: u_cb lies within UCB/32 of UCB. -/
def Mach.busOk (m : Mach) : Bool :=
  let ucb : Int := m.fld Reg.CHG_BUS 31 16 * 2 ^ 15
  decide (32 * (m.chg.ucb - ucb).natAbs ≤ ucb.natAbs)

/-- R263: S9 in BUS, and the count of ticks within UCB/32. -/
def Mach.chgBus (m : Mach) : Mach :=
  let ucb : Int := m.fld Reg.CHG_BUS 31 16 * 2 ^ 15
  let x := m.chg
  let s9 := if x.ticks = 0 then x.ucb else min ucb (x.s9 + ucb / 1024)
  let n := if s9 = ucb ∧ m.busOk = true then x.busRun + 1 else 0
  let m := m.onChg fun x => { x with s9 := s9, busRun := n }
  if 16 ≤ n then m.chgOn else m

/-- R261, R263, R264, R266, R274 item 10. -/
def Mach.chgSequence (m : Mach) : Mach :=
  let x := m.chg
  match x.state with
  | 0 => if x.ppOk && x.cp == 2 then m.chgEnter 1 else m
  | 1 => if x.ppOk && x.cp == 2 then m else m.chgEnter 0
  | 2 => if m.gridOk && x.lock then m.chgEnter 3 else m.chgTimeout
  | 3 =>
    if (m.fld Reg.CHG_BUS 15 0 : Int) * 2 ^ 15 ≤ x.ucb then (m.chgEnter 4).chgBus else m.chgTimeout
  | 4 => m.chgBus.chgTimeout
  | 7 => m.stoppingEnd
  | 8 => if x.pp = 0 then m.chgEnter 0 else m
  | _ => m.pulseEnd

/-- R254, R264: S6 of the boundary; and VBAT latched at the last tick of a REST (R266). -/
def Mach.chgReference (m : Mach) : Mach :=
  let x := m.chg
  let rd : Int := m.fld Reg.CHG_SEQ 19 12
  let s6 := match x.state with
    | 5 => x.ilim
    | 7 => tdiv (x.s6Entry * (max 0 (rd - x.ticks))) (max rd 1)
    | _ => 0
  let last := decide (x.state = 6 ∧ x.ticks + 1 = x.restLen)
  m.onChg fun x => { x with s6 := s6, vrest := if last then x.vbat else x.vrest }

/-! ### Impedance (R267 to R270) -/

/-- A point of the plan: TP, NSET, NCYC; a point outside the plan or with TP 0 ends it. -/
def Mach.zPoint (m : Mach) (p : Nat) : Option (Nat × Nat × Nat) :=
  if 16 ≤ p then none
  else
    let w := m.rd (Reg.CHG_PLAN p)
    if w.bits 19 0 = 0 then none else some (w.bits 19 0, w.bits 31 30, w.bits 29 26)

/-- R268: after a point: the next one, or the end of the sweep; with IMPREP the plan starts again at the next rest. -/
def Mach.zAdvance (m : Mach) : Mach :=
  let n := m.chg.zNext + 1
  let m := m.onChg fun x => { x with zNext := n }
  match m.zPoint n with
  | some _ => m
  | none =>
    let rep := m.bit Reg.CHG_CFG 21
    let m := m.onChg fun x => { x with zNext := if rep then 0 else n, zDone := !rep, zHold := rep, sweeps := min 255 (x.sweeps + 1) }
    (m.raise 0x280D 0 m.dabSlot []).orr Reg.CHG_IRQ_STAT 0x20

/-- R268, R270: a point ends with a result, or is skipped with VALID clear. -/
def Mach.zResult (m : Mach) (p : Nat) (valid : Bool) : Mach :=
  let m := m.onChg fun x => { x with valid := if valid then x.valid ||| 2 ^ p else x.valid &&& (0xFFFF ^^^ 2 ^ p) }
  (m.raise 0x280C 0 m.dabSlot [p, valid.toNat]).orr Reg.CHG_IRQ_STAT 0x10

/-- R269, R279: a point that cannot finish ends with VALID clear and is retried at the next rest. -/
def Mach.zAbort (m : Mach) : Mach :=
  match m.chg.zRun with
  | none => m
  | some _ => (m.onChg fun x => { x with zRun := none, zHold := true, zCommand := .stop }).zResult m.chg.zNext false

/-- R268: ZRST restarts the plan from point 0; a point that runs ends as in R269 (DESIGN CHOICE, log entry 82). -/
def Mach.zRestart (m : Mach) : Mach :=
  if !m.chg.zRst then m
  else m.zAbort.onChg fun x => { x with zRst := false, zNext := 0, zDone := false, zHold := false }

/-- R270: the impedance of a point. -/
def Mach.zCompute (m : Mach) (n : Nat) : Mach :=
  let x := m.chg
  let zbu : Int := (m.rd Reg.CHG_ZBU).toNat
  let nr := x.svi * x.sii + x.svq * x.siq
  let ni := x.svq * x.sii - x.svi * x.siq
  let den := x.sii * x.sii + x.siq * x.siq
  let zr := if den = 0 then 0 else sat32 (tdiv (nr * zbu) den)
  let zi := if den = 0 then 0 else sat32 (tdiv (ni * zbu) den)
  let amp := 2 * isqrtBits 70 den.toNat 0 / n
  let ok := decide (den ≠ 0) && decide (m.fld Reg.CHG_IMP 15 0 * 2 ^ 15 ≤ amp)
  let p := x.zNext
  ((m.wrS (Reg.CHG_Z_ZR p) zr).wrS (Reg.CHG_Z_ZI p) zi).zResult p ok

/-- R270: a point whose measured ticks are all in ends. -/
def Mach.zEnd (m : Mach) : Mach :=
  match m.chg.zRun, m.zPoint m.chg.zNext with
  | some t, some (tp, nset, ncyc) =>
    if (nset + ncyc) * tp + 1 ≤ t then
      ((m.zCompute (ncyc * tp)).onChg fun x => { x with zRun := none, zCommand := .stop }).zAdvance
    else m
  | _, _ => m

/-- R270: one tick of a point that runs. -/
def Mach.zTick (m : Mach) : Mach :=
  match m.chg.zRun, m.zPoint m.chg.zNext with
  | some t, some (tp, nset, _) =>
    if m.injState m.refLane ≠ 1 then m.zAbort
    else
      let t := t + 1
      let a := m.rd Reg.CHG_ACC3
      let set := m.acqHead
      let sums := decide (nset * tp + 2 ≤ t)
      m.onChg fun x => { x with
        zRun := some t
        svi := x.svi + (if sums then set.val (a.bits 31 24) else 0), svq := x.svq + (if sums then set.val (a.bits 23 16) else 0)
        sii := x.sii + (if sums then set.val (a.bits 15 8) else 0), siq := x.siq + (if sums then set.val (a.bits 7 0) else 0) }
  | _, _ => m

/-- R268: points that no rest in force can hold are skipped, up to one sweep. -/
def Mach.zSkip : Nat → Mach → Mach
  | 0, m => m
  | n + 1, m =>
    match m.zPoint m.chg.zNext with
    | some (tp, nset, ncyc) =>
      if !m.chg.zDone && !m.chg.zHold && decide (m.chg.restLen < m.fld Reg.CHG_SEQ 11 0 + (nset + ncyc) * tp + 2) then
        (m.zResult m.chg.zNext false).zAdvance.zSkip n
      else m
    | none => m

/-- R268: the next point starts in a rest with room for its window; the boundary that stops a point lies within its window. -/
def Mach.zStart (m : Mach) : Mach :=
  if !m.bit Reg.CHG_CFG 22 || m.chg.zCommand == .stop || m.chg.state != 6 || m.chg.zDone || m.chg.zHold || m.chg.zRun.isSome then m
  else
    let m := m.zSkip 16
    match m.zPoint m.chg.zNext with
    | some (tp, nset, ncyc) =>
      if !m.chg.zDone && !m.chg.zHold && decide (m.fld Reg.CHG_SEQ 11 0 ≤ m.chg.ticks) && decide (m.chg.ticks + (nset + ncyc) * tp + 2 ≤ m.chg.restLen) then
        m.onChg fun x => { x with zRun := some 0, zCommand := .start, svi := 0, svq := 0, sii := 0, siq := 0 }
      else m
    | none => m

/-- R268 to R270, R274 item 12. -/
def Mach.zEval (m : Mach) : Mach :=
  let m := m.zRestart
  if m.chg.state ≠ 6 then m.zAbort else (m.zTick.zEnd).zStart

/-- R269: round(2^48 / (TP × P)). -/
def Mach.zFreq (m : Mach) : Nat :=
  match m.zPoint m.chg.zNext with
  | some (tp, _, _) => (2 ^ 49 / (tp * m.period) + 1) / 2
  | none => 0

/-- R269: a command of CHG acts on the injector of a lane that runs the DAB slot, as if written to LAW_INJ_CTRL. -/
def Mach.zActs (m : Mach) (l : Lane) (c : ZCommand) (freq : Nat) : Mach :=
  let k := m.dabSlot
  if !m.runsSlot l k then m
  else match c with
    | .none => m
    | .start =>
      let m := (m.wrN (Reg.LAW_INJ_CTRL l.ix) (k * 2 ^ 24 + 2 ^ 20)).wrN (Reg.LAW_INJ_F0 l.ix) freq
      let m := (m.wrN (Reg.LAW_INJ_AMP l.ix) (m.fld Reg.CHG_IMP 31 16 * 2 ^ 15)).wrN (Reg.LAW_INJ_DUR l.ix) 0
      (m.setFld (Reg.LAW_INJ_AUX l.ix) 31 16 0).injStart l false
    | .stop => if m.injState l = 1 ∧ m.injSlot l = k then (m.injRampOut l 3).injRampEnd l else m

/-- R269: the command frozen at the last boundary has acted. -/
def Mach.zDoneActing (m : Mach) : Mach := m.onChg fun x => { x with zCommand := .none }

/-! ### The set (R252 to R254) -/

/-- R252: the CHG set of tick `n` frozen, and the registers that show it. -/
def Mach.chgFreeze (m : Mach) (n : Nat) : Mach :=
  let x := m.chg
  let g := alphaBeta (m.chgAcc Reg.CHG_ACC1 31 24) (m.chgAcc Reg.CHG_ACC1 23 16) (m.chgAcc Reg.CHG_ACC1 15 8)
  let i := alphaBeta (m.chgAcc Reg.CHG_ACC0 31 24) (m.chgAcc Reg.CHG_ACC0 23 16) (m.chgAcc Reg.CHG_ACC0 15 8)
  let s11 := mulq x.ucb (m.rd Reg.CHG_KVB).toNat
  let pfc := [i.1, i.2, g.1, g.2, x.ucb, x.vm, 0, 0, 0, x.s9, x.iac, s11, asr (s11 * 37837) 16, 0, 0, 0]
  let dab := [m.chgAcc Reg.CHG_ACC2 31 24, x.udc, x.ucb, x.ibat, x.ilim, x.imach, x.s6, m.fld Reg.CHG_TGT 15 0 * 2 ^ 15, x.vbat,
    max 0 x.avail, 0, 0, 0, 0, 0, 0]
  let zf := if x.zCommand = .start then m.zFreq else 0
  let set : ChgSet := { tag := n, state := x.state, half := x.half, pfc := pfc, dab := dab, thg := x.thg, iac := x.iac, zc := x.zCommand
                        zfreq := zf, pulse := (x.ticks, x.onLen, x.restLen), timer := (x.c, x.thalf)
                        zRun := x.zRun.map fun t => (x.zNext, t), sums := [x.svi, x.svq, x.sii, x.siq] }
  let m := m.onChg fun x => { x with shelf := (set :: x.shelf.filter (·.tag != n)).take 32 }
  let b (c : Bool) (i : Nat) : Nat := c.toNat * 2 ^ i
  let stat := x.state * 2 ^ 28 + x.term * 2 ^ 24 + x.cp * 2 ^ 21 + x.pp * 2 ^ 18 + b x.hlc 17 + b x.lock 16 + b x.permit 15 +
    b x.permSeen 14 + b x.half 13 + b x.therm 12 + b x.prio 11 + b x.input 10 + b m.busOk 9 + b x.zRun.isSome 8 +
    x.zNext % 16 * 2 ^ 4
  let ip := if x.pwm then (pilotCurrent x.duty).getD 0 else 0
  let up (v : Int) : Nat := (clampI 0 0xFFFF (asr v 15)).toNat
  let m := (m.wrN Reg.CHG_SNAP (n % 2 ^ 32)).wrN Reg.CHG_STAT stat
  let m := (m.wrN Reg.CHG_PILOT (x.duty * 2 ^ 22 + ip * 2 ^ 10)).wrN Reg.CHG_ILIM (up x.ilim * 2 ^ 16 + up x.avail)
  let m := (m.wrN Reg.CHG_TIME (x.c * m.period / 800000000)).wrN Reg.CHG_THALF (m.tickSeconds x.thalf)
  (m.wrN Reg.CHG_VREST (up x.vrest)).wrN Reg.CHG_ZINFO (x.sweeps * 2 ^ 24 + x.zNext % 16 * 2 ^ 20 + x.valid)

/-- R274: CHG evaluates its machine at the boundary of tick `n`. -/
def Mach.chgEval (m : Mach) (n : Nat) : Mach :=
  if !hasUnit m.variant 3 then m
  else if !m.chgPresent then ((m.onChg fun x => { x with startReq := x.startReq && !x.stopReq, stopReq := false }).chgStart).chgFreeze n
  else
    let m := m.chgMeasure
    let m := (m.chgHard.chgMode).chgCause
    let m := (m.gridFault).chgStops
    let m := (m.chgCount).timerExpiry
    let m := (m.chgStart).chgSequence
    let m := (m.chgLimit).chgReference
    (m.zEval).chgFreeze n

/-- R252: the CHG set tagged with a tick. -/
def Mach.chgSet (m : Mach) (n : Nat) : ChgSet := (m.chg.shelf.find? (·.tag == n)).getD { (default : ChgSet) with tag := n }

/-- R253: Transform of the PFC3 slot in tick `n`. -/
def Mach.transformPfc (m : Mach) (l : Lane) (k n : Nat) : Mach :=
  let c := m.chgSet n
  let s8 := clampI 0 c.iac (m.sig l k 32)
  let v := (List.range 16).map fun i =>
    if i = 6 then mulq s8 (cos30 c.thg) else if i = 7 then mulq s8 (sin30 c.thg)
    else if i = 8 then s8 else nth c.pfc i
  m.setInputs l k v

/-- R254: Transform of the DAB slot in tick `n`. -/
def Mach.transformDab (m : Mach) (l : Lane) (k n : Nat) : Mach :=
  let c := m.chgSet n
  m.setInputs l k ((List.range 16).map fun i => nth c.dab i)

/-- R261: the PFC3 and the DAB slot switch. -/
def pfcSwitches (st : Nat) : Bool := decide (4 ≤ st) && decide (st ≤ 7)
def dabSwitches (st : Nat) (s6 : Int) : Bool := st == 5 || st == 6 || (st == 7 && decide (s6 ≠ 0))

/-! ### Writes at their accession tick -/

/-- R262, R268, R271, R274: CHG_CTRL takes effect. -/
def Mach.chgControl (m : Mach) (v : Word) : Mach :=
  let m := m.wr Reg.CHG_CTRL 0#32
  let m := if !v.bit 3 then m
    else if chgTimed m.chg.state then m.raise 0x280E 0 m.dabSlot
    else m.onChg fun x => { x with c := 0, thalf := 0, expired := false }
  let m := if v.bit 0 then m.onChg fun x => { x with zRst := true } else m
  m.onChg fun x => { x with startReq := x.startReq || v.bit 1, stopReq := x.stopReq || v.bit 2 }

/-- R266: CHG_PULSE takes effect, or is ignored. -/
def Mach.chgPulse (m : Mach) (v : Word) : Mach :=
  let p := v.bits 31 16
  let r := v.bits 10 0
  if p < 1000 ∨ 60000 < p ∨ r < 20 ∨ 2000 < r ∨ p ≤ r then m.raise 0x280E 0 m.dabSlot else m.wr Reg.CHG_PULSE (v &&& 0xFFFF87FF#32)

/-- R271, R277: CHG_TIMER takes effect, or is ignored. -/
def Mach.chgTimer (m : Mach) (v : Word) : Mach :=
  if v.toNat < 60 ∨ 86400 < v.toNat then m.raise 0x280E 0 m.dabSlot else m.wr Reg.CHG_TIMER v

/-- R309: an F3 or F4 cause of a charger slot takes effect. -/
def Mach.chgSlotCause (m : Mach) (k : Nat) : Mach :=
  if m.chgPresent && (k == m.pfcSlot || k == m.dabSlot) then m.onChg fun x => { x with f3 := true } else m

/-- A write of CHG_CTRL: the safety processor may write STOP only. -/
def chgCtrlWrite (cyc : Nat) (who : Writer) (v : Word) (s : State) : Host.Outcome State Fault Refusal :=
  run s cyc fun m =>
    if !hasUnit m.variant 3 then m
    else match who with
      | .lane l => m.asyncWrite l Reg.CHG_CTRL v
      | .safety => if v.bit 2 then m.accede ⟨1, 0, 3, physical Reg.CHG_CTRL % 2 ^ 32, 4, []⟩ else m

/-! ### The commands -/

/-- CHG_START (R262): a write of CHG_CTRL with START. -/
def execChgStart (cyc : Nat) (who : Writer) (value : Word) (s : State) : Host.Outcome State Fault Refusal :=
  chgCtrlWrite cyc who ((value &&& 0xF#32) ||| 2#32) s

/-- CHG_STOP (R274): a write of CHG_CTRL with STOP. -/
def execChgStop (cyc : Nat) (who : Writer) (value : Word) (s : State) : Host.Outcome State Fault Refusal :=
  chgCtrlWrite cyc who ((value &&& 0xF#32) ||| 4#32) s

/-- CHG_TIMER_CLEAR (R271): a write of CHG_CTRL with TCLR. -/
def execChgTimerClear (cyc : Nat) (who : Writer) (value : Word) (s : State) : Host.Outcome State Fault Refusal :=
  chgCtrlWrite cyc who ((value &&& 0xF#32) ||| 8#32) s

/-- CHG_IMPEDANCE_RESTART (R268): a write of CHG_CTRL with ZRST. -/
def execChgImpedanceRestart (cyc : Nat) (who : Writer) (value : Word) (s : State) : Host.Outcome State Fault Refusal :=
  chgCtrlWrite cyc who ((value &&& 0xF#32) ||| 1#32) s

/-- CHG_PULSE_WRITE (R266). -/
def execChgPulseWrite (cyc : Nat) (who : Writer) (value : Word) (s : State) : Host.Outcome State Fault Refusal :=
  run s cyc fun m => if !hasUnit m.variant 3 then m else m.laneOnly who fun l m => m.asyncWrite l Reg.CHG_PULSE value

/-- CHG_TIMER_WRITE (R271). -/
def execChgTimerWrite (cyc : Nat) (who : Writer) (value : Word) (s : State) : Host.Outcome State Fault Refusal :=
  run s cyc fun m => if !hasUnit m.variant 3 then m else m.laneOnly who fun l m => m.asyncWrite l Reg.CHG_TIMER value

/-- PILOT_PERIOD (R257). -/
def execPilotPeriod (cyc : Nat) (high : Int) (low : Int) (freq : Nat) (duty : Nat) (s : State) :
    Host.Outcome State Fault Refusal :=
  run s cyc fun m => m.pilotPeriod high low freq duty

/-- PILOT_CONSTANT_LEVEL (R257). -/
def execPilotConstantLevel (cyc : Nat) (level : Int) (s : State) : Host.Outcome State Fault Refusal :=
  run s cyc fun m => m.pilotConstant level

/-- PROXIMITY_MEASUREMENT (R259). -/
def execProximityMeasurement (cyc : Nat) (ohms : Nat) (s : State) : Host.Outcome State Fault Refusal :=
  run s cyc fun m => m.proximity ohms

/-- BMS_PERMIT_CHANGE (R262, R274): the boundary acts on an open permit. -/
def execBmsPermitChange (cyc : Nat) (closed : Bool) (s : State) : Host.Outcome State Fault Refusal :=
  run s cyc fun m => m.bmsPermit closed

/-- SEQUENCE_TIMEOUT (R263). -/
def execSequenceTimeout (cyc : Nat) (s : State) : Host.Outcome State Fault Refusal :=
  run s cyc fun m => if m.chgPresent then m.chgTimeout else m

/-- PULSE_PHASE_END (R266): S6 follows the phase that begins (R254). -/
def execPulsePhaseEnd (cyc : Nat) (s : State) : Host.Outcome State Fault Refusal :=
  run s cyc fun m =>
    let t := m.pulseEnd
    if m.chgPresent && t.chg.state != m.chg.state then t.chgReference else m

/-- STOPPING_RAMP_END (R264). -/
def execStoppingRampEnd (cyc : Nat) (s : State) : Host.Outcome State Fault Refusal :=
  run s cyc fun m => if m.chgPresent then m.stoppingEnd else m

/-- SAFETY_TIMER_EXPIRY (R272). -/
def execSafetyTimerExpiry (cyc : Nat) (s : State) : Host.Outcome State Fault Refusal :=
  run s cyc fun m => if m.chgPresent then m.timerExpiry else m

/-- GRID_FAULT (R256). -/
def execGridFault (cyc : Nat) (s : State) : Host.Outcome State Fault Refusal :=
  run s cyc fun m => if m.chgPresent then m.gridFault else m

/-- IMPEDANCE_POINT_END (R270). -/
def execImpedancePointEnd (cyc : Nat) (s : State) : Host.Outcome State Fault Refusal :=
  run s cyc fun m => if m.chgPresent then m.zEnd else m

end Sys2Proof.Machine
end

