-- ==== Sys2Proof/Machine/Act.lean ====
section
/-! DEFINITION. Gearbox actuators and pumps (chapter 11): drives, tables and actions, the park lock, stalls, end-stops and hall
faults, the pump machine and its governor, and the ACT set. -/

namespace Sys2Proof.Machine

/-! ### Access -/

/-- A drive. -/
def Mach.drv (m : Mach) (d : Nat) : ActDrive := nth m.act.drives d

/-- A drive changed. -/
def Mach.onDrv (m : Mach) (d : Nat) (f : ActDrive → ActDrive) : Mach :=
  m.onAct fun a => { a with drives := upd a.drives d f }

/-- SLOT and ROLE of a drive (R296); ROLE 0 is unused. -/
def Mach.drvSlot (m : Mach) (d : Nat) : Nat := m.fld (Reg.ACT_DRV_CFG d) 31 28
def Mach.drvRole (m : Mach) (d : Nat) : Nat := m.fld (Reg.ACT_DRV_CFG d) 27 25

/-- The drive of a BLDC or PUMP slot. -/
def Mach.driveOfSlot (m : Mach) (k : Nat) : Option Nat :=
  (List.range 6).find? fun d => m.drvRole d != 0 && m.drvSlot d == k

/-- Positions POS[0] to POS[3], signed edges (R296). -/
def Mach.drvPos (m : Mach) (d k : Nat) : Int :=
  let w := m.rd (if k < 2 then Reg.ACT_DRV_POS01 d else Reg.ACT_DRV_POS23 d)
  signed 16 (if k % 2 = 0 then w.bits 15 0 else w.bits 31 16)

def Mach.drvSpan (m : Mach) (d : Nat) : Int := m.fld (Reg.ACT_DRV_TRAV d) 31 16
def Mach.drvEndwin (m : Mach) (d : Nat) : Int := m.fld (Reg.ACT_DRV_TRAV d) 15 8
def Mach.drvDlim (m : Mach) (d : Nat) : Int := m.fld (Reg.ACT_DRV_LIM d) 31 16 * 2 ^ 15
def Mach.drvHoldd (m : Mach) (d : Nat) : Int := m.fld (Reg.ACT_DRV_LIM d) 15 0 * 2 ^ 15

/-- The state table of an actuator slot. -/
def Mach.drvTable (m : Mach) (d : Nat) : Option Table := (m.slotEntry (m.drvSlot d)).bind fun e => e.table.bind m.table

/-- A pump drive. -/
def Mach.isPump (m : Mach) (d : Nat) : Bool := decide (4 ≤ m.drvRole d)

/-! ### Patterns of a drive (R284, R289, R293) -/

/-- The on-intervals of a leg record over a pattern of `t32`. -/
def Leg.onIntervals (g : Leg) (t32 : Int) : List (Int × Int) :=
  let es := [g.e1, g.e2].filter fun e => decide (e ≠ noEdge) && decide ((e : Int) < t32)
  match g.level0, es with
  | true, [] => [(0, t32)]
  | true, [a] => [(0, a)]
  | true, a :: b :: _ => [(0, a), ((b : Int), t32)]
  | false, [] => []
  | false, [a] => [((a : Int), t32)]
  | false, a :: b :: _ => [((a : Int), (b : Int))]

/-- A leg record of sorted on-intervals, whole cycles as R170 has it. -/
def Leg.ofIntervals (g : Leg) (t32 : Int) (l : List (Int × Int)) : Leg :=
  let l := l.filter fun x => decide (x.1 < x.2)
  let starts := l.any fun x => decide (x.1 = 0)
  let edges := (l.flatMap fun x => [x.1, x.2]).filter fun e => decide (0 < e) && decide (e < t32)
  legFrom g.mode g.dt g.dir true t32 (starts, edges)

/-- The signed duty of a COMM frame, in Q2.29. -/
def Frame.duty (f : Frame) : Int :=
  match f.legs.head? with
  | none => 0
  | some g =>
    let t32 : Int := 32 * f.patlen
    let on := ((g.onIntervals t32).map fun x => x.2 - x.1).sum
    let d := if g.mode = 5 ∧ 0 < t32 then tdiv (on * 2 ^ 29) t32 else 0
    if g.dir then -d else d

/-- R284: a COMM record with each half's on-time, which lies against the valley (R165), no longer than `a`; `start` and `toValley`
place a tick inside a half for r < 1. -/
def Leg.clampPulse (g : Leg) (t32 h32 a start : Int) (whole toValley : Bool) : Leg :=
  if g.mode ≠ 5 then g
  else
    let win : List (Int × Int) :=
      if whole then [(0, a), (t32 - a, t32)]
      else if toValley then [(h32 - a - start, h32 - start)] else [(-start, a - start)]
    let cut := (g.onIntervals t32).flatMap fun x => win.map fun w => (max x.1 w.1, min x.2 w.2)
    g.ofIntervals t32 cut

/-- R284: the frame that GDL executes for a drive in tick `n`, with DCLAMP of the ACT set of the boundary. -/
def Mach.clampComm (m : Mach) (k n : Nat) (f : Frame) : Frame :=
  match m.driveOfSlot k, m.slotEntry k with
  | some d, some e =>
    let h32 : Int := m.half32 e.rlog
    let a := asr (min (m.drv d).dclamp (2 ^ 29) * h32) 29
    let ticks := 2 ^ e.rlog.natAbs
    let span := ticks / 2
    let start : Int := if e.rlog < 0 then 32 * m.period * (n % ticks % span) else 0
    let toValley := decide (e.rlog < 0) && decide (span ≤ n % ticks)
    { f with legs := f.legs.map fun g => g.clampPulse (32 * f.patlen) h32 a start (decide (0 ≤ e.rlog)) toValley }
  | _, _ => f

/-- R293: the governor frame of a pump for tick `n`, from its duty. -/
def Mach.governorFrame (m : Mach) (k n d : Nat) : Frame :=
  let rlog := match m.slotEntry k with
    | some e => e.rlog
    | none => 0
  let g := (m.drv d).g
  let ra := ratio rlog
  let patlen := if ra.1 < 2 then m.period else m.period / ra.1
  let dt := match (nth m.lane.slots k).last.head? with
    | some f => (f.legs.head?.map (·.dt)).getD 0
    | none => 0
  let p := centreLegs rlog m.period n ⟨m.half32 rlog, false, 0, 0, 0, false⟩ (List.replicate 3 (dutyOf g.natAbs)) [0, 0, 0] [] []
  { seq := n, slot := k, patlen := patlen, holdok := false, start := false, inj := false, replay := false, emfhi := false
    asc := false, safe := false, overrun := false, hva := 0, hvb := 0, hdth := 0, hudc := 0
    legs := p.legs.map fun x => legFrom 5 dt (decide (g < 0)) true (32 * patlen) x }

/-! ### Starts and grants (R288, R480) -/

/-- R480: a start of a drive becomes a request at this boundary. -/
def Mach.requestStart (m : Mach) (d n : Nat) : Mach :=
  let m := m.onDrv d fun x => { x with granted := false }
  if m.pwr.starts.any (·.drive == d) then m
  else m.onPwr fun p => { p with starts := p.starts ++ [⟨d, n, false⟩] }

/-- R481: a start that is withdrawn leaves the queue without cost. -/
def Mach.withdrawStart (m : Mach) (d : Nat) : Mach :=
  m.onPwr fun p => { p with starts := p.starts.filter (·.drive != d) }

/-! ### The park lock (R287, R288) -/

/-- R287: PLOK of the last accepted frames of the TRACTION slots. -/
def Mach.plokEval (m : Mach) : Mach :=
  let val (k : Nat) : Nat := match m.lastAccepted k with
    | some f => f.hdth.natAbs
    | none => 0
  let lim (k : Nat) : Nat :=
    if m.fld (Reg.FOC_M_CFG 0 1) 31 28 = k ∧ m.motorSet 1 = true then (m.rd Reg.ACT_PLHD1).toNat
    else (m.rd Reg.ACT_PLHD0).toNat
  let ks := m.slotsOf .traction
  let below := ks.all fun k => decide (val k ≤ lim k)
  let above := ks.any fun k => decide (2 * lim k < val k)
  let p := if below then true else if above then false else m.act.plok
  m.onAct fun a => { a with plok := p }

/-- The engaged end of the park-lock drive lies high. -/
def Mach.engagedHigh (m : Mach) (d : Nat) : Bool := decide (m.drvPos d 0 ≤ m.drvPos d 1)

/-- R288: a move toward the engaged end. -/
def Mach.toEngaged (m : Mach) (d : Nat) : ActMove → Bool
  | .move k => k == 1
  | .seekHi => m.engagedHigh d
  | .seekLo => !m.engagedHigh d
  | _ => false

/-- R288: a move toward the released end. -/
def Mach.toReleased (m : Mach) (d : Nat) : ActMove → Bool
  | .move k => k == 0
  | .seekHi => !m.engagedHigh d
  | .seekLo => m.engagedHigh d
  | _ => false

/-- R285 bit 8: DRIVE or SERVICE. -/
def Mach.runMode (m : Mach) : Bool := m.mode == .drive || m.mode == .service

/-! ### Conditions and actions (R285, R286) -/

/-- R285 bit 0. -/
def Mach.atTarget (m : Mach) (d : Nat) : Bool :=
  let x := m.drv d
  match x.target with
  | some t => decide (((x.posn - t).natAbs : Int) ≤ m.drvEndwin d) && x.still
  | none => false

/-- R285 bit 9. -/
def Mach.moveTimeout (m : Mach) (d : Nat) : Bool :=
  let t := m.fld (Reg.ACT_DRV_STALL d) 7 0
  decide (t ≠ 0) && decide (t * m.msTicks 10 ≤ (m.drv d).since)

/-- R285: the condition word of an actuator. -/
def Mach.drvCond (m : Mach) (d : Nat) : Nat :=
  let x := m.drv d
  let b (c : Bool) (i : Nat) : Nat := c.toNat * 2 ^ i
  b (m.atTarget d) 0 + b x.endlo 1 + b x.endhi 2 + b x.stall 3 + b x.hallFlt 4 + b x.still 5 + b x.ref 6 +
    b (m.drvRole d == 2 && m.act.plok) 7 + b m.runMode 8 + b (m.moveTimeout d) 9 + x.req % 64 * 2 ^ 10

/-- R286: the action of a row. -/
def actionOf (a : Nat) : Option ActMove :=
  match a % 8 with
  | 1 => some (.move (a / 8 % 4))
  | 2 => some .hold
  | 3 => some .release
  | 4 => some .seekLo
  | 5 => some .seekHi
  | 6 => some .fault
  | _ => none

/-- R286, R289, R480: a drive takes an action. -/
def Mach.takeAction (m : Mach) (d n : Nat) (a : ActMove) : Mach :=
  let x := m.drv d
  let m := (m.withdrawStart d).onDrv d fun x => { x with
    move := a, since := 0, endlo := false, endhi := false, stall := false, noEdge := 0, waiting := false, reached := false
    profV := if a = .hold then x.profV else 0
    sinceFlt := x.sinceFlt || !x.hallFlt
    dclamp := if a = .hold then m.drvHoldd d else m.drvDlim d }
  match a with
  | .move k =>
    let m := m.onDrv d fun x => { x with target := some (m.drvPos d k), granted := true }
    if x.still then m.requestStart d n else m
  | .seekLo =>
    let m := m.onDrv d fun x => { x with target := none, granted := true }
    if x.still then m.requestStart d n else m
  | .seekHi =>
    let m := m.onDrv d fun x => { x with target := none, granted := true }
    if x.still then m.requestStart d n else m
  | .hold => m.onDrv d fun x => { x with granted := true }
  | .fault => ((m.onDrv d fun x => { x with granted := true }).raiseF3 0x2C0B (m.drvSlot d)).orr Reg.ACT_IRQ_STAT 0x20
  | _ => m.onDrv d fun x => { x with granted := true }

/-- R286, R288 rule 3: a row that an actuator's table takes, with its action; in STANDBY and SAFE_HOLD it is not executed. -/
def Mach.rowAction (m : Mach) (d n : Nat) (action : Nat) : Mach :=
  let m := if action.testBit 5 then (m.raise 0x2C0D 0 (m.drvSlot d)).orr Reg.ACT_IRQ_STAT 0x20 else m
  match actionOf action with
  | none => m
  | some a =>
    if m.drvRole d == 2 && m.toReleased d a && !m.runMode then
      (m.raise 0x2C06 0 (m.drvSlot d)).orr Reg.ACT_IRQ_STAT 4
    else if m.mode = .standby ∨ m.mode = .safeHold then m
    else m.takeAction d n a

/-- R285 to R288, R443: one evaluation of an actuator's table. -/
def Mach.drvTableEval (m : Mach) (d n : Nat) : Mach :=
  match m.drvTable d with
  | none => m
  | some t =>
    if m.mode = .safeHold ∧ m.drvRole d = 2 then m
    else
      let r := t.eval m.mode.code (m.drvCond d) (m.drv d).tab
      let m := m.onDrv d fun x => { x with tab := r.1 }
      match r.2 with
      | some row => m.rowAction d n row.action
      | none => m

/-! ### Blocked drives and hall faults (R289, R290) -/

/-- A drive moves toward its low end, or toward its high end. -/
def Mach.movesLow (m : Mach) (d : Nat) : Bool :=
  match (m.drv d).move with
  | .seekLo => true
  | .move k => decide (m.drvPos d k < (m.drv d).posn) && decide ((m.drv d).posn ≤ m.drvEndwin d)
  | _ => false

def Mach.movesHigh (m : Mach) (d : Nat) : Bool :=
  match (m.drv d).move with
  | .seekHi => true
  | .move k => decide ((m.drv d).posn < m.drvPos d k) && decide (m.drvSpan d - m.drvEndwin d ≤ (m.drv d).posn)
  | _ => false

/-- A seek ends at its end-stop: the drive is referenced (R286, R289). -/
def Mach.referenced (m : Mach) (d : Nat) (p : Int) : Mach :=
  (m.onDrv d fun x => { x with posn := p, ref := true, prof := 256 * p, profV := 0 }).raise 0x2C0A 0 (m.drvSlot d)

/-- R292: a pump enters RETRY, or FAULT at the third entry with less than 10 s of RUN since the first. -/
def Mach.pumpRetry (m : Mach) (d : Nat) : Mach :=
  let x := m.drv d
  let times := x.runTicks :: x.retries.filter fun t => decide (x.runTicks < t + m.msTicks 10000)
  let third := decide (3 ≤ times.length)
  let m := (m.withdrawStart d).onDrv d fun x =>
    { x with retries := times, retryAt := m.seq, granted := false, pstate := if third then 3 else 2 }
  if third then ((m.onDrv d fun x => { x with retries := [] }).raiseF3 0x2C04 (m.drvSlot d)).orr Reg.ACT_IRQ_STAT 8 else m

/-- R289: a drive is blocked now: switching at duty with no hall edge for STALLT ticks, and not told since the last action. -/
def Mach.blockedNow (m : Mach) (d : Nat) : Bool :=
  let x := m.drv d
  decide (m.fld (Reg.ACT_DRV_STALL d) 15 8 ≤ x.noEdge) && decide (0 < x.noEdge) && !x.endlo && !x.endhi && !x.stall

/-- R289: what a blocked drive is. -/
def Mach.driveBlocked (m : Mach) (d : Nat) : Mach :=
  if !m.blockedNow d then m
  else
    let k := m.drvSlot d
    let x := m.drv d
    if m.isPump d then
      let m := (m.onDrv d fun x => { x with dclamp := 0, noEdge := 0 }).raise 0x2C01 1 k
      (m.orr Reg.ACT_IRQ_STAT 1).pumpRetry d
    else if m.movesLow d then
      let m := (m.onDrv d fun x => { x with endlo := true, dclamp := m.drvHoldd d }).raise 0x2C03 0 k
      if x.move = .seekLo then m.referenced d 0 else m
    else if m.movesHigh d then
      let m := (m.onDrv d fun x => { x with endhi := true, dclamp := m.drvHoldd d }).raise 0x2C03 0 k
      if x.move = .seekHi then m.referenced d (m.drvSpan d) else m
    else ((m.onDrv d fun x => { x with stall := true, dclamp := 0 }).raise 0x2C01 1 k).orr Reg.ACT_IRQ_STAT 1

/-- R290: a hall fault is due. -/
def Mach.hallFaultNow (m : Mach) (d : Nat) : Bool :=
  let x := m.drv d
  !x.hallFlt && (decide (3 ≤ x.invRun) || decide (4 ≤ x.skips.countP id))

/-- R290: a hall fault: position lost, the drive held safe. -/
def Mach.hallFault (m : Mach) (d : Nat) : Mach :=
  if !m.hallFaultNow d then m
  else
    let m := (m.withdrawStart d).onDrv d fun x =>
      { x with hallFlt := true, ref := false, dclamp := 0, granted := false, sinceFlt := false, clean := 0, skips := [], invRun := 0 }
    (m.raiseF3 0x2C02 (m.drvSlot d)).orr Reg.ACT_IRQ_STAT 2

/-- R290, R292: 64 clean sets clear HALLFLT; a pump restarts through RETRY. -/
def Mach.hallFaultClear (m : Mach) (d : Nat) : Mach :=
  let x := m.drv d
  if x.hallFlt = true ∧ 64 ≤ x.clean then
    let m := m.onDrv d fun x => { x with hallFlt := false }
    if m.isPump d && x.pstate == 1 then m.pumpRetry d else m
  else m

/-! ### Pumps (R291 to R293) -/

/-- R291: a measurement of a pump pin is invalid; `freq` in 0.1 Hz, `held` that the time of the rule has passed. -/
def pumpInvalid (pcmd value freq : Nat) (held : Bool) : Bool :=
  match pcmd with
  | 1 => held && (decide (value < 20) || decide (980 < value))
  | 2 => decide (value < 20) || decide (980 < value) || decide (freq < 100) || decide (20000 < freq) || held
  | 3 => decide (20000 < value)
  | _ => false

/-- R291: ACT completes a measurement of a pump pin. -/
def Mach.pumpMeasure (m : Mach) (d value freq : Nat) (held : Bool) : Mach :=
  if m.mode = .sleep ∨ !m.isPump d then m
  else
    let bad := pumpInvalid (m.fld (Reg.ACT_PMP_CFG d) 31 30) value freq held
    let was := (m.drv d).invalid
    let m := m.onDrv d fun x => { x with pin := min value 0xFFFF, invalid := bad }
    if bad && !was then (m.raise 0x2C08 1 (m.drvSlot d)).orr Reg.ACT_IRQ_STAT 8 else m

/-- R291: the setpoint; INMIN = INMAX, which the loader refuses, never divides. -/
def Mach.pumpSetpoint (m : Mach) (d : Nat) : Int :=
  let x := m.drv d
  let cfg := m.rd (Reg.ACT_PMP_CFG d)
  let lo : Int := m.fld (Reg.ACT_PMP_MAP d) 15 0
  let hi : Int := m.fld (Reg.ACT_PMP_MAP d) 31 16
  let smin : Int := cfg.bits 19 10 * 2 ^ 19
  if cfg.bits 31 30 = 0 then m.rdS (Reg.ACT_PMP_SPD d)
  else if x.invalid then cfg.bits 29 20 * 2 ^ 19
  else if (x.pin : Int) < lo then 0
  else if hi ≤ x.pin then 2 ^ 29
  else smin + tdiv ((x.pin - lo) * (2 ^ 29 - smin)) (hi - lo)

/-- R292: RETRY has lasted one second: RUN, or OFF with no setpoint. -/
def Mach.pumpRetryEnd (m : Mach) (d n : Nat) : Mach :=
  let x := m.drv d
  if x.pstate = 2 ∧ x.retryAt + m.msTicks 1000 ≤ n then
    if 0 < x.sp ∧ m.permitted (m.drvSlot d) = true ∧ !x.hallFlt then
      (m.onDrv d fun x => { x with pstate := 1, dclamp := m.drvDlim d, noEdge := 0 }).requestStart d n
    else m.onDrv d fun x => { x with pstate := 0 }
  else m

/-- R292: the pump machine at a boundary. -/
def Mach.pumpEval (m : Mach) (d n : Nat) (standby : Bool) : Mach :=
  let sp := m.pumpSetpoint d
  let m := m.onDrv d fun x => { x with sp := sp, runTicks := if x.pstate = 1 then x.runTicks + 1 else x.runTicks }
  let ok := m.permitted (m.drvSlot d)
  let x := m.drv d
  match x.pstate with
  | 0 =>
    if 0 < sp ∧ ok = true ∧ !x.hallFlt then
      (m.onDrv d fun x => { x with pstate := 1, dclamp := m.drvDlim d, noEdge := 0 }).requestStart d n
    else m
  | 1 => if 0 < sp ∧ ok = true then m
    else (m.withdrawStart d).onDrv d fun x => { x with pstate := 0, granted := false }
  | 2 => if ok then m.pumpRetryEnd d n else m.onDrv d fun x => { x with pstate := 0 }
  | _ => if standby then m.onDrv d fun x => { x with pstate := 0 } else m

/-- R293: the governor at a boundary; `acc` is the frame accepted in the tick that ends. -/
def Mach.governor (m : Mach) (d : Nat) (acc : Option Frame) : Mach :=
  let x := m.drv d
  let dl := x.dclamp
  let kp := gainOf (m.rd (Reg.ACT_PMP_GKP d))
  let e := sat32 (x.sp - x.spd)
  let gi := match acc with
    | some f => clampI (-dl) dl (sat32 (f.duty - mulg e kp))
    | none => clampI (-dl) dl (sat32 (x.gi + mulg e (gainOf (m.rd (Reg.ACT_PMP_GKI d)))))
  m.onDrv d fun x => { x with gi := gi, g := clampI (-dl) dl (sat32 (mulg e kp + gi)) }

/-- A PUMP slot in RUN that its mode permits, started, and with no hall fault, which holds it safe (R288, R290, R294): the number of
its drive. -/
def Mach.pumpRuns (m : Mach) (k : Nat) : Option Nat :=
  if !m.isType k .pump || !m.permitted k then none
  else match m.driveOfSlot k with
    | some d => if (m.drv d).pstate = 1 ∧ !(m.drv d).hallFlt ∧ (m.drv d).granted then some d else none
    | none => none

/-! ### The evaluation (R282) -/

/-- R281, R288, R290: the drive is in a switching state. -/
def Mach.drvSwitching (m : Mach) (d : Nat) : Bool :=
  let x := m.drv d
  let k := m.drvSlot d
  let sector := (m.hall (m.fld (Reg.GDL_DRV_CFG d) 27 24)).sector
  m.permitted k && !x.hallFlt && x.granted && decide (sector < 6) &&
    (if m.isPump d then x.pstate == 1
     else x.sinceFlt && (match m.drvTable d with
       | some t => t.switching x.tab.state
       | none => false))

/-- The frame accepted from a lane in the tick that ends. -/
def Mach.acceptedNow (m : Mach) (k : Nat) : Option Frame := (nth m.lane.slots k).accepted.map (·.1)

/-- R282, R289, R290: what a drive measures at a boundary. -/
def Mach.drvMeasure (m : Mach) (d : Nat) : Mach :=
  let t := m.fld (Reg.GDL_DRV_CFG d) 27 24
  let set := nth ((m.pos.shelf.headD ⟨0, [], []⟩).halls) t
  let inv := set.1.testBit 28
  let skip := set.1.testBit 27
  let exec := (nth m.lane.slots (m.drvSlot d)).exec
  let duty := match exec with
    | some f => f.duty
    | none => 0
  let loud := m.drvSwitching d && decide (m.fld (Reg.ACT_DRV_STALL d) 31 16 * 2 ^ 15 ≤ duty.natAbs)
  m.onDrv d fun x => { x with
    still := set.1.testBit 30, spd := set.2, duty := duty, edge := false, since := x.since + 1
    noEdge := if x.edge || !loud then 0 else x.noEdge + 1
    invRun := if inv then x.invRun + 1 else 0
    skips := (skip :: x.skips).take 64
    clean := if inv || skip then 0 else x.clean + 1 }

/-- R286: the profile of a drive moves on by one tick. -/
def Mach.drvProfile (m : Mach) (d : Nat) : Mach :=
  let x := m.drv d
  let v : Int := (Config.vprof d).toNat
  let goes := x.granted && !x.waiting && !x.endlo && !x.endhi && !x.stall && !x.hallFlt
  let step (goal : Int) : Int := if x.prof < goal then min v (goal - x.prof) else -(min v (x.prof - goal))
  let dv : Int := if !goes then 0 else match x.move with
    | .move _ => match x.target with
      | some t => step (256 * t)
      | none => 0
    | .seekLo => -v
    | .seekHi => step (256 * m.drvSpan d)
    | _ => 0
  m.onDrv d fun x => { x with prof := x.prof + dv, profV := if x.move = .hold then x.profV else dv }

/-- R288 rules 1 and 2: the park-lock drive waits for PLOK, and reverses when PLOK clears during an engage that has not yet shown ATTGT;
after a hall fault only a new action ends what R290 set. -/
def Mach.parkRules (m : Mach) (d n : Nat) : Mach :=
  let x := m.drv d
  if m.drvRole d ≠ 2 ∨ !m.toEngaged d x.move ∨ x.endlo = true ∨ x.endhi = true ∨ x.stall = true ∨ !x.sinceFlt then m
  else if m.act.plok then
    if x.waiting then m.onDrv d fun x => { x with waiting := false, dclamp := m.drvDlim d } else m
  else if x.waiting ∨ x.since = 0 then m.onDrv d fun x => { x with waiting := true, dclamp := 0 }
  else if x.reached then m
  else ((m.takeAction d n (.move 0)).raise 0x2C05 1 (m.drvSlot d)).orr Reg.ACT_IRQ_STAT 4

/-- R282: one drive at the boundary of tick `n`. -/
def Mach.drvEval (m : Mach) (n : Nat) (standby : Bool) (d : Nat) : Mach :=
  if m.drvRole d = 0 then m
  else
    let m := m.drvMeasure d
    let hall := m.hallFaultNow d
    let m := (m.hallFault d).hallFaultClear d
    let m := if hall then m else m.driveBlocked d
    let m := m.onDrv d fun x => { x with
      granted := x.granted || m.pwr.granted.contains d, reached := x.reached || m.atTarget d }
    if m.isPump d then (m.pumpEval d n standby).governor d (m.acceptedNow (m.drvSlot d))
    else
      let m := if m.permitted (m.drvSlot d) then m else m.withdrawStart d
      ((m.drvTableEval d n).parkRules d n).drvProfile d

/-- R288 rules 4 and 6: ENGAGED. -/
def Mach.engagedEval (m : Mach) : Mach :=
  match (List.range 6).find? fun d => m.drvRole d == 2 with
  | none => m
  | some d =>
    let x := m.drv d
    let e := x.ref && x.still && decide (((x.posn - m.drvPos d 1).natAbs : Int) ≤ m.drvEndwin d)
    let fell := m.act.engaged && !e && m.mode == .charge
    let m := m.onAct fun a => { a with engaged := e }
    if fell then (m.chgF3 0x2C07 [d]).orr Reg.ACT_IRQ_STAT 4 else m

/-- R283: the signals S0 to S6 of a drive; a SPAN or BASE of 0 leaves a quotient open (log entry 2). -/
def Mach.drvSignals (m : Mach) (d : Nat) : List Int × Mach :=
  let x := m.drv d
  let cfg := m.rd (Reg.ACT_DRV_CFG d)
  let set := m.acqHead
  let span := (m.drvSpan d).toNat
  if m.isPump d then ([x.spd, 0, set.val (cfg.bits 23 16), set.val (cfg.bits 15 8), x.dclamp, x.sp, 0], m)
  else
    let pu (v : Int) (den : Nat) (m : Mach) : Int × Mach :=
      if den = 0 then (fun r : Nat × Mach => (signed 32 r.1, r.2)) (m.freeVal 32) else (sat32 (tdiv (v * 2 ^ 29) den), m)
    let s1 := pu x.posn span m
    let s5 := pu x.prof (256 * span) s1.2
    let base := m.fld (Reg.POS_HL_STILL (m.fld (Reg.GDL_DRV_CFG d) 27 24)) 31 16
    let s6 := pu (x.profV * 400000000) (256 * 6 * base * m.period) s5.2
    ([x.spd, s1.1, set.val (cfg.bits 23 16), set.val (cfg.bits 15 8), x.dclamp, s5.1, s6.1], s6.2)

/-- R282: the ACT set of tick `n` frozen, and the registers that show it. -/
def Mach.actFreeze (m : Mach) (n : Nat) : Mach :=
  let r := (List.range 6).foldl (fun (a : List ActSetDrive × Mach) d =>
    let s := a.2.drvSignals d
    (a.1 ++ [⟨decide (m.drvRole d ≠ 0) && m.drvSwitching d, s.1, (m.drv d).dclamp⟩], s.2)) ([], m)
  let m : Mach := r.2
  let m : Mach := m.onAct fun a => { a with shelf := (⟨n, r.1⟩ :: a.shelf.filter (·.tag != n)).take 32 }
  let m := m.wrN Reg.ACT_SNAP (n % 2 ^ 32)
  let m := (m.setBit Reg.ACT_STATUS 7 m.act.engaged).setBit Reg.ACT_STATUS 6 m.act.plok
  forN 6 (fun d m =>
    let x := m.drv d
    if absentReg m.variant ⟨"", 0, [], .drive, .result, 0, 0, 0, .value 0, "", false⟩ [d] then m
    else
      let cond := if m.isPump d || m.drvRole d == 0 then 0 else m.drvCond d
      let m := m.wrN (Reg.ACT_DRV_STAT d) (x.tab.state % 64 * 2 ^ 26 + x.pstate * 2 ^ 24 + x.gov.toNat * 2 ^ 23 + cond)
      (m.wrS (Reg.ACT_DRV_POSN d) x.posn).wrN (Reg.ACT_DRV_PIN d) (x.invalid.toNat * 2 ^ 31 + x.pin)) m

/-- R282: ACT evaluates every drive at the boundary of tick `n`; `standby` at an entry to STANDBY. -/
def Mach.actEval (m : Mach) (n : Nat) (standby : Bool) : Mach :=
  let m := m.plokEval
  let m := forN 6 (fun d m => m.drvEval n standby d) m
  (m.engagedEval).actFreeze n

/-- R282: the ACT set tagged with a tick. -/
def Mach.actSet (m : Mach) (n : Nat) : ActSet := (m.act.shelf.find? (·.tag == n)).getD ⟨n, []⟩

/-- R283: Transform of a BLDC or PUMP slot in tick `n`. -/
def Mach.transformDrive (m : Mach) (l : Lane) (k n : Nat) : Mach :=
  match m.driveOfSlot k with
  | none => m
  | some d =>
    let s := (nth (m.actSet n).drives d).sig
    m.setInputs l k ((List.range 16).map fun i => nth s i)

/-! ### Hall edges and the drive supply -/

/-- R100, R212, R283, R289: a hall change reaches POS, GDL's commutation, and the position of every drive on the triplet. -/
def Mach.hallChange (m : Mach) (t state : Nat) : Mach :=
  let before := (m.hall t).pos
  let m := m.hallEdge t state
  let delta := (m.hall t).pos - before
  forN 6 (fun d m =>
    if m.drvRole d ≠ 0 ∧ m.fld (Reg.GDL_DRV_CFG d) 27 24 = t then
      (m.onDrv d fun x => { x with posn := x.posn + delta, edge := x.edge || decide (delta ≠ 0) }).commutate d
    else m) m

/-- R217: the low-voltage drive supply is low: every low-voltage channel is off, and event 0x2001 for each leg in use. -/
def Mach.supplyLow (m : Mach) : Mach :=
  if m.gate.lvLow then m
  else
    let m := m.onGate fun g => { g with lvLow := true }
    let legs := (List.range 24).filter fun j => (m.slotOfLeg j).isSome
    (forL legs (fun j m => m.raise 0x2001 1 ((m.slotOfLeg j).getD 0xFF)) m).orr Reg.GDL_IRQ_STAT (if legs.isEmpty then 0 else 1)

/-! ### Writes at their accession tick -/

/-- R285, R292: ACT_DRV_REQ takes effect. -/
def Mach.drvRequest (m : Mach) (d : Nat) (v : Word) : Mach :=
  let m := (m.wr (Reg.ACT_DRV_REQ d) (v &&& 0x3F#32)).onDrv d fun x => { x with req := v.bits 5 0 }
  if v.bit 31 && (m.drv d).pstate == 3 then m.onDrv d fun x => { x with pstate := 0 } else m

/-- R16, R290, R292: an F3 or F4 cause of a drive's slot takes effect: it switches again through a table action or RETRY. -/
def Mach.driveCause (m : Mach) (k : Nat) : Mach :=
  match m.driveOfSlot k with
  | none => m
  | some d =>
    if m.isPump d then (if (m.drv d).pstate = 1 ∧ !(m.drv d).hallFlt then m.pumpRetry d else m)
    else (m.withdrawStart d).onDrv d fun x => { x with granted := false }

/-! ### The commands -/

/-- HALL_EDGE (R100, R212, R283). -/
def execHallEdge (cyc : Nat) (t : Fin 6) (state : BitVec 3) (s : State) : Host.Outcome State Fault Refusal :=
  run s cyc fun m => m.hallChange t state.toNat

/-- DRIVE_SUPPLY_LOW (R217). -/
def execDriveSupplyLow (cyc : Nat) (s : State) : Host.Outcome State Fault Refusal := run s cyc fun m => m.supplyLow

/-- DRIVE_SUPPLY_RESTORED (R295). -/
def execDriveSupplyRestored (cyc : Nat) (s : State) : Host.Outcome State Fault Refusal :=
  run s cyc fun m => m.onGate fun g => { g with lvLow := false }

/-- DRIVE_BLOCKED (R289). -/
def execDriveBlocked (cyc : Nat) (d : Fin 6) (s : State) : Host.Outcome State Fault Refusal :=
  run s cyc fun m => if m.drvRole d = 0 ∨ m.hallFaultNow d = true then m else m.driveBlocked d

/-- HALL_FAULT (R290). -/
def execHallFault (cyc : Nat) (d : Fin 6) (s : State) : Host.Outcome State Fault Refusal :=
  run s cyc fun m => if m.drvRole d = 0 then m else m.hallFault d

/-- HALL_FAULT_CLEAR (R290). -/
def execHallFaultClear (cyc : Nat) (d : Fin 6) (s : State) : Host.Outcome State Fault Refusal :=
  run s cyc fun m => if m.drvRole d = 0 then m else m.hallFaultClear d

/-- PUMP_RETRY_END (R292). -/
def execPumpRetryEnd (cyc : Nat) (d : Fin 6) (s : State) : Host.Outcome State Fault Refusal :=
  run s cyc fun m => if m.isPump d then m.pumpRetryEnd d m.seq else m

/-- PUMP_COMMAND_MEASUREMENT (R291): of pump `p`, drive 4 + p. -/
def execPumpCommandMeasurement (cyc : Nat) (p : Fin 2) (value : Nat) (freq : Nat) (held : Bool) (s : State) :
    Host.Outcome State Fault Refusal :=
  run s cyc fun m => m.pumpMeasure (4 + p) value freq held

/-- ACT_DRIVE_REQUEST (R285): a write of ACT_DRV_REQ. -/
def execActDriveRequest (cyc : Nat) (who : Writer) (d : Fin 6) (value : Word) (s : State) : Host.Outcome State Fault Refusal :=
  run s cyc fun m => m.laneOnly who fun l m => m.asyncWrite l (Reg.ACT_DRV_REQ d) (value &&& 0x8000003F#32)

/-- ACT_PUMP_FAULT_CLEAR (R292): a write of ACT_DRV_REQ with CLR. -/
def execActPumpFaultClear (cyc : Nat) (who : Writer) (d : Fin 6) (value : Word) (s : State) : Host.Outcome State Fault Refusal :=
  run s cyc fun m => m.laneOnly who fun l m => m.asyncWrite l (Reg.ACT_DRV_REQ d) ((value &&& 0x3F#32) ||| 0x80000000#32)

/-- ACT_PUMP_SETPOINT (R291): a write of ACT_PMP_SPD. -/
def execActPumpSetpoint (cyc : Nat) (who : Writer) (d : Fin 6) (value : Word) (s : State) : Host.Outcome State Fault Refusal :=
  run s cyc fun m => m.laneOnly who fun l m => m.asyncWrite l (Reg.ACT_PMP_SPD d) value

end Sys2Proof.Machine
end

