-- ==== Sys2Proof/Machine/Time.lean ====
section
/-! DEFINITION. The timebase's trim, the Catalogue with its flash copy, and the fault capture (R376 to R386, R392, R393). -/

namespace Sys2Proof.Machine

/-- A TIME interrupt (R393). -/
def Mach.timeIrq (m : Mach) (bit : Nat) : Mach := m.orr Reg.TIME_IRQ_STAT (2 ^ bit)

/-! ### Rate and slew (R377) -/

/-- R377: TIME_RATE, clamped at ±200 ppm. -/
def Mach.rateWrite (m : Mach) (v : Word) : Mach :=
  let r := clampI (-4294967) 4294967 v.toInt
  let m := m.wrS Reg.TIME_RATE r
  if r = v.toInt then m
  else ((m.setBit Reg.TIME_STATUS 1 true).raise 0x3C05 0).timeIrq 3

/-- R377: TIME_SLEW adds to the pending slew, kept here in 1/64 unit, saturating at ±2^31 − 1 units. -/
def Mach.slewWrite (m : Mach) (v : Word) : Mach :=
  let lim : Int := 64 * (2 ^ 31 - 1)
  let s := clampI (-lim) lim (m.time.slew + 64 * v.toInt)
  (m.onTime fun t => { t with slew := s }).setBit Reg.TIME_STATUS 0 (s != 0)

/-- R392: TIME_SLEW reads the pending units, rounded toward zero. -/
def Mach.slewRead (m : Mach) : Word := wordOf (tdiv m.time.slew 64)

/-- R377: the slew has drained. -/
def Mach.slewDone (m : Mach) : Mach := if m.time.slew = 0 then m.setBit Reg.TIME_STATUS 0 false else m

/-- R380: order of release: stamp, block index and code, ORIGIN. -/
def Event.before (x y : Event) : Bool :=
  decide (x.time < y.time) || (x.time == y.time && (decide (x.code < y.code) || (x.code == y.code && decide (x.origin ≤ y.origin))))

/-! ### The fault capture (R384 to R386) -/

/-- STATE of TIME_CAPSTAT. -/
def Mach.capState (m : Mach) : Nat := m.fld Reg.TIME_CAPSTAT 31 29

/-- The capture takes a state; VALID shows the lines in use. -/
def Mach.setCap (m : Mach) (c : Nat) : Mach :=
  (m.setFld Reg.TIME_CAPSTAT 31 29 c).setFld Reg.TIME_CAPSTAT 9 0 (m.time.lines.length - 1)

/-- R385: an event meets the trigger condition; TRIGCLS 5 to 7 never triggers. -/
def Mach.capMatches (m : Mach) (e : Event) : Bool :=
  let c := m.fld Reg.TIME_CAPCFG 28 26
  (decide (c ≤ 4) && decide (c ≤ e.cls)) || (m.bit Reg.TIME_CAPTRIG 31 && m.fld Reg.TIME_CAPTRIG 15 0 == e.code)

/-- R385: the first line after the event's stamp, if one stands already, is the trigger line; the flag is bit 0. -/
def markTrigger (stamp : Nat) : List CapLine → List CapLine
  | [] => []
  | x :: t => if stamp < x.t0 then { x with flags := x.flags ||| 1 } :: t else x :: markTrigger stamp t

/-- R385: an event becomes the capture's trigger. -/
def Mach.capTake (m : Mach) (e : Event) : Mach :=
  let after := (m.time.lines.filter fun x => decide (e.time < x.t0)).length
  (m.onTime fun t => { t with
    trigger := some e, trigPlaced := decide (0 < after), postLeft := m.fld Reg.TIME_CAPCFG 25 16 + 1 - after
    lines := markTrigger e.time (t.lines.map fun x => { x with flags := x.flags / 2 * 2 }) }).setCap 2

/-- R380, R385: an event delivered to an armed capture: the first in the order of release is the trigger, and a further one sets
MORE. -/
def Mach.capTrigger (m : Mach) (e : Event) : Mach :=
  if !m.capMatches e || decide (e.time < m.time.armedSince) then m
  else if m.capState = 1 then m.capTake e
  else if m.capState = 2 then
    (if m.time.trigger.any fun x => e.before x && e != x then m.capTake e else m).setBit Reg.TIME_CAPSTAT 28 true
  else m

/-- R384: the value of a capture source. -/
def Mach.capSource (m : Mach) (c : Nat) : Word :=
  let w := m.rd (Reg.TIME_CAPSRC c)
  let i := w.bits 7 0
  let f : Option Frame := if i < 16 then (nth m.lane.slots i).accepted.map (·.1) else none
  let pos := m.pos.shelf.headD ⟨0, [], []⟩
  let chan : ChanSample := pos.chans.getD i ⟨0, 0, 0, 0⟩
  let frame (g : Frame → Int) : Word := match f with
    | some f => wordOf (g f)
    | none => 0#32
  match w.bits 31 28 with
  | 1 => if i < m.acqHead.acc.length then wordOf (nth m.acqHead.acc i).value else 0#32
  | 2 => if i < m.acqHead.trk.length then wordOf (nth m.acqHead.trk i).min else 0#32
  | 3 => if i < m.acqHead.trk.length then wordOf (nth m.acqHead.trk i).max else 0#32
  | 4 => BitVec.ofNat 32 chan.ang
  | 5 => wordOf chan.spd
  | 6 => frame (·.hva)
  | 7 => frame (·.hvb)
  | 8 => frame (·.hdth)
  | 9 => frame (·.hudc)
  | _ => 0#32

/-- R385: ARM takes effect at a boundary. -/
def Mach.capArm (m : Mach) : Mach :=
  if !m.time.armPending then m
  else
    let m := m.onTime fun t => { t with
      armPending := false, lines := [], armedSince := m.t0, trigger := none, trigPlaced := false, postLeft := 0 }
    ((m.setBit Reg.TIME_CAPCFG 31 false).setBit Reg.TIME_CAPSTAT 28 false).setCap 1

/-- R384: an armed capture writes one line at a boundary; `ev` is the number of events stamped in the ended tick. -/
def Mach.captureLine (m : Mach) (ev : Nat) : Mach :=
  let m := m.capArm
  let t := m.time
  if m.capState = 1 ∨ (m.capState = 2 ∧ 0 < t.postLeft) then
    let trig := m.capState == 2 && !t.trigPlaced
    let line : CapLine := ⟨m.t0, m.seq % 2 ^ 32,
      trig.toNat + 2 * (m.bit Reg.LANE_STATUS 15).toNat + 4 * m.sys.changed.toNat, min ev 0xFFFF,
      (List.range 12).map m.capSource⟩
    let lines := t.lines ++ [line]
    (m.onTime fun t => { t with
      lines := lines.drop (lines.length - 1024), trigPlaced := t.trigPlaced || trig
      postLeft := t.postLeft - 1 }).setCap m.capState
  else m

/-- R385: after POST lines the store freezes; with FLASH set its copy begins. -/
def Mach.capFreeze (m : Mach) : Mach :=
  if m.capState = 2 ∧ m.time.trigPlaced ∧ m.time.postLeft = 0 then
    let code := (m.time.trigger.map (·.code)).getD 0
    ((m.setCap (if m.bit Reg.TIME_CAPCFG 29 then 4 else 3)).raise 0x3C03 0 0xFF (leBytes 2 code)).timeIrq 1
  else m

/-- The 16 words of a line (R384). -/
def CapLine.words (x : CapLine) : List Word :=
  [BitVec.ofNat 32 x.t0, BitVec.ofNat 32 (x.t0 / 2 ^ 32), BitVec.ofNat 32 x.seq, BitVec.ofNat 32 (x.flags + 2 ^ 16 * x.evcnt)] ++
    x.ch

/-- A write of TIME_CAPCFG (R385, R392). -/
def Mach.capConfig (m : Mach) (v : Word) : Mach :=
  let armed := m.capState == 1 || m.capState == 2
  let m := if armed then m else m.wr Reg.TIME_CAPCFG (m.rd Reg.TIME_CAPCFG &&& 0x80000000#32 ||| (v &&& 0x3FFF0000#32))
  let m := if v.bit 30 then
    (if armed then m.setCap 0 else m).onTime fun t => { t with armPending := false } else m
  let m := if v.bit 30 then m.setBit Reg.TIME_CAPCFG 31 false else m
  if v.bit 31 ∧ m.capState ≠ 4 then
    (m.onTime fun t => { t with armPending := true }).setBit Reg.TIME_CAPCFG 31 true
  else m

/-! ### Records (R381) -/

/-- R383: the event also goes to the flash Catalogue. -/
def Event.toFlash (e : Event) : Bool := decide (1 ≤ e.cls) || e.code == 0x3C01

/-- R381: the 32 bytes of a Catalogue record. -/
def Event.record (e : Event) (seq : Nat) : List Nat :=
  let info := e.cls % 8 + e.origin % 4 * 8 + e.replay.toNat * 32 + e.toFlash.toNat * 64
  let body := leBytes 8 e.time ++ leBytes 4 e.tick ++ leBytes 2 e.code ++ [info, e.slot] ++ leBytes 2 seq ++ padTo 10 e.data
  body ++ leBytes 4 (crc32c body)

/-! ### The Collator and the queue (R380, R382) -/

/-- The first event in the order of release. -/
def firstEvent : List Event → Option Event
  | [] => none
  | x :: t => match firstEvent t with
    | some y => if x.before y then some x else some y
    | none => some x

/-- QUEUED of TIME_CATSTAT. -/
def Mach.showQueue (m : Mach) : Mach := m.setFld Reg.TIME_CATSTAT 31 22 m.time.queue.length

/-- R382: a discard counts, and the first of a run raises 0x3C02. -/
def Mach.catDiscard (m : Mach) : Mach :=
  let told := m.time.discarding
  let m := (m.incSat Reg.TIME_CATSTAT 15 0).onTime fun t => { t with discarding := true }
  if told then m else (m.raise 0x3C02 0).timeIrq 0

/-- R382: a record into the stream queue of 512. -/
def Mach.catQueue (m : Mach) (e : Event) (seq : Nat) : Mach :=
  let q := m.time.queue
  if q.length < 512 then (m.onTime fun t => { t with queue := q ++ [(e, seq)], discarding := false }).showQueue
  else if e.cls = 0 then m.catDiscard
  else match q.find? fun x => x.1.cls == 0 with
    | some x => (m.onTime fun t => { t with queue := q.erase x ++ [(e, seq)] }).catDiscard
    | none => m.catDiscard

/-- R383: a record into the flash queue of 64. -/
def Mach.flashQueue (m : Mach) (e : Event) (seq : Nat) : Mach :=
  if !e.toFlash then m
  else if m.time.flashQueue.length < 64 then m.onTime fun t => { t with flashQueue := t.flashQueue ++ [(e, seq)] }
  else ((m.incSat Reg.TIME_CATSEQ 31 16).raise 0x3C06 0).timeIrq 0

/-- R380, R381: the Collator releases its first event once the stamp is 2 µs old. -/
def Mach.collatorRelease (m : Mach) : Mach :=
  match firstEvent m.time.collator with
  | some e =>
    if m.now < e.time + 4000 then m
    else
      let seq := m.time.nextSeq % 2 ^ 16
      let m := m.onTime fun t => { t with
        collator := t.collator.erase e, nextSeq := t.nextSeq + 1
        trigSeq := if t.trigger == some e then seq else t.trigSeq }
      let m := m.setFld Reg.TIME_CATSEQ 15 0 seq
      (m.catQueue e seq).flashQueue e seq
  | none => m

/-- R382: the writer offers `n` records to port 4 of the service lane; what the port drops stays queued. -/
def Mach.catStream (m : Mach) (n : Nat) : Mach :=
  let recs := m.time.queue.take (min (max n 1) 64)
  if !m.bit Reg.TIME_CATCFG 31 || recs.isEmpty then m
  else
    let r := m.fld Reg.TIME_CATCFG 3 0
    let x := m.streamTake m.service r 4 (recs.flatMap fun q => q.1.record q.2)
    if x.1 then (x.2.onTime fun t => { t with queue := t.queue.drop recs.length }).showQueue
    else x.2.streamDrop m.service r

/-! ### The flash Catalogue (R383) -/

/-- The first byte of a sector of the flash Catalogue. -/
def catSector (i : Nat) : Nat := flashBase + 0x07EFE000 + 4096 * i

/-- A valid header of a sector: its number and its boot. -/
def catHeader (mem : List Host.Cell) (i : Nat) : Option (Nat × Nat) :=
  let b := Memory.readN mem (catSector i) 32
  let f (o : Nat) := ofLeBytes ((b.drop o).take 4)
  if f 0 = 0x53544143 ∧ f 28 = crc32c (b.take 28) then some (f 4, f 8) else none

/-- A valid record of a sector: its code and its 10 bytes of DATA. -/
def catRecord (mem : List Host.Cell) (i j : Nat) : Option (Nat × List Nat) :=
  let b := Memory.readN mem (catSector i + 32 * (j + 1)) 32
  if ofLeBytes (b.drop 28) = crc32c (b.take 28) then some (ofLeBytes ((b.drop 12).take 2), (b.drop 18).take 10) else none

/-- A record place that has not been programmed. -/
def catBlank (mem : List Host.Cell) (i j : Nat) : Bool := (Memory.readN mem (catSector i + 32 * (j + 1)) 32).all (· == 0xFF)

/-- The sectors with a valid header: index, number, boot. -/
def catSectors (mem : List Host.Cell) : List (Nat × Nat × Nat) :=
  (List.range 256).filterMap fun i => (catHeader mem i).map fun h => (i, h)

/-- The sector that ends the log: the highest number (R383). -/
def catEnd (mem : List Host.Cell) : Option (Nat × Nat × Nat) :=
  (catSectors mem).foldl (fun x y => match x with
    | some z => if z.2.1 < y.2.1 then some y else some z
    | none => some y) none

/-- R383: the number of the new boot. -/
def bootNumber (mem : List Host.Cell) : Nat :=
  match catEnd mem with
  | none => 1
  | some (i, _, h) =>
    let hs := (catSectors mem).map fun s => s.2.2
    let recs := (List.range 127).filterMap fun j => match catRecord mem i j with
      | some (0x3C01, d) => some (h + (ofLeBytes (d.drop 8) + 2 ^ 16 - h % 2 ^ 16) % 2 ^ 16)
      | _ => none
    (hs ++ recs).foldl max 0 + 1

/-- R383: where the writer goes on after boot: the sector that ends the log, and the place after its last programmed one. -/
def Mach.catScan (m : Mach) (mem : List Host.Cell) : Mach :=
  match catEnd mem with
  | none => m.onTime fun t => { t with flashSector := 0, flashSlot := 127, flashSectorNum := 0 }
  | some (i, n, _) =>
    let used := ((List.range 127).filter fun j => !catBlank mem i j).foldl (fun x j => max x (j + 1)) 0
    m.onTime fun t => { t with flashSector := i, flashSlot := used, flashSectorNum := n }

/-- R383: the sector that is erased next: one without a valid header, else the one with the lowest number. -/
def catVictim (mem : List Host.Cell) : Nat :=
  let hs := catSectors mem
  match (List.range 256).find? fun i => !hs.any fun h => h.1 == i with
  | some i => i
  | none => ((hs.foldl (fun (x : Option (Nat × Nat × Nat)) y => match x with
      | some z => if y.2.1 < z.2.1 then some y else some z
      | none => some y) none).map (·.1)).getD 0

/-- R383: the full sector is left for an erased one with a new header. -/
def Mach.catOpen (m : Mach) (mem : List Host.Cell) : Mach × List Host.Cell :=
  if m.time.flashSlot < 127 then (m, mem)
  else
    let i := catVictim mem
    let n := m.time.flashSectorNum + 1
    let body := leBytes 4 0x53544143 ++ leBytes 4 n ++ leBytes 4 (m.rd Reg.TIME_BOOT).toNat ++ List.replicate 16 0
    let mem := Memory.clear mem (catSector i) (catSector (i + 1))
    (m.onTime fun t => { t with flashSector := i, flashSlot := 0, flashSectorNum := n },
      Memory.writeL mem (catSector i) (body ++ leBytes 4 (crc32c body)))

/-- R383: the oldest record of the flash queue written; one whose verification fails leaves bytes that the rules do not state. -/
def Mach.catWrite (m : Mach) (mem : List Host.Cell) (ok : Bool) : Mach × List Host.Cell :=
  match m.time.flashQueue with
  | [] => (m, mem)
  | q :: rest =>
    let x := m.catOpen mem
    let a := catSector x.1.time.flashSector + 32 * (x.1.time.flashSlot + 1)
    let m := x.1.onTime fun t => { t with flashQueue := rest, flashSlot := t.flashSlot + 1 }
    if ok then (m, Memory.writeL x.2 a (q.1.record q.2))
    else
      let f := m.freeBytes 32
      ((((f.2.incSat Reg.TIME_CATSEQ 31 16).raise 0x3C06 0).timeIrq 0), Memory.writeL x.2 a f.1)

/-- R386: the frozen store copied to a flash slot, with its header. -/
def Mach.capCopy (m : Mach) (mem : List Host.Cell) : Mach × List Host.Cell :=
  if m.capState ≠ 4 then (m, mem)
  else
    let a := flashBase + (if m.time.nextCopySlot = 0 then 0x07EDC000 else 0x07EED000)
    let rec_ := match m.time.trigger with
      | some e => e.record m.time.trigSeq
      | none => List.replicate 32 0
    let head := padTo 60 (leBytes 4 0x50414346 ++ leBytes 4 (m.rd Reg.TIME_BOOT).toNat ++ rec_ ++
      leBytes 4 (m.fld Reg.TIME_CAPSTAT 9 0))
    let body := m.time.lines.flatMap fun x => x.words.flatMap fun w => leBytes 4 w.toNat
    let mem := Memory.clear mem a (a + 0x11000)
    let mem := Memory.writeL mem a (head ++ leBytes 4 (crc32c head) ++ body)
    ((((m.setCap 3).onTime fun t => { t with nextCopySlot := 1 - t.nextCopySlot }).raise 0x3C04 0).timeIrq 2, mem)

/-- R392: the word that TIME_CAP_ADDR names, oldest line first; 0 unless frozen. -/
def Mach.capWord (m : Mach) : Word :=
  let w := m.fld Reg.TIME_CAP_ADDR 13 0
  if m.capState = 3 ∨ m.capState = 4 then
    match m.time.lines[w / 16]? with
    | some x => x.words.getD (w % 16) 0#32
    | none => 0#32
  else 0#32

/-! ### The TIME rows -/

/-- TIME_RATE_WRITE (R377). -/
def execTimeRateWrite (cyc : Nat) (who : Writer) (value : Word) (s : State) : Host.Outcome State Fault Refusal :=
  run s cyc fun m => m.laneOnly who fun l m => m.devWrite l Reg.TIME_RATE value fun m => m.rateWrite value

/-- TIME_SLEW_WRITE (R377). -/
def execTimeSlewWrite (cyc : Nat) (who : Writer) (value : Word) (s : State) : Host.Outcome State Fault Refusal :=
  run s cyc fun m => m.laneOnly who fun l m => m.devWrite l Reg.TIME_SLEW value fun m => m.slewWrite value

/-- TIME_SLEW_COMPLETE (R377). -/
def execTimeSlewComplete (cyc : Nat) (s : State) : Host.Outcome State Fault Refusal := run s cyc fun m => m.slewDone

/-- EVENT_DELIVERY (R380, R385): the event at place `i` of those raised reaches the Collator, and the capture sees it. -/
def execEventDelivery (cyc : Nat) (i : Nat) (s : State) : Host.Outcome State Fault Refusal :=
  run s cyc fun m => match m.time.raised[i]? with
    | some e => (m.onTime fun t => { t with raised := t.raised.eraseIdx i, collator := t.collator ++ [e] }).capTrigger e
    | none => m

/-- COLLATOR_RELEASE (R380). -/
def execCollatorRelease (cyc : Nat) (s : State) : Host.Outcome State Fault Refusal := run s cyc fun m => m.collatorRelease

/-- CATALOGUE_STREAM (R382): `n` records, 1 to 64. -/
def execCatalogueStream (cyc : Nat) (n : Nat) (s : State) : Host.Outcome State Fault Refusal :=
  run s cyc fun m => m.catStream n

/-- FLASH_CATALOGUE_WRITE (R383): `ok` says that the write verified. -/
def execFlashCatalogueWrite (cyc : Nat) (ok : Bool) (s : State) : Host.Outcome State Fault Refusal :=
  runMem s cyc fun m mem => m.catWrite mem ok

/-- A write of TIME_CAPCFG as a command. -/
def capCfgWrite (cyc : Nat) (who : Writer) (v : Word) (s : State) : Host.Outcome State Fault Refusal :=
  run s cyc fun m => m.laneOnly who fun l m => m.devWrite l Reg.TIME_CAPCFG v fun m => m.capConfig v

/-- CAPTURE_ARM (R385): the write of TIME_CAPCFG with ARM. -/
def execCaptureArm (cyc : Nat) (who : Writer) (value : Word) (s : State) : Host.Outcome State Fault Refusal :=
  capCfgWrite cyc who (value ||| 0x80000000#32) s

/-- CAPTURE_DISARM (R392): the write of TIME_CAPCFG with DISARM. -/
def execCaptureDisarm (cyc : Nat) (who : Writer) (value : Word) (s : State) : Host.Outcome State Fault Refusal :=
  capCfgWrite cyc who ((value ||| 0x40000000#32) &&& 0x7FFFFFFF#32) s

/-- CAPTURE_FREEZE (R385). -/
def execCaptureFreeze (cyc : Nat) (s : State) : Host.Outcome State Fault Refusal := run s cyc fun m => m.capFreeze

/-- CAPTURE_FLASH_COPY (R386): the copy completes. -/
def execCaptureFlashCopy (cyc : Nat) (s : State) : Host.Outcome State Fault Refusal :=
  runMem s cyc fun m mem => m.capCopy mem

/-- CAPTURE_DATA_READ (R392): the word, and the address advances. -/
def execCaptureDataRead (cyc : Nat) (s : State) : Host.Outcome State Fault Refusal :=
  run s cyc fun m => (m.say (.data m.capWord)).incMod Reg.TIME_CAP_ADDR 13 0

end Sys2Proof.Machine
end

