-- ==== Sys2Proof/Machine/Lanes.lean ====
section
/-! DEFINITION. Lanes, their journals and checkpoints, recovery, restart and arrangement (R299 to R345); the Sieve and Bedrock's
judgement stand in Sieve.lean, replay and resync in Replay.lean. -/

namespace Sys2Proof.Machine

/-- A slot's part of the Sieve. -/
def Mach.sv (m : Mach) (k : Nat) : SieveSlot := nth m.lane.slots k

/-- A slot's part of the Sieve changed. -/
def Mach.onSv (m : Mach) (k : Nat) (f : SieveSlot → SieveSlot) : Mach := m.onLb fun b => { b with slots := upd b.slots k f }

/-- A LANE interrupt in both lanes' copies (R344). -/
def Mach.laneIrq (m : Mach) (bit : Nat) : Mach := m.orrBoth Reg.LANE_L_IRQ_STAT (2 ^ bit)

/-- The slots of the slot map. -/
def Mach.mapped (m : Mach) : List Nat := (List.range 16).filter m.hasSlot

/-! ### Journals and the inbox (R306 to R308) -/

/-- R308: the bytes of an entry. -/
def JEntry.bytes (e : JEntry) : List Nat :=
  let head := leBytes 8 e.time ++ leBytes 4 e.accTick ++ leBytes 2 e.num ++ [e.kind, e.payload.length] ++ leBytes 2 e.src ++
    [e.origin, e.deferred.toNat + 2 * e.merged.toNat] ++ leBytes 4 e.addr ++ leBytes 4 e.value
  let pay := padTo ((e.payload.length + 15) / 16 * 16) e.payload
  head ++ leBytes 4 (crc32c (head ++ pay)) ++ pay

/-- The entry's little-endian words. -/
def JEntry.words (e : JEntry) : List Nat :=
  let b := e.bytes
  (List.range (b.length / 4)).map fun i => ofLeBytes ((b.drop (4 * i)).take 4)

/-- R307: entries of which some word still stands in the ring of 65,536 bytes, oldest first; `n` is what newer ones take. -/
def retained (n : Nat) : List JEntry → List JEntry
  | [] => []
  | e :: t => if n < 65536 then e :: retained (n + entryBytes e.payload) t else []

/-- R307: an entry appended to a lane's journal. -/
def LaneState.journalAdd (s : LaneState) (e : JEntry) : LaneState :=
  let e := { e with num := s.jNext % 2 ^ 16, start := s.jWord }
  { s with
    journal := (retained 0 (e :: s.journal.reverse)).reverse, jNext := s.jNext + 1
    jWord := (s.jWord + entryBytes e.payload / 4) % 16384 }

/-- R343: NUM of the oldest entry that is whole, and of the next one. -/
def LaneState.extent (s : LaneState) : Nat × Nat :=
  let whole := (s.journal.reverse.foldl (fun (x : Nat × List JEntry) e =>
    let n := x.1 + entryBytes e.payload
    (n, if n ≤ 65536 then e :: x.2 else x.2)) (0, [])).2
  ((whole.head?.map (·.num)).getD (s.jNext % 2 ^ 16), s.jNext % 2 ^ 16)

/-- LANE_L_JHEAD shows the extent. -/
def Mach.showJournal (m : Mach) (l : Lane) : Mach :=
  let x := (m.lanes.get l).extent
  m.wrN (Reg.LANE_L_JHEAD l.ix) (x.1 * 2 ^ 16 + x.2)

/-- R307, R308: at the boundary of tick `n`, the marker and then the tick's entries go to both journals. -/
def Mach.journalTick (m : Mach) (n : Nat) (es : List JEntry) : Mach :=
  let total := (es.map fun e => entryBytes e.payload).sum
  let mark : JEntry := ⟨m.t0, n % 2 ^ 32, 0, 0, 0, 0, false, false, m.mode.code + 16 * m.arr, total, [], 0⟩
  ((m.onLanes fun _ s => (mark :: es).foldl LaneState.journalAdd s).showJournal .a).showJournal .b

/-- The journalled entries of a tick, without its marker. -/
def LaneState.entriesOf (s : LaneState) (n : Nat) : List JEntry :=
  s.journal.filter fun e => e.accTick == n % 2 ^ 32 && e.kind != 0

/-- The marker of a tick: mode in bits 2 to 0, arrangement in bits 5 and 4 (R308). -/
def LaneState.markerOf (s : LaneState) (n : Nat) : Option JEntry := s.journal.find? fun e => e.accTick == n % 2 ^ 32 && e.kind == 0

/-- R306: the inbox of the tick that a lane executes. -/
def Mach.openInbox (m : Mach) (l : Lane) (n : Nat) : Mach :=
  let es := (m.lanes.get l).entriesOf n
  let m := m.onLane l fun s => { s with inbox := es.flatMap JEntry.words }
  m.wrN (Reg.LANE_L_IN_CNT l.ix) (min ((es.map fun e => entryBytes e.payload).sum) 0xFFFF * 2 ^ 16 + es.length % 2 ^ 16)

/-- R306: the next word of the inbox; 0 after the last. -/
def Mach.inboxRead (m : Mach) (l : Lane) : Mach :=
  let w := (m.lanes.get l).inbox.headD 0
  { m.onLane l fun s => { s with inbox := s.inbox.drop 1 } with reply := .data (BitVec.ofNat 32 w) }

/-- R343: the journal word that LANE_JRN_ADDR names; the newest entry that covers it gives it, and a word never written reads 0. -/
def Mach.journalWord (m : Mach) : Nat :=
  let a := m.rd Reg.LANE_JRN_ADDR
  let w := a.bits 13 0
  let off (e : JEntry) := (w + 16384 - e.start) % 16384
  match (m.lanes.get (Lane.ofIx (a.bits 31 31))).journal.reverse.find? fun e => decide (4 * off e < entryBytes e.payload) with
  | some e => e.words.getD (off e) 0
  | none => 0

/-! ### Lane registers by address -/

/-- A register of a lane's copy of LAW, FOC or MOD. -/
def laneBlockReg (l : Lane) (a : Nat) : Bool := decide (4 ≤ a / 2 ^ 16) && decide (a / 2 ^ 16 ≤ 6) && a / 2 ^ 15 % 2 == l.ix

/-- R132, R159, R187: whether a lane reset returns a register to its reset value. -/
def laneResets (l : Lane) (a : Nat) : Bool :=
  laneBlockReg l a && match regAt a with
    | some (r, _) => r.kind != .locked
    | none => true

/-- R70, R341: the TICK and LANE registers of a lane that a lane reset returns to their reset values. -/
def laneOwnRegs (l : Lane) : List Nat :=
  [Reg.TICK_WARN l.ix, Reg.TICK_LAST l.ix, Reg.TICK_MINMARG l.ix, Reg.TICK_OVRCNT l.ix, Reg.TICK_CTX l.ix,
    Reg.TICK_IRQ_STAT l.ix, Reg.TICK_IRQ_EN l.ix, Reg.LANE_L_CTX l.ix, Reg.LANE_L_IN_CNT l.ix, Reg.LANE_L_RPL l.ix,
    Reg.LANE_L_IRQ_STAT l.ix, Reg.LANE_L_IRQ_EN l.ix] ++ (List.range 10).map (Reg.TICK_SAVE l.ix)

/-- R130, R158, R159, R186, R187, R312: whether a checkpoint holds a register of a lane's copy: a command value in force, status
that is state of LAW, FOC or MOD, and what the loader has put there and the rejoin restores. -/
def ckptReg (l : Lane) (a : Nat) : Bool :=
  let off := a % 2 ^ 15
  laneBlockReg l a && match regAt a with
    | some (r, _) => r.kind == .command || off == 0 || off == 0x10 || off == 0x14 || (
        match a / 2 ^ 16 with
        | 4 => off == 0x50 || off == 0x54 || (decide (0x100 ≤ off) && decide (off < 0x300) && off % 32 == 0x10)
        | 5 => decide (0x100 ≤ off) && (decide (0xC0 ≤ off % 0x100) || (decide (0x60 ≤ off % 0x100) && decide (off % 0x100 < 0x78)))
        | _ => decide (0x100 ≤ off) && decide (0x30 ≤ off % 0x40))
    | none => false

/-! ### Lane reset (R37, R70, R89, R132, R159, R187, R341, R370) -/

/-- R340, R439: a lane's processor at its background entry, which BGENTRY names in the lane's SRAM. -/
def Mach.laneStart (m : Mach) (l : Lane) : TickLane :=
  let t := TickLane.fresh
  if m.image.loaded then { t with cpu := { t.cpu with pc := sramBase l + m.image.bgentry } } else t

/-- A lane reset: processor, pipeline, rings and snapshots of the lane; its SRAM, Archive and journal stay. The cause of an injection
that it ends still shows (R126). -/
def Mach.laneReset (m : Mach) (l : Lane) : Mach :=
  let ended := decide (m.injState l ≠ 0)
  let m := if ended then m.injEnd l 7 else m
  let own := laneOwnRegs l
  let m : Mach := { m with
    regs := m.regs.filter fun c => !(laneResets l c.1 || own.contains c.1)
    snaps := m.snaps.filter fun s => s.1 != l.ix }
  let m := if ended then m.setFld (Reg.LAW_INJ_STAT l.ix) 25 22 7 else m
  let m := m.onLaw l fun x => { LawLane.fresh x.words with
    slots := (List.range 16).map fun k => { LawSlot.fresh with states := List.replicate (m.cascade l k).2 (0, 0) } }
  let m : Mach := { m with
    foc := m.foc.set l (List.replicate 2 FocMotor.fresh), mod := m.mod.set l (List.replicate 16 ModSlot.fresh) }
  let m := (m.onTick l fun _ => m.laneStart l).onPlic l fun _ => Plic.fresh
  let m := m.onLane l fun s => { s with
    f2 := false, writeList := [], inbox := [], msgs := [], copying := none, complete := none, kickAt := m.now }
  let m := if m.fld Reg.LANE_JRN_ADDR 31 31 = l.ix then m.wrN Reg.LANE_JRN_ADDR 0 else m
  let m := m.onLb fun b => { b with inFlight := b.inFlight.filter fun f => f.1 != l }
  let m := m.onNet fun n => { n with copies := n.copies.filter fun c => c.1 != l, held := n.held.filter fun h => h.lane != l }
  (m.setBit Reg.LANE_CKSTAT 5 (m.lanes.get m.service).copying.isSome).dmaLaneReset l

/-! ### Checkpoints (R310 to R313) -/

/-- An offset in a lane's copy as lane A's. -/
def toLaneA (l : Lane) (a : Nat) : Nat := a - 0x8000 * l.ix

/-- The firmware region part that a lane's LANE_L_FWREG names: offset and bytes (R338). -/
def Mach.fwRegion (m : Mach) (l : Lane) : Nat × Nat :=
  (64 * m.fld (Reg.LANE_L_FWREG l.ix) 30 16, 64 * m.fld (Reg.LANE_L_FWREG l.ix) 15 0)

/-- The slots whose state a lane checkpoints: all in paired, its own in split arrangement (R312). -/
def Mach.ownSlots (m : Mach) (l : Lane) : List Nat := m.mapped.filter fun k => m.runsSlot l k

/-- The motors whose state a lane checkpoints: those of its own slots (R312). -/
def Mach.ownMotors (m : Mach) (l : Lane) : List Nat := [0, 1].filter fun i => m.motorSet i && m.runsSlot l (m.slotOfMotor l i)

/-- R310, R312: the checkpoint of the tick that ends. -/
def Mach.takeCheckpoint (m : Mach) (mem : List Host.Cell) (l : Lane) : Checkpoint :=
  let part (o : Lane) : List Nat :=
    if m.arr = 2 ∧ o ≠ l then [] else
      let r := m.fwRegion o
      Memory.readN mem (sramBase l + r.1) r.2
  { arr := m.arr, tick := m.seq, t0 := m.t0, jpos := (m.lanes.get l).jNext % 2 ^ 16, law := (m.law.get l).slots
    inj := m.inj l, foc := m.foc.get l, mod := m.mod.get l
    regs := ((settleRegs m.variant m.regs).filter fun c => ckptReg l c.1).map fun c => (toLaneA l c.1, c.2)
    shadow := (m.tl l).shadow.map fun c => (toLaneA l c.1, c.2), armed := m.bit (Reg.TICK_CTX l.ix) 1
    fwA := part .a, fwB := part .b }

/-- A little-endian word of a signed value. -/
def le32 (v : Int) : List Nat := leBytes 4 (u32 v)

/-- R130: the LAW section. -/
def Checkpoint.lawBytes (c : Checkpoint) (slots : List Nat) : List Nat :=
  (slots.flatMap fun k =>
    let s := nth c.law k
    s.states.flatMap (fun x => le32 x.1 ++ le32 x.2) ++ (s.sig.drop 16).flatMap le32 ++ le32 s.sealLeft ++ le32 s.sealBefore ++
      le32 (4 * s.asked.toNat + 2 * s.fwSwap.toNat + s.detSwap.toNat) ++
      [s.mean, s.sgn, s.peak, (s.swings : Int), (s.win : Int), ((s.swapTick.getD 0 : Nat) : Int)].flatMap le32) ++
    leBytes 8 c.inj.phi ++ [c.inj.freq, c.inj.shift, c.inj.chip, c.inj.rampLeft].flatMap (leBytes 4) ++ le32 c.inj.amp

/-- R158: the FOC section, of the motors `ms`. -/
def Checkpoint.focBytes (c : Checkpoint) (ms : List Nat) : List Nat :=
  ms.flatMap fun i =>
    let f := nth c.foc i
    [f.pa, f.pb, (f.tho : Int), f.wo, (f.thh : Int), f.wh, f.rdp, f.rqp, f.wp, f.tprev, f.psir, (f.thsl : Int), f.val, f.vbe,
      (f.lossCount : Int), (f.k : Int), (f.thL : Int), f.wL, f.tL, f.lcap, (f.i0Count : Int), (f.reacq : Int), (f.emfhi.toNat : Int),
      (f.divCount : Int), (f.polStep : Int), (f.polTick : Int), f.polPos, f.polNeg, (f.polTries : Int), (f.hcCount : Int),
      (f.derated.toNat : Int), (f.ascHeld.toNat : Int), (f.scLow : Int)].flatMap le32 ++ leBytes 8 (f.lastRestart.getD 0)

/-- R186: the MOD section. -/
def Checkpoint.modBytes (c : Checkpoint) (slots : List Nat) : List Nat :=
  slots.flatMap fun k =>
    let s := nth c.mod k
    let state := ((c.regs.find? fun r => r.1 == Reg.MOD_STAT 0 k).map fun r => r.2.bits 31 28).getD 0
    s.debts.flatMap le32 ++ s.halfOn.flatMap le32 ++
      [s.g, (state : Int), (s.n : Int), s.phiprev, (s.stopt : Int), (s.stopRun : Int)].flatMap le32 ++
      leBytes 8 (unsigned 64 s.phi) ++ leBytes 8 (unsigned 64 s.emagMin) ++
      s.volts.flatMap (fun v => le32 v.val ++ le32 v.vbe) ++ [s.safeKind, s.band, s.throttle, s.dropping.toNat].flatMap (leBytes 4)

/-- The CMD section: command values and the status words kept with them, the shadow, and ARMED (R312). -/
def Checkpoint.cmdBytes (c : Checkpoint) : List Nat :=
  let pairs (l : List (Nat × Word)) := l.flatMap fun x => leBytes 4 x.1 ++ leBytes 4 x.2.toNat
  pairs c.regs ++ pairs c.shadow ++ leBytes 4 c.armed.toNat

/-- Bytes filled to a multiple of 64. -/
def pad64 (b : List Nat) : List Nat := padTo ((b.length + 63) / 64 * 64) b

/-- The sections of a checkpoint, of these slots and motors (R312). -/
def Checkpoint.sections (c : Checkpoint) (slots ms : List Nat) : List (List Nat) :=
  [c.lawBytes slots, c.focBytes ms, c.modBytes slots, c.cmdBytes, c.fwA, c.fwB]

/-- R312: BCRC. -/
def Checkpoint.bcrc (c : Checkpoint) (slots ms : List Nat) : Nat := crc32c ((c.sections slots ms).flatMap pad64)

/-- R312: a checkpoint as it stands in the Archive. -/
def Checkpoint.bytes (c : Checkpoint) (l : Lane) (slots ms : List Nat) : List Nat :=
  let secs := c.sections slots ms
  let body := secs.flatMap pad64
  let dir := (secs.foldl (fun (x : Nat × List Nat) s =>
    (x.1 + (pad64 s).length, x.2 ++ leBytes 4 x.1 ++ leBytes 4 s.length)) (128, [])).2
  let head := padTo 124 (leBytes 4 0x504B434C ++ leBytes 2 1 ++ [l.ix, c.arr] ++ leBytes 8 c.tick ++ leBytes 8 c.t0 ++
    leBytes 4 c.jpos ++ leBytes 4 (132 + body.length) ++ dir)
  head ++ leBytes 4 (crc32c head) ++ body ++ leBytes 4 (crc32c body)

/-- The newest usable checkpoint of a lane (R311). -/
def LaneState.newest (s : LaneState) : Option Checkpoint :=
  match s.usable with
  | some true => s.buf1
  | some false => s.buf0
  | none => none

/-- Base of a lane's Archive (R6). -/
def archiveBase (l : Lane) : Nat := 0x140000000 + 0x40000 * l.ix

/-- LANE_CKSTAT shows the service lane's Archive (R343). -/
def Mach.showCheckpoint (m : Mach) : Mach :=
  let s := m.lanes.get m.service
  let m := m.setBit Reg.LANE_CKSTAT 5 (s.copying.isSome)
  match s.newest with
  | some c => ((m.setFld Reg.LANE_CKSTAT 31 8 (c.tick % 2 ^ 24)).setBit Reg.LANE_CKSTAT 7 true).setBit Reg.LANE_CKSTAT 6
      (s.usable == some true)
  | none => m.setBit Reg.LANE_CKSTAT 7 false

/-- R310: the checkpoint of a checkpoint tick begins to be copied. -/
def Mach.checkpointStart (m : Mach) (mem : List Host.Cell) (l : Lane) : Mach :=
  let cpi := m.fld Reg.LANE_CFG 4 0
  if m.live l && m.tick.running && cpi != 0 && (m.seq + 1) % cpi == 0 then
    (m.onLane l fun s => { s with copying := some (m.takeCheckpoint mem l), complete := none }).showCheckpoint
  else m

/-- R320, R343: a lane fault of LANE's own: 0x3002 with the health bit that names its cause. -/
def Mach.laneFault (m : Mach) (l : Lane) (bit : Nat) : Mach :=
  ((m.health l bit).raiseF2 l 0x3002 0xFF [bit]).laneIrq 1

/-- R310, R311, R313: a copy completes: written to the other buffer of the Archive, compared between the lanes, and every seal one
nearer to lifting, a shadowing lane's too; a CRC error at write verify is a fault of the lane. -/
def Mach.checkpointComplete (m : Mach) (mem : List Host.Cell) (l : Lane) (ok : Bool) : Mach × List Host.Cell :=
  match (m.lanes.get l).copying with
  | none => (m, mem)
  | some c =>
    if !ok then ((m.onLane l fun s => { s with copying := none }).showCheckpoint.laneFault l 7, mem)
    else
      let slots := m.ownSlots l
      let buf := if (m.lanes.get l).usable = some false then 1 else 0
      let ms := m.ownMotors l
      let mem := Memory.writeL mem (archiveBase l + 0x20000 * buf) (c.bytes l slots ms)
      let m := (m.onLane l fun s => { s with copying := none, complete := some c }).showCheckpoint
      let m := m.sealLift l
      let m := if m.laneCode l.other = 5 then m.sealLift l.other else m
      let other := (m.lanes.get l.other).complete
      let m := match other with
        | some d => if m.arr = 1 ∧ d.tick = c.tick ∧ d.bcrc slots ms ≠ c.bcrc slots ms then m.dispute .checkpoint else m
        | none => m
      (m, mem)

/-- R310, R311: at the end of tick `t`, a copy of the tick before becomes usable unless an F2 event or a disagreement arose in
the tick. -/
def Mach.promoteCheckpoint (m : Mach) (l : Lane) (t : Nat) : Mach :=
  let s := m.lanes.get l
  let due (c : Checkpoint) := decide (c.tick < t)
  let m := if s.ckptSpoilt then
      m.onLane l fun s => { s with
        copying := if s.copying.any due then none else s.copying, complete := if s.complete.any due then none else s.complete }
    else match s.complete with
      | some c =>
        if due c then
          m.onLane l fun s =>
            if s.usable = some false then { s with buf1 := some c, usable := some true, complete := none }
            else { s with buf0 := some c, usable := some false, complete := none }
        else m
      | none => m
  (m.onLane l fun s => { s with ckptSpoilt := false }).showCheckpoint

/-- R329, R312: a checkpoint's state into lane `t`; coefficient memory stays. -/
def Mach.restoreLane (m : Mach) (c : Checkpoint) (t : Lane) : Mach :=
  let back (x : Nat × Word) := (x.1 + 0x8000 * t.ix, x.2)
  let m : Mach := { m with regs := c.regs.map back ++ m.regs.filter fun x => !ckptReg t x.1 }
  let m := m.onLaw t fun x => { x with slots := c.law, inj := c.inj }
  let m : Mach := { m with foc := m.foc.set t c.foc, mod := m.mod.set t c.mod }
  let m := m.onTick t fun x => { x with shadow := c.shadow.map back }
  m.setBit (Reg.TICK_CTX t.ix) 1 c.armed

/-- R329, R338: the firmware regions of a checkpoint into a lane's SRAM. -/
def Mach.restoreRegion (m : Mach) (mem : List Host.Cell) (c : Checkpoint) (t : Lane) : List Host.Cell :=
  let mem := Memory.writeL mem (sramBase t + (m.fwRegion .a).1) c.fwA
  Memory.writeL mem (sramBase t + (m.fwRegion .b).1) c.fwB

/-- The slot that a checkpointed register belongs to, by lane A's offset. -/
def Mach.slotOfReg (m : Mach) (a : Nat) : Option Nat :=
  let off := a % 2 ^ 15
  match a / 2 ^ 16 with
  | 4 => if 0x400 ≤ off then some ((off - 0x400) / 32) else if 0x100 ≤ off then some ((off - 0x100) / 32) else none
  | 5 => if 0x100 ≤ off then some (m.slotOfMotor .a ((off - 0x100) / 0x100)) else none
  | 6 => if 0x100 ≤ off then some ((off - 0x100) / 0x40) else none
  | _ => none

/-- R339: the merged checkpoint: each slot's state, and FWA and FWB, from the lane that owns them; what belongs to no slot from
lane B while lane B's injector runs, and from lane A otherwise. -/
def Mach.mergeCheckpoints (m : Mach) (a b : Checkpoint) : Checkpoint :=
  let owner (k : Nat) : Lane := match m.slotEntry k with
    | some e => e.slane
    | none => .a
  let general : Lane := if b.regs.any fun r => r.1 == Reg.LAW_INJ_STAT 0 && r.2.bits 31 30 != 0 then .b else .a
  let ownerReg (x : Nat × Word) : Lane := match m.slotOfReg x.1 with
    | some k => owner k
    | none => general
  let pick {α : Type} [Inhabited α] (x y : List α) (f : Nat → Lane) : List α :=
    (List.range x.length).map fun i => if f i = .a then nth x i else nth y i
  let both (x y : List (Nat × Word)) : List (Nat × Word) :=
    (x.filter fun r => ownerReg r == .a) ++ y.filter fun r => ownerReg r == .b
  { a with
    arr := 1, law := pick a.law b.law owner, mod := pick a.mod b.mod owner
    foc := pick a.foc b.foc fun i => owner (m.slotOfMotor .a i), inj := if general = .a then a.inj else b.inj
    regs := both a.regs b.regs, shadow := both a.shadow b.shadow, fwB := b.fwB }

/-! ### Faults, isolation and recovery (R322 to R324, R336) -/

/-- A lane fault counted with its stamp (R320, R336). -/
def Mach.countFault (m : Mach) (l : Lane) : Mach :=
  let m := m.onLane l fun s => { s with faults := m.now :: (s.faults.filter fun t => decide (m.now < t + oneSecond)) }
  m.setFld (healthReg l) 23 16 (m.faultCount l)

/-- A lane state taken, with the roles, the degraded report and the Archive shown that follow from it. -/
def Mach.toState (m : Mach) (l : Lane) (c : Nat) : Mach := ((m.setLaneCode l c).setRoles).setDegraded.showCheckpoint

/-- R336: a slot that no lane runs goes to its safe state until device reset. -/
def Mach.slotLost (m : Mach) (k : Nat) : Mach :=
  if (m.sv k).forcedSafe then m
  else ((m.onSv k fun s => { s with forcedSafe := true, held := false }).raiseF3 0x3007 k).laneIrq 4

/-- R336: a lane is isolated until device reset; both isolated is the F4 of R27. -/
def Mach.isolate (m : Mach) (l : Lane) : Mach :=
  let m := (m.laneReset l).onLane l fun s => { s with step := .none, restart := none, afterwards := false }
  let m := ((m.toState l 6).raise 0x3008 1).laneIrq 5
  if m.unavailable l.other then m.raiseF4 0x0005
  else if m.arr = 2 then forL (m.ownSlots l) (fun k m => m.slotLost k) m
  else m

/-- R322 step 1: the faulted lane enters RESET; the other carries every slot. -/
def Mach.recover (m : Mach) (l : Lane) (t : Nat) : Mach :=
  ((m.laneReset l).onLane l fun s => { s with
    step := .reset, faultTick := t, shadowEqual := 0, shadowBad := false, restart := none, afterwards := false }).toState l 2

/-- R322, R336: a lane fault with the other lane LIVE: counted, and recovery, or isolation at the fourth. -/
def Mach.recoverCounted (m : Mach) (l : Lane) (t : Nat) : Mach :=
  let m := m.countFault l
  if 4 ≤ (m.lanes.get l).faults.length then m.isolate l else m.recover l t

/-- R324, R459: a lane waits in reset until the other is LIVE. -/
def Mach.waitReset (m : Mach) (l : Lane) : Mach :=
  ((m.laneReset l).onLane l fun s => { s with step := .none, restart := none, afterwards := true }).toState l 2

/-! ### Restart (R325 to R329, R334, R335) -/

/-- LANE_STATUS shows a hold and a restart. -/
def Mach.showHold (m : Mach) : Mach :=
  let h := m.lane.slots.any (·.held)
  let r := m.lanes.a.restart.isSome || m.lanes.b.restart.isSome
  (m.setBit Reg.LANE_STATUS 15 h).setBit Reg.LANE_STATUS 14 r

/-- R334: a restart fails: SAFE_HOLD with 0x3009; its lanes stay in reset and its slots safe. -/
def Mach.restartFail (m : Mach) : Mach :=
  let out (l : Lane) (m : Mach) : Mach :=
    if (m.lanes.get l).restart.isNone then m
    else
      let m := forL (m.ownSlots l) (fun k m => m.onSv k fun s => { s with forcedSafe := true, held := false }) m
      ((m.laneReset l).onLane l fun s => { s with restart := none, step := .none }).toState l 2
  let m := out .b (out .a m)
  ((m.onLb fun b => { b with pendRestart := none }).raiseF4 0x3009).showHold

/-- The event of a restart (R325); `cause` 1 undecidable, 2 both lanes' F2, 3 link, 4 one lane alone. -/
def Mach.restartEvent (m : Mach) (cause t : Nat) : Mach :=
  (m.raise 0x3005 2 0xFF (cause :: leBytes 4 t)).laneIrq 3

/-- R325: a restart of both lanes from the next boundary on; a further cause while one is in progress fails it (R459). -/
def Mach.askRestart (m : Mach) (cause : Nat) : Mach :=
  if m.lanes.a.restart.isSome || m.lanes.b.restart.isSome then m.restartFail
  else if m.lane.pendRestart.isSome then m
  else
    let m := (m.onLb fun b => { b with pendRestart := some cause }).restartEvent cause m.seq
    m.onLanes fun _ s => { s with f2 := true, ckptSpoilt := true }

/-- R299, R325, R329, R335: at the boundary, the lanes of a restart with disputed tick `t` enter RESET together, and the hold takes
their slots; without a usable checkpoint the restart fails (R334). -/
def Mach.beginRestart (m : Mach) (ls : List Lane) (t : Nat) (planned : Bool) : Mach :=
  let both := decide (1 < ls.length)
  let slots := (m.mapped.filter fun k => ls.any fun l => m.runsSlot l k)
  let enter (l : Lane) (m : Mach) : Mach :=
    let from_ := ((m.lanes.get l).newest.map fun c => c.tick + 1).getD 0
    ((m.laneReset l).onLane l fun s => { s with
      restart := some ⟨t, both, planned, false, 0, 0, true, 0⟩, step := .none, next := from_, afterwards := false }).toState l 2
  let has := ls.all fun l => (m.lanes.get l).newest.any fun c => decide (c.tick < t)
  let m := forL slots (fun k m => m.onSv k fun s => { s with held := !s.forcedSafe, heldCount := 0, limited := false }) m
  let m := ls.foldl (fun m l => enter l m) (ls.foldl (fun m l => m.setLaneCode l 2) m)
  let m := if both then m.zAbort else m
  let m := ((m.incSat Reg.LANE_FAULTS 31 24).setFld Reg.LANE_STATUS 31 24 0).onLb fun b => { b with pendRestart := none }
  if has then m.showHold else m.restartFail

/-- R329, R458: a lane has restored its newest usable checkpoint; a lane SRAM error found sends it through the code check. -/
def Mach.restoreComplete (m : Mach) (mem : List Host.Cell) (l : Lane) (sramErr : Bool) : Mach × List Host.Cell :=
  let s := m.lanes.get l
  match s.restart, s.newest with
  | some r, some c =>
    if r.restored then (m, mem)
    else
      let mem := m.restoreRegion mem c l
      let m := (m.restoreLane c l).onLane l fun s => { s with
        restart := some { r with restored := true }, next := c.tick + 1, step := if sramErr then .check else .none }
      (m.toState l (if sramErr then 3 else 4), mem)
  | _, _ => (m, mem)

/-- R322 steps 2 and 3: the code region of a lane, and its CRC-32C. -/
def Mach.codeRegion (m : Mach) (l : Lane) : Nat × Nat :=
  (64 * m.fld (Reg.LANE_L_CODE l.ix) 30 16, 64 * m.fld (Reg.LANE_L_CODE l.ix) 15 0)

/-- R322 steps 2 and 3: the check ends, both banks of every slot have come from the healthy lane, and a failed code region has
been reloaded from it. -/
def Mach.codeChecked (m : Mach) (mem : List Host.Cell) (l : Lane) : Mach × List Host.Cell :=
  let s := m.lanes.get l
  if s.step ≠ .check then (m, mem)
  else
    let r := m.codeRegion l
    let good := crc32c (Memory.readN mem (sramBase l + r.1) r.2) == m.image.codecrc
    let mem := if good || !m.live l.other then mem
      else Memory.writeL mem (sramBase l + r.1) (Memory.readN mem (sramBase l.other + r.1) r.2)
    if s.restart.isSome then ((m.onLane l fun s => { s with step := .none }).toState l 4, mem)
    else
      let words := (m.law.get l.other).words
      ((m.onLaw l fun x => { x with words := words }).onLane l fun s => { s with step := .waitCkpt, waitFrom := m.seq }, mem)

/-- R322 step 4: the healthy lane's next usable checkpoint is copied across, and restored for replay. -/
def Mach.crossLoad (m : Mach) (mem : List Host.Cell) (l : Lane) : Mach × List Host.Cell :=
  let s := m.lanes.get l
  match (m.lanes.get l.other).newest with
  | some c =>
    if s.step = .waitCkpt ∧ s.waitFrom < c.tick + 2 then
      let mem := m.restoreRegion mem c l
      let m := (m.restoreLane c l).onLane l fun s => { s with
        step := .replay, next := c.tick + 1, buf0 := some c, usable := some false }
      (m.toState l 4, mem)
    else (m, mem)
  | none => (m, mem)

/-- R324: two equal SHADOW ticks make the lane LIVE. -/
def Mach.admitLane (m : Mach) (l : Lane) : Mach :=
  let s := m.lanes.get l
  if s.step = .shadow ∧ 2 ≤ s.shadowEqual then
    let m := (m.onLane l fun s => { s with step := .none, kickAt := m.now }).toState l 1
    ((m.incSat Reg.LANE_FAULTS 23 16).raise 0x3003 0 0xFF (l.ix :: leBytes 4 (m.tickNow - s.faultTick))).laneIrq 2
  else m

/-- R324: recovery fails and starts again from step 1. -/
def Mach.recoveryFails (m : Mach) (l : Lane) : Mach :=
  ((m.raiseF2 l 0x3004).laneIrq 2).recoverCounted l m.seq

/-- R324: a lane not admitted within 64 ticks of its fault. -/
def Mach.recoveryTimeout (m : Mach) (l : Lane) : Mach :=
  let s := m.lanes.get l
  if s.step ≠ .none ∧ s.restart.isNone ∧ s.faultTick + 64 < m.tickNow then m.recoveryFails l else m

/-- R322, R324, R325, R335, R459: what follows, at the end of tick `t`, from a lane's F2 event. -/
def Mach.laneRecovery (m : Mach) (l : Lane) (t : Nat) : Mach :=
  let s := m.lanes.get l
  let o := l.other
  if !s.f2 ∨ m.laneCode l = 6 ∨ m.laneCode l = 0 then m
  else if s.restart.isSome then
    let m := m.countFault l
    if 4 ≤ (m.lanes.get l).faults.length then m.isolate l
    else
      let m := m.waitReset l
      if (m.lanes.get o).restart.isNone ∧ !m.live o then m.raiseF4 0x3009 else m
  else if m.arr = 1 ∧ m.live o ∧ (m.lanes.get o).restart.isNone then m.recoverCounted l t
  else if m.live l then
    let m := if (m.lanes.get o).step ≠ .none then m.waitReset o else m
    (m.restartEvent 4 t).beginRestart [l] t false
  else m.waitReset l

/-- R325: whether both lanes restart: asked for, or both raised an F2 event in the tick. -/
def Mach.bothFault (m : Mach) : Bool := m.lanes.a.f2 && m.lanes.b.f2 && m.live .a && m.live .b

/-- R325: the restart of both lanes begins. -/
def Mach.bothRestart (m : Mach) (t : Nat) : Mach :=
  if m.lane.pendRestart.isSome || m.bothFault then
    if m.lanes.a.restart.isSome || m.lanes.b.restart.isSome then m.restartFail
    else
      let m := if m.lane.pendRestart.isSome then m else m.restartEvent 2 t
      m.beginRestart ([Lane.a, .b].filter fun l => m.live l) t false
  else m

/-- R322, R325: the faults of the tick that ends. -/
def Mach.laneFaults (m : Mach) (t : Nat) : Mach :=
  let m := m.bothRestart t
  (m.laneRecovery .a t).laneRecovery .b t

/-- R316, R328: a slot's held boundaries have reached its limit, in a restart or where no lane sends it a frame; the governor of a pump
has no limit (R294). -/
def Mach.holdLimit (m : Mach) (k : Nat) : Mach :=
  let s := m.sv k
  let lim := m.fld (Reg.LANE_HOLDLIM (k / 4)) (8 * (k % 4) + 7) (8 * (k % 4))
  if (m.pumpRuns k).isNone && !s.forcedSafe && !s.limited && decide (0 < s.heldCount) && decide (lim ≤ s.heldCount) then
    ((m.onSv k fun s => { s with limited := true }).raiseF3 0x3007 k).laneIrq 4
  else m

/-! ### Arrangement (R337, R339) -/

/-- R337: a request at its accession tick. -/
def Mach.arrangementRequest (m : Mach) (v : Word) : Mach :=
  let q := v.bits 1 0
  let refuse (c : Nat) := (m.raise 0x300B 0 0xFF [c]).laneIrq 6
  let busy := m.lanes.a.restart.isSome || m.lanes.b.restart.isSome || m.lanes.a.step != .none || m.lanes.b.step != .none ||
    m.lane.handover.isSome || m.bit Reg.LANE_STATUS 15 || m.lanes.a.afterwards || m.lanes.b.afterwards
  if q ≠ 1 ∧ q ≠ 2 then m
  else if !m.bit Reg.LANE_CFG (if q = 2 then 9 else 8) then refuse 1
  else if m.laneCode .a = 6 ∨ m.laneCode .b = 6 then refuse 2
  else if busy then refuse 3
  else
    let m := m.wrN Reg.LANE_ARR q
    if q = m.arr then m
    else (m.onLb fun b => { b with handover := some (q, m.seq) }).setBit Reg.LANE_STATUS 13 true

/-- R339: the new arrangement is in force. -/
def Mach.setArrangement (m : Mach) (q : Nat) : Mach := ((m.setFld Reg.LANE_STATUS 5 4 q).setRoles).showCheckpoint

/-- R339: the hand-over has completed: 0x300A, and an entry of KIND 12. -/
def Mach.handoverDone (m : Mach) (q : Nat) : Mach :=
  let m := (m.onLb fun b => { b with handover := none }).setBit Reg.LANE_STATUS 13 false
  ((m.raise 0x300A 0).laneIrq 6).accede ⟨12, 0, 0, 0, q, []⟩

/-- R339: at the end of tick `t`: to split after a checkpoint tick, to paired once a checkpoint is usable in both lanes. -/
def Mach.handoverStep (m : Mach) (t : Nat) : Mach :=
  let cpi := max (m.fld Reg.LANE_CFG 4 0) 1
  match m.lane.handover with
  | some (2, a) => if (t + 1) % cpi = 0 ∧ a ≤ t ∧ m.live .a ∧ m.live .b then (m.setArrangement 2).handoverDone 2 else m
  | some (1, a) =>
    match m.lanes.a.newest, m.lanes.b.newest with
    | some x, some y =>
      if x.tick + 1 = t ∧ y.tick + 1 = t ∧ a ≤ x.tick ∧ m.lanes.a.restart.isNone ∧ m.lanes.b.restart.isNone then
        let c := m.mergeCheckpoints x y
        let put (s : LaneState) : LaneState := if s.usable = some true then { s with buf1 := some c } else { s with buf0 := some c }
        let m := m.onLanes fun _ => put
        (m.setArrangement 1).beginRestart [.a, .b] (t + 1) true
      else m
    | _, _ => m
  | _ => m

/-! ### Commands of a lane (R343) -/

/-- KICK. -/
def Mach.kick (m : Mach) (l : Lane) : Mach := m.onLane l fun s => { s with kickAt := m.now }

/-- R320: TMO milliseconds without KICK. -/
def Mach.watchdog (m : Mach) (l : Lane) : Mach :=
  let tmo := m.fld (Reg.LANE_L_WDOG l.ix) 7 0
  if tmo ≠ 0 ∧ m.live l ∧ (m.lanes.get l).kickAt + 2000000 * tmo ≤ m.now then (m.kick l).laneFault l 9 else m

/-! ### The rows -/

/-- R304, R305: an input as each unit has formed it, once the units have exchanged their entries; with one lane LIVE its unit alone
counts. -/
def Mach.unitsMeet (m : Mach) (inA inB : AsyncIn) : Mach :=
  if m.live .a && m.live .b then
    if inA = inB then m.accede inA
    else
      let t := m.accTickNow
      (m.dispute .entry).onLb fun b => { b with disputed := b.disputed ++ [(m.entryOf t inA, m.entryOf t inB)] }
  else if m.live .b then m.accede inB
  else m.accede inA

/-- R304, R320: the transfer that lane `l` sends fails its CRC-32C: a fault of that lane (LINK), and the other unit's entry stands. -/
def Mach.linkError (m : Mach) (l : Lane) (i : AsyncIn) : Mach := (m.laneFault l 11).accede i

/-- ASYNC_INPUT_ARRIVAL (R304, R305): what each accession unit forms; `bad` names a lane whose transfer fails its CRC. -/
def execAsyncInputArrival (cyc : Nat) (inA : AsyncIn) (inB : AsyncIn) (bad : Option Lane) (s : State) :
    Host.Outcome State Fault Refusal :=
  run s cyc fun m => match bad with
    | some l => if m.live .a && m.live .b then m.linkError l (if l = .a then inB else inA) else m.unitsMeet inA inB
    | none => m.unitsMeet inA inB

/-- R307: an entry of a lane's journal of which both copies are bad: JRNL, and what is read of it is a free value (log entry 2). -/
def Mach.journalBad (m : Mach) (l : Lane) : Mach :=
  let x := m.freeVal 32
  { x.2.laneFault l 6 with reply := .data (BitVec.ofNat 32 x.1) }

/-- INBOX_READ (R306, R307): `bad` says that both copies of the entry are bad. -/
def execInboxRead (cyc : Nat) (lane : Lane) (bad : Bool) (s : State) : Host.Outcome State Fault Refusal :=
  run s cyc fun m => if bad then (m.inboxRead lane).journalBad lane else m.inboxRead lane

/-- JOURNAL_READ (R307, R343): the word, and WORD advances; `bad` says that both copies of its entry are bad. -/
def execJournalRead (cyc : Nat) (bad : Bool) (s : State) : Host.Outcome State Fault Refusal :=
  run s cyc fun m =>
    let l := Lane.ofIx (m.fld Reg.LANE_JRN_ADDR 31 31)
    let m := if bad then m.journalBad l else m.say (.data (BitVec.ofNat 32 m.journalWord))
    m.incMod Reg.LANE_JRN_ADDR 13 0

/-- CHECKPOINT_START (R310): just before the boundary that ends a checkpoint tick. -/
def execCheckpointStart (cyc : Nat) (lane : Lane) (s : State) : Host.Outcome State Fault Refusal :=
  runMem s cyc fun m mem => (m.checkpointStart mem lane, mem)

/-- CHECKPOINT_COMPLETE (R311): `ok` says that the CRC verified. -/
def execCheckpointComplete (cyc : Nat) (lane : Lane) (ok : Bool) (s : State) : Host.Outcome State Fault Refusal :=
  runMem s cyc fun m mem => m.checkpointComplete mem lane ok

/-- LANE_RECOVERY_START (R322): at the end of the tick in which the lane raised an F2 event. -/
def execLaneRecoveryStart (cyc : Nat) (lane : Lane) (s : State) : Host.Outcome State Fault Refusal :=
  run s cyc fun m => m.laneRecovery lane m.seq

/-- CODE_CHECK_COMPLETE (R322 steps 2 and 3). -/
def execCodeCheckComplete (cyc : Nat) (lane : Lane) (s : State) : Host.Outcome State Fault Refusal :=
  runMem s cyc fun m mem => m.codeChecked mem lane

/-- RECOVERY_CHECKPOINT_LOAD (R322 step 4). -/
def execRecoveryCheckpointLoad (cyc : Nat) (lane : Lane) (s : State) : Host.Outcome State Fault Refusal :=
  runMem s cyc fun m mem => m.crossLoad mem lane

/-- LANE_ADMISSION (R324): at the boundary that follows the second equal SHADOW tick. -/
def execLaneAdmission (cyc : Nat) (lane : Lane) (s : State) : Host.Outcome State Fault Refusal := run s cyc fun m => m.admitLane lane

/-- RECOVERY_TIMEOUT (R324). -/
def execRecoveryTimeout (cyc : Nat) (lane : Lane) (s : State) : Host.Outcome State Fault Refusal :=
  run s cyc fun m => m.recoveryTimeout lane

/-- BOTH_LANE_RESTART (R325): at the end of the disputed tick. -/
def execBothLaneRestart (cyc : Nat) (s : State) : Host.Outcome State Fault Refusal := run s cyc fun m => m.bothRestart m.seq

/-- CROSS_LANE_LINK_LOSS (R325): no valid transfer for 2 ticks while both lanes run. -/
def execCrossLaneLinkLoss (cyc : Nat) (s : State) : Host.Outcome State Fault Refusal :=
  run s cyc fun m => if m.live .a && m.live .b then m.askRestart 3 else m

/-- HOLD_LIMIT_REACHED (R328). -/
def execHoldLimitReached (cyc : Nat) (k : Fin 16) (s : State) : Host.Outcome State Fault Refusal := run s cyc fun m => m.holdLimit k

/-- RESTORE_COMPLETE (R329): `sramErr` says that the restore found a lane SRAM error. -/
def execRestoreComplete (cyc : Nat) (lane : Lane) (sramErr : Bool) (s : State) : Host.Outcome State Fault Refusal :=
  runMem s cyc fun m mem => m.restoreComplete mem lane sramErr

/-- ARRANGEMENT_REQUEST (R337): the write of LANE_ARR is an asynchronous input. -/
def execArrangementRequest (cyc : Nat) (who : Writer) (value : Word) (s : State) : Host.Outcome State Fault Refusal :=
  run s cyc fun m => m.laneOnly who fun l m => m.asyncWrite l Reg.LANE_ARR (value &&& 3#32)

/-- ARRANGEMENT_HANDOVER (R339): at the end of the tick. -/
def execArrangementHandover (cyc : Nat) (s : State) : Host.Outcome State Fault Refusal := run s cyc fun m => m.handoverStep m.seq

/-- WATCHDOG_KICK (R343). -/
def execWatchdogKick (cyc : Nat) (who : Writer) (lane : Lane) (s : State) : Host.Outcome State Fault Refusal :=
  run s cyc fun m => m.ownCopy who lane (Reg.LANE_L_CMD lane.ix) fun m => m.kick lane

/-- LANE_SELF_FAULT (R343). -/
def execLaneSelfFault (cyc : Nat) (who : Writer) (lane : Lane) (s : State) : Host.Outcome State Fault Refusal :=
  run s cyc fun m => m.ownCopy who lane (Reg.LANE_L_CMD lane.ix) fun m => m.laneFault lane 10

/-- WATCHDOG_EXPIRY (R320). -/
def execWatchdogExpiry (cyc : Nat) (lane : Lane) (s : State) : Host.Outcome State Fault Refusal := run s cyc fun m => m.watchdog lane

end Sys2Proof.Machine
end

