-- ==== Sys2Proof/Machine/Sieve.lean ====
section
/-! DEFINITION. The Sieve and Bedrock's judgement (R314 to R321), Bedrock's own frames (R23, R294, R319, R326) and the
comparison of a lane in SHADOW (R322). -/

namespace Sys2Proof.Machine

/-! ### Bedrock's frames -/

/-- R185: the safe-state command that Bedrock chooses for a slot, from EMFHI. -/
def Mach.bedKind (m : Mach) (k : Nat) (emfhi : Bool) : Nat :=
  if m.isType k .traction && emfhi then (if m.bit (Reg.MOD_CFG m.active.ix k) 28 then 3 else 2) else 1

/-- EMFHI of the slot's last accepted frame (R185). -/
def Mach.lastEmfhi (m : Mach) (k : Nat) : Bool := (m.lastAccepted k).any (·.emfhi)

/-- R23, R319, R326, R328: a slot's safe-state command as a frame for the boundary after tick `n`. -/
def Mach.safeFrame (m : Mach) (k n : Nat) (emfhi : Bool) : Frame :=
  let kind := m.bedKind k emfhi
  let last := m.lastAccepted k
  let dt := ((last.bind fun f => f.legs.head?).map (·.dt)).getD (m.deadTime m.active k)
  let legs := ((m.slotType k).map (·.legs)).getD 0
  { seq := n, slot := k, patlen := (last.map (·.patlen)).getD m.period, holdok := false, start := false, inj := false
    replay := false, emfhi := emfhi, asc := decide (2 ≤ kind), safe := true, overrun := false, hva := 0, hvb := 0
    hdth := (last.map (·.hdth)).getD 0, hudc := (last.map (·.hudc)).getD 0, legs := List.replicate legs (safeLeg dt kind) }

/-- R326: the link limit of a held vector, 1/√3 in Q1.30. -/
def heldLimit : Int := 619925131

/-- R326: the held vector of a TRACTION frame at held boundary `h`, in fractions of the link `udcB`. -/
def heldVector (f : Frame) (h : Nat) (udcB : Int) : Int × Int :=
  let ang := u32 ((h : Int) * f.hdth)
  let c := cos30 ang
  let s := sin30 ang
  let va := sat32 (asr (f.hva * c - f.hvb * s) 30)
  let vb := sat32 (asr (f.hva * s + f.hvb * c) 30)
  let k := tdiv (f.hudc * 2 ^ 30) (max udcB (2 ^ 22))
  let va := asr (va * k) 30
  let vb := asr (vb * k) 30
  let n := isqrt (va * va + vb * vb)
  if heldLimit < n then (tdiv (va * heldLimit) n, tdiv (vb * heldLimit) n) else (va, vb)

/-- R326: the three duties of a held vector, as R164 with ZSEQ = 0. -/
def heldDuties (v : Int × Int) : List Int :=
  let x0 := v.1
  let x1 := sat32 (asr (-v.1 + asr (v.2 * 929887697) 29) 1)
  let x2 := sat32 (asr (-v.1 - asr (v.2 * 929887697) 29) 1)
  let v0 := asr (max x0 (max x1 x2) + min x0 (min x1 x2)) 1
  [x0, x1, x2].map fun x => clampI 0 (2 ^ 30) (2 ^ 29 + x - v0)

/-- R326: the held frame of a TRACTION slot, for the boundary after tick `n`. -/
def Mach.heldTraction (m : Mach) (k n h : Nat) (udcB : Int) (f : Frame) : Frame :=
  let rlog := ((m.slotEntry k).map (·.rlog)).getD 0
  let c : PulseCfg := { h32 := m.half32 rlog, asym := false, twin32 := 0, dt32 := 0
                        minp32 := 32 * m.fld (Reg.MOD_PULSE m.active.ix k) 31 16, carries := false }
  let p := centreLegs rlog m.period n c (heldDuties (heldVector f h udcB)) [0, 0, 0] [] []
  { f with
    seq := n, holdok := false, start := false, inj := false, replay := false, overrun := false
    legs := p.legs.mapIdx fun i x =>
      let g := f.legs.getD i (offLeg 0)
      legFrom g.mode g.dt g.dir false (32 * f.patlen) x }

/-- R326: the frame of a held slot at held boundary `h`, the boundary after tick `n`. -/
def Mach.heldFrame (m : Mach) (k n h : Nat) (udcB : Int) : Frame :=
  match m.pumpRuns k with
  | some d => m.governorFrame k n d
  | none =>
    let s := m.sv k
    match s.last.head? with
    | none => m.safeFrame k n false
    | some f =>
      if f.safe then m.safeFrame k n f.emfhi
      else if m.isType k .traction then
        if f.holdok then m.heldTraction k n h udcB f else m.safeFrame k n f.emfhi
      else
        let span := ((m.slotEntry k).map fun e => (ratio e.rlog).2).getD 1
        let past := s.last.take span
        let i := (past.length - h % past.length) % past.length
        { (past.getD i f) with seq := n, holdok := false, replay := false }

/-! ### The envelope (R318) -/

/-- The legs carry a safe-state command of R185: that which EMFHI calls for, or the freewheel of a released short circuit. -/
def Mach.carriesSafe (m : Mach) (k : Nat) (f : Frame) : Bool :=
  let kind := m.bedKind k f.emfhi
  let is (c : Nat) := f.legs.all fun g => g.mode == c
  (is kind && f.asc == decide (2 ≤ kind)) || (is 1 && !f.asc)

/-- R318: an edge lies outside the pattern, or the two edges of a leg are out of order. -/
def Leg.badEdges (g : Leg) (patlen : Nat) : Bool :=
  let out (e : Nat) := e != noEdge && decide (32 * patlen ≤ e)
  out g.e1 || out g.e2 || (g.e1 != noEdge && g.e2 != noEdge && decide (g.e2 ≤ g.e1))

/-- R318: the vector limits of a TRACTION slot; `before` is HDTH of the last accepted frame. -/
def Envelope.vectorFails (e : Envelope) (f : Frame) (before : Option Int) : Bool :=
  decide (e.vmax * e.vmax < f.hva * f.hva + f.hvb * f.hvb) || decide (e.hdthmax < (f.hdth.natAbs : Int)) ||
    before.any fun h => decide (e.dhdth < ((f.hdth - h).natAbs : Int))

/-- R318: a frame of a lane fails its slot's envelope; a slot without a record has none that passes. -/
def Mach.envelopeFails (m : Mach) (l : Lane) (f : Frame) : Bool :=
  match m.image.envelopes.find? fun e => e.slot == f.slot with
  | none => true
  | some e =>
    let dtmin := nth e.dtmin (m.modSlot l f.slot).band
    let before := ((m.sv f.slot).last.head?).map (·.hdth)
    f.patlen != e.patlen || f.legs.length != e.nleg ||
      (f.legs.any fun g => !e.modes.testBit g.mode || decide (g.dt < dtmin) || g.badEdges f.patlen) ||
      (m.isType f.slot .traction && e.vectorFails f before) || (f.safe && !m.carriesSafe f.slot f)

/-! ### Arrival (R314, R315) -/

/-- The cutoff, cycle P − 128 (R314). -/
def Mach.cutoffCycle (m : Mach) : Nat := m.period - 128

/-- R314: a frame is valid; `chkOk` says that CHK is correct. -/
def Mach.frameValid (m : Mach) (l : Lane) (f : Frame) (chkOk : Bool) : Bool :=
  chkOk && f.seq == m.seq && m.runsSlot l f.slot && some f.legs.length == (m.slotType f.slot).map (·.legs) && !f.overrun &&
    !f.replay && m.admitted l

/-- R315: two frames agree but for CHK and FLAGS bits 0 and 4. -/
def Frame.agrees (x y : Frame) : Bool :=
  { x with overrun := false, replay := false } == { y with overrun := false, replay := false }

/-- R315, R318: a valid frame is accepted, or compared with the accepted one. -/
def Mach.takeFrame (m : Mach) (l : Lane) (f : Frame) : Mach :=
  let k := f.slot
  let bad := m.envelopeFails l f
  let m := if bad then m.health l 8 else m
  let s := m.sv k
  match s.accepted with
  | none => m.onSv k fun s => { s with accepted := some (f, l), acceptedAt := m.time.cyc, acceptedBad := bad }
  | some a =>
    if a.2 = l then m
    else
      let swap := s.acceptedAt = m.time.cyc ∧ m.active = l
      let m := if swap then
          m.onSv k fun s => { s with accepted := some (f, l), acceptedBad := bad, second := s.accepted, secondBad := s.acceptedBad }
        else m.onSv k fun s => { s with second := some (f, l), secondBad := bad }
      if f.agrees a.1 then m else m.dispute (.frame k)

/-- R314, R315, R322: the frame of a lane for slot `k` reaches the Sieve. -/
def Mach.frameArrives (m : Mach) (l : Lane) (k : Nat) (chkOk : Bool) : Mach :=
  match m.lane.inFlight.find? fun x => x.1 == l && x.2.slot == k with
  | none => m
  | some x =>
    let m := m.onLb fun b => { b with inFlight := b.inFlight.erase x }
    if m.lane.cut || decide (m.cutoffCycle < m.time.cyc) then m
    else if m.laneCode l = 5 then m.onSv k fun s => { s with shadow := some x.2 }
    else if m.frameValid l x.2 chkOk then m.takeFrame l x.2
    else m

/-! ### The cutoff (R303, R314 to R317, R319, R321, R322) -/

/-- A lane's frame stands at a slot. -/
def SieveSlot.holds (s : SieveSlot) (l : Lane) : Bool :=
  s.accepted.any (fun x => x.2 == l) || s.second.any (fun x => x.2 == l)

/-- R315, R316: an admitted lane has sent no valid frame for a slot. -/
def Mach.missingFrames (m : Mach) : Mach :=
  let missing (l : Lane) : List Nat := if m.admitted l then (m.ownSlots l).filter fun k => !(m.sv k).holds l else []
  let both := [(Lane.a, missing .a), (Lane.b, missing .b)]
  forL both (fun x m =>
    match x.2 with
    | [] => m
    | k :: _ =>
      let m := if m.pairJudged then forL x.2 (fun k m => m.dispute (.frame k)) m else m
      ((m.health x.1 12).raiseF2 x.1 0x3002 k [12]).laneIrq 1) m

/-- R321 step 1: the frames of a lane fail their envelope in some disputed slot. -/
def Mach.envelopeBlames (m : Mach) (l : Lane) : Bool :=
  m.lane.disputes.any fun d => match d with
    | .frame k =>
      let s := m.sv k
      (s.accepted.any (fun x => x.2 == l) && s.acceptedBad) || (s.second.any (fun x => x.2 == l) && s.secondBad)
    | _ => false

/-- R321 step 2: the lane has a health bit set. -/
def Mach.healthBlames (m : Mach) (l : Lane) : Bool :=
  let s := m.lanes.get l
  (s.hwNow ||| s.hwPrev) % 2 ^ 13 != 0

/-- R321: the wrong lane, with the step that decides. -/
def Mach.verdict (m : Mach) : Option (Lane × Nat) :=
  let one (f : Lane → Bool) (step : Nat) : Option (Lane × Nat) :=
    match f .a, f .b with
    | true, false => some (.a, step)
    | false, true => some (.b, step)
    | _, _ => none
  match one m.envelopeBlames 1 with
  | some x => some x
  | none => one m.healthBlames 2

/-- R321: a lane is judged wrong. -/
def Mach.judgeWrong (m : Mach) (l : Lane) (step : Nat) : Mach :=
  let m := m.onLane l fun s => { s with wrong := true }
  ((m.raiseF2 l 0x3001 0xFF ([l.ix, step] ++ leBytes 4 m.seq)).incSat Reg.LANE_FAULTS 15 8).laneIrq 0

/-- R321, R325: the disagreements of the tick receive one verdict, or restart both lanes. -/
def Mach.judge (m : Mach) : Mach :=
  if m.lane.disputes.isEmpty || !m.pairJudged then m
  else match m.verdict with
    | some x => m.judgeWrong x.1 x.2
    | none =>
      let m := (m.incSat Reg.LANE_FAULTS 7 0).askRestart 1
      forN 16 (fun k m => m.onSv k fun s => { s with accepted := none, second := none }) m

/-- R316, R321: the accepted frame of a lane that is no longer admitted gives way to the other lane's, if there is one. -/
def Mach.substitute (m : Mach) (k : Nat) : Mach :=
  let s := m.sv k
  let ok (x : Option (Frame × Lane)) := x.filter fun y => m.admitted y.2
  match ok s.accepted, ok s.second with
  | some _, _ => m
  | none, some y => m.onSv k fun s => { s with accepted := some y, acceptedBad := s.secondBad, second := none }
  | none, none => m.onSv k fun s => { s with accepted := none, second := none }

/-- R319: an accepted frame that fails its envelope, with no valid frame that passes, becomes the safe-state command. -/
def Mach.replaceBad (m : Mach) (k : Nat) : Mach :=
  let s := m.sv k
  match s.accepted with
  | some a =>
    if !s.acceptedBad then m
    else match s.second with
      | some y =>
        if m.admitted y.2 && !s.secondBad then m.onSv k fun s => { s with accepted := some y, acceptedBad := false, second := none }
        else
          let m := m.onSv k fun s => { s with accepted := none, sub := some (m.safeFrame k m.seq a.1.emfhi) }
          (m.raiseF3 0x300C k).laneIrq 4
      | none =>
        let m := m.onSv k fun s => { s with accepted := none, sub := some (m.safeFrame k m.seq a.1.emfhi) }
        (m.raiseF3 0x300C k).laneIrq 4
  | none => m

/-- R294: the governor frame of a pump in RUN without an accepted frame, for the boundary after tick `n`; the first of a run of
substituted ticks is told. -/
def Mach.governorSub (m : Mach) (k n : Nat) : Mach :=
  match m.pumpRuns k with
  | none => match m.driveOfSlot k with
    | some d => m.onDrv d fun x => { x with gov := false }
    | none => m
  | some d =>
    let s := m.sv k
    if s.accepted.isSome then m.onDrv d fun x => { x with gov := false }
    else if s.sub.isSome then m
    else
      let m := m.onSv k fun s => { s with sub := some (m.governorFrame k n d) }
      if (m.drv d).gov then m
      else ((m.onDrv d fun x => { x with gov := true }).raise 0x2C09 0 k).orr Reg.ACT_IRQ_STAT 0x10

/-- R303: the merged write list becomes entries of KIND 1 for the next tick. -/
def Mach.journalWrites (m : Mach) (writes : List (Nat × Word)) (origin : Nat) (merged : Bool) : Mach :=
  forL writes (fun w m =>
    m.place (m.seq + 1) (m.seq + 2) fun t =>
      { m.entryOf t ⟨1, 0, origin, physical w.1 % 2 ^ 32, w.2.toNat, []⟩ with merged := merged }) m

/-- R303, R321: the write lists after the judgement: the equal lists merged, or those of the lane that is still admitted. -/
def Mach.settleWrites (m : Mach) : Mach :=
  if !m.pairJudged then m
  else match m.admitted .a, m.admitted .b with
    | true, true => m.journalWrites m.lanes.a.writeList m.active.origin true
    | true, false => m.journalWrites m.lanes.a.writeList 1 false
    | false, true => m.journalWrites m.lanes.b.writeList 2 false
    | false, false => m

/-- R304, R321: of two entries that differ, the one of the lane that is not wrong is taken; with no verdict neither is. -/
def Mach.settleEntries (m : Mach) : Mach :=
  let good : Option Lane := match m.lanes.a.wrong, m.lanes.b.wrong with
    | true, false => some .b
    | false, true => some .a
    | _, _ => none
  let es := m.lane.disputed
  let m := m.onLb fun b => { b with disputed := [] }
  match good with
  | none => m
  | some l => forL es (fun p m =>
      let e := if l = .a then p.1 else p.2
      m.place e.accTick (m.seq + 2) fun t => { e with accTick := t }) m

/-- R322 step 6: whether all that a lane in SHADOW did in the tick equals what the healthy lane did. -/
def Mach.shadowAgrees (m : Mach) (l : Lane) : Bool :=
  let h := l.other
  let frames := (m.ownSlots l).all fun k =>
    let s := m.sv k
    match s.shadow, s.accepted with
    | some x, some y => y.2 == h && x.agrees y.1
    | none, none => true
    | _, _ => false
  frames && m.lanes.a.writeList == m.lanes.b.writeList && m.lanes.a.msgs == m.lanes.b.msgs

/-- R322 step 6, R324: a SHADOW tick is judged; a difference fails the recovery. -/
def Mach.shadowJudge (m : Mach) (l : Lane) : Mach :=
  if m.laneCode l ≠ 5 ∨ !m.admitted l.other then m
  else if m.shadowAgrees l then m.onLane l fun s => { s with shadowEqual := s.shadowEqual + 1 }
  else m.onLane l fun s => { s with shadowBad := true }

/-- R303: both admitted lanes' write lists differ. -/
def Mach.writesDiffer (m : Mach) : Bool :=
  m.pairJudged && m.admitted .a && m.admitted .b && m.lanes.a.writeList != m.lanes.b.writeList

/-- R314 to R321: the cutoff of the tick, once. -/
def Mach.sieveCutoff (m : Mach) : Mach :=
  if m.lane.cut || !m.tick.running then m
  else
    let m := m.onLb fun b => { b with cut := true }
    let m := (m.missingFrames).accOverdue
    let m := if m.writesDiffer then m.dispute .writes else m
    let m := if m.pairJudged then forL m.overdue (fun h m => if m.admitted h.lane.other then m.dispute .message else m) m else m
    let m := (m.judge).onLb fun b => { b with disputes := [] }
    let m := forN 16 (fun k m => (m.substitute k).replaceBad k) m
    let m := forL (m.slotsOf .pump) (fun k m => m.governorSub k m.seq) m
    let m := ((m.settleWrites).settleEntries).releaseHeld
    (m.shadowJudge .a).shadowJudge .b

/-! ### The rows -/

/-- SIEVE_FRAME_ARRIVAL (R314, R315): `chkOk` says that CHK of the frame is correct. -/
def execSieveFrameArrival (cyc : Nat) (lane : Lane) (k : Fin 16) (chkOk : Bool) (s : State) : Host.Outcome State Fault Refusal :=
  run s cyc fun m => m.frameArrives lane k chkOk

/-- SIEVE_CUTOFF (R314). -/
def execSieveCutoff (cyc : Nat) (s : State) : Host.Outcome State Fault Refusal := run s cyc fun m => m.sieveCutoff

end Sys2Proof.Machine
end

