-- ==== Sys2Proof/Machine/Safe.lean ====
section
/-! DEFINITION. Machine safety (R397 to R417, R430): the two evaluators, inputs and test pulses, functions, STO, SS1 and SLS,
outputs and the exchange. Times are taken on the timebase (log entry 64). -/

namespace Sys2Proof.Machine

/-- The SAFE part changed. -/
def Mach.onSafe (m : Mach) (f : SafeState → SafeState) : Mach := { m with safe := f m.safe }

/-- An evaluator: Bedrock, or the safety processor. -/
def Mach.eval (m : Mach) (sp : Bool) : Evaluator := if sp then m.safe.sp else m.safe.bed

/-- An evaluator changed. -/
def Mach.onEval (m : Mach) (sp : Bool) (f : Evaluator → Evaluator) : Mach :=
  m.onSafe fun s => if sp then { s with sp := f s.sp } else { s with bed := f s.bed }

/-- A SAFE interrupt. -/
def Mach.safeIrq (m : Mach) (bit : Nat) : Mach := m.orr Reg.SAFE_IRQ_STAT (2 ^ bit)

/-- Ten microseconds and one millisecond of the timebase. -/
def tenMicros : Nat := 20000
def oneMilli : Nat := 2000000

/-- SCYC in units of the timebase (R397). -/
def Mach.scyc (m : Mach) : Nat := tenMicros * m.fld Reg.SAFE_CFG 31 24

/-! ### Inputs (R401 to R403) -/

/-- Since when a condition holds. -/
def heldSince (old : Option Nat) (now : Nat) (b : Bool) : Option Nat := if b then some (old.getD now) else none

/-- A condition has held for `d`. -/
def heldFor (since : Option Nat) (now d : Nat) : Bool := since.any fun t => decide (t + d ≤ now)

/-- R401, R508: the level of a channel by its voltage in millivolts: high from 11 V, low up to 5 V, between them unchanged. -/
def channelLevel (old : Bool) (mv : Int) : Bool := if 11000 ≤ mv then true else if mv ≤ 5000 then false else old

/-- R402: the fault of an input; it latches until both channels have shown demand together for FILT. -/
def SafeInput.faultNow (x : SafeInput) (cfg : Word) (now : Nat) : Bool :=
  let filt := tenMicros * cfg.bits 21 12
  let disc := oneMilli * cfg.bits 11 0
  (x.fault || x.odd.any fun t => decide (t + disc < now)) && !heldFor x.demBoth now filt

/-- R402: the state of an input by its filters. -/
def SafeInput.stateNow (x : SafeInput) (cfg : Word) (now : Nat) : Bool :=
  let filt := tenMicros * cfg.bits 21 12
  if x.fault || heldFor x.demA now filt || heldFor x.demB now filt then false
  else x.state || heldFor x.enBoth now filt

/-- R401 to R403: one input in one cycle; a masked channel keeps its level. -/
def SafeInput.step (x : SafeInput) (cfg : Word) (now : Nat) (maskA maskB : Bool) (mv : Int × Int) : SafeInput :=
  let kind := cfg.bits 31 30
  let a := if maskA then x.levelA else channelLevel x.levelA mv.1
  let b := if maskB then x.levelB else channelLevel x.levelB mv.2
  let enA := kind != 0 && a
  let enB := kind != 0 && (if kind = 2 then !b else b)
  let x := { x with
    levelA := a, levelB := b, demA := heldSince x.demA now !enA, demB := heldSince x.demB now !enB
    enBoth := heldSince x.enBoth now (enA && enB), demBoth := heldSince x.demBoth now (!enA && !enB)
    odd := heldSince x.odd now (kind != 0 && (enA != enB)) }
  let x := { x with fault := x.faultNow cfg now }
  let s := x.stateNow cfg now
  { x with state := s, since := if s && !x.state then now else x.since }

/-- A channel lies in the window of its own test pulse (R403). -/
def Mach.pulseMask (m : Mach) (tp : Nat) : Bool := decide (tp < 8) && decide (m.now < nth m.safe.tpUntil tp)

/-- An input enters fault in an evaluator: told once, when it is the first of the two (R402, R403); `kind` 1 discrepancy, 2 short to
24 V, 3 cross-short. -/
def Mach.inputFault (m : Mach) (sp : Bool) (i kind : Nat) : Mach :=
  let told := (nth (m.eval (!sp)).inputs i).fault
  let m := m.onEval sp fun e => { e with inputs := upd e.inputs i fun x => { x with fault := true, state := false } }
  if told then m else (m.raise 0x4003 1 0xFF [kind]).safeIrq 1

/-- R398 step 1: the inputs of an evaluator. -/
def Mach.sampleInputs (m : Mach) (sp : Bool) (levels : List (Int × Int)) : Mach :=
  forN 16 (fun i m =>
    let cfg := m.rd (Reg.SAFE_IN_CFG i)
    let old := nth (m.eval sp).inputs i
    let x := old.step cfg m.now (m.pulseMask (cfg.bits 29 26)) (m.pulseMask (cfg.bits 25 22)) (levels.getD i (0, 0))
    let m := m.onEval sp fun e => { e with inputs := upd e.inputs i fun _ => x }
    if x.fault && !old.fault then m.inputFault sp i 1 else m) m

/-- The channels of an input that a test pulse checks (R403): KIND 1 and 2 only. -/
def checkedTp (cfg : Word) : List (Bool × Nat) :=
  if cfg.bits 31 30 = 1 ∨ cfg.bits 31 30 = 2 then
    [(false, cfg.bits 29 26), (true, cfg.bits 25 22)].filter fun c => decide (c.2 < 8)
  else []

/-- R403: what one pulse of TP output `k` says of one channel: its own pulse missed twice in a row, or another output's pulse seen. -/
def Mach.pulseChannel (m : Mach) (sp : Bool) (k i : Nat) (b : Bool) (tp : Nat) (lows dips : Nat) : Mach :=
  if tp = k then
    let seen := lows.testBit i
    let x := nth (m.eval sp).inputs i
    let n := if seen then 0 else (if b then x.missB else x.missA) + 1
    let m := m.onEval sp fun e => { e with
      inputs := upd e.inputs i fun x => if b then { x with missB := min n 2 } else { x with missA := min n 2 } }
    if 2 ≤ n ∧ !x.fault then m.inputFault sp i 2 else m
  else if dips.testBit i ∧ !(nth (m.eval sp).inputs i).fault then m.inputFault sp i 3
  else m

/-- R403: a pulse of TP output `k` as an evaluator reads it: channels low in their own window (A and B masks), channels low during the
pulse and high outside it, and whether the output's own readback follows. -/
def Mach.testPulse (m : Mach) (sp : Bool) (k lowA lowB dipA dipB : Nat) (readback : Bool) : Mach :=
  let m := m.onSafe fun s => { s with tpUntil := upd s.tpUntil k fun _ => m.now + tenMicros * m.fld Reg.SAFE_CFG 23 16 + 200000 }
  let m := m.onEval sp fun e => { e with tps := e.tps ||| 2 ^ k }
  let m := forN 16 (fun i m => forL (checkedTp (m.rd (Reg.SAFE_IN_CFG i))) (fun c m =>
    m.pulseChannel sp k i c.1 c.2 (if c.1 then lowB else lowA) (if c.1 then dipB else dipA)) m) m
  if readback then m
  else
    let m := m.setBit Reg.SAFE_OUTS (24 + k) true
    forN 16 (fun i m =>
      let cfg := m.rd (Reg.SAFE_IN_CFG i)
      if (cfg.bits 31 30 != 0 && (cfg.bits 29 26 == k || cfg.bits 25 22 == k)) && !(nth (m.eval sp).inputs i).fault then
        m.inputFault sp i 2
      else m) m

/-! ### Standstill and speed (R412, R413) -/

/-- The drive that a slot belongs to shows no hall edge for 16 ticks. -/
def Mach.hallsQuiet (m : Mach) (k : Nat) : Bool :=
  match m.driveOfSlot k with
  | none => true
  | some d =>
    match (m.hall (m.fld (Reg.GDL_DRV_CFG d) 27 24)).stamps.head? with
    | none => true
    | some t => decide (t + 16 * 5 * m.period ≤ m.now)

/-- A per-unit speed limit as an angle per tick: (limit × KW) >> 12 (R412, R413). -/
def Mach.stepLimit (m : Mach) (k limit : Nat) : Int :=
  match m.motorOf m.active k with
  | some i => asr (limit * m.rdS (Reg.FOC_M_KW m.active.ix i)) 12
  | none => 0

/-- R412: Bedrock's judgement of standstill; a slot without an accepted frame, and one without a motor, stands. -/
def Mach.stillBed (m : Mach) (k : Nat) : Bool :=
  match m.slotType k with
  | some .traction =>
    (m.lastAccepted k).all fun f => decide ((f.hdth.natAbs : Int) ≤ m.stepLimit k (m.fld (Reg.MOD_FLY m.active.ix k) 7 0))
  | some .bldc => m.hallsQuiet k
  | some .pump => m.hallsQuiet k
  | _ => true

/-- R412: the safety processor's judgement: STILL of the slot's channel or triplet in the position set; a slot that names neither
has none to judge by (log entry 64). -/
def Mach.stillSp (m : Mach) (k : Nat) : Bool :=
  let set := m.pos.shelf.headD default
  match (m.slotEntry k).map (·.possrc) with
  | some x =>
    if x < 2 then (nth set.chans x).flt.testBit 30
    else if 0x10 ≤ x ∧ x < 0x16 then (nth set.halls (x - 0x10)).1.testBit 30
    else true
  | none => true

/-- R412: both evaluators judge standstill. -/
def Mach.still (m : Mach) (k : Nat) : Bool := m.stillBed k && m.stillSp k

/-- R413: a slot is beyond an SLS limit in an evaluator's eyes, since its last cycle. -/
def Mach.beyond (m : Mach) (sp : Bool) (k limit : Nat) : Bool :=
  if sp then decide (limit * 2 ^ 17 < nth m.safe.peakP k) else decide (m.stepLimit k limit < ((nth m.safe.peakB k : Nat) : Int))

/-- What the boundary adds to the peaks that R413 judges: the accepted frames and the position set. -/
def Mach.safePeaks (m : Mach) : Mach :=
  let set := m.pos.shelf.headD default
  let hd (k : Nat) : Nat := ((m.acceptedNow k).map fun f => f.hdth.natAbs).getD 0
  let sp (k : Nat) : Nat := match (m.slotEntry k).map (·.possrc) with
    | some x => if x < 2 then (nth set.chans x).spd.natAbs else 0
    | none => 0
  m.onSafe fun s => { s with
    peakB := s.peakB.mapIdx fun k v => max v (hd k), peakP := s.peakP.mapIdx fun k v => max v (sp k) }

/-! ### Functions (R405 to R408) -/

/-- Words of a function record. -/
def Mach.fn0 (m : Mach) (f : Nat) : Word := m.rd (Reg.SAFE_FN_CFG_W0 f)
def Mach.fnSlots (m : Mach) (f : Nat) : List Nat := bitsOf 16 (m.fld (Reg.SAFE_FN_CFG_W1 f) 31 16)
def Mach.fnOn (m : Mach) (f : Nat) : Bool := decide (1 ≤ (m.fn0 f).bits 31 28) && decide ((m.fn0 f).bits 31 28 ≤ 6)

/-- MANRST of a function; it is forced to 1 for SLS (R413). -/
def Mach.manrst (m : Mach) (f : Nat) : Bool := (m.fn0 f).bit 25 || (m.fn0 f).bits 31 28 == 5

/-- An input reads enable, or is in fault; number 15 reads demand. -/
def Evaluator.reads (e : Evaluator) (i : Nat) : Bool := decide (i < 15) && (nth e.inputs i).state
def Evaluator.faulty (e : Evaluator) (i : Nat) : Bool := decide (i < 15) && (nth e.inputs i).fault

/-- R407: the reset input has been released in this cycle: `some true` after a press of 0.2 to 3.0 s, `some false` after another. -/
def resetRelease (now : Nat) (before after : SafeInput) : Option Bool :=
  if before.state && !after.state && !after.fault then
    some (decide (before.since + 200 * oneMilli ≤ now) && decide (now ≤ before.since + 3000 * oneMilli))
  else none

/-- R407: a reset is accepted for a function in this cycle. -/
def Mach.resetAccepted (m : Mach) (e : Evaluator) (f : Nat) (release : Option Bool) : Bool :=
  let w := m.fn0 f
  let ok (i : Nat) := decide (i = 15) || (e.reads i && !e.faulty i)
  release == some true && ok (w.bits 23 20) && ok (w.bits 19 16)

/-- R406: two-hand control in one cycle. -/
def SafeFn.twoHand (x : SafeFn) (now sync : Nat) (e1 e2 : Bool) : SafeFn :=
  if !e1 && !e2 then { x with thArmed := true, thFirst := none, thOk := false }
  else if e1 && e2 then
    if x.thOk then x
    else { x with thOk := x.thArmed && (x.thFirst.all fun t => decide (now ≤ t + oneMilli * sync)), thArmed := false }
  else if x.thOk then { x with thOk := false, thArmed := false }
  else if x.thArmed then { x with thFirst := some (x.thFirst.getD now) }
  else x

/-- The remote bit that a function names (R405). -/
def Mach.remoteBit (m : Mach) (e : Evaluator) (f : Nat) : Bool :=
  let w := m.rd (Reg.SAFE_FN_CFG_W3 f)
  (nth e.remote (w.bits 15 12)).testBit (w.bits 11 8)

/-- R413: an SLS function is active. -/
def Mach.slsActive (m : Mach) (e : Evaluator) (f : Nat) : Bool :=
  let w := m.fn0 f
  w.bits 31 28 == 5 && (m.mode == .service || (w.bits 23 20 != 15 && !e.reads (w.bits 23 20)))

/-- R406: RESULT is forced to 0. -/
def Mach.forced (m : Mach) (e : Evaluator) (f : Nat) (x : SafeFn) : Bool :=
  let w := m.fn0 f
  let i1 := w.bits 23 20
  let i2 := w.bits 19 16
  let bad1 := !e.reads i1 || e.faulty i1
  match w.bits 31 28 with
  | 1 => bad1
  | 2 => bad1 || (w.bits 11 8 != 15 && !e.reads i2)
  | 3 => bad1 || !e.reads i2 || e.faulty i2 || !x.thOk
  | 4 => bad1
  | 5 => m.safe.exceeded.testBit f
  | 6 => !m.remoteBit e f
  | _ => true

/-- R405: the condition word of a function. -/
def Mach.fnCond (m : Mach) (e : Evaluator) (f : Nat) (x : SafeFn) (accepted : Bool) : Nat :=
  let w := m.fn0 f
  let i1 := w.bits 23 20
  let i2 := w.bits 19 16
  ([e.reads i1, e.reads i2, accepted, (m.fnSlots f).all m.still, m.remoteBit e f, e.faulty i1 || e.faulty i2, m.mode == .service,
    m.safe.exceeded.testBit f, x.thOk].mapIdx fun i b => if b then 2 ^ i else 0).sum

/-- R413: an evaluator's check of an SLS function in one cycle; two cycles in a row beyond the limit make it exceeded. -/
def Mach.slsCheck (m : Mach) (sp : Bool) (f : Nat) : Mach :=
  let e := m.eval sp
  let limit := m.fld (Reg.SAFE_FN_CFG_W2 f) 31 20
  let out := if m.slsActive e f then (m.fnSlots f).filter fun k => m.beyond sp k limit else []
  let n := if out.isEmpty then 0 else min ((nth e.fns f).beyond + 1) 2
  let m := m.onEval sp fun e => { e with fns := upd e.fns f fun x => { x with beyond := n } }
  if n < 2 ∨ m.safe.exceeded.testBit f then m
  else
    let m := m.onSafe fun s => { s with exceeded := s.exceeded ||| 2 ^ f }
    forL out (fun k m => m.raiseF3 0x4006 k [k, f]) (m.safeIrq 2)

/-- R408: a RESULT of an evaluator falls: SS1 timers start, and with HOLD the safety processor asks for SAFE_HOLD. -/
def Mach.demandActs (m : Mach) (sp : Bool) (f : Nat) : Mach :=
  let w := m.fn0 f
  let end_ := m.now + oneMilli * m.fld (Reg.SAFE_FN_CFG_W1 f) 15 0
  let m := if w.bits 27 26 ≠ 1 then m
    else forL (m.fnSlots f) (fun k m => m.onEval sp fun e => { e with ss1 := upd e.ss1 k fun t => some (t.getD end_) }) m
  if sp && w.bit 24 then m.accede ⟨1, 0, 3, physical Reg.SYS_MODE_REQ % 2 ^ 32, 5, []⟩ else m

/-- R405 to R408: one function in one cycle of an evaluator; `release` is what its reset input did. -/
def Mach.evalFn (m : Mach) (sp : Bool) (f : Nat) (release : Option Bool) : Mach :=
  let e := m.eval sp
  let w := m.fn0 f
  let accepted := m.resetAccepted e f release
  let m := if accepted then m.onSafe fun s => { s with exceeded := s.exceeded &&& (0xFFFF ^^^ 2 ^ f) } else m
  let old := nth e.fns f
  let x := old.twoHand m.now (m.fld (Reg.SAFE_FN_CFG_W2 f) 19 8) (e.reads (w.bits 23 20)) (e.reads (w.bits 19 16))
  let x := { x with stillAt := heldSince x.stillAt m.now ((m.fnSlots f).all m.still) }
  let x := match m.table (m.fld (Reg.SAFE_FN_CFG_W2 f) 7 0) with
    | some t =>
      let r := t.eval m.mode.code (m.fnCond e f x accepted) x.tab
      { x with tab := r.1, out := (r.2.map fun row => row.action.testBit 0).getD x.out }
    | none => { x with out := true }
  let raw := x.out && !m.forced e f x
  let latch := m.manrst f && (if !raw then true else x.latch && !accepted)
  let x := { x with latch := latch, result := raw && !latch }
  let m := m.onEval sp fun e => { e with fns := upd e.fns f fun _ => x }
  if old.result && !x.result then m.demandActs sp f else m

/-- R407: Bedrock tells of a reset input released too early or too late, if a function waits for it. -/
def Mach.pressIgnored (m : Mach) (released : Nat → Option Bool) : Mach :=
  forN 15 (fun r m =>
    if released r = some false && (List.range 16).any fun f => m.fnOn f && m.manrst f && (m.fn0 f).bits 15 12 == r then m.raise 0x4011 0
    else m) m

/-- R398 step 3: the functions in ascending number. -/
def Mach.evalFns (m : Mach) (sp : Bool) (before : List SafeInput) : Mach :=
  let released (r : Nat) : Option Bool := if r = 15 then none else resetRelease m.now (nth before r) (nth (m.eval sp).inputs r)
  let m := if sp then m else m.pressIgnored released
  forN 16 (fun f m => if m.fnOn f then m.evalFn sp f (released ((m.fn0 f).bits 15 12)) else m) m

/-- R398 step 4, R413: the SLS checks; the functions see their result in the next cycle. -/
def Mach.slsChecks (m : Mach) (sp : Bool) : Mach :=
  let m := forN 16 (fun f m => if m.fnOn f then m.slsCheck sp f else m) m
  m.onSafe fun s => if sp then { s with peakP := s.peakP.map fun _ => 0 } else { s with peakB := s.peakB.map fun _ => 0 }

/-! ### STO and SS1 (R411, R412) -/

/-- A function holds a slot under STO: its RESULT is 0, with STOP 0, or with STOP 1 and no timer of the slot running.
STO comes from functions alone: where R23 names STO for a mode, the model gives the safe-state command and no STO (log entry 66). -/
def Mach.stoHolds (m : Mach) (sp : Bool) (f k : Nat) : Bool :=
  let w := m.fn0 f
  let e := m.eval sp
  m.fnOn f && (m.fnSlots f).contains k && !(nth e.fns f).result &&
    (w.bits 27 26 == 0 || (w.bits 27 26 == 1 && (nth e.ss1 k).isNone))

/-- The mask of the slots that satisfy `p`. -/
def slotMask (p : Nat → Bool) : Nat := ((List.range 16).map fun k => if p k then 2 ^ k else 0).sum

/-- R411: the switches that the safety processor holds off for the slots under STO: those that the safe-state command keeps off. -/
def Mach.stoSwitches (m : Mach) (sto : Nat) : Mach :=
  let kind (k : Nat) : Nat := m.bedKind k (m.lastEmfhi k)
  m.onGate fun g => { g with
    stoH := slotMask fun k => sto.testBit k && kind k != 3, stoL := slotMask fun k => sto.testBit k && kind k != 2 }

/-- R411: an evaluator's STO word: a slot that comes under Bedrock's STO takes its safe-state command at once, and the safety processor
withdraws its enables. -/
def Mach.setSto (m : Mach) (sp : Bool) (sto : Nat) : Mach :=
  let old := (m.eval sp).words.sto
  let m := m.onEval sp fun e => { e with words := { e.words with sto := sto } }
  if sp then m.stoSwitches sto
  else if !m.tick.running then m
  else forL (m.mapped.filter fun k => sto.testBit k && !old.testBit k) (fun k m => m.gateLoad k (m.safeFrame k m.seq (m.lastEmfhi k))) m

/-- R412: the SS1 timer of a slot runs out in an evaluator: the slot is under STO, and Bedrock tells a slot that is not at
standstill. -/
def Mach.ss1Expire (m : Mach) (sp : Bool) (k : Nat) : Mach :=
  match nth (m.eval sp).ss1 k with
  | none => m
  | some t =>
    if m.now < t then m
    else
      let m := m.onEval sp fun e => { e with ss1 := upd e.ss1 k fun _ => none }
      let m := m.setSto sp ((m.eval sp).words.sto ||| 2 ^ k)
      if sp || m.still k then m else (m.raiseF3 0x4007 k).safeIrq 2

/-- R398 step 4: timers and the STO and SS1 words of an evaluator. -/
def Mach.stopWords (m : Mach) (sp : Bool) : Mach :=
  let due := (List.range 16).filter fun k => (nth (m.eval sp).ss1 k).any fun t => decide (t ≤ m.now)
  let m := forL due (fun k m => m.ss1Expire sp k) m
  let m := m.setSto sp (slotMask fun k => due.contains k || (List.range 16).any fun f => m.stoHolds sp f k)
  let ss1 := slotMask fun k => (nth (m.eval sp).ss1 k).isSome
  m.onEval sp fun e => { e with words := { e.words with ss1 := ss1 } }

/-! ### Outputs (R415, R416, R260) -/

/-- R406: the guards that lock with output `o`. -/
def Mach.lockedBy (m : Mach) (o : Nat) : List Nat :=
  (List.range 16).filter fun f => m.fnOn f && (m.fn0 f).bits 31 28 == 2 && (m.fn0 f).bits 11 8 == o

/-- R415, R485: whether a safe output is on in an evaluator's eyes. -/
def Mach.outputOn (m : Mach) (e : Evaluator) (o : Nat) : Bool :=
  let guards := m.lockedBy o
  let quiet (f : Nat) := heldFor (nth e.fns f).stillAt m.now (oneMilli * m.fld (Reg.SAFE_FN_CFG_W3 f) 31 16)
  m.bit Reg.SAFE_STATUS 26 && !e.lost && !m.linesOff && !m.bit Reg.SAFE_OUTS (20 + o) && m.bit Reg.SAFE_SOREQ o && guards.all quiet &&
    !((List.range 16).any fun f => m.fnOn f && (m.fn0 f).bits 6 0 / 2 ^ o % 2 == 1 && !(nth e.fns f).result)

/-- R416, R260, R485: the enable of CP_SC, CHG_ACRLY or the BMS loop (OUTS bits 4 to 6); Bedrock's only in CHARGE. -/
def Mach.enableOn (m : Mach) (sp : Bool) (o : Nat) : Bool :=
  let e := m.eval sp
  m.bit Reg.SAFE_STATUS 26 && !e.lost && !m.linesOff && (sp || m.mode == .charge) &&
    !((List.range 16).any fun f => m.fnOn f && (m.fn0 f).bits 6 0 / 2 ^ o % 2 == 1 && !(nth e.fns f).result)

/-- R260: CP_SC, the AC relay drive and the BMS permit loop are closed: the charge machine requests them and both evaluators enable
them; with no supply all are open. -/
def Mach.chgOutputs (m : Mach) : Bool × Bool × Bool :=
  let r := chgRequests m.chg.state
  let on (o : Nat) : Bool := m.pwr.phase == .up && m.safe.bed.words.outs.testBit o && m.safe.sp.words.outs.testBit o
  (r.1 && on 4, r.2.1 && on 5, r.2.2 && on 6)

/-- R19, R398 step 5: what an evaluator enables. -/
def Mach.setEnables (m : Mach) (sp : Bool) : Mach :=
  let e := m.eval sp
  let outs := ((List.range 7).map fun o =>
    if (if o < 4 then m.outputOn e o else m.enableOn sp o) then 2 ^ o else 0).sum
  let gates := if m.bit Reg.SAFE_STATUS 26 && !e.lost then slotMask m.hasSlot else 0
  let m := m.onEval sp fun e => { e with words := { e.words with outs := outs } }
  m.onGate fun g =>
    let g := if sp then { g with enS := gates } else { g with enB := gates }
    { g with enabled := g.enabled &&& g.enB &&& g.enS }

/-! ### The exchange (R398 step 6, R399, R410, R430) -/

/-- The words as an evaluator exchanges them, with what inputs and functions read. -/
def Mach.exchangeWords (m : Mach) (sp : Bool) : SafeWords :=
  let e := m.eval sp
  let sls (p : Nat → Bool) : Nat := slotMask fun k => (List.range 16).any fun f => m.fnOn f && (m.fnSlots f).contains k && p f
  { e.words with
    input := slotMask fun i => (nth e.inputs i).state
    result := slotMask fun f => m.fnOn f && (nth e.fns f).result
    sls := sls (m.slsActive e) + 2 ^ 16 * sls fun f => (m.fn0 f).bits 31 28 == 5 && m.safe.exceeded.testBit f }

/-- The bits in which two sets of words differ, by word × 32 + bit (R399). -/
def SafeWords.diff (x y : SafeWords) : List Nat :=
  ([x.input ^^^ y.input, x.result ^^^ y.result, x.sto ^^^ y.sto, x.ss1 ^^^ y.ss1, x.sls ^^^ y.sls,
    (x.outs % 16) ^^^ (y.outs % 16)].mapIdx fun i d => (bitsOf 32 d).map fun b => 32 * i + b).flatten

/-- R399, R430: Bedrock compares the words: four cycles in a row with the same bit different are an F4; sixteen agreeing cycles and the
tests of R430 start the evaluators. -/
def Mach.compareWords (m : Mach) : Mach :=
  let d := m.safe.bed.words.diff m.safe.sp.words
  let runs := d.map fun b => (b, ((m.safe.diff.find? fun x => x.1 == b).map (·.2)).getD 0 + 1)
  let m := if runs.any fun x => x.2 == 4 then m.raiseF4 0x4004 else m
  let agree := if d.isEmpty then min (m.safe.agree + 1) 16 else 0
  let m := m.onSafe fun s => { s with diff := runs.map fun x => (x.1, min x.2 5), agree := agree }
  let used := ((List.range 16).flatMap fun i => checkedTp (m.rd (Reg.SAFE_IN_CFG i))).map (·.2)
  let tested (e : Evaluator) := used.all e.tps.testBit && e.tests % 16 == 15
  let m := m.setBit Reg.SAFE_STATUS 29 d.isEmpty
  if 16 ≤ agree ∧ tested m.safe.bed ∧ tested m.safe.sp then m.setBit Reg.SAFE_STATUS 26 true else m

/-- R410: one word in force; a change is an input of KIND 4. -/
def Mach.wordInForce (m : Mach) (src reg hi lo v : Nat) : Mach :=
  if m.fld reg hi lo = v then m else (m.setFld reg hi lo v).accede ⟨4, src, 0, 0, v, []⟩

/-- R408, R410: the words in force after an exchange, with the events of a RESULT that falls or rises. -/
def Mach.wordsInForce (m : Mach) : Mach :=
  let x := m.safe.bed.words
  let y := m.safe.sp.words
  let old := m.fld Reg.SAFE_FUNC 15 0
  let res := x.result &&& y.result
  let flt := slotMask fun i => (nth m.safe.bed.inputs i).fault || (nth m.safe.sp.inputs i).fault
  let lat := slotMask fun f => m.fnOn f && m.manrst f && ((nth m.safe.bed.fns f).latch || (nth m.safe.sp.fns f).latch)
  let cause (f : Nat) : Nat := if m.forced m.safe.bed f (nth m.safe.bed.fns f) || m.forced m.safe.sp f (nth m.safe.sp.fns f) then 1 else 0
  let fell := bitsOf 16 (old &&& (0xFFFF ^^^ res))
  let rose := bitsOf 16 (res &&& (0xFFFF ^^^ old))
  let m := forL fell (fun f m => (m.raise 0x4001 0 0xFF [f, cause f]).safeIrq 0) m
  let m := forL rose (fun _ m => (m.raise 0x4002 0).safeIrq 0) m
  let m := (m.setFld Reg.SAFE_INPUTS 31 16 flt).setFld Reg.SAFE_FUNC 31 16 lat
  let m := (((m.wordInForce 0 Reg.SAFE_INPUTS 15 0 (x.input &&& y.input)).wordInForce 1 Reg.SAFE_FUNC 15 0 res).wordInForce 2
    Reg.SAFE_STO 15 0 (x.sto &&& y.sto)).wordInForce 3 Reg.SAFE_STO 31 16 (x.ss1 &&& y.ss1)
  (m.wrN Reg.SAFE_SLS (x.sls &&& y.sls)).setFld Reg.SAFE_OUTS 6 0 (x.outs &&& y.outs)

/-- R398 step 6, R400: the exchange at the end of a cycle; each evaluator sees the other cycling. -/
def Mach.exchange (m : Mach) (sp : Bool) : Mach :=
  let w := m.exchangeWords sp
  let m := m.onEval sp fun e => { e with words := w, lastAt := some m.now }
  let m := m.onEval (!sp) fun e => { e with lost := false }
  let m := m.setBit Reg.SAFE_STATUS (if sp then 30 else 31) true
  let m := if sp then m else m.incMod Reg.SAFE_STATUS 15 0
  let m := if !sp && m.safe.sp.lastAt.isSome then m.compareWords else m
  m.wordsInForce

/-! ### The cycle (R398) -/

/-- Seconds left of a lockout (R431). -/
def Mach.lockoutLeft (m : Mach) : Nat := (m.safe.lockUntil - m.now + oneSecond - 1) / oneSecond

/-- R398 step 2: the remote bits of the connections; those of a connection that is not valid read 0. -/
def Mach.takeRemote (m : Mach) (sp : Bool) : Mach :=
  m.onEval sp fun e => { e with
    remote := m.safe.conns.mapIdx fun c x => if m.fld Reg.SAFE_AEDDY (2 * c + 1) (2 * c) = 2 then x.bits else 0 }

/-- R398: one safety cycle of an evaluator; the evaluators run from tick 0 on, in every mode except SLEEP (R430). -/
def Mach.safetyCycle (m : Mach) (sp : Bool) (levels : List (Int × Int)) : Mach :=
  if !m.tick.running || m.mode == .sleep then m
  else
    let before := (m.eval sp).inputs
    let m := (((m.sampleInputs sp levels).takeRemote sp).evalFns sp before).slsChecks sp
    let m := ((m.stopWords sp).setEnables sp).exchange sp
    if sp then m.setFld Reg.SAFE_SESS_STAT 15 0 m.lockoutLeft else m

/-- R400: an evaluator has had no exchange from the other for 2 × SCYC: it withdraws its enables and raises the F4; the safety
processor also asks for SAFE_HOLD. -/
def Mach.exchangeLoss (m : Mach) (sp : Bool) : Mach :=
  let other := m.eval (!sp)
  if !m.tick.running || (m.eval sp).lost || !(other.lastAt.any fun t => decide (t + 2 * m.scyc ≤ m.now)) then m
  else
    let m := (m.onEval sp fun e => { e with lost := true }).setBit Reg.SAFE_STATUS (if sp then 31 else 30) false
    let m := (m.setEnables sp).setFld Reg.SAFE_OUTS 6 0 0
    if sp then (m.accede ⟨1, 0, 3, physical Reg.SYS_MODE_REQ % 2 ^ 32, 5, []⟩).raiseF4 0x4005 0xFF [] 3 else m.raiseF4 0x4005

/-- R415: an evaluator has opened its switch of output `o` and read it back. -/
def Mach.outputTest (m : Mach) (sp : Bool) (o : Nat) (ok : Bool) : Mach :=
  let m := m.onEval sp fun e => { e with tests := e.tests ||| 2 ^ o }
  if ok || m.bit Reg.SAFE_OUTS (20 + o) then m
  else ((((m.setBit Reg.SAFE_OUTS (20 + o) true).setBit Reg.SAFE_OUTS o false).raise 0x4008 1)).safeIrq 3

/-! ### The rows -/

/-- SAFETY_CYCLE (R398): `sp` names the evaluator, `levels` the voltages of SIi_A and SIi_B at its comparators, in millivolts. -/
def execSafetyCycle (cyc : Nat) (sp : Bool) (levels : List (Int × Int)) (s : State) : Host.Outcome State Fault Refusal :=
  run s cyc fun m => m.safetyCycle sp levels

/-- EXCHANGE_LOSS (R400). -/
def execExchangeLoss (cyc : Nat) (sp : Bool) (s : State) : Host.Outcome State Fault Refusal := run s cyc fun m => m.exchangeLoss sp

/-- TEST_PULSE (R403): at the start of TPk's pulse, with what an evaluator reads in its window. -/
def execTestPulse (cyc : Nat) (sp : Bool) (k : Fin 8) (lowA : BitVec 16) (lowB : BitVec 16) (dipA : BitVec 16) (dipB : BitVec 16)
    (readback : Bool) (s : State) : Host.Outcome State Fault Refusal :=
  run s cyc fun m => m.testPulse sp k lowA.toNat lowB.toNat dipA.toNat dipB.toNat readback

/-- INPUT_DISCREPANCY (R402): the channels of input `i` have disagreed for longer than DISC. -/
def execInputDiscrepancy (cyc : Nat) (sp : Bool) (i : Fin 16) (s : State) : Host.Outcome State Fault Refusal :=
  run s cyc fun m =>
    let x := nth (m.eval sp).inputs i
    if x.odd.any (fun t => decide (t + oneMilli * m.fld (Reg.SAFE_IN_CFG i) 11 0 < m.now)) && !x.fault then m.inputFault sp i 1 else m

/-- SS1_EXPIRY (R412). -/
def execSs1Expiry (cyc : Nat) (sp : Bool) (k : Fin 16) (s : State) : Host.Outcome State Fault Refusal :=
  run s cyc fun m => m.ss1Expire sp k

/-- SAFE_OUTPUT_TEST (R415): `ok` says that the readback follows. -/
def execSafeOutputTest (cyc : Nat) (sp : Bool) (o : Fin 4) (ok : Bool) (s : State) : Host.Outcome State Fault Refusal :=
  run s cyc fun m => m.outputTest sp o ok

end Sys2Proof.Machine
end

