-- ==== Sys2Proof/Machine/Aeddy.lean ====
section
/-! DEFINITION. The Aeddy safe channel (R418 to R422): messages received, sent, failing and recovering connections. -/

namespace Sys2Proof.Machine

/-- A connection's own part. -/
def Mach.conn (m : Mach) (c : Nat) : AeConn := nth m.safe.conns c

/-- A connection's own part changed. -/
def Mach.onConn (m : Mach) (c : Nat) (f : AeConn → AeConn) : Mach := m.onSafe fun s => { s with conns := upd s.conns c f }

/-- Word 1 of a connection's record (R431). -/
def Mach.aeCfg (m : Mach) (c : Nat) : Word := m.rd (Reg.SAFE_AE_CFG_W1 c)

/-- CONNc of SAFE_AEDDY: 0 unused, 1 waiting, 2 valid, 3 failed. -/
def Mach.aeState (m : Mach) (c : Nat) : Nat := m.fld Reg.SAFE_AEDDY (2 * c + 1) (2 * c)

/-- A connection takes a state. -/
def Mach.setAe (m : Mach) (c v : Nat) : Mach := m.setFld Reg.SAFE_AEDDY (2 * c + 1) (2 * c) v

/-- R419: the CRC of a message under a connection's seed. -/
def Mach.aeCrc (m : Mach) (c : Nat) (bytes : List Nat) : Nat :=
  let seed := ((m.image.seeds.find? fun s => s.1 == c).map (·.2)).getD 0
  (bytes.foldl (unitByte true 32 0xF4ACFB13) (reflect 32 seed)) ^^^ 0xFFFFFFFF

/-- R418: a message taken apart. -/
structure AeMsg where
  cid : Nat
  seq : Nat
  ack : Nat
  flags : Nat
  wd : Nat
  payload : List Nat
  /-- The bytes that the CRC covers, and the CRC received. -/
  body : List Nat
  crc : Nat
  deriving DecidableEq, Repr

/-- R418: a message read from the bytes of a frame; `none` where they hold no whole message. -/
def AeMsg.ofBytes (b : List Nat) : Option AeMsg :=
  let f (o n : Nat) := ofLeBytes ((b.drop o).take n)
  let len := b.getD 9 0
  if len < 2 ∨ 48 < len ∨ b.length < 16 + len then none
  else some ⟨f 0 4, f 4 2, f 6 2, b.getD 8 0, f 10 2, (b.drop 12).take len, b.take (12 + len), f (12 + len) 4⟩

/-- R418: where the message starts in a frame: after the EtherType or VLAN tag, or at byte 0 of a CAN FD frame. -/
def aeBytes (p : Nat) (frame : List Nat) : List Nat :=
  if 3 ≤ p then frame
  else if (frame.drop 12).take 2 = [0x81, 0x00] then frame.drop 18
  else frame.drop 14

/-- R421: a connection fails; its remote bits read 0. -/
def Mach.aeFail (m : Mach) (c : Nat) : Mach :=
  let m := (m.setAe c 3).onConn c fun x => { x with errRun := 0, okRun := 0, bits := 0 }
  (m.raise 0x4009 1).safeIrq 4

/-- R420: a discard that no connection answers for. -/
def Mach.aeStray (m : Mach) : Mach :=
  let told := m.safe.strayTold
  let m := (m.incSat Reg.SAFE_AECNT 31 16).onSafe fun s => { s with strayTold := true }
  if told then m else (m.raise 0x400B 0).safeIrq 4

/-- R420, R421: a discard is an error of the connection; the first of a run is told, and the eighth in a row fails it. -/
def Mach.aeError (m : Mach) (c : Nat) : Mach :=
  let told := (m.conn c).told
  let m := (m.incSat Reg.SAFE_AECNT 31 16).onConn c fun x => { x with errRun := x.errRun + 1, okRun := 0, told := true }
  let m := if told then m else (m.raise 0x400B 0).safeIrq 4
  if 8 ≤ (m.conn c).errRun ∧ m.aeState c ≠ 3 then m.aeFail c else m

/-- R421: the connection is valid again. -/
def Mach.aeRecover (m : Mach) (c : Nat) : Mach := ((m.setAe c 2).raise 0x400A 0).safeIrq 4

/-- The words of SAFE_MBOX_RX filled with the bytes after the first two, the rest zero. -/
def Mach.aeMailbox (m : Mach) (c : Nat) (data : List Nat) : Mach :=
  let b := padTo 48 data
  (forN 12 (fun w m => m.wrN (Reg.SAFE_MBOX_RX c w) (ofLeBytes ((b.drop (4 * w)).take 4))) m).safeIrq 6

/-- R420: a message accepted, `lost` skipped before it. -/
def Mach.aeAccept (m : Mach) (c : Nat) (x : AeMsg) (lost : Nat) : Mach :=
  let bits := if x.flags.testBit 0 then 0 else ofLeBytes (x.payload.take 2) &&& m.fld (Reg.SAFE_AE_CFG_W2 c) 31 16
  let m := m.setFld Reg.SAFE_AECNT 15 0 (min (m.fld Reg.SAFE_AECNT 15 0 + lost) 0xFFFF)
  let m := m.onSafe fun s => { s with strayTold := false }
  let m := m.onConn c fun y => { y with
    last := some x.seq, wdAt := m.now, errRun := 0, okRun := min (y.okRun + 1) 4, told := false, bits := bits }
  let m := m.aeMailbox c (x.payload.drop 2)
  if m.aeState c = 1 then m.setAe c 2
  else if m.aeState c = 3 ∧ 4 ≤ (m.conn c).okRun ∧ !(m.aeCfg c).bit 30 then m.aeRecover c
  else m

/-- R420 checks 2 to 4: `none` for a duplicate, else whether the message stands in sequence, and how many were skipped. -/
def AeConn.sequence (y : AeConn) (maxgap : Nat) (x : AeMsg) : Option (Bool × Nat) :=
  match y.last with
  | none => some (true, 0)
  | some l =>
    let d := (x.seq + 0x10000 - l) % 0x10000
    if d = 0 then none
    else if d = 1 then some (true, 0)
    else if x.flags.testBit 1 then some (true, 0)
    else if d ≤ maxgap then some (true, d - 1)
    else some (false, 0)

/-- R420 check 5: ACK is one of the last 8 SEQ values that this end has sent. -/
def AeConn.ackOk (y : AeConn) (x : AeMsg) : Bool :=
  (List.range (min 8 y.sent)).any fun j => (y.sent - 1 - j) % 0x10000 == x.ack

/-- R420: a message of flow `f`. -/
def Mach.aeMessage (m : Mach) (f : Nat) (frame : List Nat) : Mach :=
  match AeMsg.ofBytes (aeBytes (m.flowPort f) frame) with
  | none => m.aeStray
  | some x =>
    match (List.range 8).find? fun c =>
      (m.aeCfg c).bit 31 && (m.aeCfg c).bits 29 24 == f && (m.rd (Reg.SAFE_AE_CFG_W0 c)).toNat == x.cid with
    | none => m.aeStray
    | some c =>
      if m.aeCrc c x.body ≠ x.crc ∨ (m.aeCfg c).bits 9 0 ≠ x.wd then m.aeError c
      else match (m.conn c).sequence ((m.aeCfg c).bits 17 10) x with
        | none => m
        | some (inOrder, lost) => if inOrder && (m.conn c).ackOk x then m.aeAccept c x lost else m.aeError c

/-- R418: the message that a connection sends. -/
def Mach.aeForm (m : Mach) (c : Nat) : List Nat :=
  let y := m.conn c
  let failsafe := m.safe.sp.lost || m.safe.bed.lost || (m.mode == .safeHold && m.sys.holdByF4)
  let bits := m.fld Reg.SAFE_FUNC 15 0 &&& m.fld (Reg.SAFE_AE_CFG_W2 c) 15 0
  let data := (List.range 12).flatMap fun w => leBytes 4 (m.rd (Reg.SAFE_MBOX_TX c w)).toNat
  let body := leBytes 4 (m.rd (Reg.SAFE_AE_CFG_W0 c)).toNat ++ leBytes 2 y.sent ++ leBytes 2 (y.last.getD 0) ++
    [failsafe.toNat + 2 * (y.sent == 0).toNat, 48] ++ leBytes 2 ((m.aeCfg c).bits 9 0) ++ leBytes 2 bits ++ data.take 46
  body ++ leBytes 4 (m.aeCrc c body)

/-- R418: the frame of a message on its flow. On Ethernet no register gives the destination address or a tag's priority: free. -/
def Mach.aeFrame (m : Mach) (f : Nat) (msg : List Nat) : List Nat × Mach :=
  let p := m.flowPort f
  if 3 ≤ p then (msg, m)
  else
    let d := m.freeBytes 6
    let src := leBytes 4 (m.rd (Reg.NET_P_MACLO p)).toNat ++ leBytes 2 (m.fld (Reg.NET_P_MACHI p) 15 0)
    let vid := m.fld (Reg.NET_FLOW_W1 f) 31 20
    let pri := d.2.freeVal 4
    let tag := if vid = 0xFFF then [] else [0x81, 0x00] ++ beBytes 2 (pri.1 * 2 ^ 12 + vid)
    (d.1 ++ src ++ tag ++ beBytes 2 ((m.flow f).bits 15 0) ++ msg, pri.2)

/-- R422: a connection sends. -/
def Mach.aeSend (m : Mach) (c : Nat) : Mach :=
  if !(m.aeCfg c).bit 31 || m.mode == .sleep || !m.pwr.booted then m
  else
    let f := (m.aeCfg c).bits 23 18
    let x := m.aeFrame f (m.aeForm c)
    let m := (x.2.onConn c fun y => { y with sent := y.sent + 1 }).safeIrq 7
    m.netQueue ⟨f, x.1, m.seq, 0⟩

/-- R421: AEACK. -/
def Mach.aeAck (m : Mach) : Mach :=
  forN 8 (fun c m =>
    if (m.aeCfg c).bit 31 && (m.aeCfg c).bit 30 && m.aeState c == 3 && decide (4 ≤ (m.conn c).okRun) then m.aeRecover c else m) m

/-- A write of SAFE_CMD (R421). -/
def Mach.safeCommand (m : Mach) (v : Word) : Mach := if v.bit 0 then m.aeAck else m

/-! ### The rows -/

/-- AEDDY_RECEIVE (R420): the oldest frame that waits for the safety processor. -/
def execAeddyReceive (cyc : Nat) (s : State) : Host.Outcome State Fault Refusal :=
  run s cyc fun m => match m.net.safetyInbox with
    | [] => m
    | x :: rest => (m.onNet fun n => { n with safetyInbox := rest }).aeMessage x.1 x.2

/-- AEDDY_WATCHDOG_EXPIRY (R421): WD milliseconds since the last accepted message. -/
def execAeddyWatchdogExpiry (cyc : Nat) (c : Fin 8) (s : State) : Host.Outcome State Fault Refusal :=
  run s cyc fun m =>
    if m.aeState c == 2 && decide ((m.conn c).wdAt + oneMilli * (m.aeCfg c).bits 9 0 ≤ m.now) then m.aeFail c else m

/-- AEDDY_TRANSMIT (R422). -/
def execAeddyTransmit (cyc : Nat) (c : Fin 8) (s : State) : Host.Outcome State Fault Refusal := run s cyc fun m => m.aeSend c

/-- AEDDY_ACK (R421): a write of SAFE_CMD. -/
def execAeddyAck (cyc : Nat) (who : Writer) (value : Word) (s : State) : Host.Outcome State Fault Refusal :=
  run s cyc fun m => m.laneOnly who fun l m => m.devWrite l Reg.SAFE_CMD value fun m => m.safeCommand value

end Sys2Proof.Machine
end

