-- ==== Sys2Proof/Machine/Session.lean ====
section
/-! DEFINITION. Password sessions and the change log (R423 to R428). -/

namespace Sys2Proof.Machine

/-! ### The change log (R427) -/

/-- The first byte of a sector of the change log. -/
def logSectorAt (i : Nat) : Nat := flashBase + 0x07ECA000 + 4096 * i

/-- A valid header of a sector: its number. -/
def logHeader (mem : List Host.Cell) (i : Nat) : Option Nat :=
  let b := Memory.readN mem (logSectorAt i) 32
  let f (o : Nat) := ofLeBytes ((b.drop o).take 4)
  if f 0 = 0x474C4653 ∧ f 28 = crc32c (b.take 28) then some (f 4) else none

/-- The 64 bytes of an entry place. -/
def logBytes (mem : List Host.Cell) (i j : Nat) : List Nat := Memory.readN mem (logSectorAt i + 64 * (j + 1)) 64

/-- A valid entry of the log: SEQ and its bytes. -/
def logEntryAt (mem : List Host.Cell) (i j : Nat) : Option (Nat × List Nat) :=
  let b := logBytes mem i j
  if ofLeBytes (b.drop 60) = crc32c (b.take 60) then some (ofLeBytes ((b.drop 8).take 4), b) else none

/-- The sectors with a valid header: index and number. -/
def logSectors (mem : List Host.Cell) : List (Nat × Nat) := (List.range 18).filterMap fun i => (logHeader mem i).map fun h => (i, h)

/-- The entries of the log. -/
def logEntries (mem : List Host.Cell) : List (Nat × List Nat) :=
  (logSectors mem).flatMap fun s => (List.range 63).filterMap (logEntryAt mem s.1)

/-- The item with the highest key. -/
def newest {α : Type} (key : α → Nat) (l : List α) : Option α :=
  l.foldl (fun x y => match x with
    | some z => if key z < key y then some y else some z
    | none => some y) none

/-- The item with the lowest key. -/
def oldest {α : Type} (key : α → Nat) (l : List α) : Option α :=
  l.foldl (fun x y => match x with
    | some z => if key y < key z then some y else some z
    | none => some y) none

/-- R427: where the writer goes on after boot, and the number of the last entry. -/
def Mach.logScan (m : Mach) (mem : List Host.Cell) : Mach :=
  let last := ((newest (·.1) (logEntries mem)).map (·.1)).getD 0
  let m := m.wrN Reg.SAFE_LOG_STAT last
  match newest (·.2) (logSectors mem) with
  | none => m.onSafe fun s => { s with logSector := 0, logSlot := 63, logSectorNum := 0 }
  | some (i, n) =>
    let used := ((List.range 63).filter fun j => !(logBytes mem i j).all (· == 0xFF)).foldl (fun x j => max x (j + 1)) 0
    m.onSafe fun s => { s with logSector := i, logSlot := used, logSectorNum := n }

/-- R427: a full sector is left for an erased one; the header's second half is not laid out. -/
def Mach.logOpen (m : Mach) (mem : List Host.Cell) : Mach × List Host.Cell :=
  if m.safe.logSlot < 63 then (m, mem)
  else
    let hs := logSectors mem
    let i := match (List.range 18).find? fun i => !hs.any fun h => h.1 == i with
      | some i => i
      | none => ((oldest (·.2) hs).map (·.1)).getD 0
    let n := m.safe.logSectorNum + 1
    let body := leBytes 4 0x474C4653 ++ leBytes 4 n ++ leBytes 4 (m.rd Reg.TIME_BOOT).toNat ++ List.replicate 16 0
    let f := m.freeBytes 32
    let mem := Memory.clear mem (logSectorAt i) (logSectorAt (i + 1))
    (f.2.onSafe fun s => { s with logSector := i, logSlot := 0, logSectorNum := n },
      Memory.writeL mem (logSectorAt i) (body ++ leBytes 4 (crc32c body) ++ f.1))

/-- R427: the 64 bytes of an entry. -/
def Mach.logForm (m : Mach) (seq kind detail old new : Nat) : List Nat :=
  let body := leBytes 8 m.now ++ leBytes 4 seq ++ leBytes 4 (m.rd Reg.TIME_BOOT).toNat ++
    leBytes 8 (m.rd64 Reg.SYS_UID_LO Reg.SYS_UID_HI) ++ [kind, m.mode.code] ++ leBytes 2 detail ++ leBytes 4 old ++ leBytes 4 new ++
    padTo 16 m.safe.who ++ List.replicate 8 0
  body ++ leBytes 4 (crc32c body)

/-- R427: an entry appended; `ok` says that it verifies. One that does not leaves bytes that the rules do not state, and is told. -/
def Mach.logAppend (m : Mach) (mem : List Host.Cell) (ok : Bool) (kind detail old new : Nat) : Mach × List Host.Cell :=
  let x := m.logOpen mem
  let seq := (m.rd Reg.SAFE_LOG_STAT).toNat + 1
  let a := logSectorAt x.1.safe.logSector + 64 * (x.1.safe.logSlot + 1)
  let m := x.1.onSafe fun s => { s with logSlot := s.logSlot + 1 }
  if ok then (m.wrN Reg.SAFE_LOG_STAT seq, Memory.writeL x.2 a (m.logForm seq kind detail old new))
  else
    let f := m.freeBytes 64
    ((f.2.raise 0x4010 0).safeIrq 5, Memory.writeL x.2 a f.1)

/-! ### Sessions (R423 to R425) -/

/-- STATE of SAFE_SESS_STAT: 0 closed, 1 checking, 2 open, 3 locked out. -/
def Mach.sess (m : Mach) : Nat := m.fld Reg.SAFE_SESS_STAT 31 28

/-- A session state, with its bits of SAFE_STATUS. -/
def Mach.setSess (m : Mach) (v : Nat) : Mach :=
  ((m.setFld Reg.SAFE_SESS_STAT 31 28 v).setBit Reg.SAFE_STATUS 28 (v == 2)).setBit Reg.SAFE_STATUS 27 (v == 3)

/-- A session is open (R423). -/
def Mach.sessOpen (m : Mach) : Bool := m.sess == 2

/-- R425: a refusal or failure with its REASON. -/
def Mach.sessRefuse (m : Mach) (reason : Nat) : Mach :=
  ((m.setFld Reg.SAFE_SESS_STAT 27 24 reason).raise 0x400D 0).safeIrq 5

/-- R424: the lockout after `n` consecutive failures, in seconds; 0 for none. -/
def lockoutSeconds (n : Nat) : Nat := if n < 3 then 0 else min (60 * 2 ^ (min n 9 - 3)) 3840

/-- R424: the lockout begins, if there is one. -/
def Mach.lockOut (m : Mach) : Mach :=
  let d := lockoutSeconds (m.fld Reg.SAFE_SESS_STAT 23 16)
  if d = 0 then m.setSess 0
  else ((m.onSafe fun s => { s with lockUntil := m.now + d * oneSecond }).setSess 3).setFld Reg.SAFE_SESS_STAT 15 0 d

/-- R424: an attempt has failed. -/
def Mach.sessFailed (m : Mach) (reason : Nat) : Mach := ((m.sessRefuse reason).incSat Reg.SAFE_SESS_STAT 23 16).lockOut

/-- The password in SAFE_PW_BUF, of `n` bytes. -/
def Mach.pwBytes (m : Mach) (n : Nat) : List Nat :=
  ((List.range 8).flatMap fun w => leBytes 4 (m.rd (Reg.SAFE_PW_BUF w)).toNat).take n

/-- R423: a password has 8 to 32 bytes of 0x21 to 0x7E. -/
def pwOk (n : Nat) (pw : List Nat) : Bool :=
  decide (8 ≤ n) && decide (n ≤ 32) && pw.all fun b => decide (0x21 ≤ b) && decide (b ≤ 0x7E)

/-- R423: the password is taken and its buffer cleared. -/
def Mach.clearPw (m : Mach) : Mach := forN 8 (fun w m => m.wr (Reg.SAFE_PW_BUF w) 0#32) m

/-- OPEN (R423, R424). -/
def Mach.openSession (m : Mach) (v : Word) : Mach :=
  let n := v.bits 5 0
  let pw := m.pwBytes n
  if m.sess = 1 ∨ m.sess = 2 then (m.raise 0x400D 0).safeIrq 5
  else if m.mode ≠ .standby then m.sessRefuse 2
  else if m.sess = 3 then m.sessRefuse 3
  else if !pwOk n pw then m.sessRefuse 5
  else
    let who := (List.range 4).flatMap fun w => leBytes 4 (m.rd (Reg.SAFE_WHO w)).toNat
    ((m.onSafe fun s => { s with tried := pw, who := who }).clearPw).setSess 1

/-- R424: the check ends: the session opens when the hash matches and the log entry stands. -/
def Mach.checkPassword (m : Mach) (mem : List Host.Cell) (ok : Bool) : Mach × List Host.Cell :=
  if m.sess ≠ 1 then (m, mem)
  else
    let pw := m.safe.tried
    let m := m.onSafe fun s => { s with tried := [] }
    if m.mode ≠ .standby then ((m.setSess 0).sessRefuse 2, mem)
    else if passwordHash m.safe.pw.salt pw m.safe.pw.iter = m.safe.pw.hash then
      let x := m.logAppend mem ok 1 0 0 0
      if ok then
        let m := ((x.1.setSess 2).setFld Reg.SAFE_SESS_STAT 27 16 0).onSafe fun s => { s with sessAt := x.1.now }
        ((m.raise 0x400C 0).safeIrq 5, x.2)
      else (x.1.sessFailed 4, x.2)
    else
      let x := m.logAppend mem ok 2 1 0 0
      (x.1.sessFailed 1, x.2)

/-- R425: the session closes; `detail` as in R427. -/
def Mach.endSession (m : Mach) (mem : List Host.Cell) (ok : Bool) (detail : Nat) : Mach × List Host.Cell :=
  if m.sess ≠ 2 then (m, mem)
  else
    let x := m.logAppend mem ok 3 detail 0 0
    (((x.1.setSess 0).raise 0x400E 0).safeIrq 5, x.2)

/-- CLOSE (R425): refused in SERVICE, without a session, and when its entry cannot be written. -/
def Mach.closeSession (m : Mach) (mem : List Host.Cell) (ok : Bool) : Mach × List Host.Cell :=
  if m.sess ≠ 2 then ((m.raise 0x400D 0).safeIrq 5, mem)
  else
    let m := m.onSafe fun s => { s with sessAt := m.now }
    if m.mode = .service then (m.sessRefuse 2, mem)
    else if ok then m.endSession mem true 0
    else
      let x := m.logAppend mem false 3 0 0 0
      (x.1.sessRefuse 4, x.2)

/-- R425: the inactivity timer does not run in SERVICE: on leaving it, the time spent there is left out. -/
def Mach.sessPause (m : Mach) (entered : Nat) : Mach :=
  m.onSafe fun s => { s with sessAt := s.sessAt + (m.now - max entered s.sessAt) }

/-! ### Password records (R426) -/

/-- The first byte of a password sector. -/
def pwSector (i : Nat) : Nat := flashBase + 0x07EC8000 + 4096 * i

/-- R426: the 68 bytes of a record. -/
def PwRecord.bytes (p : PwRecord) : List Nat :=
  let body := leBytes 4 0x44525750 ++ leBytes 4 p.gen ++ leBytes 4 p.iter ++ leBytes 4 0 ++ padTo 16 p.salt ++ padTo 32 p.hash
  body ++ leBytes 4 (crc32c body)

/-- R426: a record read; `none` when MAGIC or CRC is wrong. -/
def PwRecord.ofBytes (b : List Nat) (sector : Nat) : Option PwRecord :=
  let f (o : Nat) := ofLeBytes ((b.drop o).take 4)
  if f 0 = 0x44525750 ∧ f 64 = crc32c (b.take 64) then
    some ⟨f 4, f 8, (b.drop 16).take 16, (b.drop 32).take 32, sector⟩
  else none

/-- A record written into its sector, erased first. -/
def PwRecord.store (p : PwRecord) (mem : List Host.Cell) : List Host.Cell :=
  Memory.writeL (Memory.clear mem (pwSector p.sector) (pwSector (p.sector + 1))) (pwSector p.sector) p.bytes

/-- R426: at boot the valid record with the highest GEN governs; with none, the image's initial record is written as GEN 1. -/
def Mach.pwBoot (m : Mach) (mem : List Host.Cell) (initial : PwRecord) : Mach × List Host.Cell :=
  let found := [0, 1].filterMap fun i => PwRecord.ofBytes (Memory.readN mem (pwSector i) 68) i
  match newest (·.gen) found with
  | some p => (m.onSafe fun s => { s with pw := p }, mem)
  | none =>
    let p := { initial with gen := 1, sector := 0 }
    (m.onSafe fun s => { s with pw := p }, p.store mem)

/-- SETPW (R426). -/
def Mach.setPassword (m : Mach) (mem : List Host.Cell) (v : Word) (ok : Bool) : Mach × List Host.Cell :=
  let n := v.bits 5 0
  let pw := m.pwBytes n
  if m.sess ≠ 2 then ((m.raise 0x400D 0).safeIrq 5, mem)
  else
    let m := m.onSafe fun s => { s with sessAt := m.now }
    if !pwOk n pw then (m.sessRefuse 5, mem)
    else
      let x := m.clearPw.logAppend mem ok 4 0 0 0
      if ok then
        let old := x.1.safe.pw
        let salt := leBytes 16 (Config.saltOf old.gen).toNat
        let p : PwRecord := ⟨old.gen + 1, old.iter, salt, passwordHash salt pw old.iter, 1 - old.sector⟩
        (x.1.onSafe fun s => { s with pw := p }, p.store x.2)
      else (x.1.sessRefuse 4, x.2)

/-- R424: at boot the count and the lockout are rebuilt from the failures logged since the last success. -/
def Mach.sessBoot (m : Mach) (mem : List Host.Cell) : Mach :=
  let all := logEntries mem
  let kind (x : Nat × List Nat) : Nat := x.2.getD 24 0
  let won := ((newest (·.1) (all.filter fun x => kind x == 1)).map (·.1)).getD 0
  let n := (all.filter fun x => kind x == 2 && decide (won < x.1)).length
  (m.setFld Reg.SAFE_SESS_STAT 23 16 (min n 255)).lockOut

/-- A write of SAFE_SESS_CMD (R431). -/
def Mach.sessCommand (m : Mach) (mem : List Host.Cell) (v : Word) (ok : Bool) : Mach × List Host.Cell :=
  match v.bits 31 28 with
  | 1 => (m.openSession v, mem)
  | 2 => m.closeSession mem ok
  | 3 => m.setPassword mem v ok
  | _ => ((m.raise 0x400D 0).safeIrq 5, mem)

/-- A write of the service lane that touches memory (R300). -/
def Mach.serviceMem (m : Mach) (mem : List Host.Cell) (who : Writer) (a : Nat) (v : Word)
    (eff : Mach → Mach × List Host.Cell) : Mach × List Host.Cell :=
  match who with
  | .safety => (m, mem)
  | .lane l =>
    if m.inTick l && m.pairedLive then (m.collect l a v, mem)
    else if m.service == l && (m.admitted l || !m.tick.running) then eff m
    else (m.incMod Reg.LANE_NETSTAT 15 0, mem)

/-! ### The rows -/

/-- SESSION_OPEN (R423): a write of SAFE_SESS_CMD with CMD 1. -/
def execSessionOpen (cyc : Nat) (who : Writer) (value : Word) (s : State) : Host.Outcome State Fault Refusal :=
  let v := value.withBits 31 28 1
  runMem s cyc fun m mem => m.serviceMem mem who Reg.SAFE_SESS_CMD v fun m => m.sessCommand mem v true

/-- PASSWORD_CHECK_COMPLETE (R424): `ok` says that the log entry verifies. -/
def execPasswordCheckComplete (cyc : Nat) (ok : Bool) (s : State) : Host.Outcome State Fault Refusal :=
  runMem s cyc fun m mem => m.checkPassword mem ok

/-- SESSION_CLOSE (R425): a write of SAFE_SESS_CMD with CMD 2. -/
def execSessionClose (cyc : Nat) (who : Writer) (value : Word) (ok : Bool) (s : State) : Host.Outcome State Fault Refusal :=
  let v := value.withBits 31 28 2
  runMem s cyc fun m mem => m.serviceMem mem who Reg.SAFE_SESS_CMD v fun m => m.sessCommand mem v ok

/-- SESSION_TIMEOUT (R425). -/
def execSessionTimeout (cyc : Nat) (ok : Bool) (s : State) : Host.Outcome State Fault Refusal :=
  runMem s cyc fun m mem =>
    if m.sessOpen && m.mode != .service && decide (m.safe.sessAt + m.image.sesstmo * oneSecond ≤ m.now) then
      m.endSession mem ok 1
    else (m, mem)

/-- SESSION_LOCKOUT_EXPIRY (R424). -/
def execSessionLockoutExpiry (cyc : Nat) (s : State) : Host.Outcome State Fault Refusal :=
  run s cyc fun m =>
    if m.sess == 3 && decide (m.safe.lockUntil ≤ m.now) then (m.setSess 0).setFld Reg.SAFE_SESS_STAT 15 0 0 else m

/-- SET_PASSWORD (R426): a write of SAFE_SESS_CMD with CMD 3. -/
def execSetPassword (cyc : Nat) (who : Writer) (value : Word) (ok : Bool) (s : State) : Host.Outcome State Fault Refusal :=
  let v := value.withBits 31 28 3
  runMem s cyc fun m mem => m.serviceMem mem who Reg.SAFE_SESS_CMD v fun m => m.sessCommand mem v ok

end Sys2Proof.Machine
end

