-- ==== Sys2Proof/Machine/Image.lean ====
section
/-! DEFINITION. The Nalsil image (R434 to R442): its bytes taken apart, the budget of R44 to R46, and what loading it writes
(R455). -/

namespace Sys2Proof.Machine

/-! ### Bytes -/

/-- `n` bytes of a memory in canonical form from `a` on, walking it once. -/
def Memory.span : Nat → Nat → List Host.Cell → List Nat
  | 0, _, _ => []
  | n + 1, a, mem =>
    match mem.dropWhile fun c => decide (c.1 < a) with
    | [] => (Memory.unlisted a).toNat :: Memory.span n (a + 1) []
    | (b, x) :: t =>
      if b = a then x.toNat :: Memory.span n (a + 1) t else (Memory.unlisted a).toNat :: Memory.span n (a + 1) ((b, x) :: t)

/-- `n` bytes of a payload from offset `o`. -/
def cut (b : List Nat) (o n : Nat) : List Nat := (b.drop o).take n

/-- A little-endian field of `n` bytes at offset `o`. -/
def le (b : List Nat) (o n : Nat) : Nat := ofLeBytes (cut b o n)

/-- A number rounded up to a multiple of 16. -/
def pad16 (n : Nat) : Nat := (n + 15) / 16 * 16

/-- `l` cut into records of `n` entries, `k` of them. -/
def chunks : Nat → Nat → List Nat → List (List Nat)
  | 0, _, _ => []
  | k + 1, n, l => l.take n :: chunks k n (l.drop n)

/-! ### Folios (R436) -/

/-- A folio: its type, the offset of its header in the image, its CRC field and its payload. -/
structure Folio where
  type : Nat
  off : Nat
  len : Nat
  crc : Nat
  data : List Nat
  deriving DecidableEq, Repr, Inhabited

/-- The folios from offset `o` to the SIGNATURE folio, at most `n`. -/
def foliosFrom : Nat → List Nat → Nat → Nat → List Folio
  | 0, _, _, _ => []
  | n + 1, b, o, sigoff =>
    if sigoff < o then []
    else
      let h := cut b 0 16
      let len := le h 4 4
      let rest := b.drop (16 + pad16 len)
      ⟨h.headD 0, o, len, le h 8 4, cut b 16 len⟩ :: (if b.length < 16 + len then [] else foliosFrom n rest (o + 16 + pad16 len) sigoff)

/-- The folios of an image. -/
def folios (b : List Nat) : List Folio := foliosFrom 16 (b.drop 64) 64 (le b 24 4)

/-- The payload of the folio of a type; empty when it is missing. -/
def payload (fs : List Folio) (t : Nat) : List Nat := ((fs.find? fun f => f.type == t).map (·.data)).getD []

/-- The offset of a folio's header. -/
def folioOff (fs : List Folio) (t : Nat) : Nat := ((fs.find? fun f => f.type == t).map (·.off)).getD 0

/-! ### STRUCTURE (R439) -/

/-- The type of a code of R439. -/
def SlotType.ofCode : Nat → SlotType
  | 0 => .traction
  | 1 => .chopper
  | 2 => .pfc3
  | 3 => .dab
  | 4 => .dcx
  | 5 => .buckn
  | 6 => .bldc
  | _ => .pump

/-- A 16-byte slot entry, with its accumulator list. -/
def slotOf (accs : List Nat) (e : List Nat) : SlotEntry :=
  { slot := e.getD 0 0, type := SlotType.ofCode (e.getD 1 0), slane := Lane.ofIx (e.getD 2 0), rlog := signed 8 (e.getD 3 0),
    pairs := le e 4 2, table := if e.getD 7 0 = 0xFF then none else some (e.getD 7 0), legs := le e 8 4 % 2 ^ 24,
    possrc := e.getD 13 0, accs := (accs.drop (le e 14 2)).take (e.getD 12 0) }

/-- The accumulator lists of a STRUCTURE payload, as 16-bit entries up to the load list. -/
def accLists (d : List Nat) : List Nat :=
  let a := d.drop (le d 12 4)
  (chunks (a.length / 2) 2 a).map ofLeBytes

/-- The slot map of a STRUCTURE payload. -/
def slotMap (d : List Nat) : List SlotEntry := (chunks (d.getD 6 0) 16 (d.drop (le d 8 4))).map (slotOf (accLists d))

/-! ### Load lists (R438) -/

/-- An entry of a load list: the folio's type and header offset, its index, its offset in the image, ADDR and VALUE. -/
structure LoadEntry where
  folio : Nat
  base : Nat
  index : Nat
  off : Nat
  addr : Nat
  value : Nat
  deriving DecidableEq, Repr, Inhabited

/-- `n` entries of a payload from offset `o`, as far as the payload goes. -/
def loadList (f : Folio) (o n : Nat) : List LoadEntry :=
  (chunks (min n (f.data.length / 8)) 8 (f.data.drop o)).mapIdx fun i e => ⟨f.type, f.off, i, f.off + 16 + o + 8 * i, le e 0 4, le e 4 4⟩

/-- The load lists of an image, in the order of R455. -/
def loadLists (fs : List Folio) : List LoadEntry :=
  fs.flatMap fun f =>
    match f.type with
    | 0x01 => loadList f (le f.data 16 4) (le f.data 20 4)
    | 0x02 => loadList f 16 (le f.data 0 4)
    | 0x03 => loadList f 16 (le f.data 0 4)
    | 0x0A => loadList f 16 (le f.data 0 4)
    | 0x07 => loadList f (le f.data 0 4) (le f.data 4 4)
    | _ => []

/-! ### Tables, curves, envelopes (R440 to R442) -/

/-- The bytes that a table record takes. -/
def tableLen (r : List Nat) : Nat := 8 + (r.getD 2 0 + 3) / 4 * 4 + 12 * le r 4 2

/-- A state-table record. -/
def tableOf (r : List Nat) : Table :=
  let n := r.getD 2 0
  let rows := chunks (le r 4 2) 12 (r.drop (8 + (n + 3) / 4 * 4))
  { num := r.getD 0 0, owner := r.getD 1 0, nstate := n, init := r.getD 3 0,
    flags := (cut r 8 n).map fun b => b.testBit 0,
    rows := rows.map fun w => ⟨w.getD 0 0, w.getD 1 0, w.getD 2 0, w.getD 3 0, le w 4 2, le w 6 2, le w 8 4⟩ }

/-- `n` table records, one after another. -/
def tableRecords : Nat → List Nat → List (List Nat)
  | 0, _ => []
  | n + 1, b => b.take (tableLen b) :: tableRecords n (b.drop (tableLen b))

/-- The table records of an image: those of MACHINES, then those of SAFETY. -/
def tableBytes (fs : List Folio) : List (List Nat) :=
  let mc := payload fs 0x06
  let sf := payload fs 0x07
  tableRecords (min (le mc 0 4) (mc.length / 8)) (mc.drop 16) ++ tableRecords (sf.getD 13 0) (sf.drop (le sf 16 4))

/-- `n` curve records, one after another: number and points as bytes. -/
def curveRecords : Nat → List Nat → List (List Nat)
  | 0, _ => []
  | n + 1, b => let k := 4 + 8 * b.getD 1 0; b.take k :: curveRecords n (b.drop k)

/-- A curve record. -/
def curveOf (r : List Nat) : Curve :=
  ⟨r.getD 0 0, (chunks (r.getD 1 0) 8 (r.drop 4)).map fun p => (signed 32 (le p 0 4), signed 32 (le p 4 4))⟩

/-- The curves of an image. -/
def curvesOf (fs : List Folio) : List Curve :=
  let d := payload fs 0x05
  (curveRecords (min (le d 0 4) (d.length / 4)) (d.drop 4)).map curveOf

/-- An envelope entry of 32 bytes (R318, R440). -/
def envelopeOf (e : List Nat) : Envelope :=
  let r := e.drop 8
  ⟨e.getD 0 0, r.take 5, r.getD 5 0, le r 6 2, (le r 8 4 : Nat), signed 32 (le r 12 4), signed 32 (le r 16 4), r.getD 20 0⟩

/-- A segment record with its data, `n` of them (R439). -/
def segmentsOf : Nat → List Nat → List Segment
  | 0, _ => []
  | n + 1, b =>
    let len := le b 8 4
    ⟨b.headD 0, le b 4 4, cut b 16 len⟩ :: segmentsOf n (b.drop (16 + pad16 len))

/-- The firmware segments of an image. -/
def firmware (fs : List Folio) : List Segment := let d := payload fs 0x08; segmentsOf (min (le d 12 4) (d.length / 16)) (d.drop 16)

/-- R437: what an image gives the device besides register values. -/
def imageOf (b : List Nat) (fs : List Folio) : Image :=
  let st := payload fs 0x01
  let sf := payload fs 0x07
  let fw := payload fs 0x08
  { loaded := true, arrinit := st.getD 4 0, arrok := st.getD 5 0
    motors := [0, 1].filter fun i => [0, 1].any fun l => (loadLists fs).any fun e => e.addr == Reg.FOC_M_CFG l i, slots := slotMap st, curves := curvesOf fs,
    tables := (tableBytes fs).map tableOf,
    envelopes := (chunks (sf.getD 12 0) 32 (sf.drop (le sf 8 4))).map envelopeOf,
    seeds := (chunks (sf.getD 14 0) 8 (sf.drop (le sf 20 4))).map fun e => (e.getD 0 0, le e 4 4),
    sesstmo := le sf 28 2, bgentry := le fw 0 8, codecrc := le fw 8 4, secver := le b 28 4 }

/-- R440: the image's initial password record. -/
def initialPassword (fs : List Folio) : Option PwRecord :=
  let sf := payload fs 0x07
  PwRecord.ofBytes (cut sf (le sf 24 4) 68) 0

/-- R440, R455 step 4: law memory as the LAW folio fills it; bank 1 is a copy of bank 0 when the folio holds one bank. -/
def lawWords (fs : List Folio) : List (Nat × Word) :=
  let d := payload fs 0x04
  let n := min (le d 0 4) 6144
  let one := d.getD 4 0 == 1
  let topo := (chunks n 4 (d.drop 16)).map ofLeBytes
  let recs := d.drop (16 + pad16 (4 * n))
  let bank0 := (chunks (8 * n) 4 recs).map ofLeBytes
  let bank1 := if one then bank0 else (chunks (8 * n) 4 (recs.drop (32 * n))).map ofLeBytes
  let at_ (base : Nat) (l : List Nat) : List (Nat × Word) :=
    (l.mapIdx fun i v => (base + i, BitVec.ofNat 32 v)).filter fun x => x.2 != 0#32
  at_ 0 bank0 ++ at_ (2 ^ 16) bank1 ++ at_ (2 ^ 17) topo

/-- The registers after the load lists, newest write first: every VALUE keeps only the bits that a load may write. -/
def loadedRegs (v : Variant) (ls : List LoadEntry) : List (Nat × Word) :=
  (ls.map fun e => match regAt e.addr with
    | some (r, ix) => (e.addr, (BitVec.ofNat 32 e.value &&& BitVec.ofNat 32 r.rwl) |||
        (resetValue v r.reset ix &&& ~~~(BitVec.ofNat 32 r.rwl)))
    | none => (e.addr, 0#32)).reverse

/-- R438, R455 step 3: TICK_PERIOD from PERIOD and the load lists; what R62 and R136 derive at once. -/
def Mach.loadRegs (m : Mach) (b : List Nat) (fs : List Folio) : Mach :=
  let p := le (payload fs 0x01) 0 4
  let ls := loadLists fs
  let m := { m with regs := loadedRegs m.variant ls ++ m.regs, image := imageOf b fs }
  let m := ((m.wrN Reg.TICK_PERIOD p).wrN Reg.TICK_DEADLINE (p * 85 / 100)).wrN Reg.TICK_LAWCAP (p * 85 / 100 - 656)
  forL [0, 1] (fun l m => forL [0, 1] (fun i m =>
    if ls.any fun e => e.addr == Reg.FOC_M_CFG l i then m.setBit (Reg.FOC_STATUS l) (2 + i) true else m) m) m

/-! ### The budget (R44 to R46) -/

/-- Gate channels that a slot owns, the g of R44 halved: 2 for each pair or leg, 1 for a single switch. -/
def Mach.gateCount (m : Mach) (e : SlotEntry) : Nat :=
  ((e.pairList.map fun p => if m.fld (Reg.GDI_PR_CFG p) 27 26 = 2 then 1 else 2) ++ e.legList.map fun _ => 2).sum

/-- The Locate cost of a TRACTION slot, by its motor's source and its channel's type. -/
def Mach.locateCost (m : Mach) (e : SlotEntry) : Nat :=
  match [0, 1].find? fun i => m.motorSet i && m.fld (Reg.FOC_M_CFG 0 i) 31 28 == e.slot with
  | none => 160
  | some i =>
    match m.fld (Reg.FOC_M_CFG 0 i) 26 25 with
    | 0 =>
      match m.fld (Reg.POS_CH_CFG (m.fld (Reg.FOC_M_CFG 0 i) 24 24)) 31 29 with
      | 1 => 48
      | 2 => 32
      | _ => 40
    | 1 => 160
    | _ => 184

/-- R44: the six costs of a slot. -/
def Mach.costs (m : Mach) (e : SlotEntry) : List Nat :=
  let s := m.fld (Reg.LAW_SLOT_CFG 0 e.slot) 28 16
  let c : Nat × Nat × Nat := match e.type with
    | .traction => (m.locateCost e, 64, 40)
    | .pfc3 => (4, 64, 40)
    | .dab => (4, 24, 24)
    | .buckn => (4, 24, 48)
    | .dcx => (4, 12, 8)
    | .chopper => (4, 8, 8)
    | .bldc => (16, 16, 16)
    | .pump => (16, 16, 16)
  [16 + 2 * e.accs.length, c.1, c.2.1, 8 + s, c.2.2, 8 + 2 * m.gateCount e]

/-- One slot of the recurrence of R46: `row` holds the completion cycles of the slot before, `left` that of the stage before. -/
def stageDone : List Nat → List Nat → Nat → List Nat
  | d :: ds, c :: cs, left => let x := max d left + c; x :: stageDone ds cs x
  | _, _, _ => []

/-- R46: the completion cycles of the last slot of a list. -/
def Mach.schedule46 (m : Mach) (es : List SlotEntry) : List Nat :=
  es.foldl (fun row e => stageDone row (m.costs e) 1) (List.replicate 6 0)

/-- The slots that a lane runs in an arrangement, in schedule order. -/
def Mach.laneSlots (m : Mach) (arr : Nat) (l : Lane) : List SlotEntry :=
  (m.schedule.filterMap m.slotEntry).filter fun e => arr != 2 || e.slane == l

/-- R46: last_emit of a lane in an arrangement; 0 with no slot. -/
def Mach.lastEmit (m : Mach) (arr : Nat) (l : Lane) : Nat :=
  let es := m.laneSlots arr l
  if es.isEmpty then 0 else (m.schedule46 es).getD 5 0

/-- R46: sections of a lane in an arrangement. -/
def Mach.sections (m : Mach) (arr : Nat) (l : Lane) : Nat :=
  ((m.laneSlots arr l).map fun e => m.fld (Reg.LAW_SLOT_CFG 0 e.slot) 28 16).sum

/-- R47: TICK_PREDICT for an arrangement. -/
def Mach.predict (m : Mach) (arr : Nat) : Mach :=
  let word (l : Lane) : Nat := m.sections arr l % 2 ^ 16 * 2 ^ 16 + m.lastEmit arr l
  (m.wrN (Reg.TICK_PREDICT 0) (word .a)).wrN (Reg.TICK_PREDICT 1) (word .b)

/-! ### What the loader computes -/

/-- R105, R145: round(BASE × (2.5P − L) × 2.5 ns × 2^32), BASE in mHz. -/
def Mach.advk (m : Mach) (base latch : Nat) : Int :=
  roundHalfAway (base * (5 * m.period - 2 * latch : Int) * 2 ^ 32 * 5) (4 * 10 ^ 12)

/-- R146: the angle of one tick at 1.0 pu. -/
def Mach.kw (m : Mach) (base : Nat) : Int := roundHalfAway (base * m.period * 2 ^ 32 * 5) (2 * 10 ^ 12)

/-- R148: round(ω_B × P × 2.5 ns × 2^30). -/
def Mach.kt (m : Mach) (base : Nat) : Int := roundHalfAway (base * m.period * 5 * twoPi96 * 2 ^ 30) (2 * 10 ^ 12 * 2 ^ 96)

/-- R143: √3 × PSI, rounded. -/
def emfk (psi : Int) : Int :=
  let r : Int := ((isqrtBits 64 (12 * psi * psi).toNat 0 + 1) / 2 : Nat)
  if psi < 0 then -r else r

/-- R144: L_m / (τ_r × ω_B), from KR = T_tick / τ_r. -/
def Mach.ksl (m : Mach) (base : Nat) (ld kr : Int) : Int × Mach :=
  let den := base * m.period * 5 * twoPi96 * 2 ^ 30
  m.quotPu (ld * kr * (2 * 10 ^ 12 * 2 ^ 96)) den

/-- The derived constants of a configured motor, in both lanes. -/
def Mach.deriveMotor (m : Mach) (i : Nat) : Mach :=
  if !m.motorSet i then m
  else
    let base := (m.rd (Reg.FOC_M_BASE 0 i)).toNat
    let psi := m.rdS (Reg.FOC_M_PSI 0 i)
    let q := m.quotPu (2 ^ 58 * (if psi < 0 then -1 else 1)) psi.natAbs
    let k := q.2.ksl base (m.rdS (Reg.FOC_M_LD 0 i)) (m.rdS (Reg.FOC_M_IMK 0 i))
    forL [0, 1] (fun l m =>
      let m := m.wrS (Reg.FOC_M_ADVK l i) (m.advk base (m.fld (Reg.FOC_M_CFG 0 i) 15 0))
      let m := (m.wrS (Reg.FOC_M_KW l i) (m.kw base)).wrS (Reg.FOC_M_KT l i) (m.kt base)
      ((m.wrS (Reg.FOC_M_RPSI l i) q.1).wrS (Reg.FOC_M_EMFK l i) (emfk psi)).wrS (Reg.FOC_M_KSL l i) k.1) k.2

/-- R47, R105, R136, R253, R255, R265, R270, R287: every value that the loader computes. -/
def Mach.derive (m : Mach) (arr : Nat) : Mach :=
  let m := (m.predict arr).deriveMotor 0
  let m := m.deriveMotor 1
  let m := forL [0, 1] (fun x m =>
    if m.fld (Reg.POS_CH_CFG x) 31 29 = 0 then m
    else m.wrS (Reg.POS_CH_ADVK x) (m.advk (m.rd (Reg.POS_CH_BASE x)).toNat (m.fld (Reg.POS_CH_CFG x) 15 0))) m
  let plhd (i : Nat) : Int := asr (m.fld Reg.ACT_PLCFG 7 0 * m.rdS (Reg.FOC_M_KW 0 i)) 12
  let m := (m.wrS Reg.ACT_PLHD0 (plhd 0)).wrS Reg.ACT_PLHD1 (plhd 1)
  if (m.slotsOf .pfc3).isEmpty && (m.slotsOf .dab).isEmpty then m
  else
    let fnom := if m.bit Reg.CHG_CFG 23 then 60 else 50
    let m := m.wrS Reg.CHG_KWG (roundHalfAway (fnom * m.period * 2 ^ 32 * 5) (2 * 10 ^ 9))
    let kp := chgKp Config.chgVab Config.chgIab Config.chgVdc Config.chgIdc (m.fld Reg.CHG_LIM 15 8)
    let m := (m.wrN Reg.CHG_KP kp).wrN Reg.CHG_KIAC (chgKiac Config.chgIab)
    (m.wrN Reg.CHG_ZBU (chgZbu Config.chgVdc Config.chgIdc)).wrN Reg.CHG_KVB (chgKvb Config.chgVdc Config.chgVab)

/-! ### Firmware segments (R439, R455 step 6) -/

/-- The bases that a segment's target names: lane SRAM of both lanes, a lane's DRAM part, the shared part. -/
def Mach.segmentBases (m : Mach) (target : Nat) : List Nat :=
  let a := m.fld Reg.DMA_MEMCFG 7 0 * 2 ^ 26
  let b := m.fld Reg.DMA_MEMCFG 15 8 * 2 ^ 26
  match target with
  | 0 => [sramBase .a, sramBase .b]
  | 1 => [0]
  | 2 => [a]
  | _ => [a + b]

/-- The segments written. -/
def Mach.loadFirmware (m : Mach) (mem : List Host.Cell) (fs : List Folio) : List Host.Cell :=
  (firmware fs).foldl (fun mem g => (m.segmentBases g.target).foldl (fun mem b => Memory.writeL mem (b + g.offset) g.data) mem) mem

end Sys2Proof.Machine
end

