-- ==== Sys2Proof/Machine/ImageSeq.lean ====
section
/-! DEFINITION. The loader's simulation of the sequences (R78): triggers over two hyperperiods, groups on converters, truncation and
the free cycles of every converter. -/

namespace Sys2Proof.Machine

/-- A group: its converters and the largest ACQT. -/
structure SimGroup where
  convs : List Nat
  acqt : Nat
  deriving DecidableEq, Repr, Inhabited

/-- A run in the simulation: groups left, the first under way when `until` is set: its sample instant and completion. -/
structure SimRun where
  left : List SimGroup
  started : Option (Nat × Nat)
  deriving DecidableEq, Repr, Inhabited

/-- The simulation: runs by sequence, busy stretches (converter, from, to), and whether a run has been truncated. -/
structure Sim where
  runs : List SimRun
  busy : List (Nat × Nat × Nat)
  cutOff : Bool
  deriving DecidableEq, Repr, Inhabited

/-- The groups of a sequence: an entry with WITH joins the group before it. -/
def groupsOf : List Word → List SimGroup
  | [] => []
  | w :: t =>
    let c := w.bits 23 20
    let a := w.bits 7 0
    match t, groupsOf t with
    | x :: _, g :: gs => if x.bit 31 then ⟨c :: g.convs, max a g.acqt⟩ :: gs else ⟨[c], a⟩ :: g :: gs
    | _, gs => ⟨[c], a⟩ :: gs

/-- The entries of a sequence. -/
def Mach.seqWords (m : Mach) (q : Nat) : List Word :=
  (List.range (m.fld (Reg.ACQ_SEQ_TRIG q) 4 0 + 1)).map fun e => m.rd (Reg.ACQ_SEQ_ENT q e)

/-- A sequence is enabled. -/
def Mach.seqOn (m : Mach) (q : Nat) : Bool := m.fld (Reg.ACQ_SEQ_TRIG q) 31 28 != 0

/-- The carrier extremes of a slot up to cycle `stop`: instants, valleys first (R163). -/
def Mach.extremes (m : Mach) (k stop : Nat) : List (Nat × Bool) :=
  match m.slotEntry k with
  | none => []
  | some e =>
    let r := ratio e.rlog
    let num := m.period * r.2
    let den := 2 * r.1
    (List.range (stop * den / (max num 1) + 1)).map fun j => (j * num / den, j % 2 == 0)

/-- The source instants of a sequence up to cycle `stop` (R75); one that is no whole cycle is rounded down (log entry 72). -/
def Mach.sources (m : Mach) (q stop : Nat) : List Int :=
  let t := m.rd (Reg.ACQ_SEQ_TRIG q)
  let k := t.bits 27 24
  let p := max m.period 1
  let of (f : Bool → Bool) : List Int := ((m.extremes k stop).filter fun x => f x.2).map fun x => (x.1 : Int)
  match t.bits 31 28 with
  | 1 => of id
  | 2 => of (! ·)
  | 3 => of fun _ => true
  | 4 => (List.range (stop / p + 1)).map fun j => ((j * p : Nat) : Int)
  | 5 => (List.range (4 * (stop / p + 1))).map fun j => ((j * p / 4 : Nat) : Int)
  | 6 => (m.extremes k stop).map fun x => (x.1 : Int) - ((m.fld (Reg.MOD_CFG 0 k) 15 0 + 1) / 2 : Nat)
  | _ => []

/-- OFFSET of a sequence, signed. -/
def Mach.seqOffset (m : Mach) (q : Nat) : Int := signed 16 (m.fld (Reg.ACQ_SEQ_TRIG q) 23 8)

/-- The triggers of all sequences before cycle `stop`, in order of time and number. -/
def Mach.triggers (m : Mach) (stop : Nat) : List (Nat × Nat) :=
  let all := (List.range 15).flatMap fun q =>
    ((m.sources q (stop + m.period)).filterMap fun x =>
      let t := x + m.seqOffset q
      if 0 ≤ t ∧ t < stop then some (t.toNat, q) else none)
  all.mergeSort fun x y => decide (x.1 < y.1) || (x.1 == y.1 && decide (x.2 ≤ y.2))

/-- R76: the converters that a run still waits for. -/
def SimRun.waits (r : SimRun) : List Nat :=
  ((if r.started.isSome then r.left.drop 1 else r.left).map (·.convs)).flatten

/-- R74, R76: in a cycle, sequence `q` starts its next group when its converters are free and no lower number waits for them. -/
def Sim.start (s : Sim) (now q : Nat) : Sim :=
  let r := nth s.runs q
  match r.started, r.left with
  | none, g :: _ =>
    let lower := (s.runs.take q).flatMap SimRun.waits
    let held (c : Nat) := s.busy.any fun x => x.1 == c && decide (now < x.2.2)
    if g.convs.any fun c => held c || lower.contains c then s
    else
      let fin := now + g.acqt + 64
      { s with
        runs := upd s.runs q fun r => { r with started := some (now + g.acqt, fin) }
        busy := g.convs.map (fun c => (c, now, fin)) ++ s.busy }
  | _, _ => s

/-- Every sequence is given the chance to start. -/
def Sim.startAll (s : Sim) (now : Nat) : Sim := (List.range 15).foldl (fun s q => s.start now q) s

/-- A run whose group completes at `t` moves on. -/
def SimRun.complete (t : Nat) (r : SimRun) : SimRun :=
  match r.started with
  | some x => if x.2 = t then ⟨r.left.drop 1, none⟩ else r
  | none => r

/-- Completions after `from_`, up to and at `now`, each followed by what can start then; at most `n` of them. -/
def Sim.advance : Nat → Nat → Nat → Sim → Sim
  | 0, _, _, s => s
  | n + 1, from_, now, s =>
    match oldest id ((s.busy.map fun x => x.2.2).filter fun t => decide (from_ < t) && decide (t ≤ now)) with
    | none => s
    | some t => Sim.advance n t now ({ s with runs := s.runs.map (SimRun.complete t) }.startAll t)

/-- R77: a trigger at `now`: the run before is truncated when it has entries to give up. -/
def Sim.trigger (s : Sim) (now q : Nat) (gs : List SimGroup) : Sim :=
  let r := nth s.runs q
  let drops := match r.started with
    | none => !r.left.isEmpty
    | some x => decide (now < x.1) || decide (1 < r.left.length)
  { s with runs := upd s.runs q fun _ => ⟨gs, none⟩, cutOff := s.cutOff || drops }

/-- The triggers taken in turn from the time of the one before. -/
def Sim.runAll (gs : List (List SimGroup)) : List (Nat × Nat) → Nat → Sim → Sim
  | [], at_, s => Sim.advance 500 at_ (at_ + 100000) s
  | (t, q) :: rest, at_, s => Sim.runAll gs rest t (((Sim.advance 500 at_ t s).trigger t q (nth gs q)).startAll t)

/-- R78: the image's hyperperiod in ticks: the longest carrier period. -/
def Mach.hyperTicks (m : Mach) : Nat := (m.image.slots.map fun e => (ratio e.rlog).2).foldl max 1

/-- R78: the whole simulation over two hyperperiods. -/
def Mach.simulate (m : Mach) : Sim :=
  let stop := 2 * m.hyperTicks * m.period
  let gs := (List.range 15).map fun q => if m.seqOn q then groupsOf (m.seqWords q) else []
  let s : Sim := ⟨List.replicate 15 ⟨[], none⟩, [], false⟩
  Sim.runAll gs (m.triggers stop) 0 s

/-- Busy cycles of a converter in a stretch. -/
def Sim.busyIn (s : Sim) (c a b : Nat) : Nat :=
  (s.busy.map fun x => if x.1 = c then min x.2.2 b - max x.2.1 a else 0).sum

/-- R78: no run truncated, and 160 free cycles on every converter in every tick. -/
def Mach.sequencesFit (m : Mach) : Bool :=
  let s := m.simulate
  !s.cutOff && (List.range (2 * m.hyperTicks)).all fun t => (List.range 12).all fun c =>
    decide (s.busyIn c (t * m.period) ((t + 1) * m.period) + 160 ≤ m.period)

end Sys2Proof.Machine
end

