-- ==== Sys2Proof/Machine/ImageCheck.lean ====
section
/-! DEFINITION. The image check (R445, R446): the sixteen rules in order, the first failing item reported. Register values are judged
as they stand after loading (R514), and only while what they configure is in use. -/

namespace Sys2Proof.Machine

/-- What IMG_REJECT and IMG_REJOFF report. -/
structure Reject where
  rule : Nat
  folio : Nat
  detail : Nat
  off : Nat
  deriving DecidableEq, Repr, Inhabited

/-- A check: nothing when it holds. -/
def need (ok : Bool) (r : Reject) : Option Reject := if ok then none else some r

/-- The first failing check of a list. -/
def firstOf (l : List (Option Reject)) : Option Reject := (l.filterMap id).head?

/-- A number lies in a range. -/
def within (lo v hi : Nat) : Bool := decide (lo ≤ v) && decide (v ≤ hi)

/-- No number stands twice. -/
def distinct : List Nat → Bool
  | [] => true
  | x :: t => !t.contains x && distinct t

/-- What the check works on: the bytes, the folios, the load lists, and the device as the load lists would leave it. -/
structure Trial where
  b : List Nat
  fs : List Folio
  ls : List LoadEntry
  m : Mach
  deriving DecidableEq, Repr

/-- R514: the folio that loads a register (R437). -/
def loaderFolio (a : Nat) : Nat :=
  let block := a / 2 ^ 16
  if a = Reg.GDI_OV ∨ block = 0x10 ∨ (Reg.LANE_HOLDLIM 0 ≤ a ∧ a ≤ Reg.LANE_HOLDLIM 3) then 0x07
  else if block = 0x02 then (if 0x22000 ≤ a ∧ a < 0x23000 then 0x03 else 0x02)
  else if block = 0x13 then 0x0A
  else 0x01

/-- A failing register: the entry that wrote it, or its folio with DETAIL 0xFFFF (R514). -/
def Trial.at_ (t : Trial) (rule a : Nat) : Reject :=
  match t.ls.find? fun e => e.addr == a with
  | some e => ⟨rule, e.folio, e.index, e.off⟩
  | none => ⟨rule, loaderFolio a, 0xFFFF, folioOff t.fs (loaderFolio a)⟩

/-- A check of a register. -/
def Trial.reg (t : Trial) (rule a : Nat) (ok : Bool) : Option Reject := need ok (t.at_ rule a)

/-- A field of a register lies in a range. -/
def Trial.range (t : Trial) (a hi lo least most : Nat) : Option Reject := t.reg 9 a (within least (t.m.fld a hi lo) most)

/-- A failing item of a payload: its index and its offset in the payload. -/
def Trial.item (t : Trial) (rule folio index o : Nat) : Reject := ⟨rule, folio, index, folioOff t.fs folio + 16 + o⟩

/-- The payload of a folio. -/
def Trial.pay (t : Trial) (f : Nat) : List Nat := payload t.fs f

/-! ### Rules 1 to 3, 5 -/

/-- Rule 1: the header. -/
def checkHeader (b : List Nat) : Option Reject :=
  let len := le b 8 4
  let sig := le b 24 4
  firstOf [need (le b 0 4 == 0x4C534C4E) ⟨1, 0, 0, 0⟩, need (le b 4 2 == 1) ⟨1, 0, 0, 4⟩, need (le b 6 2 == 64) ⟨1, 0, 0, 6⟩,
    need (le b 60 4 == crc32c (b.take 60)) ⟨1, 0, 0, 60⟩, need (decide (len ≤ 33554432)) ⟨1, 0, 0, 8⟩,
    need (sig % 16 == 0 && decide (64 ≤ sig) && sig + 160 == len) ⟨1, 0, 0, 24⟩]

/-- Rule 1, with the image read: SIGOFF points at the SIGNATURE folio. -/
def checkSigoff (b : List Nat) : Option Reject := need (b.getD (le b 24 4) 0 == 0x0C) ⟨1, 0, 0, 24⟩

/-- R447: a signature under the device's key slots. -/
def keyAccepts (keys : List (Option (List Nat))) (revoked : List Bool) (g : Signature) (msg : List Nat) : Bool :=
  within 1 g.key 3 && !nth revoked (g.key - 1) &&
    match keys.getD (g.key - 1) none with
    | some h => g.accepts msg h
    | none => false

/-- R448: the SAFETY_FW payload ends with Gnostindi's signature. -/
def firmwareSigned (d : List Nat) : Bool :=
  let n := d.length - 144
  let g := Signature.ofBytes (d.drop n)
  decide (144 ≤ d.length) && g.key == 0 && g.accepts (d.take n) (beBytes 32 Config.romKeyHash.toNat)

/-- Rule 2: the two signatures. -/
def checkSignatures (keys : List (Option (List Nat))) (revoked : List Bool) (b : List Nat) (fs : List Folio) : Option Reject :=
  let sig := le b 24 4
  let fw := fs.find? fun f => f.type == 0x09
  firstOf [need (keyAccepts keys revoked (Signature.ofBytes (cut b (sig + 16) 144)) (b.take sig)) ⟨2, 0x0C, 0, sig⟩,
    need (match fw with
      | some f => firmwareSigned f.data
      | none => true) ⟨2, 0x09, 0, folioOff fs 0x09⟩]

/-- Rule 3: the folios, in order. -/
def checkFolios (b : List Nat) (fs : List Folio) : Option Reject :=
  let sig := le b 24 4
  let types := fs.map (·.type)
  let one (prev : Nat) (f : Folio) : Option Reject := need
    ((within 1 f.type 0x0A || f.type == 0x0C) && decide (prev < f.type) &&
      (f.off == sig || decide (f.off + 16 + pad16 f.len ≤ sig)) && (f.type == 0x0C) == (f.off == sig) &&
      f.data.length == f.len && f.crc == crc32c f.data) ⟨3, f.type, 0, f.off⟩
  firstOf (List.zipWith one (0 :: types) fs ++
    [0x01, 0x02, 0x03, 0x04, 0x06, 0x07, 0x08, 0x09, 0x0C].map (fun t => need (types.contains t) ⟨3, t, 0, 0⟩) ++
    [need (le b 32 4 == fs.length) ⟨3, 0, 0, 32⟩])

/-! ### Rule 4: the variant (R4, R93, R192, R224, R250, R280) -/

/-- The bit of VARIANTS. -/
def variantBit : Variant → Nat
  | .px960 => 0
  | .px945 => 1
  | .px930 => 2

/-- Whether the unit that a slot's type and channels name is present. -/
def slotUnit (v : Variant) (e : SlotEntry) : Bool :=
  let pairs := e.pairList.all fun p => (gdiChannels v).testBit (2 * p)
  pairs && match e.type with
    | .traction => hasUnit v 0
    | .chopper => hasUnit v 2
    | .pfc3 => hasUnit v 3
    | .dab => hasUnit v 3
    | .dcx => hasUnit v 4
    | .buckn => hasUnit v 4
    | .bldc => hasUnit v 5
    | .pump => hasUnit v 6

/-- Rule 4. -/
def Trial.units (t : Trial) : Option Reject :=
  let v := t.m.variant
  let so := le (t.pay 1) 8 4
  firstOf ([need ((le t.b 12 4).testBit (variantBit v)) ⟨4, 0, 0, 12⟩] ++
    t.m.image.slots.mapIdx (fun i e => need (slotUnit v e) (t.item 4 1 i (so + 16 * i))) ++
    t.m.image.slots.mapIdx (fun i e => need (hasUnit v 7 || e.possrc != 1) (t.item 4 1 i (so + 16 * i))) ++
    ([0, 1].map fun p => t.reg 4 (Reg.POS_PRB_CFG p) (hasUnit v 7 || t.m.fld (Reg.POS_PRB_CFG p) 28 28 == 0)) ++
    t.ls.map fun e => need (match regAt e.addr with
      | some (r, ix) => !absentReg v r ix
      | none => true) ⟨4, e.folio, e.index, e.off⟩)

/-! ### Rule 6: STRUCTURE and the slot map -/

/-- R190, R191: the pairs and legs that a type may own. -/
def ownsGroup (e : SlotEntry) : Bool :=
  let p := e.pairs
  let j := e.legs
  match e.type with
  | .traction => (p == 0x0007 || p == 0x0038) && j == 0
  | .chopper => (p == 0x0040 || p == 0x8000) && j == 0
  | .pfc3 => p == 0x0700 && j == 0
  | .dab => p == 0x7800 && j == 0
  | .dcx => (p == 0x0080 || p == 0x8000) && j == 0
  | .buckn => p == 0 && j == 0x3F
  | .bldc => p == 0 && (List.range 4).any fun d => j == 7 * 2 ^ (6 + 3 * d)
  | .pump => p == 0 && [4, 5].any fun d => j == 7 * 2 ^ (6 + 3 * d)

/-- R439, R250, R224, R292: the table that a type carries. -/
def tableFits (ts : List Table) (e : SlotEntry) : Bool :=
  let owner (n : Nat) (o : Nat) := ts.any fun t => t.num == n && t.owner == o
  match e.type, e.table with
  | .traction, some n => owner n 1
  | .chopper, some n => owner n 1
  | .bldc, some n => owner n 2
  | .bldc, none => false
  | _, some _ => false
  | _, none => true

/-- Rule 6: the global part of STRUCTURE. -/
def Trial.structGlobal (t : Trial) : Option Reject :=
  let d := t.pay 1
  let n := d.length
  let c (o : Nat) (ok : Bool) := need ok (t.item 6 1 0 o)
  firstOf [c 0 (decide (32 ≤ n) && within 4000 (le d 0 4) 40000), c 4 (within 1 (d.getD 4 0) 2),
    c 5 ((d.getD 5 0).testBit (d.getD 4 0 - 1)), c 6 (within 1 (d.getD 6 0) 16),
    c 8 (decide (le d 8 4 + 16 * d.getD 6 0 ≤ n)), c 12 (decide (le d 12 4 ≤ n)), c 16 (decide (le d 16 4 + 8 * le d 20 4 ≤ n))]

/-- Things owned twice: something of the earlier slots appears again. -/
def ownedTwice (before : List SlotEntry) (e : SlotEntry) : Bool :=
  before.any fun x => x.slot == e.slot || (x.pairs &&& e.pairs) != 0 || (x.legs &&& e.legs) != 0 ||
    (x.possrc == e.possrc && e.possrc != 0xFF)

/-- The configured motors that serve a slot (R136). -/
def Trial.motors (t : Trial) (k : Nat) : List Nat :=
  [0, 1].filter fun i => t.m.motorSet i && t.m.fld (Reg.FOC_M_CFG 0 i) 31 28 == k

/-- Rule 6: the slot map. -/
def Trial.slots (t : Trial) : Option Reject :=
  let d := t.pay 1
  let es := t.m.image.slots
  let so := le d 8 4
  let entries := accLists d
  firstOf (es.mapIdx (fun i e =>
    let raw := cut d (so + 16 * i) 16
    need (decide (raw.getD 0 0 < 16) && decide (raw.getD 1 0 < 8) && decide (raw.getD 2 0 < 2) && decide (raw.getD 12 0 ≤ 48) &&
        decide (le raw 14 2 + raw.getD 12 0 ≤ entries.length) && !ownedTwice (es.take i) e && ownsGroup e &&
        (decide (e.possrc < 2) || within 0x10 e.possrc 0x15 || e.possrc == 0xFF) && tableFits t.m.image.tables e &&
        (e.type != .traction || (t.motors e.slot).length == 1))
      (t.item 6 1 i (so + 16 * i))) ++
    [0, 1].map fun i => t.reg 6 (Reg.FOC_M_CFG 0 i)
      (!t.m.motorSet i || t.m.isType (t.m.fld (Reg.FOC_M_CFG 0 i) 31 28) .traction))

/-! ### Rules 7 and 8: carriers and the budget -/

/-- R43: the ratios of a type, as RLOG. -/
def ratioOk (e : SlotEntry) : Bool :=
  let inside (lo hi : Int) := decide (lo ≤ e.rlog) && decide (e.rlog ≤ hi)
  match e.type with
  | .traction => inside (-2) 0
  | .chopper => inside (-3) 0
  | .pfc3 => inside (-1) 1
  | .dab => inside 1 4
  | .dcx => inside 2 5
  | .buckn => inside 0 3
  | .bldc => inside (-1) 1
  | .pump => inside (-1) 1

/-- Rule 7. -/
def Trial.carriers (t : Trial) : Option Reject :=
  let so := le (t.pay 1) 8 4
  firstOf (t.m.image.slots.mapIdx fun i e =>
    need (ratioOk e && t.m.period % (ratio e.rlog).1 == 0) (t.item 7 1 i (so + 16 * i)))

/-- The first and last section of a slot's cascade. -/
def Trial.cascade (t : Trial) (k : Nat) : Nat × Nat :=
  let a := Reg.LAW_SLOT_CFG 0 k
  (t.m.fld a 12 0, t.m.fld a 12 0 + t.m.fld a 28 16)

/-- The cascades of a list of slots do not overlap. -/
def Trial.apart (t : Trial) : List SlotEntry → Bool
  | [] => true
  | e :: es => (es.all fun x =>
      let p := t.cascade e.slot
      let q := t.cascade x.slot
      p.1 == p.2 || q.1 == q.2 || decide (p.2 ≤ q.1) || decide (q.2 ≤ p.1)) && t.apart es

/-- Rule 8: R46 in every permitted arrangement, and the cascades. -/
def Trial.budget (t : Trial) : Option Reject :=
  let ok (arr : Nat) : Bool := !(t.m.image.arrok.testBit (arr - 1)) || [Lane.a, Lane.b].all fun l =>
    decide (t.m.sections arr l ≤ min (t.m.rd Reg.TICK_LAWCAP).toNat 6144) && decide (t.m.lastEmit arr l ≤ t.m.deadline)
  firstOf [need (ok 1 && ok 2) (t.item 8 1 0 0), need (t.apart t.m.image.slots) (t.item 8 1 0 0)]

/-! ### Rule 9: load lists and register values (R438, R514) -/

/-- R438: the entries of the load lists. -/
def Trial.entries (t : Trial) : Option Reject :=
  let arrays := [2, 3, 0x0A].map fun f => need (decide (8 * le (t.pay f) 0 4 + 16 ≤ (t.pay f).length) || (t.pay f).isEmpty)
    (t.item 9 f 0 0)
  let one (i : Nat) (e : LoadEntry) : Option Reject := need
    ((match regAt e.addr with
      | some (r, _) => r.rwl != 0
      | none => false) && loaderFolio e.addr == e.folio && e.addr != Reg.TICK_PERIOD &&
      !(Reg.ACQ_SEQ_TRIG 15 ≤ e.addr ∧ e.addr < 0x24000) && !((t.ls.take i).any fun x => x.addr == e.addr))
    ⟨9, e.folio, e.index, e.off⟩
  let twin (e : LoadEntry) : Option Reject :=
    let block := e.addr / 2 ^ 16
    need (block != 4 && block != 5 && block != 6 || t.m.rd e.addr == t.m.rd (e.addr ^^^ 0x8000)) ⟨9, e.folio, e.index, e.off⟩
  firstOf (arrays ++ t.ls.mapIdx one ++ t.ls.map twin)

/-- The hall triplets in use: those of the slots, of the drives with a role, and of the probes. -/
def Trial.halls (t : Trial) : List Nat :=
  (t.m.image.slots.filterMap fun e => if within 0x10 e.possrc 0x15 then some (e.possrc - 0x10) else none) ++
    (((List.range 6).filter fun d => t.m.fld (Reg.ACT_DRV_CFG d) 27 25 != 0).map fun d => t.m.fld (Reg.GDL_DRV_CFG d) 27 24) ++
    ([0, 1].map fun p => t.m.fld (Reg.POS_PRB_CFG p) 27 24).filter (· < 6)

/-- TICK and ACQ. -/
def Trial.tickAcq (t : Trial) : List (Option Reject) :=
  [0, 1].map (fun l => t.range (Reg.TICK_TASKDL l) 15 0 1000 (t.m.period - 160)) ++
  (List.range 256).map (fun n => t.range (Reg.ACQ_ACFG_CTRL n) 31 29 0 4) ++
  (List.range 15).map (fun q => t.range (Reg.ACQ_SEQ_TRIG q) 31 28 0 6) ++
  ((List.range 15).filter t.m.seqOn).flatMap fun q => (List.range (t.m.fld (Reg.ACQ_SEQ_TRIG q) 4 0 + 1)).map fun e =>
    let w := t.m.rd (Reg.ACQ_SEQ_ENT q e)
    t.reg 9 (Reg.ACQ_SEQ_ENT q e) (decide (w.bits 23 20 ≤ 11) && decide (16 ≤ w.bits 7 0))

/-- POS (R93, R99, R100, R108). -/
def Trial.position (t : Trial) : List (Option Reject) :=
  let m := t.m
  let p := m.period
  let type (x : Nat) := m.fld (Reg.POS_CH_CFG x) 31 29
  let fmt (x : Nat) := m.rd (Reg.POS_CH_FMT x)
  ([0, 1].filter fun x => type x != 0).flatMap (fun x =>
    let f := fmt x
    let cfg := Reg.POS_CH_CFG x
    let latch := m.fld cfg 15 0
    [t.range cfg 31 29 0 4, t.range cfg 28 24 1 16, t.reg 9 cfg (type x != 1 || decide (m.fld cfg 23 21 ≤ 3)),
      t.range cfg 15 0 0 (p - 1), t.range (Reg.POS_CH_STILL x) 31 16 1 65535, t.range (Reg.POS_CH_STILL x) 15 0 1 65535,
      t.reg 9 (Reg.POS_CH_FMT x) (match type x with
        | 2 => decide (1 ≤ f.bits 13 0)
        | 3 => within 12 (f.bits 16 12) 24 && within 3 (f.bits 11 9) 6 && within 12 (f.bits 8 0) 360
        | 4 => within 49 (f.bits 19 8) 1999 && within 10 (f.bits 5 0) 32 &&
          decide (latch + (f.bits 5 0 + f.bits 7 7 + 1) * (2 * (f.bits 19 8 + 1)) ≤ p - 1)
        | _ => true)]) ++
  t.halls.map (fun h => t.reg 9 (Reg.POS_HL_CFG h) ((List.range 8).all fun s => m.fld (Reg.POS_HL_CFG h) (3 * s + 2) (3 * s) != 6)) ++
  ([0, 1].map fun i => t.reg 9 (Reg.POS_PRB_CFG i) (decide (m.fld (Reg.POS_PRB_CFG i) 27 24 ≤ 5 ∨ m.fld (Reg.POS_PRB_CFG i) 27 24 = 15))) ++
  [0, 1].flatMap fun i => [(31, 30, 24, 23, 16), (15, 14, 8, 7, 0)].map fun (en, ih, il, ah, al) =>
    let w := m.rd (Reg.POS_PRB_URG i)
    t.reg 9 (Reg.POS_PRB_URG i) (!w.bit en || (decide (w.bits ih il < 96) && m.fld (Reg.ACQ_ACFG_CTRL (w.bits ah al)) 31 29 == 1 &&
      !m.image.slots.any fun e => e.accs.contains (w.bits ah al)))

/-- LAW (R128, R129) and MOD (R164 to R168), by slot. -/
def Trial.lawMod (t : Trial) : List (Option Reject) :=
  let m := t.m
  m.image.slots.flatMap fun e =>
    let k := e.slot
    let cfg := Reg.MOD_CFG 0 k
    let minp := m.fld (Reg.MOD_PULSE 0 k) 31 16
    let named := (List.range 15).any fun q => m.fld (Reg.ACQ_SEQ_TRIG q) 31 28 == 6 && m.fld (Reg.ACQ_SEQ_TRIG q) 27 24 == k
    [t.range (Reg.LAW_SLOT_OSC 0 k) 31 16 16 65535, t.range (Reg.LAW_SLOT_OSC 0 k) 7 6 0 2, t.range (Reg.LAW_SLOT_OSCAMP 0 k) 31 28 2 12,
      t.reg 9 cfg (!(m.bit cfg 30 || named) || decide (32 * (m.fld cfg 15 0 + 2 * minp) < m.half32 e.rlog)),
      t.reg 9 cfg (!m.bit cfg 30 || decide (e.rlog ≤ 0)), t.reg 9 cfg (!m.bit cfg 29 || e.type == .traction),
      t.reg 9 (Reg.MOD_PULSE 0 k) (!m.bit cfg 29 || m.fld (Reg.MOD_PULSE 0 k) 15 0 != 0)]

/-- FOC, by configured motor (R136, R142 to R157). -/
def Trial.field (t : Trial) : List (Option Reject) :=
  let m := t.m
  ([0, 1].filter fun i => m.motorSet i).flatMap fun i =>
    let cfg := Reg.FOC_M_CFG 0 i
    let src := m.fld cfg 26 25
    let ch := m.fld cfg 24 24
    let f (a hi lo : Nat) := m.fld a hi lo
    let lt (a : Nat) := t.reg 9 a (decide (f a 31 16 < f a 15 0))
    [t.reg 9 cfg (!m.bit cfg 27 || src == 0 || src == 2),
      t.reg 9 cfg (src == 0 || (decide (15 * m.period ≤ 16 * f cfg 15 0) && decide (f cfg 15 0 < m.period))),
      t.reg 9 cfg (src == 1 || m.fld (Reg.POS_CH_CFG ch) 31 29 != 0),
      t.reg 9 (Reg.FOC_M_BASE 0 i) (m.rd (Reg.FOC_M_BASE 0 i) != 0#32 &&
        (src == 1 || m.rd (Reg.FOC_M_BASE 0 i) == m.rd (Reg.POS_CH_BASE ch))),
      lt (Reg.FOC_M_UDCA 0 i), lt (Reg.FOC_M_UDCB 0 i),
      t.reg 9 (Reg.FOC_M_HFI 0 i) (src == 0 || decide (f (Reg.FOC_M_HFI 0 i) 21 12 < f (Reg.FOC_M_HFI 0 i) 31 22)),
      t.reg 9 (Reg.FOC_M_PD 0 i) (src == 0 || within 8 (f (Reg.FOC_M_PD 0 i) 19 12) 255),
      t.reg 9 (Reg.FOC_M_LOSS 0 i) (src == 0 || within 1 (f (Reg.FOC_M_LOSS 0 i) 13 8) 32),
      t.reg 9 (Reg.FOC_M_EMF 0 i) (decide (f (Reg.FOC_M_EMF 0 i) 15 0 < f (Reg.FOC_M_EMF 0 i) 31 16))]

/-- R190, R191: pair `p` serves the slot whose group holds it, as a leg or as the chopper's single switch, and otherwise none. -/
def Trial.pairServes (t : Trial) (p : Nat) : Bool :=
  let c := t.m.rd (Reg.GDI_PR_CFG p)
  match t.m.image.slots.find? fun e => e.pairs.testBit p with
  | some e => c.bits 27 26 == (if e.type = .chopper then 2 else 1) && c.bits 31 28 == e.slot
  | none => c.bits 27 26 == 0

/-- R191: leg `j` serves the slot whose group holds it, and otherwise none. -/
def Trial.legServes (t : Trial) (j : Nat) : Bool :=
  let c := t.m.rd (Reg.GDL_LEG_CFG j)
  match t.m.image.slots.find? fun e => e.legs.testBit j with
  | some e => c.bit 27 && c.bits 31 28 == e.slot
  | none => !c.bit 27

/-- GDI and GDL (R190, R191, R193, R199, R205, R207, R211). -/
def Trial.gates (t : Trial) : List (Option Reject) :=
  let m := t.m
  let has (s : SlotType) := !(m.slotsOf s).isEmpty
  let skew (v : Nat) := decide (-128 ≤ signed 16 v) && decide (signed 16 v ≤ 127)
  (List.range 16).map (fun p => t.reg 9 (Reg.GDI_PR_CFG p) (t.pairServes p)) ++
  (List.range 24).map (fun j => t.reg 9 (Reg.GDL_LEG_CFG j) (t.legServes j)) ++
  ((List.range 16).filter fun p => m.fld (Reg.GDI_PR_CFG p) 27 26 != 0).flatMap (fun p =>
    let str := m.rd (Reg.GDI_PR_STR p)
    let sk := m.rd (Reg.GDI_PR_SKEW p)
    [t.range (Reg.GDI_PR_CFG p) 22 16 10 127, t.reg 9 (Reg.GDI_PR_STR p) (decide (str.bits 15 12 ≤ str.bits 11 8)),
      t.reg 9 (Reg.GDI_PR_SKEW p) (skew (sk.bits 31 16) && skew (sk.bits 15 0))]) ++
  [t.reg 9 Reg.GDI_OV (!(has .chopper || has .pfc3 || has .dab) ||
    (decide (m.fld Reg.GDI_OV 19 10 < m.fld Reg.GDI_OV 29 20) && decide (m.fld Reg.GDI_OV 29 20 < m.fld Reg.GDI_OV 9 0)))] ++
  ((List.range 24).filter fun j => m.bit (Reg.GDL_LEG_CFG j) 27).flatMap (fun j =>
    [t.range (Reg.GDL_LEG_CFG j) 26 25 0 2, t.reg 9 (Reg.GDL_LEG_CFG j) (decide (6 ≤ j) || m.fld (Reg.GDL_LEG_CFG j) 22 16 == 0)]) ++
  ((List.range 6).filter fun d => m.fld (Reg.ACT_DRV_CFG d) 27 25 != 0).map fun d => t.range (Reg.GDL_DRV_CFG d) 27 24 0 5

/-- LVC (R224, R226, R231, R238). -/
def Trial.converter (t : Trial) : List (Option Reject) :=
  let m := t.m
  let dcx := m.slotsOf .dcx
  let buck := m.slotsOf .buckn
  let cfg := Reg.LVC_CFG
  if dcx.isEmpty && buck.isEmpty then []
  else
    let spare (k : Nat) := (m.slotEntry k).any fun e => e.pairs == 0x8000
    [t.reg 9 cfg (dcx.isEmpty == buck.isEmpty), t.reg 9 cfg (m.isType (m.fld cfg 31 28) .buckn),
      t.reg 9 cfg (m.isType (m.fld cfg 27 24) .dcx && !spare (m.fld cfg 27 24)), t.range cfg 23 16 2 64,
      t.reg 9 cfg (if m.bit cfg 5 then m.isType (m.fld cfg 3 0) .dcx && spare (m.fld cfg 3 0) else dcx.length == 1),
      t.range Reg.LVC_RATIO 15 0 8192 36864, t.range Reg.LVC_SHED 2 0 1 6, t.range Reg.LVC_SS 31 16 16 65535,
      t.range Reg.LVC_SS 15 12 1 15]

/-- CHG (R250, R253, R265, R267). -/
def Trial.charger (t : Trial) : List (Option Reject) :=
  let m := t.m
  let pfc := m.slotsOf .pfc3
  let dab := m.slotsOf .dab
  let cfg := Reg.CHG_CFG
  if pfc.isEmpty && dab.isEmpty then []
  else
    let p := m.period
    let least := (400000 + p - 1) / p
    let most := 400000000 / p
    let plan := (List.range 16).takeWhile fun i => m.fld (Reg.CHG_PLAN i) 19 0 != 0
    [t.reg 9 cfg (pfc.isEmpty == dab.isEmpty), t.reg 9 cfg (m.isType (m.fld cfg 31 28) .pfc3 && m.isType (m.fld cfg 27 24) .dab),
      t.reg 9 cfg (!m.bit cfg 22 || m.bit (Reg.LAW_SLOT_CFG 0 (m.fld cfg 27 24)) 15),
      t.reg 9 Reg.CHG_ACC3 (!m.bit cfg 22 || (List.range 4).all fun i =>
        within 3 (m.fld (Reg.ACQ_ACFG_CTRL (m.fld Reg.CHG_ACC3 (8 * i + 7) (8 * i))) 31 29) 4),
      t.range Reg.CHG_GRID 15 0 1 65535, t.range Reg.CHG_SEQ 31 28 1 15, t.range Reg.CHG_SEQ 19 12 1 255,
      t.reg 9 Reg.CHG_LIM (decide (chgKp Config.chgVab Config.chgIab Config.chgVdc Config.chgIdc (m.fld Reg.CHG_LIM 15 8) < 2 ^ 31)),
      t.reg 9 cfg (decide (chgKvb Config.chgVdc Config.chgVab < 2 ^ 31)), t.reg 9 cfg (decide (10 ≤ Config.chgIab))] ++
    (if m.bit cfg 22 then plan else []).map fun i =>
      t.reg 9 (Reg.CHG_PLAN i) (within least (m.fld (Reg.CHG_PLAN i) 19 0) most && m.fld (Reg.CHG_PLAN i) 29 26 != 0)

/-- ACT (R280, R291). -/
def Trial.actuators (t : Trial) : List (Option Reject) :=
  let m := t.m
  let role (d : Nat) := m.fld (Reg.ACT_DRV_CFG d) 27 25
  let used := (List.range 6).filter fun d => role d != 0
  (List.range 6).map (fun d => t.range (Reg.ACT_DRV_CFG d) 27 25 0 5) ++
  used.flatMap (fun d =>
    let cfg := Reg.ACT_DRV_CFG d
    let k := m.fld cfg 31 28
    let low := decide (d < 4)
    [t.reg 9 cfg (if low then within 1 (role d) 3 else within 4 (role d) 5),
      t.reg 9 cfg (m.isType k (if low then .bldc else .pump) && (m.slotEntry k).any fun e => e.legs == 7 * 2 ^ (6 + 3 * d)),
      t.reg 9 cfg (role d != 2 || ((List.range d).all fun x => role x != 2)), t.range (Reg.ACT_DRV_STALL d) 15 8 1 255,
      t.reg 9 (Reg.ACT_DRV_TRAV d) (!low || m.fld (Reg.ACT_DRV_TRAV d) 31 16 != 0),
      t.reg 9 (Reg.ACT_DRV_STALL d) (low || m.fld (Reg.ACT_DRV_STALL d) 7 0 == 0),
      t.reg 9 (Reg.ACT_PMP_MAP d) (low || m.fld (Reg.ACT_PMP_CFG d) 31 30 == 0 ||
        decide (m.fld (Reg.ACT_PMP_MAP d) 15 0 < m.fld (Reg.ACT_PMP_MAP d) 31 16))] ++
    (if low then [Reg.ACT_PMP_CFG d, Reg.ACT_PMP_MAP d, Reg.ACT_PMP_GKP d, Reg.ACT_PMP_GKI d] else []).map fun a =>
      t.reg 9 a (m.rd a == 0#32)) ++
  m.image.slots.map fun e => need (!(e.type == .bldc || e.type == .pump) || used.any fun d => m.fld (Reg.ACT_DRV_CFG d) 31 28 == e.slot)
    (t.at_ 9 (Reg.ACT_DRV_CFG 0))

/-- R490: the limits of a temperature sensor. -/
def Trial.sensor (t : Trial) (i : Nat) : Option Reject :=
  let w := t.m.rd (Reg.PWR_TS_CFG_W0 i)
  let tder := signed 16 (w.bits 31 16)
  let tmax := signed 16 (w.bits 15 0)
  let trip := signed 16 (t.m.fld (Reg.PWR_TS_CFG_W1 i) 31 16)
  t.reg 9 (Reg.PWR_TS_CFG_W0 i) (tmax == 0x7FFF || (decide (tder < tmax) && decide (tmax ≤ trip) && decide (tmax ≤ 1900)))

/-- PWR, LANE and DMA (R328, R343, R371, R482, R490). -/
def Trial.powerLanes (t : Trial) : List (Option Reject) :=
  let m := t.m
  [t.range Reg.PWR_SCHED 31 16 1 65535, t.range Reg.PWR_MODECFG 15 0 1 65535] ++
  m.image.slots.map (fun e => t.reg 9 (Reg.PWR_SCOST e.slot)
    (!(e.type == .bldc || e.type == .pump) || decide (m.fld (Reg.PWR_SCOST e.slot) 15 0 ≤ m.fld Reg.PWR_SCHED 31 16))) ++
  (List.range 20).map t.sensor ++ [t.range Reg.LANE_CFG 4 0 2 16] ++
  m.image.slots.map (fun e =>
    let a := Reg.LANE_HOLDLIM (e.slot / 4)
    let j := e.slot % 4
    t.reg 9 a (within 4 (m.fld a (8 * j + 7) (8 * j)) (if e.type == .pfc3 || e.type == .dab then 8 else 32))) ++
  [0, 1].flatMap (fun l => [t.range (Reg.LANE_L_FWREG l) 15 0 0 1024, t.range (Reg.LANE_L_CODE l) 15 0 0 8192]) ++
  [t.reg 9 Reg.DMA_MEMCFG (decide (m.fld Reg.DMA_MEMCFG 15 8 + m.fld Reg.DMA_MEMCFG 7 0 ≤ 64))]

/-- NET (R394). -/
def Trial.ports (t : Trial) : List (Option Reject) :=
  let m := t.m
  ([3, 4, 5, 6].filter fun p => m.bit (Reg.NET_P_CFG p) 31).flatMap (fun p =>
    [t.range (Reg.NET_P_CFG p) 27 24 0 3, t.range (Reg.NET_P_CFG p) 23 20 0 3]) ++
  ((List.range 64).filter fun f => m.bit (Reg.NET_FLOW_W0 f) 31).flatMap fun f =>
    [t.range (Reg.NET_FLOW_W0 f) 25 23 0 6,
      t.reg 9 (Reg.NET_FLOW_W1 f) (decide (m.flowPort f < 3) || decide (m.fld (Reg.NET_FLOW_W1 f) 30 29 ≤ 2))]

/-- SAFE (R397, R403, R406, R408, R431). -/
def Trial.safety (t : Trial) : List (Option Reject) :=
  let m := t.m
  let tp (v : Nat) := decide (v < 8) || v == 15
  [t.range Reg.SAFE_CFG 31 24 25 200, t.range Reg.SAFE_CFG 23 16 10 100, t.range Reg.SAFE_CFG 15 0 10 1000] ++
  ((List.range 16).filter fun i => m.fld (Reg.SAFE_IN_CFG i) 31 30 != 0).flatMap (fun i =>
    let a := Reg.SAFE_IN_CFG i
    [t.reg 9 a (tp (m.fld a 29 26) && tp (m.fld a 25 22)), t.range a 21 12 50 1000, t.range a 11 0 10 4000]) ++
  (List.range 16).map (fun f => t.range (Reg.SAFE_FN_CFG_W0 f) 31 28 0 6) ++
  ((List.range 16).filter m.fnOn).flatMap fun f =>
    let w := m.fn0 f
    [t.reg 9 (Reg.SAFE_FN_CFG_W0 f) (w.bits 27 26 != 3),
      t.reg 9 (Reg.SAFE_FN_CFG_W1 f) (w.bits 27 26 != 1 || within 10 (m.fld (Reg.SAFE_FN_CFG_W1 f) 15 0) 30000),
      t.reg 9 (Reg.SAFE_FN_CFG_W2 f) (w.bits 31 28 != 3 || within 1 (m.fld (Reg.SAFE_FN_CFG_W2 f) 19 8) 500)]

/-- R206: a CHOPPER slot's list begins with an accumulator. -/
def Trial.chopperLists (t : Trial) : List (Option Reject) :=
  let so := le (t.pay 1) 8 4
  t.m.image.slots.mapIdx fun i e => need (e.type != .chopper || match e.accs.head? with
    | some a => decide (a < 0x8000)
    | none => false) (t.item 9 1 i (so + 16 * i))

/-- Rule 9. -/
def Trial.values (t : Trial) : Option Reject :=
  firstOf ([t.entries] ++ t.tickAcq ++ t.position ++ t.lawMod ++ t.field ++ t.gates ++ t.converter ++ t.charger ++ t.actuators ++
    t.powerLanes ++ t.ports ++ t.safety ++ t.chopperLists)

/-! ### Rules 10 and 11: sequences and the law -/

/-- Rule 10: R74, R75, R78, and no accumulator fed by two sequences. -/
def Trial.sequences (t : Trial) : Option Reject :=
  let m := t.m
  let on := (List.range 15).filter m.seqOn
  let feeds (q : Nat) : List Nat := ((m.seqWords q).filter fun w => w.bit 16).map fun w => w.bits 15 8
  firstOf (on.flatMap (fun q =>
    let trig := m.rd (Reg.ACQ_SEQ_TRIG q)
    [t.reg 10 (Reg.ACQ_SEQ_TRIG q) ((groupsOf (m.seqWords q)).all fun g => distinct g.convs),
      t.reg 10 (Reg.ACQ_SEQ_TRIG q) (decide ((m.seqOffset q).natAbs < m.period)),
      t.reg 10 (Reg.ACQ_SEQ_TRIG q) (trig.bits 31 28 == 4 || m.hasSlot (trig.bits 27 24)),
      t.reg 10 (Reg.ACQ_SEQ_TRIG q) ((on.filter (· < q)).all fun p => (feeds q).all fun a => !(feeds p).contains a)]) ++
    [need m.sequencesFit (t.item 10 2 0xFFFF 0)])

/-- R117: a topology word; `first` on the first section of a cascade. -/
def topologyOk (w : Word) (first : Bool) : Bool :=
  !(first && w.bit 31) && w.bits 18 17 != 3 && (w.bits 16 11 == 0 || decide (32 ≤ w.bits 16 11)) && !w.bit 0

/-- R225: a section reads one of S16 to S23: as INA unless PA replaces it, as INB where MIX takes B, as LSIG where LIM names it. -/
def readsSetpoint (w : Word) : Bool :=
  let sp (j : Nat) : Bool := within 16 j 23
  (!w.bit 31 && sp (w.bits 30 25)) || (w.bits 18 17 != 0 && sp (w.bits 24 19)) || (w.bits 10 9 != 0 && sp (w.bits 8 3))

/-- Rule 11. -/
def Trial.law (t : Trial) : Option Reject :=
  let d := t.pay 4
  let n := le d 0 4
  let banks := d.getD 4 0
  let cs := t.m.image.slots.map fun e => t.cascade e.slot
  let top := (cs.filter fun c => c.1 != c.2).map (·.2)
  let size := 16 + pad16 (4 * n) + 32 * n * banks
  let words := (chunks n 4 (d.drop 16)).map fun w => BitVec.ofNat 32 (ofLeBytes w)
  let recs := chunks (n * banks) 32 (d.drop (16 + pad16 (4 * n)))
  let zero (r : List Nat) := r.all (· == 0)
  let inCascade (i : Nat) := cs.any fun c => decide (c.1 ≤ i) && decide (i < c.2)
  let buck := (t.m.image.slots.filter (·.type == .buckn)).map fun e => t.cascade e.slot
  let inBuck (i : Nat) := buck.any fun c => decide (c.1 ≤ i) && decide (i < c.2)
  match firstOf [need (within 1 banks 2 && decide (n ≤ 6144) && decide (size ≤ d.length)) (t.item 11 4 0 0),
    need (n == top.foldl max 0) (t.item 11 4 0 0)] with
  | some r => some r
  | none => firstOf (words.mapIdx fun i w => need
      (if inCascade i then topologyOk w (cs.any fun c => c.1 == i && c.1 != c.2) && !(inBuck i && readsSetpoint w)
       else w == 0#32 && (List.range banks).all fun b => zero (nth recs (b * n + i)))
      (t.item 11 4 i (16 + 4 * i)))

/-! ### Rules 12 and 13: curves and tables -/

/-- The X values rise strictly. -/
def rising : List (Int × Int) → Bool
  | p :: q :: t => decide (p.1 < q.1) && rising (q :: t)
  | _ => true

/-- The registers in use that name a curve, with the number (R441). -/
def Trial.curveNames (t : Trial) : List (Nat × Nat) :=
  let m := t.m
  ([0, 1].filter fun i => m.motorSet i).flatMap (fun i =>
    let a := Reg.FOC_M_CRV 0 i
    [(a, m.fld a 31 24), (a, m.fld a 23 16), (a, m.fld a 15 8)] ++ (if m.bit (Reg.FOC_M_CFG 0 i) 22 then [(a, m.fld a 7 0)] else [])) ++
  ((List.range 16).filter fun p => m.fld (Reg.GDI_PR_CFG p) 27 26 != 0 && m.bit (Reg.GDI_PR_CFG p) 23).flatMap (fun p =>
    (List.range 4).flatMap (fun b => [Reg.GDI_PR_TON p, Reg.GDI_PR_TOFF p].map fun a => (a, m.fld a (8 * b + 7) (8 * b))) ++
    [(Reg.GDI_PR_TB4 p, m.fld (Reg.GDI_PR_TB4 p) 31 24), (Reg.GDI_PR_TB4 p, m.fld (Reg.GDI_PR_TB4 p) 23 16)]) ++
  ((List.range 20).filter fun i => decide (8 ≤ i) && m.image.slots.any fun e => m.bit (Reg.PWR_SL_TMASK e.slot) i).map fun i =>
    (Reg.PWR_TS_CFG_W2 i, m.fld (Reg.PWR_TS_CFG_W2 i) 7 0)

/-- Rule 12. -/
def Trial.curves (t : Trial) : Option Reject :=
  let d := t.pay 5
  let recs := curveRecords (min (le d 0 4) (d.length / 4)) (d.drop 4)
  let cs := t.m.image.curves
  firstOf ([need (recs.length == le d 0 4 || d.isEmpty) (t.item 12 5 0 0)] ++
    (recs.zip cs).mapIdx (fun i x => need
      (within 2 (x.1.getD 1 0) 33 && x.1.length == 4 + 8 * x.1.getD 1 0 && rising x.2.pts && !((cs.take i).any fun c => c.num == x.2.num))
      (t.item 12 5 i 0)) ++
    t.curveNames.map fun x => t.reg 12 x.1 (cs.any fun c => c.num == x.2))

/-- The states that rows lead to from a set of states, `n` steps deep. -/
def reaches (rows : List TableRow) : Nat → List Nat → List Nat
  | 0, s => s
  | n + 1, s => reaches rows n ((s ++ (rows.filter fun r => r.source == 0xFF || s.contains r.source).map (·.dest)).dedup)

/-- R286: what an actuator's table must satisfy. -/
def actuatorTable (x : Table) : Bool :=
  let act (r : TableRow) := r.action % 8
  let stop := x.rows.filter fun r => act r == 3 || act r == 6
  let seeks := x.rows.filter fun r => act r == 4 || act r == 5
  let start := reaches x.rows 64 [x.init]
  let after := reaches x.rows 64 ((seeks.filter fun r => r.source == 0xFF || start.contains r.source).map (·.dest))
  (stop.all fun r => !x.switching r.dest) &&
    (x.rows.filter fun r => act r == 1).all fun r => !after.isEmpty && (r.source == 0xFF || after.contains r.source)

/-- R442, R472: one table; `mach` says that it stands in MACHINES. -/
def tableOk (mach : Bool) (flags : List Nat) (x : Table) : Bool :=
  let actions := match x.owner with
    | 0 => 0x21
    | 1 => 0x20
    | 2 => 0x3F
    | _ => 0x01
  let masks := match x.owner with
    | 0 => 0x0FFF
    | 1 => 0xFC7F
    | 2 => 0xFFFF
    | _ => 0x01FF
  let okFlag (b : Nat) := b == 0 || (b == 1 && (x.owner == 1 || x.owner == 2))
  decide (x.owner ≤ 3) && (x.owner == 3) == !mach && within 1 x.nstate 64 && decide (x.init < x.nstate) &&
    within 1 x.rows.length 256 && flags.all okFlag &&
    (x.owner != 0 || (x.nstate == 6 && x.init == 1)) && (x.owner != 2 || actuatorTable x) &&
    x.rows.all fun r => (decide (r.source < x.nstate) || r.source == 0xFF) && decide (r.dest < x.nstate) && decide (r.modes < 64) &&
      (r.action &&& (0xFF ^^^ actions)) == 0 && (x.owner != 2 || r.action % 8 != 7) && (r.mask &&& (0xFFFF ^^^ masks)) == 0

/-- Rule 13: MACHINES holds its tables, each is well formed, numbers are unique, one is the mode manager; each function's table is one. -/
def Trial.machines (t : Trial) : Option Reject :=
  let mc := t.pay 6
  let nm := le mc 0 4
  let ts := t.m.image.tables
  let raw := tableBytes t.fs
  firstOf ([need (decide (nm ≤ mc.length / 8)) (t.item 13 6 0 0), need ((ts.filter fun x => x.owner == 0).length == 1) (t.item 13 6 0 0)] ++
    (raw.zip ts).mapIdx (fun i x =>
      let mach := decide (i < nm)
      need (x.1.length == tableLen x.1 && tableOk mach (cut x.1 8 x.2.nstate) x.2 && !((ts.take i).any fun y => y.num == x.2.num))
        (t.item 13 (if mach then 6 else 7) i 0)) ++
    ((List.range 16).filter t.m.fnOn).map fun f => t.reg 13 (Reg.SAFE_FN_CFG_W2 f)
      (ts.any fun x => x.num == t.m.fld (Reg.SAFE_FN_CFG_W2 f) 7 0 && x.owner == 3))

/-! ### Rules 14 to 16: safety, firmware, network -/

/-- R409: one safety function. -/
def Trial.function (t : Trial) (f : Nat) : Bool :=
  let m := t.m
  let w := m.fn0 f
  let type := w.bits 31 28
  let slots := m.fnSlots f
  (slots.all fun k => !m.isType k .chopper) &&
    (type != 5 || slots.all fun k => m.isType k .traction && (t.motors k).all fun i => m.fld (Reg.FOC_M_CFG 0 i) 26 25 != 1) &&
    !((type == 3 || type == 5) && w.bits 27 26 == 2) && !(type == 2 && w.bits 11 8 != 15 && w.bits 19 16 == 15)

/-- The arrays of the SAFETY payload: offset and length. -/
def safetyArrays (d : List Nat) : List (Nat × Nat) :=
  let tables := ((tableRecords (d.getD 13 0) (d.drop (le d 16 4))).map List.length).sum
  [(le d 0 4, 8 * le d 4 4), (le d 8 4, 32 * d.getD 12 0), (le d 16 4, tables), (le d 20 4, 8 * d.getD 14 0), (le d 24 4, 80)]

/-- No two arrays overlap. -/
def arraysApart : List (Nat × Nat) → Bool
  | [] => true
  | x :: t => (t.all fun y => x.2 == 0 || y.2 == 0 || decide (x.1 + x.2 ≤ y.1) || decide (y.1 + y.2 ≤ x.1)) && arraysApart t

/-- Rule 14: the layout of SAFETY (R440). -/
def Trial.safetyLayout (t : Trial) : Option Reject :=
  let d := t.pay 7
  let as_ := safetyArrays d
  firstOf [need (decide (32 ≤ d.length) && as_.all (fun x => x.1 % 4 == 0 && decide (32 ≤ x.1 ∨ x.2 = 0) && decide (x.1 + x.2 ≤ d.length)) &&
      arraysApart as_) (t.item 14 7 0 0),
    need (within 60 (le d 28 2) 3600) (t.item 14 7 0 28)]

/-- Rule 14. -/
def Trial.safetyRules (t : Trial) : Option Reject :=
  let m := t.m
  let conns := (List.range 8).filter fun c => m.bit (Reg.SAFE_AE_CFG_W1 c) 31
  let seeds := m.image.seeds
  let pw := initialPassword t.fs
  firstOf (((List.range 16).filter m.fnOn).map (fun f => t.reg 14 (Reg.SAFE_FN_CFG_W0 f) (t.function f)) ++
    m.image.slots.map (fun e => need (m.image.envelopes.any fun x => x.slot == e.slot) (t.item 14 7 e.slot (le (t.pay 7) 8 4))) ++
    conns.flatMap (fun c =>
      let wd := m.fld (Reg.SAFE_AE_CFG_W1 c) 9 0
      let per := m.fld (Reg.SAFE_AE_CFG_W3 c) 31 22
      [t.reg 14 (Reg.SAFE_AE_CFG_W3 c) (within 2 per 500 && within 4 wd 1000 && decide (2 * per ≤ wd)),
        t.reg 14 (Reg.SAFE_AE_CFG_W0 c) (m.rd (Reg.SAFE_AE_CFG_W0 c) != 0#32 && seeds.any fun s => s.1 == c)]) ++
    [need (seeds.all (fun s => s.2 != 0 && decide (s.1 < 8)) && distinct (seeds.map (·.2)) && distinct (seeds.map (·.1)))
      (t.item 14 7 0 (le (t.pay 7) 20 4)),
      need (match pw with
        | some p => p.gen == 1 && within 10000 p.iter 1000000
        | none => false) (t.item 14 7 0 (le (t.pay 7) 24 4))])

/-- The span of lane SRAM that a region register names, in bytes (R338). -/
def Mach.regionBytes (m : Mach) (a : Nat) : Nat × Nat := (64 * m.fld a 30 16, 64 * m.fld a 15 0)

/-- R439, R446 rule 15: the bytes of a lane's code region as the segments leave them; what no segment writes reads zero. -/
def codeRegion (gs : List Segment) (base len : Nat) : List Nat :=
  (gs.filter fun g => g.target == 0).foldl (fun r g =>
    r.mapIdx fun i x => if g.offset ≤ base + i ∧ base + i < g.offset + g.data.length then g.data.getD (base + i - g.offset) 0 else x)
    (List.replicate len 0)

/-- Rule 15: FIRMWARE (R64, R338, R348, R439). -/
def Trial.firmwareRules (t : Trial) : Option Reject :=
  let m := t.m
  let d := t.pay 8
  let gs := firmware t.fs
  let a := m.fld Reg.DMA_MEMCFG 7 0 * 2 ^ 26
  let b := m.fld Reg.DMA_MEMCFG 15 8 * 2 ^ 26
  let size (target : Nat) : Nat := match target with
    | 0 => 0x200000
    | 1 => a
    | 2 => b
    | 3 => 2 ^ 32 - a - b
    | _ => 0
  let entry (l : Lane) : Nat := m.rd64 (Reg.TICK_VEC_LO l.ix) (Reg.TICK_VEC_HI l.ix)
  let fa := m.regionBytes (Reg.LANE_L_FWREG 0)
  let fb := m.regionBytes (Reg.LANE_L_FWREG 1)
  let code (l : Nat) := m.regionBytes (Reg.LANE_L_CODE l)
  firstOf (gs.mapIdx (fun i g => need (decide (g.target < 4) && decide (g.offset + g.data.length ≤ size g.target))
      (t.item 15 8 i 0)) ++
    [need (gs.length == le d 12 4) (t.item 15 8 0 12),
      need (m.image.bgentry % 4 == 0 && decide (m.image.bgentry < 0x200000)) (t.item 15 8 0 0)] ++
    [Lane.a, Lane.b].map (fun l => t.reg 15 (Reg.TICK_VEC_LO l.ix) (entry l % 4 == 0 && decide (sramBase l ≤ entry l) &&
      decide (entry l < sramBase l + 0x200000))) ++
    [0, 1].map (fun l => need (crc32c (codeRegion gs (code l).1 (code l).2) == m.image.codecrc) (t.item 15 8 0 8)) ++
    [t.reg 15 (Reg.LANE_L_FWREG 0) (arraysApart [fa, fb] && decide (fa.2 + fb.2 ≤ 65536))])

/-- Rule 16: NET (R388, R418). -/
def Trial.network (t : Trial) : Option Reject :=
  let m := t.m
  let conns := (List.range 8).filter fun c => m.bit (Reg.SAFE_AE_CFG_W1 c) 31
  let aeddy (f : Nat) := conns.any fun c => m.fld (Reg.SAFE_AE_CFG_W1 c) 29 24 == f || m.fld (Reg.SAFE_AE_CFG_W1 c) 23 18 == f
  firstOf (((List.range 64).filter fun f => m.bit (Reg.NET_FLOW_W0 f) 31).flatMap fun f =>
    let p := m.flowPort f
    let w0 := m.flow f
    [t.reg 16 (Reg.NET_FLOW_W1 f) (decide (p < 3) || w0.bit 30 || !w0.bit 29 || m.fld (Reg.NET_FLOW_W1 f) 30 29 == 0),
      t.reg 16 (Reg.NET_FLOW_W0 f) (decide (p < 3) || !(aeddy f) || m.bit (Reg.NET_P_CFG p) 29)])

/-! ### The whole check -/

/-- R446: the rules in order, from rule 4 on; `secver` is the running image's, where rule 5 applies. -/
def Trial.check (t : Trial) (secver : Option Nat) : Option Reject :=
  t.units <|> need (secver.all fun v => decide (v ≤ le t.b 28 4)) ⟨5, 0, 0, 28⟩ <|> t.structGlobal <|> t.slots <|>
    t.carriers <|> t.budget <|> t.values <|> t.sequences <|> t.law <|> t.curves <|> t.machines <|> t.safetyLayout <|>
    t.safetyRules <|> t.firmwareRules <|> t.network

/-- The device as the check sees it: every register at reset but for the loads. -/
def Mach.trial (m : Mach) (b : List Nat) (fs : List Folio) : Trial :=
  ⟨b, fs, loadLists fs, { m with regs := [], image := imageOf b fs }.loadRegs b fs⟩

/-- R445, R446: the check of an image of `b`'s bytes; nothing when it passes. -/
def Mach.imageCheck (m : Mach) (b : List Nat) (secver : Option Nat) : Option Reject :=
  match checkHeader b with
  | some r => some r
  | none =>
    let b := b.take (le b 8 4)
    let fs := folios b
    checkSigoff b <|> checkSignatures m.img.keys m.img.revoked b fs <|> checkFolios b fs <|> (m.trial b fs).check secver

end Sys2Proof.Machine
end

