-- ==== Sys2Proof/Machine/Img.lean ====
section
/-! DEFINITION. The IMG block: staging, commit records, keys, and the generic slot machines (R444, R448 to R453, R460 to R463). -/

namespace Sys2Proof.Machine

/-- The IMG part changed. -/
def Mach.onImg (m : Mach) (f : ImgState → ImgState) : Mach := { m with img := f m.img }

/-- Bits of IMG_IRQ_STAT set (R462). -/
def Mach.imgIrq (m : Mach) (bit : Nat) : Mach := m.orr Reg.IMG_IRQ_STAT (2 ^ bit)

/-- IMG_STATUS.STAGE (R461): 0 idle, 1 erasing, 2 receiving, 3 received, 4 verifying, 5 verified, 6 committing, 7 failed. -/
def Mach.stage (m : Mach) : Nat := m.fld Reg.IMG_STATUS 31 28

/-- STAGE set; DONE asserts when it reaches 3 or 5 (R462). -/
def Mach.setStage (m : Mach) (v : Nat) : Mach :=
  let m := m.setFld Reg.IMG_STATUS 31 28 v
  if v = 3 ∨ v = 5 then m.imgIrq 0 else m

/-- The bank from which the device booted (R449). -/
def Mach.bank (m : Mach) : Nat := m.fld Reg.IMG_STATUS 24 24

/-- The staging bank (R449). -/
def Mach.stagingBank (m : Mach) : Nat := 1 - m.bank

/-- The first byte of a bank (R449). -/
def bankBase (b : Nat) : Nat := flashBase + 0x2000000 * b

/-- The device is in the recovery state (R456). -/
def Mach.recovery (m : Mach) : Bool := m.bit Reg.IMG_STATUS 27

/-- R452, R453: a command or transfer refused. -/
def Mach.imgRefused (m : Mach) : Mach := (m.raise 0x4407 0).imgIrq 3

/-- R451: flash has failed its read-back; staging has failed. -/
def Mach.imgFlashFailed (m : Mach) : Mach := ((m.setStage 7).raise 0x4408 1).imgIrq 2

/-! ### Staging (R451) -/

/-- IMG_LEN. -/
def Mach.imgLen (m : Mach) : Nat := (m.rd Reg.IMG_LEN).toNat

/-- R451: BEGIN can be accepted. -/
def Mach.canBegin (m : Mach) : Bool :=
  (m.stage == 0 || m.stage == 7) && decide (64 ≤ m.imgLen) && decide (m.imgLen ≤ 33554432)

/-- BEGIN (R451): the erase begins. -/
def Mach.imgBegin (m : Mach) : Mach :=
  if m.canBegin && m.mode != .sleep then (m.setStage 1).wr Reg.IMG_PROG 0#32 else m.imgRefused

/-- R451: the erase of ceil(LEN / 65,536) blocks ends; `ok` says that they read back erased. One that does not leaves a first
page that the rules do not state. -/
def Mach.eraseComplete (m : Mach) (mem : List Host.Cell) (ok : Bool) : Mach × List Host.Cell :=
  if m.stage ≠ 1 then (m, mem)
  else
    let a := bankBase m.stagingBank
    let mem := Memory.clear mem a (a + (m.imgLen + 65535) / 65536 * 65536)
    if ok then (m.setStage 2, mem)
    else
      let f := m.freeBytes 256
      (f.2.imgFlashFailed, Memory.writeL mem a f.1)

/-- R451: the pages of one transfer, at image offset PROG; `ok` says that every page reads back. -/
def Mach.stagePages (m : Mach) (mem : List Host.Cell) (data : List Nat) (ok : Bool) : Mach × List Host.Cell :=
  let prog := (m.rd Reg.IMG_PROG).toNat
  let a := bankBase m.stagingBank + prog
  if ok then
    let m := m.wrN Reg.IMG_PROG (prog + data.length)
    (if prog + data.length = m.imgLen then m.setStage 3 else m, Memory.writeL mem a data)
  else
    let f := m.freeBytes (min 256 data.length)
    (f.2.imgFlashFailed, Memory.writeL mem a f.1)

/-- R451: PARAM and LEN of a transfer are right: it goes on at IMG_PROG in whole pages, or ends the image. -/
def Mach.transferFits (m : Mach) (param len : Nat) : Bool :=
  let prog := (m.rd Reg.IMG_PROG).toNat
  param == prog && param % 256 == 0 && decide (0 < len) && decide (prog + len ≤ m.imgLen) &&
    (len % 256 == 0 || prog + len == m.imgLen)

/-- R451: a port-5 descriptor's data is taken: programmed while receiving, refused otherwise; while the erase runs it waits. -/
def Mach.pageProgram (m : Mach) (mem : List Host.Cell) (l : Lane) (r : Nat) (ok : Bool) : Mach × List Host.Cell :=
  match m.dma.port5.find? fun x => x.lane == l && x.ring == r with
  | none => (m, mem)
  | some x =>
    if m.stage = 1 then (m, mem)
    else
      let m := m.onDma fun d => { d with port5 := d.port5.erase x }
      if m.stage ≠ 2 then (m.imgRefused, mem)
      else if m.transferFits x.param x.bytes.length then m.stagePages mem x.bytes ok
      else ((m.setStage 7).imgRefused, mem)

/-! ### VERIFY (R445, R452) -/

/-- R445: a rejection shown and told. -/
def Mach.imgReject (m : Mach) (r : Reject) : Mach :=
  let m := (m.wrN Reg.IMG_REJECT (r.rule % 256 * 2 ^ 24 + r.folio % 256 * 2 ^ 16 + r.detail % 2 ^ 16)).wrN Reg.IMG_REJOFF r.off
  (m.raise 0x4402 0 0xFF ([r.rule, r.folio] ++ leBytes 2 r.detail ++ leBytes 4 r.off)).imgIrq 1

/-- The staged image: IMG_LEN bytes of the staging bank. -/
def Mach.staged (m : Mach) (mem : List Host.Cell) : List Nat := Memory.span m.imgLen (bankBase m.stagingBank) mem

/-- VERIFY (R452). -/
def Mach.imgVerify (m : Mach) : Mach := if m.stage = 3 then m.setStage 4 else m.imgRefused

/-- R445, R452: the check ends; rule 5 compares with the running image, when one runs. -/
def Mach.verifyComplete (m : Mach) (mem : List Host.Cell) : Mach :=
  if m.stage ≠ 4 then m
  else match m.imageCheck (m.staged mem) (if m.image.loaded then some m.image.secver else none) with
    | none => m.setStage 5
    | some r => (m.setStage 7).imgReject r

/-! ### Commit records (R450) -/

/-- A commit record. -/
structure CommitRecord where
  seq : Nat
  bank : Nat
  length : Nat
  secver : Nat
  logseq : Nat
  time : Nat
  build : Nat
  digest : List Nat
  struct : Nat
  safety : Nat
  deriving DecidableEq, Repr, Inhabited

/-- R450: the 256 bytes. -/
def CommitRecord.bytes (c : CommitRecord) : List Nat :=
  let body := leBytes 4 0x544D4D43 ++ leBytes 4 c.seq ++ [c.bank, 0, 0, 0] ++ leBytes 4 c.length ++ leBytes 4 c.secver ++
    leBytes 4 c.logseq ++ leBytes 8 c.time ++ leBytes 8 c.build ++ padTo 32 c.digest ++ leBytes 4 c.struct ++ leBytes 4 c.safety ++
    List.replicate 172 0
  body ++ leBytes 4 (crc32c body)

/-- R454: a record is valid when MAGIC and CRC are right. -/
def CommitRecord.ofBytes (b : List Nat) : Option CommitRecord :=
  if le b 0 4 = 0x544D4D43 ∧ le b 252 4 = crc32c (b.take 252) then
    some ⟨le b 4 4, b.getD 8 0, le b 12 4, le b 16 4, le b 20 4, le b 24 8, le b 32 8, cut b 40 32, le b 72 4, le b 76 4⟩
  else none

/-- The first byte of a commit-record sector (R449). -/
def commitSector (i : Nat) : Nat := flashBase + 0x07EC6000 + 4096 * i

/-- The bytes of a record's place. -/
def commitBytes (mem : List Host.Cell) (i j : Nat) : List Nat := Memory.readN mem (commitSector i + 256 * j) 256

/-- The valid records of both sectors, with their sectors. -/
def commitRecords (mem : List Host.Cell) : List (Nat × CommitRecord) :=
  [0, 1].flatMap fun i => (List.range 16).filterMap fun j => (CommitRecord.ofBytes (commitBytes mem i j)).map fun c => (i, c)

/-- The newest valid record. -/
def newestCommit (mem : List Host.Cell) : Option (Nat × CommitRecord) := newest (·.2.seq) (commitRecords mem)

/-- R450: a record's bytes go after the last used place of the sector that holds the newest valid one; when that is full, the other
sector is erased and takes it at its start. -/
def commitAppend (mem : List Host.Cell) (bytes : List Nat) : List Host.Cell :=
  let i := ((newestCommit mem).map (·.1)).getD 0
  let used := ((List.range 16).filter fun j => !(commitBytes mem i j).all (· == 0xFF)).foldl (fun x j => max x (j + 1)) 0
  if used < 16 then Memory.writeL mem (commitSector i + 256 * used) bytes
  else
    let o := 1 - i
    Memory.writeL (Memory.clear mem (commitSector o) (commitSector o + 4096)) (commitSector o) bytes

/-- R450: the record of the staged image. -/
def Mach.commitForm (m : Mach) (mem : List Host.Cell) (logseq : Nat) : CommitRecord :=
  let b := m.staged mem
  let b := b.take (le b 8 4)
  let fs := folios b
  { seq := ((newestCommit mem).map (·.2.seq)).getD 0 + 1, bank := m.stagingBank, length := le b 8 4, secver := le b 28 4,
    logseq := logseq, time := m.now, build := le b 16 8, digest := sha256 b, struct := crc32c (payload fs 0x01),
    safety := crc32c (payload fs 0x07) }

/-- R452: the record is written; `ok` says that it verifies. A torn one leaves bytes that the rules do not state. -/
def Mach.commitRecord (m : Mach) (mem : List Host.Cell) (logseq : Nat) (ok : Bool) : Mach × List Host.Cell :=
  if ok then
    (((m.setStage 0).raise 0x4405 0).imgIrq 0, commitAppend mem (m.commitForm mem logseq).bytes)
  else
    let f := m.freeBytes 256
    (f.2.imgFlashFailed, commitAppend mem f.1)

/-- COMMIT (R452): a change of the SAFETY payload needs an open session and its log entry; `logOk` says that the entry verifies. -/
def Mach.imgCommit (m : Mach) (mem : List Host.Cell) (logOk ok : Bool) : Mach × List Host.Cell :=
  let old := (m.rd Reg.IMG_SAFETY).toNat
  let new := (m.commitForm mem 0).safety
  if m.stage ≠ 5 then (m.imgRefused, mem)
  else if new = old ∨ m.recovery then m.commitRecord mem 0 ok
  else if !m.sessOpen then (m.imgRefused, mem)
  else
    let x := m.logAppend mem logOk 5 0 old new
    if logOk then x.1.commitRecord x.2 (x.1.rd Reg.SAFE_LOG_STAT).toNat ok else (x.1.imgRefused, x.2)

/-- ABORT (R453). -/
def Mach.imgAbort (m : Mach) : Mach := if 1 ≤ m.stage ∧ m.stage ≤ 5 then m.setStage 0 else m.imgRefused

/-- A device reset of a cause is due (R468). -/
def Mach.askReset (m : Mach) (cause : Nat) : Mach := m.onPwr fun p => { p with due := some cause }

/-- REBOOT (R453): a device reset, in STANDBY only. -/
def Mach.imgReboot (m : Mach) : Mach := if m.mode = .standby then m.askReset 3 else m.imgRefused

/-- A write of IMG_CMD (R461). -/
def Mach.imgCommand (m : Mach) (mem : List Host.Cell) (v : Word) (logOk ok : Bool) : Mach × List Host.Cell :=
  match v.bits 2 0 with
  | 1 => (m.imgBegin, mem)
  | 2 => (m.imgVerify, mem)
  | 3 => m.imgCommit mem logOk ok
  | 4 => (m.imgAbort, mem)
  | 5 => (m.imgReboot, mem)
  | _ => (m.imgRefused, mem)

/-- A write of IMG_LEN (R461): ignored at STAGE 1 to 6. -/
def Mach.imgLenWrite (m : Mach) (v : Word) : Mach := if m.stage = 0 ∨ m.stage = 7 then m.wr Reg.IMG_LEN v else m

/-! ### Keys (R448) -/

/-- The hash in IMG_KEYBUF. -/
def Mach.keyBuf (m : Mach) : List Nat := (List.range 8).flatMap fun w => leBytes 4 (m.rd (Reg.IMG_KEYBUF w)).toNat

/-- IMG_KEYS shows the slots (R461). -/
def Mach.showKeys (m : Mach) : Mach :=
  let bits (l : List Bool) : Nat := (l.mapIdx fun i b => if b then 2 ^ i else 0).sum
  m.wrN Reg.IMG_KEYS (bits (m.img.keys.map (·.isSome)) * 2 + bits m.img.revoked * 32)

/-- R448: an act on a key slot is told. -/
def Mach.keyDone (m : Mach) : Mach := (m.showKeys.raise 0x4409 0).imgIrq 3

/-- A write of IMG_KEYCMD (R448): in an open session, a blank slot is programmed once, and a programmed slot revoked unless it
signed the running image. -/
def Mach.keyCommand (m : Mach) (v : Word) : Mach :=
  let s := v.bits 1 0
  if s = 0 ∨ m.sessOpen = false then m.imgRefused
  else match v.bits 31 28, nth m.img.keys (s - 1) with
    | 1, none => (m.onImg fun g => { g with keys := upd g.keys (s - 1) fun _ => some m.keyBuf }).keyDone
    | 2, some _ =>
      if m.fld Reg.IMG_STATUS 23 22 = s then m.imgRefused
      else (m.onImg fun g => { g with revoked := upd g.revoked (s - 1) fun _ => true }).keyDone
    | _, _ => m.imgRefused

/-! ### Generic slot machines (R444) -/

/-- The lane whose MOD a slot's machine reads. -/
def Mach.runner (m : Mach) (k : Nat) : Lane :=
  match m.slotEntry k with
  | some e => if m.arr == 2 then e.slane else m.active
  | none => m.active

/-- R444: the condition word of an OWNER 1 table. -/
def Mach.smCond (m : Mach) (k : Nat) : Nat :=
  let st := m.modState (m.runner k) k
  (m.permitted k).toNat + 2 * (decide (st = 4)).toNat + 4 * (decide (st = 6)).toNat + 8 * (m.bit Reg.SAFE_STO k).toNat +
    16 * (m.bit Reg.SAFE_STO (16 + k)).toNat + 32 * ((m.lastAccepted k).any (·.emfhi)).toNat + 64 * m.gate.clamped.toNat +
    1024 * m.fld (Reg.IMG_SM_REQ k) 5 0

/-- The OWNER 1 table of a slot. -/
def Mach.smTable (m : Mach) (k : Nat) : Option Table :=
  match m.slotEntry k with
  | some e => if e.type = .traction ∨ e.type = .chopper then e.table.bind m.table else none
  | none => none

/-- R443, R444: one evaluation of a slot's machine. -/
def Mach.smEval (m : Mach) (k : Nat) : Mach :=
  match m.smTable k with
  | none => m
  | some t =>
    let cond := m.smCond k
    let r := t.eval m.mode.code cond (nth m.img.sm k)
    let m := m.onImg fun g => { g with sm := upd g.sm k fun _ => r.1 }
    let m := m.wrN (Reg.IMG_SM_STAT k) (r.1.state % 64 * 2 ^ 26 + (t.switching r.1.state).toNat * 2 ^ 25 + cond)
    match r.2 with
    | some row => if row.action.testBit 5 then (m.raise 0x4406 0 k).imgIrq 4 else m
    | none => m

/-- R443, R444: at step 5 of the boundary of tick `n` every machine is evaluated, and the states stand in the shelf under `n`. -/
def Mach.smEvalAll (m : Mach) (n : Nat) : Mach :=
  let m := forN 16 (fun k m => m.smEval k) m
  m.onImg fun g => { g with shelf := (⟨n, g.sm.map (·.state)⟩ :: g.shelf.filter (·.tag != n)).take 32 }

/-- R443, R444: whether the machine of a slot switches in tick `n`, which consults the set of the tick before; a slot without a
table switches, and before the first set the table stands in INIT. -/
def Mach.smSwitches (m : Mach) (k n : Nat) : Bool :=
  match m.smTable k with
  | none => true
  | some t =>
    match m.img.shelf.find? fun x => x.tag + 1 == n with
    | some x => t.switching (nth x.states k)
    | none => t.switching t.init

/-! ### The rows -/

/-- A write of the service lane to IMG_CMD. -/
def Mach.imgWrite (m : Mach) (mem : List Host.Cell) (who : Writer) (v : Word) (logOk ok : Bool) : Mach × List Host.Cell :=
  m.serviceMem mem who Reg.IMG_CMD v fun m => m.imgCommand mem v logOk ok

/-- IMAGE_BEGIN (R451): a write of IMG_CMD with CMD 1. -/
def execImageBegin (cyc : Nat) (who : Writer) (value : Word) (s : State) : Host.Outcome State Fault Refusal :=
  runMem s cyc fun m mem => m.imgWrite mem who (value.withBits 2 0 1) true true

/-- STAGING_ERASE_COMPLETE (R451). -/
def execStagingEraseComplete (cyc : Nat) (ok : Bool) (s : State) : Host.Outcome State Fault Refusal :=
  runMem s cyc fun m mem => m.eraseComplete mem ok

/-- IMAGE_PAGE_PROGRAM (R451). -/
def execImagePageProgram (cyc : Nat) (lane : Lane) (r : Fin 16) (ok : Bool) (s : State) : Host.Outcome State Fault Refusal :=
  runMem s cyc fun m mem => m.pageProgram mem lane r ok

/-- IMAGE_VERIFY (R452): a write of IMG_CMD with CMD 2. -/
def execImageVerify (cyc : Nat) (who : Writer) (value : Word) (s : State) : Host.Outcome State Fault Refusal :=
  runMem s cyc fun m mem => m.imgWrite mem who (value.withBits 2 0 2) true true

/-- IMAGE_VERIFY_COMPLETE (R445, R452). -/
def execImageVerifyComplete (cyc : Nat) (s : State) : Host.Outcome State Fault Refusal :=
  runMem s cyc fun m mem => (m.verifyComplete mem, mem)

/-- IMAGE_COMMIT (R452): a write of IMG_CMD with CMD 3. -/
def execImageCommit (cyc : Nat) (who : Writer) (value : Word) (logOk ok : Bool) (s : State) : Host.Outcome State Fault Refusal :=
  runMem s cyc fun m mem => m.imgWrite mem who (value.withBits 2 0 3) logOk ok

/-- IMAGE_ABORT (R453): a write of IMG_CMD with CMD 4. -/
def execImageAbort (cyc : Nat) (who : Writer) (value : Word) (s : State) : Host.Outcome State Fault Refusal :=
  runMem s cyc fun m mem => m.imgWrite mem who (value.withBits 2 0 4) true true

/-- IMAGE_REBOOT (R453): a write of IMG_CMD with CMD 5. -/
def execImageReboot (cyc : Nat) (who : Writer) (value : Word) (s : State) : Host.Outcome State Fault Refusal :=
  runMem s cyc fun m mem => m.imgWrite mem who (value.withBits 2 0 5) true true

/-- INVALID_IMAGE_COMMAND (R453): a write of IMG_CMD with a CMD that has no meaning; one that has a meaning acts by it. -/
def execInvalidImageCommand (cyc : Nat) (who : Writer) (value : Word) (s : State) : Host.Outcome State Fault Refusal :=
  runMem s cyc fun m mem => m.imgWrite mem who value true true

/-- KEY_PROGRAM (R448): a write of IMG_KEYCMD with CMD 1. -/
def execKeyProgram (cyc : Nat) (who : Writer) (value : Word) (s : State) : Host.Outcome State Fault Refusal :=
  let v := value.withBits 31 28 1
  run s cyc fun m => m.laneOnly who fun l m => m.serviceWrite l Reg.IMG_KEYCMD v fun m => m.keyCommand v

/-- KEY_REVOKE (R448): a write of IMG_KEYCMD with CMD 2. -/
def execKeyRevoke (cyc : Nat) (who : Writer) (value : Word) (s : State) : Host.Outcome State Fault Refusal :=
  let v := value.withBits 31 28 2
  run s cyc fun m => m.laneOnly who fun l m => m.serviceWrite l Reg.IMG_KEYCMD v fun m => m.keyCommand v

/-- SLOT_MACHINE_REQUEST (R444): a write of IMG_SM_REQ, an asynchronous input. -/
def execSlotMachineRequest (cyc : Nat) (who : Writer) (k : Fin 16) (value : Word) (s : State) : Host.Outcome State Fault Refusal :=
  run s cyc fun m => m.laneOnly who fun l m => m.asyncWrite l (Reg.IMG_SM_REQ k) value

end Sys2Proof.Machine
end

