-- ==== Sys2Proof/Machine/Pwr.lean ====
section
/-! DEFINITION. The PWR block (R464 to R493): rails, causes of reset, wake, start credits, temperatures and the lines of Bedrock.
What a device reset and the end of boot do stands in Boot.lean and Boundary.lean. -/

namespace Sys2Proof.Machine

/-- A bit of PWR_IRQ_STAT set (R492). -/
def Mach.pwrIrq (m : Mach) (bit : Nat) : Mach := m.orr Reg.PWR_IRQ_STAT (2 ^ bit)

/-! ### Start credits (R480, R481) -/

/-- COST of a drive's slot; 0 for no start control. -/
def Mach.startCost (m : Mach) (d : Nat) : Nat := m.fld (Reg.PWR_SCOST (m.drvSlot d)) 15 0

/-- PRIO of a drive's slot. -/
def Mach.startPrio (m : Mach) (d : Nat) : Nat := m.fld (Reg.PWR_SCOST (m.drvSlot d)) 17 16

/-- R481 step 3: the order in which starts are served. -/
def Mach.startBefore (m : Mach) (x y : StartWait) : Bool :=
  if m.startPrio x.drive != m.startPrio y.drive then decide (m.startPrio y.drive < m.startPrio x.drive)
  else if x.since != y.since then decide (x.since < y.since)
  else decide (x.drive < y.drive)

/-- A start put in its place. -/
def Mach.startInsert (m : Mach) (x : StartWait) : List StartWait → List StartWait
  | [] => [x]
  | y :: t => if m.startBefore x y then x :: y :: t else y :: m.startInsert x t

/-- R481 step 3: grants in order while the balance covers them; the drives granted and what is left. -/
def Mach.grantStarts (m : Mach) : List StartWait → Int → List Nat × Int
  | [], b => ([], b)
  | x :: t, b =>
    let c : Int := m.startCost x.drive * 256
    if c ≤ b then
      let r := m.grantStarts t (b - c)
      (x.drive :: r.1, r.2)
    else ([], b)

/-- PWR_SCHSTAT shows the balance and the queue (R491). -/
def Mach.showSchedule (m : Mach) : Mach :=
  m.wrN Reg.PWR_SCHSTAT (unsigned 24 (clampI (-2 ^ 23) (2 ^ 23 - 1) m.pwr.balance) * 256 + min m.pwr.starts.length 15 * 16)

/-- R481: the scheduler at the boundary of tick `n`; it sees the starts of earlier boundaries. -/
def Mach.creditStep (m : Mach) (n : Nat) : Mach :=
  let cap : Int := m.fld Reg.PWR_SCHED 31 16 * 256
  let b := min cap (m.pwr.balance + m.fld Reg.PWR_SCHED 15 0)
  let seen := m.pwr.starts.filter fun x => decide (x.since < n)
  let free := (seen.filter fun x => decide (m.startCost x.drive = 0)).map (·.drive)
  let park := (seen.filter fun x => !free.contains x.drive && m.drvRole x.drive == 2 && decide (0 ≤ b)).map (·.drive)
  let b := b - (park.map fun d => (m.startCost d * 256 : Int)).sum
  let rest := (seen.filter fun x => !free.contains x.drive && !park.contains x.drive).foldl (fun l x => m.startInsert x l) []
  let r := m.grantStarts rest b
  let granted := free ++ park ++ r.1
  (m.onPwr fun p => { p with
    balance := r.2, granted := granted, starts := p.starts.filter fun x => !granted.contains x.drive }).showSchedule

/-- R481: starts that have waited 250 ms, 100,000,000 pipeline cycles, are told once. -/
def Mach.creditWait (m : Mach) : Mach :=
  let late (x : StartWait) := !x.told && decide (100000000 ≤ (m.seq - x.since) * m.period + m.time.cyc)
  let m' := m.onPwr fun p => { p with starts := p.starts.map fun x => if late x then { x with told := true } else x }
  forL (m.pwr.starts.filter late) (fun x m => (m.raise 0x4809 0 (m.drvSlot x.drive)).pwrIrq 4) m'

/-! ### Temperatures (R486 to R490) -/

/-- Whether a slot of the slot map uses a sensor. -/
def Mach.sensorUsed (m : Mach) (i : Nat) : Bool := m.mapped.any fun k => m.bit (Reg.PWR_SL_TMASK k) i

/-- Signed limits of a sensor: TDER, TMAX, TTRIP, OFS. -/
def Mach.tder (m : Mach) (i : Nat) : Int := signed 16 (m.fld (Reg.PWR_TS_CFG_W0 i) 31 16)
def Mach.tmax (m : Mach) (i : Nat) : Int := signed 16 (m.fld (Reg.PWR_TS_CFG_W0 i) 15 0)
def Mach.ttrip (m : Mach) (i : Nat) : Int := signed 16 (m.fld (Reg.PWR_TS_CFG_W1 i) 31 16)
def Mach.tofs (m : Mach) (i : Nat) : Int := signed 16 (m.fld (Reg.PWR_TS_CFG_W1 i) 15 0)

/-- The reading of a sensor, in 0.1 °C. -/
def Mach.reading (m : Mach) (i : Nat) : Int := signed 16 (m.fld (Reg.PWR_TS_VAL i) 31 16)

/-- R489: the lower edge of a band. -/
def bandEdge : Nat → Int
  | 1 => -200
  | 2 => 400
  | 3 => 850
  | _ => 1250

/-- R489: up while the reading has reached the next edge. -/
def bandUp : Nat → Int → Nat → Nat
  | 0, _, b => b
  | n + 1, t, b => if b < 4 ∧ bandEdge (b + 1) ≤ t then bandUp n t (b + 1) else b

/-- R489: down while the reading is 3 K below the edge. -/
def bandDown : Nat → Int → Nat → Nat
  | 0, _, b => b
  | n + 1, t, b => if 0 < b ∧ t < bandEdge b - 30 then bandDown n t (b - 1) else b

/-- R489: the band after a reading. -/
def bandOf (t : Int) (b : Nat) : Nat := bandDown 4 t (bandUp 4 t b)

/-- R490: the effect of a trip of a sensor. -/
def Mach.tripped (m : Mach) (i : Nat) : Mach :=
  let m := forL (m.mapped.filter fun k => m.bit (Reg.PWR_SL_TMASK k) i) (fun k m => m.raiseF3 0x4806 k [k, i]) m
  let m : Mach := if i < 2 then m.raiseF2 (Lane.ofIx i) 0x4808 else if i < 5 then m.raiseF4 0x4807 else m
  m.pwrIrq 3

/-- R488: the last reading lies within 10 K of a limit of a sensor that some slot uses. -/
def Mach.nearLimit (m : Mach) (i : Nat) (t : Int) : Bool :=
  let near (x : Int) := decide (x ≠ 0x7FFF) && decide ((t - x).natAbs ≤ 100)
  m.sensorUsed i && (near (m.tder i) || near (m.ttrip i))

/-- R486, R487: the reading T + OFS, and whether the measurement is valid. -/
def Mach.rawReading (m : Mach) (i : Nat) (r : TempReading) : Int × Bool :=
  let t := if i = 5 then signed 16 (m.rd (Reg.ACQ_SUP 7)).toNat
    else if 8 ≤ i then m.curve (m.fld (Reg.PWR_TS_CFG_W2 i) 7 0) r.ntc else r.dieA
  let bad := if 8 ≤ i then decide (4000 < r.ntc) || decide (r.ntc < 40) else decide (50 < (r.dieA - r.dieB).natAbs)
  (clampI (-0x8000) 0x7FFF (t + m.tofs i), !bad && r.selfOk)

/-- R487 to R490: one measurement of a sensor. -/
def Mach.measureSensor (m : Mach) (i : Nat) (r : TempReading) : Mach :=
  let x := m.rawReading i r
  let s := nth m.pwr.sensors i
  let was := m.bit (Reg.PWR_TS_VAL i) 15
  let bad := if x.2 then 0 else s.brokenRun + 1
  let good := if x.2 then s.validRun + 1 else 0
  let broken := if was then decide (good < 16) else decide (2 ≤ bad)
  let t := if broken then 2000 else x.1
  let trips := x.2 && !broken && decide (m.ttrip i ≠ 0x7FFF) && decide (m.ttrip i ≤ t)
  let run := if trips then s.tripRun + 1 else 0
  let trip := if m.bit (Reg.PWR_TS_VAL i) 14 then decide (m.ttrip i - 100 < t) else decide (2 ≤ run)
  let near := m.nearLimit i t
  let away := if near then 0 else s.awayRun + 1
  let new := trip && !m.bit (Reg.PWR_TS_VAL i) 14
  let band := bandOf t (m.fld (Reg.PWR_TS_VAL i) 2 0)
  let m := m.wrN (Reg.PWR_TS_VAL i) (unsigned 16 t * 2 ^ 16 + broken.toNat * 2 ^ 15 + trip.toNat * 2 ^ 14 + band)
  let m := m.onPwr fun p => { p with sensors := upd p.sensors i fun _ =>
    { brokenRun := min bad 2, validRun := min good 16, tripRun := min run 2, fast := near || (s.fast && decide (away < 16)),
      awayRun := min away 16 } }
  let m := if broken && !was then (m.raise 0x4804 1).pwrIrq 1 else m
  if new then m.tripped i else m

/-- R489: the throttle factor that a sensor gives. -/
def Mach.throttleFrom (m : Mach) (i : Nat) : Int :=
  if m.tmax i = 0x7FFF then 0xFFFF
  else clampI 0 0xFFFF (tdiv ((m.tmax i - m.reading i) * 2 ^ 16) (m.tmax i - m.tder i))

/-- What was last published of a slot: K and BAND. -/
def Mach.lastThermal (m : Mach) (k : Nat) : Nat :=
  match m.lane.waiting.reverse.find? fun e => e.kind == 7 && e.src == k with
  | some e => e.value
  | none => (m.rd (Reg.PWR_SL_TH k)).toNat

/-- R489: a slot's band and factor; a change is an input of KIND 7. -/
def Mach.slotThermal (m : Mach) (k : Nat) : Mach :=
  let ss := bitsOf 20 (m.rd (Reg.PWR_SL_TMASK k)).toNat
  if ss.isEmpty then m
  else
    let band := (ss.map fun i => m.fld (Reg.PWR_TS_VAL i) 2 0).foldl max 0
    let f : Nat := ((ss.map m.throttleFrom).foldl min 0xFFFF).toNat
    let old := m.lastThermal k
    let oldK := old / 2 ^ 16
    let change := decide (old % 8 ≠ band) || decide (256 ≤ max f oldK - min f oldK) || (decide (f ≠ oldK) && (f == 0 || f == 0xFFFF))
    let m := if change then m.accede ⟨7, k, 0, 0, f * 2 ^ 16 + band, []⟩ else m
    let told := nth m.pwr.throttled k
    let m := m.onPwr fun p => { p with throttled := upd p.throttled k fun _ => decide (f < 0xFFFF) }
    if f < 0xFFFF ∧ !told then (m.raise 0x4805 1 k [k]).pwrIrq 2 else m

/-- R488, R489: what is measured at the boundary of tick `n`, from the readings that the outside supplies; nothing in SLEEP. -/
def Mach.thermal (m : Mach) (n : Nat) (temps : List TempReading) : Mach :=
  let due := (List.range 20).filter fun i => m.mode != .sleep && (n % 16 == 0 || (nth m.pwr.sensors i).fast)
  let m := forL due (fun i m => match temps.find? fun r => r.sensor == i with
    | some r => m.measureSensor i r
    | none => m) m
  forL m.mapped (fun k m => m.slotThermal k) m

/-- R489: KIND 7 takes effect: PWR_SL_TH shows band and factor in force, and MOD and GDI act on them. -/
def Mach.thermalTakes (m : Mach) (k v : Nat) : Mach :=
  let m := m.wrN (Reg.PWR_SL_TH k) (v / 2 ^ 16 * 2 ^ 16 + v % 8)
  forL (m.pairsOf k) (fun p m => m.setFld (Reg.GDI_PR_STAT p) 15 13 (v % 8)) m

/-! ### The lines (R483, R484) -/

/-- The slots that PWR_LINES.ASCMASK names. -/
def Mach.ascSlots (m : Mach) : List Nat :=
  ([0, 1].filter fun i => m.bit Reg.PWR_LINES i && m.motorSet i).map fun i => m.fld (Reg.FOC_M_CFG 0 i) 31 28

/-- R484: the slot is held in active short circuit by the frame in execution. -/
def Mach.ascHolds (m : Mach) (k : Nat) : Bool := (m.sv k).exec.any fun f => f.safe && f.asc

/-- R484: ASC_REQ_N, after the frames of a boundary have loaded; Bedrock releases it when it has failed (R485). -/
def Mach.ascLine (m : Mach) : Mach :=
  let ks := m.ascSlots
  let freed := m.tick.running && ks.all fun k => m.ascHolds k || (m.lastAccepted k).any fun f => !f.emfhi
  let pull := m.pwr.ascPull && !freed
  (m.onPwr fun p => { p with ascPull := pull, ascReq := p.bedrockOk && (pull || ks.any m.ascHolds) }).setLines

/-! ### Rails (R464 to R466) -/

/-- Rails good, as a number of the first ones in order; VDDA is the fifth (R89). -/
def Mach.showRails (m : Mach) (good : Nat) : Mach :=
  (m.setFld Reg.PWR_STATUS 5 0 (2 ^ good - 1)).setBit Reg.ACQ_STATUS 12 (decide (5 ≤ good))

/-- R218: a rail is below its threshold, or the device goes into reset: every channel is off, and the tick does not run on. -/
def Mach.coreStops (m : Mach) : Mach :=
  let m := (m.setBit Reg.GDI_OVSTAT 0 false).setFld Reg.SAFE_OUTS 6 0 0
  let m := m.onGate fun g => { g with enabled := 0, enB := 0, enS := 0, clamped := false }
  m.onTicks fun t => { t with running := false }

/-- R464, R468: rail `r` has left its window: the rails go down, and a device reset with CAUSE 1 follows. -/
def Mach.railFault (m : Mach) (r : Nat) : Mach :=
  if m.fld Reg.PWR_STATUS r r = 0 ∨ (m.pwr.phase ≠ .up ∧ m.pwr.phase ≠ .off) then m
  else
    let m := (m.setBit Reg.PWR_STATUS r false).coreStops
    let m := if r = 4 then m.setBit Reg.ACQ_STATUS 12 false else m
    m.onPwr fun p => { p with phase := .falling, due := some 1, rail := r }

/-- R465: the enables rise in order; `good` rails become good, each in its time. The rest is RAIL_RISE_TIMEOUT's. -/
def Mach.powerUp (m : Mach) (good : Nat) : Mach :=
  if (m.pwr.phase ≠ .off ∧ m.pwr.phase ≠ .waiting) ∨ m.pwr.vinOk = false then m
  else (m.showRails (min good 6)).onPwr fun p => { p with phase := if 6 ≤ good then .up else .off }

/-- R465: the first rail that is not good has not risen in 2.0 ms: the rails go down for another try, after the third for good. -/
def Mach.riseTimeout (m : Mach) : Mach :=
  match (List.range 6).find? fun r => !m.bit Reg.PWR_STATUS r with
  | none => m
  | some r =>
    if m.pwr.phase ≠ .off then m
    else m.onPwr fun p => { p with phase := .falling, due := some 1, rail := r, tries := p.tries + 1 }

/-- R466, R476, R479: the rails have fallen. What only powered memory holds is lost. After SLEEP the wake logic runs on, and a
wake that came meanwhile begins. -/
def Mach.powerDown (m : Mach) (mem : List Host.Cell) : Mach × List Host.Cell :=
  if m.pwr.phase ≠ .falling then (m, mem)
  else
    let m := (m.showRails 0).onPwr fun p => { p with booted := false }
    let mem := mem.filter fun c => decide (regionOf c.1 = .flash)
    let p := m.pwr
    if p.due.isSome then
      (m.onPwr fun p => { p with phase := if p.due = some 1 ∧ 3 ≤ p.tries then .gaveUp else if p.due = some 1 ∧ 0 < p.tries then
        .waiting else .off }, mem)
    else
      let m := m.setBit Reg.SYS_MODE_STAT 9 false
      if p.wakeLatch ≠ 0 then (m.onPwr fun p => { p with phase := .off, due := some 4, waking := true }, mem)
      else (m.onPwr fun p => { p with phase := .asleep }, mem)

/-! ### Causes of reset (R468, R470) -/

/-- R468: RST_N has been low for 10 µs. -/
def Mach.resetPin (m : Mach) : Mach :=
  let m := m.coreStops
  m.onPwr fun p => { p with
    due := some 2, tries := 0, phase := if p.phase = .gaveUp ∨ p.phase = .asleep ∨ p.phase = .waiting then .off else p.phase }

/-- R468: VIN_AUX has fallen below 8.0 V: the rails go down before the reset. -/
def Mach.vinLow (m : Mach) : Mach :=
  let m := m.coreStops
  m.onPwr fun p => { p with
    vinOk := false, due := some 6, tries := 0
    phase := if p.phase = .up ∨ p.phase = .falling ∨ (p.phase = .off ∧ m.fld Reg.PWR_STATUS 5 0 ≠ 0) then .falling else .off }

/-- R464, R468: VIN_AUX has come back above 8.5 V after a dip. -/
def Mach.vinBack (m : Mach) : Mach := m.onPwr fun p => { p with vinOk := true }

/-- R470: the crystal is lost: every slot is held in its safe state, by EMFHI of its last accepted frame, and no tick runs. -/
def Mach.crystalLoss (m : Mach) : Mach :=
  if m.pwr.crystalLost then m
  else
    let n := m.seq
    let m := m.onPwr fun p => { p with crystalLost := true }
    let m := (m.raiseF4 0x480A).pwrIrq 6
    let m := if m.tick.running then forL m.mapped (fun k m => m.gateLoad k (m.safeFrame k n (m.lastEmfhi k))) m else m
    let m := m.onTicks fun t => { t with running := false }
    (m.setFld Reg.SAFE_OUTS 6 0 0).ascLine

/-- R470: the crystal has been within 1 % for 10 ms. -/
def Mach.crystalBack (m : Mach) : Mach := if m.pwr.crystalLost then m.askReset 5 else m

/-! ### SLEEP and wake (R477 to R479) -/

/-- SLEEP is in force, or the way into it (R477). -/
def Mach.inSleep (m : Mach) : Bool :=
  m.pwr.phase == .asleep || (m.mode == .sleep && (m.tick.running || (m.pwr.phase == .falling && m.pwr.due.isNone)))

/-- R477: after SLEEP has taken effect: the tick stops, the session closes, the ports stop, the rails go down; every enable is
withdrawn. `logOk` says that the session's entry verifies. -/
def Mach.sleepEntry (m : Mach) (mem : List Host.Cell) (logOk : Bool) : Mach × List Host.Cell :=
  if m.mode ≠ .sleep ∨ m.tick.running = false then (m, mem)
  else
    let m := m.coreStops
    let x := m.endSession mem logOk 3
    ((x.1.onPwr fun p => { p with phase := .falling, wakeLatch := p.wakeLatch, booted := false }).setLines, x.2)

/-- R478, R491: source `i` of PWR_WAKECFG is armed; a port also needs its WAKE bit. -/
def Mach.wakeArmed (m : Mach) (i : Nat) : Bool :=
  m.bit Reg.PWR_WAKECFG i && (decide (i < 9) || m.bit (Reg.NET_P_CFG (i - 9)) 30)

/-- R478, R479: a source asserts: it starts a wake from SLEEP, is latched on the way into SLEEP, and joins a wake begun less than
1 ms ago (`late` says that it is more). -/
def Mach.wakeSource (m : Mach) (i : Nat) (late : Bool) : Mach :=
  if !m.wakeArmed i then m
  else if m.pwr.phase = .asleep then
    m.onPwr fun p => { p with wakeLatch := p.wakeLatch ||| 2 ^ i, phase := .off, due := some 4, waking := true }
  else if m.inSleep || (m.pwr.waking && !late) then m.onPwr fun p => { p with wakeLatch := p.wakeLatch ||| 2 ^ i }
  else m

/-- R478: the wake timer runs out in SLEEP. -/
def Mach.wakeTimer (m : Mach) : Mach := if m.rd Reg.PWR_WTIMER = 0#32 then m else m.wakeSource 8 false

/-! ### The rows -/

/-- START_CREDIT_WAIT (R481). -/
def execStartCreditWait (cyc : Nat) (s : State) : Host.Outcome State Fault Refusal := run s cyc fun m => m.creditWait

/-- RST_N_ASSERT (R468). -/
def execRstNAssert (cyc : Nat) (s : State) : Host.Outcome State Fault Refusal := run s cyc fun m => m.resetPin

/-- VIN_AUX_LOW (R468). -/
def execVinAuxLow (cyc : Nat) (s : State) : Host.Outcome State Fault Refusal := run s cyc fun m => m.vinLow

/-- VIN_AUX_RESTORED (R468): the device reset of CAUSE 6 can begin. -/
def execVinAuxRestored (cyc : Nat) (s : State) : Host.Outcome State Fault Refusal := run s cyc fun m => m.vinBack

/-- RAIL_FAULT (R464): `rail` is the rail's order − 1. -/
def execRailFault (cyc : Nat) (rail : Fin 6) (s : State) : Host.Outcome State Fault Refusal := run s cyc fun m => m.railFault rail

/-- POWER_UP_SEQUENCE (R465): `good` rails become good in their time. -/
def execPowerUpSequence (cyc : Nat) (good : Fin 7) (s : State) : Host.Outcome State Fault Refusal := run s cyc fun m => m.powerUp good

/-- RAIL_RISE_TIMEOUT (R465). -/
def execRailRiseTimeout (cyc : Nat) (s : State) : Host.Outcome State Fault Refusal := run s cyc fun m => m.riseTimeout

/-- POWER_DOWN_SEQUENCE (R466). -/
def execPowerDownSequence (cyc : Nat) (s : State) : Host.Outcome State Fault Refusal := runMem s cyc fun m mem => m.powerDown mem

/-- CRYSTAL_LOSS (R470). -/
def execCrystalLoss (cyc : Nat) (s : State) : Host.Outcome State Fault Refusal := run s cyc fun m => m.crystalLoss

/-- CRYSTAL_RESTORED (R470). -/
def execCrystalRestored (cyc : Nat) (s : State) : Host.Outcome State Fault Refusal := run s cyc fun m => m.crystalBack

/-- SLEEP_ENTRY (R477). -/
def execSleepEntry (cyc : Nat) (logOk : Bool) (s : State) : Host.Outcome State Fault Refusal :=
  runMem s cyc fun m mem => m.sleepEntry mem logOk

/-- WAKE_SOURCE (R478): `src` is the source's bit in PWR_WAKECFG. -/
def execWakeSource (cyc : Nat) (src : Fin 16) (late : Bool) (s : State) : Host.Outcome State Fault Refusal :=
  run s cyc fun m => m.wakeSource src late

/-- WAKE_TIMER_EXPIRY (R478). -/
def execWakeTimerExpiry (cyc : Nat) (s : State) : Host.Outcome State Fault Refusal := run s cyc fun m => m.wakeTimer

/-- HEARTBEAT_TOGGLE (R483): still in SLEEP and after Bedrock has failed. -/
def execHeartbeatToggle (cyc : Nat) (s : State) : Host.Outcome State Fault Refusal :=
  run s cyc fun m => if m.pwr.bedrockOk && !m.inSleep then m.setBit Reg.PWR_STATUS 7 (!m.bit Reg.PWR_STATUS 7) else m

/-- BEDROCK_SELF_TEST_FAIL (R483, R485). -/
def execBedrockSelfTestFail (cyc : Nat) (s : State) : Host.Outcome State Fault Refusal :=
  run s cyc fun m => (((m.onPwr fun p => { p with bedrockOk := false }).setFld Reg.SAFE_OUTS 6 0 0).ascLine)

end Sys2Proof.Machine
end

