-- ==== Sys2Proof/Machine/Boot.lean ====
section
/-! DEFINITION. Device reset, the choice of the image and its loading, and the recovery state (R454 to R457, R468, R469, R471). -/

namespace Sys2Proof.Machine

/-! ### The reset itself (R469) -/

/-- R90, R218, R341, R391, R469, R484, R490: what a device reset of a cause leaves: every domain but the wake logic and Bedrock at its
reset values; `good` rails stay up; the sources that joined a wake stand in PWR_WAKE. -/
def Mach.afterReset (m : Mach) (cause : Nat) : Mach :=
  let x := Mach.initial m.variant
  let asc := m.pwr.ascBoot && cause != 0 && cause != 4
  let x : Mach := { x with
    free := m.free
    img := { x.img with keys := m.img.keys, revoked := m.img.revoked }
    pwr := { x.pwr with
      phase := m.pwr.phase, tries := m.pwr.tries, vinOk := m.pwr.vinOk, due := none, rail := m.pwr.rail,
      ascBoot := m.pwr.ascBoot, ascPull := asc, ascReq := asc } }
  let x := (x.wr Reg.PWR_STATUS (m.rd Reg.PWR_STATUS &&& 0xBF#32)).wrN Reg.PWR_RSTCAUSE
    ((if cause = 1 then m.pwr.rail % 8 * 32 else 0) + min m.pwr.tries 3 * 8 + cause)
  let x := x.setBit Reg.ACQ_STATUS 12 (m.bit Reg.PWR_STATUS 4)
  (x.wrN Reg.PWR_WAKE (if cause = 0 ∨ cause = 4 then m.pwr.wakeLatch else 0)).showKeys.setLines

/-- R352: the DRAM filled with zeros; flash and lane SRAM stay. -/
def resetMemory (mem : List Host.Cell) : List Host.Cell := Memory.clear mem 0 0x100000000

/-! ### The choice of a bank (R454) -/

/-- R454: a record's bank is accepted when its image matches LENGTH and DIGEST and passes the check but for rule 5. -/
inductive BankTry where
  | mismatch
  | rejected (r : Reject)
  | accepted (b : List Nat)
  deriving DecidableEq, Repr

/-- The try of a record's bank. -/
def Mach.tryBank (m : Mach) (mem : List Host.Cell) (c : CommitRecord) : BankTry :=
  let b := Memory.span (min c.length 33554432) (bankBase c.bank) mem
  if 2 ≤ c.bank ∨ le b 8 4 ≠ c.length ∨ sha256 b ≠ c.digest then .mismatch
  else match m.imageCheck b none with
    | some r => .rejected r
    | none => .accepted b

/-- A bank that fails is told when a rule rejects it (R445). -/
def Mach.bankFails (m : Mach) : BankTry → Mach
  | .rejected r => m.imgReject r
  | _ => m

/-- R454: the newest record's bank, or else that of the newest record naming the other bank; the record, its image, and whether it
is the fallback. -/
def Mach.chooseBank (m : Mach) (mem : List Host.Cell) : Mach × Option (CommitRecord × List Nat × Bool) :=
  match newestCommit mem with
  | none => (m, none)
  | some (_, c) =>
    match m.tryBank mem c with
    | .accepted b => (m, some (c, b, false))
    | t =>
      let m := m.bankFails t
      match newest (·.2.seq) ((commitRecords mem).filter fun x => x.2.bank != c.bank) with
      | none => (m, none)
      | some (_, d) =>
        match m.tryBank mem d with
        | .accepted b => (m, some (d, b, true))
        | t => (m.bankFails t, none)

/-- R454: the newest change-log entry of KIND 5 has a SEQ that no valid record holds. -/
def logGap (mem : List Host.Cell) : Bool :=
  match newest (·.1) ((logEntries mem).filter fun x => x.2.getD 24 0 == 5) with
  | none => false
  | some (n, _) => !(commitRecords mem).any fun c => c.2.logseq == n

/-! ### Loading (R455) -/

/-- The status registers that show the running image (R461). -/
def Mach.showImage (m : Mach) (c : CommitRecord) (b : List Nat) (fs : List Folio) : Mach :=
  let m := (m.setFld Reg.IMG_STATUS 24 24 c.bank).setFld Reg.IMG_STATUS 23 22 ((payload fs 0x0C).headD 0)
  let m := ((m.wrN Reg.IMG_RUNSEQ c.seq).wrN Reg.IMG_RUNVER (le b 28 4)).wr64 Reg.IMG_BUILD_LO Reg.IMG_BUILD_HI (le b 16 8)
  (m.wrN Reg.IMG_STRUCT (crc32c (payload fs 0x01))).wrN Reg.IMG_SAFETY (crc32c (payload fs 0x07))

/-- R132, R455 step 4: law memory of both lanes, states and signals at zero. -/
def Mach.loadLaw (m : Mach) (fs : List Folio) : Mach :=
  let words := lawWords fs
  let fill (l : Lane) (m : Mach) : Mach :=
    (m.onLaw l fun _ => { LawLane.fresh words with
      slots := (List.range 16).map fun k => { LawSlot.fresh with states := List.replicate (m.cascade l k).2 (0, 0) } }).setFld
      (Reg.LAW_STATUS l.ix) 31 16 (le (payload fs 0x04) 0 4)
  fill .b (fill .a m)

/-- R295, R442, R455 step 5: every table enters its INIT. -/
def Mach.startTables (m : Mach) : Mach :=
  let start (t : Option Table) : TabState := (t.map (·.start)).getD ⟨0, 0⟩
  let m := m.onImg fun g => { g with sm := (List.range 16).map fun k => start (m.smTable k) }
  let m := forN 6 (fun d m => m.onDrv d fun x =>
    { x with tab := start (m.drvTable d), dclamp := m.drvDlim d, granted := true }) m
  let fns (e : Evaluator) : Evaluator :=
    { e with fns := e.fns.mapIdx fun f x => { x with tab := start (m.table (m.fld (Reg.SAFE_FN_CFG_W2 f) 7 0)) } }
  (m.onEval false fns).onEval true fns

/-- What the load lists give device state: initial strengths (R197), EN of LVC, waiting connections (R419), the balance of the
scheduler (R481), ASCBOOT (R484), the bands at boot (R490), configured slots, the arrangements that passed R47 and the first of them (R299). -/
def Mach.startBlocks (m : Mach) : Mach :=
  let m := forN 16 (fun p m => (m.setFld (Reg.GDI_PR_STAT p) 31 16 (m.fld (Reg.GDI_PR_STR p) 31 16)).setFld
    (Reg.GDI_PR_STAT p) 15 13 (if (m.slotOfPair p).isSome then 1 else 0)) m
  let m := m.setBit Reg.LVC_CTRL 0 (m.bit Reg.LVC_CFG 7)
  let m := forN 8 (fun c m => if (m.aeCfg c).bit 31 then m.setAe c 1 else m) m
  let m := m.onPwr fun p => { p with balance := m.fld Reg.PWR_SCHED 31 16 * 256, ascBoot := m.bit Reg.PWR_LINES 2 }
  let m := forN 20 (fun i m => m.wrN (Reg.PWR_TS_VAL i) 1) m
  let m := forL [0, 1] (fun l m => m.wrN (Reg.MOD_STATUS l) (slotMask m.hasSlot)) m
  let m := m.setFld Reg.LANE_CFG 9 8 m.image.arrok
  (m.wrN Reg.LANE_ARR m.image.arrinit).setFld Reg.LANE_STATUS 5 4 m.image.arrinit

/-- R455: the image is loaded and the lock is set. -/
def Mach.loadImage (m : Mach) (mem : List Host.Cell) (c : CommitRecord) (b : List Nat) : Mach × List Host.Cell :=
  let fs := folios b
  let m := (m.loadRegs b fs).showImage c b fs
  let m := (m.loadLaw fs).derive m.image.arrinit
  let m := m.startTables.startBlocks
  let mem := m.loadFirmware mem fs
  let x := m.pwBoot mem ((initialPassword fs).getD default)
  let m := x.1.sessBoot x.2
  (({ m with locked := true } : Mach).raise 0x4401 0 0xFF ([c.bank] ++ leBytes 4 c.seq), x.2)

/-- R382, R383, R454, R455: boot up to the end of loading: the records in flash are found, the first event of the boot is raised,
and a bank is chosen and loaded. -/
def Mach.boot (m : Mach) (mem : List Host.Cell) : Mach × List Host.Cell :=
  let n := bootNumber mem
  let m := ((m.wrN Reg.TIME_BOOT n).catScan mem).logScan mem
  let m := (m.lvcScan mem).raise 0x3C01 0 0xFF (leBytes 8 (m.rd64 Reg.SYS_UID_LO Reg.SYS_UID_HI) ++ leBytes 2 n)
  let r := m.chooseBank mem
  let m := r.1
  let m := if logGap mem then (m.setBit Reg.IMG_STATUS 25 true).raise 0x4404 0 else m
  match r.2 with
  | none => (m, mem)
  | some (c, b, fallback) =>
    let x := m.loadImage mem c b
    (if fallback then (x.1.setBit Reg.IMG_STATUS 26 true).raise 0x4403 1 else x.1, x.2)

/-- R468, R469, R471: the device reset that is due: every domain is reset, and boot runs up to the end of loading. After CAUSE 1 and
6 the rails have gone down first, and without VIN_AUX nothing runs. -/
def Mach.deviceReset (m : Mach) (mem : List Host.Cell) : Mach × List Host.Cell :=
  let ready (c : Nat) : Bool := m.pwr.vinOk && match m.pwr.phase with
    | .up => c != 1 && c != 6
    | .off => true
    | .waiting => true
    | _ => false
  match m.pwr.due with
  | none => (m, mem)
  | some c => if ready c then (m.afterReset c).boot (resetMemory mem) else (m, mem)

/-- R468, R479: VIN_AUX is applied: nothing but flash and the fuses has outlived its absence, and the device boots with CAUSE 0; the
sources asserted now count as joined. -/
def Mach.powerOn (m : Mach) (sources : Nat) : Mach :=
  let x := Mach.initial m.variant
  { x with
    free := m.free, img := { x.img with keys := m.img.keys, revoked := m.img.revoked }
    pwr := { x.pwr with wakeLatch := sources &&& 0xFF8F } }

/-! ### The recovery loader (R456) -/

/-- R456: the staged length is that of the image's own header, which the first frame brings. -/
def Mach.recoveryLen (m : Mach) (off : Nat) (data : List Nat) : Mach :=
  if off = 0 ∧ 12 ≤ data.length ∧ (m.stage = 0 ∨ m.stage = 7) then m.wrN Reg.IMG_LEN (le data 8 4) else m

/-- R456: after the last byte: VERIFY, COMMIT and a device reset. -/
def Mach.recoveryEnds (m : Mach) (mem : List Host.Cell) (ok : Bool) : Mach × List Host.Cell :=
  if m.stage ≠ 3 then (m, mem)
  else
    let m := (m.setStage 4).verifyComplete mem
    if m.stage ≠ 5 then (m, mem)
    else
      let x := m.imgCommit mem true ok
      (if ok then x.1.askReset 3 else x.1, x.2)

/-- R456: an image frame: its offset must follow what has been taken; it is staged and answered with its offset and a status byte. -/
def Mach.recoveryFrame (m : Mach) (mem : List Host.Cell) (p : List Nat) (ok : Bool) : Mach × List Host.Cell :=
  let off := le p 0 4
  let len := le p 4 2
  let data := cut p 6 len
  if !m.recovery then (m, mem)
  else
    let fits := decide (len ≤ 1024) && decide (0 < len) && data.length == len
    let m := if fits then m.recoveryLen off data else m
    let start := fits && decide (off = 0) && m.canBegin
    let x : Mach × List Host.Cell := if start then
      ((m.setStage 1).wr Reg.IMG_PROG 0#32).eraseComplete mem true else (m, mem)
    let m := x.1
    let mem := x.2
    let prog := (m.rd Reg.IMG_PROG).toNat
    let take := fits && m.stage == 2 && off == prog && decide (prog + len ≤ m.imgLen)
    let y : Mach × List Host.Cell := if take then m.stagePages mem data ok else (m.imgRefused, mem)
    let status := if take && ok then 0 else 1
    let m := y.1.onNet fun n => { n with ports := upd n.ports 0 fun x => { x with
      queue := x.queue ++ [⟨0, leBytes 4 off ++ [status], y.1.seq, 0⟩] } }
    m.recoveryEnds y.2 ok

/-! ### The rows -/

/-- POWER_ON (R468): `sources` are the wake sources asserted at the instant, by their bits in PWR_WAKECFG. -/
def execPowerOn (cyc : Nat) (sources : BitVec 16) (s : State) : Host.Outcome State Fault Refusal :=
  runMem s cyc fun m mem => (m.powerOn sources.toNat, mem.filter fun c => decide (regionOf c.1 = .flash))

/-- DEVICE_RESET (R469). -/
def execDeviceReset (cyc : Nat) (s : State) : Host.Outcome State Fault Refusal := runMem s cyc fun m mem => m.deviceReset mem

/-- RECOVERY_FRAME (R456): `payload` follows the EtherType; `ok` says that flash reads back what it was given. -/
def execRecoveryFrame (cyc : Nat) (payload : List Nat) (ok : Bool) (s : State) : Host.Outcome State Fault Refusal :=
  runMem s cyc fun m mem => m.recoveryFrame mem payload ok

end Sys2Proof.Machine
end

