-- ==== Sys2Proof/Machine/Mode.lean ====
section
/-! DEFINITION. The mode manager: requests, Bedrock's fixed rules, the table, and what a transition does (R24 to R27, R31 to R36,
R472 to R476). -/

namespace Sys2Proof.Machine

/-! ### The condition word (R472) -/

/-- R472: IDLE. -/
def Mach.idleCond (m : Mach) : Bool :=
  (m.mapped.all fun k => [0, 6].contains (m.modState (m.runner k) k)) && m.lvc.state == 0 && [0, 1, 8].contains m.chg.state

/-- R472: FLASHBUSY. -/
def Mach.flashBusy (m : Mach) : Bool :=
  [1, 2, 4, 6].contains m.stage || !m.lvc.queue.isEmpty || !m.time.flashQueue.isEmpty

/-- R472: HOT. -/
def Mach.hotCond (m : Mach) : Bool := (List.range 20).any fun i => m.fld (Reg.PWR_TS_VAL i) 2 0 == 4

/-- SAFE_STATUS.STARTED (R430). -/
def Mach.safeStarted (m : Mach) : Bool := m.bit Reg.SAFE_STATUS 26

/-- A request is waiting (R32). -/
def Mach.modePending (m : Mach) : Bool := m.bit Reg.SYS_MODE_STAT 10

/-- SYS_MODE_STAT.TARGET. -/
def Mach.modeTarget (m : Mach) : Nat := m.fld Reg.SYS_MODE_STAT 6 4

/-- The target of the pending request that the table evaluates; 7 for none. -/
def Mach.pendingTarget (m : Mach) : Nat := if m.modePending && m.sys.held.isNone then m.modeTarget else 7

/-- R472: the condition word of the mode manager; `ign` is the level of WAKE_IN0. -/
def Mach.modeCond (m : Mach) (ign : Bool) : Nat :=
  m.pendingTarget + 8 * ign.toNat + 16 * m.idleCond.toNat + 32 * m.act.engaged.toNat + 64 * m.sessOpen.toNat +
    128 * (decide (1 ≤ m.chg.pp) && decide (m.chg.pp ≤ 4)).toNat + 256 * m.safeStarted.toNat + 512 * (m.chg.state == 8).toNat +
    1024 * m.hotCond.toNat + 2048 * m.flashBusy.toNat

/-! ### Bedrock's fixed rules (R474, R475) -/

/-- R474: the transitions that Bedrock permits, by the codes of the modes. -/
def Mach.modeAllowed (m : Mach) (source target : Nat) : Bool :=
  match source, target with
  | _, 5 => true
  | 1, 0 => m.idleCond && !m.flashBusy
  | 1, 2 => true
  | 1, 3 => m.act.engaged
  | 1, 4 => true
  | 2, 1 => true
  | 2, 3 => m.act.engaged
  | 3, 1 => true
  | 3, 2 => true
  | 4, 1 => true
  | 5, 1 => true
  | _, _ => false

/-- R475: every safety function with HOLD has RESULT 1 in both evaluators. -/
def Mach.holdsReleased (m : Mach) : Bool :=
  (List.range 16).all fun f => !(m.fnOn f && (m.fn0 f).bit 24) ||
    ((m.safe.bed.fns.getD f default).result && (m.safe.sp.fns.getD f default).result)

/-- R475: the conditions under which a SAFE_HOLD is left, to STANDBY and by request only. -/
def Mach.mayLeaveHold (m : Mach) : Bool :=
  m.pendingTarget == 1 && !m.sys.holdByF4 && m.safeStarted && m.holdsReleased && (m.live .a || m.live .b)

/-- A row of the table may be taken now under R474, R475 and the units present; a row that re-enters its state changes no mode. -/
def Mach.rowAllowed (m : Mach) (target : Nat) : Bool :=
  let source := m.mode.code
  target == source ||
    (m.modeAllowed source target && (target != 3 || hasUnit m.variant 3) && (source != 5 || target == 5 || m.mayLeaveHold))

/-! ### Requests (R25, R31, R473) -/

/-- R32, R35, R36: a request ends with a refusal; it is no longer pending. -/
def Mach.modeRefused (m : Mach) (code : Nat) : Mach :=
  let m := (m.setFld Reg.SYS_MODE_STAT 15 12 code).setBit Reg.SYS_MODE_STAT 10 false
  ((m.onSys fun s => { s with held := none, waited := 0 }).raise 0x0003 0 0xFF [code]).orr Reg.SYS_IRQ_STAT 2

/-- R25 item 2: a waiting request gives way. -/
def Mach.dropRequest (m : Mach) (code : Nat) : Mach := if m.modePending then m.modeRefused code else m

/-- A request completes without a transition (R25 item 4). -/
def Mach.modeCompletes (m : Mach) : Mach := (m.setFld Reg.SYS_MODE_STAT 15 12 0).setBit Reg.SYS_MODE_STAT 10 false

/-- The table of the mode manager. -/
def Mach.modeTable (m : Mach) : Option Table := m.image.tables.find? fun t => t.owner == 0

/-- R473: the refusal of a request, in the order of the rule. -/
def Mach.modeRefusal (m : Mach) (target : Nat) : Option Nat :=
  let source := m.mode.code
  let led := m.modeTable.any fun t => t.rows.any fun r =>
    (r.source == source || r.source == 0xFF) && r.dest == target && r.modes.testBit source
  if target = 3 ∧ !hasUnit m.variant 3 then some 5
  else if target = 4 ∧ !m.sessOpen then some 4
  else if !m.modeAllowed source target then some 2
  else if m.mode = .safeHold ∧ m.sys.holdByF4 then some 7
  else if !led then some 1
  else none

/-- R25, R473: a request is evaluated. -/
def Mach.modeConsider (m : Mach) (target : Nat) : Mach :=
  let m := (m.setFld Reg.SYS_MODE_STAT 6 4 target).onSys fun s => { s with held := none, waited := 0 }
  if target = m.mode.code then m.modeCompletes
  else match m.modeRefusal target with
    | some c => m.modeRefused c
    | none => m.setBit Reg.SYS_MODE_STAT 10 true

/-- R473: a request that has not completed within REQTMO ticks. -/
def Mach.requestTimeout (m : Mach) : Mach :=
  if m.pendingTarget ≠ 7 ∧ m.fld Reg.PWR_MODECFG 15 0 ≤ m.sys.waited then m.modeRefused 3 else m

/-! ### Transitions (R24, R32 to R36, R476) -/

/-- What the entry of a mode does at once in the blocks: an injection ends (R126), diagnostics that wait run (R215, R242), and
calibration runs or gives way (R88); leaving SERVICE, the inactivity timer goes on (R425). -/
def Mach.modeEffects (m : Mach) (source target : Mode) (entered : Nat) : Mach :=
  let m := if source = .service then m.sessPause entered else m
  let stop (l : Lane) (m : Mach) : Mach := if m.injState l ≠ 0 then m.injEnd l 4 else m
  let m := stop .b (stop .a m)
  let m := if source = .standby ∧ target ≠ .standby then m.diagLeave.lvcDiagLeave else m
  let m := if target = .standby then m.diagStandby.lvcDiagStandby else m
  m.setLines

/-- R24, R32 to R35: a mode is entered at this boundary with a cause. -/
def Mach.enterMode (m : Mach) (target : Mode) (cause : Nat) : Mach :=
  let source := m.mode
  let entered := m.rd64 Reg.SYS_MODE_TLO Reg.SYS_MODE_THI
  let m := (m.setFld Reg.SYS_MODE_STAT 2 0 target.code).setFld Reg.SYS_MODE_STAT 31 16 0
  let m := (m.wrN Reg.SYS_MODE_LAST (source.code * 2 ^ 16 + cause)).wr64 Reg.SYS_MODE_TLO Reg.SYS_MODE_THI m.t0
  let m := m.orr Reg.SYS_IRQ_STAT (if target = .safeHold then 5 else 1)
  let m := m.onSys fun s => { s with dwell := 1, changed := true, holdByF4 := false }
  m.modeEffects source target entered

/-- R425: entry to DRIVE or CHARGE closes a session; `logOk` says that its entry verifies. -/
def Mach.modeSession (m : Mach) (mem : List Host.Cell) (logOk : Bool) : Mach × List Host.Cell :=
  if m.sys.changed && (m.mode == .drive || m.mode == .charge) then m.endSession mem logOk 2 else (m, mem)

/-- R25 item 1, R16, R27: an F4 event's SAFE_HOLD, which only a device reset ends (R475). -/
def Mach.modeForced (m : Mach) (code : Nat) : Mach :=
  let m := m.dropRequest 7
  let m := if m.mode = .safeHold then m else (m.enterMode .safeHold code).setFld Reg.SYS_MODE_STAT 6 4 5
  ((m.setBit Reg.SYS_MODE_STAT 9 false).onSys fun s => { s with f4 := none, holdByF4 := true }).setLines

/-- R473: a request for SAFE_HOLD at its accession tick; it replaces a waiting request. -/
def Mach.holdRequest (m : Mach) : Mach :=
  let m := (m.dropRequest 6).setFld Reg.SYS_MODE_STAT 6 4 5
  let m := if m.mode = .safeHold then m
    else ((m.enterMode .safeHold 0x0002).setBit Reg.SYS_MODE_STAT 9 false).raise 0x0002 0
  m.modeCompletes

/-- R31: a request of SYS_MODE_REQ takes effect. -/
def Mach.modeRequest (m : Mach) (v : Word) : Mach :=
  let t := v.bits 2 0
  let m := m.wrN Reg.SYS_MODE_REQ t
  if 5 < t then m
  else if t = 5 then m.holdRequest
  else
    let m := m.dropRequest 6
    if m.bit Reg.SYS_MODE_STAT 9 then
      ((m.setFld Reg.SYS_MODE_STAT 6 4 t).setBit Reg.SYS_MODE_STAT 10 true).onSys fun s => { s with held := some t }
    else m.modeConsider t

/-- R472, R476: a row is taken. -/
def Mach.modeRow (m : Mach) (r : TableRow) : Mach :=
  let asked := m.pendingTarget
  let consume := r.action.testBit 0 && asked == r.dest
  let m := if r.action.testBit 5 then (m.raise 0x480C 0).pwrIrq 5 else m
  if r.dest = m.mode.code then (if consume then m.modeCompletes else m).onSys fun s => { s with dwell := 1 }
  else
    let source := m.mode.code
    let m := (m.enterMode ((Mode.ofCode r.dest).getD .safeHold) (if consume then 0x0002 else 0x0007)).setBit
      Reg.SYS_MODE_STAT 9 true
    let m := m.setFld Reg.SYS_MODE_STAT 6 4 r.dest
    let m := if consume then m.modeCompletes.raise 0x0002 0 else m.raise 0x0007 0 0xFF [source, r.dest]
    if !consume && asked != 7 then m.onSys fun s => { s with held := some asked } else m

/-- R443, R472: one evaluation of the table at step 1 of a boundary. -/
def Mach.modeEvaluate (m : Mach) (ign : Bool) : Mach :=
  match m.modeTable with
  | none => m
  | some t =>
    let cond := m.modeCond ign
    let st : TabState := ⟨m.mode.code, m.sys.dwell⟩
    match t.rows.find? fun r => r.applies m.mode.code cond st && m.rowAllowed r.dest with
    | some r => m.modeRow r
    | none => m.onSys fun s => { s with dwell := min (s.dwell + 1) (2 ^ 32 - 1) }

/-- R25 item 3: a request held during a transition is evaluated at the first tick after it. -/
def Mach.modeHeld (m : Mach) : Mach :=
  match m.sys.held with
  | some t => m.modeConsider t
  | none => m

/-- R473: a request that the evaluation has not completed has waited one tick more. -/
def Mach.modeWaits (m : Mach) : Mach := if m.pendingTarget ≠ 7 then m.onSys fun s => { s with waited := s.waited + 1 } else m

/-- R32, R443, R473: a tick in which Bedrock changes no mode: it counts in DWELL, a transition of the tick before is over, and
requests and the table are evaluated. -/
def Mach.modeTick (m : Mach) (ign : Bool) : Mach :=
  (((m.setBit Reg.SYS_MODE_STAT 9 false).incSat Reg.SYS_MODE_STAT 31 16).modeHeld.modeEvaluate ign).modeWaits.requestTimeout

/-- R25, R42 step 1: the mode at the boundary of tick `n`; `hold` says that a request for SAFE_HOLD is accessioned for it. An F4
event or that request changes the mode at once; where SAFE_HOLD is the mode already, it ends a waiting request, and the tick
goes on as any other. -/
def Mach.modeStep (m : Mach) (ign hold : Bool) : Mach :=
  let m := m.onSys fun s => { s with changed := false }
  match m.sys.f4 with
  | some code => if m.mode = .safeHold then (m.modeForced code).modeTick ign else m.modeForced code
  | none =>
    if !hold then m.modeTick ign
    else if m.mode = .safeHold then m.holdRequest.modeTick ign
    else m.holdRequest

/-! ### The rows -/

/-- SYS_MODE_REQUEST (R31): a write of SYS_MODE_REQ; the safety processor may ask for SAFE_HOLD only. -/
def Mach.modeWrite (m : Mach) (who : Writer) (v : Word) : Mach :=
  let t := v.bits 2 0
  match who with
  | .lane l => if 5 < t then m.badValue who Reg.SYS_MODE_REQ else m.asyncWrite l Reg.SYS_MODE_REQ (BitVec.ofNat 32 t)
  | .safety =>
    if t = 5 then m.accede ⟨1, 0, 3, physical Reg.SYS_MODE_REQ % 2 ^ 32, 5, []⟩ else m.badValue who Reg.SYS_MODE_REQ

/-- SYS_MODE_REQUEST (R31). -/
def execSysModeRequest (cyc : Nat) (who : Writer) (value : Word) (s : State) : Host.Outcome State Fault Refusal :=
  run s cyc fun m => m.modeWrite who value

/-- MODE_REQUEST_TIMEOUT (R473). -/
def execModeRequestTimeout (cyc : Nat) (s : State) : Host.Outcome State Fault Refusal := run s cyc fun m => m.requestTimeout

end Sys2Proof.Machine
end

