-- ==== Sys2Proof/Machine/Tick.lean ====
section
/-! DEFINITION. The control tick: Emit and its deadline, the tick task, TICK_CMD, tick entry, and the accesses that fault (R8, R9,
R48 to R58, R66 to R69). -/

namespace Sys2Proof.Machine

/-! ### Emit (R48 to R50) -/

/-- The lane's pipeline works on the tick: it is LIVE or in SHADOW (R301). -/
def Mach.pipeRuns (m : Mach) (l : Lane) : Bool := m.tick.running && (m.laneCode l == 1 || m.laneCode l == 5)

/-- The slots of which the lane's pipeline holds a frame that Emit has not sent. -/
def Mach.unsent (m : Mach) (l : Lane) : List Nat :=
  (m.ownSlots l).filter fun k => (m.modSlot l k).frame.isSome && !(m.tl l).emitted.contains k

/-- R49, R66: slots found in tick overrun; the tick counts once. -/
def Mach.noteOverrun (m : Mach) (l : Lane) (ks : List Nat) : Mach :=
  if ks.isEmpty then m
  else
    let m := if (m.tl l).overran.isEmpty then
        (m.incSat (Reg.TICK_OVRCNT l.ix) 15 0).setFld (Reg.TICK_MINMARG l.ix) 15 0 0
      else m
    m.onTick l fun t => { t with overran := t.overran ++ ks.filter fun k => !t.overran.contains k }

/-- R49: the event of a slot in overrun, with the cycle at which its frame left. -/
def Mach.overrunEvent (m : Mach) (l : Lane) (k cyc : Nat) : Mach :=
  ((m.health l 0).raiseF2 l 0x0401 k (k :: leBytes 2 cyc)).orr (Reg.TICK_IRQ_STAT l.ix) 2

/-- R48: the cycle of the last Emit against TICK_PREDICT. -/
def Mach.checkPredict (m : Mach) (l : Lane) (cyc : Nat) : Mach :=
  if cyc = m.fld (Reg.TICK_PREDICT l.ix) 15 0 then m
  else ((m.health l 1).raiseF2 l 0x0403).orr (Reg.TICK_IRQ_STAT l.ix) 8

/-- R48: the margin against TICK_WARN, told once per arm. -/
def Mach.checkMargin (m : Mach) (l : Lane) (cyc : Nat) : Mach :=
  let low := decide (m.deadline < cyc + m.fld (Reg.TICK_WARN l.ix) 15 0)
  let told := low && (m.tl l).warnArmed
  let m := m.onTick l fun t => { t with warnArmed := !low }
  if told then m.raise 0x0404 0 0xFF [] l.origin else m

/-- R66: the smallest margin of the last Emit. -/
def Mach.emitMargin (m : Mach) (l : Lane) (cyc : Nat) : Mach :=
  m.setFld (Reg.TICK_MINMARG l.ix) 15 0 (min (m.fld (Reg.TICK_MINMARG l.ix) 15 0) (m.deadline - cyc))

/-- R48, R68: the lane's last frame of the tick has left Emit. -/
def Mach.lastEmitted (m : Mach) (l : Lane) (cyc : Nat) : Mach :=
  (((m.orr (Reg.TICK_IRQ_STAT l.ix) 1).checkPredict l cyc).checkMargin l cyc).emitMargin l cyc

/-- R49, R172: the frame of slot `k` leaves Emit and goes to the Sieve. -/
def Mach.emitFrame (m : Mach) (l : Lane) (k : Nat) : Mach :=
  let cyc := m.time.cyc
  match (m.modSlot l k).frame with
  | none => m
  | some f =>
    if !m.pipeRuns l || !(m.unsent l).contains k then m
    else
      let late := decide (m.deadline < cyc)
      let m := if late then (m.noteOverrun l [k]).overrunEvent l k cyc else m
      let m := m.onLb fun b => { b with inFlight := b.inFlight ++ [(l, { f with overrun := late })] }
      let m := m.onTick l fun t => { t with emitted := t.emitted ++ [k], lastEmit := cyc }
      if (m.unsent l).isEmpty then m.lastEmitted l cyc else m

/-- R49: cycle D: what has not left Emit is in tick overrun. -/
def Mach.emitDeadline (m : Mach) : Mach :=
  let due (l : Lane) (m : Mach) : Mach := if m.pipeRuns l then m.noteOverrun l (m.unsent l) else m
  if m.time.cyc < m.deadline then m else due .b (due .a m)

/-! ### The tick task (R51 to R57) -/

/-- R56: TASKDL has passed without DONE. -/
def Mach.taskDeadline (m : Mach) (l : Lane) : Mach :=
  if !m.inTick l || (m.tl l).taskOverrun || decide (m.time.cyc < m.fld (Reg.TICK_TASKDL l.ix) 15 0) then m
  else
    let m := (m.onTick l fun t => { t with taskOverrun := true }).health l 2
    let m := (m.raiseF2 l 0x0407).orr (Reg.TICK_IRQ_STAT l.ix) 4
    (m.incSat (Reg.TICK_OVRCNT l.ix) 31 16).setFld (Reg.TICK_MINMARG l.ix) 31 16 0

/-- R52: TICK_SAVE takes the context: pc, mstatus, mepc, mcause and mtval. No row runs an instruction, so between tick tasks the context is
the one that reset or the last task left (log entry 9). -/
def Mach.saveContext (m : Mach) (l : Lane) : Mach :=
  let c := (m.tl l).cpu
  forN 5 (fun i m => m.wr64 (Reg.TICK_SAVE l.ix (2 * i)) (Reg.TICK_SAVE l.ix (2 * i + 1))
    ([c.pc, c.mstatus, c.mepc, c.mcause, c.mtval].getD i 0)) m

/-- R53: the context that TICK_SAVE holds. -/
def Mach.savedContext (m : Mach) (l : Lane) : Cpu :=
  let v (i : Nat) : Nat := m.rd64 (Reg.TICK_SAVE l.ix (2 * i)) (Reg.TICK_SAVE l.ix (2 * i + 1))
  ⟨v 0, v 1, v 2, v 3, v 4, (m.tl l).savedMachine⟩

/-- mstatus with MIE cleared. -/
def clearMie (s : Nat) : Nat := if s.testBit 3 then s - 8 else s

/-- R51, R52: tick entry; the lane's controller counts source 1 as claimed. -/
def Mach.tickEntry (m : Mach) (l : Lane) : Mach :=
  let vec := m.rd64 (Reg.TICK_VEC_LO l.ix) (Reg.TICK_VEC_HI l.ix)
  (((m.plicTake l 1).saveContext l).setBit (Reg.TICK_CTX l.ix) 0 true).onTick l fun t =>
    { t with savedMachine := t.cpu.machine, cpu := { t.cpu with pc := vec, mstatus := clearMie t.cpu.mstatus, machine := true } }

/-- R53, R66, R67: DONE: the tick task ends, source 1 is completed and the preempted code resumes; a DONE past TASKDL comes after its overrun. -/
def Mach.tickDone (m : Mach) (l : Lane) : Mach :=
  if !m.inTick l then m
  else
    let cyc := m.time.cyc
    let dl := m.fld (Reg.TICK_TASKDL l.ix) 15 0
    let m := if dl < cyc then m.taskDeadline l else m
    let c := m.savedContext l
    let m := ((m.plicComplete l 1).setBit (Reg.TICK_CTX l.ix) 0 false).onTick l fun t => { t with doneAt := some cyc, cpu := c }
    m.setFld (Reg.TICK_MINMARG l.ix) 31 16 (min (m.fld (Reg.TICK_MINMARG l.ix) 31 16) (dl - cyc))

/-- R54: ARM, ignored once armed. -/
def Mach.tickArm (m : Mach) (l : Lane) : Mach := m.setBit (Reg.TICK_CTX l.ix) 1 true

/-- R54: at the boundary of tick `n` after every LIVE lane has armed, whatever armed it, the tick tasks of a paired arrangement
begin, and an entry of KIND 11 records the tick. -/
def Mach.tasksBegin (m : Mach) (n : Nat) : Mach :=
  let live := [Lane.a, .b].filter m.live
  if m.arr == 1 && !m.tick.begun && !live.isEmpty && live.all fun x => m.bit (Reg.TICK_CTX x.ix) 1 then
    m.wait (m.entryOf n ⟨11, 0, 0, 0, 0, []⟩)
  else m

/-- R51, R54, R57: whether the lane takes tick entry at a boundary: it runs the tick, is armed, tasks have begun when paired, and
it is not still in tick context. -/
def Mach.takesEntry (m : Mach) (l : Lane) : Bool :=
  m.pipeRuns l && m.bit (Reg.TICK_CTX l.ix) 1 && (m.arr == 2 || m.tick.begun) && !m.inTick l

/-- R67: a write of TICK_CMD. -/
def Mach.tickCommand (m : Mach) (l : Lane) (v : Word) : Mach :=
  let m := if v.bit 3 then m.wrN (Reg.TICK_OVRCNT l.ix) 0 else m
  let m := if v.bit 2 then m.wrN (Reg.TICK_MINMARG l.ix) 0xFFFFFFFF else m
  let m := if v.bit 1 then m.tickArm l else m
  if v.bit 0 then m.tickDone l else m

/-- A write of TICK_CMD by `who`; the other lane's copy cannot be written (R60). -/
def Mach.tickCmdWrite (m : Mach) (who : Writer) (l : Lane) (v : Word) : Mach :=
  m.ownCopy who l (Reg.TICK_CMD l.ix) fun m => m.tickCommand l v

/-! ### The end of a tick (R50, R57, R66) -/

/-- R48 to R50: slots that have not left Emit are abandoned, their law state as the last completed section left it, with the last cycle
as the measured one; a frame of which none left deviates as well. A tick whose last frame never leaves has no measured margin: it
raises no 0x0404 and leaves that warning's arm as it was (log entry 18). -/
def Mach.abandon (m : Mach) (l : Lane) : Mach :=
  let ks := m.unsent l
  if !m.pipeRuns l || ks.isEmpty then m
  else
    let m := (m.noteOverrun l ks)
    let m := forL ks (fun k m => (m.overrunEvent l k 0xFFFF).lawAbandon l k) m
    m.checkPredict l 0xFFFF

/-- R66: TICK_LAST of the tick that ends, and a tick part for the next one. -/
def Mach.closeTick (m : Mach) (l : Lane) : Mach :=
  let t := m.tl l
  let m := if m.pipeRuns l then m.wrN (Reg.TICK_LAST l.ix) (t.doneAt.getD 0xFFFF * 2 ^ 16 + min t.lastEmit 0xFFFF) else m
  let m := m.onTick l fun t => { t with doneAt := none, taskOverrun := false, lastEmit := 0, emitted := [], overran := [] }
  forN 16 (fun k m => m.onMod l k fun s => { s with frame := none }) m

/-! ### Bedrock's watch on the tick (R41) -/

/-- R41: a boundary outside its window, or missing. -/
def Mach.boundaryFault (m : Mach) : Mach := m.raiseF4 0x0406

/-- R41: no boundary within 1.5 × P of the last one. -/
def Mach.boundaryMissing (m : Mach) : Mach :=
  if m.tick.running && decide (3 * m.period ≤ 2 * m.time.cyc) then m.boundaryFault else m

/-- R41: the interval since the last boundary lies within P × 2.5 ns ± 5 %, in nanoseconds by Bedrock's oscillator. -/
def Mach.boundaryInWindow (m : Mach) (ns : Nat) : Bool :=
  let p := m.period
  decide (950 * 25 * p ≤ 10000 * ns) && decide (10000 * ns ≤ 1050 * 25 * p)

/-! ### Accesses that fault (R8, R9, R58) -/

/-- An access fault goes to the requester. -/
def Mach.faults (m : Mach) : Mach := m.say .accessFault

/-- R8, R515: an access outside every region. -/
def Mach.outOfRegion (m : Mach) (req : Requester) (a : Nat) (w : Width) (write : Bool) : Mach :=
  if regionOf a = .none then (m.accessEvent a req write w (a % widthBytes w != 0) 1).faults else m

/-- R9, R515: an access to peripheral space that is no whole aligned word. -/
def Mach.narrowAccess (m : Mach) (req : Requester) (a : Nat) (w : Width) (write : Bool) : Mach :=
  if regionOf a = .peripheral ∧ (w ≠ .word ∨ a % 4 ≠ 0) then (m.accessEvent a req write w (a % widthBytes w != 0) 2).faults else m

/-- R58: a tick-context access outside the lane's own SRAM and peripheral space; one outside every region is recorded under R8 as
well. -/
def Mach.tickAccess (m : Mach) (l : Lane) (a : Nat) (w : Width) (write : Bool) : Mach :=
  if !m.inTick l || regionOf a == .sram l || regionOf a == .peripheral then m
  else
    let m := m.outOfRegion (.lane l) a w write
    ((m.health l 3).raiseF2 l 0x0408).faults

/-! ### The rows -/

/-- BOUNDARY_MISSING (R41). -/
def execBoundaryMissing (cyc : Nat) (s : State) : Host.Outcome State Fault Refusal := run s cyc fun m => m.boundaryMissing

/-- FRAME_EMIT (R49, R172). -/
def execFrameEmit (cyc : Nat) (lane : Lane) (k : Fin 16) (s : State) : Host.Outcome State Fault Refusal :=
  run s cyc fun m => m.emitFrame lane k

/-- EMIT_DEADLINE (R49). -/
def execEmitDeadline (cyc : Nat) (s : State) : Host.Outcome State Fault Refusal := run s cyc fun m => m.emitDeadline

/-- TICK_TASK_DEADLINE (R56). -/
def execTickTaskDeadline (cyc : Nat) (lane : Lane) (s : State) : Host.Outcome State Fault Refusal :=
  run s cyc fun m => m.taskDeadline lane

/-- TICK_CMD_DONE (R53): a write of TICK_CMD with DONE alone. -/
def execTickCmdDone (cyc : Nat) (who : Writer) (lane : Lane) (s : State) : Host.Outcome State Fault Refusal :=
  run s cyc fun m => m.tickCmdWrite who lane 1#32

/-- TICK_CMD_ARM (R54): a write of TICK_CMD with ARM alone. -/
def execTickCmdArm (cyc : Nat) (who : Writer) (lane : Lane) (s : State) : Host.Outcome State Fault Refusal :=
  run s cyc fun m => m.tickCmdWrite who lane 2#32

/-- TICK_CMD_CLROVR (R67): a write of TICK_CMD with CLROVR alone. -/
def execTickCmdClrovr (cyc : Nat) (who : Writer) (lane : Lane) (s : State) : Host.Outcome State Fault Refusal :=
  run s cyc fun m => m.tickCmdWrite who lane 8#32

/-- TICK_CMD_CLRMARG (R67): a write of TICK_CMD with CLRMARG alone. -/
def execTickCmdClrmarg (cyc : Nat) (who : Writer) (lane : Lane) (s : State) : Host.Outcome State Fault Refusal :=
  run s cyc fun m => m.tickCmdWrite who lane 4#32

/-- TICK_CONTEXT_ACCESS (R58). -/
def execTickContextAccess (cyc : Nat) (lane : Lane) (addr : BitVec 40) (width : Width) (write : Bool) (s : State) :
    Host.Outcome State Fault Refusal :=
  run s cyc fun m => m.tickAccess lane addr.toNat width write

/-- NARROW_ACCESS (R9). -/
def execNarrowAccess (cyc : Nat) (req : Requester) (addr : BitVec 40) (width : Width) (write : Bool) (s : State) :
    Host.Outcome State Fault Refusal :=
  run s cyc fun m => m.narrowAccess req addr.toNat width write

/-- OUT_OF_REGION_ACCESS (R8). -/
def execOutOfRegionAccess (cyc : Nat) (req : Requester) (addr : BitVec 40) (width : Width) (write : Bool) (s : State) :
    Host.Outcome State Fault Refusal :=
  run s cyc fun m => m.outOfRegion req addr.toNat width write

end Sys2Proof.Machine
end

