-- ==== Sys2Proof/Machine/Access.lean ====
section
/-! DEFINITION. What a register write does, by register and by writer (R10 to R14, R55, R60, R300, R302, R303), and what a register
read returns (R11, R13, R58). -/

namespace Sys2Proof.Machine

/-! ### Registers by address -/

/-- The place of `a` in a run of `count` registers `stride` apart. -/
def indexIn (a base stride count : Nat) : Option Nat :=
  if base ≤ a ∧ (a - base) % stride = 0 ∧ (a - base) / stride < count then some ((a - base) / stride) else none

/-- The lane whose copy a register is; none for a device-wide register (R302). -/
def regLane (r : RegRow) (ix : List Nat) : Option Lane :=
  if [0x01, 0x04, 0x05, 0x06, 0x0C, 0x0D, 0x0E, 0x13].contains (r.base / 2 ^ 16) && (r.dims.head?.map (·.1)) == some 2 then
    some (Lane.ofIx (ix.headD 0))
  else none

/-- R300: registers of the service lane's duties. -/
def serviceReg (a : Nat) : Bool :=
  a == Reg.SAFE_SESS_CMD || a == Reg.IMG_CMD || a == Reg.IMG_KEYCMD || a == Reg.IMG_LEN || a == Reg.TIME_CATCFG ||
    (indexIn a (Reg.SAFE_PW_BUF 0) 4 8).isSome || (indexIn a (Reg.SAFE_WHO 0) 4 4).isSome ||
    (indexIn a (Reg.IMG_KEYBUF 0) 4 8).isSome

/-- Registers whose write is an asynchronous input (R302). -/
def asyncReg (a : Nat) : Bool :=
  [Reg.SYS_MODE_REQ, Reg.ACQ_CAL_REQ, Reg.ACQ_URG_REQ, Reg.GDI_DIAG_REQ, Reg.GDL_DIAG_REQ, Reg.LVC_CTRL, Reg.LVC_DIAG_REQ,
    Reg.CHG_CTRL, Reg.CHG_PULSE, Reg.CHG_TIMER, Reg.CHG_TGT, Reg.CHG_ACLIM, Reg.LANE_ARR].contains a ||
    (indexIn a (Reg.ACT_DRV_REQ 0) 0x40 6).isSome || (indexIn a (Reg.ACT_PMP_SPD 0) 0x40 6).isSome ||
    (indexIn a (Reg.IMG_SM_REQ 0) 8 16).isSome

/-! ### Effects -/

/-- R14: a write to a locked register, which the device records. -/
def Mach.lockedWrite (m : Mach) (a : Nat) : Mach := m.raise 0x0006 0 0xFF (leBytes 5 (physical a))

/-- R14: after the lock, a write that would change an rwl field of a register whose other fields firmware may write. -/
def Mach.lockedField (m : Mach) (r : RegRow) (a : Nat) (v : Word) : Bool :=
  m.locked && (v ^^^ m.rd a) &&& BitVec.ofNat 32 r.rwl != 0#32

/-- R10, R11, R12, R14: a register takes a write: rw bits are replaced, rwl bits too until the lock, and w1c bits cleared, but for
those that hardware sets in the same cycle. A write that may lower an interrupt line leaves the request it has made with the
interrupt controllers. -/
def Mach.plainWrite (m : Mach) (r : RegRow) (a : Nat) (v : Word) : Mach :=
  let m := if m.lockedField r a v then m.lockedWrite a else m
  let m := if r.w1c != 0 || irqEnable a then (m.plicLatch .a).plicLatch .b else m
  let mask := BitVec.ofNat 32 (if m.locked then r.rw else r.rw ||| r.rwl)
  let clear := v &&& BitVec.ofNat 32 r.w1c &&& ~~~BitVec.ofNat 32 (m.setBits a)
  m.wr a (((m.rd a &&& ~~~mask) ||| (v &&& mask)) &&& ~~~clear)

/-- R61, R62: a tick period, with the deadline and the law ceiling that follow from it. -/
def Mach.setPeriod (m : Mach) (origin : Nat) (v : Word) : Mach :=
  let p := v.bits 15 0
  if p < 4000 ∨ 40000 < p then m.badValue (.lane (Lane.ofIx (origin - 1))) Reg.TICK_PERIOD
  else ((m.wrN Reg.TICK_PERIOD p).wrN Reg.TICK_DEADLINE (85 * p / 100)).wrN Reg.TICK_LAWCAP (85 * p / 100 - 656)

/-- R302, R303: what an accessioned write does at its accession tick. -/
def Mach.asyncEffect (m : Mach) (a : Nat) (v : Word) : Mach :=
  if a = Reg.SYS_MODE_REQ then m.modeRequest v
  else if a = Reg.ACQ_CAL_REQ then m.calRequest (v.bits 15 0)
  else if a = Reg.ACQ_URG_REQ then m.firmwareUrgent v
  else if a = Reg.GDI_DIAG_REQ then m.diagRequest false (v.bits 15 0)
  else if a = Reg.GDL_DIAG_REQ then m.diagRequest true (v.bits 23 0)
  else if a = Reg.LVC_CTRL then m.lvcControl v
  else if a = Reg.LVC_DIAG_REQ then m.lvcDiagTake (v.bits 5 0)
  else if a = Reg.CHG_CTRL then m.chgControl v
  else if a = Reg.CHG_PULSE then m.chgPulse v
  else if a = Reg.CHG_TIMER then m.chgTimer v
  else if a = Reg.CHG_TGT then m.wr a v
  else if a = Reg.CHG_ACLIM then m.wr a (v &&& 0xFFFF#32)
  else if a = Reg.LANE_ARR then m.arrangementRequest v
  else match indexIn a (Reg.ACT_DRV_REQ 0) 0x40 6, indexIn a (Reg.IMG_SM_REQ 0) 8 16 with
    | some d, _ => m.drvRequest d v
    | none, some _ => m.wr a (v &&& 0x3F#32)
    | none, none => m.wr a v

/-- The effect of a write to a device-wide register that is neither a duty of the service lane nor an asynchronous input. -/
def Mach.deviceEffect (m : Mach) (r : RegRow) (a origin : Nat) (v : Word) : Mach :=
  if r.kind = .locked ∧ m.locked then m.lockedWrite a
  else if a = Reg.TICK_PERIOD then m.setPeriod origin v
  else if a = Reg.GDI_CLR then m.gdiClear (v.bits 15 0)
  else if a = Reg.GDL_CLR then m.gdlClear (v.bits 23 0)
  else if a = Reg.SAFE_CMD then m.safeCommand v
  else if a = Reg.TIME_RATE then m.rateWrite v
  else if a = Reg.TIME_SLEW then m.slewWrite v
  else if a = Reg.TIME_CAPCFG then m.capConfig v
  else if (indexIn a (Reg.TIME_CAPSRC 0) 4 12).isSome ∧ m.capState ∈ [1, 2] then m
  else m.plainWrite r a v

/-- The effect of a write to a register of a duty of the service lane. -/
def Mach.serviceEffect (m : Mach) (mem : List Host.Cell) (r : RegRow) (a : Nat) (v : Word) : Mach × List Host.Cell :=
  if a = Reg.SAFE_SESS_CMD then m.sessCommand mem v true
  else if a = Reg.IMG_CMD then m.imgCommand mem v true true
  else if a = Reg.IMG_KEYCMD then (m.keyCommand v, mem)
  else if a = Reg.IMG_LEN then (m.imgLenWrite v, mem)
  else (m.plainWrite r a v, mem)

/-- R303: a write of a merged list takes effect at its accession tick, whatever its register. -/
def Mach.devEffect (m : Mach) (mem : List Host.Cell) (a origin : Nat) (v : Word) : Mach × List Host.Cell :=
  match regAt a with
  | none => (m, mem)
  | some (r, ix) =>
    if absentReg m.variant r ix then (m, mem)
    else if asyncReg a then (m.asyncEffect a v, mem)
    else if serviceReg a then m.serviceEffect mem r a v
    else (m.deviceEffect r a origin v, mem)

/-! ### A lane's own copies -/

/-- R366: the commands of DMA_R_CTRL. -/
def Mach.ringCommand (m : Mach) (mem : List Host.Cell) (l : Lane) (r : Nat) (v : Word) : Mach × List Host.Cell :=
  let m := if v.bit 1 then m.ringAbort l r else m
  let x := if v.bit 0 then m.ringResume mem l r else (m, mem)
  if v.bit 2 then (x.1.ringGo x.2 l r, x.2) else x

/-- R368, R369, R375: the commands of CRC_U_CTRL; any write clears the unit's interrupt. -/
def Mach.crcCommand (m : Mach) (l : Lane) (u : Nat) (v : Word) : Mach :=
  let m := m.onUnit l u fun x => { x with quiet := true }
  if v.bit 2 then m.crcStop l u
  else if v.bit 0 then m.crcStart l u true
  else if v.bit 1 then m.crcStart l u false
  else m

/-- R55: the command registers of a lane. -/
def Mach.commandWrite (m : Mach) (l : Lane) (r : RegRow) (ix : List Nat) (a : Nat) (v : Word) : Mach :=
  let v := v &&& BitVec.ofNat 32 r.rw
  if r.base = Reg.FOC_M_CTRL 0 0 then m.focCtrlWrite l (ix.getD 1 0) v else m.shadowWrite l a v

/-- The effect of a lane's write to a register of its own copy. -/
def Mach.laneEffect (m : Mach) (mem : List Host.Cell) (l : Lane) (r : RegRow) (ix : List Nat) (a : Nat) (v : Word) :
    Mach × List Host.Cell :=
  let i := ix.getD 1 0
  if r.kind = .locked ∧ m.locked then (m.lockedWrite a, mem)
  else if r.kind = .command then (m.commandWrite l r ix a v, mem)
  else if a = Reg.TICK_CMD l.ix then (m.tickCommand l v, mem)
  else if a = Reg.LAW_SWAP l.ix then (m.shadowWrite l a (v &&& 0xFFFF#32) fun m => m.requestSwap l (v.bits 15 0), mem)
  else if a = Reg.LAW_PRE_IDX l.ix then (m.shadowWrite l a (v &&& 0x80001FFF#32), mem)
  else if a = Reg.LAW_CW_DATA l.ix then (m.portWrite l v, mem)
  else if a = Reg.LANE_L_CMD l.ix then
    let m := if v.bit 1 then m.kick l else m
    (if v.bit 0 then m.laneFault l 10 else m, mem)
  else if a = Reg.NET_L_TXCMD l.ix then (m.txCommand l v, mem)
  else if a = Reg.DMA_L_INVAL l.ix then (m.invalidate l v, mem)
  else if r.base = Reg.DMA_L_CTX_HI 0 0 ∧ v.bits 31 28 ∉ [0, 8] then (m, mem)
  else if r.base = Reg.DMA_R_CFG 0 0 then (m.ringConfig mem l i v, mem)
  else if r.base = Reg.DMA_R_TAIL 0 0 then (m.ringPost mem l i v, mem)
  else if r.base = Reg.DMA_R_CTRL 0 0 then m.ringCommand mem l i v
  else if Reg.DMA_R_BASE_LO 0 0 ≤ r.base ∧ r.base ≤ Reg.DMA_R_CQ_HI 0 0 ∧ m.bit (Reg.DMA_R_CFG l.ix i) 0 then (m, mem)
  else if r.base = Reg.CRC_U_CTRL 0 0 then (m.crcCommand l i v, mem)
  else if Reg.CRC_U_CFG 0 0 ≤ r.base ∧ r.base ≤ Reg.CRC_U_POS 0 0 then (m.crcWrite l i (r.base - Reg.CRC_U_CFG 0 0) a v, mem)
  else (m.plainWrite r a v, mem)

/-! ### Writes -/

/-- R3, R8, R13, R60, R300, R302: a whole aligned word written by `who` to the offset `a` of peripheral space. -/
def Mach.regWrite (m : Mach) (mem : List Host.Cell) (who : Writer) (a : Nat) (v : Word) : Mach × List Host.Cell :=
  match regAt a with
  | none => (m, mem)
  | some (r, ix) =>
    if absentReg m.variant r ix then (m, mem)
    else if a = Reg.SYS_MODE_REQ then (m.modeWrite who v, mem)
    else match who with
      | .safety =>
        (if a = Reg.CHG_CTRL ∧ v.bit 2 then m.accede ⟨1, 0, 3, physical a % 2 ^ 32, 4, []⟩ else m, mem)
      | .lane l =>
        match regLane r ix with
        | some o => if o = l then m.laneEffect mem l r ix a v else (m.foreignCopy who a, mem)
        | none =>
          if r.kind = .result then (m, mem)
          else if asyncReg a then (m.asyncWrite l a v, mem)
          else if serviceReg a then m.serviceMem mem who a v fun m => m.serviceEffect mem r a v
          else (m.devWrite l a v fun m => m.deviceEffect r a l.origin v, mem)

/-! ### Reads (R11, R13, R58) -/

/-- Write-only registers read zero (R11). -/
def writeOnly (r : RegRow) (a : Nat) : Bool :=
  (r.kind == .ownRow && r.rw == 0 && a != Reg.TIME_SLEW) || (indexIn a (Reg.SAFE_PW_BUF 0) 4 8).isSome ||
    (indexIn a (Reg.SAFE_WHO 0) 4 4).isSome || (indexIn a (Reg.IMG_KEYBUF 0) 4 8).isSome

/-- The ACQ results of the newest set, by address (R90). -/
def Mach.acqView (m : Mach) (a : Nat) : Option Word :=
  let s := m.acqHead
  let acc (n : Nat) : AccResult := s.acc.getD n default
  let trk (t : Nat) : TrkWindow := s.trk.getD t default
  match indexIn a (Reg.ACQ_RES_VALUE 0) 8 256, indexIn a (Reg.ACQ_RES_INFO 0) 8 256, indexIn a (Reg.ACQ_TRK_MIN 0) 4 256 with
  | some n, _, _ => some (wordOf (acc n).value)
  | _, some n, _ => some (BitVec.ofNat 32 (accInfo (acc n)))
  | _, _, some j =>
    let t := trk (j / 4)
    if s.trk.isEmpty then some 0#32
    else some (match j % 4 with
      | 0 => wordOf t.min
      | 1 => wordOf t.max
      | 2 => BitVec.ofNat 32 (t.maxcyc % 2 ^ 16 * 2 ^ 16 + t.mincyc % 2 ^ 16)
      | _ => BitVec.ofNat 32 (trkFlags t))
  | _, _, _ => none

/-- LAW_SIG by address (R113). -/
def Mach.sigView (m : Mach) (a : Nat) : Option Word :=
  let view (l : Lane) : Option Word :=
    (indexIn a (Reg.LAW_SIG l.ix 0 0) 4 1024).map fun j => wordOf (m.sig l (j / 64) (j % 64))
  match view .a with
  | some w => some w
  | none => view .b

/-- R110: POS_CH_FMT has the fields of its channel's type; its other bits are reserved. -/
def Mach.fmtView (m : Mach) (x : Nat) : Word :=
  m.rd (Reg.POS_CH_FMT x) &&& (match m.fld (Reg.POS_CH_CFG x) 31 29 with
    | 2 => 0xFF7FFF#32
    | 3 | 4 => 0xFFFFF#32
    | _ => 0#32)

/-- What a register shows now. TICK_CYCLE counts on where no tick runs, for which the spec gives no value (log entry 18). -/
def Mach.liveValue (m : Mach) (a : Nat) : Word :=
  if a = Reg.TIME_NOW_LO then BitVec.ofNat 32 m.now
  else if a = Reg.TIME_NOW_HI then BitVec.ofNat 32 (m.now / 2 ^ 32)
  else if a = Reg.TIME_SLEW then m.slewRead
  else if a = Reg.TICK_CYCLE then BitVec.ofNat 32 (m.time.cyc % 2 ^ 16)
  else if a = healthReg .a then (m.rd a).withBits 23 16 (m.faultCount .a)
  else if a = healthReg .b then (m.rd a).withBits 23 16 (m.faultCount .b)
  else if a = Reg.LANE_JRN_DATA then BitVec.ofNat 32 m.journalWord
  else if a = Reg.TIME_CAP_DATA then m.capWord
  else if a / 2 ^ 16 = 0x02 then (m.acqView a).getD (m.rd a)
  else if a = Reg.POS_CH_FMT 0 then m.fmtView 0
  else if a = Reg.POS_CH_FMT 1 then m.fmtView 1
  else if a / 2 ^ 16 = 0x04 then (m.sigView a).getD (m.rd a)
  else m.rd a

/-- The run flags of the tick that has ended, kept until `takeMarks` (LAW_SLOT_STAT.RUN). -/
def Mach.keepRuns (m : Mach) : Mach :=
  { m with marks := [Lane.a, .b].flatMap fun l => m.mapped.map fun k => (Reg.LAW_SLOT_STAT l.ix k, m.rd (Reg.LAW_SLOT_STAT l.ix k)) }

/-- R58: what the tick task keeps of the boundary: the register file, with the run flags of the last tick, and the signals of both
lanes. -/
def Mach.takeMarks (m : Mach) : Mach :=
  let stat (l : Lane) : List (Nat × Word) := m.mapped.map fun k =>
    let a := Reg.LAW_SLOT_STAT l.ix k
    (a, (m.rd a).withBit 31 (((Cells.get m.marks a).getD 0#32).getLsbD 31))
  let sigs (l : Lane) : List (Nat × Word) := m.mapped.flatMap fun k =>
    ((List.range 64).map fun j => (Reg.LAW_SIG l.ix k j, wordOf (m.sig l k j))).filter fun x => x.2 != 0#32
  { m with marks := (Reg.TIME_SLEW, m.slewRead) :: (stat .a ++ stat .b ++ sigs .a ++ sigs .b ++ settleRegs m.variant m.regs) }

/-- R58: a value that hardware changes, as at the current boundary. -/
def Mach.markedValue (m : Mach) (a : Nat) : Word :=
  if a = Reg.TIME_NOW_LO then BitVec.ofNat 32 m.t0
  else if a = Reg.TIME_NOW_HI then BitVec.ofNat 32 (m.t0 / 2 ^ 32)
  else if a = Reg.TICK_CYCLE then 0#32
  else if a / 2 ^ 16 = 0x02 then (m.acqView a).getD ((Cells.get m.marks a).getD (regReset m.variant a))
  else (Cells.get m.marks a).getD (regReset m.variant a)

/-- The reader is in tick context. -/
def Mach.readerInTick (m : Mach) : Writer → Bool
  | .lane l => m.inTick l
  | .safety => false

/-- R3, R8, R11, R58: what a read of a register returns, snapshots apart. -/
def Mach.readValue (m : Mach) (who : Writer) (a : Nat) : Word :=
  match regAt a with
  | none => 0#32
  | some (r, ix) =>
    if absentReg m.variant r ix || writeOnly r a then 0#32
    else match regLane r ix with
      | some l =>
        if r.kind == .command || a == Reg.LAW_PRE_IDX l.ix then m.lastWritten l a
        else if m.readerInTick who && (r.kind == .result || r.w1c != 0) then m.markedValue a
        else m.liveValue a
      | none =>
        let hw := r.kind == .result || r.w1c != 0 || a == Reg.TIME_SLEW
        if m.readerInTick who && hw && a != Reg.TIME_CAP_DATA && a != Reg.LANE_JRN_DATA then m.markedValue a
        else m.liveValue a

/-- Offsets of the copies of a register from the first one. -/
def copyOffsets : List (Nat × Nat) → List Nat
  | [] => [0]
  | (count, stride) :: rest => (List.range count).flatMap fun i => (copyOffsets rest).map (· + i * stride)

/-- R13: the registers of a group that stand beside the copy `ix` of its lead `r`. -/
def groupRegs (r : RegRow) (ix : List Nat) : List Nat :=
  (blockRows (r.base / 2 ^ 16)).flatMap fun g =>
    if g.group != r.group then []
    else match g.dims, ix with
      | (_, s) :: rest, i :: _ => (copyOffsets rest).map (g.base + i * s + ·)
      | ds, _ => (copyOffsets ds).map (g.base + ·)

/-- R13: the lead of the group that a register belongs to, with the same copy. -/
def leadOf (r : RegRow) (ix : List Nat) : Option Nat :=
  if r.group.isEmpty then none
  else match (blockRows (r.base / 2 ^ 16)).find? fun g => g.group == r.group && g.lead with
    | some g => match g.dims, ix with
      | (_, s) :: _, i :: _ => some (g.base + i * s)
      | _, _ => some g.base
    | none => none

/-- R13: a read of a group's lead copies the whole group into the reader's snapshot. -/
def Mach.latchGroup (m : Mach) (who : Writer) (r : RegRow) (ix : List Nat) (a : Nat) : Mach :=
  m.latch who.ix a ((groupRegs r ix).map fun x => (x, m.readValue who x))

/-- R11, R13, R58, R122, R306, R343, R394: a whole aligned word read by `who` at the offset `a`; the reply goes to the reader. -/
def Mach.regRead (m : Mach) (who : Writer) (a : Nat) : Mach :=
  let say (m : Mach) (w : Word) : Mach := m.say (.data w)
  match regAt a with
  | none => say m 0#32
  | some (r, ix) =>
    if absentReg m.variant r ix then say m 0#32
    else match indexIn a (Reg.NET_P_TXTS_INFO 0) 0x40 7, regLane r ix with
      | some p, _ => m.stampRead who.ix p
      | none, some l =>
        if a = Reg.LAW_CW_DATA l.ix then (say m (m.portWord l)).portAdvance l
        else if a = Reg.LANE_L_IN_DATA l.ix then
          if who = .lane l then m.inboxRead l else say m (BitVec.ofNat 32 ((m.lanes.get l).inbox.headD 0))
        else if r.lead then say (m.latchGroup who r ix a) (m.readValue who a)
        else match leadOf r ix with
          | some x => say m (m.latched who.ix x a)
          | none => say m (m.readValue who a)
      | none, none =>
        if a = Reg.LANE_JRN_DATA then (say m (m.readValue who a)).incMod Reg.LANE_JRN_ADDR 13 0
        else if r.lead then say (m.latchGroup who r ix a) (m.readValue who a)
        else match leadOf r ix with
          | some x => say m (m.latched who.ix x a)
          | none => say m (m.readValue who a)

/-! ### The rows -/

/-- The offset in peripheral space of a physical address, when it lies there (R6, R7). -/
def peripheralOffset (a : Nat) : Option Nat :=
  if regionOf a = .peripheral then some (a - physical 0) else none

/-- REGISTER_WRITE (R302): a write of a whole aligned word to peripheral space; another address is none of this row's. -/
def execRegisterWrite (cyc : Nat) (who : Writer) (addr : BitVec 40) (value : Word) (s : State) :
    Host.Outcome State Fault Refusal :=
  runMem s cyc fun m mem =>
    match peripheralOffset addr.toNat with
    | some a => if a % 4 = 0 then m.regWrite mem who a value else (m.narrowAccess who.requester addr.toNat .word true, mem)
    | none => (m, mem)

/-- RSN_LEAD_READ (R13): a read of a whole aligned word of peripheral space; a group's lead latches its group. -/
def execRsnLeadRead (cyc : Nat) (who : Writer) (addr : BitVec 40) (s : State) : Host.Outcome State Fault Refusal :=
  run s cyc fun m =>
    match peripheralOffset addr.toNat with
    | some a => if a % 4 = 0 then m.regRead who a else m.narrowAccess who.requester addr.toNat .word false
    | none => m

end Sys2Proof.Machine
end

