-- ==== Sys2Proof/Machine/Accession.lean ====
section
/-! DEFINITION. What accessioned inputs do at their accession tick (R305, R309), and the entries that a lane takes again in replay
and resync (R330, R331). -/

namespace Sys2Proof.Machine

/-- The F3 codes of FOC after which FOC itself holds the slot safe and may start it again (R154, R155, R157): at their accession
tick they stop nothing more. -/
def focOwnCause (code : Nat) : Bool := [0x1405, 0x1406, 0x1408, 0x140D].contains code

/-- R216, R242: the result of a diagnostic item: pairs from 0, legs from 0x20, phases of LVC from 0x40. -/
def Mach.diagResult (m : Mach) (item v : Nat) : Mach :=
  if item < 0x20 then m.diagPairResult item v
  else if item < 0x40 then m.diagLegResult (item - 0x20) v
  else m.lvcDiagResult (item - 0x40) v

/-- R184, R309: an F3 or F4 event for a slot reaches the device-wide machines. -/
def Mach.deviceCause (m : Mach) (k : Nat) : Mach := ((m.lvcCause k).chgSlotCause k).driveCause k

/-- R305, R309: what an entry does in the blocks that both lanes share. Pin edges, safety inputs, frames, DMA completions and
arrangement changes are for tick tasks only (R306). -/
def Mach.deviceEntry (m : Mach) (mem : List Host.Cell) (e : JEntry) : Mach × List Host.Cell :=
  match e.kind with
  | 1 => m.devEffect mem e.addr e.origin (BitVec.ofNat 32 e.value)
  | 3 => (m.probeAccessed e.src e.payload, mem)
  | 7 => (m.thermalTakes e.src e.value, mem)
  | 8 => (m.diagResult e.src e.value, mem)
  | 9 => (m.slowAccessed e.src e.value, mem)
  | 10 => (m.deviceCause e.src, mem)
  | 11 => (m.onTicks fun t => { t with begun := true }, mem)
  | _ => (m, mem)

/-- R142, R166, R184, R309: what an entry does in a lane's pipeline. -/
def Mach.laneEntry (m : Mach) (l : Lane) (e : JEntry) : Mach :=
  match e.kind with
  | 7 => m.onMod l e.src fun s => { s with band := e.value % 8, throttle := e.value / 2 ^ 16 }
  | 10 =>
    if focOwnCause e.value || !m.runsSlot l e.src then m
    else (m.lossEnd l e.src).causeStop l e.src
  | _ => m

/-- A lane executes live ticks: it is LIVE or in SHADOW (R301). -/
def Mach.runsLive (m : Mach) (l : Lane) : Bool := m.laneCode l == 1 || m.laneCode l == 5

/-- The entries of a list in a lane that executes the tick. -/
def Mach.laneEntries (m : Mach) (l : Lane) (es : List JEntry) : Mach :=
  if m.runsLive l then forL es (fun e m => m.laneEntry l e) m else m

/-- The entries of a list in the shared blocks. -/
def Mach.deviceEntries (m : Mach) (mem : List Host.Cell) (es : List JEntry) : Mach × List Host.Cell :=
  es.foldl (fun x e => x.1.deviceEntry x.2 e) (m, mem)

/-- Entries taken from those that wait for tick `n` or an earlier one, in order (R305). -/
def Mach.dueEntries (m : Mach) (n : Nat) : List JEntry := m.lane.waiting.filter fun e => decide (e.accTick ≤ n)

/-- The others wait on. -/
def Mach.dropDue (m : Mach) (n : Nat) : Mach :=
  m.onLb fun b => { b with waiting := b.waiting.filter fun e => !decide (e.accTick ≤ n) }

/-- R42 step 2, R305 to R308: the entries of tick `n` go behind its marker into the journals and take effect in order. -/
def Mach.accession (m : Mach) (mem : List Host.Cell) (n : Nat) : Mach × List Host.Cell :=
  let es := m.dueEntries n
  let m := (m.dropDue n).journalTick n es
  let m := if m.runsLive .a then m.openInbox .a n else m
  let m := if m.runsLive .b then m.openInbox .b n else m
  let x := m.deviceEntries mem es
  ((x.1.laneEntries .a es).laneEntries .b es, x.2)

/-- ACCESSION_TAKES_EFFECT: entries due in the tick under way that still wait; the boundary's own are taken by TICK_BOUNDARY. -/
def Mach.accessionLate (m : Mach) (mem : List Host.Cell) : Mach × List Host.Cell :=
  if !m.tick.running then (m, mem)
  else
    let es := m.dueEntries m.seq
    let x := (m.dropDue m.seq).deviceEntries mem es
    ((x.1.laneEntries .a es).laneEntries .b es, x.2)

/-- ACCESSION_TAKES_EFFECT (R305). -/
def execAccessionTakesEffect (cyc : Nat) (s : State) : Host.Outcome State Fault Refusal :=
  runMem s cyc fun m mem => m.accessionLate mem

end Sys2Proof.Machine
end

