-- ==== Sys2Proof/Machine/Pipeline.lean ====
section
/-! DEFINITION. A lane's pipeline at one tick, live or replayed: the shadow transfer, the start states and run flags, the injector,
the bank swaps, and the pass of the slots through the stages (R42 steps 3 and 4, R45, R50, R55, R119, R126, R177). -/

namespace Sys2Proof.Machine

/-! ### The shadow (R55, R56) -/

/-- R56, R124: the shadow of a tick whose task overran does not transfer. -/
def Mach.discardShadow (m : Mach) (l : Lane) : Mach :=
  if (m.tl l).taskOverrun then (m.swapsWaiting l 0).onTick l fun t => { t with shadow := [] } else m

/-- R55: the shadow transfers into the pipeline. LAW_SWAP's request has acted already (R124). -/
def Mach.shadowTransfer (m : Mach) (l : Lane) : Mach :=
  let sh := (m.tl l).shadow.filter fun x => x.1 != Reg.LAW_SWAP l.ix
  let m := forL sh (fun x m => m.wr x.1 x.2) m
  m.onTick l fun t => { t with shadow := [] }

/-- R113: S16 to S23 of a slot from LAW_SETP. -/
def Mach.setpoints (m : Mach) (l : Lane) (k : Nat) : Mach :=
  forN 8 (fun j m => m.setSig l k (16 + j) (m.rdS (Reg.LAW_SETP l.ix k j))) m

/-! ### Machines and run flags (R119, R227, R250, R281) -/

/-- Whether the machine that drives a slot of its own type is in a running state after steps 1 to 3 of the boundary of tick `n`,
live or replayed: its state in the set frozen at the boundary before (R228, R252, R282). A TRACTION or CHOPPER slot has no such
machine. -/
def Mach.machineRuns (m : Mach) (k n : Nat) : Option Bool :=
  let lvc := (m.lvcSet (n - 1)).state
  let chg := (m.chgSet (n - 1)).state
  let s6 := nth (m.chgSet (n - 1)).dab 6
  let drive (d : Nat) : Bool := (nth (m.actSet (n - 1)).drives d).switching
  match m.slotType k with
  | some .buckn => some ([2, 3, 4, 5].contains lvc)
  | some .dcx => some ([1, 2, 3, 4, 6].contains lvc)
  | some .pfc3 => some (pfcSwitches chg)
  | some .dab => some (dabSwitches chg s6)
  | some .bldc => some ((m.driveOfSlot k).any drive)
  | some .pump => some ((m.driveOfSlot k).any drive)
  | _ => none

/-- R119, R177: the run flag of a slot in tick `n`: permission, its machine, and a start state that runs. -/
def Mach.runNow (m : Mach) (l : Lane) (k n : Nat) : Bool :=
  let machine := match m.machineRuns k n with
    | some b => b
    | none => m.smSwitches k n
  m.permitted k && machine && !([0, 1, 6].contains (m.modState l k))

/-- R119, R126: the run flag evaluated; its fall ends an injection on the slot. -/
def Mach.setRunFlag (m : Mach) (l : Lane) (k n : Nat) : Mach :=
  let before := m.runFlag l k
  let b := m.runNow l k n
  let m := m.setBit (Reg.LAW_SLOT_STAT l.ix k) 31 b
  if before && !b && m.injState l != 0 && m.injSlot l == k then m.injEnd l 5 else m

/-! ### The injector at a boundary (R125, R126, R269) -/

/-- R125, R126: the injector moves on, and its run may end. -/
def Mach.injBoundary (m : Mach) (l : Lane) : Mach := ((m.injAdvance l).injDurationEnd l).injRampEnd l

/-- R126: START and STOP of LAW_INJ_CTRL act once; `busy` while an impedance point of CHG runs on this injector. -/
def Mach.injCommands (m : Mach) (l : Lane) (busy : Bool) : Mach :=
  let a := Reg.LAW_INJ_CTRL l.ix
  let c := m.rd a
  let m := m.wr a ((c.withBit 31 false).withBit 30 false)
  let m := if c.bit 31 then m.injStart l busy else m
  if c.bit 30 && m.injState l == 1 then (m.injRampOut l 3).injRampEnd l else m

/-- R269: an impedance point of CHG runs on the lane's injector at boundary `n`, by the set before. -/
def Mach.zBusy (m : Mach) (l : Lane) (n : Nat) : Bool := (m.chgSet (n - 1)).zRun.isSome && m.runsSlot l m.dabSlot

/-! ### Steps 3 and 4 (R42) -/

/-- The slots that a lane runs, in schedule order (R45). -/
def Mach.laneSchedule (m : Mach) (l : Lane) : List Nat := m.schedule.filter fun k => m.runsSlot l k

/-- R42 step 3: the shadow transfers, presets and start states act, and the run flags follow; then the injector's commands, and
CHG's command of the set before. -/
def Mach.transferStep (m : Mach) (l : Lane) (n : Nat) : Mach :=
  let m := (m.shadowTransfer l).takePreset l
  let m := (m.focPrelude l).modPrelude l n
  let ks := m.laneSchedule l
  let m := forL ks (fun k m => (m.setpoints l k).startStep l k n (m.machineRuns k n)) m
  let m := forL ks (fun k m => m.setRunFlag l k n) m
  let m := (m.injBoundary l).injCommands l (m.zBusy l n)
  m.zActs l (m.chgSet (n - 1)).zc (m.chgSet (n - 1)).zfreq

/-- Steps 3 and 4 of a lane. -/
def Mach.commandSteps (m : Mach) (l : Lane) (n : Nat) : Mach := (m.transferStep l n).takeSwaps l n

/-! ### The slot pass (R44, R45) -/

/-- Locate and Transform of a slot in tick `n`. -/
def Mach.transformSlot (m : Mach) (l : Lane) (k n : Nat) : Mach :=
  match m.slotType k, m.motorOf l k with
  | some .traction, some i => (m.locateTraction l k i n).transformTraction l k i n
  | some .chopper, _ => m.transformChopper l k n
  | some .pfc3, _ => m.transformPfc l k n
  | some .dab, _ => m.transformDab l k n
  | some .dcx, _ => m.transformDcx l k n
  | some .buckn, _ => m.transformBuck l k n
  | some .bldc, _ => m.transformDrive l k n
  | some .pump, _ => m.transformDrive l k n
  | _, _ => m

/-- Whether the frame of tick `n` switches, with the sharing mask of a BUCKN slot: the run flag, and what the set of the tick
says of the slot's machine; a DCX slot resumes in the tick in which burst wakes (R240). -/
def Mach.switchesIn (m : Mach) (l : Lane) (k n : Nat) : Bool × Nat :=
  let run := m.runFlag l k
  let lvc := m.lvcSet n
  let chg := m.chgSet n
  match m.slotType k with
  | some .buckn => (run && buckSwitches lvc.state, lvc.mask)
  | some .dcx =>
    let wakes := lvc.state == 4 && (m.lvcSet (n - 1)).state == 5 && m.permitted k && !([0, 1, 6].contains (m.modState l k))
    ((run || wakes) && dcxSwitches lvc.state n (m.fld Reg.LVC_SS 15 12), 0)
  | some .pfc3 => (run && pfcSwitches chg.state, 0)
  | some .dab => (run && dabSwitches chg.state (nth chg.dab 6), 0)
  | some .bldc => (run && (m.driveOfSlot k).any fun d => (nth (m.actSet n).drives d).switching, 0)
  | some .pump => (run && (m.driveOfSlot k).any fun d => (nth (m.actSet n).drives d).switching, 0)
  | _ => (run, 0)

/-- R44: a slot passes Acquire, Locate, Transform, Law and Modulate; its frame waits for Emit. -/
def Mach.slotPass (m : Mach) (l : Lane) (n t0 k : Nat) : Mach :=
  let m := (m.transformSlot l k n).afterTransform l k
  let m := (m.lawStage l k n t0).senseTick l k n
  let sw := m.switchesIn l k n
  m.modulate l k n sw.1 sw.2

/-- The snapshots' tick of a lane's blocks (R133, R160, R188). -/
def Mach.laneSnaps (m : Mach) (l : Lane) (n : Nat) : Mach :=
  ((m.wrN (Reg.LAW_SNAP l.ix) (n % 2 ^ 32)).wrN (Reg.FOC_SNAP l.ix) (n % 2 ^ 32)).wrN (Reg.MOD_SNAP l.ix) (n % 2 ^ 32)

/-- R45: the pass of a lane's slots in schedule order. -/
def Mach.pipelinePass (m : Mach) (l : Lane) (n t0 : Nat) : Mach :=
  forL (m.laneSchedule l) (fun k m => m.slotPass l n t0 k) (m.laneSnaps l n)

end Sys2Proof.Machine
end

