-- ==== Sys2Proof/Machine/Replay.lean ====
section
/-! DEFINITION. Replay of journalled ticks and the resync ticks, in recovery and in restart (R322, R330 to R334). -/

namespace Sys2Proof.Machine

/-- LANE_L_CTX: ACTIVE, SHADOW and REPLAY as the lane stands, with RESYNC and SKIP (R331, R343). Both lanes of a split arrangement
count as active (R299). -/
def Mach.showCtx (m : Mach) (l : Lane) (resync : Bool) (skip : Nat) : Mach :=
  let c := m.laneCode l
  let act := c == 1 && (m.arr == 2 || m.active == l)
  m.wrN (Reg.LANE_L_CTX l.ix)
    (min skip 255 * 2 ^ 8 + 8 * act.toNat + 4 * (c == 5).toNat + 2 * resync.toNat + (c == 4).toNat)

/-! ### One replayed tick (R330) -/

/-- R330: the work of a tick under its journalled mode and arrangement. -/
def Mach.underMark (m : Mach) (mark : JEntry) (f : Mach → Mach) : Mach :=
  let mode := m.fld Reg.SYS_MODE_STAT 2 0
  let arr := m.arr
  let m := f ((m.setFld Reg.SYS_MODE_STAT 2 0 (mark.addr % 8)).setFld Reg.LANE_STATUS 5 4 (mark.addr / 16 % 4))
  (m.setFld Reg.SYS_MODE_STAT 2 0 mode).setFld Reg.LANE_STATUS 5 4 arr

/-- R126: the mode of tick `n` differs from that of the tick before. -/
def LaneState.modeChanged (s : LaneState) (n : Nat) (mark : JEntry) : Bool :=
  n != 0 && (s.markerOf (n - 1)).any fun p => p.addr % 8 != mark.addr % 8

/-- R55: a write of the replayed tick task to a command register of the lane's copy; its other writes have taken effect already. -/
def Mach.replayWrite (m : Mach) (l : Lane) (a : Nat) (v : Word) : Mach :=
  match regAt a with
  | none => m
  | some (r, ix) =>
    if regLane r ix ≠ some l then m
    else if a = Reg.LAW_SWAP l.ix ∨ a = Reg.LAW_PRE_IDX l.ix ∨ r.kind = .command then (m.laneEffect [] l r ix a v).1
    else m

/-- R51 to R53, R330: the tick task of a replayed tick, with its writes. -/
def Mach.replayTask (m : Mach) (l : Lane) (ws : List (Nat × Word)) : Mach :=
  if !m.bit (Reg.TICK_CTX l.ix) 1 then m
  else
    let m := m.tickEntry l
    let m := forL ws (fun w m => m.replayWrite l w.1 w.2) m
    let c := m.savedContext l
    (m.setBit (Reg.TICK_CTX l.ix) 0 false).onTick l fun t => { t with cpu := c }

/-- R124, R310: the checkpoint that was copied in a replayed tick counts for the lane's seals again. -/
def Mach.replaySeals (m : Mach) (l : Lane) (n : Nat) : Mach :=
  let cpi := m.fld Reg.LANE_CFG 4 0
  if cpi ≠ 0 ∧ n ≠ 0 ∧ n % cpi = 0 then m.sealLift l else m

/-- R330: a lane replays tick `n`. -/
def Mach.replayLane (m : Mach) (l : Lane) (n : Nat) (mark : JEntry) (ws : List (Nat × Word)) : Mach :=
  let s := m.lanes.get l
  m.underMark mark fun m =>
    let m := (m.openInbox l n).showCtx l false 0
    let m := if s.modeChanged n mark && m.injState l != 0 then m.injEnd l 4 else m
    let m := forL (s.entriesOf n) (fun e m => m.laneEntry l e) m
    let m := (m.commandSteps l n).pipelinePass l n mark.time
    (m.replayTask l ws).replaySeals l n

/-- The frame of a lane's pipeline for a slot. -/
def Mach.laneFrame (m : Mach) (l : Lane) (k : Nat) : Option Frame := (m.modSlot l k).frame

/-- The slots whose replayed frames differ between the lanes. -/
def Mach.replayDiffers (m : Mach) : List Nat :=
  m.mapped.filter fun k => match m.laneFrame .a k, m.laneFrame .b k with
    | some x, some y => !x.agrees y
    | none, none => false
    | _, _ => true

/-- R321: the verdict on differing replayed frames. -/
def Mach.replayVerdict (m : Mach) (ks : List Nat) : Option (Lane × Nat) :=
  let bad (l : Lane) : Bool := ks.any fun k => (m.laneFrame l k).any fun f => m.envelopeFails l f
  match bad .a, bad .b with
  | true, false => some (.a, 1)
  | false, true => some (.b, 1)
  | _, _ => match m.healthBlames .a, m.healthBlames .b with
    | true, false => some (.a, 2)
    | false, true => some (.b, 2)
    | _, _ => none

/-- R330, R334: a difference is judged; the right lane goes on alone, and an undecidable one fails the restart. -/
def Mach.replayJudge (m : Mach) : Mach :=
  let ks := m.replayDiffers
  if ks.isEmpty then m
  else match m.replayVerdict ks with
    | some x => (m.judgeWrong x.1 x.2).onLane x.1.other fun s => { s with restart := s.restart.map fun r => { r with both := false } }
    | none => (m.incSat Reg.LANE_FAULTS 7 0).restartFail

/-- R66, R68: the cycles of a replayed tick are measured as a live one's: EMIT, TICK_LAST and the smallest margins. -/
def Mach.replayMeasured (m : Mach) (l : Lane) (last done : Nat) : Mach :=
  let mar := Reg.TICK_MINMARG l.ix
  let m := (m.orr (Reg.TICK_IRQ_STAT l.ix) 1).setFld mar 15 0 (min (m.fld mar 15 0) (m.deadline - last))
  let armed := m.bit (Reg.TICK_CTX l.ix) 1
  let m := if armed then m.setFld mar 31 16 (min (m.fld mar 31 16) (m.fld (Reg.TICK_TASKDL l.ix) 15 0 - done)) else m
  m.wrN (Reg.TICK_LAST l.ix) ((if armed then min done 0xFFFF else 0xFFFF) * 2 ^ 16 + min last 0xFFFF)

/-- R330, R343: RL into LANE_L_RPL; the replayed frames never load. -/
def Mach.replayed_ (m : Mach) (l : Lane) (rl : Nat) : Mach :=
  let a := Reg.LANE_L_RPL l.ix
  let m := m.wrN a (max (m.fld a 31 16) (min rl 0xFFFF) * 2 ^ 16 + min rl 0xFFFF)
  m.onLane l fun s => { s with next := s.next + 1, restart := s.restart.map fun r => { r with replayed := r.replayed + 1 } }

/-- The replayed frames of a lane go no further. -/
def Mach.dropFrames (m : Mach) (l : Lane) : Mach := forN 16 (fun k m => m.onMod l k fun s => { s with frame := none }) m

/-! ### The row -/

/-- R330: the lane has a tick to replay: up to m − 1 in a restart, up to the live tick in recovery; the lanes of one restart go
side by side. -/
def Mach.replayDue (m : Mach) (l : Lane) : Bool :=
  let s := m.lanes.get l
  let o := m.lanes.get l.other
  m.laneCode l == 4 && !s.f2 && match s.restart with
    | some r => decide (s.next < r.m) && (!r.both || o.restart.isNone || (m.laneCode l.other == 4 && decide (s.next ≤ o.next)))
    | none => decide (s.next ≤ m.seq)

/-- R84, R334: everything that replay of tick `n` reads still stands: the journal's marker and the shelves' sets. -/
def Mach.replayReady (m : Mach) (l : Lane) (n : Nat) : Bool :=
  ((m.lanes.get l).markerOf n).isSome && m.acq.shelf.any fun x => x.tag == n % 2 ^ 32

/-- R324, R334: replay cannot go on. -/
def Mach.replayFails (m : Mach) (l : Lane) : Mach :=
  if (m.lanes.get l).restart.isSome then m.restartFail else m.recoveryFails l

/-- R330: the replay of tick `n` in the lanes of a list. -/
def Mach.replayAll (m : Mach) (ls : List Lane) (n : Nat) (writes : Lane → List (Nat × Word)) (last done : Nat) : Mach :=
  let m := forL ls (fun l m => match (m.lanes.get l).markerOf n with
    | some mark => ((m.replayLane l n mark (writes l)).replayMeasured l last done).replayed_ l (max last done + 32)
    | none => m) m
  let m := if ls.length = 2 then m.replayJudge else m
  forL ls (fun l m => m.dropFrames l) m

/-- R330: the next tick of those that replay. -/
def Mach.replayTick (m : Mach) (wA wB : List (Nat × Word)) (last done : Nat) : Mach :=
  let due := [Lane.a, .b].filter m.replayDue
  match due with
  | [] => m
  | x :: _ =>
    let n := (due.map fun l => (m.lanes.get l).next).foldl min (m.lanes.get x).next
    let ls := due.filter fun l => (m.lanes.get l).next == n
    match ls.find? fun l => !m.replayReady l n with
    | some l => m.replayFails l
    | none => m.replayAll ls n (fun l => if l = .a then wA else wB) last done

/-! ### Resync (R331, R332) -/

/-- R331: replay of the lane has ended, and of the other lane where both restart; the next boundary is its resync tick. -/
def Mach.resyncDue (m : Mach) (l : Lane) : Bool :=
  let ready (l : Lane) : Bool := match (m.lanes.get l).restart with
    | some r => r.restored && decide (r.resync = 0) && decide (r.m ≤ (m.lanes.get l).next) && m.laneCode l == 4 && !(m.lanes.get l).f2
    | none => false
  ready l && match (m.lanes.get l).restart with
    | some r => !r.both || (m.lanes.get l.other).restart.isNone || ready l.other
    | none => false

/-- R331: FOC of a motor moves on by the ticks that were skipped, with HDTH of the slot's last accepted frame. -/
def Mach.resyncMotor (m : Mach) (l : Lane) (skip i : Nat) : Mach :=
  let hdth := ((m.lastAccepted (m.slotOfMotor l i)).map (·.hdth)).getD 0
  let d := skip * hdth
  let c := cos30 (u32 d)
  let s := sin30 (u32 d)
  m.onMotor l i fun f => { f with
    tho := u32 (f.tho + d), thh := u32 (f.thh + d)
    pa := sat32 (asr (f.pa * c - f.pb * s) 30), pb := sat32 (asr (f.pa * s + f.pb * c) 30) }

/-- R331: MOD clears every leg debt and keeps start states and g. -/
def Mach.resyncMod (m : Mach) (l : Lane) : Mach := forN 16 (fun k m => m.onMod l k fun s => { s with debts := s.debts.map fun _ => 0 }) m

/-- R126, R331: the resync tick `r` of a lane: the mode transitions and the entries of the skipped ticks, and the estimators moved on;
the lane is LIVE. -/
def Mach.resyncLane (m : Mach) (r : Nat) (l : Lane) : Mach :=
  match (m.lanes.get l).restart with
  | none => m
  | some x =>
    let skip := r - x.m
    let s := m.lanes.get l
    let es := (List.range skip).flatMap fun i => s.entriesOf (x.m + i)
    let moved := (List.range skip).any fun i => (s.markerOf (x.m + i)).any fun k => s.modeChanged (x.m + i) k
    let m := if moved && m.injState l != 0 then m.injEnd l 4 else m
    let m := forL es (fun e m => m.laneEntry l e) m
    let m := (m.resyncMod l).resyncMotor l skip 0
    let m := (m.resyncMotor l skip 1).onLane l fun s => { s with
      restart := some { x with resync := 1, more := true, skip := skip }, kickAt := m.now }
    m.setLaneCode l 1

/-- R299, R331: the lanes whose resync tick is `r`; the roles follow once all of them are LIVE. -/
def Mach.resync (m : Mach) (r : Nat) : Mach :=
  let ls := [Lane.a, .b].filter m.resyncDue
  if ls.isEmpty then m
  else
    let m := ((forL ls (fun l m => m.resyncLane r l) m).setRoles).setDegraded.showCheckpoint
    forL ls (fun l m => m.showCtx l true (((m.lanes.get l).restart.map (·.skip)).getD 0)) m

/-- A frame of an admitted lane that passed its envelope was accepted in the tick for a slot of the restart (R332, R335). -/
def Mach.resyncGot (m : Mach) (l : Lane) : Bool := (m.ownSlots l).any fun k => (m.sv k).held && (m.sv k).accepted.isSome

/-- R332, R334: the end of a resync tick `t` without an accepted frame calls for another, up to four. -/
def Mach.resyncJudge (m : Mach) (l : Lane) (t : Nat) : Mach :=
  match (m.lanes.get l).restart with
  | none => m
  | some x =>
    if x.resync = 0 ∨ !x.more ∨ t < x.m + x.skip then m
    else if m.resyncGot l then m.onLane l fun s => { s with restart := some { x with more := false } }
    else if 4 ≤ x.resync then m.restartFail
    else m.onLane l fun s => { s with restart := some { x with resync := x.resync + 1 } }

/-- R332, R339: the restart of a lane is complete: a planned one is the hand-over's, another counts as a lane fault. -/
def Mach.restartEnds (m : Mach) (l : Lane) (x : Restart) : Mach :=
  let m := m.onLane l fun s => { s with restart := none }
  if x.planned then (if m.lanes.a.restart.isNone ∧ m.lanes.b.restart.isNone then m.handoverDone 1 else m)
  else
    let m := m.countFault l
    if 4 ≤ (m.lanes.get l).faults.length then m.isolate l else m

/-- R324, R459: a lane that has waited for the other recovers once that one is LIVE. -/
def Mach.recoverWaiting (m : Mach) (l : Lane) : Mach :=
  if (m.lanes.get l).afterwards && m.arr == 1 && m.live l.other && (m.lanes.get l.other).restart.isNone then m.recover l m.seq else m

/-- The lane's restart has reached its resync and no slot of it is held any more. -/
def Mach.holdOver (m : Mach) (l : Lane) : Bool :=
  (m.lanes.get l).restart.any fun x => decide (1 ≤ x.resync) && (m.ownSlots l).all fun k => !(m.sv k).held

/-- R332: the hold has ended for every slot: 0x3006 with the fields of LANE_LASTRST. -/
def Mach.restartsEnd (m : Mach) : Mach :=
  let done := [Lane.a, .b].filterMap fun l => if m.holdOver l then ((m.lanes.get l).restart.map fun x => (l, x)) else none
  match done with
  | [] => m
  | d :: _ =>
    let held := m.fld Reg.LANE_STATUS 31 24
    let w := held * 2 ^ 24 + min d.2.replayed 255 * 2 ^ 16 + min d.2.skip 255 * 2 ^ 8 + min d.2.resync 255
    let m := ((m.wrN Reg.LANE_LASTRST w).raise 0x3006 0 0xFF (leBytes 4 w)).laneIrq 3
    let m := forL done (fun x m => m.restartEnds x.1 x.2) m
    ((m.recoverWaiting .a).recoverWaiting .b).showHold

/-! ### The rows -/

/-- REPLAY_TICK (R322 step 5, R330): `wA` and `wB` are the writes of the tick tasks to their lanes' command registers, `last` the
cycle of the last Emit and `done` that of DONE. -/
def execReplayTick (cyc : Nat) (wA : List (Nat × Word)) (wB : List (Nat × Word)) (last : Nat) (done : Nat) (s : State) :
    Host.Outcome State Fault Refusal :=
  run s cyc fun m => m.replayTick wA wB last done

/-- RESYNC_TICK (R331): sent just before the boundary that is the resync tick; that boundary does what is left of it. -/
def execResyncTick (cyc : Nat) (s : State) : Host.Outcome State Fault Refusal := run s cyc fun m => m.resync (m.seq + 1)

end Sys2Proof.Machine
end

