-- ==== Sys2Proof/Machine/Boundary.lean ====
section
/-! DEFINITION. The tick boundary: the end of the tick that closes, the six steps of R42, and what follows in the new tick; and the
end of boot, which is boundary 0 (R23, R39 to R42, R326, R471). -/

namespace Sys2Proof.Machine

/-- A run over both lanes. -/
def bothLanes (f : Lane → Mach → Mach) (m : Mach) : Mach := f .b (f .a m)

/-! ### The end of the tick -/

/-- R322: a lane that has been one tick in RESET goes on to the code check. -/
def Mach.recoveryLoads (m : Mach) (l : Lane) : Mach :=
  if (m.lanes.get l).step = .reset then (m.onLane l fun s => { s with step := .check }).toState l 3 else m

/-- R322 steps 5 and 6: the next tick to execute is the live one: the lane runs on in SHADOW. -/
def Mach.toShadow (m : Mach) (l : Lane) (t : Nat) : Mach :=
  let s := m.lanes.get l
  if s.step = .replay ∧ s.restart.isNone ∧ m.laneCode l = 4 ∧ t + 1 ≤ s.next then
    (m.onLane l fun s => { s with step := .shadow, shadowEqual := 0, shadowBad := false }).toState l 5
  else m

/-- R324: what a SHADOW tick, and 64 ticks, decide. -/
def Mach.recoveryChecked (m : Mach) (l : Lane) : Mach :=
  let m := if (m.lanes.get l).shadowBad then m.recoveryFails l else m.admitLane l
  m.recoveryTimeout l

/-- R320: the health window moves on by one tick with the count of lane faults, and what belonged to the tick ends. -/
def Mach.newWindow (m : Mach) (l : Lane) : Mach :=
  let now := (m.lanes.get l).hwNow
  ((m.onLane l fun s => { s with hwPrev := now, hwNow := 0, f2 := false, writeList := [], msgs := [], wrong := false }).setFld
    (healthReg l) 12 0 now).setFld (healthReg l) 23 16 (m.faultCount l)

/-- The cutoff and what a tick without its row would still owe (R49, R50, R56, R314). -/
def Mach.closeWork (m : Mach) : Mach :=
  let m := (bothLanes (fun l m => m.taskDeadline l) m).emitDeadline
  let m := bothLanes (fun l m => m.abandon l) m.sieveCutoff
  bothLanes (fun l m => (m.promoteCheckpoint l m.seq).discardShadow l) m

/-- R322 to R335, R339: faults, recovery, restart and hand-over at the end of tick `t`. -/
def Mach.laneWork (m : Mach) (t : Nat) : Mach :=
  let m := (bothLanes (fun l m => m.recoveryLoads l) m).laneFaults t
  let m := bothLanes (fun l m => m.resyncJudge l t) m
  let m := bothLanes (fun l m => m.recoveryChecked l) m
  let m := bothLanes (fun l m => m.toShadow l t) m
  let arr := m.arr
  let m := m.handoverStep t
  if m.arr = arr then m else m.predict m.arr

/-- The end of tick `t`. -/
def Mach.endOfTick (m : Mach) : Mach :=
  let t := m.seq
  let m := (bothLanes (fun l m => m.closeTick l) m.closeWork).laneWork t
  (bothLanes (fun l m => m.newWindow l) m).onLb fun b => { b with cut := false, inFlight := [], disputes := [] }

/-! ### Loading (R20, R23, R316, R326, R411, R470) -/

/-- What loads for a slot: the frame accepted in the tick `n - 1` that ended, or Bedrock's; a slot of which nothing was ever
accepted, and which is not held, has none. -/
def Mach.candidate (m : Mach) (n : Nat) (udcB : List Int) (k : Nat) : Option Frame :=
  let s := m.sv k
  match s.accepted, s.sub with
  | some a, _ => if s.forcedSafe then some (m.safeFrame k (n - 1) (m.lastEmfhi k)) else some a.1
  | none, some f => if s.forcedSafe || (s.limited && (m.pumpRuns k).isNone) then some (m.safeFrame k (n - 1) (m.lastEmfhi k)) else some f
  | none, none =>
    if s.forcedSafe || s.limited then some (m.safeFrame k (n - 1) (m.lastEmfhi k))
    else if s.held || !s.last.isEmpty then some (m.heldFrame k (n - 1) (s.heldCount + 1) (nth udcB k))
    else none

/-- R23, R411: the frame that Bedrock lets through: where the mode does not permit the slot, where Bedrock holds it under STO, the
safe-state command. -/
def Mach.admittedFrame (m : Mach) (n k : Nat) (f : Frame) : Frame × Mach :=
  let safe := m.safeFrame k (n - 1) (m.lastEmfhi k)
  if !m.permitted k then
    if f.safe && m.carriesSafe k f then (f, m) else (safe, m.raise 0x0004 0 k)
  else if m.safe.bed.words.sto.testBit k || m.pwr.crystalLost then (safe, m)
  else (f, m)

/-- R43: how many past frames one carrier period spans. -/
def Mach.carrierSpan (m : Mach) (k : Nat) : Nat := ((m.slotEntry k).map fun e => (ratio e.rlog).2).getD 1

/-- R326, R332: the Sieve's part of a slot after its frame has loaded: an accepted lane frame ends its hold; a frame that Bedrock has
put in the place of one that came (R319), or a pump's governor frame (R294), is no held boundary outside a hold. -/
def SieveSlot.afterLoad (s : SieveSlot) (span : Nat) : SieveSlot :=
  match s.accepted with
  | some a => { s with last := (a.1 :: s.last).take (max span 1), held := false, limited := false, heldCount := 0 }
  | none => if s.sub.isSome && !s.held then { s with heldCount := 0 } else { s with heldCount := min (s.heldCount + 1) 255 }

/-- R42 step 6: a slot's frame loads at boundary `n`; the pattern repeats where there is none (R193). -/
def Mach.loadSlot (m : Mach) (n : Nat) (udcB : List Int) (k : Nat) : Mach :=
  match m.candidate n udcB k with
  | none => m.gateRepeat k
  | some f =>
    let r := m.admittedFrame n k f
    let f := if m.isType k .bldc || m.isType k .pump then r.2.clampComm k n r.1 else r.1
    let started := !f.safe && (m.isType k .pfc3 || m.isType k .dab)
    ((r.2.hardReturn k started).gateLoad k f).onSv k fun s => s.afterLoad (m.carrierSpan k)

/-- R42 step 6: every slot's frame; a boundary with a held slot counts in HOLDCNT, and one may reach its limit. -/
def Mach.framesLoad (m : Mach) (n : Nat) (udcB : List Int) : Mach :=
  let m := m.gateBoundary n
  let m := if n = 0 then m else forL m.mapped (fun k m => m.loadSlot n udcB k) m
  let m := if m.lane.slots.any (·.held) then m.incSat Reg.LANE_STATUS 31 24 else m
  let m := m.restartsEnd.showHold
  (forL m.mapped (fun k m => m.holdLimit k) m).ascLine

/-- The Sieve is empty for the new tick. -/
def Mach.clearSieve (m : Mach) : Mach :=
  forN 16 (fun k m => m.onSv k fun s =>
    { s with accepted := none, second := none, acceptedBad := false, secondBad := false, shadow := none, sub := none }) m

/-! ### Steps 1 to 5 (R42) -/

/-- Step 1: the mode. A request for SAFE_HOLD that is accessioned for the tick acts here (R473). -/
def Mach.boundaryMode (m : Mach) (mem : List Host.Cell) (n : Nat) (env : BoundaryIn) : Mach × List Host.Cell :=
  let hold := (m.dueEntries n).any fun e => e.kind == 1 && e.addr == Reg.SYS_MODE_REQ && e.value % 8 == 5
  (m.modeStep env.wakeIn0 hold).modeSession mem env.logOk

/-- Step 2, with the entries of skipped ticks at a resync (R331). -/
def Mach.boundaryInputs (m : Mach) (mem : List Host.Cell) (n : Nat) : Mach × List Host.Cell :=
  ((m.resync n).tasksBegin n).accession mem n

/-- Steps 3 and 4 in the lanes that execute the tick. -/
def Mach.boundaryCommands (m : Mach) (n : Nat) : Mach :=
  (bothLanes (fun l m => if m.runsLive l then m.commandSteps l n else m) m.keepRuns).zDoneActing

/-- Step 5: acquisition and position freeze, then every machine of its own is evaluated and freezes its set. -/
def Mach.boundaryFreeze (m : Mach) (n : Nat) (env : BoundaryIn) : Mach :=
  let standby := m.sys.changed && m.mode == .standby
  let m := (((m.acqNewTick).acqClose).issueFirmware).posFreeze
  let m := (m.creditStep n).smEvalAll n
  let m := (m.lvcEval n env.lvcFb env.lvcSense standby).chgEval n
  let m := (m.actEval n standby).thermal n env.temps
  (m.wrN Reg.IMG_SNAP (n % 2 ^ 32)).wrN Reg.PWR_SNAP (n % 2 ^ 32)

/-! ### The new tick -/

/-- LANE_L_CTX of the tick. -/
def Mach.boundaryCtx (m : Mach) (l : Lane) : Mach :=
  match (m.lanes.get l).restart with
  | some x => let on := decide (1 ≤ x.resync) && x.more; m.showCtx l on (if on then x.skip else 0)
  | none => m.showCtx l false 0

/-- R51, R52, R58, R394: no message of the tick is sent yet; source 1 asks, tick entry where it is taken, and what tick tasks read as at the boundary. -/
def Mach.enterTick (m : Mach) : Mach :=
  (bothLanes (fun l m =>
    let m := ((m.boundaryCtx l).wrN (Reg.NET_L_TXSTAT l.ix) 0).plicRequest l 1
    if m.takesEntry l then m.tickEntry l else m) m).takeMarks

/-- The pipelines pass the slots of the new tick. -/
def Mach.passes (m : Mach) (n : Nat) : Mach := bothLanes (fun l m => if m.runsLive l then m.pipelinePass l n m.t0 else m) m

/-- R39, R63: the count and the stamp of the boundary of tick `n`. -/
def Mach.stampTick (m : Mach) (n : Nat) : Mach :=
  let m := ((m.wr64 Reg.TICK_SEQ_LO Reg.TICK_SEQ_HI n).wr64 Reg.TICK_T0_LO Reg.TICK_T0_HI m.now)
  { m.onTime fun t => { t with cyc := 0, evcnt := 0 } with setNow := [] }

/-- R42 from step 2 on, and the new tick `n`; `ev` events were stamped in the tick before. -/
def Mach.boundaryRest (m : Mach) (mem : List Host.Cell) (n ev : Nat) (env : BoundaryIn) : Mach × List Host.Cell :=
  let x := m.boundaryInputs mem n
  let m := (x.1.boundaryCommands n).boundaryFreeze n env
  let m := ((m.framesLoad n env.udcB).safePeaks).captureLine ev
  let m := (m.clearSieve).enterTick
  ((m.passes n).slewDone, x.2)

/-- R41, R42: the boundary that ends a running tick; in SLEEP the device goes to sleep instead (R477). -/
def Mach.tickBoundary (m : Mach) (mem : List Host.Cell) (env : BoundaryIn) : Mach × List Host.Cell :=
  if !m.tick.running then (m, mem)
  else if m.mode = .sleep then m.sleepEntry mem env.logOk
  else
    let m := if m.boundaryInWindow env.bedrockNs then m else m.boundaryFault
    let m := m.endOfTick
    let ev := m.time.evcnt
    let n := m.seq + 1
    let x := (m.stampTick n).boundaryMode mem n env
    x.1.boundaryRest x.2 n ev env

/-! ### The end of boot (R456, R471) -/

/-- R456: without an image the device stays in the recovery state: no tick, lane B in reset, MODE 0. -/
def Mach.bootRecovery (m : Mach) : Mach :=
  let m := (m.setBit Reg.IMG_STATUS 27 true).onPwr fun p => { p with booted := true }
  (m.setLaneCode .b 2).setLines

/-- R24, R31, R471: the first mode: STANDBY at tick 0; it is no transition (R34). -/
def Mach.bootMode (m : Mach) : Mach :=
  let m := (m.setFld Reg.SYS_MODE_STAT 2 0 1).setFld Reg.SYS_MODE_STAT 6 4 1
  m.onSys fun s => { s with dwell := 1, changed := true }

/-- R468, R471, R493: what the first boot after a reset tells: boot time in µs and PWR_WAKE, and PWR_RSTCAUSE. -/
def Mach.bootTold (m : Mach) : Mach :=
  let wake := leBytes 4 (m.now / 2000) ++ leBytes 2 (m.rd Reg.PWR_WAKE).toNat
  ((m.raise 0x4802 0 0xFF [(m.rd Reg.PWR_RSTCAUSE).toNat % 256]).raise 0x4801 0 0xFF wake).pwrIrq 5

/-- R89, R215, R242, R299, R301, R400, R464, R471: the first STANDBY runs every diagnostic, the lanes go LIVE and the tick begins;
from here each evaluator waits for the other's exchange. -/
def Mach.bootStart (m : Mach) (levels : List (Bool × Bool)) (halls : List Nat) : Mach :=
  let m := (((m.bootMode).diagStandby.lvcDiagStandby).bootTold).onPwr fun p => { p with booted := true, tries := 0 }
  let m := (((m.setLaneCode .a 1).setLaneCode .b 1).setRoles).posStart levels halls
  let m := (m.onEval true fun e => { e with lastAt := some m.now }).onEval false fun e => { e with lastAt := some m.now }
  (m.onTicks fun t => { t with running := true, begun := false }).setLines

/-- R40, R471: boot ends: with an image, tick 0 begins in STANDBY. -/
def Mach.bootComplete (m : Mach) (mem : List Host.Cell) (levels : List (Bool × Bool)) (halls : List Nat) (env : BoundaryIn) :
    Mach × List Host.Cell :=
  if m.pwr.booted || m.pwr.due.isSome || m.pwr.phase != .up then (m, mem)
  else if !m.image.loaded then (m.bootRecovery, mem)
  else (((m.bootStart levels halls).predict m.arr).stampTick 0).boundaryRest mem 0 0 env

/-! ### The rows -/

/-- TICK_BOUNDARY (R42): the tick generator has counted its period. -/
def execTickBoundary (env : BoundaryIn) (s : State) : Host.Outcome State Fault Refusal :=
  runMem s s.m.period fun m mem => m.tickBoundary mem env

/-- BOOT_COMPLETE (R471): `levels` are those of A and B of the position channels, `halls` the pin states of the triplets. -/
def execBootComplete (cyc : Nat) (levels : List (Bool × Bool)) (halls : List Nat) (env : BoundaryIn) (s : State) :
    Host.Outcome State Fault Refusal :=
  runMem s cyc fun m mem => m.bootComplete mem levels halls env

end Sys2Proof.Machine
end

