-- ==== Sys2Proof/Machine/Dispatch.lean ====
section
/-! DEFINITION. One arm per command: the meaning that gives it, or its rejection by name. -/

namespace Sys2Proof.Machine

def exec (i : Instr) (s : State) : Host.Outcome State Fault Refusal :=
  match i with
  | .tickBoundary env => Sys2Proof.Machine.execTickBoundary env s
  | .boundaryMissing cyc => Sys2Proof.Machine.execBoundaryMissing cyc s
  | .accessionTakesEffect cyc => Sys2Proof.Machine.execAccessionTakesEffect cyc s
  | .asyncInputArrival cyc inA inB bad => Sys2Proof.Machine.execAsyncInputArrival cyc inA inB bad s
  | .frameEmit cyc lane k => Sys2Proof.Machine.execFrameEmit cyc lane k s
  | .emitDeadline cyc => Sys2Proof.Machine.execEmitDeadline cyc s
  | .tickTaskDeadline cyc lane => Sys2Proof.Machine.execTickTaskDeadline cyc lane s
  | .tickCmdDone cyc who lane => Sys2Proof.Machine.execTickCmdDone cyc who lane s
  | .tickCmdArm cyc who lane => Sys2Proof.Machine.execTickCmdArm cyc who lane s
  | .tickCmdClrovr cyc who lane => Sys2Proof.Machine.execTickCmdClrovr cyc who lane s
  | .tickCmdClrmarg cyc who lane => Sys2Proof.Machine.execTickCmdClrmarg cyc who lane s
  | .tickContextAccess cyc lane addr width write => Sys2Proof.Machine.execTickContextAccess cyc lane addr width write s
  | .registerWrite cyc who addr value => Sys2Proof.Machine.execRegisterWrite cyc who addr value s
  | .narrowAccess cyc req addr width write => Sys2Proof.Machine.execNarrowAccess cyc req addr width write s
  | .outOfRegionAccess cyc req addr width write => Sys2Proof.Machine.execOutOfRegionAccess cyc req addr width write s
  | .rsnLeadRead cyc who addr => Sys2Proof.Machine.execRsnLeadRead cyc who addr s
  | .sysModeRequest cyc who value => Sys2Proof.Machine.execSysModeRequest cyc who value s
  | .modeRequestTimeout cyc => Sys2Proof.Machine.execModeRequestTimeout cyc s
  | .sequenceTrigger cyc q => Sys2Proof.Machine.execSequenceTrigger cyc q s
  | .groupStart cyc q => Sys2Proof.Machine.execGroupStart cyc q s
  | .conversionComplete cyc c nv => Sys2Proof.Machine.execConversionComplete cyc c nv s
  | .urgentRequest cyc who value => Sys2Proof.Machine.execUrgentRequest cyc who value s
  | .urgentConversionStart cyc c => Sys2Proof.Machine.execUrgentConversionStart cyc c s
  | .selfCheckConversion cyc c item value => Sys2Proof.Machine.execSelfCheckConversion cyc c item value s
  | .calibrationRequest cyc who value => Sys2Proof.Machine.execCalibrationRequest cyc who value s
  | .calibrationComplete cyc sums => Sys2Proof.Machine.execCalibrationComplete cyc sums s
  | .vddaLow cyc => Sys2Proof.Machine.execVddaLow cyc s
  | .resolverUpdate cyc x theta vel sin cos exc => Sys2Proof.Machine.execResolverUpdate cyc x theta vel sin cos exc s
  | .encoderCount cyc x a b => Sys2Proof.Machine.execEncoderCount cyc x a b s
  | .zEdge cyc x => Sys2Proof.Machine.execZEdge cyc x s
  | .sentFrame cyc x start cal pulses => Sys2Proof.Machine.execSentFrame cyc x start cal pulses s
  | .ssiRead cyc x data stuck => Sys2Proof.Machine.execSsiRead cyc x data stuck s
  | .hallEdge cyc t state => Sys2Proof.Machine.execHallEdge cyc t state s
  | .positionLatch cyc what => Sys2Proof.Machine.execPositionLatch cyc what s
  | .probeEdge cyc p rise => Sys2Proof.Machine.execProbeEdge cyc p rise s
  | .lawPortWrite cyc who lane value => Sys2Proof.Machine.execLawPortWrite cyc who lane value s
  | .lawPortRead cyc lane => Sys2Proof.Machine.execLawPortRead cyc lane s
  | .lawSwapRequest cyc who lane value => Sys2Proof.Machine.execLawSwapRequest cyc who lane value s
  | .sectionPreset cyc who lane value => Sys2Proof.Machine.execSectionPreset cyc who lane value s
  | .injectorStart cyc who lane value => Sys2Proof.Machine.execInjectorStart cyc who lane value s
  | .injectorStop cyc who lane value => Sys2Proof.Machine.execInjectorStop cyc who lane value s
  | .injectionDurationEnd cyc lane => Sys2Proof.Machine.execInjectionDurationEnd cyc lane s
  | .injectionRampOutEnd cyc lane => Sys2Proof.Machine.execInjectionRampOutEnd cyc lane s
  | .oscillationWindowEnd cyc lane k => Sys2Proof.Machine.execOscillationWindowEnd cyc lane k s
  | .lawMemoryError cyc lane corrected => Sys2Proof.Machine.execLawMemoryError cyc lane corrected s
  | .phaseCurrentSumFault cyc lane motor => Sys2Proof.Machine.execPhaseCurrentSumFault cyc lane motor s
  | .polarityDetection cyc lane motor => Sys2Proof.Machine.execPolarityDetection cyc lane motor s
  | .sensorDivergence cyc lane motor => Sys2Proof.Machine.execSensorDivergence cyc lane motor s
  | .observerLoss cyc lane motor => Sys2Proof.Machine.execObserverLoss cyc lane motor s
  | .observerReacquired cyc lane motor => Sys2Proof.Machine.execObserverReacquired cyc lane motor s
  | .reacquisitionFailed cyc lane motor => Sys2Proof.Machine.execReacquisitionFailed cyc lane motor s
  | .shortCircuitRelease cyc lane motor => Sys2Proof.Machine.execShortCircuitRelease cyc lane motor s
  | .injectionContrastLost cyc lane motor => Sys2Proof.Machine.execInjectionContrastLost cyc lane motor s
  | .modStart cyc who lane k value => Sys2Proof.Machine.execModStart cyc who lane k value s
  | .modStop cyc who lane k value => Sys2Proof.Machine.execModStop cyc who lane k value s
  | .flyingStartDecision cyc lane k => Sys2Proof.Machine.execFlyingStartDecision cyc lane k s
  | .stopComplete cyc lane k => Sys2Proof.Machine.execStopComplete cyc lane k s
  | .gateEdge cyc iso n ext tm => Sys2Proof.Machine.execGateEdge cyc iso n ext tm s
  | .stuckGate cyc iso n => Sys2Proof.Machine.execStuckGate cyc iso n s
  | .shortCircuitDetection cyc ch mv ns => Sys2Proof.Machine.execShortCircuitDetection cyc ch mv ns s
  | .shortCircuitClassify cyc k => Sys2Proof.Machine.execShortCircuitClassify cyc k s
  | .gdiClear cyc who value quiet => Sys2Proof.Machine.execGdiClear cyc who value quiet s
  | .gdlClear cyc who value good => Sys2Proof.Machine.execGdlClear cyc who value good s
  | .overvoltageClamp cyc => Sys2Proof.Machine.execOvervoltageClamp cyc s
  | .clampRelease cyc => Sys2Proof.Machine.execClampRelease cyc s
  | .linkHardOvervoltage cyc => Sys2Proof.Machine.execLinkHardOvervoltage cyc s
  | .pumpFault cyc leg => Sys2Proof.Machine.execPumpFault cyc leg s
  | .refreshPulse cyc leg => Sys2Proof.Machine.execRefreshPulse cyc leg s
  | .highSideUndervoltage cyc leg => Sys2Proof.Machine.execHighSideUndervoltage cyc leg s
  | .vdsOvercurrent cyc leg mv => Sys2Proof.Machine.execVdsOvercurrent cyc leg mv s
  | .gateDiagRequest cyc who gdl value => Sys2Proof.Machine.execGateDiagRequest cyc who gdl value s
  | .gateDiagComplete cyc gdl n h l => Sys2Proof.Machine.execGateDiagComplete cyc gdl n h l s
  | .isolatedRailUndervoltage cyc ch => Sys2Proof.Machine.execIsolatedRailUndervoltage cyc ch s
  | .barrierLoss cyc ch => Sys2Proof.Machine.execBarrierLoss cyc ch s
  | .driveSupplyLow cyc => Sys2Proof.Machine.execDriveSupplyLow cyc s
  | .lvcFastTrip cyc phase => Sys2Proof.Machine.execLvcFastTrip cyc phase s
  | .lvcOutputOvervoltage cyc => Sys2Proof.Machine.execLvcOutputOvervoltage cyc s
  | .lvcOutputShort cyc => Sys2Proof.Machine.execLvcOutputShort cyc s
  | .lvcHiccupEnd cyc => Sys2Proof.Machine.execLvcHiccupEnd cyc s
  | .lvcRetryClear cyc => Sys2Proof.Machine.execLvcRetryClear cyc s
  | .lvcPrechargeTimeout cyc => Sys2Proof.Machine.execLvcPrechargeTimeout cyc s
  | .lvcShedStart cyc => Sys2Proof.Machine.execLvcShedStart cyc s
  | .lvcBurstEntry cyc => Sys2Proof.Machine.execLvcBurstEntry cyc s
  | .lvcEnableWrite cyc who value => Sys2Proof.Machine.execLvcEnableWrite cyc who value s
  | .lvcClear cyc who value => Sys2Proof.Machine.execLvcClear cyc who value s
  | .lvcDiagRequest cyc who value => Sys2Proof.Machine.execLvcDiagRequest cyc who value s
  | .lvcDiagComplete cyc phase high low => Sys2Proof.Machine.execLvcDiagComplete cyc phase high low s
  | .lvcFaultRecordWrite cyc ok => Sys2Proof.Machine.execLvcFaultRecordWrite cyc ok s
  | .chgStart cyc who value => Sys2Proof.Machine.execChgStart cyc who value s
  | .chgStop cyc who value => Sys2Proof.Machine.execChgStop cyc who value s
  | .chgTimerClear cyc who value => Sys2Proof.Machine.execChgTimerClear cyc who value s
  | .chgImpedanceRestart cyc who value => Sys2Proof.Machine.execChgImpedanceRestart cyc who value s
  | .chgPulseWrite cyc who value => Sys2Proof.Machine.execChgPulseWrite cyc who value s
  | .chgTimerWrite cyc who value => Sys2Proof.Machine.execChgTimerWrite cyc who value s
  | .pilotPeriod cyc high low freq duty => Sys2Proof.Machine.execPilotPeriod cyc high low freq duty s
  | .proximityMeasurement cyc ohms => Sys2Proof.Machine.execProximityMeasurement cyc ohms s
  | .bmsPermitChange cyc closed => Sys2Proof.Machine.execBmsPermitChange cyc closed s
  | .sequenceTimeout cyc => Sys2Proof.Machine.execSequenceTimeout cyc s
  | .pulsePhaseEnd cyc => Sys2Proof.Machine.execPulsePhaseEnd cyc s
  | .stoppingRampEnd cyc => Sys2Proof.Machine.execStoppingRampEnd cyc s
  | .safetyTimerExpiry cyc => Sys2Proof.Machine.execSafetyTimerExpiry cyc s
  | .gridFault cyc => Sys2Proof.Machine.execGridFault cyc s
  | .impedancePointEnd cyc => Sys2Proof.Machine.execImpedancePointEnd cyc s
  | .driveBlocked cyc d => Sys2Proof.Machine.execDriveBlocked cyc d s
  | .hallFault cyc d => Sys2Proof.Machine.execHallFault cyc d s
  | .hallFaultClear cyc d => Sys2Proof.Machine.execHallFaultClear cyc d s
  | .pumpRetryEnd cyc d => Sys2Proof.Machine.execPumpRetryEnd cyc d s
  | .pumpCommandMeasurement cyc p value freq held => Sys2Proof.Machine.execPumpCommandMeasurement cyc p value freq held s
  | .actDriveRequest cyc who d value => Sys2Proof.Machine.execActDriveRequest cyc who d value s
  | .actPumpFaultClear cyc who d value => Sys2Proof.Machine.execActPumpFaultClear cyc who d value s
  | .actPumpSetpoint cyc who d value => Sys2Proof.Machine.execActPumpSetpoint cyc who d value s
  | .startCreditWait cyc => Sys2Proof.Machine.execStartCreditWait cyc s
  | .inboxRead cyc lane bad => Sys2Proof.Machine.execInboxRead cyc lane bad s
  | .journalRead cyc bad => Sys2Proof.Machine.execJournalRead cyc bad s
  | .checkpointStart cyc lane => Sys2Proof.Machine.execCheckpointStart cyc lane s
  | .checkpointComplete cyc lane ok => Sys2Proof.Machine.execCheckpointComplete cyc lane ok s
  | .sieveFrameArrival cyc lane k chkOk => Sys2Proof.Machine.execSieveFrameArrival cyc lane k chkOk s
  | .sieveCutoff cyc => Sys2Proof.Machine.execSieveCutoff cyc s
  | .outgoingMessageSieve cyc lane => Sys2Proof.Machine.execOutgoingMessageSieve cyc lane s
  | .laneRecoveryStart cyc lane => Sys2Proof.Machine.execLaneRecoveryStart cyc lane s
  | .codeCheckComplete cyc lane => Sys2Proof.Machine.execCodeCheckComplete cyc lane s
  | .recoveryCheckpointLoad cyc lane => Sys2Proof.Machine.execRecoveryCheckpointLoad cyc lane s
  | .laneAdmission cyc lane => Sys2Proof.Machine.execLaneAdmission cyc lane s
  | .recoveryTimeout cyc lane => Sys2Proof.Machine.execRecoveryTimeout cyc lane s
  | .bothLaneRestart cyc => Sys2Proof.Machine.execBothLaneRestart cyc s
  | .crossLaneLinkLoss cyc => Sys2Proof.Machine.execCrossLaneLinkLoss cyc s
  | .holdLimitReached cyc k => Sys2Proof.Machine.execHoldLimitReached cyc k s
  | .restoreComplete cyc lane sramErr => Sys2Proof.Machine.execRestoreComplete cyc lane sramErr s
  | .replayTick cyc wA wB last done => Sys2Proof.Machine.execReplayTick cyc wA wB last done s
  | .resyncTick cyc => Sys2Proof.Machine.execResyncTick cyc s
  | .arrangementRequest cyc who value => Sys2Proof.Machine.execArrangementRequest cyc who value s
  | .arrangementHandover cyc => Sys2Proof.Machine.execArrangementHandover cyc s
  | .watchdogKick cyc who lane => Sys2Proof.Machine.execWatchdogKick cyc who lane s
  | .laneSelfFault cyc who lane => Sys2Proof.Machine.execLaneSelfFault cyc who lane s
  | .watchdogExpiry cyc lane => Sys2Proof.Machine.execWatchdogExpiry cyc lane s
  | .dramError cyc req addr sym => Sys2Proof.Machine.execDramError cyc req addr sym s
  | .scrubLine cyc => Sys2Proof.Machine.execScrubLine cyc s
  | .refreshFailure cyc ns => Sys2Proof.Machine.execRefreshFailure cyc ns s
  | .descriptorPost cyc who lane r value => Sys2Proof.Machine.execDescriptorPost cyc who lane r value s
  | .transactionIssue cyc lane => Sys2Proof.Machine.execTransactionIssue cyc lane s
  | .transactionComplete cyc lane r n => Sys2Proof.Machine.execTransactionComplete cyc lane r n s
  | .completionWrite cyc lane r => Sys2Proof.Machine.execCompletionWrite cyc lane r s
  | .streamRecord cyc lane r => Sys2Proof.Machine.execStreamRecord cyc lane r s
  | .ringResume cyc who lane r => Sys2Proof.Machine.execRingResume cyc who lane r s
  | .ringAbort cyc who lane r => Sys2Proof.Machine.execRingAbort cyc who lane r s
  | .ringGo cyc who lane r => Sys2Proof.Machine.execRingGo cyc who lane r s
  | .iotlbInvalidate cyc who lane value => Sys2Proof.Machine.execIotlbInvalidate cyc who lane value s
  | .crcStart cyc who lane u => Sys2Proof.Machine.execCrcStart cyc who lane u s
  | .crcCont cyc who lane u => Sys2Proof.Machine.execCrcCont cyc who lane u s
  | .crcStop cyc who lane u => Sys2Proof.Machine.execCrcStop cyc who lane u s
  | .crcScanBlock cyc lane u => Sys2Proof.Machine.execCrcScanBlock cyc lane u s
  | .timeRateWrite cyc who value => Sys2Proof.Machine.execTimeRateWrite cyc who value s
  | .timeSlewWrite cyc who value => Sys2Proof.Machine.execTimeSlewWrite cyc who value s
  | .eventDelivery cyc n => Sys2Proof.Machine.execEventDelivery cyc n s
  | .collatorRelease cyc => Sys2Proof.Machine.execCollatorRelease cyc s
  | .catalogueStream cyc n => Sys2Proof.Machine.execCatalogueStream cyc n s
  | .flashCatalogueWrite cyc ok => Sys2Proof.Machine.execFlashCatalogueWrite cyc ok s
  | .captureArm cyc who value => Sys2Proof.Machine.execCaptureArm cyc who value s
  | .captureDisarm cyc who value => Sys2Proof.Machine.execCaptureDisarm cyc who value s
  | .captureFreeze cyc => Sys2Proof.Machine.execCaptureFreeze cyc s
  | .captureFlashCopy cyc => Sys2Proof.Machine.execCaptureFlashCopy cyc s
  | .captureDataRead cyc => Sys2Proof.Machine.execCaptureDataRead cyc s
  | .frameReceive cyc p ago etype vid ide id fdf brs esi payload => Sys2Proof.Machine.execFrameReceive cyc p ago etype vid ide id fdf brs esi payload s
  | .tickMessageSend cyc who lane value => Sys2Proof.Machine.execTickMessageSend cyc who lane value s
  | .transmitStampRead cyc who p => Sys2Proof.Machine.execTransmitStampRead cyc who p s
  | .linkStateChange cyc p up => Sys2Proof.Machine.execLinkStateChange cyc p up s
  | .canErrorStateChange cyc c st tec rec_ => Sys2Proof.Machine.execCanErrorStateChange cyc c st tec rec_ s
  | .plcaBeaconLost cyc => Sys2Proof.Machine.execPlcaBeaconLost cyc s
  | .safetyCycle cyc sp levels => Sys2Proof.Machine.execSafetyCycle cyc sp levels s
  | .exchangeLoss cyc sp => Sys2Proof.Machine.execExchangeLoss cyc sp s
  | .testPulse cyc sp k lowA lowB dipA dipB readback => Sys2Proof.Machine.execTestPulse cyc sp k lowA lowB dipA dipB readback s
  | .inputDiscrepancy cyc sp n => Sys2Proof.Machine.execInputDiscrepancy cyc sp n s
  | .ss1Expiry cyc sp k => Sys2Proof.Machine.execSs1Expiry cyc sp k s
  | .safeOutputTest cyc sp o ok => Sys2Proof.Machine.execSafeOutputTest cyc sp o ok s
  | .aeddyReceive cyc => Sys2Proof.Machine.execAeddyReceive cyc s
  | .aeddyWatchdogExpiry cyc c => Sys2Proof.Machine.execAeddyWatchdogExpiry cyc c s
  | .aeddyTransmit cyc c => Sys2Proof.Machine.execAeddyTransmit cyc c s
  | .aeddyAck cyc who value => Sys2Proof.Machine.execAeddyAck cyc who value s
  | .sessionOpen cyc who value => Sys2Proof.Machine.execSessionOpen cyc who value s
  | .passwordCheckComplete cyc ok => Sys2Proof.Machine.execPasswordCheckComplete cyc ok s
  | .sessionClose cyc who value ok => Sys2Proof.Machine.execSessionClose cyc who value ok s
  | .sessionTimeout cyc ok => Sys2Proof.Machine.execSessionTimeout cyc ok s
  | .setPassword cyc who value ok => Sys2Proof.Machine.execSetPassword cyc who value ok s
  | .imageBegin cyc who value => Sys2Proof.Machine.execImageBegin cyc who value s
  | .stagingEraseComplete cyc ok => Sys2Proof.Machine.execStagingEraseComplete cyc ok s
  | .imagePageProgram cyc lane r ok => Sys2Proof.Machine.execImagePageProgram cyc lane r ok s
  | .imageVerify cyc who value => Sys2Proof.Machine.execImageVerify cyc who value s
  | .imageVerifyComplete cyc => Sys2Proof.Machine.execImageVerifyComplete cyc s
  | .imageCommit cyc who value logOk ok => Sys2Proof.Machine.execImageCommit cyc who value logOk ok s
  | .imageAbort cyc who value => Sys2Proof.Machine.execImageAbort cyc who value s
  | .imageReboot cyc who value => Sys2Proof.Machine.execImageReboot cyc who value s
  | .invalidImageCommand cyc who value => Sys2Proof.Machine.execInvalidImageCommand cyc who value s
  | .keyProgram cyc who value => Sys2Proof.Machine.execKeyProgram cyc who value s
  | .keyRevoke cyc who value => Sys2Proof.Machine.execKeyRevoke cyc who value s
  | .slotMachineRequest cyc who k value => Sys2Proof.Machine.execSlotMachineRequest cyc who k value s
  | .recoveryFrame cyc payload ok => Sys2Proof.Machine.execRecoveryFrame cyc payload ok s
  | .powerOn cyc sources => Sys2Proof.Machine.execPowerOn cyc sources s
  | .rstNAssert cyc => Sys2Proof.Machine.execRstNAssert cyc s
  | .vinAuxLow cyc => Sys2Proof.Machine.execVinAuxLow cyc s
  | .railFault cyc rail => Sys2Proof.Machine.execRailFault cyc rail s
  | .deviceReset cyc => Sys2Proof.Machine.execDeviceReset cyc s
  | .powerUpSequence cyc good => Sys2Proof.Machine.execPowerUpSequence cyc good s
  | .railRiseTimeout cyc => Sys2Proof.Machine.execRailRiseTimeout cyc s
  | .powerDownSequence cyc => Sys2Proof.Machine.execPowerDownSequence cyc s
  | .bootComplete cyc levels halls env => Sys2Proof.Machine.execBootComplete cyc levels halls env s
  | .crystalLoss cyc => Sys2Proof.Machine.execCrystalLoss cyc s
  | .crystalRestored cyc => Sys2Proof.Machine.execCrystalRestored cyc s
  | .sleepEntry cyc logOk => Sys2Proof.Machine.execSleepEntry cyc logOk s
  | .wakeSource cyc src late => Sys2Proof.Machine.execWakeSource cyc src late s
  | .wakeTimerExpiry cyc => Sys2Proof.Machine.execWakeTimerExpiry cyc s
  | .isolatedRailRecovery cyc ch => Sys2Proof.Machine.execIsolatedRailRecovery cyc ch s
  | .pumpFaultRecovery cyc leg => Sys2Proof.Machine.execPumpFaultRecovery cyc leg s
  | .driveSupplyRestored cyc => Sys2Proof.Machine.execDriveSupplyRestored cyc s
  | .vddaRestored cyc => Sys2Proof.Machine.execVddaRestored cyc s
  | .vinAuxRestored cyc => Sys2Proof.Machine.execVinAuxRestored cyc s
  | .pilotConstantLevel cyc level => Sys2Proof.Machine.execPilotConstantLevel cyc level s
  | .sessionLockoutExpiry cyc => Sys2Proof.Machine.execSessionLockoutExpiry cyc s
  | .timeSlewComplete cyc => Sys2Proof.Machine.execTimeSlewComplete cyc s
  | .frameTransmit cyc p ago => Sys2Proof.Machine.execFrameTransmit cyc p ago s
  | .heartbeatToggle cyc => Sys2Proof.Machine.execHeartbeatToggle cyc s
  | .bedrockSelfTestFail cyc => Sys2Proof.Machine.execBedrockSelfTestFail cyc s
  | .laneSramError cyc lane addr corrected => Sys2Proof.Machine.execLaneSramError cyc lane addr corrected s
  | .otherLanePartAccess cyc lane addr width write => Sys2Proof.Machine.execOtherLanePartAccess cyc lane addr width write s

end Sys2Proof.Machine
end

