-- ==== Sys2Proof/Safety.lean ====
section
/-! DEFINITION. What claims are stated in: the invariant that every step keeps, and what a command leaves as it was. -/

namespace Sys2Proof

/-- The commands that may write memory: lane SRAM, DRAM, the Archives or flash. -/
def Instr.touchesMemory (i : Instr) : Bool :=
  match i with
  | .tickBoundary _ => true
  | .accessionTakesEffect _ => true
  | .registerWrite _ _ _ _ => true
  | .lvcFaultRecordWrite _ _ => true
  | .checkpointStart _ _ => true
  | .checkpointComplete _ _ _ => true
  | .codeCheckComplete _ _ => true
  | .recoveryCheckpointLoad _ _ => true
  | .restoreComplete _ _ _ => true
  | .descriptorPost _ _ _ _ _ => true
  | .transactionIssue _ _ => true
  | .transactionComplete _ _ _ _ => true
  | .completionWrite _ _ _ => true
  | .ringResume _ _ _ _ => true
  | .ringGo _ _ _ _ => true
  | .crcScanBlock _ _ _ => true
  | .flashCatalogueWrite _ _ => true
  | .captureFlashCopy _ => true
  | .sessionOpen _ _ _ => true
  | .passwordCheckComplete _ _ => true
  | .sessionClose _ _ _ _ => true
  | .sessionTimeout _ _ => true
  | .setPassword _ _ _ _ => true
  | .imageBegin _ _ _ => true
  | .stagingEraseComplete _ _ => true
  | .imagePageProgram _ _ _ _ => true
  | .imageVerify _ _ _ => true
  | .imageVerifyComplete _ => true
  | .imageCommit _ _ _ _ _ => true
  | .imageAbort _ _ _ => true
  | .imageReboot _ _ _ => true
  | .invalidImageCommand _ _ _ => true
  | .recoveryFrame _ _ _ => true
  | .powerOn _ _ => true
  | .deviceReset _ => true
  | .powerDownSequence _ => true
  | .bootComplete _ _ _ _ => true
  | .sleepEntry _ _ => true
  | _ => false

namespace Machine

/-- The register file has its one canonical form: rising offsets, no register listed that holds its reset value. -/
def State.regsCanonical (s : State) : Prop := Cells.canonical (regReset s.m.variant) s.m.regs = true

/-- The register file and the memory have their canonical forms, so that equal contents are equal data. -/
def State.Inv (s : State) : Prop := s.regsCanonical ∧ Memory.wf s.mem = true

/-- Every byte of memory reads as before. -/
def SameMemory (s t : State) : Prop := ∀ a, Memory.read t.mem a = Memory.read s.mem a

/-- Every register reads as before but those listed, by offset in peripheral space. -/
def SameRegsBut (s t : State) (l : List Nat) : Prop := ∀ a, a ∉ l → t.m.rd a = s.m.rd a

/-- The machine with time moved on to cycle `cyc` of the tick, as every command first does (R376). -/
def State.at (s : State) (cyc : Nat) : Mach := s.m.advanceTo cyc

/-- Exactly the events `es`, in order, were raised (R378, R380). -/
def Raises (s t : State) (es : List Event) : Prop := t.m.time.raised = s.m.time.raised ++ es

/-- An event raised now: block code and class, slot (0xFF for none), data and ORIGIN (R15, R16, R381). -/
def eventAt (m : Mach) (code cls slot : Nat) (data : List Nat) (origin : Nat) : Event :=
  ⟨m.now, m.tickNow % 2 ^ 32, code, cls, origin, m.replayed origin, slot, data⟩

/-- Nothing but the listed registers changed among registers and memory, and no event was raised. -/
def Quiet (s t : State) (l : List Nat) : Prop := SameRegsBut s t l ∧ SameMemory s t ∧ Raises s t []

/-- The asynchronous input `x` of cycle `cyc` is what waits for accession, and its tick is that of R305. -/
def Enters (s t : State) (cyc : Nat) (x : AsyncIn) : Prop := t.m.lane.waiting = [(s.at cyc).entryOf (s.at cyc).accTickNow x]

/-- One F3 event for slot `k`, and its cause in accession with KIND 10 (R16, R309). -/
def SlotFault (s t : State) (cyc code k : Nat) (data : List Nat) : Prop :=
  Raises s t [eventAt (s.at cyc) code 3 k data 0] ∧ Enters s t cyc ⟨10, k, 0, 0, code, []⟩

/-- An event of this code, class and slot is among those raised since `s`. -/
def Tells (s t : State) (code cls slot : Nat) : Prop :=
  ∃ e ∈ t.m.time.raised.drop s.m.time.raised.length, e.code = code ∧ e.cls = cls ∧ e.slot = slot

/-- Nothing waits for accession, so that the next input has room (R305). -/
abbrev State.roomy (s : State) : Prop := s.m.lane.waiting = []

/-- A lane that is admitted and runs alone: its writes apply at once, in tick context or not (R302). -/
abbrev State.alone (s : State) (l : Lane) : Prop := s.m.admitted l = true ∧ s.m.pairedLive = false

/-- The lane whose writes to duty registers count, outside tick context and while it is admitted (R300, R302). -/
abbrev State.serves (s : State) (l : Lane) : Prop :=
  s.m.service = l ∧ s.m.inTick l = false ∧ (s.m.admitted l = true ∨ s.m.tick.running = false)

end Machine

end Sys2Proof
end

