-- ==== Sys2Proof/WellFormed.lean ====
section
/-! DEFINITION. Which operands the outside world can supply: a Nat operand that stands for a field of the hardware fits the
field. The meanings are total and do not rest on it. -/

namespace Sys2Proof

/-- A list of bytes, no longer than the largest Ethernet payload (R388). -/
def bytesOk (l : List Nat) : Bool := decide (l.length ≤ 1500) && l.all fun x => decide (x < 256)

/-- An entry's fields fit the journal entry of R308, and its kind is one of R309. -/
def AsyncIn.wf (i : AsyncIn) : Bool :=
  decide (i.kind < 16) && decide (i.src < 256) && decide (i.origin < 4) && decide (i.addr < 2 ^ 32) &&
    decide (i.value < 2 ^ 32) && bytesOk i.payload

/-- A temperature sensor of R486, and its code. -/
def TempReading.wf (t : TempReading) : Bool := decide (t.sensor < 20) && decide (t.ntc < 2 ^ 16)

/-- What comes at a boundary: each reading in order, one link voltage a slot. -/
def BoundaryIn.wf (e : BoundaryIn) : Bool := e.temps.all TempReading.wf && decide (e.udcB.length ≤ 16)

/-- A pair of GDI (16) or a leg of GDL (24). -/
def placeOk (iso : Bool) (i : Nat) : Bool := decide (i < if iso then 16 else 24)

/-- Times and voltages of a diagnostic fit 16 bits. -/
def DiagReading.wf (r : DiagReading) : Bool :=
  (([r.tMain, r.tHard, r.t15].all fun t => t.all fun v => decide (v < 2 ^ 16))) &&
    [r.v50, r.up, r.down, r.supply, r.others].all fun v => decide (v < 2 ^ 16)

/-- Writes to registers: offsets of peripheral space (R7). -/
def writesOk (l : List (Nat × Word)) : Bool := l.all fun w => decide (w.1 < 0x140000)

/-- The operands of a command are such as the hardware can be given. -/
def Instr.wf (i : Instr) : Bool :=
  match i with
  | .tickBoundary env => env.wf
  | .boundaryMissing _ => true
  | .accessionTakesEffect _ => true
  | .asyncInputArrival _ inA inB _ => inA.wf && inB.wf
  | .frameEmit _ _ _ => true
  | .emitDeadline _ => true
  | .tickTaskDeadline _ _ => true
  | .tickCmdDone _ _ _ => true
  | .tickCmdArm _ _ _ => true
  | .tickCmdClrovr _ _ _ => true
  | .tickCmdClrmarg _ _ _ => true
  | .tickContextAccess _ _ _ _ _ => true
  | .registerWrite _ _ _ _ => true
  | .narrowAccess _ _ _ _ _ => true
  | .outOfRegionAccess _ _ _ _ _ => true
  | .rsnLeadRead _ _ _ => true
  | .sysModeRequest _ _ _ => true
  | .modeRequestTimeout _ => true
  | .sequenceTrigger _ _ => true
  | .groupStart _ _ => true
  | .conversionComplete _ _ _ => true
  | .urgentRequest _ _ _ => true
  | .urgentConversionStart _ _ => true
  | .selfCheckConversion _ _ item _ => decide (item < 10)
  | .calibrationRequest _ _ _ => true
  | .calibrationComplete _ sums => sums.all fun p => decide (p.1 < 96) && decide (p.2 < 2 ^ 24)
  | .vddaLow _ => true
  | .resolverUpdate _ _ _ _ _ _ _ => true
  | .encoderCount _ _ _ _ => true
  | .zEdge _ _ => true
  | .sentFrame _ _ _ _ pulses => decide (pulses.length ≤ 9)
  | .ssiRead _ _ data _ => decide (data < 2 ^ 33)
  | .hallEdge _ _ _ => true
  | .positionLatch _ _ => true
  | .probeEdge _ _ _ => true
  | .lawPortWrite _ _ _ _ => true
  | .lawPortRead _ _ => true
  | .lawSwapRequest _ _ _ _ => true
  | .sectionPreset _ _ _ _ => true
  | .injectorStart _ _ _ _ => true
  | .injectorStop _ _ _ _ => true
  | .injectionDurationEnd _ _ => true
  | .injectionRampOutEnd _ _ => true
  | .oscillationWindowEnd _ _ _ => true
  | .lawMemoryError _ _ _ => true
  | .phaseCurrentSumFault _ _ _ => true
  | .polarityDetection _ _ _ => true
  | .sensorDivergence _ _ _ => true
  | .observerLoss _ _ _ => true
  | .observerReacquired _ _ _ => true
  | .reacquisitionFailed _ _ _ => true
  | .shortCircuitRelease _ _ _ => true
  | .injectionContrastLost _ _ _ => true
  | .modStart _ _ _ _ _ => true
  | .modStop _ _ _ _ _ => true
  | .flyingStartDecision _ _ _ => true
  | .stopComplete _ _ _ => true
  | .gateEdge _ iso i ext tm => placeOk iso i && decide (ext ≤ 400) && tm.all (fun t => decide (t < 2 ^ 16))
  | .stuckGate _ iso i => placeOk iso i
  | .shortCircuitDetection _ _ mv ns => decide (mv < 2 ^ 16) && decide (ns < 2 ^ 16)
  | .shortCircuitClassify _ _ => true
  | .gdiClear _ _ _ _ => true
  | .gdlClear _ _ _ _ => true
  | .overvoltageClamp _ => true
  | .clampRelease _ => true
  | .linkHardOvervoltage _ => true
  | .pumpFault _ _ => true
  | .refreshPulse _ _ => true
  | .highSideUndervoltage _ _ => true
  | .vdsOvercurrent _ _ mv => decide (mv < 2 ^ 16)
  | .gateDiagRequest _ _ _ _ => true
  | .gateDiagComplete _ gdl i h l => placeOk (!gdl) i && h.wf && l.wf
  | .isolatedRailUndervoltage _ _ => true
  | .barrierLoss _ _ => true
  | .driveSupplyLow _ => true
  | .lvcFastTrip _ _ => true
  | .lvcOutputOvervoltage _ => true
  | .lvcOutputShort _ => true
  | .lvcHiccupEnd _ => true
  | .lvcRetryClear _ => true
  | .lvcPrechargeTimeout _ => true
  | .lvcShedStart _ => true
  | .lvcBurstEntry _ => true
  | .lvcEnableWrite _ _ _ => true
  | .lvcClear _ _ _ => true
  | .lvcDiagRequest _ _ _ => true
  | .lvcDiagComplete _ _ _ _ => true
  | .lvcFaultRecordWrite _ _ => true
  | .chgStart _ _ _ => true
  | .chgStop _ _ _ => true
  | .chgTimerClear _ _ _ => true
  | .chgImpedanceRestart _ _ _ => true
  | .chgPulseWrite _ _ _ => true
  | .chgTimerWrite _ _ _ => true
  | .pilotPeriod _ _ _ freq duty => decide (freq < 2 ^ 16) && decide (duty ≤ 1000)
  | .proximityMeasurement _ _ => true
  | .bmsPermitChange _ _ => true
  | .sequenceTimeout _ => true
  | .pulsePhaseEnd _ => true
  | .stoppingRampEnd _ => true
  | .safetyTimerExpiry _ => true
  | .gridFault _ => true
  | .impedancePointEnd _ => true
  | .driveBlocked _ _ => true
  | .hallFault _ _ => true
  | .hallFaultClear _ _ => true
  | .pumpRetryEnd _ _ => true
  | .pumpCommandMeasurement _ _ _ _ _ => true
  | .actDriveRequest _ _ _ _ => true
  | .actPumpFaultClear _ _ _ _ => true
  | .actPumpSetpoint _ _ _ _ => true
  | .startCreditWait _ => true
  | .inboxRead _ _ _ => true
  | .journalRead _ _ => true
  | .checkpointStart _ _ => true
  | .checkpointComplete _ _ _ => true
  | .sieveFrameArrival _ _ _ _ => true
  | .sieveCutoff _ => true
  | .outgoingMessageSieve _ _ => true
  | .laneRecoveryStart _ _ => true
  | .codeCheckComplete _ _ => true
  | .recoveryCheckpointLoad _ _ => true
  | .laneAdmission _ _ => true
  | .recoveryTimeout _ _ => true
  | .bothLaneRestart _ => true
  | .crossLaneLinkLoss _ => true
  | .holdLimitReached _ _ => true
  | .restoreComplete _ _ _ => true
  | .replayTick _ wA wB last done => writesOk wA && writesOk wB && decide (last < 2 ^ 16) && decide (done < 2 ^ 16)
  | .resyncTick _ => true
  | .arrangementRequest _ _ _ => true
  | .arrangementHandover _ => true
  | .watchdogKick _ _ _ => true
  | .laneSelfFault _ _ _ => true
  | .watchdogExpiry _ _ => true
  | .dramError _ req _ sym => decide (req < 7) && sym.all (fun x => decide (x < 36))
  | .scrubLine _ => true
  | .refreshFailure _ _ => true
  | .descriptorPost _ _ _ _ _ => true
  | .transactionIssue _ _ => true
  | .transactionComplete _ _ _ _ => true
  | .completionWrite _ _ _ => true
  | .streamRecord _ _ _ => true
  | .ringResume _ _ _ _ => true
  | .ringAbort _ _ _ _ => true
  | .ringGo _ _ _ _ => true
  | .iotlbInvalidate _ _ _ _ => true
  | .crcStart _ _ _ _ => true
  | .crcCont _ _ _ _ => true
  | .crcStop _ _ _ _ => true
  | .crcScanBlock _ _ _ => true
  | .timeRateWrite _ _ _ => true
  | .timeSlewWrite _ _ _ => true
  | .eventDelivery _ _ => true
  | .collatorRelease _ => true
  | .catalogueStream _ n => decide (1 ≤ n) && decide (n ≤ 64)
  | .flashCatalogueWrite _ _ => true
  | .captureArm _ _ _ => true
  | .captureDisarm _ _ _ => true
  | .captureFreeze _ => true
  | .captureFlashCopy _ => true
  | .captureDataRead _ => true
  | .frameReceive _ _ _ etype vid ide id _ _ _ payload => decide (etype < 2 ^ 16) && vid.all (fun x => decide (x < 2 ^ 12)) && decide (id < if ide then 2 ^ 29 else 2 ^ 11) &&
      bytesOk payload
  | .tickMessageSend _ _ _ _ => true
  | .transmitStampRead _ _ _ => true
  | .linkStateChange _ _ _ => true
  | .canErrorStateChange _ _ _ _ _ => true
  | .plcaBeaconLost _ => true
  | .safetyCycle _ _ levels => decide (levels.length = 16)
  | .exchangeLoss _ _ => true
  | .testPulse _ _ _ _ _ _ _ _ => true
  | .inputDiscrepancy _ _ _ => true
  | .ss1Expiry _ _ _ => true
  | .safeOutputTest _ _ _ _ => true
  | .aeddyReceive _ => true
  | .aeddyWatchdogExpiry _ _ => true
  | .aeddyTransmit _ _ => true
  | .aeddyAck _ _ _ => true
  | .sessionOpen _ _ _ => true
  | .passwordCheckComplete _ _ => true
  | .sessionClose _ _ _ _ => true
  | .sessionTimeout _ _ => true
  | .setPassword _ _ _ _ => true
  | .imageBegin _ _ _ => true
  | .stagingEraseComplete _ _ => true
  | .imagePageProgram _ _ _ _ => true
  | .imageVerify _ _ _ => true
  | .imageVerifyComplete _ => true
  | .imageCommit _ _ _ _ _ => true
  | .imageAbort _ _ _ => true
  | .imageReboot _ _ _ => true
  | .invalidImageCommand _ _ _ => true
  | .keyProgram _ _ _ => true
  | .keyRevoke _ _ _ => true
  | .slotMachineRequest _ _ _ _ => true
  | .recoveryFrame _ payload _ => bytesOk payload
  | .powerOn _ _ => true
  | .rstNAssert _ => true
  | .vinAuxLow _ => true
  | .railFault _ _ => true
  | .deviceReset _ => true
  | .powerUpSequence _ _ => true
  | .railRiseTimeout _ => true
  | .powerDownSequence _ => true
  | .bootComplete _ levels halls env => decide (levels.length = 2) && decide (halls.length = 6) && halls.all (fun h => decide (h < 8)) && env.wf
  | .crystalLoss _ => true
  | .crystalRestored _ => true
  | .sleepEntry _ _ => true
  | .wakeSource _ _ _ => true
  | .wakeTimerExpiry _ => true
  | .isolatedRailRecovery _ _ => true
  | .pumpFaultRecovery _ _ => true
  | .driveSupplyRestored _ => true
  | .vddaRestored _ => true
  | .vinAuxRestored _ => true
  | .pilotConstantLevel _ _ => true
  | .sessionLockoutExpiry _ => true
  | .timeSlewComplete _ => true
  | .frameTransmit _ _ _ => true
  | .heartbeatToggle _ => true
  | .bedrockSelfTestFail _ => true
  | .laneSramError _ _ _ _ => true
  | .otherLanePartAccess _ _ _ _ _ => true

end Sys2Proof
end

