-- ==== Sys2Proof/Certificates/Slice0/Obligations.lean ====
section
/-! DEFINITION. The statements for the provers. Each says what a command's own effect is where it completes, and what it leaves
as it was; the hypotheses are on the state and the operands alone. Where an event's data appears, its layout follows the spec's
rules where they give one and log entry 20 where they give none; KIND 10 and the ORIGIN of events that no rule names follow log
entry 21. -/

open Sys2Proof Sys2Proof.Machine

/-! ### The block as a whole -/

/-- A step takes the command at the front of the queue and runs it on the state with the queue's rest; with nothing waiting the
block idles (log entry 4: the idle step is the model's choice). -/
def Obligations.StepRunsTheFrontCommand : Prop :=
  (∀ (c : Instr) (s : State) (rest : List Instr), s.pending = c :: rest → step s = exec c { s with pending := rest }) ∧
  (∀ s : State, s.pending = [] → step s = .next s)

/-- Every command of the table answers a next state, and none touches the queue of those that wait. -/
def Obligations.EveryCommandAnswersAndLeavesTheQueue : Prop :=
  ∀ (c : Instr) (s : State), ∃ t, exec c s = .next t ∧ t.pending = s.pending

/-- The canonical form of the register file and of the memory is kept by every step, from every state that has it. -/
def Obligations.EveryStepKeepsTheCanonicalForms : Prop :=
  ∀ s t : State, s.Inv → step s = .next t → t.Inv

/-- The commands that touch no memory leave every byte as it reads. -/
def Obligations.CommandsWithoutMemoryLeaveEveryByte : Prop :=
  ∀ (c : Instr) (s t : State), c.touchesMemory = false → exec c s = .next t → SameMemory s t

/-- After reset: the reset values that the field tables give for SYS_MODE_REQ, SYS_MODE_STAT, the TICK registers, SYS_UNITS and
SYS_ID; no command waits; both canonical forms hold. The identity is that of the PX-960, the model's choice (log entry 1). -/
def Obligations.ResetGivesTheTablesValues : Prop :=
  State.reset.Inv ∧ State.reset.pending = [] ∧
  State.reset.m.rd Reg.SYS_MODE_REQ = 1#32 ∧ State.reset.m.rd Reg.SYS_MODE_STAT = 0x10#32 ∧
  State.reset.m.rd Reg.TICK_PERIOD = 0x1F40#32 ∧ State.reset.m.rd Reg.TICK_DEADLINE = 0x1A90#32 ∧
  State.reset.m.rd Reg.TICK_LAWCAP = 0x1800#32 ∧
  (∀ l : Lane, State.reset.m.rd (Reg.TICK_TASKDL l.ix) = 0x1DB0#32 ∧ State.reset.m.rd (Reg.TICK_WARN l.ix) = 0x190#32 ∧
    State.reset.m.rd (Reg.TICK_MINMARG l.ix) = 0xFFFFFFFF#32) ∧
  State.reset.m.rd Reg.SYS_UNITS = 0x1FF#32 ∧ State.reset.m.rd Reg.SYS_ID = 0x09603C47#32

/-! ### Where a write of a device-wide register goes -/

/-- The answer is a next state in which nothing entered accession and nothing but LANE_NETSTAT, which counts the write, changed. -/
def WriteCounted (s : State) (o : Host.Outcome State Fault Refusal) : Prop :=
  ∃ t, o = .next t ∧ t.m.lane = s.m.lane ∧
    t.m.fld Reg.LANE_NETSTAT 15 0 = (s.m.fld Reg.LANE_NETSTAT 15 0 + 1) % 2 ^ 16 ∧ Quiet s t [Reg.LANE_NETSTAT]

/-- The answer is a next state in which the write stands last in lane `l`'s write list of the tick, and nothing else changed. -/
def WriteCollected (s : State) (l : Lane) (a : Nat) (w : Word) (o : Host.Outcome State Fault Refusal) : Prop :=
  ∃ t, o = .next t ∧ t.m.lane = s.m.lane ∧ (t.m.lanes.get l).writeList = (s.m.lanes.get l).writeList ++ [(a, w)] ∧ Quiet s t []

/-- A lane's write of `w` to the device-wide register `a` where it does not apply at once (R302): in tick context it is collected in
the lane's write list, of two lanes LIVE and paired and of a lane not admitted; outside it, that of the standby lane of such two, or
of a lane not admitted, is counted. -/
def RoutedElsewhere (s : State) (l : Lane) (a : Nat) (w : Word) (o : Host.Outcome State Fault Refusal) : Prop :=
  let barred := s.m.admitted l = false ∧ (s.m.laneCode l ≠ 0 ∨ s.m.tick.running = true)
  (s.m.inTick l = true → s.m.pairedLive = true ∨ barred → WriteCollected s l a w o) ∧
    (s.m.inTick l = false → (s.m.pairedLive = true ∧ s.m.active ≠ l) ∨ barred → WriteCounted s o)

/-- The answer is a next state in which nothing of the block changed but time. -/
def NothingDone (s : State) (o : Host.Outcome State Fault Refusal) : Prop :=
  ∃ t, o = .next t ∧ t.m.lane = s.m.lane ∧ t.m.lanes = s.m.lanes ∧ Quiet s t []

/-! ### The tick -/

/-- CLROVR clears TICK_OVRCNT and CLRMARG sets both margins to 0xFFFF, in the writer's own copy; a write to the other lane's copy
is told and changes nothing. ARM sets ARMED and changes nothing else; at the boundary of a tick by which both LIVE lanes of a paired
arrangement have armed, an entry of KIND 11 for that tick waits for accession. DONE ends the tick task: the lane leaves tick context
and takes its return pc, mstatus, mepc, mcause and mtval from TICK_SAVE, and the margin to TASKDL goes into the minimum; outside tick
context it does nothing. Past TASKDL without DONE the task is in overrun: event 0x0407 of class F2, TASKOVR, a count, a margin of 0,
and the lane is no longer admitted. Completes: TICK_CMD_CLROVR, TICK_CMD_CLRMARG, TICK_CMD_ARM, TICK_CMD_DONE, TICK_TASK_DEADLINE.
Data of event records beyond the spec's, and ORIGIN and KIND 10 where no rule names them, are the model's choice (log entries 20
and 21). -/
def Obligations.ArmDoneOverrunAndCountersOfTheTickTask : Prop :=
  (∀ (cyc : Nat) (l : Lane) (s : State),
     (∃ t, exec (.tickCmdClrovr cyc (.lane l) l) s = .next t ∧ t.m.rd (Reg.TICK_OVRCNT l.ix) = 0#32 ∧
       SameRegsBut s t [Reg.TICK_OVRCNT l.ix] ∧ SameMemory s t ∧ Raises s t []) ∧
     (∃ t, exec (.tickCmdClrmarg cyc (.lane l) l) s = .next t ∧ t.m.rd (Reg.TICK_MINMARG l.ix) = 0xFFFFFFFF#32 ∧
       SameRegsBut s t [Reg.TICK_MINMARG l.ix] ∧ SameMemory s t ∧ Raises s t []) ∧
     (∃ t, exec (.tickCmdClrovr cyc (.lane l.other) l) s = .next t ∧ SameRegsBut s t [] ∧ SameMemory s t ∧
       Raises s t [eventAt (s.at cyc) 0x0001 0 0xFF
         (accessRecord (physical (Reg.TICK_CMD l.ix)) (.lane l.other) true .word false 3) 0])) ∧
  (∀ (cyc : Nat) (l : Lane) (s : State),
     ∃ t, exec (.tickCmdArm cyc (.lane l) l) s = .next t ∧ t.m.bit (Reg.TICK_CTX l.ix) 1 = true ∧
       SameRegsBut s t [Reg.TICK_CTX l.ix] ∧ t.m.tick = s.m.tick ∧ t.m.lane = s.m.lane ∧ SameMemory s t ∧ Raises s t [] ∧
       (s.m.bit (Reg.TICK_CTX l.ix) 1 = true → SameRegsBut s t [])) ∧
  (∀ (m : Mach) (n : Nat), m.arr = 1 → m.tick.begun = false → m.live .a = true → m.live .b = true → m.lane.waiting = [] →
     m.bit (Reg.TICK_CTX 0) 1 = true → m.bit (Reg.TICK_CTX 1) 1 = true →
     (m.tasksBegin n).lane.waiting = [m.entryOf n ⟨11, 0, 0, 0, 0, []⟩]) ∧
  (∀ (cyc : Nat) (l : Lane) (s : State),
     (s.m.inTick l = true → (s.at cyc).time.cyc ≤ s.m.fld (Reg.TICK_TASKDL l.ix) 15 0 →
       ∃ t, exec (.tickCmdDone cyc (.lane l) l) s = .next t ∧ t.m.inTick l = false ∧ (t.m.tl l).cpu = s.m.savedContext l ∧
         (t.m.tl l).doneAt = some (s.at cyc).time.cyc ∧
         t.m.fld (Reg.TICK_MINMARG l.ix) 31 16 = min (s.m.fld (Reg.TICK_MINMARG l.ix) 31 16)
           (s.m.fld (Reg.TICK_TASKDL l.ix) 15 0 - (s.at cyc).time.cyc) ∧
         SameRegsBut s t [Reg.TICK_CTX l.ix, Reg.TICK_MINMARG l.ix] ∧ SameMemory s t ∧ Raises s t []) ∧
     (s.m.inTick l = false →
       ∃ t, exec (.tickCmdDone cyc (.lane l) l) s = .next t ∧ Quiet s t [] ∧ t.m.tick = s.m.tick)) ∧
  (∀ (cyc : Nat) (l : Lane) (s : State),
     s.m.inTick l = true → (s.m.tl l).taskOverrun = false → s.m.fld (Reg.TICK_TASKDL l.ix) 15 0 ≤ (s.at cyc).time.cyc →
     ∃ t, exec (.tickTaskDeadline cyc l) s = .next t ∧ Raises s t [eventAt (s.at cyc) 0x0407 2 0xFF [] l.origin] ∧
       t.m.bit (Reg.TICK_IRQ_STAT l.ix) 2 = true ∧ t.m.fld (Reg.TICK_MINMARG l.ix) 31 16 = 0 ∧
       t.m.fld (Reg.TICK_OVRCNT l.ix) 31 16 = min (s.m.fld (Reg.TICK_OVRCNT l.ix) 31 16 + 1) 0xFFFF ∧
       t.m.admitted l = false ∧
       SameRegsBut s t [Reg.TICK_IRQ_STAT l.ix, Reg.TICK_MINMARG l.ix, Reg.TICK_OVRCNT l.ix, healthReg l] ∧ SameMemory s t)

/-- A frame that leaves Emit by the deadline goes to the Sieve as it is; after the deadline it goes marked OVERRUN, and the slot's
overrun is told with event 0x0401 of class F2, so that the lane is no longer admitted. At the deadline every slot whose frame has not
left is in overrun, which a lane's tick counts once; a lane whose slots have all left, or whose pipeline does not run, is as before.
A boundary missing for 1.5 periods is an F4, which demands SAFE_HOLD. Completes: FRAME_EMIT, EMIT_DEADLINE, BOUNDARY_MISSING. Data of
event records beyond the spec's, and ORIGIN and KIND 10 where no rule names them, are the model's choice (log entries 20 and 21). -/
def Obligations.EmitDeadlineAndMissingBoundary : Prop :=
  (∀ (cyc : Nat) (l : Lane) (k : Fin 16) (s : State) (f : Frame),
    (s.m.modSlot l k).frame = some f → s.m.pipeRuns l = true → (s.m.unsent l).contains k.val = true →
    (s.at cyc).time.cyc ≤ s.m.deadline →
    ∃ t, exec (.frameEmit cyc l k) s = .next t ∧ t.m.lane = { s.m.lane with inFlight := s.m.lane.inFlight ++ [(l, { f with overrun := false })] } ∧
      (t.m.tl l).emitted = (s.m.tl l).emitted ++ [k.val] ∧ (t.m.tl l).lastEmit = (s.at cyc).time.cyc ∧
      t.m.tl l.other = s.m.tl l.other ∧
      SameRegsBut s t [Reg.TICK_IRQ_STAT l.ix, Reg.TICK_MINMARG l.ix, healthReg l] ∧ SameMemory s t) ∧
  (∀ (cyc : Nat) (l : Lane) (k : Fin 16) (s : State) (f : Frame),
    (s.m.modSlot l k).frame = some f → s.m.pipeRuns l = true → (s.m.unsent l).contains k.val = true →
    s.m.deadline < (s.at cyc).time.cyc →
    ∃ t, exec (.frameEmit cyc l k) s = .next t ∧ t.m.lane = { s.m.lane with inFlight := s.m.lane.inFlight ++ [(l, { f with overrun := true })] } ∧
      (t.m.tl l).emitted = (s.m.tl l).emitted ++ [k.val] ∧ k.val ∈ (t.m.tl l).overran ∧ Tells s t 0x0401 2 k ∧
      t.m.admitted l = false ∧ t.m.bit (Reg.TICK_IRQ_STAT l.ix) 1 = true ∧
      SameRegsBut s t [Reg.TICK_OVRCNT l.ix, Reg.TICK_IRQ_STAT l.ix, Reg.TICK_MINMARG l.ix, healthReg l] ∧ SameMemory s t) ∧
  (∀ (cyc : Nat) (s : State), s.m.deadline ≤ (s.at cyc).time.cyc →
    ∃ t, exec (.emitDeadline cyc) s = .next t ∧ Raises s t [] ∧ t.m.lane = s.m.lane ∧
      SameRegsBut s t [Reg.TICK_OVRCNT 0, Reg.TICK_MINMARG 0, Reg.TICK_OVRCNT 1, Reg.TICK_MINMARG 1] ∧ SameMemory s t ∧
      ∀ l : Lane,
        (s.m.pipeRuns l = true → ∀ k ∈ s.m.unsent l, k ∈ (t.m.tl l).overran) ∧
        (s.m.pipeRuns l = true → s.m.unsent l ≠ [] → (s.m.tl l).overran = [] →
          t.m.fld (Reg.TICK_OVRCNT l.ix) 15 0 = min (s.m.fld (Reg.TICK_OVRCNT l.ix) 15 0 + 1) 0xFFFF ∧
          t.m.fld (Reg.TICK_MINMARG l.ix) 15 0 = 0) ∧
        (s.m.pipeRuns l = false ∨ s.m.unsent l = [] →
          t.m.tl l = s.m.tl l ∧ t.m.rd (Reg.TICK_OVRCNT l.ix) = s.m.rd (Reg.TICK_OVRCNT l.ix) ∧
          t.m.rd (Reg.TICK_MINMARG l.ix) = s.m.rd (Reg.TICK_MINMARG l.ix))) ∧
  (∀ (cyc : Nat) (s : State),
    s.m.tick.running = true → 3 * s.m.period ≤ 2 * (s.at cyc).time.cyc → s.m.mode ≠ .safeHold → s.m.sys.f4 = none →
    ∃ t, exec (.boundaryMissing cyc) s = .next t ∧ Raises s t [eventAt (s.at cyc) 0x0406 4 0xFF [] 0] ∧
      t.m.sys = { s.m.sys with f4 := some 0x0406 } ∧ t.m.mode = s.m.mode ∧ t.m.tick = s.m.tick ∧
      SameRegsBut s t [Reg.PWR_STATUS] ∧ SameMemory s t)

/-- The registers of a lane's copy of the TICK block. -/
def tickCopy (l : Lane) : List Nat :=
  [Reg.TICK_VEC_LO l.ix, Reg.TICK_VEC_HI l.ix, Reg.TICK_TASKDL l.ix, Reg.TICK_WARN l.ix, Reg.TICK_PREDICT l.ix, Reg.TICK_LAST l.ix,
    Reg.TICK_MINMARG l.ix, Reg.TICK_OVRCNT l.ix, Reg.TICK_CMD l.ix, Reg.TICK_CTX l.ix, Reg.TICK_IRQ_STAT l.ix,
    Reg.TICK_IRQ_EN l.ix] ++ (List.range 10).map (Reg.TICK_SAVE l.ix)

/-- A lane's write to the other lane's copy of the TICK block is ignored and raises event 0x0001 (F0), the commands of TICK_CMD
among them. The safety processor's writes to the TICK block are ignored. -/
def Obligations.TickWritesToTheOtherCopyAreIgnored : Prop :=
  (∀ (cyc a : Nat) (l : Lane) (v : Word) (s : State) (c : Instr), a ∈ tickCopy l.other →
    c = .registerWrite cyc (.lane l) (BitVec.ofNat 40 (physical a)) v ∨
      (a = Reg.TICK_CMD l.other.ix ∧ (c = .tickCmdArm cyc (.lane l) l.other ∨ c = .tickCmdDone cyc (.lane l) l.other ∨
        c = .tickCmdClrovr cyc (.lane l) l.other ∨ c = .tickCmdClrmarg cyc (.lane l) l.other)) →
    ∃ t, exec c s = .next t ∧ SameRegsBut s t [] ∧ SameMemory s t ∧ t.m.tick = s.m.tick ∧
      ∃ data, Raises s t [eventAt (s.at cyc) 0x0001 0 0xFF data 0]) ∧
  (∀ (cyc off : Nat) (l : Lane) (v : Word) (s : State) (c : Instr), off < 0x4000 →
    c ∈ [.registerWrite cyc .safety (BitVec.ofNat 40 (physical (0x10000 + 4 * off))) v, .tickCmdArm cyc .safety l,
      .tickCmdDone cyc .safety l, .tickCmdClrovr cyc .safety l, .tickCmdClrmarg cyc .safety l] →
    ∃ t, exec c s = .next t ∧ Quiet s t [] ∧ t.m.tick = s.m.tick)

/-! ### Accesses, registers and the mode -/

/-- An access outside every region, one to peripheral space that is no whole aligned word, a lane processor's access to the other
lane's DRAM part, and a tick-context access outside lane SRAM and peripheral space all return an access fault to the requester and
are told; nothing else changes but ACCESS, or the lane's health and its admission. A tick-context access outside every region is told
under both rules. What these rules do not name is no fault: a whole aligned word, an access inside a region, one to a part that is
not the other lane's, and a tick-context access to the lane's own SRAM or peripheral space complete and change nothing by themselves.
Completes: OUT_OF_REGION_ACCESS, NARROW_ACCESS, OTHER_LANE_PART_ACCESS, TICK_CONTEXT_ACCESS. Data of event records beyond the spec's,
and ORIGIN and KIND 10 where no rule names them, are the model's choice (log entries 20 and 21). -/
def Obligations.FaultingAccessesAreAnsweredAndTold : Prop :=
  (∀ (cyc : Nat) (req : Requester) (addr : BitVec 40) (w : Width) (write : Bool) (s : State), regionOf addr.toNat = .none →
    ∃ t, exec (.outOfRegionAccess cyc req addr w write) s = .next t ∧ t.m.reply = .accessFault ∧
      Raises s t [eventAt (s.at cyc) 0x0001 0 0xFF (accessRecord addr.toNat req write w (addr.toNat % widthBytes w != 0) 1) 0] ∧
      t.m.rd Reg.SYS_IRQ_STAT = s.m.rd Reg.SYS_IRQ_STAT ||| 8#32 ∧ SameRegsBut s t [Reg.SYS_IRQ_STAT] ∧ SameMemory s t) ∧
  (∀ (cyc : Nat) (req : Requester) (addr : BitVec 40) (w : Width) (write : Bool) (s : State),
    regionOf addr.toNat = .peripheral → w ≠ .word ∨ addr.toNat % 4 ≠ 0 →
    ∃ t, exec (.narrowAccess cyc req addr w write) s = .next t ∧ t.m.reply = .accessFault ∧
      Raises s t [eventAt (s.at cyc) 0x0001 0 0xFF (accessRecord addr.toNat req write w (addr.toNat % widthBytes w != 0) 2) 0] ∧
      t.m.rd Reg.SYS_IRQ_STAT = s.m.rd Reg.SYS_IRQ_STAT ||| 8#32 ∧ SameRegsBut s t [Reg.SYS_IRQ_STAT] ∧ SameMemory s t) ∧
  (∀ (cyc : Nat) (req : Requester) (addr : BitVec 40) (w : Width) (write : Bool) (s : State), regionOf addr.toNat ≠ .none →
    ∃ t, exec (.outOfRegionAccess cyc req addr w write) s = .next t ∧ t.m.reply = s.m.reply ∧ Quiet s t []) ∧
  (∀ (cyc : Nat) (req : Requester) (addr : BitVec 40) (w : Width) (write : Bool) (s : State),
    regionOf addr.toNat ≠ .peripheral ∨ (w = .word ∧ addr.toNat % 4 = 0) →
    ∃ t, exec (.narrowAccess cyc req addr w write) s = .next t ∧ t.m.reply = s.m.reply ∧ Quiet s t []) ∧
  (∀ (cyc : Nat) (l : Lane) (addr : BitVec 32) (w : Width) (write : Bool) (s : State),
    s.m.partOf addr.toNat = some l.other → s.m.inTick l = false →
    ∃ t, exec (.otherLanePartAccess cyc l addr w write) s = .next t ∧ t.m.reply = .accessFault ∧
      Raises s t [eventAt (s.at cyc) 0x0001 0 0xFF (accessRecord addr.toNat (.lane l) write w (addr.toNat % widthBytes w != 0) 4) 0] ∧
      SameRegsBut s t [] ∧ SameMemory s t) ∧
  (∀ (cyc : Nat) (l : Lane) (addr : BitVec 32) (w : Width) (write : Bool) (s : State),
    s.m.partOf addr.toNat = some l.other → s.m.inTick l = true →
    ∃ t, exec (.otherLanePartAccess cyc l addr w write) s = .next t ∧ t.m.reply = .accessFault ∧
      Raises s t [eventAt (s.at cyc) 0x0408 2 0xFF [] l.origin] ∧ t.m.admitted l = false ∧
      SameRegsBut s t [healthReg l] ∧ SameMemory s t) ∧
  (∀ (cyc : Nat) (l : Lane) (addr : BitVec 32) (w : Width) (write : Bool) (s : State), s.m.partOf addr.toNat ≠ some l.other →
    ∃ t, exec (.otherLanePartAccess cyc l addr w write) s = .next t ∧ t.m.reply = s.m.reply ∧ Quiet s t []) ∧
  (∀ (cyc : Nat) (l : Lane) (addr : BitVec 40) (w : Width) (write : Bool) (s : State),
    s.m.inTick l = true → regionOf addr.toNat ≠ .sram l → regionOf addr.toNat ≠ .peripheral → regionOf addr.toNat ≠ .none →
    ∃ t, exec (.tickContextAccess cyc l addr w write) s = .next t ∧ t.m.reply = .accessFault ∧
      Raises s t [eventAt (s.at cyc) 0x0408 2 0xFF [] l.origin] ∧ t.m.admitted l = false ∧
      SameRegsBut s t [healthReg l] ∧ SameMemory s t) ∧
  (∀ (cyc : Nat) (l : Lane) (addr : BitVec 40) (w : Width) (write : Bool) (s : State),
    s.m.inTick l = true → regionOf addr.toNat = .none →
    ∃ t, exec (.tickContextAccess cyc l addr w write) s = .next t ∧ t.m.reply = .accessFault ∧
      Raises s t [eventAt (s.at cyc) 0x0001 0 0xFF (accessRecord addr.toNat (.lane l) write w (addr.toNat % widthBytes w != 0) 1) 0,
        eventAt (s.at cyc) 0x0408 2 0xFF [] l.origin] ∧ t.m.admitted l = false ∧
      t.m.rd Reg.SYS_IRQ_STAT = s.m.rd Reg.SYS_IRQ_STAT ||| 8#32 ∧
      SameRegsBut s t [healthReg l, Reg.SYS_IRQ_STAT] ∧ SameMemory s t) ∧
  (∀ (cyc : Nat) (l : Lane) (addr : BitVec 40) (w : Width) (write : Bool) (s : State),
    s.m.inTick l = false ∨ regionOf addr.toNat = .sram l ∨ regionOf addr.toNat = .peripheral →
    ∃ t, exec (.tickContextAccess cyc l addr w write) s = .next t ∧ t.m.reply = s.m.reply ∧ t.m.lanes = s.m.lanes ∧ Quiet s t [])

/-- The interrupt enable registers of the device-wide blocks with their enable bits, beside the status registers that clear by
writing 1. -/
def irqPairs : List (Nat × Nat × Nat) :=
  [(Reg.SYS_IRQ_STAT, Reg.SYS_IRQ_EN, 0xF), (Reg.ACQ_IRQ_STAT, Reg.ACQ_IRQ_EN, 0x3F), (Reg.POS_IRQ_STAT, Reg.POS_IRQ_EN, 0x3F),
    (Reg.GDI_IRQ_STAT, Reg.GDI_IRQ_EN, 0x1FF), (Reg.GDL_IRQ_STAT, Reg.GDL_IRQ_EN, 0x3F),
    (Reg.LVC_IRQ_STAT, Reg.LVC_IRQ_EN, 0x7FF), (Reg.ACT_IRQ_STAT, Reg.ACT_IRQ_EN, 0x3F),
    (Reg.TIME_IRQ_STAT, Reg.TIME_IRQ_EN, 0xF), (Reg.SAFE_IRQ_STAT, Reg.SAFE_IRQ_EN, 0xFF),
    (Reg.IMG_IRQ_STAT, Reg.IMG_IRQ_EN, 0x1F), (Reg.PWR_IRQ_STAT, Reg.PWR_IRQ_EN, 0x7F)]

/-- A lane that runs alone writes an interrupt enable register: its enable bits take the value and reserved bits stay; a write to a status
register clears the bits written 1, but for those that hardware set in the same cycle. A read-only register, an offset where no register
lies, and a locked register keep their values, the locked one with event 0x0006. Outside tick context, reading the lead TICK_SEQ_LO
answers it and latches its group for that reader: TICK_T0_LO, read next, answers what it held at the first read. Completes:
REGISTER_WRITE, RSN_LEAD_READ. Data of event records beyond the spec's, and ORIGIN and KIND 10 where no rule names them, are the model's
choice (log entries 20 and 21). -/
def Obligations.RegistersByAccessTypeAndSnapshots : Prop :=
  (∀ (cyc : Nat) (l : Lane) (v : Word) (s : State) (stat en mask : Nat), s.alone l → (stat, en, mask) ∈ irqPairs →
    (∃ t, exec (.registerWrite cyc (.lane l) (BitVec.ofNat 40 (physical en)) v) s = .next t ∧
      t.m.rd en = (s.m.rd en &&& ~~~BitVec.ofNat 32 mask) ||| (v &&& BitVec.ofNat 32 mask) ∧
      SameRegsBut s t [en] ∧ SameMemory s t ∧ Raises s t []) ∧
    (∃ t, exec (.registerWrite cyc (.lane l) (BitVec.ofNat 40 (physical stat)) v) s = .next t ∧
      t.m.rd stat = s.m.rd stat &&& ~~~(v &&& BitVec.ofNat 32 mask &&& ~~~BitVec.ofNat 32 ((s.at cyc).setBits stat)) ∧
      SameRegsBut s t [stat] ∧ SameMemory s t ∧ Raises s t [])) ∧
  (∀ (cyc : Nat) (who : Writer) (v : Word) (s : State) (a : Nat),
    a ∈ [Reg.SYS_ID, Reg.SYS_UNITS, Reg.SYS_MODE_STAT, Reg.TICK_SEQ_LO, Reg.TICK_DEADLINE, 0x00050, 0x13FFFC] →
    ∃ t, exec (.registerWrite cyc who (BitVec.ofNat 40 (physical a)) v) s = .next t ∧
      SameRegsBut s t [] ∧ SameMemory s t ∧ Raises s t []) ∧
  (∀ (cyc : Nat) (l : Lane) (v : Word) (s : State), s.alone l → s.m.locked = true →
    ∃ t, exec (.registerWrite cyc (.lane l) (BitVec.ofNat 40 (physical Reg.TICK_PERIOD)) v) s = .next t ∧
      Raises s t [eventAt (s.at cyc) 0x0006 0 0xFF (leBytes 5 (physical Reg.TICK_PERIOD)) 0] ∧
      SameRegsBut s t [] ∧ SameMemory s t) ∧
  (∀ (cyc : Nat) (who : Writer) (s : State), s.m.readerInTick who = false →
     ∃ t, exec (.rsnLeadRead cyc who (BitVec.ofNat 40 (physical Reg.TICK_SEQ_LO))) s = .next t ∧
       t.m.reply = .data (s.m.rd Reg.TICK_SEQ_LO) ∧ t.m.latched who.ix Reg.TICK_SEQ_LO Reg.TICK_T0_LO = s.m.rd Reg.TICK_T0_LO ∧
       SameRegsBut s t [] ∧ SameMemory s t ∧ Raises s t [] ∧
       ∀ (c : Nat) (t' u : State), t'.m.snaps = t.m.snaps → t'.m.variant = t.m.variant →
         exec (.rsnLeadRead c who (BitVec.ofNat 40 (physical Reg.TICK_T0_LO))) t' = .next u →
         u.m.reply = .data (s.m.rd Reg.TICK_T0_LO))

/-- A mode request is an asynchronous input: a lane's request waits for its accession tick and changes no register; of two lanes LIVE and
paired it is collected or counted as every device-wide write; the values 6 and 7 are recorded as invalid; the safety processor may ask for
SAFE_HOLD and nothing else. A request that has waited REQTMO ticks ends with refusal 3 and event 0x0003, in the mode it found, and not
before. Completes: SYS_MODE_REQUEST, MODE_REQUEST_TIMEOUT. Data of event records beyond the spec's, and ORIGIN and KIND 10 where no rule
names them, are the model's choice (log entries 20 and 21). -/
def Obligations.ModeRequestsWaitAndTimeOut : Prop :=
  (∀ (cyc : Nat) (l : Lane) (v : Word) (s : State), s.m.route l = .now → s.roomy → v.bits 2 0 ≤ 5 →
    ∃ t e, exec (.sysModeRequest cyc (.lane l) v) s = .next t ∧ t.m.lane.waiting = [e] ∧ e.kind = 1 ∧ e.origin = l.origin ∧
      e.addr = physical Reg.SYS_MODE_REQ % 2 ^ 32 ∧ e.value = v.bits 2 0 ∧ SameRegsBut s t [] ∧ SameMemory s t ∧ Raises s t []) ∧
  (∀ (cyc : Nat) (l : Lane) (v : Word) (s : State), v.bits 2 0 ≤ 5 →
    RoutedElsewhere s l Reg.SYS_MODE_REQ (BitVec.ofNat 32 (v.bits 2 0)) (exec (.sysModeRequest cyc (.lane l) v) s)) ∧
  (∀ (cyc : Nat) (who : Writer) (v : Word) (s : State), 5 < v.bits 2 0 ∨ (who = .safety ∧ v.bits 2 0 ≠ 5) →
    ∃ t, exec (.sysModeRequest cyc who v) s = .next t ∧ t.m.lane = s.m.lane ∧ SameRegsBut s t [] ∧ SameMemory s t ∧
      Raises s t [eventAt (s.at cyc) 0x0001 0 0xFF (accessRecord (physical Reg.SYS_MODE_REQ) who.requester true .word false 5) 0]) ∧
  (∀ (cyc : Nat) (v : Word) (s : State), s.roomy → v.bits 2 0 = 5 →
    ∃ t e, exec (.sysModeRequest cyc .safety v) s = .next t ∧ t.m.lane.waiting = [e] ∧ e.kind = 1 ∧ e.origin = 3 ∧ e.value = 5 ∧
      e.addr = physical Reg.SYS_MODE_REQ % 2 ^ 32 ∧ SameRegsBut s t [] ∧ SameMemory s t ∧ Raises s t []) ∧
  (∀ (cyc : Nat) (s : State),
    let due := s.m.pendingTarget ≠ 7 ∧ s.m.fld Reg.PWR_MODECFG 15 0 ≤ s.m.sys.waited
    (due → ∃ t, exec (.modeRequestTimeout cyc) s = .next t ∧ t.m.fld Reg.SYS_MODE_STAT 15 12 = 3 ∧ t.m.modePending = false ∧
      t.m.mode = s.m.mode ∧ Raises s t [eventAt (s.at cyc) 0x0003 0 0xFF [3] 0] ∧
      SameRegsBut s t [Reg.SYS_MODE_STAT, Reg.SYS_IRQ_STAT] ∧ SameMemory s t) ∧
    (¬due → ∃ t, exec (.modeRequestTimeout cyc) s = .next t ∧ t.m.sys = s.m.sys ∧ Quiet s t []))

/-- While a tick runs, a boundary outside SLEEP closes the tick, counts the next one and stamps it, and then does its work in the
order of its steps: mode, inputs, commands, evaluation and freeze, frames, and the passes of the new tick; one outside the window of R41 is
an F4 first, told with 0x0406. In SLEEP it is the device's way into SLEEP. A boundary while no tick runs moves nothing but time; an entry
that still waits for the tick under way takes effect when its row says so, as the start of the tick tasks does. Completes: TICK_BOUNDARY,
ACCESSION_TAKES_EFFECT. Data of event records beyond the spec's, and ORIGIN and KIND 10 where no rule names them, are the model's choice
(log entries 20 and 21). -/
def Obligations.BoundaryWorkInOrder : Prop :=
  (∀ (env : BoundaryIn) (s : State), s.m.tick.running = true → s.m.mode ≠ .sleep →
     let begins := s.at s.m.period
     let closed := (if begins.boundaryInWindow env.bedrockNs then begins else begins.boundaryFault).endOfTick
     let n := closed.seq + 1
     let mode := (closed.stampTick n).boundaryMode s.mem n env
     let inputs := mode.1.boundaryInputs mode.2 n
     let frozen := (inputs.1.boundaryCommands n).boundaryFreeze n env
     let framed := ((frozen.framesLoad n env.udcB).safePeaks).captureLine closed.time.evcnt
     ∃ t, exec (.tickBoundary env) s = .next t ∧ t.m = ((framed.clearSieve.enterTick.passes n).slewDone).settle ∧
       t.mem = inputs.2 ∧ (closed.stampTick n).seq = n % 2 ^ 64 ∧ (closed.stampTick n).t0 = closed.now % 2 ^ 64 ∧
       (closed.stampTick n).time.cyc = 0 ∧
       (begins.boundaryInWindow env.bedrockNs = false → closed.sys.f4 = some (s.m.sys.f4.getD 0x0406) ∧
         eventAt begins 0x0406 4 0xFF [] 0 ∈ closed.time.raised)) ∧
  (∀ (env : BoundaryIn) (s : State), s.m.tick.running = true → s.m.mode = .sleep →
    exec (.tickBoundary env) s = exec (.sleepEntry s.m.period env.logOk) s ∧
      ∃ t, exec (.tickBoundary env) s = .next t ∧ t.m.tick.running = false ∧ t.m.pwr.phase = .falling) ∧
  (∀ (env : BoundaryIn) (s : State), s.m.tick.running = false →
    ∃ t, exec (.tickBoundary env) s = .next t ∧ Quiet s t [] ∧ t.m.tick = s.m.tick ∧ t.m.lane = s.m.lane) ∧
  (∀ (cyc : Nat) (s : State) (e : JEntry), s.m.tick.running = true → s.m.lane.waiting = [e] → e.kind = 11 → e.accTick ≤ s.m.seq →
    ∃ t, exec (.accessionTakesEffect cyc) s = .next t ∧ t.m.tick.begun = true ∧ t.m.lane.waiting = [] ∧
      SameRegsBut s t [] ∧ SameMemory s t ∧ Raises s t [])

/-- Bedrock's fixed rules permit only these transitions, whatever the image's table contains: STANDBY to SLEEP with IDLE set and
FLASHBUSY clear, to DRIVE, to CHARGE with ENGAGED set, to SERVICE; DRIVE to STANDBY, and to CHARGE with ENGAGED set; CHARGE to
STANDBY and DRIVE; SERVICE to STANDBY; SAFE_HOLD to STANDBY by request under R475; any mode to SAFE_HOLD. The mode is decided at
step 1 of the boundary. -/
def Obligations.TheModeMovesOnlyAlongFixedTransitions : Prop :=
  ∀ (m : Mach) (mem : List Host.Cell) (n : Nat) (env : BoundaryIn),
    let t := (m.boundaryMode mem n env).1
    t.mode = m.mode ∨ t.mode = .safeHold ∨
    (m.mode = .standby ∧ t.mode = .sleep ∧ m.idleCond = true ∧ m.flashBusy = false) ∨
    (m.mode = .standby ∧ t.mode = .drive) ∨
    (m.mode = .standby ∧ t.mode = .charge ∧ m.act.engaged = true) ∨
    (m.mode = .standby ∧ t.mode = .service) ∨
    (m.mode = .drive ∧ t.mode = .standby) ∨
    (m.mode = .drive ∧ t.mode = .charge ∧ m.act.engaged = true) ∨
    (m.mode = .charge ∧ t.mode = .standby) ∨
    (m.mode = .charge ∧ t.mode = .drive) ∨
    (m.mode = .service ∧ t.mode = .standby) ∨
    (m.mode = .safeHold ∧ t.mode = .standby ∧ m.sys.f4 = none ∧ m.sys.holdByF4 = false ∧ m.safeStarted = true ∧
      m.holdsReleased = true ∧ (m.live .a = true ∨ m.live .b = true) ∧ (m.pendingTarget = 1 ∨ m.sys.held = some 1))

/-! ### Acquisition -/

/-- A trigger at a trigger instant of its sequence starts a run; when it cuts off a run with entries still to give up, the truncation
is counted and told. A ready group starts with one sample instant, the longest acquisition time ahead. A conversion completes in the
64th cycle after its sample instant, with the code nearest to the input's voltage, and frees its converter: the sample goes to its
accumulator, is discarded while VDDA is low, and marks the accumulator where the converter has failed. An urgent conversion starts on
a free converter for the first request that waits. Completes: SEQUENCE_TRIGGER, GROUP_START, CONVERSION_COMPLETE,
URGENT_CONVERSION_START. Data of event records beyond the spec's, and ORIGIN and KIND 10 where no rule names them, are the model's
choice (log entries 20 and 21). -/
def Obligations.SequencesAndConversions : Prop :=
  (∀ (cyc : Nat) (q : Fin 16) (s : State), q ≠ 15 → s.m.tick.running = true → s.m.mode ≠ .sleep →
    (s.at cyc).trigsNow q = true → (s.m.seqRun q).active = false →
    ∃ t, exec (.sequenceTrigger cyc q) s = .next t ∧
      t.m.acq = { s.m.acq with runs := upd s.m.acq.runs q fun r => ⟨true, false, 0, 0, [], r.sampleAt⟩ } ∧ Quiet s t []) ∧
  (∀ (cyc : Nat) (q : Fin 16) (s : State), q ≠ 15 → s.m.tick.running = true → s.m.mode ≠ .sleep →
    (s.at cyc).trigsNow q = true → (s.m.seqRun q).active = true → (s.m.seqRun q).started = false →
    ∃ t, exec (.sequenceTrigger cyc q) s = .next t ∧
      t.m.acq.runs = upd s.m.acq.runs q (fun r => ⟨true, false, 0, 0, [], r.sampleAt⟩) ∧ t.m.acq.trunc = s.m.acq.trunc + 1 ∧
      Raises s t [eventAt (s.at cyc) 0x0803 0 0xFF [] 0] ∧ t.m.rd Reg.ACQ_IRQ_STAT = s.m.rd Reg.ACQ_IRQ_STAT ||| 4#32 ∧
      SameRegsBut s t [Reg.ACQ_IRQ_STAT] ∧ SameMemory s t) ∧
  (∀ (cyc : Nat) (q : Fin 16) (s : State),
    q = 15 ∨ s.m.tick.running = false ∨ s.m.mode = .sleep ∨ (s.at cyc).trigsNow q = false →
    ∃ t, exec (.sequenceTrigger cyc q) s = .next t ∧ t.m.acq = s.m.acq ∧ Quiet s t []) ∧
  (∀ (cyc : Nat) (q : Fin 16) (s : State), s.m.groupReady q = true →
    ∃ t, exec (.groupStart cyc q) s = .next t ∧
      (let es := groupList (s.m.seqRun q).gStart (s.m.groupEnd q (s.m.seqRun q).gStart)
       let sample : Int := (s.at cyc).time.cyc + (es.map fun e => (s.m.seqEnt q e).bits 7 0).foldl max 0
       t.m.acq.runs = upd s.m.acq.runs q (fun r => { r with
         started := true, gEnd := (s.m.seqRun q).gStart + es.length, left := es, sampleAt := sample }) ∧
       ∀ c < 12, c ∉ es.map (fun e => entConv (s.m.seqEnt q e)) → t.m.conv c = s.m.conv c) ∧
      Quiet s t []) ∧
  (∀ (cyc : Nat) (q : Fin 16) (s : State), s.m.groupReady q = false →
    ∃ t, exec (.groupStart cyc q) s = .next t ∧ t.m.acq = s.m.acq ∧ Quiet s t []) ∧
  (∀ (cyc : Nat) (c : Fin 12) (nv : Int) (s : State) (q e : Nat) (x : Int),
    (s.m.conv c).use = .seq q e x → (s.at cyc).time.cyc = x + 64 → s.m.vddaOk = false → (s.m.seqRun q).started = false →
    ∃ t, exec (.conversionComplete cyc c nv) s = .next t ∧
      t.m.acq = { s.m.acq with convs := upd s.m.acq.convs c fun y => { y with use := .free } } ∧ Quiet s t []) ∧
  (∀ (cyc : Nat) (c : Fin 12) (nv : Int) (s : State) (r : UrgentReq) (x v : Int) (n : Nat),
    (s.m.conv c).use = .urgent r x → (s.at cyc).time.cyc = x + 64 → s.m.vddaOk = true → s.m.convFailed (r.input / 8) = false →
    r.acc = some n → s.m.fld (Reg.ACQ_ACFG_CTRL n) 31 29 ≤ 1 →
    v = adcCode nv - (s.m.fld (Reg.ACQ_IN r.input) 15 0 + signed 15 (s.m.fld (Reg.ACQ_IN r.input) 30 16)) →
    v = signed 17 (unsigned 17 v) →
    ∃ t, exec (.conversionComplete cyc c nv) s = .next t ∧
      t.m.acq = { s.m.acq with
        convs := upd s.m.acq.convs c fun y => { y with use := .free }
        acc := upd s.m.acq.acc n fun w => { w with sum := satN 64 (w.sum + v), count := w.count + 1, last := v } } ∧
      Quiet s t []) ∧
  (∀ (cyc : Nat) (c : Fin 12) (nv : Int) (s : State) (r : UrgentReq) (x : Int) (n : Nat),
    (s.m.conv c).use = .urgent r x → (s.at cyc).time.cyc = x + 64 → s.m.vddaOk = true → s.m.convFailed (r.input / 8) = true →
    r.acc = some n →
    ∃ t, exec (.conversionComplete cyc c nv) s = .next t ∧
      t.m.acq = { s.m.acq with
        convs := upd s.m.acq.convs c fun y => { y with use := .free }
        acc := upd s.m.acq.acc n fun w => { w with failconv := true } } ∧ Quiet s t []) ∧
  (∀ (cyc : Nat) (c : Fin 12) (s : State) (r : UrgentReq) (rest : List UrgentReq),
    (s.m.conv c).use = .free → (s.m.conv c).queue = r :: rest →
    ∃ t, exec (.urgentConversionStart cyc c) s = .next t ∧
      t.m.acq = { s.m.acq with
        convs := upd s.m.acq.convs c fun y => { y with use := .urgent r ((s.at cyc).time.cyc + r.acqt), queue := rest } } ∧
      Quiet s t [Reg.ACQ_URG_STAT]) ∧
  (∀ (cyc : Nat) (c : Fin 12) (s : State), (s.m.conv c).use ≠ .free ∨ (s.m.conv c).queue = [] →
    ∃ t, exec (.urgentConversionStart cyc c) s = .next t ∧ t.m.acq = s.m.acq ∧ Quiet s t [])

/-- Self-check readings of a converter that nothing claims go to their registers: the deviation of the reference and of ground, six
supplies and VIN_AUX, and the highest die temperature; the second deviation outside its window in a row marks the converter failed,
with event 0x0801. While the self-check cannot run, a reading changes nothing. A calibration's sum gives a new offset within 1,311
codes and is refused with event 0x0807 beyond; a sum of an input that is not being measured changes nothing. VDDA_OK follows VDDA.
Completes: SELF_CHECK_CONVERSION, CALIBRATION_COMPLETE, VDDA_LOW, VDDA_RESTORED. Data of event records beyond the spec's, and ORIGIN
and KIND 10 where no rule names them, are the model's choice (log entries 20 and 21). -/
def Obligations.SelfCheckCalibrationAndVdda : Prop :=
  (∀ (cyc : Nat) (c : Fin 12) (s : State) (v : Int), s.m.checkRuns c = true → -48 ≤ v → v ≤ 48 →
    ∃ t, exec (.selfCheckConversion cyc c 0 v) s = .next t ∧ t.m.fld (Reg.ACQ_CHK c) 31 16 = unsigned 16 v ∧
      t.m.acq = { s.m.acq with convs := upd s.m.acq.convs c fun x => { x with refRun := 0 } } ∧ Quiet s t [Reg.ACQ_CHK c]) ∧
  (∀ (cyc : Nat) (c : Fin 12) (s : State) (v : Int), s.m.checkRuns c = true → -24 ≤ v → v ≤ 24 →
    ∃ t, exec (.selfCheckConversion cyc c 1 v) s = .next t ∧ t.m.fld (Reg.ACQ_CHK c) 15 0 = unsigned 16 v ∧
      t.m.acq = { s.m.acq with convs := upd s.m.acq.convs c fun x => { x with gndRun := 0 } } ∧ Quiet s t [Reg.ACQ_CHK c]) ∧
  (∀ (cyc : Nat) (c : Fin 12) (s : State) (v : Int), s.m.checkRuns c = true → 24 < v.natAbs → (s.m.conv c).gndRun = 1 →
    c.val < s.m.acq.convs.length → s.m.convFailed c = false →
    ∃ t, exec (.selfCheckConversion cyc c 1 v) s = .next t ∧ t.m.fld (Reg.ACQ_CHK c) 15 0 = unsigned 16 v ∧
      t.m.convFailed c = true ∧ Tells s t 0x0801 1 0xFF ∧
      SameRegsBut s t [Reg.ACQ_CHK c, Reg.ACQ_STATUS, Reg.ACQ_IRQ_STAT, Reg.PWR_STATUS] ∧ SameMemory s t) ∧
  (∀ (cyc : Nat) (c : Fin 12) (s : State) (k : Nat) (v : Int), s.m.checkRuns c = true → k < 7 →
    ∃ t, exec (.selfCheckConversion cyc c (k + 2) v) s = .next t ∧ t.m.rd (Reg.ACQ_SUP k) = BitVec.ofNat 32 (unsigned 16 v) ∧
      t.m.acq = s.m.acq ∧ SameRegsBut s t [Reg.ACQ_SUP k, Reg.PWR_IRQ_STAT] ∧ SameMemory s t) ∧
  (∀ (cyc : Nat) (c : Fin 12) (s : State) (v : Int), s.m.checkRuns c = true →
    ∃ t, exec (.selfCheckConversion cyc c 9 v) s = .next t ∧ t.m.acq = { s.m.acq with dieTemp := s.m.acq.dieTemp.set c (some v) } ∧
      t.m.rd (Reg.ACQ_SUP 7) = BitVec.ofNat 32 (unsigned 16 ((t.m.acq.dieTemp.filterMap id).foldl max v)) ∧
      Quiet s t [Reg.ACQ_SUP 7]) ∧
  (∀ (cyc : Nat) (c : Fin 12) (s : State) (item : Nat) (v : Int), s.m.checkRuns c = false ∨ 9 < item →
    ∃ t, exec (.selfCheckConversion cyc c item v) s = .next t ∧ t.m.acq = s.m.acq ∧ Quiet s t []) ∧
  (∀ (cyc : Nat) (s : State) (i sum : Nat) (off : Int), s.m.acq.calLeft.contains i = true →
    off = roundHalfAway sum 256 - s.m.fld (Reg.ACQ_IN i) 15 0 → off.natAbs ≤ 1311 →
    ∃ t, exec (.calibrationComplete cyc [(i, sum)]) s = .next t ∧
      t.m.acq = { s.m.acq with calNew := s.m.acq.calNew ++ [(i, off)], calLeft := s.m.acq.calLeft.erase i } ∧ Quiet s t []) ∧
  (∀ (cyc : Nat) (s : State) (i sum : Nat) (off : Int), s.m.acq.calLeft.contains i = true →
    off = roundHalfAway sum 256 - s.m.fld (Reg.ACQ_IN i) 15 0 → 1311 < off.natAbs →
    ∃ t, exec (.calibrationComplete cyc [(i, sum)]) s = .next t ∧ t.m.acq.calNew = s.m.acq.calNew ∧
      t.m.acq.calLeft = s.m.acq.calLeft.erase i ∧ Raises s t [eventAt (s.at cyc) 0x0807 1 0xFF [] 0] ∧
      SameRegsBut s t [Reg.ACQ_IRQ_STAT] ∧ SameMemory s t) ∧
  (∀ (cyc : Nat) (s : State) (sums : List (Nat × Nat)), (∀ p ∈ sums, s.m.acq.calLeft.contains p.1 = false) →
    ∃ t, exec (.calibrationComplete cyc sums) s = .next t ∧ t.m.acq = s.m.acq ∧ Quiet s t []) ∧
  (∀ (cyc : Nat) (s : State), ∃ t, exec (.vddaLow cyc) s = .next t ∧ t.m.vddaOk = false ∧
    t.m.fld Reg.ACQ_STATUS 11 0 = s.m.fld Reg.ACQ_STATUS 11 0 ∧ Quiet s t [Reg.ACQ_STATUS]) ∧
  (∀ (cyc : Nat) (s : State), ∃ t, exec (.vddaRestored cyc) s = .next t ∧ t.m.vddaOk = true ∧
    t.m.fld Reg.ACQ_STATUS 11 0 = s.m.fld Reg.ACQ_STATUS 11 0 ∧ Quiet s t [Reg.ACQ_STATUS])

/-! ### Position feedback -/

/-- An update of a resolver channel takes angle, velocity and cycle and adds to the sums of its speed; the eighth update in a row
out of amplitude sets the flag of signal loss. A change of one of an encoder's A and B is one count: in the direction held so far
at once, against it after one more; both changing at once is an illegal transition, and the count stays; two counts nearer than
50 ns set the flag of the rate. A Z edge is compared with the first one after the counts of its cycle are in: the first gives the
place, and a later one more than one count off sets INDEX. A good SENT frame or SSI read gives its position with its time; a bad one
gives none and counts toward MISS. A sensor of another type, and every one in SLEEP, changes nothing. Completes: RESOLVER_UPDATE,
ENCODER_COUNT, Z_EDGE, SENT_FRAME, SSI_READ. Data of event records beyond the spec's, and ORIGIN and KIND 10 where no rule names
them, are the model's choice (log entries 20 and 21). That A leads B forward is the model's choice (log entry 10), as are the turn
around which INDEX differences are taken and the code of a SENT frame (log entry 25). -/
def Obligations.AngleSensorsUpdateTheirChannels : Prop :=
  (∀ (cyc : Nat) (x : Fin 2) (theta : BitVec 16) (vel : Int) (sin cos : BitVec 16) (exc : Bool) (s : State),
     s.m.posRuns x 1 = true →
     let lim := s.m.rd (Reg.POS_CH_LIM x)
     ∃ t g, exec (.resolverUpdate cyc x theta vel sin cos exc) s = .next t ∧
       t.m.pos = { s.m.pos with chans := upd s.m.pos.chans x g } ∧ Quiet s t [] ∧
       (∀ c, (g c).theta = theta.toNat * 2 ^ 16 ∧ (g c).vel = vel ∧ (g c).thetaCyc = (s.at cyc).time.cyc ∧
         (g c).velSum = c.velSum + vel ∧ (g c).velCount = c.velCount + 1 ∧ (g c).excBad = exc) ∧
       (ampBelow sin.toInt cos.toInt (lim.bits 7 0) = false → ampAbove sin.toInt cos.toInt (lim.bits 15 8) = false →
         (s32 ((atan32 sin.toInt cos.toInt : Int) - theta.toNat * 2 ^ 16)).natAbs ≤ lim.bits 23 16 * 2 ^ 24 → exc = false →
         ∀ c, (g c).losRun = 0 ∧ (g c).lotRun = 0 ∧ (g c).flags = c.flags) ∧
       (ampBelow sin.toInt cos.toInt (lim.bits 7 0) = true ∨ ampAbove sin.toInt cos.toInt (lim.bits 15 8) = true →
         ∀ c, (g c).losRun = c.losRun + 1 ∧ (7 ≤ c.losRun → (g c).flags.testBit 0 = true))) ∧
  (∀ (cyc : Nat) (x : Fin 2) (a b : Bool) (s : State), s.m.posRuns x 2 = true → (s.m.chan x).zDue = none →
    (s.m.chan x).levelA ≠ a → (s.m.chan x).levelB = b →
    (∀ w, (s.m.chan x).winCount = some w → w.2 + 100 ≤ (s.at cyc).now) →
    ((s.m.chan x).winCount = none → ∀ w, (s.m.chan x).pastCount = some w → w.2 + 100 ≤ (s.at cyc).now) →
    ∃ t g, exec (.encoderCount cyc x a b) s = .next t ∧ t.m.pos = { s.m.pos with chans := upd s.m.pos.chans x g } ∧ Quiet s t [] ∧
      ∀ c, c.levelA = (s.m.chan x).levelA → c.levelB = b → c.held = false →
        let d : Int := if a = b then -1 else 1
        (g c).r = c.r + d ∧ (g c).levelA = a ∧ (g c).winCount = some ((g c).c, (s.at cyc).now) ∧ (g c).flags = c.flags ∧
        (g c).c = (if decide (0 < d) = c.dirFwd then c.c + d else c.c) ∧ (g c).held = !(decide (0 < d) == c.dirFwd)) ∧
  (∀ (cyc : Nat) (x : Fin 2) (a b : Bool) (s : State) (w : Int × Nat), s.m.posRuns x 2 = true → (s.m.chan x).zDue = none →
    (s.m.chan x).levelA = a → (s.m.chan x).levelB ≠ b → (s.m.chan x).winCount = some w → (s.at cyc).now < w.2 + 100 →
    ∃ t g, exec (.encoderCount cyc x a b) s = .next t ∧ t.m.pos = { s.m.pos with chans := upd s.m.pos.chans x g } ∧ Quiet s t [] ∧
      ∀ c, (g c).levelB = b ∧ (g c).winCount = some ((g c).c, (s.at cyc).now) ∧ (g c).flags = c.flags ||| 32) ∧
  (∀ (cyc : Nat) (x : Fin 2) (a b : Bool) (s : State), s.m.posRuns x 2 = true → (s.m.chan x).zDue = none →
    (s.m.chan x).levelA ≠ a → (s.m.chan x).levelB ≠ b →
    ∃ t g, exec (.encoderCount cyc x a b) s = .next t ∧ t.m.pos = { s.m.pos with chans := upd s.m.pos.chans x g } ∧ Quiet s t [] ∧
      ∀ c, (g c).c = c.c ∧ (g c).r = c.r ∧ (g c).levelA = a ∧ (g c).levelB = b ∧ (g c).flags = c.flags ||| 8) ∧
  (∀ (cyc : Nat) (x : Fin 2) (s : State), s.m.posRuns x 2 = true → s.m.bit (Reg.POS_CH_FMT x) 14 = true →
    (s.m.chan x).zDue = none →
    ∃ t, exec (.zEdge cyc x) s = .next t ∧ Quiet s t [] ∧
      t.m.pos = { s.m.pos with chans := upd s.m.pos.chans x fun c => { c with zDue := some (s.at cyc).now } }) ∧
  (∀ (cyc z : Nat) (x : Fin 2) (s : State), s.m.posRuns x 2 = true → s.m.bit (Reg.POS_CH_FMT x) 14 = true →
    x.val < s.m.pos.chans.length → (s.m.chan x).zDue = some z → z < (s.at cyc).now → (s.m.chan x).zFirst = none →
    ∃ t, exec (.zEdge cyc x) s = .next t ∧ Quiet s t [] ∧
      (t.m.chan x).zFirst = some ((s.m.chan x).c % (s.m.chanCpr x : Int)) ∧ (t.m.chan x).flags = (s.m.chan x).flags) ∧
  (∀ (cyc z : Nat) (x : Fin 2) (s : State) (p : Int), s.m.posRuns x 2 = true → s.m.bit (Reg.POS_CH_FMT x) 14 = true →
    x.val < s.m.pos.chans.length → (s.m.chan x).zDue = some z → z < (s.at cyc).now → (s.m.chan x).zFirst = some p →
    ∃ t, exec (.zEdge cyc x) s = .next t ∧ Quiet s t [] ∧ (t.m.chan x).zFirst = some p ∧
      (t.m.chan x).flags = if 1 < (signedMod ((s.m.chan x).c % (s.m.chanCpr x : Int) - p) (s.m.chanCpr x)).natAbs
        then (s.m.chan x).flags ||| 16 else (s.m.chan x).flags) ∧
  (∀ (cyc : Nat) (x : Fin 2) (start cal : Nat) (pulses ns : List Nat) (s : State), s.m.posRuns x 3 = true →
    x.val < s.m.pos.chans.length →
    let fmt := s.m.rd (Reg.POS_CH_FMT x)
    let n := fmt.bits 11 9
    let status := ns.headD 0
    let data := (ns.drop 1).take n
    sentCalOk (fmt.bits 8 0) (s.m.chan x).cal cal = true → sentNibbles (n + 2) (fmt.bit 18) cal pulses = some ns →
    ns.getLastD 0 = sentCrc (fmt.bit 17) data →
    sentSlow (fmt.bit 17) (((status.testBit 2, status.testBit 3) :: (s.m.chan x).serial).take 18) = none →
    ∃ t, exec (.sentFrame cyc x start cal pulses) s = .next t ∧ t.m.lane = s.m.lane ∧ Quiet s t [] ∧
      (t.m.chan x).frames = (ofNibbles data * 2 ^ (32 - 4 * n) / 2 ^ (32 - fmt.bits 16 12) * 2 ^ (32 - fmt.bits 16 12), start) ::
        (s.m.chan x).frames.take 1 ∧ (t.m.chan x).crcRun = 0 ∧ (t.m.chan x).timRun = 0 ∧ (t.m.chan x).lastGood = (s.at cyc).now ∧
      (t.m.chan x).cal = cal ∧ (t.m.chan x).statusBad = decide (status % 4 ≠ 0)) ∧
  (∀ (cyc : Nat) (x : Fin 2) (start cal : Nat) (pulses ns : List Nat) (s : State), s.m.posRuns x 3 = true →
    x.val < s.m.pos.chans.length →
    let fmt := s.m.rd (Reg.POS_CH_FMT x)
    let n := fmt.bits 11 9
    sentNibbles (n + 2) (fmt.bit 18) cal pulses = some ns → ns.getLastD 0 ≠ sentCrc (fmt.bit 17) ((ns.drop 1).take n) →
    ∃ t, exec (.sentFrame cyc x start cal pulses) s = .next t ∧ t.m.lane = s.m.lane ∧ Quiet s t [] ∧
      (t.m.chan x).frames = (s.m.chan x).frames ∧ (t.m.chan x).crcRun = (s.m.chan x).crcRun + 1 ∧
      (s.m.chanMiss x < (s.m.chan x).crcRun + 1 → (t.m.chan x).flags.testBit 6 = true)) ∧
  (∀ (cyc : Nat) (x : Fin 2) (start cal : Nat) (pulses ns : List Nat) (w : Word) (s : State), s.m.posRuns x 3 = true → s.roomy →
    x.val < s.m.pos.chans.length →
    let fmt := s.m.rd (Reg.POS_CH_FMT x)
    let n := fmt.bits 11 9
    let status := ns.headD 0
    sentCalOk (fmt.bits 8 0) (s.m.chan x).cal cal = true → sentNibbles (n + 2) (fmt.bit 18) cal pulses = some ns →
    ns.getLastD 0 = sentCrc (fmt.bit 17) ((ns.drop 1).take n) → fmt.bit 19 = true →
    sentSlow (fmt.bit 17) (((status.testBit 2, status.testBit 3) :: (s.m.chan x).serial).take 18) = some w →
    ∃ t, exec (.sentFrame cyc x start cal pulses) s = .next t ∧ Enters s t cyc ⟨9, x, 0, 0, w.toNat, []⟩ ∧ Quiet s t [] ∧
      (t.m.chan x).serial = []) ∧
  (∀ (cyc : Nat) (x : Fin 2) (data : Nat) (s : State), s.m.posRuns x 4 = true → (s.m.chan x).reading = true →
    s.m.bit (Reg.POS_CH_FMT x) 6 = false → s.m.bit (Reg.POS_CH_FMT x) 7 = false →
    let n := s.m.fld (Reg.POS_CH_FMT x) 5 0
    ∃ t g, exec (.ssiRead cyc x data false) s = .next t ∧ t.m.pos = { s.m.pos with chans := upd s.m.pos.chans x g } ∧
      Quiet s t [] ∧ ∀ c, (g c).frames = (data % 2 ^ n * 2 ^ (32 - n) % 2 ^ 32, c.latchAt) :: c.frames.take 1 ∧
        (g c).crcRun = 0 ∧ (g c).stuckRun = 0 ∧ (g c).lastGood = (s.at cyc).now ∧ (g c).reading = false) ∧
  (∀ (cyc : Nat) (x : Fin 2) (data : Nat) (stuck : Bool) (s : State), s.m.posRuns x 4 = true → (s.m.chan x).reading = true →
    s.m.bit (Reg.POS_CH_FMT x) 7 = true → onesIn (s.m.fld (Reg.POS_CH_FMT x) 5 0 + 1) data % 2 = 1 →
    ∃ t g, exec (.ssiRead cyc x data stuck) s = .next t ∧ t.m.pos = { s.m.pos with chans := upd s.m.pos.chans x g } ∧
      Quiet s t [] ∧ ∀ c, (g c).frames = c.frames ∧ (g c).crcRun = c.crcRun + 1 ∧
        (s.m.chanMiss x < c.crcRun + 1 → (g c).flags.testBit 6 = true)) ∧
  (∀ (cyc : Nat) (x : Fin 2) (s : State) (c : Instr) (ty : Nat), s.m.posRuns x ty = false →
    (∃ theta vel sin cos exc, ty = 1 ∧ c = .resolverUpdate cyc x theta vel sin cos exc) ∨
      (∃ a b, ty = 2 ∧ c = .encoderCount cyc x a b) ∨ (ty = 2 ∧ c = .zEdge cyc x) ∨
      (∃ start cal pulses, ty = 3 ∧ c = .sentFrame cyc x start cal pulses) ∨ (∃ data stuck, ty = 4 ∧ c = .ssiRead cyc x data stuck) →
    ∃ t, exec c s = .next t ∧ t.m.pos = s.m.pos ∧ t.m.lane = s.m.lane ∧ Quiet s t [])

/-- A step of one sector counts an edge with its direction; a step of more than one, and a pin state without a sector, is told with
event 0x0C03. A triplet's latch takes its pins, its sector and its edges; a channel latches in its cycle LATCH, where it takes angle,
count and health, or, with SSI, begins its read. An edge of an armed probe goes into accession with its time and angle; while four
wait, the edge is lost, counted and told. In SLEEP none of these does anything. Completes: HALL_EDGE, POSITION_LATCH, PROBE_EDGE. Data
of event records beyond the spec's, and ORIGIN and KIND 10 where no rule names them, are the model's choice (log entries 20 and 21),
and so is the cycle at which a triplet latches (log entry 25). -/
def Obligations.HallTripletsAndProbes : Prop :=
  (∀ (cyc : Nat) (k : Fin 6) (pins : BitVec 3) (s : State) (d : Nat), s.m.mode ≠ .sleep → s.m.hallMap k pins.toNat < 6 →
    d = 1 ∨ d = 5 → s.m.hallMap k pins.toNat = ((s.m.hall k).lastSector + d) % 6 → (s.m.hall k).lastSector < 6 →
    ∃ t g, exec (.hallEdge cyc k pins) s = .next t ∧ t.m.pos = { s.m.pos with halls := upd s.m.pos.halls k g } ∧
      Quiet s t (Reg.GDL_IRQ_STAT :: (List.range 6).map Reg.GDL_DRV_STAT) ∧
      ∀ h, (g h).pins = pins.toNat ∧ (g h).lastSector = s.m.hallMap k pins.toNat ∧ (g h).fwd = decide (d = 1) ∧
        (g h).edges = h.edges + 1 ∧ (g h).pos = h.pos + (if d = 1 then 1 else -1) ∧ (g h).skip = false ∧
        (g h).stamps.head? = some (s.at cyc).now) ∧
  (∀ (cyc : Nat) (k : Fin 6) (pins : BitVec 3) (s : State) (d : Nat), s.m.mode ≠ .sleep → s.m.hallMap k pins.toNat < 6 →
    2 ≤ d → d ≤ 4 → s.m.hallMap k pins.toNat = ((s.m.hall k).lastSector + d) % 6 → (s.m.hall k).lastSector < 6 →
    ∃ t g, exec (.hallEdge cyc k pins) s = .next t ∧ t.m.pos = { s.m.pos with halls := upd s.m.pos.halls k g } ∧
      Raises s t [eventAt (s.at cyc) 0x0C03 1 0xFF [k.val, pins.toNat] 0] ∧
      (∀ h, (g h).skip = true ∧ (g h).pos = h.pos ∧ (g h).edges = h.edges ∧ (g h).lastSector = s.m.hallMap k pins.toNat) ∧
      SameRegsBut s t (Reg.POS_IRQ_STAT :: Reg.GDL_IRQ_STAT :: (List.range 6).map Reg.GDL_DRV_STAT) ∧ SameMemory s t) ∧
  (∀ (cyc : Nat) (k : Fin 6) (pins : BitVec 3) (s : State), s.m.mode ≠ .sleep → 6 ≤ s.m.hallMap k pins.toNat →
    ∃ t, exec (.hallEdge cyc k pins) s = .next t ∧ Raises s t [eventAt (s.at cyc) 0x0C03 1 0xFF [k.val, pins.toNat] 0] ∧
      t.m.rd Reg.POS_IRQ_STAT = s.m.rd Reg.POS_IRQ_STAT ||| 8#32 ∧
      SameRegsBut s t (Reg.POS_IRQ_STAT :: Reg.GDL_IRQ_STAT :: (List.range 6).map Reg.GDL_DRV_STAT) ∧ SameMemory s t) ∧
  (∀ (cyc : Nat) (k : Fin 8) (s : State), 2 ≤ k.val → s.m.mode ≠ .sleep →
    ∃ t g, exec (.positionLatch cyc k) s = .next t ∧ t.m.pos = { s.m.pos with halls := upd s.m.pos.halls (k.val - 2) g } ∧
      Quiet s t [] ∧ ((s.m.hall (k.val - 2)).stamps = [] → ∀ h, (g h).spd = 0) ∧
      ∀ h, (g h).edges = 0 ∧ (g h).latchDone = true ∧ (g h).pins = h.pins ∧ (g h).pos = h.pos ∧
        ((s.m.hall (k.val - 2)).pins < 8 → (g h).st / 2 ^ 8 % 2 ^ 8 = min (s.m.hall (k.val - 2)).edges 255 ∧
          (g h).st / 2 ^ 5 % 2 ^ 3 = (s.m.hall (k.val - 2)).pins)) ∧
  (∀ (cyc : Nat) (k : Fin 8) (s : State), k.val < 2 → s.m.mode ≠ .sleep → s.m.chanType k = 4 →
    (s.at cyc).time.cyc = s.m.fld (Reg.POS_CH_CFG k) 15 0 →
    ∃ t, exec (.positionLatch cyc k) s = .next t ∧ Quiet s t [] ∧
      t.m.pos = { s.m.pos with chans := upd s.m.pos.chans k fun c => { c with latchAt := (s.at cyc).now, reading := true } }) ∧
  (∀ (cyc : Nat) (k : Fin 8) (s : State), k.val < 2 → s.m.mode ≠ .sleep → s.m.chanType k ≠ 0 → s.m.chanType k ≠ 4 →
    k.val < s.m.pos.chans.length → (s.at cyc).time.cyc = s.m.fld (Reg.POS_CH_CFG k) 15 0 →
    ∃ t, exec (.positionLatch cyc k) s = .next t ∧ (t.m.chan k).latchDone = true ∧ (t.m.chan k).latchAt = (s.at cyc).now ∧
      (t.m.chan k).flags = 0 ∧ t.m.pos.halls = s.m.pos.halls ∧
      (s.m.chanType k = 2 → (t.m.chan k).latched.cnt = (s.m.chan k).c) ∧
      SameRegsBut s t [Reg.POS_IRQ_STAT, Reg.LANE_ACCSTAT, Reg.LANE_L_IRQ_STAT 0, Reg.LANE_L_IRQ_STAT 1] ∧ SameMemory s t) ∧
  (∀ (cyc : Nat) (k : Fin 8) (s : State), s.m.mode = .sleep ∨ (k.val < 2 ∧
      (s.m.chanType k = 0 ∨ (s.at cyc).time.cyc ≠ s.m.fld (Reg.POS_CH_CFG k) 15 0)) →
    ∃ t, exec (.positionLatch cyc k) s = .next t ∧ t.m.pos = s.m.pos ∧ Quiet s t []) ∧
  (∀ (cyc : Nat) (p : Fin 2) (s : State), s.m.mode ≠ .sleep → s.m.bit (Reg.POS_PRB_CFG p) 31 = true →
    s.m.fld (Reg.POS_PRB_CFG p) 30 29 = 1 → 4 ≤ nth s.m.pos.prbWaiting p →
    ∃ t, exec (.probeEdge cyc p true) s = .next t ∧ t.m.lane = s.m.lane ∧
      t.m.fld (Reg.POS_PRB_NUM p) 31 16 = min (s.m.fld (Reg.POS_PRB_NUM p) 31 16 + 1) 0xFFFF ∧
      Raises s t [eventAt (s.at cyc) 0x0C04 0 0xFF [] 0] ∧ SameRegsBut s t [Reg.POS_PRB_NUM p, Reg.POS_IRQ_STAT] ∧ SameMemory s t) ∧
  (∀ (cyc : Nat) (p : Fin 2) (s : State), s.m.mode ≠ .sleep → s.m.bit (Reg.POS_PRB_CFG p) 31 = true →
    s.m.fld (Reg.POS_PRB_CFG p) 30 29 = 1 → nth s.m.pos.prbWaiting p < 4 → s.roomy →
    s.m.bit (Reg.POS_PRB_URG p) 15 = false → s.m.bit (Reg.POS_PRB_URG p) 31 = false →
    ∃ t e, exec (.probeEdge cyc p true) s = .next t ∧ t.m.lane.waiting = [e] ∧ e.kind = 3 ∧ e.src = p.val ∧
      e.payload.take 8 = leBytes 8 (s.at cyc).now ∧ e.accTick = (s.at cyc).accTickNow ∧
      t.m.pos = { s.m.pos with prbWaiting := upd s.m.pos.prbWaiting p (· + 1) } ∧
      t.m.bit (Reg.POS_PRB_CFG p) 31 = !s.m.bit (Reg.POS_PRB_CFG p) 0 ∧ Quiet s t [Reg.POS_PRB_CFG p]) ∧
  (∀ (cyc : Nat) (p : Fin 2) (rise : Bool) (s : State), s.m.bit (Reg.POS_PRB_CFG p) 31 = false →
    ∃ t, exec (.probeEdge cyc p rise) s = .next t ∧ t.m.lane = s.m.lane ∧ t.m.pos = s.m.pos ∧ Quiet s t [])

/-! ### Command registers, the law engine, field control and modulation -/

/-- The answer is a next state in which the write of `w` to register `a` stands last in lane `l`'s shadow, and nothing else changed. -/
def ShadowTakes (s : State) (l : Lane) (a : Nat) (w : Word) (o : Host.Outcome State Fault Refusal) : Prop :=
  ∃ t, o = .next t ∧ (t.m.tl l).shadow = (s.m.tl l).shadow ++ [(a, w)] ∧ t.m.tl l.other = s.m.tl l.other ∧ t.m.mod = s.m.mod ∧
    t.m.law = s.m.law ∧ Quiet s t []

/-- The answer is a next state in which no shadow, slot or register changed, and exactly the events `es` were raised. -/
def ShadowKeeps (s : State) (es : List Event) (o : Host.Outcome State Fault Refusal) : Prop :=
  ∃ t, o = .next t ∧ t.m.tick = s.m.tick ∧ t.m.mod = s.m.mod ∧ t.m.law = s.m.law ∧ SameRegsBut s t [] ∧ SameMemory s t ∧
    Raises s t es

/-- In tick context, before TASKDL, a lane's write to a command register of its own copy joins the shadow and changes nothing yet;
after TASKDL it is discarded; outside tick context it is ignored with event 0x0405. A lane's write to the other lane's copy is ignored
with event 0x0001, and the safety processor's writes are ignored. A swap request in addition marks every named slot as pending and
seals its banks, from the write on, and takes the mark from every slot it does not name, but for one whose detector has asked.
Completes: SECTION_PRESET, INJECTOR_START, INJECTOR_STOP, MOD_START, MOD_STOP, LAW_SWAP_REQUEST. Data of event records beyond the
spec's, and ORIGIN and KIND 10 where no rule names them, are the model's choice (log entries 20 and 21). -/
def Obligations.CommandRegistersAndSwapRequests : Prop :=
  (∀ (cyc : Nat) (l : Lane) (k : Fin 16) (v : Word) (s : State), s.m.inTick l = true → (s.m.tl l).taskOverrun = false →
     ShadowTakes s l (Reg.LAW_PRE_IDX l.ix) ((v &&& 0x1FFF#32) ||| 0x80000000#32) (exec (.sectionPreset cyc (.lane l) l v) s) ∧
     ShadowTakes s l (Reg.LAW_INJ_CTRL l.ix) ((v &&& 0xCF700FFF#32) ||| 0x80000000#32)
       (exec (.injectorStart cyc (.lane l) l v) s) ∧
     ShadowTakes s l (Reg.LAW_INJ_CTRL l.ix) ((v &&& 0xCF700FFF#32) ||| 0x40000000#32)
       (exec (.injectorStop cyc (.lane l) l v) s) ∧
     ShadowTakes s l (Reg.MOD_CMD l.ix k) ((v ||| 0x80000000#32) &&& 0xF0000000#32) (exec (.modStart cyc (.lane l) l k v) s) ∧
     ShadowTakes s l (Reg.MOD_CMD l.ix k) ((v ||| 0x40000000#32) &&& 0xF0000000#32) (exec (.modStop cyc (.lane l) l k v) s) ∧
     ∃ t, exec (.lawSwapRequest cyc (.lane l) l v) s = .next t ∧
       (t.m.tl l).shadow = (s.m.tl l).shadow ++ [(Reg.LAW_SWAP l.ix, v &&& 0xFFFF#32)] ∧
       (∀ k : Fin 16, v.bit k = true →
         t.m.bit (Reg.LAW_SLOT_STAT l.ix k) 28 = true ∧ t.m.bit (Reg.LAW_SLOT_STAT l.ix k) 29 = true) ∧
       (∀ k : Fin 16, v.bit k = false → t.m.rd (Reg.LAW_SLOT_STAT l.ix k) =
         (s.m.rd (Reg.LAW_SLOT_STAT l.ix k)).withBit 28 (s.m.lawSlot l k).detSwap) ∧
       Quiet s t ((List.range 16).map (Reg.LAW_SLOT_STAT l.ix))) ∧
  (∀ (cyc : Nat) (l : Lane) (k : Fin 16) (v : Word) (s : State), s.m.inTick l = true → (s.m.tl l).taskOverrun = true →
     ShadowKeeps s [] (exec (.sectionPreset cyc (.lane l) l v) s) ∧ ShadowKeeps s [] (exec (.injectorStart cyc (.lane l) l v) s) ∧
     ShadowKeeps s [] (exec (.injectorStop cyc (.lane l) l v) s) ∧ ShadowKeeps s [] (exec (.modStart cyc (.lane l) l k v) s) ∧
     ShadowKeeps s [] (exec (.modStop cyc (.lane l) l k v) s) ∧ ShadowKeeps s [] (exec (.lawSwapRequest cyc (.lane l) l v) s)) ∧
  (∀ (cyc : Nat) (l : Lane) (k : Fin 16) (v : Word) (s : State), s.m.inTick l = false →
     let told := [eventAt (s.at cyc) 0x0405 0 0xFF [] l.origin]
     ShadowKeeps s told (exec (.sectionPreset cyc (.lane l) l v) s) ∧ ShadowKeeps s told (exec (.injectorStart cyc (.lane l) l v) s) ∧
     ShadowKeeps s told (exec (.injectorStop cyc (.lane l) l v) s) ∧ ShadowKeeps s told (exec (.modStart cyc (.lane l) l k v) s) ∧
     ShadowKeeps s told (exec (.modStop cyc (.lane l) l k v) s) ∧ ShadowKeeps s told (exec (.lawSwapRequest cyc (.lane l) l v) s)) ∧
  (∀ (cyc : Nat) (w l : Lane) (k : Fin 16) (v : Word) (s : State), w ≠ l →
     let told (a : Nat) := [eventAt (s.at cyc) 0x0001 0 0xFF (accessRecord (physical a) (.lane w) true .word false 3) 0]
     ShadowKeeps s (told (Reg.LAW_PRE_IDX l.ix)) (exec (.sectionPreset cyc (.lane w) l v) s) ∧
     ShadowKeeps s (told (Reg.LAW_INJ_CTRL l.ix)) (exec (.injectorStart cyc (.lane w) l v) s) ∧
     ShadowKeeps s (told (Reg.LAW_INJ_CTRL l.ix)) (exec (.injectorStop cyc (.lane w) l v) s) ∧
     ShadowKeeps s (told (Reg.MOD_CMD l.ix k)) (exec (.modStart cyc (.lane w) l k v) s) ∧
     ShadowKeeps s (told (Reg.MOD_CMD l.ix k)) (exec (.modStop cyc (.lane w) l k v) s) ∧
     ShadowKeeps s (told (Reg.LAW_SWAP l.ix)) (exec (.lawSwapRequest cyc (.lane w) l v) s)) ∧
  (∀ (cyc : Nat) (l : Lane) (k : Fin 16) (v : Word) (s : State),
     ShadowKeeps s [] (exec (.sectionPreset cyc .safety l v) s) ∧ ShadowKeeps s [] (exec (.injectorStart cyc .safety l v) s) ∧
     ShadowKeeps s [] (exec (.injectorStop cyc .safety l v) s) ∧ ShadowKeeps s [] (exec (.modStart cyc .safety l k v) s) ∧
     ShadowKeeps s [] (exec (.modStop cyc .safety l k v) s) ∧ ShadowKeeps s [] (exec (.lawSwapRequest cyc .safety l v) s))

/-- The port to law memory: an accepted write lands in the inactive bank, here and in a lane that is recovering; a refused one changes no
word and is counted and told; a read answers the word; each of them moves the address on by one. A write to the other lane's port is
told, the safety processor's is ignored. A running injection ramps out with cause 2 where a chirp's frequency has passed F1, which holds
it there, else with cause 1 once it has run for DUR ticks; a chirp that ramps out already holds at F1 too; otherwise the injector goes
on. When the ramp has run down the injector is idle, and its end is told. The end of an oscillation window begins its count of swings
anew, and the slot's register shows the count. Completes: LAW_PORT_WRITE, LAW_PORT_READ, INJECTION_DURATION_END,
INJECTION_RAMP_OUT_END, OSCILLATION_WINDOW_END. Data of event records beyond the spec's, and ORIGIN and KIND 10 where no rule names them,
are the model's choice (log entries 20 and 21). -/
def Obligations.LawPortInjectorAndWindows : Prop :=
  (∀ (cyc : Nat) (l : Lane) (v : Word) (s : State) (k : Nat), s.m.portSlot l = some k →
    ∃ t, exec (.lawPortWrite cyc (.lane l) l v) s = .next t ∧
      (let key := coefKey (!s.m.bit (Reg.LAW_SLOT_STAT l.ix k) 30) (s.m.fld (Reg.LAW_CW_ADDR l.ix) 15 0)
       t.m.law.get l = (s.m.law.get l).setWord key v ∧
       t.m.law.get l.other = if s.m.laneCode l.other ∈ [3, 4, 5] then (s.m.law.get l.other).setWord key v else s.m.law.get l.other) ∧
      t.m.fld (Reg.LAW_CW_ADDR l.ix) 15 0 = (s.m.fld (Reg.LAW_CW_ADDR l.ix) 15 0 + 1) % 2 ^ 16 ∧ Quiet s t [Reg.LAW_CW_ADDR l.ix]) ∧
  (∀ (cyc : Nat) (l : Lane) (v : Word) (s : State), s.m.portSlot l = none →
    ∃ t, exec (.lawPortWrite cyc (.lane l) l v) s = .next t ∧ t.m.law = s.m.law ∧
      t.m.fld (Reg.LAW_CW_STAT l.ix) 31 16 = min (s.m.fld (Reg.LAW_CW_STAT l.ix) 31 16 + 1) 0xFFFF ∧
      t.m.fld (Reg.LAW_CW_ADDR l.ix) 15 0 = (s.m.fld (Reg.LAW_CW_ADDR l.ix) 15 0 + 1) % 2 ^ 16 ∧
      t.m.rd (Reg.LAW_IRQ_STAT l.ix) = s.m.rd (Reg.LAW_IRQ_STAT l.ix) ||| 0x10#32 ∧
      Raises s t [eventAt (s.at cyc) 0x1002 0 0xFF [] l.origin] ∧
      SameRegsBut s t [Reg.LAW_CW_ADDR l.ix, Reg.LAW_CW_STAT l.ix, Reg.LAW_IRQ_STAT l.ix] ∧ SameMemory s t) ∧
  (∀ (cyc : Nat) (w l : Lane) (v : Word) (s : State), w ≠ l →
    ∃ t, exec (.lawPortWrite cyc (.lane w) l v) s = .next t ∧ t.m.law = s.m.law ∧ SameRegsBut s t [] ∧ SameMemory s t ∧
      Raises s t [eventAt (s.at cyc) 0x0001 0 0xFF
        (accessRecord (physical (Reg.LAW_CW_DATA l.ix)) (.lane w) true .word false 3) 0]) ∧
  (∀ (cyc : Nat) (l : Lane) (v : Word) (s : State),
    ∃ t, exec (.lawPortWrite cyc .safety l v) s = .next t ∧ t.m.law = s.m.law ∧ Quiet s t []) ∧
  (∀ (cyc : Nat) (l : Lane) (s : State),
    ∃ t, exec (.lawPortRead cyc l) s = .next t ∧ t.m.reply = .data (s.m.portWord l) ∧ t.m.law = s.m.law ∧
      t.m.fld (Reg.LAW_CW_ADDR l.ix) 15 0 = (s.m.fld (Reg.LAW_CW_ADDR l.ix) 15 0 + 1) % 2 ^ 16 ∧ Quiet s t [Reg.LAW_CW_ADDR l.ix]) ∧
  (∀ (cyc : Nat) (l : Lane) (s : State), s.m.injState l = 1 → s.m.freqPassed l (s.m.inj l).freq = true →
    ∃ t, exec (.injectionDurationEnd cyc l) s = .next t ∧ t.m.injState l = 2 ∧ t.m.fld (Reg.LAW_INJ_STAT l.ix) 25 22 = 2 ∧
      t.m.inj l = { s.m.inj l with
        freq := (s.m.rd (Reg.LAW_INJ_F1 l.ix)).toNat, rampLeft := s.m.fld (Reg.LAW_INJ_CTRL l.ix) 11 0 } ∧
      t.m.law.get l.other = s.m.law.get l.other ∧ Quiet s t [Reg.LAW_INJ_STAT l.ix]) ∧
  (∀ (cyc : Nat) (l : Lane) (s : State), s.m.injState l = 1 → s.m.freqPassed l (s.m.inj l).freq = false →
    s.m.rd (Reg.LAW_INJ_DUR l.ix) ≠ 0#32 → (s.m.rd (Reg.LAW_INJ_DUR l.ix)).toNat ≤ (s.m.rd (Reg.LAW_INJ_TICKS l.ix)).toNat →
    ∃ t, exec (.injectionDurationEnd cyc l) s = .next t ∧ t.m.injState l = 2 ∧ t.m.fld (Reg.LAW_INJ_STAT l.ix) 25 22 = 1 ∧
      t.m.inj l = { s.m.inj l with rampLeft := s.m.fld (Reg.LAW_INJ_CTRL l.ix) 11 0 } ∧
      t.m.law.get l.other = s.m.law.get l.other ∧ Quiet s t [Reg.LAW_INJ_STAT l.ix]) ∧
  (∀ (cyc : Nat) (l : Lane) (s : State), s.m.injState l = 2 → s.m.freqPassed l (s.m.inj l).freq = true →
    ∃ t, exec (.injectionDurationEnd cyc l) s = .next t ∧
      t.m.inj l = { s.m.inj l with freq := (s.m.rd (Reg.LAW_INJ_F1 l.ix)).toNat } ∧
      t.m.law.get l.other = s.m.law.get l.other ∧ Quiet s t []) ∧
  (∀ (cyc : Nat) (l : Lane) (s : State), s.m.injState l = 0 ∨ s.m.injState l = 3 ∨ (s.m.freqPassed l (s.m.inj l).freq = false ∧
      (s.m.injState l = 1 → s.m.rd (Reg.LAW_INJ_DUR l.ix) = 0#32 ∨
        (s.m.rd (Reg.LAW_INJ_TICKS l.ix)).toNat < (s.m.rd (Reg.LAW_INJ_DUR l.ix)).toNat)) →
    ∃ t, exec (.injectionDurationEnd cyc l) s = .next t ∧ t.m.law = s.m.law ∧ Quiet s t []) ∧
  (∀ (cyc : Nat) (l : Lane) (s : State), s.m.injState l = 2 → (s.m.inj l).rampLeft = 0 →
    ∃ t, exec (.injectionRampOutEnd cyc l) s = .next t ∧ t.m.injState l = 0 ∧
      t.m.fld (Reg.LAW_INJ_STAT l.ix) 25 22 = s.m.fld (Reg.LAW_INJ_STAT l.ix) 25 22 ∧
      t.m.rd (Reg.LAW_IRQ_STAT l.ix) = s.m.rd (Reg.LAW_IRQ_STAT l.ix) ||| 8#32 ∧
      Raises s t [eventAt (s.at cyc) 0x1006 0 (s.m.injSlot l) [s.m.fld (Reg.LAW_INJ_STAT l.ix) 25 22] l.origin] ∧
      SameRegsBut s t [Reg.LAW_INJ_STAT l.ix, Reg.LAW_IRQ_STAT l.ix] ∧ SameMemory s t) ∧
  (∀ (cyc : Nat) (l : Lane) (s : State), s.m.injState l ≠ 2 ∨ (s.m.inj l).rampLeft ≠ 0 →
    ∃ t, exec (.injectionRampOutEnd cyc l) s = .next t ∧ t.m.law = s.m.law ∧ Quiet s t []) ∧
  (∀ (cyc : Nat) (l : Lane) (k : Fin 16) (s : State),
    s.m.fld (Reg.LAW_SLOT_OSC l.ix k) 31 16 ≤ (s.m.lawSlot l k).win →
    ∃ t, exec (.oscillationWindowEnd cyc l k) s = .next t ∧ (t.m.lawSlot l k).win = 0 ∧ (t.m.lawSlot l k).swings = 0 ∧
      t.m.fld (Reg.LAW_SLOT_STAT l.ix k) 15 8 = 0 ∧ Quiet s t [Reg.LAW_SLOT_STAT l.ix k]) ∧
  (∀ (cyc : Nat) (l : Lane) (k : Fin 16) (s : State),
    (s.m.lawSlot l k).win < s.m.fld (Reg.LAW_SLOT_OSC l.ix k) 31 16 →
    ∃ t, exec (.oscillationWindowEnd cyc l k) s = .next t ∧ t.m.lawSlot l k = s.m.lawSlot l k ∧
      t.m.fld (Reg.LAW_SLOT_STAT l.ix k) 15 8 = (s.m.lawSlot l k).swings % 256 ∧ Quiet s t [Reg.LAW_SLOT_STAT l.ix k])

/-- What takes a motor's slot off: a current sum that failed for three ticks, a polarity that three tries did not decide, a loss that
outlasts LOSTMAX, above the short-circuit limit of the EMF and below it, and lost contrast are F3 events of the slot, and its machine is
in FAULT; in a LIVE lane the cause enters accession (stated where nothing else waits there). Short of that each changes nothing.
Completes: PHASE_CURRENT_SUM_FAULT, REACQUISITION_FAILED, INJECTION_CONTRAST_LOST, POLARITY_DETECTION. Data of event records beyond the
spec's, and ORIGIN and KIND 10 where no rule names them, are the model's choice (log entries 20 and 21). -/
def Obligations.MotorFaultsStopTheirSlot : Prop :=
  (∀ (cyc : Nat) (l : Lane) (i : Fin 2) (s : State) (k : Nat), s.m.slotOfMotor l i = k → s.m.live l = true → s.roomy →
    3 ≤ (s.m.motor l i).i0Count →
    ∃ t, exec (.phaseCurrentSumFault cyc l i) s = .next t ∧ t.m.modState l k = 6 ∧ (t.m.motor l i).i0Count = 0 ∧
      Enters s t cyc ⟨10, k, 0, 0, 0x1401, []⟩ ∧ Raises s t [eventAt (s.at cyc) 0x1401 3 k [] l.origin] ∧
      SameRegsBut s t [Reg.MOD_STAT l.ix k] ∧ SameMemory s t) ∧
  (∀ (cyc : Nat) (l : Lane) (i : Fin 2) (s : State), (s.m.motor l i).i0Count < 3 →
    ∃ t, exec (.phaseCurrentSumFault cyc l i) s = .next t ∧ t.m.foc = s.m.foc ∧ t.m.mod = s.m.mod ∧ Quiet s t []) ∧
  (∀ (cyc : Nat) (l : Lane) (i : Fin 2) (s : State) (k : Nat), s.m.slotOfMotor l i = k → s.m.live l = true → s.roomy →
    (s.m.motor l i).polStep = 5 → 2 ≤ (s.m.motor l i).polTries →
    ((s.m.motor l i).polNeg - (s.m.motor l i).polPos).natAbs ≤ 8 * s.m.fld (Reg.FOC_M_PD l.ix i) 11 0 * 2 ^ 13 →
    ∃ t, exec (.polarityDetection cyc l i) s = .next t ∧ t.m.modState l k = 6 ∧
      Enters s t cyc ⟨10, k, 0, 0, 0x1409, []⟩ ∧ Raises s t [eventAt (s.at cyc) 0x1409 3 k [] l.origin] ∧
      SameRegsBut s t [Reg.MOD_STAT l.ix k] ∧ SameMemory s t) ∧
  (∀ (cyc : Nat) (l : Lane) (i : Fin 2) (s : State) (k code : Nat) (hi lo : Nat), s.m.slotOfMotor l i = k → s.m.live l = true →
    s.roomy → (s.m.motor l i).phase = .extrapolating → s.m.lostMax l i ≤ (s.m.motor l i).k → (s.m.motor l i).reacqNow = false →
    (code, hi, lo) = (if (s.m.motor l i).emfhi then (0x1405, 15, 8) else (0x1406, 7, 0)) →
    ∃ t, exec (.reacquisitionFailed cyc l i) s = .next t ∧ t.m.modState l k = 6 ∧
      t.m.fld (Reg.FOC_M_EVCNT l.ix i) hi lo = min (s.m.fld (Reg.FOC_M_EVCNT l.ix i) hi lo + 1) 0xFF ∧
      Enters s t cyc ⟨10, k, 0, 0, code, []⟩ ∧ Raises s t [eventAt (s.at cyc) code 3 k [] l.origin] ∧
      SameRegsBut s t [Reg.MOD_STAT l.ix k, Reg.FOC_M_EVCNT l.ix i] ∧ SameMemory s t) ∧
  (∀ (cyc : Nat) (l : Lane) (i : Fin 2) (s : State), (s.m.motor l i).phase ≠ .extrapolating ∨
      (s.m.motor l i).k < s.m.lostMax l i ∨ (s.m.motor l i).reacqNow = true →
    ∃ t, exec (.reacquisitionFailed cyc l i) s = .next t ∧ t.m.foc = s.m.foc ∧ t.m.mod = s.m.mod ∧ Quiet s t []) ∧
  (∀ (cyc : Nat) (l : Lane) (i : Fin 2) (s : State) (k : Nat), s.m.slotOfMotor l i = k → s.m.live l = true → s.roomy →
    8 ≤ (s.m.motor l i).hcCount →
    ∃ t, exec (.injectionContrastLost cyc l i) s = .next t ∧ t.m.modState l k = 6 ∧
      Enters s t cyc ⟨10, k, 0, 0, 0x140D, []⟩ ∧ Raises s t [eventAt (s.at cyc) 0x140D 3 k [] l.origin] ∧
      SameRegsBut s t [Reg.MOD_STAT l.ix k] ∧ SameMemory s t) ∧
  (∀ (cyc : Nat) (l : Lane) (i : Fin 2) (s : State), (s.m.motor l i).hcCount < 8 →
    ∃ t, exec (.injectionContrastLost cyc l i) s = .next t ∧ t.m.foc = s.m.foc ∧ t.m.mod = s.m.mod ∧ Quiet s t [])

/-- The motor `i` of lane `l` changed by `g`, and nothing else of the field control. -/
def MotorBecomes (s t : State) (l : Lane) (i : Nat) (g : FocMotor → FocMotor) : Prop :=
  t.m.foc = s.m.foc.set l (upd (s.m.foc.get l) i g)

/-- A polarity found negative turns the estimate by half a turn, one found positive keeps it, and an undecided try is taken again, up
to three; sensor and estimate apart for 16 ticks are told once; a loss declared with the angle from the sensor continues on it, one
declared without begins to extrapolate; the observer re-acquired ends either; and a short circuit is released below the limit of the
EMF, or after 16 ticks of low current, and asks for a flying start. Each tells its event, and short of its condition changes nothing.
Completes: POLARITY_DETECTION, SENSOR_DIVERGENCE, OBSERVER_LOSS, OBSERVER_REACQUIRED, SHORT_CIRCUIT_RELEASE. Data of event records
beyond the spec's, and ORIGIN and KIND 10 where no rule names them, are the model's choice (log entries 20 and 21). -/
def Obligations.MotorDecisionsOfATick : Prop :=
  (∀ (cyc : Nat) (l : Lane) (i : Fin 2) (s : State) (lim : Int), (s.m.motor l i).polStep = 5 →
    lim = 8 * s.m.fld (Reg.FOC_M_PD l.ix i) 11 0 * 2 ^ 13 →
    (lim < (s.m.motor l i).polNeg - (s.m.motor l i).polPos →
      ∃ t, exec (.polarityDetection cyc l i) s = .next t ∧ Quiet s t [] ∧
        MotorBecomes s t l i fun f => { f with polStep := 0, polOk := true, thh := (f.thh + 2 ^ 31) % 2 ^ 32 }) ∧
    (lim < (s.m.motor l i).polPos - (s.m.motor l i).polNeg →
      ∃ t, exec (.polarityDetection cyc l i) s = .next t ∧ Quiet s t [] ∧
        MotorBecomes s t l i fun f => { f with polStep := 0, polOk := true }) ∧
    (((s.m.motor l i).polNeg - (s.m.motor l i).polPos).natAbs ≤ lim → (s.m.motor l i).polTries < 2 →
      ∃ t, exec (.polarityDetection cyc l i) s = .next t ∧ Quiet s t [] ∧
        MotorBecomes s t l i fun f => { f with polStep := 2, polTick := 0, polPos := 0, polNeg := 0, polTries := f.polTries + 1 })) ∧
  (∀ (cyc : Nat) (l : Lane) (i : Fin 2) (s : State), (s.m.motor l i).polStep ≠ 5 →
    ∃ t, exec (.polarityDetection cyc l i) s = .next t ∧ t.m.foc = s.m.foc ∧ Quiet s t []) ∧
  (∀ (cyc : Nat) (l : Lane) (i : Fin 2) (s : State), 16 ≤ (s.m.motor l i).divCount → (s.m.motor l i).div = false →
    ∃ t, exec (.sensorDivergence cyc l i) s = .next t ∧ t.m.bit (Reg.FOC_M_STAT l.ix i) 25 = true ∧
      MotorBecomes s t l i (fun f => { f with div := true }) ∧
      Raises s t [eventAt (s.at cyc) 0x140A 1 (s.m.slotOfMotor l i) [] l.origin] ∧
      SameRegsBut s t [Reg.FOC_M_STAT l.ix i] ∧ SameMemory s t) ∧
  (∀ (cyc : Nat) (l : Lane) (i : Fin 2) (s : State), (s.m.motor l i).divCount < 16 ∨ (s.m.motor l i).div = true →
    ∃ t, exec (.sensorDivergence cyc l i) s = .next t ∧ t.m.foc = s.m.foc ∧ Quiet s t []) ∧
  (∀ (cyc : Nat) (l : Lane) (i : Fin 2) (s : State), (s.m.motor l i).declaring = true → (s.m.motor l i).angsrc = 1 →
    ∃ t, exec (.observerLoss cyc l i) s = .next t ∧
      t.m.fld (Reg.FOC_M_EVCNT l.ix i) 31 24 = min (s.m.fld (Reg.FOC_M_EVCNT l.ix i) 31 24 + 1) 0xFF ∧
      MotorBecomes s t l i (fun f => { f with phase := .onSensor, lossCount := 0, reacq := 0 }) ∧
      Raises s t [eventAt (s.at cyc) 0x1402 1 (s.m.slotOfMotor l i) [] l.origin] ∧
      SameRegsBut s t [Reg.FOC_M_EVCNT l.ix i] ∧ SameMemory s t) ∧
  (∀ (cyc : Nat) (l : Lane) (i : Fin 2) (s : State), (s.m.motor l i).declaring = true → (s.m.motor l i).angsrc ≠ 1 →
    (∀ t, (s.m.motor l i).lastRestart = some t → t + 2000000000 < (s.at cyc).now) →
    ∃ t, exec (.observerLoss cyc l i) s = .next t ∧
      t.m.fld (Reg.FOC_M_EVCNT l.ix i) 31 24 = min (s.m.fld (Reg.FOC_M_EVCNT l.ix i) 31 24 + 1) 0xFF ∧
      MotorBecomes s t l i (fun f => { f with phase := .extrapolating, k := 1, lossCount := 0, reacq := 0 }) ∧
      Raises s t [eventAt (s.at cyc) 0x1403 0 (s.m.slotOfMotor l i) [] l.origin] ∧
      SameRegsBut s t [Reg.FOC_M_EVCNT l.ix i] ∧ SameMemory s t) ∧
  (∀ (cyc : Nat) (l : Lane) (i : Fin 2) (s : State) (t0 : Nat), (s.m.motor l i).declaring = true → (s.m.motor l i).angsrc ≠ 1 →
    (s.m.motor l i).lastRestart = some t0 → (s.at cyc).now ≤ t0 + 2000000000 → s.m.live l = true → s.roomy →
    ∃ t, exec (.observerLoss cyc l i) s = .next t ∧ t.m.modState l (s.m.slotOfMotor l i) = 6 ∧
      Enters s t cyc ⟨10, s.m.slotOfMotor l i, 0, 0, 0x1408, []⟩ ∧
      Raises s t [eventAt (s.at cyc) 0x1403 0 (s.m.slotOfMotor l i) [] l.origin,
        eventAt (s.at cyc) 0x1408 3 (s.m.slotOfMotor l i) [] l.origin] ∧
      SameRegsBut s t [Reg.MOD_STAT l.ix (s.m.slotOfMotor l i), Reg.FOC_M_EVCNT l.ix i] ∧ SameMemory s t) ∧
  (∀ (cyc : Nat) (l : Lane) (i : Fin 2) (s : State), (s.m.motor l i).declaring = false →
    ∃ t, exec (.observerLoss cyc l i) s = .next t ∧ t.m.foc = s.m.foc ∧ Quiet s t []) ∧
  (∀ (cyc : Nat) (l : Lane) (i : Fin 2) (s : State), (s.m.motor l i).reacqNow = true →
    (s.m.motor l i).phase = .extrapolating ∨ (s.m.motor l i).phase = .onSensor →
    ∃ t, exec (.observerReacquired cyc l i) s = .next t ∧
      MotorBecomes s t l i (fun f => { f with phase := .none, k := 0, reacq := 0, reacqNow := false, lossCount := 0 }) ∧
      t.m.fld (Reg.FOC_M_EVCNT l.ix i) 23 16 = min (s.m.fld (Reg.FOC_M_EVCNT l.ix i) 23 16 + 1) 0xFF ∧
      Raises s t [eventAt (s.at cyc) 0x1404 0 (s.m.slotOfMotor l i) [] l.origin] ∧
      SameRegsBut s t [Reg.FOC_M_EVCNT l.ix i] ∧ SameMemory s t) ∧
  (∀ (cyc : Nat) (l : Lane) (i : Fin 2) (s : State), (s.m.motor l i).reacqNow = false ∨
      ((s.m.motor l i).phase ≠ .extrapolating ∧ (s.m.motor l i).phase ≠ .onSensor) →
    ∃ t, exec (.observerReacquired cyc l i) s = .next t ∧ t.m.foc = s.m.foc ∧ Quiet s t []) ∧
  (∀ (cyc : Nat) (l : Lane) (i : Fin 2) (s : State), (s.m.motor l i).ascHeld = true →
    (s.m.motor l i).emfhi = false ∨ 16 ≤ (s.m.motor l i).scLow →
    ∃ t, exec (.shortCircuitRelease cyc l i) s = .next t ∧
      MotorBecomes s t l i (fun f => { f with ascHeld := false, ascReleased := true, scLow := 0, restartReq := true }) ∧
      Raises s t [eventAt (s.at cyc) 0x1407 0 (s.m.slotOfMotor l i) [] l.origin] ∧ SameRegsBut s t [] ∧ SameMemory s t) ∧
  (∀ (cyc : Nat) (l : Lane) (i : Fin 2) (s : State), (s.m.motor l i).ascHeld = false ∨
      ((s.m.motor l i).emfhi = true ∧ (s.m.motor l i).scLow < 16) →
    ∃ t, exec (.shortCircuitRelease cyc l i) s = .next t ∧ t.m.foc = s.m.foc ∧ Quiet s t [])

/-- What a flying start decides from: its sensing is complete, the speed `w` is that of the differences seen (a free value where they
give none, log entry 2), `still` says that it is below FLYZ or the flux too small, `odd` that speed and flux disagree. -/
abbrev FlyingSense (cyc : Nat) (l : Lane) (k : Fin 16) (s : State) (i : Nat) (w : Int) (still odd : Prop) : Prop :=
  s.m.motorOf l k = some i ∧ s.m.modState l k = 1 ∧ (s.m.modSlot l k).decide = true ∧
  w = ((s.at cyc).senseSpeed (s.m.modSlot l k).phi ((s.m.modSlot l k).n - 1) (s.m.rdS (Reg.FOC_M_KW l.ix i))).1 ∧
  (still ↔ w.natAbs < s.m.fld (Reg.MOD_FLY l.ix k) 7 0 * 2 ^ 17 ∨
    (s.m.modSlot l k).emagMin < s.m.fld (Reg.MOD_EMFMIN l.ix k) 15 0 * 2 ^ 13) ∧
  (odd ↔ mulq w.natAbs (s.m.rdS (Reg.FOC_M_PSI l.ix i)) <
    4 * (((isqrt ((s.m.modSlot l k).ea * (s.m.modSlot l k).ea + (s.m.modSlot l k).eb * (s.m.modSlot l k).eb) : Int) -
      mulq w.natAbs (s.m.rdS (Reg.FOC_M_PSI l.ix i))).natAbs : Int))

/-- A flying start that senses a motor at rest goes straight to RUN with STILL; one whose speed and flux agree is caught, with its angle
in MOD_FLYANG; one in which they disagree senses once more, and the second time fails with 0x1802 and is in FAULT. Each decision is told
with its speed. A stop whose dwell is met ends in IDLE, with event 0x1806. What has nothing to decide changes nothing. Completes:
FLYING_START_DECISION, STOP_COMPLETE. Data of event records beyond the spec's, and ORIGIN and KIND 10 where no rule names them, are the
model's choice (log entries 20 and 21). -/
def Obligations.FlyingStartsAndStopsDecide : Prop :=
  (∀ (cyc : Nat) (l : Lane) (k : Fin 16) (s : State) (i : Nat) (w : Int) (still odd : Prop), FlyingSense cyc l k s i w still odd →
    still → ∃ t, exec (.flyingStartDecision cyc l k) s = .next t ∧ t.m.modState l k = 4 ∧ t.m.bit (Reg.MOD_STAT l.ix k) 24 = true ∧
      t.m.rd (Reg.MOD_FLYSPD l.ix k) = wordOf w ∧
      Raises s t [eventAt (s.at cyc) 0x1801 0 k (leBytes 4 (u32 w) ++ [0]) l.origin] ∧
      SameRegsBut s t [Reg.MOD_STAT l.ix k, Reg.MOD_FLYSPD l.ix k] ∧ SameMemory s t) ∧
  (∀ (cyc : Nat) (l : Lane) (k : Fin 16) (s : State) (i : Nat) (w : Int) (still odd : Prop), FlyingSense cyc l k s i w still odd →
    ¬still → odd → (s.m.modSlot l k).repeated = false →
    ∃ t, exec (.flyingStartDecision cyc l k) s = .next t ∧ t.m.modState l k = 1 ∧ t.m.rd (Reg.MOD_FLYSPD l.ix k) = wordOf w ∧
      (t.m.modSlot l k).n = 0 ∧ (t.m.modSlot l k).phi = 0 ∧ (t.m.modSlot l k).repeated = true ∧ (t.m.modSlot l k).decide = false ∧
      Raises s t [eventAt (s.at cyc) 0x1801 0 k (leBytes 4 (u32 w) ++ [1]) l.origin] ∧
      SameRegsBut s t [Reg.MOD_STAT l.ix k, Reg.MOD_FLYSPD l.ix k] ∧ SameMemory s t) ∧
  (∀ (cyc : Nat) (l : Lane) (k : Fin 16) (s : State) (i : Nat) (w : Int) (still odd : Prop), FlyingSense cyc l k s i w still odd →
    ¬still → odd → (s.m.modSlot l k).repeated = true → s.m.live l = true → s.roomy →
    ∃ t, exec (.flyingStartDecision cyc l k) s = .next t ∧ t.m.modState l k = 6 ∧ t.m.rd (Reg.MOD_FLYSPD l.ix k) = wordOf w ∧
      Enters s t cyc ⟨10, k, 0, 0, 0x1802, []⟩ ∧
      Raises s t [eventAt (s.at cyc) 0x1801 0 k (leBytes 4 (u32 w) ++ [1]) l.origin, eventAt (s.at cyc) 0x1802 3 k [] l.origin] ∧
      SameRegsBut s t [Reg.MOD_STAT l.ix k, Reg.MOD_FLYSPD l.ix k] ∧ SameMemory s t) ∧
  (∀ (cyc : Nat) (l : Lane) (k : Fin 16) (s : State) (i : Nat) (w : Int) (still odd : Prop) (th : Nat),
    FlyingSense cyc l k s i w still odd → ¬still → ¬odd →
    th = u32 ((s.m.modSlot l k).phiprev - sgnI w * 2 ^ 30 + (asr (w * s.m.rdS (Reg.FOC_M_KW l.ix i)) 29 *
      (8 * (s.m.fld (Reg.FOC_M_CFG l.ix i) 15 0 : Int) - 3 * (s.m.period : Int))) / (8 * (s.m.period : Int))) →
    ∃ t, exec (.flyingStartDecision cyc l k) s = .next t ∧ t.m.modState l k = 1 ∧ t.m.rd (Reg.MOD_FLYSPD l.ix k) = wordOf w ∧
      t.m.rd (Reg.MOD_FLYANG l.ix k) = BitVec.ofNat 32 th ∧ (t.m.modSlot l k).catching = some (w, th) ∧
      Raises s t [eventAt (s.at cyc) 0x1801 0 k (leBytes 4 (u32 w) ++ [2]) l.origin] ∧
      SameRegsBut s t [Reg.MOD_STAT l.ix k, Reg.MOD_FLYSPD l.ix k, Reg.MOD_FLYANG l.ix k] ∧ SameMemory s t) ∧
  (∀ (cyc : Nat) (l : Lane) (k : Fin 16) (s : State), s.m.motorOf l k = none ∨ s.m.modState l k ≠ 1 ∨
      (s.m.modSlot l k).decide = false →
    ∃ t, exec (.flyingStartDecision cyc l k) s = .next t ∧ t.m.mod = s.m.mod ∧ t.m.foc = s.m.foc ∧ Quiet s t []) ∧
  (∀ (cyc : Nat) (l : Lane) (k : Fin 16) (s : State), s.m.modState l k = 5 →
    (if (s.m.modSlot l k).stopt = 0 then 16 else 4) ≤ (s.m.modSlot l k).stopRun →
    ∃ t, exec (.stopComplete cyc l k) s = .next t ∧ t.m.modState l k = 0 ∧ Raises s t [eventAt (s.at cyc) 0x1806 0 k [] l.origin] ∧
      SameRegsBut s t [Reg.MOD_STAT l.ix k] ∧ SameMemory s t) ∧
  (∀ (cyc : Nat) (l : Lane) (k : Fin 16) (s : State), s.m.modState l k ≠ 5 ∨
      (s.m.modSlot l k).stopRun < (if (s.m.modSlot l k).stopt = 0 then 16 else 4) →
    ∃ t, exec (.stopComplete cyc l k) s = .next t ∧ t.m.mod = s.m.mod ∧ Quiet s t [])

/-- A corrected error of law memory counts in LAW_ECC; an uncorrectable one raises event 0x1001 of class F2 for its lane, which is
no longer admitted. Completes: LAW_MEMORY_ERROR. -/
def Obligations.LawMemoryErrorsCountOrFaultTheLane : Prop :=
  ∀ (cyc : Nat) (l : Lane) (s : State),
    (∃ t, exec (.lawMemoryError cyc l true) s = .next t ∧ Quiet s t [Reg.LAW_ECC l.ix] ∧
      t.m.fld (Reg.LAW_ECC l.ix) 15 0 = min (s.m.fld (Reg.LAW_ECC l.ix) 15 0 + 1) 0xFFFF) ∧
    (∃ t, exec (.lawMemoryError cyc l false) s = .next t ∧ t.m.admitted l = false ∧
      t.m.rd (Reg.LAW_IRQ_STAT l.ix) = s.m.rd (Reg.LAW_IRQ_STAT l.ix) ||| 0x40#32 ∧
      SameRegsBut s t [Reg.LAW_IRQ_STAT l.ix, healthReg l] ∧ SameMemory s t ∧
      ∃ data, Raises s t [eventAt (s.at cyc) 0x1001 2 0xFF data l.origin])

/-! ### Gate drive -/

/-- A crossing that lasts long enough, at the hard level or at the main level after its blanking, latches its channel, shows it in
GDI_FAULT, counts it, and holds its slot until it is classified; one that does not, one of a channel that is latched already, and one
of a pair that no slot uses change nothing. 25 ns after the first detection, one leg alone is an F3 of its kind, two legs and more are
an F3 leg-to-leg short that latches every channel of the slot, and a detection later than that is told by itself; before the 25 ns have
passed, and with nothing detected, nothing happens. Completes: SHORT_CIRCUIT_DETECTION, SHORT_CIRCUIT_CLASSIFY. Data of event records
beyond the spec's, and ORIGIN and KIND 10 where no rule names them, are the model's choice (log entries 20 and 21). -/
def Obligations.ShortCircuitsLatchAndAreClassified : Prop :=
  (∀ (cyc : Nat) (ch : Fin 32) (mv ns : Nat) (hard : Bool) (s : State) (k p : Nat), p = ch.val / 2 → s.m.slotOfPair p = some k →
    (s.at cyc).scLevel ch mv ns = some hard → (if ch.val % 2 = 1 then (s.m.pair p).latchL else (s.m.pair p).latchH) = false →
    ∃ t g, exec (.shortCircuitDetection cyc ch mv ns) s = .next t ∧ t.m.gate.pairs = upd s.m.gate.pairs p g ∧
      (∀ x, (g x).latchH = (x.latchH || ch.val % 2 == 0) ∧ (g x).latchL = (x.latchL || ch.val % 2 == 1)) ∧
      t.m.bit Reg.GDI_FAULT p = ((t.m.pair p).latchH || (t.m.pair p).latchL) ∧
      t.m.fld (Reg.GDI_PR_STAT p) 12 10 = (if hard then 2 else 1) ∧
      t.m.fld (Reg.GDI_PR_CNT p) 15 0 = min (s.m.fld (Reg.GDI_PR_CNT p) 15 0 + 1) 0xFFFF ∧
      t.m.gate.held = s.m.gate.held ||| 2 ^ k ∧
      t.m.gate.detections = s.m.gate.detections ++ [⟨k, p, ch, hard, (s.at cyc).now, (s.at cyc).time.cyc⟩] ∧
      Quiet s t [Reg.GDI_FAULT, Reg.GDI_PR_STAT p, Reg.GDI_PR_CNT p, Reg.GDI_OVSTAT]) ∧
  (∀ (cyc : Nat) (ch : Fin 32) (mv ns : Nat) (s : State), s.m.slotOfPair (ch.val / 2) = none ∨
      (s.at cyc).scLevel ch mv ns = none ∨
      (if ch.val % 2 = 1 then (s.m.pair (ch.val / 2)).latchL else (s.m.pair (ch.val / 2)).latchH) = true →
    ∃ t, exec (.shortCircuitDetection cyc ch mv ns) s = .next t ∧ t.m.gate = s.m.gate ∧ Quiet s t []) ∧
  (∀ (cyc : Nat) (k : Fin 16) (s : State) (d : Detection), s.m.gate.detections.filter (·.slot == k.val) = [d] →
    d.at_ + 50 ≤ (s.at cyc).now → s.roomy →
    ∃ t, exec (.shortCircuitClassify cyc k) s = .next t ∧
      SlotFault s t cyc (if d.hard then 0x1C02 else 0x1C01) k (d.ch :: leBytes 2 d.cyc) ∧
      t.m.gate.detections = s.m.gate.detections.filter (·.slot != k.val) ∧
      t.m.gate.pairs = s.m.gate.pairs ∧ t.m.rd Reg.GDI_IRQ_STAT = s.m.rd Reg.GDI_IRQ_STAT ||| 1#32 ∧
      SameRegsBut s t [Reg.GDI_IRQ_STAT] ∧ SameMemory s t) ∧
  (∀ (cyc : Nat) (k : Fin 16) (s : State) (d : Detection) (mine : List Detection) (ps : List Nat),
    mine = s.m.gate.detections.filter (·.slot == k.val) →
    mine.head? = some d → d.at_ + 50 ≤ (s.at cyc).now → (∀ x ∈ mine, x.at_ ≤ d.at_ + 50) → ps = (mine.map (·.pair)).dedup →
    2 ≤ ps.length → s.roomy →
    ∃ t, exec (.shortCircuitClassify cyc k) s = .next t ∧ SlotFault s t cyc 0x1C03 k (leBytes 2 (ps.map (2 ^ ·)).sum) ∧
      (∀ p ∈ s.m.pairsOf k, p < s.m.gate.pairs.length → (t.m.pair p).latchH = true ∧ (t.m.pair p).latchL = true) ∧
      t.m.gate.detections = s.m.gate.detections.filter (·.slot != k.val) ∧ t.m.gate.l2l = s.m.gate.l2l ||| 2 ^ k.val ∧
      t.m.bit Reg.GDI_IRQ_STAT 1 = true ∧
      SameRegsBut s t (Reg.GDI_IRQ_STAT :: Reg.GDI_FAULT :: Reg.GDI_OVSTAT :: (List.range 16).map Reg.GDI_PR_STAT) ∧
      SameMemory s t) ∧
  (∀ (cyc : Nat) (k : Fin 16) (s : State) (d e : Detection), s.m.gate.detections.filter (·.slot == k.val) = [d, e] →
    d.at_ + 50 ≤ (s.at cyc).now → d.at_ + 50 < e.at_ → s.roomy →
    ∃ t, exec (.shortCircuitClassify cyc k) s = .next t ∧
      Raises s t [eventAt (s.at cyc) (if d.hard then 0x1C02 else 0x1C01) 3 k (d.ch :: leBytes 2 d.cyc) 0,
        eventAt (s.at cyc) (if e.hard then 0x1C02 else 0x1C01) 3 k (e.ch :: leBytes 2 e.cyc) 0] ∧
      t.m.gate.detections = s.m.gate.detections.filter (·.slot != k.val) ∧ t.m.gate.pairs = s.m.gate.pairs ∧
      SameRegsBut s t [Reg.GDI_IRQ_STAT] ∧ SameMemory s t) ∧
  (∀ (cyc : Nat) (k : Fin 16) (s : State),
    (∀ d, (s.m.gate.detections.filter (·.slot == k.val)).head? = some d → (s.at cyc).now < d.at_ + 50) →
    ∃ t, exec (.shortCircuitClassify cyc k) s = .next t ∧ t.m.gate = s.m.gate ∧ Quiet s t [])

/-- A clear releases the latches of each pair it names whose last accepted frame was safe and whose comparators are quiet; a pair short
of that is refused with event 0x1C0E and keeps its latches, as a locked one does without an event. A leg's latch clears where its last
accepted frame was safe and its supply good, and stays otherwise. Above VON, with the rails good, the clamp engages on a chopper pair
without a latch, once, with event 0x1C0B; below VOFF it is released. HARD withdraws the enables of every PFC3 and DAB slot, with an F3
for each. The safety processor's writes clear nothing. Completes: GDI_CLEAR, GDL_CLEAR, OVERVOLTAGE_CLAMP, CLAMP_RELEASE,
LINK_HARD_OVERVOLTAGE. Data of event records beyond the spec's, and ORIGIN and KIND 10 where no rule names them, are the model's choice
(log entries 20 and 21). -/
def Obligations.ClearsAndTheLinkClamp : Prop :=
  (∀ (cyc : Nat) (l : Lane) (v : Word) (q : BitVec 16) (s : State), s.alone l →
    (∀ p : Fin 16, v.bit p = true → q.getLsbD p = true ∧ s.m.bit Reg.GDI_FAULT (16 + p) = false ∧
      ∃ k f, s.m.slotOfPair p = some k ∧ s.m.lastAccepted k = some f ∧ f.safe = true) →
    ∃ t, exec (.gdiClear cyc (.lane l) v q) s = .next t ∧
      (∀ p : Fin 16, v.bit p = true → p.val < s.m.gate.pairs.length →
        (t.m.pair p).latchH = false ∧ (t.m.pair p).latchL = false ∧ t.m.bit Reg.GDI_FAULT p = false) ∧
      (∀ p : Fin 16, v.bit p = false → t.m.pair p = s.m.pair p ∧ t.m.bit Reg.GDI_FAULT p = s.m.bit Reg.GDI_FAULT p) ∧
      t.m.gate.legs = s.m.gate.legs ∧ Quiet s t (Reg.GDI_FAULT :: (List.range 16).map Reg.GDI_PR_STAT)) ∧
  (∀ (cyc : Nat) (l : Lane) (q : BitVec 16) (s : State) (p : Fin 16) (k : Nat), s.alone l → s.m.slotOfPair p = some k →
    s.m.bit Reg.GDI_FAULT (16 + p) = false →
    (∀ f, s.m.lastAccepted k = some f → f.safe = false) ∨ q.getLsbD p = false →
    ∃ t, exec (.gdiClear cyc (.lane l) (BitVec.ofNat 32 (2 ^ p.val)) q) s = .next t ∧ t.m.gate.pairs = s.m.gate.pairs ∧
      Raises s t [eventAt (s.at cyc) 0x1C0E 0 k [] 0] ∧ SameRegsBut s t [] ∧ SameMemory s t) ∧
  (∀ (cyc : Nat) (l : Lane) (q : BitVec 16) (s : State) (p : Fin 16), s.alone l →
    s.m.bit Reg.GDI_FAULT (16 + p) = true ∨ s.m.slotOfPair p = none →
    ∃ t, exec (.gdiClear cyc (.lane l) (BitVec.ofNat 32 (2 ^ p.val)) q) s = .next t ∧ t.m.gate.pairs = s.m.gate.pairs ∧ Quiet s t []) ∧
  (∀ (cyc : Nat) (l : Lane) (v : Word) (q : BitVec 24) (s : State), s.alone l →
    (∀ j : Fin 24, v.bit j = true → q.getLsbD j = true ∧
      ∃ k f, s.m.slotOfLeg j = some k ∧ s.m.lastAccepted k = some f ∧ f.safe = true) →
    ∃ t, exec (.gdlClear cyc (.lane l) v q) s = .next t ∧
      (∀ j : Fin 24, v.bit j = true → t.m.bit Reg.GDL_FAULT j = false ∧ t.m.bit (Reg.GDL_LEG_STAT j) 29 = false ∧
        (j.val < s.m.gate.legs.length → t.m.leg j = { s.m.leg j with latch := false })) ∧
      (∀ j : Fin 24, v.bit j = false → t.m.leg j = s.m.leg j ∧ t.m.bit Reg.GDL_FAULT j = s.m.bit Reg.GDL_FAULT j ∧
        t.m.rd (Reg.GDL_LEG_STAT j) = s.m.rd (Reg.GDL_LEG_STAT j)) ∧
      t.m.gate.pairs = s.m.gate.pairs ∧ Quiet s t (Reg.GDL_FAULT :: (List.range 24).map Reg.GDL_LEG_STAT)) ∧
  (∀ (cyc : Nat) (l : Lane) (q : BitVec 24) (s : State) (j : Fin 24), s.alone l →
    q.getLsbD j = false ∨ (∀ k f, s.m.slotOfLeg j = some k → s.m.lastAccepted k = some f → f.safe = false) →
    ∃ t, exec (.gdlClear cyc (.lane l) (BitVec.ofNat 32 (2 ^ j.val)) q) s = .next t ∧ t.m.gate.legs = s.m.gate.legs ∧ Quiet s t []) ∧
  (∀ (cyc : Nat) (v : Word) (q : BitVec 16) (r : BitVec 24) (s : State),
    (∃ t, exec (.gdiClear cyc .safety v q) s = .next t ∧ t.m.gate.pairs = s.m.gate.pairs ∧ Quiet s t []) ∧
    (∃ t, exec (.gdlClear cyc .safety v r) s = .next t ∧ t.m.gate.legs = s.m.gate.legs ∧ Quiet s t [])) ∧
  (∀ (cyc : Nat) (s : State) (p : Fin 16) (k : Nat), s.m.slotOfPair p = some k → s.m.isType k .chopper = true →
    (s.m.pair p).latchH = false → (s.m.pair p).latchL = false → s.m.mode ≠ .sleep → s.m.bit Reg.GDI_OVSTAT 0 = false →
    s.m.pwr.booted = true → s.m.pwr.phase = .up → s.m.pwr.due = none →
    ∃ t, exec (.overvoltageClamp cyc) s = .next t ∧ t.m.bit Reg.GDI_OVSTAT 0 = true ∧
      t.m.fld Reg.GDI_OVSTAT 31 16 = min (s.m.fld Reg.GDI_OVSTAT 31 16 + 1) 0xFFFF ∧ t.m.gate.clamped = true ∧
      ((s.m.pair p).uvH = false → t.m.clampForces p = true) ∧ Tells s t 0x1C0B 0 0xFF ∧
      ((∀ x ∈ s.m.gate.pairs, x.running = false) → Raises s t [eventAt (s.at cyc) 0x1C0B 0 0xFF [] 0] ∧
        SameRegsBut s t [Reg.GDI_OVSTAT, Reg.GDI_IRQ_STAT]) ∧ SameMemory s t) ∧
  (∀ (cyc : Nat) (s : State), s.m.bit Reg.GDI_OVSTAT 0 = true ∨ s.m.mode = .sleep ∨ s.m.clampPairs = [] ∨ s.m.pwr.booted = false ∨
      s.m.pwr.phase ≠ .up ∨ s.m.pwr.due ≠ none →
    ∃ t, exec (.overvoltageClamp cyc) s = .next t ∧ t.m.gate = { s.m.gate with voffAt := none } ∧ Quiet s t []) ∧
  (∀ (cyc : Nat) (s : State),
    ∃ t, exec (.clampRelease cyc) s = .next t ∧ t.m.bit Reg.GDI_OVSTAT 0 = false ∧ t.m.bit Reg.GDI_OVSTAT 1 = false ∧
      t.m.gate = { s.m.gate with voffAt := some (s.m.gate.voffAt.getD (s.at cyc).now) } ∧ Quiet s t [Reg.GDI_OVSTAT]) ∧
  (∀ (cyc : Nat) (s : State) (ks : List Nat), ks = s.m.slotsOf .pfc3 ++ s.m.slotsOf .dab → s.roomy →
    ∃ t, exec (.linkHardOvervoltage cyc) s = .next t ∧ Raises s t (ks.map fun k => eventAt (s.at cyc) 0x1C0C 3 k [] 0) ∧
      (∀ k ∈ ks, (s.at cyc).entryOf (s.at cyc).accTickNow ⟨10, k, 0, 0, 0x1C0C, []⟩ ∈ t.m.lane.waiting) ∧
      t.m.lane.waiting.length = ks.length ∧ t.m.bit Reg.GDI_OVSTAT 1 = true ∧
      t.m.gate = { s.m.gate with
        hardOff := s.m.gate.hardOff ||| (ks.map (2 ^ ·)).sum, hardSeen := true, voffAt := none } ∧
      t.m.bit Reg.GDI_IRQ_STAT 6 = (s.m.bit Reg.GDI_IRQ_STAT 6 || !ks.isEmpty) ∧
      SameRegsBut s t [Reg.GDI_OVSTAT, Reg.GDI_IRQ_STAT] ∧ SameMemory s t)

/-- Phase `i` of the low-voltage converter is not blocked: no trip, no failed test, no latch and no blocked leg. -/
def phaseFree (m : Mach) (i : Nat) : Bool :=
  !m.lvc.trip.testBit i && !m.lvc.diagBad.testBit i && !(m.leg i).latch && !(m.leg i).blocked

/-- A refresh pulse of leg `j` of slot `k` is due: refresh is in force, the leg neither OFF nor LOWON, the carrier at a peak, and the
bootstrap starved or an earlier pulse cut. -/
abbrev RefreshDue (m : Mach) (j k : Nat) : Prop :=
  m.bit (Reg.GDL_LEG_STAT j) 30 = true ∧ (m.leg j).mode ≠ 1 ∧ (m.leg j).mode ≠ 2 ∧
  (let span := ((m.slotEntry k).map fun e => (ratio e.rlog).2).getD 1
   m.extremeAt k (m.seq % span * m.period + m.time.cyc : Nat) false true = true) ∧
  ((m.leg j).refreshDue = true ∨ m.starved j k = true)

/-- What latches or holds a channel and is an F3 of its slot: a gate that does not fall, a lost barrier, a rail outside its window, a
drive leg's high-side supply, and its drain-source voltage above the threshold after its blanking; the high-side supply of a phase of
the converter is an F1 and latches the converter off where no other phase is left; a rail's return frees its channel for
the next frame. A leg's charge pump that is low is told once and takes its leg to refresh, and 1 ms above its threshold returns it; a
refresh pulse is inserted where one is due. The drive supply's fall is told once for every leg in use, and its return frees the channels.
Pairs and legs that no slot uses do none of it. Completes: STUCK_GATE, BARRIER_LOSS, ISOLATED_RAIL_UNDERVOLTAGE,
ISOLATED_RAIL_RECOVERY, HIGH_SIDE_UNDERVOLTAGE, VDS_OVERCURRENT, PUMP_FAULT, PUMP_FAULT_RECOVERY, REFRESH_PULSE, DRIVE_SUPPLY_LOW,
DRIVE_SUPPLY_RESTORED. Data of event records beyond the spec's, and ORIGIN and KIND 10 where no rule names them, are the model's choice
(log entries 20 and 21). -/
def Obligations.GateFaultsAndLegSupplies : Prop :=
  (∀ (cyc : Nat) (p : Fin 16) (s : State) (k : Nat), s.m.slotOfPair p = some k → s.roomy →
    ∃ t g, exec (.stuckGate cyc true p) s = .next t ∧ SlotFault s t cyc 0x1C06 k [] ∧
      t.m.gate.pairs = upd s.m.gate.pairs p g ∧ (∀ x, (g x).latchH = true ∧ (g x).latchL = true) ∧
      t.m.fld (Reg.GDI_PR_STAT p) 12 10 = 6 ∧ t.m.bit Reg.GDI_IRQ_STAT 2 = true ∧
      SameRegsBut s t [Reg.GDI_FAULT, Reg.GDI_PR_STAT p, Reg.GDI_IRQ_STAT, Reg.GDI_OVSTAT] ∧ SameMemory s t) ∧
  (∀ (cyc : Nat) (j : Fin 24) (s : State) (k : Nat), s.m.slotOfLeg j = some k → s.roomy →
    ∃ t, exec (.stuckGate cyc false j) s = .next t ∧ SlotFault s t cyc 0x2005 k [] ∧ t.m.bit Reg.GDL_FAULT j = true ∧
      t.m.fld (Reg.GDL_LEG_STAT j) 28 26 = 3 ∧ t.m.gate.legs = upd s.m.gate.legs j (fun x => { x with latch := true, code := 3 }) ∧
      SameRegsBut s t [Reg.GDL_FAULT, Reg.GDL_LEG_STAT j, Reg.GDL_IRQ_STAT] ∧ SameMemory s t) ∧
  (∀ (cyc : Nat) (ch : Fin 32) (s : State) (k : Nat), s.m.slotOfPair (ch / 2) = some k → s.roomy →
    (∃ t g, exec (.barrierLoss cyc ch) s = .next t ∧ SlotFault s t cyc 0x1C05 k [] ∧
      t.m.gate.pairs = upd s.m.gate.pairs (ch / 2) g ∧
      (∀ x, (g x).latchH = (x.latchH || ch.val % 2 == 0) ∧ (g x).latchL = (x.latchL || ch.val % 2 == 1)) ∧
      t.m.fld (Reg.GDI_PR_STAT (ch / 2)) 12 10 = 5 ∧ t.m.bit Reg.GDI_IRQ_STAT 4 = true ∧
      SameRegsBut s t [Reg.GDI_FAULT, Reg.GDI_PR_STAT (ch / 2), Reg.GDI_IRQ_STAT, Reg.GDI_OVSTAT] ∧ SameMemory s t) ∧
    (∃ t, exec (.isolatedRailUndervoltage cyc ch) s = .next t ∧ SlotFault s t cyc 0x1C04 k [] ∧
      t.m.gate.pairs = upd s.m.gate.pairs (ch / 2)
        (fun x => if ch.val % 2 = 0 then { x with uvH := true } else { x with uvL := true }) ∧
      t.m.fld (Reg.GDI_PR_STAT (ch / 2)) 12 10 = 4 ∧ t.m.bit Reg.GDI_IRQ_STAT 3 = true ∧
      SameRegsBut s t [Reg.GDI_PR_STAT (ch / 2), Reg.GDI_IRQ_STAT] ∧ SameMemory s t)) ∧
  (∀ (cyc : Nat) (ch : Fin 32) (s : State), s.m.slotOfPair (ch / 2) = none →
    (∃ t, exec (.stuckGate cyc true (ch / 2)) s = .next t ∧ t.m.gate = s.m.gate ∧ Quiet s t []) ∧
    (∃ t, exec (.barrierLoss cyc ch) s = .next t ∧ t.m.gate = s.m.gate ∧ Quiet s t []) ∧
    (∃ t, exec (.isolatedRailUndervoltage cyc ch) s = .next t ∧ t.m.gate = s.m.gate ∧ Quiet s t [])) ∧
  (∀ (cyc : Nat) (ch : Fin 32) (s : State),
    (if ch.val % 2 = 0 then (s.m.pair (ch / 2)).uvH else (s.m.pair (ch / 2)).uvL) = true →
    ∃ t, exec (.isolatedRailRecovery cyc ch) s = .next t ∧
      t.m.gate.pairs = upd s.m.gate.pairs (ch / 2) (fun x =>
        if ch.val % 2 = 0 then { x with uvH := false, waitH := true } else { x with uvL := false, waitL := true }) ∧
      Quiet s t [Reg.GDI_PR_STAT (ch / 2)]) ∧
  (∀ (cyc : Nat) (ch : Fin 32) (s : State),
    (if ch.val % 2 = 0 then (s.m.pair (ch / 2)).uvH else (s.m.pair (ch / 2)).uvL) = false →
    ∃ t, exec (.isolatedRailRecovery cyc ch) s = .next t ∧ t.m.gate = s.m.gate ∧ Quiet s t []) ∧
  (∀ (cyc : Nat) (j : Fin 24) (s : State) (k d : Nat), driveOf j = some d → s.m.slotOfLeg j = some k → s.roomy →
    ∃ t, exec (.highSideUndervoltage cyc j) s = .next t ∧ SlotFault s t cyc 0x2003 k [] ∧ t.m.bit Reg.GDL_FAULT j = true ∧
      t.m.fld (Reg.GDL_LEG_STAT j) 28 26 = 1 ∧ t.m.bit (Reg.GDL_LEG_STAT j) 29 = true ∧
      t.m.gate.pairs = s.m.gate.pairs ∧ t.m.lvc = s.m.lvc ∧
      SameRegsBut s t [Reg.GDL_FAULT, Reg.GDL_LEG_STAT j, Reg.GDL_IRQ_STAT] ∧ SameMemory s t) ∧
  (∀ (cyc : Nat) (j : Fin 24) (s : State) (k : Nat), driveOf j = none → s.m.slotOfLeg j = some k →
    s.m.lvc.state < 2 ∨ s.m.lvc.state = 7 ∨ (∃ i < 6, i ≠ j.val ∧ phaseFree s.m i = true) →
    ∃ t, exec (.highSideUndervoltage cyc j) s = .next t ∧ Raises s t [eventAt (s.at cyc) 0x2002 1 k [] 0] ∧
      t.m.bit Reg.GDL_FAULT j = true ∧ t.m.fld (Reg.GDL_LEG_STAT j) 28 26 = 1 ∧ t.m.bit (Reg.GDL_LEG_STAT j) 29 = true ∧
      t.m.gate.legs = upd s.m.gate.legs j (fun x => { x with latch := true, code := 1 }) ∧ t.m.lvc.state = s.m.lvc.state ∧
      SameRegsBut s t [Reg.GDL_FAULT, Reg.GDL_LEG_STAT j, Reg.GDL_IRQ_STAT] ∧ SameMemory s t) ∧
  (∀ (cyc : Nat) (j : Fin 24) (s : State) (k : Nat), driveOf j = none → s.m.slotOfLeg j = some k → j.val < s.m.gate.legs.length →
    2 ≤ s.m.lvc.state → s.m.lvc.state ≠ 7 → (∀ i < 6, i ≠ j.val → phaseFree s.m i = false) → s.m.lvc.queue.length < 4 → s.roomy →
    ∃ t, exec (.highSideUndervoltage cyc j) s = .next t ∧ t.m.lvc.state = 7 ∧ t.m.bit Reg.GDL_FAULT j = true ∧
      Raises s t [eventAt (s.at cyc) 0x2002 1 k [] 0, eventAt (s.at cyc) 0x2404 3 s.m.buckSlot [] 0] ∧
      Enters s t cyc ⟨10, s.m.buckSlot, 0, 0, 0x2404, []⟩ ∧
      SameRegsBut s t [Reg.GDL_FAULT, Reg.GDL_LEG_STAT j, Reg.GDL_IRQ_STAT, Reg.LVC_IRQ_STAT, Reg.LVC_FRSTAT] ∧ SameMemory s t) ∧
  (∀ (cyc : Nat) (j : Fin 24) (s : State), s.m.slotOfLeg j = none →
    (∃ t, exec (.stuckGate cyc false j) s = .next t ∧ t.m.gate = s.m.gate ∧ Quiet s t []) ∧
    (∃ t, exec (.highSideUndervoltage cyc j) s = .next t ∧ t.m.gate = s.m.gate ∧ t.m.lvc = s.m.lvc ∧ Quiet s t [])) ∧
  (∀ (cyc : Nat) (j : Fin 24) (s : State) (k d mv : Nat), driveOf j = some d → s.m.slotOfLeg j = some k → s.roomy →
    s.m.fld (Reg.GDL_LEG_CFG j) 22 16 ≠ 0 → 20 * s.m.fld (Reg.GDL_LEG_CFG j) 22 16 < mv → (s.at cyc).vdsWatched j = true →
    ∃ t, exec (.vdsOvercurrent cyc j mv) s = .next t ∧ SlotFault s t cyc 0x2004 k [] ∧ t.m.bit Reg.GDL_FAULT j = true ∧
      t.m.fld (Reg.GDL_LEG_STAT j) 28 26 = 2 ∧ t.m.bit Reg.GDL_IRQ_STAT 2 = true ∧ t.m.gate.pairs = s.m.gate.pairs ∧
      SameRegsBut s t [Reg.GDL_FAULT, Reg.GDL_LEG_STAT j, Reg.GDL_IRQ_STAT] ∧ SameMemory s t) ∧
  (∀ (cyc : Nat) (j : Fin 24) (s : State) (mv : Nat), driveOf j = none ∨ s.m.slotOfLeg j = none ∨
      s.m.fld (Reg.GDL_LEG_CFG j) 22 16 = 0 ∨ mv ≤ 20 * s.m.fld (Reg.GDL_LEG_CFG j) 22 16 ∨ (s.at cyc).vdsWatched j = false →
    ∃ t, exec (.vdsOvercurrent cyc j mv) s = .next t ∧ t.m.gate = s.m.gate ∧ Quiet s t []) ∧
  (∀ (cyc : Nat) (j : Fin 24) (s : State) (k : Nat), s.m.slotOfLeg j = some k → s.m.fld (Reg.GDL_LEG_CFG j) 26 25 ≠ 1 →
    (s.m.leg j).pumpBad = false →
    ∃ t, exec (.pumpFault cyc j) s = .next t ∧ Raises s t [eventAt (s.at cyc) 0x2001 1 k [] 0] ∧
      t.m.gate.legs = upd s.m.gate.legs j (fun x => { x with pumpBad := true }) ∧ t.m.bit (Reg.GDL_LEG_STAT j) 31 = false ∧
      t.m.bit (Reg.GDL_LEG_STAT j) 30 = (s.m.bit (Reg.GDL_LEG_STAT j) 30 || s.m.fld (Reg.GDL_LEG_CFG j) 26 25 == 0) ∧
      SameRegsBut s t [Reg.GDL_LEG_STAT j, Reg.GDL_IRQ_STAT] ∧ SameMemory s t) ∧
  (∀ (cyc : Nat) (j : Fin 24) (s : State), s.m.slotOfLeg j = none ∨ s.m.fld (Reg.GDL_LEG_CFG j) 26 25 = 1 ∨
      (s.m.leg j).pumpBad = true →
    ∃ t, exec (.pumpFault cyc j) s = .next t ∧ t.m.gate = s.m.gate ∧ Quiet s t []) ∧
  (∀ (cyc : Nat) (j : Fin 24) (s : State) (k : Nat), s.m.slotOfLeg j = some k → s.m.fld (Reg.GDL_LEG_CFG j) 26 25 ≠ 1 →
    ∃ t, exec (.pumpFaultRecovery cyc j) s = .next t ∧ t.m.gate.legs = upd s.m.gate.legs j (fun x => { x with pumpBad := false }) ∧
      t.m.bit (Reg.GDL_LEG_STAT j) 31 = true ∧ t.m.bit (Reg.GDL_LEG_STAT j) 30 = false ∧ Quiet s t [Reg.GDL_LEG_STAT j]) ∧
  (∀ (cyc : Nat) (j : Fin 24) (s : State), s.m.slotOfLeg j = none ∨ s.m.fld (Reg.GDL_LEG_CFG j) 26 25 = 1 →
    ∃ t, exec (.pumpFaultRecovery cyc j) s = .next t ∧ t.m.gate = s.m.gate ∧ Quiet s t []) ∧
  (∀ (cyc : Nat) (j : Fin 24) (s : State) (k : Nat), s.m.slotOfLeg j = some k → RefreshDue (s.at cyc) j k →
    ∃ t g, exec (.refreshPulse cyc j) s = .next t ∧ Quiet s t [] ∧ t.m.gate.legs = upd s.m.gate.legs j g ∧
      ∀ x, (g x).refr = x.refr + 1 ∧ (g x).refreshAt = some (32 * ((s.at cyc).time.cyc : Int)) ∧ (g x).refreshDue = false ∧
        (g x).latch = x.latch ∧ (g x).mode = x.mode) ∧
  (∀ (cyc : Nat) (j : Fin 24) (s : State), (∀ k, s.m.slotOfLeg j = some k → ¬RefreshDue (s.at cyc) j k) →
    ∃ t, exec (.refreshPulse cyc j) s = .next t ∧ Quiet s t [] ∧ t.m.gate = s.m.gate) ∧
  (∀ (cyc : Nat) (s : State), s.m.gate.lvLow = false →
    ∃ t, exec (.driveSupplyLow cyc) s = .next t ∧ t.m.gate = { s.m.gate with lvLow := true } ∧
      (∀ j : Fin 24, t.m.legOut j = (false, false)) ∧
      Raises s t (((List.range 24).filter fun j => (s.m.slotOfLeg j).isSome).map fun j =>
        eventAt (s.at cyc) 0x2001 1 ((s.m.slotOfLeg j).getD 0xFF) [] 0) ∧
      SameRegsBut s t [Reg.GDL_IRQ_STAT] ∧ SameMemory s t) ∧
  (∀ (cyc : Nat) (s : State), s.m.gate.lvLow = true →
    ∃ t, exec (.driveSupplyLow cyc) s = .next t ∧ t.m.gate = s.m.gate ∧ Quiet s t []) ∧
  (∀ (cyc : Nat) (s : State),
    ∃ t, exec (.driveSupplyRestored cyc) s = .next t ∧ t.m.gate = { s.m.gate with lvLow := false } ∧ Quiet s t [])

/-- The edge that the record of a leg or pair places in the present cycle is executed, and what its record commands after it; the
complement of a switch turned off waits for the cycles by which the outgoing gate falls late, which the pair's register counts. An edge
of an adaptive pair's high channel moves its strength by one step toward the target time, and without a crossing is counted as not
measured. A cycle without an edge, and a leg or pair that no slot uses, moves nothing. A diagnostic's result, worked out from its readings
by the item's method, is sent into accession with KIND 8 and takes effect there; an item that runs none sends nothing. Completes:
GATE_EDGE, GATE_DIAG_COMPLETE. Data of event records beyond the spec's, and ORIGIN and KIND 10 where no rule names them, are the model's
choice (log entries 20 and 21). -/
def Obligations.GateEdgesAndDiagnosticResults : Prop :=
  (∀ (cyc : Nat) (j : Fin 24) (ext : Nat) (tm : Option Nat) (s : State) (k : Nat) (e : GateEdge) (es : List GateEdge),
    s.m.slotOfLeg j = some k →
    let g := (s.m.leg j).out.upTo (32 * (s.at cyc).time.cyc - 1)
    g.edges = e :: es → e.at_ ≤ endOf (s.at cyc).time.cyc →
    ∃ t f, exec (.gateEdge cyc false j ext tm) s = .next t ∧ t.m.gate.legs = upd s.m.gate.legs j f ∧ t.m.gate.pairs = s.m.gate.pairs ∧
      (∀ x, (f x).latch = x.latch ∧ (f x).out = { g.apply e with edges := holdOn (g.h, g.l) e ext es }) ∧ Quiet s t []) ∧
  (∀ (cyc : Nat) (p : Fin 16) (ext : Nat) (tm : Option Nat) (s : State) (k : Nat) (e : GateEdge) (es : List GateEdge),
    s.m.slotOfPair p = some k → s.m.bit (Reg.GDI_PR_CFG p) 23 = false →
    let g := (s.m.pair p).out.upTo (32 * (s.at cyc).time.cyc - 1)
    let nxt := holdOn (g.h, g.l) e ext es
    g.edges = e :: es → e.at_ ≤ endOf (s.at cyc).time.cyc →
    ∃ t, exec (.gateEdge cyc true p ext tm) s = .next t ∧
      t.m.gate = { s.m.gate with pairs := upd s.m.gate.pairs p fun x => { x with out := { g.apply e with edges := nxt } } } ∧
      t.m.fld (Reg.GDI_PR_STAT p) 7 0 = (if nxt = es then s.m.fld (Reg.GDI_PR_STAT p) 7 0
        else min (s.m.fld (Reg.GDI_PR_STAT p) 7 0 + ext) 255) ∧ Quiet s t [Reg.GDI_PR_STAT p]) ∧
  (∀ (was : Bool × Bool) (e n : GateEdge) (ext : Nat) (r : List GateEdge),
    (was.1 = true ∧ e.h = false) ∨ (was.2 = true ∧ e.l = false) → (n.h = true ∧ e.h = false) ∨ (n.l = true ∧ e.l = false) → 0 < ext →
    (∀ y ∈ r, n.at_ + 32 * ext < y.at_) → holdOn was e ext (n :: r) = { n with at_ := n.at_ + 32 * ext } :: r) ∧
  (∀ (cyc : Nat) (p : Fin 16) (tm : Option Nat) (s : State) (k : Nat) (e : GateEdge) (es : List GateEdge) (b c : Bool × Bool),
    s.m.slotOfPair p = some k → s.m.bit (Reg.GDI_PR_CFG p) 23 = true →
    let g := (s.m.pair p).out.upTo (32 * (s.at cyc).time.cyc - 1)
    g.edges = e :: es → e.at_ ≤ endOf (s.at cyc).time.cyc →
    b = (s.at cyc).pairGates p (g.h, g.l) → c = (s.at cyc).pairGates p (e.h, e.l) →
    b.1 ≠ c.1 → b.2 = c.2 →
    ∃ t, exec (.gateEdge cyc true p 0 tm) s = .next t ∧
      SameRegsBut s t [Reg.GDI_PR_STAT p, Reg.GDI_PR_CNT p, Reg.GDI_PR_TSWH p, Reg.GDI_IRQ_STAT] ∧ SameMemory s t ∧
      (tm = none → t.m.fld (Reg.GDI_PR_CNT p) 31 16 = min (s.m.fld (Reg.GDI_PR_CNT p) 31 16 + 1) 0xFFFF ∧
        t.m.rd (Reg.GDI_PR_STAT p) = s.m.rd (Reg.GDI_PR_STAT p)) ∧
      ∀ x, tm = some x →
        let lo := stepBit false c.1
        let str := s.m.rd (Reg.GDI_PR_STR p)
        t.m.fld (Reg.GDI_PR_STAT p) (lo + 3) lo = nextStep (x - s.m.curve (s.m.targetCurve p c.1) (s.m.crossVoltage p))
          (s.m.fld (Reg.GDI_PR_TB4 p) 15 8) (str.bits 15 12) (str.bits 11 8) (s.m.fld (Reg.GDI_PR_STAT p) (lo + 3) lo) % 16 ∧
        t.m.rd (Reg.GDI_PR_CNT p) = s.m.rd (Reg.GDI_PR_CNT p) ∧
        (if c.1 then t.m.fld (Reg.GDI_PR_TSWH p) 31 16 else t.m.fld (Reg.GDI_PR_TSWH p) 15 0) = min x 0xFFFF) ∧
  (∀ (cyc : Nat) (iso : Bool) (i : Fin 24) (ext : Nat) (tm : Option Nat) (s : State),
    (if iso then s.m.slotOfPair i = none ∨ (s.at cyc).edgeNow (s.m.pair i).out ext = none
      else s.m.slotOfLeg i = none ∨ (s.at cyc).edgeNow (s.m.leg i).out ext = none) →
    ∃ t, exec (.gateEdge cyc iso i ext tm) s = .next t ∧ t.m.gate = s.m.gate ∧ Quiet s t []) ∧
  (∀ (cyc : Nat) (p : Fin 16) (h r : DiagReading) (s : State), (s.m.pair p).running = true → s.roomy →
    ∃ t, exec (.gateDiagComplete cyc false p h r) s = .next t ∧
      Enters s t cyc ⟨8, p, 0, 0, s.m.pairCodes p (s.m.channelResult p h) (s.m.channelResult p r), []⟩ ∧
      t.m.gate.pairs = upd s.m.gate.pairs p (fun x => { x with running := false }) ∧ Quiet s t []) ∧
  (∀ (cyc : Nat) (j : Fin 24) (h r : DiagReading) (s : State), (s.m.leg j).running = true → s.roomy →
    ∃ t, exec (.gateDiagComplete cyc true j h r) s = .next t ∧ Enters s t cyc ⟨8, 0x20 + j.val, 0, 0, s.m.legResult j h, []⟩ ∧
      t.m.gate.legs = upd s.m.gate.legs j (fun x => { x with running := false }) ∧ Quiet s t []) ∧
  (∀ (cyc : Nat) (gdl : Bool) (i : Nat) (h r : DiagReading) (s : State),
    (if gdl then (s.m.leg i).running else (s.m.pair i).running) = false →
    ∃ t, exec (.gateDiagComplete cyc gdl i h r) s = .next t ∧ t.m.lane = s.m.lane ∧ t.m.gate = s.m.gate ∧ Quiet s t [])

/-! ### The low-voltage converter -/

/-- The registers that an LVC event writes. -/
def lvcTold : List Nat := [Reg.LVC_IRQ_STAT, Reg.LVC_FRSTAT]

/-- Trips of the converter: a phase's comparator takes its leg off and out of sharing with event 0x2401; the third trip in a tick goes
to HICCUP, and with no phase left the machine latches off with 0x2404. An over-voltage latches it off with an F3 and turns its legs off;
an output short goes to HICCUP, and on the sixth attempt latches; a precharge that does not come up ends with an F3. What its machine does
without a fault: HICCUP ends in a soft start with one retry more, a good second clears RETRY, the highest phase begins to ramp out, one
phase at low current enters burst, and a phase's test passes where it trips at the high level and not at the low one, its result going
into accession. Short of its condition each changes nothing. Completes: LVC_FAST_TRIP, LVC_OUTPUT_OVERVOLTAGE, LVC_OUTPUT_SHORT,
LVC_PRECHARGE_TIMEOUT, LVC_HICCUP_END, LVC_RETRY_CLEAR, LVC_SHED_START, LVC_BURST_ENTRY, LVC_DIAG_COMPLETE. Data of event records beyond
the spec's, and ORIGIN and KIND 10 where no rule names them, are the model's choice (log entries 20 and 21). -/
def Obligations.LvcTripsAndAdvances : Prop :=
  (∀ (cyc : Nat) (k : Fin 6) (s : State), s.m.lvcPresent = true → s.m.lvc.trip.testBit k = false → s.m.lvc.queue.length < 4 →
    s.m.lvc.state < 2 ∨ s.m.lvc.state = 7 ∨ ((∃ i < 6, i ≠ k.val ∧ phaseFree s.m i = true) ∧
      (s.m.lvc.trips < 2 ∨ buckSwitches s.m.lvc.state = false)) →
    ∃ t, exec (.lvcFastTrip cyc k) s = .next t ∧ t.m.lvc.trip = s.m.lvc.trip ||| 2 ^ k.val ∧ t.m.lvc.trips = s.m.lvc.trips + 1 ∧
      t.m.lvc.state = s.m.lvc.state ∧ t.m.lvc.mask.testBit k = false ∧ t.m.legOut k = (false, false) ∧ t.m.gate = s.m.gate ∧
      Raises s t [eventAt (s.at cyc) 0x2401 1 s.m.buckSlot [] 0] ∧ t.m.bit Reg.LVC_IRQ_STAT 0 = true ∧
      SameRegsBut s t lvcTold ∧ SameMemory s t) ∧
  (∀ (cyc : Nat) (k : Fin 6) (s : State), s.m.lvcPresent = true → s.m.lvc.trip.testBit k = false → s.m.lvc.queue.length < 4 →
    (∃ i < 6, i ≠ k.val ∧ phaseFree s.m i = true) → buckSwitches s.m.lvc.state = true → 2 ≤ s.m.lvc.trips →
    ∃ t, exec (.lvcFastTrip cyc k) s = .next t ∧ t.m.lvc.trip = s.m.lvc.trip ||| 2 ^ k.val ∧ t.m.lvc.state = 6 ∧ t.m.lvc.mask = 0 ∧
      t.m.legOut k = (false, false) ∧ Raises s t [eventAt (s.at cyc) 0x2401 1 s.m.buckSlot [] 0] ∧
      SameRegsBut s t lvcTold ∧ SameMemory s t) ∧
  (∀ (cyc : Nat) (k : Fin 6) (s : State), s.m.lvcPresent = true → s.m.lvc.trip.testBit k = false → s.m.lvc.queue.length < 3 →
    (∀ i < 6, i ≠ k.val → phaseFree s.m i = false) → 2 ≤ s.m.lvc.state → s.m.lvc.state ≠ 7 → s.roomy →
    ∃ t, exec (.lvcFastTrip cyc k) s = .next t ∧ t.m.lvc.state = 7 ∧ t.m.lvc.mask = 0 ∧ Enters s t cyc ⟨10, s.m.buckSlot, 0, 0, 0x2404, []⟩ ∧
      Raises s t [eventAt (s.at cyc) 0x2401 1 s.m.buckSlot [] 0, eventAt (s.at cyc) 0x2404 3 s.m.buckSlot [] 0] ∧
      SameRegsBut s t lvcTold ∧ SameMemory s t) ∧
  (∀ (cyc : Nat) (k : Fin 6) (s : State), s.m.lvcPresent = false ∨ s.m.lvc.trip.testBit k = true →
    ∃ t, exec (.lvcFastTrip cyc k) s = .next t ∧ t.m.lvc = s.m.lvc ∧ Quiet s t []) ∧
  (∀ (cyc : Nat) (s : State), s.m.lvcPresent = true → s.m.lvc.state ≠ 7 → s.roomy → s.m.lvc.queue.length < 4 →
    ∃ t, exec (.lvcOutputOvervoltage cyc) s = .next t ∧ t.m.lvc.state = 7 ∧ t.m.lvc.mask = 0 ∧
      (∀ k : Fin 6, t.m.legOut k = (false, false)) ∧ SlotFault s t cyc 0x2405 s.m.buckSlot [] ∧
      t.m.bit Reg.LVC_IRQ_STAT 2 = true ∧ t.m.lvc.queue.length = s.m.lvc.queue.length + 1 ∧ SameRegsBut s t lvcTold ∧ SameMemory s t) ∧
  (∀ (cyc : Nat) (s : State), s.m.lvcPresent = false ∨ s.m.lvc.state = 7 →
    ∃ t, exec (.lvcOutputOvervoltage cyc) s = .next t ∧ t.m.lvc = s.m.lvc ∧ Quiet s t []) ∧
  (∀ (cyc : Nat) (s : State), (s.m.lvc.state = 2 ∧ s.m.lvc.ticks = 2 * s.m.fld Reg.LVC_SS 31 16 ∧ 5 * s.m.lvc.s1 < one29) ∨
      ((s.m.lvc.state = 3 ∨ s.m.lvc.state = 4) ∧ 2 * s.m.fld Reg.LVC_SS 31 16 ≤ s.m.lvc.shortRun) → s.m.lvc.queue.length < 4 →
    (s.m.lvc.retry < 5 → ∃ t, exec (.lvcOutputShort cyc) s = .next t ∧ t.m.lvc.state = 6 ∧ t.m.lvc.ticks = 0 ∧ t.m.lvc.mask = 0 ∧
      Raises s t [eventAt (s.at cyc) 0x2403 1 s.m.buckSlot [s.m.lvc.retry] 0] ∧ SameRegsBut s t lvcTold ∧ SameMemory s t) ∧
    (5 ≤ s.m.lvc.retry → s.roomy → ∃ t, exec (.lvcOutputShort cyc) s = .next t ∧ t.m.lvc.state = 7 ∧
      SlotFault s t cyc 0x2404 s.m.buckSlot [] ∧ SameRegsBut s t lvcTold ∧ SameMemory s t)) ∧
  (∀ (cyc : Nat) (s : State), ¬(s.m.lvc.state = 2 ∧ s.m.lvc.ticks = 2 * s.m.fld Reg.LVC_SS 31 16 ∧ 5 * s.m.lvc.s1 < one29) →
    ¬((s.m.lvc.state = 3 ∨ s.m.lvc.state = 4) ∧ 2 * s.m.fld Reg.LVC_SS 31 16 ≤ s.m.lvc.shortRun) →
    ∃ t, exec (.lvcOutputShort cyc) s = .next t ∧ t.m.lvc = s.m.lvc ∧ Quiet s t []) ∧
  (∀ (cyc : Nat) (s : State), s.m.lvc.state = 1 → s.m.fld Reg.LVC_SS 11 0 ≤ s.m.lvc.ticks → s.roomy → s.m.lvc.queue.length < 4 →
    ∃ t, exec (.lvcPrechargeTimeout cyc) s = .next t ∧ t.m.lvc.state = 0 ∧ SlotFault s t cyc 0x2407 s.m.buckSlot [] ∧
      t.m.bit Reg.LVC_IRQ_STAT 3 = true ∧ SameRegsBut s t lvcTold ∧ SameMemory s t) ∧
  (∀ (cyc : Nat) (s : State), s.m.lvc.state ≠ 1 ∨ s.m.lvc.ticks < s.m.fld Reg.LVC_SS 11 0 →
    ∃ t, exec (.lvcPrechargeTimeout cyc) s = .next t ∧ t.m.lvc = s.m.lvc ∧ Quiet s t []) ∧
  (∀ (cyc : Nat) (s : State), s.m.lvc.state = 6 → s.m.hiccupTicks ≤ s.m.lvc.ticks →
    ∃ t, exec (.lvcHiccupEnd cyc) s = .next t ∧ t.m.lvc.state = 2 ∧ t.m.lvc.retry = min (s.m.lvc.retry + 1) 7 ∧ t.m.lvc.ticks = 0 ∧
      t.m.lvc.trip = 0 ∧ t.m.lvc.r = clampI 0 one29 s.m.lvc.s1 ∧ Quiet s t []) ∧
  (∀ (cyc : Nat) (s : State), s.m.lvc.state ≠ 6 ∨ s.m.lvc.ticks < s.m.hiccupTicks →
    ∃ t, exec (.lvcHiccupEnd cyc) s = .next t ∧ t.m.lvc = s.m.lvc ∧ Quiet s t []) ∧
  (∀ (cyc : Nat) (s : State), s.m.lvc.state = 3 ∨ s.m.lvc.state = 4 → (400000000 + s.m.period - 1) / s.m.period ≤ s.m.lvc.goodRun →
    ∃ t, exec (.lvcRetryClear cyc) s = .next t ∧ t.m.lvc = { s.m.lvc with retry := 0 } ∧ Quiet s t []) ∧
  (∀ (cyc : Nat) (s : State), (s.m.lvc.state ≠ 3 ∧ s.m.lvc.state ≠ 4) ∨
      s.m.lvc.goodRun < (400000000 + s.m.period - 1) / s.m.period →
    ∃ t, exec (.lvcRetryClear cyc) s = .next t ∧ t.m.lvc = s.m.lvc ∧ Quiet s t []) ∧
  (∀ (cyc : Nat) (s : State) (k : Nat), s.m.lvc.state = 3 → s.m.fld Reg.LVC_SHED 15 8 ≤ s.m.lvc.dwell → 0 < s.m.lvc.dwell →
    s.m.lvc.rampPh = 7 → s.m.fld Reg.LVC_SHED 2 0 < countBits s.m.lvc.mask → (bitsOf 6 s.m.lvc.mask).getLast? = some k →
    ∃ t, exec (.lvcShedStart cyc) s = .next t ∧ t.m.lvc = { s.m.lvc with rampPh := k, rampJ := 0 } ∧ Quiet s t []) ∧
  (∀ (cyc : Nat) (s : State), s.m.lvc.state ≠ 3 ∨ s.m.lvc.dwell < s.m.fld Reg.LVC_SHED 15 8 ∨ s.m.lvc.dwell = 0 ∨
      s.m.lvc.rampPh ≠ 7 ∨ countBits s.m.lvc.mask ≤ s.m.fld Reg.LVC_SHED 2 0 ∨ bitsOf 6 s.m.lvc.mask = [] →
    ∃ t, exec (.lvcShedStart cyc) s = .next t ∧ t.m.lvc = s.m.lvc ∧ Quiet s t []) ∧
  (∀ (cyc : Nat) (s : State), s.m.bit Reg.LVC_CFG 6 = true → s.m.lvc.state = 3 → countBits s.m.lvc.mask = 1 → s.m.lvc.rampPh = 7 →
    64 ≤ s.m.lvc.burstRun →
    ∃ t, exec (.lvcBurstEntry cyc) s = .next t ∧ t.m.lvc.state = 4 ∧ t.m.lvc.mask = s.m.lvc.mask ∧
      t.m.rd Reg.LVC_IRQ_STAT = s.m.rd Reg.LVC_IRQ_STAT ||| 0x80#32 ∧ Quiet s t [Reg.LVC_IRQ_STAT]) ∧
  (∀ (cyc : Nat) (s : State), s.m.bit Reg.LVC_CFG 6 = false ∨ s.m.lvc.state ≠ 3 ∨ countBits s.m.lvc.mask ≠ 1 ∨
      s.m.lvc.rampPh ≠ 7 ∨ s.m.lvc.burstRun < 64 →
    ∃ t, exec (.lvcBurstEntry cyc) s = .next t ∧ t.m.lvc = s.m.lvc ∧ Quiet s t []) ∧
  (∀ (cyc : Nat) (k : Fin 6) (high low : Bool) (s : State), s.m.lvc.diagRun.testBit k = true → s.roomy →
    ∃ t, exec (.lvcDiagComplete cyc k high low) s = .next t ∧
      Enters s t cyc ⟨8, 0x40 + k.val, 0, 0, if high && !low then 1 else 4, []⟩ ∧
      t.m.lvc = { s.m.lvc with diagRun := s.m.lvc.diagRun &&& (0x3F ^^^ 2 ^ k.val) } ∧ Quiet s t []) ∧
  (∀ (cyc : Nat) (k : Fin 6) (high low : Bool) (s : State), s.m.lvc.diagRun.testBit k = false →
    ∃ t, exec (.lvcDiagComplete cyc k high low) s = .next t ∧ t.m.lane = s.m.lane ∧ t.m.lvc = s.m.lvc ∧ Quiet s t [])

/-- The oldest fault record goes to its place in flash with its SEQ, and leaves every other byte of a sector already erased; at the start
of a sector the sector is erased first. A record that does not verify is counted as dropped and told, and only its own place is written.
With no record waiting nothing is written. Completes: LVC_FAULT_RECORD_WRITE. Data of event records beyond the spec's, and ORIGIN and
KIND 10 where no rule names them, are the model's choice (log entries 20 and 21). -/
def Obligations.LvcRecordsGoToFlash : Prop :=
  (∀ (cyc : Nat) (s : State) (r : List Nat) (rest : List (List Nat)) (a c : Nat), Memory.wf s.mem = true →
    s.m.lvc.queue = r :: rest → s.m.lvc.slot < 64 → r.length = 52 → c = lvcArea + 0x1000 * s.m.lvc.sector →
    a = c + 64 * s.m.lvc.slot →
    ∃ t, exec (.lvcFaultRecordWrite cyc true) s = .next t ∧ t.m.lvc.queue = rest ∧ t.m.lvc.nextSeq = s.m.lvc.nextSeq + 1 ∧
      t.m.lvc.slot = (s.m.lvc.slot + 1) % 64 ∧
      (∀ i : Fin 64, (Memory.read t.mem (a + i.val)).toNat = nth (lvcBytes s.m.lvc.nextSeq r) i % 256) ∧
      (∀ b, b < a ∨ a + 64 ≤ b → b < c ∨ c + 0x1000 ≤ b ∨ 0 < s.m.lvc.slot → Memory.read t.mem b = Memory.read s.mem b) ∧
      (s.m.lvc.slot = 0 → ∀ b, a + 64 ≤ b → b < c + 0x1000 → Memory.read t.mem b = Memory.read [] b) ∧
      t.m.rd Reg.LVC_FRSEQ = BitVec.ofNat 32 s.m.lvc.nextSeq ∧ t.m.bit Reg.LVC_IRQ_STAT 9 = true ∧
      SameRegsBut s t [Reg.LVC_FRSEQ, Reg.LVC_FRSTAT, Reg.LVC_IRQ_STAT] ∧ Raises s t []) ∧
  (∀ (cyc : Nat) (s : State) (r : List Nat) (rest : List (List Nat)) (a c : Nat), Memory.wf s.mem = true →
    s.m.lvc.queue = r :: rest → s.m.lvc.slot < 64 → c = lvcArea + 0x1000 * s.m.lvc.sector → a = c + 64 * s.m.lvc.slot →
    ∃ t, exec (.lvcFaultRecordWrite cyc false) s = .next t ∧ t.m.lvc.queue = rest ∧ t.m.lvc.nextSeq = s.m.lvc.nextSeq + 1 ∧
      t.m.fld Reg.LVC_FRSTAT 31 16 = min (s.m.fld Reg.LVC_FRSTAT 31 16 + 1) 0xFFFF ∧
      (∀ b, b < a ∨ a + 64 ≤ b → b < c ∨ c + 0x1000 ≤ b ∨ 0 < s.m.lvc.slot → Memory.read t.mem b = Memory.read s.mem b) ∧
      t.m.bit Reg.LVC_IRQ_STAT 10 = true ∧ Raises s t [eventAt (s.at cyc) 0x240C 0 s.m.buckSlot [] 0] ∧
      SameRegsBut s t [Reg.LVC_FRSTAT, Reg.LVC_IRQ_STAT]) ∧
  (∀ (cyc : Nat) (s : State) (ok : Bool), s.m.lvc.queue = [] →
    ∃ t, exec (.lvcFaultRecordWrite cyc ok) s = .next t ∧ t.m.lvc = s.m.lvc ∧ Quiet s t [])

/-! ### Writes that are asynchronous inputs -/

/-- The answer is a next state in which lane `l`'s write of `w` to register `a` waits for accession with KIND 1, and nothing else
changed. -/
def EntersAccession (s : State) (cyc : Nat) (l : Lane) (a : Nat) (w : Word) (o : Host.Outcome State Fault Refusal) : Prop :=
  ∃ t, o = .next t ∧ Enters s t cyc ⟨1, 0, l.origin, physical a % 2 ^ 32, w.toNat, []⟩ ∧ Quiet s t []

/-- The same for each write of an asynchronous input that every variant has: what `P` says of its register, of the value that enters and
of the answer. -/
def EachAsyncWrite (cyc : Nat) (w : Writer) (d : Fin 6) (k : Fin 16) (v : Word) (s : State)
    (P : Nat → Word → Host.Outcome State Fault Refusal → Prop) : Prop :=
  P Reg.ACQ_URG_REQ v (exec (.urgentRequest cyc w v) s) ∧
  P Reg.ACQ_CAL_REQ (v &&& 0xFFFF#32) (exec (.calibrationRequest cyc w v) s) ∧
  P Reg.GDI_DIAG_REQ (v &&& 0xFFFF#32) (exec (.gateDiagRequest cyc w false v) s) ∧
  P Reg.GDL_DIAG_REQ (v &&& 0xFFFFFF#32) (exec (.gateDiagRequest cyc w true v) s) ∧
  P Reg.LVC_CTRL (v &&& 3#32) (exec (.lvcEnableWrite cyc w v) s) ∧
  P Reg.LVC_CTRL ((v &&& 1#32) ||| 2#32) (exec (.lvcClear cyc w v) s) ∧
  P Reg.LVC_DIAG_REQ (v &&& 0x3F#32) (exec (.lvcDiagRequest cyc w v) s) ∧
  P (Reg.ACT_DRV_REQ d) (v &&& 0x8000003F#32) (exec (.actDriveRequest cyc w d v) s) ∧
  P (Reg.ACT_DRV_REQ d) ((v &&& 0x3F#32) ||| 0x80000000#32) (exec (.actPumpFaultClear cyc w d v) s) ∧
  P (Reg.ACT_PMP_SPD d) v (exec (.actPumpSetpoint cyc w d v) s) ∧
  P Reg.LANE_ARR (v &&& 3#32) (exec (.arrangementRequest cyc w v) s) ∧
  P (Reg.IMG_SM_REQ k) v (exec (.slotMachineRequest cyc w k v) s)

/-- The same for the charger's, which only one variant has. -/
def EachChargerWrite (cyc : Nat) (w : Writer) (v : Word) (s : State)
    (P : Nat → Word → Host.Outcome State Fault Refusal → Prop) : Prop :=
  P Reg.CHG_CTRL ((v &&& 0xF#32) ||| 2#32) (exec (.chgStart cyc w v) s) ∧
  P Reg.CHG_CTRL ((v &&& 0xF#32) ||| 4#32) (exec (.chgStop cyc w v) s) ∧
  P Reg.CHG_CTRL ((v &&& 0xF#32) ||| 8#32) (exec (.chgTimerClear cyc w v) s) ∧
  P Reg.CHG_CTRL ((v &&& 0xF#32) ||| 1#32) (exec (.chgImpedanceRestart cyc w v) s) ∧
  P Reg.CHG_PULSE v (exec (.chgPulseWrite cyc w v) s) ∧
  P Reg.CHG_TIMER v (exec (.chgTimerWrite cyc w v) s)

/-- A lane that runs alone writes an asynchronous input: the write changes nothing yet, but waits for accession with KIND 1, its address,
its value and its writer. Of two lanes LIVE and paired, a write in tick context is collected in the lane's write list; outside tick
context only the active lane's enters, and the other's is counted. A write of the safety processor is ignored, but for a STOP of the
charge; on a variant without the charger its writes are ignored. At its accession tick a write takes effect: LVC_CTRL keeps EN and clears
the latched machine with CLR; CHG_TIMER takes a value of its range and refuses another with event 0x280E. Completes: URGENT_REQUEST,
CALIBRATION_REQUEST, GATE_DIAG_REQUEST, LVC_ENABLE_WRITE, LVC_CLEAR, LVC_DIAG_REQUEST, ACT_DRIVE_REQUEST, ACT_PUMP_FAULT_CLEAR,
ACT_PUMP_SETPOINT, ARRANGEMENT_REQUEST, SLOT_MACHINE_REQUEST, CHG_START, CHG_STOP, CHG_TIMER_CLEAR, CHG_IMPEDANCE_RESTART,
CHG_PULSE_WRITE, CHG_TIMER_WRITE, ACCESSION_TAKES_EFFECT. Data of event records beyond the spec's, and ORIGIN and KIND 10 where no rule
names them, are the model's choice (log entries 20 and 21). -/
def Obligations.AsynchronousWritesWaitAndTakeEffect : Prop :=
  (∀ (cyc : Nat) (l : Lane) (d : Fin 6) (k : Fin 16) (v : Word) (s : State), s.alone l → s.roomy →
    EntersAccession s cyc l Reg.ACQ_URG_REQ v (exec (.urgentRequest cyc (.lane l) v) s) ∧
    EntersAccession s cyc l Reg.ACQ_CAL_REQ (v &&& 0xFFFF#32) (exec (.calibrationRequest cyc (.lane l) v) s) ∧
    EntersAccession s cyc l Reg.GDI_DIAG_REQ (v &&& 0xFFFF#32) (exec (.gateDiagRequest cyc (.lane l) false v) s) ∧
    EntersAccession s cyc l Reg.GDL_DIAG_REQ (v &&& 0xFFFFFF#32) (exec (.gateDiagRequest cyc (.lane l) true v) s) ∧
    EntersAccession s cyc l Reg.LVC_CTRL (v &&& 3#32) (exec (.lvcEnableWrite cyc (.lane l) v) s) ∧
    EntersAccession s cyc l Reg.LVC_CTRL ((v &&& 1#32) ||| 2#32) (exec (.lvcClear cyc (.lane l) v) s) ∧
    EntersAccession s cyc l Reg.LVC_DIAG_REQ (v &&& 0x3F#32) (exec (.lvcDiagRequest cyc (.lane l) v) s) ∧
    EntersAccession s cyc l (Reg.ACT_DRV_REQ d) (v &&& 0x8000003F#32) (exec (.actDriveRequest cyc (.lane l) d v) s) ∧
    EntersAccession s cyc l (Reg.ACT_DRV_REQ d) ((v &&& 0x3F#32) ||| 0x80000000#32)
      (exec (.actPumpFaultClear cyc (.lane l) d v) s) ∧
    EntersAccession s cyc l (Reg.ACT_PMP_SPD d) v (exec (.actPumpSetpoint cyc (.lane l) d v) s) ∧
    EntersAccession s cyc l Reg.LANE_ARR (v &&& 3#32) (exec (.arrangementRequest cyc (.lane l) v) s) ∧
    EntersAccession s cyc l (Reg.IMG_SM_REQ k) v (exec (.slotMachineRequest cyc (.lane l) k v) s)) ∧
  (∀ (cyc : Nat) (l : Lane) (v : Word) (s : State), s.alone l → s.roomy → hasUnit s.m.variant 3 = true →
    EntersAccession s cyc l Reg.CHG_CTRL ((v &&& 0xF#32) ||| 2#32) (exec (.chgStart cyc (.lane l) v) s) ∧
    EntersAccession s cyc l Reg.CHG_CTRL ((v &&& 0xF#32) ||| 4#32) (exec (.chgStop cyc (.lane l) v) s) ∧
    EntersAccession s cyc l Reg.CHG_CTRL ((v &&& 0xF#32) ||| 8#32) (exec (.chgTimerClear cyc (.lane l) v) s) ∧
    EntersAccession s cyc l Reg.CHG_CTRL ((v &&& 0xF#32) ||| 1#32) (exec (.chgImpedanceRestart cyc (.lane l) v) s) ∧
    EntersAccession s cyc l Reg.CHG_PULSE v (exec (.chgPulseWrite cyc (.lane l) v) s) ∧
    EntersAccession s cyc l Reg.CHG_TIMER v (exec (.chgTimerWrite cyc (.lane l) v) s)) ∧
  (∀ (cyc : Nat) (l : Lane) (d : Fin 6) (k : Fin 16) (v : Word) (s : State), s.m.pairedLive = true → s.m.inTick l = true →
    EachAsyncWrite cyc (.lane l) d k v s (WriteCollected s l) ∧
    (hasUnit s.m.variant 3 = true → EachChargerWrite cyc (.lane l) v s (WriteCollected s l))) ∧
  (∀ (cyc : Nat) (l : Lane) (d : Fin 6) (k : Fin 16) (v : Word) (s : State), s.m.pairedLive = true → s.m.inTick l = false →
    s.m.active = l → s.roomy → EachAsyncWrite cyc (.lane l) d k v s (EntersAccession s cyc l) ∧
    (hasUnit s.m.variant 3 = true → EachChargerWrite cyc (.lane l) v s (EntersAccession s cyc l))) ∧
  (∀ (cyc : Nat) (l : Lane) (d : Fin 6) (k : Fin 16) (v : Word) (s : State), s.m.pairedLive = true → s.m.inTick l = false →
    s.m.active ≠ l → EachAsyncWrite cyc (.lane l) d k v s (fun _ _ => WriteCounted s) ∧
    (hasUnit s.m.variant 3 = true → EachChargerWrite cyc (.lane l) v s (fun _ _ => WriteCounted s))) ∧
  (∀ (cyc : Nat) (d : Fin 6) (k : Fin 16) (v : Word) (s : State),
    EachAsyncWrite cyc .safety d k v s fun _ _ o => ∃ t, o = .next t ∧ t.m.lane = s.m.lane ∧ Quiet s t []) ∧
  (∀ (cyc : Nat) (v : Word) (s : State) (who : Writer), hasUnit s.m.variant 3 = false →
    EachChargerWrite cyc who v s fun _ _ o => ∃ t, o = .next t ∧ t.m.lane = s.m.lane ∧ Quiet s t []) ∧
  (∀ (cyc : Nat) (v : Word) (s : State),
    (v.bit 2 = false → ∃ t, exec (.chgStart cyc .safety v) s = .next t ∧ t.m.lane = s.m.lane ∧ Quiet s t []) ∧
    (v.bit 2 = false → ∃ t, exec (.chgTimerClear cyc .safety v) s = .next t ∧ t.m.lane = s.m.lane ∧ Quiet s t []) ∧
    (v.bit 2 = false → ∃ t, exec (.chgImpedanceRestart cyc .safety v) s = .next t ∧ t.m.lane = s.m.lane ∧ Quiet s t []) ∧
    (∃ t, exec (.chgPulseWrite cyc .safety v) s = .next t ∧ t.m.lane = s.m.lane ∧ Quiet s t []) ∧
    (∃ t, exec (.chgTimerWrite cyc .safety v) s = .next t ∧ t.m.lane = s.m.lane ∧ Quiet s t [])) ∧
  (∀ (cyc : Nat) (v : Word) (s : State), hasUnit s.m.variant 3 = true → s.roomy →
    ∃ t, exec (.chgStop cyc .safety v) s = .next t ∧
      Enters s t cyc ⟨1, 0, 3, physical Reg.CHG_CTRL % 2 ^ 32, 4, []⟩ ∧ Quiet s t []) ∧
  (∀ (cyc : Nat) (s : State) (e : JEntry), s.m.tick.running = true → s.m.lane.waiting = [e] → e.kind = 1 → e.accTick ≤ s.m.seq →
     (e.addr = physical Reg.LVC_CTRL % 2 ^ 32 →
       ∃ t, exec (.accessionTakesEffect cyc) s = .next t ∧ t.m.rd Reg.LVC_CTRL = BitVec.ofNat 32 e.value &&& 1#32 ∧
         (t.m.lvc.state = if e.value.testBit 1 = true ∧ s.m.lvc.state = 7 then 0 else s.m.lvc.state) ∧
         Quiet s t [Reg.LVC_CTRL] ∧ t.m.lane.waiting = []) ∧
     (e.addr = physical Reg.CHG_TIMER % 2 ^ 32 → hasUnit s.m.variant 3 = true → 60 ≤ e.value → e.value ≤ 86400 →
       ∃ t, exec (.accessionTakesEffect cyc) s = .next t ∧ t.m.rd Reg.CHG_TIMER = BitVec.ofNat 32 e.value ∧
         Quiet s t [Reg.CHG_TIMER] ∧ t.m.lane.waiting = []) ∧
     (e.addr = physical Reg.CHG_TIMER % 2 ^ 32 → hasUnit s.m.variant 3 = true → e.value < 60 ∨ (86400 < e.value ∧ e.value < 2 ^ 32) →
       ∃ t, exec (.accessionTakesEffect cyc) s = .next t ∧ Raises s t [eventAt (s.at cyc) 0x280E 0 s.m.dabSlot [] 0] ∧
         SameRegsBut s t [] ∧ SameMemory s t ∧ t.m.lane.waiting = []))

/-! ### Charging -/

/-- A pilot period within its limits gives the state of its high level, and one out of them none; a reading of the proximity gives a
code: three in a row of one state or code are taken, and less only counted. 3 ms of a constant level is taken at once, without PWM. A
permit that closes after it was open is seen. In SLEEP, and on a variant without the charger, pilot and proximity change nothing.
Completes: PILOT_PERIOD, PILOT_CONSTANT_LEVEL, PROXIMITY_MEASUREMENT, BMS_PERMIT_CHANGE. -/
def Obligations.ChargePilotProximityAndPermit : Prop :=
  (∀ (cyc : Nat) (high low : Int) (freq duty c n : Nat) (s : State), hasUnit s.m.variant 3 = true → s.m.mode ≠ .sleep →
    c = (if 9800 ≤ freq ∧ freq ≤ 10200 ∧ -13000 ≤ low ∧ low ≤ -11000 then pilotState high true else 0) →
    n = (if s.m.chg.cpNext = c then s.m.chg.cpRun + 1 else 1) →
    ∃ t, exec (.pilotPeriod cyc high low freq duty) s = .next t ∧
      t.m.chg = { s.m.chg with cpNext := c, cpRun := min n 3, pwm := true, duty := min duty 1000,
                               cp := if 3 ≤ n then c else s.m.chg.cp } ∧
      t.m.bit Reg.CHG_IRQ_STAT 3 = (s.m.bit Reg.CHG_IRQ_STAT 3 || (decide (3 ≤ n) && s.m.chg.cp != c)) ∧
      Quiet s t [Reg.CHG_IRQ_STAT]) ∧
  (∀ mv : Int, (10500 < mv → pilotState mv true = 1) ∧ (7500 ≤ mv → mv ≤ 10500 → pilotState mv true = 2) ∧
    (4500 ≤ mv → mv < 7500 → pilotState mv true = 3) ∧ (1500 < mv → mv < 4500 → pilotState mv true = 4) ∧
    (-1500 ≤ mv → mv ≤ 1500 → pilotState mv true = 5) ∧ (mv < -10500 → pilotState mv false = 6)) ∧
  (∀ (cyc : Nat) (level : Int) (s : State), hasUnit s.m.variant 3 = true → s.m.mode ≠ .sleep →
    ∃ t, exec (.pilotConstantLevel cyc level) s = .next t ∧
      t.m.chg = { s.m.chg with cpNext := 0, cpRun := 0, pwm := false, duty := 0, cp := pilotState level false } ∧
      Quiet s t [Reg.CHG_IRQ_STAT]) ∧
  (∀ (cyc ohms n : Nat) (s : State), hasUnit s.m.variant 3 = true → s.m.mode ≠ .sleep →
    n = (if s.m.chg.ppNext = ppCode ohms then s.m.chg.ppRun + 1 else 1) →
    ∃ t, exec (.proximityMeasurement cyc ohms) s = .next t ∧
      t.m.chg = { s.m.chg with
        ppNext := ppCode ohms, ppRun := min n 3, pp := if 3 ≤ n then ppCode ohms else s.m.chg.pp } ∧
      Quiet s t [Reg.CHG_IRQ_STAT]) ∧
  (∀ (cyc : Nat) (high low level : Int) (freq duty ohms : Nat) (s : State),
    hasUnit s.m.variant 3 = false ∨ s.m.mode = .sleep →
    (∃ t, exec (.pilotPeriod cyc high low freq duty) s = .next t ∧ t.m.chg = s.m.chg ∧ Quiet s t []) ∧
    (∃ t, exec (.pilotConstantLevel cyc level) s = .next t ∧ t.m.chg = s.m.chg ∧ Quiet s t []) ∧
    (∃ t, exec (.proximityMeasurement cyc ohms) s = .next t ∧ t.m.chg = s.m.chg ∧ Quiet s t [])) ∧
  (∀ (cyc : Nat) (closed : Bool) (s : State),
    ∃ t, exec (.bmsPermitChange cyc closed) s = .next t ∧ Quiet s t [] ∧
      t.m.chg = { s.m.chg with permit := closed, permOpened := s.m.chg.permOpened || !closed,
                               permSeen := s.m.chg.permSeen || (closed && s.m.chg.permOpened) })

/-- The result of the impedance point that runs: numerator and denominator by the sums over its measured ticks, and its amplitude. -/
def zQuotient (s : State) (n : Int) : Word :=
  let den := s.m.chg.sii * s.m.chg.sii + s.m.chg.siq * s.m.chg.siq
  wordOf (if den = 0 then 0 else sat32 (tdiv (n * (s.m.rd Reg.CHG_ZBU).toNat) den))

/-- Where a charge ends or pauses: the times of REQUEST, PRECHG and BUS, the phases of a pulse, the ramp of STOPPING, the safety timer,
and a grid fault. An impedance point whose measured ticks are all in gives its result, an exact quotient of the sums; the next point
follows, or the sweep ends and is told. Short of its condition, and without the charger's slots, each changes nothing. Completes:
SEQUENCE_TIMEOUT, PULSE_PHASE_END, STOPPING_RAMP_END, SAFETY_TIMER_EXPIRY, GRID_FAULT, IMPEDANCE_POINT_END. Data of event records beyond
the spec's, and ORIGIN and KIND 10 where no rule names them, are the model's choice (log entries 20 and 21). -/
def Obligations.ChargeMachineAndImpedance : Prop :=
  (∀ (cyc : Nat) (s : State), s.m.chgPresent = true → s.m.chg.state = 2 →
    s.m.msTicks (1000 * s.m.fld Reg.CHG_SEQ 31 28) ≤ s.m.chg.ticks →
    ∃ t, exec (.sequenceTimeout cyc) s = .next t ∧ t.m.chg.state = 8 ∧ t.m.chg.term = 5 ∧ t.m.chg.s6 = 0 ∧
      t.m.rd Reg.CHG_IRQ_STAT = s.m.rd Reg.CHG_IRQ_STAT ||| 1#32 ∧ Quiet s t [Reg.CHG_IRQ_STAT]) ∧
  (∀ (cyc st term : Nat) (s : State), s.m.chgPresent = true → s.m.chg.state = st →
    (st = 3 ∧ term = 8 ∧ s.m.msTicks (10 * s.m.fld Reg.CHG_SEQ 27 20) ≤ s.m.chg.ticks) ∨
      (st = 4 ∧ term = 6 ∧ s.m.msTicks 1000 ≤ s.m.chg.ticks) → s.roomy →
    ∃ t, exec (.sequenceTimeout cyc) s = .next t ∧ t.m.chg.state = 8 ∧ t.m.chg.term = term ∧ t.m.chg.s6 = 0 ∧
      Raises s t [eventAt (s.at cyc) 0x2808 3 s.m.pfcSlot [st] 0, eventAt (s.at cyc) 0x2808 3 s.m.dabSlot [st] 0] ∧
      t.m.lane.waiting.length = 2 ∧ t.m.bit Reg.CHG_IRQ_STAT 7 = true ∧ SameRegsBut s t [Reg.CHG_IRQ_STAT] ∧ SameMemory s t) ∧
  (∀ (cyc : Nat) (s : State), s.m.chgPresent = false ∨
      (¬(s.m.chg.state = 2 ∧ s.m.msTicks (1000 * s.m.fld Reg.CHG_SEQ 31 28) ≤ s.m.chg.ticks) ∧
        ¬(s.m.chg.state = 3 ∧ s.m.msTicks (10 * s.m.fld Reg.CHG_SEQ 27 20) ≤ s.m.chg.ticks) ∧
        ¬(s.m.chg.state = 4 ∧ s.m.msTicks 1000 ≤ s.m.chg.ticks)) →
    ∃ t, exec (.sequenceTimeout cyc) s = .next t ∧ t.m.chg = s.m.chg ∧ Quiet s t []) ∧
  (∀ (cyc : Nat) (s : State), s.m.chgPresent = true → s.m.chg.state = 5 → 0 < s.m.chg.restLen → s.m.chg.onLen ≤ s.m.chg.ticks →
    ∃ t, exec (.pulsePhaseEnd cyc) s = .next t ∧ t.m.chg.state = 6 ∧ t.m.chg.ticks = 0 ∧ t.m.chg.s6 = 0 ∧
      t.m.rd Reg.CHG_IRQ_STAT = s.m.rd Reg.CHG_IRQ_STAT ||| 1#32 ∧ Quiet s t [Reg.CHG_IRQ_STAT]) ∧
  (∀ (cyc : Nat) (s : State), s.m.chgPresent = true → s.m.chg.state = 6 → s.m.chg.restLen ≤ s.m.chg.ticks →
    s.m.chg.firstOn = true →
    ∃ t, exec (.pulsePhaseEnd cyc) s = .next t ∧ t.m.chg.state = 5 ∧ t.m.chg.ticks = 0 ∧ t.m.chg.s6 = s.m.chg.ilim ∧
      (let p := s.m.rd Reg.CHG_PULSE
       t.m.chg.onLen = (if p.bit 15 then s.m.msTicks (p.bits 31 16 - p.bits 10 0) else 0) ∧
       t.m.chg.restLen = (if p.bit 15 then s.m.msTicks (p.bits 10 0) else 0)) ∧
      Quiet s t [Reg.CHG_IRQ_STAT]) ∧
  (∀ (cyc : Nat) (s : State), s.m.chgPresent = false ∨
      (¬(s.m.chg.state = 5 ∧ 0 < s.m.chg.restLen ∧ s.m.chg.onLen ≤ s.m.chg.ticks) ∧
        ¬(s.m.chg.state = 6 ∧ s.m.chg.restLen ≤ s.m.chg.ticks)) →
    ∃ t, exec (.pulsePhaseEnd cyc) s = .next t ∧ t.m.chg = s.m.chg ∧ Quiet s t []) ∧
  (∀ (cyc : Nat) (s : State), s.m.chgPresent = true → s.m.chg.state = 7 → s.m.chg.s6 = 0 → 1 ≤ s.m.chg.ticks →
    ∃ t, exec (.stoppingRampEnd cyc) s = .next t ∧ t.m.chg.state = 8 ∧ t.m.chg.term = s.m.chg.term ∧
      Raises s t [eventAt (s.at cyc) 0x2802 0 s.m.dabSlot [s.m.chg.term] 0] ∧ t.m.bit Reg.CHG_IRQ_STAT 1 = true ∧
      SameRegsBut s t [Reg.CHG_IRQ_STAT] ∧ SameMemory s t) ∧
  (∀ (cyc : Nat) (s : State), s.m.chgPresent = false ∨ s.m.chg.state ≠ 7 ∨ s.m.chg.s6 ≠ 0 ∨ s.m.chg.ticks = 0 →
    ∃ t, exec (.stoppingRampEnd cyc) s = .next t ∧ t.m.chg = s.m.chg ∧ Quiet s t []) ∧
  (∀ (cyc : Nat) (s : State), s.m.chgPresent = true → s.m.chg.expired = false → s.m.timerLimit ≤ s.m.chg.c →
    ∃ t, exec (.safetyTimerExpiry cyc) s = .next t ∧ t.m.chg.expired = true ∧
      (chgRunning s.m.chg.state = true → t.m.chg.state = 7 ∧ t.m.chg.term = 2) ∧
      (chgRunning s.m.chg.state = false → t.m.chg = { s.m.chg with expired := true }) ∧
      Raises s t [eventAt (s.at cyc) 0x2803 1 s.m.dabSlot
        ((s.m.chg.therm.toNat + 2 * s.m.chg.prio.toNat + 4 * s.m.chg.input.toNat) :: leBytes 4 (s.m.tickSeconds s.m.chg.thalf)) 0] ∧
      SameRegsBut s t [Reg.CHG_IRQ_STAT] ∧ SameMemory s t) ∧
  (∀ (cyc : Nat) (s : State), s.m.chgPresent = false ∨ s.m.chg.expired = true ∨ s.m.chg.c < s.m.timerLimit →
    ∃ t, exec (.safetyTimerExpiry cyc) s = .next t ∧ t.m.chg = s.m.chg ∧ Quiet s t []) ∧
  (∀ (cyc : Nat) (s : State), s.m.chgPresent = true → 4 ≤ s.m.chg.state → s.m.chg.state ≤ 7 →
    8 ≤ s.m.chg.vgRun ∨ 16 ≤ s.m.chg.lostRun ∨ 8 ≤ s.m.chg.freqRun → s.roomy →
    ∃ t, exec (.gridFault cyc) s = .next t ∧ t.m.chg.state = 8 ∧
      t.m.chg.term = (if s.m.chg.state = 7 then s.m.chg.term else 8) ∧ t.m.chg.s6 = 0 ∧
      t.m.bit Reg.CHG_IRQ_STAT 7 = true ∧ t.m.lane.waiting.length = 2 ∧
      Raises s t [eventAt (s.at cyc) 0x2807 3 s.m.pfcSlot [] 0, eventAt (s.at cyc) 0x2807 3 s.m.dabSlot [] 0] ∧
      SameRegsBut s t [Reg.CHG_IRQ_STAT] ∧ SameMemory s t) ∧
  (∀ (cyc : Nat) (s : State), s.m.chgPresent = false ∨ s.m.chg.state < 4 ∨ 7 < s.m.chg.state ∨
      (s.m.chg.vgRun < 8 ∧ s.m.chg.lostRun < 16 ∧ s.m.chg.freqRun < 8) →
    ∃ t, exec (.gridFault cyc) s = .next t ∧ t.m.chg = s.m.chg ∧ Quiet s t []) ∧
  (∀ (cyc : Nat) (s : State) (p tp nset ncyc t0 : Nat), s.m.chgPresent = true → s.m.chg.zNext = p → s.m.chg.zRun = some t0 →
     s.m.zPoint p = some (tp, nset, ncyc) → (nset + ncyc) * tp + 1 ≤ t0 →
     let x := s.m.chg
     let den := x.sii * x.sii + x.siq * x.siq
     let ok := decide (den ≠ 0) && decide (s.m.fld Reg.CHG_IMP 15 0 * 2 ^ 15 ≤ 2 * isqrtBits 70 den.toNat 0 / (ncyc * tp))
     ∃ t, exec (.impedancePointEnd cyc) s = .next t ∧ t.m.chg.zRun = none ∧ t.m.chg.zCommand = .stop ∧
       t.m.rd (Reg.CHG_Z_ZR p) = zQuotient s (x.svi * x.sii + x.svq * x.siq) ∧
       t.m.rd (Reg.CHG_Z_ZI p) = zQuotient s (x.svq * x.sii - x.svi * x.siq) ∧ t.m.chg.valid.testBit p = ok ∧
       SameRegsBut s t [Reg.CHG_Z_ZR p, Reg.CHG_Z_ZI p, Reg.CHG_IRQ_STAT] ∧ SameMemory s t ∧
       ((s.m.zPoint (p + 1)).isSome = true → t.m.chg.zNext = p + 1 ∧
         Raises s t [eventAt (s.at cyc) 0x280C 0 s.m.dabSlot [p, ok.toNat] 0]) ∧
       ((s.m.zPoint (p + 1)).isSome = false → t.m.chg.zNext = (if s.m.bit Reg.CHG_CFG 21 then 0 else p + 1) ∧
         t.m.chg.zDone = !s.m.bit Reg.CHG_CFG 21 ∧ t.m.chg.sweeps = min 255 (x.sweeps + 1) ∧
         Raises s t [eventAt (s.at cyc) 0x280C 0 s.m.dabSlot [p, ok.toNat] 0, eventAt (s.at cyc) 0x280D 0 s.m.dabSlot [] 0])) ∧
  (∀ (cyc : Nat) (s : State), s.m.chgPresent = false ∨ s.m.chg.zRun = none ∨ s.m.zPoint s.m.chg.zNext = none ∨
      (∃ t0 tp nset ncyc, s.m.chg.zRun = some t0 ∧ s.m.zPoint s.m.chg.zNext = some (tp, nset, ncyc) ∧
        t0 < (nset + ncyc) * tp + 1) →
     ∃ t, exec (.impedancePointEnd cyc) s = .next t ∧ t.m.chg = s.m.chg ∧ Quiet s t [])

/-! ### Actuators and pumps -/

/-- Pump `d` enters RETRY, with `n` entries of the last 10 s of RUN before it: at the third it is in FAULT. -/
def RetriesOf (s t : State) (d n : Nat) : Prop :=
  n = ((s.m.drv d).retries.filter fun x => decide ((s.m.drv d).runTicks < x + s.m.msTicks 10000)).length ∧
  (d < s.m.act.drives.length → (t.m.drv d).pstate = (if 2 ≤ n then 3 else 2) ∧ (t.m.drv d).granted = false ∧
    (t.m.drv d).retryAt = s.m.seq) ∧
  (∀ e, e ≠ d → t.m.drv e = s.m.drv e)

/-- A drive without edges in no move is a stall; at an end it is the end-stop, which references a seek; a blocked pump enters RETRY, and
FAULT at the third entry. A hall fault loses the position, stops the drive and is an F3; 64 clean sets end it, and a pump in RUN then
restarts through RETRY. A pump's pin measured outside its limits is told once and takes FAILSAFE; after a second in RETRY a pump starts
again, or without a setpoint, without permission or with a hall fault is in OFF. Short of its condition, and on a drive without a role,
each changes nothing. Completes: DRIVE_BLOCKED, HALL_FAULT, HALL_FAULT_CLEAR, PUMP_COMMAND_MEASUREMENT, PUMP_RETRY_END. Data of event
records beyond the spec's, and ORIGIN and KIND 10 where no rule names them, are the model's choice (log entries 20 and 21). -/
def Obligations.DrivesAndPumps : Prop :=
  (∀ (cyc : Nat) (d : Fin 6) (s : State), s.m.drvRole d ≠ 0 → s.m.isPump d = false → s.m.hallFaultNow d = false →
    s.m.blockedNow d = true → s.m.movesLow d = false → s.m.movesHigh d = false →
    ∃ t, exec (.driveBlocked cyc d) s = .next t ∧
      t.m.act.drives = upd s.m.act.drives d (fun x => { x with stall := true, dclamp := 0 }) ∧
      Raises s t [eventAt (s.at cyc) 0x2C01 1 (s.m.drvSlot d) [] 0] ∧ t.m.bit Reg.ACT_IRQ_STAT 0 = true ∧
      SameRegsBut s t [Reg.ACT_IRQ_STAT] ∧ SameMemory s t) ∧
  (∀ (cyc : Nat) (d : Fin 6) (s : State), s.m.drvRole d ≠ 0 → s.m.isPump d = false → s.m.hallFaultNow d = false →
    s.m.blockedNow d = true → s.m.movesLow d = true ∨ s.m.movesHigh d = true → (s.m.drv d).move ≠ .seekLo → (s.m.drv d).move ≠ .seekHi →
    ∃ t, exec (.driveBlocked cyc d) s = .next t ∧
      t.m.act.drives = upd s.m.act.drives d (fun x => { x with
        endlo := x.endlo || s.m.movesLow d, endhi := x.endhi || !s.m.movesLow d, dclamp := s.m.drvHoldd d }) ∧
      Raises s t [eventAt (s.at cyc) 0x2C03 0 (s.m.drvSlot d) [] 0] ∧ SameRegsBut s t [] ∧ SameMemory s t) ∧
  (∀ (cyc : Nat) (d : Fin 6) (s : State) (p : Int), s.m.drvRole d ≠ 0 → s.m.isPump d = false → s.m.hallFaultNow d = false →
    s.m.blockedNow d = true → ((s.m.drv d).move = .seekLo ∧ p = 0) ∨ ((s.m.drv d).move = .seekHi ∧ p = s.m.drvSpan d) →
    ∃ t g, exec (.driveBlocked cyc d) s = .next t ∧ t.m.act.drives = upd s.m.act.drives d g ∧
      (∀ x, (g x).posn = p ∧ (g x).ref = true ∧ (g x).prof = 256 * p ∧ (g x).dclamp = s.m.drvHoldd d ∧
        ((s.m.drv d).move = .seekLo → (g x).endlo = true) ∧ ((s.m.drv d).move = .seekHi → (g x).endhi = true)) ∧
      Raises s t [eventAt (s.at cyc) 0x2C03 0 (s.m.drvSlot d) [] 0, eventAt (s.at cyc) 0x2C0A 0 (s.m.drvSlot d) [] 0] ∧
      SameRegsBut s t [] ∧ SameMemory s t) ∧
  (∀ (cyc : Nat) (d : Fin 6) (s : State), s.m.drvRole d ≠ 0 → s.m.isPump d = true → s.m.hallFaultNow d = false →
    s.m.blockedNow d = true → s.roomy →
    ∃ t n, exec (.driveBlocked cyc d) s = .next t ∧ RetriesOf s t d n ∧ t.m.bit Reg.ACT_IRQ_STAT 0 = true ∧
      (n < 2 → Raises s t [eventAt (s.at cyc) 0x2C01 1 (s.m.drvSlot d) [] 0]) ∧
      (2 ≤ n → Raises s t [eventAt (s.at cyc) 0x2C01 1 (s.m.drvSlot d) [] 0, eventAt (s.at cyc) 0x2C04 3 (s.m.drvSlot d) [] 0] ∧
        Enters s t cyc ⟨10, s.m.drvSlot d, 0, 0, 0x2C04, []⟩) ∧ SameRegsBut s t [Reg.ACT_IRQ_STAT] ∧ SameMemory s t) ∧
  (∀ (cyc : Nat) (d : Fin 6) (s : State), s.m.drvRole d = 0 ∨ s.m.hallFaultNow d = true ∨ s.m.blockedNow d = false →
    ∃ t, exec (.driveBlocked cyc d) s = .next t ∧ t.m.act = s.m.act ∧ Quiet s t []) ∧
  (∀ (cyc : Nat) (d : Fin 6) (s : State), s.m.drvRole d ≠ 0 → s.m.hallFaultNow d = true → s.roomy →
    ∃ t g, exec (.hallFault cyc d) s = .next t ∧ SlotFault s t cyc 0x2C02 (s.m.drvSlot d) [] ∧
      t.m.act.drives = upd s.m.act.drives d g ∧
      (∀ x, (g x).hallFlt = true ∧ (g x).ref = false ∧ (g x).granted = false ∧ (g x).dclamp = 0 ∧ (g x).posn = x.posn) ∧
      t.m.bit Reg.ACT_IRQ_STAT 1 = true ∧ SameRegsBut s t [Reg.ACT_IRQ_STAT] ∧ SameMemory s t) ∧
  (∀ (cyc : Nat) (d : Fin 6) (s : State), s.m.drvRole d = 0 ∨ s.m.hallFaultNow d = false →
    ∃ t, exec (.hallFault cyc d) s = .next t ∧ t.m.act = s.m.act ∧ Quiet s t []) ∧
  (∀ (cyc : Nat) (d : Fin 6) (s : State), s.m.drvRole d ≠ 0 → s.m.isPump d = false ∨ (s.m.drv d).pstate ≠ 1 →
    (s.m.drv d).hallFlt = true → 64 ≤ (s.m.drv d).clean →
    ∃ t, exec (.hallFaultClear cyc d) s = .next t ∧
      t.m.act.drives = upd s.m.act.drives d (fun x => { x with hallFlt := false }) ∧ Quiet s t []) ∧
  (∀ (cyc : Nat) (d : Fin 6) (s : State), s.m.isPump d = true → (s.m.drv d).pstate = 1 → (s.m.drv d).hallFlt = true →
    64 ≤ (s.m.drv d).clean → s.roomy →
    ∃ t n, exec (.hallFaultClear cyc d) s = .next t ∧ RetriesOf s t d n ∧
      (d.val < s.m.act.drives.length → (t.m.drv d).hallFlt = false) ∧ (n < 2 → Quiet s t []) ∧
      (2 ≤ n → SlotFault s t cyc 0x2C04 (s.m.drvSlot d) []) ∧ SameRegsBut s t [Reg.ACT_IRQ_STAT] ∧ SameMemory s t) ∧
  (∀ (cyc : Nat) (d : Fin 6) (s : State), s.m.drvRole d = 0 ∨ (s.m.drv d).hallFlt = false ∨ (s.m.drv d).clean < 64 →
    ∃ t, exec (.hallFaultClear cyc d) s = .next t ∧ t.m.act = s.m.act ∧ Quiet s t []) ∧
  (∀ (cyc : Nat) (p : Fin 2) (value freq : Nat) (held bad : Bool) (s : State), s.m.mode ≠ .sleep → s.m.isPump (4 + p.val) = true →
    bad = pumpInvalid (s.m.fld (Reg.ACT_PMP_CFG (4 + p.val)) 31 30) value freq held →
    ∃ t, exec (.pumpCommandMeasurement cyc p value freq held) s = .next t ∧
      t.m.act.drives = upd s.m.act.drives (4 + p.val) (fun x => { x with pin := min value 0xFFFF, invalid := bad }) ∧
      Raises s t (if bad = true ∧ (s.m.drv (4 + p.val)).invalid = false then
        [eventAt (s.at cyc) 0x2C08 1 (s.m.drvSlot (4 + p.val)) [] 0] else []) ∧
      SameRegsBut s t [Reg.ACT_IRQ_STAT] ∧ SameMemory s t) ∧
  (∀ (cyc : Nat) (p : Fin 2) (value freq : Nat) (held : Bool) (s : State), s.m.mode = .sleep ∨ s.m.isPump (4 + p.val) = false →
    ∃ t, exec (.pumpCommandMeasurement cyc p value freq held) s = .next t ∧ t.m.act = s.m.act ∧ Quiet s t []) ∧
  (∀ (cyc : Nat) (d : Fin 6) (s : State), s.m.isPump d = true → (s.m.drv d).pstate = 2 →
    (s.m.drv d).retryAt + s.m.msTicks 1000 ≤ s.m.seq → 0 < (s.m.drv d).sp → s.m.permitted (s.m.drvSlot d) = true →
    (s.m.drv d).hallFlt = false →
    ∃ t, exec (.pumpRetryEnd cyc d) s = .next t ∧ Quiet s t [] ∧ (t.m.pwr.starts.any fun x => x.drive == d.val) = true ∧
      t.m.act.drives = upd s.m.act.drives d
        (fun x => { x with pstate := 1, dclamp := s.m.drvDlim d, noEdge := 0, granted := false })) ∧
  (∀ (cyc : Nat) (d : Fin 6) (s : State), s.m.isPump d = true → (s.m.drv d).pstate = 2 →
    (s.m.drv d).retryAt + s.m.msTicks 1000 ≤ s.m.seq →
    (s.m.drv d).sp ≤ 0 ∨ s.m.permitted (s.m.drvSlot d) = false ∨ (s.m.drv d).hallFlt = true →
    ∃ t, exec (.pumpRetryEnd cyc d) s = .next t ∧ Quiet s t [] ∧ t.m.pwr = s.m.pwr ∧
      t.m.act.drives = upd s.m.act.drives d (fun x => { x with pstate := 0 })) ∧
  (∀ (cyc : Nat) (d : Fin 6) (s : State), s.m.isPump d = false ∨ (s.m.drv d).pstate ≠ 2 ∨
      s.m.seq < (s.m.drv d).retryAt + s.m.msTicks 1000 →
    ∃ t, exec (.pumpRetryEnd cyc d) s = .next t ∧ Quiet s t [] ∧ t.m.act = s.m.act)

/-! ### Lanes -/

/-- While both lanes are LIVE an input that both accession units form alike enters once; two that differ are a disagreement and
wait for its verdict; a transfer that fails its CRC is a fault of its lane, and the other unit's entry enters; with one lane LIVE its
unit alone counts. An entry that finds its tick full moves to the next tick, and with that one full too is dropped with event 0x300D. The
inbox gives its words in order and then 0; the journal is read word by word; a bad entry is a fault of the lane and gives a free value. In
a checkpoint tick a LIVE lane's state begins to be copied, and otherwise nothing; a copy that verifies goes to the other buffer of the
lane's Archive, and no other byte changes, it is compared with the other lane's of the tick, and every sealed bank of the lane is one
checkpoint nearer to lifting; a copy that does not verify is a fault of the lane. Completes: ASYNC_INPUT_ARRIVAL, INBOX_READ,
JOURNAL_READ, CHECKPOINT_START, CHECKPOINT_COMPLETE. Data of event records beyond the spec's, and ORIGIN and KIND 10 where no rule names
them, are the model's choice (log entries 20 and 21). -/
def Obligations.InputsAndCheckpoints : Prop :=
  (∀ (cyc : Nat) (i : AsyncIn) (s : State), s.m.live .a = true → s.m.live .b = true → s.roomy → i.payload.length ≤ 992 →
    ∃ t, exec (.asyncInputArrival cyc i i none) s = .next t ∧ Enters s t cyc i ∧ Quiet s t []) ∧
  (∀ (cyc : Nat) (i : AsyncIn) (s : State), s.m.live .a = true → s.m.live .b = true →
    1024 < s.m.waitingBytes (s.at cyc).accTickNow + entryBytes i.payload →
    ((s.at cyc).accTickNow < s.m.seq + 2 → s.m.waitingBytes ((s.at cyc).accTickNow + 1) + entryBytes i.payload ≤ 1024 →
      ∃ t, exec (.asyncInputArrival cyc i i none) s = .next t ∧
        t.m.lane.waiting =
          insertEntry { (s.at cyc).entryOf ((s.at cyc).accTickNow + 1) i with deferred := true } s.m.lane.waiting ∧
        t.m.fld Reg.LANE_ACCSTAT 15 0 = min (s.m.fld Reg.LANE_ACCSTAT 15 0 + 1) 0xFFFF ∧ Quiet s t [Reg.LANE_ACCSTAT]) ∧
    (s.m.seq + 2 ≤ (s.at cyc).accTickNow ∨ 1024 < s.m.waitingBytes ((s.at cyc).accTickNow + 1) + entryBytes i.payload →
      ∃ t, exec (.asyncInputArrival cyc i i none) s = .next t ∧ t.m.lane.waiting = s.m.lane.waiting ∧
        t.m.fld Reg.LANE_ACCSTAT 31 16 = min (s.m.fld Reg.LANE_ACCSTAT 31 16 + 1) 0xFFFF ∧
        Raises s t [eventAt (s.at cyc) 0x300D 1 0xFF [] 0] ∧
        SameRegsBut s t [Reg.LANE_ACCSTAT, Reg.LANE_L_IRQ_STAT 0, Reg.LANE_L_IRQ_STAT 1] ∧ SameMemory s t)) ∧
  (∀ (cyc : Nat) (i j : AsyncIn) (s : State), s.m.live .a = true → s.m.live .b = true → i ≠ j →
    ∃ t, exec (.asyncInputArrival cyc i j none) s = .next t ∧ t.m.lane.waiting = s.m.lane.waiting ∧
      t.m.lane.disputes = s.m.lane.disputes ++ [.entry] ∧
      t.m.lane.disputed = s.m.lane.disputed ++
        [((s.at cyc).entryOf (s.at cyc).accTickNow i, (s.at cyc).entryOf (s.at cyc).accTickNow j)] ∧ Quiet s t []) ∧
  (∀ (cyc : Nat) (i j : AsyncIn) (l : Lane) (s : State), s.m.live .a = true → s.m.live .b = true → s.roomy →
    i.payload.length ≤ 992 → j.payload.length ≤ 992 →
    ∃ t, exec (.asyncInputArrival cyc i j (some l)) s = .next t ∧ Enters s t cyc (if l = .a then j else i) ∧
      t.m.lane.disputes = s.m.lane.disputes ∧ t.m.admitted l = false ∧
      Raises s t [eventAt (s.at cyc) 0x3002 2 0xFF [11] l.origin] ∧
      SameRegsBut s t [healthReg l, Reg.LANE_L_IRQ_STAT 0, Reg.LANE_L_IRQ_STAT 1] ∧ SameMemory s t) ∧
  (∀ (cyc : Nat) (i j : AsyncIn) (l : Lane) (bad : Option Lane) (s : State), s.m.live l.other = false →
    s.m.live l = true ∨ l = .a → s.roomy → i.payload.length ≤ 992 → j.payload.length ≤ 992 →
    ∃ t, exec (.asyncInputArrival cyc i j bad) s = .next t ∧ Enters s t cyc (if l = .a then i else j) ∧ Quiet s t []) ∧
  (∀ (cyc : Nat) (l : Lane) (s : State),
    (∃ t, exec (.inboxRead cyc l false) s = .next t ∧ t.m.reply = .data (BitVec.ofNat 32 ((s.m.lanes.get l).inbox.headD 0)) ∧
      (t.m.lanes.get l).inbox = (s.m.lanes.get l).inbox.drop 1 ∧ t.m.lanes.get l.other = s.m.lanes.get l.other ∧ Quiet s t []) ∧
    (∃ t, exec (.inboxRead cyc l true) s = .next t ∧ t.m.reply = .data (BitVec.ofNat 32 (s.m.freeVal 32).1) ∧
      (t.m.lanes.get l).inbox = (s.m.lanes.get l).inbox.drop 1 ∧ t.m.admitted l = false ∧
      Raises s t [eventAt (s.at cyc) 0x3002 2 0xFF [6] l.origin] ∧
      SameRegsBut s t [healthReg l, Reg.LANE_L_IRQ_STAT 0, Reg.LANE_L_IRQ_STAT 1] ∧ SameMemory s t)) ∧
  (∀ (cyc : Nat) (l : Lane) (s : State), s.m.fld Reg.LANE_JRN_ADDR 31 31 = l.ix →
    (∃ t, exec (.journalRead cyc false) s = .next t ∧ t.m.reply = .data (BitVec.ofNat 32 s.m.journalWord) ∧
      t.m.fld Reg.LANE_JRN_ADDR 13 0 = (s.m.fld Reg.LANE_JRN_ADDR 13 0 + 1) % 2 ^ 14 ∧ t.m.lanes = s.m.lanes ∧
      Quiet s t [Reg.LANE_JRN_ADDR]) ∧
    (∃ t, exec (.journalRead cyc true) s = .next t ∧ t.m.reply = .data (BitVec.ofNat 32 (s.m.freeVal 32).1) ∧
      t.m.fld Reg.LANE_JRN_ADDR 13 0 = (s.m.fld Reg.LANE_JRN_ADDR 13 0 + 1) % 2 ^ 14 ∧ t.m.admitted l = false ∧
      Raises s t [eventAt (s.at cyc) 0x3002 2 0xFF [6] l.origin] ∧
      SameRegsBut s t [Reg.LANE_JRN_ADDR, healthReg l, Reg.LANE_L_IRQ_STAT 0, Reg.LANE_L_IRQ_STAT 1] ∧ SameMemory s t)) ∧
  (∀ (cyc : Nat) (l : Lane) (s : State), s.m.live l = true → s.m.tick.running = true → s.m.fld Reg.LANE_CFG 4 0 ≠ 0 →
    (s.m.seq + 1) % s.m.fld Reg.LANE_CFG 4 0 = 0 →
    ∃ t, exec (.checkpointStart cyc l) s = .next t ∧
      (t.m.lanes.get l).copying = some ((s.at cyc).takeCheckpoint s.mem l) ∧ (t.m.lanes.get l).complete = none ∧
      t.m.lanes.get l.other = s.m.lanes.get l.other ∧ Quiet s t [Reg.LANE_CKSTAT]) ∧
  (∀ (cyc : Nat) (l : Lane) (s : State),
    s.m.live l = false ∨ s.m.tick.running = false ∨ s.m.fld Reg.LANE_CFG 4 0 = 0 ∨
      (s.m.seq + 1) % s.m.fld Reg.LANE_CFG 4 0 ≠ 0 →
    ∃ t, exec (.checkpointStart cyc l) s = .next t ∧ t.m.lanes = s.m.lanes ∧ Quiet s t []) ∧
  (∀ (cyc : Nat) (l : Lane) (s : State) (c : Checkpoint), Memory.wf s.mem = true → (s.m.lanes.get l).copying = some c →
    ∃ t, exec (.checkpointComplete cyc l true) s = .next t ∧ (t.m.lanes.get l).copying = none ∧
      (t.m.lanes.get l).complete = some c ∧ (t.m.lanes.get l).usable = (s.m.lanes.get l).usable ∧
      (let a := archiveBase l + 0x20000 * (if (s.m.lanes.get l).usable = some false then 1 else 0)
       let bytes := c.bytes l (s.m.ownSlots l) (s.m.ownMotors l)
       t.mem = Memory.writeL s.mem a bytes ∧ ∀ b, b < a ∨ a + bytes.length ≤ b → Memory.read t.mem b = Memory.read s.mem b) ∧
      t.m.lane.disputes = s.m.lane.disputes ++ (match (s.m.lanes.get l.other).complete with
        | some d => if s.m.arr = 1 ∧ d.tick = c.tick ∧
            d.bcrc (s.m.ownSlots l) (s.m.ownMotors l) ≠ c.bcrc (s.m.ownSlots l) (s.m.ownMotors l) then [.checkpoint] else []
        | none => []) ∧
      (∀ k : Fin 16, (t.m.lawSlot l k).sealLeft =
        if (s.m.lawSlot l k).asked = true ∨ (s.m.lawSlot l k).detSwap = true then (s.m.lawSlot l k).sealLeft
        else (s.m.lawSlot l k).sealLeft - 1) ∧
      Raises s t [] ∧
      SameRegsBut s t (Reg.LANE_CKSTAT :: ((List.range 16).map (Reg.LAW_SLOT_STAT l.ix) ++
        if s.m.laneCode l.other = 5 then (List.range 16).map (Reg.LAW_SLOT_STAT l.other.ix) else []))) ∧
  (∀ (cyc : Nat) (l : Lane) (s : State) (c : Checkpoint), (s.m.lanes.get l).copying = some c →
    ∃ t, exec (.checkpointComplete cyc l false) s = .next t ∧ (t.m.lanes.get l).copying = none ∧ t.m.admitted l = false ∧
      (t.m.lanes.get l).complete = (s.m.lanes.get l).complete ∧
      Raises s t [eventAt (s.at cyc) 0x3002 2 0xFF [7] l.origin] ∧ SameMemory s t ∧
      SameRegsBut s t [Reg.LANE_CKSTAT, healthReg l, Reg.LANE_L_IRQ_STAT 0, Reg.LANE_L_IRQ_STAT 1]) ∧
  (∀ (cyc : Nat) (l : Lane) (ok : Bool) (s : State), (s.m.lanes.get l).copying = none →
    ∃ t, exec (.checkpointComplete cyc l ok) s = .next t ∧ t.m.lanes = s.m.lanes ∧ Quiet s t [])

/-- A cutoff with nothing but frames and write lists to judge: no pump slot, no message held, no completion and no entry in dispute. -/
abbrev CutoffOfFrames (s : State) : Prop :=
  s.m.lane.cut = false ∧ s.m.tick.running = true ∧ s.m.slotsOf .pump = [] ∧ s.m.dma.acc = [] ∧ s.m.net.held = [] ∧
    s.m.lane.disputed = []

/-- Both admitted lanes' frames stand at every slot that has one, and every slot that a lane runs has one. -/
abbrev BothSent (m : Mach) : Prop :=
  m.pairJudged = true ∧ m.admitted .a = true ∧ m.admitted .b = true ∧ (∀ k ∈ m.mapped, (m.sv k).accepted ≠ none) ∧
    ∀ k : Fin 16, ((m.sv k).holds .a = true ∧ (m.sv k).holds .b = true) ∨ ((m.sv k).accepted = none ∧ (m.sv k).second = none)

/-- A slot's frame goes to the boundary unreplaced: none stands there, or an admitted lane's that passed its envelope. -/
def SlotSettled (m : Mach) (k : Nat) : Prop :=
  ((m.sv k).accepted = none ∧ (m.sv k).second = none) ∨
    ∃ x, (m.sv k).accepted = some x ∧ m.admitted x.2 = true ∧ (m.sv k).acceptedBad = false

/-- Of two lanes' frames for a slot the first valid one is accepted and the second compared with it; a difference is a
disagreement of the tick; of two in one cycle the active lane's is the accepted one; a frame that fails its envelope is so marked, and its
lane's health word shows ENVELOPE. The frame of a lane in SHADOW is kept beside. An invalid frame, and one past the cutoff, is dropped. At
the cutoff a lane that has sent no valid frame for a slot is faulted; the frame of a lane no longer admitted gives way to the other's; a
disagreement with a verdict faults the lane judged wrong with 0x3001, and the other lane's frames stand; one without restarts both lanes
with 0x3005; an accepted frame that fails its envelope, with no other, becomes the safe-state command and an F3, 0x300C; a pump in RUN
without a frame takes its governor's, told once; equal write lists become entries of the next tick; a SHADOW tick is judged. Completes:
SIEVE_FRAME_ARRIVAL, SIEVE_CUTOFF. Data of event records beyond the spec's, and ORIGIN and KIND 10 where no rule names them, are the
model's choice (log entries 20 and 21). -/
def Obligations.TheSieveAcceptsAndComparesFrames : Prop :=
  (∀ (cyc : Nat) (l : Lane) (k : Fin 16) (s : State) (f : Frame),
    (s.m.lane.inFlight.find? fun x => x.1 == l && x.2.slot == k.val) = some (l, f) →
    s.m.lane.cut = false → (s.at cyc).time.cyc ≤ s.m.cutoffCycle → s.m.laneCode l ≠ 5 → s.m.frameValid l f true = true →
    ((s.m.sv k).accepted = none →
      ∃ t, exec (.sieveFrameArrival cyc l k true) s = .next t ∧ t.m.lane.inFlight = s.m.lane.inFlight.erase (l, f) ∧
        t.m.lane.slots = upd s.m.lane.slots k (fun x => { x with
          accepted := some (f, l), acceptedAt := (s.at cyc).time.cyc, acceptedBad := s.m.envelopeFails l f }) ∧
        (s.m.envelopeFails l f = true → t.m.bit (healthReg l) 8 = true) ∧
        Quiet s t (if s.m.envelopeFails l f then [healthReg l] else [])) ∧
    (∀ g, (s.m.sv k).accepted = some (g, l.other) → (s.m.sv k).acceptedAt ≠ (s.at cyc).time.cyc ∨ s.m.active ≠ l →
      ∃ t, exec (.sieveFrameArrival cyc l k true) s = .next t ∧ t.m.lane.inFlight = s.m.lane.inFlight.erase (l, f) ∧
        t.m.lane.slots = upd s.m.lane.slots k (fun x => { x with second := some (f, l), secondBad := s.m.envelopeFails l f }) ∧
        t.m.lane.disputes = s.m.lane.disputes ++ (if f.agrees g then [] else [.frame k]) ∧
        (s.m.envelopeFails l f = true → t.m.bit (healthReg l) 8 = true) ∧
        Quiet s t (if s.m.envelopeFails l f then [healthReg l] else [])) ∧
    (∀ g, (s.m.sv k).accepted = some (g, l.other) → (s.m.sv k).acceptedAt = (s.at cyc).time.cyc → s.m.active = l →
      ∃ t, exec (.sieveFrameArrival cyc l k true) s = .next t ∧ t.m.lane.inFlight = s.m.lane.inFlight.erase (l, f) ∧
        t.m.lane.slots = upd s.m.lane.slots k (fun x => { x with
          accepted := some (f, l), acceptedBad := s.m.envelopeFails l f, second := some (g, l.other), secondBad := x.acceptedBad }) ∧
        t.m.lane.disputes = s.m.lane.disputes ++ (if f.agrees g then [] else [.frame k]) ∧
        Quiet s t (if s.m.envelopeFails l f then [healthReg l] else []))) ∧
  (∀ (cyc : Nat) (l : Lane) (k : Fin 16) (s : State) (f : Frame) (ok : Bool),
    (s.m.lane.inFlight.find? fun x => x.1 == l && x.2.slot == k.val) = some (l, f) →
    (s.m.lane.cut = false → (s.at cyc).time.cyc ≤ s.m.cutoffCycle → s.m.laneCode l = 5 →
      ∃ t, exec (.sieveFrameArrival cyc l k ok) s = .next t ∧ t.m.lane.inFlight = s.m.lane.inFlight.erase (l, f) ∧
        t.m.lane.slots = upd s.m.lane.slots k (fun x => { x with shadow := some f }) ∧ Quiet s t []) ∧
    (s.m.lane.cut = true ∨ s.m.cutoffCycle < (s.at cyc).time.cyc ∨ (s.m.laneCode l ≠ 5 ∧ s.m.frameValid l f ok = false) →
      ∃ t, exec (.sieveFrameArrival cyc l k ok) s = .next t ∧ t.m.lane.inFlight = s.m.lane.inFlight.erase (l, f) ∧
        t.m.lane.slots = s.m.lane.slots ∧ t.m.lane.disputes = s.m.lane.disputes ∧ Quiet s t [])) ∧
  (∀ (cyc : Nat) (l : Lane) (k : Fin 16) (s : State) (ok : Bool),
    (s.m.lane.inFlight.find? fun x => x.1 == l && x.2.slot == k.val) = none →
    ∃ t, exec (.sieveFrameArrival cyc l k ok) s = .next t ∧ t.m.lane = s.m.lane ∧ Quiet s t []) ∧
  (∀ (cyc : Nat) (l : Lane) (s : State) (k : Nat), s.m.lane.cut = false → s.m.tick.running = true → s.m.admitted l = true →
    s.m.laneCode l.other = 2 → s.m.mapped = [k] → s.m.runsSlot l k = true → (s.m.sv k).accepted = none → (s.m.sv k).second = none →
    s.m.slotsOf .pump = [] → s.m.lane.disputed = [] → s.m.net.held = [] →
    ∃ t, exec (.sieveCutoff cyc) s = .next t ∧ t.m.lane.cut = true ∧ t.m.admitted l = false ∧
      Raises s t [eventAt (s.at cyc) 0x3002 2 k [12] l.origin] ∧
      SameRegsBut s t [healthReg l, Reg.LANE_L_IRQ_STAT 0, Reg.LANE_L_IRQ_STAT 1] ∧ SameMemory s t) ∧
  (∀ (cyc : Nat) (w : List (Nat × Word)) (s : State), CutoffOfFrames s → BothSent s.m → s.m.lane.disputes = [] →
    (∀ k : Fin 16, SlotSettled s.m k) → s.m.lanes.a.writeList = w → s.m.lanes.b.writeList = w → s.roomy → w.length ≤ 32 →
    ∃ t, exec (.sieveCutoff cyc) s = .next t ∧ t.m.lane.cut = true ∧ t.m.lane.slots = s.m.lane.slots ∧
      (w = [] → t.m.lane.waiting = []) ∧
      (∀ x, w = [x] → t.m.lane.waiting = [{ (s.at cyc).entryOf (s.m.seq + 1)
        ⟨1, 0, s.m.active.origin, physical x.1 % 2 ^ 32, x.2.toNat, []⟩ with merged := true }]) ∧ Quiet s t []) ∧
  (∀ (cyc : Nat) (l : Lane) (n : Nat) (s : State), CutoffOfFrames s → BothSent s.m → s.m.lane.disputes ≠ [] →
    s.m.verdict = some (l, n) → s.m.lanes.a.writeList = [] → s.m.lanes.b.writeList = [] →
    (∀ (k : Fin 16) (x : Frame), ((s.m.sv k).accepted = some (x, l.other) → (s.m.sv k).acceptedBad = false) ∧
      ((s.m.sv k).second = some (x, l.other) → (s.m.sv k).secondBad = false)) →
    ∃ t, exec (.sieveCutoff cyc) s = .next t ∧ t.m.lane.cut = true ∧ t.m.lane.disputes = [] ∧ t.m.admitted l = false ∧
      t.m.admitted l.other = true ∧
      (∀ k : Fin 16, ((s.m.sv k).accepted ≠ none → (t.m.sv k).accepted ≠ none) ∧
        ∀ x, (t.m.sv k).accepted = some x → x.2 = l.other) ∧
      t.m.fld Reg.LANE_FAULTS 15 8 = min (s.m.fld Reg.LANE_FAULTS 15 8 + 1) 0xFF ∧
      Raises s t [eventAt (s.at cyc) 0x3001 2 0xFF ([l.ix, n] ++ leBytes 4 s.m.seq) l.origin] ∧
      SameRegsBut s t [Reg.LANE_FAULTS, Reg.LANE_L_IRQ_STAT 0, Reg.LANE_L_IRQ_STAT 1] ∧ SameMemory s t) ∧
  (∀ (cyc : Nat) (s : State), CutoffOfFrames s → BothSent s.m → s.m.lane.disputes ≠ [] → s.m.verdict = none →
    s.m.lanes.a.writeList = s.m.lanes.b.writeList → s.m.lanes.a.restart = none → s.m.lanes.b.restart = none →
    s.m.lane.pendRestart = none →
    ∃ t, exec (.sieveCutoff cyc) s = .next t ∧ t.m.lane.pendRestart = some 1 ∧ t.m.admitted .a = false ∧ t.m.admitted .b = false ∧
      (∀ k : Fin 16, (t.m.sv k).accepted = none) ∧
      t.m.fld Reg.LANE_FAULTS 7 0 = min (s.m.fld Reg.LANE_FAULTS 7 0 + 1) 0xFF ∧
      Raises s t [eventAt (s.at cyc) 0x3005 2 0xFF (1 :: leBytes 4 s.m.seq) 0] ∧
      SameRegsBut s t [Reg.LANE_FAULTS, Reg.LANE_L_IRQ_STAT 0, Reg.LANE_L_IRQ_STAT 1] ∧ SameMemory s t) ∧
  (∀ (cyc : Nat) (l : Lane) (s : State), CutoffOfFrames s → s.m.live l = true → s.m.admitted l = false → s.m.admitted l.other = true →
    s.m.lane.disputes = [] → (s.m.lanes.get l.other).writeList = [] → (∀ k ∈ s.m.ownSlots l.other, (s.m.sv k).holds l.other = true) →
    (∀ (k : Fin 16) (x : Frame), ((s.m.sv k).accepted = some (x, l.other) → (s.m.sv k).acceptedBad = false) ∧
      ((s.m.sv k).second = some (x, l.other) → (s.m.sv k).secondBad = false)) →
    ∃ t, exec (.sieveCutoff cyc) s = .next t ∧ t.m.lane.cut = true ∧ Quiet s t [] ∧
      ∀ (k : Fin 16) (x : Frame),
        ((s.m.sv k).accepted = some (x, l.other) → (t.m.sv k).accepted = some (x, l.other)) ∧
        (∀ y, (s.m.sv k).accepted = some (y, l) → (s.m.sv k).second = some (x, l.other) →
          (t.m.sv k).accepted = some (x, l.other)) ∧
        ((t.m.sv k).accepted ≠ some (x, l))) ∧
  (∀ (cyc : Nat) (l : Lane) (k : Nat) (f : Frame) (s : State), CutoffOfFrames s → s.m.admitted l = true → s.m.laneCode l.other = 2 →
    s.m.mapped = [k] → s.m.lane.slots.length = 16 → (s.m.sv k).accepted = some (f, l) → (s.m.sv k).acceptedBad = true →
    (s.m.sv k).second = none →
    (∀ j < 16, j ≠ k → (s.m.sv j).accepted = none ∧ (s.m.sv j).second = none) → s.roomy →
    ∃ t, exec (.sieveCutoff cyc) s = .next t ∧ (t.m.sv k).accepted = none ∧
      (t.m.sv k).sub = some (s.m.safeFrame k s.m.seq f.emfhi) ∧ SlotFault s t cyc 0x300C k [] ∧
      SameRegsBut s t [Reg.LANE_L_IRQ_STAT 0, Reg.LANE_L_IRQ_STAT 1] ∧ SameMemory s t) ∧
  (∀ (cyc : Nat) (k d : Nat) (s : State), s.m.lane.cut = false → s.m.tick.running = true → s.m.laneCode .a = 2 → s.m.laneCode .b = 2 →
    s.m.slotsOf .pump = [k] → s.m.pumpRuns k = some d → s.m.lane.disputed = [] → s.m.net.held = [] → s.m.lane.slots.length = 16 →
    s.m.act.drives.length = 6 → (∀ j < 16, (s.m.sv j).accepted = none ∧ (s.m.sv j).second = none) → (s.m.sv k).sub = none → k < 16 → d < 6 →
    ∃ t, exec (.sieveCutoff cyc) s = .next t ∧ (t.m.sv k).sub = some (s.m.governorFrame k s.m.seq d) ∧ (t.m.drv d).gov = true ∧
      ((s.m.drv d).gov = false → Raises s t [eventAt (s.at cyc) 0x2C09 0 k [] 0] ∧ t.m.bit Reg.ACT_IRQ_STAT 4 = true) ∧
      ((s.m.drv d).gov = true → Raises s t []) ∧ SameRegsBut s t [Reg.ACT_IRQ_STAT] ∧ SameMemory s t) ∧
  (∀ (cyc : Nat) (l : Lane) (s : State), CutoffOfFrames s → s.m.laneCode l = 5 → s.m.admitted l.other = true →
    (∀ k ∈ s.m.ownSlots l.other, (s.m.sv k).holds l.other = true) → (∀ k : Fin 16, SlotSettled s.m k) →
    ∃ t, exec (.sieveCutoff cyc) s = .next t ∧ t.m.lane.cut = true ∧ t.m.lane.slots = s.m.lane.slots ∧ Quiet s t [] ∧
      (t.m.lanes.get l).shadowEqual = (s.m.lanes.get l).shadowEqual + (s.m.shadowAgrees l).toNat ∧
      (t.m.lanes.get l).shadowBad = ((s.m.lanes.get l).shadowBad || !s.m.shadowAgrees l)) ∧
  (∀ (cyc : Nat) (s : State), s.m.lane.cut = true ∨ s.m.tick.running = false →
    ∃ t, exec (.sieveCutoff cyc) s = .next t ∧ t.m.lane = s.m.lane ∧ Quiet s t [])

/-- The faults of a lane in the second before. -/
def faultsBefore (s : State) (cyc : Nat) (l : Lane) : Nat :=
  ((s.m.lanes.get l).faults.filter fun t => decide ((s.at cyc).now < t + oneSecond)).length

/-- What the reset of a lane tells: the end of the injection that it runs, with cause 7 (R126). -/
def resetTells (s : State) (cyc : Nat) (l : Lane) : List Event :=
  if s.m.injState l = 0 then [] else [eventAt (s.at cyc) 0x1006 0 (s.m.injSlot l) [7] l.origin]

/-- The lane has entered RESET for its recovery, its fault the `n + 1`st of the last second (R322). -/
def Recovers (s t : State) (l : Lane) (n : Nat) : Prop :=
  t.m.laneCode l = 2 ∧ t.m.laneCode l.other = s.m.laneCode l.other ∧ (t.m.lanes.get l).step = .reset ∧
    (t.m.lanes.get l).f2 = false ∧ (t.m.lanes.get l).faultTick = s.m.seq ∧ t.m.fld (healthReg l) 23 16 = n + 1 ∧
    (s.m.live l.other = true → t.m.active = l.other ∧ t.m.service = l.other) ∧ SameMemory s t

/-- The lane waits in reset until the other one is LIVE (R324, R459). -/
def WaitsInReset (t : State) (l : Lane) : Prop :=
  t.m.laneCode l = 2 ∧ (t.m.lanes.get l).restart = none ∧ (t.m.lanes.get l).afterwards = true

/-- Recovery of one lane beside a LIVE one: it enters RESET, counted; on its fourth fault within a second it is isolated with
0x3008; it takes the healthy lane's banks after the code check, and its code where the check failed, and its next checkpoint, and goes to
REPLAY; two equal SHADOW ticks readmit it; 64 ticks without admission fail the recovery. A lane that faults in its restart waits in reset
for the other, or, with none, SAFE_HOLD is demanded with 0x3009; a LIVE lane that runs its slots alone restarts alone with 0x3005, cause 4,
its slots held. Short of its condition each changes nothing. Completes: LANE_RECOVERY_START, CODE_CHECK_COMPLETE,
RECOVERY_CHECKPOINT_LOAD, LANE_ADMISSION, RECOVERY_TIMEOUT. Data of event records beyond the spec's, and ORIGIN and KIND 10 where no rule
names them, are the model's choice (log entries 20 and 21). -/
def Obligations.LaneRecoveryStepByStep : Prop :=
  (∀ (cyc : Nat) (l : Lane) (s : State), (s.m.lanes.get l).f2 = true → s.m.laneCode l ≠ 0 → s.m.laneCode l ≠ 6 →
    s.m.live l.other = true → s.m.arr = 1 → (s.m.lanes.get l).restart = none → (s.m.lanes.get l.other).restart = none →
    (faultsBefore s cyc l < 3 →
      ∃ t, exec (.laneRecoveryStart cyc l) s = .next t ∧ Recovers s t l (faultsBefore s cyc l) ∧ Raises s t (resetTells s cyc l)) ∧
    (3 ≤ faultsBefore s cyc l →
      ∃ t, exec (.laneRecoveryStart cyc l) s = .next t ∧ t.m.laneCode l = 6 ∧ t.m.live l.other = true ∧
        Raises s t (resetTells s cyc l ++ [eventAt (s.at cyc) 0x3008 1 0xFF [] 0]) ∧
        t.m.bit Reg.SYS_MODE_STAT 11 = s.m.tick.running ∧ SameMemory s t)) ∧
  (∀ (cyc : Nat) (l : Lane) (s : State) (r : Restart), (s.m.lanes.get l).f2 = true → s.m.laneCode l ≠ 0 → s.m.laneCode l ≠ 6 →
    (s.m.lanes.get l).restart = some r → faultsBefore s cyc l < 3 →
    ∃ t, exec (.laneRecoveryStart cyc l) s = .next t ∧ WaitsInReset t l ∧
      Raises s t (resetTells s cyc l ++ (if (s.m.lanes.get l.other).restart = none ∧ s.m.live l.other = false then
        [eventAt (s.at cyc) 0x3009 4 0xFF [] 0] else [])) ∧
      ((s.m.lanes.get l.other).restart = none → s.m.live l.other = false → t.m.sys.f4 = some (s.m.sys.f4.getD 0x3009)) ∧
      SameMemory s t) ∧
  (∀ (cyc : Nat) (l : Lane) (s : State) (c : Checkpoint), (s.m.lanes.get l).f2 = true → s.m.live l = true →
    (s.m.lanes.get l).restart = none → s.m.arr ≠ 1 ∨ s.m.live l.other = false ∨ (s.m.lanes.get l.other).restart ≠ none →
    (s.m.lanes.get l).newest = some c → c.tick < s.m.seq →
    ∃ t, exec (.laneRecoveryStart cyc l) s = .next t ∧ t.m.laneCode l = 2 ∧
      (t.m.lanes.get l).restart = some ⟨s.m.seq, false, false, false, 0, 0, true, 0⟩ ∧ (t.m.lanes.get l).next = c.tick + 1 ∧
      ((s.m.lanes.get l.other).step ≠ .none → WaitsInReset t l.other) ∧
      (∀ k : Fin 16, s.m.runsSlot l k = true → s.m.hasSlot k = true → k < s.m.lane.slots.length →
        (t.m.sv k).held = !(s.m.sv k).forcedSafe ∧ (t.m.sv k).heldCount = 0) ∧
      t.m.fld Reg.LANE_FAULTS 31 24 = min (s.m.fld Reg.LANE_FAULTS 31 24 + 1) 0xFF ∧
      Raises s t ((if (s.m.lanes.get l.other).step = .none then [] else resetTells s cyc l.other) ++
        [eventAt (s.at cyc) 0x3005 2 0xFF (4 :: leBytes 4 s.m.seq) 0] ++ resetTells s cyc l) ∧ SameMemory s t) ∧
  (∀ (cyc : Nat) (l : Lane) (s : State), (s.m.lanes.get l).f2 = true → s.m.laneCode l ≠ 0 → s.m.laneCode l ≠ 6 →
    s.m.live l = false → (s.m.lanes.get l).restart = none →
    s.m.arr ≠ 1 ∨ s.m.live l.other = false ∨ (s.m.lanes.get l.other).restart ≠ none →
    ∃ t, exec (.laneRecoveryStart cyc l) s = .next t ∧ WaitsInReset t l ∧ Raises s t (resetTells s cyc l) ∧ SameMemory s t) ∧
  (∀ (cyc : Nat) (l : Lane) (s : State), (s.m.lanes.get l).f2 = false ∨ s.m.laneCode l = 0 ∨ s.m.laneCode l = 6 →
    ∃ t, exec (.laneRecoveryStart cyc l) s = .next t ∧ t.m.lanes = s.m.lanes ∧ Quiet s t []) ∧
  (∀ (cyc : Nat) (l : Lane) (s : State), (s.m.lanes.get l).step = .check →
    let a := sramBase l + (s.m.codeRegion l).1
    let good := crc32c (Memory.readN s.mem a (s.m.codeRegion l).2) = s.m.image.codecrc
    let mem := if good ∨ s.m.live l.other = false then s.mem
      else Memory.writeL s.mem a (Memory.readN s.mem (sramBase l.other + (s.m.codeRegion l).1) (s.m.codeRegion l).2)
    ((s.m.lanes.get l).restart = none →
      ∃ t, exec (.codeCheckComplete cyc l) s = .next t ∧ (t.m.lanes.get l).step = .waitCkpt ∧ (t.m.lanes.get l).waitFrom = s.m.seq ∧
        (t.m.law.get l).words = (s.m.law.get l.other).words ∧ t.mem = mem ∧ SameRegsBut s t [] ∧ Raises s t []) ∧
    ((s.m.lanes.get l).restart ≠ none →
      ∃ t, exec (.codeCheckComplete cyc l) s = .next t ∧ (t.m.lanes.get l).step = .none ∧ t.m.laneCode l = 4 ∧ t.m.law = s.m.law ∧
        t.mem = mem ∧ Raises s t [])) ∧
  (∀ (cyc : Nat) (l : Lane) (s : State), (s.m.lanes.get l).step ≠ .check →
    ∃ t, exec (.codeCheckComplete cyc l) s = .next t ∧ t.m.lanes = s.m.lanes ∧ Quiet s t []) ∧
  (∀ (cyc : Nat) (l : Lane) (s : State),
    (∀ c, (s.m.lanes.get l.other).newest = some c → (s.m.lanes.get l).step = .waitCkpt → (s.m.lanes.get l).waitFrom < c.tick + 2 →
      ∃ t, exec (.recoveryCheckpointLoad cyc l) s = .next t ∧ t.m.laneCode l = 4 ∧ (t.m.lanes.get l).step = .replay ∧
        (t.m.lanes.get l).next = c.tick + 1 ∧ (t.m.law.get l).slots = c.law ∧ t.m.foc.get l = c.foc ∧ t.m.mod.get l = c.mod ∧
        t.mem = s.m.restoreRegion s.mem c l ∧ Raises s t []) ∧
    ((s.m.lanes.get l).step ≠ .waitCkpt ∨ (∀ c, (s.m.lanes.get l.other).newest = some c → c.tick + 2 ≤ (s.m.lanes.get l).waitFrom) →
      ∃ t, exec (.recoveryCheckpointLoad cyc l) s = .next t ∧ t.m.lanes = s.m.lanes ∧ Quiet s t [])) ∧
  (∀ (cyc : Nat) (l : Lane) (s : State),
    ((s.m.lanes.get l).step = .shadow → 2 ≤ (s.m.lanes.get l).shadowEqual →
      ∃ t, exec (.laneAdmission cyc l) s = .next t ∧ t.m.live l = true ∧ (t.m.lanes.get l).step = .none ∧
        t.m.fld Reg.LANE_FAULTS 23 16 = min (s.m.fld Reg.LANE_FAULTS 23 16 + 1) 0xFF ∧
        Raises s t [eventAt (s.at cyc) 0x3003 0 0xFF (l.ix :: leBytes 4 ((s.at cyc).tickNow - (s.m.lanes.get l).faultTick)) 0] ∧
        SameRegsBut s t [Reg.LANE_STATUS, Reg.LANE_CKSTAT, Reg.SYS_MODE_STAT, healthReg l, Reg.LANE_FAULTS, Reg.LANE_L_IRQ_STAT 0,
          Reg.LANE_L_IRQ_STAT 1] ∧ SameMemory s t) ∧
    ((s.m.lanes.get l).step ≠ .shadow ∨ (s.m.lanes.get l).shadowEqual < 2 →
      ∃ t, exec (.laneAdmission cyc l) s = .next t ∧ t.m.lanes = s.m.lanes ∧ Quiet s t [])) ∧
  (∀ (cyc : Nat) (l : Lane) (s : State), (s.m.lanes.get l).step ≠ .none → (s.m.lanes.get l).restart = none →
    (s.m.lanes.get l).faultTick + 64 < (s.at cyc).tickNow →
    (faultsBefore s cyc l < 3 →
      ∃ t, exec (.recoveryTimeout cyc l) s = .next t ∧ Recovers s t l (faultsBefore s cyc l) ∧
        Raises s t (eventAt (s.at cyc) 0x3004 2 0xFF [] l.origin :: resetTells s cyc l)) ∧
    (3 ≤ faultsBefore s cyc l → s.m.live l.other = true → s.m.arr = 1 →
      ∃ t, exec (.recoveryTimeout cyc l) s = .next t ∧ t.m.laneCode l = 6 ∧ SameMemory s t ∧
        Raises s t (eventAt (s.at cyc) 0x3004 2 0xFF [] l.origin :: (resetTells s cyc l ++
          [eventAt (s.at cyc) 0x3008 1 0xFF [] 0])))) ∧
  (∀ (cyc : Nat) (l : Lane) (s : State), (s.m.lanes.get l).step = .none ∨ (s.m.lanes.get l).restart ≠ none ∨
      (s.at cyc).tickNow ≤ (s.m.lanes.get l).faultTick + 64 →
    ∃ t, exec (.recoveryTimeout cyc l) s = .next t ∧ t.m.lanes = s.m.lanes ∧ Quiet s t [])

/-- A restart has failed: SAFE_HOLD is demanded with 0x3009, and a lane of it stays in reset (R334). -/
def RestartFails (s t : State) : Prop :=
  Tells s t 0x3009 4 0xFF ∧ t.m.sys.f4 = some (s.m.sys.f4.getD 0x3009) ∧ t.m.lanes.a.restart = none ∧ t.m.lanes.b.restart = none ∧
    t.m.lane.pendRestart = none ∧
    ∀ l : Lane, (s.m.lanes.get l).restart ≠ none → t.m.laneCode l = 2 ∧ (t.m.lanes.get l).step = .none

/-- Both lanes have entered RESET for a restart with disputed tick `s.m.seq` (R325, R326). -/
def BothRestart (s t : State) : Prop :=
  t.m.laneCode .a = 2 ∧ t.m.laneCode .b = 2 ∧ t.m.lane.pendRestart = none ∧
    t.m.lanes.a.restart = some ⟨s.m.seq, true, false, false, 0, 0, true, 0⟩ ∧
    t.m.lanes.b.restart = some ⟨s.m.seq, true, false, false, 0, 0, true, 0⟩ ∧
    (∀ k : Fin 16, s.m.hasSlot k = true → k < s.m.lane.slots.length →
      (t.m.sv k).held = !(s.m.sv k).forcedSafe ∧ (t.m.sv k).heldCount = 0) ∧
    t.m.fld Reg.LANE_FAULTS 31 24 = min (s.m.fld Reg.LANE_FAULTS 31 24 + 1) 0xFF ∧ SameMemory s t

/-- A restart of both lanes: asked for by the loss of the link, begun at the end of a tick in which both lanes were at fault, with
both lanes in RESET and every slot held; a further cause while one runs, and a lane without a usable checkpoint, fail it with 0x3009; each
lane restores its newest checkpoint; a slot held too long is an F3, but for a pump in RUN. A lane that has a tick to replay, its
marker and its set takes it with its journalled entries, ahead of the live tick; without them its restart or recovery fails; its resync
tick follows the last: the lane is LIVE and its leg debts are cleared. With none due, none changes anything. Completes:
CROSS_LANE_LINK_LOSS, BOTH_LANE_RESTART, HOLD_LIMIT_REACHED, RESTORE_COMPLETE, REPLAY_TICK, RESYNC_TICK. Data of event records beyond the
spec's, and ORIGIN and KIND 10 where no rule names them, are the model's choice (log entries 20 and 21). -/
def Obligations.RestartsReplayAndResync : Prop :=
  (∀ (cyc : Nat) (s : State), s.m.live .a = true → s.m.live .b = true →
    (s.m.lanes.a.restart = none → s.m.lanes.b.restart = none → s.m.lane.pendRestart = none →
      ∃ t, exec (.crossLaneLinkLoss cyc) s = .next t ∧ t.m.lane.pendRestart = some 3 ∧ t.m.admitted .a = false ∧
        t.m.admitted .b = false ∧ Raises s t [eventAt (s.at cyc) 0x3005 2 0xFF (3 :: leBytes 4 s.m.seq) 0] ∧
        SameRegsBut s t [Reg.LANE_L_IRQ_STAT 0, Reg.LANE_L_IRQ_STAT 1] ∧ SameMemory s t) ∧
    (s.m.lanes.a.restart ≠ none ∨ s.m.lanes.b.restart ≠ none →
      ∃ t, exec (.crossLaneLinkLoss cyc) s = .next t ∧ RestartFails s t ∧ SameMemory s t) ∧
    (s.m.lanes.a.restart = none → s.m.lanes.b.restart = none → s.m.lane.pendRestart ≠ none →
      ∃ t, exec (.crossLaneLinkLoss cyc) s = .next t ∧ t.m.lane = s.m.lane ∧ t.m.lanes = s.m.lanes ∧ Quiet s t [])) ∧
  (∀ (cyc : Nat) (s : State), s.m.live .a = false ∨ s.m.live .b = false →
    ∃ t, exec (.crossLaneLinkLoss cyc) s = .next t ∧ t.m.lane = s.m.lane ∧ t.m.lanes = s.m.lanes ∧ Quiet s t []) ∧
  (∀ (cyc : Nat) (s : State) (x y : Checkpoint), s.m.live .a = true → s.m.live .b = true → s.m.lanes.a.restart = none →
    s.m.lanes.b.restart = none → s.m.chg.zRun = none → s.m.lanes.a.newest = some x → s.m.lanes.b.newest = some y →
    x.tick < s.m.seq → y.tick < s.m.seq →
    (s.m.bothFault = true → s.m.lane.pendRestart = none →
      ∃ t, exec (.bothLaneRestart cyc) s = .next t ∧ BothRestart s t ∧
        Raises s t (eventAt (s.at cyc) 0x3005 2 0xFF (2 :: leBytes 4 s.m.seq) 0 :: (resetTells s cyc .a ++ resetTells s cyc .b))) ∧
    (s.m.lane.pendRestart ≠ none →
      ∃ t, exec (.bothLaneRestart cyc) s = .next t ∧ BothRestart s t ∧
        Raises s t (resetTells s cyc .a ++ resetTells s cyc .b))) ∧
  (∀ (cyc : Nat) (s : State), s.m.bothFault = true ∨ (s.m.lane.pendRestart ≠ none ∧ s.m.live .a = true) →
    s.m.lanes.a.restart ≠ none ∨ s.m.lanes.b.restart ≠ none ∨ s.m.lanes.a.newest = none →
    ∃ t, exec (.bothLaneRestart cyc) s = .next t ∧ Tells s t 0x3009 4 0xFF ∧ t.m.sys.f4 = some (s.m.sys.f4.getD 0x3009) ∧
      t.m.lanes.a.restart = none ∧ t.m.lanes.b.restart = none ∧ SameMemory s t) ∧
  (∀ (cyc : Nat) (s : State), s.m.bothFault = false → s.m.lane.pendRestart = none →
    ∃ t, exec (.bothLaneRestart cyc) s = .next t ∧ t.m.lanes = s.m.lanes ∧ Quiet s t []) ∧
  (∀ (cyc : Nat) (k : Fin 16) (s : State),
    let lim := s.m.fld (Reg.LANE_HOLDLIM (k.val / 4)) (8 * (k.val % 4) + 7) (8 * (k.val % 4))
    (s.m.pumpRuns k = none → (s.m.sv k).forcedSafe = false → (s.m.sv k).limited = false → 0 < (s.m.sv k).heldCount → s.roomy →
      lim ≤ (s.m.sv k).heldCount →
      ∃ t, exec (.holdLimitReached cyc k) s = .next t ∧ SlotFault s t cyc 0x3007 k [] ∧
        t.m.lane.slots = upd s.m.lane.slots k (fun x => { x with limited := true }) ∧
        SameRegsBut s t [Reg.LANE_L_IRQ_STAT 0, Reg.LANE_L_IRQ_STAT 1] ∧ SameMemory s t) ∧
    (s.m.pumpRuns k ≠ none ∨ (s.m.sv k).forcedSafe = true ∨ (s.m.sv k).limited = true ∨ (s.m.sv k).heldCount = 0 ∨
        (s.m.sv k).heldCount < lim →
      ∃ t, exec (.holdLimitReached cyc k) s = .next t ∧ t.m.lane = s.m.lane ∧ Quiet s t [])) ∧
  (∀ (cyc : Nat) (l : Lane) (s : State) (r : Restart) (c : Checkpoint) (err : Bool), (s.m.lanes.get l).restart = some r →
    (s.m.lanes.get l).newest = some c → r.restored = false →
    ∃ t, exec (.restoreComplete cyc l err) s = .next t ∧ t.m.laneCode l = (if err then 3 else 4) ∧
      (t.m.lanes.get l).step = (if err then .check else .none) ∧
      (t.m.lanes.get l).restart = some { r with restored := true } ∧ (t.m.lanes.get l).next = c.tick + 1 ∧
      (t.m.law.get l).slots = c.law ∧ t.m.foc.get l = c.foc ∧ t.m.mod.get l = c.mod ∧
      t.mem = s.m.restoreRegion s.mem c l ∧ Raises s t []) ∧
  (∀ (cyc : Nat) (l : Lane) (s : State) (err : Bool), (s.m.lanes.get l).restart = none ∨ (s.m.lanes.get l).newest = none ∨
      (∃ r, (s.m.lanes.get l).restart = some r ∧ r.restored = true) →
    ∃ t, exec (.restoreComplete cyc l err) s = .next t ∧ t.m.lanes = s.m.lanes ∧ Quiet s t []) ∧
  (∀ (cyc : Nat) (wA wB : List (Nat × Word)) (last done : Nat) (l : Lane) (s : State) (n : Nat) (mark : JEntry),
    s.m.replayDue l = true → s.m.replayDue l.other = false → (s.m.lanes.get l).next = n →
    (s.m.lanes.get l).markerOf n = some mark → s.m.replayReady l n = true →
    ∃ t, exec (.replayTick cyc wA wB last done) s = .next t ∧ t.mem = s.mem ∧
      t.m = ((((((s.at cyc).replayLane l n mark (if l = .a then wA else wB)).replayMeasured l last done).replayed_ l (max last done + 32)).dropFrames l)).settle) ∧
  (∀ (cyc : Nat) (wA wB : List (Nat × Word)) (last done n : Nat) (s : State), s.m.replayDue .a = true → s.m.replayDue .b = true →
    s.m.lanes.a.next = n → s.m.lanes.b.next = n → s.m.replayReady .a n = true → s.m.replayReady .b n = true →
    ∃ t, exec (.replayTick cyc wA wB last done) s = .next t ∧ t.mem = s.mem ∧
      t.m = ((s.at cyc).replayAll [.a, .b] n (fun l => if l = .a then wA else wB) last done).settle) ∧
  (∀ (cyc : Nat) (wA wB : List (Nat × Word)) (last done : Nat) (l : Lane) (s : State),
    s.m.replayDue l = true → s.m.replayDue l.other = false → s.m.replayReady l (s.m.lanes.get l).next = false →
    ((s.m.lanes.get l).restart ≠ none →
      ∃ t, exec (.replayTick cyc wA wB last done) s = .next t ∧ RestartFails s t ∧ SameMemory s t) ∧
    ((s.m.lanes.get l).restart = none → faultsBefore s cyc l < 3 →
      ∃ t, exec (.replayTick cyc wA wB last done) s = .next t ∧ Recovers s t l (faultsBefore s cyc l) ∧
        Raises s t (eventAt (s.at cyc) 0x3004 2 0xFF [] l.origin :: resetTells s cyc l))) ∧
  (∀ (cyc : Nat) (wA wB : List (Nat × Word)) (last done : Nat) (s : State), s.m.replayDue .a = false → s.m.replayDue .b = false →
    ∃ t, exec (.replayTick cyc wA wB last done) s = .next t ∧ t.m.lanes = s.m.lanes ∧ Quiet s t []) ∧
  (∀ (cyc : Nat) (s : State), s.m.resyncDue .a = true ∨ s.m.resyncDue .b = true →
    (∀ l : Lane, s.m.resyncDue l = true → (s.m.lanes.get l).journal = []) →
    ∃ t, exec (.resyncTick cyc) s = .next t ∧
      (∀ (l : Lane) (r : Restart), s.m.resyncDue l = true → (s.m.lanes.get l).restart = some r →
        t.m.live l = true ∧
        (t.m.lanes.get l).restart = some { r with resync := 1, more := true, skip := s.m.seq + 1 - r.m } ∧
        (∀ k : Fin 16, ∀ x ∈ (t.m.modSlot l k).debts, x = 0) ∧
        t.m.bit (Reg.LANE_L_CTX l.ix) 1 = true ∧ t.m.fld (Reg.LANE_L_CTX l.ix) 15 8 = min (s.m.seq + 1 - r.m) 255) ∧
      (∀ l : Lane, s.m.resyncDue l = false → t.m.lanes.get l = s.m.lanes.get l ∧ t.m.laneCode l = s.m.laneCode l) ∧
      Quiet s t [Reg.LANE_STATUS, Reg.LANE_CKSTAT, Reg.SYS_MODE_STAT, Reg.LANE_HEALTHA, Reg.LANE_HEALTHB, Reg.LANE_L_CTX 0,
        Reg.LANE_L_CTX 1]) ∧
  (∀ (cyc : Nat) (s : State), s.m.resyncDue .a = false → s.m.resyncDue .b = false →
    ∃ t, exec (.resyncTick cyc) s = .next t ∧ t.m.lanes = s.m.lanes ∧ Quiet s t [])

/-- The hand-over to split arrangement ends after a checkpoint tick, with 0x300A and an entry of KIND 12; that to paired arrangement
begins a planned restart of both lanes from the merged checkpoint once both lanes' checkpoints of the tick before are usable; until then
nothing changes. KICK holds the watchdog off; its expiry, and a lane's own report, are faults of the lane; a lane that writes the other's
copy is told, and changes nothing, as does the safety processor. Completes: ARRANGEMENT_HANDOVER, WATCHDOG_KICK, LANE_SELF_FAULT,
WATCHDOG_EXPIRY. Data of event records beyond the spec's, and ORIGIN and KIND 10 where no rule names them, are the model's choice (log
entries 20 and 21). -/
def Obligations.HandoverAndWatchdog : Prop :=
  (∀ (cyc : Nat) (s : State) (a : Nat), s.m.lane.handover = some (2, a) → s.roomy →
    (a ≤ s.m.seq → s.m.live .a = true → s.m.live .b = true → (s.m.seq + 1) % max (s.m.fld Reg.LANE_CFG 4 0) 1 = 0 →
      ∃ t, exec (.arrangementHandover cyc) s = .next t ∧ t.m.arr = 2 ∧ t.m.lane.handover = none ∧
        Enters s t cyc ⟨12, 0, 0, 0, 2, []⟩ ∧ Raises s t [eventAt (s.at cyc) 0x300A 0 0xFF [] 0] ∧
        SameRegsBut s t [Reg.LANE_STATUS, Reg.LANE_CKSTAT, Reg.LANE_L_IRQ_STAT 0, Reg.LANE_L_IRQ_STAT 1] ∧ SameMemory s t) ∧
    (s.m.seq < a ∨ s.m.live .a = false ∨ s.m.live .b = false ∨ (s.m.seq + 1) % max (s.m.fld Reg.LANE_CFG 4 0) 1 ≠ 0 →
      ∃ t, exec (.arrangementHandover cyc) s = .next t ∧ t.m.arr = s.m.arr ∧ t.m.lane = s.m.lane ∧ Quiet s t [])) ∧
  (∀ (cyc : Nat) (s : State) (a : Nat) (x y : Checkpoint), s.m.lane.handover = some (1, a) → s.m.lanes.a.newest = some x →
    s.m.lanes.b.newest = some y → s.m.chg.zRun = none →
    (s.m.live .a = true → s.m.live .b = true → x.tick + 1 = s.m.seq → y.tick + 1 = s.m.seq → a ≤ x.tick →
        s.m.lanes.a.restart = none → s.m.lanes.b.restart = none →
      ∃ t, exec (.arrangementHandover cyc) s = .next t ∧ t.m.arr = 1 ∧ t.m.laneCode .a = 2 ∧ t.m.laneCode .b = 2 ∧
        t.m.lanes.a.newest = some (s.m.mergeCheckpoints x y) ∧ t.m.lanes.b.newest = some (s.m.mergeCheckpoints x y) ∧
        t.m.lanes.a.restart = some ⟨s.m.seq + 1, true, true, false, 0, 0, true, 0⟩ ∧
        t.m.lanes.b.restart = some ⟨s.m.seq + 1, true, true, false, 0, 0, true, 0⟩ ∧
        Raises s t (resetTells s cyc .a ++ resetTells s cyc .b) ∧ SameMemory s t) ∧
    (x.tick + 1 ≠ s.m.seq ∨ y.tick + 1 ≠ s.m.seq ∨ x.tick < a ∨ s.m.lanes.a.restart ≠ none ∨ s.m.lanes.b.restart ≠ none →
      ∃ t, exec (.arrangementHandover cyc) s = .next t ∧ t.m.arr = s.m.arr ∧ t.m.lane = s.m.lane ∧ Quiet s t [])) ∧
  (∀ (cyc : Nat) (s : State), s.m.lane.handover = none →
    ∃ t, exec (.arrangementHandover cyc) s = .next t ∧ t.m.arr = s.m.arr ∧ t.m.lane = s.m.lane ∧ Quiet s t []) ∧
  (∀ (cyc : Nat) (l : Lane) (s : State),
    (∃ t, exec (.watchdogKick cyc (.lane l) l) s = .next t ∧ (t.m.lanes.get l).kickAt = (s.at cyc).now ∧
      t.m.lanes.get l.other = s.m.lanes.get l.other ∧ Quiet s t []) ∧
    (∃ t, exec (.watchdogKick cyc (.lane l.other) l) s = .next t ∧ t.m.lanes = s.m.lanes ∧ SameRegsBut s t [] ∧ SameMemory s t ∧
      Raises s t [eventAt (s.at cyc) 0x0001 0 0xFF
        (accessRecord (physical (Reg.LANE_L_CMD l.ix)) (.lane l.other) true .word false 3) 0]) ∧
    (∃ t, exec (.watchdogKick cyc .safety l) s = .next t ∧ t.m.lanes = s.m.lanes ∧ Quiet s t []) ∧
    (∃ t, exec (.laneSelfFault cyc (.lane l) l) s = .next t ∧ t.m.admitted l = false ∧
      Raises s t [eventAt (s.at cyc) 0x3002 2 0xFF [10] l.origin] ∧
      SameRegsBut s t [healthReg l, Reg.LANE_L_IRQ_STAT 0, Reg.LANE_L_IRQ_STAT 1] ∧ SameMemory s t) ∧
    (∃ t, exec (.laneSelfFault cyc (.lane l.other) l) s = .next t ∧ t.m.lanes = s.m.lanes ∧ SameRegsBut s t [] ∧ SameMemory s t ∧
      Raises s t [eventAt (s.at cyc) 0x0001 0 0xFF
        (accessRecord (physical (Reg.LANE_L_CMD l.ix)) (.lane l.other) true .word false 3) 0]) ∧
    (∃ t, exec (.laneSelfFault cyc .safety l) s = .next t ∧ t.m.lanes = s.m.lanes ∧ Quiet s t [])) ∧
  (∀ (cyc : Nat) (l : Lane) (s : State),
    let due := s.m.live l = true ∧ s.m.fld (Reg.LANE_L_WDOG l.ix) 7 0 ≠ 0 ∧
      (s.m.lanes.get l).kickAt + 2000000 * s.m.fld (Reg.LANE_L_WDOG l.ix) 7 0 ≤ (s.at cyc).now
    (due → ∃ t, exec (.watchdogExpiry cyc l) s = .next t ∧ t.m.admitted l = false ∧ (t.m.lanes.get l).kickAt = (s.at cyc).now ∧
      Raises s t [eventAt (s.at cyc) 0x3002 2 0xFF [9] l.origin] ∧
      SameRegsBut s t [healthReg l, Reg.LANE_L_IRQ_STAT 0, Reg.LANE_L_IRQ_STAT 1] ∧ SameMemory s t) ∧
    (¬due → ∃ t, exec (.watchdogExpiry cyc l) s = .next t ∧ t.m.lanes = s.m.lanes ∧ Quiet s t []))

/-! ### The network -/

/-- The message `x` has gone to the queue of its port, or, with 32 waiting there, is told with 0x4C04 and gone; nothing else of
registers and memory changed but `l`. -/
def Queued (s t : State) (cyc : Nat) (x : TxMsg) (l : List Nat) : Prop :=
  if (s.m.port (s.m.flowPort x.flow)).queue.length < 32 then
    t.m.net.ports = upd s.m.net.ports (s.m.flowPort x.flow) (fun q => { q with queue := q.queue ++ [x] }) ∧ Quiet s t l
  else
    t.m.net.ports = s.m.net.ports ∧ Raises s t [eventAt (s.at cyc) 0x4C04 0 0xFF [] 0] ∧ SameRegsBut s t (Reg.NET_IRQ_STAT :: l) ∧
      SameMemory s t

/-- TXCMD in tick context takes a message of an enabled transmit flow from its slot as a copy on its way to the Sieve; outside it,
with four messages sent or another flow it is refused with 0x4C07, and a length above 64 with 0x0001. A copy of an admitted lane without
a partner lane goes to its port's queue, where a full queue discards it with 0x4C04; with both lanes LIVE in pair the first copy of a
flow goes out at once, or for a flow compared first waits, and the second is compared with it: equal, it goes out if the first has not
and is counted; different, it is a disagreement of the tick. The copy of a lane not admitted is dropped. A port sends the first of its
messages with the greatest PRIO, and keeps the stamp where the flow asks; a read of a transmit stamp takes the oldest, or reads 0.
Completes: OUTGOING_MESSAGE_SIEVE, TICK_MESSAGE_SEND, FRAME_TRANSMIT, TRANSMIT_STAMP_READ. Data of event records beyond the spec's, and
ORIGIN and KIND 10 where no rule names them, are the model's choice (log entries 20 and 21). -/
def Obligations.MessagesPassTheSieveAndTheirPort : Prop :=
  (∀ (cyc : Nat) (l : Lane) (s : State) (x : TxMsg), (s.m.net.copies.find? fun c => c.1 == l) = some (l, x) →
    (s.m.admitted l = false →
      ∃ t, exec (.outgoingMessageSieve cyc l) s = .next t ∧ t.m.net = { s.m.net with copies := s.m.net.copies.erase (l, x) } ∧
        t.m.lane = s.m.lane ∧ Quiet s t []) ∧
    (s.m.admitted l = true → s.m.pairJudged = false →
      ∃ t, exec (.outgoingMessageSieve cyc l) s = .next t ∧ t.m.net.copies = s.m.net.copies.erase (l, x) ∧
        t.m.net.held = s.m.net.held ∧ Queued s t cyc x []) ∧
    (∀ h, s.m.admitted l = true → s.m.pairJudged = true →
      (s.m.net.held.find? fun h => h.msg.sameKey x && h.lane != l) = some h →
      (h.msg.data = x.data →
        ∃ t, exec (.outgoingMessageSieve cyc l) s = .next t ∧ t.m.net.copies = s.m.net.copies.erase (l, x) ∧
          t.m.net.held = s.m.net.held.filter (fun y => !(y.msg.sameKey x)) ∧
          t.m.fld Reg.LANE_NETSTAT 31 16 = (s.m.fld Reg.LANE_NETSTAT 31 16 + 1) % 2 ^ 16 ∧
          (if h.sent then t.m.net.ports = s.m.net.ports ∧ Quiet s t [Reg.LANE_NETSTAT] else Queued s t cyc x [Reg.LANE_NETSTAT])) ∧
      (h.msg.data ≠ x.data →
        ∃ t, exec (.outgoingMessageSieve cyc l) s = .next t ∧ t.m.net.copies = s.m.net.copies.erase (l, x) ∧
          t.m.net.held = s.m.net.held ++ [⟨x, l, h.sent⟩] ∧ t.m.net.ports = s.m.net.ports ∧
          t.m.lane.disputes = s.m.lane.disputes ++ [.message] ∧ Quiet s t [])) ∧
    (s.m.admitted l = true → s.m.pairJudged = true → (s.m.net.held.find? fun h => h.msg.sameKey x && h.lane != l) = none →
      ∃ t, exec (.outgoingMessageSieve cyc l) s = .next t ∧ t.m.net.copies = s.m.net.copies.erase (l, x) ∧
        t.m.net.held = s.m.net.held ++ [⟨x, l, !(s.m.flow x.flow).bit 28⟩] ∧ t.m.lane.disputes = s.m.lane.disputes ∧
        (if (s.m.flow x.flow).bit 28 then t.m.net.ports = s.m.net.ports ∧ Quiet s t [] else Queued s t cyc x []))) ∧
  (∀ (cyc : Nat) (l : Lane) (s : State), (s.m.net.copies.find? fun c => c.1 == l) = none →
    ∃ t, exec (.outgoingMessageSieve cyc l) s = .next t ∧ t.m.net = s.m.net ∧ t.m.lane = s.m.lane ∧ Quiet s t []) ∧
  (∀ (cyc : Nat) (l : Lane) (v : Word) (s : State), v.bit 31 = true →
    let used := s.m.fld (Reg.NET_L_TXSTAT l.ix) 2 0
    (v.bits 6 0 ≤ 64 → s.m.inTick l = true → used < 4 → s.m.txFlow (v.bits 12 7) = true →
      ∃ t, exec (.tickMessageSend cyc (.lane l) l v) s = .next t ∧
        t.m.net.copies = s.m.net.copies ++ [(l, ⟨v.bits 12 7, s.m.txSlot l (v.bits 14 13) (v.bits 6 0), s.m.seq, used⟩)] ∧
        t.m.fld (Reg.NET_L_TXSTAT l.ix) 2 0 = used + 1 ∧ Quiet s t [Reg.NET_L_TXSTAT l.ix]) ∧
    (v.bits 6 0 ≤ 64 → s.m.inTick l = false ∨ 4 ≤ used ∨ s.m.txFlow (v.bits 12 7) = false →
      ∃ t, exec (.tickMessageSend cyc (.lane l) l v) s = .next t ∧ t.m.net = s.m.net ∧
        Raises s t [eventAt (s.at cyc) 0x4C07 0 0xFF [] l.origin] ∧ SameRegsBut s t [Reg.NET_IRQ_STAT] ∧ SameMemory s t) ∧
    (64 < v.bits 6 0 →
      ∃ t, exec (.tickMessageSend cyc (.lane l) l v) s = .next t ∧ t.m.net = s.m.net ∧ SameRegsBut s t [] ∧ SameMemory s t ∧
        Raises s t [eventAt (s.at cyc) 0x0001 0 0xFF
          (accessRecord (physical (Reg.NET_L_TXCMD l.ix)) (.lane l) true .word false 5) 0])) ∧
  (∀ (cyc : Nat) (l : Lane) (v : Word) (s : State),
    (v.bit 31 = false →
      ∃ t, exec (.tickMessageSend cyc (.lane l) l v) s = .next t ∧ t.m.net = s.m.net ∧ Quiet s t []) ∧
    (∃ t, exec (.tickMessageSend cyc (.lane l.other) l v) s = .next t ∧ t.m.net = s.m.net ∧ SameRegsBut s t [] ∧ SameMemory s t ∧
      Raises s t [eventAt (s.at cyc) 0x0001 0 0xFF
        (accessRecord (physical (Reg.NET_L_TXCMD l.ix)) (.lane l.other) true .word false 3) 0]) ∧
    (∃ t, exec (.tickMessageSend cyc .safety l v) s = .next t ∧ t.m.net = s.m.net ∧ Quiet s t [])) ∧
  (∀ (cyc : Nat) (p : Fin 7) (ago : Nat) (s : State),
    let on := s.m.portOn p = true ∧ (s.m.mode ≠ .sleep ∨ s.m.bit Reg.IMG_STATUS 27 = true)
    let next := bestMsg (fun x => (s.m.flow x.flow).bits 22 20) (s.m.port p).queue
    (∀ x, on → next = some x →
      ∃ t, exec (.frameTransmit cyc p ago) s = .next t ∧ (t.m.port p).queue = (s.m.port p).queue.erase x ∧
        t.m.net.flowCount = upd s.m.net.flowCount x.flow (fun _ => (nth s.m.net.flowCount x.flow + 1) % 2 ^ 16) ∧
        ((s.m.flow x.flow).bit 26 = false → (t.m.port p).txts = (s.m.port p).txts ∧ Quiet s t []) ∧
        ((s.m.flow x.flow).bit 26 = true → (s.m.port p).txts.length < 16 →
          (t.m.port p).txts = (s.m.port p).txts ++ [(x.flow, (nth s.m.net.flowCount x.flow + 1) % 2 ^ 16, (s.at cyc).now - ago)] ∧
          t.m.bit Reg.NET_IRQ_STAT 2 = true ∧ Quiet s t [Reg.NET_IRQ_STAT]) ∧
        ((s.m.flow x.flow).bit 26 = true → (s.m.port p).txts.length = 16 →
          (t.m.port p).txts = (s.m.port p).txts.drop 1 ++
            [(x.flow, (nth s.m.net.flowCount x.flow + 1) % 2 ^ 16, (s.at cyc).now - ago)] ∧ Quiet s t [Reg.NET_IRQ_STAT])) ∧
    (¬on ∨ next = none → ∃ t, exec (.frameTransmit cyc p ago) s = .next t ∧ t.m.net = s.m.net ∧ Quiet s t [])) ∧
  (∀ (cyc : Nat) (who : Writer) (p : Fin 7) (s : State),
    (∀ (f n ts : Nat) (rest : List (Nat × Nat × Nat)), (s.m.port p).txts = (f, n, ts) :: rest →
      ∃ t, exec (.transmitStampRead cyc who p) s = .next t ∧ t.m.reply = .data (BitVec.ofNat 32 (2 ^ 31 + f * 2 ^ 16 + n)) ∧
        (t.m.port p).txts = rest ∧ t.m.latched who.ix (Reg.NET_P_TXTS_INFO p) (Reg.NET_P_TXTS_LO p) = BitVec.ofNat 32 ts ∧
        t.m.latched who.ix (Reg.NET_P_TXTS_INFO p) (Reg.NET_P_TXTS_HI p) = BitVec.ofNat 32 (ts / 2 ^ 32) ∧ Quiet s t []) ∧
    ((s.m.port p).txts = [] →
      ∃ t, exec (.transmitStampRead cyc who p) s = .next t ∧ t.m.reply = .data 0#32 ∧ (t.m.port p).txts = [] ∧ Quiet s t []))

/-- The records that a received frame offers to the rings of the admitted lanes that take its flow's stream (R388, R389). -/
def frameOffers (s : State) (f : Nat) (rec_ : List Nat) : List Offer :=
  (([Lane.a, .b].filter fun l => s.m.admitted l && s.m.fld (Reg.DMA_R_CFG l.ix ((s.m.flow f).bits 19 16)) 27 25 == 2).map
    fun l => ⟨l, (s.m.flow f).bits 19 16, 2, rec_⟩)

/-- A received frame goes where its flow says: to the safety processor, into accession with KIND 5 and its arrival stamp, and to the
rings of the admitted lanes; a frame too long for accession is told with 0x4C03, and it and one that no flow takes are counted and
discarded; a port that is off or asleep, or an address it does not accept, takes nothing. A link that comes up or goes down, a CAN port
that turns passive or bus-off, and a PLCA beacon that stays away show in the port's status and are told, for a port that is on.
Completes: FRAME_RECEIVE, LINK_STATE_CHANGE, CAN_ERROR_STATE_CHANGE, PLCA_BEACON_LOST. Data of event records beyond the spec's, and
ORIGIN and KIND 10 where no rule names them, are the model's choice (log entries 20 and 21). -/
def Obligations.ReceivedFramesAndPortStates : Prop :=
  (∀ (cyc : Nat) (p : Fin 7) (ago etype : Nat) (vid : Option Nat) (ide : Bool) (id : Nat) (fdf brs esi : Bool) (pay : List Nat)
     (s : State), s.m.portOn p = true → s.m.mode ≠ .sleep → s.m.macAccepts p pay = true →
     ((∀ f < 64, s.m.flowMatches p f ⟨etype, vid, ide, id⟩ = false) →
       ∃ t, exec (.frameReceive cyc p ago etype vid ide id fdf brs esi pay) s = .next t ∧ t.m.offers = s.m.offers ∧
         t.m.lane = s.m.lane ∧ t.m.net = s.m.net ∧
         t.m.fld (Reg.NET_P_CNT p) 15 0 = min (s.m.fld (Reg.NET_P_CNT p) 15 0 + 1) 0xFFFF ∧ Quiet s t [Reg.NET_P_CNT p]) ∧
     (∀ f, (List.range 64).find? (fun x => s.m.flowMatches p x ⟨etype, vid, ide, id⟩) = some f →
       let offered := frameOffers s f (rxRecord ((s.at cyc).now - ago) p f ⟨etype, vid, ide, id⟩ fdf brs esi pay)
       ((s.m.flow f).bit 27 = true →
         ∃ t, exec (.frameReceive cyc p ago etype vid ide id fdf brs esi pay) s = .next t ∧
           t.m.net.safetyInbox = s.m.net.safetyInbox ++ [(f, pay)] ∧ t.m.lane = s.m.lane ∧ t.m.offers = s.m.offers ∧
           t.m.fld (Reg.NET_P_CNT p) 31 16 = (s.m.fld (Reg.NET_P_CNT p) 31 16 + 1) % 2 ^ 16 ∧ Quiet s t [Reg.NET_P_CNT p]) ∧
       ((s.m.flow f).bit 27 = false → (s.m.flow f).bit 29 = true → pay.length ≤ 64 → s.roomy →
         ∃ t, exec (.frameReceive cyc p ago etype vid ide id fdf brs esi pay) s = .next t ∧
           t.m.lane.waiting = [{ (s.at cyc).entryOf (s.at cyc).accTickNow ⟨5, f, 0, 0, pay.length, pay⟩ with
             time := (s.at cyc).now - ago }] ∧ t.m.offers = s.m.offers ++ offered ∧
           t.m.fld (Reg.NET_P_CNT p) 31 16 = (s.m.fld (Reg.NET_P_CNT p) 31 16 + 1) % 2 ^ 16 ∧ Quiet s t [Reg.NET_P_CNT p]) ∧
       ((s.m.flow f).bit 27 = false → (s.m.flow f).bit 29 = true → 64 < pay.length →
         ∃ t, exec (.frameReceive cyc p ago etype vid ide id fdf brs esi pay) s = .next t ∧ t.m.lane = s.m.lane ∧
           t.m.offers = s.m.offers ∧ t.m.net = s.m.net ∧
           t.m.fld (Reg.NET_P_CNT p) 15 0 = min (s.m.fld (Reg.NET_P_CNT p) 15 0 + 1) 0xFFFF ∧
           Raises s t [eventAt (s.at cyc) 0x4C03 0 0xFF [] 0] ∧ SameRegsBut s t [Reg.NET_P_CNT p, Reg.NET_IRQ_STAT] ∧
           SameMemory s t) ∧
       ((s.m.flow f).bit 27 = false → (s.m.flow f).bit 29 = false →
         ∃ t, exec (.frameReceive cyc p ago etype vid ide id fdf brs esi pay) s = .next t ∧ t.m.lane = s.m.lane ∧
           t.m.offers = s.m.offers ++ offered ∧ t.m.net = s.m.net ∧
           t.m.fld (Reg.NET_P_CNT p) 31 16 = (s.m.fld (Reg.NET_P_CNT p) 31 16 + 1) % 2 ^ 16 ∧ Quiet s t [Reg.NET_P_CNT p]))) ∧
  (∀ (cyc : Nat) (p : Fin 7) (ago etype : Nat) (vid : Option Nat) (ide : Bool) (id : Nat) (fdf brs esi : Bool) (pay : List Nat)
     (s : State), s.m.portOn p = false ∨ s.m.mode = .sleep ∨ s.m.macAccepts p pay = false →
     ∃ t, exec (.frameReceive cyc p ago etype vid ide id fdf brs esi pay) s = .next t ∧ t.m.offers = s.m.offers ∧
       t.m.lane = s.m.lane ∧ t.m.net = s.m.net ∧ Quiet s t []) ∧
  (∀ (cyc : Nat) (p : Fin 3) (up : Bool) (s : State),
    (s.m.portOn p = true →
      ∃ t, exec (.linkStateChange cyc p up) s = .next t ∧ t.m.bit Reg.NET_STATUS (8 + p) = up ∧
        t.m.fld (Reg.NET_P_STAT p) 1 0 = (if up then 0 else 3) ∧
        Raises s t [if up then eventAt (s.at cyc) 0x4C02 0 0xFF [] 0 else eventAt (s.at cyc) 0x4C01 1 0xFF [p.val] 0] ∧
        t.m.bit Reg.NET_IRQ_STAT 0 = true ∧ SameRegsBut s t [Reg.NET_STATUS, Reg.NET_P_STAT p, Reg.NET_IRQ_STAT] ∧
        SameMemory s t) ∧
    (s.m.portOn p = false → ∃ t, exec (.linkStateChange cyc p up) s = .next t ∧ Quiet s t [])) ∧
  (∀ (cyc : Nat) (c : Fin 4) (st : Fin 3) (tec rec_ : BitVec 8) (s : State),
    (s.m.portOn (3 + c.val) = true →
      ∃ t, exec (.canErrorStateChange cyc c st tec rec_) s = .next t ∧ t.m.fld (Reg.NET_P_STAT (3 + c.val)) 1 0 = st ∧
        t.m.fld (Reg.NET_P_STAT (3 + c.val)) 31 24 = tec.toNat ∧ t.m.fld (Reg.NET_P_STAT (3 + c.val)) 23 16 = rec_.toNat ∧
        t.m.bit Reg.NET_STATUS (8 + (3 + c.val)) = (st == 0) ∧
        Raises s t (if st = 1 then [eventAt (s.at cyc) 0x4C05 1 0xFF [] 0]
          else if st = 2 then [eventAt (s.at cyc) 0x4C06 1 0xFF [] 0] else []) ∧
        SameRegsBut s t [Reg.NET_STATUS, Reg.NET_P_STAT (3 + c.val), Reg.NET_IRQ_STAT] ∧ SameMemory s t) ∧
    (s.m.portOn (3 + c.val) = false → ∃ t, exec (.canErrorStateChange cyc c st tec rec_) s = .next t ∧ Quiet s t [])) ∧
  (∀ (cyc : Nat) (s : State),
    (s.m.portOn 2 = true → s.m.bit (Reg.NET_P_CFG 2) 27 = true →
      ∃ t, exec (.plcaBeaconLost cyc) s = .next t ∧ Raises s t [eventAt (s.at cyc) 0x4C08 1 0xFF [] 0] ∧
        t.m.bit Reg.NET_IRQ_STAT 5 = true ∧ SameRegsBut s t [Reg.NET_IRQ_STAT] ∧ SameMemory s t) ∧
    (s.m.portOn 2 = false ∨ s.m.bit (Reg.NET_P_CFG 2) 27 = false →
      ∃ t, exec (.plcaBeaconLost cyc) s = .next t ∧ Quiet s t []))

/-! ### Memory, DMA and check values -/

/-- What an error leaves in the error registers of R371. -/
def eccShows (t : State) (addr : Nat) (unc : Bool) (req sym : Nat) : Prop :=
  t.m.rd Reg.DMA_ECCADDR_LO = BitVec.ofNat 32 addr ∧ t.m.fld Reg.DMA_ECCADDR_HI 7 0 = addr / 2 ^ 32 % 256 ∧
    t.m.bit Reg.DMA_ECCINFO 31 = unc ∧ t.m.fld Reg.DMA_ECCINFO 30 28 = req % 8 ∧ t.m.fld Reg.DMA_ECCINFO 27 22 = sym % 64

/-- The registers of an error. -/
def eccRegs : List Nat :=
  [Reg.DMA_ECCSTAT, Reg.DMA_ECCADDR_LO, Reg.DMA_ECCADDR_HI, Reg.DMA_ECCINFO, Reg.DMA_L_IRQ_STAT 0, Reg.DMA_L_IRQ_STAT 1]

/-- What an uncorrectable DRAM error at an address tells: a fault of the lane whose part holds it, or 0x3403 for the shared part; and the
failure of the memory when it is the eighth codeword within a millisecond (R349). -/
def uncTells (s : State) (cyc addr : Nat) : List Event :=
  (match s.m.partOf addr with
    | some l => [eventAt (s.at cyc) 0x3402 2 0xFF (l.ix :: leBytes 5 addr) l.origin]
    | none => [eventAt (s.at cyc) 0x3403 1 0xFF [] 0]) ++
  (if (uncAdd (s.at cyc).now (addr / 32) s.m.dma.unc).length = 8 then [eventAt (s.at cyc) 0x340B 4 0xFF [] 0] else [])

/-- A corrected error counts, shows and tells at most once a millisecond; an uncorrectable one poisons its codeword and is laid to
the lane whose part holds it, or to none; lane SRAM errors go to their lane; the patrol scrub goes line by line, reports the poison that it
meets, tells the end of a pass, and rests in SLEEP and without power; eight uncorrectable codewords within a millisecond, or a refresh
later than the interval that the memory dies' band calls for, are a failure of the memory. Completes: DRAM_ERROR, LANE_SRAM_ERROR,
SCRUB_LINE, REFRESH_FAILURE. Data of event records beyond the spec's, and ORIGIN and KIND 10 where no rule names them, are the model's
choice (log entries 20 and 21). -/
def Obligations.MemoryErrorsAndScrub : Prop :=
  (∀ (cyc req sym : Nat) (addr : BitVec 32) (s : State),
    ∃ t, exec (.dramError cyc req addr (some sym)) s = .next t ∧ eccShows t addr.toNat false req sym ∧
      t.m.fld Reg.DMA_ECCSTAT 15 0 = min (s.m.fld Reg.DMA_ECCSTAT 15 0 + 1) 0xFFFF ∧
      (pastMs (s.at cyc).now s.m.dma.corrAt = true →
        t.m.dma.corrAt = some (s.at cyc).now ∧ Raises s t [eventAt (s.at cyc) 0x3401 0 0xFF [] 0]) ∧
      (pastMs (s.at cyc).now s.m.dma.corrAt = false → t.m.dma.corrAt = s.m.dma.corrAt ∧ Raises s t []) ∧
      SameRegsBut s t eccRegs ∧ SameMemory s t) ∧
  (∀ (cyc req : Nat) (addr : BitVec 32) (s : State),
    ∃ t, exec (.dramError cyc req addr none) s = .next t ∧ eccShows t addr.toNat true req 0 ∧
      t.m.dma.poison = (if s.m.dma.poison.contains (addr.toNat / 32) then s.m.dma.poison else addr.toNat / 32 :: s.m.dma.poison) ∧
      t.m.fld Reg.DMA_ECCSTAT 31 16 = min (s.m.fld Reg.DMA_ECCSTAT 31 16 + 1) 0xFFFF ∧
      (∀ l, s.m.partOf addr.toNat = some l → t.m.admitted l = false ∧ t.m.bit (healthReg l) 5 = true) ∧
      Raises s t (uncTells s cyc addr.toNat) ∧
      SameRegsBut s t (eccRegs ++ (match s.m.partOf addr.toNat with
        | some l => [healthReg l]
        | none => []) ++
        if (uncAdd (s.at cyc).now (addr.toNat / 32) s.m.dma.unc).length = 8 then [Reg.PWR_STATUS] else []) ∧ SameMemory s t) ∧
  (∀ (cyc : Nat) (l : Lane) (addr : BitVec 21) (s : State),
    ∃ t, exec (.laneSramError cyc l addr true) s = .next t ∧ eccShows t (sramBase l + addr.toNat) false 6 0 ∧
      t.m.fld Reg.DMA_ECCSTAT 15 0 = min (s.m.fld Reg.DMA_ECCSTAT 15 0 + 1) 0xFFFF ∧
      (pastMs (s.at cyc).now s.m.dma.sramAt = true → Raises s t [eventAt (s.at cyc) 0x3404 0 0xFF [] 0]) ∧
      (pastMs (s.at cyc).now s.m.dma.sramAt = false → Raises s t []) ∧ SameRegsBut s t eccRegs ∧ SameMemory s t) ∧
  (∀ (cyc : Nat) (l : Lane) (addr : BitVec 21) (s : State),
    ∃ t, exec (.laneSramError cyc l addr false) s = .next t ∧ eccShows t (sramBase l + addr.toNat) true 6 0 ∧
      t.m.fld Reg.DMA_ECCSTAT 31 16 = min (s.m.fld Reg.DMA_ECCSTAT 31 16 + 1) 0xFFFF ∧ t.m.admitted l = false ∧
      t.m.bit (healthReg l) 5 = true ∧ Raises s t [eventAt (s.at cyc) 0x3405 2 0xFF [] l.origin] ∧
      SameRegsBut s t (healthReg l :: eccRegs) ∧ SameMemory s t) ∧
  (∀ (cyc : Nat) (s : State), s.m.dmaRuns = true →
    let line := s.m.fld Reg.DMA_SCRUB 25 0
    (s.m.poisoned (64 * line) 64 = false → line < 2 ^ 26 - 1 →
      ∃ t, exec (.scrubLine cyc) s = .next t ∧ t.m.fld Reg.DMA_SCRUB 25 0 = line + 1 ∧
        t.m.fld Reg.DMA_SCRUB 31 26 = s.m.fld Reg.DMA_SCRUB 31 26 ∧ Quiet s t [Reg.DMA_SCRUB]) ∧
    (s.m.poisoned (64 * line) 64 = false → line = 2 ^ 26 - 1 →
      ∃ t, exec (.scrubLine cyc) s = .next t ∧ t.m.fld Reg.DMA_SCRUB 25 0 = 0 ∧
        t.m.fld Reg.DMA_SCRUB 31 26 = min (s.m.fld Reg.DMA_SCRUB 31 26 + 1) 63 ∧
        t.m.bit (Reg.DMA_L_IRQ_STAT 0) 4 = true ∧ t.m.bit (Reg.DMA_L_IRQ_STAT 1) 4 = true ∧
        Raises s t [eventAt (s.at cyc) 0x340C 0 0xFF [] 0] ∧
        SameRegsBut s t [Reg.DMA_SCRUB, Reg.DMA_L_IRQ_STAT 0, Reg.DMA_L_IRQ_STAT 1] ∧ SameMemory s t) ∧
    (s.m.dma.poison.contains (2 * line) = true → s.m.dma.poison.contains (2 * line + 1) = false → line < 2 ^ 26 - 1 →
      ∃ t, exec (.scrubLine cyc) s = .next t ∧ t.m.fld Reg.DMA_SCRUB 25 0 = line + 1 ∧ eccShows t (64 * line) true 0 0 ∧
        Raises s t (uncTells s cyc (64 * line)) ∧ SameMemory s t)) ∧
  (∀ (cyc : Nat) (s : State), s.m.dmaRuns = false → ∃ t, exec (.scrubLine cyc) s = .next t ∧ t.m.dma = s.m.dma ∧ Quiet s t []) ∧
  (∀ (cyc ns : Nat) (s : State),
    (s.m.refreshNs < ns → ∃ t, exec (.refreshFailure cyc ns) s = .next t ∧ t.m.sys.f4 = some (s.m.sys.f4.getD 0x340B) ∧
      Raises s t [eventAt (s.at cyc) 0x340B 4 0xFF [] 0] ∧ SameRegsBut s t [Reg.PWR_STATUS] ∧ SameMemory s t) ∧
    (ns ≤ s.m.refreshNs → ∃ t, exec (.refreshFailure cyc ns) s = .next t ∧ t.m.sys = s.m.sys ∧ Quiet s t []))

/-- The registers of one ring that its engine writes. -/
def ringRegs (l : Lane) (r : Nat) : List Nat :=
  [Reg.DMA_R_STAT l.ix r, Reg.DMA_R_HEAD l.ix r, Reg.DMA_R_IRQ l.ix r, Reg.DMA_L_STATUS l.ix, Reg.DMA_L_FSTAT l.ix]

/-- The bytes of a FILL from offset `off` of its destination on (R355). -/
def fillBytes (d : DmaDesc) (off n : Nat) : List Nat := (List.range n).map fun i => d.param / 2 ^ (8 * ((off + i) % 4)) % 256

/-- The descriptors that a running ring fetches once TAIL is `tail`, from the memory of `s` (R355). -/
def posted (s : State) (l : Lane) (r tail : Nat) : List DmaDesc :=
  let n := s.m.ringSize l r
  let start := s.m.fld (Reg.DMA_R_HEAD l.ix r) 11 0 + (s.m.ring l r).fetched.length
  (List.range ((tail + n - start % n) % n)).map fun i => s.m.readDesc s.mem l r ((s.m.ring l r).nextSeq + i) ((start + i) % n)

/-- With TAIL at `tail` nothing on the ring follows of itself: no FENCE waits at the head, and the next descriptor is neither a FENCE
nor in error. -/
abbrev NothingFollows (s : State) (l : Lane) (r tail : Nat) : Prop :=
  (∀ a ∈ (s.m.ring l r).active.head?, a.desc.op ≠ 4) ∧
    ∀ d ∈ ((s.m.ring l r).fetched ++ posted s l r tail).head?, d.bad = false ∧ d.op ≠ 4

/-- The ring after it has fetched what is posted. -/
def fetchedRing (s : State) (l : Lane) (r tail : Nat) (g : DmaRing) : DmaRing :=
  { g with fetched := g.fetched ++ posted s l r tail, nextSeq := g.nextSeq + (posted s l r tail).length }

/-- A command of a ring or unit through the register `a` of the lane's copy, written by the other lane or the safety processor: ignored,
the lane's told with cause 3 (R370). -/
def NotTheOwner (s : State) (cyc : Nat) (l : Lane) (a : Nat) (byOther bySafety : Host.Outcome State Fault Refusal) : Prop :=
  (∃ t, byOther = .next t ∧ t.m.dma = s.m.dma ∧ SameRegsBut s t [] ∧ SameMemory s t ∧
    Raises s t [eventAt (s.at cyc) 0x0001 0 0xFF (accessRecord (physical a) (.lane l.other) true .word false 3) 0]) ∧
  (∃ t, bySafety = .next t ∧ t.m.dma = s.m.dma ∧ Quiet s t [])

/-- The commands of a ring where it is not in the state that they need are ignored with event 0x340A; where it is, RESUME issues
what is parked and drops the page's cached translations, ABORT halts the ring and ends its descriptors as ABORTED once nothing of theirs is
outstanding, and GO lets it run and fetch. A record offered to a running ring with a descriptor for it begins that descriptor, cut to its
length, and any other is dropped and counted, told once in a run; those of the LAW capture count in its status, those of a network port in
its own. An invalidation removes the cached translations that it names. Another writer's commands are ignored. Completes: RING_RESUME,
RING_ABORT, RING_GO, STREAM_RECORD, IOTLB_INVALIDATE. Data of event records beyond the spec's, and ORIGIN and KIND 10 where no rule names
them, are the model's choice (log entries 20 and 21). -/
def Obligations.RingCommandsStreamsAndInvalidation : Prop :=
  (∀ (cyc : Nat) (l : Lane) (r : Fin 16) (s : State),
    (s.m.ringState l r ≠ 2 → ∃ t, exec (.ringResume cyc (.lane l) l r) s = .next t ∧ t.m.dma = s.m.dma ∧
      Raises s t [eventAt (s.at cyc) 0x340A 0 0xFF [] l.origin] ∧ SameRegsBut s t [] ∧ SameMemory s t) ∧
    (s.m.ringState l r = 0 → ∃ t, exec (.ringAbort cyc (.lane l) l r) s = .next t ∧ t.m.dma = s.m.dma ∧
      Raises s t [eventAt (s.at cyc) 0x340A 0 0xFF [] l.origin] ∧ SameRegsBut s t [] ∧ SameMemory s t) ∧
    (s.m.ringState l r ≠ 3 → ∃ t, exec (.ringGo cyc (.lane l) l r) s = .next t ∧ t.m.dma = s.m.dma ∧
      Raises s t [eventAt (s.at cyc) 0x340A 0 0xFF [] l.origin] ∧ SameRegsBut s t [] ∧ SameMemory s t) ∧
    NotTheOwner s cyc l (Reg.DMA_R_CTRL l.ix r) (exec (.ringResume cyc (.lane l.other) l r) s) (exec (.ringResume cyc .safety l r) s) ∧
    NotTheOwner s cyc l (Reg.DMA_R_CTRL l.ix r) (exec (.ringAbort cyc (.lane l.other) l r) s) (exec (.ringAbort cyc .safety l r) s) ∧
    NotTheOwner s cyc l (Reg.DMA_R_CTRL l.ix r) (exec (.ringGo cyc (.lane l.other) l r) s) (exec (.ringGo cyc .safety l r) s)) ∧
  (∀ (cyc : Nat) (l : Lane) (r : Fin 16) (s : State) (a : DmaActive) (x : DmaTxn) (c tail : Nat), s.m.ringState l r = 2 →
    (s.m.dma.lanes.get l).rings[r.val]? = some (s.m.ring l r) → (s.m.ring l r).active = [a] → (s.m.ring l r).parked = [x] →
    x.seq = a.desc.seq → a.desc.op ≠ 4 → c = s.m.fld (Reg.DMA_R_CFG l.ix r) 19 18 → tail = s.m.fld (Reg.DMA_R_TAIL l.ix r) 11 0 →
    (s.m.rd (Reg.DMA_L_CTX_HI l.ix c)).bits 31 28 ≠ 8 → NothingFollows s l r tail →
    let srcs := if a.desc.op = 0 ∨ a.desc.op = 3 then pageParts (a.desc.src + x.off) x.size else []
    let dsts := if a.desc.op = 3 then [] else pageParts (a.desc.dst + x.off + x.written) (x.size - x.written)
    (∀ p ∈ srcs, s.m.dmaReach l false p.1 = true) → (∀ p ∈ dsts, s.m.dmaReach l true p.1 = true) →
    ∃ t, exec (.ringResume cyc (.lane l) l r) s = .next t ∧ t.m.ringState l r = 1 ∧
      t.m.ring l r = fetchedRing s l r tail { s.m.ring l r with
        parked := [], out := (s.m.ring l r).out ++ [{ x with reads := srcs, writes := dsts }] } ∧
      (t.m.dma.lanes.get l).iotlb =
        (s.m.dma.lanes.get l).iotlb.filter (fun e => !e.covers c ((s.m.ring l r).faultVa / 4096 % 2 ^ 27)) ∧
      Quiet s t (ringRegs l r)) ∧
  (∀ (cyc : Nat) (l : Lane) (r : Fin 16) (s : State), s.m.ringState l r ≠ 0 →
    (s.m.dma.lanes.get l).rings[r.val]? = some (s.m.ring l r) →
    ((s.m.ring l r).active = [] →
      ∃ t, exec (.ringAbort cyc (.lane l) l r) s = .next t ∧ t.m.ringState l r = 3 ∧
        t.m.ring l r = { s.m.ring l r with parked := [] } ∧ t.m.bit (Reg.DMA_R_IRQ l.ix r) 2 = true ∧
        t.m.fld (Reg.DMA_R_HEAD l.ix r) 11 0 = s.m.fld (Reg.DMA_R_HEAD l.ix r) 11 0 ∧
        Raises s t [eventAt (s.at cyc) 0x340A 0 0xFF [] l.origin] ∧
        SameRegsBut s t (ringRegs l r) ∧ SameMemory s t) ∧
    (∀ a : DmaActive, (s.m.ring l r).active = [a] → (s.m.ring l r).out.any (fun t => t.seq == a.desc.seq) = true →
      ∃ t b, exec (.ringAbort cyc (.lane l) l r) s = .next t ∧ t.m.ringState l r = 3 ∧ b.desc = a.desc ∧ b.status = 2 ∧
        t.m.ring l r = { s.m.ring l r with parked := [], active := [b] } ∧
        Raises s t [eventAt (s.at cyc) 0x340A 0 0xFF [] l.origin] ∧ SameRegsBut s t (ringRegs l r) ∧ SameMemory s t) ∧
    (∀ a : DmaActive, (s.m.ring l r).active = [a] → (s.m.ring l r).out.any (fun t => t.seq == a.desc.seq) = false →
      s.m.bit (Reg.DMA_R_CFG l.ix r) 23 = false →
      ∃ t rec_, exec (.ringAbort cyc (.lane l) l r) s = .next t ∧ t.m.ringState l r = 3 ∧ rec_[20]? = some 2 ∧
        t.m.ring l r = { s.m.ring l r with
          parked := [], active := [], ready := (s.m.ring l r).ready ++ [(a.desc.seq, rec_, a.desc.flags % 2 == 1)] } ∧
        Raises s t [eventAt (s.at cyc) 0x340A 0 0xFF [] l.origin] ∧ SameRegsBut s t (ringRegs l r) ∧ SameMemory s t)) ∧
  (∀ (cyc : Nat) (l : Lane) (r : Fin 16) (s : State), s.m.ringState l r = 3 →
    (s.m.dma.lanes.get l).rings[r.val]? = some (s.m.ring l r) →
    NothingFollows s l r (s.m.fld (Reg.DMA_R_TAIL l.ix r) 11 0) →
    ∃ t, exec (.ringGo cyc (.lane l) l r) s = .next t ∧ t.m.ringState l r = 1 ∧
      t.m.ring l r = fetchedRing s l r (s.m.fld (Reg.DMA_R_TAIL l.ix r) 11 0) (s.m.ring l r) ∧
      Quiet s t [Reg.DMA_R_STAT l.ix r]) ∧
  (∀ (cyc : Nat) (l : Lane) (r : Fin 16) (s : State) (o : Offer),
    (s.m.offers.find? fun o => o.lane == l && o.ring == r.val) = some o →
    (s.m.dma.lanes.get l).rings[r.val]? = some (s.m.ring l r) →
    let n := (o.bytes.length + 255) / 256
    let counts := if o.port = 1 then [Reg.LAW_CAP_STAT l.ix, Reg.LAW_IRQ_STAT l.ix] else []
    (∀ d rest, s.m.ringState l r = 1 → s.m.fld (Reg.DMA_R_CFG l.ix r) 27 25 = o.port → (s.m.ring l r).fetched = d :: rest → d.op = 2 →
      d.bad = false → s.m.cqFree l r = true → (s.m.ring l r).out.length + n ≤ 32 → s.m.dmaRoom l 2 n = true →
      d.flags < 2 ∨ (s.m.ring l r).active = [] →
      ∃ t, exec (.streamRecord cyc l r) s = .next t ∧ t.m.offers = s.m.offers.erase o ∧
        t.m.ring l r = { s.m.ring l r with
          fetched := rest, dropping := false
          active := (s.m.ring l r).active ++
            [⟨d, 0, none, o.bytes, min o.bytes.length d.len, if d.len < o.bytes.length then 4 else 0, 0, []⟩] } ∧
        t.m.fld (Reg.DMA_R_HEAD l.ix r) 11 0 = (d.index + 1) % s.m.ringSize l r % 2 ^ 12 ∧
        (o.port = 1 → t.m.fld (Reg.LAW_CAP_STAT l.ix) 15 0 = (s.m.fld (Reg.LAW_CAP_STAT l.ix) 15 0 + 1) % 2 ^ 16 ∧
          t.m.bit (Reg.LAW_IRQ_STAT l.ix) 0 = true) ∧
        Quiet s t (Reg.DMA_R_HEAD l.ix r :: counts)) ∧
    (s.m.ringState l r ≠ 1 ∨ s.m.fld (Reg.DMA_R_CFG l.ix r) 27 25 ≠ o.port ∨ (s.m.ring l r).fetched = [] ∨ s.m.cqFree l r = false →
      ∃ t, exec (.streamRecord cyc l r) s = .next t ∧ t.m.offers = s.m.offers.erase o ∧
        t.m.fld (Reg.DMA_R_STAT l.ix r) 31 16 = min (s.m.fld (Reg.DMA_R_STAT l.ix r) 31 16 + 1) 0xFFFF ∧
        t.m.ring l r = { s.m.ring l r with dropping := true } ∧ t.m.bit (Reg.DMA_R_IRQ l.ix r) 3 = true ∧
        (o.port = 1 → t.m.fld (Reg.LAW_CAP_STAT l.ix) 31 16 = min (s.m.fld (Reg.LAW_CAP_STAT l.ix) 31 16 + 1) 0xFFFF ∧
          t.m.bit (Reg.LAW_IRQ_STAT l.ix) 1 = true) ∧
        (o.port = 2 → o.bytes.getD 15 0 % 8 < 7 → t.m.fld (Reg.NET_P_CNT (o.bytes.getD 15 0 % 8)) 15 0 =
          min (s.m.fld (Reg.NET_P_CNT (o.bytes.getD 15 0 % 8)) 15 0 + 1) 0xFFFF) ∧
        Raises s t ((if (s.m.ring l r).dropping then [] else [eventAt (s.at cyc) 0x3408 0 0xFF [] l.origin]) ++
          if o.port = 1 ∧ (s.m.law.get l).capDropping = false then [eventAt (s.at cyc) 0x1007 0 0xFF [] l.origin] else []) ∧
        SameRegsBut s t ([Reg.DMA_R_STAT l.ix r, Reg.DMA_R_IRQ l.ix r] ++ counts ++
          if o.port = 2 then [Reg.NET_P_CNT (o.bytes.getD 15 0 % 8)] else []) ∧ SameMemory s t)) ∧
  (∀ (cyc : Nat) (l : Lane) (r : Fin 16) (s : State), (s.m.offers.find? fun o => o.lane == l && o.ring == r.val) = none →
    ∃ t, exec (.streamRecord cyc l r) s = .next t ∧ t.m.offers = s.m.offers ∧ t.m.dma = s.m.dma ∧ Quiet s t []) ∧
  (∀ (cyc : Nat) (l : Lane) (v : Word) (s : State),
    (∃ t, exec (.iotlbInvalidate cyc (.lane l) l v) s = .next t ∧
      (t.m.dma.lanes.get l).rings = (s.m.dma.lanes.get l).rings ∧ t.m.dma.lanes.get l.other = s.m.dma.lanes.get l.other ∧
      (t.m.dma.lanes.get l).iotlb = (s.m.dma.lanes.get l).iotlb.filter (fun e => match v.bits 31 30 with
        | 0 => false
        | 1 => !(e.ctx == v.bits 29 28)
        | 2 => !(e.ctx == v.bits 29 28 && e.vpn / 2 ^ (9 * e.level) == v.bits 26 0 / 2 ^ (9 * e.level))
        | _ => true) ∧ Quiet s t []) ∧
    NotTheOwner s cyc l (Reg.DMA_L_INVAL l.ix) (exec (.iotlbInvalidate cyc (.lane l.other) l v) s)
      (exec (.iotlbInvalidate cyc .safety l v) s))

/-- The data that a transaction writes: what its parts read, or the pattern of a FILL, or its part of the stream record (R355). -/
def txnBytes (s : State) (a : DmaActive) (x : DmaTxn) : List Nat :=
  if x.reads = [] then (if a.desc.op = 1 then fillBytes a.desc x.off x.size else (a.data.drop x.off).take x.size)
  else x.reads.flatMap fun p => Memory.readN s.mem p.1 p.2

/-- The completion record of a descriptor that has moved `bytes` (R358, R360). -/
def doneRecord (s : State) (cyc : Nat) (l : Lane) (r : Nat) (a : DmaActive) (bytes : List Nat) : List Nat :=
  leBytes 8 (s.at cyc).now ++ leBytes 8 (a.issueAt.getD 0) ++ leBytes 2 a.desc.index ++ leBytes 2 a.desc.tag ++
    [0, l.ix * 16 + r] ++ leBytes 2 (min a.parks 0xFFFF) ++ leBytes 4 bytes.length ++ leBytes 4 (crc32c bytes)

/-- Posted descriptors are fetched; their transactions are issued 256 bytes at a time with the physical page parts of an
untranslated context; the data moves when a transaction completes; with the last of them the descriptor's record is formed, and is
written to the completion queue; what a STREAM_OUT has read goes to its port. A FENCE completes once nothing is left before it; a descriptor
in error halts its ring. A read that meets poison ends its descriptor with a memory error. A write whose translation fails faults with
the cause of R364: the ring is FAULTED, a record goes to the lane's fault ring, and event 0x3406 is raised. Another writer's posts are
ignored, and in SLEEP, without power or with nothing to do the engines do nothing. Completes: DESCRIPTOR_POST, TRANSACTION_ISSUE,
TRANSACTION_COMPLETE, COMPLETION_WRITE. Data of event records beyond the spec's, and ORIGIN and KIND 10 where no rule names them, are the
model's choice (log entries 20 and 21). -/
def Obligations.RingsFetchIssueMoveAndRecord : Prop :=
  (∀ (cyc : Nat) (l : Lane) (r : Fin 16) (v : Word) (s : State),
    (s.m.ringState l r ≠ 1 → (∀ a ∈ (s.m.ring l r).active.head?, a.desc.op ≠ 4) →
      ∃ t, exec (.descriptorPost cyc (.lane l) l r v) s = .next t ∧
        t.m.rd (Reg.DMA_R_TAIL l.ix r) = BitVec.ofNat 32 (v.bits 11 0 % s.m.ringSize l r) ∧ t.m.dma = s.m.dma ∧
        Quiet s t [Reg.DMA_R_TAIL l.ix r]) ∧
    (s.m.ringState l r = 1 → (s.m.dma.lanes.get l).rings[r.val]? = some (s.m.ring l r) →
      NothingFollows s l r (v.bits 11 0 % s.m.ringSize l r) →
      ∃ t, exec (.descriptorPost cyc (.lane l) l r v) s = .next t ∧
        t.m.rd (Reg.DMA_R_TAIL l.ix r) = BitVec.ofNat 32 (v.bits 11 0 % s.m.ringSize l r) ∧
        t.m.ring l r = fetchedRing s l r (v.bits 11 0 % s.m.ringSize l r) (s.m.ring l r) ∧ Quiet s t [Reg.DMA_R_TAIL l.ix r]) ∧
    NotTheOwner s cyc l (Reg.DMA_R_TAIL l.ix r) (exec (.descriptorPost cyc (.lane l.other) l r v) s)
      (exec (.descriptorPost cyc .safety l r v) s)) ∧
  (∀ (cyc : Nat) (l : Lane) (r : Fin 16) (v : Word) (s : State) (d : DmaDesc), s.m.ringState l r = 1 →
    (s.m.ring l r).fetched = [] → (s.m.ring l r).active = [] → s.m.bit (Reg.DMA_R_CFG l.ix r) 23 = false →
    (s.m.dma.lanes.get l).rings[r.val]? = some (s.m.ring l r) → posted s l r (v.bits 11 0 % s.m.ringSize l r) = [d] →
    (d.bad = false → d.op = 4 →
      ∃ t rec_, exec (.descriptorPost cyc (.lane l) l r v) s = .next t ∧
        (t.m.ring l r).fetched = [] ∧ (t.m.ring l r).active = [] ∧
        (t.m.ring l r).ready = (s.m.ring l r).ready ++ [(d.seq, rec_, d.flags % 2 == 1)] ∧ rec_[20]? = some 0 ∧
        t.m.fld (Reg.DMA_R_HEAD l.ix r) 11 0 = (d.index + 1) % s.m.ringSize l r % 2 ^ 12 ∧
        Quiet s t [Reg.DMA_R_TAIL l.ix r, Reg.DMA_R_HEAD l.ix r]) ∧
    (d.bad = true →
      ∃ t rec_, exec (.descriptorPost cyc (.lane l) l r v) s = .next t ∧ t.m.ringState l r = 3 ∧
        (t.m.ring l r).ready = (s.m.ring l r).ready ++ [(d.seq, rec_, d.flags % 2 == 1)] ∧ rec_[20]? = some 3 ∧
        t.m.fld (Reg.DMA_R_HEAD l.ix r) 11 0 = (d.index + 1) % s.m.ringSize l r % 2 ^ 12 ∧
        Raises s t [eventAt (s.at cyc) 0x3409 1 0xFF [] l.origin] ∧
        SameRegsBut s t (Reg.DMA_R_TAIL l.ix r :: ringRegs l r) ∧ SameMemory s t)) ∧
  (∀ (cyc : Nat) (l : Lane) (r : Nat) (s : State) (a b : DmaActive) (rest : List DmaDesc), s.m.dmaRuns = true →
    s.m.chooseRing l = some r →
    ((s.m.ring l r).active = [a] ∧ a.issued < a.len ∧ b = a ∧ rest = (s.m.ring l r).fetched ∨
      (s.m.ring l r).active = [] ∧ (s.m.ring l r).fetched = b.desc :: rest ∧ b = ⟨b.desc, 0, none, [], b.desc.len, 0, 0, []⟩ ∧
        0 < b.len) →
    (s.m.dma.lanes.get l).rings[r]? = some (s.m.ring l r) → b.desc.op ≠ 4 →
    (s.m.rd (Reg.DMA_L_CTX_HI l.ix (s.m.fld (Reg.DMA_R_CFG l.ix r) 19 18))).bits 31 28 ≠ 8 →
    let n := min 256 (b.len - b.issued)
    let srcs := if b.desc.op = 0 ∨ b.desc.op = 3 then pageParts (b.desc.src + b.issued) n else []
    let dsts := if b.desc.op = 3 then [] else pageParts (b.desc.dst + b.issued) n
    (∀ p ∈ srcs, s.m.dmaReach l false p.1 = true) → (∀ p ∈ dsts, s.m.dmaReach l true p.1 = true) →
    ∃ t, exec (.transactionIssue cyc l) s = .next t ∧
      t.m.ring l r = { s.m.ring l r with
        fetched := rest, out := (s.m.ring l r).out ++ [⟨b.desc.seq, b.issued, n, 0, srcs, dsts⟩]
        active := [{ b with issued := b.issued + n, issueAt := some (b.issueAt.getD (s.at cyc).now) }] } ∧
      ((s.m.ring l r).active = [a] → t.m.fld (Reg.DMA_R_HEAD l.ix r) 11 0 = s.m.fld (Reg.DMA_R_HEAD l.ix r) 11 0) ∧
      Quiet s t (ringRegs l r)) ∧
  (∀ (cyc : Nat) (l : Lane) (s : State), s.m.dmaRuns = false ∨ s.m.chooseRing l = none →
    ∃ t, exec (.transactionIssue cyc l) s = .next t ∧ t.m.dma = s.m.dma ∧ Quiet s t []) ∧
  (∀ (cyc : Nat) (l : Lane) (r : Nat) (s : State) (a : DmaActive) (c e fh : Nat), Memory.wf s.mem = true → s.m.dmaRuns = true →
     s.m.chooseRing l = some r → (s.m.ring l r).active = [a] → a.issued < a.len → a.desc.op = 1 → a.chunks = [] →
     (s.m.dma.lanes.get l).rings[r]? = some (s.m.ring l r) → c = s.m.fld (Reg.DMA_R_CFG l.ix r) 19 18 →
     (s.m.translate s.mem l c (a.desc.dst + a.issued) true).cause = e → e ≠ 0 → e ≠ 10 →
     fh = s.m.fld (Reg.DMA_L_FRHEAD l.ix) 9 0 →
     fh + 1 < 2 ^ s.m.fld (Reg.DMA_L_FRCFG l.ix) 3 0 → s.m.fld (Reg.DMA_L_FRTAIL l.ix) 9 0 = 0 →
     2 ^ s.m.fld (Reg.DMA_L_FRCFG l.ix) 3 0 ≤ 1024 →
     let va := a.desc.dst + a.issued
     let fa := s.m.base40 (Reg.DMA_L_FRBASE_LO l.ix) (Reg.DMA_L_FRBASE_HI l.ix) + 32 * fh
     let body := leBytes 8 (s.at cyc).now ++ leBytes 8 va ++ [r, e, c, 1] ++ leBytes 2 a.desc.index ++ leBytes 2 a.desc.tag ++
       leBytes 4 0
     ∃ t, exec (.transactionIssue cyc l) s = .next t ∧ t.m.ringState l r = 2 ∧
       (t.m.ring l r).parked = [⟨a.desc.seq, a.issued, min 256 (a.len - a.issued), 0, [], []⟩] ∧
       (t.m.ring l r).out = (s.m.ring l r).out ∧ (t.m.ring l r).faultVa = va ∧
       (∀ i < 28, (Memory.read t.mem (fa + i)).toNat = body.getD i 0) ∧
       (∀ b, b < fa ∨ fa + 32 ≤ b → Memory.read t.mem b = Memory.read s.mem b) ∧
       t.m.fld (Reg.DMA_L_FRHEAD l.ix) 9 0 = fh + 1 ∧ t.m.bit (Reg.DMA_L_IRQ_STAT l.ix) 2 = true ∧
       t.m.bit (Reg.DMA_R_IRQ l.ix r) 1 = true ∧
       Raises s t [eventAt (s.at cyc) 0x3406 0 0xFF [] l.origin] ∧
       SameRegsBut s t (Reg.DMA_L_FRHEAD l.ix :: Reg.DMA_L_IRQ_STAT l.ix :: ringRegs l r)) ∧
  (∀ (cyc : Nat) (l : Lane) (r : Fin 16) (i : Fin 32) (s : State) (a : DmaActive) (x : DmaTxn) (pa : Nat), Memory.wf s.mem = true →
    s.m.dmaRuns = true → (s.m.ring l r).active = [a] → (s.m.ring l r).out[i.val]? = some x → x.seq = a.desc.seq →
    (s.m.dma.lanes.get l).rings[r.val]? = some (s.m.ring l r) → s.m.dma.poison = [] → x.written = 0 →
    (txnBytes s a x).length = x.size → x.writes = [(pa, x.size)] ∨ x.writes = [] →
    (let stored := if x.writes = [] then 0 else x.size
     let moved (t : State) := ∀ b,
       (pa ≤ b ∧ b < pa + stored → (Memory.read t.mem b).toNat = (txnBytes s a x).getD (b - pa) 0 % 256) ∧
       (b < pa ∨ pa + stored ≤ b → Memory.read t.mem b = Memory.read s.mem b)
     (a.issued < a.len ∨ (∃ y ∈ (s.m.ring l r).out.eraseIdx i, y.seq = a.desc.seq) →
       ∃ t, exec (.transactionComplete cyc l r i) s = .next t ∧ moved t ∧
         (∃ ps, (ps.map fun p => p.2).flatten = txnBytes s a x ∧ t.m.ring l r = { s.m.ring l r with
           out := (s.m.ring l r).out.eraseIdx i, active := [{ a with chunks := a.chunks ++ ps }] }) ∧
         SameRegsBut s t (ringRegs l r) ∧ Raises s t []) ∧
     (a.len ≤ a.issued → (s.m.ring l r).out = [x] → (s.m.ring l r).fetched = [] → (s.m.ring l r).parked = [] → a.chunks = [] →
       a.status = 0 → a.issueAt.isSome = true → s.m.bit (Reg.DMA_R_CFG l.ix r) 23 = false → x.size ≤ 256 →
       (a.desc.op = 3 → s.m.fld (Reg.DMA_R_CFG l.ix r) 27 25 ≠ 3) →
       ∃ t, exec (.transactionComplete cyc l r i) s = .next t ∧ moved t ∧ (t.m.ring l r).active = [] ∧ (t.m.ring l r).out = [] ∧
         (t.m.ring l r).ready = (s.m.ring l r).ready ++
           [(a.desc.seq, doneRecord s cyc l r a (txnBytes s a x), a.desc.flags % 2 == 1)] ∧
         t.m.dma.port5 = s.m.dma.port5 ++ (if a.desc.op = 3 ∧ s.m.fld (Reg.DMA_R_CFG l.ix r) 27 25 = 5 then
           [⟨l, r.val, a.desc.param, txnBytes s a x⟩] else []) ∧
         SameRegsBut s t (ringRegs l r) ∧ Raises s t []))) ∧
  (∀ (cyc : Nat) (l : Lane) (r : Fin 16) (s : State) (a : DmaActive) (x : DmaTxn), s.m.dmaRuns = true →
    (s.m.ring l r).active = [a] → (s.m.ring l r).out = [x] → x.seq = a.desc.seq → a.desc.op = 3 → a.len ≤ a.issued →
    (s.m.ring l r).fetched = [] → (s.m.ring l r).parked = [] → a.chunks = [] → a.status = 0 → x.writes = [] →
    s.m.dma.poison = [] → s.m.fld (Reg.DMA_R_CFG l.ix r) 27 25 = 3 → s.m.bit (Reg.DMA_R_CFG l.ix r) 23 = false → s.alone l →
    s.m.txFlow (a.desc.param % 64) = true → (txnBytes s a x).length ≤ s.m.portMax (s.m.flowPort (a.desc.param % 64)) →
    (s.m.port (s.m.flowPort (a.desc.param % 64))).queue.length < 32 →
    ∃ t, exec (.transactionComplete cyc l r 0) s = .next t ∧
      t.m.net.ports = upd s.m.net.ports (s.m.flowPort (a.desc.param % 64)) (fun q => { q with
        queue := q.queue ++ [⟨a.desc.param % 64, txnBytes s a x, s.m.seq, 0⟩] }) ∧ Quiet s t (ringRegs l r)) ∧
  (∀ (cyc : Nat) (l : Lane) (r : Fin 16) (s : State) (a : DmaActive) (x : DmaTxn), s.m.dmaRuns = true →
    (s.m.ring l r).active = [a] → (s.m.ring l r).out = [x] → x.seq = a.desc.seq → (s.m.ring l r).fetched = [] →
    (s.m.dma.lanes.get l).rings[r.val]? = some (s.m.ring l r) → s.m.bit (Reg.DMA_R_CFG l.ix r) 23 = false →
    (x.reads.any fun p => s.m.poisoned p.1 p.2) = true → (s.m.ring l r).parked = [] →
    ∃ t rec_, exec (.transactionComplete cyc l r 0) s = .next t ∧ SameMemory s t ∧ (t.m.ring l r).active = [] ∧
      (t.m.ring l r).ready = (s.m.ring l r).ready ++ [(a.desc.seq, rec_, a.desc.flags % 2 == 1)] ∧ rec_[20]? = some 1) ∧
  (∀ (cyc : Nat) (l : Lane) (r : Fin 16) (i : Fin 32) (s : State), s.m.dmaRuns = false ∨ (s.m.ring l r).out[i.val]? = none →
    ∃ t, exec (.transactionComplete cyc l r i) s = .next t ∧ t.m.dma = s.m.dma ∧ Quiet s t []) ∧
  (∀ (cyc : Nat) (l : Lane) (r : Fin 16) (s : State) (y : Nat × List Nat × Bool), Memory.wf s.mem = true → s.m.dmaRuns = true →
    s.m.nextRecord l r = some y → (s.m.dma.lanes.get l).rings[r.val]? = some (s.m.ring l r) →
    s.m.cqFree l r = true → y.2.1.length = 32 → (∀ b ∈ y.2.1, b < 256) →
    let h := s.m.fld (Reg.DMA_R_CQHEAD l.ix r) 11 0
    let a := s.m.base40 (Reg.DMA_R_CQ_LO l.ix r) (Reg.DMA_R_CQ_HI l.ix r) + 32 * h
    ∃ t, exec (.completionWrite cyc l r) s = .next t ∧ Memory.readN t.mem a 32 = y.2.1 ∧
      (∀ b, b < a ∨ a + 32 ≤ b → Memory.read t.mem b = Memory.read s.mem b) ∧
      t.m.fld (Reg.DMA_R_CQHEAD l.ix r) 11 0 = (h + 1) % s.m.ringSize l r ∧
      (t.m.ring l r).ready = (s.m.ring l r).ready.erase y ∧
      t.m.bit (Reg.DMA_R_IRQ l.ix r) 0 = (y.2.2 || s.m.bit (Reg.DMA_R_IRQ l.ix r) 0) ∧
      SameRegsBut s t [Reg.DMA_R_CQHEAD l.ix r, Reg.DMA_R_IRQ l.ix r] ∧ Raises s t []) ∧
  (∀ (cyc : Nat) (l : Lane) (r : Fin 16) (s : State),
    s.m.dmaRuns = false ∨ s.m.nextRecord l r = none ∨ s.m.cqFree l r = false →
    ∃ t, exec (.completionWrite cyc l r) s = .next t ∧ t.m.dma = s.m.dma ∧ Quiet s t [])

/-- The registers that a unit's scan writes. -/
def unitRegs (l : Lane) (u : Nat) : List Nat :=
  [Reg.CRC_U_STAT l.ix u, Reg.CRC_U_POS l.ix u, Reg.CRC_U_VAL_LO l.ix u, Reg.CRC_U_VAL_HI l.ix u, Reg.CRC_U_RES_LO l.ix u,
    Reg.CRC_U_RES_HI l.ix u]

/-- A unit has begun to scan: RUNNING at this POS and value, with no stop asked for (R368). -/
def Scans (s t : State) (l : Lane) (u pos v : Nat) : Prop :=
  t.m.crcState l u = 1 ∧ nth (t.m.dma.lanes.get l).units u = ⟨false, false⟩ ∧
    t.m.rd (Reg.CRC_U_POS l.ix u) = BitVec.ofNat 32 pos ∧
    t.m.rd64 (Reg.CRC_U_VAL_LO l.ix u) (Reg.CRC_U_VAL_HI l.ix u) = v ∧ Quiet s t (unitRegs l u)

/-- START begins a scan from INIT and CONT from the value at hand; a command that a width, a length or a running scan forbids is
refused with event 0x3803, and another writer's is ignored; a block takes at most 64 bytes into v, and the scan ends DONE at its length, or
STOPPED after STOP at the end of a block; a block whose translation fails ends it FAULTED with 0x3801 and one that meets poison in
error with 0x3802, both before v; a unit that does not run, and every unit in SLEEP or without power, does nothing. Completes: CRC_START,
CRC_CONT, CRC_STOP, CRC_SCAN_BLOCK. Data of event records beyond the spec's, and ORIGIN and KIND 10 where no rule names them, are the
model's choice (log entries 20 and 21). -/
def Obligations.CheckValueScans : Prop :=
  (∀ (cyc : Nat) (l : Lane) (u : Fin 4) (s : State),
    let w := s.m.crcWidth l u
    let init := s.m.rd64 (Reg.CRC_U_INIT_LO l.ix u) (Reg.CRC_U_INIT_HI l.ix u)
    (8 ≤ w → w ≤ 64 → s.m.rd (Reg.CRC_U_LEN l.ix u) ≠ 0#32 → s.m.crcState l u ≠ 1 →
      (s.m.dma.lanes.get l).units[u.val]? = some (nth (s.m.dma.lanes.get l).units u) →
      (∃ t, exec (.crcStart cyc (.lane l) l u) s = .next t ∧
        Scans s t l u 0 (if s.m.bit (Reg.CRC_U_CFG l.ix u) 21 = true then reflect w init else init % 2 ^ w)) ∧
      (∃ t, exec (.crcCont cyc (.lane l) l u) s = .next t ∧
        Scans s t l u (s.m.rd (Reg.CRC_U_POS l.ix u)).toNat (s.m.rd64 (Reg.CRC_U_VAL_LO l.ix u) (Reg.CRC_U_VAL_HI l.ix u)))) ∧
    (w < 8 ∨ 64 < w ∨ s.m.rd (Reg.CRC_U_LEN l.ix u) = 0#32 ∨ s.m.crcState l u = 1 →
      (∃ t, exec (.crcStart cyc (.lane l) l u) s = .next t ∧ SameRegsBut s t [] ∧ SameMemory s t ∧
        Raises s t [eventAt (s.at cyc) 0x3803 0 0xFF [] l.origin]) ∧
      (∃ t, exec (.crcCont cyc (.lane l) l u) s = .next t ∧ SameRegsBut s t [] ∧ SameMemory s t ∧
        Raises s t [eventAt (s.at cyc) 0x3803 0 0xFF [] l.origin])) ∧
    NotTheOwner s cyc l (Reg.CRC_U_CTRL l.ix u) (exec (.crcStart cyc (.lane l.other) l u) s) (exec (.crcStart cyc .safety l u) s) ∧
    NotTheOwner s cyc l (Reg.CRC_U_CTRL l.ix u) (exec (.crcCont cyc (.lane l.other) l u) s) (exec (.crcCont cyc .safety l u) s) ∧
    NotTheOwner s cyc l (Reg.CRC_U_CTRL l.ix u) (exec (.crcStop cyc (.lane l.other) l u) s) (exec (.crcStop cyc .safety l u) s)) ∧
  (∀ (cyc : Nat) (l : Lane) (u : Fin 4) (s : State),
    (s.m.dma.lanes.get l).units[u.val]? = some (nth (s.m.dma.lanes.get l).units u) →
    ∃ t, exec (.crcStop cyc (.lane l) l u) s = .next t ∧ t.m.crcState l u = s.m.crcState l u ∧
      nth (t.m.dma.lanes.get l).units u = ⟨(nth (s.m.dma.lanes.get l).units u).stop || s.m.crcState l u == 1, true⟩ ∧ Quiet s t []) ∧
  (∀ (cyc : Nat) (l : Lane) (u : Fin 4) (s : State) (pos len n c : Nat), s.m.dmaRuns = true → s.m.crcState l u = 1 →
    (s.m.dma.lanes.get l).units[u.val]? = some (nth (s.m.dma.lanes.get l).units u) →
    (s.m.rd (Reg.CRC_U_POS l.ix u)).toNat = pos → (s.m.rd (Reg.CRC_U_LEN l.ix u)).toNat = len → pos < len → n = min 64 (len - pos) →
    c = s.m.fld (Reg.CRC_U_CFG l.ix u) 19 18 →
    let a := s.m.rd64 (Reg.CRC_U_ADDR_LO l.ix u) (Reg.CRC_U_ADDR_HI l.ix u) + pos
    ((s.m.rd (Reg.DMA_L_CTX_HI l.ix c)).bits 31 28 ≠ 8 → (∀ p ∈ pageParts a n, s.m.dmaReach l false p.1 = true) →
      ((∀ p ∈ pageParts a n, s.m.poisoned p.1 p.2 = false) →
        ∃ t, exec (.crcScanBlock cyc l u) s = .next t ∧ t.m.rd (Reg.CRC_U_POS l.ix u) = BitVec.ofNat 32 (pos + n) ∧
          t.m.rd64 (Reg.CRC_U_VAL_LO l.ix u) (Reg.CRC_U_VAL_HI l.ix u) =
            ((pageParts a n).flatMap fun p => Memory.readN s.mem p.1 p.2).foldl
              (unitByte (s.m.bit (Reg.CRC_U_CFG l.ix u) 21) (s.m.crcWidth l u)
                (s.m.rd64 (Reg.CRC_U_POLY_LO l.ix u) (Reg.CRC_U_POLY_HI l.ix u)))
              (s.m.rd64 (Reg.CRC_U_VAL_LO l.ix u) (Reg.CRC_U_VAL_HI l.ix u)) % 2 ^ 64 ∧
          t.m.crcState l u = (if pos + n = len then 2 else if (nth (s.m.dma.lanes.get l).units u).stop then 3 else 1) ∧
          Quiet s t (unitRegs l u)) ∧
      ((pageParts a n).any (fun p => s.m.poisoned p.1 p.2) = true →
        ∃ t, exec (.crcScanBlock cyc l u) s = .next t ∧ t.m.crcState l u = 5 ∧ Tells s t 0x3802 0 0xFF ∧ SameMemory s t ∧
          t.m.rd (Reg.CRC_U_POS l.ix u) = s.m.rd (Reg.CRC_U_POS l.ix u) ∧
          t.m.rd64 (Reg.CRC_U_VAL_LO l.ix u) (Reg.CRC_U_VAL_HI l.ix u) =
            s.m.rd64 (Reg.CRC_U_VAL_LO l.ix u) (Reg.CRC_U_VAL_HI l.ix u))) ∧
    ((s.m.translate s.mem l c a false).cause ≠ 0 → (s.m.translate s.mem l c a false).cause ≠ 10 →
      ∃ t, exec (.crcScanBlock cyc l u) s = .next t ∧ t.m.crcState l u = 4 ∧ Tells s t 0x3801 0 0xFF ∧
        t.m.bit (Reg.DMA_L_IRQ_STAT l.ix) 2 = true ∧ t.m.rd (Reg.CRC_U_POS l.ix u) = s.m.rd (Reg.CRC_U_POS l.ix u) ∧
        t.m.rd64 (Reg.CRC_U_VAL_LO l.ix u) (Reg.CRC_U_VAL_HI l.ix u) =
          s.m.rd64 (Reg.CRC_U_VAL_LO l.ix u) (Reg.CRC_U_VAL_HI l.ix u))) ∧
  (∀ (cyc : Nat) (l : Lane) (u : Fin 4) (s : State), s.m.dmaRuns = true → s.m.crcState l u = 1 →
    (s.m.rd (Reg.CRC_U_LEN l.ix u)).toNat ≤ (s.m.rd (Reg.CRC_U_POS l.ix u)).toNat →
    ∃ t, exec (.crcScanBlock cyc l u) s = .next t ∧ t.m.crcState l u = 2 ∧
      t.m.rd (Reg.CRC_U_POS l.ix u) = s.m.rd (Reg.CRC_U_POS l.ix u) ∧ Quiet s t (unitRegs l u)) ∧
  (∀ (cyc : Nat) (l : Lane) (u : Fin 4) (s : State), s.m.dmaRuns = false ∨ s.m.crcState l u ≠ 1 →
    ∃ t, exec (.crcScanBlock cyc l u) s = .next t ∧ t.m.dma = s.m.dma ∧ Quiet s t [])

/-! ### Time, the Catalogue and the fault capture -/

/-- The timebase in one cycle: T and its fraction advance by 5 · 2^32 + RATE + s fraction units, so T always rises; the pending
slew loses 1/64 unit; many cycles do what they do one after another, and a cycle already reached moves nothing. -/
def Obligations.TheTimebaseRisesEveryCycle : Prop :=
  ∀ m : Mach, m.time.f < 2 ^ 32 → -4294967 ≤ m.rdS Reg.TIME_RATE → m.rdS Reg.TIME_RATE ≤ 4294967 →
    (let t := m.advanceTo (m.time.cyc + 1)
     (t.time.t * 2 ^ 32 + t.time.f : Int) =
       m.time.t * 2 ^ 32 + m.time.f + (5 * 2 ^ 32 + m.rdS Reg.TIME_RATE + slewSign m.time.slew * 2 ^ 26) ∧
     t.time.f < 2 ^ 32 ∧ m.time.t < t.time.t ∧ t.time.slew = m.time.slew - slewSign m.time.slew) ∧
    (∀ c, m.time.cyc ≤ c → m.advanceTo (c + 1) = (m.advanceTo c).advanceTo (c + 1)) ∧
    (∀ c, c ≤ m.time.cyc → m.advanceTo c = m)

/-- TIME_RATE takes a rate within 200 ppm and clamps any other, which it tells; TIME_SLEW adds to the pending slew, saturating, which
shows until it has drained. The writes route as any device-wide write, and the safety processor's are ignored. Completes: TIME_RATE_WRITE,
TIME_SLEW_WRITE, TIME_SLEW_COMPLETE. Data of event records beyond the spec's, and ORIGIN and KIND 10 where no rule names them, are the
model's choice (log entries 20 and 21). -/
def Obligations.RateAndSlewOfTheTimebase : Prop :=
  (∀ (cyc : Nat) (l : Lane) (v : Word) (s : State),
    (s.m.route l = .now → -4294967 ≤ v.toInt → v.toInt ≤ 4294967 →
      ∃ t, exec (.timeRateWrite cyc (.lane l) v) s = .next t ∧ t.m.rd Reg.TIME_RATE = v ∧ Quiet s t [Reg.TIME_RATE]) ∧
    (s.m.route l = .now → 4294967 < v.toInt ∨ v.toInt < -4294967 →
      ∃ t, exec (.timeRateWrite cyc (.lane l) v) s = .next t ∧
        t.m.rd Reg.TIME_RATE = (if 4294967 < v.toInt then 4294967#32 else -4294967#32) ∧
        t.m.bit Reg.TIME_STATUS 1 = true ∧ t.m.bit Reg.TIME_IRQ_STAT 3 = true ∧
        Raises s t [eventAt (s.at cyc) 0x3C05 0 0xFF [] 0] ∧
        SameRegsBut s t [Reg.TIME_RATE, Reg.TIME_STATUS, Reg.TIME_IRQ_STAT] ∧ SameMemory s t) ∧
    (s.m.route l = .now →
      ∃ t, exec (.timeSlewWrite cyc (.lane l) v) s = .next t ∧
        t.m.time.slew = clampI (-((2 ^ 31 - 1) * 64)) ((2 ^ 31 - 1) * 64) ((s.at cyc).time.slew + 64 * v.toInt) ∧
        t.m.bit Reg.TIME_STATUS 0 = decide (t.m.time.slew ≠ 0) ∧ Quiet s t [Reg.TIME_STATUS]) ∧
    RoutedElsewhere s l Reg.TIME_RATE v (exec (.timeRateWrite cyc (.lane l) v) s) ∧
    RoutedElsewhere s l Reg.TIME_SLEW v (exec (.timeSlewWrite cyc (.lane l) v) s) ∧
    NothingDone s (exec (.timeRateWrite cyc .safety v) s) ∧ NothingDone s (exec (.timeSlewWrite cyc .safety v) s)) ∧
  (∀ (cyc : Nat) (s : State),
    ∃ t, exec (.timeSlewComplete cyc) s = .next t ∧ t.m.time = (s.at cyc).time ∧
      t.m.bit Reg.TIME_STATUS 0 = (s.m.bit Reg.TIME_STATUS 0 && decide ((s.at cyc).time.slew ≠ 0)) ∧
      Quiet s t [Reg.TIME_STATUS])

/-- An event raised reaches the Collator, which releases the first in its order once its stamp is 2 µs old, with the next number,
into the queue for the stream and, from class F1 on, into the flash queue; a full queue discards the oldest F0 record for one of a higher
class, or the new one, which counts and is told once in a run, and a full flash queue loses the record; the writer offers records to port 4,
and what the port drops stays queued; the oldest record of the flash queue goes to the place after the last, in a newly erased sector with
its header where that was the last of its sector; one that fails its verification is lost and told. Completes: EVENT_DELIVERY,
COLLATOR_RELEASE, CATALOGUE_STREAM, FLASH_CATALOGUE_WRITE. Data of event records beyond the spec's, and ORIGIN and KIND 10 where no rule
names them, are the model's choice (log entries 20 and 21). -/
def Obligations.EventsReachTheCatalogue : Prop :=
  (∀ (cyc i : Nat) (s : State),
    (∀ e, s.m.time.raised[i]? = some e →
      (s.m.capState ≠ 1 ∧ s.m.capState ≠ 2) ∨ s.m.capMatches e = false ∨ e.time < s.m.time.armedSince →
      ∃ t, exec (.eventDelivery cyc i) s = .next t ∧
        t.m.time = { (s.at cyc).time with
          raised := s.m.time.raised.eraseIdx i, collator := s.m.time.collator ++ [e] } ∧
        SameRegsBut s t [] ∧ SameMemory s t) ∧
    (s.m.time.raised[i]? = none →
      ∃ t, exec (.eventDelivery cyc i) s = .next t ∧ t.m.time = (s.at cyc).time ∧ Quiet s t [])) ∧
  (∀ (cyc : Nat) (s : State) (e : Event), firstEvent s.m.time.collator = some e →
    let n := s.m.time.nextSeq % 2 ^ 16
    let goes := 1 ≤ e.cls ∨ e.code = 0x3C01
    ((s.at cyc).now < e.time + 4000 →
      ∃ t, exec (.collatorRelease cyc) s = .next t ∧ t.m.time = (s.at cyc).time ∧ Quiet s t []) ∧
    (e.time + 4000 ≤ (s.at cyc).now → s.m.time.queue.length < 512 → s.m.time.flashQueue.length < 64 →
      ∃ t, exec (.collatorRelease cyc) s = .next t ∧ t.m.time.collator = s.m.time.collator.erase e ∧
        t.m.time.nextSeq = s.m.time.nextSeq + 1 ∧ t.m.time.queue = s.m.time.queue ++ [(e, n)] ∧
        t.m.time.flashQueue = s.m.time.flashQueue ++ (if goes then [(e, n)] else []) ∧
        t.m.fld Reg.TIME_CATSEQ 15 0 = n ∧
        t.m.fld Reg.TIME_CATSTAT 31 22 = s.m.time.queue.length + 1 ∧
        Quiet s t [Reg.TIME_CATSEQ, Reg.TIME_CATSTAT]) ∧
    (e.time + 4000 ≤ (s.at cyc).now → 512 ≤ s.m.time.queue.length → s.m.time.flashQueue.length < 64 →
      ∃ t, exec (.collatorRelease cyc) s = .next t ∧ t.m.time.collator = s.m.time.collator.erase e ∧
        t.m.time.nextSeq = s.m.time.nextSeq + 1 ∧
        t.m.time.queue = (match s.m.time.queue.find? fun x => x.1.cls == 0 with
          | some x => if e.cls = 0 then s.m.time.queue else s.m.time.queue.erase x ++ [(e, n)]
          | none => s.m.time.queue) ∧
        t.m.time.flashQueue = s.m.time.flashQueue ++ (if goes then [(e, n)] else []) ∧ t.m.time.discarding = true ∧
        t.m.fld Reg.TIME_CATSTAT 15 0 = min (s.m.fld Reg.TIME_CATSTAT 15 0 + 1) 0xFFFF ∧
        Raises s t (if s.m.time.discarding then [] else [eventAt (s.at cyc) 0x3C02 0 0xFF [] 0]) ∧
        SameRegsBut s t [Reg.TIME_CATSEQ, Reg.TIME_CATSTAT, Reg.TIME_IRQ_STAT] ∧ SameMemory s t) ∧
    (e.time + 4000 ≤ (s.at cyc).now → s.m.time.queue.length < 512 → 64 ≤ s.m.time.flashQueue.length → goes →
      ∃ t, exec (.collatorRelease cyc) s = .next t ∧ t.m.time.queue = s.m.time.queue ++ [(e, n)] ∧
        t.m.time.flashQueue = s.m.time.flashQueue ∧
        t.m.fld Reg.TIME_CATSEQ 31 16 = min (s.m.fld Reg.TIME_CATSEQ 31 16 + 1) 0xFFFF ∧
        Raises s t [eventAt (s.at cyc) 0x3C06 0 0xFF [] 0] ∧
        SameRegsBut s t [Reg.TIME_CATSEQ, Reg.TIME_CATSTAT, Reg.TIME_IRQ_STAT] ∧ SameMemory s t)) ∧
  (∀ (cyc : Nat) (s : State), s.m.time.collator = [] →
    ∃ t, exec (.collatorRelease cyc) s = .next t ∧ t.m.time = (s.at cyc).time ∧ Quiet s t []) ∧
  (∀ (cyc n : Nat) (s : State) (r : Nat) (l : Lane), s.m.bit Reg.TIME_CATCFG 31 = true → r = s.m.fld Reg.TIME_CATCFG 3 0 →
    s.m.service = l → s.m.time.queue ≠ [] → (s.m.dma.lanes.get l).rings[r]? = some (s.m.ring l r) →
    let recs := s.m.time.queue.take (min (max n 1) 64)
    let bytes := recs.flatMap fun q => q.1.record q.2
    let k := (bytes.length + 255) / 256
    (∀ d rest, s.m.ringState l r = 1 → s.m.fld (Reg.DMA_R_CFG l.ix r) 27 25 = 4 → (s.m.ring l r).fetched = d :: rest → d.op = 2 →
      d.bad = false → s.m.cqFree l r = true → (s.m.ring l r).out.length + k ≤ 32 → s.m.dmaRoom l 2 k = true →
      d.flags < 2 ∨ (s.m.ring l r).active = [] →
      ∃ t, exec (.catalogueStream cyc n) s = .next t ∧ t.m.time.queue = s.m.time.queue.drop recs.length ∧
        (t.m.ring l r).active = (s.m.ring l r).active ++
          [⟨d, 0, none, bytes, min bytes.length d.len, if d.len < bytes.length then 4 else 0, 0, []⟩] ∧
        t.m.fld Reg.TIME_CATSTAT 31 22 = (s.m.time.queue.length - recs.length) % 1024 ∧
        Quiet s t [Reg.TIME_CATSTAT, Reg.DMA_R_HEAD l.ix r]) ∧
    (s.m.ringState l r ≠ 1 ∨ s.m.fld (Reg.DMA_R_CFG l.ix r) 27 25 ≠ 4 ∨ (s.m.ring l r).fetched = [] ∨ s.m.cqFree l r = false →
      ∃ t, exec (.catalogueStream cyc n) s = .next t ∧ t.m.time.queue = s.m.time.queue ∧
        t.m.fld (Reg.DMA_R_STAT l.ix r) 31 16 = min (s.m.fld (Reg.DMA_R_STAT l.ix r) 31 16 + 1) 0xFFFF ∧
        Raises s t (if (s.m.ring l r).dropping then [] else [eventAt (s.at cyc) 0x3408 0 0xFF [] l.origin]) ∧
        SameRegsBut s t [Reg.DMA_R_STAT l.ix r, Reg.DMA_R_IRQ l.ix r] ∧ SameMemory s t)) ∧
  (∀ (cyc n : Nat) (s : State), s.m.bit Reg.TIME_CATCFG 31 = false ∨ s.m.time.queue = [] →
    ∃ t, exec (.catalogueStream cyc n) s = .next t ∧ t.m.time = (s.at cyc).time ∧ t.m.dma = s.m.dma ∧ Quiet s t []) ∧
  (∀ (cyc : Nat) (s : State) (q : Event × Nat) (rest : List (Event × Nat)), Memory.wf s.mem = true →
    s.m.time.flashQueue = q :: rest → q.1.data.length ≤ 10 →
    (s.m.time.flashSlot < 127 →
      let a := catSector s.m.time.flashSector + 32 * (s.m.time.flashSlot + 1)
      (∃ t, exec (.flashCatalogueWrite cyc true) s = .next t ∧ t.m.time.flashQueue = rest ∧
        t.m.time.flashSlot = s.m.time.flashSlot + 1 ∧ t.m.time.flashSector = s.m.time.flashSector ∧
        (∀ i < 32, (Memory.read t.mem (a + i)).toNat = (q.1.record q.2).getD i 0 % 256) ∧
        (∀ b, b < a ∨ a + 32 ≤ b → Memory.read t.mem b = Memory.read s.mem b) ∧ SameRegsBut s t [] ∧ Raises s t []) ∧
      (∃ t, exec (.flashCatalogueWrite cyc false) s = .next t ∧ t.m.time.flashQueue = rest ∧
        t.m.time.flashSlot = s.m.time.flashSlot + 1 ∧
        t.m.fld Reg.TIME_CATSEQ 31 16 = min (s.m.fld Reg.TIME_CATSEQ 31 16 + 1) 0xFFFF ∧
        (∀ b, b < a ∨ a + 32 ≤ b → Memory.read t.mem b = Memory.read s.mem b) ∧
        Raises s t [eventAt (s.at cyc) 0x3C06 0 0xFF [] 0] ∧ SameRegsBut s t [Reg.TIME_CATSEQ, Reg.TIME_IRQ_STAT])) ∧
    (127 ≤ s.m.time.flashSlot →
      let i := catVictim s.mem
      let a := catSector i
      let head := leBytes 4 0x53544143 ++ leBytes 4 (s.m.time.flashSectorNum + 1) ++ leBytes 4 (s.m.rd Reg.TIME_BOOT).toNat ++
        List.replicate 16 0
      ∃ t, exec (.flashCatalogueWrite cyc true) s = .next t ∧ t.m.time.flashQueue = rest ∧ t.m.time.flashSlot = 1 ∧
        t.m.time.flashSector = i ∧ t.m.time.flashSectorNum = s.m.time.flashSectorNum + 1 ∧
        Memory.readN t.mem a 32 = head ++ leBytes 4 (crc32c head) ∧
        (∀ j < 32, (Memory.read t.mem (a + 32 + j)).toNat = (q.1.record q.2).getD j 0 % 256) ∧
        (∀ b, a + 64 ≤ b → b < a + 4096 → Memory.read t.mem b = Memory.unlisted b) ∧
        (∀ b, b < a ∨ a + 4096 ≤ b → Memory.read t.mem b = Memory.read s.mem b) ∧ SameRegsBut s t [] ∧ Raises s t [])) ∧
  (∀ (cyc : Nat) (ok : Bool) (s : State), s.m.time.flashQueue = [] →
    ∃ t, exec (.flashCatalogueWrite cyc ok) s = .next t ∧ t.m.time = (s.at cyc).time ∧ Quiet s t [])

/-- The event `e` has become the capture's trigger: the first line after its stamp is the trigger line if one stands, and POST lines
follow it (R385). -/
def CaptureTriggers (s t : State) (e : Event) : Prop :=
  let later := (s.m.time.lines.filter fun x => decide (e.time < x.t0)).length
  t.m.capState = 2 ∧ t.m.time.trigger = some e ∧ t.m.time.trigPlaced = decide (0 < later) ∧
    t.m.time.postLeft = s.m.fld Reg.TIME_CAPCFG 25 16 + 1 - later ∧
    t.m.time.lines = markTrigger e.time (s.m.time.lines.map fun x => { x with flags := x.flags / 2 * 2 })

/-- The fault capture: ARM waits for the next boundary, DISARM ends it at once; in the course of a copy it cannot be armed; an event of the
trigger condition starts the lines after it, an earlier one that comes later takes its place, and a further one shows MORE; the store
freezes when they are written, and its copy lands in the flash slot whose turn it is; the data register reads word by word. The writes
route as any device-wide write, and the safety processor's are ignored. Completes: CAPTURE_ARM, CAPTURE_DISARM, EVENT_DELIVERY,
CAPTURE_FREEZE, CAPTURE_FLASH_COPY, CAPTURE_DATA_READ. Data of event records beyond the spec's, and ORIGIN and KIND 10 where no rule names
them, are the model's choice (log entries 20 and 21). -/
def Obligations.TheFaultCaptureRuns : Prop :=
  (∀ (cyc : Nat) (l : Lane) (v : Word) (s : State), s.m.route l = .now →
    (s.m.capState ≠ 1 → s.m.capState ≠ 2 → s.m.capState ≠ 4 →
      ∃ t, exec (.captureArm cyc (.lane l) v) s = .next t ∧ t.m.time.armPending = true ∧ t.m.capState = s.m.capState ∧
        t.m.rd Reg.TIME_CAPCFG = 0x80000000#32 ||| (v &&& 0x3FFF0000#32) ∧ Quiet s t [Reg.TIME_CAPCFG]) ∧
    (s.m.capState = 1 ∨ s.m.capState = 2 →
      ∃ t, exec (.captureArm cyc (.lane l) v) s = .next t ∧ t.m.time.armPending = true ∧
        t.m.capState = (if v.bit 30 then 0 else s.m.capState) ∧
        t.m.rd Reg.TIME_CAPCFG = s.m.rd Reg.TIME_CAPCFG ||| 0x80000000#32 ∧
        Quiet s t [Reg.TIME_CAPCFG, Reg.TIME_CAPSTAT]) ∧
    (s.m.capState = 4 →
      ∃ t, exec (.captureArm cyc (.lane l) v) s = .next t ∧ t.m.capState = 4 ∧
        t.m.time.armPending = (s.m.time.armPending && !v.bit 30) ∧
        t.m.fld Reg.TIME_CAPCFG 29 16 = v.bits 29 16 ∧ Quiet s t [Reg.TIME_CAPCFG]) ∧
    (s.m.capState ≠ 1 → s.m.capState ≠ 2 →
      ∃ t, exec (.captureDisarm cyc (.lane l) v) s = .next t ∧ t.m.time.armPending = false ∧
        t.m.rd Reg.TIME_CAPCFG = v &&& 0x3FFF0000#32 ∧ t.m.capState = s.m.capState ∧ Quiet s t [Reg.TIME_CAPCFG]) ∧
    (s.m.capState = 1 ∨ s.m.capState = 2 →
      ∃ t, exec (.captureDisarm cyc (.lane l) v) s = .next t ∧ t.m.time.armPending = false ∧ t.m.capState = 0 ∧
        t.m.time.lines = s.m.time.lines ∧ Quiet s t [Reg.TIME_CAPCFG, Reg.TIME_CAPSTAT])) ∧
  (∀ (cyc : Nat) (l : Lane) (v : Word) (s : State),
    RoutedElsewhere s l Reg.TIME_CAPCFG (v ||| 0x80000000#32) (exec (.captureArm cyc (.lane l) v) s) ∧
    RoutedElsewhere s l Reg.TIME_CAPCFG ((v ||| 0x40000000#32) &&& 0x7FFFFFFF#32) (exec (.captureDisarm cyc (.lane l) v) s) ∧
    NothingDone s (exec (.captureArm cyc .safety v) s) ∧ NothingDone s (exec (.captureDisarm cyc .safety v) s)) ∧
  (∀ (cyc i : Nat) (s : State) (e : Event), s.m.time.raised[i]? = some e →
    (s.m.fld Reg.TIME_CAPCFG 28 26 ≤ 4 ∧ s.m.fld Reg.TIME_CAPCFG 28 26 ≤ e.cls) ∨
      (s.m.bit Reg.TIME_CAPTRIG 31 = true ∧ s.m.fld Reg.TIME_CAPTRIG 15 0 = e.code) →
    s.m.time.armedSince ≤ e.time →
    (s.m.capState = 1 →
      ∃ t, exec (.eventDelivery cyc i) s = .next t ∧ CaptureTriggers s t e ∧ t.m.time.collator = s.m.time.collator ++ [e] ∧
        t.m.time.raised = s.m.time.raised.eraseIdx i ∧ SameRegsBut s t [Reg.TIME_CAPSTAT] ∧ SameMemory s t) ∧
    (∀ x, s.m.capState = 2 → s.m.time.trigger = some x → e.before x = true → e ≠ x →
      ∃ t, exec (.eventDelivery cyc i) s = .next t ∧ CaptureTriggers s t e ∧ t.m.bit Reg.TIME_CAPSTAT 28 = true ∧
        t.m.time.collator = s.m.time.collator ++ [e] ∧ SameRegsBut s t [Reg.TIME_CAPSTAT] ∧ SameMemory s t) ∧
    (∀ x, s.m.capState = 2 → s.m.time.trigger = some x → e.before x = false ∨ e = x →
      ∃ t, exec (.eventDelivery cyc i) s = .next t ∧ t.m.capState = 2 ∧ t.m.time.trigger = some x ∧
        t.m.time.lines = s.m.time.lines ∧ t.m.time.postLeft = s.m.time.postLeft ∧ t.m.bit Reg.TIME_CAPSTAT 28 = true ∧
        t.m.time.collator = s.m.time.collator ++ [e] ∧ SameRegsBut s t [Reg.TIME_CAPSTAT] ∧ SameMemory s t)) ∧
  (∀ (cyc : Nat) (s : State),
    (s.m.capState = 2 → s.m.time.trigPlaced = true → s.m.time.postLeft = 0 →
      ∃ t, exec (.captureFreeze cyc) s = .next t ∧ t.m.capState = (if s.m.bit Reg.TIME_CAPCFG 29 = true then 4 else 3) ∧
        Raises s t [eventAt (s.at cyc) 0x3C03 0 0xFF (leBytes 2 ((s.m.time.trigger.map (·.code)).getD 0)) 0] ∧
        t.m.bit Reg.TIME_IRQ_STAT 1 = true ∧ t.m.time.lines = s.m.time.lines ∧
        SameRegsBut s t [Reg.TIME_CAPSTAT, Reg.TIME_IRQ_STAT] ∧ SameMemory s t) ∧
    (s.m.capState ≠ 2 ∨ s.m.time.trigPlaced = false ∨ s.m.time.postLeft ≠ 0 →
      ∃ t, exec (.captureFreeze cyc) s = .next t ∧ t.m.time = (s.at cyc).time ∧ Quiet s t [])) ∧
  (∀ (cyc : Nat) (s : State), Memory.wf s.mem = true → s.m.capState = 4 → s.m.time.lines.length ≤ 1024 →
    (∀ x ∈ s.m.time.lines, x.words.length = 16) → (s.m.time.trigger.all fun e => e.data.length ≤ 10) = true →
    let a := 0x200000000 + if s.m.time.nextCopySlot = 0 then 0x07EDC000 else 0x07EED000
    ∃ t, exec (.captureFlashCopy cyc) s = .next t ∧ t.m.capState = 3 ∧ t.m.time.nextCopySlot = 1 - s.m.time.nextCopySlot ∧
      Memory.readN t.mem a 8 = [0x46, 0x43, 0x41, 0x50] ++ leBytes 4 (s.m.rd Reg.TIME_BOOT).toNat ∧
      Memory.readN t.mem (a + 64) (64 * s.m.time.lines.length) =
        (s.m.time.lines.flatMap fun x => x.words.flatMap fun w => leBytes 4 w.toNat) ∧
      (∀ b, b < a ∨ a + 0x11000 ≤ b → Memory.read t.mem b = Memory.read s.mem b) ∧
      Raises s t [eventAt (s.at cyc) 0x3C04 0 0xFF [] 0] ∧ t.m.bit Reg.TIME_IRQ_STAT 2 = true ∧
      SameRegsBut s t [Reg.TIME_CAPSTAT, Reg.TIME_IRQ_STAT]) ∧
  (∀ (cyc : Nat) (s : State), s.m.capState ≠ 4 →
    ∃ t, exec (.captureFlashCopy cyc) s = .next t ∧ t.m.time = (s.at cyc).time ∧ Quiet s t []) ∧
  (∀ (cyc : Nat) (s : State), ∃ t, exec (.captureDataRead cyc) s = .next t ∧ t.m.reply = .data s.m.capWord ∧
      t.m.fld Reg.TIME_CAP_ADDR 13 0 = (s.m.fld Reg.TIME_CAP_ADDR 13 0 + 1) % 2 ^ 14 ∧ Quiet s t [Reg.TIME_CAP_ADDR])

/-! ### Machine safety -/

/-- Two words in force are what both evaluators say: inputs, results, STO and SS1, SLS, and outputs (R410). -/
def wordsAgree (t : State) : Prop :=
  let x := t.m.safe.bed.words
  let y := t.m.safe.sp.words
  t.m.fld Reg.SAFE_INPUTS 15 0 = (x.input &&& y.input) % 2 ^ 16 ∧ t.m.fld Reg.SAFE_FUNC 15 0 = (x.result &&& y.result) % 2 ^ 16 ∧
    t.m.fld Reg.SAFE_STO 15 0 = (x.sto &&& y.sto) % 2 ^ 16 ∧ t.m.fld Reg.SAFE_STO 31 16 = (x.ss1 &&& y.ss1) % 2 ^ 16 ∧
    t.m.rd Reg.SAFE_SLS = BitVec.ofNat 32 (x.sls &&& y.sls) ∧ t.m.fld Reg.SAFE_OUTS 6 0 = (x.outs &&& y.outs) % 2 ^ 7

/-- In its cycle an evaluator filters each input, exchanges its words at the cycle's instant, and what both say comes into force;
a slot of a function without a stop delay whose RESULT is 0 is in its STO word. Without a running tick, or asleep, nothing
happens. Completes: SAFETY_CYCLE. -/
def Obligations.SafetyCyclesFilterDecideAndExchange : Prop :=
  (∀ (cyc : Nat) (sp : Bool) (levels : List (Int × Int)) (s : State), s.m.tick.running = true → s.m.mode ≠ .sleep →
    ∃ t, exec (.safetyCycle cyc sp levels) s = .next t ∧ (t.m.eval sp).lastAt = some (s.at cyc).now ∧
      (t.m.eval (!sp)).lost = false ∧ wordsAgree t ∧ SameMemory s t ∧
      (∀ (i : Fin 16) (x : SafeInput), (s.m.eval sp).inputs[i.val]? = some x →
        nth (t.m.eval sp).inputs i = x.step (s.m.rd (Reg.SAFE_IN_CFG i)) (s.at cyc).now
          ((s.at cyc).pulseMask (s.m.fld (Reg.SAFE_IN_CFG i) 29 26)) ((s.at cyc).pulseMask (s.m.fld (Reg.SAFE_IN_CFG i) 25 22))
          (levels.getD i (0, 0))) ∧
      (∀ f k : Fin 16, t.m.fnOn f = true → k.val ∈ t.m.fnSlots f → (nth (t.m.eval sp).fns f).result = false →
        (t.m.fn0 f).bits 27 26 = 0 → (t.m.eval sp).words.sto.testBit k = true)) ∧
  (∀ (cyc : Nat) (sp : Bool) (levels : List (Int × Int)) (s : State), s.m.tick.running = false ∨ s.m.mode = .sleep →
    ∃ t, exec (.safetyCycle cyc sp levels) s = .next t ∧ t.m.safe = s.m.safe ∧ Quiet s t [])

/-- Input `i` is in fault in an evaluator, and it is told where the other evaluator has not said so before (R402, R403). -/
def InputFaults (s t : State) (sp : Bool) (i : Fin 16) : Prop :=
  (nth (t.m.eval sp).inputs i).fault = true ∧ (nth (t.m.eval sp).inputs i).state = false ∧
    ((nth (s.m.eval (!sp)).inputs i).fault = false → Tells s t 0x4003 1 0xFF ∧ t.m.bit Reg.SAFE_IRQ_STAT 1 = true)

/-- An evaluator that has had no exchange for two cycles withdraws its enables and raises an F4; the safety processor
also asks for SAFE_HOLD. A test pulse that reads back and is seen where it belongs leaves every input as it was; a channel that misses its
own twice in a row, one that sees another output's, and the channels of an output that does not follow are in fault. A discrepancy longer
than its limit is a fault of the input. At the end of a stop delay the slot is under STO, Bedrock's at once in its safe-state command, and
told where it does not stand still. A safe output whose test fails is off and told once. Short of its condition none changes anything.
Completes: EXCHANGE_LOSS, TEST_PULSE, INPUT_DISCREPANCY, SS1_EXPIRY, SAFE_OUTPUT_TEST. Data of event records beyond the spec's, and ORIGIN
and KIND 10 where no rule names them, are the model's choice (log entries 20 and 21). Standstill and the clock of the times follow log
entry 64. -/
def Obligations.SafetyTestsTimersAndTheExchange : Prop :=
  (∀ (cyc t0 : Nat) (s : State), s.m.tick.running = true → s.m.safe.bed.lost = false → s.m.safe.sp.lastAt = some t0 →
    t0 + 2 * s.m.scyc ≤ (s.at cyc).now →
    ∃ t, exec (.exchangeLoss cyc false) s = .next t ∧ t.m.safe.bed.lost = true ∧ t.m.gate.enB = 0 ∧ t.m.gate.enabled = 0 ∧
      t.m.fld Reg.SAFE_OUTS 6 0 = 0 ∧ t.m.bit Reg.SAFE_STATUS 30 = false ∧ t.m.sys.f4 = some (s.m.sys.f4.getD 0x4005) ∧
      Raises s t [eventAt (s.at cyc) 0x4005 4 0xFF [] 0] ∧
      SameRegsBut s t [Reg.SAFE_OUTS, Reg.SAFE_STATUS, Reg.PWR_STATUS] ∧ SameMemory s t) ∧
  (∀ (cyc t0 : Nat) (s : State), s.m.tick.running = true → s.m.safe.sp.lost = false → s.m.safe.bed.lastAt = some t0 →
    t0 + 2 * s.m.scyc ≤ (s.at cyc).now → s.roomy →
    ∃ t, exec (.exchangeLoss cyc true) s = .next t ∧ t.m.safe.sp.lost = true ∧ t.m.gate.enS = 0 ∧ t.m.gate.enabled = 0 ∧
      t.m.fld Reg.SAFE_OUTS 6 0 = 0 ∧ t.m.bit Reg.SAFE_STATUS 31 = false ∧ t.m.sys.f4 = some (s.m.sys.f4.getD 0x4005) ∧
      Enters s t cyc ⟨1, 0, 3, physical Reg.SYS_MODE_REQ % 2 ^ 32, 5, []⟩ ∧
      Raises s t [eventAt (s.at cyc) 0x4005 4 0xFF [] 3] ∧
      SameRegsBut s t [Reg.SAFE_OUTS, Reg.SAFE_STATUS, Reg.PWR_STATUS] ∧ SameMemory s t) ∧
  (∀ (cyc : Nat) (sp : Bool) (s : State), s.m.tick.running = false ∨ (s.m.eval sp).lost = true ∨
      (∀ t0, (s.m.eval (!sp)).lastAt = some t0 → (s.at cyc).now < t0 + 2 * s.m.scyc) →
    ∃ t, exec (.exchangeLoss cyc sp) s = .next t ∧ t.m.safe = s.m.safe ∧ t.m.gate = s.m.gate ∧ Quiet s t []) ∧
  (∀ (cyc : Nat) (sp : Bool) (k : Fin 8) (s : State),
    ∃ t, exec (.testPulse cyc sp k 0xFFFF#16 0xFFFF#16 0#16 0#16 true) s = .next t ∧
      (t.m.eval sp).tps = (s.m.eval sp).tps ||| 2 ^ k.val ∧
      (∀ i : Fin 16, (nth (t.m.eval sp).inputs i).fault = (nth (s.m.eval sp).inputs i).fault) ∧ Quiet s t []) ∧
  (∀ (cyc : Nat) (sp : Bool) (k : Fin 8) (lowA lowB dipA dipB : BitVec 16) (readback : Bool) (s : State),
    ∃ t, exec (.testPulse cyc sp k lowA lowB dipA dipB readback) s = .next t ∧
      (t.m.eval sp).tps = (s.m.eval sp).tps ||| 2 ^ k.val ∧
      (readback = false → t.m.bit Reg.SAFE_OUTS (24 + k.val) = true) ∧
      SameRegsBut s t [Reg.SAFE_OUTS, Reg.SAFE_IRQ_STAT] ∧ SameMemory s t ∧
      ∀ (i : Fin 16) (x : SafeInput), (s.m.eval sp).inputs[i.val]? = some x → x.fault = false →
        let cfg := s.m.rd (Reg.SAFE_IN_CFG i)
        let paired := cfg.bits 31 30 = 1 ∨ cfg.bits 31 30 = 2
        (paired → cfg.bits 29 26 = k.val → lowA.getLsbD i = false → 1 ≤ x.missA → InputFaults s t sp i) ∧
        (paired → cfg.bits 25 22 = k.val → lowB.getLsbD i = false → 1 ≤ x.missB → InputFaults s t sp i) ∧
        (paired → cfg.bits 29 26 ≠ k.val → cfg.bits 29 26 < 8 → dipA.getLsbD i = true → InputFaults s t sp i) ∧
        (paired → cfg.bits 25 22 ≠ k.val → cfg.bits 25 22 < 8 → dipB.getLsbD i = true → InputFaults s t sp i) ∧
        (cfg.bits 31 30 ≠ 0 → cfg.bits 29 26 = k.val ∨ cfg.bits 25 22 = k.val → readback = false → InputFaults s t sp i) ∧
        (paired → cfg.bits 29 26 = k.val → 8 ≤ cfg.bits 25 22 → lowA.getLsbD i = false → x.missA = 0 → readback = true →
          nth (t.m.eval sp).inputs i = { x with missA := 1 })) ∧
  (∀ (cyc t0 : Nat) (sp : Bool) (i : Fin 16) (s : State) (x : SafeInput), (s.m.eval sp).inputs[i.val]? = some x → x.odd = some t0 →
    x.fault = false → t0 + oneMilli * s.m.fld (Reg.SAFE_IN_CFG i) 11 0 < (s.at cyc).now →
    ∃ t, exec (.inputDiscrepancy cyc sp i) s = .next t ∧
      t.m.eval sp = { s.m.eval sp with inputs := upd (s.m.eval sp).inputs i fun x => { x with fault := true, state := false } } ∧
      ((nth (s.m.eval (!sp)).inputs i).fault = false → Raises s t [eventAt (s.at cyc) 0x4003 1 0xFF [1] 0] ∧
        t.m.bit Reg.SAFE_IRQ_STAT 1 = true ∧ SameRegsBut s t [Reg.SAFE_IRQ_STAT] ∧ SameMemory s t) ∧
      ((nth (s.m.eval (!sp)).inputs i).fault = true → Quiet s t [])) ∧
  (∀ (cyc : Nat) (sp : Bool) (i : Fin 16) (s : State), (nth (s.m.eval sp).inputs i).fault = true ∨
      (∀ t0, (nth (s.m.eval sp).inputs i).odd = some t0 → (s.at cyc).now ≤ t0 + oneMilli * s.m.fld (Reg.SAFE_IN_CFG i) 11 0) →
    ∃ t, exec (.inputDiscrepancy cyc sp i) s = .next t ∧ t.m.safe = s.m.safe ∧ Quiet s t []) ∧
  (∀ (cyc t0 : Nat) (sp : Bool) (k : Fin 16) (s : State), nth (s.m.eval sp).ss1 k = some t0 → t0 ≤ (s.at cyc).now →
    (sp = true ∨ (s.m.tick.running = false ∨ s.m.hasSlot k = false ∨ (s.m.eval sp).words.sto.testBit k = true) ∧
        (s.at cyc).still k = true →
      ∃ t, exec (.ss1Expiry cyc sp k) s = .next t ∧ nth (t.m.eval sp).ss1 k = none ∧
        (t.m.eval sp).words.sto = (s.m.eval sp).words.sto ||| 2 ^ k.val ∧ Quiet s t []) ∧
    (sp = false → s.m.tick.running = true → s.m.hasSlot k = true → (s.m.eval sp).words.sto.testBit k = false →
      ∃ t, exec (.ss1Expiry cyc sp k) s = .next t ∧ nth (t.m.eval sp).ss1 k = none ∧
        (t.m.eval sp).words.sto = (s.m.eval sp).words.sto ||| 2 ^ k.val ∧
        (k < s.m.lane.slots.length → (t.m.sv k).exec = some ((s.at cyc).safeFrame k s.m.seq (s.m.lastEmfhi k))) ∧
        ((s.at cyc).still k = false → Tells s t 0x4007 3 k ∧ t.m.bit Reg.SAFE_IRQ_STAT 2 = true) ∧ SameMemory s t) ∧
    (sp = false → s.m.tick.running = false ∨ s.m.hasSlot k = false ∨ (s.m.eval sp).words.sto.testBit k = true →
      (s.at cyc).still k = false → s.roomy →
      ∃ t, exec (.ss1Expiry cyc sp k) s = .next t ∧ nth (t.m.eval sp).ss1 k = none ∧
        (t.m.eval sp).words.sto = (s.m.eval sp).words.sto ||| 2 ^ k.val ∧ SlotFault s t cyc 0x4007 k [] ∧
        t.m.bit Reg.SAFE_IRQ_STAT 2 = true ∧ SameRegsBut s t [Reg.SAFE_IRQ_STAT] ∧ SameMemory s t)) ∧
  (∀ (cyc : Nat) (sp : Bool) (k : Fin 16) (s : State),
    (∀ t0, nth (s.m.eval sp).ss1 k = some t0 → (s.at cyc).now < t0) →
    ∃ t, exec (.ss1Expiry cyc sp k) s = .next t ∧ t.m.safe = s.m.safe ∧ t.m.gate = s.m.gate ∧ Quiet s t []) ∧
  (∀ (cyc : Nat) (sp : Bool) (o : Fin 4) (s : State),
    (∃ t, exec (.safeOutputTest cyc sp o true) s = .next t ∧
      t.m.eval sp = { s.m.eval sp with tests := (s.m.eval sp).tests ||| 2 ^ o.val } ∧ Quiet s t []) ∧
    (s.m.bit Reg.SAFE_OUTS (20 + o.val) = true →
      ∃ t, exec (.safeOutputTest cyc sp o false) s = .next t ∧
        t.m.eval sp = { s.m.eval sp with tests := (s.m.eval sp).tests ||| 2 ^ o.val } ∧ Quiet s t []) ∧
    (s.m.bit Reg.SAFE_OUTS (20 + o.val) = false →
      ∃ t, exec (.safeOutputTest cyc sp o false) s = .next t ∧ t.m.bit Reg.SAFE_OUTS (20 + o.val) = true ∧
        t.m.bit Reg.SAFE_OUTS o = false ∧ t.m.bit Reg.SAFE_IRQ_STAT 3 = true ∧
        Raises s t [eventAt (s.at cyc) 0x4008 1 0xFF [] 0] ∧ SameRegsBut s t [Reg.SAFE_OUTS, Reg.SAFE_IRQ_STAT] ∧
        SameMemory s t))

/-! ### The safe channel and sessions -/

/-- The registers that a received message writes. -/
def aeRegs (c : Nat) : List Nat :=
  [Reg.SAFE_AEDDY, Reg.SAFE_AECNT, Reg.SAFE_IRQ_STAT] ++ (List.range 12).map (Reg.SAFE_MBOX_RX c)

/-- The message that stands at the front for the safety processor, the connection that it is for and that connection's own part
(R419, R420 check 1). -/
def AeComes (s : State) (rest : List (Nat × List Nat)) (c : Nat) (x : AeMsg) (y : AeConn) : Prop :=
  ∃ f frame, s.m.net.safetyInbox = (f, frame) :: rest ∧ AeMsg.ofBytes (aeBytes (s.m.flowPort f) frame) = some x ∧
    ((List.range 8).find? fun c => (s.m.aeCfg c).bit 31 && (s.m.aeCfg c).bits 29 24 == f &&
      (s.m.rd (Reg.SAFE_AE_CFG_W0 c)).toNat == x.cid) = some c ∧ s.m.safe.conns[c]? = some y

/-- A failed connection that AEACK makes valid (R421). -/
def aeAcked (m : Mach) (c : Nat) : Bool :=
  (m.aeCfg c).bit 31 && (m.aeCfg c).bit 30 && m.aeState c == 3 && decide (4 ≤ (m.conn c).okRun)

/-- A message with the right CRC, watchdog value, sequence and acknowledgement is accepted: its bits are taken under the mask, or read 0
with the failsafe flag, its data go to the mailbox, what was skipped before it counts, a waiting connection becomes valid and a failed one
without AEACK with its fourth good message; a duplicate changes nothing; any other is an error of its connection, counted, the first of a
run told with 0x400B, and the eighth fails the connection with 0x4009; a message that no connection answers for is discarded, counted and
the first of a run told. A valid connection fails when its watchdog runs out, and not before. AEACK makes each failed connection valid that
waits for it and has received four good messages. A connection in use sends its message in the form of R418, on Ethernet with a destination
that the spec leaves open; a port whose queue is full discards it. A write of SAFE_CMD routes as any device-wide write, and the safety
processor's is ignored. Completes: AEDDY_RECEIVE, AEDDY_WATCHDOG_EXPIRY, AEDDY_ACK, AEDDY_TRANSMIT. Data of event records beyond the spec's,
and ORIGIN and KIND 10 where no rule names them, are the model's choice (log entries 20 and 21). -/
def Obligations.SafeChannelMessages : Prop :=
  (∀ (cyc : Nat) (s : State) (rest : List (Nat × List Nat)) (c : Nat) (x : AeMsg) (y : AeConn), AeComes s rest c x y →
    let good := s.m.aeCrc c x.body = x.crc ∧ (s.m.aeCfg c).bits 9 0 = x.wd
    let seq := y.sequence ((s.m.aeCfg c).bits 17 10) x
    (∀ lost, good → seq = some (true, lost) → y.ackOk x = true →
      let recovers := s.m.aeState c = 3 ∧ 3 ≤ y.okRun ∧ (s.m.aeCfg c).bit 30 = false
      ∃ t, exec (.aeddyReceive cyc) s = .next t ∧ t.m.net.safetyInbox = rest ∧
        t.m.aeState c = (if s.m.aeState c = 1 ∨ recovers then 2 else s.m.aeState c) ∧
        t.m.safe = { s.m.safe with
          strayTold := false
          conns := upd s.m.safe.conns c fun y => { y with
            last := some x.seq, wdAt := (s.at cyc).now, errRun := 0, okRun := min (y.okRun + 1) 4, told := false
            bits := if x.flags.testBit 0 then 0 else ofLeBytes (x.payload.take 2) &&& s.m.fld (Reg.SAFE_AE_CFG_W2 c) 31 16 } } ∧
        t.m.fld Reg.SAFE_AECNT 15 0 = min (s.m.fld Reg.SAFE_AECNT 15 0 + lost) 0xFFFF ∧
        t.m.fld Reg.SAFE_AECNT 31 16 = s.m.fld Reg.SAFE_AECNT 31 16 ∧
        (∀ w : Fin 12, (t.m.rd (Reg.SAFE_MBOX_RX c w)).toNat =
          ofLeBytes (((padTo 48 (x.payload.drop 2)).drop (4 * w.val)).take 4) % 2 ^ 32) ∧
        t.m.bit Reg.SAFE_IRQ_STAT 6 = true ∧
        Raises s t (if recovers then [eventAt (s.at cyc) 0x400A 0 0xFF [] 0] else []) ∧
        SameRegsBut s t (aeRegs c) ∧ SameMemory s t) ∧
    (good → seq = none →
      ∃ t, exec (.aeddyReceive cyc) s = .next t ∧ t.m.net.safetyInbox = rest ∧ t.m.safe = s.m.safe ∧ Quiet s t []) ∧
    (¬good ∨ (∃ lost, seq = some (false, lost)) ∨ ((∃ lost, seq = some (true, lost)) ∧ y.ackOk x = false) →
      let fails := 7 ≤ y.errRun ∧ s.m.aeState c ≠ 3
      ∃ t, exec (.aeddyReceive cyc) s = .next t ∧ t.m.net.safetyInbox = rest ∧
        t.m.aeState c = (if fails then 3 else s.m.aeState c) ∧
        t.m.safe = { s.m.safe with
          conns := upd s.m.safe.conns c fun y =>
            if fails then { y with errRun := 0, okRun := 0, told := true, bits := 0 }
            else { y with errRun := y.errRun + 1, okRun := 0, told := true } } ∧
        t.m.fld Reg.SAFE_AECNT 31 16 = min (s.m.fld Reg.SAFE_AECNT 31 16 + 1) 0xFFFF ∧
        t.m.fld Reg.SAFE_AECNT 15 0 = s.m.fld Reg.SAFE_AECNT 15 0 ∧
        Raises s t ((if y.told then [] else [eventAt (s.at cyc) 0x400B 0 0xFF [] 0]) ++
          (if fails then [eventAt (s.at cyc) 0x4009 1 0xFF [] 0] else [])) ∧
        (y.told = false ∨ fails → t.m.bit Reg.SAFE_IRQ_STAT 4 = true) ∧
        SameRegsBut s t [Reg.SAFE_AEDDY, Reg.SAFE_AECNT, Reg.SAFE_IRQ_STAT] ∧ SameMemory s t)) ∧
  (∀ (cyc : Nat) (s : State) (f : Nat) (frame : List Nat) (rest : List (Nat × List Nat)),
    s.m.net.safetyInbox = (f, frame) :: rest →
    (∀ x, AeMsg.ofBytes (aeBytes (s.m.flowPort f) frame) = some x → ∀ c : Fin 8,
      ((s.m.aeCfg c).bit 31 && (s.m.aeCfg c).bits 29 24 == f && (s.m.rd (Reg.SAFE_AE_CFG_W0 c)).toNat == x.cid) = false) →
    ∃ t, exec (.aeddyReceive cyc) s = .next t ∧ t.m.net.safetyInbox = rest ∧ t.m.safe = { s.m.safe with strayTold := true } ∧
      t.m.fld Reg.SAFE_AECNT 31 16 = min (s.m.fld Reg.SAFE_AECNT 31 16 + 1) 0xFFFF ∧
      t.m.fld Reg.SAFE_AECNT 15 0 = s.m.fld Reg.SAFE_AECNT 15 0 ∧
      Raises s t (if s.m.safe.strayTold then [] else [eventAt (s.at cyc) 0x400B 0 0xFF [] 0]) ∧
      SameRegsBut s t [Reg.SAFE_AECNT, Reg.SAFE_IRQ_STAT] ∧ SameMemory s t) ∧
  (∀ (cyc : Nat) (s : State), s.m.net.safetyInbox = [] →
    ∃ t, exec (.aeddyReceive cyc) s = .next t ∧ t.m.safe = s.m.safe ∧ t.m.net = s.m.net ∧ Quiet s t []) ∧
  (∀ (cyc : Nat) (c : Fin 8) (s : State),
    let due := s.m.aeState c = 2 ∧ (s.m.conn c).wdAt + oneMilli * (s.m.aeCfg c).bits 9 0 ≤ (s.at cyc).now
    (due → ∃ t, exec (.aeddyWatchdogExpiry cyc c) s = .next t ∧ t.m.aeState c = 3 ∧
      t.m.safe = { s.m.safe with
        conns := upd s.m.safe.conns c fun y => { y with errRun := 0, okRun := 0, bits := 0 } } ∧
      Raises s t [eventAt (s.at cyc) 0x4009 1 0xFF [] 0] ∧ t.m.bit Reg.SAFE_IRQ_STAT 4 = true ∧
      (∀ d : Fin 8, d ≠ c → t.m.aeState d = s.m.aeState d) ∧
      SameRegsBut s t [Reg.SAFE_AEDDY, Reg.SAFE_IRQ_STAT] ∧ SameMemory s t) ∧
    (¬due → ∃ t, exec (.aeddyWatchdogExpiry cyc c) s = .next t ∧ t.m.safe = s.m.safe ∧ Quiet s t [])) ∧
  (∀ (cyc : Nat) (l : Lane) (v : Word) (s : State),
    (s.m.route l = .now → v.bit 0 = true →
      let acked := (List.range 8).filter (aeAcked s.m)
      ∃ t, exec (.aeddyAck cyc (.lane l) v) s = .next t ∧ t.m.safe = s.m.safe ∧
        (∀ c : Fin 8, t.m.aeState c = (if aeAcked s.m c then 2 else s.m.aeState c)) ∧
        (acked ≠ [] → t.m.bit Reg.SAFE_IRQ_STAT 4 = true) ∧
        Raises s t (acked.map fun _ => eventAt (s.at cyc) 0x400A 0 0xFF [] 0) ∧
        SameRegsBut s t [Reg.SAFE_AEDDY, Reg.SAFE_IRQ_STAT] ∧ SameMemory s t) ∧
    (s.m.route l = .now → v.bit 0 = false →
      ∃ t, exec (.aeddyAck cyc (.lane l) v) s = .next t ∧ t.m.safe = s.m.safe ∧ Quiet s t []) ∧
    RoutedElsewhere s l Reg.SAFE_CMD v (exec (.aeddyAck cyc (.lane l) v) s) ∧
    NothingDone s (exec (.aeddyAck cyc .safety v) s)) ∧
  (∀ (cyc : Nat) (c : Fin 8) (s : State),
    let sends := (s.m.aeCfg c).bit 31 = true ∧ s.m.mode ≠ .sleep ∧ s.m.pwr.booted = true
    (∀ y, sends → s.m.safe.conns[c.val]? = some y →
      let f := (s.m.aeCfg c).bits 23 18
      let q := s.m.flowPort f
      let failsafe := s.m.safe.sp.lost || s.m.safe.bed.lost || (s.m.mode == .safeHold && s.m.sys.holdByF4)
      let bits := s.m.fld Reg.SAFE_FUNC 15 0 &&& s.m.fld (Reg.SAFE_AE_CFG_W2 c) 15 0
      let body := leBytes 4 (s.m.rd (Reg.SAFE_AE_CFG_W0 c)).toNat ++ leBytes 2 y.sent ++ leBytes 2 (y.last.getD 0) ++
        [failsafe.toNat + 2 * (y.sent == 0).toNat, 48] ++ leBytes 2 ((s.m.aeCfg c).bits 9 0) ++ leBytes 2 bits ++
        ((List.range 12).flatMap fun w => leBytes 4 (s.m.rd (Reg.SAFE_MBOX_TX c w)).toNat).take 46
      let msg := body ++ leBytes 4 (s.m.aeCrc c body)
      let src := leBytes 4 (s.m.rd (Reg.NET_P_MACLO q)).toNat ++ leBytes 2 (s.m.fld (Reg.NET_P_MACHI q) 15 0)
      let vid := s.m.fld (Reg.NET_FLOW_W1 f) 31 20
      ∃ t dst pri, exec (.aeddyTransmit cyc c) s = .next t ∧ dst.length = 6 ∧ pri < 16 ∧
        t.m.safe = { s.m.safe with conns := upd s.m.safe.conns c fun y => { y with sent := y.sent + 1 } } ∧
        t.m.bit Reg.SAFE_IRQ_STAT 7 = true ∧
        Queued s t cyc ⟨f, if 3 ≤ q then msg else
          dst ++ src ++ (if vid = 0xFFF then [] else [0x81, 0x00] ++ beBytes 2 (pri * 2 ^ 12 + vid)) ++
            beBytes 2 ((s.m.flow f).bits 15 0) ++ msg, s.m.seq, 0⟩ [Reg.SAFE_IRQ_STAT]) ∧
    (¬sends → ∃ t, exec (.aeddyTransmit cyc c) s = .next t ∧ t.m.safe = s.m.safe ∧ t.m.net = s.m.net ∧ Quiet s t []))

/-- A write of the service lane to a duty of its own applies at once (R300, R302). -/
abbrev DutyNow (s : State) (l : Lane) : Prop :=
  (s.m.inTick l && s.m.pairedLive) = false ∧ s.m.service = l ∧ (s.m.admitted l = true ∨ s.m.tick.running = false)

/-- A lane's write to a duty where it does not apply at once (R300, R302): of two lanes LIVE and paired one in tick context is
collected; any other of the lane that is not the service lane, or is not admitted, is counted. -/
def DutyElsewhere (s : State) (l : Lane) (a : Nat) (w : Word) (o : Host.Outcome State Fault Refusal) : Prop :=
  (s.m.inTick l = true → s.m.pairedLive = true → WriteCollected s l a w o) ∧
    (s.m.inTick l = false ∨ s.m.pairedLive = false →
      s.m.service ≠ l ∨ (s.m.admitted l = false ∧ s.m.tick.running = true) → WriteCounted s o)

/-- The change log has taken the entry of this KIND and DETAIL in its next place, in a newly opened sector where the last was full, and
nothing else of memory changed (R427). -/
def LogTakes (s t : State) (cyc kind detail : Nat) : Prop :=
  let x := (s.at cyc).logOpen s.mem
  let a := logSectorAt x.1.safe.logSector + 64 * (x.1.safe.logSlot + 1)
  Memory.readN t.mem a 64 = ((s.at cyc).logForm ((s.m.rd Reg.SAFE_LOG_STAT).toNat + 1) kind detail 0 0).map (· % 256) ∧
    t.m.rd Reg.SAFE_LOG_STAT = s.m.rd Reg.SAFE_LOG_STAT + 1#32 ∧ t.m.safe.logSlot = x.1.safe.logSlot + 1 ∧
    t.m.safe.logSector = x.1.safe.logSector ∧
    ∀ b, b < a ∨ a + 64 ≤ b → Memory.read t.mem b = Memory.read x.2 b

/-- The entry of the change log did not verify: its place is used up, and nothing else of memory changed but what opening a sector does
(R427). -/
def LogLoses (s t : State) (cyc : Nat) : Prop :=
  let x := (s.at cyc).logOpen s.mem
  let a := logSectorAt x.1.safe.logSector + 64 * (x.1.safe.logSlot + 1)
  t.m.rd Reg.SAFE_LOG_STAT = s.m.rd Reg.SAFE_LOG_STAT ∧ t.m.safe.logSlot = x.1.safe.logSlot + 1 ∧
    t.m.safe.logSector = x.1.safe.logSector ∧
    ∀ b, b < a ∨ a + 64 ≤ b → Memory.read t.mem b = Memory.read x.2 b

/-- An attempt has failed for this REASON: it counts, and from the third in a row on a lockout begins (R424, R425). -/
def AttemptFails (s t : State) (cyc reason : Nat) : Prop :=
  let n := min (s.m.fld Reg.SAFE_SESS_STAT 23 16 + 1) 255
  let d := if n < 3 then 0 else min (60 * 2 ^ (min n 9 - 3)) 3840
  t.m.fld Reg.SAFE_SESS_STAT 27 24 = reason ∧ t.m.fld Reg.SAFE_SESS_STAT 23 16 = n ∧ t.m.safe.tried = [] ∧
    (n < 3 → t.m.sess = 0 ∧ t.m.bit Reg.SAFE_STATUS 27 = false) ∧
    (3 ≤ n → t.m.sess = 3 ∧ t.m.bit Reg.SAFE_STATUS 27 = true ∧ t.m.fld Reg.SAFE_SESS_STAT 15 0 = d ∧
      t.m.safe.lockUntil = (s.at cyc).now + d * oneSecond)

/-- A command of a session is refused for this REASON with 0x400D, and nothing else of registers and memory changed. -/
def SessionRefused (s t : State) (cyc reason : Nat) : Prop :=
  t.m.fld Reg.SAFE_SESS_STAT 27 24 = reason ∧ t.m.sess = s.m.sess ∧ t.m.bit Reg.SAFE_IRQ_STAT 5 = true ∧
    Raises s t [eventAt (s.at cyc) 0x400D 0 0xFF [] 0] ∧
    SameRegsBut s t [Reg.SAFE_SESS_STAT, Reg.SAFE_IRQ_STAT] ∧ SameMemory s t

/-- A command that the session's state does not admit is refused with 0x400D and leaves all else. -/
def SessionUnmoved (s t : State) (cyc : Nat) : Prop :=
  t.m.safe = s.m.safe ∧ t.m.bit Reg.SAFE_IRQ_STAT 5 = true ∧ Raises s t [eventAt (s.at cyc) 0x400D 0 0xFF [] 0] ∧
    SameRegsBut s t [Reg.SAFE_IRQ_STAT] ∧ SameMemory s t

/-- OPEN takes the password, clears its buffer and checks it; it is refused while a session is open or checked, outside STANDBY, in a
lockout, and for a password out of its form. The session opens when the hash matches and the log entry stands; it fails with REASON 1
where the hash does not match, with 4 where the entry does not stand and with 2 where STANDBY was left, the first two counted, from the
third on with a lockout. CLOSE and the inactivity limit close it with an entry, CLOSE not in SERVICE and not where its entry does not
stand; a lockout ends at its time. SETPW stores a new record in the other sector, refused without a session, for a password out of its
form, and where its entry does not stand. A write of SAFE_SESS_CMD counts for the service lane alone, and the safety processor's is
ignored. Completes: SESSION_OPEN, PASSWORD_CHECK_COMPLETE, SESSION_CLOSE, SESSION_TIMEOUT, SESSION_LOCKOUT_EXPIRY, SET_PASSWORD. Data of
event records beyond the spec's, and ORIGIN and KIND 10 where no rule names them, are the model's choice (log entries 20 and 21). -/
def Obligations.SessionsOpenCloseAndSetPasswords : Prop :=
  (∀ (cyc : Nat) (l : Lane) (v : Word) (s : State), DutyNow s l →
    let pw := s.m.pwBytes (v.bits 5 0)
    (s.m.sess = 1 ∨ s.m.sess = 2 → ∃ t, exec (.sessionOpen cyc (.lane l) v) s = .next t ∧ SessionUnmoved s t cyc) ∧
    (s.m.sess ≠ 1 → s.m.sess ≠ 2 → s.m.mode ≠ .standby →
      ∃ t, exec (.sessionOpen cyc (.lane l) v) s = .next t ∧ SessionRefused s t cyc 2 ∧ t.m.safe = s.m.safe) ∧
    (s.m.sess = 3 → s.m.mode = .standby →
      ∃ t, exec (.sessionOpen cyc (.lane l) v) s = .next t ∧ SessionRefused s t cyc 3 ∧ t.m.safe = s.m.safe) ∧
    (s.m.sess = 0 → s.m.mode = .standby → pwOk (v.bits 5 0) pw = false →
      ∃ t, exec (.sessionOpen cyc (.lane l) v) s = .next t ∧ SessionRefused s t cyc 5 ∧ t.m.safe = s.m.safe) ∧
    (s.m.sess = 0 → s.m.mode = .standby → pwOk (v.bits 5 0) pw = true →
      ∃ t, exec (.sessionOpen cyc (.lane l) v) s = .next t ∧ t.m.sess = 1 ∧
        t.m.safe = { s.m.safe with
          tried := pw, who := (List.range 4).flatMap fun w => leBytes 4 (s.m.rd (Reg.SAFE_WHO w)).toNat } ∧
        (∀ w : Fin 8, t.m.rd (Reg.SAFE_PW_BUF w) = 0#32) ∧
        Quiet s t ([Reg.SAFE_SESS_STAT, Reg.SAFE_STATUS] ++ (List.range 8).map Reg.SAFE_PW_BUF))) ∧
  (∀ (cyc : Nat) (ok : Bool) (l : Lane) (v : Word) (s : State),
    DutyElsewhere s l Reg.SAFE_SESS_CMD (v.withBits 31 28 1) (exec (.sessionOpen cyc (.lane l) v) s) ∧
    DutyElsewhere s l Reg.SAFE_SESS_CMD (v.withBits 31 28 2) (exec (.sessionClose cyc (.lane l) v ok) s) ∧
    DutyElsewhere s l Reg.SAFE_SESS_CMD (v.withBits 31 28 3) (exec (.setPassword cyc (.lane l) v ok) s) ∧
    NothingDone s (exec (.sessionOpen cyc .safety v) s) ∧ NothingDone s (exec (.sessionClose cyc .safety v ok) s) ∧
    NothingDone s (exec (.setPassword cyc .safety v ok) s)) ∧
  (∀ (cyc : Nat) (s : State), Memory.wf s.mem = true → s.m.sess = 1 → s.m.mode = .standby →
    let right := passwordHash s.m.safe.pw.salt s.m.safe.tried s.m.safe.pw.iter = s.m.safe.pw.hash
    (right → ∃ t, exec (.passwordCheckComplete cyc true) s = .next t ∧ t.m.sess = 2 ∧ t.m.bit Reg.SAFE_STATUS 28 = true ∧
      t.m.safe.tried = [] ∧ t.m.safe.sessAt = (s.at cyc).now ∧ t.m.fld Reg.SAFE_SESS_STAT 27 16 = 0 ∧ LogTakes s t cyc 1 0 ∧
      Raises s t [eventAt (s.at cyc) 0x400C 0 0xFF [] 0] ∧
      SameRegsBut s t [Reg.SAFE_SESS_STAT, Reg.SAFE_STATUS, Reg.SAFE_IRQ_STAT, Reg.SAFE_LOG_STAT]) ∧
    (right → ∃ t, exec (.passwordCheckComplete cyc false) s = .next t ∧ AttemptFails s t cyc 4 ∧ LogLoses s t cyc ∧
      Raises s t [eventAt (s.at cyc) 0x4010 0 0xFF [] 0, eventAt (s.at cyc) 0x400D 0 0xFF [] 0] ∧
      SameRegsBut s t [Reg.SAFE_SESS_STAT, Reg.SAFE_STATUS, Reg.SAFE_IRQ_STAT]) ∧
    (¬right → ∃ t, exec (.passwordCheckComplete cyc true) s = .next t ∧ AttemptFails s t cyc 1 ∧ LogTakes s t cyc 2 1 ∧
      Raises s t [eventAt (s.at cyc) 0x400D 0 0xFF [] 0] ∧
      SameRegsBut s t [Reg.SAFE_SESS_STAT, Reg.SAFE_STATUS, Reg.SAFE_IRQ_STAT, Reg.SAFE_LOG_STAT]) ∧
    (¬right → ∃ t, exec (.passwordCheckComplete cyc false) s = .next t ∧ AttemptFails s t cyc 1 ∧ LogLoses s t cyc ∧
      Raises s t [eventAt (s.at cyc) 0x4010 0 0xFF [] 0, eventAt (s.at cyc) 0x400D 0 0xFF [] 0] ∧
      SameRegsBut s t [Reg.SAFE_SESS_STAT, Reg.SAFE_STATUS, Reg.SAFE_IRQ_STAT])) ∧
  (∀ (cyc : Nat) (ok : Bool) (s : State),
    (s.m.sess = 1 → s.m.mode ≠ .standby →
      ∃ t, exec (.passwordCheckComplete cyc ok) s = .next t ∧ t.m.sess = 0 ∧ t.m.fld Reg.SAFE_SESS_STAT 27 24 = 2 ∧
        t.m.safe = { s.m.safe with tried := [] } ∧ Raises s t [eventAt (s.at cyc) 0x400D 0 0xFF [] 0] ∧
        SameRegsBut s t [Reg.SAFE_SESS_STAT, Reg.SAFE_STATUS, Reg.SAFE_IRQ_STAT] ∧ SameMemory s t) ∧
    (s.m.sess ≠ 1 → ∃ t, exec (.passwordCheckComplete cyc ok) s = .next t ∧ t.m.safe = s.m.safe ∧ Quiet s t [])) ∧
  (∀ (cyc : Nat) (ok : Bool) (l : Lane) (v : Word) (s : State), Memory.wf s.mem = true → DutyNow s l →
    (s.m.sess ≠ 2 → ∃ t, exec (.sessionClose cyc (.lane l) v ok) s = .next t ∧ SessionUnmoved s t cyc) ∧
    (s.m.sess = 2 → s.m.mode = .service →
      ∃ t, exec (.sessionClose cyc (.lane l) v ok) s = .next t ∧ SessionRefused s t cyc 2) ∧
    (s.m.sess = 2 → s.m.mode ≠ .service →
      (∃ t, exec (.sessionClose cyc (.lane l) v true) s = .next t ∧ t.m.sess = 0 ∧ t.m.bit Reg.SAFE_STATUS 28 = false ∧
        LogTakes s t cyc 3 0 ∧ Raises s t [eventAt (s.at cyc) 0x400E 0 0xFF [] 0] ∧
        SameRegsBut s t [Reg.SAFE_SESS_STAT, Reg.SAFE_STATUS, Reg.SAFE_IRQ_STAT, Reg.SAFE_LOG_STAT]) ∧
      (∃ t, exec (.sessionClose cyc (.lane l) v false) s = .next t ∧ t.m.sess = 2 ∧ t.m.fld Reg.SAFE_SESS_STAT 27 24 = 4 ∧
        LogLoses s t cyc ∧ Raises s t [eventAt (s.at cyc) 0x4010 0 0xFF [] 0, eventAt (s.at cyc) 0x400D 0 0xFF [] 0] ∧
        SameRegsBut s t [Reg.SAFE_SESS_STAT, Reg.SAFE_IRQ_STAT]))) ∧
  (∀ (cyc : Nat) (s : State),
    let due := s.m.sess = 2 ∧ s.m.mode ≠ .service ∧ s.m.safe.sessAt + s.m.image.sesstmo * oneSecond ≤ (s.at cyc).now
    (Memory.wf s.mem = true → due →
      (∃ t, exec (.sessionTimeout cyc true) s = .next t ∧ t.m.sess = 0 ∧ t.m.bit Reg.SAFE_STATUS 28 = false ∧
        LogTakes s t cyc 3 1 ∧ Raises s t [eventAt (s.at cyc) 0x400E 0 0xFF [] 0] ∧
        SameRegsBut s t [Reg.SAFE_SESS_STAT, Reg.SAFE_STATUS, Reg.SAFE_IRQ_STAT, Reg.SAFE_LOG_STAT]) ∧
      (∃ t, exec (.sessionTimeout cyc false) s = .next t ∧ t.m.sess = 0 ∧ t.m.bit Reg.SAFE_STATUS 28 = false ∧
        LogLoses s t cyc ∧ Raises s t [eventAt (s.at cyc) 0x4010 0 0xFF [] 0, eventAt (s.at cyc) 0x400E 0 0xFF [] 0] ∧
        SameRegsBut s t [Reg.SAFE_SESS_STAT, Reg.SAFE_STATUS, Reg.SAFE_IRQ_STAT])) ∧
    (¬due → ∀ ok, ∃ t, exec (.sessionTimeout cyc ok) s = .next t ∧ t.m.safe = s.m.safe ∧ Quiet s t [])) ∧
  (∀ (cyc : Nat) (s : State),
    let due := s.m.sess = 3 ∧ s.m.safe.lockUntil ≤ (s.at cyc).now
    (due → ∃ t, exec (.sessionLockoutExpiry cyc) s = .next t ∧ t.m.sess = 0 ∧ t.m.bit Reg.SAFE_STATUS 27 = false ∧
      t.m.fld Reg.SAFE_SESS_STAT 15 0 = 0 ∧ t.m.fld Reg.SAFE_SESS_STAT 23 16 = s.m.fld Reg.SAFE_SESS_STAT 23 16 ∧
      Quiet s t [Reg.SAFE_SESS_STAT, Reg.SAFE_STATUS]) ∧
    (¬due → ∃ t, exec (.sessionLockoutExpiry cyc) s = .next t ∧ t.m.safe = s.m.safe ∧ Quiet s t [])) ∧
  (∀ (cyc : Nat) (ok : Bool) (l : Lane) (v : Word) (s : State), DutyNow s l →
    let pw := s.m.pwBytes (v.bits 5 0)
    (s.m.sess ≠ 2 → ∃ t, exec (.setPassword cyc (.lane l) v ok) s = .next t ∧ SessionUnmoved s t cyc) ∧
    (s.m.sess = 2 → pwOk (v.bits 5 0) pw = false →
      ∃ t, exec (.setPassword cyc (.lane l) v ok) s = .next t ∧ SessionRefused s t cyc 5 ∧ t.m.safe.pw = s.m.safe.pw) ∧
    (Memory.wf s.mem = true → s.m.sess = 2 → pwOk (v.bits 5 0) pw = true →
      let x := (s.at cyc).logOpen s.mem
      let a := logSectorAt x.1.safe.logSector + 64 * (x.1.safe.logSlot + 1)
      let p := pwSector (1 - s.m.safe.pw.sector)
      (∃ t salt, exec (.setPassword cyc (.lane l) v true) s = .next t ∧ t.m.sess = 2 ∧
        t.m.safe.pw = ⟨s.m.safe.pw.gen + 1, s.m.safe.pw.iter, salt, passwordHash salt pw s.m.safe.pw.iter,
          1 - s.m.safe.pw.sector⟩ ∧
        (∀ w : Fin 8, t.m.rd (Reg.SAFE_PW_BUF w) = 0#32) ∧ t.m.rd Reg.SAFE_LOG_STAT = s.m.rd Reg.SAFE_LOG_STAT + 1#32 ∧
        Memory.readN t.mem a 64 =
          ((s.at cyc).logForm ((s.m.rd Reg.SAFE_LOG_STAT).toNat + 1) 4 0 0 0).map (· % 256) ∧
        Memory.readN t.mem p 68 = t.m.safe.pw.bytes.map (· % 256) ∧
        (∀ b, p + 68 ≤ b → b < p + 4096 → Memory.read t.mem b = Memory.unlisted b) ∧
        (∀ b, (b < a ∨ a + 64 ≤ b) → (b < p ∨ p + 4096 ≤ b) → Memory.read t.mem b = Memory.read x.2 b) ∧
        Raises s t [] ∧ SameRegsBut s t (Reg.SAFE_LOG_STAT :: (List.range 8).map Reg.SAFE_PW_BUF)) ∧
      (∃ t, exec (.setPassword cyc (.lane l) v false) s = .next t ∧ t.m.sess = 2 ∧ t.m.safe.pw = s.m.safe.pw ∧
        (∀ w : Fin 8, t.m.rd (Reg.SAFE_PW_BUF w) = 0#32) ∧ t.m.fld Reg.SAFE_SESS_STAT 27 24 = 4 ∧ LogLoses s t cyc ∧
        Raises s t [eventAt (s.at cyc) 0x4010 0 0xFF [] 0, eventAt (s.at cyc) 0x400D 0 0xFF [] 0] ∧
        SameRegsBut s t ([Reg.SAFE_SESS_STAT, Reg.SAFE_IRQ_STAT] ++ (List.range 8).map Reg.SAFE_PW_BUF))))

/-! ### Images, commit records and keys -/

/-- A command of IMG or of the keys is refused with 0x4407, and nothing else of registers and memory changed. -/
def ImageRefused (s t : State) (cyc : Nat) : Prop :=
  Raises s t [eventAt (s.at cyc) 0x4407 0 0xFF [] 0] ∧ t.m.bit Reg.IMG_IRQ_STAT 3 = true ∧ t.m.img = s.m.img ∧
    t.m.pwr.due = s.m.pwr.due ∧ SameRegsBut s t [Reg.IMG_IRQ_STAT] ∧ SameMemory s t

/-- The staging has failed at a flash error, and it is told (R451). -/
def StagingFails (s t : State) (cyc : Nat) : Prop :=
  t.m.stage = 7 ∧ Raises s t [eventAt (s.at cyc) 0x4408 1 0xFF [] 0] ∧ t.m.bit Reg.IMG_IRQ_STAT 2 = true

/-- Staging: BEGIN at STAGE 0 or 7 takes a length within its bounds and erases, and is refused otherwise and in SLEEP; a finished erase
leaves the staging bank's blocks blank and receives, and one that does not read back fails the staging. A transfer waits while the erase
runs; one that goes on at IMG_PROG is programmed there, and the last one ends receiving; one that does not fit, or comes when nothing is
received, is refused, the former with the staging failed, and a page that does not read back fails it. The commands count for the service
lane alone, and the safety processor's are ignored. Completes: IMAGE_BEGIN, STAGING_ERASE_COMPLETE, IMAGE_PAGE_PROGRAM. Data of event
records beyond the spec's, and ORIGIN and KIND 10 where no rule names them, are the model's choice (log entries 20 and 21). -/
def Obligations.StagingErasesAndPrograms : Prop :=
  (∀ (cyc : Nat) (l : Lane) (v : Word) (s : State),
    let taken := (s.m.stage = 0 ∨ s.m.stage = 7) ∧ 64 ≤ s.m.imgLen ∧ s.m.imgLen ≤ 33554432 ∧ s.m.mode ≠ .sleep
    (DutyNow s l → taken →
      ∃ t, exec (.imageBegin cyc (.lane l) v) s = .next t ∧ t.m.stage = 1 ∧ t.m.rd Reg.IMG_PROG = 0#32 ∧
        Quiet s t [Reg.IMG_STATUS, Reg.IMG_PROG]) ∧
    (DutyNow s l → ¬taken → ∃ t, exec (.imageBegin cyc (.lane l) v) s = .next t ∧ ImageRefused s t cyc) ∧
    DutyElsewhere s l Reg.IMG_CMD (v.withBits 2 0 1) (exec (.imageBegin cyc (.lane l) v) s) ∧
    NothingDone s (exec (.imageBegin cyc .safety v) s)) ∧
  (∀ (cyc : Nat) (s : State),
    let a := 0x200000000 + 0x2000000 * (1 - s.m.bank)
    let n := (s.m.imgLen + 65535) / 65536 * 65536
    (Memory.wf s.mem = true → s.m.stage = 1 → n ≤ 0x2000000 →
      (∃ t, exec (.stagingEraseComplete cyc true) s = .next t ∧ t.m.stage = 2 ∧
        (∀ b, a ≤ b → b < a + n → Memory.read t.mem b = 0xFF#8) ∧
        (∀ b, b < a ∨ a + n ≤ b → Memory.read t.mem b = Memory.read s.mem b) ∧ SameRegsBut s t [Reg.IMG_STATUS] ∧ Raises s t []) ∧
      (∃ t, exec (.stagingEraseComplete cyc false) s = .next t ∧ StagingFails s t cyc ∧
        (∀ b, b < a ∨ a + max n 256 ≤ b → Memory.read t.mem b = Memory.read s.mem b) ∧
        SameRegsBut s t [Reg.IMG_STATUS, Reg.IMG_IRQ_STAT])) ∧
    (s.m.stage ≠ 1 → ∀ ok, ∃ t, exec (.stagingEraseComplete cyc ok) s = .next t ∧ Quiet s t [])) ∧
  (∀ (cyc : Nat) (l : Lane) (r : Fin 16) (s : State) (x : PortData),
    (s.m.dma.port5.find? fun x => x.lane == l && x.ring == r.val) = some x →
    let prog := (s.m.rd Reg.IMG_PROG).toNat
    let a := 0x200000000 + 0x2000000 * (1 - s.m.bank) + prog
    let n := x.bytes.length
    let fits := x.param = prog ∧ prog % 256 = 0 ∧ 0 < n ∧ prog + n ≤ s.m.imgLen ∧ (n % 256 = 0 ∨ prog + n = s.m.imgLen)
    (Memory.wf s.mem = true → s.m.stage = 2 → fits →
      (∃ t, exec (.imagePageProgram cyc l r true) s = .next t ∧ t.m.dma = { s.m.dma with port5 := s.m.dma.port5.erase x } ∧
        t.m.rd Reg.IMG_PROG = BitVec.ofNat 32 (prog + n) ∧ t.m.stage = (if prog + n = s.m.imgLen then 3 else 2) ∧
        (prog + n = s.m.imgLen → t.m.bit Reg.IMG_IRQ_STAT 0 = true) ∧
        Memory.readN t.mem a n = x.bytes.map (· % 256) ∧
        (∀ b, b < a ∨ a + n ≤ b → Memory.read t.mem b = Memory.read s.mem b) ∧
        SameRegsBut s t [Reg.IMG_STATUS, Reg.IMG_PROG, Reg.IMG_IRQ_STAT] ∧ Raises s t []) ∧
      (∃ t, exec (.imagePageProgram cyc l r false) s = .next t ∧ t.m.dma = { s.m.dma with port5 := s.m.dma.port5.erase x } ∧
        StagingFails s t cyc ∧ (∀ b, b < a ∨ a + min 256 n ≤ b → Memory.read t.mem b = Memory.read s.mem b) ∧
        SameRegsBut s t [Reg.IMG_STATUS, Reg.IMG_IRQ_STAT])) ∧
    (∀ ok, s.m.stage = 2 → ¬fits →
      ∃ t, exec (.imagePageProgram cyc l r ok) s = .next t ∧ t.m.dma = { s.m.dma with port5 := s.m.dma.port5.erase x } ∧
        t.m.stage = 7 ∧ t.m.bit Reg.IMG_IRQ_STAT 3 = true ∧ Raises s t [eventAt (s.at cyc) 0x4407 0 0xFF [] 0] ∧
        SameRegsBut s t [Reg.IMG_STATUS, Reg.IMG_IRQ_STAT] ∧ SameMemory s t) ∧
    (∀ ok, s.m.stage ≠ 1 → s.m.stage ≠ 2 →
      ∃ t, exec (.imagePageProgram cyc l r ok) s = .next t ∧ t.m.dma = { s.m.dma with port5 := s.m.dma.port5.erase x } ∧
        ImageRefused s t cyc) ∧
    (∀ ok, s.m.stage = 1 → ∃ t, exec (.imagePageProgram cyc l r ok) s = .next t ∧ t.m.dma = s.m.dma ∧ Quiet s t [])) ∧
  (∀ (cyc : Nat) (l : Lane) (r : Fin 16) (ok : Bool) (s : State),
    (s.m.dma.port5.find? fun x => x.lane == l && x.ring == r.val) = none →
    ∃ t, exec (.imagePageProgram cyc l r ok) s = .next t ∧ t.m.dma = s.m.dma ∧ Quiet s t [])

/-- VERIFY of a received image checks it, and the check ends verified, or failed with the rule that rejects it; COMMIT of a
verified image whose SAFETY payload is the running one's, or in the recovery state, appends its commit record; where the payload changes it
needs an open session and its log entry; a record that does not read back fails the staging. ABORT ends any staging of STAGE 1 to 5; REBOOT
in STANDBY makes a device reset due; a command that does not apply, or has no meaning, is refused. The commands count for the service lane
alone, and the safety processor's are ignored. Completes: IMAGE_VERIFY, IMAGE_VERIFY_COMPLETE, IMAGE_COMMIT, IMAGE_ABORT, IMAGE_REBOOT,
INVALID_IMAGE_COMMAND. Data of event records beyond the spec's, and ORIGIN and KIND 10 where no rule names them, are the model's choice (log
entries 20 and 21). -/
def Obligations.ImageCommandsVerifyCommitAndReboot : Prop :=
  (∀ (cyc : Nat) (l : Lane) (v : Word) (s : State), DutyNow s l →
    (s.m.stage = 3 → ∃ t, exec (.imageVerify cyc (.lane l) v) s = .next t ∧ t.m.stage = 4 ∧ Quiet s t [Reg.IMG_STATUS]) ∧
    (s.m.stage ≠ 3 → ∃ t, exec (.imageVerify cyc (.lane l) v) s = .next t ∧ ImageRefused s t cyc) ∧
    (1 ≤ s.m.stage → s.m.stage ≤ 5 →
      ∃ t, exec (.imageAbort cyc (.lane l) v) s = .next t ∧ t.m.stage = 0 ∧ Quiet s t [Reg.IMG_STATUS]) ∧
    (s.m.stage = 0 ∨ 5 < s.m.stage → ∃ t, exec (.imageAbort cyc (.lane l) v) s = .next t ∧ ImageRefused s t cyc) ∧
    (s.m.mode = .standby → ∃ t, exec (.imageReboot cyc (.lane l) v) s = .next t ∧ t.m.pwr.due = some 3 ∧ Quiet s t []) ∧
    (s.m.mode ≠ .standby → ∃ t, exec (.imageReboot cyc (.lane l) v) s = .next t ∧ ImageRefused s t cyc) ∧
    (v.bits 2 0 = 0 ∨ 5 < v.bits 2 0 → ∃ t, exec (.invalidImageCommand cyc (.lane l) v) s = .next t ∧ ImageRefused s t cyc) ∧
    (v.bits 2 0 = 1 → exec (.invalidImageCommand cyc (.lane l) v) s = exec (.imageBegin cyc (.lane l) v) s) ∧
    (v.bits 2 0 = 2 → exec (.invalidImageCommand cyc (.lane l) v) s = exec (.imageVerify cyc (.lane l) v) s) ∧
    (v.bits 2 0 = 3 → exec (.invalidImageCommand cyc (.lane l) v) s = exec (.imageCommit cyc (.lane l) v true true) s) ∧
    (v.bits 2 0 = 4 → exec (.invalidImageCommand cyc (.lane l) v) s = exec (.imageAbort cyc (.lane l) v) s) ∧
    (v.bits 2 0 = 5 → exec (.invalidImageCommand cyc (.lane l) v) s = exec (.imageReboot cyc (.lane l) v) s)) ∧
  (∀ (cyc : Nat) (logOk ok : Bool) (l : Lane) (v : Word) (s : State), DutyNow s l →
    let old := (s.m.rd Reg.IMG_SAFETY).toNat
    let new := (s.m.commitForm s.mem 0).safety
    let same := new = old ∨ s.m.recovery = true
    let y := (s.at cyc).logAppend s.mem true 5 0 old new
    (s.m.stage ≠ 5 → ∃ t, exec (.imageCommit cyc (.lane l) v logOk ok) s = .next t ∧ ImageRefused s t cyc) ∧
    (s.m.stage = 5 → same →
      (∃ t, exec (.imageCommit cyc (.lane l) v logOk true) s = .next t ∧ t.m.stage = 0 ∧
        t.mem = commitAppend s.mem ((s.at cyc).commitForm s.mem 0).bytes ∧
        Raises s t [eventAt (s.at cyc) 0x4405 0 0xFF [] 0] ∧ t.m.bit Reg.IMG_IRQ_STAT 0 = true ∧
        SameRegsBut s t [Reg.IMG_STATUS, Reg.IMG_IRQ_STAT]) ∧
      (∃ t torn, exec (.imageCommit cyc (.lane l) v logOk false) s = .next t ∧ StagingFails s t cyc ∧
        torn.length = 256 ∧ t.mem = commitAppend s.mem torn ∧ SameRegsBut s t [Reg.IMG_STATUS, Reg.IMG_IRQ_STAT])) ∧
    (s.m.stage = 5 → ¬same → s.m.sess ≠ 2 →
      ∃ t, exec (.imageCommit cyc (.lane l) v logOk ok) s = .next t ∧ ImageRefused s t cyc) ∧
    (s.m.stage = 5 → ¬same → s.m.sess = 2 →
      (∃ t, exec (.imageCommit cyc (.lane l) v true true) s = .next t ∧ t.m.stage = 0 ∧
        t.m.rd Reg.SAFE_LOG_STAT = s.m.rd Reg.SAFE_LOG_STAT + 1#32 ∧
        t.mem = commitAppend y.2 ((s.at cyc).commitForm y.2 (s.m.rd Reg.SAFE_LOG_STAT + 1#32).toNat).bytes ∧
        Raises s t [eventAt (s.at cyc) 0x4405 0 0xFF [] 0] ∧ t.m.bit Reg.IMG_IRQ_STAT 0 = true ∧
        SameRegsBut s t [Reg.IMG_STATUS, Reg.IMG_IRQ_STAT, Reg.SAFE_LOG_STAT]) ∧
      (∃ t torn, exec (.imageCommit cyc (.lane l) v true false) s = .next t ∧ StagingFails s t cyc ∧
        torn.length = 256 ∧ t.mem = commitAppend y.2 torn ∧ t.m.rd Reg.SAFE_LOG_STAT = s.m.rd Reg.SAFE_LOG_STAT + 1#32 ∧
        SameRegsBut s t [Reg.IMG_STATUS, Reg.IMG_IRQ_STAT, Reg.SAFE_LOG_STAT]) ∧
      (Memory.wf s.mem = true →
        ∃ t, exec (.imageCommit cyc (.lane l) v false ok) s = .next t ∧ t.m.stage = 5 ∧ LogLoses s t cyc ∧
          t.m.bit Reg.IMG_IRQ_STAT 3 = true ∧
          Raises s t [eventAt (s.at cyc) 0x4010 0 0xFF [] 0, eventAt (s.at cyc) 0x4407 0 0xFF [] 0] ∧
          SameRegsBut s t [Reg.IMG_IRQ_STAT, Reg.SAFE_IRQ_STAT]))) ∧
  (∀ (cyc : Nat) (logOk ok : Bool) (l : Lane) (v : Word) (s : State),
    DutyElsewhere s l Reg.IMG_CMD (v.withBits 2 0 2) (exec (.imageVerify cyc (.lane l) v) s) ∧
    DutyElsewhere s l Reg.IMG_CMD (v.withBits 2 0 3) (exec (.imageCommit cyc (.lane l) v logOk ok) s) ∧
    DutyElsewhere s l Reg.IMG_CMD (v.withBits 2 0 4) (exec (.imageAbort cyc (.lane l) v) s) ∧
    DutyElsewhere s l Reg.IMG_CMD (v.withBits 2 0 5) (exec (.imageReboot cyc (.lane l) v) s) ∧
    DutyElsewhere s l Reg.IMG_CMD v (exec (.invalidImageCommand cyc (.lane l) v) s) ∧
    NothingDone s (exec (.imageVerify cyc .safety v) s) ∧ NothingDone s (exec (.imageCommit cyc .safety v logOk ok) s) ∧
    NothingDone s (exec (.imageAbort cyc .safety v) s) ∧ NothingDone s (exec (.imageReboot cyc .safety v) s) ∧
    NothingDone s (exec (.invalidImageCommand cyc .safety v) s)) ∧
  (∀ (cyc : Nat) (s : State),
    (s.m.stage = 4 →
      ∃ t, exec (.imageVerifyComplete cyc) s = .next t ∧ SameMemory s t ∧
        match s.m.imageCheck (s.m.staged s.mem) (if s.m.image.loaded then some s.m.image.secver else none) with
        | none => t.m.stage = 5 ∧ t.m.bit Reg.IMG_IRQ_STAT 0 = true ∧ Raises s t [] ∧
            SameRegsBut s t [Reg.IMG_STATUS, Reg.IMG_IRQ_STAT]
        | some r => t.m.stage = 7 ∧ t.m.fld Reg.IMG_REJECT 31 24 = r.rule % 256 ∧
            t.m.fld Reg.IMG_REJECT 23 16 = r.folio % 256 ∧ t.m.fld Reg.IMG_REJECT 15 0 = r.detail % 2 ^ 16 ∧
            t.m.rd Reg.IMG_REJOFF = BitVec.ofNat 32 r.off ∧ t.m.bit Reg.IMG_IRQ_STAT 1 = true ∧
            Raises s t [eventAt (s.at cyc) 0x4402 0 0xFF ([r.rule, r.folio] ++ leBytes 2 r.detail ++ leBytes 4 r.off) 0] ∧
            SameRegsBut s t [Reg.IMG_STATUS, Reg.IMG_IRQ_STAT, Reg.IMG_REJECT, Reg.IMG_REJOFF]) ∧
    (s.m.stage ≠ 4 → ∃ t, exec (.imageVerifyComplete cyc) s = .next t ∧ Quiet s t []))

/-- In an open session a blank key slot is programmed once with the hash in IMG_KEYBUF, and a programmed one that has not signed the
running image is revoked, each told with 0x4409; any other command of a key slot is refused. The commands count for the service lane alone,
and the safety processor's are ignored. Completes: KEY_PROGRAM, KEY_REVOKE. Data of event records beyond the spec's, and ORIGIN and KIND 10
where no rule names them, are the model's choice (log entries 20 and 21). -/
def Obligations.KeysAreProgrammedOnceAndRevoked : Prop :=
  ∀ (cyc : Nat) (l : Lane) (v : Word) (s : State),
    (DutyNow s l → ∀ k : Nat, s.m.sess = 2 → v.bits 1 0 = k + 1 →
      (s.m.img.keys[k]? = some none →
        (∃ t, exec (.keyProgram cyc (.lane l) v) s = .next t ∧
          t.m.img = { s.m.img with keys := upd s.m.img.keys k fun _ => some s.m.keyBuf } ∧
          (s.m.img.keys.length = 3 → t.m.bit Reg.IMG_KEYS (k + 1) = true) ∧ t.m.bit Reg.IMG_IRQ_STAT 3 = true ∧
          Raises s t [eventAt (s.at cyc) 0x4409 0 0xFF [] 0] ∧ SameRegsBut s t [Reg.IMG_KEYS, Reg.IMG_IRQ_STAT] ∧
          SameMemory s t) ∧
        (∃ t, exec (.keyRevoke cyc (.lane l) v) s = .next t ∧ ImageRefused s t cyc)) ∧
      (∀ h, s.m.img.keys[k]? = some (some h) →
        (∃ t, exec (.keyProgram cyc (.lane l) v) s = .next t ∧ ImageRefused s t cyc) ∧
        (s.m.fld Reg.IMG_STATUS 23 22 ≠ k + 1 →
          ∃ t, exec (.keyRevoke cyc (.lane l) v) s = .next t ∧
            t.m.img = { s.m.img with revoked := upd s.m.img.revoked k fun _ => true } ∧
            (s.m.img.keys.length = 3 → s.m.img.revoked.length = 3 → t.m.bit Reg.IMG_KEYS (k + 5) = true) ∧
            t.m.bit Reg.IMG_IRQ_STAT 3 = true ∧ Raises s t [eventAt (s.at cyc) 0x4409 0 0xFF [] 0] ∧
            SameRegsBut s t [Reg.IMG_KEYS, Reg.IMG_IRQ_STAT] ∧ SameMemory s t) ∧
        (s.m.fld Reg.IMG_STATUS 23 22 = k + 1 → ∃ t, exec (.keyRevoke cyc (.lane l) v) s = .next t ∧ ImageRefused s t cyc))) ∧
    (DutyNow s l → s.m.sess ≠ 2 ∨ v.bits 1 0 = 0 →
      (∃ t, exec (.keyProgram cyc (.lane l) v) s = .next t ∧ ImageRefused s t cyc) ∧
      (∃ t, exec (.keyRevoke cyc (.lane l) v) s = .next t ∧ ImageRefused s t cyc)) ∧
    DutyElsewhere s l Reg.IMG_KEYCMD (v.withBits 31 28 1) (exec (.keyProgram cyc (.lane l) v) s) ∧
    DutyElsewhere s l Reg.IMG_KEYCMD (v.withBits 31 28 2) (exec (.keyRevoke cyc (.lane l) v) s) ∧
    NothingDone s (exec (.keyProgram cyc .safety v) s) ∧ NothingDone s (exec (.keyRevoke cyc .safety v) s)

/-! ### Power, reset and boot -/

/-- What of memory outlives its supply: flash; every other byte reads as one that nothing has written. -/
def OnlyFlashKept (s t : State) : Prop :=
  ∀ a, Memory.read t.mem a = if regionOf a = .flash then Memory.read s.mem a else Memory.unlisted a

/-- Every channel is off, the clamp is off, the safe outputs and charge lines are withdrawn, and no tick runs (R218). -/
def Stopped (t : State) : Prop :=
  t.m.gate.enabled = 0 ∧ t.m.gate.enB = 0 ∧ t.m.gate.enS = 0 ∧ t.m.gate.clamped = false ∧ t.m.bit Reg.GDI_OVSTAT 0 = false ∧
    t.m.fld Reg.SAFE_OUTS 6 0 = 0 ∧ t.m.tick.running = false

/-- The device is on its way into SLEEP: its mode is SLEEP, and the tick runs still or the rails fall with no reset due (R477). -/
abbrev EntersSleep (m : Mach) : Prop :=
  m.mode = .sleep ∧ (m.tick.running = true ∨ (m.pwr.phase = .falling ∧ m.pwr.due = none))

/-- VIN_AUX applied leaves every register at its reset value, flash and the fuses, and a boot with CAUSE 0 due. The rails rise in order
while VIN_AUX is good; a rail that does not rise brings them down for another try, the third time for good; a rail that leaves its window
stops the device and makes a reset with CAUSE 1 due, as a low VIN_AUX does with CAUSE 6 and RST_N with CAUSE 2; once they have fallen, only
flash is kept, and the device sleeps, wakes, tries again or waits for its reset. Short of its condition none changes anything. Completes:
POWER_ON, POWER_UP_SEQUENCE, RAIL_RISE_TIMEOUT, RAIL_FAULT, VIN_AUX_LOW, VIN_AUX_RESTORED, RST_N_ASSERT, POWER_DOWN_SEQUENCE. What the
spec leaves open of the phases between is the model's choice (log entry 51). -/
def Obligations.RailsRiseFallAndMakeResetsDue : Prop :=
  (∀ (cyc : Nat) (src : BitVec 16) (s : State),
    ∃ t, exec (.powerOn cyc src) s = .next t ∧ t.m.pwr.due = some 0 ∧ t.m.pwr.phase = .off ∧ t.m.pwr.booted = false ∧
      t.m.pwr.wakeLatch = src.toNat &&& 0xFF8F ∧ t.m.img.keys = s.m.img.keys ∧ t.m.img.revoked = s.m.img.revoked ∧
      (∀ a, t.m.rd a = (Mach.initial s.m.variant).rd a) ∧ t.m.tick.running = false ∧ OnlyFlashKept s t) ∧
  (∀ (cyc : Nat) (good : Fin 7) (s : State),
    let rises := (s.m.pwr.phase = .off ∨ s.m.pwr.phase = .waiting) ∧ s.m.pwr.vinOk = true
    (rises → ∃ t, exec (.powerUpSequence cyc good) s = .next t ∧ t.m.fld Reg.PWR_STATUS 5 0 = 2 ^ good.val - 1 ∧
      t.m.bit Reg.ACQ_STATUS 12 = decide (5 ≤ good.val) ∧
      t.m.pwr = { s.m.pwr with phase := if good.val = 6 then .up else .off } ∧ Quiet s t [Reg.PWR_STATUS, Reg.ACQ_STATUS]) ∧
    (¬rises → ∃ t, exec (.powerUpSequence cyc good) s = .next t ∧ t.m.pwr = s.m.pwr ∧ Quiet s t [])) ∧
  (∀ (cyc : Nat) (s : State),
    (∀ r : Fin 6, s.m.pwr.phase = .off → s.m.bit Reg.PWR_STATUS r = false → (∀ q : Fin 6, q < r → s.m.bit Reg.PWR_STATUS q = true) →
      ∃ t, exec (.railRiseTimeout cyc) s = .next t ∧
        t.m.pwr = { s.m.pwr with phase := .falling, due := some 1, rail := r, tries := s.m.pwr.tries + 1 } ∧ Quiet s t []) ∧
    (s.m.pwr.phase ≠ .off ∨ (∀ r : Fin 6, s.m.bit Reg.PWR_STATUS r = true) →
      ∃ t, exec (.railRiseTimeout cyc) s = .next t ∧ t.m.pwr = s.m.pwr ∧ Quiet s t [])) ∧
  (∀ (cyc : Nat) (r : Fin 6) (s : State),
    let faults := s.m.bit Reg.PWR_STATUS r = true ∧ (s.m.pwr.phase = .up ∨ s.m.pwr.phase = .off)
    (faults → ∃ t, exec (.railFault cyc r) s = .next t ∧ t.m.bit Reg.PWR_STATUS r = false ∧ Stopped t ∧
      (r = 4 → t.m.bit Reg.ACQ_STATUS 12 = false) ∧ t.m.pwr = { s.m.pwr with phase := .falling, due := some 1, rail := r } ∧
      Quiet s t ([Reg.PWR_STATUS, Reg.GDI_OVSTAT, Reg.SAFE_OUTS] ++ if r = 4 then [Reg.ACQ_STATUS] else [])) ∧
    (¬faults → ∃ t, exec (.railFault cyc r) s = .next t ∧ t.m.pwr = s.m.pwr ∧ t.m.gate = s.m.gate ∧ t.m.tick = s.m.tick ∧
      Quiet s t [])) ∧
  (∀ (cyc : Nat) (s : State),
    let p := s.m.pwr.phase
    let down := p = .up ∨ p = .falling ∨ (p = .off ∧ s.m.fld Reg.PWR_STATUS 5 0 ≠ 0)
    (∃ t, exec (.vinAuxLow cyc) s = .next t ∧ Stopped t ∧
      t.m.pwr = { s.m.pwr with vinOk := false, due := some 6, tries := 0, phase := if down then .falling else .off } ∧
      Quiet s t [Reg.GDI_OVSTAT, Reg.SAFE_OUTS]) ∧
    (∃ t, exec (.vinAuxRestored cyc) s = .next t ∧ t.m.pwr = { s.m.pwr with vinOk := true } ∧ Quiet s t []) ∧
    (∃ t, exec (.rstNAssert cyc) s = .next t ∧ Stopped t ∧
      t.m.pwr = { s.m.pwr with
        due := some 2, tries := 0, phase := if p = .gaveUp ∨ p = .asleep ∨ p = .waiting then .off else p } ∧
      Quiet s t [Reg.GDI_OVSTAT, Reg.SAFE_OUTS])) ∧
  (∀ (cyc : Nat) (s : State),
    (s.m.pwr.phase = .falling →
      ∃ t, exec (.powerDownSequence cyc) s = .next t ∧ t.m.fld Reg.PWR_STATUS 5 0 = 0 ∧ t.m.bit Reg.ACQ_STATUS 12 = false ∧
        t.m.pwr.booted = false ∧ OnlyFlashKept s t ∧
        (s.m.pwr.due = none → t.m.bit Reg.SYS_MODE_STAT 9 = false ∧
          t.m.pwr = { s.m.pwr with
            booted := false
            phase := if s.m.pwr.wakeLatch = 0 then .asleep else .off
            due := if s.m.pwr.wakeLatch = 0 then none else some 4
            waking := s.m.pwr.waking || decide (s.m.pwr.wakeLatch ≠ 0) }) ∧
        (s.m.pwr.due = some 1 → t.m.pwr = { s.m.pwr with
          booted := false, phase := if 3 ≤ s.m.pwr.tries then .gaveUp else if 0 < s.m.pwr.tries then .waiting else .off }) ∧
        (∀ c, s.m.pwr.due = some c → c ≠ 1 → t.m.pwr = { s.m.pwr with booted := false, phase := .off }) ∧
        SameRegsBut s t [Reg.PWR_STATUS, Reg.ACQ_STATUS, Reg.SYS_MODE_STAT] ∧ Raises s t []) ∧
    (s.m.pwr.phase ≠ .falling → ∃ t, exec (.powerDownSequence cyc) s = .next t ∧ t.m.pwr = s.m.pwr ∧ Quiet s t []))

/-- SLEEP stops the tick, closes an open session with its entry, and lets the rails fall; an armed source, the wake timer among them,
wakes a sleeping device with CAUSE 4 and stands in the latch, joins a device on its way into SLEEP or a wake less than 1 ms old in the latch
alone, and does nothing else; one that is not armed does nothing. The loss of the crystal is an F4 that loads the safe state of every slot
and stops the tick, and its return a reset with CAUSE 5. Bedrock's heartbeat toggles until its self-test fails, which opens the safe outputs
and releases ASC_REQ_N, and not in SLEEP. A start that waits too long is told once. Completes: SLEEP_ENTRY, WAKE_SOURCE, WAKE_TIMER_EXPIRY,
CRYSTAL_LOSS, CRYSTAL_RESTORED, HEARTBEAT_TOGGLE, BEDROCK_SELF_TEST_FAIL, START_CREDIT_WAIT. Data of event records beyond the spec's, and
ORIGIN and KIND 10 where no rule names them, are the model's choice (log entries 20 and 21). -/
def Obligations.SleepWakeCrystalAndBedrock : Prop :=
  (∀ (cyc : Nat) (s : State), s.m.mode = .sleep → s.m.tick.running = true →
    let p := { s.m.pwr with phase := .falling, booted := false }
    (∀ ok, s.m.sess ≠ 2 → ∃ t, exec (.sleepEntry cyc ok) s = .next t ∧ Stopped t ∧ t.m.pwr = p ∧
      Quiet s t [Reg.PWR_STATUS, Reg.GDI_OVSTAT, Reg.SAFE_OUTS]) ∧
    (Memory.wf s.mem = true → s.m.sess = 2 →
      (∃ t, exec (.sleepEntry cyc true) s = .next t ∧ Stopped t ∧ t.m.pwr = p ∧ t.m.sess = 0 ∧ LogTakes s t cyc 3 3 ∧
        Raises s t [eventAt (s.at cyc) 0x400E 0 0xFF [] 0] ∧
        SameRegsBut s t [Reg.PWR_STATUS, Reg.GDI_OVSTAT, Reg.SAFE_OUTS, Reg.SAFE_SESS_STAT, Reg.SAFE_STATUS, Reg.SAFE_IRQ_STAT,
          Reg.SAFE_LOG_STAT]) ∧
      (∃ t, exec (.sleepEntry cyc false) s = .next t ∧ Stopped t ∧ t.m.pwr = p ∧ t.m.sess = 0 ∧ LogLoses s t cyc ∧
        Raises s t [eventAt (s.at cyc) 0x4010 0 0xFF [] 0, eventAt (s.at cyc) 0x400E 0 0xFF [] 0] ∧
        SameRegsBut s t [Reg.PWR_STATUS, Reg.GDI_OVSTAT, Reg.SAFE_OUTS, Reg.SAFE_SESS_STAT, Reg.SAFE_STATUS,
          Reg.SAFE_IRQ_STAT]))) ∧
  (∀ (cyc : Nat) (ok : Bool) (s : State), s.m.mode ≠ .sleep ∨ s.m.tick.running = false →
    ∃ t, exec (.sleepEntry cyc ok) s = .next t ∧ t.m.pwr = s.m.pwr ∧ t.m.tick = s.m.tick ∧ Quiet s t []) ∧
  (∀ (cyc : Nat) (late : Bool) (src : Fin 16) (s : State),
    let armed := s.m.bit Reg.PWR_WAKECFG src = true ∧ (src.val < 9 ∨ s.m.bit (Reg.NET_P_CFG (src.val - 9)) 30 = true)
    let joins := EntersSleep s.m ∨ (s.m.pwr.waking = true ∧ late = false)
    (armed → s.m.pwr.phase = .asleep →
      ∃ t, exec (.wakeSource cyc src late) s = .next t ∧
        t.m.pwr = { s.m.pwr with wakeLatch := s.m.pwr.wakeLatch ||| 2 ^ src.val, phase := .off, due := some 4, waking := true } ∧
        Quiet s t []) ∧
    (armed → s.m.pwr.phase ≠ .asleep → joins →
      ∃ t, exec (.wakeSource cyc src late) s = .next t ∧
        t.m.pwr = { s.m.pwr with wakeLatch := s.m.pwr.wakeLatch ||| 2 ^ src.val } ∧ Quiet s t []) ∧
    (¬armed ∨ (s.m.pwr.phase ≠ .asleep ∧ ¬joins) →
      ∃ t, exec (.wakeSource cyc src late) s = .next t ∧ t.m.pwr = s.m.pwr ∧ Quiet s t [])) ∧
  (∀ (cyc : Nat) (s : State),
    let runs := s.m.rd Reg.PWR_WTIMER ≠ 0#32 ∧ s.m.bit Reg.PWR_WAKECFG 8 = true
    (runs → s.m.pwr.phase = .asleep →
      ∃ t, exec (.wakeTimerExpiry cyc) s = .next t ∧
        t.m.pwr = { s.m.pwr with wakeLatch := s.m.pwr.wakeLatch ||| 2 ^ 8, phase := .off, due := some 4, waking := true } ∧
        Quiet s t []) ∧
    (runs → s.m.pwr.phase ≠ .asleep → exec (.wakeTimerExpiry cyc) s = exec (.wakeSource cyc 8 false) s) ∧
    (¬runs → ∃ t, exec (.wakeTimerExpiry cyc) s = .next t ∧ t.m.pwr = s.m.pwr ∧ Quiet s t [])) ∧
  (∀ (cyc : Nat) (s : State),
    (s.m.pwr.crystalLost = false →
      ∃ t, exec (.crystalLoss cyc) s = .next t ∧ t.m.pwr.crystalLost = true ∧ t.m.tick.running = false ∧
        t.m.fld Reg.SAFE_OUTS 6 0 = 0 ∧ t.m.bit Reg.PWR_IRQ_STAT 6 = true ∧ t.m.bit Reg.PWR_STATUS 6 = false ∧
        t.m.sys.f4 = some (s.m.sys.f4.getD 0x480A) ∧ Tells s t 0x480A 4 0xFF ∧
        (s.m.tick.running = true → ∀ k ∈ s.m.mapped, k < s.m.lane.slots.length →
          (t.m.sv k).exec = some ((s.at cyc).safeFrame k s.m.seq (s.m.lastEmfhi k))) ∧
        (s.m.tick.running = false → t.m.gate = s.m.gate ∧ Raises s t [eventAt (s.at cyc) 0x480A 4 0xFF [] 0] ∧
          SameRegsBut s t [Reg.SAFE_OUTS, Reg.PWR_IRQ_STAT, Reg.PWR_STATUS]) ∧ SameMemory s t) ∧
    (s.m.pwr.crystalLost = true → ∃ t, exec (.crystalLoss cyc) s = .next t ∧ t.m.pwr = s.m.pwr ∧ Quiet s t []) ∧
    (s.m.pwr.crystalLost = true →
      ∃ t, exec (.crystalRestored cyc) s = .next t ∧ t.m.pwr = { s.m.pwr with due := some 5 } ∧ Quiet s t []) ∧
    (s.m.pwr.crystalLost = false → ∃ t, exec (.crystalRestored cyc) s = .next t ∧ t.m.pwr = s.m.pwr ∧ Quiet s t [])) ∧
  (∀ (cyc : Nat) (s : State),
    let beats := s.m.pwr.bedrockOk = true ∧ s.m.pwr.phase ≠ .asleep ∧ ¬EntersSleep s.m
    (beats → ∃ t, exec (.heartbeatToggle cyc) s = .next t ∧ t.m.bit Reg.PWR_STATUS 7 = !s.m.bit Reg.PWR_STATUS 7 ∧
      (∀ i : Fin 32, i ≠ 7 → t.m.bit Reg.PWR_STATUS i = s.m.bit Reg.PWR_STATUS i) ∧ Quiet s t [Reg.PWR_STATUS]) ∧
    (¬beats → ∃ t, exec (.heartbeatToggle cyc) s = .next t ∧ Quiet s t [])) ∧
  (∀ (cyc : Nat) (s : State),
    ∃ t, exec (.bedrockSelfTestFail cyc) s = .next t ∧ t.m.pwr.bedrockOk = false ∧ t.m.pwr.ascReq = false ∧
      t.m.fld Reg.SAFE_OUTS 6 0 = 0 ∧ t.m.bit Reg.PWR_STATUS 6 = false ∧ t.m.bit Reg.PWR_STATUS 8 = false ∧
      Quiet s t [Reg.SAFE_OUTS, Reg.PWR_STATUS]) ∧
  (∀ (cyc : Nat) (s : State),
    let late (x : StartWait) := !x.told && decide (100000000 ≤ (s.m.seq - x.since) * s.m.period + (s.at cyc).time.cyc)
    ∃ t, exec (.startCreditWait cyc) s = .next t ∧
      t.m.pwr.starts = (s.m.pwr.starts.map fun x => if late x then { x with told := true } else x) ∧
      Raises s t ((s.m.pwr.starts.filter late).map fun x => eventAt (s.at cyc) 0x4809 0 (s.m.drvSlot x.drive) [] 0) ∧
      (s.m.pwr.starts.filter late ≠ [] → t.m.bit Reg.PWR_IRQ_STAT 4 = true) ∧
      SameRegsBut s t (if s.m.pwr.starts.filter late = [] then [] else [Reg.PWR_IRQ_STAT]) ∧ SameMemory s t)

/-- A device reset that is due and can begin leaves DRAM zero where no image is loaded, records its cause and the sources of a wake, keeps
the fuses, and starts a boot with event 0x3C01; without a commit record no image is loaded, and an image that is loaded is told and locks
the registers. With none due, or the rails not ready, nothing happens. An image frame of the recovery loader that goes on where the last
one ended is programmed and answered with its offset and status 0; the first one begins with the length of the image's header; the last
one has the image verified and committed and a reset made due, or rejected; one that does not fit is refused and one that does not read
back fails the staging, both answered with status 1; outside the recovery state frames are ignored. Completes: DEVICE_RESET,
RECOVERY_FRAME. Data of event records beyond the spec's, and ORIGIN and KIND 10 where no rule names them, are the model's choice (log
entries 20 and 21), and so is the layout of a frame and its answer (log entry 76). -/
def Obligations.DeviceResetAndRecoveryFrames : Prop :=
  (∀ (cyc c : Nat) (s : State), s.m.pwr.due = some c →
    let ready := s.m.pwr.vinOk = true ∧
      ((s.m.pwr.phase = .up ∧ c ≠ 1 ∧ c ≠ 6) ∨ s.m.pwr.phase = .off ∨ s.m.pwr.phase = .waiting)
    (ready →
      ∃ t, exec (.deviceReset cyc) s = .next t ∧ t.m.pwr.due = none ∧ t.m.pwr.phase = s.m.pwr.phase ∧ t.m.pwr.booted = false ∧
        t.m.tick.running = false ∧ t.m.img.keys = s.m.img.keys ∧ t.m.img.revoked = s.m.img.revoked ∧
        t.m.locked = t.m.image.loaded ∧ (t.m.time.raised.head?.map (·.code)) = some 0x3C01 ∧
        (t.m.image.loaded = true → 0x4401 ∈ t.m.time.raised.map (·.code)) ∧
        (newestCommit (resetMemory s.mem) = none → t.m.image.loaded = false) ∧
        (t.m.image.loaded = false →
          t.m.rd Reg.PWR_RSTCAUSE = BitVec.ofNat 32
            ((if c = 1 then s.m.pwr.rail % 8 * 32 else 0) + min s.m.pwr.tries 3 * 8 + c) ∧
          t.m.rd Reg.PWR_WAKE = BitVec.ofNat 32 (if c = 0 ∨ c = 4 then s.m.pwr.wakeLatch else 0) ∧
          t.m.rd Reg.TIME_BOOT = BitVec.ofNat 32 (bootNumber (resetMemory s.mem)) ∧ t.m.fld Reg.SYS_MODE_STAT 2 0 = 0 ∧
          ∀ a, Memory.read t.mem a = if a < 2 ^ 32 then 0#8 else Memory.read s.mem a)) ∧
    (¬ready → ∃ t, exec (.deviceReset cyc) s = .next t ∧ t.m.pwr = s.m.pwr ∧ Quiet s t [])) ∧
  (∀ (cyc : Nat) (s : State), s.m.pwr.due = none → ∃ t, exec (.deviceReset cyc) s = .next t ∧ t.m.pwr = s.m.pwr ∧ Quiet s t []) ∧
  (∀ (cyc : Nat) (payload : List Nat) (ok : Bool) (s : State), s.m.recovery = false →
    ∃ t, exec (.recoveryFrame cyc payload ok) s = .next t ∧ t.m.net = s.m.net ∧ Quiet s t []) ∧
  (∀ (cyc : Nat) (p : List Nat) (s : State), Memory.wf s.mem = true → s.m.recovery = true →
    let off := le p 0 4
    let data := cut p 6 (le p 4 2)
    let n := data.length
    let fits := 0 < n ∧ n ≤ 1024 ∧ n = le p 4 2
    let prog := (s.m.rd Reg.IMG_PROG).toNat
    let base := 0x200000000 + 0x2000000 * (1 - s.m.bank)
    let a := base + off
    let answered (t : State) (status : Nat) := t.m.net.ports = upd s.m.net.ports 0 (fun x =>
      { x with queue := x.queue ++ [⟨0, leBytes 4 off ++ [status], s.m.seq, 0⟩] })
    let refused (t : State) := answered t 1 ∧ t.m.stage = s.m.stage ∧ t.m.bit Reg.IMG_IRQ_STAT 3 = true ∧
      Raises s t [eventAt (s.at cyc) 0x4407 0 0xFF [] 0] ∧ SameMemory s t
    (s.m.stage = 2 → fits → off = prog → off + n < s.m.imgLen →
      (∃ t, exec (.recoveryFrame cyc p true) s = .next t ∧ answered t 0 ∧ t.m.stage = 2 ∧
        t.m.rd Reg.IMG_PROG = BitVec.ofNat 32 (off + n) ∧ Memory.readN t.mem a n = data.map (· % 256) ∧
        (∀ b, b < a ∨ a + n ≤ b → Memory.read t.mem b = Memory.read s.mem b) ∧
        SameRegsBut s t [Reg.IMG_PROG] ∧ Raises s t [])) ∧
    (s.m.stage = 2 → fits → off = prog → off + n ≤ s.m.imgLen →
      (∃ t, exec (.recoveryFrame cyc p false) s = .next t ∧ answered t 1 ∧ StagingFails s t cyc ∧
        (∀ b, b < a ∨ a + min 256 n ≤ b → Memory.read t.mem b = Memory.read s.mem b) ∧
        SameRegsBut s t [Reg.IMG_STATUS, Reg.IMG_IRQ_STAT])) ∧
    (s.m.stage = 2 → fits → off = prog → off + n = s.m.imgLen →
      let mem := Memory.writeL s.mem a data
      ∃ t, exec (.recoveryFrame cyc p true) s = .next t ∧ answered t 0 ∧
        match s.m.imageCheck (s.m.staged mem) (if s.m.image.loaded then some s.m.image.secver else none) with
        | none => t.m.stage = 0 ∧ t.m.pwr.due = some 3 ∧ t.mem = commitAppend mem ((s.at cyc).commitForm mem 0).bytes ∧
            Raises s t [eventAt (s.at cyc) 0x4405 0 0xFF [] 0] ∧
            SameRegsBut s t [Reg.IMG_PROG, Reg.IMG_STATUS, Reg.IMG_IRQ_STAT]
        | some r => t.m.stage = 7 ∧ t.m.pwr.due = s.m.pwr.due ∧ t.mem = mem ∧ t.m.fld Reg.IMG_REJECT 31 24 = r.rule % 256 ∧
            Raises s t [eventAt (s.at cyc) 0x4402 0 0xFF ([r.rule, r.folio] ++ leBytes 2 r.detail ++ leBytes 4 r.off) 0] ∧
            SameRegsBut s t [Reg.IMG_PROG, Reg.IMG_STATUS, Reg.IMG_IRQ_STAT, Reg.IMG_REJECT, Reg.IMG_REJOFF]) ∧
    (s.m.stage = 0 ∨ s.m.stage = 7 → fits → off = 0 → 12 ≤ n → 64 ≤ le data 8 4 → le data 8 4 ≤ 33554432 → n < le data 8 4 →
      (le data 8 4 + 65535) / 65536 * 65536 ≤ 0x2000000 →
      let e := (le data 8 4 + 65535) / 65536 * 65536
      ∃ t, exec (.recoveryFrame cyc p true) s = .next t ∧ answered t 0 ∧ t.m.stage = 2 ∧ t.m.imgLen = le data 8 4 ∧
        t.m.rd Reg.IMG_PROG = BitVec.ofNat 32 n ∧ Memory.readN t.mem base n = data.map (· % 256) ∧
        (∀ b, base + n ≤ b → b < base + e → Memory.read t.mem b = 0xFF#8) ∧
        (∀ b, b < base ∨ base + e ≤ b → Memory.read t.mem b = Memory.read s.mem b) ∧
        SameRegsBut s t [Reg.IMG_LEN, Reg.IMG_PROG, Reg.IMG_STATUS] ∧ Raises s t []) ∧
    (∀ ok, s.m.stage = 2 → ¬fits ∨ off ≠ prog ∨ s.m.imgLen < prog + n →
      ∃ t, exec (.recoveryFrame cyc p ok) s = .next t ∧ refused t ∧ SameRegsBut s t [Reg.IMG_IRQ_STAT]) ∧
    (∀ ok, s.m.stage = 0 ∨ s.m.stage = 7 → ¬fits ∨ off ≠ 0 →
      ∃ t, exec (.recoveryFrame cyc p ok) s = .next t ∧ refused t ∧ SameRegsBut s t [Reg.IMG_IRQ_STAT]))

/-- Boot that ends with an image enters STANDBY and begins the tick with number 0: both lanes are LIVE, the boot's events are told, and
the boundary of tick 0 is worked through from its step 2 on; one without an image ends in the recovery state, with lane B in reset and no
tick. Before the rails are up, with a reset due, or after boot has ended, nothing happens. Completes: BOOT_COMPLETE. -/
def Obligations.BootEndsInStandbyOrRecovery : Prop :=
  ∀ (cyc : Nat) (levels : List (Bool × Bool)) (halls : List Nat) (env : BoundaryIn) (s : State),
    let ready := s.m.pwr.booted = false ∧ s.m.pwr.due = none ∧ s.m.pwr.phase = .up
    let started := (((s.at cyc).bootStart levels halls).predict (s.at cyc).arr).stampTick 0
    (ready → s.m.image.loaded = true →
      ∃ t, exec (.bootComplete cyc levels halls env) s = .next t ∧ t.m = (started.boundaryRest s.mem 0 0 env).1.settle ∧
        t.mem = (started.boundaryRest s.mem 0 0 env).2) ∧
    (started.mode = .standby ∧ started.tick.running = true ∧ started.tick.begun = false ∧ started.pwr.booted = true ∧
      started.pwr.tries = 0 ∧ started.live .a = true ∧ started.live .b = true ∧ started.seq = 0 ∧ started.time.cyc = 0 ∧
      started.bit Reg.PWR_IRQ_STAT 5 = true ∧
      (∃ e ∈ started.time.raised, e.code = 0x4802 ∧ e.cls = 0 ∧ e.data = [(s.m.rd Reg.PWR_RSTCAUSE).toNat % 256]) ∧
      ∃ e ∈ started.time.raised, e.code = 0x4801 ∧ e.cls = 0 ∧
        e.data = leBytes 4 ((s.at cyc).now / 2000) ++ leBytes 2 (s.m.rd Reg.PWR_WAKE).toNat) ∧
    (ready → s.m.image.loaded = false →
      ∃ t, exec (.bootComplete cyc levels halls env) s = .next t ∧ t.m.bit Reg.IMG_STATUS 27 = true ∧ t.m.laneCode .b = 2 ∧
        t.m.laneCode .a = s.m.laneCode .a ∧ t.m.pwr = { s.m.pwr with booted := true } ∧ t.m.tick = s.m.tick ∧
        t.m.mode = s.m.mode ∧ t.m.bit Reg.PWR_STATUS 6 = false ∧
        Quiet s t [Reg.IMG_STATUS, Reg.LANE_STATUS, healthReg .b, Reg.PWR_STATUS]) ∧
    (¬ready → ∃ t, exec (.bootComplete cyc levels halls env) s = .next t ∧ t.m.pwr = s.m.pwr ∧ t.m.tick = s.m.tick ∧ Quiet s t [])

/-! ### Interrupt lines -/

/-- The sources of lane `l`'s interrupt controller that follow bits of a status register and its enable register: source, status
register, enable register, highest bit, lowest bit (the blocks' interrupt tables). -/
def irqTable (l : Lane) : List (Nat × Nat × Nat × Nat × Nat) :=
  let one (first stat en count : Nat) := (List.range count).map fun i => (first + i, stat, en, i, i)
  [(2, Reg.TICK_IRQ_STAT l.ix, Reg.TICK_IRQ_EN l.ix, 0, 0), (3, Reg.TICK_IRQ_STAT l.ix, Reg.TICK_IRQ_EN l.ix, 3, 1),
    (4, Reg.ACQ_IRQ_STAT, Reg.ACQ_IRQ_EN, 5, 0), (5, Reg.POS_IRQ_STAT, Reg.POS_IRQ_EN, 5, 0),
    (6, Reg.LAW_IRQ_STAT l.ix, Reg.LAW_IRQ_EN l.ix, 6, 5), (7, Reg.LAW_IRQ_STAT l.ix, Reg.LAW_IRQ_EN l.ix, 4, 0),
    (40, Reg.DMA_L_IRQ_STAT l.ix, Reg.DMA_L_IRQ_EN l.ix, 0, 0), (41, Reg.DMA_L_IRQ_STAT l.ix, Reg.DMA_L_IRQ_EN l.ix, 1, 1),
    (42, Reg.DMA_L_IRQ_STAT l.ix, Reg.DMA_L_IRQ_EN l.ix, 2, 2), (43, Reg.DMA_L_IRQ_STAT l.ix, Reg.DMA_L_IRQ_EN l.ix, 4, 3),
    (48, Reg.GDI_IRQ_STAT, Reg.GDI_IRQ_EN, 2, 0), (49, Reg.GDI_IRQ_STAT, Reg.GDI_IRQ_EN, 4, 3),
    (50, Reg.GDI_IRQ_STAT, Reg.GDI_IRQ_EN, 6, 5), (51, Reg.GDI_IRQ_STAT, Reg.GDI_IRQ_EN, 7, 7),
    (52, Reg.GDI_IRQ_STAT, Reg.GDI_IRQ_EN, 8, 8), (56, Reg.LVC_IRQ_STAT, Reg.LVC_IRQ_EN, 3, 0),
    (57, Reg.LVC_IRQ_STAT, Reg.LVC_IRQ_EN, 5, 4), (58, Reg.LVC_IRQ_STAT, Reg.LVC_IRQ_EN, 7, 6),
    (59, Reg.LVC_IRQ_STAT, Reg.LVC_IRQ_EN, 10, 8), (60, Reg.GDL_IRQ_STAT, Reg.GDL_IRQ_EN, 1, 0),
    (61, Reg.GDL_IRQ_STAT, Reg.GDL_IRQ_EN, 3, 2), (62, Reg.GDL_IRQ_STAT, Reg.GDL_IRQ_EN, 4, 4),
    (63, Reg.GDL_IRQ_STAT, Reg.GDL_IRQ_EN, 5, 5), (64, Reg.CHG_IRQ_STAT, Reg.CHG_IRQ_EN, 1, 0),
    (65, Reg.CHG_IRQ_STAT, Reg.CHG_IRQ_EN, 2, 2), (66, Reg.CHG_IRQ_STAT, Reg.CHG_IRQ_EN, 3, 3),
    (67, Reg.CHG_IRQ_STAT, Reg.CHG_IRQ_EN, 5, 4), (68, Reg.CHG_IRQ_STAT, Reg.CHG_IRQ_EN, 6, 6),
    (69, Reg.CHG_IRQ_STAT, Reg.CHG_IRQ_EN, 7, 7), (70, Reg.CHG_IRQ_STAT, Reg.CHG_IRQ_EN, 9, 8)] ++
  one 72 Reg.ACT_IRQ_STAT Reg.ACT_IRQ_EN 6 ++
  [(80, Reg.LANE_L_IRQ_STAT l.ix, Reg.LANE_L_IRQ_EN l.ix, 1, 0), (81, Reg.LANE_L_IRQ_STAT l.ix, Reg.LANE_L_IRQ_EN l.ix, 2, 2),
    (82, Reg.LANE_L_IRQ_STAT l.ix, Reg.LANE_L_IRQ_EN l.ix, 3, 3), (83, Reg.LANE_L_IRQ_STAT l.ix, Reg.LANE_L_IRQ_EN l.ix, 4, 4),
    (84, Reg.LANE_L_IRQ_STAT l.ix, Reg.LANE_L_IRQ_EN l.ix, 5, 5), (85, Reg.LANE_L_IRQ_STAT l.ix, Reg.LANE_L_IRQ_EN l.ix, 6, 6),
    (86, Reg.LANE_L_IRQ_STAT l.ix, Reg.LANE_L_IRQ_EN l.ix, 7, 7)] ++
  one 88 Reg.TIME_IRQ_STAT Reg.TIME_IRQ_EN 4 ++ one 96 Reg.SAFE_IRQ_STAT Reg.SAFE_IRQ_EN 8 ++
  one 104 Reg.IMG_IRQ_STAT Reg.IMG_IRQ_EN 5 ++ [(112, Reg.SYS_IRQ_STAT, Reg.SYS_IRQ_EN, 3, 0)] ++
  one 113 Reg.PWR_IRQ_STAT Reg.PWR_IRQ_EN 7 ++ one 120 Reg.NET_IRQ_STAT Reg.NET_IRQ_EN 6

/-- A lane's sources: 1 while it is in tick context; a block's source while one of its bits is set in the status and the enable
register; a ring's while a status bit has its enable; a unit's in a state from DONE on until CRC_U_CTRL is written; no other asserts.
Source 1's priority reads as the maximum and its enable as set, whatever is written, and while it is pending no other is claimed before
it. The number of priority levels is the model's choice (log entry 13). -/
def Obligations.InterruptSourcesFollowTheirBits : Prop :=
  (∀ (s : State) (l : Lane),
    s.m.sourceAsserts l 1 = s.m.inTick l ∧
    (∀ n stat en hi lo, (n, stat, en, hi, lo) ∈ irqTable l →
      (s.m.sourceAsserts l n = true ↔ ∃ i, lo ≤ i ∧ i ≤ hi ∧ s.m.bit stat i = true ∧ s.m.bit en i = true)) ∧
    (∀ (k : Lane) (r : Fin 16), s.m.sourceAsserts l (8 + 16 * k.ix + r.val) = true ↔
      ∃ i : Fin 4, s.m.bit (Reg.DMA_R_IRQ k.ix r) i = true ∧ s.m.bit (Reg.DMA_R_CFG k.ix r) (28 + i.val) = true) ∧
    (∀ u : Fin 4, s.m.sourceAsserts l (44 + u.val) = true ↔
      2 ≤ s.m.crcState l u ∧ s.m.bit (Reg.CRC_U_CFG l.ix u) 15 = true ∧ (nth (s.m.dma.lanes.get l).units u).quiet = false) ∧
    (∀ n, n = 0 ∨ 128 ≤ n ∨ n ∈ [53, 54, 55, 71, 78, 79, 87, 92, 93, 94, 95, 109, 110, 111, 126, 127] →
      s.m.sourceAsserts l n = false) ∧
    (s.m.plicPending l 1 = true → (∀ x ∈ (s.m.plic.get l).prio, x ≤ plicMax) → s.m.plicBest l = 1)) ∧
  (∀ (p : Plic) (v : Nat), p.setPriority 1 v = p ∧ p.priority 1 = plicMax ∧ (p.setEnables v).enabled 1 = true)
end

