-- ==== Sys2Proof/Laws/Cells.lean ====
section
/-! SUPPORT. The sparse store: what a put changes, that it keeps the one canonical form, and that settling a write log changes
nothing that can be read. -/

namespace Sys2Proof.Machine

variable {w : Nat}

/-- The canonical form, said of the whole list. -/
theorem Cells.canonical_iff (d : Nat → BitVec w) (l : List (Nat × BitVec w)) :
    Cells.canonical d l = true ↔ (l.Pairwise fun p q => p.1 < q.1) ∧ ∀ p ∈ l, p.2 ≠ d p.1 := by
  induction l with
  | nil => simp [Cells.canonical]
  | cons p t ih =>
    cases t with
    | nil => simp [Cells.canonical]
    | cons q t =>
      simp only [Cells.canonical, Bool.and_eq_true, decide_eq_true_eq, ih]
      simp only [List.pairwise_cons, List.mem_cons, forall_eq_or_imp]
      constructor
      · rintro ⟨⟨h1, h2⟩, ⟨h3, h4⟩, h5, h6⟩
        exact ⟨⟨⟨h1, fun x hx => lt_trans h1 (h3 x hx)⟩, h3, h4⟩, h2, h5, h6⟩
      · rintro ⟨⟨⟨h1, -⟩, h3, h4⟩, h2, h5, h6⟩
        exact ⟨⟨h1, h2⟩, ⟨h3, h4⟩, h5, h6⟩

/-- Below the least address nothing is listed. -/
theorem Cells.get_below {l : List (Nat × BitVec w)} {e : Nat} (h : ∀ p ∈ l, e < p.1) : Cells.get l e = none := by
  induction l with
  | nil => rfl
  | cons p t ih =>
    have := h p (by simp)
    simp only [Cells.get]
    rw [if_neg (by omega)]
    exact ih fun q hq => h q (by simp [hq])

/-- What a put lists. -/
theorem Cells.mem_put {d : BitVec w} {a : Nat} {x : BitVec w} {l : List (Nat × BitVec w)} {p : Nat × BitVec w}
    (h : p ∈ Cells.put d a x l) : (p = (a, x) ∧ x ≠ d) ∨ p ∈ l := by
  induction l with
  | nil => simp only [Cells.put] at h; split at h <;> simp_all
  | cons q t ih =>
    simp only [Cells.put] at h
    split at h
    · split at h <;> simp_all
    · split at h
      · split at h <;> simp_all; tauto
      · simp only [List.mem_cons] at h ⊢
        rcases h with h | h
        · exact .inr (.inl h)
        · rcases ih h with h | h
          · exact .inl h
          · exact .inr (.inr h)

/-- A put keeps rising addresses. -/
theorem Cells.put_sorted {d : BitVec w} {a : Nat} {x : BitVec w} {l : List (Nat × BitVec w)}
    (h : l.Pairwise fun p q => p.1 < q.1) : (Cells.put d a x l).Pairwise fun p q => p.1 < q.1 := by
  induction l with
  | nil => simp only [Cells.put]; split <;> simp
  | cons q t ih =>
    have ⟨h1, h2⟩ := List.pairwise_cons.1 h
    simp only [Cells.put]
    split
    · split
      · exact h
      · refine List.pairwise_cons.2 ⟨?_, h⟩
        intro p hp
        rcases List.mem_cons.1 hp with rfl | hp
        · assumption
        · exact lt_trans (by assumption) (h1 p hp)
    · split
      · rename_i h3 h4
        split
        · exact h2
        · exact List.pairwise_cons.2 ⟨fun p hp => by simpa [h4] using h1 p hp, h2⟩
      · rename_i h3 h4
        refine List.pairwise_cons.2 ⟨fun p hp => ?_, ih h2⟩
        rcases Cells.mem_put hp with ⟨rfl, -⟩ | hp
        · simp only; omega
        · exact h1 p hp

/-- A put keeps the canonical form. -/
theorem Cells.put_canonical {d : Nat → BitVec w} {a : Nat} {x : BitVec w} {l : List (Nat × BitVec w)}
    (h : Cells.canonical d l = true) : Cells.canonical d (Cells.put (d a) a x l) = true := by
  rw [Cells.canonical_iff] at h ⊢
  refine ⟨Cells.put_sorted h.1, fun p hp => ?_⟩
  rcases Cells.mem_put hp with ⟨rfl, hx⟩ | hp
  · exact hx
  · exact h.2 p hp

/-- Settling gives the canonical form, whatever the log. -/
theorem Cells.settle_canonical (d : Nat → BitVec w) (l : List (Nat × BitVec w)) : Cells.canonical d (Cells.settle d l) = true := by
  induction l with
  | nil => rfl
  | cons p t ih => exact Cells.put_canonical ih

/-- What reads after a put. -/
theorem Cells.get_put {d : Nat → BitVec w} {a b : Nat} {x : BitVec w} {l : List (Nat × BitVec w)}
    (h : l.Pairwise fun p q => p.1 < q.1) :
    (Cells.get (Cells.put (d a) a x l) b).getD (d b) = if b = a then x else (Cells.get l b).getD (d b) := by
  induction l with
  | nil =>
    by_cases hb : b = a
    · subst hb; by_cases hx : x = d b <;> simp [Cells.put, Cells.get, hx]
    · by_cases hx : x = d a <;> simp [Cells.put, Cells.get, hx, hb, Ne.symm hb]
  | cons q t ih =>
    have ⟨h1, h2⟩ := List.pairwise_cons.1 h
    have hb0 := Cells.get_below (l := t) (e := q.1) h1
    simp only [Cells.put]
    by_cases h3 : a < q.1
    · have hba : Cells.get (q :: t) a = none :=
        Cells.get_below fun p hp => by
          rcases List.mem_cons.1 hp with rfl | hp
          · exact h3
          · exact lt_trans h3 (h1 p hp)
      rw [if_pos h3]
      by_cases hb : b = a
      · subst hb
        by_cases hx : x = d b
        · simp [hx, hba]
        · simp [hx, Cells.get]
      · by_cases hx : x = d a
        · simp [hx, hb]
        · simp [hx, hb, Cells.get, Ne.symm hb]
    · rw [if_neg h3]
      by_cases h4 : a = q.1
      · rw [if_pos h4]
        by_cases hb : b = a
        · subst hb
          by_cases hx : x = d b
          · simp [hx, h4, hb0]
          · simp [hx, Cells.get]
        · have hq : ¬ q.1 = b := fun h => hb (by rw [h4, h])
          by_cases hx : x = d a
          · simp [hx, hb, Cells.get, hq]
          · simp [hx, hb, Cells.get, hq, Ne.symm hb]
      · rw [if_neg h4]
        by_cases hq : q.1 = b
        · have : ¬ b = a := fun h => h4 (by rw [← h, hq])
          simp [Cells.get, hq, this]
        · simpa [Cells.get, hq] using ih h2

/-- Settling changes nothing that can be read. -/
theorem Cells.get_settle (d : Nat → BitVec w) (l : List (Nat × BitVec w)) (b : Nat) :
    (Cells.get (Cells.settle d l) b).getD (d b) = (Cells.get l b).getD (d b) := by
  induction l with
  | nil => rfl
  | cons p t ih =>
    have hs := ((Cells.canonical_iff d _).1 (Cells.settle_canonical d t)).1
    rw [Cells.settle, Cells.get_put hs, ih]
    by_cases hb : b = p.1
    · simp [Cells.get, hb]
    · simp [Cells.get, hb, Ne.symm hb]

/-- Leaving entries out keeps the canonical form. -/
theorem Cells.filter_canonical {d : Nat → BitVec w} {l : List (Nat × BitVec w)} (f : Nat × BitVec w → Bool)
    (h : Cells.canonical d l = true) : Cells.canonical d (l.filter f) = true := by
  rw [Cells.canonical_iff] at h ⊢
  exact ⟨h.1.sublist List.filter_sublist, fun p hp => h.2 p (List.mem_filter.1 hp).1⟩

end Sys2Proof.Machine
end

