-- ==== Sys2Proof/Laws/State.lean ====
section
/-! SUPPORT. One lemma per field per update of the machine, so that no proof unfolds a record update. Each is true by
computation. -/

namespace Sys2Proof.Machine

variable (m : Mach)
section
variable (a : Nat) (w : Word)
@[simp] theorem Mach.wr_variant : (m.wr a w).variant = m.variant := rfl
@[simp] theorem Mach.wr_regs : (m.wr a w).regs = (a, w) :: m.regs := rfl
@[simp] theorem Mach.wr_reply : (m.wr a w).reply = m.reply := rfl
@[simp] theorem Mach.wr_locked : (m.wr a w).locked = m.locked := rfl
@[simp] theorem Mach.wr_free : (m.wr a w).free = m.free := rfl
@[simp] theorem Mach.wr_image : (m.wr a w).image = m.image := rfl
@[simp] theorem Mach.wr_sys : (m.wr a w).sys = m.sys := rfl
@[simp] theorem Mach.wr_tick : (m.wr a w).tick = m.tick := rfl
@[simp] theorem Mach.wr_acq : (m.wr a w).acq = m.acq := rfl
@[simp] theorem Mach.wr_pos : (m.wr a w).pos = m.pos := rfl
@[simp] theorem Mach.wr_law : (m.wr a w).law = m.law := rfl
@[simp] theorem Mach.wr_foc : (m.wr a w).foc = m.foc := rfl
@[simp] theorem Mach.wr_mod : (m.wr a w).mod = m.mod := rfl
@[simp] theorem Mach.wr_gate : (m.wr a w).gate = m.gate := rfl
@[simp] theorem Mach.wr_lvc : (m.wr a w).lvc = m.lvc := rfl
@[simp] theorem Mach.wr_chg : (m.wr a w).chg = m.chg := rfl
@[simp] theorem Mach.wr_act : (m.wr a w).act = m.act := rfl
@[simp] theorem Mach.wr_offers : (m.wr a w).offers = m.offers := rfl
@[simp] theorem Mach.wr_dma : (m.wr a w).dma = m.dma := rfl
@[simp] theorem Mach.wr_time : (m.wr a w).time = m.time := rfl
@[simp] theorem Mach.wr_net : (m.wr a w).net = m.net := rfl
@[simp] theorem Mach.wr_lanes : (m.wr a w).lanes = m.lanes := rfl
@[simp] theorem Mach.wr_lane : (m.wr a w).lane = m.lane := rfl
@[simp] theorem Mach.wr_pwr : (m.wr a w).pwr = m.pwr := rfl
@[simp] theorem Mach.wr_safe : (m.wr a w).safe = m.safe := rfl
@[simp] theorem Mach.wr_img : (m.wr a w).img = m.img := rfl
@[simp] theorem Mach.wr_plic : (m.wr a w).plic = m.plic := rfl
@[simp] theorem Mach.wr_setNow : (m.wr a w).setNow = m.setNow := rfl
end

section
variable (f : SysState → SysState)
@[simp] theorem Mach.onSys_variant : (m.onSys f).variant = m.variant := rfl
@[simp] theorem Mach.onSys_regs : (m.onSys f).regs = m.regs := rfl
@[simp] theorem Mach.onSys_reply : (m.onSys f).reply = m.reply := rfl
@[simp] theorem Mach.onSys_locked : (m.onSys f).locked = m.locked := rfl
@[simp] theorem Mach.onSys_free : (m.onSys f).free = m.free := rfl
@[simp] theorem Mach.onSys_image : (m.onSys f).image = m.image := rfl
@[simp] theorem Mach.onSys_sys : (m.onSys f).sys = f m.sys := rfl
@[simp] theorem Mach.onSys_tick : (m.onSys f).tick = m.tick := rfl
@[simp] theorem Mach.onSys_acq : (m.onSys f).acq = m.acq := rfl
@[simp] theorem Mach.onSys_pos : (m.onSys f).pos = m.pos := rfl
@[simp] theorem Mach.onSys_law : (m.onSys f).law = m.law := rfl
@[simp] theorem Mach.onSys_foc : (m.onSys f).foc = m.foc := rfl
@[simp] theorem Mach.onSys_mod : (m.onSys f).mod = m.mod := rfl
@[simp] theorem Mach.onSys_gate : (m.onSys f).gate = m.gate := rfl
@[simp] theorem Mach.onSys_lvc : (m.onSys f).lvc = m.lvc := rfl
@[simp] theorem Mach.onSys_chg : (m.onSys f).chg = m.chg := rfl
@[simp] theorem Mach.onSys_act : (m.onSys f).act = m.act := rfl
@[simp] theorem Mach.onSys_offers : (m.onSys f).offers = m.offers := rfl
@[simp] theorem Mach.onSys_dma : (m.onSys f).dma = m.dma := rfl
@[simp] theorem Mach.onSys_time : (m.onSys f).time = m.time := rfl
@[simp] theorem Mach.onSys_net : (m.onSys f).net = m.net := rfl
@[simp] theorem Mach.onSys_lanes : (m.onSys f).lanes = m.lanes := rfl
@[simp] theorem Mach.onSys_lane : (m.onSys f).lane = m.lane := rfl
@[simp] theorem Mach.onSys_pwr : (m.onSys f).pwr = m.pwr := rfl
@[simp] theorem Mach.onSys_safe : (m.onSys f).safe = m.safe := rfl
@[simp] theorem Mach.onSys_img : (m.onSys f).img = m.img := rfl
@[simp] theorem Mach.onSys_plic : (m.onSys f).plic = m.plic := rfl
@[simp] theorem Mach.onSys_setNow : (m.onSys f).setNow = m.setNow := rfl
@[simp] theorem Mach.onSys_rd (b : Nat) : (m.onSys f).rd b = m.rd b := rfl
@[simp] theorem Mach.onSys_fld (b h l0 : Nat) : (m.onSys f).fld b h l0 = m.fld b h l0 := rfl
@[simp] theorem Mach.onSys_bit (b j : Nat) : (m.onSys f).bit b j = m.bit b j := rfl
end

section
variable (f : AcqState → AcqState)
@[simp] theorem Mach.onAcq_variant : (m.onAcq f).variant = m.variant := rfl
@[simp] theorem Mach.onAcq_regs : (m.onAcq f).regs = m.regs := rfl
@[simp] theorem Mach.onAcq_reply : (m.onAcq f).reply = m.reply := rfl
@[simp] theorem Mach.onAcq_locked : (m.onAcq f).locked = m.locked := rfl
@[simp] theorem Mach.onAcq_free : (m.onAcq f).free = m.free := rfl
@[simp] theorem Mach.onAcq_image : (m.onAcq f).image = m.image := rfl
@[simp] theorem Mach.onAcq_sys : (m.onAcq f).sys = m.sys := rfl
@[simp] theorem Mach.onAcq_tick : (m.onAcq f).tick = m.tick := rfl
@[simp] theorem Mach.onAcq_acq : (m.onAcq f).acq = f m.acq := rfl
@[simp] theorem Mach.onAcq_pos : (m.onAcq f).pos = m.pos := rfl
@[simp] theorem Mach.onAcq_law : (m.onAcq f).law = m.law := rfl
@[simp] theorem Mach.onAcq_foc : (m.onAcq f).foc = m.foc := rfl
@[simp] theorem Mach.onAcq_mod : (m.onAcq f).mod = m.mod := rfl
@[simp] theorem Mach.onAcq_gate : (m.onAcq f).gate = m.gate := rfl
@[simp] theorem Mach.onAcq_lvc : (m.onAcq f).lvc = m.lvc := rfl
@[simp] theorem Mach.onAcq_chg : (m.onAcq f).chg = m.chg := rfl
@[simp] theorem Mach.onAcq_act : (m.onAcq f).act = m.act := rfl
@[simp] theorem Mach.onAcq_offers : (m.onAcq f).offers = m.offers := rfl
@[simp] theorem Mach.onAcq_dma : (m.onAcq f).dma = m.dma := rfl
@[simp] theorem Mach.onAcq_time : (m.onAcq f).time = m.time := rfl
@[simp] theorem Mach.onAcq_net : (m.onAcq f).net = m.net := rfl
@[simp] theorem Mach.onAcq_lanes : (m.onAcq f).lanes = m.lanes := rfl
@[simp] theorem Mach.onAcq_lane : (m.onAcq f).lane = m.lane := rfl
@[simp] theorem Mach.onAcq_pwr : (m.onAcq f).pwr = m.pwr := rfl
@[simp] theorem Mach.onAcq_safe : (m.onAcq f).safe = m.safe := rfl
@[simp] theorem Mach.onAcq_img : (m.onAcq f).img = m.img := rfl
@[simp] theorem Mach.onAcq_plic : (m.onAcq f).plic = m.plic := rfl
@[simp] theorem Mach.onAcq_setNow : (m.onAcq f).setNow = m.setNow := rfl
@[simp] theorem Mach.onAcq_rd (b : Nat) : (m.onAcq f).rd b = m.rd b := rfl
@[simp] theorem Mach.onAcq_fld (b h l0 : Nat) : (m.onAcq f).fld b h l0 = m.fld b h l0 := rfl
@[simp] theorem Mach.onAcq_bit (b j : Nat) : (m.onAcq f).bit b j = m.bit b j := rfl
end

section
variable (f : PosState → PosState)
@[simp] theorem Mach.onPos_variant : (m.onPos f).variant = m.variant := rfl
@[simp] theorem Mach.onPos_regs : (m.onPos f).regs = m.regs := rfl
@[simp] theorem Mach.onPos_reply : (m.onPos f).reply = m.reply := rfl
@[simp] theorem Mach.onPos_locked : (m.onPos f).locked = m.locked := rfl
@[simp] theorem Mach.onPos_free : (m.onPos f).free = m.free := rfl
@[simp] theorem Mach.onPos_image : (m.onPos f).image = m.image := rfl
@[simp] theorem Mach.onPos_sys : (m.onPos f).sys = m.sys := rfl
@[simp] theorem Mach.onPos_tick : (m.onPos f).tick = m.tick := rfl
@[simp] theorem Mach.onPos_acq : (m.onPos f).acq = m.acq := rfl
@[simp] theorem Mach.onPos_pos : (m.onPos f).pos = f m.pos := rfl
@[simp] theorem Mach.onPos_law : (m.onPos f).law = m.law := rfl
@[simp] theorem Mach.onPos_foc : (m.onPos f).foc = m.foc := rfl
@[simp] theorem Mach.onPos_mod : (m.onPos f).mod = m.mod := rfl
@[simp] theorem Mach.onPos_gate : (m.onPos f).gate = m.gate := rfl
@[simp] theorem Mach.onPos_lvc : (m.onPos f).lvc = m.lvc := rfl
@[simp] theorem Mach.onPos_chg : (m.onPos f).chg = m.chg := rfl
@[simp] theorem Mach.onPos_act : (m.onPos f).act = m.act := rfl
@[simp] theorem Mach.onPos_offers : (m.onPos f).offers = m.offers := rfl
@[simp] theorem Mach.onPos_dma : (m.onPos f).dma = m.dma := rfl
@[simp] theorem Mach.onPos_time : (m.onPos f).time = m.time := rfl
@[simp] theorem Mach.onPos_net : (m.onPos f).net = m.net := rfl
@[simp] theorem Mach.onPos_lanes : (m.onPos f).lanes = m.lanes := rfl
@[simp] theorem Mach.onPos_lane : (m.onPos f).lane = m.lane := rfl
@[simp] theorem Mach.onPos_pwr : (m.onPos f).pwr = m.pwr := rfl
@[simp] theorem Mach.onPos_safe : (m.onPos f).safe = m.safe := rfl
@[simp] theorem Mach.onPos_img : (m.onPos f).img = m.img := rfl
@[simp] theorem Mach.onPos_plic : (m.onPos f).plic = m.plic := rfl
@[simp] theorem Mach.onPos_setNow : (m.onPos f).setNow = m.setNow := rfl
@[simp] theorem Mach.onPos_rd (b : Nat) : (m.onPos f).rd b = m.rd b := rfl
@[simp] theorem Mach.onPos_fld (b h l0 : Nat) : (m.onPos f).fld b h l0 = m.fld b h l0 := rfl
@[simp] theorem Mach.onPos_bit (b j : Nat) : (m.onPos f).bit b j = m.bit b j := rfl
end

section
variable (l : Lane) (f : LawLane → LawLane)
@[simp] theorem Mach.onLaw_variant : (m.onLaw l f).variant = m.variant := rfl
@[simp] theorem Mach.onLaw_regs : (m.onLaw l f).regs = m.regs := rfl
@[simp] theorem Mach.onLaw_reply : (m.onLaw l f).reply = m.reply := rfl
@[simp] theorem Mach.onLaw_locked : (m.onLaw l f).locked = m.locked := rfl
@[simp] theorem Mach.onLaw_free : (m.onLaw l f).free = m.free := rfl
@[simp] theorem Mach.onLaw_image : (m.onLaw l f).image = m.image := rfl
@[simp] theorem Mach.onLaw_sys : (m.onLaw l f).sys = m.sys := rfl
@[simp] theorem Mach.onLaw_tick : (m.onLaw l f).tick = m.tick := rfl
@[simp] theorem Mach.onLaw_acq : (m.onLaw l f).acq = m.acq := rfl
@[simp] theorem Mach.onLaw_pos : (m.onLaw l f).pos = m.pos := rfl
@[simp] theorem Mach.onLaw_law : (m.onLaw l f).law = m.law.set l (f (m.law.get l)) := rfl
@[simp] theorem Mach.onLaw_foc : (m.onLaw l f).foc = m.foc := rfl
@[simp] theorem Mach.onLaw_mod : (m.onLaw l f).mod = m.mod := rfl
@[simp] theorem Mach.onLaw_gate : (m.onLaw l f).gate = m.gate := rfl
@[simp] theorem Mach.onLaw_lvc : (m.onLaw l f).lvc = m.lvc := rfl
@[simp] theorem Mach.onLaw_chg : (m.onLaw l f).chg = m.chg := rfl
@[simp] theorem Mach.onLaw_act : (m.onLaw l f).act = m.act := rfl
@[simp] theorem Mach.onLaw_offers : (m.onLaw l f).offers = m.offers := rfl
@[simp] theorem Mach.onLaw_dma : (m.onLaw l f).dma = m.dma := rfl
@[simp] theorem Mach.onLaw_time : (m.onLaw l f).time = m.time := rfl
@[simp] theorem Mach.onLaw_net : (m.onLaw l f).net = m.net := rfl
@[simp] theorem Mach.onLaw_lanes : (m.onLaw l f).lanes = m.lanes := rfl
@[simp] theorem Mach.onLaw_lane : (m.onLaw l f).lane = m.lane := rfl
@[simp] theorem Mach.onLaw_pwr : (m.onLaw l f).pwr = m.pwr := rfl
@[simp] theorem Mach.onLaw_safe : (m.onLaw l f).safe = m.safe := rfl
@[simp] theorem Mach.onLaw_img : (m.onLaw l f).img = m.img := rfl
@[simp] theorem Mach.onLaw_plic : (m.onLaw l f).plic = m.plic := rfl
@[simp] theorem Mach.onLaw_setNow : (m.onLaw l f).setNow = m.setNow := rfl
@[simp] theorem Mach.onLaw_rd (b : Nat) : (m.onLaw l f).rd b = m.rd b := rfl
@[simp] theorem Mach.onLaw_fld (b h l0 : Nat) : (m.onLaw l f).fld b h l0 = m.fld b h l0 := rfl
@[simp] theorem Mach.onLaw_bit (b j : Nat) : (m.onLaw l f).bit b j = m.bit b j := rfl
end

section
variable (l : Lane) (i : Nat) (f : FocMotor → FocMotor)
@[simp] theorem Mach.onMotor_variant : (m.onMotor l i f).variant = m.variant := rfl
@[simp] theorem Mach.onMotor_regs : (m.onMotor l i f).regs = m.regs := rfl
@[simp] theorem Mach.onMotor_reply : (m.onMotor l i f).reply = m.reply := rfl
@[simp] theorem Mach.onMotor_locked : (m.onMotor l i f).locked = m.locked := rfl
@[simp] theorem Mach.onMotor_free : (m.onMotor l i f).free = m.free := rfl
@[simp] theorem Mach.onMotor_image : (m.onMotor l i f).image = m.image := rfl
@[simp] theorem Mach.onMotor_sys : (m.onMotor l i f).sys = m.sys := rfl
@[simp] theorem Mach.onMotor_tick : (m.onMotor l i f).tick = m.tick := rfl
@[simp] theorem Mach.onMotor_acq : (m.onMotor l i f).acq = m.acq := rfl
@[simp] theorem Mach.onMotor_pos : (m.onMotor l i f).pos = m.pos := rfl
@[simp] theorem Mach.onMotor_law : (m.onMotor l i f).law = m.law := rfl
@[simp] theorem Mach.onMotor_foc : (m.onMotor l i f).foc = m.foc.set l (upd (m.foc.get l) i f) := rfl
@[simp] theorem Mach.onMotor_mod : (m.onMotor l i f).mod = m.mod := rfl
@[simp] theorem Mach.onMotor_gate : (m.onMotor l i f).gate = m.gate := rfl
@[simp] theorem Mach.onMotor_lvc : (m.onMotor l i f).lvc = m.lvc := rfl
@[simp] theorem Mach.onMotor_chg : (m.onMotor l i f).chg = m.chg := rfl
@[simp] theorem Mach.onMotor_act : (m.onMotor l i f).act = m.act := rfl
@[simp] theorem Mach.onMotor_offers : (m.onMotor l i f).offers = m.offers := rfl
@[simp] theorem Mach.onMotor_dma : (m.onMotor l i f).dma = m.dma := rfl
@[simp] theorem Mach.onMotor_time : (m.onMotor l i f).time = m.time := rfl
@[simp] theorem Mach.onMotor_net : (m.onMotor l i f).net = m.net := rfl
@[simp] theorem Mach.onMotor_lanes : (m.onMotor l i f).lanes = m.lanes := rfl
@[simp] theorem Mach.onMotor_lane : (m.onMotor l i f).lane = m.lane := rfl
@[simp] theorem Mach.onMotor_pwr : (m.onMotor l i f).pwr = m.pwr := rfl
@[simp] theorem Mach.onMotor_safe : (m.onMotor l i f).safe = m.safe := rfl
@[simp] theorem Mach.onMotor_img : (m.onMotor l i f).img = m.img := rfl
@[simp] theorem Mach.onMotor_plic : (m.onMotor l i f).plic = m.plic := rfl
@[simp] theorem Mach.onMotor_setNow : (m.onMotor l i f).setNow = m.setNow := rfl
@[simp] theorem Mach.onMotor_rd (b : Nat) : (m.onMotor l i f).rd b = m.rd b := rfl
@[simp] theorem Mach.onMotor_fld (b h l0 : Nat) : (m.onMotor l i f).fld b h l0 = m.fld b h l0 := rfl
@[simp] theorem Mach.onMotor_bit (b j : Nat) : (m.onMotor l i f).bit b j = m.bit b j := rfl
end

section
variable (l : Lane) (k : Nat) (f : ModSlot → ModSlot)
@[simp] theorem Mach.onMod_variant : (m.onMod l k f).variant = m.variant := rfl
@[simp] theorem Mach.onMod_regs : (m.onMod l k f).regs = m.regs := rfl
@[simp] theorem Mach.onMod_reply : (m.onMod l k f).reply = m.reply := rfl
@[simp] theorem Mach.onMod_locked : (m.onMod l k f).locked = m.locked := rfl
@[simp] theorem Mach.onMod_free : (m.onMod l k f).free = m.free := rfl
@[simp] theorem Mach.onMod_image : (m.onMod l k f).image = m.image := rfl
@[simp] theorem Mach.onMod_sys : (m.onMod l k f).sys = m.sys := rfl
@[simp] theorem Mach.onMod_tick : (m.onMod l k f).tick = m.tick := rfl
@[simp] theorem Mach.onMod_acq : (m.onMod l k f).acq = m.acq := rfl
@[simp] theorem Mach.onMod_pos : (m.onMod l k f).pos = m.pos := rfl
@[simp] theorem Mach.onMod_law : (m.onMod l k f).law = m.law := rfl
@[simp] theorem Mach.onMod_foc : (m.onMod l k f).foc = m.foc := rfl
@[simp] theorem Mach.onMod_mod : (m.onMod l k f).mod = m.mod.set l (upd (m.mod.get l) k f) := rfl
@[simp] theorem Mach.onMod_gate : (m.onMod l k f).gate = m.gate := rfl
@[simp] theorem Mach.onMod_lvc : (m.onMod l k f).lvc = m.lvc := rfl
@[simp] theorem Mach.onMod_chg : (m.onMod l k f).chg = m.chg := rfl
@[simp] theorem Mach.onMod_act : (m.onMod l k f).act = m.act := rfl
@[simp] theorem Mach.onMod_offers : (m.onMod l k f).offers = m.offers := rfl
@[simp] theorem Mach.onMod_dma : (m.onMod l k f).dma = m.dma := rfl
@[simp] theorem Mach.onMod_time : (m.onMod l k f).time = m.time := rfl
@[simp] theorem Mach.onMod_net : (m.onMod l k f).net = m.net := rfl
@[simp] theorem Mach.onMod_lanes : (m.onMod l k f).lanes = m.lanes := rfl
@[simp] theorem Mach.onMod_lane : (m.onMod l k f).lane = m.lane := rfl
@[simp] theorem Mach.onMod_pwr : (m.onMod l k f).pwr = m.pwr := rfl
@[simp] theorem Mach.onMod_safe : (m.onMod l k f).safe = m.safe := rfl
@[simp] theorem Mach.onMod_img : (m.onMod l k f).img = m.img := rfl
@[simp] theorem Mach.onMod_plic : (m.onMod l k f).plic = m.plic := rfl
@[simp] theorem Mach.onMod_setNow : (m.onMod l k f).setNow = m.setNow := rfl
@[simp] theorem Mach.onMod_rd (b : Nat) : (m.onMod l k f).rd b = m.rd b := rfl
@[simp] theorem Mach.onMod_fld (b h l0 : Nat) : (m.onMod l k f).fld b h l0 = m.fld b h l0 := rfl
@[simp] theorem Mach.onMod_bit (b j : Nat) : (m.onMod l k f).bit b j = m.bit b j := rfl
end

section
variable (f : GateState → GateState)
@[simp] theorem Mach.onGate_variant : (m.onGate f).variant = m.variant := rfl
@[simp] theorem Mach.onGate_regs : (m.onGate f).regs = m.regs := rfl
@[simp] theorem Mach.onGate_reply : (m.onGate f).reply = m.reply := rfl
@[simp] theorem Mach.onGate_locked : (m.onGate f).locked = m.locked := rfl
@[simp] theorem Mach.onGate_free : (m.onGate f).free = m.free := rfl
@[simp] theorem Mach.onGate_image : (m.onGate f).image = m.image := rfl
@[simp] theorem Mach.onGate_sys : (m.onGate f).sys = m.sys := rfl
@[simp] theorem Mach.onGate_tick : (m.onGate f).tick = m.tick := rfl
@[simp] theorem Mach.onGate_acq : (m.onGate f).acq = m.acq := rfl
@[simp] theorem Mach.onGate_pos : (m.onGate f).pos = m.pos := rfl
@[simp] theorem Mach.onGate_law : (m.onGate f).law = m.law := rfl
@[simp] theorem Mach.onGate_foc : (m.onGate f).foc = m.foc := rfl
@[simp] theorem Mach.onGate_mod : (m.onGate f).mod = m.mod := rfl
@[simp] theorem Mach.onGate_gate : (m.onGate f).gate = f m.gate := rfl
@[simp] theorem Mach.onGate_lvc : (m.onGate f).lvc = m.lvc := rfl
@[simp] theorem Mach.onGate_chg : (m.onGate f).chg = m.chg := rfl
@[simp] theorem Mach.onGate_act : (m.onGate f).act = m.act := rfl
@[simp] theorem Mach.onGate_offers : (m.onGate f).offers = m.offers := rfl
@[simp] theorem Mach.onGate_dma : (m.onGate f).dma = m.dma := rfl
@[simp] theorem Mach.onGate_time : (m.onGate f).time = m.time := rfl
@[simp] theorem Mach.onGate_net : (m.onGate f).net = m.net := rfl
@[simp] theorem Mach.onGate_lanes : (m.onGate f).lanes = m.lanes := rfl
@[simp] theorem Mach.onGate_lane : (m.onGate f).lane = m.lane := rfl
@[simp] theorem Mach.onGate_pwr : (m.onGate f).pwr = m.pwr := rfl
@[simp] theorem Mach.onGate_safe : (m.onGate f).safe = m.safe := rfl
@[simp] theorem Mach.onGate_img : (m.onGate f).img = m.img := rfl
@[simp] theorem Mach.onGate_plic : (m.onGate f).plic = m.plic := rfl
@[simp] theorem Mach.onGate_setNow : (m.onGate f).setNow = m.setNow := rfl
@[simp] theorem Mach.onGate_rd (b : Nat) : (m.onGate f).rd b = m.rd b := rfl
@[simp] theorem Mach.onGate_fld (b h l0 : Nat) : (m.onGate f).fld b h l0 = m.fld b h l0 := rfl
@[simp] theorem Mach.onGate_bit (b j : Nat) : (m.onGate f).bit b j = m.bit b j := rfl
end

section
variable (f : LvcState → LvcState)
@[simp] theorem Mach.onLvc_variant : (m.onLvc f).variant = m.variant := rfl
@[simp] theorem Mach.onLvc_regs : (m.onLvc f).regs = m.regs := rfl
@[simp] theorem Mach.onLvc_reply : (m.onLvc f).reply = m.reply := rfl
@[simp] theorem Mach.onLvc_locked : (m.onLvc f).locked = m.locked := rfl
@[simp] theorem Mach.onLvc_free : (m.onLvc f).free = m.free := rfl
@[simp] theorem Mach.onLvc_image : (m.onLvc f).image = m.image := rfl
@[simp] theorem Mach.onLvc_sys : (m.onLvc f).sys = m.sys := rfl
@[simp] theorem Mach.onLvc_tick : (m.onLvc f).tick = m.tick := rfl
@[simp] theorem Mach.onLvc_acq : (m.onLvc f).acq = m.acq := rfl
@[simp] theorem Mach.onLvc_pos : (m.onLvc f).pos = m.pos := rfl
@[simp] theorem Mach.onLvc_law : (m.onLvc f).law = m.law := rfl
@[simp] theorem Mach.onLvc_foc : (m.onLvc f).foc = m.foc := rfl
@[simp] theorem Mach.onLvc_mod : (m.onLvc f).mod = m.mod := rfl
@[simp] theorem Mach.onLvc_gate : (m.onLvc f).gate = m.gate := rfl
@[simp] theorem Mach.onLvc_lvc : (m.onLvc f).lvc = f m.lvc := rfl
@[simp] theorem Mach.onLvc_chg : (m.onLvc f).chg = m.chg := rfl
@[simp] theorem Mach.onLvc_act : (m.onLvc f).act = m.act := rfl
@[simp] theorem Mach.onLvc_offers : (m.onLvc f).offers = m.offers := rfl
@[simp] theorem Mach.onLvc_dma : (m.onLvc f).dma = m.dma := rfl
@[simp] theorem Mach.onLvc_time : (m.onLvc f).time = m.time := rfl
@[simp] theorem Mach.onLvc_net : (m.onLvc f).net = m.net := rfl
@[simp] theorem Mach.onLvc_lanes : (m.onLvc f).lanes = m.lanes := rfl
@[simp] theorem Mach.onLvc_lane : (m.onLvc f).lane = m.lane := rfl
@[simp] theorem Mach.onLvc_pwr : (m.onLvc f).pwr = m.pwr := rfl
@[simp] theorem Mach.onLvc_safe : (m.onLvc f).safe = m.safe := rfl
@[simp] theorem Mach.onLvc_img : (m.onLvc f).img = m.img := rfl
@[simp] theorem Mach.onLvc_plic : (m.onLvc f).plic = m.plic := rfl
@[simp] theorem Mach.onLvc_setNow : (m.onLvc f).setNow = m.setNow := rfl
@[simp] theorem Mach.onLvc_rd (b : Nat) : (m.onLvc f).rd b = m.rd b := rfl
@[simp] theorem Mach.onLvc_fld (b h l0 : Nat) : (m.onLvc f).fld b h l0 = m.fld b h l0 := rfl
@[simp] theorem Mach.onLvc_bit (b j : Nat) : (m.onLvc f).bit b j = m.bit b j := rfl
end

section
variable (f : ChgState → ChgState)
@[simp] theorem Mach.onChg_variant : (m.onChg f).variant = m.variant := rfl
@[simp] theorem Mach.onChg_regs : (m.onChg f).regs = m.regs := rfl
@[simp] theorem Mach.onChg_reply : (m.onChg f).reply = m.reply := rfl
@[simp] theorem Mach.onChg_locked : (m.onChg f).locked = m.locked := rfl
@[simp] theorem Mach.onChg_free : (m.onChg f).free = m.free := rfl
@[simp] theorem Mach.onChg_image : (m.onChg f).image = m.image := rfl
@[simp] theorem Mach.onChg_sys : (m.onChg f).sys = m.sys := rfl
@[simp] theorem Mach.onChg_tick : (m.onChg f).tick = m.tick := rfl
@[simp] theorem Mach.onChg_acq : (m.onChg f).acq = m.acq := rfl
@[simp] theorem Mach.onChg_pos : (m.onChg f).pos = m.pos := rfl
@[simp] theorem Mach.onChg_law : (m.onChg f).law = m.law := rfl
@[simp] theorem Mach.onChg_foc : (m.onChg f).foc = m.foc := rfl
@[simp] theorem Mach.onChg_mod : (m.onChg f).mod = m.mod := rfl
@[simp] theorem Mach.onChg_gate : (m.onChg f).gate = m.gate := rfl
@[simp] theorem Mach.onChg_lvc : (m.onChg f).lvc = m.lvc := rfl
@[simp] theorem Mach.onChg_chg : (m.onChg f).chg = f m.chg := rfl
@[simp] theorem Mach.onChg_act : (m.onChg f).act = m.act := rfl
@[simp] theorem Mach.onChg_offers : (m.onChg f).offers = m.offers := rfl
@[simp] theorem Mach.onChg_dma : (m.onChg f).dma = m.dma := rfl
@[simp] theorem Mach.onChg_time : (m.onChg f).time = m.time := rfl
@[simp] theorem Mach.onChg_net : (m.onChg f).net = m.net := rfl
@[simp] theorem Mach.onChg_lanes : (m.onChg f).lanes = m.lanes := rfl
@[simp] theorem Mach.onChg_lane : (m.onChg f).lane = m.lane := rfl
@[simp] theorem Mach.onChg_pwr : (m.onChg f).pwr = m.pwr := rfl
@[simp] theorem Mach.onChg_safe : (m.onChg f).safe = m.safe := rfl
@[simp] theorem Mach.onChg_img : (m.onChg f).img = m.img := rfl
@[simp] theorem Mach.onChg_plic : (m.onChg f).plic = m.plic := rfl
@[simp] theorem Mach.onChg_setNow : (m.onChg f).setNow = m.setNow := rfl
@[simp] theorem Mach.onChg_rd (b : Nat) : (m.onChg f).rd b = m.rd b := rfl
@[simp] theorem Mach.onChg_fld (b h l0 : Nat) : (m.onChg f).fld b h l0 = m.fld b h l0 := rfl
@[simp] theorem Mach.onChg_bit (b j : Nat) : (m.onChg f).bit b j = m.bit b j := rfl
end

section
variable (d : Nat) (f : ActDrive → ActDrive)
@[simp] theorem Mach.onDrv_variant : (m.onDrv d f).variant = m.variant := rfl
@[simp] theorem Mach.onDrv_regs : (m.onDrv d f).regs = m.regs := rfl
@[simp] theorem Mach.onDrv_reply : (m.onDrv d f).reply = m.reply := rfl
@[simp] theorem Mach.onDrv_locked : (m.onDrv d f).locked = m.locked := rfl
@[simp] theorem Mach.onDrv_free : (m.onDrv d f).free = m.free := rfl
@[simp] theorem Mach.onDrv_image : (m.onDrv d f).image = m.image := rfl
@[simp] theorem Mach.onDrv_sys : (m.onDrv d f).sys = m.sys := rfl
@[simp] theorem Mach.onDrv_tick : (m.onDrv d f).tick = m.tick := rfl
@[simp] theorem Mach.onDrv_acq : (m.onDrv d f).acq = m.acq := rfl
@[simp] theorem Mach.onDrv_pos : (m.onDrv d f).pos = m.pos := rfl
@[simp] theorem Mach.onDrv_law : (m.onDrv d f).law = m.law := rfl
@[simp] theorem Mach.onDrv_foc : (m.onDrv d f).foc = m.foc := rfl
@[simp] theorem Mach.onDrv_mod : (m.onDrv d f).mod = m.mod := rfl
@[simp] theorem Mach.onDrv_gate : (m.onDrv d f).gate = m.gate := rfl
@[simp] theorem Mach.onDrv_lvc : (m.onDrv d f).lvc = m.lvc := rfl
@[simp] theorem Mach.onDrv_chg : (m.onDrv d f).chg = m.chg := rfl
@[simp] theorem Mach.onDrv_act : (m.onDrv d f).act = { m.act with drives := upd m.act.drives d f } := rfl
@[simp] theorem Mach.onDrv_offers : (m.onDrv d f).offers = m.offers := rfl
@[simp] theorem Mach.onDrv_dma : (m.onDrv d f).dma = m.dma := rfl
@[simp] theorem Mach.onDrv_time : (m.onDrv d f).time = m.time := rfl
@[simp] theorem Mach.onDrv_net : (m.onDrv d f).net = m.net := rfl
@[simp] theorem Mach.onDrv_lanes : (m.onDrv d f).lanes = m.lanes := rfl
@[simp] theorem Mach.onDrv_lane : (m.onDrv d f).lane = m.lane := rfl
@[simp] theorem Mach.onDrv_pwr : (m.onDrv d f).pwr = m.pwr := rfl
@[simp] theorem Mach.onDrv_safe : (m.onDrv d f).safe = m.safe := rfl
@[simp] theorem Mach.onDrv_img : (m.onDrv d f).img = m.img := rfl
@[simp] theorem Mach.onDrv_plic : (m.onDrv d f).plic = m.plic := rfl
@[simp] theorem Mach.onDrv_setNow : (m.onDrv d f).setNow = m.setNow := rfl
@[simp] theorem Mach.onDrv_rd (b : Nat) : (m.onDrv d f).rd b = m.rd b := rfl
@[simp] theorem Mach.onDrv_fld (b h l0 : Nat) : (m.onDrv d f).fld b h l0 = m.fld b h l0 := rfl
@[simp] theorem Mach.onDrv_bit (b j : Nat) : (m.onDrv d f).bit b j = m.bit b j := rfl
end

section
variable (f : ActState → ActState)
@[simp] theorem Mach.onAct_variant : (m.onAct f).variant = m.variant := rfl
@[simp] theorem Mach.onAct_regs : (m.onAct f).regs = m.regs := rfl
@[simp] theorem Mach.onAct_reply : (m.onAct f).reply = m.reply := rfl
@[simp] theorem Mach.onAct_locked : (m.onAct f).locked = m.locked := rfl
@[simp] theorem Mach.onAct_free : (m.onAct f).free = m.free := rfl
@[simp] theorem Mach.onAct_image : (m.onAct f).image = m.image := rfl
@[simp] theorem Mach.onAct_sys : (m.onAct f).sys = m.sys := rfl
@[simp] theorem Mach.onAct_tick : (m.onAct f).tick = m.tick := rfl
@[simp] theorem Mach.onAct_acq : (m.onAct f).acq = m.acq := rfl
@[simp] theorem Mach.onAct_pos : (m.onAct f).pos = m.pos := rfl
@[simp] theorem Mach.onAct_law : (m.onAct f).law = m.law := rfl
@[simp] theorem Mach.onAct_foc : (m.onAct f).foc = m.foc := rfl
@[simp] theorem Mach.onAct_mod : (m.onAct f).mod = m.mod := rfl
@[simp] theorem Mach.onAct_gate : (m.onAct f).gate = m.gate := rfl
@[simp] theorem Mach.onAct_lvc : (m.onAct f).lvc = m.lvc := rfl
@[simp] theorem Mach.onAct_chg : (m.onAct f).chg = m.chg := rfl
@[simp] theorem Mach.onAct_act : (m.onAct f).act = f m.act := rfl
@[simp] theorem Mach.onAct_offers : (m.onAct f).offers = m.offers := rfl
@[simp] theorem Mach.onAct_dma : (m.onAct f).dma = m.dma := rfl
@[simp] theorem Mach.onAct_time : (m.onAct f).time = m.time := rfl
@[simp] theorem Mach.onAct_net : (m.onAct f).net = m.net := rfl
@[simp] theorem Mach.onAct_lanes : (m.onAct f).lanes = m.lanes := rfl
@[simp] theorem Mach.onAct_lane : (m.onAct f).lane = m.lane := rfl
@[simp] theorem Mach.onAct_pwr : (m.onAct f).pwr = m.pwr := rfl
@[simp] theorem Mach.onAct_safe : (m.onAct f).safe = m.safe := rfl
@[simp] theorem Mach.onAct_img : (m.onAct f).img = m.img := rfl
@[simp] theorem Mach.onAct_plic : (m.onAct f).plic = m.plic := rfl
@[simp] theorem Mach.onAct_setNow : (m.onAct f).setNow = m.setNow := rfl
@[simp] theorem Mach.onAct_rd (b : Nat) : (m.onAct f).rd b = m.rd b := rfl
@[simp] theorem Mach.onAct_fld (b h l0 : Nat) : (m.onAct f).fld b h l0 = m.fld b h l0 := rfl
@[simp] theorem Mach.onAct_bit (b j : Nat) : (m.onAct f).bit b j = m.bit b j := rfl
end

section
variable (f : TickState → TickState)
@[simp] theorem Mach.onTicks_variant : (m.onTicks f).variant = m.variant := rfl
@[simp] theorem Mach.onTicks_regs : (m.onTicks f).regs = m.regs := rfl
@[simp] theorem Mach.onTicks_reply : (m.onTicks f).reply = m.reply := rfl
@[simp] theorem Mach.onTicks_locked : (m.onTicks f).locked = m.locked := rfl
@[simp] theorem Mach.onTicks_free : (m.onTicks f).free = m.free := rfl
@[simp] theorem Mach.onTicks_image : (m.onTicks f).image = m.image := rfl
@[simp] theorem Mach.onTicks_sys : (m.onTicks f).sys = m.sys := rfl
@[simp] theorem Mach.onTicks_tick : (m.onTicks f).tick = f m.tick := rfl
@[simp] theorem Mach.onTicks_acq : (m.onTicks f).acq = m.acq := rfl
@[simp] theorem Mach.onTicks_pos : (m.onTicks f).pos = m.pos := rfl
@[simp] theorem Mach.onTicks_law : (m.onTicks f).law = m.law := rfl
@[simp] theorem Mach.onTicks_foc : (m.onTicks f).foc = m.foc := rfl
@[simp] theorem Mach.onTicks_mod : (m.onTicks f).mod = m.mod := rfl
@[simp] theorem Mach.onTicks_gate : (m.onTicks f).gate = m.gate := rfl
@[simp] theorem Mach.onTicks_lvc : (m.onTicks f).lvc = m.lvc := rfl
@[simp] theorem Mach.onTicks_chg : (m.onTicks f).chg = m.chg := rfl
@[simp] theorem Mach.onTicks_act : (m.onTicks f).act = m.act := rfl
@[simp] theorem Mach.onTicks_offers : (m.onTicks f).offers = m.offers := rfl
@[simp] theorem Mach.onTicks_dma : (m.onTicks f).dma = m.dma := rfl
@[simp] theorem Mach.onTicks_time : (m.onTicks f).time = m.time := rfl
@[simp] theorem Mach.onTicks_net : (m.onTicks f).net = m.net := rfl
@[simp] theorem Mach.onTicks_lanes : (m.onTicks f).lanes = m.lanes := rfl
@[simp] theorem Mach.onTicks_lane : (m.onTicks f).lane = m.lane := rfl
@[simp] theorem Mach.onTicks_pwr : (m.onTicks f).pwr = m.pwr := rfl
@[simp] theorem Mach.onTicks_safe : (m.onTicks f).safe = m.safe := rfl
@[simp] theorem Mach.onTicks_img : (m.onTicks f).img = m.img := rfl
@[simp] theorem Mach.onTicks_plic : (m.onTicks f).plic = m.plic := rfl
@[simp] theorem Mach.onTicks_setNow : (m.onTicks f).setNow = m.setNow := rfl
@[simp] theorem Mach.onTicks_rd (b : Nat) : (m.onTicks f).rd b = m.rd b := rfl
@[simp] theorem Mach.onTicks_fld (b h l0 : Nat) : (m.onTicks f).fld b h l0 = m.fld b h l0 := rfl
@[simp] theorem Mach.onTicks_bit (b j : Nat) : (m.onTicks f).bit b j = m.bit b j := rfl
end

section
variable (f : List Offer → List Offer)
@[simp] theorem Mach.onOffers_variant : (m.onOffers f).variant = m.variant := rfl
@[simp] theorem Mach.onOffers_regs : (m.onOffers f).regs = m.regs := rfl
@[simp] theorem Mach.onOffers_reply : (m.onOffers f).reply = m.reply := rfl
@[simp] theorem Mach.onOffers_locked : (m.onOffers f).locked = m.locked := rfl
@[simp] theorem Mach.onOffers_free : (m.onOffers f).free = m.free := rfl
@[simp] theorem Mach.onOffers_image : (m.onOffers f).image = m.image := rfl
@[simp] theorem Mach.onOffers_sys : (m.onOffers f).sys = m.sys := rfl
@[simp] theorem Mach.onOffers_tick : (m.onOffers f).tick = m.tick := rfl
@[simp] theorem Mach.onOffers_acq : (m.onOffers f).acq = m.acq := rfl
@[simp] theorem Mach.onOffers_pos : (m.onOffers f).pos = m.pos := rfl
@[simp] theorem Mach.onOffers_law : (m.onOffers f).law = m.law := rfl
@[simp] theorem Mach.onOffers_foc : (m.onOffers f).foc = m.foc := rfl
@[simp] theorem Mach.onOffers_mod : (m.onOffers f).mod = m.mod := rfl
@[simp] theorem Mach.onOffers_gate : (m.onOffers f).gate = m.gate := rfl
@[simp] theorem Mach.onOffers_lvc : (m.onOffers f).lvc = m.lvc := rfl
@[simp] theorem Mach.onOffers_chg : (m.onOffers f).chg = m.chg := rfl
@[simp] theorem Mach.onOffers_act : (m.onOffers f).act = m.act := rfl
@[simp] theorem Mach.onOffers_offers : (m.onOffers f).offers = f m.offers := rfl
@[simp] theorem Mach.onOffers_dma : (m.onOffers f).dma = m.dma := rfl
@[simp] theorem Mach.onOffers_time : (m.onOffers f).time = m.time := rfl
@[simp] theorem Mach.onOffers_net : (m.onOffers f).net = m.net := rfl
@[simp] theorem Mach.onOffers_lanes : (m.onOffers f).lanes = m.lanes := rfl
@[simp] theorem Mach.onOffers_lane : (m.onOffers f).lane = m.lane := rfl
@[simp] theorem Mach.onOffers_pwr : (m.onOffers f).pwr = m.pwr := rfl
@[simp] theorem Mach.onOffers_safe : (m.onOffers f).safe = m.safe := rfl
@[simp] theorem Mach.onOffers_img : (m.onOffers f).img = m.img := rfl
@[simp] theorem Mach.onOffers_plic : (m.onOffers f).plic = m.plic := rfl
@[simp] theorem Mach.onOffers_setNow : (m.onOffers f).setNow = m.setNow := rfl
@[simp] theorem Mach.onOffers_rd (b : Nat) : (m.onOffers f).rd b = m.rd b := rfl
@[simp] theorem Mach.onOffers_fld (b h l0 : Nat) : (m.onOffers f).fld b h l0 = m.fld b h l0 := rfl
@[simp] theorem Mach.onOffers_bit (b j : Nat) : (m.onOffers f).bit b j = m.bit b j := rfl
end

section
variable (f : Lane → LaneState → LaneState)
@[simp] theorem Mach.onLanes_variant : (m.onLanes f).variant = m.variant := rfl
@[simp] theorem Mach.onLanes_regs : (m.onLanes f).regs = m.regs := rfl
@[simp] theorem Mach.onLanes_reply : (m.onLanes f).reply = m.reply := rfl
@[simp] theorem Mach.onLanes_locked : (m.onLanes f).locked = m.locked := rfl
@[simp] theorem Mach.onLanes_free : (m.onLanes f).free = m.free := rfl
@[simp] theorem Mach.onLanes_image : (m.onLanes f).image = m.image := rfl
@[simp] theorem Mach.onLanes_sys : (m.onLanes f).sys = m.sys := rfl
@[simp] theorem Mach.onLanes_tick : (m.onLanes f).tick = m.tick := rfl
@[simp] theorem Mach.onLanes_acq : (m.onLanes f).acq = m.acq := rfl
@[simp] theorem Mach.onLanes_pos : (m.onLanes f).pos = m.pos := rfl
@[simp] theorem Mach.onLanes_law : (m.onLanes f).law = m.law := rfl
@[simp] theorem Mach.onLanes_foc : (m.onLanes f).foc = m.foc := rfl
@[simp] theorem Mach.onLanes_mod : (m.onLanes f).mod = m.mod := rfl
@[simp] theorem Mach.onLanes_gate : (m.onLanes f).gate = m.gate := rfl
@[simp] theorem Mach.onLanes_lvc : (m.onLanes f).lvc = m.lvc := rfl
@[simp] theorem Mach.onLanes_chg : (m.onLanes f).chg = m.chg := rfl
@[simp] theorem Mach.onLanes_act : (m.onLanes f).act = m.act := rfl
@[simp] theorem Mach.onLanes_offers : (m.onLanes f).offers = m.offers := rfl
@[simp] theorem Mach.onLanes_dma : (m.onLanes f).dma = m.dma := rfl
@[simp] theorem Mach.onLanes_time : (m.onLanes f).time = m.time := rfl
@[simp] theorem Mach.onLanes_net : (m.onLanes f).net = m.net := rfl
@[simp] theorem Mach.onLanes_lanes : (m.onLanes f).lanes = ⟨f .a m.lanes.a, f .b m.lanes.b⟩ := rfl
@[simp] theorem Mach.onLanes_lane : (m.onLanes f).lane = m.lane := rfl
@[simp] theorem Mach.onLanes_pwr : (m.onLanes f).pwr = m.pwr := rfl
@[simp] theorem Mach.onLanes_safe : (m.onLanes f).safe = m.safe := rfl
@[simp] theorem Mach.onLanes_img : (m.onLanes f).img = m.img := rfl
@[simp] theorem Mach.onLanes_plic : (m.onLanes f).plic = m.plic := rfl
@[simp] theorem Mach.onLanes_setNow : (m.onLanes f).setNow = m.setNow := rfl
@[simp] theorem Mach.onLanes_rd (b : Nat) : (m.onLanes f).rd b = m.rd b := rfl
@[simp] theorem Mach.onLanes_fld (b h l0 : Nat) : (m.onLanes f).fld b h l0 = m.fld b h l0 := rfl
@[simp] theorem Mach.onLanes_bit (b j : Nat) : (m.onLanes f).bit b j = m.bit b j := rfl
end

section
variable (r : BusReply)
@[simp] theorem Mach.say_variant : (m.say r).variant = m.variant := rfl
@[simp] theorem Mach.say_regs : (m.say r).regs = m.regs := rfl
@[simp] theorem Mach.say_reply : (m.say r).reply = r := rfl
@[simp] theorem Mach.say_locked : (m.say r).locked = m.locked := rfl
@[simp] theorem Mach.say_free : (m.say r).free = m.free := rfl
@[simp] theorem Mach.say_image : (m.say r).image = m.image := rfl
@[simp] theorem Mach.say_sys : (m.say r).sys = m.sys := rfl
@[simp] theorem Mach.say_tick : (m.say r).tick = m.tick := rfl
@[simp] theorem Mach.say_acq : (m.say r).acq = m.acq := rfl
@[simp] theorem Mach.say_pos : (m.say r).pos = m.pos := rfl
@[simp] theorem Mach.say_law : (m.say r).law = m.law := rfl
@[simp] theorem Mach.say_foc : (m.say r).foc = m.foc := rfl
@[simp] theorem Mach.say_mod : (m.say r).mod = m.mod := rfl
@[simp] theorem Mach.say_gate : (m.say r).gate = m.gate := rfl
@[simp] theorem Mach.say_lvc : (m.say r).lvc = m.lvc := rfl
@[simp] theorem Mach.say_chg : (m.say r).chg = m.chg := rfl
@[simp] theorem Mach.say_act : (m.say r).act = m.act := rfl
@[simp] theorem Mach.say_offers : (m.say r).offers = m.offers := rfl
@[simp] theorem Mach.say_dma : (m.say r).dma = m.dma := rfl
@[simp] theorem Mach.say_time : (m.say r).time = m.time := rfl
@[simp] theorem Mach.say_net : (m.say r).net = m.net := rfl
@[simp] theorem Mach.say_lanes : (m.say r).lanes = m.lanes := rfl
@[simp] theorem Mach.say_lane : (m.say r).lane = m.lane := rfl
@[simp] theorem Mach.say_pwr : (m.say r).pwr = m.pwr := rfl
@[simp] theorem Mach.say_safe : (m.say r).safe = m.safe := rfl
@[simp] theorem Mach.say_img : (m.say r).img = m.img := rfl
@[simp] theorem Mach.say_plic : (m.say r).plic = m.plic := rfl
@[simp] theorem Mach.say_setNow : (m.say r).setNow = m.setNow := rfl
@[simp] theorem Mach.say_rd (b : Nat) : (m.say r).rd b = m.rd b := rfl
@[simp] theorem Mach.say_fld (b h l0 : Nat) : (m.say r).fld b h l0 = m.fld b h l0 := rfl
@[simp] theorem Mach.say_bit (b j : Nat) : (m.say r).bit b j = m.bit b j := rfl
end

section
variable (n : Nat)
@[simp] theorem Mach.spend_variant : (m.spend n).variant = m.variant := rfl
@[simp] theorem Mach.spend_regs : (m.spend n).regs = m.regs := rfl
@[simp] theorem Mach.spend_reply : (m.spend n).reply = m.reply := rfl
@[simp] theorem Mach.spend_locked : (m.spend n).locked = m.locked := rfl
@[simp] theorem Mach.spend_free : (m.spend n).free = m.free + n := rfl
@[simp] theorem Mach.spend_image : (m.spend n).image = m.image := rfl
@[simp] theorem Mach.spend_sys : (m.spend n).sys = m.sys := rfl
@[simp] theorem Mach.spend_tick : (m.spend n).tick = m.tick := rfl
@[simp] theorem Mach.spend_acq : (m.spend n).acq = m.acq := rfl
@[simp] theorem Mach.spend_pos : (m.spend n).pos = m.pos := rfl
@[simp] theorem Mach.spend_law : (m.spend n).law = m.law := rfl
@[simp] theorem Mach.spend_foc : (m.spend n).foc = m.foc := rfl
@[simp] theorem Mach.spend_mod : (m.spend n).mod = m.mod := rfl
@[simp] theorem Mach.spend_gate : (m.spend n).gate = m.gate := rfl
@[simp] theorem Mach.spend_lvc : (m.spend n).lvc = m.lvc := rfl
@[simp] theorem Mach.spend_chg : (m.spend n).chg = m.chg := rfl
@[simp] theorem Mach.spend_act : (m.spend n).act = m.act := rfl
@[simp] theorem Mach.spend_offers : (m.spend n).offers = m.offers := rfl
@[simp] theorem Mach.spend_dma : (m.spend n).dma = m.dma := rfl
@[simp] theorem Mach.spend_time : (m.spend n).time = m.time := rfl
@[simp] theorem Mach.spend_net : (m.spend n).net = m.net := rfl
@[simp] theorem Mach.spend_lanes : (m.spend n).lanes = m.lanes := rfl
@[simp] theorem Mach.spend_lane : (m.spend n).lane = m.lane := rfl
@[simp] theorem Mach.spend_pwr : (m.spend n).pwr = m.pwr := rfl
@[simp] theorem Mach.spend_safe : (m.spend n).safe = m.safe := rfl
@[simp] theorem Mach.spend_img : (m.spend n).img = m.img := rfl
@[simp] theorem Mach.spend_plic : (m.spend n).plic = m.plic := rfl
@[simp] theorem Mach.spend_setNow : (m.spend n).setNow = m.setNow := rfl
@[simp] theorem Mach.spend_rd (b : Nat) : (m.spend n).rd b = m.rd b := rfl
@[simp] theorem Mach.spend_fld (b h l0 : Nat) : (m.spend n).fld b h l0 = m.fld b h l0 := rfl
@[simp] theorem Mach.spend_bit (b j : Nat) : (m.spend n).bit b j = m.bit b j := rfl
end

section
variable (f : DmaState → DmaState)
@[simp] theorem Mach.onDma_variant : (m.onDma f).variant = m.variant := rfl
@[simp] theorem Mach.onDma_regs : (m.onDma f).regs = m.regs := rfl
@[simp] theorem Mach.onDma_reply : (m.onDma f).reply = m.reply := rfl
@[simp] theorem Mach.onDma_locked : (m.onDma f).locked = m.locked := rfl
@[simp] theorem Mach.onDma_free : (m.onDma f).free = m.free := rfl
@[simp] theorem Mach.onDma_image : (m.onDma f).image = m.image := rfl
@[simp] theorem Mach.onDma_sys : (m.onDma f).sys = m.sys := rfl
@[simp] theorem Mach.onDma_tick : (m.onDma f).tick = m.tick := rfl
@[simp] theorem Mach.onDma_acq : (m.onDma f).acq = m.acq := rfl
@[simp] theorem Mach.onDma_pos : (m.onDma f).pos = m.pos := rfl
@[simp] theorem Mach.onDma_law : (m.onDma f).law = m.law := rfl
@[simp] theorem Mach.onDma_foc : (m.onDma f).foc = m.foc := rfl
@[simp] theorem Mach.onDma_mod : (m.onDma f).mod = m.mod := rfl
@[simp] theorem Mach.onDma_gate : (m.onDma f).gate = m.gate := rfl
@[simp] theorem Mach.onDma_lvc : (m.onDma f).lvc = m.lvc := rfl
@[simp] theorem Mach.onDma_chg : (m.onDma f).chg = m.chg := rfl
@[simp] theorem Mach.onDma_act : (m.onDma f).act = m.act := rfl
@[simp] theorem Mach.onDma_offers : (m.onDma f).offers = m.offers := rfl
@[simp] theorem Mach.onDma_dma : (m.onDma f).dma = f m.dma := rfl
@[simp] theorem Mach.onDma_time : (m.onDma f).time = m.time := rfl
@[simp] theorem Mach.onDma_net : (m.onDma f).net = m.net := rfl
@[simp] theorem Mach.onDma_lanes : (m.onDma f).lanes = m.lanes := rfl
@[simp] theorem Mach.onDma_lane : (m.onDma f).lane = m.lane := rfl
@[simp] theorem Mach.onDma_pwr : (m.onDma f).pwr = m.pwr := rfl
@[simp] theorem Mach.onDma_safe : (m.onDma f).safe = m.safe := rfl
@[simp] theorem Mach.onDma_img : (m.onDma f).img = m.img := rfl
@[simp] theorem Mach.onDma_plic : (m.onDma f).plic = m.plic := rfl
@[simp] theorem Mach.onDma_setNow : (m.onDma f).setNow = m.setNow := rfl
@[simp] theorem Mach.onDma_rd (b : Nat) : (m.onDma f).rd b = m.rd b := rfl
@[simp] theorem Mach.onDma_fld (b h l0 : Nat) : (m.onDma f).fld b h l0 = m.fld b h l0 := rfl
@[simp] theorem Mach.onDma_bit (b j : Nat) : (m.onDma f).bit b j = m.bit b j := rfl
end

section
variable (f : TimeState → TimeState)
@[simp] theorem Mach.onTime_variant : (m.onTime f).variant = m.variant := rfl
@[simp] theorem Mach.onTime_regs : (m.onTime f).regs = m.regs := rfl
@[simp] theorem Mach.onTime_reply : (m.onTime f).reply = m.reply := rfl
@[simp] theorem Mach.onTime_locked : (m.onTime f).locked = m.locked := rfl
@[simp] theorem Mach.onTime_free : (m.onTime f).free = m.free := rfl
@[simp] theorem Mach.onTime_image : (m.onTime f).image = m.image := rfl
@[simp] theorem Mach.onTime_sys : (m.onTime f).sys = m.sys := rfl
@[simp] theorem Mach.onTime_tick : (m.onTime f).tick = m.tick := rfl
@[simp] theorem Mach.onTime_acq : (m.onTime f).acq = m.acq := rfl
@[simp] theorem Mach.onTime_pos : (m.onTime f).pos = m.pos := rfl
@[simp] theorem Mach.onTime_law : (m.onTime f).law = m.law := rfl
@[simp] theorem Mach.onTime_foc : (m.onTime f).foc = m.foc := rfl
@[simp] theorem Mach.onTime_mod : (m.onTime f).mod = m.mod := rfl
@[simp] theorem Mach.onTime_gate : (m.onTime f).gate = m.gate := rfl
@[simp] theorem Mach.onTime_lvc : (m.onTime f).lvc = m.lvc := rfl
@[simp] theorem Mach.onTime_chg : (m.onTime f).chg = m.chg := rfl
@[simp] theorem Mach.onTime_act : (m.onTime f).act = m.act := rfl
@[simp] theorem Mach.onTime_offers : (m.onTime f).offers = m.offers := rfl
@[simp] theorem Mach.onTime_dma : (m.onTime f).dma = m.dma := rfl
@[simp] theorem Mach.onTime_time : (m.onTime f).time = f m.time := rfl
@[simp] theorem Mach.onTime_net : (m.onTime f).net = m.net := rfl
@[simp] theorem Mach.onTime_lanes : (m.onTime f).lanes = m.lanes := rfl
@[simp] theorem Mach.onTime_lane : (m.onTime f).lane = m.lane := rfl
@[simp] theorem Mach.onTime_pwr : (m.onTime f).pwr = m.pwr := rfl
@[simp] theorem Mach.onTime_safe : (m.onTime f).safe = m.safe := rfl
@[simp] theorem Mach.onTime_img : (m.onTime f).img = m.img := rfl
@[simp] theorem Mach.onTime_plic : (m.onTime f).plic = m.plic := rfl
@[simp] theorem Mach.onTime_setNow : (m.onTime f).setNow = m.setNow := rfl
@[simp] theorem Mach.onTime_rd (b : Nat) : (m.onTime f).rd b = m.rd b := rfl
@[simp] theorem Mach.onTime_fld (b h l0 : Nat) : (m.onTime f).fld b h l0 = m.fld b h l0 := rfl
@[simp] theorem Mach.onTime_bit (b j : Nat) : (m.onTime f).bit b j = m.bit b j := rfl
end

section
variable (f : NetState → NetState)
@[simp] theorem Mach.onNet_variant : (m.onNet f).variant = m.variant := rfl
@[simp] theorem Mach.onNet_regs : (m.onNet f).regs = m.regs := rfl
@[simp] theorem Mach.onNet_reply : (m.onNet f).reply = m.reply := rfl
@[simp] theorem Mach.onNet_locked : (m.onNet f).locked = m.locked := rfl
@[simp] theorem Mach.onNet_free : (m.onNet f).free = m.free := rfl
@[simp] theorem Mach.onNet_image : (m.onNet f).image = m.image := rfl
@[simp] theorem Mach.onNet_sys : (m.onNet f).sys = m.sys := rfl
@[simp] theorem Mach.onNet_tick : (m.onNet f).tick = m.tick := rfl
@[simp] theorem Mach.onNet_acq : (m.onNet f).acq = m.acq := rfl
@[simp] theorem Mach.onNet_pos : (m.onNet f).pos = m.pos := rfl
@[simp] theorem Mach.onNet_law : (m.onNet f).law = m.law := rfl
@[simp] theorem Mach.onNet_foc : (m.onNet f).foc = m.foc := rfl
@[simp] theorem Mach.onNet_mod : (m.onNet f).mod = m.mod := rfl
@[simp] theorem Mach.onNet_gate : (m.onNet f).gate = m.gate := rfl
@[simp] theorem Mach.onNet_lvc : (m.onNet f).lvc = m.lvc := rfl
@[simp] theorem Mach.onNet_chg : (m.onNet f).chg = m.chg := rfl
@[simp] theorem Mach.onNet_act : (m.onNet f).act = m.act := rfl
@[simp] theorem Mach.onNet_offers : (m.onNet f).offers = m.offers := rfl
@[simp] theorem Mach.onNet_dma : (m.onNet f).dma = m.dma := rfl
@[simp] theorem Mach.onNet_time : (m.onNet f).time = m.time := rfl
@[simp] theorem Mach.onNet_net : (m.onNet f).net = f m.net := rfl
@[simp] theorem Mach.onNet_lanes : (m.onNet f).lanes = m.lanes := rfl
@[simp] theorem Mach.onNet_lane : (m.onNet f).lane = m.lane := rfl
@[simp] theorem Mach.onNet_pwr : (m.onNet f).pwr = m.pwr := rfl
@[simp] theorem Mach.onNet_safe : (m.onNet f).safe = m.safe := rfl
@[simp] theorem Mach.onNet_img : (m.onNet f).img = m.img := rfl
@[simp] theorem Mach.onNet_plic : (m.onNet f).plic = m.plic := rfl
@[simp] theorem Mach.onNet_setNow : (m.onNet f).setNow = m.setNow := rfl
@[simp] theorem Mach.onNet_rd (b : Nat) : (m.onNet f).rd b = m.rd b := rfl
@[simp] theorem Mach.onNet_fld (b h l0 : Nat) : (m.onNet f).fld b h l0 = m.fld b h l0 := rfl
@[simp] theorem Mach.onNet_bit (b j : Nat) : (m.onNet f).bit b j = m.bit b j := rfl
end

section
variable (l : Lane) (f : LaneState → LaneState)
@[simp] theorem Mach.onLane_variant : (m.onLane l f).variant = m.variant := rfl
@[simp] theorem Mach.onLane_regs : (m.onLane l f).regs = m.regs := rfl
@[simp] theorem Mach.onLane_reply : (m.onLane l f).reply = m.reply := rfl
@[simp] theorem Mach.onLane_locked : (m.onLane l f).locked = m.locked := rfl
@[simp] theorem Mach.onLane_free : (m.onLane l f).free = m.free := rfl
@[simp] theorem Mach.onLane_image : (m.onLane l f).image = m.image := rfl
@[simp] theorem Mach.onLane_sys : (m.onLane l f).sys = m.sys := rfl
@[simp] theorem Mach.onLane_tick : (m.onLane l f).tick = m.tick := rfl
@[simp] theorem Mach.onLane_acq : (m.onLane l f).acq = m.acq := rfl
@[simp] theorem Mach.onLane_pos : (m.onLane l f).pos = m.pos := rfl
@[simp] theorem Mach.onLane_law : (m.onLane l f).law = m.law := rfl
@[simp] theorem Mach.onLane_foc : (m.onLane l f).foc = m.foc := rfl
@[simp] theorem Mach.onLane_mod : (m.onLane l f).mod = m.mod := rfl
@[simp] theorem Mach.onLane_gate : (m.onLane l f).gate = m.gate := rfl
@[simp] theorem Mach.onLane_lvc : (m.onLane l f).lvc = m.lvc := rfl
@[simp] theorem Mach.onLane_chg : (m.onLane l f).chg = m.chg := rfl
@[simp] theorem Mach.onLane_act : (m.onLane l f).act = m.act := rfl
@[simp] theorem Mach.onLane_offers : (m.onLane l f).offers = m.offers := rfl
@[simp] theorem Mach.onLane_dma : (m.onLane l f).dma = m.dma := rfl
@[simp] theorem Mach.onLane_time : (m.onLane l f).time = m.time := rfl
@[simp] theorem Mach.onLane_net : (m.onLane l f).net = m.net := rfl
@[simp] theorem Mach.onLane_lanes : (m.onLane l f).lanes = m.lanes.set l (f (m.lanes.get l)) := rfl
@[simp] theorem Mach.onLane_lane : (m.onLane l f).lane = m.lane := rfl
@[simp] theorem Mach.onLane_pwr : (m.onLane l f).pwr = m.pwr := rfl
@[simp] theorem Mach.onLane_safe : (m.onLane l f).safe = m.safe := rfl
@[simp] theorem Mach.onLane_img : (m.onLane l f).img = m.img := rfl
@[simp] theorem Mach.onLane_plic : (m.onLane l f).plic = m.plic := rfl
@[simp] theorem Mach.onLane_setNow : (m.onLane l f).setNow = m.setNow := rfl
@[simp] theorem Mach.onLane_rd (b : Nat) : (m.onLane l f).rd b = m.rd b := rfl
@[simp] theorem Mach.onLane_fld (b h l0 : Nat) : (m.onLane l f).fld b h l0 = m.fld b h l0 := rfl
@[simp] theorem Mach.onLane_bit (b j : Nat) : (m.onLane l f).bit b j = m.bit b j := rfl
end

section
variable (l : Lane) (f : TickLane → TickLane)
@[simp] theorem Mach.onTick_variant : (m.onTick l f).variant = m.variant := rfl
@[simp] theorem Mach.onTick_regs : (m.onTick l f).regs = m.regs := rfl
@[simp] theorem Mach.onTick_reply : (m.onTick l f).reply = m.reply := rfl
@[simp] theorem Mach.onTick_locked : (m.onTick l f).locked = m.locked := rfl
@[simp] theorem Mach.onTick_free : (m.onTick l f).free = m.free := rfl
@[simp] theorem Mach.onTick_image : (m.onTick l f).image = m.image := rfl
@[simp] theorem Mach.onTick_sys : (m.onTick l f).sys = m.sys := rfl
@[simp] theorem Mach.onTick_tick : (m.onTick l f).tick = { m.tick with lanes := m.tick.lanes.set l (f (m.tick.lanes.get l)) } := rfl
@[simp] theorem Mach.onTick_acq : (m.onTick l f).acq = m.acq := rfl
@[simp] theorem Mach.onTick_pos : (m.onTick l f).pos = m.pos := rfl
@[simp] theorem Mach.onTick_law : (m.onTick l f).law = m.law := rfl
@[simp] theorem Mach.onTick_foc : (m.onTick l f).foc = m.foc := rfl
@[simp] theorem Mach.onTick_mod : (m.onTick l f).mod = m.mod := rfl
@[simp] theorem Mach.onTick_gate : (m.onTick l f).gate = m.gate := rfl
@[simp] theorem Mach.onTick_lvc : (m.onTick l f).lvc = m.lvc := rfl
@[simp] theorem Mach.onTick_chg : (m.onTick l f).chg = m.chg := rfl
@[simp] theorem Mach.onTick_act : (m.onTick l f).act = m.act := rfl
@[simp] theorem Mach.onTick_offers : (m.onTick l f).offers = m.offers := rfl
@[simp] theorem Mach.onTick_dma : (m.onTick l f).dma = m.dma := rfl
@[simp] theorem Mach.onTick_time : (m.onTick l f).time = m.time := rfl
@[simp] theorem Mach.onTick_net : (m.onTick l f).net = m.net := rfl
@[simp] theorem Mach.onTick_lanes : (m.onTick l f).lanes = m.lanes := rfl
@[simp] theorem Mach.onTick_lane : (m.onTick l f).lane = m.lane := rfl
@[simp] theorem Mach.onTick_pwr : (m.onTick l f).pwr = m.pwr := rfl
@[simp] theorem Mach.onTick_safe : (m.onTick l f).safe = m.safe := rfl
@[simp] theorem Mach.onTick_img : (m.onTick l f).img = m.img := rfl
@[simp] theorem Mach.onTick_plic : (m.onTick l f).plic = m.plic := rfl
@[simp] theorem Mach.onTick_setNow : (m.onTick l f).setNow = m.setNow := rfl
@[simp] theorem Mach.onTick_rd (b : Nat) : (m.onTick l f).rd b = m.rd b := rfl
@[simp] theorem Mach.onTick_fld (b h l0 : Nat) : (m.onTick l f).fld b h l0 = m.fld b h l0 := rfl
@[simp] theorem Mach.onTick_bit (b j : Nat) : (m.onTick l f).bit b j = m.bit b j := rfl
end

section
variable (f : LaneBlock → LaneBlock)
@[simp] theorem Mach.onLb_variant : (m.onLb f).variant = m.variant := rfl
@[simp] theorem Mach.onLb_regs : (m.onLb f).regs = m.regs := rfl
@[simp] theorem Mach.onLb_reply : (m.onLb f).reply = m.reply := rfl
@[simp] theorem Mach.onLb_locked : (m.onLb f).locked = m.locked := rfl
@[simp] theorem Mach.onLb_free : (m.onLb f).free = m.free := rfl
@[simp] theorem Mach.onLb_image : (m.onLb f).image = m.image := rfl
@[simp] theorem Mach.onLb_sys : (m.onLb f).sys = m.sys := rfl
@[simp] theorem Mach.onLb_tick : (m.onLb f).tick = m.tick := rfl
@[simp] theorem Mach.onLb_acq : (m.onLb f).acq = m.acq := rfl
@[simp] theorem Mach.onLb_pos : (m.onLb f).pos = m.pos := rfl
@[simp] theorem Mach.onLb_law : (m.onLb f).law = m.law := rfl
@[simp] theorem Mach.onLb_foc : (m.onLb f).foc = m.foc := rfl
@[simp] theorem Mach.onLb_mod : (m.onLb f).mod = m.mod := rfl
@[simp] theorem Mach.onLb_gate : (m.onLb f).gate = m.gate := rfl
@[simp] theorem Mach.onLb_lvc : (m.onLb f).lvc = m.lvc := rfl
@[simp] theorem Mach.onLb_chg : (m.onLb f).chg = m.chg := rfl
@[simp] theorem Mach.onLb_act : (m.onLb f).act = m.act := rfl
@[simp] theorem Mach.onLb_offers : (m.onLb f).offers = m.offers := rfl
@[simp] theorem Mach.onLb_dma : (m.onLb f).dma = m.dma := rfl
@[simp] theorem Mach.onLb_time : (m.onLb f).time = m.time := rfl
@[simp] theorem Mach.onLb_net : (m.onLb f).net = m.net := rfl
@[simp] theorem Mach.onLb_lanes : (m.onLb f).lanes = m.lanes := rfl
@[simp] theorem Mach.onLb_lane : (m.onLb f).lane = f m.lane := rfl
@[simp] theorem Mach.onLb_pwr : (m.onLb f).pwr = m.pwr := rfl
@[simp] theorem Mach.onLb_safe : (m.onLb f).safe = m.safe := rfl
@[simp] theorem Mach.onLb_img : (m.onLb f).img = m.img := rfl
@[simp] theorem Mach.onLb_plic : (m.onLb f).plic = m.plic := rfl
@[simp] theorem Mach.onLb_setNow : (m.onLb f).setNow = m.setNow := rfl
@[simp] theorem Mach.onLb_rd (b : Nat) : (m.onLb f).rd b = m.rd b := rfl
@[simp] theorem Mach.onLb_fld (b h l0 : Nat) : (m.onLb f).fld b h l0 = m.fld b h l0 := rfl
@[simp] theorem Mach.onLb_bit (b j : Nat) : (m.onLb f).bit b j = m.bit b j := rfl
end

section
variable (f : PwrState → PwrState)
@[simp] theorem Mach.onPwr_variant : (m.onPwr f).variant = m.variant := rfl
@[simp] theorem Mach.onPwr_regs : (m.onPwr f).regs = m.regs := rfl
@[simp] theorem Mach.onPwr_reply : (m.onPwr f).reply = m.reply := rfl
@[simp] theorem Mach.onPwr_locked : (m.onPwr f).locked = m.locked := rfl
@[simp] theorem Mach.onPwr_free : (m.onPwr f).free = m.free := rfl
@[simp] theorem Mach.onPwr_image : (m.onPwr f).image = m.image := rfl
@[simp] theorem Mach.onPwr_sys : (m.onPwr f).sys = m.sys := rfl
@[simp] theorem Mach.onPwr_tick : (m.onPwr f).tick = m.tick := rfl
@[simp] theorem Mach.onPwr_acq : (m.onPwr f).acq = m.acq := rfl
@[simp] theorem Mach.onPwr_pos : (m.onPwr f).pos = m.pos := rfl
@[simp] theorem Mach.onPwr_law : (m.onPwr f).law = m.law := rfl
@[simp] theorem Mach.onPwr_foc : (m.onPwr f).foc = m.foc := rfl
@[simp] theorem Mach.onPwr_mod : (m.onPwr f).mod = m.mod := rfl
@[simp] theorem Mach.onPwr_gate : (m.onPwr f).gate = m.gate := rfl
@[simp] theorem Mach.onPwr_lvc : (m.onPwr f).lvc = m.lvc := rfl
@[simp] theorem Mach.onPwr_chg : (m.onPwr f).chg = m.chg := rfl
@[simp] theorem Mach.onPwr_act : (m.onPwr f).act = m.act := rfl
@[simp] theorem Mach.onPwr_offers : (m.onPwr f).offers = m.offers := rfl
@[simp] theorem Mach.onPwr_dma : (m.onPwr f).dma = m.dma := rfl
@[simp] theorem Mach.onPwr_time : (m.onPwr f).time = m.time := rfl
@[simp] theorem Mach.onPwr_net : (m.onPwr f).net = m.net := rfl
@[simp] theorem Mach.onPwr_lanes : (m.onPwr f).lanes = m.lanes := rfl
@[simp] theorem Mach.onPwr_lane : (m.onPwr f).lane = m.lane := rfl
@[simp] theorem Mach.onPwr_pwr : (m.onPwr f).pwr = f m.pwr := rfl
@[simp] theorem Mach.onPwr_safe : (m.onPwr f).safe = m.safe := rfl
@[simp] theorem Mach.onPwr_img : (m.onPwr f).img = m.img := rfl
@[simp] theorem Mach.onPwr_plic : (m.onPwr f).plic = m.plic := rfl
@[simp] theorem Mach.onPwr_setNow : (m.onPwr f).setNow = m.setNow := rfl
@[simp] theorem Mach.onPwr_rd (b : Nat) : (m.onPwr f).rd b = m.rd b := rfl
@[simp] theorem Mach.onPwr_fld (b h l0 : Nat) : (m.onPwr f).fld b h l0 = m.fld b h l0 := rfl
@[simp] theorem Mach.onPwr_bit (b j : Nat) : (m.onPwr f).bit b j = m.bit b j := rfl
end

section
variable (f : SafeState → SafeState)
@[simp] theorem Mach.onSafe_variant : (m.onSafe f).variant = m.variant := rfl
@[simp] theorem Mach.onSafe_regs : (m.onSafe f).regs = m.regs := rfl
@[simp] theorem Mach.onSafe_reply : (m.onSafe f).reply = m.reply := rfl
@[simp] theorem Mach.onSafe_locked : (m.onSafe f).locked = m.locked := rfl
@[simp] theorem Mach.onSafe_free : (m.onSafe f).free = m.free := rfl
@[simp] theorem Mach.onSafe_image : (m.onSafe f).image = m.image := rfl
@[simp] theorem Mach.onSafe_sys : (m.onSafe f).sys = m.sys := rfl
@[simp] theorem Mach.onSafe_tick : (m.onSafe f).tick = m.tick := rfl
@[simp] theorem Mach.onSafe_acq : (m.onSafe f).acq = m.acq := rfl
@[simp] theorem Mach.onSafe_pos : (m.onSafe f).pos = m.pos := rfl
@[simp] theorem Mach.onSafe_law : (m.onSafe f).law = m.law := rfl
@[simp] theorem Mach.onSafe_foc : (m.onSafe f).foc = m.foc := rfl
@[simp] theorem Mach.onSafe_mod : (m.onSafe f).mod = m.mod := rfl
@[simp] theorem Mach.onSafe_gate : (m.onSafe f).gate = m.gate := rfl
@[simp] theorem Mach.onSafe_lvc : (m.onSafe f).lvc = m.lvc := rfl
@[simp] theorem Mach.onSafe_chg : (m.onSafe f).chg = m.chg := rfl
@[simp] theorem Mach.onSafe_act : (m.onSafe f).act = m.act := rfl
@[simp] theorem Mach.onSafe_offers : (m.onSafe f).offers = m.offers := rfl
@[simp] theorem Mach.onSafe_dma : (m.onSafe f).dma = m.dma := rfl
@[simp] theorem Mach.onSafe_time : (m.onSafe f).time = m.time := rfl
@[simp] theorem Mach.onSafe_net : (m.onSafe f).net = m.net := rfl
@[simp] theorem Mach.onSafe_lanes : (m.onSafe f).lanes = m.lanes := rfl
@[simp] theorem Mach.onSafe_lane : (m.onSafe f).lane = m.lane := rfl
@[simp] theorem Mach.onSafe_pwr : (m.onSafe f).pwr = m.pwr := rfl
@[simp] theorem Mach.onSafe_safe : (m.onSafe f).safe = f m.safe := rfl
@[simp] theorem Mach.onSafe_img : (m.onSafe f).img = m.img := rfl
@[simp] theorem Mach.onSafe_plic : (m.onSafe f).plic = m.plic := rfl
@[simp] theorem Mach.onSafe_setNow : (m.onSafe f).setNow = m.setNow := rfl
@[simp] theorem Mach.onSafe_rd (b : Nat) : (m.onSafe f).rd b = m.rd b := rfl
@[simp] theorem Mach.onSafe_fld (b h l0 : Nat) : (m.onSafe f).fld b h l0 = m.fld b h l0 := rfl
@[simp] theorem Mach.onSafe_bit (b j : Nat) : (m.onSafe f).bit b j = m.bit b j := rfl
end

section
variable (f : ImgState → ImgState)
@[simp] theorem Mach.onImg_variant : (m.onImg f).variant = m.variant := rfl
@[simp] theorem Mach.onImg_regs : (m.onImg f).regs = m.regs := rfl
@[simp] theorem Mach.onImg_reply : (m.onImg f).reply = m.reply := rfl
@[simp] theorem Mach.onImg_locked : (m.onImg f).locked = m.locked := rfl
@[simp] theorem Mach.onImg_free : (m.onImg f).free = m.free := rfl
@[simp] theorem Mach.onImg_image : (m.onImg f).image = m.image := rfl
@[simp] theorem Mach.onImg_sys : (m.onImg f).sys = m.sys := rfl
@[simp] theorem Mach.onImg_tick : (m.onImg f).tick = m.tick := rfl
@[simp] theorem Mach.onImg_acq : (m.onImg f).acq = m.acq := rfl
@[simp] theorem Mach.onImg_pos : (m.onImg f).pos = m.pos := rfl
@[simp] theorem Mach.onImg_law : (m.onImg f).law = m.law := rfl
@[simp] theorem Mach.onImg_foc : (m.onImg f).foc = m.foc := rfl
@[simp] theorem Mach.onImg_mod : (m.onImg f).mod = m.mod := rfl
@[simp] theorem Mach.onImg_gate : (m.onImg f).gate = m.gate := rfl
@[simp] theorem Mach.onImg_lvc : (m.onImg f).lvc = m.lvc := rfl
@[simp] theorem Mach.onImg_chg : (m.onImg f).chg = m.chg := rfl
@[simp] theorem Mach.onImg_act : (m.onImg f).act = m.act := rfl
@[simp] theorem Mach.onImg_offers : (m.onImg f).offers = m.offers := rfl
@[simp] theorem Mach.onImg_dma : (m.onImg f).dma = m.dma := rfl
@[simp] theorem Mach.onImg_time : (m.onImg f).time = m.time := rfl
@[simp] theorem Mach.onImg_net : (m.onImg f).net = m.net := rfl
@[simp] theorem Mach.onImg_lanes : (m.onImg f).lanes = m.lanes := rfl
@[simp] theorem Mach.onImg_lane : (m.onImg f).lane = m.lane := rfl
@[simp] theorem Mach.onImg_pwr : (m.onImg f).pwr = m.pwr := rfl
@[simp] theorem Mach.onImg_safe : (m.onImg f).safe = m.safe := rfl
@[simp] theorem Mach.onImg_img : (m.onImg f).img = f m.img := rfl
@[simp] theorem Mach.onImg_rd (b : Nat) : (m.onImg f).rd b = m.rd b := rfl
@[simp] theorem Mach.onImg_fld (b h l0 : Nat) : (m.onImg f).fld b h l0 = m.fld b h l0 := rfl
@[simp] theorem Mach.onImg_bit (b j : Nat) : (m.onImg f).bit b j = m.bit b j := rfl
end

section
variable (e : JEntry)
@[simp] theorem Mach.wait_variant : (m.wait e).variant = m.variant := rfl
@[simp] theorem Mach.wait_regs : (m.wait e).regs = m.regs := rfl
@[simp] theorem Mach.wait_reply : (m.wait e).reply = m.reply := rfl
@[simp] theorem Mach.wait_locked : (m.wait e).locked = m.locked := rfl
@[simp] theorem Mach.wait_free : (m.wait e).free = m.free := rfl
@[simp] theorem Mach.wait_image : (m.wait e).image = m.image := rfl
@[simp] theorem Mach.wait_sys : (m.wait e).sys = m.sys := rfl
@[simp] theorem Mach.wait_tick : (m.wait e).tick = m.tick := rfl
@[simp] theorem Mach.wait_acq : (m.wait e).acq = m.acq := rfl
@[simp] theorem Mach.wait_pos : (m.wait e).pos = m.pos := rfl
@[simp] theorem Mach.wait_law : (m.wait e).law = m.law := rfl
@[simp] theorem Mach.wait_foc : (m.wait e).foc = m.foc := rfl
@[simp] theorem Mach.wait_mod : (m.wait e).mod = m.mod := rfl
@[simp] theorem Mach.wait_gate : (m.wait e).gate = m.gate := rfl
@[simp] theorem Mach.wait_lvc : (m.wait e).lvc = m.lvc := rfl
@[simp] theorem Mach.wait_chg : (m.wait e).chg = m.chg := rfl
@[simp] theorem Mach.wait_act : (m.wait e).act = m.act := rfl
@[simp] theorem Mach.wait_offers : (m.wait e).offers = m.offers := rfl
@[simp] theorem Mach.wait_dma : (m.wait e).dma = m.dma := rfl
@[simp] theorem Mach.wait_time : (m.wait e).time = m.time := rfl
@[simp] theorem Mach.wait_net : (m.wait e).net = m.net := rfl
@[simp] theorem Mach.wait_lanes : (m.wait e).lanes = m.lanes := rfl
@[simp] theorem Mach.wait_lane : (m.wait e).lane = { m.lane with waiting := insertEntry e m.lane.waiting } := rfl
@[simp] theorem Mach.wait_pwr : (m.wait e).pwr = m.pwr := rfl
@[simp] theorem Mach.wait_safe : (m.wait e).safe = m.safe := rfl
@[simp] theorem Mach.wait_img : (m.wait e).img = m.img := rfl
@[simp] theorem Mach.wait_plic : (m.wait e).plic = m.plic := rfl
@[simp] theorem Mach.wait_setNow : (m.wait e).setNow = m.setNow := rfl
@[simp] theorem Mach.wait_rd (b : Nat) : (m.wait e).rd b = m.rd b := rfl
@[simp] theorem Mach.wait_fld (b h l0 : Nat) : (m.wait e).fld b h l0 = m.fld b h l0 := rfl
@[simp] theorem Mach.wait_bit (b j : Nat) : (m.wait e).bit b j = m.bit b j := rfl
end

section
variable (c : Nat)
@[simp] theorem Mach.advanceTo_variant : (m.advanceTo c).variant = m.variant := rfl
@[simp] theorem Mach.advanceTo_regs : (m.advanceTo c).regs = m.regs := rfl
@[simp] theorem Mach.advanceTo_reply : (m.advanceTo c).reply = m.reply := rfl
@[simp] theorem Mach.advanceTo_locked : (m.advanceTo c).locked = m.locked := rfl
@[simp] theorem Mach.advanceTo_free : (m.advanceTo c).free = m.free := rfl
@[simp] theorem Mach.advanceTo_image : (m.advanceTo c).image = m.image := rfl
@[simp] theorem Mach.advanceTo_sys : (m.advanceTo c).sys = m.sys := rfl
@[simp] theorem Mach.advanceTo_tick : (m.advanceTo c).tick = m.tick := rfl
@[simp] theorem Mach.advanceTo_acq : (m.advanceTo c).acq = m.acq := rfl
@[simp] theorem Mach.advanceTo_pos : (m.advanceTo c).pos = m.pos := rfl
@[simp] theorem Mach.advanceTo_law : (m.advanceTo c).law = m.law := rfl
@[simp] theorem Mach.advanceTo_foc : (m.advanceTo c).foc = m.foc := rfl
@[simp] theorem Mach.advanceTo_mod : (m.advanceTo c).mod = m.mod := rfl
@[simp] theorem Mach.advanceTo_gate : (m.advanceTo c).gate = m.gate := rfl
@[simp] theorem Mach.advanceTo_lvc : (m.advanceTo c).lvc = m.lvc := rfl
@[simp] theorem Mach.advanceTo_chg : (m.advanceTo c).chg = m.chg := rfl
@[simp] theorem Mach.advanceTo_act : (m.advanceTo c).act = m.act := rfl
@[simp] theorem Mach.advanceTo_offers : (m.advanceTo c).offers = m.offers := rfl
@[simp] theorem Mach.advanceTo_dma : (m.advanceTo c).dma = m.dma := rfl
@[simp] theorem Mach.advanceTo_net : (m.advanceTo c).net = m.net := rfl
@[simp] theorem Mach.advanceTo_lanes : (m.advanceTo c).lanes = m.lanes := rfl
@[simp] theorem Mach.advanceTo_lane : (m.advanceTo c).lane = m.lane := rfl
@[simp] theorem Mach.advanceTo_pwr : (m.advanceTo c).pwr = m.pwr := rfl
@[simp] theorem Mach.advanceTo_safe : (m.advanceTo c).safe = m.safe := rfl
@[simp] theorem Mach.advanceTo_img : (m.advanceTo c).img = m.img := rfl
@[simp] theorem Mach.advanceTo_plic : (m.advanceTo c).plic = m.plic := rfl
@[simp] theorem Mach.advanceTo_setNow : (m.advanceTo c).setNow = if c - m.time.cyc = 0 then m.setNow else [] := rfl
@[simp] theorem Mach.advanceTo_rd (b : Nat) : (m.advanceTo c).rd b = m.rd b := rfl
@[simp] theorem Mach.advanceTo_fld (b h l0 : Nat) : (m.advanceTo c).fld b h l0 = m.fld b h l0 := rfl
@[simp] theorem Mach.advanceTo_bit (b j : Nat) : (m.advanceTo c).bit b j = m.bit b j := rfl
end

section
@[simp] theorem Mach.settle_variant : (m.settle).variant = m.variant := rfl
@[simp] theorem Mach.settle_reply : (m.settle).reply = m.reply := rfl
@[simp] theorem Mach.settle_locked : (m.settle).locked = m.locked := rfl
@[simp] theorem Mach.settle_free : (m.settle).free = m.free := rfl
@[simp] theorem Mach.settle_image : (m.settle).image = m.image := rfl
@[simp] theorem Mach.settle_sys : (m.settle).sys = m.sys := rfl
@[simp] theorem Mach.settle_tick : (m.settle).tick = m.tick := rfl
@[simp] theorem Mach.settle_acq : (m.settle).acq = m.acq := rfl
@[simp] theorem Mach.settle_pos : (m.settle).pos = m.pos := rfl
@[simp] theorem Mach.settle_law : (m.settle).law = m.law := rfl
@[simp] theorem Mach.settle_foc : (m.settle).foc = m.foc := rfl
@[simp] theorem Mach.settle_mod : (m.settle).mod = m.mod := rfl
@[simp] theorem Mach.settle_gate : (m.settle).gate = m.gate := rfl
@[simp] theorem Mach.settle_lvc : (m.settle).lvc = m.lvc := rfl
@[simp] theorem Mach.settle_chg : (m.settle).chg = m.chg := rfl
@[simp] theorem Mach.settle_act : (m.settle).act = m.act := rfl
@[simp] theorem Mach.settle_offers : (m.settle).offers = m.offers := rfl
@[simp] theorem Mach.settle_dma : (m.settle).dma = m.dma := rfl
@[simp] theorem Mach.settle_time : (m.settle).time = m.time := rfl
@[simp] theorem Mach.settle_net : (m.settle).net = m.net := rfl
@[simp] theorem Mach.settle_lanes : (m.settle).lanes = m.lanes := rfl
@[simp] theorem Mach.settle_lane : (m.settle).lane = m.lane := rfl
@[simp] theorem Mach.settle_pwr : (m.settle).pwr = m.pwr := rfl
@[simp] theorem Mach.settle_safe : (m.settle).safe = m.safe := rfl
@[simp] theorem Mach.settle_img : (m.settle).img = m.img := rfl
@[simp] theorem Mach.settle_plic : (m.settle).plic = m.plic := rfl
@[simp] theorem Mach.settle_setNow : (m.settle).setNow = m.setNow := rfl
end

section
variable (c k l : Nat) (d : List Nat) (o : Nat)
@[simp] theorem Mach.raise_variant : (m.raise c k l d o).variant = m.variant := rfl
@[simp] theorem Mach.raise_regs : (m.raise c k l d o).regs = m.regs := rfl
@[simp] theorem Mach.raise_reply : (m.raise c k l d o).reply = m.reply := rfl
@[simp] theorem Mach.raise_locked : (m.raise c k l d o).locked = m.locked := rfl
@[simp] theorem Mach.raise_free : (m.raise c k l d o).free = m.free := rfl
@[simp] theorem Mach.raise_image : (m.raise c k l d o).image = m.image := rfl
@[simp] theorem Mach.raise_sys : (m.raise c k l d o).sys = m.sys := rfl
@[simp] theorem Mach.raise_tick : (m.raise c k l d o).tick = m.tick := rfl
@[simp] theorem Mach.raise_acq : (m.raise c k l d o).acq = m.acq := rfl
@[simp] theorem Mach.raise_pos : (m.raise c k l d o).pos = m.pos := rfl
@[simp] theorem Mach.raise_law : (m.raise c k l d o).law = m.law := rfl
@[simp] theorem Mach.raise_foc : (m.raise c k l d o).foc = m.foc := rfl
@[simp] theorem Mach.raise_mod : (m.raise c k l d o).mod = m.mod := rfl
@[simp] theorem Mach.raise_gate : (m.raise c k l d o).gate = m.gate := rfl
@[simp] theorem Mach.raise_lvc : (m.raise c k l d o).lvc = m.lvc := rfl
@[simp] theorem Mach.raise_chg : (m.raise c k l d o).chg = m.chg := rfl
@[simp] theorem Mach.raise_act : (m.raise c k l d o).act = m.act := rfl
@[simp] theorem Mach.raise_offers : (m.raise c k l d o).offers = m.offers := rfl
@[simp] theorem Mach.raise_dma : (m.raise c k l d o).dma = m.dma := rfl
@[simp] theorem Mach.raise_net : (m.raise c k l d o).net = m.net := rfl
@[simp] theorem Mach.raise_lanes : (m.raise c k l d o).lanes = m.lanes := rfl
@[simp] theorem Mach.raise_lane : (m.raise c k l d o).lane = m.lane := rfl
@[simp] theorem Mach.raise_pwr : (m.raise c k l d o).pwr = m.pwr := rfl
@[simp] theorem Mach.raise_safe : (m.raise c k l d o).safe = m.safe := rfl
@[simp] theorem Mach.raise_img : (m.raise c k l d o).img = m.img := rfl
@[simp] theorem Mach.raise_plic : (m.raise c k l d o).plic = m.plic := rfl
@[simp] theorem Mach.raise_setNow : (m.raise c k l d o).setNow = m.setNow := rfl
@[simp] theorem Mach.raise_rd (b : Nat) : (m.raise c k l d o).rd b = m.rd b := rfl
@[simp] theorem Mach.raise_fld (b h l0 : Nat) : (m.raise c k l d o).fld b h l0 = m.fld b h l0 := rfl
@[simp] theorem Mach.raise_bit (b j : Nat) : (m.raise c k l d o).bit b j = m.bit b j := rfl
end

section
variable (l : Lane) (f : Plic → Plic)
@[simp] theorem Mach.onPlic_variant : (m.onPlic l f).variant = m.variant := rfl
@[simp] theorem Mach.onPlic_regs : (m.onPlic l f).regs = m.regs := rfl
@[simp] theorem Mach.onPlic_reply : (m.onPlic l f).reply = m.reply := rfl
@[simp] theorem Mach.onPlic_locked : (m.onPlic l f).locked = m.locked := rfl
@[simp] theorem Mach.onPlic_free : (m.onPlic l f).free = m.free := rfl
@[simp] theorem Mach.onPlic_image : (m.onPlic l f).image = m.image := rfl
@[simp] theorem Mach.onPlic_sys : (m.onPlic l f).sys = m.sys := rfl
@[simp] theorem Mach.onPlic_tick : (m.onPlic l f).tick = m.tick := rfl
@[simp] theorem Mach.onPlic_acq : (m.onPlic l f).acq = m.acq := rfl
@[simp] theorem Mach.onPlic_pos : (m.onPlic l f).pos = m.pos := rfl
@[simp] theorem Mach.onPlic_law : (m.onPlic l f).law = m.law := rfl
@[simp] theorem Mach.onPlic_foc : (m.onPlic l f).foc = m.foc := rfl
@[simp] theorem Mach.onPlic_mod : (m.onPlic l f).mod = m.mod := rfl
@[simp] theorem Mach.onPlic_gate : (m.onPlic l f).gate = m.gate := rfl
@[simp] theorem Mach.onPlic_lvc : (m.onPlic l f).lvc = m.lvc := rfl
@[simp] theorem Mach.onPlic_chg : (m.onPlic l f).chg = m.chg := rfl
@[simp] theorem Mach.onPlic_act : (m.onPlic l f).act = m.act := rfl
@[simp] theorem Mach.onPlic_offers : (m.onPlic l f).offers = m.offers := rfl
@[simp] theorem Mach.onPlic_dma : (m.onPlic l f).dma = m.dma := rfl
@[simp] theorem Mach.onPlic_time : (m.onPlic l f).time = m.time := rfl
@[simp] theorem Mach.onPlic_net : (m.onPlic l f).net = m.net := rfl
@[simp] theorem Mach.onPlic_lanes : (m.onPlic l f).lanes = m.lanes := rfl
@[simp] theorem Mach.onPlic_lane : (m.onPlic l f).lane = m.lane := rfl
@[simp] theorem Mach.onPlic_pwr : (m.onPlic l f).pwr = m.pwr := rfl
@[simp] theorem Mach.onPlic_safe : (m.onPlic l f).safe = m.safe := rfl
@[simp] theorem Mach.onPlic_img : (m.onPlic l f).img = m.img := rfl
@[simp] theorem Mach.onPlic_plic : (m.onPlic l f).plic = m.plic.set l (f (m.plic.get l)) := rfl
@[simp] theorem Mach.onPlic_setNow : (m.onPlic l f).setNow = m.setNow := rfl
@[simp] theorem Mach.onPlic_rd (b : Nat) : (m.onPlic l f).rd b = m.rd b := rfl
@[simp] theorem Mach.onPlic_fld (b h l0 : Nat) : (m.onPlic l f).fld b h l0 = m.fld b h l0 := rfl
@[simp] theorem Mach.onPlic_bit (b j : Nat) : (m.onPlic l f).bit b j = m.bit b j := rfl
end

section
variable (a k : Nat)
@[simp] theorem Mach.orr_variant : (m.orr a k).variant = m.variant := rfl
@[simp] theorem Mach.orr_regs : (m.orr a k).regs = (a, m.rd a ||| BitVec.ofNat 32 k) :: m.regs := rfl
@[simp] theorem Mach.orr_reply : (m.orr a k).reply = m.reply := rfl
@[simp] theorem Mach.orr_locked : (m.orr a k).locked = m.locked := rfl
@[simp] theorem Mach.orr_free : (m.orr a k).free = m.free := rfl
@[simp] theorem Mach.orr_image : (m.orr a k).image = m.image := rfl
@[simp] theorem Mach.orr_sys : (m.orr a k).sys = m.sys := rfl
@[simp] theorem Mach.orr_tick : (m.orr a k).tick = m.tick := rfl
@[simp] theorem Mach.orr_acq : (m.orr a k).acq = m.acq := rfl
@[simp] theorem Mach.orr_pos : (m.orr a k).pos = m.pos := rfl
@[simp] theorem Mach.orr_law : (m.orr a k).law = m.law := rfl
@[simp] theorem Mach.orr_foc : (m.orr a k).foc = m.foc := rfl
@[simp] theorem Mach.orr_mod : (m.orr a k).mod = m.mod := rfl
@[simp] theorem Mach.orr_gate : (m.orr a k).gate = m.gate := rfl
@[simp] theorem Mach.orr_lvc : (m.orr a k).lvc = m.lvc := rfl
@[simp] theorem Mach.orr_chg : (m.orr a k).chg = m.chg := rfl
@[simp] theorem Mach.orr_act : (m.orr a k).act = m.act := rfl
@[simp] theorem Mach.orr_offers : (m.orr a k).offers = m.offers := rfl
@[simp] theorem Mach.orr_dma : (m.orr a k).dma = m.dma := rfl
@[simp] theorem Mach.orr_time : (m.orr a k).time = m.time := rfl
@[simp] theorem Mach.orr_net : (m.orr a k).net = m.net := rfl
@[simp] theorem Mach.orr_lanes : (m.orr a k).lanes = m.lanes := rfl
@[simp] theorem Mach.orr_lane : (m.orr a k).lane = m.lane := rfl
@[simp] theorem Mach.orr_pwr : (m.orr a k).pwr = m.pwr := rfl
@[simp] theorem Mach.orr_safe : (m.orr a k).safe = m.safe := rfl
@[simp] theorem Mach.orr_img : (m.orr a k).img = m.img := rfl
@[simp] theorem Mach.orr_plic : (m.orr a k).plic = m.plic := rfl
@[simp] theorem Mach.orr_setNow : (m.orr a k).setNow = (a, k) :: m.setNow := rfl
end

/-! Time moved on changes the clock alone. -/

@[simp] theorem Mach.advanceTo_time_raised (c : Nat) : (m.advanceTo c).time.raised = m.time.raised := rfl
@[simp] theorem Mach.advanceTo_time_collator (c : Nat) : (m.advanceTo c).time.collator = m.time.collator := rfl
@[simp] theorem Mach.advanceTo_time_queue (c : Nat) : (m.advanceTo c).time.queue = m.time.queue := rfl
@[simp] theorem Mach.advanceTo_time_nextSeq (c : Nat) : (m.advanceTo c).time.nextSeq = m.time.nextSeq := rfl
@[simp] theorem Mach.advanceTo_time_discarding (c : Nat) : (m.advanceTo c).time.discarding = m.time.discarding := rfl
@[simp] theorem Mach.advanceTo_time_flashQueue (c : Nat) : (m.advanceTo c).time.flashQueue = m.time.flashQueue := rfl
@[simp] theorem Mach.advanceTo_time_flashSector (c : Nat) : (m.advanceTo c).time.flashSector = m.time.flashSector := rfl
@[simp] theorem Mach.advanceTo_time_flashSlot (c : Nat) : (m.advanceTo c).time.flashSlot = m.time.flashSlot := rfl
@[simp] theorem Mach.advanceTo_time_flashSectorNum (c : Nat) : (m.advanceTo c).time.flashSectorNum = m.time.flashSectorNum := rfl
@[simp] theorem Mach.advanceTo_time_lines (c : Nat) : (m.advanceTo c).time.lines = m.time.lines := rfl
@[simp] theorem Mach.advanceTo_time_armPending (c : Nat) : (m.advanceTo c).time.armPending = m.time.armPending := rfl
@[simp] theorem Mach.advanceTo_time_postLeft (c : Nat) : (m.advanceTo c).time.postLeft = m.time.postLeft := rfl
@[simp] theorem Mach.advanceTo_time_trigger (c : Nat) : (m.advanceTo c).time.trigger = m.time.trigger := rfl
@[simp] theorem Mach.advanceTo_time_trigSeq (c : Nat) : (m.advanceTo c).time.trigSeq = m.time.trigSeq := rfl
@[simp] theorem Mach.advanceTo_time_trigPlaced (c : Nat) : (m.advanceTo c).time.trigPlaced = m.time.trigPlaced := rfl
@[simp] theorem Mach.advanceTo_time_armedSince (c : Nat) : (m.advanceTo c).time.armedSince = m.time.armedSince := rfl
@[simp] theorem Mach.advanceTo_time_nextCopySlot (c : Nat) : (m.advanceTo c).time.nextCopySlot = m.time.nextCopySlot := rfl
@[simp] theorem Mach.advanceTo_time_evcnt (c : Nat) : (m.advanceTo c).time.evcnt = m.time.evcnt := rfl

/-! A write of a register, and what reads after it. -/

theorem Mach.rd_wr (a b : Nat) (w : Word) : (m.wr a w).rd b = if b = a then w else m.rd b := by
  by_cases h : a = b <;> simp [Mach.rd, Mach.wr, Cells.get, h, eq_comm]

@[simp] theorem Mach.rd_wr_self (a : Nat) (w : Word) : (m.wr a w).rd a = w := by simp [Mach.rd_wr]

theorem Mach.rd_wr_other {a b : Nat} (w : Word) (h : b ≠ a) : (m.wr a w).rd b = m.rd b := by simp [Mach.rd_wr, h]

/-! A lane's copy. -/

@[simp] theorem Two.get_a {α : Type} (x y : α) : (⟨x, y⟩ : Two α).get .a = x := rfl

@[simp] theorem Two.get_b {α : Type} (x y : α) : (⟨x, y⟩ : Two α).get .b = y := rfl

@[simp] theorem Two.set_a_a {α : Type} (t : Two α) (x : α) : (t.set .a x).a = x := rfl

@[simp] theorem Two.set_b_b {α : Type} (t : Two α) (x : α) : (t.set .b x).b = x := rfl

@[simp] theorem Two.set_a_b {α : Type} (t : Two α) (x : α) : (t.set .a x).b = t.b := rfl

@[simp] theorem Two.set_b_a {α : Type} (t : Two α) (x : α) : (t.set .b x).a = t.a := rfl

@[simp] theorem Two.get_set_self {α : Type} (t : Two α) (l : Lane) (x : α) : (t.set l x).get l = x := by cases l <;> rfl

theorem Two.get_set_other {α : Type} (t : Two α) {l k : Lane} (x : α) (h : l ≠ k) : (t.set l x).get k = t.get k := by
  cases l <;> cases k <;> simp_all [Two.get, Two.set]

end Sys2Proof.Machine
end

