-- ==== Sys2Proof/Laws/Word.lean ====
section
/-! SUPPORT. Fields of a word: what a replaced field reads as, and that the rest of the word stays. -/

namespace Sys2Proof

/-- A number split around the bits `lo` to `lo + k - 1`. -/
theorem Nat.split_field (n lo k : Nat) : n = n / 2 ^ (lo + k) * 2 ^ (lo + k) + (n / 2 ^ lo % 2 ^ k) * 2 ^ lo + n % 2 ^ lo := by
  have h1 := Nat.div_add_mod n (2 ^ lo)
  have h2 := Nat.div_add_mod (n / 2 ^ lo) (2 ^ k)
  have h3 : n / 2 ^ (lo + k) = n / 2 ^ lo / 2 ^ k := by rw [pow_add, Nat.div_div_eq_div_mul]
  rw [h3, pow_add]
  calc n = 2 ^ lo * (2 ^ k * (n / 2 ^ lo / 2 ^ k) + n / 2 ^ lo % 2 ^ k) + n % 2 ^ lo := by rw [h2, h1]
    _ = _ := by ring

/-- Two parts side by side. -/
theorem Nat.pack_lt {a b c d : Nat} (h : a < b) (h' : c < d) : a * d + c < b * d :=
  calc a * d + c < a * d + d := by omega
    _ = (a + 1) * d := by ring
    _ ≤ b * d := Nat.mul_le_mul_right d h

/-- A word with a field replaced: the part above, the field, the part below. -/
theorem Word.withBits_toNat (w : Word) {hi lo : Nat} (v : Nat) (hl : lo ≤ hi) (hh : hi < 32) :
    (w.withBits hi lo v).toNat =
      w.toNat / 2 ^ (hi + 1) * 2 ^ (hi + 1) + (v % 2 ^ (hi + 1 - lo)) * 2 ^ lo + w.toNat % 2 ^ lo := by
  have hs := Nat.split_field w.toNat lo (hi + 1 - lo)
  rw [show lo + (hi + 1 - lo) = hi + 1 by omega] at hs
  have hv : v % 2 ^ (hi + 1 - lo) < 2 ^ (hi + 1 - lo) := Nat.mod_lt _ (by positivity)
  have hr : w.toNat % 2 ^ lo < 2 ^ lo := Nat.mod_lt _ (by positivity)
  have hw := w.isLt
  have hp : 2 ^ (hi + 1) = 2 ^ (hi + 1 - lo) * 2 ^ lo := by rw [← pow_add]; congr 1; omega
  have hq : 2 ^ 32 = 2 ^ (31 - hi) * 2 ^ (hi + 1) := by rw [← pow_add]; congr 1; omega
  have hd : w.toNat / 2 ^ (hi + 1) < 2 ^ (31 - hi) := by
    rw [Nat.div_lt_iff_lt_mul (by positivity), ← hq]; exact hw
  have hlow : (v % 2 ^ (hi + 1 - lo)) * 2 ^ lo + w.toNat % 2 ^ lo < 2 ^ (hi + 1) := by
    rw [hp]; exact Nat.pack_lt hv hr
  unfold Word.withBits
  simp only [BitVec.toNat_ofNat, Nat.shiftRight_eq_div_pow]
  rw [Nat.mod_eq_of_lt]
  · omega
  · have : w.toNat / 2 ^ (hi + 1) * 2 ^ (hi + 1) + 2 ^ (hi + 1) ≤ 2 ^ 32 := by
      rw [hq]; calc _ = (w.toNat / 2 ^ (hi + 1) + 1) * 2 ^ (hi + 1) := by ring
        _ ≤ _ := Nat.mul_le_mul_right _ hd
    omega

/-- A replaced field reads as what was put there. -/
theorem Word.bits_withBits (w : Word) {hi lo : Nat} (v : Nat) (hl : lo ≤ hi) (hh : hi < 32) :
    (w.withBits hi lo v).bits hi lo = v % 2 ^ (hi + 1 - lo) := by
  have hr : w.toNat % 2 ^ lo < 2 ^ lo := Nat.mod_lt _ (by positivity)
  have hp : 2 ^ (hi + 1) = 2 ^ (hi + 1 - lo) * 2 ^ lo := by rw [← pow_add]; congr 1; omega
  unfold Word.bits
  rw [Word.withBits_toNat w v hl hh, Nat.shiftRight_eq_div_pow, hp, ← mul_assoc, ← add_mul,
    Nat.add_comm, Nat.add_mul_div_right _ _ (by positivity), Nat.div_eq_of_lt hr, Nat.zero_add, Nat.add_comm,
    Nat.add_mul_mod_self_right, Nat.mod_mod]

/-- A field above or below the replaced one stays. -/
theorem Word.bits_withBits_other (w : Word) {hi lo h l : Nat} (v : Nat) (hl : lo ≤ hi) (hh : hi < 32) (hlh : l ≤ h)
    (hd : h < lo ∨ hi < l) : (w.withBits hi lo v).bits h l = w.bits h l := by
  unfold Word.bits
  rw [Word.withBits_toNat w v hl hh]
  simp only [Nat.shiftRight_eq_div_pow]
  have hs := Nat.split_field w.toNat lo (hi + 1 - lo)
  rw [show lo + (hi + 1 - lo) = hi + 1 by omega] at hs
  have hr : w.toNat % 2 ^ lo < 2 ^ lo := Nat.mod_lt _ (by positivity)
  have hv : v % 2 ^ (hi + 1 - lo) < 2 ^ (hi + 1 - lo) := Nat.mod_lt _ (by positivity)
  have hf : w.toNat / 2 ^ lo % 2 ^ (hi + 1 - lo) < 2 ^ (hi + 1 - lo) := Nat.mod_lt _ (by positivity)
  have hp : 2 ^ (hi + 1) = 2 ^ (hi + 1 - lo) * 2 ^ lo := by rw [← pow_add]; congr 1; omega
  rcases hd with hd | hd
  · have hq : 2 ^ lo = 2 ^ (lo - (h + 1)) * 2 ^ (h + 1 - l) * 2 ^ l := by rw [← pow_add, ← pow_add]; congr 1; omega
    have key : ∀ x y, (x * 2 ^ lo + y) / 2 ^ l % 2 ^ (h + 1 - l) = y / 2 ^ l % 2 ^ (h + 1 - l) := by
      intro x y
      rw [hq, ← mul_assoc, Nat.add_comm, Nat.add_mul_div_right _ _ (by positivity), ← mul_assoc, Nat.add_mul_mod_self_right]
    rw [hp, ← mul_assoc, ← add_mul, key]
    conv_rhs => rw [← Nat.div_add_mod w.toNat (2 ^ lo), Nat.mul_comm, key]
  · have hq : 2 ^ l = 2 ^ (hi + 1) * 2 ^ (l - (hi + 1)) := by rw [← pow_add]; congr 1; omega
    have key : ∀ y, y < 2 ^ (hi + 1) → (w.toNat / 2 ^ (hi + 1) * 2 ^ (hi + 1) + y) / 2 ^ l = w.toNat / 2 ^ (hi + 1) / 2 ^ (l - (hi + 1)) := by
      intro y hy
      rw [hq, ← Nat.div_div_eq_div_mul, Nat.add_comm, Nat.add_mul_div_right _ _ (by positivity), Nat.div_eq_of_lt hy, Nat.zero_add]
    rw [Nat.add_assoc, key _ (by rw [hp]; exact Nat.pack_lt hv hr)]
    conv_rhs => rw [hs, Nat.add_assoc, key _ (by rw [hp]; exact Nat.pack_lt hf hr)]

/-- A field is no larger than its width. -/
theorem Word.bits_lt (w : Word) (hi lo : Nat) : w.bits hi lo < 2 ^ (hi + 1 - lo) := Nat.mod_lt _ (by positivity)

/-- One bit is a field of width one. -/
theorem Word.bit_eq_bits (w : Word) (i : Nat) : w.bit i = decide (w.bits i i = 1) := by
  simp only [Word.bit, Word.bits, Nat.testBit, Nat.shiftRight_eq_div_pow, Nat.one_and_eq_mod_two]
  rcases Nat.mod_two_eq_zero_or_one (w.toNat / 2 ^ i) with h | h <;> simp [h]

@[simp] theorem Word.bit_withBit (w : Word) {i : Nat} (b : Bool) (hi : i < 32) : (w.withBit i b).bit i = b := by
  rw [Word.bit_eq_bits, Word.withBit, Word.bits_withBits w _ (le_refl i) hi]
  cases b <;> simp

theorem Word.bit_withBit_other (w : Word) {i j : Nat} (b : Bool) (hi : i < 32) (h : i ≠ j) : (w.withBit i b).bit j = w.bit j := by
  rw [Word.bit_eq_bits, Word.bit_eq_bits, Word.withBit, Word.bits_withBits_other w _ (le_refl i) hi (le_refl j) (by omega)]

theorem Word.bits_withBit_other (w : Word) {i h l : Nat} (b : Bool) (hi : i < 32) (hlh : l ≤ h) (hd : h < i ∨ i < l) :
    (w.withBit i b).bits h l = w.bits h l := Word.bits_withBits_other w _ (le_refl i) hi hlh hd

@[simp] theorem Word.bit_or (v w : Word) (i : Nat) : Word.bit (v ||| w) i = (v.bit i || w.bit i) := by
  simp [Word.bit, BitVec.toNat_or, Nat.testBit_or]

@[simp] theorem Word.bit_and (v w : Word) (i : Nat) : Word.bit (v &&& w) i = (v.bit i && w.bit i) := by
  simp [Word.bit, BitVec.toNat_and, Nat.testBit_and]

end Sys2Proof
end

