-- ==== Sys2Proof/Laws/Ops.lean ====
section
/-! SUPPORT. What the shared operations can do: a command always answers a next state; settling the register file changes no
register; fields of registers; events; waiting entries; memory. -/

namespace Sys2Proof.Machine

/-! ### How a command ends -/

/-- Settling changes no register. -/
@[simp] theorem Mach.settle_rd (m : Mach) (a : Nat) : m.settle.rd a = m.rd a := Cells.get_settle _ _ _

@[simp] theorem Mach.settle_fld (m : Mach) (a hi lo : Nat) : m.settle.fld a hi lo = m.fld a hi lo := by simp [Mach.fld]

@[simp] theorem Mach.settle_bit (m : Mach) (a i : Nat) : m.settle.bit a i = m.bit a i := by simp [Mach.bit]

/-- A command that touches no memory answers a next state with memory and queue as they were. -/
theorem run_next {s : State} {cyc : Nat} {f : Mach → Mach} :
    run s cyc f = .next { s with m := (f (s.m.advanceTo cyc)).settle } := rfl

/-- What a command that touches no memory leaves. -/
theorem run_frame {s t : State} {cyc : Nat} {f : Mach → Mach} (h : run s cyc f = .next t) :
    t.mem = s.mem ∧ t.pending = s.pending := by
  simp only [run, Host.Outcome.next.injEq] at h
  subst h
  exact ⟨rfl, rfl⟩

/-- The register file after any command has its canonical form. -/
theorem run_canonical {s t : State} {cyc : Nat} {f : Mach → Mach} (h : run s cyc f = .next t) :
    Cells.canonical (regReset t.m.variant) t.m.regs = true := by
  simp only [run, Host.Outcome.next.injEq] at h
  subst h
  exact Cells.settle_canonical _ _

theorem runMem_canonical {s t : State} {cyc : Nat} {f : Mach → List Host.Cell → Mach × List Host.Cell}
    (h : runMem s cyc f = .next t) : Cells.canonical (regReset t.m.variant) t.m.regs = true := by
  simp only [runMem, Host.Outcome.next.injEq] at h
  subst h
  exact Cells.settle_canonical _ _

/-- A command that touches memory keeps its canonical form if what it does there does. -/
theorem runMem_wf {s t : State} {cyc : Nat} {f : Mach → List Host.Cell → Mach × List Host.Cell}
    (h : runMem s cyc f = .next t) (hf : ∀ m, Memory.wf s.mem = true → Memory.wf (f m s.mem).2 = true)
    (hw : Memory.wf s.mem = true) : Memory.wf t.mem = true := by
  simp only [runMem, Host.Outcome.next.injEq] at h
  subst h
  exact hf _ hw

/-! ### Loops -/

/-- What every turn of a loop keeps, the loop keeps. -/
theorem forL_keeps {α β : Type} (P : Mach → β) {f : α → Mach → Mach} (h : ∀ x m, P (f x m) = P m) (l : List α) (m : Mach) :
    P (forL l f m) = P m := by
  unfold forL
  induction l generalizing m with
  | nil => rfl
  | cons x t ih => exact (ih (f x m)).trans (h x m)

theorem forN_keeps {β : Type} (P : Mach → β) {f : Nat → Mach → Mach} (h : ∀ i m, P (f i m) = P m) (n : Nat) (m : Mach) :
    P (forN n f m) = P m := forL_keeps P h (List.range n) m

/-- One entry of a list changed, and the others as they were. -/
theorem nth_upd {α : Type} [Inhabited α] (l : List α) (i j : Nat) (f : α → α) :
    nth (upd l i f) j = if j = i ∧ i < l.length then f (nth l i) else nth l j := by
  unfold nth upd
  by_cases hj : j = i
  · subst hj
    by_cases hl : j < l.length <;> simp [List.getD_eq_getElem?_getD, hl]
  · simp [List.getD_eq_getElem?_getD, hj, Ne.symm hj]

/-! ### Registers -/

variable (m : Mach)

theorem Mach.rd_setFld (a b hi lo v : Nat) :
    (m.setFld a hi lo v).rd b = if b = a then (m.rd a).withBits hi lo v else m.rd b := Mach.rd_wr ..

theorem Mach.rd_setBit (a b i : Nat) (x : Bool) :
    (m.setBit a i x).rd b = if b = a then (m.rd a).withBit i x else m.rd b := Mach.rd_wr ..

theorem Mach.rd_orr (a b k : Nat) :
    (m.orr a k).rd b = if b = a then m.rd a ||| BitVec.ofNat 32 k else m.rd b := Mach.rd_wr ..

theorem Mach.rd_wrN (a b v : Nat) : (m.wrN a v).rd b = if b = a then BitVec.ofNat 32 v else m.rd b := Mach.rd_wr ..

theorem Mach.rd_wrS (a b : Nat) (v : Int) : (m.wrS a v).rd b = if b = a then wordOf v else m.rd b := Mach.rd_wr ..

/-- A field that was set reads as it was set. -/
theorem Mach.fld_setFld {a hi lo : Nat} (v : Nat) (hl : lo ≤ hi) (hh : hi < 32) :
    (m.setFld a hi lo v).fld a hi lo = v % 2 ^ (hi + 1 - lo) := by
  simp only [Mach.fld, Mach.rd_setFld, if_pos]
  exact Word.bits_withBits _ v hl hh

/-- Other fields stay. -/
theorem Mach.fld_setFld_other {a b hi lo h l : Nat} (v : Nat) (hl : lo ≤ hi) (hh : hi < 32) (hlh : l ≤ h)
    (hd : b ≠ a ∨ h < lo ∨ hi < l) : (m.setFld a hi lo v).fld b h l = m.fld b h l := by
  simp only [Mach.fld, Mach.rd_setFld]
  split
  · rename_i hab
    subst hab
    exact Word.bits_withBits_other _ v hl hh hlh (by tauto)
  · rfl

/-! ### Events -/

/-- R378, R380: an event raised joins those on their way to the Catalogue. -/
theorem Mach.raise_raised (c k slot : Nat) (d : List Nat) (o : Nat) :
    (m.raise c k slot d o).time.raised =
      m.time.raised ++ [⟨m.now, m.tickNow % 2 ^ 32, c, k, o, m.replayed o, slot, d⟩] := rfl

/-! ### Accession -/

/-- R305: while nothing waits, an entry that fits the kilobyte takes its first tick. -/
theorem Mach.place_roomy {first last : Nat} {entry : Nat → JEntry} (h : m.lane.waiting = [])
    (hp : entryBytes (entry first).payload ≤ 1024) : m.place first last entry = m.wait (entry first) := by
  have hw : m.waitingBytes first = 0 := by rw [Mach.waitingBytes, h]; rfl
  unfold Mach.place
  simp only [hw, Nat.zero_add]
  rw [if_pos hp]

/-- R305: while nothing waits, an input is accessioned for the next tick, or the one after past the cutoff. -/
theorem Mach.accede_roomy {i : AsyncIn} (h : m.lane.waiting = []) (hp : entryBytes i.payload ≤ 1024) :
    m.accede i = m.wait (m.entryOf m.accTickNow i) := by
  unfold Mach.accede Mach.accedeAt
  exact m.place_roomy (entry := fun t => m.entryOf t i) h hp

@[simp] theorem insertEntry_nil (e : JEntry) : insertEntry e [] = [e] := rfl

/-! ### Memory -/

theorem Memory.read_write {mem : List Host.Cell} (h : Memory.wf mem = true) (a b : Nat) (x : Byte) :
    Memory.read (Memory.write mem a x) b = if b = a then x else Memory.read mem b :=
  Cells.get_put (d := Memory.unlisted) ((Cells.canonical_iff _ _).1 h).1

theorem Memory.write_wf {mem : List Host.Cell} (h : Memory.wf mem = true) (a : Nat) (x : Byte) :
    Memory.wf (Memory.write mem a x) = true := Cells.put_canonical h

theorem Memory.writeL_wf {mem : List Host.Cell} (h : Memory.wf mem = true) (a : Nat) (l : List Nat) :
    Memory.wf (Memory.writeL mem a l) = true := by
  induction l generalizing mem a with
  | nil => exact h
  | cons b t ih => exact ih (Memory.write_wf h a _) _

theorem Memory.clear_wf {mem : List Host.Cell} (h : Memory.wf mem = true) (a b : Nat) :
    Memory.wf (Memory.clear mem a b) = true := Cells.filter_canonical _ h

/-- A byte outside what is written stays. -/
theorem Memory.read_writeL_other {mem : List Host.Cell} (h : Memory.wf mem = true) {a b : Nat} (l : List Nat)
    (hb : b < a ∨ a + l.length ≤ b) : Memory.read (Memory.writeL mem a l) b = Memory.read mem b := by
  induction l generalizing mem a with
  | nil => rfl
  | cons x t ih =>
    simp only [List.length_cons] at hb
    rw [Memory.writeL, ih (Memory.write_wf h a _) (by omega), Memory.read_write h, if_neg (by omega)]

end Sys2Proof.Machine
end

