-- ==== Sys2Proof/Tests/Slice0.lean ====
section
/-! SUPPORT. Checks of the model on small states: ill-formed commands are refused by `Instr.wf`; for every statement with
hypotheses, a state and operands that meet them; and single commands against values worked out from the spec's text. -/

namespace Sys2Proof.Tests

open Sys2Proof.Machine

/-! ### Small states -/

/-- Reset, in STANDBY, with these registers. -/
def st (regs : List (Nat × Nat)) (f : Mach → Mach := id) : State :=
  { State.reset with
    m := f (regs.foldl (fun m (r : Nat × Nat) => m.wrN r.1 r.2) (State.reset.m.wrN Reg.SYS_MODE_STAT 0x11)) }

/-- Both lanes LIVE and paired, the link up. -/
def pair (m : Mach) : Mach := ((m.setLaneCode .a 1).setLaneCode .b 1).setFld Reg.LANE_STATUS 5 4 1

/-- Lane a LIVE alone. -/
def solo (m : Mach) : Mach := ((m.setLaneCode .a 1).setLaneCode .b 2).setFld Reg.LANE_STATUS 5 4 1

/-- Lane a in tick context. -/
def inTickA (m : Mach) : Mach := m.wrN (Reg.TICK_CTX 0) 1

/-- A running tick. -/
def ticking (m : Mach) : Mach := m.onTicks fun t => { t with running := true }

/-- A running tick with this number. -/
def tickNo (n : Nat) (m : Mach) : Mach := ticking (m.wrN Reg.TICK_SEQ_LO n)

/-- An image that maps these slots. -/
def slots (l : List (Nat × SlotType)) (m : Mach) : Mach :=
  { m with image := { m.image with slots := l.map fun x => { (default : SlotEntry) with slot := x.1, type := x.2 } } }

/-- A slot with an accepted frame. -/
def accepted (k : Nat) (f : Frame → Frame) (m : Mach) : Mach :=
  m.onLb fun b => { b with slots := upd b.slots k fun s => { s with last := [f default] } }

/-- The machine at this cycle of the timebase. -/
def clock (n : Nat) (m : Mach) : Mach := m.onTime fun t => { t with t := n }

/-- An entry that waits for accession. -/
def entry (kind addr value : Nat) : JEntry :=
  { (default : JEntry) with kind := kind, addr := addr % 2 ^ 32, value := value, origin := 1 }

/-- Lane a alone in a running tick, this entry waiting. -/
def waitingFor (kind addr value : Nat) (m : Mach) : Mach :=
  (ticking (solo m)).onLb fun b =>
    { b with waiting := [entry kind addr value] }

/-- The reserved pair 5 and leg 7 of slot 3. -/
def gates : List (Nat × Nat) := [(Reg.GDI_PR_CFG 5, 0x34000000), (Reg.GDL_LEG_CFG 7, 0x38030000)]

/-- Motor 1 of lane a on slot 3, in this state. -/
def motor (f : FocMotor → FocMotor) : State :=
  st [(Reg.FOC_M_CFG 0 1, 0x30000000)] fun m => (pair m).onMotor .a 1 f

/-- The low-voltage converter configured, in this state. -/
def conv (f : LvcState → LvcState) : State :=
  st [(Reg.LVC_CFG, 0x32000040), (Reg.LVC_SS, 0x10010), (Reg.LVC_SHED, 0x10101)] fun m =>
    (slots [(3, .buckn), (2, .dcx)] m).onLvc f

/-- The charger configured, in this state. -/
def charger (regs : List (Nat × Nat)) (f : ChgState → ChgState) : State :=
  st ((Reg.CHG_CFG, 0x12000000) :: regs) fun m => (slots [(1, .pfc3), (2, .dab)] (solo m)).onChg f

/-- Both lanes LIVE, the module powered. -/
def live (m : Mach) : Mach := (pair m).onPwr fun p => { p with phase := .up, due := none, booted := true }

/-- Ring 3 of lane a, enabled in state `x`, both lanes LIVE. -/
def ring (regs : List (Nat × Nat)) (x : Nat) (f : DmaRing → DmaRing) : State :=
  st ([(Reg.DMA_R_CFG 0 3, 1 + 3 * 2 ^ 14), (Reg.DMA_R_STAT 0 3, x * 2 ^ 14), (Reg.DMA_R_BASE_LO 0 3, 0x80000000),
    (Reg.DMA_R_CQ_LO 0 3, 0x80010000)] ++ regs) fun m => (live m).onRing .a 3 f

/-- A descriptor of 300 bytes to DRAM, with this operation. -/
def desc (op : Nat) : DmaDesc := ⟨7, 0, 0, 0x90000000, 300, 5, op, 1, 0x04030201, false⟩

/-- The same in flight, with `n` bytes issued. -/
def flight (n : Nat) : DmaActive := ⟨desc 1, n, some 44, [], 300, 0, 0, []⟩

/-- These bytes at this address. -/
def bytes (a : Nat) (b : List Nat) (s : State) : State := { s with mem := Memory.writeL s.mem a b }

/-- A descriptor of this operation as bytes of memory. -/
def descBytes (op : Nat) : List Nat :=
  leBytes 8 0 ++ leBytes 8 0x90000000 ++ leBytes 4 300 ++ leBytes 2 5 ++ [op, 1] ++ leBytes 4 0x04030201 ++ leBytes 4 0

/-- Unit 1 of lane a set for the CRC-32 of IEEE 802.3 over nine bytes of DRAM. -/
def crc (regs : List (Nat × Nat)) : State :=
  st ([(Reg.CRC_U_CFG 0 1, 32 * 2 ^ 22 + 2 ^ 21 + 2 ^ 20), (Reg.CRC_U_POLY_LO 0 1, 0x04C11DB7),
    (Reg.CRC_U_INIT_LO 0 1, 0xFFFFFFFF), (Reg.CRC_U_XOR_LO 0 1, 0xFFFFFFFF), (Reg.CRC_U_LEN 0 1, 9),
    (Reg.CRC_U_ADDR_LO 0 1, 0x90000000)] ++ regs) live

/-- Lane a alone, with this much known of events. -/
def timed (regs : List (Nat × Nat)) (f : TimeState → TimeState) : State := st regs fun m => (solo m).onTime f

/-- An event of the past. -/
def event (t code cls : Nat) : Event := ⟨t, 0, code, cls, 0, false, 3, [1, 2]⟩

/-- A line of the fault capture. -/
def line (t : Nat) : CapLine := ⟨t, 0, 0, 0, List.replicate 12 5#32⟩

/-- A safety channel's message with this sequence number, and its CRC off by `bad`. -/
def message (m : Mach) (seqn bad : Nat) : List Nat :=
  let body := leBytes 4 0x77 ++ leBytes 2 seqn ++ leBytes 2 4 ++ [0, 2] ++ leBytes 2 100 ++ [0xFF, 0xFF]
  List.replicate 14 0 ++ body ++ leBytes 4 (m.aeCrc 1 body + bad)

/-- Connection 1 of the safety channels in state `x` with a message received. -/
def channel (x bad : Nat) (f : AeConn → AeConn) (regs : List (Nat × Nat)) : State :=
  st ([(Reg.SAFE_AE_CFG_W0 1, 0x77), (Reg.SAFE_AE_CFG_W1 1, 0x80000000 + 3 * 2 ^ 24 + 3 * 2 ^ 18 + 100),
    (Reg.SAFE_AE_CFG_W2 1, 0x00F0FFFF), (Reg.SAFE_AEDDY, x * 4)] ++ regs) fun m =>
  let m := (solo m).onSafe fun s => { s with conns := upd s.conns 1 fun y => f { y with sent := 5 } }
  m.onNet fun n => { n with safetyInbox := [(3, message m 9 bad)] }

/-- Lane a alone, a session in state `x`, three entries in the change log, a password of three words in its buffer. -/
def session (x : Nat) (regs : List (Nat × Nat)) (f : SafeState → SafeState) : State :=
  st ([(Reg.SAFE_SESS_STAT, x * 2 ^ 28), (Reg.SAFE_PW_BUF 0, 0x41414141), (Reg.SAFE_PW_BUF 1, 0x42424242),
    (Reg.SAFE_PW_BUF 2, 0x43)] ++ regs) fun m => (solo m).onSafe fun s => f { s with logSlot := 3 }

/-- Lane a alone, an image of 1024 bytes on its way in stage `x`. -/
def staging (x : Nat) (regs : List (Nat × Nat)) (f : Mach → Mach := id) : State :=
  st ([(Reg.IMG_LEN, 1024), (Reg.IMG_STATUS, x * 2 ^ 28)] ++ regs) fun m => f (solo m)

/-- Data that waits at the image port. -/
def port5 (param n : Nat) (m : Mach) : Mach := m.onDma fun d => { d with port5 := [⟨.a, 3, param, List.replicate n 7⟩] }

/-- The rails in this state. -/
def rails (regs : List (Nat × Nat)) (f : PwrState → PwrState) : State := st regs fun m => m.onPwr f

/-- The module up and running. -/
def up (f : PwrState → PwrState := id) : State :=
  st [(Reg.PWR_STATUS, 0x7F)] fun m =>
    (ticking (pair m)).onPwr fun p => f { p with phase := .up, due := none, booted := true }

/-- A frame of slot 3 with three legs for tick 3. -/
def frame3 : Frame := { (default : Frame) with slot := 3, seq := 3, patlen := 8000, legs := List.replicate 3 (offLeg 0) }

/-- Slot 3 mapped, with an envelope that the frame meets, in tick 3. -/
def sieve (f : LaneBlock → LaneBlock) : State :=
  st [] fun m =>
    let m := slots [(3, .pump)] (tickNo 3 (pair m))
    let e : Envelope := { (default : Envelope) with slot := 3, patlen := 8000, nleg := 3, modes := 0xFF, dtmin := [0, 0, 0, 0, 0] }
    { m with image := { m.image with envelopes := [e] } }.onLb f

/-- A checkpoint of this tick. -/
def ckpt (t : Nat) : Checkpoint := { (default : Checkpoint) with tick := t }

/-- The answer is a next state that satisfies `p`. -/
def answers (o : Host.Outcome State Fault Refusal) (p : State → Bool) : Bool :=
  match o with
  | .next t => p t
  | _ => false

/-- A mode table whose one row leads from STANDBY to CHARGE. -/
def toCharge (m : Mach) : Mach :=
  { m with image := { m.image with tables := [⟨0, 0, 6, 1, [], [⟨1, 3, 0x3F, 0, 0, 0, 0⟩]⟩] } }

/-- The first message of the safety processor's inbox, as received and as read. -/
def firstFrame (s : State) : List Nat := (s.m.net.safetyInbox.headD default).2
def firstMessage (s : State) : AeMsg := (AeMsg.ofBytes (aeBytes 0 (firstFrame s))).getD ⟨0, 0, 0, 0, 0, [], [], 0⟩

/-- The module booted. -/
def booted (s : State) : State := { s with m := s.m.onPwr fun p => { p with booted := true } }


/-- The module up with VDDA good, converter 2's ground reading `n` times off. -/
def checked (n : Nat) : State :=
  st [(Reg.PWR_STATUS, 0x7F), (Reg.ACQ_STATUS, 0x1000)] fun m =>
    ((ticking (pair m)).onPwr fun p => { p with phase := .up }).onConv 2 fun y => { y with gndRun := n }

/-- A calibration pulse of 56 ticks of 3 µs, and a frame of two data nibbles, its CRC off by `bad`. -/
def sentCal : Nat := 168000
def sentPulses (bad : Nat) : List Nat :=
  [0, 5, 6, (sentCrc false [5, 6] + bad) % 16].map fun n => 3000 * (12 + n)

/-- Channel 1 takes such frames, these serial bits behind it. -/
def sentAt (serial : List (Bool × Bool)) : State :=
  st [(Reg.POS_CH_CFG 1, 0x60000000), (Reg.POS_CH_FMT 1, 0x8840C)] fun m => m.onChan 1 fun y => { y with serial := serial }

/-- The serial bits of fifteen frames, newest first: a short message of data 1 but for its last bit. -/
def serial15 : List (Bool × Bool) :=
  [(false, false), (true, false), (false, false), (true, false)] ++ List.replicate 10 (false, false) ++ [(false, true)]

/-- Slot 3 of lane a senses for motor 1, in this state. -/
def flying (regs : List (Nat × Nat)) (f : ModSlot → ModSlot) : State :=
  st ([(Reg.FOC_M_CFG 0 1, 0x30000000), (Reg.FOC_STATUS 0, 8), (Reg.MOD_STAT 0 3, 0x10000000), (Reg.FOC_M_KW 0 1, 0x1000),
    (Reg.MOD_FLY 0 3, 0), (Reg.MOD_EMFMIN 0 3, 0)] ++ regs)
    fun m =>
      let m := { pair m with image := { m.image with motors := [1] } }
      m.onMod .a 3 f

/-- The module up and running, with these registers. -/
def running (regs : List (Nat × Nat)) (f : Mach → Mach := id) : State :=
  st ((Reg.PWR_STATUS, 0x7F) :: regs) fun m =>
    f ((ticking (pair m)).onPwr fun p => { p with phase := .up, due := none, booted := true })

/-- A state with its machine changed. -/
def on (f : Mach → Mach) (s : State) : State := { s with m := f s.m }

/-- The two lanes' frames of slot 3 stand at the Sieve, the slot's part and the block changed so. -/
def judged (f : SieveSlot → SieveSlot) (g : LaneBlock → LaneBlock := id) (h : Mach → Mach := pair) : State :=
  st [] fun m =>
    let m := (slots [(3, .chopper)] (tickNo 3 (h m))).onSv 3 fun x =>
      f { x with accepted := some (frame3, .a), second := some (frame3, .b) }
    m.onLb g

/-- A pump runs on drive 5 of slot 3 without a frame. -/
def pumping : State :=
  st [(Reg.SYS_MODE_STAT, 0x12), (Reg.ACT_DRV_CFG 5, 0x38000000)] fun m =>
    let m := slots [(3, .pump)] (tickNo 3 (((solo m).setLaneCode .a 2)))
    m.onDrv 5 fun x => { x with pstate := 1, granted := true }

/-! ### What is true of every value there is, of none or of one -/

theorem all_of_none {α : Type} {o : Option α} {P : α → Prop} (h : o = none) : ∀ x, o = some x → P x := by
  rintro x rfl; cases h

theorem all_of_some {α : Type} {o : Option α} {v : α} {P : α → Prop} (h : o = some v) (p : P v) : ∀ x, o = some x → P x := by
  rintro x rfl; cases h; exact p

theorem settled_of {m : Mach} (h : ∀ k : Fin 16, ((m.sv k).accepted = none ∧ (m.sv k).second = none) ∨
    ((m.sv k).accepted.any fun x => m.admitted x.2 && !(m.sv k).acceptedBad) = true) : ∀ k : Fin 16, SlotSettled m k := fun k =>
  (h k).imp id fun e => by
    obtain ⟨x, hx, h⟩ := Option.any_eq_true _ _ |>.1 e
    exact ⟨x, hx, by simpa using h⟩

theorem unflagged_of {m : Mach} {l : Lane}
    (h : ∀ k : Fin 16, ((m.sv k).accepted.all fun y => y.2 != l || !(m.sv k).acceptedBad) = true ∧
      ((m.sv k).second.all fun y => y.2 != l || !(m.sv k).secondBad) = true) :
    ∀ (k : Fin 16) (x : Frame), ((m.sv k).accepted = some (x, l) → (m.sv k).acceptedBad = false) ∧
      ((m.sv k).second = some (x, l) → (m.sv k).secondBad = false) := fun k x =>
  ⟨fun e => by simpa [e] using (h k).1, fun e => by simpa [e] using (h k).2⟩

/-! ### The hypotheses of the statements are met -/

theorem test_hypotheses_of_stepRunsTheFrontCommand :
    (∃ (c : Instr) (s : State) (rest : List Instr), s.pending = c :: rest) ∧
    (∃ (s : State), s.pending = []) :=
  ⟨⟨.scrubLine 5, { st [] with pending := [.scrubLine 5, .scrubLine 6] }, [.scrubLine 6], by decide⟩,
   ⟨st [], by decide⟩⟩

theorem test_hypotheses_of_everyStepKeepsTheCanonicalForms :
    (∃ (s t : State), s.Inv ∧ step s = .next t) :=
  ⟨{ State.reset with pending := [.scrubLine 5] },
    match step { State.reset with pending := [.scrubLine 5] } with | .next t => t | _ => State.reset,
    by unfold State.Inv State.regsCanonical; decide, rfl⟩

theorem test_hypotheses_of_commandsWithoutMemoryLeaveEveryByte :
    (∃ (c : Instr) (s t : State), c.touchesMemory = false ∧ exec c s = .next t) :=
  ⟨.bmsPermitChange 5 true, st [], match exec (.bmsPermitChange 5 true) (st []) with | .next t => t | _ => st [], by decide,
    rfl⟩

theorem test_hypotheses_of_armDoneOverrunAndCountersOfTheTickTask :
    (∃ (m : Mach), m.arr = 1 ∧ m.tick.begun = false ∧ m.live .a = true ∧ m.live .b = true ∧ m.lane.waiting = [] ∧
      m.bit (Reg.TICK_CTX 0) 1 = true ∧ m.bit (Reg.TICK_CTX 1) 1 = true) ∧
    (∃ (cyc : Nat) (l : Lane) (s : State), s.m.inTick l = true ∧ (s.at cyc).time.cyc ≤ s.m.fld (Reg.TICK_TASKDL l.ix) 15 0) ∧
    (∃ (l : Lane) (s : State), s.m.inTick l = false) ∧
    (∃ (cyc : Nat) (l : Lane) (s : State), s.m.inTick l = true ∧ (s.m.tl l).taskOverrun = false ∧
      s.m.fld (Reg.TICK_TASKDL l.ix) 15 0 ≤ (s.at cyc).time.cyc) :=
  ⟨⟨(st [(Reg.LANE_ARR, 1), (Reg.TICK_CTX 0, 2), (Reg.TICK_CTX 1, 2)] pair).m, by decide⟩,
   ⟨5, .a, st [] (inTickA ∘ pair), by decide⟩,
   ⟨.a, st [] pair, by decide⟩,
   ⟨8000, .a, st [] (inTickA ∘ pair), by decide⟩⟩

theorem test_hypotheses_of_emitDeadlineAndMissingBoundary :
    (∃ (cyc : Nat) (l : Lane) (k : Fin 16) (s : State) (f : Frame), (s.m.modSlot l k).frame = some f ∧ s.m.pipeRuns l = true ∧
      (s.m.unsent l).contains k.val = true ∧ (s.at cyc).time.cyc ≤ s.m.deadline) ∧
    (∃ (cyc : Nat) (l : Lane) (k : Fin 16) (s : State) (f : Frame), (s.m.modSlot l k).frame = some f ∧ s.m.pipeRuns l = true ∧
      (s.m.unsent l).contains k.val = true ∧ s.m.deadline < (s.at cyc).time.cyc) ∧
    (∃ (cyc : Nat) (s : State), s.m.deadline ≤ (s.at cyc).time.cyc) ∧
    (∃ (cyc : Nat) (s : State), s.m.tick.running = true ∧ 3 * s.m.period ≤ 2 * (s.at cyc).time.cyc ∧ s.m.mode ≠ .safeHold ∧
      s.m.sys.f4 = none) :=
  ⟨⟨5, .a, 3, st [] fun m => (slots [(3, .pump)] (tickNo 3 (solo m))).onMod .a 3 fun x => { x with frame := some frame3 },
    frame3, by decide⟩,
   ⟨7000, .a, 3, st [] fun m => (slots [(3, .pump)] (tickNo 3 (solo m))).onMod .a 3 fun x => { x with frame := some frame3 },
    frame3, by decide⟩,
   ⟨7000, st [] fun m => (slots [(3, .pump)] (tickNo 3 (solo m))).onMod .a 3 fun x => { x with frame := some frame3 },
    by decide⟩,
   ⟨12000, st [] (ticking ∘ pair), by decide⟩⟩

theorem test_hypotheses_of_tickWritesToTheOtherCopyAreIgnored :
    (∃ (cyc a : Nat) (l : Lane) (v : Word) (c : Instr), a ∈ tickCopy l.other ∧
      (c = .registerWrite cyc (.lane l) (BitVec.ofNat 40 (physical a)) v ∨ (a = Reg.TICK_CMD l.other.ix ∧
      (c = .tickCmdArm cyc (.lane l) l.other ∨ c = .tickCmdDone cyc (.lane l) l.other ∨
      c = .tickCmdClrovr cyc (.lane l) l.other ∨ c = .tickCmdClrmarg cyc (.lane l) l.other)))) ∧
    (∃ (cyc off : Nat) (l : Lane) (v : Word) (c : Instr), off < 0x4000 ∧
      c ∈ [.registerWrite cyc .safety (BitVec.ofNat 40 (physical (0x10000 + 4 * off))) v, .tickCmdArm cyc .safety l,
      .tickCmdDone cyc .safety l, .tickCmdClrovr cyc .safety l, .tickCmdClrmarg cyc .safety l]) :=
  ⟨⟨5, Reg.TICK_TASKDL 1, .a, 5#32, .registerWrite 5 (.lane .a) (BitVec.ofNat 40 (physical (Reg.TICK_TASKDL 1))) 5#32,
    by decide⟩,
   ⟨5, 0x3FFF, .a, 5#32, .tickCmdArm 5 .safety .a, by decide⟩⟩

theorem test_hypotheses_of_faultingAccessesAreAnsweredAndTold :
    (∃ (addr : BitVec 40), regionOf addr.toNat = .none) ∧
    (∃ (addr : BitVec 40) (w : Width), regionOf addr.toNat = .peripheral ∧ (w ≠ .word ∨ addr.toNat % 4 ≠ 0)) ∧
    (∃ (addr : BitVec 40), regionOf addr.toNat ≠ .none) ∧
    (∃ (addr : BitVec 40) (w : Width), (regionOf addr.toNat ≠ .peripheral ∨ (w = .word ∧ addr.toNat % 4 = 0))) ∧
    (∃ (l : Lane) (addr : BitVec 32) (s : State), s.m.partOf addr.toNat = some l.other ∧ s.m.inTick l = false) ∧
    (∃ (l : Lane) (addr : BitVec 32) (s : State), s.m.partOf addr.toNat = some l.other ∧ s.m.inTick l = true) ∧
    (∃ (l : Lane) (addr : BitVec 32) (s : State), s.m.partOf addr.toNat ≠ some l.other) ∧
    (∃ (l : Lane) (addr : BitVec 40) (s : State), s.m.inTick l = true ∧ regionOf addr.toNat ≠ .sram l ∧
      regionOf addr.toNat ≠ .peripheral ∧ regionOf addr.toNat ≠ .none) ∧
    (∃ (l : Lane) (addr : BitVec 40) (s : State), s.m.inTick l = true ∧ regionOf addr.toNat = .none) ∧
    (∃ (l : Lane) (addr : BitVec 40) (s : State), (s.m.inTick l = false ∨ regionOf addr.toNat = .sram l ∨
      regionOf addr.toNat = .peripheral)) :=
  ⟨⟨0xFFFFFFFFFF#40, by decide⟩,
   ⟨BitVec.ofNat 40 (physical 0 + 2), .word, by decide⟩,
   ⟨BitVec.ofNat 40 (physical 0), by decide⟩,
   ⟨BitVec.ofNat 40 (physical 0), .word, by decide⟩,
   ⟨.a, 0x04000000#32, st [(Reg.DMA_MEMCFG, 0x0101)] pair, by decide⟩,
   ⟨.a, 0x04000000#32, st [(Reg.DMA_MEMCFG, 0x0101)] (inTickA ∘ pair), by decide⟩,
   ⟨.a, 0#32, st [(Reg.DMA_MEMCFG, 0x0101)] pair, by decide⟩,
   ⟨.a, 0x80000000#40, st [] (inTickA ∘ pair), by decide⟩,
   ⟨.a, 0xFFFFFFFFFF#40, st [] (inTickA ∘ pair), by decide⟩,
   ⟨.a, 0x80000000#40, st [] pair, by decide⟩⟩

theorem test_hypotheses_of_registersByAccessTypeAndSnapshots :
    (∃ (l : Lane) (s : State) (stat en mask : Nat), s.alone l ∧ (stat, en, mask) ∈ irqPairs) ∧
    (∃ (a : Nat), a ∈ [Reg.SYS_ID, Reg.SYS_UNITS, Reg.SYS_MODE_STAT, Reg.TICK_SEQ_LO, Reg.TICK_DEADLINE, 0x00050, 0x13FFFC]) ∧
    (∃ (l : Lane) (s : State), s.alone l ∧ s.m.locked = true) ∧
    (∃ (who : Writer) (s : State), s.m.readerInTick who = false) :=
  ⟨⟨.a, st [] solo, Reg.PWR_IRQ_STAT, Reg.PWR_IRQ_EN, 0x7F, by decide⟩,
   ⟨0x13FFFC, by decide⟩,
   ⟨.a, st [] (fun m => { solo m with locked := true }), by decide⟩,
   ⟨.lane .a, st [] pair, by decide⟩⟩

theorem test_hypotheses_of_modeRequestsWaitAndTimeOut :
    (∃ (l : Lane) (v : Word) (s : State), s.m.route l = .now ∧ s.roomy ∧ v.bits 2 0 ≤ 5) ∧
    (∃ (who : Writer) (v : Word), (5 < v.bits 2 0 ∨ (who = .safety ∧ v.bits 2 0 ≠ 5))) ∧
    (∃ (v : Word) (s : State), s.roomy ∧ v.bits 2 0 = 5) ∧
    (∃ (s : State),
      let due := s.m.pendingTarget ≠ 7 ∧ s.m.fld Reg.PWR_MODECFG 15 0 ≤ s.m.sys.waited
      due) ∧
    (∃ (s : State),
      let due := s.m.pendingTarget ≠ 7 ∧ s.m.fld Reg.PWR_MODECFG 15 0 ≤ s.m.sys.waited
      ¬due) :=
  ⟨⟨.a, 5#32, st [] solo, by decide⟩,
   ⟨.lane .a, 6#32, by decide⟩,
   ⟨5#32, st [], by decide⟩,
   ⟨st [(Reg.SYS_MODE_STAT, 0x431), (Reg.PWR_MODECFG, 3)] fun m => m.onSys fun y => { y with waited := 3 }, by decide⟩,
   ⟨st [(Reg.SYS_MODE_STAT, 0x431), (Reg.PWR_MODECFG, 3)] fun m => m.onSys fun y => { y with waited := 2 }, by decide⟩⟩

theorem test_hypotheses_of_boundaryWorkInOrder :
    (∃ (s : State), s.m.tick.running = true ∧ s.m.mode ≠ .sleep) ∧
    (∃ (s : State), s.m.tick.running = true ∧ s.m.mode = .sleep) ∧
    (∃ (s : State), s.m.tick.running = false) ∧
    (∃ (s : State) (e : JEntry), s.m.tick.running = true ∧ s.m.lane.waiting = [e] ∧ e.kind = 11 ∧ e.accTick ≤ s.m.seq) :=
  ⟨⟨st [] (ticking ∘ pair), by decide⟩,
   ⟨st [(Reg.SYS_MODE_STAT, 0x10)] (ticking ∘ pair), by decide⟩,
   ⟨st [], by decide⟩,
   ⟨st [] (waitingFor 11 0 0), entry 11 0 0, by decide⟩⟩

theorem test_hypotheses_of_sequencesAndConversions :
    (∃ (cyc : Nat) (q : Fin 16) (s : State), q ≠ 15 ∧ s.m.tick.running = true ∧ s.m.mode ≠ .sleep ∧
      (s.at cyc).trigsNow q = true ∧ (s.m.seqRun q).active = false) ∧
    (∃ (cyc : Nat) (q : Fin 16) (s : State), q ≠ 15 ∧ s.m.tick.running = true ∧ s.m.mode ≠ .sleep ∧
      (s.at cyc).trigsNow q = true ∧ (s.m.seqRun q).active = true ∧ (s.m.seqRun q).started = false) ∧
    (∃ (cyc : Nat) (q : Fin 16) (s : State), (q = 15 ∨ s.m.tick.running = false ∨ s.m.mode = .sleep ∨
      (s.at cyc).trigsNow q = false)) ∧
    (∃ (q : Fin 16) (s : State), s.m.groupReady q = true) ∧
    (∃ (q : Fin 16) (s : State), s.m.groupReady q = false) ∧
    (∃ (cyc : Nat) (c : Fin 12) (s : State) (q e : Nat) (x : Int), (s.m.conv c).use = .seq q e x ∧
      (s.at cyc).time.cyc = x + 64 ∧ s.m.vddaOk = false ∧ (s.m.seqRun q).started = false) ∧
    (∃ (cyc : Nat) (c : Fin 12) (nv : Int) (s : State) (r : UrgentReq) (x v : Int) (n : Nat), (s.m.conv c).use = .urgent r x ∧
      (s.at cyc).time.cyc = x + 64 ∧ s.m.vddaOk = true ∧ s.m.convFailed (r.input / 8) = false ∧ r.acc = some n ∧
      s.m.fld (Reg.ACQ_ACFG_CTRL n) 31 29 ≤ 1 ∧
      v = adcCode nv - (s.m.fld (Reg.ACQ_IN r.input) 15 0 + signed 15 (s.m.fld (Reg.ACQ_IN r.input) 30 16)) ∧
      v = signed 17 (unsigned 17 v)) ∧
    (∃ (cyc : Nat) (c : Fin 12) (s : State) (r : UrgentReq) (x : Int) (n : Nat), (s.m.conv c).use = .urgent r x ∧
      (s.at cyc).time.cyc = x + 64 ∧ s.m.vddaOk = true ∧ s.m.convFailed (r.input / 8) = true ∧ r.acc = some n) ∧
    (∃ (c : Fin 12) (s : State) (r : UrgentReq) (rest : List UrgentReq), (s.m.conv c).use = .free ∧
      (s.m.conv c).queue = r :: rest) ∧
    (∃ (c : Fin 12) (s : State), ((s.m.conv c).use ≠ .free ∨ (s.m.conv c).queue = [])) :=
  ⟨⟨0, 3, st [(Reg.ACQ_SEQ_TRIG 3, 0x40000000)] ticking, by decide⟩,
   ⟨0, 3, st [(Reg.ACQ_SEQ_TRIG 3, 0x40000000)] fun m => (ticking m).onRun 3 fun r => { r with active := true }, by decide⟩,
   ⟨5, 3, st [(Reg.ACQ_SEQ_TRIG 3, 0x40000000)] ticking, by decide⟩,
   ⟨3, st [(Reg.ACQ_SEQ_TRIG 3, 0x10000001), (Reg.ACQ_SEQ_ENT 3 0,
    0x80000010)] fun m => m.onRun 3 fun r => { r with active := true }, by decide⟩,
   ⟨3, st [], by decide⟩,
   ⟨69, 2, st [(Reg.ACQ_STATUS, 0)] fun m => m.onConv 2 fun y => { y with use := .seq 3 0 5 }, 3, 0, 5, by decide⟩,
   ⟨69, 2, 2048000000, st [(Reg.ACQ_STATUS,
    0x1000)] fun m => m.onConv 2 fun y => { y with use := .urgent ⟨16, 20, some 4, false⟩ 5 }, ⟨16, 20, some 4, false⟩, 5,
    0x8000, 4, by decide⟩,
   ⟨69, 2, st [(Reg.ACQ_STATUS, 0x1004)] fun m => m.onConv 2 fun y => { y with use := .urgent ⟨16, 20, some 4, false⟩ 5 }, ⟨16,
    20, some 4, false⟩, 5, 4, by decide⟩,
   ⟨2, st [] fun m => m.onConv 2 fun y => { y with queue := [⟨16, 20, none, false⟩] }, ⟨16, 20, none, false⟩, [], by decide⟩,
   ⟨2, st [], by decide⟩⟩

theorem test_hypotheses_of_selfCheckCalibrationAndVdda :
    (∃ (c : Fin 12) (s : State) (v : Int), s.m.checkRuns c = true ∧ -48 ≤ v ∧ v ≤ 48) ∧
    (∃ (c : Fin 12) (s : State) (v : Int), s.m.checkRuns c = true ∧ -24 ≤ v ∧ v ≤ 24) ∧
    (∃ (c : Fin 12) (s : State) (v : Int), s.m.checkRuns c = true ∧ 24 < v.natAbs ∧ (s.m.conv c).gndRun = 1 ∧
      c.val < s.m.acq.convs.length ∧ s.m.convFailed c = false) ∧
    (∃ (c : Fin 12) (s : State) (k : Nat), s.m.checkRuns c = true ∧ k < 7) ∧
    (∃ (c : Fin 12) (s : State) (item : Nat), (s.m.checkRuns c = false ∨ 9 < item)) ∧
    (∃ (s : State) (i sum : Nat) (off : Int), s.m.acq.calLeft.contains i = true ∧
      off = roundHalfAway sum 256 - s.m.fld (Reg.ACQ_IN i) 15 0 ∧ off.natAbs ≤ 1311) ∧
    (∃ (s : State) (i sum : Nat) (off : Int), s.m.acq.calLeft.contains i = true ∧
      off = roundHalfAway sum 256 - s.m.fld (Reg.ACQ_IN i) 15 0 ∧ 1311 < off.natAbs) ∧
    (∃ (s : State) (sums : List (Nat × Nat)), (∀ p ∈ sums, s.m.acq.calLeft.contains p.1 = false)) :=
  ⟨⟨2, checked 0, -48, by decide⟩,
   ⟨2, checked 0, -24, by decide⟩,
   ⟨2, checked 1, -25, by decide⟩,
   ⟨2, checked 0, 6, by decide⟩,
   ⟨3, st [], 10, by decide⟩,
   ⟨st [] fun m => m.onAcq fun y => { y with calLeft := [95] }, 95, 256 * 1311, 1311, by decide⟩,
   ⟨st [] fun m => m.onAcq fun y => { y with calLeft := [95] }, 95, 256 * 1312, 1312, by decide⟩,
   ⟨st [], [(95, 3)], by decide⟩⟩

theorem test_hypotheses_of_angleSensorsUpdateTheirChannels :
    (∃ (x : Fin 2) (s : State), s.m.posRuns x 1 = true) ∧
    (∃ (cyc : Nat) (x : Fin 2) (a b : Bool) (s : State), s.m.posRuns x 2 = true ∧ (s.m.chan x).zDue = none ∧
      (s.m.chan x).levelA ≠ a ∧ (s.m.chan x).levelB = b ∧ (∀ w, (s.m.chan x).winCount = some w →
      w.2 + 100 ≤ (s.at cyc).now) ∧ ((s.m.chan x).winCount = none → ∀ w, (s.m.chan x).pastCount = some w →
      w.2 + 100 ≤ (s.at cyc).now)) ∧
    (∃ (cyc : Nat) (x : Fin 2) (a b : Bool) (s : State) (w : Int × Nat), s.m.posRuns x 2 = true ∧ (s.m.chan x).zDue = none ∧
      (s.m.chan x).levelA = a ∧ (s.m.chan x).levelB ≠ b ∧ (s.m.chan x).winCount = some w ∧ (s.at cyc).now < w.2 + 100) ∧
    (∃ (x : Fin 2) (a b : Bool) (s : State), s.m.posRuns x 2 = true ∧ (s.m.chan x).zDue = none ∧ (s.m.chan x).levelA ≠ a ∧
      (s.m.chan x).levelB ≠ b) ∧
    (∃ (x : Fin 2) (s : State), s.m.posRuns x 2 = true ∧ s.m.bit (Reg.POS_CH_FMT x) 14 = true ∧ (s.m.chan x).zDue = none) ∧
    (∃ (cyc z : Nat) (x : Fin 2) (s : State), s.m.posRuns x 2 = true ∧ s.m.bit (Reg.POS_CH_FMT x) 14 = true ∧
      x.val < s.m.pos.chans.length ∧ (s.m.chan x).zDue = some z ∧ z < (s.at cyc).now ∧ (s.m.chan x).zFirst = none) ∧
    (∃ (cyc z : Nat) (x : Fin 2) (s : State) (p : Int), s.m.posRuns x 2 = true ∧ s.m.bit (Reg.POS_CH_FMT x) 14 = true ∧
      x.val < s.m.pos.chans.length ∧ (s.m.chan x).zDue = some z ∧ z < (s.at cyc).now ∧ (s.m.chan x).zFirst = some p) ∧
    (∃ (x : Fin 2) (cal : Nat) (pulses ns : List Nat) (s : State),
      let fmt := s.m.rd (Reg.POS_CH_FMT x)
      let n := fmt.bits 11 9
      let status := ns.headD 0
      let data := (ns.drop 1).take n
      s.m.posRuns x 3 = true ∧ x.val < s.m.pos.chans.length ∧ sentCalOk (fmt.bits 8 0) (s.m.chan x).cal cal = true ∧
      sentNibbles (n + 2) (fmt.bit 18) cal pulses = some ns ∧ ns.getLastD 0 = sentCrc (fmt.bit 17) data ∧
      sentSlow (fmt.bit 17) (((status.testBit 2, status.testBit 3) :: (s.m.chan x).serial).take 18) = none) ∧
    (∃ (x : Fin 2) (cal : Nat) (pulses ns : List Nat) (s : State),
      let fmt := s.m.rd (Reg.POS_CH_FMT x)
      let n := fmt.bits 11 9
      s.m.posRuns x 3 = true ∧ x.val < s.m.pos.chans.length ∧ sentNibbles (n + 2) (fmt.bit 18) cal pulses = some ns ∧
      ns.getLastD 0 ≠ sentCrc (fmt.bit 17) ((ns.drop 1).take n)) ∧
    (∃ (x : Fin 2) (cal : Nat) (pulses ns : List Nat) (w : Word) (s : State),
      let fmt := s.m.rd (Reg.POS_CH_FMT x)
      let n := fmt.bits 11 9
      let status := ns.headD 0
      s.m.posRuns x 3 = true ∧ s.roomy ∧ x.val < s.m.pos.chans.length ∧ sentCalOk (fmt.bits 8 0) (s.m.chan x).cal cal = true ∧
      sentNibbles (n + 2) (fmt.bit 18) cal pulses = some ns ∧ ns.getLastD 0 = sentCrc (fmt.bit 17) ((ns.drop 1).take n) ∧
      fmt.bit 19 = true ∧ sentSlow (fmt.bit 17) (((status.testBit 2,
      status.testBit 3) :: (s.m.chan x).serial).take 18) = some w) ∧
    (∃ (x : Fin 2) (s : State), s.m.posRuns x 4 = true ∧ (s.m.chan x).reading = true ∧ s.m.bit (Reg.POS_CH_FMT x) 6 = false ∧
      s.m.bit (Reg.POS_CH_FMT x) 7 = false) ∧
    (∃ (x : Fin 2) (data : Nat) (s : State), s.m.posRuns x 4 = true ∧ (s.m.chan x).reading = true ∧
      s.m.bit (Reg.POS_CH_FMT x) 7 = true ∧ onesIn (s.m.fld (Reg.POS_CH_FMT x) 5 0 + 1) data % 2 = 1) ∧
    (∃ (cyc : Nat) (x : Fin 2) (s : State) (c : Instr) (ty : Nat), s.m.posRuns x ty = false ∧ ((∃ theta vel sin cos exc,
      ty = 1 ∧ c = .resolverUpdate cyc x theta vel sin cos exc) ∨ (∃ a b, ty = 2 ∧ c = .encoderCount cyc x a b) ∨ (ty = 2 ∧
      c = .zEdge cyc x) ∨ (∃ start cal pulses, ty = 3 ∧ c = .sentFrame cyc x start cal pulses) ∨ (∃ data stuck, ty = 4 ∧
      c = .ssiRead cyc x data stuck))) :=
  ⟨⟨1, st [(Reg.POS_CH_CFG 1, 0x20000000), (Reg.POS_CH_LIM 1, 0x10802010)], by decide⟩,
   ⟨5, 1, true, false, st [(Reg.POS_CH_CFG 1, 0x40000000)], by decide, by decide, by decide, by decide,
    all_of_none (by decide), fun _ => all_of_none (by decide)⟩,
   ⟨5, 1, false, true, st [(Reg.POS_CH_CFG 1, 0x40000000)] fun m => m.onChan 1 fun y => { y with winCount := some (3, 4) }, (3,
    4), by decide⟩,
   ⟨1, true, true, st [(Reg.POS_CH_CFG 1, 0x40000000)], by decide⟩,
   ⟨1, st [(Reg.POS_CH_CFG 1, 0x40000000), (Reg.POS_CH_FMT 1, 0x4010)], by decide⟩,
   ⟨5, 1, 1, st [(Reg.POS_CH_CFG 1, 0x40000000), (Reg.POS_CH_FMT 1,
    0x4010)] fun m => m.onChan 1 fun y => { y with zDue := some 1, c := -3 }, by decide⟩,
   ⟨5, 1, 1, st [(Reg.POS_CH_CFG 1, 0x40000000), (Reg.POS_CH_FMT 1,
    0x4010)] fun m => m.onChan 1 fun y => { y with zDue := some 1, zFirst := some 3 }, 3, by decide⟩,
   ⟨1, sentCal, sentPulses 0, [0, 5, 6, sentCrc false [5, 6]], sentAt [], by decide⟩,
   ⟨1, sentCal, sentPulses 1, [0, 5, 6, (sentCrc false [5, 6] + 1) % 16], sentAt [], by decide⟩,
   ⟨1, sentCal, sentPulses 0, [0, 5, 6, sentCrc false [5, 6]], 0x400001#32, sentAt serial15, by decide⟩,
   ⟨1, st [(Reg.POS_CH_CFG 1, 0x80000000), (Reg.POS_CH_FMT 1, 0xC)] fun m => m.onChan 1 fun y => { y with reading := true },
    by decide⟩,
   ⟨1, 0x1, st [(Reg.POS_CH_CFG 1, 0x80000000), (Reg.POS_CH_FMT 1,
    0x8C)] fun m => m.onChan 1 fun y => { y with reading := true }, by decide⟩,
   ⟨5, 1, st [], .zEdge 5 1, 2, by decide, Or.inr (Or.inr (Or.inl (by decide)))⟩⟩

theorem test_hypotheses_of_hallTripletsAndProbes :
    (∃ (k : Fin 6) (pins : BitVec 3) (s : State) (d : Nat), s.m.mode ≠ .sleep ∧ s.m.hallMap k pins.toNat < 6 ∧ (d = 1 ∨ d = 5) ∧
      s.m.hallMap k pins.toNat = ((s.m.hall k).lastSector + d) % 6 ∧ (s.m.hall k).lastSector < 6) ∧
    (∃ (k : Fin 6) (pins : BitVec 3) (s : State) (d : Nat), s.m.mode ≠ .sleep ∧ s.m.hallMap k pins.toNat < 6 ∧ 2 ≤ d ∧ d ≤ 4 ∧
      s.m.hallMap k pins.toNat = ((s.m.hall k).lastSector + d) % 6 ∧ (s.m.hall k).lastSector < 6) ∧
    (∃ (k : Fin 6) (pins : BitVec 3) (s : State), s.m.mode ≠ .sleep ∧ 6 ≤ s.m.hallMap k pins.toNat) ∧
    (∃ (k : Fin 8) (s : State), 2 ≤ k.val ∧ s.m.mode ≠ .sleep) ∧
    (∃ (cyc : Nat) (k : Fin 8) (s : State), k.val < 2 ∧ s.m.mode ≠ .sleep ∧ s.m.chanType k = 4 ∧
      (s.at cyc).time.cyc = s.m.fld (Reg.POS_CH_CFG k) 15 0) ∧
    (∃ (cyc : Nat) (k : Fin 8) (s : State), k.val < 2 ∧ s.m.mode ≠ .sleep ∧ s.m.chanType k ≠ 0 ∧ s.m.chanType k ≠ 4 ∧
      k.val < s.m.pos.chans.length ∧ (s.at cyc).time.cyc = s.m.fld (Reg.POS_CH_CFG k) 15 0) ∧
    (∃ (cyc : Nat) (k : Fin 8) (s : State), (s.m.mode = .sleep ∨ (k.val < 2 ∧ (s.m.chanType k = 0 ∨
      (s.at cyc).time.cyc ≠ s.m.fld (Reg.POS_CH_CFG k) 15 0)))) ∧
    (∃ (p : Fin 2) (s : State), s.m.mode ≠ .sleep ∧ s.m.bit (Reg.POS_PRB_CFG p) 31 = true ∧
      s.m.fld (Reg.POS_PRB_CFG p) 30 29 = 1 ∧ 4 ≤ nth s.m.pos.prbWaiting p) ∧
    (∃ (p : Fin 2) (s : State), s.m.mode ≠ .sleep ∧ s.m.bit (Reg.POS_PRB_CFG p) 31 = true ∧
      s.m.fld (Reg.POS_PRB_CFG p) 30 29 = 1 ∧ nth s.m.pos.prbWaiting p < 4 ∧ s.roomy ∧
      s.m.bit (Reg.POS_PRB_URG p) 15 = false ∧ s.m.bit (Reg.POS_PRB_URG p) 31 = false) ∧
    (∃ (p : Fin 2) (s : State), s.m.bit (Reg.POS_PRB_CFG p) 31 = false) :=
  ⟨⟨2, 2#3, st [(Reg.POS_HL_CFG 2, 0x5 * 64)] fun m => m.onHall 2 fun h => { h with lastSector := 0 }, 5, by decide⟩,
   ⟨2, 2#3, st [(Reg.POS_HL_CFG 2, 0x5 * 64)] fun m => m.onHall 2 fun h => { h with lastSector := 1 }, 4, by decide⟩,
   ⟨2, 2#3, st [(Reg.POS_HL_CFG 2, 0x6 * 64)], by decide⟩,
   ⟨2, st [] fun m => m.onHall 0 fun h => { h with pins := 7, edges := 300 }, by decide⟩,
   ⟨5, 1, st [(Reg.POS_CH_CFG 1, 0x80000005)], by decide⟩,
   ⟨5, 1, st [(Reg.POS_CH_CFG 1, 0x40000005)] fun m => m.onChan 1 fun y => { y with c := 44 }, by decide⟩,
   ⟨5, 1, st [(Reg.POS_CH_CFG 1, 0x40000006)], by decide⟩,
   ⟨1, st [(Reg.POS_PRB_CFG 1, 0xA0000000)] fun m => m.onPos fun p => { p with prbWaiting := [4, 4] }, by decide⟩,
   ⟨1, st [(Reg.POS_PRB_CFG 1, 0xA0000000)] fun m => m.onPos fun p => { p with prbWaiting := [3, 3] }, by decide⟩,
   ⟨1, st [], by decide⟩⟩

theorem test_hypotheses_of_commandRegistersAndSwapRequests :
    (∃ (l : Lane) (s : State), s.m.inTick l = true ∧ (s.m.tl l).taskOverrun = false) ∧
    (∃ (l : Lane) (s : State), s.m.inTick l = true ∧ (s.m.tl l).taskOverrun = true) ∧
    (∃ (l : Lane) (s : State), s.m.inTick l = false) ∧
    (∃ (w l : Lane), w ≠ l) :=
  ⟨⟨.a, st [(Reg.LAW_SLOT_STAT 0 2, 0x10000000)] (inTickA ∘ pair), by decide⟩,
   ⟨.a, st [] (fun m => (inTickA (pair m)).onTick .a fun t => { t with taskOverrun := true }), by decide⟩,
   ⟨.a, st [] pair, by decide⟩,
   ⟨.b, .a, by decide⟩⟩

theorem test_hypotheses_of_lawPortInjectorAndWindows :
    (∃ (l : Lane) (s : State) (k : Nat), s.m.portSlot l = some k) ∧
    (∃ (l : Lane) (s : State), s.m.portSlot l = none) ∧
    (∃ (w l : Lane), w ≠ l) ∧
    (∃ (l : Lane) (s : State), s.m.injState l = 1 ∧ s.m.freqPassed l (s.m.inj l).freq = true) ∧
    (∃ (l : Lane) (s : State), s.m.injState l = 1 ∧ s.m.freqPassed l (s.m.inj l).freq = false ∧
      s.m.rd (Reg.LAW_INJ_DUR l.ix) ≠ 0#32 ∧
      (s.m.rd (Reg.LAW_INJ_DUR l.ix)).toNat ≤ (s.m.rd (Reg.LAW_INJ_TICKS l.ix)).toNat) ∧
    (∃ (l : Lane) (s : State), s.m.injState l = 2 ∧ s.m.freqPassed l (s.m.inj l).freq = true) ∧
    (∃ (l : Lane) (s : State), (s.m.injState l = 0 ∨ s.m.injState l = 3 ∨ (s.m.freqPassed l (s.m.inj l).freq = false ∧
      (s.m.injState l = 1 → s.m.rd (Reg.LAW_INJ_DUR l.ix) = 0#32 ∨
      (s.m.rd (Reg.LAW_INJ_TICKS l.ix)).toNat < (s.m.rd (Reg.LAW_INJ_DUR l.ix)).toNat)))) ∧
    (∃ (l : Lane) (s : State), s.m.injState l = 2 ∧ (s.m.inj l).rampLeft = 0) ∧
    (∃ (l : Lane) (s : State), (s.m.injState l ≠ 2 ∨ (s.m.inj l).rampLeft ≠ 0)) ∧
    (∃ (l : Lane) (k : Fin 16) (s : State), s.m.fld (Reg.LAW_SLOT_OSC l.ix k) 31 16 ≤ (s.m.lawSlot l k).win) ∧
    (∃ (l : Lane) (k : Fin 16) (s : State), (s.m.lawSlot l k).win < s.m.fld (Reg.LAW_SLOT_OSC l.ix k) 31 16) :=
  ⟨⟨.a, st [(Reg.LAW_SLOT_CFG 0 3, 0x00028001), (Reg.LAW_CW_ADDR 0, 9)] (inTickA ∘ slots [(3, .pump)] ∘ pair), 3, by decide⟩,
   ⟨.a, st [(Reg.LAW_CW_ADDR 0, 0xFFFF)] (inTickA ∘ pair), by decide⟩,
   ⟨.b, .a, by decide⟩,
   ⟨.a, st [(Reg.LAW_INJ_STAT 0, 0x40000000), (Reg.LAW_INJ_CTRL 0, 0x00200007), (Reg.LAW_INJ_F0 0, 1), (Reg.LAW_INJ_F1 0,
    3)] fun m => m.onInj .a fun j => { j with freq := 3 }, by decide⟩,
   ⟨.a, st [(Reg.LAW_INJ_STAT 0, 0x40000000), (Reg.LAW_INJ_CTRL 0, 0x00100007), (Reg.LAW_INJ_DUR 0, 3), (Reg.LAW_INJ_TICKS 0,
    3)] pair, by decide⟩,
   ⟨.a, st [(Reg.LAW_INJ_STAT 0, 0x80000000), (Reg.LAW_INJ_CTRL 0, 0x00200007), (Reg.LAW_INJ_F0 0, 1), (Reg.LAW_INJ_F1 0,
    3)] fun m => m.onInj .a fun j => { j with freq := 5 }, by decide⟩,
   ⟨.a, st [(Reg.LAW_INJ_STAT 0, 0x40000000), (Reg.LAW_INJ_DUR 0, 3), (Reg.LAW_INJ_TICKS 0, 2)], by decide⟩,
   ⟨.a, st [(Reg.LAW_INJ_STAT 0, 0x84400000)] pair, by decide⟩,
   ⟨.a, st [(Reg.LAW_INJ_STAT 0, 0x84400000)] fun m => m.onInj .a fun j => { j with rampLeft := 1 }, by decide⟩,
   ⟨.a, 15, st [(Reg.LAW_SLOT_OSC 0 15, 0x100000)] (fun m => m.onLawSlot .a 15 fun x => { x with win := 16, swings := 3 }),
    by decide⟩,
   ⟨.a, 15, st [(Reg.LAW_SLOT_OSC 0 15, 0x100000)] (fun m => m.onLawSlot .a 15 fun x => { x with win := 15, swings := 300 }),
    by decide⟩⟩

theorem test_hypotheses_of_motorFaultsStopTheirSlot :
    (∃ (l : Lane) (i : Fin 2) (s : State) (k : Nat), s.m.slotOfMotor l i = k ∧ s.m.live l = true ∧ s.roomy ∧
      3 ≤ (s.m.motor l i).i0Count) ∧
    (∃ (l : Lane) (i : Fin 2) (s : State), (s.m.motor l i).i0Count < 3) ∧
    (∃ (l : Lane) (i : Fin 2) (s : State) (k : Nat), s.m.slotOfMotor l i = k ∧ s.m.live l = true ∧ s.roomy ∧
      (s.m.motor l i).polStep = 5 ∧ 2 ≤ (s.m.motor l i).polTries ∧
      ((s.m.motor l i).polNeg - (s.m.motor l i).polPos).natAbs ≤ 8 * s.m.fld (Reg.FOC_M_PD l.ix i) 11 0 * 2 ^ 13) ∧
    (∃ (l : Lane) (i : Fin 2) (s : State) (k code hi lo : Nat), s.m.slotOfMotor l i = k ∧ s.m.live l = true ∧ s.roomy ∧
      (s.m.motor l i).phase = .extrapolating ∧ s.m.lostMax l i ≤ (s.m.motor l i).k ∧ (s.m.motor l i).reacqNow = false ∧
      ((code, hi, lo) = (if (s.m.motor l i).emfhi then (0x1405, 15, 8) else (0x1406, 7, 0)))) ∧
    (∃ (l : Lane) (i : Fin 2) (s : State), ((s.m.motor l i).phase ≠ .extrapolating ∨ (s.m.motor l i).k < s.m.lostMax l i ∨
      (s.m.motor l i).reacqNow = true)) ∧
    (∃ (l : Lane) (i : Fin 2) (s : State) (k : Nat), s.m.slotOfMotor l i = k ∧ s.m.live l = true ∧ s.roomy ∧
      8 ≤ (s.m.motor l i).hcCount) ∧
    (∃ (l : Lane) (i : Fin 2) (s : State), (s.m.motor l i).hcCount < 8) :=
  ⟨⟨.a, 1, motor fun f => { f with i0Count := 3 }, 3, by decide⟩,
   ⟨.a, 1, motor fun f => { f with i0Count := 2 }, by decide⟩,
   ⟨.a, 1, motor fun f => { f with polStep := 5, polTries := 2 }, 3, by decide⟩,
   ⟨.a, 1, motor fun f => { f with phase := .extrapolating, k := 500, emfhi := true }, 3, 0x1405, 15, 8, by decide⟩,
   ⟨.a, 1, motor fun f => { f with phase := .extrapolating, k := 500, reacqNow := true }, by decide⟩,
   ⟨.a, 1, motor fun f => { f with hcCount := 8 }, 3, by decide⟩,
   ⟨.a, 1, motor fun f => { f with hcCount := 7 }, by decide⟩⟩

theorem test_hypotheses_of_motorDecisionsOfATick :
    (∃ (l : Lane) (i : Fin 2) (s : State) (lim : Int), (s.m.motor l i).polStep = 5 ∧
      lim = 8 * s.m.fld (Reg.FOC_M_PD l.ix i) 11 0 * 2 ^ 13 ∧ lim < (s.m.motor l i).polNeg - (s.m.motor l i).polPos) ∧
    (∃ (l : Lane) (i : Fin 2) (s : State) (lim : Int), (s.m.motor l i).polStep = 5 ∧
      lim = 8 * s.m.fld (Reg.FOC_M_PD l.ix i) 11 0 * 2 ^ 13 ∧ lim < (s.m.motor l i).polPos - (s.m.motor l i).polNeg) ∧
    (∃ (l : Lane) (i : Fin 2) (s : State) (lim : Int), (s.m.motor l i).polStep = 5 ∧
      lim = 8 * s.m.fld (Reg.FOC_M_PD l.ix i) 11 0 * 2 ^ 13 ∧
      ((s.m.motor l i).polNeg - (s.m.motor l i).polPos).natAbs ≤ lim ∧ (s.m.motor l i).polTries < 2) ∧
    (∃ (l : Lane) (i : Fin 2) (s : State), (s.m.motor l i).polStep ≠ 5) ∧
    (∃ (l : Lane) (i : Fin 2) (s : State), 16 ≤ (s.m.motor l i).divCount ∧ (s.m.motor l i).div = false) ∧
    (∃ (l : Lane) (i : Fin 2) (s : State), ((s.m.motor l i).divCount < 16 ∨ (s.m.motor l i).div = true)) ∧
    (∃ (l : Lane) (i : Fin 2) (s : State), (s.m.motor l i).declaring = true ∧ (s.m.motor l i).angsrc = 1) ∧
    (∃ (cyc : Nat) (l : Lane) (i : Fin 2) (s : State), (s.m.motor l i).declaring = true ∧ (s.m.motor l i).angsrc ≠ 1 ∧ (∀ t,
      (s.m.motor l i).lastRestart = some t → t + 2000000000 < (s.at cyc).now)) ∧
    (∃ (cyc : Nat) (l : Lane) (i : Fin 2) (s : State) (t0 : Nat), (s.m.motor l i).declaring = true ∧
      (s.m.motor l i).angsrc ≠ 1 ∧ (s.m.motor l i).lastRestart = some t0 ∧ (s.at cyc).now ≤ t0 + 2000000000 ∧
      s.m.live l = true ∧ s.roomy) ∧
    (∃ (l : Lane) (i : Fin 2) (s : State), (s.m.motor l i).declaring = false) ∧
    (∃ (l : Lane) (i : Fin 2) (s : State), (s.m.motor l i).reacqNow = true ∧ ((s.m.motor l i).phase = .extrapolating ∨
      (s.m.motor l i).phase = .onSensor)) ∧
    (∃ (l : Lane) (i : Fin 2) (s : State), ((s.m.motor l i).reacqNow = false ∨ ((s.m.motor l i).phase ≠ .extrapolating ∧
      (s.m.motor l i).phase ≠ .onSensor))) ∧
    (∃ (l : Lane) (i : Fin 2) (s : State), (s.m.motor l i).ascHeld = true ∧ ((s.m.motor l i).emfhi = false ∨
      16 ≤ (s.m.motor l i).scLow)) ∧
    (∃ (l : Lane) (i : Fin 2) (s : State), ((s.m.motor l i).ascHeld = false ∨ ((s.m.motor l i).emfhi = true ∧
      (s.m.motor l i).scLow < 16))) :=
  ⟨⟨.a, 1, motor fun f => { f with polStep := 5, polNeg := 1 }, 0, by decide⟩,
   ⟨.a, 1, motor fun f => { f with polStep := 5, polPos := 1 }, 0, by decide⟩,
   ⟨.a, 1, motor fun f => { f with polStep := 5, polTries := 1 }, 0, by decide⟩,
   ⟨.a, 1, motor fun f => { f with polStep := 4 }, by decide⟩,
   ⟨.a, 1, motor fun f => { f with divCount := 16 }, by decide⟩,
   ⟨.a, 1, motor fun f => { f with divCount := 16, div := true }, by decide⟩,
   ⟨.a, 1, motor fun f => { f with lossCount := 3, angsrc := 1 }, by decide⟩,
   ⟨5, .a, 1, motor fun f => { f with lossCount := 3, angsrc := 2 }, by decide⟩,
   ⟨5, .a, 1, motor fun f => { f with lossCount := 3, angsrc := 2, lastRestart := some 3 }, 3, by decide⟩,
   ⟨.a, 1, motor fun f => { f with lossCount := 2 }, by decide⟩,
   ⟨.a, 1, motor fun f => { f with reacqNow := true, phase := .extrapolating }, by decide⟩,
   ⟨.a, 1, motor fun f => { f with reacqNow := true }, by decide⟩,
   ⟨.a, 1, motor fun f => { f with ascHeld := true, emfhi := true, scLow := 16 }, by decide⟩,
   ⟨.a, 1, motor fun f => { f with ascHeld := true, emfhi := true, scLow := 15 }, by decide⟩⟩

set_option maxRecDepth 100000 in
theorem test_hypotheses_of_flyingStartsAndStopsDecide :
    (∃ (cyc : Nat) (l : Lane) (k : Fin 16) (s : State) (i : Nat) (w : Int) (still odd : Prop),
      FlyingSense cyc l k s i w still odd ∧ still) ∧
    (∃ (cyc : Nat) (l : Lane) (k : Fin 16) (s : State) (i : Nat) (w : Int) (still odd : Prop),
      FlyingSense cyc l k s i w still odd ∧ ¬still ∧ odd ∧ (s.m.modSlot l k).repeated = false) ∧
    (∃ (cyc : Nat) (l : Lane) (k : Fin 16) (s : State) (i : Nat) (w : Int) (still odd : Prop),
      FlyingSense cyc l k s i w still odd ∧ ¬still ∧ odd ∧ (s.m.modSlot l k).repeated = true ∧ s.m.live l = true ∧ s.roomy) ∧
    (∃ (cyc : Nat) (l : Lane) (k : Fin 16) (s : State) (i : Nat) (w : Int) (still odd : Prop) (th : Nat),
      FlyingSense cyc l k s i w still odd ∧ ¬still ∧ ¬odd ∧
      th = u32 ((s.m.modSlot l k).phiprev - sgnI w * 2 ^ 30 + (asr (w * s.m.rdS (Reg.FOC_M_KW l.ix i)) 29 * (8 * (s.m.fld (Reg.FOC_M_CFG l.ix i) 15 0 : Int) - 3 * (s.m.period : Int))) / (8 * (s.m.period : Int)))) ∧
    (∃ (l : Lane) (k : Fin 16) (s : State), (s.m.motorOf l k = none ∨ s.m.modState l k ≠ 1 ∨ (s.m.modSlot l k).decide = false)) ∧
    (∃ (l : Lane) (k : Fin 16) (s : State), s.m.modState l k = 5 ∧
      ((if (s.m.modSlot l k).stopt = 0 then 16 else 4) ≤ (s.m.modSlot l k).stopRun)) ∧
    (∃ (l : Lane) (k : Fin 16) (s : State), (s.m.modState l k ≠ 5 ∨
      (s.m.modSlot l k).stopRun < (if (s.m.modSlot l k).stopt = 0 then 16 else 4))) :=
  ⟨⟨5, .a, 3, flying [(Reg.MOD_FLY 0 3, 0x10)] fun x => { x with decide := true, n := 2, phi := 3 }, 1, 0x60000, True, False,
    by decide⟩,
   ⟨5, .a, 3, flying [] fun x => { x with decide := true, n := 2, phi := 3, ea := 1000 }, 1, 0x60000, False, True, by decide⟩,
   ⟨5, .a, 3, flying [] fun x => { x with decide := true, n := 2, phi := 3, ea := 1000, repeated := true }, 1, 0x60000, False,
    True, by decide⟩,
   ⟨5, .a, 3, flying [] fun x => { x with decide := true, n := 2, phi := 3 }, 1, 0x60000, False, False, u32 (-(2 ^ 30) - 2),
    by decide⟩,
   ⟨.a, 3, st [], by decide⟩,
   ⟨.a, 3, st [(Reg.MOD_STAT 0 3, 0x50000000)] fun m => m.onMod .a 3 fun x => { x with stopRun := 16 }, by decide⟩,
   ⟨.a, 3, st [(Reg.MOD_STAT 0 3, 0x50000000)] fun m => m.onMod .a 3 fun x => { x with stopRun := 15 }, by decide⟩⟩

theorem test_hypotheses_of_shortCircuitsLatchAndAreClassified :
    (∃ (cyc : Nat) (ch : Fin 32) (mv ns : Nat) (hard : Bool) (s : State) (k p : Nat), p = ch.val / 2 ∧
      s.m.slotOfPair p = some k ∧ (s.at cyc).scLevel ch mv ns = some hard ∧
      ((if ch.val % 2 = 1 then (s.m.pair p).latchL else (s.m.pair p).latchH) = false)) ∧
    (∃ (cyc : Nat) (ch : Fin 32) (mv ns : Nat) (s : State), (s.m.slotOfPair (ch.val / 2) = none ∨
      (s.at cyc).scLevel ch mv ns = none ∨
      (if ch.val % 2 = 1 then (s.m.pair (ch.val / 2)).latchL else (s.m.pair (ch.val / 2)).latchH) = true)) ∧
    (∃ (cyc : Nat) (k : Fin 16) (s : State) (d : Detection), s.m.gate.detections.filter (·.slot == k.val) = [d] ∧
      d.at_ + 50 ≤ (s.at cyc).now ∧ s.roomy) ∧
    (∃ (cyc : Nat) (k : Fin 16) (s : State) (d : Detection) (mine : List Detection) (ps : List Nat),
      mine = s.m.gate.detections.filter (·.slot == k.val) ∧ mine.head? = some d ∧ d.at_ + 50 ≤ (s.at cyc).now ∧ (∀ x ∈ mine,
      x.at_ ≤ d.at_ + 50) ∧ ps = (mine.map (·.pair)).dedup ∧ 2 ≤ ps.length ∧ s.roomy) ∧
    (∃ (cyc : Nat) (k : Fin 16) (s : State) (d e : Detection), s.m.gate.detections.filter (·.slot == k.val) = [d, e] ∧
      d.at_ + 50 ≤ (s.at cyc).now ∧ d.at_ + 50 < e.at_ ∧ s.roomy) ∧
    (∃ (cyc : Nat) (k : Fin 16) (s : State), (∀ d, (s.m.gate.detections.filter (·.slot == k.val)).head? = some d →
      (s.at cyc).now < d.at_ + 50)) :=
  ⟨⟨5, 11, 1, 20, true, st gates, 3, 5, by decide⟩,
   ⟨5, 11, 0, 0, st gates, by decide⟩,
   ⟨50, 3, st gates fun m => m.onGate fun g => { g with detections := [⟨3, 5, 11, true, 0, 0⟩] }, ⟨3, 5, 11, true, 0, 0⟩,
    by decide⟩,
   ⟨50, 3, st gates fun m => m.onGate fun g => { g with detections := [⟨3, 5, 11, true, 0, 0⟩, ⟨3, 6, 12, true, 50, 10⟩] }, ⟨3,
    5, 11, true, 0, 0⟩, [⟨3, 5, 11, true, 0, 0⟩, ⟨3, 6, 12, true, 50, 10⟩], [5, 6], by decide⟩,
   ⟨50, 3, st gates fun m => m.onGate fun g => { g with detections := [⟨3, 5, 11, true, 0, 0⟩, ⟨3, 6, 12, true, 51, 10⟩] }, ⟨3,
    5, 11, true, 0, 0⟩, ⟨3, 6, 12, true, 51, 10⟩, by decide⟩,
   ⟨5, 3, st gates fun m => m.onGate fun g => { g with detections := [⟨3, 5, 11, true, 0, 0⟩] }, by decide⟩⟩

theorem test_hypotheses_of_clearsAndTheLinkClamp :
    (∃ (l : Lane) (v : Word) (q : BitVec 16) (s : State), s.alone l ∧ (∀ p : Fin 16, v.bit p = true → q.getLsbD p = true ∧
      s.m.bit Reg.GDI_FAULT (16 + p) = false ∧ ∃ k f, s.m.slotOfPair p = some k ∧ s.m.lastAccepted k = some f ∧
      f.safe = true)) ∧
    (∃ (l : Lane) (q : BitVec 16) (s : State) (p : Fin 16) (k : Nat), s.alone l ∧ s.m.slotOfPair p = some k ∧
      s.m.bit Reg.GDI_FAULT (16 + p) = false ∧ ((∀ f, s.m.lastAccepted k = some f → f.safe = false) ∨ q.getLsbD p = false)) ∧
    (∃ (l : Lane) (s : State) (p : Fin 16), s.alone l ∧ (s.m.bit Reg.GDI_FAULT (16 + p) = true ∨ s.m.slotOfPair p = none)) ∧
    (∃ (l : Lane) (v : Word) (q : BitVec 24) (s : State), s.alone l ∧ (∀ j : Fin 24, v.bit j = true → q.getLsbD j = true ∧
      ∃ k f, s.m.slotOfLeg j = some k ∧ s.m.lastAccepted k = some f ∧ f.safe = true)) ∧
    (∃ (l : Lane) (q : BitVec 24) (s : State) (j : Fin 24), s.alone l ∧ (q.getLsbD j = false ∨ (∀ k f,
      s.m.slotOfLeg j = some k → s.m.lastAccepted k = some f → f.safe = false))) ∧
    (∃ (s : State) (p : Fin 16) (k : Nat), s.m.slotOfPair p = some k ∧ s.m.isType k .chopper = true ∧
      (s.m.pair p).latchH = false ∧ (s.m.pair p).latchL = false ∧ s.m.mode ≠ .sleep ∧ s.m.bit Reg.GDI_OVSTAT 0 = false ∧
      s.m.pwr.booted = true ∧ s.m.pwr.phase = .up ∧ s.m.pwr.due = none) ∧
    (∃ (s : State), (s.m.bit Reg.GDI_OVSTAT 0 = true ∨ s.m.mode = .sleep ∨ s.m.clampPairs = [] ∨ s.m.pwr.booted = false ∨
      s.m.pwr.phase ≠ .up ∨ s.m.pwr.due ≠ none)) ∧
    (∃ (s : State) (ks : List Nat), ks = s.m.slotsOf .pfc3 ++ s.m.slotsOf .dab ∧ s.roomy) :=
  ⟨⟨.a, 0x20#32, 0x20#16,
    st gates (fun m => (accepted 3 (fun _ => { (default : Frame) with safe := true }) (solo m)).onPair 5 fun x => { x with latchL := true }),
    by decide, fun p hp => by
      obtain rfl := (by decide : ∀ p : Fin 16, Word.bit 0x20#32 p = true →
    p = 5) p hp
      exact ⟨by decide, by decide, 3, { (default : Frame) with safe := true }, by decide⟩⟩,
   ⟨.a, 0#16, st gates (accepted 3 (fun _ => { (default : Frame) with safe := true }) ∘ solo), 5, 3, by decide, by decide,
    by decide, Or.inr (by decide)⟩,
   ⟨.a, st [(Reg.GDI_FAULT, 0x200000)] solo, 5, by decide⟩,
   ⟨.a, 0x80#32, 0x80#24,
    st gates (fun m => (accepted 3 (fun _ => { (default : Frame) with safe := true }) (solo m)).onLeg 7 fun x => { x with latch := true }),
    by decide, fun j hj => by
      obtain rfl := (by decide : ∀ j : Fin 24, Word.bit 0x80#32 j = true →
    j = 7) j hj
      exact ⟨by decide, 3, { (default : Frame) with safe := true }, by decide⟩⟩,
   ⟨.a, 0#24, st gates (accepted 3 (fun _ => { (default : Frame) with safe := true }) ∘ solo), 7, by decide,
    Or.inl (by decide)⟩,
   ⟨running gates (slots [(3, .chopper)]), 5, 3, by decide⟩,
   ⟨st [] fun m => m.onGate fun g => { g with voffAt := some 3 }, by decide⟩,
   ⟨st gates (slots [(3, .dab)]), [3], by decide⟩⟩

theorem test_hypotheses_of_gateFaultsAndLegSupplies :
    (∃ (p : Fin 16) (s : State) (k : Nat), s.m.slotOfPair p = some k ∧ s.roomy) ∧
    (∃ (ch : Fin 32) (s : State) (k : Nat), s.m.slotOfPair (ch / 2) = some k ∧ s.roomy) ∧
    (∃ (ch : Fin 32) (s : State), s.m.slotOfPair (ch / 2) = none) ∧
    (∃ (ch : Fin 32) (s : State), ((if ch.val % 2 = 0 then (s.m.pair (ch / 2)).uvH else (s.m.pair (ch / 2)).uvL) = true)) ∧
    (∃ (ch : Fin 32) (s : State), ((if ch.val % 2 = 0 then (s.m.pair (ch / 2)).uvH else (s.m.pair (ch / 2)).uvL) = false)) ∧
    (∃ (j : Fin 24) (s : State) (k d : Nat), driveOf j = some d ∧ s.m.slotOfLeg j = some k ∧ s.roomy) ∧
    (∃ (j : Fin 24) (s : State) (k : Nat), driveOf j = none ∧ s.m.slotOfLeg j = some k ∧ (s.m.lvc.state < 2 ∨
      s.m.lvc.state = 7 ∨ (∃ i < 6, i ≠ j.val ∧ phaseFree s.m i = true))) ∧
    (∃ (j : Fin 24) (s : State) (k : Nat), driveOf j = none ∧ s.m.slotOfLeg j = some k ∧ j.val < s.m.gate.legs.length ∧
      2 ≤ s.m.lvc.state ∧ s.m.lvc.state ≠ 7 ∧ (∀ i < 6, i ≠ j.val → phaseFree s.m i = false) ∧ s.m.lvc.queue.length < 4 ∧
      s.roomy) ∧
    (∃ (j : Fin 24) (s : State), s.m.slotOfLeg j = none) ∧
    (∃ (cyc : Nat) (j : Fin 24) (s : State) (k d mv : Nat), driveOf j = some d ∧ s.m.slotOfLeg j = some k ∧ s.roomy ∧
      s.m.fld (Reg.GDL_LEG_CFG j) 22 16 ≠ 0 ∧ 20 * s.m.fld (Reg.GDL_LEG_CFG j) 22 16 < mv ∧ (s.at cyc).vdsWatched j = true) ∧
    (∃ (cyc : Nat) (j : Fin 24) (s : State) (mv : Nat), (driveOf j = none ∨ s.m.slotOfLeg j = none ∨
      s.m.fld (Reg.GDL_LEG_CFG j) 22 16 = 0 ∨ mv ≤ 20 * s.m.fld (Reg.GDL_LEG_CFG j) 22 16 ∨
      (s.at cyc).vdsWatched j = false)) ∧
    (∃ (j : Fin 24) (s : State) (k : Nat), s.m.slotOfLeg j = some k ∧ s.m.fld (Reg.GDL_LEG_CFG j) 26 25 ≠ 1 ∧
      (s.m.leg j).pumpBad = false) ∧
    (∃ (j : Fin 24) (s : State), (s.m.slotOfLeg j = none ∨ s.m.fld (Reg.GDL_LEG_CFG j) 26 25 = 1 ∨ (s.m.leg j).pumpBad = true)) ∧
    (∃ (j : Fin 24) (s : State), (s.m.slotOfLeg j = none ∨ s.m.fld (Reg.GDL_LEG_CFG j) 26 25 = 1)) ∧
    (∃ (cyc : Nat) (j : Fin 24) (s : State) (k : Nat), s.m.slotOfLeg j = some k ∧ RefreshDue (s.at cyc) j k) ∧
    (∃ (cyc : Nat) (j : Fin 24) (s : State), (∀ k, s.m.slotOfLeg j = some k → ¬RefreshDue (s.at cyc) j k)) ∧
    (∃ (s : State), s.m.gate.lvLow = false) ∧
    (∃ (s : State), s.m.gate.lvLow = true) :=
  ⟨⟨5, st gates, 3, by decide⟩,
   ⟨11, st gates, 3, by decide⟩,
   ⟨31, st gates, by decide⟩,
   ⟨10, st [(Reg.GDI_PR_STAT 5, 0x1000)] fun m => m.onPair 5 fun x => { x with uvH := true }, by decide⟩,
   ⟨10, st [], by decide⟩,
   ⟨7, st gates, 3, 0, by decide⟩,
   ⟨2, st [(Reg.GDL_LEG_CFG 2, 0x38000000)], 3, by decide⟩,
   ⟨2, st [(Reg.GDL_LEG_CFG 2, 0x38000000)] fun m => m.onLvc fun x => { x with state := 3, trip := 0x3B }, 3, by decide⟩,
   ⟨23, st gates, by decide⟩,
   ⟨5, 7,
    st gates fun m => ((ticking m).onGate fun g => { g with enabled := 8 }).onLeg 7 fun x => { x with mode := 3, out := { x.out with h := true } },
    3, 0, 61, by decide⟩,
   ⟨5, 7,
    st gates fun m => ((ticking m).onGate fun g => { g with enabled := 8 }).onLeg 7 fun x => { x with mode := 3, out := { x.out with h := true } },
    60, by decide⟩,
   ⟨7, st gates, 3, by decide⟩,
   ⟨7, st gates fun m => m.onLeg 7 fun x => { x with pumpBad := true }, by decide⟩,
   ⟨23, st [], by decide⟩,
   ⟨4000, 7, st ((Reg.GDL_LEG_STAT 7, 0x40000000) :: gates) fun m => (slots [(3,
    .bldc)] (ticking m)).onLeg 7 fun x => { x with mode := 0, refreshDue := true }, 3, by decide⟩,
   ⟨5, 5, st gates, all_of_none (by decide)⟩,
   ⟨st gates, by decide⟩,
   ⟨st gates fun m => m.onGate fun g => { g with lvLow := true }, by decide⟩⟩

theorem test_hypotheses_of_gateEdgesAndDiagnosticResults :
    (∃ (cyc : Nat) (j : Fin 24) (s : State) (k : Nat) (e : GateEdge) (es : List GateEdge),
      let g := (s.m.leg j).out.upTo (32 * (s.at cyc).time.cyc - 1)
      s.m.slotOfLeg j = some k ∧ g.edges = e :: es ∧ e.at_ ≤ endOf (s.at cyc).time.cyc) ∧
    (∃ (cyc : Nat) (p : Fin 16) (s : State) (k : Nat) (e : GateEdge) (es : List GateEdge),
      let g := (s.m.pair p).out.upTo (32 * (s.at cyc).time.cyc - 1)
      s.m.slotOfPair p = some k ∧ s.m.bit (Reg.GDI_PR_CFG p) 23 = false ∧ g.edges = e :: es ∧ e.at_ ≤ endOf (s.at cyc).time.cyc) ∧
    (∃ (was : Bool × Bool) (e n : GateEdge) (ext : Nat) (r : List GateEdge), ((was.1 = true ∧ e.h = false) ∨ (was.2 = true ∧
      e.l = false)) ∧ ((n.h = true ∧ e.h = false) ∨ (n.l = true ∧ e.l = false)) ∧ 0 < ext ∧ (∀ y ∈ r,
      n.at_ + 32 * ext < y.at_)) ∧
    (∃ (cyc : Nat) (p : Fin 16) (s : State) (k : Nat) (e : GateEdge) (es : List GateEdge) (b c : Bool × Bool),
      let g := (s.m.pair p).out.upTo (32 * (s.at cyc).time.cyc - 1)
      s.m.slotOfPair p = some k ∧ s.m.bit (Reg.GDI_PR_CFG p) 23 = true ∧ g.edges = e :: es ∧ e.at_ ≤ endOf (s.at cyc).time.cyc ∧
      b = (s.at cyc).pairGates p (g.h, g.l) ∧ c = (s.at cyc).pairGates p (e.h, e.l) ∧ b.1 ≠ c.1 ∧ b.2 = c.2) ∧
    (∃ (cyc : Nat) (iso : Bool) (i : Fin 24) (ext : Nat) (s : State), (if iso then s.m.slotOfPair i = none ∨
      (s.at cyc).edgeNow (s.m.pair i).out ext = none else s.m.slotOfLeg i = none ∨
      (s.at cyc).edgeNow (s.m.leg i).out ext = none)) ∧
    (∃ (p : Fin 16) (s : State), (s.m.pair p).running = true ∧ s.roomy) ∧
    (∃ (j : Fin 24) (s : State), (s.m.leg j).running = true ∧ s.roomy) ∧
    (∃ (gdl : Bool) (i : Nat) (s : State), ((if gdl then (s.m.leg i).running else (s.m.pair i).running) = false)) :=
  ⟨⟨5, 7, st gates fun m => m.onLeg 7 fun x => { x with out := { x.out with edges := [⟨160, true, false⟩] } }, 3, ⟨160, true,
    false⟩, [], by decide⟩,
   ⟨5, 5,
    st gates fun m => ((ticking m).onGate fun g => { g with enabled := 8 }).onPair 5 fun x => { x with out := { x.out with l := true, edges := [⟨160, false, false⟩, ⟨320, true, false⟩] } },
    3, ⟨160, false, false⟩, [⟨320, true, false⟩], by decide⟩,
   ⟨(false, true), ⟨160, false, false⟩, ⟨320, true, false⟩, 2, [⟨900, false, false⟩], by decide⟩,
   ⟨5, 5, st [(Reg.GDI_PR_CFG 5, 0x34800000), (Reg.GDI_PR_STAT 5,
    0x77777000)] fun m => ((ticking m).onGate fun g => { g with enabled := 8 }).onPair 5 fun x => { x with out := { x.out with h := true, edges := [⟨160, false, false⟩] } },
    3, ⟨160, false, false⟩, [], (true, false), (false, false), by decide⟩,
   ⟨5, true, 5, 0, st gates, by decide⟩,
   ⟨5, st gates fun m => m.onPair 5 fun x => { x with running := true }, by decide⟩,
   ⟨7, st gates fun m => m.onLeg 7 fun x => { x with running := true }, by decide⟩,
   ⟨true, 7, st gates, by decide⟩⟩

theorem test_hypotheses_of_lvcTripsAndAdvances :
    (∃ (k : Fin 6) (s : State), s.m.lvcPresent = true ∧ s.m.lvc.trip.testBit k = false ∧ s.m.lvc.queue.length < 4 ∧
      (s.m.lvc.state < 2 ∨ s.m.lvc.state = 7 ∨ ((∃ i < 6, i ≠ k.val ∧ phaseFree s.m i = true) ∧ (s.m.lvc.trips < 2 ∨
      buckSwitches s.m.lvc.state = false)))) ∧
    (∃ (k : Fin 6) (s : State), s.m.lvcPresent = true ∧ s.m.lvc.trip.testBit k = false ∧ s.m.lvc.queue.length < 4 ∧ (∃ i < 6,
      i ≠ k.val ∧ phaseFree s.m i = true) ∧ buckSwitches s.m.lvc.state = true ∧ 2 ≤ s.m.lvc.trips) ∧
    (∃ (k : Fin 6) (s : State), s.m.lvcPresent = true ∧ s.m.lvc.trip.testBit k = false ∧ s.m.lvc.queue.length < 3 ∧ (∀ i < 6,
      i ≠ k.val → phaseFree s.m i = false) ∧ 2 ≤ s.m.lvc.state ∧ s.m.lvc.state ≠ 7 ∧ s.roomy) ∧
    (∃ (k : Fin 6) (s : State), (s.m.lvcPresent = false ∨ s.m.lvc.trip.testBit k = true)) ∧
    (∃ (s : State), s.m.lvcPresent = true ∧ s.m.lvc.state ≠ 7 ∧ s.roomy ∧ s.m.lvc.queue.length < 4) ∧
    (∃ (s : State), (s.m.lvcPresent = false ∨ s.m.lvc.state = 7)) ∧
    (∃ (s : State), ((s.m.lvc.state = 2 ∧ s.m.lvc.ticks = 2 * s.m.fld Reg.LVC_SS 31 16 ∧ 5 * s.m.lvc.s1 < one29) ∨
      ((s.m.lvc.state = 3 ∨ s.m.lvc.state = 4) ∧ 2 * s.m.fld Reg.LVC_SS 31 16 ≤ s.m.lvc.shortRun)) ∧
      s.m.lvc.queue.length < 4 ∧ s.m.lvc.retry < 5) ∧
    (∃ (s : State), ((s.m.lvc.state = 2 ∧ s.m.lvc.ticks = 2 * s.m.fld Reg.LVC_SS 31 16 ∧ 5 * s.m.lvc.s1 < one29) ∨
      ((s.m.lvc.state = 3 ∨ s.m.lvc.state = 4) ∧ 2 * s.m.fld Reg.LVC_SS 31 16 ≤ s.m.lvc.shortRun)) ∧
      s.m.lvc.queue.length < 4 ∧ 5 ≤ s.m.lvc.retry ∧ s.roomy) ∧
    (∃ (s : State), ¬(s.m.lvc.state = 2 ∧ s.m.lvc.ticks = 2 * s.m.fld Reg.LVC_SS 31 16 ∧ 5 * s.m.lvc.s1 < one29) ∧
      (¬((s.m.lvc.state = 3 ∨ s.m.lvc.state = 4) ∧ 2 * s.m.fld Reg.LVC_SS 31 16 ≤ s.m.lvc.shortRun))) ∧
    (∃ (s : State), s.m.lvc.state = 1 ∧ s.m.fld Reg.LVC_SS 11 0 ≤ s.m.lvc.ticks ∧ s.roomy ∧ s.m.lvc.queue.length < 4) ∧
    (∃ (s : State), (s.m.lvc.state ≠ 1 ∨ s.m.lvc.ticks < s.m.fld Reg.LVC_SS 11 0)) ∧
    (∃ (s : State), s.m.lvc.state = 6 ∧ s.m.hiccupTicks ≤ s.m.lvc.ticks) ∧
    (∃ (s : State), (s.m.lvc.state ≠ 6 ∨ s.m.lvc.ticks < s.m.hiccupTicks)) ∧
    (∃ (s : State), (s.m.lvc.state = 3 ∨ s.m.lvc.state = 4) ∧ (400000000 + s.m.period - 1) / s.m.period ≤ s.m.lvc.goodRun) ∧
    (∃ (s : State), ((s.m.lvc.state ≠ 3 ∧ s.m.lvc.state ≠ 4) ∨ s.m.lvc.goodRun < (400000000 + s.m.period - 1) / s.m.period)) ∧
    (∃ (s : State) (k : Nat), s.m.lvc.state = 3 ∧ s.m.fld Reg.LVC_SHED 15 8 ≤ s.m.lvc.dwell ∧ 0 < s.m.lvc.dwell ∧
      s.m.lvc.rampPh = 7 ∧ s.m.fld Reg.LVC_SHED 2 0 < countBits s.m.lvc.mask ∧ (bitsOf 6 s.m.lvc.mask).getLast? = some k) ∧
    (∃ (s : State), (s.m.lvc.state ≠ 3 ∨ s.m.lvc.dwell < s.m.fld Reg.LVC_SHED 15 8 ∨ s.m.lvc.dwell = 0 ∨ s.m.lvc.rampPh ≠ 7 ∨
      countBits s.m.lvc.mask ≤ s.m.fld Reg.LVC_SHED 2 0 ∨ bitsOf 6 s.m.lvc.mask = [])) ∧
    (∃ (s : State), s.m.bit Reg.LVC_CFG 6 = true ∧ s.m.lvc.state = 3 ∧ countBits s.m.lvc.mask = 1 ∧ s.m.lvc.rampPh = 7 ∧
      64 ≤ s.m.lvc.burstRun) ∧
    (∃ (s : State), (s.m.bit Reg.LVC_CFG 6 = false ∨ s.m.lvc.state ≠ 3 ∨ countBits s.m.lvc.mask ≠ 1 ∨ s.m.lvc.rampPh ≠ 7 ∨
      s.m.lvc.burstRun < 64)) ∧
    (∃ (k : Fin 6) (s : State), s.m.lvc.diagRun.testBit k = true ∧ s.roomy) ∧
    (∃ (k : Fin 6) (s : State), s.m.lvc.diagRun.testBit k = false) :=
  ⟨⟨2, conv fun x => { x with state := 3, mask := 7 }, by decide⟩,
   ⟨2, conv fun x => { x with state := 3, mask := 7, trips := 2 }, by decide⟩,
   ⟨2, conv fun x => { x with state := 3, mask := 7, trip := 0x3B }, by decide⟩,
   ⟨2, conv fun x => { x with trip := 4 }, by decide⟩,
   ⟨conv fun x => { x with state := 3, mask := 7 }, by decide⟩,
   ⟨conv fun x => { x with state := 7 }, by decide⟩,
   ⟨conv fun x => { x with state := 3, shortRun := 100, retry := 4, mask := 7 }, by decide⟩,
   ⟨conv fun x => { x with state := 3, shortRun := 100, retry := 5 }, by decide⟩,
   ⟨conv fun x => { x with state := 3, shortRun := 1 }, by decide⟩,
   ⟨conv fun x => { x with state := 1, ticks := 16 }, by decide⟩,
   ⟨conv fun x => { x with state := 1, ticks := 15 }, by decide⟩,
   ⟨conv fun x => { x with state := 6, ticks := 100000, trip := 3 }, by decide⟩,
   ⟨conv fun x => { x with state := 6, ticks := 1 }, by decide⟩,
   ⟨conv fun x => { x with state := 3, goodRun := 50000, retry := 3 }, by decide⟩,
   ⟨conv fun x => { x with state := 3, goodRun := 49999, retry := 3 }, by decide⟩,
   ⟨conv fun x => { x with state := 3, dwell := 100000, rampPh := 7, mask := 7 }, 2, by decide⟩,
   ⟨conv fun x => { x with state := 3, dwell := 0, rampPh := 7, mask := 7 }, by decide⟩,
   ⟨conv fun x => { x with state := 3, burstRun := 64, rampPh := 7, mask := 4 }, by decide⟩,
   ⟨conv fun x => { x with state := 3, burstRun := 63, rampPh := 7, mask := 4 }, by decide⟩,
   ⟨2, conv fun x => { x with diagRun := 4 }, by decide⟩,
   ⟨2, conv fun x => { x with diagRun := 3 }, by decide⟩⟩

theorem test_hypotheses_of_lvcRecordsGoToFlash :
    (∃ (s : State) (r : List Nat) (rest : List (List Nat)) (a c : Nat), Memory.wf s.mem = true ∧ s.m.lvc.queue = r :: rest ∧
      s.m.lvc.slot < 64 ∧ r.length = 52 ∧ c = lvcArea + 0x1000 * s.m.lvc.sector ∧ a = c + 64 * s.m.lvc.slot) ∧
    (∃ (s : State), s.m.lvc.queue = []) :=
  ⟨⟨conv fun x => { x with queue := [List.replicate 52 3], slot := 63, sector := 1 }, List.replicate 52 3, [],
    lvcArea + 0x1000 + 64 * 63, lvcArea + 0x1000, by decide⟩,
   ⟨conv id, by decide⟩⟩

theorem test_hypotheses_of_asynchronousWritesWaitAndTakeEffect :
    (∃ (l : Lane) (s : State), s.alone l ∧ s.roomy) ∧
    (∃ (l : Lane) (s : State), s.alone l ∧ s.roomy ∧ hasUnit s.m.variant 3 = true) ∧
    (∃ (l : Lane) (s : State), s.m.pairedLive = true ∧ s.m.inTick l = true ∧ hasUnit s.m.variant 3 = true) ∧
    (∃ (l : Lane) (s : State), s.m.pairedLive = true ∧ s.m.inTick l = false ∧ s.m.active = l ∧ s.roomy ∧
      hasUnit s.m.variant 3 = true) ∧
    (∃ (l : Lane) (s : State), s.m.pairedLive = true ∧ s.m.inTick l = false ∧ s.m.active ≠ l ∧ hasUnit s.m.variant 3 = true) ∧
    (∃ (s : State), hasUnit s.m.variant 3 = false) ∧
    (∃ (v : Word), v.bit 2 = false) ∧
    (∃ (s : State), hasUnit s.m.variant 3 = true ∧ s.roomy) ∧
    (∃ (s : State) (e : JEntry), s.m.tick.running = true ∧ s.m.lane.waiting = [e] ∧ e.kind = 1 ∧ e.accTick ≤ s.m.seq ∧
      e.addr = physical Reg.LVC_CTRL % 2 ^ 32) ∧
    (∃ (s : State) (e : JEntry), s.m.tick.running = true ∧ s.m.lane.waiting = [e] ∧ e.kind = 1 ∧ e.accTick ≤ s.m.seq ∧
      e.addr = physical Reg.CHG_TIMER % 2 ^ 32 ∧ hasUnit s.m.variant 3 = true ∧ 60 ≤ e.value ∧ e.value ≤ 86400) ∧
    (∃ (s : State) (e : JEntry), s.m.tick.running = true ∧ s.m.lane.waiting = [e] ∧ e.kind = 1 ∧ e.accTick ≤ s.m.seq ∧
      e.addr = physical Reg.CHG_TIMER % 2 ^ 32 ∧ hasUnit s.m.variant 3 = true ∧ (e.value < 60 ∨ (86400 < e.value ∧
      e.value < 2 ^ 32))) :=
  ⟨⟨.a, st [] solo, by decide⟩,
   ⟨.a, st [] solo, by decide⟩,
   ⟨.a, st [] (inTickA ∘ pair), by decide⟩,
   ⟨.a, st [] pair, by decide⟩,
   ⟨.b, st [] pair, by decide⟩,
   ⟨{ State.reset with m := Mach.initial .px930 }, by decide⟩,
   ⟨3#32, by decide⟩,
   ⟨st [] pair, by decide⟩,
   ⟨(fun s => { s with m := s.m.onLvc fun x => { x with state := 7 } }) (st [] (waitingFor 1 (physical Reg.LVC_CTRL) 3)),
    entry 1 (physical Reg.LVC_CTRL) 3, by decide⟩,
   ⟨st [] (waitingFor 1 (physical Reg.CHG_TIMER) 60), entry 1 (physical Reg.CHG_TIMER) 60, by decide⟩,
   ⟨st [] (waitingFor 1 (physical Reg.CHG_TIMER) 59), entry 1 (physical Reg.CHG_TIMER) 59, by decide⟩⟩

theorem test_hypotheses_of_chargePilotProximityAndPermit :
    (∃ (high low : Int) (freq c n : Nat) (s : State), hasUnit s.m.variant 3 = true ∧ s.m.mode ≠ .sleep ∧ (c = (if 9800 ≤ freq ∧
      freq ≤ 10200 ∧ -13000 ≤ low ∧ low ≤ -11000 then pilotState high true else 0)) ∧
      (n = (if s.m.chg.cpNext = c then s.m.chg.cpRun + 1 else 1))) ∧
    (∃ (mv : Int), 10500 < mv) ∧
    (∃ (mv : Int), 7500 ≤ mv ∧ mv ≤ 10500) ∧
    (∃ (mv : Int), 4500 ≤ mv ∧ mv < 7500) ∧
    (∃ (mv : Int), 1500 < mv ∧ mv < 4500) ∧
    (∃ (mv : Int), -1500 ≤ mv ∧ mv ≤ 1500) ∧
    (∃ (mv : Int), mv < -10500) ∧
    (∃ (s : State), hasUnit s.m.variant 3 = true ∧ s.m.mode ≠ .sleep) ∧
    (∃ (ohms n : Nat) (s : State), hasUnit s.m.variant 3 = true ∧ s.m.mode ≠ .sleep ∧
      (n = (if s.m.chg.ppNext = ppCode ohms then s.m.chg.ppRun + 1 else 1))) ∧
    (∃ (s : State), (hasUnit s.m.variant 3 = false ∨ s.m.mode = .sleep)) :=
  ⟨⟨6000, -12000, 9800, 3, 3, charger [] fun x => { x with cpRun := 2, cpNext := 3 }, by decide⟩,
   ⟨10501, by decide⟩,
   ⟨7500, by decide⟩,
   ⟨4500, by decide⟩,
   ⟨1501, by decide⟩,
   ⟨-1500, by decide⟩,
   ⟨-10501, by decide⟩,
   ⟨charger [] id, by decide⟩,
   ⟨500, 3, charger [] fun x => { x with ppRun := 2, ppNext := ppCode 500 }, by decide⟩,
   ⟨{ State.reset with m := Mach.initial .px930 }, by decide⟩⟩

theorem test_hypotheses_of_chargeMachineAndImpedance :
    (∃ (s : State), s.m.chgPresent = true ∧ s.m.chg.state = 2 ∧ s.m.msTicks (1000 * s.m.fld Reg.CHG_SEQ 31 28) ≤ s.m.chg.ticks) ∧
    (∃ (st term : Nat) (s : State), s.m.chgPresent = true ∧ s.m.chg.state = st ∧ ((st = 3 ∧ term = 8 ∧
      s.m.msTicks (10 * s.m.fld Reg.CHG_SEQ 27 20) ≤ s.m.chg.ticks) ∨ (st = 4 ∧ term = 6 ∧
      s.m.msTicks 1000 ≤ s.m.chg.ticks)) ∧ s.roomy) ∧
    (∃ (s : State), (s.m.chgPresent = false ∨ (¬(s.m.chg.state = 2 ∧
      s.m.msTicks (1000 * s.m.fld Reg.CHG_SEQ 31 28) ≤ s.m.chg.ticks) ∧ ¬(s.m.chg.state = 3 ∧
      s.m.msTicks (10 * s.m.fld Reg.CHG_SEQ 27 20) ≤ s.m.chg.ticks) ∧ ¬(s.m.chg.state = 4 ∧
      s.m.msTicks 1000 ≤ s.m.chg.ticks)))) ∧
    (∃ (s : State), s.m.chgPresent = true ∧ s.m.chg.state = 5 ∧ 0 < s.m.chg.restLen ∧ s.m.chg.onLen ≤ s.m.chg.ticks) ∧
    (∃ (s : State), s.m.chgPresent = true ∧ s.m.chg.state = 6 ∧ s.m.chg.restLen ≤ s.m.chg.ticks ∧ s.m.chg.firstOn = true) ∧
    (∃ (s : State), (s.m.chgPresent = false ∨ (¬(s.m.chg.state = 5 ∧ 0 < s.m.chg.restLen ∧ s.m.chg.onLen ≤ s.m.chg.ticks) ∧
      ¬(s.m.chg.state = 6 ∧ s.m.chg.restLen ≤ s.m.chg.ticks)))) ∧
    (∃ (s : State), s.m.chgPresent = true ∧ s.m.chg.state = 7 ∧ s.m.chg.s6 = 0 ∧ 1 ≤ s.m.chg.ticks) ∧
    (∃ (s : State), (s.m.chgPresent = false ∨ s.m.chg.state ≠ 7 ∨ s.m.chg.s6 ≠ 0 ∨ s.m.chg.ticks = 0)) ∧
    (∃ (s : State), s.m.chgPresent = true ∧ s.m.chg.expired = false ∧ s.m.timerLimit ≤ s.m.chg.c) ∧
    (∃ (s : State), (s.m.chgPresent = false ∨ s.m.chg.expired = true ∨ s.m.chg.c < s.m.timerLimit)) ∧
    (∃ (s : State), s.m.chgPresent = true ∧ 4 ≤ s.m.chg.state ∧ s.m.chg.state ≤ 7 ∧ (8 ≤ s.m.chg.vgRun ∨ 16 ≤ s.m.chg.lostRun ∨
      8 ≤ s.m.chg.freqRun) ∧ s.roomy) ∧
    (∃ (s : State), (s.m.chgPresent = false ∨ s.m.chg.state < 4 ∨ 7 < s.m.chg.state ∨ (s.m.chg.vgRun < 8 ∧
      s.m.chg.lostRun < 16 ∧ s.m.chg.freqRun < 8))) ∧
    (∃ (s : State) (p tp nset ncyc t0 : Nat), s.m.chgPresent = true ∧ s.m.chg.zNext = p ∧ s.m.chg.zRun = some t0 ∧
      s.m.zPoint p = some (tp, nset, ncyc) ∧ (nset + ncyc) * tp + 1 ≤ t0) ∧
    (∃ (s : State), (s.m.chgPresent = false ∨ s.m.chg.zRun = none ∨ s.m.zPoint s.m.chg.zNext = none ∨ (∃ t0 tp nset ncyc,
      s.m.chg.zRun = some t0 ∧ s.m.zPoint s.m.chg.zNext = some (tp, nset, ncyc) ∧ t0 < (nset + ncyc) * tp + 1))) :=
  ⟨⟨charger [(Reg.CHG_SEQ, 0x10100000)] fun x => { x with state := 2, ticks := 50000 }, by decide⟩,
   ⟨3, 8, charger [(Reg.CHG_SEQ, 0x10100000)] fun x => { x with state := 3, ticks := 500 }, by decide⟩,
   ⟨charger [(Reg.CHG_SEQ, 0x10100000)] fun x => { x with state := 4, ticks := 49999 }, by decide⟩,
   ⟨charger [] fun x => { x with state := 5, restLen := 4, onLen := 2, ticks := 2 }, by decide⟩,
   ⟨charger [(Reg.CHG_PULSE, 0x04008100)] fun x => { x with state := 6, restLen := 4, ticks := 4, firstOn := true }, by decide⟩,
   ⟨charger [] fun x => { x with state := 6, restLen := 4, ticks := 3 }, by decide⟩,
   ⟨charger [] fun x => { x with state := 7, s6 := 0, ticks := 1, term := 3 }, by decide⟩,
   ⟨charger [] fun x => { x with state := 7, s6 := 1, ticks := 1 }, by decide⟩,
   ⟨charger [(Reg.CHG_TIMER, 60)] fun x => { x with state := 5, c := 10000000000 }, by decide⟩,
   ⟨charger [(Reg.CHG_TIMER, 60)] fun x => { x with state := 5, c := 10 }, by decide⟩,
   ⟨charger [] fun x => { x with state := 5, vgRun := 8, s6 := 4 }, by decide⟩,
   ⟨charger [] fun x => { x with state := 5, vgRun := 7 }, by decide⟩,
   ⟨charger [(Reg.CHG_PLAN 0, 0x44000002), (Reg.CHG_PLAN 1,
    0x44000002)] fun x => { x with zNext := 0, zRun := some 5, sii := 7, siq := 3 }, 0, 2, 1, 1, 5, by decide⟩,
   ⟨charger [] fun x => { x with zNext := 0 }, Or.inr (Or.inl (by decide))⟩⟩

theorem test_hypotheses_of_drivesAndPumps :
    (∃ (d : Fin 6) (s : State), s.m.drvRole d ≠ 0 ∧ s.m.isPump d = false ∧ s.m.hallFaultNow d = false ∧
      s.m.blockedNow d = true ∧ s.m.movesLow d = false ∧ s.m.movesHigh d = false) ∧
    (∃ (d : Fin 6) (s : State), s.m.drvRole d ≠ 0 ∧ s.m.isPump d = false ∧ s.m.hallFaultNow d = false ∧
      s.m.blockedNow d = true ∧ (s.m.movesLow d = true ∨ s.m.movesHigh d = true) ∧ (s.m.drv d).move ≠ .seekLo ∧
      (s.m.drv d).move ≠ .seekHi) ∧
    (∃ (d : Fin 6) (s : State) (p : Int), s.m.drvRole d ≠ 0 ∧ s.m.isPump d = false ∧ s.m.hallFaultNow d = false ∧
      s.m.blockedNow d = true ∧ (((s.m.drv d).move = .seekLo ∧ p = 0) ∨ ((s.m.drv d).move = .seekHi ∧ p = s.m.drvSpan d))) ∧
    (∃ (d : Fin 6) (s : State), s.m.drvRole d ≠ 0 ∧ s.m.isPump d = true ∧ s.m.hallFaultNow d = false ∧ s.m.blockedNow d = true ∧
      s.roomy) ∧
    (∃ (d : Fin 6) (s : State), (s.m.drvRole d = 0 ∨ s.m.hallFaultNow d = true ∨ s.m.blockedNow d = false)) ∧
    (∃ (d : Fin 6) (s : State), s.m.drvRole d ≠ 0 ∧ s.m.hallFaultNow d = true ∧ s.roomy) ∧
    (∃ (d : Fin 6) (s : State), (s.m.drvRole d = 0 ∨ s.m.hallFaultNow d = false)) ∧
    (∃ (d : Fin 6) (s : State), s.m.drvRole d ≠ 0 ∧ (s.m.isPump d = false ∨ (s.m.drv d).pstate ≠ 1) ∧
      (s.m.drv d).hallFlt = true ∧ 64 ≤ (s.m.drv d).clean) ∧
    (∃ (d : Fin 6) (s : State), s.m.isPump d = true ∧ (s.m.drv d).pstate = 1 ∧ (s.m.drv d).hallFlt = true ∧
      64 ≤ (s.m.drv d).clean ∧ s.roomy) ∧
    (∃ (d : Fin 6) (s : State), (s.m.drvRole d = 0 ∨ (s.m.drv d).hallFlt = false ∨ (s.m.drv d).clean < 64)) ∧
    (∃ (p : Fin 2) (value freq : Nat) (held bad : Bool) (s : State), s.m.mode ≠ .sleep ∧ s.m.isPump (4 + p.val) = true ∧
      bad = pumpInvalid (s.m.fld (Reg.ACT_PMP_CFG (4 + p.val)) 31 30) value freq held) ∧
    (∃ (p : Fin 2) (s : State), (s.m.mode = .sleep ∨ s.m.isPump (4 + p.val) = false)) ∧
    (∃ (d : Fin 6) (s : State), s.m.isPump d = true ∧ (s.m.drv d).pstate = 2 ∧
      (s.m.drv d).retryAt + s.m.msTicks 1000 ≤ s.m.seq ∧ 0 < (s.m.drv d).sp ∧ s.m.permitted (s.m.drvSlot d) = true ∧
      (s.m.drv d).hallFlt = false) ∧
    (∃ (d : Fin 6) (s : State), s.m.isPump d = true ∧ (s.m.drv d).pstate = 2 ∧
      (s.m.drv d).retryAt + s.m.msTicks 1000 ≤ s.m.seq ∧ ((s.m.drv d).sp ≤ 0 ∨ s.m.permitted (s.m.drvSlot d) = false ∨
      (s.m.drv d).hallFlt = true)) ∧
    (∃ (d : Fin 6) (s : State), (s.m.isPump d = false ∨ (s.m.drv d).pstate ≠ 2 ∨
      s.m.seq < (s.m.drv d).retryAt + s.m.msTicks 1000)) :=
  ⟨⟨2, st [(Reg.ACT_DRV_CFG 2, 0x32000000), (Reg.ACT_DRV_STALL 2, 0x500)] fun m => m.onDrv 2 fun x => { x with noEdge := 5 },
    by decide⟩,
   ⟨2, st [(Reg.ACT_DRV_CFG 2, 0x32000000), (Reg.ACT_DRV_STALL 2, 0x500), (Reg.ACT_DRV_POS01 2,
    5)] fun m => m.onDrv 2 fun x => { x with noEdge := 5, move := .move 0, posn := 3 }, by decide⟩,
   ⟨2, st [(Reg.ACT_DRV_CFG 2, 0x32000000), (Reg.ACT_DRV_STALL 2,
    0x500)] fun m => m.onDrv 2 fun x => { x with noEdge := 5, move := .seekLo, posn := 3 }, 0, by decide⟩,
   ⟨5, st [(Reg.ACT_DRV_CFG 5, 0x38000000), (Reg.ACT_DRV_STALL 5,
    0x500)] fun m => m.onDrv 5 fun x => { x with noEdge := 5, pstate := 1, retries := [3, 4], runTicks := 9 }, by decide⟩,
   ⟨2, st [(Reg.ACT_DRV_CFG 2, 0x32000000), (Reg.ACT_DRV_STALL 2, 0x500)] fun m => m.onDrv 2 fun x => { x with noEdge := 4 },
    by decide⟩,
   ⟨2, st [(Reg.ACT_DRV_CFG 2, 0x32000000)] fun m => m.onDrv 2 fun x => { x with invRun := 3, granted := true, ref := true },
    by decide⟩,
   ⟨2, st [(Reg.ACT_DRV_CFG 2, 0x32000000)] fun m => m.onDrv 2 fun x => { x with invRun := 2 }, by decide⟩,
   ⟨2, st [(Reg.ACT_DRV_CFG 2, 0x32000000)] fun m => m.onDrv 2 fun x => { x with hallFlt := true, clean := 64 }, by decide⟩,
   ⟨5, st [(Reg.ACT_DRV_CFG 5, 0x38000000)] fun m => m.onDrv 5 fun x => { x with pstate := 1, hallFlt := true, clean := 64 },
    by decide⟩,
   ⟨2, st [(Reg.ACT_DRV_CFG 2, 0x32000000)] fun m => m.onDrv 2 fun x => { x with hallFlt := true, clean := 63 }, by decide⟩,
   ⟨1, 19, 1000, false, true, st [(Reg.ACT_DRV_CFG 5, 0x38000000), (Reg.ACT_PMP_CFG 5, 0x80000000)], by decide⟩,
   ⟨1, st [(Reg.ACT_DRV_CFG 5, 0x32000000)], by decide⟩,
   ⟨5, (fun s => { s with m := slots [(3, .pump)] s.m }) (st [(Reg.ACT_DRV_CFG 5, 0x38000000), (Reg.TICK_SEQ_LO, 50000),
    (Reg.SYS_MODE_STAT, 0x12)] fun m => m.onDrv 5 fun x => { x with pstate := 2, sp := 1 }), by decide⟩,
   ⟨5, st [(Reg.ACT_DRV_CFG 5, 0x38000000), (Reg.TICK_SEQ_LO, 50000)] fun m => m.onDrv 5 fun x => { x with pstate := 2 },
    by decide⟩,
   ⟨5, st [(Reg.ACT_DRV_CFG 5, 0x38000000)] fun m => m.onDrv 5 fun x => { x with pstate := 2, retryAt := 1 }, by decide⟩⟩

set_option maxRecDepth 100000 in
theorem test_hypotheses_of_inputsAndCheckpoints :
    (∃ (i : AsyncIn) (s : State), s.m.live .a = true ∧ s.m.live .b = true ∧ s.roomy ∧ i.payload.length ≤ 992) ∧
    (∃ (cyc : Nat) (i : AsyncIn) (s : State), s.m.live .a = true ∧ s.m.live .b = true ∧
      1024 < s.m.waitingBytes (s.at cyc).accTickNow + entryBytes i.payload ∧ (s.at cyc).accTickNow < s.m.seq + 2 ∧
      s.m.waitingBytes ((s.at cyc).accTickNow + 1) + entryBytes i.payload ≤ 1024) ∧
    (∃ (cyc : Nat) (i : AsyncIn) (s : State), s.m.live .a = true ∧ s.m.live .b = true ∧
      1024 < s.m.waitingBytes (s.at cyc).accTickNow + entryBytes i.payload ∧ (s.m.seq + 2 ≤ (s.at cyc).accTickNow ∨
      1024 < s.m.waitingBytes ((s.at cyc).accTickNow + 1) + entryBytes i.payload)) ∧
    (∃ (i j : AsyncIn) (s : State), s.m.live .a = true ∧ s.m.live .b = true ∧ i ≠ j) ∧
    (∃ (i j : AsyncIn) (s : State), s.m.live .a = true ∧ s.m.live .b = true ∧ s.roomy ∧ i.payload.length ≤ 992 ∧
      j.payload.length ≤ 992) ∧
    (∃ (i j : AsyncIn) (l : Lane) (s : State), s.m.live l.other = false ∧ (s.m.live l = true ∨ l = .a) ∧ s.roomy ∧
      i.payload.length ≤ 992 ∧ j.payload.length ≤ 992) ∧
    (∃ (l : Lane) (s : State), s.m.fld Reg.LANE_JRN_ADDR 31 31 = l.ix) ∧
    (∃ (l : Lane) (s : State), s.m.live l = true ∧ s.m.tick.running = true ∧ s.m.fld Reg.LANE_CFG 4 0 ≠ 0 ∧
      (s.m.seq + 1) % s.m.fld Reg.LANE_CFG 4 0 = 0) ∧
    (∃ (l : Lane) (s : State), (s.m.live l = false ∨ s.m.tick.running = false ∨ s.m.fld Reg.LANE_CFG 4 0 = 0 ∨
      (s.m.seq + 1) % s.m.fld Reg.LANE_CFG 4 0 ≠ 0)) ∧
    (∃ (l : Lane) (s : State) (c : Checkpoint), Memory.wf s.mem = true ∧ (s.m.lanes.get l).copying = some c) ∧
    (∃ (l : Lane) (s : State), (s.m.lanes.get l).copying = none) :=
  ⟨⟨⟨2, 1, 0, 0, 7, [1, 2]⟩, st [] pair, by decide⟩,
   ⟨5, ⟨2, 1, 0, 0, 7, [1, 2]⟩,
    st [] fun m => (pair m).onLb fun b => { b with waiting := [{ entry 2 0 0 with payload := List.replicate 1000 1, accTick := 0 }] },
    by decide⟩,
   ⟨5, ⟨2, 1, 0, 0, 7, [1, 2]⟩,
    st [] fun m => (pair m).onLb fun b => { b with waiting := [{ entry 2 0 0 with payload := List.replicate 1000 1, accTick := 0 }, { entry 2 0 0 with payload := List.replicate 1000 1, accTick := 1 }] },
    by decide⟩,
   ⟨⟨2, 1, 0, 0, 7, [1, 2]⟩, ⟨2, 1, 0, 0, 8, []⟩, st [] pair, by decide⟩,
   ⟨⟨2, 1, 0, 0, 7, [1, 2]⟩, ⟨2, 1, 0, 0, 8, []⟩, st [] pair, by decide⟩,
   ⟨⟨2, 1, 0, 0, 7, [1, 2]⟩, ⟨2, 1, 0, 0, 8, []⟩, .a, st [] solo, by decide⟩,
   ⟨.a, st [] pair, by decide⟩,
   ⟨.b, st [(Reg.LANE_CFG, 4)] (tickNo 3 ∘ pair), by decide⟩,
   ⟨.b, st [], by decide⟩,
   ⟨.b, st [] fun m => (tickNo 3 (pair m)).onLane .b fun x => { x with copying := some (ckpt 3) }, ckpt 3, by decide⟩,
   ⟨.b, st [], by decide⟩⟩

theorem test_hypotheses_of_theSieveAcceptsAndComparesFrames :
    (∃ (cyc : Nat) (l : Lane) (k : Fin 16) (s : State) (f : Frame),
      (s.m.lane.inFlight.find? fun x => x.1 == l && x.2.slot == k.val) = some (l, f) ∧ s.m.lane.cut = false ∧
      (s.at cyc).time.cyc ≤ s.m.cutoffCycle ∧ s.m.laneCode l ≠ 5 ∧ s.m.frameValid l f true = true ∧
      (s.m.sv k).accepted = none) ∧
    (∃ (cyc : Nat) (l : Lane) (k : Fin 16) (s : State) (f g : Frame),
      (s.m.lane.inFlight.find? fun x => x.1 == l && x.2.slot == k.val) = some (l, f) ∧ s.m.lane.cut = false ∧
      (s.at cyc).time.cyc ≤ s.m.cutoffCycle ∧ s.m.laneCode l ≠ 5 ∧ s.m.frameValid l f true = true ∧
      (s.m.sv k).accepted = some (g, l.other) ∧ ((s.m.sv k).acceptedAt ≠ (s.at cyc).time.cyc ∨ s.m.active ≠ l)) ∧
    (∃ (cyc : Nat) (l : Lane) (k : Fin 16) (s : State) (f g : Frame),
      (s.m.lane.inFlight.find? fun x => x.1 == l && x.2.slot == k.val) = some (l, f) ∧ s.m.lane.cut = false ∧
      (s.at cyc).time.cyc ≤ s.m.cutoffCycle ∧ s.m.laneCode l ≠ 5 ∧ s.m.frameValid l f true = true ∧
      (s.m.sv k).accepted = some (g, l.other) ∧ (s.m.sv k).acceptedAt = (s.at cyc).time.cyc ∧ s.m.active = l) ∧
    (∃ (cyc : Nat) (l : Lane) (k : Fin 16) (s : State) (f : Frame),
      (s.m.lane.inFlight.find? fun x => x.1 == l && x.2.slot == k.val) = some (l, f) ∧ s.m.lane.cut = false ∧
      (s.at cyc).time.cyc ≤ s.m.cutoffCycle ∧ s.m.laneCode l = 5) ∧
    (∃ (cyc : Nat) (l : Lane) (k : Fin 16) (s : State) (f : Frame) (ok : Bool),
      (s.m.lane.inFlight.find? fun x => x.1 == l && x.2.slot == k.val) = some (l, f) ∧ (s.m.lane.cut = true ∨
      s.m.cutoffCycle < (s.at cyc).time.cyc ∨ (s.m.laneCode l ≠ 5 ∧ s.m.frameValid l f ok = false))) ∧
    (∃ (l : Lane) (k : Fin 16) (s : State), (s.m.lane.inFlight.find? fun x => x.1 == l && x.2.slot == k.val) = none) ∧
    (∃ (l : Lane) (s : State) (k : Nat), s.m.lane.cut = false ∧ s.m.tick.running = true ∧ s.m.admitted l = true ∧
      s.m.laneCode l.other = 2 ∧ s.m.mapped = [k] ∧ s.m.runsSlot l k = true ∧ (s.m.sv k).accepted = none ∧
      (s.m.sv k).second = none ∧ s.m.slotsOf .pump = [] ∧ s.m.lane.disputed = [] ∧ s.m.net.held = []) ∧
    (∃ (w : List (Nat × Word)) (s : State), CutoffOfFrames s ∧ BothSent s.m ∧ s.m.lane.disputes = [] ∧ (∀ k : Fin 16,
      SlotSettled s.m k) ∧ s.m.lanes.a.writeList = w ∧ s.m.lanes.b.writeList = w ∧ s.roomy ∧ w.length ≤ 32) ∧
    (∃ (l : Lane) (n : Nat) (s : State), CutoffOfFrames s ∧ BothSent s.m ∧ s.m.lane.disputes ≠ [] ∧ s.m.verdict = some (l, n) ∧
      s.m.lanes.a.writeList = [] ∧ s.m.lanes.b.writeList = [] ∧ (∀ (k : Fin 16) (x : Frame), ((s.m.sv k).accepted = some (x,
      l.other) → (s.m.sv k).acceptedBad = false) ∧ ((s.m.sv k).second = some (x, l.other) → (s.m.sv k).secondBad = false))) ∧
    (∃ (s : State), CutoffOfFrames s ∧ BothSent s.m ∧ s.m.lane.disputes ≠ [] ∧ s.m.verdict = none ∧
      s.m.lanes.a.writeList = s.m.lanes.b.writeList ∧ s.m.lanes.a.restart = none ∧ s.m.lanes.b.restart = none ∧
      s.m.lane.pendRestart = none) ∧
    (∃ (l : Lane) (s : State), CutoffOfFrames s ∧ s.m.live l = true ∧ s.m.admitted l = false ∧ s.m.admitted l.other = true ∧
      s.m.lane.disputes = [] ∧ (s.m.lanes.get l.other).writeList = [] ∧ (∀ k ∈ s.m.ownSlots l.other,
      (s.m.sv k).holds l.other = true) ∧ (∀ (k : Fin 16) (x : Frame), ((s.m.sv k).accepted = some (x, l.other) →
      (s.m.sv k).acceptedBad = false) ∧ ((s.m.sv k).second = some (x, l.other) → (s.m.sv k).secondBad = false))) ∧
    (∃ (l : Lane) (k : Nat) (f : Frame) (s : State), CutoffOfFrames s ∧ s.m.admitted l = true ∧ s.m.laneCode l.other = 2 ∧
      s.m.mapped = [k] ∧ s.m.lane.slots.length = 16 ∧ (s.m.sv k).accepted = some (f, l) ∧ (s.m.sv k).acceptedBad = true ∧
      (s.m.sv k).second = none ∧ (∀ j < 16, j ≠ k → (s.m.sv j).accepted = none ∧ (s.m.sv j).second = none) ∧ s.roomy) ∧
    (∃ (k d : Nat) (s : State), s.m.lane.cut = false ∧ s.m.tick.running = true ∧ s.m.laneCode .a = 2 ∧ s.m.laneCode .b = 2 ∧
      s.m.slotsOf .pump = [k] ∧ s.m.pumpRuns k = some d ∧ s.m.lane.disputed = [] ∧ s.m.net.held = [] ∧
      s.m.lane.slots.length = 16 ∧ s.m.act.drives.length = 6 ∧ (∀ j < 16, (s.m.sv j).accepted = none ∧
      (s.m.sv j).second = none) ∧ (s.m.sv k).sub = none ∧ k < 16 ∧ d < 6) ∧
    (∃ (l : Lane) (s : State), CutoffOfFrames s ∧ s.m.laneCode l = 5 ∧ s.m.admitted l.other = true ∧
      (∀ k ∈ s.m.ownSlots l.other, (s.m.sv k).holds l.other = true) ∧ (∀ k : Fin 16, SlotSettled s.m k)) ∧
    (∃ (s : State), (s.m.lane.cut = true ∨ s.m.tick.running = false)) :=
  ⟨⟨5, .b, 3, sieve fun b => { b with inFlight := [(.b, frame3)] }, frame3, by decide⟩,
   ⟨5, .b, 3,
    sieve fun b => { b with inFlight := [(.b, frame3)], slots := upd b.slots 3 fun x => { x with accepted := some ({ frame3 with hva := 2 }, .a), acceptedAt := 3 } },
    frame3, { frame3 with hva := 2 }, by decide⟩,
   ⟨5, .a, 3,
    sieve fun b => { b with inFlight := [(.a, frame3)], slots := upd b.slots 3 fun x => { x with accepted := some ({ frame3 with hva := 2 }, .b), acceptedAt := 5 } },
    frame3, { frame3 with hva := 2 }, by decide⟩,
   ⟨5, .b, 3, on (fun m => m.setLaneCode .b 5) (sieve fun b => { b with inFlight := [(.b, frame3)] }), frame3, by decide⟩,
   ⟨7873, .b, 3, sieve fun b => { b with inFlight := [(.b, frame3)] }, frame3, true, by decide⟩,
   ⟨.a, 3, st [], by decide⟩,
   ⟨.a, st [] (slots [(3, .chopper)] ∘ tickNo 3 ∘ solo), 3, by decide⟩,
   ⟨[(Reg.ACQ_CAL_REQ, 1#32)],
    on (fun m => m.onLanes fun _ x => { x with writeList := [(Reg.ACQ_CAL_REQ, 1#32)] }) (judged id), by decide, by decide,
    by decide, settled_of (by decide), by decide⟩,
   ⟨.a, 1, judged (fun x => { x with acceptedBad := true }) fun b => { b with disputes := [.frame 3] }, by decide, by decide,
    by decide, by decide, by decide, by decide, unflagged_of (by decide)⟩,
   ⟨judged id fun b => { b with disputes := [.frame 3] }, by decide⟩,
   ⟨.a, on (fun m => m.onLane .a fun x => { x with f2 := true }) (judged id), by decide, by decide, by decide, by decide,
    by decide, by decide, by decide, unflagged_of (by decide)⟩,
   ⟨.a, 3, frame3, judged (fun x => { x with acceptedBad := true, second := none }) id solo, by decide⟩,
   ⟨3, 5, pumping, by decide⟩,
   ⟨.b, judged (fun x => { x with second := none, shadow := some frame3 }) id fun m => (solo m).setLaneCode .b 5, by decide,
    by decide, by decide, by decide, settled_of (by decide)⟩,
   ⟨st [], by decide⟩⟩

theorem test_hypotheses_of_laneRecoveryStepByStep :
    (∃ (cyc : Nat) (l : Lane) (s : State), (s.m.lanes.get l).f2 = true ∧ s.m.laneCode l ≠ 0 ∧ s.m.laneCode l ≠ 6 ∧
      s.m.live l.other = true ∧ s.m.arr = 1 ∧ (s.m.lanes.get l).restart = none ∧ (s.m.lanes.get l.other).restart = none ∧
      faultsBefore s cyc l < 3) ∧
    (∃ (cyc : Nat) (l : Lane) (s : State), (s.m.lanes.get l).f2 = true ∧ s.m.laneCode l ≠ 0 ∧ s.m.laneCode l ≠ 6 ∧
      s.m.live l.other = true ∧ s.m.arr = 1 ∧ (s.m.lanes.get l).restart = none ∧ (s.m.lanes.get l.other).restart = none ∧
      3 ≤ faultsBefore s cyc l) ∧
    (∃ (cyc : Nat) (l : Lane) (s : State) (r : Restart), (s.m.lanes.get l).f2 = true ∧ s.m.laneCode l ≠ 0 ∧ s.m.laneCode l ≠ 6 ∧
      (s.m.lanes.get l).restart = some r ∧ faultsBefore s cyc l < 3) ∧
    (∃ (l : Lane) (s : State) (c : Checkpoint), (s.m.lanes.get l).f2 = true ∧ s.m.live l = true ∧
      (s.m.lanes.get l).restart = none ∧ (s.m.arr ≠ 1 ∨ s.m.live l.other = false ∨ (s.m.lanes.get l.other).restart ≠ none) ∧
      (s.m.lanes.get l).newest = some c ∧ c.tick < s.m.seq) ∧
    (∃ (l : Lane) (s : State), (s.m.lanes.get l).f2 = true ∧ s.m.laneCode l ≠ 0 ∧ s.m.laneCode l ≠ 6 ∧ s.m.live l = false ∧
      (s.m.lanes.get l).restart = none ∧ (s.m.arr ≠ 1 ∨ s.m.live l.other = false ∨ (s.m.lanes.get l.other).restart ≠ none)) ∧
    (∃ (l : Lane) (s : State), ((s.m.lanes.get l).f2 = false ∨ s.m.laneCode l = 0 ∨ s.m.laneCode l = 6)) ∧
    (∃ (l : Lane) (s : State), (s.m.lanes.get l).step = .check ∧ (s.m.lanes.get l).restart = none) ∧
    (∃ (l : Lane) (s : State), (s.m.lanes.get l).step = .check ∧ (s.m.lanes.get l).restart ≠ none) ∧
    (∃ (l : Lane) (s : State), (s.m.lanes.get l).step ≠ .check) ∧
    (∃ (l : Lane) (s : State) (c : Checkpoint), (s.m.lanes.get l.other).newest = some c ∧ (s.m.lanes.get l).step = .waitCkpt ∧
      (s.m.lanes.get l).waitFrom < c.tick + 2) ∧
    (∃ (l : Lane) (s : State), ((s.m.lanes.get l).step ≠ .waitCkpt ∨ (∀ c, (s.m.lanes.get l.other).newest = some c →
      c.tick + 2 ≤ (s.m.lanes.get l).waitFrom))) ∧
    (∃ (l : Lane) (s : State), (s.m.lanes.get l).step = .shadow ∧ 2 ≤ (s.m.lanes.get l).shadowEqual) ∧
    (∃ (l : Lane) (s : State), ((s.m.lanes.get l).step ≠ .shadow ∨ (s.m.lanes.get l).shadowEqual < 2)) ∧
    (∃ (cyc : Nat) (l : Lane) (s : State), (s.m.lanes.get l).step ≠ .none ∧ (s.m.lanes.get l).restart = none ∧
      (s.m.lanes.get l).faultTick + 64 < (s.at cyc).tickNow ∧ faultsBefore s cyc l < 3) ∧
    (∃ (cyc : Nat) (l : Lane) (s : State), (s.m.lanes.get l).step ≠ .none ∧ (s.m.lanes.get l).restart = none ∧
      (s.m.lanes.get l).faultTick + 64 < (s.at cyc).tickNow ∧ 3 ≤ faultsBefore s cyc l ∧ s.m.live l.other = true ∧
      s.m.arr = 1) ∧
    (∃ (cyc : Nat) (l : Lane) (s : State), ((s.m.lanes.get l).step = .none ∨ (s.m.lanes.get l).restart ≠ none ∨
      (s.at cyc).tickNow ≤ (s.m.lanes.get l).faultTick + 64)) :=
  ⟨⟨5, .a, st [] fun m => (tickNo 9 (pair m)).onLane .a fun x => { x with f2 := true }, by decide⟩,
   ⟨5, .a, st [] fun m => (tickNo 9 (pair m)).onLane .a fun x => { x with f2 := true, faults := [1, 2, 3] }, by decide⟩,
   ⟨5, .a,
    st [] fun m => (tickNo 9 (pair m)).onLane .a fun x => { x with f2 := true, restart := some ⟨9, true, false, false, 0, 0, true, 0⟩ },
    ⟨9, true, false, false, 0, 0, true, 0⟩, by decide⟩,
   ⟨.a,
    st [] fun m => (tickNo 9 (solo m)).onLane .a fun x => { x with f2 := true, buf0 := some (ckpt 7), usable := some false },
    ckpt 7, by decide⟩,
   ⟨.b, st [] fun m => (((tickNo 9 (solo m)).setLaneCode .a 3).setLaneCode .b 4).onLane .b fun x => { x with f2 := true },
    by decide⟩,
   ⟨.a, st [] pair, by decide⟩,
   ⟨.b,
    st [] fun m => { (tickNo 9 (pair m)) with image := { m.image with codecrc := 0 } }.onLane .b fun x => { x with step := .check },
    by decide⟩,
   ⟨.b,
    st [] fun m => { (tickNo 9 (pair m)) with image := { m.image with codecrc := 0 } }.onLane .b fun x => { x with step := .check, restart := some ⟨9, true, false, false, 0, 0, true, 0⟩ },
    by decide⟩,
   ⟨.a, st [] pair, by decide⟩,
   ⟨.b,
    st [] fun m => ((tickNo 9 (pair m)).onLane .b fun x => { x with step := .waitCkpt, waitFrom := 4 }).onLane .a fun x => { x with buf0 := some (ckpt 3), usable := some false },
    ckpt 3, by decide⟩,
   ⟨.a, st [] pair, by decide⟩,
   ⟨.b, st [] fun m => (tickNo 9 (pair m)).onLane .b fun x => { x with step := .shadow, shadowEqual := 2, faultTick := 4 },
    by decide⟩,
   ⟨.b, st [] fun m => (tickNo 9 (pair m)).onLane .b fun x => { x with step := .shadow, shadowEqual := 1 }, by decide⟩,
   ⟨5, .b, st [] fun m => (tickNo 69 (solo m)).onLane .b fun x => { x with step := .shadow, faultTick := 4 }, by decide⟩,
   ⟨5, .b,
    st [] fun m => (tickNo 69 (pair m)).onLane .b fun x => { x with step := .shadow, faultTick := 4, faults := [1, 2, 3] },
    by decide⟩,
   ⟨5, .a, st [] pair, by decide⟩⟩

theorem test_hypotheses_of_restartsReplayAndResync :
    (∃ (s : State), s.m.live .a = true ∧ s.m.live .b = true ∧ s.m.lanes.a.restart = none ∧ s.m.lanes.b.restart = none ∧
      s.m.lane.pendRestart = none) ∧
    (∃ (s : State), s.m.live .a = true ∧ s.m.live .b = true ∧ (s.m.lanes.a.restart ≠ none ∨ s.m.lanes.b.restart ≠ none)) ∧
    (∃ (s : State), s.m.live .a = true ∧ s.m.live .b = true ∧ s.m.lanes.a.restart = none ∧ s.m.lanes.b.restart = none ∧
      s.m.lane.pendRestart ≠ none) ∧
    (∃ (s : State), (s.m.live .a = false ∨ s.m.live .b = false)) ∧
    (∃ (s : State) (x y : Checkpoint), s.m.live .a = true ∧ s.m.live .b = true ∧ s.m.lanes.a.restart = none ∧
      s.m.lanes.b.restart = none ∧ s.m.chg.zRun = none ∧ s.m.lanes.a.newest = some x ∧ s.m.lanes.b.newest = some y ∧
      x.tick < s.m.seq ∧ y.tick < s.m.seq ∧ s.m.bothFault = true ∧ s.m.lane.pendRestart = none) ∧
    (∃ (s : State) (x y : Checkpoint), s.m.live .a = true ∧ s.m.live .b = true ∧ s.m.lanes.a.restart = none ∧
      s.m.lanes.b.restart = none ∧ s.m.chg.zRun = none ∧ s.m.lanes.a.newest = some x ∧ s.m.lanes.b.newest = some y ∧
      x.tick < s.m.seq ∧ y.tick < s.m.seq ∧ s.m.lane.pendRestart ≠ none) ∧
    (∃ (s : State), (s.m.bothFault = true ∨ (s.m.lane.pendRestart ≠ none ∧ s.m.live .a = true)) ∧ (s.m.lanes.a.restart ≠ none ∨
      s.m.lanes.b.restart ≠ none ∨ s.m.lanes.a.newest = none)) ∧
    (∃ (s : State), s.m.bothFault = false ∧ s.m.lane.pendRestart = none) ∧
    (∃ (k : Fin 16) (s : State),
      let lim := s.m.fld (Reg.LANE_HOLDLIM (k.val / 4)) (8 * (k.val % 4) + 7) (8 * (k.val % 4))
      s.m.pumpRuns k = none ∧ (s.m.sv k).forcedSafe = false ∧ (s.m.sv k).limited = false ∧ 0 < (s.m.sv k).heldCount ∧ s.roomy ∧
      lim ≤ (s.m.sv k).heldCount) ∧
    (∃ (k : Fin 16) (s : State),
      let lim := s.m.fld (Reg.LANE_HOLDLIM (k.val / 4)) (8 * (k.val % 4) + 7) (8 * (k.val % 4))
      (s.m.pumpRuns k ≠ none ∨ (s.m.sv k).forcedSafe = true ∨ (s.m.sv k).limited = true ∨ (s.m.sv k).heldCount = 0 ∨
      (s.m.sv k).heldCount < lim)) ∧
    (∃ (l : Lane) (s : State) (r : Restart) (c : Checkpoint), (s.m.lanes.get l).restart = some r ∧
      (s.m.lanes.get l).newest = some c ∧ r.restored = false) ∧
    (∃ (l : Lane) (s : State), ((s.m.lanes.get l).restart = none ∨ (s.m.lanes.get l).newest = none ∨ (∃ r,
      (s.m.lanes.get l).restart = some r ∧ r.restored = true))) ∧
    (∃ (l : Lane) (s : State) (n : Nat) (mark : JEntry), s.m.replayDue l = true ∧ s.m.replayDue l.other = false ∧
      (s.m.lanes.get l).next = n ∧ (s.m.lanes.get l).markerOf n = some mark ∧ s.m.replayReady l n = true) ∧
    (∃ (n : Nat) (s : State), s.m.replayDue .a = true ∧ s.m.replayDue .b = true ∧ s.m.lanes.a.next = n ∧ s.m.lanes.b.next = n ∧
      s.m.replayReady .a n = true ∧ s.m.replayReady .b n = true) ∧
    (∃ (l : Lane) (s : State), s.m.replayDue l = true ∧ s.m.replayDue l.other = false ∧
      s.m.replayReady l (s.m.lanes.get l).next = false ∧ (s.m.lanes.get l).restart ≠ none) ∧
    (∃ (cyc : Nat) (l : Lane) (s : State), s.m.replayDue l = true ∧ s.m.replayDue l.other = false ∧
      s.m.replayReady l (s.m.lanes.get l).next = false ∧ (s.m.lanes.get l).restart = none ∧ faultsBefore s cyc l < 3) ∧
    (∃ (s : State), s.m.replayDue .a = false ∧ s.m.replayDue .b = false) ∧
    (∃ (s : State), (s.m.resyncDue .a = true ∨ s.m.resyncDue .b = true) ∧ (∀ l : Lane, s.m.resyncDue l = true →
      (s.m.lanes.get l).journal = [])) ∧
    (∃ (s : State), s.m.resyncDue .a = false ∧ s.m.resyncDue .b = false) :=
  ⟨⟨st [] pair, by decide⟩,
   ⟨st [] fun m => (tickNo 9 (pair m)).onLane .a fun x => { x with restart := some ⟨9, true, false, false, 0, 0, true, 0⟩ },
    by decide⟩,
   ⟨st [] fun m => (pair m).onLb fun b => { b with pendRestart := some 3 }, by decide⟩,
   ⟨st [] solo, by decide⟩,
   ⟨st [] fun m => (tickNo 9 (pair m)).onLanes fun _ x => { x with f2 := true, buf0 := some (ckpt 7), usable := some false },
    ckpt 7, ckpt 7, by decide⟩,
   ⟨st [] fun m => ((tickNo 9 (pair m)).onLanes fun _ x => { x with buf0 := some (ckpt 7), usable := some false }).onLb fun b => { b with pendRestart := some 3 },
    ckpt 7, ckpt 7, by decide⟩,
   ⟨st [] fun m => (tickNo 9 (pair m)).onLanes fun _ x => { x with f2 := true }, by decide⟩,
   ⟨st [] pair, by decide⟩,
   ⟨3, st [(Reg.LANE_HOLDLIM 0, 0x05000000)] fun m => m.onSv 3 fun x => { x with held := true, heldCount := 5 }, by decide⟩,
   ⟨3, st [(Reg.LANE_HOLDLIM 0, 0x05000000)] fun m => m.onSv 3 fun x => { x with held := true, heldCount := 4 }, by decide⟩,
   ⟨.a,
    st [] fun m => m.onLane .a fun x => { x with buf0 := some (ckpt 7), usable := some false, restart := some ⟨9, true, false, false, 0, 0, true, 0⟩ },
    ⟨9, true, false, false, 0, 0, true, 0⟩, ckpt 7, by decide⟩,
   ⟨.a, st [] pair, Or.inl (by decide)⟩,
   ⟨.b,
    st [] fun m => ((tickNo 9 (solo m)).setLaneCode .b 4).onLane .b (fun x => { x with next := 9, journal := [{ (default : JEntry) with accTick := 9 }] }) |>.onAcq fun y => { y with shelf := [{ (default : AcqSet) with tag := 9 }] },
    9, { (default : JEntry) with accTick := 9 }, by decide⟩,
   ⟨9,
    st [] fun m => (((tickNo 9 (solo m)).setLaneCode .a 4).setLaneCode .b 4).onLanes (fun _ x => { x with next := 9, journal := [{ (default : JEntry) with accTick := 9 }] }) |>.onAcq fun y => { y with shelf := [{ (default : AcqSet) with tag := 9 }] },
    by decide⟩,
   ⟨.b,
    st [] fun m => ((tickNo 9 (solo m)).setLaneCode .b 4).onLane .b fun x => { x with next := 8, restart := some ⟨9, true, false, false, 0, 0, true, 0⟩ },
    by decide⟩,
   ⟨5, .b, st [] fun m => ((tickNo 9 (solo m)).setLaneCode .b 4).onLane .b fun x => { x with next := 8 }, by decide⟩,
   ⟨st [] pair, by decide⟩,
   ⟨st [] fun m => ((tickNo 12 (solo m)).setLaneCode .b 4).onLane .b fun x => { x with next := 9, restart := some { (⟨9, true, false, false, 0, 0, true, 0⟩ : Restart) with restored := true } },
    by decide, fun l => by cases l <;> decide⟩,
   ⟨st [] pair, by decide⟩⟩

theorem test_hypotheses_of_handoverAndWatchdog :
    (∃ (s : State) (a : Nat), s.m.lane.handover = some (2, a) ∧ s.roomy ∧ a ≤ s.m.seq ∧ s.m.live .a = true ∧
      s.m.live .b = true ∧ (s.m.seq + 1) % max (s.m.fld Reg.LANE_CFG 4 0) 1 = 0) ∧
    (∃ (s : State) (a : Nat), s.m.lane.handover = some (2, a) ∧ s.roomy ∧ (s.m.seq < a ∨ s.m.live .a = false ∨
      s.m.live .b = false ∨ (s.m.seq + 1) % max (s.m.fld Reg.LANE_CFG 4 0) 1 ≠ 0)) ∧
    (∃ (s : State) (a : Nat) (x y : Checkpoint), s.m.lane.handover = some (1, a) ∧ s.m.lanes.a.newest = some x ∧
      s.m.lanes.b.newest = some y ∧ s.m.chg.zRun = none ∧ s.m.live .a = true ∧ s.m.live .b = true ∧ x.tick + 1 = s.m.seq ∧
      y.tick + 1 = s.m.seq ∧ a ≤ x.tick ∧ s.m.lanes.a.restart = none ∧ s.m.lanes.b.restart = none) ∧
    (∃ (s : State) (a : Nat) (x y : Checkpoint), s.m.lane.handover = some (1, a) ∧ s.m.lanes.a.newest = some x ∧
      s.m.lanes.b.newest = some y ∧ s.m.chg.zRun = none ∧ (x.tick + 1 ≠ s.m.seq ∨ y.tick + 1 ≠ s.m.seq ∨ x.tick < a ∨
      s.m.lanes.a.restart ≠ none ∨ s.m.lanes.b.restart ≠ none)) ∧
    (∃ (s : State), s.m.lane.handover = none) ∧
    (∃ (cyc : Nat) (l : Lane) (s : State),
      let due := s.m.live l = true ∧ s.m.fld (Reg.LANE_L_WDOG l.ix) 7 0 ≠ 0 ∧ (s.m.lanes.get l).kickAt + 2000000 * s.m.fld (Reg.LANE_L_WDOG l.ix) 7 0 ≤ (s.at cyc).now
      due) ∧
    (∃ (cyc : Nat) (l : Lane) (s : State),
      let due := s.m.live l = true ∧ s.m.fld (Reg.LANE_L_WDOG l.ix) 7 0 ≠ 0 ∧ (s.m.lanes.get l).kickAt + 2000000 * s.m.fld (Reg.LANE_L_WDOG l.ix) 7 0 ≤ (s.at cyc).now
      ¬due) :=
  ⟨⟨st [(Reg.LANE_CFG, 4)] fun m => (tickNo 3 (pair m)).onLb fun b => { b with handover := some (2, 3) }, 3, by decide⟩,
   ⟨st [(Reg.LANE_CFG, 4)] fun m => (tickNo 4 (pair m)).onLb fun b => { b with handover := some (2, 3) }, 3, by decide⟩,
   ⟨st [] fun m => ((tickNo 8 (pair m)).onLanes fun _ x => { x with buf0 := some (ckpt 7), usable := some false }).onLb fun b => { b with handover := some (1, 7) },
    7, ckpt 7, ckpt 7, by decide⟩,
   ⟨st [] fun m => ((tickNo 9 (pair m)).onLanes fun _ x => { x with buf0 := some (ckpt 7), usable := some false }).onLb fun b => { b with handover := some (1, 7) },
    7, ckpt 7, ckpt 7, by decide⟩,
   ⟨st [] pair, by decide⟩,
   ⟨5, .b, st [(Reg.LANE_L_WDOG 1, 1)] (clock 2000000 ∘ pair), by decide⟩,
   ⟨5, .b, st [(Reg.LANE_L_WDOG 1, 1)] pair, by decide⟩⟩

theorem test_hypotheses_of_messagesPassTheSieveAndTheirPort :
    (∃ (l : Lane) (s : State) (x : TxMsg), (s.m.net.copies.find? fun c => c.1 == l) = some (l, x) ∧ s.m.admitted l = false) ∧
    (∃ (l : Lane) (s : State) (x : TxMsg), (s.m.net.copies.find? fun c => c.1 == l) = some (l, x) ∧ s.m.admitted l = true ∧
      s.m.pairJudged = false) ∧
    (∃ (l : Lane) (s : State) (x : TxMsg) (h : HeldMsg), (s.m.net.copies.find? fun c => c.1 == l) = some (l, x) ∧
      s.m.admitted l = true ∧ s.m.pairJudged = true ∧
      (s.m.net.held.find? fun h => h.msg.sameKey x && h.lane != l) = some h ∧ h.msg.data = x.data) ∧
    (∃ (l : Lane) (s : State) (x : TxMsg) (h : HeldMsg), (s.m.net.copies.find? fun c => c.1 == l) = some (l, x) ∧
      s.m.admitted l = true ∧ s.m.pairJudged = true ∧
      (s.m.net.held.find? fun h => h.msg.sameKey x && h.lane != l) = some h ∧ h.msg.data ≠ x.data) ∧
    (∃ (l : Lane) (s : State) (x : TxMsg), (s.m.net.copies.find? fun c => c.1 == l) = some (l, x) ∧ s.m.admitted l = true ∧
      s.m.pairJudged = true ∧ (s.m.net.held.find? fun h => h.msg.sameKey x && h.lane != l) = none) ∧
    (∃ (l : Lane) (s : State), (s.m.net.copies.find? fun c => c.1 == l) = none) ∧
    (∃ (l : Lane) (v : Word) (s : State),
      let used := s.m.fld (Reg.NET_L_TXSTAT l.ix) 2 0
      v.bit 31 = true ∧ v.bits 6 0 ≤ 64 ∧ s.m.inTick l = true ∧ used < 4 ∧ s.m.txFlow (v.bits 12 7) = true) ∧
    (∃ (l : Lane) (v : Word) (s : State),
      let used := s.m.fld (Reg.NET_L_TXSTAT l.ix) 2 0
      v.bit 31 = true ∧ v.bits 6 0 ≤ 64 ∧ (s.m.inTick l = false ∨ 4 ≤ used ∨ s.m.txFlow (v.bits 12 7) = false)) ∧
    (∃ (v : Word), v.bit 31 = true ∧ 64 < v.bits 6 0) ∧
    (∃ (v : Word), v.bit 31 = false) ∧
    (∃ (p : Fin 7) (s : State) (x : TxMsg),
      let on := s.m.portOn p = true ∧ (s.m.mode ≠ .sleep ∨ s.m.bit Reg.IMG_STATUS 27 = true)
      let next := bestMsg (fun x => (s.m.flow x.flow).bits 22 20) (s.m.port p).queue
      on ∧ next = some x) ∧
    (∃ (p : Fin 7) (s : State),
      let on := s.m.portOn p = true ∧ (s.m.mode ≠ .sleep ∨ s.m.bit Reg.IMG_STATUS 27 = true)
      let next := bestMsg (fun x => (s.m.flow x.flow).bits 22 20) (s.m.port p).queue
      (¬on ∨ next = none)) ∧
    (∃ (p : Fin 7) (s : State) (f n ts : Nat) (rest : List (Nat × Nat × Nat)), (s.m.port p).txts = (f, n, ts) :: rest) ∧
    (∃ (p : Fin 7) (s : State), (s.m.port p).txts = []) :=
  ⟨⟨.a, st [] fun m => (id m).onNet fun n => { n with copies := [(.a, ⟨5, [1, 2], 3, 0⟩)], held := [] }, ⟨5, [1, 2], 3, 0⟩,
    by decide⟩,
   ⟨.a, st [] fun m => (solo m).onNet fun n => { n with copies := [(.a, ⟨5, [1, 2], 3, 0⟩)], held := [] }, ⟨5, [1, 2], 3, 0⟩,
    by decide⟩,
   ⟨.a,
    st [] fun m => (pair m).onNet fun n => { n with copies := [(.a, ⟨5, [1, 2], 3, 0⟩)], held := [⟨⟨5, [1, 2], 3, 0⟩, .b, true⟩] },
    ⟨5, [1, 2], 3, 0⟩, ⟨⟨5, [1, 2], 3, 0⟩, .b, true⟩, by decide⟩,
   ⟨.a,
    st [] fun m => (pair m).onNet fun n => { n with copies := [(.a, ⟨5, [1, 2], 3, 0⟩)], held := [⟨⟨5, [1, 3], 3, 0⟩, .b, true⟩] },
    ⟨5, [1, 2], 3, 0⟩, ⟨⟨5, [1, 3], 3, 0⟩, .b, true⟩, by decide⟩,
   ⟨.a, st [] fun m => (pair m).onNet fun n => { n with copies := [(.a, ⟨5, [1, 2], 3, 0⟩)], held := [] }, ⟨5, [1, 2], 3, 0⟩,
    by decide⟩,
   ⟨.a, st [], by decide⟩,
   ⟨.a, 0x800002C0#32, st [(Reg.NET_FLOW_W0 5, 0xC0000000)] (inTickA ∘ pair), by decide⟩,
   ⟨.a, 0x800002C0#32, st [] pair, by decide⟩,
   ⟨0x800002C1#32, by decide⟩,
   ⟨0x2C0#32, by decide⟩,
   ⟨3, st ([(Reg.NET_P_CFG 3,
    0x80000000)] ++ []) fun m => (live m).onNet fun n => { n with ports := upd n.ports 3 fun p => { p with queue := [⟨5, [1, 2], 3, 0⟩] } },
    ⟨5, [1, 2], 3, 0⟩, by decide⟩,
   ⟨3, st ([(Reg.NET_P_CFG 3,
    0x80000000)] ++ []) fun m => (live m).onNet fun n => { n with ports := upd n.ports 3 fun p => { p with queue := [] } },
    by decide⟩,
   ⟨3, st [] fun m => m.onNet fun n => { n with ports := upd n.ports 3 fun p => { p with txts := [(5, 1, 99)] } }, 5, 1, 99,
    [], by decide⟩,
   ⟨3, st [], by decide⟩⟩

theorem test_hypotheses_of_receivedFramesAndPortStates :
    (∃ (p : Fin 7) (etype : Nat) (vid : Option Nat) (ide : Bool) (id : Nat) (pay : List Nat) (s : State), s.m.portOn p = true ∧
      s.m.mode ≠ .sleep ∧ s.m.macAccepts p pay = true ∧ (∀ f < 64, s.m.flowMatches p f ⟨etype, vid, ide, id⟩ = false)) ∧
    (∃ (p : Fin 7) (etype : Nat) (vid : Option Nat) (ide : Bool) (id : Nat) (pay : List Nat) (s : State) (f : Nat),
      s.m.portOn p = true ∧ s.m.mode ≠ .sleep ∧ s.m.macAccepts p pay = true ∧
      (List.range 64).find? (fun x => s.m.flowMatches p x ⟨etype, vid, ide, id⟩) = some f ∧ (s.m.flow f).bit 27 = true) ∧
    (∃ (p : Fin 7) (etype : Nat) (vid : Option Nat) (ide : Bool) (id : Nat) (pay : List Nat) (s : State) (f : Nat),
      s.m.portOn p = true ∧ s.m.mode ≠ .sleep ∧ s.m.macAccepts p pay = true ∧
      (List.range 64).find? (fun x => s.m.flowMatches p x ⟨etype, vid, ide, id⟩) = some f ∧ (s.m.flow f).bit 27 = false ∧
      (s.m.flow f).bit 29 = true ∧ pay.length ≤ 64 ∧ s.roomy) ∧
    (∃ (p : Fin 7) (etype : Nat) (vid : Option Nat) (ide : Bool) (id : Nat) (pay : List Nat) (s : State) (f : Nat),
      s.m.portOn p = true ∧ s.m.mode ≠ .sleep ∧ s.m.macAccepts p pay = true ∧
      (List.range 64).find? (fun x => s.m.flowMatches p x ⟨etype, vid, ide, id⟩) = some f ∧ (s.m.flow f).bit 27 = false ∧
      (s.m.flow f).bit 29 = true ∧ 64 < pay.length) ∧
    (∃ (p : Fin 7) (etype : Nat) (vid : Option Nat) (ide : Bool) (id : Nat) (pay : List Nat) (s : State) (f : Nat),
      s.m.portOn p = true ∧ s.m.mode ≠ .sleep ∧ s.m.macAccepts p pay = true ∧
      (List.range 64).find? (fun x => s.m.flowMatches p x ⟨etype, vid, ide, id⟩) = some f ∧ (s.m.flow f).bit 27 = false ∧
      (s.m.flow f).bit 29 = false) ∧
    (∃ (p : Fin 7) (pay : List Nat) (s : State), (s.m.portOn p = false ∨ s.m.mode = .sleep ∨ s.m.macAccepts p pay = false)) ∧
    (∃ (p : Fin 3) (s : State), s.m.portOn p = true) ∧
    (∃ (p : Fin 3) (s : State), s.m.portOn p = false) ∧
    (∃ (c : Fin 4) (s : State), s.m.portOn (3 + c.val) = true) ∧
    (∃ (c : Fin 4) (s : State), s.m.portOn (3 + c.val) = false) ∧
    (∃ (s : State), s.m.portOn 2 = true ∧ s.m.bit (Reg.NET_P_CFG 2) 27 = true) ∧
    (∃ (s : State), (s.m.portOn 2 = false ∨ s.m.bit (Reg.NET_P_CFG 2) 27 = false)) :=
  ⟨⟨3, 0, none, false, 7, [1], st ([(Reg.NET_P_CFG 3,
    0x80000000)] ++ []) fun m => (live m).onNet fun n => { n with ports := upd n.ports 3 fun p => { p with queue := [] } },
    by decide⟩,
   ⟨3, 0, none, false, 7, [1], st ([(Reg.NET_P_CFG 3, 0x80000000)] ++ [(Reg.NET_FLOW_W0 9, 0x89800000), (Reg.NET_FLOW_W1 9,
    7)]) fun m => (live m).onNet fun n => { n with ports := upd n.ports 3 fun p => { p with queue := [] } }, 9, by decide⟩,
   ⟨3, 0, none, false, 7, [1], st ([(Reg.NET_P_CFG 3, 0x80000000)] ++ [(Reg.NET_FLOW_W0 9, 0xA1800000), (Reg.NET_FLOW_W1 9,
    7)]) fun m => (live m).onNet fun n => { n with ports := upd n.ports 3 fun p => { p with queue := [] } }, 9, by decide⟩,
   ⟨3, 0, none, false, 7, List.replicate 65 1, st ([(Reg.NET_P_CFG 3, 0x80000000)] ++ [(Reg.NET_FLOW_W0 9, 0xA1800000),
    (Reg.NET_FLOW_W1 9,
    7)]) fun m => (live m).onNet fun n => { n with ports := upd n.ports 3 fun p => { p with queue := [] } }, 9, by decide⟩,
   ⟨3, 0, none, false, 7, [1], st ([(Reg.NET_P_CFG 3, 0x80000000)] ++ [(Reg.NET_FLOW_W0 9, 0x81800000), (Reg.NET_FLOW_W1 9,
    7)]) fun m => (live m).onNet fun n => { n with ports := upd n.ports 3 fun p => { p with queue := [] } }, 9, by decide⟩,
   ⟨3, [1], st [], by decide⟩,
   ⟨0, st [(Reg.NET_P_CFG 0, 0x80000000)] live, by decide⟩,
   ⟨0, st [], by decide⟩,
   ⟨0, on (fun m => (live m).wrN (Reg.NET_P_CFG 3) 0x80000000) State.reset, by decide⟩,
   ⟨0, State.reset, by decide⟩,
   ⟨st [(Reg.NET_P_CFG 2, 0x88000000)] live, by decide⟩,
   ⟨st [], by decide⟩⟩

theorem test_hypotheses_of_memoryErrorsAndScrub :
    (∃ (s : State),
      let line := s.m.fld Reg.DMA_SCRUB 25 0
      s.m.dmaRuns = true ∧ s.m.poisoned (64 * line) 64 = false ∧ line < 2 ^ 26 - 1) ∧
    (∃ (s : State),
      let line := s.m.fld Reg.DMA_SCRUB 25 0
      s.m.dmaRuns = true ∧ s.m.poisoned (64 * line) 64 = false ∧ line = 2 ^ 26 - 1) ∧
    (∃ (s : State),
      let line := s.m.fld Reg.DMA_SCRUB 25 0
      s.m.dmaRuns = true ∧ s.m.dma.poison.contains (2 * line) = true ∧ s.m.dma.poison.contains (2 * line + 1) = false ∧
      line < 2 ^ 26 - 1) ∧
    (∃ (s : State), s.m.dmaRuns = false) ∧
    (∃ (ns : Nat) (s : State), s.m.refreshNs < ns) ∧
    (∃ (ns : Nat) (s : State), ns ≤ s.m.refreshNs) :=
  ⟨⟨st [(Reg.DMA_SCRUB, 0x3FFFFFE)] live, by decide⟩,
   ⟨st [(Reg.DMA_SCRUB, 0x3FFFFFF)] live, by decide⟩,
   ⟨st [(Reg.DMA_SCRUB, 9)] fun m => (live m).onDma fun d => { d with poison := [18] }, by decide⟩,
   ⟨st [], by decide⟩,
   ⟨3905, st [], by decide⟩,
   ⟨3904, st [], by decide⟩⟩

theorem test_hypotheses_of_ringCommandsStreamsAndInvalidation :
    (∃ (l : Lane) (r : Fin 16) (s : State), s.m.ringState l r ≠ 2) ∧
    (∃ (l : Lane) (r : Fin 16) (s : State), s.m.ringState l r = 0) ∧
    (∃ (l : Lane) (r : Fin 16) (s : State), s.m.ringState l r ≠ 3) ∧
    (∃ (l : Lane) (r : Fin 16) (s : State) (a : DmaActive) (x : DmaTxn) (c tail : Nat),
      let srcs := if a.desc.op = 0 ∨ a.desc.op = 3 then pageParts (a.desc.src + x.off) x.size else []
      let dsts := if a.desc.op = 3 then [] else pageParts (a.desc.dst + x.off + x.written) (x.size - x.written)
      s.m.ringState l r = 2 ∧ (s.m.dma.lanes.get l).rings[r.val]? = some (s.m.ring l r) ∧ (s.m.ring l r).active = [a] ∧
      (s.m.ring l r).parked = [x] ∧ x.seq = a.desc.seq ∧ a.desc.op ≠ 4 ∧ c = s.m.fld (Reg.DMA_R_CFG l.ix r) 19 18 ∧
      tail = s.m.fld (Reg.DMA_R_TAIL l.ix r) 11 0 ∧ (s.m.rd (Reg.DMA_L_CTX_HI l.ix c)).bits 31 28 ≠ 8 ∧
      NothingFollows s l r tail ∧ (∀ p ∈ srcs, s.m.dmaReach l false p.1 = true) ∧ (∀ p ∈ dsts,
      s.m.dmaReach l true p.1 = true)) ∧
    (∃ (l : Lane) (r : Fin 16) (s : State), s.m.ringState l r ≠ 0 ∧ (s.m.dma.lanes.get l).rings[r.val]? = some (s.m.ring l r) ∧
      (s.m.ring l r).active = []) ∧
    (∃ (l : Lane) (r : Fin 16) (s : State) (a : DmaActive), s.m.ringState l r ≠ 0 ∧
      (s.m.dma.lanes.get l).rings[r.val]? = some (s.m.ring l r) ∧ (s.m.ring l r).active = [a] ∧
      (s.m.ring l r).out.any (fun t => t.seq == a.desc.seq) = true) ∧
    (∃ (l : Lane) (r : Fin 16) (s : State) (a : DmaActive), s.m.ringState l r ≠ 0 ∧
      (s.m.dma.lanes.get l).rings[r.val]? = some (s.m.ring l r) ∧ (s.m.ring l r).active = [a] ∧
      (s.m.ring l r).out.any (fun t => t.seq == a.desc.seq) = false ∧ s.m.bit (Reg.DMA_R_CFG l.ix r) 23 = false) ∧
    (∃ (l : Lane) (r : Fin 16) (s : State), s.m.ringState l r = 3 ∧ (s.m.dma.lanes.get l).rings[r.val]? = some (s.m.ring l r) ∧
      NothingFollows s l r (s.m.fld (Reg.DMA_R_TAIL l.ix r) 11 0)) ∧
    (∃ (l : Lane) (r : Fin 16) (s : State) (o : Offer) (d : DmaDesc) (rest : List DmaDesc),
      let n := (o.bytes.length + 255) / 256
      (s.m.offers.find? fun o => o.lane == l && o.ring == r.val) = some o ∧
      (s.m.dma.lanes.get l).rings[r.val]? = some (s.m.ring l r) ∧ s.m.ringState l r = 1 ∧
      s.m.fld (Reg.DMA_R_CFG l.ix r) 27 25 = o.port ∧ (s.m.ring l r).fetched = d :: rest ∧ d.op = 2 ∧ d.bad = false ∧
      s.m.cqFree l r = true ∧ (s.m.ring l r).out.length + n ≤ 32 ∧ s.m.dmaRoom l 2 n = true ∧ (d.flags < 2 ∨
      (s.m.ring l r).active = [])) ∧
    (∃ (l : Lane) (r : Fin 16) (s : State) (o : Offer), (s.m.offers.find? fun o => o.lane == l && o.ring == r.val) = some o ∧
      (s.m.dma.lanes.get l).rings[r.val]? = some (s.m.ring l r) ∧ (s.m.ringState l r ≠ 1 ∨
      s.m.fld (Reg.DMA_R_CFG l.ix r) 27 25 ≠ o.port ∨ (s.m.ring l r).fetched = [] ∨ s.m.cqFree l r = false)) ∧
    (∃ (l : Lane) (r : Fin 16) (s : State), (s.m.offers.find? fun o => o.lane == l && o.ring == r.val) = none) :=
  ⟨⟨.a, 3, ring [] 1 id, by decide⟩,
   ⟨.a, 3, ring [] 0 id, by decide⟩,
   ⟨.a, 3, ring [] 1 id, by decide⟩,
   ⟨.a, 3, ring [] 2 fun g => { g with active := [flight 300], parked := [⟨7, 0, 256, 16, [], []⟩] }, flight 300, ⟨7, 0, 256,
    16, [], []⟩, 0, 0, by decide⟩,
   ⟨.a, 3, ring [] 3 id, by decide⟩,
   ⟨.a, 3, ring [] 3 fun g => { g with active := [flight 256], out := [⟨7, 0, 256, 0, [], [(0x90000000, 256)]⟩] }, flight 256,
    by decide⟩,
   ⟨.a, 3, ring [] 3 fun g => { g with active := [flight 256] }, flight 256, by decide⟩,
   ⟨.a, 3, ring [] 3 id, by decide⟩,
   ⟨.a, 3, on (fun m => m.onOffers fun _ => [⟨.a, 3, 4, [1, 2, 3]⟩]) (ring [(Reg.DMA_R_CFG 0 3,
    1 + 3 * 2 ^ 14 + 4 * 2 ^ 25)] 1 fun g => { g with fetched := [desc 2] }), ⟨.a, 3, 4, [1, 2, 3]⟩, desc 2, [], by decide⟩,
   ⟨.a, 3, on (fun m => m.onOffers fun _ => [⟨.a, 3, 4, [1, 2, 3]⟩]) (ring [] 2 id), ⟨.a, 3, 4, [1, 2, 3]⟩, by decide⟩,
   ⟨.a, 3, ring [] 1 id, by decide⟩⟩

set_option maxRecDepth 100000 in
theorem test_hypotheses_of_ringsFetchIssueMoveAndRecord :
    (∃ (l : Lane) (r : Fin 16) (s : State), s.m.ringState l r ≠ 1 ∧ (∀ a ∈ (s.m.ring l r).active.head?, a.desc.op ≠ 4)) ∧
    (∃ (l : Lane) (r : Fin 16) (v : Word) (s : State), s.m.ringState l r = 1 ∧
      (s.m.dma.lanes.get l).rings[r.val]? = some (s.m.ring l r) ∧ NothingFollows s l r (v.bits 11 0 % s.m.ringSize l r)) ∧
    (∃ (l : Lane) (r : Fin 16) (v : Word) (s : State) (d : DmaDesc), s.m.ringState l r = 1 ∧ (s.m.ring l r).fetched = [] ∧
      (s.m.ring l r).active = [] ∧ s.m.bit (Reg.DMA_R_CFG l.ix r) 23 = false ∧
      (s.m.dma.lanes.get l).rings[r.val]? = some (s.m.ring l r) ∧ posted s l r (v.bits 11 0 % s.m.ringSize l r) = [d] ∧
      d.bad = false ∧ d.op = 4) ∧
    (∃ (l : Lane) (r : Fin 16) (v : Word) (s : State) (d : DmaDesc), s.m.ringState l r = 1 ∧ (s.m.ring l r).fetched = [] ∧
      (s.m.ring l r).active = [] ∧ s.m.bit (Reg.DMA_R_CFG l.ix r) 23 = false ∧
      (s.m.dma.lanes.get l).rings[r.val]? = some (s.m.ring l r) ∧ posted s l r (v.bits 11 0 % s.m.ringSize l r) = [d] ∧
      d.bad = true) ∧
    (∃ (l : Lane) (r : Nat) (s : State) (a b : DmaActive) (rest : List DmaDesc),
      let n := min 256 (b.len - b.issued)
      let srcs := if b.desc.op = 0 ∨ b.desc.op = 3 then pageParts (b.desc.src + b.issued) n else []
      let dsts := if b.desc.op = 3 then [] else pageParts (b.desc.dst + b.issued) n
      s.m.dmaRuns = true ∧ s.m.chooseRing l = some r ∧ ((s.m.ring l r).active = [a] ∧ a.issued < a.len ∧ b = a ∧
      rest = (s.m.ring l r).fetched ∨ (s.m.ring l r).active = [] ∧ (s.m.ring l r).fetched = b.desc :: rest ∧ b = ⟨b.desc, 0,
      none, [], b.desc.len, 0, 0, []⟩ ∧ 0 < b.len) ∧ (s.m.dma.lanes.get l).rings[r]? = some (s.m.ring l r) ∧ b.desc.op ≠ 4 ∧
      (s.m.rd (Reg.DMA_L_CTX_HI l.ix (s.m.fld (Reg.DMA_R_CFG l.ix r) 19 18))).bits 31 28 ≠ 8 ∧ (∀ p ∈ srcs,
      s.m.dmaReach l false p.1 = true) ∧ (∀ p ∈ dsts, s.m.dmaReach l true p.1 = true)) ∧
    (∃ (l : Lane) (s : State), (s.m.dmaRuns = false ∨ s.m.chooseRing l = none)) ∧
    (∃ (l : Lane) (r : Nat) (s : State) (a : DmaActive) (c e fh : Nat), Memory.wf s.mem = true ∧ s.m.dmaRuns = true ∧
      s.m.chooseRing l = some r ∧ (s.m.ring l r).active = [a] ∧ a.issued < a.len ∧ a.desc.op = 1 ∧ a.chunks = [] ∧
      (s.m.dma.lanes.get l).rings[r]? = some (s.m.ring l r) ∧ c = s.m.fld (Reg.DMA_R_CFG l.ix r) 19 18 ∧
      (s.m.translate s.mem l c (a.desc.dst + a.issued) true).cause = e ∧ e ≠ 0 ∧ e ≠ 10 ∧
      fh = s.m.fld (Reg.DMA_L_FRHEAD l.ix) 9 0 ∧ fh + 1 < 2 ^ s.m.fld (Reg.DMA_L_FRCFG l.ix) 3 0 ∧
      s.m.fld (Reg.DMA_L_FRTAIL l.ix) 9 0 = 0 ∧ 2 ^ s.m.fld (Reg.DMA_L_FRCFG l.ix) 3 0 ≤ 1024) ∧
    (∃ (l : Lane) (r : Fin 16) (i : Fin 32) (s : State) (a : DmaActive) (x : DmaTxn) (pa : Nat), Memory.wf s.mem = true ∧
      s.m.dmaRuns = true ∧ (s.m.ring l r).active = [a] ∧ (s.m.ring l r).out[i.val]? = some x ∧ x.seq = a.desc.seq ∧
      (s.m.dma.lanes.get l).rings[r.val]? = some (s.m.ring l r) ∧ s.m.dma.poison = [] ∧ x.written = 0 ∧
      (txnBytes s a x).length = x.size ∧ (x.writes = [(pa, x.size)] ∨ x.writes = []) ∧ (a.issued < a.len ∨
      (∃ y ∈ (s.m.ring l r).out.eraseIdx i, y.seq = a.desc.seq))) ∧
    (∃ (l : Lane) (r : Fin 16) (i : Fin 32) (s : State) (a : DmaActive) (x : DmaTxn) (pa : Nat), Memory.wf s.mem = true ∧
      s.m.dmaRuns = true ∧ (s.m.ring l r).active = [a] ∧ (s.m.ring l r).out[i.val]? = some x ∧ x.seq = a.desc.seq ∧
      (s.m.dma.lanes.get l).rings[r.val]? = some (s.m.ring l r) ∧ s.m.dma.poison = [] ∧ x.written = 0 ∧
      (txnBytes s a x).length = x.size ∧ (x.writes = [(pa, x.size)] ∨ x.writes = []) ∧ a.len ≤ a.issued ∧
      (s.m.ring l r).out = [x] ∧ (s.m.ring l r).fetched = [] ∧ (s.m.ring l r).parked = [] ∧ a.chunks = [] ∧ a.status = 0 ∧
      a.issueAt.isSome = true ∧ s.m.bit (Reg.DMA_R_CFG l.ix r) 23 = false ∧ x.size ≤ 256 ∧ (a.desc.op = 3 →
      s.m.fld (Reg.DMA_R_CFG l.ix r) 27 25 ≠ 3)) ∧
    (∃ (l : Lane) (r : Fin 16) (s : State) (a : DmaActive) (x : DmaTxn), s.m.dmaRuns = true ∧ (s.m.ring l r).active = [a] ∧
      (s.m.ring l r).out = [x] ∧ x.seq = a.desc.seq ∧ a.desc.op = 3 ∧ a.len ≤ a.issued ∧ (s.m.ring l r).fetched = [] ∧
      (s.m.ring l r).parked = [] ∧ a.chunks = [] ∧ a.status = 0 ∧ x.writes = [] ∧ s.m.dma.poison = [] ∧
      s.m.fld (Reg.DMA_R_CFG l.ix r) 27 25 = 3 ∧ s.m.bit (Reg.DMA_R_CFG l.ix r) 23 = false ∧ s.alone l ∧
      s.m.txFlow (a.desc.param % 64) = true ∧ (txnBytes s a x).length ≤ s.m.portMax (s.m.flowPort (a.desc.param % 64)) ∧
      (s.m.port (s.m.flowPort (a.desc.param % 64))).queue.length < 32) ∧
    (∃ (l : Lane) (r : Fin 16) (s : State) (a : DmaActive) (x : DmaTxn), s.m.dmaRuns = true ∧ (s.m.ring l r).active = [a] ∧
      (s.m.ring l r).out = [x] ∧ x.seq = a.desc.seq ∧ (s.m.ring l r).fetched = [] ∧
      (s.m.dma.lanes.get l).rings[r.val]? = some (s.m.ring l r) ∧ s.m.bit (Reg.DMA_R_CFG l.ix r) 23 = false ∧
      (x.reads.any fun p => s.m.poisoned p.1 p.2) = true ∧ (s.m.ring l r).parked = []) ∧
    (∃ (l : Lane) (r : Fin 16) (i : Fin 32) (s : State), (s.m.dmaRuns = false ∨ (s.m.ring l r).out[i.val]? = none)) ∧
    (∃ (l : Lane) (r : Fin 16) (s : State) (y : Nat × List Nat × Bool), Memory.wf s.mem = true ∧ s.m.dmaRuns = true ∧
      s.m.nextRecord l r = some y ∧ (s.m.dma.lanes.get l).rings[r.val]? = some (s.m.ring l r) ∧ s.m.cqFree l r = true ∧
      y.2.1.length = 32 ∧ (∀ b ∈ y.2.1, b < 256)) ∧
    (∃ (l : Lane) (r : Fin 16) (s : State), (s.m.dmaRuns = false ∨ s.m.nextRecord l r = none ∨ s.m.cqFree l r = false)) :=
  ⟨⟨.a, 3, ring [] 0 id, by decide⟩,
   ⟨.a, 3, 1#32, bytes 0x80000000 (descBytes 1) (ring [] 1 id), by decide⟩,
   ⟨.a, 3, 1#32, bytes 0x80000000 (descBytes 4) (ring [] 1 id), ⟨0, 0, 0, 0x90000000, 300, 5, 4, 1, 0x04030201, false⟩,
    by decide⟩,
   ⟨.a, 3, 1#32, bytes 0x80000000 (descBytes 9) (ring [] 1 id), ⟨0, 0, 0, 0x90000000, 300, 5, 9, 1, 0x04030201, true⟩,
    by decide⟩,
   ⟨.a, 3, ring [] 1 fun g => { g with active := [flight 0] }, flight 0, flight 0, [], by decide⟩,
   ⟨.a, ring [] 1 id, by decide⟩,
   ⟨.a, 3, ring [(Reg.DMA_L_FRCFG 0, 4), (Reg.DMA_MEMCFG,
    0x1010)] 1 fun g => { g with active := [{ flight 0 with desc := { desc 1 with dst := 0x50000000 } }] },
    { flight 0 with desc := { desc 1 with dst := 0x50000000 }, chunks := [] }, 0, 9, 0, by decide⟩,
   ⟨.a, 3, 0, ring [] 1 fun g => { g with active := [flight 256], out := [⟨7, 0, 256, 0, [], [(0x90000000, 256)]⟩] },
    flight 256, ⟨7, 0, 256, 0, [], [(0x90000000, 256)]⟩, 0x90000000, by decide⟩,
   ⟨.a, 3, 0, ring [] 1 fun g => { g with active := [flight 300], out := [⟨7, 256, 44, 0, [], [(0x90000100, 44)]⟩] },
    flight 300, ⟨7, 256, 44, 0, [], [(0x90000100, 44)]⟩, 0x90000100, by decide⟩,
   ⟨.a, 3, on solo (ring [(Reg.DMA_R_CFG 0 3, 1 + 3 * 2 ^ 14 + 3 * 2 ^ 25), (Reg.NET_FLOW_W0 5, 0xC1800000), (Reg.NET_P_CFG 3,
    0x80000000)] 1 fun g => { g with active := [{ flight 8 with desc := { desc 3 with param := 5, len := 8 }, len := 8 }], out := [⟨7, 0, 8, 0, [(0x90000000, 8)], []⟩] }),
    { flight 8 with desc := { desc 3 with param := 5, len := 8 }, len := 8 }, ⟨7, 0, 8, 0, [(0x90000000, 8)], []⟩,
    by decide⟩,
   ⟨.a, 3, on (fun m => m.onDma fun d => { d with poison := [0x90000000 / 32] }) (ring [(Reg.DMA_R_CFG 0 3,
    1 + 3 * 2 ^ 14 + 3 * 2 ^ 25), (Reg.NET_FLOW_W0 5, 0xC1800000), (Reg.NET_P_CFG 3,
    0x80000000)] 1 fun g => { g with active := [{ flight 8 with desc := { desc 3 with param := 5, len := 8 }, len := 8 }], out := [⟨7, 0, 8, 0, [(0x90000000, 8)], []⟩] }),
    { flight 8 with desc := { desc 3 with param := 5, len := 8 }, len := 8 }, ⟨7, 0, 8, 0, [(0x90000000, 8)], []⟩,
    by decide⟩,
   ⟨.a, 3, 0, ring [] 1 id, by decide⟩,
   ⟨.a, 3, ring [] 1 fun g => { g with ready := [(7, List.range 32, true)] }, (7, List.range 32, true), by decide⟩,
   ⟨.a, 3, ring [] 1 id, by decide⟩⟩

theorem test_hypotheses_of_checkValueScans :
    (∃ (l : Lane) (u : Fin 4) (s : State),
      let w := s.m.crcWidth l u
      8 ≤ w ∧ w ≤ 64 ∧ s.m.rd (Reg.CRC_U_LEN l.ix u) ≠ 0#32 ∧ s.m.crcState l u ≠ 1 ∧
      (s.m.dma.lanes.get l).units[u.val]? = some (nth (s.m.dma.lanes.get l).units u)) ∧
    (∃ (l : Lane) (u : Fin 4) (s : State),
      let w := s.m.crcWidth l u
      (w < 8 ∨ 64 < w ∨ s.m.rd (Reg.CRC_U_LEN l.ix u) = 0#32 ∨ s.m.crcState l u = 1)) ∧
    (∃ (l : Lane) (u : Fin 4) (s : State) (pos len n c : Nat),
      let a := s.m.rd64 (Reg.CRC_U_ADDR_LO l.ix u) (Reg.CRC_U_ADDR_HI l.ix u) + pos
      s.m.dmaRuns = true ∧ s.m.crcState l u = 1 ∧ (s.m.dma.lanes.get l).units[u.val]? = some (nth (s.m.dma.lanes.get l).units u) ∧
      (s.m.rd (Reg.CRC_U_POS l.ix u)).toNat = pos ∧ (s.m.rd (Reg.CRC_U_LEN l.ix u)).toNat = len ∧ pos < len ∧
      n = min 64 (len - pos) ∧ c = s.m.fld (Reg.CRC_U_CFG l.ix u) 19 18 ∧
      (s.m.rd (Reg.DMA_L_CTX_HI l.ix c)).bits 31 28 ≠ 8 ∧ (∀ p ∈ pageParts a n, s.m.dmaReach l false p.1 = true) ∧
      (∀ p ∈ pageParts a n, s.m.poisoned p.1 p.2 = false)) ∧
    (∃ (l : Lane) (u : Fin 4) (s : State) (pos len n c : Nat),
      let a := s.m.rd64 (Reg.CRC_U_ADDR_LO l.ix u) (Reg.CRC_U_ADDR_HI l.ix u) + pos
      s.m.dmaRuns = true ∧ s.m.crcState l u = 1 ∧ (s.m.dma.lanes.get l).units[u.val]? = some (nth (s.m.dma.lanes.get l).units u) ∧
      (s.m.rd (Reg.CRC_U_POS l.ix u)).toNat = pos ∧ (s.m.rd (Reg.CRC_U_LEN l.ix u)).toNat = len ∧ pos < len ∧
      n = min 64 (len - pos) ∧ c = s.m.fld (Reg.CRC_U_CFG l.ix u) 19 18 ∧
      (s.m.rd (Reg.DMA_L_CTX_HI l.ix c)).bits 31 28 ≠ 8 ∧ (∀ p ∈ pageParts a n, s.m.dmaReach l false p.1 = true) ∧
      (pageParts a n).any (fun p => s.m.poisoned p.1 p.2) = true) ∧
    (∃ (l : Lane) (u : Fin 4) (s : State) (pos len n c : Nat),
      let a := s.m.rd64 (Reg.CRC_U_ADDR_LO l.ix u) (Reg.CRC_U_ADDR_HI l.ix u) + pos
      s.m.dmaRuns = true ∧ s.m.crcState l u = 1 ∧ (s.m.dma.lanes.get l).units[u.val]? = some (nth (s.m.dma.lanes.get l).units u) ∧
      (s.m.rd (Reg.CRC_U_POS l.ix u)).toNat = pos ∧ (s.m.rd (Reg.CRC_U_LEN l.ix u)).toNat = len ∧ pos < len ∧
      n = min 64 (len - pos) ∧ c = s.m.fld (Reg.CRC_U_CFG l.ix u) 19 18 ∧ (s.m.translate s.mem l c a false).cause ≠ 0 ∧
      (s.m.translate s.mem l c a false).cause ≠ 10) ∧
    (∃ (l : Lane) (u : Fin 4) (s : State), s.m.dmaRuns = true ∧ s.m.crcState l u = 1 ∧
      (s.m.rd (Reg.CRC_U_LEN l.ix u)).toNat ≤ (s.m.rd (Reg.CRC_U_POS l.ix u)).toNat) ∧
    (∃ (l : Lane) (u : Fin 4) (s : State), (s.m.dmaRuns = false ∨ s.m.crcState l u ≠ 1)) :=
  ⟨⟨.a, 1, crc [], by decide⟩,
   ⟨.a, 1, crc [(Reg.CRC_U_STAT 0 1, 1)], by decide⟩,
   ⟨.a, 1, crc [(Reg.CRC_U_STAT 0 1, 1)], 0, 9, 9, 0, by decide⟩,
   ⟨.a, 1, on (fun m => m.onDma fun d => { d with poison := [0x90000000 / 32] }) (crc [(Reg.CRC_U_STAT 0 1, 1)]), 0, 9, 9, 0,
    by decide⟩,
   ⟨.a, 1, crc ([(Reg.CRC_U_STAT 0 1, 1)] ++ [(Reg.CRC_U_ADDR_LO 0 1, 0x50000000), (Reg.DMA_MEMCFG, 0x1010)]), 0, 9, 9, 0,
    by decide⟩,
   ⟨.a, 1, crc ([(Reg.CRC_U_STAT 0 1, 1)] ++ [(Reg.CRC_U_POS 0 1, 9)]), by decide⟩,
   ⟨.a, 1, crc [], by decide⟩⟩

theorem test_hypotheses_of_theTimebaseRisesEveryCycle :
    (∃ (m : Mach) (c : Nat), m.time.f < 2 ^ 32 ∧ -4294967 ≤ m.rdS Reg.TIME_RATE ∧ m.rdS Reg.TIME_RATE ≤ 4294967 ∧
      m.time.cyc ≤ c) ∧
    (∃ (m : Mach) (c : Nat), m.time.f < 2 ^ 32 ∧ -4294967 ≤ m.rdS Reg.TIME_RATE ∧ m.rdS Reg.TIME_RATE ≤ 4294967 ∧
      c ≤ m.time.cyc) :=
  ⟨⟨(st []).m, 5, by decide⟩,
   ⟨(st []).m, 0, by decide⟩⟩

theorem test_hypotheses_of_rateAndSlewOfTheTimebase :
    (∃ (l : Lane) (v : Word) (s : State), s.m.route l = .now ∧ -4294967 ≤ v.toInt ∧ v.toInt ≤ 4294967) ∧
    (∃ (l : Lane) (v : Word) (s : State), s.m.route l = .now ∧ (4294967 < v.toInt ∨ v.toInt < -4294967)) :=
  ⟨⟨.a, 4294967#32, st [] solo, by decide⟩,
   ⟨.a, 4294968#32, st [] solo, by decide⟩⟩

set_option maxRecDepth 100000 in
theorem test_hypotheses_of_eventsReachTheCatalogue :
    (∃ (i : Nat) (s : State) (e : Event), s.m.time.raised[i]? = some e ∧ ((s.m.capState ≠ 1 ∧ s.m.capState ≠ 2) ∨
      s.m.capMatches e = false ∨ e.time < s.m.time.armedSince)) ∧
    (∃ (i : Nat) (s : State), s.m.time.raised[i]? = none) ∧
    (∃ (cyc : Nat) (s : State) (e : Event), firstEvent s.m.time.collator = some e ∧ (s.at cyc).now < e.time + 4000) ∧
    (∃ (cyc : Nat) (s : State) (e : Event), firstEvent s.m.time.collator = some e ∧ e.time + 4000 ≤ (s.at cyc).now ∧
      s.m.time.queue.length < 512 ∧ s.m.time.flashQueue.length < 64) ∧
    (∃ (cyc : Nat) (s : State) (e : Event), firstEvent s.m.time.collator = some e ∧ e.time + 4000 ≤ (s.at cyc).now ∧
      512 ≤ s.m.time.queue.length ∧ s.m.time.flashQueue.length < 64) ∧
    (∃ (cyc : Nat) (s : State) (e : Event),
      let goes := 1 ≤ e.cls ∨ e.code = 0x3C01
      firstEvent s.m.time.collator = some e ∧ e.time + 4000 ≤ (s.at cyc).now ∧ s.m.time.queue.length < 512 ∧
      64 ≤ s.m.time.flashQueue.length ∧ goes) ∧
    (∃ (s : State), s.m.time.collator = []) ∧
    (∃ (n : Nat) (s : State) (r : Nat) (l : Lane) (d : DmaDesc) (rest : List DmaDesc),
      let recs := s.m.time.queue.take (min (max n 1) 64)
      let bytes := recs.flatMap fun q => q.1.record q.2
      let k := (bytes.length + 255) / 256
      s.m.bit Reg.TIME_CATCFG 31 = true ∧ r = s.m.fld Reg.TIME_CATCFG 3 0 ∧ s.m.service = l ∧ s.m.time.queue ≠ [] ∧
      (s.m.dma.lanes.get l).rings[r]? = some (s.m.ring l r) ∧ s.m.ringState l r = 1 ∧
      s.m.fld (Reg.DMA_R_CFG l.ix r) 27 25 = 4 ∧ (s.m.ring l r).fetched = d :: rest ∧ d.op = 2 ∧ d.bad = false ∧
      s.m.cqFree l r = true ∧ (s.m.ring l r).out.length + k ≤ 32 ∧ s.m.dmaRoom l 2 k = true ∧ (d.flags < 2 ∨
      (s.m.ring l r).active = [])) ∧
    (∃ (s : State) (r : Nat) (l : Lane), s.m.bit Reg.TIME_CATCFG 31 = true ∧ r = s.m.fld Reg.TIME_CATCFG 3 0 ∧ s.m.service = l ∧
      s.m.time.queue ≠ [] ∧ (s.m.dma.lanes.get l).rings[r]? = some (s.m.ring l r) ∧ (s.m.ringState l r ≠ 1 ∨
      s.m.fld (Reg.DMA_R_CFG l.ix r) 27 25 ≠ 4 ∨ (s.m.ring l r).fetched = [] ∨ s.m.cqFree l r = false)) ∧
    (∃ (s : State), (s.m.bit Reg.TIME_CATCFG 31 = false ∨ s.m.time.queue = [])) ∧
    (∃ (s : State) (q : Event × Nat) (rest : List (Event × Nat)), Memory.wf s.mem = true ∧ s.m.time.flashQueue = q :: rest ∧
      q.1.data.length ≤ 10 ∧ s.m.time.flashSlot < 127) ∧
    (∃ (s : State) (q : Event × Nat) (rest : List (Event × Nat)), Memory.wf s.mem = true ∧ s.m.time.flashQueue = q :: rest ∧
      q.1.data.length ≤ 10 ∧ 127 ≤ s.m.time.flashSlot) ∧
    (∃ (s : State), s.m.time.flashQueue = []) :=
  ⟨⟨0, timed [] fun t => { t with raised := [event 3 0x3405 2] }, event 3 0x3405 2, by decide⟩,
   ⟨0, st [], by decide⟩,
   ⟨5, timed [] fun t => { t with collator := [event 3 0x3405 2] }, event 3 0x3405 2, by decide⟩,
   ⟨5, timed [] fun t => { t with t := 4003, collator := [event 3 0x3405 2] }, event 3 0x3405 2, by decide⟩,
   ⟨5,
    timed [] fun t => { t with t := 4003, collator := [event 3 0x3405 2], queue := List.replicate 512 (event 3 0x3405 2, 9) },
    event 3 0x3405 2, by decide⟩,
   ⟨5,
    timed [] fun t => { t with t := 4003, collator := [event 3 0x3405 2], flashQueue := List.replicate 64 (event 3 0x3405 2, 9) },
    event 3 0x3405 2, by decide⟩,
   ⟨st [], by decide⟩,
   ⟨1, on (fun m => m.onTime fun t => { t with queue := [(event 3 0x3405 2, 9)] }) (ring ([(Reg.TIME_CATCFG,
    0x80000003)] ++ [(Reg.DMA_R_CFG 0 3, 1 + 3 * 2 ^ 14 + 4 * 2 ^ 25)]) 1 fun g => { g with fetched := [desc 2] }), 3, .a,
    desc 2, [], by decide⟩,
   ⟨on (fun m => m.onTime fun t => { t with queue := [(event 3 0x3405 2, 9)] }) (ring ([(Reg.TIME_CATCFG,
    0x80000003)] ++ []) 2 fun g => { g with dropping := true }), 3, .a, by decide⟩,
   ⟨st [], by decide⟩,
   ⟨timed [] fun t => { t with flashSlot := 126, flashQueue := [(event 3 0x3405 2, 9)] }, (event 3 0x3405 2, 9), [], by decide⟩,
   ⟨timed [] fun t => { t with flashSlot := 127, flashQueue := [(event 3 0x3405 2, 9)] }, (event 3 0x3405 2, 9), [], by decide⟩,
   ⟨st [], by decide⟩⟩

theorem test_hypotheses_of_theFaultCaptureRuns :
    (∃ (l : Lane) (s : State), s.m.route l = .now ∧ s.m.capState ≠ 1 ∧ s.m.capState ≠ 2 ∧ s.m.capState ≠ 4) ∧
    (∃ (l : Lane) (s : State), s.m.route l = .now ∧ (s.m.capState = 1 ∨ s.m.capState = 2)) ∧
    (∃ (l : Lane) (s : State), s.m.route l = .now ∧ s.m.capState = 4) ∧
    (∃ (i : Nat) (s : State) (e : Event), s.m.time.raised[i]? = some e ∧ ((s.m.fld Reg.TIME_CAPCFG 28 26 ≤ 4 ∧
      s.m.fld Reg.TIME_CAPCFG 28 26 ≤ e.cls) ∨ (s.m.bit Reg.TIME_CAPTRIG 31 = true ∧
      s.m.fld Reg.TIME_CAPTRIG 15 0 = e.code)) ∧ s.m.time.armedSince ≤ e.time ∧ s.m.capState = 1) ∧
    (∃ (i : Nat) (s : State) (e x : Event), s.m.time.raised[i]? = some e ∧ ((s.m.fld Reg.TIME_CAPCFG 28 26 ≤ 4 ∧
      s.m.fld Reg.TIME_CAPCFG 28 26 ≤ e.cls) ∨ (s.m.bit Reg.TIME_CAPTRIG 31 = true ∧
      s.m.fld Reg.TIME_CAPTRIG 15 0 = e.code)) ∧ s.m.time.armedSince ≤ e.time ∧ s.m.capState = 2 ∧
      s.m.time.trigger = some x ∧ e.before x = true ∧ e ≠ x) ∧
    (∃ (i : Nat) (s : State) (e x : Event), s.m.time.raised[i]? = some e ∧ ((s.m.fld Reg.TIME_CAPCFG 28 26 ≤ 4 ∧
      s.m.fld Reg.TIME_CAPCFG 28 26 ≤ e.cls) ∨ (s.m.bit Reg.TIME_CAPTRIG 31 = true ∧
      s.m.fld Reg.TIME_CAPTRIG 15 0 = e.code)) ∧ s.m.time.armedSince ≤ e.time ∧ s.m.capState = 2 ∧
      s.m.time.trigger = some x ∧ (e.before x = false ∨ e = x)) ∧
    (∃ (s : State), s.m.capState = 2 ∧ s.m.time.trigPlaced = true ∧ s.m.time.postLeft = 0) ∧
    (∃ (s : State), (s.m.capState ≠ 2 ∨ s.m.time.trigPlaced = false ∨ s.m.time.postLeft ≠ 0)) ∧
    (∃ (s : State), Memory.wf s.mem = true ∧ s.m.capState = 4 ∧ s.m.time.lines.length ≤ 1024 ∧ (∀ x ∈ s.m.time.lines,
      x.words.length = 16) ∧ (s.m.time.trigger.all fun e => e.data.length ≤ 10) = true) ∧
    (∃ (s : State), s.m.capState ≠ 4) :=
  ⟨⟨.a, st [] solo, by decide⟩,
   ⟨.a, timed [(Reg.TIME_CAPSTAT, 0x20000000), (Reg.TIME_CAPCFG, 0x08030000)] fun t => { t with lines := [line 2] }, by decide⟩,
   ⟨.a, timed [(Reg.TIME_CAPSTAT, 0x80000000), (Reg.TIME_CAPCFG, 0x08030000)] fun t => { t with lines := [line 2] }, by decide⟩,
   ⟨0, timed [(Reg.TIME_CAPSTAT, 0x20000000), (Reg.TIME_CAPCFG,
    0x08030000)] fun t => { t with lines := [line 2], raised := [event 3 0x3405 2] }, event 3 0x3405 2, by decide⟩,
   ⟨0, timed [(Reg.TIME_CAPSTAT, 0x40000000), (Reg.TIME_CAPCFG,
    0x08030000)] fun t => { t with lines := [line 2], raised := [event 3 0x3405 2], trigger := some (event 4 0x3405 2) },
    event 3 0x3405 2, event 4 0x3405 2, by decide⟩,
   ⟨0, timed [(Reg.TIME_CAPSTAT, 0x40000000), (Reg.TIME_CAPCFG,
    0x08030000)] fun t => { t with lines := [line 2], raised := [event 3 0x3405 2], trigger := some (event 2 0x3405 2) },
    event 3 0x3405 2, event 2 0x3405 2, by decide⟩,
   ⟨timed [(Reg.TIME_CAPSTAT, 0x40000000), (Reg.TIME_CAPCFG,
    0x08030000)] fun t => { t with lines := [line 2], trigger := some (event 3 0x3405 2), trigPlaced := true }, by decide⟩,
   ⟨timed [(Reg.TIME_CAPSTAT, 0x20000000), (Reg.TIME_CAPCFG, 0x08030000)] fun t => { t with lines := [line 2] }, by decide⟩,
   ⟨timed [(Reg.TIME_CAPSTAT, 0x80000000), (Reg.TIME_CAPCFG,
    0x08030000)] fun t => { t with lines := [line 2], trigger := some (event 3 0x3405 2) }, by decide⟩,
   ⟨st [], by decide⟩⟩

theorem test_hypotheses_of_safetyCyclesFilterDecideAndExchange :
    (∃ (s : State), s.m.tick.running = true ∧ s.m.mode ≠ .sleep) ∧
    (∃ (s : State), (s.m.tick.running = false ∨ s.m.mode = .sleep)) :=
  ⟨⟨st [] (ticking ∘ pair), by decide⟩,
   ⟨st [] pair, by decide⟩⟩

theorem test_hypotheses_of_safetyTestsTimersAndTheExchange :
    (∃ (cyc t0 : Nat) (s : State), s.m.tick.running = true ∧ s.m.safe.bed.lost = false ∧ s.m.safe.sp.lastAt = some t0 ∧
      t0 + 2 * s.m.scyc ≤ (s.at cyc).now) ∧
    (∃ (cyc t0 : Nat) (s : State), s.m.tick.running = true ∧ s.m.safe.sp.lost = false ∧ s.m.safe.bed.lastAt = some t0 ∧
      t0 + 2 * s.m.scyc ≤ (s.at cyc).now ∧ s.roomy) ∧
    (∃ (cyc : Nat) (sp : Bool) (s : State), (s.m.tick.running = false ∨ (s.m.eval sp).lost = true ∨ (∀ t0,
      (s.m.eval (!sp)).lastAt = some t0 → (s.at cyc).now < t0 + 2 * s.m.scyc))) ∧
    (∃ (cyc t0 : Nat) (sp : Bool) (i : Fin 16) (s : State) (x : SafeInput), (s.m.eval sp).inputs[i.val]? = some x ∧
      x.odd = some t0 ∧ x.fault = false ∧ t0 + oneMilli * s.m.fld (Reg.SAFE_IN_CFG i) 11 0 < (s.at cyc).now) ∧
    (∃ (cyc : Nat) (sp : Bool) (i : Fin 16) (s : State), ((nth (s.m.eval sp).inputs i).fault = true ∨ (∀ t0,
      (nth (s.m.eval sp).inputs i).odd = some t0 → (s.at cyc).now ≤ t0 + oneMilli * s.m.fld (Reg.SAFE_IN_CFG i) 11 0))) ∧
    (∃ (cyc t0 : Nat) (sp : Bool) (k : Fin 16) (s : State), nth (s.m.eval sp).ss1 k = some t0 ∧ t0 ≤ (s.at cyc).now ∧
      (sp = true ∨ (s.m.tick.running = false ∨ s.m.hasSlot k = false ∨ (s.m.eval sp).words.sto.testBit k = true) ∧
      (s.at cyc).still k = true)) ∧
    (∃ (cyc t0 : Nat) (sp : Bool) (k : Fin 16) (s : State), nth (s.m.eval sp).ss1 k = some t0 ∧ t0 ≤ (s.at cyc).now ∧
      sp = false ∧ s.m.tick.running = true ∧ s.m.hasSlot k = true ∧ (s.m.eval sp).words.sto.testBit k = false) ∧
    (∃ (cyc t0 : Nat) (sp : Bool) (k : Fin 16) (s : State), nth (s.m.eval sp).ss1 k = some t0 ∧ t0 ≤ (s.at cyc).now ∧
      sp = false ∧ (s.m.tick.running = false ∨ s.m.hasSlot k = false ∨ (s.m.eval sp).words.sto.testBit k = true) ∧
      (s.at cyc).still k = false ∧ s.roomy) ∧
    (∃ (cyc : Nat) (sp : Bool) (k : Fin 16) (s : State), (∀ t0, nth (s.m.eval sp).ss1 k = some t0 → (s.at cyc).now < t0)) ∧
    (∃ (o : Fin 4) (s : State), s.m.bit Reg.SAFE_OUTS (20 + o.val) = true) ∧
    (∃ (o : Fin 4) (s : State), s.m.bit Reg.SAFE_OUTS (20 + o.val) = false) :=
  ⟨⟨5, 0, st [] fun m => (ticking (clock 9000000 m)).onSafe fun x => { x with sp := { x.sp with lastAt := some 0 } },
    by decide⟩,
   ⟨5, 0, st [] fun m => (ticking (clock 9000000 m)).onSafe fun x => { x with bed := { x.bed with lastAt := some 0 } },
    by decide⟩,
   ⟨5, true, st [] pair, by decide⟩,
   ⟨5, 1, false, 2, st [(Reg.SAFE_IN_CFG 2,
    0x4000A001)] fun m => (clock 9000000 m).onSafe fun x => { x with bed := { x.bed with inputs := upd x.bed.inputs 2 fun i => { i with odd := some 1 } } },
    { (nth (st []).m.safe.bed.inputs 2) with odd := some 1 }, by decide⟩,
   ⟨5, false, 2, st [], by decide⟩,
   ⟨5, 1, true, 2,
    st [] fun m => (clock 9 m).onSafe fun x => { x with sp := { x.sp with ss1 := upd x.sp.ss1 2 fun _ => some 1 } },
    by decide⟩,
   ⟨5, 1, false, 2, st [] fun m => (ticking (slots [(2,
    .traction)] (clock 9 m))).onSafe fun x => { x with bed := { x.bed with ss1 := upd x.bed.ss1 2 fun _ => some 1 } },
    by decide⟩,
   ⟨5, 1, false, 2, st [] fun m => (accepted 2 (fun f => { f with hdth := 500000 }) (slots [(2,
    .traction)] (clock 9 m))).onSafe fun x => { x with bed := { x.bed with ss1 := upd x.bed.ss1 2 fun _ => some 1 } },
    by decide⟩,
   ⟨5, false, 2, st [], by decide⟩,
   ⟨1, st [(Reg.SAFE_OUTS, 0x200000)], by decide⟩,
   ⟨1, st [], by decide⟩⟩

set_option maxRecDepth 100000 in
theorem test_hypotheses_of_safeChannelMessages :
    (∃ (s : State) (rest : List (Nat × List Nat)) (c : Nat) (x : AeMsg) (y : AeConn) (lost : Nat),
      let good := s.m.aeCrc c x.body = x.crc ∧ (s.m.aeCfg c).bits 9 0 = x.wd
      let seq := y.sequence ((s.m.aeCfg c).bits 17 10) x
      AeComes s rest c x y ∧ good ∧ seq = some (true, lost) ∧ y.ackOk x = true) ∧
    (∃ (s : State) (rest : List (Nat × List Nat)) (c : Nat) (x : AeMsg) (y : AeConn),
      let good := s.m.aeCrc c x.body = x.crc ∧ (s.m.aeCfg c).bits 9 0 = x.wd
      let seq := y.sequence ((s.m.aeCfg c).bits 17 10) x
      AeComes s rest c x y ∧ good ∧ seq = none) ∧
    (∃ (s : State) (rest : List (Nat × List Nat)) (c : Nat) (x : AeMsg) (y : AeConn),
      let good := s.m.aeCrc c x.body = x.crc ∧ (s.m.aeCfg c).bits 9 0 = x.wd
      let seq := y.sequence ((s.m.aeCfg c).bits 17 10) x
      AeComes s rest c x y ∧ (¬good ∨ (∃ lost, seq = some (false, lost)) ∨ ((∃ lost, seq = some (true, lost)) ∧
      y.ackOk x = false))) ∧
    (∃ (s : State) (f : Nat) (frame : List Nat) (rest : List (Nat × List Nat)), s.m.net.safetyInbox = (f, frame) :: rest ∧ (∀ x,
      AeMsg.ofBytes (aeBytes (s.m.flowPort f) frame) = some x → ∀ c : Fin 8,
      ((s.m.aeCfg c).bit 31 && (s.m.aeCfg c).bits 29 24 == f && (s.m.rd (Reg.SAFE_AE_CFG_W0 c)).toNat == x.cid) = false)) ∧
    (∃ (s : State), s.m.net.safetyInbox = []) ∧
    (∃ (cyc : Nat) (c : Fin 8) (s : State),
      let due := s.m.aeState c = 2 ∧ (s.m.conn c).wdAt + oneMilli * (s.m.aeCfg c).bits 9 0 ≤ (s.at cyc).now
      due) ∧
    (∃ (cyc : Nat) (c : Fin 8) (s : State),
      let due := s.m.aeState c = 2 ∧ (s.m.conn c).wdAt + oneMilli * (s.m.aeCfg c).bits 9 0 ≤ (s.at cyc).now
      ¬due) ∧
    (∃ (l : Lane) (v : Word) (s : State), s.m.route l = .now ∧ v.bit 0 = true) ∧
    (∃ (l : Lane) (v : Word) (s : State), s.m.route l = .now ∧ v.bit 0 = false) ∧
    (∃ (c : Fin 8) (s : State) (y : AeConn),
      let sends := (s.m.aeCfg c).bit 31 = true ∧ s.m.mode ≠ .sleep ∧ s.m.pwr.booted = true
      sends ∧ s.m.safe.conns[c.val]? = some y) ∧
    (∃ (c : Fin 8) (s : State),
      let sends := (s.m.aeCfg c).bit 31 = true ∧ s.m.mode ≠ .sleep ∧ s.m.pwr.booted = true
      ¬sends) :=
  ⟨⟨channel 1 0 id [], [], 1, firstMessage (channel 1 0 id []), (channel 1 0 id []).m.conn 1, 0, ⟨3,
    firstFrame (channel 1 0 id []), by decide⟩, by decide⟩,
   ⟨channel 2 0 (fun y => { y with last := some 9 }) [], [], 1,
    firstMessage (channel 2 0 (fun y => { y with last := some 9 }) []),
    (channel 2 0 (fun y => { y with last := some 9 }) []).m.conn 1, ⟨3,
    firstFrame (channel 2 0 (fun y => { y with last := some 9 }) []), by decide⟩, by decide⟩,
   ⟨channel 2 1 id [], [], 1, firstMessage (channel 2 1 id []), (channel 2 1 id []).m.conn 1, ⟨3,
    firstFrame (channel 2 1 id []), by decide⟩, Or.inl (by decide)⟩,
   ⟨st [] fun m => (m.onSafe fun x => { x with strayTold := true }).onNet fun n => { n with safetyInbox := [(3, [1, 2])] }, 3,
    [1, 2], [], by decide, all_of_none (by decide)⟩,
   ⟨st [], by decide⟩,
   ⟨5, 1, on (clock (10 ^ 12)) (channel 2 0 id []), by decide⟩,
   ⟨5, 1, channel 1 0 id [], by decide⟩,
   ⟨.a, 1#32, channel 3 0 (fun y => { y with okRun := 4 }) [(Reg.SAFE_AE_CFG_W1 1,
    0xC0000000 + 3 * 2 ^ 24 + 3 * 2 ^ 18 + 100)], by decide⟩,
   ⟨.a, 0#32, channel 3 0 id [], by decide⟩,
   ⟨1, booted (channel 2 0 id [(Reg.NET_FLOW_W0 3, 0xC1800000)]), (booted (channel 2 0 id [(Reg.NET_FLOW_W0 3,
    0xC1800000)])).m.conn 1, by decide⟩,
   ⟨1, st [], by decide⟩⟩

set_option maxRecDepth 100000 in
theorem test_hypotheses_of_sessionsOpenCloseAndSetPasswords :
    (∃ (l : Lane) (s : State), DutyNow s l ∧ (s.m.sess = 1 ∨ s.m.sess = 2)) ∧
    (∃ (l : Lane) (s : State), DutyNow s l ∧ s.m.sess ≠ 1 ∧ s.m.sess ≠ 2 ∧ s.m.mode ≠ .standby) ∧
    (∃ (l : Lane) (s : State), DutyNow s l ∧ s.m.sess = 3 ∧ s.m.mode = .standby) ∧
    (∃ (l : Lane) (v : Word) (s : State),
      let pw := s.m.pwBytes (v.bits 5 0)
      DutyNow s l ∧ s.m.sess = 0 ∧ s.m.mode = .standby ∧ pwOk (v.bits 5 0) pw = false) ∧
    (∃ (l : Lane) (v : Word) (s : State),
      let pw := s.m.pwBytes (v.bits 5 0)
      DutyNow s l ∧ s.m.sess = 0 ∧ s.m.mode = .standby ∧ pwOk (v.bits 5 0) pw = true) ∧
    (∃ (s : State),
      let right := passwordHash s.m.safe.pw.salt s.m.safe.tried s.m.safe.pw.iter = s.m.safe.pw.hash
      Memory.wf s.mem = true ∧ s.m.sess = 1 ∧ s.m.mode = .standby ∧ right) ∧
    (∃ (s : State),
      let right := passwordHash s.m.safe.pw.salt s.m.safe.tried s.m.safe.pw.iter = s.m.safe.pw.hash
      Memory.wf s.mem = true ∧ s.m.sess = 1 ∧ s.m.mode = .standby ∧ ¬right) ∧
    (∃ (s : State), s.m.sess = 1 ∧ s.m.mode ≠ .standby) ∧
    (∃ (s : State), s.m.sess ≠ 1) ∧
    (∃ (l : Lane) (s : State), Memory.wf s.mem = true ∧ DutyNow s l ∧ s.m.sess ≠ 2) ∧
    (∃ (l : Lane) (s : State), Memory.wf s.mem = true ∧ DutyNow s l ∧ s.m.sess = 2 ∧ s.m.mode = .service) ∧
    (∃ (l : Lane) (s : State), Memory.wf s.mem = true ∧ DutyNow s l ∧ s.m.sess = 2 ∧ s.m.mode ≠ .service) ∧
    (∃ (cyc : Nat) (s : State),
      let due := s.m.sess = 2 ∧ s.m.mode ≠ .service ∧ s.m.safe.sessAt + s.m.image.sesstmo * oneSecond ≤ (s.at cyc).now
      Memory.wf s.mem = true ∧ due) ∧
    (∃ (cyc : Nat) (s : State),
      let due := s.m.sess = 2 ∧ s.m.mode ≠ .service ∧ s.m.safe.sessAt + s.m.image.sesstmo * oneSecond ≤ (s.at cyc).now
      ¬due) ∧
    (∃ (cyc : Nat) (s : State),
      let due := s.m.sess = 3 ∧ s.m.safe.lockUntil ≤ (s.at cyc).now
      due) ∧
    (∃ (cyc : Nat) (s : State),
      let due := s.m.sess = 3 ∧ s.m.safe.lockUntil ≤ (s.at cyc).now
      ¬due) ∧
    (∃ (l : Lane) (s : State), DutyNow s l ∧ s.m.sess ≠ 2) ∧
    (∃ (l : Lane) (v : Word) (s : State),
      let pw := s.m.pwBytes (v.bits 5 0)
      DutyNow s l ∧ s.m.sess = 2 ∧ pwOk (v.bits 5 0) pw = false) ∧
    (∃ (l : Lane) (v : Word) (s : State),
      let pw := s.m.pwBytes (v.bits 5 0)
      DutyNow s l ∧ Memory.wf s.mem = true ∧ s.m.sess = 2 ∧ pwOk (v.bits 5 0) pw = true) :=
  ⟨⟨.a, session 1 [] id, by decide⟩,
   ⟨.a, on (fun m => m.wrN Reg.SYS_MODE_STAT 0x12) (session 0 [] id), by decide⟩,
   ⟨.a, session 3 [] id, by decide⟩,
   ⟨.a, 12#32, session 0 [] id, by decide⟩,
   ⟨.a, 8#32, session 0 [] id, by decide⟩,
   ⟨session 1 [] fun x => { x with tried := [65], pw := ⟨1, 2, [1], passwordHash [1] [65] 2, 0⟩ }, by decide⟩,
   ⟨session 1 [] fun x => { x with tried := [66], pw := ⟨1, 2, [1], passwordHash [1] [65] 2, 0⟩ }, by decide⟩,
   ⟨on (fun m => m.wrN Reg.SYS_MODE_STAT 0x12) (session 1 [] id), by decide⟩,
   ⟨session 0 [] id, by decide⟩,
   ⟨.a, session 0 [] id, by decide⟩,
   ⟨.a, on (fun m => m.wrN Reg.SYS_MODE_STAT 0x14) (session 2 [] id), by decide⟩,
   ⟨.a, session 2 [] id, by decide⟩,
   ⟨5, on (clock (10 ^ 15)) (session 2 [] id), by decide⟩,
   ⟨5, session 3 [] id, by decide⟩,
   ⟨5, session 3 [] id, by decide⟩,
   ⟨5, session 0 [] id, by decide⟩,
   ⟨.a, session 0 [] id, by decide⟩,
   ⟨.a, 12#32, session 2 [] id, by decide⟩,
   ⟨.a, 8#32, session 2 [] id, by decide⟩⟩

set_option maxRecDepth 100000 in
theorem test_hypotheses_of_stagingErasesAndPrograms :
    (∃ (l : Lane) (s : State),
      let taken := (s.m.stage = 0 ∨ s.m.stage = 7) ∧ 64 ≤ s.m.imgLen ∧ s.m.imgLen ≤ 33554432 ∧ s.m.mode ≠ .sleep
      DutyNow s l ∧ taken) ∧
    (∃ (l : Lane) (s : State),
      let taken := (s.m.stage = 0 ∨ s.m.stage = 7) ∧ 64 ≤ s.m.imgLen ∧ s.m.imgLen ≤ 33554432 ∧ s.m.mode ≠ .sleep
      DutyNow s l ∧ ¬taken) ∧
    (∃ (s : State),
      let n := (s.m.imgLen + 65535) / 65536 * 65536
      Memory.wf s.mem = true ∧ s.m.stage = 1 ∧ n ≤ 0x2000000) ∧
    (∃ (s : State), s.m.stage ≠ 1) ∧
    (∃ (l : Lane) (r : Fin 16) (s : State) (x : PortData),
      let prog := (s.m.rd Reg.IMG_PROG).toNat
      let n := x.bytes.length
      let fits := x.param = prog ∧ prog % 256 = 0 ∧ 0 < n ∧ prog + n ≤ s.m.imgLen ∧ (n % 256 = 0 ∨ prog + n = s.m.imgLen)
      (s.m.dma.port5.find? fun x => x.lane == l && x.ring == r.val) = some x ∧ Memory.wf s.mem = true ∧ s.m.stage = 2 ∧ fits) ∧
    (∃ (l : Lane) (r : Fin 16) (s : State) (x : PortData),
      let prog := (s.m.rd Reg.IMG_PROG).toNat
      let n := x.bytes.length
      let fits := x.param = prog ∧ prog % 256 = 0 ∧ 0 < n ∧ prog + n ≤ s.m.imgLen ∧ (n % 256 = 0 ∨ prog + n = s.m.imgLen)
      (s.m.dma.port5.find? fun x => x.lane == l && x.ring == r.val) = some x ∧ s.m.stage = 2 ∧ ¬fits) ∧
    (∃ (l : Lane) (r : Fin 16) (s : State) (x : PortData),
      (s.m.dma.port5.find? fun x => x.lane == l && x.ring == r.val) = some x ∧ s.m.stage ≠ 1 ∧ s.m.stage ≠ 2) ∧
    (∃ (l : Lane) (r : Fin 16) (s : State) (x : PortData),
      (s.m.dma.port5.find? fun x => x.lane == l && x.ring == r.val) = some x ∧ s.m.stage = 1) ∧
    (∃ (l : Lane) (r : Fin 16) (s : State), (s.m.dma.port5.find? fun x => x.lane == l && x.ring == r.val) = none) :=
  ⟨⟨.a, st [(Reg.IMG_LEN, 64)] solo, by decide⟩,
   ⟨.a, st [(Reg.IMG_LEN, 63)] solo, by decide⟩,
   ⟨staging 1 [], by decide⟩,
   ⟨st [], by decide⟩,
   ⟨.a, 3, staging 2 [(Reg.IMG_PROG, 768)] (port5 768 256), ⟨.a, 3, 768, List.replicate 256 7⟩, by decide⟩,
   ⟨.a, 3, staging 2 [(Reg.IMG_PROG, 768)] (port5 512 256), ⟨.a, 3, 512, List.replicate 256 7⟩, by decide⟩,
   ⟨.a, 3, staging 3 [] (port5 512 256), ⟨.a, 3, 512, List.replicate 256 7⟩, by decide⟩,
   ⟨.a, 3, staging 1 [] (port5 512 256), ⟨.a, 3, 512, List.replicate 256 7⟩, by decide⟩,
   ⟨.a, 3, st [], by decide⟩⟩

set_option maxRecDepth 100000 in
theorem test_hypotheses_of_imageCommandsVerifyCommitAndReboot :
    (∃ (l : Lane) (s : State), DutyNow s l ∧ s.m.stage = 3) ∧
    (∃ (l : Lane) (s : State), DutyNow s l ∧ s.m.stage ≠ 3) ∧
    (∃ (l : Lane) (s : State), DutyNow s l ∧ 1 ≤ s.m.stage ∧ s.m.stage ≤ 5) ∧
    (∃ (l : Lane) (s : State), DutyNow s l ∧ (s.m.stage = 0 ∨ 5 < s.m.stage)) ∧
    (∃ (l : Lane) (s : State), DutyNow s l ∧ s.m.mode = .standby) ∧
    (∃ (l : Lane) (s : State), DutyNow s l ∧ s.m.mode ≠ .standby) ∧
    (∃ (l : Lane) (v : Word) (s : State), DutyNow s l ∧ (v.bits 2 0 = 0 ∨ 5 < v.bits 2 0)) ∧
    (∃ (l : Lane) (v : Word) (s : State), DutyNow s l ∧ v.bits 2 0 = 1) ∧
    (∃ (l : Lane) (v : Word) (s : State), DutyNow s l ∧ v.bits 2 0 = 2) ∧
    (∃ (l : Lane) (v : Word) (s : State), DutyNow s l ∧ v.bits 2 0 = 3) ∧
    (∃ (l : Lane) (v : Word) (s : State), DutyNow s l ∧ v.bits 2 0 = 4) ∧
    (∃ (l : Lane) (v : Word) (s : State), DutyNow s l ∧ v.bits 2 0 = 5) ∧
    (∃ (l : Lane) (s : State), DutyNow s l ∧ s.m.stage ≠ 5) ∧
    (∃ (l : Lane) (s : State),
      let old := (s.m.rd Reg.IMG_SAFETY).toNat
      let new := (s.m.commitForm s.mem 0).safety
      let same := new = old ∨ s.m.recovery = true
      DutyNow s l ∧ s.m.stage = 5 ∧ same) ∧
    (∃ (l : Lane) (s : State),
      let old := (s.m.rd Reg.IMG_SAFETY).toNat
      let new := (s.m.commitForm s.mem 0).safety
      let same := new = old ∨ s.m.recovery = true
      DutyNow s l ∧ s.m.stage = 5 ∧ ¬same ∧ s.m.sess ≠ 2) ∧
    (∃ (l : Lane) (s : State),
      let old := (s.m.rd Reg.IMG_SAFETY).toNat
      let new := (s.m.commitForm s.mem 0).safety
      let same := new = old ∨ s.m.recovery = true
      DutyNow s l ∧ s.m.stage = 5 ∧ ¬same ∧ s.m.sess = 2 ∧ Memory.wf s.mem = true) ∧
    (∃ (s : State), s.m.stage = 4) ∧
    (∃ (s : State), s.m.stage ≠ 4) :=
  ⟨⟨.a, staging 3 [], by decide⟩,
   ⟨.a, staging 2 [], by decide⟩,
   ⟨.a, staging 5 [], by decide⟩,
   ⟨.a, staging 0 [], by decide⟩,
   ⟨.a, staging 0 [], by decide⟩,
   ⟨.a, st [(Reg.SYS_MODE_STAT, 0x12)] solo, by decide⟩,
   ⟨.a, 6#32, staging 0 [], by decide⟩,
   ⟨.a, 1#32, staging 0 [], by decide⟩,
   ⟨.a, 2#32, staging 3 [], by decide⟩,
   ⟨.a, 3#32, staging 5 [], by decide⟩,
   ⟨.a, 4#32, staging 5 [], by decide⟩,
   ⟨.a, 5#32, staging 0 [], by decide⟩,
   ⟨.a, staging 3 [], by decide⟩,
   ⟨.a, staging 5 [(Reg.IMG_SAFETY, ((staging 5 []).m.commitForm [] 0).safety + 0)], by decide⟩,
   ⟨.a, staging 5 [(Reg.IMG_SAFETY, ((staging 5 []).m.commitForm [] 0).safety + 1)], by decide⟩,
   ⟨.a, staging 5 [(Reg.IMG_SAFETY, ((staging 5 []).m.commitForm [] 0).safety + 1), (Reg.SAFE_SESS_STAT, 0x20000000)],
    by decide⟩,
   ⟨staging 4 [], by decide⟩,
   ⟨staging 2 [], by decide⟩⟩

theorem test_hypotheses_of_keysAreProgrammedOnceAndRevoked :
    (∃ (l : Lane) (v : Word) (s : State) (k : Nat), DutyNow s l ∧ s.m.sess = 2 ∧ v.bits 1 0 = k + 1 ∧
      s.m.img.keys[k]? = some none) ∧
    (∃ (l : Lane) (v : Word) (s : State) (k : Nat) (h : List Nat), DutyNow s l ∧ s.m.sess = 2 ∧ v.bits 1 0 = k + 1 ∧
      s.m.img.keys[k]? = some (some h) ∧ s.m.fld Reg.IMG_STATUS 23 22 ≠ k + 1) ∧
    (∃ (l : Lane) (v : Word) (s : State) (k : Nat) (h : List Nat), DutyNow s l ∧ s.m.sess = 2 ∧ v.bits 1 0 = k + 1 ∧
      s.m.img.keys[k]? = some (some h) ∧ s.m.fld Reg.IMG_STATUS 23 22 = k + 1) ∧
    (∃ (l : Lane) (v : Word) (s : State), DutyNow s l ∧ (s.m.sess ≠ 2 ∨ v.bits 1 0 = 0)) :=
  ⟨⟨.a, 2#32, st [(Reg.SAFE_SESS_STAT,
    0x20000000)] fun m => (solo m).onImg fun g => { g with keys := upd g.keys 1 fun _ => none }, 1, by decide⟩,
   ⟨.a, 2#32, st [(Reg.SAFE_SESS_STAT,
    0x20000000)] fun m => (solo m).onImg fun g => { g with keys := upd g.keys 1 fun _ => some [1] }, 1, [1], by decide⟩,
   ⟨.a, 2#32, on (fun m => m.setFld Reg.IMG_STATUS 23 22 2) (st [(Reg.SAFE_SESS_STAT,
    0x20000000)] fun m => (solo m).onImg fun g => { g with keys := upd g.keys 1 fun _ => some [1] }), 1, [1], by decide⟩,
   ⟨.a, 2#32, st [] solo, by decide⟩⟩

theorem test_hypotheses_of_railsRiseFallAndMakeResetsDue :
    (∃ (s : State),
      let rises := (s.m.pwr.phase = .off ∨ s.m.pwr.phase = .waiting) ∧ s.m.pwr.vinOk = true
      rises) ∧
    (∃ (s : State),
      let rises := (s.m.pwr.phase = .off ∨ s.m.pwr.phase = .waiting) ∧ s.m.pwr.vinOk = true
      ¬rises) ∧
    (∃ (s : State) (r : Fin 6), s.m.pwr.phase = .off ∧ s.m.bit Reg.PWR_STATUS r = false ∧ (∀ q : Fin 6, q < r →
      s.m.bit Reg.PWR_STATUS q = true)) ∧
    (∃ (s : State), (s.m.pwr.phase ≠ .off ∨ (∀ r : Fin 6, s.m.bit Reg.PWR_STATUS r = true))) ∧
    (∃ (r : Fin 6) (s : State),
      let faults := s.m.bit Reg.PWR_STATUS r = true ∧ (s.m.pwr.phase = .up ∨ s.m.pwr.phase = .off)
      faults) ∧
    (∃ (r : Fin 6) (s : State),
      let faults := s.m.bit Reg.PWR_STATUS r = true ∧ (s.m.pwr.phase = .up ∨ s.m.pwr.phase = .off)
      ¬faults) ∧
    (∃ (s : State), s.m.pwr.phase = .falling) ∧
    (∃ (s : State), s.m.pwr.phase ≠ .falling) :=
  ⟨⟨rails [] fun p => { p with phase := .off, vinOk := true }, by decide⟩,
   ⟨up, by decide⟩,
   ⟨rails [(Reg.PWR_STATUS, 7)] fun p => { p with phase := .off }, 3, by decide⟩,
   ⟨up, by decide⟩,
   ⟨3, up, by decide⟩,
   ⟨3, rails [] fun p => { p with phase := .asleep }, by decide⟩,
   ⟨up fun p => { p with phase := .falling }, by decide⟩,
   ⟨up, by decide⟩⟩

theorem test_hypotheses_of_sleepWakeCrystalAndBedrock :
    (∃ (s : State), s.m.mode = .sleep ∧ s.m.tick.running = true ∧ s.m.sess ≠ 2) ∧
    (∃ (s : State), s.m.mode = .sleep ∧ s.m.tick.running = true ∧ Memory.wf s.mem = true ∧ s.m.sess = 2) ∧
    (∃ (s : State), (s.m.mode ≠ .sleep ∨ s.m.tick.running = false)) ∧
    (∃ (src : Fin 16) (s : State),
      let armed := s.m.bit Reg.PWR_WAKECFG src = true ∧ (src.val < 9 ∨ s.m.bit (Reg.NET_P_CFG (src.val - 9)) 30 = true)
      armed ∧ s.m.pwr.phase = .asleep) ∧
    (∃ (late : Bool) (src : Fin 16) (s : State),
      let armed := s.m.bit Reg.PWR_WAKECFG src = true ∧ (src.val < 9 ∨ s.m.bit (Reg.NET_P_CFG (src.val - 9)) 30 = true)
      let joins := EntersSleep s.m ∨ (s.m.pwr.waking = true ∧ late = false)
      armed ∧ s.m.pwr.phase ≠ .asleep ∧ joins) ∧
    (∃ (late : Bool) (src : Fin 16) (s : State),
      let armed := s.m.bit Reg.PWR_WAKECFG src = true ∧ (src.val < 9 ∨ s.m.bit (Reg.NET_P_CFG (src.val - 9)) 30 = true)
      let joins := EntersSleep s.m ∨ (s.m.pwr.waking = true ∧ late = false)
      (¬armed ∨ (s.m.pwr.phase ≠ .asleep ∧ ¬joins))) ∧
    (∃ (s : State),
      let runs := s.m.rd Reg.PWR_WTIMER ≠ 0#32 ∧ s.m.bit Reg.PWR_WAKECFG 8 = true
      runs ∧ s.m.pwr.phase = .asleep) ∧
    (∃ (s : State),
      let runs := s.m.rd Reg.PWR_WTIMER ≠ 0#32 ∧ s.m.bit Reg.PWR_WAKECFG 8 = true
      runs ∧ s.m.pwr.phase ≠ .asleep) ∧
    (∃ (s : State),
      let runs := s.m.rd Reg.PWR_WTIMER ≠ 0#32 ∧ s.m.bit Reg.PWR_WAKECFG 8 = true
      ¬runs) ∧
    (∃ (s : State), s.m.pwr.crystalLost = false) ∧
    (∃ (s : State), s.m.pwr.crystalLost = true) ∧
    (∃ (s : State),
      let beats := s.m.pwr.bedrockOk = true ∧ s.m.pwr.phase ≠ .asleep ∧ ¬EntersSleep s.m
      beats) ∧
    (∃ (s : State),
      let beats := s.m.pwr.bedrockOk = true ∧ s.m.pwr.phase ≠ .asleep ∧ ¬EntersSleep s.m
      ¬beats) :=
  ⟨⟨on (fun m => m.setFld Reg.SYS_MODE_STAT 2 0 0) (up), by decide⟩,
   ⟨on (fun m => m.wrN Reg.SAFE_SESS_STAT 0x20000000) (on (fun m => m.setFld Reg.SYS_MODE_STAT 2 0 0) (up)), by decide⟩,
   ⟨up, by decide⟩,
   ⟨8, rails [(Reg.PWR_WAKECFG, 0x104), (Reg.PWR_WTIMER, 7)] fun p => { p with phase := .asleep }, by decide⟩,
   ⟨false, 2, rails [(Reg.PWR_WAKECFG, 0x104), (Reg.PWR_WTIMER, 7)] fun p => { p with phase := .up, waking := true },
    by decide⟩,
   ⟨false, 3, st [], by decide⟩,
   ⟨rails [(Reg.PWR_WAKECFG, 0x104), (Reg.PWR_WTIMER, 7)] fun p => { p with phase := .asleep }, by decide⟩,
   ⟨rails [(Reg.PWR_WAKECFG, 0x104), (Reg.PWR_WTIMER, 7)] fun p => { p with phase := .up }, by decide⟩,
   ⟨st [], by decide⟩,
   ⟨up, by decide⟩,
   ⟨up fun p => { p with crystalLost := true }, by decide⟩,
   ⟨up fun p => { p with bedrockOk := true }, by decide⟩,
   ⟨rails [] fun p => { p with phase := .asleep }, by decide⟩⟩

set_option maxRecDepth 100000 in
theorem test_hypotheses_of_deviceResetAndRecoveryFrames :
    (∃ (c : Nat) (s : State),
      let ready := s.m.pwr.vinOk = true ∧ ((s.m.pwr.phase = .up ∧ c ≠ 1 ∧ c ≠ 6) ∨ s.m.pwr.phase = .off ∨ s.m.pwr.phase = .waiting)
      s.m.pwr.due = some c ∧ ready) ∧
    (∃ (c : Nat) (s : State),
      let ready := s.m.pwr.vinOk = true ∧ ((s.m.pwr.phase = .up ∧ c ≠ 1 ∧ c ≠ 6) ∨ s.m.pwr.phase = .off ∨ s.m.pwr.phase = .waiting)
      s.m.pwr.due = some c ∧ ¬ready) ∧
    (∃ (s : State), s.m.pwr.due = none) ∧
    (∃ (s : State), s.m.recovery = false) ∧
    (∃ (p : List Nat) (s : State),
      let off := le p 0 4
      let data := cut p 6 (le p 4 2)
      let n := data.length
      let fits := 0 < n ∧ n ≤ 1024 ∧ n = le p 4 2
      let prog := (s.m.rd Reg.IMG_PROG).toNat
      Memory.wf s.mem = true ∧ s.m.recovery = true ∧ s.m.stage = 2 ∧ fits ∧ off = prog ∧ off + n < s.m.imgLen) ∧
    (∃ (p : List Nat) (s : State),
      let off := le p 0 4
      let data := cut p 6 (le p 4 2)
      let n := data.length
      let fits := 0 < n ∧ n ≤ 1024 ∧ n = le p 4 2
      let prog := (s.m.rd Reg.IMG_PROG).toNat
      Memory.wf s.mem = true ∧ s.m.recovery = true ∧ s.m.stage = 2 ∧ fits ∧ off = prog ∧ off + n ≤ s.m.imgLen) ∧
    (∃ (p : List Nat) (s : State),
      let off := le p 0 4
      let data := cut p 6 (le p 4 2)
      let n := data.length
      let fits := 0 < n ∧ n ≤ 1024 ∧ n = le p 4 2
      let prog := (s.m.rd Reg.IMG_PROG).toNat
      Memory.wf s.mem = true ∧ s.m.recovery = true ∧ s.m.stage = 2 ∧ fits ∧ off = prog ∧ off + n = s.m.imgLen) ∧
    (∃ (p : List Nat) (s : State),
      let off := le p 0 4
      let data := cut p 6 (le p 4 2)
      let n := data.length
      let fits := 0 < n ∧ n ≤ 1024 ∧ n = le p 4 2
      Memory.wf s.mem = true ∧ s.m.recovery = true ∧ (s.m.stage = 0 ∨ s.m.stage = 7) ∧ fits ∧ off = 0 ∧ 12 ≤ n ∧
      64 ≤ le data 8 4 ∧ le data 8 4 ≤ 33554432 ∧ n < le data 8 4 ∧ (le data 8 4 + 65535) / 65536 * 65536 ≤ 0x2000000) ∧
    (∃ (p : List Nat) (s : State),
      let off := le p 0 4
      let data := cut p 6 (le p 4 2)
      let n := data.length
      let fits := 0 < n ∧ n ≤ 1024 ∧ n = le p 4 2
      let prog := (s.m.rd Reg.IMG_PROG).toNat
      Memory.wf s.mem = true ∧ s.m.recovery = true ∧ s.m.stage = 2 ∧ (¬fits ∨ off ≠ prog ∨ s.m.imgLen < prog + n)) ∧
    (∃ (p : List Nat) (s : State),
      let off := le p 0 4
      let data := cut p 6 (le p 4 2)
      let n := data.length
      let fits := 0 < n ∧ n ≤ 1024 ∧ n = le p 4 2
      Memory.wf s.mem = true ∧ s.m.recovery = true ∧ (s.m.stage = 0 ∨ s.m.stage = 7) ∧ (¬fits ∨ off ≠ 0)) :=
  ⟨⟨2, up fun p => { p with due := some 2, vinOk := true }, by decide⟩,
   ⟨1, up fun p => { p with due := some 1 }, by decide⟩,
   ⟨up, by decide⟩,
   ⟨up, by decide⟩,
   ⟨leBytes 4 256 ++ leBytes 2 ([7, 8, 9]).length ++ [7, 8, 9], st [(Reg.IMG_STATUS, 0x28000000), (Reg.IMG_LEN, 1024),
    (Reg.IMG_PROG, 256)], by decide⟩,
   ⟨leBytes 4 256 ++ leBytes 2 ([7, 8, 9]).length ++ [7, 8, 9], st [(Reg.IMG_STATUS, 0x28000000), (Reg.IMG_LEN, 1024),
    (Reg.IMG_PROG, 256)], by decide⟩,
   ⟨leBytes 4 256 ++ leBytes 2 (List.replicate 768 7).length ++ List.replicate 768 7, st [(Reg.IMG_STATUS, 0x28000000),
    (Reg.IMG_LEN, 1024), (Reg.IMG_PROG, 256)], by decide⟩,
   ⟨leBytes 4 0 ++ leBytes 2 ((leBytes 8 0 ++ leBytes 4 1024 ++ [1])).length ++ (leBytes 8 0 ++ leBytes 4 1024 ++ [1]),
    st [(Reg.IMG_STATUS, 0x08000000)], by decide⟩,
   ⟨leBytes 4 255 ++ leBytes 2 ([7, 8, 9]).length ++ [7, 8, 9], st [(Reg.IMG_STATUS, 0x28000000), (Reg.IMG_LEN, 1024),
    (Reg.IMG_PROG, 256)], by decide⟩,
   ⟨leBytes 4 2 ++ leBytes 2 ((leBytes 8 0 ++ leBytes 4 1024 ++ [1])).length ++ (leBytes 8 0 ++ leBytes 4 1024 ++ [1]),
    st [(Reg.IMG_STATUS, 0x08000000)], by decide⟩⟩

theorem test_hypotheses_of_bootEndsInStandbyOrRecovery :
    (∃ (s : State),
      let ready := s.m.pwr.booted = false ∧ s.m.pwr.due = none ∧ s.m.pwr.phase = .up
      ready ∧ s.m.image.loaded = true) ∧
    (∃ (s : State),
      let ready := s.m.pwr.booted = false ∧ s.m.pwr.due = none ∧ s.m.pwr.phase = .up
      ready ∧ s.m.image.loaded = false) ∧
    (∃ (s : State),
      let ready := s.m.pwr.booted = false ∧ s.m.pwr.due = none ∧ s.m.pwr.phase = .up
      ¬ready) :=
  ⟨⟨st [(Reg.PWR_STATUS,
    0x3F)] fun m => { m with image := { m.image with loaded := true } }.onPwr fun p => { p with phase := .up, due := none, booted := false },
    by decide⟩,
   ⟨st [(Reg.PWR_STATUS,
    0x3F)] fun m => { m with image := { m.image with loaded := false } }.onPwr fun p => { p with phase := .up, due := none, booted := false },
    by decide⟩,
   ⟨up, by decide⟩⟩

set_option maxRecDepth 100000 in
theorem test_hypotheses_of_interruptSourcesFollowTheirBits :
    (∃ (l : Lane) (n stat en hi lo : Nat), (n, stat, en, hi, lo) ∈ irqTable l) ∧
    (∃ (n : Nat), (n = 0 ∨ 128 ≤ n ∨ n ∈ [53, 54, 55, 71, 78, 79, 87, 92, 93, 94, 95, 109, 110, 111, 126, 127])) ∧
    (∃ (s : State) (l : Lane), s.m.plicPending l 1 = true ∧ (∀ x ∈ (s.m.plic.get l).prio, x ≤ plicMax)) :=
  ⟨⟨.a, 2, Reg.TICK_IRQ_STAT 0, Reg.TICK_IRQ_EN 0, 0, 0, by decide⟩,
   ⟨53, by decide⟩,
   ⟨st [] inTickA, .a, by decide⟩⟩

/-! ### Ill-formed operands are refused -/

theorem test_wf_accepts : (Instr.tickBoundary default).wf = true ∧ (Instr.pilotPeriod 5 12000 (-12000) 10000 500).wf = true ∧
    (Instr.gateEdge 5 true 15 400 none).wf = true ∧ (Instr.frameReceive 5 3 0 0 none false 0x7FF false false false [255]).wf = true := by
  decide
theorem test_wf_boundary : (Instr.tickBoundary { (default : BoundaryIn) with temps := [{ (default : TempReading) with sensor := 20 }] }).wf = false ∧
    (Instr.tickBoundary { (default : BoundaryIn) with udcB := List.replicate 17 0 }).wf = false := by decide
theorem test_wf_input : (Instr.asyncInputArrival 5 ⟨16, 0, 0, 0, 0, []⟩ default none).wf = false ∧
    (Instr.asyncInputArrival 5 default ⟨1, 256, 0, 0, 0, []⟩ none).wf = false ∧
    (Instr.asyncInputArrival 5 default ⟨1, 0, 4, 0, 0, []⟩ none).wf = false ∧
    (Instr.asyncInputArrival 5 default ⟨1, 0, 0, 2 ^ 32, 0, []⟩ none).wf = false ∧
    (Instr.asyncInputArrival 5 default ⟨1, 0, 0, 0, 2 ^ 32, []⟩ none).wf = false ∧
    (Instr.asyncInputArrival 5 default ⟨1, 0, 0, 0, 0, [256]⟩ none).wf = false := by decide
theorem test_wf_self_check : (Instr.selfCheckConversion 5 0 10 0).wf = false := by decide
theorem test_wf_calibration : (Instr.calibrationComplete 5 [(96, 0)]).wf = false ∧
    (Instr.calibrationComplete 5 [(0, 2 ^ 24)]).wf = false := by decide
theorem test_wf_sent : (Instr.sentFrame 5 0 0 sentCal (List.replicate 10 0)).wf = false := by decide
theorem test_wf_ssi : (Instr.ssiRead 5 0 (2 ^ 33) false).wf = false := by decide
theorem test_wf_gate : (Instr.gateEdge 5 true 16 0 none).wf = false ∧ (Instr.gateEdge 5 false 23 401 none).wf = false ∧
    (Instr.gateEdge 5 false 23 0 (some 65536)).wf = false ∧ (Instr.stuckGate 5 false 24).wf = false ∧
    (Instr.shortCircuitDetection 5 0 65536 0).wf = false ∧ (Instr.shortCircuitDetection 5 0 0 65536).wf = false ∧
    (Instr.vdsOvercurrent 5 0 65536).wf = false := by decide
theorem test_wf_diagnostics : (Instr.gateDiagComplete 5 true 24 default default).wf = false ∧
    (Instr.gateDiagComplete 5 false 0 { (default : DiagReading) with up := 65536 } default).wf = false ∧
    (Instr.gateDiagComplete 5 false 0 default { (default : DiagReading) with tMain := some 65536 }).wf = false := by decide
theorem test_wf_pilot : (Instr.pilotPeriod 5 0 0 65536 0).wf = false ∧ (Instr.pilotPeriod 5 0 0 0 1001).wf = false := by decide
theorem test_wf_replay : (Instr.replayTick 5 [(0x140000, 0#32)] [] 0 0).wf = false ∧ (Instr.replayTick 5 [] [(0x140000, 0#32)] 0 0).wf = false ∧
    (Instr.replayTick 5 [] [] 65536 0).wf = false ∧ (Instr.replayTick 5 [] [] 0 65536).wf = false := by decide
theorem test_wf_dram : (Instr.dramError 5 7 0#32 none).wf = false ∧ (Instr.dramError 5 0 0#32 (some 36)).wf = false := by decide
theorem test_wf_catalogue : (Instr.catalogueStream 5 0).wf = false ∧ (Instr.catalogueStream 5 65).wf = false := by decide
theorem test_wf_frame : (Instr.frameReceive 5 0 0 65536 none false 0 false false false []).wf = false ∧
    (Instr.frameReceive 5 0 0 0 (some 4096) false 0 false false false []).wf = false ∧
    (Instr.frameReceive 5 3 0 0 none false 0x800 false false false []).wf = false ∧
    (Instr.frameReceive 5 3 0 0 none true (2 ^ 29) false false false []).wf = false ∧
    (Instr.recoveryFrame 5 [256] true).wf = false := by decide
theorem test_wf_levels : (Instr.safetyCycle 5 false []).wf = false ∧ (Instr.bootComplete 5 [] (List.replicate 6 0) default).wf = false ∧
    (Instr.bootComplete 5 [(true, true), (true, true)] [8, 0, 0, 0, 0, 0] default).wf = false := by decide

/-- The table gives its rows no bits, so no word spells a command. -/
theorem test_no_word_spells_a_command : decodeTableWord 32 0xFFFFFFFF = none := by decide

/-! ### Published check values -/

set_option maxRecDepth 100000 in
/-- CRC-32C of "123456789". -/
theorem test_crc32c_check_value : crc32c [0x31, 0x32, 0x33, 0x34, 0x35, 0x36, 0x37, 0x38, 0x39] = 0xE3069283 := by decide

set_option maxRecDepth 100000 in
/-- A scan of "123456789" under the CRC-32 of IEEE 802.3. -/
theorem test_scan_gives_crc32 :
    answers (exec (.crcScanBlock 5 .a 1) (bytes 0x90000000 [0x31, 0x32, 0x33, 0x34, 0x35, 0x36, 0x37, 0x38, 0x39]
      (crc [(Reg.CRC_U_STAT 0 1, 1), (Reg.CRC_U_VAL_LO 0 1, 0xFFFFFFFF)])))
      (fun t => t.m.rd (Reg.CRC_U_RES_LO 0 1) == 0xCBF43926#32) = true := by decide

set_option maxRecDepth 100000 in
/-- SHA-256 of "abc" (FIPS 180-4). -/
theorem test_sha256_abc : (sha256 [0x61, 0x62, 0x63]).take 8 = [0xBA, 0x78, 0x16, 0xBF, 0x8F, 0x01, 0xCF, 0xEA] := by decide

/-! ### Single commands -/

/-- R376: five units a cycle at RATE 0. -/
theorem test_timebase_advances : ((st []).at 5).now = 25 := by decide

/-- R377: a rate beyond the range is clamped. -/
theorem test_rate_is_clamped : answers (exec (.timeRateWrite 5 (.lane .a) 0x7FFFFFFF#32) (st [] solo))
    (fun t => t.m.rd Reg.TIME_RATE == 4294967#32 && t.m.time.raised.map (·.code) == [0x3C05]) = true := by decide
theorem test_rate_is_clamped_below : answers (exec (.timeRateWrite 5 (.lane .a) 0x80000000#32) (st [] solo))
    (fun t => t.m.rdS Reg.TIME_RATE == -4294967) = true := by decide

/-- R8, R515: an access outside every region. -/
theorem test_access_fault : answers (exec (.outOfRegionAccess 5 (.lane .a) 0xFFFFFFFFFF#40 .word true) (st []))
    (fun t => t.m.reply == .accessFault && t.m.time.raised.map (·.code) == [1]) = true := by decide

/-- R31: the value 6 is no mode. -/
theorem test_invalid_mode : answers (exec (.sysModeRequest 5 (.lane .a) 6#32) (st [] solo))
    (fun t => t.m.lane.waiting.isEmpty && t.m.time.raised.map (·.code) == [1]) = true := by decide

/-- R61: the deadline and the law ceiling follow the period; outside a running tick the write takes effect at once. -/
theorem test_no_period_below_its_range : answers (exec (.registerWrite 5 (.lane .a) (BitVec.ofNat 40 (physical Reg.TICK_PERIOD)) 3999#32)
    (st [] solo)) (fun t => t.m.rd Reg.TICK_PERIOD == 8000#32) = true := by decide

set_option maxRecDepth 100000 in
/-- R474: from STANDBY to CHARGE only with the connector engaged. -/
theorem test_charge_needs_engaged : ((toCharge (st []).m).boundaryMode [] 1 default).1.mode = .standby ∧
    ((toCharge ((st []).m.onAct fun a => { a with engaged := true })).boundaryMode [] 1 default).1.mode = .charge := by decide

/-- R376: the worked example's rate takes 0.5 units off a tick of 8,000 cycles. -/
theorem test_worked_example_of_the_rate : ((st [(Reg.TIME_RATE, 2 ^ 32 - 268435)]).at 8000).now = 39999 ∧ ((st []).at 8000).now = 40000 := by
  decide

/-- R54: a lane that arms is armed. -/
theorem test_arm_arms : answers (exec (.tickCmdArm 5 (.lane .a) .a) (st [] (ticking ∘ solo)))
    (fun t => t.m.bit (Reg.TICK_CTX 0) 1 && !t.m.bit (Reg.TICK_CTX 1) 1) = true := by decide

/-- R96: both lines of an encoder at once are an illegal transition. -/
theorem test_encoder_illegal : answers (exec (.encoderCount 5 1 true true) (st [(Reg.POS_CH_CFG 1, 0x40000000)]))
    (fun t => (t.m.chan 1).flags == 8 && (t.m.chan 1).c == 0) = true := by decide

/-- R98: two nibbles of position at the top of the turn, and none where their CRC is off. -/
theorem test_sent_position : answers (exec (.sentFrame 5 1 3 sentCal (sentPulses 0)) (sentAt []))
    (fun t => (t.m.chan 1).frames.map (·.1) == [0x56000000]) = true := by decide
theorem test_sent_crc : answers (exec (.sentFrame 5 1 3 sentCal (sentPulses 1)) (sentAt []))
    (fun t => (t.m.chan 1).frames.isEmpty) = true := by decide

/-- R100: sector 5 after sector 4 is an edge forward. -/
theorem test_hall_edge : answers (exec (.hallEdge 5 2 2#3) (st [(Reg.POS_HL_CFG 2, 0x5 * 64)] fun m =>
    m.onHall 2 fun h => { h with lastSector := 4 })) (fun t => (t.m.hall 2).lastSector == 5) = true := by decide

/-- R131: a corrected error counts. -/
theorem test_law_ecc_counts : answers (exec (.lawMemoryError 5 .b true) (st [(Reg.LAW_ECC 1, 0xFFFF)] pair))
    (fun t => t.m.rd (Reg.LAW_ECC 1) == 0xFFFF#32) = true := by decide

/-- R135: outside tick context a swap request is ignored and told. -/
theorem test_swap_outside_tick_context : answers (exec (.lawSwapRequest 5 (.lane .a) .a 8#32) (st [] (slots [(3, .pump)] ∘ pair)))
    (fun t => t.m.time.raised.map (·.code) == [0x0405]) = true := by decide

/-- R146: three ticks without a current sum are an F3. -/
theorem test_current_sum_fault : answers (exec (.phaseCurrentSumFault 5 .a 1) (motor fun f => { f with i0Count := 3 }))
    (fun t => t.m.modState .a 3 == 6 && t.m.time.raised.map (fun e => (e.code, e.cls, e.slot)) == [(0x1401, 3, 3)]) = true := by decide
theorem test_two_ticks_are_no_fault : answers (exec (.phaseCurrentSumFault 5 .a 1) (motor fun f => { f with i0Count := 2 }))
    (fun t => t.m.modState .a 3 == 0) = true := by decide

/-- A short circuit latches its pair. -/
theorem test_short_circuit_latches : answers (exec (.shortCircuitDetection 5 11 9000 9000) (st gates))
    (fun t => (t.m.pair 5).latchL && t.m.bit Reg.GDI_FAULT 5) = true := by decide

/-- R199: a voltage of 0 is no short circuit. -/
theorem test_no_voltage_no_short_circuit : answers (exec (.shortCircuitDetection 5 11 0 9000) (st gates))
    (fun t => !(t.m.pair 5).latchL && t.m.rd Reg.GDI_FAULT == 0#32) = true := by decide

/-- A clear without a safe frame is refused. -/
theorem test_clear_needs_safe_frame : answers (exec (.gdiClear 5 (.lane .a) 0x20#32 0xFFFF#16)
    (st ((Reg.GDI_FAULT, 0x20) :: gates) fun m => (accepted 3 id (solo m)).onPair 5 fun x => { x with latchH := true }))
    (fun t => (t.m.pair 5).latchH && t.m.time.raised.map (·.code) == [0x1C0E]) = true := by decide

/-- The sixth attempt latches the converter off. -/
theorem test_sixth_short_latches : answers (exec (.lvcOutputShort 5) (conv fun x => { x with state := 3, shortRun := 100, retry := 5 }))
    (fun t => t.m.lvc.state == 7) = true := by decide
theorem test_fifth_short_is_hiccup : answers (exec (.lvcOutputShort 5) (conv fun x => { x with state := 3, shortRun := 100, retry := 4 }))
    (fun t => t.m.lvc.state == 6) = true := by decide

/-- A charge timer below 60 s is refused. -/
theorem test_timer_range : answers (exec (.accessionTakesEffect 5) (st [] (waitingFor 1 (physical Reg.CHG_TIMER) 59)))
    (fun t => t.m.time.raised.map (·.code) == [0x280E]) = true := by decide
theorem test_timer_accepted : answers (exec (.accessionTakesEffect 5) (st [] (waitingFor 1 (physical Reg.CHG_TIMER) 60)))
    (fun t => t.m.rd Reg.CHG_TIMER == 60#32 && t.m.time.raised.isEmpty) = true := by decide

/-- R304: two units that differ leave the entry to the verdict. -/
theorem test_units_disagree : answers (exec (.asyncInputArrival 5 ⟨2, 1, 0, 0, 7, []⟩ ⟨2, 1, 0, 0, 8, []⟩ none) (st [] pair))
    (fun t => t.m.lane.waiting.isEmpty) = true := by decide
theorem test_units_agree : answers (exec (.asyncInputArrival 5 ⟨2, 1, 0, 0, 7, []⟩ ⟨2, 1, 0, 0, 7, []⟩ none) (st [] pair))
    (fun t => t.m.lane.waiting.map (·.value) == [7]) = true := by decide

/-- R318: a frame that the envelope passes, and one of another pattern length, which fails it. -/
theorem test_frame_accepted : answers (exec (.sieveFrameArrival 5 .b 3 true) (sieve fun b => { b with inFlight := [(.b, frame3)] }))
    (fun t => (t.m.sv 3).accepted.map (·.2) == some .b && !(t.m.sv 3).acceptedBad) = true := by decide
theorem test_frame_outside_envelope : answers (exec (.sieveFrameArrival 5 .b 3 true)
    (sieve fun b => { b with inFlight := [(.b, { frame3 with patlen := 7999 })] })) (fun t => (t.m.sv 3).acceptedBad) = true := by
  decide

/-- A descriptor at the ring's head is fetched. -/
theorem test_descriptor_fetched : answers (exec (.descriptorPost 5 (.lane .a) .a 3 1#32)
    (bytes 0x80000000 (descBytes 1) (ring [] 1 id))) (fun t => (t.m.ring .a 3).fetched.map (fun d => (d.op, d.len, d.tag)) == [(1, 300, 5)]) =
    true := by decide

/-- The scrubber wraps at the end of DRAM. -/
theorem test_scrub_wraps : answers (exec (.scrubLine 5) (st [(Reg.DMA_SCRUB, 0x3FFFFFF)] live))
    (fun t => t.m.fld Reg.DMA_SCRUB 25 0 == 0) = true := by decide

set_option maxRecDepth 100000 in
/-- A message under the right CRC makes its connection valid; one off by a bit does not. -/
theorem test_channel_becomes_valid : answers (exec (.aeddyReceive 5) (channel 1 0 id [])) (fun t => t.m.aeState 1 == 2) = true := by decide
set_option maxRecDepth 100000 in
theorem test_channel_crc : answers (exec (.aeddyReceive 5) (channel 1 1 id [])) (fun t => t.m.aeState 1 == 1) = true := by decide

/-- The rails rise in their order up to the first that does not. -/
theorem test_rails_rise : answers (exec (.powerUpSequence 5 3) (rails [] fun p => { p with phase := .off, vinOk := true }))
    (fun t => t.m.rd Reg.PWR_STATUS == 7#32) = true := by decide

/-- R456: a module without an image boots into recovery, without a tick. -/
theorem test_blank_boots_into_recovery : answers (exec (.bootComplete 5 [] [] default)
    (st [(Reg.PWR_STATUS, 0x3F), (Reg.SYS_MODE_STAT, 0)] fun m => m.onPwr fun p => { p with phase := .up, due := none }))
    (fun t => t.m.recovery && !t.m.tick.running) = true := by decide

/-- A command at the front of the queue is run, and the others wait on. -/
theorem test_step_takes_the_front : answers (step { st [] live with pending := [.scrubLine 5, .scrubLine 6] })
    (fun t => t.pending == [.scrubLine 6] && t.m.fld Reg.DMA_SCRUB 25 0 == 1) = true := by decide

end Sys2Proof.Tests
end

section
/-! The interrupt lines and the controllers' claims (R17, R51): which status bits make each source assert, and which pending source a
claim takes. -/

namespace Sys2Proof

/-! ### Fields and their bits -/

/-- Bit `i` of a field is bit `lo + i` of the word. -/
theorem Word.testBit_bits (w : Word) (hi lo i : Nat) :
    (w.bits hi lo).testBit i = (decide (i < hi + 1 - lo) && w.bit (lo + i)) := by
  simp [Word.bits, Word.bit, Nat.testBit_mod_two_pow, Nat.testBit_shiftRight]

theorem ne_zero_iff_exists_testBit (n : Nat) : n ≠ 0 ↔ ∃ i, n.testBit i = true :=
  ⟨Nat.exists_testBit_of_ne_zero, fun ⟨i, hi⟩ h => by simp [h] at hi⟩

/-- A field is not zero where one of its bits is set. -/
theorem Word.bits_ne_zero_iff (w : Word) (hi lo : Nat) : w.bits hi lo ≠ 0 ↔ ∃ i, lo ≤ i ∧ i ≤ hi ∧ w.bit i = true := by
  simp only [ne_zero_iff_exists_testBit, Word.testBit_bits, Bool.and_eq_true, decide_eq_true_eq]
  constructor
  · rintro ⟨i, hi, hb⟩
    exact ⟨lo + i, by omega, by omega, hb⟩
  · rintro ⟨i, hlo, hhi, hb⟩
    exact ⟨i - lo, by omega, by rwa [Nat.add_sub_cancel' hlo]⟩

end Sys2Proof

namespace Sys2Proof.Machine

/-! ### What each kind of line follows -/

theorem Mach.irqAny_iff (m : Mach) (stat en hi lo : Nat) :
    m.irqAny stat en hi lo = true ↔ ∃ i, lo ≤ i ∧ i ≤ hi ∧ m.bit stat i = true ∧ m.bit en i = true := by
  simp [Mach.irqAny, Word.bits_ne_zero_iff, Mach.bit]

/-- R371: bit `i` of DMA_R_IRQ has its enable in bit `28 + i` of DMA_R_CFG. -/
theorem Mach.ringAsserts_iff (m : Mach) (l r : Nat) :
    m.ringAsserts l r = true ↔
      ∃ i : Fin 4, m.bit (Reg.DMA_R_IRQ l r) i = true ∧ m.bit (Reg.DMA_R_CFG l r) (28 + i.val) = true := by
  unfold Mach.ringAsserts Mach.fld
  rw [decide_eq_true_iff, ne_zero_iff_exists_testBit]
  simp only [Nat.testBit_and, Word.testBit_bits, Bool.and_eq_true, decide_eq_true_eq, Nat.zero_add]
  constructor
  · rintro ⟨i, ⟨hi, hs⟩, -, he⟩
    exact ⟨⟨i, hi⟩, hs, he⟩
  · rintro ⟨i, hs, he⟩
    exact ⟨i, ⟨i.isLt, hs⟩, i.isLt, he⟩

theorem Mach.unitAsserts_iff (m : Mach) (l : Lane) (u : Nat) :
    m.unitAsserts l u = true ↔
      2 ≤ m.crcState l u ∧ m.bit (Reg.CRC_U_CFG l.ix u) 15 = true ∧ (nth (m.dma.lanes.get l).units u).quiet = false := by
  simp [Mach.unitAsserts, and_assoc]

theorem Mach.sourceAsserts_ring_a (m : Mach) (l : Lane) (r : Fin 16) : m.sourceAsserts l (8 + r.val) = m.ringAsserts 0 r := by
  unfold Mach.sourceAsserts
  rw [if_neg (by omega), if_neg (by omega), if_neg (by omega), if_pos (by omega), Nat.add_sub_cancel_left]

theorem Mach.sourceAsserts_ring_b (m : Mach) (l : Lane) (r : Fin 16) : m.sourceAsserts l (24 + r.val) = m.ringAsserts 1 r := by
  unfold Mach.sourceAsserts
  rw [if_neg (by omega), if_neg (by omega), if_neg (by omega), if_neg (by omega), if_pos (by omega), Nat.add_sub_cancel_left]

theorem Mach.sourceAsserts_ring (m : Mach) (l k : Lane) (r : Fin 16) :
    m.sourceAsserts l (8 + 16 * k.ix + r.val) = m.ringAsserts k.ix r := by
  cases k with
  | a => exact m.sourceAsserts_ring_a l r
  | b => exact m.sourceAsserts_ring_b l r

theorem Mach.sourceAsserts_unit (m : Mach) (l : Lane) (u : Fin 4) : m.sourceAsserts l (44 + u.val) = m.unitAsserts l u := by
  unfold Mach.sourceAsserts
  rw [if_neg (by omega), if_neg (by omega), if_neg (by omega), if_neg (by omega), if_neg (by omega), if_pos (by omega),
    Nat.add_sub_cancel_left]

/-! ### The sources that follow a block's status register -/

/-- Sources with a rule of their own: the tick start, the rings and the check-value units. -/
abbrev specialSource (n : Nat) : Prop := n = 1 ∨ (8 ≤ n ∧ n < 40) ∨ (44 ≤ n ∧ n < 48)

/-- The status register, the enable register and the highest and lowest bit that another source of lane `l` follows. -/
def statusLine (l : Lane) (n : Nat) : Option (Nat × Nat × Nat × Nat) :=
  if n = 6 then some (Reg.LAW_IRQ_STAT l.ix, Reg.LAW_IRQ_EN l.ix, 6, 5)
  else if n = 7 then some (Reg.LAW_IRQ_STAT l.ix, Reg.LAW_IRQ_EN l.ix, 4, 0)
  else (irqBlock l n).bind fun b => (irqSource n b.2.2).map fun f => (b.1, b.2.1, f)

theorem Mach.sourceAsserts_statusLine (m : Mach) (l : Lane) {n : Nat} (h : ¬ specialSource n) :
    m.sourceAsserts l n = (statusLine l n).elim false fun x => m.irqAny x.1 x.2.1 x.2.2.1 x.2.2.2 := by
  by_cases h6 : n = 6
  · subst h6; rfl
  by_cases h7 : n = 7
  · subst h7; rfl
  unfold Mach.sourceAsserts statusLine
  rw [if_neg (by omega), if_neg h6, if_neg h7, if_neg (by omega), if_neg (by omega), if_neg (by omega), if_neg h6, if_neg h7]
  cases irqBlock l n with
  | none => rfl
  | some b => cases hs : irqSource n b.2.2 <;> simp [hs]

/-- Each line of the blocks' interrupt tables is the one of its source. -/
theorem statusLine_of_mem_irqTable (l : Lane) : ∀ e ∈ irqTable l, ¬ specialSource e.1 ∧ statusLine l e.1 = some e.2 := by
  cases l <;> decide

theorem irqBlock_of_ge (l : Lane) {n : Nat} (h : 128 ≤ n) : irqBlock l n = none := by
  unfold irqBlock
  repeat rw [if_neg (by omega)]

/-- The numbers that no block has taken. -/
theorem statusLine_of_unused (l : Lane) {n : Nat}
    (h : n = 0 ∨ 128 ≤ n ∨ n ∈ [53, 54, 55, 71, 78, 79, 87, 92, 93, 94, 95, 109, 110, 111, 126, 127]) :
    ¬ specialSource n ∧ statusLine l n = none := by
  rcases h with rfl | h | h
  · cases l <;> decide
  · refine ⟨by omega, ?_⟩
    simp only [statusLine, irqBlock_of_ge l h, Option.bind_none]
    rw [if_neg (by omega), if_neg (by omega)]
  · revert n
    cases l <;> decide

/-! ### Claims -/

/-- One turn of the search for the source that a claim takes. -/
def Mach.plicBetter (m : Mach) (l : Lane) (best n : Nat) : Nat :=
  let p := m.plic.get l
  if m.plicPending l n && p.enabled n && decide ((if best = 0 then 0 else p.priority best) < p.priority n) then n else best

theorem Mach.plicBest_eq_foldl (m : Mach) (l : Lane) : m.plicBest l = (List.range 128).foldl (m.plicBetter l) 0 := rfl

/-- Source 0 is never pending. -/
theorem Mach.plicBetter_zero (m : Mach) (l : Lane) (best : Nat) : m.plicBetter l best 0 = best := by
  simp [Mach.plicBetter, Mach.plicPending]

theorem Mach.plicBetter_tickStart {m : Mach} {l : Lane} (h : m.plicPending l 1 = true) : m.plicBetter l 0 1 = 1 := by
  simp [Mach.plicBetter, h, Plic.enabled, Plic.priority, plicMax]

theorem Plic.priority_le {p : Plic} (h : ∀ x ∈ p.prio, x ≤ plicMax) (n : Nat) : p.priority n ≤ plicMax := by
  unfold Plic.priority nth
  split
  · exact le_refl _
  · rw [List.getD_eq_getElem?_getD]
    cases hn : p.prio[n]? with
    | none => exact Nat.zero_le _
    | some x => exact h x (List.mem_of_getElem? hn)

/-- No source has a priority above the tick start's, so none takes its place. -/
theorem Mach.plicBetter_one {m : Mach} {l : Lane} (h : ∀ x ∈ (m.plic.get l).prio, x ≤ plicMax) (n : Nat) : m.plicBetter l 1 n = 1 := by
  have hn := Plic.priority_le h n
  have h1 : (m.plic.get l).priority 1 = plicMax := rfl
  simp [Mach.plicBetter, h1, Nat.not_lt.2 hn]

theorem Mach.plicBest_tickStart {m : Mach} {l : Lane} (hp : m.plicPending l 1 = true)
    (h : ∀ x ∈ (m.plic.get l).prio, x ≤ plicMax) : m.plicBest l = 1 := by
  have hr : List.range 128 = 0 :: 1 :: List.range' 2 126 := by decide
  rw [Mach.plicBest_eq_foldl, hr, List.foldl_cons, List.foldl_cons, Mach.plicBetter_zero, Mach.plicBetter_tickStart hp]
  exact List.foldl_fixed' (Mach.plicBetter_one h) _

/-- Settles O60: every source by the kind of its line, and the claim by the search that the tick start ends. -/
theorem interruptSourcesFollowTheirBits : Obligations.InterruptSourcesFollowTheirBits := by
  refine ⟨fun s l => ⟨rfl, ?_, ?_, ?_, ?_, Mach.plicBest_tickStart⟩, fun p v => ⟨rfl, rfl, rfl⟩⟩
  · intro n stat en hi lo hmem
    obtain ⟨hn, hline⟩ := statusLine_of_mem_irqTable l _ hmem
    rw [Mach.sourceAsserts_statusLine _ _ hn, hline, Option.elim_some, Mach.irqAny_iff]
  · intro k r
    rw [Mach.sourceAsserts_ring, Mach.ringAsserts_iff]
  · intro u
    rw [Mach.sourceAsserts_unit, Mach.unitAsserts_iff]
  · intro n hn
    obtain ⟨hs, hline⟩ := statusLine_of_unused l hn
    rw [Mach.sourceAsserts_statusLine _ _ hs, hline, Option.elim_none]

end Sys2Proof.Machine
end

section
/-! Accesses to peripheral space (R10 to R14, R58, R302): the word that an address names, what a register takes of a write and what it
answers to a read, and the snapshots of R13. -/

namespace Sys2Proof.Machine

variable (m : Mach)

/-! ### What the operations of an access leave as it was -/

@[simp] theorem Mach.advanceTo_route (cyc : Nat) (l : Lane) : (m.advanceTo cyc).route l = m.route l := rfl

theorem Mach.advanceTo_readerInTick (cyc : Nat) (who : Writer) : (m.advanceTo cyc).readerInTick who = m.readerInTick who := by
  cases who <;> rfl

section
variable (l : Lane)
@[simp] theorem Mach.plicLatch_rd (b : Nat) : (m.plicLatch l).rd b = m.rd b := rfl
@[simp] theorem Mach.plicLatch_time : (m.plicLatch l).time = m.time := rfl
@[simp] theorem Mach.plicLatch_setBits (b : Nat) : (m.plicLatch l).setBits b = m.setBits b := rfl
end

/-! ### Addresses -/

theorem peripheralOffset_physical {a : Nat} (h : a < 0x140000) : peripheralOffset (BitVec.ofNat 40 (physical a)).toNat = some a := by
  have ha : (BitVec.ofNat 40 (physical a)).toNat = 0x300000000 + a := by
    rw [BitVec.toNat_ofNat, physical]
    omega
  have hr : regionOf (0x300000000 + a) = .peripheral := by
    unfold regionOf
    rw [if_neg (by omega), if_neg (by omega), if_neg (by omega), if_neg (by omega), if_neg (by omega), if_neg (by omega),
      if_pos (by omega)]
  rw [ha, peripheralOffset, hr, if_pos rfl, physical]
  simp

/-- The offset of a word of peripheral space. -/
abbrev wordOffset (a : Nat) : Prop := a < 0x140000 ∧ a % 4 = 0

/-- REGISTER_WRITE at a register's own address is a write of that register. -/
theorem exec_registerWrite {a : Nat} (h : wordOffset a) (cyc : Nat) (who : Writer) (v : Word) (s : State) :
    exec (.registerWrite cyc who (BitVec.ofNat 40 (physical a)) v) s =
      .next { s with m := ((s.at cyc).regWrite s.mem who a v).1.settle, mem := ((s.at cyc).regWrite s.mem who a v).2 } := by
  change execRegisterWrite cyc who _ v s = _
  simp only [execRegisterWrite, runMem, peripheralOffset_physical h.1, if_pos h.2, State.at]

/-- RSN_LEAD_READ at a register's own address is a read of that register. -/
theorem exec_rsnLeadRead {a : Nat} (h : wordOffset a) (cyc : Nat) (who : Writer) (s : State) :
    exec (.rsnLeadRead cyc who (BitVec.ofNat 40 (physical a))) s =
      .next { s with m := ((s.at cyc).regRead who a).settle } := by
  change execRsnLeadRead cyc who _ s = _
  simp only [execRsnLeadRead, peripheralOffset_physical h.1, if_pos h.2, run_next, State.at]

/-- What a write leaves that touches no memory, from what it does to the registers and which events it raises. -/
theorem registerWrite_leaves {a cyc : Nat} {who : Writer} {v : Word} {s : State} {m' : Mach} {l : List Nat} {es : List Event}
    (ha : wordOffset a) (hw : (s.at cyc).regWrite s.mem who a v = (m', s.mem)) (hr : ∀ b, b ∉ l → m'.rd b = s.m.rd b)
    (he : m'.time.raised = s.m.time.raised ++ es) :
    ∃ t, exec (.registerWrite cyc who (BitVec.ofNat 40 (physical a)) v) s = .next t ∧ t.m = m'.settle ∧
      SameRegsBut s t l ∧ SameMemory s t ∧ Raises s t es := by
  refine ⟨{ s with m := m'.settle }, ?_, rfl, fun b hb => ?_, fun _ => rfl, he⟩
  · rw [exec_registerWrite ha, hw]
  · exact (m'.settle_rd b).trans (hr b hb)

/-! ### Writes that change nothing (R8, R11) -/

theorem Mach.regWrite_noRegister {a : Nat} (h : regAt a = none) (mem : List Host.Cell) (who : Writer) (v : Word) :
    m.regWrite mem who a v = (m, mem) := by
  simp only [Mach.regWrite, h]

/-- A device-wide register that is read only takes no write, whoever writes; CHG_CTRL, where the safety processor asks for STOP, is
none. -/
theorem Mach.regWrite_readOnly {a : Nat} {r : RegRow} {ix : List Nat} (h : regAt a = some (r, ix)) (hk : r.kind = .result)
    (hl : regLane r ix = none) (ha : a ≠ Reg.SYS_MODE_REQ ∧ a ≠ Reg.CHG_CTRL) (mem : List Host.Cell) (who : Writer) (v : Word) :
    m.regWrite mem who a v = (m, mem) := by
  by_cases hu : absentReg m.variant r ix = true
  · simp [Mach.regWrite, h, hu]
  · cases who with
    | safety => simp [Mach.regWrite, h, hu, ha]
    | lane l => simp [Mach.regWrite, h, hu, ha, hl, hk]

/-- At `a` no register lies, or one that is device-wide and read only. -/
abbrev ignoresWrites (a : Nat) : Prop :=
  ∀ x ∈ regAt a, x.1.kind = .result ∧ regLane x.1 x.2 = none ∧ a ≠ Reg.SYS_MODE_REQ ∧ a ≠ Reg.CHG_CTRL

theorem Mach.regWrite_ignored {a : Nat} (h : ignoresWrites a) (mem : List Host.Cell) (who : Writer) (v : Word) :
    m.regWrite mem who a v = (m, mem) := by
  cases hr : regAt a with
  | none => exact m.regWrite_noRegister hr mem who v
  | some x =>
    obtain ⟨hk, hl, ha⟩ := h x hr
    exact m.regWrite_readOnly hr hk hl ha mem who v

/-! ### A lone lane's write to a device-wide register (R302) -/

theorem State.alone.route {s : State} {l : Lane} (h : s.alone l) (cyc : Nat) : (s.at cyc).route l = .now := by
  obtain ⟨ha, hp⟩ := h
  rw [State.at, Mach.advanceTo_route]
  simp [Mach.route, ha, hp]

/-- The write stands in the write list of the tick where the other lane, in SHADOW, is to be compared (R322). -/
def Mach.noted (l : Lane) (a : Nat) (v : Word) : Mach := if m.inTick l && m.laneCode l.other == 5 then m.collect l a v else m

/-- Noting a write changes the lane's own part alone. -/
theorem Mach.noted_eq_onLane (l : Lane) (a : Nat) (v : Word) : ∃ f, m.noted l a v = m.onLane l f := by
  unfold Mach.noted
  split
  · exact ⟨_, rfl⟩
  · exact ⟨id, by cases l <;> rfl⟩

section
variable (l : Lane) (a : Nat) (v : Word)

@[simp] theorem Mach.noted_rd (b : Nat) : (m.noted l a v).rd b = m.rd b := by
  obtain ⟨f, hf⟩ := m.noted_eq_onLane l a v
  rw [hf, Mach.onLane_rd]

@[simp] theorem Mach.noted_time : (m.noted l a v).time = m.time := by
  obtain ⟨f, hf⟩ := m.noted_eq_onLane l a v
  rw [hf, Mach.onLane_time]

@[simp] theorem Mach.noted_locked : (m.noted l a v).locked = m.locked := by
  obtain ⟨f, hf⟩ := m.noted_eq_onLane l a v
  rw [hf, Mach.onLane_locked]

@[simp] theorem Mach.noted_setBits (b : Nat) : (m.noted l a v).setBits b = m.setBits b := by
  obtain ⟨f, hf⟩ := m.noted_eq_onLane l a v
  rw [hf]
  rfl

theorem Mach.noted_eventAt (code cls slot : Nat) (d : List Nat) (o : Nat) :
    eventAt (m.noted l a v) code cls slot d o = eventAt m code cls slot d o := by
  obtain ⟨f, hf⟩ := m.noted_eq_onLane l a v
  rw [hf]
  rfl
end

/-- A device-wide register of every variant whose write is no duty of the service lane and no asynchronous input. -/
abbrev deviceWide (a : Nat) (r : RegRow) (ix : List Nat) : Prop :=
  r.unit = .always ∧ regLane r ix = none ∧ r.kind ≠ .result ∧ a ≠ Reg.SYS_MODE_REQ ∧ asyncReg a = false ∧ serviceReg a = false

theorem Mach.regWrite_now {a : Nat} {r : RegRow} {ix : List Nat} {l : Lane} (h : regAt a = some (r, ix)) (hd : deviceWide a r ix)
    (hr : m.route l = .now) (mem : List Host.Cell) (v : Word) :
    m.regWrite mem (.lane l) a v = ((m.noted l a v).deviceEffect r a l.origin v, mem) := by
  obtain ⟨hu, hl, hk, hm, ha, hs⟩ := hd
  simp only [Mach.regWrite, h, hl, absentReg, hu, Bool.false_eq_true, if_false, hm, hk, ha, hs, Mach.devWrite, hr]
  rfl

/-! ### What a register takes (R10, R12, R14) -/

/-- Registers whose write has a meaning beyond their access bits. -/
abbrev specialWrite (a : Nat) : Prop :=
  a ∈ [Reg.TICK_PERIOD, Reg.GDI_CLR, Reg.GDL_CLR, Reg.SAFE_CMD, Reg.TIME_RATE, Reg.TIME_SLEW, Reg.TIME_CAPCFG] ∨
    (indexIn a (Reg.TIME_CAPSRC 0) 4 12).isSome

theorem Mach.deviceEffect_plain {r : RegRow} {a : Nat} (hk : r.kind = .plain) (ha : ¬ specialWrite a) (origin : Nat) (v : Word) :
    m.deviceEffect r a origin v = m.plainWrite r a v := by
  simp only [not_or, List.mem_cons, List.not_mem_nil, or_false] at ha
  obtain ⟨⟨h1, h2, h3, h4, h5, h6, h7⟩, h8⟩ := ha
  simp only [Mach.deviceEffect, hk, h1, h2, h3, h4, h5, h6, h7, h8, reduceCtorEq, false_and, if_false, Bool.false_eq_true]

theorem Mach.deviceEffect_locked {r : RegRow} (hk : r.kind = .locked) (hl : m.locked = true) (a origin : Nat) (v : Word) :
    m.deviceEffect r a origin v = m.lockedWrite a := if_pos ⟨hk, hl⟩

/-- What a register without lockable fields holds after a write: `rw` bits as written, `w1c` bits cleared where a 1 was written and
hardware did not set them in the same cycle. -/
def Mach.taken (a rw w1c : Nat) (v : Word) : Word :=
  ((m.rd a &&& ~~~BitVec.ofNat 32 rw) ||| (v &&& BitVec.ofNat 32 rw)) &&&
    ~~~(v &&& BitVec.ofNat 32 w1c &&& ~~~BitVec.ofNat 32 (m.setBits a))

theorem Mach.taken_rw (a mask : Nat) (v : Word) :
    m.taken a mask 0 v = (m.rd a &&& ~~~BitVec.ofNat 32 mask) ||| (v &&& BitVec.ofNat 32 mask) := by
  simp only [Mach.taken, BitVec.and_zero, BitVec.zero_and, BitVec.not_zero, BitVec.and_allOnes]

theorem Mach.taken_w1c (a mask : Nat) (v : Word) :
    m.taken a 0 mask v = m.rd a &&& ~~~(v &&& BitVec.ofNat 32 mask &&& ~~~BitVec.ofNat 32 (m.setBits a)) := by
  simp only [Mach.taken, BitVec.and_zero, BitVec.not_zero, BitVec.and_allOnes, BitVec.or_zero]

theorem Mach.lockedField_eq_false {r : RegRow} (hl : r.rwl = 0) (a : Nat) (v : Word) : m.lockedField r a v = false := by
  simp [Mach.lockedField, hl]

/-- A write of such a register is one write of hardware, after the interrupt controllers have kept what its line asks for. -/
theorem Mach.plainWrite_eq_wr {r : RegRow} (hl : r.rwl = 0) (a : Nat) (v : Word) :
    ∃ m', (m' = m ∨ m' = (m.plicLatch .a).plicLatch .b) ∧ m.plainWrite r a v = m'.wr a (m.taken a r.rw r.w1c v) := by
  simp only [Mach.plainWrite, m.lockedField_eq_false hl, Bool.false_eq_true, if_false, hl, Nat.or_zero, ite_self]
  split
  · exact ⟨_, .inr rfl, by simp only [Mach.plicLatch_rd, Mach.plicLatch_setBits, Mach.taken]⟩
  · exact ⟨m, .inl rfl, rfl⟩

theorem Mach.plainWrite_rd {r : RegRow} (hl : r.rwl = 0) (a b : Nat) (v : Word) :
    (m.plainWrite r a v).rd b = if b = a then m.taken a r.rw r.w1c v else m.rd b := by
  obtain ⟨m', hm, h⟩ := m.plainWrite_eq_wr hl a v
  rw [h, Mach.rd_wr]
  rcases hm with rfl | rfl <;> simp only [Mach.plicLatch_rd]

theorem Mach.plainWrite_time {r : RegRow} (hl : r.rwl = 0) (a : Nat) (v : Word) : (m.plainWrite r a v).time = m.time := by
  obtain ⟨m', hm, h⟩ := m.plainWrite_eq_wr hl a v
  rw [h, Mach.wr_time]
  rcases hm with rfl | rfl <;> simp only [Mach.plicLatch_time]

/-- The register at `a` is device-wide and takes a write by its access bits alone: `rw` bits are replaced, `w1c` bits cleared. -/
abbrev takesByBits (a rw w1c : Nat) : Prop :=
  wordOffset a ∧ ¬ specialWrite a ∧
    ∃ x ∈ regAt a, deviceWide a x.1 x.2 ∧ x.1.kind = .plain ∧ x.1.rw = rw ∧ x.1.w1c = w1c ∧ x.1.rwl = 0

/-- A lone lane's write to such a register changes it alone. -/
theorem registerWrite_byBits {a rw w1c : Nat} (h : takesByBits a rw w1c) {l : Lane} {s : State} (hs : s.alone l) (cyc : Nat) (v : Word) :
    ∃ t, exec (.registerWrite cyc (.lane l) (BitVec.ofNat 40 (physical a)) v) s = .next t ∧ t.m.rd a = (s.at cyc).taken a rw w1c v ∧
      SameRegsBut s t [a] ∧ SameMemory s t ∧ Raises s t [] := by
  obtain ⟨ha, hsp, ⟨r, ix⟩, hrow, hd, hk, rfl, rfl, hrwl⟩ := h
  have hw : (s.at cyc).regWrite s.mem (.lane l) a v = (((s.at cyc).noted l a v).plainWrite r a v, s.mem) := by
    rw [Mach.regWrite_now _ hrow hd (hs.route cyc), Mach.deviceEffect_plain _ hk hsp]
  obtain ⟨t, ht, hm, hframe⟩ := registerWrite_leaves (l := [a]) (es := []) ha hw
    (fun b hb => by rw [Mach.plainWrite_rd _ hrwl, if_neg (List.mem_singleton.not.1 hb), Mach.noted_rd]; rfl)
    (by rw [Mach.plainWrite_time _ hrwl, Mach.noted_time, List.append_nil]; rfl)
  refine ⟨t, ht, ?_, hframe⟩
  rw [hm, Mach.settle_rd, Mach.plainWrite_rd _ hrwl, if_pos rfl]
  simp [Mach.taken]

/-- A lone lane's write to a locked device-wide register is told and changes nothing (R14). -/
theorem registerWrite_locked {a : Nat} (ha : wordOffset a) (h : ∃ x ∈ regAt a, deviceWide a x.1 x.2 ∧ x.1.kind = .locked) {l : Lane}
    {s : State} (hs : s.alone l) (hl : s.m.locked = true) (cyc : Nat) (v : Word) :
    ∃ t, exec (.registerWrite cyc (.lane l) (BitVec.ofNat 40 (physical a)) v) s = .next t ∧
      SameRegsBut s t [] ∧ SameMemory s t ∧ Raises s t [eventAt (s.at cyc) 0x0006 0 0xFF (leBytes 5 (physical a)) 0] := by
  obtain ⟨⟨r, ix⟩, hrow, hd, hk⟩ := h
  have hw : (s.at cyc).regWrite s.mem (.lane l) a v = (((s.at cyc).noted l a v).lockedWrite a, s.mem) := by
    rw [Mach.regWrite_now _ hrow hd (hs.route cyc), Mach.deviceEffect_locked _ hk (by rw [Mach.noted_locked]; exact hl)]
  obtain ⟨t, ht, -, hframe⟩ := registerWrite_leaves (l := [])
    (es := [eventAt (s.at cyc) 0x0006 0 0xFF (leBytes 5 (physical a)) 0]) ha hw
    (fun b _ => by rw [Mach.lockedWrite, Mach.raise_rd, Mach.noted_rd]; rfl)
    (by rw [← Mach.noted_eventAt _ l a v, Mach.lockedWrite, Mach.raise_raised, Mach.noted_time]; rfl)
  exact ⟨t, ht, hframe⟩

/-! ### Reads and snapshots (R13) -/

/-- What a latched group shows its reader: the values that its members had. -/
theorem Mach.latched_latch (who lead : Nat) (f : Nat → Word) {regs : List Nat} {a : Nat} (ha : a ∈ regs) :
    (m.latch who lead (regs.map fun x => (x, f x))).latched who lead a = f a := by
  unfold Mach.latched Mach.latch
  have hold : ((m.snaps.filter fun s => !(s.1 == who && s.2.1 == lead)).find?
      fun s => s.1 == who && s.2.1 == lead && s.2.2.1 == a) = none := by
    rw [List.find?_eq_none]
    intro s hs hp
    have hkeep := (List.mem_filter.1 hs).2
    simp only [Bool.and_eq_true] at hp
    simp [hp.1] at hkeep
  simp only [List.find?_append, hold, Option.none_or]
  split
  next s hs =>
    have hp := List.find?_some hs
    obtain ⟨_, hmem, rfl⟩ := List.mem_map.1 (List.mem_of_find?_eq_some hs)
    obtain ⟨x, -, rfl⟩ := List.mem_map.1 (List.mem_filter.1 hmem).1
    have hx : x = a := by simpa using hp
    rw [hx]
  next hs =>
    by_contra hne
    have hmem : (who, lead, a, f a) ∈ ((regs.map fun x => (x, f x)).filter fun v => v.2 != 0#32).map fun v => (who, lead, v.1, v.2) :=
      List.mem_map.2 ⟨(a, f a), List.mem_filter.2 ⟨List.mem_map.2 ⟨a, ha, rfl⟩, by simpa using Ne.symm hne⟩, rfl⟩
    simpa using List.find?_eq_none.1 hs _ hmem

/-- A device-wide register of every variant whose read has no meaning of its own. -/
abbrev plainlyRead (a : Nat) (r : RegRow) (ix : List Nat) : Prop :=
  r.unit = .always ∧ regLane r ix = none ∧ indexIn a (Reg.NET_P_TXTS_INFO 0) 0x40 7 = none ∧ a ≠ Reg.LANE_JRN_DATA ∧
    writeOnly r a = false

section
variable {a : Nat} {r : RegRow} {ix : List Nat} (h : regAt a = some (r, ix)) (hp : plainlyRead a r ix)
include h hp

/-- Outside tick context a register reads as it stands. -/
theorem Mach.readValue_live {who : Writer} (hw : m.readerInTick who = false) : m.readValue who a = m.liveValue a := by
  obtain ⟨hu, hl, -, -, ho⟩ := hp
  simp [Mach.readValue, h, absentReg, hu, hl, ho, hw]

theorem Mach.regRead_lead (hlead : r.lead = true) (who : Writer) :
    m.regRead who a = (m.latchGroup who r ix a).say (.data (m.readValue who a)) := by
  obtain ⟨hu, hl, hi, hj, -⟩ := hp
  simp [Mach.regRead, h, absentReg, hu, hl, hi, hj, hlead]

theorem Mach.regRead_member {lead : Nat} (hno : r.lead = false) (hlead : leadOf r ix = some lead) (who : Writer) :
    m.regRead who a = m.say (.data (m.latched who.ix lead a)) := by
  obtain ⟨hu, hl, hi, hj, -⟩ := hp
  simp [Mach.regRead, h, absentReg, hu, hl, hi, hj, hno, hlead]
end

/-- The row of TICK_SEQ_LO (R63). -/
def tickSeqRow : RegRow := tickRows[3]

/-- The row of TICK_T0_LO (R63). -/
def tickT0Row : RegRow := tickRows[5]

theorem regAt_tickSeq : regAt Reg.TICK_SEQ_LO = some (tickSeqRow, []) := rfl
theorem regAt_tickT0 : regAt Reg.TICK_T0_LO = some (tickT0Row, []) := rfl

theorem tickT0_mem_group : Reg.TICK_T0_LO ∈ groupRegs tickSeqRow [] := by decide
theorem leadOf_tickT0 : leadOf tickT0Row [] = some Reg.TICK_SEQ_LO := by decide

/-- Reading TICK_SEQ_LO answers it and latches its group. -/
theorem Mach.regRead_tickSeq {who : Writer} (hw : m.readerInTick who = false) :
    m.regRead who Reg.TICK_SEQ_LO =
      (m.latchGroup who tickSeqRow [] Reg.TICK_SEQ_LO).say (.data (m.rd Reg.TICK_SEQ_LO)) := by
  rw [Mach.regRead_lead m regAt_tickSeq (by decide) rfl, Mach.readValue_live m regAt_tickSeq (by decide) hw]
  rfl

/-- Reading TICK_T0_LO answers from the reader's snapshot. -/
theorem Mach.regRead_tickT0 (who : Writer) :
    m.regRead who Reg.TICK_T0_LO = m.say (.data (m.latched who.ix Reg.TICK_SEQ_LO Reg.TICK_T0_LO)) :=
  Mach.regRead_member m regAt_tickT0 (by decide) rfl leadOf_tickT0 who

/-- The latched group holds TICK_T0_LO as it stood. -/
theorem Mach.latched_tickT0 {who : Writer} (hw : m.readerInTick who = false) :
    (m.latchGroup who tickSeqRow [] Reg.TICK_SEQ_LO).latched who.ix Reg.TICK_SEQ_LO Reg.TICK_T0_LO = m.rd Reg.TICK_T0_LO := by
  rw [Mach.latchGroup, Mach.latched_latch m _ _ (m.readValue who) tickT0_mem_group, Mach.readValue_live m regAt_tickT0 (by decide) hw]
  rfl

theorem Mach.latched_congr {m m' : Mach} (h : m.snaps = m'.snaps) (who lead a : Nat) : m.latched who lead a = m'.latched who lead a := by
  rw [Mach.latched, Mach.latched, h]

/-- The interrupt registers of the device-wide blocks take a write by their access bits: all bits of one can be written, all of the
other cleared. -/
theorem irqPairs_takesByBits : ∀ p ∈ irqPairs, takesByBits p.1 0 p.2.2 ∧ takesByBits p.2.1 p.2.2 0 := by decide

/-- Settles O10: the write of a register by what its row takes, and the two reads by the snapshot between them. -/
theorem registersByAccessTypeAndSnapshots : Obligations.RegistersByAccessTypeAndSnapshots := by
  refine ⟨?_, ?_, ?_, ?_⟩
  · intro cyc l v s stat en mask hs hp
    obtain ⟨hstat, hen⟩ := irqPairs_takesByBits _ hp
    obtain ⟨t, ht, hrd, hframe⟩ := registerWrite_byBits hen hs cyc v
    obtain ⟨u, hu, hrd', hframe'⟩ := registerWrite_byBits hstat hs cyc v
    exact ⟨⟨t, ht, hrd.trans (Mach.taken_rw _ en mask v), hframe⟩, u, hu, hrd'.trans (Mach.taken_w1c _ stat mask v), hframe'⟩
  · intro cyc who v s a ha
    have hw : wordOffset a ∧ ignoresWrites a := by revert a; decide
    obtain ⟨t, ht, -, hframe⟩ := registerWrite_leaves (l := []) (es := []) hw.1 (Mach.regWrite_ignored (s.at cyc) hw.2 s.mem who v)
      (fun _ _ => rfl) (List.append_nil _).symm
    exact ⟨t, ht, hframe⟩
  · intro cyc l v s hs hl
    obtain ⟨t, ht, hregs, hmem, hev⟩ := registerWrite_locked (a := Reg.TICK_PERIOD) (by decide) (by decide) hs hl cyc v
    exact ⟨t, ht, hev, hregs, hmem⟩
  · intro cyc who s hw
    have hw' : (s.at cyc).readerInTick who = false := (s.m.advanceTo_readerInTick cyc who).trans hw
    refine ⟨_, exec_rsnLeadRead (by decide) cyc who s, ?_⟩
    rw [Mach.regRead_tickSeq _ hw']
    have hT0 := Mach.latched_tickT0 _ hw'
    refine ⟨rfl, hT0, fun b _ => Mach.settle_rd _ b, fun _ => rfl, (List.append_nil _).symm, ?_⟩
    intro c t' u hsnaps _ hu
    rw [exec_rsnLeadRead (by decide), Mach.regRead_tickT0] at hu
    cases hu
    exact congrArg _ ((Mach.latched_congr hsnaps _ _ _).trans hT0)

end Sys2Proof.Machine
end

section
/-! Requests that wait (R25, R31, R302, R304, R305, R473): where a lane's write to a device-wide register goes when it does not apply at
once, what an asynchronous input leaves, and how a mode request is refused. -/

namespace Sys2Proof.Machine

variable (m : Mach)

/-! ### Where a write goes (R302) -/

theorem Mach.pairedLive_of_not_admitted {l : Lane} (h : m.admitted l = false) : m.pairedLive = false := by
  cases l <;> simp [Mach.pairedLive, h]

/-- The lane has no effect outside itself: it is not admitted, and not in BOOT before tick 0 (R301, R302; log entry 49). -/
abbrev Mach.barred (l : Lane) : Prop := m.admitted l = false ∧ (m.laneCode l ≠ 0 ∨ m.tick.running = true)

theorem Mach.route_of_barred {l : Lane} (h : m.barred l) : m.route l = if m.inTick l then .collect l else .ignore := by
  obtain ⟨ha, hc⟩ := h
  have hnow : ¬ (m.admitted l || (m.laneCode l == 0 && !m.tick.running)) = true := by
    rcases hc with hc | hc <;> simp [ha, hc]
  rw [Mach.route, m.pairedLive_of_not_admitted ha, if_neg Bool.false_ne_true, if_neg hnow]

theorem Mach.route_eq_collect {l : Lane} (ht : m.inTick l = true) (h : m.pairedLive = true ∨ m.barred l) : m.route l = .collect l := by
  rcases h with hp | hb
  · rw [Mach.route, if_pos hp, if_pos ht]
  · rw [m.route_of_barred hb, if_pos ht]

theorem Mach.route_eq_ignore {l : Lane} (ht : m.inTick l = false) (h : (m.pairedLive = true ∧ m.active ≠ l) ∨ m.barred l) :
    m.route l = .ignore := by
  rcases h with ⟨hp, ha⟩ | hb
  · rw [Mach.route, if_pos hp, ht, if_neg Bool.false_ne_true, if_neg (by simpa using ha)]
  · rw [m.route_of_barred hb, ht, if_neg Bool.false_ne_true]

section
variable {l : Lane} (a : Nat) (v : Word) (eff : Mach → Mach)

theorem Mach.devWrite_now (h : m.route l = .now) : m.devWrite l a v eff = eff (m.noted l a v) := by
  rw [Mach.devWrite, h]
  rfl

theorem Mach.devWrite_collect (h : m.route l = .collect l) : m.devWrite l a v eff = m.collect l a v := by
  rw [Mach.devWrite, h]

theorem Mach.devWrite_ignore (h : m.route l = .ignore) : m.devWrite l a v eff = m.incMod Reg.LANE_NETSTAT 15 0 := by
  rw [Mach.devWrite, h]

/-- Whatever a device-wide write does where it applies at once, R302 says where it goes otherwise. -/
theorem routedElsewhere_devWrite (s : State) (cyc : Nat) :
    RoutedElsewhere s l a v (run s cyc fun m => m.devWrite l a v eff) := by
  refine ⟨fun ht h => ?_, fun ht h => ?_⟩
  · have hw := (s.m.advanceTo cyc).devWrite_collect a v eff (s.m.route_eq_collect ht h)
    rw [run_next, hw]
    exact ⟨_, rfl, rfl, congrArg LaneState.writeList (Two.get_set_self ..), fun b _ => Mach.settle_rd _ b, fun _ => rfl,
      (List.append_nil _).symm⟩
  · have hw := (s.m.advanceTo cyc).devWrite_ignore a v eff (s.m.route_eq_ignore ht h)
    rw [run_next, hw]
    refine ⟨_, rfl, rfl, ?_, fun b hb => ?_, fun _ => rfl, (List.append_nil _).symm⟩
    · rw [Mach.settle_fld, Mach.incMod, Mach.fld_setFld _ _ (by omega) (by omega)]
      rfl
    · rw [Mach.settle_rd, Mach.incMod, Mach.rd_setFld, if_neg (List.mem_singleton.not.1 hb)]
      rfl
end

/-! ### Asynchronous inputs (R304, R305) -/

@[simp] theorem Mach.noted_lane (l : Lane) (a : Nat) (v : Word) : (m.noted l a v).lane = m.lane := by
  obtain ⟨f, hf⟩ := m.noted_eq_onLane l a v
  rw [hf, Mach.onLane_lane]

/-- A command that submits an asynchronous input, while nothing waits: the input waits, and nothing else changes; `m'` is the machine
that submits it. -/
theorem run_accede {s : State} {cyc : Nat} {f : Mach → Mach} {m' : Mach} {i : AsyncIn} (hf : f (s.at cyc) = m'.accede i)
    (hroom : s.roomy) (hp : entryBytes i.payload ≤ 1024) (hlane : m'.lane = s.m.lane) (hrd : ∀ b, m'.rd b = s.m.rd b)
    (hraised : m'.time.raised = s.m.time.raised) :
    ∃ t, run s cyc f = .next t ∧ t.m.lane.waiting = [m'.entryOf m'.accTickNow i] ∧ Quiet s t [] := by
  have hw : m'.lane.waiting = [] := by rw [hlane, hroom]
  have hwait : f (s.m.advanceTo cyc) = m'.wait (m'.entryOf m'.accTickNow i) := hf.trans (m'.accede_roomy hw hp)
  rw [run_next, hwait]
  refine ⟨_, rfl, ?_, fun b _ => (Mach.settle_rd _ b).trans (hrd b), fun _ => rfl, hraised.trans (List.append_nil _).symm⟩
  rw [Mach.settle_lane, Mach.wait_lane, hw, insertEntry_nil]

/-- A lane's write to a register that is an asynchronous input, where it applies at once. -/
theorem run_asyncWrite_now {s : State} {l : Lane} (hr : s.m.route l = .now) (hroom : s.roomy) (cyc a : Nat) (v : Word) :
    ∃ t e, (run s cyc fun m => m.asyncWrite l a v) = .next t ∧ t.m.lane.waiting = [e] ∧ e.kind = 1 ∧ e.origin = l.origin ∧
      e.addr = physical a % 2 ^ 32 ∧ e.value = v.toNat ∧ Quiet s t [] := by
  obtain ⟨t, ht, hwait, hq⟩ := run_accede (cyc := cyc) (f := fun m => m.asyncWrite l a v) (m' := (s.at cyc).noted l a v)
    (Mach.devWrite_now _ a v _ hr) hroom (by simp [entryBytes]) (Mach.noted_lane ..) (fun b => Mach.noted_rd _ l a v b)
    (by rw [Mach.noted_time]; rfl)
  exact ⟨t, _, ht, hwait, rfl, rfl, rfl, rfl, hq⟩

/-! ### Events -/

/-- What an event shows beside its own operands: the clock, the tick's number and the states of the lanes. -/
theorem eventAt_congr {m m' : Mach} (htime : m'.time = m.time) (htick : m'.tick = m.tick)
    (hrd : ∀ b ∈ [Reg.TICK_SEQ_LO, Reg.TICK_SEQ_HI, Reg.TICK_PERIOD, Reg.LANE_STATUS], m'.rd b = m.rd b)
    (code cls slot : Nat) (d : List Nat) (o : Nat) : eventAt m' code cls slot d o = eventAt m code cls slot d o := by
  simp only [List.forall_mem_cons] at hrd
  obtain ⟨hlo, hhi, hper, hst, -⟩ := hrd
  simp only [eventAt, Mach.now, Mach.tickNow, Mach.seq, Mach.rd64, Mach.period, Mach.fld, Mach.replayed, Mach.laneCode, htime, htick,
    hlo, hhi, hper, hst]

/-! ### A mode request is written (R31) -/

theorem Mach.modeWrite_lane {v : Word} (h : v.bits 2 0 ≤ 5) (l : Lane) :
    m.modeWrite (.lane l) v = m.asyncWrite l Reg.SYS_MODE_REQ (BitVec.ofNat 32 (v.bits 2 0)) := if_neg (by omega)

theorem Mach.modeWrite_safety {v : Word} (h : v.bits 2 0 = 5) :
    m.modeWrite .safety v = m.accede ⟨1, 0, 3, physical Reg.SYS_MODE_REQ % 2 ^ 32, 5, []⟩ := if_pos h

theorem Mach.modeWrite_invalid {who : Writer} {v : Word} (h : 5 < v.bits 2 0 ∨ (who = .safety ∧ v.bits 2 0 ≠ 5)) :
    m.modeWrite who v = m.badValue who Reg.SYS_MODE_REQ := by
  cases who with
  | lane l => exact if_pos (h.resolve_right (by simp))
  | safety => exact if_neg (by omega)

/-- An invalid value is told, and nothing else happens (R515). -/
theorem Mach.badValue_eq_raise (who : Writer) (a : Nat) :
    m.badValue who a = m.raise 0x0001 0 0xFF (accessRecord (physical a) who.requester true .word false 5) := rfl

/-! ### A mode request is refused (R32, R35, R36) -/

section
variable (code : Nat)

theorem Mach.modeRefused_modeStat :
    (m.modeRefused code).rd Reg.SYS_MODE_STAT = ((m.rd Reg.SYS_MODE_STAT).withBits 15 12 code).withBit 10 false := by
  simp [Mach.modeRefused, Mach.rd_orr, Mach.rd_setBit, Mach.rd_setFld]

theorem Mach.modeRefused_rd_other {b : Nat} (hs : b ≠ Reg.SYS_MODE_STAT) (hi : b ≠ Reg.SYS_IRQ_STAT) :
    (m.modeRefused code).rd b = m.rd b := by
  simp [Mach.modeRefused, Mach.rd_orr, Mach.rd_setBit, Mach.rd_setFld, hs, hi]

theorem Mach.modeRefused_refusal (h : code < 16) : (m.modeRefused code).fld Reg.SYS_MODE_STAT 15 12 = code := by
  rw [Mach.fld, Mach.modeRefused_modeStat, Word.bits_withBit_other _ _ (by omega) (by omega) (by omega),
    Word.bits_withBits _ _ (by omega) (by omega)]
  exact Nat.mod_eq_of_lt h

theorem Mach.modeRefused_modePending : (m.modeRefused code).modePending = false := by
  rw [Mach.modePending, Mach.bit, Mach.modeRefused_modeStat, Word.bit_withBit _ _ (by omega)]

theorem Mach.modeRefused_mode : (m.modeRefused code).mode = m.mode := by
  have h : (m.modeRefused code).fld Reg.SYS_MODE_STAT 2 0 = m.fld Reg.SYS_MODE_STAT 2 0 := by
    rw [Mach.fld, Mach.modeRefused_modeStat, Word.bits_withBit_other _ _ (by omega) (by omega) (by omega),
      Word.bits_withBits_other _ _ (by omega) (by omega) (by omega) (by omega), Mach.fld]
  rw [Mach.mode, h, Mach.mode]

theorem Mach.modeRefused_raised :
    (m.modeRefused code).time.raised = m.time.raised ++ [eventAt m 0x0003 0 0xFF [code] 0] := by
  let shown := (m.setFld Reg.SYS_MODE_STAT 15 12 code).setBit Reg.SYS_MODE_STAT 10 false
  have hrd : ∀ b ∈ [Reg.TICK_SEQ_LO, Reg.TICK_SEQ_HI, Reg.TICK_PERIOD, Reg.LANE_STATUS], shown.rd b = m.rd b := by
    intro b hb
    have hne : b ≠ Reg.SYS_MODE_STAT := by revert b; decide
    simp [shown, Mach.rd_setBit, Mach.rd_setFld, hne]
  exact congrArg (m.time.raised ++ [·]) (eventAt_congr (m := m) (m' := shown) rfl rfl hrd ..)
end

/-- A pending request has waited REQTMO ticks (R473). -/
abbrev Mach.requestDue : Prop := m.pendingTarget ≠ 7 ∧ m.fld Reg.PWR_MODECFG 15 0 ≤ m.sys.waited

theorem Mach.requestTimeout_due (h : m.requestDue) : m.requestTimeout = m.modeRefused 3 := if_pos h

theorem Mach.requestTimeout_notDue (h : ¬ m.requestDue) : m.requestTimeout = m := if_neg h

/-! ### The statement -/

/-- A lane's mode request is a write to a register that is an asynchronous input. -/
theorem exec_sysModeRequest_lane {v : Word} (h : v.bits 2 0 ≤ 5) (cyc : Nat) (l : Lane) (s : State) :
    exec (.sysModeRequest cyc (.lane l) v) s =
      run s cyc fun m => m.asyncWrite l Reg.SYS_MODE_REQ (BitVec.ofNat 32 (v.bits 2 0)) :=
  congrArg (run s cyc) (funext fun m => m.modeWrite_lane h l)

theorem exec_sysModeRequest_safety {v : Word} (h : v.bits 2 0 = 5) (cyc : Nat) (s : State) :
    exec (.sysModeRequest cyc .safety v) s =
      run s cyc fun m => m.accede ⟨1, 0, 3, physical Reg.SYS_MODE_REQ % 2 ^ 32, 5, []⟩ :=
  congrArg (run s cyc) (funext fun m => m.modeWrite_safety h)

theorem exec_sysModeRequest_invalid {who : Writer} {v : Word} (h : 5 < v.bits 2 0 ∨ (who = .safety ∧ v.bits 2 0 ≠ 5)) (cyc : Nat)
    (s : State) : exec (.sysModeRequest cyc who v) s = run s cyc fun m => m.badValue who Reg.SYS_MODE_REQ :=
  congrArg (run s cyc) (funext fun m => m.modeWrite_invalid h)

theorem exec_modeRequestTimeout (cyc : Nat) (s : State) :
    exec (.modeRequestTimeout cyc) s = .next { s with m := (s.at cyc).requestTimeout.settle } := rfl

/-- The end of a request that has waited too long, and nothing before that. -/
theorem modeRequestTimeout_ends (cyc : Nat) (s : State) :
    (s.m.requestDue → ∃ t, exec (.modeRequestTimeout cyc) s = .next t ∧ t.m.fld Reg.SYS_MODE_STAT 15 12 = 3 ∧
      t.m.modePending = false ∧ t.m.mode = s.m.mode ∧ Raises s t [eventAt (s.at cyc) 0x0003 0 0xFF [3] 0] ∧
      SameRegsBut s t [Reg.SYS_MODE_STAT, Reg.SYS_IRQ_STAT] ∧ SameMemory s t) ∧
    (¬ s.m.requestDue → ∃ t, exec (.modeRequestTimeout cyc) s = .next t ∧ t.m.sys = s.m.sys ∧ Quiet s t []) := by
  rw [exec_modeRequestTimeout]
  refine ⟨fun hd => ?_, fun hd => ?_⟩
  · rw [(s.at cyc).requestTimeout_due hd]
    refine ⟨_, rfl, ?_, ?_, ?_, (s.at cyc).modeRefused_raised 3, fun b hb => ?_, fun _ => rfl⟩
    · rw [Mach.settle_fld, Mach.modeRefused_refusal _ 3 (by omega)]
    · rw [Mach.modePending, Mach.settle_bit]
      exact Mach.modeRefused_modePending _ 3
    · rw [Mach.mode, Mach.settle_fld]
      exact Mach.modeRefused_mode _ 3
    · simp only [List.mem_cons, List.not_mem_nil, or_false, not_or] at hb
      obtain ⟨hstat, hirq⟩ := hb
      exact (Mach.settle_rd _ b).trans (Mach.modeRefused_rd_other _ 3 hstat hirq)
  · rw [(s.at cyc).requestTimeout_notDue hd]
    exact ⟨_, rfl, rfl, fun b _ => Mach.settle_rd _ b, fun _ => rfl, (List.append_nil _).symm⟩

/-- Settles O11: a request enters accession or is routed as any device-wide write, an invalid one is only told, and a late one is
refused. -/
theorem modeRequestsWaitAndTimeOut : Obligations.ModeRequestsWaitAndTimeOut := by
  refine ⟨?_, ?_, ?_, ?_, modeRequestTimeout_ends⟩
  · intro cyc l v s hr hroom hv
    obtain ⟨t, e, ht, hwait, hkind, horigin, haddr, hvalue, hregs, hmem, hev⟩ :=
      run_asyncWrite_now hr hroom cyc Reg.SYS_MODE_REQ (BitVec.ofNat 32 (v.bits 2 0))
    have hval : (BitVec.ofNat 32 (v.bits 2 0)).toNat = v.bits 2 0 := by
      rw [BitVec.toNat_ofNat]
      omega
    exact ⟨t, e, (exec_sysModeRequest_lane hv cyc l s).trans ht, hwait, hkind, horigin, haddr, hvalue.trans hval, hregs, hmem, hev⟩
  · intro cyc l v s hv
    rw [exec_sysModeRequest_lane hv]
    exact routedElsewhere_devWrite _ _ _ s cyc
  · intro cyc who v s h
    rw [exec_sysModeRequest_invalid h, run_next, Mach.badValue_eq_raise]
    exact ⟨_, rfl, rfl, fun b _ => Mach.settle_rd _ b, fun _ => rfl, (s.at cyc).raise_raised ..⟩
  · intro cyc v s hroom hv
    obtain ⟨t, ht, hwait, hregs, hmem, hev⟩ := run_accede (cyc := cyc)
      (f := fun m => m.accede ⟨1, 0, 3, physical Reg.SYS_MODE_REQ % 2 ^ 32, 5, []⟩) (m' := s.at cyc) rfl hroom
      (by simp [entryBytes]) rfl (fun _ => rfl) rfl
    exact ⟨t, _, (exec_sysModeRequest_safety hv cyc s).trans ht, hwait, rfl, rfl, rfl, rfl, hregs, hmem, hev⟩

end Sys2Proof.Machine
end

section
/-! A lane's copy of the TICK block (R52 to R56, R60, R66, R67): who may write it, what its commands do, and the overrun of the tick
task. -/

namespace Sys2Proof

theorem Lane.other_ne (l : Lane) : l.other ≠ l := by cases l <;> decide

/-- A field replaced by what it holds already. -/
theorem Word.withBits_self (w : Word) (hi lo : Nat) : w.withBits hi lo (w.bits hi lo) = w := by
  apply BitVec.eq_of_toNat_eq
  have hle : (w.toNat >>> lo) % 2 ^ (hi + 1 - lo) * 2 ^ lo ≤ w.toNat := by
    rw [Nat.shiftRight_eq_div_pow]
    exact (Nat.mul_le_mul_right _ (Nat.mod_le _ _)).trans (Nat.div_mul_le_self _ _)
  simp only [Word.withBits, Word.bits, Nat.mod_mod, Nat.sub_add_cancel hle, BitVec.ofNat_toNat, BitVec.setWidth_eq]

theorem Word.withBit_self (w : Word) (i : Nat) : w.withBit i (w.bit i) = w := by
  have hb : (w.bit i).toNat = w.bits i i := by
    have h := w.bits_lt i i
    rw [Nat.add_sub_cancel_left, Nat.pow_one] at h
    rw [Word.bit_eq_bits]
    interval_cases w.bits i i <;> rfl
  rw [Word.withBit, hb, Word.withBits_self]

end Sys2Proof

namespace Sys2Proof.Machine

variable (m : Mach) (l : Lane)

/-! ### What a command leaves -/

/-- What a command that touches no memory leaves of registers and memory, from what it does to the registers. -/
theorem run_keeps {s : State} {cyc : Nat} {f : Mach → Mach} {regs : List Nat}
    (hr : ∀ b, b ∉ regs → (f (s.at cyc)).rd b = s.m.rd b) :
    ∃ t, run s cyc f = .next t ∧ t.m = (f (s.at cyc)).settle ∧ SameRegsBut s t regs ∧ SameMemory s t :=
  ⟨_, run_next, rfl, fun b hb => (Mach.settle_rd _ b).trans (hr b hb), fun _ => rfl⟩

/-- The same with the events that it raises. -/
theorem run_leaves {s : State} {cyc : Nat} {f : Mach → Mach} {regs : List Nat} {es : List Event}
    (hr : ∀ b, b ∉ regs → (f (s.at cyc)).rd b = s.m.rd b) (he : (f (s.at cyc)).time.raised = s.m.time.raised ++ es) :
    ∃ t, run s cyc f = .next t ∧ t.m = (f (s.at cyc)).settle ∧ SameRegsBut s t regs ∧ SameMemory s t ∧ Raises s t es := by
  obtain ⟨t, ht, hm, hregs, hmem⟩ := run_keeps hr
  refine ⟨t, ht, hm, hregs, hmem, ?_⟩
  rw [Raises, hm]
  exact he

/-- What an event shows depends on the clock, on whether the tick runs, on its number and on the states of the lanes. -/
theorem eventAt_congr_of_running {m m' : Mach} (htime : m'.time = m.time) (hrun : m'.tick.running = m.tick.running)
    (hrd : ∀ b ∈ [Reg.TICK_SEQ_LO, Reg.TICK_SEQ_HI, Reg.TICK_PERIOD, Reg.LANE_STATUS], m'.rd b = m.rd b)
    (code cls slot : Nat) (d : List Nat) (o : Nat) : eventAt m' code cls slot d o = eventAt m code cls slot d o := by
  have hregs := eventAt_congr (m := m) (m' := { m with regs := m'.regs, variant := m'.variant }) rfl rfl hrd code cls slot d o
  rw [← hregs]
  simp only [eventAt, Mach.now, Mach.tickNow, htime, hrun]
  rfl

/-! ### Writes of another copy (R60) -/

/-- A register of every variant in the copy of lane `o`. -/
abbrev inCopyOf (o : Lane) (a : Nat) : Prop :=
  wordOffset a ∧ a ≠ Reg.SYS_MODE_REQ ∧ ∃ x ∈ regAt a, x.1.unit = .always ∧ regLane x.1 x.2 = some o

theorem tickCopy_inCopyOf : ∀ a ∈ tickCopy l, inCopyOf l a := by cases l <;> decide

theorem Mach.regWrite_otherCopy {o : Lane} {a : Nat} (h : inCopyOf o a) (hne : o ≠ l) (mem : List Host.Cell) (v : Word) :
    m.regWrite mem (.lane l) a v = (m.foreignCopy (.lane l) a, mem) := by
  obtain ⟨-, hmode, ⟨r, ix⟩, hrow, hunit, hlane⟩ := h
  simp only at hunit hlane
  simp only [Mach.regWrite, Option.mem_def.1 hrow, absentReg, hunit, Bool.false_eq_true, if_false, hmode, hlane, hne]

/-- The safety processor writes SYS_MODE_REQ and CHG_CTRL alone. -/
theorem Mach.regWrite_safety {a : Nat} (hmode : a ≠ Reg.SYS_MODE_REQ) (hchg : a ≠ Reg.CHG_CTRL) (mem : List Host.Cell) (v : Word) :
    m.regWrite mem .safety a v = (m, mem) := by
  unfold Mach.regWrite
  split
  · rfl
  · simp only [hmode, hchg, false_and, if_false, ite_self]

theorem Mach.tickCmdWrite_own (v : Word) : m.tickCmdWrite (.lane l) l v = m.tickCommand l v := if_pos rfl

theorem Mach.tickCmdWrite_other {w : Lane} (h : w ≠ l) (v : Word) :
    m.tickCmdWrite (.lane w) l v = m.foreignCopy (.lane w) (Reg.TICK_CMD l.ix) := if_neg h

theorem Mach.tickCmdWrite_safety (v : Word) : m.tickCmdWrite .safety l v = m := rfl

/-- A command that does no more than tell of a write to another lane's copy. -/
theorem run_foreignCopy {s : State} {cyc : Nat} {f : Mach → Mach} {who : Writer} {a : Nat}
    (hf : f (s.at cyc) = (s.at cyc).foreignCopy who a) :
    ∃ t, run s cyc f = .next t ∧ SameRegsBut s t [] ∧ SameMemory s t ∧ t.m.tick = s.m.tick ∧
      Raises s t [eventAt (s.at cyc) 0x0001 0 0xFF (accessRecord (physical a) who.requester true .word false 3) 0] := by
  obtain ⟨t, ht, hm, hregs, hmem, hev⟩ := run_leaves (cyc := cyc) (f := f) (regs := [])
    (es := [eventAt (s.at cyc) 0x0001 0 0xFF (accessRecord (physical a) who.requester true .word false 3) 0])
    (fun b _ => by rw [hf]; rfl) (by rw [hf]; rfl)
  exact ⟨t, ht, hregs, hmem, by rw [hm, hf]; rfl, hev⟩

/-- A command that does nothing. -/
theorem run_nothing {s : State} {cyc : Nat} {f : Mach → Mach} (hf : f (s.at cyc) = s.at cyc) :
    ∃ t, run s cyc f = .next t ∧ Quiet s t [] ∧ t.m.tick = s.m.tick := by
  obtain ⟨t, ht, hm, hregs, hmem, hev⟩ := run_leaves (cyc := cyc) (f := f) (regs := []) (es := [])
    (fun b _ => by rw [hf]; rfl) (by rw [hf, List.append_nil]; rfl)
  exact ⟨t, ht, ⟨hregs, hmem, hev⟩, by rw [hm, hf]; rfl⟩

/-- A write that touches no memory, as a command of its own. -/
theorem exec_registerWrite_eq_run {a cyc : Nat} {who : Writer} {v : Word} {s : State} {m' : Mach} (ha : wordOffset a)
    (hw : (s.at cyc).regWrite s.mem who a v = (m', s.mem)) :
    exec (.registerWrite cyc who (BitVec.ofNat 40 (physical a)) v) s = run s cyc fun _ => m' := by
  rw [exec_registerWrite ha, hw]
  rfl

/-- Settles O8: a write of the other lane's copy is only told, and the safety processor's does nothing. -/
theorem tickWritesToTheOtherCopyAreIgnored : Obligations.TickWritesToTheOtherCopyAreIgnored := by
  refine ⟨fun cyc a l v s c ha hc => ?_, fun cyc off l v s c hoff hc => ?_⟩
  · have hcmd (w : Word) : (s.at cyc).tickCmdWrite (.lane l) l.other w = (s.at cyc).foreignCopy (.lane l) (Reg.TICK_CMD l.other.ix) :=
      Mach.tickCmdWrite_other _ _ l.other_ne.symm w
    have hrun : ∃ f a', exec c s = run s cyc f ∧ f (s.at cyc) = (s.at cyc).foreignCopy (.lane l) a' := by
      rcases hc with rfl | ⟨-, rfl | rfl | rfl | rfl⟩
      · have hcopy := tickCopy_inCopyOf _ a ha
        exact ⟨_, a, exec_registerWrite_eq_run hcopy.1 (Mach.regWrite_otherCopy _ l hcopy l.other_ne s.mem v), rfl⟩
      all_goals exact ⟨fun m => m.tickCmdWrite (.lane l) l.other _, _, rfl, hcmd _⟩
    obtain ⟨f, a', hexec, hf⟩ := hrun
    obtain ⟨t, ht, hregs, hmem, htick, hev⟩ := run_foreignCopy hf
    exact ⟨t, hexec.trans ht, hregs, hmem, htick, _, hev⟩
  · have hrun : ∃ f, exec c s = run s cyc f ∧ f (s.at cyc) = s.at cyc := by
      simp only [List.mem_cons, List.not_mem_nil, or_false] at hc
      rcases hc with rfl | rfl | rfl | rfl | rfl
      · have hw := (s.at cyc).regWrite_safety (a := 0x10000 + 4 * off) (by simp only [Reg.SYS_MODE_REQ]; omega)
          (by simp only [Reg.CHG_CTRL]; omega) s.mem v
        exact ⟨_, exec_registerWrite_eq_run ⟨by omega, by omega⟩ hw, rfl⟩
      all_goals exact ⟨fun m => m.tickCmdWrite .safety l _, rfl, Mach.tickCmdWrite_safety _ l _⟩
    obtain ⟨f, hexec, hf⟩ := hrun
    obtain ⟨t, ht, hq⟩ := run_nothing hf
    exact ⟨t, hexec.trans ht, hq⟩

end Sys2Proof.Machine
end

section
/-! The tick task (R53 to R57, R66, R67): the commands of TICK_CMD in the writer's own copy, the start of the tick tasks, and a task
that runs past TASKDL. -/

namespace Sys2Proof.Machine

variable (m : Mach) (l : Lane)

/-! ### An F2 event of a lane (R16, R316, R320) -/

theorem Mach.health_rd_other {b : Nat} (h : b ≠ healthReg l) (i : Nat) : (m.health l i).rd b = m.rd b := by
  rw [Mach.health, Mach.rd_setFld, if_neg h, Mach.onLane_rd]

section
variable (code slot : Nat) (d : List Nat)
@[simp] theorem Mach.raiseF2_rd (b : Nat) : (m.raiseF2 l code slot d).rd b = m.rd b := rfl

theorem Mach.raiseF2_raised :
    (m.raiseF2 l code slot d).time.raised = m.time.raised ++ [eventAt m code 2 slot d l.origin] := rfl

theorem Mach.raiseF2_f2 : ((m.raiseF2 l code slot d).lanes.get l).f2 = true := by
  cases l <;> simp [Mach.raiseF2, Two.get]
end

/-- R316: from its F2 event on the lane is not admitted. -/
theorem Mach.not_admitted_of_f2 {l : Lane} (h : (m.lanes.get l).f2 = true) : m.admitted l = false := by
  simp [Mach.admitted, h]

/-! ### The counters of TICK_CMD (R67) -/

theorem Mach.tickCommand_clrovr : m.tickCommand l 8#32 = m.wrN (Reg.TICK_OVRCNT l.ix) 0 := rfl
theorem Mach.tickCommand_clrmarg : m.tickCommand l 4#32 = m.wrN (Reg.TICK_MINMARG l.ix) 0xFFFFFFFF := rfl
theorem Mach.tickCommand_arm : m.tickCommand l 2#32 = m.tickArm l := rfl
theorem Mach.tickCommand_done : m.tickCommand l 1#32 = m.tickDone l := rfl

/-- A command that does no more than write one register. -/
theorem run_wrN {s : State} {cyc : Nat} {f : Mach → Mach} {a v : Nat} (hf : f (s.at cyc) = (s.at cyc).wrN a v) :
    ∃ t, run s cyc f = .next t ∧ t.m.rd a = BitVec.ofNat 32 v ∧ SameRegsBut s t [a] ∧ SameMemory s t ∧ Raises s t [] := by
  obtain ⟨t, ht, hm, hframe⟩ := run_leaves (cyc := cyc) (f := f) (regs := [a]) (es := [])
    (fun b hb => by rw [hf, Mach.rd_wrN, if_neg (List.mem_singleton.not.1 hb)]; rfl) (by rw [hf, List.append_nil]; rfl)
  exact ⟨t, ht, by rw [hm, Mach.settle_rd, hf, Mach.rd_wrN, if_pos rfl], hframe⟩

theorem exec_tickCmdClrovr_own (cyc : Nat) (s : State) :
    ∃ t, exec (.tickCmdClrovr cyc (.lane l) l) s = .next t ∧ t.m.rd (Reg.TICK_OVRCNT l.ix) = 0#32 ∧
      SameRegsBut s t [Reg.TICK_OVRCNT l.ix] ∧ SameMemory s t ∧ Raises s t [] :=
  run_wrN (f := fun m => m.tickCmdWrite (.lane l) l 8#32) ((Mach.tickCmdWrite_own _ l _).trans (Mach.tickCommand_clrovr ..))

theorem exec_tickCmdClrmarg_own (cyc : Nat) (s : State) :
    ∃ t, exec (.tickCmdClrmarg cyc (.lane l) l) s = .next t ∧ t.m.rd (Reg.TICK_MINMARG l.ix) = 0xFFFFFFFF#32 ∧
      SameRegsBut s t [Reg.TICK_MINMARG l.ix] ∧ SameMemory s t ∧ Raises s t [] :=
  run_wrN (f := fun m => m.tickCmdWrite (.lane l) l 4#32) ((Mach.tickCmdWrite_own _ l _).trans (Mach.tickCommand_clrmarg ..))

theorem exec_tickCmdClrovr_other (cyc : Nat) (s : State) :
    ∃ t, exec (.tickCmdClrovr cyc (.lane l.other) l) s = .next t ∧ SameRegsBut s t [] ∧ SameMemory s t ∧
      Raises s t [eventAt (s.at cyc) 0x0001 0 0xFF
        (accessRecord (physical (Reg.TICK_CMD l.ix)) (.lane l.other) true .word false 3) 0] := by
  obtain ⟨t, ht, hregs, hmem, -, hev⟩ := run_foreignCopy (s := s) (cyc := cyc)
    (f := fun m => m.tickCmdWrite (.lane l.other) l 8#32) (Mach.tickCmdWrite_other _ l l.other_ne _)
  exact ⟨t, ht, hregs, hmem, hev⟩

/-! ### ARM, and the start of the tick tasks (R54) -/

theorem Mach.tickArm_rd (b : Nat) :
    (m.tickArm l).rd b = if b = Reg.TICK_CTX l.ix then (m.rd (Reg.TICK_CTX l.ix)).withBit 1 true else m.rd b :=
  Mach.rd_setBit ..

/-- ARM is ignored once armed. -/
theorem Mach.tickArm_rd_of_armed {l : Lane} (h : m.bit (Reg.TICK_CTX l.ix) 1 = true) (b : Nat) : (m.tickArm l).rd b = m.rd b := by
  rw [Mach.tickArm_rd]
  split
  next hb =>
    have hself := (m.rd (Reg.TICK_CTX l.ix)).withBit_self 1
    rw [show (m.rd (Reg.TICK_CTX l.ix)).bit 1 = true from h] at hself
    rw [hself, hb]
  next => rfl

theorem exec_tickCmdArm_own (cyc : Nat) (s : State) :
    ∃ t, exec (.tickCmdArm cyc (.lane l) l) s = .next t ∧ t.m.bit (Reg.TICK_CTX l.ix) 1 = true ∧
      SameRegsBut s t [Reg.TICK_CTX l.ix] ∧ t.m.tick = s.m.tick ∧ t.m.lane = s.m.lane ∧ SameMemory s t ∧ Raises s t [] ∧
      (s.m.bit (Reg.TICK_CTX l.ix) 1 = true → SameRegsBut s t []) := by
  have hf : (s.at cyc).tickCmdWrite (.lane l) l 2#32 = (s.at cyc).tickArm l :=
    (Mach.tickCmdWrite_own _ l _).trans (Mach.tickCommand_arm ..)
  obtain ⟨t, ht, hm, hregs, hmem, hev⟩ := run_leaves (s := s) (cyc := cyc) (f := fun m => m.tickCmdWrite (.lane l) l 2#32)
    (regs := [Reg.TICK_CTX l.ix]) (es := [])
    (fun b hb => by rw [hf, Mach.tickArm_rd, if_neg (List.mem_singleton.not.1 hb)]; rfl) (by rw [hf, List.append_nil]; rfl)
  rw [hf] at hm
  refine ⟨t, ht, ?_, hregs, by rw [hm]; rfl, by rw [hm]; rfl, hmem, hev, fun harmed b _ => ?_⟩
  · rw [hm, Mach.settle_bit, Mach.bit, Mach.tickArm_rd, if_pos rfl, Word.bit_withBit _ _ (by omega)]
  · rw [hm, Mach.settle_rd]
    exact (s.at cyc).tickArm_rd_of_armed harmed b

/-- Both LIVE lanes of a paired arrangement have armed, so that an entry of KIND 11 joins those that wait. -/
theorem Mach.tasksBegin_armed (n : Nat) (harr : m.arr = 1) (hbegun : m.tick.begun = false) (ha : m.live .a = true)
    (hb : m.live .b = true) (hca : m.bit (Reg.TICK_CTX 0) 1 = true) (hcb : m.bit (Reg.TICK_CTX 1) 1 = true) :
    m.tasksBegin n = m.wait (m.entryOf n ⟨11, 0, 0, 0, 0, []⟩) := by
  have hlive : [Lane.a, .b].filter m.live = [.a, .b] := by simp [ha, hb]
  rw [Mach.tasksBegin, hlive]
  exact if_pos (by simp [harr, hbegun, Lane.ix, hca, hcb])

/-! ### DONE (R53, R66) -/

/-- Source 1 completed, the lane out of tick context and its processor as TICK_SAVE holds it. -/
def Mach.taskLeft : Mach :=
  ((m.plicComplete l 1).setBit (Reg.TICK_CTX l.ix) 0 false).onTick l fun t =>
    { t with doneAt := some m.time.cyc, cpu := m.savedContext l }

theorem Mach.taskLeft_rd (b : Nat) :
    (m.taskLeft l).rd b = if b = Reg.TICK_CTX l.ix then (m.rd (Reg.TICK_CTX l.ix)).withBit 0 false else m.rd b :=
  Mach.rd_setBit ..

theorem Mach.taskLeft_tl : (m.taskLeft l).tl l = { m.tl l with doneAt := some m.time.cyc, cpu := m.savedContext l } :=
  Two.get_set_self ..

theorem Mach.tickDone_outside {l : Lane} (h : m.inTick l = false) : m.tickDone l = m := by
  rw [Mach.tickDone, h]
  rfl

/-- A DONE by TASKDL: no overrun comes before it. -/
theorem Mach.tickDone_inTime {l : Lane} (h : m.inTick l = true) (hdl : m.time.cyc ≤ m.fld (Reg.TICK_TASKDL l.ix) 15 0) :
    m.tickDone l = (m.taskLeft l).setFld (Reg.TICK_MINMARG l.ix) 31 16
      (min ((m.taskLeft l).fld (Reg.TICK_MINMARG l.ix) 31 16) (m.fld (Reg.TICK_TASKDL l.ix) 15 0 - m.time.cyc)) := by
  simp only [Mach.tickDone, h, Bool.not_true, Bool.false_eq_true, if_false, if_neg (Nat.not_lt.2 hdl)]
  rfl

theorem exec_tickCmdDone_inTime {s : State} {cyc : Nat} (hin : s.m.inTick l = true)
    (hdl : (s.at cyc).time.cyc ≤ s.m.fld (Reg.TICK_TASKDL l.ix) 15 0) :
    ∃ t, exec (.tickCmdDone cyc (.lane l) l) s = .next t ∧ t.m.inTick l = false ∧ (t.m.tl l).cpu = s.m.savedContext l ∧
      (t.m.tl l).doneAt = some (s.at cyc).time.cyc ∧
      t.m.fld (Reg.TICK_MINMARG l.ix) 31 16 = min (s.m.fld (Reg.TICK_MINMARG l.ix) 31 16)
        (s.m.fld (Reg.TICK_TASKDL l.ix) 15 0 - (s.at cyc).time.cyc) ∧
      SameRegsBut s t [Reg.TICK_CTX l.ix, Reg.TICK_MINMARG l.ix] ∧ SameMemory s t ∧ Raises s t [] := by
  have hne : Reg.TICK_CTX l.ix ≠ Reg.TICK_MINMARG l.ix := by cases l <;> decide
  have hf : (s.at cyc).tickCmdWrite (.lane l) l 1#32 = _ :=
    ((Mach.tickCmdWrite_own _ l _).trans (Mach.tickCommand_done ..)).trans ((s.at cyc).tickDone_inTime hin hdl)
  have hmarg : ((s.at cyc).taskLeft l).fld (Reg.TICK_MINMARG l.ix) 31 16 = s.m.fld (Reg.TICK_MINMARG l.ix) 31 16 := by
    rw [Mach.fld, Mach.taskLeft_rd, if_neg hne.symm]
    rfl
  rw [hmarg] at hf
  obtain ⟨t, ht, hm, hframe⟩ := run_leaves (s := s) (cyc := cyc) (f := fun m => m.tickCmdWrite (.lane l) l 1#32)
    (regs := [Reg.TICK_CTX l.ix, Reg.TICK_MINMARG l.ix]) (es := [])
    (fun b hb => by
      simp only [List.mem_cons, List.not_mem_nil, or_false, not_or] at hb
      rw [hf, Mach.rd_setFld, if_neg hb.2, Mach.taskLeft_rd, if_neg hb.1]
      rfl)
    (by rw [hf, List.append_nil]; rfl)
  rw [hf] at hm
  have htl : t.m.tl l = ((s.at cyc).taskLeft l).tl l := by rw [hm]; rfl
  rw [Mach.taskLeft_tl] at htl
  refine ⟨t, ht, ?_, by rw [htl]; rfl, by rw [htl], ?_, hframe⟩
  · rw [hm, Mach.inTick, Mach.settle_bit, Mach.bit, Mach.rd_setFld, if_neg hne, Mach.taskLeft_rd, if_pos rfl,
      Word.bit_withBit _ _ (by omega)]
  · rw [hm, Mach.settle_fld, Mach.fld_setFld _ _ (by omega) (by omega)]
    exact Nat.mod_eq_of_lt ((Nat.min_le_left ..).trans_lt (Word.bits_lt _ 31 16))

theorem exec_tickCmdDone_outside {s : State} (hin : s.m.inTick l = false) (cyc : Nat) :
    ∃ t, exec (.tickCmdDone cyc (.lane l) l) s = .next t ∧ Quiet s t [] ∧ t.m.tick = s.m.tick :=
  run_nothing (f := fun m => m.tickCmdWrite (.lane l) l 1#32)
    (((Mach.tickCmdWrite_own _ l _).trans (Mach.tickCommand_done ..)).trans ((s.at cyc).tickDone_outside hin))

/-! ### Overrun (R56) -/

/-- The overrun of the tick task kept in mind and told. -/
def Mach.taskOverrunTold : Mach := ((m.onTick l fun t => { t with taskOverrun := true }).health l 2).raiseF2 l 0x0407

theorem Mach.taskDeadline_due {l : Lane} (hin : m.inTick l = true) (hov : (m.tl l).taskOverrun = false)
    (hdl : m.fld (Reg.TICK_TASKDL l.ix) 15 0 ≤ m.time.cyc) :
    m.taskDeadline l = (((m.taskOverrunTold l).orr (Reg.TICK_IRQ_STAT l.ix) 4).incSat (Reg.TICK_OVRCNT l.ix) 31 16).setFld
      (Reg.TICK_MINMARG l.ix) 31 16 0 := by
  simp only [Mach.taskDeadline, hin, hov, decide_eq_false (Nat.not_lt.2 hdl), Bool.not_true, Bool.or_self, Bool.false_eq_true,
    if_false]
  rfl

theorem Mach.taskOverrunTold_rd {b : Nat} (h : b ≠ healthReg l) : (m.taskOverrunTold l).rd b = m.rd b := by
  rw [Mach.taskOverrunTold, Mach.raiseF2_rd, Mach.health_rd_other _ _ h, Mach.onTick_rd]

theorem Mach.taskOverrunTold_raised :
    (m.taskOverrunTold l).time.raised = m.time.raised ++ [eventAt m 0x0407 2 0xFF [] l.origin] := by
  have hrd : ∀ b ∈ [Reg.TICK_SEQ_LO, Reg.TICK_SEQ_HI, Reg.TICK_PERIOD, Reg.LANE_STATUS],
      ((m.onTick l fun t => { t with taskOverrun := true }).health l 2).rd b = m.rd b := by
    intro b hb
    have hne : b ≠ healthReg l := by revert b; cases l <;> decide
    rw [Mach.health_rd_other _ _ hne, Mach.onTick_rd]
  refine congrArg (m.time.raised ++ [·]) (eventAt_congr_of_running ?_ ?_ hrd ..) <;> rfl

theorem exec_tickTaskDeadline_due {s : State} {cyc : Nat} (hin : s.m.inTick l = true) (hov : (s.m.tl l).taskOverrun = false)
    (hdl : s.m.fld (Reg.TICK_TASKDL l.ix) 15 0 ≤ (s.at cyc).time.cyc) :
    ∃ t, exec (.tickTaskDeadline cyc l) s = .next t ∧ Raises s t [eventAt (s.at cyc) 0x0407 2 0xFF [] l.origin] ∧
      t.m.bit (Reg.TICK_IRQ_STAT l.ix) 2 = true ∧ t.m.fld (Reg.TICK_MINMARG l.ix) 31 16 = 0 ∧
      t.m.fld (Reg.TICK_OVRCNT l.ix) 31 16 = min (s.m.fld (Reg.TICK_OVRCNT l.ix) 31 16 + 1) 0xFFFF ∧
      t.m.admitted l = false ∧
      SameRegsBut s t [Reg.TICK_IRQ_STAT l.ix, Reg.TICK_MINMARG l.ix, Reg.TICK_OVRCNT l.ix, healthReg l] ∧ SameMemory s t := by
  obtain ⟨him, hio, hom, hoi, hoh⟩ : Reg.TICK_IRQ_STAT l.ix ≠ Reg.TICK_MINMARG l.ix ∧ Reg.TICK_IRQ_STAT l.ix ≠ Reg.TICK_OVRCNT l.ix ∧
      Reg.TICK_OVRCNT l.ix ≠ Reg.TICK_MINMARG l.ix ∧ Reg.TICK_OVRCNT l.ix ≠ Reg.TICK_IRQ_STAT l.ix ∧
      Reg.TICK_OVRCNT l.ix ≠ healthReg l := by cases l <;> decide
  have hf := (s.at cyc).taskDeadline_due hin hov hdl
  obtain ⟨t, ht, hm, hregs, hmem, hev⟩ := run_leaves (s := s) (cyc := cyc) (f := fun m => m.taskDeadline l)
    (regs := [Reg.TICK_IRQ_STAT l.ix, Reg.TICK_MINMARG l.ix, Reg.TICK_OVRCNT l.ix, healthReg l])
    (es := [eventAt (s.at cyc) 0x0407 2 0xFF [] l.origin])
    (fun b hb => by
      simp only [List.mem_cons, List.not_mem_nil, or_false, not_or] at hb
      obtain ⟨hirq, hmarg, hovr, hhealth⟩ := hb
      rw [hf, Mach.rd_setFld, if_neg hmarg, Mach.incSat, Mach.rd_setFld, if_neg hovr, Mach.rd_orr, if_neg hirq,
        Mach.taskOverrunTold_rd _ _ hhealth]
      rfl)
    (by rw [hf]; exact (s.at cyc).taskOverrunTold_raised l)
  rw [hf] at hm
  refine ⟨t, ht, hev, ?_, ?_, ?_, ?_, hregs, hmem⟩
  · rw [hm, Mach.settle_bit, Mach.bit, Mach.rd_setFld, if_neg him, Mach.incSat, Mach.rd_setFld, if_neg hio, Mach.rd_orr, if_pos rfl,
      Word.bit_or]
    exact Bool.or_true _
  · rw [hm, Mach.settle_fld, Mach.fld_setFld _ _ (by omega) (by omega)]
    rfl
  · have hcount : ((((s.at cyc).taskOverrunTold l).orr (Reg.TICK_IRQ_STAT l.ix) 4).fld (Reg.TICK_OVRCNT l.ix) 31 16) =
        s.m.fld (Reg.TICK_OVRCNT l.ix) 31 16 := by
      rw [Mach.fld, Mach.rd_orr, if_neg hoi, Mach.taskOverrunTold_rd _ _ hoh]
      rfl
    rw [hm, Mach.settle_fld, Mach.fld_setFld_other _ _ (by omega) (by omega) (by omega) (.inl hom), Mach.incSat,
      Mach.fld_setFld _ _ (by omega) (by omega), hcount]
    omega
  · rw [hm]
    exact Mach.not_admitted_of_f2 _ (Mach.raiseF2_f2 ..)

/-- Settles O6: the commands of TICK_CMD by their bits, the start of the tick tasks, and the overrun by what it tells and counts. -/
theorem armDoneOverrunAndCountersOfTheTickTask : Obligations.ArmDoneOverrunAndCountersOfTheTickTask := by
  refine ⟨fun cyc l s => ?_, fun cyc l s => exec_tickCmdArm_own l cyc s, ?_, fun cyc l s => ?_, ?_⟩
  · exact ⟨exec_tickCmdClrovr_own l cyc s, exec_tickCmdClrmarg_own l cyc s, exec_tickCmdClrovr_other l cyc s⟩
  · intro m n harr hbegun ha hb hwait hca hcb
    rw [m.tasksBegin_armed n harr hbegun ha hb hca hcb, Mach.wait_lane, hwait, insertEntry_nil]
  · exact ⟨exec_tickCmdDone_inTime l, fun hin => exec_tickCmdDone_outside l hin cyc⟩
  · intro cyc l s hin hov hdl
    exact exec_tickTaskDeadline_due l hin hov hdl

end Sys2Proof.Machine
end

section
/-! Emit and its deadline (R48, R49, R66, R172), and a boundary that is missing (R41). -/

namespace Sys2Proof.Machine

variable (m : Mach) (l : Lane)

/-! ### Overruns of a lane's tick (R49, R66) -/

theorem Mach.noteOverrun_nil : m.noteOverrun l [] = m := rfl

section
variable (ks : List Nat)

/-- The first overrun of a tick counts it and takes the margin; every one joins the slots in overrun. -/
theorem Mach.noteOverrun_of_ne_nil {ks : List Nat} (h : ks ≠ []) :
    m.noteOverrun l ks =
      (if (m.tl l).overran.isEmpty then (m.incSat (Reg.TICK_OVRCNT l.ix) 15 0).setFld (Reg.TICK_MINMARG l.ix) 15 0 0
        else m).onTick l fun t => { t with overran := t.overran ++ ks.filter fun k => !t.overran.contains k } :=
  if_neg (by simpa using h)

theorem Mach.noteOverrun_rd {b : Nat} (hovr : b ≠ Reg.TICK_OVRCNT l.ix) (hmarg : b ≠ Reg.TICK_MINMARG l.ix) :
    (m.noteOverrun l ks).rd b = m.rd b := by
  by_cases hks : ks = []
  · rw [hks, Mach.noteOverrun_nil]
  · rw [m.noteOverrun_of_ne_nil l hks, Mach.onTick_rd]
    split
    · rw [Mach.rd_setFld, if_neg hmarg, Mach.incSat, Mach.rd_setFld, if_neg hovr]
    · rfl

/-- What an overrun leaves beside the two registers and the lane's tick part. -/
theorem Mach.noteOverrun_parts : (m.noteOverrun l ks).time = m.time ∧ (m.noteOverrun l ks).lane = m.lane ∧
    (m.noteOverrun l ks).image = m.image ∧ (m.noteOverrun l ks).mod = m.mod ∧
    (m.noteOverrun l ks).tick.running = m.tick.running ∧ (m.noteOverrun l ks).sys = m.sys := by
  unfold Mach.noteOverrun
  split
  · exact ⟨rfl, rfl, rfl, rfl, rfl, rfl⟩
  · split <;> exact ⟨rfl, rfl, rfl, rfl, rfl, rfl⟩

theorem Mach.noteOverrun_tl_self :
    (m.noteOverrun l ks).tl l = { m.tl l with overran := (m.tl l).overran ++ ks.filter fun k => !(m.tl l).overran.contains k } := by
  by_cases hks : ks = []
  · rw [hks, Mach.noteOverrun_nil]
    simp
  · rw [m.noteOverrun_of_ne_nil l hks, Mach.tl, Mach.onTick_tick, Two.get_set_self]
    split <;> rfl

theorem Mach.noteOverrun_tl_other : (m.noteOverrun l ks).tl l.other = m.tl l.other := by
  by_cases hks : ks = []
  · rw [hks, Mach.noteOverrun_nil]
  · rw [m.noteOverrun_of_ne_nil l hks, Mach.tl, Mach.onTick_tick, Two.get_set_other _ _ l.other_ne.symm]
    split <;> rfl

theorem Mach.mem_overran_noteOverrun {ks : List Nat} {k : Nat} (h : k ∈ ks) : k ∈ ((m.noteOverrun l ks).tl l).overran := by
  rw [Mach.noteOverrun_tl_self]
  by_cases hk : k ∈ (m.tl l).overran
  · exact List.mem_append_left _ hk
  · exact List.mem_append_right _ (List.mem_filter.2 ⟨h, by simpa using hk⟩)

theorem Mach.noteOverrun_first {ks : List Nat} (h : ks ≠ []) (hfirst : (m.tl l).overran = []) :
    (m.noteOverrun l ks).fld (Reg.TICK_OVRCNT l.ix) 15 0 = min (m.fld (Reg.TICK_OVRCNT l.ix) 15 0 + 1) 0xFFFF ∧
      (m.noteOverrun l ks).fld (Reg.TICK_MINMARG l.ix) 15 0 = 0 := by
  have hne : Reg.TICK_OVRCNT l.ix ≠ Reg.TICK_MINMARG l.ix := by cases l <;> decide
  rw [m.noteOverrun_of_ne_nil l h, hfirst, List.isEmpty_nil, if_pos rfl, Mach.onTick_fld, Mach.onTick_fld]
  refine ⟨?_, Mach.fld_setFld _ 0 (by omega) (by omega)⟩
  rw [Mach.fld_setFld_other _ _ (by omega) (by omega) (by omega) (.inl hne), Mach.incSat, Mach.fld_setFld _ _ (by omega) (by omega)]
  omega
end

/-! ### The deadline (R49) -/

theorem Mach.pipeRuns_congr {m m' : Mach} (hrun : m'.tick.running = m.tick.running) (hst : m'.rd Reg.LANE_STATUS = m.rd Reg.LANE_STATUS)
    (l : Lane) : m'.pipeRuns l = m.pipeRuns l := by
  cases l <;> simp only [Mach.pipeRuns, Mach.laneCode, Mach.fld, hrun, hst]

theorem Mach.unsent_congr {m m' : Mach} {l : Lane} (himg : m'.image = m.image) (hmod : m'.mod = m.mod)
    (hst : m'.rd Reg.LANE_STATUS = m.rd Reg.LANE_STATUS) (htl : (m'.tl l).emitted = (m.tl l).emitted) : m'.unsent l = m.unsent l := by
  have hslots : m'.hasSlot = m.hasSlot := funext fun k => by simp only [Mach.hasSlot, Mach.slotEntry, himg]
  simp only [Mach.unsent, Mach.ownSlots, Mach.mapped, Mach.runsSlot, Mach.slotEntry, Mach.modSlot, Mach.arr, Mach.fld, himg, hmod, hst,
    htl, hslots]

@[simp] theorem Mach.settle_pipeRuns : m.settle.pipeRuns l = m.pipeRuns l := by
  refine Mach.pipeRuns_congr ?_ (m.settle_rd _) l
  rfl

@[simp] theorem Mach.settle_unsent : m.settle.unsent l = m.unsent l := by
  refine Mach.unsent_congr ?_ ?_ (m.settle_rd _) ?_ <;> rfl

/-- At the deadline a lane's slots that have not left Emit are in overrun, where its pipeline runs. -/
def Mach.laneDeadline : Mach := if m.pipeRuns l then m.noteOverrun l (m.unsent l) else m

theorem Mach.emitDeadline_due (h : m.deadline ≤ m.time.cyc) : m.emitDeadline = (m.laneDeadline .a).laneDeadline .b :=
  if_neg (Nat.not_lt.2 h)

theorem Mach.laneDeadline_rd {b : Nat} (hovr : b ≠ Reg.TICK_OVRCNT l.ix) (hmarg : b ≠ Reg.TICK_MINMARG l.ix) :
    (m.laneDeadline l).rd b = m.rd b := by
  unfold Mach.laneDeadline
  split
  · exact m.noteOverrun_rd l _ hovr hmarg
  · rfl

theorem Mach.laneDeadline_parts : (m.laneDeadline l).time = m.time ∧ (m.laneDeadline l).lane = m.lane ∧
    (m.laneDeadline l).image = m.image ∧ (m.laneDeadline l).mod = m.mod ∧
    (m.laneDeadline l).tick.running = m.tick.running ∧ (m.laneDeadline l).sys = m.sys := by
  unfold Mach.laneDeadline
  split
  · exact m.noteOverrun_parts l _
  · exact ⟨rfl, rfl, rfl, rfl, rfl, rfl⟩

theorem Mach.laneDeadline_tl_other : (m.laneDeadline l).tl l.other = m.tl l.other := by
  unfold Mach.laneDeadline
  split
  · exact m.noteOverrun_tl_other l _
  · rfl

/-- What the deadline reads and writes of a lane is the same in two machines. -/
structure Mach.SameEmit (m m' : Mach) (l : Lane) : Prop where
  tl : m'.tl l = m.tl l
  pipe : m'.pipeRuns l = m.pipeRuns l
  unsent : m'.unsent l = m.unsent l
  count : m'.rd (Reg.TICK_OVRCNT l.ix) = m.rd (Reg.TICK_OVRCNT l.ix)
  margin : m'.rd (Reg.TICK_MINMARG l.ix) = m.rd (Reg.TICK_MINMARG l.ix)

/-- One lane's deadline does not touch what the other lane's does. -/
theorem Mach.sameEmit_laneDeadline_other : m.SameEmit (m.laneDeadline l) l.other := by
  obtain ⟨-, -, himg, hmod, hrun, -⟩ := m.laneDeadline_parts l
  have hst : (m.laneDeadline l).rd Reg.LANE_STATUS = m.rd Reg.LANE_STATUS :=
    m.laneDeadline_rd l (by cases l <;> decide) (by cases l <;> decide)
  have htl := m.laneDeadline_tl_other l
  exact ⟨htl, Mach.pipeRuns_congr hrun hst _, Mach.unsent_congr himg hmod hst (by rw [htl]),
    m.laneDeadline_rd l (by cases l <;> decide) (by cases l <;> decide),
    m.laneDeadline_rd l (by cases l <;> decide) (by cases l <;> decide)⟩

/-- R49 at cycle D, for one lane: from `m` to `m'` what has not left is in overrun, the tick is counted once, and a lane with nothing
unsent is as before. -/
def Mach.DeadlineTaken (m m' : Mach) (l : Lane) : Prop :=
  (m.pipeRuns l = true → ∀ k ∈ m.unsent l, k ∈ (m'.tl l).overran) ∧
  (m.pipeRuns l = true → m.unsent l ≠ [] → (m.tl l).overran = [] →
    m'.fld (Reg.TICK_OVRCNT l.ix) 15 0 = min (m.fld (Reg.TICK_OVRCNT l.ix) 15 0 + 1) 0xFFFF ∧
    m'.fld (Reg.TICK_MINMARG l.ix) 15 0 = 0) ∧
  (m.pipeRuns l = false ∨ m.unsent l = [] →
    m'.tl l = m.tl l ∧ m'.rd (Reg.TICK_OVRCNT l.ix) = m.rd (Reg.TICK_OVRCNT l.ix) ∧
    m'.rd (Reg.TICK_MINMARG l.ix) = m.rd (Reg.TICK_MINMARG l.ix))

theorem Mach.DeadlineTaken.before {m m₁ m' : Mach} {l : Lane} (hs : m.SameEmit m₁ l) (h : m₁.DeadlineTaken m' l) :
    m.DeadlineTaken m' l := by
  simpa only [Mach.DeadlineTaken, Mach.fld, hs.tl, hs.pipe, hs.unsent, hs.count, hs.margin] using h

theorem Mach.DeadlineTaken.after {m m₁ m' : Mach} {l : Lane} (h : m.DeadlineTaken m₁ l) (hs : m₁.SameEmit m' l) :
    m.DeadlineTaken m' l := by
  simpa only [Mach.DeadlineTaken, Mach.fld, hs.tl, hs.count, hs.margin] using h

theorem Mach.deadlineTaken_laneDeadline : m.DeadlineTaken (m.laneDeadline l) l := by
  refine ⟨fun hp k hk => ?_, fun hp hne hfirst => ?_, fun hidle => ?_⟩
  · rw [Mach.laneDeadline, if_pos hp]
    exact m.mem_overran_noteOverrun l hk
  · rw [Mach.laneDeadline, if_pos hp]
    exact m.noteOverrun_first l hne hfirst
  · have hsame : m.laneDeadline l = m := by
      rcases hidle with hp | hnone
      · rw [Mach.laneDeadline, hp, if_neg Bool.false_ne_true]
      · rw [Mach.laneDeadline, hnone, Mach.noteOverrun_nil, ite_self]
    rw [hsame]
    exact ⟨rfl, rfl, rfl⟩

theorem Mach.deadlineTaken_emitDeadline (h : m.deadline ≤ m.time.cyc) : m.DeadlineTaken m.emitDeadline l := by
  rw [m.emitDeadline_due h]
  cases l with
  | a => exact (m.deadlineTaken_laneDeadline .a).after ((m.laneDeadline .a).sameEmit_laneDeadline_other .b)
  | b => exact .before (m.sameEmit_laneDeadline_other .a) ((m.laneDeadline .a).deadlineTaken_laneDeadline .b)

theorem exec_emitDeadline_due {s : State} {cyc : Nat} (h : s.m.deadline ≤ (s.at cyc).time.cyc) :
    ∃ t, exec (.emitDeadline cyc) s = .next t ∧ Raises s t [] ∧ t.m.lane = s.m.lane ∧
      SameRegsBut s t [Reg.TICK_OVRCNT 0, Reg.TICK_MINMARG 0, Reg.TICK_OVRCNT 1, Reg.TICK_MINMARG 1] ∧ SameMemory s t ∧
      ∀ l, s.m.DeadlineTaken t.m l := by
  have hf := (s.at cyc).emitDeadline_due h
  obtain ⟨htime, hlane, -⟩ := (s.at cyc).laneDeadline_parts .a
  obtain ⟨htime', hlane', -⟩ := ((s.at cyc).laneDeadline .a).laneDeadline_parts .b
  obtain ⟨t, ht, hm, hregs, hmem, hev⟩ := run_leaves (s := s) (cyc := cyc) (f := fun m => m.emitDeadline)
    (regs := [Reg.TICK_OVRCNT 0, Reg.TICK_MINMARG 0, Reg.TICK_OVRCNT 1, Reg.TICK_MINMARG 1]) (es := [])
    (fun b hb => by
      simp only [List.mem_cons, List.not_mem_nil, or_false, not_or] at hb
      obtain ⟨hovr0, hmarg0, hovr1, hmarg1⟩ := hb
      rw [hf, Mach.laneDeadline_rd _ .b hovr1 hmarg1, Mach.laneDeadline_rd _ .a hovr0 hmarg0]
      rfl)
    (by rw [hf, htime', htime, List.append_nil]; rfl)
  refine ⟨t, ht, hev, ?_, hregs, hmem, fun l => ?_⟩
  · rw [hm, Mach.settle_lane, hf, hlane', hlane]
    rfl
  · have hsettle : (s.at cyc).emitDeadline.SameEmit t.m l := by
      rw [hm]
      exact ⟨rfl, Mach.settle_pipeRuns .., Mach.settle_unsent .., Mach.settle_rd .., Mach.settle_rd ..⟩
    exact ((s.at cyc).deadlineTaken_emitDeadline l h).after hsettle

/-! ### What the last Emit of a tick may still change (R48, R66, R68) -/

/-- The registers that the end of a lane's Emit writes. -/
def emitRegs (l : Lane) : List Nat := [Reg.TICK_IRQ_STAT l.ix, Reg.TICK_MINMARG l.ix, healthReg l]

/-- From `m` to `m'` nothing changed but the registers of `emitRegs`, the margin warning's arm and the lane's health; status bits and a
lost admission stay, and so do the events raised. -/
structure Mach.EmitKept (l : Lane) (m m' : Mach) : Prop where
  lane : m'.lane = m.lane
  tlOther : m'.tl l.other = m.tl l.other
  tlOwn : { m'.tl l with warnArmed := true } = { m.tl l with warnArmed := true }
  rd : ∀ b, b ∉ emitRegs l → m'.rd b = m.rd b
  told : ∀ i, m.bit (Reg.TICK_IRQ_STAT l.ix) i = true → m'.bit (Reg.TICK_IRQ_STAT l.ix) i = true
  f2 : (m.lanes.get l).f2 = true → (m'.lanes.get l).f2 = true
  raised : m.time.raised <+: m'.time.raised

variable {m l}

theorem Mach.EmitKept.refl : m.EmitKept l m := ⟨rfl, rfl, rfl, fun _ _ => rfl, fun _ h => h, id, List.prefix_rfl⟩

theorem Mach.EmitKept.trans {m₁ m₂ : Mach} (h : m.EmitKept l m₁) (h' : m₁.EmitKept l m₂) : m.EmitKept l m₂ :=
  ⟨h'.lane.trans h.lane, h'.tlOther.trans h.tlOther, h'.tlOwn.trans h.tlOwn, fun b hb => (h'.rd b hb).trans (h.rd b hb),
    fun i hi => h'.told i (h.told i hi), fun hi => h'.f2 (h.f2 hi), h.raised.trans h'.raised⟩

section
variable (m l)

theorem Mach.emitKept_irq (k : Nat) : m.EmitKept l (m.orr (Reg.TICK_IRQ_STAT l.ix) k) where
  lane := rfl
  tlOther := rfl
  tlOwn := rfl
  rd b hb := by
    simp only [emitRegs, List.mem_cons, not_or] at hb
    rw [Mach.rd_orr, if_neg hb.1]
  told i hi := by
    rw [Mach.bit, Mach.rd_orr, if_pos rfl, Word.bit_or, show (m.rd (Reg.TICK_IRQ_STAT l.ix)).bit i = true from hi, Bool.true_or]
  f2 := id
  raised := List.prefix_rfl

theorem Mach.emitKept_health (i : Nat) : m.EmitKept l (m.health l i) where
  lane := rfl
  tlOther := rfl
  tlOwn := rfl
  rd b hb := by
    simp only [emitRegs, List.mem_cons, List.not_mem_nil, or_false, not_or] at hb
    exact m.health_rd_other l hb.2.2 i
  told j hj := by
    rw [Mach.bit, m.health_rd_other l (by cases l <;> decide)]
    exact hj
  f2 h := by
    change ((m.lanes.set l _).get l).f2 = true
    rw [Two.get_set_self]
    exact h
  raised := List.prefix_rfl

theorem Mach.emitKept_raiseF2 (code slot : Nat) (d : List Nat) : m.EmitKept l (m.raiseF2 l code slot d) :=
  ⟨rfl, rfl, rfl, fun _ _ => rfl, fun _ h => h, fun _ => m.raiseF2_f2 .., ⟨_, rfl⟩⟩

theorem Mach.emitKept_warnArmed (w : Bool) : m.EmitKept l (m.onTick l fun t => { t with warnArmed := w }) where
  lane := rfl
  tlOther := Two.get_set_other _ _ l.other_ne.symm
  tlOwn := by rw [Mach.tl, Mach.onTick_tick, Two.get_set_self]; rfl
  rd _ _ := rfl
  told _ h := h
  f2 := id
  raised := List.prefix_rfl

theorem Mach.emitKept_raise (code cls slot : Nat) (d : List Nat) (o : Nat) : m.EmitKept l (m.raise code cls slot d o) :=
  ⟨rfl, rfl, rfl, fun _ _ => rfl, fun _ h => h, id, ⟨_, rfl⟩⟩

theorem Mach.emitKept_emitMargin (cyc : Nat) : m.EmitKept l (m.emitMargin l cyc) where
  lane := rfl
  tlOther := rfl
  tlOwn := rfl
  rd b hb := by
    simp only [emitRegs, List.mem_cons, not_or] at hb
    rw [Mach.emitMargin, Mach.rd_setFld, if_neg hb.2.1]
  told j hj := by
    rw [Mach.bit, Mach.emitMargin, Mach.rd_setFld, if_neg (by cases l <;> decide)]
    exact hj
  f2 := id
  raised := List.prefix_rfl

/-- A last cycle other than the predicted one is told as an F2 event (R48). -/
theorem Mach.emitKept_checkPredict (cyc : Nat) : m.EmitKept l (m.checkPredict l cyc) := by
  unfold Mach.checkPredict
  split
  · exact .refl
  · exact ((m.emitKept_health l 1).trans (Mach.emitKept_raiseF2 ..)).trans (Mach.emitKept_irq ..)

theorem Mach.emitKept_checkMargin (cyc : Nat) : m.EmitKept l (m.checkMargin l cyc) := by
  simp only [Mach.checkMargin]
  split
  · exact (m.emitKept_warnArmed l _).trans (Mach.emitKept_raise ..)
  · exact m.emitKept_warnArmed l _

theorem Mach.emitKept_lastEmitted (cyc : Nat) : m.EmitKept l (m.lastEmitted l cyc) :=
  (((m.emitKept_irq l 1).trans (Mach.emitKept_checkPredict ..)).trans (Mach.emitKept_checkMargin ..)).trans
    (Mach.emitKept_emitMargin ..)

/-! ### A frame leaves Emit (R49, R172) -/

/-- The frame `f` of slot `k` is on its way to the Sieve from cycle `cyc` on. -/
def Mach.frameLeaves (k cyc : Nat) (f : Frame) : Mach :=
  (m.onLb fun b => { b with inFlight := b.inFlight ++ [(l, f)] }).onTick l fun t =>
    { t with emitted := t.emitted ++ [k], lastEmit := cyc }

/-- With the lane's last frame its Emit ends. -/
def Mach.emitEnds (cyc : Nat) : Mach := if (m.unsent l).isEmpty then m.lastEmitted l cyc else m

theorem Mach.frameLeaves_tl_self (k cyc : Nat) (f : Frame) :
    (m.frameLeaves l k cyc f).tl l = { m.tl l with emitted := (m.tl l).emitted ++ [k], lastEmit := cyc } := Two.get_set_self ..

theorem Mach.frameLeaves_tl_other (k cyc : Nat) (f : Frame) : (m.frameLeaves l k cyc f).tl l.other = m.tl l.other :=
  Two.get_set_other _ _ l.other_ne.symm

@[simp] theorem Mach.frameLeaves_rd (k cyc : Nat) (f : Frame) (b : Nat) : (m.frameLeaves l k cyc f).rd b = m.rd b := rfl
@[simp] theorem Mach.frameLeaves_bit (k cyc : Nat) (f : Frame) (b i : Nat) : (m.frameLeaves l k cyc f).bit b i = m.bit b i := rfl
@[simp] theorem Mach.frameLeaves_time (k cyc : Nat) (f : Frame) : (m.frameLeaves l k cyc f).time = m.time := rfl
@[simp] theorem Mach.frameLeaves_lanes (k cyc : Nat) (f : Frame) : (m.frameLeaves l k cyc f).lanes = m.lanes := rfl

theorem Mach.emitKept_emitEnds (cyc : Nat) : m.EmitKept l (m.emitEnds l cyc) := by
  unfold Mach.emitEnds
  split
  · exact m.emitKept_lastEmitted l cyc
  · exact .refl

/-- What a frame's way out of Emit leaves, whatever the end of Emit adds. -/
theorem Mach.EmitKept.of_frameLeaves {m₁ m' : Mach} {l : Lane} {k cyc : Nat} {f : Frame}
    (h : (m₁.frameLeaves l k cyc f).EmitKept l m') :
    m'.lane = { m₁.lane with inFlight := m₁.lane.inFlight ++ [(l, f)] } ∧ (m'.tl l).emitted = (m₁.tl l).emitted ++ [k] ∧
      (m'.tl l).lastEmit = cyc ∧ (m'.tl l).overran = (m₁.tl l).overran ∧ m'.tl l.other = m₁.tl l.other := by
  have hown := h.tlOwn
  rw [Mach.frameLeaves_tl_self] at hown
  have hoverran := congrArg TickLane.overran hown
  exact ⟨h.lane, congrArg TickLane.emitted hown, congrArg TickLane.lastEmit hown, hoverran,
    h.tlOther.trans (m₁.frameLeaves_tl_other ..)⟩
end

/-! ### A frame that is late -/

section
variable (m l) (k : Nat)

/-- The overrun of the slot whose frame leaves now, counted and told. -/
def Mach.lateNoted : Mach := (m.noteOverrun l [k]).overrunEvent l k m.time.cyc

theorem Mach.overrunEvent_lane (cyc : Nat) : (m.overrunEvent l k cyc).lane = m.lane := rfl
theorem Mach.overrunEvent_tick (cyc : Nat) : (m.overrunEvent l k cyc).tick = m.tick := rfl

theorem Mach.lateNoted_lane : (m.lateNoted l k).lane = m.lane := by
  obtain ⟨-, hlane, -⟩ := m.noteOverrun_parts l [k]
  rw [Mach.lateNoted, Mach.overrunEvent_lane, hlane]

/-- Telling of the overrun leaves the lane's tick part as counting it did. -/
theorem Mach.lateNoted_tl : (m.lateNoted l k).tl l = (m.noteOverrun l [k]).tl l := by
  rw [Mach.lateNoted, Mach.tl, Mach.overrunEvent_tick, Mach.tl]

theorem Mach.lateNoted_emitted : ((m.lateNoted l k).tl l).emitted = (m.tl l).emitted := by
  rw [Mach.lateNoted_tl, Mach.noteOverrun_tl_self]

theorem Mach.lateNoted_overran : k ∈ ((m.lateNoted l k).tl l).overran := by
  rw [Mach.lateNoted_tl]
  exact m.mem_overran_noteOverrun l (List.mem_singleton_self k)

theorem Mach.lateNoted_rd {b : Nat} (hovr : b ≠ Reg.TICK_OVRCNT l.ix) (hirq : b ≠ Reg.TICK_IRQ_STAT l.ix)
    (hmarg : b ≠ Reg.TICK_MINMARG l.ix) (hhealth : b ≠ healthReg l) : (m.lateNoted l k).rd b = m.rd b := by
  rw [Mach.lateNoted, Mach.overrunEvent, Mach.rd_orr, if_neg hirq, Mach.raiseF2_rd, Mach.health_rd_other _ l hhealth,
    Mach.noteOverrun_rd _ _ _ hovr hmarg]

theorem Mach.lateNoted_irq : (m.lateNoted l k).bit (Reg.TICK_IRQ_STAT l.ix) 1 = true := by
  rw [Mach.bit, Mach.lateNoted, Mach.overrunEvent, Mach.rd_orr, if_pos rfl, Word.bit_or]
  exact Bool.or_true _

theorem Mach.lateNoted_f2 : ((m.lateNoted l k).lanes.get l).f2 = true := Mach.raiseF2_f2 ..

theorem Mach.lateNoted_raised :
    ∃ e : Event, (e.code = 0x0401 ∧ e.cls = 2 ∧ e.slot = k) ∧ (m.lateNoted l k).time.raised = m.time.raised ++ [e] := by
  rw [← (m.noteOverrun_parts l [k]).1]
  exact ⟨_, ⟨rfl, rfl, rfl⟩, Mach.raiseF2_raised ..⟩
end

section
variable {k : Nat} {f : Frame} (hf : (m.modSlot l k).frame = some f) (hp : m.pipeRuns l = true)
  (hu : (m.unsent l).contains k = true)
include hf hp hu

theorem Mach.emitFrame_inTime (h : m.time.cyc ≤ m.deadline) :
    m.emitFrame l k = (m.frameLeaves l k m.time.cyc { f with overrun := false }).emitEnds l m.time.cyc := by
  simp only [Mach.emitFrame, hf, hp, hu, decide_eq_false (Nat.not_lt.2 h), Bool.not_true, Bool.or_self, Bool.false_eq_true, if_false]
  rfl

theorem Mach.emitFrame_late (h : m.deadline < m.time.cyc) :
    m.emitFrame l k = ((m.lateNoted l k).frameLeaves l k m.time.cyc { f with overrun := true }).emitEnds l m.time.cyc := by
  simp only [Mach.emitFrame, hf, hp, hu, decide_eq_true h, Bool.not_true, Bool.or_self, Bool.false_eq_true, if_false, if_true]
  rfl
end

theorem exec_frameEmit_inTime {s : State} {cyc : Nat} {l : Lane} {k : Fin 16} {f : Frame} (hf : (s.m.modSlot l k).frame = some f)
    (hp : s.m.pipeRuns l = true) (hu : (s.m.unsent l).contains k.val = true) (h : (s.at cyc).time.cyc ≤ s.m.deadline) :
    ∃ t, exec (.frameEmit cyc l k) s = .next t ∧
      t.m.lane = { s.m.lane with inFlight := s.m.lane.inFlight ++ [(l, { f with overrun := false })] } ∧
      (t.m.tl l).emitted = (s.m.tl l).emitted ++ [k.val] ∧ (t.m.tl l).lastEmit = (s.at cyc).time.cyc ∧
      t.m.tl l.other = s.m.tl l.other ∧
      SameRegsBut s t [Reg.TICK_IRQ_STAT l.ix, Reg.TICK_MINMARG l.ix, healthReg l] ∧ SameMemory s t := by
  have he := Mach.emitFrame_inTime (m := s.at cyc) hf hp hu h
  have hkept := ((s.at cyc).frameLeaves l k.val (s.at cyc).time.cyc { f with overrun := false }).emitKept_emitEnds l (s.at cyc).time.cyc
  rw [← he] at hkept
  obtain ⟨hlane, hemitted, hlast, -, hother⟩ := hkept.of_frameLeaves
  obtain ⟨t, ht, hm, hregs, hmem⟩ := run_keeps (s := s) (cyc := cyc) (f := fun m => m.emitFrame l k)
    (regs := emitRegs l) (fun b hb => hkept.rd b hb)
  refine ⟨t, ht, ?_, ?_, ?_, ?_, hregs, hmem⟩ <;> rw [hm]
  exacts [hlane, hemitted, hlast, hother]

/-- An event that is still on record has been told. -/
theorem tells_of_prefix {s t : State} {e : Event} {code cls slot : Nat} (he : e.code = code ∧ e.cls = cls ∧ e.slot = slot)
    (h : s.m.time.raised ++ [e] <+: t.m.time.raised) : Tells s t code cls slot := by
  obtain ⟨later, hlater⟩ := h
  refine ⟨e, ?_, he⟩
  rw [← hlater, List.append_assoc, List.drop_left]
  exact List.mem_cons_self

theorem exec_frameEmit_late {s : State} {cyc : Nat} {l : Lane} {k : Fin 16} {f : Frame} (hf : (s.m.modSlot l k).frame = some f)
    (hp : s.m.pipeRuns l = true) (hu : (s.m.unsent l).contains k.val = true) (h : s.m.deadline < (s.at cyc).time.cyc) :
    ∃ t, exec (.frameEmit cyc l k) s = .next t ∧
      t.m.lane = { s.m.lane with inFlight := s.m.lane.inFlight ++ [(l, { f with overrun := true })] } ∧
      (t.m.tl l).emitted = (s.m.tl l).emitted ++ [k.val] ∧ k.val ∈ (t.m.tl l).overran ∧ Tells s t 0x0401 2 k ∧
      t.m.admitted l = false ∧ t.m.bit (Reg.TICK_IRQ_STAT l.ix) 1 = true ∧
      SameRegsBut s t [Reg.TICK_OVRCNT l.ix, Reg.TICK_IRQ_STAT l.ix, Reg.TICK_MINMARG l.ix, healthReg l] ∧ SameMemory s t := by
  have he := Mach.emitFrame_late (m := s.at cyc) hf hp hu h
  have hkept := (((s.at cyc).lateNoted l k.val).frameLeaves l k.val (s.at cyc).time.cyc
    { f with overrun := true }).emitKept_emitEnds l (s.at cyc).time.cyc
  rw [← he] at hkept
  obtain ⟨hlane, hemitted, -, hoverran, -⟩ := hkept.of_frameLeaves
  rw [Mach.lateNoted_lane] at hlane
  rw [Mach.lateNoted_emitted] at hemitted
  obtain ⟨e, htold, hraised⟩ := (s.at cyc).lateNoted_raised l k.val
  have hprefix := hkept.raised
  rw [Mach.frameLeaves_time, hraised] at hprefix
  obtain ⟨t, ht, hm, hregs, hmem⟩ := run_keeps (s := s) (cyc := cyc) (f := fun m => m.emitFrame l k)
    (regs := [Reg.TICK_OVRCNT l.ix, Reg.TICK_IRQ_STAT l.ix, Reg.TICK_MINMARG l.ix, healthReg l])
    (fun b hb => by
      simp only [List.mem_cons, List.not_mem_nil, or_false, not_or] at hb
      obtain ⟨hovr, hirq, hmarg, hhealth⟩ := hb
      rw [hkept.rd b (by simp [emitRegs, hirq, hmarg, hhealth]), Mach.frameLeaves_rd,
        Mach.lateNoted_rd _ l _ hovr hirq hmarg hhealth]
      rfl)
  refine ⟨t, ht, ?_, ?_, ?_, tells_of_prefix htold ?_, Mach.not_admitted_of_f2 _ ?_, ?_, hregs, hmem⟩ <;> rw [hm]
  · exact hlane
  · exact hemitted
  · exact hoverran ▸ (s.at cyc).lateNoted_overran l k.val
  · exact hprefix
  · exact hkept.f2 (by rw [Mach.frameLeaves_lanes]; exact (s.at cyc).lateNoted_f2 l k.val)
  · rw [Mach.settle_bit]
    exact hkept.told 1 (by rw [Mach.frameLeaves_bit]; exact (s.at cyc).lateNoted_irq l k.val)

/-! ### A boundary that is missing (R41) -/

theorem Mach.setLines_rd {m : Mach} {b : Nat} (h : b ≠ Reg.PWR_STATUS) : m.setLines.rd b = m.rd b := by
  rw [Mach.setLines, Mach.rd_setBit, if_neg h, Mach.rd_setBit, if_neg h]

/-- An F4 event of no slot touches PWR_STATUS alone among the registers. -/
theorem Mach.raiseF4_rd {m : Mach} {b : Nat} (h : b ≠ Reg.PWR_STATUS) (code : Nat) : (m.raiseF4 code).rd b = m.rd b :=
  (Mach.setLines_rd h).trans rfl

theorem Mach.raiseF4_raised (m : Mach) (code : Nat) :
    (m.raiseF4 code).time.raised = m.time.raised ++ [eventAt m code 4 0xFF [] 0] := rfl

theorem Mach.raiseF4_sys (m : Mach) (code : Nat) :
    (m.raiseF4 code).sys = { m.sys with f4 := some (m.sys.f4.getD code), holdByF4 := m.sys.holdByF4 || m.mode == .safeHold } := rfl

theorem Mach.boundaryMissing_due {m : Mach} (hrun : m.tick.running = true) (h : 3 * m.period ≤ 2 * m.time.cyc) :
    m.boundaryMissing = m.raiseF4 0x0406 := if_pos (by simp [hrun, h])

theorem exec_boundaryMissing_due {s : State} {cyc : Nat} (hrun : s.m.tick.running = true)
    (h : 3 * s.m.period ≤ 2 * (s.at cyc).time.cyc) (hmode : s.m.mode ≠ .safeHold) (hf4 : s.m.sys.f4 = none) :
    ∃ t, exec (.boundaryMissing cyc) s = .next t ∧ Raises s t [eventAt (s.at cyc) 0x0406 4 0xFF [] 0] ∧
      t.m.sys = { s.m.sys with f4 := some 0x0406 } ∧ t.m.mode = s.m.mode ∧ t.m.tick = s.m.tick ∧
      SameRegsBut s t [Reg.PWR_STATUS] ∧ SameMemory s t := by
  have hf := Mach.boundaryMissing_due (m := s.at cyc) hrun h
  obtain ⟨t, ht, hm, hregs, hmem, hev⟩ := run_leaves (s := s) (cyc := cyc) (f := fun m => m.boundaryMissing)
    (regs := [Reg.PWR_STATUS]) (es := [eventAt (s.at cyc) 0x0406 4 0xFF [] 0])
    (fun b hb => by rw [hf, Mach.raiseF4_rd (List.mem_singleton.not.1 hb)]; rfl)
    (by rw [hf]; exact Mach.raiseF4_raised ..)
  refine ⟨t, ht, hev, ?_, ?_, by rw [hm, hf]; rfl, hregs, hmem⟩
  · have hhold : ((s.at cyc).mode == .safeHold) = false := beq_eq_false_iff_ne.2 hmode
    rw [hm, Mach.settle_sys, hf, Mach.raiseF4_sys, hhold, Bool.or_false, show (s.at cyc).sys.f4 = none from hf4]
    rfl
  · rw [Mach.mode, Mach.fld, hregs Reg.SYS_MODE_STAT (by decide)]
    rfl

/-- Settles O7: a frame in time and a late one, the deadline lane by lane, and the boundary that does not come. -/
theorem emitDeadlineAndMissingBoundary : Obligations.EmitDeadlineAndMissingBoundary :=
  ⟨fun _ _ _ _ _ hf hp hu h => exec_frameEmit_inTime hf hp hu h, fun _ _ _ _ _ hf hp hu h => exec_frameEmit_late hf hp hu h,
    fun _ _ h => exec_emitDeadline_due h, fun _ _ hrun h hmode hf4 => exec_boundaryMissing_due hrun h hmode hf4⟩

end Sys2Proof.Machine
end

section
/-! What stays on record through the end of a tick (R41, R378, R380, R475): every event that was raised, and the F4 that demands
SAFE_HOLD. No work between two boundaries takes either back. -/

namespace Sys2Proof.Machine

/-- The events raised, and the F4 that demands SAFE_HOLD. -/
def Mach.record (m : Mach) : List Event × Option Nat := (m.time.raised, m.sys.f4)

/-- Every event raised stays, and an F4 that demands SAFE_HOLD stays the one it was. -/
structure RecordKept (r r' : List Event × Option Nat) : Prop where
  raised : r.1 <+: r'.1
  f4 : ∀ code, r.2 = some code → r'.2 = some code

variable (m : Mach)

/-! ### Updates that put nothing on record

The proofs stand in brackets so that `simp` rewrites with them: as rules of definitional equality they would leave the comparison of
whole machines to the kernel. -/

section
variable (a hi lo v i : Nat) (b : Bool) (l : Lane)
@[simp] theorem Mach.orr_record : (m.orr a v).record = m.record := (rfl)
@[simp] theorem Mach.wrN_record : (m.wrN a v).record = m.record := (rfl)
@[simp] theorem Mach.setFld_record : (m.setFld a hi lo v).record = m.record := (rfl)
@[simp] theorem Mach.setBit_record : (m.setBit a i b).record = m.record := (rfl)
@[simp] theorem Mach.incSat_record : (m.incSat a hi lo).record = m.record := (rfl)
@[simp] theorem Mach.orrBoth_record (reg : Nat → Nat) : (m.orrBoth reg v).record = m.record := (rfl)
@[simp] theorem Mach.laneIrq_record : (m.laneIrq i).record = m.record := (rfl)
@[simp] theorem Mach.netIrq_record : (m.netIrq i).record = m.record := (rfl)
@[simp] theorem Mach.spend_record : (m.spend v).record = m.record := (rfl)
@[simp] theorem Mach.wait_record (e : JEntry) : (m.wait e).record = m.record := (rfl)
@[simp] theorem Mach.onLb_record (f : LaneBlock → LaneBlock) : (m.onLb f).record = m.record := (rfl)
@[simp] theorem Mach.onSv_record (f : SieveSlot → SieveSlot) : (m.onSv i f).record = m.record := (rfl)
@[simp] theorem Mach.onLane_record (f : LaneState → LaneState) : (m.onLane l f).record = m.record := (rfl)
@[simp] theorem Mach.onLanes_record (f : Lane → LaneState → LaneState) : (m.onLanes f).record = m.record := (rfl)
@[simp] theorem Mach.onTick_record (f : TickLane → TickLane) : (m.onTick l f).record = m.record := (rfl)
@[simp] theorem Mach.onLaw_record (f : LawLane → LawLane) : (m.onLaw l f).record = m.record := (rfl)
@[simp] theorem Mach.onLawSlot_record (f : LawSlot → LawSlot) : (m.onLawSlot l i f).record = m.record := (rfl)
@[simp] theorem Mach.onInj_record (f : Injector → Injector) : (m.onInj l f).record = m.record := (rfl)
@[simp] theorem Mach.onMod_record (f : ModSlot → ModSlot) : (m.onMod l i f).record = m.record := (rfl)
@[simp] theorem Mach.onPlic_record (f : Plic → Plic) : (m.onPlic l f).record = m.record := (rfl)
@[simp] theorem Mach.onNet_record (f : NetState → NetState) : (m.onNet f).record = m.record := (rfl)
@[simp] theorem Mach.onDma_record (f : DmaState → DmaState) : (m.onDma f).record = m.record := (rfl)
@[simp] theorem Mach.onDmaLane_record (f : DmaLane → DmaLane) : (m.onDmaLane l f).record = m.record := (rfl)
@[simp] theorem Mach.onOffers_record (f : List Offer → List Offer) : (m.onOffers f).record = m.record := (rfl)
@[simp] theorem Mach.onChg_record (f : ChgState → ChgState) : (m.onChg f).record = m.record := (rfl)
@[simp] theorem Mach.onDrv_record (f : ActDrive → ActDrive) : (m.onDrv i f).record = m.record := (rfl)
@[simp] theorem Mach.health_record : (m.health l i).record = m.record := (rfl)
@[simp] theorem Mach.setLines_record : m.setLines.record = m.record := by simp [Mach.setLines]
@[simp] theorem Mach.setRoles_record : m.setRoles.record = m.record := by simp [Mach.setRoles]
@[simp] theorem Mach.setDegraded_record : m.setDegraded.record = m.record := by simp [Mach.setDegraded]
@[simp] theorem Mach.setLaneCode_record : (m.setLaneCode l v).record = m.record := by cases l <;> rfl
@[simp] theorem Mach.dmaShow_record : (m.dmaShow l i).record = m.record := by simp [Mach.dmaShow]
@[simp] theorem Mach.setRing_record : (m.setRing l i v).record = m.record := (rfl)
@[simp] theorem Mach.showResult_record : (m.showResult l i).record = m.record := (rfl)
@[simp] theorem Mach.showHold_record : m.showHold.record = m.record := by simp [Mach.showHold]
@[simp] theorem Mach.countFault_record : (m.countFault l).record = m.record := by simp [Mach.countFault]
@[simp] theorem Mach.predict_record : (m.predict v).record = m.record := by simp [Mach.predict]
@[simp] theorem Mach.dispute_record (d : Dispute) : (m.dispute d).record = m.record := by simp [Mach.dispute]
@[simp] theorem Mach.newWindow_record : (m.newWindow l).record = m.record := by simp [Mach.newWindow]
@[simp] theorem Mach.lawAbandon_record : (m.lawAbandon l i).record = m.record := by simp [Mach.lawAbandon, Mach.freeVal]

@[simp] theorem Mach.showCheckpoint_record : m.showCheckpoint.record = m.record := by
  unfold Mach.showCheckpoint
  dsimp only
  split <;> rfl

@[simp] theorem Mach.toState_record : (m.toState l v).record = m.record := by simp [Mach.toState]

@[simp] theorem Mach.dmaLaneReset_record : (m.dmaLaneReset l).record = m.record := by
  unfold Mach.dmaLaneReset
  rw [forN_keeps Mach.record (fun _ _ => by simp), forN_keeps Mach.record (fun _ _ => by simp)]
  simp

@[simp] theorem Mach.setArrangement_record : (m.setArrangement v).record = m.record := by simp [Mach.setArrangement]

@[simp] theorem Mach.noteOverrun_record (ks : List Nat) : (m.noteOverrun l ks).record = m.record := by
  obtain ⟨htime, -, -, -, -, hsys⟩ := m.noteOverrun_parts l ks
  rw [Mach.record, htime, hsys]
  rfl

@[simp] theorem Mach.closeTick_record : (m.closeTick l).record = m.record := by
  unfold Mach.closeTick
  rw [forN_keeps Mach.record (fun _ _ => by simp), Mach.onTick_record]
  split <;> simp

@[simp] theorem Mach.accOverdue_record : m.accOverdue.record = m.record := by
  unfold Mach.accOverdue
  rw [forL_keeps Mach.record (fun _ _ => by simp), Mach.onDma_record]

@[simp] theorem Mach.swapsWaiting_record : (m.swapsWaiting l v).record = m.record := forN_keeps Mach.record (fun _ _ => by simp) 16 m

@[simp] theorem Mach.discardShadow_record : (m.discardShadow l).record = m.record := by
  unfold Mach.discardShadow
  split <;> simp

@[simp] theorem Mach.promoteCheckpoint_record : (m.promoteCheckpoint l v).record = m.record := by
  unfold Mach.promoteCheckpoint
  rw [Mach.showCheckpoint_record, Mach.onLane_record]
  split
  · simp
  · split
    · split <;> simp
    · rfl

@[simp] theorem Mach.recoveryLoads_record : (m.recoveryLoads l).record = m.record := by
  unfold Mach.recoveryLoads
  split <;> simp

@[simp] theorem Mach.toShadow_record : (m.toShadow l v).record = m.record := by
  unfold Mach.toShadow
  dsimp only
  split <;> simp

@[simp] theorem Mach.shadowJudge_record : (m.shadowJudge l).record = m.record := by
  unfold Mach.shadowJudge
  split
  · rfl
  · split <;> simp

@[simp] theorem Mach.substitute_record : (m.substitute i).record = m.record := by
  unfold Mach.substitute
  dsimp only
  split <;> simp

@[simp] theorem Mach.emitDeadline_record : m.emitDeadline.record = m.record := by
  by_cases h : m.deadline ≤ m.time.cyc
  · obtain ⟨htime, -, -, -, -, hsys⟩ := m.laneDeadline_parts .a
    obtain ⟨htime', -, -, -, -, hsys'⟩ := (m.laneDeadline .a).laneDeadline_parts .b
    rw [m.emitDeadline_due h, Mach.record, htime', hsys', htime, hsys]
    rfl
  · rw [show m.emitDeadline = m from if_pos (Nat.not_le.1 h)]
end

/-! ### Steps that keep the record -/

theorem RecordKept.refl (r : List Event × Option Nat) : RecordKept r r := ⟨List.prefix_rfl, fun _ h => h⟩

namespace RecordKept

variable {m} {r : List Event × Option Nat}

@[simp] theorem ite_iff {m₁ m₂ : Mach} {c : Prop} [Decidable c] :
    RecordKept r (if c then m₁ else m₂).record ↔ (c → RecordKept r m₁.record) ∧ (¬ c → RecordKept r m₂.record) := by
  split <;> simp [*]

theorem ite {m₁ m₂ : Mach} {c : Prop} [Decidable c] (h₁ : RecordKept r m₁.record) (h₂ : RecordKept r m₂.record) :
    RecordKept r (if c then m₁ else m₂).record := by
  split
  · exact h₁
  · exact h₂

theorem forL {α : Type} {f : α → Mach → Mach} (hf : ∀ x (m : Mach), RecordKept r m.record → RecordKept r (f x m).record)
    (xs : List α) (h : RecordKept r m.record) : RecordKept r (forL xs f m).record := by
  unfold Machine.forL
  induction xs generalizing m with
  | nil => exact h
  | cons x xs ih => exact ih (hf x m h)

theorem forN {f : Nat → Mach → Mach} (hf : ∀ k (m : Mach), RecordKept r m.record → RecordKept r (f k m).record) (n : Nat)
    (h : RecordKept r m.record) : RecordKept r (forN n f m).record := forL hf (List.range n) h

theorem bothLanes {f : Lane → Mach → Mach} (hf : ∀ l (m : Mach), RecordKept r m.record → RecordKept r (f l m).record)
    (h : RecordKept r m.record) : RecordKept r (bothLanes f m).record := hf .b _ (hf .a m h)

variable (h : RecordKept r m.record)
include h

/-! Events and entries (R16, R305, R309). -/

@[simp] theorem raise (code cls slot : Nat) (d : List Nat) (o : Nat) : RecordKept r (m.raise code cls slot d o).record :=
  ⟨h.raised.trans ⟨_, rfl⟩, h.f4⟩

@[simp] theorem raiseF2 (l : Lane) (code slot : Nat) (d : List Nat) : RecordKept r (m.raiseF2 l code slot d).record := by
  simp [Mach.raiseF2, h]

@[simp] theorem place (first last : Nat) (entry : Nat → JEntry) : RecordKept r (m.place first last entry).record := by
  unfold Mach.place
  dsimp only
  split
  · simp [h]
  · split <;> simp [h]

@[simp] theorem accede (i : AsyncIn) : RecordKept r (m.accede i).record := by simp [Mach.accede, Mach.accedeAt, h]

@[simp] theorem accedeCause (code slot origin : Nat) : RecordKept r (m.accedeCause code slot origin).record := by
  simp [Mach.accedeCause, h]

@[simp] theorem raiseF3 (code slot : Nat) (d : List Nat) (o : Nat) : RecordKept r (m.raiseF3 code slot d o).record := by
  simp [Mach.raiseF3, h]

/-- The F4 named first stays. -/
@[simp] theorem raiseF4 (code slot : Nat) (d : List Nat) (o : Nat) : RecordKept r (m.raiseF4 code slot d o).record := by
  unfold Mach.raiseF4
  dsimp only
  rw [Mach.setLines_record]
  have hnamed : RecordKept r ((m.raise code 4 slot d o).onSys fun x =>
      { x with f4 := some (x.f4.getD code), holdByF4 := x.holdByF4 || (m.raise code 4 slot d o).mode == .safeHold }).record :=
    ⟨(h.raise code 4 slot d o).raised, fun c hc => congrArg (fun x : Option Nat => some (x.getD code)) (h.f4 c hc)⟩
  exact ite hnamed (hnamed.accedeCause ..)

/-! Lane resets, faults and restarts (R322 to R339). -/

section
variable (l : Lane) (t : Nat)

@[simp] theorem injEnd (cause : Nat) : RecordKept r (m.injEnd l cause).record := by simp [Mach.injEnd, h]

@[simp] theorem laneReset : RecordKept r (m.laneReset l).record := by
  unfold Mach.laneReset
  extract_lets ended injected own cleared shown fresh lawFresh staged started left addressed arrived net
  have hinjected : RecordKept r injected.record := ite (h.injEnd l 7) h
  have hshown : RecordKept r shown.record := by
    have hcleared : RecordKept r cleared.record := hinjected
    exact ite (by rwa [Mach.setFld_record]) hcleared
  have hleft : RecordKept r left.record := by
    have hstaged : RecordKept r staged.record := by
      have hlaw : RecordKept r lawFresh.record := by rwa [Mach.onLaw_record]
      exact hlaw
    rwa [Mach.onLane_record, Mach.onPlic_record, Mach.onTick_record]
  have haddressed : RecordKept r addressed.record := ite (by rwa [Mach.wrN_record]) hleft
  rwa [Mach.dmaLaneReset_record, Mach.setBit_record, Mach.onNet_record, Mach.onLb_record]

@[simp] theorem slotLost (k : Nat) : RecordKept r (m.slotLost k).record := by simp [Mach.slotLost, h]

@[simp] theorem isolate : RecordKept r (m.isolate l).record := by
  have hout : RecordKept r (((((m.laneReset l).onLane l fun s => { s with step := .none, restart := none, afterwards := false }).toState l
    6).raise 0x3008 1).laneIrq 5).record := by simp [h]
  unfold Mach.isolate
  exact ite (hout.raiseF4 ..) (ite (forL (fun k m h => h.slotLost k) _ hout) hout)

@[simp] theorem recover : RecordKept r (m.recover l t).record := by simp [Mach.recover, h]

@[simp] theorem waitReset : RecordKept r (m.waitReset l).record := by simp [Mach.waitReset, h]

@[simp] theorem recoverCounted : RecordKept r (m.recoverCounted l t).record := by simp [Mach.recoverCounted, h]

/-- The lanes that restart leave the restart. -/
@[simp] theorem restartFail : RecordKept r m.restartFail.record := by
  have hout (l : Lane) (m : Mach) (h : RecordKept r m.record) : RecordKept r (if (m.lanes.get l).restart.isNone then m
      else ((Machine.forL (m.ownSlots l) (fun k m => m.onSv k fun s => { s with forcedSafe := true, held := false }) m).laneReset l
        |>.onLane l fun s => { s with restart := none, step := .none }).toState l 2).record := by
    refine ite h ?_
    rw [Mach.toState_record, Mach.onLane_record]
    refine laneReset ?_ l
    rwa [forL_keeps Mach.record (fun _ _ => by simp)]
  unfold Mach.restartFail
  dsimp only
  rw [Mach.showHold_record]
  refine raiseF4 ?_ ..
  rw [Mach.onLb_record]
  exact hout .b _ (hout .a m h)

@[simp] theorem restartEvent (cause : Nat) : RecordKept r (m.restartEvent cause t).record := by simp [Mach.restartEvent, h]

@[simp] theorem askRestart (cause : Nat) : RecordKept r (m.askRestart cause).record := by simp [Mach.askRestart, h]

@[simp] theorem zAbort : RecordKept r m.zAbort.record := by
  unfold Mach.zAbort
  split
  · exact h
  · simp [Mach.zResult, h]

/-- The lanes of a restart enter RESET one after the other. -/
@[simp] theorem beginRestart (ls : List Lane) (planned : Bool) : RecordKept r (m.beginRestart ls t planned).record := by
  unfold Mach.beginRestart
  extract_lets both slots enter has held entered aborted begun
  have henter (l : Lane) (m : Mach) (h : RecordKept r m.record) : RecordKept r (enter l m).record := by simp [enter, h]
  have hheld : RecordKept r held.record := by rwa [show held.record = m.record from forL_keeps Mach.record (fun _ _ => by simp) ..]
  have hreset : RecordKept r (ls.foldl (fun m l => m.setLaneCode l 2) held).record :=
    forL (f := fun l m => m.setLaneCode l 2) (fun _ _ h => by rwa [Mach.setLaneCode_record]) ls hheld
  have hentered : RecordKept r entered.record := forL henter ls hreset
  have haborted : RecordKept r aborted.record := ite hentered.zAbort hentered
  have hbegun : RecordKept r begun.record := by rwa [Mach.onLb_record, Mach.setFld_record, Mach.incSat_record]
  exact ite (by rwa [Mach.showHold_record]) hbegun.restartFail

@[simp] theorem bothRestart : RecordKept r (m.bothRestart t).record := by
  unfold Mach.bothRestart
  extract_lets told
  have htold : RecordKept r told.record := ite h (h.restartEvent ..)
  exact ite (ite h.restartFail (htold.beginRestart ..)) h

@[simp] theorem laneRecovery : RecordKept r (m.laneRecovery l t).record := by
  unfold Mach.laneRecovery
  extract_lets s o counted waiting told
  have hcounted : RecordKept r counted.record := by rwa [Mach.countFault_record]
  have hwaiting : RecordKept r waiting.record := hcounted.waitReset l
  have htold : RecordKept r told.record := ite (h.waitReset o) h
  exact ite h (ite (ite (hcounted.isolate l) (ite (hwaiting.raiseF4 ..) hwaiting)) (ite (h.recoverCounted l t)
    (ite ((htold.restartEvent t 4).beginRestart ..) (h.waitReset l))))

@[simp] theorem laneFaults : RecordKept r (m.laneFaults t).record :=
  ((h.bothRestart t).laneRecovery .a t).laneRecovery .b t

@[simp] theorem resyncJudge : RecordKept r (m.resyncJudge l t).record := by
  unfold Mach.resyncJudge
  split
  · exact h
  · simp [h]

@[simp] theorem recoveryFails : RecordKept r (m.recoveryFails l).record := by simp [Mach.recoveryFails, h]

@[simp] theorem recoveryTimeout : RecordKept r (m.recoveryTimeout l).record := by simp [Mach.recoveryTimeout, h]

@[simp] theorem admitLane : RecordKept r (m.admitLane l).record := by simp [Mach.admitLane, h]

@[simp] theorem recoveryChecked : RecordKept r (m.recoveryChecked l).record := by
  unfold Mach.recoveryChecked
  exact (ite (h.recoveryFails l) (h.admitLane l)).recoveryTimeout l

@[simp] theorem handoverDone (q : Nat) : RecordKept r (m.handoverDone q).record := by simp [Mach.handoverDone, h]

@[simp] theorem handoverStep : RecordKept r (m.handoverStep t).record := by
  unfold Mach.handoverStep
  extract_lets cpi
  split
  · simp [h]
  · split
    · simp [h]
    · exact h
  · exact h

@[simp] theorem laneWork : RecordKept r (m.laneWork t).record := by
  unfold Mach.laneWork
  extract_lets faulted judged checked shadowed arr handed
  have hfaulted : RecordKept r faulted.record := (bothLanes (fun l m h => by rwa [Mach.recoveryLoads_record]) h).laneFaults t
  have hjudged : RecordKept r judged.record := bothLanes (fun l m h => h.resyncJudge l t) hfaulted
  have hchecked : RecordKept r checked.record := bothLanes (fun l m h => h.recoveryChecked l) hjudged
  have hshadowed : RecordKept r shadowed.record := bothLanes (fun l m h => by rwa [Mach.toShadow_record]) hchecked
  have hhanded : RecordKept r handed.record := hshadowed.handoverStep t
  exact ite hhanded (by rwa [Mach.predict_record])

/-! The work that the tick still owes (R49, R50, R56). -/

@[simp] theorem taskDeadline : RecordKept r (m.taskDeadline l).record := by simp [Mach.taskDeadline, h]

@[simp] theorem overrunEvent (k cyc : Nat) : RecordKept r (m.overrunEvent l k cyc).record := by simp [Mach.overrunEvent, h]

@[simp] theorem checkPredict (cyc : Nat) : RecordKept r (m.checkPredict l cyc).record := by simp [Mach.checkPredict, h]

@[simp] theorem abandon : RecordKept r (m.abandon l).record := by
  unfold Mach.abandon
  extract_lets ks noted told
  have hnoted : RecordKept r noted.record := by rwa [Mach.noteOverrun_record]
  have htold : RecordKept r told.record := forL (fun k m h => by simp [h]) ks hnoted
  exact ite h (htold.checkPredict l _)

/-! The cutoff of the Sieve (R303, R314 to R321). -/

@[simp] theorem missingFrames : RecordKept r m.missingFrames.record := by
  unfold Mach.missingFrames
  extract_lets missing both
  refine forL (fun x m h => ?_) both h
  split
  · exact h
  next k ks _ =>
    have hnoted : RecordKept r (if m.pairJudged = true then Machine.forL x.2 (fun k m => m.dispute (.frame k)) m else m).record :=
      ite (forL (fun k m h => by simp [h]) x.2 h) h
    simp [hnoted]

@[simp] theorem judgeWrong (step : Nat) : RecordKept r (m.judgeWrong l step).record := by simp [Mach.judgeWrong, h]

@[simp] theorem judge : RecordKept r m.judge.record := by
  unfold Mach.judge
  refine ite h ?_
  split
  · exact h.judgeWrong ..
  · exact forN (fun k m h => by simp [h]) 16 (by simp [h])

@[simp] theorem replaceBad (k : Nat) : RecordKept r (m.replaceBad k).record := by
  unfold Mach.replaceBad
  dsimp only
  split
  · refine ite h ?_
    split <;> simp [h]
  · exact h

@[simp] theorem governorSub (k n : Nat) : RecordKept r (m.governorSub k n).record := by
  unfold Mach.governorSub
  dsimp only
  split
  · split <;> simp [h]
  · simp [h]

@[simp] theorem journalWrites (ws : List (Nat × Word)) (origin : Nat) (merged : Bool) :
    RecordKept r (m.journalWrites ws origin merged).record := forL (fun _ _ h => h.place ..) ws h

@[simp] theorem settleWrites : RecordKept r m.settleWrites.record := by
  unfold Mach.settleWrites
  refine ite h ?_
  split <;> simp [h]

@[simp] theorem settleEntries : RecordKept r m.settleEntries.record := by
  unfold Mach.settleEntries
  extract_lets good es taken
  have htaken : RecordKept r taken.record := by rwa [Mach.onLb_record]
  clear_value good
  cases good with
  | none => exact htaken
  | some l => exact forL (fun p m h => h.place ..) es htaken

@[simp] theorem netQueue (msg : TxMsg) : RecordKept r (m.netQueue msg).record := by simp [Mach.netQueue, h]

@[simp] theorem releaseHeld : RecordKept r m.releaseHeld.record := by
  unfold Mach.releaseHeld
  extract_lets clash late wrong go dropped
  have hdropped : RecordKept r dropped.record := by rwa [Mach.onNet_record]
  exact forL (fun x m h => ite h (h.netQueue _)) go hdropped

@[simp] theorem sieveCutoff : RecordKept r m.sieveCutoff.record := by
  unfold Mach.sieveCutoff
  extract_lets cut missed writes overdue judged frames governed settled
  have hmissed : RecordKept r missed.record := by
    have hcut : RecordKept r cut.record := by rwa [Mach.onLb_record]
    simp [missed, hcut]
  have hwrites : RecordKept r writes.record := ite (by rwa [Mach.dispute_record]) hmissed
  have hoverdue : RecordKept r overdue.record :=
    ite (forL (fun x m h => ite (by rwa [Mach.dispute_record]) h) _ hwrites) hwrites
  have hjudged : RecordKept r judged.record := by simp [judged, hoverdue]
  have hframes : RecordKept r frames.record := forN (fun k m h => by simp [h]) 16 hjudged
  have hgoverned : RecordKept r governed.record := forL (fun k m h => h.governorSub ..) _ hframes
  have hsettled : RecordKept r settled.record := hgoverned.settleWrites.settleEntries.releaseHeld
  exact ite h (by simp [hsettled])

/-! The end of the tick. -/

@[simp] theorem closeWork : RecordKept r m.closeWork.record := by
  unfold Mach.closeWork
  extract_lets due abandoned
  have hdue : RecordKept r due.record := by
    rw [Mach.emitDeadline_record]
    exact bothLanes (fun l m h => h.taskDeadline l) h
  have habandoned : RecordKept r abandoned.record := bothLanes (fun l m h => h.abandon l) hdue.sieveCutoff
  exact bothLanes (fun l m h => by simp [h]) habandoned

/-- What was on record before the end of a tick still is after it. -/
theorem endOfTick : RecordKept r m.endOfTick.record := by
  unfold Mach.endOfTick
  extract_lets t worked
  have hworked : RecordKept r worked.record := (bothLanes (fun l m h => by rwa [Mach.closeTick_record]) h.closeWork).laneWork t
  rw [Mach.onLb_record]
  exact bothLanes (fun l m h => by rwa [Mach.newWindow_record]) hworked

end

end RecordKept

end Sys2Proof.Machine
end

section
/-! The tick boundary (R39 to R42, R477) and an entry that takes effect within the tick under way (R305). -/

namespace Sys2Proof.Machine

variable (m : Mach) (mem : List Host.Cell)

/-! ### Values in two registers -/

theorem Mach.rd_wr64_other {lo hi b : Nat} (hl : b ≠ lo) (hh : b ≠ hi) (v : Nat) : (m.wr64 lo hi v).rd b = m.rd b := by
  rw [Mach.wr64, Mach.rd_wrN, if_neg hh, Mach.rd_wrN, if_neg hl]

theorem Mach.rd64_wr64 {lo hi : Nat} (h : lo ≠ hi) (v : Nat) : (m.wr64 lo hi v).rd64 lo hi = v % 2 ^ 64 := by
  rw [Mach.rd64, Mach.wr64, Mach.rd_wrN, if_neg h, Mach.rd_wrN, if_pos rfl, Mach.rd_wrN, if_pos rfl, BitVec.toNat_ofNat,
    BitVec.toNat_ofNat]
  omega

/-! ### The stamp (R39, R63) -/

theorem Mach.stampTick_rd (n b : Nat) :
    (m.stampTick n).rd b = ((m.wr64 Reg.TICK_SEQ_LO Reg.TICK_SEQ_HI n).wr64 Reg.TICK_T0_LO Reg.TICK_T0_HI m.now).rd b := rfl

theorem Mach.stampTick_seq (n : Nat) : (m.stampTick n).seq = n % 2 ^ 64 := by
  rw [← m.rd64_wr64 (lo := Reg.TICK_SEQ_LO) (hi := Reg.TICK_SEQ_HI) (by decide) n]
  rw [Mach.seq, Mach.rd64, Mach.stampTick_rd, Mach.stampTick_rd,
    Mach.rd_wr64_other _ (b := Reg.TICK_SEQ_LO) (by decide) (by decide),
    Mach.rd_wr64_other _ (b := Reg.TICK_SEQ_HI) (by decide) (by decide), Mach.rd64]

theorem Mach.stampTick_t0 (n : Nat) : (m.stampTick n).t0 = m.now % 2 ^ 64 := by
  rw [← (m.wr64 Reg.TICK_SEQ_LO Reg.TICK_SEQ_HI n).rd64_wr64 (lo := Reg.TICK_T0_LO) (hi := Reg.TICK_T0_HI) (by decide) m.now]
  simp only [Mach.t0, Mach.rd64, Mach.stampTick_rd]

theorem Mach.stampTick_cyc (n : Nat) : (m.stampTick n).time.cyc = 0 := rfl

/-! ### The tick that closes (R41, R42) -/

/-- The tick that ends at a boundary of which Bedrock's oscillator measured `ns` since the last. -/
def Mach.boundaryClosed (ns : Nat) : Mach := (if m.boundaryInWindow ns then m else m.boundaryFault).endOfTick

/-- A boundary outside its window is an F4, which the end of the tick keeps on record. -/
theorem Mach.boundaryClosed_fault {ns : Nat} (h : m.boundaryInWindow ns = false) :
    (m.boundaryClosed ns).sys.f4 = some (m.sys.f4.getD 0x0406) ∧
      eventAt m 0x0406 4 0xFF [] 0 ∈ (m.boundaryClosed ns).time.raised := by
  have hkept : RecordKept m.boundaryFault.record (m.boundaryClosed ns).record := by
    rw [Mach.boundaryClosed, h, if_neg Bool.false_ne_true]
    exact (RecordKept.refl _).endOfTick
  have htold : eventAt m 0x0406 4 0xFF [] 0 ∈ m.boundaryFault.record.1 := by
    rw [Mach.boundaryFault, Mach.record, Mach.raiseF4_raised]
    exact List.mem_append_right _ List.mem_cons_self
  have hf4 : m.boundaryFault.record.2 = some (m.sys.f4.getD 0x0406) := by rw [Mach.boundaryFault, Mach.record, Mach.raiseF4_sys]
  exact ⟨hkept.f4 _ hf4, hkept.raised.subset htold⟩

/-! ### The boundary (R42, R477) -/

section
variable (env : BoundaryIn)

theorem Mach.tickBoundary_idle (h : m.tick.running = false) : m.tickBoundary mem env = (m, mem) := if_pos (by rw [h]; rfl)

theorem Mach.tickBoundary_sleep (hrun : m.tick.running = true) (hmode : m.mode = .sleep) :
    m.tickBoundary mem env = m.sleepEntry mem env.logOk := by
  rw [Mach.tickBoundary, hrun, if_neg (by decide), if_pos hmode]

theorem Mach.tickBoundary_work (hrun : m.tick.running = true) (hmode : m.mode ≠ .sleep) :
    m.tickBoundary mem env =
      let closed := m.boundaryClosed env.bedrockNs
      let n := closed.seq + 1
      let mode := (closed.stampTick n).boundaryMode mem n env
      mode.1.boundaryRest mode.2 n closed.time.evcnt env := by
  rw [Mach.tickBoundary, hrun, if_neg (by decide), if_neg hmode]
  rfl

/-- The steps of R42 in their order, and the new tick. -/
theorem Mach.boundaryRest_eq (n ev : Nat) :
    m.boundaryRest mem n ev env =
      let inputs := m.boundaryInputs mem n
      let frozen := (inputs.1.boundaryCommands n).boundaryFreeze n env
      let framed := ((frozen.framesLoad n env.udcB).safePeaks).captureLine ev
      (((framed.clearSieve.enterTick).passes n).slewDone, inputs.2) := rfl
end

/-- What a command that touches memory does depends on what its meaning does to the state at hand. -/
theorem runMem_eq {s : State} {cyc : Nat} {f : Mach → List Host.Cell → Mach × List Host.Cell} {x : Mach × List Host.Cell}
    (h : f (s.at cyc) s.mem = x) : runMem s cyc f = .next { s with m := x.1.settle, mem := x.2 } := by
  rw [← h]
  rfl

theorem exec_tickBoundary {env : BoundaryIn} {s : State} {x : Mach × List Host.Cell}
    (h : (s.at s.m.period).tickBoundary s.mem env = x) :
    exec (.tickBoundary env) s = .next { s with m := x.1.settle, mem := x.2 } :=
  runMem_eq (f := fun m mem => m.tickBoundary mem env) h

/-! ### The way into SLEEP (R425, R477) -/

theorem Mach.logOpen_tick : (m.logOpen mem).1.tick = m.tick := by
  unfold Mach.logOpen
  split <;> rfl

theorem Mach.logAppend_tick (ok : Bool) (kind detail old new : Nat) : (m.logAppend mem ok kind detail old new).1.tick = m.tick := by
  rw [← m.logOpen_tick mem]
  unfold Mach.logAppend
  generalize m.logOpen mem = opened
  dsimp only
  split <;> rfl

theorem Mach.endSession_tick (ok : Bool) (detail : Nat) : (m.endSession mem ok detail).1.tick = m.tick := by
  unfold Mach.endSession
  split
  · rfl
  · exact m.logAppend_tick mem ok 3 detail 0 0

/-- On the way into SLEEP the tick stops and the rails begin to fall. -/
theorem Mach.sleepEntry_stops (hrun : m.tick.running = true) (hmode : m.mode = .sleep) (ok : Bool) :
    (m.sleepEntry mem ok).1.tick.running = false ∧ (m.sleepEntry mem ok).1.pwr.phase = .falling := by
  rw [Mach.sleepEntry, if_neg (by simp [hrun, hmode])]
  refine ⟨?_, rfl⟩
  exact congrArg TickState.running (m.coreStops.endSession_tick mem ok 3)

theorem exec_tickBoundary_sleep {s : State} (env : BoundaryIn) (hrun : s.m.tick.running = true) (hmode : s.m.mode = .sleep) :
    exec (.tickBoundary env) s = exec (.sleepEntry s.m.period env.logOk) s ∧
      ∃ t, exec (.tickBoundary env) s = .next t ∧ t.m.tick.running = false ∧ t.m.pwr.phase = .falling := by
  have hb := exec_tickBoundary ((s.at s.m.period).tickBoundary_sleep s.mem env hrun hmode)
  exact ⟨hb, _, hb, (s.at s.m.period).sleepEntry_stops s.mem hrun hmode env.logOk⟩

/-! ### An entry of the tick under way (R305) -/

/-- KIND 11 begins the tick tasks; it touches no memory. -/
theorem Mach.deviceEntry_tasksBegin {e : JEntry} (h : e.kind = 11) :
    m.deviceEntry mem e = (m.onTicks fun t => { t with begun := true }, mem) := by
  simp only [Mach.deviceEntry, h]

/-- A lane's pipeline has no part in it. -/
theorem Mach.laneEntries_tasksBegin {e : JEntry} (h : e.kind = 11) (l : Lane) : m.laneEntries l [e] = m := by
  have hentry : m.laneEntry l e = m := by simp only [Mach.laneEntry, h]
  unfold Mach.laneEntries
  split
  · exact hentry
  · rfl

theorem Mach.accessionLate_tasksBegin {e : JEntry} (hrun : m.tick.running = true) (hw : m.lane.waiting = [e]) (hk : e.kind = 11)
    (ht : e.accTick ≤ m.seq) :
    m.accessionLate mem = ((m.dropDue m.seq).onTicks fun t => { t with begun := true }, mem) := by
  have hdue : m.dueEntries m.seq = [e] := by simp [Mach.dueEntries, hw, ht]
  rw [Mach.accessionLate, hrun, if_neg (by decide), hdue]
  simp only [Mach.deviceEntries, List.foldl_cons, List.foldl_nil, Mach.deviceEntry_tasksBegin _ _ hk,
    Mach.laneEntries_tasksBegin _ hk]

theorem exec_accessionTakesEffect_tasksBegin {s : State} {e : JEntry} (hrun : s.m.tick.running = true)
    (hw : s.m.lane.waiting = [e]) (hk : e.kind = 11) (ht : e.accTick ≤ s.m.seq) (cyc : Nat) :
    ∃ t, exec (.accessionTakesEffect cyc) s = .next t ∧ t.m.tick.begun = true ∧ t.m.lane.waiting = [] ∧
      SameRegsBut s t [] ∧ SameMemory s t ∧ Raises s t [] := by
  have hx := runMem_eq (f := fun m mem => m.accessionLate mem) ((s.at cyc).accessionLate_tasksBegin s.mem hrun hw hk ht)
  refine ⟨_, hx, rfl, ?_, fun b _ => Mach.settle_rd _ b, fun _ => rfl, (List.append_nil _).symm⟩
  change s.m.lane.waiting.filter (fun e => !decide (e.accTick ≤ s.m.seq)) = []
  simp [hw, ht]

/-- Settles O12: the boundary by whether a tick runs and whether the mode is SLEEP, with what the end of a tick keeps on record. -/
theorem boundaryWorkInOrder : Obligations.BoundaryWorkInOrder := by
  refine ⟨fun env s hrun hmode => ?_, fun env s hrun hmode => exec_tickBoundary_sleep env hrun hmode, fun env s hrun => ?_,
    fun cyc s e hrun hw hk ht => exec_accessionTakesEffect_tasksBegin hrun hw hk ht cyc⟩
  · intro begins closed n mode inputs frozen framed
    have hb : exec (.tickBoundary env) s = .next { s with
        m := (mode.1.boundaryRest mode.2 n closed.time.evcnt env).1.settle
        mem := (mode.1.boundaryRest mode.2 n closed.time.evcnt env).2 } :=
      exec_tickBoundary (begins.tickBoundary_work s.mem env hrun hmode)
    rw [Mach.boundaryRest_eq] at hb
    exact ⟨_, hb, rfl, rfl, closed.stampTick_seq n, closed.stampTick_t0 n, closed.stampTick_cyc n,
      fun hwindow => begins.boundaryClosed_fault hwindow⟩
  · exact ⟨_, exec_tickBoundary ((s.at s.m.period).tickBoundary_idle s.mem env hrun),
      ⟨fun b _ => Mach.settle_rd _ b, fun _ => rfl, (List.append_nil _).symm⟩, rfl, rfl⟩

end Sys2Proof.Machine
end

section
/-! Sequences, groups and conversions (R71, R74 to R81, R86, R89): what starts a run and a group, where a completed conversion's
sample goes, and when an urgent request is served. -/

namespace Sys2Proof.Machine

variable (m : Mach)

/-! ### Tables and loops -/

/-- Two changes of one entry are one where they make the same of it. -/
theorem upd_congr {α : Type} [Inhabited α] {l : List α} {i : Nat} {f g : α → α} (h : f (nth l i) = g (nth l i)) :
    upd l i f = upd l i g := by
  apply List.ext_getElem?
  intro j
  simp only [upd, List.getElem?_modify]
  split
  next hj =>
    subst hj
    cases hl : l[i]? with
    | none => rfl
    | some x =>
      simp only [nth, List.getD_eq_getElem?_getD, hl, Option.getD_some] at h
      simp [h]
  next => rfl

/-- What holds before a loop and through every turn of it holds after it. -/
theorem forL_induct {α : Type} {P : Mach → Prop} {l : List α} {f : α → Mach → Mach} (h : ∀ x ∈ l, ∀ m, P m → P (f x m))
    {m : Mach} (hm : P m) : P (forL l f m) := by
  induction l generalizing m with
  | nil => exact hm
  | cons x t ih => exact ih (fun y hy => h y (List.mem_cons_of_mem x hy)) (h x List.mem_cons_self m hm)

/-! ### What a command of acquisition leaves -/

/-- What a command that raises no event leaves, from what it makes of the registers and of acquisition. -/
theorem run_acq {s : State} {cyc : Nat} {f : Mach → Mach} {regs : List Nat} {a : AcqState}
    (hr : ∀ b, b ∉ regs → (f (s.at cyc)).rd b = s.m.rd b) (he : (f (s.at cyc)).time.raised = s.m.time.raised)
    (ha : (f (s.at cyc)).acq = a) : ∃ t, run s cyc f = .next t ∧ t.m.acq = a ∧ Quiet s t regs := by
  obtain ⟨t, ht, hm, hquiet⟩ := run_leaves (es := []) hr (he.trans (List.append_nil _).symm)
  exact ⟨t, ht, by rw [hm, Mach.settle_acq, ha], hquiet⟩

/-- A command that changes acquisition alone. -/
theorem run_onAcq {s : State} {cyc : Nat} {f : Mach → Mach} {g : AcqState → AcqState} (hf : f (s.at cyc) = (s.at cyc).onAcq g) :
    ∃ t, run s cyc f = .next t ∧ t.m.acq = g s.m.acq ∧ Quiet s t [] :=
  run_acq (fun b _ => by rw [hf]; rfl) (by rw [hf]; rfl) (by rw [hf]; rfl)

/-- A command of acquisition that does nothing. -/
theorem run_acq_nothing {s : State} {cyc : Nat} {f : Mach → Mach} (hf : f (s.at cyc) = s.at cyc) :
    ∃ t, run s cyc f = .next t ∧ t.m.acq = s.m.acq ∧ Quiet s t [] := run_onAcq (g := id) hf

/-! ### Triggers (R75, R77) -/

/-- A run at its beginning; the sample instant is that of the last group before it. -/
abbrev SeqRun.begun (r : SeqRun) : SeqRun := ⟨true, false, 0, 0, [], r.sampleAt⟩

theorem Mach.triggerSeq_now {q : Nat} (hq : q ≠ 15) (hrun : m.tick.running = true) (hmode : m.mode ≠ .sleep)
    (ht : m.trigsNow q = true) : m.triggerSeq q = m.trigger q := if_neg (by simp [hq, hrun, hmode, ht])

theorem Mach.triggerSeq_not {q : Nat} (h : q = 15 ∨ m.tick.running = false ∨ m.mode = .sleep ∨ m.trigsNow q = false) :
    m.triggerSeq q = m := if_pos (by simpa using h)

theorem Mach.trigger_of_idle {q : Nat} (ha : (m.seqRun q).active = false) : m.trigger q = m.onRun q SeqRun.begun := by
  simp [Mach.trigger, ha]

/-- The group under way is dropped, and the truncation counted and told. -/
def Mach.truncated (q : Nat) : Mach :=
  (((m.dropGroup q m.time.cyc).onAcq fun a => { a with trunc := a.trunc + 1 }).raise 0x0803 0).orr Reg.ACQ_IRQ_STAT 4

theorem Mach.trigger_of_waiting {q : Nat} (ha : (m.seqRun q).active = true) (hs : (m.seqRun q).started = false) :
    m.trigger q = (m.truncated q).onRun q SeqRun.begun := by
  simp [Mach.trigger, Mach.truncated, ha, hs]

theorem exec_sequenceTrigger_cuts {s : State} {cyc : Nat} {q : Fin 16} (hq : q ≠ 15) (hrun : s.m.tick.running = true)
    (hmode : s.m.mode ≠ .sleep) (ht : (s.at cyc).trigsNow q = true) (ha : (s.m.seqRun q).active = true)
    (hs : (s.m.seqRun q).started = false) :
    ∃ t, exec (.sequenceTrigger cyc q) s = .next t ∧ t.m.acq.runs = upd s.m.acq.runs q SeqRun.begun ∧
      t.m.acq.trunc = s.m.acq.trunc + 1 ∧ Raises s t [eventAt (s.at cyc) 0x0803 0 0xFF [] 0] ∧
      t.m.rd Reg.ACQ_IRQ_STAT = s.m.rd Reg.ACQ_IRQ_STAT ||| 4#32 ∧ SameRegsBut s t [Reg.ACQ_IRQ_STAT] ∧ SameMemory s t := by
  have hf : (s.at cyc).triggerSeq q = ((s.at cyc).truncated q).onRun q SeqRun.begun := by
    rw [(s.at cyc).triggerSeq_now (fun h => hq (Fin.ext h)) hrun hmode ht, (s.at cyc).trigger_of_waiting ha hs]
  have hrd (b : Nat) : ((s.at cyc).triggerSeq q).rd b =
      if b = Reg.ACQ_IRQ_STAT then s.m.rd Reg.ACQ_IRQ_STAT ||| 4#32 else s.m.rd b := by
    rw [hf]
    exact Mach.rd_orr ..
  obtain ⟨t, ht, hm, hregs, hmem, hev⟩ := run_leaves (s := s) (cyc := cyc) (f := fun m => m.triggerSeq q)
    (regs := [Reg.ACQ_IRQ_STAT]) (es := [eventAt (s.at cyc) 0x0803 0 0xFF [] 0])
    (fun b hb => by rw [hrd, if_neg (List.mem_singleton.not.1 hb)]) (by rw [hf]; rfl)
  refine ⟨t, ht, ?_, ?_, hev, ?_, hregs, hmem⟩ <;> rw [hm]
  · rw [hf]; rfl
  · rw [hf]; rfl
  · rw [Mach.settle_rd, hrd, if_pos rfl]

/-! ### Groups (R74, R76) -/

/-- The entries of the group that a run starts next. -/
abbrev Mach.nextGroup (q : Nat) : List Nat := groupList (m.seqRun q).gStart (m.groupEnd q (m.seqRun q).gStart)

/-- The sample instant of a group that starts now: the longest acquisition time ahead. -/
abbrev Mach.groupSampleAt (q : Nat) : Int :=
  m.time.cyc + ((m.nextGroup q).map fun e => (m.seqEnt q e).bits 7 0).foldl max 0

/-- The converter of an entry acquires for it. -/
def Mach.claim (q : Nat) (x : Int) (e : Nat) : Mach := m.onConv (entConv (m.seqEnt q e)) fun c => { c with use := .seq q e x }

/-- The converters of the next group acquire for it. -/
def Mach.groupClaimed (q : Nat) : Mach := forL (m.nextGroup q) (fun e m' => m'.claim q (m.groupSampleAt q) e) m

/-- Of the machine, no more than the converters `cs` has changed. -/
structure Mach.ConvsClaimed (cs : List Nat) (m' : Mach) : Prop where
  runs : m'.acq.runs = m.acq.runs
  time : m'.time = m.time
  rd : ∀ b, m'.rd b = m.rd b
  conv : ∀ c, c ∉ cs → m'.conv c = m.conv c

theorem Mach.conv_onConv_other {c d : Nat} (h : d ≠ c) (f : Converter → Converter) : (m.onConv c f).conv d = m.conv d := by
  change nth (upd m.acq.convs c f) d = nth m.acq.convs d
  rw [nth_upd, if_neg (fun hd => h hd.1)]

theorem Mach.convsClaimed_groupClaimed (q : Nat) :
    m.ConvsClaimed ((m.nextGroup q).map fun e => entConv (m.seqEnt q e)) (m.groupClaimed q) := by
  refine forL_induct (P := m.ConvsClaimed _) (fun e he m' h => ?_) ⟨rfl, rfl, fun _ => rfl, fun _ _ => rfl⟩
  obtain ⟨hruns, htime, hrd, hconv⟩ := h
  refine ⟨hruns, htime, hrd, fun c hc => ?_⟩
  have hne : c ≠ entConv (m'.seqEnt q e) := by
    rw [Mach.seqEnt, hrd]
    rintro rfl
    exact hc (List.mem_map.2 ⟨e, he, rfl⟩)
  rw [Mach.claim, Mach.conv_onConv_other _ hne, hconv c hc]

/-- A run's group starts with the sample instant `x` and the entries `es`. -/
abbrev SeqRun.groupStarted (es : List Nat) (x : Int) (r : SeqRun) : SeqRun :=
  { r with started := true, gEnd := r.gStart + es.length, left := es, sampleAt := x }

theorem Mach.groupStart_of_ready {q : Nat} (h : m.groupReady q = true) :
    m.groupStart q = (m.groupClaimed q).onRun q (SeqRun.groupStarted (m.nextGroup q) (m.groupSampleAt q)) :=
  if_neg (by simp [h])

theorem Mach.groupStart_of_not_ready {q : Nat} (h : m.groupReady q = false) : m.groupStart q = m := if_pos (by simp [h])

theorem exec_groupStart_ready {s : State} {q : Fin 16} (h : s.m.groupReady q = true) (cyc : Nat) :
    ∃ t, exec (.groupStart cyc q) s = .next t ∧
      (t.m.acq.runs = upd s.m.acq.runs q (SeqRun.groupStarted ((s.at cyc).nextGroup q) ((s.at cyc).groupSampleAt q)) ∧
        ∀ c, c ∉ ((s.at cyc).nextGroup q).map (fun e => entConv (s.m.seqEnt q e)) → t.m.conv c = s.m.conv c) ∧
      Quiet s t [] := by
  have hf := (s.at cyc).groupStart_of_ready h
  obtain ⟨hruns, htime, hrd, hconv⟩ := (s.at cyc).convsClaimed_groupClaimed q
  obtain ⟨t, ht, ha, hquiet⟩ := run_acq (s := s) (cyc := cyc) (f := fun m => m.groupStart q) (regs := [])
    (fun b _ => by rw [hf]; exact hrd b) (by rw [hf, Mach.onRun, Mach.onAcq_time, htime]; rfl) rfl
  refine ⟨t, ht, ⟨?_, fun c hc => ?_⟩, hquiet⟩
  · rw [ha, hf]
    exact congrArg (upd · _ _) hruns
  · rw [Mach.conv, ha, hf]
    exact hconv c hc

/-! ### Conversions (R71, R81, R82, R89) -/

/-- A converter is free again. -/
abbrev Mach.freed (c : Nat) : Mach := m.onConv c fun y => { y with use := .free }

theorem Mach.completeConv_seq {c q e : Nat} {x : Int} (hu : (m.conv c).use = .seq q e x) (ht : (m.time.cyc : Int) = x + 64)
    (code : Nat) :
    m.completeConv c code =
      ((m.freed c).deliver (entInput (m.seqEnt q e)) code (if (m.seqEnt q e).bit 16 then some ((m.seqEnt q e).bits 15 8) else none)
        (if (m.seqEnt q e).bit 30 then some ((m.seqEnt q e).bits 29 24) else none) x).entryDone q e := by
  simp only [Mach.completeConv, hu, ht, ne_eq, not_true_eq_false, if_false]

theorem Mach.completeConv_urgent {c : Nat} {r : UrgentReq} {x : Int} (hu : (m.conv c).use = .urgent r x)
    (ht : (m.time.cyc : Int) = x + 64) (code : Nat) : m.completeConv c code = (m.freed c).deliver r.input code r.acc none x := by
  simp only [Mach.completeConv, hu, ht, ne_eq, not_true_eq_false, if_false]

theorem Mach.entryDone_of_not_started {q : Nat} (h : (m.seqRun q).started = false) (e : Nat) : m.entryDone q e = m :=
  if_pos (by simp [h])

/-- R89: while VDDA is low every sample is discarded. -/
theorem Mach.deliver_of_vddaLow (h : m.vddaOk = false) (input code : Nat) (acc trk : Option Nat) (x : Int) :
    m.deliver input code acc trk x = m := if_pos (by simp [h])

/-- R86: a failed converter's sample only marks its accumulator. -/
theorem Mach.deliver_of_failed {input : Nat} (h : m.vddaOk = true) (hf : m.convFailed (input / 8) = true) (code n : Nat)
    (trk : Option Nat) (x : Int) :
    m.deliver input code (some n) trk x =
      m.onAcq fun a => { a with acc := upd a.acc n fun w => { w with failconv := true } } := by
  simp only [Mach.deliver, h, hf, Bool.not_true, Bool.false_eq_true, if_false, if_true]

/-- The value of a code at an input, before it is held to 17 bits (R81). -/
abbrev Mach.offsetCode (input code : Nat) : Int :=
  code - (m.fld (Reg.ACQ_IN input) 15 0 + signed 15 (m.fld (Reg.ACQ_IN input) 30 16))

theorem Mach.sampleOf_in_range {input code : Nat} (h : m.offsetCode input code = signed 17 (unsigned 17 (m.offsetCode input code))) :
    m.sampleOf input code = (m.offsetCode input code, m) := if_pos h

theorem Mach.deliver_to_acc {input code : Nat} (h : m.vddaOk = true) (hf : m.convFailed (input / 8) = false)
    (hv : m.offsetCode input code = signed 17 (unsigned 17 (m.offsetCode input code))) (n : Nat) (x : Int) :
    m.deliver input code (some n) none x = m.accSample n (m.offsetCode input code) x := by
  simp only [Mach.deliver, h, hf, Bool.not_true, Bool.false_eq_true, if_false, m.sampleOf_in_range hv]

/-- R81: an accumulator of the mean or of the last sample adds the sample itself. -/
theorem Mach.accSample_plain {n : Nat} (h : m.fld (Reg.ACQ_ACFG_CTRL n) 31 29 ≤ 1) (v x : Int) :
    m.accSample n v x =
      m.onAcq fun a => { a with acc := upd a.acc n fun w => { w with sum := satN 64 (w.sum + v), count := w.count + 1, last := v } } := by
  have hop : m.fld (Reg.ACQ_ACFG_CTRL n) 31 29 = 0 ∨ m.fld (Reg.ACQ_ACFG_CTRL n) 31 29 = 1 := by omega
  rcases hop with hop | hop <;> simp only [Mach.accSample, hop]

section
variable {m} {c : Nat} {r : UrgentReq} {x : Int}

/-- A conversion of a run that has been cut off, completed while VDDA is low, frees its converter and does no more. -/
theorem Mach.completeConv_discarded {q e : Nat} (hu : (m.conv c).use = .seq q e x) (ht : (m.time.cyc : Int) = x + 64)
    (hv : m.vddaOk = false) (hs : (m.seqRun q).started = false) (code : Nat) : m.completeConv c code = m.freed c := by
  have hdel := (m.freed c).deliver_of_vddaLow hv
  rw [m.completeConv_seq hu ht, hdel, (m.freed c).entryDone_of_not_started hs]

theorem Mach.completeConv_sampled {code n : Nat} (hu : (m.conv c).use = .urgent r x) (ht : (m.time.cyc : Int) = x + 64)
    (hv : m.vddaOk = true) (hf : m.convFailed (r.input / 8) = false) (hacc : r.acc = some n)
    (hop : m.fld (Reg.ACQ_ACFG_CTRL n) 31 29 ≤ 1)
    (hrange : m.offsetCode r.input code = signed 17 (unsigned 17 (m.offsetCode r.input code))) :
    m.completeConv c code = m.onAcq fun a => { a with
      convs := upd a.convs c fun y => { y with use := .free }
      acc := upd a.acc n fun w =>
        { w with sum := satN 64 (w.sum + m.offsetCode r.input code), count := w.count + 1, last := m.offsetCode r.input code } } := by
  have hdel := (m.freed c).deliver_to_acc hv hf hrange n x
  rw [m.completeConv_urgent hu ht, hacc, hdel, (m.freed c).accSample_plain hop]
  rfl

theorem Mach.completeConv_failed {n : Nat} (hu : (m.conv c).use = .urgent r x) (ht : (m.time.cyc : Int) = x + 64)
    (hv : m.vddaOk = true) (hf : m.convFailed (r.input / 8) = true) (hacc : r.acc = some n) (code : Nat) :
    m.completeConv c code = m.onAcq fun a => { a with
      convs := upd a.convs c fun y => { y with use := .free }
      acc := upd a.acc n fun w => { w with failconv := true } } := by
  have hdel := (m.freed c).deliver_of_failed hv hf code n none x
  rw [m.completeConv_urgent hu ht, hacc, hdel]
  rfl
end

/-! ### Urgent requests (R79) -/

theorem Mach.urgentStart_next {c : Nat} {r : UrgentReq} {rest : List UrgentReq} (hu : (m.conv c).use = .free)
    (hq : (m.conv c).queue = r :: rest) :
    m.urgentStart c = (m.onConv c fun y => { y with use := .urgent r (m.time.cyc + r.acqt), queue := rest }).setPend := by
  simp only [Mach.urgentStart, hu, hq]

theorem Mach.urgentStart_nothing {c : Nat} (h : (m.conv c).use ≠ .free ∨ (m.conv c).queue = []) : m.urgentStart c = m := by
  simp only [Mach.urgentStart]
  split
  next hu hq => simp [hu, hq] at h
  next => rfl

theorem Mach.setPend_rd_other {b : Nat} (h : b ≠ Reg.ACQ_URG_STAT) : m.setPend.rd b = m.rd b := by
  rw [Mach.setPend, Mach.rd_setFld, if_neg h]

/-- Settles O14: a trigger by what its run was doing, a group by whether it is ready, and a conversion by whose it was. -/
theorem sequencesAndConversions : Obligations.SequencesAndConversions := by
  refine ⟨fun cyc q s hq hrun hmode ht ha => ?_,
    fun cyc q s hq hrun hmode ht ha hs => exec_sequenceTrigger_cuts hq hrun hmode ht ha hs,
    fun cyc q s h => ?_, fun cyc q s h => ?_, fun cyc q s h => ?_, fun cyc c nv s q e x hu ht hv hs => ?_,
    fun cyc c nv s r x v n hu ht hv hf hacc hop hval hrange => ?_, fun cyc c nv s r x n hu ht hv hf hacc => ?_,
    fun cyc c s r rest hu hq => ?_, fun cyc c s h => ?_⟩
  · have hf : (s.at cyc).triggerSeq q = (s.at cyc).onRun q SeqRun.begun := by
      rw [(s.at cyc).triggerSeq_now (fun h => hq (Fin.ext h)) hrun hmode ht, (s.at cyc).trigger_of_idle ha]
    exact run_onAcq (f := fun m => m.triggerSeq q) hf
  · exact run_acq_nothing (f := fun m => m.triggerSeq q) ((s.at cyc).triggerSeq_not (h.imp_left (congrArg Fin.val)))
  · obtain ⟨t, ht, ⟨hruns, hconv⟩, hquiet⟩ := exec_groupStart_ready h cyc
    exact ⟨t, ht, ⟨hruns.trans (upd_congr rfl), fun c _ hc => hconv c hc⟩, hquiet⟩
  · exact run_acq_nothing (f := fun m => m.groupStart q) (Mach.groupStart_of_not_ready _ h)
  · exact run_onAcq (f := fun m => m.completeConv c (adcCode nv)) ((s.at cyc).completeConv_discarded hu ht hv hs (adcCode nv))
  · subst hval
    exact run_onAcq (f := fun m => m.completeConv c (adcCode nv)) ((s.at cyc).completeConv_sampled hu ht hv hf hacc hop hrange)
  · exact run_onAcq (f := fun m => m.completeConv c (adcCode nv)) ((s.at cyc).completeConv_failed hu ht hv hf hacc (adcCode nv))
  · have hf := (s.at cyc).urgentStart_next hu hq
    exact run_acq (f := fun m => m.urgentStart c)
      (fun b hb => by rw [hf, Mach.setPend_rd_other _ (List.mem_singleton.not.1 hb)]; rfl) (by rw [hf]; rfl) (by rw [hf]; rfl)
  · exact run_acq_nothing (f := fun m => m.urgentStart c) (Mach.urgentStart_nothing _ h)

end Sys2Proof.Machine
end

section
/-! Self-check readings, the offset calibration and VDDA (R86 to R89, R467): the register and the count that a reading goes to, the
converter that is marked failed, and what the sum of an input's samples makes of its offset. -/

namespace Sys2Proof.Machine

variable (m : Mach)

theorem unsigned_lt (n : Nat) (v : Int) : unsigned n v < 2 ^ n := by
  have hpos : (0 : Int) < 2 ^ n := by positivity
  have hlt := Int.emod_lt_of_pos v hpos
  have hnonneg := Int.emod_nonneg v hpos.ne'
  zify
  rwa [unsigned, Int.toNat_of_nonneg hnonneg]

theorem Mach.conv_onConv_self {c : Nat} (h : c < m.acq.convs.length) (f : Converter → Converter) :
    (m.onConv c f).conv c = f (m.conv c) := by
  change nth (upd m.acq.convs c f) c = f (nth m.acq.convs c)
  rw [nth_upd, if_pos ⟨rfl, h⟩]

/-- What is true of a converter that has changed and of the default is true of whatever is read back after the change. -/
theorem Mach.conv_onConv_of_default {P : Converter → Prop} {f : Converter → Converter} (hf : ∀ x, P (f x)) (hd : P default)
    (c : Nat) : P ((m.onConv c f).conv c) := by
  by_cases hc : c < m.acq.convs.length
  · rw [m.conv_onConv_self hc]
    exact hf _
  · have hout : (m.onConv c f).conv c = default :=
      List.getD_eq_default _ _ (by simpa [Mach.onConv, upd] using hc)
    rwa [hout]

/-! ### What the self-check reads (R86, R467) -/

section
variable (c : Nat) (v : Int)

theorem Mach.selfCheck_of_not_checked {item : Nat} (h : m.checkRuns c = false ∨ 9 < item) : m.selfCheck c item v = m := by
  unfold Mach.selfCheck
  rcases h with h | h
  · exact if_pos (by simp [h])
  · have hitem : ¬ item = 0 ∧ ¬ item = 1 ∧ ¬ item ≤ 8 ∧ ¬ item = 9 := by omega
    simp only [hitem, if_false, ite_self]

variable {m c} (h : m.checkRuns c = true)
include h

/-- Items 0 and 1 are the reference and ground. -/
theorem Mach.selfCheck_reading (ground : Bool) : m.selfCheck c ground.toNat v = m.checkReading c ground v := by
  cases ground <;> simp [Mach.selfCheck, h]

theorem Mach.selfCheck_supply {k : Nat} (hk : k < 7) :
    m.selfCheck c (k + 2) v = (m.wrN (Reg.ACQ_SUP k) (unsigned 16 v)).supplyDrift k v := by
  have hsup : k + 2 ≤ 8 := by omega
  simp [Mach.selfCheck, h, hsup]

theorem Mach.selfCheck_die :
    m.selfCheck c 9 v = (m.onAcq fun a => { a with dieTemp := a.dieTemp.set c (some v) }).wrN (Reg.ACQ_SUP 7)
      (unsigned 16 (((m.acq.dieTemp.set c (some v)).filterMap id).foldl max v)) := by
  simp [Mach.selfCheck, h]
end

/-! ### The reference and ground against their windows (R86) -/

section
variable (c : Nat) (ground : Bool) (dev : Int)

/-- The half of ACQ_CHK that shows a reading: the lower one is ground's. -/
abbrev chkShift : Nat := if ground then 0 else 16

/-- A reading further than this from 0 lies outside its window. -/
abbrev chkWindow : Int := if ground then 24 else 48

/-- The readings outside the window in a row. -/
def Converter.chkRun (x : Converter) : Nat := if ground then x.gndRun else x.refRun

/-- A converter with `n` readings outside the window in a row. -/
def Converter.withChkRun (n : Nat) (x : Converter) : Converter := if ground then { x with gndRun := n } else { x with refRun := n }

@[simp] theorem Converter.chkRun_withChkRun (n : Nat) (x : Converter) : (x.withChkRun ground n).chkRun ground = n := by
  cases ground <;> rfl

/-- A reading is shown in ACQ_CHK, and the count in its converter becomes what `count` makes of it. -/
def Mach.readingNoted (count : Nat → Nat) : Mach :=
  (m.setFld (Reg.ACQ_CHK c) (chkShift ground + 15) (chkShift ground) (unsigned 16 dev)).onConv c fun x =>
    x.withChkRun ground (count (x.chkRun ground))

theorem Mach.readingNoted_shown (count : Nat → Nat) :
    (m.readingNoted c ground dev count).fld (Reg.ACQ_CHK c) (chkShift ground + 15) (chkShift ground) = unsigned 16 dev := by
  have hw : chkShift ground + 15 < 32 := by cases ground <;> decide
  have hbits : chkShift ground + 15 + 1 - chkShift ground = 16 := by omega
  rw [Mach.readingNoted, Mach.onConv, Mach.onAcq_fld, Mach.fld_setFld _ _ (by omega) hw, hbits]
  exact Nat.mod_eq_of_lt (unsigned_lt 16 dev)

theorem Mach.readingNoted_rd {b : Nat} (h : b ≠ Reg.ACQ_CHK c) (count : Nat → Nat) :
    (m.readingNoted c ground dev count).rd b = m.rd b := by
  rw [Mach.readingNoted, Mach.onConv, Mach.onAcq_rd, Mach.rd_setFld, if_neg h]

/-- The count after a reading: one more outside the window, 0 inside it. -/
def chkCount (n : Nat) : Nat := if decide (dev < -chkWindow ground) || decide (chkWindow ground < dev) then n + 1 else 0

theorem chkCount_inside (hlo : -chkWindow ground ≤ dev) (hhi : dev ≤ chkWindow ground) : chkCount ground dev = fun _ => 0 := by
  funext n
  simp [chkCount, hlo, hhi]

theorem chkCount_outside (h : chkWindow ground < (dev.natAbs : Int)) : chkCount ground dev = fun n => n + 1 := by
  funext n
  exact if_pos (by simp only [Bool.or_eq_true, decide_eq_true_eq]; omega)

theorem Mach.checkReading_eq :
    m.checkReading c ground dev =
      if 2 ≤ ((m.readingNoted c ground dev (chkCount ground dev)).conv c).chkRun ground
      then (m.readingNoted c ground dev (chkCount ground dev)).markFailed c
      else m.readingNoted c ground dev (chkCount ground dev) := by
  cases ground <;> rfl

theorem Mach.checkReading_inside (hlo : -chkWindow ground ≤ dev) (hhi : dev ≤ chkWindow ground) :
    m.checkReading c ground dev = m.readingNoted c ground dev fun _ => 0 := by
  have hrun : ¬ 2 ≤ ((m.readingNoted c ground dev fun _ => 0).conv c).chkRun ground := by
    refine Mach.conv_onConv_of_default _ (P := fun x => ¬ 2 ≤ x.chkRun ground) (fun x => ?_) ?_ c
    · simp
    · cases ground <;> decide
  rw [Mach.checkReading_eq, chkCount_inside ground dev hlo hhi, if_neg hrun]

/-- A reading outside its window, shown and counted. -/
abbrev Mach.outsideNoted : Mach := m.readingNoted c ground dev fun n => n + 1

theorem Mach.checkReading_second (h : chkWindow ground < (dev.natAbs : Int)) (hrun : (m.conv c).chkRun ground = 1)
    (hc : c < m.acq.convs.length) :
    m.checkReading c ground dev = (m.outsideNoted c ground dev).markFailed c := by
  have htwo : 2 ≤ ((m.outsideNoted c ground dev).conv c).chkRun ground := by
    rw [Mach.outsideNoted, Mach.readingNoted, Mach.conv_onConv_self _ (by exact hc), Converter.chkRun_withChkRun]
    exact Nat.succ_le_succ hrun.ge
  rw [Mach.checkReading_eq, chkCount_outside ground dev h, if_pos htwo]

/-- A reading inside its window is shown, and ends the readings outside it in a row. -/
theorem exec_selfCheckConversion_inside {s : State} {c : Fin 12} (h : s.m.checkRuns c = true) (hlo : -chkWindow ground ≤ dev)
    (hhi : dev ≤ chkWindow ground) (cyc : Nat) :
    ∃ t, exec (.selfCheckConversion cyc c ground.toNat dev) s = .next t ∧
      t.m.fld (Reg.ACQ_CHK c) (chkShift ground + 15) (chkShift ground) = unsigned 16 dev ∧
      t.m.acq = { s.m.acq with convs := upd s.m.acq.convs c (Converter.withChkRun ground 0) } ∧ Quiet s t [Reg.ACQ_CHK c] := by
  have hf : (s.at cyc).selfCheck c ground.toNat dev = (s.at cyc).readingNoted c ground dev fun _ => 0 := by
    rw [Mach.selfCheck_reading (m := s.at cyc) dev h, Mach.checkReading_inside _ _ _ _ hlo hhi]
  obtain ⟨t, ht, hm, hquiet⟩ := run_leaves (s := s) (cyc := cyc) (f := fun m => m.selfCheck c ground.toNat dev)
    (regs := [Reg.ACQ_CHK c]) (es := []) (fun b hb => by rw [hf, Mach.readingNoted_rd _ _ _ _ (List.mem_singleton.not.1 hb)]; rfl)
    (by rw [hf, List.append_nil]; rfl)
  refine ⟨t, ht, ?_, by rw [hm, hf]; rfl, hquiet⟩
  rw [hm, Mach.settle_fld, hf, Mach.readingNoted_shown]
end

/-! ### A converter is marked failed (R86) -/

section
variable (c : Nat)

/-- A converter shown as failed, with the tick of it. -/
def Mach.failedShown : Mach := (m.setBit Reg.ACQ_STATUS c true).onConv c fun x => { x with failedAt := m.seq }

/-- A converter's failure shown and told. -/
def Mach.failedTold : Mach := ((m.failedShown c).raise 0x0801 1).orr Reg.ACQ_IRQ_STAT 1

/-- The failure is told, and the third within 16 ticks is an F4. -/
theorem Mach.markFailed_cases (h : m.convFailed c = false) :
    m.markFailed c = m.failedTold c ∨ m.markFailed c = (m.failedTold c).raiseF4 0x0809 := by
  simp only [Mach.markFailed, h, Bool.false_eq_true, if_false]
  split
  · exact .inr rfl
  · exact .inl rfl

theorem Mach.failedTold_rd_other {b : Nat} (hs : b ≠ Reg.ACQ_STATUS) (hi : b ≠ Reg.ACQ_IRQ_STAT) :
    (m.failedTold c).rd b = m.rd b := by
  rw [Mach.failedTold, Mach.rd_orr, if_neg hi, Mach.raise_rd, Mach.failedShown, Mach.onConv, Mach.onAcq_rd, Mach.rd_setBit, if_neg hs]

theorem Mach.failedTold_convFailed (h : c < 32) : (m.failedTold c).convFailed c = true := by
  rw [Mach.convFailed, Mach.bit, Mach.failedTold, Mach.rd_orr, if_neg (by decide), Mach.raise_rd, Mach.failedShown, Mach.onConv,
    Mach.onAcq_rd, Mach.rd_setBit, if_pos rfl, Word.bit_withBit _ _ h]

variable {m c} (h : m.convFailed c = false)
include h

theorem Mach.markFailed_rd {b : Nat} (hp : b ≠ Reg.PWR_STATUS) : (m.markFailed c).rd b = (m.failedTold c).rd b := by
  rcases m.markFailed_cases c h with hf | hf <;> rw [hf]
  exact Mach.raiseF4_rd hp _

theorem Mach.markFailed_rd_other {b : Nat} (hs : b ≠ Reg.ACQ_STATUS) (hi : b ≠ Reg.ACQ_IRQ_STAT) (hp : b ≠ Reg.PWR_STATUS) :
    (m.markFailed c).rd b = m.rd b := (Mach.markFailed_rd h hp).trans (m.failedTold_rd_other c hs hi)

theorem Mach.markFailed_convFailed (hc : c < 32) : (m.markFailed c).convFailed c = true := by
  rw [Mach.convFailed, Mach.bit, Mach.markFailed_rd h (by decide)]
  exact m.failedTold_convFailed c hc

theorem Mach.markFailed_raised :
    m.time.raised ++ [eventAt (m.failedShown c) 0x0801 1 0xFF [] 0] <+: (m.markFailed c).time.raised := by
  rcases m.markFailed_cases c h with hf | hf <;> rw [hf]
  · exact List.prefix_rfl
  · exact List.prefix_append ..
end

theorem chk_ne_shown_on_failure (c : Fin 12) :
    Reg.ACQ_CHK c ≠ Reg.ACQ_STATUS ∧ Reg.ACQ_CHK c ≠ Reg.ACQ_IRQ_STAT ∧ Reg.ACQ_CHK c ≠ Reg.PWR_STATUS := by
  simp only [Reg.ACQ_CHK, Reg.ACQ_STATUS, Reg.ACQ_IRQ_STAT, Reg.PWR_STATUS]
  omega

/-- A second reading of ground outside its window in a row is shown, and its converter fails. -/
theorem exec_selfCheckConversion_fails {s : State} {c : Fin 12} {dev : Int} (h : s.m.checkRuns c = true)
    (hout : 24 < dev.natAbs) (hrun : (s.m.conv c).gndRun = 1) (hc : c.val < s.m.acq.convs.length)
    (hok : s.m.convFailed c = false) (cyc : Nat) :
    ∃ t, exec (.selfCheckConversion cyc c 1 dev) s = .next t ∧ t.m.fld (Reg.ACQ_CHK c) 15 0 = unsigned 16 dev ∧
      t.m.convFailed c = true ∧ Tells s t 0x0801 1 0xFF ∧
      SameRegsBut s t [Reg.ACQ_CHK c, Reg.ACQ_STATUS, Reg.ACQ_IRQ_STAT, Reg.PWR_STATUS] ∧ SameMemory s t := by
  have hf : (s.at cyc).selfCheck c 1 dev = ((s.at cyc).outsideNoted c true dev).markFailed c :=
    (Mach.selfCheck_reading (m := s.at cyc) dev h true).trans (Mach.checkReading_second _ c true dev (Int.ofNat_lt.2 hout) hrun hc)
  obtain ⟨hst, hirq, hpwr⟩ := chk_ne_shown_on_failure c
  have hok' : ((s.at cyc).outsideNoted c true dev).convFailed c = false := by
    rw [Mach.convFailed, Mach.bit, Mach.readingNoted_rd _ _ _ _ hst.symm]
    exact hok
  obtain ⟨t, ht, hm, hregs, hmem⟩ := run_keeps (s := s) (cyc := cyc) (f := fun m => m.selfCheck c 1 dev)
    (regs := [Reg.ACQ_CHK c, Reg.ACQ_STATUS, Reg.ACQ_IRQ_STAT, Reg.PWR_STATUS]) (fun b hb => by
      simp only [List.mem_cons, List.not_mem_nil, or_false, not_or] at hb
      obtain ⟨hb, hbs, hbi, hbp⟩ := hb
      rw [hf, Mach.markFailed_rd_other hok' hbs hbi hbp, Mach.readingNoted_rd _ _ _ _ hb]
      rfl)
  rw [hf] at hm
  refine ⟨t, ht, ?_, ?_, ?_, hregs, hmem⟩
  · rw [hm, Mach.settle_fld, Mach.fld, Mach.markFailed_rd_other hok' hst hirq hpwr]
    exact (s.at cyc).readingNoted_shown c true dev _
  · rw [hm, Mach.convFailed, Mach.settle_bit]
    exact Mach.markFailed_convFailed hok' (by omega)
  · have htold := Mach.markFailed_raised hok'
    exact tells_of_prefix ⟨rfl, rfl, rfl⟩ (by rw [hm]; exact htold)

/-! ### Supplies and temperatures (R86, R467) -/

/-- What the drift check of supply `k` may do: it counts, and it may tell that the supply has drifted. -/
def Mach.DriftChecked (k : Nat) (m' : Mach) : Prop :=
  ∃ p, m' = { m with pwr := p } ∨ m' = (Mach.raise { m with pwr := p } 0x4803 1 0xFF [k]).orr Reg.PWR_IRQ_STAT 1

theorem Mach.supplyDrift_driftChecked (k : Nat) (mv : Int) : m.DriftChecked k (m.supplyDrift k mv) := by
  cases hn : supplyNominal k with
  | none => exact ⟨m.pwr, .inl (by simp only [Mach.supplyDrift, hn])⟩
  | some n =>
    simp only [Mach.supplyDrift, hn]
    exact iteInduction (motive := m.DriftChecked k) (fun _ => ⟨_, .inr rfl⟩) fun _ =>
      iteInduction (motive := m.DriftChecked k) (fun _ => ⟨_, .inl rfl⟩) fun _ => ⟨_, .inl rfl⟩

theorem Mach.supplyDrift_acq (k : Nat) (mv : Int) : (m.supplyDrift k mv).acq = m.acq := by
  obtain ⟨p, hf | hf⟩ := m.supplyDrift_driftChecked k mv
  · rw [hf]
  · rw [hf, Mach.orr_acq, Mach.raise_acq]

theorem Mach.supplyDrift_rd {b : Nat} (h : b ≠ Reg.PWR_IRQ_STAT) (k : Nat) (mv : Int) : (m.supplyDrift k mv).rd b = m.rd b := by
  obtain ⟨p, hf | hf⟩ := m.supplyDrift_driftChecked k mv <;> rw [hf]
  · rfl
  · exact (Mach.rd_orr ..).trans (if_neg h)

theorem exec_selfCheckConversion_supply {s : State} {c : Fin 12} {k : Nat} (h : s.m.checkRuns c = true) (hk : k < 7) (cyc : Nat)
    (v : Int) :
    ∃ t, exec (.selfCheckConversion cyc c (k + 2) v) s = .next t ∧ t.m.rd (Reg.ACQ_SUP k) = BitVec.ofNat 32 (unsigned 16 v) ∧
      t.m.acq = s.m.acq ∧ SameRegsBut s t [Reg.ACQ_SUP k, Reg.PWR_IRQ_STAT] ∧ SameMemory s t := by
  have hf : (s.at cyc).selfCheck c (k + 2) v = _ := Mach.selfCheck_supply (m := s.at cyc) v h hk
  have hsup : Reg.ACQ_SUP k ≠ Reg.PWR_IRQ_STAT := by
    simp only [Reg.ACQ_SUP, Reg.PWR_IRQ_STAT]
    omega
  obtain ⟨t, ht, hm, hregs, hmem⟩ := run_keeps (s := s) (cyc := cyc) (f := fun m => m.selfCheck c (k + 2) v)
    (regs := [Reg.ACQ_SUP k, Reg.PWR_IRQ_STAT]) (fun b hb => by
      simp only [List.mem_cons, List.not_mem_nil, or_false, not_or] at hb
      rw [hf, Mach.supplyDrift_rd _ hb.2, Mach.rd_wrN, if_neg hb.1]
      rfl)
  rw [hf] at hm
  refine ⟨t, ht, ?_, ?_, hregs, hmem⟩ <;> rw [hm]
  · rw [Mach.settle_rd, Mach.supplyDrift_rd _ hsup, Mach.rd_wrN, if_pos rfl]
  · exact Mach.supplyDrift_acq ..

theorem exec_selfCheckConversion_die {s : State} {c : Fin 12} (h : s.m.checkRuns c = true) (cyc : Nat) (v : Int) :
    ∃ t, exec (.selfCheckConversion cyc c 9 v) s = .next t ∧
      t.m.acq = { s.m.acq with dieTemp := s.m.acq.dieTemp.set c (some v) } ∧
      t.m.rd (Reg.ACQ_SUP 7) = BitVec.ofNat 32 (unsigned 16 ((t.m.acq.dieTemp.filterMap id).foldl max v)) ∧
      Quiet s t [Reg.ACQ_SUP 7] := by
  have hf : (s.at cyc).selfCheck c 9 v = _ := Mach.selfCheck_die (m := s.at cyc) v h
  have ha : ((s.at cyc).selfCheck c 9 v).acq = { s.m.acq with dieTemp := s.m.acq.dieTemp.set c (some v) } := by rw [hf]; rfl
  obtain ⟨t, ht, hm, hquiet⟩ := run_leaves (s := s) (cyc := cyc) (f := fun m => m.selfCheck c 9 v)
    (regs := [Reg.ACQ_SUP 7]) (es := []) (fun b hb => by rw [hf, Mach.rd_wrN, if_neg (List.mem_singleton.not.1 hb)]; rfl)
    (by rw [hf, List.append_nil]; rfl)
  refine ⟨t, ht, ?_, ?_, hquiet⟩ <;> rw [hm, Mach.settle_acq]
  · exact ha
  · rw [ha, Mach.settle_rd, hf, Mach.rd_wrN, if_pos rfl]
    rfl

/-! ### The sums of a calibration (R87) -/

section
variable {i sum : Nat}

theorem Mach.calInput_of_not_left (h : m.acq.calLeft.contains i = false) (sum : Nat) : m.calInput i sum = m :=
  if_pos (by rw [h]; rfl)

/-- The offset that the sum of an input's 256 samples gives. -/
abbrev Mach.newOffset (i sum : Nat) : Int := roundHalfAway sum 256 - m.fld (Reg.ACQ_IN i) 15 0

variable {m} (h : m.acq.calLeft.contains i = true)
include h

theorem Mach.calInput_taken (ho : (m.newOffset i sum).natAbs ≤ 1311) :
    m.calInput i sum =
      m.onAcq fun a => { a with calNew := a.calNew ++ [(i, m.newOffset i sum)], calLeft := a.calLeft.erase i } := by
  simp only [Mach.calInput, h, Bool.not_true, Bool.false_eq_true, if_false]
  exact if_pos ho

/-- An offset too large is told, and the slots that it fails are noted for the calibration's end. -/
theorem Mach.calInput_refused (ho : 1311 < (m.newOffset i sum).natAbs) :
    ∃ failed, m.calInput i sum =
      ((m.onAcq fun a => { a with calLeft := a.calLeft.erase i, calFailed := failed }).raise 0x0807 1).orr Reg.ACQ_IRQ_STAT 0x20 := by
  simp only [Mach.calInput, h, Bool.not_true, Bool.false_eq_true, if_false]
  exact ⟨_, if_neg (Nat.not_le.2 ho)⟩
end

theorem exec_calibrationComplete_refused {s : State} {i sum : Nat} (h : s.m.acq.calLeft.contains i = true)
    (ho : 1311 < (s.m.newOffset i sum).natAbs) (cyc : Nat) :
    ∃ t, exec (.calibrationComplete cyc [(i, sum)]) s = .next t ∧ t.m.acq.calNew = s.m.acq.calNew ∧
      t.m.acq.calLeft = s.m.acq.calLeft.erase i ∧ Raises s t [eventAt (s.at cyc) 0x0807 1 0xFF [] 0] ∧
      SameRegsBut s t [Reg.ACQ_IRQ_STAT] ∧ SameMemory s t := by
  obtain ⟨failed, hf⟩ := Mach.calInput_refused (m := s.at cyc) h ho
  obtain ⟨t, ht, hm, hregs, hmem, hev⟩ := run_leaves (s := s) (cyc := cyc) (f := fun m => m.calInput i sum)
    (regs := [Reg.ACQ_IRQ_STAT]) (es := [eventAt (s.at cyc) 0x0807 1 0xFF [] 0])
    (fun b hb => by rw [hf, Mach.rd_orr, if_neg (List.mem_singleton.not.1 hb)]; rfl) (by rw [hf]; rfl)
  rw [hf] at hm
  exact ⟨t, ht, by rw [hm]; rfl, by rw [hm]; rfl, hev, hregs, hmem⟩

/-! ### VDDA (R89) -/

/-- VDDA_OK takes the value `ok`, and the bits of the converters stay. -/
theorem run_vdda (s : State) (cyc : Nat) (ok : Bool) :
    ∃ t, run s cyc (fun m => m.setBit Reg.ACQ_STATUS 12 ok) = .next t ∧ t.m.vddaOk = ok ∧
      t.m.fld Reg.ACQ_STATUS 11 0 = s.m.fld Reg.ACQ_STATUS 11 0 ∧ Quiet s t [Reg.ACQ_STATUS] := by
  obtain ⟨t, ht, hm, hquiet⟩ := run_leaves (s := s) (cyc := cyc) (f := fun m => m.setBit Reg.ACQ_STATUS 12 ok)
    (regs := [Reg.ACQ_STATUS]) (es := []) (fun b hb => by rw [Mach.rd_setBit, if_neg (List.mem_singleton.not.1 hb)]; rfl)
    (List.append_nil _).symm
  have hrd : t.m.rd Reg.ACQ_STATUS = (s.m.rd Reg.ACQ_STATUS).withBit 12 ok := by
    rw [hm, Mach.settle_rd, Mach.rd_setBit, if_pos rfl]
    rfl
  refine ⟨t, ht, ?_, ?_, hquiet⟩
  · rw [Mach.vddaOk, Mach.bit, hrd, Word.bit_withBit _ _ (by decide)]
  · rw [Mach.fld, hrd, Word.bits_withBit_other _ _ (by decide) (by decide) (by decide), Mach.fld]

/-- Settles O15: a reading by its item and its window, a calibration's sum by the size of its offset, and VDDA by its new level. -/
theorem selfCheckCalibrationAndVdda : Obligations.SelfCheckCalibrationAndVdda := by
  refine ⟨fun cyc c s v h hlo hhi => exec_selfCheckConversion_inside false v h hlo hhi cyc,
    fun cyc c s v h hlo hhi => exec_selfCheckConversion_inside true v h hlo hhi cyc,
    fun cyc c s v h hout hrun hc hok => exec_selfCheckConversion_fails h hout hrun hc hok cyc,
    fun cyc c s k v h hk => exec_selfCheckConversion_supply h hk cyc v, fun cyc c s v h => exec_selfCheckConversion_die h cyc v,
    fun cyc c s item v h => ?_, fun cyc s i sum off h hoff hsmall => ?_, fun cyc s i sum off h hoff hlarge => ?_,
    fun cyc s sums h => ?_, fun cyc s => run_vdda s cyc false, fun cyc s => run_vdda s cyc true⟩
  · exact run_acq_nothing (f := fun m => m.selfCheck c item v) ((s.at cyc).selfCheck_of_not_checked c v h)
  · subst hoff
    exact run_onAcq (f := fun m => m.calInput i sum) (Mach.calInput_taken (m := s.at cyc) h hsmall)
  · subst hoff
    exact exec_calibrationComplete_refused h hlarge cyc
  · have hkeep : forL sums (fun p m => m.calInput p.1 p.2) (s.at cyc) = s.at cyc :=
      forL_induct (P := (· = s.at cyc)) (fun p hp m hm => by rw [hm]; exact (s.at cyc).calInput_of_not_left (h p hp) p.2) rfl
    exact run_acq_nothing (f := fun m => forL sums (fun p m => m.calInput p.1 p.2) m) hkeep

end Sys2Proof.Machine
end

section
/-! Hall triplets (R94, R100, R102): the step that a change of pins makes, the drives that follow it, and what a triplet's latch
takes. -/

namespace Sys2Proof.Machine

variable (m : Mach)

/-! ### What a command of the position block leaves -/

theorem upd_upd {α : Type} (l : List α) (i : Nat) (f g : α → α) : upd (upd l i f) i g = upd l i (g ∘ f) :=
  List.modify_modify_eq f g i l

theorem Mach.onHall_onHall (t : Nat) (f g : HallTriplet → HallTriplet) : (m.onHall t f).onHall t g = m.onHall t (g ∘ f) := by
  simp only [Mach.onHall, Mach.onPos, upd_upd]

/-- What a command that raises no event leaves, from what it makes of the registers and of the position block. -/
theorem run_pos {s : State} {cyc : Nat} {f : Mach → Mach} {regs : List Nat} {p : PosState}
    (hr : ∀ b, b ∉ regs → (f (s.at cyc)).rd b = s.m.rd b) (he : (f (s.at cyc)).time.raised = s.m.time.raised)
    (hp : (f (s.at cyc)).pos = p) : ∃ t, run s cyc f = .next t ∧ t.m.pos = p ∧ Quiet s t regs := by
  obtain ⟨t, ht, hm, hquiet⟩ := run_leaves (es := []) hr (he.trans (List.append_nil _).symm)
  exact ⟨t, ht, by rw [hm, Mach.settle_pos, hp], hquiet⟩

/-! ### A change of pins (R100) -/

/-- A triplet that shows pins with a valid sector. -/
def HallTriplet.shows (pins sec : Nat) (h : HallTriplet) : HallTriplet := { h with pins := pins, sector := sec, lastSector := sec }

/-- A triplet whose last change skipped a sector. -/
def HallTriplet.skipped (h : HallTriplet) : HallTriplet := { h with skip := true }

section
variable {m} {t pins : Nat}

theorem Mach.hallEdge_invalid (hmode : m.mode ≠ .sleep) (hsec : 6 ≤ m.hallMap t pins) :
    m.hallEdge t pins =
      (m.onHall t fun h => { h with pins := pins, sector := m.hallMap t pins, inv := true }).hallBad t pins := by
  simp only [Mach.hallEdge, if_neg hmode, if_pos hsec, Mach.onHall_onHall]
  rfl

variable {d : Nat} (hmode : m.mode ≠ .sleep) (hsec : m.hallMap t pins < 6) (hd : d < 6)
  (hstep : m.hallMap t pins = ((m.hall t).lastSector + d) % 6) (hlast : (m.hall t).lastSector < 6)
include hmode hsec hd hstep hlast

/-- A step of `d` sectors, by `d`. -/
theorem Mach.hallEdge_step :
    m.hallEdge t pins =
      (let shown := m.onHall t (HallTriplet.shows pins (m.hallMap t pins))
       if d = 0 then shown
       else if d = 1 then shown.onHall t (hallStep m.now true)
       else if d = 5 then shown.onHall t (hallStep m.now false)
       else (shown.onHall t HallTriplet.skipped).hallBad t pins) := by
  have hdist : (m.hallMap t pins + 6 - (m.hall t).lastSector) % 6 = d := by omega
  have hlast' : ¬ 6 ≤ (m.hall t).lastSector := by omega
  simp only [Mach.hallEdge, if_neg hmode, if_neg (Nat.not_le.2 hsec), hdist, hlast', false_or, Mach.onHall_onHall]
  rfl

theorem Mach.hallEdge_adjacent (hadj : d = 1 ∨ d = 5) :
    m.hallEdge t pins =
      m.onHall t (hallStep m.now (decide (d = 1)) ∘ HallTriplet.shows pins (m.hallMap t pins)) := by
  rw [Mach.hallEdge_step hmode hsec hd hstep hlast, ← Mach.onHall_onHall]
  rcases hadj with rfl | rfl <;> rfl

theorem Mach.hallEdge_skip (hlo : 2 ≤ d) (hhi : d ≤ 4) :
    m.hallEdge t pins = (m.onHall t (HallTriplet.skipped ∘ HallTriplet.shows pins (m.hallMap t pins))).hallBad t pins := by
  rw [Mach.hallEdge_step hmode hsec hd hstep hlast, ← Mach.onHall_onHall]
  simp only [show d ≠ 0 by omega, show d ≠ 1 by omega, show d ≠ 5 by omega, if_false]
end

theorem Mach.hallBad_rd (t pins b : Nat) :
    (m.hallBad t pins).rd b = if b = Reg.POS_IRQ_STAT then m.rd Reg.POS_IRQ_STAT ||| 8#32 else m.rd b := Mach.rd_orr ..

/-! ### The drives of the triplet follow (R212, R213, R283) -/

/-- The registers that show the commutation of the drives. -/
abbrev commutationRegs : List Nat := Reg.GDL_IRQ_STAT :: (List.range 6).map Reg.GDL_DRV_STAT

/-- Of what a hall edge has made of the machine, no more than drives, gates and the registers of commutation have changed. -/
structure Mach.EdgeKept (m m' : Mach) : Prop where
  pos : m'.pos = m.pos
  time : m'.time = m.time
  rd : ∀ b, b ∉ commutationRegs → m'.rd b = m.rd b

theorem Mach.EdgeKept.refl : m.EdgeKept m := ⟨rfl, rfl, fun _ _ => rfl⟩

section
variable {m} {m' : Mach} (h : m.EdgeKept m')
include h

theorem Mach.EdgeKept.onLeg (j : Nat) (f : GateLeg → GateLeg) : m.EdgeKept (m'.onLeg j f) := ⟨h.pos, h.time, h.rd⟩

theorem Mach.EdgeKept.onDrv (d : Nat) (f : ActDrive → ActDrive) : m.EdgeKept (m'.onDrv d f) := ⟨h.pos, h.time, h.rd⟩

theorem Mach.EdgeKept.wr {a : Nat} (ha : a ∈ commutationRegs) (w : Word) : m.EdgeKept (m'.wr a w) :=
  ⟨h.pos, h.time, fun b hb => (m'.rd_wr_other w fun hba => hb (by rwa [hba])).trans (h.rd b hb)⟩

theorem Mach.EdgeKept.orr {a : Nat} (ha : a ∈ commutationRegs) (k : Nat) : m.EdgeKept (m'.orr a k) :=
  ⟨h.pos, h.time, (h.wr ha _).rd⟩

theorem Mach.EdgeKept.takeRole (j : Nat) (r : CommRole) : m.EdgeKept (m'.takeRole j r) := by
  unfold Mach.takeRole
  extract_lets now settled x sync was nxt on cut
  have hsettled : m.EdgeKept settled := h.onLeg j _
  exact iteInduction (fun _ => h) fun _ => hsettled.onLeg j _

theorem Mach.EdgeKept.commutate {d : Nat} (hd : d < 6) : m.EdgeKept (m'.commutate d) := by
  have hst : Reg.GDL_DRV_STAT d ∈ commutationRegs :=
    List.mem_cons_of_mem _ (List.mem_map_of_mem (List.mem_range.2 hd))
  unfold Mach.commutate
  extract_lets j0 st sector dir comm inv row ph was role turned shown told
  have hturned : m.EdgeKept turned := iteInduction
    (fun _ => forL_induct (P := m.EdgeKept) (l := List.range 3) (fun i _ _ hi => hi.takeRole (j0 + i) (role i)) h) fun _ => h
  have hshown : m.EdgeKept shown := ((hturned.wr hst _).wr hst _).wr hst _
  have htold : m.EdgeKept told := iteInduction (fun _ => hshown.wr hst _) fun _ => hshown
  exact iteInduction (fun _ => htold.orr List.mem_cons_self _) fun _ => htold
end

theorem Mach.edgeKept_hallChange (t pins : Nat) : (m.hallEdge t pins).EdgeKept (m.hallChange t pins) :=
  forL_induct (P := (m.hallEdge t pins).EdgeKept) (l := List.range 6)
    (fun d hd _ h => iteInduction (fun _ => (h.onDrv d _).commutate (List.mem_range.1 hd)) fun _ => h) (.refl _)

/-- HALL_EDGE leaves what the edge makes of the machine; the drives then change the registers of commutation. -/
theorem exec_hallEdge {s : State} {cyc : Nat} {k : Fin 6} {pins : BitVec 3} {regs : List Nat} {es : List Event}
    (hr : ∀ b, b ∉ regs → ((s.at cyc).hallEdge k pins.toNat).rd b = s.m.rd b)
    (he : ((s.at cyc).hallEdge k pins.toNat).time.raised = s.m.time.raised ++ es) :
    ∃ t, exec (.hallEdge cyc k pins) s = .next t ∧ t.m.pos = ((s.at cyc).hallEdge k pins.toNat).pos ∧
      (∀ b, b ∉ commutationRegs → t.m.rd b = ((s.at cyc).hallEdge k pins.toNat).rd b) ∧
      SameRegsBut s t (regs ++ commutationRegs) ∧ SameMemory s t ∧ Raises s t es := by
  obtain ⟨hpos, htime, hrd⟩ := (s.at cyc).edgeKept_hallChange k pins.toNat
  obtain ⟨t, ht, hm, hframe⟩ := run_leaves (s := s) (cyc := cyc) (f := fun m => m.hallChange k pins.toNat)
    (regs := regs ++ commutationRegs) (es := es)
    (fun b hb => by
      rw [List.mem_append, not_or] at hb
      exact (hrd b hb.2).trans (hr b hb.1))
    (by rw [htime, he])
  exact ⟨t, ht, by rw [hm, Mach.settle_pos, hpos], fun b hb => by rw [hm, Mach.settle_rd, hrd b hb], hframe⟩

/-- An edge counts a step of one sector with its direction and its stamp. -/
theorem hallStep_counts (now pins sec : Nat) (fwd : Bool) (h : HallTriplet) :
    let g := hallStep now fwd (h.shows pins sec)
    g.pins = pins ∧ g.lastSector = sec ∧ g.fwd = fwd ∧ g.edges = h.edges + 1 ∧ g.pos = h.pos + (if fwd then 1 else -1) ∧
      g.skip = false ∧ g.stamps.head? = some now := by
  refine ⟨rfl, rfl, rfl, rfl, rfl, rfl, ?_⟩
  exact iteInduction (motive := fun l : List Nat => l.head? = some now) (fun _ => rfl) fun _ => rfl

section
variable {s : State} {k : Fin 6} {pins : BitVec 3}

theorem exec_hallEdge_adjacent {d : Nat} (hmode : s.m.mode ≠ .sleep) (hsec : s.m.hallMap k pins.toNat < 6) (hadj : d = 1 ∨ d = 5)
    (hstep : s.m.hallMap k pins.toNat = ((s.m.hall k).lastSector + d) % 6) (hlast : (s.m.hall k).lastSector < 6) (cyc : Nat) :
    ∃ t g, exec (.hallEdge cyc k pins) s = .next t ∧ t.m.pos = { s.m.pos with halls := upd s.m.pos.halls k g } ∧
      Quiet s t commutationRegs ∧
      ∀ h, (g h).pins = pins.toNat ∧ (g h).lastSector = s.m.hallMap k pins.toNat ∧ (g h).fwd = decide (d = 1) ∧
        (g h).edges = h.edges + 1 ∧ (g h).pos = h.pos + (if d = 1 then 1 else -1) ∧ (g h).skip = false ∧
        (g h).stamps.head? = some (s.at cyc).now := by
  have hf := Mach.hallEdge_adjacent (m := s.at cyc) hmode hsec (by omega) hstep hlast hadj
  obtain ⟨t, ht, hpos, -, hquiet⟩ := exec_hallEdge (s := s) (cyc := cyc) (k := k) (pins := pins) (regs := []) (es := [])
    (fun b _ => by rw [hf]; rfl) (by rw [hf, List.append_nil]; rfl)
  refine ⟨t, _, ht, hpos.trans (congrArg Mach.pos hf), hquiet, fun h => ?_⟩
  have hcounts := hallStep_counts (s.at cyc).now pins.toNat (s.m.hallMap k pins.toNat) (decide (d = 1)) h
  simp only [decide_eq_true_eq] at hcounts
  exact hcounts

/-- A change of pins that event 0x0C03 tells; `f` is what it makes of the triplet. -/
theorem exec_hallEdge_told {cyc : Nat} {f : HallTriplet → HallTriplet}
    (hf : (s.at cyc).hallEdge k pins.toNat = ((s.at cyc).onHall k f).hallBad k pins.toNat) :
    ∃ t, exec (.hallEdge cyc k pins) s = .next t ∧ t.m.pos = { s.m.pos with halls := upd s.m.pos.halls k f } ∧
      Raises s t [eventAt (s.at cyc) 0x0C03 1 0xFF [k.val, pins.toNat] 0] ∧
      t.m.rd Reg.POS_IRQ_STAT = s.m.rd Reg.POS_IRQ_STAT ||| 8#32 ∧
      SameRegsBut s t (Reg.POS_IRQ_STAT :: commutationRegs) ∧ SameMemory s t := by
  obtain ⟨t, ht, hpos, hrd, hregs, hmem, hev⟩ := exec_hallEdge (s := s) (cyc := cyc) (k := k) (pins := pins)
    (regs := [Reg.POS_IRQ_STAT]) (es := [eventAt (s.at cyc) 0x0C03 1 0xFF [k.val, pins.toNat] 0])
    (fun b hb => by rw [hf, Mach.hallBad_rd, if_neg (List.mem_singleton.not.1 hb)]; rfl) (by rw [hf]; rfl)
  refine ⟨t, ht, hpos.trans (congrArg Mach.pos hf), hev, ?_, hregs, hmem⟩
  rw [hrd _ (by decide), hf, Mach.hallBad_rd, if_pos rfl]
  rfl
end

/-! ### A triplet's latch (R94, R100, R102) -/

/-- A per-unit quotient spends at most a free value. -/
theorem Mach.quotPu_spends (num : Int) (den : Nat) : ∃ n, (m.quotPu num den).2 = m.spend n := by
  unfold Mach.quotPu
  split
  · exact ⟨1, rfl⟩
  · exact ⟨0, rfl⟩

theorem Mach.hallSpeed_spends (t : Nat) : ∃ n, (m.hallSpeed t).2 = m.spend n := by
  unfold Mach.hallSpeed
  dsimp only
  split
  · exact ⟨0, rfl⟩
  · exact m.quotPu_spends _ _

/-- Without an edge since the last standstill the speed is 0. -/
theorem Mach.hallSpeed_of_no_stamps {t : Nat} (h : (m.hall t).stamps = []) : m.hallSpeed t = (0, m) := if_pos (by rw [h]; rfl)

/-- What a triplet samples: its standstill, the word that shows it, and its speed before standstill. -/
def HallTriplet.latched (still : Standstill) (st : Nat) (spd : Int) (h : HallTriplet) : HallTriplet :=
  { h with still := still, edges := 0, st := st, spd := if still.declared.isSome then 0 else spd, latchDone := true,
           stamps := if still.declared.isSome then [] else h.stamps }

/-- The word that shows triplet `h` at a latch, at rest or not. -/
def hallWord (h : HallTriplet) (atRest : Bool) : Nat :=
  (!h.skip && !h.inv).toNat * 2 ^ 31 + atRest.toNat * 2 ^ 30 + (!h.fwd).toNat * 2 ^ 29 + h.inv.toNat * 2 ^ 28 +
    h.skip.toNat * 2 ^ 27 + min h.edges 255 * 2 ^ 8 + h.pins * 2 ^ 5 + (if 6 ≤ h.sector then 7 else h.sector)

theorem Mach.latchHall_eq {t : Nat} (hmode : m.mode ≠ .sleep) :
    ∃ n still, m.latchHall t =
      (m.spend n).onHall t (HallTriplet.latched still (hallWord (m.hall t) still.declared.isSome) (m.hallSpeed t).1) := by
  obtain ⟨n, hn⟩ := m.hallSpeed_spends t
  simp only [Mach.latchHall, if_neg hmode, hn]
  exact ⟨n, _, rfl⟩

/-- The word's fields of edges and of pins. -/
theorem hallWord_fields {h : HallTriplet} (hpins : h.pins < 8) (atRest : Bool) :
    hallWord h atRest / 2 ^ 8 % 2 ^ 8 = min h.edges 255 ∧ hallWord h atRest / 2 ^ 5 % 2 ^ 3 = h.pins := by
  have hsec : (if 6 ≤ h.sector then 7 else h.sector) < 8 := by split <;> omega
  unfold hallWord
  generalize (if 6 ≤ h.sector then 7 else h.sector) = sec at hsec ⊢
  omega

/-- POSITION_LATCH: the latch of a channel, or of the triplet `k - 2`. -/
def Mach.positionLatch (k : Nat) (m : Mach) : Mach := if k < 2 then m.latchChan k else m.latchHall (k - 2)

theorem exec_positionLatch (cyc : Nat) (k : Fin 8) (s : State) :
    exec (.positionLatch cyc k) s = run s cyc (Mach.positionLatch k) := rfl

theorem Mach.positionLatch_channel {k : Nat} (hk : k < 2) : m.positionLatch k = m.latchChan k := if_pos hk

theorem Mach.positionLatch_hall {k : Nat} (hk : 2 ≤ k) : m.positionLatch k = m.latchHall (k - 2) := if_neg (Nat.not_lt.2 hk)

theorem exec_positionLatch_hall {s : State} {k : Fin 8} (hk : 2 ≤ k.val) (hmode : s.m.mode ≠ .sleep) (cyc : Nat) :
    ∃ t g, exec (.positionLatch cyc k) s = .next t ∧ t.m.pos = { s.m.pos with halls := upd s.m.pos.halls (k.val - 2) g } ∧
      Quiet s t [] ∧ ((s.m.hall (k.val - 2)).stamps = [] → ∀ h, (g h).spd = 0) ∧
      ∀ h, (g h).edges = 0 ∧ (g h).latchDone = true ∧ (g h).pins = h.pins ∧ (g h).pos = h.pos ∧
        ((s.m.hall (k.val - 2)).pins < 8 → (g h).st / 2 ^ 8 % 2 ^ 8 = min (s.m.hall (k.val - 2)).edges 255 ∧
          (g h).st / 2 ^ 5 % 2 ^ 3 = (s.m.hall (k.val - 2)).pins) := by
  obtain ⟨n, still, hlatch⟩ := (s.at cyc).latchHall_eq (t := k.val - 2) hmode
  have hf := ((s.at cyc).positionLatch_hall hk).trans hlatch
  obtain ⟨t, ht, hpos, hquiet⟩ := run_pos (s := s) (cyc := cyc) (f := Mach.positionLatch k) (regs := [])
    (fun b _ => by rw [hf]; rfl) (by rw [hf]; rfl) (by rw [hf])
  rw [← exec_positionLatch] at ht
  refine ⟨t, _, ht, hpos, hquiet, fun hnone h => ?_, fun h => ⟨rfl, rfl, rfl, rfl, fun hpins => hallWord_fields hpins _⟩⟩
  have hspd : ((s.at cyc).hallSpeed (k.val - 2)).1 = 0 :=
    congrArg Prod.fst ((s.at cyc).hallSpeed_of_no_stamps hnone)
  rw [HallTriplet.latched, hspd]
  exact ite_self _

end Sys2Proof.Machine
end

section
/-! The latch of a position channel (R94, R97, R99, R101 to R104): an SSI channel begins its read, and any other takes angle, count
and health. -/

namespace Sys2Proof.Machine

variable (m : Mach)

/-! ### Entries in accession and F3 events (R16, R305, R309) -/

/-- The registers that an entry for accession may change where it has no room. -/
abbrev accessionRegs : List Nat := [Reg.LANE_ACCSTAT, Reg.LANE_L_IRQ_STAT 0, Reg.LANE_L_IRQ_STAT 1]

theorem Mach.place_pos (first last : Nat) (entry : Nat → JEntry) : (m.place first last entry).pos = m.pos := by
  unfold Mach.place
  dsimp only
  split
  · rfl
  · split <;> rfl

theorem Mach.place_rd_other {b : Nat} (h : b ∉ accessionRegs) (first last : Nat) (entry : Nat → JEntry) :
    (m.place first last entry).rd b = m.rd b := by
  simp only [List.mem_cons, List.not_mem_nil, or_false, not_or] at h
  obtain ⟨hstat, ha, hb⟩ := h
  unfold Mach.place
  dsimp only
  split
  · rfl
  · split
    · rw [Mach.incSat, Mach.rd_setFld, if_neg hstat, Mach.wait_rd]
    · rw [Mach.orrBoth, Mach.rd_orr, if_neg hb, Mach.rd_orr, if_neg ha, Mach.raise_rd, Mach.incSat, Mach.rd_setFld, if_neg hstat]

theorem Mach.accede_pos (i : AsyncIn) : (m.accede i).pos = m.pos := by
  rw [Mach.accede, Mach.accedeAt, Mach.place_pos]

theorem Mach.accede_rd_other {b : Nat} (h : b ∉ accessionRegs) (i : AsyncIn) : (m.accede i).rd b = m.rd b := by
  rw [Mach.accede, Mach.accedeAt, Mach.place_rd_other _ h]

/-- R309: the cause of an F3 event goes into accession, or stands there already. -/
theorem Mach.raiseF3_cases (code slot : Nat) (d : List Nat) (o : Nat) :
    m.raiseF3 code slot d o = m.raise code 3 slot d o ∨
      m.raiseF3 code slot d o = (m.raise code 3 slot d o).accede ⟨10, slot, 0, 0, code, []⟩ := by
  unfold Mach.raiseF3 Mach.accedeCause
  dsimp only
  split
  · exact .inl rfl
  · exact .inr rfl

theorem Mach.raiseF3_pos (code slot : Nat) (d : List Nat) (o : Nat) : (m.raiseF3 code slot d o).pos = m.pos := by
  rcases m.raiseF3_cases code slot d o with h | h <;> rw [h]
  · rfl
  · rw [Mach.accede_pos, Mach.raise_pos]

theorem Mach.raiseF3_rd_other {b : Nat} (h : b ∉ accessionRegs) (code slot : Nat) (d : List Nat) (o : Nat) :
    (m.raiseF3 code slot d o).rd b = m.rd b := by
  rcases m.raiseF3_cases code slot d o with hf | hf <;> rw [hf]
  · rfl
  · rw [Mach.accede_rd_other _ h, Mach.raise_rd]

/-! ### What comes before a channel's set is taken -/

theorem Mach.onChan_onChan (x : Nat) (f g : PosChannel → PosChannel) : (m.onChan x f).onChan x g = m.onChan x (g ∘ f) := by
  simp only [Mach.onChan, Mach.onPos, upd_upd]

theorem Mach.chan_onChan_self {x : Nat} (h : x < m.pos.chans.length) (f : PosChannel → PosChannel) :
    (m.onChan x f).chan x = f (m.chan x) := by
  change nth (upd m.pos.chans x f) x = f (nth m.pos.chans x)
  rw [nth_upd, if_pos ⟨rfl, h⟩]

/-- The registers that a channel's latch may change. -/
abbrev latchRegs : List Nat := Reg.POS_IRQ_STAT :: accessionRegs

/-- What comes before the set of channel `x` is taken changes neither its C nor the instant of its latch, and no triplet. -/
structure Mach.LatchKept (x : Nat) (m' : Mach) : Prop where
  halls : m'.pos.halls = m.pos.halls
  length : m'.pos.chans.length = m.pos.chans.length
  count : (m'.chan x).c = (m.chan x).c
  stamp : (m'.chan x).latchAt = (m.chan x).latchAt
  rd : ∀ b, b ∉ latchRegs → m'.rd b = m.rd b

section
variable {m} {x : Nat}

theorem Mach.LatchKept.refl : m.LatchKept x m := ⟨rfl, rfl, rfl, rfl, fun _ _ => rfl⟩

variable {m₁ : Mach} (h : m.LatchKept x m₁)
include h

theorem Mach.LatchKept.of_pos {m' : Mach} (hpos : m'.pos = m₁.pos) (hrd : ∀ b, b ∉ latchRegs → m'.rd b = m₁.rd b) :
    m.LatchKept x m' := by
  have hchan : m'.chan x = m₁.chan x := by rw [Mach.chan, hpos, Mach.chan]
  exact ⟨by rw [hpos, h.halls], by rw [hpos, h.length], by rw [hchan, h.count], by rw [hchan, h.stamp],
    fun b hb => (hrd b hb).trans (h.rd b hb)⟩

theorem Mach.LatchKept.onChan {f : PosChannel → PosChannel} (hf : ∀ c, (f c).c = c.c ∧ (f c).latchAt = c.latchAt) :
    m.LatchKept x (m₁.onChan x f) := by
  have hchan : (m₁.onChan x f).chan x = f (m₁.chan x) ∨ (m₁.onChan x f).chan x = m₁.chan x := by
    change nth (upd m₁.pos.chans x f) x = _ ∨ nth (upd m₁.pos.chans x f) x = _
    rw [nth_upd]
    exact (em _).imp (fun hx => if_pos hx) fun hx => if_neg hx
  obtain ⟨hc, hat⟩ := hf (m₁.chan x)
  refine ⟨h.halls, (List.length_modify ..).trans h.length, ?_, ?_, h.rd⟩
  · rcases hchan with hx | hx <;> rw [hx]
    exacts [hc.trans h.count, h.count]
  · rcases hchan with hx | hx <;> rw [hx]
    exacts [hat.trans h.stamp, h.stamp]

/-- A status bit of the position block set. -/
theorem Mach.LatchKept.irq (k : Nat) : m.LatchKept x (m₁.orr Reg.POS_IRQ_STAT k) :=
  h.of_pos rfl fun b hb => by rw [Mach.rd_orr, if_neg fun hirq => hb (List.mem_cons.2 (.inl hirq))]
end

theorem Mach.latchKept_zCompare (x : Nat) : m.LatchKept x (m.zCompare x) := by
  have hdue : m.LatchKept x (m.onChan x fun c => { c with zDue := none }) := .onChan .refl fun _ => ⟨rfl, rfl⟩
  unfold Mach.zCompare
  dsimp only
  split
  · exact hdue.onChan fun _ => ⟨rfl, rfl⟩
  · exact iteInduction (fun _ => hdue.onChan fun _ => ⟨rfl, rfl⟩) fun _ => hdue

theorem Mach.channelSpeed_spends (x t : Nat) : ∃ n, (m.channelSpeed x t).2 = m.spend n := by
  unfold Mach.channelSpeed
  dsimp only
  split
  · exact ⟨0, rfl⟩
  · split
    · exact m.quotPu_spends _ _
    · exact ⟨0, rfl⟩
    · exact m.quotPu_spends _ _
    · exact ⟨0, rfl⟩
  · split
    · exact m.quotPu_spends _ _
    · exact m.quotPu_spends _ _

theorem Mach.chanReading_spends (x t : Nat) (cyc : Int) : ∃ n, (m.chanReading x t cyc).2 = m.spend n := m.channelSpeed_spends x t

/-! ### What a channel's latch takes -/

/-- The channel after its latch, over the machine that has told of its health. -/
theorem Mach.latchEval_eq (x t : Nat) (cyc : Int) :
    ∃ (m' : Mach) (g : PosChannel → PosChannel), m.latchEval x t cyc = m'.onChan x g ∧ m.LatchKept x m' ∧
      ∀ c, (g c).latchDone = true ∧ (g c).flags = 0 ∧ (g c).latchAt = c.latchAt ∧
        (m'.chanType x = 2 → (g c).latched.cnt = c.c) := by
  unfold Mach.latchEval
  extract_lets compared r read theta ang c sp still atRest spd flt clean healthy lost told hold word
  have hcompared : m.LatchKept x compared := iteInduction (fun _ => m.latchKept_zCompare x) fun _ => .refl
  have hread : m.LatchKept x read := by
    obtain ⟨n, hn⟩ := compared.chanReading_spends x t cyc
    rw [show read = compared.spend n from hn]
    exact hcompared.of_pos rfl fun _ _ => rfl
  have htold : m.LatchKept x told := by
    have hf3 : m.LatchKept x (read.raiseF3 0x0C01 (read.slotOfChan x) (leBytes 2 flt)) :=
      hread.of_pos (Mach.raiseF3_pos ..) fun b hb => Mach.raiseF3_rd_other _ (fun h => hb (List.mem_cons_of_mem _ h)) ..
    have hf1 : m.LatchKept x (read.raise 0x0C01 1 0xFF (leBytes 2 flt)) := hread.of_pos rfl fun _ _ => rfl
    have hback : m.LatchKept x (read.raise 0x0C02 0) := hread.of_pos rfl fun _ _ => rfl
    exact iteInduction (fun _ => (iteInduction (fun _ => hf3) fun _ => hf1).irq 4) fun _ =>
      iteInduction (fun _ => hback) fun _ => hread
  refine ⟨told, _, rfl, htold, fun c => ⟨rfl, rfl, rfl, fun htype => ?_⟩⟩
  exact if_pos htype

/-- The instant of a channel's latch noted. -/
abbrev Mach.latchStamped (x : Nat) : Mach := m.onChan x fun c => { c with latchAt := m.now }

theorem Mach.latchChan_begins {m : Mach} {x : Nat} (hmode : m.mode ≠ .sleep)
    (hcyc : m.time.cyc = m.fld (Reg.POS_CH_CFG x) 15 0) (hoff : m.chanType x ≠ 0) :
    m.latchChan x =
      (let stamped := m.latchStamped x
       if m.chanType x = 4 then stamped.onChan x fun c => { c with reading := true } else stamped.latchEval x m.now m.time.cyc) := by
  rw [Mach.latchChan, if_neg (by simp [hmode, hcyc, hoff])]
  rfl

theorem latchRegs_not_mem_chCfg (k : Fin 8) : Reg.POS_CH_CFG k ∉ latchRegs := by revert k; decide

section
variable {s : State} {k : Fin 8} {cyc : Nat} (hk : k.val < 2) (hmode : s.m.mode ≠ .sleep)
  (hcyc : (s.at cyc).time.cyc = s.m.fld (Reg.POS_CH_CFG k) 15 0)
include hk hmode hcyc

theorem exec_positionLatch_ssi (htype : s.m.chanType k = 4) :
    ∃ t, exec (.positionLatch cyc k) s = .next t ∧ Quiet s t [] ∧
      t.m.pos = { s.m.pos with chans := upd s.m.pos.chans k fun c => { c with latchAt := (s.at cyc).now, reading := true } } := by
  have hoff : s.m.chanType k ≠ 0 := by omega
  have hf : (s.at cyc).positionLatch k = ((s.at cyc).latchStamped k).onChan k fun c => { c with reading := true } := by
    rw [Mach.positionLatch_channel _ hk, Mach.latchChan_begins (m := s.at cyc) hmode hcyc hoff]
    exact if_pos htype
  obtain ⟨t, ht, hpos, hquiet⟩ := run_pos (s := s) (cyc := cyc) (f := Mach.positionLatch k) (regs := [])
    (fun b _ => by rw [hf]; rfl) (by rw [hf]; rfl) (by rw [hf, Mach.onChan_onChan])
  exact ⟨t, ht, hquiet, hpos⟩

theorem exec_positionLatch_channel (hoff : s.m.chanType k ≠ 0) (hssi : s.m.chanType k ≠ 4) (hlen : k.val < s.m.pos.chans.length) :
    ∃ t, exec (.positionLatch cyc k) s = .next t ∧ (t.m.chan k).latchDone = true ∧ (t.m.chan k).latchAt = (s.at cyc).now ∧
      (t.m.chan k).flags = 0 ∧ t.m.pos.halls = s.m.pos.halls ∧
      (s.m.chanType k = 2 → (t.m.chan k).latched.cnt = (s.m.chan k).c) ∧ SameRegsBut s t latchRegs ∧ SameMemory s t := by
  have hstamped := (s.at cyc).chan_onChan_self (x := k) hlen fun c => { c with latchAt := (s.at cyc).now }
  obtain ⟨m', g, heval, hkept, hg⟩ :=
    ((s.at cyc).latchStamped k).latchEval_eq k (s.at cyc).now (s.at cyc).time.cyc
  have hf : (s.at cyc).positionLatch k = m'.onChan k g := by
    rw [Mach.positionLatch_channel _ hk, Mach.latchChan_begins (m := s.at cyc) hmode hcyc hoff, ← heval]
    exact if_neg hssi
  obtain ⟨t, ht, hm, hregs, hmem⟩ := run_keeps (s := s) (cyc := cyc) (f := Mach.positionLatch k) (regs := latchRegs)
    (fun b hb => by rw [hf]; exact hkept.rd b hb)
  rw [hf] at hm
  have hlen' : k.val < m'.pos.chans.length := by
    rw [hkept.length]
    exact hlen.trans_eq (List.length_modify ..).symm
  have hchan : t.m.chan k = g (m'.chan k) := by
    rw [hm]
    exact m'.chan_onChan_self hlen' g
  obtain ⟨hdone, hflags, hat, hcnt⟩ := hg (m'.chan k)
  rw [← hchan] at hdone hflags hat hcnt
  refine ⟨t, ht, hdone, ?_, hflags, ?_, fun htype => ?_, hregs, hmem⟩
  · rw [hat, hkept.stamp, hstamped]
  · rw [hm]
    exact hkept.halls
  · have htype' : m'.chanType k = 2 := by
      rw [Mach.chanType, Mach.fld, hkept.rd _ (latchRegs_not_mem_chCfg k)]
      exact htype
    rw [hcnt htype', hkept.count, hstamped]
    rfl
end

/-- In SLEEP, and where a channel is off or it is not the cycle of its latch, nothing is latched. -/
theorem Mach.positionLatch_nothing {k : Nat}
    (h : m.mode = .sleep ∨ (k < 2 ∧ (m.chanType k = 0 ∨ m.time.cyc ≠ m.fld (Reg.POS_CH_CFG k) 15 0))) :
    m.positionLatch k = m := by
  rcases Nat.lt_or_ge k 2 with hk | hk
  · rw [m.positionLatch_channel hk]
    exact if_pos (h.imp_right And.right)
  · rw [m.positionLatch_hall hk]
    exact if_pos (h.resolve_right fun hc => (Nat.not_lt.2 hk) hc.1)

end Sys2Proof.Machine
end

section
/-! Probes (R106 to R108): an edge that is lost, one that goes into accession, and one of a probe that is not armed. -/

namespace Sys2Proof.Machine

variable {m : Mach} {p : Nat}

theorem length_leBytes (n v : Nat) : (leBytes n v).length = n := by
  induction n generalizing v with
  | zero => rfl
  | succ n ih => exact congrArg Nat.succ (ih _)

/-- While nothing waits, an input that names its accession tick is accessioned as any other. -/
theorem Mach.accedeAt_roomy {i : Nat → AsyncIn} (h : m.lane.waiting = []) (hp : entryBytes (i m.accTickNow).payload ≤ 1024) :
    m.accedeAt i = m.wait (m.entryOf m.accTickNow (i m.accTickNow)) := by
  unfold Mach.accedeAt
  exact m.place_roomy (entry := fun t => m.entryOf t (i t)) h hp

/-- While nothing waits, a probe's edge waits with the record of its stamp. -/
theorem Mach.accedeAt_probe (h : m.lane.waiting = []) (v t ang : Nat) (ok rise : Bool) (sector : Nat) :
    ∃ e, (m.accedeAt fun a => ⟨3, p, 0, 0, v, probeRecord t ang ok rise sector a⟩) = m.wait e ∧ e.kind = 3 ∧ e.src = p ∧
      e.payload.take 8 = leBytes 8 t ∧ e.accTick = m.accTickNow := by
  refine ⟨_, Mach.accedeAt_roomy h (by simp [entryBytes, probeRecord, length_leBytes]), rfl, rfl, ?_, rfl⟩
  rw [Mach.entryOf, probeRecord, List.append_assoc, List.take_left' (length_leBytes ..)]

/-! ### What an edge does, by the state of its probe -/

theorem Mach.probeEdge_of_unarmed (harm : m.bit (Reg.POS_PRB_CFG p) 31 = false) (rise : Bool) : m.probeEdge p rise = m := by
  rw [Mach.bit] at harm
  exact if_pos (by simp [harm])

/-- A lost edge counted and told. -/
def Mach.probeLost (m : Mach) (p : Nat) : Mach :=
  ((m.incSat (Reg.POS_PRB_NUM p) 31 16).raise 0x0C04 0).orr Reg.POS_IRQ_STAT 16

theorem Mach.probeLost_rd_other {b : Nat} (hnum : b ≠ Reg.POS_PRB_NUM p) (hirq : b ≠ Reg.POS_IRQ_STAT) :
    (m.probeLost p).rd b = m.rd b := by
  rw [Mach.probeLost, Mach.rd_orr, if_neg hirq, Mach.raise_rd, Mach.incSat, Mach.rd_setFld, if_neg hnum]

theorem Mach.probeLost_count :
    (m.probeLost p).fld (Reg.POS_PRB_NUM p) 31 16 = min (m.fld (Reg.POS_PRB_NUM p) 31 16 + 1) 0xFFFF := by
  have hne : Reg.POS_PRB_NUM p ≠ Reg.POS_IRQ_STAT := by
    simp only [Reg.POS_PRB_NUM, Reg.POS_IRQ_STAT]
    omega
  rw [Mach.fld, Mach.probeLost, Mach.rd_orr, if_neg hne, Mach.raise_rd, ← Mach.fld, Mach.incSat,
    Mach.fld_setFld _ _ (by decide) (by decide)]
  exact Nat.mod_eq_of_lt ((Nat.min_le_right ..).trans_lt (by decide))

theorem Mach.probeLost_raised (p : Fin 2) :
    (m.probeLost p).time.raised = m.time.raised ++ [eventAt m 0x0C04 0 0xFF [] 0] := by
  have hrd : ∀ b ∈ [Reg.TICK_SEQ_LO, Reg.TICK_SEQ_HI, Reg.TICK_PERIOD, Reg.LANE_STATUS],
      (m.incSat (Reg.POS_PRB_NUM p) 31 16).rd b = m.rd b := by
    intro b hb
    have hne : b ≠ Reg.POS_PRB_NUM p := by revert b; revert p; decide
    rw [Mach.incSat, Mach.rd_setFld, if_neg hne]
  exact congrArg (m.time.raised ++ [·]) (eventAt_congr (m := m) (m' := m.incSat (Reg.POS_PRB_NUM p) 31 16) rfl rfl hrd ..)

/-- An edge that waits as entry `e` is counted with those of its probe, and a probe set to ONCE is no longer armed. -/
def Mach.probeQueued (m : Mach) (p : Nat) (e : JEntry) : Mach :=
  let waits := (m.wait e).onPos fun s => { s with prbWaiting := upd s.prbWaiting p (· + 1) }
  if m.bit (Reg.POS_PRB_CFG p) 0 then waits.setBit (Reg.POS_PRB_CFG p) 31 false else waits

theorem Mach.probeQueued_rd_other {b : Nat} (h : b ≠ Reg.POS_PRB_CFG p) (e : JEntry) : (m.probeQueued p e).rd b = m.rd b :=
  iteInduction (motive := fun x : Mach => x.rd b = m.rd b) (fun _ => by rw [Mach.rd_setBit, if_neg h]; rfl) fun _ => rfl

/-- ARM stays where ONCE is not set. -/
theorem Mach.probeQueued_armed (harm : m.bit (Reg.POS_PRB_CFG p) 31 = true) (e : JEntry) :
    (m.probeQueued p e).bit (Reg.POS_PRB_CFG p) 31 = !m.bit (Reg.POS_PRB_CFG p) 0 := by
  unfold Mach.probeQueued
  dsimp only
  split
  next honce => rw [honce, Mach.bit, Mach.rd_setBit, if_pos rfl, Word.bit_withBit _ _ (by decide), Bool.not_true]
  next honce => rw [Bool.eq_false_of_not_eq_true honce]; exact harm

theorem Mach.probeQueued_pos (e : JEntry) :
    (m.probeQueued p e).pos = { m.pos with prbWaiting := upd m.pos.prbWaiting p (· + 1) } :=
  iteInduction (motive := fun x : Mach => x.pos = { m.pos with prbWaiting := upd m.pos.prbWaiting p (· + 1) }) (fun _ => rfl)
    fun _ => rfl

theorem Mach.probeQueued_lane (e : JEntry) :
    (m.probeQueued p e).lane = { m.lane with waiting := insertEntry e m.lane.waiting } :=
  iteInduction (motive := fun x : Mach => x.lane = { m.lane with waiting := insertEntry e m.lane.waiting }) (fun _ => rfl)
    fun _ => rfl

theorem Mach.probeQueued_time (e : JEntry) : (m.probeQueued p e).time = m.time :=
  iteInduction (motive := fun x : Mach => x.time = m.time) (fun _ => rfl) fun _ => rfl

theorem prbUrg_ne_prbCfg : Reg.POS_PRB_URG p ≠ Reg.POS_PRB_CFG p := by
  simp only [Reg.POS_PRB_URG, Reg.POS_PRB_CFG]
  omega

theorem Mach.probeUrgent_of_none {i : Nat} (h : m.bit (Reg.POS_PRB_URG p) (16 * i + 15) = false) : m.probeUrgent p i = m :=
  if_neg (by rw [show (m.rd (Reg.POS_PRB_URG p)).bit (16 * i + 15) = false from h]; exact Bool.false_ne_true)

section
variable (hmode : m.mode ≠ .sleep) (harm : m.bit (Reg.POS_PRB_CFG p) 31 = true) (hedge : m.fld (Reg.POS_PRB_CFG p) 30 29 = 1)
include hmode harm hedge

theorem Mach.probeEdge_of_full (hfull : 4 ≤ nth m.pos.prbWaiting p) : m.probeEdge p true = m.probeLost p := by
  rw [Mach.bit] at harm
  rw [Mach.fld] at hedge
  unfold Mach.probeEdge
  extract_lets cfg wanted
  rw [if_neg (by simp [wanted, cfg, harm, hedge, hmode]), if_pos hfull]
  rfl

theorem Mach.probeEdge_of_room (hroom : nth m.pos.prbWaiting p < 4) (hwait : m.lane.waiting = [])
    (hurg₀ : m.bit (Reg.POS_PRB_URG p) 15 = false) (hurg₁ : m.bit (Reg.POS_PRB_URG p) 31 = false) :
    ∃ n e, m.probeEdge p true = (m.spend n).probeQueued p e ∧ e.kind = 3 ∧ e.src = p ∧ e.payload.take 8 = leBytes 8 m.now ∧
      e.accTick = m.accTickNow := by
  rw [Mach.bit] at harm
  rw [Mach.fld] at hedge
  unfold Mach.probeEdge
  extract_lets cfg wanted ch r read ang hall sector n held stamp ok acceded counted disarmed
  rw [if_neg (by simp [wanted, cfg, harm, hedge, hmode]), if_neg (Nat.not_le.2 hroom)]
  obtain ⟨spent, hspent⟩ := m.chanReading_spends ch m.now m.time.cyc
  have hread : read = m.spend spent := hspent
  have hwait' : read.lane.waiting = [] := by rw [hread]; exact hwait
  obtain ⟨e, hacceded, hkind, hsrc, hpayload, htick⟩ :
      ∃ e, acceded = read.wait e ∧ e.kind = 3 ∧ e.src = p ∧ e.payload.take 8 = leBytes 8 stamp ∧
        e.accTick = read.accTickNow :=
    Mach.accedeAt_probe hwait' ..
  have hcounted : counted = (read.wait e).onPos fun s => { s with prbWaiting := upd s.prbWaiting p (· + 1) } := by
    simp only [counted, held, hacceded]
    exact if_pos (by simp [hwait'])
  have hdisarmed : disarmed = read.probeQueued p e := by
    simp only [disarmed, hcounted, Mach.probeQueued, hread]
    rfl
  have hurg (i : Nat) : disarmed.bit (Reg.POS_PRB_URG p) i = m.bit (Reg.POS_PRB_URG p) i := by
    rw [hdisarmed, Mach.bit, Mach.probeQueued_rd_other prbUrg_ne_prbCfg, hread]
    rfl
  refine ⟨spent, e, ?_, hkind, hsrc, ?_, ?_⟩
  · rw [Mach.probeUrgent_of_none (i := 0) ((hurg 15).trans hurg₀), Mach.probeUrgent_of_none (i := 1) ((hurg 31).trans hurg₁),
      hdisarmed, hread]
  · rw [hpayload, show stamp = read.now from rfl, hread]
    rfl
  · rw [htick, hread]
    rfl
end

/-! ### What PROBE_EDGE leaves -/

section
variable {s : State} {p : Fin 2} (hmode : s.m.mode ≠ .sleep) (harm : s.m.bit (Reg.POS_PRB_CFG p) 31 = true)
  (hedge : s.m.fld (Reg.POS_PRB_CFG p) 30 29 = 1)
include hmode harm hedge

theorem exec_probeEdge_lost (hfull : 4 ≤ nth s.m.pos.prbWaiting p) (cyc : Nat) :
    ∃ t, exec (.probeEdge cyc p true) s = .next t ∧ t.m.lane = s.m.lane ∧
      t.m.fld (Reg.POS_PRB_NUM p) 31 16 = min (s.m.fld (Reg.POS_PRB_NUM p) 31 16 + 1) 0xFFFF ∧
      Raises s t [eventAt (s.at cyc) 0x0C04 0 0xFF [] 0] ∧ SameRegsBut s t [Reg.POS_PRB_NUM p, Reg.POS_IRQ_STAT] ∧
      SameMemory s t := by
  have hf := Mach.probeEdge_of_full (m := s.at cyc) hmode harm hedge hfull
  obtain ⟨t, ht, hm, hregs, hmem, hev⟩ := run_leaves (s := s) (cyc := cyc) (f := fun m => m.probeEdge p true)
    (regs := [Reg.POS_PRB_NUM p, Reg.POS_IRQ_STAT]) (es := [eventAt (s.at cyc) 0x0C04 0 0xFF [] 0])
    (fun b hb => by
      simp only [List.mem_cons, List.not_mem_nil, or_false, not_or] at hb
      rw [hf, Mach.probeLost_rd_other hb.1 hb.2]
      rfl)
    (by rw [hf]; exact Mach.probeLost_raised p)
  rw [hf] at hm
  refine ⟨t, ht, by rw [hm]; rfl, ?_, hev, hregs, hmem⟩
  rw [hm, Mach.settle_fld, Mach.probeLost_count]
  rfl

theorem exec_probeEdge_queued (hroom : nth s.m.pos.prbWaiting p < 4) (hwait : s.roomy)
    (hurg₀ : s.m.bit (Reg.POS_PRB_URG p) 15 = false) (hurg₁ : s.m.bit (Reg.POS_PRB_URG p) 31 = false) (cyc : Nat) :
    ∃ t e, exec (.probeEdge cyc p true) s = .next t ∧ t.m.lane.waiting = [e] ∧ e.kind = 3 ∧ e.src = p.val ∧
      e.payload.take 8 = leBytes 8 (s.at cyc).now ∧ e.accTick = (s.at cyc).accTickNow ∧
      t.m.pos = { s.m.pos with prbWaiting := upd s.m.pos.prbWaiting p (· + 1) } ∧
      t.m.bit (Reg.POS_PRB_CFG p) 31 = !s.m.bit (Reg.POS_PRB_CFG p) 0 ∧ Quiet s t [Reg.POS_PRB_CFG p] := by
  obtain ⟨n, e, hf, hkind, hsrc, hpayload, htick⟩ :=
    Mach.probeEdge_of_room (m := s.at cyc) hmode harm hedge hroom hwait hurg₀ hurg₁
  obtain ⟨t, ht, hm, hquiet⟩ := run_leaves (s := s) (cyc := cyc) (f := fun m => m.probeEdge p true)
    (regs := [Reg.POS_PRB_CFG p]) (es := [])
    (fun b hb => by rw [hf, Mach.probeQueued_rd_other (List.mem_singleton.not.1 hb)]; rfl)
    (by rw [hf, Mach.probeQueued_time, List.append_nil]; rfl)
  rw [hf] at hm
  have hwait' : ((s.at cyc).spend n).lane.waiting = [] := hwait
  refine ⟨t, e, ht, ?_, hkind, hsrc, hpayload, htick, ?_, ?_, hquiet⟩ <;> rw [hm]
  · rw [Mach.settle_lane, Mach.probeQueued_lane, hwait', insertEntry_nil]
  · rw [Mach.settle_pos, Mach.probeQueued_pos]
    rfl
  · rw [Mach.settle_bit]
    exact Mach.probeQueued_armed (m := (s.at cyc).spend n) harm e
end

theorem exec_probeEdge_unarmed {s : State} {p : Fin 2} (harm : s.m.bit (Reg.POS_PRB_CFG p) 31 = false) (cyc : Nat) (rise : Bool) :
    ∃ t, exec (.probeEdge cyc p rise) s = .next t ∧ t.m.lane = s.m.lane ∧ t.m.pos = s.m.pos ∧ Quiet s t [] := by
  have hf := Mach.probeEdge_of_unarmed (m := s.at cyc) harm rise
  obtain ⟨t, ht, hm, hquiet⟩ := run_leaves (s := s) (cyc := cyc) (f := fun m => m.probeEdge p rise) (regs := []) (es := [])
    (fun b _ => by rw [hf]; rfl) (by rw [hf, List.append_nil]; rfl)
  rw [hf] at hm
  exact ⟨t, ht, by rw [hm]; rfl, by rw [hm]; rfl, hquiet⟩

/-- Settles O17: an edge of a triplet by the sectors that it steps, a latch by what latches, and a probe's edge by the room that it
finds. -/
theorem hallTripletsAndProbes : Obligations.HallTripletsAndProbes := by
  refine ⟨fun cyc k pins s d hmode hsec hadj hstep hlast => exec_hallEdge_adjacent hmode hsec hadj hstep hlast cyc,
    fun cyc k pins s d hmode hsec hlo hhi hstep hlast => ?_, fun cyc k pins s hmode hsec => ?_,
    fun cyc k s hk hmode => exec_positionLatch_hall hk hmode cyc,
    fun cyc k s hk hmode htype hcyc => exec_positionLatch_ssi hk hmode hcyc htype,
    fun cyc k s hk hmode hoff hssi hlen hcyc => exec_positionLatch_channel hk hmode hcyc hoff hssi hlen,
    fun cyc k s h => ?_, fun cyc p s hmode harm hedge hfull => exec_probeEdge_lost hmode harm hedge hfull cyc,
    fun cyc p s hmode harm hedge hroom hwait hurg₀ hurg₁ =>
      exec_probeEdge_queued hmode harm hedge hroom hwait hurg₀ hurg₁ cyc,
    fun cyc p rise s harm => exec_probeEdge_unarmed harm cyc rise⟩
  · obtain ⟨t, ht, hpos, hev, -, hregs, hmem⟩ :=
      exec_hallEdge_told (Mach.hallEdge_skip (m := s.at cyc) hmode hsec (by omega) hstep hlast hlo hhi)
    exact ⟨t, _, ht, hpos, hev, fun h => ⟨rfl, rfl, rfl, rfl⟩, hregs, hmem⟩
  · obtain ⟨t, ht, -, htold⟩ := exec_hallEdge_told (Mach.hallEdge_invalid (m := s.at cyc) hmode hsec)
    exact ⟨t, ht, htold⟩
  · have hf := (s.at cyc).positionLatch_nothing h
    rw [exec_positionLatch]
    exact run_pos (fun b _ => by rw [hf]; rfl) (by rw [hf]; rfl) (by rw [hf]; rfl)

end Sys2Proof.Machine
end

section
/-! Command registers (R55, R56, R121, R123, R124, R126, R133, R177, R183, R188): where a write of one goes by its writer and the
tick, and what a swap request marks and seals. -/

namespace Sys2Proof.Machine

variable (m : Mach) (l : Lane) (a : Nat) (v : Word)

/-! ### Who writes a lane's copy (R60, R133, R188) -/

theorem Mach.ownCopy_own (f : Mach → Mach) : m.ownCopy (.lane l) l a f = f m := if_pos rfl

theorem Mach.ownCopy_other {w : Lane} (h : w ≠ l) (f : Mach → Mach) :
    m.ownCopy (.lane w) l a f = m.foreignCopy (.lane w) a := if_neg h

theorem Mach.ownCopy_safety (f : Mach → Mach) : m.ownCopy .safety l a f = m := rfl

/-- A write to another copy is told, and nothing else happens (R515). -/
theorem Mach.foreignCopy_eq_raise (who : Writer) :
    m.foreignCopy who a = m.raise 0x0001 0 0xFF (accessRecord (physical a) who.requester true .word false 3) := rfl

/-! ### Where a command register's write goes (R55, R56) -/

section
variable {m l} (eff : Mach → Mach)

theorem Mach.shadowWrite_outside (hin : m.inTick l = false) : m.shadowWrite l a v eff = m.raise 0x0405 0 0xFF [] l.origin :=
  if_pos (by rw [hin]; rfl)

theorem Mach.shadowWrite_late (hin : m.inTick l = true) (hov : (m.tl l).taskOverrun = true) : m.shadowWrite l a v eff = m := by
  rw [Mach.shadowWrite, if_neg (by simp [hin]), if_pos hov]

theorem Mach.shadowWrite_taken (hin : m.inTick l = true) (hov : (m.tl l).taskOverrun = false) :
    m.shadowWrite l a v eff = eff (m.onTick l fun t => { t with shadow := t.shadow ++ [(a, v)] }) := by
  rw [Mach.shadowWrite, if_neg (by simp [hin]), if_neg (by simp [hov])]
end

/-! ### What a write that is not taken leaves -/

/-- A command that changes the TIME part alone keeps shadows and slots. -/
theorem shadowKeeps_onTime {s : State} {cyc : Nat} {f : Mach → Mach} {g : TimeState → TimeState} {es : List Event}
    (hf : f (s.at cyc) = (s.at cyc).onTime g) (hg : (g (s.at cyc).time).raised = s.m.time.raised ++ es) :
    ShadowKeeps s es (run s cyc f) := by
  obtain ⟨t, ht, hm, hframe⟩ := run_leaves (s := s) (cyc := cyc) (f := f) (regs := []) (es := es)
    (fun b _ => by rw [hf]; rfl) (by rw [hf]; exact hg)
  rw [hf] at hm
  exact ⟨t, ht, by rw [hm]; rfl, by rw [hm]; rfl, by rw [hm]; rfl, hframe⟩

theorem shadowKeeps_nothing {s : State} {cyc : Nat} {f : Mach → Mach} (hf : f (s.at cyc) = s.at cyc) :
    ShadowKeeps s [] (run s cyc f) := shadowKeeps_onTime (g := id) hf (List.append_nil _).symm

theorem shadowKeeps_raise {s : State} {cyc : Nat} {f : Mach → Mach} {code cls slot : Nat} {d : List Nat} {o : Nat}
    (hf : f (s.at cyc) = (s.at cyc).raise code cls slot d o) :
    ShadowKeeps s [eventAt (s.at cyc) code cls slot d o] (run s cyc f) := shadowKeeps_onTime hf rfl

/-- The other lane's write of a lane's copy. -/
theorem shadowKeeps_ownCopy_other {s : State} {cyc : Nat} {w l : Lane} (h : w ≠ l) (a : Nat) (f : Mach → Mach) :
    ShadowKeeps s [eventAt (s.at cyc) 0x0001 0 0xFF (accessRecord (physical a) (.lane w) true .word false 3) 0]
      (run s cyc fun m => m.ownCopy (.lane w) l a f) :=
  shadowKeeps_raise (f := fun m => m.ownCopy (.lane w) l a f)
    ((Mach.ownCopy_other _ l a h f).trans (Mach.foreignCopy_eq_raise ..))

/-! ### A command register's write as a command -/

/-- The write of `v` to the command register `a` of lane `l`, with `eff` where the shadow takes it: SECTION_PRESET, INJECTOR_START,
INJECTOR_STOP, MOD_START, MOD_STOP and LAW_SWAP_REQUEST are each such a write. -/
def commandWrite (cyc : Nat) (who : Writer) (l : Lane) (a : Nat) (v : Word) (eff : Mach → Mach) (s : State) :
    Host.Outcome State Fault Refusal :=
  run s cyc fun m => m.ownCopy who l a fun m => m.shadowWrite l a v eff

section
variable (eff : Mach → Mach) (cyc : Nat) (s : State)

theorem shadowKeeps_commandWrite_late (hin : s.m.inTick l = true) (hov : (s.m.tl l).taskOverrun = true) :
    ShadowKeeps s [] (commandWrite cyc (.lane l) l a v eff s) :=
  shadowKeeps_nothing (f := fun m => m.ownCopy (.lane l) l a fun m => m.shadowWrite l a v eff)
    ((Mach.ownCopy_own ..).trans (Mach.shadowWrite_late (m := s.at cyc) a v eff hin hov))

theorem shadowKeeps_commandWrite_outside (hin : s.m.inTick l = false) :
    ShadowKeeps s [eventAt (s.at cyc) 0x0405 0 0xFF [] l.origin] (commandWrite cyc (.lane l) l a v eff s) :=
  shadowKeeps_raise (f := fun m => m.ownCopy (.lane l) l a fun m => m.shadowWrite l a v eff)
    ((Mach.ownCopy_own ..).trans (Mach.shadowWrite_outside (m := s.at cyc) a v eff hin))

theorem shadowKeeps_commandWrite_other {w : Lane} (h : w ≠ l) :
    ShadowKeeps s [eventAt (s.at cyc) 0x0001 0 0xFF (accessRecord (physical a) (.lane w) true .word false 3) 0]
      (commandWrite cyc (.lane w) l a v eff s) := shadowKeeps_ownCopy_other h a _

theorem shadowKeeps_commandWrite_safety : ShadowKeeps s [] (commandWrite cyc .safety l a v eff s) :=
  shadowKeeps_nothing (f := fun m => m.ownCopy .safety l a fun m => m.shadowWrite l a v eff) (Mach.ownCopy_safety ..)

/-- The machine once lane `l`'s shadow has taken a write. -/
abbrev Mach.shadowed : Mach := m.onTick l fun t => { t with shadow := t.shadow ++ [(a, v)] }

theorem Mach.shadowed_tl : ((m.shadowed l a v).tl l).shadow = (m.tl l).shadow ++ [(a, v)] := by
  rw [Mach.tl, Mach.onTick_tick, Two.get_set_self]
  rfl

theorem Mach.shadowed_tl_other : (m.shadowed l a v).tl l.other = m.tl l.other := Two.get_set_other _ _ l.other_ne.symm

variable (hin : s.m.inTick l = true) (hov : (s.m.tl l).taskOverrun = false)
include hin hov

/-- What a write that the shadow takes leaves, from what its effect does to the registers. -/
theorem commandWrite_taken {regs : List Nat} (hrd : ∀ b, b ∉ regs → (eff ((s.at cyc).shadowed l a v)).rd b = s.m.rd b)
    (htime : (eff ((s.at cyc).shadowed l a v)).time = (s.at cyc).time) :
    ∃ t, commandWrite cyc (.lane l) l a v eff s = .next t ∧ t.m = (eff ((s.at cyc).shadowed l a v)).settle ∧ Quiet s t regs := by
  have hf : ((s.at cyc).ownCopy (.lane l) l a fun m => m.shadowWrite l a v eff) = eff ((s.at cyc).shadowed l a v) :=
    (Mach.ownCopy_own ..).trans (Mach.shadowWrite_taken (m := s.at cyc) a v eff hin hov)
  rw [← hf] at hrd htime ⊢
  exact run_leaves hrd (by rw [htime, List.append_nil]; rfl)

/-- A write that the shadow takes with no effect beside it. -/
theorem shadowTakes_commandWrite : ShadowTakes s l a v (commandWrite cyc (.lane l) l a v (fun m => m) s) := by
  obtain ⟨t, ht, hm, hquiet⟩ := commandWrite_taken l a v (fun m => m) cyc s hin hov (regs := []) (fun _ _ => rfl) rfl
  have htl (x : Lane) : t.m.tl x = ((s.at cyc).shadowed l a v).tl x := by rw [hm]; rfl
  refine ⟨t, ht, ?_, ?_, by rw [hm]; rfl, by rw [hm]; rfl, hquiet⟩ <;> rw [htl]
  · exact (s.at cyc).shadowed_tl l a v
  · exact (s.at cyc).shadowed_tl_other l a v
end

/-! ### What a swap request marks and seals (R123, R124) -/

/-- A loop in which each turn rewrites a register of its own, for as long as `P` holds: each of them is rewritten once, and the others
stay. -/
theorem forL_rewrites {P : Mach → Prop} {reg : Nat → Nat} {w : Nat → Word → Word} {f : Nat → Mach → Mach}
    (hreg : ∀ i j, reg i = reg j → i = j) (hP : ∀ k m, P m → P (f k m))
    (hf : ∀ k m, P m → ∀ b, (f k m).rd b = if b = reg k then w k (m.rd (reg k)) else m.rd b) {ks : List Nat} (hks : ks.Nodup)
    {m : Mach} (hm : P m) :
    (∀ k, (forL ks f m).rd (reg k) = if k ∈ ks then w k (m.rd (reg k)) else m.rd (reg k)) ∧
      ∀ b, b ∉ ks.map reg → (forL ks f m).rd b = m.rd b := by
  induction ks generalizing m with
  | nil => exact ⟨fun _ => rfl, fun _ _ => rfl⟩
  | cons x t ih =>
    obtain ⟨hx, ht⟩ := List.nodup_cons.1 hks
    obtain ⟨hin, hout⟩ := ih ht (hP x m hm)
    refine ⟨fun k => ?_, fun b hb => ?_⟩
    · refine (hin k).trans ?_
      by_cases hk : k = x
      · subst hk
        simp [hx, hf k m hm]
      · have hne : reg k ≠ reg x := fun h => hk (hreg k x h)
        simp [hk, hne, hf x m hm]
    · simp only [List.map_cons, List.mem_cons, not_or] at hb
      exact (hout b hb.2).trans ((hf x m hm b).trans (if_neg hb.1))

theorem lawSlotStat_injective (i j : Nat) (h : Reg.LAW_SLOT_STAT l.ix i = Reg.LAW_SLOT_STAT l.ix j) : i = j := by
  simp only [Reg.LAW_SLOT_STAT] at h
  omega

/-- A slot's swap waits in the shadow, or no longer; its register is marked where a swap of either kind waits. -/
def Mach.markSwap (k : Nat) (on : Bool) : Mach :=
  (m.onLawSlot l k fun s => { s with fwSwap := on }).setBit (Reg.LAW_SLOT_STAT l.ix k) 28 (on || (m.lawSlot l k).detSwap)

theorem Mach.markSwap_detSwap (k : Nat) (on : Bool) (j : Nat) :
    ((m.markSwap l k on).lawSlot l j).detSwap = (m.lawSlot l j).detSwap := by
  rw [Mach.lawSlot, Mach.markSwap, Mach.setBit, Mach.wr_law, Mach.onLawSlot, Mach.onLaw_law, Two.get_set_self, nth_upd]
  split
  next h => rw [h.1]; rfl
  next => rfl

/-- A slot's banks are sealed from the request on. -/
def Mach.sealSwap (k : Nat) : Mach :=
  (m.setBit (Reg.LAW_SLOT_STAT l.ix k) 29 true).onLawSlot l k fun s => { s with asked := true, sealLeft := 2 }

theorem Mach.requestSwap_eq (mask : Nat) :
    m.requestSwap l mask =
      forL ((List.range 16).filter mask.testBit) (fun k m => m.sealSwap l k)
        (forL (List.range 16) (fun k m => m.markSwap l k (mask.testBit k)) m) := rfl

/-- What a swap request makes of the slots' registers: a mark where a swap waits, and a seal on each named slot. -/
theorem Mach.requestSwap_rd (mask : Nat) :
    (∀ k < 16, (m.requestSwap l mask).rd (Reg.LAW_SLOT_STAT l.ix k) =
      (let marked := (m.rd (Reg.LAW_SLOT_STAT l.ix k)).withBit 28 (mask.testBit k || (m.lawSlot l k).detSwap)
       if mask.testBit k then marked.withBit 29 true else marked)) ∧
    ∀ b, b ∉ (List.range 16).map (Reg.LAW_SLOT_STAT l.ix) → (m.requestSwap l mask).rd b = m.rd b := by
  obtain ⟨hmark, hmarkOther⟩ := forL_rewrites (P := fun m' => ∀ k, (m'.lawSlot l k).detSwap = (m.lawSlot l k).detSwap)
    (reg := Reg.LAW_SLOT_STAT l.ix) (w := fun k x => x.withBit 28 (mask.testBit k || (m.lawSlot l k).detSwap))
    (f := fun k m => m.markSwap l k (mask.testBit k)) (lawSlotStat_injective l)
    (fun k m' h j => (m'.markSwap_detSwap l k _ j).trans (h j))
    (fun k m' h b => by rw [Mach.markSwap, Mach.rd_setBit, h k]; rfl) List.nodup_range (m := m) fun _ => rfl
  obtain ⟨hseal, hsealOther⟩ := forL_rewrites (P := fun _ => True) (reg := Reg.LAW_SLOT_STAT l.ix)
    (w := fun _ x => x.withBit 29 true) (f := fun k m => m.sealSwap l k) (lawSlotStat_injective l) (fun _ _ _ => trivial)
    (fun k m' _ b => m'.rd_setBit (Reg.LAW_SLOT_STAT l.ix k) b 29 true) (List.nodup_range.filter mask.testBit)
    (m := forL (List.range 16) (fun k m => m.markSwap l k (mask.testBit k)) m) trivial
  rw [Mach.requestSwap_eq]
  refine ⟨fun k hk => ?_, fun b hb => (hsealOther b fun h => hb ?_).trans (hmarkOther b hb)⟩
  · refine (hseal k).trans ?_
    rw [hmark k, if_pos (List.mem_range.2 hk)]
    simp only [List.mem_filter, List.mem_range, hk, true_and]
  · exact List.map_subset _ (List.filter_subset_self ..) h

theorem Mach.requestSwap_tick (mask : Nat) : (m.requestSwap l mask).tick = m.tick :=
  (forL_keeps Mach.tick (f := fun k m => m.sealSwap l k) (fun _ _ => rfl) ..).trans
    (forL_keeps Mach.tick (f := fun k m => m.markSwap l k (mask.testBit k)) (fun _ _ => rfl) ..)

theorem Mach.requestSwap_time (mask : Nat) : (m.requestSwap l mask).time = m.time :=
  (forL_keeps Mach.time (f := fun k m => m.sealSwap l k) (fun _ _ => rfl) ..).trans
    (forL_keeps Mach.time (f := fun k m => m.markSwap l k (mask.testBit k)) (fun _ _ => rfl) ..)

theorem exec_lawSwapRequest_taken {s : State} (hin : s.m.inTick l = true) (hov : (s.m.tl l).taskOverrun = false) (cyc : Nat) :
    ∃ t, exec (.lawSwapRequest cyc (.lane l) l v) s = .next t ∧
      (t.m.tl l).shadow = (s.m.tl l).shadow ++ [(Reg.LAW_SWAP l.ix, v &&& 0xFFFF#32)] ∧
      (∀ k : Fin 16, v.bit k = true →
        t.m.bit (Reg.LAW_SLOT_STAT l.ix k) 28 = true ∧ t.m.bit (Reg.LAW_SLOT_STAT l.ix k) 29 = true) ∧
      (∀ k : Fin 16, v.bit k = false → t.m.rd (Reg.LAW_SLOT_STAT l.ix k) =
        (s.m.rd (Reg.LAW_SLOT_STAT l.ix k)).withBit 28 (s.m.lawSlot l k).detSwap) ∧
      Quiet s t ((List.range 16).map (Reg.LAW_SLOT_STAT l.ix)) := by
  obtain ⟨hslots, hother⟩ := ((s.at cyc).shadowed l (Reg.LAW_SWAP l.ix) (v &&& 0xFFFF#32)).requestSwap_rd l (v.bits 15 0)
  obtain ⟨t, ht, hm, hquiet⟩ := commandWrite_taken l (Reg.LAW_SWAP l.ix) (v &&& 0xFFFF#32)
    (fun m => m.requestSwap l (v.bits 15 0)) cyc s hin hov hother (Mach.requestSwap_time ..)
  have hnamed (k : Fin 16) : (v.bits 15 0).testBit k = v.bit k := by
    rw [Word.testBit_bits, Nat.zero_add, decide_eq_true k.isLt, Bool.true_and]
  have hrd (k : Fin 16) : t.m.rd (Reg.LAW_SLOT_STAT l.ix k) =
      (let marked := (s.m.rd (Reg.LAW_SLOT_STAT l.ix k)).withBit 28 (v.bit k || (s.m.lawSlot l k).detSwap)
       if v.bit k then marked.withBit 29 true else marked) := by
    rw [hm, Mach.settle_rd, hslots k k.isLt, hnamed k]
    rfl
  refine ⟨t, ht, ?_, fun k hk => ?_, fun k hk => ?_, hquiet⟩
  · rw [hm, Mach.tl, Mach.settle_tick, Mach.requestSwap_tick]
    exact (s.at cyc).shadowed_tl l _ _
  · simp [Mach.bit, hrd, hk, Word.bit_withBit_other]
  · simp [hrd, hk]

/-- Settles O18: a command register's write by its writer and by the tick, and a swap request by the loops over the slots. -/
theorem commandRegistersAndSwapRequests : Obligations.CommandRegistersAndSwapRequests := by
  refine ⟨fun cyc l k v s hin hov => ?_, fun cyc l k v s hin hov => ?_, fun cyc l k v s hin => ?_, fun cyc w l k v s hne => ?_,
    fun cyc l k v s => ?_⟩
  · have htakes (a : Nat) (w : Word) := shadowTakes_commandWrite l a w cyc s hin hov
    exact ⟨htakes _ _, htakes _ _, htakes _ _, htakes _ _, htakes _ _, exec_lawSwapRequest_taken l v hin hov cyc⟩
  · have hlate (a : Nat) (w : Word) (eff : Mach → Mach) := shadowKeeps_commandWrite_late l a w eff cyc s hin hov
    exact ⟨hlate _ _ _, hlate _ _ _, hlate _ _ _, hlate _ _ _, hlate _ _ _, hlate _ _ _⟩
  · have htold (a : Nat) (w : Word) (eff : Mach → Mach) := shadowKeeps_commandWrite_outside l a w eff cyc s hin
    exact ⟨htold _ _ _, htold _ _ _, htold _ _ _, htold _ _ _, htold _ _ _, htold _ _ _⟩
  · have hforeign (a : Nat) (x : Word) (eff : Mach → Mach) := shadowKeeps_commandWrite_other l a x eff cyc s hne
    exact ⟨hforeign _ _ _, hforeign _ _ _, hforeign _ _ _, hforeign _ _ _, hforeign _ _ _, hforeign _ _ _⟩
  · have hsafety (a : Nat) (w : Word) (eff : Mach → Mach) := shadowKeeps_commandWrite_safety l a w eff cyc s
    exact ⟨hsafety _ _ _, hsafety _ _ _, hsafety _ _ _, hsafety _ _ _, hsafety _ _ _, hsafety _ _ _⟩

end Sys2Proof.Machine
end

section
/-! Errors of law memory (R131): a corrected one counts, an uncorrectable one is an F2 event of its lane. -/

namespace Sys2Proof.Machine

variable (m : Mach) (l : Lane)

/-- The machine that has told of an uncorrectable error of law memory. -/
abbrev Mach.lawFaulted : Mach := ((m.raiseF2 l 0x1001).health l 4).orr (Reg.LAW_IRQ_STAT l.ix) 0x40

theorem Mach.lawFaulted_rd_other {b : Nat} (hirq : b ≠ Reg.LAW_IRQ_STAT l.ix) (hhealth : b ≠ healthReg l) :
    (m.lawFaulted l).rd b = m.rd b := by
  rw [Mach.rd_orr, if_neg hirq, Mach.health_rd_other _ l hhealth, Mach.raiseF2_rd]

theorem Mach.lawFaulted_irq :
    (m.lawFaulted l).rd (Reg.LAW_IRQ_STAT l.ix) = m.rd (Reg.LAW_IRQ_STAT l.ix) ||| 0x40#32 := by
  have hne : Reg.LAW_IRQ_STAT l.ix ≠ healthReg l := by cases l <;> decide
  rw [Mach.rd_orr, if_pos rfl, Mach.health_rd_other _ l hne, Mach.raiseF2_rd]

theorem Mach.lawFaulted_not_admitted : (m.lawFaulted l).settle.admitted l = false :=
  Mach.not_admitted_of_f2 _ (((m.raiseF2 l 0x1001).emitKept_health l 4).f2 (Mach.raiseF2_f2 ..))

theorem exec_lawMemoryError_corrected (cyc : Nat) (s : State) :
    ∃ t, exec (.lawMemoryError cyc l true) s = .next t ∧ Quiet s t [Reg.LAW_ECC l.ix] ∧
      t.m.fld (Reg.LAW_ECC l.ix) 15 0 = min (s.m.fld (Reg.LAW_ECC l.ix) 15 0 + 1) 0xFFFF := by
  obtain ⟨t, ht, hm, hquiet⟩ := run_leaves (s := s) (cyc := cyc) (f := fun m => m.incSat (Reg.LAW_ECC l.ix) 15 0)
    (regs := [Reg.LAW_ECC l.ix]) (es := [])
    (fun b hb => by rw [Mach.incSat, Mach.rd_setFld, if_neg (List.mem_singleton.not.1 hb)]; rfl) (List.append_nil _).symm
  refine ⟨t, ht, hquiet, ?_⟩
  rw [hm, Mach.settle_fld, Mach.incSat, Mach.fld_setFld _ _ (by omega) (by omega)]
  exact Nat.mod_eq_of_lt ((Nat.min_le_right ..).trans_lt (by omega))

theorem exec_lawMemoryError_uncorrectable (cyc : Nat) (s : State) :
    ∃ t, exec (.lawMemoryError cyc l false) s = .next t ∧ t.m.admitted l = false ∧
      t.m.rd (Reg.LAW_IRQ_STAT l.ix) = s.m.rd (Reg.LAW_IRQ_STAT l.ix) ||| 0x40#32 ∧
      SameRegsBut s t [Reg.LAW_IRQ_STAT l.ix, healthReg l] ∧ SameMemory s t ∧
      Raises s t [eventAt (s.at cyc) 0x1001 2 0xFF [] l.origin] := by
  obtain ⟨t, ht, hm, hframe⟩ := run_leaves (s := s) (cyc := cyc) (f := fun m => m.lawFaulted l)
    (regs := [Reg.LAW_IRQ_STAT l.ix, healthReg l]) (es := [eventAt (s.at cyc) 0x1001 2 0xFF [] l.origin])
    (fun b hb => by
      simp only [List.mem_cons, List.not_mem_nil, or_false, not_or] at hb
      exact (s.at cyc).lawFaulted_rd_other l hb.1 hb.2)
    ((s.at cyc).raiseF2_raised l 0x1001 0xFF [])
  refine ⟨t, ht, ?_, ?_, hframe⟩ <;> rw [hm]
  · exact (s.at cyc).lawFaulted_not_admitted l
  · exact (Mach.settle_rd ..).trans ((s.at cyc).lawFaulted_irq l)

/-- Settles O23: by whether the error was corrected. -/
theorem lawMemoryErrorsCountOrFaultTheLane : Obligations.LawMemoryErrorsCountOrFaultTheLane := by
  intro cyc l s
  obtain ⟨t, ht, hadm, hirq, hregs, hmem, hev⟩ := exec_lawMemoryError_uncorrectable l cyc s
  exact ⟨exec_lawMemoryError_corrected l cyc s, t, ht, hadm, hirq, hregs, hmem, [], hev⟩

end Sys2Proof.Machine
end

section
/-! The port to law memory (R122, R323): a write that is accepted, one that is refused, and a read. -/

namespace Sys2Proof.Machine

variable (m : Mach) (l : Lane)

/-! ### The address (R122) -/

theorem Mach.portAdvance_rd_other {b : Nat} (h : b ≠ Reg.LAW_CW_ADDR l.ix) : (m.portAdvance l).rd b = m.rd b := by
  rw [Mach.portAdvance, Mach.incMod, Mach.rd_setFld, if_neg h]

theorem Mach.portAdvance_address :
    (m.portAdvance l).fld (Reg.LAW_CW_ADDR l.ix) 15 0 = (m.fld (Reg.LAW_CW_ADDR l.ix) 15 0 + 1) % 2 ^ 16 :=
  m.fld_setFld _ (by omega) (by omega)

/-- A use of the port that leaves the registers to the address alone. -/
theorem run_portAdvance {s : State} {cyc : Nat} {l : Lane} {f : Mach → Mach} {m' : Mach} (hf : f (s.at cyc) = m'.portAdvance l)
    (hrd : ∀ b, m'.rd b = s.m.rd b) (hraised : m'.time.raised = s.m.time.raised) :
    ∃ t, run s cyc f = .next t ∧ t.m = (m'.portAdvance l).settle ∧
      t.m.fld (Reg.LAW_CW_ADDR l.ix) 15 0 = (s.m.fld (Reg.LAW_CW_ADDR l.ix) 15 0 + 1) % 2 ^ 16 ∧
      Quiet s t [Reg.LAW_CW_ADDR l.ix] := by
  obtain ⟨t, ht, hm, hquiet⟩ := run_leaves (s := s) (cyc := cyc) (f := f) (regs := [Reg.LAW_CW_ADDR l.ix]) (es := [])
    (fun b hb => by rw [hf, Mach.portAdvance_rd_other _ l (List.mem_singleton.not.1 hb), hrd])
    (by rw [hf, List.append_nil]; exact hraised)
  rw [hf] at hm
  refine ⟨t, ht, hm, ?_, hquiet⟩
  rw [hm, Mach.settle_fld, Mach.portAdvance_address, Mach.fld, hrd, Mach.fld]

/-! ### An accepted write (R122, R323) -/

/-- A word of law memory written in lane `l`, and in the other lane while it is recovering. -/
def Mach.portStored (key : Nat) (v : Word) : Mach :=
  let own := m.onLaw l fun x => x.setWord key v
  if m.laneCode l.other ∈ [3, 4, 5] then own.onLaw l.other fun x => x.setWord key v else own

section
variable (key : Nat) (v : Word)

@[simp] theorem Mach.portStored_rd (b : Nat) : (m.portStored l key v).rd b = m.rd b := by
  unfold Mach.portStored
  dsimp only
  split <;> rfl

@[simp] theorem Mach.portStored_time : (m.portStored l key v).time = m.time := by
  unfold Mach.portStored
  dsimp only
  split <;> rfl

theorem Mach.portStored_own : (m.portStored l key v).law.get l = (m.law.get l).setWord key v := by
  unfold Mach.portStored
  dsimp only
  split
  · rw [Mach.onLaw_law, Two.get_set_other _ _ l.other_ne, Mach.onLaw_law, Two.get_set_self]
  · rw [Mach.onLaw_law, Two.get_set_self]

theorem Mach.portStored_other :
    (m.portStored l key v).law.get l.other =
      if m.laneCode l.other ∈ [3, 4, 5] then (m.law.get l.other).setWord key v else m.law.get l.other := by
  have hother : (m.onLaw l fun x => x.setWord key v).law.get l.other = m.law.get l.other :=
    Two.get_set_other _ _ l.other_ne.symm
  unfold Mach.portStored
  dsimp only
  split
  · rw [Mach.onLaw_law, Two.get_set_self, hother]
  · exact hother
end

theorem Mach.portWrite_accepted {m : Mach} {l : Lane} {k : Nat} (h : m.portSlot l = some k) (v : Word) :
    m.portWrite l v =
      (m.portStored l (coefKey (!m.bit (Reg.LAW_SLOT_STAT l.ix k) 30) (m.fld (Reg.LAW_CW_ADDR l.ix) 15 0)) v).portAdvance l := by
  simp only [Mach.portWrite, h]
  rfl

theorem exec_lawPortWrite_accepted {l : Lane} {s : State} {k : Nat} (h : s.m.portSlot l = some k) (cyc : Nat) (v : Word) :
    ∃ t, exec (.lawPortWrite cyc (.lane l) l v) s = .next t ∧
      (let key := coefKey (!s.m.bit (Reg.LAW_SLOT_STAT l.ix k) 30) (s.m.fld (Reg.LAW_CW_ADDR l.ix) 15 0)
       t.m.law.get l = (s.m.law.get l).setWord key v ∧
       t.m.law.get l.other = if s.m.laneCode l.other ∈ [3, 4, 5] then (s.m.law.get l.other).setWord key v else s.m.law.get l.other) ∧
      t.m.fld (Reg.LAW_CW_ADDR l.ix) 15 0 = (s.m.fld (Reg.LAW_CW_ADDR l.ix) 15 0 + 1) % 2 ^ 16 ∧
      Quiet s t [Reg.LAW_CW_ADDR l.ix] := by
  have hf := ((s.at cyc).ownCopy_own l (Reg.LAW_CW_DATA l.ix) fun m => m.portWrite l v).trans
    (Mach.portWrite_accepted (m := s.at cyc) h v)
  obtain ⟨t, ht, hm, hframe⟩ := run_portAdvance (s := s) (cyc := cyc)
    (f := fun m => m.ownCopy (.lane l) l (Reg.LAW_CW_DATA l.ix) fun m => m.portWrite l v) hf
    (fun b => Mach.portStored_rd ..) (by rw [Mach.portStored_time]; rfl)
  refine ⟨t, ht, ⟨?_, ?_⟩, hframe⟩ <;> rw [hm]
  · exact (s.at cyc).portStored_own l _ v
  · exact (s.at cyc).portStored_other l _ v

/-! ### A refused write -/

theorem Mach.portWrite_refused {m : Mach} {l : Lane} (h : m.portSlot l = none) (v : Word) :
    m.portWrite l v = (m.portRefused l).portAdvance l := by
  simp only [Mach.portWrite, h]

theorem Mach.portRefused_rd_other {b : Nat} (hstat : b ≠ Reg.LAW_CW_STAT l.ix) (hirq : b ≠ Reg.LAW_IRQ_STAT l.ix) :
    (m.portRefused l).rd b = m.rd b := by
  rw [Mach.portRefused, Mach.rd_orr, if_neg hirq, Mach.raise_rd, Mach.incSat, Mach.rd_setFld, if_neg hstat]

theorem Mach.portRefused_irq :
    (m.portRefused l).rd (Reg.LAW_IRQ_STAT l.ix) = m.rd (Reg.LAW_IRQ_STAT l.ix) ||| 0x10#32 := by
  have hne : Reg.LAW_IRQ_STAT l.ix ≠ Reg.LAW_CW_STAT l.ix := by cases l <;> decide
  rw [Mach.portRefused, Mach.rd_orr, if_pos rfl, Mach.raise_rd, Mach.incSat, Mach.rd_setFld, if_neg hne]

theorem Mach.portRefused_count :
    (m.portRefused l).fld (Reg.LAW_CW_STAT l.ix) 31 16 = min (m.fld (Reg.LAW_CW_STAT l.ix) 31 16 + 1) 0xFFFF := by
  have hne : Reg.LAW_CW_STAT l.ix ≠ Reg.LAW_IRQ_STAT l.ix := by cases l <;> decide
  rw [Mach.fld, Mach.portRefused, Mach.rd_orr, if_neg hne, Mach.raise_rd, ← Mach.fld, Mach.incSat,
    Mach.fld_setFld _ _ (by omega) (by omega)]
  exact Nat.mod_eq_of_lt ((Nat.min_le_right ..).trans_lt (by omega))

theorem Mach.portRefused_raised :
    (m.portRefused l).time.raised = m.time.raised ++ [eventAt m 0x1002 0 0xFF [] l.origin] := by
  have hrd : ∀ b ∈ [Reg.TICK_SEQ_LO, Reg.TICK_SEQ_HI, Reg.TICK_PERIOD, Reg.LANE_STATUS],
      (m.incSat (Reg.LAW_CW_STAT l.ix) 31 16).rd b = m.rd b := by
    intro b hb
    have hne : b ≠ Reg.LAW_CW_STAT l.ix := by revert b; cases l <;> decide
    rw [Mach.incSat, Mach.rd_setFld, if_neg hne]
  exact congrArg (m.time.raised ++ [·]) (eventAt_congr (m := m) (m' := m.incSat (Reg.LAW_CW_STAT l.ix) 31 16) rfl rfl hrd ..)

theorem exec_lawPortWrite_refused {l : Lane} {s : State} (h : s.m.portSlot l = none) (cyc : Nat) (v : Word) :
    ∃ t, exec (.lawPortWrite cyc (.lane l) l v) s = .next t ∧ t.m.law = s.m.law ∧
      t.m.fld (Reg.LAW_CW_STAT l.ix) 31 16 = min (s.m.fld (Reg.LAW_CW_STAT l.ix) 31 16 + 1) 0xFFFF ∧
      t.m.fld (Reg.LAW_CW_ADDR l.ix) 15 0 = (s.m.fld (Reg.LAW_CW_ADDR l.ix) 15 0 + 1) % 2 ^ 16 ∧
      t.m.rd (Reg.LAW_IRQ_STAT l.ix) = s.m.rd (Reg.LAW_IRQ_STAT l.ix) ||| 0x10#32 ∧
      Raises s t [eventAt (s.at cyc) 0x1002 0 0xFF [] l.origin] ∧
      SameRegsBut s t [Reg.LAW_CW_ADDR l.ix, Reg.LAW_CW_STAT l.ix, Reg.LAW_IRQ_STAT l.ix] ∧ SameMemory s t := by
  obtain ⟨has, hai, hsa, hia⟩ : Reg.LAW_CW_ADDR l.ix ≠ Reg.LAW_CW_STAT l.ix ∧ Reg.LAW_CW_ADDR l.ix ≠ Reg.LAW_IRQ_STAT l.ix ∧
      Reg.LAW_CW_STAT l.ix ≠ Reg.LAW_CW_ADDR l.ix ∧ Reg.LAW_IRQ_STAT l.ix ≠ Reg.LAW_CW_ADDR l.ix := by cases l <;> decide
  have hf := ((s.at cyc).ownCopy_own l (Reg.LAW_CW_DATA l.ix) fun m => m.portWrite l v).trans
    (Mach.portWrite_refused (m := s.at cyc) h v)
  obtain ⟨t, ht, hm, hregs, hmem, hev⟩ := run_leaves (s := s) (cyc := cyc)
    (f := fun m => m.ownCopy (.lane l) l (Reg.LAW_CW_DATA l.ix) fun m => m.portWrite l v)
    (regs := [Reg.LAW_CW_ADDR l.ix, Reg.LAW_CW_STAT l.ix, Reg.LAW_IRQ_STAT l.ix])
    (es := [eventAt (s.at cyc) 0x1002 0 0xFF [] l.origin])
    (fun b hb => by
      simp only [List.mem_cons, List.not_mem_nil, or_false, not_or] at hb
      obtain ⟨haddr, hstat, hirq⟩ := hb
      rw [hf, Mach.portAdvance_rd_other _ l haddr, Mach.portRefused_rd_other _ l hstat hirq]
      rfl)
    (by rw [hf]; exact (s.at cyc).portRefused_raised l)
  rw [hf] at hm
  refine ⟨t, ht, by rw [hm]; rfl, ?_, ?_, ?_, hev, hregs, hmem⟩ <;> rw [hm]
  · rw [Mach.settle_fld, Mach.fld, Mach.portAdvance_rd_other _ l hsa]
    exact (s.at cyc).portRefused_count l
  · rw [Mach.settle_fld, Mach.portAdvance_address, Mach.fld, Mach.portRefused_rd_other _ l has hai]
    rfl
  · rw [Mach.settle_rd, Mach.portAdvance_rd_other _ l hia]
    exact (s.at cyc).portRefused_irq l

/-! ### A read, and writers that have no port here (R133) -/

theorem exec_lawPortRead (cyc : Nat) (s : State) :
    ∃ t, exec (.lawPortRead cyc l) s = .next t ∧ t.m.reply = .data (s.m.portWord l) ∧ t.m.law = s.m.law ∧
      t.m.fld (Reg.LAW_CW_ADDR l.ix) 15 0 = (s.m.fld (Reg.LAW_CW_ADDR l.ix) 15 0 + 1) % 2 ^ 16 ∧
      Quiet s t [Reg.LAW_CW_ADDR l.ix] := by
  obtain ⟨t, ht, hm, hframe⟩ := run_portAdvance (s := s) (cyc := cyc) (l := l)
    (f := fun m => (m.say (.data (m.portWord l))).portAdvance l) rfl (fun _ => rfl) rfl
  exact ⟨t, ht, by rw [hm]; rfl, by rw [hm]; rfl, hframe⟩

/-- A command of the law engine that does nothing. -/
theorem run_law_nothing {s : State} {cyc : Nat} {f : Mach → Mach} (hf : f (s.at cyc) = s.at cyc) :
    ∃ t, run s cyc f = .next t ∧ t.m.law = s.m.law ∧ Quiet s t [] := by
  obtain ⟨t, ht, -, -, hlaw, hquiet⟩ := shadowKeeps_nothing hf
  exact ⟨t, ht, hlaw, hquiet⟩

theorem exec_lawPortWrite_other {w : Lane} (h : w ≠ l) (cyc : Nat) (v : Word) (s : State) :
    ∃ t, exec (.lawPortWrite cyc (.lane w) l v) s = .next t ∧ t.m.law = s.m.law ∧ SameRegsBut s t [] ∧ SameMemory s t ∧
      Raises s t [eventAt (s.at cyc) 0x0001 0 0xFF
        (accessRecord (physical (Reg.LAW_CW_DATA l.ix)) (.lane w) true .word false 3) 0] := by
  obtain ⟨t, ht, -, -, hlaw, hframe⟩ := shadowKeeps_ownCopy_other h (s := s) (cyc := cyc) (Reg.LAW_CW_DATA l.ix)
    fun m => m.portWrite l v
  exact ⟨t, ht, hlaw, hframe⟩

end Sys2Proof.Machine
end

section
/-! The injector's end (R125, R126): a ramp-out by duration or by a chirp's frequency, and what the end of the ramp tells. -/

namespace Sys2Proof.Machine

variable (m : Mach) (l : Lane)

/-! ### What LAW_INJ_STAT shows -/

/-- State and cause as LAW_INJ_STAT shows them. -/
def Mach.injShown (st cause : Nat) : Mach :=
  (m.setFld (Reg.LAW_INJ_STAT l.ix) 31 30 st).setFld (Reg.LAW_INJ_STAT l.ix) 25 22 cause

section
variable (st cause : Nat)

theorem Mach.injShown_rd_other {b : Nat} (h : b ≠ Reg.LAW_INJ_STAT l.ix) : (m.injShown l st cause).rd b = m.rd b := by
  rw [Mach.injShown, Mach.rd_setFld, if_neg h, Mach.rd_setFld, if_neg h]

theorem Mach.injShown_state : (m.injShown l st cause).injState l = st % 4 := by
  rw [Mach.injState, Mach.injShown, Mach.fld_setFld_other _ _ (by omega) (by omega) (by omega) (by omega)]
  exact m.fld_setFld st (by omega) (by omega)

theorem Mach.injShown_slot : (m.injShown l st cause).injSlot l = m.injSlot l := by
  rw [Mach.injSlot, Mach.injShown, Mach.fld_setFld_other _ _ (by omega) (by omega) (by omega) (by omega),
    Mach.fld_setFld_other _ _ (by omega) (by omega) (by omega) (by omega), Mach.injSlot]

theorem Mach.injShown_cause {cause : Nat} (h : cause < 16) :
    (m.injShown l st cause).fld (Reg.LAW_INJ_STAT l.ix) 25 22 = cause :=
  (Mach.fld_setFld _ _ (by omega) (by omega)).trans (Nat.mod_eq_of_lt h)
end

theorem Mach.onInj_inj (f : Injector → Injector) : (m.onInj l f).inj l = f (m.inj l) := by
  rw [Mach.inj, Mach.onInj, Mach.onLaw_law, Two.get_set_self, Mach.inj]

theorem Mach.onInj_law_other (f : Injector → Injector) : (m.onInj l f).law.get l.other = m.law.get l.other :=
  Two.get_set_other _ _ l.other_ne.symm

@[simp] theorem Mach.settle_inj : m.settle.inj l = m.inj l := rfl

/-! ### Ramp-out begins -/

theorem Mach.injRampOut_eq (cause : Nat) :
    m.injRampOut l cause =
      (m.injShown l 2 cause).onInj l fun i => { i with rampLeft := (m.injShown l 2 cause).fld (Reg.LAW_INJ_CTRL l.ix) 11 0 } := rfl

/-- What the beginning of a ramp-out leaves, where no more than the injector has changed before it. -/
theorem run_injRampOut {s : State} {cyc : Nat} {l : Lane} {f : Mach → Mach} {m' : Mach} {cause : Nat}
    (hf : f (s.at cyc) = m'.injRampOut l cause) (hcause : cause < 16) (hrd : ∀ b, m'.rd b = s.m.rd b)
    (hraised : m'.time.raised = s.m.time.raised) (hother : m'.law.get l.other = s.m.law.get l.other) :
    ∃ t, run s cyc f = .next t ∧ t.m.injState l = 2 ∧ t.m.fld (Reg.LAW_INJ_STAT l.ix) 25 22 = cause ∧
      t.m.inj l = { m'.inj l with rampLeft := s.m.fld (Reg.LAW_INJ_CTRL l.ix) 11 0 } ∧
      t.m.law.get l.other = s.m.law.get l.other ∧ Quiet s t [Reg.LAW_INJ_STAT l.ix] := by
  have hne : Reg.LAW_INJ_CTRL l.ix ≠ Reg.LAW_INJ_STAT l.ix := by cases l <;> decide
  have hctrl : (m'.injShown l 2 cause).fld (Reg.LAW_INJ_CTRL l.ix) 11 0 = s.m.fld (Reg.LAW_INJ_CTRL l.ix) 11 0 := by
    rw [Mach.fld, Mach.injShown_rd_other _ l 2 cause hne, hrd, Mach.fld]
  rw [Mach.injRampOut_eq, hctrl] at hf
  obtain ⟨t, ht, hm, hquiet⟩ := run_leaves (s := s) (cyc := cyc) (f := f) (regs := [Reg.LAW_INJ_STAT l.ix]) (es := [])
    (fun b hb => by
      rw [hf, Mach.onInj, Mach.onLaw_rd, Mach.injShown_rd_other _ l 2 cause (List.mem_singleton.not.1 hb), hrd])
    (by rw [hf, Mach.onInj, Mach.onLaw_time, List.append_nil]; exact hraised)
  rw [hf] at hm
  refine ⟨t, ht, ?_, ?_, ?_, ?_, hquiet⟩ <;> rw [hm]
  · rw [Mach.injState, Mach.settle_fld, Mach.onInj, Mach.onLaw_fld]
    exact m'.injShown_state l 2 cause
  · rw [Mach.settle_fld, Mach.onInj, Mach.onLaw_fld, Mach.injShown_cause _ l 2 hcause]
  · rw [Mach.settle_inj, Mach.onInj_inj]
    rfl
  · rw [Mach.settle_law, Mach.onInj_law_other]
    exact hother

section
variable {m l} {s : State}

theorem Mach.injDurationEnd_chirp (hst : m.injState l = 1) (hpass : m.freqPassed l (m.inj l).freq = true) :
    m.injDurationEnd l = (m.freqHold l).injRampOut l 2 := by
  rw [Mach.injDurationEnd, if_pos hst]
  exact if_pos hpass

theorem Mach.injDurationEnd_duration (hst : m.injState l = 1) (hpass : m.freqPassed l (m.inj l).freq = false)
    (hdur : m.rd (Reg.LAW_INJ_DUR l.ix) ≠ 0#32)
    (hdone : (m.rd (Reg.LAW_INJ_DUR l.ix)).toNat ≤ (m.rd (Reg.LAW_INJ_TICKS l.ix)).toNat) :
    m.injDurationEnd l = m.injRampOut l 1 := by
  have hdur' : (m.rd (Reg.LAW_INJ_DUR l.ix)).toNat ≠ 0 := fun h => hdur (BitVec.eq_of_toNat_eq h)
  rw [Mach.injDurationEnd, if_pos hst]
  exact (if_neg (by simp [hpass])).trans (if_pos ⟨hdur', hdone⟩)

theorem Mach.injDurationEnd_holds (hst : m.injState l = 2) (hpass : m.freqPassed l (m.inj l).freq = true) :
    m.injDurationEnd l = m.freqHold l := by
  rw [Mach.injDurationEnd, if_neg (by omega), if_pos (by simp [hst, hpass])]

/-- The injector goes on, or is at rest. -/
theorem Mach.injDurationEnd_nothing
    (h : m.injState l = 0 ∨ m.injState l = 3 ∨ (m.freqPassed l (m.inj l).freq = false ∧
      (m.injState l = 1 → m.rd (Reg.LAW_INJ_DUR l.ix) = 0#32 ∨
        (m.rd (Reg.LAW_INJ_TICKS l.ix)).toNat < (m.rd (Reg.LAW_INJ_DUR l.ix)).toNat))) :
    m.injDurationEnd l = m := by
  by_cases hst : m.injState l = 1
  · obtain ⟨hpass, hdur⟩ := (h.resolve_left (by omega)).resolve_left (by omega)
    rw [Mach.injDurationEnd, if_pos hst]
    refine (if_neg (by simp [hpass])).trans (if_neg fun ⟨hne, hle⟩ => ?_)
    rcases hdur hst with h0 | hlt
    · exact hne (by rw [h0]; rfl)
    · omega
  · rw [Mach.injDurationEnd, if_neg hst, if_neg]
    rw [Bool.and_eq_true, decide_eq_true_eq]
    rintro ⟨h2, hpass⟩
    obtain ⟨hno, -⟩ := (h.resolve_left (by omega)).resolve_left (by omega)
    rw [hpass] at hno
    contradiction

theorem exec_injectionDurationEnd_chirp (hst : s.m.injState l = 1) (hpass : s.m.freqPassed l (s.m.inj l).freq = true) (cyc : Nat) :
    ∃ t, exec (.injectionDurationEnd cyc l) s = .next t ∧ t.m.injState l = 2 ∧ t.m.fld (Reg.LAW_INJ_STAT l.ix) 25 22 = 2 ∧
      t.m.inj l = { s.m.inj l with
        freq := (s.m.rd (Reg.LAW_INJ_F1 l.ix)).toNat, rampLeft := s.m.fld (Reg.LAW_INJ_CTRL l.ix) 11 0 } ∧
      t.m.law.get l.other = s.m.law.get l.other ∧ Quiet s t [Reg.LAW_INJ_STAT l.ix] := by
  obtain ⟨t, ht, hstate, hcause, hinj, hframe⟩ := run_injRampOut (s := s) (cyc := cyc) (f := fun m => m.injDurationEnd l)
    (Mach.injDurationEnd_chirp (m := s.at cyc) hst hpass) (by omega) (fun _ => rfl) rfl ((s.at cyc).onInj_law_other l _)
  rw [Mach.freqHold, Mach.onInj_inj] at hinj
  exact ⟨t, ht, hstate, hcause, hinj, hframe⟩

theorem exec_injectionDurationEnd_holds (hst : s.m.injState l = 2) (hpass : s.m.freqPassed l (s.m.inj l).freq = true) (cyc : Nat) :
    ∃ t, exec (.injectionDurationEnd cyc l) s = .next t ∧
      t.m.inj l = { s.m.inj l with freq := (s.m.rd (Reg.LAW_INJ_F1 l.ix)).toNat } ∧
      t.m.law.get l.other = s.m.law.get l.other ∧ Quiet s t [] := by
  have hf := Mach.injDurationEnd_holds (m := s.at cyc) hst hpass
  obtain ⟨t, ht, hm, hquiet⟩ := run_leaves (s := s) (cyc := cyc) (f := fun m => m.injDurationEnd l) (regs := []) (es := [])
    (fun b _ => by rw [hf]; rfl) (by rw [hf, List.append_nil]; rfl)
  rw [hf] at hm
  refine ⟨t, ht, ?_, ?_, hquiet⟩ <;> rw [hm]
  · rw [Mach.settle_inj, Mach.freqHold, Mach.onInj_inj]
    rfl
  · rw [Mach.settle_law, Mach.freqHold, Mach.onInj_law_other]
    rfl
end

/-! ### The ramp is over -/

/-- The injector idle, with the cause that is to be told. -/
def Mach.injRested (cause : Nat) : Mach := (m.injShown l 0 cause).onInj l fun i => { i with rampLeft := 0 }

theorem Mach.injEnd_eq (cause : Nat) :
    m.injEnd l cause =
      ((m.injRested l cause).raise 0x1006 0 ((m.injRested l cause).injSlot l) [cause] l.origin).orr (Reg.LAW_IRQ_STAT l.ix) 8 := rfl

@[simp] theorem Mach.injRested_rd (cause b : Nat) : (m.injRested l cause).rd b = (m.injShown l 0 cause).rd b := by
  rw [Mach.injRested, Mach.onInj, Mach.onLaw_rd]

section
variable (cause : Nat)

theorem Mach.injEnd_rd {b : Nat} (h : b ≠ Reg.LAW_IRQ_STAT l.ix) : (m.injEnd l cause).rd b = (m.injShown l 0 cause).rd b := by
  rw [Mach.injEnd_eq, Mach.rd_orr, if_neg h, Mach.raise_rd, Mach.injRested_rd]

theorem Mach.injEnd_irq : (m.injEnd l cause).rd (Reg.LAW_IRQ_STAT l.ix) = m.rd (Reg.LAW_IRQ_STAT l.ix) ||| 8#32 := by
  have hne : Reg.LAW_IRQ_STAT l.ix ≠ Reg.LAW_INJ_STAT l.ix := by cases l <;> decide
  rw [Mach.injEnd_eq, Mach.rd_orr, if_pos rfl, Mach.raise_rd, Mach.injRested_rd, Mach.injShown_rd_other _ l 0 cause hne]

theorem Mach.injEnd_raised :
    (m.injEnd l cause).time.raised = m.time.raised ++ [eventAt m 0x1006 0 (m.injSlot l) [cause] l.origin] := by
  have hrd : ∀ b ∈ [Reg.TICK_SEQ_LO, Reg.TICK_SEQ_HI, Reg.TICK_PERIOD, Reg.LANE_STATUS], (m.injRested l cause).rd b = m.rd b := by
    intro b hb
    rw [Mach.injRested_rd]
    exact m.injShown_rd_other l 0 cause (by revert b; cases l <;> decide)
  have hslot : (m.injRested l cause).injSlot l = m.injSlot l := by
    rw [← m.injShown_slot l 0 cause, Mach.injSlot, Mach.fld, Mach.injRested_rd, Mach.injSlot, Mach.fld]
  rw [Mach.injEnd_eq, Mach.orr_time, hslot]
  exact congrArg (m.time.raised ++ [·]) (eventAt_congr (m := m) (m' := m.injRested l cause) rfl rfl hrd ..)
end

theorem exec_injectionRampOutEnd_idle {l : Lane} {s : State} (hst : s.m.injState l = 2) (hleft : (s.m.inj l).rampLeft = 0) (cyc : Nat) :
    ∃ t, exec (.injectionRampOutEnd cyc l) s = .next t ∧ t.m.injState l = 0 ∧
      t.m.fld (Reg.LAW_INJ_STAT l.ix) 25 22 = s.m.fld (Reg.LAW_INJ_STAT l.ix) 25 22 ∧
      t.m.rd (Reg.LAW_IRQ_STAT l.ix) = s.m.rd (Reg.LAW_IRQ_STAT l.ix) ||| 8#32 ∧
      Raises s t [eventAt (s.at cyc) 0x1006 0 (s.m.injSlot l) [s.m.fld (Reg.LAW_INJ_STAT l.ix) 25 22] l.origin] ∧
      SameRegsBut s t [Reg.LAW_INJ_STAT l.ix, Reg.LAW_IRQ_STAT l.ix] ∧ SameMemory s t := by
  have hne : Reg.LAW_INJ_STAT l.ix ≠ Reg.LAW_IRQ_STAT l.ix := by cases l <;> decide
  have hf : (s.at cyc).injRampEnd l = (s.at cyc).injEnd l (s.m.fld (Reg.LAW_INJ_STAT l.ix) 25 22) := if_pos ⟨hst, hleft⟩
  obtain ⟨t, ht, hm, hregs, hmem, hev⟩ := run_leaves (s := s) (cyc := cyc) (f := fun m => m.injRampEnd l)
    (regs := [Reg.LAW_INJ_STAT l.ix, Reg.LAW_IRQ_STAT l.ix])
    (fun b hb => by
      simp only [List.mem_cons, List.not_mem_nil, or_false, not_or] at hb
      rw [hf, Mach.injEnd_rd _ l _ hb.2, Mach.injShown_rd_other _ l 0 _ hb.1]
      rfl)
    (by rw [hf]; exact (s.at cyc).injEnd_raised l _)
  rw [hf] at hm
  refine ⟨t, ht, ?_, ?_, ?_, hev, hregs, hmem⟩ <;> rw [hm]
  · rw [Mach.injState, Mach.settle_fld, Mach.fld, Mach.injEnd_rd _ l _ hne]
    exact (s.at cyc).injShown_state l 0 _
  · rw [Mach.settle_fld, Mach.fld, Mach.injEnd_rd _ l _ hne]
    exact (s.at cyc).injShown_cause l 0 (Word.bits_lt _ 25 22)
  · exact (Mach.settle_rd ..).trans ((s.at cyc).injEnd_irq l _)

theorem Mach.injRampEnd_nothing {m : Mach} {l : Lane} (h : m.injState l ≠ 2 ∨ (m.inj l).rampLeft ≠ 0) : m.injRampEnd l = m :=
  if_neg fun ⟨hst, hleft⟩ => h.elim (· hst) (· hleft)

end Sys2Proof.Machine
end

section
/-! The end of an oscillation window (R128), and the statement of the port, the injector and the windows. -/

namespace Sys2Proof.Machine

variable (m : Mach) (l : Lane)

theorem oscWindowEnd_of_ended {oscwin : Nat} {x : LawSlot} (h : oscwin ≤ x.win) :
    oscWindowEnd oscwin x = { x with win := 0, swings := 0 } := if_pos h

theorem oscWindowEnd_of_running {oscwin : Nat} {x : LawSlot} (h : x.win < oscwin) : oscWindowEnd oscwin x = x :=
  if_neg (Nat.not_le.2 h)

/-- A place outside the table of slots has no window to end. -/
theorem oscWindowEnd_default (oscwin : Nat) : oscWindowEnd oscwin default = default := by
  unfold oscWindowEnd
  split <;> rfl

theorem Mach.lawSlot_onLawSlot {f : LawSlot → LawSlot} (hd : f default = default) (k : Nat) :
    (m.onLawSlot l k f).lawSlot l k = f (m.lawSlot l k) := by
  rw [Mach.lawSlot, Mach.onLawSlot, Mach.onLaw_law, Two.get_set_self, nth_upd]
  by_cases hk : k < (m.law.get l).slots.length
  · exact if_pos ⟨rfl, hk⟩
  · have hslot : m.lawSlot l k = default := List.getD_eq_default _ _ (Nat.not_lt.1 hk)
    rw [if_neg (by simp [hk]), hslot, hd]
    exact hslot

/-- The machine with the window of slot `k` ended if it is due. -/
abbrev Mach.windowEnded (k : Nat) : Mach := m.onLawSlot l k (oscWindowEnd (m.fld (Reg.LAW_SLOT_OSC l.ix k) 31 16))

/-- The slot after the command, and the count that its register shows. -/
theorem exec_oscillationWindowEnd (cyc : Nat) (k : Fin 16) (s : State) :
    ∃ t, exec (.oscillationWindowEnd cyc l k) s = .next t ∧
      t.m.lawSlot l k = oscWindowEnd (s.m.fld (Reg.LAW_SLOT_OSC l.ix k) 31 16) (s.m.lawSlot l k) ∧
      t.m.fld (Reg.LAW_SLOT_STAT l.ix k) 15 8 = (t.m.lawSlot l k).swings % 256 ∧ Quiet s t [Reg.LAW_SLOT_STAT l.ix k] := by
  obtain ⟨t, ht, hm, hquiet⟩ := run_leaves (s := s) (cyc := cyc)
    (f := fun m => (m.windowEnded l k).setFld (Reg.LAW_SLOT_STAT l.ix k) 15 8 ((m.windowEnded l k).lawSlot l k).swings)
    (regs := [Reg.LAW_SLOT_STAT l.ix k]) (es := [])
    (fun b hb => by rw [Mach.rd_setFld, if_neg (List.mem_singleton.not.1 hb)]; rfl) (List.append_nil _).symm
  refine ⟨t, ht, ?_, ?_, hquiet⟩ <;> rw [hm]
  · exact (s.at cyc).lawSlot_onLawSlot l (oscWindowEnd_default _) k
  · exact (Mach.settle_fld ..).trans (((s.at cyc).windowEnded l k).fld_setFld _ (by omega) (by omega))

/-- Settles O19: the port by who uses it and whether it accepts, the injector by its state, and a window by whether it has ended. -/
theorem lawPortInjectorAndWindows : Obligations.LawPortInjectorAndWindows := by
  refine ⟨fun cyc l v s k h => exec_lawPortWrite_accepted h cyc v, fun cyc l v s h => exec_lawPortWrite_refused h cyc v,
    fun cyc w l v s h => exec_lawPortWrite_other l h cyc v s,
    fun cyc l v s => run_law_nothing (f := fun m => m.ownCopy .safety l (Reg.LAW_CW_DATA l.ix) fun m => m.portWrite l v)
      (Mach.ownCopy_safety ..),
    fun cyc l s => exec_lawPortRead l cyc s, fun cyc l s hst hpass => exec_injectionDurationEnd_chirp hst hpass cyc,
    fun cyc l s hst hpass hdur hdone => ?_, fun cyc l s hst hpass => exec_injectionDurationEnd_holds hst hpass cyc,
    fun cyc l s h => run_law_nothing (f := fun m => m.injDurationEnd l) (Mach.injDurationEnd_nothing (m := s.at cyc) h),
    fun cyc l s hst hleft => exec_injectionRampOutEnd_idle hst hleft cyc,
    fun cyc l s h => run_law_nothing (f := fun m => m.injRampEnd l) (Mach.injRampEnd_nothing (m := s.at cyc) h),
    fun cyc l k s h => ?_, fun cyc l k s h => ?_⟩
  · exact run_injRampOut (f := fun m => m.injDurationEnd l) (m' := s.at cyc)
      (Mach.injDurationEnd_duration (m := s.at cyc) hst hpass hdur hdone) (by omega) (fun _ => rfl) rfl rfl
  · obtain ⟨t, ht, hslot, hcount, hquiet⟩ := exec_oscillationWindowEnd l cyc k s
    rw [oscWindowEnd_of_ended h] at hslot
    rw [hslot] at hcount
    exact ⟨t, ht, by rw [hslot], by rw [hslot], hcount, hquiet⟩
  · obtain ⟨t, ht, hslot, hcount, hquiet⟩ := exec_oscillationWindowEnd l cyc k s
    rw [oscWindowEnd_of_running h] at hslot
    rw [hslot] at hcount
    exact ⟨t, ht, hslot, hcount, hquiet⟩

end Sys2Proof.Machine
end

section
/-! What a motor's decision may tell: the clock and the registers of an event's stamp stay, and an F3 event of a LIVE lane whose cause
has room takes the motor's slot off (R16, R156, R184, R305, R309). -/

namespace Sys2Proof.Machine

variable (m : Mach) (l : Lane)

/-! ### Motors -/

theorem Mach.motor_onMotor (i j : Nat) (g : FocMotor → FocMotor) :
    (m.onMotor l j g).motor l i = if i = j ∧ j < (m.foc.get l).length then g (m.motor l j) else m.motor l i := by
  rw [Mach.motor, Mach.onMotor_foc, Two.get_set_self, nth_upd, Mach.motor, Mach.motor]

/-- What a change of a motor keeps of every motor, it keeps of those of the lane. -/
theorem Mach.onMotor_keeps {α : Type} (P : FocMotor → α) {g : FocMotor → FocMotor} (h : ∀ f, P (g f) = P f) (i j : Nat) :
    P ((m.onMotor l j g).motor l i) = P (m.motor l i) := by
  rw [Mach.motor_onMotor]
  split
  case isTrue hij => rw [h, hij.1]
  case isFalse => rfl

/-- What is true of a motor that has changed and of the default is true of whatever is read back after the change. -/
theorem Mach.motor_onMotor_of_default {P : FocMotor → Prop} {g : FocMotor → FocMotor} (hg : ∀ f, P (g f)) (hd : P default)
    (i : Nat) : P ((m.onMotor l i g).motor l i) := by
  rw [Mach.motor_onMotor]
  by_cases hi : i < (m.foc.get l).length
  · rw [if_pos ⟨rfl, hi⟩]
    exact hg _
  · have hout : m.motor l i = default := List.getD_eq_default _ _ (Nat.not_lt.1 hi)
    rwa [if_neg fun h => hi h.2, hout]

theorem Mach.slotOfMotor_lt (i : Nat) : m.slotOfMotor l i < 16 := Word.bits_lt _ 31 28

/-! ### The counts of FOC_M_EVCNT (R160) -/

theorem Mach.fld_incSat {a hi lo : Nat} (hl : lo ≤ hi) (hh : hi < 32) :
    (m.incSat a hi lo).fld a hi lo = min (m.fld a hi lo + 1) (2 ^ (hi + 1 - lo) - 1) :=
  (m.fld_setFld _ hl hh).trans (Nat.mod_eq_of_lt ((Nat.min_le_right ..).trans_lt (Nat.sub_lt (by positivity) Nat.one_pos)))

theorem focEvcnt_ne_modStat (k : Nat) (i : Fin 2) : Reg.FOC_M_EVCNT l.ix i ≠ Reg.MOD_STAT l.ix k := by
  have := i.isLt
  dsimp only [Reg.FOC_M_EVCNT, Reg.MOD_STAT]
  omega

theorem Mach.slotOfMotor_incSat_evcnt (i : Fin 2) (hi lo : Nat) :
    (m.incSat (Reg.FOC_M_EVCNT l.ix i) hi lo).slotOfMotor l i = m.slotOfMotor l i :=
  congrArg (Word.bits · 31 28) (m.rd_wr_other _ (by dsimp only [Reg.FOC_M_CFG, Reg.FOC_M_EVCNT]; omega))

/-! ### The end of a run and of a loss (R156, R184) -/

/-- The end of a loss changes no more than the motors. -/
theorem Mach.lossEnd_eq (k : Nat) : ∃ x, m.lossEnd l k = { m with foc := x } := by
  unfold Mach.lossEnd
  split
  · exact ⟨_, rfl⟩
  · exact ⟨m.foc, rfl⟩

theorem Mach.lossEnd_i0Count (k i : Nat) : ((m.lossEnd l k).motor l i).i0Count = (m.motor l i).i0Count := by
  unfold Mach.lossEnd
  split
  · exact m.onMotor_keeps l FocMotor.i0Count (by intro; rfl) ..
  · rfl

/-- A slot that leaves its run takes its start state, and beside it only the slots and motors of the lane change. -/
theorem Mach.modOff_eq (k c : Nat) : ∃ x y, m.modOff l k c = { m.setModState l k c with foc := x, mod := y } := by
  unfold Mach.modOff
  dsimp only
  split
  · exact ⟨_, _, rfl⟩
  · exact ⟨m.foc, _, rfl⟩

theorem Mach.modOff_modState {c : Nat} (h : c < 16) (k : Nat) : (m.modOff l k c).modState l k = c := by
  obtain ⟨x, y, heq⟩ := m.modOff_eq l k c
  rw [heq]
  exact (m.fld_setFld c (by omega) (by omega)).trans (Nat.mod_eq_of_lt h)

theorem Mach.modOff_rd_other {b k : Nat} (h : b ≠ Reg.MOD_STAT l.ix k) (c : Nat) : (m.modOff l k c).rd b = m.rd b := by
  obtain ⟨x, y, heq⟩ := m.modOff_eq l k c
  rw [heq]
  exact (m.rd_setFld ..).trans (if_neg h)

theorem Mach.modOff_i0Count (k c i : Nat) : ((m.modOff l k c).motor l i).i0Count = (m.motor l i).i0Count := by
  unfold Mach.modOff
  dsimp only
  split
  · exact Mach.onMotor_keeps _ l FocMotor.i0Count (by intro; rfl) ..
  · rfl

/-! ### What a decision may tell -/

/-- The registers that the stamp of an event and the accession tick of an entry depend on. -/
abbrev stampRegs : List Nat := [Reg.TICK_SEQ_LO, Reg.TICK_SEQ_HI, Reg.TICK_PERIOD, Reg.TICK_DEADLINE, Reg.LANE_STATUS]

theorem modStat_not_mem_stampRegs {k : Nat} (h : k < 16) : Reg.MOD_STAT l.ix k ∉ stampRegs := by
  have hfin : ∀ j : Fin 16, Reg.MOD_STAT l.ix j ∉ stampRegs := by cases l <;> decide
  exact hfin ⟨k, h⟩

theorem focEvcnt_not_mem_stampRegs (i : Fin 2) : Reg.FOC_M_EVCNT l.ix i ∉ stampRegs := by revert i; cases l <;> decide

theorem focStat_not_mem_stampRegs (i : Fin 2) : Reg.FOC_M_STAT l.ix i ∉ stampRegs := by revert i; cases l <;> decide

/-- Of `m` a decision has made `m'`: no register but `regs` changed, clock and stamps are those of `m`, and `es` were raised. -/
structure Mach.FocTells (regs : List Nat) (es : List Event) (m' : Mach) : Prop where
  now : m'.time.t = m.time.t
  cyc : m'.time.cyc = m.time.cyc
  tick : m'.tick = m.tick
  stamp : ∀ b ∈ stampRegs, m'.rd b = m.rd b
  rd : ∀ b, b ∉ regs → m'.rd b = m.rd b
  raised : m'.time.raised = m.time.raised ++ es

theorem Mach.FocTells.refl (regs : List Nat) : m.FocTells regs [] m :=
  ⟨rfl, rfl, rfl, fun _ _ => rfl, fun _ _ => rfl, (List.append_nil _).symm⟩

section
variable {m l} {m' : Mach} {regs : List Nat} {es : List Event} (h : m.FocTells regs es m')
include h

/-- A change of motors or slots tells nothing. -/
theorem Mach.FocTells.withMotors (x : Two (List FocMotor)) (y : Two (List ModSlot)) :
    m.FocTells regs es { m' with foc := x, mod := y } := ⟨h.now, h.cyc, h.tick, h.stamp, h.rd, h.raised⟩

theorem Mach.FocTells.onMotor (i : Nat) (g : FocMotor → FocMotor) : m.FocTells regs es (m'.onMotor l i g) :=
  h.withMotors _ m'.mod

theorem Mach.FocTells.wait (e : JEntry) : m.FocTells regs es (m'.wait e) := ⟨h.now, h.cyc, h.tick, h.stamp, h.rd, h.raised⟩

theorem Mach.FocTells.wr {a : Nat} (ha : a ∈ regs) (hs : a ∉ stampRegs) (w : Word) : m.FocTells regs es (m'.wr a w) where
  now := h.now
  cyc := h.cyc
  tick := h.tick
  stamp b hb := (m'.rd_wr_other w fun hba => hs (by rwa [← hba])).trans (h.stamp b hb)
  rd b hb := (m'.rd_wr_other w fun hba => hb (by rwa [hba])).trans (h.rd b hb)
  raised := h.raised

theorem Mach.FocTells.incSat {a : Nat} (ha : a ∈ regs) (hs : a ∉ stampRegs) (hi lo : Nat) :
    m.FocTells regs es (m'.incSat a hi lo) := h.wr ha hs _

theorem Mach.FocTells.eventAt_eq (code cls slot : Nat) (d : List Nat) (o : Nat) :
    eventAt m' code cls slot d o = eventAt m code cls slot d o := by
  have hstamp : ∀ b ∈ [Reg.TICK_SEQ_LO, Reg.TICK_SEQ_HI, Reg.TICK_PERIOD, Reg.LANE_STATUS], m'.rd b = m.rd b :=
    fun b hb => h.stamp b (by revert hb; simp only [List.mem_cons]; tauto)
  rw [← eventAt_congr (m := m) (m' := { m' with time := m.time }) rfl h.tick hstamp]
  simp only [eventAt, Mach.now, Mach.tickNow, h.now, h.cyc]
  rfl

theorem Mach.FocTells.raise (code cls slot : Nat) (d : List Nat) (o : Nat) :
    m.FocTells regs (es ++ [eventAt m code cls slot d o]) (m'.raise code cls slot d o) where
  now := h.now
  cyc := h.cyc
  tick := h.tick
  stamp := h.stamp
  rd := h.rd
  raised := by
    rw [Mach.raise_raised, h.raised, List.append_assoc, ← h.eventAt_eq code cls slot d o]
    rfl

/-- An input that arrives now is the same entry, and for the same accession tick. -/
theorem Mach.FocTells.entryOf_eq (x : AsyncIn) : m'.entryOf m'.accTickNow x = m.entryOf m.accTickNow x := by
  have hstamp := h.stamp
  simp only [List.forall_mem_cons] at hstamp
  obtain ⟨hlo, hhi, -, hdl, -⟩ := hstamp
  simp only [Mach.entryOf, Mach.accTickNow, Mach.now, Mach.seq, Mach.rd64, Mach.deadline, Mach.fld, h.now, h.cyc, h.tick,
    hlo, hhi, hdl]
  rfl

theorem Mach.FocTells.live_eq : m'.live l = m.live l := by
  have hst : m'.rd Reg.LANE_STATUS = m.rd Reg.LANE_STATUS := h.stamp _ (by decide)
  cases l <;> simp only [Mach.live, Mach.laneCode, Mach.fld, hst]

theorem Mach.FocTells.modOff {k : Nat} (hk : k < 16) (hmem : Reg.MOD_STAT l.ix k ∈ regs) (c : Nat) :
    m.FocTells regs es (m'.modOff l k c) := by
  obtain ⟨x, y, heq⟩ := m'.modOff_eq l k c
  rw [heq]
  exact (h.wr hmem (modStat_not_mem_stampRegs l hk) _).withMotors x y
end

/-! ### An F3 event of a LIVE lane (R16, R309) -/

section
variable {m l}

theorem Mach.not_replayed_of_live (h : m.live l = true) : m.replayed l.origin = false := by
  have hcode : m.laneCode l = 1 := eq_of_beq h
  cases l <;> simp [Mach.replayed, Lane.origin, Lane.ix, hcode]

/-- While nothing waits for accession, the cause of a LIVE lane's F3 event does. -/
theorem Mach.raiseF3_roomy (hlive : m.live l = true) (hroom : m.lane.waiting = []) (code k : Nat) :
    m.raiseF3 code k [] l.origin =
      (m.raise code 3 k [] l.origin).wait (m.entryOf m.accTickNow ⟨10, k, 0, 0, code, []⟩) := by
  have hrep : (m.raise code 3 k [] l.origin).replayed l.origin = false := m.not_replayed_of_live hlive
  have hno : (m.raise code 3 k [] l.origin).lane.waiting = [] := hroom
  simp only [Mach.raiseF3, Mach.accedeCause, hrep, hno, List.any_nil, Bool.and_false, Bool.or_false, Bool.false_eq_true, if_false]
  exact Mach.accede_roomy _ hno (show entryBytes [] ≤ 1024 by decide)
end

end Sys2Proof.Machine
end

section
/-! What takes a motor's slot off (R139, R147, R154, R157): the F3 event that each fault is, and the slot's machine in FAULT. -/

namespace Sys2Proof.Machine

variable (m : Mach) (l : Lane)

/-! ### The F3 event of a motor's slot -/

/-- `m'` is `m` after an F3 event of slot `k` that leaves the slot in FAULT, whatever it makes of the motors. -/
def Mach.FaultsSlot (k code : Nat) (m' : Mach) : Prop := ∃ x, m' = ({ m.raiseF3 code k [] l.origin with foc := x }).modOff l k 6

theorem Mach.faultsSlot_lossEnd (k code : Nat) :
    m.FaultsSlot l k code (((m.raiseF3 code k [] l.origin).lossEnd l k).modOff l k 6) := by
  obtain ⟨x, hx⟩ := (m.raiseF3 code k [] l.origin).lossEnd_eq l k
  exact ⟨x, by rw [hx]⟩

theorem focCfg_not_mem_accessionRegs (i : Fin 2) : Reg.FOC_M_CFG l.ix i ∉ accessionRegs := by revert i; cases l <;> decide

theorem Mach.faultsSlot_failSafe {k : Nat} (i : Fin 2) (h : m.slotOfMotor l i = k) (code : Nat) :
    m.FaultsSlot l k code ((m.raiseF3 code k [] l.origin).failSafe l i) := by
  have hslot : (m.raiseF3 code k [] l.origin).slotOfMotor l i = k := by
    rw [← h, Mach.slotOfMotor, Mach.fld, Mach.raiseF3_rd_other _ (focCfg_not_mem_accessionRegs l i)]
    rfl
  unfold Mach.failSafe
  dsimp only
  rw [hslot]
  exact ⟨_, rfl⟩

/-- What the fault of a slot leaves in a LIVE lane, from what was told before it: `m` is the machine that the event finds. -/
theorem run_faultsSlot {s : State} {cyc : Nat} {f : Mach → Mach} {m : Mach} {l : Lane} {k code : Nat} {regs : List Nat}
    {es : List Event} (h : (s.at cyc).FocTells regs es m) (hf : m.FaultsSlot l k code (f (s.at cyc)))
    (hlane : m.lane = s.m.lane) (hroom : s.roomy) (hlive : s.m.live l = true) (hk : k < 16) (hmem : Reg.MOD_STAT l.ix k ∈ regs) :
    ∃ t, run s cyc f = .next t ∧ t.m = (f (s.at cyc)).settle ∧ (∀ b, b ≠ Reg.MOD_STAT l.ix k → t.m.rd b = m.rd b) ∧
      t.m.modState l k = 6 ∧ Enters s t cyc ⟨10, k, 0, 0, code, []⟩ ∧
      Raises s t (es ++ [eventAt (s.at cyc) code 3 k [] l.origin]) ∧ SameRegsBut s t regs ∧ SameMemory s t := by
  obtain ⟨x, hx⟩ := hf
  rw [Mach.raiseF3_roomy (h.live_eq.trans hlive) (hlane ▸ hroom), h.entryOf_eq] at hx
  have htells := (((h.raise code 3 k [] l.origin).wait
    ((s.at cyc).entryOf (s.at cyc).accTickNow ⟨10, k, 0, 0, code, []⟩)).withMotors x m.mod).modOff hk hmem 6
  obtain ⟨t, ht, hm, hregs, hsame, hev⟩ := run_leaves (s := s) (cyc := cyc) (f := f) (by rw [hx]; exact htells.rd)
    (by rw [hx]; exact htells.raised)
  refine ⟨t, ht, hm, fun b hb => ?_, ?_, ?_, hev, hregs, hsame⟩
  · rw [hm, Mach.settle_rd, hx, Mach.modOff_rd_other _ l hb]
    rfl
  · rw [hm, Mach.modState, Mach.settle_fld, hx]
    exact Mach.modOff_modState _ l (by omega) k
  · obtain ⟨x', y, hoff⟩ := Mach.modOff_eq _ l k 6
    rw [Enters, hm, Mach.settle_lane, hx, hoff]
    change insertEntry _ m.lane.waiting = _
    rw [hlane, hroom]
    rfl

/-- A command of the field control that does nothing. -/
theorem run_foc_nothing {s : State} {cyc : Nat} {f : Mach → Mach} (hf : f (s.at cyc) = s.at cyc) :
    ∃ t, run s cyc f = .next t ∧ t.m.foc = s.m.foc ∧ t.m.mod = s.m.mod ∧ Quiet s t [] := by
  obtain ⟨t, ht, hm, hquiet⟩ := run_leaves (s := s) (cyc := cyc) (f := f) (regs := []) (es := []) (fun b _ => by rw [hf]; rfl)
    (by rw [hf, List.append_nil]; rfl)
  exact ⟨t, ht, by rw [hm, hf]; rfl, by rw [hm, hf]; rfl, hquiet⟩

/-! ### The current sum (R139) -/

section
variable {m l} {i : Nat}

theorem Mach.sumFault_nothing (h : (m.motor l i).i0Count < 3) : m.sumFault l i = m := if_pos h

theorem Mach.sumFault_due (h : 3 ≤ (m.motor l i).i0Count) :
    m.sumFault l i =
      ((((m.onMotor l i fun f => { f with i0Count := 0 }).raiseF3 0x1401 (m.slotOfMotor l i) [] l.origin).lossEnd l
        (m.slotOfMotor l i)).modOff l (m.slotOfMotor l i) 6) := if_neg (Nat.not_lt.2 h)

theorem Mach.sumFault_i0Count (h : 3 ≤ (m.motor l i).i0Count) (hlive : m.live l = true) (hroom : m.lane.waiting = []) :
    ((m.sumFault l i).motor l i).i0Count = 0 := by
  rw [Mach.sumFault_due h, Mach.modOff_i0Count, Mach.lossEnd_i0Count,
    Mach.raiseF3_roomy (m := m.onMotor l i _) hlive hroom]
  exact m.motor_onMotor_of_default l (P := fun f => f.i0Count = 0) (fun _ => rfl) rfl i
end

theorem exec_phaseCurrentSumFault_due {s : State} {i : Fin 2} {k : Nat} (hk : s.m.slotOfMotor l i = k) (hlive : s.m.live l = true)
    (hroom : s.roomy) (h : 3 ≤ (s.m.motor l i).i0Count) (cyc : Nat) :
    ∃ t, exec (.phaseCurrentSumFault cyc l i) s = .next t ∧ t.m.modState l k = 6 ∧ (t.m.motor l i).i0Count = 0 ∧
      Enters s t cyc ⟨10, k, 0, 0, 0x1401, []⟩ ∧ Raises s t [eventAt (s.at cyc) 0x1401 3 k [] l.origin] ∧
      SameRegsBut s t [Reg.MOD_STAT l.ix k] ∧ SameMemory s t := by
  subst hk
  have hf := Mach.sumFault_due (m := s.at cyc) h
  obtain ⟨t, ht, hm, -, hstate, henters, hev, hregs, hmem⟩ := run_faultsSlot (f := fun m => m.sumFault l i) (code := 0x1401)
    ((Mach.FocTells.refl (s.at cyc) [Reg.MOD_STAT l.ix (s.m.slotOfMotor l i)]).onMotor (l := l) i fun f => { f with i0Count := 0 })
    (by rw [hf]; exact Mach.faultsSlot_lossEnd ..) rfl hroom hlive (s.m.slotOfMotor_lt l i) List.mem_cons_self
  exact ⟨t, ht, hstate, by rw [hm]; exact Mach.sumFault_i0Count (m := s.at cyc) h hlive hroom, henters, hev, hregs, hmem⟩

/-! ### The polarity (R147) -/

/-- What decides the polarity: the difference of the two sums that counts as one. -/
abbrev Mach.polLimit (i : Nat) : Int := 8 * m.fld (Reg.FOC_M_PD l.ix i) 11 0 * 2 ^ 13

section
variable {m l} {i : Nat}

theorem Mach.polarityDecide_nothing (h : (m.motor l i).polStep ≠ 5) : m.polarityDecide l i = m := if_pos h

/-- The decision by the difference of the sums and by the tries that are left. -/
theorem Mach.polarityDecide_due (h : (m.motor l i).polStep = 5) :
    m.polarityDecide l i =
      if m.polLimit l i < (m.motor l i).polNeg - (m.motor l i).polPos then
        m.onMotor l i fun f => { f with polStep := 0, polOk := true, thh := (f.thh + 2 ^ 31) % 2 ^ 32 }
      else if m.polLimit l i < (m.motor l i).polPos - (m.motor l i).polNeg then
        m.onMotor l i fun f => { f with polStep := 0, polOk := true }
      else if (m.motor l i).polTries + 1 < 3 then
        m.onMotor l i fun f => { f with polStep := 2, polTick := 0, polPos := 0, polNeg := 0, polTries := f.polTries + 1 }
      else
        (((m.onMotor l i fun f => { f with polStep := 0, polTries := 0 }).raiseF3 0x1409 (m.slotOfMotor l i) [] l.origin).lossEnd l
          (m.slotOfMotor l i)).modOff l (m.slotOfMotor l i) 6 := if_neg (not_not.2 h)

theorem Mach.polarityDecide_fails (h : (m.motor l i).polStep = 5) (htries : 2 ≤ (m.motor l i).polTries)
    (hlim : ((m.motor l i).polNeg - (m.motor l i).polPos).natAbs ≤ m.polLimit l i) :
    m.polarityDecide l i =
      (((m.onMotor l i fun f => { f with polStep := 0, polTries := 0 }).raiseF3 0x1409 (m.slotOfMotor l i) [] l.origin).lossEnd l
          (m.slotOfMotor l i)).modOff l (m.slotOfMotor l i) 6 := by
  rw [Mach.polarityDecide_due h, if_neg (by omega), if_neg (by omega), if_neg (by omega)]
end

theorem exec_polarityDetection_fails {s : State} {i : Fin 2} {k : Nat} (hk : s.m.slotOfMotor l i = k) (hlive : s.m.live l = true)
    (hroom : s.roomy) (hstep : (s.m.motor l i).polStep = 5) (htries : 2 ≤ (s.m.motor l i).polTries)
    (hlim : ((s.m.motor l i).polNeg - (s.m.motor l i).polPos).natAbs ≤ s.m.polLimit l i) (cyc : Nat) :
    ∃ t, exec (.polarityDetection cyc l i) s = .next t ∧ t.m.modState l k = 6 ∧
      Enters s t cyc ⟨10, k, 0, 0, 0x1409, []⟩ ∧ Raises s t [eventAt (s.at cyc) 0x1409 3 k [] l.origin] ∧
      SameRegsBut s t [Reg.MOD_STAT l.ix k] ∧ SameMemory s t := by
  subst hk
  have hf := Mach.polarityDecide_fails (m := s.at cyc) hstep htries hlim
  obtain ⟨t, ht, -, -, hframe⟩ := run_faultsSlot (f := fun m => m.polarityDecide l i) (code := 0x1409)
    ((Mach.FocTells.refl (s.at cyc) [Reg.MOD_STAT l.ix (s.m.slotOfMotor l i)]).onMotor (l := l) i
      fun f => { f with polStep := 0, polTries := 0 })
    (by rw [hf]; exact Mach.faultsSlot_lossEnd ..) rfl hroom hlive (s.m.slotOfMotor_lt l i) List.mem_cons_self
  exact ⟨t, ht, hframe⟩

/-! ### A loss that outlasts LOSTMAX (R154) -/

section
variable {m l} {i : Nat}

theorem Mach.reacqFail_nothing
    (h : (m.motor l i).phase ≠ .extrapolating ∨ (m.motor l i).k < m.lostMax l i ∨ (m.motor l i).reacqNow = true) :
    m.reacqFail l i = m := if_pos h

theorem Mach.reacqFail_due {code hi lo : Nat} (hphase : (m.motor l i).phase = .extrapolating)
    (hlost : m.lostMax l i ≤ (m.motor l i).k) (hre : (m.motor l i).reacqNow = false)
    (hcode : (code, hi, lo) = if (m.motor l i).emfhi then (0x1405, 15, 8) else (0x1406, 7, 0)) :
    m.reacqFail l i =
      ((m.incSat (Reg.FOC_M_EVCNT l.ix i) hi lo).raiseF3 code (m.slotOfMotor l i) [] l.origin).failSafe l i := by
  have hnot : ¬((m.motor l i).phase ≠ .extrapolating ∨ (m.motor l i).k < m.lostMax l i ∨ (m.motor l i).reacqNow = true) := by
    simp [hphase, hlost, hre]
  unfold Mach.reacqFail
  dsimp only
  rw [if_neg hnot]
  by_cases hemf : (m.motor l i).emfhi = true
  · rw [if_pos hemf] at hcode ⊢
    cases hcode
    rfl
  · rw [if_neg hemf] at hcode ⊢
    cases hcode
    rfl
end

theorem exec_reacquisitionFailed_due {s : State} {i : Fin 2} {k code hi lo : Nat} (hk : s.m.slotOfMotor l i = k)
    (hlive : s.m.live l = true) (hroom : s.roomy) (hphase : (s.m.motor l i).phase = .extrapolating)
    (hlost : s.m.lostMax l i ≤ (s.m.motor l i).k) (hre : (s.m.motor l i).reacqNow = false)
    (hcode : (code, hi, lo) = if (s.m.motor l i).emfhi then (0x1405, 15, 8) else (0x1406, 7, 0)) (cyc : Nat) :
    ∃ t, exec (.reacquisitionFailed cyc l i) s = .next t ∧ t.m.modState l k = 6 ∧
      t.m.fld (Reg.FOC_M_EVCNT l.ix i) hi lo = min (s.m.fld (Reg.FOC_M_EVCNT l.ix i) hi lo + 1) 0xFF ∧
      Enters s t cyc ⟨10, k, 0, 0, code, []⟩ ∧ Raises s t [eventAt (s.at cyc) code 3 k [] l.origin] ∧
      SameRegsBut s t [Reg.MOD_STAT l.ix k, Reg.FOC_M_EVCNT l.ix i] ∧ SameMemory s t := by
  subst hk
  have hwidth : lo ≤ hi ∧ hi < 32 ∧ hi + 1 - lo = 8 := by
    revert hcode
    split <;> rintro ⟨⟩ <;> decide
  obtain ⟨hl, hh, hw⟩ := hwidth
  have hf := Mach.reacqFail_due (m := s.at cyc) hphase hlost hre hcode
  obtain ⟨t, ht, -, hrd, hstate, henters, hev, hframe⟩ := run_faultsSlot (f := fun m => m.reacqFail l i)
    ((Mach.FocTells.refl (s.at cyc) [Reg.MOD_STAT l.ix (s.m.slotOfMotor l i), Reg.FOC_M_EVCNT l.ix i]).incSat
      (List.mem_cons_of_mem _ List.mem_cons_self) (focEvcnt_not_mem_stampRegs l i) hi lo)
    (by rw [hf]; exact Mach.faultsSlot_failSafe _ l i (Mach.slotOfMotor_incSat_evcnt ..) code) rfl hroom hlive
    (s.m.slotOfMotor_lt l i) List.mem_cons_self
  refine ⟨t, ht, hstate, ?_, henters, hev, hframe⟩
  rw [Mach.fld, hrd _ (focEvcnt_ne_modStat l _ i)]
  exact ((s.at cyc).fld_incSat hl hh).trans (by rw [hw]; rfl)

/-! ### The contrast of the injection (R157) -/

section
variable {m l} {i : Nat}

theorem Mach.contrastLost_nothing (h : (m.motor l i).hcCount < 8) : m.contrastLost l i = m := if_pos h

theorem Mach.contrastLost_due (h : 8 ≤ (m.motor l i).hcCount) :
    m.contrastLost l i =
      ((m.onMotor l i fun f => { f with hcCount := 0 }).raiseF3 0x140D (m.slotOfMotor l i) [] l.origin).failSafe l i :=
  if_neg (Nat.not_lt.2 h)
end

theorem exec_injectionContrastLost_due {s : State} {i : Fin 2} {k : Nat} (hk : s.m.slotOfMotor l i = k) (hlive : s.m.live l = true)
    (hroom : s.roomy) (h : 8 ≤ (s.m.motor l i).hcCount) (cyc : Nat) :
    ∃ t, exec (.injectionContrastLost cyc l i) s = .next t ∧ t.m.modState l k = 6 ∧
      Enters s t cyc ⟨10, k, 0, 0, 0x140D, []⟩ ∧ Raises s t [eventAt (s.at cyc) 0x140D 3 k [] l.origin] ∧
      SameRegsBut s t [Reg.MOD_STAT l.ix k] ∧ SameMemory s t := by
  subst hk
  have hf := Mach.contrastLost_due (m := s.at cyc) h
  obtain ⟨t, ht, -, -, hframe⟩ := run_faultsSlot (f := fun m => m.contrastLost l i) (code := 0x140D)
    ((Mach.FocTells.refl (s.at cyc) [Reg.MOD_STAT l.ix (s.m.slotOfMotor l i)]).onMotor (l := l) i fun f => { f with hcCount := 0 })
    (by rw [hf]; exact Mach.faultsSlot_failSafe _ l i rfl _) rfl hroom hlive (s.m.slotOfMotor_lt l i) List.mem_cons_self
  exact ⟨t, ht, hframe⟩

/-- Settles O20: each fault by the count, the tries or the time that it waits for, and short of that nothing. -/
theorem motorFaultsStopTheirSlot : Obligations.MotorFaultsStopTheirSlot := by
  refine ⟨fun cyc l i s k hk hlive hroom h => exec_phaseCurrentSumFault_due l hk hlive hroom h cyc,
    fun cyc l i s h => run_foc_nothing (f := fun m => m.sumFault l i) (Mach.sumFault_nothing (m := s.at cyc) h),
    fun cyc l i s k hk hlive hroom hstep htries hlim =>
      exec_polarityDetection_fails l hk hlive hroom hstep htries (by unfold Mach.polLimit; omega) cyc,
    fun cyc l i s k code hi lo hk hlive hroom hphase hlost hre hcode =>
      exec_reacquisitionFailed_due l hk hlive hroom hphase hlost hre hcode cyc,
    fun cyc l i s h => run_foc_nothing (f := fun m => m.reacqFail l i) (Mach.reacqFail_nothing (m := s.at cyc) h),
    fun cyc l i s k hk hlive hroom h => exec_injectionContrastLost_due l hk hlive hroom h cyc,
    fun cyc l i s h => run_foc_nothing (f := fun m => m.contrastLost l i) (Mach.contrastLost_nothing (m := s.at cyc) h)⟩

end Sys2Proof.Machine
end

section
/-! What a motor decides in a tick (R147, R150 to R153, R155): the polarity, sensor and estimate apart, a loss declared and its end,
and the release of a short circuit. -/

namespace Sys2Proof.Machine

variable (m : Mach) (l : Lane)

/-! ### A decision that changes one motor -/

/-- What a decision leaves that ends with `m`, from what it tells and from the motor it changes. -/
theorem run_motorBecomes {s : State} {cyc : Nat} {f : Mach → Mach} {m : Mach} {l : Lane} {i : Nat} {g : FocMotor → FocMotor}
    {regs : List Nat} {es : List Event} (hf : f (s.at cyc) = m) (h : (s.at cyc).FocTells regs es m)
    (hfoc : m.foc = s.m.foc.set l (upd (s.m.foc.get l) i g)) :
    ∃ t, run s cyc f = .next t ∧ t.m = m.settle ∧ MotorBecomes s t l i g ∧ Raises s t es ∧ SameRegsBut s t regs ∧
      SameMemory s t := by
  obtain ⟨t, ht, hm, hregs, hmem, hev⟩ := run_leaves (s := s) (cyc := cyc) (f := f) (by rw [hf]; exact h.rd)
    (by rw [hf]; exact h.raised)
  rw [hf] at hm
  exact ⟨t, ht, hm, by rw [MotorBecomes, hm]; exact hfoc, hev, hregs, hmem⟩

/-- A decision that changes its motor and nothing else. -/
theorem run_motorAlone {s : State} {cyc : Nat} {f : Mach → Mach} {l : Lane} {i : Nat} {g : FocMotor → FocMotor}
    (hf : f (s.at cyc) = (s.at cyc).onMotor l i g) :
    ∃ t, run s cyc f = .next t ∧ Quiet s t [] ∧ MotorBecomes s t l i g := by
  obtain ⟨t, ht, -, hmotor, hev, hregs, hmem⟩ := run_motorBecomes hf ((Mach.FocTells.refl _ []).onMotor i g) rfl
  exact ⟨t, ht, ⟨hregs, hmem, hev⟩, hmotor⟩

/-- A decision that is not due. -/
theorem run_motors_nothing {s : State} {cyc : Nat} {f : Mach → Mach} (hf : f (s.at cyc) = s.at cyc) :
    ∃ t, run s cyc f = .next t ∧ t.m.foc = s.m.foc ∧ Quiet s t [] := by
  obtain ⟨t, ht, hfoc, -, hquiet⟩ := run_foc_nothing hf
  exact ⟨t, ht, hfoc, hquiet⟩

/-- A decision that counts at `hi` to `lo` of FOC_M_EVCNT, changes its motor and tells it. -/
def Mach.motorCounted (i hi lo : Nat) (g : FocMotor → FocMotor) (code cls : Nat) : Mach :=
  (((m.incSat (Reg.FOC_M_EVCNT l.ix i) hi lo).onMotor l i g).raise code cls (m.slotOfMotor l i) [] l.origin)

theorem Mach.focTells_motorCounted (i : Fin 2) {regs : List Nat} (hmem : Reg.FOC_M_EVCNT l.ix i ∈ regs) (hi lo : Nat)
    (g : FocMotor → FocMotor) (code cls : Nat) :
    m.FocTells regs [eventAt m code cls (m.slotOfMotor l i) [] l.origin] (m.motorCounted l i hi lo g code cls) :=
  (((Mach.FocTells.refl m regs).incSat hmem (focEvcnt_not_mem_stampRegs l i) hi lo).onMotor (l := l) i g).raise ..

theorem run_motorCounted {s : State} {cyc : Nat} {f : Mach → Mach} {l : Lane} {i : Fin 2} {g : FocMotor → FocMotor}
    {lo code cls : Nat} (hlo : lo ≤ 24) (hf : f (s.at cyc) = (s.at cyc).motorCounted l i (lo + 7) lo g code cls) :
    ∃ t, run s cyc f = .next t ∧ MotorBecomes s t l i g ∧
      t.m.fld (Reg.FOC_M_EVCNT l.ix i) (lo + 7) lo = min (s.m.fld (Reg.FOC_M_EVCNT l.ix i) (lo + 7) lo + 1) 0xFF ∧
      Raises s t [eventAt (s.at cyc) code cls (s.m.slotOfMotor l i) [] l.origin] ∧
      SameRegsBut s t [Reg.FOC_M_EVCNT l.ix i] ∧ SameMemory s t := by
  obtain ⟨t, ht, hm, hmotor, hframe⟩ := run_motorBecomes hf
    ((s.at cyc).focTells_motorCounted l i List.mem_cons_self (lo + 7) lo g code cls) rfl
  refine ⟨t, ht, hmotor, ?_, hframe⟩
  rw [hm, Mach.settle_fld]
  refine ((s.at cyc).fld_incSat (by omega) (by omega)).trans ?_
  rw [show lo + 7 + 1 - lo = 8 by omega]
  rfl

section
variable {m l}

/-! ### The polarity (R147) -/

section
variable {i : Nat} (h : (m.motor l i).polStep = 5)
include h

theorem Mach.polarityDecide_negative (hneg : m.polLimit l i < (m.motor l i).polNeg - (m.motor l i).polPos) :
    m.polarityDecide l i =
      m.onMotor l i fun f => { f with polStep := 0, polOk := true, thh := (f.thh + 2 ^ 31) % 2 ^ 32 } := by
  rw [Mach.polarityDecide_due h, if_pos hneg]

theorem Mach.polarityDecide_positive (hpos : m.polLimit l i < (m.motor l i).polPos - (m.motor l i).polNeg) :
    m.polarityDecide l i = m.onMotor l i fun f => { f with polStep := 0, polOk := true } := by
  have hlim : 0 ≤ m.polLimit l i := by unfold Mach.polLimit; omega
  rw [Mach.polarityDecide_due h, if_neg (by omega), if_pos hpos]

theorem Mach.polarityDecide_again (htries : (m.motor l i).polTries < 2)
    (hlim : ((m.motor l i).polNeg - (m.motor l i).polPos).natAbs ≤ m.polLimit l i) :
    m.polarityDecide l i =
      m.onMotor l i fun f => { f with polStep := 2, polTick := 0, polPos := 0, polNeg := 0, polTries := f.polTries + 1 } := by
  rw [Mach.polarityDecide_due h, if_neg (by omega), if_neg (by omega), if_pos (by omega)]
end

/-! ### Sensor and estimate apart (R150) -/

theorem Mach.divergence_nothing {i : Nat} (h : (m.motor l i).divCount < 16 ∨ (m.motor l i).div = true) : m.divergence l i = m :=
  if_pos h

theorem Mach.divergence_due {i : Nat} (h : 16 ≤ (m.motor l i).divCount) (hdiv : (m.motor l i).div = false) :
    m.divergence l i =
      (((m.onMotor l i fun f => { f with div := true }).setBit (Reg.FOC_M_STAT l.ix i) 25 true).raise 0x140A 1
        (m.slotOfMotor l i) [] l.origin) := by
  have hnot : ¬((m.motor l i).divCount < 16 ∨ (m.motor l i).div = true) := by simp [hdiv, h]
  exact if_neg hnot

theorem exec_sensorDivergence_due {s : State} {i : Fin 2} (h : 16 ≤ (s.m.motor l i).divCount) (hdiv : (s.m.motor l i).div = false)
    (cyc : Nat) :
    ∃ t, exec (.sensorDivergence cyc l i) s = .next t ∧ t.m.bit (Reg.FOC_M_STAT l.ix i) 25 = true ∧
      MotorBecomes s t l i (fun f => { f with div := true }) ∧
      Raises s t [eventAt (s.at cyc) 0x140A 1 (s.m.slotOfMotor l i) [] l.origin] ∧
      SameRegsBut s t [Reg.FOC_M_STAT l.ix i] ∧ SameMemory s t := by
  have htells := (((Mach.FocTells.refl (s.at cyc) [Reg.FOC_M_STAT l.ix i]).onMotor (l := l) i fun f => { f with div := true }).wr
    List.mem_cons_self (focStat_not_mem_stampRegs l i) ((s.m.rd (Reg.FOC_M_STAT l.ix i)).withBit 25 true)).raise 0x140A 1
    (s.m.slotOfMotor l i) [] l.origin
  obtain ⟨t, ht, hm, hframe⟩ := run_motorBecomes (f := fun m => m.divergence l i) (i := i.val)
    (g := fun f => { f with div := true }) (Mach.divergence_due (m := s.at cyc) h hdiv) htells rfl
  refine ⟨t, ht, ?_, hframe⟩
  rw [hm, Mach.settle_bit, Mach.raise_bit, Mach.bit, Mach.rd_setBit, if_pos rfl]
  exact Word.bit_withBit _ _ (by decide)

/-! ### A loss is declared (R151 to R153, R155) -/

/-- The loss continues on the sensor. -/
def FocMotor.lostOnSensor (f : FocMotor) : FocMotor := { f with phase := .onSensor, lossCount := 0, reacq := 0 }

/-- The loss begins to extrapolate. -/
def FocMotor.lostExtrapolating (f : FocMotor) : FocMotor := { f with phase := .extrapolating, k := 1, lossCount := 0, reacq := 0 }

section
variable {i : Nat}

theorem Mach.declareLoss_nothing (h : (m.motor l i).declaring = false) : m.declareLoss l i = m := if_pos (by rw [h]; rfl)

variable (h : (m.motor l i).declaring = true)
include h

theorem Mach.declareLoss_onSensor (hsrc : (m.motor l i).angsrc = 1) :
    m.declareLoss l i = m.motorCounted l i 31 24 FocMotor.lostOnSensor 0x1402 1 := by
  unfold Mach.declareLoss
  dsimp only
  rw [if_neg (by rw [h]; decide), if_pos hsrc]
  rfl

/-- A loss without the sensor, by whether the last restart is less than a second away. -/
theorem Mach.declareLoss_blind (hsrc : (m.motor l i).angsrc ≠ 1) :
    m.declareLoss l i =
      (let lost := m.motorCounted l i 31 24 FocMotor.lostExtrapolating 0x1403 0
       if (m.motor l i).lastRestart.any fun t => decide (m.now ≤ t + 2000000000) then
         ((lost.raiseF3 0x1408 (m.slotOfMotor l i) [] l.origin).lossEnd l (m.slotOfMotor l i)).modOff l (m.slotOfMotor l i) 6
       else lost) := by
  unfold Mach.declareLoss
  dsimp only
  rw [if_neg (by rw [h]; decide), if_neg hsrc]
  cases (m.motor l i).lastRestart <;> rfl

theorem Mach.declareLoss_extrapolates (hsrc : (m.motor l i).angsrc ≠ 1)
    (hlast : ∀ t, (m.motor l i).lastRestart = some t → t + 2000000000 < m.now) :
    m.declareLoss l i = m.motorCounted l i 31 24 FocMotor.lostExtrapolating 0x1403 0 := by
  rw [Mach.declareLoss_blind h hsrc]
  refine if_neg fun hany => ?_
  obtain ⟨t, ht, hnow⟩ := (Option.any_eq_true ..).1 hany
  exact Nat.not_lt.2 (of_decide_eq_true hnow) (hlast t ht)

/-- A second loss within a second of the restart takes the slot off. -/
theorem Mach.declareLoss_again {t0 : Nat} (hsrc : (m.motor l i).angsrc ≠ 1) (hlast : (m.motor l i).lastRestart = some t0)
    (hnow : m.now ≤ t0 + 2000000000) :
    (m.motorCounted l i 31 24 FocMotor.lostExtrapolating 0x1403 0).FaultsSlot l (m.slotOfMotor l i) 0x1408 (m.declareLoss l i) := by
  rw [Mach.declareLoss_blind h hsrc, hlast, Option.any_some, decide_eq_true hnow]
  exact Mach.faultsSlot_lossEnd ..
end

theorem exec_observerLoss_again {s : State} {cyc : Nat} {i : Fin 2} {t0 : Nat} (h : (s.m.motor l i).declaring = true)
    (hsrc : (s.m.motor l i).angsrc ≠ 1) (hlast : (s.m.motor l i).lastRestart = some t0) (hnow : (s.at cyc).now ≤ t0 + 2000000000)
    (hlive : s.m.live l = true) (hroom : s.roomy) :
    ∃ t, exec (.observerLoss cyc l i) s = .next t ∧ t.m.modState l (s.m.slotOfMotor l i) = 6 ∧
      Enters s t cyc ⟨10, s.m.slotOfMotor l i, 0, 0, 0x1408, []⟩ ∧
      Raises s t [eventAt (s.at cyc) 0x1403 0 (s.m.slotOfMotor l i) [] l.origin,
        eventAt (s.at cyc) 0x1408 3 (s.m.slotOfMotor l i) [] l.origin] ∧
      SameRegsBut s t [Reg.MOD_STAT l.ix (s.m.slotOfMotor l i), Reg.FOC_M_EVCNT l.ix i] ∧ SameMemory s t := by
  obtain ⟨t, ht, -, -, hframe⟩ := run_faultsSlot (f := fun m => m.declareLoss l i)
    (regs := [Reg.MOD_STAT l.ix (s.m.slotOfMotor l i), Reg.FOC_M_EVCNT l.ix i])
    ((s.at cyc).focTells_motorCounted l i (List.mem_cons_of_mem _ List.mem_cons_self) 31 24 FocMotor.lostExtrapolating 0x1403 0)
    (Mach.declareLoss_again (m := s.at cyc) h hsrc hlast hnow) rfl hroom hlive (s.m.slotOfMotor_lt l i) List.mem_cons_self
  exact ⟨t, ht, hframe⟩

/-! ### The observer is re-acquired (R153) -/

/-- The loss is over. -/
def FocMotor.reacquired (f : FocMotor) : FocMotor := { f with phase := .none, k := 0, reacq := 0, reacqNow := false, lossCount := 0 }

section
variable {i : Nat}

theorem Mach.reacquire_nothing
    (h : (m.motor l i).reacqNow = false ∨ ((m.motor l i).phase ≠ .extrapolating ∧ (m.motor l i).phase ≠ .onSensor)) :
    m.reacquire l i = m := by
  refine if_pos ?_
  rcases h with hre | ⟨hextra, hsensor⟩
  · rw [hre]
    rfl
  · rw [beq_false_of_ne hextra, beq_false_of_ne hsensor, Bool.or_false, Bool.and_false]
    rfl

theorem Mach.reacquire_due (hre : (m.motor l i).reacqNow = true)
    (hphase : (m.motor l i).phase = .extrapolating ∨ (m.motor l i).phase = .onSensor) :
    m.reacquire l i = m.motorCounted l i 23 16 FocMotor.reacquired 0x1404 0 := by
  refine if_neg ?_
  rcases hphase with hphase | hphase <;> rw [hre, hphase] <;> decide
end

/-! ### A short circuit is released (R155) -/

/-- The short circuit is no longer held, and a flying start is asked for. -/
def FocMotor.released (f : FocMotor) : FocMotor := { f with ascHeld := false, ascReleased := true, scLow := 0, restartReq := true }

section
variable {i : Nat}

theorem Mach.shortRelease_nothing
    (h : (m.motor l i).ascHeld = false ∨ ((m.motor l i).emfhi = true ∧ (m.motor l i).scLow < 16)) : m.shortRelease l i = m := by
  refine if_pos ?_
  rcases h with hheld | ⟨hemf, hlow⟩
  · rw [hheld]
    rfl
  · rw [hemf, decide_eq_false (Nat.not_le.2 hlow), Bool.not_true, Bool.or_false, Bool.and_false]
    rfl

theorem Mach.shortRelease_due (hheld : (m.motor l i).ascHeld = true)
    (h : (m.motor l i).emfhi = false ∨ 16 ≤ (m.motor l i).scLow) :
    m.shortRelease l i = (m.onMotor l i FocMotor.released).raise 0x1407 0 (m.slotOfMotor l i) [] l.origin := by
  refine if_neg ?_
  rcases h with hemf | hlow
  · rw [hheld, hemf, Bool.not_false, Bool.true_or]
    decide
  · rw [hheld, decide_eq_true hlow, Bool.or_true]
    decide
end

theorem exec_shortCircuitRelease_due {s : State} {i : Fin 2} (hheld : (s.m.motor l i).ascHeld = true)
    (h : (s.m.motor l i).emfhi = false ∨ 16 ≤ (s.m.motor l i).scLow) (cyc : Nat) :
    ∃ t, exec (.shortCircuitRelease cyc l i) s = .next t ∧ MotorBecomes s t l i FocMotor.released ∧
      Raises s t [eventAt (s.at cyc) 0x1407 0 (s.m.slotOfMotor l i) [] l.origin] ∧ SameRegsBut s t [] ∧ SameMemory s t := by
  obtain ⟨t, ht, -, hframe⟩ := run_motorBecomes (f := fun m => m.shortRelease l i)
    (Mach.shortRelease_due (m := s.at cyc) hheld h)
    (((Mach.FocTells.refl (s.at cyc) []).onMotor (l := l) i FocMotor.released).raise ..) rfl
  exact ⟨t, ht, hframe⟩
end

/-- Settles O21: each decision by its condition, with what it makes of the motor and what it tells; short of that nothing. -/
theorem motorDecisionsOfATick : Obligations.MotorDecisionsOfATick := by
  refine ⟨fun cyc l i s lim hstep hlim => ?_,
    fun cyc l i s h => run_motors_nothing (f := fun m => m.polarityDecide l i) (Mach.polarityDecide_nothing (m := s.at cyc) h),
    fun cyc l i s h hdiv => exec_sensorDivergence_due h hdiv cyc,
    fun cyc l i s h => run_motors_nothing (f := fun m => m.divergence l i) (Mach.divergence_nothing (m := s.at cyc) h),
    fun cyc l i s h hsrc => ?_, fun cyc l i s h hsrc hlast => ?_,
    fun cyc l i s t0 h hsrc hlast hnow hlive hroom => exec_observerLoss_again h hsrc hlast hnow hlive hroom,
    fun cyc l i s h => run_motors_nothing (f := fun m => m.declareLoss l i) (Mach.declareLoss_nothing (m := s.at cyc) h),
    fun cyc l i s hre hphase => run_motorCounted (f := fun m => m.reacquire l i) (by decide)
      (Mach.reacquire_due (m := s.at cyc) hre hphase),
    fun cyc l i s h => run_motors_nothing (f := fun m => m.reacquire l i) (Mach.reacquire_nothing (m := s.at cyc) h),
    fun cyc l i s hheld h => exec_shortCircuitRelease_due hheld h cyc,
    fun cyc l i s h => run_motors_nothing (f := fun m => m.shortRelease l i) (Mach.shortRelease_nothing (m := s.at cyc) h)⟩
  · subst hlim
    exact ⟨fun hneg => run_motorAlone (f := fun m => m.polarityDecide l i) (Mach.polarityDecide_negative (m := s.at cyc) hstep hneg),
      fun hpos => run_motorAlone (f := fun m => m.polarityDecide l i) (Mach.polarityDecide_positive (m := s.at cyc) hstep hpos),
      fun hsame htries => run_motorAlone (f := fun m => m.polarityDecide l i)
        (Mach.polarityDecide_again (m := s.at cyc) hstep htries hsame)⟩
  · obtain ⟨t, ht, hmotor, hcount, hframe⟩ := run_motorCounted (f := fun m => m.declareLoss l i) (by decide)
      (Mach.declareLoss_onSensor (m := s.at cyc) h hsrc)
    exact ⟨t, ht, hcount, hmotor, hframe⟩
  · obtain ⟨t, ht, hmotor, hcount, hframe⟩ := run_motorCounted (f := fun m => m.declareLoss l i) (by decide)
      (Mach.declareLoss_extrapolates (m := s.at cyc) h hsrc hlast)
    exact ⟨t, ht, hcount, hmotor, hframe⟩

end Sys2Proof.Machine
end

section
/-! What the operations of the gate drive leave (R16, R190, R305, R309): registers of the power stage, channels that change and F3
events whose causes find room in accession. -/

namespace Sys2Proof.Machine

variable (m : Mach)

/-! ### Registers of the power stage -/

/-- An offset in the blocks of the gate drive and of the low-voltage converter. -/
abbrev powerStageReg (a : Nat) : Prop := 0x70000 ≤ a ∧ a < 0xA0000

theorem powerStageReg.not_mem_stampRegs {a : Nat} (h : powerStageReg a) : a ∉ stampRegs := by
  obtain ⟨hlo, hhi⟩ := h
  simp only [List.mem_cons, List.not_mem_nil, or_false, Reg.TICK_SEQ_LO, Reg.TICK_SEQ_HI, Reg.TICK_PERIOD, Reg.TICK_DEADLINE,
    Reg.LANE_STATUS]
  omega

theorem powerStageReg.not_mem_accessionRegs {a : Nat} (h : powerStageReg a) : a ∉ accessionRegs := by
  obtain ⟨hlo, hhi⟩ := h
  simp only [List.mem_cons, List.not_mem_nil, or_false, Reg.LANE_ACCSTAT, Reg.LANE_L_IRQ_STAT]
  omega

section
variable {p : Nat} (hp : p < 16)
include hp
theorem powerStageReg_prCfg : powerStageReg (Reg.GDI_PR_CFG p) := by dsimp only [powerStageReg, Reg.GDI_PR_CFG]; omega
theorem powerStageReg_prStat : powerStageReg (Reg.GDI_PR_STAT p) := by dsimp only [powerStageReg, Reg.GDI_PR_STAT]; omega
theorem powerStageReg_prCnt : powerStageReg (Reg.GDI_PR_CNT p) := by dsimp only [powerStageReg, Reg.GDI_PR_CNT]; omega
theorem powerStageReg_prTswh : powerStageReg (Reg.GDI_PR_TSWH p) := by dsimp only [powerStageReg, Reg.GDI_PR_TSWH]; omega
end

theorem powerStageReg_legStat {j : Nat} (hj : j < 24) : powerStageReg (Reg.GDL_LEG_STAT j) := by
  dsimp only [powerStageReg, Reg.GDL_LEG_STAT]
  omega

/-- A bit that is set is no other bit of the register, and no bit of another register. -/
theorem Mach.bit_setBit_other {a b i j : Nat} (x : Bool) (hi : i < 32) (h : b ≠ a ∨ j ≠ i) :
    (m.setBit a i x).bit b j = m.bit b j := by
  rw [Mach.bit, Mach.rd_setBit, Mach.bit]
  split
  case isTrue hba => rw [hba, Word.bit_withBit_other _ _ hi (h.resolve_left (not_not_intro hba)).symm]
  case isFalse => rfl

theorem Mach.bit_setBit {a i : Nat} (x : Bool) (hi : i < 32) : (m.setBit a i x).bit a i = x := by
  rw [Mach.bit, Mach.rd_setBit, if_pos rfl, Word.bit_withBit _ _ hi]

theorem Mach.bit_setFld_other {a b hi lo i : Nat} (v : Nat) (hl : lo ≤ hi) (hh : hi < 32) (h : b ≠ a ∨ i < lo ∨ hi < i) :
    (m.setFld a hi lo v).bit b i = m.bit b i := by
  have hfld := m.fld_setFld_other v hl hh (le_refl i) h
  rw [Mach.bit, Word.bit_eq_bits, Mach.bit, Word.bit_eq_bits]
  exact congrArg (fun x => decide (x = 1)) hfld

theorem Mach.fld_setBit_other {a b i h l : Nat} (x : Bool) (hi : i < 32) (hlh : l ≤ h) (hd : b ≠ a ∨ h < i ∨ i < l) :
    (m.setBit a i x).fld b h l = m.fld b h l := m.fld_setFld_other _ (le_refl i) hi hlh hd

/-- A status bit that is set. -/
theorem Word.bit_or_two_pow (w : Word) {i : Nat} (hi : i < 32) : Word.bit (w ||| BitVec.ofNat 32 (2 ^ i)) i = true := by
  rw [Word.bit_or, Bool.or_eq_true]
  right
  rw [Word.bit, BitVec.toNat_ofNat, Nat.mod_eq_of_lt (Nat.pow_lt_pow_right (by decide) hi), Nat.testBit_two_pow_self]

/-! ### What a command tells -/

section
variable {m} {m' : Mach} {regs : List Nat} {es : List Event} (h : m.FocTells regs es m')
include h

/-- A change of channels tells nothing. -/
theorem Mach.FocTells.onGate (f : GateState → GateState) : m.FocTells regs es (m'.onGate f) :=
  ⟨h.now, h.cyc, h.tick, h.stamp, h.rd, h.raised⟩

/-- A change of the converter tells nothing. -/
theorem Mach.FocTells.onLvc (f : LvcState → LvcState) : m.FocTells regs es (m'.onLvc f) :=
  ⟨h.now, h.cyc, h.tick, h.stamp, h.rd, h.raised⟩

section
variable {a : Nat} (ha : a ∈ regs) (hp : powerStageReg a)
include ha hp

theorem Mach.FocTells.setFld (hi lo v : Nat) : m.FocTells regs es (m'.setFld a hi lo v) := h.wr ha hp.not_mem_stampRegs _

theorem Mach.FocTells.setBit (i : Nat) (x : Bool) : m.FocTells regs es (m'.setBit a i x) := h.wr ha hp.not_mem_stampRegs _

theorem Mach.FocTells.orr (k : Nat) : m.FocTells regs es (m'.orr a k) where
  now := h.now
  cyc := h.cyc
  tick := h.tick
  stamp := (h.wr ha hp.not_mem_stampRegs _).stamp
  rd := (h.wr ha hp.not_mem_stampRegs _).rd
  raised := h.raised
end
end

theorem Mach.FocTells.trans {m m₁ m₂ : Mach} {regs : List Nat} {es : List Event} (h : m.FocTells regs es m₁)
    (h' : m₁.FocTells regs [] m₂) : m.FocTells regs es m₂ where
  now := h'.now.trans h.now
  cyc := h'.cyc.trans h.cyc
  tick := h'.tick.trans h.tick
  stamp b hb := (h'.stamp b hb).trans (h.stamp b hb)
  rd b hb := (h'.rd b hb).trans (h.rd b hb)
  raised := by rw [h'.raised, List.append_nil, h.raised]

/-- What a command leaves, from what it tells. -/
theorem run_tells {s : State} {cyc : Nat} {f : Mach → Mach} {regs : List Nat} {es : List Event}
    (h : (s.at cyc).FocTells regs es (f (s.at cyc))) :
    ∃ t, run s cyc f = .next t ∧ t.m = (f (s.at cyc)).settle ∧ SameRegsBut s t regs ∧ SameMemory s t ∧ Raises s t es :=
  run_leaves h.rd h.raised

/-- A command that does nothing. -/
theorem run_gate_nothing {s : State} {cyc : Nat} {f : Mach → Mach} (hf : f (s.at cyc) = s.at cyc) :
    ∃ t, run s cyc f = .next t ∧ t.m = (s.at cyc).settle ∧ Quiet s t [] := by
  obtain ⟨t, ht, hm, hquiet⟩ := run_tells (s := s) (cyc := cyc) (f := f) (by rw [hf]; exact .refl _ [])
  exact ⟨t, ht, by rw [hm, hf], hquiet⟩

/-! ### F3 events and their causes (R16, R305, R309) -/

/-- At most `n` entries wait for accession, and none has a payload. -/
structure Mach.FewWait (n : Nat) (m : Mach) : Prop where
  bare : ∀ e ∈ m.lane.waiting, e.payload = []
  few : m.lane.waiting.length ≤ n

theorem Mach.FewWait.of_nil {m : Mach} (h : m.lane.waiting = []) (n : Nat) : m.FewWait n := by
  constructor <;> simp [h]

theorem Mach.FewWait.waitingBytes_le {m : Mach} {n : Nat} (h : m.FewWait n) (t : Nat) : m.waitingBytes t ≤ 32 * n := by
  obtain ⟨hbare, hfew⟩ := h
  have hle : ∀ x ∈ (m.lane.waiting.filter fun e => e.accTick == t).map fun e => entryBytes e.payload, x ≤ 32 := by
    intro x hx
    obtain ⟨e, he, rfl⟩ := List.mem_map.1 hx
    rw [hbare e (List.mem_filter.1 he).1]
    decide
  calc m.waitingBytes t ≤ ((m.lane.waiting.filter fun e => e.accTick == t).map fun e => entryBytes e.payload).length • 32 :=
        List.sum_le_card_nsmul _ _ hle
    _ ≤ 32 * n := by
        rw [List.length_map, smul_eq_mul, Nat.mul_comm]
        exact Nat.mul_le_mul_left _ ((List.length_filter_le ..).trans hfew)

theorem insertEntry_perm (e : JEntry) (l : List JEntry) : (insertEntry e l).Perm (e :: l) := by
  induction l with
  | nil => exact .refl _
  | cons x l ih =>
    rw [insertEntry]
    split
    · exact (ih.cons x).trans (.swap ..)
    · exact .refl _

section
variable {m} {n : Nat} (h : m.FewWait n)
include h

theorem Mach.FewWait.wait {e : JEntry} (he : e.payload = []) : (m.wait e).FewWait (n + 1) := by
  obtain ⟨hbare, hfew⟩ := h
  have hperm : (m.wait e).lane.waiting.Perm (e :: m.lane.waiting) := insertEntry_perm e _
  constructor
  · intro x hx
    rcases List.mem_cons.1 (hperm.mem_iff.1 hx) with rfl | hx
    · exact he
    · exact hbare x hx
  · rw [hperm.length_eq, List.length_cons]
    omega

/-- While there is room, an input without a payload waits for its tick. -/
theorem Mach.FewWait.accede_eq (hn : n < 32) {i : AsyncIn} (hi : i.payload = []) :
    m.accede i = m.wait (m.entryOf m.accTickNow i) := by
  have hb := h.waitingBytes_le m.accTickNow
  refine if_pos ?_
  change m.waitingBytes m.accTickNow + entryBytes i.payload ≤ 1024
  rw [hi, show entryBytes [] = 32 from rfl]
  omega

variable (hn : n < 32) (code slot : Nat) (d : List Nat)
include hn

/-- While there is room, the cause of an F3 event waits for its tick. -/
theorem Mach.FewWait.raiseF3_eq :
    m.raiseF3 code slot d = (m.raise code 3 slot d).wait (m.entryOf m.accTickNow ⟨10, slot, 0, 0, code, []⟩) :=
  Mach.FewWait.accede_eq (m := m.raise code 3 slot d) ⟨h.bare, h.few⟩ hn rfl

theorem Mach.FewWait.raiseF3 : (m.raiseF3 code slot d).FewWait (n + 1) := by
  rw [h.raiseF3_eq hn]
  exact Mach.FewWait.wait (m := m.raise code 3 slot d) ⟨h.bare, h.few⟩ rfl

theorem Mach.FewWait.raiseF3_gate : (m.raiseF3 code slot d).gate = m.gate := by rw [h.raiseF3_eq hn]; rfl

theorem Mach.FewWait.raiseF3_lvc : (m.raiseF3 code slot d).lvc = m.lvc := by rw [h.raiseF3_eq hn]; rfl

theorem Mach.FewWait.raiseF3_rd (b : Nat) : (m.raiseF3 code slot d).rd b = m.rd b := by rw [h.raiseF3_eq hn]; rfl

theorem Mach.FocTells.raiseF3 {m₀ : Mach} {regs : List Nat} {es : List Event} (ht : m₀.FocTells regs es m) :
    m₀.FocTells regs (es ++ [eventAt m₀ code 3 slot d 0]) (m.raiseF3 code slot d) := by
  rw [h.raiseF3_eq hn]
  exact (ht.raise ..).wait _
end

/-- The cause of an F3 event is what waits, where nothing waited. -/
theorem Mach.FocTells.raiseF3_waiting {m₀ m : Mach} {regs : List Nat} {es : List Event} (ht : m₀.FocTells regs es m)
    (hw : m.lane.waiting = []) (code slot : Nat) (d : List Nat) :
    (m.raiseF3 code slot d).lane.waiting = [m₀.entryOf m₀.accTickNow ⟨10, slot, 0, 0, code, []⟩] := by
  rw [(Mach.FewWait.of_nil hw 0).raiseF3_eq (by decide), Mach.wait_lane, Mach.raise_lane, hw, ht.entryOf_eq, insertEntry_nil]

/-- What a command leaves whose end is an F3 event of slot `k` and its status bit: `m` is the machine that the event finds. -/
theorem run_slotFault {s : State} {cyc : Nat} {f : Mach → Mach} {m : Mach} {regs : List Nat} {code k a v : Nat} {d : List Nat}
    (h : (s.at cyc).FocTells regs [] m) (hlane : m.lane = s.m.lane) (hroom : s.roomy) (ha : a ∈ regs) (hp : powerStageReg a)
    (hf : f (s.at cyc) = (m.raiseF3 code k d).orr a v) :
    ∃ t, run s cyc f = .next t ∧ t.m.gate = m.gate ∧ (∀ b, t.m.rd b = if b = a then m.rd a ||| BitVec.ofNat 32 v else m.rd b) ∧
      SlotFault s t cyc code k d ∧ SameRegsBut s t regs ∧ SameMemory s t := by
  have hw : m.lane.waiting = [] := by rw [hlane, hroom]
  have hfew := Mach.FewWait.of_nil hw 0
  have htells := (Mach.FocTells.raiseF3 hfew (by decide) code k d h).orr ha hp v
  obtain ⟨t, ht, hm, hregs, hmem, hev⟩ := run_tells (s := s) (cyc := cyc) (f := f) (by rw [hf]; exact htells)
  rw [hf] at hm
  refine ⟨t, ht, ?_, fun b => ?_, ⟨hev, ?_⟩, hregs, hmem⟩
  · rw [hm, Mach.settle_gate, Mach.orr_gate, hfew.raiseF3_gate (by decide)]
  · rw [hm, Mach.settle_rd, Mach.rd_orr, hfew.raiseF3_rd (by decide), hfew.raiseF3_rd (by decide)]
  · rw [Enters, hm, Mach.settle_lane, Mach.orr_lane, h.raiseF3_waiting hw]

/-! ### Pairs and legs -/

theorem Mach.onLeg_onLeg (j : Nat) (f g : GateLeg → GateLeg) : (m.onLeg j f).onLeg j g = m.onLeg j (g ∘ f) := by
  simp only [Mach.onLeg, Mach.onGate, upd_upd]

theorem Mach.pair_onPair (p q : Nat) (g : GatePair → GatePair) :
    (m.onPair p g).pair q = if q = p ∧ p < m.gate.pairs.length then g (m.pair p) else m.pair q := nth_upd ..

theorem Mach.leg_onLeg (i j : Nat) (g : GateLeg → GateLeg) :
    (m.onLeg j g).leg i = if i = j ∧ j < m.gate.legs.length then g (m.leg j) else m.leg i := nth_upd ..

/-- The slots of pairs and legs are read from their configurations. -/
theorem Mach.slotOfPair_congr {m m' : Mach} {p : Nat} (h : m'.rd (Reg.GDI_PR_CFG p) = m.rd (Reg.GDI_PR_CFG p)) :
    m'.slotOfPair p = m.slotOfPair p := by rw [Mach.slotOfPair, h, Mach.slotOfPair]

theorem Mach.slotOfLeg_congr {m m' : Mach} {j : Nat} (h : m'.rd (Reg.GDL_LEG_CFG j) = m.rd (Reg.GDL_LEG_CFG j)) :
    m'.slotOfLeg j = m.slotOfLeg j := by rw [Mach.slotOfLeg, h, Mach.slotOfLeg]

end Sys2Proof.Machine
end

section
/-! Short circuits (R198 to R202): what the latch of a pair changes, a detection, and the classification of a slot's detections. -/

namespace Sys2Proof.Machine

variable (m : Mach)

/-! ### The latch of a pair (R200, R203, R204, R219) -/

/-- The clamp that a latch ends changes GDI_OVSTAT and the clamp alone. -/
theorem Mach.clampEnds_cases :
    m.clampEnds = m ∨ m.clampEnds = (m.setBit Reg.GDI_OVSTAT 0 false).onGate fun g => { g with clamped := false } := by
  unfold Mach.clampEnds
  split
  · exact .inr rfl
  · exact .inl rfl

theorem Mach.clampEnds_gate : ∃ c, m.clampEnds.gate = { m.gate with clamped := c } := by
  rcases m.clampEnds_cases with h | h
  · exact ⟨_, by rw [h]⟩
  · exact ⟨_, by rw [h]; rfl⟩

theorem Mach.clampEnds_lane : m.clampEnds.lane = m.lane := by
  rcases m.clampEnds_cases with h | h
  · rw [h]
  · rw [h]
    rfl

theorem Mach.clampEnds_rd_other {b : Nat} (hb : b ≠ Reg.GDI_OVSTAT) : m.clampEnds.rd b = m.rd b := by
  rcases m.clampEnds_cases with h | h
  · rw [h]
  · rw [h, Mach.onGate_rd, Mach.rd_setBit, if_neg hb]

theorem Mach.FocTells.clampEnds {m m' : Mach} {regs : List Nat} {es : List Event} (h : m.FocTells regs es m')
    (hov : Reg.GDI_OVSTAT ∈ regs) : m.FocTells regs es m'.clampEnds := by
  rcases m'.clampEnds_cases with hc | hc <;> rw [hc]
  · exact h
  · exact (h.setBit hov (by decide) 0 false).onGate _

/-- The pair's fault and its latches shown, and the lock where the pair has latched too often. -/
def Mach.latchShown (p code : Nat) (lock : Bool) : Mach :=
  let shown := ((m.setFld (Reg.GDI_PR_STAT p) 12 10 code).showLatch p).clampEnds
  if lock then shown.setBit Reg.GDI_FAULT (16 + p) true else shown

/-- Channels of a pair latch: the pair's latches join those that it has, and are shown. -/
theorem Mach.latchPair_eq (p : Nat) (h l : Bool) (code : Nat) (soft : Bool) :
    ∃ (g : GatePair → GatePair) (lock : Bool), m.latchPair p h l code soft = (m.onPair p g).latchShown p code lock ∧
      ∀ x, (g x).latchH = (x.latchH || h) ∧ (g x).latchL = (x.latchL || l) :=
  ⟨_, _, rfl, fun _ => ⟨rfl, rfl⟩⟩

theorem Mach.latchShown_gate (p code : Nat) (lock : Bool) :
    ∃ c, (m.latchShown p code lock).gate = { m.gate with clamped := c } := by
  unfold Mach.latchShown
  dsimp only
  split
  exacts [Mach.clampEnds_gate _, Mach.clampEnds_gate _]

theorem Mach.latchShown_lane (p code : Nat) (lock : Bool) : (m.latchShown p code lock).lane = m.lane := by
  unfold Mach.latchShown
  dsimp only
  split
  exacts [Mach.clampEnds_lane _, Mach.clampEnds_lane _]

/-- The fault and the latches of a pair as its registers show them. -/
theorem Mach.latchShown_shows {p code : Nat} (hp : p < 16) (hcode : code < 8) (lock : Bool) :
    (m.latchShown p code lock).fld (Reg.GDI_PR_STAT p) 12 10 = code ∧
      (m.latchShown p code lock).bit Reg.GDI_FAULT p = ((m.pair p).latchH || (m.pair p).latchL) := by
  have hne : Reg.GDI_PR_STAT p ≠ Reg.GDI_FAULT ∧ Reg.GDI_PR_STAT p ≠ Reg.GDI_OVSTAT := by
    dsimp only [Reg.GDI_PR_STAT, Reg.GDI_FAULT, Reg.GDI_OVSTAT]
    omega
  have hshown : (((m.setFld (Reg.GDI_PR_STAT p) 12 10 code).showLatch p).clampEnds).fld (Reg.GDI_PR_STAT p) 12 10 = code ∧
      (((m.setFld (Reg.GDI_PR_STAT p) 12 10 code).showLatch p).clampEnds).bit Reg.GDI_FAULT p =
        ((m.pair p).latchH || (m.pair p).latchL) := by
    constructor
    · rw [Mach.fld, Mach.clampEnds_rd_other _ hne.2]
      change (Mach.setBit _ _ _ _).fld _ _ _ = _
      rw [Mach.fld_setBit_other _ _ (by omega) (by omega) (.inl hne.1), Mach.fld_setFld _ _ (by omega) (by omega)]
      exact Nat.mod_eq_of_lt hcode
    · rw [Mach.bit, Mach.clampEnds_rd_other _ (by decide)]
      exact Mach.bit_setBit _ _ (by omega)
  unfold Mach.latchShown
  dsimp only
  split
  · rwa [Mach.fld_setBit_other _ _ (by omega) (by omega) (.inl hne.1), Mach.bit_setBit_other _ _ (by omega) (.inr (by omega))]
  · exact hshown

section
variable {m} {m' : Mach} {regs : List Nat} {es : List Event} (ht : m.FocTells regs es m') {p : Nat} (hp : p < 16)
  (hfault : Reg.GDI_FAULT ∈ regs) (hstat : Reg.GDI_PR_STAT p ∈ regs) (hov : Reg.GDI_OVSTAT ∈ regs)
include ht hp hfault hstat hov

theorem Mach.FocTells.latchPair (h l : Bool) (code : Nat) (soft : Bool) : m.FocTells regs es (m'.latchPair p h l code soft) := by
  obtain ⟨g, lock, heq, -⟩ := m'.latchPair_eq p h l code soft
  rw [heq]
  have hshown := (((ht.onGate fun y => { y with pairs := upd y.pairs p g }).setFld hstat (powerStageReg_prStat hp) 12 10 code).setBit
    hfault (by decide) p (((m'.onPair p g).pair p).latchH || ((m'.onPair p g).pair p).latchL)).clampEnds hov
  unfold Mach.latchShown
  dsimp only
  split
  · exact hshown.setBit hfault (by decide) _ _
  · exact hshown
end

/-- What the latch of a pair leaves: its own pair and the clamp, its fault in its register, its latches in GDI_FAULT. -/
theorem Mach.latchPair_spec {p code : Nat} (hp : p < 16) (hcode : code < 8) (h l soft : Bool) :
    ∃ g c, (m.latchPair p h l code soft).gate = { m.gate with pairs := upd m.gate.pairs p g, clamped := c } ∧
      (∀ x, (g x).latchH = (x.latchH || h) ∧ (g x).latchL = (x.latchL || l)) ∧
      (m.latchPair p h l code soft).lane = m.lane ∧
      (m.latchPair p h l code soft).fld (Reg.GDI_PR_STAT p) 12 10 = code ∧
      (m.latchPair p h l code soft).bit Reg.GDI_FAULT p =
        (((m.latchPair p h l code soft).pair p).latchH || ((m.latchPair p h l code soft).pair p).latchL) := by
  obtain ⟨g, lock, heq, hg⟩ := m.latchPair_eq p h l code soft
  obtain ⟨c, hgate⟩ := (m.onPair p g).latchShown_gate p code lock
  obtain ⟨hflt, hlatch⟩ := (m.onPair p g).latchShown_shows hp hcode lock
  have hpair : (m.latchPair p h l code soft).pair p = (m.onPair p g).pair p := by rw [Mach.pair, heq, hgate]; rfl
  refine ⟨g, c, ?_, hg, ?_, ?_, ?_⟩
  · rw [heq, hgate]
    rfl
  · rw [heq, Mach.latchShown_lane]
    rfl
  · rw [heq, hflt]
  · rw [hpair, heq, hlatch]

/-! ### A detection (R199, R200) -/

section
variable {m} {ch mv ns : Nat}

theorem Mach.detect_nothing (h : m.slotOfPair (ch / 2) = none ∨ m.scLevel ch mv ns = none ∨
    (if ch % 2 = 1 then (m.pair (ch / 2)).latchL else (m.pair (ch / 2)).latchH) = true) : m.detect ch mv ns = m := by
  unfold Mach.detect
  dsimp only
  split
  next k hard hslot hlevel =>
    refine if_pos ?_
    simpa [hslot, hlevel] using h
  next => rfl

/-- The detection is noted, and the slot held until it is classified. -/
def Mach.detectionNoted (m : Mach) (ch k : Nat) (hard : Bool) : Mach :=
  m.onGate fun g => { g with
    held := g.held ||| 2 ^ k, detections := g.detections ++ [⟨k, ch / 2, ch, hard, m.now, m.time.cyc⟩] }

variable {k : Nat} {hard : Bool} (hslot : m.slotOfPair (ch / 2) = some k) (hlevel : m.scLevel ch mv ns = some hard)
  (hlatch : (if ch % 2 = 1 then (m.pair (ch / 2)).latchL else (m.pair (ch / 2)).latchH) = false)
include hslot hlevel hlatch

theorem Mach.detect_due : m.detect ch mv ns =
    (((m.latchPair (ch / 2) (!decide (ch % 2 = 1)) (decide (ch % 2 = 1)) (if hard then 2 else 1) true).incSat
      (Reg.GDI_PR_CNT (ch / 2)) 15 0).detectionNoted ch k hard) := by
  unfold Mach.detect
  dsimp only
  rw [hslot, hlevel]
  refine if_neg ?_
  simpa using hlatch
end

theorem not_odd_eq_even (ch : Nat) : (!decide (ch % 2 = 1)) = (ch % 2 == 0) := by
  rcases Nat.mod_two_eq_zero_or_one ch with h | h <;> rw [h] <;> rfl

theorem exec_shortCircuitDetection_due {s : State} {cyc : Nat} {ch : Fin 32} {mv ns k p : Nat} {hard : Bool} (hp : p = ch.val / 2)
    (hslot : s.m.slotOfPair p = some k) (hlevel : (s.at cyc).scLevel ch mv ns = some hard)
    (hlatch : (if ch.val % 2 = 1 then (s.m.pair p).latchL else (s.m.pair p).latchH) = false) :
    ∃ t g, exec (.shortCircuitDetection cyc ch mv ns) s = .next t ∧ t.m.gate.pairs = upd s.m.gate.pairs p g ∧
      (∀ x, (g x).latchH = (x.latchH || ch.val % 2 == 0) ∧ (g x).latchL = (x.latchL || ch.val % 2 == 1)) ∧
      t.m.bit Reg.GDI_FAULT p = ((t.m.pair p).latchH || (t.m.pair p).latchL) ∧
      t.m.fld (Reg.GDI_PR_STAT p) 12 10 = (if hard then 2 else 1) ∧
      t.m.fld (Reg.GDI_PR_CNT p) 15 0 = min (s.m.fld (Reg.GDI_PR_CNT p) 15 0 + 1) 0xFFFF ∧
      t.m.gate.held = s.m.gate.held ||| 2 ^ k ∧
      t.m.gate.detections = s.m.gate.detections ++ [⟨k, p, ch, hard, (s.at cyc).now, (s.at cyc).time.cyc⟩] ∧
      Quiet s t [Reg.GDI_FAULT, Reg.GDI_PR_STAT p, Reg.GDI_PR_CNT p, Reg.GDI_OVSTAT] := by
  have hp16 : p < 16 := by have := ch.isLt; omega
  have hcnt : Reg.GDI_PR_CNT p ≠ Reg.GDI_FAULT ∧ Reg.GDI_PR_CNT p ≠ Reg.GDI_PR_STAT p ∧ Reg.GDI_PR_CNT p ≠ Reg.GDI_OVSTAT := by
    dsimp only [Reg.GDI_PR_CNT, Reg.GDI_PR_STAT, Reg.GDI_FAULT, Reg.GDI_OVSTAT]
    omega
  set low := decide (ch.val % 2 = 1) with hlow
  set code := if hard then 2 else 1 with hcode
  set latched := (s.at cyc).latchPair p (!low) low code true with hlatched
  have hdue : (s.at cyc).detect ch mv ns = (latched.incSat (Reg.GDI_PR_CNT p) 15 0).detectionNoted ch k hard := by
    subst hp
    exact Mach.detect_due (m := s.at cyc) hslot hlevel hlatch
  obtain ⟨g, c, hgate, hg, -, hflt, hshown⟩ := (s.at cyc).latchPair_spec hp16 (code := code) (by split at hcode <;> omega)
    (!low) low true
  have htells : (s.at cyc).FocTells [Reg.GDI_FAULT, Reg.GDI_PR_STAT p, Reg.GDI_PR_CNT p, Reg.GDI_OVSTAT] [] latched :=
    (Mach.FocTells.refl (s.at cyc) _).latchPair hp16 (by simp) (by simp) (by simp) _ _ _ _
  have hlrd : latched.rd (Reg.GDI_PR_CNT p) = s.m.rd (Reg.GDI_PR_CNT p) :=
    ((Mach.FocTells.refl (s.at cyc) [Reg.GDI_FAULT, Reg.GDI_PR_STAT p, Reg.GDI_OVSTAT]).latchPair hp16 (by simp) (by simp)
      (by simp) _ _ _ _).rd _ (by simpa using hcnt)
  obtain ⟨t, ht, hm, hregs, hmem, hev⟩ := run_tells (s := s) (cyc := cyc) (f := fun m => m.detect ch mv ns)
    (by rw [hdue]; exact (htells.setFld (by simp) (powerStageReg_prCnt hp16) ..).onGate _)
  rw [hdue] at hm
  have hother : ∀ b, b ≠ Reg.GDI_PR_CNT p → t.m.rd b = latched.rd b := fun b hb => by
    rw [hm, Mach.settle_rd]
    exact (Mach.rd_setFld ..).trans (if_neg hb)
  have hpair : t.m.gate.pairs = latched.gate.pairs := by rw [hm]; rfl
  refine ⟨t, g, ht, ?_, fun x => ?_, ?_, ?_, ?_, ?_, ?_, hregs, hmem, hev⟩
  · rw [hpair, hgate]
    rfl
  · obtain ⟨hh, hl⟩ := hg x
    exact ⟨hh.trans (by rw [hlow, not_odd_eq_even]), hl⟩
  · rw [Mach.bit, hother _ hcnt.1.symm, Mach.pair, hpair]
    exact hshown
  · rw [Mach.fld, hother _ hcnt.2.1.symm]
    exact hflt
  · rw [hm, Mach.settle_fld]
    refine (latched.fld_incSat (by omega) (by omega)).trans ?_
    rw [Mach.fld, hlrd]
    rfl
  · rw [hm]
    change latched.gate.held ||| 2 ^ k = _
    rw [hgate]
    rfl
  · have hnow : latched.now = (s.at cyc).now := htells.now
    rw [hm]
    change latched.gate.detections ++ [⟨k, ch.val / 2, ch, hard, latched.now, latched.time.cyc⟩] = _
    rw [hgate, hnow, htells.cyc, hp]
    rfl

/-! ### The classification (R200, R201) -/

/-- The slot's detections are taken, and the slot stays held. -/
def Mach.detectionsTaken (k : Nat) : Mach :=
  m.onGate fun g => { g with detections := g.detections.filter fun x => x.slot != k, held := g.held ||| 2 ^ k }

section
variable {m} {k : Nat}

theorem Mach.classify_nothing
    (h : ∀ d, (m.gate.detections.filter (·.slot == k)).head? = some d → m.now < d.at_ + 50) : m.classify k = m := by
  unfold Mach.classify
  dsimp only
  split
  next => rfl
  next d _ hmine => exact if_pos (h d (by rw [hmine]; rfl))

variable {d : Detection} {ds : List Detection} (hmine : m.gate.detections.filter (·.slot == k) = d :: ds) (hdue : d.at_ + 50 ≤ m.now)
include hmine hdue

/-- What is detected within 25 ns of the first is one short circuit; what comes later is told by itself. -/
theorem Mach.classify_due {near rest : List Detection} (hnear : (d :: ds).filter (fun x => decide (x.at_ ≤ d.at_ + 50)) = near)
    (hrest : (d :: ds).filter (fun x => !decide (x.at_ ≤ d.at_ + 50)) = rest) :
    m.classify k = forL rest (fun x m => m.singleShort k x)
      (if (near.map (·.pair)).dedup.length ≤ 1 then (m.detectionsTaken k).singleShort k d
        else (m.detectionsTaken k).legToLeg k (near.map (·.pair)).dedup) := by
  unfold Mach.classify
  dsimp only
  rw [hmine]
  dsimp only
  rw [if_neg (Nat.not_lt.2 hdue), hnear, hrest]
  rfl

theorem Mach.classify_single (hds : ds = []) : m.classify k = (m.detectionsTaken k).singleShort k d := by
  subst hds
  rw [Mach.classify_due hmine hdue (near := [d]) (rest := []) (by simp) (by simp)]
  rfl

theorem Mach.classify_late {e : Detection} (hds : ds = [e]) (hlate : d.at_ + 50 < e.at_) :
    m.classify k = ((m.detectionsTaken k).singleShort k d).singleShort k e := by
  subst hds
  rw [Mach.classify_due hmine hdue (near := [d]) (rest := [e]) (by simpa using hlate) (by simpa using hlate)]
  rfl

theorem Mach.classify_legToLeg {ps : List Nat} (hnear : ∀ x ∈ d :: ds, x.at_ ≤ d.at_ + 50)
    (hps : ps = ((d :: ds).map (·.pair)).dedup) (hlen : 2 ≤ ps.length) : m.classify k = (m.detectionsTaken k).legToLeg k ps := by
  rw [Mach.classify_due hmine hdue (near := d :: ds) (rest := []) (List.filter_eq_self.2 fun x hx => decide_eq_true (hnear x hx))
    (List.filter_eq_nil_iff.2 fun x hx => by simpa using hnear x hx), ← hps, if_neg (by omega)]
  rfl
end

/-- The event and the data of a short circuit that stands alone. -/
abbrev Detection.code (d : Detection) : Nat := if d.hard then 0x1C02 else 0x1C01
abbrev Detection.data (d : Detection) : List Nat := d.ch :: leBytes 2 d.cyc

theorem exec_shortCircuitClassify_single {s : State} {cyc : Nat} {k : Fin 16} {d : Detection}
    (hmine : s.m.gate.detections.filter (·.slot == k.val) = [d]) (hdue : d.at_ + 50 ≤ (s.at cyc).now) (hroom : s.roomy) :
    ∃ t, exec (.shortCircuitClassify cyc k) s = .next t ∧ SlotFault s t cyc d.code k d.data ∧
      t.m.gate.detections = s.m.gate.detections.filter (·.slot != k.val) ∧ t.m.gate.pairs = s.m.gate.pairs ∧
      t.m.rd Reg.GDI_IRQ_STAT = s.m.rd Reg.GDI_IRQ_STAT ||| 1#32 ∧ SameRegsBut s t [Reg.GDI_IRQ_STAT] ∧ SameMemory s t := by
  obtain ⟨t, ht, hgate, hrd, hfault, hframe⟩ := run_slotFault (s := s) (cyc := cyc) (f := fun m => m.classify k)
    (m := (s.at cyc).detectionsTaken k) (regs := [Reg.GDI_IRQ_STAT]) ((Mach.FocTells.refl _ _).onGate _) rfl hroom
    List.mem_cons_self (by decide) (Mach.classify_single (m := s.at cyc) hmine hdue rfl)
  exact ⟨t, ht, hfault, by rw [hgate]; rfl, by rw [hgate]; rfl, (hrd _).trans (if_pos rfl), hframe⟩

/-- A short circuit that stands alone tells its event, and its cause waits. -/
theorem Mach.FocTells.singleShort {m m' : Mach} {es : List Event} {n : Nat} (h : m.FocTells [Reg.GDI_IRQ_STAT] es m')
    (hfew : m'.FewWait n) (hn : n < 32) (k : Nat) (d : Detection) :
    m.FocTells [Reg.GDI_IRQ_STAT] (es ++ [eventAt m d.code 3 k d.data 0]) (m'.singleShort k d) :=
  (Mach.FocTells.raiseF3 hfew hn _ _ _ h).orr List.mem_cons_self (by decide) 1

theorem Mach.FewWait.singleShort {m : Mach} {n : Nat} (h : m.FewWait n) (hn : n < 32) (k : Nat) (d : Detection) :
    (m.singleShort k d).FewWait (n + 1) ∧ (m.singleShort k d).gate = m.gate := by
  obtain ⟨hbare, hfew⟩ := h.raiseF3 hn d.code k d.data
  exact ⟨⟨hbare, hfew⟩, h.raiseF3_gate hn d.code k d.data⟩

theorem exec_shortCircuitClassify_late {s : State} {cyc : Nat} {k : Fin 16} {d e : Detection}
    (hmine : s.m.gate.detections.filter (·.slot == k.val) = [d, e]) (hdue : d.at_ + 50 ≤ (s.at cyc).now)
    (hlate : d.at_ + 50 < e.at_) (hroom : s.roomy) :
    ∃ t, exec (.shortCircuitClassify cyc k) s = .next t ∧
      Raises s t [eventAt (s.at cyc) d.code 3 k d.data 0, eventAt (s.at cyc) e.code 3 k e.data 0] ∧
      t.m.gate.detections = s.m.gate.detections.filter (·.slot != k.val) ∧ t.m.gate.pairs = s.m.gate.pairs ∧
      SameRegsBut s t [Reg.GDI_IRQ_STAT] ∧ SameMemory s t := by
  have hf := Mach.classify_late (m := s.at cyc) hmine hdue rfl hlate
  have hnone : ((s.at cyc).detectionsTaken k).FewWait 0 :=
    Mach.FewWait.of_nil (m := (s.at cyc).detectionsTaken k) hroom 0
  obtain ⟨hone, hgate₁⟩ := hnone.singleShort (by decide) k d
  obtain ⟨-, hgate₂⟩ := hone.singleShort (by decide) k e
  have htells := (((Mach.FocTells.refl (s.at cyc) _).onGate _).singleShort hnone (by decide) k d).singleShort hone (by decide) k e
  obtain ⟨t, ht, hm, hregs, hmem, hev⟩ := run_tells (s := s) (cyc := cyc) (f := fun m => m.classify k) (by rw [hf]; exact htells)
  have hgate : t.m.gate = ((s.at cyc).detectionsTaken k).gate := by rw [hm, Mach.settle_gate, hf, hgate₂, hgate₁]
  exact ⟨t, ht, hev, by rw [hgate]; rfl, by rw [hgate]; rfl, hregs, hmem⟩

/-! ### Leg to leg (R201) -/

/-- Every channel of the listed pairs latches. -/
def Mach.allLatch (ps : List Nat) : Mach := forL ps (fun p m => m.latchPair p true true 3 true) m

theorem Mach.allLatch_spec {ps : List Nat} (hps : ∀ p ∈ ps, p < 16) :
    ∃ x c, (m.allLatch ps).gate = { m.gate with pairs := x, clamped := c } ∧ (m.allLatch ps).lane = m.lane ∧
      x.length = m.gate.pairs.length ∧ ∀ p < m.gate.pairs.length, p ∈ ps ∨ ((m.pair p).latchH = true ∧ (m.pair p).latchL = true) →
        (nth x p).latchH = true ∧ (nth x p).latchL = true := by
  induction ps generalizing m with
  | nil => exact ⟨_, _, rfl, rfl, rfl, fun p _ h => h.resolve_left List.not_mem_nil⟩
  | cons q ps ih =>
    obtain ⟨g, c, hgate, hg, hlane, -, -⟩ := m.latchPair_spec (hps q List.mem_cons_self) (code := 3) (by decide) true true true
    have hlen : (m.latchPair q true true 3 true).gate.pairs.length = m.gate.pairs.length := by
      rw [hgate]
      exact List.length_modify ..
    obtain ⟨x, c', hgate', hlane', hlen', hlatch⟩ :=
      ih (m := m.latchPair q true true 3 true) fun p hp => hps p (List.mem_cons_of_mem _ hp)
    refine ⟨x, c', ?_, hlane'.trans hlane, hlen'.trans hlen, fun p hp h => hlatch p (by rwa [hlen]) ?_⟩
    · exact hgate'.trans (by rw [hgate])
    · have hpair : (m.latchPair q true true 3 true).pair p = if p = q ∧ q < m.gate.pairs.length then g (m.pair q) else m.pair p := by
        rw [Mach.pair, hgate]
        exact nth_upd ..
      rw [hpair, List.mem_cons] at *
      by_cases hpq : p = q
      · subst hpq
        rw [if_pos ⟨rfl, hp⟩, (hg _).1, (hg _).2]
        exact .inr ⟨Bool.or_true _, Bool.or_true _⟩
      · rw [if_neg fun hx => hpq hx.1]
        exact h.imp_left fun hx => hx.resolve_left hpq

theorem Mach.FocTells.allLatch {m m' : Mach} {regs : List Nat} {es : List Event} (h : m.FocTells regs es m')
    (hfault : Reg.GDI_FAULT ∈ regs) (hov : Reg.GDI_OVSTAT ∈ regs) {ps : List Nat}
    (hps : ∀ p ∈ ps, p < 16 ∧ Reg.GDI_PR_STAT p ∈ regs) : m.FocTells regs es (m'.allLatch ps) :=
  forL_induct (fun p hp _ h => h.latchPair (hps p hp).1 hfault (hps p hp).2 hov true true 3 true) h

theorem Mach.lt_of_mem_pairsOf {m : Mach} {k p : Nat} (h : p ∈ m.pairsOf k) : p < 16 := List.mem_range.1 (List.mem_filter.1 h).1

theorem exec_shortCircuitClassify_legToLeg {s : State} {cyc : Nat} {k : Fin 16} {d : Detection} {mine : List Detection} {ps : List Nat}
    (hmine : mine = s.m.gate.detections.filter (·.slot == k.val)) (hd : mine.head? = some d) (hdue : d.at_ + 50 ≤ (s.at cyc).now)
    (hnear : ∀ x ∈ mine, x.at_ ≤ d.at_ + 50) (hps : ps = (mine.map (·.pair)).dedup) (hlen : 2 ≤ ps.length) (hroom : s.roomy) :
    ∃ t, exec (.shortCircuitClassify cyc k) s = .next t ∧ SlotFault s t cyc 0x1C03 k (leBytes 2 (ps.map (2 ^ ·)).sum) ∧
      (∀ p ∈ s.m.pairsOf k, p < s.m.gate.pairs.length → (t.m.pair p).latchH = true ∧ (t.m.pair p).latchL = true) ∧
      t.m.gate.detections = s.m.gate.detections.filter (·.slot != k.val) ∧ t.m.gate.l2l = s.m.gate.l2l ||| 2 ^ k.val ∧
      t.m.bit Reg.GDI_IRQ_STAT 1 = true ∧
      SameRegsBut s t (Reg.GDI_IRQ_STAT :: Reg.GDI_FAULT :: Reg.GDI_OVSTAT :: (List.range 16).map Reg.GDI_PR_STAT) ∧
      SameMemory s t := by
  obtain ⟨ds, rfl⟩ := List.head?_eq_some_iff.1 hd
  have hf := Mach.classify_legToLeg (m := s.at cyc) hmine.symm hdue hnear hps hlen
  have hlt : ∀ p ∈ s.m.pairsOf k, p < 16 := fun p hp => Mach.lt_of_mem_pairsOf hp
  set taken := (s.at cyc).detectionsTaken k with htaken
  obtain ⟨x, c, hgate, hlane, -, hlatch⟩ := taken.allLatch_spec hlt
  obtain ⟨t, ht, htgate, hrd, hfault, hframe⟩ := run_slotFault (s := s) (cyc := cyc) (f := fun m => m.classify k)
    (m := (taken.allLatch (s.m.pairsOf k)).onGate fun g => { g with l2l := g.l2l ||| 2 ^ k.val })
    (regs := Reg.GDI_IRQ_STAT :: Reg.GDI_FAULT :: Reg.GDI_OVSTAT :: (List.range 16).map Reg.GDI_PR_STAT) (a := Reg.GDI_IRQ_STAT)
    ((((Mach.FocTells.refl _ _).onGate _).allLatch (by simp) (by simp) fun p hp => ⟨hlt p hp, by
      simpa only [List.mem_cons] using .inr (.inr (.inr (List.mem_map_of_mem (List.mem_range.2 (hlt p hp)))))⟩).onGate _)
    hlane hroom (by simp) (by decide) hf
  refine ⟨t, ht, hfault, fun p hp hplen => ?_, ?_, ?_, ?_, hframe⟩
  · rw [Mach.pair, htgate]
    change (nth (taken.allLatch (s.m.pairsOf k)).gate.pairs p).latchH = _ ∧ (nth (taken.allLatch (s.m.pairsOf k)).gate.pairs p).latchL = _
    rw [hgate]
    exact hlatch p hplen (.inl hp)
  · rw [htgate, Mach.onGate_gate, hgate]
    rfl
  · rw [htgate, Mach.onGate_gate, hgate]
    rfl
  · rw [Mach.bit, hrd, if_pos rfl, Word.bit_or, show Word.bit (BitVec.ofNat 32 2) 1 = true from rfl, Bool.or_true]

/-- Settles O24: a detection by the slot, the level and the latch of its channel; the classification by what was detected within 25 ns
of the first. -/
theorem shortCircuitsLatchAndAreClassified : Obligations.ShortCircuitsLatchAndAreClassified :=
  ⟨fun _ _ _ _ _ _ _ _ hp hslot hlevel hlatch => exec_shortCircuitDetection_due hp hslot hlevel hlatch,
    fun cyc ch mv ns s h => by
      obtain ⟨t, ht, hm, hquiet⟩ := run_gate_nothing (f := fun m => m.detect ch mv ns) (Mach.detect_nothing (m := s.at cyc) h)
      exact ⟨t, ht, by rw [hm]; rfl, hquiet⟩,
    fun _ _ _ _ hmine hdue hroom => exec_shortCircuitClassify_single hmine hdue hroom,
    fun _ _ _ _ _ _ hmine hd hdue hnear hps hlen hroom => exec_shortCircuitClassify_legToLeg hmine hd hdue hnear hps hlen hroom,
    fun _ _ _ _ _ hmine hdue hlate hroom => exec_shortCircuitClassify_late hmine hdue hlate hroom,
    fun cyc k s h => by
      obtain ⟨t, ht, hm, hquiet⟩ := run_gate_nothing (f := fun m => m.classify k) (Mach.classify_nothing (m := s.at cyc) h)
      exact ⟨t, ht, by rw [hm]; rfl, hquiet⟩⟩

end Sys2Proof.Machine
end

section
/-! Clears of GDI_CLR and GDL_CLR (R203, R209, R221): what the clear of one pair and of one leg does, and the clears that a write
names. -/

namespace Sys2Proof.Machine

variable (m : Mach)

/-! ### The bits that a write names -/

theorem mem_bitsOf {n mask i : Nat} : i ∈ bitsOf n mask ↔ i < n ∧ mask.testBit i = true := by
  rw [bitsOf, List.mem_filter, List.mem_range]

theorem mem_bitsOf_bits {n : Nat} (v : Word) {i : Nat} (hi : i < n + 1) : i ∈ bitsOf (n + 1) (v.bits n 0) ↔ v.bit i = true := by
  rw [mem_bitsOf, Word.testBit_bits]
  simp [hi]

theorem bitsOf_pair : ∀ p : Fin 16, bitsOf 16 (Word.bits (BitVec.ofNat 32 (2 ^ p.val)) 15 0) = [p.val] := by decide

theorem bitsOf_leg : ∀ j : Fin 24, bitsOf 24 (Word.bits (BitVec.ofNat 32 (2 ^ j.val)) 23 0) = [j.val] := by decide

/-! ### The last accepted frame (R203) -/

/-- The last frame accepted for the slot was one to a safe state. -/
def Mach.lastSafe (k : Nat) : Bool := (m.lastAccepted k).any Frame.safe

theorem Mach.lastSafe_iff (k : Nat) : m.lastSafe k = true ↔ ∃ f, m.lastAccepted k = some f ∧ f.safe = true := by
  simp [Mach.lastSafe, Option.any_eq_true]

/-! ### The clear of a pair (R203, R219) -/

/-- The pair without latches. -/
def GatePair.cleared (x : GatePair) : GatePair := { x with latchH := false, latchL := false, softH := none, softL := none }

/-- What a clear of the pair asks for. -/
structure Mach.Clearable (p : Nat) : Prop where
  quiet : m.gate.quiet.testBit p = true
  unlocked : m.bit Reg.GDI_FAULT (16 + p) = false
  safe : ∃ k, m.slotOfPair p = some k ∧ m.lastSafe k = true

/-- FLT of a pair that is shown again changes its register alone. -/
theorem Mach.showFlt_cases (p : Nat) : m.showFlt p = m ∨ ∃ v, m.showFlt p = m.setFld (Reg.GDI_PR_STAT p) 12 10 v := by
  unfold Mach.showFlt
  dsimp only
  split
  · exact .inl rfl
  · exact .inr ⟨_, rfl⟩

theorem Mach.showFlt_gate (p : Nat) : (m.showFlt p).gate = m.gate := by
  rcases m.showFlt_cases p with h | ⟨v, h⟩
  · rw [h]
  · rw [h]
    rfl

theorem Mach.showFlt_lane (p : Nat) : (m.showFlt p).lane = m.lane := by
  rcases m.showFlt_cases p with h | ⟨v, h⟩
  · rw [h]
  · rw [h]
    rfl

theorem Mach.FocTells.showFlt {m m' : Mach} {regs : List Nat} {es : List Event} (h : m.FocTells regs es m') {p : Nat} (hp : p < 16)
    (hstat : Reg.GDI_PR_STAT p ∈ regs) : m.FocTells regs es (m'.showFlt p) := by
  rcases m'.showFlt_cases p with hc | ⟨v, hc⟩
  · rwa [hc]
  · rw [hc]
    exact h.setFld hstat (powerStageReg_prStat hp) ..

/-- The pair without latches, as its registers show it. -/
def Mach.pairCleared (p : Nat) : Mach := ((m.onPair p GatePair.cleared).showFlt p).showLatch p

section
variable {m} {p : Nat}

theorem Mach.clearPair_nothing (h : m.bit Reg.GDI_FAULT (16 + p) = true ∨ m.slotOfPair p = none) : m.clearPair p = m := by
  unfold Mach.clearPair
  split
  next => rfl
  next k hslot => exact if_pos (h.resolve_right (by simp [hslot]))

/-- The latches of the slot that end with the clear of its last channel (R202). -/
def Mach.slotCleared (m : Mach) (k : Nat) : Mach :=
  if (m.slotLatches k).1 || (m.slotLatches k).2 then m
  else m.onGate fun g => { g with l2l := g.l2l &&& (0xFFFF ^^^ 2 ^ k), moved := g.moved &&& (0xFFFF ^^^ 2 ^ k) }

theorem Mach.clearPair_of_unlocked {k : Nat} (hslot : m.slotOfPair p = some k) (hlock : m.bit Reg.GDI_FAULT (16 + p) = false) :
    m.clearPair p = if !m.lastSafe k || !m.gate.quiet.testBit p then m.raise 0x1C0E 0 k else (m.pairCleared p).slotCleared k := by
  unfold Mach.clearPair Mach.lastSafe
  rw [hslot]
  dsimp only
  rw [if_neg (by simp [hlock])]
  cases m.lastAccepted k <;> rfl

theorem Mach.clearPair_refused {k : Nat} (hslot : m.slotOfPair p = some k) (hlock : m.bit Reg.GDI_FAULT (16 + p) = false)
    (h : m.lastSafe k = false ∨ m.gate.quiet.testBit p = false) : m.clearPair p = m.raise 0x1C0E 0 k :=
  (Mach.clearPair_of_unlocked hslot hlock).trans (if_pos (by simpa using h))

/-- A clear that is taken. -/
theorem Mach.Clearable.clearPair_eq (h : m.Clearable p) :
    ∃ a b, m.clearPair p = (m.pairCleared p).onGate fun g => { g with l2l := a, moved := b } := by
  obtain ⟨hquiet, hlock, k, hslot, hsafe⟩ := h
  rw [Mach.clearPair_of_unlocked hslot hlock, if_neg (by simp [hsafe, hquiet]), Mach.slotCleared]
  split
  · exact ⟨(m.pairCleared p).gate.l2l, (m.pairCleared p).gate.moved, rfl⟩
  · exact ⟨_, _, rfl⟩
end

theorem Mach.pairCleared_gate (p : Nat) :
    (m.pairCleared p).gate = { m.gate with pairs := upd m.gate.pairs p GatePair.cleared } := Mach.showFlt_gate _ p

/-- GDI_FAULT shows the pair's latches, and its other bits stay. -/
theorem Mach.pairCleared_bit {p q : Nat} (hp : p < 16) :
    (m.pairCleared p).bit Reg.GDI_FAULT q =
      if q = p then ((m.onPair p GatePair.cleared).pair p).latchH || ((m.onPair p GatePair.cleared).pair p).latchL
      else m.bit Reg.GDI_FAULT q := by
  have hpair : ((m.onPair p GatePair.cleared).showFlt p).pair p = (m.onPair p GatePair.cleared).pair p := by
    rw [Mach.pair, Mach.showFlt_gate, Mach.pair]
  have hrd : ((m.onPair p GatePair.cleared).showFlt p).rd Reg.GDI_FAULT = m.rd Reg.GDI_FAULT :=
    (((Mach.FocTells.refl m [Reg.GDI_PR_STAT p]).onGate fun g => { g with pairs := upd g.pairs p GatePair.cleared }).showFlt hp
      List.mem_cons_self).rd _ (by rw [List.mem_singleton]; dsimp only [Reg.GDI_PR_STAT, Reg.GDI_FAULT]; omega)
  rw [Mach.pairCleared, Mach.showLatch, hpair]
  split
  case isTrue hq =>
    subst hq
    exact Mach.bit_setBit _ _ (by omega)
  case isFalse hq => rw [Mach.bit_setBit_other _ _ (by omega) (.inr hq), Mach.bit, hrd, Mach.bit]

theorem Mach.FocTells.pairCleared {m m' : Mach} {regs : List Nat} {es : List Event} (h : m.FocTells regs es m') {p : Nat}
    (hp : p < 16) (hstat : Reg.GDI_PR_STAT p ∈ regs) (hfault : Reg.GDI_FAULT ∈ regs) : m.FocTells regs es (m'.pairCleared p) :=
  ((h.onGate fun g => { g with pairs := upd g.pairs p GatePair.cleared }).showFlt hp hstat).setBit hfault (by decide) ..

/-- The registers that clears of pairs may change. -/
abbrev pairClearRegs : List Nat := Reg.GDI_FAULT :: (List.range 16).map Reg.GDI_PR_STAT

theorem prStat_mem_pairClearRegs {p : Nat} (hp : p < 16) : Reg.GDI_PR_STAT p ∈ pairClearRegs :=
  List.mem_cons_of_mem _ (List.mem_map_of_mem (List.mem_range.2 hp))

theorem prCfg_not_mem_pairClearRegs {p : Nat} (hp : p < 16) : Reg.GDI_PR_CFG p ∉ pairClearRegs := by
  have hfin : ∀ q : Fin 16, Reg.GDI_PR_CFG q ∉ pairClearRegs := by decide
  exact hfin ⟨p, hp⟩

/-- What clears of the pairs `ps` leave, where each is taken. -/
structure Mach.PairsCleared (ps : List Nat) (m' : Mach) : Prop where
  legs : m'.gate.legs = m.gate.legs
  quiet : m'.gate.quiet = m.gate.quiet
  lane : m'.lane = m.lane
  length : m'.gate.pairs.length = m.gate.pairs.length
  tells : m.FocTells pairClearRegs [] m'
  locks : ∀ p, 16 ≤ p → m'.bit Reg.GDI_FAULT p = m.bit Reg.GDI_FAULT p
  named : ∀ p ∈ ps, p < m.gate.pairs.length → (m'.pair p).latchH = false ∧ (m'.pair p).latchL = false ∧ m'.bit Reg.GDI_FAULT p = false
  other : ∀ p, p ∉ ps → m'.pair p = m.pair p ∧ m'.bit Reg.GDI_FAULT p = m.bit Reg.GDI_FAULT p

section
variable {m}

theorem Mach.Clearable.pairsCleared {p : Nat} (h : m.Clearable p) (hp : p < 16) : m.PairsCleared [p] (m.clearPair p) := by
  obtain ⟨a, b, heq⟩ := h.clearPair_eq
  have hpair : ∀ q, (m.clearPair p).pair q = if q = p ∧ p < m.gate.pairs.length then (m.pair p).cleared else m.pair q := fun q => by
    rw [heq]
    change nth (m.pairCleared p).gate.pairs q = _
    rw [m.pairCleared_gate p]
    exact nth_upd ..
  have hbit : ∀ q, (m.clearPair p).bit Reg.GDI_FAULT q = (m.pairCleared p).bit Reg.GDI_FAULT q := fun q => by
    rw [heq, Mach.onGate_bit]
  constructor
  case legs => rw [heq, Mach.onGate_gate, m.pairCleared_gate p]
  case quiet => rw [heq, Mach.onGate_gate, m.pairCleared_gate p]
  case lane => rw [heq]; exact Mach.showFlt_lane _ p
  case length =>
    rw [heq, Mach.onGate_gate, m.pairCleared_gate p]
    exact List.length_modify ..
  case tells =>
    rw [heq]
    exact ((Mach.FocTells.refl m _).pairCleared hp (prStat_mem_pairClearRegs hp) List.mem_cons_self).onGate _
  case locks => exact fun q hq => by rw [hbit, m.pairCleared_bit hp, if_neg (by omega)]
  case named =>
    intro q hq hlen
    obtain rfl := List.mem_singleton.1 hq
    have hcleared : (m.onPair q GatePair.cleared).pair q = (m.pair q).cleared := (m.pair_onPair q q _).trans (if_pos ⟨rfl, hlen⟩)
    rw [hpair, if_pos ⟨rfl, hlen⟩, hbit, m.pairCleared_bit hp, if_pos rfl, hcleared]
    exact ⟨rfl, rfl, rfl⟩
  case other =>
    intro q hq
    have hne : q ≠ p := List.mem_singleton.not.1 hq
    exact ⟨(hpair q).trans (if_neg fun hx => hne hx.1), by rw [hbit, m.pairCleared_bit hp, if_neg hne]⟩

theorem Mach.PairsCleared.trans {ps qs : List Nat} {m' m'' : Mach} (h : m.PairsCleared ps m') (h' : m'.PairsCleared qs m'') :
    m.PairsCleared (ps ++ qs) m'' where
  legs := h'.legs.trans h.legs
  quiet := h'.quiet.trans h.quiet
  lane := h'.lane.trans h.lane
  length := h'.length.trans h.length
  tells := h.tells.trans h'.tells
  locks p hp := (h'.locks p hp).trans (h.locks p hp)
  named p hp hlen := by
    by_cases hq : p ∈ qs
    · exact h'.named p hq (by rwa [h.length])
    · obtain ⟨hpair, hbit⟩ := h'.other p hq
      rw [hpair, hbit]
      exact h.named p ((List.mem_append.1 hp).resolve_right hq) hlen
  other p hp := by
    rw [List.mem_append, not_or] at hp
    obtain ⟨hpair, hbit⟩ := h'.other p hp.2
    obtain ⟨hpair', hbit'⟩ := h.other p hp.1
    exact ⟨hpair.trans hpair', hbit.trans hbit'⟩

theorem Mach.PairsCleared.clearable {ps : List Nat} {m' : Mach} (h : m.PairsCleared ps m') {p : Nat} (hp : p < 16)
    (hc : m.Clearable p) : m'.Clearable p := by
  obtain ⟨hquiet, hlock, k, hslot, hsafe⟩ := hc
  refine ⟨by rw [h.quiet, hquiet], by rw [h.locks _ (by omega), hlock], k, ?_, ?_⟩
  · rw [Mach.slotOfPair_congr (h.tells.rd _ (prCfg_not_mem_pairClearRegs hp)), hslot]
  · rw [Mach.lastSafe, Mach.lastAccepted, h.lane]
    exact hsafe

theorem Mach.pairsCleared_forL {ps : List Nat} (hlt : ∀ p ∈ ps, p < 16) (hc : ∀ p ∈ ps, m.Clearable p) :
    m.PairsCleared ps (forL ps (fun p m => m.clearPair p) m) := by
  induction ps generalizing m with
  | nil => exact ⟨rfl, rfl, rfl, rfl, .refl m _, fun _ _ => rfl, fun _ hp => absurd hp List.not_mem_nil, fun _ _ => ⟨rfl, rfl⟩⟩
  | cons p ps ih =>
    have hone := (hc p List.mem_cons_self).pairsCleared (hlt p List.mem_cons_self)
    exact hone.trans (ih (fun q hq => hlt q (List.mem_cons_of_mem _ hq))
      fun q hq => hone.clearable (hlt q (List.mem_cons_of_mem _ hq)) (hc q (List.mem_cons_of_mem _ hq)))
end

/-! ### The writes of GDI_CLR (R203, R302) -/

@[simp] theorem Mach.noted_gate (l : Lane) (a : Nat) (v : Word) : (m.noted l a v).gate = m.gate := by
  obtain ⟨f, hf⟩ := m.noted_eq_onLane l a v
  rw [hf, Mach.onLane_gate]

theorem Mach.FocTells.noted {m m' : Mach} {regs : List Nat} {es : List Event} (h : m.FocTells regs es m') (l : Lane) (a : Nat)
    (v : Word) : m.FocTells regs es (m'.noted l a v) := by
  obtain ⟨f, hf⟩ := m'.noted_eq_onLane l a v
  rw [hf]
  exact ⟨h.now, h.cyc, h.tick, h.stamp, h.rd, h.raised⟩

/-- The machine that the clears of a lone lane's write of GDI_CLR find. -/
def State.clearFinds (s : State) (cyc : Nat) (l : Lane) (v : Word) (q : BitVec 16) : Mach :=
  ((s.at cyc).onGate fun g => { g with quiet := q.toNat }).noted l Reg.GDI_CLR (v &&& 0xFFFF#32)

theorem State.clearFinds_tells (s : State) (cyc : Nat) (l : Lane) (v : Word) (q : BitVec 16) (regs : List Nat) :
    (s.at cyc).FocTells regs [] (s.clearFinds cyc l v q) := ((Mach.FocTells.refl (s.at cyc) regs).onGate _).noted ..

theorem State.clearFinds_gate (s : State) (cyc : Nat) (l : Lane) (v : Word) (q : BitVec 16) :
    (s.clearFinds cyc l v q).gate = { s.m.gate with quiet := q.toNat } := Mach.noted_gate ..

theorem State.clearFinds_lane (s : State) (cyc : Nat) (l : Lane) (v : Word) (q : BitVec 16) :
    (s.clearFinds cyc l v q).lane = s.m.lane := Mach.noted_lane ..

theorem exec_gdiClear_alone {s : State} {l : Lane} (hs : s.alone l) (cyc : Nat) (v : Word) (q : BitVec 16) :
    exec (.gdiClear cyc (.lane l) v q) s = run s cyc fun _ => (s.clearFinds cyc l v q).gdiClear (v.bits 15 0) := by
  have hroute : ((s.at cyc).onGate fun g => { g with quiet := q.toNat }).route l = .now := hs.route cyc
  change execGdiClear cyc (.lane l) v q s = _
  rw [execGdiClear, run_next, run_next]
  exact congrArg (fun m' : Mach => Host.Outcome.next ({ s with m := m'.settle } : State))
    (Mach.devWrite_now _ Reg.GDI_CLR (v &&& 0xFFFF#32) (fun m => m.gdiClear (v.bits 15 0)) hroute)

/-- The condition of a clear that is taken, on the state before the write. -/
theorem State.clearFinds_clearable {s : State} {p : Fin 16} {q : BitVec 16} (hq : q.getLsbD p = true)
    (hlock : s.m.bit Reg.GDI_FAULT (16 + p) = false)
    (hsafe : ∃ k f, s.m.slotOfPair p = some k ∧ s.m.lastAccepted k = some f ∧ f.safe = true) (cyc : Nat) (l : Lane) (v : Word) :
    (s.clearFinds cyc l v q).Clearable p := by
  obtain ⟨k, f, hslot, hlast, hf⟩ := hsafe
  have htells := s.clearFinds_tells cyc l v q []
  refine ⟨by rw [s.clearFinds_gate]; exact hq, ?_, k, ?_, ?_⟩
  · rw [Mach.bit, htells.rd _ List.not_mem_nil]
    exact hlock
  · rw [Mach.slotOfPair_congr (htells.rd _ List.not_mem_nil)]
    exact hslot
  · rw [Mach.lastSafe_iff, Mach.lastAccepted, s.clearFinds_lane]
    exact ⟨f, hlast, hf⟩

theorem exec_gdiClear_taken {s : State} {l : Lane} (hs : s.alone l) {v : Word} {q : BitVec 16}
    (h : ∀ p : Fin 16, v.bit p = true → q.getLsbD p = true ∧ s.m.bit Reg.GDI_FAULT (16 + p) = false ∧
      ∃ k f, s.m.slotOfPair p = some k ∧ s.m.lastAccepted k = some f ∧ f.safe = true) (cyc : Nat) :
    ∃ t, exec (.gdiClear cyc (.lane l) v q) s = .next t ∧
      (∀ p : Fin 16, v.bit p = true → p.val < s.m.gate.pairs.length →
        (t.m.pair p).latchH = false ∧ (t.m.pair p).latchL = false ∧ t.m.bit Reg.GDI_FAULT p = false) ∧
      (∀ p : Fin 16, v.bit p = false → t.m.pair p = s.m.pair p ∧ t.m.bit Reg.GDI_FAULT p = s.m.bit Reg.GDI_FAULT p) ∧
      t.m.gate.legs = s.m.gate.legs ∧ Quiet s t pairClearRegs := by
  set m₀ := s.clearFinds cyc l v q with hm₀
  have htells := s.clearFinds_tells cyc l v q pairClearRegs
  have hgate := s.clearFinds_gate cyc l v q
  have hcleared : m₀.PairsCleared _ (m₀.gdiClear (v.bits 15 0)) :=
    Mach.pairsCleared_forL (fun p hp => (mem_bitsOf.1 hp).1) fun p hp => by
      obtain ⟨hquiet, hlock, hsafe⟩ := h ⟨p, (mem_bitsOf.1 hp).1⟩ ((mem_bitsOf_bits v (mem_bitsOf.1 hp).1).1 hp)
      exact State.clearFinds_clearable (p := ⟨p, (mem_bitsOf.1 hp).1⟩) hquiet hlock hsafe cyc l v
  obtain ⟨t, ht, hm, hquiet⟩ := run_tells (s := s) (cyc := cyc) (f := fun _ => m₀.gdiClear (v.bits 15 0)) (htells.trans hcleared.tells)
  have hpair : ∀ p, t.m.pair p = (m₀.gdiClear (v.bits 15 0)).pair p := fun p => by rw [hm]; rfl
  have hbit : ∀ p, t.m.bit Reg.GDI_FAULT p = (m₀.gdiClear (v.bits 15 0)).bit Reg.GDI_FAULT p := fun p => by rw [hm, Mach.settle_bit]
  refine ⟨t, (exec_gdiClear_alone hs cyc v q).trans ht, fun p hp hlen => ?_, fun p hp => ?_, ?_, hquiet⟩
  · rw [hpair, hbit]
    exact hcleared.named p ((mem_bitsOf_bits v p.isLt).2 hp) (by rw [hm₀, hgate]; exact hlen)
  · obtain ⟨hother, hbits⟩ := hcleared.other p fun hin => by simp [(mem_bitsOf_bits v p.isLt).1 hin] at hp
    rw [hpair, hbit, hother, hbits, Mach.pair, hm₀, hgate, Mach.bit, (s.clearFinds_tells cyc l v q []).rd _ List.not_mem_nil]
    exact ⟨rfl, rfl⟩
  · rw [hm]
    exact hcleared.legs.trans (by rw [hm₀, hgate])

/-- A write that names one pair. -/
theorem exec_gdiClear_one {s : State} {l : Lane} (hs : s.alone l) (p : Fin 16) (cyc : Nat) (q : BitVec 16) :
    exec (.gdiClear cyc (.lane l) (BitVec.ofNat 32 (2 ^ p.val)) q) s =
      run s cyc fun _ => (s.clearFinds cyc l (BitVec.ofNat 32 (2 ^ p.val)) q).clearPair p := by
  rw [exec_gdiClear_alone hs, Mach.gdiClear, bitsOf_pair p]
  rfl

theorem exec_gdiClear_refused {s : State} {l : Lane} (hs : s.alone l) {p : Fin 16} {k : Nat} {q : BitVec 16}
    (hslot : s.m.slotOfPair p = some k) (hlock : s.m.bit Reg.GDI_FAULT (16 + p) = false)
    (h : (∀ f, s.m.lastAccepted k = some f → f.safe = false) ∨ q.getLsbD p = false) (cyc : Nat) :
    ∃ t, exec (.gdiClear cyc (.lane l) (BitVec.ofNat 32 (2 ^ p.val)) q) s = .next t ∧ t.m.gate.pairs = s.m.gate.pairs ∧
      Raises s t [eventAt (s.at cyc) 0x1C0E 0 k [] 0] ∧ SameRegsBut s t [] ∧ SameMemory s t := by
  set m₀ := s.clearFinds cyc l (BitVec.ofNat 32 (2 ^ p.val)) q with hm₀
  have htells : (s.at cyc).FocTells [] [] m₀ := s.clearFinds_tells cyc l _ q []
  have hgate : m₀.gate = _ := s.clearFinds_gate cyc l _ q
  have hslot' : m₀.slotOfPair p = some k := (Mach.slotOfPair_congr (htells.rd _ List.not_mem_nil)).trans hslot
  have hlock' : m₀.bit Reg.GDI_FAULT (16 + p) = false := by rwa [Mach.bit, htells.rd _ List.not_mem_nil]
  have hrefused := Mach.clearPair_refused hslot' hlock' (h.imp (fun hsafe => by
    rw [← Bool.not_eq_true, Mach.lastSafe_iff, Mach.lastAccepted, s.clearFinds_lane]
    rintro ⟨f, hlast, hf⟩
    simp [hsafe f hlast] at hf) fun hq => by rw [hgate]; exact hq)
  obtain ⟨t, ht, hm, hregs, hmem, hev⟩ := run_tells (s := s) (cyc := cyc) (f := fun _ => m₀.clearPair p)
    (by rw [hrefused]; exact htells.raise 0x1C0E 0 k [] 0)
  refine ⟨t, (exec_gdiClear_one hs p cyc q).trans ht, ?_, hev, hregs, hmem⟩
  rw [hm, Mach.settle_gate, hrefused, Mach.raise_gate, hgate]

theorem exec_gdiClear_nothing {s : State} {l : Lane} (hs : s.alone l) {p : Fin 16}
    (h : s.m.bit Reg.GDI_FAULT (16 + p) = true ∨ s.m.slotOfPair p = none) (cyc : Nat) (q : BitVec 16) :
    ∃ t, exec (.gdiClear cyc (.lane l) (BitVec.ofNat 32 (2 ^ p.val)) q) s = .next t ∧ t.m.gate.pairs = s.m.gate.pairs ∧
      Quiet s t [] := by
  set m₀ := s.clearFinds cyc l (BitVec.ofNat 32 (2 ^ p.val)) q with hm₀
  have htells : (s.at cyc).FocTells [] [] m₀ := s.clearFinds_tells cyc l _ q []
  have hnothing : m₀.clearPair p = m₀ := Mach.clearPair_nothing (h.imp
    (fun hlock => by rwa [Mach.bit, htells.rd _ List.not_mem_nil])
    fun hslot => (Mach.slotOfPair_congr (htells.rd _ List.not_mem_nil)).trans hslot)
  obtain ⟨t, ht, hm, hquiet⟩ := run_tells (s := s) (cyc := cyc) (f := fun _ => m₀.clearPair p) (by rw [hnothing]; exact htells)
  refine ⟨t, (exec_gdiClear_one hs p cyc q).trans ht, ?_, hquiet⟩
  rw [hm, Mach.settle_gate, hnothing, hm₀, s.clearFinds_gate]

end Sys2Proof.Machine
end

section
/-! Clears of low-voltage legs (R203, R209, R221): what the clear of one leg does, and the clears that a write of GDL_CLR names. -/

namespace Sys2Proof.Machine

variable (m : Mach)

/-! ### The clear of a leg -/

/-- The leg without its latch. -/
def GateLeg.cleared (x : GateLeg) : GateLeg := { x with latch := false }

/-- What a clear of the leg asks for. -/
structure Mach.LegClearable (j : Nat) : Prop where
  good : m.gate.good.testBit j = true
  safe : ∃ k, m.slotOfLeg j = some k ∧ m.lastSafe k = true

/-- FLT of a leg that is shown again changes its register alone. -/
theorem Mach.showLegFlt_cases (j : Nat) : m.showLegFlt j = m ∨ ∃ v, m.showLegFlt j = m.setFld (Reg.GDL_LEG_STAT j) 28 26 v := by
  unfold Mach.showLegFlt
  dsimp only
  split
  · exact .inl rfl
  · exact .inr ⟨_, rfl⟩

theorem Mach.showLegFlt_rd_other {j b : Nat} (hb : b ≠ Reg.GDL_LEG_STAT j) : (m.showLegFlt j).rd b = m.rd b := by
  rcases m.showLegFlt_cases j with h | ⟨v, h⟩
  · rw [h]
  · rw [h, Mach.rd_setFld, if_neg hb]

theorem Mach.showLegFlt_bit_other {j i : Nat} (h : i < 26 ∨ 28 < i) (b : Nat) : (m.showLegFlt j).bit b i = m.bit b i := by
  rcases m.showLegFlt_cases j with hc | ⟨v, hc⟩
  · rw [hc]
  · rw [hc, Mach.bit_setFld_other _ _ (by omega) (by omega) (.inr h)]

theorem legStat_ne {i j : Nat} (h : i ≠ j) : Reg.GDL_LEG_STAT i ≠ Reg.GDL_LEG_STAT j := by dsimp only [Reg.GDL_LEG_STAT]; omega

theorem gdlFault_ne_legStat (j : Nat) : Reg.GDL_FAULT ≠ Reg.GDL_LEG_STAT j := by dsimp only [Reg.GDL_FAULT, Reg.GDL_LEG_STAT]; omega

/-- The leg without its latch, as its registers show it. -/
def Mach.legCleared (j : Nat) : Mach :=
  (((m.onLeg j GateLeg.cleared).setBit Reg.GDL_FAULT j false).setBit (Reg.GDL_LEG_STAT j) 29 false).showLegFlt j

section
variable {m} {j : Nat}

theorem Mach.clearLeg_of_slot {k : Nat} (hslot : m.slotOfLeg j = some k) :
    m.clearLeg j = if !m.lastSafe k || !m.gate.good.testBit j then m else m.legCleared j := by
  unfold Mach.clearLeg Mach.lastSafe
  rw [hslot]
  dsimp only
  cases m.lastAccepted k <;> rfl

theorem Mach.clearLeg_refused (h : m.gate.good.testBit j = false ∨ ∀ k, m.slotOfLeg j = some k → m.lastSafe k = false) :
    m.clearLeg j = m := by
  cases hslot : m.slotOfLeg j with
  | none => rw [Mach.clearLeg, hslot]
  | some k => exact (Mach.clearLeg_of_slot hslot).trans (if_pos (by simpa [hslot, or_comm] using h))

theorem Mach.LegClearable.clearLeg_eq (h : m.LegClearable j) : m.clearLeg j = m.legCleared j := by
  obtain ⟨hgood, k, hslot, hsafe⟩ := h
  exact (Mach.clearLeg_of_slot hslot).trans (if_neg (by simp [hsafe, hgood]))
end

/-- The registers that clears of legs may change. -/
abbrev legClearRegs : List Nat := Reg.GDL_FAULT :: (List.range 24).map Reg.GDL_LEG_STAT

theorem legStat_mem_legClearRegs {j : Nat} (hj : j < 24) : Reg.GDL_LEG_STAT j ∈ legClearRegs :=
  List.mem_cons_of_mem _ (List.mem_map_of_mem (List.mem_range.2 hj))

theorem legCfg_not_mem_legClearRegs {j : Nat} (hj : j < 24) : Reg.GDL_LEG_CFG j ∉ legClearRegs := by
  have hfin : ∀ i : Fin 24, Reg.GDL_LEG_CFG i ∉ legClearRegs := by decide
  exact hfin ⟨j, hj⟩

/-- What clears of the legs `js` leave, where each is taken. -/
structure Mach.LegsCleared (js : List Nat) (m' : Mach) : Prop where
  pairs : m'.gate.pairs = m.gate.pairs
  good : m'.gate.good = m.gate.good
  lane : m'.lane = m.lane
  length : m'.gate.legs.length = m.gate.legs.length
  tells : m.FocTells legClearRegs [] m'
  named : ∀ j ∈ js, m'.bit Reg.GDL_FAULT j = false ∧ m'.bit (Reg.GDL_LEG_STAT j) 29 = false ∧
    (j < m.gate.legs.length → m'.leg j = (m.leg j).cleared)
  other : ∀ j, j ∉ js → m'.leg j = m.leg j ∧ m'.bit Reg.GDL_FAULT j = m.bit Reg.GDL_FAULT j ∧
    m'.rd (Reg.GDL_LEG_STAT j) = m.rd (Reg.GDL_LEG_STAT j)

theorem Mach.legCleared_gate (j : Nat) : (m.legCleared j).gate = { m.gate with legs := upd m.gate.legs j GateLeg.cleared } := by
  rcases Mach.showLegFlt_cases (((m.onLeg j GateLeg.cleared).setBit Reg.GDL_FAULT j false).setBit (Reg.GDL_LEG_STAT j) 29 false) j
    with h | ⟨v, h⟩
  · rw [Mach.legCleared, h]
    rfl
  · rw [Mach.legCleared, h]
    rfl

theorem Mach.legCleared_lane (j : Nat) : (m.legCleared j).lane = m.lane := by
  rcases Mach.showLegFlt_cases (((m.onLeg j GateLeg.cleared).setBit Reg.GDL_FAULT j false).setBit (Reg.GDL_LEG_STAT j) 29 false) j
    with h | ⟨v, h⟩
  · rw [Mach.legCleared, h]
    rfl
  · rw [Mach.legCleared, h]
    rfl

theorem Mach.focTells_legCleared {j : Nat} (hj : j < 24) : m.FocTells legClearRegs [] (m.legCleared j) := by
  have hset := (((Mach.FocTells.refl m legClearRegs).onGate fun g => { g with legs := upd g.legs j GateLeg.cleared }).setBit
    List.mem_cons_self (by decide) j false).setBit (legStat_mem_legClearRegs hj) (powerStageReg_legStat hj) 29 false
  rcases Mach.showLegFlt_cases (((m.onLeg j GateLeg.cleared).setBit Reg.GDL_FAULT j false).setBit (Reg.GDL_LEG_STAT j) 29 false) j
    with h | ⟨v, h⟩
  · rw [Mach.legCleared, h]
    exact hset
  · rw [Mach.legCleared, h]
    exact hset.setFld (legStat_mem_legClearRegs hj) (powerStageReg_legStat hj) ..

theorem Mach.legsCleared_one {j : Nat} (hj : j < 24) : m.LegsCleared [j] (m.legCleared j) := by
  have hleg : ∀ i, (m.legCleared j).leg i = if i = j ∧ j < m.gate.legs.length then (m.leg j).cleared else m.leg i := fun i => by
    rw [Mach.leg, m.legCleared_gate j]
    exact nth_upd ..
  constructor
  case pairs => rw [m.legCleared_gate j]
  case good => rw [m.legCleared_gate j]
  case lane => exact m.legCleared_lane j
  case length =>
    rw [m.legCleared_gate j]
    exact List.length_modify ..
  case tells => exact m.focTells_legCleared hj
  case named =>
    intro i hi
    obtain rfl := List.mem_singleton.1 hi
    refine ⟨?_, ?_, fun hlen => (hleg i).trans (if_pos ⟨rfl, hlen⟩)⟩
    · rw [Mach.legCleared, Mach.bit, Mach.showLegFlt_rd_other _ (gdlFault_ne_legStat i)]
      change (Mach.setBit _ _ _ _).bit _ _ = _
      rw [Mach.bit_setBit_other _ _ (by omega) (.inl (gdlFault_ne_legStat i)), Mach.bit_setBit _ _ (by omega)]
    · rw [Mach.legCleared, Mach.showLegFlt_bit_other _ (.inr (by omega)), Mach.bit_setBit _ _ (by omega)]
  case other =>
    intro i hi
    have hne : i ≠ j := List.mem_singleton.not.1 hi
    refine ⟨(hleg i).trans (if_neg fun hx => hne hx.1), ?_, ?_⟩
    · rw [Mach.legCleared, Mach.bit, Mach.showLegFlt_rd_other _ (gdlFault_ne_legStat j)]
      change (Mach.setBit _ _ _ _).bit _ _ = _
      rw [Mach.bit_setBit_other _ _ (by omega) (.inl (gdlFault_ne_legStat j)), Mach.bit_setBit_other _ _ (by omega) (.inr hne)]
      rfl
    · rw [Mach.legCleared, Mach.showLegFlt_rd_other _ (legStat_ne hne), Mach.rd_setBit, if_neg (legStat_ne hne), Mach.rd_setBit,
        if_neg (gdlFault_ne_legStat i).symm]
      rfl

section
variable {m}

theorem Mach.LegsCleared.trans {is js : List Nat} {m' m'' : Mach} (h : m.LegsCleared is m') (h' : m'.LegsCleared js m'') :
    m.LegsCleared (is ++ js) m'' where
  pairs := h'.pairs.trans h.pairs
  good := h'.good.trans h.good
  lane := h'.lane.trans h.lane
  length := h'.length.trans h.length
  tells := h.tells.trans h'.tells
  named j hj := by
    by_cases hjs : j ∈ js
    · obtain ⟨hfault, hstat, hleg⟩ := h'.named j hjs
      refine ⟨hfault, hstat, fun hlen => (hleg (by rwa [h.length])).trans ?_⟩
      by_cases his : j ∈ is
      · rw [(h.named j his).2.2 hlen]
        rfl
      · rw [(h.other j his).1]
    · obtain ⟨hleg, hfault, hstat⟩ := h'.other j hjs
      have hbit : m''.bit (Reg.GDL_LEG_STAT j) 29 = m'.bit (Reg.GDL_LEG_STAT j) 29 := by rw [Mach.bit, hstat, Mach.bit]
      rw [hleg, hfault, hbit]
      exact h.named j ((List.mem_append.1 hj).resolve_right hjs)
  other j hj := by
    rw [List.mem_append, not_or] at hj
    obtain ⟨hleg, hfault, hstat⟩ := h'.other j hj.2
    obtain ⟨hleg', hfault', hstat'⟩ := h.other j hj.1
    exact ⟨hleg.trans hleg', hfault.trans hfault', hstat.trans hstat'⟩

theorem Mach.LegsCleared.clearable {js : List Nat} {m' : Mach} (h : m.LegsCleared js m') {j : Nat} (hj : j < 24)
    (hc : m.LegClearable j) : m'.LegClearable j := by
  obtain ⟨hgood, k, hslot, hsafe⟩ := hc
  refine ⟨by rw [h.good, hgood], k, ?_, ?_⟩
  · rw [Mach.slotOfLeg_congr (h.tells.rd _ (legCfg_not_mem_legClearRegs hj)), hslot]
  · rw [Mach.lastSafe, Mach.lastAccepted, h.lane]
    exact hsafe

theorem Mach.legsCleared_forL {js : List Nat} (hlt : ∀ j ∈ js, j < 24) (hc : ∀ j ∈ js, m.LegClearable j) :
    m.LegsCleared js (forL js (fun j m => m.clearLeg j) m) := by
  induction js generalizing m with
  | nil => exact ⟨rfl, rfl, rfl, rfl, .refl m _, fun _ hj => absurd hj List.not_mem_nil, fun _ _ => ⟨rfl, rfl, rfl⟩⟩
  | cons j js ih =>
    have hone := m.legsCleared_one (hlt j List.mem_cons_self)
    rw [← (hc j List.mem_cons_self).clearLeg_eq] at hone
    exact hone.trans (ih (fun i hi => hlt i (List.mem_cons_of_mem _ hi))
      fun i hi => hone.clearable (hlt i (List.mem_cons_of_mem _ hi)) (hc i (List.mem_cons_of_mem _ hi)))
end

/-! ### The writes of GDL_CLR (R209, R302) -/

/-- The machine that the clears of a lone lane's write of GDL_CLR find. -/
def State.legClearFinds (s : State) (cyc : Nat) (l : Lane) (v : Word) (q : BitVec 24) : Mach :=
  ((s.at cyc).onGate fun g => { g with good := q.toNat }).noted l Reg.GDL_CLR (v &&& 0xFFFFFF#32)

section
variable (s : State) (cyc : Nat) (l : Lane) (v : Word) (q : BitVec 24)

theorem State.legClearFinds_tells (regs : List Nat) : (s.at cyc).FocTells regs [] (s.legClearFinds cyc l v q) :=
  ((Mach.FocTells.refl (s.at cyc) regs).onGate _).noted ..

theorem State.legClearFinds_gate : (s.legClearFinds cyc l v q).gate = { s.m.gate with good := q.toNat } := Mach.noted_gate ..

theorem State.legClearFinds_lane : (s.legClearFinds cyc l v q).lane = s.m.lane := Mach.noted_lane ..

variable {s} {l} in
theorem exec_gdlClear_alone (hs : s.alone l) :
    exec (.gdlClear cyc (.lane l) v q) s = run s cyc fun _ => (s.legClearFinds cyc l v q).gdlClear (v.bits 23 0) := by
  have hroute : ((s.at cyc).onGate fun g => { g with good := q.toNat }).route l = .now := hs.route cyc
  change execGdlClear cyc (.lane l) v q s = _
  rw [execGdlClear, run_next, run_next]
  exact congrArg (fun m' : Mach => Host.Outcome.next ({ s with m := m'.settle } : State))
    (Mach.devWrite_now _ Reg.GDL_CLR (v &&& 0xFFFFFF#32) (fun m => m.gdlClear (v.bits 23 0)) hroute)
end

/-- The condition of a clear that is taken, on the state before the write. -/
theorem State.legClearFinds_clearable {s : State} {j : Fin 24} {q : BitVec 24} (hq : q.getLsbD j = true)
    (hsafe : ∃ k f, s.m.slotOfLeg j = some k ∧ s.m.lastAccepted k = some f ∧ f.safe = true) (cyc : Nat) (l : Lane) (v : Word) :
    (s.legClearFinds cyc l v q).LegClearable j := by
  obtain ⟨k, f, hslot, hlast, hf⟩ := hsafe
  have htells := s.legClearFinds_tells cyc l v q []
  refine ⟨by rw [s.legClearFinds_gate]; exact hq, k, ?_, ?_⟩
  · rw [Mach.slotOfLeg_congr (htells.rd _ List.not_mem_nil)]
    exact hslot
  · rw [Mach.lastSafe_iff, Mach.lastAccepted, s.legClearFinds_lane]
    exact ⟨f, hlast, hf⟩

theorem exec_gdlClear_taken {s : State} {l : Lane} (hs : s.alone l) {v : Word} {q : BitVec 24}
    (h : ∀ j : Fin 24, v.bit j = true → q.getLsbD j = true ∧
      ∃ k f, s.m.slotOfLeg j = some k ∧ s.m.lastAccepted k = some f ∧ f.safe = true) (cyc : Nat) :
    ∃ t, exec (.gdlClear cyc (.lane l) v q) s = .next t ∧
      (∀ j : Fin 24, v.bit j = true → t.m.bit Reg.GDL_FAULT j = false ∧ t.m.bit (Reg.GDL_LEG_STAT j) 29 = false ∧
        (j.val < s.m.gate.legs.length → t.m.leg j = (s.m.leg j).cleared)) ∧
      (∀ j : Fin 24, v.bit j = false → t.m.leg j = s.m.leg j ∧ t.m.bit Reg.GDL_FAULT j = s.m.bit Reg.GDL_FAULT j ∧
        t.m.rd (Reg.GDL_LEG_STAT j) = s.m.rd (Reg.GDL_LEG_STAT j)) ∧
      t.m.gate.pairs = s.m.gate.pairs ∧ Quiet s t legClearRegs := by
  set m₀ := s.legClearFinds cyc l v q with hm₀
  have htells := s.legClearFinds_tells cyc l v q legClearRegs
  have hrd : ∀ b, m₀.rd b = s.m.rd b := fun b => (s.legClearFinds_tells cyc l v q []).rd b List.not_mem_nil
  have hgate := s.legClearFinds_gate cyc l v q
  have hleg : ∀ j, m₀.leg j = s.m.leg j := fun j => by rw [Mach.leg, hm₀, hgate, Mach.leg]
  have hcleared : m₀.LegsCleared _ (m₀.gdlClear (v.bits 23 0)) :=
    Mach.legsCleared_forL (fun j hj => (mem_bitsOf.1 hj).1) fun j hj => by
      obtain ⟨hgood, hsafe⟩ := h ⟨j, (mem_bitsOf.1 hj).1⟩ ((mem_bitsOf_bits v (mem_bitsOf.1 hj).1).1 hj)
      exact State.legClearFinds_clearable (j := ⟨j, (mem_bitsOf.1 hj).1⟩) hgood hsafe cyc l v
  obtain ⟨t, ht, hm, hquiet⟩ := run_tells (s := s) (cyc := cyc) (f := fun _ => m₀.gdlClear (v.bits 23 0)) (htells.trans hcleared.tells)
  have htrd : ∀ b, t.m.rd b = (m₀.gdlClear (v.bits 23 0)).rd b := fun b => by rw [hm, Mach.settle_rd]
  have htleg : ∀ j, t.m.leg j = (m₀.gdlClear (v.bits 23 0)).leg j := fun j => by rw [hm]; rfl
  refine ⟨t, (exec_gdlClear_alone cyc v q hs).trans ht, fun j hj => ?_, fun j hj => ?_, ?_, hquiet⟩
  · obtain ⟨hfault, hstat, hlatch⟩ := hcleared.named j ((mem_bitsOf_bits v j.isLt).2 hj)
    rw [Mach.bit, htrd, Mach.bit, htrd, htleg]
    exact ⟨hfault, hstat, fun hlen => (hlatch (by rw [hm₀, hgate]; exact hlen)).trans (by rw [hleg])⟩
  · obtain ⟨hother, hfault, hstat⟩ := hcleared.other j fun hin => by simp [(mem_bitsOf_bits v j.isLt).1 hin] at hj
    rw [htleg, hother, hleg, Mach.bit, htrd, htrd, hstat, hrd]
    exact ⟨rfl, hfault.trans (by rw [Mach.bit, hrd, Mach.bit]), rfl⟩
  · rw [hm]
    exact hcleared.pairs.trans (by rw [hm₀, hgate])

theorem exec_gdlClear_nothing {s : State} {l : Lane} (hs : s.alone l) {j : Fin 24} {q : BitVec 24}
    (h : q.getLsbD j = false ∨ ∀ k f, s.m.slotOfLeg j = some k → s.m.lastAccepted k = some f → f.safe = false) (cyc : Nat) :
    ∃ t, exec (.gdlClear cyc (.lane l) (BitVec.ofNat 32 (2 ^ j.val)) q) s = .next t ∧ t.m.gate.legs = s.m.gate.legs ∧
      Quiet s t [] := by
  set m₀ := s.legClearFinds cyc l (BitVec.ofNat 32 (2 ^ j.val)) q with hm₀
  have htells : (s.at cyc).FocTells [] [] m₀ := s.legClearFinds_tells cyc l _ q []
  have hgate : m₀.gate = _ := s.legClearFinds_gate cyc l _ q
  have hnothing : m₀.gdlClear (Word.bits (BitVec.ofNat 32 (2 ^ j.val)) 23 0) = m₀ := by
    rw [Mach.gdlClear, bitsOf_leg j]
    refine Mach.clearLeg_refused (h.imp (fun hq => by rw [hgate]; exact hq) fun hsafe k hslot => ?_)
    rw [Mach.slotOfLeg_congr (htells.rd _ List.not_mem_nil)] at hslot
    rw [← Bool.not_eq_true, Mach.lastSafe_iff, Mach.lastAccepted, s.legClearFinds_lane]
    rintro ⟨f, hlast, hf⟩
    simp [hsafe k f hslot hlast] at hf
  obtain ⟨t, ht, hm, hquiet⟩ := run_tells (s := s) (cyc := cyc)
    (f := fun _ => m₀.gdlClear (Word.bits (BitVec.ofNat 32 (2 ^ j.val)) 23 0)) (by rw [hnothing]; exact htells)
  refine ⟨t, (exec_gdlClear_alone cyc _ q hs).trans ht, ?_, hquiet⟩
  rw [hm, Mach.settle_gate, hnothing, hgate]

end Sys2Proof.Machine
end

section
/-! The link (R204, R205, R215): the clamp and the diagnostics that it aborts, its release, and HARD. -/

namespace Sys2Proof.Machine

variable (m : Mach)

/-! ### Diagnostics that abort (R215, R309) -/

theorem Mach.accede_gate (i : AsyncIn) : (m.accede i).gate = m.gate := by
  unfold Mach.accede Mach.accedeAt Mach.place
  dsimp only
  split
  · rfl
  · split <;> rfl

theorem Mach.accede_image (i : AsyncIn) : (m.accede i).image = m.image := by
  unfold Mach.accede Mach.accedeAt Mach.place
  dsimp only
  split
  · rfl
  · split <;> rfl

theorem Mach.accede_pwr (i : AsyncIn) : (m.accede i).pwr = m.pwr := by
  unfold Mach.accede Mach.accedeAt Mach.place
  dsimp only
  split
  · rfl
  · split <;> rfl

/-- What aborted diagnostics of pairs leave of what the clamp depends on. -/
structure Mach.DiagsAborted (m' : Mach) : Prop where
  image : m'.image = m.image
  pwr : m'.pwr = m.pwr
  clamped : m'.gate.clamped = m.gate.clamped
  rd : ∀ b, b ∉ accessionRegs → m'.rd b = m.rd b
  pair : ∀ p, (m'.pair p).latchH = (m.pair p).latchH ∧ (m'.pair p).latchL = (m.pair p).latchL ∧ (m'.pair p).uvH = (m.pair p).uvH
  raised : m.time.raised <+: m'.time.raised

/-- A change of one pair that keeps a part of it keeps that part of every pair. -/
theorem Mach.onPair_keeps {α : Type} (P : GatePair → α) {g : GatePair → GatePair} (h : ∀ x, P (g x) = P x) (p q : Nat) :
    P ((m.onPair p g).pair q) = P (m.pair q) := by
  rw [Mach.pair_onPair]
  split
  case isTrue hq => rw [h, hq.1]
  case isFalse => rfl

section
variable {m}

theorem Mach.abortDiag_nothing {p : Nat} (h : (m.pair p).running = false) : m.abortDiag p = m := if_pos (by simp [h])

theorem Mach.diagsAborted_abortDiag (p : Nat) : m.DiagsAborted (m.abortDiag p) := by
  unfold Mach.abortDiag
  refine iteInduction (fun _ => ⟨rfl, rfl, rfl, fun _ _ => rfl, fun _ => ⟨rfl, rfl, rfl⟩, List.prefix_rfl⟩) fun _ => ?_
  have hgate := (m.onPair p fun x => { x with running := false }).accede_gate ⟨8, p, 0, 0, m.pairCodes p 3 3, []⟩
  constructor
  case image => exact Mach.accede_image ..
  case pwr => exact Mach.accede_pwr ..
  case clamped => exact (congrArg GateState.clamped hgate :)
  case rd => exact fun b hb => Mach.accede_rd_other _ hb _
  case raised => exact ((RecordKept.refl m.record).accede (m := m.onPair p fun x => { x with running := false }) _).1
  case pair =>
    intro q
    have hpair : ∀ {α : Type} (P : GatePair → α), (∀ x : GatePair, P { x with running := false } = P x) →
        P (nth ((m.onPair p fun x => { x with running := false }).accede ⟨8, p, 0, 0, m.pairCodes p 3 3, []⟩).gate.pairs q) =
          P (m.pair q) := fun P hP => by
      rw [hgate]
      exact m.onPair_keeps P hP p q
    exact ⟨hpair GatePair.latchH fun _ => rfl, hpair GatePair.latchL fun _ => rfl, hpair GatePair.uvH fun _ => rfl⟩

theorem Mach.DiagsAborted.trans {m₁ m₂ : Mach} (h : m.DiagsAborted m₁) (h' : m₁.DiagsAborted m₂) : m.DiagsAborted m₂ where
  image := h'.image.trans h.image
  pwr := h'.pwr.trans h.pwr
  clamped := h'.clamped.trans h.clamped
  rd b hb := (h'.rd b hb).trans (h.rd b hb)
  pair p := ⟨(h'.pair p).1.trans (h.pair p).1, (h'.pair p).2.1.trans (h.pair p).2.1, (h'.pair p).2.2.trans (h.pair p).2.2⟩
  raised := h.raised.trans h'.raised

theorem Mach.diagsAborted_forL (ps : List Nat) : m.DiagsAborted (forL ps (fun p m => m.abortDiag p) m) := by
  induction ps generalizing m with
  | nil => exact ⟨rfl, rfl, rfl, fun _ _ => rfl, fun _ => ⟨rfl, rfl, rfl⟩, List.prefix_rfl⟩
  | cons p ps ih => exact (Mach.diagsAborted_abortDiag p).trans ih

theorem Mach.forL_abortDiag_nothing (h : ∀ x ∈ m.gate.pairs, x.running = false) (ps : List Nat) :
    forL ps (fun p m => m.abortDiag p) m = m := by
  have hnone : ∀ p, (m.pair p).running = false := fun p => by
    rw [Mach.pair, nth, List.getD_eq_getElem?_getD]
    cases hp : m.gate.pairs[p]? with
    | none => rfl
    | some x => exact h x (List.mem_of_getElem? hp)
  exact List.foldl_fixed' (fun p => Mach.abortDiag_nothing (hnone p)) ps
end

/-! ### The clamp (R204, R215, R218) -/

theorem Mach.mem_clampPairs {m : Mach} {p k : Nat} (hp : p < 16) (hslot : m.slotOfPair p = some k) (htype : m.isType k .chopper = true)
    (hH : (m.pair p).latchH = false) (hL : (m.pair p).latchL = false) : p ∈ m.clampPairs := by
  rw [Mach.clampPairs, List.mem_filter, List.mem_range, hslot]
  exact ⟨hp, by simp [htype, hH, hL]⟩

/-- The link is not below VOFF. -/
def Mach.linkUp : Mach := m.onGate fun g => { g with voffAt := none }

/-- The clamp is on, counted and told. -/
def Mach.clampTold : Mach :=
  ((((m.onGate fun g => { g with clamped := true }).setBit Reg.GDI_OVSTAT 0 true).incSat Reg.GDI_OVSTAT 31 16).raise 0x1C0B 0).orr
    Reg.GDI_IRQ_STAT 0x20

section
variable {m}

theorem Mach.clampOn_nothing (h : m.bit Reg.GDI_OVSTAT 0 = true ∨ m.mode = .sleep ∨ m.clampPairs = [] ∨ m.pwr.booted = false ∨
    m.pwr.phase ≠ .up ∨ m.pwr.due ≠ none) : m.clampOn = m.linkUp := by
  refine if_pos ?_
  change (m.clampPairs.isEmpty || m.mode == .sleep || m.bit Reg.GDI_OVSTAT 0 || !m.pwr.booted || m.pwr.phase != .up ||
    m.pwr.due.isSome) = true
  simp only [Bool.or_eq_true, List.isEmpty_iff, beq_iff_eq, Bool.not_eq_true', bne_iff_ne, ← Option.ne_none_iff_isSome]
  tauto

theorem Mach.clampOn_due (hpairs : m.clampPairs ≠ []) (hmode : m.mode ≠ .sleep) (hov : m.bit Reg.GDI_OVSTAT 0 = false)
    (hboot : m.pwr.booted = true) (hup : m.pwr.phase = .up) (hdue : m.pwr.due = none) :
    m.clampOn = (forL m.clampPairs (fun p m => m.abortDiag p) m.linkUp).clampTold := by
  refine if_neg ?_
  change ¬(m.clampPairs.isEmpty || m.mode == .sleep || m.bit Reg.GDI_OVSTAT 0 || !m.pwr.booted || m.pwr.phase != .up ||
    m.pwr.due.isSome) = true
  simp [hpairs, hmode, hov, hboot, hup, hdue]
end

theorem Mach.clampForces_of {m : Mach} {p k : Nat} (hslot : m.slotOfPair p = some k) (hclamped : m.gate.clamped = true)
    (htype : m.isType k .chopper = true) (hH : (m.pair p).latchH = false) (hL : (m.pair p).latchL = false)
    (huv : (m.pair p).uvH = false) (hmode : m.mode ≠ .sleep) (hup : m.pwr.phase = .up) : m.clampForces p = true := by
  rw [Mach.clampForces, hslot]
  simp [hclamped, htype, hH, hL, huv, hmode, hup]

theorem Mach.clampTold_rd_other {b : Nat} (hov : b ≠ Reg.GDI_OVSTAT) (hirq : b ≠ Reg.GDI_IRQ_STAT) : m.clampTold.rd b = m.rd b := by
  rw [Mach.clampTold, Mach.rd_orr, if_neg hirq, Mach.raise_rd, Mach.incSat, Mach.rd_setFld, if_neg hov, Mach.rd_setBit, if_neg hov]
  rfl

/-- GDI_OVSTAT shows the clamp and counts it. -/
theorem Mach.clampTold_ovstat :
    m.clampTold.bit Reg.GDI_OVSTAT 0 = true ∧
      m.clampTold.fld Reg.GDI_OVSTAT 31 16 = min (m.fld Reg.GDI_OVSTAT 31 16 + 1) 0xFFFF := by
  have hrd : m.clampTold.rd Reg.GDI_OVSTAT = (Mach.incSat _ _ _ _).rd Reg.GDI_OVSTAT :=
    (Mach.rd_orr ..).trans (if_neg (by decide))
  constructor
  · rw [Mach.bit, hrd]
    exact (Mach.bit_setFld_other _ _ (by omega) (by omega) (.inr (by omega))).trans (Mach.bit_setBit _ _ (by omega))
  · rw [Mach.fld, hrd]
    refine (Mach.fld_incSat _ (by omega) (by omega)).trans ?_
    rw [Mach.fld_setBit_other _ _ (by omega) (by omega) (.inr (by omega))]
    rfl

theorem Mach.FocTells.clampTold {m m' : Mach} {regs : List Nat} {es : List Event} (h : m.FocTells regs es m')
    (hov : Reg.GDI_OVSTAT ∈ regs) (hirq : Reg.GDI_IRQ_STAT ∈ regs) :
    m.FocTells regs (es ++ [eventAt m 0x1C0B 0 0xFF [] 0]) m'.clampTold :=
  ((((h.onGate _).setBit hov (by decide) 0 true).setFld hov (by decide) 31 16 _).raise ..).orr hirq (by decide) _

theorem modeStat_not_mem_accessionRegs : Reg.SYS_MODE_STAT ∉ accessionRegs := by decide

section
variable {m} {p k : Nat} (hp : p < 16) (hslot : m.slotOfPair p = some k) (htype : m.isType k .chopper = true)
  (hH : (m.pair p).latchH = false) (hL : (m.pair p).latchL = false) (hmode : m.mode ≠ .sleep) (hup : m.pwr.phase = .up)
include hp hslot htype hH hL hmode hup

/-- Whatever diagnostics have aborted, the clamp forces its pair. -/
theorem Mach.DiagsAborted.clampForces_clampTold {m' : Mach} (h : m.DiagsAborted m') (huv : (m.pair p).uvH = false) :
    m'.clampTold.settle.clampForces p = true := by
  have hrd : ∀ b, b ∉ accessionRegs → b ≠ Reg.GDI_OVSTAT → b ≠ Reg.GDI_IRQ_STAT → m'.clampTold.settle.rd b = m.rd b :=
    fun b hacc hb hi => (Mach.settle_rd ..).trans ((m'.clampTold_rd_other hb hi).trans (h.rd b hacc))
  have hcfg : m'.clampTold.settle.rd (Reg.GDI_PR_CFG p) = m.rd (Reg.GDI_PR_CFG p) :=
    hrd _ (powerStageReg_prCfg hp).not_mem_accessionRegs (by dsimp only [Reg.GDI_PR_CFG, Reg.GDI_OVSTAT]; omega)
      (by dsimp only [Reg.GDI_PR_CFG, Reg.GDI_IRQ_STAT]; omega)
  have htype' : m'.isType k .chopper = true := by
    rw [Mach.isType, Mach.slotType, Mach.slotEntry, h.image]
    exact htype
  have hmode' : m'.clampTold.settle.mode = m.mode := by
    rw [Mach.mode, Mach.fld, hrd _ modeStat_not_mem_accessionRegs (by decide) (by decide), Mach.mode, Mach.fld]
  obtain ⟨hH', hL', huv'⟩ := h.pair p
  exact Mach.clampForces_of ((Mach.slotOfPair_congr hcfg).trans hslot) rfl htype' (hH'.trans hH) (hL'.trans hL) (huv'.trans huv)
    (by rwa [hmode']) ((congrArg PwrState.phase h.pwr).trans hup)
end

/-- The clamp is told after whatever the aborted diagnostics told. -/
theorem Mach.DiagsAborted.tells_clamp {s t : State} {m m' : Mach} (h : m.DiagsAborted m')
    (hraised : m.time.raised = s.m.time.raised) (ht : t.m.time = m'.clampTold.time) : Tells s t 0x1C0B 0 0xFF := by
  obtain ⟨es, hes⟩ := h.raised
  refine ⟨eventAt m' 0x1C0B 0 0xFF [] 0, ?_, rfl, rfl, rfl⟩
  rw [ht]
  change _ ∈ (m'.time.raised ++ [eventAt _ _ _ _ _ _]).drop _
  rw [← hes, hraised, List.append_assoc, List.drop_left]
  exact List.mem_append_right _ (List.mem_singleton.2 rfl)

theorem exec_overvoltageClamp_due {s : State} {p : Fin 16} {k : Nat} (hslot : s.m.slotOfPair p = some k)
    (htype : s.m.isType k .chopper = true) (hH : (s.m.pair p).latchH = false) (hL : (s.m.pair p).latchL = false)
    (hmode : s.m.mode ≠ .sleep) (hov : s.m.bit Reg.GDI_OVSTAT 0 = false) (hboot : s.m.pwr.booted = true)
    (hup : s.m.pwr.phase = .up) (hdue : s.m.pwr.due = none) (cyc : Nat) :
    ∃ t, exec (.overvoltageClamp cyc) s = .next t ∧ t.m.bit Reg.GDI_OVSTAT 0 = true ∧
      t.m.fld Reg.GDI_OVSTAT 31 16 = min (s.m.fld Reg.GDI_OVSTAT 31 16 + 1) 0xFFFF ∧ t.m.gate.clamped = true ∧
      ((s.m.pair p).uvH = false → t.m.clampForces p = true) ∧ Tells s t 0x1C0B 0 0xFF ∧
      ((∀ x ∈ s.m.gate.pairs, x.running = false) → Raises s t [eventAt (s.at cyc) 0x1C0B 0 0xFF [] 0] ∧
        SameRegsBut s t [Reg.GDI_OVSTAT, Reg.GDI_IRQ_STAT]) ∧ SameMemory s t := by
  have hpairs : (s.at cyc).clampPairs ≠ [] :=
    List.ne_nil_of_mem (Mach.mem_clampPairs (m := s.at cyc) p.isLt hslot htype hH hL)
  set aborted := forL (s.at cyc).clampPairs (fun p m => m.abortDiag p) (s.at cyc).linkUp with haborted
  have hf : (s.m.advanceTo cyc).clampOn = aborted.clampTold := Mach.clampOn_due (m := s.at cyc) hpairs hmode hov hboot hup hdue
  have hkept : (s.at cyc).linkUp.DiagsAborted aborted := Mach.diagsAborted_forL _
  obtain ⟨hbit, hcount⟩ := aborted.clampTold_ovstat
  have hnext := run_next (s := s) (cyc := cyc) (f := fun m => m.clampOn)
  rw [hf] at hnext
  refine ⟨_, hnext, (Mach.settle_bit ..).trans hbit, ?_, rfl, fun huv =>
    Mach.DiagsAborted.clampForces_clampTold (m := (s.at cyc).linkUp) p.isLt hslot htype hH hL hmode hup hkept huv,
    hkept.tells_clamp rfl rfl, fun hnone => ?_, fun _ => rfl⟩
  · rw [Mach.settle_fld, hcount, Mach.fld, hkept.rd _ (by decide)]
    rfl
  · have hsame : aborted = (s.at cyc).linkUp := Mach.forL_abortDiag_nothing (m := (s.at cyc).linkUp) hnone _
    have htells : (s.at cyc).FocTells [Reg.GDI_OVSTAT, Reg.GDI_IRQ_STAT] [eventAt (s.at cyc) 0x1C0B 0 0xFF [] 0]
        aborted.clampTold := by
      rw [hsame]
      exact ((Mach.FocTells.refl (s.at cyc) _).onGate _).clampTold (by simp) (by simp)
    exact ⟨htells.raised, fun b hb => (Mach.settle_rd ..).trans (htells.rd b hb)⟩

theorem exec_overvoltageClamp_nothing {s : State} (h : s.m.bit Reg.GDI_OVSTAT 0 = true ∨ s.m.mode = .sleep ∨ s.m.clampPairs = [] ∨
    s.m.pwr.booted = false ∨ s.m.pwr.phase ≠ .up ∨ s.m.pwr.due ≠ none) (cyc : Nat) :
    ∃ t, exec (.overvoltageClamp cyc) s = .next t ∧ t.m.gate = { s.m.gate with voffAt := none } ∧ Quiet s t [] := by
  have hf := Mach.clampOn_nothing (m := s.at cyc) h
  obtain ⟨t, ht, hm, hquiet⟩ := run_tells (s := s) (cyc := cyc) (f := fun m => m.clampOn)
    (by rw [hf]; exact (Mach.FocTells.refl _ []).onGate _)
  exact ⟨t, ht, by rw [hm, hf]; rfl, hquiet⟩

theorem exec_clampRelease (cyc : Nat) (s : State) :
    ∃ t, exec (.clampRelease cyc) s = .next t ∧ t.m.bit Reg.GDI_OVSTAT 0 = false ∧ t.m.bit Reg.GDI_OVSTAT 1 = false ∧
      t.m.gate = { s.m.gate with voffAt := some (s.m.gate.voffAt.getD (s.at cyc).now) } ∧ Quiet s t [Reg.GDI_OVSTAT] := by
  obtain ⟨t, ht, hm, hquiet⟩ := run_tells (s := s) (cyc := cyc) (f := fun m => m.clampOff)
    ((((Mach.FocTells.refl (s.at cyc) [Reg.GDI_OVSTAT]).setBit List.mem_cons_self (by decide) 0 false).setBit List.mem_cons_self
      (by decide) 1 false).onGate _)
  refine ⟨t, ht, ?_, ?_, by rw [hm]; rfl, hquiet⟩ <;> rw [hm, Mach.settle_bit]
  · exact (Mach.bit_setBit_other _ _ (by omega) (.inr (by omega))).trans (Mach.bit_setBit _ _ (by omega))
  · exact Mach.bit_setBit _ _ (by omega)

/-! ### HARD (R205) -/

/-- An F3 event for each of the slots `ks`, while there is room for their causes: what `m'` is after `m`. -/
structure Mach.SlotsFaulted (m₀ m : Mach) (code : Nat) (regs : List Nat) (es : List Event) (ks : List Nat) (m' : Mach) : Prop where
  tells : m₀.FocTells regs (es ++ ks.map fun k => eventAt m₀ code 3 k [] 0) m'
  gate : m'.gate = m.gate
  rd : ∀ b, m'.rd b = m.rd b
  waiting : m'.lane.waiting.Perm (ks.map (fun k => m₀.entryOf m₀.accTickNow ⟨10, k, 0, 0, code, []⟩) ++ m.lane.waiting)

theorem Mach.slotsFaulted_raiseF3 {m₀ m : Mach} {regs : List Nat} {es : List Event} (h : m₀.FocTells regs es m) (code : Nat)
    {n : Nat} (hfew : m.FewWait n) (ks : List Nat) (hn : n + ks.length ≤ 32) :
    m₀.SlotsFaulted m code regs es ks (forL ks (fun k m => m.raiseF3 code k) m) := by
  induction ks generalizing m es n with
  | nil => exact ⟨by rw [List.map_nil, List.append_nil]; exact h, rfl, fun _ => rfl, .refl _⟩
  | cons k ks ih =>
    rw [List.length_cons] at hn
    have hlt : n < 32 := by omega
    obtain ⟨htells, hgate, hrd, hwait⟩ := ih (Mach.FocTells.raiseF3 hfew hlt code k [] h) (hfew.raiseF3 hlt code k []) (by omega)
    refine ⟨?_, hgate.trans (hfew.raiseF3_gate hlt ..), fun b => (hrd b).trans (hfew.raiseF3_rd hlt ..), hwait.trans ?_⟩
    · rw [List.map_cons, List.append_cons]
      exact htells
    · rw [hfew.raiseF3_eq hlt, List.map_cons, List.cons_append, ← h.entryOf_eq]
      exact ((insertEntry_perm _ _).append_left _).trans List.perm_middle

theorem Mach.slotsOf_length_le (t : SlotType) : (m.slotsOf t).length ≤ 16 :=
  (List.length_filter_le ..).trans_eq List.length_range

/-- The slots whose enables HARD withdraws. -/
def Mach.hardSlots : List Nat := m.slotsOf .pfc3 ++ m.slotsOf .dab

/-- HARD is seen, and the enables of the slots are withdrawn. -/
def Mach.hardWithdrawn : Mach :=
  (m.setBit Reg.GDI_OVSTAT 1 true).onGate fun g =>
    { g with hardOff := g.hardOff ||| (m.hardSlots.map (2 ^ ·)).sum, hardSeen := true, voffAt := none }

theorem Mach.linkHard_eq : m.linkHard =
    (forL m.hardSlots (fun k m => m.raiseF3 0x1C0C k) m.hardWithdrawn).orr Reg.GDI_IRQ_STAT (if m.hardSlots.isEmpty then 0 else 0x40) :=
  rfl

theorem exec_linkHardOvervoltage {s : State} {ks : List Nat} (hks : ks = s.m.hardSlots) (hroom : s.roomy) (cyc : Nat) :
    ∃ t, exec (.linkHardOvervoltage cyc) s = .next t ∧ Raises s t (ks.map fun k => eventAt (s.at cyc) 0x1C0C 3 k [] 0) ∧
      (∀ k ∈ ks, (s.at cyc).entryOf (s.at cyc).accTickNow ⟨10, k, 0, 0, 0x1C0C, []⟩ ∈ t.m.lane.waiting) ∧
      t.m.lane.waiting.length = ks.length ∧ t.m.bit Reg.GDI_OVSTAT 1 = true ∧
      t.m.gate = { s.m.gate with
        hardOff := s.m.gate.hardOff ||| (ks.map (2 ^ ·)).sum, hardSeen := true, voffAt := none } ∧
      t.m.bit Reg.GDI_IRQ_STAT 6 = (s.m.bit Reg.GDI_IRQ_STAT 6 || !ks.isEmpty) ∧
      SameRegsBut s t [Reg.GDI_OVSTAT, Reg.GDI_IRQ_STAT] ∧ SameMemory s t := by
  have hlen : 0 + ks.length ≤ 32 := by
    have hpfc := s.m.slotsOf_length_le .pfc3
    have hdab := s.m.slotsOf_length_le .dab
    rw [hks, Mach.hardSlots, List.length_append]
    omega
  set m₀ := (s.at cyc).hardWithdrawn with hm₀
  have hwait : m₀.lane.waiting = [] := hroom
  have htold : (s.at cyc).FocTells [Reg.GDI_OVSTAT, Reg.GDI_IRQ_STAT] [] m₀ :=
    ((Mach.FocTells.refl _ _).setBit (by simp) (by decide) 1 true).onGate _
  obtain ⟨htells, hgate, hrd, hperm⟩ := Mach.slotsFaulted_raiseF3 htold 0x1C0C (.of_nil hwait 0) ks hlen
  rw [hwait, List.append_nil] at hperm
  have hf : (s.at cyc).linkHard = (forL ks (fun k m => m.raiseF3 0x1C0C k) m₀).orr Reg.GDI_IRQ_STAT (if ks.isEmpty then 0 else 0x40) := by
    rw [Mach.linkHard_eq, show (s.at cyc).hardSlots = ks from hks.symm]
  obtain ⟨t, ht, hm, hregs, hmem, hev⟩ := run_tells (s := s) (cyc := cyc) (f := fun m => m.linkHard)
    (by rw [hf]; exact htells.orr (by simp) (by decide) _)
  rw [hf] at hm
  have hwaiting : t.m.lane.waiting = (forL ks (fun k m => m.raiseF3 0x1C0C k) m₀).lane.waiting := by rw [hm]; rfl
  rw [← hwaiting] at hperm
  refine ⟨t, ht, hev, fun k hk => hperm.mem_iff.2 (List.mem_map.2 ⟨k, hk, rfl⟩), ?_, ?_, ?_, ?_, hregs, hmem⟩
  · rw [hperm.length_eq, List.length_map]
  · rw [hm, Mach.settle_bit, Mach.bit, Mach.rd_orr, if_neg (by decide), hrd]
    exact Mach.bit_setBit _ _ (by omega)
  · rw [hm, Mach.settle_gate, Mach.orr_gate, hgate, hks]
    rfl
  · have hirq : Word.bit (BitVec.ofNat 32 (if ks.isEmpty then 0 else 0x40)) 6 = !ks.isEmpty := by cases ks.isEmpty <;> decide
    rw [hm, Mach.settle_bit, Mach.bit, Mach.rd_orr, if_pos rfl, hrd, Word.bit_or, hirq, hm₀, Mach.hardWithdrawn, Mach.onGate_rd,
      Mach.rd_setBit, if_neg (by decide)]
    rfl

/-- Settles O25: the clears by what each pair and leg that the write names has met, the clamp by the pairs that it may turn on, HARD by
the slots whose enables it withdraws. -/
theorem clearsAndTheLinkClamp : Obligations.ClearsAndTheLinkClamp := by
  refine ⟨fun cyc l v q s hs h => exec_gdiClear_taken hs h cyc,
    fun cyc l q s p k hs hslot hlock h => exec_gdiClear_refused hs hslot hlock h cyc,
    fun cyc l q s p hs h => exec_gdiClear_nothing hs h cyc q,
    fun cyc l v q s hs h => exec_gdlClear_taken hs h cyc,
    fun cyc l q s j hs h => exec_gdlClear_nothing hs h cyc, fun cyc v q r s => ⟨?_, ?_⟩,
    fun cyc s p k hslot htype hH hL hmode hov hboot hup hdue => exec_overvoltageClamp_due hslot htype hH hL hmode hov hboot hup hdue cyc,
    fun cyc s h => exec_overvoltageClamp_nothing h cyc, fun cyc s => exec_clampRelease cyc s,
    fun cyc s ks hks hroom => exec_linkHardOvervoltage hks hroom cyc⟩
  · obtain ⟨t, ht, hm, hquiet⟩ := run_tells (s := s) (cyc := cyc) (f := fun m => m.onGate fun g => { g with quiet := q.toNat })
      ((Mach.FocTells.refl _ []).onGate _)
    exact ⟨t, ht, by rw [hm]; rfl, hquiet⟩
  · obtain ⟨t, ht, hm, hquiet⟩ := run_tells (s := s) (cyc := cyc) (f := fun m => m.onGate fun g => { g with good := r.toNat })
      ((Mach.FocTells.refl _ []).onGate _)
    exact ⟨t, ht, by rw [hm]; rfl, hquiet⟩

end Sys2Proof.Machine
end

section
/-! Gate faults of pairs and legs (R194, R209, R211, R217): what latches or holds a channel and is an F3 of its slot. -/

namespace Sys2Proof.Machine

variable (m : Mach)

/-! ### Pairs (R194, R217) -/

section
variable {m} {p : Nat}

theorem Mach.stuckPair_none (h : m.slotOfPair p = none) : m.stuckPair p = m := by rw [Mach.stuckPair, h]

theorem Mach.stuckPair_some {k : Nat} (h : m.slotOfPair p = some k) :
    m.stuckPair p = ((m.latchPair p true true 6 false).raiseF3 0x1C06 k).orr Reg.GDI_IRQ_STAT 4 := by rw [Mach.stuckPair, h]

variable {ch : Nat}

theorem Mach.barrierLoss_none (h : m.slotOfPair (ch / 2) = none) : m.barrierLoss ch = m := by
  rw [Mach.barrierLoss, h]

theorem Mach.barrierLoss_some {k : Nat} (h : m.slotOfPair (ch / 2) = some k) :
    m.barrierLoss ch = ((m.latchPair (ch / 2) (decide (ch % 2 = 0)) (decide (ch % 2 = 1)) 5 true).raiseF3 0x1C05 k).orr
      Reg.GDI_IRQ_STAT 0x10 := by
  rw [Mach.barrierLoss, h]

/-- The rail of a channel is outside its window, and its pair shows it. -/
def Mach.railNoted (m : Mach) (ch : Nat) : Mach :=
  (m.onPair (ch / 2) fun x => if ch % 2 = 0 then { x with uvH := true } else { x with uvL := true }).setFld
    (Reg.GDI_PR_STAT (ch / 2)) 12 10 4

theorem Mach.railLow_none (h : m.slotOfPair (ch / 2) = none) : m.railLow ch = m := by
  rw [Mach.railLow]
  dsimp only
  rw [h]

theorem Mach.railLow_some {k : Nat} (h : m.slotOfPair (ch / 2) = some k) :
    m.railLow ch = ((m.railNoted ch).raiseF3 0x1C04 k).orr Reg.GDI_IRQ_STAT 8 := by
  rw [Mach.railLow]
  dsimp only
  rw [h]
  rfl

/-- The channel's rails are good again, and it waits for its frames. -/
def Mach.railFreed (m : Mach) (ch : Nat) : Mach :=
  m.onPair (ch / 2) fun x =>
    if ch % 2 = 0 then { x with uvH := false, waitH := true } else { x with uvL := false, waitL := true }

theorem Mach.railGood_nothing (h : (if ch % 2 = 0 then (m.pair (ch / 2)).uvH else (m.pair (ch / 2)).uvL) = false) :
    m.railGood ch = m := if_pos (by simpa using h)

theorem Mach.railGood_due (h : (if ch % 2 = 0 then (m.pair (ch / 2)).uvH else (m.pair (ch / 2)).uvL) = true) :
    m.railGood ch = (m.railFreed ch).showFlt (ch / 2) := if_neg (by simpa using h)
end

/-- What the latch of a pair leaves with its F3 event: `bit` is its status bit in GDI_IRQ_STAT. -/
theorem run_pairFault {s : State} {cyc : Nat} {f : Mach → Mach} {p k code flt bit : Nat} {h l soft : Bool} (hp : p < 16)
    (hflt : flt < 8) (hbit : bit < 32) (hroom : s.roomy)
    (hf : f (s.at cyc) = (((s.at cyc).latchPair p h l flt soft).raiseF3 code k).orr Reg.GDI_IRQ_STAT (2 ^ bit)) :
    ∃ t g, run s cyc f = .next t ∧ SlotFault s t cyc code k [] ∧ t.m.gate.pairs = upd s.m.gate.pairs p g ∧
      (∀ x, (g x).latchH = (x.latchH || h) ∧ (g x).latchL = (x.latchL || l)) ∧ t.m.fld (Reg.GDI_PR_STAT p) 12 10 = flt ∧
      t.m.bit Reg.GDI_IRQ_STAT bit = true ∧
      SameRegsBut s t [Reg.GDI_FAULT, Reg.GDI_PR_STAT p, Reg.GDI_IRQ_STAT, Reg.GDI_OVSTAT] ∧ SameMemory s t := by
  obtain ⟨g, c, hgate, hg, hlane, hshown, -⟩ := (s.at cyc).latchPair_spec hp hflt h l soft
  obtain ⟨t, ht, htgate, hrd, hfault, hframe⟩ := run_slotFault
    ((Mach.FocTells.refl (s.at cyc) [Reg.GDI_FAULT, Reg.GDI_PR_STAT p, Reg.GDI_IRQ_STAT, Reg.GDI_OVSTAT]).latchPair hp (by simp)
      (by simp) (by simp) h l flt soft) hlane hroom (a := Reg.GDI_IRQ_STAT) (by simp) (by decide) hf
  refine ⟨t, g, ht, hfault, ?_, hg, ?_, ?_, hframe⟩
  · rw [htgate, hgate]
    rfl
  · rw [Mach.fld, hrd, if_neg (by dsimp only [Reg.GDI_PR_STAT, Reg.GDI_IRQ_STAT]; omega)]
    exact hshown
  · rw [Mach.bit, hrd, if_pos rfl]
    exact Word.bit_or_two_pow _ hbit

section
variable {s : State} {k : Nat} (hroom : s.roomy) (cyc : Nat)
include hroom

theorem exec_stuckGate_pair {p : Fin 16} (hslot : s.m.slotOfPair p = some k) :
    ∃ t g, exec (.stuckGate cyc true p) s = .next t ∧ SlotFault s t cyc 0x1C06 k [] ∧
      t.m.gate.pairs = upd s.m.gate.pairs p g ∧ (∀ x, (g x).latchH = true ∧ (g x).latchL = true) ∧
      t.m.fld (Reg.GDI_PR_STAT p) 12 10 = 6 ∧ t.m.bit Reg.GDI_IRQ_STAT 2 = true ∧
      SameRegsBut s t [Reg.GDI_FAULT, Reg.GDI_PR_STAT p, Reg.GDI_IRQ_STAT, Reg.GDI_OVSTAT] ∧ SameMemory s t := by
  obtain ⟨t, g, ht, hfault, hpairs, hg, hframe⟩ := run_pairFault (f := fun m => m.stuckPair p) (bit := 2) p.isLt (by decide) (by decide)
    hroom (Mach.stuckPair_some (m := s.at cyc) hslot)
  refine ⟨t, g, ht, hfault, hpairs, fun x => ?_, hframe⟩
  rw [(hg x).1, (hg x).2, Bool.or_true, Bool.or_true]
  exact ⟨rfl, rfl⟩

variable {ch : Fin 32} (hslot : s.m.slotOfPair (ch / 2) = some k)
include hslot

theorem exec_barrierLoss_some :
    ∃ t g, exec (.barrierLoss cyc ch) s = .next t ∧ SlotFault s t cyc 0x1C05 k [] ∧
      t.m.gate.pairs = upd s.m.gate.pairs (ch / 2) g ∧
      (∀ x, (g x).latchH = (x.latchH || ch.val % 2 == 0) ∧ (g x).latchL = (x.latchL || ch.val % 2 == 1)) ∧
      t.m.fld (Reg.GDI_PR_STAT (ch / 2)) 12 10 = 5 ∧ t.m.bit Reg.GDI_IRQ_STAT 4 = true ∧
      SameRegsBut s t [Reg.GDI_FAULT, Reg.GDI_PR_STAT (ch / 2), Reg.GDI_IRQ_STAT, Reg.GDI_OVSTAT] ∧ SameMemory s t :=
  run_pairFault (f := fun m => m.barrierLoss ch) (bit := 4) (by omega) (by decide) (by decide) hroom
    (Mach.barrierLoss_some (m := s.at cyc) hslot)

theorem exec_isolatedRailUndervoltage_some :
    ∃ t, exec (.isolatedRailUndervoltage cyc ch) s = .next t ∧ SlotFault s t cyc 0x1C04 k [] ∧
      t.m.gate.pairs = upd s.m.gate.pairs (ch / 2)
        (fun x => if ch.val % 2 = 0 then { x with uvH := true } else { x with uvL := true }) ∧
      t.m.fld (Reg.GDI_PR_STAT (ch / 2)) 12 10 = 4 ∧ t.m.bit Reg.GDI_IRQ_STAT 3 = true ∧
      SameRegsBut s t [Reg.GDI_PR_STAT (ch / 2), Reg.GDI_IRQ_STAT] ∧ SameMemory s t := by
  have hp : ch.val / 2 < 16 := by omega
  obtain ⟨t, ht, hgate, hrd, hfault, hframe⟩ := run_slotFault (s := s) (cyc := cyc) (f := fun m => m.railLow ch)
    (regs := [Reg.GDI_PR_STAT (ch / 2), Reg.GDI_IRQ_STAT])
    (((Mach.FocTells.refl _ _).onGate _).setFld (by simp) (powerStageReg_prStat hp) ..) rfl hroom (by simp) (by decide)
    (Mach.railLow_some (m := s.at cyc) hslot)
  refine ⟨t, ht, hfault, by rw [hgate]; rfl, ?_, ?_, hframe⟩
  · rw [Mach.fld, hrd, if_neg (by dsimp only [Reg.GDI_PR_STAT, Reg.GDI_IRQ_STAT]; omega)]
    exact Mach.fld_setFld _ _ (by omega) (by omega)
  · rw [Mach.bit, hrd, if_pos rfl, Word.bit_or, show Word.bit (BitVec.ofNat 32 8) 3 = true from rfl, Bool.or_true]
end

theorem exec_isolatedRailRecovery_due {s : State} {ch : Fin 32}
    (h : (if ch.val % 2 = 0 then (s.m.pair (ch / 2)).uvH else (s.m.pair (ch / 2)).uvL) = true) (cyc : Nat) :
    ∃ t, exec (.isolatedRailRecovery cyc ch) s = .next t ∧
      t.m.gate.pairs = upd s.m.gate.pairs (ch / 2) (fun x =>
        if ch.val % 2 = 0 then { x with uvH := false, waitH := true } else { x with uvL := false, waitL := true }) ∧
      Quiet s t [Reg.GDI_PR_STAT (ch / 2)] := by
  have hf := Mach.railGood_due (m := s.at cyc) h
  obtain ⟨t, ht, hm, hquiet⟩ := run_tells (s := s) (cyc := cyc) (f := fun m => m.railGood ch)
    (regs := [Reg.GDI_PR_STAT (ch / 2)])
    (by rw [hf]; exact ((Mach.FocTells.refl _ _).onGate _).showFlt (p := ch.val / 2) (by omega) List.mem_cons_self)
  refine ⟨t, ht, ?_, hquiet⟩
  rw [hm, Mach.settle_gate, hf, Mach.showFlt_gate]
  rfl

/-! ### Legs (R194, R209, R211) -/

theorem gdlIrq_ne_legStat (j : Nat) : Reg.GDL_IRQ_STAT ≠ Reg.GDL_LEG_STAT j := by
  dsimp only [Reg.GDL_IRQ_STAT, Reg.GDL_LEG_STAT]
  omega

/-- The latch of a leg and its fault as the registers show them. -/
theorem Mach.latchLeg_shows {j code : Nat} (hj : j < 24) (hcode : code < 8) :
    (m.latchLeg j code).bit Reg.GDL_FAULT j = true ∧ (m.latchLeg j code).fld (Reg.GDL_LEG_STAT j) 28 26 = code := by
  constructor
  · exact (Mach.bit_setFld_other _ _ (by omega) (by omega) (.inl (gdlFault_ne_legStat j))).trans (Mach.bit_setBit _ _ (by omega))
  · exact (Mach.fld_setFld _ _ (by omega) (by omega)).trans (Nat.mod_eq_of_lt hcode)

/-- The registers that the fault of leg `j` changes. -/
abbrev legFaultRegs (j : Nat) : List Nat := [Reg.GDL_FAULT, Reg.GDL_LEG_STAT j, Reg.GDL_IRQ_STAT]

theorem Mach.FocTells.latchLeg {m m' : Mach} {regs : List Nat} {es : List Event} {j : Nat} (h : m.FocTells regs es m') (hj : j < 24)
    (hfault : Reg.GDL_FAULT ∈ regs) (hstat : Reg.GDL_LEG_STAT j ∈ regs) (code : Nat) : m.FocTells regs es (m'.latchLeg j code) :=
  ((h.onGate _).setBit hfault (by decide) j true).setFld hstat (powerStageReg_legStat hj) ..

/-- Turning off the legs of a drive changes legs alone. -/
theorem Mach.driveOff_eq (d : Nat) : ∃ f : List GateLeg → List GateLeg, m.driveOff d = m.onGate fun g => { g with legs := f g.legs } :=
  let off (x : GateLeg) : GateLeg := { x with wait := true }
  ⟨fun l => upd (upd (upd l (6 + 3 * d) off) (6 + 3 * d + 1) off) (6 + 3 * d + 2) off, rfl⟩

theorem six_le_of_driveOf {j d : Nat} (h : driveOf j = some d) : 6 ≤ j := by
  unfold driveOf at h
  split at h
  · omega
  · cases h

theorem lt_six_of_driveOf {j : Fin 24} (h : driveOf j = none) : j.val < 6 := by
  unfold driveOf at h
  split at h
  · cases h
  · omega

section
variable {m} {j : Nat}

theorem Mach.stuckLeg_none (h : m.slotOfLeg j = none) : m.stuckLeg j = m := by rw [Mach.stuckLeg, h]

theorem Mach.stuckLeg_some {k : Nat} (h : m.slotOfLeg j = some k) :
    m.stuckLeg j = ((m.latchLeg j 3).raiseF3 0x2005 k).orr Reg.GDL_IRQ_STAT 8 := by rw [Mach.stuckLeg, h]

theorem Mach.vdsOver_nothing {mv : Nat} (h : driveOf j = none ∨ m.slotOfLeg j = none ∨ m.fld (Reg.GDL_LEG_CFG j) 22 16 = 0 ∨
    mv ≤ 20 * m.fld (Reg.GDL_LEG_CFG j) 22 16 ∨ m.vdsWatched j = false) : m.vdsOver j mv = m := by
  unfold Mach.vdsOver
  split
  next k d hslot hdrive =>
    refine if_pos ?_
    rcases h with h | h | h | h | h
    · rw [h] at hdrive
      cases hdrive
    · rw [h] at hslot
      cases hslot
    · exact .inl h
    · exact .inr (.inl h)
    · exact .inr (.inr (by rw [h]; rfl))
  next => rfl

theorem Mach.vdsOver_due {k d mv : Nat} (hdrive : driveOf j = some d) (hslot : m.slotOfLeg j = some k)
    (hthr : m.fld (Reg.GDL_LEG_CFG j) 22 16 ≠ 0) (hmv : 20 * m.fld (Reg.GDL_LEG_CFG j) 22 16 < mv)
    (hwatched : m.vdsWatched j = true) :
    m.vdsOver j mv = (((m.latchLeg j 2).driveOff d).raiseF3 0x2004 k).orr Reg.GDL_IRQ_STAT 4 := by
  unfold Mach.vdsOver
  rw [hslot, hdrive]
  refine if_neg ?_
  rw [hwatched, not_or, not_or]
  exact ⟨hthr, Nat.not_le.2 hmv, Bool.false_ne_true⟩
end

theorem Mach.onGate_legs_id : (m.onGate fun g => { g with legs := id g.legs }) = m := rfl

/-- What the latch of a leg leaves with its F3 event: `f` is what becomes of the other legs, `bit` its status bit in GDL_IRQ_STAT. -/
theorem run_legFault {s : State} {cyc : Nat} {f : Mach → Mach} {g : List GateLeg → List GateLeg} {j k code flt bit : Nat}
    (hj : j < 24) (hflt : flt < 8) (hbit : bit < 32) (hroom : s.roomy)
    (hf : f (s.at cyc) = ((((s.at cyc).latchLeg j flt).onGate fun y => { y with legs := g y.legs }).raiseF3 code k).orr
      Reg.GDL_IRQ_STAT (2 ^ bit)) :
    ∃ t, run s cyc f = .next t ∧ SlotFault s t cyc code k [] ∧ t.m.bit Reg.GDL_FAULT j = true ∧
      t.m.fld (Reg.GDL_LEG_STAT j) 28 26 = flt ∧ t.m.bit Reg.GDL_IRQ_STAT bit = true ∧
      t.m.gate = { s.m.gate with legs := g (upd s.m.gate.legs j fun x => { x with latch := true, code := flt }) } ∧
      SameRegsBut s t (legFaultRegs j) ∧ SameMemory s t := by
  obtain ⟨hfault, hshown⟩ := (s.at cyc).latchLeg_shows hj hflt
  obtain ⟨t, ht, hgate, hrd, hslot, hframe⟩ := run_slotFault
    (((Mach.FocTells.refl (s.at cyc) (legFaultRegs j)).latchLeg hj (by simp) (by simp) flt).onGate fun y => { y with legs := g y.legs })
    rfl hroom (a := Reg.GDL_IRQ_STAT) (by simp) (by decide) hf
  refine ⟨t, ht, hslot, ?_, ?_, ?_, hgate, hframe⟩
  · rw [Mach.bit, hrd, if_neg (by decide), Mach.onGate_rd]
    exact hfault
  · rw [Mach.fld, hrd, if_neg (gdlIrq_ne_legStat j).symm, Mach.onGate_rd]
    exact hshown
  · rw [Mach.bit, hrd, if_pos rfl]
    exact Word.bit_or_two_pow _ hbit

section
variable {s : State} {j : Fin 24} {k : Nat} (hslot : s.m.slotOfLeg j = some k) (hroom : s.roomy) (cyc : Nat)
include hslot hroom

theorem exec_stuckGate_leg :
    ∃ t, exec (.stuckGate cyc false j) s = .next t ∧ SlotFault s t cyc 0x2005 k [] ∧ t.m.bit Reg.GDL_FAULT j = true ∧
      t.m.fld (Reg.GDL_LEG_STAT j) 28 26 = 3 ∧ t.m.gate.legs = upd s.m.gate.legs j (fun x => { x with latch := true, code := 3 }) ∧
      SameRegsBut s t [Reg.GDL_FAULT, Reg.GDL_LEG_STAT j, Reg.GDL_IRQ_STAT] ∧ SameMemory s t := by
  obtain ⟨t, ht, hfault, hbit, hflt, -, hgate, hframe⟩ := run_legFault (f := fun m => m.stuckLeg j) (g := id)
    (code := 0x2005) (flt := 3) (bit := 3) j.isLt
    (by decide) (by decide) hroom (by rw [Mach.onGate_legs_id]; exact Mach.stuckLeg_some (m := s.at cyc) hslot)
  exact ⟨t, ht, hfault, hbit, hflt, by rw [hgate]; rfl, hframe⟩

theorem exec_vdsOvercurrent_due {d mv : Nat} (hdrive : driveOf j = some d) (hthr : s.m.fld (Reg.GDL_LEG_CFG j) 22 16 ≠ 0)
    (hmv : 20 * s.m.fld (Reg.GDL_LEG_CFG j) 22 16 < mv) (hwatched : (s.at cyc).vdsWatched j = true) :
    ∃ t, exec (.vdsOvercurrent cyc j mv) s = .next t ∧ SlotFault s t cyc 0x2004 k [] ∧ t.m.bit Reg.GDL_FAULT j = true ∧
      t.m.fld (Reg.GDL_LEG_STAT j) 28 26 = 2 ∧ t.m.bit Reg.GDL_IRQ_STAT 2 = true ∧ t.m.gate.pairs = s.m.gate.pairs ∧
      SameRegsBut s t [Reg.GDL_FAULT, Reg.GDL_LEG_STAT j, Reg.GDL_IRQ_STAT] ∧ SameMemory s t := by
  obtain ⟨g, hoff⟩ := ((s.at cyc).latchLeg j 2).driveOff_eq d
  have hf := Mach.vdsOver_due (m := s.at cyc) hdrive hslot hthr hmv hwatched
  rw [hoff] at hf
  obtain ⟨t, ht, hfault, hbit, hflt, hirq, hgate, hframe⟩ := run_legFault (f := fun m => m.vdsOver j mv) (bit := 2) j.isLt
    (by decide) (by decide) hroom hf
  exact ⟨t, ht, hfault, hbit, hflt, hirq, by rw [hgate], hframe⟩
end

end Sys2Proof.Machine
end

section
/-! The high-side supply of a leg (R209, R230, R235, R238, R241): an F3 of a drive's leg, and an F1 of a phase of the converter, which
latches off where no other phase is left. -/

namespace Sys2Proof.Machine

variable (m : Mach)

/-! ### The leg -/

/-- The leg latches for its supply, and its registers show it. -/
def Mach.highSideNoted (j : Nat) : Mach := ((m.latchLeg j 1).setBit (Reg.GDL_LEG_STAT j) 29 true).orr Reg.GDL_IRQ_STAT 2

theorem Mach.highSideNoted_gate (j : Nat) :
    (m.highSideNoted j).gate = { m.gate with legs := upd m.gate.legs j fun x => { x with latch := true, code := 1 } } := rfl

theorem Mach.FocTells.highSideNoted {m m' : Mach} {regs : List Nat} {es : List Event} {j : Nat} (h : m.FocTells regs es m')
    (hj : j < 24) (hfault : Reg.GDL_FAULT ∈ regs) (hstat : Reg.GDL_LEG_STAT j ∈ regs) (hirq : Reg.GDL_IRQ_STAT ∈ regs) :
    m.FocTells regs es (m'.highSideNoted j) :=
  ((h.latchLeg hj hfault hstat 1).setBit hstat (powerStageReg_legStat hj) 29 true).orr hirq (by decide) 2

theorem Mach.highSideNoted_shows {j : Nat} (hj : j < 24) :
    (m.highSideNoted j).bit Reg.GDL_FAULT j = true ∧ (m.highSideNoted j).fld (Reg.GDL_LEG_STAT j) 28 26 = 1 ∧
      (m.highSideNoted j).bit (Reg.GDL_LEG_STAT j) 29 = true := by
  obtain ⟨hfault, hflt⟩ := m.latchLeg_shows hj (code := 1) (by decide)
  have hne := (gdlIrq_ne_legStat j).symm
  refine ⟨?_, ?_, ?_⟩
  · rw [Mach.highSideNoted, Mach.bit, Mach.rd_orr, if_neg (by decide), Mach.rd_setBit, if_neg (gdlFault_ne_legStat j)]
    exact hfault
  · rw [Mach.highSideNoted, Mach.fld, Mach.rd_orr, if_neg hne]
    exact (Mach.fld_setBit_other _ _ (by omega) (by omega) (.inr (by omega))).trans hflt
  · rw [Mach.highSideNoted, Mach.bit, Mach.rd_orr, if_neg hne]
    exact Mach.bit_setBit _ _ (by omega)

section
variable {m} {j : Nat}

theorem Mach.highSideLow_none (h : m.slotOfLeg j = none) : m.highSideLow j = m := by rw [Mach.highSideLow, h]

theorem Mach.highSideLow_drive {k d : Nat} (hslot : m.slotOfLeg j = some k) (hdrive : driveOf j = some d) :
    m.highSideLow j = ((m.highSideNoted j).driveOff d).raiseF3 0x2003 k := by
  rw [Mach.highSideLow, hslot]
  dsimp only
  rw [hdrive]
  rfl

theorem Mach.highSideLow_phase {k : Nat} (hslot : m.slotOfLeg j = some k) (hdrive : driveOf j = none) :
    m.highSideLow j = (m.highSideNoted j).raise 0x2002 1 k := by
  rw [Mach.highSideLow, hslot]
  dsimp only
  rw [hdrive]
  rfl

theorem Mach.lvcUnder_drive (h : 6 ≤ j) : m.lvcUnder j = m := if_neg (by simp; omega)

theorem Mach.lvcUnder_none (h : m.slotOfLeg j = none) : m.lvcUnder j = m := if_neg (by simp [h])

theorem Mach.lvcUnder_phase {k : Nat} (hj : j < 6) (hslot : m.slotOfLeg j = some k) : m.lvcUnder j = m.lvcForced :=
  if_pos (by simp [hj, hslot])
end

theorem exec_highSideUndervoltage_drive {s : State} {j : Fin 24} {k d : Nat} (hdrive : driveOf j = some d)
    (hslot : s.m.slotOfLeg j = some k) (hroom : s.roomy) (cyc : Nat) :
    ∃ t, exec (.highSideUndervoltage cyc j) s = .next t ∧ SlotFault s t cyc 0x2003 k [] ∧ t.m.bit Reg.GDL_FAULT j = true ∧
      t.m.fld (Reg.GDL_LEG_STAT j) 28 26 = 1 ∧ t.m.bit (Reg.GDL_LEG_STAT j) 29 = true ∧
      t.m.gate.pairs = s.m.gate.pairs ∧ t.m.lvc = s.m.lvc ∧
      SameRegsBut s t [Reg.GDL_FAULT, Reg.GDL_LEG_STAT j, Reg.GDL_IRQ_STAT] ∧ SameMemory s t := by
  obtain ⟨g, hoff⟩ := ((s.at cyc).highSideNoted j).driveOff_eq d
  set m₀ := ((s.at cyc).highSideNoted j).onGate fun y => { y with legs := g y.legs } with hm₀
  have hwait : m₀.lane.waiting = [] := hroom
  have hfew := Mach.FewWait.of_nil hwait 0
  have hf : ((s.at cyc).highSideLow j).lvcUnder j = m₀.raiseF3 0x2003 k := by
    rw [Mach.lvcUnder_drive (six_le_of_driveOf hdrive), Mach.highSideLow_drive (m := s.at cyc) hslot hdrive, hoff]
  have htold : (s.at cyc).FocTells (legFaultRegs j) [] m₀ :=
    ((Mach.FocTells.refl _ _).highSideNoted j.isLt (by simp) (by simp) (by simp)).onGate _
  obtain ⟨t, ht, hm, hregs, hmem, hev⟩ := run_tells (s := s) (cyc := cyc) (f := fun m => (m.highSideLow j).lvcUnder j)
    (by rw [hf]; exact Mach.FocTells.raiseF3 hfew (by decide) 0x2003 k [] htold)
  rw [hf] at hm
  have hrd : ∀ b, t.m.rd b = ((s.at cyc).highSideNoted j).rd b := fun b => by
    rw [hm, Mach.settle_rd, hfew.raiseF3_rd (by decide), Mach.onGate_rd]
  obtain ⟨hfault, hflt, huv⟩ := (s.at cyc).highSideNoted_shows j.isLt
  refine ⟨t, ht, ⟨hev, ?_⟩, ?_, ?_, ?_, ?_, ?_, hregs, hmem⟩
  · rw [Enters, hm, Mach.settle_lane, htold.raiseF3_waiting hwait]
  · rwa [Mach.bit, hrd]
  · rwa [Mach.fld, hrd]
  · rwa [Mach.bit, hrd]
  · rw [hm, Mach.settle_gate, hfew.raiseF3_gate (by decide)]
    rfl
  · rw [hm, Mach.settle_lvc, hfew.raiseF3_lvc (by decide)]
    rfl

/-! ### Phases that are free (R230, R235) -/

/-- The phases among six that `f` names, as a mask: all are named where nothing of 0x3F is left. -/
theorem mask_six_eq_zero_iff (f : Nat → Bool) :
    0x3F ^^^ (((List.range 6).filter f).map (2 ^ ·)).sum = 0 ↔ ∀ i < 6, f i = true := by
  have hfin : ∀ g : Fin 6 → Bool, 0x3F ^^^ (((List.finRange 6).filter g).map fun i => 2 ^ i.val).sum = 0 ↔ ∀ i, g i = true := by
    decide
  have hrange : ((List.range 6).filter f).map (2 ^ ·) =
      ((List.finRange 6).filter fun i : Fin 6 => f i.val).map fun i : Fin 6 => 2 ^ i.val := by
    rw [← List.map_coe_finRange_eq_range, List.filter_map, List.map_map]
    rfl
  rw [hrange, hfin fun i => f i.val]
  exact ⟨fun h i hi => h ⟨i, hi⟩, fun h i => h i i.isLt⟩

theorem Mach.lvcAvailable_eq_zero_iff : m.lvcAvailable = 0 ↔ ∀ i < 6, phaseFree m i = false := by
  refine (mask_six_eq_zero_iff fun k => m.lvc.trip.testBit k || m.lvc.diagBad.testBit k || (m.leg k).latch || (m.leg k).blocked).trans
    (forall₂_congr fun i _ => ?_)
  rw [phaseFree, ← Bool.not_or, ← Bool.not_or, ← Bool.not_or, Bool.not_eq_false']

/-- The latch of a leg leaves the other phases as they were. -/
theorem Mach.phaseFree_highSideNoted_other {i j : Nat} (h : i ≠ j) : phaseFree (m.highSideNoted j) i = phaseFree m i := by
  have hleg : (m.highSideNoted j).leg i = m.leg i := by
    rw [Mach.leg, m.highSideNoted_gate j]
    exact (nth_upd ..).trans (if_neg fun hx => h hx.1)
  rw [phaseFree, hleg]
  rfl

theorem Mach.phaseFree_raise (code cls k i : Nat) : phaseFree (m.raise code cls k) i = phaseFree m i := rfl

theorem Mach.phaseFree_highSideNoted_self {j : Nat} (h : j < m.gate.legs.length) : phaseFree (m.highSideNoted j) j = false := by
  have hlatch : ((m.highSideNoted j).leg j).latch = true := by
    have hleg := m.leg_onLeg j j fun x => { x with latch := true, code := 1 }
    rw [if_pos ⟨rfl, h⟩] at hleg
    exact congrArg GateLeg.latch hleg
  rw [phaseFree, hlatch]
  simp

/-! ### The converter (R232, R235, R241, R243) -/

/-- Entering a state changes the converter, and tells at most that burst was entered or left. -/
theorem Mach.lvcEnter_cases (st : Nat) :
    ∃ g : LvcState → LvcState, (∀ x, (g x).state = st ∧ (g x).queue = x.queue) ∧
      (m.lvcEnter st = m.onLvc g ∨ m.lvcEnter st = (m.orr Reg.LVC_IRQ_STAT 0x80).onLvc g) := by
  unfold Mach.lvcEnter
  dsimp only
  split
  · refine ⟨_, ?_, .inr rfl⟩
    exact fun _ => ⟨rfl, rfl⟩
  · refine ⟨_, ?_, .inl rfl⟩
    exact fun _ => ⟨rfl, rfl⟩

theorem Mach.onLvc_onLvc (f g : LvcState → LvcState) : (m.onLvc f).onLvc g = m.onLvc (g ∘ f) := rfl

/-- A record of an event into a queue with room. -/
theorem Mach.lvcCapture_room {m : Mach} (h : m.lvc.queue.length < 4) (code st : Nat) :
    ∃ r v, m.lvcCapture code st = (m.onLvc fun x => { x with queue := x.queue ++ [r] }).setFld Reg.LVC_FRSTAT 2 0 v :=
  ⟨_, _, if_neg (Nat.not_le.2 h)⟩

/-- Blocked phases have left the mask and sharing (R235, R238). -/
def Mach.sharingLeft : Mach :=
  let gone := m.lvc.mask &&& m.lvcBlocked
  let left := if gone = 0 then m else m.onLvc fun x => { x with mask := x.mask ^^^ gone }
  if gone = 0 ∨ m.lvc.rampPh = 7 then left
  else if gone.testBit m.lvc.rampPh then left.onLvc fun x => { x with rampPh := 7, rampJ := 0 }
  else left.lvcAbort

/-- A change of the converter that leaves its state, its trips, its tests and its queue. -/
structure SharingOnly (g : LvcState → LvcState) : Prop where
  state : ∀ x, (g x).state = x.state
  trip : ∀ x, (g x).trip = x.trip
  diagBad : ∀ x, (g x).diagBad = x.diagBad
  queue : ∀ x, (g x).queue = x.queue

theorem Mach.sharingLeft_eq : ∃ g, SharingOnly g ∧ m.sharingLeft = m.onLvc g := by
  unfold Mach.sharingLeft
  dsimp only
  generalize m.lvc.mask &&& m.lvcBlocked = gone
  by_cases hgone : gone = 0
  · exact ⟨id, ⟨fun _ => rfl, fun _ => rfl, fun _ => rfl, fun _ => rfl⟩, by rw [if_pos (Or.inl hgone), if_pos hgone]; rfl⟩
  · rw [if_neg (c := gone = 0) hgone]
    split
    · refine ⟨_, ?_, rfl⟩
      exact ⟨fun _ => rfl, fun _ => rfl, fun _ => rfl, fun _ => rfl⟩
    · split
      · refine ⟨_, ?_, Mach.onLvc_onLvc ..⟩
        exact ⟨fun _ => rfl, fun _ => rfl, fun _ => rfl, fun _ => rfl⟩
      · refine ⟨_, ?_, Mach.onLvc_onLvc ..⟩
        exact ⟨fun _ => rfl, fun _ => rfl, fun _ => rfl, fun _ => rfl⟩

/-- Where no phase is left of a machine that switches, the converter latches off. -/
theorem Mach.lvcForced_eq :
    ∃ g, SharingOnly g ∧ m.lvcForced = if (m.onLvc g).lvcAvailable = 0 ∧ 2 ≤ m.lvc.state ∧ m.lvc.state ≠ 7
      then (m.onLvc g).lvcLatch else m.onLvc g := by
  obtain ⟨g, hg, heq⟩ := m.sharingLeft_eq
  refine ⟨g, hg, ?_⟩
  rw [← heq]
  rfl

/-- The phases that are left do not depend on what sharing becomes. -/
theorem Mach.lvcAvailable_onLvc {g : LvcState → LvcState} (h : SharingOnly g) :
    (m.onLvc g).lvcAvailable = m.lvcAvailable := by
  rw [Mach.lvcAvailable, Mach.lvcBlocked, Mach.onLvc_lvc, h.trip, h.diagBad]
  rfl

/-- While a phase is left, or the machine does not switch, blocked phases leave sharing and no more. -/
theorem Mach.lvcForced_stays (h : m.lvc.state < 2 ∨ m.lvc.state = 7 ∨ ∃ i < 6, phaseFree m i = true) :
    ∃ g : LvcState → LvcState, (∀ x, (g x).state = x.state) ∧ m.lvcForced = m.onLvc g := by
  obtain ⟨g, hg, heq⟩ := m.lvcForced_eq
  refine ⟨g, hg.state, heq.trans (if_neg ?_)⟩
  rw [m.lvcAvailable_onLvc hg, Mach.lvcAvailable_eq_zero_iff]
  rintro ⟨hnone, hlow, hlatched⟩
  rcases h with h | h | ⟨i, hi, hfree⟩
  · omega
  · exact hlatched h
  · rw [hnone i hi] at hfree
    cases hfree

/-- The registers of the converter that its events change. -/
abbrev lvcEventRegs : List Nat := [Reg.LVC_IRQ_STAT, Reg.LVC_FRSTAT]

/-- What the converter's latch leaves, where its record and its cause have room. -/
structure Mach.Latched (m₀ m : Mach) (regs : List Nat) (es : List Event) (m' : Mach) : Prop where
  tells : m₀.FocTells regs (es ++ [eventAt m₀ 0x2404 3 m.buckSlot [] 0]) m'
  state : m'.lvc.state = 7
  gate : m'.gate = m.gate
  waiting : m'.lane.waiting = [m₀.entryOf m₀.accTickNow ⟨10, m.buckSlot, 0, 0, 0x2404, []⟩]
  rd : ∀ b, b ∉ lvcEventRegs → m'.rd b = m.rd b

section
variable {m} {m₀ : Mach} {regs : List Nat} {es : List Event} (h : m₀.FocTells regs es m) (hirq : Reg.LVC_IRQ_STAT ∈ regs)
  (hfr : Reg.LVC_FRSTAT ∈ regs) (hqueue : m.lvc.queue.length < 4) (hroom : m.lane.waiting = [])
include h hirq hfr hqueue hroom

theorem Mach.latched_lvcLatch : m₀.Latched m regs es m.lvcLatch := by
  obtain ⟨g, hg, hcases⟩ := m.lvcEnter_cases 7
  set entered := m.lvcEnter 7 with hentered
  have hlvc : entered.lvc = g m.lvc := by rcases hcases with hc | hc <;> rw [hc] <;> rfl
  have hlane : entered.lane = m.lane := by rcases hcases with hc | hc <;> rw [hc] <;> rfl
  have hgate : entered.gate = m.gate := by rcases hcases with hc | hc <;> rw [hc] <;> rfl
  have hrd : ∀ b, b ≠ Reg.LVC_IRQ_STAT → entered.rd b = m.rd b := fun b hb => by
    rcases hcases with hc | hc <;> rw [hc, Mach.onLvc_rd]
    rw [Mach.rd_orr, if_neg hb]
  have htold : m₀.FocTells regs es entered := by
    rcases hcases with hc | hc <;> rw [hc]
    · exact h.onLvc g
    · exact (h.orr hirq (by decide) 0x80).onLvc g
  have hslot : entered.buckSlot = m.buckSlot := by rw [Mach.buckSlot, Mach.fld, hrd _ (by decide), Mach.buckSlot, Mach.fld]
  have hwait : entered.lane.waiting = [] := by rw [hlane, hroom]
  have hfew := Mach.FewWait.of_nil hwait 0
  set faulted := (entered.raiseF3 0x2404 m.buckSlot).orr Reg.LVC_IRQ_STAT (2 ^ 5) with hfaulted
  have hflvc : faulted.lvc = entered.lvc := hfew.raiseF3_lvc (by decide) ..
  obtain ⟨r, v, hcapture⟩ := Mach.lvcCapture_room (m := faulted) (by rw [hflvc, hlvc, (hg _).2]; exact hqueue) 0x2404 m.lvc.state
  have heq : m.lvcLatch = (faulted.onLvc fun x => { x with queue := x.queue ++ [r] }).setFld Reg.LVC_FRSTAT 2 0 v := by
    rw [← hcapture, hfaulted, ← hslot]
    rfl
  rw [heq]
  constructor
  case tells =>
    exact (((Mach.FocTells.raiseF3 hfew (by decide) 0x2404 m.buckSlot [] htold).orr hirq (by decide) _).onLvc _).setFld hfr
      (by decide) ..
  case state =>
    change faulted.lvc.state = 7
    rw [hflvc, hlvc, (hg _).1]
  case gate =>
    change (entered.raiseF3 0x2404 m.buckSlot).gate = m.gate
    rw [hfew.raiseF3_gate (by decide), hgate]
  case waiting => exact htold.raiseF3_waiting hwait ..
  case rd =>
    intro b hb
    obtain ⟨hb₁, hb₂⟩ : b ≠ Reg.LVC_IRQ_STAT ∧ b ≠ Reg.LVC_FRSTAT := by simpa using hb
    rw [Mach.rd_setFld, if_neg hb₂, Mach.onLvc_rd, hfaulted, Mach.rd_orr, if_neg hb₁, hfew.raiseF3_rd (by decide), hrd b hb₁]
end

/-- Where no phase is left of a machine that switches, the converter latches off. -/
theorem Mach.latched_lvcForced {m₀ m : Mach} {regs : List Nat} {es : List Event} (h : m₀.FocTells regs es m)
    (hirq : Reg.LVC_IRQ_STAT ∈ regs) (hfr : Reg.LVC_FRSTAT ∈ regs) (hqueue : m.lvc.queue.length < 4)
    (hroom : m.lane.waiting = []) (hnone : ∀ i < 6, phaseFree m i = false) (hlow : 2 ≤ m.lvc.state) (hst : m.lvc.state ≠ 7) :
    m₀.Latched m regs es m.lvcForced := by
  obtain ⟨g, hg, heq⟩ := m.lvcForced_eq
  rw [if_pos ⟨by rwa [m.lvcAvailable_onLvc hg, Mach.lvcAvailable_eq_zero_iff], hlow, hst⟩] at heq
  obtain ⟨htells, hstate, hgate, hwaiting, hrd⟩ :=
    Mach.latched_lvcLatch (h.onLvc g) hirq hfr (by rw [Mach.onLvc_lvc, hg.queue]; exact hqueue) hroom
  rw [← heq] at htells hstate hgate hwaiting hrd
  exact ⟨htells, hstate, hgate, hwaiting, hrd⟩

/-! ### A phase of the converter (R209, R235) -/

/-- What the leg's latch and its F1 event leave before the converter's protections act. -/
def State.highSideTold (s : State) (cyc : Nat) (j k : Nat) : Mach := ((s.at cyc).highSideNoted j).raise 0x2002 1 k

theorem State.focTells_highSideTold (s : State) (cyc : Nat) (j : Fin 24) (k : Nat) {regs : List Nat}
    (hregs : ∀ b ∈ legFaultRegs j, b ∈ regs) :
    (s.at cyc).FocTells regs [eventAt (s.at cyc) 0x2002 1 k [] 0] (s.highSideTold cyc j k) :=
  ((Mach.FocTells.refl (s.at cyc) regs).highSideNoted j.isLt (hregs _ (by simp)) (hregs _ (by simp)) (hregs _ (by simp))).raise
    0x2002 1 k [] 0

theorem legCfg_not_mem_legFaultRegs (j : Fin 24) : Reg.GDL_LEG_CFG j ∉ legFaultRegs j := by revert j; decide

theorem lvcCfg_not_mem_legFaultRegs (j : Fin 24) : Reg.LVC_CFG ∉ legFaultRegs j := by revert j; decide

theorem State.highSideTold_shows (s : State) (cyc : Nat) (j : Fin 24) (k : Nat) :
    (s.highSideTold cyc j k).bit Reg.GDL_FAULT j = true ∧ (s.highSideTold cyc j k).fld (Reg.GDL_LEG_STAT j) 28 26 = 1 ∧
      (s.highSideTold cyc j k).bit (Reg.GDL_LEG_STAT j) 29 = true := by
  rw [State.highSideTold, Mach.raise_bit, Mach.raise_fld, Mach.raise_bit]
  exact (s.at cyc).highSideNoted_shows j.isLt

/-- The leg's latch and its event leave the other phases as they were. -/
theorem State.phaseFree_highSideTold (s : State) (cyc : Nat) (j : Fin 24) (k : Nat) {i : Nat} (h : i ≠ j.val) :
    phaseFree (s.highSideTold cyc j k) i = phaseFree s.m i := by
  rw [State.highSideTold, Mach.phaseFree_raise, Mach.phaseFree_highSideNoted_other _ h]
  rfl

theorem State.phaseFree_highSideTold_self (s : State) (cyc : Nat) (j : Fin 24) (k : Nat) (h : j.val < s.m.gate.legs.length) :
    phaseFree (s.highSideTold cyc j k) j = false := by
  rw [State.highSideTold, Mach.phaseFree_raise]
  exact (s.at cyc).phaseFree_highSideNoted_self h

section
variable {s : State} {j : Fin 24} {k : Nat} (hdrive : driveOf j = none) (hslot : s.m.slotOfLeg j = some k) (cyc : Nat)
include hdrive hslot

theorem highSide_phase : ((s.at cyc).highSideLow j).lvcUnder j = (s.highSideTold cyc j k).lvcForced := by
  have hcfg := (s.focTells_highSideTold cyc j k fun _ h => h).rd _ (legCfg_not_mem_legFaultRegs j)
  rw [Mach.highSideLow_phase (m := s.at cyc) hslot hdrive]
  exact Mach.lvcUnder_phase (lt_six_of_driveOf hdrive) ((Mach.slotOfLeg_congr hcfg).trans hslot)

theorem exec_highSideUndervoltage_phase
    (h : s.m.lvc.state < 2 ∨ s.m.lvc.state = 7 ∨ (∃ i < 6, i ≠ j.val ∧ phaseFree s.m i = true)) :
    ∃ t, exec (.highSideUndervoltage cyc j) s = .next t ∧ Raises s t [eventAt (s.at cyc) 0x2002 1 k [] 0] ∧
      t.m.bit Reg.GDL_FAULT j = true ∧ t.m.fld (Reg.GDL_LEG_STAT j) 28 26 = 1 ∧ t.m.bit (Reg.GDL_LEG_STAT j) 29 = true ∧
      t.m.gate.legs = upd s.m.gate.legs j (fun x => { x with latch := true, code := 1 }) ∧ t.m.lvc.state = s.m.lvc.state ∧
      SameRegsBut s t [Reg.GDL_FAULT, Reg.GDL_LEG_STAT j, Reg.GDL_IRQ_STAT] ∧ SameMemory s t := by
  obtain ⟨g, hg, hforced⟩ := (s.highSideTold cyc j k).lvcForced_stays (h.imp_right (Or.imp_right fun ⟨i, hi, hne, hfree⟩ =>
    ⟨i, hi, (s.phaseFree_highSideTold cyc j k hne).trans hfree⟩))
  have hf := (highSide_phase hdrive hslot cyc).trans hforced
  obtain ⟨t, ht, hm, hregs, hmem, hev⟩ := run_tells (s := s) (cyc := cyc) (f := fun m => (m.highSideLow j).lvcUnder j)
    (by rw [hf]; exact (s.focTells_highSideTold cyc j k fun _ h => h).onLvc g)
  rw [hf] at hm
  obtain ⟨hfault, hflt, huv⟩ := s.highSideTold_shows cyc j k
  have hrd : ∀ b, t.m.rd b = (s.highSideTold cyc j k).rd b := fun b => by rw [hm, Mach.settle_rd, Mach.onLvc_rd]
  refine ⟨t, ht, hev, ?_, ?_, ?_, by rw [hm]; rfl, ?_, hregs, hmem⟩
  · rwa [Mach.bit, hrd]
  · rwa [Mach.fld, hrd]
  · rwa [Mach.bit, hrd]
  · rw [hm, Mach.settle_lvc, Mach.onLvc_lvc, hg]
    rfl

theorem exec_highSideUndervoltage_lastPhase (hlen : j.val < s.m.gate.legs.length) (hlow : 2 ≤ s.m.lvc.state)
    (hst : s.m.lvc.state ≠ 7) (hnone : ∀ i < 6, i ≠ j.val → phaseFree s.m i = false) (hqueue : s.m.lvc.queue.length < 4)
    (hroom : s.roomy) :
    ∃ t, exec (.highSideUndervoltage cyc j) s = .next t ∧ t.m.lvc.state = 7 ∧ t.m.bit Reg.GDL_FAULT j = true ∧
      Raises s t [eventAt (s.at cyc) 0x2002 1 k [] 0, eventAt (s.at cyc) 0x2404 3 s.m.buckSlot [] 0] ∧
      Enters s t cyc ⟨10, s.m.buckSlot, 0, 0, 0x2404, []⟩ ∧
      SameRegsBut s t [Reg.GDL_FAULT, Reg.GDL_LEG_STAT j, Reg.GDL_IRQ_STAT, Reg.LVC_IRQ_STAT, Reg.LVC_FRSTAT] ∧ SameMemory s t := by
  have hfree : ∀ i < 6, phaseFree (s.highSideTold cyc j k) i = false := fun i hi => by
    by_cases hij : i = j.val
    · rw [hij]
      exact s.phaseFree_highSideTold_self cyc j k hlen
    · exact (s.phaseFree_highSideTold cyc j k hij).trans (hnone i hi hij)
  obtain ⟨htells, hstate, -, hwaiting, hrd⟩ := Mach.latched_lvcForced
    (s.focTells_highSideTold cyc j k (regs := [Reg.GDL_FAULT, Reg.GDL_LEG_STAT j, Reg.GDL_IRQ_STAT, Reg.LVC_IRQ_STAT, Reg.LVC_FRSTAT])
      (by simp)) (by simp) (by simp) hqueue hroom hfree hlow hst
  have hslot' : (s.highSideTold cyc j k).buckSlot = s.m.buckSlot := by
    have hcfg := (s.focTells_highSideTold cyc j k fun _ h => h).rd Reg.LVC_CFG (lvcCfg_not_mem_legFaultRegs j)
    rw [Mach.buckSlot, Mach.fld, hcfg]
    rfl
  have hf := highSide_phase hdrive hslot cyc
  obtain ⟨t, ht, hm, hregs, hmem, hev⟩ := run_tells (s := s) (cyc := cyc) (f := fun m => (m.highSideLow j).lvcUnder j)
    (by rw [hf]; exact htells)
  rw [hf] at hm
  rw [hslot'] at hev hwaiting
  refine ⟨t, ht, by rw [hm]; exact hstate, ?_, hev, by rw [Enters, hm]; exact hwaiting, hregs, hmem⟩
  rw [hm, Mach.settle_bit, Mach.bit, hrd _ (by decide)]
  exact (s.highSideTold_shows cyc j k).1
end

end Sys2Proof.Machine
end

section
/-! The supplies of the legs (R207, R208, R217, R295): the charge pump, refresh pulses and the drive supply. -/

namespace Sys2Proof.Machine

variable (m : Mach)

/-! ### The charge pump (R207) -/

theorem legCfg_ne_legStat (i j : Nat) : Reg.GDL_LEG_CFG i ≠ Reg.GDL_LEG_STAT j := by
  dsimp only [Reg.GDL_LEG_CFG, Reg.GDL_LEG_STAT]
  omega

theorem legCfg_ne_gdlIrq (j : Nat) : Reg.GDL_LEG_CFG j ≠ Reg.GDL_IRQ_STAT := by
  dsimp only [Reg.GDL_LEG_CFG, Reg.GDL_IRQ_STAT]
  omega

/-- The leg's pump is low, and its register shows it. -/
def Mach.pumpShownLow (j : Nat) : Mach := (m.onLeg j fun x => { x with pumpBad := true }).setBit (Reg.GDL_LEG_STAT j) 31 false

/-- A leg with a pump alone goes to refresh. -/
def Mach.pumpNoted (j : Nat) : Mach :=
  if (m.pumpShownLow j).fld (Reg.GDL_LEG_CFG j) 26 25 = 0 then (m.pumpShownLow j).setBit (Reg.GDL_LEG_STAT j) 30 true
  else m.pumpShownLow j

theorem Mach.pumpNoted_gate (j : Nat) :
    (m.pumpNoted j).gate = { m.gate with legs := upd m.gate.legs j fun x => { x with pumpBad := true } } := by
  unfold Mach.pumpNoted
  split <;> rfl

theorem Mach.pumpNoted_rd_other {b j : Nat} (h : b ≠ Reg.GDL_LEG_STAT j) : (m.pumpNoted j).rd b = m.rd b := by
  have hlow : (m.pumpShownLow j).rd b = m.rd b := by rw [Mach.pumpShownLow, Mach.rd_setBit, if_neg h, Mach.onLeg, Mach.onGate_rd]
  unfold Mach.pumpNoted
  split
  · rw [Mach.rd_setBit, if_neg h, hlow]
  · exact hlow

theorem Mach.pumpNoted_bit_pump (j : Nat) : (m.pumpNoted j).bit (Reg.GDL_LEG_STAT j) 31 = false := by
  have hlow : (m.pumpShownLow j).bit (Reg.GDL_LEG_STAT j) 31 = false := Mach.bit_setBit _ _ (by omega)
  unfold Mach.pumpNoted
  split
  · rw [Mach.bit_setBit_other _ _ (by omega) (.inr (by omega)), hlow]
  · exact hlow

theorem Mach.pumpNoted_bit_refresh (j : Nat) :
    (m.pumpNoted j).bit (Reg.GDL_LEG_STAT j) 30 = (m.bit (Reg.GDL_LEG_STAT j) 30 || m.fld (Reg.GDL_LEG_CFG j) 26 25 == 0) := by
  have hcfg : (m.pumpShownLow j).fld (Reg.GDL_LEG_CFG j) 26 25 = m.fld (Reg.GDL_LEG_CFG j) 26 25 := by
    rw [Mach.fld, Mach.pumpShownLow, Mach.rd_setBit, if_neg (legCfg_ne_legStat j j), Mach.onLeg, Mach.onGate_rd, Mach.fld]
  rw [Mach.pumpNoted, hcfg]
  split
  next h => rw [Mach.bit_setBit _ _ (by omega), h, beq_self_eq_true, Bool.or_true]
  next h =>
    rw [Mach.pumpShownLow, Mach.bit_setBit_other _ _ (by omega) (.inr (by omega)), beq_false_of_ne h, Bool.or_false, Mach.onLeg,
      Mach.bit, Mach.onGate_rd, Mach.bit]

theorem Mach.FocTells.pumpNoted {m₀ m : Mach} {regs : List Nat} {es : List Event} {j : Nat} (h : m₀.FocTells regs es m) (hj : j < 24)
    (hstat : Reg.GDL_LEG_STAT j ∈ regs) : m₀.FocTells regs es (m.pumpNoted j) := by
  have hlow := (h.onGate fun g => { g with legs := upd g.legs j fun x => { x with pumpBad := true } }).setBit hstat
    (powerStageReg_legStat hj) 31 false
  exact iteInduction (fun _ => hlow.setBit hstat (powerStageReg_legStat hj) 30 true) fun _ => hlow

section
variable {m} {j : Nat}

theorem Mach.pumpFault_nothing (h : m.slotOfLeg j = none ∨ m.fld (Reg.GDL_LEG_CFG j) 26 25 = 1 ∨ (m.leg j).pumpBad = true) :
    m.pumpFault j = m := by
  refine if_pos ?_
  rcases h with h | h | h <;> simp [h]

theorem Mach.pumpFault_due {k : Nat} (hslot : m.slotOfLeg j = some k) (hpump : m.fld (Reg.GDL_LEG_CFG j) 26 25 ≠ 1)
    (hbad : (m.leg j).pumpBad = false) : m.pumpFault j = ((m.pumpNoted j).raise 0x2001 1 k).orr Reg.GDL_IRQ_STAT 1 := by
  have hslot' : (m.pumpNoted j).slotOfLeg j = some k :=
    (Mach.slotOfLeg_congr (m.pumpNoted_rd_other (legCfg_ne_legStat j j))).trans hslot
  have hf : m.pumpFault j = ((m.pumpNoted j).raise 0x2001 1 (((m.pumpNoted j).slotOfLeg j).getD 0xFF)).orr Reg.GDL_IRQ_STAT 1 :=
    if_neg (by simp [hslot, hpump, hbad])
  rw [hf, hslot', Option.getD_some]

theorem Mach.pumpGood_nothing (h : m.slotOfLeg j = none ∨ m.fld (Reg.GDL_LEG_CFG j) 26 25 = 1) : m.pumpGood j = m := by
  refine if_pos ?_
  rcases h with h | h <;> simp [h]

theorem Mach.pumpGood_due {k : Nat} (hslot : m.slotOfLeg j = some k) (hpump : m.fld (Reg.GDL_LEG_CFG j) 26 25 ≠ 1) :
    m.pumpGood j = ((m.onLeg j fun x => { x with pumpBad := false }).setBit (Reg.GDL_LEG_STAT j) 31 true).setBit
      (Reg.GDL_LEG_STAT j) 30 false := if_neg (by simp [hslot, hpump])
end

section
variable {s : State} {j : Fin 24} {k : Nat} (hslot : s.m.slotOfLeg j = some k) (hpump : s.m.fld (Reg.GDL_LEG_CFG j) 26 25 ≠ 1)
  (cyc : Nat)
include hslot hpump

theorem exec_pumpFault_due (hbad : (s.m.leg j).pumpBad = false) :
    ∃ t, exec (.pumpFault cyc j) s = .next t ∧ Raises s t [eventAt (s.at cyc) 0x2001 1 k [] 0] ∧
      t.m.gate.legs = upd s.m.gate.legs j (fun x => { x with pumpBad := true }) ∧ t.m.bit (Reg.GDL_LEG_STAT j) 31 = false ∧
      t.m.bit (Reg.GDL_LEG_STAT j) 30 = (s.m.bit (Reg.GDL_LEG_STAT j) 30 || s.m.fld (Reg.GDL_LEG_CFG j) 26 25 == 0) ∧
      SameRegsBut s t [Reg.GDL_LEG_STAT j, Reg.GDL_IRQ_STAT] ∧ SameMemory s t := by
  have hf := Mach.pumpFault_due (m := s.at cyc) hslot hpump hbad
  obtain ⟨t, ht, hm, hregs, hmem, hev⟩ := run_tells (s := s) (cyc := cyc) (f := fun m => m.pumpFault j)
    (regs := [Reg.GDL_LEG_STAT j, Reg.GDL_IRQ_STAT]) (by
      rw [hf]
      exact (((Mach.FocTells.refl _ _).pumpNoted j.isLt (by simp)).raise 0x2001 1 k [] 0).orr (by simp) (by decide) 1)
  rw [hf] at hm
  have hbit : ∀ i, t.m.bit (Reg.GDL_LEG_STAT j) i = ((s.at cyc).pumpNoted j).bit (Reg.GDL_LEG_STAT j) i := fun i => by
    rw [hm, Mach.settle_bit, Mach.bit, Mach.rd_orr, if_neg (gdlIrq_ne_legStat j).symm, Mach.raise_rd, Mach.bit]
  refine ⟨t, ht, hev, ?_, ?_, ?_, hregs, hmem⟩
  · rw [hm, Mach.settle_gate, Mach.orr_gate, Mach.raise_gate, Mach.pumpNoted_gate]
    rfl
  · rw [hbit, Mach.pumpNoted_bit_pump]
  · rw [hbit, Mach.pumpNoted_bit_refresh]
    rfl

theorem exec_pumpFaultRecovery_due :
    ∃ t, exec (.pumpFaultRecovery cyc j) s = .next t ∧ t.m.gate.legs = upd s.m.gate.legs j (fun x => { x with pumpBad := false }) ∧
      t.m.bit (Reg.GDL_LEG_STAT j) 31 = true ∧ t.m.bit (Reg.GDL_LEG_STAT j) 30 = false ∧ Quiet s t [Reg.GDL_LEG_STAT j] := by
  have hf := Mach.pumpGood_due (m := s.at cyc) hslot hpump
  have hreg := powerStageReg_legStat j.isLt
  obtain ⟨t, ht, hm, hquiet⟩ := run_tells (s := s) (cyc := cyc) (f := fun m => m.pumpGood j) (regs := [Reg.GDL_LEG_STAT j]) (by
    rw [hf]
    exact (((Mach.FocTells.refl _ _).onGate _).setBit (by simp) hreg 31 true).setBit (by simp) hreg 30 false)
  rw [hf] at hm
  refine ⟨t, ht, by rw [hm]; rfl, ?_, ?_, hquiet⟩
  · rw [hm, Mach.settle_bit, Mach.bit_setBit_other _ _ (by omega) (.inr (by omega)), Mach.bit_setBit _ _ (by omega)]
  · rw [hm, Mach.settle_bit, Mach.bit_setBit _ _ (by omega)]
end

/-! ### Refresh pulses (R208, R210) -/

/-- What a refresh pulse makes of its leg. -/
def refreshed (t low : Int) (x : GateLeg) : GateLeg :=
  { x with out := x.out.upTo t, lowNow := x.lowNow + low + 32 * 60, seen := max x.seen t, refr := x.refr + 1, refreshAt := some t,
           refreshDue := false }

section
variable {m} {j : Nat}

theorem Mach.refreshPulse_nothing (h : ∀ k, m.slotOfLeg j = some k → ¬RefreshDue m j k) : m.refreshPulse j = m := by
  unfold Mach.refreshPulse
  split
  next => rfl
  next k hslot =>
    refine if_neg fun hdue => h k hslot ?_
    simpa [RefreshDue, and_assoc] using hdue

theorem Mach.refreshPulse_due {k : Nat} (hslot : m.slotOfLeg j = some k) (hdue : RefreshDue m j k) :
    m.refreshPulse j = m.onLeg j (refreshed (32 * m.time.cyc) (m.lowUntil j (32 * m.time.cyc))) := by
  rw [Mach.refreshPulse, hslot]
  refine (if_pos ?_).trans (Mach.onLeg_onLeg ..)
  simpa [RefreshDue, and_assoc] using hdue
end

/-! ### The drive supply (R217, R295) -/

/-- Without the drive supply a leg's gates are off. -/
theorem Mach.legOut_of_lvLow {m : Mach} (h : m.gate.lvLow = true) (j : Nat) : m.legOut j = (false, false) := by
  unfold Mach.legOut
  dsimp only
  split
  next => rfl
  next => simp [h]

/-- The event of each leg of `l`, of the slot that uses it. -/
theorem Mach.FocTells.raiseLegs {m₀ m : Mach} {regs : List Nat} {es : List Event} (hcfg : ∀ j, Reg.GDL_LEG_CFG j ∉ regs)
    (l : List Nat) (h : m₀.FocTells regs es m) :
    m₀.FocTells regs (es ++ l.map fun j => eventAt m₀ 0x2001 1 ((m₀.slotOfLeg j).getD 0xFF) [] 0)
      (forL l (fun j m => m.raise 0x2001 1 ((m.slotOfLeg j).getD 0xFF)) m) := by
  induction l generalizing m es with
  | nil => rwa [List.map_nil, List.append_nil]
  | cons j l ih =>
    rw [List.map_cons, List.append_cons, ← Mach.slotOfLeg_congr (h.rd _ (hcfg j))]
    exact ih (h.raise ..)

/-- The legs that a slot uses. -/
abbrev Mach.legsInUse : List Nat := (List.range 24).filter fun j => (m.slotOfLeg j).isSome

theorem Mach.supplyLow_due {m : Mach} (h : m.gate.lvLow = false) :
    m.supplyLow = (forL m.legsInUse (fun j m => m.raise 0x2001 1 ((m.slotOfLeg j).getD 0xFF))
      (m.onGate fun g => { g with lvLow := true })).orr Reg.GDL_IRQ_STAT (if m.legsInUse.isEmpty then 0 else 1) :=
  if_neg (by simp [h])

theorem exec_driveSupplyLow_due {s : State} (h : s.m.gate.lvLow = false) (cyc : Nat) :
    ∃ t, exec (.driveSupplyLow cyc) s = .next t ∧ t.m.gate = { s.m.gate with lvLow := true } ∧
      (∀ j : Fin 24, t.m.legOut j = (false, false)) ∧
      Raises s t (((List.range 24).filter fun j => (s.m.slotOfLeg j).isSome).map fun j =>
        eventAt (s.at cyc) 0x2001 1 ((s.m.slotOfLeg j).getD 0xFF) [] 0) ∧
      SameRegsBut s t [Reg.GDL_IRQ_STAT] ∧ SameMemory s t := by
  have hf := Mach.supplyLow_due (m := s.at cyc) h
  obtain ⟨t, ht, hm, hregs, hmem, hev⟩ := run_tells (s := s) (cyc := cyc) (f := fun m => m.supplyLow)
    (regs := [Reg.GDL_IRQ_STAT]) (by
      rw [hf]
      exact (Mach.FocTells.raiseLegs (fun j => by simp [legCfg_ne_gdlIrq]) _ ((Mach.FocTells.refl _ _).onGate _)).orr (by simp)
        (by decide) _)
  have hgate : t.m.gate = { s.m.gate with lvLow := true } := by
    rw [hm, hf, Mach.settle_gate, Mach.orr_gate, forL_keeps Mach.gate fun _ _ => Mach.raise_gate ..]
    rfl
  exact ⟨t, ht, hgate, fun j => Mach.legOut_of_lvLow (by rw [hgate]) j, hev, hregs, hmem⟩

/-! ### The obligation -/

/-- A command that finds nothing to do leaves the channels. -/
theorem run_gate_kept {s : State} {cyc : Nat} {f : Mach → Mach} (hf : f (s.at cyc) = s.at cyc) :
    ∃ t, run s cyc f = .next t ∧ t.m.gate = s.m.gate ∧ Quiet s t [] := by
  obtain ⟨t, ht, hm, hquiet⟩ := run_gate_nothing hf
  exact ⟨t, ht, by rw [hm]; rfl, hquiet⟩

theorem exec_highSideUndervoltage_none {s : State} {j : Fin 24} (h : s.m.slotOfLeg j = none) (cyc : Nat) :
    ∃ t, exec (.highSideUndervoltage cyc j) s = .next t ∧ t.m.gate = s.m.gate ∧ t.m.lvc = s.m.lvc ∧ Quiet s t [] := by
  obtain ⟨t, ht, hm, hquiet⟩ := run_gate_nothing (s := s) (cyc := cyc) (f := fun m => (m.highSideLow j).lvcUnder j)
    (by rw [Mach.highSideLow_none (m := s.at cyc) h, Mach.lvcUnder_none (m := s.at cyc) h])
  exact ⟨t, ht, by rw [hm]; rfl, by rw [hm]; rfl, hquiet⟩

theorem exec_refreshPulse_due {s : State} {cyc : Nat} {j : Fin 24} {k : Nat} (hslot : s.m.slotOfLeg j = some k)
    (hdue : RefreshDue (s.at cyc) j k) :
    ∃ t g, exec (.refreshPulse cyc j) s = .next t ∧ Quiet s t [] ∧ t.m.gate.legs = upd s.m.gate.legs j g ∧
      ∀ x, (g x).refr = x.refr + 1 ∧ (g x).refreshAt = some (32 * ((s.at cyc).time.cyc : Int)) ∧ (g x).refreshDue = false ∧
        (g x).latch = x.latch ∧ (g x).mode = x.mode := by
  have hf := Mach.refreshPulse_due (m := s.at cyc) hslot hdue
  obtain ⟨t, ht, hm, hquiet⟩ := run_tells (s := s) (cyc := cyc) (f := fun m => m.refreshPulse j)
    (by rw [hf]; exact (Mach.FocTells.refl _ []).onGate _)
  refine ⟨t, refreshed (32 * (s.at cyc).time.cyc) ((s.at cyc).lowUntil j (32 * (s.at cyc).time.cyc)), ht, hquiet, ?_,
    fun _ => ⟨rfl, rfl, rfl, rfl, rfl⟩⟩
  rw [hm, hf]
  rfl

/-- Settles O26: per command its condition, met and not met; what latches a channel goes through the latch of its pair or leg, the
converter's part through what `lvcForced` leaves. -/
theorem gateFaultsAndLegSupplies : Obligations.GateFaultsAndLegSupplies := by
  refine ⟨fun cyc p s k hslot hroom => exec_stuckGate_pair hroom cyc hslot,
    fun cyc j s k hslot hroom => exec_stuckGate_leg hslot hroom cyc,
    fun cyc ch s k hslot hroom => ⟨exec_barrierLoss_some hroom cyc hslot, exec_isolatedRailUndervoltage_some hroom cyc hslot⟩,
    fun cyc ch s h => ⟨run_gate_kept (f := fun m => m.stuckPair _) (Mach.stuckPair_none h),
      run_gate_kept (f := fun m => m.barrierLoss ch) (Mach.barrierLoss_none h),
      run_gate_kept (f := fun m => m.railLow ch) (Mach.railLow_none h)⟩,
    fun cyc ch s h => exec_isolatedRailRecovery_due h cyc,
    fun cyc ch s h => run_gate_kept (f := fun m => m.railGood ch) (Mach.railGood_nothing h),
    fun cyc j s k d hdrive hslot hroom => exec_highSideUndervoltage_drive hdrive hslot hroom cyc,
    fun cyc j s k hdrive hslot h => exec_highSideUndervoltage_phase hdrive hslot cyc h,
    fun cyc j s k hdrive hslot hlen hlow hst hnone hqueue hroom =>
      exec_highSideUndervoltage_lastPhase hdrive hslot cyc hlen hlow hst hnone hqueue hroom,
    fun cyc j s h => ⟨run_gate_kept (f := fun m => m.stuckLeg _) (Mach.stuckLeg_none h), exec_highSideUndervoltage_none h cyc⟩,
    fun cyc j s k d mv hdrive hslot hroom hthr hmv hwatched => exec_vdsOvercurrent_due hslot hroom cyc hdrive hthr hmv hwatched,
    fun cyc j s mv h => run_gate_kept (f := fun m => m.vdsOver j mv) (Mach.vdsOver_nothing h),
    fun cyc j s k hslot hpump hbad => exec_pumpFault_due hslot hpump cyc hbad,
    fun cyc j s h => run_gate_kept (f := fun m => m.pumpFault j) (Mach.pumpFault_nothing h),
    fun cyc j s k hslot hpump => exec_pumpFaultRecovery_due hslot hpump cyc,
    fun cyc j s h => run_gate_kept (f := fun m => m.pumpGood j) (Mach.pumpGood_nothing h),
    fun cyc j s k hslot hdue => exec_refreshPulse_due hslot hdue, fun cyc j s h => ?_,
    fun cyc s h => exec_driveSupplyLow_due h cyc, fun cyc s h => run_gate_kept (f := fun m => m.supplyLow) (if_pos h),
    fun cyc s => ?_⟩
  · obtain ⟨t, ht, hgate, hquiet⟩ := run_gate_kept (f := fun m => m.refreshPulse j) (Mach.refreshPulse_nothing h)
    exact ⟨t, ht, hquiet, hgate⟩
  · obtain ⟨t, ht, hm, hquiet⟩ := run_tells (s := s) (cyc := cyc) (f := fun m => m.onGate fun g => { g with lvLow := false })
      ((Mach.FocTells.refl _ []).onGate _)
    exact ⟨t, ht, by rw [hm]; rfl, hquiet⟩

end Sys2Proof.Machine
end

section
/-! Edges of legs and pairs and the results of diagnostics (R194 to R198, R215, R216). -/

namespace Sys2Proof.Machine

variable (m : Mach)

/-! ### The edge of the present cycle (R194) -/

/-- The switches of a record before the present cycle. -/
abbrev Mach.outBefore (o : Gates) : Gates := o.upTo (32 * m.time.cyc - 1)

/-- What the edge `e` leaves of the record `g`, with `es` to follow. -/
abbrev edgeApplied (g : Gates) (e : GateEdge) (ext : Nat) (es : List GateEdge) : Gates :=
  { g.apply e with edges := holdOn (g.h, g.l) e ext es }

theorem Mach.edgeNow_cons {m : Mach} {o : Gates} {e : GateEdge} {es : List GateEdge} (h : (m.outBefore o).edges = e :: es)
    (hnow : e.at_ ≤ endOf m.time.cyc) (ext : Nat) :
    m.edgeNow o ext = some (m.outBefore o, edgeApplied (m.outBefore o) e ext es) := by
  unfold Mach.edgeNow
  dsimp only
  split
  next e' es' h' =>
    obtain ⟨rfl, rfl⟩ := List.cons.inj (h'.symm.trans h)
    exact if_pos hnow
  next h' => cases h'.symm.trans h

/-- Without an extension the complement is not held back. -/
theorem holdOn_zero (was : Bool × Bool) (e : GateEdge) (es : List GateEdge) : holdOn was e 0 es = es := by
  cases es with
  | nil => rfl
  | cons n r => exact if_neg (by simp)

/-- A complement that the interlock holds back, before any later command. -/
theorem holdOn_extended {was : Bool × Bool} {e n : GateEdge} {ext : Nat} {r : List GateEdge}
    (hoff : (was.1 = true ∧ e.h = false) ∨ (was.2 = true ∧ e.l = false))
    (hon : (n.h = true ∧ e.h = false) ∨ (n.l = true ∧ e.l = false)) (hext : 0 < ext) (hlater : ∀ y ∈ r, n.at_ + 32 * ext < y.at_) :
    holdOn was e ext (n :: r) = { n with at_ := n.at_ + 32 * ext } :: r := by
  have hcut : ¬((r.head?.any fun y => decide (y.at_ ≤ n.at_ + 32 * ext)) = true) := by
    rw [Option.any_eq_true]
    rintro ⟨y, hy, hle⟩
    have hlt := hlater y (List.mem_of_mem_head? hy)
    have hle := of_decide_eq_true hle
    omega
  refine (if_pos ?_).trans (if_neg hcut)
  simpa [hext] using And.intro hoff hon

/-! ### Legs -/

section
variable {m} {j : Nat}

theorem Mach.legEdge_nothing {ext : Nat} (h : m.slotOfLeg j = none ∨ m.edgeNow (m.leg j).out ext = none) : m.legEdge j ext = m := by
  unfold Mach.legEdge
  split
  next => rfl
  next hslot =>
    rw [Option.isNone_iff_eq_none] at hslot
    rw [h.resolve_left hslot]

/-- An edge of a leg, with the time its low side was on until then. -/
theorem Mach.legEdge_due {ext k : Nat} {g x : Gates} (hslot : m.slotOfLeg j = some k)
    (hedge : m.edgeNow (m.leg j).out ext = some (g, x)) :
    m.legEdge j ext = m.onLeg j fun y =>
      { y with out := x, lowNow := y.lowNow + m.lowUntil j (32 * m.time.cyc - 1), seen := max y.seen (32 * m.time.cyc - 1) } := by
  rw [Mach.legEdge, if_neg (by simp [hslot]), hedge]
  exact Mach.onLeg_onLeg ..
end

/-! ### Pairs -/

/-- The edge of a pair is executed, and the interlock's extension counted. -/
def Mach.edgeTaken (p ext : Nat) (g x : Gates) : Mach :=
  let taken := m.onPair p fun y => { y with out := x }
  if decide (x.edges ≠ g.edges.drop 1) then
    taken.setFld (Reg.GDI_PR_STAT p) 7 0 (min (taken.fld (Reg.GDI_PR_STAT p) 7 0 + ext) 255)
  else taken

section
variable {p ext : Nat} {g x : Gates}

theorem Mach.edgeTaken_gate :
    (m.edgeTaken p ext g x).gate = { m.gate with pairs := upd m.gate.pairs p fun y => { y with out := x } } := by
  unfold Mach.edgeTaken
  dsimp only
  split <;> rfl

theorem Mach.edgeTaken_rd_other {b : Nat} (h : b ≠ Reg.GDI_PR_STAT p) : (m.edgeTaken p ext g x).rd b = m.rd b := by
  unfold Mach.edgeTaken
  dsimp only
  split
  · rw [Mach.rd_setFld, if_neg h, Mach.onPair, Mach.onGate_rd]
  · rw [Mach.onPair, Mach.onGate_rd]

theorem Mach.edgeTaken_ilx : (m.edgeTaken p ext g x).fld (Reg.GDI_PR_STAT p) 7 0 =
    if x.edges = g.edges.drop 1 then m.fld (Reg.GDI_PR_STAT p) 7 0 else min (m.fld (Reg.GDI_PR_STAT p) 7 0 + ext) 255 := by
  have htaken : ∀ f, (m.onPair p f).fld (Reg.GDI_PR_STAT p) 7 0 = m.fld (Reg.GDI_PR_STAT p) 7 0 := fun f => by
    rw [Mach.fld, Mach.onPair, Mach.onGate_rd, Mach.fld]
  unfold Mach.edgeTaken
  dsimp only
  rw [htaken]
  split
  next h =>
    rw [if_neg (of_decide_eq_true h)]
    exact (Mach.fld_setFld _ _ (by omega) (by omega)).trans (Nat.mod_eq_of_lt (by omega))
  next h =>
    rw [htaken, if_pos]
    simpa using h

theorem Mach.edgeTaken_same (h : x.edges = g.edges.drop 1) :
    m.edgeTaken p ext g x = m.onPair p fun y => { y with out := x } := if_neg (by simp [h])

theorem Mach.FocTells.edgeTaken {m₀ m : Mach} {regs : List Nat} {es : List Event} (h : m₀.FocTells regs es m) (hp : p < 16)
    (hstat : Reg.GDI_PR_STAT p ∈ regs) : m₀.FocTells regs es (m.edgeTaken p ext g x) :=
  iteInduction (fun _ => (h.onGate _).setFld hstat (powerStageReg_prStat hp) ..) fun _ => h.onGate _

variable {m}

theorem Mach.pairEdge_nothing {tm : Option Nat} (h : m.slotOfPair p = none ∨ m.edgeNow (m.pair p).out ext = none) :
    m.pairEdge p ext tm = m := by
  unfold Mach.pairEdge
  split
  next => rfl
  next hslot =>
    rw [Option.isNone_iff_eq_none] at hslot
    rw [h.resolve_left hslot]

variable {k : Nat} (hslot : m.slotOfPair p = some k) (hedge : m.edgeNow (m.pair p).out ext = some (g, x)) (tm : Option Nat)
include hslot hedge

theorem Mach.pairEdge_due : m.pairEdge p ext tm =
    let before := m.pairGates p (g.h, g.l)
    let after := m.pairGates p (x.h, x.l)
    let taken := m.edgeTaken p ext g x
    let high := if before.1 != after.1 then taken.measureEdge p false after.1 tm else taken
    if before.2 != after.2 then high.measureEdge p true after.2 tm else high := by
  rw [Mach.pairEdge, if_neg (by simp [hslot]), hedge]
  rfl

/-- A pair that is not adaptive executes its edge and measures nothing. -/
theorem Mach.pairEdge_plain (hcfg : m.bit (Reg.GDI_PR_CFG p) 23 = false) : m.pairEdge p ext tm = m.edgeTaken p ext g x := by
  have hcfg' : (m.edgeTaken p ext g x).bit (Reg.GDI_PR_CFG p) 23 = false := by
    rw [Mach.bit, m.edgeTaken_rd_other (by dsimp only [Reg.GDI_PR_CFG, Reg.GDI_PR_STAT]; omega)]
    exact hcfg
  have hmeasure : ∀ low on, (m.edgeTaken p ext g x).measureEdge p low on tm = m.edgeTaken p ext g x := fun low on =>
    if_pos (by rw [hcfg']; rfl)
  rw [Mach.pairEdge_due hslot hedge]
  simp only [hmeasure, ite_self]

/-- An edge of the high channel alone is measured once. -/
theorem Mach.pairEdge_high (hhigh : (m.pairGates p (g.h, g.l)).1 ≠ (m.pairGates p (x.h, x.l)).1)
    (hlow : (m.pairGates p (g.h, g.l)).2 = (m.pairGates p (x.h, x.l)).2) :
    m.pairEdge p ext tm = (m.edgeTaken p ext g x).measureEdge p false (m.pairGates p (x.h, x.l)).1 tm := by
  rw [Mach.pairEdge_due hslot hedge]
  dsimp only
  rw [if_neg (by simp [hlow]), if_pos (by simpa using hhigh)]
end

/-! ### Adaptive drive strength (R196 to R198) -/

/-- The step of the high channel toward the target time, and the time measured. -/
def Mach.highStepped (p : Nat) (on : Bool) (t : Nat) : Mach :=
  let lo := stepBit false on
  let str := m.rd (Reg.GDI_PR_STR p)
  let stepped := m.setFld (Reg.GDI_PR_STAT p) (lo + 3) lo
    (nextStep (t - m.curve (m.targetCurve p on) (m.crossVoltage p)) (m.fld (Reg.GDI_PR_TB4 p) 15 8) (str.bits 15 12) (str.bits 11 8)
      (m.fld (Reg.GDI_PR_STAT p) (lo + 3) lo))
  if on then stepped.setFld (Reg.GDI_PR_TSWH p) 31 16 (min t 0xFFFF) else stepped.setFld (Reg.GDI_PR_TSWH p) 15 0 (min t 0xFFFF)

/-- The pair's count `n` of edges at the strength limit, and the event of 256 that was not told yet. -/
def Mach.limitCounted (p d n : Nat) (told : Bool) : Mach :=
  let fire := decide (256 ≤ n) && !told
  let counted := m.onPair p fun x =>
    { x with sat := upd x.sat d fun _ => min n 256, satTold := upd x.satTold d fun _ => told || fire }
  if fire then (counted.raise 0x1C07 1 ((counted.slotOfPair p).getD 0xFF)).orr Reg.GDI_IRQ_STAT 0x100 else counted

theorem Mach.limitCounted_rd_other {b : Nat} (h : b ≠ Reg.GDI_IRQ_STAT) (p d n : Nat) (told : Bool) :
    (m.limitCounted p d n told).rd b = m.rd b := by
  unfold Mach.limitCounted
  dsimp only
  split
  · rw [Mach.rd_orr, if_neg h, Mach.raise_rd, Mach.onPair, Mach.onGate_rd]
  · rw [Mach.onPair, Mach.onGate_rd]

theorem Mach.FocTells.limitCounted {m₀ m : Mach} {regs : List Nat} {es : List Event} (h : m₀.FocTells regs es m)
    (hirq : Reg.GDI_IRQ_STAT ∈ regs) (p d n : Nat) (told : Bool) : ∃ es', m₀.FocTells regs es' (m.limitCounted p d n told) := by
  unfold Mach.limitCounted
  dsimp only
  split
  · exact ⟨_, ((h.onGate _).raise ..).orr hirq (by decide) _⟩
  · exact ⟨_, h.onGate _⟩

section
variable {m} {p : Nat} (hcfg : m.bit (Reg.GDI_PR_CFG p) 23 = true)
include hcfg

theorem Mach.measureEdge_none (low on : Bool) : m.measureEdge p low on none = m.incSat (Reg.GDI_PR_CNT p) 31 16 :=
  if_neg (by rw [hcfg]; decide)

theorem Mach.measureEdge_high (on : Bool) (t : Nat) :
    ∃ d n told, m.measureEdge p false on (some t) = (m.highStepped p on t).limitCounted p d n told :=
  ⟨_, _, _, if_neg (by rw [hcfg]; decide)⟩
end

section
variable {p : Nat}

theorem prStat_ne_prTswh : Reg.GDI_PR_STAT p ≠ Reg.GDI_PR_TSWH p := by dsimp only [Reg.GDI_PR_STAT, Reg.GDI_PR_TSWH]; omega

theorem Mach.highStepped_rd_other {b : Nat} (hstat : b ≠ Reg.GDI_PR_STAT p) (htsw : b ≠ Reg.GDI_PR_TSWH p) (on : Bool) (t : Nat) :
    (m.highStepped p on t).rd b = m.rd b := by
  unfold Mach.highStepped
  dsimp only
  split <;> rw [Mach.rd_setFld, if_neg htsw, Mach.rd_setFld, if_neg hstat]

theorem Mach.highStepped_step (on : Bool) (t : Nat) :
    (m.highStepped p on t).fld (Reg.GDI_PR_STAT p) (stepBit false on + 3) (stepBit false on) =
      nextStep (t - m.curve (m.targetCurve p on) (m.crossVoltage p)) (m.fld (Reg.GDI_PR_TB4 p) 15 8)
        ((m.rd (Reg.GDI_PR_STR p)).bits 15 12) ((m.rd (Reg.GDI_PR_STR p)).bits 11 8)
        (m.fld (Reg.GDI_PR_STAT p) (stepBit false on + 3) (stepBit false on)) % 16 := by
  have hlo : stepBit false on + 3 < 32 := by cases on <;> decide
  have hwidth : 2 ^ (stepBit false on + 3 + 1 - stepBit false on) = 16 := by cases on <;> rfl
  unfold Mach.highStepped
  dsimp only
  split <;> rw [Mach.fld, Mach.rd_setFld, if_neg prStat_ne_prTswh, ← Mach.fld, Mach.fld_setFld _ _ (by omega) hlo, hwidth]

theorem Mach.highStepped_time (on : Bool) (t : Nat) :
    (if on then (m.highStepped p on t).fld (Reg.GDI_PR_TSWH p) 31 16 else (m.highStepped p on t).fld (Reg.GDI_PR_TSWH p) 15 0) =
      min t 0xFFFF := by
  have hmin : min t 0xFFFF % 2 ^ 16 = min t 0xFFFF := Nat.mod_eq_of_lt (by omega)
  cases on with
  | false => exact (Mach.fld_setFld _ _ (by omega) (by omega)).trans hmin
  | true => exact (Mach.fld_setFld _ _ (by omega) (by omega)).trans hmin

theorem Mach.FocTells.highStepped {m₀ m : Mach} {regs : List Nat} {es : List Event} (h : m₀.FocTells regs es m) (hp : p < 16)
    (hstat : Reg.GDI_PR_STAT p ∈ regs) (htsw : Reg.GDI_PR_TSWH p ∈ regs) (on : Bool) (t : Nat) :
    m₀.FocTells regs es (m.highStepped p on t) := by
  have hstep := h.setFld hstat (powerStageReg_prStat hp) (stepBit false on + 3) (stepBit false on)
    (nextStep (t - m.curve (m.targetCurve p on) (m.crossVoltage p)) (m.fld (Reg.GDI_PR_TB4 p) 15 8)
      ((m.rd (Reg.GDI_PR_STR p)).bits 15 12) ((m.rd (Reg.GDI_PR_STR p)).bits 11 8)
      (m.fld (Reg.GDI_PR_STAT p) (stepBit false on + 3) (stepBit false on)))
  exact iteInduction (fun _ => hstep.setFld htsw (powerStageReg_prTswh hp) ..) fun _ => hstep.setFld htsw (powerStageReg_prTswh hp) ..
end

/-! ### The commands of an edge -/

theorem exec_gateEdge_leg {cyc : Nat} {j : Fin 24} {s : State} {k : Nat} {e : GateEdge} {es : List GateEdge}
    (hslot : s.m.slotOfLeg j = some k) (hedges : ((s.at cyc).outBefore (s.m.leg j).out).edges = e :: es)
    (hnow : e.at_ ≤ endOf (s.at cyc).time.cyc) (ext : Nat) (tm : Option Nat) :
    ∃ t f, exec (.gateEdge cyc false j ext tm) s = .next t ∧ t.m.gate.legs = upd s.m.gate.legs j f ∧
      t.m.gate.pairs = s.m.gate.pairs ∧
      (∀ x, (f x).latch = x.latch ∧ (f x).out = edgeApplied ((s.at cyc).outBefore (s.m.leg j).out) e ext es) ∧ Quiet s t [] := by
  have hf := Mach.legEdge_due (m := s.at cyc) hslot (Mach.edgeNow_cons hedges hnow ext)
  obtain ⟨t, ht, hm, hquiet⟩ := run_tells (s := s) (cyc := cyc) (f := fun m => m.legEdge j ext) (regs := [])
    (by rw [hf]; exact (Mach.FocTells.refl _ _).onGate _)
  rw [hf] at hm
  refine ⟨t, _, ht, by rw [hm]; rfl, by rw [hm]; rfl, ?_, hquiet⟩
  exact fun _ => ⟨rfl, rfl⟩

section
variable {cyc : Nat} {p : Fin 16} {s : State} {k : Nat} {e : GateEdge} {es : List GateEdge} (hslot : s.m.slotOfPair p = some k)
  (hedges : ((s.at cyc).outBefore (s.m.pair p).out).edges = e :: es) (hnow : e.at_ ≤ endOf (s.at cyc).time.cyc) (tm : Option Nat)
include hslot hedges hnow

theorem exec_gateEdge_plain (hcfg : s.m.bit (Reg.GDI_PR_CFG p) 23 = false) (ext : Nat) :
    let g := (s.at cyc).outBefore (s.m.pair p).out
    let nxt := holdOn (g.h, g.l) e ext es
    ∃ t, exec (.gateEdge cyc true p ext tm) s = .next t ∧
      t.m.gate = { s.m.gate with pairs := upd s.m.gate.pairs p fun x => { x with out := { g.apply e with edges := nxt } } } ∧
      t.m.fld (Reg.GDI_PR_STAT p) 7 0 = (if nxt = es then s.m.fld (Reg.GDI_PR_STAT p) 7 0
        else min (s.m.fld (Reg.GDI_PR_STAT p) 7 0 + ext) 255) ∧ Quiet s t [Reg.GDI_PR_STAT p] := by
  intro g nxt
  have hf := Mach.pairEdge_plain (m := s.at cyc) hslot (Mach.edgeNow_cons hedges hnow ext) tm hcfg
  obtain ⟨t, ht, hm, hquiet⟩ := run_tells (s := s) (cyc := cyc) (f := fun m => m.pairEdge p ext tm) (regs := [Reg.GDI_PR_STAT p])
    (by rw [hf]; exact (Mach.FocTells.refl _ _).edgeTaken p.isLt (by simp))
  rw [hf] at hm
  refine ⟨t, ht, by rw [hm, Mach.settle_gate, Mach.edgeTaken_gate]; rfl, ?_, hquiet⟩
  rw [hm, Mach.settle_fld, Mach.edgeTaken_ilx, hedges]
  rfl

/-- The edge of an adaptive pair's high channel, which nothing holds back: its edge is executed and measured. -/
theorem pairEdge_adaptive {b c : Bool × Bool}
    (hb : b = (s.at cyc).pairGates p (((s.at cyc).outBefore (s.m.pair p).out).h, ((s.at cyc).outBefore (s.m.pair p).out).l))
    (hc : c = (s.at cyc).pairGates p (e.h, e.l)) (hhigh : b.1 ≠ c.1) (hlow : b.2 = c.2) :
    ∃ f, (s.at cyc).pairEdge p 0 tm = ((s.at cyc).onPair p f).measureEdge p false c.1 tm := by
  subst hb hc
  have hf := Mach.pairEdge_high (m := s.at cyc) hslot (Mach.edgeNow_cons hedges hnow 0) tm hhigh hlow
  rw [Mach.edgeTaken_same _ (by rw [hedges]; exact holdOn_zero ..)] at hf
  exact ⟨_, hf⟩

/-- The registers that a measured edge of pair `p` changes. -/
abbrev measuredRegs (p : Nat) : List Nat := [Reg.GDI_PR_STAT p, Reg.GDI_PR_CNT p, Reg.GDI_PR_TSWH p, Reg.GDI_IRQ_STAT]

section
variable (hcfg : s.m.bit (Reg.GDI_PR_CFG p) 23 = true) {b c : Bool × Bool}
  (hb : b = (s.at cyc).pairGates p (((s.at cyc).outBefore (s.m.pair p).out).h, ((s.at cyc).outBefore (s.m.pair p).out).l))
  (hc : c = (s.at cyc).pairGates p (e.h, e.l)) (hhigh : b.1 ≠ c.1) (hlow : b.2 = c.2)
include hcfg hb hc hhigh hlow

theorem exec_gateEdge_unmeasured :
    ∃ t, exec (.gateEdge cyc true p 0 none) s = .next t ∧ SameRegsBut s t (measuredRegs p) ∧ SameMemory s t ∧
      t.m.fld (Reg.GDI_PR_CNT p) 31 16 = min (s.m.fld (Reg.GDI_PR_CNT p) 31 16 + 1) 0xFFFF ∧
      t.m.rd (Reg.GDI_PR_STAT p) = s.m.rd (Reg.GDI_PR_STAT p) := by
  obtain ⟨f, hf⟩ := pairEdge_adaptive hslot hedges hnow none hb hc hhigh hlow
  rw [Mach.measureEdge_none (m := (s.at cyc).onPair p f) hcfg] at hf
  obtain ⟨t, ht, hm, hregs, hmem, -⟩ := run_tells (s := s) (cyc := cyc) (f := fun m => m.pairEdge p 0 none) (regs := measuredRegs p)
    (by rw [hf]; exact ((Mach.FocTells.refl _ _).onGate _).setFld (by simp) (powerStageReg_prCnt p.isLt) ..)
  rw [hf] at hm
  refine ⟨t, ht, hregs, hmem, ?_, ?_⟩
  · rw [hm, Mach.settle_fld, Mach.fld_incSat _ (by omega) (by omega)]
    rfl
  · rw [hm, Mach.settle_rd, Mach.incSat, Mach.rd_setFld, if_neg (by dsimp only [Reg.GDI_PR_STAT, Reg.GDI_PR_CNT]; omega), Mach.onPair,
      Mach.onGate_rd]
    rfl

theorem exec_gateEdge_measured (x : Nat) :
    ∃ t, exec (.gateEdge cyc true p 0 (some x)) s = .next t ∧ SameRegsBut s t (measuredRegs p) ∧ SameMemory s t ∧
      t.m.fld (Reg.GDI_PR_STAT p) (stepBit false c.1 + 3) (stepBit false c.1) =
        nextStep (x - s.m.curve (s.m.targetCurve p c.1) (s.m.crossVoltage p)) (s.m.fld (Reg.GDI_PR_TB4 p) 15 8)
          ((s.m.rd (Reg.GDI_PR_STR p)).bits 15 12) ((s.m.rd (Reg.GDI_PR_STR p)).bits 11 8)
          (s.m.fld (Reg.GDI_PR_STAT p) (stepBit false c.1 + 3) (stepBit false c.1)) % 16 ∧
      t.m.rd (Reg.GDI_PR_CNT p) = s.m.rd (Reg.GDI_PR_CNT p) ∧
      (if c.1 then t.m.fld (Reg.GDI_PR_TSWH p) 31 16 else t.m.fld (Reg.GDI_PR_TSWH p) 15 0) = min x 0xFFFF := by
  obtain ⟨f, hf⟩ := pairEdge_adaptive hslot hedges hnow (some x) hb hc hhigh hlow
  obtain ⟨d, n, told, hmeasured⟩ := Mach.measureEdge_high (m := (s.at cyc).onPair p f) hcfg c.1 x
  rw [hmeasured] at hf
  have htells : (s.at cyc).FocTells (measuredRegs p) [] (((s.at cyc).onPair p f).highStepped p c.1 x) :=
    ((Mach.FocTells.refl _ _).onGate _).highStepped p.isLt (by simp) (by simp) ..
  obtain ⟨es', htells⟩ := htells.limitCounted (by simp) p d n told
  obtain ⟨t, ht, hm, hregs, hmem, -⟩ := run_tells (s := s) (cyc := cyc) (f := fun m => m.pairEdge p 0 (some x)) (by rwa [hf])
  have hrd : ∀ b, b ≠ Reg.GDI_IRQ_STAT → t.m.rd b = (((s.at cyc).onPair p f).highStepped p c.1 x).rd b := fun b hb => by
    rw [hm, Mach.settle_rd, hf, Mach.limitCounted_rd_other _ hb]
  refine ⟨t, ht, hregs, hmem, ?_, ?_, ?_⟩
  · rw [Mach.fld, hrd _ (by dsimp only [Reg.GDI_PR_STAT, Reg.GDI_IRQ_STAT]; omega)]
    exact Mach.highStepped_step ..
  · rw [hrd _ (by dsimp only [Reg.GDI_PR_CNT, Reg.GDI_IRQ_STAT]; omega), Mach.highStepped_rd_other _
      (by dsimp only [Reg.GDI_PR_CNT, Reg.GDI_PR_STAT]; omega) (by dsimp only [Reg.GDI_PR_CNT, Reg.GDI_PR_TSWH]; omega), Mach.onPair,
      Mach.onGate_rd]
    rfl
  · rw [Mach.fld, Mach.fld, hrd _ (by dsimp only [Reg.GDI_PR_TSWH, Reg.GDI_IRQ_STAT]; omega)]
    exact Mach.highStepped_time ..
end
end

/-! ### The results of diagnostics (R215, R216) -/

/-- What a command leaves whose end is the result of a diagnostic: `m` is the machine that the result finds. -/
theorem run_diagResult {s : State} {cyc : Nat} {f : Mach → Mach} {m : Mach} {i : AsyncIn} (h : (s.at cyc).FocTells [] [] m)
    (hlane : m.lane = s.m.lane) (hroom : s.roomy) (hi : i.payload = []) (hf : f (s.at cyc) = m.accede i) :
    ∃ t, run s cyc f = .next t ∧ Enters s t cyc i ∧ t.m.gate = m.gate ∧ Quiet s t [] := by
  have hw : m.lane.waiting = [] := by rw [hlane, hroom]
  rw [(Mach.FewWait.of_nil hw 0).accede_eq (by decide) hi, h.entryOf_eq] at hf
  obtain ⟨t, ht, hm, hquiet⟩ := run_tells (s := s) (cyc := cyc) (f := f) (by rw [hf]; exact h.wait _)
  rw [hf] at hm
  refine ⟨t, ht, ?_, by rw [hm]; rfl, hquiet⟩
  rw [Enters, hm, Mach.settle_lane, Mach.wait_lane, hw, insertEntry_nil]

section
variable {m} {i : Nat} (h r : DiagReading)

theorem Mach.diagDone_nothing {gdl : Bool} (hrun : (if gdl then (m.leg i).running else (m.pair i).running) = false) :
    m.diagDone gdl i h r = m := by
  cases gdl with
  | false =>
    have hpair : (m.pair i).running = false := hrun
    simp [Mach.diagDone, hpair]
  | true =>
    have hleg : (m.leg i).running = false := hrun
    simp [Mach.diagDone, hleg]

theorem Mach.diagDone_pair (hrun : (m.pair i).running = true) :
    m.diagDone false i h r = (m.onPair i fun x => { x with running := false }).accede
      ⟨8, i, 0, 0, m.pairCodes i (m.channelResult i h) (m.channelResult i r), []⟩ := by simp [Mach.diagDone, hrun]

theorem Mach.diagDone_leg (hrun : (m.leg i).running = true) :
    m.diagDone true i h r = (m.onLeg i fun x => { x with running := false }).accede ⟨8, 0x20 + i, 0, 0, m.legResult i h, []⟩ := by
  simp [Mach.diagDone, hrun]
end

section
variable {s : State} (hroom : s.roomy) (cyc : Nat) (h r : DiagReading)
include hroom

theorem exec_gateDiagComplete_pair {p : Fin 16} (hrun : (s.m.pair p).running = true) :
    ∃ t, exec (.gateDiagComplete cyc false p h r) s = .next t ∧
      Enters s t cyc ⟨8, p, 0, 0, s.m.pairCodes p (s.m.channelResult p h) (s.m.channelResult p r), []⟩ ∧
      t.m.gate.pairs = upd s.m.gate.pairs p (fun x => { x with running := false }) ∧ Quiet s t [] := by
  obtain ⟨t, ht, henters, hgate, hquiet⟩ := run_diagResult (f := fun m => m.diagDone false p h r) ((Mach.FocTells.refl _ _).onGate _)
    rfl hroom rfl (Mach.diagDone_pair (m := s.at cyc) h r hrun)
  exact ⟨t, ht, henters, by rw [hgate]; rfl, hquiet⟩

theorem exec_gateDiagComplete_leg {j : Fin 24} (hrun : (s.m.leg j).running = true) :
    ∃ t, exec (.gateDiagComplete cyc true j h r) s = .next t ∧ Enters s t cyc ⟨8, 0x20 + j.val, 0, 0, s.m.legResult j h, []⟩ ∧
      t.m.gate.legs = upd s.m.gate.legs j (fun x => { x with running := false }) ∧ Quiet s t [] := by
  obtain ⟨t, ht, henters, hgate, hquiet⟩ := run_diagResult (f := fun m => m.diagDone true j h r) ((Mach.FocTells.refl _ _).onGate _)
    rfl hroom rfl (Mach.diagDone_leg (m := s.at cyc) h r hrun)
  exact ⟨t, ht, henters, by rw [hgate]; rfl, hquiet⟩
end

/-! ### The obligation -/

/-- An edge that does not fall in the present cycle, or of what no slot uses. -/
theorem exec_gateEdge_nothing {cyc : Nat} {iso : Bool} {i : Fin 24} {ext : Nat} {tm : Option Nat} {s : State}
    (h : if iso then s.m.slotOfPair i = none ∨ (s.at cyc).edgeNow (s.m.pair i).out ext = none
      else s.m.slotOfLeg i = none ∨ (s.at cyc).edgeNow (s.m.leg i).out ext = none) :
    ∃ t, exec (.gateEdge cyc iso i ext tm) s = .next t ∧ t.m.gate = s.m.gate ∧ Quiet s t [] := by
  cases iso with
  | false => exact run_gate_kept (f := fun m => m.legEdge i ext) (Mach.legEdge_nothing h)
  | true => exact run_gate_kept (f := fun m => m.pairEdge i ext tm) (Mach.pairEdge_nothing h)

/-- Settles O27: an edge by what its record places in the cycle, an adaptive pair's by its measurement, and a diagnostic by the entry of
its result into accession. -/
theorem gateEdgesAndDiagnosticResults : Obligations.GateEdgesAndDiagnosticResults := by
  refine ⟨fun cyc j ext tm s k e es hslot hedges hnow => exec_gateEdge_leg hslot hedges hnow ext tm,
    fun cyc p ext tm s k e es hslot hcfg hedges hnow => exec_gateEdge_plain hslot hedges hnow tm hcfg ext,
    fun was e n ext r hoff hon hext hlater => holdOn_extended hoff hon hext hlater,
    fun cyc p tm s k e es b c hslot hcfg hedges hnow hb hc hhigh hlow => ?_, fun cyc iso i ext tm s h => exec_gateEdge_nothing h,
    fun cyc p h r s hrun hroom => exec_gateDiagComplete_pair hroom cyc h r hrun,
    fun cyc j h r s hrun hroom => exec_gateDiagComplete_leg hroom cyc h r hrun, fun cyc gdl i h r s hrun => ?_⟩
  · cases tm with
    | none =>
      obtain ⟨t, ht, hregs, hmem, hcount, hstat⟩ := exec_gateEdge_unmeasured hslot hedges hnow hcfg hb hc hhigh hlow
      exact ⟨t, ht, hregs, hmem, fun _ => ⟨hcount, hstat⟩, fun x hx => by cases hx⟩
    | some x =>
      obtain ⟨t, ht, hregs, hmem, hmeasured⟩ := exec_gateEdge_measured hslot hedges hnow hcfg hb hc hhigh hlow x
      refine ⟨t, ht, hregs, hmem, fun hx => (by cases hx), fun x' hx => ?_⟩
      cases hx
      exact hmeasured
  · obtain ⟨t, ht, hm, hquiet⟩ := run_gate_nothing (s := s) (cyc := cyc) (f := fun m => m.diagDone gdl i h r)
      (Mach.diagDone_nothing h r hrun)
    exact ⟨t, ht, by rw [hm]; rfl, by rw [hm]; rfl, hquiet⟩

end Sys2Proof.Machine
end

section
/-! What the events of the low-voltage converter leave (R235, R241, R243, R248), and the entry to a state of its machine. -/

namespace Sys2Proof.Machine

variable (m : Mach)

/-! ### Entering a state (R230, R248) -/

/-- The states of burst mode: to enter or to leave them is told. -/
def inBurst (st : Nat) : Bool := st == 4 || st == 5

section
variable (st : Nat)
@[simp] theorem Mach.lvcEnter_queue : (m.lvcEnter st).lvc.queue = m.lvc.queue := by unfold Mach.lvcEnter; dsimp only; split <;> rfl
@[simp] theorem Mach.lvcEnter_trip : (m.lvcEnter st).lvc.trip = m.lvc.trip := by unfold Mach.lvcEnter; dsimp only; split <;> rfl
@[simp] theorem Mach.lvcEnter_retry : (m.lvcEnter st).lvc.retry = m.lvc.retry := by unfold Mach.lvcEnter; dsimp only; split <;> rfl
@[simp] theorem Mach.lvcEnter_s1 : (m.lvcEnter st).lvc.s1 = m.lvc.s1 := by unfold Mach.lvcEnter; dsimp only; split <;> rfl
@[simp] theorem Mach.lvcEnter_lane : (m.lvcEnter st).lane = m.lane := by unfold Mach.lvcEnter; dsimp only; split <;> rfl
end

section
variable {m} {st : Nat}

/-- Where the machine rests no phase shares. -/
theorem Mach.lvcEnter_mask_rest (h : st = 0 ∨ st = 1 ∨ st = 6 ∨ st = 7) : (m.lvcEnter st).lvc.mask = 0 := if_pos h

theorem Mach.lvcEnter_mask_kept (h : ¬(st = 0 ∨ st = 1 ∨ st = 6 ∨ st = 7)) : (m.lvcEnter st).lvc.mask = m.lvc.mask := by
  refine (if_neg h).trans ?_
  split <;> rfl

/-- Burst mode neither entered nor left tells nothing. -/
theorem Mach.lvcEnter_untold (h : inBurst m.lvc.state = inBurst st) : ∃ g, m.lvcEnter st = m.onLvc g := by
  unfold Mach.lvcEnter
  dsimp only
  split
  next hne => exact absurd h (by simpa [inBurst] using hne)
  next => exact ⟨_, rfl⟩

theorem Mach.lvcEnter_told (h : inBurst m.lvc.state ≠ inBurst st) : ∃ g, m.lvcEnter st = (m.orr Reg.LVC_IRQ_STAT 0x80).onLvc g := by
  unfold Mach.lvcEnter
  dsimp only
  split
  next => exact ⟨_, rfl⟩
  next heq => exact absurd (by simpa [inBurst] using heq) h

theorem Mach.FocTells.lvcEnter {m₀ : Mach} {regs : List Nat} {es : List Event} (h : m₀.FocTells regs es m)
    (hirq : Reg.LVC_IRQ_STAT ∈ regs) : m₀.FocTells regs es (m.lvcEnter st) := by
  obtain ⟨g, -, hc | hc⟩ := m.lvcEnter_cases st <;> rw [hc]
  · exact h.onLvc g
  · exact (h.orr hirq (by decide) 0x80).onLvc g
end

/-! ### Events and their records (R243, R244) -/

/-- An event leaves the converter's slot as it was. -/
theorem Mach.FocTells.buckSlot_eq {m₀ m : Mach} {es : List Event} (h : m₀.FocTells lvcEventRegs es m) : m.buckSlot = m₀.buckSlot := by
  rw [Mach.buckSlot, Mach.fld, h.rd _ (by decide)]
  rfl

/-- The converter with one more record in its queue. -/
def LvcState.withRecord (x : LvcState) (r : List Nat) : LvcState := { x with queue := x.queue ++ [r] }

/-- Of `m` an event of the converter has made `m'`: since `m₀` the events `es` were raised, the record is in the queue, and bit `irq`
tells it. -/
structure Mach.LvcTells (m₀ m : Mach) (es : List Event) (irq : Nat) (m' : Mach) : Prop where
  tells : m₀.FocTells lvcEventRegs es m'
  lvc : ∃ r, m'.lvc = m.lvc.withRecord r
  gate : m'.gate = m.gate
  irq : m'.bit Reg.LVC_IRQ_STAT irq = true

section
variable {m} {m₀ : Mach} {es : List Event} {irq : Nat} (h : m₀.FocTells lvcEventRegs es m) (hqueue : m.lvc.queue.length < 4)
  (hirq : irq < 32)
include h hqueue hirq

/-- The status bit and the record of an event that is raised. -/
theorem Mach.FocTells.lvcRecorded (code st : Nat) :
    m₀.LvcTells m es irq ((m.orr Reg.LVC_IRQ_STAT (2 ^ irq)).lvcCapture code st) ∧
      ((m.orr Reg.LVC_IRQ_STAT (2 ^ irq)).lvcCapture code st).lane = m.lane := by
  obtain ⟨r, v, hcapture⟩ := Mach.lvcCapture_room (m := m.orr Reg.LVC_IRQ_STAT (2 ^ irq)) hqueue code st
  rw [hcapture]
  refine ⟨⟨((h.orr (by decide) (by decide) _).onLvc _).setFld (by decide) (by decide) .., ⟨r, rfl⟩, rfl, ?_⟩, rfl⟩
  rw [Mach.bit, Mach.rd_setFld, if_neg (by decide), Mach.onLvc_rd, Mach.rd_orr, if_pos rfl]
  exact Word.bit_or_two_pow _ hirq

/-- An event of class F1. -/
theorem Mach.FocTells.lvcWarned (code st : Nat) (d : List Nat) :
    m₀.LvcTells m (es ++ [eventAt m₀ code 1 m₀.buckSlot d 0]) irq (m.lvcEvent code 1 irq st d) ∧
      (m.lvcEvent code 1 irq st d).lane = m.lane := by
  obtain ⟨⟨htells, hlvc, hgate, hbit⟩, hlane⟩ := (h.raise code 1 m.buckSlot d 0).lvcRecorded hqueue hirq code st
  rw [← h.buckSlot_eq]
  exact ⟨⟨htells, hlvc, hgate, hbit⟩, hlane⟩

/-- An event of class F3, whose cause finds room in accession. -/
theorem Mach.FocTells.lvcFaulted (hroom : m.lane.waiting = []) (code st : Nat) (d : List Nat) :
    m₀.LvcTells m (es ++ [eventAt m₀ code 3 m₀.buckSlot d 0]) irq (m.lvcEvent code 3 irq st d) ∧
      (m.lvcEvent code 3 irq st d).lane.waiting = [m₀.entryOf m₀.accTickNow ⟨10, m₀.buckSlot, 0, 0, code, []⟩] := by
  rw [← h.buckSlot_eq]
  have hfew := Mach.FewWait.of_nil hroom 0
  have hlvc₀ : (m.raiseF3 code m.buckSlot d).lvc = m.lvc := hfew.raiseF3_lvc (by decide) ..
  obtain ⟨⟨htells, ⟨r, hlvc⟩, hgate, hbit⟩, hlane⟩ :=
    (Mach.FocTells.raiseF3 hfew (by decide) code m.buckSlot d h).lvcRecorded (by rwa [hlvc₀]) hirq code st
  rw [hlvc₀] at hlvc
  exact ⟨⟨htells, ⟨r, hlvc⟩, hgate.trans (hfew.raiseF3_gate (by decide) ..), hbit⟩,
    (congrArg LaneBlock.waiting hlane).trans (h.raiseF3_waiting hroom ..)⟩

omit hirq in
/-- The machine latches off. -/
theorem Mach.FocTells.lvcLatched (hroom : m.lane.waiting = []) :
    m₀.LvcTells (m.lvcEnter 7) (es ++ [eventAt m₀ 0x2404 3 m₀.buckSlot [] 0]) 5 m.lvcLatch ∧
      m.lvcLatch.lane.waiting = [m₀.entryOf m₀.accTickNow ⟨10, m₀.buckSlot, 0, 0, 0x2404, []⟩] :=
  (h.lvcEnter (by decide)).lvcFaulted (by rwa [Mach.lvcEnter_queue]) (by decide) (by rwa [Mach.lvcEnter_lane]) _ _ _
end

end Sys2Proof.Machine
end

section
/-! A phase's fast trip (R235, R236, R238): the phase leaves sharing and its leg is off, the third trip of a tick ends in HICCUP, and
the last phase's in LATCHED. -/

namespace Sys2Proof.Machine

variable (m : Mach)

/-! ### Blocked phases leave sharing -/

/-- A phase that is not free is blocked. -/
theorem Mach.lvcBlocked_testBit {k : Nat} (hk : k < 6) : m.lvcBlocked.testBit k = !phaseFree m k := by
  have hsorted : (phases.filter fun k => m.lvc.trip.testBit k || m.lvc.diagBad.testBit k || (m.leg k).latch ||
      (m.leg k).blocked).SortedLT := (List.pairwise_lt_range.filter _).sortedLT
  rw [Bool.eq_iff_iff, ← Nat.mem_bitIndices, Mach.lvcBlocked, Nat.bitIndices_sum_map_two_pow hsorted, List.mem_filter]
  simp [phases, phaseFree, hk, or_iff_not_imp_left]

theorem Mach.sharingLeft_mask : m.sharingLeft.lvc.mask = m.lvc.mask ^^^ (m.lvc.mask &&& m.lvcBlocked) := by
  unfold Mach.sharingLeft
  dsimp only
  generalize m.lvc.mask &&& m.lvcBlocked = gone
  by_cases hgone : gone = 0
  · rw [if_pos (Or.inl hgone), if_pos hgone, hgone, Nat.xor_zero]
  · rw [if_neg (c := gone = 0) hgone]
    split
    · rfl
    · split <;> rfl

/-- A phase that is not free does not share. -/
theorem Mach.sharingLeft_mask_testBit {k : Nat} (hk : k < 6) (h : phaseFree m k = false) :
    m.sharingLeft.lvc.mask.testBit k = false := by
  rw [m.sharingLeft_mask, Nat.testBit_xor, Nat.testBit_and, m.lvcBlocked_testBit hk, h]
  simp

theorem Mach.sharingLeft_trips : m.sharingLeft.lvc.trips = m.lvc.trips := by
  unfold Mach.sharingLeft
  dsimp only
  split
  · split <;> rfl
  · split <;> split <;> rfl

/-- No phase is left where none is free. -/
theorem Mach.sharingLeft_available_eq_zero_iff : m.sharingLeft.lvcAvailable = 0 ↔ ∀ i < 6, phaseFree m i = false := by
  obtain ⟨g, hg, heq⟩ := m.sharingLeft_eq
  rw [heq, m.lvcAvailable_onLvc hg, Mach.lvcAvailable_eq_zero_iff]

/-- Where no phase is left of a machine that switches, it latches off. -/
theorem Mach.lvcForced_eq_lvcLatch (hnone : ∀ i < 6, phaseFree m i = false) (hlow : 2 ≤ m.lvc.state) (hst : m.lvc.state ≠ 7) :
    m.lvcForced = m.sharingLeft.lvcLatch := if_pos ⟨m.sharingLeft_available_eq_zero_iff.2 hnone, hlow, hst⟩

/-- While a phase is left, or the machine does not switch, blocked phases leave sharing and no more. -/
theorem Mach.lvcForced_eq_sharingLeft (h : m.lvc.state < 2 ∨ m.lvc.state = 7 ∨ ∃ i < 6, phaseFree m i = true) :
    m.lvcForced = m.sharingLeft := by
  refine if_neg (c := m.sharingLeft.lvcAvailable = 0 ∧ _) ?_
  rintro ⟨hnone, hlow, hlatched⟩
  rcases h with h | h | ⟨i, hi, hfree⟩
  · omega
  · exact hlatched h
  · exact absurd hfree (by simp [m.sharingLeft_available_eq_zero_iff.1 hnone i hi])

/-! ### The legs of phases (R235, R241) -/

/-- A phase that has tripped, and every phase after an over-voltage, has its leg off. -/
theorem Mach.legOut_of_phase_off {m : Mach} {j : Nat} (hj : j < 6) (h : m.lvc.trip.testBit j = true ∨ m.lvc.ovOff = true) :
    m.legOut j = (false, false) := by
  have hoff : (decide (j < 6) && (m.lvc.trip.testBit j || m.lvc.ovOff)) = true := by simpa [hj] using h
  unfold Mach.legOut
  dsimp only
  split
  next => rfl
  next => simp [hoff]

/-! ### The trip (R235) -/

/-- The converter when phase `k` trips. -/
def LvcState.tripped (x : LvcState) (k : Nat) : LvcState := { x with trip := x.trip ||| 2 ^ k, trips := x.trips + 1 }

/-- The trip and its event, before blocked phases leave sharing. -/
def Mach.tripTold (k : Nat) : Mach := (m.onLvc fun x => x.tripped k).lvcEvent 0x2401 1 0 m.lvc.state

theorem Mach.lvcTrip_nothing {m : Mach} {k : Nat} (h : m.lvcPresent = false ∨ m.lvc.trip.testBit k = true) : m.lvcTrip k = m :=
  if_pos (by rcases h with h | h <;> simp [h])

theorem Mach.lvcTrip_due {m : Mach} {k : Nat} (hpresent : m.lvcPresent = true) (htrip : m.lvc.trip.testBit k = false) :
    m.lvcTrip k = if (m.tripTold k).lvcForced.lvc.state ≠ 7 ∧ buckSwitches m.lvc.state = true ∧ 3 ≤ (m.tripTold k).lvcForced.lvc.trips
      then (m.tripTold k).lvcForced.lvcEnter 6 else (m.tripTold k).lvcForced :=
  if_neg (by simp [hpresent, htrip])

section
variable {m} {k : Nat} (hqueue : m.lvc.queue.length < 4)
include hqueue

/-- What the trip's event leaves. -/
theorem Mach.lvcTells_tripTold :
    m.LvcTells (m.onLvc fun x => x.tripped k) [eventAt m 0x2401 1 m.buckSlot [] 0] 0 (m.tripTold k) ∧ (m.tripTold k).lane = m.lane :=
  ((Mach.FocTells.refl m _).onLvc fun x => x.tripped k).lvcWarned hqueue (by decide) _ _ _

/-- The phase that trips is not free, and the others are as they were. -/
theorem Mach.phaseFree_tripTold (i : Nat) : phaseFree (m.tripTold k) i = (phaseFree m i && decide (i ≠ k)) := by
  obtain ⟨⟨-, ⟨r, hlvc⟩, hgate, -⟩, -⟩ := Mach.lvcTells_tripTold (k := k) hqueue
  have htrip : (m.tripTold k).lvc.trip = m.lvc.trip ||| 2 ^ k := by rw [hlvc]; rfl
  have hbad : (m.tripTold k).lvc.diagBad = m.lvc.diagBad := by rw [hlvc]; rfl
  have hleg : (m.tripTold k).leg i = m.leg i := by rw [Mach.leg, hgate]; rfl
  rw [phaseFree, htrip, hbad, hleg, Nat.testBit_or, Nat.testBit_two_pow, phaseFree]
  by_cases hik : i = k
  · simp [hik]
  · simp [hik, Ne.symm hik]

theorem Mach.tripTold_lvc :
    (m.tripTold k).lvc.state = m.lvc.state ∧ (m.tripTold k).lvc.trip = m.lvc.trip ||| 2 ^ k ∧
      (m.tripTold k).lvc.trips = m.lvc.trips + 1 ∧ (m.tripTold k).lvc.queue.length = m.lvc.queue.length + 1 := by
  obtain ⟨⟨-, ⟨r, hlvc⟩, -, -⟩, -⟩ := Mach.lvcTells_tripTold (k := k) hqueue
  rw [hlvc]
  exact ⟨rfl, rfl, rfl, List.length_append⟩

/-- While another phase is left, or the machine does not switch, a trip leaves the state and takes its phase out of sharing. -/
theorem Mach.lvcForced_tripTold
    (h : m.lvc.state < 2 ∨ m.lvc.state = 7 ∨ ∃ i < 6, i ≠ k ∧ phaseFree m i = true) :
    (m.tripTold k).lvcForced = (m.tripTold k).sharingLeft ∧ (m.tripTold k).sharingLeft.lvc.state = m.lvc.state ∧
      (m.tripTold k).sharingLeft.lvc.trip = m.lvc.trip ||| 2 ^ k ∧ (m.tripTold k).sharingLeft.lvc.trips = m.lvc.trips + 1 := by
  obtain ⟨hstate, htrip, htrips, -⟩ := Mach.tripTold_lvc (k := k) hqueue
  obtain ⟨g, hg, heq⟩ := (m.tripTold k).sharingLeft_eq
  refine ⟨Mach.lvcForced_eq_sharingLeft _ ?_, ?_, ?_, by rw [Mach.sharingLeft_trips, htrips]⟩
  · rw [hstate]
    exact h.imp_right (Or.imp_right fun ⟨i, hi, hne, hfree⟩ =>
      ⟨i, hi, by rw [Mach.phaseFree_tripTold hqueue, hfree, decide_eq_true hne, Bool.and_true]⟩)
  · rw [heq, Mach.onLvc_lvc, hg.state, hstate]
  · rw [heq, Mach.onLvc_lvc, hg.trip, htrip]

/-- The trip of the last phase of a machine that switches latches it off. -/
theorem Mach.lvcForced_tripTold_last (hnone : ∀ i < 6, i ≠ k → phaseFree m i = false) (hlow : 2 ≤ m.lvc.state)
    (hst : m.lvc.state ≠ 7) : (m.tripTold k).lvcForced = (m.tripTold k).sharingLeft.lvcLatch := by
  obtain ⟨hstate, -⟩ := Mach.tripTold_lvc (k := k) hqueue
  refine Mach.lvcForced_eq_lvcLatch _ (fun i hi => ?_) (by rwa [hstate]) (by rwa [hstate])
  rw [Mach.phaseFree_tripTold hqueue]
  by_cases hik : i = k
  · simp [hik]
  · simp [hnone i hi hik]
end

section
variable {s : State} {k : Fin 6} (hpresent : s.m.lvcPresent = true) (htrip : s.m.lvc.trip.testBit k = false) (cyc : Nat)
include hpresent htrip

theorem exec_lvcFastTrip_shares (hqueue : s.m.lvc.queue.length < 4)
    (h : s.m.lvc.state < 2 ∨ s.m.lvc.state = 7 ∨ ((∃ i < 6, i ≠ k.val ∧ phaseFree s.m i = true) ∧
      (s.m.lvc.trips < 2 ∨ buckSwitches s.m.lvc.state = false))) :
    ∃ t, exec (.lvcFastTrip cyc k) s = .next t ∧ t.m.lvc.trip = s.m.lvc.trip ||| 2 ^ k.val ∧ t.m.lvc.trips = s.m.lvc.trips + 1 ∧
      t.m.lvc.state = s.m.lvc.state ∧ t.m.lvc.mask.testBit k = false ∧ t.m.legOut k = (false, false) ∧ t.m.gate = s.m.gate ∧
      Raises s t [eventAt (s.at cyc) 0x2401 1 s.m.buckSlot [] 0] ∧ t.m.bit Reg.LVC_IRQ_STAT 0 = true ∧
      SameRegsBut s t lvcTold ∧ SameMemory s t := by
  obtain ⟨⟨htells, -, hgate, hirq⟩, -⟩ := Mach.lvcTells_tripTold (m := s.at cyc) (k := k) hqueue
  obtain ⟨hforced, hstate, htripped, htrips⟩ := Mach.lvcForced_tripTold (m := s.at cyc) (k := k) hqueue
    (h.imp_right (Or.imp_right And.left))
  obtain ⟨g, -, heq⟩ := ((s.at cyc).tripTold k).sharingLeft_eq
  have hstays : ¬(s.m.lvc.state ≠ 7 ∧ buckSwitches s.m.lvc.state = true ∧ 3 ≤ s.m.lvc.trips + 1) := by
    rintro ⟨hst, hswitches, hthree⟩
    rcases h with h | h | ⟨-, h | h⟩
    · simp only [buckSwitches, Bool.or_eq_true, beq_iff_eq] at hswitches
      omega
    · exact hst h
    · omega
    · exact absurd hswitches (by simp [h])
  have hf : (s.at cyc).lvcTrip k = ((s.at cyc).tripTold k).sharingLeft := by
    rw [Mach.lvcTrip_due (m := s.at cyc) hpresent htrip, hforced, hstate, htrips]
    exact if_neg hstays
  have hmask := ((s.at cyc).tripTold k).sharingLeft_mask_testBit k.isLt
    (by rw [Mach.phaseFree_tripTold (m := s.at cyc) hqueue]; simp)
  obtain ⟨t, ht, hm, hregs, hmem, hev⟩ := run_tells (s := s) (cyc := cyc) (f := fun m => m.lvcTrip k)
    (by rw [hf, heq]; exact htells.onLvc g)
  rw [hf] at hm
  refine ⟨t, ht, by rw [hm]; exact htripped, by rw [hm]; exact htrips, by rw [hm]; exact hstate, by rw [hm]; exact hmask, ?_,
    by rw [hm, heq]; exact hgate, hev, by rw [hm, Mach.settle_bit, heq]; exact hirq, hregs, hmem⟩
  refine Mach.legOut_of_phase_off k.isLt (.inl ?_)
  rw [hm, Mach.settle_lvc, htripped, Nat.testBit_or, Nat.testBit_two_pow_self, Bool.or_true]

theorem exec_lvcFastTrip_third (hqueue : s.m.lvc.queue.length < 4) (hleft : ∃ i < 6, i ≠ k.val ∧ phaseFree s.m i = true)
    (hswitches : buckSwitches s.m.lvc.state = true) (htwo : 2 ≤ s.m.lvc.trips) :
    ∃ t, exec (.lvcFastTrip cyc k) s = .next t ∧ t.m.lvc.trip = s.m.lvc.trip ||| 2 ^ k.val ∧ t.m.lvc.state = 6 ∧ t.m.lvc.mask = 0 ∧
      t.m.legOut k = (false, false) ∧ Raises s t [eventAt (s.at cyc) 0x2401 1 s.m.buckSlot [] 0] ∧
      SameRegsBut s t lvcTold ∧ SameMemory s t := by
  obtain ⟨⟨htells, -, -, -⟩, -⟩ := Mach.lvcTells_tripTold (m := s.at cyc) (k := k) hqueue
  obtain ⟨hforced, hstate, htripped, htrips⟩ := Mach.lvcForced_tripTold (m := s.at cyc) (k := k) hqueue (.inr (.inr hleft))
  obtain ⟨g, -, heq⟩ := ((s.at cyc).tripTold k).sharingLeft_eq
  have hst : s.m.lvc.state ≠ 7 := by
    rintro h
    rw [h] at hswitches
    cases hswitches
  have hf : (s.at cyc).lvcTrip k = ((s.at cyc).tripTold k).sharingLeft.lvcEnter 6 := by
    rw [Mach.lvcTrip_due (m := s.at cyc) hpresent htrip, hforced, hstate, htrips]
    exact if_pos ⟨hst, hswitches, Nat.succ_le_succ htwo⟩
  obtain ⟨t, ht, hm, hregs, hmem, hev⟩ := run_tells (s := s) (cyc := cyc) (f := fun m => m.lvcTrip k)
    (by rw [hf, heq]; exact (htells.onLvc g).lvcEnter (by decide))
  have htrip' : t.m.lvc.trip = s.m.lvc.trip ||| 2 ^ k.val := by
    rw [hm, hf, Mach.settle_lvc, Mach.lvcEnter_trip, htripped]
    rfl
  refine ⟨t, ht, htrip', by rw [hm, hf]; rfl, by rw [hm, hf]; exact Mach.lvcEnter_mask_rest (by decide), ?_, hev, hregs, hmem⟩
  refine Mach.legOut_of_phase_off k.isLt (.inl ?_)
  rw [htrip', Nat.testBit_or, Nat.testBit_two_pow_self, Bool.or_true]

theorem exec_lvcFastTrip_last (hqueue : s.m.lvc.queue.length < 3) (hnone : ∀ i < 6, i ≠ k.val → phaseFree s.m i = false)
    (hlow : 2 ≤ s.m.lvc.state) (hst : s.m.lvc.state ≠ 7) (hroom : s.roomy) :
    ∃ t, exec (.lvcFastTrip cyc k) s = .next t ∧ t.m.lvc.state = 7 ∧ t.m.lvc.mask = 0 ∧
      Enters s t cyc ⟨10, s.m.buckSlot, 0, 0, 0x2404, []⟩ ∧
      Raises s t [eventAt (s.at cyc) 0x2401 1 s.m.buckSlot [] 0, eventAt (s.at cyc) 0x2404 3 s.m.buckSlot [] 0] ∧
      SameRegsBut s t lvcTold ∧ SameMemory s t := by
  have hqueue₄ : s.m.lvc.queue.length < 4 := by omega
  obtain ⟨⟨htells, -, -, -⟩, hlane⟩ := Mach.lvcTells_tripTold (m := s.at cyc) (k := k) hqueue₄
  obtain ⟨-, -, -, hlength⟩ := Mach.tripTold_lvc (m := s.at cyc) (k := k) hqueue₄
  obtain ⟨g, hg, heq⟩ := ((s.at cyc).tripTold k).sharingLeft_eq
  have hforced := Mach.lvcForced_tripTold_last (m := s.at cyc) hqueue₄ hnone hlow hst
  rw [heq] at hforced
  obtain ⟨⟨htold, ⟨r, hlvc⟩, -, -⟩, hwaiting⟩ := (htells.onLvc g).lvcLatched
    (by rw [Mach.onLvc_lvc, hg.queue, hlength]; exact Nat.succ_lt_succ hqueue) (by rw [Mach.onLvc_lane, hlane]; exact hroom)
  have hf : (s.at cyc).lvcTrip k = (((s.at cyc).tripTold k).onLvc g).lvcLatch := by
    rw [Mach.lvcTrip_due (m := s.at cyc) hpresent htrip, hforced]
    exact if_neg fun h => h.1 (congrArg LvcState.state hlvc)
  obtain ⟨t, ht, hm, hregs, hmem, hev⟩ := run_tells (s := s) (cyc := cyc) (f := fun m => m.lvcTrip k) (by rw [hf]; exact htold)
  rw [hf] at hm
  refine ⟨t, ht, by rw [hm]; exact congrArg LvcState.state hlvc, ?_, by rw [Enters, hm]; exact hwaiting, hev, hregs, hmem⟩
  rw [hm]
  exact (congrArg LvcState.mask hlvc).trans (Mach.lvcEnter_mask_rest (m := ((s.at cyc).tripTold k).onLvc g) (st := 7) (by decide))
end

end Sys2Proof.Machine
end

section
/-! What the low-voltage converter's machine does beside a trip (R231, R236, R238, R240 to R242): the events that end its run, and what
it does without a fault. -/

namespace Sys2Proof.Machine

/-! ### Events of class F3 (R231, R236, R241) -/

/-- What a command leaves that ends in an F3 event of the converter: `m` is the machine that the event finds. -/
theorem run_lvcFault {s : State} {cyc : Nat} {f : Mach → Mach} {m : Mach} {code irq st : Nat}
    (h : (s.at cyc).FocTells lvcEventRegs [] m) (hlane : m.lane = s.m.lane) (hroom : s.roomy)
    (hqueue : m.lvc.queue.length < 4) (hirq : irq < 32) (hf : f (s.at cyc) = m.lvcEvent code 3 irq st) :
    ∃ t r, run s cyc f = .next t ∧ t.m.lvc = m.lvc.withRecord r ∧ SlotFault s t cyc code s.m.buckSlot [] ∧
      t.m.bit Reg.LVC_IRQ_STAT irq = true ∧ SameRegsBut s t lvcTold ∧ SameMemory s t := by
  obtain ⟨⟨htells, ⟨r, hlvc⟩, -, hbit⟩, hwaiting⟩ := h.lvcFaulted hqueue hirq (by rw [hlane, hroom]) code st []
  obtain ⟨t, ht, hm, hregs, hmem, hev⟩ := run_tells (s := s) (cyc := cyc) (f := f) (by rw [hf]; exact htells)
  rw [hf] at hm
  exact ⟨t, r, ht, by rw [hm]; exact hlvc, ⟨hev, by rw [Enters, hm]; exact hwaiting⟩,
    by rw [hm, Mach.settle_bit]; exact hbit, hregs, hmem⟩

section
variable {s : State} (cyc : Nat) (hqueue : s.m.lvc.queue.length < 4)
include hqueue

theorem exec_lvcOutputOvervoltage_due (hpresent : s.m.lvcPresent = true) (hst : s.m.lvc.state ≠ 7) (hroom : s.roomy) :
    ∃ t, exec (.lvcOutputOvervoltage cyc) s = .next t ∧ t.m.lvc.state = 7 ∧ t.m.lvc.mask = 0 ∧
      (∀ k : Fin 6, t.m.legOut k = (false, false)) ∧ SlotFault s t cyc 0x2405 s.m.buckSlot [] ∧
      t.m.bit Reg.LVC_IRQ_STAT 2 = true ∧ t.m.lvc.queue.length = s.m.lvc.queue.length + 1 ∧ SameRegsBut s t lvcTold ∧
      SameMemory s t := by
  have hover : (s.at cyc).lvcOver =
      (((s.at cyc).lvcEnter 7).onLvc fun x => { x with ovOff := true }).lvcEvent 0x2405 3 2 s.m.lvc.state :=
    if_neg (by simp [show (s.at cyc).lvcPresent = true from hpresent, show (s.at cyc).lvc.state ≠ 7 from hst])
  have hentered : ((s.at cyc).lvcEnter 7).lvc.queue = s.m.lvc.queue := Mach.lvcEnter_queue ..
  obtain ⟨t, r, ht, hlvc, hfault, hbit, hregs, hmem⟩ := run_lvcFault (f := fun m => m.lvcOver)
    (((Mach.FocTells.refl _ _).lvcEnter (by decide)).onLvc _) (Mach.lvcEnter_lane ..) hroom
    (by rw [Mach.onLvc_lvc, hentered]; exact hqueue) (by decide) hover
  refine ⟨t, ht, by rw [hlvc]; rfl, ?_, fun k => Mach.legOut_of_phase_off k.isLt (.inr (by rw [hlvc]; rfl)), hfault, hbit, ?_, hregs,
    hmem⟩
  · rw [hlvc]
    exact Mach.lvcEnter_mask_rest (m := s.at cyc) (st := 7) (by decide)
  · rw [hlvc, ← hentered]
    exact List.length_append

theorem exec_lvcPrechargeTimeout_due (hst : s.m.lvc.state = 1) (hticks : s.m.fld Reg.LVC_SS 11 0 ≤ s.m.lvc.ticks) (hroom : s.roomy) :
    ∃ t, exec (.lvcPrechargeTimeout cyc) s = .next t ∧ t.m.lvc.state = 0 ∧ SlotFault s t cyc 0x2407 s.m.buckSlot [] ∧
      t.m.bit Reg.LVC_IRQ_STAT 3 = true ∧ SameRegsBut s t lvcTold ∧ SameMemory s t := by
  obtain ⟨t, r, ht, hlvc, hfault, hbit, hregs, hmem⟩ := run_lvcFault (f := fun m => m.lvcPrecharge)
    ((Mach.FocTells.refl (s.at cyc) _).lvcEnter (st := 0) (by decide)) (Mach.lvcEnter_lane ..) hroom
    (by rw [Mach.lvcEnter_queue]; exact hqueue) (by decide) (if_pos ⟨hst, hticks⟩)
  exact ⟨t, ht, by rw [hlvc]; rfl, hfault, hbit, hregs, hmem⟩
end

/-! ### An output short (R236) -/

/-- The output is short: after twice the ramp's ticks in SOFTSTART, or for so many in RUN or BURST-ON. -/
abbrev OutputShort (m : Mach) : Prop :=
  (m.lvc.state = 2 ∧ m.lvc.ticks = 2 * m.fld Reg.LVC_SS 31 16 ∧ 5 * m.lvc.s1 < one29) ∨
    ((m.lvc.state = 3 ∨ m.lvc.state = 4) ∧ 2 * m.fld Reg.LVC_SS 31 16 ≤ m.lvc.shortRun)

theorem Mach.lvcShort_eq (m : Mach) :
    m.lvcShort = if OutputShort m then
      (if 5 ≤ m.lvc.retry then m.lvcLatch else (m.lvcEnter 6).lvcEvent 0x2403 1 4 m.lvc.state [m.lvc.retry]) else m := by
  have hdue : ((m.lvc.state == 2 && decide (m.lvc.ticks = 2 * m.fld Reg.LVC_SS 31 16) && decide (5 * m.lvc.s1 < one29)) ||
      ((m.lvc.state == 3 || m.lvc.state == 4) && decide (2 * m.fld Reg.LVC_SS 31 16 ≤ m.lvc.shortRun))) = decide (OutputShort m) := by
    rw [Bool.eq_iff_iff]
    simp [OutputShort, and_assoc]
  unfold Mach.lvcShort
  dsimp only
  rw [hdue]
  by_cases h : OutputShort m <;> simp [h]

section
variable {s : State} (cyc : Nat) (hshort : OutputShort s.m) (hqueue : s.m.lvc.queue.length < 4)
include hshort hqueue

theorem exec_lvcOutputShort_retried (hretry : s.m.lvc.retry < 5) :
    ∃ t, exec (.lvcOutputShort cyc) s = .next t ∧ t.m.lvc.state = 6 ∧ t.m.lvc.ticks = 0 ∧ t.m.lvc.mask = 0 ∧
      Raises s t [eventAt (s.at cyc) 0x2403 1 s.m.buckSlot [s.m.lvc.retry] 0] ∧ SameRegsBut s t lvcTold ∧ SameMemory s t := by
  have hf : (s.at cyc).lvcShort = ((s.at cyc).lvcEnter 6).lvcEvent 0x2403 1 4 s.m.lvc.state [s.m.lvc.retry] :=
    (Mach.lvcShort_eq _).trans ((if_pos hshort).trans (if_neg (Nat.not_le.2 hretry)))
  obtain ⟨⟨htells, ⟨r, hlvc⟩, -, -⟩, -⟩ := ((Mach.FocTells.refl (s.at cyc) _).lvcEnter (st := 6) (by decide)).lvcWarned (irq := 4)
    (by rw [Mach.lvcEnter_queue]; exact hqueue) (by decide) 0x2403 s.m.lvc.state [s.m.lvc.retry]
  obtain ⟨t, ht, hm, hregs, hmem, hev⟩ := run_tells (s := s) (cyc := cyc) (f := fun m => m.lvcShort) (by rw [hf]; exact htells)
  have hlvc' : t.m.lvc = ((s.at cyc).lvcEnter 6).lvc.withRecord r := by rw [hm, hf]; exact hlvc
  refine ⟨t, ht, by rw [hlvc']; rfl, by rw [hlvc']; rfl, ?_, hev, hregs, hmem⟩
  rw [hlvc']
  exact Mach.lvcEnter_mask_rest (m := s.at cyc) (st := 6) (by decide)

theorem exec_lvcOutputShort_latched (hretry : 5 ≤ s.m.lvc.retry) (hroom : s.roomy) :
    ∃ t, exec (.lvcOutputShort cyc) s = .next t ∧ t.m.lvc.state = 7 ∧ SlotFault s t cyc 0x2404 s.m.buckSlot [] ∧
      SameRegsBut s t lvcTold ∧ SameMemory s t := by
  have hf : (s.at cyc).lvcShort = (s.at cyc).lvcLatch :=
    (Mach.lvcShort_eq _).trans ((if_pos hshort).trans (if_pos hretry))
  obtain ⟨t, r, ht, hlvc, hfault, -, hregs, hmem⟩ := run_lvcFault (f := fun m => m.lvcShort) (irq := 5)
    ((Mach.FocTells.refl (s.at cyc) _).lvcEnter (st := 7) (by decide)) (Mach.lvcEnter_lane ..) hroom
    (by rw [Mach.lvcEnter_queue]; exact hqueue) (by decide) hf
  exact ⟨t, ht, by rw [hlvc]; rfl, hfault, hregs, hmem⟩
end

/-! ### What the machine does without a fault (R232, R236, R238, R240) -/

/-- What a command leaves that changes the converter and no more. -/
theorem run_onLvc {s : State} {cyc : Nat} {f : Mach → Mach} {g : LvcState → LvcState} (hf : f (s.at cyc) = (s.at cyc).onLvc g) :
    ∃ t, run s cyc f = .next t ∧ t.m.lvc = g s.m.lvc ∧ Quiet s t [] := by
  obtain ⟨t, ht, hm, hquiet⟩ := run_tells (s := s) (cyc := cyc) (f := f) (by rw [hf]; exact (Mach.FocTells.refl _ []).onLvc g)
  exact ⟨t, ht, by rw [hm, hf]; rfl, hquiet⟩

/-- A command that finds nothing to do leaves the converter. -/
theorem run_lvc_kept {s : State} {cyc : Nat} {f : Mach → Mach} (hf : f (s.at cyc) = s.at cyc) :
    ∃ t, run s cyc f = .next t ∧ t.m.lvc = s.m.lvc ∧ Quiet s t [] := run_onLvc (g := id) hf

/-- A soft start outside burst mode is told to no one. -/
theorem Mach.lvcSoftStart_untold {m : Mach} (h : inBurst m.lvc.state = false) : ∃ g, m.lvcSoftStart = m.onLvc g := by
  obtain ⟨g, hg⟩ := Mach.lvcEnter_untold (st := 2) h
  unfold Mach.lvcSoftStart
  rw [hg]
  exact ⟨_, (Mach.onLvc_onLvc (m.onLvc g) _ _).trans (Mach.onLvc_onLvc ..)⟩

theorem exec_lvcHiccupEnd_due {s : State} (cyc : Nat) (hst : s.m.lvc.state = 6) (hticks : s.m.hiccupTicks ≤ s.m.lvc.ticks) :
    ∃ t, exec (.lvcHiccupEnd cyc) s = .next t ∧ t.m.lvc.state = 2 ∧ t.m.lvc.retry = min (s.m.lvc.retry + 1) 7 ∧ t.m.lvc.ticks = 0 ∧
      t.m.lvc.trip = 0 ∧ t.m.lvc.r = clampI 0 one29 s.m.lvc.s1 ∧ Quiet s t [] := by
  set m := (s.at cyc).onLvc fun x => { x with retry := min (x.retry + 1) 7 } with hm₀
  have hf : (s.at cyc).lvcHiccupEnd = m.lvcSoftStart := if_pos ⟨hst, hticks⟩
  obtain ⟨g, hg⟩ := Mach.lvcSoftStart_untold (m := m) (by rw [hm₀, Mach.onLvc_lvc]; exact congrArg inBurst hst)
  obtain ⟨t, ht, hlvc, hquiet⟩ := run_onLvc (s := s) (cyc := cyc) (f := fun m => m.lvcHiccupEnd)
    (hf.trans (hg.trans (Mach.onLvc_onLvc ..)))
  have hlvc' : t.m.lvc = m.lvcSoftStart.lvc := by rw [hlvc, hg]; rfl
  refine ⟨t, ht, by rw [hlvc']; rfl, ?_, by rw [hlvc']; rfl, by rw [hlvc']; rfl, ?_, hquiet⟩
  · rw [hlvc']
    exact Mach.lvcEnter_retry m 2
  · rw [hlvc']
    exact congrArg (clampI 0 one29) (Mach.lvcEnter_s1 m 2)

theorem exec_lvcBurstEntry_due {s : State} (cyc : Nat) (hcfg : s.m.bit Reg.LVC_CFG 6 = true) (hst : s.m.lvc.state = 3)
    (hone : countBits s.m.lvc.mask = 1) (hramp : s.m.lvc.rampPh = 7) (hrun : 64 ≤ s.m.lvc.burstRun) :
    ∃ t, exec (.lvcBurstEntry cyc) s = .next t ∧ t.m.lvc.state = 4 ∧ t.m.lvc.mask = s.m.lvc.mask ∧
      t.m.rd Reg.LVC_IRQ_STAT = s.m.rd Reg.LVC_IRQ_STAT ||| 0x80#32 ∧ Quiet s t [Reg.LVC_IRQ_STAT] := by
  have hf : (s.at cyc).lvcBurstEntry = (s.at cyc).lvcEnter 4 := if_pos ⟨hcfg, hst, hone, hramp, hrun⟩
  obtain ⟨g, hg⟩ := Mach.lvcEnter_told (m := s.at cyc) (st := 4) (by rw [show (s.at cyc).lvc.state = 3 from hst]; decide)
  obtain ⟨t, ht, hm, hquiet⟩ := run_tells (s := s) (cyc := cyc) (f := fun m => m.lvcBurstEntry) (regs := [Reg.LVC_IRQ_STAT])
    (by rw [hf]; exact (Mach.FocTells.refl _ _).lvcEnter (by decide))
  rw [hf] at hm
  refine ⟨t, ht, by rw [hm]; rfl, by rw [hm]; exact Mach.lvcEnter_mask_kept (m := s.at cyc) (st := 4) (by decide), ?_, hquiet⟩
  rw [hm, Mach.settle_rd, hg, Mach.onLvc_rd, Mach.rd_orr, if_pos rfl]
  rfl

theorem Mach.lvcShed_due {m : Mach} {k : Nat} (h : m.lvc.state = 3 ∧ m.fld Reg.LVC_SHED 15 8 ≤ m.lvc.dwell ∧ 0 < m.lvc.dwell ∧
      m.lvc.rampPh = 7 ∧ m.fld Reg.LVC_SHED 2 0 < countBits m.lvc.mask) (hlast : (bitsOf 6 m.lvc.mask).getLast? = some k) :
    m.lvcShed = m.onLvc fun x => { x with rampPh := k, rampJ := 0 } := by
  refine (if_pos h).trans ?_
  rw [hlast]

theorem Mach.lvcShed_nothing {m : Mach} (h : m.lvc.state ≠ 3 ∨ m.lvc.dwell < m.fld Reg.LVC_SHED 15 8 ∨ m.lvc.dwell = 0 ∨
      m.lvc.rampPh ≠ 7 ∨ countBits m.lvc.mask ≤ m.fld Reg.LVC_SHED 2 0 ∨ bitsOf 6 m.lvc.mask = []) : m.lvcShed = m := by
  unfold Mach.lvcShed
  dsimp only
  split
  next hdue =>
    obtain ⟨hst, hdwell, hpos, hramp, hmany⟩ := hdue
    have hempty : bitsOf 6 m.lvc.mask = [] := by
      rcases h with h | h | h | h | h | h
      · exact absurd hst h
      · omega
      · omega
      · exact absurd hramp h
      · omega
      · exact h
    rw [hempty]
    rfl
  next => rfl

/-! ### The test of a phase (R242) -/

theorem exec_lvcDiagComplete_due {s : State} {k : Fin 6} (cyc : Nat) (hrun : s.m.lvc.diagRun.testBit k = true) (hroom : s.roomy)
    (high low : Bool) :
    ∃ t, exec (.lvcDiagComplete cyc k high low) s = .next t ∧
      Enters s t cyc ⟨8, 0x40 + k.val, 0, 0, if high && !low then 1 else 4, []⟩ ∧
      t.m.lvc = { s.m.lvc with diagRun := s.m.lvc.diagRun &&& (0x3F ^^^ 2 ^ k.val) } ∧ Quiet s t [] := by
  set m := (s.at cyc).onLvc fun x => { x with diagRun := x.diagRun &&& (0x3F ^^^ 2 ^ k.val) } with hm₀
  have htold : (s.at cyc).FocTells [] [] m := (Mach.FocTells.refl _ _).onLvc _
  have hwait : m.lane.waiting = [] := hroom
  have hf : (s.at cyc).lvcDiagDone k high low =
      m.wait ((s.at cyc).entryOf (s.at cyc).accTickNow ⟨8, 0x40 + k.val, 0, 0, if high && !low then 1 else 4, []⟩) := by
    rw [← htold.entryOf_eq, ← (Mach.FewWait.of_nil hwait 0).accede_eq (by decide) rfl]
    exact if_neg (by rw [show (s.at cyc).lvc.diagRun.testBit k = true from hrun]; decide)
  obtain ⟨t, ht, hm, hquiet⟩ := run_tells (s := s) (cyc := cyc) (f := fun m => m.lvcDiagDone k high low)
    (by rw [hf]; exact htold.wait _)
  rw [hf] at hm
  refine ⟨t, ht, ?_, by rw [hm]; rfl, hquiet⟩
  rw [Enters, hm, Mach.settle_lane, Mach.wait_lane, hwait, insertEntry_nil]

theorem exec_lvcDiagComplete_nothing {s : State} {k : Fin 6} (cyc : Nat) (hrun : s.m.lvc.diagRun.testBit k = false) (high low : Bool) :
    ∃ t, exec (.lvcDiagComplete cyc k high low) s = .next t ∧ t.m.lane = s.m.lane ∧ t.m.lvc = s.m.lvc ∧ Quiet s t [] := by
  obtain ⟨t, ht, hm, hquiet⟩ := run_gate_nothing (s := s) (cyc := cyc) (f := fun m => m.lvcDiagDone k high low)
    (if_pos (by rw [show (s.at cyc).lvc.diagRun.testBit k = false from hrun]; rfl))
  exact ⟨t, ht, by rw [hm]; rfl, by rw [hm]; rfl, hquiet⟩

/-! ### The obligation -/

/-- Settles O28: a trip by what it leaves of the phases, the F3 events through what one event of the converter leaves, and the machine's
own steps through what entering a state leaves. -/
theorem lvcTripsAndAdvances : Obligations.LvcTripsAndAdvances := by
  refine ⟨fun cyc k s hpresent htrip hqueue h => exec_lvcFastTrip_shares hpresent htrip cyc hqueue h,
    fun cyc k s hpresent htrip hqueue hleft hswitches htwo => exec_lvcFastTrip_third hpresent htrip cyc hqueue hleft hswitches htwo,
    fun cyc k s hpresent htrip hqueue hnone hlow hst hroom => exec_lvcFastTrip_last hpresent htrip cyc hqueue hnone hlow hst hroom,
    fun cyc k s h => run_lvc_kept (f := fun m => m.lvcTrip k) (Mach.lvcTrip_nothing (m := s.at cyc) h),
    fun cyc s hpresent hst hroom hqueue => exec_lvcOutputOvervoltage_due cyc hqueue hpresent hst hroom,
    fun cyc s h => run_lvc_kept (f := fun m => m.lvcOver) (if_pos ?_),
    fun cyc s hshort hqueue => ⟨exec_lvcOutputShort_retried cyc hshort hqueue, exec_lvcOutputShort_latched cyc hshort hqueue⟩,
    fun cyc s hstart hrun => run_lvc_kept (f := fun m => m.lvcShort) ?_,
    fun cyc s hst hticks hroom hqueue => exec_lvcPrechargeTimeout_due cyc hqueue hst hticks hroom,
    fun cyc s h => run_lvc_kept (f := fun m => m.lvcPrecharge) (if_neg ?_),
    fun cyc s hst hticks => exec_lvcHiccupEnd_due cyc hst hticks,
    fun cyc s h => run_lvc_kept (f := fun m => m.lvcHiccupEnd) (if_neg ?_),
    fun cyc s hst hgood => run_onLvc (f := fun m => m.lvcRetryClear) (if_pos ⟨hst, hgood⟩),
    fun cyc s h => run_lvc_kept (f := fun m => m.lvcRetryClear) (if_neg ?_),
    fun cyc s k hst hdwell hpos hramp hmany hlast =>
      run_onLvc (f := fun m => m.lvcShed) (Mach.lvcShed_due (m := s.at cyc) ⟨hst, hdwell, hpos, hramp, hmany⟩ hlast),
    fun cyc s h => run_lvc_kept (f := fun m => m.lvcShed) (Mach.lvcShed_nothing (m := s.at cyc) h),
    fun cyc s hcfg hst hone hramp hrun => exec_lvcBurstEntry_due cyc hcfg hst hone hramp hrun,
    fun cyc s h => run_lvc_kept (f := fun m => m.lvcBurstEntry) (if_neg ?_),
    fun cyc k high low s hrun hroom => exec_lvcDiagComplete_due cyc hrun hroom high low,
    fun cyc k high low s hrun => exec_lvcDiagComplete_nothing cyc hrun high low⟩
  · rcases h with h | h
    · exact .inr (by rw [show (s.at cyc).lvcPresent = false from h]; rfl)
    · exact .inl h
  · exact (Mach.lvcShort_eq _).trans (if_neg (not_or.2 ⟨hstart, hrun⟩))
  · rintro ⟨hst, hticks⟩
    exact h.elim (fun h => h hst) (Nat.not_lt.2 hticks)
  · rintro ⟨hst, hticks⟩
    exact h.elim (fun h => h hst) (Nat.not_lt.2 hticks)
  · rintro ⟨hst, hgood⟩
    exact h.elim (fun h => hst.elim h.1 h.2) (Nat.not_lt.2 hgood)
  · rintro ⟨hcfg, hst, hone, hramp, hrun⟩
    rcases h with h | h | h | h | h
    · exact Bool.false_ne_true (h.symm.trans hcfg)
    · exact h hst
    · exact h hone
    · exact h hramp
    · exact Nat.not_lt.2 hrun h

end Sys2Proof.Machine
end

section
/-! The converter's fault records in flash (R243 to R245): what a write of the oldest record leaves of memory, of the registers and of
the converter. -/

namespace Sys2Proof.Machine

/-! ### Memory -/

/-- What a cleared range reads as, and that the rest stays. -/
theorem Memory.read_clear (mem : List Host.Cell) (a b x : Nat) :
    Memory.read (Memory.clear mem a b) x = if a ≤ x ∧ x < b then Memory.read [] x else Memory.read mem x := by
  unfold Memory.read
  induction mem with
  | nil => simp [Memory.clear]
  | cons c mem ih =>
    obtain ⟨e, v⟩ := c
    have hget : ∀ l : List Host.Cell, Cells.get ((e, v) :: l) x = if e = x then some v else Cells.get l x := fun _ => rfl
    by_cases he : a ≤ e ∧ e < b
    · rw [show Memory.clear ((e, v) :: mem) a b = Memory.clear mem a b from List.filter_cons_of_neg (by simpa using he), ih]
      by_cases hx : a ≤ x ∧ x < b
      · rw [if_pos hx, if_pos hx]
      · have hex : e ≠ x := fun h => hx (h ▸ he)
        rw [if_neg hx, if_neg hx, hget, if_neg hex]
    · rw [show Memory.clear ((e, v) :: mem) a b = (e, v) :: Memory.clear mem a b from
        List.filter_cons_of_pos (by simpa [imp_iff_not_or] using he), hget, hget]
      by_cases hex : e = x
      · rw [if_pos hex, if_neg (hex ▸ he), if_pos hex]
      · rw [if_neg hex, if_neg hex, ih]

/-- What is written reads as it was written, each byte by its low eight bits. -/
theorem Memory.read_writeL {mem : List Host.Cell} (h : Memory.wf mem = true) (a : Nat) {l : List Nat} {i : Nat} (hi : i < l.length) :
    (Memory.read (Memory.writeL mem a l) (a + i)).toNat = nth l i % 256 := by
  induction l generalizing mem a i with
  | nil => cases hi
  | cons x l ih =>
    rw [Memory.writeL]
    cases i with
    | zero =>
      rw [Memory.read_writeL_other (Memory.write_wf h a _) l (by omega), Nat.add_zero, Memory.read_write h, if_pos rfl]
      exact BitVec.toNat_ofNat x 8
    | succ i =>
      rw [← Nat.add_assoc, Nat.add_right_comm]
      exact ih (Memory.write_wf h a _) (a + 1) (Nat.lt_of_succ_lt_succ hi)

/-! ### The place of a record (R245) -/

/-- The sector that takes the next record. -/
def LvcState.sectorAt (x : LvcState) : Nat := lvcArea + 0x1000 * x.sector

/-- The place of the next record. -/
def LvcState.placeAt (x : LvcState) : Nat := x.sectorAt + 64 * x.slot

/-- Memory before a record is written: the sector erased where the record is its first. -/
def LvcState.erased (x : LvcState) (mem : List Host.Cell) : List Host.Cell :=
  if x.slot = 0 then Memory.clear mem x.sectorAt (x.sectorAt + 0x1000) else mem

section
variable {x : LvcState} {mem : List Host.Cell}

theorem LvcState.erased_wf (h : Memory.wf mem = true) : Memory.wf (x.erased mem) = true := by
  unfold LvcState.erased
  split
  · exact Memory.clear_wf h ..
  · exact h

/-- An erase keeps what stands outside the sector. -/
theorem LvcState.read_erased_other {b : Nat} (hb : b < x.sectorAt ∨ x.sectorAt + 0x1000 ≤ b ∨ 0 < x.slot) :
    Memory.read (x.erased mem) b = Memory.read mem b := by
  unfold LvcState.erased
  split
  · rw [Memory.read_clear, if_neg (by omega)]
  · rfl

theorem LvcState.read_erased_first {b : Nat} (hslot : x.slot = 0) (hlo : x.sectorAt ≤ b) (hhi : b < x.sectorAt + 0x1000) :
    Memory.read (x.erased mem) b = Memory.read [] b := by
  rw [LvcState.erased, if_pos hslot, Memory.read_clear, if_pos ⟨hlo, hhi⟩]

/-- A record written leaves every other byte, but for those of a sector erased. -/
theorem LvcState.read_written_other (h : Memory.wf mem = true) {l : List Nat} (hl : l.length = 64) {b : Nat}
    (hplace : b < x.placeAt ∨ x.placeAt + 64 ≤ b) (hb : b < x.sectorAt ∨ x.sectorAt + 0x1000 ≤ b ∨ 0 < x.slot) :
    Memory.read (Memory.writeL (x.erased mem) x.placeAt l) b = Memory.read mem b := by
  rw [Memory.read_writeL_other (x.erased_wf h) l (by rwa [hl]), x.read_erased_other hb]
end

theorem length_lvcBytes (seq : Nat) {r : List Nat} (h : r.length = 52) : (lvcBytes seq r).length = 64 := by
  simp [lvcBytes, length_leBytes, h]

theorem Mach.length_freeBytes (m : Mach) (n : Nat) : (m.freeBytes n).1.length = n := by simp [Mach.freeBytes]

/-! ### The write (R243, R245) -/

/-- The converter once the record at the head of its queue has its place. -/
def LvcState.written (x : LvcState) (rest : List (List Nat)) : LvcState :=
  { x with
    queue := rest, nextSeq := x.nextSeq + 1, slot := (x.slot + 1) % 64
    sector := if x.slot = 63 then 1 - x.sector else x.sector }

section
variable (m : Mach)

/-- The head of the queue has left, and LVC_FRSTAT shows what waits. -/
def Mach.recordTaken (rest : List (List Nat)) : Mach :=
  (m.onLvc fun x => x.written rest).setFld Reg.LVC_FRSTAT 2 0 rest.length

variable {m} {mem : List Host.Cell} {r : List Nat} {rest : List (List Nat)}

theorem Mach.lvcWrite_nil (h : m.lvc.queue = []) (ok : Bool) : m.lvcWrite mem ok = (m, mem) := by
  unfold Mach.lvcWrite
  rw [h]

theorem Mach.lvcWrite_verified (h : m.lvc.queue = r :: rest) :
    m.lvcWrite mem true = (((m.recordTaken rest).wrN Reg.LVC_FRSEQ m.lvc.nextSeq).orr Reg.LVC_IRQ_STAT 0x200,
      Memory.writeL (m.lvc.erased mem) m.lvc.placeAt (lvcBytes m.lvc.nextSeq r)) := by
  unfold Mach.lvcWrite
  rw [h]
  rfl

theorem Mach.lvcWrite_failed (h : m.lvc.queue = r :: rest) :
    m.lvcWrite mem false = (((m.spend 64).recordTaken rest).lvcDrop,
      Memory.writeL (m.lvc.erased mem) m.lvc.placeAt (m.freeBytes 64).1) := by
  unfold Mach.lvcWrite
  rw [h]
  rfl
end

/-- What a command that touches memory leaves, from what it tells. -/
theorem runMem_tells {s : State} {cyc : Nat} {f : Mach → List Host.Cell → Mach × List Host.Cell} {m : Mach}
    {mem : List Host.Cell} {regs : List Nat} {es : List Event} (hf : f (s.at cyc) s.mem = (m, mem))
    (h : (s.at cyc).FocTells regs es m) :
    ∃ t, runMem s cyc f = .next t ∧ t.m = m.settle ∧ t.mem = mem ∧ SameRegsBut s t regs ∧ Raises s t es :=
  ⟨_, runMem_eq hf, rfl, rfl, fun b hb => (Mach.settle_rd _ b).trans (h.rd b hb), h.raised⟩

section
variable {m m₀ : Mach} {regs : List Nat} {es : List Event} (h : m₀.FocTells regs es m)
include h

theorem Mach.FocTells.spend (n : Nat) : m₀.FocTells regs es (m.spend n) := ⟨h.now, h.cyc, h.tick, h.stamp, h.rd, h.raised⟩

theorem Mach.FocTells.recordTaken (hfr : Reg.LVC_FRSTAT ∈ regs) (rest : List (List Nat)) :
    m₀.FocTells regs es (m.recordTaken rest) := (h.onLvc _).setFld hfr (by decide) ..
end

/-- A record that is dropped is counted and told. -/
theorem Mach.FocTells.lvcDrop {m m₀ : Mach} {es : List Event} (h : m₀.FocTells lvcEventRegs es m) :
    m₀.FocTells lvcEventRegs (es ++ [eventAt m₀ 0x240C 0 m₀.buckSlot [] 0]) m.lvcDrop := by
  have hcounted := h.incSat (a := Reg.LVC_FRSTAT) (by decide) (by decide) 31 16
  rw [← hcounted.buckSlot_eq]
  exact (hcounted.raise ..).orr (by decide) (by decide) _

theorem Mach.lvcDrop_shows (m : Mach) :
    m.lvcDrop.fld Reg.LVC_FRSTAT 31 16 = min (m.fld Reg.LVC_FRSTAT 31 16 + 1) 0xFFFF ∧ m.lvcDrop.bit Reg.LVC_IRQ_STAT 10 = true := by
  constructor
  · rw [Mach.lvcDrop, Mach.fld, Mach.rd_orr, if_neg (by decide), Mach.raise_rd]
    exact m.fld_incSat (by decide) (by decide)
  · rw [Mach.lvcDrop, Mach.bit, Mach.rd_orr, if_pos rfl]
    exact Word.bit_or_two_pow (i := 10) _ (by decide)

section
variable {s : State} {r : List Nat} {rest : List (List Nat)} {a c : Nat} (hwf : Memory.wf s.mem = true)
  (hqueue : s.m.lvc.queue = r :: rest) (hc : c = lvcArea + 0x1000 * s.m.lvc.sector)
  (ha : a = c + 64 * s.m.lvc.slot) (cyc : Nat)
include hwf hqueue hc ha

theorem exec_lvcFaultRecordWrite_verified (hlen : r.length = 52) :
    ∃ t, exec (.lvcFaultRecordWrite cyc true) s = .next t ∧ t.m.lvc.queue = rest ∧ t.m.lvc.nextSeq = s.m.lvc.nextSeq + 1 ∧
      t.m.lvc.slot = (s.m.lvc.slot + 1) % 64 ∧
      (∀ i : Fin 64, (Memory.read t.mem (a + i.val)).toNat = nth (lvcBytes s.m.lvc.nextSeq r) i % 256) ∧
      (∀ b, b < a ∨ a + 64 ≤ b → b < c ∨ c + 0x1000 ≤ b ∨ 0 < s.m.lvc.slot → Memory.read t.mem b = Memory.read s.mem b) ∧
      (s.m.lvc.slot = 0 → ∀ b, a + 64 ≤ b → b < c + 0x1000 → Memory.read t.mem b = Memory.read [] b) ∧
      t.m.rd Reg.LVC_FRSEQ = BitVec.ofNat 32 s.m.lvc.nextSeq ∧ t.m.bit Reg.LVC_IRQ_STAT 9 = true ∧
      SameRegsBut s t [Reg.LVC_FRSEQ, Reg.LVC_FRSTAT, Reg.LVC_IRQ_STAT] ∧ Raises s t [] := by
  obtain rfl : c = s.m.lvc.sectorAt := hc
  obtain rfl : a = s.m.lvc.placeAt := ha
  have hbytes := length_lvcBytes s.m.lvc.nextSeq hlen
  have herased : Memory.wf (s.m.lvc.erased s.mem) = true := LvcState.erased_wf hwf
  obtain ⟨t, ht, hm, hmem, hregs, hev⟩ := runMem_tells (s := s) (cyc := cyc) (f := fun m mem => m.lvcWrite mem true)
    (regs := [Reg.LVC_FRSEQ, Reg.LVC_FRSTAT, Reg.LVC_IRQ_STAT]) (Mach.lvcWrite_verified (m := s.at cyc) hqueue)
    ((((Mach.FocTells.refl _ _).recordTaken (by decide) rest).wr (by decide) (by decide) _).orr (by decide) (by decide) _)
  have hmem' : t.mem = Memory.writeL (s.m.lvc.erased s.mem) s.m.lvc.placeAt (lvcBytes s.m.lvc.nextSeq r) := hmem
  have hlvc : t.m.lvc = s.m.lvc.written rest := by rw [hm]; rfl
  refine ⟨t, ht, by rw [hlvc]; rfl, by rw [hlvc]; rfl, by rw [hlvc]; rfl, fun i => ?_, fun b hb hsector => ?_,
    fun hfirst b hlo hhi => ?_, ?_, ?_, hregs, hev⟩
  · rw [hmem']
    exact Memory.read_writeL herased _ (by rw [hbytes]; exact i.isLt)
  · rw [hmem']
    exact LvcState.read_written_other hwf hbytes hb hsector
  · rw [hmem', Memory.read_writeL_other herased _ (.inr (by rwa [hbytes]))]
    exact LvcState.read_erased_first hfirst ((Nat.le_add_right ..).trans ((Nat.le_add_right ..).trans hlo)) hhi
  · rw [hm, Mach.settle_rd, Mach.rd_orr, if_neg (by decide), Mach.rd_wrN, if_pos rfl]
    rfl
  · rw [hm, Mach.settle_bit, Mach.bit, Mach.rd_orr, if_pos rfl]
    exact Word.bit_or_two_pow (i := 9) _ (by decide)

theorem exec_lvcFaultRecordWrite_failed :
    ∃ t, exec (.lvcFaultRecordWrite cyc false) s = .next t ∧ t.m.lvc.queue = rest ∧ t.m.lvc.nextSeq = s.m.lvc.nextSeq + 1 ∧
      t.m.fld Reg.LVC_FRSTAT 31 16 = min (s.m.fld Reg.LVC_FRSTAT 31 16 + 1) 0xFFFF ∧
      (∀ b, b < a ∨ a + 64 ≤ b → b < c ∨ c + 0x1000 ≤ b ∨ 0 < s.m.lvc.slot → Memory.read t.mem b = Memory.read s.mem b) ∧
      t.m.bit Reg.LVC_IRQ_STAT 10 = true ∧ Raises s t [eventAt (s.at cyc) 0x240C 0 s.m.buckSlot [] 0] ∧
      SameRegsBut s t [Reg.LVC_FRSTAT, Reg.LVC_IRQ_STAT] := by
  obtain rfl : c = s.m.lvc.sectorAt := hc
  obtain rfl : a = s.m.lvc.placeAt := ha
  obtain ⟨t, ht, hm, hmem, hregs, hev⟩ := runMem_tells (s := s) (cyc := cyc) (f := fun m mem => m.lvcWrite mem false)
    (Mach.lvcWrite_failed (m := s.at cyc) hqueue) (((Mach.FocTells.refl (s.at cyc) _).spend 64).recordTaken (by decide) rest).lvcDrop
  have hmem' : t.mem = Memory.writeL (s.m.lvc.erased s.mem) s.m.lvc.placeAt ((s.at cyc).freeBytes 64).1 := hmem
  obtain ⟨hcount, hbit⟩ := (((s.at cyc).spend 64).recordTaken rest).lvcDrop_shows
  have hlvc : t.m.lvc = s.m.lvc.written rest := by rw [hm]; rfl
  refine ⟨t, ht, by rw [hlvc]; rfl, by rw [hlvc]; rfl, ?_, fun b hb hsector => ?_, by rw [hm, Mach.settle_bit]; exact hbit, hev, ?_⟩
  · rw [hm, Mach.settle_fld, hcount, Mach.recordTaken, Mach.fld_setFld_other _ _ (by decide) (by decide) (by decide) (by decide)]
    rfl
  · rw [hmem']
    exact LvcState.read_written_other hwf ((s.at cyc).length_freeBytes 64) hb hsector
  · intro b hb
    exact hregs b (by simpa [or_comm] using hb)
end

/-- Settles O29: the write of the oldest record, verified or not, by what it leaves of memory and registers. -/
theorem lvcRecordsGoToFlash : Obligations.LvcRecordsGoToFlash := by
  refine ⟨fun cyc s r rest a c hwf hqueue _ hlen hc ha => exec_lvcFaultRecordWrite_verified hwf hqueue hc ha cyc hlen,
    fun cyc s r rest a c hwf hqueue _ hc ha => exec_lvcFaultRecordWrite_failed hwf hqueue hc ha cyc, fun cyc s ok hqueue => ?_⟩
  obtain ⟨t, ht, hm, hmem, hregs, hev⟩ := runMem_tells (s := s) (cyc := cyc) (f := fun m mem => m.lvcWrite mem ok)
    (Mach.lvcWrite_nil (m := s.at cyc) hqueue ok) (.refl _ [])
  exact ⟨t, ht, by rw [hm]; rfl, hregs, fun b => by rw [hmem], hev⟩

end Sys2Proof.Machine
end

section
/-! What the operations of the charger leave (R250, R261, R274): its registers, its state, and the events for its slots. -/

namespace Sys2Proof.Machine

variable (m : Mach)

/-! ### What a command of the charger tells -/

/-- A status bit that is set. -/
theorem Mach.bit_orr {a i : Nat} (hi : i < 32) : (m.orr a (2 ^ i)).bit a i = true := by
  rw [Mach.bit, Mach.rd_orr, if_pos rfl]
  exact Word.bit_or_two_pow _ hi

section
variable {m} {m' : Mach} {regs : List Nat} {es : List Event} (h : m.FocTells regs es m')
include h

/-- A change of the charger tells nothing. -/
theorem Mach.FocTells.onChg (f : ChgState → ChgState) : m.FocTells regs es (m'.onChg f) :=
  ⟨h.now, h.cyc, h.tick, h.stamp, h.rd, h.raised⟩

/-- The charger's status bits. -/
theorem Mach.FocTells.orrChg (hirq : Reg.CHG_IRQ_STAT ∈ regs) (k : Nat) : m.FocTells regs es (m'.orr Reg.CHG_IRQ_STAT k) where
  now := h.now
  cyc := h.cyc
  tick := h.tick
  stamp := (h.wr hirq (by decide) _).stamp
  rd := (h.wr hirq (by decide) _).rd
  raised := h.raised

theorem Mach.FocTells.chgSlots_eq (hcfg : Reg.CHG_CFG ∉ regs) : m'.pfcSlot = m.pfcSlot ∧ m'.dabSlot = m.dabSlot := by
  simp only [Mach.pfcSlot, Mach.dabSlot, Mach.fld, h.rd _ hcfg, and_self]
end

/-! ### How a command of the charger ends -/

section
variable {s : State} {cyc : Nat} {f : Mach → Mach} {g : ChgState → ChgState}

/-- What a command leaves that changes the charger and no more. -/
theorem run_onChg (hf : f (s.at cyc) = (s.at cyc).onChg g) : ∃ t, run s cyc f = .next t ∧ t.m.chg = g s.m.chg ∧ Quiet s t [] := by
  obtain ⟨t, ht, hm, hquiet⟩ := run_tells (s := s) (cyc := cyc) (f := f) (by rw [hf]; exact (Mach.FocTells.refl _ []).onChg g)
  exact ⟨t, ht, by rw [hm, hf]; rfl, hquiet⟩

/-- A command that finds nothing to do leaves the charger. -/
theorem run_chg_kept (hf : f (s.at cyc) = s.at cyc) : ∃ t, run s cyc f = .next t ∧ t.m.chg = s.m.chg ∧ Quiet s t [] :=
  run_onChg (g := id) hf

/-- What a command leaves that changes the charger and sets status bits, and no more. -/
theorem run_onChg_orr {k : Nat} (hf : f (s.at cyc) = ((s.at cyc).onChg g).orr Reg.CHG_IRQ_STAT k) :
    ∃ t, run s cyc f = .next t ∧ t.m.chg = g s.m.chg ∧
      t.m.rd Reg.CHG_IRQ_STAT = s.m.rd Reg.CHG_IRQ_STAT ||| BitVec.ofNat 32 k ∧ Quiet s t [Reg.CHG_IRQ_STAT] := by
  obtain ⟨t, ht, hm, hquiet⟩ := run_tells (s := s) (cyc := cyc) (f := f) (regs := [Reg.CHG_IRQ_STAT])
    (by rw [hf]; exact ((Mach.FocTells.refl _ _).onChg g).orrChg (by decide) k)
  refine ⟨t, ht, by rw [hm, hf]; rfl, ?_, hquiet⟩
  rw [hm, hf, Mach.settle_rd, Mach.rd_orr, if_pos rfl]
  rfl
end

end Sys2Proof.Machine
end

section
/-! Pilot, proximity and the battery permit (R257 to R259, R262): what a reading is taken as, and when it is told. -/

namespace Sys2Proof.Machine

variable (m : Mach)

/-! ### A reading that is taken (R257, R259) -/

/-- The charger changed, and where `b` holds the change told with the bit of the decode's interrupt. -/
def Mach.chgDecoded (b : Bool) (g : ChgState → ChgState) : Mach :=
  if b then (m.onChg g).orr Reg.CHG_IRQ_STAT (2 ^ 3) else m.onChg g

theorem run_chgDecoded {s : State} {cyc : Nat} {f : Mach → Mach} {b : Bool} {g : ChgState → ChgState}
    (hf : f (s.at cyc) = (s.at cyc).chgDecoded b g) :
    ∃ t, run s cyc f = .next t ∧ t.m.chg = g s.m.chg ∧
      t.m.bit Reg.CHG_IRQ_STAT 3 = (s.m.bit Reg.CHG_IRQ_STAT 3 || b) ∧ Quiet s t [Reg.CHG_IRQ_STAT] := by
  cases b with
  | true =>
    obtain ⟨t, ht, hchg, hirq, hquiet⟩ := run_onChg_orr hf
    exact ⟨t, ht, hchg, by rw [Mach.bit, hirq, Word.bit_or_two_pow _ (by decide), Bool.or_true], hquiet⟩
  | false =>
    obtain ⟨t, ht, hchg, hregs, hmem, hev⟩ := run_onChg hf
    exact ⟨t, ht, hchg, by rw [Bool.or_false, Mach.bit, hregs _ List.not_mem_nil]; rfl, fun a _ => hregs a List.not_mem_nil, hmem, hev⟩

theorem Mach.pilotTake_eq (c : Nat) : m.pilotTake c = m.chgDecoded (m.chg.cp != c) fun x => { x with cp := c } := by
  unfold Mach.pilotTake Mach.chgDecoded
  by_cases h : m.chg.cp = c
  · subst h
    simp only [bne_self_eq_false, if_true, Bool.false_eq_true, if_false]
    rfl
  · rw [if_neg h, if_pos (bne_iff_ne.2 h)]
    rfl

/-- A pilot state read `n` times in a row is taken at the third. -/
theorem Mach.pilotTake_third (c n : Nat) : (if 3 ≤ n then m.pilotTake c else m) =
    m.chgDecoded (decide (3 ≤ n) && m.chg.cp != c) fun x => { x with cp := if 3 ≤ n then c else x.cp } := by
  by_cases h : 3 ≤ n
  · simp only [h, if_true, decide_true, Bool.true_and]
    exact m.pilotTake_eq c
  · simp only [h, if_false, decide_false, Bool.false_and]
    rfl

/-- A code of the plug read `n` times in a row is taken at the third. -/
theorem Mach.plugTake_third (c n : Nat) :
    (if 3 ≤ n ∧ m.chg.pp ≠ c then (m.onChg fun x => { x with pp := c }).orr Reg.CHG_IRQ_STAT 8 else m) =
      m.chgDecoded (decide (3 ≤ n) && m.chg.pp != c) fun x => { x with pp := if 3 ≤ n then c else x.pp } := by
  unfold Mach.chgDecoded
  by_cases h : 3 ≤ n ∧ m.chg.pp ≠ c
  · obtain ⟨hthird, hnew⟩ := h
    simp only [hthird, hnew, ne_eq, not_false_eq_true, and_self, if_true, decide_true, bne_iff_ne.2 hnew, Bool.and_self]
    rfl
  · have hpp : (if 3 ≤ n then c else m.chg.pp) = m.chg.pp := by
      split
      next hthird => exact (not_not.1 fun hnew => h ⟨hthird, hnew⟩).symm
      next => rfl
    rw [if_neg h, if_neg (by simpa using h), Mach.onChg, hpp]

section
variable {m} (hunit : hasUnit m.variant 3 = true) (hmode : m.mode ≠ .sleep)
include hunit hmode

/-- The charger listens: it is present, and the block is not in SLEEP. -/
theorem Mach.chgListens : ¬(!hasUnit m.variant 3 || m.mode == .sleep) = true := by simp [hunit, hmode]

theorem Mach.pilotPeriod_eq {high low : Int} {freq duty c n : Nat}
    (hc : c = (if 9800 ≤ freq ∧ freq ≤ 10200 ∧ -13000 ≤ low ∧ low ≤ -11000 then pilotState high true else 0))
    (hn : n = (if m.chg.cpNext = c then m.chg.cpRun + 1 else 1)) :
    m.pilotPeriod high low freq duty = m.chgDecoded (decide (3 ≤ n) && m.chg.cp != c) fun x =>
      { x with cpNext := c, cpRun := min n 3, pwm := true, duty := min duty 1000, cp := if 3 ≤ n then c else x.cp } := by
  refine (if_neg (Mach.chgListens hunit hmode)).trans ?_
  dsimp only
  rw [← hc, ← hn]
  exact Mach.pilotTake_third _ c n

theorem Mach.pilotConstant_eq (level : Int) :
    m.pilotConstant level = m.chgDecoded (m.chg.cp != pilotState level false) fun x =>
      { x with cpNext := 0, cpRun := 0, pwm := false, duty := 0, cp := pilotState level false } :=
  (if_neg (Mach.chgListens hunit hmode)).trans (Mach.pilotTake_eq _ _)

theorem Mach.proximity_eq {ohms n : Nat} (hn : n = (if m.chg.ppNext = ppCode ohms then m.chg.ppRun + 1 else 1)) :
    m.proximity ohms = m.chgDecoded (decide (3 ≤ n) && m.chg.pp != ppCode ohms) fun x =>
      { x with ppNext := ppCode ohms, ppRun := min n 3, pp := if 3 ≤ n then ppCode ohms else x.pp } := by
  refine (if_neg (Mach.chgListens hunit hmode)).trans ?_
  dsimp only
  rw [← hn]
  exact Mach.plugTake_third _ (ppCode ohms) n
end

/-- The charger does not listen. -/
theorem Mach.chgDeaf (h : hasUnit m.variant 3 = false ∨ m.mode = .sleep) : (!hasUnit m.variant 3 || m.mode == .sleep) = true := by
  rcases h with h | h <;> simp [h]

/-- A high level gives the state of the band that it lies in. -/
theorem pilotState_bands (mv : Int) :
    (10500 < mv → pilotState mv true = 1) ∧ (7500 ≤ mv → mv ≤ 10500 → pilotState mv true = 2) ∧
    (4500 ≤ mv → mv < 7500 → pilotState mv true = 3) ∧ (1500 < mv → mv < 4500 → pilotState mv true = 4) ∧
    (-1500 ≤ mv → mv ≤ 1500 → pilotState mv true = 5) ∧ (mv < -10500 → pilotState mv false = 6) := by
  simp only [pilotState, Bool.not_false, and_true]
  refine ⟨fun _ => ?_, fun _ _ => ?_, fun _ _ => ?_, fun _ _ => ?_, fun _ _ => ?_, fun _ => ?_⟩ <;> (repeat' split) <;> omega

/-- Settles O31: a reading by whether it is the third of its state or code and new, and by the bands of the pilot's level. -/
theorem chargePilotProximityAndPermit : Obligations.ChargePilotProximityAndPermit := by
  refine ⟨fun cyc high low freq duty c n s hunit hmode hc hn =>
      run_chgDecoded (f := fun m => m.pilotPeriod high low freq duty) (Mach.pilotPeriod_eq (m := s.at cyc) hunit hmode hc hn),
    pilotState_bands, fun cyc level s hunit hmode => ?_, fun cyc ohms n s hunit hmode hn => ?_,
    fun cyc high low level freq duty ohms s h => ?_, fun cyc closed s => ?_⟩
  · obtain ⟨t, ht, hchg, -, hquiet⟩ := run_chgDecoded (f := fun m => m.pilotConstant level)
      (Mach.pilotConstant_eq (m := s.at cyc) hunit hmode level)
    exact ⟨t, ht, hchg, hquiet⟩
  · obtain ⟨t, ht, hchg, -, hquiet⟩ := run_chgDecoded (f := fun m => m.proximity ohms)
      (Mach.proximity_eq (m := s.at cyc) hunit hmode hn)
    exact ⟨t, ht, hchg, hquiet⟩
  · have hdeaf := Mach.chgDeaf (s.at cyc) h
    exact ⟨run_chg_kept (f := fun m => m.pilotPeriod high low freq duty) (if_pos hdeaf),
      run_chg_kept (f := fun m => m.pilotConstant level) (if_pos hdeaf), run_chg_kept (f := fun m => m.proximity ohms) (if_pos hdeaf)⟩
  · obtain ⟨t, ht, hchg, hquiet⟩ := run_onChg (s := s) (cyc := cyc) (f := fun m => m.bmsPermit closed) rfl
    exact ⟨t, ht, hquiet, hchg⟩

end Sys2Proof.Machine
end

section
/-! The charge machine (R256, R261 to R264, R266, R271, R272, R274): where a charge ends or pauses, and what it tells. -/

namespace Sys2Proof.Machine

variable (m : Mach)

/-! ### The end of a charge (R261, R274) -/

/-- The machine has just entered the state `st`. -/
def ChgState.entered (x : ChgState) (st : Nat) : ChgState :=
  { x with state := st, ticks := 0, busRun := 0, zHold := x.zHold && st != 6 }

/-- The charge has ended in DONE; the TERM of a STOPPING already entered stays. -/
def ChgState.ended (x : ChgState) (term : Nat) : ChgState :=
  { x with term := if x.state = 7 then x.term else term, s6 := 0 }.entered 8

theorem Mach.chgEndDone_eq (term : Nat) : m.chgEndDone term = (m.onChg (·.ended term)).orr Reg.CHG_IRQ_STAT 1 := rfl

section
variable {m} {m₀ : Mach} {regs : List Nat} {es : List Event} (h : m₀.FocTells regs es m)
include h

theorem Mach.FocTells.chgEnter (hirq : Reg.CHG_IRQ_STAT ∈ regs) (st : Nat) : m₀.FocTells regs es (m.chgEnter st) :=
  (h.onChg _).orrChg hirq 1

theorem Mach.FocTells.chgStopping (hirq : Reg.CHG_IRQ_STAT ∈ regs) (term : Nat) : m₀.FocTells regs es (m.chgStopping term) :=
  (h.onChg _).chgEnter hirq 7

theorem Mach.FocTells.chgEndDone (hirq : Reg.CHG_IRQ_STAT ∈ regs) (term : Nat) : m₀.FocTells regs es (m.chgEndDone term) :=
  (h.onChg _).chgEnter hirq 8

theorem Mach.FocTells.chgReference : m₀.FocTells regs es m.chgReference :=
  ⟨h.now, h.cyc, h.tick, h.stamp, h.rd, h.raised⟩

/-- An F3 event for both slots while nothing waits for accession. -/
theorem Mach.FocTells.chgF3 (hcfg : Reg.CHG_CFG ∉ regs) (hwait : m.lane.waiting = []) (code : Nat) (d : List Nat) :
    m₀.FocTells regs (es ++ [eventAt m₀ code 3 m₀.pfcSlot d 0, eventAt m₀ code 3 m₀.dabSlot d 0]) (m.chgF3 code d) := by
  obtain ⟨hpfc, hdab⟩ := h.chgSlots_eq hcfg
  have hnone := Mach.FewWait.of_nil hwait 0
  rw [Mach.chgF3, hpfc, hdab, List.append_cons]
  exact .raiseF3 (hnone.raiseF3 (by decide) ..) (by decide) _ _ _ (.raiseF3 hnone (by decide) _ _ _ h)
end

section
variable {m} (hwait : m.lane.waiting = []) (code : Nat) (d : List Nat)
include hwait

/-- The causes of an F3 event for both slots are what waits, where nothing waited. -/
theorem Mach.chgF3_eq : m.chgF3 code d =
    ((((m.raise code 3 m.pfcSlot d).wait (m.entryOf m.accTickNow ⟨10, m.pfcSlot, 0, 0, code, []⟩)).raise code 3 m.dabSlot d).wait
      (m.entryOf m.accTickNow ⟨10, m.dabSlot, 0, 0, code, []⟩)) := by
  have hnone := Mach.FewWait.of_nil hwait 0
  rw [Mach.chgF3, (hnone.raiseF3 (by decide) ..).raiseF3_eq (by decide), hnone.raiseF3_eq (by decide)]
  rfl

theorem Mach.chgF3_chg : (m.chgF3 code d).chg = m.chg := by rw [Mach.chgF3_eq hwait]; rfl

theorem Mach.chgF3_waiting_length : (m.chgF3 code d).lane.waiting.length = 2 := by
  rw [Mach.chgF3_eq hwait, Mach.wait_lane, (insertEntry_perm ..).length_eq, Mach.raise_lane, Mach.wait_lane, Mach.raise_lane, hwait]
  rfl
end

/-- What a command leaves that ends the charge with an F3 event for both slots. -/
theorem run_chgFaulted {s : State} {cyc : Nat} {f : Mach → Mach} {term code : Nat} {d : List Nat} (hroom : s.roomy)
    (hf : f (s.at cyc) = (((s.at cyc).chgEndDone term).chgF3 code d).orr Reg.CHG_IRQ_STAT 0x80) :
    ∃ t, run s cyc f = .next t ∧ t.m.chg = s.m.chg.ended term ∧ t.m.bit Reg.CHG_IRQ_STAT 7 = true ∧ t.m.lane.waiting.length = 2 ∧
      Raises s t [eventAt (s.at cyc) code 3 s.m.pfcSlot d 0, eventAt (s.at cyc) code 3 s.m.dabSlot d 0] ∧
      SameRegsBut s t [Reg.CHG_IRQ_STAT] ∧ SameMemory s t := by
  have hwait : ((s.at cyc).chgEndDone term).lane.waiting = [] := hroom
  have htold := (((Mach.FocTells.refl (s.at cyc) [Reg.CHG_IRQ_STAT]).chgEndDone (by decide) term).chgF3 (by decide) hwait code d).orrChg
    (by decide) 0x80
  obtain ⟨t, ht, hm, hregs, hmem, hev⟩ := run_tells (s := s) (cyc := cyc) (f := f) (by rw [hf]; exact htold)
  rw [hf] at hm
  refine ⟨t, ht, ?_, ?_, ?_, hev, hregs, hmem⟩
  · rw [hm, Mach.settle_chg, Mach.orr_chg, Mach.chgF3_chg hwait]
    rfl
  · rw [hm, Mach.settle_bit]
    exact Mach.bit_orr (i := 7) _ (by decide)
  · rw [hm, Mach.settle_lane, Mach.orr_lane, Mach.chgF3_waiting_length hwait]

/-- What a command leaves that acts only on a charger whose slots the image has, and there finds nothing to do. -/
theorem run_chg_idle {s : State} {cyc : Nat} {f : Mach → Mach} (h : s.m.chgPresent = false ∨ f (s.at cyc) = s.at cyc) :
    ∃ t, run s cyc (fun m => if m.chgPresent then f m else m) = .next t ∧ t.m.chg = s.m.chg ∧ Quiet s t [] := by
  refine run_chg_kept ?_
  rcases h with h | h
  · exact if_neg (by rw [show (s.at cyc).chgPresent = false from h]; decide)
  · exact (congrArg (ite _ · _) h).trans (ite_self _)

/-- What a command leaves that acts only on a charger whose slots the image has, from what it tells there. -/
theorem run_chg_present {s : State} {cyc : Nat} {f : Mach → Mach} {m : Mach} {regs : List Nat} {es : List Event}
    (hpresent : s.m.chgPresent = true) (hf : f (s.at cyc) = m) (h : (s.at cyc).FocTells regs es m) :
    ∃ t, run s cyc (fun m => if m.chgPresent then f m else m) = .next t ∧ t.m = m.settle ∧
      SameRegsBut s t regs ∧ SameMemory s t ∧ Raises s t es := by
  have hacts : (if (s.at cyc).chgPresent then f (s.at cyc) else s.at cyc) = m := (if_pos hpresent).trans hf
  obtain ⟨t, ht, hm, hkept⟩ := run_tells (s := s) (cyc := cyc) (f := fun m => if m.chgPresent then f m else m)
    (by rw [hacts]; exact h)
  exact ⟨t, ht, hm.trans (congrArg Mach.settle hacts), hkept⟩

/-! ### The times of a start (R263) -/

/-- REQUEST, PRECHG or BUS has lasted its time. -/
abbrev Mach.requestOver : Prop := m.chg.state = 2 ∧ m.msTicks (1000 * m.fld Reg.CHG_SEQ 31 28) ≤ m.chg.ticks
abbrev Mach.prechgOver : Prop := m.chg.state = 3 ∧ m.msTicks (10 * m.fld Reg.CHG_SEQ 27 20) ≤ m.chg.ticks
abbrev Mach.busOver : Prop := m.chg.state = 4 ∧ m.msTicks 1000 ≤ m.chg.ticks

section
variable {m}

theorem Mach.chgTimeout_request (h : m.requestOver) : m.chgTimeout = m.chgEndDone 5 := if_pos h

theorem Mach.chgTimeout_faulted {st term : Nat} (hst : m.chg.state = st)
    (h : (st = 3 ∧ term = 8 ∧ m.msTicks (10 * m.fld Reg.CHG_SEQ 27 20) ≤ m.chg.ticks) ∨
      (st = 4 ∧ term = 6 ∧ m.msTicks 1000 ≤ m.chg.ticks)) :
    m.chgTimeout = ((m.chgEndDone term).chgF3 0x2808 [st]).orr Reg.CHG_IRQ_STAT 0x80 := by
  rcases h with ⟨rfl, rfl, hover⟩ | ⟨rfl, rfl, hover⟩
  · exact (if_neg fun ⟨hreq, _⟩ => by omega).trans (if_pos ⟨hst, hover⟩)
  · exact (if_neg fun ⟨hreq, _⟩ => by omega).trans ((if_neg fun ⟨hpre, _⟩ => by omega).trans (if_pos ⟨hst, hover⟩))

theorem Mach.chgTimeout_idle (hreq : ¬m.requestOver) (hpre : ¬m.prechgOver) (hbus : ¬m.busOver) : m.chgTimeout = m :=
  (if_neg hreq).trans ((if_neg hpre).trans (if_neg hbus))
end

section
variable {s : State} (hpresent : s.m.chgPresent = true) (cyc : Nat)
include hpresent

theorem exec_sequenceTimeout_request (h : s.m.requestOver) :
    ∃ t, exec (.sequenceTimeout cyc) s = .next t ∧ t.m.chg.state = 8 ∧ t.m.chg.term = 5 ∧ t.m.chg.s6 = 0 ∧
      t.m.rd Reg.CHG_IRQ_STAT = s.m.rd Reg.CHG_IRQ_STAT ||| 1#32 ∧ Quiet s t [Reg.CHG_IRQ_STAT] := by
  obtain ⟨t, ht, hchg, hirq, hquiet⟩ := run_onChg_orr (f := fun m => if m.chgPresent then m.chgTimeout else m)
    ((if_pos hpresent).trans ((Mach.chgTimeout_request (m := s.at cyc) h).trans (Mach.chgEndDone_eq _ 5)))
  obtain ⟨hst, -⟩ := h
  refine ⟨t, ht, by rw [hchg]; rfl, ?_, by rw [hchg]; rfl, hirq, hquiet⟩
  rw [hchg]
  exact if_neg (by rw [hst]; decide)

theorem exec_sequenceTimeout_faulted {st term : Nat} (hst : s.m.chg.state = st)
    (h : (st = 3 ∧ term = 8 ∧ s.m.msTicks (10 * s.m.fld Reg.CHG_SEQ 27 20) ≤ s.m.chg.ticks) ∨
      (st = 4 ∧ term = 6 ∧ s.m.msTicks 1000 ≤ s.m.chg.ticks)) (hroom : s.roomy) :
    ∃ t, exec (.sequenceTimeout cyc) s = .next t ∧ t.m.chg.state = 8 ∧ t.m.chg.term = term ∧ t.m.chg.s6 = 0 ∧
      Raises s t [eventAt (s.at cyc) 0x2808 3 s.m.pfcSlot [st] 0, eventAt (s.at cyc) 0x2808 3 s.m.dabSlot [st] 0] ∧
      t.m.lane.waiting.length = 2 ∧ t.m.bit Reg.CHG_IRQ_STAT 7 = true ∧ SameRegsBut s t [Reg.CHG_IRQ_STAT] ∧ SameMemory s t := by
  obtain ⟨t, ht, hchg, hirq, hwaiting, hev, hregs, hmem⟩ := run_chgFaulted
    (f := fun m => if m.chgPresent then m.chgTimeout else m) hroom
    ((if_pos hpresent).trans (Mach.chgTimeout_faulted (m := s.at cyc) hst h))
  refine ⟨t, ht, by rw [hchg]; rfl, ?_, by rw [hchg]; rfl, hev, hwaiting, hirq, hregs, hmem⟩
  rw [hchg]
  exact if_neg (by omega)

end

/-! ### The phases of a pulse (R254, R266) -/

/-- The lengths of ON and REST that CHG_PULSE gives. -/
def Mach.pulseOn : Nat := if (m.rd Reg.CHG_PULSE).bit 15 then
  m.msTicks ((m.rd Reg.CHG_PULSE).bits 31 16 - (m.rd Reg.CHG_PULSE).bits 10 0) else 0
def Mach.pulseRest : Nat := if (m.rd Reg.CHG_PULSE).bit 15 then m.msTicks ((m.rd Reg.CHG_PULSE).bits 10 0) else 0

section
variable {m}

/-- Only the first ON of a charge is told. -/
theorem Mach.chgOn_again (h : m.chg.firstOn = true) :
    m.chgOn = (m.onChg fun x => { x with onLen := m.pulseOn, restLen := m.pulseRest, firstOn := true }).chgEnter 5 :=
  if_neg (by rw [h]; decide)

theorem Mach.pulseEnd_rest (hst : m.chg.state = 5) (hrest : 0 < m.chg.restLen) (hon : m.chg.onLen ≤ m.chg.ticks) :
    m.pulseEnd = m.chgEnter 6 := if_pos ⟨hst, hrest, hon⟩

theorem Mach.pulseEnd_on (hst : m.chg.state = 6) (hrest : m.chg.restLen ≤ m.chg.ticks) : m.pulseEnd = m.chgOn :=
  (if_neg fun ⟨hon, _⟩ => by omega).trans (if_pos ⟨hst, hrest⟩)

theorem Mach.pulseEnd_idle (hon : ¬(m.chg.state = 5 ∧ 0 < m.chg.restLen ∧ m.chg.onLen ≤ m.chg.ticks))
    (hrest : ¬(m.chg.state = 6 ∧ m.chg.restLen ≤ m.chg.ticks)) : m.pulseEnd = m := (if_neg hon).trans (if_neg hrest)
end

/-- The phase that has lasted its time gives way to the other, which takes its S6. -/
def Mach.phaseEnd : Mach := if m.chgPresent && m.pulseEnd.chg.state != m.chg.state then m.pulseEnd.chgReference else m

theorem exec_pulsePhaseEnd (cyc : Nat) (s : State) : exec (.pulsePhaseEnd cyc) s = run s cyc Mach.phaseEnd := rfl

theorem exec_pulsePhaseEnd_idle {s : State} (cyc : Nat) (h : s.m.chgPresent = false ∨ (s.at cyc).pulseEnd = s.at cyc) :
    ∃ t, exec (.pulsePhaseEnd cyc) s = .next t ∧ t.m.chg = s.m.chg ∧ Quiet s t [] := by
  rw [exec_pulsePhaseEnd]
  refine run_chg_kept (if_neg ?_)
  rcases h with h | h
  · simp [show (s.at cyc).chgPresent = false from h]
  · simp [h]

section
variable {s : State} (hpresent : s.m.chgPresent = true) (cyc : Nat)
include hpresent

/-- What a phase leaves that begins: `m` is the machine in its new state. -/
theorem exec_pulsePhaseEnd_begins {m : Mach} (hpulse : (s.at cyc).pulseEnd = m) (hnew : m.chg.state ≠ s.m.chg.state)
    (htold : (s.at cyc).FocTells [Reg.CHG_IRQ_STAT] [] m) :
    ∃ t, exec (.pulsePhaseEnd cyc) s = .next t ∧ t.m = m.chgReference.settle ∧ Quiet s t [Reg.CHG_IRQ_STAT] := by
  rw [exec_pulsePhaseEnd]
  have hf : (s.at cyc).phaseEnd = m.chgReference := by
    rw [Mach.phaseEnd, hpulse, show (s.at cyc).chgPresent = true from hpresent, Bool.true_and]
    exact if_pos (bne_iff_ne.2 hnew)
  obtain ⟨t, ht, hm, hquiet⟩ := run_tells (s := s) (cyc := cyc) (f := Mach.phaseEnd) (by rw [hf]; exact htold.chgReference)
  exact ⟨t, ht, hm.trans (congrArg Mach.settle hf), hquiet⟩

theorem exec_pulsePhaseEnd_rest (hst : s.m.chg.state = 5) (hrest : 0 < s.m.chg.restLen) (hon : s.m.chg.onLen ≤ s.m.chg.ticks) :
    ∃ t, exec (.pulsePhaseEnd cyc) s = .next t ∧ t.m.chg.state = 6 ∧ t.m.chg.ticks = 0 ∧ t.m.chg.s6 = 0 ∧
      t.m.rd Reg.CHG_IRQ_STAT = s.m.rd Reg.CHG_IRQ_STAT ||| 1#32 ∧ Quiet s t [Reg.CHG_IRQ_STAT] := by
  have hnew : 6 ≠ s.m.chg.state := by omega
  obtain ⟨t, ht, hm, hquiet⟩ := exec_pulsePhaseEnd_begins hpresent cyc (Mach.pulseEnd_rest (m := s.at cyc) hst hrest hon) hnew
    ((Mach.FocTells.refl _ _).chgEnter (by decide) 6)
  refine ⟨t, ht, by rw [hm]; rfl, by rw [hm]; rfl, by rw [hm]; rfl, ?_, hquiet⟩
  rw [hm, Mach.settle_rd]
  exact (Mach.rd_orr ((s.at cyc).onChg (·.entered 6)) ..).trans (if_pos rfl)

theorem exec_pulsePhaseEnd_on (hst : s.m.chg.state = 6) (hrest : s.m.chg.restLen ≤ s.m.chg.ticks) (hfirst : s.m.chg.firstOn = true) :
    ∃ t, exec (.pulsePhaseEnd cyc) s = .next t ∧ t.m.chg.state = 5 ∧ t.m.chg.ticks = 0 ∧ t.m.chg.s6 = s.m.chg.ilim ∧
      (t.m.chg.onLen = s.m.pulseOn ∧ t.m.chg.restLen = s.m.pulseRest) ∧ Quiet s t [Reg.CHG_IRQ_STAT] := by
  have hnew : 5 ≠ s.m.chg.state := by omega
  obtain ⟨t, ht, hm, hquiet⟩ := exec_pulsePhaseEnd_begins hpresent cyc
    ((Mach.pulseEnd_on (m := s.at cyc) hst hrest).trans (Mach.chgOn_again hfirst)) hnew
    (((Mach.FocTells.refl _ _).onChg _).chgEnter (by decide) 5)
  exact ⟨t, ht, by rw [hm]; rfl, by rw [hm]; rfl, by rw [hm]; rfl, ⟨by rw [hm]; rfl, by rw [hm]; rfl⟩, hquiet⟩
end

/-! ### STOPPING, the safety timer and a grid fault (R256, R264, R272) -/

section
variable {m}

theorem Mach.stoppingEnd_due (hst : m.chg.state = 7) (hs6 : m.chg.s6 = 0) (hticks : 1 ≤ m.chg.ticks) :
    m.stoppingEnd = ((m.chgEnter 8).raise 0x2802 0 m.dabSlot [m.chg.term]).orr Reg.CHG_IRQ_STAT 2 :=
  if_pos ⟨hst, hs6, hticks⟩

theorem Mach.stoppingEnd_idle (h : m.chg.state ≠ 7 ∨ m.chg.s6 ≠ 0 ∨ m.chg.ticks = 0) : m.stoppingEnd = m := by
  refine if_neg fun hdue => ?_
  obtain ⟨hst, hs6, hticks⟩ := hdue
  rcases h with h | h | h
  · exact h hst
  · exact h hs6
  · exact absurd hticks (by rw [h]; decide)

theorem Mach.timerExpiry_idle (h : m.chg.expired = true ∨ m.chg.c < m.timerLimit) : m.timerExpiry = m :=
  if_pos (by simpa using h)

theorem Mach.gridFault_due (hlo : 4 ≤ m.chg.state) (hhi : m.chg.state ≤ 7)
    (hrun : 8 ≤ m.chg.vgRun ∨ 16 ≤ m.chg.lostRun ∨ 8 ≤ m.chg.freqRun) :
    m.gridFault = ((m.chgEndDone 8).chgF3 0x2807 []).orr Reg.CHG_IRQ_STAT 0x80 := if_pos ⟨hlo, hhi, hrun⟩

theorem Mach.gridFault_idle (h : m.chg.state < 4 ∨ 7 < m.chg.state ∨
    (m.chg.vgRun < 8 ∧ m.chg.lostRun < 16 ∧ m.chg.freqRun < 8)) : m.gridFault = m := if_neg (by omega)
end

/-- The safety timer has expired, and tells with which limits in force and for how long they were. -/
def Mach.timerTold : Mach :=
  (m.onChg fun x => { x with expired := true }).raise 0x2803 1 m.dabSlot
    ((m.chg.therm.toNat + 2 * m.chg.prio.toNat + 4 * m.chg.input.toNat) :: leBytes 4 (m.tickSeconds m.chg.thalf))

theorem Mach.timerExpiry_due {m : Mach} (hnew : m.chg.expired = false) (hlimit : m.timerLimit ≤ m.chg.c) :
    m.timerExpiry = if chgRunning m.chg.state then m.timerTold.chgStopping 2 else m.timerTold :=
  if_neg (by simp [hnew, hlimit])

section
variable {s : State} (hpresent : s.m.chgPresent = true) (cyc : Nat)
include hpresent

theorem exec_stoppingRampEnd_due (hst : s.m.chg.state = 7) (hs6 : s.m.chg.s6 = 0) (hticks : 1 ≤ s.m.chg.ticks) :
    ∃ t, exec (.stoppingRampEnd cyc) s = .next t ∧ t.m.chg.state = 8 ∧ t.m.chg.term = s.m.chg.term ∧
      Raises s t [eventAt (s.at cyc) 0x2802 0 s.m.dabSlot [s.m.chg.term] 0] ∧ t.m.bit Reg.CHG_IRQ_STAT 1 = true ∧
      SameRegsBut s t [Reg.CHG_IRQ_STAT] ∧ SameMemory s t := by
  obtain ⟨t, ht, hm, hregs, hmem, hev⟩ := run_chg_present (cyc := cyc) (f := Mach.stoppingEnd) hpresent
    (Mach.stoppingEnd_due (m := s.at cyc) hst hs6 hticks)
    ((((Mach.FocTells.refl _ [Reg.CHG_IRQ_STAT]).chgEnter (by decide) 8).raise ..).orrChg (by decide) 2)
  refine ⟨t, ht, by rw [hm]; rfl, by rw [hm]; rfl, hev, ?_, hregs, hmem⟩
  rw [hm, Mach.settle_bit]
  exact Mach.bit_orr (i := 1) _ (by decide)

theorem exec_safetyTimerExpiry_due (hnew : s.m.chg.expired = false) (hlimit : s.m.timerLimit ≤ s.m.chg.c) :
    ∃ t, exec (.safetyTimerExpiry cyc) s = .next t ∧ t.m.chg.expired = true ∧
      (chgRunning s.m.chg.state = true → t.m.chg.state = 7 ∧ t.m.chg.term = 2) ∧
      (chgRunning s.m.chg.state = false → t.m.chg = { s.m.chg with expired := true }) ∧
      Raises s t [eventAt (s.at cyc) 0x2803 1 s.m.dabSlot
        ((s.m.chg.therm.toNat + 2 * s.m.chg.prio.toNat + 4 * s.m.chg.input.toNat) :: leBytes 4 (s.m.tickSeconds s.m.chg.thalf)) 0] ∧
      SameRegsBut s t [Reg.CHG_IRQ_STAT] ∧ SameMemory s t := by
  have hdue := Mach.timerExpiry_due (m := s.at cyc) hnew hlimit
  have htold : (s.at cyc).FocTells [Reg.CHG_IRQ_STAT] [_] (s.at cyc).timerTold := ((Mach.FocTells.refl _ _).onChg _).raise ..
  cases hrun : chgRunning s.m.chg.state with
  | true =>
    obtain ⟨t, ht, hm, hregs, hmem, hev⟩ := run_chg_present (cyc := cyc) (f := Mach.timerExpiry) hpresent
      (hdue.trans (if_pos hrun)) (htold.chgStopping List.mem_cons_self 2)
    exact ⟨t, ht, by rw [hm]; rfl, fun _ => ⟨by rw [hm]; rfl, by rw [hm]; rfl⟩, nofun, hev, hregs, hmem⟩
  | false =>
    obtain ⟨t, ht, hm, hregs, hmem, hev⟩ := run_chg_present (cyc := cyc) (f := Mach.timerExpiry) hpresent
      (hdue.trans (if_neg (Bool.eq_false_iff.1 hrun))) htold
    exact ⟨t, ht, by rw [hm]; rfl, nofun, fun _ => by rw [hm]; rfl, hev, hregs, hmem⟩

theorem exec_gridFault_due (hlo : 4 ≤ s.m.chg.state) (hhi : s.m.chg.state ≤ 7)
    (hrun : 8 ≤ s.m.chg.vgRun ∨ 16 ≤ s.m.chg.lostRun ∨ 8 ≤ s.m.chg.freqRun) (hroom : s.roomy) :
    ∃ t, exec (.gridFault cyc) s = .next t ∧ t.m.chg.state = 8 ∧
      t.m.chg.term = (if s.m.chg.state = 7 then s.m.chg.term else 8) ∧ t.m.chg.s6 = 0 ∧
      t.m.bit Reg.CHG_IRQ_STAT 7 = true ∧ t.m.lane.waiting.length = 2 ∧
      Raises s t [eventAt (s.at cyc) 0x2807 3 s.m.pfcSlot [] 0, eventAt (s.at cyc) 0x2807 3 s.m.dabSlot [] 0] ∧
      SameRegsBut s t [Reg.CHG_IRQ_STAT] ∧ SameMemory s t := by
  obtain ⟨t, ht, hchg, hkept⟩ := run_chgFaulted (f := fun m => if m.chgPresent then m.gridFault else m) hroom
    ((if_pos hpresent).trans (Mach.gridFault_due (m := s.at cyc) hlo hhi hrun))
  exact ⟨t, ht, by rw [hchg]; rfl, by rw [hchg]; rfl, by rw [hchg]; rfl, hkept⟩
end

end Sys2Proof.Machine
end

section
/-! An impedance point whose measured ticks are all in (R268 to R270): its result, and the point that follows or the end of the sweep. -/

namespace Sys2Proof.Machine

variable (m : Mach)

/-! ### The plan (R268) -/

/-- The result of point `p` and the charger's status bits: what the end of the point writes. -/
abbrev zRegs (p : Nat) : List Nat := [Reg.CHG_Z_ZR p, Reg.CHG_Z_ZI p, Reg.CHG_IRQ_STAT]

theorem Mach.lt_of_zPoint {m : Mach} {p : Nat} {x : Nat × Nat × Nat} (h : m.zPoint p = some x) : p < 16 := by
  by_contra hp
  rw [Mach.zPoint, if_pos (not_lt.1 hp)] at h
  cases h

section
variable {p : Nat} (hp : p < 16)
include hp

theorem zRegs_not_mem_stampRegs : Reg.CHG_Z_ZR p ∉ stampRegs ∧ Reg.CHG_Z_ZI p ∉ stampRegs := by
  simp only [List.mem_cons, List.not_mem_nil, or_false, Reg.CHG_Z_ZR, Reg.CHG_Z_ZI, Reg.TICK_SEQ_LO, Reg.TICK_SEQ_HI,
    Reg.TICK_PERIOD, Reg.TICK_DEADLINE, Reg.LANE_STATUS]
  omega

omit hp in
theorem chgCfg_not_mem_zRegs : Reg.CHG_CFG ∉ zRegs p := by
  simp only [List.mem_cons, List.not_mem_nil, or_false, Reg.CHG_CFG, Reg.CHG_Z_ZR, Reg.CHG_Z_ZI, Reg.CHG_IRQ_STAT]
  omega

theorem chgPlan_not_mem_zRegs {q : Nat} (hq : q < 16) : Reg.CHG_PLAN q ∉ zRegs p := by
  simp only [List.mem_cons, List.not_mem_nil, or_false, Reg.CHG_PLAN, Reg.CHG_Z_ZR, Reg.CHG_Z_ZI, Reg.CHG_IRQ_STAT]
  omega
end

/-- The two parts of a result and the status bits are three registers. -/
theorem zRegs_distinct (p : Nat) : Reg.CHG_Z_ZR p ≠ Reg.CHG_IRQ_STAT ∧ Reg.CHG_Z_ZI p ≠ Reg.CHG_IRQ_STAT ∧
    Reg.CHG_Z_ZR p ≠ Reg.CHG_Z_ZI p := by
  simp only [Reg.CHG_Z_ZR, Reg.CHG_Z_ZI, Reg.CHG_IRQ_STAT]
  omega

/-- What writes neither plan nor configuration leaves the plan's points. -/
theorem Mach.FocTells.zPoint_eq {m₀ m : Mach} {regs : List Nat} {es : List Event} (h : m₀.FocTells regs es m)
    (hplan : ∀ q < 16, Reg.CHG_PLAN q ∉ regs) (p : Nat) : m.zPoint p = m₀.zPoint p := by
  unfold Mach.zPoint
  split
  next => rfl
  next hp => rw [h.rd _ (hplan p (not_le.1 hp))]

/-! ### The point that follows (R268) -/

/-- The sweep has ended; with `rep` the plan starts again at the next rest. -/
def ChgState.sweepEnded (x : ChgState) (rep : Bool) : ChgState :=
  { x with zNext := if rep then 0 else x.zNext + 1, zDone := !rep, zHold := rep, sweeps := min 255 (x.sweeps + 1) }

section
variable {m}

theorem Mach.zAdvance_next (h : (m.zPoint (m.chg.zNext + 1)).isSome = true) :
    m.zAdvance = m.onChg fun x => { x with zNext := x.zNext + 1 } := by
  obtain ⟨y, hy⟩ := Option.isSome_iff_exists.1 h
  unfold Mach.zAdvance
  dsimp only
  rw [show (m.onChg fun x => { x with zNext := m.chg.zNext + 1 }).zPoint (m.chg.zNext + 1) = some y from hy]
  rfl

theorem Mach.zAdvance_last (h : (m.zPoint (m.chg.zNext + 1)).isSome = false) :
    m.zAdvance = ((m.onChg (·.sweepEnded (m.bit Reg.CHG_CFG 21))).raise 0x280D 0 m.dabSlot []).orr Reg.CHG_IRQ_STAT 0x20 := by
  unfold Mach.zAdvance
  dsimp only
  rw [show (m.onChg fun x => { x with zNext := m.chg.zNext + 1 }).zPoint (m.chg.zNext + 1) = none from
    Option.isSome_eq_false_iff.1 h |> Option.isNone_iff_eq_none.1]
  rfl

theorem Mach.zAdvance_chg : m.zAdvance.chg =
    if (m.zPoint (m.chg.zNext + 1)).isSome then { m.chg with zNext := m.chg.zNext + 1 } else m.chg.sweepEnded (m.bit Reg.CHG_CFG 21) := by
  cases h : (m.zPoint (m.chg.zNext + 1)).isSome with
  | true => rw [Mach.zAdvance_next h]; rfl
  | false => rw [Mach.zAdvance_last h]; rfl

theorem Mach.zAdvance_kept : m.zAdvance.chg.zRun = m.chg.zRun ∧ m.zAdvance.chg.zCommand = m.chg.zCommand ∧
    m.zAdvance.chg.valid = m.chg.valid := by
  rw [Mach.zAdvance_chg]
  split <;> exact ⟨rfl, rfl, rfl⟩

theorem Mach.zAdvance_rd_other {b : Nat} (hb : b ≠ Reg.CHG_IRQ_STAT) : m.zAdvance.rd b = m.rd b := by
  cases h : (m.zPoint (m.chg.zNext + 1)).isSome with
  | true => rw [Mach.zAdvance_next h]; rfl
  | false => rw [Mach.zAdvance_last h, Mach.rd_orr, if_neg hb]; rfl

/-- Only the end of a sweep is told. -/
theorem Mach.FocTells.zAdvance {m₀ : Mach} {regs : List Nat} {es : List Event} (h : m₀.FocTells regs es m)
    (hirq : Reg.CHG_IRQ_STAT ∈ regs) (hcfg : Reg.CHG_CFG ∉ regs) :
    m₀.FocTells regs (if (m.zPoint (m.chg.zNext + 1)).isSome then es else es ++ [eventAt m₀ 0x280D 0 m₀.dabSlot [] 0]) m.zAdvance := by
  obtain ⟨-, hdab⟩ := h.chgSlots_eq hcfg
  cases hnext : (m.zPoint (m.chg.zNext + 1)).isSome with
  | true =>
    rw [Mach.zAdvance_next hnext]
    exact h.onChg _
  | false =>
    rw [Mach.zAdvance_last hnext, hdab]
    exact ((h.onChg _).raise ..).orrChg hirq 0x20
end

/-! ### The result of a point (R269, R270) -/

/-- Some current was measured in `n` ticks, and its amplitude reaches that of CHG_IMP. -/
def Mach.zValid (n : Nat) : Bool :=
  let den := m.chg.sii * m.chg.sii + m.chg.siq * m.chg.siq
  decide (den ≠ 0) && decide (m.fld Reg.CHG_IMP 15 0 * 2 ^ 15 ≤ 2 * isqrtBits 70 den.toNat 0 / n)

/-- The quotient of R270 for the numerator `num`. -/
def Mach.zPart (num : Int) : Int :=
  let den := m.chg.sii * m.chg.sii + m.chg.siq * m.chg.siq
  if den = 0 then 0 else sat32 (tdiv (num * (m.rd Reg.CHG_ZBU).toNat) den)

/-- The registers of point `p` hold its result. -/
def Mach.zWritten (p : Nat) : Mach :=
  (m.wrS (Reg.CHG_Z_ZR p) (m.zPart (m.chg.svi * m.chg.sii + m.chg.svq * m.chg.siq))).wrS (Reg.CHG_Z_ZI p)
    (m.zPart (m.chg.svq * m.chg.sii - m.chg.svi * m.chg.siq))

/-- The point that ran, over `n` measured ticks, has its result and runs no longer. -/
def Mach.zMeasured (n : Nat) : Mach :=
  ((m.zWritten m.chg.zNext).zResult m.chg.zNext (m.zValid n)).onChg fun x => { x with zRun := none, zCommand := .stop }

section
variable {m}

theorem Mach.zEnd_due {tp nset ncyc t : Nat} (hrun : m.chg.zRun = some t) (hpoint : m.zPoint m.chg.zNext = some (tp, nset, ncyc))
    (hin : (nset + ncyc) * tp + 1 ≤ t) : m.zEnd = (m.zMeasured (ncyc * tp)).zAdvance := by
  unfold Mach.zEnd
  rw [hrun, hpoint]
  exact if_pos hin

theorem Mach.zEnd_idle (h : m.chg.zRun = none ∨ m.zPoint m.chg.zNext = none ∨ (∃ t tp nset ncyc, m.chg.zRun = some t ∧
    m.zPoint m.chg.zNext = some (tp, nset, ncyc) ∧ t < (nset + ncyc) * tp + 1)) : m.zEnd = m := by
  unfold Mach.zEnd
  split
  next t tp nset ncyc hrun hpoint =>
    rcases h with h | h | ⟨t', tp', nset', ncyc', hrun', hpoint', hshort⟩
    · cases hrun.symm.trans h
    · cases hpoint.symm.trans h
    · cases hrun.symm.trans hrun'
      cases hpoint.symm.trans hpoint'
      exact if_neg (Nat.not_le.2 hshort)
  next => rfl

/-- A point ends with its two quotients in its own registers. -/
theorem Mach.zMeasured_rd (n : Nat) :
    (m.zMeasured n).rd (Reg.CHG_Z_ZR m.chg.zNext) = wordOf (m.zPart (m.chg.svi * m.chg.sii + m.chg.svq * m.chg.siq)) ∧
    (m.zMeasured n).rd (Reg.CHG_Z_ZI m.chg.zNext) = wordOf (m.zPart (m.chg.svq * m.chg.sii - m.chg.svi * m.chg.siq)) := by
  have hrd (b : Nat) (hb : b ≠ Reg.CHG_IRQ_STAT) : (m.zMeasured n).rd b = (m.zWritten m.chg.zNext).rd b :=
    (Mach.rd_orr _ _ _ _).trans (if_neg hb)
  obtain ⟨hre, him, hne⟩ := zRegs_distinct m.chg.zNext
  refine ⟨(hrd _ hre).trans ?_, (hrd _ him).trans ?_⟩
  · rw [Mach.zWritten, Mach.rd_wrS, if_neg hne, Mach.rd_wrS, if_pos rfl]
  · rw [Mach.zWritten, Mach.rd_wrS, if_pos rfl]

/-- VALID of a point that ends. -/
theorem testBit_valid (valid : Nat) {p : Nat} (hp : p < 16) (ok : Bool) :
    (if ok then valid ||| 2 ^ p else valid &&& (0xFFFF ^^^ 2 ^ p)).testBit p = ok := by
  cases ok with
  | true => rw [if_pos rfl, Nat.testBit_or, Nat.testBit_two_pow_self, Bool.or_true]
  | false =>
    have hmask : Nat.testBit 0xFFFF p = true := by interval_cases p <;> rfl
    rw [if_neg (by decide), Nat.testBit_and, Nat.testBit_xor, hmask, Nat.testBit_two_pow_self, Bool.xor_self, Bool.and_false]

theorem Mach.zMeasured_valid (hp : m.chg.zNext < 16) (n : Nat) :
    (m.zMeasured n).chg.valid.testBit m.chg.zNext = m.zValid n := testBit_valid m.chg.valid hp (m.zValid n)

theorem Mach.focTells_zMeasured (hp : m.chg.zNext < 16) (n : Nat) :
    m.FocTells (zRegs m.chg.zNext) [eventAt m 0x280C 0 m.dabSlot [m.chg.zNext, (m.zValid n).toNat] 0] (m.zMeasured n) := by
  obtain ⟨hre, him⟩ := zRegs_not_mem_stampRegs hp
  have hwritten : m.FocTells (zRegs m.chg.zNext) [] (m.zWritten m.chg.zNext) :=
    ((Mach.FocTells.refl m _).wr (by simp) hre _).wr (by simp) him _
  obtain ⟨-, hdab⟩ := hwritten.chgSlots_eq chgCfg_not_mem_zRegs
  rw [← hdab]
  exact (((hwritten.onChg _).raise ..).orrChg (by simp) 0x10).onChg _
end

/-! ### The obligation -/

theorem exec_impedancePointEnd_due {s : State} {p tp nset ncyc t0 : Nat} (cyc : Nat) (hpresent : s.m.chgPresent = true)
    (hnext : s.m.chg.zNext = p) (hrun : s.m.chg.zRun = some t0) (hpoint : s.m.zPoint p = some (tp, nset, ncyc))
    (hin : (nset + ncyc) * tp + 1 ≤ t0) :
    ∃ t, exec (.impedancePointEnd cyc) s = .next t ∧ t.m.chg.zRun = none ∧ t.m.chg.zCommand = .stop ∧
       t.m.rd (Reg.CHG_Z_ZR p) = zQuotient s (s.m.chg.svi * s.m.chg.sii + s.m.chg.svq * s.m.chg.siq) ∧
       t.m.rd (Reg.CHG_Z_ZI p) = zQuotient s (s.m.chg.svq * s.m.chg.sii - s.m.chg.svi * s.m.chg.siq) ∧
       t.m.chg.valid.testBit p = s.m.zValid (ncyc * tp) ∧ SameRegsBut s t (zRegs p) ∧ SameMemory s t ∧
       ((s.m.zPoint (p + 1)).isSome = true → t.m.chg.zNext = p + 1 ∧
         Raises s t [eventAt (s.at cyc) 0x280C 0 s.m.dabSlot [p, (s.m.zValid (ncyc * tp)).toNat] 0]) ∧
       ((s.m.zPoint (p + 1)).isSome = false → t.m.chg.zNext = (if s.m.bit Reg.CHG_CFG 21 then 0 else p + 1) ∧
         t.m.chg.zDone = !s.m.bit Reg.CHG_CFG 21 ∧ t.m.chg.sweeps = min 255 (s.m.chg.sweeps + 1) ∧
         Raises s t [eventAt (s.at cyc) 0x280C 0 s.m.dabSlot [p, (s.m.zValid (ncyc * tp)).toNat] 0,
           eventAt (s.at cyc) 0x280D 0 s.m.dabSlot [] 0]) := by
  subst hnext
  have hp : s.m.chg.zNext < 16 := Mach.lt_of_zPoint hpoint
  set m := (s.at cyc).zMeasured (ncyc * tp) with hm₀
  have hmeasured : (s.at cyc).FocTells (zRegs s.m.chg.zNext) _ m := Mach.focTells_zMeasured (m := s.at cyc) hp (ncyc * tp)
  have hplan : m.zPoint (m.chg.zNext + 1) = s.m.zPoint (s.m.chg.zNext + 1) :=
    hmeasured.zPoint_eq (fun q hq => chgPlan_not_mem_zRegs hp hq) _
  have hrep : m.bit Reg.CHG_CFG 21 = s.m.bit Reg.CHG_CFG 21 := congrArg (Word.bit · 21) (hmeasured.rd _ chgCfg_not_mem_zRegs)
  obtain ⟨t, ht, hm, hregs, hmem, hev⟩ := run_chg_present (cyc := cyc) (f := Mach.zEnd) hpresent
    (Mach.zEnd_due (m := s.at cyc) hrun hpoint hin) (hmeasured.zAdvance (by simp) chgCfg_not_mem_zRegs)
  have hchg : t.m.chg = m.zAdvance.chg := by rw [hm]; rfl
  obtain ⟨hrun', hcommand, hvalid⟩ := m.zAdvance_kept
  obtain ⟨hre, him, -⟩ := zRegs_distinct s.m.chg.zNext
  obtain ⟨hzr, hzi⟩ := Mach.zMeasured_rd (m := s.at cyc) (ncyc * tp)
  refine ⟨t, ht, by rw [hchg, hrun']; rfl, by rw [hchg, hcommand]; rfl, ?_, ?_, ?_, hregs, hmem, fun hnext => ?_, fun hlast => ?_⟩
  · rw [hm, Mach.settle_rd, Mach.zAdvance_rd_other hre]
    exact hzr
  · rw [hm, Mach.settle_rd, Mach.zAdvance_rd_other him]
    exact hzi
  · rw [hchg, hvalid]
    exact Mach.zMeasured_valid (m := s.at cyc) hp (ncyc * tp)
  · rw [hplan, if_pos hnext] at hev
    rw [hchg, Mach.zAdvance_chg, hplan, if_pos hnext]
    exact ⟨rfl, hev⟩
  · rw [hplan, hlast] at hev
    rw [hchg, Mach.zAdvance_chg, hplan, hlast, hrep]
    exact ⟨rfl, rfl, rfl, hev⟩

/-- Settles O32: each end by its condition, met and not met; the F3 events by what both slots tell, and a point by its result and by
whether the plan has another. -/
theorem chargeMachineAndImpedance : Obligations.ChargeMachineAndImpedance := by
  refine ⟨fun cyc s hpresent hst hover => exec_sequenceTimeout_request hpresent cyc ⟨hst, hover⟩,
    fun cyc st term s hpresent hst h hroom => exec_sequenceTimeout_faulted hpresent cyc hst h hroom, fun cyc s h => ?_,
    fun cyc s hpresent hst hrest hon => exec_pulsePhaseEnd_rest hpresent cyc hst hrest hon,
    fun cyc s hpresent hst hrest hfirst => exec_pulsePhaseEnd_on hpresent cyc hst hrest hfirst, fun cyc s h => ?_,
    fun cyc s hpresent hst hs6 hticks => exec_stoppingRampEnd_due hpresent cyc hst hs6 hticks, fun cyc s h => ?_,
    fun cyc s hpresent hnew hlimit => exec_safetyTimerExpiry_due hpresent cyc hnew hlimit, fun cyc s h => ?_,
    fun cyc s hpresent hlo hhi hrun hroom => exec_gridFault_due hpresent cyc hlo hhi hrun hroom, fun cyc s h => ?_,
    fun cyc s p tp nset ncyc t0 hpresent hnext hrun hpoint hin => exec_impedancePointEnd_due cyc hpresent hnext hrun hpoint hin,
    fun cyc s h => ?_⟩
  · exact run_chg_idle (f := Mach.chgTimeout)
      (h.imp_right fun ⟨hreq, hpre, hbus⟩ => Mach.chgTimeout_idle (m := s.at cyc) hreq hpre hbus)
  · exact exec_pulsePhaseEnd_idle cyc (h.imp_right fun ⟨hon, hrest⟩ => Mach.pulseEnd_idle (m := s.at cyc) hon hrest)
  · exact run_chg_idle (f := Mach.stoppingEnd) (h.imp_right (Mach.stoppingEnd_idle (m := s.at cyc)))
  · exact run_chg_idle (f := Mach.timerExpiry) (h.imp_right (Mach.timerExpiry_idle (m := s.at cyc)))
  · exact run_chg_idle (f := Mach.gridFault) (h.imp_right (Mach.gridFault_idle (m := s.at cyc)))
  · exact run_chg_idle (f := Mach.zEnd) (h.imp_right (Mach.zEnd_idle (m := s.at cyc)))

end Sys2Proof.Machine
end

section
/-! What the operations of the actuators leave (R289 to R292): a drive changed, its start asked for or withdrawn, and a pump that enters
RETRY. -/

namespace Sys2Proof.Machine

variable (m : Mach)

/-! ### What a command of the actuators tells -/

section
variable {m} {m' : Mach} {regs : List Nat} {es : List Event} (h : m.FocTells regs es m')
include h

/-- A change of a drive tells nothing. -/
theorem Mach.FocTells.onDrv (d : Nat) (f : ActDrive → ActDrive) : m.FocTells regs es (m'.onDrv d f) :=
  ⟨h.now, h.cyc, h.tick, h.stamp, h.rd, h.raised⟩

/-- A change of the supplies and their starts tells nothing. -/
theorem Mach.FocTells.onPwr (f : PwrState → PwrState) : m.FocTells regs es (m'.onPwr f) :=
  ⟨h.now, h.cyc, h.tick, h.stamp, h.rd, h.raised⟩

/-- Status bits of a register that no stamp depends on. -/
theorem Mach.FocTells.orr_of_not_stamp {a : Nat} (ha : a ∈ regs) (hs : a ∉ stampRegs) (k : Nat) : m.FocTells regs es (m'.orr a k) :=
  ⟨h.now, h.cyc, h.tick, (h.wr ha hs _).stamp, (h.wr ha hs _).rd, h.raised⟩

theorem Mach.FocTells.mono {regs' : List Nat} (hsub : regs ⊆ regs') : m.FocTells regs' es m' :=
  ⟨h.now, h.cyc, h.tick, h.stamp, fun b hb => h.rd b (hb <| hsub ·), h.raised⟩

theorem Mach.FocTells.seq_eq : m'.seq = m.seq := by
  simp only [Mach.seq, Mach.rd64, h.stamp Reg.TICK_SEQ_LO (by decide), h.stamp Reg.TICK_SEQ_HI (by decide)]

theorem Mach.FocTells.msTicks_eq (ms : Nat) : m'.msTicks ms = m.msTicks ms := by
  simp only [Mach.msTicks, Mach.period, Mach.fld, h.stamp Reg.TICK_PERIOD (by decide)]
end

theorem actDrvCfg_ne_actIrqStat (d : Nat) : Reg.ACT_DRV_CFG d ≠ Reg.ACT_IRQ_STAT := by
  dsimp only [Reg.ACT_DRV_CFG, Reg.ACT_IRQ_STAT]
  omega

theorem Mach.FewWait.raiseF3_act {m : Mach} {n : Nat} (h : m.FewWait n) (hn : n < 32) (code slot : Nat) (d : List Nat) :
    (m.raiseF3 code slot d).act = m.act := by rw [h.raiseF3_eq hn]; rfl

theorem Mach.bit_orr_of_bit {a b i : Nat} (k : Nat) (h : m.bit b i = true) : (m.orr a k).bit b i = true := by
  rw [Mach.bit, Mach.rd_orr]
  split
  case isTrue hba => rw [Word.bit_or, ← hba, show Word.bit (m.rd b) i = true from h, Bool.true_or]
  case isFalse => exact h

/-! ### How a command of the actuators ends -/

section
variable {s : State} {cyc : Nat} {f : Mach → Mach}

/-- What a command leaves that makes `m` of the machine, from what `m` tells. -/
theorem run_makes {m : Mach} {regs : List Nat} {es : List Event} (hf : f (s.at cyc) = m) (h : (s.at cyc).FocTells regs es m) :
    ∃ t, run s cyc f = .next t ∧ t.m = m.settle ∧ SameRegsBut s t regs ∧ SameMemory s t ∧ Raises s t es := by
  subst hf
  exact run_tells h

/-- What a command leaves that changes one drive and no more. -/
theorem run_onDrv {d : Nat} {g : ActDrive → ActDrive} (hf : f (s.at cyc) = (s.at cyc).onDrv d g) :
    ∃ t, run s cyc f = .next t ∧ t.m.act.drives = upd s.m.act.drives d g ∧ t.m.pwr = s.m.pwr ∧ Quiet s t [] := by
  obtain ⟨t, ht, hm, hquiet⟩ := run_makes hf ((Mach.FocTells.refl _ []).onDrv d g)
  exact ⟨t, ht, by rw [hm]; rfl, by rw [hm]; rfl, hquiet⟩

/-- A command that finds nothing to do leaves the actuators. -/
theorem run_act_kept (hf : f (s.at cyc) = s.at cyc) : ∃ t, run s cyc f = .next t ∧ t.m.act = s.m.act ∧ Quiet s t [] := by
  obtain ⟨t, ht, hm, hquiet⟩ := run_makes hf (.refl _ [])
  exact ⟨t, ht, by rw [hm]; rfl, hquiet⟩

/-- What a command leaves that acts only on a drive with a role, and there finds nothing to do. -/
theorem run_drive_idle {d : Nat} (h : s.m.drvRole d = 0 ∨ f (s.at cyc) = s.at cyc) :
    ∃ t, run s cyc (fun m => if m.drvRole d = 0 then m else f m) = .next t ∧ t.m.act = s.m.act ∧ Quiet s t [] :=
  run_act_kept (h.elim (fun hrole => if_pos hrole) fun hstays => (congrArg (ite _ _) hstays).trans (ite_self _))
end

/-- What a command leaves whose end is an F3 event of slot `k` and the actuators' status bits `v`: `m` is the machine that the event
finds. -/
theorem run_actFault {s : State} {cyc : Nat} {f : Mach → Mach} {m : Mach} {regs : List Nat} {es : List Event} {code k v : Nat}
    (hf : f (s.at cyc) = (m.raiseF3 code k).orr Reg.ACT_IRQ_STAT v) (h : (s.at cyc).FocTells regs es m)
    (hirq : Reg.ACT_IRQ_STAT ∈ regs) (hwait : m.lane.waiting = []) :
    ∃ t, run s cyc f = .next t ∧ t.m.act = m.act ∧
      (∀ i, t.m.bit Reg.ACT_IRQ_STAT i = (m.orr Reg.ACT_IRQ_STAT v).bit Reg.ACT_IRQ_STAT i) ∧
      Raises s t (es ++ [eventAt (s.at cyc) code 3 k [] 0]) ∧ Enters s t cyc ⟨10, k, 0, 0, code, []⟩ ∧
      SameRegsBut s t regs ∧ SameMemory s t := by
  have hnone := Mach.FewWait.of_nil hwait 0
  obtain ⟨t, ht, hm, hregs, hmem, hev⟩ := run_makes hf
    ((Mach.FocTells.raiseF3 hnone (by decide) code k [] h).orr_of_not_stamp hirq (by decide) v)
  refine ⟨t, ht, ?_, fun i => ?_, hev, ?_, hregs, hmem⟩
  · rw [hm, Mach.settle_act, Mach.orr_act, hnone.raiseF3_act (by decide)]
  · rw [hm, Mach.settle_bit, Mach.bit, Mach.rd_orr, hnone.raiseF3_rd (by decide), Mach.bit, Mach.rd_orr]
  · rw [Enters, hm, Mach.settle_lane, Mach.orr_lane, h.raiseF3_waiting hwait]

/-! ### Starts (R480, R481) -/

/-- The supplies with a start of drive `d` asked for, at the latest in tick `n`. -/
def PwrState.startAsked (p : PwrState) (d n : Nat) : PwrState :=
  if p.starts.any (·.drive == d) then p else { p with starts := p.starts ++ [⟨d, n, false⟩] }

theorem PwrState.startAsked_any (p : PwrState) (d n : Nat) : ((p.startAsked d n).starts.any (·.drive == d)) = true := by
  rw [PwrState.startAsked]
  split
  case isTrue h => exact h
  case isFalse => simp

theorem Mach.onPwr_startAsked (d n : Nat) : m.onPwr (·.startAsked d n) =
    if m.pwr.starts.any (·.drive == d) then m else m.onPwr fun p => { p with starts := p.starts ++ [⟨d, n, false⟩] } := by
  by_cases h : m.pwr.starts.any (·.drive == d) = true
  · rw [if_pos h, Mach.onPwr, PwrState.startAsked, if_pos h]
  · rw [if_neg h, Mach.onPwr, PwrState.startAsked, if_neg h, Mach.onPwr]

theorem Mach.requestStart_eq (d n : Nat) :
    m.requestStart d n = (m.onDrv d fun x => { x with granted := false }).onPwr (·.startAsked d n) :=
  (Mach.onPwr_startAsked _ d n).symm

/-! ### RETRY (R292) -/

/-- The entries into RETRY with less than 10 s of RUN since. -/
def Mach.recentRetries (d : Nat) : List Nat :=
  (m.drv d).retries.filter fun t => decide ((m.drv d).runTicks < t + m.msTicks 10000)

/-- A pump that enters RETRY now, or FAULT at the third entry. -/
def Mach.retried (d : Nat) (x : ActDrive) : ActDrive :=
  { x with
    retries := if 2 ≤ (m.recentRetries d).length then [] else (m.drv d).runTicks :: m.recentRetries d
    retryAt := m.seq, granted := false, pstate := if 2 ≤ (m.recentRetries d).length then 3 else 2 }

/-- The pump's start withdrawn and its state entered. -/
def Mach.toRetry (d : Nat) : Mach := (m.withdrawStart d).onDrv d (m.retried d)

theorem Mach.pumpRetry_eq (d : Nat) :
    m.pumpRetry d = if 2 ≤ (m.recentRetries d).length then
      ((m.toRetry d).raiseF3 0x2C04 (m.drvSlot d)).orr Reg.ACT_IRQ_STAT 8 else m.toRetry d := by
  have hthird : decide (3 ≤ (m.recentRetries d).length + 1) = decide (2 ≤ (m.recentRetries d).length) :=
    decide_eq_decide.2 Nat.succ_le_succ_iff
  rw [Mach.recentRetries] at hthird
  simp only [Mach.pumpRetry, Mach.toRetry, List.length_cons, hthird, decide_eq_true_eq]
  unfold Mach.retried Mach.recentRetries
  split
  case isTrue =>
    simp only [Mach.onDrv, Mach.onAct, upd_upd]
    rfl
  case isFalse => rfl

/-- An entry into RETRY is the same of two machines of one tick whose drive counts the same. -/
theorem Mach.FocTells.retried_eq {m m' : Mach} {regs : List Nat} {es : List Event} (h : m.FocTells regs es m') {d : Nat}
    (hretries : (m'.drv d).retries = (m.drv d).retries) (hticks : (m'.drv d).runTicks = (m.drv d).runTicks) :
    m'.recentRetries d = m.recentRetries d ∧ m'.retried d = m.retried d := by
  have hrecent : m'.recentRetries d = m.recentRetries d := by
    rw [Mach.recentRetries, hretries, hticks, h.msTicks_eq, Mach.recentRetries]
  refine ⟨hrecent, ?_⟩
  unfold Mach.retried
  rw [hrecent, hticks, h.seq_eq]

theorem Mach.drv_of_drives {m m' : Mach} {d : Nat} {g : ActDrive → ActDrive} (h : m'.act.drives = upd m.act.drives d g) (e : Nat) :
    m'.drv e = if e = d ∧ d < m.act.drives.length then g (m.drv d) else m.drv e := by
  rw [Mach.drv, h]
  exact nth_upd ..

theorem retriesOf_of_drives {s t : State} {d : Nat} {g : ActDrive → ActDrive}
    (h : t.m.act.drives = upd s.m.act.drives d (s.m.retried d ∘ g)) : RetriesOf s t d (s.m.recentRetries d).length := by
  refine ⟨rfl, fun hd => ?_, fun e he => ?_⟩
  · rw [Mach.drv_of_drives h, if_pos ⟨rfl, hd⟩]
    exact ⟨rfl, rfl, rfl⟩
  · rw [Mach.drv_of_drives h, if_neg fun ⟨hed, _⟩ => he hed]

/-- What a command leaves whose end is a pump's entry into RETRY: `m` is the machine that enters it, in which `g` has changed the
drive. -/
theorem run_pumpRetry {s : State} {cyc d : Nat} {f : Mach → Mach} {m : Mach} {regs : List Nat} {es : List Event}
    {g : ActDrive → ActDrive} (hf : f (s.at cyc) = m.pumpRetry d) (h : (s.at cyc).FocTells regs es m)
    (hregs : regs ⊆ [Reg.ACT_IRQ_STAT]) (hwait : m.lane.waiting = []) (hdrives : m.act.drives = upd s.m.act.drives d g)
    (hg : ∀ x, (g x).retries = x.retries ∧ (g x).runTicks = x.runTicks) :
    ∃ t, run s cyc f = .next t ∧ t.m.act.drives = upd s.m.act.drives d (s.m.retried d ∘ g) ∧
      (m.bit Reg.ACT_IRQ_STAT 0 = true → t.m.bit Reg.ACT_IRQ_STAT 0 = true) ∧
      ((s.m.recentRetries d).length < 2 → Raises s t es ∧ SameRegsBut s t regs) ∧
      (2 ≤ (s.m.recentRetries d).length → Raises s t (es ++ [eventAt (s.at cyc) 0x2C04 3 (s.m.drvSlot d) [] 0]) ∧
        Enters s t cyc ⟨10, s.m.drvSlot d, 0, 0, 0x2C04, []⟩) ∧ SameRegsBut s t [Reg.ACT_IRQ_STAT] ∧ SameMemory s t := by
  have hsame : (m.drv d).retries = (s.m.drv d).retries ∧ (m.drv d).runTicks = (s.m.drv d).runTicks := by
    rw [Mach.drv_of_drives hdrives]
    split
    case isTrue => exact hg _
    case isFalse => exact ⟨rfl, rfl⟩
  obtain ⟨hretries, hticks⟩ := hsame
  obtain ⟨hrecent, hretried⟩ := h.retried_eq (d := d) hretries hticks
  replace hrecent : m.recentRetries d = s.m.recentRetries d := hrecent
  replace hretried : m.retried d = s.m.retried d := hretried
  have hslot : m.drvSlot d = s.m.drvSlot d :=
    congrArg (Word.bits · 31 28) (h.rd _ fun hmem => actDrvCfg_ne_actIrqStat d (List.mem_singleton.1 (hregs hmem)))
  have htold : (s.at cyc).FocTells regs es (m.toRetry d) := (h.onPwr _).onDrv d _
  have hto : (m.toRetry d).act.drives = upd s.m.act.drives d (s.m.retried d ∘ g) := by
    change upd m.act.drives d (m.retried d) = _
    rw [hdrives, upd_upd, hretried]
  rw [Mach.pumpRetry_eq, hrecent, hslot] at hf
  by_cases hthird : 2 ≤ (s.m.recentRetries d).length
  · rw [if_pos hthird] at hf
    obtain ⟨t, ht, hact, hbits, hev, henters, hkept, hmem⟩ := run_actFault hf (htold.mono hregs) (by decide) hwait
    exact ⟨t, ht, by rw [hact, hto], fun hbit => (hbits 0).trans (Mach.bit_orr_of_bit _ 8 hbit),
      fun hfew => absurd hthird (not_le.2 hfew), fun _ => ⟨hev, henters⟩, hkept, hmem⟩
  · rw [if_neg hthird] at hf
    obtain ⟨t, ht, hm, hkept, hmem, hev⟩ := run_makes hf htold
    refine ⟨t, ht, by rw [hm, Mach.settle_act, hto], fun hbit => ?_, fun _ => ⟨hev, hkept⟩, fun h2 => absurd h2 hthird,
      fun b hb => hkept b fun hmem => hb (hregs hmem), hmem⟩
    rw [hm, Mach.settle_bit]
    exact hbit

end Sys2Proof.Machine
end

section
/-! Blocked drives, hall faults and pumps (R289 to R292): what each command does under its condition, and short of it. -/

namespace Sys2Proof.Machine

variable (m : Mach)

/-! ### A blocked drive (R289) -/

/-- A drive held at its low end, or at its high end. -/
def ActDrive.atEnd (x : ActDrive) (low : Bool) (hold : Int) : ActDrive :=
  { x with endlo := x.endlo || low, endhi := x.endhi || !low, dclamp := hold }

/-- A drive whose position is known to be `p`. -/
def ActDrive.referencedAt (x : ActDrive) (p : Int) : ActDrive := { x with posn := p, ref := true, prof := 256 * p, profV := 0 }

/-- A drive told at its low end, or at its high end. -/
def Mach.endStop (d : Nat) (low : Bool) : Mach :=
  (m.onDrv d (·.atEnd low (m.drvHoldd d))).raise 0x2C03 0 (m.drvSlot d)

section
variable {m} {d : Nat} (hblocked : m.blockedNow d = true)
include hblocked

theorem Mach.driveBlocked_pump (hpump : m.isPump d = true) : m.driveBlocked d =
    (((m.onDrv d fun x => { x with dclamp := 0, noEdge := 0 }).raise 0x2C01 1 (m.drvSlot d)).orr Reg.ACT_IRQ_STAT 1).pumpRetry d := by
  simp only [Mach.driveBlocked, hblocked, hpump, Bool.not_true, Bool.false_eq_true, if_false, if_true]

variable (hpump : m.isPump d = false)
include hpump

theorem Mach.driveBlocked_low (hlow : m.movesLow d = true) : m.driveBlocked d =
    if (m.drv d).move = .seekLo then (m.endStop d true).referenced d 0 else m.endStop d true := by
  simp only [Mach.driveBlocked, Mach.endStop, ActDrive.atEnd, hblocked, hpump, hlow, Bool.not_true, Bool.false_eq_true, if_false, if_true,
    Bool.or_true, Bool.or_false]

theorem Mach.driveBlocked_high (hlow : m.movesLow d = false) (hhigh : m.movesHigh d = true) : m.driveBlocked d =
    if (m.drv d).move = .seekHi then (m.endStop d false).referenced d (m.drvSpan d) else m.endStop d false := by
  simp only [Mach.driveBlocked, Mach.endStop, ActDrive.atEnd, hblocked, hpump, hlow, hhigh, Bool.not_true, Bool.not_false,
    Bool.false_eq_true, if_false, if_true, Bool.or_true, Bool.or_false]
  rfl

theorem Mach.driveBlocked_stall (hlow : m.movesLow d = false) (hhigh : m.movesHigh d = false) : m.driveBlocked d =
    ((m.onDrv d fun x => { x with stall := true, dclamp := 0 }).raise 0x2C01 1 (m.drvSlot d)).orr Reg.ACT_IRQ_STAT 1 := by
  simp only [Mach.driveBlocked, hblocked, hpump, hlow, hhigh, Bool.not_true, Bool.false_eq_true, if_false]
end

/-- What DRIVE_BLOCKED does of a drive with a role that has no hall fault. -/
def Mach.blockedTaken (d : Nat) : Mach := if m.drvRole d = 0 ∨ m.hallFaultNow d = true then m else m.driveBlocked d

theorem exec_driveBlocked (cyc : Nat) (d : Fin 6) (s : State) :
    exec (.driveBlocked cyc d) s = run s cyc fun m => m.blockedTaken d := rfl

theorem Mach.blockedTaken_idle {d : Nat} (h : m.drvRole d = 0 ∨ m.hallFaultNow d = true ∨ m.blockedNow d = false) :
    m.blockedTaken d = m := by
  rw [Mach.blockedTaken]
  split
  case isTrue => rfl
  case isFalse hacts =>
    have hfree : m.blockedNow d = false := by tauto
    rw [Mach.driveBlocked, hfree]
    rfl

theorem Mach.movesLow_of_seekLo {m : Mach} {d : Nat} (h : (m.drv d).move = .seekLo) : m.movesLow d = true := by
  rw [Mach.movesLow, h]

theorem Mach.moves_of_seekHi {m : Mach} {d : Nat} (h : (m.drv d).move = .seekHi) : m.movesLow d = false ∧ m.movesHigh d = true := by
  rw [Mach.movesLow, Mach.movesHigh, h]
  exact ⟨rfl, rfl⟩

section
variable {s : State} {d : Fin 6} (cyc : Nat) (hrole : s.m.drvRole d ≠ 0) (hhall : s.m.hallFaultNow d = false)
include hrole hhall

theorem State.blockedTaken_due : (s.at cyc).blockedTaken d = (s.at cyc).driveBlocked d :=
  if_neg fun h => h.elim hrole fun hnow => absurd (hhall.symm.trans hnow) (by decide)

theorem exec_driveBlocked_ends {low : Bool} (hends : (s.at cyc).driveBlocked d = (s.at cyc).endStop d low) :
    ∃ t, exec (.driveBlocked cyc d) s = .next t ∧ t.m.act.drives = upd s.m.act.drives d (·.atEnd low (s.m.drvHoldd d)) ∧
      Raises s t [eventAt (s.at cyc) 0x2C03 0 (s.m.drvSlot d) [] 0] ∧ SameRegsBut s t [] ∧ SameMemory s t := by
  rw [exec_driveBlocked]
  obtain ⟨t, ht, hm, hregs, hmem, hev⟩ := run_makes (f := fun m => m.blockedTaken d)
    ((s.blockedTaken_due cyc hrole hhall).trans hends) (((Mach.FocTells.refl _ []).onDrv _ _).raise ..)
  exact ⟨t, ht, by rw [hm]; rfl, hev, hregs, hmem⟩

theorem exec_driveBlocked_seeks {low : Bool} {p : Int}
    (hends : (s.at cyc).driveBlocked d = ((s.at cyc).endStop d low).referenced d p) :
    ∃ t, exec (.driveBlocked cyc d) s = .next t ∧
      t.m.act.drives = upd s.m.act.drives d (fun x => (x.atEnd low (s.m.drvHoldd d)).referencedAt p) ∧
      Raises s t [eventAt (s.at cyc) 0x2C03 0 (s.m.drvSlot d) [] 0, eventAt (s.at cyc) 0x2C0A 0 (s.m.drvSlot d) [] 0] ∧
      SameRegsBut s t [] ∧ SameMemory s t := by
  rw [exec_driveBlocked]
  obtain ⟨t, ht, hm, hregs, hmem, hev⟩ := run_makes (f := fun m => m.blockedTaken d)
    ((s.blockedTaken_due cyc hrole hhall).trans hends)
    (((((Mach.FocTells.refl _ []).onDrv _ _).raise ..).onDrv _ _).raise ..)
  refine ⟨t, ht, ?_, hev, hregs, hmem⟩
  rw [hm]
  exact upd_upd ..

variable (hblocked : s.m.blockedNow d = true)
include hblocked

theorem exec_driveBlocked_pump (hpump : s.m.isPump d = true) (hroom : s.roomy) :
    ∃ t n, exec (.driveBlocked cyc d) s = .next t ∧ RetriesOf s t d n ∧ t.m.bit Reg.ACT_IRQ_STAT 0 = true ∧
      (n < 2 → Raises s t [eventAt (s.at cyc) 0x2C01 1 (s.m.drvSlot d) [] 0]) ∧
      (2 ≤ n → Raises s t [eventAt (s.at cyc) 0x2C01 1 (s.m.drvSlot d) [] 0, eventAt (s.at cyc) 0x2C04 3 (s.m.drvSlot d) [] 0] ∧
        Enters s t cyc ⟨10, s.m.drvSlot d, 0, 0, 0x2C04, []⟩) ∧ SameRegsBut s t [Reg.ACT_IRQ_STAT] ∧ SameMemory s t := by
  rw [exec_driveBlocked]
  obtain ⟨t, ht, hdrives, hbit, hfew, hthird, hregs, hmem⟩ := run_pumpRetry (f := fun m => m.blockedTaken d)
    ((s.blockedTaken_due cyc hrole hhall).trans (Mach.driveBlocked_pump (m := s.at cyc) hblocked hpump))
    ((((Mach.FocTells.refl _ _).onDrv _ _).raise ..).orr_of_not_stamp (by decide) (by decide) 1) (List.Subset.refl _) hroom
    rfl fun _ => ⟨rfl, rfl⟩
  exact ⟨t, _, ht, retriesOf_of_drives hdrives, hbit (Mach.bit_orr (i := 0) _ (by decide)), fun h => (hfew h).1, hthird, hregs, hmem⟩

variable (hpump : s.m.isPump d = false)
include hpump

theorem exec_driveBlocked_stall (hlow : s.m.movesLow d = false) (hhigh : s.m.movesHigh d = false) :
    ∃ t, exec (.driveBlocked cyc d) s = .next t ∧
      t.m.act.drives = upd s.m.act.drives d (fun x => { x with stall := true, dclamp := 0 }) ∧
      Raises s t [eventAt (s.at cyc) 0x2C01 1 (s.m.drvSlot d) [] 0] ∧ t.m.bit Reg.ACT_IRQ_STAT 0 = true ∧
      SameRegsBut s t [Reg.ACT_IRQ_STAT] ∧ SameMemory s t := by
  rw [exec_driveBlocked]
  obtain ⟨t, ht, hm, hregs, hmem, hev⟩ := run_makes (f := fun m => m.blockedTaken d)
    ((s.blockedTaken_due cyc hrole hhall).trans (Mach.driveBlocked_stall (m := s.at cyc) hblocked hpump hlow hhigh))
    ((((Mach.FocTells.refl _ [Reg.ACT_IRQ_STAT]).onDrv _ _).raise ..).orr_of_not_stamp (by decide) (by decide) 1)
  refine ⟨t, ht, by rw [hm]; rfl, hev, ?_, hregs, hmem⟩
  rw [hm, Mach.settle_bit]
  exact Mach.bit_orr (i := 0) _ (by decide)

theorem exec_driveBlocked_end (hends : s.m.movesLow d = true ∨ s.m.movesHigh d = true) (hlo : (s.m.drv d).move ≠ .seekLo)
    (hhi : (s.m.drv d).move ≠ .seekHi) :
    ∃ t, exec (.driveBlocked cyc d) s = .next t ∧
      t.m.act.drives = upd s.m.act.drives d (·.atEnd (s.m.movesLow d) (s.m.drvHoldd d)) ∧
      Raises s t [eventAt (s.at cyc) 0x2C03 0 (s.m.drvSlot d) [] 0] ∧ SameRegsBut s t [] ∧ SameMemory s t := by
  refine exec_driveBlocked_ends cyc hrole hhall ?_
  cases hlow : s.m.movesLow d with
  | true => exact (Mach.driveBlocked_low (m := s.at cyc) hblocked hpump hlow).trans (if_neg hlo)
  | false =>
    have hhigh : s.m.movesHigh d = true := hends.resolve_left (by rw [hlow]; decide)
    exact (Mach.driveBlocked_high (m := s.at cyc) hblocked hpump hlow hhigh).trans (if_neg hhi)

theorem exec_driveBlocked_seek {p : Int}
    (hseek : ((s.m.drv d).move = .seekLo ∧ p = 0) ∨ ((s.m.drv d).move = .seekHi ∧ p = s.m.drvSpan d)) :
    ∃ t g, exec (.driveBlocked cyc d) s = .next t ∧ t.m.act.drives = upd s.m.act.drives d g ∧
      (∀ x, (g x).posn = p ∧ (g x).ref = true ∧ (g x).prof = 256 * p ∧ (g x).dclamp = s.m.drvHoldd d ∧
        ((s.m.drv d).move = .seekLo → (g x).endlo = true) ∧ ((s.m.drv d).move = .seekHi → (g x).endhi = true)) ∧
      Raises s t [eventAt (s.at cyc) 0x2C03 0 (s.m.drvSlot d) [] 0, eventAt (s.at cyc) 0x2C0A 0 (s.m.drvSlot d) [] 0] ∧
      SameRegsBut s t [] ∧ SameMemory s t := by
  rcases hseek with ⟨hlo, rfl⟩ | ⟨hhi, rfl⟩
  · obtain ⟨t, ht, hdrives, hkept⟩ := exec_driveBlocked_seeks cyc hrole hhall
      ((Mach.driveBlocked_low (m := s.at cyc) hblocked hpump (Mach.movesLow_of_seekLo hlo)).trans (if_pos hlo))
    exact ⟨t, _, ht, hdrives, fun x => ⟨rfl, rfl, rfl, rfl, fun _ => Bool.or_true _, fun h => by cases hlo.symm.trans h⟩, hkept⟩
  · obtain ⟨hlow, hhigh⟩ := Mach.moves_of_seekHi hhi
    obtain ⟨t, ht, hdrives, hkept⟩ := exec_driveBlocked_seeks cyc hrole hhall
      ((Mach.driveBlocked_high (m := s.at cyc) hblocked hpump hlow hhigh).trans (if_pos hhi))
    exact ⟨t, _, ht, hdrives, fun x => ⟨rfl, rfl, rfl, rfl, fun h => (by cases hhi.symm.trans h), fun _ => Bool.or_true _⟩, hkept⟩
end

/-! ### Hall faults (R290, R292) -/

/-- A drive that has lost its position by a hall fault, and is off. -/
def ActDrive.lost (x : ActDrive) : ActDrive :=
  { x with hallFlt := true, ref := false, dclamp := 0, granted := false, sinceFlt := false, clean := 0, skips := [], invRun := 0 }

theorem Mach.hallFault_due {m : Mach} {d : Nat} (h : m.hallFaultNow d = true) : m.hallFault d =
    (((m.withdrawStart d).onDrv d ActDrive.lost).raiseF3 0x2C02 (m.drvSlot d)).orr Reg.ACT_IRQ_STAT 2 := by
  rw [Mach.hallFault, h]
  rfl

theorem Mach.hallFault_idle {m : Mach} {d : Nat} (h : m.hallFaultNow d = false) : m.hallFault d = m := by
  rw [Mach.hallFault, h]
  rfl

theorem exec_hallFault_due {s : State} {d : Fin 6} (cyc : Nat) (hrole : s.m.drvRole d ≠ 0) (hnow : s.m.hallFaultNow d = true)
    (hroom : s.roomy) :
    ∃ t, exec (.hallFault cyc d) s = .next t ∧ SlotFault s t cyc 0x2C02 (s.m.drvSlot d) [] ∧
      t.m.act.drives = upd s.m.act.drives d ActDrive.lost ∧ t.m.bit Reg.ACT_IRQ_STAT 1 = true ∧
      SameRegsBut s t [Reg.ACT_IRQ_STAT] ∧ SameMemory s t := by
  obtain ⟨t, ht, hact, hbits, hev, henters, hkept⟩ := run_actFault (f := fun m => if m.drvRole d = 0 then m else m.hallFault d)
    ((if_neg hrole).trans (Mach.hallFault_due (m := s.at cyc) hnow)) (((Mach.FocTells.refl _ _).onPwr _).onDrv _ _)
    List.mem_cons_self hroom
  exact ⟨t, ht, ⟨hev, henters⟩, by rw [hact]; rfl, (hbits 1).trans (Mach.bit_orr (i := 1) _ (by decide)), hkept⟩

theorem Mach.hallFaultClear_due {m : Mach} {d : Nat} (hflt : (m.drv d).hallFlt = true) (hclean : 64 ≤ (m.drv d).clean) :
    m.hallFaultClear d = if m.isPump d && (m.drv d).pstate == 1 then (m.onDrv d fun x => { x with hallFlt := false }).pumpRetry d
    else m.onDrv d fun x => { x with hallFlt := false } := if_pos ⟨hflt, hclean⟩

theorem Mach.hallFaultClear_idle {m : Mach} {d : Nat} (h : (m.drv d).hallFlt = false ∨ (m.drv d).clean < 64) :
    m.hallFaultClear d = m := by
  refine if_neg ?_
  rintro ⟨hflt, hclean⟩
  rcases h with hno | hfew
  · exact absurd (hno.symm.trans hflt) (by decide)
  · exact absurd hclean (not_le.2 hfew)

theorem exec_hallFaultClear_drive {s : State} {d : Fin 6} (cyc : Nat) (hrole : s.m.drvRole d ≠ 0)
    (hrun : s.m.isPump d = false ∨ (s.m.drv d).pstate ≠ 1) (hflt : (s.m.drv d).hallFlt = true) (hclean : 64 ≤ (s.m.drv d).clean) :
    ∃ t, exec (.hallFaultClear cyc d) s = .next t ∧
      t.m.act.drives = upd s.m.act.drives d (fun x => { x with hallFlt := false }) ∧ Quiet s t [] := by
  have hno : ¬(s.m.isPump d && (s.m.drv d).pstate == 1) = true := by
    rw [Bool.and_eq_true, beq_iff_eq]
    rintro ⟨hpump, hst⟩
    exact hrun.elim (fun h => absurd (h.symm.trans hpump) (by decide)) fun h => h hst
  obtain ⟨t, ht, hdrives, -, hquiet⟩ := run_onDrv (f := fun m => if m.drvRole d = 0 then m else m.hallFaultClear d)
    ((if_neg hrole).trans ((Mach.hallFaultClear_due (m := s.at cyc) hflt hclean).trans (if_neg hno)))
  exact ⟨t, ht, hdrives, hquiet⟩

theorem exec_hallFaultClear_pump {s : State} {d : Fin 6} (cyc : Nat) (hpump : s.m.isPump d = true) (hst : (s.m.drv d).pstate = 1)
    (hflt : (s.m.drv d).hallFlt = true) (hclean : 64 ≤ (s.m.drv d).clean) (hroom : s.roomy) :
    ∃ t n, exec (.hallFaultClear cyc d) s = .next t ∧ RetriesOf s t d n ∧
      (d.val < s.m.act.drives.length → (t.m.drv d).hallFlt = false) ∧ (n < 2 → Quiet s t []) ∧
      (2 ≤ n → SlotFault s t cyc 0x2C04 (s.m.drvSlot d) []) ∧ SameRegsBut s t [Reg.ACT_IRQ_STAT] ∧ SameMemory s t := by
  have hrole : s.m.drvRole d ≠ 0 := by
    have hfour : 4 ≤ s.m.drvRole d := of_decide_eq_true hpump
    omega
  have hyes : (s.m.isPump d && (s.m.drv d).pstate == 1) = true := by rw [hpump, hst]; rfl
  obtain ⟨t, ht, hdrives, -, hfew, hthird, hregs, hmem⟩ := run_pumpRetry
    (f := fun m => if m.drvRole d = 0 then m else m.hallFaultClear d)
    ((if_neg hrole).trans ((Mach.hallFaultClear_due (m := s.at cyc) hflt hclean).trans (if_pos hyes)))
    ((Mach.FocTells.refl _ []).onDrv _ _) (List.nil_subset _) hroom rfl fun _ => ⟨rfl, rfl⟩
  refine ⟨t, _, ht, retriesOf_of_drives hdrives, fun hd => ?_, fun h => ?_, hthird, hregs, hmem⟩
  · rw [Mach.drv_of_drives hdrives, if_pos ⟨rfl, hd⟩]
    rfl
  · obtain ⟨hev, hkept⟩ := hfew h
    exact ⟨hkept, hmem, hev⟩

/-! ### A pump's pin (R291) -/

/-- The last measurement of a pump's pin. -/
def ActDrive.measured (x : ActDrive) (value : Nat) (bad : Bool) : ActDrive := { x with pin := min value 0xFFFF, invalid := bad }

theorem Mach.pumpMeasure_eq {m : Mach} {d value freq : Nat} {held bad : Bool} (hmode : m.mode ≠ .sleep) (hpump : m.isPump d = true)
    (hbad : bad = pumpInvalid (m.fld (Reg.ACT_PMP_CFG d) 31 30) value freq held) :
    m.pumpMeasure d value freq held = if bad = true ∧ (m.drv d).invalid = false then
      ((m.onDrv d (·.measured value bad)).raise 0x2C08 1 (m.drvSlot d)).orr Reg.ACT_IRQ_STAT 8
    else m.onDrv d (·.measured value bad) := by
  subst hbad
  have hheard : ¬(m.mode = .sleep ∨ (!m.isPump d) = true) := by
    rw [hpump]
    exact fun h => h.elim hmode (by decide)
  rw [Mach.pumpMeasure, if_neg hheard]
  simp only [Bool.and_eq_true, Bool.not_eq_true']
  rfl

theorem exec_pumpCommandMeasurement_taken {s : State} {p : Fin 2} {value freq : Nat} {held bad : Bool} (cyc : Nat)
    (hmode : s.m.mode ≠ .sleep) (hpump : s.m.isPump (4 + p.val) = true)
    (hbad : bad = pumpInvalid (s.m.fld (Reg.ACT_PMP_CFG (4 + p.val)) 31 30) value freq held) :
    ∃ t, exec (.pumpCommandMeasurement cyc p value freq held) s = .next t ∧
      t.m.act.drives = upd s.m.act.drives (4 + p.val) (·.measured value bad) ∧
      Raises s t (if bad = true ∧ (s.m.drv (4 + p.val)).invalid = false then
        [eventAt (s.at cyc) 0x2C08 1 (s.m.drvSlot (4 + p.val)) [] 0] else []) ∧
      SameRegsBut s t [Reg.ACT_IRQ_STAT] ∧ SameMemory s t := by
  have htaken := Mach.pumpMeasure_eq (m := s.at cyc) hmode hpump hbad
  have htells : (s.at cyc).FocTells [Reg.ACT_IRQ_STAT] [] ((s.at cyc).onDrv (4 + p.val) (·.measured value bad)) :=
    (Mach.FocTells.refl _ _).onDrv _ _
  by_cases hnew : bad = true ∧ (s.m.drv (4 + p.val)).invalid = false
  · obtain ⟨t, ht, hm, hregs, hmem, hev⟩ := run_makes (f := fun m => m.pumpMeasure (4 + p.val) value freq held)
      (htaken.trans (if_pos hnew)) ((htells.raise ..).orr_of_not_stamp (by decide) (by decide) 8)
    rw [if_pos hnew]
    exact ⟨t, ht, by rw [hm]; rfl, hev, hregs, hmem⟩
  · obtain ⟨t, ht, hm, hregs, hmem, hev⟩ := run_makes (f := fun m => m.pumpMeasure (4 + p.val) value freq held)
      (htaken.trans (if_neg hnew)) htells
    rw [if_neg hnew]
    exact ⟨t, ht, by rw [hm]; rfl, hev, hregs, hmem⟩

theorem Mach.pumpMeasure_deaf {m : Mach} {d : Nat} (h : m.mode = .sleep ∨ m.isPump d = false) (value freq : Nat) (held : Bool) :
    m.pumpMeasure d value freq held = m := if_pos (h.imp_right fun h => by rw [h]; rfl)

/-! ### The end of RETRY (R292) -/

/-- RETRY has lasted one second, at tick `n`. -/
abbrev Mach.retryOver (d n : Nat) : Prop := (m.drv d).pstate = 2 ∧ (m.drv d).retryAt + m.msTicks 1000 ≤ n

/-- A pump that may run: it has a setpoint and permission and no hall fault. -/
abbrev Mach.pumpMayRun (d : Nat) : Prop := 0 < (m.drv d).sp ∧ m.permitted (m.drvSlot d) = true ∧ !(m.drv d).hallFlt

section
variable {m} {d n : Nat}

theorem Mach.pumpRetryEnd_runs (hover : m.retryOver d n) (hrun : m.pumpMayRun d) : m.pumpRetryEnd d n =
    ((m.onDrv d fun x => { x with pstate := 1, dclamp := m.drvDlim d, noEdge := 0 }).onDrv d fun x =>
      { x with granted := false }).onPwr (·.startAsked d n) :=
  (if_pos hover).trans ((if_pos hrun).trans (Mach.requestStart_eq ..))

theorem Mach.pumpRetryEnd_off (hover : m.retryOver d n) (hoff : ¬m.pumpMayRun d) :
    m.pumpRetryEnd d n = m.onDrv d fun x => { x with pstate := 0 } := (if_pos hover).trans (if_neg hoff)

theorem Mach.pumpRetryEnd_idle (h : ¬m.retryOver d n) : m.pumpRetryEnd d n = m := if_neg h
end

theorem exec_pumpRetryEnd_runs {s : State} {d : Fin 6} (cyc : Nat) (hpump : s.m.isPump d = true)
    (hover : s.m.retryOver d s.m.seq) (hrun : s.m.pumpMayRun d) :
    ∃ t, exec (.pumpRetryEnd cyc d) s = .next t ∧ Quiet s t [] ∧ (t.m.pwr.starts.any fun x => x.drive == d.val) = true ∧
      t.m.act.drives = upd s.m.act.drives d
        (fun x => { x with pstate := 1, dclamp := s.m.drvDlim d, noEdge := 0, granted := false }) := by
  obtain ⟨t, ht, hm, hquiet⟩ := run_makes (f := fun m => if m.isPump d then m.pumpRetryEnd d m.seq else m)
    ((if_pos hpump).trans (Mach.pumpRetryEnd_runs (m := s.at cyc) hover hrun))
    ((((Mach.FocTells.refl _ []).onDrv _ _).onDrv _ _).onPwr _)
  refine ⟨t, ht, hquiet, ?_, ?_⟩
  · rw [hm]
    exact PwrState.startAsked_any ..
  · rw [hm]
    exact upd_upd ..

theorem exec_pumpRetryEnd_off {s : State} {d : Fin 6} (cyc : Nat) (hpump : s.m.isPump d = true)
    (hover : s.m.retryOver d s.m.seq) (hoff : ¬s.m.pumpMayRun d) :
    ∃ t, exec (.pumpRetryEnd cyc d) s = .next t ∧ Quiet s t [] ∧ t.m.pwr = s.m.pwr ∧
      t.m.act.drives = upd s.m.act.drives d (fun x => { x with pstate := 0 }) := by
  obtain ⟨t, ht, hdrives, hpwr, hquiet⟩ := run_onDrv (f := fun m => if m.isPump d then m.pumpRetryEnd d m.seq else m)
    ((if_pos hpump).trans (Mach.pumpRetryEnd_off (m := s.at cyc) hover hoff))
  exact ⟨t, ht, hquiet, hpwr, hdrives⟩

theorem exec_pumpRetryEnd_idle {s : State} {d : Fin 6} (cyc : Nat) (h : s.m.isPump d = false ∨ ¬s.m.retryOver d s.m.seq) :
    ∃ t, exec (.pumpRetryEnd cyc d) s = .next t ∧ Quiet s t [] ∧ t.m.act = s.m.act := by
  obtain ⟨t, ht, hact, hquiet⟩ := run_act_kept (s := s) (cyc := cyc) (f := fun m => if m.isPump d then m.pumpRetryEnd d m.seq else m)
    (h.elim (fun hno => if_neg (by rw [show (s.at cyc).isPump d = false from hno]; decide)) fun hnot =>
      (congrArg (ite _ · _) (Mach.pumpRetryEnd_idle (m := s.at cyc) hnot)).trans (ite_self _))
  exact ⟨t, ht, hquiet, hact⟩

/-! ### The obligation -/

/-- Settles O33: a blocked drive by what it moves toward, a pump by its entries into RETRY, and each command by whether its condition
holds. -/
theorem drivesAndPumps : Obligations.DrivesAndPumps := by
  refine ⟨fun cyc d s hrole hpump hhall hblocked hlow hhigh => exec_driveBlocked_stall cyc hrole hhall hblocked hpump hlow hhigh,
    fun cyc d s hrole hpump hhall hblocked hends hlo hhi => exec_driveBlocked_end cyc hrole hhall hblocked hpump hends hlo hhi,
    fun cyc d s p hrole hpump hhall hblocked hseek => exec_driveBlocked_seek cyc hrole hhall hblocked hpump hseek,
    fun cyc d s hrole hpump hhall hblocked hroom => exec_driveBlocked_pump cyc hrole hhall hblocked hpump hroom,
    fun cyc d s h => run_act_kept (f := fun m => m.blockedTaken d) (Mach.blockedTaken_idle (m := s.at cyc) h),
    fun cyc d s hrole hnow hroom => ?_,
    fun cyc d s h => run_drive_idle (f := fun m => m.hallFault d) (h.imp_right (Mach.hallFault_idle (m := s.at cyc))),
    fun cyc d s hrole hrun hflt hclean => exec_hallFaultClear_drive cyc hrole hrun hflt hclean,
    fun cyc d s hpump hst hflt hclean hroom => exec_hallFaultClear_pump cyc hpump hst hflt hclean hroom,
    fun cyc d s h => run_drive_idle (f := fun m => m.hallFaultClear d)
      (h.imp_right (Mach.hallFaultClear_idle (m := s.at cyc))),
    fun cyc p value freq held bad s hmode hpump hbad => exec_pumpCommandMeasurement_taken cyc hmode hpump hbad,
    fun cyc p value freq held s h => run_act_kept (f := fun m => m.pumpMeasure (4 + p.val) value freq held)
      (Mach.pumpMeasure_deaf (m := s.at cyc) h value freq held),
    fun cyc d s hpump hst hover hsp hok hflt => exec_pumpRetryEnd_runs cyc hpump ⟨hst, hover⟩ ⟨hsp, hok, by rw [hflt]; rfl⟩,
    fun cyc d s hpump hst hover hoff => exec_pumpRetryEnd_off cyc hpump ⟨hst, hover⟩ ?_,
    fun cyc d s h => exec_pumpRetryEnd_idle cyc (h.imp_right ?_)⟩
  · obtain ⟨t, ht, hfault, hdrives, hkept⟩ := exec_hallFault_due cyc hrole hnow hroom
    exact ⟨t, _, ht, hfault, hdrives, fun x => ⟨rfl, rfl, rfl, rfl, rfl⟩, hkept⟩
  · rintro ⟨hsp, hok, hflt⟩
    rcases hoff with hzero | hnot | hfaulty
    · exact absurd hsp (not_lt.2 hzero)
    · exact absurd (hnot.symm.trans hok) (by decide)
    · rw [hfaulty] at hflt
      exact absurd hflt (by decide)
  · rintro hshort ⟨hst, hover⟩
    exact hshort.elim (fun hno => hno hst) fun hearly => absurd hover (not_le.2 hearly)

end Sys2Proof.Machine
end

section
/-! Every step of the block: the front command and what is left of the queue, the canonical forms of registers and memory, the memory
that a command without access leaves, and the state after reset. -/

namespace Sys2Proof.Machine

/-! ### Canonical memory -/

theorem wf_ite {c : Prop} [Decidable c] {x y : Mach × List Host.Cell} (hx : Memory.wf x.2 = true) (hy : Memory.wf y.2 = true) :
    Memory.wf (if c then x else y).2 = true := by
  split
  · exact hx
  · exact hy

theorem wf_pair (m : Mach) {mem : List Host.Cell} (h : Memory.wf mem = true) : Memory.wf (m, mem).2 = true := h

theorem Memory.filter_wf {mem : List Host.Cell} (f : Host.Cell → Bool) (h : Memory.wf mem = true) : Memory.wf (mem.filter f) = true :=
  Cells.filter_canonical f h

theorem Memory.replace_wf {mem : List Host.Cell} (h : Memory.wf mem = true) (a b : Nat) (l : List Nat) :
    Memory.wf (Memory.writeL (Memory.clear mem a b) a l) = true := Memory.writeL_wf (Memory.clear_wf h a b) a l

section
variable {m : Mach} {mem : List Host.Cell}

/-! ### Memory under DMA (R346, R355 to R369) -/

theorem Mach.dmaWrite_wf {req a : Nat} {bytes : List Nat} (h : Memory.wf mem = true) : Memory.wf (m.dmaWrite mem req a bytes).2.2 = true := by
  refine List.foldlRecOn (motive := fun x : List (Nat × List Nat) × Mach × List Host.Cell => Memory.wf x.2.2 = true) _ _ h ?_
  intro x hx p _
  dsimp only
  split
  · split
    · exact Memory.writeL_wf hx _ _
    · exact hx
  · exact Memory.writeL_wf hx _ _

theorem Mach.faultRecord_wf {l : Lane} {va src cause ctx parked index tag done : Nat} (h : Memory.wf mem = true) :
    Memory.wf (m.faultRecord mem l va src cause ctx parked index tag done).2 = true := wf_ite h (Mach.dmaWrite_wf h)

theorem Mach.issueTxn_wf {l : Lane} {r : Nat} {a : DmaActive} {t : DmaTxn} (h : Memory.wf mem = true) :
    Memory.wf (m.issueTxn mem l r a t).2.2.2 = true := by
  unfold Mach.issueTxn
  dsimp only
  split
  · exact h
  · split
    · exact h
    · split
      · exact h
      · exact List.foldlRecOn (motive := fun x : Nat × Mach × List Host.Cell => Memory.wf x.2.2 = true) _ _ h
          fun _ hx _ _ => Mach.dmaWrite_wf hx

theorem Mach.issueRing_wf {l : Lane} {r : Nat} (h : Memory.wf mem = true) : Memory.wf (m.issueRing mem l r).2 = true := by
  unfold Mach.issueRing
  split
  · exact h
  · dsimp only
    split
    · exact h
    · split
      · exact Mach.issueTxn_wf h
      · exact Mach.faultRecord_wf (Mach.issueTxn_wf h)

theorem Mach.moveTxn_wf {l : Lane} {a : DmaActive} {t : DmaTxn} (h : Memory.wf mem = true) :
    Memory.wf (m.moveTxn mem l a t).2.2.2 = true := by
  unfold Mach.moveTxn
  dsimp only
  split
  · exact h
  · split
    · exact h
    · exact List.foldlRecOn (motive := fun x : List (Nat × List Nat) × Nat × Mach × List Host.Cell => Memory.wf x.2.2.2 = true) _ _ h
        fun _ hx _ _ => Mach.dmaWrite_wf hx

theorem Mach.completeTxn_wf {l : Lane} {r i : Nat} (h : Memory.wf mem = true) : Memory.wf (m.completeTxn mem l r i).2 = true := by
  unfold Mach.completeTxn
  split
  · exact h
  · dsimp only
    split
    · exact h
    · exact Mach.moveTxn_wf h

theorem Mach.writeRecord_wf {l : Lane} {r : Nat} (h : Memory.wf mem = true) : Memory.wf (m.writeRecord mem l r).2 = true := by
  unfold Mach.writeRecord
  split
  · exact h
  · exact wf_ite h (Mach.dmaWrite_wf h)

theorem Mach.replayParked_wf {l : Lane} {r : Nat} (ts : List DmaTxn) (h : Memory.wf mem = true) :
    Memory.wf (m.replayParked mem l r ts).2 = true := by
  induction ts generalizing m mem with
  | nil => exact h
  | cons t rest ih =>
    unfold Mach.replayParked
    split
    · exact ih h
    · dsimp only
      split
      · exact ih (Mach.issueTxn_wf h)
      · exact Mach.faultRecord_wf (Mach.issueTxn_wf h)

theorem Mach.ringResume_wf {l : Lane} {r : Nat} (h : Memory.wf mem = true) : Memory.wf (m.ringResume mem l r).2 = true :=
  wf_ite h (Mach.replayParked_wf _ h)

theorem Mach.crcBlock_wf {l : Lane} {u : Nat} (h : Memory.wf mem = true) : Memory.wf (m.crcBlock mem l u).2 = true := by
  refine wf_ite h (wf_ite h ?_)
  dsimp only
  split
  · exact Mach.faultRecord_wf h
  · exact wf_ite h (wf_ite h (wf_ite h h))

/-! ### Flash: fault records, the Catalogue and the capture (R244, R382, R386) -/

theorem Mach.lvcWrite_wf {ok : Bool} (h : Memory.wf mem = true) : Memory.wf (m.lvcWrite mem ok).2 = true := by
  unfold Mach.lvcWrite
  split
  · exact h
  · dsimp only
    refine wf_ite (wf_pair _ (Memory.writeL_wf ?_ _ _)) (wf_pair _ (Memory.writeL_wf ?_ _ _))
    all_goals
      split
      · exact Memory.clear_wf h _ _
      · exact h

theorem Mach.catOpen_wf (h : Memory.wf mem = true) : Memory.wf (m.catOpen mem).2 = true := by
  unfold Mach.catOpen
  dsimp only
  split
  · exact h
  · exact wf_pair _ (Memory.replace_wf h _ _ _)

theorem Mach.catWrite_wf {ok : Bool} (h : Memory.wf mem = true) : Memory.wf (m.catWrite mem ok).2 = true := by
  unfold Mach.catWrite
  split
  · exact h
  · dsimp only
    split
    · exact wf_pair _ (Memory.writeL_wf (Mach.catOpen_wf h) _ _)
    · exact wf_pair _ (Memory.writeL_wf (Mach.catOpen_wf h) _ _)

theorem Mach.capCopy_wf (h : Memory.wf mem = true) : Memory.wf (m.capCopy mem).2 = true := by
  unfold Mach.capCopy
  dsimp only
  split
  · exact h
  · exact wf_pair _ (Memory.replace_wf h _ _ _)

/-! ### Checkpoints and recovery (R311, R323, R328) -/

theorem Mach.checkpointComplete_wf {l : Lane} {ok : Bool} (h : Memory.wf mem = true) :
    Memory.wf (m.checkpointComplete mem l ok).2 = true := by
  unfold Mach.checkpointComplete
  split
  · exact h
  · dsimp only
    split
    · exact h
    · exact wf_pair _ (Memory.writeL_wf h _ _)

theorem Mach.restoreRegion_wf {c : Checkpoint} {t : Lane} (h : Memory.wf mem = true) : Memory.wf (m.restoreRegion mem c t) = true :=
  Memory.writeL_wf (Memory.writeL_wf h _ _) _ _

theorem Mach.restoreComplete_wf {l : Lane} {sramErr : Bool} (h : Memory.wf mem = true) :
    Memory.wf (m.restoreComplete mem l sramErr).2 = true := by
  unfold Mach.restoreComplete
  dsimp only
  split
  · exact wf_ite h (Mach.restoreRegion_wf h)
  · exact h

theorem Mach.codeChecked_wf {l : Lane} (h : Memory.wf mem = true) : Memory.wf (m.codeChecked mem l).2 = true := by
  refine wf_ite h ?_
  dsimp only
  refine wf_ite ?_ ?_
  all_goals
    dsimp only
    split
    · exact h
    · exact Memory.writeL_wf h _ _

theorem Mach.crossLoad_wf {l : Lane} (h : Memory.wf mem = true) : Memory.wf (m.crossLoad mem l).2 = true := by
  unfold Mach.crossLoad
  dsimp only
  split
  · exact wf_ite (Mach.restoreRegion_wf h) h
  · exact h

/-! ### The change log, sessions and passwords (R423 to R427) -/

theorem Mach.logOpen_wf (h : Memory.wf mem = true) : Memory.wf (m.logOpen mem).2 = true := by
  unfold Mach.logOpen
  dsimp only
  split
  · exact h
  · exact wf_pair _ (Memory.replace_wf h _ _ _)

theorem Mach.logAppend_wf {ok : Bool} {kind detail old new : Nat} (h : Memory.wf mem = true) :
    Memory.wf (m.logAppend mem ok kind detail old new).2 = true := by
  unfold Mach.logAppend
  dsimp only
  split
  · exact wf_pair _ (Memory.writeL_wf (Mach.logOpen_wf h) _ _)
  · exact wf_pair _ (Memory.writeL_wf (Mach.logOpen_wf h) _ _)

theorem Mach.checkPassword_wf {ok : Bool} (h : Memory.wf mem = true) : Memory.wf (m.checkPassword mem ok).2 = true := by
  unfold Mach.checkPassword
  dsimp only
  refine wf_ite h (wf_ite h (wf_ite (wf_ite ?_ ?_) ?_))
  all_goals exact wf_pair _ (Mach.logAppend_wf h)

theorem Mach.endSession_wf {ok : Bool} {detail : Nat} (h : Memory.wf mem = true) : Memory.wf (m.endSession mem ok detail).2 = true := by
  unfold Mach.endSession
  dsimp only
  split
  · exact h
  · exact wf_pair _ (Mach.logAppend_wf h)

theorem Mach.closeSession_wf {ok : Bool} (h : Memory.wf mem = true) : Memory.wf (m.closeSession mem ok).2 = true := by
  unfold Mach.closeSession
  dsimp only
  exact wf_ite h (wf_ite h (wf_ite (Mach.endSession_wf h) (wf_pair _ (Mach.logAppend_wf h))))

theorem PwRecord.store_wf {p : PwRecord} (h : Memory.wf mem = true) : Memory.wf (p.store mem) = true := Memory.replace_wf h _ _ _

theorem Mach.pwBoot_wf {initial : PwRecord} (h : Memory.wf mem = true) : Memory.wf (m.pwBoot mem initial).2 = true := by
  unfold Mach.pwBoot
  dsimp only
  split
  · exact h
  · exact wf_pair _ (PwRecord.store_wf h)

theorem Mach.setPassword_wf {v : Word} {ok : Bool} (h : Memory.wf mem = true) : Memory.wf (m.setPassword mem v ok).2 = true := by
  unfold Mach.setPassword
  dsimp only
  exact wf_ite h (wf_ite h (wf_ite (wf_pair _ (PwRecord.store_wf (Mach.logAppend_wf h))) (wf_pair _ (Mach.logAppend_wf h))))

theorem Mach.sessCommand_wf {v : Word} {ok : Bool} (h : Memory.wf mem = true) : Memory.wf (m.sessCommand mem v ok).2 = true := by
  unfold Mach.sessCommand
  split
  · exact h
  · exact Mach.closeSession_wf h
  · exact Mach.setPassword_wf h
  · exact h

theorem Mach.serviceMem_wf {who : Writer} {a : Nat} {v : Word} {eff : Mach → Mach × List Host.Cell} (h : Memory.wf mem = true)
    (heff : Memory.wf (eff m).2 = true) : Memory.wf (m.serviceMem mem who a v eff).2 = true := by
  cases who with
  | safety => exact h
  | lane l => exact wf_ite h (wf_ite heff h)

/-! ### Staging and commits (R449 to R453) -/

theorem Mach.eraseComplete_wf {ok : Bool} (h : Memory.wf mem = true) : Memory.wf (m.eraseComplete mem ok).2 = true := by
  unfold Mach.eraseComplete
  dsimp only
  split
  · exact h
  · split
    · exact wf_pair _ (Memory.clear_wf h _ _)
    · exact wf_pair _ (Memory.replace_wf h _ _ _)

theorem Mach.stagePages_wf {data : List Nat} {ok : Bool} (h : Memory.wf mem = true) : Memory.wf (m.stagePages mem data ok).2 = true := by
  unfold Mach.stagePages
  dsimp only
  exact wf_ite (wf_pair _ (Memory.writeL_wf h _ _)) (wf_pair _ (Memory.writeL_wf h _ _))

theorem Mach.pageProgram_wf {l : Lane} {r : Nat} {ok : Bool} (h : Memory.wf mem = true) :
    Memory.wf (m.pageProgram mem l r ok).2 = true := by
  unfold Mach.pageProgram
  split
  · exact h
  · exact wf_ite h (wf_ite h (wf_ite (Mach.stagePages_wf h) h))

theorem commitAppend_wf {bytes : List Nat} (h : Memory.wf mem = true) : Memory.wf (commitAppend mem bytes) = true := by
  unfold commitAppend
  dsimp only
  split
  · exact Memory.writeL_wf h _ _
  · exact Memory.replace_wf h _ _ _

theorem Mach.commitRecord_wf {logseq : Nat} {ok : Bool} (h : Memory.wf mem = true) : Memory.wf (m.commitRecord mem logseq ok).2 = true := by
  unfold Mach.commitRecord
  dsimp only
  exact wf_ite (wf_pair _ (commitAppend_wf h)) (wf_pair _ (commitAppend_wf h))

theorem Mach.imgCommit_wf {logOk ok : Bool} (h : Memory.wf mem = true) : Memory.wf (m.imgCommit mem logOk ok).2 = true := by
  unfold Mach.imgCommit
  dsimp only
  exact wf_ite h (wf_ite (Mach.commitRecord_wf h) (wf_ite h (wf_ite (Mach.commitRecord_wf (Mach.logAppend_wf h)) (wf_pair _ (Mach.logAppend_wf h)))))

theorem Mach.imgCommand_wf {v : Word} {logOk ok : Bool} (h : Memory.wf mem = true) : Memory.wf (m.imgCommand mem v logOk ok).2 = true := by
  unfold Mach.imgCommand
  split
  case h_3 => exact Mach.imgCommit_wf h
  all_goals exact h

theorem Mach.imgWrite_wf {who : Writer} {v : Word} {logOk ok : Bool} (h : Memory.wf mem = true) :
    Memory.wf (m.imgWrite mem who v logOk ok).2 = true := Mach.serviceMem_wf h (Mach.imgCommand_wf h)

/-! ### Loading at boot, reset and the recovery loader (R454 to R457, R471) -/

theorem Mach.loadFirmware_wf (fs : List Folio) (h : Memory.wf mem = true) : Memory.wf (m.loadFirmware mem fs) = true :=
  List.foldlRecOn (motive := fun mem => Memory.wf mem = true) _ _ h fun _ hmem _ _ =>
    List.foldlRecOn (motive := fun mem => Memory.wf mem = true) _ _ hmem fun _ hmem _ _ => Memory.writeL_wf hmem _ _

theorem Mach.loadImage_wf {c : CommitRecord} {b : List Nat} (h : Memory.wf mem = true) : Memory.wf (m.loadImage mem c b).2 = true := by
  unfold Mach.loadImage
  dsimp only
  exact Mach.pwBoot_wf (Mach.loadFirmware_wf _ h)

theorem Mach.boot_wf (h : Memory.wf mem = true) : Memory.wf (m.boot mem).2 = true := by
  unfold Mach.boot
  dsimp only
  split
  · exact h
  · exact wf_pair _ (Mach.loadImage_wf h)

theorem resetMemory_wf (h : Memory.wf mem = true) : Memory.wf (resetMemory mem) = true := Memory.clear_wf h _ _

theorem Mach.deviceReset_wf (h : Memory.wf mem = true) : Memory.wf (m.deviceReset mem).2 = true := by
  unfold Mach.deviceReset
  dsimp only
  split
  · exact h
  · exact wf_ite (Mach.boot_wf (resetMemory_wf h)) h

theorem Mach.recoveryEnds_wf {ok : Bool} (h : Memory.wf mem = true) : Memory.wf (m.recoveryEnds mem ok).2 = true := by
  unfold Mach.recoveryEnds
  dsimp only
  exact wf_ite h (wf_ite h (wf_pair _ (Mach.imgCommit_wf h)))

theorem Mach.recoveryFrame_wf {p : List Nat} {ok : Bool} (h : Memory.wf mem = true) : Memory.wf (m.recoveryFrame mem p ok).2 = true := by
  unfold Mach.recoveryFrame
  dsimp only
  exact wf_ite h (Mach.recoveryEnds_wf (wf_ite (Mach.stagePages_wf (wf_ite (Mach.eraseComplete_wf h) h)) (wf_ite (Mach.eraseComplete_wf h) h)))

/-! ### Register writes and accession (R302, R304) -/

theorem Mach.serviceEffect_wf {r : RegRow} {a : Nat} {v : Word} (h : Memory.wf mem = true) :
    Memory.wf (m.serviceEffect mem r a v).2 = true :=
  wf_ite (Mach.sessCommand_wf h) (wf_ite (Mach.imgCommand_wf h) (wf_ite h (wf_ite h h)))

theorem Mach.devEffect_wf {a origin : Nat} {v : Word} (h : Memory.wf mem = true) : Memory.wf (m.devEffect mem a origin v).2 = true := by
  unfold Mach.devEffect
  split
  · exact h
  · exact wf_ite h (wf_ite h (wf_ite (Mach.serviceEffect_wf h) h))

theorem Mach.ringCommand_wf {l : Lane} {r : Nat} {v : Word} (h : Memory.wf mem = true) :
    Memory.wf (m.ringCommand mem l r v).2 = true := by
  unfold Mach.ringCommand
  dsimp only
  have hresume : ∀ m : Mach, Memory.wf (if v.bit 0 then m.ringResume mem l r else (m, mem)).2 = true :=
    fun _ => wf_ite (Mach.ringResume_wf h) h
  exact wf_ite (hresume _) (hresume _)

theorem Mach.laneEffect_wf {l : Lane} {r : RegRow} {ix : List Nat} {a : Nat} {v : Word} (h : Memory.wf mem = true) :
    Memory.wf (m.laneEffect mem l r ix a v).2 = true := by
  unfold Mach.laneEffect
  dsimp only
  iterate 12 refine wf_ite h ?_
  exact wf_ite (Mach.ringCommand_wf h) (wf_ite h (wf_ite h (wf_ite h h)))

theorem Mach.regWrite_wf {who : Writer} {a : Nat} {v : Word} (h : Memory.wf mem = true) :
    Memory.wf (m.regWrite mem who a v).2 = true := by
  unfold Mach.regWrite
  split
  · exact h
  · refine wf_ite h (wf_ite h ?_)
    split
    · exact h
    · split
      · exact wf_ite (Mach.laneEffect_wf h) h
      · exact wf_ite h (wf_ite h (wf_ite (Mach.serviceMem_wf h (Mach.serviceEffect_wf h)) h))

theorem Mach.deviceEntry_wf {e : JEntry} (h : Memory.wf mem = true) : Memory.wf (m.deviceEntry mem e).2 = true := by
  unfold Mach.deviceEntry
  split
  case h_1 => exact Mach.devEffect_wf h
  all_goals exact h

theorem Mach.deviceEntries_wf (es : List JEntry) (h : Memory.wf mem = true) : Memory.wf (m.deviceEntries mem es).2 = true :=
  List.foldlRecOn (motive := fun x : Mach × List Host.Cell => Memory.wf x.2 = true) _ _ h fun _ hx _ _ => Mach.deviceEntry_wf hx

theorem Mach.accession_wf {n : Nat} (h : Memory.wf mem = true) : Memory.wf (m.accession mem n).2 = true := Mach.deviceEntries_wf _ h

theorem Mach.accessionLate_wf (h : Memory.wf mem = true) : Memory.wf (m.accessionLate mem).2 = true :=
  wf_ite h (Mach.deviceEntries_wf _ h)

/-! ### The boundary, SLEEP and the end of boot (R42, R471, R477) -/

theorem Mach.sleepEntry_wf {logOk : Bool} (h : Memory.wf mem = true) : Memory.wf (m.sleepEntry mem logOk).2 = true := by
  unfold Mach.sleepEntry
  dsimp only
  exact wf_ite h (wf_pair _ (Mach.endSession_wf h))

theorem Mach.powerDown_wf (h : Memory.wf mem = true) : Memory.wf (m.powerDown mem).2 = true := by
  have hf := Memory.filter_wf (fun c => decide (regionOf c.1 = .flash)) h
  exact wf_ite h (wf_ite hf (wf_ite hf hf))

theorem Mach.boundaryMode_wf {n : Nat} {env : BoundaryIn} (h : Memory.wf mem = true) : Memory.wf (m.boundaryMode mem n env).2 = true :=
  wf_ite (Mach.endSession_wf h) h

theorem Mach.boundaryRest_wf {n ev : Nat} {env : BoundaryIn} (h : Memory.wf mem = true) :
    Memory.wf (m.boundaryRest mem n ev env).2 = true := Mach.accession_wf h

theorem Mach.tickBoundary_wf {env : BoundaryIn} (h : Memory.wf mem = true) : Memory.wf (m.tickBoundary mem env).2 = true :=
  wf_ite h (wf_ite (Mach.sleepEntry_wf h) (Mach.boundaryRest_wf (Mach.boundaryMode_wf h)))

theorem Mach.bootComplete_wf {levels : List (Bool × Bool)} {halls : List Nat} {env : BoundaryIn} (h : Memory.wf mem = true) :
    Memory.wf (m.bootComplete mem levels halls env).2 = true := wf_ite h (wf_ite h (Mach.boundaryRest_wf h))

end

/-! ### Every command -/

theorem runMem_keeps {s : State} {cyc : Nat} {f : Mach → List Host.Cell → Mach × List Host.Cell}
    (hf : ∀ m, Memory.wf s.mem = true → Memory.wf (f m s.mem).2 = true) :
    ∃ (m : Mach) (mem : List Host.Cell), runMem s cyc f = .next { s with m := m.settle, mem := mem } ∧
      (Memory.wf s.mem = true → Memory.wf mem = true) := ⟨_, _, rfl, hf _⟩

theorem runMem_sessCommand_keeps (cyc : Nat) (who : Writer) (v : Word) (ok : Bool) (s : State) :
    ∃ (m : Mach) (mem : List Host.Cell),
      runMem s cyc (fun m mem => m.serviceMem mem who Reg.SAFE_SESS_CMD v fun m => m.sessCommand mem v ok) =
        .next { s with m := m.settle, mem := mem } ∧ (Memory.wf s.mem = true → Memory.wf mem = true) :=
  runMem_keeps fun _ h => Mach.serviceMem_wf h (Mach.sessCommand_wf h)

theorem execSessionTimeout_keeps (cyc : Nat) (ok : Bool) (s : State) :
    ∃ (m : Mach) (mem : List Host.Cell), execSessionTimeout cyc ok s = .next { s with m := m.settle, mem := mem } ∧
      (Memory.wf s.mem = true → Memory.wf mem = true) := runMem_keeps fun _ h => wf_ite (Mach.endSession_wf h) h

/-- A command that touches no memory answers a state with a settled machine and everything else as it was; any other may change memory
too, and keeps its canonical form. -/
theorem exec_cases (c : Instr) (s : State) :
    (∃ m : Mach, exec c s = .next { s with m := m.settle }) ∨
      (c.touchesMemory = true ∧ ∃ (m : Mach) (mem : List Host.Cell), exec c s = .next { s with m := m.settle, mem := mem } ∧
        (Memory.wf s.mem = true → Memory.wf mem = true)) := by
  cases c
  case tickBoundary => exact .inr ⟨rfl, _, _, rfl, Mach.tickBoundary_wf⟩
  case accessionTakesEffect => exact .inr ⟨rfl, _, _, rfl, Mach.accessionLate_wf⟩
  case registerWrite =>
    refine .inr ⟨rfl, _, _, rfl, fun h => ?_⟩
    split
    · exact wf_ite (Mach.regWrite_wf h) h
    · exact h
  case lvcFaultRecordWrite => exact .inr ⟨rfl, _, _, rfl, Mach.lvcWrite_wf⟩
  case checkpointStart | descriptorPost | ringGo | imageVerifyComplete => exact .inr ⟨rfl, _, _, rfl, fun h => h⟩
  case checkpointComplete => exact .inr ⟨rfl, _, _, rfl, Mach.checkpointComplete_wf⟩
  case codeCheckComplete => exact .inr ⟨rfl, _, _, rfl, Mach.codeChecked_wf⟩
  case recoveryCheckpointLoad => exact .inr ⟨rfl, _, _, rfl, Mach.crossLoad_wf⟩
  case restoreComplete => exact .inr ⟨rfl, _, _, rfl, Mach.restoreComplete_wf⟩
  case transactionIssue =>
    refine .inr ⟨rfl, _, _, rfl, fun h => ?_⟩
    dsimp only
    split
    · exact Mach.issueRing_wf h
    · exact h
  case transactionComplete => exact .inr ⟨rfl, _, _, rfl, fun h => wf_ite (Mach.completeTxn_wf h) h⟩
  case completionWrite => exact .inr ⟨rfl, _, _, rfl, fun h => wf_ite (Mach.writeRecord_wf h) h⟩
  case ringResume => exact .inr ⟨rfl, _, _, rfl, fun h => wf_ite (Mach.ringResume_wf h) (wf_pair _ h)⟩
  case crcScanBlock => exact .inr ⟨rfl, _, _, rfl, fun h => wf_ite (Mach.crcBlock_wf h) h⟩
  case flashCatalogueWrite => exact .inr ⟨rfl, _, _, rfl, Mach.catWrite_wf⟩
  case captureFlashCopy => exact .inr ⟨rfl, _, _, rfl, Mach.capCopy_wf⟩
  case sessionOpen | sessionClose | setPassword => exact .inr ⟨rfl, runMem_sessCommand_keeps ..⟩
  case passwordCheckComplete => exact .inr ⟨rfl, _, _, rfl, Mach.checkPassword_wf⟩
  case sessionTimeout => exact .inr ⟨rfl, execSessionTimeout_keeps ..⟩
  case imageBegin | imageVerify | imageCommit | imageAbort | imageReboot | invalidImageCommand =>
    exact .inr ⟨rfl, _, _, rfl, Mach.imgWrite_wf⟩
  case stagingEraseComplete => exact .inr ⟨rfl, _, _, rfl, Mach.eraseComplete_wf⟩
  case imagePageProgram => exact .inr ⟨rfl, _, _, rfl, Mach.pageProgram_wf⟩
  case recoveryFrame => exact .inr ⟨rfl, _, _, rfl, Mach.recoveryFrame_wf⟩
  case powerOn => exact .inr ⟨rfl, _, _, rfl, Memory.filter_wf _⟩
  case deviceReset => exact .inr ⟨rfl, _, _, rfl, Mach.deviceReset_wf⟩
  case powerDownSequence => exact .inr ⟨rfl, _, _, rfl, Mach.powerDown_wf⟩
  case bootComplete => exact .inr ⟨rfl, _, _, rfl, Mach.bootComplete_wf⟩
  case sleepEntry => exact .inr ⟨rfl, _, _, rfl, Mach.sleepEntry_wf⟩
  all_goals exact .inl ⟨_, rfl⟩

/-- What every command leaves: a register file in canonical form, and memory in canonical form where it was. -/
theorem exec_keeps_forms {c : Instr} {s t : State} (h : exec c s = .next t) :
    t.regsCanonical ∧ (Memory.wf s.mem = true → Memory.wf t.mem = true) := by
  rcases exec_cases c s with ⟨m, hnext⟩ | ⟨-, m, mem, hnext, hwf⟩
  · cases hnext.symm.trans h
    exact ⟨Cells.settle_canonical _ _, id⟩
  · cases hnext.symm.trans h
    exact ⟨Cells.settle_canonical _ _, hwf⟩

theorem step_of_pending {c : Instr} {s : State} {rest : List Instr} (h : s.pending = c :: rest) :
    step s = exec c { s with pending := rest } := by rw [step, h]

theorem step_of_idle {s : State} (h : s.pending = []) : step s = .next s := by rw [step, h]

/-! ### The statements -/

/-- Settles O1: by whether a command waits. -/
theorem stepRunsTheFrontCommand : Obligations.StepRunsTheFrontCommand :=
  ⟨fun _ _ _ h => step_of_pending h, fun _ h => step_of_idle h⟩

/-- Settles O2: by the two shapes of a command. -/
theorem everyCommandAnswersAndLeavesTheQueue : Obligations.EveryCommandAnswersAndLeavesTheQueue := by
  intro c s
  rcases exec_cases c s with ⟨m, hnext⟩ | ⟨-, m, mem, hnext, -⟩
  · exact ⟨_, hnext, rfl⟩
  · exact ⟨_, hnext, rfl⟩

/-- Settles O3: an idle step changes nothing; a command settles the registers, and each of its writes to memory keeps the form. -/
theorem everyStepKeepsTheCanonicalForms : Obligations.EveryStepKeepsTheCanonicalForms := by
  rintro s t ⟨hregs, hmem⟩ hstep
  cases hp : s.pending with
  | nil =>
    rw [step_of_idle hp] at hstep
    cases hstep
    exact ⟨hregs, hmem⟩
  | cons c rest =>
    rw [step_of_pending hp] at hstep
    obtain ⟨hcanonical, hwf⟩ := exec_keeps_forms hstep
    exact ⟨hcanonical, hwf hmem⟩

/-- Settles O4: a command that touches no memory is a run of the machine alone. -/
theorem commandsWithoutMemoryLeaveEveryByte : Obligations.CommandsWithoutMemoryLeaveEveryByte := by
  intro c s t htouches h a
  rcases exec_cases c s with ⟨m, hnext⟩ | ⟨htrue, -⟩
  · cases hnext.symm.trans h
    rfl
  · exact absurd (htouches.symm.trans htrue) (by decide)

/-- Settles O5: each register's reset value is the one of its row. -/
theorem resetGivesTheTablesValues : Obligations.ResetGivesTheTablesValues := by
  refine ⟨⟨?_, rfl⟩, rfl, ?_⟩
  · rw [State.regsCanonical]
    decide
  · refine ⟨?_, ?_, ?_, ?_, ?_, fun l => ?_, ?_, ?_⟩
    case refine_6 => cases l <;> decide
    all_goals decide

end Sys2Proof.Machine
end

section
/-! The timebase (R376, R377): what a cycle adds to it, that many cycles add one after another, and the writes of its rate and slew. -/

namespace Sys2Proof.Machine

/-! ### Cycles (R376, R377) -/

/-- A cycle past the first `d` drains the slew by one more step while any is left. -/
theorem slewSign_drained (x : Int) (d : Nat) :
    slewSign (x - slewSign x * (min d x.natAbs : Nat)) = slewSign x * ((min (d + 1) x.natAbs : Nat) - (min d x.natAbs : Nat)) := by
  rcases lt_trichotomy x 0 with h | rfl | h
  · have hs : slewSign x = -1 := by simp [slewSign, h, not_lt.2 h.le]
    rw [hs]
    unfold slewSign
    split <;> [skip; split] <;> omega
  · simp [slewSign]
  · have hs : slewSign x = 1 := by simp [slewSign, h]
    rw [hs]
    unfold slewSign
    split <;> [skip; split] <;> omega

theorem slewSign_mul_min_one (x : Int) : slewSign x * (min 1 x.natAbs : Nat) = slewSign x := by
  rcases eq_or_ne x 0 with rfl | h
  · rfl
  · rw [min_eq_left (Int.natAbs_pos.2 h), Nat.cast_one, mul_one]

theorem slewSign_bounds (x : Int) : -1 ≤ slewSign x ∧ slewSign x ≤ 1 := by
  unfold slewSign
  split <;> [skip; split] <;> omega

section
variable (m : Mach) (d : Nat)

/-- What the fraction and its carries come to after `d` cycles. -/
def Mach.fracAfter : Int :=
  m.time.f + d * (5 * 2 ^ 32 + m.rdS Reg.TIME_RATE) + slewSign m.time.slew * 2 ^ 26 * (min d m.time.slew.natAbs : Nat)

/-- What of the slew is left after `d` cycles. -/
def Mach.slewAfter : Int := m.time.slew - slewSign m.time.slew * (min d m.time.slew.natAbs : Nat)

/-- The machine `d` cycles on, the fraction and its carries at `fr` and the slew at `x`. -/
def Mach.movedOn (fr x : Int) : Mach :=
  { m with setNow := if d = 0 then m.setNow else [], time := { m.time with
      t := m.time.t + fr.toNat / 2 ^ 32, f := fr.toNat % 2 ^ 32, cyc := m.time.cyc + d, slew := x } }

theorem Mach.advanceTo_eq (c : Nat) :
    m.advanceTo c = m.movedOn (c - m.time.cyc) (m.fracAfter (c - m.time.cyc)) (m.slewAfter (c - m.time.cyc)) := rfl

theorem Mach.advanceTo_add : m.advanceTo (m.time.cyc + d) = m.movedOn d (m.fracAfter d) (m.slewAfter d) := by
  rw [Mach.advanceTo_eq, Nat.add_sub_cancel_left]

theorem Mach.fracAfter_zero : m.fracAfter 0 = m.time.f := by simp [Mach.fracAfter]

theorem Mach.slewAfter_zero : m.slewAfter 0 = m.time.slew := by simp [Mach.slewAfter]

theorem Mach.fracAfter_one : m.fracAfter 1 = m.time.f + (5 * 2 ^ 32 + m.rdS Reg.TIME_RATE + slewSign m.time.slew * 2 ^ 26) := by
  unfold Mach.fracAfter
  rw [mul_right_comm, slewSign_mul_min_one]
  push_cast
  ring

theorem Mach.slewAfter_one : m.slewAfter 1 = m.time.slew - slewSign m.time.slew := by
  rw [Mach.slewAfter, slewSign_mul_min_one]

theorem Mach.fracAfter_succ :
    m.fracAfter (d + 1) = m.fracAfter d + (5 * 2 ^ 32 + m.rdS Reg.TIME_RATE + slewSign (m.slewAfter d) * 2 ^ 26) := by
  rw [Mach.slewAfter, slewSign_drained]
  unfold Mach.fracAfter
  push_cast
  ring

theorem Mach.slewAfter_succ : m.slewAfter (d + 1) = m.slewAfter d - slewSign (m.slewAfter d) := by
  rw [Mach.slewAfter, Mach.slewAfter, slewSign_drained]
  ring

theorem Mach.advanceTo_past {c : Nat} (hc : c ≤ m.time.cyc) (hf : m.time.f < 2 ^ 32) : m.advanceTo c = m := by
  rw [Mach.advanceTo_eq, Nat.sub_eq_zero_of_le hc, Mach.fracAfter_zero, Mach.slewAfter_zero, Mach.movedOn, Int.toNat_natCast,
    Nat.div_eq_of_lt hf, Nat.mod_eq_of_lt hf]
  rfl

/-- A cycle more carries what the fraction of the first `d` leaves and adds `p`. -/
theorem Mach.movedOn_succ (x x' : Int) {fr p : Int} (hfr : 0 ≤ fr) (hp : 0 ≤ p) :
    (m.movedOn d fr x).movedOn 1 ((fr.toNat % 2 ^ 32 : Nat) + p) x' = m.movedOn (d + 1) (fr + p) x' := by
  obtain ⟨a, rfl⟩ := Int.eq_ofNat_of_zero_le hfr
  obtain ⟨b, rfl⟩ := Int.eq_ofNat_of_zero_le hp
  have ht : m.time.t + a / 2 ^ 32 + (a % 2 ^ 32 + b) / 2 ^ 32 = m.time.t + (a + b) / 2 ^ 32 := by omega
  have hf : (a % 2 ^ 32 + b) % 2 ^ 32 = (a + b) % 2 ^ 32 := by omega
  simp only [Mach.movedOn, Int.toNat_natCast, ← Nat.cast_add, ht, hf, one_ne_zero, Nat.succ_ne_zero, if_false, Nat.add_assoc]

variable {m d} (hlo : -4294967 ≤ m.rdS Reg.TIME_RATE)
include hlo

theorem Mach.fracAfter_nonneg : 0 ≤ m.fracAfter d := by
  induction d with
  | zero => exact m.fracAfter_zero ▸ Int.natCast_nonneg _
  | succ d ih =>
    have hsign := slewSign_bounds (m.slewAfter d)
    rw [Mach.fracAfter_succ]
    omega

theorem Mach.advanceTo_succ :
    m.advanceTo (m.time.cyc + (d + 1)) = (m.advanceTo (m.time.cyc + d)).advanceTo (m.time.cyc + d + 1) := by
  have hsign := slewSign_bounds (m.slewAfter d)
  have hone : (m.movedOn d (m.fracAfter d) (m.slewAfter d)).fracAfter 1 =
      ((m.fracAfter d).toNat % 2 ^ 32 : Nat) + (5 * 2 ^ 32 + m.rdS Reg.TIME_RATE + slewSign (m.slewAfter d) * 2 ^ 26) :=
    Mach.fracAfter_one _
  have hlast : (m.movedOn d (m.fracAfter d) (m.slewAfter d)).advanceTo (m.time.cyc + d + 1) =
      (m.movedOn d (m.fracAfter d) (m.slewAfter d)).movedOn 1 ((m.movedOn d (m.fracAfter d) (m.slewAfter d)).fracAfter 1)
        (m.slewAfter (d + 1)) :=
    (Mach.advanceTo_add _ 1).trans (congrArg _ ((Mach.slewAfter_one _).trans (m.slewAfter_succ d).symm))
  rw [Mach.advanceTo_add, Mach.advanceTo_add, hlast, hone, Mach.fracAfter_succ,
    Mach.movedOn_succ _ _ _ _ (Mach.fracAfter_nonneg hlo) (by omega)]
end

/-- Settles O45: one cycle by what it adds to the fraction, and many by the carry from each to the next. -/
theorem theTimebaseRisesEveryCycle : Obligations.TheTimebaseRisesEveryCycle := by
  intro m hf hlo _
  refine ⟨?_, fun c hc => ?_, fun c hc => m.advanceTo_past hc hf⟩
  · have hsign := slewSign_bounds m.time.slew
    rw [Mach.advanceTo_add, Mach.fracAfter_one, Mach.slewAfter_one]
    simp only [Mach.movedOn]
    generalize hp : 5 * 2 ^ 32 + m.rdS Reg.TIME_RATE + slewSign m.time.slew * 2 ^ 26 = p
    obtain ⟨n, rfl⟩ : ∃ n : Nat, p = n := Int.eq_ofNat_of_zero_le (by omega)
    simp only [← Nat.cast_add, Int.toNat_natCast]
    refine ⟨?_, ?_, ?_, trivial⟩
    · push_cast
      omega
    · omega
    · omega
  · obtain ⟨d, rfl⟩ := Nat.exists_eq_add_of_le hc
    exact Mach.advanceTo_succ hlo

/-! ### What a command tells and leaves -/

/-- An update beside the clock, the tick and the registers. -/
theorem Mach.FocTells.next {m m₁ m₂ : Mach} {regs : List Nat} {es : List Event} (h : m.FocTells regs es m₁) (htime : m₂.time = m₁.time)
    (htick : m₂.tick = m₁.tick) (hrd : ∀ b, m₂.rd b = m₁.rd b) : m.FocTells regs es m₂ where
  now := (congrArg TimeState.t htime).trans h.now
  cyc := (congrArg TimeState.cyc htime).trans h.cyc
  tick := htick.trans h.tick
  stamp b hb := (hrd b).trans (h.stamp b hb)
  rd b hb := (hrd b).trans (h.rd b hb)
  raised := (congrArg TimeState.raised htime).trans h.raised

/-- A change of the time block beside the clock and the events raised. -/
theorem Mach.FocTells.onTime {m m' : Mach} {regs : List Nat} {es : List Event} (h : m.FocTells regs es m') {f : TimeState → TimeState}
    (ht : (f m'.time).t = m'.time.t) (hcyc : (f m'.time).cyc = m'.time.cyc) (hraised : (f m'.time).raised = m'.time.raised) :
    m.FocTells regs es (m'.onTime f) where
  now := ht.trans h.now
  cyc := hcyc.trans h.cyc
  tick := h.tick
  stamp := h.stamp
  rd := h.rd
  raised := hraised.trans h.raised

section
variable {s : State} {cyc : Nat} {f : Mach → Mach}

/-- A command that finds nothing to do. -/
theorem nothingDone_of_run (hf : f (s.at cyc) = s.at cyc) : NothingDone s (run s cyc f) := by
  obtain ⟨t, ht, hm, hquiet⟩ := run_makes hf (Mach.FocTells.refl _ [])
  exact ⟨t, ht, by rw [hm]; rfl, by rw [hm]; rfl, hquiet⟩

/-- A device-wide write that applies at once (R302). -/
theorem run_devWrite_now {l : Lane} {a : Nat} {v : Word} {eff : Mach → Mach} {m : Mach} {regs : List Nat} {es : List Event}
    (hroute : s.m.route l = .now) (heff : eff ((s.at cyc).noted l a v) = m) (h : (s.at cyc).FocTells regs es m) :
    ∃ t, (run s cyc fun m => m.devWrite l a v eff) = .next t ∧ t.m = m.settle ∧ SameRegsBut s t regs ∧ SameMemory s t ∧
      Raises s t es :=
  run_makes (f := fun m => m.devWrite l a v eff) ((Mach.devWrite_now (s.at cyc) a v eff hroute).trans heff) h
end

/-! ### Rate and slew (R377) -/

theorem clampI_of_mem {lo hi v : Int} (hlo : lo ≤ v) (hhi : v ≤ hi) : clampI lo hi v = v := by
  simp [clampI, not_lt.2 hlo, not_lt.2 hhi]

theorem clampI_rate {v : Int} (h : 4294967 < v ∨ v < -4294967) :
    clampI (-4294967) 4294967 v = if 4294967 < v then 4294967 else -4294967 := by
  unfold clampI
  dsimp only
  split_ifs <;> omega

section
variable {m : Mach} {v : Word}

theorem Mach.rateWrite_inside (hlo : -4294967 ≤ v.toInt) (hhi : v.toInt ≤ 4294967) : m.rateWrite v = m.wr Reg.TIME_RATE v := by
  rw [Mach.rateWrite, clampI_of_mem hlo hhi]
  exact (if_pos rfl).trans (congrArg (m.wr Reg.TIME_RATE) BitVec.ofInt_toInt)

/-- The rate clamped to `r`, which STATUS and an event tell. -/
def Mach.rateClipped (m : Mach) (r : Int) : Mach :=
  (((m.wrS Reg.TIME_RATE r).setBit Reg.TIME_STATUS 1 true).raise 0x3C05 0).timeIrq 3

theorem Mach.FocTells.rateClipped {m' : Mach} (h : m.FocTells [Reg.TIME_RATE, Reg.TIME_STATUS, Reg.TIME_IRQ_STAT] [] m') (r : Int) :
    m.FocTells [Reg.TIME_RATE, Reg.TIME_STATUS, Reg.TIME_IRQ_STAT] [eventAt m 0x3C05 0 0xFF [] 0] (m'.rateClipped r) :=
  (((h.wr (by decide) (by decide) _).wr (by decide) (by decide) _).raise ..).orr_of_not_stamp (by decide) (by decide) 8

theorem Mach.rateWrite_outside (h : 4294967 < v.toInt ∨ v.toInt < -4294967) :
    m.rateWrite v = m.rateClipped (if 4294967 < v.toInt then 4294967 else -4294967) := by
  rw [Mach.rateWrite, clampI_rate h]
  refine if_neg ?_
  split <;> omega

theorem exec_timeRateWrite_inside {s : State} {l : Lane} (cyc : Nat) (hroute : s.m.route l = .now) (hlo : -4294967 ≤ v.toInt)
    (hhi : v.toInt ≤ 4294967) :
    ∃ t, exec (.timeRateWrite cyc (.lane l) v) s = .next t ∧ t.m.rd Reg.TIME_RATE = v ∧ Quiet s t [Reg.TIME_RATE] := by
  obtain ⟨t, ht, hm, hquiet⟩ := run_devWrite_now (cyc := cyc) (a := Reg.TIME_RATE)
    (eff := fun m => m.rateWrite v) hroute (Mach.rateWrite_inside hlo hhi)
    (((Mach.FocTells.refl _ [Reg.TIME_RATE]).noted l Reg.TIME_RATE v).wr List.mem_cons_self (by decide) v)
  refine ⟨t, ht, ?_, hquiet⟩
  rw [hm, Mach.settle_rd, Mach.rd_wr, if_pos rfl]

theorem exec_timeRateWrite_outside {s : State} {l : Lane} (cyc : Nat) (hroute : s.m.route l = .now)
    (h : 4294967 < v.toInt ∨ v.toInt < -4294967) :
    ∃ t, exec (.timeRateWrite cyc (.lane l) v) s = .next t ∧
      t.m.rd Reg.TIME_RATE = (if 4294967 < v.toInt then 4294967#32 else -4294967#32) ∧
      t.m.bit Reg.TIME_STATUS 1 = true ∧ t.m.bit Reg.TIME_IRQ_STAT 3 = true ∧
      Raises s t [eventAt (s.at cyc) 0x3C05 0 0xFF [] 0] ∧
      SameRegsBut s t [Reg.TIME_RATE, Reg.TIME_STATUS, Reg.TIME_IRQ_STAT] ∧ SameMemory s t := by
  obtain ⟨t, ht, hm, hregs, hmem, hev⟩ := run_devWrite_now (cyc := cyc) (a := Reg.TIME_RATE)
    (eff := fun m => m.rateWrite v) hroute (Mach.rateWrite_outside h) (((Mach.FocTells.refl _ _).noted l Reg.TIME_RATE v).rateClipped _)
  refine ⟨t, ht, ?_, ?_, ?_, hev, hregs, hmem⟩
  · rw [hm, Mach.settle_rd]
    have hrd : ∀ (m : Mach) (r : Int), (m.rateClipped r).rd Reg.TIME_RATE = wordOf r := fun m r =>
      (Mach.rd_wr_other _ _ (by decide)).trans ((Mach.rd_wr_other _ _ (by decide)).trans (by rw [Mach.rd_wrS, if_pos rfl]))
    refine (hrd _ _).trans ?_
    split <;> rfl
  · rw [hm, Mach.settle_bit]
    exact Mach.bit_orr_of_bit _ 8 (Mach.bit_setBit _ true (by decide))
  · rw [hm, Mach.settle_bit]
    exact Mach.bit_orr (i := 3) _ (by decide)

theorem exec_timeSlewWrite {s : State} {l : Lane} (cyc : Nat) (hroute : s.m.route l = .now) :
    ∃ t, exec (.timeSlewWrite cyc (.lane l) v) s = .next t ∧
      t.m.time.slew = clampI (-((2 ^ 31 - 1) * 64)) ((2 ^ 31 - 1) * 64) ((s.at cyc).time.slew + 64 * v.toInt) ∧
      t.m.bit Reg.TIME_STATUS 0 = decide (t.m.time.slew ≠ 0) ∧ Quiet s t [Reg.TIME_STATUS] := by
  obtain ⟨t, ht, hm, hquiet⟩ := run_devWrite_now (cyc := cyc) (a := Reg.TIME_SLEW) (v := v) (eff := fun m => m.slewWrite v) hroute rfl
    ((((Mach.FocTells.refl _ [Reg.TIME_STATUS]).noted l Reg.TIME_SLEW v).onTime rfl rfl rfl).wr List.mem_cons_self (by decide) _)
  have hslew : t.m.time.slew = clampI (-((2 ^ 31 - 1) * 64)) ((2 ^ 31 - 1) * 64) ((s.at cyc).time.slew + 64 * v.toInt) := by
    rw [hm]
    exact congrArg (fun x : TimeState => clampI (-((2 ^ 31 - 1) * 64)) ((2 ^ 31 - 1) * 64) (x.slew + 64 * v.toInt))
      ((s.at cyc).noted_time l Reg.TIME_SLEW v)
  refine ⟨t, ht, hslew, ?_, hquiet⟩
  rw [hm, Mach.settle_bit]
  exact (Mach.bit_setBit _ _ (by decide)).trans decide_not.symm

theorem exec_timeSlewComplete (cyc : Nat) (s : State) :
    ∃ t, exec (.timeSlewComplete cyc) s = .next t ∧ t.m.time = (s.at cyc).time ∧
      t.m.bit Reg.TIME_STATUS 0 = (s.m.bit Reg.TIME_STATUS 0 && decide ((s.at cyc).time.slew ≠ 0)) ∧
      Quiet s t [Reg.TIME_STATUS] := by
  by_cases hslew : (s.at cyc).time.slew = 0
  · obtain ⟨t, ht, hm, hquiet⟩ := run_makes (f := fun m => m.slewDone) (if_pos hslew)
      ((Mach.FocTells.refl _ [Reg.TIME_STATUS]).wr List.mem_cons_self (by decide) _)
    refine ⟨t, ht, by rw [hm]; rfl, ?_, hquiet⟩
    rw [hm, Mach.settle_bit, decide_eq_false (not_not_intro hslew), Bool.and_false]
    exact Mach.bit_setBit _ _ (by decide)
  · obtain ⟨t, ht, hm, hquiet⟩ := run_makes (f := fun m => m.slewDone) (if_neg hslew) (Mach.FocTells.refl _ [Reg.TIME_STATUS])
    refine ⟨t, ht, by rw [hm]; rfl, ?_, hquiet⟩
    rw [hm, Mach.settle_bit, decide_eq_true hslew, Bool.and_true]
    rfl
end

/-- Settles O46: a rate by whether it lies within the bounds, and the end of a slew by whether any is left. -/
theorem rateAndSlewOfTheTimebase : Obligations.RateAndSlewOfTheTimebase :=
  ⟨fun cyc _ v s => ⟨exec_timeRateWrite_inside cyc, exec_timeRateWrite_outside cyc, exec_timeSlewWrite cyc,
    routedElsewhere_devWrite _ v (fun m => m.rateWrite v) s cyc, routedElsewhere_devWrite _ v (fun m => m.slewWrite v) s cyc,
    nothingDone_of_run (f := id) rfl, nothingDone_of_run (f := id) rfl⟩,
    exec_timeSlewComplete⟩

end Sys2Proof.Machine
end

section
/-! The mode manager (R25, R36, R473 to R476): what a row of the table may take the mode to, and what a boundary's step 1 leaves of the
conditions that Bedrock's fixed rules read. -/

namespace Sys2Proof.Machine

/-! ### The mode that SYS_MODE_STAT shows (R36) -/

theorem Mode.ofCode_code (t : Mode) : Mode.ofCode t.code = some t := by cases t <;> rfl

theorem Mode.code_lt (t : Mode) : t.code < 8 := by cases t <;> decide

theorem Mode.code_injective {t u : Mode} (h : t.code = u.code) : t = u :=
  Option.some.inj (by rw [← t.ofCode_code, ← u.ofCode_code, h])

section
variable {m m' : Mach}

theorem Mach.mode_congr (h : m'.rd Reg.SYS_MODE_STAT = m.rd Reg.SYS_MODE_STAT) : m'.mode = m.mode := by
  rw [Mach.mode, Mach.mode, Mach.fld, Mach.fld, h]

theorem Mach.mode_setFld {hi lo : Nat} (v : Nat) (hl : lo ≤ hi) (hh : hi < 32) (h : 3 ≤ lo) :
    (m.setFld Reg.SYS_MODE_STAT hi lo v).mode = m.mode := by
  rw [Mach.mode, Mach.fld_setFld_other _ _ hl hh (by omega) (by omega), Mach.mode]

theorem Mach.mode_setBit {i : Nat} (x : Bool) (hi : i < 32) (h : 3 ≤ i) : (m.setBit Reg.SYS_MODE_STAT i x).mode = m.mode :=
  Mach.mode_setFld x.toNat (le_refl i) hi h

theorem Mach.mode_setFld_mode (t : Mode) : (m.setFld Reg.SYS_MODE_STAT 2 0 t.code).mode = t := by
  rw [Mach.mode, Mach.fld_setFld _ _ (by omega) (by omega), Nat.mod_eq_of_lt (show t.code < 2 ^ (2 + 1 - 0) from t.code_lt), Mode.ofCode_code]
  rfl

/-! ### What the entry of a mode does in the blocks (R88, R126, R215, R242, R425) -/

theorem Mach.injEnd_modeStat (l : Lane) (c : Nat) : (m.injEnd l c).rd Reg.SYS_MODE_STAT = m.rd Reg.SYS_MODE_STAT := by
  have hirq : Reg.SYS_MODE_STAT ≠ Reg.LAW_IRQ_STAT l.ix := by cases l <;> decide
  have hstat : Reg.SYS_MODE_STAT ≠ Reg.LAW_INJ_STAT l.ix := by cases l <;> decide
  simp [Mach.injEnd, Mach.onInj, Mach.rd_orr, Mach.rd_setFld, hirq, hstat]

theorem Mach.abortDiag_modeStat (p : Nat) (m : Mach) : (m.abortDiag p).rd Reg.SYS_MODE_STAT = m.rd Reg.SYS_MODE_STAT := by
  unfold Mach.abortDiag
  split
  · rfl
  · rw [Mach.onGate_rd, Mach.accede_rd_other _ (by decide)]
    rfl

theorem Mach.abortLegDiag_modeStat (j : Nat) (m : Mach) : (m.abortLegDiag j).rd Reg.SYS_MODE_STAT = m.rd Reg.SYS_MODE_STAT := by
  unfold Mach.abortLegDiag
  split
  · rfl
  · rw [Mach.onGate_rd, Mach.accede_rd_other _ (by decide)]
    rfl

theorem Mach.diagLeg_modeStat (j : Nat) (m : Mach) : (m.diagLeg j).rd Reg.SYS_MODE_STAT = m.rd Reg.SYS_MODE_STAT := by
  have hne : Reg.SYS_MODE_STAT ≠ Reg.GDL_LEG_STAT j := by simp only [Reg.SYS_MODE_STAT, Reg.GDL_LEG_STAT]; omega
  unfold Mach.diagLeg
  split
  · rfl
  · split
    · exact (Mach.rd_setFld ..).trans (if_neg hne)
    · exact (Mach.rd_setFld ..).trans (if_neg hne)

theorem Mach.diagPair_modeStat (p : Nat) (m : Mach) : (m.diagPair p).rd Reg.SYS_MODE_STAT = m.rd Reg.SYS_MODE_STAT := by
  have hne : Reg.SYS_MODE_STAT ≠ Reg.GDI_PR_DIAG p := by simp only [Reg.SYS_MODE_STAT, Reg.GDI_PR_DIAG]; omega
  unfold Mach.diagPair
  split
  · rfl
  · split
    · exact (Mach.rd_wrN ..).trans (if_neg hne)
    · exact (Mach.rd_wrN ..).trans (if_neg hne)

theorem Mach.diagLeave_modeStat : m.diagLeave.rd Reg.SYS_MODE_STAT = m.rd Reg.SYS_MODE_STAT :=
  (forN_keeps (fun m => m.rd Reg.SYS_MODE_STAT) Mach.abortLegDiag_modeStat _ _).trans
    (forN_keeps (fun m => m.rd Reg.SYS_MODE_STAT) Mach.abortDiag_modeStat _ _)

theorem Mach.diagStandby_modeStat : m.diagStandby.rd Reg.SYS_MODE_STAT = m.rd Reg.SYS_MODE_STAT :=
  (forL_keeps (fun m => m.rd Reg.SYS_MODE_STAT) Mach.diagLeg_modeStat _ _).trans
    (forL_keeps (fun m => m.rd Reg.SYS_MODE_STAT) Mach.diagPair_modeStat _ _)

theorem Mach.lvcDiagLeave_modeStat : m.lvcDiagLeave.rd Reg.SYS_MODE_STAT = m.rd Reg.SYS_MODE_STAT :=
  forL_keeps (fun m => m.rd Reg.SYS_MODE_STAT) (fun _ m => Mach.accede_rd_other (m.onLvc _) (by decide) _) _ _

theorem Mach.lvcDiagTake_modeStat (mask : Nat) : (m.lvcDiagTake mask).rd Reg.SYS_MODE_STAT = m.rd Reg.SYS_MODE_STAT := by
  have hshow : ∀ (v : Nat) (ks : List Nat) (m : Mach),
      (forL ks (fun k m => m.setFld Reg.LVC_DIAG (4 * k + 3) (4 * k) v) m).rd Reg.SYS_MODE_STAT = m.rd Reg.SYS_MODE_STAT :=
    fun v ks m => forL_keeps (fun m => m.rd Reg.SYS_MODE_STAT) (fun _ m => (m.rd_setFld ..).trans (if_neg (by decide))) ks m
  have htaken := m.rd_wr_other (a := Reg.LVC_DIAG_REQ) (b := Reg.SYS_MODE_STAT) 0#32 (by decide)
  unfold Mach.lvcDiagTake
  dsimp only
  split
  · exact htaken
  · split
    · exact (hshow ..).trans htaken
    · exact (hshow ..).trans htaken

theorem Mach.lvcDiagStandby_modeStat : m.lvcDiagStandby.rd Reg.SYS_MODE_STAT = m.rd Reg.SYS_MODE_STAT := by
  unfold Mach.lvcDiagStandby
  dsimp only
  split
  · exact Mach.lvcDiagTake_modeStat _
  · rfl

theorem Mach.modeEffects_modeStat (source target : Mode) (entered : Nat) :
    (m.modeEffects source target entered).rd Reg.SYS_MODE_STAT = m.rd Reg.SYS_MODE_STAT := by
  unfold Mach.modeEffects
  dsimp only
  rw [Mach.setLines_rd (by decide)]
  have hite : ∀ (c : Prop) [Decidable c] (f : Mach → Mach), (∀ m : Mach, (f m).rd Reg.SYS_MODE_STAT = m.rd Reg.SYS_MODE_STAT) →
      ∀ m : Mach, (if c then f m else m).rd Reg.SYS_MODE_STAT = m.rd Reg.SYS_MODE_STAT := by
    intro c _ f hf m
    split
    · exact hf m
    · rfl
  rw [hite _ (fun m => m.diagStandby.lvcDiagStandby) fun m => m.diagStandby.lvcDiagStandby_modeStat.trans m.diagStandby_modeStat,
    hite _ (fun m => m.diagLeave.lvcDiagLeave) fun m => m.diagLeave.lvcDiagLeave_modeStat.trans m.diagLeave_modeStat,
    hite _ (fun m => m.injEnd .b 4) fun m => m.injEnd_modeStat .b 4, hite _ (fun m => m.injEnd .a 4) fun m => m.injEnd_modeStat .a 4,
    hite _ (fun m => m.sessPause entered) fun m => rfl]

theorem Mach.enterMode_modeStat (t : Mode) (cause : Nat) : (m.enterMode t cause).rd Reg.SYS_MODE_STAT =
    ((m.setFld Reg.SYS_MODE_STAT 2 0 t.code).setFld Reg.SYS_MODE_STAT 31 16 0).rd Reg.SYS_MODE_STAT := by
  unfold Mach.enterMode
  dsimp only
  rw [Mach.modeEffects_modeStat, Mach.onSys_rd, Mach.rd_orr, if_neg (by decide), Mach.rd_wr64_other _ (by decide) (by decide),
    Mach.rd_wrN, if_neg (by decide)]

theorem Mach.enterMode_mode (t : Mode) (cause : Nat) : (m.enterMode t cause).mode = t := by
  rw [Mach.mode_congr (m.enterMode_modeStat t cause), Mach.mode_setFld _ (by decide) (by decide) (by decide), Mach.mode_setFld_mode]

/-! ### What Bedrock's fixed rules read (R472, R474, R475) -/

/-- The conditions that R474 and R475 read are the same in both machines, but for the requests. -/
structure Mach.SameRules (m m' : Mach) : Prop where
  mode : m'.mode = m.mode
  rd : ∀ b, b ≠ Reg.SYS_MODE_STAT → b ≠ Reg.SYS_IRQ_STAT → m'.rd b = m.rd b
  image : m'.image = m.image
  lvc : m'.lvc = m.lvc
  chg : m'.chg = m.chg
  act : m'.act = m.act
  safe : m'.safe = m.safe
  flash : m'.time.flashQueue = m.time.flashQueue
  held : m'.sys.holdByF4 = m.sys.holdByF4

theorem Mach.SameRules.refl (m : Mach) : m.SameRules m := ⟨rfl, fun _ _ _ => rfl, rfl, rfl, rfl, rfl, rfl, rfl, rfl⟩

theorem Mach.SameRules.trans {m'' : Mach} (h : m.SameRules m') (h' : m'.SameRules m'') : m.SameRules m'' :=
  ⟨h'.mode.trans h.mode, fun b hs hi => (h'.rd b hs hi).trans (h.rd b hs hi), h'.image.trans h.image, h'.lvc.trans h.lvc,
    h'.chg.trans h.chg, h'.act.trans h.act, h'.safe.trans h.safe, h'.flash.trans h.flash, h'.held.trans h.held⟩

theorem Mach.sameRules_setFld {hi lo : Nat} (v : Nat) (hl : lo ≤ hi) (hh : hi < 32) (h : 3 ≤ lo) :
    m.SameRules (m.setFld Reg.SYS_MODE_STAT hi lo v) :=
  ⟨Mach.mode_setFld v hl hh h, fun _ hs _ => Mach.rd_wr_other _ _ hs, rfl, rfl, rfl, rfl, rfl, rfl, rfl⟩

theorem Mach.sameRules_setBit {i : Nat} (x : Bool) (hi : i < 32) (h : 3 ≤ i) : m.SameRules (m.setBit Reg.SYS_MODE_STAT i x) :=
  Mach.sameRules_setFld x.toNat (le_refl i) hi h

theorem Mach.sameRules_onSys {f : SysState → SysState} (hf : (f m.sys).holdByF4 = m.sys.holdByF4) : m.SameRules (m.onSys f) :=
  ⟨rfl, fun _ _ _ => rfl, rfl, rfl, rfl, rfl, rfl, rfl, hf⟩

theorem Mach.sameRules_modeRefused (code : Nat) : m.SameRules (m.modeRefused code) :=
  ⟨m.modeRefused_mode code, fun _ hs hi => m.modeRefused_rd_other code hs hi, rfl, rfl, rfl, rfl, rfl, rfl, rfl⟩

theorem Mach.sameRules_modeCompletes : m.SameRules m.modeCompletes :=
  (Mach.sameRules_setFld 0 (by decide) (by decide) (by decide)).trans (Mach.sameRules_setBit false (by decide) (by decide))

theorem Mach.sameRules_dropRequest (code : Nat) : m.SameRules (m.dropRequest code) := by
  unfold Mach.dropRequest
  split
  · exact Mach.sameRules_modeRefused code
  · exact .refl m

theorem Mach.sameRules_modeConsider (t : Nat) : m.SameRules (m.modeConsider t) := by
  have hshown : m.SameRules ((m.setFld Reg.SYS_MODE_STAT 6 4 t).onSys fun s => { s with held := none, waited := 0 }) :=
    (Mach.sameRules_setFld t (by decide) (by decide) (by decide)).trans (Mach.sameRules_onSys rfl)
  unfold Mach.modeConsider
  dsimp only
  split
  · exact hshown.trans Mach.sameRules_modeCompletes
  · split
    · exact hshown.trans (Mach.sameRules_modeRefused _)
    · exact hshown.trans (Mach.sameRules_setBit true (by decide) (by decide))

theorem Mach.sameRules_modeHeld : m.SameRules m.modeHeld := by
  unfold Mach.modeHeld
  split
  · exact Mach.sameRules_modeConsider _
  · exact .refl m

/-- The machine whose requests and table a tick without a forced mode evaluates (R32, R443). -/
def Mach.modeEvaluated (m : Mach) : Mach := ((m.setBit Reg.SYS_MODE_STAT 9 false).incSat Reg.SYS_MODE_STAT 31 16).modeHeld

theorem Mach.sameRules_modeEvaluated : m.SameRules m.modeEvaluated :=
  ((Mach.sameRules_setBit false (by decide) (by decide)).trans (Mach.sameRules_setFld _ (by decide) (by decide) (by decide))).trans
    Mach.sameRules_modeHeld

theorem Mach.SameRules.modeAllowed_eq (h : m.SameRules m') : m'.modeAllowed = m.modeAllowed := by
  have hmod : ∀ (l : Lane) (k : Nat), m'.modState l k = m.modState l k := fun l k => by
    rw [Mach.modState, Mach.modState, Mach.fld, Mach.fld,
      h.rd _ (by simp only [Reg.MOD_STAT, Reg.SYS_MODE_STAT]; omega) (by simp only [Reg.MOD_STAT, Reg.SYS_IRQ_STAT]; omega)]
  have hslot : m'.hasSlot = m.hasSlot := by
    funext k
    rw [Mach.hasSlot, Mach.hasSlot, Mach.slotEntry, Mach.slotEntry, h.image]
  have hrunner : m'.runner = m.runner := by
    funext k
    rw [Mach.runner, Mach.runner, Mach.slotEntry, Mach.slotEntry, Mach.arr, Mach.arr, Mach.active, Mach.active, Mach.fld, Mach.fld,
      Mach.fld, Mach.fld, h.rd Reg.LANE_STATUS (by decide) (by decide), h.image]
  have hidle : m'.idleCond = m.idleCond := by
    simp only [Mach.idleCond, Mach.mapped, hslot, hrunner, h.lvc, h.chg, hmod]
  have hflash : m'.flashBusy = m.flashBusy := by
    simp only [Mach.flashBusy, Mach.stage, Mach.fld, h.rd Reg.IMG_STATUS (by decide) (by decide), h.lvc, h.flash]
  funext source target
  simp only [Mach.modeAllowed, hidle, hflash, h.act]

/-- What beside the request lets a SAFE_HOLD be left (R475). -/
structure Mach.HoldOver (m : Mach) : Prop where
  byRequest : m.sys.holdByF4 = false
  started : m.safeStarted = true
  released : m.holdsReleased = true
  live : m.live .a = true ∨ m.live .b = true

theorem Mach.mayLeaveHold_iff : m.mayLeaveHold = true ↔ m.pendingTarget = 1 ∧ m.HoldOver := by
  simp only [Mach.mayLeaveHold, Bool.and_eq_true, beq_iff_eq, Bool.not_eq_true', Bool.or_eq_true]
  constructor
  · rintro ⟨⟨⟨⟨hp, hf⟩, hs⟩, hr⟩, hl⟩
    exact ⟨hp, hf, hs, hr, hl⟩
  · rintro ⟨hp, hf, hs, hr, hl⟩
    exact ⟨⟨⟨⟨hp, hf⟩, hs⟩, hr⟩, hl⟩

theorem Mach.SameRules.holdOver (h : m.SameRules m') (hover : m'.HoldOver) : m.HoldOver := by
  obtain ⟨hf, hs, hr, hl⟩ := hover
  refine ⟨h.held ▸ hf, ?_, ?_, ?_⟩
  · rwa [Mach.safeStarted, Mach.bit, h.rd _ (by decide) (by decide)] at hs
  · have hfn : ∀ f, m'.fn0 f = m.fn0 f := fun f => by
      rw [Mach.fn0, Mach.fn0,
        h.rd _ (by simp only [Reg.SAFE_FN_CFG_W0, Reg.SYS_MODE_STAT]; omega) (by simp only [Reg.SAFE_FN_CFG_W0, Reg.SYS_IRQ_STAT]; omega)]
    simpa only [Mach.holdsReleased, Mach.fnOn, hfn, h.safe] using hr
  · simpa only [Mach.live, Mach.laneCode, Mach.fld, h.rd Reg.LANE_STATUS (by decide) (by decide)] using hl

/-! ### A row of the table (R472, R474 to R476) -/

/-- R474, R475: the mode may become `t`. -/
def Mach.Permits (m : Mach) (t : Mode) : Prop :=
  t = m.mode ∨ (m.modeAllowed m.mode.code t.code = true ∧ (m.mode = .safeHold → t = .safeHold ∨ m.mayLeaveHold = true))

theorem Mach.modeAllowed_code {source target : Nat} (h : m.modeAllowed source target = true) : ∃ t : Mode, t.code = target := by
  unfold Mach.modeAllowed at h
  split at h
  · exact ⟨.safeHold, rfl⟩
  · exact ⟨.sleep, rfl⟩
  · exact ⟨.drive, rfl⟩
  · exact ⟨.charge, rfl⟩
  · exact ⟨.service, rfl⟩
  · exact ⟨.standby, rfl⟩
  · exact ⟨.charge, rfl⟩
  · exact ⟨.standby, rfl⟩
  · exact ⟨.drive, rfl⟩
  · exact ⟨.standby, rfl⟩
  · exact ⟨.standby, rfl⟩
  · exact absurd h (by decide)

theorem Mach.mode_ite {c : Prop} [Decidable c] {a b : Mach} {t : Mode} (ha : a.mode = t) (hb : b.mode = t) :
    (if c then a else b).mode = t := by
  split
  · exact ha
  · exact hb

theorem Mach.onSys_mode (f : SysState → SysState) : (m.onSys f).mode = m.mode := rfl

theorem Mach.raise_mode (code cls slot : Nat) (d : List Nat) (o : Nat) : (m.raise code cls slot d o).mode = m.mode :=
  Mach.mode_congr rfl

theorem Mach.modeRow_stays {r : TableRow} (h : r.dest = m.mode.code) : (m.modeRow r).mode = m.mode := by
  unfold Mach.modeRow
  dsimp only
  generalize hm : (if r.action.testBit 5 = true then (m.raise 0x480C 0).pwrIrq 5 else m) = m₁
  have hmode : m₁.mode = m.mode := by
    rw [← hm]
    exact Mach.mode_ite (Mach.mode_congr ((Mach.rd_orr ..).trans (if_neg (by decide)))) rfl
  rw [hmode, if_pos h]
  rw [Mach.onSys_mode]
  exact Mach.mode_ite (Mach.sameRules_modeCompletes.mode.trans hmode) hmode

theorem Mach.modeRow_moves {r : TableRow} {t : Mode} (ht : t.code = r.dest) (h : r.dest ≠ m.mode.code) : (m.modeRow r).mode = t := by
  unfold Mach.modeRow
  dsimp only
  generalize hm : (if r.action.testBit 5 = true then (m.raise 0x480C 0).pwrIrq 5 else m) = m₁
  have hmode : m₁.mode = m.mode := by
    rw [← hm]
    exact Mach.mode_ite (Mach.mode_congr ((Mach.rd_orr ..).trans (if_neg (by decide)))) rfl
  rw [hmode, if_neg h, ← ht, Mode.ofCode_code, Option.getD_some]
  have hshown : ∀ cause, (((m₁.enterMode t cause).setBit Reg.SYS_MODE_STAT 9 true).setFld Reg.SYS_MODE_STAT 6 4 t.code).mode = t := fun cause => by
    rw [Mach.mode_setFld _ (by decide) (by decide) (by decide), Mach.mode_setBit _ (by decide) (by decide), Mach.enterMode_mode]
  have htold : ∀ (c : Bool) (d : List Nat) (x : Mach), x.mode = t →
      (if c then x.modeCompletes.raise 0x0002 0 else x.raise 0x0007 0 0xFF d).mode = t := fun c d x hx =>
    Mach.mode_ite ((Mach.raise_mode ..).trans (Mach.sameRules_modeCompletes.mode.trans hx)) ((Mach.raise_mode ..).trans hx)
  refine Mach.mode_ite ?_ ?_
  · rw [Mach.onSys_mode]
    exact htold _ _ _ (hshown _)
  · exact htold _ _ _ (hshown _)

theorem Mach.modeEvaluate_permits (ign : Bool) : m.Permits (m.modeEvaluate ign).mode := by
  unfold Mach.modeEvaluate
  split
  · exact .inl rfl
  · dsimp only
    split
    case h_2 => exact .inl rfl
    case h_1 r hfind =>
      have hrow := List.find?_some hfind
      rw [Bool.and_eq_true] at hrow
      replace hrow := hrow.2
      by_cases hstay : r.dest = m.mode.code
      · exact .inl (Mach.modeRow_stays hstay)
      · simp only [Mach.rowAllowed, Bool.or_eq_true, beq_iff_eq, hstay, false_or, Bool.and_eq_true] at hrow
        obtain ⟨⟨hallowed, -⟩, hleave⟩ := hrow
        obtain ⟨t, ht⟩ := Mach.modeAllowed_code hallowed
        rw [Mach.modeRow_moves ht hstay]
        refine .inr ⟨ht ▸ hallowed, fun hhold => ?_⟩
        rw [hhold] at hleave
        rcases hleave with (hne | hhold') | hleave
        · exact absurd hne (by decide)
        · exact .inl (Mode.code_injective (ht.trans hhold'))
        · exact .inr hleave

/-! ### A tick in which no mode is forced (R32, R443, R473) -/

theorem Mach.modeTick_mode (ign : Bool) : (m.modeTick ign).mode = (m.modeEvaluated.modeEvaluate ign).mode := by
  unfold Mach.modeTick Mach.requestTimeout
  refine Mach.mode_ite ((Mach.modeRefused_mode _ _).trans ?_) ?_
  all_goals exact Mach.mode_ite (Mach.onSys_mode _) rfl

/-- R25, R475: STANDBY has been asked for, and waits or is held. -/
def Mach.AsksStandby (m : Mach) : Prop := m.pendingTarget = 1 ∨ m.sys.held = some 1

theorem Mach.pendingTarget_of_not_pending (h : m.modePending = false) : m.pendingTarget = 7 := by
  rw [Mach.pendingTarget, h]
  rfl

theorem Mach.modeCompletes_not_pending : m.modeCompletes.modePending = false := Mach.bit_setBit _ _ (by decide)

theorem Mach.modeRefused_not_pending (code : Nat) : (m.modeRefused code).modePending = false := m.modeRefused_modePending code

/-- In SAFE_HOLD only a request for STANDBY can wait after it was considered. -/
theorem Mach.modeConsider_asks {t : Nat} (hmode : m.mode = .safeHold) (h : (m.modeConsider t).pendingTarget = 1) : t = 1 := by
  unfold Mach.modeConsider at h
  dsimp only at h
  generalize hm : (m.setFld Reg.SYS_MODE_STAT 6 4 t).onSys (fun s => { s with held := none, waited := 0 }) = m₁ at h
  have hmode₁ : m₁.mode = .safeHold := by
    rw [← hm, Mach.onSys_mode, Mach.mode_setFld _ (by decide) (by decide) (by decide), hmode]
  rw [hmode₁] at h
  split at h
  · rw [Mach.pendingTarget_of_not_pending Mach.modeCompletes_not_pending] at h
    exact absurd h (by decide)
  case isFalse hne =>
    split at h
    · rw [Mach.pendingTarget_of_not_pending (Mach.modeRefused_not_pending _)] at h
      exact absurd h (by decide)
    case h_2 hnone =>
      have hallowed : m₁.modeAllowed 5 t = true := by
        rw [Mach.modeRefusal, hmode₁] at hnone
        split_ifs at hnone with _ _ hallowed
        all_goals simpa [Mode.code] using hallowed
      unfold Mach.modeAllowed at hallowed
      split at hallowed <;> simp_all [Mode.code]

theorem Mach.modeEvaluated_asks (hmode : m.mode = .safeHold) (h : m.modeEvaluated.pendingTarget = 1) : m.AsksStandby := by
  have hsame : ((m.setBit Reg.SYS_MODE_STAT 9 false).incSat Reg.SYS_MODE_STAT 31 16).pendingTarget = m.pendingTarget := by
    rw [Mach.pendingTarget, Mach.pendingTarget, Mach.modePending, Mach.modePending, Mach.modeTarget, Mach.modeTarget, Mach.incSat,
      Mach.bit_setFld_other _ _ (by decide) (by decide) (by decide), Mach.bit_setBit_other _ _ (by decide) (by decide),
      Mach.fld_setFld_other _ _ (by decide) (by decide) (by decide) (by decide),
      Mach.fld_setBit_other (h := 6) _ _ (by decide) (by decide) (by decide)]
    rfl
  rw [Mach.modeEvaluated, Mach.modeHeld] at h
  split at h
  case h_1 t hheld =>
    have ht := Mach.modeConsider_asks ?_ h
    · exact .inr (ht ▸ hheld)
    · rw [Mach.incSat, Mach.mode_setFld _ (by decide) (by decide) (by decide), Mach.mode_setBit _ (by decide) (by decide), hmode]
  case h_2 => exact .inl (hsame ▸ h)

/-- R474, R475: a tick in which no mode is forced changes the mode only as Bedrock permits. -/
theorem Mach.modeTick_permits (ign : Bool) :
    (m.modeTick ign).mode = m.mode ∨ (m.modeAllowed m.mode.code (m.modeTick ign).mode.code = true ∧
      (m.mode = .safeHold → (m.modeTick ign).mode = .safeHold ∨ (m.AsksStandby ∧ m.HoldOver))) := by
  have hrules : m.SameRules m.modeEvaluated := Mach.sameRules_modeEvaluated
  rw [Mach.modeTick_mode]
  rcases Mach.modeEvaluate_permits (m := m.modeEvaluated) ign with hstay | ⟨hallowed, hleave⟩
  · exact .inl (hstay.trans hrules.mode)
  · rw [hrules.modeAllowed_eq, hrules.mode] at hallowed
    refine .inr ⟨hallowed, fun hmode => (hleave (hrules.mode.trans hmode)).imp_right fun hmay => ?_⟩
    obtain ⟨hpending, hover⟩ := Mach.mayLeaveHold_iff.1 hmay
    exact ⟨Mach.modeEvaluated_asks hmode hpending, hrules.holdOver hover⟩

/-! ### Forced modes (R25, R27, R473) -/

theorem Mach.modeForced_mode (code : Nat) : (m.modeForced code).mode = .safeHold := by
  unfold Mach.modeForced
  dsimp only
  rw [Mach.mode_congr (Mach.setLines_rd (by decide)), Mach.onSys_mode, Mach.mode_setBit _ (by decide) (by decide)]
  split
  case isTrue h => exact h
  case isFalse => rw [Mach.mode_setFld _ (by decide) (by decide) (by decide), Mach.enterMode_mode]

theorem Mach.modeForced_byF4 (code : Nat) : (m.modeForced code).sys.holdByF4 = true := rfl

theorem Mach.holdRequest_mode : m.holdRequest.mode = .safeHold := by
  unfold Mach.holdRequest
  dsimp only
  rw [Mach.sameRules_modeCompletes.mode]
  split
  case isTrue h => exact h
  case isFalse => rw [Mach.raise_mode, Mach.mode_setBit _ (by decide) (by decide), Mach.enterMode_mode]

theorem Mach.holdRequest_of_hold (h : m.mode = .safeHold) :
    m.holdRequest = ((m.dropRequest 6).setFld Reg.SYS_MODE_STAT 6 4 5).modeCompletes := by
  unfold Mach.holdRequest
  dsimp only
  rw [if_pos (by rw [Mach.mode_setFld _ (by decide) (by decide) (by decide), (Mach.sameRules_dropRequest 6).mode, h])]

theorem Mach.sameRules_holdRequest (h : m.mode = .safeHold) : m.SameRules m.holdRequest := by
  rw [Mach.holdRequest_of_hold h]
  exact ((Mach.sameRules_dropRequest 6).trans (Mach.sameRules_setFld 5 (by decide) (by decide) (by decide))).trans
    Mach.sameRules_modeCompletes

theorem Mach.holdRequest_asks (h : m.mode = .safeHold) (hasks : m.holdRequest.AsksStandby) : m.AsksStandby := by
  rw [Mach.holdRequest_of_hold h] at hasks
  rcases hasks with hpending | hheld
  · rw [Mach.pendingTarget_of_not_pending Mach.modeCompletes_not_pending] at hpending
    exact absurd hpending (by decide)
  · have hdropped : (m.dropRequest 6).sys.held = some 1 := hheld
    unfold Mach.dropRequest at hdropped
    split at hdropped
    · exact absurd hdropped.symm (Option.some_ne_none 1)
    · exact .inr hdropped

/-! ### The boundary's step 1 -/

/-- R474, R475: the mode is `t` after the boundary. -/
def Mach.FixedMove (m : Mach) (t : Mode) : Prop :=
  t = m.mode ∨ t = .safeHold ∨
  (m.mode = .standby ∧ t = .sleep ∧ m.idleCond = true ∧ m.flashBusy = false) ∨
  (m.mode = .standby ∧ t = .drive) ∨
  (m.mode = .standby ∧ t = .charge ∧ m.act.engaged = true) ∨
  (m.mode = .standby ∧ t = .service) ∨
  (m.mode = .drive ∧ t = .standby) ∨
  (m.mode = .drive ∧ t = .charge ∧ m.act.engaged = true) ∨
  (m.mode = .charge ∧ t = .standby) ∨
  (m.mode = .charge ∧ t = .drive) ∨
  (m.mode = .service ∧ t = .standby) ∨
  (m.mode = .safeHold ∧ t = .standby ∧ m.sys.f4 = none ∧ m.sys.holdByF4 = false ∧ m.safeStarted = true ∧
    m.holdsReleased = true ∧ (m.live .a = true ∨ m.live .b = true) ∧ (m.pendingTarget = 1 ∨ m.sys.held = some 1))

theorem Mach.fixedMove_of_allowed {t : Mode} (h : m.modeAllowed m.mode.code t.code = true)
    (hleave : m.mode = .safeHold → t = .safeHold ∨ (m.sys.f4 = none ∧ m.AsksStandby ∧ m.HoldOver)) : m.FixedMove t := by
  unfold Mach.FixedMove
  cases hm : m.mode
  case safeHold =>
    rcases hleave hm with rfl | ⟨hf4, hasks, hby, hstarted, hreleased, hlive⟩
    · simp
    · rw [hm] at h
      cases t <;> simp_all [Mach.modeAllowed, Mode.code, Mach.AsksStandby]
  all_goals
    rw [hm] at h
    cases t <;> simp_all [Mach.modeAllowed, Mode.code]

theorem Mach.modeStep_fixedMove (ign hold : Bool) : m.FixedMove (m.modeStep ign hold).mode := by
  unfold Mach.modeStep
  change Mach.FixedMove (m.onSys fun s => { s with changed := false }) _
  dsimp only
  generalize m.onSys (fun s => { s with changed := false }) = m
  split
  case h_1 code hf4 =>
    split
    case isTrue hhold =>
      refine .inr (.inl ?_)
      rcases Mach.modeTick_permits (m := m.modeForced code) ign with hstay | ⟨-, hleave⟩
      · rw [hstay, Mach.modeForced_mode]
      · rcases hleave (Mach.modeForced_mode code) with hback | ⟨-, hover⟩
        · exact hback
        · exact absurd (hover.byRequest.symm.trans (Mach.modeForced_byF4 code)) (by decide)
    case isFalse => exact .inr (.inl (Mach.modeForced_mode code))
  case h_2 hf4 =>
    split
    case isTrue =>
      rcases Mach.modeTick_permits (m := m) ign with hstay | ⟨hallowed, hleave⟩
      · exact .inl hstay
      · exact Mach.fixedMove_of_allowed hallowed fun hmode => (hleave hmode).imp_right fun h => ⟨hf4, h⟩
    case isFalse =>
      split
      case isTrue hmode =>
        have hrules := Mach.sameRules_holdRequest hmode
        rcases Mach.modeTick_permits (m := m.holdRequest) ign with hstay | ⟨hallowed, hleave⟩
        · exact .inl (hstay.trans hrules.mode)
        · rw [hrules.modeAllowed_eq, hrules.mode] at hallowed
          exact Mach.fixedMove_of_allowed hallowed fun _ => (hleave Mach.holdRequest_mode).imp_right fun ⟨hasks, hover⟩ =>
            ⟨hf4, Mach.holdRequest_asks hmode hasks, hrules.holdOver hover⟩
      case isFalse => exact .inr (.inl Mach.holdRequest_mode)

variable {mem : List Host.Cell}

theorem Mach.logOpen_modeStat : (m.logOpen mem).1.rd Reg.SYS_MODE_STAT = m.rd Reg.SYS_MODE_STAT := by
  unfold Mach.logOpen
  split
  · rfl
  · rfl

theorem Mach.logAppend_modeStat (ok : Bool) (kind detail old new : Nat) :
    (m.logAppend mem ok kind detail old new).1.rd Reg.SYS_MODE_STAT = m.rd Reg.SYS_MODE_STAT := by
  rw [← m.logOpen_modeStat (mem := mem)]
  unfold Mach.logAppend
  generalize m.logOpen mem = opened
  dsimp only
  split
  · exact Mach.rd_wr_other _ _ (by decide)
  · exact (Mach.rd_orr ..).trans (if_neg (by decide))

theorem Mach.sessionClosed_modeStat :
    (((m.setSess 0).raise 0x400E 0).safeIrq 5).rd Reg.SYS_MODE_STAT = m.rd Reg.SYS_MODE_STAT := by
  rw [Mach.safeIrq, Mach.rd_orr, if_neg (by decide), Mach.raise_rd, Mach.setSess, Mach.rd_setBit, if_neg (by decide), Mach.rd_setBit,
    if_neg (by decide), Mach.rd_setFld, if_neg (by decide)]

theorem Mach.endSession_modeStat (ok : Bool) (detail : Nat) :
    (m.endSession mem ok detail).1.rd Reg.SYS_MODE_STAT = m.rd Reg.SYS_MODE_STAT := by
  unfold Mach.endSession
  split
  · rfl
  · exact Mach.sessionClosed_modeStat.trans (Mach.logAppend_modeStat ..)

theorem Mach.boundaryMode_mode (n : Nat) (env : BoundaryIn) : ∃ hold : Bool, (m.boundaryMode mem n env).1.mode = (m.modeStep env.wakeIn0 hold).mode := by
  refine ⟨(m.dueEntries n).any fun e => e.kind == 1 && e.addr == Reg.SYS_MODE_REQ && e.value % 8 == 5, ?_⟩
  unfold Mach.boundaryMode Mach.modeSession
  dsimp only
  split
  · exact Mach.mode_congr (Mach.endSession_modeStat ..)
  · rfl

end

/-- Settles O13: an F4 event and a request for SAFE_HOLD force the mode, and any other tick takes it along a row that R474 permits. -/
theorem theModeMovesOnlyAlongFixedTransitions : Obligations.TheModeMovesOnlyAlongFixedTransitions := by
  intro m mem n env
  obtain ⟨hold, hmode⟩ := Mach.boundaryMode_mode (m := m) (mem := mem) n env
  dsimp only
  rw [hmode]
  exact Mach.modeStep_fixedMove env.wakeIn0 hold

end Sys2Proof.Machine
end

section
/-! A write of the service lane to a duty of its own (R300, R302), and the IMG commands that take it: keys (R448). -/

namespace Sys2Proof.Machine

/-! ### Duties of the service lane (R300, R302) -/

section
variable {s : State} {cyc : Nat} {f : Mach → List Host.Cell → Mach × List Host.Cell} {m : Mach} {regs : List Nat} {es : List Event}

/-- A command with the memory at hand that leaves every byte. -/
theorem runMem_makes (hf : f (s.at cyc) s.mem = (m, s.mem)) (h : (s.at cyc).FocTells regs es m) :
    ∃ t, runMem s cyc f = .next t ∧ t.m = m.settle ∧ SameRegsBut s t regs ∧ SameMemory s t ∧ Raises s t es := by
  obtain ⟨t, ht, hm, hmem, hregs, hes⟩ := runMem_tells hf h
  exact ⟨t, ht, hm, hregs, fun a => by rw [hmem], hes⟩

theorem nothingDone_of_runMem (hf : f (s.at cyc) s.mem = (s.at cyc, s.mem)) : NothingDone s (runMem s cyc f) := by
  obtain ⟨t, ht, hm, hquiet⟩ := runMem_makes hf (Mach.FocTells.refl _ [])
  exact ⟨t, ht, by rw [hm]; rfl, by rw [hm]; rfl, hquiet⟩

theorem writeCollected_of_runMem {l : Lane} {a : Nat} {v : Word} (hf : f (s.at cyc) s.mem = ((s.at cyc).collect l a v, s.mem)) :
    WriteCollected s l a v (runMem s cyc f) := by
  obtain ⟨t, ht, hm, hquiet⟩ := runMem_makes hf ((Mach.FocTells.refl (m := s.at cyc) []).next rfl rfl fun _ => rfl)
  exact ⟨t, ht, by rw [hm]; rfl, by rw [hm]; exact congrArg LaneState.writeList (Two.get_set_self ..), hquiet⟩

theorem writeCounted_of_runMem (hf : f (s.at cyc) s.mem = ((s.at cyc).incMod Reg.LANE_NETSTAT 15 0, s.mem)) :
    WriteCounted s (runMem s cyc f) := by
  have hcount : (s.at cyc).FocTells [Reg.LANE_NETSTAT] [] ((s.at cyc).incMod Reg.LANE_NETSTAT 15 0) :=
    (Mach.FocTells.refl _ _).wr (by decide) (by decide) _
  obtain ⟨t, ht, hm, hquiet⟩ := runMem_makes hf hcount
  refine ⟨t, ht, by rw [hm]; rfl, ?_, hquiet⟩
  rw [hm, Mach.settle_fld, Mach.incMod, Mach.fld_setFld _ _ (by omega) (by omega)]
  rfl
end

section
variable {s : State} {l : Lane} {a : Nat} {v : Word}

theorem Mach.serviceMem_now (h : DutyNow s l) (cyc : Nat) (eff : Mach → Mach × List Host.Cell) :
    (s.at cyc).serviceMem s.mem (.lane l) a v eff = eff (s.at cyc) := by
  obtain ⟨hpair, hserv, hadm⟩ := h
  have hs : ((s.at cyc).service == l && ((s.at cyc).admitted l || !(s.at cyc).tick.running)) = true := by
    change (s.m.service == l && (s.m.admitted l || !s.m.tick.running)) = true
    rcases hadm with h | h <;> simp [hserv, h]
  have hp : ¬((s.at cyc).inTick l && (s.at cyc).pairedLive) = true := by
    change ¬(s.m.inTick l && s.m.pairedLive) = true
    simp [hpair]
  rw [Mach.serviceMem, if_neg hp, if_pos hs]

theorem dutyElsewhere_serviceMem (cyc : Nat) (eff : List Host.Cell → Mach → Mach × List Host.Cell) :
    DutyElsewhere s l a v (runMem s cyc fun m mem => m.serviceMem mem (.lane l) a v (eff mem)) := by
  refine ⟨fun ht hp => writeCollected_of_runMem ?_, fun hp hno => writeCounted_of_runMem ?_⟩
  · have hcond : ((s.at cyc).inTick l && (s.at cyc).pairedLive) = true := by
      change (s.m.inTick l && s.m.pairedLive) = true
      rw [ht, hp]; rfl
    rw [Mach.serviceMem, if_pos hcond]
  · have hcond : ¬((s.at cyc).inTick l && (s.at cyc).pairedLive) = true := by
      change ¬(s.m.inTick l && s.m.pairedLive) = true
      rcases hp with h | h <;> simp [h]
    have hserv : ¬((s.at cyc).service == l && ((s.at cyc).admitted l || !(s.at cyc).tick.running)) = true := by
      change ¬(s.m.service == l && (s.m.admitted l || !s.m.tick.running)) = true
      rcases hno with h | ⟨h, h'⟩
      · simp [h]
      · simp [h, h']
    rw [Mach.serviceMem, if_neg hcond, if_neg hserv]

/-- A duty that touches no memory is one that leaves it. -/
theorem run_serviceWrite (s : State) (cyc : Nat) (l : Lane) (a : Nat) (v : Word) (eff : Mach → Mach) :
    (run s cyc fun m => m.serviceWrite l a v eff) =
      runMem s cyc fun m mem => m.serviceMem mem (.lane l) a v fun m => (eff m, mem) := by
  have h : ∀ m : Mach, m.serviceMem s.mem (.lane l) a v (fun m => (eff m, s.mem)) = (m.serviceWrite l a v eff, s.mem) := by
    intro m
    unfold Mach.serviceMem Mach.serviceWrite
    dsimp only
    split_ifs <;> rfl
  rw [run, runMem, h]
end

theorem Mach.FocTells.onImg {m m' : Mach} {regs : List Nat} {es : List Event} (h : m.FocTells regs es m') (g : ImgState → ImgState) :
    m.FocTells regs es (m'.onImg g) := h.next rfl rfl fun _ => rfl

/-! ### Refusal (R452, R453) -/

section
variable {s : State} {cyc : Nat} {m : Mach}

theorem Mach.FocTells.imgRefused {regs : List Nat} {es : List Event} {m₀ : Mach} (h : m₀.FocTells regs es m)
    (hreg : Reg.IMG_IRQ_STAT ∈ regs) : m₀.FocTells regs (es ++ [eventAt m₀ 0x4407 0 0xFF [] 0]) m.imgRefused :=
  (h.raise ..).orr_of_not_stamp hreg (by decide) _

theorem Mach.imgRefused_told : m.imgRefused.settle.bit Reg.IMG_IRQ_STAT 3 = true := by
  rw [Mach.settle_bit]
  exact Mach.bit_orr (i := 3) _ (by decide)

/-- A command refused, whatever else of the state it took. -/
theorem runMem_imgRefused {f : Mach → List Host.Cell → Mach × List Host.Cell} (hf : f (s.at cyc) s.mem = (m.imgRefused, s.mem))
    (h : (s.at cyc).FocTells [Reg.IMG_IRQ_STAT] [] m) (himg : m.img = s.m.img) (hdue : m.pwr.due = s.m.pwr.due) :
    ∃ t, runMem s cyc f = .next t ∧ t.m.dma = m.dma ∧ ImageRefused s t cyc := by
  obtain ⟨t, ht, hm, hregs, hmem, hes⟩ := runMem_makes hf (h.imgRefused (by decide))
  exact ⟨t, ht, by rw [hm]; rfl, hes, by rw [hm]; exact Mach.imgRefused_told, by rw [hm]; exact himg, by rw [hm]; exact hdue,
    hregs, hmem⟩
end

/-! ### Keys (R448) -/

/-- A write of the service lane to IMG_KEYCMD. -/
theorem exec_keyCommand_refused {s : State} {l : Lane} {v : Word} (h : DutyNow s l) (cyc : Nat)
    (hr : (s.at cyc).keyCommand v = (s.at cyc).imgRefused) :
    ∃ t, (run s cyc fun m => m.serviceWrite l Reg.IMG_KEYCMD v fun m => m.keyCommand v) = .next t ∧ ImageRefused s t cyc := by
  rw [run_serviceWrite]
  obtain ⟨t, ht, -, hrefused⟩ := runMem_imgRefused (s := s) (cyc := cyc)
    (f := fun m mem => m.serviceMem mem (.lane l) Reg.IMG_KEYCMD v fun m => (m.keyCommand v, mem))
    ((Mach.serviceMem_now h cyc _).trans (by rw [hr])) (Mach.FocTells.refl _ _) rfl rfl
  exact ⟨t, ht, hrefused⟩

theorem exec_keyCommand_done {s : State} {l : Lane} {v : Word} (h : DutyNow s l) (cyc : Nat) {g : ImgState → ImgState}
    (hr : (s.at cyc).keyCommand v = ((s.at cyc).onImg g).keyDone) :
    ∃ t, (run s cyc fun m => m.serviceWrite l Reg.IMG_KEYCMD v fun m => m.keyCommand v) = .next t ∧
      t.m = ((s.at cyc).onImg g).keyDone.settle ∧
      t.m.bit Reg.IMG_IRQ_STAT 3 = true ∧ Raises s t [eventAt (s.at cyc) 0x4409 0 0xFF [] 0] ∧
      SameRegsBut s t [Reg.IMG_KEYS, Reg.IMG_IRQ_STAT] ∧ SameMemory s t := by
  have htells : (s.at cyc).FocTells [Reg.IMG_KEYS, Reg.IMG_IRQ_STAT] [eventAt (s.at cyc) 0x4409 0 0xFF [] 0]
      ((s.at cyc).onImg g).keyDone :=
    ((((Mach.FocTells.refl _ _).onImg g).wr (a := Reg.IMG_KEYS) (by decide) (by decide) _).raise ..).orr_of_not_stamp (by decide)
      (by decide) _
  rw [run_serviceWrite]
  obtain ⟨t, ht, hm, hregs, hmem, hes⟩ := runMem_makes (s := s) (cyc := cyc)
    (f := fun m mem => m.serviceMem mem (.lane l) Reg.IMG_KEYCMD v fun m => (m.keyCommand v, mem))
    ((Mach.serviceMem_now h cyc _).trans (by rw [hr])) htells
  refine ⟨t, ht, hm, ?_, hes, hregs, hmem⟩
  rw [hm, Mach.settle_bit]
  exact Mach.bit_orr (i := 3) _ (by decide)

/-- The slots as IMG_KEYS and its field of revocations show them (R461). -/
def slotBits (l : List Bool) : Nat := (l.mapIdx fun i b => if b then 2 ^ i else 0).sum

theorem slotBits_three (a b c : Bool) : slotBits [a, b, c] = a.toNat + 2 * b.toNat + 4 * c.toNat := by
  cases a <;> cases b <;> cases c <;> rfl

theorem Word.bit_ofNat (n : Nat) {i : Nat} (hi : i < 32) : Word.bit (BitVec.ofNat 32 n) i = decide (n / 2 ^ i % 2 = 1) := by
  rw [Word.bit, BitVec.toNat_ofNat, Nat.testBit_mod_two_pow, Nat.testBit_eq_decide_div_mod_eq]
  simp [hi]

section
variable {m : Mach} {g : ImgState → ImgState}

theorem Mach.keyDone_bit {i : Nat} (hi : i < 32) : m.keyDone.settle.bit Reg.IMG_KEYS i =
    decide ((slotBits (m.img.keys.map (·.isSome)) * 2 + slotBits m.img.revoked * 32) / 2 ^ i % 2 = 1) := by
  rw [Mach.settle_bit, ← Word.bit_ofNat _ hi]
  unfold Mach.bit
  congr 1

theorem slotBits_bit {l : List Bool} {k : Nat} (hlen : l.length = 3) (hk : l[k]? = some true) :
    slotBits l < 8 ∧ slotBits l / 2 ^ k % 2 = 1 := by
  match l, hlen with
  | [a, b, c], _ =>
    have ha := Bool.toNat_lt a
    have hb := Bool.toNat_lt b
    have hc := Bool.toNat_lt c
    rw [slotBits_three]
    match k, hk with
    | 0, hk | 1, hk | 2, hk =>
      simp only [List.getElem?_cons_succ, List.getElem?_cons_zero, Option.some.injEq] at hk
      subst hk
      simp only [Bool.toNat_true] at *
      omega

theorem Mach.keyDone_shows_key {k : Nat} {h : List Nat} (hlen : m.img.keys.length = 3) (hk : m.img.keys[k]? = some (some h)) :
    m.keyDone.settle.bit Reg.IMG_KEYS (k + 1) = true := by
  have hk3 : k < 3 := hlen ▸ (List.getElem?_eq_some_iff.1 hk).1
  obtain ⟨hlt, hbit⟩ := slotBits_bit (l := m.img.keys.map (·.isSome)) (k := k) (by simpa using hlen) (by simp [hk])
  rw [Mach.keyDone_bit (by omega), decide_eq_true_iff]
  generalize slotBits (m.img.keys.map (·.isSome)) = x at *
  generalize slotBits m.img.revoked = y
  interval_cases k <;> omega

theorem Mach.keyDone_shows_revoked {k : Nat} (hlen : m.img.keys.length = 3) (hrev : m.img.revoked.length = 3)
    (hk : m.img.revoked[k]? = some true) : m.keyDone.settle.bit Reg.IMG_KEYS (k + 5) = true := by
  have hk3 : k < 3 := hrev ▸ (List.getElem?_eq_some_iff.1 hk).1
  obtain ⟨hlt, hbit⟩ := slotBits_bit hrev hk
  have hx : slotBits (m.img.keys.map (·.isSome)) < 8 := by
    match m.img.keys, hlen with
    | [a, b, c], _ =>
      have ha := Bool.toNat_lt a.isSome
      have hb := Bool.toNat_lt b.isSome
      have hc := Bool.toNat_lt c.isSome
      rw [List.map_cons, List.map_cons, List.map_cons, List.map_nil, slotBits_three]
      omega
  rw [Mach.keyDone_bit (by omega), decide_eq_true_iff]
  generalize slotBits (m.img.keys.map (·.isSome)) = x at *
  generalize slotBits m.img.revoked = y at *
  interval_cases k <;> omega
end

/-! ### What a command of a key slot does (R448) -/

section
variable {m : Mach} {v : Word} {k : Nat}

theorem bits_withBits_cmd (v : Word) (c : Nat) :
    (v.withBits 31 28 c).bits 1 0 = v.bits 1 0 ∧ (v.withBits 31 28 c).bits 31 28 = c % 16 :=
  ⟨v.bits_withBits_other c (by decide) (by decide) (by decide) (.inl (by decide)), v.bits_withBits c (by decide) (by decide)⟩

theorem Mach.keyCommand_barred (h : m.sess ≠ 2 ∨ v.bits 1 0 = 0) : m.keyCommand v = m.imgRefused := by
  rw [Mach.keyCommand, if_pos]
  rcases h with h | h
  · exact .inr (by simpa [Mach.sessOpen] using h)
  · exact .inl h

variable (hs : m.sess = 2) (hv : v.bits 1 0 = k + 1)
include hs hv

theorem Mach.keyCommand_not_barred : ¬(v.bits 1 0 = 0 ∨ m.sessOpen = false) := by
  simp [hv, Mach.sessOpen, hs]

theorem Mach.keyCommand_program (hc : v.bits 31 28 = 1) (hk : nth m.img.keys k = none) :
    m.keyCommand v = (m.onImg fun g => { g with keys := upd g.keys k fun _ => some m.keyBuf }).keyDone := by
  rw [Mach.keyCommand, if_neg (Mach.keyCommand_not_barred hs hv), hv, Nat.add_sub_cancel, hc, hk]
  rfl

theorem Mach.keyCommand_program_again {h : List Nat} (hc : v.bits 31 28 = 1) (hk : nth m.img.keys k = some h) :
    m.keyCommand v = m.imgRefused := by
  rw [Mach.keyCommand, if_neg (Mach.keyCommand_not_barred hs hv), hv, Nat.add_sub_cancel, hc, hk]
  rfl

theorem Mach.keyCommand_revoke_blank (hc : v.bits 31 28 = 2) (hk : nth m.img.keys k = none) : m.keyCommand v = m.imgRefused := by
  rw [Mach.keyCommand, if_neg (Mach.keyCommand_not_barred hs hv), hv, Nat.add_sub_cancel, hc, hk]
  rfl

theorem Mach.keyCommand_revoke {h : List Nat} (hc : v.bits 31 28 = 2) (hk : nth m.img.keys k = some h) :
    m.keyCommand v = if m.fld Reg.IMG_STATUS 23 22 = k + 1 then m.imgRefused
      else (m.onImg fun g => { g with revoked := upd g.revoked k fun _ => true }).keyDone := by
  rw [Mach.keyCommand, if_neg (Mach.keyCommand_not_barred hs hv), hv, Nat.add_sub_cancel, hc, hk]
  rfl
end

/-- Settles O55: each command by its code, the session and what its slot holds, and by the routing of a duty of the service lane. -/
theorem keysAreProgrammedOnceAndRevoked : Obligations.KeysAreProgrammedOnceAndRevoked := by
  intro cyc l v s
  obtain ⟨hslotP, hcmdP⟩ := bits_withBits_cmd v 1
  obtain ⟨hslotR, hcmdR⟩ := bits_withBits_cmd v 2
  refine ⟨fun hnow k hs hv => ⟨fun hk => ?_, fun h hk => ?_⟩, fun hnow hbar => ?_, ?_, ?_, nothingDone_of_run (f := id) rfl,
    nothingDone_of_run (f := id) rfl⟩
  · have hblank : nth (s.at cyc).img.keys k = none := by
      change nth s.m.img.keys k = none
      simp [nth, List.getD_eq_getElem?_getD, hk]
    have hprog := Mach.keyCommand_program (m := s.at cyc) hs (hslotP.trans hv) hcmdP hblank
    obtain ⟨t, ht, hm, hdone⟩ := exec_keyCommand_done hnow cyc hprog
    refine ⟨⟨t, ht, by rw [hm]; rfl, fun hlen => ?_, hdone⟩,
      exec_keyCommand_refused hnow cyc (Mach.keyCommand_revoke_blank (m := s.at cyc) hs (hslotR.trans hv) hcmdR hblank)⟩
    rw [hm]
    refine Mach.keyDone_shows_key (h := (s.at cyc).keyBuf) ((List.length_modify ..).trans hlen) ?_
    change (upd s.m.img.keys k _)[k]? = _
    simp [upd, hk]
  · have hheld : nth (s.at cyc).img.keys k = some h := by
      change nth s.m.img.keys k = some h
      simp [nth, List.getD_eq_getElem?_getD, hk]
    have hrev := Mach.keyCommand_revoke (m := s.at cyc) hs (hslotR.trans hv) hcmdR hheld
    refine ⟨exec_keyCommand_refused hnow cyc (Mach.keyCommand_program_again (m := s.at cyc) hs (hslotP.trans hv) hcmdP hheld),
      fun hsigned => ?_, fun hsigned => exec_keyCommand_refused hnow cyc (hrev.trans (if_pos hsigned))⟩
    obtain ⟨t, ht, hm, hdone⟩ := exec_keyCommand_done hnow cyc (hrev.trans (if_neg hsigned))
    refine ⟨t, ht, by rw [hm]; rfl, fun hlen hlenr => ?_, hdone⟩
    have hk3 : k < s.m.img.revoked.length := by
      rw [hlenr, ← hlen]
      exact (List.getElem?_eq_some_iff.1 hk).1
    rw [hm]
    refine Mach.keyDone_shows_revoked hlen ((List.length_modify ..).trans hlenr) ?_
    change (upd s.m.img.revoked k _)[k]? = _
    simp [upd, hk3]
  · have hbarP : (s.at cyc).sess ≠ 2 ∨ (v.withBits 31 28 1).bits 1 0 = 0 := hbar.imp_right hslotP.trans
    have hbarR : (s.at cyc).sess ≠ 2 ∨ (v.withBits 31 28 2).bits 1 0 = 0 := hbar.imp_right hslotR.trans
    exact ⟨exec_keyCommand_refused hnow cyc (Mach.keyCommand_barred hbarP),
      exec_keyCommand_refused hnow cyc (Mach.keyCommand_barred hbarR)⟩
  · have h := dutyElsewhere_serviceMem (s := s) (l := l) (a := Reg.IMG_KEYCMD) (v := v.withBits 31 28 1) cyc
      fun mem m => (m.keyCommand (v.withBits 31 28 1), mem)
    rwa [← run_serviceWrite] at h
  · have h := dutyElsewhere_serviceMem (s := s) (l := l) (a := Reg.IMG_KEYCMD) (v := v.withBits 31 28 2) cyc
      fun mem m => (m.keyCommand (v.withBits 31 28 2), mem)
    rwa [← run_serviceWrite] at h

end Sys2Proof.Machine
end

section
/-! Staging (R451): what BEGIN, the end of the erase and the pages of a transfer do to the stage, to IMG_PROG and to flash. -/

namespace Sys2Proof.Machine

/-! ### Flash (R350, R449) -/

theorem Memory.read_nil_flash {a : Nat} (h : 0x200000000 ≤ a) (h' : a < 0x208000000) : Memory.read [] a = 0xFF#8 := by
  have hreg : regionOf a = .flash := by
    unfold regionOf
    grind
  exact if_pos hreg

theorem Memory.readN_writeL {mem : List Host.Cell} (h : Memory.wf mem = true) (a : Nat) (l : List Nat) :
    Memory.readN (Memory.writeL mem a l) a l.length = l.map (· % 256) := by
  refine List.ext_getElem (by simp [Memory.readN]) fun i hi _ => ?_
  have hl : i < l.length := by simpa [Memory.readN] using hi
  simp only [Memory.readN, List.getElem_map, List.getElem_range, Memory.read_writeL h a hl]
  simp [nth, hl]

/-- A range erased and then written at its start is unchanged outside both. -/
theorem Memory.read_writeL_clear_other {mem : List Host.Cell} (h : Memory.wf mem = true) {a e b : Nat} (l : List Nat)
    (hclear : b < a ∨ e ≤ b) (hwrite : b < a ∨ a + l.length ≤ b) :
    Memory.read (Memory.writeL (Memory.clear mem a e) a l) b = Memory.read mem b := by
  rw [Memory.read_writeL_other (Memory.clear_wf h a e) l hwrite, Memory.read_clear, if_neg (by omega)]

/-! ### The stage (R451, R461) -/

section
variable {m m₀ : Mach} {regs : List Nat} {es : List Event}

theorem Mach.FocTells.onDma (h : m₀.FocTells regs es m) (g : DmaState → DmaState) : m₀.FocTells regs es (m.onDma g) :=
  h.next rfl rfl fun _ => rfl

theorem Mach.FocTells.setStage (h : m₀.FocTells regs es m) (hst : Reg.IMG_STATUS ∈ regs) (hirq : Reg.IMG_IRQ_STAT ∈ regs) (v : Nat) :
    m₀.FocTells regs es (m.setStage v) := by
  have hfld : m₀.FocTells regs es (m.setFld Reg.IMG_STATUS 31 28 v) := h.wr hst (by decide) _
  unfold Mach.setStage
  dsimp only
  split
  · exact hfld.orr_of_not_stamp hirq (by decide) _
  · exact hfld

theorem Mach.setStage_of_silent {v : Nat} (h : ¬(v = 3 ∨ v = 5)) : m.setStage v = m.setFld Reg.IMG_STATUS 31 28 v := if_neg h

/-- A stage that DONE does not tell leaves IMG_IRQ_STAT. -/
theorem Mach.FocTells.setStage_silent (h : m₀.FocTells regs es m) (hst : Reg.IMG_STATUS ∈ regs) {v : Nat} (hv : ¬(v = 3 ∨ v = 5)) :
    m₀.FocTells regs es (m.setStage v) := by
  rw [Mach.setStage_of_silent hv]
  exact h.wr hst (by decide) _

theorem Mach.stage_congr {m' : Mach} (h : m'.rd Reg.IMG_STATUS = m.rd Reg.IMG_STATUS) : m'.stage = m.stage :=
  congrArg (Word.bits · 31 28) h

theorem Mach.stage_setStage {v : Nat} (hv : v < 8) : (m.setStage v).stage = v := by
  have hfld : (m.setFld Reg.IMG_STATUS 31 28 v).stage = v :=
    (m.fld_setFld v (by decide) (by decide)).trans (Nat.mod_eq_of_lt (by omega))
  unfold Mach.setStage
  dsimp only
  split
  · exact (Mach.stage_congr (Mach.rd_orr _ _ _ _)).trans hfld
  · exact hfld

theorem Mach.settle_stage : m.settle.stage = m.stage := Mach.settle_fld ..

theorem Mach.setStage_done {v : Nat} (hv : v = 3 ∨ v = 5) : (m.setStage v).bit Reg.IMG_IRQ_STAT 0 = true := by
  have h : m.setStage v = (m.setFld Reg.IMG_STATUS 31 28 v).imgIrq 0 := if_pos hv
  rw [h]
  exact Mach.bit_orr (i := 0) _ (by decide)

theorem Mach.FocTells.imgFlashFailed (h : m₀.FocTells regs es m) (hst : Reg.IMG_STATUS ∈ regs) (hirq : Reg.IMG_IRQ_STAT ∈ regs) :
    m₀.FocTells regs (es ++ [eventAt m₀ 0x4408 1 0xFF [] 0]) m.imgFlashFailed :=
  ((h.setStage_silent hst (by decide)).raise ..).orr_of_not_stamp hirq (by decide) _

theorem Mach.imgFlashFailed_stage : m.imgFlashFailed.stage = 7 :=
  (Mach.stage_congr (Mach.rd_orr _ _ _ _)).trans (Mach.stage_setStage (m := m) (by decide))

theorem Mach.imgFlashFailed_told : m.imgFlashFailed.bit Reg.IMG_IRQ_STAT 2 = true := Mach.bit_orr (i := 2) _ (by decide)
end

section
variable {s : State} {cyc : Nat} {f : Mach → List Host.Cell → Mach × List Host.Cell} {m : Mach} {mem : List Host.Cell}

/-- A write of flash that does not read back fails the staging. -/
theorem runMem_stagingFails {regs : List Nat} (hf : f (s.at cyc) s.mem = (m.imgFlashFailed, mem)) (h : (s.at cyc).FocTells regs [] m)
    (hst : Reg.IMG_STATUS ∈ regs) (hirq : Reg.IMG_IRQ_STAT ∈ regs) :
    ∃ t, runMem s cyc f = .next t ∧ t.m = m.imgFlashFailed.settle ∧ t.mem = mem ∧ StagingFails s t cyc ∧ SameRegsBut s t regs := by
  obtain ⟨t, ht, hm, hmem, hregs, hes⟩ := runMem_tells hf (h.imgFlashFailed hst hirq)
  refine ⟨t, ht, hm, hmem, ⟨?_, hes, ?_⟩, hregs⟩
  · rw [hm, Mach.settle_stage, Mach.imgFlashFailed_stage]
  · rw [hm, Mach.settle_bit, Mach.imgFlashFailed_told]
end

/-! ### A write of IMG_CMD (R453, R461) -/

theorem bits_withBits_imgCmd (v : Word) (c : Nat) : (v.withBits 2 0 c).bits 2 0 = c % 8 := v.bits_withBits c (by decide) (by decide)

theorem Mach.imgWrite_now {s : State} {l : Lane} (h : DutyNow s l) (cyc : Nat) (v : Word) (logOk ok : Bool) :
    (s.at cyc).imgWrite s.mem (.lane l) v logOk ok = (s.at cyc).imgCommand s.mem v logOk ok := Mach.serviceMem_now h cyc _

theorem dutyElsewhere_imgWrite (s : State) (cyc : Nat) (l : Lane) (v : Word) (logOk ok : Bool) :
    DutyElsewhere s l Reg.IMG_CMD v (runMem s cyc fun m mem => m.imgWrite mem (.lane l) v logOk ok) :=
  dutyElsewhere_serviceMem cyc fun mem m => m.imgCommand mem v logOk ok

/-- The service lane's command of IMG_CMD, refused. -/
theorem exec_imgWrite_refused {s : State} {l : Lane} (h : DutyNow s l) (cyc : Nat) {v : Word} {logOk ok : Bool}
    (hr : (s.at cyc).imgCommand s.mem v logOk ok = ((s.at cyc).imgRefused, s.mem)) :
    ∃ t, (runMem s cyc fun m mem => m.imgWrite mem (.lane l) v logOk ok) = .next t ∧ ImageRefused s t cyc := by
  obtain ⟨t, ht, -, hrefused⟩ := runMem_imgRefused (f := fun m mem => m.imgWrite mem (.lane l) v logOk ok)
    ((Mach.imgWrite_now h cyc v logOk ok).trans hr) (Mach.FocTells.refl _ _) rfl rfl
  exact ⟨t, ht, hrefused⟩

/-- The service lane's command of IMG_CMD, taken without a word to memory. -/
theorem exec_imgWrite_makes {s : State} {l : Lane} (h : DutyNow s l) (cyc : Nat) {v : Word} {logOk ok : Bool} {m : Mach}
    {regs : List Nat} {es : List Event} (hr : (s.at cyc).imgCommand s.mem v logOk ok = (m, s.mem)) (ht : (s.at cyc).FocTells regs es m) :
    ∃ t, (runMem s cyc fun m mem => m.imgWrite mem (.lane l) v logOk ok) = .next t ∧ t.m = m.settle ∧
      SameRegsBut s t regs ∧ SameMemory s t ∧ Raises s t es :=
  runMem_makes (f := fun m mem => m.imgWrite mem (.lane l) v logOk ok) ((Mach.imgWrite_now h cyc v logOk ok).trans hr) ht

theorem Mach.imgCommand_begin (m : Mach) (mem : List Host.Cell) (v : Word) (logOk ok : Bool) :
    m.imgCommand mem (v.withBits 2 0 1) logOk ok = (m.imgBegin, mem) := by
  rw [Mach.imgCommand, bits_withBits_imgCmd]
  rfl

/-! ### BEGIN (R451) -/

section
variable {s : State}

/-- BEGIN is accepted. -/
abbrev BeginTaken (s : State) : Prop := (s.m.stage = 0 ∨ s.m.stage = 7) ∧ 64 ≤ s.m.imgLen ∧ s.m.imgLen ≤ 33554432 ∧ s.m.mode ≠ .sleep

theorem beginTaken_iff (cyc : Nat) : ((s.at cyc).canBegin && (s.at cyc).mode != .sleep) = true ↔ BeginTaken s := by
  change (s.m.canBegin && s.m.mode != .sleep) = true ↔ _
  simp [Mach.canBegin, BeginTaken, and_assoc]

theorem exec_imageBegin_taken {l : Lane} (cyc : Nat) (v : Word) (h : DutyNow s l) (htaken : BeginTaken s) :
    ∃ t, exec (.imageBegin cyc (.lane l) v) s = .next t ∧ t.m.stage = 1 ∧ t.m.rd Reg.IMG_PROG = 0#32 ∧
      Quiet s t [Reg.IMG_STATUS, Reg.IMG_PROG] := by
  have htells : (s.at cyc).FocTells [Reg.IMG_STATUS, Reg.IMG_PROG] [] (((s.at cyc).setStage 1).wr Reg.IMG_PROG 0#32) :=
    ((Mach.FocTells.refl _ _).setStage_silent (by decide) (by decide)).wr (by decide) (by decide) _
  have hbegin : (s.at cyc).imgBegin = ((s.at cyc).setStage 1).wr Reg.IMG_PROG 0#32 := if_pos ((beginTaken_iff cyc).2 htaken)
  obtain ⟨t, ht, hm, hquiet⟩ := exec_imgWrite_makes h cyc (v := v.withBits 2 0 1) (logOk := true) (ok := true)
    ((Mach.imgCommand_begin ..).trans (by rw [hbegin])) htells
  refine ⟨t, ht, ?_, ?_, hquiet⟩
  · rw [hm, Mach.settle_stage, Mach.stage_congr (Mach.rd_wr_other _ _ (by decide)), Mach.stage_setStage (by decide)]
  · rw [hm, Mach.settle_rd, Mach.rd_wr, if_pos rfl]

theorem exec_imageBegin_refused {l : Lane} (cyc : Nat) (v : Word) (h : DutyNow s l) (hnot : ¬BeginTaken s) :
    ∃ t, exec (.imageBegin cyc (.lane l) v) s = .next t ∧ ImageRefused s t cyc := by
  have hbegin : (s.at cyc).imgBegin = (s.at cyc).imgRefused := if_neg fun hc => hnot ((beginTaken_iff cyc).1 hc)
  exact exec_imgWrite_refused h cyc ((Mach.imgCommand_begin ..).trans (by rw [hbegin]))
end

/-! ### The end of the erase (R451) -/

section
variable (s : State) (cyc : Nat)

/-- The first byte of the staging bank. -/
abbrev stagingBase (s : State) : Nat := 0x200000000 + 0x2000000 * (1 - s.m.bank)

theorem stagingBase_bounds (s : State) : 0x200000000 ≤ stagingBase s ∧ stagingBase s ≤ 0x202000000 := by
  unfold stagingBase
  omega

/-- The blocks of the staging bank that an image takes. -/
abbrev stagingBlocks (s : State) : Nat := (s.m.imgLen + 65535) / 65536 * 65536

theorem eraseComplete_ok (h : s.m.stage = 1) : (s.at cyc).eraseComplete s.mem true =
    ((s.at cyc).setStage 2, Memory.clear s.mem (stagingBase s) (stagingBase s + stagingBlocks s)) := if_neg (not_not.2 h)

theorem eraseComplete_fails (h : s.m.stage = 1) : (s.at cyc).eraseComplete s.mem false =
    (((s.at cyc).freeBytes 256).2.imgFlashFailed,
      Memory.writeL (Memory.clear s.mem (stagingBase s) (stagingBase s + stagingBlocks s)) (stagingBase s)
        ((s.at cyc).freeBytes 256).1) := if_neg (not_not.2 h)

variable {s}

theorem exec_stagingEraseComplete_ok (h : s.m.stage = 1) (hn : stagingBlocks s ≤ 0x2000000) :
    ∃ t, exec (.stagingEraseComplete cyc true) s = .next t ∧ t.m.stage = 2 ∧
      (∀ b, stagingBase s ≤ b → b < stagingBase s + stagingBlocks s → Memory.read t.mem b = 0xFF#8) ∧
      (∀ b, b < stagingBase s ∨ stagingBase s + stagingBlocks s ≤ b → Memory.read t.mem b = Memory.read s.mem b) ∧
      SameRegsBut s t [Reg.IMG_STATUS] ∧ Raises s t [] := by
  obtain ⟨t, ht, hm, hmem, hregs, hes⟩ := runMem_tells (f := fun m mem => m.eraseComplete mem true) (eraseComplete_ok s cyc h)
    ((Mach.FocTells.refl _ [Reg.IMG_STATUS]).setStage_silent (by decide) (by decide))
  have hbank := stagingBase_bounds s
  refine ⟨t, ht, ?_, fun b hlo hhi => ?_, fun b hb => ?_, hregs, hes⟩
  · rw [hm, Mach.settle_stage, Mach.stage_setStage (by decide)]
  · rw [hmem, Memory.read_clear, if_pos ⟨hlo, hhi⟩, Memory.read_nil_flash] <;> omega
  · rw [hmem, Memory.read_clear, if_neg (by omega)]

theorem exec_stagingEraseComplete_fails (hwf : Memory.wf s.mem = true) (h : s.m.stage = 1) :
    ∃ t, exec (.stagingEraseComplete cyc false) s = .next t ∧ StagingFails s t cyc ∧
      (∀ b, b < stagingBase s ∨ stagingBase s + max (stagingBlocks s) 256 ≤ b → Memory.read t.mem b = Memory.read s.mem b) ∧
      SameRegsBut s t [Reg.IMG_STATUS, Reg.IMG_IRQ_STAT] := by
  obtain ⟨t, ht, -, hmem, hfails, hregs⟩ := runMem_stagingFails (f := fun m mem => m.eraseComplete mem false)
    (eraseComplete_fails s cyc h) ((Mach.FocTells.refl _ [Reg.IMG_STATUS, Reg.IMG_IRQ_STAT]).spend 256) (by decide) (by decide)
  refine ⟨t, ht, hfails, fun b hb => ?_, hregs⟩
  have hlen : ((s.at cyc).freeBytes 256).1.length = 256 := Mach.length_freeBytes _ _
  rw [hmem, Memory.read_writeL_clear_other hwf _ (by omega) (by omega)]

theorem exec_stagingEraseComplete_idle (h : s.m.stage ≠ 1) (ok : Bool) :
    ∃ t, exec (.stagingEraseComplete cyc ok) s = .next t ∧ Quiet s t [] := by
  obtain ⟨t, ht, -, hquiet⟩ := runMem_makes (f := fun m mem => m.eraseComplete mem ok) (if_pos h) (Mach.FocTells.refl (s.at cyc) [])
  exact ⟨t, ht, hquiet⟩
end

/-! ### A transfer (R451) -/

section
variable {s : State} (cyc : Nat) {l : Lane} {r : Nat} {x : PortData}

/-- The state's data of port 5 that a ring of a lane holds for staging. -/
abbrev stagingData (s : State) (l : Lane) (r : Nat) : Option PortData := s.m.dma.port5.find? fun x => x.lane == l && x.ring == r

/-- A transfer goes on at IMG_PROG in whole pages, or ends the image. -/
abbrev TransferFits (s : State) (x : PortData) : Prop :=
  x.param = (s.m.rd Reg.IMG_PROG).toNat ∧ (s.m.rd Reg.IMG_PROG).toNat % 256 = 0 ∧ 0 < x.bytes.length ∧
    (s.m.rd Reg.IMG_PROG).toNat + x.bytes.length ≤ s.m.imgLen ∧
    (x.bytes.length % 256 = 0 ∨ (s.m.rd Reg.IMG_PROG).toNat + x.bytes.length = s.m.imgLen)

/-- The machine once the data of port 5 is taken. -/
def Mach.tookData (m : Mach) (x : PortData) : Mach := m.onDma fun d => { d with port5 := d.port5.erase x }

theorem transferFits_iff : ((s.at cyc).tookData x).transferFits x.param x.bytes.length = true ↔ TransferFits s x := by
  change s.m.transferFits x.param x.bytes.length = true ↔ _
  simp only [Mach.transferFits, Bool.and_eq_true, Bool.or_eq_true, beq_iff_eq, decide_eq_true_eq, TransferFits]
  constructor
  · rintro ⟨⟨⟨⟨hp, hpage⟩, hpos⟩, hle⟩, hlast⟩
    exact ⟨hp, hp ▸ hpage, hpos, hle, hlast⟩
  · rintro ⟨hp, hpage, hpos, hle, hlast⟩
    exact ⟨⟨⟨⟨hp, hp ▸ hpage⟩, hpos⟩, hle⟩, hlast⟩

/-- The machine after pages that read back: IMG_PROG past them, and receiving ended with the image's last. -/
def Mach.pagesProgrammed (m : Mach) (n : Nat) : Mach :=
  let m' := m.wrN Reg.IMG_PROG ((m.rd Reg.IMG_PROG).toNat + n)
  if (m.rd Reg.IMG_PROG).toNat + n = m.imgLen then m'.setStage 3 else m'

theorem Mach.stagePages_ok (m : Mach) (mem : List Host.Cell) (data : List Nat) : m.stagePages mem data true =
    (m.pagesProgrammed data.length, Memory.writeL mem (bankBase m.stagingBank + (m.rd Reg.IMG_PROG).toNat) data) := by
  have hlen : (m.wrN Reg.IMG_PROG ((m.rd Reg.IMG_PROG).toNat + data.length)).imgLen = m.imgLen :=
    congrArg BitVec.toNat (m.rd_wr_other _ (by decide))
  unfold Mach.stagePages Mach.pagesProgrammed
  dsimp only
  rw [if_pos rfl, hlen]

section
variable {m m₀ : Mach} {regs : List Nat} {es : List Event} {n : Nat}

theorem Mach.FocTells.pagesProgrammed (h : m₀.FocTells regs es m) (hst : Reg.IMG_STATUS ∈ regs) (hprog : Reg.IMG_PROG ∈ regs)
    (hirq : Reg.IMG_IRQ_STAT ∈ regs) (n : Nat) : m₀.FocTells regs es (m.pagesProgrammed n) := by
  have hwr : m₀.FocTells regs es (m.wrN Reg.IMG_PROG ((m.rd Reg.IMG_PROG).toNat + n)) := h.wr hprog (by decide) _
  unfold Mach.pagesProgrammed
  dsimp only
  split
  · exact hwr.setStage hst hirq 3
  · exact hwr

theorem Mach.pagesProgrammed_dma (m : Mach) (n : Nat) : (m.pagesProgrammed n).dma = m.dma := by
  unfold Mach.pagesProgrammed
  dsimp only
  split <;> rfl

theorem Mach.pagesProgrammed_prog :
    (m.pagesProgrammed n).rd Reg.IMG_PROG = BitVec.ofNat 32 ((m.rd Reg.IMG_PROG).toNat + n) := by
  have hwr := Mach.rd_wrN m Reg.IMG_PROG Reg.IMG_PROG ((m.rd Reg.IMG_PROG).toNat + n)
  unfold Mach.pagesProgrammed
  dsimp only
  split
  · exact (((Mach.FocTells.refl _ [Reg.IMG_STATUS, Reg.IMG_IRQ_STAT]).setStage (by decide) (by decide) 3).rd _ (by decide)).trans hwr
  · exact hwr

theorem Mach.pagesProgrammed_stage :
    (m.pagesProgrammed n).stage = if (m.rd Reg.IMG_PROG).toNat + n = m.imgLen then 3 else m.stage := by
  unfold Mach.pagesProgrammed
  dsimp only
  split
  · exact Mach.stage_setStage (by decide)
  · exact Mach.stage_congr (m.rd_wr_other _ (by decide))

theorem Mach.pagesProgrammed_done (h : (m.rd Reg.IMG_PROG).toNat + n = m.imgLen) :
    (m.pagesProgrammed n).bit Reg.IMG_IRQ_STAT 0 = true := by
  have hlast : m.pagesProgrammed n = (m.wrN Reg.IMG_PROG ((m.rd Reg.IMG_PROG).toNat + n)).setStage 3 := if_pos h
  rw [hlast]
  exact Mach.setStage_done (.inl rfl)
end

variable (hx : stagingData s l r = some x)
include hx

/-- A transfer that does not wait is taken; what comes of it goes by the stage. -/
theorem pageProgram_taken (h : s.m.stage ≠ 1) (ok : Bool) : (s.at cyc).pageProgram s.mem l r ok =
    if s.m.stage ≠ 2 then (((s.at cyc).tookData x).imgRefused, s.mem)
    else if ((s.at cyc).tookData x).transferFits x.param x.bytes.length then ((s.at cyc).tookData x).stagePages s.mem x.bytes ok
    else ((((s.at cyc).tookData x).setStage 7).imgRefused, s.mem) := by
  have hx' : ((s.at cyc).dma.port5.find? fun x => x.lane == l && x.ring == r) = some x := hx
  rw [Mach.pageProgram, hx']
  exact if_neg h

theorem pageProgram_programs (h : s.m.stage = 2) (hfits : TransferFits s x) (ok : Bool) :
    (s.at cyc).pageProgram s.mem l r ok = ((s.at cyc).tookData x).stagePages s.mem x.bytes ok := by
  rw [pageProgram_taken cyc hx (by omega), if_neg (not_not.2 h), if_pos ((transferFits_iff cyc).2 hfits)]

omit hx
theorem exec_imagePageProgram_ok {r : Fin 16} (hx : stagingData s l r.val = some x) (hwf : Memory.wf s.mem = true) (h : s.m.stage = 2)
    (hfits : TransferFits s x) :
    ∃ t, exec (.imagePageProgram cyc l r true) s = .next t ∧ t.m.dma = { s.m.dma with port5 := s.m.dma.port5.erase x } ∧
      t.m.rd Reg.IMG_PROG = BitVec.ofNat 32 ((s.m.rd Reg.IMG_PROG).toNat + x.bytes.length) ∧
      t.m.stage = (if (s.m.rd Reg.IMG_PROG).toNat + x.bytes.length = s.m.imgLen then 3 else 2) ∧
      ((s.m.rd Reg.IMG_PROG).toNat + x.bytes.length = s.m.imgLen → t.m.bit Reg.IMG_IRQ_STAT 0 = true) ∧
      Memory.readN t.mem (stagingBase s + (s.m.rd Reg.IMG_PROG).toNat) x.bytes.length = x.bytes.map (· % 256) ∧
      (∀ b, b < stagingBase s + (s.m.rd Reg.IMG_PROG).toNat ∨ stagingBase s + (s.m.rd Reg.IMG_PROG).toNat + x.bytes.length ≤ b →
        Memory.read t.mem b = Memory.read s.mem b) ∧
      SameRegsBut s t [Reg.IMG_STATUS, Reg.IMG_PROG, Reg.IMG_IRQ_STAT] ∧ Raises s t [] := by
  obtain ⟨t, ht, hm, hmem, hregs, hes⟩ := runMem_tells (f := fun m mem => m.pageProgram mem l r true)
    ((pageProgram_programs cyc hx h hfits true).trans (Mach.stagePages_ok _ _ _))
    (((Mach.FocTells.refl (s.at cyc) [Reg.IMG_STATUS, Reg.IMG_PROG, Reg.IMG_IRQ_STAT]).onDma _).pagesProgrammed
      (by decide) (by decide) (by decide) x.bytes.length)
  refine ⟨t, ht, ?_, ?_, ?_, fun hlast => ?_, ?_, fun b hb => ?_, hregs, hes⟩
  · rw [hm]; exact Mach.pagesProgrammed_dma _ _
  · rw [hm, Mach.settle_rd, Mach.pagesProgrammed_prog]
    rfl
  · rw [hm, Mach.settle_stage, Mach.pagesProgrammed_stage]
    exact congrArg (ite _ 3) h
  · rw [hm, Mach.settle_bit]
    exact Mach.pagesProgrammed_done hlast
  · rw [hmem]
    exact Memory.readN_writeL hwf _ _
  · rw [hmem]
    exact Memory.read_writeL_other hwf _ hb

/-- The machine after a page that does not read back. -/
theorem exec_imagePageProgram_fails {r : Fin 16} (hx : stagingData s l r.val = some x) (hwf : Memory.wf s.mem = true)
    (h : s.m.stage = 2) (hfits : TransferFits s x) :
    ∃ t, exec (.imagePageProgram cyc l r false) s = .next t ∧ t.m.dma = { s.m.dma with port5 := s.m.dma.port5.erase x } ∧
      StagingFails s t cyc ∧
      (∀ b, b < stagingBase s + (s.m.rd Reg.IMG_PROG).toNat ∨
        stagingBase s + (s.m.rd Reg.IMG_PROG).toNat + min 256 x.bytes.length ≤ b → Memory.read t.mem b = Memory.read s.mem b) ∧
      SameRegsBut s t [Reg.IMG_STATUS, Reg.IMG_IRQ_STAT] := by
  obtain ⟨t, ht, hm, hmem, hfails, hregs⟩ := runMem_stagingFails (f := fun m mem => m.pageProgram mem l r false)
    (pageProgram_programs cyc hx h hfits false)
    (((Mach.FocTells.refl (s.at cyc) [Reg.IMG_STATUS, Reg.IMG_IRQ_STAT]).onDma _).spend _) (by decide) (by decide)
  refine ⟨t, ht, by rw [hm]; rfl, hfails, fun b hb => ?_, hregs⟩
  rw [hmem]
  refine Memory.read_writeL_other hwf _ ?_
  rw [Mach.length_freeBytes]
  exact hb

theorem exec_imagePageProgram_unfit {r : Fin 16} (hx : stagingData s l r.val = some x) (h : s.m.stage = 2) (hfits : ¬TransferFits s x)
    (ok : Bool) :
    ∃ t, exec (.imagePageProgram cyc l r ok) s = .next t ∧ t.m.dma = { s.m.dma with port5 := s.m.dma.port5.erase x } ∧
      t.m.stage = 7 ∧ t.m.bit Reg.IMG_IRQ_STAT 3 = true ∧ Raises s t [eventAt (s.at cyc) 0x4407 0 0xFF [] 0] ∧
      SameRegsBut s t [Reg.IMG_STATUS, Reg.IMG_IRQ_STAT] ∧ SameMemory s t := by
  have hprog : (s.at cyc).pageProgram s.mem l r ok = ((((s.at cyc).tookData x).setStage 7).imgRefused, s.mem) := by
    rw [pageProgram_taken cyc hx (by omega), if_neg (not_not.2 h), if_neg fun hc => hfits ((transferFits_iff cyc).1 hc)]
  obtain ⟨t, ht, hm, hregs, hmem, hes⟩ := runMem_makes (f := fun m mem => m.pageProgram mem l r ok) hprog
    ((((Mach.FocTells.refl (s.at cyc) [Reg.IMG_STATUS, Reg.IMG_IRQ_STAT]).onDma _).setStage_silent (by decide) (by decide)).imgRefused
      (by decide))
  refine ⟨t, ht, by rw [hm]; rfl, ?_, by rw [hm]; exact Mach.imgRefused_told, hes, hregs, hmem⟩
  rw [hm, Mach.settle_stage]
  exact (Mach.stage_congr (Mach.rd_orr _ _ _ _)).trans (Mach.stage_setStage (m := (s.at cyc).tookData x) (by decide))

theorem exec_imagePageProgram_refused {r : Fin 16} (hx : stagingData s l r.val = some x) (h1 : s.m.stage ≠ 1) (h2 : s.m.stage ≠ 2)
    (ok : Bool) :
    ∃ t, exec (.imagePageProgram cyc l r ok) s = .next t ∧ t.m.dma = { s.m.dma with port5 := s.m.dma.port5.erase x } ∧
      ImageRefused s t cyc :=
  runMem_imgRefused (f := fun m mem => m.pageProgram mem l r ok) ((pageProgram_taken cyc hx h1 ok).trans (if_pos h2))
    ((Mach.FocTells.refl _ _).onDma _) rfl rfl

theorem exec_imagePageProgram_nothing {r : Fin 16} {ok : Bool} (h : (s.at cyc).pageProgram s.mem l r ok = (s.at cyc, s.mem)) :
    ∃ t, exec (.imagePageProgram cyc l r ok) s = .next t ∧ t.m.dma = s.m.dma ∧ Quiet s t [] := by
  obtain ⟨t, ht, hm, hquiet⟩ := runMem_makes (f := fun m mem => m.pageProgram mem l r ok) h (Mach.FocTells.refl (s.at cyc) [])
  exact ⟨t, ht, by rw [hm]; rfl, hquiet⟩

theorem exec_imagePageProgram_waits {r : Fin 16} (hx : stagingData s l r.val = some x) (h : s.m.stage = 1) (ok : Bool) :
    ∃ t, exec (.imagePageProgram cyc l r ok) s = .next t ∧ t.m.dma = s.m.dma ∧ Quiet s t [] := by
  refine exec_imagePageProgram_nothing cyc ?_
  have hx' : ((s.at cyc).dma.port5.find? fun x => x.lane == l && x.ring == r.val) = some x := hx
  rw [Mach.pageProgram, hx']
  exact if_pos h

theorem exec_imagePageProgram_no_data {r : Fin 16} (hx : stagingData s l r.val = none) (ok : Bool) :
    ∃ t, exec (.imagePageProgram cyc l r ok) s = .next t ∧ t.m.dma = s.m.dma ∧ Quiet s t [] := by
  refine exec_imagePageProgram_nothing cyc ?_
  have hx' : ((s.at cyc).dma.port5.find? fun x => x.lane == l && x.ring == r.val) = none := hx
  rw [Mach.pageProgram, hx']
end

/-- Settles O53: BEGIN, the end of the erase and the transfer, each by the stage it meets. -/
theorem stagingErasesAndPrograms : Obligations.StagingErasesAndPrograms := by
  refine ⟨fun cyc l v s => ⟨exec_imageBegin_taken cyc v, exec_imageBegin_refused cyc v,
      dutyElsewhere_imgWrite s cyc l _ true true, nothingDone_of_runMem rfl⟩,
    fun cyc s => ⟨fun hwf h hn => ⟨exec_stagingEraseComplete_ok cyc h hn, exec_stagingEraseComplete_fails cyc hwf h⟩,
      exec_stagingEraseComplete_idle cyc⟩,
    fun cyc l r s x hx => ⟨fun hwf h hfits => ⟨exec_imagePageProgram_ok cyc hx hwf h hfits,
        exec_imagePageProgram_fails cyc hx hwf h hfits⟩,
      fun ok h hfits => exec_imagePageProgram_unfit cyc hx h hfits ok, fun ok h1 h2 => exec_imagePageProgram_refused cyc hx h1 h2 ok,
      fun ok h => exec_imagePageProgram_waits cyc hx h ok⟩,
    fun cyc l r ok s hx => exec_imagePageProgram_no_data cyc hx ok⟩

end Sys2Proof.Machine
end

section
/-! The change log (R427): what an entry leaves of registers and memory, whether it verifies or not. -/

namespace Sys2Proof.Machine

section
variable {m m₀ : Mach} {regs : List Nat} {es : List Event}

theorem Mach.FocTells.onSafe (h : m₀.FocTells regs es m) (g : SafeState → SafeState) : m₀.FocTells regs es (m.onSafe g) :=
  h.next rfl rfl fun _ => rfl

theorem Mach.FocTells.safeIrq (h : m₀.FocTells regs es m) (hreg : Reg.SAFE_IRQ_STAT ∈ regs) (i : Nat) :
    m₀.FocTells regs es (m.safeIrq i) := h.orr_of_not_stamp hreg (by decide) _
end

section
variable (m : Mach) (mem : List Host.Cell)

theorem Mach.logOpen_tells (regs : List Nat) : m.FocTells regs [] (m.logOpen mem).1 := by
  unfold Mach.logOpen
  split
  · exact Mach.FocTells.refl _ _
  · dsimp only
    exact ((Mach.FocTells.refl _ _).spend 32).onSafe _

/-- A newly opened sector changes where the entry goes, and nothing of what it says. -/
theorem Mach.logOpen_logForm (g : SafeState → SafeState) (hg : ∀ x, (g x).who = x.who) (seq kind detail old new : Nat) :
    ((m.logOpen mem).1.onSafe g).logForm seq kind detail old new = m.logForm seq kind detail old new := by
  have hwho : ((m.logOpen mem).1.onSafe g).safe.who = m.safe.who := by
    refine (hg _).trans ?_
    unfold Mach.logOpen
    split <;> rfl
  have htells := (m.logOpen_tells mem []).onSafe g
  have hmode : ((m.logOpen mem).1.onSafe g).mode = m.mode := Mach.mode_congr (htells.rd _ (by decide))
  simp only [Mach.logForm, hwho, hmode, Mach.rd64, htells.rd _ (List.not_mem_nil), Mach.now, htells.now]

/-- The place of the change log's next entry. -/
def Mach.logPlace (m : Mach) (mem : List Host.Cell) : Nat :=
  logSectorAt (m.logOpen mem).1.safe.logSector + 64 * ((m.logOpen mem).1.safe.logSlot + 1)

/-- The machine once the next place of the change log is used. -/
def Mach.logTurned (m : Mach) (mem : List Host.Cell) : Mach := (m.logOpen mem).1.onSafe fun s => { s with logSlot := s.logSlot + 1 }

theorem Mach.logTurned_tells (regs : List Nat) : m.FocTells regs [] (m.logTurned mem) := (m.logOpen_tells mem regs).onSafe _

theorem length_logForm (seq kind detail old new : Nat) : (m.logForm seq kind detail old new).length = 64 := by
  simp [Mach.logForm, length_leBytes, padTo]

theorem Mach.logAppend_ok (kind detail old new : Nat) : m.logAppend mem true kind detail old new =
    ((m.logTurned mem).wr Reg.SAFE_LOG_STAT (m.rd Reg.SAFE_LOG_STAT + 1#32),
      Memory.writeL (m.logOpen mem).2 (m.logPlace mem) (m.logForm ((m.rd Reg.SAFE_LOG_STAT).toNat + 1) kind detail old new)) := by
  have hform := m.logOpen_logForm mem (fun s => { s with logSlot := s.logSlot + 1 }) (fun _ => rfl)
    ((m.rd Reg.SAFE_LOG_STAT).toNat + 1) kind detail old new
  have hnum : BitVec.ofNat 32 ((m.rd Reg.SAFE_LOG_STAT).toNat + 1) = m.rd Reg.SAFE_LOG_STAT + 1#32 := by
    rw [BitVec.ofNat_add, BitVec.ofNat_toNat, BitVec.setWidth_eq]
  unfold Mach.logAppend
  dsimp only
  rw [if_pos rfl, hform, Mach.wrN, hnum]
  rfl

/-- The bytes that an entry which does not verify leaves in its place. -/
def Mach.logTorn (m : Mach) (mem : List Host.Cell) : List Nat := ((m.logTurned mem).freeBytes 64).1

theorem Mach.logAppend_fails (kind detail old new : Nat) : m.logAppend mem false kind detail old new =
    ((((m.logTurned mem).spend 64).raise 0x4010 0).safeIrq 5, Memory.writeL (m.logOpen mem).2 (m.logPlace mem) (m.logTorn mem)) := rfl

theorem Mach.logAppend_ok_tells {regs : List Nat} (h : Reg.SAFE_LOG_STAT ∈ regs) (kind detail old new : Nat) :
    m.FocTells regs [] (m.logAppend mem true kind detail old new).1 := by
  rw [Mach.logAppend_ok]
  exact (m.logTurned_tells mem regs).wr h (by decide) _

theorem Mach.logAppend_fails_tells {regs : List Nat} (h : Reg.SAFE_IRQ_STAT ∈ regs) (kind detail old new : Nat) :
    m.FocTells regs [eventAt m 0x4010 0 0xFF [] 0] (m.logAppend mem false kind detail old new).1 := by
  rw [Mach.logAppend_fails]
  exact (((m.logTurned_tells mem regs).spend 64).raise ..).safeIrq h 5

theorem Mach.logAppend_logStat (kind detail old new : Nat) :
    (m.logAppend mem true kind detail old new).1.rd Reg.SAFE_LOG_STAT = m.rd Reg.SAFE_LOG_STAT + 1#32 := by
  rw [Mach.logAppend_ok]
  exact (Mach.rd_wr ..).trans (if_pos rfl)

/-- Of the block's state an entry changes its place in the log. -/
theorem Mach.logAppend_safe (ok : Bool) (kind detail old new : Nat) :
    (m.logAppend mem ok kind detail old new).1.safe = (m.logTurned mem).safe := by
  cases ok
  · rw [Mach.logAppend_fails]; rfl
  · rw [Mach.logAppend_ok]; rfl
end

section
variable {s t : State} {cyc : Nat}

theorem logTakes_of_append (hwf : Memory.wf s.mem = true) {kind detail : Nat}
    (hmem : t.mem = ((s.at cyc).logAppend s.mem true kind detail 0 0).2)
    (hnum : t.m.rd Reg.SAFE_LOG_STAT = ((s.at cyc).logAppend s.mem true kind detail 0 0).1.rd Reg.SAFE_LOG_STAT)
    (hslot : t.m.safe.logSlot = ((s.at cyc).logTurned s.mem).safe.logSlot)
    (hsector : t.m.safe.logSector = ((s.at cyc).logTurned s.mem).safe.logSector) : LogTakes s t cyc kind detail := by
  have hopen : Memory.wf ((s.at cyc).logOpen s.mem).2 = true := Mach.logOpen_wf hwf
  rw [Mach.logAppend_ok] at hmem
  have hrd : (s.at cyc).rd Reg.SAFE_LOG_STAT = s.m.rd Reg.SAFE_LOG_STAT := rfl
  rw [hrd] at hmem
  have hlen := length_logForm (s.at cyc) ((s.m.rd Reg.SAFE_LOG_STAT).toNat + 1) kind detail 0 0
  unfold LogTakes
  generalize (s.at cyc).logForm ((s.m.rd Reg.SAFE_LOG_STAT).toNat + 1) kind detail 0 0 = entry at *
  refine ⟨?_, hnum.trans (Mach.logAppend_logStat ..), hslot, hsector, fun b hb => ?_⟩
  · rw [hmem]
    have hread := Memory.readN_writeL hopen ((s.at cyc).logPlace s.mem) entry
    rw [hlen] at hread
    exact hread
  · rw [hmem]
    refine Memory.read_writeL_other hopen _ ?_
    rw [hlen]
    exact hb

theorem logLoses_of_append (hwf : Memory.wf s.mem = true) {kind detail old new : Nat}
    (hmem : t.mem = ((s.at cyc).logAppend s.mem false kind detail old new).2)
    (hnum : t.m.rd Reg.SAFE_LOG_STAT = s.m.rd Reg.SAFE_LOG_STAT)
    (hslot : t.m.safe.logSlot = ((s.at cyc).logTurned s.mem).safe.logSlot)
    (hsector : t.m.safe.logSector = ((s.at cyc).logTurned s.mem).safe.logSector) : LogLoses s t cyc := by
  have hopen : Memory.wf ((s.at cyc).logOpen s.mem).2 = true := Mach.logOpen_wf hwf
  have hlen : ((s.at cyc).logTorn s.mem).length = 64 := Mach.length_freeBytes _ _
  rw [Mach.logAppend_fails] at hmem
  unfold LogLoses
  generalize (s.at cyc).logTorn s.mem = torn at *
  refine ⟨hnum, hslot, hsector, fun b hb => ?_⟩
  rw [hmem]
  refine Memory.read_writeL_other hopen _ ?_
  rw [hlen]
  exact hb
end

end Sys2Proof.Machine
end

section
/-! VERIFY, COMMIT, ABORT and REBOOT (R445, R450, R452, R453). -/

namespace Sys2Proof.Machine

/-! ### VERIFY, ABORT and REBOOT (R452, R453) -/

theorem withBits_imgCmd {v : Word} {c : Nat} (h : v.bits 2 0 = c) : v.withBits 2 0 c = v := h ▸ v.withBits_self 2 0

section
variable (m : Mach) (mem : List Host.Cell) (v : Word) (logOk ok : Bool)

theorem Mach.imgCommand_verify : m.imgCommand mem (v.withBits 2 0 2) logOk ok = (m.imgVerify, mem) := by
  rw [Mach.imgCommand, bits_withBits_imgCmd]
  rfl

theorem Mach.imgCommand_commit : m.imgCommand mem (v.withBits 2 0 3) logOk ok = m.imgCommit mem logOk ok := by
  rw [Mach.imgCommand, bits_withBits_imgCmd]
  rfl

theorem Mach.imgCommand_abort : m.imgCommand mem (v.withBits 2 0 4) logOk ok = (m.imgAbort, mem) := by
  rw [Mach.imgCommand, bits_withBits_imgCmd]
  rfl

theorem Mach.imgCommand_reboot : m.imgCommand mem (v.withBits 2 0 5) logOk ok = (m.imgReboot, mem) := by
  rw [Mach.imgCommand, bits_withBits_imgCmd]
  rfl

variable {v}

theorem Mach.imgCommand_invalid (h : v.bits 2 0 = 0 ∨ 5 < v.bits 2 0) : m.imgCommand mem v logOk ok = (m.imgRefused, mem) := by
  unfold Mach.imgCommand
  split <;> [omega; omega; omega; omega; omega; rfl]
end

section
variable {s : State} {l : Lane} (cyc : Nat) (v : Word) (h : DutyNow s l)
include h

theorem exec_imageVerify_taken (hst : s.m.stage = 3) :
    ∃ t, exec (.imageVerify cyc (.lane l) v) s = .next t ∧ t.m.stage = 4 ∧ Quiet s t [Reg.IMG_STATUS] := by
  have hverify : (s.at cyc).imgVerify = (s.at cyc).setStage 4 := if_pos hst
  obtain ⟨t, ht, hm, hquiet⟩ := exec_imgWrite_makes h cyc (v := v.withBits 2 0 2) (logOk := true) (ok := true)
    ((Mach.imgCommand_verify ..).trans (by rw [hverify]))
    ((Mach.FocTells.refl _ [Reg.IMG_STATUS]).setStage_silent (by decide) (by decide))
  exact ⟨t, ht, by rw [hm, Mach.settle_stage, Mach.stage_setStage (by decide)], hquiet⟩

theorem exec_imageVerify_refused (hst : s.m.stage ≠ 3) :
    ∃ t, exec (.imageVerify cyc (.lane l) v) s = .next t ∧ ImageRefused s t cyc := by
  have hverify : (s.at cyc).imgVerify = (s.at cyc).imgRefused := if_neg hst
  exact exec_imgWrite_refused h cyc ((Mach.imgCommand_verify ..).trans (by rw [hverify]))

theorem exec_imageAbort_taken (hst : 1 ≤ s.m.stage) (hst' : s.m.stage ≤ 5) :
    ∃ t, exec (.imageAbort cyc (.lane l) v) s = .next t ∧ t.m.stage = 0 ∧ Quiet s t [Reg.IMG_STATUS] := by
  have habort : (s.at cyc).imgAbort = (s.at cyc).setStage 0 := if_pos ⟨hst, hst'⟩
  obtain ⟨t, ht, hm, hquiet⟩ := exec_imgWrite_makes h cyc (v := v.withBits 2 0 4) (logOk := true) (ok := true)
    ((Mach.imgCommand_abort ..).trans (by rw [habort]))
    ((Mach.FocTells.refl _ [Reg.IMG_STATUS]).setStage_silent (by decide) (by decide))
  exact ⟨t, ht, by rw [hm, Mach.settle_stage, Mach.stage_setStage (by decide)], hquiet⟩

theorem exec_imageAbort_refused (hst : s.m.stage = 0 ∨ 5 < s.m.stage) :
    ∃ t, exec (.imageAbort cyc (.lane l) v) s = .next t ∧ ImageRefused s t cyc := by
  have hno : ¬(1 ≤ s.m.stage ∧ s.m.stage ≤ 5) := by omega
  have habort : (s.at cyc).imgAbort = (s.at cyc).imgRefused := if_neg hno
  exact exec_imgWrite_refused h cyc ((Mach.imgCommand_abort ..).trans (by rw [habort]))

theorem exec_imageReboot_taken (hmode : s.m.mode = .standby) :
    ∃ t, exec (.imageReboot cyc (.lane l) v) s = .next t ∧ t.m.pwr.due = some 3 ∧ Quiet s t [] := by
  have hreboot : (s.at cyc).imgReboot = (s.at cyc).askReset 3 := if_pos hmode
  have htells : (s.at cyc).FocTells [] [] ((s.at cyc).askReset 3) := (Mach.FocTells.refl _ []).onPwr _
  obtain ⟨t, ht, hm, hquiet⟩ := exec_imgWrite_makes h cyc (v := v.withBits 2 0 5) (logOk := true) (ok := true)
    ((Mach.imgCommand_reboot ..).trans (by rw [hreboot])) htells
  exact ⟨t, ht, by rw [hm]; rfl, hquiet⟩

theorem exec_imageReboot_refused (hmode : s.m.mode ≠ .standby) :
    ∃ t, exec (.imageReboot cyc (.lane l) v) s = .next t ∧ ImageRefused s t cyc := by
  have hreboot : (s.at cyc).imgReboot = (s.at cyc).imgRefused := if_neg hmode
  exact exec_imgWrite_refused h cyc ((Mach.imgCommand_reboot ..).trans (by rw [hreboot]))

theorem exec_invalidImageCommand_refused {v : Word} (hv : v.bits 2 0 = 0 ∨ 5 < v.bits 2 0) :
    ∃ t, exec (.invalidImageCommand cyc (.lane l) v) s = .next t ∧ ImageRefused s t cyc :=
  exec_imgWrite_refused h cyc (Mach.imgCommand_invalid _ _ true true hv)
end

/-- A command of IMG_CMD with a CMD that has a meaning is that command. -/
theorem exec_invalidImageCommand_eq (s : State) (cyc : Nat) (who : Writer) {v : Word} {c : Nat} (h : v.bits 2 0 = c) :
    exec (.invalidImageCommand cyc who v) s = runMem s cyc fun m mem => m.imgWrite mem who (v.withBits 2 0 c) true true := by
  rw [withBits_imgCmd h]
  rfl

/-! ### COMMIT (R450, R452) -/

section
variable {m m₀ : Mach} {regs : List Nat} {es : List Event} (mem : List Host.Cell)

/-- The machine once a commit record stands. -/
def Mach.committed (m : Mach) : Mach := ((m.setStage 0).raise 0x4405 0).imgIrq 0

theorem Mach.FocTells.committed (h : m₀.FocTells regs es m) (hst : Reg.IMG_STATUS ∈ regs) (hirq : Reg.IMG_IRQ_STAT ∈ regs) :
    m₀.FocTells regs (es ++ [eventAt m₀ 0x4405 0 0xFF [] 0]) m.committed :=
  ((h.setStage_silent hst (by decide)).raise ..).orr_of_not_stamp hirq (by decide) _

theorem Mach.committed_stage : m.committed.stage = 0 :=
  (Mach.stage_congr (Mach.rd_orr _ _ _ _)).trans (Mach.stage_setStage (m := m) (by decide))

theorem Mach.committed_told : m.committed.bit Reg.IMG_IRQ_STAT 0 = true := Mach.bit_orr (i := 0) _ (by decide)

theorem Mach.commitRecord_ok (logseq : Nat) :
    m.commitRecord mem logseq true = (m.committed, commitAppend mem (m.commitForm mem logseq).bytes) := rfl

/-- A commit record tells of the machine its time and what the registers say of the staged image. -/
theorem Mach.FocTells.commitForm_eq (h : m₀.FocTells regs es m) (hst : Reg.IMG_STATUS ∉ regs) (hlen : Reg.IMG_LEN ∉ regs)
    (logseq : Nat) : m.commitForm mem logseq = m₀.commitForm mem logseq := by
  have hbank : m.stagingBank = m₀.stagingBank := congrArg (fun w => 1 - Word.bits w 24 24) (h.rd _ hst)
  have hstaged : m.staged mem = m₀.staged mem := by
    rw [Mach.staged, Mach.staged, hbank, Mach.imgLen, Mach.imgLen, h.rd _ hlen]
  unfold Mach.commitForm
  dsimp only
  rw [hstaged, hbank, Mach.now, Mach.now, h.now]

theorem Mach.commitForm_safety_at (s : State) (cyc : Nat) :
    ((s.at cyc).commitForm mem 0).safety = (s.m.commitForm mem 0).safety := by
  have hstaged : (s.at cyc).staged mem = s.m.staged mem := rfl
  unfold Mach.commitForm
  dsimp only
  rw [hstaged]
end

section
variable {s : State} {l : Lane} {cyc : Nat} {v : Word} {logOk ok : Bool} {m : Mach} {mem : List Host.Cell} {seq : Nat}

/-- The commit record needs no session: the SAFETY payload is the running one's, or nothing runs. -/
abbrev SafetyStays (s : State) : Prop :=
  (s.m.commitForm s.mem 0).safety = (s.m.rd Reg.IMG_SAFETY).toNat ∨ s.m.recovery = true

theorem not_stage_ne_five (hst : s.m.stage = 5) (cyc : Nat) : ¬((s.at cyc).stage ≠ 5) := not_not.2 hst

theorem safetyStays_iff (s : State) (cyc : Nat) : (((s.at cyc).commitForm s.mem 0).safety = ((s.at cyc).rd Reg.IMG_SAFETY).toNat ∨
    (s.at cyc).recovery = true) ↔ SafetyStays s := by
  rw [Mach.commitForm_safety_at]
  rfl

theorem imgCommit_refused (hst : s.m.stage ≠ 5) : (s.at cyc).imgCommit s.mem logOk ok = ((s.at cyc).imgRefused, s.mem) := if_pos hst

theorem imgCommit_same (hst : s.m.stage = 5) (hsame : SafetyStays s) :
    (s.at cyc).imgCommit s.mem logOk ok = (s.at cyc).commitRecord s.mem 0 ok := by
  rw [Mach.imgCommit, if_neg (not_stage_ne_five hst cyc), if_pos ((safetyStays_iff s cyc).2 hsame)]

theorem imgCommit_no_session (hst : s.m.stage = 5) (hsame : ¬SafetyStays s) (hsess : s.m.sess ≠ 2) :
    (s.at cyc).imgCommit s.mem logOk ok = ((s.at cyc).imgRefused, s.mem) := by
  have hclosed : (!(s.at cyc).sessOpen) = true := by
    change (!(s.m.sess == 2)) = true
    simpa using hsess
  rw [Mach.imgCommit, if_neg (not_stage_ne_five hst cyc), if_neg (hsame ∘ (safetyStays_iff s cyc).1), if_pos hclosed]

/-- The change log once it has taken the entry of a COMMIT that changes the SAFETY payload. -/
abbrev commitLogged (s : State) (cyc : Nat) (ok : Bool) : Mach × List Host.Cell :=
  (s.at cyc).logAppend s.mem ok 5 0 (s.m.rd Reg.IMG_SAFETY).toNat (s.m.commitForm s.mem 0).safety

theorem imgCommit_session (hst : s.m.stage = 5) (hsame : ¬SafetyStays s) (hsess : s.m.sess = 2) :
    (s.at cyc).imgCommit s.mem logOk ok = if logOk then (commitLogged s cyc logOk).1.commitRecord (commitLogged s cyc logOk).2
        ((commitLogged s cyc logOk).1.rd Reg.SAFE_LOG_STAT).toNat ok
      else ((commitLogged s cyc logOk).1.imgRefused, (commitLogged s cyc logOk).2) := by
  have hopen : ¬(!(s.at cyc).sessOpen) = true := by
    change ¬(!(s.m.sess == 2)) = true
    simp [hsess]
  rw [Mach.imgCommit, if_neg (not_stage_ne_five hst cyc), if_neg (hsame ∘ (safetyStays_iff s cyc).1), if_neg hopen, Mach.commitForm_safety_at]
  rfl

/-- COMMIT whose record stands. -/
theorem exec_imageCommit_stands (h : DutyNow s l) (hr : (s.at cyc).imgCommit s.mem logOk true = m.commitRecord mem seq true)
    {regs : List Nat} (ht : (s.at cyc).FocTells regs [] m) (hst : Reg.IMG_STATUS ∈ regs) (hirq : Reg.IMG_IRQ_STAT ∈ regs) :
    ∃ t, exec (.imageCommit cyc (.lane l) v logOk true) s = .next t ∧ t.m = m.committed.settle ∧ t.m.stage = 0 ∧
      t.mem = commitAppend mem (m.commitForm mem seq).bytes ∧ Raises s t [eventAt (s.at cyc) 0x4405 0 0xFF [] 0] ∧
      t.m.bit Reg.IMG_IRQ_STAT 0 = true ∧ SameRegsBut s t regs := by
  obtain ⟨t, htn, hm, hmem, hregs, hes⟩ := runMem_tells
    (f := fun m mem => m.imgWrite mem (.lane l) (v.withBits 2 0 3) logOk true)
    ((Mach.imgWrite_now h cyc _ _ _).trans ((Mach.imgCommand_commit ..).trans (hr.trans (Mach.commitRecord_ok _ _))))
    (ht.committed hst hirq)
  refine ⟨t, htn, hm, ?_, hmem, hes, ?_, hregs⟩
  · rw [hm, Mach.settle_stage, Mach.committed_stage]
  · rw [hm, Mach.settle_bit, Mach.committed_told]

/-- COMMIT whose record does not read back. -/
theorem exec_imageCommit_torn (h : DutyNow s l) (hr : (s.at cyc).imgCommit s.mem logOk false = m.commitRecord mem seq false)
    {regs : List Nat} (ht : (s.at cyc).FocTells regs [] m) (hst : Reg.IMG_STATUS ∈ regs) (hirq : Reg.IMG_IRQ_STAT ∈ regs) :
    ∃ t torn, exec (.imageCommit cyc (.lane l) v logOk false) s = .next t ∧ t.m = (m.spend 256).imgFlashFailed.settle ∧
      StagingFails s t cyc ∧ torn.length = 256 ∧ t.mem = commitAppend mem torn ∧ SameRegsBut s t regs := by
  obtain ⟨t, htn, hm, hmem, hfails, hregs⟩ := runMem_stagingFails
    (f := fun m mem => m.imgWrite mem (.lane l) (v.withBits 2 0 3) logOk false)
    ((Mach.imgWrite_now h cyc _ _ _).trans ((Mach.imgCommand_commit ..).trans hr)) (ht.spend 256) hst hirq
  exact ⟨t, _, htn, hm, hfails, Mach.length_freeBytes _ _, hmem, hregs⟩

theorem exec_imageCommit_refused (h : DutyNow s l) (hr : (s.at cyc).imgCommit s.mem logOk ok = ((s.at cyc).imgRefused, s.mem)) :
    ∃ t, exec (.imageCommit cyc (.lane l) v logOk ok) s = .next t ∧ ImageRefused s t cyc :=
  exec_imgWrite_refused h cyc ((Mach.imgCommand_commit ..).trans hr)

theorem exec_imageCommit_same (h : DutyNow s l) (hst : s.m.stage = 5) (hsame : SafetyStays s) :
    (∃ t, exec (.imageCommit cyc (.lane l) v logOk true) s = .next t ∧ t.m.stage = 0 ∧
      t.mem = commitAppend s.mem ((s.at cyc).commitForm s.mem 0).bytes ∧
      Raises s t [eventAt (s.at cyc) 0x4405 0 0xFF [] 0] ∧ t.m.bit Reg.IMG_IRQ_STAT 0 = true ∧
      SameRegsBut s t [Reg.IMG_STATUS, Reg.IMG_IRQ_STAT]) ∧
    (∃ t torn, exec (.imageCommit cyc (.lane l) v logOk false) s = .next t ∧ StagingFails s t cyc ∧
      torn.length = 256 ∧ t.mem = commitAppend s.mem torn ∧ SameRegsBut s t [Reg.IMG_STATUS, Reg.IMG_IRQ_STAT]) := by
  obtain ⟨t, ht, -, hstands⟩ := exec_imageCommit_stands (v := v) h (imgCommit_same (cyc := cyc) (logOk := logOk) hst hsame)
    (Mach.FocTells.refl _ [Reg.IMG_STATUS, Reg.IMG_IRQ_STAT]) (by decide) (by decide)
  obtain ⟨t', torn, ht', -, htorn⟩ := exec_imageCommit_torn (v := v) h (imgCommit_same (cyc := cyc) (logOk := logOk) hst hsame)
    (Mach.FocTells.refl _ [Reg.IMG_STATUS, Reg.IMG_IRQ_STAT]) (by decide) (by decide)
  exact ⟨⟨t, ht, hstands⟩, t', torn, ht', htorn⟩

section
variable (h : DutyNow s l) (hst : s.m.stage = 5) (hsame : ¬SafetyStays s) (hsess : s.m.sess = 2)
include h hst hsame hsess

theorem exec_imageCommit_logged :
    (∃ t, exec (.imageCommit cyc (.lane l) v true true) s = .next t ∧ t.m.stage = 0 ∧
      t.m.rd Reg.SAFE_LOG_STAT = s.m.rd Reg.SAFE_LOG_STAT + 1#32 ∧
      t.mem = commitAppend (commitLogged s cyc true).2
        ((s.at cyc).commitForm (commitLogged s cyc true).2 (s.m.rd Reg.SAFE_LOG_STAT + 1#32).toNat).bytes ∧
      Raises s t [eventAt (s.at cyc) 0x4405 0 0xFF [] 0] ∧ t.m.bit Reg.IMG_IRQ_STAT 0 = true ∧
      SameRegsBut s t [Reg.IMG_STATUS, Reg.IMG_IRQ_STAT, Reg.SAFE_LOG_STAT]) ∧
    (∃ t torn, exec (.imageCommit cyc (.lane l) v true false) s = .next t ∧ StagingFails s t cyc ∧
      torn.length = 256 ∧ t.mem = commitAppend (commitLogged s cyc true).2 torn ∧
      t.m.rd Reg.SAFE_LOG_STAT = s.m.rd Reg.SAFE_LOG_STAT + 1#32 ∧
      SameRegsBut s t [Reg.IMG_STATUS, Reg.IMG_IRQ_STAT, Reg.SAFE_LOG_STAT]) := by
  have hnum : (commitLogged s cyc true).1.rd Reg.SAFE_LOG_STAT = s.m.rd Reg.SAFE_LOG_STAT + 1#32 := Mach.logAppend_logStat ..
  have htells : (s.at cyc).FocTells [Reg.SAFE_LOG_STAT] [] (commitLogged s cyc true).1 :=
    Mach.logAppend_ok_tells _ _ (by decide) _ _ _ _
  have hwide := htells.mono (regs' := [Reg.IMG_STATUS, Reg.IMG_IRQ_STAT, Reg.SAFE_LOG_STAT]) (by decide)
  have hr := fun ok => (imgCommit_session (cyc := cyc) (logOk := true) (ok := ok) hst hsame hsess).trans (if_pos rfl)
  rw [hnum] at hr
  generalize commitLogged s cyc true = y at *
  obtain ⟨t, ht, hm, hstage, hmem, hrest⟩ := exec_imageCommit_stands (v := v) h (hr true) hwide (by decide) (by decide)
  obtain ⟨t', torn, ht', hm', hfails, hlen, hmem', hregs⟩ :=
    exec_imageCommit_torn (v := v) h (hr false) hwide (by decide) (by decide)
  refine ⟨⟨t, ht, hstage, ?_, ?_, hrest⟩, t', torn, ht', hfails, hlen, hmem', ?_, hregs⟩
  · rw [hm, Mach.settle_rd, ← hnum]
    exact ((Mach.FocTells.refl y.1 [Reg.IMG_STATUS, Reg.IMG_IRQ_STAT]).committed (by decide) (by decide)).rd _ (by decide)
  · rw [hmem, htells.commitForm_eq _ (by decide) (by decide)]
  · rw [hm', Mach.settle_rd, ← hnum]
    exact (((Mach.FocTells.refl y.1 [Reg.IMG_STATUS, Reg.IMG_IRQ_STAT]).spend 256).imgFlashFailed (by decide) (by decide)).rd _
      (by decide)

theorem exec_imageCommit_log_fails (hwf : Memory.wf s.mem = true) (ok : Bool) :
    ∃ t, exec (.imageCommit cyc (.lane l) v false ok) s = .next t ∧ t.m.stage = 5 ∧ LogLoses s t cyc ∧
      t.m.bit Reg.IMG_IRQ_STAT 3 = true ∧
      Raises s t [eventAt (s.at cyc) 0x4010 0 0xFF [] 0, eventAt (s.at cyc) 0x4407 0 0xFF [] 0] ∧
      SameRegsBut s t [Reg.IMG_IRQ_STAT, Reg.SAFE_IRQ_STAT] := by
  have htells : (s.at cyc).FocTells [Reg.IMG_IRQ_STAT, Reg.SAFE_IRQ_STAT] [eventAt (s.at cyc) 0x4010 0 0xFF [] 0]
      (commitLogged s cyc false).1 := Mach.logAppend_fails_tells _ _ (by decide) _ _ _ _
  have hsafe : (commitLogged s cyc false).1.safe = ((s.at cyc).logTurned s.mem).safe := Mach.logAppend_safe ..
  have hr := (imgCommit_session (cyc := cyc) (logOk := false) (ok := ok) hst hsame hsess).trans (if_neg Bool.false_ne_true)
  obtain ⟨t, ht, hm, hmem, hregs, hes⟩ := runMem_tells
    (f := fun m mem => m.imgWrite mem (.lane l) (v.withBits 2 0 3) false ok)
    ((Mach.imgWrite_now h cyc _ _ _).trans ((Mach.imgCommand_commit ..).trans hr)) (htells.imgRefused (by decide))
  have hsafe' : t.m.safe = ((s.at cyc).logTurned s.mem).safe := by
    rw [hm, ← hsafe]
    rfl
  refine ⟨t, ht, (Mach.stage_congr (hregs _ (by decide))).trans hst, ?_, by rw [hm, Mach.imgRefused_told], hes, hregs⟩
  exact logLoses_of_append hwf hmem (hregs _ (by decide)) (by rw [hsafe']) (by rw [hsafe'])
end
end

/-! ### The check beside the clock -/

/-- The machine with another clock, and other bits set in this cycle. -/
def Mach.timed (m : Mach) (x : TimeState) (y : List (Nat × Nat)) : Mach := { m with time := x, setNow := y }

theorem State.at_eq_timed (s : State) (cyc : Nat) : s.at cyc = s.m.timed (s.at cyc).time (s.at cyc).setNow := rfl

section
variable (b : List Nat) (fs : List Folio) (m : Mach) (x : TimeState) (y : List (Nat × Nat))

theorem forL_timed {α : Type} (f : α → Mach → Mach) (hf : ∀ a m, f a (m.timed x y) = (f a m).timed x y) (l : List α) :
    forL l f (m.timed x y) = (forL l f m).timed x y := by
  induction l generalizing m with
  | nil => rfl
  | cons a l ih => exact (congrArg (forL l f) (hf a m)).trans (ih (f a m))

/-- The last of loading the registers: the motors whose configuration is loaded are marked so. -/
def Mach.motorsLoaded (m : Mach) (ls : List LoadEntry) : Mach :=
  forL [0, 1] (fun l m => forL [0, 1] (fun i m =>
    if ls.any fun e => e.addr == Reg.FOC_M_CFG l i then m.setBit (Reg.FOC_STATUS l) (2 + i) true else m) m) m

theorem Mach.loadRegs_eq : m.loadRegs b fs =
    (((({ m with regs := loadedRegs m.variant (loadLists fs) ++ m.regs, image := imageOf b fs } : Mach).wrN Reg.TICK_PERIOD
      (le (payload fs 0x01) 0 4)).wrN Reg.TICK_DEADLINE (le (payload fs 0x01) 0 4 * 85 / 100)).wrN Reg.TICK_LAWCAP
        (le (payload fs 0x01) 0 4 * 85 / 100 - 656)).motorsLoaded (loadLists fs) := rfl

theorem Mach.motorsLoaded_timed (ls : List LoadEntry) : (m.timed x y).motorsLoaded ls = (m.motorsLoaded ls).timed x y := by
  refine forL_timed m x y _ (fun l m => forL_timed m x y _ (fun i m => ?_) _) _
  split <;> rfl

theorem Mach.loadRegs_timed : (m.timed x y).loadRegs b fs = (m.loadRegs b fs).timed x y := by
  rw [Mach.loadRegs_eq, Mach.loadRegs_eq, ← Mach.motorsLoaded_timed]
  rfl

theorem Trial.apart_timed (ls : List LoadEntry) (es : List SlotEntry) :
    Trial.apart ⟨b, fs, ls, m.timed x y⟩ es = Trial.apart ⟨b, fs, ls, m⟩ es := by
  induction es with
  | nil => rfl
  | cons e es ih =>
    rw [Trial.apart, Trial.apart, ih]
    rfl

theorem Trial.check_timed (ls : List LoadEntry) (secver : Option Nat) :
    Trial.check ⟨b, fs, ls, m.timed x y⟩ secver = Trial.check ⟨b, fs, ls, m⟩ secver := by
  have hbudget : Trial.budget ⟨b, fs, ls, m.timed x y⟩ = Trial.budget ⟨b, fs, ls, m⟩ := by
    rw [Trial.budget, Trial.apart_timed]
    rfl
  rw [Trial.check, hbudget]
  rfl

/-- The check of an image reads neither the clock nor the bits set in this cycle. -/
theorem Mach.imageCheck_timed (secver : Option Nat) : (m.timed x y).imageCheck b secver = m.imageCheck b secver := by
  have htrial : ∀ b fs, ((m.timed x y).trial b fs).check secver = (m.trial b fs).check secver := by
    intro b fs
    rw [Mach.trial, show { m.timed x y with regs := [], image := imageOf b fs } =
      ({ m with regs := [], image := imageOf b fs } : Mach).timed x y from rfl, Mach.loadRegs_timed, Trial.check_timed]
    rfl
  have himg : (m.timed x y).img = m.img := rfl
  unfold Mach.imageCheck
  simp only [htrial, himg]
end
/-! ### The end of the check (R445, R452) -/

section
variable {s : State} {cyc : Nat}

theorem exec_imageVerifyComplete_idle (h : s.m.stage ≠ 4) :
    ∃ t, exec (.imageVerifyComplete cyc) s = .next t ∧ Quiet s t [] := by
  have hidle : (s.at cyc).verifyComplete s.mem = s.at cyc := if_pos h
  obtain ⟨t, ht, -, hquiet⟩ := runMem_makes (f := fun m mem => (m.verifyComplete mem, mem)) (by rw [hidle])
    (Mach.FocTells.refl (s.at cyc) [])
  exact ⟨t, ht, hquiet⟩

/-- What the check of the staged image finds. -/
abbrev stagedCheck (s : State) : Option Reject :=
  s.m.imageCheck (s.m.staged s.mem) (if s.m.image.loaded then some s.m.image.secver else none)

theorem Mach.imageCheck_at (s : State) (cyc : Nat) (b : List Nat) (secver : Option Nat) :
    (s.at cyc).imageCheck b secver = s.m.imageCheck b secver := by
  rw [s.at_eq_timed cyc, Mach.imageCheck_timed]

theorem verifyComplete_checked (h : s.m.stage = 4) : (s.at cyc).verifyComplete s.mem =
    match stagedCheck s with
    | none => (s.at cyc).setStage 5
    | some r => ((s.at cyc).setStage 7).imgReject r := by
  have hst : ¬((s.at cyc).stage ≠ 4) := not_not.2 h
  have hstaged : (s.at cyc).staged s.mem = s.m.staged s.mem := rfl
  rw [Mach.verifyComplete, if_neg hst, Mach.imageCheck_at, hstaged]
  rfl

theorem exec_imageVerifyComplete_verified (h : s.m.stage = 4) (hcheck : stagedCheck s = none) :
    ∃ t, exec (.imageVerifyComplete cyc) s = .next t ∧ SameMemory s t ∧ t.m.stage = 5 ∧ t.m.bit Reg.IMG_IRQ_STAT 0 = true ∧
      Raises s t [] ∧ SameRegsBut s t [Reg.IMG_STATUS, Reg.IMG_IRQ_STAT] := by
  have hdone : (s.at cyc).verifyComplete s.mem = (s.at cyc).setStage 5 := by rw [verifyComplete_checked h, hcheck]
  obtain ⟨t, ht, hm, hregs, hmem, hes⟩ := runMem_makes (f := fun m mem => (m.verifyComplete mem, mem)) (by rw [hdone])
    ((Mach.FocTells.refl (s.at cyc) [Reg.IMG_STATUS, Reg.IMG_IRQ_STAT]).setStage (by decide) (by decide) 5)
  refine ⟨t, ht, hmem, ?_, ?_, hes, hregs⟩
  · rw [hm, Mach.settle_stage, Mach.stage_setStage (by decide)]
  · rw [hm, Mach.settle_bit, Mach.setStage_done (.inr rfl)]
end

section
variable {m m₀ : Mach} {regs : List Nat} {es : List Event} (r : Reject)

theorem Mach.FocTells.imgReject (h : m₀.FocTells regs es m) (hrej : Reg.IMG_REJECT ∈ regs) (hoff : Reg.IMG_REJOFF ∈ regs)
    (hirq : Reg.IMG_IRQ_STAT ∈ regs) : m₀.FocTells regs
      (es ++ [eventAt m₀ 0x4402 0 0xFF ([r.rule, r.folio] ++ leBytes 2 r.detail ++ leBytes 4 r.off) 0]) (m.imgReject r) :=
  (((h.wr hrej (by decide) _).wr hoff (by decide) _).raise ..).orr_of_not_stamp hirq (by decide) _

theorem Mach.imgReject_rejoff : (m.imgReject r).rd Reg.IMG_REJOFF = BitVec.ofNat 32 r.off := by
  unfold Mach.imgReject Mach.imgIrq
  rw [Mach.rd_orr, if_neg (by decide), Mach.raise_rd, Mach.rd_wrN, if_pos rfl]

theorem Mach.imgReject_told : (m.imgReject r).bit Reg.IMG_IRQ_STAT 1 = true := Mach.bit_orr (i := 1) _ (by decide)

/-- A rejection as IMG_REJECT shows it (R445). -/
def Reject.packed (r : Reject) : Nat := r.rule % 256 * 2 ^ 24 + r.folio % 256 * 2 ^ 16 + r.detail % 2 ^ 16

theorem Mach.imgReject_reject : (m.imgReject r).rd Reg.IMG_REJECT = BitVec.ofNat 32 r.packed := by
  unfold Mach.imgReject Mach.imgIrq
  rw [Mach.rd_orr, if_neg (by decide), Mach.raise_rd, Mach.rd_wrN, if_neg (by decide), Mach.rd_wrN, if_pos rfl]
  rfl

/-- A word packed of two bytes above a half-word, unpacked. -/
theorem Word.bits_packed (r : Reject) : Word.bits (BitVec.ofNat 32 r.packed) 31 24 = r.rule % 256 ∧
    Word.bits (BitVec.ofNat 32 r.packed) 23 16 = r.folio % 256 ∧ Word.bits (BitVec.ofNat 32 r.packed) 15 0 = r.detail % 2 ^ 16 := by
  simp only [Word.bits, BitVec.toNat_ofNat, Nat.shiftRight_eq_div_pow, Reject.packed]
  omega

theorem Mach.imgReject_stage : (m.imgReject r).stage = m.stage :=
  Mach.stage_congr (((Mach.FocTells.refl m [Reg.IMG_REJECT, Reg.IMG_REJOFF, Reg.IMG_IRQ_STAT]).imgReject r (by decide) (by decide)
    (by decide)).rd _ (by decide))
end

theorem exec_imageVerifyComplete_rejected {s : State} {cyc : Nat} {r : Reject} (h : s.m.stage = 4) (hcheck : stagedCheck s = some r) :
    ∃ t, exec (.imageVerifyComplete cyc) s = .next t ∧ SameMemory s t ∧ t.m.stage = 7 ∧
      t.m.fld Reg.IMG_REJECT 31 24 = r.rule % 256 ∧ t.m.fld Reg.IMG_REJECT 23 16 = r.folio % 256 ∧
      t.m.fld Reg.IMG_REJECT 15 0 = r.detail % 2 ^ 16 ∧ t.m.rd Reg.IMG_REJOFF = BitVec.ofNat 32 r.off ∧
      t.m.bit Reg.IMG_IRQ_STAT 1 = true ∧
      Raises s t [eventAt (s.at cyc) 0x4402 0 0xFF ([r.rule, r.folio] ++ leBytes 2 r.detail ++ leBytes 4 r.off) 0] ∧
      SameRegsBut s t [Reg.IMG_STATUS, Reg.IMG_IRQ_STAT, Reg.IMG_REJECT, Reg.IMG_REJOFF] := by
  have hdone : (s.at cyc).verifyComplete s.mem = ((s.at cyc).setStage 7).imgReject r := by rw [verifyComplete_checked h, hcheck]
  obtain ⟨t, ht, hm, hregs, hmem, hes⟩ := runMem_makes (f := fun m mem => (m.verifyComplete mem, mem)) (by rw [hdone])
    (((Mach.FocTells.refl (s.at cyc) [Reg.IMG_STATUS, Reg.IMG_IRQ_STAT, Reg.IMG_REJECT, Reg.IMG_REJOFF]).setStage_silent
      (by decide) (by decide)).imgReject r (by decide) (by decide) (by decide))
  have hrej := (Mach.settle_rd _ _).trans (Mach.imgReject_reject (m := (s.at cyc).setStage 7) r)
  obtain ⟨hrule, hfolio, hdetail⟩ := Word.bits_packed r
  rw [← hrej, ← hm] at hrule hfolio hdetail
  refine ⟨t, ht, hmem, ?_, hrule, hfolio, hdetail, ?_, ?_, hes, hregs⟩
  · rw [hm, Mach.settle_stage, Mach.imgReject_stage, Mach.stage_setStage (by decide)]
  · rw [hm, Mach.settle_rd, Mach.imgReject_rejoff]
  · rw [hm, Mach.settle_bit, Mach.imgReject_told]

/-- Settles O54: each command by the stage it meets, COMMIT by the session and its entry of the change log, and the check by what it
finds. -/
theorem imageCommandsVerifyCommitAndReboot : Obligations.ImageCommandsVerifyCommitAndReboot := by
  refine ⟨fun cyc l v s h => ⟨exec_imageVerify_taken cyc v h, exec_imageVerify_refused cyc v h, exec_imageAbort_taken cyc v h,
      exec_imageAbort_refused cyc v h, exec_imageReboot_taken cyc v h, exec_imageReboot_refused cyc v h,
      exec_invalidImageCommand_refused cyc h, exec_invalidImageCommand_eq s cyc _, exec_invalidImageCommand_eq s cyc _,
      exec_invalidImageCommand_eq s cyc _, exec_invalidImageCommand_eq s cyc _, exec_invalidImageCommand_eq s cyc _⟩,
    fun cyc logOk ok l v s h => ⟨fun hst => exec_imageCommit_refused h (imgCommit_refused hst), exec_imageCommit_same h,
      fun hst hsame hsess => exec_imageCommit_refused h (imgCommit_no_session hst hsame hsess), fun hst hsame hsess => ?_⟩,
    fun cyc logOk ok l v s => ⟨dutyElsewhere_imgWrite s cyc l _ true true, dutyElsewhere_imgWrite s cyc l _ logOk ok,
      dutyElsewhere_imgWrite s cyc l _ true true, dutyElsewhere_imgWrite s cyc l _ true true, dutyElsewhere_imgWrite s cyc l _ true true,
      nothingDone_of_runMem rfl, nothingDone_of_runMem rfl, nothingDone_of_runMem rfl, nothingDone_of_runMem rfl,
      nothingDone_of_runMem rfl⟩,
    fun cyc s => ⟨fun h => ?_, exec_imageVerifyComplete_idle⟩⟩
  · obtain ⟨hstands, htorn⟩ := exec_imageCommit_logged (cyc := cyc) (v := v) h hst hsame hsess
    exact ⟨hstands, htorn, fun hwf => exec_imageCommit_log_fails h hst hsame hsess hwf ok⟩
  · cases hcheck : stagedCheck s with
    | none =>
      obtain ⟨t, ht, hmem, hverified⟩ := exec_imageVerifyComplete_verified (cyc := cyc) h hcheck
      exact ⟨t, ht, hmem, by rw [stagedCheck] at hcheck; rw [hcheck]; exact hverified⟩
    | some r =>
      obtain ⟨t, ht, hmem, hrejected⟩ := exec_imageVerifyComplete_rejected (cyc := cyc) h hcheck
      exact ⟨t, ht, hmem, by rw [stagedCheck] at hcheck; rw [hcheck]; exact hrejected⟩

end Sys2Proof.Machine
end

section
/-! Password sessions (R423 to R427): OPEN, the check, CLOSE, the limits of time and SETPW, each by the state it meets. -/

namespace Sys2Proof.Machine

/-! ### An entry of the change log beside what a command does (R427) -/

/-- Two machines that form and place the change log's next entry alike. -/
structure Mach.SameLog (m m' : Mach) : Prop where
  slot : m'.safe.logSlot = m.safe.logSlot
  sector : m'.safe.logSector = m.safe.logSector
  num : m'.safe.logSectorNum = m.safe.logSectorNum
  who : m'.safe.who = m.safe.who
  free : m'.free = m.free
  now : m'.time.t = m.time.t
  regs : ∀ a ∈ [Reg.SYS_MODE_STAT, Reg.SYS_UID_LO, Reg.SYS_UID_HI, Reg.TIME_BOOT, Reg.SAFE_LOG_STAT], m'.rd a = m.rd a

section
variable {m m' : Mach}

theorem Mach.SameLog.refl (m : Mach) : m.SameLog m := ⟨rfl, rfl, rfl, rfl, rfl, rfl, fun _ _ => rfl⟩

theorem Mach.SameLog.onSafe (h : m.SameLog m') {g : SafeState → SafeState} (hslot : (g m'.safe).logSlot = m'.safe.logSlot)
    (hsector : (g m'.safe).logSector = m'.safe.logSector) (hnum : (g m'.safe).logSectorNum = m'.safe.logSectorNum)
    (hwho : (g m'.safe).who = m'.safe.who) : m.SameLog (m'.onSafe g) :=
  ⟨hslot.trans h.slot, hsector.trans h.sector, hnum.trans h.num, hwho.trans h.who, h.free, h.now, h.regs⟩

variable (h : m.SameLog m') (mem : List Host.Cell)
include h

theorem Mach.SameLog.logOpen : (m'.logOpen mem).2 = (m.logOpen mem).2 ∧
    (m'.logOpen mem).1.safe.logSlot = (m.logOpen mem).1.safe.logSlot ∧
    (m'.logOpen mem).1.safe.logSector = (m.logOpen mem).1.safe.logSector := by
  have hbytes : (m'.freeBytes 32).1 = (m.freeBytes 32).1 := by rw [Mach.freeBytes, h.free]; rfl
  unfold Mach.logOpen
  rw [h.slot]
  split
  · exact ⟨rfl, h.slot, h.sector⟩
  · dsimp only
    rw [h.num, h.regs Reg.TIME_BOOT (by decide), hbytes]
    exact ⟨rfl, rfl, rfl⟩

theorem Mach.SameLog.logPlace : m'.logPlace mem = m.logPlace mem := by
  obtain ⟨-, hslot, hsector⟩ := h.logOpen mem
  rw [Mach.logPlace, hslot, hsector]
  rfl

theorem Mach.SameLog.logForm (seq kind detail old new : Nat) :
    m'.logForm seq kind detail old new = m.logForm seq kind detail old new := by
  have hregs := h.regs
  simp only [List.forall_mem_cons] at hregs
  obtain ⟨hmode, hlo, hhi, hboot, -⟩ := hregs
  simp only [Mach.logForm, Mach.now, Mach.rd64, h.now, h.who, Mach.mode_congr hmode, hlo, hhi, hboot]

theorem Mach.SameLog.logTurned : (m'.logTurned mem).safe.logSlot = (m.logTurned mem).safe.logSlot ∧
    (m'.logTurned mem).safe.logSector = (m.logTurned mem).safe.logSector := by
  obtain ⟨-, hslot, hsector⟩ := h.logOpen mem
  exact ⟨congrArg (· + 1) hslot, hsector⟩
end

section
variable {s t : State} {cyc : Nat} {m : Mach} (h : (s.at cyc).SameLog m) (hwf : Memory.wf s.mem = true)
include h hwf

theorem logTakes_of_sameLog {kind detail : Nat} (hmem : t.mem = (m.logAppend s.mem true kind detail 0 0).2)
    (hnum : t.m.rd Reg.SAFE_LOG_STAT = (m.logAppend s.mem true kind detail 0 0).1.rd Reg.SAFE_LOG_STAT)
    (hslot : t.m.safe.logSlot = (m.logTurned s.mem).safe.logSlot)
    (hsector : t.m.safe.logSector = (m.logTurned s.mem).safe.logSector) : LogTakes s t cyc kind detail := by
  have hrd := h.regs Reg.SAFE_LOG_STAT (by decide)
  obtain ⟨hslot', hsector'⟩ := h.logTurned s.mem
  refine logTakes_of_append hwf (hmem.trans ?_) (hnum.trans ?_) (hslot.trans hslot') (hsector.trans hsector')
  · rw [Mach.logAppend_ok, Mach.logAppend_ok, (h.logOpen s.mem).1, h.logPlace, h.logForm, hrd]
  · rw [Mach.logAppend_logStat, Mach.logAppend_logStat, hrd]

theorem logLoses_of_sameLog {kind detail old new : Nat} (hmem : t.mem = (m.logAppend s.mem false kind detail old new).2)
    (hnum : t.m.rd Reg.SAFE_LOG_STAT = s.m.rd Reg.SAFE_LOG_STAT) (hslot : t.m.safe.logSlot = (m.logTurned s.mem).safe.logSlot)
    (hsector : t.m.safe.logSector = (m.logTurned s.mem).safe.logSector) : LogLoses s t cyc := by
  have hopen : Memory.wf (m.logOpen s.mem).2 = true := Mach.logOpen_wf hwf
  have hlen : (m.logTorn s.mem).length = 64 := Mach.length_freeBytes _ _
  obtain ⟨hslot', hsector'⟩ := h.logTurned s.mem
  rw [Mach.logAppend_fails] at hmem
  generalize m.logTorn s.mem = torn at hmem hlen
  rw [(h.logOpen s.mem).1] at hopen hmem
  rw [h.logPlace] at hmem
  unfold LogLoses
  refine ⟨hnum, hslot.trans hslot', hsector.trans hsector', fun b hb => ?_⟩
  rw [hmem]
  refine Memory.read_writeL_other hopen _ ?_
  rw [hlen]
  exact hb
end

/-! ### The session's state, its count and its lockout (R424, R425) -/

section
variable {m m₀ : Mach} {regs : List Nat} {es : List Event}

theorem Mach.FocTells.setSess (h : m₀.FocTells regs es m) (hst : Reg.SAFE_SESS_STAT ∈ regs) (hsafe : Reg.SAFE_STATUS ∈ regs) (v : Nat) :
    m₀.FocTells regs es (m.setSess v) :=
  ((h.wr (a := Reg.SAFE_SESS_STAT) hst (by decide) _).wr (a := Reg.SAFE_STATUS) hsafe (by decide) _).wr hsafe (by decide) _

theorem Mach.setSess_sessStat (v : Nat) :
    (m.setSess v).rd Reg.SAFE_SESS_STAT = (m.setFld Reg.SAFE_SESS_STAT 31 28 v).rd Reg.SAFE_SESS_STAT := by
  rw [Mach.setSess, Mach.rd_setBit, if_neg (by decide), Mach.rd_setBit, if_neg (by decide)]

theorem Mach.sess_congr {m' : Mach} (h : m'.rd Reg.SAFE_SESS_STAT = m.rd Reg.SAFE_SESS_STAT) : m'.sess = m.sess :=
  congrArg (Word.bits · 31 28) h

theorem Mach.settle_sess : m.settle.sess = m.sess := Mach.settle_fld ..

theorem Mach.sess_setSess {v : Nat} (hv : v < 16) : (m.setSess v).sess = v :=
  (Mach.sess_congr (m := m.setFld Reg.SAFE_SESS_STAT 31 28 v) (m.setSess_sessStat v)).trans
    ((m.fld_setFld v (by decide) (by decide)).trans (Nat.mod_eq_of_lt hv))

theorem Mach.setSess_fld {hi lo : Nat} (v : Nat) (hlh : lo ≤ hi) (hhi : hi < 28) :
    (m.setSess v).fld Reg.SAFE_SESS_STAT hi lo = m.fld Reg.SAFE_SESS_STAT hi lo := by
  rw [Mach.fld, m.setSess_sessStat]
  exact m.fld_setFld_other v (by decide) (by decide) hlh (.inr (.inl hhi))

theorem Mach.setSess_open (v : Nat) : (m.setSess v).bit Reg.SAFE_STATUS 28 = (v == 2) := by
  rw [Mach.setSess, Mach.bit_setBit_other _ _ (by decide) (.inr (by decide)), Mach.bit_setBit _ _ (by decide)]

theorem Mach.setSess_locked (v : Nat) : (m.setSess v).bit Reg.SAFE_STATUS 27 = (v == 3) := Mach.bit_setBit _ _ (by decide)

theorem Mach.FocTells.sessRefuse (h : m₀.FocTells regs es m) (hst : Reg.SAFE_SESS_STAT ∈ regs) (hirq : Reg.SAFE_IRQ_STAT ∈ regs)
    (reason : Nat) : m₀.FocTells regs (es ++ [eventAt m₀ 0x400D 0 0xFF [] 0]) (m.sessRefuse reason) :=
  ((h.wr (a := Reg.SAFE_SESS_STAT) hst (by decide) _).raise ..).safeIrq hirq 5

theorem Mach.sessRefuse_sessStat (reason : Nat) :
    (m.sessRefuse reason).rd Reg.SAFE_SESS_STAT = (m.setFld Reg.SAFE_SESS_STAT 27 24 reason).rd Reg.SAFE_SESS_STAT := by
  rw [Mach.sessRefuse, Mach.safeIrq, Mach.rd_orr, if_neg (by decide), Mach.raise_rd]

theorem Mach.sessRefuse_reason {reason : Nat} (hr : reason < 16) : (m.sessRefuse reason).fld Reg.SAFE_SESS_STAT 27 24 = reason := by
  rw [Mach.fld, Mach.sessRefuse_sessStat]
  exact (m.fld_setFld reason (by decide) (by decide)).trans (Nat.mod_eq_of_lt hr)

theorem Mach.sessRefuse_sess (reason : Nat) : (m.sessRefuse reason).sess = m.sess := by
  rw [Mach.sess, Mach.fld, Mach.sessRefuse_sessStat]
  exact m.fld_setFld_other reason (by decide) (by decide) (by decide) (.inr (.inr (by decide)))

theorem Mach.sessRefuse_count (reason : Nat) : (m.sessRefuse reason).fld Reg.SAFE_SESS_STAT 23 16 = m.fld Reg.SAFE_SESS_STAT 23 16 := by
  rw [Mach.fld, Mach.sessRefuse_sessStat]
  exact m.fld_setFld_other reason (by decide) (by decide) (by decide) (.inr (.inl (by decide)))

theorem Mach.sessRefuse_told (reason : Nat) : (m.sessRefuse reason).bit Reg.SAFE_IRQ_STAT 5 = true := Mach.bit_orr (i := 5) _ (by decide)

/-- The machine in a lockout of `d` seconds, which ends at `u`. -/
def Mach.lockedOut (m : Mach) (d u : Nat) : Mach :=
  ((m.onSafe fun s => { s with lockUntil := u }).setSess 3).setFld Reg.SAFE_SESS_STAT 15 0 d

theorem Mach.lockOut_short (h : m.fld Reg.SAFE_SESS_STAT 23 16 < 3) : m.lockOut = m.setSess 0 := if_pos (if_pos h)

theorem Mach.lockOut_long {n : Nat} (hn : m.fld Reg.SAFE_SESS_STAT 23 16 = n) (h : 3 ≤ n) :
    m.lockOut = m.lockedOut (min (60 * 2 ^ (min n 9 - 3)) 3840) (m.now + min (60 * 2 ^ (min n 9 - 3)) 3840 * oneSecond) := by
  have hd : lockoutSeconds n = min (60 * 2 ^ (min n 9 - 3)) 3840 := if_neg (by omega)
  have hpos : 0 < 2 ^ (min n 9 - 3) := by positivity
  rw [Mach.lockOut, hn, hd, if_neg (by omega)]
  rfl

theorem Mach.FocTells.lockOut (h : m₀.FocTells regs es m) (hst : Reg.SAFE_SESS_STAT ∈ regs) (hsafe : Reg.SAFE_STATUS ∈ regs) :
    m₀.FocTells regs es m.lockOut := by
  rcases Nat.lt_or_ge (m.fld Reg.SAFE_SESS_STAT 23 16) 3 with hn | hn
  · rw [Mach.lockOut_short hn]
    exact h.setSess hst hsafe 0
  · rw [Mach.lockOut_long rfl hn]
    exact ((h.onSafe _).setSess hst hsafe 3).wr hst (by decide) _

/-- An attempt that has failed, counted, before what follows from the count. -/
def Mach.attemptCounted (m : Mach) (reason : Nat) : Mach := (m.sessRefuse reason).incSat Reg.SAFE_SESS_STAT 23 16

theorem Mach.sessFailed_eq (reason : Nat) : m.sessFailed reason = (m.attemptCounted reason).lockOut := rfl

theorem Mach.attemptCounted_count (reason : Nat) :
    (m.attemptCounted reason).fld Reg.SAFE_SESS_STAT 23 16 = min (m.fld Reg.SAFE_SESS_STAT 23 16 + 1) 255 :=
  ((m.sessRefuse reason).fld_incSat (by decide) (by decide)).trans (by rw [Mach.sessRefuse_count]; rfl)

theorem Mach.attemptCounted_reason {reason : Nat} (hr : reason < 16) :
    (m.attemptCounted reason).fld Reg.SAFE_SESS_STAT 27 24 = reason :=
  (Mach.fld_setFld_other _ _ (by decide) (by decide) (by decide) (.inr (.inr (by decide)))).trans (Mach.sessRefuse_reason hr)

theorem Mach.FocTells.attemptCounted (h : m₀.FocTells regs es m) (hst : Reg.SAFE_SESS_STAT ∈ regs) (hirq : Reg.SAFE_IRQ_STAT ∈ regs)
    (reason : Nat) : m₀.FocTells regs (es ++ [eventAt m₀ 0x400D 0 0xFF [] 0]) (m.attemptCounted reason) :=
  (h.sessRefuse hst hirq reason).incSat hst (by decide) 23 16

theorem Mach.FocTells.sessFailed (h : m₀.FocTells regs es m) (hst : Reg.SAFE_SESS_STAT ∈ regs) (hsafe : Reg.SAFE_STATUS ∈ regs)
    (hirq : Reg.SAFE_IRQ_STAT ∈ regs) (reason : Nat) :
    m₀.FocTells regs (es ++ [eventAt m₀ 0x400D 0 0xFF [] 0]) (m.sessFailed reason) :=
  (h.attemptCounted hst hirq reason).lockOut hst hsafe

/-- Of the block's state a failed attempt changes the end of the lockout. -/
theorem Mach.sessFailed_safe (reason : Nat) : ∃ u, (m.sessFailed reason).safe = { m.safe with lockUntil := u } := by
  rcases Nat.lt_or_ge ((m.attemptCounted reason).fld Reg.SAFE_SESS_STAT 23 16) 3 with hn | hn
  · rw [Mach.sessFailed_eq, Mach.lockOut_short hn]
    exact ⟨m.safe.lockUntil, rfl⟩
  · rw [Mach.sessFailed_eq, Mach.lockOut_long rfl hn]
    exact ⟨_, rfl⟩
end

section
variable {m : Mach} {d u : Nat}

theorem Mach.lockedOut_fld {hi lo : Nat} (hlh : lo ≤ hi) (hlo : 15 < lo) (hhi : hi < 28) :
    (m.lockedOut d u).fld Reg.SAFE_SESS_STAT hi lo = m.fld Reg.SAFE_SESS_STAT hi lo :=
  (Mach.fld_setFld_other _ _ (by decide) (by decide) hlh (.inr (.inr hlo))).trans (Mach.setSess_fld _ hlh hhi)

theorem Mach.lockedOut_sess : (m.lockedOut d u).sess = 3 :=
  (Mach.fld_setFld_other _ _ (by decide) (by decide) (by decide) (.inr (.inr (by decide)))).trans
    (Mach.sess_setSess (m := m.onSafe fun s => { s with lockUntil := u }) (by decide))

theorem Mach.lockedOut_seconds (hd : d < 65536) : (m.lockedOut d u).fld Reg.SAFE_SESS_STAT 15 0 = d :=
  (Mach.fld_setFld _ _ (by decide) (by decide)).trans (Nat.mod_eq_of_lt hd)

theorem Mach.lockedOut_shown : (m.lockedOut d u).bit Reg.SAFE_STATUS 27 = true :=
  (Mach.bit_setFld_other _ _ (by decide) (by decide) (.inl (by decide))).trans (Mach.setSess_locked 3)

/-- What an attempt shows that begins a lockout. -/
theorem lockedOut_shows {m' : Mach} (hm : m' = (m.lockedOut d u).settle) (hd : d < 65536) :
    m'.sess = 3 ∧ m'.bit Reg.SAFE_STATUS 27 = true ∧ m'.fld Reg.SAFE_SESS_STAT 15 0 = d ∧ m'.safe.lockUntil = u := by
  subst hm
  refine ⟨?_, ?_, ?_, rfl⟩
  · rw [Mach.settle_sess, Mach.lockedOut_sess]
  · rw [Mach.settle_bit, Mach.lockedOut_shown]
  · rw [Mach.settle_fld, Mach.lockedOut_seconds hd]

/-- A failed attempt by its count `n`: below three the session is closed, and from three on a lockout of `d` seconds begins. -/
theorem Mach.sessFailed_shows {reason n : Nat} (hr : reason < 16) (hn : min (m.fld Reg.SAFE_SESS_STAT 23 16 + 1) 255 = n) :
    (m.sessFailed reason).fld Reg.SAFE_SESS_STAT 27 24 = reason ∧ (m.sessFailed reason).fld Reg.SAFE_SESS_STAT 23 16 = n ∧
      (n < 3 → m.sessFailed reason = (m.attemptCounted reason).setSess 0) ∧
      (3 ≤ n → m.sessFailed reason = (m.attemptCounted reason).lockedOut (min (60 * 2 ^ (min n 9 - 3)) 3840)
        (m.now + min (60 * 2 ^ (min n 9 - 3)) 3840 * oneSecond)) := by
  have hc := (Mach.attemptCounted_count (m := m) reason).trans hn
  have hreason := Mach.attemptCounted_reason (m := m) hr
  have hnow : (m.attemptCounted reason).now = m.now := rfl
  rw [Mach.sessFailed_eq]
  rcases Nat.lt_or_ge n 3 with h | h
  · rw [Mach.lockOut_short (hc.trans_lt h), Mach.setSess_fld 0 (by decide) (by decide), Mach.setSess_fld 0 (by decide) (by decide)]
    exact ⟨hreason, hc, fun _ => rfl, fun h' => absurd h (Nat.not_lt.2 h')⟩
  · rw [Mach.lockOut_long hc h, Mach.lockedOut_fld (by decide) (by decide) (by decide),
      Mach.lockedOut_fld (by decide) (by decide) (by decide), hnow]
    exact ⟨hreason, hc, fun h' => absurd h' (Nat.not_lt.2 h), fun _ => rfl⟩

/-- What a failed attempt comes to (R424, R425). -/
theorem attemptFails_of_sessFailed {s t : State} {cyc reason : Nat} (hr : reason < 16) (hm : t.m = (m.sessFailed reason).settle)
    (hcount : m.fld Reg.SAFE_SESS_STAT 23 16 = s.m.fld Reg.SAFE_SESS_STAT 23 16) (htried : m.safe.tried = [])
    (hnow : m.now = (s.at cyc).now) : AttemptFails s t cyc reason := by
  obtain ⟨v, hv⟩ := Mach.sessFailed_safe (m := m) reason
  have htried' : t.m.safe.tried = [] := by rw [hm, Mach.settle_safe, hv]; exact htried
  obtain ⟨hreason, hc, hshort, hlong⟩ := Mach.sessFailed_shows (m := m) hr (by rw [hcount])
  refine ⟨?_, ?_, htried', fun h => ?_, fun h => ?_⟩
  · rw [hm, Mach.settle_fld, hreason]
  · rw [hm, Mach.settle_fld, hc]
  · rw [hm, hshort h, Mach.settle_sess, Mach.sess_setSess (by decide), Mach.settle_bit, Mach.setSess_locked]
    exact ⟨rfl, rfl⟩
  · rw [if_neg (Nat.not_lt.2 h), ← hnow]
    refine lockedOut_shows (m := m.attemptCounted reason) ?_ (by omega)
    rw [hm, hlong h]
end

end Sys2Proof.Machine
end

section
/-! What each command of a session does (R423 to R426): OPEN, the end of the check, CLOSE, the limits of time and SETPW. -/

namespace Sys2Proof.Machine

/-! ### A write of SAFE_SESS_CMD (R300, R431) -/

theorem bits_withBits_sessCmd (v : Word) (c : Nat) :
    (v.withBits 31 28 c).bits 5 0 = v.bits 5 0 ∧ (v.withBits 31 28 c).bits 31 28 = c % 16 :=
  ⟨v.bits_withBits_other c (by decide) (by decide) (by decide) (.inl (by decide)), v.bits_withBits c (by decide) (by decide)⟩

section
variable {s : State} {l : Lane} {cyc : Nat} {v : Word} {ok : Bool} {m : Mach} {regs : List Nat} {es : List Event}

/-- A write of SAFE_SESS_CMD. -/
abbrev Mach.sessWrite (m : Mach) (mem : List Host.Cell) (who : Writer) (v : Word) (ok : Bool) : Mach × List Host.Cell :=
  m.serviceMem mem who Reg.SAFE_SESS_CMD v fun m => m.sessCommand mem v ok

theorem sessWrite_now (h : DutyNow s l) : (s.at cyc).sessWrite s.mem (.lane l) v ok = (s.at cyc).sessCommand s.mem v ok :=
  Mach.serviceMem_now h cyc _

theorem dutyElsewhere_sessWrite (s : State) (l : Lane) (cyc : Nat) (v : Word) (ok : Bool) :
    DutyElsewhere s l Reg.SAFE_SESS_CMD v (runMem s cyc fun m mem => m.sessWrite mem (.lane l) v ok) :=
  dutyElsewhere_serviceMem cyc fun mem m => m.sessCommand mem v ok

theorem Mach.sessCommand_open (m : Mach) (mem : List Host.Cell) (v : Word) (ok : Bool) :
    m.sessCommand mem (v.withBits 31 28 1) ok = (m.openSession (v.withBits 31 28 1), mem) := by
  rw [Mach.sessCommand, (bits_withBits_sessCmd v 1).2]
  rfl

theorem Mach.sessCommand_close (m : Mach) (mem : List Host.Cell) (v : Word) (ok : Bool) :
    m.sessCommand mem (v.withBits 31 28 2) ok = m.closeSession mem ok := by
  rw [Mach.sessCommand, (bits_withBits_sessCmd v 2).2]
  rfl

theorem Mach.sessCommand_setPassword (m : Mach) (mem : List Host.Cell) (v : Word) (ok : Bool) :
    m.sessCommand mem (v.withBits 31 28 3) ok = m.setPassword mem (v.withBits 31 28 3) ok := by
  rw [Mach.sessCommand, (bits_withBits_sessCmd v 3).2]
  rfl

/-- A command that the state of the session does not allow. -/
theorem runMem_sessionUnmoved {f : Mach → List Host.Cell → Mach × List Host.Cell}
    (hf : f (s.at cyc) s.mem = (((s.at cyc).raise 0x400D 0).safeIrq 5, s.mem)) :
    ∃ t, runMem s cyc f = .next t ∧ SessionUnmoved s t cyc := by
  obtain ⟨t, ht, hm, hregs, hmem, hes⟩ := runMem_makes hf
    (((Mach.FocTells.refl (s.at cyc) [Reg.SAFE_IRQ_STAT]).raise ..).safeIrq (by decide) 5)
  refine ⟨t, ht, by rw [hm]; rfl, ?_, hes, hregs, hmem⟩
  rw [hm, Mach.settle_bit]
  exact Mach.bit_orr (i := 5) _ (by decide)

/-- A command refused for a reason, whatever it changed of the block's state. -/
theorem runMem_sessionRefused {f : Mach → List Host.Cell → Mach × List Host.Cell} {reason : Nat} (hr : reason < 16)
    (hf : f (s.at cyc) s.mem = (m.sessRefuse reason, s.mem))
    (h : (s.at cyc).FocTells [Reg.SAFE_SESS_STAT, Reg.SAFE_IRQ_STAT] [] m) (hsess : m.sess = s.m.sess) :
    ∃ t, runMem s cyc f = .next t ∧ SessionRefused s t cyc reason ∧ t.m.safe = m.safe := by
  obtain ⟨t, ht, hm, hregs, hmem, hes⟩ := runMem_makes hf (h.sessRefuse (by decide) (by decide) reason)
  refine ⟨t, ht, ⟨?_, ?_, ?_, hes, hregs, hmem⟩, by rw [hm]; rfl⟩
  · rw [hm, Mach.settle_fld, Mach.sessRefuse_reason hr]
  · rw [hm, Mach.settle_sess, Mach.sessRefuse_sess, hsess]
  · rw [hm, Mach.settle_bit, Mach.sessRefuse_told]

theorem exec_sessWrite_unmoved (h : DutyNow s l) (hr : (s.at cyc).sessCommand s.mem v ok = (((s.at cyc).raise 0x400D 0).safeIrq 5, s.mem)) :
    ∃ t, (runMem s cyc fun m mem => m.sessWrite mem (.lane l) v ok) = .next t ∧ SessionUnmoved s t cyc :=
  runMem_sessionUnmoved (f := fun m mem => m.sessWrite mem (.lane l) v ok) ((sessWrite_now h).trans hr)

theorem exec_sessWrite_refused {reason : Nat} (h : DutyNow s l) (hr : reason < 16)
    (hf : (s.at cyc).sessCommand s.mem v ok = (m.sessRefuse reason, s.mem))
    (ht : (s.at cyc).FocTells [Reg.SAFE_SESS_STAT, Reg.SAFE_IRQ_STAT] [] m) (hsess : m.sess = s.m.sess) :
    ∃ t, (runMem s cyc fun m mem => m.sessWrite mem (.lane l) v ok) = .next t ∧ SessionRefused s t cyc reason ∧ t.m.safe = m.safe :=
  runMem_sessionRefused (f := fun m mem => m.sessWrite mem (.lane l) v ok) hr ((sessWrite_now h).trans hf) ht hsess
end

/-! ### OPEN (R423, R424) -/

section
variable (m : Mach)

theorem Mach.FocTells.clearPw {m₀ m : Mach} {regs : List Nat} {es : List Event} (h : m₀.FocTells regs es m)
    (hsub : ∀ w < 8, Reg.SAFE_PW_BUF w ∈ regs) : m₀.FocTells regs es m.clearPw := by
  have hstamp : ∀ w < 8, Reg.SAFE_PW_BUF w ∉ stampRegs := by decide
  refine forL_induct (P := fun m => m₀.FocTells regs es m) (fun w hw m hm => ?_) h
  have hw8 : w < 8 := List.mem_range.1 hw
  exact hm.wr (hsub w hw8) (hstamp w hw8) _

theorem Mach.clearPw_safe : m.clearPw.safe = m.safe := forN_keeps (β := SafeState) Mach.safe (fun _ _ => rfl) 8 m

theorem Mach.clearPw_free : m.clearPw.free = m.free := forN_keeps (β := Nat) Mach.free (fun _ _ => rfl) 8 m

/-- The registers of the password's buffer. -/
abbrev pwRegs : List Nat := (List.range 8).map Reg.SAFE_PW_BUF

theorem pwBuf_mem_pwRegs : ∀ w < 8, Reg.SAFE_PW_BUF w ∈ pwRegs := by decide

theorem Mach.clearPw_rd (w : Fin 8) : m.clearPw.rd (Reg.SAFE_PW_BUF w) = 0#32 :=
  ((forL_rewrites (P := fun _ => True) (reg := Reg.SAFE_PW_BUF) (w := fun _ _ => 0#32) (f := fun w m => m.wr (Reg.SAFE_PW_BUF w) 0#32)
    (fun i j h => by simp only [Reg.SAFE_PW_BUF] at h; omega) (fun _ _ _ => trivial) (fun k m _ b => m.rd_wr _ b _) List.nodup_range
    (m := m) trivial).1 w).trans (if_pos (List.mem_range.2 w.isLt))
end

section
variable {s : State} {l : Lane} {cyc : Nat} {v : Word}

/-- The password that OPEN and SETPW take. -/
abbrev sessPw (s : State) (v : Word) : List Nat := s.m.pwBytes (v.bits 5 0)

theorem exec_sessionOpen_busy (h : DutyNow s l) (hs : s.m.sess = 1 ∨ s.m.sess = 2) :
    ∃ t, exec (.sessionOpen cyc (.lane l) v) s = .next t ∧ SessionUnmoved s t cyc := by
  have hopen : (s.at cyc).openSession (v.withBits 31 28 1) = ((s.at cyc).raise 0x400D 0).safeIrq 5 := if_pos hs
  exact exec_sessWrite_unmoved (ok := true) h ((Mach.sessCommand_open ..).trans (by rw [hopen]))

theorem exec_sessionOpen_refused {reason : Nat} (h : DutyNow s l) (hr : reason < 16)
    (hopen : (s.at cyc).openSession (v.withBits 31 28 1) = (s.at cyc).sessRefuse reason) :
    ∃ t, exec (.sessionOpen cyc (.lane l) v) s = .next t ∧ SessionRefused s t cyc reason ∧ t.m.safe = s.m.safe :=
  exec_sessWrite_refused (m := s.at cyc) (ok := true) h hr ((Mach.sessCommand_open ..).trans (by rw [hopen]))
    (Mach.FocTells.refl _ _) rfl

variable (cyc v) in
theorem openSession_away (h1 : s.m.sess ≠ 1) (h2 : s.m.sess ≠ 2) (hmode : s.m.mode ≠ .standby) :
    (s.at cyc).openSession v = (s.at cyc).sessRefuse 2 := by
  have hs : ¬((s.at cyc).sess = 1 ∨ (s.at cyc).sess = 2) := fun h => h.elim h1 h2
  rw [Mach.openSession, if_neg hs]
  exact if_pos hmode

variable (cyc v) in
/-- OPEN in STANDBY with the session closed or in a lockout. -/
theorem openSession_standby (h1 : s.m.sess ≠ 1) (h2 : s.m.sess ≠ 2) (hmode : s.m.mode = .standby) :
    (s.at cyc).openSession v =
      if s.m.sess = 3 then (s.at cyc).sessRefuse 3
      else if !pwOk (v.bits 5 0) (sessPw s v) then (s.at cyc).sessRefuse 5
      else (((s.at cyc).onSafe fun x => { x with
        tried := sessPw s v, who := (List.range 4).flatMap fun w => leBytes 4 (s.m.rd (Reg.SAFE_WHO w)).toNat }).clearPw).setSess 1 := by
  have hs : ¬((s.at cyc).sess = 1 ∨ (s.at cyc).sess = 2) := fun h => h.elim h1 h2
  have hmode' : ¬(s.at cyc).mode ≠ .standby := not_not.2 hmode
  rw [Mach.openSession, if_neg hs, if_neg hmode']
  rfl

theorem sessPw_withBits (c : Nat) : sessPw s (v.withBits 31 28 c) = sessPw s v := by rw [sessPw, (bits_withBits_sessCmd v c).1]

theorem exec_sessionOpen_taken (h : DutyNow s l) (hs : s.m.sess = 0) (hmode : s.m.mode = .standby)
    (hpw : pwOk (v.bits 5 0) (sessPw s v) = true) :
    ∃ t, exec (.sessionOpen cyc (.lane l) v) s = .next t ∧ t.m.sess = 1 ∧
      t.m.safe = { s.m.safe with
        tried := sessPw s v, who := (List.range 4).flatMap fun w => leBytes 4 (s.m.rd (Reg.SAFE_WHO w)).toNat } ∧
      (∀ w : Fin 8, t.m.rd (Reg.SAFE_PW_BUF w) = 0#32) ∧
      Quiet s t ([Reg.SAFE_SESS_STAT, Reg.SAFE_STATUS] ++ pwRegs) := by
  have hopen := openSession_standby cyc (v.withBits 31 28 1) (s := s) (by omega) (by omega) hmode
  rw [if_neg (by omega), sessPw_withBits, (bits_withBits_sessCmd v 1).1, hpw, if_neg (by decide)] at hopen
  generalize hg : ((s.at cyc).onSafe fun x => { x with
    tried := sessPw s v, who := (List.range 4).flatMap fun w => leBytes 4 (s.m.rd (Reg.SAFE_WHO w)).toNat }) = taken at hopen
  have htells : (s.at cyc).FocTells ([Reg.SAFE_SESS_STAT, Reg.SAFE_STATUS] ++ pwRegs) [] taken := by
    rw [← hg]
    exact (Mach.FocTells.refl _ _).onSafe _
  obtain ⟨t, ht, hm, hquiet⟩ := runMem_makes (s := s) (cyc := cyc)
    (f := fun m mem => m.sessWrite mem (.lane l) (v.withBits 31 28 1) true)
    ((sessWrite_now h).trans ((Mach.sessCommand_open ..).trans (by rw [hopen])))
    ((htells.clearPw fun w hw => List.mem_append_right _ (pwBuf_mem_pwRegs w hw)).setSess (by decide) (by decide) 1)
  refine ⟨t, ht, ?_, ?_, fun w => ?_, hquiet⟩
  · rw [hm, Mach.settle_sess, Mach.sess_setSess (by decide)]
  · rw [hm]
    exact (Mach.clearPw_safe taken).trans (by rw [← hg]; rfl)
  · have hother : ∀ w : Fin 8, Reg.SAFE_PW_BUF w ∉ [Reg.SAFE_SESS_STAT, Reg.SAFE_STATUS] := by decide
    rw [hm, Mach.settle_rd]
    exact (((Mach.FocTells.refl taken.clearPw [Reg.SAFE_SESS_STAT, Reg.SAFE_STATUS]).setSess (by decide) (by decide) 1).rd _
      (hother w)).trans (taken.clearPw_rd w)
end

/-! ### The end of the check (R424) -/

section
variable {s : State} {cyc : Nat}

/-- The machine once the tried password is taken from it. -/
def Mach.triedTaken (m : Mach) : Mach := m.onSafe fun x => { x with tried := [] }

theorem Mach.sameLog_triedTaken (m : Mach) : m.SameLog m.triedTaken := (Mach.SameLog.refl m).onSafe rfl rfl rfl rfl

theorem Mach.triedTaken_tells (m : Mach) (regs : List Nat) : m.FocTells regs [] m.triedTaken := (Mach.FocTells.refl m regs).onSafe _

theorem Mach.logTurned_tried (m : Mach) (mem : List Host.Cell) : (m.triedTaken.logTurned mem).safe.tried = [] := by
  rw [Mach.logTurned]
  refine Eq.trans (b := (m.triedTaken.logOpen mem).1.safe.tried) rfl ?_
  unfold Mach.logOpen
  split <;> rfl

/-- The password that is checked is the right one. -/
abbrev PasswordRight (s : State) : Prop := passwordHash s.m.safe.pw.salt s.m.safe.tried s.m.safe.pw.iter = s.m.safe.pw.hash

theorem checkPassword_standby (hs : s.m.sess = 1) (hmode : s.m.mode = .standby) (ok : Bool) :
    (s.at cyc).checkPassword s.mem ok =
      if PasswordRight s then
        let x := (s.at cyc).triedTaken.logAppend s.mem ok 1 0 0 0
        if ok then
          let m := ((x.1.setSess 2).setFld Reg.SAFE_SESS_STAT 27 16 0).onSafe fun s => { s with sessAt := x.1.now }
          ((m.raise 0x400C 0).safeIrq 5, x.2)
        else (x.1.sessFailed 4, x.2)
      else
        let x := (s.at cyc).triedTaken.logAppend s.mem ok 2 1 0 0
        (x.1.sessFailed 1, x.2) := by
  have hs' : ¬(s.at cyc).sess ≠ 1 := not_not.2 hs
  have hmode' : ¬(s.at cyc).triedTaken.mode ≠ .standby := not_not.2 hmode
  have hpw : (s.at cyc).triedTaken.safe.pw = s.m.safe.pw := rfl
  have htried : (s.at cyc).safe.tried = s.m.safe.tried := rfl
  rw [Mach.checkPassword, if_neg hs']
  dsimp only
  rw [← Mach.triedTaken, if_neg hmode', hpw, htried]

theorem exec_passwordCheck_fails {reason kind detail : Nat} {ok : Bool} {regs : List Nat} {es : List Event} (hr : reason < 16)
    (hcheck : (s.at cyc).checkPassword s.mem ok =
      (((s.at cyc).triedTaken.logAppend s.mem ok kind detail 0 0).1.sessFailed reason,
        ((s.at cyc).triedTaken.logAppend s.mem ok kind detail 0 0).2))
    (htells : (s.at cyc).FocTells regs es ((s.at cyc).triedTaken.logAppend s.mem ok kind detail 0 0).1)
    (hst : Reg.SAFE_SESS_STAT ∈ regs) (hsafe : Reg.SAFE_STATUS ∈ regs) (hirq : Reg.SAFE_IRQ_STAT ∈ regs)
    (hcount : ((s.at cyc).triedTaken.logAppend s.mem ok kind detail 0 0).1.fld Reg.SAFE_SESS_STAT 23 16 =
      s.m.fld Reg.SAFE_SESS_STAT 23 16) :
    ∃ t, exec (.passwordCheckComplete cyc ok) s = .next t ∧ AttemptFails s t cyc reason ∧
      t.m = (((s.at cyc).triedTaken.logAppend s.mem ok kind detail 0 0).1.sessFailed reason).settle ∧
      t.mem = ((s.at cyc).triedTaken.logAppend s.mem ok kind detail 0 0).2 ∧
      t.m.safe.logSlot = ((s.at cyc).triedTaken.logTurned s.mem).safe.logSlot ∧
      t.m.safe.logSector = ((s.at cyc).triedTaken.logTurned s.mem).safe.logSector ∧
      Raises s t (es ++ [eventAt (s.at cyc) 0x400D 0 0xFF [] 0]) ∧ SameRegsBut s t regs := by
  obtain ⟨t, ht, hm, hmem, hregs, hes⟩ := runMem_tells (f := fun m mem => m.checkPassword mem ok) hcheck
    (htells.sessFailed hst hsafe hirq reason)
  have hsafe' := (s.at cyc).triedTaken.logAppend_safe s.mem ok kind detail 0 0
  have htried := (s.at cyc).logTurned_tried s.mem
  have hnow := htells.now
  generalize (s.at cyc).triedTaken.logAppend s.mem ok kind detail 0 0 = x at *
  obtain ⟨u, hu⟩ := Mach.sessFailed_safe (m := x.1) reason
  have hfail : AttemptFails s t cyc reason :=
    attemptFails_of_sessFailed hr hm hcount (by rw [hsafe', htried]) hnow
  refine ⟨t, ht, hfail, hm, hmem, ?_, ?_, hes, hregs⟩
  · rw [hm, Mach.settle_safe, hu, hsafe']
  · rw [hm, Mach.settle_safe, hu, hsafe']

theorem exec_passwordCheck_fails_logged (hwf : Memory.wf s.mem = true) (hs : s.m.sess = 1) (hmode : s.m.mode = .standby)
    (hwrong : ¬PasswordRight s) :
    ∃ t, exec (.passwordCheckComplete cyc true) s = .next t ∧ AttemptFails s t cyc 1 ∧ LogTakes s t cyc 2 1 ∧
      Raises s t [eventAt (s.at cyc) 0x400D 0 0xFF [] 0] ∧
      SameRegsBut s t [Reg.SAFE_SESS_STAT, Reg.SAFE_STATUS, Reg.SAFE_IRQ_STAT, Reg.SAFE_LOG_STAT] := by
  have hlog : (s.at cyc).triedTaken.FocTells [Reg.SAFE_LOG_STAT] [] ((s.at cyc).triedTaken.logAppend s.mem true 2 1 0 0).1 :=
    Mach.logAppend_ok_tells _ _ (by decide) _ _ _ _
  have htells := (((s.at cyc).triedTaken_tells [Reg.SAFE_LOG_STAT]).trans hlog).mono
    (regs' := [Reg.SAFE_SESS_STAT, Reg.SAFE_STATUS, Reg.SAFE_IRQ_STAT, Reg.SAFE_LOG_STAT]) (by decide)
  obtain ⟨t, ht, hfail, hm, hmem, hslot, hsector, hes, hregs⟩ := exec_passwordCheck_fails (reason := 1) (by decide)
    ((checkPassword_standby hs hmode true).trans (if_neg hwrong)) htells (by decide) (by decide) (by decide)
    (congrArg (Word.bits · 23 16) (hlog.rd _ (by decide)))
  refine ⟨t, ht, hfail, logTakes_of_sameLog (s.at cyc).sameLog_triedTaken hwf hmem ?_ hslot hsector, hes, hregs⟩
  rw [hm, Mach.settle_rd]
  exact ((Mach.FocTells.refl _ [Reg.SAFE_SESS_STAT, Reg.SAFE_STATUS, Reg.SAFE_IRQ_STAT]).sessFailed (by decide) (by decide) (by decide)
    1).rd _ (by decide)

/-- An attempt whose entry does not stand. -/
theorem exec_passwordCheck_fails_unlogged {reason kind detail : Nat} (hr : reason < 16) (hwf : Memory.wf s.mem = true)
    (hcheck : (s.at cyc).checkPassword s.mem false =
      (((s.at cyc).triedTaken.logAppend s.mem false kind detail 0 0).1.sessFailed reason,
        ((s.at cyc).triedTaken.logAppend s.mem false kind detail 0 0).2)) :
    ∃ t, exec (.passwordCheckComplete cyc false) s = .next t ∧ AttemptFails s t cyc reason ∧ LogLoses s t cyc ∧
      Raises s t [eventAt (s.at cyc) 0x4010 0 0xFF [] 0, eventAt (s.at cyc) 0x400D 0 0xFF [] 0] ∧
      SameRegsBut s t [Reg.SAFE_SESS_STAT, Reg.SAFE_STATUS, Reg.SAFE_IRQ_STAT] := by
  have hlog : (s.at cyc).triedTaken.FocTells [Reg.SAFE_IRQ_STAT] [eventAt (s.at cyc) 0x4010 0 0xFF [] 0]
      ((s.at cyc).triedTaken.logAppend s.mem false kind detail 0 0).1 := Mach.logAppend_fails_tells _ _ (by decide) _ _ _ _
  have htells : (s.at cyc).FocTells [Reg.SAFE_IRQ_STAT] [eventAt (s.at cyc) 0x4010 0 0xFF [] 0]
      ((s.at cyc).triedTaken.logAppend s.mem false kind detail 0 0).1 := ⟨hlog.now, hlog.cyc, hlog.tick, hlog.stamp, hlog.rd, hlog.raised⟩
  obtain ⟨t, ht, hfail, -, hmem, hslot, hsector, hes, hregs⟩ := exec_passwordCheck_fails hr hcheck
    (htells.mono (regs' := [Reg.SAFE_SESS_STAT, Reg.SAFE_STATUS, Reg.SAFE_IRQ_STAT]) (by decide)) (by decide) (by decide) (by decide)
    (congrArg (Word.bits · 23 16) (hlog.rd _ (by decide)))
  exact ⟨t, ht, hfail, logLoses_of_sameLog (s.at cyc).sameLog_triedTaken hwf hmem (hregs _ (by decide)) hslot hsector, hes, hregs⟩

/-- The machine in an open session. -/
def Mach.sessionOpened (m : Mach) : Mach :=
  ((((m.setSess 2).setFld Reg.SAFE_SESS_STAT 27 16 0).onSafe fun s => { s with sessAt := m.now }).raise 0x400C 0).safeIrq 5

theorem Mach.FocTells.sessionOpened {m₀ m : Mach} {regs : List Nat} {es : List Event} (h : m₀.FocTells regs es m)
    (hst : Reg.SAFE_SESS_STAT ∈ regs) (hsafe : Reg.SAFE_STATUS ∈ regs) (hirq : Reg.SAFE_IRQ_STAT ∈ regs) :
    m₀.FocTells regs (es ++ [eventAt m₀ 0x400C 0 0xFF [] 0]) m.sessionOpened :=
  ((((h.setSess hst hsafe 2).wr (a := Reg.SAFE_SESS_STAT) hst (by decide) _).onSafe _).raise ..).safeIrq hirq 5

section
variable (m : Mach)

theorem Mach.sessionOpened_sessStat : m.sessionOpened.rd Reg.SAFE_SESS_STAT =
    ((m.setSess 2).setFld Reg.SAFE_SESS_STAT 27 16 0).rd Reg.SAFE_SESS_STAT := by
  rw [Mach.sessionOpened, Mach.safeIrq, Mach.rd_orr, if_neg (by decide), Mach.raise_rd, Mach.onSafe_rd]

theorem Mach.sessionOpened_sess : m.sessionOpened.sess = 2 :=
  (Mach.sess_congr m.sessionOpened_sessStat).trans
    ((Mach.fld_setFld_other _ _ (by decide) (by decide) (by decide) (.inr (.inr (by decide)))).trans (Mach.sess_setSess (by decide)))

theorem Mach.sessionOpened_shown : m.sessionOpened.bit Reg.SAFE_STATUS 28 = true := by
  have hrd : m.sessionOpened.rd Reg.SAFE_STATUS = (m.setSess 2).rd Reg.SAFE_STATUS := by
    rw [Mach.sessionOpened, Mach.safeIrq, Mach.rd_orr, if_neg (by decide), Mach.raise_rd, Mach.onSafe_rd, Mach.setFld,
      Mach.rd_wr_other _ _ (by decide)]
  exact (congrArg (Word.bit · 28) hrd).trans (Mach.setSess_open 2)

theorem Mach.sessionOpened_count : m.sessionOpened.fld Reg.SAFE_SESS_STAT 27 16 = 0 :=
  (congrArg (Word.bits · 27 16) m.sessionOpened_sessStat).trans (Mach.fld_setFld _ _ (by decide) (by decide))

theorem Mach.sessionOpened_safe : m.sessionOpened.safe = { m.safe with sessAt := m.now } := rfl
end

theorem exec_passwordCheck_opens (hwf : Memory.wf s.mem = true) (hs : s.m.sess = 1) (hmode : s.m.mode = .standby)
    (hright : PasswordRight s) :
    ∃ t, exec (.passwordCheckComplete cyc true) s = .next t ∧ t.m.sess = 2 ∧ t.m.bit Reg.SAFE_STATUS 28 = true ∧
      t.m.safe.tried = [] ∧ t.m.safe.sessAt = (s.at cyc).now ∧ t.m.fld Reg.SAFE_SESS_STAT 27 16 = 0 ∧ LogTakes s t cyc 1 0 ∧
      Raises s t [eventAt (s.at cyc) 0x400C 0 0xFF [] 0] ∧
      SameRegsBut s t [Reg.SAFE_SESS_STAT, Reg.SAFE_STATUS, Reg.SAFE_IRQ_STAT, Reg.SAFE_LOG_STAT] := by
  have hlog : (s.at cyc).triedTaken.FocTells [Reg.SAFE_LOG_STAT] [] ((s.at cyc).triedTaken.logAppend s.mem true 1 0 0 0).1 :=
    Mach.logAppend_ok_tells _ _ (by decide) _ _ _ _
  have htells := (((s.at cyc).triedTaken_tells [Reg.SAFE_LOG_STAT]).trans hlog).mono
    (regs' := [Reg.SAFE_SESS_STAT, Reg.SAFE_STATUS, Reg.SAFE_IRQ_STAT, Reg.SAFE_LOG_STAT]) (by decide)
  have hcheck : (s.at cyc).checkPassword s.mem true = (((s.at cyc).triedTaken.logAppend s.mem true 1 0 0 0).1.sessionOpened,
      ((s.at cyc).triedTaken.logAppend s.mem true 1 0 0 0).2) := (checkPassword_standby hs hmode true).trans (if_pos hright)
  obtain ⟨t, ht, hm, hmem, hregs, hes⟩ := runMem_tells (f := fun m mem => m.checkPassword mem true) hcheck
    (htells.sessionOpened (by decide) (by decide) (by decide))
  have hsafe := (s.at cyc).triedTaken.logAppend_safe s.mem true 1 0 0 0
  have hlogs := fun hnum hslot hsector =>
    logTakes_of_sameLog (t := t) (s.at cyc).sameLog_triedTaken hwf (kind := 1) (detail := 0) hmem hnum hslot hsector
  have hnow := htells.now
  generalize (s.at cyc).triedTaken.logAppend s.mem true 1 0 0 0 = x at *
  have hsafe' : t.m.safe = { ((s.at cyc).triedTaken.logTurned s.mem).safe with sessAt := x.1.now } := by
    rw [hm, Mach.settle_safe, Mach.sessionOpened_safe, hsafe]
  refine ⟨t, ht, ?_, ?_, ?_, ?_, ?_, hlogs ?_ (by rw [hsafe']) (by rw [hsafe']), hes, hregs⟩
  · rw [hm, Mach.settle_sess, Mach.sessionOpened_sess]
  · rw [hm, Mach.settle_bit, Mach.sessionOpened_shown]
  · rw [hsafe']
    exact (s.at cyc).logTurned_tried s.mem
  · rw [hsafe']
    exact hnow
  · rw [hm, Mach.settle_fld, Mach.sessionOpened_count]
  · rw [hm, Mach.settle_rd]
    exact ((Mach.FocTells.refl x.1 [Reg.SAFE_SESS_STAT, Reg.SAFE_STATUS, Reg.SAFE_IRQ_STAT]).sessionOpened (by decide) (by decide)
      (by decide)).rd _ (by decide)

theorem exec_passwordCheck_away (hs : s.m.sess = 1) (hmode : s.m.mode ≠ .standby) (ok : Bool) :
    ∃ t, exec (.passwordCheckComplete cyc ok) s = .next t ∧ t.m.sess = 0 ∧ t.m.fld Reg.SAFE_SESS_STAT 27 24 = 2 ∧
      t.m.safe = { s.m.safe with tried := [] } ∧ Raises s t [eventAt (s.at cyc) 0x400D 0 0xFF [] 0] ∧
      SameRegsBut s t [Reg.SAFE_SESS_STAT, Reg.SAFE_STATUS, Reg.SAFE_IRQ_STAT] ∧ SameMemory s t := by
  have hs' : ¬(s.at cyc).sess ≠ 1 := not_not.2 hs
  have hmode' : (s.at cyc).triedTaken.mode ≠ .standby := hmode
  have hcheck : (s.at cyc).checkPassword s.mem ok = (((s.at cyc).triedTaken.setSess 0).sessRefuse 2, s.mem) := by
    rw [Mach.checkPassword, if_neg hs']
    exact if_pos hmode'
  obtain ⟨t, ht, hm, hregs, hmem, hes⟩ := runMem_makes (f := fun m mem => m.checkPassword mem ok) hcheck
    ((((s.at cyc).triedTaken_tells [Reg.SAFE_SESS_STAT, Reg.SAFE_STATUS, Reg.SAFE_IRQ_STAT]).setSess (by decide) (by decide) 0).sessRefuse
      (by decide) (by decide) 2)
  refine ⟨t, ht, ?_, ?_, by rw [hm]; rfl, hes, hregs, hmem⟩
  · rw [hm, Mach.settle_sess, Mach.sessRefuse_sess, Mach.sess_setSess (by decide)]
  · rw [hm, Mach.settle_fld, Mach.sessRefuse_reason (by decide)]

theorem exec_passwordCheck_idle (hs : s.m.sess ≠ 1) (ok : Bool) :
    ∃ t, exec (.passwordCheckComplete cyc ok) s = .next t ∧ t.m.safe = s.m.safe ∧ Quiet s t [] := by
  obtain ⟨t, ht, hm, hquiet⟩ := runMem_makes (f := fun m mem => m.checkPassword mem ok) (if_pos hs)
    (Mach.FocTells.refl (s.at cyc) [])
  exact ⟨t, ht, by rw [hm]; rfl, hquiet⟩
end

/-! ### The end of a session (R425) -/

section
variable {s : State} {l : Lane} {cyc : Nat} {v : Word}

/-- The machine whose session is closed. -/
def Mach.sessionEnded (m : Mach) : Mach := ((m.setSess 0).raise 0x400E 0).safeIrq 5

theorem Mach.FocTells.sessionEnded {m₀ m : Mach} {regs : List Nat} {es : List Event} (h : m₀.FocTells regs es m)
    (hst : Reg.SAFE_SESS_STAT ∈ regs) (hsafe : Reg.SAFE_STATUS ∈ regs) (hirq : Reg.SAFE_IRQ_STAT ∈ regs) :
    m₀.FocTells regs (es ++ [eventAt m₀ 0x400E 0 0xFF [] 0]) m.sessionEnded :=
  ((h.setSess hst hsafe 0).raise ..).safeIrq hirq 5

theorem Mach.sessionEnded_rd (m : Mach) {a : Nat} (h : a ≠ Reg.SAFE_IRQ_STAT) : m.sessionEnded.rd a = (m.setSess 0).rd a := by
  rw [Mach.sessionEnded, Mach.safeIrq, Mach.rd_orr, if_neg h, Mach.raise_rd]

theorem Mach.sessionEnded_sess (m : Mach) : m.sessionEnded.sess = 0 :=
  (Mach.sess_congr (m.sessionEnded_rd (by decide))).trans (Mach.sess_setSess (by decide))

theorem Mach.sessionEnded_shown (m : Mach) : m.sessionEnded.bit Reg.SAFE_STATUS 28 = false :=
  (congrArg (Word.bit · 28) (m.sessionEnded_rd (by decide))).trans (Mach.setSess_open 0)

theorem Mach.sessionEnded_safe (m : Mach) : m.sessionEnded.safe = m.safe := rfl

theorem Mach.endSession_open {m : Mach} (h : m.sess = 2) (mem : List Host.Cell) (ok : Bool) (detail : Nat) :
    m.endSession mem ok detail = ((m.logAppend mem ok 3 detail 0 0).1.sessionEnded, (m.logAppend mem ok 3 detail 0 0).2) := by
  rw [Mach.endSession, if_neg (not_not.2 h)]
  rfl

/-- The entry that does not verify, of a machine that tells nothing of its own. -/
theorem logAppend_fails_tells_at {m : Mach} {regs : List Nat} (htells : (s.at cyc).FocTells regs [] m) (mem : List Host.Cell)
    (hirq : Reg.SAFE_IRQ_STAT ∈ regs) (kind detail : Nat) :
    (s.at cyc).FocTells regs [eventAt (s.at cyc) 0x4010 0 0xFF [] 0] (m.logAppend mem false kind detail 0 0).1 := by
  rw [Mach.logAppend_fails]
  exact (((htells.trans (m.logTurned_tells mem regs)).spend 64).raise ..).safeIrq hirq 5

section
variable {f : Mach → List Host.Cell → Mach × List Host.Cell} {m : Mach} {detail : Nat} (hsame : (s.at cyc).SameLog m)
  (htells : ∀ regs, (s.at cyc).FocTells regs [] m) (hwf : Memory.wf s.mem = true)
include hsame htells hwf

theorem runMem_sessionEnds_logged (hf : f (s.at cyc) s.mem =
      ((m.logAppend s.mem true 3 detail 0 0).1.sessionEnded, (m.logAppend s.mem true 3 detail 0 0).2)) :
    ∃ t, runMem s cyc f = .next t ∧ t.m.sess = 0 ∧ t.m.bit Reg.SAFE_STATUS 28 = false ∧ LogTakes s t cyc 3 detail ∧
      Raises s t [eventAt (s.at cyc) 0x400E 0 0xFF [] 0] ∧
      SameRegsBut s t [Reg.SAFE_SESS_STAT, Reg.SAFE_STATUS, Reg.SAFE_IRQ_STAT, Reg.SAFE_LOG_STAT] := by
  have hlog := ((htells [Reg.SAFE_LOG_STAT]).trans (m.logAppend_ok_tells s.mem (by decide) 3 detail 0 0)).mono
    (regs' := [Reg.SAFE_SESS_STAT, Reg.SAFE_STATUS, Reg.SAFE_IRQ_STAT, Reg.SAFE_LOG_STAT]) (by decide)
  obtain ⟨t, ht, hm, hmem, hregs, hes⟩ := runMem_tells hf (hlog.sessionEnded (by decide) (by decide) (by decide))
  have hsafe := m.logAppend_safe s.mem true 3 detail 0 0
  refine ⟨t, ht, ?_, ?_, logTakes_of_sameLog hsame hwf hmem ?_ ?_ ?_, hes, hregs⟩
  · rw [hm, Mach.settle_sess, Mach.sessionEnded_sess]
  · rw [hm, Mach.settle_bit, Mach.sessionEnded_shown]
  · rw [hm, Mach.settle_rd]
    exact ((Mach.FocTells.refl (m.logAppend s.mem true 3 detail 0 0).1
      [Reg.SAFE_SESS_STAT, Reg.SAFE_STATUS, Reg.SAFE_IRQ_STAT]).sessionEnded (by decide) (by decide) (by decide)).rd _ (by decide)
  · rw [hm, Mach.settle_safe, Mach.sessionEnded_safe, hsafe]
  · rw [hm, Mach.settle_safe, Mach.sessionEnded_safe, hsafe]

theorem runMem_sessionEnds_unlogged (hf : f (s.at cyc) s.mem =
      ((m.logAppend s.mem false 3 detail 0 0).1.sessionEnded, (m.logAppend s.mem false 3 detail 0 0).2)) :
    ∃ t, runMem s cyc f = .next t ∧ t.m.sess = 0 ∧ t.m.bit Reg.SAFE_STATUS 28 = false ∧ LogLoses s t cyc ∧
      Raises s t [eventAt (s.at cyc) 0x4010 0 0xFF [] 0, eventAt (s.at cyc) 0x400E 0 0xFF [] 0] ∧
      SameRegsBut s t [Reg.SAFE_SESS_STAT, Reg.SAFE_STATUS, Reg.SAFE_IRQ_STAT] := by
  have hlog := logAppend_fails_tells_at (htells [Reg.SAFE_SESS_STAT, Reg.SAFE_STATUS, Reg.SAFE_IRQ_STAT]) s.mem (by decide) 3 detail
  obtain ⟨t, ht, hm, hmem, hregs, hes⟩ := runMem_tells hf (hlog.sessionEnded (by decide) (by decide) (by decide))
  have hsafe := m.logAppend_safe s.mem false 3 detail 0 0
  refine ⟨t, ht, ?_, ?_, logLoses_of_sameLog hsame hwf hmem (hregs _ (by decide)) ?_ ?_, hes, hregs⟩
  · rw [hm, Mach.settle_sess, Mach.sessionEnded_sess]
  · rw [hm, Mach.settle_bit, Mach.sessionEnded_shown]
  · rw [hm, Mach.settle_safe, Mach.sessionEnded_safe, hsafe]
  · rw [hm, Mach.settle_safe, Mach.sessionEnded_safe, hsafe]

omit htells in
/-- A command whose entry of the change log does not stand is refused for REASON 4. -/
theorem runMem_unlogged_refused {kind : Nat} {regs : List Nat} (hwide : (s.at cyc).FocTells regs [eventAt (s.at cyc) 0x4010 0 0xFF [] 0]
      (m.logAppend s.mem false kind detail 0 0).1) (hst : Reg.SAFE_SESS_STAT ∈ regs) (hirq : Reg.SAFE_IRQ_STAT ∈ regs)
    (hlogstat : Reg.SAFE_LOG_STAT ∉ regs)
    (hstat : (m.logAppend s.mem false kind detail 0 0).1.rd Reg.SAFE_SESS_STAT = s.m.rd Reg.SAFE_SESS_STAT) (hf : f (s.at cyc) s.mem =
      ((m.logAppend s.mem false kind detail 0 0).1.sessRefuse 4, (m.logAppend s.mem false kind detail 0 0).2)) :
    ∃ t, runMem s cyc f = .next t ∧ t.m = ((m.logAppend s.mem false kind detail 0 0).1.sessRefuse 4).settle ∧
      t.m.sess = s.m.sess ∧ t.m.fld Reg.SAFE_SESS_STAT 27 24 = 4 ∧ LogLoses s t cyc ∧
      Raises s t [eventAt (s.at cyc) 0x4010 0 0xFF [] 0, eventAt (s.at cyc) 0x400D 0 0xFF [] 0] ∧ SameRegsBut s t regs := by
  obtain ⟨t, ht, hm, hmem, hregs, hes⟩ := runMem_tells hf (hwide.sessRefuse hst hirq 4)
  have hsafe := m.logAppend_safe s.mem false kind detail 0 0
  have hsess : (m.logAppend s.mem false kind detail 0 0).1.sess = s.m.sess := Mach.sess_congr hstat
  have hloses := fun hslot hsector => logLoses_of_sameLog (t := t) hsame hwf hmem (hregs _ hlogstat) hslot hsector
  generalize m.logAppend s.mem false kind detail 0 0 = x at *
  have hsafe' : t.m.safe = x.1.safe := by rw [hm]; rfl
  refine ⟨t, ht, hm, ?_, ?_, hloses ?_ ?_, hes, hregs⟩
  · rw [hm, Mach.settle_sess, Mach.sessRefuse_sess, hsess]
  · rw [hm, Mach.settle_fld, Mach.sessRefuse_reason (by decide)]
  · rw [hsafe', hsafe]
  · rw [hsafe', hsafe]
end

/-! ### CLOSE (R425) -/

/-- The machine with the stamp of a session's command. -/
def Mach.sessStamped (m : Mach) : Mach := m.onSafe fun s => { s with sessAt := m.now }

theorem Mach.sameLog_sessStamped (m : Mach) : m.SameLog m.sessStamped := (Mach.SameLog.refl m).onSafe rfl rfl rfl rfl

theorem Mach.sessStamped_tells (m : Mach) (regs : List Nat) : m.FocTells regs [] m.sessStamped := (Mach.FocTells.refl m regs).onSafe _

theorem closeSession_open (hs : s.m.sess = 2) (ok : Bool) : (s.at cyc).closeSession s.mem ok =
    if s.m.mode = .service then ((s.at cyc).sessStamped.sessRefuse 2, s.mem)
    else if ok then (s.at cyc).sessStamped.endSession s.mem true 0
    else (((s.at cyc).sessStamped.logAppend s.mem false 3 0 0 0).1.sessRefuse 4,
      ((s.at cyc).sessStamped.logAppend s.mem false 3 0 0 0).2) := by
  have hs' : ¬(s.at cyc).sess ≠ 2 := not_not.2 hs
  rw [Mach.closeSession, if_neg hs']
  rfl

theorem exec_sessionClose_none (h : DutyNow s l) (hs : s.m.sess ≠ 2) (ok : Bool) :
    ∃ t, exec (.sessionClose cyc (.lane l) v ok) s = .next t ∧ SessionUnmoved s t cyc :=
  exec_sessWrite_unmoved (v := v.withBits 31 28 2) h ((Mach.sessCommand_close ..).trans (if_pos hs))

theorem exec_sessionClose_service (h : DutyNow s l) (hs : s.m.sess = 2) (hmode : s.m.mode = .service) (ok : Bool) :
    ∃ t, exec (.sessionClose cyc (.lane l) v ok) s = .next t ∧ SessionRefused s t cyc 2 := by
  obtain ⟨t, ht, hrefused, -⟩ := exec_sessWrite_refused (cyc := cyc) (v := v.withBits 31 28 2) (ok := ok) (reason := 2) h (by decide)
    ((Mach.sessCommand_close ..).trans ((closeSession_open hs ok).trans (if_pos hmode))) (Mach.sessStamped_tells _ _) rfl
  exact ⟨t, ht, hrefused⟩

theorem exec_sessionClose_closes (h : DutyNow s l) (hwf : Memory.wf s.mem = true) (hs : s.m.sess = 2) (hmode : s.m.mode ≠ .service) :
    ∃ t, exec (.sessionClose cyc (.lane l) v true) s = .next t ∧ t.m.sess = 0 ∧ t.m.bit Reg.SAFE_STATUS 28 = false ∧
      LogTakes s t cyc 3 0 ∧ Raises s t [eventAt (s.at cyc) 0x400E 0 0xFF [] 0] ∧
      SameRegsBut s t [Reg.SAFE_SESS_STAT, Reg.SAFE_STATUS, Reg.SAFE_IRQ_STAT, Reg.SAFE_LOG_STAT] := by
  have hclose := (closeSession_open (cyc := cyc) hs true).trans ((if_neg hmode).trans (if_pos rfl))
  have hs' : (s.at cyc).sessStamped.sess = 2 := hs
  rw [Mach.endSession_open hs'] at hclose
  exact runMem_sessionEnds_logged (f := fun m mem => m.sessWrite mem (.lane l) (v.withBits 31 28 2) true)
    (Mach.sameLog_sessStamped _) (Mach.sessStamped_tells _) hwf ((sessWrite_now h).trans ((Mach.sessCommand_close ..).trans hclose))

theorem exec_sessionClose_unlogged (h : DutyNow s l) (hwf : Memory.wf s.mem = true) (hs : s.m.sess = 2) (hmode : s.m.mode ≠ .service) :
    ∃ t, exec (.sessionClose cyc (.lane l) v false) s = .next t ∧ t.m.sess = 2 ∧ t.m.fld Reg.SAFE_SESS_STAT 27 24 = 4 ∧
      LogLoses s t cyc ∧ Raises s t [eventAt (s.at cyc) 0x4010 0 0xFF [] 0, eventAt (s.at cyc) 0x400D 0 0xFF [] 0] ∧
      SameRegsBut s t [Reg.SAFE_SESS_STAT, Reg.SAFE_IRQ_STAT] := by
  have hclose := (closeSession_open (cyc := cyc) hs false).trans ((if_neg hmode).trans (if_neg (by decide)))
  have hlog := logAppend_fails_tells_at ((s.at cyc).sessStamped_tells [Reg.SAFE_IRQ_STAT]) s.mem (by decide) 3 0
  obtain ⟨t, ht, -, hsess, hrest⟩ := runMem_unlogged_refused
    (f := fun m mem => m.sessWrite mem (.lane l) (v.withBits 31 28 2) false) (s.at cyc).sameLog_sessStamped hwf
    (hlog.mono (regs' := [Reg.SAFE_SESS_STAT, Reg.SAFE_IRQ_STAT]) (by decide)) (by decide) (by decide) (by decide)
    (hlog.rd _ (by decide)) ((sessWrite_now h).trans ((Mach.sessCommand_close ..).trans hclose))
  exact ⟨t, ht, hsess.trans hs, hrest⟩

/-! ### The limits of time (R424, R425) -/

/-- The session's time without a command has run out. -/
abbrev SessionTimesOut (s : State) (cyc : Nat) : Prop :=
  s.m.sess = 2 ∧ s.m.mode ≠ .service ∧ s.m.safe.sessAt + s.m.image.sesstmo * oneSecond ≤ (s.at cyc).now

theorem sessionTimesOut_iff (s : State) (cyc : Nat) : ((s.at cyc).sessOpen && (s.at cyc).mode != .service &&
    decide ((s.at cyc).safe.sessAt + (s.at cyc).image.sesstmo * oneSecond ≤ (s.at cyc).now)) = true ↔ SessionTimesOut s cyc := by
  have hsess : (s.at cyc).sess = s.m.sess := rfl
  have hmode : (s.at cyc).mode = s.m.mode := rfl
  have hsafe : (s.at cyc).safe = s.m.safe := rfl
  have himage : (s.at cyc).image = s.m.image := rfl
  rw [Mach.sessOpen, hsess, hmode, hsafe, himage]
  simp only [Bool.and_eq_true, beq_iff_eq, bne_iff_ne, decide_eq_true_eq, and_assoc]

/-- What SESSION_TIMEOUT does to machine and memory. -/
def Mach.timedOut (m : Mach) (mem : List Host.Cell) (ok : Bool) : Mach × List Host.Cell :=
  if m.sessOpen && m.mode != .service && decide (m.safe.sessAt + m.image.sesstmo * oneSecond ≤ m.now) then m.endSession mem ok 1
  else (m, mem)

theorem exec_sessionTimeout_eq (s : State) (cyc : Nat) (ok : Bool) :
    exec (.sessionTimeout cyc ok) s = runMem s cyc fun m mem => m.timedOut mem ok := rfl

theorem timedOut_due (h : SessionTimesOut s cyc) (ok : Bool) : (s.at cyc).timedOut s.mem ok =
    (((s.at cyc).logAppend s.mem ok 3 1 0 0).1.sessionEnded, ((s.at cyc).logAppend s.mem ok 3 1 0 0).2) := by
  have hs : (s.at cyc).sess = 2 := h.1
  rw [Mach.timedOut, if_pos ((sessionTimesOut_iff s cyc).2 h), Mach.endSession_open hs]

theorem exec_sessionTimeout_due (hwf : Memory.wf s.mem = true) (h : SessionTimesOut s cyc) :
    (∃ t, exec (.sessionTimeout cyc true) s = .next t ∧ t.m.sess = 0 ∧ t.m.bit Reg.SAFE_STATUS 28 = false ∧
      LogTakes s t cyc 3 1 ∧ Raises s t [eventAt (s.at cyc) 0x400E 0 0xFF [] 0] ∧
      SameRegsBut s t [Reg.SAFE_SESS_STAT, Reg.SAFE_STATUS, Reg.SAFE_IRQ_STAT, Reg.SAFE_LOG_STAT]) ∧
    (∃ t, exec (.sessionTimeout cyc false) s = .next t ∧ t.m.sess = 0 ∧ t.m.bit Reg.SAFE_STATUS 28 = false ∧
      LogLoses s t cyc ∧ Raises s t [eventAt (s.at cyc) 0x4010 0 0xFF [] 0, eventAt (s.at cyc) 0x400E 0 0xFF [] 0] ∧
      SameRegsBut s t [Reg.SAFE_SESS_STAT, Reg.SAFE_STATUS, Reg.SAFE_IRQ_STAT]) := by
  rw [exec_sessionTimeout_eq, exec_sessionTimeout_eq]
  exact ⟨runMem_sessionEnds_logged (Mach.SameLog.refl _) (Mach.FocTells.refl _) hwf (timedOut_due h true),
    runMem_sessionEnds_unlogged (Mach.SameLog.refl _) (Mach.FocTells.refl _) hwf (timedOut_due h false)⟩

theorem exec_sessionTimeout_idle (h : ¬SessionTimesOut s cyc) (ok : Bool) :
    ∃ t, exec (.sessionTimeout cyc ok) s = .next t ∧ t.m.safe = s.m.safe ∧ Quiet s t [] := by
  have hidle : (s.at cyc).timedOut s.mem ok = (s.at cyc, s.mem) := if_neg fun hc => h ((sessionTimesOut_iff s cyc).1 hc)
  obtain ⟨t, ht, hm, hquiet⟩ := runMem_makes (f := fun m mem => m.timedOut mem ok) hidle (Mach.FocTells.refl (s.at cyc) [])
  exact ⟨t, ht, by rw [hm]; rfl, hquiet⟩

/-- A lockout has ended. -/
abbrev LockoutOver (s : State) (cyc : Nat) : Prop := s.m.sess = 3 ∧ s.m.safe.lockUntil ≤ (s.at cyc).now

theorem lockoutOver_iff (s : State) (cyc : Nat) :
    ((s.at cyc).sess == 3 && decide ((s.at cyc).safe.lockUntil ≤ (s.at cyc).now)) = true ↔ LockoutOver s cyc := by
  have hsess : (s.at cyc).sess = s.m.sess := rfl
  have hsafe : (s.at cyc).safe = s.m.safe := rfl
  rw [hsess, hsafe, Bool.and_eq_true, beq_iff_eq, decide_eq_true_eq]

/-- What SESSION_LOCKOUT_EXPIRY does to the machine. -/
def Mach.lockoutEnds (m : Mach) : Mach :=
  if m.sess == 3 && decide (m.safe.lockUntil ≤ m.now) then (m.setSess 0).setFld Reg.SAFE_SESS_STAT 15 0 0 else m

theorem exec_sessionLockoutExpiry_eq (s : State) (cyc : Nat) : exec (.sessionLockoutExpiry cyc) s = run s cyc Mach.lockoutEnds := rfl

theorem exec_sessionLockoutExpiry_due (h : LockoutOver s cyc) :
    ∃ t, exec (.sessionLockoutExpiry cyc) s = .next t ∧ t.m.sess = 0 ∧ t.m.bit Reg.SAFE_STATUS 27 = false ∧
      t.m.fld Reg.SAFE_SESS_STAT 15 0 = 0 ∧ t.m.fld Reg.SAFE_SESS_STAT 23 16 = s.m.fld Reg.SAFE_SESS_STAT 23 16 ∧
      Quiet s t [Reg.SAFE_SESS_STAT, Reg.SAFE_STATUS] := by
  have hends : (s.at cyc).lockoutEnds = ((s.at cyc).setSess 0).setFld Reg.SAFE_SESS_STAT 15 0 0 :=
    if_pos ((lockoutOver_iff s cyc).2 h)
  have htells : (s.at cyc).FocTells [Reg.SAFE_SESS_STAT, Reg.SAFE_STATUS] []
      (((s.at cyc).setSess 0).setFld Reg.SAFE_SESS_STAT 15 0 0) :=
    ((Mach.FocTells.refl _ _).setSess (by decide) (by decide) 0).wr (by decide) (by decide) _
  rw [exec_sessionLockoutExpiry_eq]
  obtain ⟨t, ht, hm, hquiet⟩ := run_makes hends htells
  refine ⟨t, ht, ?_, ?_, ?_, ?_, hquiet⟩
  · rw [hm, Mach.settle_sess, Mach.sess, Mach.fld_setFld_other _ _ (by decide) (by decide) (by decide) (.inr (.inr (by decide)))]
    exact Mach.sess_setSess (by decide)
  · rw [hm, Mach.settle_bit, Mach.bit_setFld_other _ _ (by decide) (by decide) (.inl (by decide)), Mach.setSess_locked]
    rfl
  · rw [hm, Mach.settle_fld, Mach.fld_setFld _ _ (by decide) (by decide)]
    rfl
  · rw [hm, Mach.settle_fld, Mach.fld_setFld_other _ _ (by decide) (by decide) (by decide) (.inr (.inr (by decide))),
      Mach.setSess_fld 0 (by decide) (by decide)]
    rfl

theorem exec_sessionLockoutExpiry_idle (h : ¬LockoutOver s cyc) :
    ∃ t, exec (.sessionLockoutExpiry cyc) s = .next t ∧ t.m.safe = s.m.safe ∧ Quiet s t [] := by
  have hidle : (s.at cyc).lockoutEnds = s.at cyc := if_neg fun hc => h ((lockoutOver_iff s cyc).1 hc)
  rw [exec_sessionLockoutExpiry_eq]
  obtain ⟨t, ht, hm, hquiet⟩ := run_makes hidle (Mach.FocTells.refl (s.at cyc) [])
  exact ⟨t, ht, by rw [hm]; rfl, hquiet⟩
end

/-! ### SETPW (R426) -/

theorem PwRecord.length_bytes (p : PwRecord) : p.bytes.length = 68 := by simp [PwRecord.bytes, length_leBytes, padTo]

section
variable {mem : List Host.Cell} (hwf : Memory.wf mem = true) (p : PwRecord)
include hwf

theorem PwRecord.store_reads : Memory.readN (p.store mem) (pwSector p.sector) 68 = p.bytes.map (· % 256) := by
  have h := Memory.readN_writeL (Memory.clear_wf hwf (pwSector p.sector) (pwSector (p.sector + 1))) (pwSector p.sector) p.bytes
  rwa [p.length_bytes] at h

theorem PwRecord.store_blank {b : Nat} (hlo : pwSector p.sector + 68 ≤ b) (hhi : b < pwSector p.sector + 4096) :
    Memory.read (p.store mem) b = Memory.unlisted b := by
  have hend : pwSector (p.sector + 1) = pwSector p.sector + 4096 := by unfold pwSector; omega
  rw [PwRecord.store, Memory.read_writeL_other (Memory.clear_wf hwf _ _) _ (by rw [p.length_bytes]; omega), Memory.read_clear,
    if_pos (by omega)]
  rfl

theorem PwRecord.store_other {b : Nat} (h : b < pwSector p.sector ∨ pwSector p.sector + 4096 ≤ b) :
    Memory.read (p.store mem) b = Memory.read mem b := by
  have hend : pwSector (p.sector + 1) = pwSector p.sector + 4096 := by unfold pwSector; omega
  rw [PwRecord.store, Memory.read_writeL_other (Memory.clear_wf hwf _ _) _ (by rw [p.length_bytes]; omega), Memory.read_clear,
    if_neg (by omega)]

/-- What stands past a record's sector reads as before it is stored. -/
theorem PwRecord.store_readN {a : Nat} (h : pwSector p.sector + 4096 ≤ a) (n : Nat) :
    Memory.readN (p.store mem) a n = Memory.readN mem a n :=
  List.map_congr_left fun i _ => congrArg BitVec.toNat (p.store_other hwf (.inr (by omega)))
end

/-- The change log stands past the password sectors. -/
theorem pwSector_before_log {i : Nat} (hi : i ≤ 1) (sector slot : Nat) : pwSector i + 4096 ≤ logSectorAt sector + 64 * (slot + 1) := by
  unfold pwSector logSectorAt
  omega

section
variable {s : State} {l : Lane} {cyc : Nat} {v : Word}

theorem exec_setPassword_none (h : DutyNow s l) (hs : s.m.sess ≠ 2) (ok : Bool) :
    ∃ t, exec (.setPassword cyc (.lane l) v ok) s = .next t ∧ SessionUnmoved s t cyc :=
  exec_sessWrite_unmoved (v := v.withBits 31 28 3) h ((Mach.sessCommand_setPassword ..).trans (if_pos hs))

/-- The record that SETPW stores after the one that governs. -/
def PwRecord.next (p : PwRecord) (pw : List Nat) : PwRecord :=
  ⟨p.gen + 1, p.iter, leBytes 16 (Config.saltOf p.gen).toNat, passwordHash (leBytes 16 (Config.saltOf p.gen).toNat) pw p.iter,
    1 - p.sector⟩

/-- SETPW in an open session. -/
theorem setPassword_open (hs : s.m.sess = 2) (ok : Bool) : (s.at cyc).setPassword s.mem (v.withBits 31 28 3) ok =
    if !pwOk (v.bits 5 0) (sessPw s v) then ((s.at cyc).sessStamped.sessRefuse 5, s.mem)
    else
      let x := (s.at cyc).sessStamped.clearPw.logAppend s.mem ok 4 0 0 0
      if ok then (x.1.onSafe fun y => { y with pw := x.1.safe.pw.next (sessPw s v) }, (x.1.safe.pw.next (sessPw s v)).store x.2)
      else (x.1.sessRefuse 4, x.2) := by
  have hs' : ¬(s.at cyc).sess ≠ 2 := not_not.2 hs
  have hpw : (s.at cyc).pwBytes (v.bits 5 0) = sessPw s v := rfl
  rw [Mach.setPassword, if_neg hs', (bits_withBits_sessCmd v 3).1, hpw]
  rfl

theorem exec_setPassword_unfit (h : DutyNow s l) (hs : s.m.sess = 2) (hpw : pwOk (v.bits 5 0) (sessPw s v) = false) (ok : Bool) :
    ∃ t, exec (.setPassword cyc (.lane l) v ok) s = .next t ∧ SessionRefused s t cyc 5 ∧ t.m.safe.pw = s.m.safe.pw := by
  have hset := setPassword_open (cyc := cyc) (v := v) hs ok
  rw [hpw, if_pos (by decide)] at hset
  obtain ⟨t, ht, hrefused, hsafe⟩ := exec_sessWrite_refused (cyc := cyc) (v := v.withBits 31 28 3) (ok := ok) (reason := 5) h (by decide)
    ((Mach.sessCommand_setPassword ..).trans hset) (Mach.sessStamped_tells _ _) rfl
  exact ⟨t, ht, hrefused, by rw [hsafe]; rfl⟩

/-- What memory holds after an entry that verifies. -/
theorem Mach.SameLog.logAppend_reads {m m' : Mach} (h : m.SameLog m') {mem : List Host.Cell} (hwf : Memory.wf mem = true)
    (kind detail : Nat) :
    Memory.readN (m'.logAppend mem true kind detail 0 0).2 (m.logPlace mem) 64 =
        (m.logForm ((m.rd Reg.SAFE_LOG_STAT).toNat + 1) kind detail 0 0).map (· % 256) ∧
      ∀ b, b < m.logPlace mem ∨ m.logPlace mem + 64 ≤ b →
        Memory.read (m'.logAppend mem true kind detail 0 0).2 b = Memory.read (m.logOpen mem).2 b := by
  have hopen : Memory.wf (m.logOpen mem).2 = true := Mach.logOpen_wf hwf
  have hlen := length_logForm m ((m.rd Reg.SAFE_LOG_STAT).toNat + 1) kind detail 0 0
  rw [Mach.logAppend_ok, (h.logOpen mem).1, h.logPlace, h.logForm, h.regs Reg.SAFE_LOG_STAT (by decide)]
  generalize m.logForm ((m.rd Reg.SAFE_LOG_STAT).toNat + 1) kind detail 0 0 = entry at *
  refine ⟨?_, fun b hb => Memory.read_writeL_other hopen _ (by rwa [hlen])⟩
  have hread := Memory.readN_writeL hopen (m.logPlace mem) entry
  rwa [hlen] at hread

/-- The machine as SETPW has it when it forms its entry. -/
abbrev Mach.pwTaken (m : Mach) : Mach := m.sessStamped.clearPw

theorem Mach.pwTaken_tells (m : Mach) {regs : List Nat} (h : ∀ w < 8, Reg.SAFE_PW_BUF w ∈ regs) : m.FocTells regs [] m.pwTaken :=
  (m.sessStamped_tells regs).clearPw h

theorem Mach.sameLog_pwTaken (m : Mach) : m.SameLog m.pwTaken := by
  have htells := m.pwTaken_tells pwBuf_mem_pwRegs
  have hsafe : m.pwTaken.safe = m.sessStamped.safe := Mach.clearPw_safe _
  have hother : ∀ a ∈ [Reg.SYS_MODE_STAT, Reg.SYS_UID_LO, Reg.SYS_UID_HI, Reg.TIME_BOOT, Reg.SAFE_LOG_STAT], a ∉ pwRegs := by decide
  exact ⟨by rw [hsafe]; rfl, by rw [hsafe]; rfl, by rw [hsafe]; rfl, by rw [hsafe]; rfl, Mach.clearPw_free _, htells.now,
    fun a ha => htells.rd a (hother a ha)⟩

theorem Mach.logTurned_pw (m : Mach) (mem : List Host.Cell) : (m.logTurned mem).safe.pw = m.safe.pw := by
  have hopen : (m.logOpen mem).1.safe.pw = m.safe.pw := by
    unfold Mach.logOpen
    split <;> rfl
  exact hopen

theorem Mach.logAppend_pw (m : Mach) (mem : List Host.Cell) (ok : Bool) (kind detail old new : Nat) :
    (m.logAppend mem ok kind detail old new).1.safe.pw = m.safe.pw := by
  rw [Mach.logAppend_safe, Mach.logTurned_pw]

theorem Mach.pwTaken_pw (m : Mach) : m.pwTaken.safe.pw = m.safe.pw := by
  rw [Mach.pwTaken, Mach.clearPw_safe]
  rfl

theorem pwBuf_not_logged : ∀ w : Fin 8, Reg.SAFE_PW_BUF w ∉ [Reg.SAFE_LOG_STAT, Reg.SAFE_SESS_STAT, Reg.SAFE_IRQ_STAT] := by decide

variable (h : DutyNow s l) (hs : s.m.sess = 2) (hpw : pwOk (v.bits 5 0) (sessPw s v) = true)
include h hs hpw

theorem exec_setPassword_stores :
    ∃ t, exec (.setPassword cyc (.lane l) v true) s = .next t ∧ t.m.sess = 2 ∧ t.m.safe.pw = s.m.safe.pw.next (sessPw s v) ∧
      (∀ w : Fin 8, t.m.rd (Reg.SAFE_PW_BUF w) = 0#32) ∧ t.m.rd Reg.SAFE_LOG_STAT = s.m.rd Reg.SAFE_LOG_STAT + 1#32 ∧
      t.mem = (s.m.safe.pw.next (sessPw s v)).store ((s.at cyc).pwTaken.logAppend s.mem true 4 0 0 0).2 ∧
      Raises s t [] ∧ SameRegsBut s t (Reg.SAFE_LOG_STAT :: pwRegs) := by
  have hset := setPassword_open (cyc := cyc) (v := v) hs true
  rw [hpw, if_neg (by decide)] at hset
  dsimp only at hset
  rw [if_pos rfl, Mach.logAppend_pw, Mach.pwTaken_pw] at hset
  have hlog : (s.at cyc).pwTaken.FocTells [Reg.SAFE_LOG_STAT] [] ((s.at cyc).pwTaken.logAppend s.mem true 4 0 0 0).1 :=
    Mach.logAppend_ok_tells _ _ (by decide) _ _ _ _
  have htells := ((s.at cyc).pwTaken_tells (regs := Reg.SAFE_LOG_STAT :: pwRegs)
    fun w hw => List.mem_cons_of_mem _ (pwBuf_mem_pwRegs w hw)).trans (hlog.mono (List.cons_subset_cons _ (List.nil_subset _)))
  obtain ⟨t, ht, hm, hmem, hregs, hes⟩ := runMem_tells (f := fun m mem => m.sessWrite mem (.lane l) (v.withBits 31 28 3) true)
    ((sessWrite_now h).trans ((Mach.sessCommand_setPassword ..).trans hset)) (htells.onSafe _)
  have hnum := (s.at cyc).pwTaken.logAppend_logStat s.mem 4 0 0 0
  rw [(s.at cyc).sameLog_pwTaken.regs Reg.SAFE_LOG_STAT (by decide)] at hnum
  have hsess : Reg.SAFE_SESS_STAT ∉ Reg.SAFE_LOG_STAT :: pwRegs := by decide
  refine ⟨t, ht, (Mach.sess_congr (hregs _ hsess)).trans hs, by rw [hm]; rfl, fun w => ?_, ?_, hmem, hes, hregs⟩
  · rw [hm, Mach.settle_rd, Mach.onSafe_rd, hlog.rd _ fun hw => pwBuf_not_logged w (List.mem_cons.2 (.inl (List.mem_singleton.1 hw)))]
    exact (s.at cyc).sessStamped.clearPw_rd w
  · rw [hm, Mach.settle_rd, Mach.onSafe_rd]
    exact hnum

theorem exec_setPassword_unlogged (hwf : Memory.wf s.mem = true) :
    ∃ t, exec (.setPassword cyc (.lane l) v false) s = .next t ∧ t.m.sess = 2 ∧ t.m.safe.pw = s.m.safe.pw ∧
      (∀ w : Fin 8, t.m.rd (Reg.SAFE_PW_BUF w) = 0#32) ∧ t.m.fld Reg.SAFE_SESS_STAT 27 24 = 4 ∧ LogLoses s t cyc ∧
      Raises s t [eventAt (s.at cyc) 0x4010 0 0xFF [] 0, eventAt (s.at cyc) 0x400D 0 0xFF [] 0] ∧
      SameRegsBut s t ([Reg.SAFE_SESS_STAT, Reg.SAFE_IRQ_STAT] ++ pwRegs) := by
  have hset := setPassword_open (cyc := cyc) (v := v) hs false
  rw [hpw, if_neg (by decide)] at hset
  dsimp only at hset
  rw [if_neg (by decide)] at hset
  have hlog := logAppend_fails_tells_at ((s.at cyc).pwTaken_tells (regs := Reg.SAFE_IRQ_STAT :: pwRegs)
    fun w hw => List.mem_cons_of_mem _ (pwBuf_mem_pwRegs w hw)) s.mem List.mem_cons_self 4 0
  obtain ⟨t, ht, hm, hsess, hreason, hloses, hes, hregs⟩ := runMem_unlogged_refused
    (f := fun m mem => m.sessWrite mem (.lane l) (v.withBits 31 28 3) false) (s.at cyc).sameLog_pwTaken hwf
    (hlog.mono (regs' := [Reg.SAFE_SESS_STAT, Reg.SAFE_IRQ_STAT] ++ pwRegs) (List.subset_cons_self _ _)) (by decide) (by decide)
    (by decide) (hlog.rd _ (by decide)) ((sessWrite_now h).trans ((Mach.sessCommand_setPassword ..).trans hset))
  refine ⟨t, ht, hsess.trans hs, ?_, fun w => ?_, hreason, hloses, hes, hregs⟩
  · rw [hm]
    exact ((s.at cyc).pwTaken.logAppend_pw s.mem false 4 0 0 0).trans (Mach.pwTaken_pw _)
  · have hrefuse := (Mach.FocTells.refl ((s.at cyc).pwTaken.logAppend s.mem false 4 0 0 0).1
      [Reg.SAFE_LOG_STAT, Reg.SAFE_SESS_STAT, Reg.SAFE_IRQ_STAT]).sessRefuse (by decide) (by decide) 4
    have happend : (s.at cyc).pwTaken.FocTells [Reg.SAFE_LOG_STAT, Reg.SAFE_SESS_STAT, Reg.SAFE_IRQ_STAT] _
      ((s.at cyc).pwTaken.logAppend s.mem false 4 0 0 0).1 := Mach.logAppend_fails_tells _ _ (by decide) _ _ _ _
    rw [hm, Mach.settle_rd, hrefuse.rd _ (pwBuf_not_logged w), happend.rd _ (pwBuf_not_logged w)]
    exact (s.at cyc).sessStamped.clearPw_rd w
end

/-- Settles O52: each command by the state of the session, its password by the buffer, and its entry by the change log. -/
theorem sessionsOpenCloseAndSetPasswords : Obligations.SessionsOpenCloseAndSetPasswords := by
  refine ⟨fun cyc l v s h => ⟨exec_sessionOpen_busy h, fun h1 h2 hmode => exec_sessionOpen_refused h (by decide)
        (openSession_away cyc _ h1 h2 hmode),
      fun hs hmode => exec_sessionOpen_refused h (by decide)
        ((openSession_standby cyc _ (by omega) (by omega) hmode).trans (if_pos hs)),
      fun hs hmode hpw => exec_sessionOpen_refused h (by decide) ?_, exec_sessionOpen_taken h⟩,
    fun cyc ok l v s => ⟨dutyElsewhere_sessWrite s l cyc _ true, dutyElsewhere_sessWrite s l cyc _ ok, dutyElsewhere_sessWrite s l cyc _ ok,
      nothingDone_of_runMem rfl, nothingDone_of_runMem rfl, nothingDone_of_runMem rfl⟩,
    fun cyc s hwf hs hmode => ⟨exec_passwordCheck_opens hwf hs hmode, fun hright => exec_passwordCheck_fails_unlogged (by decide) hwf
        ((checkPassword_standby hs hmode false).trans (if_pos hright)),
      exec_passwordCheck_fails_logged hwf hs hmode, fun hwrong => exec_passwordCheck_fails_unlogged (by decide) hwf
        ((checkPassword_standby hs hmode false).trans (if_neg hwrong))⟩,
    fun cyc ok s => ⟨fun hs hmode => exec_passwordCheck_away hs hmode ok, fun hs => exec_passwordCheck_idle hs ok⟩,
    fun cyc ok l v s hwf h => ⟨fun hs => exec_sessionClose_none h hs ok, fun hs hmode => exec_sessionClose_service h hs hmode ok,
      fun hs hmode => ⟨exec_sessionClose_closes h hwf hs hmode, exec_sessionClose_unlogged h hwf hs hmode⟩⟩,
    fun cyc s => ⟨exec_sessionTimeout_due, exec_sessionTimeout_idle⟩,
    fun cyc s => ⟨exec_sessionLockoutExpiry_due, exec_sessionLockoutExpiry_idle⟩,
    fun cyc ok l v s h => ⟨fun hs => exec_setPassword_none h hs ok, fun hs hpw => exec_setPassword_unfit h hs hpw ok,
      fun hwf hs hpw => ⟨?_, exec_setPassword_unlogged h hs hpw hwf⟩⟩⟩
  · rw [openSession_standby cyc _ (by omega) (by omega) hmode, if_neg (by omega), sessPw_withBits, (bits_withBits_sessCmd v 1).1, hpw]
    rfl
  · obtain ⟨t, ht, hsess, hrecord, hbuf, hnum, hmem, hes, hregs⟩ := exec_setPassword_stores (cyc := cyc) h hs hpw
    obtain ⟨hentry, hother⟩ := (s.at cyc).sameLog_pwTaken.logAppend_reads hwf 4 0
    have hopen : Memory.wf ((s.at cyc).pwTaken.logAppend s.mem true 4 0 0 0).2 = true := Mach.logAppend_wf hwf
    have hplace : pwSector (s.m.safe.pw.next (sessPw s v)).sector + 4096 ≤ (s.at cyc).logPlace s.mem :=
      pwSector_before_log (Nat.sub_le ..) _ _
    generalize ((s.at cyc).pwTaken.logAppend s.mem true 4 0 0 0).2 = mem at *
    refine ⟨t, leBytes 16 (Config.saltOf s.m.safe.pw.gen).toNat, ht, hsess, hrecord, hbuf, hnum, ?_, ?_, fun b hlo hhi => ?_,
      fun b hb hp => ?_, hes, hregs⟩
    · rw [hmem]
      exact (PwRecord.store_readN hopen _ hplace 64).trans hentry
    · rw [hmem, hrecord]
      exact PwRecord.store_reads hopen _
    · rw [hmem]
      exact PwRecord.store_blank hopen _ hlo hhi
    · rw [hmem, PwRecord.store_other hopen _ hp]
      exact hother b hb

end Sys2Proof.Machine
end

section
/-! What the parts of a safety cycle leave alone (R398): the clock, the configuration of inputs and functions, and of an evaluator
what each part does not touch. -/

namespace Sys2Proof.Machine

/-! ### What beside the evaluators changes -/

/-- The configuration of the safe inputs and functions. -/
abbrev safetyCfgReg (a : Nat) : Prop := 0x100040 ≤ a ∧ a < 0x100200

/-- The safety part, the clock and the configuration of inputs and functions. -/
def Mach.safetyView (m : Mach) : SafeState × Nat × (Nat → Word) := (m.safe, m.now, fun a => if safetyCfgReg a then m.rd a else 0#32)

section
variable {m m' : Mach}

theorem Mach.safetyView_eq (hsafe : m'.safe = m.safe) (hnow : m'.now = m.now) (hrd : ∀ a, safetyCfgReg a → m'.rd a = m.rd a) :
    m'.safetyView = m.safetyView := by
  unfold Mach.safetyView
  rw [hsafe, hnow]
  congr 2
  funext a
  split
  case isTrue ha => exact hrd a ha
  case isFalse => rfl

theorem Mach.safe_of_view (h : m'.safetyView = m.safetyView) : m'.safe = m.safe := congrArg (·.1) h

theorem Mach.rd_of_view (h : m'.safetyView = m.safetyView) {a : Nat} (ha : safetyCfgReg a) : m'.rd a = m.rd a := by
  have hrd := congrFun (congrArg (·.2.2) h) a
  simpa only [Mach.safetyView, if_pos ha] using hrd
end

section
variable (m : Mach)

theorem Mach.safetyView_wr {a : Nat} (h : ¬safetyCfgReg a) (w : Word) : (m.wr a w).safetyView = m.safetyView :=
  Mach.safetyView_eq rfl rfl fun _ hb => m.rd_wr_other w fun hba => h (hba ▸ hb)

theorem Mach.safetyView_orr {a : Nat} (h : ¬safetyCfgReg a) (k : Nat) : (m.orr a k).safetyView = m.safetyView := m.safetyView_wr h _

theorem Mach.safetyView_raise (code cls slot : Nat) (d : List Nat) (o : Nat) :
    (m.raise code cls slot d o).safetyView = m.safetyView := rfl

theorem Mach.safetyView_onGate (f : GateState → GateState) : (m.onGate f).safetyView = m.safetyView := rfl

theorem Mach.safetyView_place (first last : Nat) (entry : Nat → JEntry) :
    (m.place first last entry).safetyView = m.safetyView := by
  unfold Mach.place
  dsimp only
  split
  · rfl
  · split
    · exact Mach.safetyView_wr _ (by decide) _
    · exact (Mach.safetyView_orr _ (by decide) _).trans ((Mach.safetyView_orr _ (by decide) _).trans (m.safetyView_wr (by decide) _))

theorem Mach.safetyView_accede (i : AsyncIn) : (m.accede i).safetyView = m.safetyView := by
  rw [Mach.accede, Mach.accedeAt, Mach.safetyView_place]

theorem Mach.safetyView_raiseF3 (code slot : Nat) (d : List Nat) (o : Nat) :
    (m.raiseF3 code slot d o).safetyView = m.safetyView := by
  rcases m.raiseF3_cases code slot d o with h | h <;> rw [h]
  · rfl
  · exact Mach.safetyView_accede _ _

theorem Mach.safetyView_raiseF4 (code : Nat) : (m.raiseF4 code).safetyView = m.safetyView :=
  Mach.safetyView_eq rfl rfl fun a ha => Mach.raiseF4_rd (by rintro rfl; revert ha; decide) code

theorem Mach.safetyView_safeIrq (i : Nat) : (m.safeIrq i).safetyView = m.safetyView := m.safetyView_orr (by decide) _

/-! Gates take a frame (R193, R202). -/

theorem Mach.safetyView_loadPair (f : Frame) (p : Nat) (g : Leg) (mode : Nat) (told : Bool) :
    (m.loadPair f p g mode told).safetyView = m.safetyView := by
  unfold Mach.loadPair
  extract_lets ok m₁ mode' sk skew c n
  have h₁ : m₁.safetyView = m.safetyView := iteInduction (motive := fun x : Mach => x.safetyView = m.safetyView)
    (fun _ => rfl) fun _ => m.safetyView_raiseF3 _ _ _ _
  exact h₁

theorem Mach.safetyView_legStat {j : Nat} (hj : j < 24) (hi lo v : Nat) :
    (m.setFld (Reg.GDL_LEG_STAT j) hi lo v).safetyView = m.safetyView :=
  m.safetyView_wr (by simp only [safetyCfgReg, Reg.GDL_LEG_STAT]; omega) _

theorem Mach.safetyView_drvStat {d : Nat} (hd : d < 6) (w : Word) : (m.wr (Reg.GDL_DRV_STAT d) w).safetyView = m.safetyView :=
  m.safetyView_wr (by simp only [safetyCfgReg, Reg.GDL_DRV_STAT]; omega) _

theorem Mach.safetyView_loadLeg (f : Frame) {j : Nat} (hj : j < 24) (i : Nat) (g : Leg) (told : Bool) :
    (m.loadLeg f j i g told).safetyView = m.safetyView := by
  unfold Mach.loadLeg
  extract_lets ok m₁ m₂ mode t n sync m₃
  have h₁ : m₁.safetyView = m.safetyView := iteInduction (motive := fun x : Mach => x.safetyView = m.safetyView)
    (fun _ => rfl) fun _ => m.safetyView_raiseF3 _ _ _ _
  have hshow : (m₁.showLegFlt j).safetyView = m₁.safetyView := by
    unfold Mach.showLegFlt
    dsimp only
    split
    · rfl
    · exact m₁.safetyView_legStat hj _ _ _
  have h₂ : m₂.safetyView = m.safetyView := iteInduction (motive := fun x : Mach => x.safetyView = m.safetyView)
    (fun _ => hshow.trans h₁) fun _ => (m₁.safetyView_legStat hj _ _ _).trans h₁
  have h₃ : m₃.safetyView = m.safetyView := h₂
  split
  · exact iteInduction (motive := fun x : Mach => x.safetyView = m.safetyView) (fun _ => h₃) fun _ => h₃
  · exact h₃

theorem Mach.safetyView_takeRole (j : Nat) (r : CommRole) : (m.takeRole j r).safetyView = m.safetyView := by
  unfold Mach.takeRole
  dsimp only
  split <;> rfl

theorem Mach.safetyView_commutate {d : Nat} (hd : d < 6) : (m.commutate d).safetyView = m.safetyView := by
  unfold Mach.commutate
  extract_lets j0 st sector dir comm inv row ph was role turned shown told
  have hturned : turned.safetyView = m.safetyView := iteInduction (motive := fun x : Mach => x.safetyView = m.safetyView)
    (fun _ => forN_keeps Mach.safetyView (fun i m => m.safetyView_takeRole (j0 + i) (role i)) 3 m) fun _ => rfl
  have hshown : shown.safetyView = m.safetyView :=
    (Mach.safetyView_drvStat _ hd _).trans ((Mach.safetyView_drvStat _ hd _).trans ((turned.safetyView_drvStat hd _).trans hturned))
  have htold : told.safetyView = m.safetyView := iteInduction (motive := fun x : Mach => x.safetyView = m.safetyView)
    (fun _ => (shown.safetyView_drvStat hd _).trans hshown) fun _ => hshown
  exact iteInduction (motive := fun x : Mach => x.safetyView = m.safetyView)
    (fun _ => (told.safetyView_orr (by decide) _).trans htold) fun _ => htold

theorem Mach.legsOf_lt {k j : Nat} (h : j ∈ m.legsOf k) : j < 24 := List.mem_range.1 (List.mem_filter.1 h).1

theorem driveOf_lt {j d : Nat} (h : driveOf j = some d) : d < 6 := by
  unfold driveOf at h
  split at h
  · simp only [Option.some.injEq] at h
    omega
  · cases h

theorem Mach.safetyView_gateRun (k : Nat) (f : Frame) (told : Bool) : (m.gateRun k f told).safetyView = m.safetyView := by
  unfold Mach.gateRun
  extract_lets m₀ lat any tr modeOf side m₁ m₂ m₃
  have h₀ : m₀.safetyView = m.safetyView := rfl
  have h₁ : m₁.safetyView = m.safetyView := iteInduction (motive := fun x : Mach => x.safetyView = m.safetyView)
    (fun _ => h₀) fun _ => h₀
  have h₂ : m₂.safetyView = m.safetyView := by
    refine (forL_keeps Mach.safetyView (fun x m => ?_) _ m₁).trans h₁
    split
    · exact m.safetyView_loadPair _ _ _ _ _
    · rfl
  have h₃ : m₃.safetyView = m.safetyView := by
    refine (forL_induct (P := fun m => m.safetyView = m₂.safetyView) (fun x hx m hm => ?_) rfl).trans h₂
    have hj : x.1 < 24 := m₂.legsOf_lt (List.fst_mem_of_mem_zipIdx hx)
    split
    · exact (m.safetyView_loadLeg _ hj _ _ _).trans hm
    · exact hm
  refine iteInduction (motive := fun x : Mach => x.safetyView = m.safetyView) (fun _ => h₀) fun _ => ?_
  split
  case h_1 d hd =>
    obtain ⟨j, -, hjd⟩ := Option.bind_eq_some_iff.1 hd
    exact (m₃.safetyView_commutate (driveOf_lt hjd)).trans h₃
  case h_2 => exact h₃

theorem Mach.safetyView_gateLoad (k : Nat) (f : Frame) : (m.gateLoad k f).safetyView = m.safetyView := by
  rw [Mach.gateLoad, Mach.safetyView_gateRun]
  exact iteInduction (motive := fun x : Mach => x.safetyView = m.safetyView) (fun _ => rfl) fun _ => rfl
end

/-! ### What the parts of a cycle leave of an evaluator -/

section
variable (m : Mach) (sp : Bool)

theorem Mach.eval_onEval (f : Evaluator → Evaluator) : (m.onEval sp f).eval sp = f (m.eval sp) := by cases sp <;> rfl

theorem Mach.eval_onEval_other (f : Evaluator → Evaluator) : (m.onEval sp f).eval (!sp) = m.eval (!sp) := by cases sp <;> rfl

/-- The inputs of an evaluator, with the clock and the configuration. -/
def Mach.inputsView : List SafeInput × Nat × (Nat → Word) := ((m.eval sp).inputs, m.safetyView.2)

/-- The inputs, the functions and the STO word of an evaluator, with the clock and the configuration. -/
def Mach.stoView : List SafeInput × List SafeFn × Nat × Nat × (Nat → Word) :=
  ((m.eval sp).inputs, (m.eval sp).fns, (m.eval sp).words.sto, m.safetyView.2)

variable {m sp} in
theorem Mach.eval_of_view {m' : Mach} (h : m'.safetyView = m.safetyView) : m'.eval sp = m.eval sp := by
  rw [Mach.eval, Mach.eval, Mach.safe_of_view h]

variable {m sp} in
theorem Mach.inputsView_of_view {m' : Mach} (h : m'.safetyView = m.safetyView) : m'.inputsView sp = m.inputsView sp := by
  rw [Mach.inputsView, Mach.inputsView, Mach.eval_of_view h, h]

variable {m sp} in
theorem Mach.stoView_of_view {m' : Mach} (h : m'.safetyView = m.safetyView) : m'.stoView sp = m.stoView sp := by
  rw [Mach.stoView, Mach.stoView, Mach.eval_of_view h, h]

variable {m sp} in
theorem Mach.inputsView_of_sto {m' : Mach} (h : m'.stoView sp = m.stoView sp) : m'.inputsView sp = m.inputsView sp := by
  simp only [Mach.stoView, Prod.mk.injEq] at h
  obtain ⟨hin, -, -, hrest⟩ := h
  rw [Mach.inputsView, Mach.inputsView, hin, hrest]

theorem Mach.inputsView_onEval {f : Evaluator → Evaluator} (hf : (f (m.eval sp)).inputs = (m.eval sp).inputs) :
    (m.onEval sp f).inputsView sp = m.inputsView sp := by
  rw [Mach.inputsView, Mach.eval_onEval, hf]
  rfl

theorem Mach.stoView_onEval {f : Evaluator → Evaluator} (hin : (f (m.eval sp)).inputs = (m.eval sp).inputs)
    (hfns : (f (m.eval sp)).fns = (m.eval sp).fns) (hsto : (f (m.eval sp)).words.sto = (m.eval sp).words.sto) :
    (m.onEval sp f).stoView sp = m.stoView sp := by
  rw [Mach.stoView, Mach.eval_onEval, hin, hfns, hsto]
  rfl

theorem Mach.stoView_onSafe {g : SafeState → SafeState} (hbed : (g m.safe).bed = m.safe.bed) (hsp : (g m.safe).sp = m.safe.sp) :
    (m.onSafe g).stoView sp = m.stoView sp := by
  have heval : (m.onSafe g).eval sp = m.eval sp := by
    cases sp
    · exact hbed
    · exact hsp
  rw [Mach.stoView, heval]
  rfl

theorem Mach.inputsView_onSafe {g : SafeState → SafeState} (hbed : (g m.safe).bed = m.safe.bed) (hsp : (g m.safe).sp = m.safe.sp) :
    (m.onSafe g).inputsView sp = m.inputsView sp := Mach.inputsView_of_sto (m.stoView_onSafe sp hbed hsp)
end

end Sys2Proof.Machine
end

section
/-! The safety cycle (R398): the inputs are filtered, the functions decide, and the exchange puts in force what both evaluators say. -/

namespace Sys2Proof.Machine

/-! ### Masks -/

/-- The sum that masks the numbers below `n` which satisfy `p`. -/
theorem testBit_sum_pow (p : Nat → Bool) (n : Nat) :
    ((List.range n).map fun k => if p k then 2 ^ k else 0).sum < 2 ^ n ∧
      ∀ k < n, (((List.range n).map fun k => if p k then 2 ^ k else 0).sum).testBit k = p k := by
  induction n with
  | zero => exact ⟨by simp, fun k hk => absurd hk (Nat.not_lt_zero k)⟩
  | succ n ih =>
    obtain ⟨hlt, hbit⟩ := ih
    rw [List.range_succ, List.map_append, List.sum_append, List.map_singleton, List.sum_singleton]
    generalize ((List.range n).map fun k => if p k then 2 ^ k else 0).sum = x at *
    cases hp : p n
    · refine ⟨by simp only [Bool.false_eq_true, if_false]; rw [Nat.pow_succ]; omega, fun k hk => ?_⟩
      rcases Nat.lt_succ_iff_lt_or_eq.1 hk with hk | rfl
      · simpa using hbit k hk
      · simpa [hp] using Nat.testBit_lt_two_pow hlt
    · simp only [if_true]
      refine ⟨by rw [Nat.pow_succ]; omega, fun k hk => ?_⟩
      rw [Nat.add_comm]
      rcases Nat.lt_succ_iff_lt_or_eq.1 hk with hk | rfl
      · rw [Nat.testBit_two_pow_add_gt hk, hbit k hk]
      · rw [Nat.testBit_two_pow_add_eq, Nat.testBit_lt_two_pow hlt, hp]
        rfl

theorem testBit_slotMask (p : Nat → Bool) {k : Nat} (hk : k < 16) : (slotMask p).testBit k = p k := (testBit_sum_pow p 16).2 k hk

/-! ### Inputs (R401 to R403) -/

theorem SafeInput.stateNow_of_fault {x : SafeInput} {cfg : Word} {now : Nat} (h : x.fault = true) : x.stateNow cfg now = false := by
  simp [SafeInput.stateNow, h]

/-- An input in fault reads demand. -/
theorem SafeInput.step_state_of_fault {x : SafeInput} {cfg : Word} {now : Nat} {maskA maskB : Bool} {mv : Int × Int}
    (h : (x.step cfg now maskA maskB mv).fault = true) : (x.step cfg now maskA maskB mv).state = false := by
  unfold SafeInput.step at h ⊢
  exact SafeInput.stateNow_of_fault h

section
variable (m : Mach) (sp : Bool)

/-- An input of an evaluator after its fault is taken. -/
def SafeInput.faulted (x : SafeInput) : SafeInput := { x with fault := true, state := false }

theorem Mach.inputFault_eval (i kind : Nat) :
    (m.inputFault sp i kind).eval sp = { m.eval sp with inputs := upd (m.eval sp).inputs i SafeInput.faulted } := by
  have htold := fun x : Mach => (Mach.safetyView_safeIrq (x.raise 0x4003 1 0xFF [kind]) 1).trans (x.safetyView_raise ..)
  unfold Mach.inputFault
  dsimp only
  split
  · exact m.eval_onEval sp _
  · exact (Mach.eval_of_view (htold _)).trans (m.eval_onEval sp _)

theorem Mach.inputFault_eval_other (i kind : Nat) : (m.inputFault sp i kind).eval (!sp) = m.eval (!sp) := by
  have htold := fun x : Mach => (Mach.safetyView_safeIrq (x.raise 0x4003 1 0xFF [kind]) 1).trans (x.safetyView_raise ..)
  unfold Mach.inputFault
  dsimp only
  split
  · exact m.eval_onEval_other sp _
  · exact (Mach.eval_of_view (htold _)).trans (m.eval_onEval_other sp _)

theorem Mach.onEval_tpUntil (f : Evaluator → Evaluator) : (m.onEval sp f).safe.tpUntil = m.safe.tpUntil := by cases sp <;> rfl

theorem Mach.onEval_beside (f : Evaluator → Evaluator) : (m.onEval sp f).safetyView.2 = m.safetyView.2 := rfl

theorem Mach.inputFault_beside (i kind : Nat) : (m.inputFault sp i kind).safetyView.2 = m.safetyView.2 ∧
    (m.inputFault sp i kind).safe.tpUntil = m.safe.tpUntil := by
  unfold Mach.inputFault
  dsimp only
  split
  · exact ⟨m.onEval_beside sp _, m.onEval_tpUntil sp _⟩
  · have h := fun x : Mach => (Mach.safetyView_safeIrq (x.raise 0x4003 1 0xFF [kind]) 1).trans (Mach.safetyView_raise ..)
    exact ⟨(congrArg (·.2) (h _)).trans (m.onEval_beside sp _), (congrArg SafeState.tpUntil (Mach.safe_of_view (h _))).trans (m.onEval_tpUntil sp _)⟩

variable (levels : List (Int × Int))

/-- What a cycle makes of input `i`. -/
def Mach.inputStep (m : Mach) (levels : List (Int × Int)) (i : Nat) (x : SafeInput) : SafeInput :=
  x.step (m.rd (Reg.SAFE_IN_CFG i)) m.now (m.pulseMask (m.fld (Reg.SAFE_IN_CFG i) 29 26)) (m.pulseMask (m.fld (Reg.SAFE_IN_CFG i) 25 22))
    (levels.getD i (0, 0))

/-- The inputs of an evaluator once `i` has been taken to `x`, told where it is newly in fault. -/
def Mach.inputSampled (m : Mach) (sp : Bool) (levels : List (Int × Int)) (i : Nat) : Mach :=
  let old := nth (m.eval sp).inputs i
  let x := m.inputStep levels i old
  let m := m.onEval sp fun e => { e with inputs := upd e.inputs i fun _ => x }
  if x.fault && !old.fault then m.inputFault sp i 1 else m

theorem Mach.sampleInputs_eq : m.sampleInputs sp levels = forN 16 (fun i m => m.inputSampled sp levels i) m := rfl

theorem upd_upd_const {α : Type} (l : List α) (i : Nat) (x : α) (g : α → α) (hg : g x = x) :
    upd (upd l i fun _ => x) i g = upd l i fun _ => x := by
  rw [upd_upd]
  exact congrArg (upd l i) (funext fun _ => hg)

theorem Mach.inputSampled_spec (i : Nat) :
    ((m.inputSampled sp levels i).eval sp).inputs =
        upd (m.eval sp).inputs i (fun _ => m.inputStep levels i (nth (m.eval sp).inputs i)) ∧
      (m.inputSampled sp levels i).safetyView.2 = m.safetyView.2 ∧
      (m.inputSampled sp levels i).safe.tpUntil = m.safe.tpUntil := by
  unfold Mach.inputSampled
  extract_lets old x m₁
  have h₁ : (m₁.eval sp).inputs = upd (m.eval sp).inputs i fun _ => x := congrArg Evaluator.inputs (m.eval_onEval sp _)
  have htp : m₁.safe.tpUntil = m.safe.tpUntil := m.onEval_tpUntil sp _
  split
  case isTrue hfault =>
    obtain ⟨hview, hpulse⟩ := m₁.inputFault_beside sp i 1
    have hx : x.fault = true := (Bool.and_eq_true_iff.1 hfault).1
    have hsame : SafeInput.faulted x = x := by
      have hstate : x.state = false := SafeInput.step_state_of_fault hx
      rw [SafeInput.faulted, ← hx, ← hstate]
    refine ⟨?_, hview, hpulse.trans htp⟩
    rw [Mach.inputFault_eval, h₁]
    exact upd_upd_const _ i x _ hsame
  case isFalse => exact ⟨h₁, rfl, htp⟩

variable {m levels} in
theorem Mach.inputStep_congr {m' : Mach} (hview : m'.safetyView.2 = m.safetyView.2) (htp : m'.safe.tpUntil = m.safe.tpUntil)
    {i : Nat} (hi : i < 16) (x : SafeInput) : m'.inputStep levels i x = m.inputStep levels i x := by
  have hnow : m'.now = m.now := congrArg (·.1) hview
  have hcfg : safetyCfgReg (Reg.SAFE_IN_CFG i) := by simp only [safetyCfgReg, Reg.SAFE_IN_CFG]; omega
  have hrd : m'.rd (Reg.SAFE_IN_CFG i) = m.rd (Reg.SAFE_IN_CFG i) := by
    have h := congrFun (congrArg (·.2) hview) (Reg.SAFE_IN_CFG i)
    simpa only [Mach.safetyView, if_pos hcfg] using h
  unfold Mach.inputStep Mach.pulseMask Mach.fld
  rw [hrd, hnow, htp]

/-- The inputs below `n` are taken a cycle on, and the others stand. -/
theorem Mach.inputsSampled_spec {n : Nat} (hn : n ≤ 16) :
    (forN n (fun i m => m.inputSampled sp levels i) m).safetyView.2 = m.safetyView.2 ∧
      (forN n (fun i m => m.inputSampled sp levels i) m).safe.tpUntil = m.safe.tpUntil ∧
      ∀ i x, (m.eval sp).inputs[i]? = some x → ((forN n (fun i m => m.inputSampled sp levels i) m).eval sp).inputs[i]? =
        some (if i < n then m.inputStep levels i x else x) := by
  induction n with
  | zero => exact ⟨rfl, rfl, fun i x hx => by simpa [forN] using hx⟩
  | succ n ih =>
    obtain ⟨hview, htp, hin⟩ := ih (by omega)
    have hsucc : forN (n + 1) (fun i m => m.inputSampled sp levels i) m =
        (forN n (fun i m => m.inputSampled sp levels i) m).inputSampled sp levels n := by
      simp [forN, List.range_succ]
    rw [hsucc]
    generalize forN n (fun i m => m.inputSampled sp levels i) m = m' at *
    obtain ⟨hnew, hview', htp'⟩ := m'.inputSampled_spec sp levels n
    refine ⟨hview'.trans hview, htp'.trans htp, fun i x hx => ?_⟩
    have hold := hin i x hx
    rw [hnew, upd, List.getElem?_modify, hold]
    by_cases hni : n = i
    · subst hni
      have hnth : nth (m'.eval sp).inputs n = x := by
        rw [nth, List.getD_eq_getElem?_getD, hold, if_neg (Nat.lt_irrefl n)]
        rfl
      simp [hnth, Mach.inputStep_congr hview htp (by omega : n < 16)]
    · simp only [if_neg hni]
      by_cases hlt : i < n
      · simp [hlt, Nat.lt_succ_of_lt hlt]
      · simp [hlt, show ¬i < n + 1 by omega]

theorem Mach.sampleInputs_spec : (m.sampleInputs sp levels).safetyView.2 = m.safetyView.2 ∧
    ∀ (i : Fin 16) x, (m.eval sp).inputs[i.val]? = some x →
      nth ((m.sampleInputs sp levels).eval sp).inputs i = m.inputStep levels i x := by
  obtain ⟨hview, -, hin⟩ := m.inputsSampled_spec sp levels (le_refl 16)
  rw [Mach.sampleInputs_eq]
  refine ⟨hview, fun i x hx => ?_⟩
  rw [nth, List.getD_eq_getElem?_getD, hin i x hx, if_pos i.isLt]
  rfl
end

/-! ### The parts of the cycle that leave the inputs (R398 steps 2 to 4) -/

section
variable (m : Mach) (sp : Bool)

theorem Mach.inputsView_takeRemote : (m.takeRemote sp).inputsView sp = m.inputsView sp := m.inputsView_onEval sp rfl

theorem Mach.inputsView_demandActs (f : Nat) : (m.demandActs sp f).inputsView sp = m.inputsView sp := by
  unfold Mach.demandActs
  extract_lets w finish m₁
  have h₁ : m₁.inputsView sp = m.inputsView sp := iteInduction (motive := fun x : Mach => x.inputsView sp = m.inputsView sp)
    (fun _ => rfl) fun _ => forL_keeps (Mach.inputsView · sp) (fun k m => m.inputsView_onEval sp rfl) _ _
  exact iteInduction (motive := fun x : Mach => x.inputsView sp = m.inputsView sp)
    (fun _ => (Mach.inputsView_of_view (m₁.safetyView_accede _)).trans h₁) fun _ => h₁

theorem Mach.inputsView_evalFn (f : Nat) (release : Option Bool) : (m.evalFn sp f release).inputsView sp = m.inputsView sp := by
  unfold Mach.evalFn
  extract_lets e w accepted m₁ old x x₁ x₂ raw latch x₃ m₂
  have h₁ : m₁.inputsView sp = m.inputsView sp := iteInduction (motive := fun x : Mach => x.inputsView sp = m.inputsView sp)
    (fun _ => m.inputsView_onSafe sp rfl rfl) fun _ => rfl
  have h₂ : m₂.inputsView sp = m.inputsView sp := (m₁.inputsView_onEval sp rfl).trans h₁
  exact iteInduction (motive := fun x : Mach => x.inputsView sp = m.inputsView sp)
    (fun _ => (m₂.inputsView_demandActs sp f).trans h₂) fun _ => h₂

theorem Mach.inputsView_evalFns (before : List SafeInput) : (m.evalFns sp before).inputsView sp = m.inputsView sp := by
  unfold Mach.evalFns
  extract_lets released m₁
  have h₁ : m₁.inputsView sp = m.inputsView sp := by
    refine iteInduction (motive := fun x : Mach => x.inputsView sp = m.inputsView sp) (fun _ => rfl) fun _ => ?_
    refine forN_keeps (Mach.inputsView · sp) (fun r m => ?_) _ _
    exact iteInduction (motive := fun x : Mach => x.inputsView sp = m.inputsView sp) (fun _ => rfl) fun _ => rfl
  refine (forN_keeps (Mach.inputsView · sp) (fun f m => ?_) _ _).trans h₁
  exact iteInduction (motive := fun x : Mach => x.inputsView sp = m.inputsView sp) (fun _ => m.inputsView_evalFn sp f _) fun _ => rfl

theorem Mach.inputsView_slsCheck (f : Nat) : (m.slsCheck sp f).inputsView sp = m.inputsView sp := by
  unfold Mach.slsCheck
  extract_lets e limit out n m₁ m₂
  have h₁ : m₁.inputsView sp = m.inputsView sp := m.inputsView_onEval sp rfl
  refine iteInduction (motive := fun x : Mach => x.inputsView sp = m.inputsView sp) (fun _ => h₁) fun _ => ?_
  have h₂ : m₂.inputsView sp = m₁.inputsView sp := m₁.inputsView_onSafe sp rfl rfl
  exact (forL_keeps (Mach.inputsView · sp) (fun k m => Mach.inputsView_of_view (m.safetyView_raiseF3 _ _ _ _)) _ _).trans
    ((Mach.inputsView_of_view (m₂.safetyView_safeIrq 2)).trans (h₂.trans h₁))

theorem Mach.inputsView_peaksCleared : (m.onSafe fun s =>
    if sp then { s with peakP := s.peakP.map fun _ => 0 } else { s with peakB := s.peakB.map fun _ => 0 }).inputsView sp =
      m.inputsView sp := by
  cases sp
  · exact m.inputsView_onSafe false (g := fun s => { s with peakB := s.peakB.map fun _ => 0 }) rfl rfl
  · exact m.inputsView_onSafe true (g := fun s => { s with peakP := s.peakP.map fun _ => 0 }) rfl rfl

theorem Mach.inputsView_slsChecks : (m.slsChecks sp).inputsView sp = m.inputsView sp := by
  unfold Mach.slsChecks
  extract_lets m₁
  have h₁ : m₁.inputsView sp = m.inputsView sp := by
    refine forN_keeps (Mach.inputsView · sp) (fun f m => ?_) _ _
    exact iteInduction (motive := fun x : Mach => x.inputsView sp = m.inputsView sp) (fun _ => m.inputsView_slsCheck sp f) fun _ => rfl
  exact (m₁.inputsView_peaksCleared sp).trans h₁

/-! ### STO (R411, R412) -/

/-- The machine with an evaluator's STO word, before its gates follow. -/
def Mach.stoNamed (m : Mach) (sp : Bool) (sto : Nat) : Mach := m.onEval sp fun e => { e with words := { e.words with sto := sto } }

/-- What follows an evaluator's STO word changes nothing of the evaluators. -/
theorem Mach.safetyView_setSto (sto : Nat) : (m.setSto sp sto).safetyView = (m.stoNamed sp sto).safetyView := by
  unfold Mach.setSto
  extract_lets old m₁
  refine iteInduction (motive := fun x : Mach => x.safetyView = m₁.safetyView) (fun _ => m₁.safetyView_onGate _) fun _ => ?_
  refine iteInduction (motive := fun x : Mach => x.safetyView = m₁.safetyView) (fun _ => rfl) fun _ => ?_
  exact forL_keeps Mach.safetyView (fun k m => m.safetyView_gateLoad k _) _ m₁

theorem Mach.inputsView_setSto (sto : Nat) : (m.setSto sp sto).inputsView sp = m.inputsView sp :=
  (Mach.inputsView_of_view (m.safetyView_setSto sp sto)).trans (m.inputsView_onEval sp rfl)

theorem Mach.inputsView_ss1Expire (k : Nat) : (m.ss1Expire sp k).inputsView sp = m.inputsView sp := by
  unfold Mach.ss1Expire
  split
  · rfl
  · refine iteInduction (motive := fun x : Mach => x.inputsView sp = m.inputsView sp) (fun _ => rfl) fun _ => ?_
    extract_lets m₁ m₂
    have h₁ : m₁.inputsView sp = m.inputsView sp := m.inputsView_onEval sp rfl
    have h₂ : m₂.inputsView sp = m.inputsView sp := (m₁.inputsView_setSto sp _).trans h₁
    exact iteInduction (motive := fun x : Mach => x.inputsView sp = m.inputsView sp) (fun _ => h₂) fun _ =>
      (Mach.inputsView_of_view ((Mach.safetyView_safeIrq _ _).trans (m₂.safetyView_raiseF3 _ _ _ _))).trans h₂

/-- The slots that an evaluator's stop delays or functions hold are in its STO word, and the inputs stand. -/
theorem Mach.stopWords_spec : (m.stopWords sp).inputsView sp = m.inputsView sp ∧
    ∀ f k : Fin 16, (m.stopWords sp).fnOn f = true → k.val ∈ (m.stopWords sp).fnSlots f →
      (nth ((m.stopWords sp).eval sp).fns f).result = false → ((m.stopWords sp).fn0 f).bits 27 26 = 0 →
      ((m.stopWords sp).eval sp).words.sto.testBit k = true := by
  unfold Mach.stopWords
  extract_lets due m₁ m₂ ss1
  have h₁ : m₁.inputsView sp = m.inputsView sp := forL_keeps (Mach.inputsView · sp) (fun k m => m.inputsView_ss1Expire sp k) _ _
  have hview := m₁.safetyView_setSto sp (slotMask fun k => due.contains k || (List.range 16).any fun f => m₁.stoHolds sp f k)
  have heval : m₂.eval sp = { m₁.eval sp with words := { (m₁.eval sp).words with
      sto := slotMask fun k => due.contains k || (List.range 16).any fun f => m₁.stoHolds sp f k } } :=
    (Mach.eval_of_view hview).trans (m₁.eval_onEval sp _)
  have hrd : ∀ a, safetyCfgReg a → m₂.rd a = m₁.rd a := fun a ha => Mach.rd_of_view hview ha
  refine ⟨(m₂.inputsView_onEval sp rfl).trans ((m₁.inputsView_setSto sp _).trans h₁), fun f k hon hk hres hstop => ?_⟩
  have hw0 : m₂.rd (Reg.SAFE_FN_CFG_W0 f) = m₁.rd (Reg.SAFE_FN_CFG_W0 f) :=
    hrd _ (by simp only [safetyCfgReg, Reg.SAFE_FN_CFG_W0]; omega)
  have hw1 : m₂.rd (Reg.SAFE_FN_CFG_W1 f) = m₁.rd (Reg.SAFE_FN_CFG_W1 f) :=
    hrd _ (by simp only [safetyCfgReg, Reg.SAFE_FN_CFG_W1]; omega)
  have hon' : m₁.fnOn f = true := by
    change m₂.fnOn f = true at hon
    rwa [Mach.fnOn, Mach.fn0, hw0] at hon
  have hk' : k.val ∈ m₁.fnSlots f := by
    change k.val ∈ m₂.fnSlots f at hk
    rwa [Mach.fnSlots, Mach.fld, hw1] at hk
  have hstop' : (m₁.fn0 f).bits 27 26 = 0 := by
    change (m₂.fn0 f).bits 27 26 = 0 at hstop
    rwa [Mach.fn0, hw0] at hstop
  rw [Mach.eval_onEval] at hres ⊢
  simp only [heval] at hres ⊢
  rw [testBit_slotMask _ k.isLt]
  have hholds : m₁.stoHolds sp f k = true := by
    simp [Mach.stoHolds, hon', hk', hres, hstop']
  simp only [Bool.or_eq_true, List.any_eq_true]
  exact .inr ⟨f, List.mem_range.2 f.isLt, hholds⟩
end

/-! ### Enables and the exchange (R398 steps 5 and 6, R399, R410) -/

section
variable (m : Mach) (sp : Bool)

theorem Mach.stoView_setEnables : (m.setEnables sp).stoView sp = m.stoView sp := by
  unfold Mach.setEnables
  extract_lets e outs gates m₁
  exact (Mach.stoView_of_view (m₁.safetyView_onGate _)).trans (m.stoView_onEval sp rfl rfl rfl)

/-- Bedrock's comparison changes its own account of the exchange and nothing of the evaluators. -/
theorem Mach.compareWords_safe : ∃ d n, m.compareWords.safe = { m.safe with diff := d, agree := n } ∧
    m.compareWords.safetyView.2 = m.safetyView.2 := by
  unfold Mach.compareWords
  extract_lets d runs m₁ agree m₂ used tested m₃
  have h₁ : m₁.safetyView = m.safetyView := iteInduction (motive := fun x : Mach => x.safetyView = m.safetyView)
    (fun _ => m.safetyView_raiseF4 _) fun _ => rfl
  have h₃ : m₃.safetyView = m₂.safetyView := m₂.safetyView_wr (by decide) _
  have hlast : (if 16 ≤ agree ∧ tested m₃.safe.bed ∧ tested m₃.safe.sp then m₃.setBit Reg.SAFE_STATUS 26 true else m₃).safetyView =
      m₂.safetyView := iteInduction (motive := fun x : Mach => x.safetyView = m₂.safetyView)
    (fun _ => (m₃.safetyView_wr (by decide) _).trans h₃) fun _ => h₃
  refine ⟨runs.map fun x => (x.1, min x.2 5), agree, ?_, ?_⟩
  · exact (Mach.safe_of_view hlast).trans
      (congrArg (fun z : SafeState => { z with diff := runs.map fun x : Nat × Nat => (x.1, min x.2 5), agree := agree }) (Mach.safe_of_view h₁))
  · rw [hlast]
    exact congrArg (·.2) h₁

theorem Mach.compareWords_eval (sp : Bool) : m.compareWords.eval sp = m.eval sp := by
  obtain ⟨d, n, hsafe, -⟩ := m.compareWords_safe
  rw [Mach.eval, hsafe]
  cases sp <;> rfl

theorem Mach.stoView_compareWords : m.compareWords.stoView sp = m.stoView sp := by
  obtain ⟨-, -, -, hview⟩ := m.compareWords_safe
  rw [Mach.stoView, Mach.compareWords_eval, hview]
  rfl

/-! Words in force (R410). -/

theorem Mach.safetyView_wordInForce (src : Nat) {reg : Nat} (h : ¬safetyCfgReg reg) (hi lo v : Nat) :
    (m.wordInForce src reg hi lo v).safetyView = m.safetyView :=
  iteInduction (motive := fun x : Mach => x.safetyView = m.safetyView) (fun _ => rfl) fun _ =>
    (Mach.safetyView_accede _ _).trans (m.safetyView_wr h _)

theorem Mach.fld_accede_other {reg : Nat} (h : reg ∉ accessionRegs) (i : AsyncIn) (hi lo : Nat) :
    (m.accede i).fld reg hi lo = m.fld reg hi lo := congrArg (Word.bits · hi lo) (Mach.accede_rd_other _ h i)

theorem Mach.fld_lt (a : Nat) {hi lo : Nat} : m.fld a hi lo < 2 ^ (hi + 1 - lo) := Nat.mod_lt _ (by positivity)

theorem Mach.fld_wordInForce (src : Nat) {reg : Nat} (h : reg ∉ accessionRegs) {hi lo : Nat} (hl : lo ≤ hi) (hh : hi < 32) (v : Nat) :
    (m.wordInForce src reg hi lo v).fld reg hi lo = v % 2 ^ (hi + 1 - lo) := by
  unfold Mach.wordInForce
  split
  case isTrue heq => rw [heq, Nat.mod_eq_of_lt (heq ▸ m.fld_lt reg)]
  case isFalse => rw [Mach.fld_accede_other _ h, Mach.fld_setFld _ _ hl hh]

theorem Mach.fld_wordInForce_other (src : Nat) {reg b : Nat} (h : b ∉ accessionRegs) {hi lo h' l' : Nat} (hl : lo ≤ hi) (hh : hi < 32)
    (hlh : l' ≤ h') (hd : b ≠ reg ∨ h' < lo ∨ hi < l') (v : Nat) :
    (m.wordInForce src reg hi lo v).fld b h' l' = m.fld b h' l' := by
  unfold Mach.wordInForce
  split
  case isTrue => rfl
  case isFalse => rw [Mach.fld_accede_other _ h, Mach.fld_setFld_other _ _ hl hh hlh hd]

/-- The words of R410 that are told of, in force. -/
def Mach.wordsTaken (m : Mach) (input result sto ss1 : Nat) : Mach :=
  (((m.wordInForce 0 Reg.SAFE_INPUTS 15 0 input).wordInForce 1 Reg.SAFE_FUNC 15 0 result).wordInForce 2 Reg.SAFE_STO 15 0
    sto).wordInForce 3 Reg.SAFE_STO 31 16 ss1

theorem Mach.safetyView_wordsTaken (input result sto ss1 : Nat) : (m.wordsTaken input result sto ss1).safetyView = m.safetyView :=
  (Mach.safetyView_wordInForce _ _ (by decide) _ _ _).trans ((Mach.safetyView_wordInForce _ _ (by decide) _ _ _).trans
    ((Mach.safetyView_wordInForce _ _ (by decide) _ _ _).trans (m.safetyView_wordInForce _ (by decide) _ _ _)))

theorem Mach.wordsTaken_fields (input result sto ss1 : Nat) :
    (m.wordsTaken input result sto ss1).fld Reg.SAFE_INPUTS 15 0 = input % 2 ^ 16 ∧
      (m.wordsTaken input result sto ss1).fld Reg.SAFE_FUNC 15 0 = result % 2 ^ 16 ∧
      (m.wordsTaken input result sto ss1).fld Reg.SAFE_STO 15 0 = sto % 2 ^ 16 ∧
      (m.wordsTaken input result sto ss1).fld Reg.SAFE_STO 31 16 = ss1 % 2 ^ 16 := by
  unfold Mach.wordsTaken
  refine ⟨?_, ?_, ?_, ?_⟩
  · rw [Mach.fld_wordInForce_other _ _ (by decide) (by decide) (by decide) (by decide) (.inl (by decide)),
      Mach.fld_wordInForce_other _ _ (by decide) (by decide) (by decide) (by decide) (.inl (by decide)),
      Mach.fld_wordInForce_other _ _ (by decide) (by decide) (by decide) (by decide) (.inl (by decide)),
      Mach.fld_wordInForce _ _ (by decide) (by decide) (by decide)]
  · rw [Mach.fld_wordInForce_other _ _ (by decide) (by decide) (by decide) (by decide) (.inl (by decide)),
      Mach.fld_wordInForce_other _ _ (by decide) (by decide) (by decide) (by decide) (.inl (by decide)),
      Mach.fld_wordInForce _ _ (by decide) (by decide) (by decide)]
  · rw [Mach.fld_wordInForce_other _ _ (by decide) (by decide) (by decide) (by decide) (.inr (.inl (by decide))),
      Mach.fld_wordInForce _ _ (by decide) (by decide) (by decide)]
  · rw [Mach.fld_wordInForce _ _ (by decide) (by decide) (by decide)]

/-- The words of both evaluators agree with what is in force (R410). -/
def Mach.WordsAgree (m : Mach) : Prop :=
  m.fld Reg.SAFE_INPUTS 15 0 = (m.safe.bed.words.input &&& m.safe.sp.words.input) % 2 ^ 16 ∧
    m.fld Reg.SAFE_FUNC 15 0 = (m.safe.bed.words.result &&& m.safe.sp.words.result) % 2 ^ 16 ∧
    m.fld Reg.SAFE_STO 15 0 = (m.safe.bed.words.sto &&& m.safe.sp.words.sto) % 2 ^ 16 ∧
    m.fld Reg.SAFE_STO 31 16 = (m.safe.bed.words.ss1 &&& m.safe.sp.words.ss1) % 2 ^ 16 ∧
    m.rd Reg.SAFE_SLS = BitVec.ofNat 32 (m.safe.bed.words.sls &&& m.safe.sp.words.sls) ∧
    m.fld Reg.SAFE_OUTS 6 0 = (m.safe.bed.words.outs &&& m.safe.sp.words.outs) % 2 ^ 7

/-- What of R410 is not told of. -/
def Mach.wordsShown (m : Mach) (sls outs : Nat) : Mach := (m.wrN Reg.SAFE_SLS sls).setFld Reg.SAFE_OUTS 6 0 outs

theorem Mach.wordsShown_fld (sls outs : Nat) {b hi lo : Nat} (h : b ≠ Reg.SAFE_SLS) (h' : b ≠ Reg.SAFE_OUTS) :
    (m.wordsShown sls outs).fld b hi lo = m.fld b hi lo := by
  rw [Mach.wordsShown, Mach.fld, Mach.rd_setFld, if_neg h', Mach.rd_wrN, if_neg h]
  rfl

theorem Mach.wordsInForce_spec : m.wordsInForce.safetyView = m.safetyView ∧ m.wordsInForce.WordsAgree := by
  unfold Mach.wordsInForce
  extract_lets x y old res flt lat cause fell rose m₁ m₂ m₃ m₄
  have h₁ : m₁.safetyView = m.safetyView :=
    forL_keeps Mach.safetyView (fun f m => (Mach.safetyView_safeIrq _ _).trans (m.safetyView_raise _ _ _ _ _)) _ _
  have h₂ : m₂.safetyView = m.safetyView :=
    (forL_keeps Mach.safetyView (fun _ m => (Mach.safetyView_safeIrq _ _).trans (m.safetyView_raise _ _ _ _ _)) _ _).trans h₁
  have h₃ : m₃.safetyView = m.safetyView := (Mach.safetyView_wr _ (by decide) _).trans ((m₂.safetyView_wr (by decide) _).trans h₂)
  have h₄ : m₄.safetyView = m.safetyView := (m₃.safetyView_wordsTaken _ _ _ _).trans h₃
  have hview : (m₄.wordsShown (x.sls &&& y.sls) (x.outs &&& y.outs)).safetyView = m.safetyView :=
    (Mach.safetyView_wr _ (by decide) _).trans ((m₄.safetyView_wr (by decide) _).trans h₄)
  obtain ⟨hin, hres, hsto, hss1⟩ := m₃.wordsTaken_fields (x.input &&& y.input) res (x.sto &&& y.sto) (x.ss1 &&& y.ss1)
  refine ⟨hview, ?_⟩
  change (m₄.wordsShown (x.sls &&& y.sls) (x.outs &&& y.outs)).WordsAgree
  unfold Mach.WordsAgree
  rw [Mach.safe_of_view hview, Mach.wordsShown_fld _ _ _ (by decide) (by decide), Mach.wordsShown_fld _ _ _ (by decide) (by decide),
    Mach.wordsShown_fld _ _ _ (by decide) (by decide), Mach.wordsShown_fld _ _ _ (by decide) (by decide)]
  refine ⟨hin, hres, hsto, hss1, ?_, ?_⟩
  · rw [Mach.wordsShown, Mach.rd_setFld, if_neg (by decide), Mach.rd_wrN, if_pos rfl]
  · rw [Mach.wordsShown, Mach.fld_setFld _ _ (by decide) (by decide)]

theorem Mach.exchangeWords_sto : (m.exchangeWords sp).sto = (m.eval sp).words.sto := by
  simp only [Mach.exchangeWords]

theorem Mach.exchange_spec : ((m.exchange sp).eval sp).lastAt = some m.now ∧ ((m.exchange sp).eval (!sp)).lost = false ∧
    (m.exchange sp).WordsAgree ∧ (m.exchange sp).stoView sp = m.stoView sp := by
  unfold Mach.exchange
  extract_lets w m₁ m₂ m₃ m₄ m₅
  have hw : w.sto = (m.eval sp).words.sto := m.exchangeWords_sto sp
  clear_value w
  have h₁ : m₁.stoView sp = m.stoView sp :=
    m.stoView_onEval sp (f := fun e => { e with words := w, lastAt := some m.now }) rfl rfl hw
  have hlast : (m₁.eval sp).lastAt = some m.now := congrArg Evaluator.lastAt (m.eval_onEval sp _)
  have hsame : m₂.eval sp = m₁.eval sp := by
    have h := m₁.eval_onEval_other (!sp) fun e => { e with lost := false }
    rwa [Bool.not_not] at h
  have hlost : (m₂.eval (!sp)).lost = false := congrArg Evaluator.lost (m₁.eval_onEval (!sp) _)
  have h₂ : m₂.stoView sp = m.stoView sp := by
    rw [Mach.stoView, hsame]
    exact h₁
  have h₃ : m₃.safetyView = m₂.safetyView := by
    cases sp
    · exact m₂.safetyView_wr (by decide) _
    · exact m₂.safetyView_wr (by decide) _
  have h₄ : m₄.safetyView = m₂.safetyView := iteInduction (motive := fun x : Mach => x.safetyView = m₂.safetyView) (fun _ => h₃)
    fun _ => (m₃.safetyView_wr (by decide) _).trans h₃
  have h₅ : m₅.stoView sp = m₂.stoView sp ∧ ∀ b, m₅.eval b = m₂.eval b :=
    iteInduction (motive := fun x : Mach => x.stoView sp = m₂.stoView sp ∧ ∀ b, x.eval b = m₂.eval b)
      (fun _ => ⟨(m₄.stoView_compareWords sp).trans (Mach.stoView_of_view h₄),
        fun b => (m₄.compareWords_eval b).trans (Mach.eval_of_view h₄)⟩)
      fun _ => ⟨Mach.stoView_of_view h₄, fun b => Mach.eval_of_view h₄⟩
  obtain ⟨hview, hagree⟩ := m₅.wordsInForce_spec
  refine ⟨?_, ?_, hagree, (Mach.stoView_of_view hview).trans (h₅.1.trans h₂)⟩
  · rw [Mach.eval_of_view hview, h₅.2, hsame, hlast]
  · rw [Mach.eval_of_view hview, h₅.2, hlost]
end

/-! ### The cycle (R398) -/

section
variable (m : Mach) (sp : Bool) (levels : List (Int × Int))

/-- The machine before the exchange of its cycle. -/
def Mach.cycleDecided (m : Mach) (sp : Bool) (levels : List (Int × Int)) : Mach :=
  ((((((m.sampleInputs sp levels).takeRemote sp).evalFns sp (m.eval sp).inputs).slsChecks sp).stopWords sp).setEnables sp)

/-- The machine after the exchange of its cycle, with the seconds of a lockout shown by the safety processor. -/
def Mach.lockoutShown (m : Mach) (sp : Bool) : Mach := if sp then m.setFld Reg.SAFE_SESS_STAT 15 0 m.lockoutLeft else m

theorem Mach.safetyCycle_runs (hrun : m.tick.running = true) (hmode : m.mode ≠ .sleep) :
    m.safetyCycle sp levels = ((m.cycleDecided sp levels).exchange sp).lockoutShown sp := by
  have hno : ¬(!m.tick.running || m.mode == .sleep) = true := by simp [hrun, hmode]
  rw [Mach.safetyCycle, if_neg hno]
  rfl

theorem Mach.safetyView_lockoutShown : (m.lockoutShown sp).safetyView = m.safetyView :=
  iteInduction (motive := fun x : Mach => x.safetyView = m.safetyView) (fun _ => m.safetyView_wr (by decide) _) fun _ => rfl

theorem Mach.lockoutShown_rd {a : Nat} (h : a ≠ Reg.SAFE_SESS_STAT) : (m.lockoutShown sp).rd a = m.rd a :=
  iteInduction (motive := fun x : Mach => x.rd a = m.rd a) (fun _ => m.rd_wr_other _ h) fun _ => rfl

theorem Mach.WordsAgree.congr {m m' : Mach} (h : m.WordsAgree) (hsafe : m'.safe = m.safe)
    (hrd : ∀ a ∈ [Reg.SAFE_INPUTS, Reg.SAFE_FUNC, Reg.SAFE_STO, Reg.SAFE_SLS, Reg.SAFE_OUTS], m'.rd a = m.rd a) : m'.WordsAgree := by
  simp only [List.forall_mem_cons] at hrd
  obtain ⟨hin, hfn, hsto, hsls, hout, -⟩ := hrd
  unfold Mach.WordsAgree at h ⊢
  unfold Mach.fld at h ⊢
  rwa [hsafe, hin, hfn, hsto, hsls, hout]

/-- A slot of a function without a stop delay whose RESULT is 0 is in the evaluator's STO word. -/
def Mach.StoHeld (m : Mach) (sp : Bool) : Prop :=
  ∀ f k : Fin 16, m.fnOn f = true → k.val ∈ m.fnSlots f → (nth (m.eval sp).fns f).result = false → (m.fn0 f).bits 27 26 = 0 →
    (m.eval sp).words.sto.testBit k = true

theorem Mach.StoHeld.congr {m m' : Mach} {sp : Bool} (h : m.StoHeld sp) (hview : m'.stoView sp = m.stoView sp) : m'.StoHeld sp := by
  simp only [Mach.stoView, Prod.mk.injEq] at hview
  obtain ⟨-, hfns, hsto, hrest⟩ := hview
  have hrd : ∀ a, safetyCfgReg a → m'.rd a = m.rd a := by
    intro a ha
    have h := congrFun (congrArg (·.2) hrest) a
    simpa only [Mach.safetyView, if_pos ha] using h
  intro f k hon hk hres hstop
  have hw0 : m'.rd (Reg.SAFE_FN_CFG_W0 f) = m.rd (Reg.SAFE_FN_CFG_W0 f) :=
    hrd _ (by simp only [safetyCfgReg, Reg.SAFE_FN_CFG_W0]; omega)
  have hw1 : m'.rd (Reg.SAFE_FN_CFG_W1 f) = m.rd (Reg.SAFE_FN_CFG_W1 f) :=
    hrd _ (by simp only [safetyCfgReg, Reg.SAFE_FN_CFG_W1]; omega)
  rw [Mach.fnOn, Mach.fn0, hw0] at hon
  rw [Mach.fnSlots, Mach.fld, hw1] at hk
  rw [Mach.fn0, hw0] at hstop
  rw [hfns] at hres
  rw [hsto]
  exact h f k hon hk hres hstop

theorem Mach.cycleDecided_spec : (m.cycleDecided sp levels).inputsView sp = (m.sampleInputs sp levels).inputsView sp ∧
    (m.cycleDecided sp levels).StoHeld sp := by
  obtain ⟨hin, hsto⟩ := ((((m.sampleInputs sp levels).takeRemote sp).evalFns sp (m.eval sp).inputs).slsChecks sp).stopWords_spec sp
  have hstop : (((((m.sampleInputs sp levels).takeRemote sp).evalFns sp (m.eval sp).inputs).slsChecks sp).stopWords sp).StoHeld sp := hsto
  exact ⟨(Mach.inputsView_of_sto (Mach.stoView_setEnables _ sp)).trans (hin.trans ((Mach.inputsView_slsChecks _ sp).trans
    ((Mach.inputsView_evalFns _ sp _).trans (Mach.inputsView_takeRemote _ sp)))), hstop.congr (Mach.stoView_setEnables _ sp)⟩

/-- What a cycle comes to (R398). -/
theorem Mach.safetyCycle_spec (hrun : m.tick.running = true) (hmode : m.mode ≠ .sleep) :
    ((m.safetyCycle sp levels).eval sp).lastAt = some m.now ∧ ((m.safetyCycle sp levels).eval (!sp)).lost = false ∧
      (m.safetyCycle sp levels).WordsAgree ∧ (m.safetyCycle sp levels).StoHeld sp ∧
      ∀ (i : Fin 16) x, (m.eval sp).inputs[i.val]? = some x →
        nth ((m.safetyCycle sp levels).eval sp).inputs i = m.inputStep levels i x := by
  obtain ⟨hview, hinputs⟩ := m.sampleInputs_spec sp levels
  obtain ⟨hin, hsto⟩ := m.cycleDecided_spec sp levels
  obtain ⟨hlast, hlost, hagree, hstoView⟩ := (m.cycleDecided sp levels).exchange_spec sp
  have hnow : (m.cycleDecided sp levels).now = m.now := (congrArg (fun x => x.2.1) hin).trans (congrArg (·.1) hview)
  have hshown := ((m.cycleDecided sp levels).exchange sp).safetyView_lockoutShown sp
  rw [m.safetyCycle_runs sp levels hrun hmode]
  refine ⟨?_, ?_, hagree.congr (Mach.safe_of_view hshown) fun a ha => ?_, ?_, fun i x hx => ?_⟩
  · rw [Mach.eval_of_view hshown, hlast, hnow]
  · rw [Mach.eval_of_view hshown, hlost]
  · exact Mach.lockoutShown_rd _ _ (by rintro rfl; revert ha; decide)
  · exact hsto.congr ((Mach.stoView_of_view hshown).trans hstoView)
  · rw [Mach.eval_of_view hshown, ← hinputs i x hx]
    exact congrArg (nth · i.val) ((congrArg (·.1) (Mach.inputsView_of_sto hstoView)).trans (congrArg (·.1) hin))
end

/-- Settles O49: the parts of the cycle one after another, by what each leaves of the inputs, the functions and the STO word. -/
theorem safetyCyclesFilterDecideAndExchange : Obligations.SafetyCyclesFilterDecideAndExchange := by
  refine ⟨fun cyc sp levels s hrun hmode => ?_, fun cyc sp levels s h => ?_⟩
  · obtain ⟨hlast, hlost, hagree, hsto, hin⟩ := (s.at cyc).safetyCycle_spec sp levels hrun hmode
    refine ⟨_, rfl, hlast, hlost, hagree.congr rfl fun a _ => Mach.settle_rd _ a, fun _ => rfl, fun i x hx => hin i x hx, ?_⟩
    exact hsto.congr (Mach.stoView_of_view (Mach.safetyView_eq rfl rfl fun a _ => Mach.settle_rd _ a))
  · have hidle : (!(s.at cyc).tick.running || (s.at cyc).mode == .sleep) = true := by
      change (!s.m.tick.running || s.m.mode == .sleep) = true
      rcases h with h | h <;> simp [h]
    obtain ⟨t, ht, hm, hquiet⟩ := run_makes (f := fun m => m.safetyCycle sp levels) (if_pos hidle) (Mach.FocTells.refl (s.at cyc) [])
    exact ⟨t, ht, by rw [hm]; rfl, hquiet⟩

end Sys2Proof.Machine
end

section
/-! What the loading of a frame changes (R193, R202): the gates, the registers of legs and drives, and what a refused mode tells. -/

namespace Sys2Proof.Machine

/-- The registers that the loading of a frame writes. -/
abbrev frameRegs : List Nat := accessionRegs ++ (commutationRegs ++ (List.range 24).map Reg.GDL_LEG_STAT)

/-- What the loading of a frame leaves alone beside registers. -/
def Mach.besideLoad (m : Mach) : Mach :=
  { m with regs := [], setNow := [], gate := default, lane := { m.lane with waiting := [] }, time := { m.time with raised := [], evcnt := 0 } }

/-- Of what loading has made of the machine, no more than gates, the registers of loading and what is told has changed. -/
structure Mach.LoadKept (m m' : Mach) : Prop where
  raised : m.time.raised <+: m'.time.raised
  beside : m'.besideLoad = m.besideLoad
  rd : ∀ b, b ∉ frameRegs → m'.rd b = m.rd b

section
variable (m : Mach)

theorem Mach.LoadKept.refl : m.LoadKept m := ⟨List.prefix_rfl, rfl, fun _ _ => rfl⟩

variable {m} in
theorem Mach.LoadKept.trans {m' m'' : Mach} (h : m.LoadKept m') (h' : m'.LoadKept m'') : m.LoadKept m'' :=
  ⟨h.raised.trans h'.raised, h'.beside.trans h.beside, fun b hb => (h'.rd b hb).trans (h.rd b hb)⟩

theorem Mach.LoadKept.onGate (f : GateState → GateState) : m.LoadKept (m.onGate f) := ⟨List.prefix_rfl, rfl, fun _ _ => rfl⟩

theorem Mach.LoadKept.onLeg (j : Nat) (f : GateLeg → GateLeg) : m.LoadKept (m.onLeg j f) := ⟨List.prefix_rfl, rfl, fun _ _ => rfl⟩

theorem Mach.LoadKept.raise (code cls slot : Nat) (d : List Nat) (o : Nat) : m.LoadKept (m.raise code cls slot d o) :=
  ⟨List.prefix_append .., rfl, fun _ _ => m.raise_rd ..⟩

theorem Mach.LoadKept.wr {a : Nat} (ha : a ∈ frameRegs) (w : Word) : m.LoadKept (m.wr a w) :=
  ⟨List.prefix_rfl, rfl, fun _ hb => m.rd_wr_other w fun hba => hb (by rwa [hba])⟩

theorem Mach.LoadKept.orr {a : Nat} (ha : a ∈ frameRegs) (v : Nat) : m.LoadKept (m.orr a v) :=
  ⟨List.prefix_rfl, rfl, (Mach.LoadKept.wr m ha _).rd⟩

theorem Mach.LoadKept.accede (i : AsyncIn) : m.LoadKept (m.accede i) := by
  have hplaced : m.time.raised <+: (m.accede i).time.raised ∧ (m.accede i).besideLoad = m.besideLoad := by
    unfold Mach.accede Mach.accedeAt Mach.place
    dsimp only
    split
    · exact ⟨List.prefix_rfl, rfl⟩
    · split
      · exact ⟨List.prefix_rfl, rfl⟩
      · exact ⟨List.prefix_append .., rfl⟩
  exact ⟨hplaced.1, hplaced.2, fun b hb => Mach.accede_rd_other m (fun h => hb (List.mem_append_left _ h)) i⟩

theorem Mach.LoadKept.raiseF3 (code slot : Nat) (d : List Nat) (o : Nat) : m.LoadKept (m.raiseF3 code slot d o) := by
  rcases m.raiseF3_cases code slot d o with h | h <;> rw [h]
  · exact .raise m ..
  · exact (Mach.LoadKept.raise m ..).trans (.accede _ _)

theorem Mach.LoadKept.loadPair (f : Frame) (p : Nat) (g : Leg) (mode : Nat) (told : Bool) : m.LoadKept (m.loadPair f p g mode told) := by
  unfold Mach.loadPair
  extract_lets ok m₁ mode' sk skew c n
  have h₁ : m.LoadKept m₁ := iteInduction (fun _ => .refl m) fun _ => .raiseF3 m ..
  exact h₁.trans (.onGate _ _)

theorem legStat_mem_frameRegs {j : Nat} (hj : j < 24) : Reg.GDL_LEG_STAT j ∈ frameRegs :=
  List.mem_append_right _ (List.mem_append_right _ (List.mem_map_of_mem (List.mem_range.2 hj)))

theorem Mach.LoadKept.loadLeg (f : Frame) {j : Nat} (hj : j < 24) (i : Nat) (g : Leg) (told : Bool) :
    m.LoadKept (m.loadLeg f j i g told) := by
  have hreg := legStat_mem_frameRegs hj
  unfold Mach.loadLeg
  extract_lets ok m₁ m₂ mode t n sync m₃
  have h₁ : m.LoadKept m₁ := iteInduction (fun _ => .refl m) fun _ => .raiseF3 m ..
  have hshow : m₁.LoadKept (m₁.showLegFlt j) := by
    unfold Mach.showLegFlt
    dsimp only
    split
    · exact .refl _
    · exact .wr m₁ hreg _
  have h₂ : m.LoadKept m₂ := iteInduction (fun _ => h₁.trans hshow) fun _ => h₁.trans (.wr m₁ hreg _)
  have h₃ : m.LoadKept m₃ := (h₂.trans (.onLeg m₂ j _)).trans (.onLeg _ j _)
  split
  · exact iteInduction (fun _ => h₃.trans (.onGate _ _)) fun _ => h₃
  · exact h₃

theorem Mach.LoadKept.takeRole (j : Nat) (r : CommRole) : m.LoadKept (m.takeRole j r) := by
  unfold Mach.takeRole
  extract_lets now settled x sync was nxt on cut
  have hsettled : m.LoadKept settled := .onLeg m j _
  exact iteInduction (fun _ => .refl m) fun _ => hsettled.trans (.onLeg _ j _)

theorem Mach.LoadKept.commutate {d : Nat} (hd : d < 6) : m.LoadKept (m.commutate d) := by
  have hst : Reg.GDL_DRV_STAT d ∈ frameRegs := List.mem_append_right _
    (List.mem_append_left _ (List.mem_cons_of_mem _ (List.mem_map_of_mem (List.mem_range.2 hd))))
  unfold Mach.commutate
  extract_lets j0 st sector dir comm inv row ph was role turned shown told
  have hturned : m.LoadKept turned := iteInduction
    (fun _ => forL_induct (P := m.LoadKept) (l := List.range 3) (fun i _ x hi => hi.trans (.takeRole x (j0 + i) (role i))) (.refl m))
    fun _ => .refl m
  have hshown : m.LoadKept shown := ((hturned.trans (.wr _ hst _)).trans (.wr _ hst _)).trans (.wr _ hst _)
  have htold : m.LoadKept told := iteInduction (fun _ => hshown.trans (.wr _ hst _)) fun _ => hshown
  exact iteInduction (fun _ => htold.trans (.orr told (a := Reg.GDL_IRQ_STAT) (by decide) _)) fun _ => htold

/-- The frame in execution at the gates of a slot. -/
def Mach.execFrame (m : Mach) (k : Nat) (f : Frame) : Mach := m.onLb fun b => { b with slots := upd b.slots k fun s => { s with exec := some f } }

theorem Mach.LoadKept.gateRun (k : Nat) (f : Frame) (told : Bool) : (m.execFrame k f).LoadKept (m.gateRun k f told) := by
  unfold Mach.gateRun
  extract_lets m₀ lat any tr modeOf side m₁ m₂ m₃
  have h₀ : (m.execFrame k f).LoadKept m₀ := .refl _
  have h₁ : (m.execFrame k f).LoadKept m₁ :=
    iteInduction (fun _ => (h₀.trans (.raise m₀ ..)).trans (.onGate _ _)) fun _ => h₀
  have h₂ : (m.execFrame k f).LoadKept m₂ := by
    refine forL_induct (P := (m.execFrame k f).LoadKept) (fun x _ m' hm' => ?_) h₁
    split
    · exact hm'.trans (.loadPair ..)
    · exact hm'
  have h₃ : (m.execFrame k f).LoadKept m₃ := by
    refine forL_induct (P := (m.execFrame k f).LoadKept) (fun x hx m' hm' => ?_) h₂
    have hj : x.1 < 24 := m₂.legsOf_lt (List.fst_mem_of_mem_zipIdx hx)
    split
    · exact hm'.trans (.loadLeg _ _ hj ..)
    · exact hm'
  refine iteInduction (fun _ => h₀) fun _ => ?_
  split
  case h_1 d hd =>
    obtain ⟨j, -, hjd⟩ := Option.bind_eq_some_iff.1 hd
    exact h₃.trans (.commutate m₃ (driveOf_lt hjd))
  case h_2 => exact h₃

theorem Mach.LoadKept.gateLoad (k : Nat) (f : Frame) : (m.execFrame k f).LoadKept (m.gateLoad k f) := by
  unfold Mach.gateLoad
  split
  · have hrun := Mach.LoadKept.gateRun (m.onGate fun g => { g with held := g.held &&& (0xFFFF ^^^ 2 ^ k) }) k f true
    exact ⟨hrun.raised, hrun.beside, hrun.rd⟩
  · exact .gateRun m k f true
end

/-! ### What loading keeps of the machine -/

theorem frameRegs_ge {a : Nat} (ha : a ∈ frameRegs) : 0x80000 ≤ a := (by decide : ∀ a ∈ frameRegs, 0x80000 ≤ a) a ha

section
variable {m m' : Mach} (h : m.LoadKept m')
include h

theorem Mach.LoadKept.slots : m'.lane.slots = m.lane.slots := by
  have hslots := congrArg (fun x : Mach => x.lane.slots) h.beside
  exact hslots

theorem Mach.LoadKept.now : m'.now = m.now := by
  have hnow := congrArg Mach.now h.beside
  exact hnow

theorem Mach.LoadKept.image : m'.image = m.image := by
  have himage := congrArg (fun x : Mach => x.image) h.beside
  exact himage

theorem Mach.LoadKept.pos : m'.pos = m.pos := by
  have hpos := congrArg (fun x : Mach => x.pos) h.beside
  exact hpos

/-- Standstill is decided by what loading leaves alone (R412). -/
theorem Mach.LoadKept.still {k : Nat} (hk : k < 16) : m'.still k = m.still k := by
  have hslots := h.slots
  have hnow := h.now
  have himage := h.image
  have hpos := h.pos
  have hentry : m'.slotEntry k = m.slotEntry k := by rw [Mach.slotEntry, Mach.slotEntry, himage]
  have htype : m'.slotType k = m.slotType k := by rw [Mach.slotType, Mach.slotType, hentry]
  have hlast : m'.lastAccepted k = m.lastAccepted k := by rw [Mach.lastAccepted, Mach.lastAccepted, hslots]
  have hfld : ∀ a hi lo, a ∉ frameRegs → m'.fld a hi lo = m.fld a hi lo := fun a hi lo ha => congrArg (Word.bits · hi lo) (h.rd a ha)
  have hperiod : m'.period = m.period := hfld _ _ _ (by decide)
  have hactive : m'.active = m.active := congrArg Lane.ofIx (hfld _ _ _ (by decide))
  have hhalls : m'.hallsQuiet k = m.hallsQuiet k := by
    have hdrive : m'.driveOfSlot k = m.driveOfSlot k := by
      refine List.find?_congr fun d hd => ?_
      have hreg : Reg.ACT_DRV_CFG d ∉ frameRegs := (by decide : ∀ d ∈ List.range 6, Reg.ACT_DRV_CFG d ∉ frameRegs) d hd
      rw [Mach.drvRole, Mach.drvSlot, Mach.drvRole, Mach.drvSlot, hfld _ _ _ hreg, hfld _ _ _ hreg]
    rw [Mach.hallsQuiet, Mach.hallsQuiet, hdrive, hperiod, hnow]
    cases hd : m.driveOfSlot k with
    | none => rfl
    | some d =>
      have hreg : Reg.GDL_DRV_CFG d ∉ frameRegs :=
        (by decide : ∀ d ∈ List.range 6, Reg.GDL_DRV_CFG d ∉ frameRegs) d (List.mem_of_find?_eq_some hd)
      simp only [Mach.hall, hpos, hfld _ _ _ hreg]
  have hbed : m'.stillBed k = m.stillBed k := by
    have hix : m.active.ix < 2 := by cases m.active <;> decide
    have hmotor : m'.motorOf m.active k = m.motorOf m.active k := by
      refine List.find?_congr fun i hi => ?_
      have hi' : i < 2 := List.mem_range.1 hi
      have hreg : Reg.FOC_M_CFG m.active.ix i ∉ frameRegs := fun ha => by
        have := frameRegs_ge ha
        simp only [Reg.FOC_M_CFG] at this
        omega
      rw [Mach.motorSet, Mach.motorSet, himage, hfld _ _ _ hreg]
    have hfly : Reg.MOD_FLY m.active.ix k ∉ frameRegs := fun ha => by
      have := frameRegs_ge ha
      simp only [Reg.MOD_FLY] at this
      omega
    have hlimit : ∀ x, m'.stepLimit k x = m.stepLimit k x := fun x => by
      rw [Mach.stepLimit, Mach.stepLimit, hactive, hmotor]
      cases hm : m.motorOf m.active k with
      | none => rfl
      | some i =>
        have hi : i < 2 := List.mem_range.1 (List.mem_of_find?_eq_some hm)
        have hreg : Reg.FOC_M_KW m.active.ix i ∉ frameRegs := fun ha => by
          have := frameRegs_ge ha
          simp only [Reg.FOC_M_KW] at this
          omega
        simp only [Mach.rdS, h.rd _ hreg]
    simp only [Mach.stillBed, htype, hlast, hhalls, hlimit, hactive, hfld _ _ _ hfly]
  have hsp : m'.stillSp k = m.stillSp k := by
    rw [Mach.stillSp, Mach.stillSp, hentry, hpos]
  rw [Mach.still, Mach.still, hbed, hsp]
end

end Sys2Proof.Machine
end

section
/-! Tests, timers and the loss of the exchange in the safety function (R400, R402, R403, R412, R415). -/

namespace Sys2Proof.Machine

/-! ### An F4 event of the device (R17) -/

section
variable {m m₀ : Mach} {regs : List Nat} {es : List Event}

theorem Mach.FocTells.onSys (h : m₀.FocTells regs es m) (f : SysState → SysState) : m₀.FocTells regs es (m.onSys f) :=
  h.next rfl rfl fun _ => rfl

theorem Mach.FocTells.raiseF4 (h : m₀.FocTells regs es m) (hreg : Reg.PWR_STATUS ∈ regs) (code : Nat) (d : List Nat) (o : Nat) :
    m₀.FocTells regs (es ++ [eventAt m₀ code 4 0xFF d o]) (m.raiseF4 code 0xFF d o) :=
  (((h.raise code 4 0xFF d o).onSys _).wr hreg (by decide) _).wr hreg (by decide) _

theorem Mach.raiseF4_rd_other (m : Mach) {b : Nat} (h : b ≠ Reg.PWR_STATUS) (code : Nat) (d : List Nat) (o : Nat) :
    (m.raiseF4 code 0xFF d o).rd b = m.rd b :=
  (Mach.setLines_rd h).trans rfl

theorem Mach.raiseF4_f4 (m : Mach) (code : Nat) (d : List Nat) (o : Nat) :
    (m.raiseF4 code 0xFF d o).sys.f4 = some (m.sys.f4.getD code) := rfl

theorem Mach.raiseF4_gate (m : Mach) (code : Nat) (d : List Nat) (o : Nat) : (m.raiseF4 code 0xFF d o).gate = m.gate := rfl

theorem Mach.raiseF4_lane (m : Mach) (code : Nat) (d : List Nat) (o : Nat) : (m.raiseF4 code 0xFF d o).lane = m.lane := rfl

theorem Mach.raiseF4_safe (m : Mach) (code : Nat) (d : List Nat) (o : Nat) : (m.raiseF4 code 0xFF d o).safe = m.safe := rfl

theorem Mach.eval_bed (m : Mach) : m.eval false = m.safe.bed := rfl

theorem Mach.eval_sp (m : Mach) : m.eval true = m.safe.sp := rfl

theorem Mach.FocTells.onEval (h : m₀.FocTells regs es m) (sp : Bool) (f : Evaluator → Evaluator) :
    m₀.FocTells regs es (m.onEval sp f) := h.onSafe _
end

/-! ### The loss of the exchange (R400) -/

section
variable (m : Mach) (sp : Bool)

/-- What an evaluator's enables make of the gates (R410). -/
def GateState.granted (g : GateState) (sp : Bool) (gates : Nat) : GateState :=
  let g := if sp then { g with enS := gates } else { g with enB := gates }
  { g with enabled := g.enabled &&& g.enB &&& g.enS }

theorem Mach.setEnables_eq : ∃ outs gates, ((m.eval sp).lost = true → gates = 0) ∧
    m.setEnables sp = (m.onEval sp fun e => { e with words := { e.words with outs := outs } }).onGate (·.granted sp gates) := by
  refine ⟨_, if m.bit Reg.SAFE_STATUS 26 && !(m.eval sp).lost then slotMask m.hasSlot else 0, fun h => ?_, rfl⟩
  rw [h, Bool.not_true, Bool.and_false, if_neg Bool.false_ne_true]

theorem Mach.FocTells.setEnables {m₀ m : Mach} {regs : List Nat} {es : List Event} (h : m₀.FocTells regs es m) (sp : Bool) :
    m₀.FocTells regs es (m.setEnables sp) := by
  obtain ⟨outs, gates, -, heq⟩ := m.setEnables_eq sp
  rw [heq]
  exact (h.onEval sp _).onGate _

/-- An evaluator that has lost the exchange withdraws its enables. -/
theorem Mach.setEnables_of_lost (h : (m.eval sp).lost = true) : (m.setEnables sp).gate.enabled = 0 ∧
    (if sp then (m.setEnables sp).gate.enS else (m.setEnables sp).gate.enB) = 0 ∧ ((m.setEnables sp).eval sp).lost = true := by
  obtain ⟨outs, gates, hgates, heq⟩ := m.setEnables_eq sp
  have heval : ((m.setEnables sp).eval sp).lost = (m.eval sp).lost := by
    rw [heq]
    have hlost := congrArg Evaluator.lost (m.eval_onEval sp fun e => { e with words := { e.words with outs := outs } })
    exact hlost
  refine ⟨?_, ?_, heval.trans h⟩ <;> rw [heq, hgates h] <;> cases sp <;> simp [Mach.onGate, GateState.granted]

/-- An evaluator that has found its exchange lost. -/
def Mach.exchangeMissed (m : Mach) (sp : Bool) : Mach :=
  (m.onEval sp fun e => { e with lost := true }).setBit Reg.SAFE_STATUS (if sp then 31 else 30) false

/-- An evaluator once its exchange is lost, before the loss is told. -/
def Mach.exchangeGone (m : Mach) (sp : Bool) : Mach := ((m.exchangeMissed sp).setEnables sp).setFld Reg.SAFE_OUTS 6 0 0

/-- The registers that the loss of the exchange writes. -/
abbrev exchangeRegs : List Nat := [Reg.SAFE_OUTS, Reg.SAFE_STATUS, Reg.PWR_STATUS]

theorem Mach.exchangeGone_tells : m.FocTells exchangeRegs [] (m.exchangeGone sp) := by
  have hmissed : m.FocTells exchangeRegs [] (m.exchangeMissed sp) :=
    ((Mach.FocTells.refl m exchangeRegs).onEval sp fun e => { e with lost := true }).wr (by decide) (by decide) _
  exact (hmissed.setEnables sp).wr (by decide) (by decide) _

theorem Mach.exchangeGone_sys : (m.exchangeGone sp).sys = m.sys := by
  obtain ⟨outs, gates, -, heq⟩ := (m.exchangeMissed sp).setEnables_eq sp
  rw [Mach.exchangeGone, heq]
  rfl

theorem Mach.exchangeGone_spec : (m.exchangeGone sp).gate.enabled = 0 ∧
    (if sp then (m.exchangeGone sp).gate.enS else (m.exchangeGone sp).gate.enB) = 0 ∧ ((m.exchangeGone sp).eval sp).lost = true ∧
    (m.exchangeGone sp).fld Reg.SAFE_OUTS 6 0 = 0 ∧ (m.exchangeGone sp).bit Reg.SAFE_STATUS (if sp then 31 else 30) = false := by
  have hgone : ((m.exchangeMissed sp).eval sp).lost = true :=
    congrArg Evaluator.lost (m.eval_onEval sp fun e => { e with lost := true })
  obtain ⟨hen, hmine, hlost⟩ := (m.exchangeMissed sp).setEnables_of_lost sp hgone
  refine ⟨hen, hmine, hlost, Mach.fld_setFld _ _ (by decide) (by decide), ?_⟩
  have hrd := ((Mach.FocTells.refl (m.exchangeMissed sp) []).setEnables sp).rd Reg.SAFE_STATUS List.not_mem_nil
  have hbit : (m.exchangeGone sp).bit Reg.SAFE_STATUS (if sp then 31 else 30) =
      (m.exchangeMissed sp).bit Reg.SAFE_STATUS (if sp then 31 else 30) := by
    rw [Mach.exchangeGone, Mach.bit_setFld_other _ _ (by decide) (by decide) (.inl (by decide)), Mach.bit, hrd, Mach.bit]
  rw [hbit, Mach.exchangeMissed, Mach.bit_setBit _ _ (by cases sp <;> decide)]

/-- The exchange is lost in its evaluator: none for two cycles (R400). -/
theorem Mach.exchangeLoss_eq {t0 : Nat} (hrun : m.tick.running = true) (hlost : (m.eval sp).lost = false)
    (hlast : (m.eval (!sp)).lastAt = some t0) (hlate : t0 + 2 * m.scyc ≤ m.now) :
    m.exchangeLoss sp = if sp then ((m.exchangeGone sp).accede ⟨1, 0, 3, physical Reg.SYS_MODE_REQ % 2 ^ 32, 5, []⟩).raiseF4 0x4005 0xFF [] 3
      else (m.exchangeGone sp).raiseF4 0x4005 := by
  have hno : ¬(!m.tick.running || (m.eval sp).lost || !((m.eval (!sp)).lastAt.any fun t => decide (t + 2 * m.scyc ≤ m.now))) = true := by
    simp [hrun, hlost, hlast, hlate]
  rw [Mach.exchangeLoss]
  exact if_neg hno

theorem Mach.exchangeLoss_idle (h : m.tick.running = false ∨ (m.eval sp).lost = true ∨
    ∀ t0, (m.eval (!sp)).lastAt = some t0 → m.now < t0 + 2 * m.scyc) : m.exchangeLoss sp = m := by
  refine if_pos ?_
  rcases h with h | h | h
  · simp [h]
  · simp [h]
  · cases hl : (m.eval (!sp)).lastAt with
    | none => simp
    | some t0 => simp [h t0 hl]
end

section
variable (cyc : Nat) (s : State)

/-- R400: what the loss comes to on a running tick, in either evaluator. -/
theorem exec_exchangeLoss_bed {t0 : Nat} (hrun : s.m.tick.running = true) (hlost : s.m.safe.bed.lost = false)
    (hlast : s.m.safe.sp.lastAt = some t0) (hlate : t0 + 2 * s.m.scyc ≤ (s.at cyc).now) :
    ∃ t, exec (.exchangeLoss cyc false) s = .next t ∧ t.m.safe.bed.lost = true ∧ t.m.gate.enB = 0 ∧ t.m.gate.enabled = 0 ∧
      t.m.fld Reg.SAFE_OUTS 6 0 = 0 ∧ t.m.bit Reg.SAFE_STATUS 30 = false ∧ t.m.sys.f4 = some (s.m.sys.f4.getD 0x4005) ∧
      Raises s t [eventAt (s.at cyc) 0x4005 4 0xFF [] 0] ∧ SameRegsBut s t exchangeRegs ∧ SameMemory s t := by
  obtain ⟨hen, henB, hgone, houts, hbit⟩ := (s.at cyc).exchangeGone_spec false
  rw [Mach.eval_bed] at hgone
  simp only [Bool.false_eq_true, if_false] at henB hbit
  obtain ⟨t, ht, hm, hregs, hmem, hev⟩ := run_makes (f := fun m => m.exchangeLoss false)
    (((s.at cyc).exchangeLoss_eq false hrun hlost hlast hlate).trans (if_neg Bool.false_ne_true))
    (((s.at cyc).exchangeGone_tells false).raiseF4 (by decide) 0x4005 [] 0)
  have hrd : ∀ b, b ≠ Reg.PWR_STATUS → t.m.rd b = ((s.at cyc).exchangeGone false).rd b := fun b hb => by
    rw [hm, Mach.settle_rd, Mach.raiseF4_rd_other _ hb]
  refine ⟨t, ht, ?_, ?_, ?_, ?_, ?_, ?_, hev, hregs, hmem⟩
  · rw [hm, Mach.settle_safe, Mach.raiseF4_safe]
    exact hgone
  · rw [hm, Mach.settle_gate, Mach.raiseF4_gate]
    exact henB
  · rw [hm, Mach.settle_gate, Mach.raiseF4_gate]
    exact hen
  · rw [Mach.fld, hrd _ (by decide)]
    exact houts
  · rw [Mach.bit, hrd _ (by decide)]
    exact hbit
  · rw [hm, Mach.settle_sys, Mach.raiseF4_f4]
    exact congrArg (fun x : SysState => some (x.f4.getD 0x4005)) ((s.at cyc).exchangeGone_sys false)

/-- R400: the safety processor also asks for SAFE_HOLD. -/
theorem exec_exchangeLoss_sp {t0 : Nat} (hrun : s.m.tick.running = true) (hlost : s.m.safe.sp.lost = false)
    (hlast : s.m.safe.bed.lastAt = some t0) (hlate : t0 + 2 * s.m.scyc ≤ (s.at cyc).now) (hroom : s.roomy) :
    ∃ t, exec (.exchangeLoss cyc true) s = .next t ∧ t.m.safe.sp.lost = true ∧ t.m.gate.enS = 0 ∧ t.m.gate.enabled = 0 ∧
      t.m.fld Reg.SAFE_OUTS 6 0 = 0 ∧ t.m.bit Reg.SAFE_STATUS 31 = false ∧ t.m.sys.f4 = some (s.m.sys.f4.getD 0x4005) ∧
      Enters s t cyc ⟨1, 0, 3, physical Reg.SYS_MODE_REQ % 2 ^ 32, 5, []⟩ ∧
      Raises s t [eventAt (s.at cyc) 0x4005 4 0xFF [] 3] ∧ SameRegsBut s t exchangeRegs ∧ SameMemory s t := by
  obtain ⟨hen, henS, hgone, houts, hbit⟩ := (s.at cyc).exchangeGone_spec true
  rw [Mach.eval_sp] at hgone
  simp only [if_true] at henS hbit
  have htells := (s.at cyc).exchangeGone_tells true
  have hlane : ((s.at cyc).exchangeGone true).lane.waiting = [] := hroom
  have hasked := Mach.accede_roomy _ (i := ⟨1, 0, 3, physical Reg.SYS_MODE_REQ % 2 ^ 32, 5, []⟩) hlane (by decide)
  have heq := ((s.at cyc).exchangeLoss_eq true hrun hlost hlast hlate).trans (if_pos rfl)
  rw [hasked, htells.entryOf_eq] at heq
  obtain ⟨t, ht, hm, hregs, hmem, hev⟩ := run_makes (f := fun m => m.exchangeLoss true) heq
    ((htells.wait _).raiseF4 (by decide) 0x4005 [] 3)
  have hrd : ∀ b, b ≠ Reg.PWR_STATUS → t.m.rd b = ((s.at cyc).exchangeGone true).rd b := fun b hb => by
    rw [hm, Mach.settle_rd, Mach.raiseF4_rd_other _ hb, Mach.wait_rd]
  refine ⟨t, ht, ?_, ?_, ?_, ?_, ?_, ?_, ?_, hev, hregs, hmem⟩
  · rw [hm, Mach.settle_safe, Mach.raiseF4_safe]
    exact hgone
  · rw [hm, Mach.settle_gate, Mach.raiseF4_gate]
    exact henS
  · rw [hm, Mach.settle_gate, Mach.raiseF4_gate]
    exact hen
  · rw [Mach.fld, hrd _ (by decide)]
    exact houts
  · rw [Mach.bit, hrd _ (by decide)]
    exact hbit
  · rw [hm, Mach.settle_sys, Mach.raiseF4_f4]
    exact congrArg (fun x : SysState => some (x.f4.getD 0x4005)) ((s.at cyc).exchangeGone_sys true)
  · rw [Enters, hm, Mach.settle_lane, Mach.raiseF4_lane, Mach.wait_lane, hlane, insertEntry_nil]

theorem exec_exchangeLoss_idle (sp : Bool) (h : s.m.tick.running = false ∨ (s.m.eval sp).lost = true ∨
    ∀ t0, (s.m.eval (!sp)).lastAt = some t0 → (s.at cyc).now < t0 + 2 * s.m.scyc) :
    ∃ t, exec (.exchangeLoss cyc sp) s = .next t ∧ t.m.safe = s.m.safe ∧ t.m.gate = s.m.gate ∧ Quiet s t [] := by
  obtain ⟨t, ht, hm, hquiet⟩ := run_makes (f := fun m => m.exchangeLoss sp) ((s.at cyc).exchangeLoss_idle sp h)
    (Mach.FocTells.refl (s.at cyc) [])
  exact ⟨t, ht, by rw [hm]; rfl, by rw [hm]; rfl, hquiet⟩
end

/-! ### Faults of inputs and outputs (R402, R415) -/

section
variable (m : Mach) (sp : Bool) (i kind : Nat)

/-- An input of one evaluator in fault, told by nobody. -/
def Mach.inputGone (m : Mach) (sp : Bool) (i : Nat) : Mach := m.onEval sp fun e => { e with inputs := upd e.inputs i SafeInput.faulted }

theorem Mach.inputFault_eq : m.inputFault sp i kind =
    if (nth (m.eval (!sp)).inputs i).fault then m.inputGone sp i else ((m.inputGone sp i).raise 0x4003 1 0xFF [kind]).safeIrq 1 := rfl

theorem Mach.inputGone_eval :
    (m.inputGone sp i).eval sp = { m.eval sp with inputs := upd (m.eval sp).inputs i SafeInput.faulted } := m.eval_onEval sp _

theorem Mach.inputGone_tells (regs : List Nat) : m.FocTells regs [] (m.inputGone sp i) := (Mach.FocTells.refl m regs).onEval sp _

theorem Mach.bit_safeIrq {j : Nat} (hj : j < 32) : (m.safeIrq j).bit Reg.SAFE_IRQ_STAT j = true := Mach.bit_orr m hj

/-- The evaluator once it has tested output `o` (R415). -/
def Mach.outputTested (m : Mach) (sp : Bool) (o : Nat) : Mach := m.onEval sp fun e => { e with tests := e.tests ||| 2 ^ o }

theorem Mach.outputTest_eq (o : Nat) (ok : Bool) : m.outputTest sp o ok =
    if ok || (m.outputTested sp o).bit Reg.SAFE_OUTS (20 + o) then m.outputTested sp o
    else ((((m.outputTested sp o).setBit Reg.SAFE_OUTS (20 + o) true).setBit Reg.SAFE_OUTS o false).raise 0x4008 1).safeIrq 3 := rfl
end

section
variable (cyc : Nat) (sp : Bool) (s : State)

theorem exec_inputDiscrepancy {t0 : Nat} (i : Fin 16) {x : SafeInput} (hx : (s.m.eval sp).inputs[i.val]? = some x)
    (hodd : x.odd = some t0) (hfault : x.fault = false) (hlate : t0 + oneMilli * s.m.fld (Reg.SAFE_IN_CFG i) 11 0 < (s.at cyc).now) :
    ∃ t, exec (.inputDiscrepancy cyc sp i) s = .next t ∧
      t.m.eval sp = { s.m.eval sp with inputs := upd (s.m.eval sp).inputs i SafeInput.faulted } ∧
      ((nth (s.m.eval (!sp)).inputs i).fault = false → Raises s t [eventAt (s.at cyc) 0x4003 1 0xFF [1] 0] ∧
        t.m.bit Reg.SAFE_IRQ_STAT 1 = true ∧ SameRegsBut s t [Reg.SAFE_IRQ_STAT] ∧ SameMemory s t) ∧
      ((nth (s.m.eval (!sp)).inputs i).fault = true → Quiet s t []) := by
  have hnth : nth ((s.at cyc).eval sp).inputs i = x := by
    rw [nth, List.getD_eq_getElem?_getD]
    exact congrArg (·.getD default) hx
  have hdue : ((nth ((s.at cyc).eval sp).inputs i).odd.any (fun t => decide (t + oneMilli * (s.at cyc).fld (Reg.SAFE_IN_CFG i) 11 0 < (s.at cyc).now)) &&
      !(nth ((s.at cyc).eval sp).inputs i).fault) = true := by
    have hlate' : t0 + oneMilli * (s.at cyc).fld (Reg.SAFE_IN_CFG i) 11 0 < (s.at cyc).now := hlate
    simp [hnth, hodd, hfault, hlate']
  have heq : (if _ then _ else s.at cyc) = _ := (if_pos hdue).trans ((s.at cyc).inputFault_eq sp i 1)
  have hgone := (s.at cyc).inputGone_eval sp i
  cases hother : (nth (s.m.eval (!sp)).inputs i).fault
  · obtain ⟨t, ht, hm, hregs, hmem, hev⟩ := run_makes (cyc := cyc) (s := s) (heq.trans (if_neg (ne_true_of_eq_false hother)))
      ((((s.at cyc).inputGone_tells sp i [Reg.SAFE_IRQ_STAT]).raise 0x4003 1 0xFF [1] 0).safeIrq (by decide) 1)
    refine ⟨t, ht, ?_, fun _ => ⟨hev, ?_, hregs, hmem⟩, fun h => absurd h Bool.false_ne_true⟩
    · rw [hm]
      exact hgone
    · rw [hm, Mach.settle_bit, Mach.bit_safeIrq _ (by decide)]
  · obtain ⟨t, ht, hm, hquiet⟩ := run_makes (cyc := cyc) (s := s) (heq.trans (if_pos hother)) ((s.at cyc).inputGone_tells sp i [])
    refine ⟨t, ht, ?_, fun h => absurd h.symm Bool.false_ne_true, fun _ => hquiet⟩
    rw [hm]
    exact hgone

theorem exec_inputDiscrepancy_idle (i : Fin 16) (h : (nth (s.m.eval sp).inputs i).fault = true ∨
    ∀ t0, (nth (s.m.eval sp).inputs i).odd = some t0 → (s.at cyc).now ≤ t0 + oneMilli * s.m.fld (Reg.SAFE_IN_CFG i) 11 0) :
    ∃ t, exec (.inputDiscrepancy cyc sp i) s = .next t ∧ t.m.safe = s.m.safe ∧ Quiet s t [] := by
  have hno : ¬((nth ((s.at cyc).eval sp).inputs i).odd.any (fun t => decide (t + oneMilli * (s.at cyc).fld (Reg.SAFE_IN_CFG i) 11 0 < (s.at cyc).now)) &&
      !(nth ((s.at cyc).eval sp).inputs i).fault) = true := by
    change ¬((nth (s.m.eval sp).inputs i).odd.any (fun t => decide (t + oneMilli * s.m.fld (Reg.SAFE_IN_CFG i) 11 0 < (s.at cyc).now)) &&
      !(nth (s.m.eval sp).inputs i).fault) = true
    rcases h with h | h
    · simp [h]
    · cases hodd : (nth (s.m.eval sp).inputs i).odd with
      | none => simp
      | some t0 => simp [Nat.not_lt.2 (h t0 hodd)]
  obtain ⟨t, ht, hm, hquiet⟩ := run_makes (cyc := cyc) (s := s) (if_neg hno) (Mach.FocTells.refl (s.at cyc) [])
  exact ⟨t, ht, by rw [hm]; rfl, hquiet⟩

theorem exec_safeOutputTest_held (o : Fin 4) (ok : Bool) (h : (ok || s.m.bit Reg.SAFE_OUTS (20 + o.val)) = true) :
    ∃ t, exec (.safeOutputTest cyc sp o ok) s = .next t ∧
      t.m.eval sp = { s.m.eval sp with tests := (s.m.eval sp).tests ||| 2 ^ o.val } ∧ Quiet s t [] := by
  obtain ⟨t, ht, hm, hquiet⟩ := run_makes (f := fun m => m.outputTest sp o ok) (((s.at cyc).outputTest_eq sp o ok).trans (if_pos h))
    ((Mach.FocTells.refl (s.at cyc) []).onEval sp _)
  refine ⟨t, ht, ?_, hquiet⟩
  rw [hm]
  have htested := (s.at cyc).eval_onEval sp fun e => { e with tests := e.tests ||| 2 ^ o.val }
  exact htested

theorem exec_safeOutputTest_fails (o : Fin 4) (h : s.m.bit Reg.SAFE_OUTS (20 + o.val) = false) :
    ∃ t, exec (.safeOutputTest cyc sp o false) s = .next t ∧ t.m.bit Reg.SAFE_OUTS (20 + o.val) = true ∧
      t.m.bit Reg.SAFE_OUTS o = false ∧ t.m.bit Reg.SAFE_IRQ_STAT 3 = true ∧
      Raises s t [eventAt (s.at cyc) 0x4008 1 0xFF [] 0] ∧ SameRegsBut s t [Reg.SAFE_OUTS, Reg.SAFE_IRQ_STAT] ∧ SameMemory s t := by
  have ho : o.val < 4 := o.isLt
  have hno : ¬(false || ((s.at cyc).outputTested sp o).bit Reg.SAFE_OUTS (20 + o)) = true := by
    rw [Bool.false_or]
    exact ne_true_of_eq_false h
  obtain ⟨t, ht, hm, hregs, hmem, hev⟩ := run_makes (f := fun m => m.outputTest sp o false)
    (((s.at cyc).outputTest_eq sp o false).trans (if_neg hno))
    ((((((Mach.FocTells.refl (s.at cyc) [Reg.SAFE_OUTS, Reg.SAFE_IRQ_STAT]).onEval sp _).wr (by decide) (by decide) _).wr
      (by decide) (by decide) _).raise 0x4008 1 0xFF [] 0).safeIrq (by decide) 3)
  refine ⟨t, ht, ?_, ?_, ?_, hev, hregs, hmem⟩
  · rw [hm, Mach.settle_bit, Mach.safeIrq, Mach.bit, Mach.rd_orr, if_neg (by decide), Mach.raise_rd]
    exact (Mach.bit_setBit_other _ _ (by omega) (.inr (by omega))).trans (Mach.bit_setBit _ _ (by omega))
  · rw [hm, Mach.settle_bit, Mach.safeIrq, Mach.bit, Mach.rd_orr, if_neg (by decide), Mach.raise_rd]
    exact Mach.bit_setBit _ _ (by omega)
  · rw [hm, Mach.settle_bit, Mach.bit_safeIrq _ (by decide)]
end

/-! ### The end of a stop delay (R411, R412) -/

section
variable (m : Mach)

omit m in
/-- An event told behind what stood on record has been told. -/
theorem tells_behind {s t : State} {e : Event} {es : List Event} {code cls slot : Nat}
    (he : e.code = code ∧ e.cls = cls ∧ e.slot = slot) (hs : s.m.time.raised <+: es) (h : es ++ [e] <+: t.m.time.raised) :
    Tells s t code cls slot := by
  obtain ⟨before, rfl⟩ := hs
  obtain ⟨later, hlater⟩ := h
  refine ⟨e, ?_, he⟩
  rw [← hlater, List.append_assoc, List.append_assoc, List.drop_left]
  simp

/-- What an F3 event tells stands behind what was told before. -/
theorem Mach.raiseF3_raised_prefix (code slot : Nat) (d : List Nat) (o : Nat) :
    m.time.raised ++ [eventAt m code 3 slot d o] <+: (m.raiseF3 code slot d o).time.raised := by
  rcases m.raiseF3_cases code slot d o with h | h <;> rw [h]
  · exact List.prefix_rfl
  · exact (Mach.LoadKept.accede (m.raise code 3 slot d o) _).raised

theorem Mach.safetyView_settle : m.settle.safetyView = m.safetyView := Mach.safetyView_eq rfl rfl fun a _ => m.settle_rd a

theorem Mach.stopTold_eval (code slot : Nat) (d : List Nat) (o j : Nat) (sp : Bool) :
    ((m.raiseF3 code slot d o).safeIrq j).eval sp = m.eval sp :=
  Mach.eval_of_view ((Mach.safetyView_safeIrq _ j).trans (m.safetyView_raiseF3 code slot d o))

/-- Standstill is not decided by the frame in execution (R412). -/
theorem Mach.still_execFrame (k j : Nat) (f : Frame) : (m.execFrame j f).still k = m.still k := by
  have hlast : (m.execFrame j f).lastAccepted k = m.lastAccepted k := by
    have hslot : nth (m.execFrame j f).lane.slots k = { nth m.lane.slots k with exec := (nth (m.execFrame j f).lane.slots k).exec } := by
      have hupd : nth (m.execFrame j f).lane.slots k = _ := nth_upd m.lane.slots j k _
      rw [hupd]
      split
      case isTrue h => rw [h.1]
      case isFalse => rfl
    rw [Mach.lastAccepted, hslot]
    rfl
  have hbed : (m.execFrame j f).stillBed k = m.stillBed k := by
    unfold Mach.stillBed
    rw [hlast]
    rfl
  exact congrArg (· && m.stillSp k) hbed

variable (sp : Bool) (k : Nat)

/-- An evaluator without the timer of a slot. -/
def Mach.ss1Cleared (m : Mach) (sp : Bool) (k : Nat) : Mach := m.onEval sp fun e => { e with ss1 := upd e.ss1 k fun _ => none }

/-- An evaluator with another STO word. -/
def Mach.stoWord (m : Mach) (sp : Bool) (sto : Nat) : Mach := m.onEval sp fun e => { e with words := { e.words with sto := sto } }

/-- The evaluator whose stop delay of a slot is over: its timer is gone and the slot is in the STO word. -/
def Mach.ss1Over (m : Mach) (sp : Bool) (k : Nat) : Mach := (m.ss1Cleared sp k).stoWord sp ((m.eval sp).words.sto ||| 2 ^ k)

/-- A slot takes its safe-state command. -/
def Mach.loadSafe (k : Nat) (m : Mach) : Mach := m.gateLoad k (m.safeFrame k m.seq (m.lastEmfhi k))

theorem Mach.stoSwitches_eq (sto : Nat) : ∃ g, m.stoSwitches sto = m.onGate g := by
  unfold Mach.stoSwitches
  exact ⟨_, rfl⟩

theorem Mach.FocTells.stoWord {m m₀ : Mach} {regs : List Nat} {es : List Event} (h : m₀.FocTells regs es m) (sp : Bool) (sto : Nat) :
    m₀.FocTells regs es (m.stoWord sp sto) := h.onEval sp _

theorem Mach.setSto_eq (sto : Nat) : m.setSto sp sto =
    if sp then (m.stoWord sp sto).stoSwitches sto
    else if !m.tick.running then m.stoWord sp sto
    else forL (m.mapped.filter fun k => sto.testBit k && !(m.eval sp).words.sto.testBit k) Mach.loadSafe (m.stoWord sp sto) := rfl

theorem Mach.ss1Over_eval : nth ((m.ss1Over sp k).eval sp).ss1 k = none ∧
    ((m.ss1Over sp k).eval sp).words.sto = (m.eval sp).words.sto ||| 2 ^ k := by
  have hss1 : ((m.ss1Over sp k).eval sp).ss1 = upd (m.eval sp).ss1 k fun _ => none := by
    rw [Mach.ss1Over, Mach.stoWord, Mach.eval_onEval, Mach.ss1Cleared, Mach.eval_onEval]
  refine ⟨?_, ?_⟩
  case refine_2 => rw [Mach.ss1Over, Mach.stoWord, Mach.eval_onEval]
  rw [hss1, nth_upd]
  split
  case isTrue => rfl
  case isFalse hk =>
    have hlen : (m.eval sp).ss1.length ≤ k := Nat.not_lt.1 fun h => hk ⟨rfl, h⟩
    rw [nth, List.getD_eq_default _ _ hlen]
    rfl

theorem Mach.ss1Over_tells (regs : List Nat) : m.FocTells regs [] (m.ss1Over sp k) := by
  have hcleared : m.FocTells regs [] (m.ss1Cleared sp k) := (Mach.FocTells.refl m regs).onEval sp _
  exact hcleared.stoWord sp _

/-- The slots that come under Bedrock's STO with slot `k`. -/
theorem Mach.newStops_eq (hk : k < 16) (old : Nat) :
    (m.mapped.filter fun j => (old ||| 2 ^ k).testBit j && !old.testBit j) = if m.hasSlot k && !old.testBit k then [k] else [] := by
  have hone : (List.range 16).filter (· == k) = [k] := (by decide : ∀ k < 16, (List.range 16).filter (· == k) = [k]) k hk
  have hnew : ∀ j, (m.hasSlot j && ((old ||| 2 ^ k).testBit j && !old.testBit j)) = ((m.hasSlot k && !old.testBit k) && j == k) := by
    intro j
    rw [Nat.testBit_or, Nat.testBit_two_pow]
    by_cases hj : k = j
    · subst hj
      cases old.testBit k <;> simp
    · have hj' : (j == k) = false := beq_eq_false_iff_ne.2 (Ne.symm hj)
      cases old.testBit j <;> simp [hj, hj']
  rw [Mach.mapped, List.filter_filter]
  simp only [Bool.and_comm _ (m.hasSlot _), hnew]
  cases m.hasSlot k && !old.testBit k
  · simp
  · simpa using hone

theorem Mach.setSto_ss1Cleared (hk : k < 16) : (m.ss1Cleared sp k).setSto sp ((m.eval sp).words.sto ||| 2 ^ k) =
    if sp then (m.ss1Over sp k).stoSwitches ((m.eval sp).words.sto ||| 2 ^ k)
    else if !m.tick.running then m.ss1Over sp k
    else forL (if m.hasSlot k && !(m.eval sp).words.sto.testBit k then [k] else []) Mach.loadSafe (m.ss1Over sp k) := by
  have hold : ((m.ss1Cleared sp k).eval sp).words.sto = (m.eval sp).words.sto := by rw [Mach.ss1Cleared, Mach.eval_onEval]
  have hnew := m.newStops_eq k hk (m.eval sp).words.sto
  rw [Mach.setSto_eq, hold, ← hnew]
  rfl

/-- The end of a stop delay loads no frame where the slot is not Bedrock's to load. -/
theorem Mach.setSto_silent (hk : k < 16)
    (h : sp = true ∨ m.tick.running = false ∨ m.hasSlot k = false ∨ (m.eval sp).words.sto.testBit k = true) :
    ∃ g, (m.ss1Cleared sp k).setSto sp ((m.eval sp).words.sto ||| 2 ^ k) = (m.ss1Over sp k).onGate g := by
  rw [m.setSto_ss1Cleared sp k hk]
  cases sp with
  | true =>
    rw [if_pos rfl]
    exact (m.ss1Over true k).stoSwitches_eq _
  | false =>
    refine ⟨id, ?_⟩
    rw [if_neg Bool.false_ne_true]
    rcases h with h | h | h
    · cases h
    · rw [h, Bool.not_false, if_pos rfl]
      rfl
    · have hno : (m.hasSlot k && !(m.eval false).words.sto.testBit k) = false := by
        rcases h with h | h <;> simp [h]
      rw [hno, if_neg Bool.false_ne_true]
      exact ite_self _

/-- A slot that comes under Bedrock's STO takes its safe-state command. -/
theorem Mach.setSto_loads (hk : k < 16) (hrun : m.tick.running = true) (hslot : m.hasSlot k = true)
    (hnew : (m.eval false).words.sto.testBit k = false) :
    (m.ss1Cleared false k).setSto false ((m.eval false).words.sto ||| 2 ^ k) = Mach.loadSafe k (m.ss1Over false k) := by
  rw [m.setSto_ss1Cleared false k hk, if_neg Bool.false_ne_true, hrun, hslot, hnew]
  rfl

/-- An evaluator once a stop delay has ended, told where the slot is not at standstill (R412). -/
theorem Mach.ss1Expire_eq {t0 : Nat} (h : nth (m.eval sp).ss1 k = some t0) (hdue : t0 ≤ m.now) {m' : Mach}
    (hm' : (m.ss1Cleared sp k).setSto sp ((m.eval sp).words.sto ||| 2 ^ k) = m') :
    m.ss1Expire sp k = if sp || m'.still k then m' else (m'.raiseF3 0x4007 k).safeIrq 2 := by
  have hold : ((m.ss1Cleared sp k).eval sp).words.sto = (m.eval sp).words.sto := by rw [Mach.ss1Cleared, Mach.eval_onEval]
  subst hm'
  rw [← hold, Mach.ss1Expire, h]
  exact if_neg (Nat.not_lt.2 hdue)

theorem Mach.ss1Expire_idle (h : ∀ t0, nth (m.eval sp).ss1 k = some t0 → m.now < t0) : m.ss1Expire sp k = m := by
  unfold Mach.ss1Expire
  split
  case h_1 => rfl
  case h_2 t ht => exact if_pos (h t ht)
end

section
variable (cyc : Nat) (sp : Bool) (k : Fin 16) (s : State)

theorem exec_ss1Expiry_idle (h : ∀ t0, nth (s.m.eval sp).ss1 k = some t0 → (s.at cyc).now < t0) :
    ∃ t, exec (.ss1Expiry cyc sp k) s = .next t ∧ t.m.safe = s.m.safe ∧ t.m.gate = s.m.gate ∧ Quiet s t [] := by
  obtain ⟨t, ht, hm, hquiet⟩ := run_makes (f := fun m => m.ss1Expire sp k) ((s.at cyc).ss1Expire_idle sp k h)
    (Mach.FocTells.refl (s.at cyc) [])
  exact ⟨t, ht, by rw [hm]; rfl, by rw [hm]; rfl, hquiet⟩

variable {t0 : Nat} (h : nth (s.m.eval sp).ss1 k = some t0) (hdue : t0 ≤ (s.at cyc).now)
include h hdue

/-- R412: a slot at standstill, or one of the safety processor, ends its delay without a word. -/
theorem exec_ss1Expiry_still (hcase : sp = true ∨
    (s.m.tick.running = false ∨ s.m.hasSlot k = false ∨ (s.m.eval sp).words.sto.testBit k = true) ∧ (s.at cyc).still k = true) :
    ∃ t, exec (.ss1Expiry cyc sp k) s = .next t ∧ nth (t.m.eval sp).ss1 k = none ∧
      (t.m.eval sp).words.sto = (s.m.eval sp).words.sto ||| 2 ^ k.val ∧ Quiet s t [] := by
  obtain ⟨g, hset⟩ := (s.at cyc).setSto_silent sp k k.isLt (hcase.imp_right (·.1))
  obtain ⟨hnone, hsto⟩ := (s.at cyc).ss1Over_eval sp k
  have hquietly : (sp || (((s.at cyc).ss1Over sp k).onGate g).still k) = true := by
    rcases hcase with h | ⟨-, h⟩
    · rw [h, Bool.true_or]
    · exact Bool.or_eq_true_iff.2 (.inr h)
  obtain ⟨t, ht, hm, hquiet⟩ := run_makes (f := fun m => m.ss1Expire sp k)
    (((s.at cyc).ss1Expire_eq sp k h hdue hset).trans (if_pos hquietly)) (((s.at cyc).ss1Over_tells sp k []).onGate g)
  refine ⟨t, ht, ?_, ?_, hquiet⟩
  · rw [hm]
    exact hnone
  · rw [hm]
    exact hsto
end

section
variable (cyc : Nat) (k : Fin 16) (s : State) {t0 : Nat} (h : nth (s.m.eval false).ss1 k = some t0) (hdue : t0 ≤ (s.at cyc).now)
include h hdue

/-- R412: a slot that Bedrock does not load, and that is not at standstill, is told. -/
theorem exec_ss1Expiry_moving
    (hcase : s.m.tick.running = false ∨ s.m.hasSlot k = false ∨ (s.m.eval false).words.sto.testBit k = true)
    (hmoves : (s.at cyc).still k = false) (hroom : s.roomy) :
    ∃ t, exec (.ss1Expiry cyc false k) s = .next t ∧ nth (t.m.eval false).ss1 k = none ∧
      (t.m.eval false).words.sto = (s.m.eval false).words.sto ||| 2 ^ k.val ∧ SlotFault s t cyc 0x4007 k [] ∧
      t.m.bit Reg.SAFE_IRQ_STAT 2 = true ∧ SameRegsBut s t [Reg.SAFE_IRQ_STAT] ∧ SameMemory s t := by
  obtain ⟨g, hset⟩ := (s.at cyc).setSto_silent false k k.isLt (.inr hcase)
  obtain ⟨hnone, hsto⟩ := (s.at cyc).ss1Over_eval false k
  have htells := ((s.at cyc).ss1Over_tells false k [Reg.SAFE_IRQ_STAT]).onGate g
  have hwait : (((s.at cyc).ss1Over false k).onGate g).lane.waiting = [] := hroom
  have hfew := Mach.FewWait.of_nil hwait 0
  have hmove : ¬(false || (((s.at cyc).ss1Over false k).onGate g).still k) = true := by
    rw [Bool.false_or]
    exact ne_true_of_eq_false hmoves
  obtain ⟨t, ht, hm, hregs, hmem, hev⟩ := run_makes (f := fun m => m.ss1Expire false k)
    (((s.at cyc).ss1Expire_eq false k h hdue hset).trans (if_neg hmove))
    ((Mach.FocTells.raiseF3 hfew (by decide) 0x4007 k [] htells).safeIrq (by decide) 2)
  have heval : t.m.eval false = ((s.at cyc).ss1Over false k).eval false := by
    rw [hm, Mach.eval_of_view (Mach.safetyView_settle _), Mach.stopTold_eval]
    rfl
  refine ⟨t, ht, by rw [heval, hnone], by rw [heval, hsto]; rfl, ⟨hev, ?_⟩, ?_, hregs, hmem⟩
  · rw [Enters, hm, Mach.settle_lane, Mach.safeIrq, Mach.orr_lane, htells.raiseF3_waiting hwait]
  · rw [hm, Mach.settle_bit, Mach.bit_safeIrq _ (by decide)]

/-- R411, R412: a slot that Bedrock loads takes its safe-state command, and is told where it is not at standstill. -/
theorem exec_ss1Expiry_loads (hrun : s.m.tick.running = true) (hslot : s.m.hasSlot k = true)
    (hnew : (s.m.eval false).words.sto.testBit k = false) :
    ∃ t, exec (.ss1Expiry cyc false k) s = .next t ∧ nth (t.m.eval false).ss1 k = none ∧
      (t.m.eval false).words.sto = (s.m.eval false).words.sto ||| 2 ^ k.val ∧
      (k < s.m.lane.slots.length → (t.m.sv k).exec = some ((s.at cyc).safeFrame k s.m.seq (s.m.lastEmfhi k))) ∧
      ((s.at cyc).still k = false → Tells s t 0x4007 3 k ∧ t.m.bit Reg.SAFE_IRQ_STAT 2 = true) ∧ SameMemory s t := by
  obtain ⟨hnone, hsto⟩ := (s.at cyc).ss1Over_eval false k
  have hload : (((s.at cyc).ss1Over false k).execFrame k ((s.at cyc).safeFrame k s.m.seq (s.m.lastEmfhi k))).LoadKept
    (Mach.loadSafe k ((s.at cyc).ss1Over false k)) := .gateLoad _ _ _
  have hview : (Mach.loadSafe k ((s.at cyc).ss1Over false k)).safetyView = ((s.at cyc).ss1Over false k).safetyView :=
    Mach.safetyView_gateLoad _ _ _
  have heq := (s.at cyc).ss1Expire_eq false k h hdue ((s.at cyc).setSto_loads k k.isLt hrun hslot hnew)
  have hstill : (Mach.loadSafe k ((s.at cyc).ss1Over false k)).still k = (s.at cyc).still k :=
    (hload.still k.isLt).trans (Mach.still_execFrame _ k k _)
  have hexec : k < s.m.lane.slots.length → ((Mach.loadSafe k ((s.at cyc).ss1Over false k)).sv k).exec =
      some ((s.at cyc).safeFrame k s.m.seq (s.m.lastEmfhi k)) := fun hk => by
    have hupd : (((s.at cyc).ss1Over false k).execFrame k ((s.at cyc).safeFrame k s.m.seq (s.m.lastEmfhi k))).sv k = _ :=
      nth_upd s.m.lane.slots k k _
    rw [Mach.sv, hload.slots]
    exact (congrArg SieveSlot.exec hupd).trans (by rw [if_pos ⟨rfl, hk⟩])
  rw [hstill, Bool.false_or] at heq
  have hnext : exec (.ss1Expiry cyc false k) s = .next { s with m := ((s.at cyc).ss1Expire false k).settle } :=
    run_next (f := fun m => m.ss1Expire false k)
  have hraised : s.m.time.raised <+: (Mach.loadSafe k ((s.at cyc).ss1Over false k)).time.raised := hload.raised
  rw [heq] at hnext
  generalize Mach.loadSafe k ((s.at cyc).ss1Over false k) = x at hview hexec hnext hraised
  have heval : x.eval false = ((s.at cyc).ss1Over false k).eval false := Mach.eval_of_view hview
  rw [← heval] at hnone hsto
  cases hmove : (s.at cyc).still k
  · rw [hmove, if_neg Bool.false_ne_true] at hnext
    have hkept : x.LoadKept (x.raiseF3 0x4007 k) := .raiseF3 x ..
    have htold : ((x.raiseF3 0x4007 k).safeIrq 2).settle.eval false = x.eval false :=
      (Mach.eval_of_view (Mach.safetyView_settle _)).trans (x.stopTold_eval 0x4007 k [] 0 2 false)
    refine ⟨_, hnext, by rw [htold, hnone], by rw [htold, hsto]; rfl, fun hk => ?_, fun _ => ⟨?_, ?_⟩, fun _ => rfl⟩
    · rw [← hexec hk]
      exact congrArg (fun l => (nth l k).exec) hkept.slots
    · exact tells_behind ⟨rfl, rfl, rfl⟩ hraised (x.raiseF3_raised_prefix 0x4007 k [] 0)
    · rw [Mach.settle_bit, Mach.bit_safeIrq _ (by decide)]
  · rw [hmove, if_pos rfl] at hnext
    have htold : x.settle.eval false = x.eval false := Mach.eval_of_view (Mach.safetyView_settle _)
    exact ⟨_, hnext, by rw [htold, hnone], by rw [htold, hsto]; rfl, hexec, fun h => absurd h.symm Bool.false_ne_true, fun _ => rfl⟩
end

end Sys2Proof.Machine
end

section
/-! The test pulses of the safe inputs (R403), and the tests and timers of the safety function as a whole. -/

namespace Sys2Proof.Machine

/-! ### What a pulse's work leaves -/

/-- An input that was not in fault is: it reads demand, and is told unless the other evaluator had it in fault. -/
def Mach.NewFault (m m' : Mach) (sp : Bool) (i : Nat) : Prop :=
  (nth (m'.eval sp).inputs i).state = false ∧ ((nth (m.eval (!sp)).inputs i).fault = false →
    (∃ e ∈ m'.time.raised.drop m.time.raised.length, e.code = 0x4003 ∧ e.cls = 1 ∧ e.slot = 0xFF) ∧ m'.bit Reg.SAFE_IRQ_STAT 1 = true)

/-- What the work of a test pulse leaves of the machine, and what it does to the inputs. -/
structure Mach.PulseKept (sp : Bool) (m m' : Mach) : Prop where
  other : m'.eval (!sp) = m.eval (!sp)
  tps : (m'.eval sp).tps = (m.eval sp).tps
  rd : ∀ a, a ∉ [Reg.SAFE_OUTS, Reg.SAFE_IRQ_STAT] → m'.rd a = m.rd a
  irq : m.bit Reg.SAFE_IRQ_STAT 1 = true → m'.bit Reg.SAFE_IRQ_STAT 1 = true
  raised : m.time.raised <+: m'.time.raised
  held : ∀ i, (nth (m.eval sp).inputs i).fault = true →
    (nth (m'.eval sp).inputs i).fault = true ∧ (nth (m'.eval sp).inputs i).state = (nth (m.eval sp).inputs i).state
  new : ∀ i, (nth (m.eval sp).inputs i).fault = false → (nth (m'.eval sp).inputs i).fault = true → m.NewFault m' sp i

section
variable {sp : Bool}

theorem Mach.PulseKept.refl (m : Mach) : m.PulseKept sp m :=
  ⟨rfl, rfl, fun _ _ => rfl, id, List.prefix_rfl, fun _ h => ⟨h, rfl⟩, fun _ h h' => absurd (h.symm.trans h') Bool.false_ne_true⟩

theorem Mach.PulseKept.trans {m m' m'' : Mach} (h : m.PulseKept sp m') (h' : m'.PulseKept sp m'') : m.PulseKept sp m'' where
  other := h'.other.trans h.other
  tps := h'.tps.trans h.tps
  rd a ha := (h'.rd a ha).trans (h.rd a ha)
  irq hi := h'.irq (h.irq hi)
  raised := h.raised.trans h'.raised
  held i hi := by
    obtain ⟨hfault, hstate⟩ := h.held i hi
    obtain ⟨hfault', hstate'⟩ := h'.held i hfault
    exact ⟨hfault', hstate'.trans hstate⟩
  new i hi hi'' := by
    cases hmid : (nth (m'.eval sp).inputs i).fault
    · obtain ⟨hstate, htold⟩ := h'.new i hmid hi''
      refine ⟨hstate, fun hother => ?_⟩
      rw [← h.other] at hother
      obtain ⟨⟨e, he, hcode⟩, hbit⟩ := htold hother
      exact ⟨⟨e, List.drop_subset_drop_left _ h.raised.length_le he, hcode⟩, hbit⟩
    · obtain ⟨hstate, htold⟩ := h.new i hi hmid
      refine ⟨(h'.held i hmid).2.trans hstate, fun hother => ?_⟩
      obtain ⟨⟨e, he, hcode⟩, hbit⟩ := htold hother
      exact ⟨⟨e, (h'.raised.drop _).mem he, hcode⟩, h'.irq hbit⟩

/-- Work that changes neither faults nor states of the inputs. -/
theorem Mach.PulseKept.onInput (m : Mach) (i : Nat) (f : SafeInput → SafeInput) (hfault : ∀ x, (f x).fault = x.fault)
    (hstate : ∀ x, (f x).state = x.state) : m.PulseKept sp (m.onEval sp fun e => { e with inputs := upd e.inputs i f }) := by
  have hin : ∀ j, (nth ((m.onEval sp fun e => { e with inputs := upd e.inputs i f }).eval sp).inputs j).fault = (nth (m.eval sp).inputs j).fault ∧
      (nth ((m.onEval sp fun e => { e with inputs := upd e.inputs i f }).eval sp).inputs j).state = (nth (m.eval sp).inputs j).state := by
    intro j
    rw [Mach.eval_onEval]
    change (nth (upd (m.eval sp).inputs i f) j).fault = _ ∧ (nth (upd (m.eval sp).inputs i f) j).state = _
    rw [nth_upd]
    split
    case isTrue h => rw [h.1]; exact ⟨hfault _, hstate _⟩
    case isFalse => exact ⟨rfl, rfl⟩
  exact ⟨m.eval_onEval_other sp _, by rw [Mach.eval_onEval], fun _ _ => rfl, id, List.prefix_rfl,
    fun j hj => ⟨(hin j).1.trans hj, (hin j).2⟩, fun j hj hj' => absurd (hj.symm.trans ((hin j).1.symm.trans hj')) Bool.false_ne_true⟩

/-- A fault of an input is told unless the other evaluator has it. -/
theorem Mach.inputFault_told (m : Mach) (i kind : Nat) (hother : (nth (m.eval (!sp)).inputs i).fault = false) :
    (∃ e ∈ (m.inputFault sp i kind).time.raised.drop m.time.raised.length, e.code = 0x4003 ∧ e.cls = 1 ∧ e.slot = 0xFF) ∧
      (m.inputFault sp i kind).bit Reg.SAFE_IRQ_STAT 1 = true := by
  rw [m.inputFault_eq sp i kind, if_neg (ne_true_of_eq_false hother)]
  refine ⟨⟨eventAt (m.inputGone sp i) 0x4003 1 0xFF [kind] 0, ?_, rfl, rfl, rfl⟩, Mach.bit_safeIrq _ (by decide)⟩
  have hraised : (((m.inputGone sp i).raise 0x4003 1 0xFF [kind]).safeIrq 1).time.raised =
      m.time.raised ++ [eventAt (m.inputGone sp i) 0x4003 1 0xFF [kind] 0] := rfl
  rw [hraised, List.drop_left]
  exact List.mem_singleton_self _

/-- A fault of an input, newly found. -/
theorem Mach.PulseKept.inputFault (m : Mach) (i kind : Nat) (hi : (nth (m.eval sp).inputs i).fault = false) :
    m.PulseKept sp (m.inputFault sp i kind) := by
  have heval := m.inputFault_eval sp i kind
  have hbeside : (∀ a, a ∉ [Reg.SAFE_OUTS, Reg.SAFE_IRQ_STAT] → (m.inputFault sp i kind).rd a = m.rd a) ∧
      (m.bit Reg.SAFE_IRQ_STAT 1 = true → (m.inputFault sp i kind).bit Reg.SAFE_IRQ_STAT 1 = true) ∧
      m.time.raised <+: (m.inputFault sp i kind).time.raised := by
    rw [m.inputFault_eq sp i kind]
    split
    · exact ⟨fun _ _ => rfl, id, List.prefix_rfl⟩
    · refine ⟨fun a ha => ?_, fun h => Mach.bit_orr_of_bit _ _ h, List.prefix_append _ [eventAt (m.inputGone sp i) 0x4003 1 0xFF [kind] 0]⟩
      rw [Mach.safeIrq, Mach.rd_orr, if_neg fun h : a = Reg.SAFE_IRQ_STAT => ha (by rw [h]; decide), Mach.raise_rd]
      rfl
  obtain ⟨hrd, hirq, hraised⟩ := hbeside
  have hin : ∀ j, nth ((m.inputFault sp i kind).eval sp).inputs j =
      if j = i ∧ i < (m.eval sp).inputs.length then (nth (m.eval sp).inputs i).faulted else nth (m.eval sp).inputs j := fun j => by
    rw [heval]
    exact nth_upd ..
  refine ⟨m.inputFault_eval_other sp i kind, by rw [heval], hrd, hirq, hraised, fun j hj => ?_, fun j hj hj' => ?_⟩
  · have hne : ¬(j = i ∧ i < (m.eval sp).inputs.length) := fun h => by
      rw [h.1, hi] at hj
      cases hj
    rw [hin, if_neg hne]
    exact ⟨hj, rfl⟩
  · rw [hin] at hj'
    by_cases h : j = i ∧ i < (m.eval sp).inputs.length
    · refine ⟨by rw [hin, if_pos h]; rfl, fun hother => ?_⟩
      rw [h.1] at hother
      exact m.inputFault_told i kind hother
    · rw [if_neg h, hj] at hj'
      cases hj'

theorem Mach.inputFault_other (m : Mach) {i j : Nat} (kind : Nat) (h : j ≠ i) :
    nth ((m.inputFault sp i kind).eval sp).inputs j = nth (m.eval sp).inputs j := by
  rw [Mach.inputFault_eval]
  exact (nth_upd ..).trans (if_neg fun h' => h h'.1)

theorem Mach.inputFault_self (m : Mach) {i : Nat} (kind : Nat) (h : i < (m.eval sp).inputs.length) :
    nth ((m.inputFault sp i kind).eval sp).inputs i = (nth (m.eval sp).inputs i).faulted := by
  rw [Mach.inputFault_eval]
  exact (nth_upd ..).trans (if_pos ⟨rfl, h⟩)

theorem Mach.inputFault_length (m : Mach) (i kind : Nat) :
    ((m.inputFault sp i kind).eval sp).inputs.length = (m.eval sp).inputs.length := by
  rw [Mach.inputFault_eval]
  exact List.length_modify ..
end

/-! ### One channel (R403) -/

section
variable {sp : Bool} (m : Mach) (k i : Nat) (b : Bool) (tp lows dips : Nat)

/-- The pulses that a channel has missed in a row. -/
def SafeInput.missed (x : SafeInput) (b : Bool) : Nat := if b then x.missB else x.missA

/-- The input after a channel has missed `n` pulses in a row. -/
def SafeInput.withMissed (x : SafeInput) (b : Bool) (n : Nat) : SafeInput :=
  if b then { x with missB := min n 2 } else { x with missA := min n 2 }

/-- The pulses missed by a channel once this one is read. -/
def Mach.missedNow (m : Mach) (sp : Bool) (i : Nat) (b : Bool) (lows : Nat) : Nat :=
  if lows.testBit i then 0 else (nth (m.eval sp).inputs i).missed b + 1

/-- The evaluator with what a channel has missed. -/
def Mach.pulseRead (m : Mach) (sp : Bool) (i : Nat) (b : Bool) (lows : Nat) : Mach :=
  m.onEval sp fun e => { e with inputs := upd e.inputs i fun x => x.withMissed b (m.missedNow sp i b lows) }

theorem Mach.pulseChannel_own : m.pulseChannel sp k i b k lows dips =
    if 2 ≤ m.missedNow sp i b lows ∧ !(nth (m.eval sp).inputs i).fault then (m.pulseRead sp i b lows).inputFault sp i 2
    else m.pulseRead sp i b lows := if_pos rfl

theorem Mach.pulseChannel_foreign (h : tp ≠ k) : m.pulseChannel sp k i b tp lows dips =
    if dips.testBit i ∧ !(nth (m.eval sp).inputs i).fault then m.inputFault sp i 3 else m := if_neg h

theorem SafeInput.withMissed_fault (x : SafeInput) (n : Nat) : (x.withMissed b n).fault = x.fault := by cases b <;> rfl

theorem SafeInput.withMissed_state (x : SafeInput) (n : Nat) : (x.withMissed b n).state = x.state := by cases b <;> rfl

theorem Mach.PulseKept.pulseRead : m.PulseKept sp (m.pulseRead sp i b lows) :=
  .onInput m i _ (fun x => x.withMissed_fault b _) (fun x => x.withMissed_state b _)

theorem Mach.pulseRead_input (j : Nat) : nth ((m.pulseRead sp i b lows).eval sp).inputs j =
    if j = i ∧ i < (m.eval sp).inputs.length then (nth (m.eval sp).inputs i).withMissed b (m.missedNow sp i b lows)
    else nth (m.eval sp).inputs j := by
  rw [Mach.pulseRead, Mach.eval_onEval]
  exact nth_upd ..

theorem Mach.pulseRead_length : ((m.pulseRead sp i b lows).eval sp).inputs.length = (m.eval sp).inputs.length := by
  rw [Mach.pulseRead, Mach.eval_onEval]
  exact List.length_modify ..

theorem Mach.pulseRead_fault : (nth ((m.pulseRead sp i b lows).eval sp).inputs i).fault = (nth (m.eval sp).inputs i).fault := by
  rw [Mach.pulseRead_input]
  split
  · exact SafeInput.withMissed_fault ..
  · rfl

/-- What a pulse says of one channel changes its input alone. -/
theorem Mach.pulseChannel_spec : m.PulseKept sp (m.pulseChannel sp k i b tp lows dips) ∧
    ((m.pulseChannel sp k i b tp lows dips).eval sp).inputs.length = (m.eval sp).inputs.length ∧
    ∀ j, j ≠ i → nth ((m.pulseChannel sp k i b tp lows dips).eval sp).inputs j = nth (m.eval sp).inputs j := by
  have hread := Mach.PulseKept.pulseRead (sp := sp) m i b lows
  have hlen := m.pulseRead_length (sp := sp) i b lows
  have hin : ∀ j, j ≠ i → nth ((m.pulseRead sp i b lows).eval sp).inputs j = nth (m.eval sp).inputs j := fun j hj => by
    rw [Mach.pulseRead_input, if_neg fun h => hj h.1]
  by_cases htp : tp = k
  · subst htp
    rw [Mach.pulseChannel_own]
    split
    case isTrue h =>
      have hfault : (nth ((m.pulseRead sp i b lows).eval sp).inputs i).fault = false := by
        rw [Mach.pulseRead_fault]
        simpa using h.2
      exact ⟨hread.trans (.inputFault _ i 2 hfault), (Mach.inputFault_length _ i 2).trans hlen,
        fun j hj => (Mach.inputFault_other _ 2 hj).trans (hin j hj)⟩
    case isFalse => exact ⟨hread, hlen, hin⟩
  · rw [Mach.pulseChannel_foreign _ _ _ _ _ _ _ htp]
    split
    case isTrue h =>
      exact ⟨.inputFault m i 3 (by simpa using h.2), m.inputFault_length i 3, fun j hj => m.inputFault_other 3 hj⟩
    case isFalse => exact ⟨.refl m, rfl, fun _ _ => rfl⟩

/-- A channel whose own pulse is missed twice in a row, or that sees another output's, is in fault. -/
theorem Mach.pulseChannel_faults (hi : i < (m.eval sp).inputs.length)
    (h : tp = k ∧ lows.testBit i = false ∧ 1 ≤ (nth (m.eval sp).inputs i).missed b ∨ tp ≠ k ∧ dips.testBit i = true) :
    (nth ((m.pulseChannel sp k i b tp lows dips).eval sp).inputs i).fault = true := by
  have hkept := (m.pulseChannel_spec (sp := sp) k i b tp lows dips).1
  cases hfault : (nth (m.eval sp).inputs i).fault
  case true => exact (hkept.held i hfault).1
  case false =>
    rcases h with ⟨rfl, hlow, hmiss⟩ | ⟨htp, hdip⟩
    · have htwice : 2 ≤ m.missedNow sp i b lows := by
        rw [Mach.missedNow, hlow, if_neg Bool.false_ne_true]
        omega
      rw [Mach.pulseChannel_own, if_pos ⟨htwice, by rw [hfault]; rfl⟩, Mach.inputFault_self _ 2 (by rwa [Mach.pulseRead_length])]
      rfl
    · rw [Mach.pulseChannel_foreign _ _ _ _ _ _ _ htp, if_pos ⟨hdip, by rw [hfault]; rfl⟩, m.inputFault_self 3 hi]
      rfl

/-- What a pulse says of channel A leaves what channel B has missed. -/
theorem Mach.pulseChannel_missB : (nth ((m.pulseChannel sp k i false tp lows dips).eval sp).inputs i).missB = (nth (m.eval sp).inputs i).missB := by
  have hfaulted : ∀ (x : Mach) (n : Nat), (nth ((x.inputFault sp i n).eval sp).inputs i).missB = (nth (x.eval sp).inputs i).missB := by
    intro x n
    by_cases hi : i < (x.eval sp).inputs.length
    · rw [x.inputFault_self n hi]
      rfl
    · rw [Mach.inputFault_eval]
      change (nth (upd (x.eval sp).inputs i SafeInput.faulted) i).missB = _
      rw [nth_upd, if_neg fun h => hi h.2]
  have hread : (nth ((m.pulseRead sp i false lows).eval sp).inputs i).missB = (nth (m.eval sp).inputs i).missB := by
    rw [Mach.pulseRead_input]
    split <;> rfl
  by_cases htp : tp = k
  · subst htp
    rw [Mach.pulseChannel_own]
    split
    · exact (hfaulted _ 2).trans hread
    · exact hread
  · rw [Mach.pulseChannel_foreign _ _ _ _ _ _ _ htp]
    split
    · exact hfaulted m 3
    · rfl

/-- A pulse that is seen where it belongs leaves the faults as they were. -/
theorem Mach.pulseChannel_good (hlow : lows.testBit i = true) (hdip : dips.testBit i = false) :
    (m.pulseChannel sp k i b tp lows dips).time.raised = m.time.raised ∧
      (∀ a, (m.pulseChannel sp k i b tp lows dips).rd a = m.rd a) ∧
      ∀ j, (nth ((m.pulseChannel sp k i b tp lows dips).eval sp).inputs j).fault = (nth (m.eval sp).inputs j).fault := by
  by_cases htp : tp = k
  · subst htp
    have hnone : ¬(2 ≤ m.missedNow sp i b lows ∧ !(nth (m.eval sp).inputs i).fault) := by
      simp [Mach.missedNow, hlow]
    rw [Mach.pulseChannel_own, if_neg hnone]
    refine ⟨rfl, fun _ => rfl, fun j => ?_⟩
    by_cases hj : j = i
    · rw [hj, Mach.pulseRead_fault]
    · rw [Mach.pulseRead_input, if_neg fun h => hj h.1]
  · rw [Mach.pulseChannel_foreign _ _ _ _ _ _ _ htp, hdip]
    exact ⟨rfl, fun _ => rfl, fun _ => rfl⟩
end

/-! ### One input, and all of them (R403) -/

/-- A step of a loop over numbers does what it does between what is left alone before and after. -/
theorem forN_through {P Q : Mach → Prop} {f : Nat → Mach → Mach} {i : Nat} (hbefore : ∀ j m, j ≠ i → P m → P (f j m))
    (hat : ∀ m, P m → Q (f i m)) (hafter : ∀ j m, j ≠ i → Q m → Q (f j m)) {n : Nat} (hi : i < n) {m : Mach} (h : P m) :
    Q (forN n f m) := by
  have hsucc : ∀ n m, forN (n + 1) f m = f n (forN n f m) := fun n m => by
    rw [forN, List.range_succ, List.foldl_append]
    rfl
  have hP : ∀ n, n ≤ i → P (forN n f m) := fun n hn => by
    induction n with
    | zero => exact h
    | succ n ih =>
      rw [hsucc]
      exact hbefore n _ (by omega) (ih (by omega))
  induction n with
  | zero => exact absurd hi (Nat.not_lt_zero i)
  | succ n ih =>
    rw [hsucc]
    rcases Nat.lt_succ_iff_lt_or_eq.1 hi with hlt | rfl
    · exact hafter n _ (by omega) (ih hlt)
    · exact hat _ (hP i le_rfl)

/-- What the work on input `i` leaves of the rest. -/
structure Mach.InputWorked (sp : Bool) (i : Nat) (m m' : Mach) : Prop where
  kept : m.PulseKept sp m'
  length : (m'.eval sp).inputs.length = (m.eval sp).inputs.length
  others : ∀ j, j ≠ i → nth (m'.eval sp).inputs j = nth (m.eval sp).inputs j

theorem Mach.InputWorked.trans {sp : Bool} {i : Nat} {m m' m'' : Mach} (h : m.InputWorked sp i m') (h' : m'.InputWorked sp i m'') :
    m.InputWorked sp i m'' :=
  ⟨h.kept.trans h'.kept, h'.length.trans h.length, fun j hj => (h'.others j hj).trans (h.others j hj)⟩

theorem Mach.InputWorked.refl {sp : Bool} {i : Nat} (m : Mach) : m.InputWorked sp i m := ⟨.refl m, rfl, fun _ _ => rfl⟩

section
variable (m : Mach) (sp : Bool) (k i : Nat)

/-- What a pulse says of a channel that a TP output checks. -/
def Mach.pulseSide (m : Mach) (sp : Bool) (k i : Nat) (b : Bool) (tp lows dips : Nat) : Mach :=
  if tp < 8 then m.pulseChannel sp k i b tp lows dips else m

variable (lowA lowB dipA dipB : Nat)

/-- What a pulse says of one input. -/
def Mach.pulseInput (sp : Bool) (k lowA lowB dipA dipB i : Nat) (m : Mach) : Mach :=
  forL (checkedTp (m.rd (Reg.SAFE_IN_CFG i))) (fun c m =>
    m.pulseChannel sp k i c.1 c.2 (if c.1 then lowB else lowA) (if c.1 then dipB else dipA)) m

/-- An input of KIND 1 or 2. -/
abbrev pairedCfg (cfg : Word) : Prop := cfg.bits 31 30 = 1 ∨ cfg.bits 31 30 = 2

theorem Mach.pulseInput_paired (h : pairedCfg (m.rd (Reg.SAFE_IN_CFG i))) : m.pulseInput sp k lowA lowB dipA dipB i =
    (m.pulseSide sp k i false ((m.rd (Reg.SAFE_IN_CFG i)).bits 29 26) lowA dipA).pulseSide sp k i true
      ((m.rd (Reg.SAFE_IN_CFG i)).bits 25 22) lowB dipB := by
  generalize hcfg : m.rd (Reg.SAFE_IN_CFG i) = cfg at h
  have hall : checkedTp cfg = [(false, cfg.bits 29 26), (true, cfg.bits 25 22)].filter fun c => decide (c.2 < 8) := if_pos h
  rw [Mach.pulseInput, hcfg, hall]
  unfold Mach.pulseSide
  by_cases ha : cfg.bits 29 26 < 8 <;> by_cases hb : cfg.bits 25 22 < 8 <;> simp [ha, hb, forL]

theorem Mach.pulseInput_unpaired (h : ¬pairedCfg (m.rd (Reg.SAFE_IN_CFG i))) : m.pulseInput sp k lowA lowB dipA dipB i = m := by
  rw [Mach.pulseInput, checkedTp, if_neg h]
  rfl

theorem Mach.InputWorked.pulseSide (b : Bool) (tp lows dips : Nat) : m.InputWorked sp i (m.pulseSide sp k i b tp lows dips) := by
  unfold Mach.pulseSide
  split
  · obtain ⟨hkept, hlen, hothers⟩ := m.pulseChannel_spec (sp := sp) k i b tp lows dips
    exact ⟨hkept, hlen, hothers⟩
  · exact .refl m

theorem Mach.InputWorked.pulseInput : m.InputWorked sp i (m.pulseInput sp k lowA lowB dipA dipB i) := by
  by_cases h : pairedCfg (m.rd (Reg.SAFE_IN_CFG i))
  · rw [m.pulseInput_paired sp k i lowA lowB dipA dipB h]
    exact (Mach.InputWorked.pulseSide ..).trans (Mach.InputWorked.pulseSide ..)
  · rw [m.pulseInput_unpaired sp k i lowA lowB dipA dipB h]
    exact .refl m

/-- What puts a channel in fault: its own pulse missed twice in a row, or another output's seen. -/
def ChannelBad (k i tp lows dips missed : Nat) : Prop :=
  tp < 8 ∧ (tp = k ∧ lows.testBit i = false ∧ 1 ≤ missed ∨ tp ≠ k ∧ dips.testBit i = true)

theorem Mach.pulseSide_faults (hi : i < (m.eval sp).inputs.length) {b : Bool} {tp lows dips : Nat}
    (h : ChannelBad k i tp lows dips ((nth (m.eval sp).inputs i).missed b)) :
    (nth ((m.pulseSide sp k i b tp lows dips).eval sp).inputs i).fault = true := by
  obtain ⟨htp, hbad⟩ := h
  rw [Mach.pulseSide, if_pos htp]
  exact m.pulseChannel_faults k i b tp lows dips hi hbad

theorem Mach.pulseInput_faults (hi : i < (m.eval sp).inputs.length) (hpaired : pairedCfg (m.rd (Reg.SAFE_IN_CFG i)))
    (h : ChannelBad k i ((m.rd (Reg.SAFE_IN_CFG i)).bits 29 26) lowA dipA (nth (m.eval sp).inputs i).missA ∨
      ChannelBad k i ((m.rd (Reg.SAFE_IN_CFG i)).bits 25 22) lowB dipB (nth (m.eval sp).inputs i).missB) :
    (nth ((m.pulseInput sp k lowA lowB dipA dipB i).eval sp).inputs i).fault = true := by
  rw [m.pulseInput_paired sp k i lowA lowB dipA dipB hpaired]
  have hA := Mach.InputWorked.pulseSide m sp k i false ((m.rd (Reg.SAFE_IN_CFG i)).bits 29 26) lowA dipA
  have hmissB : (nth ((m.pulseSide sp k i false ((m.rd (Reg.SAFE_IN_CFG i)).bits 29 26) lowA dipA).eval sp).inputs i).missB =
      (nth (m.eval sp).inputs i).missB := by
    unfold Mach.pulseSide
    split
    · exact m.pulseChannel_missB ..
    · rfl
  rcases h with h | h
  · exact ((Mach.InputWorked.pulseSide _ sp k i true _ lowB dipB).kept.held i (m.pulseSide_faults sp k i hi h)).1
  · refine Mach.pulseSide_faults _ sp k i (by rwa [hA.length]) ?_
    rw [← hmissB] at h
    exact h

/-- A first miss of a channel that alone is checked is counted. -/
theorem Mach.pulseInput_missedOnce (hi : i < (m.eval sp).inputs.length) (hpaired : pairedCfg (m.rd (Reg.SAFE_IN_CFG i)))
    (hA : (m.rd (Reg.SAFE_IN_CFG i)).bits 29 26 = k) (hk : k < 8) (hB : 8 ≤ (m.rd (Reg.SAFE_IN_CFG i)).bits 25 22)
    (hlow : lowA.testBit i = false) (hmiss : (nth (m.eval sp).inputs i).missA = 0) :
    nth ((m.pulseInput sp k lowA lowB dipA dipB i).eval sp).inputs i = { nth (m.eval sp).inputs i with missA := 1 } := by
  have honce : m.missedNow sp i false lowA = 1 := by
    rw [Mach.missedNow, hlow, if_neg Bool.false_ne_true, SafeInput.missed, if_neg Bool.false_ne_true, hmiss]
  rw [m.pulseInput_paired sp k i lowA lowB dipA dipB hpaired, Mach.pulseSide, if_neg (by omega), Mach.pulseSide, if_pos (by omega), hA,
    Mach.pulseChannel_own, honce, if_neg (by omega), Mach.pulseRead_input, if_pos ⟨rfl, hi⟩, honce]
  rfl

/-- What a TP output whose own readback does not follow says of one input. -/
def Mach.pulseUnread (sp : Bool) (k i : Nat) (m : Mach) : Mach :=
  let cfg := m.rd (Reg.SAFE_IN_CFG i)
  if (cfg.bits 31 30 != 0 && (cfg.bits 29 26 == k || cfg.bits 25 22 == k)) && !(nth (m.eval sp).inputs i).fault then
    m.inputFault sp i 2
  else m

theorem Mach.InputWorked.pulseUnread : m.InputWorked sp i (m.pulseUnread sp k i) := by
  unfold Mach.pulseUnread
  dsimp only
  split
  case isTrue h =>
    have hfault : (nth (m.eval sp).inputs i).fault = false := by simpa using (Bool.and_eq_true_iff.1 h).2
    exact ⟨.inputFault m i 2 hfault, m.inputFault_length i 2, fun j hj => m.inputFault_other 2 hj⟩
  case isFalse => exact .refl m

theorem Mach.pulseUnread_outs : (m.pulseUnread sp k i).rd Reg.SAFE_OUTS = m.rd Reg.SAFE_OUTS := by
  unfold Mach.pulseUnread
  dsimp only
  split
  · rw [Mach.inputFault_eq]
    split
    · rfl
    · rw [Mach.safeIrq, Mach.rd_orr, if_neg (by decide), Mach.raise_rd]
      rfl
  · rfl

theorem Mach.pulseUnread_faults (hi : i < (m.eval sp).inputs.length)
    (h : (m.rd (Reg.SAFE_IN_CFG i)).bits 31 30 ≠ 0 ∧
      ((m.rd (Reg.SAFE_IN_CFG i)).bits 29 26 = k ∨ (m.rd (Reg.SAFE_IN_CFG i)).bits 25 22 = k)) :
    (nth ((m.pulseUnread sp k i).eval sp).inputs i).fault = true := by
  obtain ⟨hkind, hown⟩ := h
  unfold Mach.pulseUnread
  dsimp only
  cases hfault : (nth (m.eval sp).inputs i).fault
  · rw [if_pos (by simp [hkind, hown]), m.inputFault_self 2 hi]
    rfl
  · rw [if_neg (by simp)]
    exact hfault
end

/-! ### The pulse as a whole -/

section
variable (m : Mach) (sp : Bool) (k lowA lowB dipA dipB : Nat)

/-- The machine at the start of a pulse. -/
def Mach.pulseBegun (m : Mach) (sp : Bool) (k : Nat) : Mach :=
  (m.onSafe fun s => { s with tpUntil := upd s.tpUntil k fun _ => m.now + tenMicros * m.fld Reg.SAFE_CFG 23 16 + 200000 }).onEval sp
    fun e => { e with tps := e.tps ||| 2 ^ k }

theorem Mach.testPulse_eq (readback : Bool) : m.testPulse sp k lowA lowB dipA dipB readback =
    let m' := forN 16 (Mach.pulseInput sp k lowA lowB dipA dipB) (m.pulseBegun sp k)
    if readback then m' else forN 16 (fun i m => m.pulseUnread sp k i) (m'.setBit Reg.SAFE_OUTS (24 + k) true) := rfl

theorem Mach.pulseBegun_eval :
    (m.pulseBegun sp k).eval sp = { m.eval sp with tps := (m.eval sp).tps ||| 2 ^ k } ∧ (m.pulseBegun sp k).eval (!sp) = m.eval (!sp) := by
  unfold Mach.pulseBegun
  rw [Mach.eval_onEval, Mach.eval_onEval_other]
  cases sp <;> exact ⟨rfl, rfl⟩

theorem Mach.pulseBegun_inputs : ((m.pulseBegun sp k).eval sp).inputs = (m.eval sp).inputs := by
  rw [(m.pulseBegun_eval sp k).1]

theorem safeInCfg_not_mem (i : Nat) : Reg.SAFE_IN_CFG i ∉ [Reg.SAFE_OUTS, Reg.SAFE_IRQ_STAT] := by
  simp only [Reg.SAFE_IN_CFG, Reg.SAFE_OUTS, Reg.SAFE_IRQ_STAT, List.mem_cons, List.not_mem_nil, or_false]
  omega

theorem Mach.pulseBegun_rd (a : Nat) : (m.pulseBegun sp k).rd a = m.rd a := rfl

/-- What the work of a pulse has come to for input `i`, of which `R` holds. -/
structure Mach.PulsedTo (m₀ : Mach) (sp : Bool) (i : Nat) (R : SafeInput → Prop) (m : Mach) : Prop where
  kept : m₀.PulseKept sp m
  length : (m.eval sp).inputs.length = (m₀.eval sp).inputs.length
  input : R (nth (m.eval sp).inputs i)

variable {m sp} in
theorem Mach.PulsedTo.loop {m₀ : Mach} {i : Nat} {f : Nat → Mach → Mach} (hf : ∀ j (x : Mach), x.InputWorked sp j (f j x)) (hi : i < 16)
    {R R' : SafeInput → Prop} (hat : ∀ x, m₀.PulsedTo sp i R x → R' (nth ((f i x).eval sp).inputs i)) (h : m₀.PulsedTo sp i R m) :
    m₀.PulsedTo sp i R' (forN 16 f m) := by
  have hstep : ∀ (R : SafeInput → Prop) j x, j ≠ i → m₀.PulsedTo sp i R x → m₀.PulsedTo sp i R (f j x) := fun R j x hj hx => by
    obtain ⟨hkept, hlen, hothers⟩ := hf j x
    exact ⟨hx.kept.trans hkept, hlen.trans hx.length, by rw [hothers i hj.symm]; exact hx.input⟩
  refine forN_through (hstep R) (fun x hx => ?_) (hstep R') hi h
  obtain ⟨hkept, hlen, -⟩ := hf i x
  exact ⟨hx.kept.trans hkept, hlen.trans hx.length, hat x hx⟩

variable {m sp} in
/-- An input in fault stays in fault. -/
theorem Mach.PulsedTo.stays {m₀ : Mach} {i : Nat} {f : Nat → Mach → Mach} (hf : ∀ j (x : Mach), x.InputWorked sp j (f j x)) (hi : i < 16)
    (h : m₀.PulsedTo sp i (·.fault = true) m) : m₀.PulsedTo sp i (·.fault = true) (forN 16 f m) :=
  h.loop hf hi fun x hx => ((hf i x).kept.held i hx.input).1

variable {m sp} in
theorem Mach.PulsedTo.any {m₀ : Mach} {i : Nat} {R : SafeInput → Prop} (h : m₀.PulsedTo sp i R m) : m₀.PulsedTo sp i (fun _ => True) m :=
  ⟨h.kept, h.length, trivial⟩

variable {m sp} in
theorem Mach.PulsedTo.setOuts {m₀ : Mach} {i : Nat} {R : SafeInput → Prop} (h : m₀.PulsedTo sp i R m) (j : Nat) (x : Bool) :
    m₀.PulsedTo sp i R (m.setBit Reg.SAFE_OUTS j x) := by
  have hset : (m.setBit Reg.SAFE_OUTS j x).bit Reg.SAFE_IRQ_STAT 1 = m.bit Reg.SAFE_IRQ_STAT 1 := by
    rw [Mach.bit, Mach.rd_setBit, if_neg (by decide)]
    rfl
  exact ⟨h.kept.trans ⟨rfl, rfl, fun a ha => m.rd_wr_other _ fun h : a = Reg.SAFE_OUTS => ha (by rw [h]; decide),
    fun hb => hset.trans hb, List.prefix_rfl, fun _ h => ⟨h, rfl⟩,
    fun _ h h' => absurd (h.symm.trans h') Bool.false_ne_true⟩, h.length, h.input⟩

variable {m sp} in
/-- A pulse ends with the readback of its output. -/
theorem Mach.PulsedTo.pulseEnd {m₀ : Mach} {i : Nat} (hi : i < 16) {R R' : SafeInput → Prop} (h : m₀.PulsedTo sp i R m) (readback : Bool)
    (hat : readback = false → ∀ x, m₀.PulsedTo sp i R x → R' (nth ((x.pulseUnread sp k i).eval sp).inputs i))
    (hsame : readback = true → ∀ x, R x → R' x) :
    m₀.PulsedTo sp i R' (if readback then m else forN 16 (fun i m => m.pulseUnread sp k i) (m.setBit Reg.SAFE_OUTS (24 + k) true)) := by
  cases readback
  · exact (h.setOuts _ _).loop (fun j x => .pulseUnread x sp k j) hi (hat rfl)
  · exact ⟨h.kept, h.length, hsame rfl _ h.input⟩

/-- A pulse keeps what `PulseKept` says, whatever becomes of input `i`. -/
theorem Mach.testPulse_kept (readback : Bool) :
    (m.pulseBegun sp k).PulseKept sp (m.testPulse sp k lowA lowB dipA dipB readback) := by
  have hbegun : (m.pulseBegun sp k).PulsedTo sp 0 (fun _ => True) (m.pulseBegun sp k) := ⟨.refl _, rfl, trivial⟩
  have hread := hbegun.loop (R' := fun _ => True) (fun j x => Mach.InputWorked.pulseInput x sp k j lowA lowB dipA dipB) (by decide) fun _ _ => trivial
  have hend := hread.pulseEnd k (by decide) (R' := fun _ => True) readback (fun _ _ _ => trivial) (fun _ _ _ => trivial)
  exact hend.kept

/-- An input with a bad channel is in fault after the pulse. -/
theorem Mach.testPulse_faults (readback : Bool) {i : Nat} (hi : i < 16) (hlen : i < (m.eval sp).inputs.length)
    (hpaired : pairedCfg (m.rd (Reg.SAFE_IN_CFG i)))
    (h : ChannelBad k i ((m.rd (Reg.SAFE_IN_CFG i)).bits 29 26) lowA dipA (nth (m.eval sp).inputs i).missA ∨
      ChannelBad k i ((m.rd (Reg.SAFE_IN_CFG i)).bits 25 22) lowB dipB (nth (m.eval sp).inputs i).missB) :
    (nth ((m.testPulse sp k lowA lowB dipA dipB readback).eval sp).inputs i).fault = true := by
  have hinputs := m.pulseBegun_inputs sp k
  have hcfg := safeInCfg_not_mem i
  have hbegun : (m.pulseBegun sp k).PulsedTo sp i (· = nth (m.eval sp).inputs i) (m.pulseBegun sp k) := ⟨.refl _, rfl, by rw [hinputs]⟩
  have hread := hbegun.loop (R' := (·.fault = true)) (fun j x => Mach.InputWorked.pulseInput x sp k j lowA lowB dipA dipB) hi fun x hx => by
    have hrd : x.rd (Reg.SAFE_IN_CFG i) = m.rd (Reg.SAFE_IN_CFG i) := hx.kept.rd _ hcfg
    refine x.pulseInput_faults sp k i lowA lowB dipA dipB (by rwa [hx.length, hinputs]) (by rwa [hrd]) ?_
    rw [hrd, hx.input]
    exact h
  exact (hread.pulseEnd k hi readback (fun _ x hx => ((Mach.InputWorked.pulseUnread x sp k i).kept.held i hx.input).1) fun _ _ h => h).input

/-- An input of an output that does not follow is in fault after the pulse. -/
theorem Mach.testPulse_unread {i : Nat} (hi : i < 16) (hlen : i < (m.eval sp).inputs.length)
    (h : (m.rd (Reg.SAFE_IN_CFG i)).bits 31 30 ≠ 0 ∧
      ((m.rd (Reg.SAFE_IN_CFG i)).bits 29 26 = k ∨ (m.rd (Reg.SAFE_IN_CFG i)).bits 25 22 = k)) :
    (nth ((m.testPulse sp k lowA lowB dipA dipB false).eval sp).inputs i).fault = true := by
  have hinputs := m.pulseBegun_inputs sp k
  have hcfg := safeInCfg_not_mem i
  have hbegun : (m.pulseBegun sp k).PulsedTo sp i (fun _ => True) (m.pulseBegun sp k) := ⟨.refl _, rfl, trivial⟩
  have hread := hbegun.loop (R' := fun _ => True) (fun j x => Mach.InputWorked.pulseInput x sp k j lowA lowB dipA dipB) hi fun _ _ => trivial
  refine (hread.pulseEnd k hi (R' := (·.fault = true)) false (fun _ x hx => ?_) nofun).input
  have hrd : x.rd (Reg.SAFE_IN_CFG i) = m.rd (Reg.SAFE_IN_CFG i) := hx.kept.rd _ hcfg
  exact x.pulseUnread_faults sp k i (by rwa [hx.length, hinputs]) (by rwa [hrd])

theorem Mach.testPulse_missedOnce {i : Nat} (hi : i < 16) (hlen : i < (m.eval sp).inputs.length)
    (hpaired : pairedCfg (m.rd (Reg.SAFE_IN_CFG i))) (hA : (m.rd (Reg.SAFE_IN_CFG i)).bits 29 26 = k) (hk : k < 8)
    (hB : 8 ≤ (m.rd (Reg.SAFE_IN_CFG i)).bits 25 22) (hlow : lowA.testBit i = false) (hmiss : (nth (m.eval sp).inputs i).missA = 0) :
    nth ((m.testPulse sp k lowA lowB dipA dipB true).eval sp).inputs i = { nth (m.eval sp).inputs i with missA := 1 } := by
  have hinputs := m.pulseBegun_inputs sp k
  have hcfg := safeInCfg_not_mem i
  have hbegun : (m.pulseBegun sp k).PulsedTo sp i (· = nth (m.eval sp).inputs i) (m.pulseBegun sp k) := ⟨.refl _, rfl, by rw [hinputs]⟩
  have hread := hbegun.loop (R' := (· = { nth (m.eval sp).inputs i with missA := 1 }))
      (fun j x => Mach.InputWorked.pulseInput x sp k j lowA lowB dipA dipB) hi fun x hx => by
    have hrd : x.rd (Reg.SAFE_IN_CFG i) = m.rd (Reg.SAFE_IN_CFG i) := hx.kept.rd _ hcfg
    rw [← hx.input]
    exact x.pulseInput_missedOnce sp k i lowA lowB dipA dipB (by rwa [hx.length, hinputs]) (by rwa [hrd]) (by rwa [hrd]) hk
      (by rwa [hrd]) hlow (by rwa [hx.input])
  exact hread.input

theorem Mach.testPulse_outs (hk : k < 8) : (m.testPulse sp k lowA lowB dipA dipB false).bit Reg.SAFE_OUTS (24 + k) = true := by
  have hrd : ∀ x : Mach, (forN 16 (fun i m => m.pulseUnread sp k i) x).rd Reg.SAFE_OUTS = x.rd Reg.SAFE_OUTS :=
    forN_keeps (fun x => x.rd Reg.SAFE_OUTS) (fun i x => x.pulseUnread_outs sp k i) 16
  rw [Mach.testPulse_eq, Mach.bit]
  dsimp only
  rw [if_neg Bool.false_ne_true, hrd]
  exact Mach.bit_setBit _ _ (by omega)
end

section
variable (m : Mach) (sp : Bool) (k : Nat)

/-- Nothing told, no register written and no fault found. -/
structure Mach.PulseSilent (m : Mach) (sp : Bool) (m' : Mach) : Prop where
  raised : m'.time.raised = m.time.raised
  rd : ∀ a, m'.rd a = m.rd a
  fault : ∀ j, (nth (m'.eval sp).inputs j).fault = (nth (m.eval sp).inputs j).fault

/-- A pulse seen where it belongs leaves every fault, every register and the record as they were. -/
theorem Mach.testPulse_good : m.PulseSilent sp (m.testPulse sp k 0xFFFF 0xFFFF 0 0 true) := by
  have hbegun : m.PulseSilent sp (m.pulseBegun sp k) := ⟨rfl, fun _ => rfl, fun j => by rw [Mach.pulseBegun_inputs]⟩
  refine forL_induct (P := m.PulseSilent sp) (fun i hi x hx => ?_) hbegun
  have hlow : Nat.testBit 0xFFFF i = true := (by decide : ∀ i ∈ List.range 16, Nat.testBit 0xFFFF i = true) i hi
  refine forL_induct (P := m.PulseSilent sp) (fun c _ y hy => ?_) hx
  rw [ite_self, ite_self]
  obtain ⟨hraised, hrd, hfault⟩ := y.pulseChannel_good (sp := sp) k i c.1 c.2 _ _ hlow (Nat.zero_testBit i)
  exact ⟨hraised.trans hy.raised, fun a => (hrd a).trans (hy.rd a), fun j => (hfault j).trans (hy.fault j)⟩

variable (cyc : Nat) (s : State)

theorem exec_testPulse_good (k : Fin 8) :
    ∃ t, exec (.testPulse cyc sp k 0xFFFF#16 0xFFFF#16 0#16 0#16 true) s = .next t ∧
      (t.m.eval sp).tps = (s.m.eval sp).tps ||| 2 ^ k.val ∧
      (∀ i : Fin 16, (nth (t.m.eval sp).inputs i).fault = (nth (s.m.eval sp).inputs i).fault) ∧ Quiet s t [] := by
  obtain ⟨hraised, hrd, hfault⟩ := (s.at cyc).testPulse_good sp k
  have htps := ((s.at cyc).testPulse_kept sp k 0xFFFF 0xFFFF 0 0 true).tps
  rw [((s.at cyc).pulseBegun_eval sp k).1] at htps
  obtain ⟨t, ht, hm, hquiet⟩ := run_leaves (s := s) (cyc := cyc) (f := fun m => m.testPulse sp k 0xFFFF 0xFFFF 0 0 true)
    (regs := []) (fun b _ => hrd b) (hraised.trans (List.append_nil _).symm)
  refine ⟨t, ht, ?_, fun i => ?_, hquiet⟩
  · rw [hm, Mach.eval_of_view (Mach.safetyView_settle _), htps]
    rfl
  · rw [hm, Mach.eval_of_view (Mach.safetyView_settle _), hfault]
    rfl

/-- A pulse, whatever it finds. -/
theorem exec_testPulse (k : Fin 8) (lowA lowB dipA dipB : BitVec 16) (readback : Bool) :
    ∃ t, exec (.testPulse cyc sp k lowA lowB dipA dipB readback) s = .next t ∧
      t.m = ((s.at cyc).testPulse sp k lowA.toNat lowB.toNat dipA.toNat dipB.toNat readback).settle ∧
      (t.m.eval sp).tps = (s.m.eval sp).tps ||| 2 ^ k.val ∧
      (readback = false → t.m.bit Reg.SAFE_OUTS (24 + k.val) = true) ∧
      SameRegsBut s t [Reg.SAFE_OUTS, Reg.SAFE_IRQ_STAT] ∧ SameMemory s t ∧
      ∀ i, (nth (s.m.eval sp).inputs i).fault = false → (nth (t.m.eval sp).inputs i).fault = true → s.m.NewFault t.m sp i := by
  have hkept := (s.at cyc).testPulse_kept sp k lowA.toNat lowB.toNat dipA.toNat dipB.toNat readback
  obtain ⟨hmine, hother⟩ := (s.at cyc).pulseBegun_eval sp k
  obtain ⟨t, ht, hm, hregs, hmem⟩ := run_keeps (s := s) (cyc := cyc)
    (f := fun m => m.testPulse sp k lowA.toNat lowB.toNat dipA.toNat dipB.toNat readback) (regs := [Reg.SAFE_OUTS, Reg.SAFE_IRQ_STAT])
    (fun b hb => (hkept.rd b hb).trans ((s.at cyc).pulseBegun_rd sp k b))
  have heval : t.m.eval sp = ((s.at cyc).testPulse sp k lowA.toNat lowB.toNat dipA.toNat dipB.toNat readback).eval sp := by
    rw [hm, Mach.eval_of_view (Mach.safetyView_settle _)]
  refine ⟨t, ht, hm, ?_, fun hread => ?_, hregs, hmem, fun i hi hi' => ?_⟩
  · rw [heval, hkept.tps, hmine]
    rfl
  · rw [hm, Mach.settle_bit, hread, Mach.testPulse_outs _ _ _ _ _ _ _ k.isLt]
  · rw [heval] at hi'
    have hfresh : (nth (((s.at cyc).pulseBegun sp k).eval sp).inputs i).fault = false := by
      rw [Mach.pulseBegun_inputs]
      exact hi
    obtain ⟨hstate, htold⟩ := hkept.new i hfresh hi'
    rw [hother] at htold
    refine ⟨by rw [heval, hstate], fun h => ?_⟩
    rw [hm, Mach.settle_bit]
    exact htold h
end

theorem ChannelBad.missed {k i tp missed dips : Nat} {lows : BitVec 16} (hk : k < 8) (htp : tp = k) (h : lows.getLsbD i = false)
    (hm : 1 ≤ missed) : ChannelBad k i tp lows.toNat dips missed := ⟨htp ▸ hk, .inl ⟨htp, h, hm⟩⟩

theorem ChannelBad.foreign {k i tp missed lows : Nat} {dips : BitVec 16} (htp : tp ≠ k) (hlt : tp < 8) (h : dips.getLsbD i = true) :
    ChannelBad k i tp lows dips.toNat missed := ⟨hlt, .inr ⟨htp, h⟩⟩

/-- Settles O50: each command by what it finds, the pulses by what every input's work leaves of the others. -/
theorem safetyTestsTimersAndTheExchange : Obligations.SafetyTestsTimersAndTheExchange := by
  refine ⟨fun cyc t0 s hrun hlost hlast hlate => exec_exchangeLoss_bed cyc s hrun hlost hlast hlate,
    fun cyc t0 s hrun hlost hlast hlate hroom => exec_exchangeLoss_sp cyc s hrun hlost hlast hlate hroom,
    fun cyc sp s h => exec_exchangeLoss_idle cyc s sp h, fun cyc sp k s => exec_testPulse_good sp cyc s k, ?_,
    fun cyc t0 sp i s x hx hodd hfault hlate => exec_inputDiscrepancy cyc sp s i hx hodd hfault hlate,
    fun cyc sp i s h => exec_inputDiscrepancy_idle cyc sp s i h, fun cyc t0 sp k s h hdue => ⟨?_, ?_, ?_⟩,
    fun cyc sp k s h => exec_ss1Expiry_idle cyc sp k s h,
    fun cyc sp o s => ⟨exec_safeOutputTest_held cyc sp s o true (Bool.true_or _), fun h => exec_safeOutputTest_held cyc sp s o false h,
      fun h => exec_safeOutputTest_fails cyc sp s o h⟩⟩
  · intro cyc sp k lowA lowB dipA dipB readback s
    obtain ⟨t, ht, hm, htps, hout, hregs, hmem, hnew⟩ := exec_testPulse sp cyc s k lowA lowB dipA dipB readback
    refine ⟨t, ht, htps, hout, hregs, hmem, fun i x hx hfault => ?_⟩
    have hnth : nth (s.m.eval sp).inputs i = x := by
      rw [nth, List.getD_eq_getElem?_getD, hx]
      rfl
    have hlen : i.val < ((s.at cyc).eval sp).inputs.length := (List.getElem?_eq_some_iff.1 hx).1
    have heval : t.m.eval sp = ((s.at cyc).testPulse sp k lowA.toNat lowB.toNat dipA.toNat dipB.toNat readback).eval sp := by
      rw [hm, Mach.eval_of_view (Mach.safetyView_settle _)]
    have hfaults : (nth (t.m.eval sp).inputs i).fault = true → InputFaults s t sp i := fun h => by
      obtain ⟨hstate, htold⟩ := hnew i (hnth ▸ hfault) h
      exact ⟨h, hstate, htold⟩
    have hbad := fun hpaired h => hfaults (heval ▸ (s.at cyc).testPulse_faults sp k lowA.toNat lowB.toNat dipA.toNat dipB.toNat
      readback i.isLt hlen hpaired h)
    have hinput : nth ((s.at cyc).eval sp).inputs i = x := hnth
    rw [hinput] at hbad
    intro cfg paired
    refine ⟨fun hp htp hlow hmiss => hbad hp (.inl (.missed k.isLt htp hlow hmiss)),
      fun hp htp hlow hmiss => hbad hp (.inr (.missed k.isLt htp hlow hmiss)),
      fun hp htp hlt hdip => hbad hp (.inl (.foreign htp hlt hdip)),
      fun hp htp hlt hdip => hbad hp (.inr (.foreign htp hlt hdip)), fun hkind hown hread => ?_,
      fun hp hA hB hlow hmiss hread => ?_⟩
    · subst hread
      exact hfaults (heval ▸ (s.at cyc).testPulse_unread sp k lowA.toNat lowB.toNat dipA.toNat dipB.toNat i.isLt hlen ⟨hkind, hown⟩)
    · subst hread
      rw [heval, (s.at cyc).testPulse_missedOnce sp k lowA.toNat lowB.toNat dipA.toNat dipB.toNat i.isLt hlen hp hA k.isLt hB hlow
        (hinput ▸ hmiss), hinput]
  · exact fun hcase => exec_ss1Expiry_still cyc sp k s h hdue hcase
  · rintro rfl hrun hslot hnew
    exact exec_ss1Expiry_loads cyc k s h hdue hrun hslot hnew
  · rintro rfl hcase hmoves hroom
    exact exec_ss1Expiry_moving cyc k s h hdue hcase hmoves hroom

end Sys2Proof.Machine
end

section
/-! Memory errors and the scrub (R346 to R351). -/

namespace Sys2Proof.Machine

/-! ### Rules of the shared operations -/

section
variable {m₀ m : Mach} {regs : List Nat} {es : List Event} (h : m₀.FocTells regs es m)
include h

theorem Mach.FocTells.onLanes (f : Lane → LaneState → LaneState) : m₀.FocTells regs es (m.onLanes f) := h.next rfl rfl fun _ => rfl

theorem Mach.FocTells.onLane (l : Lane) (f : LaneState → LaneState) : m₀.FocTells regs es (m.onLane l f) := h.next rfl rfl fun _ => rfl

theorem Mach.FocTells.raiseF2 (l : Lane) (code slot : Nat) (d : List Nat) :
    m₀.FocTells regs (es ++ [eventAt m₀ code 2 slot d l.origin]) (m.raiseF2 l code slot d) := (h.raise code 2 slot d l.origin).onLanes _

theorem Mach.FocTells.health {l : Lane} (hreg : healthReg l ∈ regs) (i : Nat) : m₀.FocTells regs es (m.health l i) :=
  (h.onLane l _).wr hreg (by cases l <;> decide) _

theorem Mach.FocTells.poisonWord (cw : Nat) : m₀.FocTells regs es (m.poisonWord cw) := h.next rfl rfl fun _ => rfl

/-- Both lanes' copies of a status register. -/
theorem Mach.FocTells.orrBoth {reg : Nat → Nat} (ha : reg 0 ∈ regs) (hb : reg 1 ∈ regs) (hsa : reg 0 ∉ stampRegs) (hsb : reg 1 ∉ stampRegs)
    (v : Nat) : m₀.FocTells regs es (m.orrBoth reg v) := (h.orr_of_not_stamp ha hsa v).orr_of_not_stamp hb hsb v
end

section
variable (m : Mach)

theorem Mach.rd_orrBoth_other {reg : Nat → Nat} {b : Nat} (ha : b ≠ reg 0) (hb : b ≠ reg 1) (v : Nat) :
    (m.orrBoth reg v).rd b = m.rd b := by
  rw [Mach.orrBoth, Mach.rd_orr, if_neg hb, Mach.rd_orr, if_neg ha]

theorem Mach.bit_orrBoth (reg : Nat → Nat) {i : Nat} (hi : i < 32) {c : Nat} (hc : c = 0 ∨ c = 1) :
    (m.orrBoth reg (2 ^ i)).bit (reg c) i = true := by
  rcases hc with rfl | rfl
  · exact Mach.bit_orr_of_bit _ _ (Mach.bit_orr m hi)
  · exact Mach.bit_orr _ hi

omit m in
theorem Word.testBit_bits (w : Word) {hi lo i : Nat} (h : i < hi + 1 - lo) : (w.bits hi lo).testBit i = w.bit (lo + i) := by
  rw [Word.bits, Nat.testBit_mod_two_pow, Nat.testBit_shiftRight, decide_eq_true h, Bool.true_and, Word.bit]

/-- A bit of a field that is written. -/
theorem Mach.bit_setFld (a : Nat) {hi lo i : Nat} (v : Nat) (hl : lo ≤ hi) (hh : hi < 32) (h : i < hi + 1 - lo) :
    (m.setFld a hi lo v).bit a (lo + i) = v.testBit i := by
  have hfld : ((m.setFld a hi lo v).rd a).bits hi lo = v % 2 ^ (hi + 1 - lo) := Mach.fld_setFld m v hl hh
  rw [Mach.bit, ← Word.testBit_bits _ h, hfld, Nat.testBit_mod_two_pow, decide_eq_true h, Bool.true_and]

/-- A bit of a lane's health word is set in its register (R314). -/
theorem Mach.bit_health (l : Lane) {i : Nat} (hi : i < 13) : (m.health l i).bit (healthReg l) i = true := by
  have hset := fun (x : Mach) v => Mach.bit_setFld x (healthReg l) (hi := 12) (lo := 0) v (Nat.zero_le _) (by decide) hi
  rw [Nat.zero_add] at hset
  rw [Mach.health]
  rw [hset, Mach.onLane, Two.get_set_self, Nat.testBit_or, Nat.testBit_or, Nat.testBit_two_pow_self, Bool.or_true, Bool.true_or]
end

/-! ### The registers of an error (R371) -/

/-- An error's address and detail stand in the registers. -/
def Mach.EccShows (m : Mach) (addr : Nat) (unc : Bool) (req sym : Nat) : Prop :=
  m.rd Reg.DMA_ECCADDR_LO = BitVec.ofNat 32 addr ∧ m.fld Reg.DMA_ECCADDR_HI 7 0 = addr / 2 ^ 32 % 256 ∧
    m.bit Reg.DMA_ECCINFO 31 = unc ∧ m.fld Reg.DMA_ECCINFO 30 28 = req % 8 ∧ m.fld Reg.DMA_ECCINFO 27 22 = sym % 64

theorem eccInfo_fields (unc : Bool) {req sym : Nat} (hreq : req < 8) (hsym : sym < 64) :
    let w : Word := BitVec.ofNat 32 (unc.toNat * 2 ^ 31 + req * 2 ^ 28 + sym * 2 ^ 22)
    Word.bit w 31 = unc ∧ Word.bits w 30 28 = req ∧ Word.bits w 27 22 = sym := by
  have hu : unc.toNat < 2 := Bool.toNat_lt unc
  refine ⟨?_, ?_, ?_⟩
  · rw [Word.bit_ofNat _ (by decide)]
    cases unc <;> simp only [Bool.toNat_false, Bool.toNat_true, decide_eq_true_eq, decide_eq_false_iff_not] <;> omega
  · rw [Word.bits, BitVec.toNat_ofNat, Nat.shiftRight_eq_div_pow]
    omega
  · rw [Word.bits, BitVec.toNat_ofNat, Nat.shiftRight_eq_div_pow]
    omega

theorem Mach.EccShows.congr {m m' : Mach} {addr req sym : Nat} {unc : Bool} (h : m.EccShows addr unc req sym)
    (hrd : ∀ a ∈ [Reg.DMA_ECCADDR_LO, Reg.DMA_ECCADDR_HI, Reg.DMA_ECCINFO], m'.rd a = m.rd a) : m'.EccShows addr unc req sym := by
  simp only [List.forall_mem_cons] at hrd
  obtain ⟨hlo, hhi, hinfo, -⟩ := hrd
  simp only [Mach.EccShows, Mach.fld, Mach.bit, hlo, hhi, hinfo] at h ⊢
  exact h

section
variable (m : Mach) (addr req sym : Nat) (unc : Bool)

theorem Mach.eccInfo_shows : (m.eccInfo addr unc req sym).EccShows addr unc req sym := by
  obtain ⟨hunc, hreq, hsym⟩ := eccInfo_fields unc (Nat.mod_lt req (by decide : 0 < 8)) (Nat.mod_lt sym (by decide : 0 < 64))
  refine ⟨?_, ?_, ?_, ?_, ?_⟩
  · rw [Mach.eccInfo, Mach.rd_wrN, if_neg (by decide), Mach.rd_setFld, if_neg (by decide), Mach.rd_wrN, if_pos rfl]
  · rw [Mach.eccInfo, Mach.fld, Mach.rd_wrN, if_neg (by decide)]
    exact Mach.fld_setFld _ _ (by decide) (by decide)
  · rw [Mach.eccInfo, Mach.bit, Mach.rd_wrN, if_pos rfl]
    exact hunc
  · rw [Mach.eccInfo, Mach.fld, Mach.rd_wrN, if_pos rfl]
    exact hreq
  · rw [Mach.eccInfo, Mach.fld, Mach.rd_wrN, if_pos rfl]
    exact hsym

/-- An error counted, shown and told to both lanes. -/
def Mach.eccNoted (m : Mach) (hi lo addr : Nat) (unc : Bool) (req sym bit : Nat) : Mach :=
  ((m.incSat Reg.DMA_ECCSTAT hi lo).eccInfo addr unc req sym).memIrq bit

variable (hi lo bit : Nat)

theorem Mach.eccNoted_shows : (m.eccNoted hi lo addr unc req sym bit).EccShows addr unc req sym := by
  refine (Mach.eccInfo_shows (m.incSat Reg.DMA_ECCSTAT hi lo) addr req sym unc).congr fun a ha => ?_
  have hne : a ≠ Reg.DMA_L_IRQ_STAT 0 ∧ a ≠ Reg.DMA_L_IRQ_STAT 1 := by
    constructor <;> (rintro rfl; revert ha; decide)
  exact Mach.rd_orrBoth_other _ hne.1 hne.2 _

theorem Mach.eccNoted_tells {regs : List Nat} (hregs : eccRegs ⊆ regs) : m.FocTells regs [] (m.eccNoted hi lo addr unc req sym bit) := by
  have hcount : m.FocTells eccRegs [] (m.incSat Reg.DMA_ECCSTAT hi lo) := (Mach.FocTells.refl m _).wr (by decide) (by decide) _
  have hshown : m.FocTells eccRegs [] ((m.incSat Reg.DMA_ECCSTAT hi lo).eccInfo addr unc req sym) :=
    ((hcount.wr (by decide) (by decide) _).wr (by decide) (by decide) _).wr (by decide) (by decide) _
  exact (hshown.orrBoth (by decide) (by decide) (by decide) (by decide) _).mono hregs

theorem Mach.eccNoted_count {hi lo : Nat} (hl : lo ≤ hi) (hh : hi < 32) :
    (m.eccNoted hi lo addr unc req sym bit).fld Reg.DMA_ECCSTAT hi lo = min (m.fld Reg.DMA_ECCSTAT hi lo + 1) (2 ^ (hi + 1 - lo) - 1) := by
  have hrd : (m.eccNoted hi lo addr unc req sym bit).rd Reg.DMA_ECCSTAT = (m.incSat Reg.DMA_ECCSTAT hi lo).rd Reg.DMA_ECCSTAT := by
    rw [Mach.eccNoted, Mach.memIrq, Mach.rd_orrBoth_other _ (by decide) (by decide), Mach.eccInfo, Mach.rd_wrN, if_neg (by decide),
      Mach.rd_setFld, if_neg (by decide), Mach.rd_wrN, if_neg (by decide)]
  rw [Mach.fld, hrd]
  exact Mach.fld_incSat _ hl hh

theorem Mach.eccNoted_dma : (m.eccNoted hi lo addr unc req sym bit).dma = m.dma := rfl

theorem Mach.eccNoted_now : (m.eccNoted hi lo addr unc req sym bit).now = m.now := rfl
end

/-! ### An uncorrectable error (R347, R349)

The part that holds an address is named by a variable `o` throughout: what follows never looks into how `partOf` finds it. -/

section
variable (m : Mach) (req addr : Nat) (o : Option Lane)

/-- An uncorrectable error is laid to a lane, or to none. -/
def Mach.blameOn (m : Mach) (addr : Nat) (o : Option Lane) : Mach :=
  match o with
  | some l => (m.raiseF2 l 0x3402 0xFF (l.ix :: leBytes 5 addr)).health l 5
  | none => m.raise 0x3403 1

theorem Mach.dramBlame_eq : m.dramBlame addr = m.blameOn addr (m.partOf addr) := rfl

/-- What an uncorrectable error tells of whom it is laid to. -/
def blameTells (m : Mach) (addr : Nat) : Option Lane → List Event
  | some l => [eventAt m 0x3402 2 0xFF (l.ix :: leBytes 5 addr) l.origin]
  | none => [eventAt m 0x3403 1 0xFF [] 0]

/-- The registers of whom an uncorrectable error is laid to. -/
def blameRegs : Option Lane → List Nat
  | some l => [healthReg l]
  | none => []

theorem Mach.blameOn_tells {m₀ m : Mach} {regs : List Nat} {es : List Event} (h : m₀.FocTells regs es m) (addr : Nat)
    (hregs : blameRegs o ⊆ regs) : m₀.FocTells regs (es ++ blameTells m₀ addr o) (m.blameOn addr o) := by
  cases o with
  | some l => exact (h.raiseF2 l 0x3402 0xFF _).health (hregs List.mem_cons_self) 5
  | none => exact h.raise 0x3403 1 0xFF [] 0

/-- Whoever an error is laid to has his fault. -/
theorem Mach.blameOn_blames (l : Lane) : ((m.blameOn addr (some l)).lanes.get l).f2 = true ∧
    (m.blameOn addr (some l)).bit (healthReg l) 5 = true :=
  ⟨((m.raiseF2 l 0x3402 0xFF (l.ix :: leBytes 5 addr)).emitKept_health l 5).f2 (Mach.raiseF2_f2 ..),
    Mach.bit_health _ l (by decide)⟩

theorem Mach.blameOn_dma : (m.blameOn addr o).dma = m.dma := by cases o <;> rfl

theorem Mach.blameOn_rd {a : Nat} (h : ∀ l, a ≠ healthReg l) : (m.blameOn addr o).rd a = m.rd a := by
  cases o with
  | some l => exact (Mach.health_rd_other _ l (h l) 5).trans (Mach.raiseF2_rd ..)
  | none => exact Mach.raise_rd ..

/-- A codeword poisoned, before the error is laid to anyone. -/
def Mach.uncNoted (m : Mach) (req addr : Nat) : Mach := (m.eccNoted 31 16 addr true req 0 1).poisonWord (addr / 32)

theorem Mach.uncNoted_tells {regs : List Nat} (hregs : eccRegs ⊆ regs) : m.FocTells regs [] (m.uncNoted req addr) :=
  (m.eccNoted_tells addr req 0 true 31 16 1 hregs).poisonWord _

theorem Mach.poisonWord_rd (cw a : Nat) : (m.poisonWord cw).rd a = m.rd a := rfl

theorem Mach.poisonWord_dma (cw : Nat) : (m.poisonWord cw).dma = { m.dma with
    poison := if m.dma.poison.contains cw then m.dma.poison else cw :: m.dma.poison, unc := uncAdd m.now cw m.dma.unc } := rfl

theorem Mach.uncNoted_dma : (m.uncNoted req addr).dma = { m.dma with
    poison := if m.dma.poison.contains (addr / 32) then m.dma.poison else addr / 32 :: m.dma.poison
    unc := uncAdd m.now (addr / 32) m.dma.unc } := by
  rw [Mach.uncNoted, Mach.poisonWord_dma, Mach.eccNoted_dma, Mach.eccNoted_now]

theorem Mach.partOf_congr {m m' : Mach} (h : m'.rd Reg.DMA_MEMCFG = m.rd Reg.DMA_MEMCFG) (addr : Nat) : m'.partOf addr = m.partOf addr := by
  unfold Mach.partOf Mach.fld
  rw [h]

variable {o} (ho : m.partOf addr = o)
include ho

theorem Mach.dramPoison_eq : m.dramPoison req addr =
    if (uncAdd m.now (addr / 32) m.dma.unc).length = 8 then ((m.uncNoted req addr).blameOn addr o).raiseF4 0x340B
    else (m.uncNoted req addr).blameOn addr o := by
  have hpart : (m.uncNoted req addr).partOf addr = o :=
    (Mach.partOf_congr ((m.uncNoted_tells req addr (List.Subset.refl eccRegs)).rd _ (by decide)) addr).trans ho
  have hblame : (m.uncNoted req addr).dramBlame addr = (m.uncNoted req addr).blameOn addr o := by
    rw [Mach.dramBlame_eq, hpart]
  have hunc : ((m.uncNoted req addr).blameOn addr o).dma.unc = uncAdd m.now (addr / 32) m.dma.unc := by
    rw [Mach.blameOn_dma, Mach.uncNoted_dma]
  have heq : m.dramPoison req addr = if ((m.uncNoted req addr).dramBlame addr).dma.unc.length = 8 then
      ((m.uncNoted req addr).dramBlame addr).raiseF4 0x340B else (m.uncNoted req addr).dramBlame addr := rfl
  rw [heq, hblame, hunc]

/-- The memory fails with the eighth codeword within a millisecond. -/
abbrev Mach.eighthWord (m : Mach) (addr : Nat) : Prop := (uncAdd m.now (addr / 32) m.dma.unc).length = 8

theorem Mach.dramPoison_tells : m.FocTells (eccRegs ++ blameRegs o ++ if m.eighthWord addr then [Reg.PWR_STATUS] else [])
    (blameTells m addr o ++ if m.eighthWord addr then [eventAt m 0x340B 4 0xFF [] 0] else []) (m.dramPoison req addr) := by
  rw [m.dramPoison_eq req addr ho]
  by_cases hfull : m.eighthWord addr
  · rw [if_pos hfull, if_pos hfull, if_pos hfull]
    have hblamed := Mach.blameOn_tells o (m.uncNoted_tells req addr (regs := eccRegs ++ blameRegs o ++ [Reg.PWR_STATUS])
      fun a ha => List.mem_append_left _ (List.mem_append_left _ ha)) addr fun a ha => List.mem_append_left _ (List.mem_append_right _ ha)
    exact hblamed.raiseF4 (List.mem_append_right _ List.mem_cons_self) 0x340B [] 0
  · rw [if_neg hfull, if_neg hfull, if_neg hfull, List.append_nil, List.append_nil]
    exact Mach.blameOn_tells o (m.uncNoted_tells req addr fun a ha => List.mem_append_left _ ha) addr
      fun a ha => List.mem_append_right _ ha

/-- What an uncorrectable error shows, counts, poisons and faults. -/
theorem Mach.dramPoison_spec : (m.dramPoison req addr).EccShows addr true req 0 ∧
    (m.dramPoison req addr).dma.poison = (if m.dma.poison.contains (addr / 32) then m.dma.poison else addr / 32 :: m.dma.poison) ∧
    (m.dramPoison req addr).fld Reg.DMA_ECCSTAT 31 16 = min (m.fld Reg.DMA_ECCSTAT 31 16 + 1) 0xFFFF ∧
    ∀ l, o = some l → ((m.dramPoison req addr).lanes.get l).f2 = true ∧ (m.dramPoison req addr).bit (healthReg l) 5 = true := by
  have hlast : (m.dramPoison req addr).dma = ((m.uncNoted req addr).blameOn addr o).dma ∧
      (m.dramPoison req addr).lanes = ((m.uncNoted req addr).blameOn addr o).lanes ∧
      ∀ a, a ≠ Reg.PWR_STATUS → (m.dramPoison req addr).rd a = ((m.uncNoted req addr).blameOn addr o).rd a := by
    rw [m.dramPoison_eq req addr ho]
    generalize (m.uncNoted req addr).blameOn addr o = x
    split
    · exact ⟨rfl, rfl, fun a ha => Mach.raiseF4_rd_other _ ha ..⟩
    · exact ⟨rfl, rfl, fun _ _ => rfl⟩
  obtain ⟨hdma, hlanes, hrd⟩ := hlast
  have hblame : ∀ a, (∀ l, a ≠ healthReg l) → ((m.uncNoted req addr).blameOn addr o).rd a = (m.eccNoted 31 16 addr true req 0 1).rd a :=
    fun a ha => (Mach.blameOn_rd _ addr o ha).trans (Mach.poisonWord_rd ..)
  refine ⟨(m.eccNoted_shows addr req 0 true 31 16 1).congr fun a ha => ?_, ?_, ?_, fun l hl => ?_⟩
  · have hne : a ≠ Reg.PWR_STATUS ∧ ∀ l, a ≠ healthReg l := by
      refine ⟨?_, fun l => ?_⟩
      · rintro rfl; revert ha; decide
      · rintro rfl; cases l <;> revert ha <;> decide
    rw [hrd a hne.1, hblame a hne.2]
  · rw [hdma, Mach.blameOn_dma, Mach.uncNoted_dma]
  · rw [Mach.fld, hrd _ (by decide), hblame _ (by intro l; cases l <;> decide)]
    exact m.eccNoted_count addr req 0 true 1 (by decide) (by decide)
  · subst hl
    obtain ⟨hf2, hbit⟩ := (m.uncNoted req addr).blameOn_blames addr l
    refine ⟨by rw [hlanes, hf2], ?_⟩
    rw [Mach.bit, hrd _ (by cases l <;> decide)]
    exact hbit
end

/-! ### Errors of DRAM and of the lanes' SRAM -/

section
variable (cyc : Nat) (s : State)

theorem Mach.EccShows.settle {m : Mach} {addr req sym : Nat} {unc : Bool} (h : m.EccShows addr unc req sym) :
    m.settle.EccShows addr unc req sym := h.congr fun a _ => m.settle_rd a

/-- A corrected error, told at most once a millisecond: `stamp` notes that it is told. -/
theorem run_corrected {f : Mach → Mach} (addr req sym code : Nat) (last : Option Nat) (stamp : Mach → Mach)
    (hstamp : ∀ regs es x, (s.at cyc).FocTells regs es x → (s.at cyc).FocTells regs es (stamp x))
    (hrd : ∀ x a, (stamp x).rd a = x.rd a)
    (hf : f (s.at cyc) = if pastMs (s.at cyc).now last then
      stamp (((s.at cyc).eccNoted 15 0 addr false req sym 0).raise code 0) else (s.at cyc).eccNoted 15 0 addr false req sym 0) :
    ∃ t, run s cyc f = .next t ∧ eccShows t addr false req sym ∧
      t.m.fld Reg.DMA_ECCSTAT 15 0 = min (s.m.fld Reg.DMA_ECCSTAT 15 0 + 1) 0xFFFF ∧ t.m = (f (s.at cyc)).settle ∧
      (pastMs (s.at cyc).now last = true → Raises s t [eventAt (s.at cyc) code 0 0xFF [] 0]) ∧
      (pastMs (s.at cyc).now last = false → Raises s t []) ∧ SameRegsBut s t eccRegs ∧ SameMemory s t := by
  have htells := (s.at cyc).eccNoted_tells addr req sym false 15 0 0 (List.Subset.refl eccRegs)
  have hshows := (s.at cyc).eccNoted_shows addr req sym false 15 0 0
  have hcount := (s.at cyc).eccNoted_count addr req sym false 0 (hi := 15) (lo := 0) (by decide) (by decide)
  cases hpast : pastMs (s.at cyc).now last
  · rw [hpast, if_neg Bool.false_ne_true] at hf
    obtain ⟨t, ht, hm, hregs, hmem, hev⟩ := run_makes hf htells
    refine ⟨t, ht, ?_, ?_, by rw [hm, hf], fun h => absurd h Bool.false_ne_true, fun _ => hev, hregs, hmem⟩
    · rw [eccShows, hm]
      exact hshows.settle
    · rw [hm, Mach.settle_fld, hcount]
      rfl
  · rw [hpast, if_pos rfl] at hf
    obtain ⟨t, ht, hm, hregs, hmem, hev⟩ := run_makes hf (hstamp _ _ _ (htells.raise code 0 0xFF [] 0))
    refine ⟨t, ht, ?_, ?_, by rw [hm, hf], fun _ => hev, fun h => absurd h.symm Bool.false_ne_true, hregs, hmem⟩
    · rw [eccShows, hm]
      exact (hshows.congr fun a _ => (hrd _ a).trans (Mach.raise_rd ..)).settle
    · rw [hm, Mach.settle_fld, Mach.fld, hrd, Mach.raise_rd]
      exact hcount

theorem exec_dramError_corrected (req sym : Nat) (addr : BitVec 32) :
    ∃ t, exec (.dramError cyc req addr (some sym)) s = .next t ∧ eccShows t addr.toNat false req sym ∧
      t.m.fld Reg.DMA_ECCSTAT 15 0 = min (s.m.fld Reg.DMA_ECCSTAT 15 0 + 1) 0xFFFF ∧
      (pastMs (s.at cyc).now s.m.dma.corrAt = true →
        t.m.dma.corrAt = some (s.at cyc).now ∧ Raises s t [eventAt (s.at cyc) 0x3401 0 0xFF [] 0]) ∧
      (pastMs (s.at cyc).now s.m.dma.corrAt = false → t.m.dma.corrAt = s.m.dma.corrAt ∧ Raises s t []) ∧
      SameRegsBut s t eccRegs ∧ SameMemory s t := by
  have heq : (s.at cyc).dramCorrected req addr.toNat sym = if pastMs (s.at cyc).now s.m.dma.corrAt then
      (((s.at cyc).eccNoted 15 0 addr.toNat false req sym 0).raise 0x3401 0).onDma fun d => { d with corrAt := some (s.at cyc).now }
      else (s.at cyc).eccNoted 15 0 addr.toNat false req sym 0 := rfl
  obtain ⟨t, ht, hshows, hcount, hm, htold, hquiet, hregs, hmem⟩ := run_corrected cyc s (f := fun m => m.dramCorrected req addr.toNat sym)
    addr.toNat req sym 0x3401 s.m.dma.corrAt (fun x => x.onDma fun d => { d with corrAt := some (s.at cyc).now })
    (fun _ _ _ h => h.onDma _) (fun _ _ => rfl) heq
  refine ⟨t, ht, hshows, hcount, fun h => ⟨?_, htold h⟩, fun h => ⟨?_, hquiet h⟩, hregs, hmem⟩
  · rw [hm, heq, if_pos h]
    rfl
  · rw [hm, heq, if_neg (ne_true_of_eq_false h)]
    rfl

theorem exec_laneSramError_corrected (l : Lane) (addr : BitVec 21) :
    ∃ t, exec (.laneSramError cyc l addr true) s = .next t ∧ eccShows t (sramBase l + addr.toNat) false 6 0 ∧
      t.m.fld Reg.DMA_ECCSTAT 15 0 = min (s.m.fld Reg.DMA_ECCSTAT 15 0 + 1) 0xFFFF ∧
      (pastMs (s.at cyc).now s.m.dma.sramAt = true → Raises s t [eventAt (s.at cyc) 0x3404 0 0xFF [] 0]) ∧
      (pastMs (s.at cyc).now s.m.dma.sramAt = false → Raises s t []) ∧ SameRegsBut s t eccRegs ∧ SameMemory s t := by
  obtain ⟨t, ht, hshows, hcount, -, htold, hquiet, hregs, hmem⟩ := run_corrected cyc s
    (f := fun m => if pastMs m.now m.dma.sramAt then
      ((m.eccNoted 15 0 (sramBase l + addr.toNat) false 6 0 0).raise 0x3404 0).onDma fun d => { d with sramAt := some m.now }
      else m.eccNoted 15 0 (sramBase l + addr.toNat) false 6 0 0)
    (sramBase l + addr.toNat) 6 0 0x3404 s.m.dma.sramAt
    (fun x => x.onDma fun d => { d with sramAt := some (s.at cyc).now }) (fun _ _ _ h => h.onDma _) (fun _ _ => rfl) rfl
  exact ⟨t, ht, hshows, hcount, htold, hquiet, hregs, hmem⟩

/-- R349: an uncorrectable error of a lane's SRAM is the lane's. -/
theorem exec_laneSramError_uncorrectable (l : Lane) (addr : BitVec 21) :
    ∃ t, exec (.laneSramError cyc l addr false) s = .next t ∧ eccShows t (sramBase l + addr.toNat) true 6 0 ∧
      t.m.fld Reg.DMA_ECCSTAT 31 16 = min (s.m.fld Reg.DMA_ECCSTAT 31 16 + 1) 0xFFFF ∧ t.m.admitted l = false ∧
      t.m.bit (healthReg l) 5 = true ∧ Raises s t [eventAt (s.at cyc) 0x3405 2 0xFF [] l.origin] ∧
      SameRegsBut s t (healthReg l :: eccRegs) ∧ SameMemory s t := by
  have hnoted := (s.at cyc).eccNoted_tells (sramBase l + addr.toNat) 6 0 true 31 16 1 (List.subset_cons_self (healthReg l) eccRegs)
  have hshows := (s.at cyc).eccNoted_shows (sramBase l + addr.toNat) 6 0 true 31 16 1
  have hcount := (s.at cyc).eccNoted_count (sramBase l + addr.toNat) 6 0 true 1 (hi := 31) (lo := 16) (by decide) (by decide)
  generalize hx : (s.at cyc).eccNoted 31 16 (sramBase l + addr.toNat) true 6 0 1 = x at hnoted hshows hcount
  have hrd : ∀ a, a ≠ healthReg l → ((x.raiseF2 l 0x3405).health l 5).rd a = x.rd a := fun a ha => by
    rw [Mach.health_rd_other _ l ha, Mach.raiseF2_rd]
  have hf2 := ((x.raiseF2 l 0x3405).emitKept_health l 5).f2 (Mach.raiseF2_f2 ..)
  obtain ⟨t, ht, hm, hregs, hmem, hev⟩ := run_makes (s := s) (cyc := cyc)
    (f := fun m => ((m.eccNoted 31 16 (sramBase l + addr.toNat) true 6 0 1).raiseF2 l 0x3405).health l 5)
    (congrArg (fun y : Mach => (y.raiseF2 l 0x3405).health l 5) hx) ((hnoted.raiseF2 l 0x3405 0xFF []).health List.mem_cons_self 5)
  refine ⟨t, ht, ?_, ?_, ?_, ?_, hev, hregs, hmem⟩
  · rw [eccShows, hm]
    exact (hshows.congr fun a ha => hrd a (by rintro rfl; cases l <;> revert ha <;> decide)).settle
  · rw [hm, Mach.settle_fld, Mach.fld, hrd _ (by cases l <;> decide)]
    exact hcount
  · exact Mach.not_admitted_of_f2 _ (by rw [hm, Mach.settle_lanes, hf2])
  · rw [hm, Mach.settle_bit, Mach.bit_health _ l (by decide)]

theorem exec_refreshFailure (ns : Nat) :
    (s.m.refreshNs < ns → ∃ t, exec (.refreshFailure cyc ns) s = .next t ∧ t.m.sys.f4 = some (s.m.sys.f4.getD 0x340B) ∧
      Raises s t [eventAt (s.at cyc) 0x340B 4 0xFF [] 0] ∧ SameRegsBut s t [Reg.PWR_STATUS] ∧ SameMemory s t) ∧
    (ns ≤ s.m.refreshNs → ∃ t, exec (.refreshFailure cyc ns) s = .next t ∧ t.m.sys = s.m.sys ∧ Quiet s t []) := by
  refine ⟨fun h => ?_, fun h => ?_⟩
  · obtain ⟨t, ht, hm, hregs, hmem, hev⟩ := run_makes (s := s) (cyc := cyc) (f := fun m => m.refreshLate ns) (if_pos h)
      ((Mach.FocTells.refl (s.at cyc) [Reg.PWR_STATUS]).raiseF4 (by decide) 0x340B [] 0)
    exact ⟨t, ht, by rw [hm, Mach.settle_sys, Mach.raiseF4_f4]; rfl, hev, hregs, hmem⟩
  · obtain ⟨t, ht, hm, hquiet⟩ := run_makes (s := s) (cyc := cyc) (f := fun m => m.refreshLate ns) (if_neg (Nat.not_lt.2 h))
      (Mach.FocTells.refl (s.at cyc) [])
    exact ⟨t, ht, by rw [hm]; rfl, hquiet⟩
end

/-! ### Uncorrectable errors and the scrub -/

section
variable (cyc : Nat) (s : State)

theorem uncTells_eq (addr : Nat) {o : Option Lane} (ho : s.m.partOf addr = o) :
    uncTells s cyc addr = blameTells (s.at cyc) addr o ++
      if (s.at cyc).eighthWord addr then [eventAt (s.at cyc) 0x340B 4 0xFF [] 0] else [] := by
  unfold uncTells
  rw [ho]
  cases o <;> rfl

theorem exec_dramError_uncorrectable (req : Nat) (addr : BitVec 32) {o : Option Lane} (ho : s.m.partOf addr.toNat = o) :
    ∃ t, exec (.dramError cyc req addr none) s = .next t ∧ eccShows t addr.toNat true req 0 ∧
      t.m.dma.poison = (if s.m.dma.poison.contains (addr.toNat / 32) then s.m.dma.poison else addr.toNat / 32 :: s.m.dma.poison) ∧
      t.m.fld Reg.DMA_ECCSTAT 31 16 = min (s.m.fld Reg.DMA_ECCSTAT 31 16 + 1) 0xFFFF ∧
      (∀ l, o = some l → t.m.admitted l = false ∧ t.m.bit (healthReg l) 5 = true) ∧
      Raises s t (uncTells s cyc addr.toNat) ∧
      SameRegsBut s t (eccRegs ++ blameRegs o ++
        if (uncAdd (s.at cyc).now (addr.toNat / 32) s.m.dma.unc).length = 8 then [Reg.PWR_STATUS] else []) ∧ SameMemory s t := by
  have ho' : (s.at cyc).partOf addr.toNat = o := (Mach.partOf_congr (m := s.m) rfl addr.toNat).trans ho
  obtain ⟨hshows, hpoison, hcount, hblame⟩ := (s.at cyc).dramPoison_spec req addr.toNat ho'
  obtain ⟨t, ht, hm, hregs, hmem, hev⟩ := run_makes (s := s) (cyc := cyc) (f := fun m => m.dramPoison req addr.toNat) rfl
    ((s.at cyc).dramPoison_tells req addr.toNat ho')
  rw [← uncTells_eq cyc s addr.toNat ho] at hev
  refine ⟨t, ht, ?_, ?_, ?_, fun l hl => ?_, hev, hregs, hmem⟩
  · rw [eccShows, hm]
    exact hshows.settle
  · rw [hm, Mach.settle_dma, hpoison]
    rfl
  · rw [hm, Mach.settle_fld, hcount]
    rfl
  · obtain ⟨hf2, hbit⟩ := hblame l hl
    exact ⟨Mach.not_admitted_of_f2 _ (by rw [hm, Mach.settle_lanes, hf2]), by rw [hm, Mach.settle_bit, hbit]⟩

end

/-! A line of the scrub holds two codewords (R350). -/

section
variable (m : Mach) (req line : Nat)

/-- A read of a line reports each poisoned codeword of the two. -/
theorem Mach.poisonRead_line : m.poisonRead req (64 * line) 64 =
    forL ([0, 1].filter fun i => m.dma.poison.contains (2 * line + i)) (fun i m => m.dramPoison req (32 * (2 * line + i))) m := by
  have hword : 64 * line / 32 = 2 * line := by omega
  have hcount : (64 * line + 64 + 31) / 32 - 64 * line / 32 = 2 := by omega
  rw [Mach.poisonRead, hcount, hword]
  rfl

theorem Mach.poisonRead_clean (h : m.poisoned (64 * line) 64 = false) : m.poisonRead req (64 * line) 64 = m := by
  have hno : ∀ i ∈ [0, 1], ¬m.dma.poison.contains (2 * line + i) = true := fun i hi hc => by
    have hmem : (2 * line + i) ∈ m.dma.poison := by simpa using hc
    have hi2 : i < 2 := by
      simp only [List.mem_cons, List.not_mem_nil, or_false] at hi
      omega
    have hyes : m.poisoned (64 * line) 64 = true := by
      rw [Mach.poisoned, List.any_eq_true]
      exact ⟨_, hmem, by simp only [Bool.and_eq_true, decide_eq_true_eq]; omega⟩
    rw [h] at hyes
    cases hyes
  rw [Mach.poisonRead_line, List.filter_eq_nil_iff.2 hno]
  rfl

theorem Mach.poisonRead_first (h : m.dma.poison.contains (2 * line) = true) (h' : m.dma.poison.contains (2 * line + 1) = false) :
    m.poisonRead req (64 * line) 64 = m.dramPoison req (64 * line) := by
  have haddr : 32 * (2 * line + 0) = 64 * line := by omega
  have hfirst : ([0, 1].filter fun i => m.dma.poison.contains (2 * line + i)) = [0] := by
    rw [List.filter_cons_of_pos (by exact h), List.filter_cons_of_neg (by rw [h']; exact Bool.false_ne_true), List.filter_nil]
  rw [Mach.poisonRead_line, hfirst, forL, List.foldl_cons, List.foldl_nil, haddr]
end

/-- The scrub after it has read its line. -/
def Mach.scrubOn (line : Nat) (m : Mach) : Mach :=
  if line = 2 ^ 26 - 1 then (((m.setFld Reg.DMA_SCRUB 25 0 0).incSat Reg.DMA_SCRUB 31 26).raise 0x340C 0).memIrq 4
  else m.setFld Reg.DMA_SCRUB 25 0 (line + 1)

section
variable (m : Mach) {line : Nat}

theorem Mach.scrubOn_within (h : line < 2 ^ 26 - 1) : m.scrubOn line = m.setFld Reg.DMA_SCRUB 25 0 (line + 1) := if_neg (Nat.ne_of_lt h)

theorem Mach.scrubOn_last (h : line = 2 ^ 26 - 1) : m.scrubOn line =
    (((m.setFld Reg.DMA_SCRUB 25 0 0).incSat Reg.DMA_SCRUB 31 26).raise 0x340C 0).memIrq 4 := if_pos h

theorem Mach.fld_scrubOn_within (h : line < 2 ^ 26 - 1) : (m.scrubOn line).fld Reg.DMA_SCRUB 25 0 = line + 1 := by
  rw [m.scrubOn_within h, Mach.fld_setFld _ _ (by decide) (by decide)]
  exact Nat.mod_eq_of_lt (by omega)
end

section
variable (cyc : Nat) (s : State)

/-- The scrub reads its line and goes on (R350). -/
def Mach.scrub (m : Mach) : Mach :=
  if !m.dmaRuns then m else (m.poisonRead 0 (64 * m.fld Reg.DMA_SCRUB 25 0) 64).scrubOn (m.fld Reg.DMA_SCRUB 25 0)

theorem exec_scrubLine : exec (.scrubLine cyc) s = run s cyc Mach.scrub := rfl

theorem exec_scrubLine_rests (h : s.m.dmaRuns = false) :
    ∃ t, exec (.scrubLine cyc) s = .next t ∧ t.m.dma = s.m.dma ∧ Quiet s t [] := by
  have hrest : (!(s.at cyc).dmaRuns) = true := (congrArg not h).trans rfl
  obtain ⟨t, ht, hm, hquiet⟩ := run_makes (f := Mach.scrub) (if_pos hrest) (Mach.FocTells.refl (s.at cyc) [])
  exact ⟨t, (exec_scrubLine cyc s).trans ht, by rw [hm]; rfl, hquiet⟩

variable (hruns : s.m.dmaRuns = true)
include hruns

theorem scrub_eq {x : Mach} (hx : (s.at cyc).poisonRead 0 (64 * s.m.fld Reg.DMA_SCRUB 25 0) 64 = x) :
    (s.at cyc).scrub = x.scrubOn (s.m.fld Reg.DMA_SCRUB 25 0) := by
  have hgo : ¬(!(s.at cyc).dmaRuns) = true := by
    change ¬(!s.m.dmaRuns) = true
    rw [hruns]
    decide
  subst hx
  exact if_neg hgo

/-- A line without poison within a pass. -/
theorem exec_scrubLine_clean (hclean : s.m.poisoned (64 * s.m.fld Reg.DMA_SCRUB 25 0) 64 = false)
    (hline : s.m.fld Reg.DMA_SCRUB 25 0 < 2 ^ 26 - 1) :
    ∃ t, exec (.scrubLine cyc) s = .next t ∧ t.m.fld Reg.DMA_SCRUB 25 0 = s.m.fld Reg.DMA_SCRUB 25 0 + 1 ∧
      t.m.fld Reg.DMA_SCRUB 31 26 = s.m.fld Reg.DMA_SCRUB 31 26 ∧ Quiet s t [Reg.DMA_SCRUB] := by
  have heq := scrub_eq cyc s hruns ((s.at cyc).poisonRead_clean 0 _ hclean)
  have hnext := (s.at cyc).fld_scrubOn_within hline
  have hset := (s.at cyc).scrubOn_within hline
  obtain ⟨t, ht, hm, hquiet⟩ := run_makes (f := Mach.scrub) (heq.trans hset)
    ((Mach.FocTells.refl (s.at cyc) [Reg.DMA_SCRUB]).wr List.mem_cons_self (by decide) _)
  refine ⟨t, (exec_scrubLine cyc s).trans ht, ?_, ?_, hquiet⟩
  · rw [hm, Mach.settle_fld, ← hset, hnext]
  · rw [hm, Mach.settle_fld, Mach.fld_setFld_other _ _ (by decide) (by decide) (by decide) (.inr (.inr (by decide)))]
    rfl

/-- The last line of a pass. -/
theorem exec_scrubLine_pass (hclean : s.m.poisoned (64 * s.m.fld Reg.DMA_SCRUB 25 0) 64 = false)
    (hline : s.m.fld Reg.DMA_SCRUB 25 0 = 2 ^ 26 - 1) :
    ∃ t, exec (.scrubLine cyc) s = .next t ∧ t.m.fld Reg.DMA_SCRUB 25 0 = 0 ∧
      t.m.fld Reg.DMA_SCRUB 31 26 = min (s.m.fld Reg.DMA_SCRUB 31 26 + 1) 63 ∧
      t.m.bit (Reg.DMA_L_IRQ_STAT 0) 4 = true ∧ t.m.bit (Reg.DMA_L_IRQ_STAT 1) 4 = true ∧
      Raises s t [eventAt (s.at cyc) 0x340C 0 0xFF [] 0] ∧
      SameRegsBut s t [Reg.DMA_SCRUB, Reg.DMA_L_IRQ_STAT 0, Reg.DMA_L_IRQ_STAT 1] ∧ SameMemory s t := by
  have heq := (scrub_eq cyc s hruns ((s.at cyc).poisonRead_clean 0 _ hclean)).trans ((s.at cyc).scrubOn_last hline)
  obtain ⟨t, ht, hm, hregs, hmem, hev⟩ := run_makes (f := Mach.scrub) heq
    (((((Mach.FocTells.refl (s.at cyc) [Reg.DMA_SCRUB, Reg.DMA_L_IRQ_STAT 0, Reg.DMA_L_IRQ_STAT 1]).wr List.mem_cons_self (by decide) _).incSat
      List.mem_cons_self (by decide) 31 26).raise 0x340C 0 0xFF [] 0).orrBoth (by decide) (by decide) (by decide) (by decide) _)
  have hscrub : t.m.rd Reg.DMA_SCRUB = (((s.at cyc).setFld Reg.DMA_SCRUB 25 0 0).incSat Reg.DMA_SCRUB 31 26).rd Reg.DMA_SCRUB := by
    rw [hm, Mach.settle_rd, Mach.memIrq, Mach.rd_orrBoth_other _ (by decide) (by decide), Mach.raise_rd]
  refine ⟨t, (exec_scrubLine cyc s).trans ht, ?_, ?_, ?_, ?_, hev, hregs, hmem⟩
  · rw [Mach.fld, hscrub]
    exact (Mach.fld_setFld_other _ _ (by decide) (by decide) (by decide) (.inr (.inl (by decide)))).trans
      (Mach.fld_setFld _ _ (by decide) (by decide))
  · rw [Mach.fld, hscrub]
    refine (Mach.fld_incSat _ (by decide) (by decide)).trans ?_
    rw [Mach.fld_setFld_other _ _ (by decide) (by decide) (by decide) (.inr (.inr (by decide)))]
    rfl
  · rw [hm, Mach.settle_bit]
    exact Mach.bit_orrBoth _ _ (by decide) (.inl rfl)
  · rw [hm, Mach.settle_bit]
    exact Mach.bit_orrBoth _ _ (by decide) (.inr rfl)

/-- A line whose first codeword is poisoned. -/
theorem exec_scrubLine_poisoned (hfirst : s.m.dma.poison.contains (2 * s.m.fld Reg.DMA_SCRUB 25 0) = true)
    (hsecond : s.m.dma.poison.contains (2 * s.m.fld Reg.DMA_SCRUB 25 0 + 1) = false) (hline : s.m.fld Reg.DMA_SCRUB 25 0 < 2 ^ 26 - 1) :
    ∃ t, exec (.scrubLine cyc) s = .next t ∧ t.m.fld Reg.DMA_SCRUB 25 0 = s.m.fld Reg.DMA_SCRUB 25 0 + 1 ∧
      eccShows t (64 * s.m.fld Reg.DMA_SCRUB 25 0) true 0 0 ∧ Raises s t (uncTells s cyc (64 * s.m.fld Reg.DMA_SCRUB 25 0)) ∧
      SameMemory s t := by
  generalize hl : s.m.fld Reg.DMA_SCRUB 25 0 = line at *
  have hread : (s.at cyc).poisonRead 0 (64 * s.m.fld Reg.DMA_SCRUB 25 0) 64 = (s.at cyc).dramPoison 0 (64 * line) := by
    rw [hl]
    exact (s.at cyc).poisonRead_first 0 line hfirst hsecond
  have heq := scrub_eq cyc s hruns hread
  rw [hl] at heq
  generalize ho : s.m.partOf (64 * line) = o
  have ho' : (s.at cyc).partOf (64 * line) = o := (Mach.partOf_congr (m := s.m) rfl (64 * line)).trans ho
  obtain ⟨hshows, -⟩ := (s.at cyc).dramPoison_spec 0 (64 * line) ho'
  have htells := (s.at cyc).dramPoison_tells 0 (64 * line) ho'
  rw [← uncTells_eq cyc s (64 * line) ho] at htells
  generalize (s.at cyc).dramPoison 0 (64 * line) = x at heq hshows htells
  have hset := x.scrubOn_within hline
  obtain ⟨t, ht, hm, hregs, hmem, hev⟩ := run_makes (f := Mach.scrub) (heq.trans hset)
    ((htells.mono (List.subset_cons_self Reg.DMA_SCRUB _)).wr List.mem_cons_self (by decide) _)
  refine ⟨t, (exec_scrubLine cyc s).trans ht, ?_, ?_, hev, hmem⟩
  · rw [hm, Mach.settle_fld, ← hset, x.fld_scrubOn_within hline]
  · rw [eccShows, hm]
    exact (hshows.congr fun a ha => Mach.rd_wr_other _ _ (by rintro rfl; revert ha; decide)).settle
end

/-- Settles O41: an error by what its kind leaves of registers, poison and lanes; the scrub by what it reads. -/
theorem memoryErrorsAndScrub : Obligations.MemoryErrorsAndScrub := by
  refine ⟨fun cyc req sym addr s => exec_dramError_corrected cyc s req sym addr, fun cyc req addr s => ?_,
    fun cyc l addr s => exec_laneSramError_corrected cyc s l addr, fun cyc l addr s => exec_laneSramError_uncorrectable cyc s l addr,
    fun cyc s hruns => ⟨fun hclean hline => exec_scrubLine_clean cyc s hruns hclean hline,
      fun hclean hline => exec_scrubLine_pass cyc s hruns hclean hline,
      fun hfirst hsecond hline => exec_scrubLine_poisoned cyc s hruns hfirst hsecond hline⟩,
    fun cyc s h => exec_scrubLine_rests cyc s h, fun cyc ns s => exec_refreshFailure cyc s ns⟩
  have hpoison := fun o (ho : s.m.partOf addr.toNat = o) => exec_dramError_uncorrectable cyc s req addr ho
  generalize s.m.partOf addr.toNat = o at hpoison ⊢
  have h := hpoison o rfl
  cases o with
  | some l => exact h
  | none => exact h

end Sys2Proof.Machine
end

section
/-! What memory errors and fault records leave of the DMA (R347, R349, R362 to R364), and translation without a table. -/

namespace Sys2Proof.Machine

/-! ### The registers of errors and fault records -/

/-- The registers that memory errors and fault records write. -/
abbrev noteRegs : List Nat := eccRegs ++ [Reg.LANE_HEALTHA, Reg.LANE_HEALTHB, Reg.PWR_STATUS, Reg.DMA_L_FSTAT 0, Reg.DMA_L_FSTAT 1,
  Reg.DMA_L_FRHEAD 0, Reg.DMA_L_FRHEAD 1]

/-- Of what errors and fault records have made of the machine, no more than their registers, the poison and the record have changed. -/
structure Mach.DmaNoted (m m' : Mach) : Prop where
  dma : ∃ p u, m'.dma = { m.dma with poison := p, unc := u }
  rd : ∀ b, b ∉ noteRegs → m'.rd b = m.rd b
  irq : ∀ (l : Lane) i, m.bit (Reg.DMA_L_IRQ_STAT l.ix) i = true → m'.bit (Reg.DMA_L_IRQ_STAT l.ix) i = true
  raised : m.time.raised <+: m'.time.raised

section
variable (m : Mach)

theorem Mach.DmaNoted.refl : m.DmaNoted m := ⟨⟨_, _, rfl⟩, fun _ _ => rfl, fun _ _ h => h, List.prefix_rfl⟩

variable {m} in
theorem Mach.DmaNoted.trans {m' m'' : Mach} (h : m.DmaNoted m') (h' : m'.DmaNoted m'') : m.DmaNoted m'' := by
  obtain ⟨p, u, hdma⟩ := h.dma
  obtain ⟨p', u', hdma'⟩ := h'.dma
  exact ⟨⟨p', u', by rw [hdma', hdma]⟩, fun b hb => (h'.rd b hb).trans (h.rd b hb), fun l i hi => h'.irq l i (h.irq l i hi),
    h.raised.trans h'.raised⟩

theorem Mach.DmaNoted.raise (code cls slot : Nat) (d : List Nat) (o : Nat) : m.DmaNoted (m.raise code cls slot d o) :=
  ⟨⟨_, _, rfl⟩, fun _ _ => rfl, fun _ _ h => h, List.prefix_append ..⟩

theorem Mach.DmaNoted.wr {a : Nat} (ha : a ∈ noteRegs) (hirq : ∀ l : Lane, Reg.DMA_L_IRQ_STAT l.ix ≠ a) (w : Word) : m.DmaNoted (m.wr a w) :=
  ⟨⟨_, _, rfl⟩, fun _ hb => m.rd_wr_other w fun hba => hb (by rwa [hba]), fun l i h => by
    rw [Mach.bit, m.rd_wr_other w (hirq l)]
    exact h, List.prefix_rfl⟩

theorem Mach.DmaNoted.orr {a : Nat} (ha : a ∈ noteRegs) (v : Nat) : m.DmaNoted (m.orr a v) :=
  ⟨⟨_, _, rfl⟩, fun b hb => by rw [Mach.rd_orr, if_neg fun hba : b = a => hb (by rwa [hba])], fun _ _ h => Mach.bit_orr_of_bit _ _ h,
    List.prefix_rfl⟩

theorem Mach.DmaNoted.poison (p : List Nat) : m.DmaNoted (m.onDma fun d => { d with poison := p }) :=
  ⟨⟨p, _, rfl⟩, fun _ _ => rfl, fun _ _ h => h, List.prefix_rfl⟩

theorem blameRegs_subset (o : Option Lane) : blameRegs o ⊆ [Reg.LANE_HEALTHA, Reg.LANE_HEALTHB] := by
  rcases o with _ | ⟨_ | _⟩ <;> decide

theorem poisonRegs_subset (o : Option Lane) (full : Prop) [Decidable full] :
    eccRegs ++ blameRegs o ++ (if full then [Reg.PWR_STATUS] else []) ⊆ noteRegs := by
  have hpwr : (if full then [Reg.PWR_STATUS] else []) ⊆ noteRegs := by split <;> decide
  exact List.append_subset.2
    ⟨List.append_subset.2 ⟨List.subset_append_left .., List.Subset.trans (blameRegs_subset o) (by decide)⟩, hpwr⟩

/-- The failure of the memory leaves what an uncorrectable error has made of the DMA. -/
theorem Mach.dramPoison_last (req addr : Nat) {o : Option Lane} (ho : m.partOf addr = o) :
    (m.dramPoison req addr).dma = ((m.uncNoted req addr).blameOn addr o).dma ∧
      ∀ l : Lane, (m.dramPoison req addr).rd (Reg.DMA_L_IRQ_STAT l.ix) = ((m.uncNoted req addr).blameOn addr o).rd (Reg.DMA_L_IRQ_STAT l.ix) := by
  rw [m.dramPoison_eq req addr ho]
  generalize (m.uncNoted req addr).blameOn addr o = x
  split
  · exact ⟨rfl, fun l => Mach.raiseF4_rd_other _ (by cases l <;> decide) ..⟩
  · exact ⟨rfl, fun _ => rfl⟩

theorem Mach.eccNoted_irq (hi lo addr : Nat) (unc : Bool) (req sym j : Nat) (l : Lane) {i : Nat}
    (h : m.bit (Reg.DMA_L_IRQ_STAT l.ix) i = true) :
    (m.eccNoted hi lo addr unc req sym j).bit (Reg.DMA_L_IRQ_STAT l.ix) i = true := by
  have hshown : ((m.incSat Reg.DMA_ECCSTAT hi lo).eccInfo addr unc req sym).rd (Reg.DMA_L_IRQ_STAT l.ix) = m.rd (Reg.DMA_L_IRQ_STAT l.ix) := by
    rw [Mach.eccInfo, Mach.rd_wrN, if_neg (by cases l <;> decide), Mach.rd_setFld, if_neg (by cases l <;> decide), Mach.rd_wrN,
      if_neg (by cases l <;> decide), Mach.incSat, Mach.rd_setFld, if_neg (by cases l <;> decide)]
  rw [Mach.eccNoted, Mach.memIrq]
  generalize (m.incSat Reg.DMA_ECCSTAT hi lo).eccInfo addr unc req sym = x at hshown
  rw [Mach.bit, ← hshown] at h
  exact Mach.bit_orr_of_bit _ _ (Mach.bit_orr_of_bit _ _ h)

theorem Mach.DmaNoted.dramPoison (req addr : Nat) : m.DmaNoted (m.dramPoison req addr) := by
  generalize ho : m.partOf addr = o
  have htells := m.dramPoison_tells req addr ho
  obtain ⟨hdma, hirq⟩ := m.dramPoison_last req addr ho
  have hpoison := hdma.trans ((Mach.blameOn_dma (m.uncNoted req addr) addr o).trans (m.uncNoted_dma req addr))
  refine ⟨⟨_, _, hpoison⟩, fun b hb => htells.rd b fun h => hb (poisonRegs_subset o _ h), fun l i hi => ?_, ?_⟩
  · rw [Mach.bit, hirq, Mach.blameOn_rd _ addr o (by intro l'; cases l <;> cases l' <;> decide), Mach.uncNoted, Mach.poisonWord_rd]
    exact m.eccNoted_irq 31 16 addr true req 0 1 l hi
  · rw [htells.raised]
    exact List.prefix_append ..

theorem Mach.DmaNoted.poisonRead (req addr n : Nat) : m.DmaNoted (m.poisonRead req addr n) :=
  forL_induct (P := m.DmaNoted) (fun _ _ m' hm' => hm'.trans (.dramPoison m' ..)) (.refl m)

/-- Bytes written codeword by codeword (R346, R347). -/
theorem Mach.DmaNoted.dmaWrite (mem : List Host.Cell) (req a : Nat) (bytes : List Nat) : m.DmaNoted (m.dmaWrite mem req a bytes).2.1 := by
  unfold Mach.dmaWrite
  generalize codewords (bytes.length + 1) a bytes = l
  generalize hx : (([] : List (Nat × List Nat)), m, mem) = x
  have hm : m.DmaNoted x.2.1 := hx ▸ .refl m
  clear hx
  induction l generalizing x with
  | nil => exact hm
  | cons p l ih =>
    rw [List.foldl_cons]
    refine ih _ ?_
    dsimp only
    split
    · split
      · exact hm.trans (.poison x.2.1 _)
      · exact hm.trans (.poisonRead x.2.1 ..)
    · exact hm

theorem Mach.DmaNoted.faultRecord (mem : List Host.Cell) (l : Lane) (va src cause ctx parked index tag done : Nat) :
    m.DmaNoted (m.faultRecord mem l va src cause ctx parked index tag done).1 := by
  have hstat : Reg.DMA_L_FSTAT l.ix ∈ noteRegs ∧ Reg.DMA_L_FRHEAD l.ix ∈ noteRegs ∧ Reg.DMA_L_IRQ_STAT l.ix ∈ noteRegs := by
    cases l <;> decide
  obtain ⟨hf, hh, hi⟩ := hstat
  unfold Mach.faultRecord
  extract_lets body n h a m₁
  split
  · exact ((Mach.DmaNoted.wr m hf (by intro l'; cases l <;> cases l' <;> decide) _).trans (.raise _ ..)).trans (.orr _ hi _)
  · exact (Mach.DmaNoted.wr m hh (by intro l'; cases l <;> cases l' <;> decide) _).trans (.dmaWrite m₁ ..)
end

/-! ### Translation (R348, R354, R362) -/

section
variable {m m' : Mach}

theorem Mach.dmaReach_congr (hrd : m'.rd Reg.DMA_MEMCFG = m.rd Reg.DMA_MEMCFG) (l : Lane) (write : Bool) (a : Nat) :
    m'.dmaReach l write a = m.dmaReach l write a := by
  unfold Mach.dmaReach
  rw [Mach.partOf_congr hrd]

theorem Mach.walk_congr (hdma : m'.dma.poison = m.dma.poison) (mem : List Host.Cell) (c asid va : Nat) (write : Bool) (level ppn : Nat) :
    m'.walk mem c asid va write level ppn = m.walk mem c asid va write level ppn := by
  have hpoison : ∀ a n, m'.poisoned a n = m.poisoned a n := fun a n => by rw [Mach.poisoned, Mach.poisoned, hdma]
  induction level generalizing ppn with
  | zero =>
    rw [Mach.walk, Mach.walk]
    simp only [hpoison]
  | succ n ih =>
    rw [Mach.walk, Mach.walk]
    simp only [hpoison, ih]

theorem Mach.translate_congr (hrd : ∀ a, m'.rd a = m.rd a) (hdma : m'.dma = m.dma) (mem : List Host.Cell) (l : Lane) (c va : Nat)
    (write : Bool) : m'.translate mem l c va write = m.translate mem l c va write := by
  have hreach : m'.dmaReach l write = m.dmaReach l write := funext fun a => Mach.dmaReach_congr (hrd _) l write a
  have hwalk : m'.walk mem c = m.walk mem c := by
    funext asid va write level ppn
    exact Mach.walk_congr (by rw [hdma]) mem c asid va write level ppn
  have hrd' : m'.rd = m.rd := funext hrd
  unfold Mach.translate Mach.fld
  rw [hreach, hwalk, hrd', hdma]

variable {mem : List Host.Cell} {l : Lane} {c : Nat} {write : Bool}

/-- A context without a table translates an address that the lane may reach to itself. -/
theorem Mach.translate_direct {va : Nat} (hctx : (m.rd (Reg.DMA_L_CTX_HI l.ix c)).bits 31 28 ≠ 8) (hreach : m.dmaReach l write va = true) :
    m.translate mem l c va write = ⟨va, 0, none⟩ := by
  simp only [Mach.translate, if_pos hctx, hreach, Bool.not_true, Bool.false_eq_true, and_false, if_false]

theorem Mach.translateParts_direct {ps : List (Nat × Nat)} (hctx : (m.rd (Reg.DMA_L_CTX_HI l.ix c)).bits 31 28 ≠ 8)
    (hreach : ∀ p ∈ ps, m.dmaReach l write p.1 = true) : m.translateParts mem l c write ps = (ps, none, m) := by
  induction ps with
  | nil => rfl
  | cons p ps ih =>
    have htail := ih fun q hq => hreach q (List.mem_cons_of_mem p hq)
    rw [Mach.translateParts, Mach.translate_direct hctx (hreach p List.mem_cons_self)]
    simp only [Mach.cacheXlate, htail, ne_eq, not_true, if_false]

/-- A translation that fails at the first part ends there. -/
theorem Mach.translateParts_fails {p : Nat × Nat} {ps : List (Nat × Nat)} {x : Xlate} (hx : m.translate mem l c p.1 write = x)
    (hcause : x.cause ≠ 0) (hwalk : x.cause ≠ 10) : m.translateParts mem l c write (p :: ps) = ([], some (x.cause, p.1), m) := by
  rw [Mach.translateParts, hx]
  simp only [if_pos hcause, if_neg hwalk]
end

end Sys2Proof.Machine
end

section
/-! Check-value units (R368, R369, R374, R375). -/

namespace Sys2Proof.Machine

/-! ### The other lane and the safety processor at a lane's own copy (R515) -/

theorem notTheOwner_ownCopy (s : State) (cyc : Nat) (l : Lane) (a : Nat) (f : Mach → Mach) :
    NotTheOwner s cyc l a (run s cyc fun m => m.ownCopy (.lane l.other) l a f) (run s cyc fun m => m.ownCopy .safety l a f) := by
  have hother : (s.at cyc).ownCopy (.lane l.other) l a f =
      (s.at cyc).raise 0x0001 0 0xFF (accessRecord (physical a) (.lane l.other) true .word false 3) :=
    (Mach.ownCopy_other _ l a (by cases l <;> decide) f).trans (Mach.foreignCopy_eq_raise ..)
  obtain ⟨t, ht, hm, hregs, hmem, hev⟩ := run_makes (f := fun m => m.ownCopy (.lane l.other) l a f) hother
    ((Mach.FocTells.refl (s.at cyc) []).raise 0x0001 0 0xFF _ 0)
  obtain ⟨t', ht', hm', hquiet⟩ := run_makes (f := fun m => m.ownCopy .safety l a f) (Mach.ownCopy_safety (s.at cyc) l a f)
    (Mach.FocTells.refl (s.at cyc) [])
  exact ⟨⟨t, ht, by rw [hm]; rfl, hregs, hmem, hev⟩, ⟨t', ht', by rw [hm']; rfl, hquiet⟩⟩

/-! ### Values (R368) -/

theorem reflect_lt (w v : Nat) : reflect w v < 2 ^ w := by
  have hle : ∀ k ≤ w, (List.range k).foldl (fun x i => if v.testBit i then x + 2 ^ (w - 1 - i) else x) 0 + 2 ^ (w - k) ≤ 2 ^ w := by
    intro k hk
    induction k with
    | zero => simp
    | succ k ih =>
      have hstep := ih (by omega)
      have hpow : 2 ^ (w - k) = 2 ^ (w - (k + 1)) + 2 ^ (w - (k + 1)) := by
        rw [← Nat.two_mul, ← Nat.pow_succ']
        congr 1
        omega
      have hpos : 0 < 2 ^ (w - (k + 1)) := by positivity
      have hsame : w - 1 - k = w - (k + 1) := by omega
      rw [List.range_succ, List.foldl_append, List.foldl_cons, List.foldl_nil, hsame]
      split <;> omega
  have hall := hle w le_rfl
  rw [Nat.sub_self] at hall
  exact hall

/-! ### A unit's registers (R374) -/

section
variable (l : Lane) (u : Fin 4)

theorem unitRegs_not_stamp {a : Nat} (h : a ∈ unitRegs l u) : a ∉ stampRegs := by
  revert h a
  revert u
  cases l <;> decide

end

theorem Mach.FocTells.onUnit {m m₀ : Mach} {regs : List Nat} {es : List Event} (h : m₀.FocTells regs es m) (l : Lane) (u : Nat)
    (f : CrcUnit → CrcUnit) : m₀.FocTells regs es (m.onUnit l u f) := h.next rfl rfl fun _ => rfl

section
variable {m m₀ : Mach} {es : List Event} {l : Lane} {u : Fin 4} (h : m₀.FocTells (unitRegs l u) es m)
include h

theorem Mach.FocTells.wrUnit {a : Nat} (ha : a ∈ unitRegs l u) (w : Word) : m₀.FocTells (unitRegs l u) es (m.wr a w) :=
  h.wr ha (unitRegs_not_stamp l u ha) w

theorem Mach.FocTells.showResult : m₀.FocTells (unitRegs l u) es (m.showResult l u) :=
  (h.wrUnit (by simp [unitRegs]) _).wrUnit (by simp [unitRegs]) _

theorem Mach.FocTells.setUnit (c : Nat) : m₀.FocTells (unitRegs l u) es (m.setUnit l u c) :=
  ((h.wrUnit (a := Reg.CRC_U_STAT l.ix u) (by simp [unitRegs]) _).onUnit l u _).showResult

theorem Mach.FocTells.wrValue (v : Nat) : m₀.FocTells (unitRegs l u) es (m.wr64 (Reg.CRC_U_VAL_LO l.ix u) (Reg.CRC_U_VAL_HI l.ix u) v) :=
  (h.wrUnit (by simp [unitRegs]) _).wrUnit (by simp [unitRegs]) _
end

section
variable (m : Mach) (l : Lane) (u : Fin 4)

theorem Mach.showResult_rd {a : Nat} (hlo : a ≠ Reg.CRC_U_RES_LO l.ix u) (hhi : a ≠ Reg.CRC_U_RES_HI l.ix u) :
    (m.showResult l u).rd a = m.rd a := by
  rw [Mach.showResult, Mach.wr64, Mach.rd_wrN, if_neg hhi, Mach.rd_wrN, if_neg hlo]

/-- The value and the place of a unit, and how far it may go. -/
def Mach.unitView (m : Mach) (l : Lane) (u : Fin 4) : Word × Nat :=
  (m.rd (Reg.CRC_U_POS l.ix u), m.rd64 (Reg.CRC_U_VAL_LO l.ix u) (Reg.CRC_U_VAL_HI l.ix u))

theorem Mach.unitView_congr {m m' : Mach} (h : ∀ a ∈ [Reg.CRC_U_POS l.ix u, Reg.CRC_U_VAL_LO l.ix u, Reg.CRC_U_VAL_HI l.ix u],
    m'.rd a = m.rd a) : m'.unitView l u = m.unitView l u := by
  simp only [List.forall_mem_cons] at h
  obtain ⟨hpos, hlo, hhi, -⟩ := h
  rw [Mach.unitView, Mach.unitView, Mach.rd64, Mach.rd64, hpos, hlo, hhi]

theorem Mach.setUnit_unitView (c : Nat) : (m.setUnit l u c).unitView l u = m.unitView l u := by
  refine Mach.unitView_congr l u fun a ha => ?_
  have hne : a ≠ Reg.CRC_U_STAT l.ix u ∧ a ≠ Reg.CRC_U_RES_LO l.ix u ∧ a ≠ Reg.CRC_U_RES_HI l.ix u := by
    revert a u
    cases l <;> decide
  rw [Mach.setUnit, Mach.showResult_rd _ l u hne.2.1 hne.2.2]
  exact Mach.rd_wr_other _ _ hne.1

theorem Mach.setUnit_state {c : Nat} (hc : c < 8) : (m.setUnit l u c).crcState l u = c := by
  have hne : Reg.CRC_U_STAT l.ix u ≠ Reg.CRC_U_RES_LO l.ix u ∧ Reg.CRC_U_STAT l.ix u ≠ Reg.CRC_U_RES_HI l.ix u := by
    revert u
    cases l <;> decide
  rw [Mach.crcState, Mach.fld, Mach.setUnit, Mach.showResult_rd _ l u hne.1 hne.2]
  refine (Mach.fld_setFld m c (by decide) (by decide)).trans (Nat.mod_eq_of_lt ?_)
  exact hc

theorem Mach.settle_crcState : m.settle.crcState l u = m.crcState l u := m.settle_fld ..

theorem Mach.onUnit_crcState (f : CrcUnit → CrcUnit) : (m.onUnit l u f).crcState l u = m.crcState l u := rfl

/-- A lane's units. -/
def Mach.units (m : Mach) (l : Lane) : List CrcUnit := (m.dma.lanes.get l).units

theorem Mach.onUnit_units (f : CrcUnit → CrcUnit) : (m.onUnit l u f).units l = upd (m.units l) u f := by
  rw [Mach.units, Mach.onUnit, Mach.onDmaLane, Mach.onDma, Two.get_set_self, Mach.units]

theorem Mach.setUnit_units (c : Nat) : (m.setUnit l u c).units l = upd (m.units l) u fun x => { x with quiet := false } :=
  m.onUnit_units l u _
end

/-! ### START, CONT and STOP (R368, R369) -/

section
variable (m : Mach) (l : Lane) (u : Fin 4) (fresh : Bool)

omit m fresh in
theorem unitValue_ne : Reg.CRC_U_VAL_LO l.ix u ≠ Reg.CRC_U_VAL_HI l.ix u ∧ Reg.CRC_U_VAL_LO l.ix u ≠ Reg.CRC_U_POS l.ix u ∧
    Reg.CRC_U_VAL_HI l.ix u ≠ Reg.CRC_U_POS l.ix u := by
  revert u
  cases l <;> decide

/-- A unit with a command at hand. -/
def Mach.unitAsked (m : Mach) (l : Lane) (u : Nat) : Mach := m.onUnit l u fun x => { x with quiet := true }

/-- INIT as a scan takes it. -/
def Mach.unitInit (m : Mach) (l : Lane) (u : Nat) : Nat :=
  if (m.rd (Reg.CRC_U_CFG l.ix u)).bit 21 then reflect (m.crcWidth l u) (m.rd64 (Reg.CRC_U_INIT_LO l.ix u) (Reg.CRC_U_INIT_HI l.ix u))
  else m.rd64 (Reg.CRC_U_INIT_LO l.ix u) (Reg.CRC_U_INIT_HI l.ix u) % 2 ^ m.crcWidth l u

/-- A unit with what START and CONT scan from. -/
def Mach.unitLoaded (m : Mach) (l : Lane) (u : Nat) (fresh : Bool) : Mach :=
  if fresh then ((m.unitAsked l u).wr64 (Reg.CRC_U_VAL_LO l.ix u) (Reg.CRC_U_VAL_HI l.ix u) (m.unitInit l u)).wrN (Reg.CRC_U_POS l.ix u) 0
  else m.unitAsked l u

/-- What START and CONT refuse (R375). -/
def Mach.unitRefuses (m : Mach) (l : Lane) (u : Nat) : Prop :=
  m.crcWidth l u < 8 ∨ 64 < m.crcWidth l u ∨ m.rd (Reg.CRC_U_LEN l.ix u) = 0#32 ∨ m.crcState l u = 1

theorem Mach.crcStart_refused (h : m.unitRefuses l u) : m.crcStart l u fresh = (m.unitAsked l u).crcRefused l := if_pos h

theorem Mach.crcStart_taken (h : ¬m.unitRefuses l u) :
    m.crcStart l u fresh = ((m.unitLoaded l u fresh).setUnit l u 1).onUnit l u fun x => { x with stop := false } := if_neg h

theorem Mach.unitInit_lt (h : m.crcWidth l u ≤ 64) : m.unitInit l u < 2 ^ 64 := by
  have hpow : 2 ^ m.crcWidth l u ≤ 2 ^ 64 := Nat.pow_le_pow_right (by decide) h
  unfold Mach.unitInit
  split
  · exact (reflect_lt ..).trans_le hpow
  · exact (Nat.mod_lt _ (by positivity)).trans_le hpow

/-- START scans from INIT, CONT from what is at hand. -/
theorem Mach.unitLoaded_view (h : m.crcWidth l u ≤ 64) :
    (m.unitLoaded l u true).unitView l u = (0#32, m.unitInit l u) ∧ (m.unitLoaded l u false).unitView l u = m.unitView l u := by
  obtain ⟨hlohi, hlo, hhi⟩ := unitValue_ne l u
  refine ⟨?_, rfl⟩
  have hvalue := (m.unitAsked l u).rd64_wr64 hlohi (m.unitInit l u)
  rw [Nat.mod_eq_of_lt (m.unitInit_lt l u h)] at hvalue
  rw [Mach.unitLoaded, if_pos rfl, Mach.unitView, Mach.rd_wrN, if_pos rfl, Mach.rd64, Mach.rd_wrN, if_neg hlo, Mach.rd_wrN, if_neg hhi]
  exact congrArg (Prod.mk 0#32) hvalue

theorem Mach.unitLoaded_units : (m.unitLoaded l u fresh).units l = upd (m.units l) u fun x => { x with quiet := true } := by
  have hasked : (m.unitAsked l u).units l = upd (m.units l) u fun x => { x with quiet := true } := m.onUnit_units l u _
  cases fresh <;> exact hasked

/-- A scan that begins has neither a stop asked for nor a command at hand. -/
theorem Mach.crcStart_unit (h : ¬m.unitRefuses l u) (hu : (m.units l)[u.val]? = some (nth (m.units l) u)) :
    nth ((m.crcStart l u fresh).units l) u = ⟨false, false⟩ := by
  have hlen : u.val < (m.units l).length := (List.getElem?_eq_some_iff.1 hu).1
  rw [m.crcStart_taken l u fresh h, Mach.onUnit_units, Mach.setUnit_units, Mach.unitLoaded_units, upd_upd, upd_upd, nth_upd,
    if_pos ⟨rfl, hlen⟩]
  rfl

theorem Mach.unitLoaded_tells : m.FocTells (unitRegs l u) [] (m.unitLoaded l u fresh) := by
  have hasked : m.FocTells (unitRegs l u) [] (m.unitAsked l u) := (Mach.FocTells.refl m _).onUnit l u _
  cases fresh
  · exact hasked
  · exact (hasked.wrValue _).wrUnit (by simp [unitRegs]) _
end

section
variable (cyc : Nat) (s : State) (l : Lane) (u : Fin 4) (fresh : Bool)

theorem run_crcStart_taken (h : ¬s.m.unitRefuses l u)
    (hu : (s.m.units l)[u.val]? = some (nth (s.m.units l) u)) {pos v : Nat}
    (hview : ((s.at cyc).unitLoaded l u fresh).unitView l u = (BitVec.ofNat 32 pos, v)) :
    ∃ t, run s cyc (fun m => m.ownCopy (.lane l) l (Reg.CRC_U_CTRL l.ix u) fun m => m.crcStart l u fresh) = .next t ∧ Scans s t l u pos v := by
  have heq := (Mach.ownCopy_own (s.at cyc) l (Reg.CRC_U_CTRL l.ix u) fun m => m.crcStart l u fresh).trans
    ((s.at cyc).crcStart_taken l u fresh h)
  have hunit := (s.at cyc).crcStart_unit l u fresh h hu
  rw [(s.at cyc).crcStart_taken l u fresh h] at hunit
  obtain ⟨t, ht, hm, hquiet⟩ := run_makes
    (f := fun m => m.ownCopy (.lane l) l (Reg.CRC_U_CTRL l.ix u) fun m => m.crcStart l u fresh) heq
    ((((s.at cyc).unitLoaded_tells l u fresh).setUnit 1).onUnit l u _)
  have hshown : t.m.unitView l u = (BitVec.ofNat 32 pos, v) := by
    rw [hm, ← hview]
    exact (Mach.unitView_congr l u fun a _ => Mach.settle_rd _ a).trans (Mach.setUnit_unitView _ l u 1)
  obtain ⟨hpos, hval⟩ := Prod.mk.injEq .. ▸ hshown
  refine ⟨t, ht, ?_, ?_, hpos, hval, hquiet⟩
  · rw [hm, Mach.settle_crcState, Mach.onUnit_crcState, Mach.setUnit_state _ l u (by decide)]
  · rw [hm]
    exact hunit

theorem run_crcStart_refused (h : s.m.unitRefuses l u) :
    ∃ t, run s cyc (fun m => m.ownCopy (.lane l) l (Reg.CRC_U_CTRL l.ix u) fun m => m.crcStart l u fresh) = .next t ∧
      SameRegsBut s t [] ∧ SameMemory s t ∧ Raises s t [eventAt (s.at cyc) 0x3803 0 0xFF [] l.origin] := by
  have heq := (Mach.ownCopy_own (s.at cyc) l (Reg.CRC_U_CTRL l.ix u) fun m => m.crcStart l u fresh).trans
    ((s.at cyc).crcStart_refused l u fresh h)
  have hasked : (s.at cyc).FocTells [] [] ((s.at cyc).unitAsked l u) := (Mach.FocTells.refl (s.at cyc) []).onUnit l u _
  obtain ⟨t, ht, -, hregs, hmem, hev⟩ := run_makes
    (f := fun m => m.ownCopy (.lane l) l (Reg.CRC_U_CTRL l.ix u) fun m => m.crcStart l u fresh) heq (hasked.raise 0x3803 0 0xFF [] l.origin)
  exact ⟨t, ht, hregs, hmem, hev⟩

theorem exec_crcStop (hu : (s.m.units l)[u.val]? = some (nth (s.m.units l) u)) :
    ∃ t, exec (.crcStop cyc (.lane l) l u) s = .next t ∧ t.m.crcState l u = s.m.crcState l u ∧
      nth (t.m.units l) u = ⟨(nth (s.m.units l) u).stop || s.m.crcState l u == 1, true⟩ ∧ Quiet s t [] := by
  have hlen : u.val < (s.m.units l).length := (List.getElem?_eq_some_iff.1 hu).1
  obtain ⟨t, ht, hm, hquiet⟩ := run_makes (s := s) (cyc := cyc)
    (f := fun m => m.ownCopy (.lane l) l (Reg.CRC_U_CTRL l.ix u) fun m => m.crcStop l u)
    (Mach.ownCopy_own (s.at cyc) l (Reg.CRC_U_CTRL l.ix u) fun m => m.crcStop l u)
    ((Mach.FocTells.refl (s.at cyc) []).onUnit l u _)
  refine ⟨t, ht, ?_, ?_, hquiet⟩
  · rw [hm, Mach.settle_crcState, Mach.crcStop, Mach.onUnit_crcState]
    rfl
  · have hunits : t.m.units l = upd (s.m.units l) u fun x => ⟨x.stop || s.m.crcState l u == 1, true⟩ := by
      rw [hm]
      exact (s.at cyc).onUnit_units l u _
    rw [hunits, nth_upd, if_pos ⟨rfl, hlen⟩]
end

/-! ### One block of a scan (R369) -/

section
variable (m : Mach) (mem : List Host.Cell) (l : Lane) (u : Fin 4)

/-- What a block's bytes make of the value. -/
def Mach.blockValue (m : Mach) (mem : List Host.Cell) (l : Lane) (u : Nat) (parts : List (Nat × Nat)) : Nat :=
  (parts.flatMap fun p => Memory.readN mem p.1 p.2).foldl
    (unitByte (m.bit (Reg.CRC_U_CFG l.ix u) 21) (m.crcWidth l u) (m.rd64 (Reg.CRC_U_POLY_LO l.ix u) (Reg.CRC_U_POLY_HI l.ix u)))
    (m.rd64 (Reg.CRC_U_VAL_LO l.ix u) (Reg.CRC_U_VAL_HI l.ix u))

/-- A unit with a block in its value. -/
def Mach.blockTaken (m : Mach) (l : Lane) (u v pos : Nat) : Mach :=
  (m.wr64 (Reg.CRC_U_VAL_LO l.ix u) (Reg.CRC_U_VAL_HI l.ix u) v).wrN (Reg.CRC_U_POS l.ix u) pos

/-- A unit after a block. -/
def Mach.blockEnds (m : Mach) (l : Lane) (u v pos n len : Nat) : Mach :=
  let m' := m.blockTaken l u v (pos + n)
  if len ≤ pos + n then m'.setUnit l u 2 else if (nth (m'.units l) u).stop then m'.setUnit l u 3 else m'.showResult l u

omit m mem l u in
theorem ite_pair {α β : Type} (p : Prop) [Decidable p] (a b : α) (c : β) : (if p then (a, c) else (b, c)) = (if p then a else b, c) := by
  split <;> rfl

theorem Mach.crcBlock_idle (h : m.crcState l u ≠ 1) : m.crcBlock mem l u = (m, mem) := if_pos h

variable (hstate : m.crcState l u = 1)
include hstate

theorem Mach.crcBlock_over (h : (m.rd (Reg.CRC_U_LEN l.ix u)).toNat ≤ (m.rd (Reg.CRC_U_POS l.ix u)).toNat) :
    m.crcBlock mem l u = (m.setUnit l u 2, mem) := by
  have hst : ¬m.crcState l u ≠ 1 := not_not.2 hstate
  exact (if_neg hst).trans (if_pos h)

variable {pos len n c : Nat} (hpos : (m.rd (Reg.CRC_U_POS l.ix u)).toNat = pos) (hlen : (m.rd (Reg.CRC_U_LEN l.ix u)).toNat = len)
  (hlt : pos < len) (hn : n = min 64 (len - pos)) (hc : c = m.fld (Reg.CRC_U_CFG l.ix u) 19 18)
include hpos hlen hlt hn hc

/-- A block goes by how its parts translate. -/
theorem Mach.crcBlock_eq {x : List (Nat × Nat) × Option (Nat × Nat) × Mach}
    (hx : m.translateParts mem l c false
      (pageParts (m.rd64 (Reg.CRC_U_ADDR_LO l.ix u) (Reg.CRC_U_ADDR_HI l.ix u) + pos) n) = x) :
    m.crcBlock mem l u = match x.2.1 with
      | some e => (((x.2.2.setUnit l u 4).raise 0x3801 0 0xFF [] l.origin).orr (Reg.DMA_L_IRQ_STAT l.ix) 4).faultRecord mem l e.2 (16 + u) e.1
          c 0 0 0 pos
      | none =>
        if x.1.any fun p => x.2.2.poisoned p.1 p.2 then
          (((forL x.1 (fun p m => m.poisonRead 5 p.1 p.2) x.2.2).setUnit l u 5).raise 0x3802 0 0xFF [] l.origin, mem)
        else
          let v := (x.1.flatMap fun p => Memory.readN mem p.1 p.2).foldl
            (unitByte ((m.rd (Reg.CRC_U_CFG l.ix u)).bit 21) ((m.rd (Reg.CRC_U_CFG l.ix u)).bits 28 22)
              (x.2.2.rd64 (Reg.CRC_U_POLY_LO l.ix u) (Reg.CRC_U_POLY_HI l.ix u)))
            (x.2.2.rd64 (Reg.CRC_U_VAL_LO l.ix u) (Reg.CRC_U_VAL_HI l.ix u))
          (x.2.2.blockEnds l u v pos n len, mem) := by
  have hst : ¬m.crcState l u ≠ 1 := not_not.2 hstate
  have hmore : ¬len ≤ pos := Nat.not_le.2 hlt
  subst hn hc hpos hlen
  unfold Mach.crcBlock
  rw [if_neg hst, if_neg hmore]
  unfold Mach.fld at hx ⊢
  dsimp only
  rw [hx]
  obtain ⟨parts, e, m'⟩ := x
  cases e with
  | some e => rfl
  | none =>
    unfold Mach.blockEnds
    dsimp only
    rw [← ite_pair, ← ite_pair]
    rfl
end

section
variable (m : Mach) (l : Lane) (u : Fin 4) (v pos : Nat)

theorem Mach.blockTaken_view : (m.blockTaken l u v pos).unitView l u = (BitVec.ofNat 32 pos, v % 2 ^ 64) := by
  obtain ⟨hlohi, hlo, hhi⟩ := unitValue_ne l u
  have hvalue := m.rd64_wr64 hlohi v
  rw [Mach.blockTaken, Mach.unitView, Mach.rd_wrN, if_pos rfl, Mach.rd64, Mach.rd_wrN, if_neg hlo, Mach.rd_wrN, if_neg hhi]
  exact congrArg (Prod.mk (BitVec.ofNat 32 pos)) hvalue

theorem Mach.blockTaken_state : (m.blockTaken l u v pos).crcState l u = m.crcState l u := by
  have hne : Reg.CRC_U_STAT l.ix u ≠ Reg.CRC_U_POS l.ix u ∧ Reg.CRC_U_STAT l.ix u ≠ Reg.CRC_U_VAL_LO l.ix u ∧
      Reg.CRC_U_STAT l.ix u ≠ Reg.CRC_U_VAL_HI l.ix u := by
    revert u
    cases l <;> decide
  obtain ⟨hpos, hlo, hhi⟩ := hne
  rw [Mach.crcState, Mach.fld, Mach.blockTaken, Mach.rd_wrN, if_neg hpos, Mach.wr64, Mach.rd_wrN, if_neg hhi, Mach.rd_wrN, if_neg hlo]
  rfl

theorem Mach.showResult_state : (m.showResult l u).crcState l u = m.crcState l u := by
  have hne : Reg.CRC_U_STAT l.ix u ≠ Reg.CRC_U_RES_LO l.ix u ∧ Reg.CRC_U_STAT l.ix u ≠ Reg.CRC_U_RES_HI l.ix u := by
    revert u
    cases l <;> decide
  rw [Mach.crcState, Mach.fld, Mach.showResult_rd _ l u hne.1 hne.2]
  rfl

theorem Mach.showResult_view : (m.showResult l u).unitView l u = m.unitView l u := by
  refine Mach.unitView_congr l u fun a ha => ?_
  have hne : a ≠ Reg.CRC_U_RES_LO l.ix u ∧ a ≠ Reg.CRC_U_RES_HI l.ix u := by
    revert a u
    cases l <;> decide
  exact Mach.showResult_rd _ l u hne.1 hne.2

theorem Mach.blockTaken_tells : m.FocTells (unitRegs l u) [] (m.blockTaken l u v pos) :=
  ((Mach.FocTells.refl m _).wrValue v).wrUnit (by simp [unitRegs]) _

/-- The state of a unit after a block: DONE, STOPPED or still RUNNING. -/
def blockState (len pos n : Nat) (stop : Bool) : Nat := if pos + n = len then 2 else if stop then 3 else 1

/-- What a block leaves of its unit. -/
theorem Mach.blockEnds_spec {n len : Nat} (hstate : m.crcState l u = 1) (hn : pos + n ≤ len) :
    (m.blockEnds l u v pos n len).unitView l u = (BitVec.ofNat 32 (pos + n), v % 2 ^ 64) ∧
      (m.blockEnds l u v pos n len).crcState l u = blockState len pos n (nth (m.units l) u).stop ∧
      m.FocTells (unitRegs l u) [] (m.blockEnds l u v pos n len) := by
  have hview := m.blockTaken_view l u v (pos + n)
  have hst := (m.blockTaken_state l u v (pos + n)).trans hstate
  have htells := m.blockTaken_tells l u v (pos + n)
  have hunits : (m.blockTaken l u v (pos + n)).units l = m.units l := rfl
  unfold Mach.blockEnds blockState
  dsimp only
  rw [hunits]
  generalize m.blockTaken l u v (pos + n) = x at hview hst htells
  by_cases hend : len ≤ pos + n
  · rw [if_pos hend, if_pos (Nat.le_antisymm hn hend)]
    exact ⟨(x.setUnit_unitView l u 2).trans hview, x.setUnit_state l u (by decide), htells.setUnit 2⟩
  · have hnot : ¬pos + n = len := by omega
    rw [if_neg hend, if_neg hnot]
    cases (nth (m.units l) u).stop
    · rw [if_neg Bool.false_ne_true, if_neg Bool.false_ne_true]
      exact ⟨(x.showResult_view l u).trans hview, (x.showResult_state l u).trans hst, htells.showResult⟩
    · rw [if_pos rfl, if_pos rfl]
      exact ⟨(x.setUnit_unitView l u 3).trans hview, x.setUnit_state l u (by decide), htells.setUnit 3⟩
end

section
variable (l : Lane) (u : Fin 4)

theorem unitView_not_mem_noteRegs {a : Nat}
    (ha : a ∈ [Reg.CRC_U_POS l.ix u, Reg.CRC_U_VAL_LO l.ix u, Reg.CRC_U_VAL_HI l.ix u]) : a ∉ noteRegs := by
  revert a u
  cases l <;> decide

theorem unitStat_not_mem_noteRegs : Reg.CRC_U_STAT l.ix u ∉ noteRegs := by
  revert u
  cases l <;> decide
end

section
variable (m : Mach) (mem : List Host.Cell) (l : Lane) (u : Fin 4)

/-- What a running unit's next block is about: its place, its end, its length and its context. -/
def Mach.AtBlock (m : Mach) (l : Lane) (u : Fin 4) (pos len n c : Nat) : Prop :=
  m.crcState l u = 1 ∧ (m.rd (Reg.CRC_U_POS l.ix u)).toNat = pos ∧ (m.rd (Reg.CRC_U_LEN l.ix u)).toNat = len ∧ pos < len ∧
    n = min 64 (len - pos) ∧ c = m.fld (Reg.CRC_U_CFG l.ix u) 19 18

/-- The parts of a unit's next block. -/
def Mach.blockParts (m : Mach) (l : Lane) (u : Fin 4) (pos n : Nat) : List (Nat × Nat) :=
  pageParts (m.rd64 (Reg.CRC_U_ADDR_LO l.ix u) (Reg.CRC_U_ADDR_HI l.ix u) + pos) n

variable {m l u} {pos len n c : Nat} (hat : m.AtBlock l u pos len n c)
include hat

section
variable {parts : List (Nat × Nat)} (hx : m.translateParts mem l c false (m.blockParts l u pos n) = (parts, none, m))
include hx

theorem Mach.crcBlock_taken (hclean : ∀ p ∈ parts, m.poisoned p.1 p.2 = false) :
    m.crcBlock mem l u = (m.blockEnds l u (m.blockValue mem l u parts) pos n len, mem) := by
  obtain ⟨hstate, hpos, hlen, hlt, hn, hc⟩ := hat
  have hno : ¬(parts.any fun p => m.poisoned p.1 p.2) = true := by
    rw [List.any_eq_true]
    rintro ⟨p, hp, hbad⟩
    exact absurd ((hclean p hp).symm.trans hbad) Bool.false_ne_true
  exact (m.crcBlock_eq mem l u hstate hpos hlen hlt hn hc hx).trans (if_neg hno)

theorem Mach.crcBlock_poisoned (hbad : (parts.any fun p => m.poisoned p.1 p.2) = true) :
    ∃ x, m.DmaNoted x ∧ m.crcBlock mem l u = ((x.setUnit l u 5).raise 0x3802 0 0xFF [] l.origin, mem) := by
  obtain ⟨hstate, hpos, hlen, hlt, hn, hc⟩ := hat
  exact ⟨_, forL_induct (P := m.DmaNoted) (fun _ _ m' hm' => hm'.trans (.poisonRead m' ..)) (.refl _),
    (m.crcBlock_eq mem l u hstate hpos hlen hlt hn hc hx).trans (if_pos hbad)⟩
end

/-- A unit whose block does not translate: FAULTED, told, and its lane's interrupt asked for. -/
def Mach.blockFaulted (m : Mach) (l : Lane) (u : Fin 4) : Mach :=
  ((m.setUnit l u 4).raise 0x3801 0 0xFF [] l.origin).orr (Reg.DMA_L_IRQ_STAT l.ix) 4

theorem Mach.crcBlock_faulted {a : Nat} (ha : a = m.rd64 (Reg.CRC_U_ADDR_LO l.ix u) (Reg.CRC_U_ADDR_HI l.ix u) + pos)
    (hcause : (m.translate mem l c a false).cause ≠ 0) (hwalk : (m.translate mem l c a false).cause ≠ 10) :
    (m.blockFaulted l u).DmaNoted (m.crcBlock mem l u).1 := by
  obtain ⟨hstate, hpos, hlen, hlt, hn, hc⟩ := hat
  obtain ⟨k, rest, hparts⟩ : ∃ k rest, m.blockParts l u pos n = (a, k) :: rest := by
    have hsome : n ≠ 0 := by omega
    rw [Mach.blockParts, ← ha]
    unfold pageParts
    dsimp only
    rw [if_neg hsome]
    split
    · exact ⟨_, _, rfl⟩
    · exact ⟨_, _, rfl⟩
  have htranslate : m.translateParts mem l c false (m.blockParts l u pos n) = ([], some ((m.translate mem l c a false).cause, a), m) := by
    rw [hparts]
    exact Mach.translateParts_fails (p := (a, k)) rfl hcause hwalk
  rw [m.crcBlock_eq mem l u hstate hpos hlen hlt hn hc htranslate]
  exact .faultRecord _ ..

omit hat in
/-- What the note of a fault leaves of its unit. -/
theorem Mach.blockFaulted_spec {z : Mach} (h : (m.blockFaulted l u).DmaNoted z) :
    z.crcState l u = 4 ∧ z.unitView l u = m.unitView l u ∧ z.bit (Reg.DMA_L_IRQ_STAT l.ix) 2 = true ∧
      m.time.raised ++ [eventAt m 0x3801 0 0xFF [] l.origin] <+: z.time.raised := by
  have hrd : ∀ b, b ∉ noteRegs → z.rd b = (m.setUnit l u 4).rd b := fun b hb => by
    have hirq : b ≠ Reg.DMA_L_IRQ_STAT l.ix := fun h => hb (by rw [h]; cases l <;> decide)
    rw [h.rd b hb, Mach.blockFaulted, Mach.rd_orr, if_neg hirq, Mach.raise_rd]
  have hraised : (m.blockFaulted l u).time.raised = m.time.raised ++ [eventAt m 0x3801 0 0xFF [] l.origin] :=
    (((Mach.FocTells.refl m (unitRegs l u)).setUnit 4).raise 0x3801 0 0xFF [] l.origin).raised
  refine ⟨?_, ?_, h.irq l 2 (Mach.bit_orr (i := 2) _ (by decide)), hraised ▸ h.raised⟩
  · rw [Mach.crcState, Mach.fld, hrd _ (unitStat_not_mem_noteRegs l u)]
    exact m.setUnit_state l u (by decide)
  · exact (Mach.unitView_congr l u fun b hb => hrd b (unitView_not_mem_noteRegs l u hb)).trans (m.setUnit_unitView l u 4)
end

section
variable (cyc : Nat) (s : State) (l : Lane) (u : Fin 4)

theorem exec_crcScanBlock (hruns : s.m.dmaRuns = true) :
    exec (.crcScanBlock cyc l u) s =
      .next { s with m := ((s.at cyc).crcBlock s.mem l u).1.settle, mem := ((s.at cyc).crcBlock s.mem l u).2 } := by
  have hgo : (s.at cyc).dmaRuns = true := hruns
  exact runMem_eq (f := fun m mem => if m.dmaRuns then m.crcBlock mem l u else (m, mem)) (if_pos hgo)

theorem exec_crcScanBlock_rests (h : s.m.dmaRuns = false ∨ s.m.crcState l u ≠ 1) :
    ∃ t, exec (.crcScanBlock cyc l u) s = .next t ∧ t.m.dma = s.m.dma ∧ Quiet s t [] := by
  have hidle : (if (s.at cyc).dmaRuns then (s.at cyc).crcBlock s.mem l u else (s.at cyc, s.mem)) = (s.at cyc, s.mem) := by
    rcases h with h | h
    · have hrest : ¬(s.at cyc).dmaRuns = true := ne_true_of_eq_false h
      exact if_neg hrest
    · rw [(s.at cyc).crcBlock_idle s.mem l u h]
      exact ite_self _
  obtain ⟨t, ht, hm, hquiet⟩ := runMem_makes (s := s) (cyc := cyc) (f := fun m mem => if m.dmaRuns then m.crcBlock mem l u else (m, mem))
    hidle (Mach.FocTells.refl (s.at cyc) [])
  exact ⟨t, ht, by rw [hm]; rfl, hquiet⟩

variable (hruns : s.m.dmaRuns = true) (hstate : s.m.crcState l u = 1)
include hruns hstate

theorem exec_crcScanBlock_over (h : (s.m.rd (Reg.CRC_U_LEN l.ix u)).toNat ≤ (s.m.rd (Reg.CRC_U_POS l.ix u)).toNat) :
    ∃ t, exec (.crcScanBlock cyc l u) s = .next t ∧ t.m.crcState l u = 2 ∧
      t.m.rd (Reg.CRC_U_POS l.ix u) = s.m.rd (Reg.CRC_U_POS l.ix u) ∧ Quiet s t (unitRegs l u) := by
  have hgo : (s.at cyc).dmaRuns = true := hruns
  obtain ⟨t, ht, hm, hquiet⟩ := runMem_makes (s := s) (cyc := cyc) (f := fun m mem => if m.dmaRuns then m.crcBlock mem l u else (m, mem))
    ((if_pos hgo).trans ((s.at cyc).crcBlock_over s.mem l u hstate h)) ((Mach.FocTells.refl (s.at cyc) (unitRegs l u)).setUnit 2)
  refine ⟨t, ht, ?_, ?_, hquiet⟩
  · rw [hm, Mach.settle_crcState, Mach.setUnit_state _ l u (by decide)]
  · rw [hm, Mach.settle_rd]
    exact congrArg Prod.fst ((s.at cyc).setUnit_unitView l u 2)

omit hstate
variable {pos len n c : Nat} (hat : (s.at cyc).AtBlock l u pos len n c)
include hat

section
variable {parts : List (Nat × Nat)}
  (hx : (s.at cyc).translateParts s.mem l c false ((s.at cyc).blockParts l u pos n) = (parts, none, s.at cyc))
include hx

/-- A block without poison is taken into the value. -/
theorem exec_crcScanBlock_taken (hclean : ∀ p ∈ parts, (s.at cyc).poisoned p.1 p.2 = false) :
    ∃ t, exec (.crcScanBlock cyc l u) s = .next t ∧
      t.m.unitView l u = (BitVec.ofNat 32 (pos + n), (s.at cyc).blockValue s.mem l u parts % 2 ^ 64) ∧
      t.m.crcState l u = blockState len pos n (nth ((s.at cyc).units l) u).stop ∧ Quiet s t (unitRegs l u) := by
  have hfits : pos + n ≤ len := by
    obtain ⟨-, -, -, hlt, hn, -⟩ := hat
    omega
  have hgo : (s.at cyc).dmaRuns = true := hruns
  obtain ⟨hview, hst, htells⟩ := (s.at cyc).blockEnds_spec l u ((s.at cyc).blockValue s.mem l u parts) pos (n := n) (len := len) hat.1 hfits
  obtain ⟨t, ht, hm, hquiet⟩ := runMem_makes (s := s) (cyc := cyc) (f := fun m mem => if m.dmaRuns then m.crcBlock mem l u else (m, mem))
    ((if_pos hgo).trans (Mach.crcBlock_taken s.mem hat hx hclean)) htells
  refine ⟨t, ht, ?_, ?_, hquiet⟩
  · rw [hm, ← hview]
    exact Mach.unitView_congr l u fun a _ => Mach.settle_rd _ a
  · rw [hm, Mach.settle_crcState, hst]

/-- A block that meets poison ends in error, before the value. -/
theorem exec_crcScanBlock_poisoned (hbad : (parts.any fun p => (s.at cyc).poisoned p.1 p.2) = true) :
    ∃ t, exec (.crcScanBlock cyc l u) s = .next t ∧ t.m.crcState l u = 5 ∧ Tells s t 0x3802 0 0xFF ∧ SameMemory s t ∧
      t.m.unitView l u = (s.at cyc).unitView l u := by
  obtain ⟨x, hnoted, hblock⟩ := Mach.crcBlock_poisoned s.mem hat hx hbad
  have hview : x.unitView l u = (s.at cyc).unitView l u :=
    Mach.unitView_congr l u fun a ha => hnoted.rd a (unitView_not_mem_noteRegs l u ha)
  have hnext := exec_crcScanBlock cyc s l u hruns
  rw [hblock] at hnext
  refine ⟨_, hnext, ?_, ?_, fun _ => rfl, ?_⟩
  · exact (Mach.settle_crcState _ l u).trans (x.setUnit_state l u (by decide))
  · exact tells_behind (e := eventAt (x.setUnit l u 5) 0x3802 0 0xFF [] l.origin) ⟨rfl, rfl, rfl⟩ hnoted.raised List.prefix_rfl
  · exact (Mach.unitView_congr l u fun a _ => Mach.settle_rd _ a).trans ((x.setUnit_unitView l u 5).trans hview)
end

/-- A block whose translation fails ends faulted, before the value. -/
theorem exec_crcScanBlock_faulted {a : Nat}
    (ha : a = (s.at cyc).rd64 (Reg.CRC_U_ADDR_LO l.ix u) (Reg.CRC_U_ADDR_HI l.ix u) + pos)
    (hcause : ((s.at cyc).translate s.mem l c a false).cause ≠ 0) (hwalk : ((s.at cyc).translate s.mem l c a false).cause ≠ 10) :
    ∃ t, exec (.crcScanBlock cyc l u) s = .next t ∧ t.m.crcState l u = 4 ∧ Tells s t 0x3801 0 0xFF ∧
      t.m.bit (Reg.DMA_L_IRQ_STAT l.ix) 2 = true ∧ t.m.unitView l u = (s.at cyc).unitView l u := by
  have hnext := exec_crcScanBlock cyc s l u hruns
  have hnoted := Mach.crcBlock_faulted s.mem hat ha hcause hwalk
  generalize (s.at cyc).crcBlock s.mem l u = z at hnoted hnext
  obtain ⟨hst, hview, hirq, hev⟩ := Mach.blockFaulted_spec hnoted
  refine ⟨_, hnext, ?_, ?_, ?_, ?_⟩
  · exact (Mach.settle_crcState _ l u).trans hst
  · exact tells_behind (e := eventAt (s.at cyc) 0x3801 0 0xFF [] l.origin) ⟨rfl, rfl, rfl⟩ List.prefix_rfl hev
  · exact (Mach.settle_bit ..).trans hirq
  · exact (Mach.unitView_congr l u fun b _ => Mach.settle_rd _ b).trans hview
end

section
variable (cyc : Nat) (s : State) (l : Lane) (u : Fin 4) {pos n c : Nat}

theorem State.at_rd (a : Nat) : (s.at cyc).rd a = s.m.rd a := rfl

theorem State.at_blockParts : (s.at cyc).blockParts l u pos n = s.m.blockParts l u pos n := by
  simp only [Mach.blockParts, Mach.rd64, State.at_rd]

theorem scanParts_direct (hctx : (s.m.rd (Reg.DMA_L_CTX_HI l.ix c)).bits 31 28 ≠ 8)
    (hreach : ∀ p ∈ s.m.blockParts l u pos n, s.m.dmaReach l false p.1 = true) :
    (s.at cyc).translateParts s.mem l c false ((s.at cyc).blockParts l u pos n) = (s.m.blockParts l u pos n, none, s.at cyc) := by
  have hctx' : ((s.at cyc).rd (Reg.DMA_L_CTX_HI l.ix c)).bits 31 28 ≠ 8 := State.at_rd cyc s _ ▸ hctx
  have hreach' : ∀ p ∈ s.m.blockParts l u pos n, (s.at cyc).dmaReach l false p.1 = true := fun p hp =>
    (Mach.dmaReach_congr (State.at_rd cyc s _) l false p.1).trans (hreach p hp)
  rw [State.at_blockParts]
  generalize s.m.blockParts l u pos n = parts at hreach'
  exact Mach.translateParts_direct hctx' hreach'
end

/-- Settles O44: the commands by what refuses them, a block by how its parts translate and whether they are poisoned. -/
theorem checkValueScans : Obligations.CheckValueScans := by
  refine ⟨fun cyc l u s => ⟨fun hmin hmax hlen hidle hu => ?_, fun h => ⟨run_crcStart_refused cyc s l u true h,
      run_crcStart_refused cyc s l u false h⟩, notTheOwner_ownCopy s cyc l _ fun m => m.crcStart l u true,
      notTheOwner_ownCopy s cyc l _ fun m => m.crcStart l u false, notTheOwner_ownCopy s cyc l _ fun m => m.crcStop l u⟩,
    fun cyc l u s hu => exec_crcStop cyc s l u hu,
    fun cyc l u s pos len n c hruns hstate hu hpos hlen hlt hn hc => ⟨fun hctx hreach => ⟨fun hclean => ?_, fun hbad => ?_⟩,
      fun hcause hwalk => ?_⟩,
    fun cyc l u s hruns hstate h => exec_crcScanBlock_over cyc s l u hruns hstate h,
    fun cyc l u s h => exec_crcScanBlock_rests cyc s l u h⟩
  · have hok : ¬s.m.unitRefuses l u := by
      rintro (h | h | h | h)
      · exact absurd hmin (by exact Nat.not_le.2 h)
      · exact absurd hmax (by exact Nat.not_le.2 h)
      · exact hlen h
      · exact hidle h
    obtain ⟨hfresh, hcont⟩ := (s.at cyc).unitLoaded_view l u hmax
    refine ⟨run_crcStart_taken cyc s l u true hok hu hfresh, run_crcStart_taken cyc s l u false hok hu (hcont.trans ?_)⟩
    rw [BitVec.ofNat_toNat, BitVec.setWidth_eq]
    rfl
  · obtain ⟨t, ht, hview, hst, hquiet⟩ := exec_crcScanBlock_taken cyc s l u hruns ⟨hstate, hpos, hlen, hlt, hn, hc⟩
      (scanParts_direct cyc s l u hctx hreach) hclean
    exact ⟨t, ht, congrArg Prod.fst hview, congrArg Prod.snd hview, hst, hquiet⟩
  · obtain ⟨t, ht, hst, htold, hmem, hview⟩ := exec_crcScanBlock_poisoned cyc s l u hruns ⟨hstate, hpos, hlen, hlt, hn, hc⟩
      (scanParts_direct cyc s l u hctx hreach) hbad
    exact ⟨t, ht, hst, htold, hmem, congrArg Prod.fst hview, congrArg Prod.snd hview⟩
  · have hsame := Mach.translate_congr (m' := s.at cyc) (m := s.m) (fun _ => rfl) rfl s.mem l c
      (s.m.rd64 (Reg.CRC_U_ADDR_LO l.ix u) (Reg.CRC_U_ADDR_HI l.ix u) + pos) false
    obtain ⟨t, ht, hst, htold, hirq, hview⟩ := exec_crcScanBlock_faulted cyc s l u hruns ⟨hstate, hpos, hlen, hlt, hn, hc⟩ rfl
      (fun h => hcause (hsame ▸ h)) (fun h => hwalk (hsame ▸ h))
    exact ⟨t, ht, hst, htold, hirq, congrArg Prod.fst hview, congrArg Prod.snd hview⟩

end Sys2Proof.Machine
end

section
/-! The end of boot (R454 to R456, R471). -/

namespace Sys2Proof.Machine

theorem runMem_leaves {s : State} {cyc : Nat} {f : Mach → List Host.Cell → Mach × List Host.Cell} {m : Mach} {regs : List Nat}
    {es : List Event} (hf : f (s.at cyc) s.mem = (m, s.mem)) (hr : ∀ b, b ∉ regs → m.rd b = s.m.rd b)
    (he : m.time.raised = s.m.time.raised ++ es) :
    ∃ t, runMem s cyc f = .next t ∧ t.m = m.settle ∧ SameRegsBut s t regs ∧ SameMemory s t ∧ Raises s t es :=
  ⟨_, runMem_eq hf, rfl, fun b hb => (Mach.settle_rd _ b).trans (hr b hb), fun _ => rfl, he⟩

section
variable (s : State) (cyc : Nat)

theorem State.at_pwr : (s.at cyc).pwr = s.m.pwr := rfl

theorem State.at_tick : (s.at cyc).tick = s.m.tick := rfl
end

/-! ### A lane's code and the roles (R302) -/

section
variable (m : Mach) (l : Lane)

theorem Mach.rd_setLaneCode_other (c : Nat) {b : Nat} (hs : b ≠ Reg.LANE_STATUS) (hh : b ≠ healthReg l) :
    (m.setLaneCode l c).rd b = m.rd b := by
  unfold Mach.setLaneCode
  rw [Mach.rd_setFld, if_neg hh]
  cases l
  · exact (m.rd_setFld ..).trans (if_neg hs)
  · exact (m.rd_setFld ..).trans (if_neg hs)

theorem Mach.laneCode_setLaneCode {c : Nat} (hc : c < 8) : (m.setLaneCode l c).laneCode l = c := by
  cases l
  · exact (Mach.fld_setFld_other _ _ (by decide) (by decide) (by decide) (by decide)).trans
      ((Mach.fld_setFld m c (by decide) (by decide)).trans (Nat.mod_eq_of_lt hc))
  · exact (Mach.fld_setFld_other _ _ (by decide) (by decide) (by decide) (by decide)).trans
      ((Mach.fld_setFld m c (by decide) (by decide)).trans (Nat.mod_eq_of_lt hc))

theorem Mach.laneCode_setLaneCode_other (c : Nat) : (m.setLaneCode l c).laneCode l.other = m.laneCode l.other := by
  cases l
  · exact (Mach.fld_setFld_other _ _ (by decide) (by decide) (by decide) (by decide)).trans
      (Mach.fld_setFld_other m c (by decide) (by decide) (by decide) (by decide))
  · exact (Mach.fld_setFld_other _ _ (by decide) (by decide) (by decide) (by decide)).trans
      (Mach.fld_setFld_other m c (by decide) (by decide) (by decide) (by decide))

theorem Mach.rd_setRoles_other {b : Nat} (h : b ≠ Reg.LANE_STATUS) : m.setRoles.rd b = m.rd b := by
  unfold Mach.setRoles
  dsimp only
  rw [Mach.rd_setFld, if_neg h, Mach.rd_setFld, if_neg h]

/-- The roles leave every lane's code as it is. -/
theorem Mach.laneCode_setRoles : m.setRoles.laneCode l = m.laneCode l := by
  unfold Mach.setRoles
  dsimp only
  cases l
  · exact (Mach.fld_setFld_other _ _ (by decide) (by decide) (by decide) (by decide)).trans
      (Mach.fld_setFld_other m _ (by decide) (by decide) (by decide) (by decide))
  · exact (Mach.fld_setFld_other _ _ (by decide) (by decide) (by decide) (by decide)).trans
      (Mach.fld_setFld_other m _ (by decide) (by decide) (by decide) (by decide))

theorem Mach.laneCode_congr {m m' : Mach} (h : m'.rd Reg.LANE_STATUS = m.rd Reg.LANE_STATUS) (l : Lane) : m'.laneCode l = m.laneCode l := by
  cases l
  · exact congrArg (·.bits 9 7) h
  · exact congrArg (·.bits 12 10) h

theorem Mach.live_of_laneCode {m : Mach} {l : Lane} (h : m.laneCode l = 1) : m.live l = true := beq_iff_eq.2 h

/-- PWR_STATUS bit 6, the safe outputs' line: open in the recovery state. -/
theorem Mach.setLines_line_of_recovery (h : m.bit Reg.IMG_STATUS 27 = true) : m.setLines.bit Reg.PWR_STATUS 6 = false := by
  unfold Mach.setLines
  dsimp only
  rw [h, Mach.bit_setBit_other _ _ (by decide) (.inr (by decide)), Mach.bit_setBit _ _ (by decide)]
  simp
end

/-! ### Boot's diagnostics -/

/-- The registers that the diagnostics of the gates and of the buck slot write. -/
abbrev diagRegs : List Nat :=
  (List.range 24).map Reg.GDL_LEG_STAT ++ ((List.range 16).map Reg.GDI_PR_DIAG ++ [Reg.LVC_DIAG, Reg.LVC_DIAG_REQ])

/-- What the diagnostics leave alone beside registers. -/
def Mach.besideDiag (m : Mach) : Mach :=
  { m with regs := [], setNow := [], gate := default, lvc := default, time := { m.time with raised := [], evcnt := 0 } }

/-- No more than the diagnostics' own registers and parts, and what is told, has changed. -/
structure Mach.DiagKept (m m' : Mach) : Prop where
  raised : m.time.raised <+: m'.time.raised
  beside : m'.besideDiag = m.besideDiag
  rd : ∀ b, b ∉ diagRegs → m'.rd b = m.rd b

section
variable (m : Mach)

theorem Mach.DiagKept.refl : m.DiagKept m := ⟨List.prefix_rfl, rfl, fun _ _ => rfl⟩

variable {m} in
theorem Mach.DiagKept.trans {m' m'' : Mach} (h : m.DiagKept m') (h' : m'.DiagKept m'') : m.DiagKept m'' :=
  ⟨h.raised.trans h'.raised, h'.beside.trans h.beside, fun b hb => (h'.rd b hb).trans (h.rd b hb)⟩

theorem Mach.DiagKept.onGate (f : GateState → GateState) : m.DiagKept (m.onGate f) := ⟨List.prefix_rfl, rfl, fun _ _ => rfl⟩

theorem Mach.DiagKept.onLvc (f : LvcState → LvcState) : m.DiagKept (m.onLvc f) := ⟨List.prefix_rfl, rfl, fun _ _ => rfl⟩

theorem Mach.DiagKept.raise (code cls slot : Nat) (d : List Nat) (o : Nat) : m.DiagKept (m.raise code cls slot d o) :=
  ⟨List.prefix_append .., rfl, fun _ _ => m.raise_rd ..⟩

theorem Mach.DiagKept.wr {a : Nat} (ha : a ∈ diagRegs) (w : Word) : m.DiagKept (m.wr a w) :=
  ⟨List.prefix_rfl, rfl, fun _ hb => m.rd_wr_other w fun hba => hb (by rwa [hba])⟩

theorem Mach.DiagKept.diagLeg {j : Nat} (hj : j < 24) : m.DiagKept (m.diagLeg j) := by
  have hreg : Reg.GDL_LEG_STAT j ∈ diagRegs := List.mem_append_left _ (List.mem_map_of_mem (List.mem_range.2 hj))
  unfold Mach.diagLeg
  refine iteInduction (fun _ => .refl m) fun _ => iteInduction (fun _ => ?_) fun _ => ?_
  · exact ((Mach.DiagKept.wr m hreg _).trans (.raise ..)).trans (.onGate ..)
  · exact (Mach.DiagKept.wr m hreg _).trans (.onGate ..)

theorem Mach.DiagKept.diagPair {p : Nat} (hp : p < 16) : m.DiagKept (m.diagPair p) := by
  have hreg : Reg.GDI_PR_DIAG p ∈ diagRegs :=
    List.mem_append_right _ (List.mem_append_left _ (List.mem_map_of_mem (List.mem_range.2 hp)))
  unfold Mach.diagPair
  refine iteInduction (fun _ => .refl m) fun _ => iteInduction (fun _ => ?_) fun _ => ?_
  · exact ((Mach.DiagKept.wr m hreg _).trans (.raise ..)).trans (.onGate ..)
  · exact (Mach.DiagKept.wr m hreg _).trans (.onGate ..)

theorem Mach.DiagKept.diagStandby : m.DiagKept m.diagStandby := by
  unfold Mach.diagStandby
  extract_lets first g l m₀
  have hlt : ∀ {n mask x : Nat}, x ∈ bitsOf n mask → x < n := fun h => List.mem_range.1 (List.mem_of_mem_filter h)
  exact forL_induct (P := m.DiagKept) (fun j hj m' hm' => hm'.trans (.diagLeg m' (hlt hj)))
    (forL_induct (P := m.DiagKept) (fun p hp m' hm' => hm'.trans (.diagPair m' (hlt hp))) (.onGate m _))

theorem Mach.DiagKept.lvcDiagTake (mask : Nat) : m.DiagKept (m.lvcDiagTake mask) := by
  have hshow : ∀ (v : Nat) (ks : List Nat) (m : Mach), m.DiagKept (forL ks (fun k m => m.setFld Reg.LVC_DIAG (4 * k + 3) (4 * k) v) m) :=
    fun v ks m => forL_induct (P := m.DiagKept) (fun _ _ m' hm' => hm'.trans (.wr m' (by decide) _)) (.refl m)
  unfold Mach.lvcDiagTake
  extract_lets m₀ ks m₁
  have h₀ : m.DiagKept m₀ := .wr m (by decide) _
  refine iteInduction (fun _ => h₀) fun _ => iteInduction (fun _ => ?_) fun _ => ?_
  · exact (h₀.trans (.onLvc ..)).trans (hshow ..)
  · exact ((h₀.trans (hshow ..)).trans (.raise ..)).trans (.onLvc ..)

theorem Mach.DiagKept.lvcDiagStandby : m.DiagKept m.lvcDiagStandby := by
  unfold Mach.lvcDiagStandby
  extract_lets mask m₀
  exact iteInduction (fun _ => (Mach.DiagKept.onLvc m _).trans (.lvcDiagTake ..)) fun _ => .onLvc m _
end

/-! ### Boot with an image -/

/-- A booting device in STANDBY with its diagnostics asked for. -/
def Mach.bootDiagnosed (m : Mach) : Mach := m.bootMode.diagStandby.lvcDiagStandby

section
variable (m : Mach)

theorem Mach.bootDiagnosed_kept : m.bootMode.DiagKept m.bootDiagnosed := (Mach.DiagKept.diagStandby _).trans (.lvcDiagStandby _)

theorem Mach.bootMode_mode : m.bootMode.mode = .standby := by
  have hcode : m.bootMode.fld Reg.SYS_MODE_STAT 2 0 = 1 :=
    (Mach.fld_setFld_other (m.setFld Reg.SYS_MODE_STAT 2 0 1) 1 (by decide) (by decide) (by decide) (by decide)).trans
      (Mach.fld_setFld m 1 (by decide) (by decide))
  rw [Mach.mode, hcode]
  rfl

theorem Mach.stampTick_rd_other (n : Nat) {b : Nat} (h : b ∉ [Reg.TICK_SEQ_LO, Reg.TICK_SEQ_HI, Reg.TICK_T0_LO, Reg.TICK_T0_HI]) :
    (m.stampTick n).rd b = m.rd b := by
  simp only [List.mem_cons, List.not_mem_nil, or_false, not_or] at h
  obtain ⟨hlo, hhi, htlo, hthi⟩ := h
  have hstamped : (m.stampTick n).rd b =
      ((m.wr64 Reg.TICK_SEQ_LO Reg.TICK_SEQ_HI n).wr64 Reg.TICK_T0_LO Reg.TICK_T0_HI m.now).rd b := rfl
  rw [hstamped, Mach.wr64, Mach.wr64, Mach.rd_wrN, if_neg hthi, Mach.rd_wrN, if_neg htlo, Mach.rd_wrN, if_neg hhi, Mach.rd_wrN, if_neg hlo]

theorem Mach.predict_rd_other (arr : Nat) {b : Nat} (h₀ : b ≠ Reg.TICK_PREDICT 0) (h₁ : b ≠ Reg.TICK_PREDICT 1) :
    (m.predict arr).rd b = m.rd b := by
  unfold Mach.predict
  dsimp only
  rw [Mach.rd_wrN, if_neg h₁, Mach.rd_wrN, if_neg h₀]

variable (levels : List (Bool × Bool)) (halls : List Nat) (arr : Nat)

/-- A device whose boot has ended, at tick 0. -/
def Mach.started (m : Mach) (levels : List (Bool × Bool)) (halls : List Nat) (arr : Nat) : Mach :=
  ((m.bootStart levels halls).predict arr).stampTick 0

/-- A diagnosed device with its lanes LIVE. -/
def Mach.bootLanes (m : Mach) : Mach :=
  ((((m.bootTold).onPwr fun p => { p with booted := true, tries := 0 }).setLaneCode .a 1).setLaneCode .b 1).setRoles

/-- A device with its lanes LIVE, whose position inputs, evaluators and tick begin. -/
def Mach.bootBegins (m : Mach) (levels : List (Bool × Bool)) (halls : List Nat) : Mach :=
  (((m.posStart levels halls).onEval true fun e => { e with lastAt := some (m.posStart levels halls).now }).onEval false
    fun e => { e with lastAt := some (m.posStart levels halls).now }).onTicks fun t => { t with running := true, begun := false }

theorem Mach.bootBegins_rd (b : Nat) : (m.bootBegins levels halls).rd b = m.rd b := rfl

theorem Mach.bootStart_eq : m.bootStart levels halls = (m.bootDiagnosed.bootLanes.bootBegins levels halls).setLines := rfl

theorem Mach.bootStart_rd {b : Nat} (h : b ≠ Reg.PWR_STATUS) : (m.bootStart levels halls).rd b = m.bootDiagnosed.bootLanes.rd b := by
  rw [Mach.bootStart_eq, Mach.setLines_rd h, Mach.bootBegins_rd]

theorem Mach.started_rd {b : Nat} (h : b ∉ [Reg.PWR_STATUS, Reg.TICK_PREDICT 0, Reg.TICK_PREDICT 1, Reg.TICK_SEQ_LO, Reg.TICK_SEQ_HI,
      Reg.TICK_T0_LO, Reg.TICK_T0_HI]) : (m.started levels halls arr).rd b = m.bootDiagnosed.bootLanes.rd b := by
  rw [List.mem_cons, List.mem_cons, List.mem_cons, not_or, not_or, not_or] at h
  obtain ⟨hpwr, h₀, h₁, htick⟩ := h
  exact ((Mach.stampTick_rd_other _ 0 htick).trans (Mach.predict_rd_other _ arr h₀ h₁)).trans (m.bootStart_rd levels halls hpwr)

theorem Mach.bootLanes_rd {b : Nat} (h : b ∉ [Reg.LANE_STATUS, healthReg .a, healthReg .b]) : m.bootLanes.rd b = m.bootTold.rd b := by
  simp only [List.mem_cons, List.not_mem_nil, or_false, not_or] at h
  obtain ⟨hs, ha, hb⟩ := h
  rw [Mach.bootLanes, Mach.rd_setRoles_other _ hs, Mach.rd_setLaneCode_other _ _ _ hs hb, Mach.rd_setLaneCode_other _ _ _ hs ha]
  rfl

theorem Mach.bootLanes_laneCode (l : Lane) : m.bootLanes.laneCode l = 1 := by
  rw [Mach.bootLanes, Mach.laneCode_setRoles]
  cases l
  · exact (Mach.laneCode_setLaneCode_other _ .b 1).trans (Mach.laneCode_setLaneCode _ .a (by decide))
  · exact Mach.laneCode_setLaneCode _ .b (by decide)

/-- What the end of boot tells: its cause, and the time and sources of a wake. -/
def Mach.bootEvents (m : Mach) : List Event :=
  [eventAt m 0x4802 0 0xFF [(m.rd Reg.PWR_RSTCAUSE).toNat % 256] 0,
    eventAt m 0x4801 0 0xFF (leBytes 4 (m.now / 2000) ++ leBytes 2 (m.rd Reg.PWR_WAKE).toNat) 0]

theorem Mach.bootTold_tells : m.FocTells [Reg.PWR_IRQ_STAT] m.bootEvents m.bootTold :=
  (((Mach.FocTells.refl m _).raise 0x4802 0 0xFF [(m.rd Reg.PWR_RSTCAUSE).toNat % 256] 0).raise 0x4801 0 0xFF _ 0).orr_of_not_stamp
    (by decide) (by decide) _

theorem Mach.bootTold_irq : m.bootTold.bit Reg.PWR_IRQ_STAT 5 = true := Mach.bit_orr (i := 5) _ (by decide)

theorem Mach.started_raised : (m.started levels halls arr).time.raised = m.bootDiagnosed.bootTold.time.raised := rfl

theorem Mach.bootDiagnosed_events : m.bootDiagnosed.bootEvents ⊆ (m.started levels halls arr).time.raised := by
  rw [m.started_raised, m.bootDiagnosed.bootTold_tells.raised]
  exact List.subset_append_right ..

theorem Mach.bootDiagnosed_rd {b : Nat} (hs : b ≠ Reg.SYS_MODE_STAT) (h : b ∉ diagRegs) : m.bootDiagnosed.rd b = m.rd b := by
  refine (m.bootDiagnosed_kept.rd b h).trans ?_
  have hmode : m.bootMode.rd b = ((m.setFld Reg.SYS_MODE_STAT 2 0 1).setFld Reg.SYS_MODE_STAT 6 4 1).rd b := rfl
  rw [hmode, Mach.rd_setFld, if_neg hs, Mach.rd_setFld, if_neg hs]

theorem Mach.bootDiagnosed_now : m.bootDiagnosed.now = m.now := (congrArg (·.time.t) m.bootDiagnosed_kept.beside).trans rfl

theorem Mach.started_mode : (m.started levels halls arr).mode = .standby := by
  have hstat : (m.started levels halls arr).rd Reg.SYS_MODE_STAT = m.bootMode.rd Reg.SYS_MODE_STAT := by
    rw [Mach.started_rd _ _ _ _ (by decide), Mach.bootLanes_rd _ (by decide), (Mach.bootTold_tells _).rd _ (by decide),
      m.bootDiagnosed_kept.rd _ (by decide)]
  rw [← m.bootMode_mode, Mach.mode, Mach.mode, Mach.fld, Mach.fld, hstat]

theorem Mach.started_live (l : Lane) : (m.started levels halls arr).live l = true :=
  Mach.live_of_laneCode
    ((Mach.laneCode_congr (m.started_rd levels halls arr (by decide)) l).trans (m.bootDiagnosed.bootLanes_laneCode l))

theorem Mach.started_irq : (m.started levels halls arr).bit Reg.PWR_IRQ_STAT 5 = true := by
  rw [Mach.bit, Mach.started_rd _ _ _ _ (by decide), Mach.bootLanes_rd _ (by decide)]
  exact m.bootDiagnosed.bootTold_irq

/-- The events of a boot with the cause, the time and the sources that the device booted with. -/
theorem Mach.started_told : (∃ e ∈ (m.started levels halls arr).time.raised, e.code = 0x4802 ∧ e.cls = 0 ∧
      e.data = [(m.rd Reg.PWR_RSTCAUSE).toNat % 256]) ∧
    ∃ e ∈ (m.started levels halls arr).time.raised, e.code = 0x4801 ∧ e.cls = 0 ∧
      e.data = leBytes 4 (m.now / 2000) ++ leBytes 2 (m.rd Reg.PWR_WAKE).toNat := by
  have htold := m.bootDiagnosed_events levels halls arr
  rw [Mach.bootEvents, m.bootDiagnosed_rd (b := Reg.PWR_RSTCAUSE) (by decide) (by decide),
    m.bootDiagnosed_rd (b := Reg.PWR_WAKE) (by decide) (by decide), m.bootDiagnosed_now] at htold
  exact ⟨⟨_, htold List.mem_cons_self, rfl, rfl, rfl⟩, ⟨_, htold (List.mem_cons_of_mem _ List.mem_cons_self), rfl, rfl, rfl⟩⟩
end

/-! ### Boot without an image (R456) -/

section
variable (m : Mach)

/-- A device in the recovery state before its lines show it. -/
def Mach.recovering (m : Mach) : Mach :=
  ((m.setBit Reg.IMG_STATUS 27 true).onPwr fun p => { p with booted := true }).setLaneCode .b 2

theorem Mach.recovering_rd {b : Nat} (h : b ∉ [Reg.IMG_STATUS, Reg.LANE_STATUS, healthReg .b]) : m.recovering.rd b = m.rd b := by
  simp only [List.mem_cons, List.not_mem_nil, or_false, not_or] at h
  obtain ⟨himg, hs, hb⟩ := h
  rw [Mach.recovering, Mach.rd_setLaneCode_other _ _ _ hs hb]
  exact (m.rd_setBit ..).trans (if_neg himg)

theorem Mach.recovering_image : m.recovering.bit Reg.IMG_STATUS 27 = true := by
  rw [Mach.bit, Mach.recovering, Mach.rd_setLaneCode_other _ _ _ (by decide) (by decide)]
  exact m.bit_setBit _ (by decide)

theorem Mach.recovering_laneCode : m.recovering.laneCode .b = 2 ∧ m.recovering.laneCode .a = m.laneCode .a :=
  ⟨Mach.laneCode_setLaneCode _ .b (by decide), (Mach.laneCode_setLaneCode_other _ .b 2).trans
    (Mach.laneCode_congr ((m.rd_setBit ..).trans (if_neg (by decide))) .a)⟩

theorem Mach.bootRecovery_eq : m.bootRecovery = m.recovering.setLines := rfl

theorem Mach.bootRecovery_rd {b : Nat} (h : b ∉ [Reg.IMG_STATUS, Reg.LANE_STATUS, healthReg .b, Reg.PWR_STATUS]) :
    m.bootRecovery.rd b = m.rd b := by
  have hpwr : b ≠ Reg.PWR_STATUS := fun hb => h (by rw [hb]; decide)
  rw [Mach.bootRecovery_eq, Mach.setLines_rd hpwr]
  exact m.recovering_rd fun hb => h (List.mem_append_left [Reg.PWR_STATUS] hb)

theorem Mach.bootRecovery_pwr : m.bootRecovery.pwr = { m.pwr with booted := true } := rfl

theorem Mach.bootRecovery_tick : m.bootRecovery.tick = m.tick := rfl

theorem Mach.bootRecovery_shown : m.bootRecovery.bit Reg.IMG_STATUS 27 = true ∧ m.bootRecovery.laneCode .b = 2 ∧
    m.bootRecovery.laneCode .a = m.laneCode .a ∧ m.bootRecovery.bit Reg.PWR_STATUS 6 = false := by
  have hlanes := Mach.laneCode_congr (Mach.setLines_rd (m := m.recovering) (b := Reg.LANE_STATUS) (by decide))
  refine ⟨?_, (hlanes .b).trans m.recovering_laneCode.1, (hlanes .a).trans m.recovering_laneCode.2,
    m.recovering.setLines_line_of_recovery m.recovering_image⟩
  rw [Mach.bootRecovery_eq, Mach.bit, Mach.setLines_rd (by decide)]
  exact m.recovering_image
end

/-- Settles O59: a boot with an image by what its last steps write, one without by the lines of the recovery state. -/
theorem bootEndsInStandbyOrRecovery : Obligations.BootEndsInStandbyOrRecovery := by
  intro cyc levels halls env s ready started
  have hstarted : started = (s.at cyc).started levels halls (s.at cyc).arr := rfl
  have hgo : ready → ¬((s.at cyc).pwr.booted || (s.at cyc).pwr.due.isSome || (s.at cyc).pwr.phase != .up) = true := by
    rintro ⟨hbooted, hdue, hphase⟩
    have hpwr : (s.at cyc).pwr = s.m.pwr := rfl
    rw [hpwr, hbooted, hdue, hphase]
    decide
  refine ⟨fun hready hloaded => ?_, ⟨?_, rfl, rfl, rfl, rfl, ?_, ?_, ?_, rfl, ?_, ?_⟩, fun hready hloaded => ?_, fun hnot => ?_⟩
  · have hload : ¬(!(s.at cyc).image.loaded) = true := by
      have himage : (s.at cyc).image = s.m.image := rfl
      rw [himage, hloaded]
      decide
    exact ⟨_, runMem_eq (f := fun m mem => m.bootComplete mem levels halls env) ((if_neg (hgo hready)).trans (if_neg hload)), rfl, rfl⟩
  · exact (s.at cyc).started_mode levels halls _
  · exact (s.at cyc).started_live levels halls _ .a
  · exact (s.at cyc).started_live levels halls _ .b
  · exact Mach.stampTick_seq _ 0
  · exact (s.at cyc).started_irq levels halls _
  · exact (s.at cyc).started_told levels halls _
  · have hblank : (!(s.at cyc).image.loaded) = true := by
      have himage : (s.at cyc).image = s.m.image := rfl
      rw [himage, hloaded]
      decide
    obtain ⟨t, ht, hm, hquiet⟩ := runMem_leaves (s := s) (cyc := cyc) (f := fun m mem => m.bootComplete mem levels halls env)
      ((if_neg (hgo hready)).trans (if_pos hblank)) (fun _ => Mach.bootRecovery_rd _) (List.append_nil _).symm
    obtain ⟨himg, hb, ha, hline⟩ := (s.at cyc).bootRecovery_shown
    refine ⟨t, ht, ?_, ?_, ?_, ?_, ?_, ?_, ?_, hquiet⟩
    · exact hm ▸ (Mach.settle_bit ..).trans himg
    · exact hm ▸ (Mach.laneCode_congr (Mach.settle_rd _ _) _).trans hb
    · rw [hm, Mach.laneCode_congr (Mach.settle_rd _ _), ha]
      exact Mach.laneCode_congr rfl .a
    · rw [hm, Mach.settle_pwr, Mach.bootRecovery_pwr, State.at_pwr]
    · rw [hm, Mach.settle_tick, Mach.bootRecovery_tick, State.at_tick]
    · rw [hm]
      exact Mach.mode_congr ((Mach.settle_rd _ _).trans (Mach.bootRecovery_rd _ (by decide)))
    · exact hm ▸ (Mach.settle_bit ..).trans hline
  · have hrest : ((s.at cyc).pwr.booted || (s.at cyc).pwr.due.isSome || (s.at cyc).pwr.phase != .up) = true := by
      by_contra hno
      rw [Bool.or_eq_true, Bool.or_eq_true, not_or, not_or] at hno
      obtain ⟨⟨hbooted, hdue⟩, hphase⟩ := hno
      exact hnot ⟨Bool.not_eq_true _ ▸ hbooted, Option.not_isSome_iff_eq_none.1 hdue, bne_eq_false_iff_eq.1 (Bool.not_eq_true _ ▸ hphase)⟩
    obtain ⟨t, ht, hm, hquiet⟩ := runMem_makes (s := s) (cyc := cyc) (f := fun m mem => m.bootComplete mem levels halls env)
      (if_pos hrest) (Mach.FocTells.refl _ [])
    exact ⟨t, ht, by rw [hm]; rfl, by rw [hm]; rfl, hquiet⟩

end Sys2Proof.Machine
end

section
/-! The fault capture (R384 to R386). -/

namespace Sys2Proof.Machine

/-! ### Words by their bits -/

theorem Word.eq_of_bit {v w : Word} (h : ∀ i < 32, Word.bit v i = Word.bit w i) : v = w := BitVec.eq_of_getLsbD_eq h

/-! ### The state of the capture -/

section
variable (m : Mach)

theorem Mach.capState_congr {m m' : Mach} (h : m'.rd Reg.TIME_CAPSTAT = m.rd Reg.TIME_CAPSTAT) : m'.capState = m.capState :=
  congrArg (·.bits 31 29) h

theorem Mach.setCap_state {c : Nat} (hc : c < 8) : (m.setCap c).capState = c :=
  (Mach.fld_setFld_other _ _ (by decide) (by decide) (by decide) (by decide)).trans
    ((Mach.fld_setFld m c (by decide) (by decide)).trans (Nat.mod_eq_of_lt hc))

theorem Mach.setCap_rd_other (c : Nat) {b : Nat} (h : b ≠ Reg.TIME_CAPSTAT) : (m.setCap c).rd b = m.rd b :=
  (Mach.rd_wr_other _ _ h).trans (Mach.rd_wr_other m _ h)

variable {m} in
theorem Mach.FocTells.setCap {m' : Mach} {regs : List Nat} {es : List Event} (h : m.FocTells regs es m') (ha : Reg.TIME_CAPSTAT ∈ regs)
    (c : Nat) : m.FocTells regs es (m'.setCap c) := (h.wr ha (by decide) _).wr ha (by decide) _
end

/-! ### A write of TIME_CAPCFG (R385, R392) -/

section
variable (m : Mach) (v : Word)

/-- The capture waits for a trigger or for the lines after it. -/
def Mach.capArmed (m : Mach) : Bool := m.capState == 1 || m.capState == 2

/-- The capture's state after a write of TIME_CAPCFG: DISARM ends one that is armed. -/
def Mach.capNext (m : Mach) (v : Word) : Nat := if v.bit 30 ∧ m.capArmed then 0 else m.capState

/-- TIME_CAPCFG after a write, but for ARM: an armed capture keeps its configuration. -/
def Mach.capKept (m : Mach) (v : Word) : Word :=
  let w := if m.capArmed then m.rd Reg.TIME_CAPCFG else m.rd Reg.TIME_CAPCFG &&& 0x80000000#32 ||| (v &&& 0x3FFF0000#32)
  if v.bit 30 then w.withBit 31 false else w

/-- A write of TIME_CAPCFG but for its commands. -/
def Mach.capConfigured (m : Mach) (v : Word) : Mach :=
  if m.capArmed then m else m.wr Reg.TIME_CAPCFG (m.rd Reg.TIME_CAPCFG &&& 0x80000000#32 ||| (v &&& 0x3FFF0000#32))

/-- DISARM. -/
def Mach.capReleased (m : Mach) (armed : Bool) : Mach :=
  ((if armed then m.setCap 0 else m).onTime fun t => { t with armPending := false }).setBit Reg.TIME_CAPCFG 31 false

/-- A write of TIME_CAPCFG but for its ARM bit. -/
def Mach.capDisarm (m : Mach) (v : Word) : Mach :=
  if v.bit 30 then (m.capConfigured v).capReleased m.capArmed else m.capConfigured v

/-- ARM, but in the course of a copy. -/
def Mach.capAsked (m : Mach) (v : Word) : Mach :=
  if v.bit 31 ∧ m.capState ≠ 4 then (m.onTime fun t => { t with armPending := true }).setBit Reg.TIME_CAPCFG 31 true else m

/-- The registers that a write of TIME_CAPCFG may change. -/
def Mach.capRegs (m : Mach) : List Nat := if m.capArmed then [Reg.TIME_CAPCFG, Reg.TIME_CAPSTAT] else [Reg.TIME_CAPCFG]

theorem Mach.capConfig_eq : m.capConfig v = (m.capDisarm v).capAsked v := by
  by_cases h : v.bit 30 = true
  · rw [Mach.capDisarm, if_pos h]
    unfold Mach.capConfig
    simp only [if_pos h]
    rfl
  · rw [Mach.capDisarm, if_neg h]
    unfold Mach.capConfig
    simp only [if_neg h]
    rfl

theorem Mach.capCfg_mem_capRegs : Reg.TIME_CAPCFG ∈ m.capRegs := by
  unfold Mach.capRegs
  split <;> decide

theorem Mach.capConfigured_time : (m.capConfigured v).time = m.time := by
  unfold Mach.capConfigured
  split <;> rfl

theorem Mach.capConfigured_state : (m.capConfigured v).capState = m.capState := by
  unfold Mach.capConfigured
  split
  · rfl
  · exact Mach.capState_congr (Mach.rd_wr_other m _ (by decide))

theorem Mach.capConfigured_cfg : (m.capConfigured v).rd Reg.TIME_CAPCFG =
    if m.capArmed then m.rd Reg.TIME_CAPCFG else m.rd Reg.TIME_CAPCFG &&& 0x80000000#32 ||| (v &&& 0x3FFF0000#32) := by
  unfold Mach.capConfigured
  split
  · rfl
  · exact Mach.rd_wr_self ..

theorem Mach.capConfigured_tells : m.FocTells m.capRegs [] (m.capConfigured v) := by
  have hin := m.capCfg_mem_capRegs
  unfold Mach.capConfigured
  exact iteInduction (fun _ => .refl m _) fun _ => (Mach.FocTells.refl m _).wr hin (by decide) _

section
variable (armed : Bool)

theorem Mach.capReleased_time : (m.capReleased armed).time = { m.time with armPending := false } := by
  cases armed <;> rfl

theorem Mach.capReleased_stat : (m.capReleased armed).rd Reg.TIME_CAPSTAT = (if armed then m.setCap 0 else m).rd Reg.TIME_CAPSTAT := by
  rw [Mach.capReleased, Mach.rd_setBit, if_neg (by decide), Mach.onTime_rd]

theorem Mach.capReleased_state : (m.capReleased armed).capState = if armed then 0 else m.capState := by
  rw [Mach.capState_congr (m.capReleased_stat armed)]
  cases armed
  · rfl
  · exact Mach.setCap_state m (by decide)

theorem Mach.capReleased_cfg : (m.capReleased armed).rd Reg.TIME_CAPCFG = (m.rd Reg.TIME_CAPCFG).withBit 31 false := by
  rw [Mach.capReleased, Mach.rd_setBit, if_pos rfl, Mach.onTime_rd]
  cases armed
  · rfl
  · rw [if_pos rfl, Mach.setCap_rd_other m 0 (by decide)]

variable {m} in
theorem Mach.FocTells.capReleased {m₀ : Mach} {regs : List Nat} (h : m₀.FocTells regs [] m) (hcfg : Reg.TIME_CAPCFG ∈ regs)
    (hstat : armed = true → Reg.TIME_CAPSTAT ∈ regs) : m₀.FocTells regs [] (m.capReleased armed) := by
  have hset : m₀.FocTells regs [] (if armed then m.setCap 0 else m) := iteInduction (fun ha => h.setCap (hstat ha) 0) fun _ => h
  exact (hset.onTime rfl rfl rfl).wr hcfg (by decide) _
end

theorem Mach.capDisarm_time : (m.capDisarm v).time = { m.time with armPending := m.time.armPending && !v.bit 30 } := by
  unfold Mach.capDisarm
  cases v.bit 30
  · rw [Bool.not_false, Bool.and_true]
    exact (if_neg Bool.false_ne_true).symm ▸ m.capConfigured_time v
  · rw [Bool.not_true, Bool.and_false, if_pos rfl, Mach.capReleased_time, Mach.capConfigured_time]

theorem Mach.capDisarm_state : (m.capDisarm v).capState = m.capNext v := by
  unfold Mach.capDisarm Mach.capNext
  cases v.bit 30
  · rw [if_neg Bool.false_ne_true, Mach.capConfigured_state]
    exact (if_neg fun h => Bool.false_ne_true h.1).symm
  · rw [if_pos rfl, Mach.capReleased_state, Mach.capConfigured_state]
    simp only [true_and]

theorem Mach.capDisarm_cfg : (m.capDisarm v).rd Reg.TIME_CAPCFG = m.capKept v := by
  unfold Mach.capDisarm Mach.capKept
  rw [← Mach.capConfigured_cfg]
  split
  · exact Mach.capReleased_cfg ..
  · rfl

theorem Mach.capDisarm_tells : m.FocTells m.capRegs [] (m.capDisarm v) := by
  have hcfg := m.capConfigured_tells v
  have hstat : m.capArmed = true → Reg.TIME_CAPSTAT ∈ m.capRegs := fun ha => by
    rw [Mach.capRegs, if_pos ha]
    decide
  exact iteInduction (fun _ => hcfg.capReleased _ m.capCfg_mem_capRegs hstat) fun _ => hcfg

/-- A write of TIME_CAPCFG with ARM, but in the course of a copy, waits for the next boundary. -/
theorem Mach.capConfig_arm (h31 : v.bit 31 = true) (h4 : m.capNext v ≠ 4) :
    (m.capConfig v).capState = m.capNext v ∧ (m.capConfig v).time = { m.time with armPending := true } ∧
      (m.capConfig v).rd Reg.TIME_CAPCFG = (m.capKept v).withBit 31 true ∧ m.FocTells m.capRegs [] (m.capConfig v) := by
  have harm : v.bit 31 = true ∧ (m.capDisarm v).capState ≠ 4 := ⟨h31, m.capDisarm_state v ▸ h4⟩
  rw [Mach.capConfig_eq, Mach.capAsked, if_pos harm]
  refine ⟨?_, ?_, ?_, ((m.capDisarm_tells v).onTime rfl rfl rfl).wr m.capCfg_mem_capRegs (by decide) _⟩
  · exact (Mach.capState_congr (Mach.rd_wr_other _ _ (by decide))).trans (m.capDisarm_state v)
  · exact (congrArg (fun t : TimeState => { t with armPending := true }) (m.capDisarm_time v)).trans rfl
  · exact (Mach.rd_wr_self ..).trans (congrArg (·.withBit 31 true) (m.capDisarm_cfg v))

/-- Without ARM, and in the course of a copy, it does no more than DISARM and the configuration. -/
theorem Mach.capConfig_still (h : v.bit 31 = false ∨ m.capNext v = 4) :
    (m.capConfig v).capState = m.capNext v ∧ (m.capConfig v).time = { m.time with armPending := m.time.armPending && !v.bit 30 } ∧
      (m.capConfig v).rd Reg.TIME_CAPCFG = m.capKept v ∧ m.FocTells m.capRegs [] (m.capConfig v) := by
  have hstill : ¬(v.bit 31 = true ∧ (m.capDisarm v).capState ≠ 4) := by
    rw [m.capDisarm_state v]
    rintro ⟨h31, h4⟩
    exact h.elim (fun h => Bool.false_ne_true (h.symm.trans h31)) h4
  rw [Mach.capConfig_eq, Mach.capAsked, if_neg hstill]
  exact ⟨m.capDisarm_state v, m.capDisarm_time v, m.capDisarm_cfg v, m.capDisarm_tells v⟩

variable {m} in
theorem Mach.capWrite_congr {m' : Mach} (h : ∀ b, m'.rd b = m.rd b) :
    m'.capNext v = m.capNext v ∧ m'.capKept v = m.capKept v ∧ m'.capRegs = m.capRegs := by
  have hst : m'.capState = m.capState := Mach.capState_congr (h _)
  have harmed : m'.capArmed = m.capArmed := by rw [Mach.capArmed, Mach.capArmed, hst]
  rw [Mach.capNext, Mach.capNext, Mach.capKept, Mach.capKept, Mach.capRegs, Mach.capRegs, harmed, hst, h]
  exact ⟨rfl, rfl, rfl⟩
end

section
variable {s : State} {l : Lane} (cyc : Nat) {v : Word} (hroute : s.m.route l = .now)
include hroute

theorem capCfgWrite_arm (h31 : v.bit 31 = true) (h4 : s.m.capNext v ≠ 4) :
    ∃ t, capCfgWrite cyc (.lane l) v s = .next t ∧ t.m.capState = s.m.capNext v ∧
      t.m.time = { (s.at cyc).time with armPending := true } ∧ t.m.rd Reg.TIME_CAPCFG = (s.m.capKept v).withBit 31 true ∧
      Quiet s t s.m.capRegs := by
  obtain ⟨hnext, hkept, hregs⟩ := Mach.capWrite_congr (m := s.m) (m' := (s.at cyc).noted l Reg.TIME_CAPCFG v) v
    fun b => (Mach.noted_rd ..).trans (State.at_rd ..)
  obtain ⟨hst, htime, hcfg, htells⟩ := ((s.at cyc).noted l Reg.TIME_CAPCFG v).capConfig_arm v h31 (hnext ▸ h4)
  rw [hnext] at hst
  rw [hkept] at hcfg
  rw [hregs] at htells
  rw [Mach.noted_time] at htime
  obtain ⟨t, ht, hm, hquiet⟩ := run_devWrite_now (cyc := cyc) (a := Reg.TIME_CAPCFG) (eff := fun m => m.capConfig v) hroute rfl
    (((Mach.FocTells.refl (s.at cyc) s.m.capRegs).noted l Reg.TIME_CAPCFG v).trans htells)
  refine ⟨t, ht, ?_, ?_, ?_, hquiet⟩
  · exact hm ▸ (Mach.capState_congr (Mach.settle_rd ..)).trans hst
  · exact (congrArg Mach.time hm).trans ((Mach.settle_time _).trans htime)
  · exact hm ▸ (Mach.settle_rd ..).trans hcfg

theorem capCfgWrite_still (h : v.bit 31 = false ∨ s.m.capNext v = 4) :
    ∃ t, capCfgWrite cyc (.lane l) v s = .next t ∧ t.m.capState = s.m.capNext v ∧
      t.m.time = { (s.at cyc).time with armPending := (s.at cyc).time.armPending && !v.bit 30 } ∧
      t.m.rd Reg.TIME_CAPCFG = s.m.capKept v ∧ Quiet s t s.m.capRegs := by
  obtain ⟨hnext, hkept, hregs⟩ := Mach.capWrite_congr (m := s.m) (m' := (s.at cyc).noted l Reg.TIME_CAPCFG v) v
    fun b => (Mach.noted_rd ..).trans (State.at_rd ..)
  obtain ⟨hst, htime, hcfg, htells⟩ := ((s.at cyc).noted l Reg.TIME_CAPCFG v).capConfig_still v (hnext ▸ h)
  rw [hnext] at hst
  rw [hkept] at hcfg
  rw [hregs] at htells
  rw [Mach.noted_time] at htime
  obtain ⟨t, ht, hm, hquiet⟩ := run_devWrite_now (cyc := cyc) (a := Reg.TIME_CAPCFG) (eff := fun m => m.capConfig v) hroute rfl
    (((Mach.FocTells.refl (s.at cyc) s.m.capRegs).noted l Reg.TIME_CAPCFG v).trans htells)
  refine ⟨t, ht, ?_, ?_, ?_, hquiet⟩
  · exact hm ▸ (Mach.capState_congr (Mach.settle_rd ..)).trans hst
  · exact (congrArg Mach.time hm).trans ((Mach.settle_time _).trans htime)
  · exact hm ▸ (Mach.settle_rd ..).trans hcfg
end

/-! ### Configuration words -/

section
variable (v w : Word)

theorem Word.bit_withBit_iff {i : Nat} (hi : i < 32) (b : Bool) (j : Nat) : (w.withBit i b).bit j = if j = i then b else w.bit j := by
  split
  · next h => exact h.symm ▸ Word.bit_withBit w b hi
  · next h => exact Word.bit_withBit_other w b hi (Ne.symm h)

theorem bit_arm : ∀ j < 32, Word.bit 0x80000000#32 j = decide (j = 31) := by decide

theorem bit_disarm : ∀ j < 32, Word.bit 0x40000000#32 j = decide (j = 30) := by decide

theorem bit_commands : ∀ j < 32, Word.bit 0x7FFFFFFF#32 j = !decide (j = 31) := by decide

theorem bit_config : ∀ j < 32, Word.bit 0x3FFF0000#32 j = decide (16 ≤ j ∧ j < 30) := by decide

theorem Word.withBit_arm : w.withBit 31 true = w ||| 0x80000000#32 := Word.eq_of_bit fun j hj => by
  rw [Word.bit_withBit_iff w (by decide), Word.bit_or, bit_arm j hj]
  by_cases h : j = 31 <;> simp [h]

theorem Word.withBit_arm_cleared : (w.withBit 31 false).withBit 31 true = w ||| 0x80000000#32 := Word.eq_of_bit fun j hj => by
  rw [Word.bit_withBit_iff _ (by decide), Word.bit_withBit_iff w (by decide), Word.bit_or, bit_arm j hj]
  by_cases h : j = 31 <;> simp [h]

/-- A configuration written with ARM. -/
theorem configured_arm : (w &&& 0x80000000#32 ||| ((v ||| 0x80000000#32) &&& 0x3FFF0000#32)) ||| 0x80000000#32 =
    0x80000000#32 ||| (v &&& 0x3FFF0000#32) := Word.eq_of_bit fun j hj => by
  simp only [Word.bit_or, Word.bit_and, bit_arm j hj, bit_config j hj]
  by_cases h : j = 31 <;> simp [h]

/-- A configuration written with DISARM. -/
theorem configured_disarm :
    Word.withBit (w &&& 0x80000000#32 ||| (((v ||| 0x40000000#32) &&& 0x7FFFFFFF#32) &&& 0x3FFF0000#32)) 31 false =
      v &&& 0x3FFF0000#32 := Word.eq_of_bit fun j hj => by
  rw [Word.bit_withBit_iff _ (by decide)]
  simp only [Word.bit_or, Word.bit_and, bit_arm j hj, bit_disarm j hj, bit_commands j hj, bit_config j hj]
  by_cases h : j = 31
  · simp [h]
  · by_cases h' : j = 30 <;> simp [h, h']

theorem Word.bits_congr {hi lo : Nat} (h : ∀ j, lo ≤ j → j ≤ hi → Word.bit v j = Word.bit w j) : v.bits hi lo = w.bits hi lo := by
  refine Nat.eq_of_testBit_eq fun i => ?_
  by_cases hin : i < hi + 1 - lo
  · rw [Word.testBit_bits _ hin, Word.testBit_bits _ hin]
    exact h _ (by omega) (by omega)
  · have hbig : ∀ x : Word, (x.bits hi lo).testBit i = false := fun x =>
      Nat.testBit_lt_two_pow ((Word.bits_lt x hi lo).trans_le (Nat.pow_le_pow_right (by decide) (by omega)))
    rw [hbig, hbig]

/-- The configuration that a write in the course of a copy leaves. -/
theorem configured_bits :
    Word.bits (w &&& 0x80000000#32 ||| ((v ||| 0x80000000#32) &&& 0x3FFF0000#32)) 29 16 = v.bits 29 16 ∧
      Word.bits (Word.withBit (w &&& 0x80000000#32 ||| ((v ||| 0x80000000#32) &&& 0x3FFF0000#32)) 31 false) 29 16 = v.bits 29 16 := by
  have hbits : ∀ j, 16 ≤ j → j ≤ 29 → Word.bit (w &&& 0x80000000#32 ||| ((v ||| 0x80000000#32) &&& 0x3FFF0000#32)) j = v.bit j :=
    fun j hlo hhi => by
      have hj : j < 32 := by omega
      have h31 : ¬j = 31 := by omega
      have hin : 16 ≤ j ∧ j < 30 := by omega
      simp only [Word.bit_or, Word.bit_and, bit_arm j hj, bit_config j hj, decide_eq_false h31, decide_eq_true hin, Bool.and_false,
        Bool.false_or, Bool.or_false, Bool.and_true]
  exact ⟨Word.bits_congr _ _ hbits, (Word.bits_withBit_other _ _ (by decide) (by decide) (by decide)).trans (Word.bits_congr _ _ hbits)⟩

end

/-! ### ARM and DISARM -/

theorem armWord_bits (v : Word) : Word.bit (v ||| 0x80000000#32) 31 = true ∧ Word.bit (v ||| 0x80000000#32) 30 = v.bit 30 := by
  simp [bit_arm]

theorem disarmWord_bits (v : Word) : Word.bit ((v ||| 0x40000000#32) &&& 0x7FFFFFFF#32) 31 = false ∧
    Word.bit ((v ||| 0x40000000#32) &&& 0x7FFFFFFF#32) 30 = true := by
  simp [bit_disarm, bit_commands]

section
variable {s : State} {l : Lane} (cyc : Nat) (v : Word) (hroute : s.m.route l = .now)
include hroute

theorem exec_captureArm_idle (h1 : s.m.capState ≠ 1) (h2 : s.m.capState ≠ 2) (h4 : s.m.capState ≠ 4) :
    ∃ t, exec (.captureArm cyc (.lane l) v) s = .next t ∧ t.m.time.armPending = true ∧ t.m.capState = s.m.capState ∧
      t.m.rd Reg.TIME_CAPCFG = 0x80000000#32 ||| (v &&& 0x3FFF0000#32) ∧ Quiet s t [Reg.TIME_CAPCFG] := by
  have harmed : s.m.capArmed = false := by simp [Mach.capArmed, h1, h2]
  have hnext : s.m.capNext (v ||| 0x80000000#32) = s.m.capState := if_neg fun h => Bool.false_ne_true (harmed.symm.trans h.2)
  have hregs : s.m.capRegs = [Reg.TIME_CAPCFG] := by
    rw [Mach.capRegs, harmed]
    rfl
  obtain ⟨t, ht, hst, htime, hcfg, hquiet⟩ := capCfgWrite_arm cyc (v := v ||| 0x80000000#32) hroute (armWord_bits v).1 (hnext ▸ h4)
  refine ⟨t, ht, by rw [htime], hst.trans hnext, hcfg.trans ?_, hregs ▸ hquiet⟩
  rw [Mach.capKept, harmed]
  simp only [Bool.false_eq_true, if_false]
  split
  · rw [Word.withBit_arm_cleared, configured_arm]
  · rw [Word.withBit_arm, configured_arm]

theorem exec_captureArm_armed (h : s.m.capState = 1 ∨ s.m.capState = 2) :
    ∃ t, exec (.captureArm cyc (.lane l) v) s = .next t ∧ t.m.time.armPending = true ∧
      t.m.capState = (if v.bit 30 then 0 else s.m.capState) ∧ t.m.rd Reg.TIME_CAPCFG = s.m.rd Reg.TIME_CAPCFG ||| 0x80000000#32 ∧
      Quiet s t [Reg.TIME_CAPCFG, Reg.TIME_CAPSTAT] := by
  have harmed : s.m.capArmed = true := by rcases h with h | h <;> simp [Mach.capArmed, h]
  have hnext : s.m.capNext (v ||| 0x80000000#32) = if v.bit 30 then 0 else s.m.capState := by
    rw [Mach.capNext, harmed, (armWord_bits v).2]
    simp only [and_true]
  have h4 : s.m.capNext (v ||| 0x80000000#32) ≠ 4 := by
    rw [hnext]
    split <;> omega
  have hregs : s.m.capRegs = [Reg.TIME_CAPCFG, Reg.TIME_CAPSTAT] := by
    rw [Mach.capRegs, harmed]
    rfl
  obtain ⟨t, ht, hst, htime, hcfg, hquiet⟩ := capCfgWrite_arm cyc (v := v ||| 0x80000000#32) hroute (armWord_bits v).1 h4
  refine ⟨t, ht, by rw [htime], hst.trans hnext, hcfg.trans ?_, hregs ▸ hquiet⟩
  rw [Mach.capKept, harmed]
  simp only [if_true]
  split
  · rw [Word.withBit_arm_cleared]
  · rw [Word.withBit_arm]

theorem exec_captureArm_copying (h : s.m.capState = 4) :
    ∃ t, exec (.captureArm cyc (.lane l) v) s = .next t ∧ t.m.capState = 4 ∧
      t.m.time.armPending = (s.m.time.armPending && !v.bit 30) ∧ t.m.fld Reg.TIME_CAPCFG 29 16 = v.bits 29 16 ∧
      Quiet s t [Reg.TIME_CAPCFG] := by
  have harmed : s.m.capArmed = false := by simp [Mach.capArmed, h]
  have hnext : s.m.capNext (v ||| 0x80000000#32) = 4 := (if_neg fun h => Bool.false_ne_true (harmed.symm.trans h.2)).trans h
  have hregs : s.m.capRegs = [Reg.TIME_CAPCFG] := by
    rw [Mach.capRegs, harmed]
    rfl
  obtain ⟨t, ht, hst, htime, hcfg, hquiet⟩ := capCfgWrite_still cyc (v := v ||| 0x80000000#32) hroute (.inr hnext)
  refine ⟨t, ht, hst.trans hnext, ?_, ?_, hregs ▸ hquiet⟩
  · rw [htime, (armWord_bits v).2]
    rfl
  · rw [Mach.fld, hcfg, Mach.capKept, harmed]
    simp only [Bool.false_eq_true, if_false]
    obtain ⟨hplain, hcleared⟩ := configured_bits v (s.m.rd Reg.TIME_CAPCFG)
    split
    · exact hcleared
    · exact hplain

theorem exec_captureDisarm_idle (h1 : s.m.capState ≠ 1) (h2 : s.m.capState ≠ 2) :
    ∃ t, exec (.captureDisarm cyc (.lane l) v) s = .next t ∧ t.m.time.armPending = false ∧
      t.m.rd Reg.TIME_CAPCFG = v &&& 0x3FFF0000#32 ∧ t.m.capState = s.m.capState ∧ Quiet s t [Reg.TIME_CAPCFG] := by
  have harmed : s.m.capArmed = false := by simp [Mach.capArmed, h1, h2]
  obtain ⟨h31, h30⟩ := disarmWord_bits v
  have hnext : s.m.capNext ((v ||| 0x40000000#32) &&& 0x7FFFFFFF#32) = s.m.capState :=
    if_neg fun h => Bool.false_ne_true (harmed.symm.trans h.2)
  have hregs : s.m.capRegs = [Reg.TIME_CAPCFG] := by
    rw [Mach.capRegs, harmed]
    rfl
  obtain ⟨t, ht, hst, htime, hcfg, hquiet⟩ := capCfgWrite_still cyc (v := (v ||| 0x40000000#32) &&& 0x7FFFFFFF#32) hroute (.inl h31)
  refine ⟨t, ht, ?_, hcfg.trans ?_, hst.trans hnext, hregs ▸ hquiet⟩
  · rw [htime, h30]
    exact Bool.and_false _
  · rw [Mach.capKept, harmed, h30]
    exact configured_disarm ..

theorem exec_captureDisarm_armed (h : s.m.capState = 1 ∨ s.m.capState = 2) :
    ∃ t, exec (.captureDisarm cyc (.lane l) v) s = .next t ∧ t.m.time.armPending = false ∧ t.m.capState = 0 ∧
      t.m.time.lines = s.m.time.lines ∧ Quiet s t [Reg.TIME_CAPCFG, Reg.TIME_CAPSTAT] := by
  have harmed : s.m.capArmed = true := by rcases h with h | h <;> simp [Mach.capArmed, h]
  obtain ⟨h31, h30⟩ := disarmWord_bits v
  have hnext : s.m.capNext ((v ||| 0x40000000#32) &&& 0x7FFFFFFF#32) = 0 := if_pos ⟨h30, harmed⟩
  have hregs : s.m.capRegs = [Reg.TIME_CAPCFG, Reg.TIME_CAPSTAT] := by
    rw [Mach.capRegs, harmed]
    rfl
  obtain ⟨t, ht, hst, htime, -, hquiet⟩ := capCfgWrite_still cyc (v := (v ||| 0x40000000#32) &&& 0x7FFFFFFF#32) hroute (.inl h31)
  refine ⟨t, ht, ?_, hst.trans hnext, ?_, hregs ▸ hquiet⟩
  · rw [htime, h30]
    exact Bool.and_false _
  · rw [htime]
    rfl
end

/-! ### The delivery of an event (R380, R385) -/

section
variable (m : Mach) (i : Nat) (e : Event)

/-- A machine whose Collator has event `i` of those raised. -/
def Mach.delivered (m : Mach) (i : Nat) (e : Event) : Mach :=
  m.onTime fun t => { t with raised := t.raised.eraseIdx i, collator := t.collator ++ [e] }

theorem Mach.capMatches_congr {m m' : Mach} (h : ∀ b, m'.rd b = m.rd b) (e : Event) : m'.capMatches e = m.capMatches e := by
  rw [Mach.capMatches, Mach.capMatches, Mach.fld, Mach.fld, Mach.fld, Mach.fld, Mach.bit, Mach.bit, h, h]

theorem State.delivered_collator (s : State) (cyc : Nat) :
    ((s.at cyc).delivered i e).time.collator = s.m.time.collator ++ [e] := rfl

theorem State.delivered_raised (s : State) (cyc : Nat) : ((s.at cyc).delivered i e).time.raised = s.m.time.raised.eraseIdx i := rfl

theorem State.delivered_lines (s : State) (cyc : Nat) : ((s.at cyc).delivered i e).time.lines = s.m.time.lines := rfl

theorem State.delivered_rd (s : State) (cyc b : Nat) : ((s.at cyc).delivered i e).rd b = s.m.rd b := rfl

/-- The time block of a capture that an event triggers. -/
def Mach.capTaken (m : Mach) (e : Event) : TimeState :=
  { m.time with
    trigger := some e
    trigPlaced := decide (0 < (m.time.lines.filter fun x => decide (e.time < x.t0)).length)
    postLeft := m.fld Reg.TIME_CAPCFG 25 16 + 1 - (m.time.lines.filter fun x => decide (e.time < x.t0)).length
    lines := markTrigger e.time (m.time.lines.map fun x => { x with flags := x.flags / 2 * 2 }) }

theorem captureTriggers_of_capTaken {s t : State} {m : Mach} {e : Event} (hst : t.m.capState = 2) (htime : t.m.time = m.capTaken e)
    (hlines : m.time.lines = s.m.time.lines) (hcfg : m.rd Reg.TIME_CAPCFG = s.m.rd Reg.TIME_CAPCFG) : CaptureTriggers s t e := by
  unfold CaptureTriggers
  rw [htime, Mach.capTaken, hlines, Mach.fld, hcfg]
  exact ⟨hst, rfl, rfl, rfl, rfl⟩

theorem Mach.capTaken_collator : (m.capTaken e).collator = m.time.collator := rfl

theorem Mach.capTaken_raised : (m.capTaken e).raised = m.time.raised := rfl

theorem Mach.capTake_eq : m.capTake e = (m.onTime fun _ => m.capTaken e).setCap 2 := rfl

theorem Mach.capTake_spec : (m.capTake e).capState = 2 ∧ (m.capTake e).time = m.capTaken e ∧
    ∀ b, b ≠ Reg.TIME_CAPSTAT → (m.capTake e).rd b = m.rd b := by
  rw [Mach.capTake_eq]
  exact ⟨Mach.setCap_state _ (by decide), rfl, fun b hb => Mach.setCap_rd_other _ 2 hb⟩

/-- MORE of TIME_CAPSTAT leaves the capture's state. -/
theorem Mach.capMore_spec : (m.setBit Reg.TIME_CAPSTAT 28 true).capState = m.capState ∧
    (m.setBit Reg.TIME_CAPSTAT 28 true).bit Reg.TIME_CAPSTAT 28 = true ∧ (m.setBit Reg.TIME_CAPSTAT 28 true).time = m.time ∧
    ∀ b, b ≠ Reg.TIME_CAPSTAT → (m.setBit Reg.TIME_CAPSTAT 28 true).rd b = m.rd b :=
  ⟨Mach.fld_setBit_other m _ (by decide) (by decide) (by decide), Mach.bit_setBit m _ (by decide), rfl, fun _ hb => Mach.rd_wr_other m _ hb⟩

variable {m e} (hmatch : m.capMatches e = true) (hsince : m.time.armedSince ≤ e.time)
include hmatch hsince

theorem Mach.capTrigger_goes : ¬(!m.capMatches e || decide (e.time < m.time.armedSince)) = true := by
  rw [hmatch, decide_eq_false (Nat.not_lt.2 hsince)]
  decide

theorem Mach.capTrigger_armed (h : m.capState = 1) : m.capTrigger e = m.capTake e :=
  (if_neg (Mach.capTrigger_goes hmatch hsince)).trans (if_pos h)

theorem Mach.capTrigger_waiting (h : m.capState = 2) : m.capTrigger e =
    (if m.time.trigger.any fun x => e.before x && e != x then m.capTake e else m).setBit Reg.TIME_CAPSTAT 28 true := by
  have h1 : ¬m.capState = 1 := by omega
  exact ((if_neg (Mach.capTrigger_goes hmatch hsince)).trans (if_neg h1)).trans (if_pos h)
end

section
variable (cyc i : Nat) {s : State} {e : Event} (h : s.m.time.raised[i]? = some e)
include h

theorem exec_eventDelivery {regs : List Nat} {m : Mach} (hm : ((s.at cyc).delivered i e).capTrigger e = m)
    (hr : ∀ b, b ∉ regs → m.rd b = s.m.rd b) :
    ∃ t, exec (.eventDelivery cyc i) s = .next t ∧ t.m = m.settle ∧ SameRegsBut s t regs ∧ SameMemory s t := by
  have hat : (s.at cyc).time.raised[i]? = some e := h
  have hf : (fun m : Mach => match m.time.raised[i]? with
      | some e => (m.delivered i e).capTrigger e
      | none => m) (s.at cyc) = m := by
    simp only [hat]
    exact hm
  subst hf
  exact run_keeps (f := fun m => match m.time.raised[i]? with
      | some e => (m.delivered i e).capTrigger e
      | none => m) hr

variable (hcond : (s.m.fld Reg.TIME_CAPCFG 28 26 ≤ 4 ∧ s.m.fld Reg.TIME_CAPCFG 28 26 ≤ e.cls) ∨
    (s.m.bit Reg.TIME_CAPTRIG 31 = true ∧ s.m.fld Reg.TIME_CAPTRIG 15 0 = e.code))
  (hsince : s.m.time.armedSince ≤ e.time)
include hcond hsince

omit h hsince in
theorem State.delivered_matches : ((s.at cyc).delivered i e).capMatches e = true := by
  have hmatch : s.m.capMatches e = true := by
    unfold Mach.capMatches
    rcases hcond with ⟨hle, hcls⟩ | ⟨hon, hcode⟩
    · simp only [decide_eq_true hle, decide_eq_true hcls, Bool.and_self, Bool.true_or]
    · simp only [hon, hcode, beq_self_eq_true, Bool.and_self, Bool.or_true]
  exact (Mach.capMatches_congr (fun b => State.delivered_rd ..) e).trans hmatch

theorem exec_eventDelivery_armed (h1 : s.m.capState = 1) :
    ∃ t, exec (.eventDelivery cyc i) s = .next t ∧ CaptureTriggers s t e ∧ t.m.time.collator = s.m.time.collator ++ [e] ∧
      t.m.time.raised = s.m.time.raised.eraseIdx i ∧ SameRegsBut s t [Reg.TIME_CAPSTAT] ∧ SameMemory s t := by
  obtain ⟨hst, htime, hrd⟩ := ((s.at cyc).delivered i e).capTake_spec e
  obtain ⟨t, ht, hm, hregs, hmem⟩ := exec_eventDelivery cyc i h (regs := [Reg.TIME_CAPSTAT])
    (Mach.capTrigger_armed (State.delivered_matches cyc i hcond) hsince h1) fun b hb => hrd b fun hc => hb (by rw [hc]; decide)
  have htm : t.m.time = ((s.at cyc).delivered i e).capTaken e := (congrArg Mach.time hm).trans ((Mach.settle_time _).trans htime)
  exact ⟨t, ht, captureTriggers_of_capTaken (hm ▸ (Mach.capState_congr (Mach.settle_rd ..)).trans hst) htm (State.delivered_lines ..) (State.delivered_rd ..), by rw [htm, Mach.capTaken_collator, State.delivered_collator],
    by rw [htm, Mach.capTaken_raised, State.delivered_raised], hregs, hmem⟩

variable {x : Event} (h2 : s.m.capState = 2) (hx : s.m.time.trigger = some x)
include h2 hx

theorem exec_eventDelivery_earlier (hbefore : e.before x = true) (hne : e ≠ x) :
    ∃ t, exec (.eventDelivery cyc i) s = .next t ∧ CaptureTriggers s t e ∧ t.m.bit Reg.TIME_CAPSTAT 28 = true ∧
      t.m.time.collator = s.m.time.collator ++ [e] ∧ SameRegsBut s t [Reg.TIME_CAPSTAT] ∧ SameMemory s t := by
  have hany : (((s.at cyc).delivered i e).time.trigger.any fun x => e.before x && e != x) = true := by
    have htrig : ((s.at cyc).delivered i e).time.trigger = some x := hx
    rw [htrig, Option.any_some, hbefore, bne_iff_ne.2 hne]
    rfl
  obtain ⟨hst, htime, hrd⟩ := ((s.at cyc).delivered i e).capTake_spec e
  obtain ⟨hst', hmore, hkept, hrd'⟩ := (((s.at cyc).delivered i e).capTake e).capMore_spec
  obtain ⟨t, ht, hm, hregs, hmem⟩ := exec_eventDelivery cyc i h (regs := [Reg.TIME_CAPSTAT])
    ((Mach.capTrigger_waiting (State.delivered_matches cyc i hcond) hsince h2).trans
      (congrArg (fun m : Mach => m.setBit Reg.TIME_CAPSTAT 28 true) (if_pos hany)))
    fun b hb => (hrd' b fun hc => hb (by rw [hc]; decide)).trans (hrd b fun hc => hb (by rw [hc]; decide))
  have htm : t.m.time = ((s.at cyc).delivered i e).capTaken e := (congrArg Mach.time hm).trans ((Mach.settle_time _).trans (hkept.trans htime))
  exact ⟨t, ht, captureTriggers_of_capTaken (hm ▸ (Mach.capState_congr (Mach.settle_rd ..)).trans (hst'.trans hst)) htm (State.delivered_lines ..)
    (State.delivered_rd ..), hm ▸ (Mach.settle_bit ..).trans hmore, by rw [htm, Mach.capTaken_collator, State.delivered_collator], hregs, hmem⟩

theorem exec_eventDelivery_later (hlater : e.before x = false ∨ e = x) :
    ∃ t, exec (.eventDelivery cyc i) s = .next t ∧ t.m.capState = 2 ∧ t.m.time.trigger = some x ∧
      t.m.time.lines = s.m.time.lines ∧ t.m.time.postLeft = s.m.time.postLeft ∧ t.m.bit Reg.TIME_CAPSTAT 28 = true ∧
      t.m.time.collator = s.m.time.collator ++ [e] ∧ SameRegsBut s t [Reg.TIME_CAPSTAT] ∧ SameMemory s t := by
  have hany : ¬(((s.at cyc).delivered i e).time.trigger.any fun x => e.before x && e != x) = true := by
    have htrig : ((s.at cyc).delivered i e).time.trigger = some x := hx
    rw [htrig, Option.any_some]
    rcases hlater with hl | hl
    · rw [hl, Bool.false_and]
      decide
    · rw [hl, bne_self_eq_false, Bool.and_false]
      decide
  obtain ⟨hst, hmore, hkept, hrd⟩ := ((s.at cyc).delivered i e).capMore_spec
  obtain ⟨t, ht, hm, hregs, hmem⟩ := exec_eventDelivery cyc i h (regs := [Reg.TIME_CAPSTAT])
    ((Mach.capTrigger_waiting (State.delivered_matches cyc i hcond) hsince h2).trans
      (congrArg (fun m : Mach => m.setBit Reg.TIME_CAPSTAT 28 true) (if_neg hany)))
    fun b hb => hrd b fun hc => hb (by rw [hc]; decide)
  have htm : t.m.time = ((s.at cyc).delivered i e).time := (congrArg Mach.time hm).trans ((Mach.settle_time _).trans hkept)
  exact ⟨t, ht, hm ▸ (Mach.capState_congr (Mach.settle_rd ..)).trans (hst.trans h2), by rw [htm]; exact hx, by rw [htm]; rfl,
    by rw [htm]; rfl, hm ▸ (Mach.settle_bit ..).trans hmore, by rw [htm]; rfl, hregs, hmem⟩
end

/-! ### The store freezes (R385) -/

section
variable (cyc : Nat) (s : State)

/-- A store that freezes, and is copied where FLASH is set. -/
def Mach.capFrozen (m : Mach) : Mach :=
  ((m.setCap (if m.bit Reg.TIME_CAPCFG 29 then 4 else 3)).raise 0x3C03 0 0xFF (leBytes 2 ((m.time.trigger.map (·.code)).getD 0))).timeIrq 1

theorem Mach.capFrozen_tells (m : Mach) : m.FocTells [Reg.TIME_CAPSTAT, Reg.TIME_IRQ_STAT]
    [eventAt m 0x3C03 0 0xFF (leBytes 2 ((m.time.trigger.map (·.code)).getD 0)) 0] m.capFrozen :=
  ((((Mach.FocTells.refl m _).setCap (by decide) _).raise 0x3C03 0 0xFF _ 0).orr_of_not_stamp (by decide) (by decide) _)

theorem Mach.capFrozen_state (m : Mach) : m.capFrozen.capState = if m.bit Reg.TIME_CAPCFG 29 = true then 4 else 3 := by
  have hst : m.capFrozen.rd Reg.TIME_CAPSTAT = (m.setCap (if m.bit Reg.TIME_CAPCFG 29 then 4 else 3)).rd Reg.TIME_CAPSTAT := by
    rw [Mach.capFrozen, Mach.timeIrq, Mach.rd_orr, if_neg (by decide), Mach.raise_rd]
  rw [Mach.capState_congr hst]
  refine Mach.setCap_state m ?_
  split <;> decide

theorem exec_captureFreeze (h2 : s.m.capState = 2) (hplaced : s.m.time.trigPlaced = true) (hleft : s.m.time.postLeft = 0) :
    ∃ t, exec (.captureFreeze cyc) s = .next t ∧ t.m.capState = (if s.m.bit Reg.TIME_CAPCFG 29 = true then 4 else 3) ∧
      Raises s t [eventAt (s.at cyc) 0x3C03 0 0xFF (leBytes 2 ((s.m.time.trigger.map (·.code)).getD 0)) 0] ∧
      t.m.bit Reg.TIME_IRQ_STAT 1 = true ∧ t.m.time.lines = s.m.time.lines ∧
      SameRegsBut s t [Reg.TIME_CAPSTAT, Reg.TIME_IRQ_STAT] ∧ SameMemory s t := by
  have hgo : (s.at cyc).capState = 2 ∧ (s.at cyc).time.trigPlaced = true ∧ (s.at cyc).time.postLeft = 0 := ⟨h2, hplaced, hleft⟩
  obtain ⟨t, ht, hm, hregs, hmem, hev⟩ := run_makes (s := s) (cyc := cyc) (f := fun m => m.capFreeze) (if_pos hgo)
    (s.at cyc).capFrozen_tells
  refine ⟨t, ht, ?_, hev, ?_, ?_, hregs, hmem⟩
  · rw [hm, Mach.capState_congr (Mach.settle_rd ..)]
    exact (s.at cyc).capFrozen_state
  · exact hm ▸ (Mach.settle_bit ..).trans (Mach.bit_orr (i := 1) _ (by decide))
  · have hlines : ∀ m : Mach, m.capFrozen.time.lines = m.time.lines := fun _ => rfl
    rw [hm, Mach.settle_time]
    exact hlines (s.at cyc)

theorem exec_captureFreeze_still (h : s.m.capState ≠ 2 ∨ s.m.time.trigPlaced = false ∨ s.m.time.postLeft ≠ 0) :
    ∃ t, exec (.captureFreeze cyc) s = .next t ∧ t.m.time = (s.at cyc).time ∧ Quiet s t [] := by
  have hno : ¬((s.at cyc).capState = 2 ∧ (s.at cyc).time.trigPlaced = true ∧ (s.at cyc).time.postLeft = 0) := by
    rintro ⟨h2, hplaced, hleft⟩
    rcases h with h | h | h
    · exact h h2
    · exact Bool.false_ne_true (h.symm.trans hplaced)
    · exact h hleft
  obtain ⟨t, ht, hm, hquiet⟩ := run_makes (s := s) (cyc := cyc) (f := fun m => m.capFreeze) (if_neg hno) (Mach.FocTells.refl _ [])
  exact ⟨t, ht, by rw [hm]; rfl, hquiet⟩
end

/-! ### The copy in flash (R386) -/

theorem leBytes_lt {n v x : Nat} (h : x ∈ leBytes n v) : x < 256 := by
  induction n generalizing v with
  | zero => cases h
  | succ n ih =>
    rcases List.mem_cons.1 h with rfl | h
    · exact Nat.mod_lt _ (by decide)
    · exact ih h

theorem map_mod_of_lt {l : List Nat} (h : ∀ x ∈ l, x < 256) : l.map (· % 256) = l :=
  (List.map_congr_left fun x hx => Nat.mod_eq_of_lt (h x hx)).trans (List.map_id l)

/-- A part of what is written reads as written. -/
theorem Memory.readN_writeL_part {mem : List Host.Cell} (h : Memory.wf mem = true) (a : Nat) {l : List Nat} {k n : Nat}
    (hk : k + n ≤ l.length) : Memory.readN (Memory.writeL mem a l) (a + k) n = ((l.drop k).take n).map (· % 256) := by
  refine List.ext_getElem (by simp [Memory.readN]; omega) fun i hi _ => ?_
  have hin : i < n := by simpa [Memory.readN] using hi
  have hl : k + i < l.length := by omega
  simp only [Memory.readN, List.getElem_map, List.getElem_range, List.getElem_take, List.getElem_drop, Nat.add_assoc,
    Memory.read_writeL h a hl]
  simp [nth, hl]

theorem length_padTo (n : Nat) (l : List Nat) : (padTo n l).length = n := by simp [padTo]

theorem take_padTo_append {n : Nat} {l r : List Nat} (h : l.length ≤ n) : (padTo n (l ++ r)).take l.length = l := by
  rw [padTo, List.take_take, Nat.min_eq_left h, List.append_assoc, List.take_left]

section
variable (m : Mach)

/-- The header of a copy, but for its check value. -/
def Mach.copyHead (m : Mach) : List Nat :=
  padTo 60 (leBytes 4 0x50414346 ++ leBytes 4 (m.rd Reg.TIME_BOOT).toNat ++
    (match m.time.trigger with
      | some e => e.record m.time.trigSeq
      | none => List.replicate 32 0) ++ leBytes 4 (m.fld Reg.TIME_CAPSTAT 9 0))

/-- The lines of a copy. -/
def copyLines (ls : List CapLine) : List Nat := ls.flatMap fun x => x.words.flatMap fun w => leBytes 4 w.toNat

/-- The bytes of a copy. -/
def Mach.copyBytes (m : Mach) : List Nat := m.copyHead ++ leBytes 4 (crc32c m.copyHead) ++ copyLines m.time.lines

/-- Where a copy goes. -/
def Mach.copyPlace (m : Mach) : Nat := 0x200000000 + if m.time.nextCopySlot = 0 then 0x07EDC000 else 0x07EED000

/-- A machine whose copy is done. -/
def Mach.copied (m : Mach) : Mach :=
  (((m.setCap 3).onTime fun t => { t with nextCopySlot := 1 - t.nextCopySlot }).raise 0x3C04 0).timeIrq 2

theorem Mach.capCopy_eq (mem : List Host.Cell) (h : m.capState = 4) : m.capCopy mem =
    (m.copied, Memory.writeL (Memory.clear mem m.copyPlace (m.copyPlace + 0x11000)) m.copyPlace m.copyBytes) := by
  have hgo : ¬m.capState ≠ 4 := not_not.2 h
  exact if_neg hgo

theorem Mach.copied_tells : m.FocTells [Reg.TIME_CAPSTAT, Reg.TIME_IRQ_STAT] [eventAt m 0x3C04 0 0xFF [] 0] m.copied :=
  (((((Mach.FocTells.refl m _).setCap (by decide) 3).onTime rfl rfl rfl).raise 0x3C04 0 0xFF _ 0).orr_of_not_stamp (by decide) (by decide) _)

theorem Mach.copied_state : m.copied.capState = 3 := by
  have hst : m.copied.rd Reg.TIME_CAPSTAT = (m.setCap 3).rd Reg.TIME_CAPSTAT := by
    rw [Mach.copied, Mach.timeIrq, Mach.rd_orr, if_neg (by decide), Mach.raise_rd, Mach.onTime_rd]
  rw [Mach.capState_congr hst, Mach.setCap_state m (by decide)]

theorem length_copyLines {ls : List CapLine} (h : ∀ x ∈ ls, x.words.length = 16) : (copyLines ls).length = 64 * ls.length := by
  have hline : ∀ ws : List Word, (ws.flatMap fun w => leBytes 4 w.toNat).length = 4 * ws.length := fun ws => by
    simp [List.length_flatMap, length_leBytes, Nat.mul_comm]
  induction ls with
  | nil => rfl
  | cons x ls ih =>
    rw [copyLines, List.flatMap_cons, List.length_append, hline, h x List.mem_cons_self, List.length_cons]
    have htail := ih fun y hy => h y (List.mem_cons_of_mem x hy)
    rw [copyLines] at htail
    omega

theorem copyLines_lt (ls : List CapLine) : ∀ x ∈ copyLines ls, x < 256 := fun x hx => by
  obtain ⟨y, -, hy⟩ := List.mem_flatMap.1 hx
  obtain ⟨w, -, hw⟩ := List.mem_flatMap.1 hy
  exact leBytes_lt hw

/-- A copy begins with its mark and its boot, and has its lines after 64 bytes. -/
theorem Mach.copyBytes_parts (h : ∀ x ∈ m.time.lines, x.words.length = 16) :
    m.copyBytes.length = 64 + 64 * m.time.lines.length ∧
      m.copyBytes.take 8 = [0x46, 0x43, 0x41, 0x50] ++ leBytes 4 (m.rd Reg.TIME_BOOT).toNat ∧
      m.copyBytes.drop 64 = copyLines m.time.lines := by
  have hhead : (m.copyHead ++ leBytes 4 (crc32c m.copyHead)).length = 64 := by
    rw [List.length_append, length_leBytes, Mach.copyHead, length_padTo]
  refine ⟨?_, ?_, ?_⟩
  · rw [Mach.copyBytes, List.length_append, hhead, length_copyLines h]
  · have hmark : ([0x46, 0x43, 0x41, 0x50] ++ leBytes 4 (m.rd Reg.TIME_BOOT).toNat).length = 8 := by
      rw [List.length_append, length_leBytes]
      rfl
    have hlong : 8 ≤ m.copyHead.length := by
      rw [Mach.copyHead, length_padTo]
      decide
    rw [Mach.copyBytes, List.append_assoc, List.take_append_of_le_length hlong, ← hmark, Mach.copyHead, List.append_assoc]
    exact take_padTo_append (by omega)
  · rw [Mach.copyBytes, ← hhead, List.drop_left]
end

section
variable (cyc : Nat) (s : State)

theorem exec_captureFlashCopy_still (h : s.m.capState ≠ 4) :
    ∃ t, exec (.captureFlashCopy cyc) s = .next t ∧ t.m.time = (s.at cyc).time ∧ Quiet s t [] := by
  obtain ⟨t, ht, hm, hquiet⟩ := runMem_makes (s := s) (cyc := cyc) (f := fun m mem => m.capCopy mem) (if_pos h) (Mach.FocTells.refl _ [])
  exact ⟨t, ht, by rw [hm]; rfl, hquiet⟩

theorem exec_captureFlashCopy (hwf : Memory.wf s.mem = true) (h4 : s.m.capState = 4) (hlines : s.m.time.lines.length ≤ 1024)
    (hwords : ∀ x ∈ s.m.time.lines, x.words.length = 16) :
    ∃ t, exec (.captureFlashCopy cyc) s = .next t ∧ t.m.capState = 3 ∧ t.m.time.nextCopySlot = 1 - s.m.time.nextCopySlot ∧
      Memory.readN t.mem s.m.copyPlace 8 = [0x46, 0x43, 0x41, 0x50] ++ leBytes 4 (s.m.rd Reg.TIME_BOOT).toNat ∧
      Memory.readN t.mem (s.m.copyPlace + 64) (64 * s.m.time.lines.length) = copyLines s.m.time.lines ∧
      (∀ b, b < s.m.copyPlace ∨ s.m.copyPlace + 0x11000 ≤ b → Memory.read t.mem b = Memory.read s.mem b) ∧
      Raises s t [eventAt (s.at cyc) 0x3C04 0 0xFF [] 0] ∧ t.m.bit Reg.TIME_IRQ_STAT 2 = true ∧
      SameRegsBut s t [Reg.TIME_CAPSTAT, Reg.TIME_IRQ_STAT] := by
  obtain ⟨t, ht, hm, hmem, hregs, hev⟩ := runMem_tells (s := s) (cyc := cyc) (f := fun m mem => m.capCopy mem)
    ((s.at cyc).capCopy_eq s.mem h4) (s.at cyc).copied_tells
  have hplace : (s.at cyc).copyPlace = s.m.copyPlace := rfl
  obtain ⟨hlen, hmark, hbody⟩ := (s.at cyc).copyBytes_parts hwords
  have hcount : (s.at cyc).time.lines = s.m.time.lines := rfl
  rw [hplace] at hmem
  rw [hcount] at hlen hbody
  rw [State.at_rd] at hmark
  generalize (s.at cyc).copyBytes = bytes at hmem hlen hmark hbody
  have hcleared := Memory.clear_wf hwf s.m.copyPlace (s.m.copyPlace + 0x11000)
  refine ⟨t, ht, ?_, ?_, ?_, ?_, fun b hb => ?_, hev, ?_, hregs⟩
  · exact hm ▸ (Mach.capState_congr (Mach.settle_rd ..)).trans (s.at cyc).copied_state
  · have hslot : ∀ m : Mach, m.copied.time.nextCopySlot = 1 - m.time.nextCopySlot := fun _ => rfl
    rw [hm, Mach.settle_time]
    exact hslot (s.at cyc)
  · have hread := Memory.readN_writeL_part hcleared s.m.copyPlace (l := bytes) (k := 0) (n := 8) (by omega)
    rw [List.drop_zero, hmark] at hread
    rw [hmem]
    exact hread.trans (map_mod_of_lt fun x hx => (List.mem_append.1 hx).elim
      (fun h => (by decide : ∀ x ∈ [0x46, 0x43, 0x41, 0x50], x < 256) x h) leBytes_lt)
  · have hread := Memory.readN_writeL_part hcleared s.m.copyPlace (l := bytes) (k := 64) (n := 64 * s.m.time.lines.length) (by omega)
    rw [hbody, List.take_of_length_le (length_copyLines hwords).le, map_mod_of_lt (copyLines_lt _)] at hread
    rw [hmem, hread]
  · rw [hmem, Memory.read_writeL_clear_other hwf _ hb (by omega)]
  · exact hm ▸ (Mach.settle_bit ..).trans (Mach.bit_orr (i := 2) _ (by decide))

/-! ### The data register (R392) -/

theorem exec_captureDataRead : ∃ t, exec (.captureDataRead cyc) s = .next t ∧ t.m.reply = .data s.m.capWord ∧
    t.m.fld Reg.TIME_CAP_ADDR 13 0 = (s.m.fld Reg.TIME_CAP_ADDR 13 0 + 1) % 2 ^ 14 ∧ Quiet s t [Reg.TIME_CAP_ADDR] := by
  obtain ⟨t, ht, hm, hquiet⟩ := run_makes (s := s) (cyc := cyc) (f := fun m => (m.say (.data m.capWord)).incMod Reg.TIME_CAP_ADDR 13 0) rfl
    (((Mach.FocTells.refl (s.at cyc) [Reg.TIME_CAP_ADDR]).next (m₂ := (s.at cyc).say (.data (s.at cyc).capWord)) rfl rfl fun _ => rfl).wr
      (a := Reg.TIME_CAP_ADDR) (by decide) (by decide) _)
  refine ⟨t, ht, ?_, ?_, hquiet⟩
  · rw [hm]
    rfl
  · rw [hm, Mach.settle_fld]
    exact Mach.fld_setFld _ _ (by decide) (by decide)
end

/-- Settles O48: a write by the capture's state, an event by the trigger that it meets, and a copy by its bytes. -/
theorem theFaultCaptureRuns : Obligations.TheFaultCaptureRuns :=
  ⟨fun cyc _ v _ hroute => ⟨exec_captureArm_idle cyc v hroute, exec_captureArm_armed cyc v hroute, exec_captureArm_copying cyc v hroute,
      exec_captureDisarm_idle cyc v hroute, exec_captureDisarm_armed cyc v hroute⟩,
    fun cyc _ v s => ⟨routedElsewhere_devWrite _ _ (fun m => m.capConfig (v ||| 0x80000000#32)) s cyc,
      routedElsewhere_devWrite _ _ (fun m => m.capConfig ((v ||| 0x40000000#32) &&& 0x7FFFFFFF#32)) s cyc,
      nothingDone_of_run (f := id) rfl, nothingDone_of_run (f := id) rfl⟩,
    fun cyc i _ _ h hcond hsince => ⟨exec_eventDelivery_armed cyc i h hcond hsince,
      fun _ => exec_eventDelivery_earlier cyc i h hcond hsince, fun _ => exec_eventDelivery_later cyc i h hcond hsince⟩,
    fun cyc s => ⟨exec_captureFreeze cyc s, exec_captureFreeze_still cyc s⟩,
    fun cyc s hwf h4 hlines hwords _ => exec_captureFlashCopy cyc s hwf h4 hlines hwords,
    exec_captureFlashCopy_still, exec_captureDataRead⟩

end Sys2Proof.Machine
end

section
/-! The rings' engines and the records that ports offer them (R357, R359, R361). -/

namespace Sys2Proof.Machine

/-! ### A ring's engine -/

section
variable (m : Mach) (l : Lane) (r : Nat)

/-- A ring that stands in the lane's list. -/
abbrev Mach.hasRing (m : Mach) (l : Lane) (r : Nat) : Prop := (m.dma.lanes.get l).rings[r]? = some (m.ring l r)

theorem Mach.hasRing_iff : m.hasRing l r ↔ r < (m.dma.lanes.get l).rings.length := by
  refine ⟨fun h => (List.getElem?_eq_some_iff.1 h).1, fun h => ?_⟩
  rw [Mach.hasRing, Mach.ring, nth, List.getD_eq_getElem?_getD, List.getElem?_eq_getElem h]
  rfl

variable {m l r} in
theorem Mach.hasRing_onRing (h : m.hasRing l r) (f : DmaRing → DmaRing) : (m.onRing l r f).hasRing l r := by
  rw [Mach.hasRing_iff] at h ⊢
  rw [Mach.onRing, Mach.onDmaLane, Mach.onDma, Two.get_set_self]
  exact h.trans_eq (List.length_modify ..).symm

variable {m l r} in
theorem Mach.ring_onRing (h : m.hasRing l r) (f : DmaRing → DmaRing) : (m.onRing l r f).ring l r = f (m.ring l r) := by
  have hlen : r < (m.dma.lanes.get l).rings.length := (List.getElem?_eq_some_iff.1 h).1
  rw [Mach.ring, Mach.onRing, Mach.onDmaLane, Mach.onDma, Two.get_set_self, nth_upd, if_pos ⟨rfl, hlen⟩]
  rfl

variable {m} in
theorem Mach.FocTells.onRing {m' : Mach} {regs : List Nat} {es : List Event} (h : m.FocTells regs es m') (f : DmaRing → DmaRing) :
    m.FocTells regs es (m'.onRing l r f) := h.next rfl rfl fun _ => rfl

/-- A register past the tick's and the lanes' is none of those that stamps read. -/
theorem not_mem_stampRegs_of_lt {a : Nat} (h : 0xD1000 < a) : a ∉ stampRegs := fun ha =>
  absurd ((by decide : ∀ b ∈ stampRegs, b ≤ 0xD1000) a ha) (Nat.not_le.2 h)

theorem ringHead_not_stamp : Reg.DMA_R_HEAD l.ix r ∉ stampRegs := not_mem_stampRegs_of_lt (by unfold Reg.DMA_R_HEAD; omega)

theorem ringStat_not_stamp : Reg.DMA_R_STAT l.ix r ∉ stampRegs := not_mem_stampRegs_of_lt (by unfold Reg.DMA_R_STAT; omega)

theorem ringIrq_not_stamp : Reg.DMA_R_IRQ l.ix r ∉ stampRegs := not_mem_stampRegs_of_lt (by unfold Reg.DMA_R_IRQ; omega)

/-! ### A descriptor begins (R357) -/

/-- A descriptor that has begun with its data. -/
def startedDesc (d : DmaDesc) (data : List Nat) (len status : Nat) : DmaActive := ⟨d, 0, none, data, len, status, 0, []⟩

variable {m l r} in
theorem Mach.ring_beginDesc (h : m.hasRing l r) (d : DmaDesc) (data : List Nat) (len status : Nat) :
    (m.beginDesc l r d data len status).ring l r = { m.ring l r with
      fetched := (m.ring l r).fetched.drop 1, active := (m.ring l r).active ++ [startedDesc d data len status] } :=
  Mach.ring_onRing h _

theorem Mach.beginDesc_head (d : DmaDesc) (data : List Nat) (len status : Nat) :
    (m.beginDesc l r d data len status).fld (Reg.DMA_R_HEAD l.ix r) 11 0 = (d.index + 1) % m.ringSize l r % 2 ^ 12 :=
  Mach.fld_setFld _ _ (by decide) (by decide)

variable {m} in
theorem Mach.FocTells.beginDesc {m' : Mach} {regs : List Nat} {es : List Event} (h : m.FocTells regs es m')
    (ha : Reg.DMA_R_HEAD l.ix r ∈ regs) (d : DmaDesc) (data : List Nat) (len status : Nat) :
    m.FocTells regs es (m'.beginDesc l r d data len status) := (h.onRing l r _).wr ha (ringHead_not_stamp l r) _

/-! ### Stream records (R361) -/

/-- A ring has a descriptor for a record of a port. -/
structure Mach.StreamReady (m : Mach) (l : Lane) (r port : Nat) (bytes : List Nat) (d : DmaDesc) (rest : List DmaDesc) : Prop where
  runs : m.ringState l r = 1
  port : m.fld (Reg.DMA_R_CFG l.ix r) 27 25 = port
  fetched : (m.ring l r).fetched = d :: rest
  op : d.op = 2
  good : d.bad = false
  free : m.cqFree l r = true
  out : (m.ring l r).out.length + (bytes.length + 255) / 256 ≤ 32
  room : m.dmaRoom l 2 ((bytes.length + 255) / 256) = true
  first : d.flags < 2 ∨ (m.ring l r).active = []

/-- A record that a ring has taken. -/
def Mach.streamTaken (m : Mach) (l : Lane) (r : Nat) (bytes : List Nat) (d : DmaDesc) : Mach :=
  (m.beginDesc l r d bytes (min bytes.length d.len) (if d.len < bytes.length then 4 else 0)).onRing l r fun g => { g with dropping := false }

variable {m l r} in
theorem Mach.streamTake_ready {port : Nat} {bytes : List Nat} {d : DmaDesc} {rest : List DmaDesc}
    (h : m.StreamReady l r port bytes d rest) : m.streamTake l r port bytes = (true, m.streamTaken l r bytes d) := by
  obtain ⟨hruns, hport, hfetched, hop, hgood, hfree, hout, hroom, hfirst⟩ := h
  have hhead : (m.ring l r).fetched.head? = some d := by rw [hfetched]; rfl
  have hnot : ¬(2 ≤ d.flags ∧ (!(m.ring l r).active.isEmpty) = true) := by
    rcases hfirst with hflags | hempty
    · exact fun h => absurd h.1 (by omega)
    · rw [hempty]
      exact fun h => Bool.false_ne_true h.2
  unfold Mach.streamTake
  dsimp only
  rw [hhead]
  refine if_pos ⟨hruns, hport, hop, ?_, hfree, ?_, ?_⟩
  · rw [hgood]
    rfl
  · rw [decide_eq_true hout, hroom]
    rfl
  · rw [decide_eq_false hnot]
    rfl

/-- A ring that has no descriptor for a record drops it. -/
theorem Mach.streamTake_none {port : Nat} {bytes : List Nat} (h : m.ringState l r ≠ 1 ∨ m.fld (Reg.DMA_R_CFG l.ix r) 27 25 ≠ port ∨
    (m.ring l r).fetched = [] ∨ m.cqFree l r = false) : m.streamTake l r port bytes = (false, m) := by
  unfold Mach.streamTake
  dsimp only
  split
  · next d hhead =>
    refine if_neg ?_
    rintro ⟨hruns, hport, -, -, hfree, -⟩
    rcases h with h | h | h | h
    · exact h hruns
    · exact h hport
    · rw [h] at hhead
      cases hhead
    · exact Bool.false_ne_true (h.symm.trans hfree)
  · rfl

/-- A record dropped. -/
def Mach.streamLost (m : Mach) (l : Lane) (r : Nat) : Mach :=
  ((m.incSat (Reg.DMA_R_STAT l.ix r) 31 16).ringIrq l r 3).onRing l r fun g => { g with dropping := true }

/-- What a drop tells: the first of a run. -/
def Mach.dropTold (m : Mach) (l : Lane) (r : Nat) : List Event :=
  if (m.ring l r).dropping then [] else [eventAt m 0x3408 0 0xFF [] l.origin]

variable {m} in
theorem Mach.FocTells.streamDrop {m' : Mach} {regs : List Nat} {es : List Event} (h : m.FocTells regs es m')
    (hs : Reg.DMA_R_STAT l.ix r ∈ regs) (hi : Reg.DMA_R_IRQ l.ix r ∈ regs) (hd : (m'.ring l r).dropping = (m.ring l r).dropping) :
    m.FocTells regs (es ++ m.dropTold l r) (m'.streamDrop l r) := by
  have hlost : m.FocTells regs es (m'.streamLost l r) :=
    ((h.incSat hs (ringStat_not_stamp l r) 31 16).orr_of_not_stamp hi (ringIrq_not_stamp l r) _).onRing l r _
  unfold Mach.streamDrop Mach.dropTold
  dsimp only
  rw [hd]
  cases (m.ring l r).dropping
  · exact hlost.raise 0x3408 0 0xFF [] l.origin
  · rw [if_pos rfl, if_pos rfl, List.append_nil]
    exact hlost

theorem Mach.streamDrop_rd (b : Nat) : (m.streamDrop l r).rd b = ((m.incSat (Reg.DMA_R_STAT l.ix r) 31 16).ringIrq l r 3).rd b := by
  unfold Mach.streamDrop
  dsimp only
  split <;> rfl

theorem ringStat_ne_irq : Reg.DMA_R_STAT l.ix r ≠ Reg.DMA_R_IRQ l.ix r := by
  unfold Reg.DMA_R_STAT Reg.DMA_R_IRQ
  omega

/-- A drop counts in the ring's status and asks for its interrupt. -/
theorem Mach.streamDrop_counts :
    (m.streamDrop l r).fld (Reg.DMA_R_STAT l.ix r) 31 16 = min (m.fld (Reg.DMA_R_STAT l.ix r) 31 16 + 1) 0xFFFF ∧
      (m.streamDrop l r).bit (Reg.DMA_R_IRQ l.ix r) 3 = true := by
  constructor
  · rw [Mach.fld, Mach.streamDrop_rd, Mach.ringIrq, Mach.rd_orr, if_neg (ringStat_ne_irq l r)]
    exact m.fld_incSat (by decide) (by decide)
  · rw [Mach.bit, Mach.streamDrop_rd]
    exact Mach.bit_orr (i := 3) _ (by decide)

theorem Mach.streamDrop_dma : (m.streamDrop l r).dma = (m.onRing l r fun g => { g with dropping := true }).dma := by
  unfold Mach.streamDrop
  dsimp only
  split <;> rfl

variable {m l r} in
theorem Mach.ring_streamDrop (h : m.hasRing l r) : (m.streamDrop l r).ring l r = { m.ring l r with dropping := true } := by
  rw [Mach.ring, Mach.streamDrop_dma]
  exact Mach.ring_onRing h _

/-! ### A record taken -/

variable {m l r} in
theorem Mach.ring_streamTaken (h : m.hasRing l r) {bytes : List Nat} {d : DmaDesc} {rest : List DmaDesc}
    (hf : (m.ring l r).fetched = d :: rest) :
    (m.streamTaken l r bytes d).ring l r = { m.ring l r with
      fetched := rest, dropping := false
      active := (m.ring l r).active ++
        [startedDesc d bytes (min bytes.length d.len) (if d.len < bytes.length then 4 else 0)] } := by
  have hbegun := Mach.ring_beginDesc h d bytes (min bytes.length d.len) (if d.len < bytes.length then 4 else 0)
  have hring : (m.beginDesc l r d bytes (min bytes.length d.len) (if d.len < bytes.length then 4 else 0)).hasRing l r :=
    Mach.hasRing_onRing h _
  rw [Mach.streamTaken, Mach.ring_onRing hring, hbegun, hf]
  rfl

variable {m l r} in
theorem Mach.streamTaken_head (bytes : List Nat) (d : DmaDesc) :
    (m.streamTaken l r bytes d).fld (Reg.DMA_R_HEAD l.ix r) 11 0 = (d.index + 1) % m.ringSize l r % 2 ^ 12 :=
  Mach.beginDesc_head m l r d bytes _ _

variable {m} in
theorem Mach.FocTells.streamTaken {m' : Mach} {regs : List Nat} {es : List Event} (h : m.FocTells regs es m')
    (ha : Reg.DMA_R_HEAD l.ix r ∈ regs) (bytes : List Nat) (d : DmaDesc) : m.FocTells regs es (m'.streamTaken l r bytes d) :=
  (h.beginDesc l r ha d bytes _ _).onRing l r _
end

end Sys2Proof.Machine
end

section
/-! The Catalogue (R380 to R383). -/

namespace Sys2Proof.Machine

/-! ### The Collator's release (R380 to R382) -/

section
variable (m : Mach) (e : Event) (n : Nat)

/-- The number of the next record. -/
def Mach.catSeq (m : Mach) : Nat := m.time.nextSeq % 2 ^ 16

/-- The Collator without an event that it releases. -/
def Mach.collated (m : Mach) (e : Event) : Mach :=
  (m.onTime fun t => { t with
    collator := t.collator.erase e, nextSeq := t.nextSeq + 1
    trigSeq := if t.trigger == some e then m.catSeq else t.trigSeq }).setFld Reg.TIME_CATSEQ 15 0 m.catSeq

/-- A queue of the stream that has taken a record though it is full: one of a higher class takes the place of the oldest F0 record. -/
def fullQueue (q : List (Event × Nat)) (e : Event) (n : Nat) : List (Event × Nat) :=
  match q.find? fun x => x.1.cls == 0 with
  | some x => if e.cls = 0 then q else q.erase x ++ [(e, n)]
  | none => q

/-- What goes to the flash Catalogue (R383). -/
def flashTakes (e : Event) (n : Nat) : List (Event × Nat) := if 1 ≤ e.cls ∨ e.code = 0x3C01 then [(e, n)] else []

theorem toFlash_iff : e.toFlash = true ↔ 1 ≤ e.cls ∨ e.code = 0x3C01 := by
  rw [Event.toFlash, Bool.or_eq_true, decide_eq_true_eq, beq_iff_eq]

theorem Mach.collatorRelease_due (hfirst : firstEvent m.time.collator = some e) (hdue : e.time + 4000 ≤ m.now) :
    m.collatorRelease = ((m.collated e).catQueue e m.catSeq).flashQueue e m.catSeq := by
  have hold : ¬m.now < e.time + 4000 := Nat.not_lt.2 hdue
  unfold Mach.collatorRelease
  rw [hfirst]
  exact if_neg hold

theorem Mach.collatorRelease_early (hfirst : firstEvent m.time.collator = some e) (h : m.now < e.time + 4000) : m.collatorRelease = m := by
  unfold Mach.collatorRelease
  rw [hfirst]
  exact if_pos h

theorem Mach.collatorRelease_none (h : m.time.collator = []) : m.collatorRelease = m := by
  unfold Mach.collatorRelease
  rw [h]
  rfl

theorem Mach.catQueue_room (h : m.time.queue.length < 512) : m.catQueue e n =
    (m.onTime fun t => { t with queue := t.queue ++ [(e, n)], discarding := false }).showQueue := if_pos h

/-- A machine with another queue for the stream. -/
def Mach.withQueue (m : Mach) (q : List (Event × Nat)) : Mach := m.onTime fun t => { t with queue := q }

theorem Mach.withQueue_self : m.withQueue m.time.queue = m := rfl

theorem Mach.catQueue_full (h : 512 ≤ m.time.queue.length) :
    m.catQueue e n = (m.withQueue (fullQueue m.time.queue e n)).catDiscard := by
  have hfull : ¬m.time.queue.length < 512 := Nat.not_lt.2 h
  unfold Mach.catQueue fullQueue
  dsimp only
  rw [if_neg hfull]
  by_cases hcls : e.cls = 0
  · rw [if_pos hcls]
    cases m.time.queue.find? fun x => x.1.cls == 0
    · rfl
    · dsimp only
      rw [if_pos hcls, Mach.withQueue_self]
  · rw [if_neg hcls]
    cases m.time.queue.find? fun x => x.1.cls == 0
    · rfl
    · dsimp only
      rw [if_neg hcls]
      rfl

theorem Mach.flashQueue_room (h : m.time.flashQueue.length < 64) :
    m.flashQueue e n = m.onTime fun t => { t with flashQueue := t.flashQueue ++ flashTakes e n } := by
  unfold Mach.flashQueue flashTakes
  by_cases hgoes : 1 ≤ e.cls ∨ e.code = 0x3C01
  · have htrue := (toFlash_iff e).2 hgoes
    rw [htrue, if_pos hgoes, if_pos h]
    rfl
  · have hfalse : e.toFlash = false := Bool.not_eq_true _ ▸ fun h => hgoes ((toFlash_iff e).1 h)
    rw [hfalse, if_neg hgoes]
    simp only [List.append_nil]
    rfl

theorem Mach.flashQueue_full (h : 64 ≤ m.time.flashQueue.length) (hgoes : 1 ≤ e.cls ∨ e.code = 0x3C01) :
    m.flashQueue e n = ((m.incSat Reg.TIME_CATSEQ 31 16).raise 0x3C06 0).timeIrq 0 := by
  have hfull : ¬m.time.flashQueue.length < 64 := Nat.not_lt.2 h
  unfold Mach.flashQueue
  rw [(toFlash_iff e).2 hgoes]
  exact if_neg hfull

/-! What a release changes. -/

/-- The registers of the Catalogue. -/
abbrev catRegs : List Nat := [Reg.TIME_CATSEQ, Reg.TIME_CATSTAT, Reg.TIME_IRQ_STAT]

variable {m} in
theorem Mach.FocTells.collated {m' : Mach} {regs : List Nat} {es : List Event} (h : m.FocTells regs es m')
    (ha : Reg.TIME_CATSEQ ∈ regs) : m.FocTells regs es (m'.collated e) := (h.onTime rfl rfl rfl).wr ha (by decide) _

theorem Mach.collated_time : (m.collated e).time.collator = m.time.collator.erase e ∧ (m.collated e).time.nextSeq = m.time.nextSeq + 1 ∧
    (m.collated e).time.queue = m.time.queue ∧ (m.collated e).time.flashQueue = m.time.flashQueue ∧
    (m.collated e).time.discarding = m.time.discarding := ⟨rfl, rfl, rfl, rfl, rfl⟩

theorem Mach.collated_seq : (m.collated e).fld Reg.TIME_CATSEQ 15 0 = m.catSeq :=
  (Mach.fld_setFld _ _ (by decide) (by decide)).trans (Nat.mod_mod ..)

theorem Mach.collated_lost : (m.collated e).fld Reg.TIME_CATSEQ 31 16 = m.fld Reg.TIME_CATSEQ 31 16 :=
  Mach.fld_setFld_other _ _ (by decide) (by decide) (by decide) (by decide)

theorem Mach.collated_rd {b : Nat} (h : b ≠ Reg.TIME_CATSEQ) : (m.collated e).rd b = m.rd b := Mach.rd_wr_other _ _ h

theorem Mach.showQueue_queued : m.showQueue.fld Reg.TIME_CATSTAT 31 22 = m.time.queue.length % 2 ^ 10 :=
  Mach.fld_setFld m _ (by decide) (by decide)

/-- What a discard tells: the first of a run. -/
def Mach.discardTold (m : Mach) : List Event := if m.time.discarding then [] else [eventAt m 0x3C02 0 0xFF [] 0]

variable {m} in
theorem Mach.FocTells.catDiscard {m' : Mach} {regs : List Nat} {es : List Event} (h : m.FocTells regs es m')
    (hs : Reg.TIME_CATSTAT ∈ regs) (hi : Reg.TIME_IRQ_STAT ∈ regs) (hd : m'.time.discarding = m.time.discarding) :
    m.FocTells regs (es ++ m.discardTold) m'.catDiscard := by
  have hcounted := (h.incSat hs (by decide) 15 0).onTime (f := fun t => { t with discarding := true }) rfl rfl rfl
  unfold Mach.catDiscard Mach.discardTold
  dsimp only
  rw [hd]
  cases m.time.discarding
  · exact (hcounted.raise 0x3C02 0 0xFF [] 0).orr_of_not_stamp hi (by decide) _
  · rw [if_pos rfl, if_pos rfl, List.append_nil]
    exact hcounted

theorem Mach.catDiscard_time : m.catDiscard.time.discarding = true ∧ m.catDiscard.time.queue = m.time.queue ∧
    m.catDiscard.time.flashQueue = m.time.flashQueue ∧ m.catDiscard.time.collator = m.time.collator ∧
    m.catDiscard.time.nextSeq = m.time.nextSeq := by
  unfold Mach.catDiscard
  dsimp only
  split
  · exact ⟨rfl, rfl, rfl, rfl, rfl⟩
  · exact ⟨rfl, rfl, rfl, rfl, rfl⟩

theorem Mach.catDiscard_counts : m.catDiscard.fld Reg.TIME_CATSTAT 15 0 = min (m.fld Reg.TIME_CATSTAT 15 0 + 1) 0xFFFF := by
  have hrd : m.catDiscard.rd Reg.TIME_CATSTAT = (m.incSat Reg.TIME_CATSTAT 15 0).rd Reg.TIME_CATSTAT := by
    unfold Mach.catDiscard
    dsimp only
    split
    · exact Mach.onTime_rd ..
    · rw [Mach.timeIrq, Mach.rd_orr, if_neg (by decide), Mach.raise_rd, Mach.onTime_rd]
  rw [Mach.fld, hrd]
  exact m.fld_incSat (by decide) (by decide)

variable {m e} (hfirst : firstEvent m.time.collator = some e) (hdue : e.time + 4000 ≤ m.now)
include hfirst hdue

theorem Mach.collatorRelease_room (hq : m.time.queue.length < 512) (hf : m.time.flashQueue.length < 64) :
    m.collatorRelease.time.collator = m.time.collator.erase e ∧ m.collatorRelease.time.nextSeq = m.time.nextSeq + 1 ∧
      m.collatorRelease.time.queue = m.time.queue ++ [(e, m.catSeq)] ∧
      m.collatorRelease.time.flashQueue = m.time.flashQueue ++ flashTakes e m.catSeq ∧
      m.collatorRelease.fld Reg.TIME_CATSEQ 15 0 = m.catSeq ∧ m.collatorRelease.fld Reg.TIME_CATSTAT 31 22 = m.time.queue.length + 1 ∧
      m.FocTells [Reg.TIME_CATSEQ, Reg.TIME_CATSTAT] [] m.collatorRelease := by
  obtain ⟨hcoll, hnext, hqueue, hflash, -⟩ := m.collated_time e
  have hnum := m.collated_seq e
  have htells := (Mach.FocTells.refl m [Reg.TIME_CATSEQ, Reg.TIME_CATSTAT]).collated e (by decide)
  rw [m.collatorRelease_due e hfirst hdue]
  generalize m.collated e = x at hcoll hnext hqueue hflash hnum htells
  rw [x.catQueue_room e _ (by rwa [hqueue])]
  generalize hy : (x.onTime fun t => { t with queue := t.queue ++ [(e, m.catSeq)], discarding := false }) = y
  have hytime : y.time = { x.time with queue := x.time.queue ++ [(e, m.catSeq)], discarding := false } := hy ▸ rfl
  have hytells : m.FocTells [Reg.TIME_CATSEQ, Reg.TIME_CATSTAT] [] y := hy ▸ htells.onTime rfl rfl rfl
  have hynum : y.fld Reg.TIME_CATSEQ 15 0 = m.catSeq := by
    rw [← hy, Mach.fld, Mach.onTime_rd]
    exact hnum
  have hznum : y.showQueue.fld Reg.TIME_CATSEQ 15 0 = m.catSeq :=
    (Mach.fld_setFld_other y _ (by decide) (by decide) (by decide) (by decide)).trans hynum
  have hzshown := y.showQueue_queued
  have hztells : m.FocTells [Reg.TIME_CATSEQ, Reg.TIME_CATSTAT] [] y.showQueue := hytells.wr (by decide) (by decide) _
  have hztime : y.showQueue.time = y.time := rfl
  generalize y.showQueue = z at hznum hzshown hztells hztime
  have hroom : z.time.flashQueue.length < 64 := by
    rw [hztime, hytime]
    exact hflash ▸ hf
  rw [z.flashQueue_room e _ hroom]
  refine ⟨?_, ?_, ?_, ?_, ?_, ?_, hztells.onTime rfl rfl rfl⟩
  · rw [Mach.onTime_time, hztime, hytime]
    exact hcoll
  · rw [Mach.onTime_time, hztime, hytime]
    exact hnext
  · rw [Mach.onTime_time, hztime, hytime, ← hqueue]
  · rw [Mach.onTime_time, hztime, hytime, ← hflash]
  · rw [Mach.fld, Mach.onTime_rd]
    exact hznum
  · rw [Mach.fld, Mach.onTime_rd]
    refine hzshown.trans ?_
    rw [hytime, ← hqueue, List.length_append, List.length_singleton]
    rw [← hqueue] at hq
    omega

theorem Mach.collatorRelease_full (hq : 512 ≤ m.time.queue.length) (hf : m.time.flashQueue.length < 64) :
    m.collatorRelease.time.collator = m.time.collator.erase e ∧ m.collatorRelease.time.nextSeq = m.time.nextSeq + 1 ∧
      m.collatorRelease.time.queue = fullQueue m.time.queue e m.catSeq ∧
      m.collatorRelease.time.flashQueue = m.time.flashQueue ++ flashTakes e m.catSeq ∧ m.collatorRelease.time.discarding = true ∧
      m.collatorRelease.fld Reg.TIME_CATSTAT 15 0 = min (m.fld Reg.TIME_CATSTAT 15 0 + 1) 0xFFFF ∧
      m.FocTells catRegs m.discardTold m.collatorRelease := by
  obtain ⟨hcoll, hnext, hqueue, hflash, hdisc⟩ := m.collated_time e
  have hstat := m.collated_rd e (b := Reg.TIME_CATSTAT) (by decide)
  have htells := (Mach.FocTells.refl m catRegs).collated e (by decide)
  rw [m.collatorRelease_due e hfirst hdue]
  generalize m.collated e = x at hcoll hnext hqueue hflash hdisc hstat htells
  rw [x.catQueue_full e _ (by rwa [hqueue]), hqueue]
  have hytells : m.FocTells catRegs [] (x.withQueue (fullQueue m.time.queue e m.catSeq)) := htells.onTime rfl rfl rfl
  have hytime : (x.withQueue (fullQueue m.time.queue e m.catSeq)).time = { x.time with queue := fullQueue m.time.queue e m.catSeq } := rfl
  have hystat : (x.withQueue (fullQueue m.time.queue e m.catSeq)).rd Reg.TIME_CATSTAT = m.rd Reg.TIME_CATSTAT := hstat
  generalize x.withQueue (fullQueue m.time.queue e m.catSeq) = y at hytells hytime hystat
  obtain ⟨hztold, hzqueue, hzflash, hzcoll, hznext⟩ := y.catDiscard_time
  have hzstat := y.catDiscard_counts
  have hztells := hytells.catDiscard (by decide) (by decide) (by rw [hytime]; exact hdisc)
  generalize y.catDiscard = z at hztold hzqueue hzflash hzcoll hznext hzstat hztells
  rw [hytime] at hzqueue hzflash hzcoll hznext
  have hroom : z.time.flashQueue.length < 64 := by
    rw [hzflash]
    exact hflash ▸ hf
  rw [z.flashQueue_room e _ hroom]
  refine ⟨hzcoll.trans hcoll, hznext.trans hnext, hzqueue, ?_, hztold, ?_, hztells.onTime rfl rfl rfl⟩
  · rw [Mach.onTime_time, hzflash, ← hflash]
  · refine hzstat.trans ?_
    rw [Mach.fld, hystat, Mach.fld]

theorem Mach.collatorRelease_lost (hq : m.time.queue.length < 512) (hf : 64 ≤ m.time.flashQueue.length)
    (hgoes : 1 ≤ e.cls ∨ e.code = 0x3C01) :
    m.collatorRelease.time.queue = m.time.queue ++ [(e, m.catSeq)] ∧ m.collatorRelease.time.flashQueue = m.time.flashQueue ∧
      m.collatorRelease.fld Reg.TIME_CATSEQ 31 16 = min (m.fld Reg.TIME_CATSEQ 31 16 + 1) 0xFFFF ∧
      m.FocTells catRegs [eventAt m 0x3C06 0 0xFF [] 0] m.collatorRelease := by
  obtain ⟨hcoll, hnext, hqueue, hflash, -⟩ := m.collated_time e
  have hnum := m.collated_lost e
  have htells := (Mach.FocTells.refl m catRegs).collated e (by decide)
  rw [m.collatorRelease_due e hfirst hdue]
  generalize m.collated e = x at hcoll hnext hqueue hflash hnum htells
  rw [x.catQueue_room e _ (by rwa [hqueue])]
  generalize hy : (x.onTime fun t => { t with queue := t.queue ++ [(e, m.catSeq)], discarding := false }).showQueue = y
  have hytime : y.time = { x.time with queue := x.time.queue ++ [(e, m.catSeq)], discarding := false } := hy ▸ rfl
  have hytells : m.FocTells catRegs [] y := hy ▸ (htells.onTime rfl rfl rfl).wr (by decide) (by decide) _
  have hynum : y.fld Reg.TIME_CATSEQ 31 16 = m.fld Reg.TIME_CATSEQ 31 16 := by
    rw [← hy, Mach.fld, Mach.showQueue, Mach.rd_setFld, if_neg (by decide), Mach.onTime_rd]
    exact hnum
  have hfull : 64 ≤ y.time.flashQueue.length := by
    rw [hytime]
    exact hflash ▸ hf
  rw [y.flashQueue_full e _ hfull hgoes]
  refine ⟨?_, ?_, ?_, ((hytells.incSat (by decide) (by decide) 31 16).raise 0x3C06 0 0xFF [] 0).orr_of_not_stamp (by decide) (by decide) _⟩
  · have hkept : (((y.incSat Reg.TIME_CATSEQ 31 16).raise 0x3C06 0).timeIrq 0).time.queue = y.time.queue := rfl
    rw [hkept, hytime, ← hqueue]
  · have hkept : (((y.incSat Reg.TIME_CATSEQ 31 16).raise 0x3C06 0).timeIrq 0).time.flashQueue = y.time.flashQueue := rfl
    rw [hkept, hytime, ← hflash]
  · rw [Mach.fld, Mach.timeIrq, Mach.rd_orr, if_neg (by decide), Mach.raise_rd, ← hynum]
    exact y.fld_incSat (by decide) (by decide)
end

section
variable {s : State} (cyc : Nat) {e : Event} (hfirst : firstEvent s.m.time.collator = some e)
include hfirst

theorem exec_collatorRelease_early (h : (s.at cyc).now < e.time + 4000) :
    ∃ t, exec (.collatorRelease cyc) s = .next t ∧ t.m.time = (s.at cyc).time ∧ Quiet s t [] := by
  obtain ⟨t, ht, hm, hquiet⟩ := run_makes (f := fun m => m.collatorRelease) ((s.at cyc).collatorRelease_early e hfirst h)
    (Mach.FocTells.refl _ [])
  exact ⟨t, ht, by rw [hm]; rfl, hquiet⟩

variable (hdue : e.time + 4000 ≤ (s.at cyc).now)
include hdue

omit hfirst hdue in
/-- A release, by what it makes of the machine. -/
theorem exec_collatorRelease {regs : List Nat} {es : List Event} (h : (s.at cyc).FocTells regs es (s.at cyc).collatorRelease) :
    ∃ t, exec (.collatorRelease cyc) s = .next t ∧ t.m = (s.at cyc).collatorRelease.settle ∧ SameRegsBut s t regs ∧ SameMemory s t ∧
      Raises s t es := run_makes (f := fun m => m.collatorRelease) rfl h

theorem exec_collatorRelease_room (hq : s.m.time.queue.length < 512) (hf : s.m.time.flashQueue.length < 64) :
    ∃ t, exec (.collatorRelease cyc) s = .next t ∧ t.m.time.collator = s.m.time.collator.erase e ∧
      t.m.time.nextSeq = s.m.time.nextSeq + 1 ∧ t.m.time.queue = s.m.time.queue ++ [(e, s.m.catSeq)] ∧
      t.m.time.flashQueue = s.m.time.flashQueue ++ flashTakes e s.m.catSeq ∧ t.m.fld Reg.TIME_CATSEQ 15 0 = s.m.catSeq ∧
      t.m.fld Reg.TIME_CATSTAT 31 22 = s.m.time.queue.length + 1 ∧ Quiet s t [Reg.TIME_CATSEQ, Reg.TIME_CATSTAT] := by
  obtain ⟨hcoll, hnext, hqueue, hflash, hnum, hshown, htells⟩ := Mach.collatorRelease_room (m := s.at cyc) hfirst hdue hq hf
  obtain ⟨t, ht, hm, hquiet⟩ := exec_collatorRelease cyc htells
  rw [← Mach.settle_time] at hcoll hnext hqueue hflash
  rw [← Mach.settle_fld] at hnum hshown
  rw [← hm] at hcoll hnext hqueue hflash hnum hshown
  exact ⟨t, ht, hcoll, hnext, hqueue, hflash, hnum, hshown, hquiet⟩

theorem exec_collatorRelease_full (hq : 512 ≤ s.m.time.queue.length) (hf : s.m.time.flashQueue.length < 64) :
    ∃ t, exec (.collatorRelease cyc) s = .next t ∧ t.m.time.collator = s.m.time.collator.erase e ∧
      t.m.time.nextSeq = s.m.time.nextSeq + 1 ∧ t.m.time.queue = fullQueue s.m.time.queue e s.m.catSeq ∧
      t.m.time.flashQueue = s.m.time.flashQueue ++ flashTakes e s.m.catSeq ∧ t.m.time.discarding = true ∧
      t.m.fld Reg.TIME_CATSTAT 15 0 = min (s.m.fld Reg.TIME_CATSTAT 15 0 + 1) 0xFFFF ∧
      Raises s t (s.at cyc).discardTold ∧ SameRegsBut s t catRegs ∧ SameMemory s t := by
  obtain ⟨hcoll, hnext, hqueue, hflash, hdisc, hcount, htells⟩ := Mach.collatorRelease_full (m := s.at cyc) hfirst hdue hq hf
  obtain ⟨t, ht, hm, hregs, hmem, hev⟩ := exec_collatorRelease cyc htells
  rw [← Mach.settle_time] at hcoll hnext hqueue hflash hdisc
  rw [← Mach.settle_fld] at hcount
  rw [← hm] at hcoll hnext hqueue hflash hdisc hcount
  exact ⟨t, ht, hcoll, hnext, hqueue, hflash, hdisc, hcount, hev, hregs, hmem⟩

theorem exec_collatorRelease_lost (hq : s.m.time.queue.length < 512) (hf : 64 ≤ s.m.time.flashQueue.length)
    (hgoes : 1 ≤ e.cls ∨ e.code = 0x3C01) :
    ∃ t, exec (.collatorRelease cyc) s = .next t ∧ t.m.time.queue = s.m.time.queue ++ [(e, s.m.catSeq)] ∧
      t.m.time.flashQueue = s.m.time.flashQueue ∧ t.m.fld Reg.TIME_CATSEQ 31 16 = min (s.m.fld Reg.TIME_CATSEQ 31 16 + 1) 0xFFFF ∧
      Raises s t [eventAt (s.at cyc) 0x3C06 0 0xFF [] 0] ∧ SameRegsBut s t catRegs ∧ SameMemory s t := by
  obtain ⟨hqueue, hflash, hcount, htells⟩ := Mach.collatorRelease_lost (m := s.at cyc) hfirst hdue hq hf hgoes
  obtain ⟨t, ht, hm, hregs, hmem, hev⟩ := exec_collatorRelease cyc htells
  rw [← Mach.settle_time] at hqueue hflash
  rw [← Mach.settle_fld] at hcount
  rw [← hm] at hqueue hflash hcount
  exact ⟨t, ht, hqueue, hflash, hcount, hev, hregs, hmem⟩
end

/-! ### The stream (R382) -/

section
variable {s : State} (cyc : Nat) {l : Lane} {r : Nat}

theorem State.at_fld (a hi lo : Nat) : (s.at cyc).fld a hi lo = s.m.fld a hi lo := congrArg (·.bits hi lo) (State.at_rd cyc s a)

theorem State.at_ringSize : (s.at cyc).ringSize l r = s.m.ringSize l r := by
  rw [Mach.ringSize, Mach.ringSize, State.at_fld]

theorem State.at_cqFree : (s.at cyc).cqFree l r = s.m.cqFree l r := by
  unfold Mach.cqFree
  rw [State.at_ringSize, State.at_fld, State.at_fld]

theorem State.at_dma : (s.at cyc).dma = s.m.dma := rfl

theorem State.at_dmaRoom (op n : Nat) : (s.at cyc).dmaRoom l op n = s.m.dmaRoom l op n := by
  unfold Mach.dmaRoom
  rw [State.at_fld, State.at_fld, State.at_dma]

theorem State.at_ring : (s.at cyc).ring l r = s.m.ring l r := rfl

theorem State.at_ringState : (s.at cyc).ringState l r = s.m.ringState l r := State.at_fld ..

theorem Mach.StreamReady.at {port : Nat} {bytes : List Nat} {d : DmaDesc} {rest : List DmaDesc}
    (h : s.m.StreamReady l r port bytes d rest) : (s.at cyc).StreamReady l r port bytes d rest where
  runs := (State.at_ringState cyc).trans h.runs
  port := (State.at_fld ..).trans h.port
  fetched := (congrArg DmaRing.fetched (State.at_ring cyc)).trans h.fetched
  op := h.op
  good := h.good
  free := (State.at_cqFree cyc).trans h.free
  out := State.at_ring (s := s) (l := l) (r := r) cyc ▸ h.out
  room := (State.at_dmaRoom cyc ..).trans h.room
  first := State.at_ring (s := s) (l := l) (r := r) cyc ▸ h.first
end

section
variable (m : Mach) (n : Nat)

theorem Mach.settle_ring (l : Lane) (r : Nat) : m.settle.ring l r = m.ring l r := rfl

omit n in
theorem Mach.streamTaken_queue (l : Lane) (r : Nat) (bytes : List Nat) (d : DmaDesc) :
    (m.streamTaken l r bytes d).time.queue = m.time.queue := rfl

/-- The records that the writer offers. -/
def Mach.offered (m : Mach) (n : Nat) : List (Event × Nat) := m.time.queue.take (min (max n 1) 64)

/-- Their bytes. -/
def recordBytes (q : List (Event × Nat)) : List Nat := q.flatMap fun q => q.1.record q.2

/-- A writer whose records a ring has taken. -/
def Mach.streamed (m : Mach) (n : Nat) : Mach := m.onTime fun t => { t with queue := t.queue.drop n }

theorem Mach.offered_ne_nil (h : m.time.queue ≠ []) : m.offered n ≠ [] := by
  rw [Mach.offered, ne_eq, List.take_eq_nil_iff]
  rintro (h0 | h0)
  · omega
  · exact h h0

theorem Mach.catStream_still (h : m.bit Reg.TIME_CATCFG 31 = false ∨ m.time.queue = []) : m.catStream n = m := by
  have hidle : (!m.bit Reg.TIME_CATCFG 31 || (m.time.queue.take (min (max n 1) 64)).isEmpty) = true := by
    rcases h with h | h
    · rw [h]
      rfl
    · rw [h, List.take_nil, List.isEmpty_nil, Bool.or_true]
  exact if_pos hidle

variable (hon : m.bit Reg.TIME_CATCFG 31 = true) (hq : m.time.queue ≠ [])
include hon hq

theorem Mach.catStream_taken {x : Mach} (h : m.streamTake m.service (m.fld Reg.TIME_CATCFG 3 0) 4 (recordBytes (m.offered n)) = (true, x)) :
    m.catStream n = (x.streamed (m.offered n).length).showQueue := by
  have hgo : ¬(!m.bit Reg.TIME_CATCFG 31 || (m.offered n).isEmpty) = true := by
    rw [hon, List.isEmpty_eq_false_iff.2 (m.offered_ne_nil n hq)]
    decide
  refine (if_neg hgo).trans ?_
  rw [recordBytes, Mach.offered] at h
  rw [h]
  rfl

/-- The writer's records as a ring takes them. -/
theorem Mach.catStream_takes {l : Lane} {r : Nat} (hl : m.service = l) (hr : m.fld Reg.TIME_CATCFG 3 0 = r) (hring : m.hasRing l r)
    {d : DmaDesc} {rest : List DmaDesc} (hready : m.StreamReady l r 4 (recordBytes (m.offered n)) d rest) :
    (m.catStream n).time.queue = m.time.queue.drop (m.offered n).length ∧
      ((m.catStream n).ring l r).active = (m.ring l r).active ++
        [startedDesc d (recordBytes (m.offered n)) (min (recordBytes (m.offered n)).length d.len)
          (if d.len < (recordBytes (m.offered n)).length then 4 else 0)] ∧
      (m.catStream n).fld Reg.TIME_CATSTAT 31 22 = (m.time.queue.length - (m.offered n).length) % 1024 ∧
      m.FocTells [Reg.TIME_CATSTAT, Reg.DMA_R_HEAD l.ix r] [] (m.catStream n) := by
  have htaken := Mach.streamTake_ready hready
  have htook := congrArg DmaRing.active (Mach.ring_streamTaken hring (bytes := recordBytes (m.offered n)) hready.fetched)
  have hqueue := m.streamTaken_queue l r (recordBytes (m.offered n)) d
  have htells := (Mach.FocTells.refl m [Reg.TIME_CATSTAT, Reg.DMA_R_HEAD l.ix r]).streamTaken l r (by simp) (recordBytes (m.offered n)) d
  rw [← hl, ← hr] at htaken
  rw [m.catStream_taken n hon hq htaken, hl, hr]
  generalize m.streamTaken l r (recordBytes (m.offered n)) d = x at htook hqueue htells
  have hleft : (x.streamed (m.offered n).length).time.queue = m.time.queue.drop (m.offered n).length :=
    congrArg (List.drop (m.offered n).length) hqueue
  refine ⟨hleft, htook, ?_, (htells.onTime (f := fun t => { t with queue := t.queue.drop (m.offered n).length }) rfl rfl rfl).wr
    List.mem_cons_self (by decide) _⟩
  exact (Mach.showQueue_queued _).trans (congrArg (· % 1024) ((congrArg List.length hleft).trans List.length_drop))

theorem Mach.catStream_lost (h : m.streamTake m.service (m.fld Reg.TIME_CATCFG 3 0) 4 (recordBytes (m.offered n)) = (false, m)) :
    m.catStream n = m.streamDrop m.service (m.fld Reg.TIME_CATCFG 3 0) := by
  have hgo : ¬(!m.bit Reg.TIME_CATCFG 31 || (m.offered n).isEmpty) = true := by
    rw [hon, List.isEmpty_eq_false_iff.2 (m.offered_ne_nil n hq)]
    decide
  refine (if_neg hgo).trans ?_
  rw [recordBytes, Mach.offered] at h
  rw [h]
  rfl
end

section
variable (cyc n : Nat) {s : State} {l : Lane} {r : Nat}

theorem Mach.streamDrop_queue (m : Mach) (l : Lane) (r : Nat) : (m.streamDrop l r).time.queue = m.time.queue := by
  unfold Mach.streamDrop
  dsimp only
  split <;> rfl

theorem exec_catalogueStream_still (h : s.m.bit Reg.TIME_CATCFG 31 = false ∨ s.m.time.queue = []) :
    ∃ t, exec (.catalogueStream cyc n) s = .next t ∧ t.m.time = (s.at cyc).time ∧ t.m.dma = s.m.dma ∧ Quiet s t [] := by
  obtain ⟨t, ht, hm, hquiet⟩ := run_makes (f := fun m => m.catStream n) ((s.at cyc).catStream_still n h) (Mach.FocTells.refl _ [])
  exact ⟨t, ht, by rw [hm]; rfl, by rw [hm]; rfl, hquiet⟩

variable (hon : s.m.bit Reg.TIME_CATCFG 31 = true) (hr : r = s.m.fld Reg.TIME_CATCFG 3 0) (hl : s.m.service = l)
  (hq : s.m.time.queue ≠ []) (hring : s.m.hasRing l r)
include hon hr hl hq hring

theorem exec_catalogueStream_taken {d : DmaDesc} {rest : List DmaDesc}
    (hready : s.m.StreamReady l r 4 (recordBytes (s.m.offered n)) d rest) :
    ∃ t, exec (.catalogueStream cyc n) s = .next t ∧ t.m.time.queue = s.m.time.queue.drop (s.m.offered n).length ∧
      (t.m.ring l r).active = (s.m.ring l r).active ++
        [startedDesc d (recordBytes (s.m.offered n)) (min (recordBytes (s.m.offered n)).length d.len)
          (if d.len < (recordBytes (s.m.offered n)).length then 4 else 0)] ∧
      t.m.fld Reg.TIME_CATSTAT 31 22 = (s.m.time.queue.length - (s.m.offered n).length) % 1024 ∧
      Quiet s t [Reg.TIME_CATSTAT, Reg.DMA_R_HEAD l.ix r] := by
  have hservice : (s.at cyc).service = l := (congrArg Lane.ofIx (State.at_fld cyc ..)).trans hl
  have hreg : (s.at cyc).fld Reg.TIME_CATCFG 3 0 = r := (State.at_fld ..).trans hr.symm
  obtain ⟨hqueue, hactive, hstat, htells⟩ := Mach.catStream_takes (m := s.at cyc) n hon hq hservice hreg hring (hready.at cyc)
  obtain ⟨t, ht, hm, hquiet⟩ := run_makes (s := s) (cyc := cyc) (f := fun m => m.catStream n) rfl htells
  have hkept : ((s.at cyc).catStream n).settle.ring l r = ((s.at cyc).catStream n).ring l r := Mach.settle_ring ..
  refine ⟨t, ht, ?_, ?_, ?_, hquiet⟩
  · exact (congrArg (fun m : Mach => m.time.queue) hm).trans hqueue
  · rw [hm]
    exact (congrArg DmaRing.active hkept).trans hactive
  · rw [hm, Mach.settle_fld]
    exact hstat

omit hring in
theorem exec_catalogueStream_lost (hnone : s.m.ringState l r ≠ 1 ∨ s.m.fld (Reg.DMA_R_CFG l.ix r) 27 25 ≠ 4 ∨ (s.m.ring l r).fetched = [] ∨
      s.m.cqFree l r = false) :
    ∃ t, exec (.catalogueStream cyc n) s = .next t ∧ t.m.time.queue = s.m.time.queue ∧
      t.m.fld (Reg.DMA_R_STAT l.ix r) 31 16 = min (s.m.fld (Reg.DMA_R_STAT l.ix r) 31 16 + 1) 0xFFFF ∧
      Raises s t (if (s.m.ring l r).dropping then [] else [eventAt (s.at cyc) 0x3408 0 0xFF [] l.origin]) ∧
      SameRegsBut s t [Reg.DMA_R_STAT l.ix r, Reg.DMA_R_IRQ l.ix r] ∧ SameMemory s t := by
  have hservice : (s.at cyc).service = l := (congrArg Lane.ofIx (State.at_fld cyc ..)).trans hl
  have hreg : (s.at cyc).fld Reg.TIME_CATCFG 3 0 = r := (State.at_fld ..).trans hr.symm
  have hnone' : (s.at cyc).ringState l r ≠ 1 ∨ (s.at cyc).fld (Reg.DMA_R_CFG l.ix r) 27 25 ≠ 4 ∨ ((s.at cyc).ring l r).fetched = [] ∨
      (s.at cyc).cqFree l r = false := by rwa [State.at_ringState, State.at_fld, State.at_ring, State.at_cqFree]
  have htaken := (s.at cyc).streamTake_none l r (bytes := recordBytes ((s.at cyc).offered n)) hnone'
  rw [← hservice, ← hreg] at htaken
  have hmade := Mach.catStream_lost (s.at cyc) n hon hq htaken
  rw [hservice, hreg] at hmade
  obtain ⟨t, ht, hm, hregs, hmem, hev⟩ := run_makes (s := s) (cyc := cyc) (f := fun m => m.catStream n) hmade
    ((Mach.FocTells.refl (s.at cyc) [Reg.DMA_R_STAT l.ix r, Reg.DMA_R_IRQ l.ix r]).streamDrop l r (by simp) (by simp) rfl)
  refine ⟨t, ht, ?_, ?_, hev, hregs, hmem⟩
  · rw [hm, Mach.settle_time]
    exact Mach.streamDrop_queue ..
  · rw [hm, Mach.settle_fld, ((s.at cyc).streamDrop_counts l r).1, State.at_fld]
end

/-! ### The flash Catalogue (R383) -/

theorem length_record (e : Event) (n : Nat) : (e.record n).length = 32 := by
  simp [Event.record, length_leBytes, length_padTo]

/-- The header of a new sector of the flash Catalogue, but for its check value. -/
def Mach.catHead (m : Mach) : List Nat :=
  leBytes 4 0x53544143 ++ leBytes 4 (m.time.flashSectorNum + 1) ++ leBytes 4 (m.rd Reg.TIME_BOOT).toNat ++ List.replicate 16 0

/-- The header of a new sector. -/
def Mach.catHeaded (m : Mach) : List Nat := m.catHead ++ leBytes 4 (crc32c m.catHead)

section
variable (m : Mach) (mem : List Host.Cell) (ok : Bool)

theorem Mach.length_catHeaded : m.catHeaded.length = 32 := by
  simp [Mach.catHeaded, Mach.catHead, length_leBytes]

theorem Mach.catHeaded_lt : ∀ x ∈ m.catHeaded, x < 256 := fun x hx => by
  simp only [Mach.catHeaded, Mach.catHead, List.mem_append] at hx
  rcases hx with (((h | h) | h) | h) | h
  · exact leBytes_lt h
  · exact leBytes_lt h
  · exact leBytes_lt h
  · rw [List.eq_of_mem_replicate h]
    decide
  · exact leBytes_lt h

theorem Mach.catWrite_nil (h : m.time.flashQueue = []) : m.catWrite mem ok = (m, mem) := by
  unfold Mach.catWrite
  rw [h]

/-- A machine whose flash Catalogue has a sector with a place. -/
def Mach.catOpened (m : Mach) (mem : List Host.Cell) : Mach :=
  m.onTime fun t => { t with flashSector := catVictim mem, flashSlot := 0, flashSectorNum := m.time.flashSectorNum + 1 }

theorem Mach.catOpen_room (h : m.time.flashSlot < 127) : m.catOpen mem = (m, mem) := if_pos h

theorem Mach.catOpen_full (h : 127 ≤ m.time.flashSlot) : m.catOpen mem =
    (m.catOpened mem, Memory.writeL (Memory.clear mem (catSector (catVictim mem)) (catSector (catVictim mem + 1)))
      (catSector (catVictim mem)) m.catHeaded) := by
  have hfull : ¬m.time.flashSlot < 127 := Nat.not_lt.2 h
  exact if_neg hfull

/-- The place of the next record. -/
def Mach.catPlace (m : Mach) : Nat := catSector m.time.flashSector + 32 * (m.time.flashSlot + 1)

/-- A machine that has taken the oldest record of the flash queue. -/
def Mach.catTaken (m : Mach) (rest : List (Event × Nat)) : Mach :=
  m.onTime fun t => { t with flashQueue := rest, flashSlot := t.flashSlot + 1 }

/-- A machine that has lost it. -/
def Mach.catTorn (m : Mach) (rest : List (Event × Nat)) : Mach :=
  (((m.catTaken rest).spend 32).incSat Reg.TIME_CATSEQ 31 16).raise 0x3C06 0 |>.timeIrq 0

variable {m} {q : Event × Nat} {rest : List (Event × Nat)} (hq : m.time.flashQueue = q :: rest)
include hq

theorem Mach.catWrite_ok {x : Mach} {mem' : List Host.Cell} (h : m.catOpen mem = (x, mem')) :
    m.catWrite mem true = (x.catTaken rest, Memory.writeL mem' x.catPlace (q.1.record q.2)) := by
  unfold Mach.catWrite
  rw [hq]
  dsimp only
  rw [h]
  rfl

theorem Mach.catWrite_fails (h : m.time.flashSlot < 127) : ∃ torn, torn.length = 32 ∧
    m.catWrite mem false = (m.catTorn rest, Memory.writeL mem m.catPlace torn) := by
  unfold Mach.catWrite
  rw [hq]
  dsimp only
  rw [m.catOpen_room mem h]
  exact ⟨((m.catTaken rest).freeBytes 32).1, by simp [Mach.freeBytes], rfl⟩
end

section
variable {m : Mach} (rest : List (Event × Nat))

theorem Mach.catTaken_tells : m.FocTells [] [] (m.catTaken rest) := (Mach.FocTells.refl m []).onTime rfl rfl rfl

theorem Mach.catTorn_tells : m.FocTells [Reg.TIME_CATSEQ, Reg.TIME_IRQ_STAT] [eventAt m 0x3C06 0 0xFF [] 0] (m.catTorn rest) :=
  ((((((Mach.FocTells.refl m _).onTime rfl rfl rfl).spend 32).incSat (by decide) (by decide) 31 16).raise 0x3C06 0 0xFF [] 0).orr_of_not_stamp
    (by decide) (by decide) _)

theorem Mach.catTorn_counts : (m.catTorn rest).fld Reg.TIME_CATSEQ 31 16 = min (m.fld Reg.TIME_CATSEQ 31 16 + 1) 0xFFFF := by
  rw [Mach.fld, Mach.catTorn, Mach.timeIrq, Mach.rd_orr, if_neg (by decide), Mach.raise_rd]
  exact ((m.catTaken rest).spend 32).fld_incSat (by decide) (by decide)

theorem Mach.catTorn_time : (m.catTorn rest).time.flashQueue = rest ∧ (m.catTorn rest).time.flashSlot = m.time.flashSlot + 1 := ⟨rfl, rfl⟩
end

section
variable (cyc : Nat) {s : State}

theorem exec_flashCatalogueWrite_still (ok : Bool) (h : s.m.time.flashQueue = []) :
    ∃ t, exec (.flashCatalogueWrite cyc ok) s = .next t ∧ t.m.time = (s.at cyc).time ∧ Quiet s t [] := by
  obtain ⟨t, ht, hm, hquiet⟩ := runMem_makes (s := s) (cyc := cyc) (f := fun m mem => m.catWrite mem ok)
    ((s.at cyc).catWrite_nil s.mem ok h) (Mach.FocTells.refl _ [])
  exact ⟨t, ht, by rw [hm]; rfl, hquiet⟩

variable (hwf : Memory.wf s.mem = true) {q : Event × Nat} {rest : List (Event × Nat)} (hq : s.m.time.flashQueue = q :: rest)
include hwf hq

omit hq in
/-- A record reads back where it is written, and nothing else changes. -/
theorem record_reads (a : Nat) : (∀ i < 32, (Memory.read (Memory.writeL s.mem a (q.1.record q.2)) (a + i)).toNat =
      (q.1.record q.2).getD i 0 % 256) ∧
    ∀ b, b < a ∨ a + 32 ≤ b → Memory.read (Memory.writeL s.mem a (q.1.record q.2)) b = Memory.read s.mem b :=
  ⟨fun _ hi => Memory.read_writeL hwf a (by rwa [length_record]),
    fun _ hb => Memory.read_writeL_other hwf _ (by rwa [length_record])⟩

theorem exec_flashCatalogueWrite_ok (hslot : s.m.time.flashSlot < 127) :
    ∃ t, exec (.flashCatalogueWrite cyc true) s = .next t ∧ t.m.time.flashQueue = rest ∧
      t.m.time.flashSlot = s.m.time.flashSlot + 1 ∧ t.m.time.flashSector = s.m.time.flashSector ∧
      (∀ i < 32, (Memory.read t.mem (s.m.catPlace + i)).toNat = (q.1.record q.2).getD i 0 % 256) ∧
      (∀ b, b < s.m.catPlace ∨ s.m.catPlace + 32 ≤ b → Memory.read t.mem b = Memory.read s.mem b) ∧ SameRegsBut s t [] ∧
      Raises s t [] := by
  obtain ⟨t, ht, hm, hmem, hregs, hev⟩ := runMem_tells (s := s) (cyc := cyc) (f := fun m mem => m.catWrite mem true)
    (Mach.catWrite_ok (m := s.at cyc) s.mem hq ((s.at cyc).catOpen_room s.mem hslot)) (Mach.catTaken_tells rest)
  have hplace : (s.at cyc).catPlace = s.m.catPlace := rfl
  rw [hplace] at hmem
  obtain ⟨hin, hout⟩ := record_reads hwf (q := q) s.m.catPlace
  refine ⟨t, ht, ?_, ?_, ?_, ?_, ?_, hregs, hev⟩
  · rw [hm]
    rfl
  · rw [hm]
    rfl
  · rw [hm]
    rfl
  · rwa [hmem]
  · rwa [hmem]

theorem exec_flashCatalogueWrite_fails (hslot : s.m.time.flashSlot < 127) :
    ∃ t, exec (.flashCatalogueWrite cyc false) s = .next t ∧ t.m.time.flashQueue = rest ∧
      t.m.time.flashSlot = s.m.time.flashSlot + 1 ∧
      t.m.fld Reg.TIME_CATSEQ 31 16 = min (s.m.fld Reg.TIME_CATSEQ 31 16 + 1) 0xFFFF ∧
      (∀ b, b < s.m.catPlace ∨ s.m.catPlace + 32 ≤ b → Memory.read t.mem b = Memory.read s.mem b) ∧
      Raises s t [eventAt (s.at cyc) 0x3C06 0 0xFF [] 0] ∧ SameRegsBut s t [Reg.TIME_CATSEQ, Reg.TIME_IRQ_STAT] := by
  obtain ⟨torn, hlen, hmade⟩ := Mach.catWrite_fails (m := s.at cyc) s.mem hq hslot
  obtain ⟨t, ht, hm, hmem, hregs, hev⟩ := runMem_tells (s := s) (cyc := cyc) (f := fun m mem => m.catWrite mem false) hmade
    (Mach.catTorn_tells rest)
  obtain ⟨hqueue, hslot'⟩ := Mach.catTorn_time (m := s.at cyc) rest
  have hplace : (s.at cyc).catPlace = s.m.catPlace := rfl
  rw [hplace] at hmem
  refine ⟨t, ht, ?_, ?_, ?_, fun b hb => ?_, hev, hregs⟩
  · rw [hm, Mach.settle_time, hqueue]
  · rw [hm, Mach.settle_time, hslot']
    rfl
  · rw [hm, Mach.settle_fld, Mach.catTorn_counts, State.at_fld]
  · rw [hmem]
    exact Memory.read_writeL_other hwf _ (by rwa [hlen])

/-- A record in a newly opened sector. -/
theorem exec_flashCatalogueWrite_turns (hslot : 127 ≤ s.m.time.flashSlot) :
    ∃ t, exec (.flashCatalogueWrite cyc true) s = .next t ∧ t.m.time.flashQueue = rest ∧ t.m.time.flashSlot = 1 ∧
      t.m.time.flashSector = catVictim s.mem ∧ t.m.time.flashSectorNum = s.m.time.flashSectorNum + 1 ∧
      Memory.readN t.mem (catSector (catVictim s.mem)) 32 = s.m.catHeaded ∧
      (∀ j < 32, (Memory.read t.mem (catSector (catVictim s.mem) + 32 + j)).toNat = (q.1.record q.2).getD j 0 % 256) ∧
      (∀ b, catSector (catVictim s.mem) + 64 ≤ b → b < catSector (catVictim s.mem) + 4096 → Memory.read t.mem b = Memory.unlisted b) ∧
      (∀ b, b < catSector (catVictim s.mem) ∨ catSector (catVictim s.mem) + 4096 ≤ b → Memory.read t.mem b = Memory.read s.mem b) ∧
      SameRegsBut s t [] ∧ Raises s t [] := by
  have htells : (s.at cyc).FocTells [] [] (((s.at cyc).catOpened s.mem).catTaken rest) :=
    ((Mach.FocTells.refl (s.at cyc) []).onTime rfl rfl rfl).onTime rfl rfl rfl
  obtain ⟨t, ht, hm, hmem, hregs, hev⟩ := runMem_tells (s := s) (cyc := cyc) (f := fun m mem => m.catWrite mem true)
    (Mach.catWrite_ok (m := s.at cyc) s.mem hq ((s.at cyc).catOpen_full s.mem hslot)) htells
  have hend : catSector (catVictim s.mem + 1) = catSector (catVictim s.mem) + 4096 := by unfold catSector; omega
  have hhead : (s.at cyc).catHeaded = s.m.catHeaded := rfl
  have hplace : ((s.at cyc).catOpened s.mem).catPlace = catSector (catVictim s.mem) + 32 := rfl
  rw [hend, hhead, hplace] at hmem
  generalize catSector (catVictim s.mem) = a at hmem
  have hcleared := Memory.clear_wf hwf a (a + 4096)
  have hheaded := Memory.writeL_wf hcleared a s.m.catHeaded
  have hhlen := s.m.length_catHeaded
  have hrlen := length_record q.1 q.2
  refine ⟨t, ht, ?_, ?_, ?_, ?_, ?_, ?_, fun b hlo hhi => ?_, fun b hb => ?_, hregs, hev⟩
  · rw [hm]
    rfl
  · rw [hm]
    rfl
  · rw [hm]
    rfl
  · rw [hm]
    rfl
  · have hsame : Memory.readN t.mem a 32 = Memory.readN (Memory.writeL (Memory.clear s.mem a (a + 4096)) a s.m.catHeaded) a 32 :=
      List.map_congr_left fun i hi => congrArg BitVec.toNat (by
        have hi := List.mem_range.1 hi
        rw [hmem, Memory.read_writeL_other hheaded _ (.inl (by omega))])
    have hread := Memory.readN_writeL hcleared a s.m.catHeaded
    rw [hhlen, map_mod_of_lt s.m.catHeaded_lt] at hread
    rw [hsame, hread]
  · intro j hj
    rw [hmem]
    exact Memory.read_writeL hheaded _ (by rwa [hrlen])
  · rw [hmem, Memory.read_writeL_other hheaded _ (by omega), Memory.read_writeL_other hcleared _ (by omega), Memory.read_clear,
      if_pos ⟨by omega, hhi⟩]
    rfl
  · rw [hmem, Memory.read_writeL_other hheaded _ (by omega), Memory.read_writeL_clear_other hwf _ hb (by omega)]
end

/-- The delivery of an event that the capture does not look for. -/
theorem exec_eventDelivery_plain (cyc i : Nat) {s : State} {e : Event} (h : s.m.time.raised[i]? = some e)
    (hno : (s.m.capState ≠ 1 ∧ s.m.capState ≠ 2) ∨ s.m.capMatches e = false ∨ e.time < s.m.time.armedSince) :
    ∃ t, exec (.eventDelivery cyc i) s = .next t ∧
      t.m.time = { (s.at cyc).time with raised := s.m.time.raised.eraseIdx i, collator := s.m.time.collator ++ [e] } ∧
      SameRegsBut s t [] ∧ SameMemory s t := by
  have hplain : ((s.at cyc).delivered i e).capTrigger e = (s.at cyc).delivered i e := by
    have hst : ((s.at cyc).delivered i e).capState = s.m.capState := Mach.capState_congr (State.delivered_rd ..)
    have hmatch : ((s.at cyc).delivered i e).capMatches e = s.m.capMatches e := Mach.capMatches_congr (fun b => State.delivered_rd ..) e
    unfold Mach.capTrigger
    rw [hst, hmatch]
    split
    · rfl
    · next hgo =>
      rcases hno with ⟨h1, h2⟩ | hno | hno
      · rw [if_neg h1, if_neg h2]
      · exact absurd (by rw [hno]; rfl) hgo
      · refine absurd ?_ hgo
        have hearly : e.time < ((s.at cyc).delivered i e).time.armedSince := hno
        rw [decide_eq_true hearly, Bool.or_true]
  obtain ⟨t, ht, hm, hregs, hmem⟩ := exec_eventDelivery cyc i h (regs := []) hplain fun b _ => State.delivered_rd ..
  exact ⟨t, ht, by rw [hm]; rfl, hregs, hmem⟩

theorem exec_eventDelivery_none (cyc i : Nat) {s : State} (h : s.m.time.raised[i]? = none) :
    ∃ t, exec (.eventDelivery cyc i) s = .next t ∧ t.m.time = (s.at cyc).time ∧ Quiet s t [] := by
  have hat : (s.at cyc).time.raised[i]? = none := h
  have hf : (fun m : Mach => match m.time.raised[i]? with
      | some e => (m.delivered i e).capTrigger e
      | none => m) (s.at cyc) = s.at cyc := by
    simp only [hat]
  obtain ⟨t, ht, hm, hquiet⟩ := run_makes (f := fun m => match m.time.raised[i]? with
      | some e => (m.delivered i e).capTrigger e
      | none => m) hf (Mach.FocTells.refl _ [])
  exact ⟨t, ht, by rw [hm]; rfl, hquiet⟩

/-- Settles O47: a release by the room in its queues, the stream by what the ring takes, the flash by the room in its sector. -/
theorem eventsReachTheCatalogue : Obligations.EventsReachTheCatalogue := by
  refine ⟨fun cyc i s => ⟨fun e h hno => exec_eventDelivery_plain cyc i h hno, exec_eventDelivery_none cyc i⟩,
    fun cyc s e hfirst => ⟨exec_collatorRelease_early cyc hfirst, exec_collatorRelease_room cyc hfirst, exec_collatorRelease_full cyc hfirst,
      exec_collatorRelease_lost cyc hfirst⟩,
    fun cyc s h => ?_,
    fun cyc n s r l hon hr hl hq hring => ⟨fun d rest hruns hport hfetched hop hgood hfree hout hroom hfirst =>
        exec_catalogueStream_taken cyc n hon hr hl hq hring ⟨hruns, hport, hfetched, hop, hgood, hfree, hout, hroom, hfirst⟩,
      exec_catalogueStream_lost cyc n hon hr hl hq⟩,
    fun cyc n s => exec_catalogueStream_still cyc n,
    fun cyc s q rest hwf hq _ => ⟨fun hslot => ⟨exec_flashCatalogueWrite_ok cyc hwf hq hslot, exec_flashCatalogueWrite_fails cyc hwf hq hslot⟩,
      exec_flashCatalogueWrite_turns cyc hwf hq⟩,
    fun cyc ok s => exec_flashCatalogueWrite_still cyc ok⟩
  obtain ⟨t, ht, hm, hquiet⟩ := run_makes (f := fun m => m.collatorRelease) ((s.at cyc).collatorRelease_none h) (Mach.FocTells.refl _ [])
  exact ⟨t, ht, by rw [hm]; rfl, hquiet⟩

end Sys2Proof.Machine
end

section
/-! Rails, and what makes a device reset due (R464 to R468). -/

namespace Sys2Proof.Machine

variable {s : State} {m : Mach} {cyc : Nat}

/-! ### Memory that outlives the power -/

theorem Cells.get_filter {w : Nat} (cells : List (Nat × BitVec w)) {p : Nat × BitVec w → Bool} {a : Nat} (h : ∀ x, p (a, x) = true) :
    Cells.get (cells.filter p) a = Cells.get cells a := by
  induction cells with
  | nil => rfl
  | cons c cells ih =>
    obtain ⟨b, x⟩ := c
    by_cases hb : b = a
    · subst hb
      rw [List.filter_cons_of_pos (h x), Cells.get, Cells.get, if_pos rfl, if_pos rfl]
    · rw [Cells.get, if_neg hb]
      by_cases hp : p (b, x) = true
      · rw [List.filter_cons_of_pos hp, Cells.get, if_neg hb, ih]
      · rw [List.filter_cons_of_neg hp, ih]

theorem Cells.get_filter_none {w : Nat} (cells : List (Nat × BitVec w)) {p : Nat × BitVec w → Bool} {a : Nat} (h : ∀ x, p (a, x) = false) :
    Cells.get (cells.filter p) a = none := by
  induction cells with
  | nil => rfl
  | cons c cells ih =>
    obtain ⟨b, x⟩ := c
    by_cases hp : p (b, x) = true
    · have hb : b ≠ a := fun hba => Bool.noConfusion ((h x).symm.trans (hba ▸ hp))
      rw [List.filter_cons_of_pos hp, Cells.get, if_neg hb, ih]
    · rw [List.filter_cons_of_neg hp, ih]

/-- What outlives a loss of power: the cells of flash. -/
def flashCells (mem : List Host.Cell) : List Host.Cell := mem.filter fun c => decide (regionOf c.1 = .flash)

theorem read_flashCells (mem : List Host.Cell) (a : Nat) :
    Memory.read (flashCells mem) a = if regionOf a = .flash then Memory.read mem a else Memory.unlisted a := by
  by_cases h : regionOf a = .flash
  · rw [if_pos h, Memory.read, flashCells, Cells.get_filter mem fun _ => decide_eq_true h, Memory.read]
  · rw [if_neg h, Memory.read, flashCells, Cells.get_filter_none mem fun _ => decide_eq_false h, Option.getD_none]

/-! ### The stop of the core -/

theorem Mach.bit_iff_fld {a i : Nat} : m.bit a i = true ↔ m.fld a i i ≠ 0 := by
  rw [Mach.bit, Word.bit_eq_bits, decide_eq_true_iff, Mach.fld]
  have := Word.bits_lt (m.rd a) i i
  rw [Nat.add_sub_cancel_left, Nat.pow_one] at this
  omega

theorem Mach.coreStops_rd {b : Nat} (h : b ∉ [Reg.GDI_OVSTAT, Reg.SAFE_OUTS]) : m.coreStops.rd b = m.rd b := by
  simp only [List.mem_cons, List.not_mem_nil, or_false, not_or] at h
  show ((m.setBit Reg.GDI_OVSTAT 0 false).setFld Reg.SAFE_OUTS 6 0 0).rd b = m.rd b
  rw [Mach.rd_setFld, if_neg h.2, Mach.rd_setBit, if_neg h.1]

/-- R218: every channel is off, and no tick runs. -/
def Mach.AtRest (m : Mach) : Prop :=
  m.gate.enabled = 0 ∧ m.gate.enB = 0 ∧ m.gate.enS = 0 ∧ m.gate.clamped = false ∧ m.bit Reg.GDI_OVSTAT 0 = false ∧
    m.fld Reg.SAFE_OUTS 6 0 = 0 ∧ m.tick.running = false

theorem Mach.coreStops_atRest : m.coreStops.AtRest := by
  refine ⟨rfl, rfl, rfl, rfl, ?_, ?_, rfl⟩
  · show ((m.setBit Reg.GDI_OVSTAT 0 false).setFld Reg.SAFE_OUTS 6 0 0).bit Reg.GDI_OVSTAT 0 = false
    rw [Mach.bit_setFld_other _ _ (by decide) (by decide) (.inl (by decide)), Mach.bit_setBit _ _ (by decide)]
  · exact (m.setBit Reg.GDI_OVSTAT 0 false).fld_setFld 0 (by decide) (by decide)

/-- A core at rest stays so while no output and no level is written. -/
theorem Mach.AtRest.congr {m' : Mach} (h : m.AtRest) (hgate : m'.gate = m.gate) (htick : m'.tick = m.tick)
    (hgdi : m'.rd Reg.GDI_OVSTAT = m.rd Reg.GDI_OVSTAT) (houts : m'.rd Reg.SAFE_OUTS = m.rd Reg.SAFE_OUTS) : m'.AtRest := by
  obtain ⟨hen, henB, henS, hcl, hov, hout, hrun⟩ := h
  exact ⟨hgate ▸ hen, hgate ▸ henB, hgate ▸ henS, hgate ▸ hcl, (congrArg (Word.bit · 0) hgdi).trans hov,
    (congrArg (Word.bits · 6 0) houts).trans hout, htick ▸ hrun⟩

theorem stopped_of_atRest {t : State} (hm : t.m = m.settle) (h : m.AtRest) : Stopped t := by
  have hs : m.settle.AtRest := h.congr (Mach.settle_gate ..) (Mach.settle_tick ..) (Mach.settle_rd ..) (Mach.settle_rd ..)
  rw [← hm] at hs
  exact hs

/-! ### Commands that leave the events -/

theorem run_quiet {f : Mach → Mach} {regs : List Nat} (hf : f (s.at cyc) = m) (hrd : ∀ b, b ∉ regs → m.rd b = s.m.rd b)
    (htime : m.time = (s.at cyc).time) :
    ∃ t, run s cyc f = .next t ∧ t.m = m.settle ∧ Quiet s t regs := by
  subst hf
  obtain ⟨t, ht, hm, hregs, hmem, hev⟩ := run_leaves (es := []) (f := f) hrd
    ((congrArg TimeState.raised htime).trans (List.append_nil _).symm)
  exact ⟨t, ht, hm, hregs, hmem, hev⟩

theorem run_idle {f : Mach → Mach} (hf : f (s.at cyc) = s.at cyc) :
    ∃ t, run s cyc f = .next t ∧ t.m = (s.at cyc).settle ∧ Quiet s t [] := run_quiet hf (fun _ _ => State.at_rd ..) rfl

theorem runMem_idle {f : Mach → List Host.Cell → Mach × List Host.Cell} (hf : f (s.at cyc) s.mem = (s.at cyc, s.mem)) :
    ∃ t, runMem s cyc f = .next t ∧ t.m = (s.at cyc).settle ∧ Quiet s t [] := by
  obtain ⟨t, ht, hm, hregs, hmem, hev⟩ := runMem_makes (f := f) (es := []) (regs := []) hf (.refl _ _)
  exact ⟨t, ht, hm, hregs, hmem, hev⟩

theorem idle_pwr {t : State} (hm : t.m = (s.at cyc).settle) : t.m.pwr = s.m.pwr :=
  hm ▸ (Mach.settle_pwr _).trans (State.at_pwr ..)

/-! ### The rows of the rails -/

theorem Mach.powerUp_rises {good : Nat} (hphase : m.pwr.phase = .off ∨ m.pwr.phase = .waiting) (hvin : m.pwr.vinOk = true) :
    m.powerUp good = (m.showRails (min good 6)).onPwr fun p => { p with phase := if 6 ≤ good then .up else .off } := by
  rw [Mach.powerUp, if_neg (by rw [hvin]; rcases hphase with h | h <;> simp [h])]

theorem Mach.powerUp_idle {good : Nat} (h : ¬((m.pwr.phase = .off ∨ m.pwr.phase = .waiting) ∧ m.pwr.vinOk = true)) :
    m.powerUp good = m := by
  rw [Mach.powerUp, if_pos]
  rw [not_and_or, not_or, Bool.not_eq_true] at h
  exact h

theorem Mach.showRails_rd {good b : Nat} (h : b ∉ [Reg.PWR_STATUS, Reg.ACQ_STATUS]) : (m.showRails good).rd b = m.rd b := by
  simp only [List.mem_cons, List.not_mem_nil, or_false, not_or] at h
  rw [Mach.showRails, Mach.rd_setBit, if_neg h.2, Mach.rd_setFld, if_neg h.1]

theorem Mach.showRails_shows (good : Nat) (h : good ≤ 6) :
    (m.showRails good).fld Reg.PWR_STATUS 5 0 = 2 ^ good - 1 ∧ (m.showRails good).bit Reg.ACQ_STATUS 12 = decide (5 ≤ good) := by
  refine ⟨?_, Mach.bit_setBit _ _ (by decide)⟩
  rw [Mach.showRails, Mach.fld_setBit_other _ _ (by decide) (by decide) (.inl (by decide)), Mach.fld_setFld _ _ (by decide) (by decide)]
  have := Nat.pow_le_pow_right (n := 2) (by decide) h
  omega

theorem exec_powerUpSequence (cyc : Nat) (good : Fin 7) (s : State)
    (hphase : s.m.pwr.phase = .off ∨ s.m.pwr.phase = .waiting) (hvin : s.m.pwr.vinOk = true) :
    ∃ t, exec (.powerUpSequence cyc good) s = .next t ∧ t.m.fld Reg.PWR_STATUS 5 0 = 2 ^ good.val - 1 ∧
      t.m.bit Reg.ACQ_STATUS 12 = decide (5 ≤ good.val) ∧
      t.m.pwr = { s.m.pwr with phase := if good.val = 6 then .up else .off } ∧ Quiet s t [Reg.PWR_STATUS, Reg.ACQ_STATUS] := by
  have hgood : good.val ≤ 6 := by omega
  have hf := Mach.powerUp_rises (m := s.at cyc) (good := good) (by rwa [State.at_pwr]) (by rwa [State.at_pwr])
  rw [min_eq_left hgood] at hf
  obtain ⟨t, ht, hm, hq⟩ := run_quiet (f := fun m => m.powerUp good) hf
    (fun b hb => (Mach.showRails_rd (m := s.at cyc) hb).trans (State.at_rd ..)) rfl
  obtain ⟨hfld, hbit⟩ := Mach.showRails_shows (m := s.at cyc) good hgood
  refine ⟨t, ht, hm ▸ (Mach.settle_fld ..).trans hfld, hm ▸ (Mach.settle_bit ..).trans hbit, ?_, hq⟩
  rw [hm, Mach.settle_pwr]
  have hsix : (6 ≤ good.val) = (good.val = 6) := propext ⟨fun h => by omega, fun h => by omega⟩
  show ({ (s.at cyc).pwr with phase := if 6 ≤ good.val then .up else .off } : PwrState) = _
  simp only [State.at_pwr, hsix]

theorem exec_railRiseTimeout (cyc : Nat) (s : State) (r : Fin 6) (hphase : s.m.pwr.phase = .off) (hr : s.m.bit Reg.PWR_STATUS r = false)
    (hbelow : ∀ q : Fin 6, q < r → s.m.bit Reg.PWR_STATUS q = true) :
    ∃ t, exec (.railRiseTimeout cyc) s = .next t ∧
      t.m.pwr = { s.m.pwr with phase := .falling, due := some 1, rail := r, tries := s.m.pwr.tries + 1 } ∧ Quiet s t [] := by
  have hbit (i : Nat) : (s.at cyc).bit Reg.PWR_STATUS i = s.m.bit Reg.PWR_STATUS i := by rw [Mach.bit, State.at_rd, Mach.bit]
  have hfind : ((List.range 6).find? fun q => !(s.at cyc).bit Reg.PWR_STATUS q) = some r.val := by
    rw [List.find?_range_eq_some]
    refine ⟨by rw [hbit, hr]; rfl, List.mem_range.2 r.isLt, fun q hq => ?_⟩
    rw [hbit, hbelow ⟨q, hq.trans r.isLt⟩ hq]
    rfl
  have hf : (s.at cyc).riseTimeout =
      (s.at cyc).onPwr fun p => { p with phase := .falling, due := some 1, rail := r, tries := p.tries + 1 } := by
    rw [Mach.riseTimeout, hfind]
    exact if_neg (by rw [State.at_pwr]; exact not_not.2 hphase)
  obtain ⟨t, ht, hm, hq⟩ := run_quiet (f := fun m => m.riseTimeout) (regs := []) hf (fun b _ => State.at_rd cyc s b) rfl
  refine ⟨t, ht, ?_, hq⟩
  rw [hm, Mach.settle_pwr]
  show ({ (s.at cyc).pwr with phase := .falling, due := some 1, rail := r, tries := (s.at cyc).pwr.tries + 1 } : PwrState) = _
  rw [State.at_pwr]

theorem riseTimeout_idle (h : m.pwr.phase ≠ .off ∨ ∀ r : Fin 6, m.bit Reg.PWR_STATUS r = true) : m.riseTimeout = m := by
  rw [Mach.riseTimeout]
  cases hfind : (List.range 6).find? fun r => !m.bit Reg.PWR_STATUS r with
  | none => rfl
  | some r =>
    obtain ⟨hr, hmem, -⟩ := List.find?_range_eq_some.1 hfind
    refine if_pos (h.resolve_right fun hall => ?_)
    rw [hall ⟨r, List.mem_range.1 hmem⟩] at hr
    exact Bool.noConfusion hr

theorem Mach.railFault_falls {r : Nat} (hgood : m.bit Reg.PWR_STATUS r = true) (hphase : m.pwr.phase = .up ∨ m.pwr.phase = .off) :
    m.railFault r = (if r = 4 then (m.setBit Reg.PWR_STATUS r false).coreStops.setBit Reg.ACQ_STATUS 12 false
      else (m.setBit Reg.PWR_STATUS r false).coreStops).onPwr fun p => { p with phase := .falling, due := some 1, rail := r } := by
  rw [Mach.railFault, if_neg]
  rw [not_or, not_and_or, not_not, not_not]
  exact ⟨Mach.bit_iff_fld.1 hgood, hphase⟩

theorem Mach.railFault_idle {r : Nat} (h : ¬(m.bit Reg.PWR_STATUS r = true ∧ (m.pwr.phase = .up ∨ m.pwr.phase = .off))) :
    m.railFault r = m := by
  rw [Mach.railFault, if_pos]
  rwa [Mach.bit_iff_fld, not_and_or, not_not, not_or] at h

/-- The registers that a failing rail changes. -/
def railFaultRegs (r : Fin 6) : List Nat := [Reg.PWR_STATUS, Reg.GDI_OVSTAT, Reg.SAFE_OUTS] ++ if r = 4 then [Reg.ACQ_STATUS] else []

/-- The machine whose rail `r` has failed, before Bedrock takes note of the reset that is due. -/
def Mach.railOut (m : Mach) (r : Nat) : Mach :=
  if r = 4 then (m.setBit Reg.PWR_STATUS r false).coreStops.setBit Reg.ACQ_STATUS 12 false
  else (m.setBit Reg.PWR_STATUS r false).coreStops

theorem Mach.railOut_rd {r : Fin 6} {b : Nat} (h : b ∉ railFaultRegs r) : (m.railOut r).rd b = m.rd b := by
  have hstops : b ∉ [Reg.PWR_STATUS, Reg.GDI_OVSTAT, Reg.SAFE_OUTS] → (m.setBit Reg.PWR_STATUS r false).coreStops.rd b = m.rd b :=
    fun hb => by
      rw [List.mem_cons, not_or] at hb
      rw [Mach.coreStops_rd hb.2, Mach.rd_setBit, if_neg hb.1]
  rw [railFaultRegs, List.mem_append, not_or] at h
  by_cases hr : r = 4
  · subst hr
    rw [if_pos rfl, List.mem_singleton] at h
    refine Eq.trans ?_ (hstops h.1)
    exact (Mach.rd_setBit ..).trans (if_neg h.2)
  · rw [Mach.railOut, if_neg (show ¬r.val = 4 from fun h4 => hr (Fin.ext h4))]
    exact hstops h.1

theorem Mach.railOut_time {r : Nat} : (m.railOut r).time = m.time := by
  rw [Mach.railOut, apply_ite Mach.time]
  exact ite_self _

theorem Mach.railOut_pwr {r : Nat} : (m.railOut r).pwr = m.pwr := by
  rw [Mach.railOut, apply_ite Mach.pwr]
  exact ite_self _

theorem Mach.railOut_atRest {r : Nat} : (m.railOut r).AtRest := by
  rw [Mach.railOut]
  have h := (m.setBit Reg.PWR_STATUS r false).coreStops_atRest
  refine iteInduction (motive := Mach.AtRest) (fun _ => ?_) fun _ => h
  exact h.congr rfl rfl (by rw [Mach.rd_setBit, if_neg (by decide)]) (by rw [Mach.rd_setBit, if_neg (by decide)])

theorem Mach.railOut_bit {r : Nat} (hr : r < 6) : (m.railOut r).bit Reg.PWR_STATUS r = false := by
  have hstops : (m.setBit Reg.PWR_STATUS r false).coreStops.bit Reg.PWR_STATUS r = false := by
    rw [Mach.bit, Mach.coreStops_rd (by decide), ← Mach.bit, Mach.bit_setBit _ _ (by omega)]
  rw [Mach.railOut]
  refine iteInduction (motive := fun x : Mach => x.bit Reg.PWR_STATUS r = false) (fun _ => ?_) fun _ => hstops
  rw [Mach.bit_setBit_other _ _ (by decide) (.inl (by decide)), hstops]

theorem exec_railFault (cyc : Nat) (r : Fin 6) (s : State) (hgood : s.m.bit Reg.PWR_STATUS r = true)
    (hphase : s.m.pwr.phase = .up ∨ s.m.pwr.phase = .off) :
    ∃ t, exec (.railFault cyc r) s = .next t ∧ t.m.bit Reg.PWR_STATUS r = false ∧ Stopped t ∧
      (r = 4 → t.m.bit Reg.ACQ_STATUS 12 = false) ∧ t.m.pwr = { s.m.pwr with phase := .falling, due := some 1, rail := r } ∧
      Quiet s t (railFaultRegs r) := by
  have hf : (s.at cyc).railFault r = ((s.at cyc).railOut r).onPwr fun p => { p with phase := .falling, due := some 1, rail := r } :=
    Mach.railFault_falls (by rwa [Mach.bit, State.at_rd]) (by rwa [State.at_pwr])
  obtain ⟨t, ht, hm, hq⟩ := run_quiet (f := fun m => m.railFault r) (regs := railFaultRegs r) hf
    (fun b hb => (Mach.railOut_rd (m := s.at cyc) hb).trans (State.at_rd ..)) (Mach.railOut_time (m := s.at cyc))
  refine ⟨t, ht, hm ▸ (Mach.settle_bit ..).trans (Mach.railOut_bit (m := s.at cyc) r.isLt),
    stopped_of_atRest hm ((Mach.railOut_atRest (m := s.at cyc) (r := r)).congr rfl rfl rfl rfl), fun h4 => ?_, ?_, hq⟩
  · subst h4
    exact hm ▸ (Mach.settle_bit ..).trans (Mach.bit_setBit _ _ (by decide))
  · rw [hm, Mach.settle_pwr]
    show ({ ((s.at cyc).railOut r).pwr with phase := .falling, due := some 1, rail := r } : PwrState) = _
    rw [Mach.railOut_pwr, State.at_pwr]

/-- A command that stops the core and then has its say in the power state. -/
theorem run_coreStops {f : Mach → Mach} (g : PwrState → PwrState) (hf : f (s.at cyc) = (s.at cyc).coreStops.onPwr g) :
    ∃ t, run s cyc f = .next t ∧ Stopped t ∧ t.m.pwr = g s.m.pwr ∧ Quiet s t [Reg.GDI_OVSTAT, Reg.SAFE_OUTS] := by
  obtain ⟨t, ht, hm, hq⟩ := run_quiet (f := f) (regs := [Reg.GDI_OVSTAT, Reg.SAFE_OUTS]) hf
    (fun b hb => (Mach.coreStops_rd (m := s.at cyc) hb).trans (State.at_rd ..)) rfl
  refine ⟨t, ht, stopped_of_atRest hm ((s.at cyc).coreStops_atRest.congr rfl rfl rfl rfl), ?_, hq⟩
  rw [hm, Mach.settle_pwr]
  exact congrArg g (State.at_pwr s cyc)

theorem exec_vinAuxLow (cyc : Nat) (s : State) :
    let p := s.m.pwr.phase
    let down := p = .up ∨ p = .falling ∨ (p = .off ∧ s.m.fld Reg.PWR_STATUS 5 0 ≠ 0)
    ∃ t, exec (.vinAuxLow cyc) s = .next t ∧ Stopped t ∧
      t.m.pwr = { s.m.pwr with vinOk := false, due := some 6, tries := 0, phase := if down then .falling else .off } ∧
      Quiet s t [Reg.GDI_OVSTAT, Reg.SAFE_OUTS] := by
  have hrails : (s.at cyc).coreStops.fld Reg.PWR_STATUS 5 0 = s.m.fld Reg.PWR_STATUS 5 0 := by
    rw [Mach.fld, Mach.coreStops_rd (by decide), State.at_rd, Mach.fld]
  refine run_coreStops (f := fun m => m.vinLow) (fun p => { p with
    vinOk := false, due := some 6, tries := 0
    phase := if p.phase = .up ∨ p.phase = .falling ∨ (p.phase = .off ∧ s.m.fld Reg.PWR_STATUS 5 0 ≠ 0) then .falling else .off }) ?_
  rw [← hrails]
  rfl

theorem exec_rstNAssert (cyc : Nat) (s : State) :
    let p := s.m.pwr.phase
    ∃ t, exec (.rstNAssert cyc) s = .next t ∧ Stopped t ∧
      t.m.pwr = { s.m.pwr with
        due := some 2, tries := 0, phase := if p = .gaveUp ∨ p = .asleep ∨ p = .waiting then .off else p } ∧
      Quiet s t [Reg.GDI_OVSTAT, Reg.SAFE_OUTS] :=
  run_coreStops (f := fun m => m.resetPin) (fun p => { p with
    due := some 2, tries := 0, phase := if p.phase = .gaveUp ∨ p.phase = .asleep ∨ p.phase = .waiting then .off else p.phase }) rfl

theorem exec_vinAuxRestored (cyc : Nat) (s : State) :
    ∃ t, exec (.vinAuxRestored cyc) s = .next t ∧ t.m.pwr = { s.m.pwr with vinOk := true } ∧ Quiet s t [] := by
  obtain ⟨t, ht, hm, hq⟩ := run_quiet (f := fun m => m.vinBack) (s := s) (cyc := cyc) (regs := []) rfl (fun b _ => State.at_rd cyc s b) rfl
  refine ⟨t, ht, ?_, hq⟩
  rw [hm, Mach.settle_pwr]
  exact congrArg (fun p : PwrState => { p with vinOk := true }) (State.at_pwr s cyc)

/-! ### The rails have fallen -/

/-- What the wake logic and Bedrock make of rails that have fallen. -/
def PwrState.fallen (p : PwrState) : PwrState :=
  if p.due.isSome then
    { p with
      booted := false
      phase := if p.due = some 1 ∧ 3 ≤ p.tries then .gaveUp else if p.due = some 1 ∧ 0 < p.tries then .waiting else .off }
  else if p.wakeLatch ≠ 0 then { p with booted := false, phase := .off, due := some 4, waking := true }
  else { p with booted := false, phase := .asleep }

theorem PwrState.fallen_booted {p : PwrState} : p.fallen.booted = false := by
  unfold PwrState.fallen
  split
  · rfl
  · split <;> rfl

theorem PwrState.fallen_none {p : PwrState} (h : p.due = none) : p.fallen = { p with
    booted := false
    phase := if p.wakeLatch = 0 then .asleep else .off
    due := if p.wakeLatch = 0 then none else some 4
    waking := p.waking || decide (p.wakeLatch ≠ 0) } := by
  by_cases hw : p.wakeLatch = 0
  · simp [PwrState.fallen, h, hw]
  · simp [PwrState.fallen, h, hw]

theorem PwrState.fallen_rail {p : PwrState} (h : p.due = some 1) : p.fallen = { p with
    booted := false, phase := if 3 ≤ p.tries then .gaveUp else if 0 < p.tries then .waiting else .off } := by
  simp [PwrState.fallen, h]

theorem PwrState.fallen_due {p : PwrState} {c : Nat} (h : p.due = some c) (hc : c ≠ 1) :
    p.fallen = { p with booted := false, phase := .off } := by
  simp [PwrState.fallen, h, hc]

/-- The machine whose rails have fallen, short of the power state. -/
def Mach.railsDown (m : Mach) : Mach :=
  if m.pwr.due.isSome then m.showRails 0 else (m.showRails 0).setBit Reg.SYS_MODE_STAT 9 false

theorem Mach.powerDown_falling {mem : List Host.Cell} (h : m.pwr.phase = .falling) :
    m.powerDown mem = (m.railsDown.onPwr PwrState.fallen, flashCells mem) := by
  rw [Mach.powerDown, if_neg (not_not.2 h), Mach.railsDown]
  by_cases hdue : m.pwr.due.isSome = true
  · rw [if_pos hdue]
    refine (if_pos hdue).trans (Prod.ext ?_ rfl)
    exact congrArg (fun p : PwrState => { m.showRails 0 with pwr := p })
      (if_pos hdue : m.pwr.fallen = _).symm
  · rw [if_neg hdue]
    refine (if_neg hdue).trans ?_
    by_cases hwake : m.pwr.wakeLatch ≠ 0
    · refine (if_pos hwake).trans (Prod.ext ?_ rfl)
      exact congrArg (fun p : PwrState => { (m.showRails 0).setBit Reg.SYS_MODE_STAT 9 false with pwr := p })
        ((if_neg hdue : m.pwr.fallen = _).trans (if_pos hwake)).symm
    · refine (if_neg hwake).trans (Prod.ext ?_ rfl)
      exact congrArg (fun p : PwrState => { (m.showRails 0).setBit Reg.SYS_MODE_STAT 9 false with pwr := p })
        ((if_neg hdue : m.pwr.fallen = _).trans (if_neg hwake)).symm

theorem Mach.railsDown_time : m.railsDown.time = m.time := by
  rw [Mach.railsDown, apply_ite Mach.time]
  exact ite_self _

theorem Mach.railsDown_pwr : m.railsDown.pwr = m.pwr := by
  rw [Mach.railsDown, apply_ite Mach.pwr]
  exact ite_self _

theorem Mach.railsDown_rd {b : Nat} (h : b ∉ [Reg.PWR_STATUS, Reg.ACQ_STATUS, Reg.SYS_MODE_STAT]) : m.railsDown.rd b = m.rd b := by
  have hshow : (m.showRails 0).rd b = m.rd b := Mach.showRails_rd fun hb => h (by simp only [List.mem_cons] at hb ⊢; tauto)
  rw [Mach.railsDown]
  refine iteInduction (motive := fun x : Mach => x.rd b = m.rd b) (fun _ => hshow) fun _ => ?_
  rw [Mach.rd_setBit, if_neg (fun hb => h (by simp [hb])), hshow]

theorem Mach.railsDown_shows : m.railsDown.fld Reg.PWR_STATUS 5 0 = 0 ∧ m.railsDown.bit Reg.ACQ_STATUS 12 = false := by
  have hshow := m.showRails_shows 0 (by decide)
  rw [Mach.railsDown]
  refine iteInduction (motive := fun x : Mach => x.fld Reg.PWR_STATUS 5 0 = 0 ∧ x.bit Reg.ACQ_STATUS 12 = false) (fun _ => hshow) fun _ => ?_
  rw [Mach.fld_setBit_other _ _ (by decide) (by decide) (.inl (by decide)), Mach.bit_setBit_other _ _ (by decide) (.inl (by decide))]
  exact hshow

theorem exec_powerDownSequence (cyc : Nat) (s : State) (h : s.m.pwr.phase = .falling) :
    ∃ t, exec (.powerDownSequence cyc) s = .next t ∧ t.m = ((s.at cyc).railsDown.onPwr PwrState.fallen).settle ∧
      t.m.pwr = s.m.pwr.fallen ∧ OnlyFlashKept s t ∧
      SameRegsBut s t [Reg.PWR_STATUS, Reg.ACQ_STATUS, Reg.SYS_MODE_STAT] ∧ Raises s t [] := by
  have hf := Mach.powerDown_falling (m := s.at cyc) (mem := s.mem) (by rwa [State.at_pwr])
  obtain ⟨t, ht, hm, hmem⟩ : ∃ t, exec (.powerDownSequence cyc) s = .next t ∧
      t.m = ((s.at cyc).railsDown.onPwr PwrState.fallen).settle ∧ t.mem = flashCells s.mem :=
    ⟨_, rfl, congrArg (fun x : Mach × List Host.Cell => x.1.settle) hf, congrArg Prod.snd hf⟩
  refine ⟨t, ht, hm, ?_, fun a => hmem ▸ read_flashCells s.mem a, fun a ha => ?_, ?_⟩
  · rw [hm, Mach.settle_pwr]
    exact congrArg PwrState.fallen (Mach.railsDown_pwr.trans (State.at_pwr ..))
  · exact hm ▸ (Mach.settle_rd ..).trans ((Mach.railsDown_rd (m := s.at cyc) ha).trans (State.at_rd ..))
  · rw [Raises, hm, Mach.settle_time]
    exact (congrArg TimeState.raised (Mach.railsDown_time (m := s.at cyc))).trans (List.append_nil _).symm

/-- Settles O56: VIN_AUX that is applied, falls and returns, RST_N, and the rails that rise, fail to rise, fail and fall, each with what
it leaves in the power state. -/
theorem railsRiseFallAndMakeResetsDue : Obligations.RailsRiseFallAndMakeResetsDue := by
  refine ⟨fun cyc src s => ?_, fun cyc good s => ⟨fun ⟨hphase, hvin⟩ => exec_powerUpSequence cyc good s hphase hvin, fun h => ?_⟩,
    fun cyc s => ⟨fun r hphase hr hbelow => exec_railRiseTimeout cyc s r hphase hr hbelow, fun h => ?_⟩,
    fun cyc r s => ⟨fun ⟨hgood, hphase⟩ => exec_railFault cyc r s hgood hphase, fun h => ?_⟩,
    fun cyc s => ⟨exec_vinAuxLow cyc s, exec_vinAuxRestored cyc s, exec_rstNAssert cyc s⟩, fun cyc s => ⟨fun h => ?_, fun h => ?_⟩⟩
  · exact ⟨_, rfl, rfl, rfl, rfl, rfl, rfl, rfl, fun a => Mach.settle_rd .., rfl, read_flashCells s.mem⟩
  · obtain ⟨t, ht, hm, hq⟩ := run_idle (s := s) (cyc := cyc) (f := fun m => m.powerUp good) (Mach.powerUp_idle (by rwa [State.at_pwr]))
    exact ⟨t, ht, idle_pwr hm, hq⟩
  · obtain ⟨t, ht, hm, hq⟩ := run_idle (s := s) (cyc := cyc) (f := fun m => m.riseTimeout)
      (riseTimeout_idle (by rw [State.at_pwr]; exact h.imp_right fun hall r => (congrArg (Word.bit · r) (State.at_rd ..)).trans (hall r)))
    exact ⟨t, ht, idle_pwr hm, hq⟩
  · obtain ⟨t, ht, hm, hq⟩ := run_idle (s := s) (cyc := cyc) (f := fun m => m.railFault r)
      (Mach.railFault_idle (by rwa [Mach.bit, State.at_rd, State.at_pwr]))
    exact ⟨t, ht, idle_pwr hm, hm ▸ Mach.settle_gate .., hm ▸ (Mach.settle_tick ..).trans (State.at_tick ..), hq⟩
  · obtain ⟨t, ht, hm, hpwr, hmem, hregs, hev⟩ := exec_powerDownSequence cyc s h
    obtain ⟨hrails, hvdda⟩ := (s.at cyc).railsDown_shows
    refine ⟨t, ht, hm ▸ (Mach.settle_fld ..).trans hrails, hm ▸ (Mach.settle_bit ..).trans hvdda, ?_, hmem,
      fun hdue => ⟨?_, ?_⟩, fun hdue => ?_, fun c hdue hc => ?_, hregs, hev⟩
    · rw [hpwr, PwrState.fallen_booted]
    · have hdown : (s.at cyc).railsDown = ((s.at cyc).showRails 0).setBit Reg.SYS_MODE_STAT 9 false :=
        if_neg (by rw [State.at_pwr, hdue]; exact Bool.false_ne_true)
      refine hm ▸ (Mach.settle_bit ..).trans ?_
      show (s.at cyc).railsDown.bit _ _ = _
      rw [hdown, Mach.bit_setBit _ _ (by decide)]
    · rw [hpwr, PwrState.fallen_none hdue]
    · rw [hpwr, PwrState.fallen_rail hdue]
    · rw [hpwr, PwrState.fallen_due hdue hc]
  · obtain ⟨t, ht, hm, hq⟩ := runMem_idle (s := s) (cyc := cyc) (f := fun m mem => m.powerDown mem)
      (if_pos (by rwa [State.at_pwr]))
    exact ⟨t, ht, idle_pwr hm, hq⟩

end Sys2Proof.Machine
end

section
/-! SLEEP_ENTRY at a boundary: the session closes in a core that has stopped already. -/

namespace Sys2Proof.Machine

/-- SLEEP with the tick still running and a session open. -/
def asleepInSession : State :=
  { m := { (Mach.initial .px960).onTicks (fun t => { t with running := true }) with
      regs := [(Reg.TICK_PERIOD, 8000#32), (Reg.SYS_MODE_STAT, 0#32), (Reg.SAFE_SESS_STAT, 0x20000000#32)] }
    mem := [], pending := [] }

/-- SLEEP_ENTRY with a session open tells its end as a core tells it in which no tick runs. -/
theorem sleepEntry_raised {s t : State} {cyc : Nat} (hmode : s.m.mode = .sleep) (hrun : s.m.tick.running = true)
    (hsess : (s.at cyc).coreStops.sess = 2) (ht : exec (.sleepEntry cyc true) s = .next t) :
    t.m.time.raised = s.m.time.raised ++ [eventAt (s.at cyc).coreStops 0x400E 0 0xFF [] 0] := by
  have hgo : ¬((s.at cyc).mode ≠ .sleep ∨ (s.at cyc).tick.running = false) := fun h =>
    h.elim (fun h => h hmode) fun h => Bool.noConfusion (hrun.symm.trans h)
  have hentry : ((s.at cyc).sleepEntry s.mem true).1.time =
      (((s.at cyc).coreStops.logAppend s.mem true 3 3 0 0).1.sessionEnded).time := by
    rw [Mach.sleepEntry, if_neg hgo]
    dsimp only
    rw [Mach.endSession_open hsess s.mem true 3]
    rfl
  have htells := ((s.at cyc).coreStops.logAppend_ok_tells (regs := [Reg.SAFE_LOG_STAT, Reg.SAFE_SESS_STAT, Reg.SAFE_STATUS,
    Reg.SAFE_IRQ_STAT]) s.mem (by decide) 3 3 0 0).sessionEnded (by decide) (by decide) (by decide)
  have hm : t.m = ((s.at cyc).sleepEntry s.mem true).1.settle := (congrArg State.m (Host.Outcome.next.inj ht)).symm
  have hstill : (s.at cyc).coreStops.time.raised = s.m.time.raised := rfl
  rw [hm, Mach.settle_time, hentry, htells.raised, hstill, List.nil_append]

/-- Refutes O57: at a cycle equal to the period the end of the session would be told with the next tick's number, but SLEEP_ENTRY has
stopped the tick before it tells, and gives the number of the tick that ends. -/
theorem not_sleepWakeCrystalAndBedrock : ¬ Obligations.SleepWakeCrystalAndBedrock := by
  rintro ⟨h, -⟩
  have hmode : asleepInSession.m.mode = .sleep := by decide
  obtain ⟨-, hsession⟩ := h 8000 asleepInSession hmode rfl
  obtain ⟨⟨t, ht, -, -, -, -, hraises, -⟩, -⟩ := hsession rfl (by decide)
  have hraised := sleepEntry_raised hmode rfl (by decide) ht
  have hticks : (asleepInSession.at 8000).coreStops.tickNow = 0 ∧ (asleepInSession.at 8000).tickNow = 1 := by decide
  have hevent := List.append_cancel_left (hraised.symm.trans hraises)
  have hsame := congrArg Event.tick (List.cons.inj hevent).1
  simp only [eventAt, hticks.1, hticks.2] at hsame
  exact absurd hsame (by decide)

end Sys2Proof.Machine
end

section
/-! A device reset up to the end of loading (R454, R455, R468, R469). -/

namespace Sys2Proof.Machine

variable {s : State} {m : Mach} {cyc : Nat}

/-! ### What loading leaves alone -/

/-- What the loading of an image leaves as it is: what has been told, the wake logic's and Bedrock's state, the fuses, the tick. -/
def Mach.loadView (m : Mach) : TimeState × PwrState × List (Option (List Nat)) × List Bool × Bool :=
  (m.time, { m.pwr with balance := 0, ascBoot := false }, m.img.keys, m.img.revoked, m.tick.running)

/-- The same with the running image's own data, which the first step of loading brings. -/
def Mach.imageView (m : Mach) : Image × TimeState × PwrState × List (Option (List Nat)) × List Bool × Bool := (m.image, m.loadView)

theorem Mach.loadRegs_loads (b : List Nat) (fs : List Folio) :
    (m.loadRegs b fs).loadView = m.loadView ∧ (m.loadRegs b fs).image = imageOf b fs := by
  have hview : (m.loadRegs b fs).imageView = (imageOf b fs, m.loadView) := by
    rw [Mach.loadRegs_eq]
    exact forL_keeps Mach.imageView (fun l m => forL_keeps Mach.imageView
      (fun i m => by rw [apply_ite Mach.imageView]; exact ite_self _) _ m) _ _
  exact ⟨congrArg Prod.snd hview, congrArg Prod.fst hview⟩

theorem Mach.loadLaw_view (fs : List Folio) : (m.loadLaw fs).imageView = m.imageView := rfl

theorem Mach.showImage_view (c : CommitRecord) (b : List Nat) (fs : List Folio) : (m.showImage c b fs).imageView = m.imageView := rfl

theorem Mach.wrS_view (a : Nat) (v : Int) : (m.wrS a v).imageView = m.imageView := rfl

theorem Mach.wrN_view (a v : Nat) : (m.wrN a v).imageView = m.imageView := rfl

theorem Mach.setFld_view (a hi lo v : Nat) : (m.setFld a hi lo v).imageView = m.imageView := rfl

theorem Mach.setBit_view (a i : Nat) (x : Bool) : (m.setBit a i x).imageView = m.imageView := rfl

theorem Mach.setSess_view (v : Nat) : (m.setSess v).imageView = m.imageView := rfl

theorem Mach.onSafe_view (f : SafeState → SafeState) : (m.onSafe f).imageView = m.imageView := rfl

theorem Mach.onDrv_view (d : Nat) (f : ActDrive → ActDrive) : (m.onDrv d f).imageView = m.imageView := rfl

theorem Mach.onEval_view (sp : Bool) (f : Evaluator → Evaluator) : (m.onEval sp f).imageView = m.imageView := by
  cases sp <;> rfl

theorem Mach.ite_view {c : Prop} [Decidable c] {x y : Mach} (hx : x.imageView = m.imageView) (hy : y.imageView = m.imageView) :
    (if c then x else y).imageView = m.imageView := iteInduction (motive := fun x : Mach => x.imageView = m.imageView) (fun _ => hx) fun _ => hy

theorem Mach.quotPu_view (num : Int) (den : Nat) : (m.quotPu num den).2.imageView = m.imageView := by
  rw [Mach.quotPu, apply_ite Prod.snd]
  exact Mach.ite_view rfl rfl

theorem Mach.ksl_view (base : Nat) (ld imk : Int) : (m.ksl base ld imk).2.imageView = m.imageView := by
  rw [Mach.ksl]
  exact Mach.quotPu_view ..

theorem Mach.deriveMotor_view (i : Nat) : (m.deriveMotor i).imageView = m.imageView := by
  unfold Mach.deriveMotor
  refine Mach.ite_view rfl ?_
  dsimp only
  generalize (2 ^ 58 * (if m.rdS (Reg.FOC_M_PSI 0 i) < 0 then -1 else 1) : Int) = num
  refine (forL_keeps Mach.imageView (fun l m => ?_) _ _).trans ((Mach.ksl_view ..).trans (Mach.quotPu_view ..))
  simp only [Mach.wrS_view]

theorem Mach.predict_view (arr : Nat) : (m.predict arr).imageView = m.imageView := by
  unfold Mach.predict
  dsimp only
  rw [Mach.wrN_view, Mach.wrN_view]

theorem Mach.derive_view (arr : Nat) : (m.derive arr).imageView = m.imageView := by
  unfold Mach.derive
  extract_lets m₁ m₂ m₃ plhd m₄ fnom m₅ kp m₆
  have h₂ : m₂.imageView = m.imageView := (Mach.deriveMotor_view 1).trans ((Mach.deriveMotor_view 0).trans (Mach.predict_view arr))
  have h₃ : m₃.imageView = m.imageView :=
    (forL_keeps Mach.imageView (fun x m => Mach.ite_view rfl (Mach.wrS_view ..)) _ _).trans h₂
  have h₄ : m₄.imageView = m.imageView := (Mach.wrS_view ..).trans ((Mach.wrS_view ..).trans h₃)
  have h₅ : m₅.imageView = m.imageView := (Mach.wrS_view ..).trans h₄
  have h₆ : m₆.imageView = m.imageView := (Mach.wrN_view ..).trans ((Mach.wrN_view ..).trans h₅)
  exact Mach.ite_view h₄ ((Mach.wrN_view ..).trans ((Mach.wrN_view ..).trans h₆))

theorem Mach.startTables_view : m.startTables.imageView = m.imageView := by
  unfold Mach.startTables
  extract_lets start m₁ m₂ fns
  have h₁ : m₁.imageView = m.imageView := rfl
  have h₂ : m₂.imageView = m₁.imageView := forN_keeps Mach.imageView (fun _ _ => Mach.onDrv_view ..) 6 _
  rw [Mach.onEval_view, Mach.onEval_view, h₂, h₁]

theorem Mach.startBlocks_view : m.startBlocks.imageView = m.imageView := by
  unfold Mach.startBlocks
  extract_lets m₁ m₂ m₃ m₄ m₅ m₆ m₇
  have h₁ : m₁.imageView = m.imageView :=
    forN_keeps Mach.imageView (fun _ _ => (Mach.setFld_view ..).trans (Mach.setFld_view ..)) 16 m
  have h₂ : m₂.imageView = m₁.imageView := Mach.setBit_view ..
  have h₃ : m₃.imageView = m₂.imageView := forN_keeps Mach.imageView (fun c m => Mach.ite_view (Mach.setFld_view ..) rfl) 8 m₂
  have h₄ : m₄.imageView = m₃.imageView := rfl
  have h₅ : m₅.imageView = m₄.imageView := forN_keeps Mach.imageView (fun _ _ => Mach.wrN_view ..) 20 m₄
  have h₆ : m₆.imageView = m₅.imageView := forL_keeps Mach.imageView (fun _ _ => Mach.wrN_view ..) [0, 1] m₅
  have h₇ : m₇.imageView = m₆.imageView := Mach.setFld_view ..
  rw [Mach.setFld_view, Mach.wrN_view, h₇, h₆, h₅, h₄, h₃, h₂, h₁]

theorem Mach.pwBoot_view (mem : List Host.Cell) (p : PwRecord) : (m.pwBoot mem p).1.imageView = m.imageView := by
  unfold Mach.pwBoot
  dsimp only
  split <;> exact Mach.onSafe_view _

theorem Mach.sessBoot_view (mem : List Host.Cell) : (m.sessBoot mem).imageView = m.imageView := by
  unfold Mach.sessBoot Mach.lockOut
  dsimp only
  refine Mach.ite_view ?_ ?_
  · rw [Mach.setSess_view, Mach.setFld_view]
  · rw [Mach.setFld_view, Mach.setSess_view, Mach.onSafe_view, Mach.setFld_view]

theorem Mach.loadImage_loads (mem : List Host.Cell) (c : CommitRecord) (b : List Nat) :
    (m.loadImage mem c b).1.locked = true ∧ (m.loadImage mem c b).1.image.loaded = true ∧
      (m.loadImage mem c b).1.loadView.2 = m.loadView.2 ∧
      ∃ e : Event, e.code = 0x4401 ∧ (m.loadImage mem c b).1.time.raised = m.time.raised ++ [e] := by
  unfold Mach.loadImage
  extract_lets fs m₁ m₂ m₃ mem' x m₄
  obtain ⟨hregs, himage⟩ := m.loadRegs_loads b fs
  have hview : m₄.imageView = m₁.imageView :=
    (Mach.sessBoot_view _).trans ((Mach.pwBoot_view ..).trans (Mach.startBlocks_view.trans (Mach.startTables_view.trans
      ((Mach.derive_view _).trans (Mach.loadLaw_view fs)))))
  have hshown : m₁.imageView = (imageOf b fs, m.loadView) :=
    (Mach.showImage_view c b fs).trans (Prod.ext himage hregs)
  have hall := hview.trans hshown
  have himage₄ : m₄.image = imageOf b fs := congrArg Prod.fst hall
  have hload₄ : m₄.loadView = m.loadView := congrArg Prod.snd hall
  clear_value m₄
  refine ⟨rfl, congrArg Image.loaded himage₄, Eq.trans (b := m₄.loadView.2) rfl (congrArg Prod.snd hload₄),
    eventAt { m₄ with locked := true } 0x4401 0 0xFF ([c.bank] ++ leBytes 4 c.seq) 0, rfl, ?_⟩
  have htime : m₄.time = m.time := congrArg Prod.fst hload₄
  rw [← htime]
  rfl

/-! ### The choice of a bank -/

/-- The machine but for registers and what is told. -/
def Mach.besideTold (m : Mach) : Mach := { m with regs := [], setNow := [], time := { m.time with raised := [], evcnt := 0 } }

/-- No more than these registers and what is told has changed. -/
structure Mach.ToldOnly (regs : List Nat) (m m' : Mach) : Prop where
  raised : m.time.raised <+: m'.time.raised
  beside : m'.besideTold = m.besideTold
  rd : ∀ b, b ∉ regs → m'.rd b = m.rd b

section
variable {regs : List Nat} {m' m'' : Mach}

theorem Mach.ToldOnly.refl (m : Mach) : Mach.ToldOnly regs m m := ⟨List.prefix_rfl, rfl, fun _ _ => rfl⟩

theorem Mach.ToldOnly.wr (h : Mach.ToldOnly regs m m') {a : Nat} (ha : a ∈ regs) (w : Word) : Mach.ToldOnly regs m (m'.wr a w) :=
  ⟨h.raised, h.beside, fun b hb => (m'.rd_wr_other w fun hba => hb (by rwa [hba])).trans (h.rd b hb)⟩

theorem Mach.ToldOnly.raise (h : Mach.ToldOnly regs m m') (code cls slot : Nat) (d : List Nat) (o : Nat) :
    Mach.ToldOnly regs m (m'.raise code cls slot d o) :=
  ⟨h.raised.trans (List.prefix_append ..), h.beside, fun b hb => (m'.raise_rd ..).trans (h.rd b hb)⟩

theorem Mach.ToldOnly.orr (h : Mach.ToldOnly regs m m') {a : Nat} (ha : a ∈ regs) (v : Nat) : Mach.ToldOnly regs m (m'.orr a v) :=
  ⟨h.raised, h.beside, (h.wr ha _).rd⟩

theorem Mach.ToldOnly.imgReject (h : Mach.ToldOnly regs m m') (hrej : Reg.IMG_REJECT ∈ regs) (hoff : Reg.IMG_REJOFF ∈ regs)
    (hirq : Reg.IMG_IRQ_STAT ∈ regs) (r : Reject) : Mach.ToldOnly regs m (m'.imgReject r) :=
  (((h.wr hrej _).wr hoff _).raise ..).orr hirq _

theorem Mach.ToldOnly.bankFails (h : Mach.ToldOnly regs m m') (hrej : Reg.IMG_REJECT ∈ regs) (hoff : Reg.IMG_REJOFF ∈ regs)
    (hirq : Reg.IMG_IRQ_STAT ∈ regs) (t : BankTry) : Mach.ToldOnly regs m (m'.bankFails t) := by
  cases t with
  | mismatch => exact h
  | rejected r => exact h.imgReject hrej hoff hirq r
  | accepted b => exact h

theorem Mach.ToldOnly.chooseBank (hrej : Reg.IMG_REJECT ∈ regs) (hoff : Reg.IMG_REJOFF ∈ regs) (hirq : Reg.IMG_IRQ_STAT ∈ regs)
    (m : Mach) (mem : List Host.Cell) : Mach.ToldOnly regs m (m.chooseBank mem).1 := by
  have hfails := fun t => (Mach.ToldOnly.refl (regs := regs) m).bankFails hrej hoff hirq t
  unfold Mach.chooseBank
  split
  · exact .refl m
  · split
    · exact .refl m
    · dsimp only
      split
      · exact hfails _
      · split
        · exact hfails _
        · exact (hfails _).bankFails hrej hoff hirq _
end

/-- Nothing is chosen where no commit record is valid (R454). -/
theorem Mach.chooseBank_none {mem : List Host.Cell} (h : newestCommit mem = none) : m.chooseBank mem = (m, none) := by
  rw [Mach.chooseBank, h]

/-! ### Boot up to the end of loading -/

/-- The registers that boot writes before it loads an image. -/
def bootRegs : List Nat := [Reg.IMG_REJECT, Reg.IMG_REJOFF, Reg.IMG_IRQ_STAT, Reg.IMG_STATUS]

/-- Boot that has found the records in flash and told its beginning. -/
def Mach.bootScanned (m : Mach) (mem : List Host.Cell) : Mach :=
  let x := (((m.wrN Reg.TIME_BOOT (bootNumber mem)).catScan mem).logScan mem).lvcScan mem
  x.raise 0x3C01 0 0xFF (leBytes 8 ((((m.wrN Reg.TIME_BOOT (bootNumber mem)).catScan mem).logScan mem).rd64 Reg.SYS_UID_LO Reg.SYS_UID_HI) ++
    leBytes 2 (bootNumber mem))

/-- Boot that has chosen a bank. -/
def Mach.bootChosen (m : Mach) (mem : List Host.Cell) : Mach :=
  let x := ((m.bootScanned mem).chooseBank mem).1
  if logGap mem then (x.setBit Reg.IMG_STATUS 25 true).raise 0x4404 0 else x

theorem Mach.boot_idle {mem : List Host.Cell} (h : ((m.bootScanned mem).chooseBank mem).2 = none) :
    m.boot mem = (m.bootChosen mem, mem) := by
  have hboot : m.boot mem = match ((m.bootScanned mem).chooseBank mem).2 with
    | none => (m.bootChosen mem, mem)
    | some (c, b, fallback) =>
      (if fallback then (((m.bootChosen mem).loadImage mem c b).1.setBit Reg.IMG_STATUS 26 true).raise 0x4403 1
        else ((m.bootChosen mem).loadImage mem c b).1, ((m.bootChosen mem).loadImage mem c b).2) := rfl
  rw [hboot, h]

/-- The mark and the event of a bank that is not the newest. -/
def Mach.bootShown (m : Mach) (fallback : Bool) : Mach :=
  if fallback then (m.setBit Reg.IMG_STATUS 26 true).raise 0x4403 1 else m

theorem Mach.boot_loads {mem : List Host.Cell} {c : CommitRecord} {b : List Nat} {fallback : Bool}
    (h : ((m.bootScanned mem).chooseBank mem).2 = some (c, b, fallback)) :
    m.boot mem = (((m.bootChosen mem).loadImage mem c b).1.bootShown fallback, ((m.bootChosen mem).loadImage mem c b).2) := by
  have hboot : m.boot mem = match ((m.bootScanned mem).chooseBank mem).2 with
    | none => (m.bootChosen mem, mem)
    | some (c, b, fallback) =>
      (((m.bootChosen mem).loadImage mem c b).1.bootShown fallback, ((m.bootChosen mem).loadImage mem c b).2) := rfl
  rw [hboot, h]

theorem Mach.lvcScan_rd (mem : List Host.Cell) {b : Nat} (h : b ≠ Reg.LVC_FRSEQ) : (m.lvcScan mem).rd b = m.rd b := by
  unfold Mach.lvcScan
  extract_lets best
  clear_value best
  cases best with
  | none => rfl
  | some x => exact (Mach.rd_wrN ..).trans (if_neg h)

theorem Mach.logScan_rd (mem : List Host.Cell) {b : Nat} (h : b ≠ Reg.SAFE_LOG_STAT) : (m.logScan mem).rd b = m.rd b := by
  unfold Mach.logScan
  dsimp only
  split <;> exact (Mach.rd_wrN ..).trans (if_neg h)

theorem Mach.catScan_rd (mem : List Host.Cell) (b : Nat) : (m.catScan mem).rd b = m.rd b := by
  unfold Mach.catScan
  split <;> rfl

/-- What the search of flash leaves alone beside registers. -/
def Mach.scanView (m : Mach) : List Event × PwrState × ImgState × TickState × Image × Bool × Variant :=
  (m.time.raised, m.pwr, m.img, m.tick, m.image, m.locked, m.variant)

theorem Mach.catScan_view (mem : List Host.Cell) : (m.catScan mem).scanView = m.scanView := by
  unfold Mach.catScan
  split <;> rfl

theorem Mach.logScan_view (mem : List Host.Cell) : (m.logScan mem).scanView = m.scanView := by
  unfold Mach.logScan
  dsimp only
  split <;> rfl

theorem Mach.lvcScan_view (mem : List Host.Cell) : (m.lvcScan mem).scanView = m.scanView := by
  unfold Mach.lvcScan
  extract_lets best
  clear_value best
  cases best <;> rfl

theorem Mach.bootScanned_view (m : Mach) (mem : List Host.Cell) : (m.bootScanned mem).scanView.2 = m.scanView.2 ∧
    ∃ e : Event, e.code = 0x3C01 ∧ (m.bootScanned mem).time.raised = m.time.raised ++ [e] := by
  unfold Mach.bootScanned
  generalize leBytes 8 _ ++ leBytes 2 _ = data
  extract_lets x
  have hview : x.scanView = m.scanView := ((Mach.lvcScan_view mem).trans (Mach.logScan_view mem)).trans
    (Mach.catScan_view (m := m.wrN Reg.TIME_BOOT (bootNumber mem)) mem)
  clear_value x
  have hraised : x.time.raised = m.time.raised := congrArg Prod.fst hview
  exact ⟨Eq.trans (b := x.scanView.2) rfl (congrArg Prod.snd hview), eventAt x 0x3C01 0 0xFF data 0, rfl, hraised ▸ rfl⟩

theorem Mach.bootScanned_rd (mem : List Host.Cell) {b : Nat} (h : b ∉ [Reg.TIME_BOOT, Reg.SAFE_LOG_STAT, Reg.LVC_FRSEQ]) :
    (m.bootScanned mem).rd b = m.rd b := by
  simp only [List.mem_cons, List.not_mem_nil, or_false, not_or] at h
  obtain ⟨hboot, hlog, hlvc⟩ := h
  rw [Mach.bootScanned, Mach.raise_rd, Mach.lvcScan_rd mem hlvc, Mach.logScan_rd mem hlog, Mach.catScan_rd, Mach.rd_wrN, if_neg hboot]

theorem Mach.bootScanned_number (mem : List Host.Cell) :
    (m.bootScanned mem).rd Reg.TIME_BOOT = BitVec.ofNat 32 (bootNumber mem) := by
  rw [Mach.bootScanned, Mach.raise_rd, Mach.lvcScan_rd mem (by decide), Mach.logScan_rd mem (by decide), Mach.catScan_rd, Mach.rd_wrN,
    if_pos rfl]

theorem Mach.bootChosen_told (m : Mach) (mem : List Host.Cell) : Mach.ToldOnly bootRegs (m.bootScanned mem) (m.bootChosen mem) := by
  have hchosen := Mach.ToldOnly.chooseBank (regs := bootRegs) (by decide) (by decide) (by decide) (m.bootScanned mem) mem
  unfold Mach.bootChosen
  extract_lets x
  refine iteInduction (motive := Mach.ToldOnly bootRegs (m.bootScanned mem)) (fun _ => ?_) fun _ => hchosen
  exact (hchosen.wr (a := Reg.IMG_STATUS) (by decide) _).raise ..

theorem Mach.scanView_keeps {m' : Mach} (h : m'.scanView.2 = m.scanView.2) :
    m'.loadView.2 = m.loadView.2 ∧ m'.image = m.image ∧ m'.locked = m.locked :=
  ⟨congrArg (fun v : PwrState × ImgState × TickState × Image × Bool × Variant =>
    ({ v.1 with balance := 0, ascBoot := false }, v.2.1.keys, v.2.1.revoked, v.2.2.1.running)) h,
    congrArg (fun v : PwrState × ImgState × TickState × Image × Bool × Variant => v.2.2.2.1) h,
    congrArg (fun v : PwrState × ImgState × TickState × Image × Bool × Variant => v.2.2.2.2.1) h⟩

theorem Mach.ToldOnly.view {regs : List Nat} {m' : Mach} (h : Mach.ToldOnly regs m m') : m'.scanView.2 = m.scanView.2 := by
  have hview := congrArg (fun x : Mach => x.scanView.2) h.beside
  exact hview

/-- What a reset and boot without an image leave alone of the machine they find, and what an image adds to it. -/
structure Mach.Boots (mem : List Host.Cell) (m m' : Mach) (mem' : List Host.Cell) : Prop where
  first : ∃ e es, e.code = 0x3C01 ∧ m'.time.raised = m.time.raised ++ e :: es
  view : m'.loadView.2 = m.loadView.2
  lock : m'.image.loaded = true → m'.locked = true ∧ 0x4401 ∈ m'.time.raised.map (·.code)
  idle : m'.image.loaded = false → m'.locked = m.locked ∧ mem' = mem ∧ m'.rd Reg.TIME_BOOT = BitVec.ofNat 32 (bootNumber mem) ∧
    ∀ b, b ∉ [Reg.TIME_BOOT, Reg.SAFE_LOG_STAT, Reg.LVC_FRSEQ] ++ bootRegs → m'.rd b = m.rd b

theorem Mach.bootChosen_raised (mem : List Host.Cell) :
    ∃ e es, e.code = 0x3C01 ∧ (m.bootChosen mem).time.raised = m.time.raised ++ e :: es := by
  obtain ⟨-, e, hcode, hraised⟩ := m.bootScanned_view mem
  obtain ⟨es, hes⟩ := (m.bootChosen_told mem).raised
  exact ⟨e, es, hcode, by rw [← hes, hraised, List.append_assoc, List.singleton_append]⟩

theorem Mach.bootChosen_view (mem : List Host.Cell) : (m.bootChosen mem).loadView.2 = m.loadView.2 ∧
    (m.bootChosen mem).image = m.image ∧ (m.bootChosen mem).locked = m.locked := by
  obtain ⟨hscan, -⟩ := m.bootScanned_view mem
  exact Mach.scanView_keeps ((m.bootChosen_told mem).view.trans hscan)

theorem Mach.boot_spec (hloaded : m.image.loaded = false) (mem : List Host.Cell) :
    Mach.Boots mem m (m.boot mem).1 (m.boot mem).2 ∧ (newestCommit mem = none → (m.boot mem).1.image.loaded = false) := by
  obtain ⟨e, es, hcode, hraised⟩ := m.bootChosen_raised mem
  obtain ⟨hview, himage, hlocked⟩ := m.bootChosen_view mem
  have hrd : ∀ b, b ∉ [Reg.TIME_BOOT, Reg.SAFE_LOG_STAT, Reg.LVC_FRSEQ] ++ bootRegs → (m.bootChosen mem).rd b = m.rd b := fun b hb => by
    rw [List.mem_append, not_or] at hb
    exact ((m.bootChosen_told mem).rd b hb.2).trans (Mach.bootScanned_rd mem hb.1)
  have hnumber : (m.bootChosen mem).rd Reg.TIME_BOOT = BitVec.ofNat 32 (bootNumber mem) :=
    ((m.bootChosen_told mem).rd _ (by decide)).trans (Mach.bootScanned_number mem)
  rw [← himage] at hloaded
  cases hbank : ((m.bootScanned mem).chooseBank mem).2 with
  | none =>
    rw [Mach.boot_idle hbank]
    generalize m.bootChosen mem = w at *
    have hboots : Mach.Boots mem m w mem :=
      ⟨⟨e, es, hcode, hraised⟩, hview, fun h => Bool.noConfusion (hloaded.symm.trans h), fun _ => ⟨hlocked, rfl, hnumber, hrd⟩⟩
    exact ⟨hboots, fun _ => hloaded⟩
  | some x =>
    obtain ⟨c, b, fallback⟩ := x
    rw [Mach.boot_loads hbank]
    generalize m.bootChosen mem = w at *
    obtain ⟨hlock, himg, hload, e', hcode', hraised'⟩ := w.loadImage_loads mem c b
    generalize w.loadImage mem c b = y at *
    have hnone : newestCommit mem ≠ none := fun h => by
      rw [Mach.chooseBank_none h] at hbank
      exact absurd hbank (by simp)
    have hshown : ∀ m', Mach.ToldOnly [Reg.IMG_STATUS] y.1 m' →
        Mach.Boots mem m m' y.2 := fun m' h => by
      obtain ⟨es', hes'⟩ := h.raised
      obtain ⟨hload', himg', hlock'⟩ := Mach.scanView_keeps h.view
      have hloaded' : m'.image.loaded = true := (congrArg Image.loaded himg').trans himg
      refine ⟨⟨e, es ++ [e'] ++ es', hcode, ?_⟩, hload'.trans (hload.trans hview), fun _ => ⟨hlock'.trans hlock, ?_⟩,
        fun h => Bool.noConfusion (hloaded'.symm.trans h)⟩
      · rw [← hes', hraised', hraised]
        simp
      · rw [← hes', hraised', List.map_append, List.map_append, List.map_singleton, hcode']
        simp
    refine ⟨hshown _ ?_, fun h => absurd h hnone⟩
    refine iteInduction (motive := Mach.ToldOnly [Reg.IMG_STATUS] y.1) (fun _ => ?_) fun _ => .refl _
    exact ((Mach.ToldOnly.refl y.1).wr (List.mem_singleton_self _) _).raise ..

/-! ### The reset -/

theorem Mach.afterReset_view (c : Nat) : (m.afterReset c).time.raised = [] ∧ (m.afterReset c).image.loaded = false ∧
    (m.afterReset c).locked = false ∧ (m.afterReset c).pwr.due = none ∧ (m.afterReset c).pwr.phase = m.pwr.phase ∧
    (m.afterReset c).pwr.booted = false ∧ (m.afterReset c).img.keys = m.img.keys ∧ (m.afterReset c).img.revoked = m.img.revoked ∧
    (m.afterReset c).tick.running = false := ⟨rfl, rfl, rfl, rfl, rfl, rfl, rfl, rfl, rfl⟩

/-- What a reset has written over the reset values. -/
theorem Mach.afterReset_rd (c : Nat) {b : Nat} (h : b ∉ [Reg.PWR_STATUS, Reg.ACQ_STATUS, Reg.IMG_KEYS]) : (m.afterReset c).rd b =
    if b = Reg.PWR_WAKE then BitVec.ofNat 32 (if c = 0 ∨ c = 4 then m.pwr.wakeLatch else 0)
    else if b = Reg.PWR_RSTCAUSE then BitVec.ofNat 32 ((if c = 1 then m.pwr.rail % 8 * 32 else 0) + min m.pwr.tries 3 * 8 + c)
    else (Mach.initial m.variant).rd b := by
  simp only [List.mem_cons, List.not_mem_nil, or_false, not_or] at h
  obtain ⟨hst, hacq, hkeys⟩ := h
  unfold Mach.afterReset
  extract_lets x asc x₁ x₂ x₃
  rw [Mach.setLines_rd hst, Mach.showKeys, Mach.rd_wrN, if_neg hkeys, Mach.rd_wrN]
  congr 1
  rw [Mach.rd_setBit, if_neg hacq, Mach.rd_wrN]
  congr 1
  rw [Mach.rd_wr, if_neg hst]
  rfl

theorem Mach.afterReset_mode (c : Nat) : (m.afterReset c).fld Reg.SYS_MODE_STAT 2 0 = 0 := by
  rw [Mach.fld, Mach.afterReset_rd c (by decide), if_neg (by decide), if_neg (by decide)]
  cases m.variant <;> decide

/-- A reset that is due can begin (R464, R468). -/
def resetReady (s : State) (c : Nat) : Prop :=
  s.m.pwr.vinOk = true ∧ ((s.m.pwr.phase = .up ∧ c ≠ 1 ∧ c ≠ 6) ∨ s.m.pwr.phase = .off ∨ s.m.pwr.phase = .waiting)

theorem deviceReset_due {c : Nat} (hdue : s.m.pwr.due = some c) (mem : List Host.Cell) :
    (resetReady s c → (s.at cyc).deviceReset mem = ((s.at cyc).afterReset c).boot (resetMemory mem)) ∧
    (¬resetReady s c → (s.at cyc).deviceReset mem = (s.at cyc, mem)) := by
  have hreset : (s.at cyc).deviceReset mem = if (s.m.pwr.vinOk && match s.m.pwr.phase with
      | .up => c != 1 && c != 6
      | .off => true
      | .waiting => true
      | _ => false) = true then ((s.at cyc).afterReset c).boot (resetMemory mem) else (s.at cyc, mem) := by
    rw [Mach.deviceReset, State.at_pwr, hdue] <;> rfl
  have hready : (s.m.pwr.vinOk && match s.m.pwr.phase with
      | .up => c != 1 && c != 6
      | .off => true
      | .waiting => true
      | _ => false) = true ↔ resetReady s c := by
    rw [resetReady, Bool.and_eq_true]
    cases s.m.pwr.phase <;> simp
  rw [hreset]
  exact ⟨fun h => if_pos (hready.2 h), fun h => if_neg fun hb => h (hready.1 hb)⟩

theorem deviceReset_none (hdue : s.m.pwr.due = none) (mem : List Host.Cell) : (s.at cyc).deviceReset mem = (s.at cyc, mem) := by
  rw [Mach.deviceReset, State.at_pwr, hdue]

theorem exec_deviceReset_idle (cyc : Nat) (h : (s.at cyc).deviceReset s.mem = (s.at cyc, s.mem)) :
    ∃ t, exec (.deviceReset cyc) s = .next t ∧ t.m.pwr = s.m.pwr ∧ Quiet s t [] := by
  obtain ⟨t, ht, hm, hq⟩ := runMem_idle (f := fun m mem => m.deviceReset mem) h
  exact ⟨t, ht, idle_pwr hm, hq⟩

theorem read_resetMemory (mem : List Host.Cell) (a : Nat) :
    Memory.read (resetMemory mem) a = if a < 2 ^ 32 then 0#8 else Memory.read mem a := by
  rw [resetMemory, Memory.read_clear]
  by_cases h : a < 2 ^ 32
  · have hdram : regionOf a = .dram := if_pos h
    rw [if_pos h, if_pos ⟨Nat.zero_le a, h⟩, Memory.read, Cells.get, Option.getD_none, Memory.unlisted, hdram]
    rfl
  · rw [if_neg h, if_neg fun hx => h hx.2]

theorem Mach.loadView_pwr {m' : Mach} (h : m'.loadView.2 = m.loadView.2) :
    m'.pwr.due = m.pwr.due ∧ m'.pwr.phase = m.pwr.phase ∧ m'.pwr.booted = m.pwr.booted := by
  have hpwr := congrArg Prod.fst h
  have hdue := congrArg PwrState.due hpwr
  have hphase := congrArg PwrState.phase hpwr
  have hbooted := congrArg PwrState.booted hpwr
  exact ⟨hdue, hphase, hbooted⟩

/-- A reset that begins: what it keeps, what it tells, and what it leaves where no image is loaded. -/
theorem exec_deviceReset (cyc : Nat) {c : Nat} (hdue : s.m.pwr.due = some c) (hready : resetReady s c) :
    ∃ t, exec (.deviceReset cyc) s = .next t ∧ t.m.pwr.due = none ∧ t.m.pwr.phase = s.m.pwr.phase ∧ t.m.pwr.booted = false ∧
      t.m.tick.running = false ∧ t.m.img.keys = s.m.img.keys ∧ t.m.img.revoked = s.m.img.revoked ∧
      t.m.locked = t.m.image.loaded ∧ (t.m.time.raised.head?.map (·.code)) = some 0x3C01 ∧
      (t.m.image.loaded = true → 0x4401 ∈ t.m.time.raised.map (·.code)) ∧
      (newestCommit (resetMemory s.mem) = none → t.m.image.loaded = false) ∧
      (t.m.image.loaded = false →
        t.m.rd Reg.PWR_RSTCAUSE = BitVec.ofNat 32
          ((if c = 1 then s.m.pwr.rail % 8 * 32 else 0) + min s.m.pwr.tries 3 * 8 + c) ∧
        t.m.rd Reg.PWR_WAKE = BitVec.ofNat 32 (if c = 0 ∨ c = 4 then s.m.pwr.wakeLatch else 0) ∧
        t.m.rd Reg.TIME_BOOT = BitVec.ofNat 32 (bootNumber (resetMemory s.mem)) ∧ t.m.fld Reg.SYS_MODE_STAT 2 0 = 0 ∧
        ∀ a, Memory.read t.mem a = if a < 2 ^ 32 then 0#8 else Memory.read s.mem a) := by
  have hreset := (deviceReset_due (cyc := cyc) hdue s.mem).1 hready
  obtain ⟨hraised, hloaded, hlocked, hdue', hphase, hbooted, hkeys, hrevoked, hrunning⟩ := (s.at cyc).afterReset_view c
  obtain ⟨⟨⟨e, es, hcode, hfirst⟩, hview, hlock, hidle⟩, hnone⟩ := Mach.boot_spec hloaded (resetMemory s.mem)
  have hrd := fun b => (s.at cyc).afterReset_rd c (b := b)
  have hmode := (s.at cyc).afterReset_mode c
  rw [hraised, List.nil_append] at hfirst
  obtain ⟨t, ht, hm, hmem⟩ : ∃ t, exec (.deviceReset cyc) s = .next t ∧
      t.m = (((s.at cyc).afterReset c).boot (resetMemory s.mem)).1.settle ∧
      t.mem = (((s.at cyc).afterReset c).boot (resetMemory s.mem)).2 :=
    ⟨_, rfl, congrArg (fun x : Mach × List Host.Cell => x.1.settle) hreset, congrArg Prod.snd hreset⟩
  generalize ((s.at cyc).afterReset c).boot (resetMemory s.mem) = y at *
  generalize (s.at cyc).afterReset c = w at *
  obtain ⟨hd, hp, hb⟩ := Mach.loadView_pwr hview
  have himage : t.m.image = y.1.image := hm ▸ Mach.settle_image ..
  have htpwr : t.m.pwr = y.1.pwr := hm ▸ Mach.settle_pwr ..
  have hlocks : t.m.locked = y.1.locked := hm ▸ Mach.settle_locked ..
  have htime : t.m.time = y.1.time := hm ▸ Mach.settle_time ..
  have htrd : ∀ b, t.m.rd b = y.1.rd b := fun b => hm ▸ Mach.settle_rd ..
  refine ⟨t, ht, ?_, ?_, ?_, ?_, ?_, ?_, ?_, ?_, fun h => ?_, fun h => ?_, fun h => ?_⟩
  · exact (congrArg PwrState.due htpwr).trans (hd.trans hdue')
  · exact (congrArg PwrState.phase htpwr).trans (hp.trans hphase)
  · exact (congrArg PwrState.booted htpwr).trans (hb.trans hbooted)
  · exact hm ▸ (congrArg TickState.running (Mach.settle_tick ..)).trans ((congrArg (fun v => v.2.2.2) hview).trans hrunning)
  · exact hm ▸ (congrArg ImgState.keys (Mach.settle_img ..)).trans ((congrArg (fun v => v.2.1) hview).trans hkeys)
  · exact hm ▸ (congrArg ImgState.revoked (Mach.settle_img ..)).trans ((congrArg (fun v => v.2.2.1) hview).trans hrevoked)
  · rw [hlocks, himage]
    cases hl : y.1.image.loaded with
    | true => exact (hlock hl).1
    | false => exact (hidle hl).1.trans hlocked
  · rw [htime, hfirst]
    exact congrArg some hcode
  · rw [himage] at h
    rw [htime]
    exact (hlock h).2
  · rw [himage]
    exact hnone h
  · rw [himage] at h
    obtain ⟨-, hmem', hnumber, hkept⟩ := hidle h
    refine ⟨?_, ?_, (htrd _).trans hnumber, ?_, fun a => ?_⟩
    · rw [htrd, hkept _ (by decide), hrd _ (by decide), if_neg (by decide), if_pos rfl, State.at_pwr]
    · rw [htrd, hkept _ (by decide), hrd _ (by decide), if_pos rfl, State.at_pwr]
    · rw [Mach.fld, htrd, hkept _ (by decide)]
      exact hmode
    · rw [hmem, hmem', read_resetMemory]

end Sys2Proof.Machine
end

section
/-! The recovery loader's frames (R456). -/

namespace Sys2Proof.Machine

/-! ### A frame and its answer -/

/-- The offset that an image frame names. -/
abbrev frameOff (p : List Nat) : Nat := le p 0 4

/-- The image bytes that a frame brings. -/
abbrev frameData (p : List Nat) : List Nat := cut p 6 (le p 4 2)

/-- A frame's length is that of its data, and within bounds. -/
abbrev FrameFits (p : List Nat) : Prop := 0 < (frameData p).length ∧ (frameData p).length ≤ 1024 ∧ (frameData p).length = le p 4 2

/-- The same, as the loader decides it. -/
def frameFits (p : List Nat) : Bool := decide (le p 4 2 ≤ 1024) && decide (0 < le p 4 2) && (frameData p).length == le p 4 2

theorem frameFits_iff (p : List Nat) : frameFits p = true ↔ FrameFits p := by
  simp only [frameFits, Bool.and_eq_true, decide_eq_true_eq, beq_iff_eq, FrameFits]
  constructor
  · rintro ⟨⟨hle, hpos⟩, hlen⟩
    exact ⟨hlen.symm ▸ hpos, hlen.symm ▸ hle, hlen⟩
  · rintro ⟨hpos, hle, hlen⟩
    exact ⟨⟨hlen ▸ hle, hlen ▸ hpos⟩, hlen⟩

/-- The answer to a frame in the queue of port 0. -/
def Mach.answered (m : Mach) (off status : Nat) : Mach :=
  m.onNet fun n => { n with ports := upd n.ports 0 fun x => { x with queue := x.queue ++ [⟨0, leBytes 4 off ++ [status], m.seq, 0⟩] } }

/-- The start of staging by the image's first frame (R456). -/
def Mach.frameStarts (m : Mach) (mem : List Host.Cell) (p : List Nat) : Mach × List Host.Cell :=
  let m := if frameFits p then m.recoveryLen (frameOff p) (frameData p) else m
  if frameFits p && decide (frameOff p = 0) && m.canBegin then ((m.setStage 1).wr Reg.IMG_PROG 0#32).eraseComplete mem true else (m, mem)

/-- A frame goes on where the last one ended. -/
def Mach.frameGoesOn (m : Mach) (p : List Nat) : Bool :=
  frameFits p && m.stage == 2 && frameOff p == (m.rd Reg.IMG_PROG).toNat && decide ((m.rd Reg.IMG_PROG).toNat + le p 4 2 ≤ m.imgLen)

/-- A frame taken or refused, and answered. -/
def Mach.frameTaken (m : Mach) (mem : List Host.Cell) (p : List Nat) (ok : Bool) : Mach × List Host.Cell :=
  let y := if m.frameGoesOn p then m.stagePages mem (frameData p) ok else (m.imgRefused, mem)
  (y.1.answered (frameOff p) (if m.frameGoesOn p && ok then 0 else 1), y.2)

theorem Mach.recoveryFrame_eq (m : Mach) (mem : List Host.Cell) (p : List Nat) (ok : Bool) : m.recoveryFrame mem p ok =
    if !m.recovery then (m, mem)
    else
      let y := (m.frameStarts mem p).1.frameTaken (m.frameStarts mem p).2 p ok
      y.1.recoveryEnds y.2 ok := rfl

section
variable {m : Mach} {mem : List Host.Cell} {p : List Nat} {ok : Bool}

theorem Mach.frameStarts_staging (h : m.stage = 2) : m.frameStarts mem p = (m, mem) := by
  have hlen : m.recoveryLen (frameOff p) (frameData p) = m := if_neg (by rw [h]; omega)
  have hbegin : m.canBegin = false := by simp [Mach.canBegin, h]
  simp only [Mach.frameStarts, hlen, ite_self, hbegin, Bool.and_false]
  rfl

theorem Mach.frameStarts_unfit (h : ¬FrameFits p ∨ frameOff p ≠ 0) : m.frameStarts mem p = (m, mem) := by
  rcases h with h | h
  · have hfits : frameFits p = false := Bool.eq_false_iff.2 fun hf => h ((frameFits_iff p).1 hf)
    simp only [Mach.frameStarts, hfits, Bool.false_and]
    rfl
  · have hlen : m.recoveryLen (frameOff p) (frameData p) = m := if_neg fun hx => h hx.1
    simp only [Mach.frameStarts, hlen, ite_self, decide_eq_false h, Bool.and_false, Bool.false_and]
    rfl

theorem Mach.frameTaken_goesOn (hst : m.stage = 2) (hfits : FrameFits p) (hoff : frameOff p = (m.rd Reg.IMG_PROG).toNat)
    (hlen : frameOff p + (frameData p).length ≤ m.imgLen) : m.frameTaken mem p ok =
      ((m.stagePages mem (frameData p) ok).1.answered (frameOff p) (if ok then 0 else 1), (m.stagePages mem (frameData p) ok).2) := by
  have hgoes : m.frameGoesOn p = true := by
    rw [hoff, hfits.2.2] at hlen
    simp [Mach.frameGoesOn, (frameFits_iff p).2 hfits, hst, hoff, hlen]
  rw [Mach.frameTaken, hgoes, Bool.true_and]
  rfl

theorem Mach.frameTaken_refused (h : m.stage ≠ 2 ∨ ¬FrameFits p ∨ frameOff p ≠ (m.rd Reg.IMG_PROG).toNat ∨
    m.imgLen < (m.rd Reg.IMG_PROG).toNat + (frameData p).length) :
    m.frameTaken mem p ok = (m.imgRefused.answered (frameOff p) 1, mem) := by
  have hstays : m.frameGoesOn p = false := by
    rw [Bool.eq_false_iff]
    intro hgoes
    simp only [Mach.frameGoesOn, Bool.and_eq_true, frameFits_iff, beq_iff_eq, decide_eq_true_eq] at hgoes
    obtain ⟨⟨⟨hfits, hst⟩, hoff⟩, hlen⟩ := hgoes
    rw [← hfits.2.2] at hlen
    rcases h with h | h | h | h
    · exact h hst
    · exact h hfits
    · exact h hoff
    · omega
  rw [Mach.frameTaken, hstays, Bool.false_and]
  rfl

theorem Mach.recoveryEnds_idle (h : m.stage ≠ 3) : m.recoveryEnds mem ok = (m, mem) := if_pos h

theorem Mach.answered_stage (off status : Nat) : (m.answered off status).stage = m.stage := rfl

theorem Mach.answered_rd (off status a : Nat) : (m.answered off status).rd a = m.rd a := rfl

theorem Mach.answered_bit (off status a i : Nat) : (m.answered off status).bit a i = m.bit a i := rfl

theorem Mach.imgRefused_stage : m.imgRefused.stage = m.stage :=
  Mach.stage_congr ((Mach.rd_orr ..).trans (if_neg (by decide)))

theorem Mach.FocTells.answered {m₀ : Mach} {regs : List Nat} {es : List Event} (h : m₀.FocTells regs es m) (off status : Nat) :
    m₀.FocTells regs es (m.answered off status) := h.next rfl rfl fun _ => rfl

/-- What the queues hold once a frame is answered by a machine that has left them and the tick's number. -/
theorem Mach.answered_ports {m₀ : Mach} (off status : Nat) (hnet : m.net = m₀.net) (hseq : m.seq = m₀.seq) :
    (m.answered off status).net.ports = upd m₀.net.ports 0 (fun x =>
      { x with queue := x.queue ++ [⟨0, leBytes 4 off ++ [status], m₀.seq, 0⟩] }) := by
  rw [← hnet, ← hseq]
  rfl
end

/-! ### The check of an image reads neither queues nor registers -/

/-- The machine with other queues at its ports. -/
def Mach.netted (m : Mach) (n : NetState) : Mach := { m with net := n }

section
variable (b : List Nat) (fs : List Folio) (m : Mach) (n : NetState)

theorem forL_netted {α : Type} (f : α → Mach → Mach) (hf : ∀ a m, f a (m.netted n) = (f a m).netted n) (l : List α) :
    forL l f (m.netted n) = (forL l f m).netted n := by
  induction l generalizing m with
  | nil => rfl
  | cons a l ih => exact (congrArg (forL l f) (hf a m)).trans (ih (f a m))

theorem Mach.motorsLoaded_netted (ls : List LoadEntry) : (m.netted n).motorsLoaded ls = (m.motorsLoaded ls).netted n := by
  refine forL_netted m n _ (fun l m => forL_netted m n _ (fun i m => ?_) _) _
  split <;> rfl

theorem Mach.loadRegs_netted : (m.netted n).loadRegs b fs = (m.loadRegs b fs).netted n := by
  rw [Mach.loadRegs_eq, Mach.loadRegs_eq, ← Mach.motorsLoaded_netted]
  rfl

theorem Trial.apart_netted (ls : List LoadEntry) (es : List SlotEntry) :
    Trial.apart ⟨b, fs, ls, m.netted n⟩ es = Trial.apart ⟨b, fs, ls, m⟩ es := by
  induction es with
  | nil => rfl
  | cons e es ih =>
    rw [Trial.apart, Trial.apart, ih]
    rfl

theorem Trial.check_netted (ls : List LoadEntry) (secver : Option Nat) :
    Trial.check ⟨b, fs, ls, m.netted n⟩ secver = Trial.check ⟨b, fs, ls, m⟩ secver := by
  have hbudget : Trial.budget ⟨b, fs, ls, m.netted n⟩ = Trial.budget ⟨b, fs, ls, m⟩ := by
    rw [Trial.budget, Trial.apart_netted]
    rfl
  rw [Trial.check, hbudget]
  rfl

theorem Mach.imageCheck_netted (secver : Option Nat) : (m.netted n).imageCheck b secver = m.imageCheck b secver := by
  have htrial : ∀ b fs, ((m.netted n).trial b fs).check secver = (m.trial b fs).check secver := by
    intro b fs
    rw [Mach.trial, show { m.netted n with regs := [], image := imageOf b fs } =
      ({ m with regs := [], image := imageOf b fs } : Mach).netted n from rfl, Mach.loadRegs_netted, Trial.check_netted]
    rfl
  have himg : (m.netted n).img = m.img := rfl
  unfold Mach.imageCheck
  simp only [htrial, himg]

theorem Mach.imageCheck_regs (regs : List (Nat × Word)) (secver : Option Nat) :
    ({ m with regs := regs } : Mach).imageCheck b secver = m.imageCheck b secver := rfl

/-- What the check of an image reads of the machine. -/
def Mach.checkView (m : Mach) : Mach := { m with regs := [], setNow := [], time := default, net := default }

theorem Mach.imageCheck_congr {m m' : Mach} (h : m'.checkView = m.checkView) (b : List Nat) (secver : Option Nat) :
    m'.imageCheck b secver = m.imageCheck b secver := by
  have hview : ∀ m : Mach, m.checkView.imageCheck b secver = m.imageCheck b secver := fun m =>
    ((Mach.imageCheck_netted b ({ m with regs := [] } : Mach).checkView m.net secver).symm).trans
      (((Mach.imageCheck_timed b _ m.time m.setNow secver).symm).trans (m.imageCheck_regs b [] secver))
  rw [← hview m', h, hview m]
end

/-! ### The row -/

section
variable {s : State} {cyc : Nat} {p : List Nat} {ok : Bool} {m : Mach} {mem : List Host.Cell}

/-- The answer to a frame stands in the queue of port 0. -/
abbrev FrameAnswered (s t : State) (off status : Nat) : Prop := t.m.net.ports = upd s.m.net.ports 0 (fun x =>
  { x with queue := x.queue ++ [⟨0, leBytes 4 off ++ [status], s.m.seq, 0⟩] })

theorem recoveryFrame_at (hrec : s.m.recovery = true) : (s.at cyc).recoveryFrame s.mem p ok =
    let y := ((s.at cyc).frameStarts s.mem p).1.frameTaken ((s.at cyc).frameStarts s.mem p).2 p ok
    y.1.recoveryEnds y.2 ok := by
  have hrec' : ¬(!(s.at cyc).recovery) = true := by
    have h : (s.at cyc).recovery = true := hrec
    rw [h]
    decide
  rw [Mach.recoveryFrame_eq, if_neg hrec']

theorem frameAnswered_of {t : State} {regs : List Nat} {es : List Event} (off status : Nat) (hnet : m.net = s.m.net)
    (h : (s.at cyc).FocTells regs es m) (ht : t.m.net = (m.answered off status).net) : FrameAnswered s t off status := by
  have hseq : m.seq = s.m.seq := h.seq_eq
  rw [FrameAnswered, ht]
  exact Mach.answered_ports off status hnet hseq

theorem exec_recoveryFrame_refused (hrec : s.m.recovery = true) (hstart : (s.at cyc).frameStarts s.mem p = (s.at cyc, s.mem))
    (htaken : (s.at cyc).frameTaken s.mem p ok = ((s.at cyc).imgRefused.answered (frameOff p) 1, s.mem)) (hst : s.m.stage ≠ 3) :
    ∃ t, exec (.recoveryFrame cyc p ok) s = .next t ∧
      (FrameAnswered s t (frameOff p) 1 ∧ t.m.stage = s.m.stage ∧ t.m.bit Reg.IMG_IRQ_STAT 3 = true ∧
        Raises s t [eventAt (s.at cyc) 0x4407 0 0xFF [] 0] ∧ SameMemory s t) ∧ SameRegsBut s t [Reg.IMG_IRQ_STAT] := by
  have hstage : ((s.at cyc).imgRefused.answered (frameOff p) 1).stage = s.m.stage := Mach.imgRefused_stage (m := s.at cyc)
  have hf : (s.at cyc).recoveryFrame s.mem p ok = ((s.at cyc).imgRefused.answered (frameOff p) 1, s.mem) := by
    rw [recoveryFrame_at hrec, hstart]
    dsimp only
    rw [htaken]
    exact Mach.recoveryEnds_idle (by rwa [hstage])
  have htold : (s.at cyc).FocTells [Reg.IMG_IRQ_STAT] [eventAt (s.at cyc) 0x4407 0 0xFF [] 0] (s.at cyc).imgRefused :=
    (Mach.FocTells.refl _ _).imgRefused (by decide)
  obtain ⟨t, ht, hm, hregs, hmem, hes⟩ := runMem_makes (f := fun m mem => m.recoveryFrame mem p ok) hf (htold.answered (frameOff p) 1)
  refine ⟨t, ht, ⟨frameAnswered_of (m := (s.at cyc).imgRefused) _ _ rfl htold (hm ▸ Mach.settle_net ..), ?_, ?_, hes, hmem⟩, hregs⟩
  · rw [hm, Mach.settle_stage, hstage]
  · rw [hm]
    exact Mach.imgRefused_told (m := s.at cyc)

/-- A frame that goes on: taken where the last one ended, before the image's end is looked for. -/
theorem recoveryFrame_goesOn (hrec : s.m.recovery = true) (hst : s.m.stage = 2) (hfits : FrameFits p)
    (hoff : frameOff p = (s.m.rd Reg.IMG_PROG).toNat) (hlen : frameOff p + (frameData p).length ≤ s.m.imgLen) :
    (s.at cyc).recoveryFrame s.mem p ok =
      (((s.at cyc).stagePages s.mem (frameData p) ok).1.answered (frameOff p) (if ok then 0 else 1)).recoveryEnds
        ((s.at cyc).stagePages s.mem (frameData p) ok).2 ok := by
  rw [recoveryFrame_at hrec, Mach.frameStarts_staging (m := s.at cyc) hst]
  dsimp only
  rw [Mach.frameTaken_goesOn (m := s.at cyc) hst hfits hoff hlen]

/-- The place of a frame's data in the staging bank. -/
abbrev framePlace (s : State) (p : List Nat) : Nat := stagingBase s + frameOff p

theorem Mach.stagePages_fails (m : Mach) (mem : List Host.Cell) (data : List Nat) : m.stagePages mem data false =
    ((m.spend (min 256 data.length)).imgFlashFailed,
      Memory.writeL mem (bankBase m.stagingBank + (m.rd Reg.IMG_PROG).toNat) (m.freeBytes (min 256 data.length)).1) := rfl

theorem stagePages_taken (hoff : frameOff p = (s.m.rd Reg.IMG_PROG).toNat) : (s.at cyc).stagePages s.mem (frameData p) true =
    ((s.at cyc).pagesProgrammed (frameData p).length, Memory.writeL s.mem (framePlace s p) (frameData p)) := by
  rw [Mach.stagePages_ok, framePlace, hoff]
  rfl

theorem exec_recoveryFrame_goesOn (hwf : Memory.wf s.mem = true) (hrec : s.m.recovery = true) (hst : s.m.stage = 2) (hfits : FrameFits p)
    (hoff : frameOff p = (s.m.rd Reg.IMG_PROG).toNat) (hlen : frameOff p + (frameData p).length < s.m.imgLen) :
    ∃ t, exec (.recoveryFrame cyc p true) s = .next t ∧ FrameAnswered s t (frameOff p) 0 ∧ t.m.stage = 2 ∧
      t.m.rd Reg.IMG_PROG = BitVec.ofNat 32 (frameOff p + (frameData p).length) ∧
      Memory.readN t.mem (framePlace s p) (frameData p).length = (frameData p).map (· % 256) ∧
      (∀ b, b < framePlace s p ∨ framePlace s p + (frameData p).length ≤ b → Memory.read t.mem b = Memory.read s.mem b) ∧
      SameRegsBut s t [Reg.IMG_PROG] ∧ Raises s t [] := by
  have hprog : (s.at cyc).pagesProgrammed (frameData p).length =
      (s.at cyc).wrN Reg.IMG_PROG ((s.m.rd Reg.IMG_PROG).toNat + (frameData p).length) := if_neg (by rw [hoff] at hlen; exact hlen.ne)
  have hstage : (((s.at cyc).pagesProgrammed (frameData p).length).answered (frameOff p) 0).stage = 2 := by
    rw [Mach.answered_stage, hprog]
    exact (Mach.stage_congr (Mach.rd_wr_other _ _ (by decide))).trans hst
  have hf : (s.at cyc).recoveryFrame s.mem p true = (((s.at cyc).pagesProgrammed (frameData p).length).answered (frameOff p) 0,
      Memory.writeL s.mem (framePlace s p) (frameData p)) := by
    rw [recoveryFrame_goesOn hrec hst hfits hoff hlen.le, stagePages_taken hoff, if_pos rfl]
    exact Mach.recoveryEnds_idle (by rw [hstage]; decide)
  have htold : (s.at cyc).FocTells [Reg.IMG_PROG] [] ((s.at cyc).pagesProgrammed (frameData p).length) := by
    rw [hprog]
    exact (Mach.FocTells.refl _ _).wr (by decide) (by decide) _
  obtain ⟨t, ht, hm, hmem, hregs, hes⟩ := runMem_tells (f := fun m mem => m.recoveryFrame mem p true) hf (htold.answered (frameOff p) 0)
  refine ⟨t, ht, frameAnswered_of (m := (s.at cyc).pagesProgrammed _) _ _ ?_ htold (hm ▸ Mach.settle_net ..), ?_, ?_, ?_, fun b hb => ?_,
    hregs, hes⟩
  · rw [hprog]
    rfl
  · rw [hm, Mach.settle_stage, hstage]
  · rw [hm, Mach.settle_rd, hoff]
    exact Mach.pagesProgrammed_prog
  · rw [hmem]
    exact Memory.readN_writeL hwf _ _
  · rw [hmem]
    exact Memory.read_writeL_other hwf _ hb

theorem exec_recoveryFrame_fails (hwf : Memory.wf s.mem = true) (hrec : s.m.recovery = true) (hst : s.m.stage = 2) (hfits : FrameFits p)
    (hoff : frameOff p = (s.m.rd Reg.IMG_PROG).toNat) (hlen : frameOff p + (frameData p).length ≤ s.m.imgLen) :
    ∃ t, exec (.recoveryFrame cyc p false) s = .next t ∧ FrameAnswered s t (frameOff p) 1 ∧ StagingFails s t cyc ∧
      (∀ b, b < framePlace s p ∨ framePlace s p + min 256 (frameData p).length ≤ b → Memory.read t.mem b = Memory.read s.mem b) ∧
      SameRegsBut s t [Reg.IMG_STATUS, Reg.IMG_IRQ_STAT] := by
  have hpages : (s.at cyc).stagePages s.mem (frameData p) false = (((s.at cyc).spend (min 256 (frameData p).length)).imgFlashFailed,
      Memory.writeL s.mem (framePlace s p) ((s.at cyc).freeBytes (min 256 (frameData p).length)).1) := by
    have hbank : bankBase (s.at cyc).stagingBank = stagingBase s := rfl
    rw [Mach.stagePages_fails, framePlace, hoff, hbank, State.at_rd]
  have hstage : (((s.at cyc).spend (min 256 (frameData p).length)).imgFlashFailed.answered (frameOff p) 1).stage = 7 := by
    rw [Mach.answered_stage, Mach.imgFlashFailed_stage]
  have hf : (s.at cyc).recoveryFrame s.mem p false =
      (((s.at cyc).spend (min 256 (frameData p).length)).imgFlashFailed.answered (frameOff p) 1,
        Memory.writeL s.mem (framePlace s p) ((s.at cyc).freeBytes (min 256 (frameData p).length)).1) := by
    rw [recoveryFrame_goesOn hrec hst hfits hoff hlen, hpages]
    exact Mach.recoveryEnds_idle (by rw [if_neg Bool.false_ne_true, hstage]; decide)
  have htold : (s.at cyc).FocTells [Reg.IMG_STATUS, Reg.IMG_IRQ_STAT] [eventAt (s.at cyc) 0x4408 1 0xFF [] 0]
      ((s.at cyc).spend (min 256 (frameData p).length)).imgFlashFailed :=
    ((Mach.FocTells.refl _ _).spend _).imgFlashFailed (by decide) (by decide)
  obtain ⟨t, ht, hm, hmem, hregs, hes⟩ := runMem_tells (f := fun m mem => m.recoveryFrame mem p false) hf (htold.answered (frameOff p) 1)
  refine ⟨t, ht, frameAnswered_of (m := ((s.at cyc).spend _).imgFlashFailed) _ _ rfl htold (hm ▸ Mach.settle_net ..), ⟨?_, hes, ?_⟩,
    fun b hb => ?_, hregs⟩
  · rw [hm, Mach.settle_stage, hstage]
  · rw [hm, Mach.settle_bit, Mach.answered_bit, Mach.imgFlashFailed_told]
  · rw [hmem]
    exact Memory.read_writeL_other hwf _ (by rwa [Mach.length_freeBytes])
/-! ### The last frame (R456) -/

theorem Mach.setStage_rd_other (v : Nat) {b : Nat} (hst : b ≠ Reg.IMG_STATUS) (hirq : b ≠ Reg.IMG_IRQ_STAT) :
    (m.setStage v).rd b = m.rd b := by
  unfold Mach.setStage
  dsimp only
  refine iteInduction (motive := fun x : Mach => x.rd b = m.rd b) (fun _ => ?_) fun _ => ?_
  · exact ((Mach.rd_orr ..).trans (if_neg hirq)).trans ((Mach.rd_setFld ..).trans (if_neg hst))
  · exact (Mach.rd_setFld ..).trans (if_neg hst)

theorem Mach.setStage_bit_other (v : Nat) {i : Nat} (hi : i < 28) : (m.setStage v).bit Reg.IMG_STATUS i = m.bit Reg.IMG_STATUS i := by
  have hfld : (m.setFld Reg.IMG_STATUS 31 28 v).bit Reg.IMG_STATUS i = m.bit Reg.IMG_STATUS i :=
    Mach.bit_setFld_other _ _ (by decide) (by decide) (.inr (.inl hi))
  unfold Mach.setStage
  dsimp only
  refine iteInduction (motive := fun x : Mach => x.bit Reg.IMG_STATUS i = m.bit Reg.IMG_STATUS i) (fun _ => ?_) fun _ => hfld
  exact (congrArg (Word.bit · i) ((Mach.rd_orr ..).trans (if_neg (by decide)))).trans hfld

/-- Nothing but registers that the staged image's place and length do not lie in has changed. -/
structure Mach.Staged (m m' : Mach) : Prop where
  view : m'.checkView = m.checkView
  now : m'.now = m.now
  len : m'.rd Reg.IMG_LEN = m.rd Reg.IMG_LEN
  bank : m'.bit Reg.IMG_STATUS 24 = m.bit Reg.IMG_STATUS 24
  recovery : m'.recovery = m.recovery

theorem Mach.Staged.setStage {m₀ : Mach} (h : m₀.Staged m) (v : Nat) : m₀.Staged (m.setStage v) := by
  refine ⟨Eq.trans ?_ h.view, Eq.trans ?_ h.now, (Mach.setStage_rd_other v (by decide) (by decide)).trans h.len,
    (Mach.setStage_bit_other v (by decide)).trans h.bank, (Mach.setStage_bit_other v (by decide)).trans h.recovery⟩
  · unfold Mach.setStage
    dsimp only
    split <;> rfl
  · unfold Mach.setStage
    dsimp only
    split <;> rfl

theorem Mach.Staged.staged {m₀ : Mach} (h : m₀.Staged m) : m.staged mem = m₀.staged mem ∧ m.stagingBank = m₀.stagingBank := by
  have hbank : m.bank = m₀.bank := by
    have hbit := h.bank
    rw [Mach.bit, Word.bit_eq_bits, Mach.bit, Word.bit_eq_bits, decide_eq_decide] at hbit
    have := Word.bits_lt (m.rd Reg.IMG_STATUS) 24 24
    have := Word.bits_lt (m₀.rd Reg.IMG_STATUS) 24 24
    rw [Mach.bank, Mach.fld, Mach.bank, Mach.fld]
    omega
  have hstaging : m.stagingBank = m₀.stagingBank := congrArg (1 - ·) hbank
  exact ⟨by rw [Mach.staged, Mach.staged, hstaging, Mach.imgLen, Mach.imgLen, h.len], hstaging⟩

theorem Mach.Staged.check {m₀ : Mach} (h : m₀.Staged m) :
    m.imageCheck (m.staged mem) (if m.image.loaded then some m.image.secver else none) =
      m₀.imageCheck (m₀.staged mem) (if m₀.image.loaded then some m₀.image.secver else none) := by
  have himage : m.image = m₀.image := by
    have := congrArg Mach.image h.view
    exact this
  rw [himage, h.staged.1, Mach.imageCheck_congr h.view]

theorem Mach.Staged.commitForm {m₀ : Mach} (h : m₀.Staged m) (logseq : Nat) : m.commitForm mem logseq = m₀.commitForm mem logseq := by
  obtain ⟨hstaged, hbank⟩ := h.staged (mem := mem)
  unfold Mach.commitForm
  dsimp only
  rw [hstaged, hbank, h.now]

/-- What the check of the staged image gives. -/
abbrev Mach.stagedVerdict (m : Mach) (mem : List Host.Cell) : Option Reject :=
  m.imageCheck (m.staged mem) (if m.image.loaded then some m.image.secver else none)

theorem Mach.verifyComplete_eq (h : m.stage = 4) : m.verifyComplete mem =
    match m.stagedVerdict mem with
    | none => m.setStage 5
    | some r => (m.setStage 7).imgReject r := if_neg (not_not.2 h)

/-- The end of the image whose check passes: committed, and a reset made due (R456). -/
theorem Mach.recoveryEnds_verified {m₀ : Mach} (h : m₀.Staged m) (hst : m.stage = 3) (hrec : m₀.recovery = true)
    (hcheck : m₀.stagedVerdict mem = none) : m.recoveryEnds mem true =
      (((m.setStage 4).setStage 5).committed.askReset 3, commitAppend mem (m₀.commitForm mem 0).bytes) := by
  have hstage : (m.setStage 4).stage = 4 := Mach.stage_setStage (by decide)
  have hverdict : (m.setStage 4).stagedVerdict mem = none := (h.setStage 4).check.trans hcheck
  have hverified : (m.setStage 4).verifyComplete mem = (m.setStage 4).setStage 5 := by
    rw [Mach.verifyComplete_eq hstage, hverdict]
  have hdone := (h.setStage 4).setStage 5
  have hfive : ((m.setStage 4).setStage 5).stage = 5 := Mach.stage_setStage (by decide)
  have hcommit : ((m.setStage 4).setStage 5).imgCommit mem true true =
      (((m.setStage 4).setStage 5).committed, commitAppend mem (m₀.commitForm mem 0).bytes) := by
    rw [Mach.imgCommit, if_neg (not_not.2 hfive), if_pos (.inr (hdone.recovery.trans hrec)), Mach.commitRecord_ok, hdone.commitForm]
  rw [Mach.recoveryEnds, if_neg (not_not.2 hst), hverified]
  dsimp only
  rw [if_neg (not_not.2 hfive), hcommit]
  rfl

/-- The end of the image whose check fails: rejected (R445). -/
theorem Mach.recoveryEnds_rejected {m₀ : Mach} {r : Reject} (h : m₀.Staged m) (hst : m.stage = 3)
    (hcheck : m₀.stagedVerdict mem = some r) : m.recoveryEnds mem ok = (((m.setStage 4).setStage 7).imgReject r, mem) := by
  have hstage : (m.setStage 4).stage = 4 := Mach.stage_setStage (by decide)
  have hverdict : (m.setStage 4).stagedVerdict mem = some r := (h.setStage 4).check.trans hcheck
  have hverified : (m.setStage 4).verifyComplete mem = ((m.setStage 4).setStage 7).imgReject r := by
    rw [Mach.verifyComplete_eq hstage, hverdict]
  have hseven : (((m.setStage 4).setStage 7).imgReject r).stage = 7 := (Mach.imgReject_stage ..).trans (Mach.stage_setStage (by decide))
  rw [Mach.recoveryEnds, if_neg (not_not.2 hst), hverified]
  dsimp only
  rw [if_pos (by rw [hseven]; decide)]

theorem Mach.askReset_stage (c : Nat) : (m.askReset c).stage = m.stage := rfl

theorem Mach.askReset_net (c : Nat) : (m.askReset c).net = m.net := rfl

theorem Mach.committed_net : m.committed.net = m.net := Eq.trans (b := (m.setStage 0).net) rfl (iteInduction (motive := fun x : Mach => x.net = m.net) (fun _ => rfl) fun _ => rfl)

theorem Mach.imgReject_net (r : Reject) : (m.imgReject r).net = m.net := rfl

theorem Mach.imgReject_pwr (r : Reject) : (m.imgReject r).pwr = m.pwr := rfl

/-- The registers that the end of an image changes. -/
abbrev imageEndRegs : List Nat := [Reg.IMG_PROG, Reg.IMG_STATUS, Reg.IMG_IRQ_STAT]

theorem Mach.Staged.pagesProgrammed (n : Nat) : m.Staged (m.pagesProgrammed n) := by
  have hwr : m.Staged (m.wrN Reg.IMG_PROG ((m.rd Reg.IMG_PROG).toNat + n)) :=
    ⟨rfl, rfl, (Mach.rd_wrN ..).trans (if_neg (by decide)), congrArg (Word.bit · 24) ((Mach.rd_wrN ..).trans (if_neg (by decide))),
      congrArg (Word.bit · 27) ((Mach.rd_wrN ..).trans (if_neg (by decide)))⟩
  exact iteInduction (motive := m.Staged) (fun _ => hwr.setStage 3) fun _ => hwr

theorem Mach.pagesProgrammed_net (n : Nat) : (m.pagesProgrammed n).net = m.net := by
  refine iteInduction (motive := fun x : Mach => x.net = m.net) (fun _ => ?_) fun _ => rfl
  unfold Mach.setStage
  dsimp only
  split <;> rfl

theorem Mach.setStage_net (v : Nat) : (m.setStage v).net = m.net := by
  unfold Mach.setStage
  dsimp only
  split <;> rfl

theorem Mach.setStage_pwr (v : Nat) : (m.setStage v).pwr = m.pwr := by
  unfold Mach.setStage
  dsimp only
  split <;> rfl

/-- The machine that has programmed and answered an image's last frame. -/
def Mach.frameLast (m : Mach) (p : List Nat) : Mach := (m.pagesProgrammed (frameData p).length).answered (frameOff p) 0

theorem Mach.frameLast_staged : m.Staged (m.frameLast p) := by
  obtain ⟨hview, hnow, hlen, hbank, hrec⟩ := Mach.Staged.pagesProgrammed (m := m) (frameData p).length
  exact ⟨Eq.trans rfl hview, hnow, hlen, hbank, hrec⟩

theorem Mach.frameLast_stage (h : (m.rd Reg.IMG_PROG).toNat + (frameData p).length = m.imgLen) : (m.frameLast p).stage = 3 := by
  rw [Mach.frameLast, Mach.answered_stage, Mach.pagesProgrammed_stage, if_pos h]

theorem Mach.frameLast_tells : m.FocTells imageEndRegs [] (m.frameLast p) :=
  ((Mach.FocTells.refl m _).pagesProgrammed (by decide) (by decide) (by decide) _).answered _ _

theorem Mach.frameLast_pwr : (m.frameLast p).pwr = m.pwr :=
  iteInduction (motive := fun x : Mach => x.pwr = m.pwr) (fun _ => Mach.setStage_pwr 3) fun _ => rfl

variable (cyc p) in
/-- The last frame of an image, taken. -/
theorem recoveryFrame_last (hrec : s.m.recovery = true) (hst : s.m.stage = 2) (hfits : FrameFits p)
    (hoff : frameOff p = (s.m.rd Reg.IMG_PROG).toNat) (hlen : frameOff p + (frameData p).length = s.m.imgLen) :
    (s.at cyc).recoveryFrame s.mem p true =
      ((s.at cyc).frameLast p).recoveryEnds (Memory.writeL s.mem (framePlace s p) (frameData p)) true := by
  rw [recoveryFrame_goesOn hrec hst hfits hoff hlen.le, stagePages_taken hoff, if_pos rfl]
  rfl

/-- The verdict of the loader on an image whose last frame has come. -/
abbrev frameVerdict (s : State) (p : List Nat) : Option Reject :=
  s.m.stagedVerdict (Memory.writeL s.mem (framePlace s p) (frameData p))

theorem stagedVerdict_at (mem : List Host.Cell) : (s.at cyc).stagedVerdict mem = s.m.stagedVerdict mem := by
  have hstaged : (s.at cyc).staged mem = s.m.staged mem := rfl
  have himage : (s.at cyc).image = s.m.image := rfl
  rw [Mach.stagedVerdict, hstaged, himage, Mach.imageCheck_at]

theorem exec_recoveryFrame_verified (hrec : s.m.recovery = true) (hst : s.m.stage = 2) (hfits : FrameFits p)
    (hoff : frameOff p = (s.m.rd Reg.IMG_PROG).toNat) (hlen : frameOff p + (frameData p).length = s.m.imgLen)
    (hcheck : frameVerdict s p = none) :
    ∃ t, exec (.recoveryFrame cyc p true) s = .next t ∧ FrameAnswered s t (frameOff p) 0 ∧ t.m.stage = 0 ∧ t.m.pwr.due = some 3 ∧
      t.mem = commitAppend (Memory.writeL s.mem (framePlace s p) (frameData p))
        ((s.at cyc).commitForm (Memory.writeL s.mem (framePlace s p) (frameData p)) 0).bytes ∧
      Raises s t [eventAt (s.at cyc) 0x4405 0 0xFF [] 0] ∧ SameRegsBut s t imageEndRegs := by
  have hlast : ((s.at cyc).rd Reg.IMG_PROG).toNat + (frameData p).length = (s.at cyc).imgLen := by
    rw [State.at_rd, ← hoff, hlen]
    rfl
  have hf := (recoveryFrame_last cyc p hrec hst hfits hoff hlen).trans
    (Mach.recoveryEnds_verified Mach.frameLast_staged (Mach.frameLast_stage hlast) hrec ((stagedVerdict_at _).trans hcheck))
  have hframe : (s.at cyc).FocTells imageEndRegs [] ((s.at cyc).frameLast p) := Mach.frameLast_tells
  have hnet : ((s.at cyc).frameLast p).net = (((s.at cyc).pagesProgrammed (frameData p).length).answered (frameOff p) 0).net := rfl
  have hprog := Mach.pagesProgrammed_net (m := s.at cyc) (frameData p).length
  have hprogged : (s.at cyc).FocTells imageEndRegs [] ((s.at cyc).pagesProgrammed (frameData p).length) :=
    (Mach.FocTells.refl _ _).pagesProgrammed (by decide) (by decide) (by decide) _
  generalize (s.at cyc).frameLast p = w at *
  have hdone := (((hframe.setStage (by decide) (by decide) 4).setStage (by decide) (by decide) 5).committed (by decide) (by decide)).onPwr
    fun q => { q with due := some 3 }
  obtain ⟨t, ht, hm, hmem, hregs, hes⟩ := runMem_tells (f := fun m mem => m.recoveryFrame mem p true) hf hdone
  refine ⟨t, ht, frameAnswered_of (m := (s.at cyc).pagesProgrammed _) _ _ hprog hprogged ?_, ?_, ?_, hmem, hes, hregs⟩
  · rw [hm, Mach.settle_net, ← hnet, Mach.askReset_net, Mach.committed_net, Mach.setStage_net, Mach.setStage_net]
  · rw [hm, Mach.settle_stage, Mach.askReset_stage, Mach.committed_stage]
  · rw [hm, Mach.settle_pwr]
    rfl

theorem exec_recoveryFrame_rejected {r : Reject} (hrec : s.m.recovery = true) (hst : s.m.stage = 2) (hfits : FrameFits p)
    (hoff : frameOff p = (s.m.rd Reg.IMG_PROG).toNat) (hlen : frameOff p + (frameData p).length = s.m.imgLen)
    (hcheck : frameVerdict s p = some r) :
    ∃ t, exec (.recoveryFrame cyc p true) s = .next t ∧ FrameAnswered s t (frameOff p) 0 ∧ t.m.stage = 7 ∧ t.m.pwr.due = s.m.pwr.due ∧
      t.mem = Memory.writeL s.mem (framePlace s p) (frameData p) ∧ t.m.fld Reg.IMG_REJECT 31 24 = r.rule % 256 ∧
      Raises s t [eventAt (s.at cyc) 0x4402 0 0xFF ([r.rule, r.folio] ++ leBytes 2 r.detail ++ leBytes 4 r.off) 0] ∧
      SameRegsBut s t (imageEndRegs ++ [Reg.IMG_REJECT, Reg.IMG_REJOFF]) := by
  have hlast : ((s.at cyc).rd Reg.IMG_PROG).toNat + (frameData p).length = (s.at cyc).imgLen := by
    rw [State.at_rd, ← hoff, hlen]
    rfl
  have hf := (recoveryFrame_last cyc p hrec hst hfits hoff hlen).trans
    (Mach.recoveryEnds_rejected Mach.frameLast_staged (Mach.frameLast_stage hlast) ((stagedVerdict_at _).trans hcheck))
  have hframe : (s.at cyc).FocTells (imageEndRegs ++ [Reg.IMG_REJECT, Reg.IMG_REJOFF]) [] ((s.at cyc).frameLast p) :=
    Mach.frameLast_tells.mono (by decide)
  have hnet : ((s.at cyc).frameLast p).net = (((s.at cyc).pagesProgrammed (frameData p).length).answered (frameOff p) 0).net := rfl
  have hpwr : ((s.at cyc).frameLast p).pwr = s.m.pwr := Mach.frameLast_pwr.trans (State.at_pwr ..)
  have hprog := Mach.pagesProgrammed_net (m := s.at cyc) (frameData p).length
  have hprogged : (s.at cyc).FocTells imageEndRegs [] ((s.at cyc).pagesProgrammed (frameData p).length) :=
    (Mach.FocTells.refl _ _).pagesProgrammed (by decide) (by decide) (by decide) _
  generalize (s.at cyc).frameLast p = w at *
  have hdone := ((hframe.setStage (by decide) (by decide) 4).setStage (by decide) (by decide) 7).imgReject r (by decide) (by decide)
    (by decide)
  obtain ⟨t, ht, hm, hmem, hregs, hes⟩ := runMem_tells (f := fun m mem => m.recoveryFrame mem p true) hf hdone
  refine ⟨t, ht, frameAnswered_of (m := (s.at cyc).pagesProgrammed _) _ _ hprog hprogged ?_, ?_, ?_, hmem, ?_, hes, hregs⟩
  · rw [hm, Mach.settle_net, ← hnet, Mach.imgReject_net, Mach.setStage_net, Mach.setStage_net]
  · rw [hm, Mach.settle_stage, Mach.imgReject_stage]
    exact Mach.stage_setStage (by decide)
  · rw [hm, Mach.settle_pwr, Mach.imgReject_pwr, Mach.setStage_pwr, Mach.setStage_pwr, hpwr]
  · rw [hm, Mach.settle_fld, Mach.fld, Mach.imgReject_reject]
    exact (Word.bits_packed r).1

/-! ### The first frame (R456) -/

/-- Staging begun with an image of this length. -/
def Mach.imageBegun (m : Mach) (n : Nat) : Mach := (((m.wrN Reg.IMG_LEN n).setStage 1).wr Reg.IMG_PROG 0#32).setStage 2

theorem Mach.imageBegun_eq (n : Nat) : m.imageBegun n =
    (((m.wrN Reg.IMG_LEN n).setFld Reg.IMG_STATUS 31 28 1).wr Reg.IMG_PROG 0#32).setFld Reg.IMG_STATUS 31 28 2 := by
  rw [Mach.imageBegun, Mach.setStage_of_silent (by decide), Mach.setStage_of_silent (by decide)]

theorem Mach.imageBegun_tells (n : Nat) : m.FocTells [Reg.IMG_LEN, Reg.IMG_PROG, Reg.IMG_STATUS] [] (m.imageBegun n) :=
  ((((Mach.FocTells.refl m _).wr (a := Reg.IMG_LEN) (by decide) (by decide) _).setStage_silent (by decide) (by decide)).wr (by decide)
    (by decide) _).setStage_silent (by decide) (by decide)

theorem Mach.imageBegun_rd (n : Nat) : (m.imageBegun n).rd Reg.IMG_LEN = BitVec.ofNat 32 n ∧ (m.imageBegun n).rd Reg.IMG_PROG = 0#32 := by
  constructor
  · rw [Mach.imageBegun_eq, Mach.rd_setFld, if_neg (by decide), Mach.rd_wr, if_neg (by decide), Mach.rd_setFld, if_neg (by decide),
      Mach.rd_wrN, if_pos rfl]
  · rw [Mach.imageBegun_eq, Mach.rd_setFld, if_neg (by decide), Mach.rd_wr, if_pos rfl]

theorem Mach.imageBegun_stage (n : Nat) : (m.imageBegun n).stage = 2 := Mach.stage_setStage (by decide)

theorem Mach.imageBegun_net (n : Nat) : (m.imageBegun n).net = m.net := by
  rw [Mach.imageBegun_eq]
  rfl

theorem Mach.stagingBank_congr {m' : Mach} (h : m'.bit Reg.IMG_STATUS 24 = m.bit Reg.IMG_STATUS 24) :
    m'.stagingBank = m.stagingBank := by
  rw [Mach.bit, Word.bit_eq_bits, Mach.bit, Word.bit_eq_bits, decide_eq_decide] at h
  have := Word.bits_lt (m.rd Reg.IMG_STATUS) 24 24
  have := Word.bits_lt (m'.rd Reg.IMG_STATUS) 24 24
  rw [Mach.stagingBank, Mach.bank, Mach.fld, Mach.stagingBank, Mach.bank, Mach.fld]
  omega

theorem Mach.imageBegun_bank (n : Nat) : (m.imageBegun n).stagingBank = m.stagingBank := by
  refine Mach.stagingBank_congr ?_
  rw [Mach.imageBegun, Mach.setStage_bit_other _ (by decide), Mach.bit, Mach.rd_wr, if_neg (by decide), ← Mach.bit,
    Mach.setStage_bit_other _ (by decide), Mach.bit, Mach.rd_wrN, if_neg (by decide), ← Mach.bit]

/-- The length that the header in a frame's data names. -/
abbrev headerLen (p : List Nat) : Nat := le (frameData p) 8 4

/-- The blocks of the staging bank that the image of a first frame takes. -/
abbrev headerBlocks (p : List Nat) : Nat := (headerLen p + 65535) / 65536 * 65536

theorem Mach.frameStarts_begun (hst : m.stage = 0 ∨ m.stage = 7) (hfits : FrameFits p) (hoff : frameOff p = 0)
    (hheader : 12 ≤ (frameData p).length) (hmin : 64 ≤ headerLen p) (hmax : headerLen p ≤ 33554432) :
    m.frameStarts mem p = (m.imageBegun (headerLen p),
      Memory.clear mem (bankBase m.stagingBank) (bankBase m.stagingBank + headerBlocks p)) := by
  have hfit := (frameFits_iff p).2 hfits
  have hlen : m.recoveryLen (frameOff p) (frameData p) = m.wrN Reg.IMG_LEN (headerLen p) := if_pos ⟨hoff, hheader, hst⟩
  have hstage : (m.wrN Reg.IMG_LEN (headerLen p)).stage = m.stage := Mach.stage_congr ((Mach.rd_wrN ..).trans (if_neg (by decide)))
  have himgLen : (m.wrN Reg.IMG_LEN (headerLen p)).imgLen = headerLen p := by
    rw [Mach.imgLen, Mach.rd_wrN, if_pos rfl, BitVec.toNat_ofNat]
    exact Nat.mod_eq_of_lt (by omega)
  have hbegin : (m.wrN Reg.IMG_LEN (headerLen p)).canBegin = true := by
    rw [Mach.canBegin, hstage, himgLen]
    rcases hst with h | h <;> simp [h, hmin, hmax]
  have hone : (((m.wrN Reg.IMG_LEN (headerLen p)).setStage 1).wr Reg.IMG_PROG 0#32).stage = 1 :=
    (Mach.stage_congr (Mach.rd_wr_other _ _ (by decide))).trans (Mach.stage_setStage (by decide))
  have hwords : (((m.wrN Reg.IMG_LEN (headerLen p)).setStage 1).wr Reg.IMG_PROG 0#32).imgLen = headerLen p := by
    refine (congrArg BitVec.toNat ?_).trans himgLen
    rw [Mach.rd_wr_other _ _ (by decide), Mach.setStage_rd_other _ (by decide) (by decide)]
  have hbank : (((m.wrN Reg.IMG_LEN (headerLen p)).setStage 1).wr Reg.IMG_PROG 0#32).stagingBank = m.stagingBank := by
    refine Mach.stagingBank_congr ?_
    rw [Mach.bit, Mach.rd_wr_other _ _ (by decide), ← Mach.bit, Mach.setStage_bit_other _ (by decide), Mach.bit, Mach.rd_wrN,
      if_neg (by decide), ← Mach.bit]
  simp only [Mach.frameStarts, hfit, if_true, hlen, hbegin, decide_eq_true hoff, Bool.and_true]
  rw [Mach.eraseComplete, if_neg (not_not.2 hone), hbank, hwords, if_pos rfl]
  rfl

theorem exec_recoveryFrame_begins (hwf : Memory.wf s.mem = true) (hrec : s.m.recovery = true) (hst : s.m.stage = 0 ∨ s.m.stage = 7)
    (hfits : FrameFits p) (hoff : frameOff p = 0) (hheader : 12 ≤ (frameData p).length) (hmin : 64 ≤ headerLen p)
    (hmax : headerLen p ≤ 33554432) (hmore : (frameData p).length < headerLen p) (hblocks : headerBlocks p ≤ 0x2000000) :
    ∃ t, exec (.recoveryFrame cyc p true) s = .next t ∧ FrameAnswered s t (frameOff p) 0 ∧ t.m.stage = 2 ∧ t.m.imgLen = headerLen p ∧
      t.m.rd Reg.IMG_PROG = BitVec.ofNat 32 (frameData p).length ∧
      Memory.readN t.mem (stagingBase s) (frameData p).length = (frameData p).map (· % 256) ∧
      (∀ b, stagingBase s + (frameData p).length ≤ b → b < stagingBase s + headerBlocks p → Memory.read t.mem b = 0xFF#8) ∧
      (∀ b, b < stagingBase s ∨ stagingBase s + headerBlocks p ≤ b → Memory.read t.mem b = Memory.read s.mem b) ∧
      SameRegsBut s t [Reg.IMG_LEN, Reg.IMG_PROG, Reg.IMG_STATUS] ∧ Raises s t [] := by
  have hbase : bankBase (s.at cyc).stagingBank = stagingBase s := rfl
  have hstageAt : (s.at cyc).stage = s.m.stage := Mach.stage_congr (State.at_rd ..)
  have hstart := Mach.frameStarts_begun (m := s.at cyc) (mem := s.mem) (by rwa [hstageAt]) hfits hoff hheader hmin hmax
  obtain ⟨hlenRd, hprogRd⟩ := (s.at cyc).imageBegun_rd (headerLen p)
  have hbank := (s.at cyc).imageBegun_bank (headerLen p)
  have hstage := (s.at cyc).imageBegun_stage (headerLen p)
  have htells := (s.at cyc).imageBegun_tells (headerLen p)
  have hnet : ((s.at cyc).imageBegun (headerLen p)).net = s.m.net := (s.at cyc).imageBegun_net (headerLen p)
  have hrf := recoveryFrame_at (cyc := cyc) (p := p) (ok := true) hrec
  rw [hstart] at hrf
  generalize (s.at cyc).imageBegun (headerLen p) = w at *
  have himgLen : w.imgLen = headerLen p := by
    rw [Mach.imgLen, hlenRd, BitVec.toNat_ofNat]
    exact Nat.mod_eq_of_lt (by omega)
  have hprog : (w.rd Reg.IMG_PROG).toNat = 0 := by rw [hprogRd]; rfl
  have hpages : w.pagesProgrammed (frameData p).length = w.wrN Reg.IMG_PROG (frameData p).length := by
    rw [Mach.pagesProgrammed, hprog, Nat.zero_add, himgLen]
    exact if_neg hmore.ne
  have htwo : ((w.wrN Reg.IMG_PROG (frameData p).length).answered (frameOff p) 0).stage = 2 := by
    rw [Mach.answered_stage]
    exact (Mach.stage_congr (Mach.rd_wr_other _ _ (by decide))).trans hstage
  have hf : (s.at cyc).recoveryFrame s.mem p true = ((w.wrN Reg.IMG_PROG (frameData p).length).answered (frameOff p) 0,
      Memory.writeL (Memory.clear s.mem (stagingBase s) (stagingBase s + headerBlocks p)) (stagingBase s) (frameData p)) := by
    rw [hrf]
    dsimp only
    rw [Mach.frameTaken_goesOn hstage hfits (by rw [hoff, hprog]) (by rw [hoff, himgLen]; omega), Mach.stagePages_ok, hpages, hbank, hbase,
      hprog, Nat.add_zero, if_pos rfl]
    exact Mach.recoveryEnds_idle (by rw [htwo]; decide)
  have htold := htells.wr (a := Reg.IMG_PROG) (by decide) (by decide) (BitVec.ofNat 32 (frameData p).length)
  obtain ⟨t, ht, hm, hmem, hregs, hes⟩ := runMem_tells (f := fun m mem => m.recoveryFrame mem p true) hf (htold.answered (frameOff p) 0)
  have hclear : Memory.wf (Memory.clear s.mem (stagingBase s) (stagingBase s + headerBlocks p)) = true := Memory.clear_wf hwf _ _
  have hroom : (frameData p).length ≤ headerBlocks p := by
    unfold headerBlocks
    omega
  have hwnet : (w.wrN Reg.IMG_PROG (frameData p).length).net = s.m.net := (Mach.wr_net ..).trans hnet
  have htnet : t.m.net = ((w.wrN Reg.IMG_PROG (frameData p).length).answered (frameOff p) 0).net := by rw [hm, Mach.settle_net]
  refine ⟨t, ht, frameAnswered_of _ _ hwnet htold htnet, ?_, ?_, ?_, ?_, fun b hb hb' => ?_, fun b hb => ?_, hregs, hes⟩
  · rw [hm, Mach.settle_stage, htwo]
  · rw [hm, Mach.imgLen, Mach.settle_rd, Mach.answered_rd, Mach.rd_wrN, if_neg (by decide), ← Mach.imgLen, himgLen]
  · rw [hm, Mach.settle_rd, Mach.answered_rd, Mach.rd_wrN, if_pos rfl]
  · rw [hmem]
    exact Memory.readN_writeL hclear _ _
  · have hbounds := stagingBase_bounds s
    rw [hmem, Memory.read_writeL_other hclear _ (.inr hb), Memory.read_clear, if_pos ⟨by omega, hb'⟩]
    exact Memory.read_nil_flash (by omega) (by omega)
  · rw [hmem]
    exact Memory.read_writeL_clear_other hwf _ hb (by omega)
end

/-- Settles O58: a device reset with what it keeps, tells and leaves, and each frame of the recovery loader by the stage that it finds. -/
theorem deviceResetAndRecoveryFrames : Obligations.DeviceResetAndRecoveryFrames := by
  refine ⟨fun cyc c s hdue => ⟨exec_deviceReset cyc hdue, fun h => exec_deviceReset_idle cyc ((deviceReset_due hdue s.mem).2 h)⟩,
    fun cyc s hdue => exec_deviceReset_idle cyc (deviceReset_none hdue s.mem), fun cyc p ok s hrec => ?_,
    fun cyc p s hwf hrec => ⟨fun hst hfits hoff hlen => exec_recoveryFrame_goesOn hwf hrec hst hfits hoff hlen,
      fun hst hfits hoff hlen => exec_recoveryFrame_fails hwf hrec hst hfits hoff hlen, fun hst hfits hoff hlen => ?_,
      fun hst hfits hoff hheader hmin hmax hmore hblocks => exec_recoveryFrame_begins hwf hrec hst hfits hoff hheader hmin hmax hmore hblocks,
      fun ok hst h => ?_, fun ok hst h => ?_⟩⟩
  · have hf : (s.at cyc).recoveryFrame s.mem p ok = (s.at cyc, s.mem) := if_pos (by
      have h : (s.at cyc).recovery = false := hrec
      rw [h]
      decide)
    obtain ⟨t, ht, hm, hq⟩ := runMem_idle (f := fun m mem => m.recoveryFrame mem p ok) hf
    exact ⟨t, ht, hm ▸ Mach.settle_net .., hq⟩
  · cases hcheck : frameVerdict s p with
    | none =>
      obtain ⟨t, ht, hans, hend⟩ := exec_recoveryFrame_verified (cyc := cyc) hrec hst hfits hoff hlen hcheck
      refine ⟨t, ht, hans, ?_⟩
      simp only [frameVerdict, Mach.stagedVerdict, framePlace, stagingBase, frameOff, frameData] at hcheck
      rw [hcheck]
      exact hend
    | some r =>
      obtain ⟨t, ht, hans, hend⟩ := exec_recoveryFrame_rejected (cyc := cyc) hrec hst hfits hoff hlen hcheck
      refine ⟨t, ht, hans, ?_⟩
      simp only [frameVerdict, Mach.stagedVerdict, framePlace, stagingBase, frameOff, frameData] at hcheck
      rw [hcheck]
      exact hend
  · have hst' : (s.at cyc).stage = 2 := hst
    refine exec_recoveryFrame_refused hrec (Mach.frameStarts_staging hst') (Mach.frameTaken_refused (.inr h)) (by rw [hst]; decide)
  · refine exec_recoveryFrame_refused hrec (Mach.frameStarts_unfit h) (Mach.frameTaken_refused (.inl ?_)) ?_
    · have hst' : (s.at cyc).stage = s.m.stage := rfl
      rw [hst']
      omega
    · omega

end Sys2Proof.Machine
end

section
/-! Flying starts and stops (R180, R183). -/

namespace Sys2Proof.Machine

section
variable {m : Mach} {l : Lane} {k i : Nat}

/-- The speed that the differences sensed so far give. -/
abbrev Mach.flySpeed (m : Mach) (l : Lane) (k i : Nat) : Int :=
  (m.senseSpeed (m.modSlot l k).phi ((m.modSlot l k).n - 1) (m.rdS (Reg.FOC_M_KW l.ix i))).1

/-- The motor is at rest, or its flux is too small to tell (R180). -/
abbrev Mach.flyStill (m : Mach) (l : Lane) (k : Nat) (w : Int) : Prop :=
  w.natAbs < m.fld (Reg.MOD_FLY l.ix k) 7 0 * 2 ^ 17 ∨ (m.modSlot l k).emagMin < m.fld (Reg.MOD_EMFMIN l.ix k) 15 0 * 2 ^ 13

/-- Speed and flux disagree (R180). -/
abbrev Mach.flyOdd (m : Mach) (l : Lane) (k i : Nat) (w : Int) : Prop :=
  mulq w.natAbs (m.rdS (Reg.FOC_M_PSI l.ix i)) <
    4 * (((isqrt ((m.modSlot l k).ea * (m.modSlot l k).ea + (m.modSlot l k).eb * (m.modSlot l k).eb) : Int) -
      mulq w.natAbs (m.rdS (Reg.FOC_M_PSI l.ix i))).natAbs : Int)

/-- The angle at which a motor is caught (R180). -/
abbrev Mach.flyAngle (m : Mach) (l : Lane) (k i : Nat) (w : Int) : Nat :=
  u32 ((m.modSlot l k).phiprev - sgnI w * 2 ^ 30 + (asr (w * m.rdS (Reg.FOC_M_KW l.ix i)) 29 *
    (8 * (m.fld (Reg.FOC_M_CFG l.ix i) 15 0 : Int) - 3 * (m.period : Int))) / (8 * (m.period : Int)))

/-- A decision shown and told, with its outcome. -/
def Mach.flyTold (m : Mach) (l : Lane) (k : Nat) (w : Int) (out : Nat) : Mach :=
  ((m.wrS (Reg.MOD_FLYSPD l.ix k) w).onMod l k fun s => { s with decide := false }).raise 0x1801 0 k (leBytes 4 (u32 w) ++ [out]) l.origin

/-- The speed costs at most a free value. -/
theorem Mach.senseSpeed_snd (total : Int) (count : Nat) (kw : Int) : ∃ n, (m.senseSpeed total count kw).2 = m.spend n := by
  unfold Mach.senseSpeed
  split
  · exact ⟨1, rfl⟩
  · exact ⟨0, rfl⟩

/-- The end of a flying start's sensing by its three outcomes: at rest, in disagreement, caught. -/
def Mach.flyEnds (m : Mach) (l : Lane) (k t : Nat) (w : Int) (th : Nat) (again : Bool) (still odd : Prop) [Decidable still] [Decidable odd] :
    Mach :=
  let x := m.flyTold l k w (if still then 0 else if odd then 1 else 2)
  if still then ((x.setBit (Reg.MOD_STAT l.ix k) 24 true).setModState l k 4).focStandstill l k t
  else
    let x := x.setBit (Reg.MOD_STAT l.ix k) 24 false
    if odd then
      if again then (x.raiseF3 0x1802 k [] l.origin).modOff l k 6
      else x.onMod l k fun s => { s with n := 0, phi := 0, emagMin := 2 ^ 62, repeated := true }
    else (x.wrN (Reg.MOD_FLYANG l.ix k) th).onMod l k fun s => { s with catching := some (w, th) }

/-- The machine that has told a decision which is not standstill, with STILL clear. -/
def Mach.flyMoves (m : Mach) (l : Lane) (k : Nat) (w : Int) (out : Nat) : Mach :=
  (m.flyTold l k w out).setBit (Reg.MOD_STAT l.ix k) 24 false

section
variable {t th : Nat} {w : Int} {again : Bool} {still odd : Prop} [Decidable still] [Decidable odd]

theorem Mach.flyEnds_still (hs : still) : m.flyEnds l k t w th again still odd =
    (((m.flyTold l k w 0).setBit (Reg.MOD_STAT l.ix k) 24 true).setModState l k 4).focStandstill l k t := by
  rw [Mach.flyEnds, if_pos hs, if_pos hs]

theorem Mach.flyEnds_fails (hs : ¬still) (ho : odd) : m.flyEnds l k t w th true still odd =
    ((m.flyMoves l k w 1).raiseF3 0x1802 k [] l.origin).modOff l k 6 := by
  rw [Mach.flyEnds, if_neg hs, if_neg hs, if_pos ho, if_pos ho]
  rfl

theorem Mach.flyEnds_again (hs : ¬still) (ho : odd) : m.flyEnds l k t w th false still odd =
    (m.flyMoves l k w 1).onMod l k fun s => { s with n := 0, phi := 0, emagMin := 2 ^ 62, repeated := true } := by
  rw [Mach.flyEnds, if_neg hs, if_neg hs, if_pos ho, if_pos ho]
  rfl

theorem Mach.flyEnds_caught (hs : ¬still) (ho : ¬odd) : m.flyEnds l k t w th again still odd =
    ((m.flyMoves l k w 2).wrN (Reg.MOD_FLYANG l.ix k) th).onMod l k fun s => { s with catching := some (w, th) } := by
  rw [Mach.flyEnds, if_neg hs, if_neg hs, if_neg ho, if_neg ho]
  rfl
end

/-- A decision, once some free values have gone into the speed. -/
theorem Mach.flyingDecision_eq (hi : m.motorOf l k = some i) (hst : m.modState l k = 1) (hd : (m.modSlot l k).decide = true) (t : Nat) :
    ∃ n, m.flyingDecision l k t = (m.spend n).flyEnds l k t (m.flySpeed l k i) (m.flyAngle l k i (m.flySpeed l k i))
      (m.modSlot l k).repeated (m.flyStill l k (m.flySpeed l k i)) (m.flyOdd l k i (m.flySpeed l k i)) := by
  obtain ⟨n, hn⟩ := m.senseSpeed_snd (m.modSlot l k).phi ((m.modSlot l k).n - 1) (m.rdS (Reg.FOC_M_KW l.ix i))
  have hgo : ¬(m.modState l k ≠ 1 ∨ (!(m.modSlot l k).decide) = true) := by simp [hst, hd]
  refine ⟨n, ?_⟩
  rw [Mach.flyingDecision, hi]
  dsimp only
  rw [if_neg hgo, hn]
  rfl

theorem Mach.flyingDecision_idle (h : m.motorOf l k = none ∨ m.modState l k ≠ 1 ∨ (m.modSlot l k).decide = false) (t : Nat) :
    m.flyingDecision l k t = m := by
  rw [Mach.flyingDecision]
  cases hi : m.motorOf l k with
  | none => rfl
  | some i =>
    refine if_pos ?_
    rw [hi] at h
    rcases h with h | h | h
    · exact absurd h (by simp)
    · exact .inl h
    · exact .inr (by rw [h]; rfl)
end

section
variable {m₀ m : Mach} {regs : List Nat} {es : List Event} {l : Lane} {k : Nat}

theorem modFlySpd_not_mem_stampRegs (l : Lane) {k : Nat} (h : k < 16) : Reg.MOD_FLYSPD l.ix k ∉ stampRegs := by
  have hfin : ∀ k : Fin 16, Reg.MOD_FLYSPD l.ix k ∉ stampRegs := by cases l <;> decide
  exact hfin ⟨k, h⟩

theorem modFlyAng_not_mem_stampRegs (l : Lane) {k : Nat} (h : k < 16) : Reg.MOD_FLYANG l.ix k ∉ stampRegs := by
  have hfin : ∀ k : Fin 16, Reg.MOD_FLYANG l.ix k ∉ stampRegs := by cases l <;> decide
  exact hfin ⟨k, h⟩

theorem Mach.FocTells.onMod (h : m₀.FocTells regs es m) (f : ModSlot → ModSlot) : m₀.FocTells regs es (m.onMod l k f) :=
  h.withMotors m.foc _

theorem Mach.FocTells.flyTold (h : m₀.FocTells regs es m) (hk : k < 16) (hspd : Reg.MOD_FLYSPD l.ix k ∈ regs) (w : Int) (out : Nat) :
    m₀.FocTells regs (es ++ [eventAt m₀ 0x1801 0 k (leBytes 4 (u32 w) ++ [out]) l.origin]) (m.flyTold l k w out) :=
  ((h.wr hspd (modFlySpd_not_mem_stampRegs l hk) _).onMod _).raise ..

theorem Mach.FocTells.focStandstill (h : m₀.FocTells regs es m) (t : Nat) : m₀.FocTells regs es (m.focStandstill l k t) := by
  unfold Mach.focStandstill
  split
  · exact iteInduction (fun _ => h.onMotor _ _) fun _ => h
  · exact h

theorem Mach.focStandstill_rd (t b : Nat) : (m.focStandstill l k t).rd b = m.rd b := by
  unfold Mach.focStandstill
  split
  · exact iteInduction (motive := fun x : Mach => x.rd b = m.rd b) (fun _ => rfl) fun _ => rfl
  · rfl

theorem Mach.flyTold_rd (w : Int) (out : Nat) (b : Nat) :
    (m.flyTold l k w out).rd b = if b = Reg.MOD_FLYSPD l.ix k then wordOf w else m.rd b := by
  rw [Mach.flyTold, Mach.raise_rd]
  exact Mach.rd_wr ..

theorem Mach.setBit_stat_modState (i : Nat) (hi : i < 28) (x : Bool) :
    (m.setBit (Reg.MOD_STAT l.ix k) i x).modState l k = m.modState l k :=
  Mach.fld_setBit_other _ _ (by omega) (by omega) (.inr (by omega))

theorem flySpd_ne_stat : Reg.MOD_FLYSPD l.ix k ≠ Reg.MOD_STAT l.ix k := by
  simp only [Reg.MOD_FLYSPD, Reg.MOD_STAT]
  omega

theorem flyAng_ne_stat : Reg.MOD_FLYANG l.ix k ≠ Reg.MOD_STAT l.ix k := by
  simp only [Reg.MOD_FLYANG, Reg.MOD_STAT]
  omega

theorem flyAng_ne_spd : Reg.MOD_FLYANG l.ix k ≠ Reg.MOD_FLYSPD l.ix k := by
  simp only [Reg.MOD_FLYANG, Reg.MOD_FLYSPD]
  omega

/-- A slot with a decision to take is one of the lane's slots. -/
theorem Mach.modSlot_lt (hd : (m.modSlot l k).decide = true) : k < (m.mod.get l).length := by
  by_contra hk
  rw [Mach.modSlot, nth, List.getD_eq_default _ _ (by omega)] at hd
  exact Bool.noConfusion hd

theorem Mach.onMod_length (f : ModSlot → ModSlot) : ((m.onMod l k f).mod.get l).length = (m.mod.get l).length := by
  rw [Mach.onMod, Two.get_set_self, upd, List.length_modify]

theorem Mach.modSlot_onMod (hk : k < (m.mod.get l).length) (f : ModSlot → ModSlot) : (m.onMod l k f).modSlot l k = f (m.modSlot l k) := by
  rw [Mach.modSlot, Mach.onMod, Two.get_set_self, nth_upd, if_pos ⟨rfl, hk⟩, Mach.modSlot]
end

/-! ### The rows -/

section
variable {s : State} {cyc : Nat} {l : Lane} {k : Fin 16} {i : Nat} {w : Int} {still odd : Prop}

/-- The sensing of a state, as its machine's own decision reads it. -/
theorem flyingSense_at (h : FlyingSense cyc l k s i w still odd) : ∃ n,
    (s.at cyc).flyingDecision l k (s.at cyc).seq = ((s.at cyc).spend n).flyEnds l k (s.at cyc).seq w ((s.at cyc).flyAngle l k i w)
      (s.m.modSlot l k).repeated ((s.at cyc).flyStill l k w) ((s.at cyc).flyOdd l k i w) ∧
    (still ↔ (s.at cyc).flyStill l k w) ∧ (odd ↔ (s.at cyc).flyOdd l k i w) := by
  obtain ⟨hi, hst, hd, hw, hstill, hodd⟩ := h
  obtain ⟨n, hn⟩ := Mach.flyingDecision_eq (m := s.at cyc) (l := l) (k := k) (i := i) hi hst hd (s.at cyc).seq
  have hspeed : (s.at cyc).flySpeed l k i = w := hw.symm
  rw [hspeed] at hn
  exact ⟨n, hn, hstill, hodd⟩

theorem exec_flyingStart_still (h : FlyingSense cyc l k s i w still odd) (hs : still) :
    ∃ t, exec (.flyingStartDecision cyc l k) s = .next t ∧ t.m.modState l k = 4 ∧ t.m.bit (Reg.MOD_STAT l.ix k) 24 = true ∧
      t.m.rd (Reg.MOD_FLYSPD l.ix k) = wordOf w ∧
      Raises s t [eventAt (s.at cyc) 0x1801 0 k (leBytes 4 (u32 w) ++ [0]) l.origin] ∧
      SameRegsBut s t [Reg.MOD_STAT l.ix k, Reg.MOD_FLYSPD l.ix k] ∧ SameMemory s t := by
  obtain ⟨n, hn, hstill, -⟩ := flyingSense_at h
  rw [Mach.flyEnds_still (hstill.1 hs)] at hn
  have hspd := Mach.flyTold_rd (m := (s.at cyc).spend n) (l := l) (k := k) w 0 (Reg.MOD_FLYSPD l.ix k)
  have htold := ((Mach.FocTells.refl (s.at cyc) [Reg.MOD_STAT l.ix k, Reg.MOD_FLYSPD l.ix k]).spend n).flyTold (l := l) k.isLt (by simp) w 0
  generalize ((s.at cyc).spend n).flyTold l k w 0 = x at *
  have hstat := modStat_not_mem_stampRegs l k.isLt
  obtain ⟨t, ht, hm, hregs, hmem, hes⟩ := run_makes (f := fun m => m.flyingDecision l k m.seq) hn
    (((htold.wr (List.mem_cons_self ..) hstat _).wr (List.mem_cons_self ..) hstat _).focStandstill _)
  have hrd : ∀ b, t.m.rd b = ((x.setBit (Reg.MOD_STAT l.ix k) 24 true).setModState l k 4).rd b := fun b => by
    rw [hm, Mach.settle_rd]
    exact Mach.focStandstill_rd ..
  refine ⟨t, ht, ?_, ?_, ?_, hes, hregs, hmem⟩
  · rw [Mach.modState, Mach.fld, hrd]
    exact Mach.fld_setFld _ _ (by decide) (by decide)
  · rw [Mach.bit, hrd]
    exact (Mach.bit_setFld_other _ _ (by decide) (by decide) (.inr (.inl (by decide)))).trans (Mach.bit_setBit _ _ (by decide))
  · rw [hrd, Mach.setModState, Mach.rd_setFld, if_neg flySpd_ne_stat, Mach.rd_setBit, if_neg flySpd_ne_stat, hspd, if_pos rfl]

theorem Mach.flyMoves_tells {m : Mach} (l : Lane) (k : Fin 16) (w : Int) (out n : Nat) :
    m.FocTells [Reg.MOD_STAT l.ix k, Reg.MOD_FLYSPD l.ix k] [eventAt m 0x1801 0 k (leBytes 4 (u32 w) ++ [out]) l.origin]
      ((m.spend n).flyMoves l k w out) :=
  (((Mach.FocTells.refl m [Reg.MOD_STAT l.ix k, Reg.MOD_FLYSPD l.ix k]).spend n).flyTold k.isLt (by simp) w out).wr
    (List.mem_cons_self ..) (modStat_not_mem_stampRegs l k.isLt) _

theorem Mach.flyMoves_modState {m : Mach} (l : Lane) (k : Nat) (w : Int) (out : Nat) :
    (m.flyMoves l k w out).modState l k = m.modState l k := by
  rw [Mach.flyMoves, Mach.setBit_stat_modState _ (by decide), Mach.modState, Mach.fld, Mach.flyTold_rd, if_neg flySpd_ne_stat.symm,
    ← Mach.fld, ← Mach.modState]

theorem Mach.flyMoves_spd {m : Mach} (l : Lane) (k : Nat) (w : Int) (out : Nat) :
    (m.flyMoves l k w out).rd (Reg.MOD_FLYSPD l.ix k) = wordOf w := by
  rw [Mach.flyMoves, Mach.rd_setBit, if_neg flySpd_ne_stat, Mach.flyTold_rd, if_pos rfl]

theorem Mach.flyMoves_slot {m : Mach} (l : Lane) (k : Nat) (w : Int) (out : Nat) :
    (m.flyMoves l k w out).mod = (m.onMod l k fun s => { s with decide := false }).mod := rfl

theorem spend_at_modState (n : Nat) : ((s.at cyc).spend n).modState l k = s.m.modState l k := by
  rw [Mach.modState, Mach.spend_fld, Mach.fld, State.at_rd, Mach.modState, Mach.fld]

theorem exec_flyingStart_again (h : FlyingSense cyc l k s i w still odd) (hs : ¬still) (ho : odd)
    (hrep : (s.m.modSlot l k).repeated = false) :
    ∃ t, exec (.flyingStartDecision cyc l k) s = .next t ∧ t.m.modState l k = 1 ∧ t.m.rd (Reg.MOD_FLYSPD l.ix k) = wordOf w ∧
      (t.m.modSlot l k).n = 0 ∧ (t.m.modSlot l k).phi = 0 ∧ (t.m.modSlot l k).repeated = true ∧ (t.m.modSlot l k).decide = false ∧
      Raises s t [eventAt (s.at cyc) 0x1801 0 k (leBytes 4 (u32 w) ++ [1]) l.origin] ∧
      SameRegsBut s t [Reg.MOD_STAT l.ix k, Reg.MOD_FLYSPD l.ix k] ∧ SameMemory s t := by
  have hst : s.m.modState l k = 1 := h.2.1
  have hlen := Mach.modSlot_lt h.2.2.1
  obtain ⟨n, hn, hstill, hodd⟩ := flyingSense_at h
  have hs' := fun hx => hs (hstill.2 hx)
  rw [hrep, Mach.flyEnds_again hs' (hodd.1 ho)] at hn
  have htold := (s.at cyc).flyMoves_tells l k w 1 n
  have hstate := ((s.at cyc).spend n).flyMoves_modState l k w 1
  have hspd := ((s.at cyc).spend n).flyMoves_spd l k w 1
  have hspent : (((s.at cyc).spend n).flyMoves l k w 1).modSlot l k = { s.m.modSlot l k with decide := false } := by
    rw [Mach.modSlot, Mach.flyMoves_slot, ← Mach.modSlot]
    exact Mach.modSlot_onMod (m := (s.at cyc).spend n) hlen _
  have hlong : k.val < ((((s.at cyc).spend n).flyMoves l k w 1).mod.get l).length := by
    rw [Mach.flyMoves_slot, Mach.onMod_length]
    exact hlen
  rw [spend_at_modState, hst] at hstate
  generalize ((s.at cyc).spend n).flyMoves l k w 1 = x at *
  obtain ⟨t, ht, hm, hregs, hmem, hes⟩ := run_makes (f := fun m => m.flyingDecision l k m.seq) hn
    (htold.onMod (l := l) (k := k) fun s => { s with n := 0, phi := 0, emagMin := 2 ^ 62, repeated := true })
  have hmod : t.m.modSlot l k = { s.m.modSlot l k with decide := false, n := 0, phi := 0, emagMin := 2 ^ 62, repeated := true } := by
    rw [hm, Mach.modSlot, Mach.settle_mod, ← Mach.modSlot]
    rw [Mach.modSlot_onMod hlong, hspent]
  refine ⟨t, ht, ?_, ?_, ?_, ?_, ?_, ?_, hes, hregs, hmem⟩
  · rw [hm, Mach.modState, Mach.settle_fld, Mach.onMod_fld, ← Mach.modState, hstate]
  · rw [hm, Mach.settle_rd, Mach.onMod_rd, hspd]
  · rw [hmod]
  · rw [hmod]
  · rw [hmod]
  · rw [hmod]
theorem exec_flyingStart_caught {th : Nat} (h : FlyingSense cyc l k s i w still odd) (hs : ¬still) (ho : ¬odd)
    (hth : th = s.m.flyAngle l k i w) :
    ∃ t, exec (.flyingStartDecision cyc l k) s = .next t ∧ t.m.modState l k = 1 ∧ t.m.rd (Reg.MOD_FLYSPD l.ix k) = wordOf w ∧
      t.m.rd (Reg.MOD_FLYANG l.ix k) = BitVec.ofNat 32 th ∧ (t.m.modSlot l k).catching = some (w, th) ∧
      Raises s t [eventAt (s.at cyc) 0x1801 0 k (leBytes 4 (u32 w) ++ [2]) l.origin] ∧
      SameRegsBut s t [Reg.MOD_STAT l.ix k, Reg.MOD_FLYSPD l.ix k, Reg.MOD_FLYANG l.ix k] ∧ SameMemory s t := by
  have hst : s.m.modState l k = 1 := h.2.1
  have hlen := Mach.modSlot_lt h.2.2.1
  obtain ⟨n, hn, hstill, hodd⟩ := flyingSense_at h
  have hs' := fun hx => hs (hstill.2 hx)
  have ho' := fun hx => ho (hodd.2 hx)
  have hangle : (s.at cyc).flyAngle l k i w = th := hth.symm
  rw [hangle, Mach.flyEnds_caught hs' ho'] at hn
  have htold := ((s.at cyc).flyMoves_tells l k w 2 n).mono (regs' := [Reg.MOD_STAT l.ix k, Reg.MOD_FLYSPD l.ix k, Reg.MOD_FLYANG l.ix k])
    (by simp)
  have hstate := ((s.at cyc).spend n).flyMoves_modState l k w 2
  have hspd := ((s.at cyc).spend n).flyMoves_spd l k w 2
  have hlong : k.val < ((((s.at cyc).spend n).flyMoves l k w 2).mod.get l).length := by
    rw [Mach.flyMoves_slot, Mach.onMod_length]
    exact hlen
  rw [spend_at_modState, hst] at hstate
  generalize ((s.at cyc).spend n).flyMoves l k w 2 = x at *
  obtain ⟨t, ht, hm, hregs, hmem, hes⟩ := run_makes (f := fun m => m.flyingDecision l k m.seq) hn
    ((htold.wr (by simp) (modFlyAng_not_mem_stampRegs l k.isLt) (BitVec.ofNat 32 th)).onMod (l := l) (k := k)
      fun s => { s with catching := some (w, th) })
  have hrd : ∀ b, t.m.rd b = (x.wr (Reg.MOD_FLYANG l.ix k) (BitVec.ofNat 32 th)).rd b := fun b => by
    rw [hm, Mach.settle_rd, Mach.onMod_rd, Mach.wrN]
  refine ⟨t, ht, ?_, ?_, ?_, ?_, hes, hregs, hmem⟩
  · rw [Mach.modState, Mach.fld, hrd, Mach.rd_wr, if_neg flyAng_ne_stat.symm, ← Mach.fld, ← Mach.modState, hstate]
  · rw [hrd, Mach.rd_wr, if_neg flyAng_ne_spd.symm, hspd]
  · rw [hrd, Mach.rd_wr, if_pos rfl]
  · rw [hm, Mach.modSlot, Mach.settle_mod, ← Mach.modSlot]
    rw [Mach.modSlot_onMod (by rwa [Mach.wrN, Mach.wr_mod])]

theorem exec_flyingStart_fails (h : FlyingSense cyc l k s i w still odd) (hs : ¬still) (ho : odd)
    (hrep : (s.m.modSlot l k).repeated = true) (hlive : s.m.live l = true) (hroom : s.roomy) :
    ∃ t, exec (.flyingStartDecision cyc l k) s = .next t ∧ t.m.modState l k = 6 ∧ t.m.rd (Reg.MOD_FLYSPD l.ix k) = wordOf w ∧
      Enters s t cyc ⟨10, k, 0, 0, 0x1802, []⟩ ∧
      Raises s t [eventAt (s.at cyc) 0x1801 0 k (leBytes 4 (u32 w) ++ [1]) l.origin, eventAt (s.at cyc) 0x1802 3 k [] l.origin] ∧
      SameRegsBut s t [Reg.MOD_STAT l.ix k, Reg.MOD_FLYSPD l.ix k] ∧ SameMemory s t := by
  obtain ⟨n, hn, hstill, hodd⟩ := flyingSense_at h
  have hs' := fun hx => hs (hstill.2 hx)
  rw [hrep, Mach.flyEnds_fails hs' (hodd.1 ho)] at hn
  have hspd := ((s.at cyc).spend n).flyMoves_spd l k w 1
  have hlane : (((s.at cyc).spend n).flyMoves l k w 1).lane = s.m.lane := rfl
  obtain ⟨t, ht, hm, hrd, hstate, henters, hes, hregs, hmem⟩ := run_faultsSlot (f := fun m => m.flyingDecision l k m.seq) (code := 0x1802)
    ((s.at cyc).flyMoves_tells l k w 1 n) ⟨_, hn⟩ hlane hroom hlive k.isLt (List.mem_cons_self ..)
  exact ⟨t, ht, hstate, (hrd _ flySpd_ne_stat).trans hspd, henters, hes, hregs, hmem⟩

theorem exec_stopComplete (hst : s.m.modState l k = 5) (hrun : (if (s.m.modSlot l k).stopt = 0 then 16 else 4) ≤ (s.m.modSlot l k).stopRun) :
    ∃ t, exec (.stopComplete cyc l k) s = .next t ∧ t.m.modState l k = 0 ∧ Raises s t [eventAt (s.at cyc) 0x1806 0 k [] l.origin] ∧
      SameRegsBut s t [Reg.MOD_STAT l.ix k] ∧ SameMemory s t := by
  have hf : (s.at cyc).stopComplete l k = ((s.at cyc).modOff l k 0).raise 0x1806 0 k [] l.origin := if_pos ⟨hst, hrun⟩
  obtain ⟨t, ht, hm, hregs, hmem, hes⟩ := run_makes (f := fun m => m.stopComplete l k) hf
    (((Mach.FocTells.refl (s.at cyc) [Reg.MOD_STAT l.ix k]).modOff k.isLt (List.mem_cons_self ..) 0).raise ..)
  refine ⟨t, ht, ?_, hes, hregs, hmem⟩
  rw [hm, Mach.modState, Mach.settle_fld, Mach.fld, Mach.raise_rd]
  exact (s.at cyc).modOff_modState l (by decide) k

theorem stopComplete_idle (h : s.m.modState l k ≠ 5 ∨
      (s.m.modSlot l k).stopRun < (if (s.m.modSlot l k).stopt = 0 then 16 else 4)) : (s.at cyc).stopComplete l k = s.at cyc :=
  if_neg fun hx => h.elim (fun h => h hx.1) fun h => absurd hx.2 (Nat.not_le.2 h)
end

/-- Settles O22: a flying start by what it has sensed, and a stop by its dwell. -/
theorem flyingStartsAndStopsDecide : Obligations.FlyingStartsAndStopsDecide := by
  refine ⟨fun cyc l k s i w still odd h hs => exec_flyingStart_still h hs,
    fun cyc l k s i w still odd h hs ho hrep => exec_flyingStart_again h hs ho hrep,
    fun cyc l k s i w still odd h hs ho hrep hlive hroom => exec_flyingStart_fails h hs ho hrep hlive hroom,
    fun cyc l k s i w still odd th h hs ho hth => exec_flyingStart_caught h hs ho hth, fun cyc l k s h => ?_,
    fun cyc l k s hst hrun => exec_stopComplete hst hrun, fun cyc l k s h => ?_⟩
  · obtain ⟨t, ht, hfoc, hmod, hquiet⟩ := run_foc_nothing (f := fun m => m.flyingDecision l k m.seq)
      (Mach.flyingDecision_idle (m := s.at cyc) (l := l) (k := k) h _)
    exact ⟨t, ht, hmod, hfoc, hquiet⟩
  · obtain ⟨t, ht, -, hmod, hquiet⟩ := run_foc_nothing (f := fun m => m.stopComplete l k) (stopComplete_idle (cyc := cyc) h)
    exact ⟨t, ht, hmod, hquiet⟩

end Sys2Proof.Machine
end

section
/-! Resolver, encoder, SENT and SSI (R95 to R99). -/

namespace Sys2Proof.Machine

section
variable {s : State} {cyc : Nat} {m : Mach} {x : Fin 2} {f : Mach → Mach} {g : PosChannel → PosChannel}

/-- A command that changes one channel and no more. -/
theorem run_onChan (hf : f (s.at cyc) = (s.at cyc).onChan x g) :
    ∃ t, run s cyc f = .next t ∧ t.m.pos = { s.m.pos with chans := upd s.m.pos.chans x g } ∧ t.m.lane = s.m.lane ∧ Quiet s t [] := by
  obtain ⟨t, ht, hm, hq⟩ := run_quiet (regs := []) hf (fun b _ => State.at_rd cyc s b) rfl
  exact ⟨t, ht, hm ▸ Mach.settle_pos .., hm ▸ Mach.settle_lane .., hq⟩

theorem chan_of_upd {t : State} (h : t.m.pos = { s.m.pos with chans := upd s.m.pos.chans x g }) (hx : x.val < s.m.pos.chans.length) :
    t.m.chan x = g (s.m.chan x) := by
  rw [Mach.chan, h, nth_upd, if_pos ⟨rfl, hx⟩, Mach.chan]

theorem run_pos_idle (hf : f (s.at cyc) = s.at cyc) :
    ∃ t, run s cyc f = .next t ∧ t.m.pos = s.m.pos ∧ t.m.lane = s.m.lane ∧ Quiet s t [] := by
  obtain ⟨t, ht, hm, hq⟩ := run_idle hf
  exact ⟨t, ht, hm ▸ Mach.settle_pos .., hm ▸ Mach.settle_lane .., hq⟩

/-! ### Resolver (R95) -/

/-- What an update of a resolver makes of its channel. -/
def resolverStep (lim : Word) (now theta : Nat) (vel sin cos : Int) (exc : Bool) (c : PosChannel) : PosChannel :=
  let err := (s32 ((atan32 sin cos : Int) - theta * 2 ^ 16)).natAbs
  let los := if ampBelow sin cos (lim.bits 7 0) || ampAbove sin cos (lim.bits 15 8) then c.losRun + 1 else 0
  let lot := if lim.bits 23 16 * 2 ^ 24 < err then c.lotRun + 1 else 0
  { c with
    theta := theta * 2 ^ 16 % 2 ^ 32, vel := vel, thetaCyc := now, velSum := c.velSum + vel, velCount := c.velCount + 1,
    losRun := los, lotRun := lot, excBad := exc,
    flags := c.flags ||| (if 8 ≤ los then 1 else 0) ||| (if 8 ≤ lot then 2 else 0) ||| (if exc then 4 else 0) }

theorem Mach.resolver_runs (h : m.posRuns x 1 = true) (theta : Nat) (vel sin cos : Int) (exc : Bool) :
    m.resolver x theta vel sin cos exc = m.onChan x (resolverStep (m.rd (Reg.POS_CH_LIM x)) m.time.cyc theta vel sin cos exc) :=
  if_neg (by rw [h]; decide)

theorem resolverStep_good {lim : Word} {now theta : Nat} {vel sin cos : Int} {exc : Bool} (hlow : ampBelow sin cos (lim.bits 7 0) = false)
    (hhigh : ampAbove sin cos (lim.bits 15 8) = false)
    (herr : (s32 ((atan32 sin cos : Int) - theta * 2 ^ 16)).natAbs ≤ lim.bits 23 16 * 2 ^ 24) (hexc : exc = false) (c : PosChannel) :
    (resolverStep lim now theta vel sin cos exc c).losRun = 0 ∧ (resolverStep lim now theta vel sin cos exc c).lotRun = 0 ∧
      (resolverStep lim now theta vel sin cos exc c).flags = c.flags := by
  have hlos : ¬(ampBelow sin cos (lim.bits 7 0) || ampAbove sin cos (lim.bits 15 8)) = true := by rw [hlow, hhigh]; decide
  have hl : (resolverStep lim now theta vel sin cos exc c).losRun = 0 := if_neg hlos
  have ht : (resolverStep lim now theta vel sin cos exc c).lotRun = 0 := if_neg (Nat.not_lt.2 herr)
  refine ⟨hl, ht, ?_⟩
  calc (resolverStep lim now theta vel sin cos exc c).flags
    _ = c.flags ||| (if 8 ≤ (resolverStep lim now theta vel sin cos exc c).losRun then 1 else 0) |||
          (if 8 ≤ (resolverStep lim now theta vel sin cos exc c).lotRun then 2 else 0) ||| (if exc then 4 else 0) := rfl
    _ = c.flags := by rw [hl, ht, hexc]; simp

theorem resolverStep_lost {lim : Word} {now theta : Nat} {vel sin cos : Int} {exc : Bool}
    (h : ampBelow sin cos (lim.bits 7 0) = true ∨ ampAbove sin cos (lim.bits 15 8) = true) (c : PosChannel) :
    (resolverStep lim now theta vel sin cos exc c).losRun = c.losRun + 1 ∧
      (7 ≤ c.losRun → (resolverStep lim now theta vel sin cos exc c).flags.testBit 0 = true) := by
  have hout : (ampBelow sin cos (lim.bits 7 0) || ampAbove sin cos (lim.bits 15 8)) = true := by rwa [Bool.or_eq_true]
  refine ⟨if_pos hout, fun hrun => ?_⟩
  have hlos : 8 ≤ c.losRun + 1 := by omega
  simp only [resolverStep, hout, if_true, hlos, Nat.testBit_or]
  simp

theorem exec_resolverUpdate (cyc : Nat) (theta : BitVec 16) (vel : Int) (sin cos : BitVec 16) (exc : Bool) (h : s.m.posRuns x 1 = true) :
    ∃ t, exec (.resolverUpdate cyc x theta vel sin cos exc) s = .next t ∧ t.m.pos = { s.m.pos with
        chans := upd s.m.pos.chans x
          (resolverStep (s.m.rd (Reg.POS_CH_LIM x)) (s.at cyc).time.cyc theta.toNat vel sin.toInt cos.toInt exc) } ∧ Quiet s t [] := by
  obtain ⟨t, ht, hpos, -, hq⟩ := run_onChan (f := fun m => m.resolver x theta.toNat vel sin.toInt cos.toInt exc)
    (Mach.resolver_runs (m := s.at cyc) h ..)
  rw [State.at_rd] at hpos
  exact ⟨t, ht, hpos, hq⟩

/-! ### Encoder (R96, R97) -/

theorem Mach.zSettle_none (h : (m.chan x).zDue = none) : m.zSettle x = m := by rw [Mach.zSettle, h]

/-- What a change of both levels makes of a channel. -/
def bothStep (a b : Bool) (c : PosChannel) : PosChannel := { c with flags := c.flags ||| 2 ^ 3, levelA := a, levelB := b }

/-- What a count makes of its channel. -/
def countStep (a b : Bool) (now : Nat) (c : PosChannel) : PosChannel :=
  let c := Sys2Proof.Machine.encoderCount (quadDelta c.levelA c.levelB a b) c
  { c with levelA := a, levelB := b, winCount := some (c.c, now) }

/-- The stamp of the count before. -/
def lastCount (c : PosChannel) : Option Nat :=
  match c.winCount, c.pastCount with
  | some w, _ => some w.2
  | none, some p => some p.2
  | none, none => none

/-- The channel's flag of the rate, where a count now comes too soon. -/
def Mach.countSoon (m : Mach) (x : Nat) : Mach :=
  match lastCount (m.chan x) with
  | some t => if m.now < t + 100 then m.chanFlag x 5 else m
  | none => m

theorem Mach.countSoon_not (h : ∀ t, lastCount (m.chan x) = some t → t + 100 ≤ m.now) : m.countSoon x = m := by
  unfold Mach.countSoon
  cases hl : lastCount (m.chan x) with
  | none => rfl
  | some t => exact if_neg (Nat.not_lt.2 (h t hl))

theorem Mach.countSoon_of {t : Nat} (h : lastCount (m.chan x) = some t) (hsoon : m.now < t + 100) :
    m.countSoon x = m.chanFlag x 5 := by
  rw [Mach.countSoon, h]
  exact if_pos hsoon

section
variable {a b : Bool} (hruns : m.posRuns x 2 = true) (hz : (m.chan x).zDue = none)
include hruns hz

theorem Mach.encoder_illegal (ha : (m.chan x).levelA ≠ a) (hb : (m.chan x).levelB ≠ b) : m.encoder x a b = m.onChan x (bothStep a b) := by
  rw [Mach.encoder, if_neg (by rw [hruns]; decide), Mach.zSettle_none hz]
  exact (if_pos ⟨ha, hb⟩).trans (Mach.onChan_onChan ..)

theorem Mach.encoder_one (hone : ((m.chan x).levelA ≠ a ∧ (m.chan x).levelB = b) ∨ ((m.chan x).levelA = a ∧ (m.chan x).levelB ≠ b)) :
    m.encoder x a b = (m.countSoon x).onChan x (countStep a b (m.countSoon x).now) := by
  have hboth : ¬((m.chan x).levelA ≠ a ∧ (m.chan x).levelB ≠ b) := by tauto
  have hnone : ¬((m.chan x).levelA = a ∧ (m.chan x).levelB = b) := by tauto
  rw [Mach.encoder, if_neg (by rw [hruns]; decide), Mach.zSettle_none hz]
  dsimp only
  rw [if_neg hboth, if_neg hnone]
  rfl

/-- One of the levels changes, not too soon after the count before: a count. -/
theorem Mach.encoder_counts (hone : ((m.chan x).levelA ≠ a ∧ (m.chan x).levelB = b) ∨ ((m.chan x).levelA = a ∧ (m.chan x).levelB ≠ b))
    (hlast : ∀ t, lastCount (m.chan x) = some t → t + 100 ≤ m.now) : m.encoder x a b = m.onChan x (countStep a b m.now) := by
  rw [Mach.encoder_one hruns hz hone, Mach.countSoon_not hlast]

/-- R97: a count nearer than 50 ns to the one before sets the flag of the rate. -/
theorem Mach.encoder_tooSoon (hone : ((m.chan x).levelA ≠ a ∧ (m.chan x).levelB = b) ∨ ((m.chan x).levelA = a ∧ (m.chan x).levelB ≠ b))
    {t : Nat} (hlast : lastCount (m.chan x) = some t) (hsoon : m.now < t + 100) :
    m.encoder x a b = m.onChan x (countStep a b m.now ∘ fun c => { c with flags := c.flags ||| 2 ^ 5 }) := by
  rw [Mach.encoder_one hruns hz hone, Mach.countSoon_of hlast hsoon]
  exact Mach.onChan_onChan ..
end

theorem quadDelta_first (a b : Bool) : quadDelta (!a) b a b = if a = b then -1 else 1 := by
  cases a <;> cases b <;> decide

theorem encoderCount_flags (d : Int) (c : PosChannel) : (Sys2Proof.Machine.encoderCount d c).flags = c.flags := by
  unfold Sys2Proof.Machine.encoderCount
  extract_lets fwd c₁ c₂
  exact iteInduction (motive := fun r : PosChannel => r.flags = c.flags)
    (fun _ => iteInduction (motive := fun r : PosChannel => r.flags = c.flags) (fun _ => rfl) fun _ => rfl)
    fun _ => iteInduction (motive := fun r : PosChannel => r.flags = c.flags) (fun _ => rfl) fun _ => rfl

theorem encoderCount_r (d : Int) (c : PosChannel) : (Sys2Proof.Machine.encoderCount d c).r = c.r + d := by
  unfold Sys2Proof.Machine.encoderCount
  extract_lets fwd c₁ c₂
  exact iteInduction (motive := fun r : PosChannel => r.r = c.r + d)
    (fun _ => iteInduction (motive := fun r : PosChannel => r.r = c.r + d) (fun _ => rfl) fun _ => rfl)
    fun _ => iteInduction (motive := fun r : PosChannel => r.r = c.r + d) (fun _ => rfl) fun _ => rfl

/-- R96: a count in the direction held so far moves C at once; one against it waits for another. -/
theorem encoderCount_unheld {d : Int} {c : PosChannel} (h : c.held = false) :
    (Sys2Proof.Machine.encoderCount d c).c = (if decide (0 < d) = c.dirFwd then c.c + d else c.c) ∧
      (Sys2Proof.Machine.encoderCount d c).held = !(decide (0 < d) == c.dirFwd) := by
  unfold Sys2Proof.Machine.encoderCount
  extract_lets fwd c₁ c₂
  rw [if_pos (by change (!c.held) = true; rw [h]; rfl)]
  by_cases hd : fwd = c.dirFwd
  · rw [if_pos hd, if_pos hd]
    refine ⟨rfl, h.trans ?_⟩
    rw [beq_iff_eq.2 hd, Bool.not_true]
  · rw [if_neg hd, if_neg hd]
    refine ⟨rfl, ?_⟩
    rw [beq_eq_false_iff_ne.2 hd, Bool.not_false]

/-! ### The Z edge -/

def zMark (now : Nat) (c : PosChannel) : PosChannel := { c with zDue := some now }

theorem Mach.zEdge_runs (hruns : m.posRuns x 2 = true) (hz : m.bit (Reg.POS_CH_FMT x) 14 = true) :
    m.zEdge x = (m.zSettle x).onChan x (zMark m.now) := by
  rw [Mach.zEdge, if_neg (by rw [hruns, hz]; decide)]
  rfl

theorem Mach.zSettle_due {z : Nat} (hz : (m.chan x).zDue = some z) (hlt : z < m.now) : m.zSettle x = m.zCompare x := by
  rw [Mach.zSettle, hz]
  exact if_pos hlt

/-- The first Z edge gives the place. -/
theorem Mach.zCompare_first (hx : x.val < m.pos.chans.length) (hf : (m.chan x).zFirst = none) :
    m.zCompare x = m.onChan x ((fun c => { c with zFirst := some ((m.chan x).c % (m.chanCpr x : Int)) }) ∘
      fun c => { c with zDue := none }) := by
  unfold Mach.zCompare
  extract_lets pos m₁
  have hfirst : (m₁.chan x).zFirst = none := (congrArg PosChannel.zFirst (m.chan_onChan_self hx _)).trans hf
  rw [hfirst]
  exact Mach.onChan_onChan ..

/-- R97: a later Z edge more than one count off its place sets INDEX. -/
theorem Mach.zCompare_later (hx : x.val < m.pos.chans.length) {p : Int} (hf : (m.chan x).zFirst = some p) :
    m.zCompare x = m.onChan x ((fun c => { c with flags :=
        if 1 < (signedMod ((m.chan x).c % (m.chanCpr x : Int) - p) (m.chanCpr x)).natAbs then c.flags ||| 2 ^ 4 else c.flags }) ∘
      fun c => { c with zDue := none }) := by
  unfold Mach.zCompare
  extract_lets pos m₁
  have hfirst : (m₁.chan x).zFirst = some p := (congrArg PosChannel.zFirst (m.chan_onChan_self hx _)).trans hf
  have hcpr : m₁.chanCpr x = m.chanCpr x := rfl
  rw [hfirst]
  dsimp only
  rw [hcpr]
  by_cases hfar : 1 < (signedMod ((m.chan x).c % (m.chanCpr x : Int) - p) (m.chanCpr x)).natAbs
  · simp only [if_pos hfar]
    exact (if_pos hfar).trans (Mach.onChan_onChan ..)
  · simp only [if_neg hfar]
    exact if_neg hfar

/-- A Z edge settles the one before it and is then due itself. -/
theorem exec_zEdge_settles (cyc : Nat) {z : Nat} (hruns : s.m.posRuns x 2 = true) (hfmt : s.m.bit (Reg.POS_CH_FMT x) 14 = true)
    (hx : x.val < s.m.pos.chans.length) (hz : (s.m.chan x).zDue = some z) (hlt : z < (s.at cyc).now)
    (hg : (s.at cyc).zCompare x = (s.at cyc).onChan x g) :
    ∃ t, exec (.zEdge cyc x) s = .next t ∧ Quiet s t [] ∧ t.m.chan x = zMark (s.at cyc).now (g (s.m.chan x)) := by
  obtain ⟨t, ht, hpos, -, hq⟩ := run_onChan (s := s) (cyc := cyc) (x := x) (f := fun m => m.zEdge x)
    ((Mach.zEdge_runs (m := s.at cyc) hruns hfmt).trans (by rw [Mach.zSettle_due (m := s.at cyc) hz hlt, hg, Mach.onChan_onChan]))
  exact ⟨t, ht, hq, chan_of_upd hpos hx⟩

/-! ### SENT (R98) -/

/-- What a good SENT frame makes of its channel. -/
def sentTaken (fmt : Word) (now start cal : Nat) (ns : List Nat) (c : PosChannel) : PosChannel :=
  let n := fmt.bits 11 9
  let status := ns.headD 0
  let bad := decide (status % 4 ≠ 0)
  { c with
    cal := cal, crcRun := 0, timRun := 0, serial := ((status.testBit 2, status.testBit 3) :: c.serial).take 18,
    frames := (ofNibbles ((ns.drop 1).take n) * 2 ^ (32 - 4 * n) / 2 ^ (32 - fmt.bits 16 12) * 2 ^ (32 - fmt.bits 16 12), start) ::
      c.frames.take 1,
    lastGood := now, statusBad := bad, flags := c.flags ||| (if bad then 2 ^ 9 else 0) }

theorem Mach.sentFrame_good {start cal : Nat} {pulses ns : List Nat} (hruns : m.posRuns x 3 = true)
    (hcal : sentCalOk ((m.rd (Reg.POS_CH_FMT x)).bits 8 0) (m.chan x).cal cal = true)
    (hns : sentNibbles ((m.rd (Reg.POS_CH_FMT x)).bits 11 9 + 2) ((m.rd (Reg.POS_CH_FMT x)).bit 18) cal pulses = some ns)
    (hcrc : ns.getLastD 0 = sentCrc ((m.rd (Reg.POS_CH_FMT x)).bit 17) ((ns.drop 1).take ((m.rd (Reg.POS_CH_FMT x)).bits 11 9))) :
    m.sentFrame x start cal pulses =
      (m.onChan x (sentTaken (m.rd (Reg.POS_CH_FMT x)) m.now start cal ns)).slowMessage x ((m.rd (Reg.POS_CH_FMT x)).bit 17) := by
  rw [Mach.sentFrame, if_neg (by rw [hruns]; decide)]
  simp only [hcal, hns, Option.isNone_some, Option.isSome_some, Option.getD_some, hcrc, beq_self_eq_true, Bool.or_true, Bool.and_self,
    if_true, Bool.false_eq_true, if_false, Nat.not_lt_zero, Nat.or_zero, Mach.onChan_onChan]
  rfl

/-- What a SENT frame with a wrong CRC leaves of its channel. -/
def sentWrong (miss : Nat) (timOk : Bool) (cal : Nat) (c : PosChannel) : PosChannel :=
  let tim := if timOk then 0 else c.timRun + 1
  { c with
    cal := cal, crcRun := c.crcRun + 1, timRun := tim, serial := [],
    flags := c.flags ||| (if miss < c.crcRun + 1 then 2 ^ 6 else 0) ||| (if miss < tim then 2 ^ 7 else 0) }

theorem Mach.sentFrame_wrong {start cal : Nat} {pulses ns : List Nat} (hruns : m.posRuns x 3 = true)
    (hns : sentNibbles ((m.rd (Reg.POS_CH_FMT x)).bits 11 9 + 2) ((m.rd (Reg.POS_CH_FMT x)).bit 18) cal pulses = some ns)
    (hcrc : ns.getLastD 0 ≠ sentCrc ((m.rd (Reg.POS_CH_FMT x)).bit 17) ((ns.drop 1).take ((m.rd (Reg.POS_CH_FMT x)).bits 11 9))) :
    ∃ timOk, m.sentFrame x start cal pulses = m.onChan x (sentWrong (m.chanMiss x) timOk cal) := by
  refine ⟨sentCalOk ((m.rd (Reg.POS_CH_FMT x)).bits 8 0) (m.chan x).cal cal, ?_⟩
  rw [Mach.sentFrame, if_neg (by rw [hruns]; decide)]
  simp only [hns, Option.isNone_some, Option.isSome_some, Option.getD_some, beq_eq_false_iff_ne.2 hcrc, Bool.or_false, Bool.and_false,
    Bool.and_true, Bool.false_eq_true, if_false]
  rfl

theorem Mach.slowMessage_waits {legacy : Bool} (h : sentSlow legacy (m.chan x).serial = none) : m.slowMessage x legacy = m := by
  rw [Mach.slowMessage, h]

theorem Mach.slowMessage_enters {legacy : Bool} {w : Word} (h : sentSlow legacy (m.chan x).serial = some w)
    (hfmt : m.bit (Reg.POS_CH_FMT x) 19 = true) (hroom : m.lane.waiting = []) :
    m.slowMessage x legacy =
      (m.onChan x fun c => { c with serial := [] }).wait (m.entryOf m.accTickNow ⟨9, x, 0, 0, w.toNat, []⟩) := by
  rw [Mach.slowMessage, h]
  exact (if_pos hfmt).trans (Mach.accede_roomy (m := m.onChan x fun c => { c with serial := [] }) hroom (hp := by simp [entryBytes]))

theorem testBit_six (a b : Nat) : (a ||| 2 ^ 6 ||| b).testBit 6 = true := by
  rw [Nat.testBit_or, Nat.testBit_or, Nat.testBit_two_pow_self, Bool.or_true, Bool.true_or]

/-! ### SSI (R99) -/

/-- What an SSI read makes of its channel: `bad` is its parity, `v` its position. -/
def ssiTaken (miss now bits v : Nat) (bad stuck : Bool) (c : PosChannel) : PosChannel :=
  let crc := if bad then c.crcRun + 1 else 0
  let st := if stuck then c.stuckRun + 1 else 0
  let c := { c with
    crcRun := crc, stuckRun := st, reading := false,
    flags := c.flags ||| (if miss < crc then 2 ^ 6 else 0) ||| (if miss < st then 2 ^ 10 else 0) }
  if bad || stuck then c
  else { c with frames := (v * 2 ^ (32 - bits) % 2 ^ 32, c.latchAt) :: c.frames.take 1, lastGood := now }

theorem Mach.ssiRead_runs {raw : Nat} {stuck : Bool} (hruns : m.posRuns x 4 = true) (hreading : (m.chan x).reading = true) :
    m.ssiRead x raw stuck = m.onChan x (ssiTaken (m.chanMiss x) m.now ((m.rd (Reg.POS_CH_FMT x)).bits 5 0)
      (let data := (if (m.rd (Reg.POS_CH_FMT x)).bit 7 then raw / 2 else raw) % 2 ^ (m.rd (Reg.POS_CH_FMT x)).bits 5 0
        if (m.rd (Reg.POS_CH_FMT x)).bit 6 then grayValue ((m.rd (Reg.POS_CH_FMT x)).bits 5 0) data else data)
      ((m.rd (Reg.POS_CH_FMT x)).bit 7 && onesIn ((m.rd (Reg.POS_CH_FMT x)).bits 5 0 + 1) raw % 2 == 1) stuck) :=
  if_neg (by rw [hruns, hreading]; decide)

end

/-! ### The clauses -/

section
variable (cyc : Nat) (x : Fin 2) (s : State)

theorem encoder_one_clause (a b : Bool) (hruns : s.m.posRuns x 2 = true) (hz : (s.m.chan x).zDue = none) (ha : (s.m.chan x).levelA ≠ a)
    (hb : (s.m.chan x).levelB = b) (hwin : ∀ w, (s.m.chan x).winCount = some w → w.2 + 100 ≤ (s.at cyc).now)
    (hpast : (s.m.chan x).winCount = none → ∀ w, (s.m.chan x).pastCount = some w → w.2 + 100 ≤ (s.at cyc).now) :
    ∃ t g, exec (.encoderCount cyc x a b) s = .next t ∧ t.m.pos = { s.m.pos with chans := upd s.m.pos.chans x g } ∧ Quiet s t [] ∧
      ∀ c, c.levelA = (s.m.chan x).levelA → c.levelB = b → c.held = false →
        let d : Int := if a = b then -1 else 1
        (g c).r = c.r + d ∧ (g c).levelA = a ∧ (g c).winCount = some ((g c).c, (s.at cyc).now) ∧ (g c).flags = c.flags ∧
        (g c).c = (if decide (0 < d) = c.dirFwd then c.c + d else c.c) ∧ (g c).held = !(decide (0 < d) == c.dirFwd) := by
  have hlast : ∀ t, lastCount ((s.at cyc).chan x) = some t → t + 100 ≤ (s.at cyc).now := by
    intro t ht
    change lastCount (s.m.chan x) = some t at ht
    unfold lastCount at ht
    cases hw : (s.m.chan x).winCount with
    | some w =>
      rw [hw] at ht
      exact Option.some.inj ht ▸ hwin w hw
    | none =>
      cases hp : (s.m.chan x).pastCount with
      | some p =>
        rw [hw, hp] at ht
        exact Option.some.inj ht ▸ hpast hw p hp
      | none =>
        rw [hw, hp] at ht
        cases ht
  obtain ⟨t, ht, hpos, -, hq⟩ := run_onChan (s := s) (cyc := cyc) (x := x) (f := fun m => m.encoder x a b)
    (Mach.encoder_counts (m := s.at cyc) hruns hz (.inl ⟨ha, hb⟩) hlast)
  refine ⟨t, _, ht, hpos, hq, fun c hca hcb hheld => ?_⟩
  have hd : quadDelta c.levelA c.levelB a b = if a = b then -1 else 1 := by
    have hla : c.levelA = !a := hca.trans (Bool.eq_not.2 ha)
    rw [hla, hcb, quadDelta_first]
  obtain ⟨hc, hh⟩ := encoderCount_unheld (d := quadDelta c.levelA c.levelB a b) hheld
  rw [← hd]
  exact ⟨encoderCount_r .., rfl, rfl, encoderCount_flags .., hc, hh⟩

theorem encoder_tooSoon_clause (a b : Bool) (w : Int × Nat) (hruns : s.m.posRuns x 2 = true) (hz : (s.m.chan x).zDue = none)
    (ha : (s.m.chan x).levelA = a) (hb : (s.m.chan x).levelB ≠ b) (hw : (s.m.chan x).winCount = some w) (hsoon : (s.at cyc).now < w.2 + 100) :
    ∃ t g, exec (.encoderCount cyc x a b) s = .next t ∧ t.m.pos = { s.m.pos with chans := upd s.m.pos.chans x g } ∧ Quiet s t [] ∧
      ∀ c, (g c).levelB = b ∧ (g c).winCount = some ((g c).c, (s.at cyc).now) ∧ (g c).flags = c.flags ||| 32 := by
  have hlast : lastCount ((s.at cyc).chan x) = some w.2 := by
    change lastCount (s.m.chan x) = _
    rw [lastCount, hw]
  obtain ⟨t, ht, hpos, -, hq⟩ := run_onChan (s := s) (cyc := cyc) (x := x) (f := fun m => m.encoder x a b)
    (Mach.encoder_tooSoon (m := s.at cyc) hruns hz (.inr ⟨ha, hb⟩) hlast hsoon)
  exact ⟨t, _, ht, hpos, hq, fun c => ⟨rfl, rfl, encoderCount_flags ..⟩⟩

theorem encoder_illegal_clause (a b : Bool) (hruns : s.m.posRuns x 2 = true) (hz : (s.m.chan x).zDue = none) (ha : (s.m.chan x).levelA ≠ a)
    (hb : (s.m.chan x).levelB ≠ b) :
    ∃ t g, exec (.encoderCount cyc x a b) s = .next t ∧ t.m.pos = { s.m.pos with chans := upd s.m.pos.chans x g } ∧ Quiet s t [] ∧
      ∀ c, (g c).c = c.c ∧ (g c).r = c.r ∧ (g c).levelA = a ∧ (g c).levelB = b ∧ (g c).flags = c.flags ||| 8 := by
  obtain ⟨t, ht, hpos, -, hq⟩ := run_onChan (s := s) (cyc := cyc) (x := x) (f := fun m => m.encoder x a b)
    (Mach.encoder_illegal (m := s.at cyc) hruns hz ha hb)
  exact ⟨t, _, ht, hpos, hq, fun c => ⟨rfl, rfl, rfl, rfl, rfl⟩⟩

theorem zEdge_due_clause (hruns : s.m.posRuns x 2 = true) (hfmt : s.m.bit (Reg.POS_CH_FMT x) 14 = true) (hz : (s.m.chan x).zDue = none) :
    ∃ t, exec (.zEdge cyc x) s = .next t ∧ Quiet s t [] ∧
      t.m.pos = { s.m.pos with chans := upd s.m.pos.chans x fun c => { c with zDue := some (s.at cyc).now } } := by
  obtain ⟨t, ht, hpos, -, hq⟩ := run_onChan (s := s) (cyc := cyc) (x := x) (f := fun m => m.zEdge x)
    ((Mach.zEdge_runs (m := s.at cyc) hruns hfmt).trans (by rw [Mach.zSettle_none (m := s.at cyc) hz]))
  exact ⟨t, ht, hq, hpos⟩

theorem sentFrame_wrong_clause (start cal : Nat) (pulses ns : List Nat) (hruns : s.m.posRuns x 3 = true) (hx : x.val < s.m.pos.chans.length)
    (hns : sentNibbles ((s.m.rd (Reg.POS_CH_FMT x)).bits 11 9 + 2) ((s.m.rd (Reg.POS_CH_FMT x)).bit 18) cal pulses = some ns)
    (hcrc : ns.getLastD 0 ≠ sentCrc ((s.m.rd (Reg.POS_CH_FMT x)).bit 17) ((ns.drop 1).take ((s.m.rd (Reg.POS_CH_FMT x)).bits 11 9))) :
    ∃ t, exec (.sentFrame cyc x start cal pulses) s = .next t ∧ t.m.lane = s.m.lane ∧ Quiet s t [] ∧
      (t.m.chan x).frames = (s.m.chan x).frames ∧ (t.m.chan x).crcRun = (s.m.chan x).crcRun + 1 ∧
      (s.m.chanMiss x < (s.m.chan x).crcRun + 1 → (t.m.chan x).flags.testBit 6 = true) := by
  obtain ⟨timOk, hf⟩ := Mach.sentFrame_wrong (m := s.at cyc) (start := start) hruns hns hcrc
  obtain ⟨t, ht, hpos, hlane, hq⟩ := run_onChan (s := s) (cyc := cyc) (x := x) (f := fun m => m.sentFrame x start cal pulses) hf
  have hchan := chan_of_upd hpos hx
  refine ⟨t, ht, hlane, hq, (congrArg PosChannel.frames hchan :), (congrArg PosChannel.crcRun hchan :), fun hmiss => ?_⟩
  rw [hchan]
  change (_ ||| (if s.m.chanMiss x < (s.m.chan x).crcRun + 1 then 2 ^ 6 else 0) ||| _).testBit 6 = true
  rw [if_pos hmiss]
  exact testBit_six ..

theorem sentFrame_good_clause (start cal : Nat) (pulses ns : List Nat) (hruns : s.m.posRuns x 3 = true) (hx : x.val < s.m.pos.chans.length)
    (hcal : sentCalOk ((s.m.rd (Reg.POS_CH_FMT x)).bits 8 0) (s.m.chan x).cal cal = true)
    (hns : sentNibbles ((s.m.rd (Reg.POS_CH_FMT x)).bits 11 9 + 2) ((s.m.rd (Reg.POS_CH_FMT x)).bit 18) cal pulses = some ns)
    (hcrc : ns.getLastD 0 = sentCrc ((s.m.rd (Reg.POS_CH_FMT x)).bit 17) ((ns.drop 1).take ((s.m.rd (Reg.POS_CH_FMT x)).bits 11 9)))
    (hslow : sentSlow ((s.m.rd (Reg.POS_CH_FMT x)).bit 17)
      ((((ns.headD 0).testBit 2, (ns.headD 0).testBit 3) :: (s.m.chan x).serial).take 18) = none) :
    ∃ t, exec (.sentFrame cyc x start cal pulses) s = .next t ∧ t.m.lane = s.m.lane ∧ Quiet s t [] ∧
      t.m.chan x = sentTaken (s.m.rd (Reg.POS_CH_FMT x)) (s.at cyc).now start cal ns (s.m.chan x) := by
  have hgood := Mach.sentFrame_good (m := s.at cyc) (start := start) hruns hcal hns hcrc
  have hserial : (((s.at cyc).onChan x (sentTaken ((s.at cyc).rd (Reg.POS_CH_FMT x)) (s.at cyc).now start cal ns)).chan x).serial =
      (((ns.headD 0).testBit 2, (ns.headD 0).testBit 3) :: (s.m.chan x).serial).take 18 :=
    congrArg PosChannel.serial (Mach.chan_onChan_self (m := s.at cyc) hx _)
  obtain ⟨t, ht, hpos, hlane, hq⟩ := run_onChan (s := s) (cyc := cyc) (x := x) (f := fun m => m.sentFrame x start cal pulses)
    (hgood.trans (Mach.slowMessage_waits (hserial ▸ hslow)))
  exact ⟨t, ht, hlane, hq, chan_of_upd hpos hx⟩

/-- R98: a slow message that is complete goes into accession. -/
theorem sentFrame_slow_clause (start cal : Nat) (pulses ns : List Nat) (w : Word) (hruns : s.m.posRuns x 3 = true) (hroom : s.roomy)
    (hx : x.val < s.m.pos.chans.length)
    (hcal : sentCalOk ((s.m.rd (Reg.POS_CH_FMT x)).bits 8 0) (s.m.chan x).cal cal = true)
    (hns : sentNibbles ((s.m.rd (Reg.POS_CH_FMT x)).bits 11 9 + 2) ((s.m.rd (Reg.POS_CH_FMT x)).bit 18) cal pulses = some ns)
    (hcrc : ns.getLastD 0 = sentCrc ((s.m.rd (Reg.POS_CH_FMT x)).bit 17) ((ns.drop 1).take ((s.m.rd (Reg.POS_CH_FMT x)).bits 11 9)))
    (hfmt : (s.m.rd (Reg.POS_CH_FMT x)).bit 19 = true)
    (hslow : sentSlow ((s.m.rd (Reg.POS_CH_FMT x)).bit 17)
      ((((ns.headD 0).testBit 2, (ns.headD 0).testBit 3) :: (s.m.chan x).serial).take 18) = some w) :
    ∃ t, exec (.sentFrame cyc x start cal pulses) s = .next t ∧ Enters s t cyc ⟨9, x, 0, 0, w.toNat, []⟩ ∧ Quiet s t [] ∧
      (t.m.chan x).serial = [] := by
  have hgood := Mach.sentFrame_good (m := s.at cyc) (start := start) hruns hcal hns hcrc
  have hserial : (((s.at cyc).onChan x (sentTaken ((s.at cyc).rd (Reg.POS_CH_FMT x)) (s.at cyc).now start cal ns)).chan x).serial =
      (((ns.headD 0).testBit 2, (ns.headD 0).testBit 3) :: (s.m.chan x).serial).take 18 :=
    congrArg PosChannel.serial (Mach.chan_onChan_self (m := s.at cyc) hx _)
  have henters := Mach.slowMessage_enters (m := (s.at cyc).onChan x (sentTaken ((s.at cyc).rd (Reg.POS_CH_FMT x)) (s.at cyc).now start cal ns))
    (hserial ▸ hslow) hfmt hroom
  rw [Mach.onChan_onChan] at henters
  obtain ⟨t, ht, hm, hq⟩ := run_quiet (s := s) (cyc := cyc) (regs := []) (f := fun m => m.sentFrame x start cal pulses)
    (hgood.trans henters) (fun b _ => State.at_rd cyc s b) rfl
  refine ⟨t, ht, ?_, hq, ?_⟩
  · change t.m.lane.waiting = _
    rw [hm, Mach.settle_lane]
    exact congrArg (insertEntry ((s.at cyc).entryOf (s.at cyc).accTickNow ⟨9, x, 0, 0, w.toNat, []⟩)) hroom
  · have hpos : t.m.pos = { s.m.pos with
        chans := upd s.m.pos.chans x
          ((fun c => { c with serial := [] }) ∘ sentTaken ((s.at cyc).rd (Reg.POS_CH_FMT x)) (s.at cyc).now start cal ns) } :=
      hm ▸ Mach.settle_pos ..
    rw [chan_of_upd hpos hx]
    rfl

theorem ssiRead_good_clause (data : Nat) (hruns : s.m.posRuns x 4 = true) (hreading : (s.m.chan x).reading = true)
    (hgray : s.m.bit (Reg.POS_CH_FMT x) 6 = false) (hpar : s.m.bit (Reg.POS_CH_FMT x) 7 = false) :
    let n := s.m.fld (Reg.POS_CH_FMT x) 5 0
    ∃ t g, exec (.ssiRead cyc x data false) s = .next t ∧ t.m.pos = { s.m.pos with chans := upd s.m.pos.chans x g } ∧
      Quiet s t [] ∧ ∀ c, (g c).frames = (data % 2 ^ n * 2 ^ (32 - n) % 2 ^ 32, c.latchAt) :: c.frames.take 1 ∧
        (g c).crcRun = 0 ∧ (g c).stuckRun = 0 ∧ (g c).lastGood = (s.at cyc).now ∧ (g c).reading = false := by
  intro n
  have hread := Mach.ssiRead_runs (m := s.at cyc) (raw := data) (stuck := false) hruns hreading
  have h6 : ((s.at cyc).rd (Reg.POS_CH_FMT x)).bit 6 = false := hgray
  have h7 : ((s.at cyc).rd (Reg.POS_CH_FMT x)).bit 7 = false := hpar
  rw [h6, h7] at hread
  obtain ⟨t, ht, hpos, -, hq⟩ := run_onChan (s := s) (cyc := cyc) (x := x) (f := fun m => m.ssiRead x data false) hread
  exact ⟨t, _, ht, hpos, hq, fun c => ⟨rfl, rfl, rfl, rfl, rfl⟩⟩

theorem ssiRead_bad_clause (data : Nat) (stuck : Bool) (hruns : s.m.posRuns x 4 = true) (hreading : (s.m.chan x).reading = true)
    (hpar : s.m.bit (Reg.POS_CH_FMT x) 7 = true) (hodd : onesIn (s.m.fld (Reg.POS_CH_FMT x) 5 0 + 1) data % 2 = 1) :
    ∃ t g, exec (.ssiRead cyc x data stuck) s = .next t ∧ t.m.pos = { s.m.pos with chans := upd s.m.pos.chans x g } ∧
      Quiet s t [] ∧ ∀ c, (g c).frames = c.frames ∧ (g c).crcRun = c.crcRun + 1 ∧
        (s.m.chanMiss x < c.crcRun + 1 → (g c).flags.testBit 6 = true) := by
  have hread := Mach.ssiRead_runs (m := s.at cyc) (raw := data) (stuck := stuck) hruns hreading
  have h7 : ((s.at cyc).rd (Reg.POS_CH_FMT x)).bit 7 = true := hpar
  have hbad : (((s.at cyc).rd (Reg.POS_CH_FMT x)).bit 7 && onesIn (((s.at cyc).rd (Reg.POS_CH_FMT x)).bits 5 0 + 1) data % 2 == 1) = true := by
    rw [h7, Bool.true_and]
    exact beq_iff_eq.2 hodd
  rw [hbad] at hread
  obtain ⟨t, ht, hpos, -, hq⟩ := run_onChan (s := s) (cyc := cyc) (x := x) (f := fun m => m.ssiRead x data stuck) hread
  refine ⟨t, _, ht, hpos, hq, fun c => ⟨rfl, rfl, fun hmiss => ?_⟩⟩
  change (_ ||| (if s.m.chanMiss x < c.crcRun + 1 then 2 ^ 6 else 0) ||| _).testBit 6 = true
  rw [if_pos hmiss]
  exact testBit_six ..

/-- A sensor of another type, and every one in SLEEP, changes nothing. -/
theorem sensor_idle_clause (c : Instr) (ty : Nat) (hidle : s.m.posRuns x ty = false)
    (hc : (∃ theta vel sin cos exc, ty = 1 ∧ c = .resolverUpdate cyc x theta vel sin cos exc) ∨
      (∃ a b, ty = 2 ∧ c = .encoderCount cyc x a b) ∨ (ty = 2 ∧ c = .zEdge cyc x) ∨
      (∃ start cal pulses, ty = 3 ∧ c = .sentFrame cyc x start cal pulses) ∨ (∃ data stuck, ty = 4 ∧ c = .ssiRead cyc x data stuck)) :
    ∃ t, exec c s = .next t ∧ t.m.pos = s.m.pos ∧ t.m.lane = s.m.lane ∧ Quiet s t [] := by
  have hstill : (!(s.at cyc).posRuns x ty) = true := by
    change (!s.m.posRuns x ty) = true
    rw [hidle]
    rfl
  obtain ⟨theta, vel, sin, cos, exc, rfl, rfl⟩ | ⟨a, b, rfl, rfl⟩ | ⟨rfl, rfl⟩ | ⟨start, cal, pulses, rfl, rfl⟩ |
    ⟨data, stuck, rfl, rfl⟩ := hc
  · exact run_pos_idle (f := fun m => m.resolver x theta.toNat vel sin.toInt cos.toInt exc) (if_pos hstill)
  · exact run_pos_idle (f := fun m => m.encoder x a b) (if_pos hstill)
  · exact run_pos_idle (f := fun m => m.zEdge x) (if_pos (by rw [hstill]; rfl))
  · exact run_pos_idle (f := fun m => m.sentFrame x start cal pulses) (if_pos hstill)
  · exact run_pos_idle (f := fun m => m.ssiRead x data stuck) (if_pos (by rw [hstill]; rfl))
end

/-- Settles O16: each sensor's command is one step of its channel, named and described above, and the clauses read off what the step
makes of it. -/
theorem angleSensorsUpdateTheirChannels : Obligations.AngleSensorsUpdateTheirChannels := by
  refine ⟨?_, fun cyc x a b s => encoder_one_clause cyc x s a b, fun cyc x a b s => encoder_tooSoon_clause cyc x s a b,
    fun cyc x a b s => encoder_illegal_clause cyc x s a b, zEdge_due_clause, ?_, ?_, ?_,
    fun cyc x start cal pulses ns s => sentFrame_wrong_clause cyc x s start cal pulses ns,
    fun cyc x start cal pulses ns w s => sentFrame_slow_clause cyc x s start cal pulses ns w,
    fun cyc x data s => ssiRead_good_clause cyc x s data, fun cyc x data stuck s => ssiRead_bad_clause cyc x s data stuck,
    sensor_idle_clause⟩
  · intro cyc x theta vel sin cos exc s hruns lim
    obtain ⟨t, ht, hpos, hq⟩ := exec_resolverUpdate cyc theta vel sin cos exc hruns
    refine ⟨t, _, ht, hpos, hq, fun c => ⟨?_, rfl, rfl, rfl, rfl, rfl⟩,
      fun hlow hhigh herr hexc c => resolverStep_good hlow hhigh herr hexc c, fun h c => resolverStep_lost h c⟩
    exact Nat.mod_eq_of_lt (by have := theta.isLt; omega)
  · intro cyc z x s hruns hfmt hx hz hlt hfirst
    obtain ⟨t, ht, hq, hchan⟩ := exec_zEdge_settles cyc hruns hfmt hx hz hlt (Mach.zCompare_first (m := s.at cyc) hx hfirst)
    exact ⟨t, ht, hq, (congrArg PosChannel.zFirst hchan :), (congrArg PosChannel.flags hchan :)⟩
  · intro cyc z x s p hruns hfmt hx hz hlt hfirst
    obtain ⟨t, ht, hq, hchan⟩ := exec_zEdge_settles cyc hruns hfmt hx hz hlt (Mach.zCompare_later (m := s.at cyc) hx hfirst)
    exact ⟨t, ht, hq, (congrArg PosChannel.zFirst hchan :).trans hfirst, (congrArg PosChannel.flags hchan :)⟩
  · intro cyc x start cal pulses ns s hruns hx fmt n status data hcal hns hcrc hslow
    obtain ⟨t, ht, hlane, hq, hchan⟩ := sentFrame_good_clause cyc x s start cal pulses ns hruns hx hcal hns hcrc hslow
    exact ⟨t, ht, hlane, hq, congrArg PosChannel.frames hchan, congrArg PosChannel.crcRun hchan, congrArg PosChannel.timRun hchan,
      congrArg PosChannel.lastGood hchan, congrArg PosChannel.cal hchan, congrArg PosChannel.statusBad hchan⟩

end Sys2Proof.Machine
end

section
/-! Writes of asynchronous inputs (R302 to R305): where they go, and what they do at their accession tick. -/

namespace Sys2Proof.Machine

section
variable {s : State} {l : Lane}

theorem Mach.route_alone (h : s.alone l) : s.m.route l = .now := by
  obtain ⟨hadm, hpair⟩ := h
  rw [Mach.route, hpair, hadm]
  rfl

theorem Mach.route_active (hpair : s.m.pairedLive = true) (htick : s.m.inTick l = false) (hact : s.m.active = l) : s.m.route l = .now := by
  rw [Mach.route, hpair, htick, hact, beq_self_eq_true]
  rfl

/-- R302: a write that applies at once waits for accession. -/
theorem asyncWrite_enters (hroute : s.m.route l = .now) (hroom : s.roomy) (cyc a : Nat) (v : Word) :
    EntersAccession s cyc l a v (run s cyc fun m => m.asyncWrite l a v) := by
  obtain ⟨t, ht, hwait, hq⟩ := run_accede (cyc := cyc) (f := fun m => m.asyncWrite l a v) (m' := (s.at cyc).noted l a v)
    (Mach.devWrite_now _ a v _ hroute) hroom (by simp [entryBytes]) (Mach.noted_lane ..) (fun b => Mach.noted_rd _ l a v b)
    (by rw [Mach.noted_time]; rfl)
  refine ⟨t, ht, ?_, hq⟩
  rw [Enters, hwait, ((Mach.FocTells.refl (s.at cyc) []).noted l a v).entryOf_eq]

theorem asyncWrite_collected (hpair : s.m.pairedLive = true) (htick : s.m.inTick l = true) (cyc a : Nat) (v : Word) :
    WriteCollected s l a v (run s cyc fun m => m.asyncWrite l a v) :=
  (routedElsewhere_devWrite a v _ s cyc).1 htick (.inl hpair)

theorem asyncWrite_counted (hpair : s.m.pairedLive = true) (htick : s.m.inTick l = false) (hact : s.m.active ≠ l) (cyc a : Nat) (v : Word) :
    WriteCounted s (run s cyc fun m => m.asyncWrite l a v) :=
  (routedElsewhere_devWrite a v _ s cyc).2 htick (.inl ⟨hpair, hact⟩)
end

section
variable {cyc : Nat} {s : State} {P : Nat → Word → Host.Outcome State Fault Refusal → Prop}

/-- What holds of every asynchronous write of a lane holds of each command. -/
theorem eachAsyncWrite_of_lane {l : Lane} (h : ∀ a w, P a w (run s cyc fun m => m.asyncWrite l a w)) (d : Fin 6) (k : Fin 16) (v : Word) :
    EachAsyncWrite cyc (.lane l) d k v s P :=
  ⟨h .., h .., h .., h .., h .., h .., h .., h .., h .., h .., h .., h ..⟩

theorem run_present {f : Mach → Mach} (hunit : hasUnit s.m.variant 3 = true) :
    (run s cyc fun m => if !hasUnit m.variant 3 then m else f m) = run s cyc f := by
  have hf : (if !hasUnit (s.at cyc).variant 3 then s.at cyc else f (s.at cyc)) = f (s.at cyc) := by
    change (if !hasUnit s.m.variant 3 then s.at cyc else f (s.at cyc)) = _
    rw [hunit]
    rfl
  rw [run_next, run_next]
  exact congrArg (fun m : Mach => Host.Outcome.next { s with m := m.settle }) hf

theorem eachChargerWrite_of_lane {l : Lane} (hunit : hasUnit s.m.variant 3 = true)
    (h : ∀ a w, P a w (run s cyc fun m => m.asyncWrite l a w)) (v : Word) : EachChargerWrite cyc (.lane l) v s P := by
  have hw : ∀ a w, P a w (run s cyc fun m => if !hasUnit m.variant 3 then m else m.asyncWrite l a w) := fun a w => by
    rw [run_present hunit]
    exact h a w
  exact ⟨hw .., hw .., hw .., hw .., hw .., hw ..⟩

theorem run_lane_quiet {f : Mach → Mach} (hf : f (s.at cyc) = s.at cyc) :
    ∃ t, run s cyc f = .next t ∧ t.m.lane = s.m.lane ∧ Quiet s t [] := by
  obtain ⟨t, ht, hm, hq⟩ := run_idle hf
  exact ⟨t, ht, hm ▸ Mach.settle_lane .., hq⟩

theorem eachAsyncWrite_safety (d : Fin 6) (k : Fin 16) (v : Word) :
    EachAsyncWrite cyc .safety d k v s fun _ _ o => ∃ t, o = .next t ∧ t.m.lane = s.m.lane ∧ Quiet s t [] :=
  have h := run_lane_quiet (s := s) (cyc := cyc) (f := fun m => m) rfl
  ⟨h, h, h, h, h, h, h, h, h, h, h, h⟩

theorem chgCtrlWrite_absent (hunit : hasUnit s.m.variant 3 = false) (who : Writer) (v : Word) :
    ∃ t, chgCtrlWrite cyc who v s = .next t ∧ t.m.lane = s.m.lane ∧ Quiet s t [] :=
  run_lane_quiet (if_pos (by change (!hasUnit s.m.variant 3) = true; rw [hunit]; rfl))

theorem eachChargerWrite_absent (hunit : hasUnit s.m.variant 3 = false) (who : Writer) (v : Word) :
    EachChargerWrite cyc who v s fun _ _ o => ∃ t, o = .next t ∧ t.m.lane = s.m.lane ∧ Quiet s t [] := by
  have hno : (!hasUnit (s.at cyc).variant 3) = true := by
    change (!hasUnit s.m.variant 3) = true
    rw [hunit]
    rfl
  have hctrl := chgCtrlWrite_absent (cyc := cyc) hunit who
  exact ⟨hctrl _, hctrl _, hctrl _, hctrl _, 
    run_lane_quiet (f := fun m => if !hasUnit m.variant 3 then m else m.laneOnly who fun l m => m.asyncWrite l Reg.CHG_PULSE v) (if_pos hno),
    run_lane_quiet (f := fun m => if !hasUnit m.variant 3 then m else m.laneOnly who fun l m => m.asyncWrite l Reg.CHG_TIMER v) (if_pos hno)⟩

theorem chgCtrlWrite_safety {v : Word} (hv : v.bit 2 = false) :
    ∃ t, chgCtrlWrite cyc .safety v s = .next t ∧ t.m.lane = s.m.lane ∧ Quiet s t [] := by
  refine run_lane_quiet ?_
  dsimp only
  rw [hv]
  exact ite_self _

theorem chgOwn_safety (a : Nat) (v : Word) :
    ∃ t, (run s cyc fun m => if !hasUnit m.variant 3 then m else m.laneOnly .safety fun l m => m.asyncWrite l a v) = .next t ∧
      t.m.lane = s.m.lane ∧ Quiet s t [] :=
  run_lane_quiet (ite_self _)

/-- R262: the safety processor may write STOP. -/
theorem chgStop_safety (hunit : hasUnit s.m.variant 3 = true) (hroom : s.roomy) (v : Word) :
    ∃ t, exec (.chgStop cyc .safety v) s = .next t ∧ Enters s t cyc ⟨1, 0, 3, physical Reg.CHG_CTRL % 2 ^ 32, 4, []⟩ ∧ Quiet s t [] := by
  have hbit : ((v &&& 0xF#32) ||| 4#32).bit 2 = true := by
    have hfour : Nat.testBit 4 2 = true := by decide
    simp [Word.bit, hfour]
  obtain ⟨t, ht, hwait, hq⟩ := run_accede (s := s) (cyc := cyc)
    (f := fun m => if !hasUnit m.variant 3 then m else
      if ((v &&& 0xF#32) ||| 4#32).bit 2 then m.accede ⟨1, 0, 3, physical Reg.CHG_CTRL % 2 ^ 32, 4, []⟩ else m)
    (m' := s.at cyc) (i := ⟨1, 0, 3, physical Reg.CHG_CTRL % 2 ^ 32, 4, []⟩)
    ((if_neg (by change ¬(!hasUnit s.m.variant 3) = true; rw [hunit]; decide)).trans (if_pos hbit)) hroom (by simp [entryBytes]) rfl
    (fun _ => rfl) rfl
  exact ⟨t, ht, hwait, hq⟩
end

/-! ### At the accession tick -/

section
variable {m m' : Mach} {mem : List Host.Cell} {e : JEntry}

theorem Mach.laneEntries_write (h : e.kind = 1) (l : Lane) : m.laneEntries l [e] = m := by
  have hentry : m.laneEntry l e = m := by simp only [Mach.laneEntry, h]
  unfold Mach.laneEntries
  exact iteInduction (motive := fun x : Mach => x = m) (fun _ => hentry) fun _ => rfl

/-- The entry of a write that waits alone and is due takes effect, and nothing waits. -/
theorem Mach.accessionLate_write (hrun : m.tick.running = true) (hw : m.lane.waiting = [e]) (hk : e.kind = 1) (ht : e.accTick ≤ m.seq)
    (heff : (m.dropDue m.seq).devEffect mem e.addr e.origin (BitVec.ofNat 32 e.value) = (m', mem)) : m.accessionLate mem = (m', mem) := by
  have hdue : m.dueEntries m.seq = [e] := by simp [Mach.dueEntries, hw, ht]
  have hentry : (m.dropDue m.seq).deviceEntries mem [e] = (m', mem) := by
    rw [← heff]
    simp only [Mach.deviceEntries, List.foldl_cons, List.foldl_nil, Mach.deviceEntry, hk]
  rw [Mach.accessionLate, hrun, if_neg (by decide), hdue]
  dsimp only
  rw [hentry, Mach.laneEntries_write hk, Mach.laneEntries_write hk]

theorem Mach.dropDue_waiting (hw : m.lane.waiting = [e]) (ht : e.accTick ≤ m.seq) : (m.dropDue m.seq).lane.waiting = [] := by
  change m.lane.waiting.filter (fun e => !decide (e.accTick ≤ m.seq)) = []
  simp [hw, ht]

/-- A write that is an asynchronous input, of a register that the variant has, takes effect by its own rule. -/
theorem Mach.devEffect_async {a origin : Nat} {v : Word} {r : RegRow} {ix : List Nat} (hreg : regAt a = some (r, ix))
    (hthere : absentReg m.variant r ix = false) (hasync : asyncReg a = true) : m.devEffect mem a origin v = (m.asyncEffect a v, mem) := by
  rw [Mach.devEffect, hreg]
  simp only [hthere, hasync, Bool.false_eq_true, if_false, if_true]

theorem Mach.devEffect_lvcCtrl (origin : Nat) (v : Word) :
    m.devEffect mem (physical Reg.LVC_CTRL % 2 ^ 32) origin v = (m.lvcControl v, mem) :=
  Mach.devEffect_async (r := ⟨"LVC_CTRL", 0x90030, [], .always, .ownRow, 0x3, 0x0, 0x0, .value 0x1, "", false⟩) (ix := []) rfl rfl
    (by decide)

theorem Mach.devEffect_chgTimer (hunit : hasUnit m.variant 3 = true) (origin : Nat) (v : Word) :
    m.devEffect mem (physical Reg.CHG_TIMER % 2 ^ 32) origin v = (m.chgTimer v, mem) :=
  Mach.devEffect_async (r := ⟨"CHG_TIMER", 0xA00A0, [], .chg, .ownRow, 0xFFFFFFFF, 0x0, 0x0, .value 0x3840, "", false⟩) (ix := []) rfl
    (by rw [absentReg, hunit]; rfl) (by decide)

theorem Mach.FocTells.dropDue {regs : List Nat} {es : List Event} (h : m.FocTells regs es m') (n : Nat) :
    m.FocTells regs es (m'.dropDue n) := ⟨h.now, h.cyc, h.tick, h.stamp, h.rd, h.raised⟩
end

section
variable {cyc : Nat} {s : State} {e : JEntry} {m : Mach} {regs : List Nat} {es : List Event}

/-- The command by which a waiting write takes its effect, `m`. -/
theorem exec_accessionTakesEffect_write (hrun : s.m.tick.running = true) (hw : s.m.lane.waiting = [e]) (hk : e.kind = 1)
    (ht : e.accTick ≤ s.m.seq)
    (heff : ((s.at cyc).dropDue s.m.seq).devEffect s.mem e.addr e.origin (BitVec.ofNat 32 e.value) = (m, s.mem))
    (htold : (s.at cyc).FocTells regs es m) (hlane : m.lane = ((s.at cyc).dropDue s.m.seq).lane) :
    ∃ t, exec (.accessionTakesEffect cyc) s = .next t ∧ t.m = m.settle ∧ SameRegsBut s t regs ∧ SameMemory s t ∧ Raises s t es ∧
      t.m.lane.waiting = [] := by
  obtain ⟨t, ht', hm, hregs, hmem, hraises⟩ := runMem_makes (f := fun m mem => m.accessionLate mem)
    (Mach.accessionLate_write (m := s.at cyc) hrun hw hk ht heff) htold
  refine ⟨t, ht', hm, hregs, hmem, hraises, ?_⟩
  rw [hm, Mach.settle_lane, hlane]
  exact Mach.dropDue_waiting (m := s.m) hw ht

theorem Mach.lvcControl_clears {v : Word} (hclr : v.bit 1 = true) (hst : m.lvc.state = 7) :
    m.lvcControl v = (m.wr Reg.LVC_CTRL (v &&& 1#32)).lvcEnter 0 := by
  refine if_pos ?_
  rw [Mach.wr_lvc, hclr, hst]
  rfl

theorem Mach.lvcControl_keeps {v : Word} (h : ¬(v.bit 1 = true ∧ m.lvc.state = 7)) :
    m.lvcControl v = m.wr Reg.LVC_CTRL (v &&& 1#32) := by
  refine if_neg ?_
  rwa [Mach.wr_lvc, Bool.and_eq_true, beq_iff_eq]

/-- The machine that leaves LATCHED for OFF raises no edge: neither state bursts. -/
theorem Mach.lvcEnter_off (hst : m.lvc.state = 7) : ∃ g, m.lvcEnter 0 = m.onLvc g ∧ (g m.lvc).state = 0 := by
  unfold Mach.lvcEnter
  extract_lets burst on m₁
  have hm : m₁ = m := if_neg (by rw [hst]; decide)
  rw [hm]
  exact ⟨_, rfl, rfl⟩

theorem accession_lvcCtrl_clause (hrun : s.m.tick.running = true) (hw : s.m.lane.waiting = [e]) (hk : e.kind = 1)
    (ht : e.accTick ≤ s.m.seq) (haddr : e.addr = physical Reg.LVC_CTRL % 2 ^ 32) :
    ∃ t, exec (.accessionTakesEffect cyc) s = .next t ∧ t.m.rd Reg.LVC_CTRL = BitVec.ofNat 32 e.value &&& 1#32 ∧
      (t.m.lvc.state = if e.value.testBit 1 = true ∧ s.m.lvc.state = 7 then 0 else s.m.lvc.state) ∧
      Quiet s t [Reg.LVC_CTRL] ∧ t.m.lane.waiting = [] := by
  have hbit : Word.bit (BitVec.ofNat 32 e.value) 1 = e.value.testBit 1 := by
    rw [Word.bit, BitVec.toNat_ofNat, Nat.testBit_mod_two_pow]
    rfl
  have htold := ((Mach.FocTells.refl (s.at cyc) [Reg.LVC_CTRL]).dropDue s.m.seq).wr (a := Reg.LVC_CTRL) (by simp) (by decide)
    (BitVec.ofNat 32 e.value &&& 1#32)
  have heff : ((s.at cyc).dropDue s.m.seq).devEffect s.mem e.addr e.origin (BitVec.ofNat 32 e.value) = _ :=
    haddr ▸ Mach.devEffect_lvcCtrl ..
  by_cases hclr : e.value.testBit 1 = true ∧ s.m.lvc.state = 7
  · rw [if_pos hclr]
    obtain ⟨g, hg, hgs⟩ := Mach.lvcEnter_off
      (m := ((s.at cyc).dropDue s.m.seq).wr Reg.LVC_CTRL (BitVec.ofNat 32 e.value &&& 1#32)) hclr.2
    rw [Mach.lvcControl_clears (m := (s.at cyc).dropDue s.m.seq) (hbit.trans hclr.1) hclr.2, hg] at heff
    obtain ⟨t, hx, hm, hregs, hmem, hraises, hwait⟩ := exec_accessionTakesEffect_write hrun hw hk ht heff (htold.onLvc g) rfl
    exact ⟨t, hx, hm ▸ (Mach.settle_rd ..).trans (Mach.rd_wr_self ..), hm ▸ (congrArg LvcState.state (Mach.settle_lvc ..)).trans hgs,
      ⟨hregs, hmem, hraises⟩, hwait⟩
  · rw [if_neg hclr]
    rw [Mach.lvcControl_keeps (m := (s.at cyc).dropDue s.m.seq) (by rw [hbit]; exact hclr)] at heff
    obtain ⟨t, hx, hm, hregs, hmem, hraises, hwait⟩ := exec_accessionTakesEffect_write hrun hw hk ht heff htold rfl
    exact ⟨t, hx, hm ▸ (Mach.settle_rd ..).trans (Mach.rd_wr_self ..), hm ▸ congrArg LvcState.state (Mach.settle_lvc ..),
      ⟨hregs, hmem, hraises⟩, hwait⟩

theorem accession_chgTimer_clause (hrun : s.m.tick.running = true) (hw : s.m.lane.waiting = [e]) (hk : e.kind = 1)
    (ht : e.accTick ≤ s.m.seq) (haddr : e.addr = physical Reg.CHG_TIMER % 2 ^ 32) (hunit : hasUnit s.m.variant 3 = true)
    (hlow : 60 ≤ e.value) (hhigh : e.value ≤ 86400) :
    ∃ t, exec (.accessionTakesEffect cyc) s = .next t ∧ t.m.rd Reg.CHG_TIMER = BitVec.ofNat 32 e.value ∧
      Quiet s t [Reg.CHG_TIMER] ∧ t.m.lane.waiting = [] := by
  have hnat : (BitVec.ofNat 32 e.value).toNat = e.value := by rw [BitVec.toNat_ofNat, Nat.mod_eq_of_lt (by omega)]
  have htimer : ((s.at cyc).dropDue s.m.seq).chgTimer (BitVec.ofNat 32 e.value) =
      ((s.at cyc).dropDue s.m.seq).wr Reg.CHG_TIMER (BitVec.ofNat 32 e.value) := if_neg (by rw [hnat]; omega)
  obtain ⟨t, hx, hm, hregs, hmem, hraises, hwait⟩ := exec_accessionTakesEffect_write (cyc := cyc) hrun hw hk ht
    (by rw [haddr, Mach.devEffect_chgTimer (m := (s.at cyc).dropDue s.m.seq) hunit, htimer])
    (((Mach.FocTells.refl (s.at cyc) [Reg.CHG_TIMER]).dropDue s.m.seq).wr (a := Reg.CHG_TIMER) (by simp) (by decide) _) rfl
  exact ⟨t, hx, hm ▸ (Mach.settle_rd ..).trans (Mach.rd_wr_self ..), ⟨hregs, hmem, hraises⟩, hwait⟩

/-- R271: a value out of its range is refused. -/
theorem accession_chgTimer_refused (hrun : s.m.tick.running = true) (hw : s.m.lane.waiting = [e]) (hk : e.kind = 1)
    (ht : e.accTick ≤ s.m.seq) (haddr : e.addr = physical Reg.CHG_TIMER % 2 ^ 32) (hunit : hasUnit s.m.variant 3 = true)
    (hval : e.value < 60 ∨ (86400 < e.value ∧ e.value < 2 ^ 32)) :
    ∃ t, exec (.accessionTakesEffect cyc) s = .next t ∧ Raises s t [eventAt (s.at cyc) 0x280E 0 s.m.dabSlot [] 0] ∧
      SameRegsBut s t [] ∧ SameMemory s t ∧ t.m.lane.waiting = [] := by
  have hnat : (BitVec.ofNat 32 e.value).toNat = e.value := by rw [BitVec.toNat_ofNat, Nat.mod_eq_of_lt (by omega)]
  have htimer : ((s.at cyc).dropDue s.m.seq).chgTimer (BitVec.ofNat 32 e.value) =
      ((s.at cyc).dropDue s.m.seq).raise 0x280E 0 s.m.dabSlot := if_pos (by rw [hnat]; omega)
  obtain ⟨t, hx, hm, hregs, hmem, hraises, hwait⟩ := exec_accessionTakesEffect_write (cyc := cyc) hrun hw hk ht
    (by rw [haddr, Mach.devEffect_chgTimer (m := (s.at cyc).dropDue s.m.seq) hunit, htimer])
    (((Mach.FocTells.refl (s.at cyc) []).dropDue s.m.seq).raise 0x280E 0 s.m.dabSlot [] 0) rfl
  exact ⟨t, hx, hraises, hregs, hmem, hwait⟩
end

/-- Settles O30: where a write goes is R302's routing, the same for every register; what it does at its accession tick is its
register's own rule. -/
theorem asynchronousWritesWaitAndTakeEffect : Obligations.AsynchronousWritesWaitAndTakeEffect := by
  refine ⟨?_, ?_, ?_, ?_, ?_, fun cyc d k v s => eachAsyncWrite_safety d k v, fun cyc v s who hunit => eachChargerWrite_absent hunit who v,
    ?_, fun cyc v s hunit hroom => chgStop_safety hunit hroom v, ?_⟩
  · intro cyc l d k v s halone hroom
    exact eachAsyncWrite_of_lane (asyncWrite_enters (Mach.route_alone halone) hroom cyc) d k v
  · intro cyc l v s halone hroom hunit
    exact eachChargerWrite_of_lane hunit (asyncWrite_enters (Mach.route_alone halone) hroom cyc) v
  · intro cyc l d k v s hpair htick
    have h := asyncWrite_collected hpair htick cyc
    exact ⟨eachAsyncWrite_of_lane h d k v, fun hunit => eachChargerWrite_of_lane hunit h v⟩
  · intro cyc l d k v s hpair htick hact hroom
    have h := asyncWrite_enters (Mach.route_active hpair htick hact) hroom cyc
    exact ⟨eachAsyncWrite_of_lane h d k v, fun hunit => eachChargerWrite_of_lane hunit h v⟩
  · intro cyc l d k v s hpair htick hact
    have h := asyncWrite_counted hpair htick hact cyc
    exact ⟨eachAsyncWrite_of_lane h d k v, fun hunit => eachChargerWrite_of_lane hunit h v⟩
  · intro cyc v s
    have hkeep : ∀ n : Word, n.bit 2 = false → v.bit 2 = false → ((v &&& 0xF#32) ||| n).bit 2 = false := by
      intro n hn hv
      simp only [Word.bit, BitVec.toNat_or, BitVec.toNat_and, Nat.testBit_or, Nat.testBit_and] at hn hv ⊢
      rw [hn, hv]
      rfl
    exact ⟨fun hv => chgCtrlWrite_safety (hkeep _ (by decide) hv), fun hv => chgCtrlWrite_safety (hkeep _ (by decide) hv),
      fun hv => chgCtrlWrite_safety (hkeep _ (by decide) hv), chgOwn_safety .., chgOwn_safety ..⟩
  · intro cyc s e hrun hw hk ht
    exact ⟨accession_lvcCtrl_clause hrun hw hk ht, accession_chgTimer_clause hrun hw hk ht, accession_chgTimer_refused hrun hw hk ht⟩

end Sys2Proof.Machine
end

section
/-! Received frames and the states of the ports (R387 to R389, R394 to R396). -/

namespace Sys2Proof.Machine

section
variable {m m' : Mach} {regs : List Nat} {es : List Event} (h : m.FocTells regs es m')
include h

theorem Mach.FocTells.onNet (g : NetState → NetState) : m.FocTells regs es (m'.onNet g) := ⟨h.now, h.cyc, h.tick, h.stamp, h.rd, h.raised⟩

theorem Mach.FocTells.onOffers (g : List Offer → List Offer) : m.FocTells regs es (m'.onOffers g) :=
  ⟨h.now, h.cyc, h.tick, h.stamp, h.rd, h.raised⟩

theorem Mach.FocTells.netIrq (hirq : Reg.NET_IRQ_STAT ∈ regs) (bit : Nat) : m.FocTells regs es (m'.netIrq bit) :=
  h.orr_of_not_stamp hirq (not_mem_stampRegs_of_lt (by unfold Reg.NET_IRQ_STAT; omega)) _
end

theorem portCnt_not_stamp (p : Nat) : Reg.NET_P_CNT p ∉ stampRegs := not_mem_stampRegs_of_lt (by unfold Reg.NET_P_CNT; omega)

theorem portStat_not_stamp (p : Nat) : Reg.NET_P_STAT p ∉ stampRegs := not_mem_stampRegs_of_lt (by unfold Reg.NET_P_STAT; omega)

theorem netStatus_not_stamp : Reg.NET_STATUS ∉ stampRegs := not_mem_stampRegs_of_lt (by unfold Reg.NET_STATUS; omega)

theorem portStat_ne_status (p : Nat) : Reg.NET_P_STAT p ≠ Reg.NET_STATUS := by unfold Reg.NET_P_STAT Reg.NET_STATUS; omega

theorem portStat_ne_irq (p : Nat) : Reg.NET_P_STAT p ≠ Reg.NET_IRQ_STAT := by unfold Reg.NET_P_STAT Reg.NET_IRQ_STAT; omega

theorem portCnt_ne_irq (p : Nat) : Reg.NET_P_CNT p ≠ Reg.NET_IRQ_STAT := by unfold Reg.NET_P_CNT Reg.NET_IRQ_STAT; omega

theorem Mach.rd_netIrq_other {m : Mach} {b : Nat} (h : b ≠ Reg.NET_IRQ_STAT) (i : Nat) : (m.netIrq i).rd b = m.rd b := by
  rw [Mach.netIrq, Mach.rd_orr, if_neg h]

theorem Mach.fld_netIrq_other {m : Mach} {b : Nat} (h : b ≠ Reg.NET_IRQ_STAT) (i hi lo : Nat) : (m.netIrq i).fld b hi lo = m.fld b hi lo :=
  congrArg (fun w => Word.bits w hi lo) (Mach.rd_netIrq_other h i)

theorem Mach.bit_netIrq_other {m : Mach} {b : Nat} (h : b ≠ Reg.NET_IRQ_STAT) (i j : Nat) : (m.netIrq i).bit b j = m.bit b j :=
  congrArg (fun w => Word.bit w j) (Mach.rd_netIrq_other h i)

/-! ### Reception -/

/-- R389: the rings of the admitted lanes that take the stream of a flow. -/
def Mach.rxOffers (m : Mach) (w0 : Word) (rec_ : List Nat) : List Offer :=
  ([Lane.a, .b].filter fun l => m.admitted l && m.fld (Reg.DMA_R_CFG l.ix (w0.bits 19 16)) 27 25 == 2).map fun l =>
    ⟨l, w0.bits 19 16, 2, rec_⟩

section
variable {m : Mach} {p stamp f : Nat} {k : RxKey} {fdf brs esi : Bool} {pay : List Nat}

theorem Mach.receive_unmatched (h : ∀ x < 64, m.flowMatches p x k = false) :
    m.receive p stamp k fdf brs esi pay = m.incSat (Reg.NET_P_CNT p) 15 0 := by
  have hnone : (List.range 64).find? (fun x => m.flowMatches p x k) = none :=
    List.find?_eq_none.2 fun x hx => by rw [h x (List.mem_range.1 hx)]; decide
  unfold Mach.receive
  simp only [hnone]

section
variable (hf : (List.range 64).find? (fun x => m.flowMatches p x k) = some f)
include hf

theorem Mach.receive_safety (h27 : (m.flow f).bit 27 = true) :
    m.receive p stamp k fdf brs esi pay =
      (m.onNet fun n => { n with safetyInbox := n.safetyInbox ++ [(f, pay)] }).incMod (Reg.NET_P_CNT p) 31 16 := by
  unfold Mach.receive
  simp only [hf]
  exact if_pos h27

variable (h27 : (m.flow f).bit 27 = false)
include h27

theorem Mach.receive_tooLong (h29 : (m.flow f).bit 29 = true) (hlen : 64 < pay.length) :
    m.receive p stamp k fdf brs esi pay = ((m.raise 0x4C03 0).netIrq 1).incSat (Reg.NET_P_CNT p) 15 0 := by
  unfold Mach.receive
  simp only [hf, h27, h29, hlen]
  rfl

theorem Mach.receive_offered (h29 : (m.flow f).bit 29 = false) :
    m.receive p stamp k fdf brs esi pay =
      (m.onOffers fun x => x ++ m.rxOffers (m.flow f) (rxRecord stamp p f k fdf brs esi pay)).incMod (Reg.NET_P_CNT p) 31 16 := by
  unfold Mach.receive
  simp only [hf, h27, h29]
  rfl

theorem Mach.receive_accedes (h29 : (m.flow f).bit 29 = true) (hlen : pay.length ≤ 64) :
    m.receive p stamp k fdf brs esi pay =
      ((m.accedeStamped stamp ⟨5, f, 0, 0, pay.length, pay⟩).onOffers fun x => x ++
        (m.accedeStamped stamp ⟨5, f, 0, 0, pay.length, pay⟩).rxOffers (m.flow f) (rxRecord stamp p f k fdf brs esi pay)).incMod
          (Reg.NET_P_CNT p) 31 16 := by
  unfold Mach.receive
  simp only [hf, h27, h29, Nat.not_lt.2 hlen]
  rfl
end

theorem Mach.accTickNow_stamped : (m.onTime fun t => { t with t := stamp }).accTickNow = m.accTickNow := rfl

theorem Mach.entryOf_stamped (n : Nat) (i : AsyncIn) :
    (m.onTime fun t => { t with t := stamp }).entryOf n i = { m.entryOf n i with time := stamp } := rfl

theorem Mach.wait_stamped (e : JEntry) :
    ((m.onTime fun t => { t with t := stamp }).wait e).onTime (fun t => { t with t := m.time.t }) = m.wait e := rfl

/-- R388: with nothing waiting an entry of at most 64 bytes takes its first tick, with its arrival stamp. -/
theorem Mach.accedeStamped_roomy (hroom : m.lane.waiting = []) (hlen : pay.length ≤ 64) :
    m.accedeStamped stamp ⟨5, f, 0, 0, pay.length, pay⟩ =
      m.wait { m.entryOf m.accTickNow ⟨5, f, 0, 0, pay.length, pay⟩ with time := stamp } := by
  have hbytes : entryBytes pay ≤ 1024 := by unfold entryBytes; omega
  have hwait := Mach.accede_roomy (m := m.onTime fun t => { t with t := stamp }) (i := ⟨5, f, 0, 0, pay.length, pay⟩) hroom hbytes
  rw [Mach.accTickNow_stamped, Mach.entryOf_stamped] at hwait
  calc m.accedeStamped stamp ⟨5, f, 0, 0, pay.length, pay⟩
    _ = ((m.onTime fun t => { t with t := stamp }).accede ⟨5, f, 0, 0, pay.length, pay⟩).onTime fun t => { t with t := m.time.t } := rfl
    _ = m.wait { m.entryOf m.accTickNow ⟨5, f, 0, 0, pay.length, pay⟩ with time := stamp } := by rw [hwait, Mach.wait_stamped]
end

section
variable {s : State} {cyc ago etype id : Nat} {p : Fin 7} {vid : Option Nat} {ide fdf brs esi : Bool} {pay : List Nat}
  {regs : List Nat} {es : List Event} {m : Mach}

/-- A frame that its port takes. -/
theorem exec_frameReceive (hon : s.m.portOn p = true) (hmode : s.m.mode ≠ .sleep) (hmac : s.m.macAccepts p pay = true)
    (hrx : (s.at cyc).receive p ((s.at cyc).now - ago) ⟨etype, vid, ide, id⟩ fdf brs esi pay = m)
    (htold : (s.at cyc).FocTells regs es m) :
    ∃ t, exec (.frameReceive cyc p ago etype vid ide id fdf brs esi pay) s = .next t ∧ t.m = m.settle ∧ SameRegsBut s t regs ∧
      SameMemory s t ∧ Raises s t es := by
  have htakes : ((s.at cyc).portOn p && (s.at cyc).mode != .sleep && (s.at cyc).macAccepts p pay) = true := by
    change (s.m.portOn p && s.m.mode != .sleep && s.m.macAccepts p pay) = true
    rw [hon, hmac, bne_iff_ne.2 hmode]
    rfl
  exact run_makes (f := fun m => if m.portOn p && m.mode != .sleep && m.macAccepts p pay then
    m.receive p (m.now - ago) ⟨etype, vid, ide, id⟩ fdf brs esi pay else m) ((if_pos htakes).trans hrx) htold

theorem exec_frameReceive_ignored (h : s.m.portOn p = false ∨ s.m.mode = .sleep ∨ s.m.macAccepts p pay = false) :
    ∃ t, exec (.frameReceive cyc p ago etype vid ide id fdf brs esi pay) s = .next t ∧ t.m.offers = s.m.offers ∧
      t.m.lane = s.m.lane ∧ t.m.net = s.m.net ∧ Quiet s t [] := by
  have hno : ¬((s.at cyc).portOn p && (s.at cyc).mode != .sleep && (s.at cyc).macAccepts p pay) = true := by
    change ¬(s.m.portOn p && s.m.mode != .sleep && s.m.macAccepts p pay) = true
    rw [Bool.and_eq_true, Bool.and_eq_true, bne_iff_ne]
    rintro ⟨⟨hon, hmode⟩, hmac⟩
    obtain h | h | h := h
    · exact absurd (hon.symm.trans h) (by decide)
    · exact hmode h
    · exact absurd (hmac.symm.trans h) (by decide)
  obtain ⟨t, ht, hm, hq⟩ := run_idle (s := s) (cyc := cyc) (f := fun m => if m.portOn p && m.mode != .sleep && m.macAccepts p pay then
    m.receive p (m.now - ago) ⟨etype, vid, ide, id⟩ fdf brs esi pay else m) (if_neg hno)
  exact ⟨t, ht, hm ▸ Mach.settle_offers .., hm ▸ Mach.settle_lane .., hm ▸ Mach.settle_net .., hq⟩
end

section
variable {s : State} {cyc ago etype id : Nat} {p : Fin 7} {vid : Option Nat} {ide fdf brs esi : Bool} {pay : List Nat}
  (hon : s.m.portOn p = true) (hmode : s.m.mode ≠ .sleep) (hmac : s.m.macAccepts p pay = true)
include hon hmode hmac

theorem frame_unmatched_clause (h : ∀ f < 64, s.m.flowMatches p f ⟨etype, vid, ide, id⟩ = false) :
    ∃ t, exec (.frameReceive cyc p ago etype vid ide id fdf brs esi pay) s = .next t ∧ t.m.offers = s.m.offers ∧
      t.m.lane = s.m.lane ∧ t.m.net = s.m.net ∧
      t.m.fld (Reg.NET_P_CNT p) 15 0 = min (s.m.fld (Reg.NET_P_CNT p) 15 0 + 1) 0xFFFF ∧ Quiet s t [Reg.NET_P_CNT p] := by
  obtain ⟨t, ht, hm, hregs, hmem, hev⟩ := exec_frameReceive (cyc := cyc) hon hmode hmac (Mach.receive_unmatched (m := s.at cyc) h)
    ((Mach.FocTells.refl (s.at cyc) [Reg.NET_P_CNT p]).incSat (by simp) (portCnt_not_stamp p) 15 0)
  exact ⟨t, ht, hm ▸ Mach.settle_offers .., hm ▸ Mach.settle_lane .., hm ▸ Mach.settle_net ..,
    hm ▸ (Mach.settle_fld ..).trans ((s.at cyc).fld_incSat (by decide) (by decide)), hregs, hmem, hev⟩

variable {f : Nat} (hf : (List.range 64).find? (fun x => s.m.flowMatches p x ⟨etype, vid, ide, id⟩) = some f)
include hf

theorem frame_safety_clause (h27 : (s.m.flow f).bit 27 = true) :
    ∃ t, exec (.frameReceive cyc p ago etype vid ide id fdf brs esi pay) s = .next t ∧
      t.m.net.safetyInbox = s.m.net.safetyInbox ++ [(f, pay)] ∧ t.m.lane = s.m.lane ∧ t.m.offers = s.m.offers ∧
      t.m.fld (Reg.NET_P_CNT p) 31 16 = (s.m.fld (Reg.NET_P_CNT p) 31 16 + 1) % 2 ^ 16 ∧ Quiet s t [Reg.NET_P_CNT p] := by
  obtain ⟨t, ht, hm, hregs, hmem, hev⟩ := exec_frameReceive (cyc := cyc) hon hmode hmac (Mach.receive_safety (m := s.at cyc) hf h27)
    (((Mach.FocTells.refl (s.at cyc) [Reg.NET_P_CNT p]).onNet _).wr (a := Reg.NET_P_CNT p) (by simp) (portCnt_not_stamp p) _)
  exact ⟨t, ht, hm ▸ congrArg NetState.safetyInbox (Mach.settle_net ..), hm ▸ Mach.settle_lane .., hm ▸ Mach.settle_offers ..,
    hm ▸ (Mach.settle_fld ..).trans (Mach.fld_setFld _ _ (by decide) (by decide)), hregs, hmem, hev⟩

variable (h27 : (s.m.flow f).bit 27 = false)
include h27

theorem frame_accession_clause (h29 : (s.m.flow f).bit 29 = true) (hlen : pay.length ≤ 64) (hroom : s.roomy) :
    ∃ t, exec (.frameReceive cyc p ago etype vid ide id fdf brs esi pay) s = .next t ∧
      t.m.lane.waiting = [{ (s.at cyc).entryOf (s.at cyc).accTickNow ⟨5, f, 0, 0, pay.length, pay⟩ with time := (s.at cyc).now - ago }] ∧
      t.m.offers = s.m.offers ++ frameOffers s f (rxRecord ((s.at cyc).now - ago) p f ⟨etype, vid, ide, id⟩ fdf brs esi pay) ∧
      t.m.fld (Reg.NET_P_CNT p) 31 16 = (s.m.fld (Reg.NET_P_CNT p) 31 16 + 1) % 2 ^ 16 ∧ Quiet s t [Reg.NET_P_CNT p] := by
  have hrx := Mach.receive_accedes (m := s.at cyc) (p := p) (stamp := (s.at cyc).now - ago) (fdf := fdf) (brs := brs) (esi := esi)
    hf h27 h29 hlen
  rw [Mach.accedeStamped_roomy (m := s.at cyc) hroom hlen] at hrx
  obtain ⟨t, ht, hm, hregs, hmem, hev⟩ := exec_frameReceive hon hmode hmac hrx
    ((((Mach.FocTells.refl (s.at cyc) [Reg.NET_P_CNT p]).wait _).onOffers _).wr (a := Reg.NET_P_CNT p) (by simp) (portCnt_not_stamp p) _)
  refine ⟨t, ht, ?_, hm ▸ Mach.settle_offers .., hm ▸ (Mach.settle_fld ..).trans (Mach.fld_setFld _ _ (by decide) (by decide)), hregs,
    hmem, hev⟩
  rw [hm, Mach.settle_lane]
  exact congrArg (insertEntry _) hroom

theorem frame_tooLong_clause (h29 : (s.m.flow f).bit 29 = true) (hlen : 64 < pay.length) :
    ∃ t, exec (.frameReceive cyc p ago etype vid ide id fdf brs esi pay) s = .next t ∧ t.m.lane = s.m.lane ∧
      t.m.offers = s.m.offers ∧ t.m.net = s.m.net ∧
      t.m.fld (Reg.NET_P_CNT p) 15 0 = min (s.m.fld (Reg.NET_P_CNT p) 15 0 + 1) 0xFFFF ∧
      Raises s t [eventAt (s.at cyc) 0x4C03 0 0xFF [] 0] ∧ SameRegsBut s t [Reg.NET_P_CNT p, Reg.NET_IRQ_STAT] ∧ SameMemory s t := by
  obtain ⟨t, ht, hm, hregs, hmem, hev⟩ := exec_frameReceive (cyc := cyc) hon hmode hmac
    (Mach.receive_tooLong (m := s.at cyc) hf h27 h29 hlen)
    ((((Mach.FocTells.refl (s.at cyc) [Reg.NET_P_CNT p, Reg.NET_IRQ_STAT]).raise 0x4C03 0 0xFF [] 0).netIrq (by simp) 1).incSat
      (a := Reg.NET_P_CNT p) (by simp) (portCnt_not_stamp p) 15 0)
  refine ⟨t, ht, hm ▸ Mach.settle_lane .., hm ▸ Mach.settle_offers .., hm ▸ Mach.settle_net .., ?_, hev, hregs, hmem⟩
  rw [hm, Mach.settle_fld, Mach.fld_incSat _ (by decide) (by decide), Mach.fld_netIrq_other (portCnt_ne_irq p), Mach.raise_fld]
  rfl

theorem frame_offered_clause (h29 : (s.m.flow f).bit 29 = false) :
    ∃ t, exec (.frameReceive cyc p ago etype vid ide id fdf brs esi pay) s = .next t ∧ t.m.lane = s.m.lane ∧
      t.m.offers = s.m.offers ++ frameOffers s f (rxRecord ((s.at cyc).now - ago) p f ⟨etype, vid, ide, id⟩ fdf brs esi pay) ∧
      t.m.net = s.m.net ∧
      t.m.fld (Reg.NET_P_CNT p) 31 16 = (s.m.fld (Reg.NET_P_CNT p) 31 16 + 1) % 2 ^ 16 ∧ Quiet s t [Reg.NET_P_CNT p] := by
  obtain ⟨t, ht, hm, hregs, hmem, hev⟩ := exec_frameReceive (cyc := cyc) hon hmode hmac
    (Mach.receive_offered (m := s.at cyc) hf h27 h29)
    (((Mach.FocTells.refl (s.at cyc) [Reg.NET_P_CNT p]).onOffers _).wr (a := Reg.NET_P_CNT p) (by simp) (portCnt_not_stamp p) _)
  exact ⟨t, ht, hm ▸ Mach.settle_lane .., hm ▸ Mach.settle_offers .., hm ▸ Mach.settle_net ..,
    hm ▸ (Mach.settle_fld ..).trans (Mach.fld_setFld _ _ (by decide) (by decide)), hregs, hmem, hev⟩
end

/-! ### The states of the ports -/

/-- R394: what a link's change leaves in its port's status. -/
def Mach.linkShown (m : Mach) (p : Nat) (up : Bool) : Mach :=
  (m.setBit Reg.NET_STATUS (8 + p) up).setFld (Reg.NET_P_STAT p) 1 0 (if up then 0 else 3)

theorem link_up_down_clause (cyc : Nat) (p : Fin 3) (up : Bool) (s : State) (hon : s.m.portOn p = true) :
    ∃ t, exec (.linkStateChange cyc p up) s = .next t ∧ t.m.bit Reg.NET_STATUS (8 + p) = up ∧
      t.m.fld (Reg.NET_P_STAT p) 1 0 = (if up then 0 else 3) ∧
      Raises s t [if up then eventAt (s.at cyc) 0x4C02 0 0xFF [] 0 else eventAt (s.at cyc) 0x4C01 1 0xFF [p.val] 0] ∧
      t.m.bit Reg.NET_IRQ_STAT 0 = true ∧ SameRegsBut s t [Reg.NET_STATUS, Reg.NET_P_STAT p, Reg.NET_IRQ_STAT] ∧ SameMemory s t := by
  have hp : 8 + p.val < 32 := by omega
  have hno : ¬(!(s.at cyc).portOn p) = true := by
    change ¬(!s.m.portOn p) = true
    rw [hon]
    decide
  have hshown : (s.at cyc).FocTells [Reg.NET_STATUS, Reg.NET_P_STAT p, Reg.NET_IRQ_STAT] [] ((s.at cyc).linkShown p up) :=
    ((Mach.FocTells.refl (s.at cyc) _).wr (a := Reg.NET_STATUS) (by simp) netStatus_not_stamp _).wr (a := Reg.NET_P_STAT p) (by simp)
      (portStat_not_stamp p) _
  have hstatus : ((s.at cyc).linkShown p up).bit Reg.NET_STATUS (8 + p) = up := by
    rw [Mach.linkShown, Mach.bit_setFld_other _ _ (by decide) (by decide) (.inl (portStat_ne_status p).symm), Mach.bit_setBit _ _ hp]
  have hfld : ((s.at cyc).linkShown p up).fld (Reg.NET_P_STAT p) 1 0 = if up then 0 else 3 := by
    rw [Mach.linkShown, Mach.fld_setFld _ _ (by decide) (by decide)]
    cases up <;> rfl
  generalize hw : (s.at cyc).linkShown p up = w at hshown hstatus hfld
  have hend : ∀ (c k : Nat) (d : List Nat) (t : State), t.m = ((w.raise c k 0xFF d).netIrq 0).settle →
      t.m.bit Reg.NET_STATUS (8 + p) = up ∧ t.m.fld (Reg.NET_P_STAT p) 1 0 = (if up then 0 else 3) ∧ t.m.bit Reg.NET_IRQ_STAT 0 = true := by
    intro c k d t hm
    rw [hm, Mach.settle_bit, Mach.settle_fld, Mach.settle_bit, Mach.fld_netIrq_other (portStat_ne_irq p), Mach.raise_fld,
      Mach.bit_netIrq_other (by decide), Mach.raise_bit]
    exact ⟨hstatus, hfld, Mach.bit_orr (i := 0) _ (by decide)⟩
  cases up with
  | true =>
    obtain ⟨t, ht, hm, hregs, hmem, hev⟩ := run_makes (f := fun m => if !m.portOn p then m else
        (if true then (m.linkShown p true).raise 0x4C02 0 else (m.linkShown p true).raise 0x4C01 1 0xFF [p]).netIrq 0)
      (show _ = (w.raise 0x4C02 0).netIrq 0 by rw [← hw]; exact if_neg hno) ((hshown.raise 0x4C02 0 0xFF [] 0).netIrq (by simp) 0)
    obtain ⟨h1, h2, h3⟩ := hend _ _ _ t hm
    exact ⟨t, ht, h1, h2, hev, h3, hregs, hmem⟩
  | false =>
    obtain ⟨t, ht, hm, hregs, hmem, hev⟩ := run_makes (f := fun m => if !m.portOn p then m else
        (if false then (m.linkShown p false).raise 0x4C02 0 else (m.linkShown p false).raise 0x4C01 1 0xFF [p]).netIrq 0)
      (show _ = (w.raise 0x4C01 1 0xFF [p]).netIrq 0 by rw [← hw]; exact if_neg hno)
      ((hshown.raise 0x4C01 1 0xFF [p.val] 0).netIrq (by simp) 0)
    obtain ⟨h1, h2, h3⟩ := hend _ _ _ t hm
    exact ⟨t, ht, h1, h2, hev, h3, hregs, hmem⟩

/-- R394: what a CAN port's change of its error state leaves in its status. -/
def Mach.canShown (m : Mach) (p st tec rec_ : Nat) : Mach :=
  (((m.setFld (Reg.NET_P_STAT p) 31 24 tec).setFld (Reg.NET_P_STAT p) 23 16 rec_).setFld (Reg.NET_P_STAT p) 1 0 st).setBit
    Reg.NET_STATUS (8 + p) (st == 0)

section
variable {m : Mach} {p st tec rec_ : Nat}

theorem Mach.FocTells.canShown {m₀ : Mach} {regs : List Nat} {es : List Event} (h : m₀.FocTells regs es m) (hstatus : Reg.NET_STATUS ∈ regs)
    (hport : Reg.NET_P_STAT p ∈ regs) : m₀.FocTells regs es (m.canShown p st tec rec_) :=
  (((h.wr hport (portStat_not_stamp p) _).wr hport (portStat_not_stamp p) _).wr hport (portStat_not_stamp p) _).wr hstatus
    netStatus_not_stamp _

theorem Mach.canShown_shows (hst : st < 4) (htec : tec < 256) (hrec : rec_ < 256) (hp : 8 + p < 32) :
    (m.canShown p st tec rec_).fld (Reg.NET_P_STAT p) 1 0 = st ∧ (m.canShown p st tec rec_).fld (Reg.NET_P_STAT p) 31 24 = tec ∧
      (m.canShown p st tec rec_).fld (Reg.NET_P_STAT p) 23 16 = rec_ ∧ (m.canShown p st tec rec_).bit Reg.NET_STATUS (8 + p) = (st == 0) := by
  have hne := portStat_ne_status p
  unfold Mach.canShown
  refine ⟨?_, ?_, ?_, Mach.bit_setBit _ _ hp⟩
  · rw [Mach.fld_setBit_other _ _ hp (by decide) (.inl hne), Mach.fld_setFld _ _ (by decide) (by decide)]
    exact Nat.mod_eq_of_lt hst
  · rw [Mach.fld_setBit_other _ _ hp (by decide) (.inl hne), Mach.fld_setFld_other _ _ (by decide) (by decide) (by decide) (.inr (by decide)),
      Mach.fld_setFld_other _ _ (by decide) (by decide) (by decide) (.inr (by decide)), Mach.fld_setFld _ _ (by decide) (by decide)]
    exact Nat.mod_eq_of_lt htec
  · rw [Mach.fld_setBit_other _ _ hp (by decide) (.inl hne), Mach.fld_setFld_other _ _ (by decide) (by decide) (by decide) (.inr (by decide)),
      Mach.fld_setFld _ _ (by decide) (by decide)]
    exact Nat.mod_eq_of_lt hrec
end

/-- R396: what is told of a CAN port's new error state. -/
def Mach.canTold (m : Mach) (st : Nat) : Mach :=
  if st = 1 then (m.raise 0x4C05 1).netIrq 3 else if st = 2 then (m.raise 0x4C06 1).netIrq 3 else m

section
variable {m m' : Mach} {regs : List Nat}

theorem Mach.FocTells.canTold (h : m.FocTells regs [] m') (hirq : Reg.NET_IRQ_STAT ∈ regs) (st : Fin 3) :
    m.FocTells regs (if st = 1 then [eventAt m 0x4C05 1 0xFF [] 0] else if st = 2 then [eventAt m 0x4C06 1 0xFF [] 0] else [])
      (m'.canTold st) := by
  match st with
  | 0 => exact h
  | 1 => exact (h.raise 0x4C05 1 0xFF [] 0).netIrq hirq 3
  | 2 => exact (h.raise 0x4C06 1 0xFF [] 0).netIrq hirq 3

theorem Mach.canTold_rd {b : Nat} (h : b ≠ Reg.NET_IRQ_STAT) (st : Nat) : (m.canTold st).rd b = m.rd b := by
  unfold Mach.canTold
  exact iteInduction (motive := fun x : Mach => x.rd b = m.rd b) (fun _ => (Mach.rd_netIrq_other h 3).trans (Mach.raise_rd ..)) fun _ =>
    iteInduction (motive := fun x : Mach => x.rd b = m.rd b) (fun _ => (Mach.rd_netIrq_other h 3).trans (Mach.raise_rd ..)) fun _ => rfl
end

theorem can_state_clause (cyc : Nat) (c : Fin 4) (st : Fin 3) (tec rec_ : BitVec 8) (s : State) (hon : s.m.portOn (3 + c.val) = true) :
    ∃ t, exec (.canErrorStateChange cyc c st tec rec_) s = .next t ∧ t.m.fld (Reg.NET_P_STAT (3 + c.val)) 1 0 = st ∧
      t.m.fld (Reg.NET_P_STAT (3 + c.val)) 31 24 = tec.toNat ∧ t.m.fld (Reg.NET_P_STAT (3 + c.val)) 23 16 = rec_.toNat ∧
      t.m.bit Reg.NET_STATUS (8 + (3 + c.val)) = (st == 0) ∧
      Raises s t (if st = 1 then [eventAt (s.at cyc) 0x4C05 1 0xFF [] 0]
        else if st = 2 then [eventAt (s.at cyc) 0x4C06 1 0xFF [] 0] else []) ∧
      SameRegsBut s t [Reg.NET_STATUS, Reg.NET_P_STAT (3 + c.val), Reg.NET_IRQ_STAT] ∧ SameMemory s t := by
  have hno : ¬(!(s.at cyc).portOn (3 + c.val)) = true := by
    change ¬(!s.m.portOn (3 + c.val)) = true
    rw [hon]
    decide
  have htold := ((Mach.FocTells.refl (s.at cyc) [Reg.NET_STATUS, Reg.NET_P_STAT (3 + c.val), Reg.NET_IRQ_STAT]).canShown
    (p := 3 + c.val) (st := st) (tec := tec.toNat) (rec_ := rec_.toNat) (by simp) (by simp)).canTold (by simp) st
  obtain ⟨h1, h2, h3, h4⟩ := Mach.canShown_shows (m := s.at cyc) (p := 3 + c.val) (st := st) (tec := tec.toNat) (rec_ := rec_.toNat)
    (by omega) tec.isLt rec_.isLt (by omega)
  have hmakes : (if !(s.at cyc).portOn (3 + c.val) then s.at cyc else
      ((s.at cyc).canShown (3 + c.val) st tec.toNat rec_.toNat).canTold st) = _ := if_neg hno
  generalize hw : (s.at cyc).canShown (3 + c.val) st tec.toNat rec_.toNat = w at htold h1 h2 h3 h4 hmakes
  rw [← hw] at hmakes
  obtain ⟨t, ht, hm, hregs, hmem, hev⟩ := run_makes (f := fun m => if !m.portOn (3 + c.val) then m else
    (m.canShown (3 + c.val) st tec.toNat rec_.toNat).canTold st) (hmakes.trans (by rw [hw])) htold
  have hfld : ∀ hi lo, t.m.fld (Reg.NET_P_STAT (3 + c.val)) hi lo = w.fld (Reg.NET_P_STAT (3 + c.val)) hi lo := fun hi lo => by
    rw [hm, Mach.settle_fld]
    exact congrArg (fun r => Word.bits r hi lo) (Mach.canTold_rd (portStat_ne_irq _) st)
  refine ⟨t, ht, (hfld ..).trans h1, (hfld ..).trans h2, (hfld ..).trans h3, ?_, hev, hregs, hmem⟩
  rw [hm, Mach.settle_bit]
  refine (congrArg (fun r => Word.bit r (8 + (3 + c.val))) (Mach.canTold_rd (by decide) st)).trans (h4.trans ?_)
  match st with
  | 0 => rfl
  | 1 => rfl
  | 2 => rfl

theorem plca_clause (cyc : Nat) (s : State) (hon : s.m.portOn 2 = true) (hplca : s.m.bit (Reg.NET_P_CFG 2) 27 = true) :
    ∃ t, exec (.plcaBeaconLost cyc) s = .next t ∧ Raises s t [eventAt (s.at cyc) 0x4C08 1 0xFF [] 0] ∧
      t.m.bit Reg.NET_IRQ_STAT 5 = true ∧ SameRegsBut s t [Reg.NET_IRQ_STAT] ∧ SameMemory s t := by
  have hyes : ((s.at cyc).portOn 2 && (s.at cyc).bit (Reg.NET_P_CFG 2) 27) = true := by
    change (s.m.portOn 2 && s.m.bit (Reg.NET_P_CFG 2) 27) = true
    rw [hon, hplca]
    rfl
  obtain ⟨t, ht, hm, hregs, hmem, hev⟩ := run_makes (s := s)
    (f := fun m => if m.portOn 2 && m.bit (Reg.NET_P_CFG 2) 27 then (m.raise 0x4C08 1).netIrq 5 else m) (if_pos hyes)
    (((Mach.FocTells.refl (s.at cyc) [Reg.NET_IRQ_STAT]).raise 0x4C08 1 0xFF [] 0).netIrq (by simp) 5)
  exact ⟨t, ht, hev, hm ▸ (Mach.settle_bit ..).trans (Mach.bit_orr (i := 5) _ (by decide)), hregs, hmem⟩

/-- A port that is off tells nothing. -/
theorem run_portOff {f : Mach → Mach} {s : State} {cyc : Nat} (hf : f (s.at cyc) = s.at cyc) : ∃ t, run s cyc f = .next t ∧ Quiet s t [] := by
  obtain ⟨t, ht, -, hq⟩ := run_idle hf
  exact ⟨t, ht, hq⟩

/-- Settles O40: a frame by the flow that takes it, and each port's change by whether the port is on. -/
theorem receivedFramesAndPortStates : Obligations.ReceivedFramesAndPortStates := by
  refine ⟨?_, fun cyc p ago etype vid ide id fdf brs esi pay s h => exec_frameReceive_ignored h, ?_, ?_, ?_⟩
  · intro cyc p ago etype vid ide id fdf brs esi pay s hon hmode hmac
    refine ⟨frame_unmatched_clause hon hmode hmac, fun f hf => ?_⟩
    intro offered
    exact ⟨frame_safety_clause hon hmode hmac hf, frame_accession_clause hon hmode hmac hf, frame_tooLong_clause hon hmode hmac hf,
      frame_offered_clause hon hmode hmac hf⟩
  · intro cyc p up s
    refine ⟨link_up_down_clause cyc p up s, fun hoff => run_portOff (f := fun m => if !m.portOn p then m else
      (if up then (m.linkShown p up).raise 0x4C02 0 else (m.linkShown p up).raise 0x4C01 1 0xFF [p]).netIrq 0) (if_pos ?_)⟩
    change (!s.m.portOn p) = true
    rw [hoff]
    rfl
  · intro cyc c st tec rec_ s
    refine ⟨can_state_clause cyc c st tec rec_ s, fun hoff => run_portOff (f := fun m => if !m.portOn (3 + c.val) then m else
      (m.canShown (3 + c.val) st tec.toNat rec_.toNat).canTold st) (if_pos ?_)⟩
    change (!s.m.portOn (3 + c.val)) = true
    rw [hoff]
    rfl
  · intro cyc s
    refine ⟨plca_clause cyc s, fun hoff => run_portOff (if_neg ?_)⟩
    change ¬(s.m.portOn 2 && s.m.bit (Reg.NET_P_CFG 2) 27) = true
    obtain h | h := hoff <;> rw [h] <;> simp

end Sys2Proof.Machine
end

section
/-! Outgoing messages: the Sieve, the ports and the transmit stamps (R317, R390, R394). -/

namespace Sys2Proof.Machine

/-! ### The queue of a port (R390) -/

section
variable {m : Mach} {x : TxMsg}

theorem Mach.netQueue_room (h : (m.port (m.flowPort x.flow)).queue.length < 32) :
    m.netQueue x = m.onNet fun n => { n with ports := upd n.ports (m.flowPort x.flow) fun q => { q with queue := q.queue ++ [x] } } :=
  if_pos h

theorem Mach.netQueue_full (h : ¬(m.port (m.flowPort x.flow)).queue.length < 32) : m.netQueue x = (m.raise 0x4C04 0).netIrq 4 := if_neg h

/-- A message into a queue touches nothing else of the ports' state, and of the registers at most the interrupt status. -/
theorem Mach.netQueue_keeps : ∃ ports, (m.netQueue x).net = { m.net with ports := ports } ∧ (m.netQueue x).lane = m.lane ∧
    ∀ b, b ≠ Reg.NET_IRQ_STAT → (m.netQueue x).rd b = m.rd b := by
  by_cases h : (m.port (m.flowPort x.flow)).queue.length < 32
  · rw [Mach.netQueue_room h]
    exact ⟨_, rfl, rfl, fun b _ => rfl⟩
  · rw [Mach.netQueue_full h]
    exact ⟨_, rfl, rfl, fun b hb => (Mach.rd_netIrq_other hb 4).trans (Mach.raise_rd ..)⟩

theorem Mach.netQueue_copies : (m.netQueue x).net.copies = m.net.copies := by
  obtain ⟨ports, hnet, -⟩ := Mach.netQueue_keeps (m := m) (x := x)
  rw [hnet]

theorem Mach.netQueue_held : (m.netQueue x).net.held = m.net.held := by
  obtain ⟨ports, hnet, -⟩ := Mach.netQueue_keeps (m := m) (x := x)
  rw [hnet]

theorem Mach.netQueue_lane : (m.netQueue x).lane = m.lane := by
  obtain ⟨ports, -, hlane, -⟩ := Mach.netQueue_keeps (m := m) (x := x)
  exact hlane

theorem Mach.netQueue_rd {b : Nat} (hb : b ≠ Reg.NET_IRQ_STAT) : (m.netQueue x).rd b = m.rd b := by
  obtain ⟨ports, -, -, hrd⟩ := Mach.netQueue_keeps (m := m) (x := x)
  exact hrd b hb
end

section
variable {s : State} {cyc : Nat} {x : TxMsg} {f g : Mach → Mach} {m₁ : Mach} {regs : List Nat}

/-- A command that puts a message into its port's queue, among steps that leave the ports alone. -/
theorem run_queues (hf : f (s.at cyc) = g (m₁.netQueue x)) (hports : m₁.net.ports = s.m.net.ports)
    (hport : m₁.flowPort x.flow = s.m.flowPort x.flow) (h₁ : ∀ regs', regs ⊆ regs' → (s.at cyc).FocTells regs' [] m₁)
    (hg : ∀ regs' es m, regs ⊆ regs' → (s.at cyc).FocTells regs' es m → (s.at cyc).FocTells regs' es (g m))
    (hgports : ∀ m, (g m).net.ports = m.net.ports) :
    ∃ t, run s cyc f = .next t ∧ t.m = (g (m₁.netQueue x)).settle ∧ Queued s t cyc x regs := by
  have hqueue : (m₁.port (m₁.flowPort x.flow)).queue = (s.m.port (s.m.flowPort x.flow)).queue := by
    rw [hport, Mach.port, hports, Mach.port]
  by_cases h : (s.m.port (s.m.flowPort x.flow)).queue.length < 32
  · have hroom := Mach.netQueue_room (m := m₁) (x := x) (by rwa [hqueue])
    obtain ⟨t, ht, hm, hregs, hmem, hev⟩ := run_makes hf (hg regs [] _ (List.Subset.refl _) (hroom ▸ (h₁ regs (List.Subset.refl _)).onNet _))
    refine ⟨t, ht, hm, ?_⟩
    unfold Queued
    rw [if_pos h]
    refine ⟨?_, hregs, hmem, hev⟩
    rw [hm, Mach.settle_net, hgports, hroom]
    change upd m₁.net.ports _ _ = _
    rw [hports, hport]
  · have hfull := Mach.netQueue_full (m := m₁) (x := x) (by rwa [hqueue])
    obtain ⟨t, ht, hm, hregs, hmem, hev⟩ := run_makes hf (hg (Reg.NET_IRQ_STAT :: regs) _ _ (List.subset_cons_self ..)
      (hfull ▸ ((h₁ _ (List.subset_cons_self ..)).raise 0x4C04 0 0xFF [] 0).netIrq List.mem_cons_self 4))
    refine ⟨t, ht, hm, ?_⟩
    unfold Queued
    rw [if_neg h]
    refine ⟨?_, hev, hregs, hmem⟩
    rw [hm, Mach.settle_net, hgports, hfull]
    exact hports
end

/-! ### The Sieve (R317) -/

section
variable {m : Mach} {l : Lane} {x : TxMsg} {h : HeldMsg}

theorem Mach.sieveMessage_barred (hadm : m.admitted l = false) : m.sieveMessage l x = m := if_pos (by rw [hadm]; rfl)

section
variable (hadm : m.admitted l = true)
include hadm

theorem Mach.sieveMessage_alone (hpair : m.pairJudged = false) : m.sieveMessage l x = m.netQueue x :=
  (if_neg (by rw [hadm]; decide)).trans (if_pos (by rw [hpair]; rfl))

variable (hpair : m.pairJudged = true)
include hpair

theorem Mach.sieveMessage_second (hheld : (m.net.held.find? fun h => h.msg.sameKey x && h.lane != l) = some h) :
    m.sieveMessage l x =
      if h.msg.data = x.data then
        (if h.sent then m.onNet fun n => { n with held := n.held.filter fun y => !(y.msg.sameKey x) }
          else (m.onNet fun n => { n with held := n.held.filter fun y => !(y.msg.sameKey x) }).netQueue x).incMod Reg.LANE_NETSTAT 31 16
      else (m.onNet fun n => { n with held := n.held ++ [⟨x, l, h.sent⟩] }).dispute .message := by
  rw [Mach.sieveMessage, if_neg (by rw [hadm]; decide), if_neg (by rw [hpair]; decide), hheld]

theorem Mach.sieveMessage_first (hheld : (m.net.held.find? fun h => h.msg.sameKey x && h.lane != l) = none) :
    m.sieveMessage l x = (if (m.flow x.flow).bit 28 then m else m.netQueue x).onNet fun n =>
      { n with held := n.held ++ [⟨x, l, !(m.flow x.flow).bit 28⟩] } := by
  rw [Mach.sieveMessage, if_neg (by rw [hadm]; decide), if_neg (by rw [hpair]; decide), hheld]
  cases (m.flow x.flow).bit 28 <;> rfl
end
end

/-- The copy leaves its way to the Sieve. -/
def Mach.copyTaken (m : Mach) (l : Lane) (x : TxMsg) : Mach := m.onNet fun n => { n with copies := n.copies.erase (l, x) }

def sieveStep (l : Lane) (m : Mach) : Mach :=
  match m.net.copies.find? fun c => c.1 == l with
  | some c => ((m.onNet fun n => { n with copies := n.copies.erase c })).sieveMessage l c.2
  | none => m

section
variable {s : State} {cyc : Nat} {l : Lane} {x : TxMsg}

theorem sieveStep_none (h : (s.m.net.copies.find? fun c => c.1 == l) = none) : sieveStep l (s.at cyc) = s.at cyc := by
  have hat : ((s.at cyc).net.copies.find? fun c => c.1 == l) = none := h
  rw [sieveStep, hat]

variable (hcopy : (s.m.net.copies.find? fun c => c.1 == l) = some (l, x))
include hcopy

theorem sieveStep_some : sieveStep l (s.at cyc) = ((s.at cyc).copyTaken l x).sieveMessage l x := by
  have hat : ((s.at cyc).net.copies.find? fun c => c.1 == l) = some (l, x) := hcopy
  rw [sieveStep, hat]
  rfl

theorem sieve_barred_clause (hadm : s.m.admitted l = false) :
    ∃ t, exec (.outgoingMessageSieve cyc l) s = .next t ∧ t.m.net = { s.m.net with copies := s.m.net.copies.erase (l, x) } ∧
      t.m.lane = s.m.lane ∧ Quiet s t [] := by
  obtain ⟨t, ht, hm, hq⟩ := run_quiet (f := sieveStep l) (regs := []) ((sieveStep_some (cyc := cyc) hcopy).trans
    (Mach.sieveMessage_barred (m := (s.at cyc).copyTaken l x) hadm)) (fun b _ => State.at_rd cyc s b) rfl
  exact ⟨t, ht, hm ▸ Mach.settle_net .., hm ▸ Mach.settle_lane .., hq⟩

theorem sieve_alone_clause (hadm : s.m.admitted l = true) (hpair : s.m.pairJudged = false) :
    ∃ t, exec (.outgoingMessageSieve cyc l) s = .next t ∧ t.m.net.copies = s.m.net.copies.erase (l, x) ∧
      t.m.net.held = s.m.net.held ∧ Queued s t cyc x [] := by
  obtain ⟨t, ht, hm, hq⟩ := run_queues (f := sieveStep l) (g := fun m => m) (m₁ := (s.at cyc).copyTaken l x) (regs := [])
    ((sieveStep_some hcopy).trans (Mach.sieveMessage_alone (m := (s.at cyc).copyTaken l x) hadm hpair)) rfl rfl
    (fun regs _ => (Mach.FocTells.refl (s.at cyc) regs).onNet _) (fun _ _ _ _ h => h) fun _ => rfl
  exact ⟨t, ht, by rw [hm, Mach.settle_net, Mach.netQueue_copies]; rfl, by rw [hm, Mach.settle_net, Mach.netQueue_held]; rfl, hq⟩

section
variable (hadm : s.m.admitted l = true) (hpair : s.m.pairJudged = true)
include hadm hpair

theorem sieve_first_clause (hheld : (s.m.net.held.find? fun h => h.msg.sameKey x && h.lane != l) = none) :
    ∃ t, exec (.outgoingMessageSieve cyc l) s = .next t ∧ t.m.net.copies = s.m.net.copies.erase (l, x) ∧
      t.m.net.held = s.m.net.held ++ [⟨x, l, !(s.m.flow x.flow).bit 28⟩] ∧ t.m.lane.disputes = s.m.lane.disputes ∧
      (if (s.m.flow x.flow).bit 28 then t.m.net.ports = s.m.net.ports ∧ Quiet s t [] else Queued s t cyc x []) := by
  have hstep := (sieveStep_some (cyc := cyc) hcopy).trans (Mach.sieveMessage_first (m := (s.at cyc).copyTaken l x) hadm hpair hheld)
  have hflow : ((s.at cyc).copyTaken l x).flow x.flow = s.m.flow x.flow := rfl
  rw [hflow] at hstep
  cases hlate : (s.m.flow x.flow).bit 28 with
  | true =>
    rw [hlate] at hstep
    obtain ⟨t, ht, hm, hq⟩ := run_quiet (f := sieveStep l) (regs := []) hstep (fun b _ => State.at_rd cyc s b) rfl
    exact ⟨t, ht, hm ▸ congrArg NetState.copies (Mach.settle_net ..), hm ▸ congrArg NetState.held (Mach.settle_net ..),
      hm ▸ congrArg LaneBlock.disputes (Mach.settle_lane ..), by rw [hm, Mach.settle_net]; rfl, hq⟩
  | false =>
    rw [hlate] at hstep
    obtain ⟨t, ht, hm, hq⟩ := run_queues (f := sieveStep l) (x := x) (g := fun m => m.onNet fun n => { n with held := n.held ++ [⟨x, l, true⟩] })
      (m₁ := (s.at cyc).copyTaken l x) (regs := []) hstep rfl rfl
      (fun regs _ => (Mach.FocTells.refl (s.at cyc) regs).onNet _) (fun _ _ _ _ h => h.onNet _) fun _ => rfl
    refine ⟨t, ht, ?_, ?_, ?_, hq⟩
    · rw [hm, Mach.settle_net, Mach.onNet_net, Mach.netQueue_copies]
      rfl
    · rw [hm, Mach.settle_net, Mach.onNet_net, Mach.netQueue_held]
      rfl
    · rw [hm, Mach.settle_lane, Mach.onNet_lane, Mach.netQueue_lane]
      rfl

variable {h : HeldMsg} (hheld : (s.m.net.held.find? fun h => h.msg.sameKey x && h.lane != l) = some h)
include hheld

theorem sieve_differs_clause (hdata : h.msg.data ≠ x.data) :
    ∃ t, exec (.outgoingMessageSieve cyc l) s = .next t ∧ t.m.net.copies = s.m.net.copies.erase (l, x) ∧
      t.m.net.held = s.m.net.held ++ [⟨x, l, h.sent⟩] ∧ t.m.net.ports = s.m.net.ports ∧
      t.m.lane.disputes = s.m.lane.disputes ++ [.message] ∧ Quiet s t [] := by
  obtain ⟨t, ht, hm, hq⟩ := run_quiet (f := sieveStep l) (regs := []) ((sieveStep_some (cyc := cyc) hcopy).trans
    ((Mach.sieveMessage_second (m := (s.at cyc).copyTaken l x) hadm hpair hheld).trans (if_neg hdata)))
    (fun b _ => State.at_rd cyc s b) rfl
  exact ⟨t, ht, hm ▸ congrArg NetState.copies (Mach.settle_net ..), hm ▸ congrArg NetState.held (Mach.settle_net ..),
    by rw [hm, Mach.settle_net]; rfl, hm ▸ congrArg LaneBlock.disputes (Mach.settle_lane ..), hq⟩

theorem sieve_equal_clause (hdata : h.msg.data = x.data) :
    ∃ t, exec (.outgoingMessageSieve cyc l) s = .next t ∧ t.m.net.copies = s.m.net.copies.erase (l, x) ∧
      t.m.net.held = s.m.net.held.filter (fun y => !(y.msg.sameKey x)) ∧
      t.m.fld Reg.LANE_NETSTAT 31 16 = (s.m.fld Reg.LANE_NETSTAT 31 16 + 1) % 2 ^ 16 ∧
      (if h.sent then t.m.net.ports = s.m.net.ports ∧ Quiet s t [Reg.LANE_NETSTAT] else Queued s t cyc x [Reg.LANE_NETSTAT]) := by
  have hstep := (sieveStep_some (cyc := cyc) hcopy).trans
    ((Mach.sieveMessage_second (m := (s.at cyc).copyTaken l x) hadm hpair hheld).trans (if_pos hdata))
  have hstat : Reg.LANE_NETSTAT ∉ stampRegs := by decide
  cases hsent : h.sent with
  | true =>
    rw [hsent] at hstep
    obtain ⟨t, ht, hm, hregs, hmem, hev⟩ := run_makes (f := sieveStep l) hstep
      (((((Mach.FocTells.refl (s.at cyc) [Reg.LANE_NETSTAT]).onNet _).onNet _)).wr (a := Reg.LANE_NETSTAT) (by simp) hstat _)
    exact ⟨t, ht, hm ▸ congrArg NetState.copies (Mach.settle_net ..), hm ▸ congrArg NetState.held (Mach.settle_net ..),
      hm ▸ (Mach.settle_fld ..).trans (Mach.fld_setFld _ _ (by decide) (by decide)),
      by rw [hm, Mach.settle_net]; rfl, hregs, hmem, hev⟩
  | false =>
    rw [hsent] at hstep
    obtain ⟨t, ht, hm, hq⟩ := run_queues (f := sieveStep l) (x := x) (g := fun m => m.incMod Reg.LANE_NETSTAT 31 16)
      (m₁ := ((s.at cyc).copyTaken l x).onNet fun n => { n with held := n.held.filter fun y => !(y.msg.sameKey x) })
      (regs := [Reg.LANE_NETSTAT]) hstep rfl rfl (fun regs _ => ((Mach.FocTells.refl (s.at cyc) regs).onNet _).onNet _)
      (fun _ _ _ hsub h => h.wr (hsub (by simp)) hstat _) fun _ => rfl
    refine ⟨t, ht, ?_, ?_, ?_, hq⟩
    · rw [hm, Mach.settle_net]
      exact Mach.netQueue_copies
    · rw [hm, Mach.settle_net]
      exact Mach.netQueue_held
    · rw [hm, Mach.settle_fld, Mach.incMod, Mach.fld_setFld _ _ (by decide) (by decide), Mach.fld, Mach.netQueue_rd (by decide)]
      rfl
end
end

/-! ### The command of a lane (R390) -/

section
variable {m : Mach} {l : Lane} {v : Word}

theorem Mach.txCommand_none (hv : v.bit 31 = false) : m.txCommand l v = m := if_pos (by rw [hv]; rfl)

section
variable (hv : v.bit 31 = true)
include hv

theorem Mach.txCommand_long (hlen : 64 < v.bits 6 0) : m.txCommand l v = m.badValue (.lane l) (Reg.NET_L_TXCMD l.ix) :=
  (if_neg (by rw [hv]; decide)).trans (if_pos hlen)

variable (hlen : v.bits 6 0 ≤ 64)
include hlen

theorem Mach.txCommand_refused (h : m.inTick l = false ∨ 4 ≤ m.fld (Reg.NET_L_TXSTAT l.ix) 2 0 ∨ m.txFlow (v.bits 12 7) = false) :
    m.txCommand l v = m.txRefused l := by
  have hbad : (!m.inTick l || decide (4 ≤ m.fld (Reg.NET_L_TXSTAT l.ix) 2 0) || !m.txFlow (v.bits 12 7)) = true := by
    rw [Bool.or_eq_true, Bool.or_eq_true, decide_eq_true_iff, Bool.not_eq_true', Bool.not_eq_true', or_assoc]
    exact h
  exact (if_neg (by rw [hv]; decide)).trans ((if_neg (Nat.not_lt.2 hlen)).trans (if_pos hbad))

/-- The slot's message, on its way to the Sieve. -/
def Mach.txMessage (m : Mach) (l : Lane) (v : Word) : TxMsg :=
  ⟨v.bits 12 7, m.txSlot l (v.bits 14 13) (v.bits 6 0), m.seq, m.fld (Reg.NET_L_TXSTAT l.ix) 2 0⟩

theorem Mach.txCommand_taken (htick : m.inTick l = true) (hused : m.fld (Reg.NET_L_TXSTAT l.ix) 2 0 < 4)
    (hflow : m.txFlow (v.bits 12 7) = true) :
    m.txCommand l v = ((m.setFld (Reg.NET_L_TXSTAT l.ix) 2 0 (m.fld (Reg.NET_L_TXSTAT l.ix) 2 0 + 1)).onLane l
      fun s => { s with msgs := s.msgs ++ [m.txMessage l v] }).onNet fun n => { n with copies := n.copies ++ [(l, m.txMessage l v)] } := by
  have hok : ¬(!m.inTick l || decide (4 ≤ m.fld (Reg.NET_L_TXSTAT l.ix) 2 0) || !m.txFlow (v.bits 12 7)) = true := by
    rw [htick, hflow, decide_eq_false (Nat.not_le.2 hused)]
    decide
  exact (if_neg (by rw [hv]; decide)).trans ((if_neg (Nat.not_lt.2 hlen)).trans (if_neg hok))
end
end

section
variable {s : State} {cyc : Nat} {l : Lane} {v : Word} {m : Mach} {regs : List Nat} {es : List Event}

theorem exec_tickMessageSend (htx : (s.at cyc).txCommand l v = m) (htold : (s.at cyc).FocTells regs es m) :
    ∃ t, exec (.tickMessageSend cyc (.lane l) l v) s = .next t ∧ t.m = m.settle ∧ SameRegsBut s t regs ∧ SameMemory s t ∧ Raises s t es :=
  run_makes (f := fun m => m.ownCopy (.lane l) l (Reg.NET_L_TXCMD l.ix) fun m => m.txCommand l v)
    ((Mach.ownCopy_own (s.at cyc) l _ _).trans htx) htold

theorem txStat_not_stamp : Reg.NET_L_TXSTAT l.ix ∉ stampRegs := not_mem_stampRegs_of_lt (by unfold Reg.NET_L_TXSTAT; omega)

theorem tx_clauses (hv : v.bit 31 = true) :
    let used := s.m.fld (Reg.NET_L_TXSTAT l.ix) 2 0
    (v.bits 6 0 ≤ 64 → s.m.inTick l = true → used < 4 → s.m.txFlow (v.bits 12 7) = true →
      ∃ t, exec (.tickMessageSend cyc (.lane l) l v) s = .next t ∧
        t.m.net.copies = s.m.net.copies ++ [(l, ⟨v.bits 12 7, s.m.txSlot l (v.bits 14 13) (v.bits 6 0), s.m.seq, used⟩)] ∧
        t.m.fld (Reg.NET_L_TXSTAT l.ix) 2 0 = used + 1 ∧ Quiet s t [Reg.NET_L_TXSTAT l.ix]) ∧
    (v.bits 6 0 ≤ 64 → s.m.inTick l = false ∨ 4 ≤ used ∨ s.m.txFlow (v.bits 12 7) = false →
      ∃ t, exec (.tickMessageSend cyc (.lane l) l v) s = .next t ∧ t.m.net = s.m.net ∧
        Raises s t [eventAt (s.at cyc) 0x4C07 0 0xFF [] l.origin] ∧ SameRegsBut s t [Reg.NET_IRQ_STAT] ∧ SameMemory s t) ∧
    (64 < v.bits 6 0 →
      ∃ t, exec (.tickMessageSend cyc (.lane l) l v) s = .next t ∧ t.m.net = s.m.net ∧ SameRegsBut s t [] ∧ SameMemory s t ∧
        Raises s t [eventAt (s.at cyc) 0x0001 0 0xFF
          (accessRecord (physical (Reg.NET_L_TXCMD l.ix)) (.lane l) true .word false 5) 0]) := by
  refine ⟨fun hlen htick hused hflow => ?_, fun hlen h => ?_, fun hlen => ?_⟩
  · obtain ⟨t, ht, hm, hregs, hmem, hev⟩ := exec_tickMessageSend (cyc := cyc)
      (Mach.txCommand_taken (m := s.at cyc) hv hlen htick hused hflow)
      ((((Mach.FocTells.refl (s.at cyc) [Reg.NET_L_TXSTAT l.ix]).wr (a := Reg.NET_L_TXSTAT l.ix) (by simp) txStat_not_stamp _).onLane l
        _).onNet _)
    refine ⟨t, ht, hm ▸ congrArg NetState.copies (Mach.settle_net ..), ?_, hregs, hmem, hev⟩
    rw [hm, Mach.settle_fld, Mach.onNet_fld, Mach.onLane_fld, Mach.fld_setFld _ _ (by decide) (by decide)]
    exact Nat.mod_eq_of_lt (Nat.lt_trans (Nat.add_lt_add_right hused 1) (by decide))
  · obtain ⟨t, ht, hm, hregs, hmem, hev⟩ := exec_tickMessageSend (cyc := cyc)
      (Mach.txCommand_refused (m := s.at cyc) hv hlen h)
      (((Mach.FocTells.refl (s.at cyc) [Reg.NET_IRQ_STAT]).raise 0x4C07 0 0xFF [] l.origin).netIrq (by simp) 4)
    exact ⟨t, ht, hm ▸ Mach.settle_net .., hev, hregs, hmem⟩
  · obtain ⟨t, ht, hm, hregs, hmem, hev⟩ := exec_tickMessageSend (cyc := cyc)
      ((Mach.txCommand_long (m := s.at cyc) hv hlen).trans (Mach.badValue_eq_raise ..))
      ((Mach.FocTells.refl (s.at cyc) []).raise 0x0001 0 0xFF _ 0)
    exact ⟨t, ht, hm ▸ Mach.settle_net .., hregs, hmem, hev⟩

theorem tx_none_clause (hv : v.bit 31 = false) :
    ∃ t, exec (.tickMessageSend cyc (.lane l) l v) s = .next t ∧ t.m.net = s.m.net ∧ Quiet s t [] := by
  obtain ⟨t, ht, hm, hregs, hmem, hev⟩ := exec_tickMessageSend (Mach.txCommand_none (m := s.at cyc) hv) (Mach.FocTells.refl (s.at cyc) [])
  exact ⟨t, ht, hm ▸ Mach.settle_net .., hregs, hmem, hev⟩

theorem tx_other_clause :
    ∃ t, exec (.tickMessageSend cyc (.lane l.other) l v) s = .next t ∧ t.m.net = s.m.net ∧ SameRegsBut s t [] ∧ SameMemory s t ∧
      Raises s t [eventAt (s.at cyc) 0x0001 0 0xFF
        (accessRecord (physical (Reg.NET_L_TXCMD l.ix)) (.lane l.other) true .word false 3) 0] := by
  obtain ⟨t, ht, hm, hregs, hmem, hev⟩ := run_makes
    (f := fun m => m.ownCopy (.lane l.other) l (Reg.NET_L_TXCMD l.ix) fun m => m.txCommand l v)
    ((Mach.ownCopy_other (s.at cyc) l _ (by cases l <;> decide) _).trans (Mach.foreignCopy_eq_raise ..))
    ((Mach.FocTells.refl (s.at cyc) []).raise 0x0001 0 0xFF _ 0)
  exact ⟨t, ht, hm ▸ Mach.settle_net .., hregs, hmem, hev⟩

theorem run_net_idle {f : Mach → Mach} (hf : f (s.at cyc) = s.at cyc) : ∃ t, run s cyc f = .next t ∧ t.m.net = s.m.net ∧ Quiet s t [] := by
  obtain ⟨t, ht, hm, hq⟩ := run_idle hf
  exact ⟨t, ht, hm ▸ Mach.settle_net .., hq⟩
end

/-! ### A port sends (R390) -/

/-- The message leaves its queue, counted. -/
def Mach.sent (m : Mach) (p : Nat) (x : TxMsg) : Mach :=
  m.onNet fun n => { n with
    flowCount := upd n.flowCount x.flow fun _ => (nth m.net.flowCount x.flow + 1) % 2 ^ 16
    ports := upd n.ports p fun q => { q with queue := q.queue.erase x } }

/-- Its transmit stamp is kept, the oldest of sixteen gone. -/
def Mach.stamped (m : Mach) (p : Nat) (e : Nat × Nat × Nat) : Mach :=
  m.onNet fun n => { n with ports := upd n.ports p fun q => { q with txts := (q.txts ++ [e]).drop ((q.txts ++ [e]).length - 16) } }

section
variable {m : Mach} {p stamp : Nat} {x : TxMsg} {e : Nat × Nat × Nat}

theorem Mach.transmit_none (h : bestMsg (fun x => (m.flow x.flow).bits 22 20) (m.port p).queue = none) : m.transmit p stamp = m := by
  rw [Mach.transmit, h]

theorem Mach.transmit_some (h : bestMsg (fun x => (m.flow x.flow).bits 22 20) (m.port p).queue = some x) :
    m.transmit p stamp = if (m.flow x.flow).bit 26 then
      ((m.sent p x).stamped p (x.flow, (nth m.net.flowCount x.flow + 1) % 2 ^ 16, stamp)).netIrq 2 else m.sent p x := by
  rw [Mach.transmit, h]
  rfl

theorem Mach.port_sent (hp : p < m.net.ports.length) : (m.sent p x).port p = { m.port p with queue := (m.port p).queue.erase x } := by
  change nth (upd m.net.ports p _) p = _
  rw [nth_upd, if_pos ⟨rfl, hp⟩]
  rfl

theorem Mach.port_stamped (hp : p < m.net.ports.length) : (m.stamped p e).port p =
    { m.port p with txts := ((m.port p).txts ++ [e]).drop (((m.port p).txts ++ [e]).length - 16) } := by
  change nth (upd m.net.ports p _) p = _
  rw [nth_upd, if_pos ⟨rfl, hp⟩]
  rfl

/-- Only a port that is there has a message to send. -/
theorem Mach.port_there {prio : TxMsg → Nat} (h : bestMsg prio (m.port p).queue = some x) : p < m.net.ports.length := by
  by_contra hp
  have hempty : (m.port p).queue = [] := by
    rw [Mach.port, nth, List.getD_eq_default _ _ (Nat.not_lt.1 hp)]
    rfl
  rw [hempty] at h
  cases h

theorem drop_stamps (l : List (Nat × Nat × Nat)) (h : l.length < 16) : (l ++ [e]).drop ((l ++ [e]).length - 16) = l ++ [e] := by
  have hlen : (l ++ [e]).length - 16 = 0 := by rw [List.length_append, List.length_singleton]; omega
  rw [hlen, List.drop_zero]

theorem drop_oldest (l : List (Nat × Nat × Nat)) (h : l.length = 16) : (l ++ [e]).drop ((l ++ [e]).length - 16) = l.drop 1 ++ [e] := by
  have hlen : (l ++ [e]).length - 16 = 1 := by rw [List.length_append, List.length_singleton]; omega
  rw [hlen, List.drop_append_of_le_length (by omega)]
end

section
variable {s : State} {cyc ago : Nat} {p : Fin 7} {x : TxMsg}

/-- What a port does at its turn to send. -/
def transmitStep (p ago : Nat) (m : Mach) : Mach :=
  if m.portOn p && (m.mode != .sleep || m.bit Reg.IMG_STATUS 27) then m.transmit p (m.now - ago) else m

theorem transmit_clause (hon : s.m.portOn p = true ∧ (s.m.mode ≠ .sleep ∨ s.m.bit Reg.IMG_STATUS 27 = true))
    (hnext : bestMsg (fun x => (s.m.flow x.flow).bits 22 20) (s.m.port p).queue = some x) :
    ∃ t, exec (.frameTransmit cyc p ago) s = .next t ∧ (t.m.port p).queue = (s.m.port p).queue.erase x ∧
      t.m.net.flowCount = upd s.m.net.flowCount x.flow (fun _ => (nth s.m.net.flowCount x.flow + 1) % 2 ^ 16) ∧
      ((s.m.flow x.flow).bit 26 = false → (t.m.port p).txts = (s.m.port p).txts ∧ Quiet s t []) ∧
      ((s.m.flow x.flow).bit 26 = true → (s.m.port p).txts.length < 16 →
        (t.m.port p).txts = (s.m.port p).txts ++ [(x.flow, (nth s.m.net.flowCount x.flow + 1) % 2 ^ 16, (s.at cyc).now - ago)] ∧
        t.m.bit Reg.NET_IRQ_STAT 2 = true ∧ Quiet s t [Reg.NET_IRQ_STAT]) ∧
      ((s.m.flow x.flow).bit 26 = true → (s.m.port p).txts.length = 16 →
        (t.m.port p).txts = (s.m.port p).txts.drop 1 ++
          [(x.flow, (nth s.m.net.flowCount x.flow + 1) % 2 ^ 16, (s.at cyc).now - ago)] ∧ Quiet s t [Reg.NET_IRQ_STAT]) := by
  have hp : p.val < s.m.net.ports.length := Mach.port_there hnext
  have hsent : ((s.at cyc).sent p x).port p = { s.m.port p with queue := (s.m.port p).queue.erase x } := Mach.port_sent (m := s.at cyc) hp
  have hruns : ((s.at cyc).portOn p && ((s.at cyc).mode != .sleep || (s.at cyc).bit Reg.IMG_STATUS 27)) = true := by
    change (s.m.portOn p && (s.m.mode != .sleep || s.m.bit Reg.IMG_STATUS 27)) = true
    rw [Bool.and_eq_true, Bool.or_eq_true, bne_iff_ne]
    exact hon
  have hf : transmitStep p ago (s.at cyc) = _ :=
    (if_pos hruns).trans (Mach.transmit_some (m := s.at cyc) (stamp := (s.at cyc).now - ago) hnext)
  have hflow : (s.at cyc).flow x.flow = s.m.flow x.flow := rfl
  rw [hflow] at hf
  have htold : ∀ regs, (s.at cyc).FocTells regs [] ((s.at cyc).sent p x) := fun regs => (Mach.FocTells.refl (s.at cyc) regs).onNet _
  have hport : ∀ t m : Mach, t = m.settle → t.port p = m.port p := fun t m hm => by rw [hm, Mach.port, Mach.settle_net, Mach.port]
  cases h26 : (s.m.flow x.flow).bit 26 with
  | false =>
    rw [h26] at hf
    obtain ⟨t, ht, hm, hregs, hmem, hev⟩ := run_makes (f := transmitStep p ago) hf (htold [])
    have htp := (hport _ _ hm).trans hsent
    exact ⟨t, ht, (congrArg NetPort.queue htp :), hm ▸ congrArg NetState.flowCount (Mach.settle_net ..),
      fun _ => ⟨(congrArg NetPort.txts htp :), hregs, hmem, hev⟩, fun h => Bool.noConfusion h, fun h => Bool.noConfusion h⟩
  | true =>
    rw [h26] at hf
    obtain ⟨t, ht, hm, hregs, hmem, hev⟩ := run_makes (f := transmitStep p ago) hf (((htold [Reg.NET_IRQ_STAT]).onNet _).netIrq (by simp) 2)
    have hlen : p.val < ((s.at cyc).sent p x).net.ports.length := by
      change p.val < (upd s.m.net.ports p _).length
      rw [upd, List.length_modify]
      exact hp
    have htp := (hport _ _ hm).trans (Mach.port_stamped hlen)
    rw [hsent] at htp
    refine ⟨t, ht, (congrArg NetPort.queue htp :), hm ▸ congrArg NetState.flowCount (Mach.settle_net ..), fun h => Bool.noConfusion h,
      fun _ hroom => ⟨(congrArg NetPort.txts htp :).trans (drop_stamps _ hroom), ?_, hregs, hmem, hev⟩,
      fun _ hfull => ⟨(congrArg NetPort.txts htp :).trans (drop_oldest _ hfull), hregs, hmem, hev⟩⟩
    rw [hm, Mach.settle_bit]
    exact Mach.bit_orr (i := 2) _ (by decide)

theorem transmit_idle_clause (h : ¬(s.m.portOn p = true ∧ (s.m.mode ≠ .sleep ∨ s.m.bit Reg.IMG_STATUS 27 = true)) ∨
      bestMsg (fun x => (s.m.flow x.flow).bits 22 20) (s.m.port p).queue = none) :
    ∃ t, exec (.frameTransmit cyc p ago) s = .next t ∧ t.m.net = s.m.net ∧ Quiet s t [] := by
  refine run_net_idle (f := transmitStep p ago) ?_
  obtain h | h := h
  · refine if_neg ?_
    change ¬(s.m.portOn p && (s.m.mode != .sleep || s.m.bit Reg.IMG_STATUS 27)) = true
    rw [Bool.and_eq_true, Bool.or_eq_true, bne_iff_ne]
    exact h
  · rw [transmitStep, Mach.transmit_none (m := s.at cyc) h]
    exact ite_self _
end

/-! ### Transmit stamps (R394) -/

/-- What each register of the group takes when its first is read. -/
def stampWord (p : Nat) (info : Word) (ts a : Nat) : Word :=
  if a = Reg.NET_P_TXTS_LO p then BitVec.ofNat 32 ts else if a = Reg.NET_P_TXTS_HI p then BitVec.ofNat 32 (ts / 2 ^ 32) else info

theorem stampWords (p : Nat) (info : Word) (ts : Nat) :
    [(Reg.NET_P_TXTS_INFO p, info), (Reg.NET_P_TXTS_LO p, BitVec.ofNat 32 ts), (Reg.NET_P_TXTS_HI p, BitVec.ofNat 32 (ts / 2 ^ 32))] =
      [Reg.NET_P_TXTS_INFO p, Reg.NET_P_TXTS_LO p, Reg.NET_P_TXTS_HI p].map fun a => (a, stampWord p info ts a) := by
  have hil : Reg.NET_P_TXTS_INFO p ≠ Reg.NET_P_TXTS_LO p := by unfold Reg.NET_P_TXTS_INFO Reg.NET_P_TXTS_LO; omega
  have hih : Reg.NET_P_TXTS_INFO p ≠ Reg.NET_P_TXTS_HI p := by unfold Reg.NET_P_TXTS_INFO Reg.NET_P_TXTS_HI; omega
  have hhl : Reg.NET_P_TXTS_HI p ≠ Reg.NET_P_TXTS_LO p := by unfold Reg.NET_P_TXTS_HI Reg.NET_P_TXTS_LO; omega
  simp only [List.map_cons, List.map_nil, stampWord, if_neg hil, if_neg hih, if_neg hhl, if_true]

/-- The oldest stamp is read, and leaves. -/
def Mach.stampTaken (m : Mach) (who p : Nat) (info : Word) (ts : Nat) : Mach :=
  ((m.latch who (Reg.NET_P_TXTS_INFO p) ([Reg.NET_P_TXTS_INFO p, Reg.NET_P_TXTS_LO p, Reg.NET_P_TXTS_HI p].map fun a =>
    (a, stampWord p info ts a))).onNet fun n => { n with ports := upd n.ports p fun q => { q with txts := q.txts.drop 1 } }).say (.data info)

section
variable {m : Mach} {who p f n ts : Nat} {rest : List (Nat × Nat × Nat)}

theorem Mach.stampRead_none (h : (m.port p).txts = []) : m.stampRead who p = m.stampTaken who p 0#32 0 := by
  have hhead : (m.port p).txts.head? = none := by rw [h]; rfl
  unfold Mach.stampRead
  rw [hhead]
  exact congrArg (fun vals => ((m.latch who (Reg.NET_P_TXTS_INFO p) vals).onNet fun n => { n with
    ports := upd n.ports p fun q => { q with txts := q.txts.drop 1 } }).say (.data 0#32)) (stampWords p 0#32 0)

theorem Mach.stampRead_some (h : (m.port p).txts = (f, n, ts) :: rest) :
    m.stampRead who p = m.stampTaken who p (BitVec.ofNat 32 (2 ^ 31 + f * 2 ^ 16 + n)) ts := by
  have hhead : (m.port p).txts.head? = some (f, n, ts) := by rw [h]; rfl
  unfold Mach.stampRead
  rw [hhead]
  exact congrArg (fun vals => ((m.latch who (Reg.NET_P_TXTS_INFO p) vals).onNet fun n => { n with
    ports := upd n.ports p fun q => { q with txts := q.txts.drop 1 } }).say (.data (BitVec.ofNat 32 (2 ^ 31 + f * 2 ^ 16 + n))))
      (stampWords p (BitVec.ofNat 32 (2 ^ 31 + f * 2 ^ 16 + n)) ts)

theorem Mach.port_stampTaken (info : Word) : ((m.stampTaken who p info ts).port p).txts = (m.port p).txts.drop 1 := by
  change (nth (upd m.net.ports p _) p).txts = _
  rw [nth_upd]
  by_cases hp : p < m.net.ports.length
  · rw [if_pos ⟨rfl, hp⟩]
    rfl
  · rw [if_neg fun h => hp h.2, Mach.port, nth, List.getD_eq_default _ _ (Nat.not_lt.1 hp)]
    rfl

theorem Mach.latched_stampTaken (info : Word) {a : Nat} (ha : a ∈ [Reg.NET_P_TXTS_INFO p, Reg.NET_P_TXTS_LO p, Reg.NET_P_TXTS_HI p]) :
    (m.stampTaken who p info ts).latched who (Reg.NET_P_TXTS_INFO p) a = stampWord p info ts a :=
  m.latched_latch who (Reg.NET_P_TXTS_INFO p) (stampWord p info ts) ha
end

section
variable {s : State} {cyc : Nat} {who : Writer} {p : Fin 7}

theorem exec_stampRead {info : Word} {ts : Nat} (h : (s.at cyc).stampRead who.ix p = (s.at cyc).stampTaken who.ix p info ts) :
    ∃ t, exec (.transmitStampRead cyc who p) s = .next t ∧ t.m.reply = .data info ∧ (t.m.port p).txts = (s.m.port p).txts.drop 1 ∧
      t.m.latched who.ix (Reg.NET_P_TXTS_INFO p) (Reg.NET_P_TXTS_LO p) = BitVec.ofNat 32 ts ∧
      t.m.latched who.ix (Reg.NET_P_TXTS_INFO p) (Reg.NET_P_TXTS_HI p) = BitVec.ofNat 32 (ts / 2 ^ 32) ∧ Quiet s t [] := by
  obtain ⟨t, ht, hm, hq⟩ := run_quiet (s := s) (cyc := cyc) (regs := []) (f := fun m => m.stampRead who.ix p) h
    (fun b _ => State.at_rd cyc s b) rfl
  have hlatched : ∀ a, t.m.latched who.ix (Reg.NET_P_TXTS_INFO p) a =
      ((s.at cyc).stampTaken who.ix p info ts).latched who.ix (Reg.NET_P_TXTS_INFO p) a := fun a => by rw [hm]; rfl
  have hhl : Reg.NET_P_TXTS_HI p ≠ Reg.NET_P_TXTS_LO p := by unfold Reg.NET_P_TXTS_HI Reg.NET_P_TXTS_LO; omega
  refine ⟨t, ht, hm ▸ Mach.settle_reply .., ?_, ?_, ?_, hq⟩
  · rw [hm, Mach.port, Mach.settle_net, ← Mach.port, Mach.port_stampTaken]
    rfl
  · exact (hlatched _).trans ((Mach.latched_stampTaken info (by simp)).trans (if_pos rfl))
  · exact (hlatched _).trans ((Mach.latched_stampTaken info (by simp)).trans ((if_neg hhl).trans (if_pos rfl)))
end

/-- Settles O39: the Sieve by whether the lane is admitted, paired and which copy is held; the lane's command by what refuses it; the
port by the message whose turn it is; and the stamps by whether there is one. -/
theorem messagesPassTheSieveAndTheirPort : Obligations.MessagesPassTheSieveAndTheirPort := by
  refine ⟨fun cyc l s x hcopy => ⟨sieve_barred_clause hcopy, sieve_alone_clause hcopy, fun h hadm hpair hheld =>
      ⟨sieve_equal_clause hcopy hadm hpair hheld, sieve_differs_clause hcopy hadm hpair hheld⟩, sieve_first_clause hcopy⟩,
    fun cyc l s h => ?_, fun cyc l v s hv => tx_clauses hv,
    fun cyc l v s => ⟨tx_none_clause, tx_other_clause, run_net_idle (f := fun m => m) rfl⟩, ?_, ?_⟩
  · obtain ⟨t, ht, hm, hq⟩ := run_idle (f := sieveStep l) (sieveStep_none h)
    exact ⟨t, ht, hm ▸ Mach.settle_net .., hm ▸ Mach.settle_lane .., hq⟩
  · intro cyc p ago s on next
    exact ⟨fun x hon hnext => transmit_clause hon hnext, transmit_idle_clause⟩
  · intro cyc who p s
    refine ⟨fun f n ts rest h => ?_, fun h => ?_⟩
    · obtain ⟨t, ht, hreply, htxts, hlo, hhi, hq⟩ := exec_stampRead (cyc := cyc) (who := who) (p := p) (Mach.stampRead_some (m := s.at cyc) h)
      exact ⟨t, ht, hreply, htxts.trans (by rw [h]; rfl), hlo, hhi, hq⟩
    · obtain ⟨t, ht, hreply, htxts, -, -, hq⟩ := exec_stampRead (cyc := cyc) (who := who) (p := p) (Mach.stampRead_none (m := s.at cyc) h)
      exact ⟨t, ht, hreply, htxts.trans (by rw [h]; rfl), hq⟩

end Sys2Proof.Machine
end

section
/-! The safe channel (R418 to R422): a message received, the watchdog, AEACK and a message sent. -/

namespace Sys2Proof.Machine

/-! ### The channel's registers -/

theorem aeddy_not_stamp : Reg.SAFE_AEDDY ∉ stampRegs := by decide

theorem aecnt_not_stamp : Reg.SAFE_AECNT ∉ stampRegs := by decide

section
variable {m m' : Mach} {c d v : Nat}

theorem Mach.aeState_congr (h : m'.rd Reg.SAFE_AEDDY = m.rd Reg.SAFE_AEDDY) (c : Nat) : m'.aeState c = m.aeState c := by
  rw [Mach.aeState, Mach.fld, h, Mach.aeState, Mach.fld]

theorem Mach.aeState_setAe (hc : c < 8) (hv : v < 4) : (m.setAe c v).aeState c = v := by
  rw [Mach.setAe, Mach.aeState, Mach.fld_setFld _ _ (by omega) (by omega), show 2 * c + 1 + 1 - 2 * c = 2 by omega]
  exact Nat.mod_eq_of_lt hv

theorem Mach.aeState_setAe_other (hc : c < 8) (hd : d ≠ c) : (m.setAe c v).aeState d = m.aeState d :=
  Mach.fld_setFld_other _ _ (by omega) (by omega) (by omega) (.inr (by omega))

theorem Mach.rd_setAe_other {b : Nat} (hb : b ≠ Reg.SAFE_AEDDY) : (m.setAe c v).rd b = m.rd b := by
  rw [Mach.setAe, Mach.rd_setFld, if_neg hb]

theorem Mach.rd_safeIrq_other {b i : Nat} (hb : b ≠ Reg.SAFE_IRQ_STAT) : (m.safeIrq i).rd b = m.rd b := by
  rw [Mach.safeIrq, Mach.rd_orr, if_neg hb]

/-- A connection's own part, where the connection is there. -/
theorem Mach.conn_onConn {g : AeConn → AeConn} (hc : c < m.safe.conns.length) : (m.onConn c g).conn c = g (m.conn c) := by
  change nth (upd m.safe.conns c g) c = _
  rw [nth_upd, if_pos ⟨rfl, hc⟩, Mach.conn]
end

/-! ### What is told of a run of errors, and a connection that fails (R420, R421) -/

/-- The first discard of a run is told. -/
def Mach.aeTold (m : Mach) (told : Bool) : Mach := if told then m else (m.raise 0x400B 0).safeIrq 4

section
variable {m m₀ : Mach} {regs : List Nat} {es : List Event} {told : Bool} {c : Nat}

theorem Mach.FocTells.aeTold (h : m₀.FocTells regs es m) (hirq : Reg.SAFE_IRQ_STAT ∈ regs) :
    m₀.FocTells regs (es ++ if told then [] else [eventAt m₀ 0x400B 0 0xFF [] 0]) (m.aeTold told) := by
  cases told with
  | true => exact (List.append_nil es).symm ▸ h
  | false => exact (h.raise 0x400B 0 0xFF [] 0).safeIrq hirq 4

theorem Mach.aeTold_safe : (m.aeTold told).safe = m.safe := by cases told <;> rfl

theorem Mach.aeTold_net : (m.aeTold told).net = m.net := by cases told <;> rfl

theorem Mach.aeTold_rd {b : Nat} (hb : b ≠ Reg.SAFE_IRQ_STAT) : (m.aeTold told).rd b = m.rd b := by
  cases told with
  | true => rfl
  | false => exact (Mach.rd_safeIrq_other hb).trans (Mach.raise_rd ..)

theorem Mach.aeTold_fld {b : Nat} (hb : b ≠ Reg.SAFE_IRQ_STAT) (hi lo : Nat) : (m.aeTold told).fld b hi lo = m.fld b hi lo :=
  congrArg (fun w => Word.bits w hi lo) (Mach.aeTold_rd hb)

theorem Mach.aeTold_bit (h : told = false) : (m.aeTold told).bit Reg.SAFE_IRQ_STAT 4 = true := by
  rw [h]
  exact Mach.bit_safeIrq _ (by decide)

theorem Mach.FocTells.aeFail (h : m₀.FocTells regs es m) (hstate : Reg.SAFE_AEDDY ∈ regs) (hirq : Reg.SAFE_IRQ_STAT ∈ regs) :
    m₀.FocTells regs (es ++ [eventAt m₀ 0x4009 1 0xFF [] 0]) (m.aeFail c) :=
  (((h.wr hstate aeddy_not_stamp _).onSafe _).raise 0x4009 1 0xFF [] 0).safeIrq hirq 4

theorem Mach.aeFail_safe :
    (m.aeFail c).safe = { m.safe with conns := upd m.safe.conns c fun x => { x with errRun := 0, okRun := 0, bits := 0 } } := rfl

theorem Mach.aeFail_rd {b : Nat} (hb : b ≠ Reg.SAFE_IRQ_STAT) : (m.aeFail c).rd b = (m.setAe c 3).rd b :=
  (Mach.rd_safeIrq_other hb).trans (Mach.raise_rd ..)

theorem Mach.aeFail_state (hc : c < 8) : (m.aeFail c).aeState c = 3 :=
  (Mach.aeState_congr (Mach.aeFail_rd (by decide)) c).trans (Mach.aeState_setAe hc (by decide))

theorem Mach.aeFail_state_other {d : Nat} (hc : c < 8) (hd : d ≠ c) : (m.aeFail c).aeState d = m.aeState d :=
  (Mach.aeState_congr (Mach.aeFail_rd (by decide)) d).trans (Mach.aeState_setAe_other hc hd)

theorem Mach.aeFail_bit : (m.aeFail c).bit Reg.SAFE_IRQ_STAT 4 = true := Mach.bit_safeIrq _ (by decide)

theorem Mach.FocTells.aeRecover (h : m₀.FocTells regs es m) (hstate : Reg.SAFE_AEDDY ∈ regs) (hirq : Reg.SAFE_IRQ_STAT ∈ regs) :
    m₀.FocTells regs (es ++ [eventAt m₀ 0x400A 0 0xFF [] 0]) (m.aeRecover c) :=
  ((h.wr hstate aeddy_not_stamp _).raise 0x400A 0 0xFF [] 0).safeIrq hirq 4

theorem Mach.aeRecover_rd {b : Nat} (hb : b ≠ Reg.SAFE_IRQ_STAT) : (m.aeRecover c).rd b = (m.setAe c 2).rd b :=
  (Mach.rd_safeIrq_other hb).trans (Mach.raise_rd ..)

theorem Mach.aeRecover_state (hc : c < 8) : (m.aeRecover c).aeState c = 2 :=
  (Mach.aeState_congr (Mach.aeRecover_rd (by decide)) c).trans (Mach.aeState_setAe hc (by decide))

theorem Mach.aeRecover_state_other {d : Nat} (hc : c < 8) (hd : d ≠ c) : (m.aeRecover c).aeState d = m.aeState d :=
  (Mach.aeState_congr (Mach.aeRecover_rd (by decide)) d).trans (Mach.aeState_setAe_other hc hd)
end

/-! ### The message at the front (R419, R420) -/

/-- The oldest frame has left the safety processor's inbox. -/
def Mach.inboxTaken (m : Mach) (rest : List (Nat × List Nat)) : Mach := m.onNet fun n => { n with safetyInbox := rest }

/-- AEDDY_RECEIVE. -/
def aeStep (m : Mach) : Mach :=
  match m.net.safetyInbox with
  | [] => m
  | x :: rest => (m.onNet fun n => { n with safetyInbox := rest }).aeMessage x.1 x.2

theorem aeStep_nil {m : Mach} (h : m.net.safetyInbox = []) : aeStep m = m := by rw [aeStep, h]

theorem aeStep_cons {m : Mach} {f : Nat} {frame : List Nat} {rest : List (Nat × List Nat)} (h : m.net.safetyInbox = (f, frame) :: rest) :
    aeStep m = (m.inboxTaken rest).aeMessage f frame := by
  rw [aeStep, h]
  rfl

/-- R419: connection `c` answers for the message `x` of flow `f`. -/
def Mach.aeAnswers (m : Mach) (f : Nat) (x : AeMsg) (c : Nat) : Bool :=
  (m.aeCfg c).bit 31 && (m.aeCfg c).bits 29 24 == f && (m.rd (Reg.SAFE_AE_CFG_W0 c)).toNat == x.cid

section
variable {m : Mach} {f : Nat} {frame : List Nat} {x : AeMsg} {c : Nat}

theorem Mach.aeMessage_stray (h : ∀ x, AeMsg.ofBytes (aeBytes (m.flowPort f) frame) = some x → ∀ c < 8, m.aeAnswers f x c = false) :
    m.aeMessage f frame = m.aeStray := by
  unfold Mach.aeMessage
  cases hx : AeMsg.ofBytes (aeBytes (m.flowPort f) frame) with
  | none => rfl
  | some x =>
    have hnone : (List.range 8).find? (m.aeAnswers f x) = none :=
      List.find?_eq_none.2 fun c hc => by rw [h x hx c (List.mem_range.1 hc)]; decide
    dsimp only
    change (match (List.range 8).find? (m.aeAnswers f x) with
      | none => m.aeStray
      | some c => _) = _
    rw [hnone]

/-- R420 checks 2 to 5 on a message that its connection answers for. -/
def Mach.aeJudged (m : Mach) (c : Nat) (x : AeMsg) : Mach :=
  if m.aeCrc c x.body ≠ x.crc ∨ (m.aeCfg c).bits 9 0 ≠ x.wd then m.aeError c
  else match (m.conn c).sequence ((m.aeCfg c).bits 17 10) x with
    | none => m
    | some (inOrder, lost) => if inOrder && (m.conn c).ackOk x then m.aeAccept c x lost else m.aeError c

theorem Mach.aeMessage_judged (hx : AeMsg.ofBytes (aeBytes (m.flowPort f) frame) = some x)
    (hc : (List.range 8).find? (m.aeAnswers f x) = some c) : m.aeMessage f frame = m.aeJudged c x := by
  unfold Mach.aeMessage
  rw [hx]
  dsimp only
  change (match (List.range 8).find? (m.aeAnswers f x) with
    | none => m.aeStray
    | some c => m.aeJudged c x) = _
  rw [hc]

section
variable {lost : Nat} (hgood : m.aeCrc c x.body = x.crc ∧ (m.aeCfg c).bits 9 0 = x.wd)

theorem Mach.aeJudged_bad (hbad : ¬(m.aeCrc c x.body = x.crc ∧ (m.aeCfg c).bits 9 0 = x.wd)) : m.aeJudged c x = m.aeError c :=
  if_pos (not_and_or.1 hbad)

include hgood

theorem Mach.aeJudged_accepted (hseq : (m.conn c).sequence ((m.aeCfg c).bits 17 10) x = some (true, lost))
    (hack : (m.conn c).ackOk x = true) : m.aeJudged c x = m.aeAccept c x lost := by
  rw [Mach.aeJudged, if_neg (fun h => h.elim (fun h => h hgood.1) fun h => h hgood.2), hseq]
  dsimp only
  rw [hack]
  rfl

theorem Mach.aeJudged_duplicate (hseq : (m.conn c).sequence ((m.aeCfg c).bits 17 10) x = none) : m.aeJudged c x = m := by
  rw [Mach.aeJudged, if_neg (fun h => h.elim (fun h => h hgood.1) fun h => h hgood.2), hseq]

theorem Mach.aeJudged_unordered (hseq : (m.conn c).sequence ((m.aeCfg c).bits 17 10) x = some (false, lost)) :
    m.aeJudged c x = m.aeError c := by
  rw [Mach.aeJudged, if_neg (fun h => h.elim (fun h => h hgood.1) fun h => h hgood.2), hseq]
  rfl

theorem Mach.aeJudged_unacked (hseq : (m.conn c).sequence ((m.aeCfg c).bits 17 10) x = some (true, lost))
    (hack : (m.conn c).ackOk x = false) : m.aeJudged c x = m.aeError c := by
  rw [Mach.aeJudged, if_neg (fun h => h.elim (fun h => h hgood.1) fun h => h hgood.2), hseq]
  dsimp only
  rw [hack]
  rfl
end
end

/-! ### What a judgement leaves -/

/-- Where a connection's own part lies. -/
theorem conn_of_getElem {m : Mach} {c : Nat} {y : AeConn} (h : m.safe.conns[c]? = some y) : c < m.safe.conns.length ∧ m.conn c = y := by
  obtain ⟨hlt, hy⟩ := List.getElem?_eq_some_iff.1 h
  refine ⟨hlt, ?_⟩
  rw [Mach.conn, nth, List.getD_eq_getElem?_getD, h]
  rfl

section
variable {m m₀ : Mach} {regs : List Nat} {c : Nat}

/-- A discard is counted, and marks the connection. -/
def Mach.aeErrs (m : Mach) (c : Nat) : Mach :=
  ((m.incSat Reg.SAFE_AECNT 31 16).onConn c fun x => { x with errRun := x.errRun + 1, okRun := 0, told := true }).aeTold (m.conn c).told

theorem Mach.aeError_eq : m.aeError c = if 8 ≤ ((m.aeErrs c).conn c).errRun ∧ (m.aeErrs c).aeState c ≠ 3 then (m.aeErrs c).aeFail c
    else m.aeErrs c := rfl

theorem Mach.aeErrs_conn (hc : c < m.safe.conns.length) :
    (m.aeErrs c).conn c = { m.conn c with errRun := (m.conn c).errRun + 1, okRun := 0, told := true } := by
  rw [Mach.conn, Mach.aeErrs, Mach.aeTold_safe, ← Mach.conn, Mach.conn_onConn (m := m.incSat Reg.SAFE_AECNT 31 16) hc]
  rfl

theorem Mach.aeErrs_rd {b : Nat} (hcnt : b ≠ Reg.SAFE_AECNT) (hirq : b ≠ Reg.SAFE_IRQ_STAT) : (m.aeErrs c).rd b = m.rd b := by
  rw [Mach.aeErrs, Mach.aeTold_rd hirq]
  change (m.incSat Reg.SAFE_AECNT 31 16).rd b = m.rd b
  rw [Mach.incSat, Mach.rd_setFld, if_neg hcnt]

theorem Mach.aeErrs_count : (m.aeErrs c).fld Reg.SAFE_AECNT 31 16 = min (m.fld Reg.SAFE_AECNT 31 16 + 1) 0xFFFF ∧
    (m.aeErrs c).fld Reg.SAFE_AECNT 15 0 = m.fld Reg.SAFE_AECNT 15 0 := by
  rw [Mach.aeErrs, Mach.aeTold_fld (by decide), Mach.aeTold_fld (by decide)]
  exact ⟨Mach.fld_incSat _ (by decide) (by decide), Mach.fld_setFld_other _ _ (by decide) (by decide) (by decide) (.inr (by decide))⟩

theorem Mach.FocTells.aeErrs (h : m₀.FocTells regs [] m) (hcnt : Reg.SAFE_AECNT ∈ regs) (hirq : Reg.SAFE_IRQ_STAT ∈ regs) :
    m₀.FocTells regs (if (m.conn c).told then [] else [eventAt m₀ 0x400B 0 0xFF [] 0]) (m.aeErrs c) :=
  Mach.FocTells.aeTold ((h.incSat hcnt aecnt_not_stamp 31 16).onSafe _) hirq

theorem Mach.aeErrs_safe : (m.aeErrs c).safe =
    { m.safe with conns := upd m.safe.conns c fun x => { x with errRun := x.errRun + 1, okRun := 0, told := true } } := by
  rw [Mach.aeErrs, Mach.aeTold_safe]
  rfl

/-- What an error leaves: the eighth in a row fails the connection. -/
structure Mach.AeErred (m₀ m : Mach) (c : Nat) (m' : Mach) : Prop where
  net : m'.net = m.net
  state : m'.aeState c = if 7 ≤ (m.conn c).errRun ∧ m.aeState c ≠ 3 then 3 else m.aeState c
  safe : m'.safe = { m.safe with
    conns := upd m.safe.conns c fun y =>
      if 7 ≤ (m.conn c).errRun ∧ m.aeState c ≠ 3 then { y with errRun := 0, okRun := 0, told := true, bits := 0 }
      else { y with errRun := y.errRun + 1, okRun := 0, told := true } }
  errors : m'.fld Reg.SAFE_AECNT 31 16 = min (m.fld Reg.SAFE_AECNT 31 16 + 1) 0xFFFF
  losses : m'.fld Reg.SAFE_AECNT 15 0 = m.fld Reg.SAFE_AECNT 15 0
  irq : (m.conn c).told = false ∨ (7 ≤ (m.conn c).errRun ∧ m.aeState c ≠ 3) → m'.bit Reg.SAFE_IRQ_STAT 4 = true
  tells : m₀.FocTells [Reg.SAFE_AEDDY, Reg.SAFE_AECNT, Reg.SAFE_IRQ_STAT]
    ((if (m.conn c).told then [] else [eventAt m₀ 0x400B 0 0xFF [] 0]) ++
      (if 7 ≤ (m.conn c).errRun ∧ m.aeState c ≠ 3 then [eventAt m₀ 0x4009 1 0xFF [] 0] else [])) m'

theorem Mach.aeError_errs (h : ∀ regs, m₀.FocTells regs [] m) (hc : c < 8) (hlen : c < m.safe.conns.length) :
    m₀.AeErred m c (m.aeError c) := by
  have hcond : (8 ≤ ((m.aeErrs c).conn c).errRun ∧ (m.aeErrs c).aeState c ≠ 3) ↔ (7 ≤ (m.conn c).errRun ∧ m.aeState c ≠ 3) := by
    rw [Mach.aeErrs_conn hlen, Mach.aeState_congr (Mach.aeErrs_rd (by decide) (by decide))]
    exact and_congr_left' (Nat.add_le_add_iff_right (n := 1))
  have htold := Mach.FocTells.aeErrs (c := c) (h [Reg.SAFE_AEDDY, Reg.SAFE_AECNT, Reg.SAFE_IRQ_STAT]) (by simp) (by simp)
  obtain ⟨herr, hloss⟩ := Mach.aeErrs_count (m := m) (c := c)
  rw [Mach.aeError_eq]
  by_cases hfails : 7 ≤ (m.conn c).errRun ∧ m.aeState c ≠ 3
  · rw [if_pos (hcond.2 hfails)]
    have hcnt : ∀ hi lo, ((m.aeErrs c).aeFail c).fld Reg.SAFE_AECNT hi lo = (m.aeErrs c).fld Reg.SAFE_AECNT hi lo := fun hi lo =>
      congrArg (fun w => Word.bits w hi lo) ((Mach.aeFail_rd (by decide)).trans (Mach.rd_setAe_other (by decide)))
    exact {
      net := Mach.aeTold_net
      state := (Mach.aeFail_state hc).trans (if_pos hfails).symm
      safe := by
        rw [Mach.aeFail_safe, Mach.aeErrs_safe]
        simp only [if_pos hfails, upd_upd]
        rfl
      errors := (hcnt ..).trans herr
      losses := (hcnt ..).trans hloss
      irq := fun _ => Mach.aeFail_bit
      tells := by
        rw [if_pos hfails]
        exact htold.aeFail (by simp) (by simp) }
  · rw [if_neg fun h => hfails (hcond.1 h)]
    exact {
      net := Mach.aeTold_net
      state := (Mach.aeState_congr (Mach.aeErrs_rd (by decide) (by decide)) c).trans (if_neg hfails).symm
      safe := by
        rw [Mach.aeErrs_safe]
        simp only [if_neg hfails]
      errors := herr
      losses := hloss
      irq := fun h => Mach.aeTold_bit (h.resolve_right hfails)
      tells := by
        rw [if_neg hfails, List.append_nil]
        exact htold }

/-! ### Acceptance (R420) -/

/-- A message accepted: what stands before the connection's state is looked at. -/
def Mach.aeTaken (m : Mach) (c : Nat) (x : AeMsg) (lost : Nat) : Mach :=
  (((m.setFld Reg.SAFE_AECNT 15 0 (min (m.fld Reg.SAFE_AECNT 15 0 + lost) 0xFFFF)).onSafe fun s => { s with strayTold := false }).onConn c
    fun y => { y with
      last := some x.seq, wdAt := m.now, errRun := 0, okRun := min (y.okRun + 1) 4, told := false
      bits := if x.flags.testBit 0 then 0 else ofLeBytes (x.payload.take 2) &&& m.fld (Reg.SAFE_AE_CFG_W2 c) 31 16 }).aeMailbox c
        (x.payload.drop 2)

theorem Mach.aeAccept_eq (x : AeMsg) (lost : Nat) : m.aeAccept c x lost =
    if (m.aeTaken c x lost).aeState c = 1 then (m.aeTaken c x lost).setAe c 2
    else if (m.aeTaken c x lost).aeState c = 3 ∧ 4 ≤ ((m.aeTaken c x lost).conn c).okRun ∧ !((m.aeTaken c x lost).aeCfg c).bit 30 then
      (m.aeTaken c x lost).aeRecover c
    else m.aeTaken c x lost := rfl

theorem mbox_ne {c w w' : Nat} (h : w ≠ w') : Reg.SAFE_MBOX_RX c w ≠ Reg.SAFE_MBOX_RX c w' := by
  unfold Reg.SAFE_MBOX_RX
  omega

theorem mbox_above (c w : Nat) : 0x100600 ≤ Reg.SAFE_MBOX_RX c w := by
  unfold Reg.SAFE_MBOX_RX
  omega

/-- A word of the mailbox is written. -/
def mboxStep (c : Nat) (data : List Nat) (w : Nat) (m : Mach) : Mach :=
  m.wrN (Reg.SAFE_MBOX_RX c w) (ofLeBytes (((padTo 48 data).drop (4 * w)).take 4))

theorem Mach.aeMailbox_eq (data : List Nat) : m.aeMailbox c data = (forN 12 (mboxStep c data) m).safeIrq 6 := rfl

theorem Mach.FocTells.aeMailbox {es : List Event} (h : m₀.FocTells regs es m) (data : List Nat)
    (hbox : ∀ w < 12, Reg.SAFE_MBOX_RX c w ∈ regs) (hirq : Reg.SAFE_IRQ_STAT ∈ regs) : m₀.FocTells regs es (m.aeMailbox c data) := by
  rw [Mach.aeMailbox_eq]
  refine Mach.FocTells.safeIrq ?_ hirq 6
  exact forL_induct (P := fun m => m₀.FocTells regs es m) (l := List.range 12)
    (fun w hw m hm => hm.wr (hbox w (List.mem_range.1 hw)) (not_mem_stampRegs_of_lt ((by decide : 0xD1000 < 0x100600).trans_le (mbox_above c w))) _) h

theorem Mach.aeMailbox_safe (data : List Nat) : (m.aeMailbox c data).safe = m.safe := by
  rw [Mach.aeMailbox_eq]
  exact forN_keeps Mach.safe (fun _ _ => rfl) 12 m

theorem Mach.aeMailbox_net (data : List Nat) : (m.aeMailbox c data).net = m.net := by
  rw [Mach.aeMailbox_eq]
  exact forN_keeps Mach.net (fun _ _ => rfl) 12 m

theorem Mach.aeMailbox_rd_other {b : Nat} (hb : b < 0x100600) (hirq : b ≠ Reg.SAFE_IRQ_STAT) (data : List Nat) :
    (m.aeMailbox c data).rd b = m.rd b := by
  rw [Mach.aeMailbox_eq, Mach.rd_safeIrq_other hirq]
  exact forN_keeps (fun m => m.rd b) (fun w m => Mach.rd_wr_other _ _ (by have := mbox_above c w; omega)) 12 m

theorem Mach.aeMailbox_rd (data : List Nat) {w : Nat} (hw : w < 12) :
    ((m.aeMailbox c data).rd (Reg.SAFE_MBOX_RX c w)).toNat = ofLeBytes (((padTo 48 data).drop (4 * w)).take 4) % 2 ^ 32 := by
  have hne : Reg.SAFE_MBOX_RX c w ≠ Reg.SAFE_IRQ_STAT := by
    have := mbox_above c w
    unfold Reg.SAFE_IRQ_STAT
    omega
  rw [Mach.aeMailbox_eq, Mach.rd_safeIrq_other hne]
  refine forN_through (P := fun _ => True)
    (Q := fun m => (m.rd (Reg.SAFE_MBOX_RX c w)).toNat = ofLeBytes (((padTo 48 data).drop (4 * w)).take 4) % 2 ^ 32) (i := w)
    (fun _ _ _ h => h) (fun m _ => ?_) (fun j m hj hm => ?_) hw trivial
  · rw [mboxStep, Mach.wrN, Mach.rd_wr_self, BitVec.toNat_ofNat]
  · rw [mboxStep, Mach.wrN, Mach.rd_wr_other _ _ (mbox_ne hj.symm)]
    exact hm
end

section
variable {m m₀ : Mach} {c lost : Nat} {x : AeMsg}

theorem Mach.FocTells.aeTaken (h : m₀.FocTells (aeRegs c) [] m) : m₀.FocTells (aeRegs c) [] (m.aeTaken c x lost) :=
  ((((h.wr (a := Reg.SAFE_AECNT) (by simp [aeRegs]) aecnt_not_stamp _).onSafe _).onSafe _).aeMailbox _ fun w hw => by
    simp only [aeRegs, List.mem_append, List.mem_map, List.mem_range]
    exact .inr ⟨w, hw, rfl⟩) (by simp [aeRegs])

theorem Mach.aeTaken_safe : (m.aeTaken c x lost).safe = { m.safe with
    strayTold := false
    conns := upd m.safe.conns c fun y => { y with
      last := some x.seq, wdAt := m.now, errRun := 0, okRun := min (y.okRun + 1) 4, told := false
      bits := if x.flags.testBit 0 then 0 else ofLeBytes (x.payload.take 2) &&& m.fld (Reg.SAFE_AE_CFG_W2 c) 31 16 } } := by
  rw [Mach.aeTaken, Mach.aeMailbox_safe]
  rfl

theorem Mach.aeTaken_net : (m.aeTaken c x lost).net = m.net := by
  rw [Mach.aeTaken, Mach.aeMailbox_net]
  rfl

theorem Mach.aeTaken_rd {b : Nat} (hb : b < 0x100600) (hirq : b ≠ Reg.SAFE_IRQ_STAT) (hcnt : b ≠ Reg.SAFE_AECNT) :
    (m.aeTaken c x lost).rd b = m.rd b := by
  rw [Mach.aeTaken, Mach.aeMailbox_rd_other hb hirq]
  change (m.setFld Reg.SAFE_AECNT 15 0 _).rd b = m.rd b
  rw [Mach.rd_setFld, if_neg hcnt]

theorem Mach.aeTaken_count : (m.aeTaken c x lost).fld Reg.SAFE_AECNT 15 0 = min (m.fld Reg.SAFE_AECNT 15 0 + lost) 0xFFFF ∧
    (m.aeTaken c x lost).fld Reg.SAFE_AECNT 31 16 = m.fld Reg.SAFE_AECNT 31 16 := by
  have hcnt : ∀ hi lo, (m.aeTaken c x lost).fld Reg.SAFE_AECNT hi lo =
      (m.setFld Reg.SAFE_AECNT 15 0 (min (m.fld Reg.SAFE_AECNT 15 0 + lost) 0xFFFF)).fld Reg.SAFE_AECNT hi lo := fun hi lo =>
    congrArg (fun w => Word.bits w hi lo) (Mach.aeMailbox_rd_other (by decide) (by decide) _)
  refine ⟨(hcnt 15 0).trans ((Mach.fld_setFld _ _ (by decide) (by decide)).trans (Nat.mod_eq_of_lt ?_)),
    (hcnt 31 16).trans (Mach.fld_setFld_other _ _ (by decide) (by decide) (by decide) (.inr (by decide)))⟩
  exact Nat.lt_succ_of_le (Nat.min_le_right ..)

theorem Mach.aeTaken_bit : (m.aeTaken c x lost).bit Reg.SAFE_IRQ_STAT 6 = true := Mach.bit_safeIrq _ (by decide)

/-- When a message accepted makes a failed connection valid (R421). -/
abbrev Mach.aeRecovers (m : Mach) (c : Nat) : Prop := m.aeState c = 3 ∧ 3 ≤ (m.conn c).okRun ∧ (m.aeCfg c).bit 30 = false

/-- What an acceptance leaves. -/
structure Mach.AeAccepted (m₀ m : Mach) (c : Nat) (x : AeMsg) (lost : Nat) (m' : Mach) : Prop where
  net : m'.net = m.net
  state : m'.aeState c = if m.aeState c = 1 ∨ m.aeRecovers c then 2 else m.aeState c
  safe : m'.safe = (m.aeTaken c x lost).safe
  losses : m'.fld Reg.SAFE_AECNT 15 0 = min (m.fld Reg.SAFE_AECNT 15 0 + lost) 0xFFFF
  errors : m'.fld Reg.SAFE_AECNT 31 16 = m.fld Reg.SAFE_AECNT 31 16
  mailbox : ∀ w < 12, (m'.rd (Reg.SAFE_MBOX_RX c w)).toNat = ofLeBytes (((padTo 48 (x.payload.drop 2)).drop (4 * w)).take 4) % 2 ^ 32
  irq : m'.bit Reg.SAFE_IRQ_STAT 6 = true
  tells : m₀.FocTells (aeRegs c) (if m.aeRecovers c then [eventAt m₀ 0x400A 0 0xFF [] 0] else []) m'

theorem Mach.aeAccept_accepts (h : ∀ regs, m₀.FocTells regs [] m) (hc : c < 8) (hlen : c < m.safe.conns.length) :
    m₀.AeAccepted m c x lost (m.aeAccept c x lost) := by
  have htold := Mach.FocTells.aeTaken (x := x) (lost := lost) (h (aeRegs c))
  have hstate : (m.aeTaken c x lost).aeState c = m.aeState c := Mach.aeState_congr (Mach.aeTaken_rd (by decide) (by decide) (by decide)) c
  have hcfg : (m.aeTaken c x lost).aeCfg c = m.aeCfg c := Mach.aeTaken_rd (by unfold Reg.SAFE_AE_CFG_W1; omega)
    (by unfold Reg.SAFE_AE_CFG_W1 Reg.SAFE_IRQ_STAT; omega) (by unfold Reg.SAFE_AE_CFG_W1 Reg.SAFE_AECNT; omega)
  have hrun : ((m.aeTaken c x lost).conn c).okRun = min ((m.conn c).okRun + 1) 4 := by
    rw [Mach.conn, Mach.aeTaken_safe]
    change (nth (upd m.safe.conns c _) c).okRun = _
    rw [nth_upd, if_pos ⟨rfl, hlen⟩]
    rfl
  have hrec : ((m.aeTaken c x lost).aeState c = 3 ∧ 4 ≤ ((m.aeTaken c x lost).conn c).okRun ∧ (!((m.aeTaken c x lost).aeCfg c).bit 30) = true) ↔
      m.aeRecovers c := by
    rw [hstate, hcfg, hrun, Bool.not_eq_true']
    unfold Mach.aeRecovers
    constructor
    · rintro ⟨h3, h4, h5⟩
      exact ⟨h3, by omega, h5⟩
    · rintro ⟨h3, h4, h5⟩
      exact ⟨h3, by omega, h5⟩
  obtain ⟨hloss, herr⟩ := Mach.aeTaken_count (m := m) (c := c) (x := x) (lost := lost)
  have hbox : ∀ w < 12, ((m.aeTaken c x lost).rd (Reg.SAFE_MBOX_RX c w)).toNat =
      ofLeBytes (((padTo 48 (x.payload.drop 2)).drop (4 * w)).take 4) % 2 ^ 32 := fun w hw => Mach.aeMailbox_rd _ hw
  have hboxne : ∀ w, Reg.SAFE_MBOX_RX c w ≠ Reg.SAFE_AEDDY ∧ Reg.SAFE_MBOX_RX c w ≠ Reg.SAFE_IRQ_STAT := fun w => by
    have := mbox_above c w
    exact ⟨by unfold Reg.SAFE_AEDDY; omega, by unfold Reg.SAFE_IRQ_STAT; omega⟩
  have hnet := Mach.aeTaken_net (m := m) (c := c) (x := x) (lost := lost)
  have hirq := Mach.aeTaken_bit (m := m) (c := c) (x := x) (lost := lost)
  rw [Mach.aeAccept_eq]
  generalize hm' : m.aeTaken c x lost = taken at *
  by_cases hone : taken.aeState c = 1
  · have hnorec : ¬m.aeRecovers c := fun h => absurd (hone.symm.trans (hstate.trans h.1)) (by decide)
    rw [if_pos hone]
    exact {
      net := hnet
      state := (Mach.aeState_setAe hc (by decide)).trans (if_pos (.inl (hstate ▸ hone))).symm
      safe := (show (taken.setAe c 2).safe = taken.safe from rfl).trans (congrArg Mach.safe hm'.symm)
      losses := (congrArg (fun w => Word.bits w 15 0) (Mach.rd_setAe_other (by decide))).trans hloss
      errors := (congrArg (fun w => Word.bits w 31 16) (Mach.rd_setAe_other (by decide))).trans herr
      mailbox := fun w hw => (congrArg BitVec.toNat (Mach.rd_setAe_other (hboxne w).1)).trans (hbox w hw)
      irq := (congrArg (fun w => Word.bit w 6) (Mach.rd_setAe_other (by decide))).trans hirq
      tells := by
        rw [if_neg hnorec]
        exact htold.wr (by simp [aeRegs]) aeddy_not_stamp _ }
  · rw [if_neg hone]
    by_cases hrecovers : m.aeRecovers c
    · rw [if_pos (hrec.2 hrecovers)]
      have hkept : ∀ b, b ≠ Reg.SAFE_IRQ_STAT → b ≠ Reg.SAFE_AEDDY → (taken.aeRecover c).rd b = taken.rd b := fun b hb hb' =>
        (Mach.aeRecover_rd hb).trans (Mach.rd_setAe_other hb')
      exact {
        net := hnet
        state := (Mach.aeRecover_state hc).trans (if_pos (.inr hrecovers)).symm
        safe := (show (taken.aeRecover c).safe = taken.safe from rfl).trans (congrArg Mach.safe hm'.symm)
        losses := (congrArg (fun w => Word.bits w 15 0) (hkept _ (by decide) (by decide))).trans hloss
        errors := (congrArg (fun w => Word.bits w 31 16) (hkept _ (by decide) (by decide))).trans herr
        mailbox := fun w hw => (congrArg BitVec.toNat (hkept _ (hboxne w).2 (hboxne w).1)).trans (hbox w hw)
        irq := Mach.bit_orr_of_bit _ _ ((congrArg (fun w => Word.bit w 6) (Mach.rd_setAe_other (by decide))).trans hirq)
        tells := by
          rw [if_pos hrecovers]
          exact htold.aeRecover (by simp [aeRegs]) (by simp [aeRegs]) }
    · rw [if_neg fun h => hrecovers (hrec.1 h)]
      exact {
        net := hnet
        state := hstate.trans (if_neg (not_or.2 ⟨hstate ▸ hone, hrecovers⟩)).symm
        safe := congrArg Mach.safe hm'.symm
        losses := hloss
        errors := herr
        mailbox := hbox
        irq := hirq
        tells := by
          rw [if_neg hrecovers]
          exact htold }
end

/-! ### The clauses of a message received -/

section
variable {cyc : Nat} {s : State} {rest : List (Nat × List Nat)} {c : Nat} {x : AeMsg} {y : AeConn}

/-- The step that judges the message that comes. -/
theorem aeStep_comes (h : AeComes s rest c x y) : aeStep (s.at cyc) = ((s.at cyc).inboxTaken rest).aeJudged c x := by
  obtain ⟨f, frame, hin, hx, hc, -⟩ := h
  exact (aeStep_cons (m := s.at cyc) hin).trans (Mach.aeMessage_judged (m := (s.at cyc).inboxTaken rest) hx hc)

theorem aeComes_lt (h : AeComes s rest c x y) : c < 8 := by
  obtain ⟨f, frame, -, -, hc, -⟩ := h
  exact List.mem_range.1 (List.mem_of_find?_eq_some hc)

theorem aeComes_conn (h : AeComes s rest c x y) : c < s.m.safe.conns.length ∧ s.m.conn c = y := by
  obtain ⟨f, frame, -, -, -, hy⟩ := h
  exact conn_of_getElem hy

theorem inboxTaken_tells (regs : List Nat) : (s.at cyc).FocTells regs [] ((s.at cyc).inboxTaken rest) :=
  (Mach.FocTells.refl (s.at cyc) regs).onNet _

variable (hcomes : AeComes s rest c x y)
include hcomes

theorem ae_accepted_clause {lost : Nat} (hgood : s.m.aeCrc c x.body = x.crc ∧ (s.m.aeCfg c).bits 9 0 = x.wd)
    (hseq : y.sequence ((s.m.aeCfg c).bits 17 10) x = some (true, lost)) (hack : y.ackOk x = true) :
    let recovers := s.m.aeState c = 3 ∧ 3 ≤ y.okRun ∧ (s.m.aeCfg c).bit 30 = false
    ∃ t, exec (.aeddyReceive cyc) s = .next t ∧ t.m.net.safetyInbox = rest ∧
      t.m.aeState c = (if s.m.aeState c = 1 ∨ recovers then 2 else s.m.aeState c) ∧
      t.m.safe = { s.m.safe with
        strayTold := false
        conns := upd s.m.safe.conns c fun y => { y with
          last := some x.seq, wdAt := (s.at cyc).now, errRun := 0, okRun := min (y.okRun + 1) 4, told := false
          bits := if x.flags.testBit 0 then 0 else ofLeBytes (x.payload.take 2) &&& s.m.fld (Reg.SAFE_AE_CFG_W2 c) 31 16 } } ∧
      t.m.fld Reg.SAFE_AECNT 15 0 = min (s.m.fld Reg.SAFE_AECNT 15 0 + lost) 0xFFFF ∧
      t.m.fld Reg.SAFE_AECNT 31 16 = s.m.fld Reg.SAFE_AECNT 31 16 ∧
      (∀ w : Fin 12, (t.m.rd (Reg.SAFE_MBOX_RX c w)).toNat =
        ofLeBytes (((padTo 48 (x.payload.drop 2)).drop (4 * w.val)).take 4) % 2 ^ 32) ∧
      t.m.bit Reg.SAFE_IRQ_STAT 6 = true ∧
      Raises s t (if recovers then [eventAt (s.at cyc) 0x400A 0 0xFF [] 0] else []) ∧
      SameRegsBut s t (aeRegs c) ∧ SameMemory s t := by
  intro recovers
  obtain ⟨hlen, hy⟩ := aeComes_conn hcomes
  subst hy
  have hacc := Mach.aeAccept_accepts (m := (s.at cyc).inboxTaken rest) (x := x) (lost := lost) inboxTaken_tells (aeComes_lt hcomes) hlen
  have hsafe := hacc.safe.trans Mach.aeTaken_safe
  have hjudged : aeStep (s.at cyc) = ((s.at cyc).inboxTaken rest).aeAccept c x lost := (aeStep_comes hcomes).trans
    (Mach.aeJudged_accepted (m := (s.at cyc).inboxTaken rest) hgood hseq hack)
  generalize ((s.at cyc).inboxTaken rest).aeAccept c x lost = m' at hacc hsafe hjudged
  obtain ⟨t, ht, hm, hregs, hmem, hev⟩ := run_makes (f := aeStep) hjudged hacc.tells
  refine ⟨t, ht, ?_, ?_, ?_, ?_, ?_, fun w => ?_, ?_, hev, hregs, hmem⟩
  · rw [hm, Mach.settle_net, hacc.net]
    rfl
  · exact (Mach.aeState_congr (by rw [hm, Mach.settle_rd]) c).trans hacc.state
  · rw [hm, Mach.settle_safe]
    exact hsafe
  · rw [hm, Mach.settle_fld]
    exact hacc.losses
  · rw [hm, Mach.settle_fld]
    exact hacc.errors
  · rw [hm, Mach.settle_rd]
    exact hacc.mailbox w w.isLt
  · rw [hm, Mach.settle_bit]
    exact hacc.irq

theorem ae_duplicate_clause (hgood : s.m.aeCrc c x.body = x.crc ∧ (s.m.aeCfg c).bits 9 0 = x.wd)
    (hseq : y.sequence ((s.m.aeCfg c).bits 17 10) x = none) :
    ∃ t, exec (.aeddyReceive cyc) s = .next t ∧ t.m.net.safetyInbox = rest ∧ t.m.safe = s.m.safe ∧ Quiet s t [] := by
  obtain ⟨-, hy⟩ := aeComes_conn hcomes
  subst hy
  obtain ⟨t, ht, hm, hq⟩ := run_quiet (f := aeStep) (regs := []) ((aeStep_comes hcomes).trans
    (Mach.aeJudged_duplicate (m := (s.at cyc).inboxTaken rest) hgood hseq)) (fun b _ => State.at_rd cyc s b) rfl
  exact ⟨t, ht, hm ▸ congrArg NetState.safetyInbox (Mach.settle_net ..), hm ▸ Mach.settle_safe .., hq⟩

theorem aeJudged_error (h : ¬(s.m.aeCrc c x.body = x.crc ∧ (s.m.aeCfg c).bits 9 0 = x.wd) ∨
      (∃ lost, y.sequence ((s.m.aeCfg c).bits 17 10) x = some (false, lost)) ∨
      ((∃ lost, y.sequence ((s.m.aeCfg c).bits 17 10) x = some (true, lost)) ∧ y.ackOk x = false)) :
    ((s.at cyc).inboxTaken rest).aeJudged c x = ((s.at cyc).inboxTaken rest).aeError c := by
  obtain ⟨-, hy⟩ := aeComes_conn hcomes
  subst hy
  by_cases hgood : s.m.aeCrc c x.body = x.crc ∧ (s.m.aeCfg c).bits 9 0 = x.wd
  · obtain ⟨lost, hseq⟩ | ⟨⟨lost, hseq⟩, hack⟩ := h.resolve_left (not_not.2 hgood)
    · exact Mach.aeJudged_unordered (m := (s.at cyc).inboxTaken rest) hgood hseq
    · exact Mach.aeJudged_unacked (m := (s.at cyc).inboxTaken rest) hgood hseq hack
  · exact Mach.aeJudged_bad (m := (s.at cyc).inboxTaken rest) hgood

theorem ae_error_clause (h : ¬(s.m.aeCrc c x.body = x.crc ∧ (s.m.aeCfg c).bits 9 0 = x.wd) ∨
      (∃ lost, y.sequence ((s.m.aeCfg c).bits 17 10) x = some (false, lost)) ∨
      ((∃ lost, y.sequence ((s.m.aeCfg c).bits 17 10) x = some (true, lost)) ∧ y.ackOk x = false)) :
    let fails := 7 ≤ y.errRun ∧ s.m.aeState c ≠ 3
    ∃ t, exec (.aeddyReceive cyc) s = .next t ∧ t.m.net.safetyInbox = rest ∧
      t.m.aeState c = (if fails then 3 else s.m.aeState c) ∧
      t.m.safe = { s.m.safe with
        conns := upd s.m.safe.conns c fun y =>
          if fails then { y with errRun := 0, okRun := 0, told := true, bits := 0 }
          else { y with errRun := y.errRun + 1, okRun := 0, told := true } } ∧
      t.m.fld Reg.SAFE_AECNT 31 16 = min (s.m.fld Reg.SAFE_AECNT 31 16 + 1) 0xFFFF ∧
      t.m.fld Reg.SAFE_AECNT 15 0 = s.m.fld Reg.SAFE_AECNT 15 0 ∧
      Raises s t ((if y.told then [] else [eventAt (s.at cyc) 0x400B 0 0xFF [] 0]) ++
        (if fails then [eventAt (s.at cyc) 0x4009 1 0xFF [] 0] else [])) ∧
      (y.told = false ∨ fails → t.m.bit Reg.SAFE_IRQ_STAT 4 = true) ∧
      SameRegsBut s t [Reg.SAFE_AEDDY, Reg.SAFE_AECNT, Reg.SAFE_IRQ_STAT] ∧ SameMemory s t := by
  intro fails
  have hjudged : aeStep (s.at cyc) = ((s.at cyc).inboxTaken rest).aeError c := (aeStep_comes hcomes).trans (aeJudged_error hcomes h)
  obtain ⟨hlen, hy⟩ := aeComes_conn hcomes
  subst hy
  have herred := Mach.aeError_errs (m := (s.at cyc).inboxTaken rest) inboxTaken_tells (aeComes_lt hcomes) hlen
  generalize ((s.at cyc).inboxTaken rest).aeError c = m' at herred hjudged
  obtain ⟨t, ht, hm, hregs, hmem, hev⟩ := run_makes (f := aeStep) hjudged herred.tells
  refine ⟨t, ht, ?_, ?_, ?_, ?_, ?_, hev, fun h => ?_, hregs, hmem⟩
  · rw [hm, Mach.settle_net, herred.net]
    rfl
  · exact (Mach.aeState_congr (by rw [hm, Mach.settle_rd]) c).trans herred.state
  · rw [hm, Mach.settle_safe]
    exact herred.safe
  · rw [hm, Mach.settle_fld]
    exact herred.errors
  · rw [hm, Mach.settle_fld]
    exact herred.losses
  · rw [hm, Mach.settle_bit]
    exact herred.irq h
end

section
variable {cyc : Nat} {s : State}

theorem ae_stray_clause {f : Nat} {frame : List Nat} {rest : List (Nat × List Nat)} (hin : s.m.net.safetyInbox = (f, frame) :: rest)
    (h : ∀ x, AeMsg.ofBytes (aeBytes (s.m.flowPort f) frame) = some x → ∀ c : Fin 8,
      ((s.m.aeCfg c).bit 31 && (s.m.aeCfg c).bits 29 24 == f && (s.m.rd (Reg.SAFE_AE_CFG_W0 c)).toNat == x.cid) = false) :
    ∃ t, exec (.aeddyReceive cyc) s = .next t ∧ t.m.net.safetyInbox = rest ∧ t.m.safe = { s.m.safe with strayTold := true } ∧
      t.m.fld Reg.SAFE_AECNT 31 16 = min (s.m.fld Reg.SAFE_AECNT 31 16 + 1) 0xFFFF ∧
      t.m.fld Reg.SAFE_AECNT 15 0 = s.m.fld Reg.SAFE_AECNT 15 0 ∧
      Raises s t (if s.m.safe.strayTold then [] else [eventAt (s.at cyc) 0x400B 0 0xFF [] 0]) ∧
      SameRegsBut s t [Reg.SAFE_AECNT, Reg.SAFE_IRQ_STAT] ∧ SameMemory s t := by
  have hstep : aeStep (s.at cyc) = ((((s.at cyc).inboxTaken rest).incSat Reg.SAFE_AECNT 31 16).onSafe fun s => { s with strayTold := true }).aeTold
      s.m.safe.strayTold :=
    (aeStep_cons (m := s.at cyc) hin).trans (Mach.aeMessage_stray (m := (s.at cyc).inboxTaken rest) fun x hx c hc => h x hx ⟨c, hc⟩)
  obtain ⟨t, ht, hm, hregs, hmem, hev⟩ := run_makes hstep
    (Mach.FocTells.aeTold (((inboxTaken_tells [Reg.SAFE_AECNT, Reg.SAFE_IRQ_STAT]).incSat (by simp) aecnt_not_stamp 31 16).onSafe _) (by simp))
  refine ⟨t, ht, ?_, ?_, ?_, ?_, hev, hregs, hmem⟩
  · rw [hm, Mach.settle_net, Mach.aeTold_net]
    rfl
  · rw [hm, Mach.settle_safe, Mach.aeTold_safe]
    rfl
  · rw [hm, Mach.settle_fld, Mach.aeTold_fld (by decide)]
    exact Mach.fld_incSat _ (by decide) (by decide)
  · rw [hm, Mach.settle_fld, Mach.aeTold_fld (by decide)]
    exact Mach.fld_setFld_other _ _ (by decide) (by decide) (by decide) (.inr (by decide))

theorem ae_nothing_clause (h : s.m.net.safetyInbox = []) :
    ∃ t, exec (.aeddyReceive cyc) s = .next t ∧ t.m.safe = s.m.safe ∧ t.m.net = s.m.net ∧ Quiet s t [] := by
  obtain ⟨t, ht, hm, hq⟩ := run_idle (f := aeStep) (aeStep_nil (m := s.at cyc) h)
  exact ⟨t, ht, hm ▸ Mach.settle_safe .., hm ▸ Mach.settle_net .., hq⟩

/-! ### The watchdog and AEACK (R421) -/

/-- AEDDY_WATCHDOG_EXPIRY. -/
def aeWatch (c : Nat) (m : Mach) : Mach :=
  if m.aeState c == 2 && decide ((m.conn c).wdAt + oneMilli * (m.aeCfg c).bits 9 0 ≤ m.now) then m.aeFail c else m

theorem aeWatch_due_iff {m : Mach} {c : Nat} : (m.aeState c == 2 && decide ((m.conn c).wdAt + oneMilli * (m.aeCfg c).bits 9 0 ≤ m.now)) = true ↔
    m.aeState c = 2 ∧ (m.conn c).wdAt + oneMilli * (m.aeCfg c).bits 9 0 ≤ m.now := by
  rw [Bool.and_eq_true, beq_iff_eq, decide_eq_true_iff]

theorem ae_watchdog_clause (c : Fin 8) :
    let due := s.m.aeState c = 2 ∧ (s.m.conn c).wdAt + oneMilli * (s.m.aeCfg c).bits 9 0 ≤ (s.at cyc).now
    (due → ∃ t, exec (.aeddyWatchdogExpiry cyc c) s = .next t ∧ t.m.aeState c = 3 ∧
      t.m.safe = { s.m.safe with
        conns := upd s.m.safe.conns c fun y => { y with errRun := 0, okRun := 0, bits := 0 } } ∧
      Raises s t [eventAt (s.at cyc) 0x4009 1 0xFF [] 0] ∧ t.m.bit Reg.SAFE_IRQ_STAT 4 = true ∧
      (∀ d : Fin 8, d ≠ c → t.m.aeState d = s.m.aeState d) ∧
      SameRegsBut s t [Reg.SAFE_AEDDY, Reg.SAFE_IRQ_STAT] ∧ SameMemory s t) ∧
    (¬due → ∃ t, exec (.aeddyWatchdogExpiry cyc c) s = .next t ∧ t.m.safe = s.m.safe ∧ Quiet s t []) := by
  intro due
  refine ⟨fun hdue => ?_, fun hdue => ?_⟩
  · obtain ⟨t, ht, hm, hregs, hmem, hev⟩ := run_makes (f := aeWatch c) (if_pos ((aeWatch_due_iff (m := s.at cyc)).2 hdue))
      ((Mach.FocTells.refl (s.at cyc) [Reg.SAFE_AEDDY, Reg.SAFE_IRQ_STAT]).aeFail (c := c) (by simp) (by simp))
    have hstate : ∀ d, t.m.aeState d = ((s.at cyc).aeFail c).aeState d := Mach.aeState_congr (by rw [hm, Mach.settle_rd])
    refine ⟨t, ht, (hstate c).trans (Mach.aeFail_state c.isLt), ?_, hev, ?_, fun d hd => ?_, hregs, hmem⟩
    · rw [hm, Mach.settle_safe]
      rfl
    · rw [hm, Mach.settle_bit]
      exact Mach.aeFail_bit
    · exact (hstate d).trans (Mach.aeFail_state_other c.isLt fun h => hd (Fin.ext h))
  · obtain ⟨t, ht, hm, hq⟩ := run_idle (f := aeWatch c) (if_neg fun h => hdue ((aeWatch_due_iff (m := s.at cyc)).1 h))
    exact ⟨t, ht, hm ▸ Mach.settle_safe .., hq⟩
end

section
variable {m m₀ m' : Mach} {n : Nat}

theorem forN_succ (n : Nat) (f : Nat → Mach → Mach) (m : Mach) : forN (n + 1) f m = f n (forN n f m) := by
  rw [forN, List.range_succ, List.foldl_append]
  rfl

/-- AEACK on one connection. -/
def ackStep (c : Nat) (m : Mach) : Mach := if aeAcked m c then m.aeRecover c else m

theorem Mach.aeAck_eq : m.aeAck = forN 8 ackStep m := rfl

/-- What AEACK leaves after its first `n` connections. -/
structure Mach.AckedTo (m₀ m : Mach) (n : Nat) (m' : Mach) : Prop where
  safe : m'.safe = m.safe
  rd : ∀ b, b ≠ Reg.SAFE_AEDDY → b ≠ Reg.SAFE_IRQ_STAT → m'.rd b = m.rd b
  done : ∀ d < n, m'.aeState d = if aeAcked m d then 2 else m.aeState d
  left : ∀ d, n ≤ d → m'.aeState d = m.aeState d
  irq : (List.range n).filter (aeAcked m) ≠ [] → m'.bit Reg.SAFE_IRQ_STAT 4 = true
  tells : m₀.FocTells [Reg.SAFE_AEDDY, Reg.SAFE_IRQ_STAT]
    (((List.range n).filter (aeAcked m)).map fun _ => eventAt m₀ 0x400A 0 0xFF [] 0) m'

theorem Mach.AckedTo.acked (h : m₀.AckedTo m n m') : aeAcked m' n = aeAcked m n := by
  have hcfg : m'.aeCfg n = m.aeCfg n := h.rd _ (by unfold Reg.SAFE_AE_CFG_W1 Reg.SAFE_AEDDY; omega)
    (by unfold Reg.SAFE_AE_CFG_W1 Reg.SAFE_IRQ_STAT; omega)
  rw [aeAcked, hcfg, h.left n le_rfl, Mach.conn, h.safe, aeAcked, Mach.conn]

theorem Mach.AckedTo.step (h : m₀.AckedTo m n m') (hn : n < 8) : m₀.AckedTo m (n + 1) (ackStep n m') := by
  have hrange : (List.range (n + 1)).filter (aeAcked m) = (List.range n).filter (aeAcked m) ++ if aeAcked m n then [n] else [] := by
    rw [List.range_succ, List.filter_append, List.filter_singleton, Bool.cond_eq_ite]
  unfold ackStep
  rw [h.acked]
  cases hacked : aeAcked m n with
  | true =>
    rw [hacked, if_pos rfl] at hrange
    rw [if_pos rfl]
    exact {
      safe := h.safe
      rd := fun b hb hb' => (Mach.aeRecover_rd hb').trans ((Mach.rd_setAe_other hb).trans (h.rd b hb hb'))
      done := fun d hd => by
        obtain hlt | rfl := Nat.lt_succ_iff_lt_or_eq.1 hd
        · exact (Mach.aeRecover_state_other hn (Nat.ne_of_lt hlt)).trans (h.done d hlt)
        · rw [hacked, if_pos rfl]
          exact Mach.aeRecover_state hn
      left := fun d hd => (Mach.aeRecover_state_other hn (by omega)).trans (h.left d (by omega))
      irq := fun _ => Mach.bit_safeIrq _ (by decide)
      tells := by
        rw [hrange, List.map_append]
        exact h.tells.aeRecover (by simp) (by simp) }
  | false =>
    rw [hacked, if_neg Bool.false_ne_true, List.append_nil] at hrange
    rw [if_neg Bool.false_ne_true]
    exact {
      safe := h.safe
      rd := h.rd
      done := fun d hd => by
        obtain hlt | rfl := Nat.lt_succ_iff_lt_or_eq.1 hd
        · exact h.done d hlt
        · rw [hacked, if_neg Bool.false_ne_true]
          exact h.left d le_rfl
      left := fun d hd => h.left d (by omega)
      irq := fun hne => h.irq (by rwa [hrange] at hne)
      tells := by
        rw [hrange]
        exact h.tells }

theorem Mach.aeAck_acks (h : m₀.FocTells [Reg.SAFE_AEDDY, Reg.SAFE_IRQ_STAT] [] m) : m₀.AckedTo m 8 m.aeAck := by
  have hall : ∀ n ≤ 8, m₀.AckedTo m n (forN n ackStep m) := fun n hn => by
    induction n with
    | zero => exact ⟨rfl, fun _ _ _ => rfl, fun d hd => absurd hd (Nat.not_lt_zero d), fun _ _ => rfl, fun hne => absurd rfl hne, h⟩
    | succ n ih =>
      rw [forN_succ]
      exact (ih (by omega)).step (by omega)
  rw [Mach.aeAck_eq]
  exact hall 8 le_rfl
end

section
variable {cyc : Nat} {s : State} {l : Lane} {v : Word}

theorem ae_ack_clause (hroute : s.m.route l = .now) (hv : v.bit 0 = true) :
    let acked := (List.range 8).filter (aeAcked s.m)
    ∃ t, exec (.aeddyAck cyc (.lane l) v) s = .next t ∧ t.m.safe = s.m.safe ∧
      (∀ c : Fin 8, t.m.aeState c = (if aeAcked s.m c then 2 else s.m.aeState c)) ∧
      (acked ≠ [] → t.m.bit Reg.SAFE_IRQ_STAT 4 = true) ∧
      Raises s t (acked.map fun _ => eventAt (s.at cyc) 0x400A 0 0xFF [] 0) ∧
      SameRegsBut s t [Reg.SAFE_AEDDY, Reg.SAFE_IRQ_STAT] ∧ SameMemory s t := by
  intro acked
  obtain ⟨g, hg⟩ := (s.at cyc).noted_eq_onLane l Reg.SAFE_CMD v
  have hacks := Mach.aeAck_acks ((Mach.FocTells.refl (s.at cyc) [Reg.SAFE_AEDDY, Reg.SAFE_IRQ_STAT]).onLane l g)
  have heff : ((s.at cyc).noted l Reg.SAFE_CMD v).safeCommand v = ((s.at cyc).onLane l g).aeAck := by
    rw [hg]
    exact if_pos hv
  have hsame : aeAcked ((s.at cyc).onLane l g) = aeAcked s.m := rfl
  generalize hw : (s.at cyc).onLane l g = w at hacks heff hsame
  obtain ⟨t, ht, hm, hregs, hmem, hev⟩ := run_devWrite_now hroute heff hacks.tells
  rw [hsame] at hev
  refine ⟨t, ht, ?_, fun c => ?_, fun hne => ?_, hev, hregs, hmem⟩
  · rw [hm, Mach.settle_safe, hacks.safe, ← hw]
    rfl
  · refine (Mach.aeState_congr (by rw [hm, Mach.settle_rd]) c.val).trans ((hacks.done c c.isLt).trans ?_)
    rw [hsame, ← hw]
    rfl
  · rw [hm, Mach.settle_bit]
    exact hacks.irq (by rw [hsame]; exact hne)

theorem ae_noAck_clause (hroute : s.m.route l = .now) (hv : v.bit 0 = false) :
    ∃ t, exec (.aeddyAck cyc (.lane l) v) s = .next t ∧ t.m.safe = s.m.safe ∧ Quiet s t [] := by
  obtain ⟨g, hg⟩ := (s.at cyc).noted_eq_onLane l Reg.SAFE_CMD v
  obtain ⟨t, ht, hm, hregs, hmem, hev⟩ := run_devWrite_now hroute
    (show ((s.at cyc).noted l Reg.SAFE_CMD v).safeCommand v = (s.at cyc).onLane l g by rw [hg]; exact if_neg (by rw [hv]; decide))
    ((Mach.FocTells.refl (s.at cyc) []).onLane l g)
  exact ⟨t, ht, hm ▸ Mach.settle_safe .., hregs, hmem, hev⟩
end

/-! ### A connection sends (R418, R422) -/

section
variable {m : Mach} {f : Nat} {msg : List Nat}

theorem Mach.aeFrame_can (h : 3 ≤ m.flowPort f) : m.aeFrame f msg = (msg, m) := if_pos h

/-- The frame of a message on Ethernet. -/
def Mach.etherFrame (m : Mach) (f : Nat) (msg dst : List Nat) (pri : Nat) : List Nat :=
  dst ++ (leBytes 4 (m.rd (Reg.NET_P_MACLO (m.flowPort f))).toNat ++ leBytes 2 (m.fld (Reg.NET_P_MACHI (m.flowPort f)) 15 0)) ++
    (if m.fld (Reg.NET_FLOW_W1 f) 31 20 = 0xFFF then [] else [0x81, 0x00] ++ beBytes 2 (pri * 2 ^ 12 + m.fld (Reg.NET_FLOW_W1 f) 31 20)) ++
    beBytes 2 ((m.flow f).bits 15 0) ++ msg

theorem Mach.aeFrame_ether (h : ¬3 ≤ m.flowPort f) : ∃ dst pri, dst.length = 6 ∧ pri < 16 ∧
    m.aeFrame f msg = (m.etherFrame f msg dst pri, (m.spend 6).spend 1) :=
  ⟨(m.freeBytes 6).1, ((m.freeBytes 6).2.freeVal 4).1, Mach.length_freeBytes _ _, Nat.mod_lt _ (by decide), if_neg h⟩

theorem Mach.aeSend_sends {c : Nat} (hcfg : (m.aeCfg c).bit 31 = true) (hmode : m.mode ≠ .sleep) (hboot : m.pwr.booted = true) :
    m.aeSend c = ((((m.aeFrame ((m.aeCfg c).bits 23 18) (m.aeForm c)).2.onConn c fun y => { y with sent := y.sent + 1 }).safeIrq 7).netQueue
      ⟨(m.aeCfg c).bits 23 18, (m.aeFrame ((m.aeCfg c).bits 23 18) (m.aeForm c)).1,
        (((m.aeFrame ((m.aeCfg c).bits 23 18) (m.aeForm c)).2.onConn c fun y => { y with sent := y.sent + 1 }).safeIrq 7).seq, 0⟩) := by
  refine if_neg ?_
  rw [hcfg, hboot, beq_eq_false_iff_ne.2 hmode]
  decide

theorem Mach.aeSend_rests {c : Nat} (h : ¬((m.aeCfg c).bit 31 = true ∧ m.mode ≠ .sleep ∧ m.pwr.booted = true)) : m.aeSend c = m := by
  refine if_pos ?_
  rw [Bool.or_eq_true, Bool.or_eq_true, Bool.not_eq_true', Bool.not_eq_true', beq_iff_eq]
  by_contra hno
  obtain ⟨hno, hboot⟩ := not_or.1 hno
  obtain ⟨hcfg, hmode⟩ := not_or.1 hno
  exact h ⟨Bool.not_eq_false _ ▸ hcfg, hmode, Bool.not_eq_false _ ▸ hboot⟩
end

section
variable {cyc : Nat} {s : State}

theorem State.at_aeForm (c : Nat) : (s.at cyc).aeForm c = s.m.aeForm c := rfl

theorem State.at_aeCfg (c : Nat) : (s.at cyc).aeCfg c = s.m.aeCfg c := rfl

theorem Mach.netQueue_safe {m : Mach} {x : TxMsg} : (m.netQueue x).safe = m.safe := by
  unfold Mach.netQueue
  exact iteInduction (motive := fun m' : Mach => m'.safe = m.safe) (fun _ => rfl) fun _ => rfl

/-- What a connection that sends does, where `w` is the machine with the free values used and `data` the frame. -/
theorem exec_aeddyTransmit {c : Fin 8} {w : Mach} {data : List Nat}
    (hsends : (s.m.aeCfg c).bit 31 = true ∧ s.m.mode ≠ .sleep ∧ s.m.pwr.booted = true)
    (hframe : (s.at cyc).aeFrame ((s.m.aeCfg c).bits 23 18) (s.m.aeForm c) = (data, w)) (hw : ∀ regs, (s.at cyc).FocTells regs [] w)
    (hsafe : w.safe = s.m.safe) (hnet : w.net = s.m.net) (hrd : ∀ b, w.rd b = s.m.rd b) :
    ∃ t, exec (.aeddyTransmit cyc c) s = .next t ∧
      t.m.safe = { s.m.safe with conns := upd s.m.safe.conns c fun y => { y with sent := y.sent + 1 } } ∧
      t.m.bit Reg.SAFE_IRQ_STAT 7 = true ∧ Queued s t cyc ⟨(s.m.aeCfg c).bits 23 18, data, s.m.seq, 0⟩ [Reg.SAFE_IRQ_STAT] := by
  obtain ⟨hcfg, hmode, hboot⟩ := hsends
  have hsend := Mach.aeSend_sends (m := s.at cyc) (c := c) hcfg hmode hboot
  rw [State.at_aeForm, State.at_aeCfg, hframe] at hsend
  have htold : ∀ regs, [Reg.SAFE_IRQ_STAT] ⊆ regs →
      (s.at cyc).FocTells regs [] ((w.onConn c fun y => { y with sent := y.sent + 1 }).safeIrq 7) := fun regs hregs =>
    ((hw regs).onSafe _).safeIrq (hregs (by simp)) 7
  have hseq : ((w.onConn c fun y => { y with sent := y.sent + 1 }).safeIrq 7).seq = s.m.seq := (htold _ (List.Subset.refl _)).seq_eq
  dsimp only at hsend
  rw [hseq] at hsend
  obtain ⟨t, ht, hm, hq⟩ := run_queues (f := fun m => m.aeSend c) (g := fun m => m) (regs := [Reg.SAFE_IRQ_STAT]) hsend
    (congrArg NetState.ports hnet)
    (show Word.bits (((w.onConn c fun y => { y with sent := y.sent + 1 }).safeIrq 7).rd (Reg.NET_FLOW_W0 _)) 25 23 = _ by
      rw [Mach.rd_safeIrq_other (by unfold Reg.NET_FLOW_W0 Reg.SAFE_IRQ_STAT; omega)]
      exact congrArg (fun r => Word.bits r 25 23) (hrd _)) htold (fun _ _ _ _ h => h) fun _ => rfl
  refine ⟨t, ht, ?_, ?_, hq⟩
  · rw [hm, Mach.settle_safe, Mach.netQueue_safe]
    change ({ w.safe with conns := upd w.safe.conns c _ } : SafeState) = _
    rw [hsafe]
  · rw [hm, Mach.settle_bit]
    exact (congrArg (fun r => Word.bit r 7) (Mach.netQueue_rd (by decide))).trans (Mach.bit_safeIrq _ (by decide))

theorem ae_transmit_clause {c : Fin 8} {y : AeConn} (hsends : (s.m.aeCfg c).bit 31 = true ∧ s.m.mode ≠ .sleep ∧ s.m.pwr.booted = true)
    (hy : s.m.safe.conns[c.val]? = some y) :
    let f := (s.m.aeCfg c).bits 23 18
    let q := s.m.flowPort f
    let failsafe := s.m.safe.sp.lost || s.m.safe.bed.lost || (s.m.mode == .safeHold && s.m.sys.holdByF4)
    let bits := s.m.fld Reg.SAFE_FUNC 15 0 &&& s.m.fld (Reg.SAFE_AE_CFG_W2 c) 15 0
    let body := leBytes 4 (s.m.rd (Reg.SAFE_AE_CFG_W0 c)).toNat ++ leBytes 2 y.sent ++ leBytes 2 (y.last.getD 0) ++
      [failsafe.toNat + 2 * (y.sent == 0).toNat, 48] ++ leBytes 2 ((s.m.aeCfg c).bits 9 0) ++ leBytes 2 bits ++
      ((List.range 12).flatMap fun w => leBytes 4 (s.m.rd (Reg.SAFE_MBOX_TX c w)).toNat).take 46
    let msg := body ++ leBytes 4 (s.m.aeCrc c body)
    let src := leBytes 4 (s.m.rd (Reg.NET_P_MACLO q)).toNat ++ leBytes 2 (s.m.fld (Reg.NET_P_MACHI q) 15 0)
    let vid := s.m.fld (Reg.NET_FLOW_W1 f) 31 20
    ∃ t dst pri, exec (.aeddyTransmit cyc c) s = .next t ∧ dst.length = 6 ∧ pri < 16 ∧
      t.m.safe = { s.m.safe with conns := upd s.m.safe.conns c fun y => { y with sent := y.sent + 1 } } ∧
      t.m.bit Reg.SAFE_IRQ_STAT 7 = true ∧
      Queued s t cyc ⟨f, if 3 ≤ q then msg else
        dst ++ src ++ (if vid = 0xFFF then [] else [0x81, 0x00] ++ beBytes 2 (pri * 2 ^ 12 + vid)) ++
          beBytes 2 ((s.m.flow f).bits 15 0) ++ msg, s.m.seq, 0⟩ [Reg.SAFE_IRQ_STAT] := by
  intro f q failsafe bits body msg src vid
  obtain ⟨-, hconn⟩ := conn_of_getElem hy
  have hform : s.m.aeForm c = msg := by
    subst hconn
    rfl
  clear_value msg
  by_cases hq : 3 ≤ q
  · obtain ⟨t, ht, hsafe, hbit, hqueued⟩ := exec_aeddyTransmit (cyc := cyc) hsends (Mach.aeFrame_can (m := s.at cyc) hq)
      (fun regs => Mach.FocTells.refl (s.at cyc) regs) rfl rfl fun _ => rfl
    refine ⟨t, List.replicate 6 0, 0, ht, List.length_replicate, by decide, hsafe, hbit, ?_⟩
    rw [if_pos hq, ← hform]
    exact hqueued
  · obtain ⟨dst, pri, hdst, hpri, hframe⟩ := Mach.aeFrame_ether (m := s.at cyc) (msg := s.m.aeForm c) hq
    obtain ⟨t, ht, hsafe, hbit, hqueued⟩ := exec_aeddyTransmit (cyc := cyc) hsends hframe
      (fun regs => ((Mach.FocTells.refl (s.at cyc) regs).spend 6).spend 1) rfl rfl fun _ => rfl
    refine ⟨t, dst, pri, ht, hdst, hpri, hsafe, hbit, ?_⟩
    rw [if_neg hq, ← hform]
    exact hqueued

theorem ae_rests_clause {c : Fin 8} (h : ¬((s.m.aeCfg c).bit 31 = true ∧ s.m.mode ≠ .sleep ∧ s.m.pwr.booted = true)) :
    ∃ t, exec (.aeddyTransmit cyc c) s = .next t ∧ t.m.safe = s.m.safe ∧ t.m.net = s.m.net ∧ Quiet s t [] := by
  obtain ⟨t, ht, hm, hq⟩ := run_idle (f := fun m => m.aeSend c) (Mach.aeSend_rests (m := s.at cyc) h)
  exact ⟨t, ht, hm ▸ Mach.settle_safe .., hm ▸ Mach.settle_net .., hq⟩
end

/-- Settles O51: a message received by how its connection judges it, the watchdog and AEACK by the state of each connection, and a
message sent by its form. -/
theorem safeChannelMessages : Obligations.SafeChannelMessages := by
  refine ⟨?_, fun cyc s f frame rest hin h => ae_stray_clause hin h, fun cyc s h => ae_nothing_clause h, fun cyc c s => ae_watchdog_clause c,
    ?_, ?_⟩
  · intro cyc s rest c x y hcomes good seq
    exact ⟨fun lost hgood hseq hack => ae_accepted_clause hcomes hgood hseq hack, fun hgood hseq => ae_duplicate_clause hcomes hgood hseq,
      fun h => ae_error_clause hcomes h⟩
  · intro cyc l v s
    exact ⟨ae_ack_clause, ae_noAck_clause, routedElsewhere_devWrite _ _ _ s cyc, nothingDone_of_run (f := fun m => m) rfl⟩
  · intro cyc c s sends
    exact ⟨fun y hsends hy => ae_transmit_clause hsends hy, ae_rests_clause⟩

end Sys2Proof.Machine
end

section
/-! The rings' engines step by step: fetching, completing, halting (R355 to R358, R365, R366). -/

namespace Sys2Proof.Machine

/-! ### What an engine's step leaves -/

section
variable (m : Mach) (l : Lane) (r : Nat)

/-- The registers that show what is outstanding and parked (R371). -/
abbrev showRegs (l : Lane) (r : Nat) : List Nat := [Reg.DMA_R_STAT l.ix r, Reg.DMA_L_STATUS l.ix, Reg.DMA_L_FSTAT l.ix]

/-- From `m` on the engines of one ring have worked: it stands as `g`, in state `c`, and no other part of the DMA has changed. -/
structure Mach.Engine (m : Mach) (l : Lane) (r : Nat) (regs : List Nat) (es : List Event) (g : DmaRing) (c : Nat) (m' : Mach) : Prop where
  tells : m.FocTells regs es m'
  here : m.hasRing l r
  dma : m'.dma = (m.onRing l r fun _ => g).dma
  state : m'.ringState l r = c

theorem Mach.onRing_self (h : m.hasRing l r) : (m.onRing l r fun _ => m.ring l r).dma = m.dma := by
  have hsame : upd (m.dma.lanes.get l).rings r (fun _ => m.ring l r) = (m.dma.lanes.get l).rings := by
    refine List.ext_getElem? fun i => ?_
    rw [upd, List.getElem?_modify]
    by_cases hi : r = i
    · rw [← hi, h]
      exact congrArg some (if_pos rfl)
    · cases (m.dma.lanes.get l).rings[i]?
      · rfl
      · exact congrArg some (if_neg hi)
  have hlane : (m.dma.lanes.set l { m.dma.lanes.get l with rings := upd (m.dma.lanes.get l).rings r fun _ => m.ring l r }) = m.dma.lanes := by
    rw [hsame]
    cases l <;> rfl
  exact congrArg (fun x => { m.dma with lanes := x }) hlane

theorem Mach.Engine.refl (h : m.hasRing l r) (regs : List Nat) : m.Engine l r regs [] (m.ring l r) (m.ringState l r) m :=
  ⟨.refl m regs, h, (m.onRing_self l r h).symm, rfl⟩

theorem Mach.onRing_onRing_dma (m' : Mach) (g : DmaRing) (f : DmaRing → DmaRing) (h : m'.dma = (m.onRing l r fun _ => g).dma) :
    (m'.onRing l r f).dma = (m.onRing l r fun _ => f g).dma := by
  have hstep : (m'.onRing l r f).dma = ((m.onRing l r fun _ => g).onRing l r f).dma := by
    unfold Mach.onRing Mach.onDmaLane Mach.onDma at h ⊢
    dsimp only at h ⊢
    rw [h]
  have hupd := upd_upd (m.dma.lanes.get l).rings r (fun _ => g) f
  rw [hstep]
  cases l
  · exact congrArg (fun x => (m.onDmaLane .a fun d => { d with rings := x }).dma) hupd
  · exact congrArg (fun x => (m.onDmaLane .b fun d => { d with rings := x }).dma) hupd
end

section
variable {m m' : Mach} {l : Lane} {r : Nat} {regs : List Nat} {es : List Event} {g : DmaRing} {c : Nat}
variable (h : m.Engine l r regs es g c m')
include h

theorem Mach.Engine.ring? : (m'.dma.lanes.get l).rings[r]? = some g := by
  have hthere := Mach.hasRing_onRing h.here fun _ => g
  rw [Mach.hasRing, Mach.ring_onRing h.here] at hthere
  rw [h.dma]
  exact hthere

theorem Mach.Engine.ring : m'.ring l r = g := by
  rw [Mach.ring, nth, List.getD_eq_getElem?_getD, h.ring?]
  rfl

theorem Mach.Engine.has : m'.hasRing l r := by rw [Mach.hasRing, h.ring?, h.ring]

theorem Mach.Engine.mono {regs' : List Nat} (hsub : regs ⊆ regs') : m.Engine l r regs' es g c m' :=
  ⟨h.tells.mono hsub, h.here, h.dma, h.state⟩

theorem Mach.Engine.onRing (f : DmaRing → DmaRing) : m.Engine l r regs es (f g) c (m'.onRing l r f) :=
  ⟨h.tells.onRing l r f, h.here, Mach.onRing_onRing_dma m l r m' g f h.dma, h.state⟩

theorem Mach.Engine.wr {a : Nat} (ha : a ∈ regs) (hs : a ∉ stampRegs) (hne : a ≠ Reg.DMA_R_STAT l.ix r) (w : Word) :
    m.Engine l r regs es g c (m'.wr a w) :=
  ⟨h.tells.wr ha hs w, h.here, h.dma, (congrArg (·.bits 15 14) (Mach.rd_wr_other m' w hne.symm)).trans h.state⟩

theorem Mach.Engine.orr {a : Nat} (ha : a ∈ regs) (hs : a ∉ stampRegs) (hne : a ≠ Reg.DMA_R_STAT l.ix r) (v : Nat) :
    m.Engine l r regs es g c (m'.orr a v) := by
  refine ⟨h.tells.orr_of_not_stamp ha hs v, h.here, h.dma, ?_⟩
  rw [Mach.ringState, Mach.fld, Mach.rd_orr, if_neg hne.symm]
  exact h.state

theorem Mach.Engine.raise (code cls slot : Nat) (d : List Nat) (o : Nat) :
    m.Engine l r regs (es ++ [eventAt m code cls slot d o]) g c (m'.raise code cls slot d o) :=
  ⟨h.tells.raise code cls slot d o, h.here, h.dma, h.state⟩

theorem Mach.Engine.spend (n : Nat) : m.Engine l r regs es g c (m'.spend n) := ⟨h.tells.spend n, h.here, h.dma, h.state⟩

theorem Mach.Engine.setRing (ha : Reg.DMA_R_STAT l.ix r ∈ regs) {c' : Nat} (hc : c' < 4) : m.Engine l r regs es g c' (m'.setRing l r c') :=
  ⟨h.tells.wr ha (ringStat_not_stamp l r) _, h.here, h.dma,
    (Mach.fld_setFld m' c' (by decide) (by decide)).trans (Nat.mod_eq_of_lt hc)⟩

theorem Mach.Engine.ringIrq (ha : Reg.DMA_R_IRQ l.ix r ∈ regs) (bit : Nat) : m.Engine l r regs es g c (m'.ringIrq l r bit) :=
  h.orr ha (ringIrq_not_stamp l r) (ringStat_ne_irq l r).symm _

omit h in
theorem laneStatus_spec (l : Lane) (r : Nat) : (Reg.DMA_L_STATUS l.ix ∉ stampRegs ∧ Reg.DMA_L_FSTAT l.ix ∉ stampRegs) ∧
    Reg.DMA_L_STATUS l.ix ≠ Reg.DMA_R_STAT l.ix r ∧ Reg.DMA_L_FSTAT l.ix ≠ Reg.DMA_R_STAT l.ix r :=
  ⟨by cases l <;> decide, by unfold Reg.DMA_L_STATUS Reg.DMA_R_STAT; omega, by unfold Reg.DMA_L_FSTAT Reg.DMA_R_STAT; omega⟩

omit h in
theorem Mach.ringState_setCount (hi lo v : Nat) (hl : lo ≤ hi) (hh : hi < 14) :
    (m'.setFld (Reg.DMA_R_STAT l.ix r) hi lo v).ringState l r = m'.ringState l r :=
  Mach.fld_setFld_other m' v hl (by omega) (by decide) (.inr (.inr hh))

omit h in
theorem Mach.ringState_wr_other {a : Nat} (ha : a ≠ Reg.DMA_R_STAT l.ix r) (w : Word) : (m'.wr a w).ringState l r = m'.ringState l r :=
  congrArg (·.bits 15 14) (Mach.rd_wr_other m' w ha.symm)

/-- The counts shown anew (R371). -/
theorem Mach.Engine.dmaShow (hsub : showRegs l r ⊆ regs) : m.Engine l r regs es g c (m'.dmaShow l r) := by
  obtain ⟨⟨hs, hf⟩, hne, hne'⟩ := laneStatus_spec l r
  obtain ⟨hstat, hlane, hfault⟩ : Reg.DMA_R_STAT l.ix r ∈ regs ∧ Reg.DMA_L_STATUS l.ix ∈ regs ∧ Reg.DMA_L_FSTAT l.ix ∈ regs := by
    simpa only [showRegs, List.cons_subset, List.nil_subset, and_true] using hsub
  unfold Mach.dmaShow
  extract_lets g₁ m₁ rs rd wr m₂
  have hcounts : m.Engine l r regs es g c m₁ := by
    refine ⟨(h.tells.wr hstat (ringStat_not_stamp l r) _).wr hstat (ringStat_not_stamp l r) _, h.here, h.dma, ?_⟩
    exact (Mach.ringState_setCount 5 0 _ (by decide) (by decide)).trans
      ((Mach.ringState_setCount 13 6 _ (by decide) (by decide)).trans h.state)
  exact ((hcounts.wr hlane hs hne _).wr hlane hs hne _).wr hfault hf hne' _
end

/-! ### Fetching (R355) -/

section
variable (m : Mach) (mem : List Host.Cell) (l : Lane) (r tail : Nat)

/-- The descriptors that wait between HEAD and `tail`. -/
def Mach.posted (m : Mach) (mem : List Host.Cell) (l : Lane) (r tail : Nat) : List DmaDesc :=
  let n := m.ringSize l r
  let start := m.fld (Reg.DMA_R_HEAD l.ix r) 11 0 + (m.ring l r).fetched.length
  (List.range ((tail + n - start % n) % n)).map fun i => m.readDesc mem l r ((m.ring l r).nextSeq + i) ((start + i) % n)

/-- A ring that has fetched some descriptors. -/
def DmaRing.fetching (g : DmaRing) (ds : List DmaDesc) : DmaRing :=
  { g with fetched := g.fetched ++ ds, nextSeq := g.nextSeq + ds.length }

theorem Mach.fetchRing_runs (h : m.ringState l r = 1) :
    m.fetchRing mem l r = m.onRing l r fun g => g.fetching (m.posted mem l r (m.fld (Reg.DMA_R_TAIL l.ix r) 11 0)) := by
  have hruns : ¬m.ringState l r ≠ 1 := not_not.2 h
  refine (if_neg hruns).trans ?_
  unfold DmaRing.fetching Mach.posted
  dsimp only
  simp only [List.length_map, List.length_range]

theorem Mach.fetchRing_rests (h : m.ringState l r ≠ 1) : m.fetchRing mem l r = m := if_pos h

variable {m} in
theorem Mach.posted_congr {m' : Mach} (hrd : ∀ b ∈ [Reg.DMA_R_CFG l.ix r, Reg.DMA_R_BASE_LO l.ix r, Reg.DMA_R_BASE_HI l.ix r,
    Reg.DMA_R_HEAD l.ix r], m'.rd b = m.rd b) (hlen : (m'.ring l r).fetched.length = (m.ring l r).fetched.length)
    (hseq : (m'.ring l r).nextSeq = (m.ring l r).nextSeq) : m'.posted mem l r tail = m.posted mem l r tail := by
  simp only [List.forall_mem_cons] at hrd
  obtain ⟨hcfg, hlo, hhi, hhead, -⟩ := hrd
  have hsize : m'.ringSize l r = m.ringSize l r := by rw [Mach.ringSize, Mach.fld, hcfg, Mach.ringSize, Mach.fld]
  have hread : m'.readDesc mem l r = m.readDesc mem l r := by
    funext seq index
    rw [Mach.readDesc, Mach.readDesc, Mach.base40, Mach.base40, Mach.fld, Mach.fld, hcfg, hlo, hhi]
  unfold Mach.posted Mach.fld
  rw [hsize, hread, hlen, hseq, hhead]
end

/-- The registers that a fetch reads. -/
abbrev fetchRegs (l : Lane) (r : Nat) : List Nat :=
  [Reg.DMA_R_CFG l.ix r, Reg.DMA_R_BASE_LO l.ix r, Reg.DMA_R_BASE_HI l.ix r, Reg.DMA_R_HEAD l.ix r]

section
variable {m m' : Mach} {l : Lane} {r : Nat} {regs : List Nat} {es : List Event} {g : DmaRing} {c : Nat}

/-- A running ring fetches what is posted. -/
theorem Mach.Engine.fetch (h : m.Engine l r regs es g 1 m') (mem : List Host.Cell) {tail : Nat}
    (htail : m'.fld (Reg.DMA_R_TAIL l.ix r) 11 0 = tail) (hregs : ∀ b ∈ fetchRegs l r, b ∉ regs)
    (hlen : g.fetched = (m.ring l r).fetched) (hseq : g.nextSeq = (m.ring l r).nextSeq) :
    m.Engine l r regs es (g.fetching (m.posted mem l r tail)) 1 (m'.fetchRing mem l r) := by
  have hposted : m'.posted mem l r tail = m.posted mem l r tail :=
    Mach.posted_congr mem l r tail (fun b hb => h.tells.rd b (hregs b hb)) (by rw [h.ring, hlen]) (by rw [h.ring, hseq])
  rw [Mach.fetchRing_runs m' mem l r h.state, htail, hposted]
  exact h.onRing fun g => g.fetching _

/-- Nothing follows of itself where no FENCE waits at the head and the next descriptor is neither a FENCE nor in error (R355). -/
theorem Mach.settleRing_rests (m : Mach) (l : Lane) (r : Nat) (hactive : ∀ a ∈ (m.ring l r).active.head?, a.desc.op ≠ 4)
    (hnext : m.ringState l r ≠ 1 ∨ ∀ d ∈ (m.ring l r).fetched.head?, d.bad = false ∧ d.op ≠ 4) : m.settleRing l r = m := by
  have hone : m.settleOne l r = none := by
    have hfence : ((m.ring l r).active.head?.filter fun a => a.desc.op == 4) = none := by
      rw [Option.filter_eq_none_iff]
      exact fun a ha => fun h => hactive a ha (beq_iff_eq.1 h)
    unfold Mach.settleOne
    dsimp only
    rw [hfence]
    cases hd : (m.ring l r).fetched.head? with
    | none => rfl
    | some d =>
      dsimp only
      rcases hnext with hnext | hnext
      · rw [if_pos hnext]
      · obtain ⟨hgood, hop⟩ := hnext d hd
        rw [hgood, if_neg hop]
        split <;> rfl
  unfold Mach.settleRing
  cases 2 * ((m.ring l r).fetched.length + (m.ring l r).active.length) with
  | zero => rfl
  | succ n => rw [Mach.settleSteps, hone]

theorem Mach.Engine.settles (h : m.Engine l r regs es g c m') (hactive : ∀ a ∈ g.active.head?, a.desc.op ≠ 4)
    (hnext : c ≠ 1 ∨ ∀ d ∈ g.fetched.head?, d.bad = false ∧ d.op ≠ 4) : m.Engine l r regs es g c (m'.settleRing l r) := by
  rw [Mach.settleRing_rests m' l r (by rw [h.ring]; exact hactive) (by rw [h.ring, h.state]; exact hnext)]
  exact h
end

/-! ### Completing (R358) -/

section
variable (m : Mach) (l : Lane) (r : Nat) (a : DmaActive)

/-- The completion record of a descriptor that began at `issue` and has moved `bytes`. -/
def Mach.recordOf (m : Mach) (l : Lane) (r : Nat) (a : DmaActive) (issue : Nat) (bytes : List Nat) : List Nat :=
  leBytes 8 m.now ++ leBytes 8 issue ++ leBytes 2 a.desc.index ++ leBytes 2 a.desc.tag ++ [a.status, l.ix * 16 + r] ++
    leBytes 2 (min a.parks 0xFFFF) ++ leBytes 4 bytes.length ++ leBytes 4 (crc32c bytes)

theorem Mach.recordOf_status (issue : Nat) (bytes : List Nat) : (m.recordOf l r a issue bytes)[20]? = some a.status := by
  simp only [Mach.recordOf, List.getElem?_append, List.length_append, length_leBytes]
  rfl

/-- A ring whose descriptor has completed with a record. -/
def DmaRing.finished (g : DmaRing) (d : DmaDesc) (rec_ : List Nat) : DmaRing :=
  { g with
    active := g.active.filter fun x => x.desc.seq != d.seq
    ready := g.ready ++ [(d.seq, rec_, d.flags % 2 == 1)] }

/-- The ring's completions are not accessioned (R360). -/
abbrev Mach.Local (m : Mach) (l : Lane) (r : Nat) : Prop := m.bit (Reg.DMA_R_CFG l.ix r) 23 = false

/-- A descriptor completes: first its data goes to the network, to port 5 or nowhere. -/
theorem Mach.finishDesc_eq {m₀ m₁ : Mach} (hsent : (if a.desc.op = 3 ∧ m.fld (Reg.DMA_R_CFG l.ix r) 27 25 = 3 ∧ a.status = 0 then
      m.netBackground l a.desc.param a.moved else (true, m)) = (true, m₀)) (hlocal : m₀.Local l r)
    (h5 : (if a.desc.op = 3 ∧ m.fld (Reg.DMA_R_CFG l.ix r) 27 25 = 5 ∧ a.status = 0 then
      m₀.onDma fun x => { x with port5 := x.port5 ++ [⟨l, r, a.desc.param, a.moved⟩] } else m₀) = m₁) :
    ∃ t n, (∀ t₀, a.issueAt = some t₀ → t = t₀ ∧ n = 0) ∧
      m.finishDesc l r a = (m₁.spend n).onRing l r fun g => g.finished a.desc (m₁.recordOf l r a t a.moved) := by
  have hkept : m₁.Local l r := by
    rw [← h5]
    split <;> exact hlocal
  unfold Mach.finishDesc
  dsimp only
  rw [hsent]
  simp only [if_true]
  rw [h5]
  cases a.issueAt with
  | none => exact ⟨_, 1, fun _ h => absurd h (Option.some_ne_none _).symm, if_neg (Bool.eq_false_iff.1 hkept)⟩
  | some t => exact ⟨t, 0, fun _ h => ⟨Option.some.inj h, rfl⟩, if_neg (Bool.eq_false_iff.1 hkept)⟩
end

section
variable {m m' : Mach} {l : Lane} {r : Nat} {regs : List Nat} {es : List Event} {g : DmaRing} {c : Nat}
variable (h : m.Engine l r regs es g c m')
include h

/-- A descriptor completes that sends nothing. -/
theorem Mach.Engine.finish {a : DmaActive} (hsilent : a.desc.op ≠ 3 ∨ a.status ≠ 0) (hlocal : m'.Local l r) :
    ∃ rec_, rec_[20]? = some a.status ∧ m.Engine l r regs es (g.finished a.desc rec_) c (m'.finishDesc l r a) := by
  have hno : ∀ p, ¬(a.desc.op = 3 ∧ m'.fld (Reg.DMA_R_CFG l.ix r) 27 25 = p ∧ a.status = 0) := fun p hp =>
    hsilent.elim (fun h => h hp.1) fun h => h hp.2.2
  obtain ⟨t, n, -, heq⟩ := Mach.finishDesc_eq m' l r a (if_neg (hno 3)) hlocal (if_neg (hno 5))
  rw [heq]
  exact ⟨_, m'.recordOf_status l r a t a.moved, (h.spend n).onRing fun g => g.finished a.desc _⟩

/-- A descriptor with a transaction outstanding does not end (R366). -/
theorem Mach.Engine.endWaits {seq : Nat} (hout : g.out.any (fun t => t.seq == seq) = true) : m.Engine l r regs es g c (m'.endDesc l r seq) := by
  have hstays : m'.endDesc l r seq = m' := by
    unfold Mach.endDesc
    dsimp only
    rw [h.ring]
    split
    · exact if_pos (.inr (.inl hout))
    · rfl
  rw [hstays]
  exact h

omit h in
/-- The only descriptor under way ends with nothing left to issue, outstanding or parked. -/
theorem Mach.endDesc_ends {a : DmaActive} {seq : Nat} (hring : m'.ring l r = g) (hactive : g.active = [a]) (hseq : a.desc.seq = seq)
    (hissued : a.len ≤ a.issued) (hout : g.out.any (fun t => t.seq == seq) = false) (hparked : g.parked.any (fun t => t.seq == seq) = false) :
    m'.endDesc l r seq = (m'.finishDesc l r a).settleRing l r := by
  have hfind : g.active.find? (fun a => a.desc.seq == seq) = some a := by
    rw [hactive]
    exact List.find?_cons_of_pos (beq_iff_eq.2 hseq)
  unfold Mach.endDesc
  dsimp only
  rw [hring, hfind]
  refine if_neg ?_
  rintro (h | h | h)
  · exact absurd h (Nat.not_lt.2 hissued)
  · exact Bool.false_ne_true (hout.symm.trans h)
  · exact Bool.false_ne_true (hparked.symm.trans h)

omit h in
theorem DmaRing.finished_only {a : DmaActive} (rec_ : List Nat) (hactive : g.active = [a]) :
    g.finished a.desc rec_ = { g with active := [], ready := g.ready ++ [(a.desc.seq, rec_, a.desc.flags % 2 == 1)] } := by
  rw [DmaRing.finished, hactive, List.filter_cons_of_neg (by simp)]
  rfl
end

/-! ### Issuing in a context without a table (R357, R362) -/

section
variable (m : Mach) (mem : List Host.Cell) (l : Lane) (r : Nat) (a : DmaActive) (x : DmaTxn)

/-- The page parts that a transaction reads. -/
def DmaActive.srcParts (a : DmaActive) (x : DmaTxn) : List (Nat × Nat) :=
  if a.desc.op = 0 ∨ a.desc.op = 3 then pageParts (a.desc.src + x.off) x.size else []

/-- The page parts that it has yet to write. -/
def DmaActive.dstParts (a : DmaActive) (x : DmaTxn) : List (Nat × Nat) :=
  if a.desc.op = 3 then [] else pageParts (a.desc.dst + x.off + x.written) (x.size - x.written)

/-- The ring's context translates nothing, and the lane may reach the parts of a transaction. -/
structure Mach.Reaches (m : Mach) (l : Lane) (r : Nat) (srcs dsts : List (Nat × Nat)) : Prop where
  context : (m.rd (Reg.DMA_L_CTX_HI l.ix (m.fld (Reg.DMA_R_CFG l.ix r) 19 18))).bits 31 28 ≠ 8
  srcs : ∀ p ∈ srcs, m.dmaReach l false p.1 = true
  dsts : ∀ p ∈ dsts, m.dmaReach l true p.1 = true

variable {m l r} in
theorem Mach.Reaches.congr {m' : Mach} {srcs dsts : List (Nat × Nat)} (h : m.Reaches l r srcs dsts)
    (hcfg : m'.rd (Reg.DMA_R_CFG l.ix r) = m.rd (Reg.DMA_R_CFG l.ix r)) (hctx : ∀ c, m'.rd (Reg.DMA_L_CTX_HI l.ix c) = m.rd (Reg.DMA_L_CTX_HI l.ix c))
    (hmem : m'.rd Reg.DMA_MEMCFG = m.rd Reg.DMA_MEMCFG) : m'.Reaches l r srcs dsts where
  context := by
    rw [Mach.fld, hcfg, hctx]
    exact h.context
  srcs p hp := (Mach.dmaReach_congr hmem ..).trans (h.srcs p hp)
  dsts p hp := (Mach.dmaReach_congr hmem ..).trans (h.dsts p hp)

theorem Mach.issueTxn_direct (h : m.Reaches l r (a.srcParts x) (a.dstParts x)) :
    m.issueTxn mem l r a x = ({ x with reads := a.srcParts x, writes := a.dstParts x }, none, m, mem) := by
  have hs := Mach.translateParts_direct (mem := mem) h.context h.srcs
  have hd := Mach.translateParts_direct (mem := mem) h.context h.dsts
  unfold Mach.issueTxn
  dsimp only
  rw [DmaActive.srcParts] at hs
  rw [DmaActive.dstParts] at hd
  rw [hs]
  dsimp only
  rw [hd]
  rfl
end

end Sys2Proof.Machine
end

section
/-! The commands of the rings, and the records that ports offer (R354, R361, R365, R366). -/

namespace Sys2Proof.Machine

/-! ### The rows on an engine -/

section
variable {s : State} {cyc : Nat} {l : Lane} {r : Nat} {regs : List Nat} {es : List Event} {g : DmaRing} {c : Nat} {m : Mach}

/-- What a row leaves that works on one ring's engine. -/
theorem runMem_engine {f : Mach → List Host.Cell → Mach × List Host.Cell} {mem : List Host.Cell} (hf : f (s.at cyc) s.mem = (m, mem))
    {m₀ : Mach} (h : m₀.Engine l r regs es g c m) (hbase : (s.at cyc).FocTells regs es m) :
    ∃ t, runMem s cyc f = .next t ∧ t.m = m.settle ∧ t.m.ringState l r = c ∧ t.m.ring l r = g ∧ t.mem = mem ∧ SameRegsBut s t regs ∧
      Raises s t es := by
  obtain ⟨t, ht, hm, hmem, hregs, hev⟩ := runMem_tells (f := f) hf hbase
  refine ⟨t, ht, hm, ?_, ?_, hmem, hregs, hev⟩
  · rw [Mach.ringState, Mach.fld, hm, Mach.settle_rd]
    exact h.state
  · rw [hm, Mach.settle_ring]
    exact h.ring

/-- A command of the ring that its state does not allow is ignored (R366). -/
theorem runMem_ringIgnored {f : Mach → List Host.Cell → Mach × List Host.Cell} (hf : f (s.at cyc) s.mem = ((s.at cyc).ringIgnored l, s.mem)) :
    ∃ t, runMem s cyc f = .next t ∧ t.m.dma = s.m.dma ∧ Raises s t [eventAt (s.at cyc) 0x340A 0 0xFF [] l.origin] ∧
      SameRegsBut s t [] ∧ SameMemory s t := by
  obtain ⟨t, ht, hm, hregs, hmem, hev⟩ := runMem_makes (f := f) hf ((Mach.FocTells.refl (s.at cyc) []).raise 0x340A 0 0xFF [] l.origin)
  exact ⟨t, ht, by rw [hm]; rfl, hev, hregs, hmem⟩

end

section
variable (cyc : Nat) (l : Lane) (r : Fin 16) (s : State)

theorem exec_ringResume_own : exec (.ringResume cyc (.lane l) l r) s = runMem s cyc fun m mem => m.ringResume mem l r := by
  cases l <;> rfl

theorem exec_ringAbort_own : exec (.ringAbort cyc (.lane l) l r) s = runMem s cyc fun m mem => (m.ringAbort l r, mem) := by
  cases l <;> rfl

theorem exec_ringGo_own : exec (.ringGo cyc (.lane l) l r) s = runMem s cyc fun m mem => (m.ringGo mem l r, mem) := by
  cases l <;> rfl

theorem exec_ringResume_other (who : Writer) (h : who ≠ .lane l) : exec (.ringResume cyc who l r) s =
    run s cyc fun m => m.ownCopy who l (Reg.DMA_R_CTRL l.ix r) id :=
  congrArg (runMem s cyc) (funext fun _ => funext fun _ => if_neg h)

theorem ringCommands_ignored :
    (s.m.ringState l r ≠ 2 → ∃ t, exec (.ringResume cyc (.lane l) l r) s = .next t ∧ t.m.dma = s.m.dma ∧
      Raises s t [eventAt (s.at cyc) 0x340A 0 0xFF [] l.origin] ∧ SameRegsBut s t [] ∧ SameMemory s t) ∧
    (s.m.ringState l r = 0 → ∃ t, exec (.ringAbort cyc (.lane l) l r) s = .next t ∧ t.m.dma = s.m.dma ∧
      Raises s t [eventAt (s.at cyc) 0x340A 0 0xFF [] l.origin] ∧ SameRegsBut s t [] ∧ SameMemory s t) ∧
    (s.m.ringState l r ≠ 3 → ∃ t, exec (.ringGo cyc (.lane l) l r) s = .next t ∧ t.m.dma = s.m.dma ∧
      Raises s t [eventAt (s.at cyc) 0x340A 0 0xFF [] l.origin] ∧ SameRegsBut s t [] ∧ SameMemory s t) := by
  have hstate : (s.at cyc).ringState l r = s.m.ringState l r := State.at_ringState cyc
  rw [exec_ringResume_own, exec_ringAbort_own, exec_ringGo_own]
  refine ⟨fun h => runMem_ringIgnored (if_pos ?_), fun h => runMem_ringIgnored (congrArg (·, s.mem) (if_pos ?_)),
    fun h => runMem_ringIgnored (congrArg (·, s.mem) (if_pos ?_))⟩
  · rwa [hstate]
  · rwa [hstate]
  · rwa [hstate]

theorem ringCommands_notTheOwner :
    NotTheOwner s cyc l (Reg.DMA_R_CTRL l.ix r) (exec (.ringResume cyc (.lane l.other) l r) s) (exec (.ringResume cyc .safety l r) s) ∧
    NotTheOwner s cyc l (Reg.DMA_R_CTRL l.ix r) (exec (.ringAbort cyc (.lane l.other) l r) s) (exec (.ringAbort cyc .safety l r) s) ∧
    NotTheOwner s cyc l (Reg.DMA_R_CTRL l.ix r) (exec (.ringGo cyc (.lane l.other) l r) s) (exec (.ringGo cyc .safety l r) s) := by
  have hother : Writer.lane l.other ≠ .lane l := by cases l <;> decide
  refine ⟨?_, notTheOwner_ownCopy s cyc l _ fun m => m.ringAbort l r, ?_⟩
  · rw [exec_ringResume_other cyc l r s _ hother, exec_ringResume_other cyc l r s .safety (by cases l <;> decide)]
    exact notTheOwner_ownCopy s cyc l _ id
  · have hgo : ∀ who, exec (.ringGo cyc who l r) s = run s cyc fun m => m.ownCopy who l (Reg.DMA_R_CTRL l.ix r) fun m => m.ringGo s.mem l r :=
      fun _ => rfl
    rw [hgo, hgo]
    exact notTheOwner_ownCopy s cyc l _ fun m => m.ringGo s.mem l r
end

/-! ### RESUME (R365) -/

section
variable (m : Mach) (mem : List Host.Cell) (l : Lane) (r : Nat)

theorem Mach.hasRing_tlbDrop (p : TlbEntry → Bool) (h : m.hasRing l r) : (m.tlbDrop l p).hasRing l r := by cases l <;> exact h

theorem Mach.ring_tlbDrop (p : TlbEntry → Bool) : (m.tlbDrop l p).ring l r = m.ring l r := by cases l <;> rfl

theorem Mach.iotlb_tlbDrop (p : TlbEntry → Bool) :
    ((m.tlbDrop l p).dma.lanes.get l).iotlb = (m.dma.lanes.get l).iotlb.filter fun e => !p e := by cases l <;> rfl

theorem Mach.iotlb_onRing (f : DmaRing → DmaRing) : ((m.onRing l r f).dma.lanes.get l).iotlb = (m.dma.lanes.get l).iotlb := by
  cases l <;> rfl

/-- The one parked transaction of a ring is issued anew. -/
theorem Mach.replayParked_one {a : DmaActive} {x : DmaTxn} (ha : (m.ring l r).active = [a]) (hx : x.seq = a.desc.seq)
    (h : m.Reaches l r (a.srcParts x) (a.dstParts x)) : m.replayParked mem l r [x] =
      ((((m.onRing l r fun g => { g with out := g.out ++ [{ x with reads := a.srcParts x, writes := a.dstParts x }] }).onRing l r
        fun g => { g with parked := [] }).setRing l r 1).dmaShow l r, mem) := by
  have hfind : (m.ring l r).active.find? (fun a => a.desc.seq == x.seq) = some a := by
    rw [ha]
    exact List.find?_cons_of_pos (beq_iff_eq.2 hx.symm)
  rw [Mach.replayParked, hfind]
  dsimp only
  rw [Mach.issueTxn_direct m mem l r a x h]
  dsimp only
  rw [Mach.replayParked]

theorem tail_not_shown (l : Lane) (r : Nat) : Reg.DMA_R_TAIL l.ix r ∉ showRegs l r := by
  simp only [showRegs, List.mem_cons, List.not_mem_nil, or_false]
  unfold Reg.DMA_R_TAIL Reg.DMA_R_STAT Reg.DMA_L_STATUS Reg.DMA_L_FSTAT
  omega

theorem fetch_not_shown (l : Lane) (r : Nat) : ∀ b ∈ fetchRegs l r, b ∉ showRegs l r := by
  intro b hb
  simp only [showRegs, fetchRegs, List.mem_cons, List.not_mem_nil, or_false] at hb ⊢
  unfold Reg.DMA_R_CFG Reg.DMA_R_BASE_LO Reg.DMA_R_BASE_HI Reg.DMA_R_HEAD at hb
  unfold Reg.DMA_R_STAT Reg.DMA_L_STATUS Reg.DMA_L_FSTAT
  omega

/-- A page that may be mapped anew. -/
def Mach.faultPage (m : Mach) (l : Lane) (r : Nat) (e : TlbEntry) : Bool :=
  e.covers (m.fld (Reg.DMA_R_CFG l.ix r) 19 18) ((m.ring l r).faultVa / 4096 % 2 ^ 27)

/-- What a ring has issued anew. -/
def DmaRing.replayed (g : DmaRing) (x : DmaTxn) : DmaRing := { g with parked := [], out := g.out ++ [x] }

/-- Nothing follows of itself on a ring once it has fetched up to `tail`. -/
abbrev Mach.Still (m : Mach) (mem : List Host.Cell) (l : Lane) (r tail : Nat) : Prop :=
  (∀ a ∈ (m.ring l r).active.head?, a.desc.op ≠ 4) ∧
    ∀ d ∈ ((m.ring l r).fetched ++ m.posted mem l r tail).head?, d.bad = false ∧ d.op ≠ 4

theorem Mach.ringResume_engine {a : DmaActive} {x : DmaTxn} (hstate : m.ringState l r = 2) (hring : m.hasRing l r)
    (ha : (m.ring l r).active = [a]) (hp : (m.ring l r).parked = [x]) (hx : x.seq = a.desc.seq)
    (h : m.Reaches l r (a.srcParts x) (a.dstParts x)) {tail : Nat} (htail : m.fld (Reg.DMA_R_TAIL l.ix r) 11 0 = tail)
    (hstill : m.Still mem l r tail) :
    (m.ringResume mem l r).2 = mem ∧ (m.tlbDrop l (m.faultPage l r)).Engine l r (showRegs l r) []
      (((m.ring l r).replayed { x with reads := a.srcParts x, writes := a.dstParts x }).fetching (m.posted mem l r tail)) 1
      (m.ringResume mem l r).1 := by
  have hfaulted : ¬m.ringState l r ≠ 2 := not_not.2 hstate
  have hrun : m.ringResume mem l r = ((((m.tlbDrop l (m.faultPage l r)).replayParked mem l r [x]).1.fetchRing
      ((m.tlbDrop l (m.faultPage l r)).replayParked mem l r [x]).2 l r).settleRing l r,
        ((m.tlbDrop l (m.faultPage l r)).replayParked mem l r [x]).2) := by
    rw [← hp]
    exact if_neg hfaulted
  have hring₁ := m.hasRing_tlbDrop l r (m.faultPage l r) hring
  have hsame := m.ring_tlbDrop l r (m.faultPage l r)
  have hrd : ∀ b, (m.tlbDrop l (m.faultPage l r)).rd b = m.rd b := fun _ => rfl
  have hposted : (m.tlbDrop l (m.faultPage l r)).posted mem l r tail = m.posted mem l r tail :=
    Mach.posted_congr mem l r tail (fun b _ => hrd b) (by rw [hsame]) (by rw [hsame])
  rw [hrun]
  clear hrun
  generalize m.tlbDrop l (m.faultPage l r) = m₁ at hring₁ hsame hrd hposted
  have hreach : m₁.Reaches l r (a.srcParts x) (a.dstParts x) := h.congr (hrd _) (fun _ => hrd _) (hrd _)
  rw [Mach.replayParked_one m₁ mem l r (hsame ▸ ha) hx hreach]
  have hissued := ((((Mach.Engine.refl m₁ l r hring₁ (showRegs l r)).onRing fun g =>
    { g with out := g.out ++ [{ x with reads := a.srcParts x, writes := a.dstParts x }] }).onRing fun g =>
    { g with parked := [] }).setRing List.mem_cons_self (c' := 1) (by decide)).dmaShow (List.Subset.refl _)
  have htail₁ := (congrArg (·.bits 11 0) (hissued.tells.rd (Reg.DMA_R_TAIL l.ix r) (tail_not_shown l r))).trans
    ((congrArg (·.bits 11 0) (hrd (Reg.DMA_R_TAIL l.ix r))).trans htail)
  have hfetched := (hissued.fetch mem htail₁ (fetch_not_shown l r) rfl rfl).settles (by rw [hsame]; exact hstill.1)
    (.inr (by rw [hsame, hposted]; exact hstill.2))
  rw [hsame, hposted] at hfetched
  exact ⟨rfl, hfetched⟩
end

section
variable (cyc : Nat) (l : Lane) (r : Fin 16) (s : State)

theorem State.at_posted (tail : Nat) : (s.at cyc).posted s.mem l r tail = posted s l r tail :=
  Mach.posted_congr (m := s.m) s.mem l r tail (fun b _ => State.at_rd cyc s b) rfl rfl

theorem State.at_still {tail : Nat} (h : NothingFollows s l r tail) : (s.at cyc).Still s.mem l r tail := by
  rw [Mach.Still, State.at_posted, State.at_ring]
  exact h

theorem fetching_eq_fetchedRing (tail : Nat) (g : DmaRing) : g.fetching (posted s l r tail) = fetchedRing s l r tail g := rfl

theorem Mach.FocTells.of_tlbDrop {m m' : Mach} {p : TlbEntry → Bool} {regs : List Nat} {es : List Event}
    (h : (m.tlbDrop l p).FocTells regs es m') : m.FocTells regs es m' := ⟨h.now, h.cyc, h.tick, h.stamp, h.rd, h.raised⟩

theorem showRegs_subset : showRegs l r ⊆ ringRegs l r := by
  simp only [showRegs, ringRegs, List.cons_subset, List.nil_subset, List.mem_cons, true_or, or_true, and_true]

theorem Mach.Reaches.at {srcs dsts : List (Nat × Nat)} (h : s.m.Reaches l r srcs dsts) : (s.at cyc).Reaches l r srcs dsts :=
  h.congr (State.at_rd ..) (fun _ => State.at_rd ..) (State.at_rd ..)

theorem exec_ringResume {a : DmaActive} {x : DmaTxn} {tail : Nat} (hstate : s.m.ringState l r = 2) (hring : s.m.hasRing l r)
    (ha : (s.m.ring l r).active = [a]) (hp : (s.m.ring l r).parked = [x]) (hx : x.seq = a.desc.seq)
    (htail : s.m.fld (Reg.DMA_R_TAIL l.ix r) 11 0 = tail) (hstill : NothingFollows s l r tail)
    (h : s.m.Reaches l r (a.srcParts x) (a.dstParts x)) :
    ∃ t, exec (.ringResume cyc (.lane l) l r) s = .next t ∧ t.m.ringState l r = 1 ∧
      t.m.ring l r = fetchedRing s l r tail ((s.m.ring l r).replayed { x with reads := a.srcParts x, writes := a.dstParts x }) ∧
      (t.m.dma.lanes.get l).iotlb = (s.m.dma.lanes.get l).iotlb.filter (fun e =>
        !e.covers (s.m.fld (Reg.DMA_R_CFG l.ix r) 19 18) ((s.m.ring l r).faultVa / 4096 % 2 ^ 27)) ∧
      Quiet s t (ringRegs l r) := by
  obtain ⟨hmem, hengine⟩ := Mach.ringResume_engine (s.at cyc) s.mem l r ((State.at_ringState cyc).trans hstate) hring ha hp hx
    (h.at cyc l r s) ((State.at_fld ..).trans htail) (State.at_still cyc l r s hstill)
  rw [State.at_posted, fetching_eq_fetchedRing] at hengine
  rw [exec_ringResume_own]
  have hf : (s.at cyc).ringResume s.mem l r = (((s.at cyc).ringResume s.mem l r).1, s.mem) := Prod.ext rfl hmem
  have hiotlb : (((s.at cyc).ringResume s.mem l r).1.dma.lanes.get l).iotlb = (s.m.dma.lanes.get l).iotlb.filter (fun e =>
      !(s.at cyc).faultPage l r e) := by
    rw [hengine.dma, Mach.iotlb_onRing, Mach.iotlb_tlbDrop]
    rfl
  generalize ((s.at cyc).ringResume s.mem l r).1 = m at hengine hf hiotlb
  have hwide := hengine.mono (showRegs_subset l r)
  obtain ⟨t, ht, hm, hst, hg, htmem, hregs, hev⟩ := runMem_engine (f := fun m mem => m.ringResume mem l r) hf hwide hwide.tells.of_tlbDrop
  refine ⟨t, ht, hst, hg, ?_, hregs, fun b => by rw [htmem], hev⟩
  rw [hm]
  exact hiotlb
end

/-! ### ABORT (R366) -/

/-- A descriptor under way when its ring is halted: what its parked transactions have written counts. -/
def DmaActive.aborted (a : DmaActive) (parked : List DmaTxn) : DmaActive :=
  { a with
    status := 2, issued := a.len
    chunks := a.chunks ++ (parked.filter fun t => t.seq == a.desc.seq && decide (0 < t.written)).map fun t =>
      (t.off, a.source t.off t.written) }

/-- A ring halted. -/
def DmaRing.aborted (g : DmaRing) : DmaRing := { g with parked := [], active := g.active.map fun a => a.aborted g.parked }

/-- The registers that a halt writes. -/
abbrev haltRegs (l : Lane) (r : Nat) : List Nat := Reg.DMA_R_IRQ l.ix r :: showRegs l r

section
variable (m : Mach) (l : Lane) (r : Nat)

/-- A ring halted, told and shown. -/
def Mach.ringHalted (m : Mach) (l : Lane) (r : Nat) : Mach :=
  ((((m.onRing l r fun g => { g with parked := [], active := g.active.map fun a => a.aborted (m.ring l r).parked }).setRing l r 3).dmaShow
    l r).ringIrq l r 2).ringIgnored l

theorem Mach.ringAbort_eq (h : m.ringState l r ≠ 0) : m.ringAbort l r =
    forL ((m.ring l r).active.map fun a => a.desc.seq) (fun s m => m.endDesc l r s) (m.ringHalted l r) := if_neg h

theorem Mach.ringHalted_engine (hring : m.hasRing l r) : m.Engine l r (haltRegs l r) [eventAt m 0x340A 0 0xFF [] l.origin]
    (m.ring l r).aborted 3 (m.ringHalted l r) :=
  ((((((Mach.Engine.refl m l r hring (haltRegs l r)).onRing fun g =>
    { g with parked := [], active := g.active.map fun a => a.aborted (m.ring l r).parked }).setRing (by simp) (c' := 3) (by decide)).dmaShow
    (List.subset_cons_self ..)).ringIrq List.mem_cons_self 2).raise 0x340A 0 0xFF [] l.origin)

theorem Mach.ringHalted_asks : (m.ringHalted l r).bit (Reg.DMA_R_IRQ l.ix r) 2 = true := by
  rw [Mach.ringHalted, Mach.ringIgnored, Mach.raise_bit]
  exact Mach.bit_orr (i := 2) _ (by decide)

theorem Mach.Local.of_engine {m m' : Mach} {regs : List Nat} {es : List Event} {g : DmaRing} {c : Nat} (h : m.Engine l r regs es g c m')
    (hcfg : Reg.DMA_R_CFG l.ix r ∉ regs) (hlocal : m.Local l r) : m'.Local l r := by
  rw [Mach.Local, Mach.bit, h.tells.rd _ hcfg]
  exact hlocal

theorem halt_keeps : (Reg.DMA_R_CFG l.ix r ∉ haltRegs l r ∧ Reg.DMA_R_HEAD l.ix r ∉ haltRegs l r) ∧ haltRegs l r ⊆ ringRegs l r := by
  simp only [haltRegs, showRegs, ringRegs, List.cons_subset, List.nil_subset, List.mem_cons, List.not_mem_nil, true_or, or_true, and_true,
    or_false]
  unfold Reg.DMA_R_CFG Reg.DMA_R_HEAD Reg.DMA_R_IRQ Reg.DMA_R_STAT Reg.DMA_L_STATUS Reg.DMA_L_FSTAT
  omega

/-- A halted ring whose descriptor has nothing outstanding completes it as ABORTED. -/
theorem Mach.ringAbort_ends {a : DmaActive} (h : m.ringState l r ≠ 0) (hring : m.hasRing l r) (ha : (m.ring l r).active = [a])
    (hout : (m.ring l r).out.any (fun t => t.seq == a.desc.seq) = false) (hlocal : m.Local l r) :
    ∃ rec_, rec_[20]? = some 2 ∧ m.Engine l r (haltRegs l r) [eventAt m 0x340A 0 0xFF [] l.origin]
      { m.ring l r with
        parked := [], active := [], ready := (m.ring l r).ready ++ [(a.desc.seq, rec_, a.desc.flags % 2 == 1)] } 3 (m.ringAbort l r) := by
  have hhalted := m.ringHalted_engine l r hring
  have hone : (m.ring l r).aborted.active = [a.aborted (m.ring l r).parked] := by
    rw [DmaRing.aborted, ha]
    rfl
  have hend : m.ringAbort l r = ((m.ringHalted l r).finishDesc l r (a.aborted (m.ring l r).parked)).settleRing l r := by
    rw [m.ringAbort_eq l r h, ha]
    exact Mach.endDesc_ends hhalted.ring hone rfl (Nat.le_refl _) hout rfl
  obtain ⟨rec_, hrec, hfinished⟩ := hhalted.finish (a := a.aborted (m.ring l r).parked) (.inr (Nat.succ_ne_zero 1))
    (Mach.Local.of_engine l r hhalted (halt_keeps l r).1.1 hlocal)
  have hempty : (m.ring l r).aborted.finished (a.aborted (m.ring l r).parked).desc rec_ = { m.ring l r with
      parked := [], active := [], ready := (m.ring l r).ready ++ [(a.desc.seq, rec_, a.desc.flags % 2 == 1)] } :=
    DmaRing.finished_only rec_ hone
  rw [hempty] at hfinished
  rw [hend]
  exact ⟨rec_, hrec, hfinished.settles (fun _ hx => absurd hx (Option.not_mem_none _)) (.inl (by decide))⟩
end

section
variable (cyc : Nat) (l : Lane) (r : Fin 16) (s : State) (hstate : s.m.ringState l r ≠ 0) (hring : s.m.hasRing l r)

/-- What ABORT leaves, from what it makes of the ring. -/
theorem exec_ringAbort {g : DmaRing} (h : (s.at cyc).Engine l r (haltRegs l r) [eventAt (s.at cyc) 0x340A 0 0xFF [] l.origin] g 3
    ((s.at cyc).ringAbort l r)) :
    ∃ t, exec (.ringAbort cyc (.lane l) l r) s = .next t ∧ t.m = ((s.at cyc).ringAbort l r).settle ∧ t.m.ringState l r = 3 ∧
      t.m.ring l r = g ∧ t.m.fld (Reg.DMA_R_HEAD l.ix r) 11 0 = s.m.fld (Reg.DMA_R_HEAD l.ix r) 11 0 ∧
      Raises s t [eventAt (s.at cyc) 0x340A 0 0xFF [] l.origin] ∧ SameRegsBut s t (ringRegs l r) ∧ SameMemory s t := by
  obtain ⟨t, ht, hm, hst, hg, hmem, hregs, hev⟩ := runMem_engine (f := fun m mem => (m.ringAbort l r, mem)) rfl h h.tells
  refine ⟨t, (exec_ringAbort_own ..).trans ht, hm, hst, hg, congrArg (·.bits 11 0) (hregs _ (halt_keeps l r).1.2), hev,
    fun b hb => hregs b fun hin => hb ((halt_keeps l r).2 hin), fun b => by rw [hmem]⟩

include hstate hring

theorem exec_ringAbort_empty (ha : (s.m.ring l r).active = []) :
    ∃ t, exec (.ringAbort cyc (.lane l) l r) s = .next t ∧ t.m.ringState l r = 3 ∧
      t.m.ring l r = { s.m.ring l r with parked := [] } ∧ t.m.bit (Reg.DMA_R_IRQ l.ix r) 2 = true ∧
      t.m.fld (Reg.DMA_R_HEAD l.ix r) 11 0 = s.m.fld (Reg.DMA_R_HEAD l.ix r) 11 0 ∧
      Raises s t [eventAt (s.at cyc) 0x340A 0 0xFF [] l.origin] ∧ SameRegsBut s t (ringRegs l r) ∧ SameMemory s t := by
  have hhalted := (s.at cyc).ringHalted_engine l r hring
  have hmade : (s.at cyc).ringAbort l r = (s.at cyc).ringHalted l r := by
    rw [Mach.ringAbort_eq _ l r (State.at_ringState (s := s) (l := l) (r := r) cyc ▸ hstate), State.at_ring, ha]
    rfl
  have hring₁ : ((s.at cyc).ring l r).aborted = { s.m.ring l r with parked := [] } := by
    rw [State.at_ring, DmaRing.aborted, ha, List.map_nil, ← ha]
  rw [← hmade, hring₁] at hhalted
  obtain ⟨t, ht, hm, hst, hg, hhead, hev, hregs, hmem⟩ := exec_ringAbort cyc l r s hhalted
  refine ⟨t, ht, hst, hg, ?_, hhead, hev, hregs, hmem⟩
  rw [hm, hmade, Mach.bit, Mach.settle_rd]
  exact Mach.ringHalted_asks ..

theorem exec_ringAbort_waits {a : DmaActive} (ha : (s.m.ring l r).active = [a])
    (hout : (s.m.ring l r).out.any (fun t => t.seq == a.desc.seq) = true) :
    ∃ t b, exec (.ringAbort cyc (.lane l) l r) s = .next t ∧ t.m.ringState l r = 3 ∧ b.desc = a.desc ∧ b.status = 2 ∧
      t.m.ring l r = { s.m.ring l r with parked := [], active := [b] } ∧
      Raises s t [eventAt (s.at cyc) 0x340A 0 0xFF [] l.origin] ∧ SameRegsBut s t (ringRegs l r) ∧ SameMemory s t := by
  have hhalted := (s.at cyc).ringHalted_engine l r hring
  have hmade : (s.at cyc).ringAbort l r = ((s.at cyc).ringHalted l r).endDesc l r a.desc.seq := by
    rw [Mach.ringAbort_eq _ l r (State.at_ringState (s := s) (l := l) (r := r) cyc ▸ hstate), State.at_ring, ha]
    rfl
  have hwaits := hhalted.endWaits hout
  have hring₁ : ((s.at cyc).ring l r).aborted = { s.m.ring l r with parked := [], active := [a.aborted (s.m.ring l r).parked] } := by
    rw [State.at_ring, DmaRing.aborted, ha]
    rfl
  rw [← hmade, hring₁] at hwaits
  obtain ⟨t, ht, -, hst, hg, -, hev, hregs, hmem⟩ := exec_ringAbort cyc l r s hwaits
  exact ⟨t, a.aborted (s.m.ring l r).parked, ht, hst, rfl, rfl, hg, hev, hregs, hmem⟩

theorem exec_ringAbort_ends {a : DmaActive} (ha : (s.m.ring l r).active = [a])
    (hout : (s.m.ring l r).out.any (fun t => t.seq == a.desc.seq) = false) (hlocal : s.m.Local l r) :
    ∃ t rec_, exec (.ringAbort cyc (.lane l) l r) s = .next t ∧ t.m.ringState l r = 3 ∧ rec_[20]? = some 2 ∧
      t.m.ring l r = { s.m.ring l r with
        parked := [], active := [], ready := (s.m.ring l r).ready ++ [(a.desc.seq, rec_, a.desc.flags % 2 == 1)] } ∧
      Raises s t [eventAt (s.at cyc) 0x340A 0 0xFF [] l.origin] ∧ SameRegsBut s t (ringRegs l r) ∧ SameMemory s t := by
  obtain ⟨rec_, hrec, hends⟩ := (s.at cyc).ringAbort_ends l r (State.at_ringState (s := s) (l := l) (r := r) cyc ▸ hstate) hring ha hout hlocal
  obtain ⟨t, ht, -, hst, hg, -, hev, hregs, hmem⟩ := exec_ringAbort cyc l r s hends
  exact ⟨t, rec_, ht, hst, hrec, hg, hev, hregs, hmem⟩
end

/-! ### GO (R366) -/

section
variable (m : Mach) (mem : List Host.Cell) (l : Lane) (r : Nat)

theorem Mach.ringGo_engine (hstate : m.ringState l r = 3) (hring : m.hasRing l r)
    (hstill : m.Still mem l r (m.fld (Reg.DMA_R_TAIL l.ix r) 11 0)) :
    m.Engine l r [Reg.DMA_R_STAT l.ix r] [] ((m.ring l r).fetching (m.posted mem l r (m.fld (Reg.DMA_R_TAIL l.ix r) 11 0))) 1
      (m.ringGo mem l r) := by
  have hhalted : ¬m.ringState l r ≠ 3 := not_not.2 hstate
  have hrun : m.ringGo mem l r = ((m.setRing l r 1).fetchRing mem l r).settleRing l r := if_neg hhalted
  rw [hrun]
  have hstarted := (Mach.Engine.refl m l r hring [Reg.DMA_R_STAT l.ix r]).setRing List.mem_cons_self (c' := 1) (by decide)
  have hshown : [Reg.DMA_R_STAT l.ix r] ⊆ showRegs l r := List.cons_subset_cons _ (List.nil_subset _)
  have htail := congrArg (·.bits 11 0) (hstarted.tells.rd (Reg.DMA_R_TAIL l.ix r) fun h => tail_not_shown l r (hshown h))
  exact (hstarted.fetch mem htail (fun b hb h => fetch_not_shown l r b hb (hshown h)) rfl rfl).settles hstill.1 (.inr hstill.2)
end

theorem exec_ringGo (cyc : Nat) (l : Lane) (r : Fin 16) (s : State) (hstate : s.m.ringState l r = 3) (hring : s.m.hasRing l r)
    (hstill : NothingFollows s l r (s.m.fld (Reg.DMA_R_TAIL l.ix r) 11 0)) :
    ∃ t, exec (.ringGo cyc (.lane l) l r) s = .next t ∧ t.m.ringState l r = 1 ∧
      t.m.ring l r = fetchedRing s l r (s.m.fld (Reg.DMA_R_TAIL l.ix r) 11 0) (s.m.ring l r) ∧ Quiet s t [Reg.DMA_R_STAT l.ix r] := by
  have htail : (s.at cyc).fld (Reg.DMA_R_TAIL l.ix r) 11 0 = s.m.fld (Reg.DMA_R_TAIL l.ix r) 11 0 := State.at_fld ..
  have hgo := (s.at cyc).ringGo_engine s.mem l r ((State.at_ringState cyc).trans hstate) hring
    (by rw [htail]; exact State.at_still cyc l r s hstill)
  rw [htail, State.at_posted, fetching_eq_fetchedRing] at hgo
  obtain ⟨t, ht, -, hst, hg, hmem, hregs, hev⟩ := runMem_engine (f := fun m mem => (m.ringGo mem l r, mem)) rfl hgo hgo.tells
  exact ⟨t, (exec_ringGo_own ..).trans ht, hst, hg, hregs, fun b => by rw [hmem], hev⟩

/-! ### The records that ports hold (R127, R361) -/

theorem Mach.fld_incMod (m : Mach) {a hi lo : Nat} (hl : lo ≤ hi) (hh : hi < 32) :
    (m.incMod a hi lo).fld a hi lo = (m.fld a hi lo + 1) % 2 ^ (hi + 1 - lo) := Mach.fld_setFld m _ hl hh

theorem capRegs_spec (l : Lane) : (Reg.LAW_CAP_STAT l.ix ∉ stampRegs ∧ Reg.LAW_IRQ_STAT l.ix ∉ stampRegs) ∧
    Reg.LAW_CAP_STAT l.ix ≠ Reg.LAW_IRQ_STAT l.ix := by cases l <;> decide

section
variable (m : Mach) (l : Lane)

/-- What the capture tells of a record dropped: the first of a run. -/
def Mach.capTold (m : Mach) (l : Lane) : List Event :=
  if (m.law.get l).capDropping = false then [eventAt m 0x1007 0 0xFF [] l.origin] else []

variable {m} in
theorem Mach.FocTells.capRun {m' : Mach} {regs : List Nat} {es : List Event} (h : m.FocTells regs es m') (b : Bool) :
    m.FocTells regs es (m'.capRun l b) := h.next rfl rfl fun _ => rfl

variable {m} in
theorem Mach.FocTells.captureTaken {m' : Mach} {regs : List Nat} {es : List Event} (h : m.FocTells regs es m')
    (hcap : Reg.LAW_CAP_STAT l.ix ∈ regs) (hirq : Reg.LAW_IRQ_STAT l.ix ∈ regs) : m.FocTells regs es (m'.captureCount l true) :=
  ((h.wr hcap (capRegs_spec l).1.1 _).orr_of_not_stamp hirq (capRegs_spec l).1.2 _).capRun l false

variable {m} in
theorem Mach.FocTells.captureDropped {m' : Mach} {regs : List Nat} {es : List Event} (h : m.FocTells regs es m')
    (hcap : Reg.LAW_CAP_STAT l.ix ∈ regs) (hirq : Reg.LAW_IRQ_STAT l.ix ∈ regs) (hlaw : m'.law = m.law) :
    m.FocTells regs (es ++ m.capTold l) (m'.captureCount l false) := by
  have hcounted := ((h.wr hcap (capRegs_spec l).1.1 _ : m.FocTells regs es (m'.incSat (Reg.LAW_CAP_STAT l.ix) 31 16)).orr_of_not_stamp hirq
    (capRegs_spec l).1.2 2).capRun l true
  rw [Mach.captureCount, if_neg Bool.false_ne_true]
  dsimp only
  rw [hlaw, Mach.capTold]
  cases (m.law.get l).capDropping
  · exact hcounted.raise 0x1007 0 0xFF [] l.origin
  · rw [if_pos rfl, if_neg (by decide), List.append_nil]
    exact hcounted

theorem Mach.captureCount_taken :
    (m.captureCount l true).fld (Reg.LAW_CAP_STAT l.ix) 15 0 = (m.fld (Reg.LAW_CAP_STAT l.ix) 15 0 + 1) % 2 ^ 16 ∧
      (m.captureCount l true).bit (Reg.LAW_IRQ_STAT l.ix) 0 = true := by
  constructor
  · refine Eq.trans ?_ (m.fld_incMod (a := Reg.LAW_CAP_STAT l.ix) (hi := 15) (lo := 0) (by decide) (by decide))
    exact congrArg (·.bits 15 0) ((Mach.rd_orr ..).trans (if_neg (capRegs_spec l).2))
  · exact Mach.bit_orr (i := 0) (m.incMod (Reg.LAW_CAP_STAT l.ix) 15 0) (by decide)

theorem Mach.captureCount_dropped_rd (b : Nat) :
    (m.captureCount l false).rd b = ((m.incSat (Reg.LAW_CAP_STAT l.ix) 31 16).orr (Reg.LAW_IRQ_STAT l.ix) 2).rd b := by
  rw [Mach.captureCount, if_neg Bool.false_ne_true]
  dsimp only
  split <;> rfl

theorem Mach.captureCount_dropped :
    (m.captureCount l false).fld (Reg.LAW_CAP_STAT l.ix) 31 16 = min (m.fld (Reg.LAW_CAP_STAT l.ix) 31 16 + 1) 0xFFFF ∧
      (m.captureCount l false).bit (Reg.LAW_IRQ_STAT l.ix) 1 = true := by
  constructor
  · rw [Mach.fld, Mach.captureCount_dropped_rd, Mach.rd_orr, if_neg (capRegs_spec l).2]
    exact m.fld_incSat (by decide) (by decide)
  · rw [Mach.bit, Mach.captureCount_dropped_rd]
    exact Mach.bit_orr (i := 1) (m.incSat (Reg.LAW_CAP_STAT l.ix) 31 16) (by decide)

theorem Mach.captureCount_dma (taken : Bool) : (m.captureCount l taken).dma = m.dma ∧ (m.captureCount l taken).offers = m.offers := by
  unfold Mach.captureCount
  dsimp only
  split
  · exact ⟨rfl, rfl⟩
  · split <;> exact ⟨rfl, rfl⟩
end

section
variable (m : Mach) (o : Offer)

/-- What the port of a record counts. -/
def Mach.portCounts (m : Mach) (o : Offer) (taken : Bool) : Mach :=
  if o.port = 1 then m.captureCount o.lane taken
  else if o.port = 2 ∧ !taken then m.incSat (Reg.NET_P_CNT (o.bytes.getD 15 0 % 8)) 15 0
  else m

theorem Mach.streamOffer_taken {x : Mach}
    (h : (m.onOffers fun x => x.erase o).streamTake o.lane o.ring o.port o.bytes = (true, x)) : m.streamOffer o = x.portCounts o true := by
  unfold Mach.streamOffer
  dsimp only
  rw [h]
  rfl

theorem Mach.streamOffer_dropped {x : Mach}
    (h : (m.onOffers fun x => x.erase o).streamTake o.lane o.ring o.port o.bytes = (false, x)) :
    m.streamOffer o = (x.streamDrop o.lane o.ring).portCounts o false := by
  unfold Mach.streamOffer
  dsimp only
  rw [h]
  rfl

theorem Mach.portCounts_dma (taken : Bool) : (m.portCounts o taken).dma = m.dma ∧ (m.portCounts o taken).offers = m.offers := by
  unfold Mach.portCounts
  split
  · exact m.captureCount_dma o.lane taken
  · split <;> exact ⟨rfl, rfl⟩

theorem Mach.portCounts_capture (h : o.port = 1) (taken : Bool) : m.portCounts o taken = m.captureCount o.lane taken := if_pos h

theorem Mach.portCounts_net (h : o.port = 2) : m.portCounts o false = m.incSat (Reg.NET_P_CNT (o.bytes.getD 15 0 % 8)) 15 0 :=
  (if_neg (by omega)).trans (if_pos ⟨h, rfl⟩)

theorem Mach.portCounts_silent (h : o.port ≠ 1) {taken : Bool} (ht : ¬(o.port = 2 ∧ (!taken) = true)) : m.portCounts o taken = m :=
  (if_neg h).trans (if_neg ht)

/-- The registers in which the capture counts its records. -/
def captureRegs (o : Offer) : List Nat := if o.port = 1 then [Reg.LAW_CAP_STAT o.lane.ix, Reg.LAW_IRQ_STAT o.lane.ix] else []

theorem captureRegs_capture {regs : List Nat} (h : o.port = 1) (hsub : captureRegs o ⊆ regs) :
    Reg.LAW_CAP_STAT o.lane.ix ∈ regs ∧ Reg.LAW_IRQ_STAT o.lane.ix ∈ regs := by
  rw [captureRegs, if_pos h] at hsub
  exact ⟨hsub List.mem_cons_self, hsub (List.mem_cons_of_mem _ List.mem_cons_self)⟩

variable {m} {m' : Mach} {regs : List Nat} {es : List Event} (h : m.FocTells regs es m') (hsub : captureRegs o ⊆ regs)
include h hsub

theorem Mach.FocTells.countsTaken : m.FocTells regs es (m'.portCounts o true) := by
  by_cases hport : o.port = 1
  · rw [Mach.portCounts_capture m' o hport]
    exact h.captureTaken o.lane (captureRegs_capture o hport hsub).1 (captureRegs_capture o hport hsub).2
  · rw [Mach.portCounts_silent m' o hport fun h => absurd h.2 (by decide)]
    exact h

theorem Mach.FocTells.countsDropped (hlaw : m'.law = m.law)
    (hnet : o.port = 2 → Reg.NET_P_CNT (o.bytes.getD 15 0 % 8) ∈ regs) :
    m.FocTells regs (es ++ if o.port = 1 then m.capTold o.lane else []) (m'.portCounts o false) := by
  by_cases hport : o.port = 1
  · rw [Mach.portCounts_capture m' o hport, if_pos hport]
    exact h.captureDropped o.lane (captureRegs_capture o hport hsub).1 (captureRegs_capture o hport hsub).2 hlaw
  · rw [if_neg hport, List.append_nil]
    by_cases hp : o.port = 2
    · rw [Mach.portCounts_net m' o hp]
      exact h.incSat (hnet hp) (portCnt_not_stamp _) 15 0
    · rw [Mach.portCounts_silent m' o hport fun h => hp h.1]
      exact h
end

theorem capStat_ne (l : Lane) {a : Nat} (h : 0xD1000 < a) : Reg.LAW_CAP_STAT l.ix ≠ a := by
  have hlow : Reg.LAW_CAP_STAT l.ix < 0xD1000 := by cases l <;> decide
  omega

theorem not_mem_captureRegs {a : Nat} (h : 0xD1000 < a) : a ∉ captureRegs o := by
  have hlow : ∀ b ∈ captureRegs o, b < 0xD1000 := by
    rw [captureRegs]
    split
    · cases o.lane <;> decide
    · exact fun b hb => absurd hb List.not_mem_nil
  exact fun ha => absurd (hlow a ha) (by omega)

/-- The registers in which a record dropped counts. -/
def dropRegs (o : Offer) : List Nat :=
  [Reg.DMA_R_STAT o.lane.ix o.ring, Reg.DMA_R_IRQ o.lane.ix o.ring] ++ captureRegs o ++
    if o.port = 2 then [Reg.NET_P_CNT (o.bytes.getD 15 0 % 8)] else []

theorem netCnt_ne_ring (o : Offer) :
    Reg.NET_P_CNT (o.bytes.getD 15 0 % 8) ≠ Reg.DMA_R_STAT o.lane.ix o.ring ∧
      Reg.NET_P_CNT (o.bytes.getD 15 0 % 8) ≠ Reg.DMA_R_IRQ o.lane.ix o.ring := by
  have hix : o.lane.ix < 2 := by cases o.lane <;> decide
  unfold Reg.NET_P_CNT Reg.DMA_R_STAT Reg.DMA_R_IRQ
  omega

theorem capStat_not_drop (l : Lane) (r : Nat) : Reg.LAW_CAP_STAT l.ix ∉ [Reg.DMA_R_STAT l.ix r, Reg.DMA_R_IRQ l.ix r] := by
  simp only [List.mem_cons, List.not_mem_nil, or_false, not_or]
  exact ⟨capStat_ne l (by unfold Reg.DMA_R_STAT; omega), capStat_ne l (by unfold Reg.DMA_R_IRQ; omega)⟩

/-- The machine whose port has handed over its record. -/
abbrev Mach.handedOver (m : Mach) (o : Offer) : Mach := m.onOffers fun x => x.erase o

section
variable (m : Mach) {o : Offer} {l : Lane} {r : Nat} (hl : o.lane = l) (hr : o.ring = r) (hring : m.hasRing l r)
include hl hr hring

theorem Mach.streamOffer_takes {d : DmaDesc} {rest : List DmaDesc} (hready : m.StreamReady l r o.port o.bytes d rest) :
    (m.streamOffer o).offers = m.offers.erase o ∧
      (m.streamOffer o).ring l r = { m.ring l r with
        fetched := rest, dropping := false
        active := (m.ring l r).active ++
          [startedDesc d o.bytes (min o.bytes.length d.len) (if d.len < o.bytes.length then 4 else 0)] } ∧
      (m.streamOffer o).fld (Reg.DMA_R_HEAD l.ix r) 11 0 = (d.index + 1) % m.ringSize l r % 2 ^ 12 ∧
      (o.port = 1 → (m.streamOffer o).fld (Reg.LAW_CAP_STAT l.ix) 15 0 = (m.fld (Reg.LAW_CAP_STAT l.ix) 15 0 + 1) % 2 ^ 16 ∧
        (m.streamOffer o).bit (Reg.LAW_IRQ_STAT l.ix) 0 = true) ∧
      m.FocTells (Reg.DMA_R_HEAD l.ix r :: captureRegs o) [] (m.streamOffer o) := by
  subst hl hr
  have hready₁ : (m.handedOver o).StreamReady o.lane o.ring o.port o.bytes d rest :=
    ⟨hready.runs, hready.port, hready.fetched, hready.op, hready.good, hready.free, hready.out, hready.room, hready.first⟩
  have hring₁ : (m.handedOver o).hasRing o.lane o.ring := hring
  rw [m.streamOffer_taken o (Mach.streamTake_ready hready₁)]
  have hgot := Mach.ring_streamTaken hring₁ (bytes := o.bytes) hready₁.fetched
  have hhead := Mach.streamTaken_head (m := m.handedOver o) (l := o.lane) (r := o.ring) o.bytes d
  have htells := (((Mach.FocTells.refl m (Reg.DMA_R_HEAD o.lane.ix o.ring :: captureRegs o)).onOffers fun x => x.erase o).streamTaken
    o.lane o.ring List.mem_cons_self o.bytes d)
  have honly := (((Mach.FocTells.refl m [Reg.DMA_R_HEAD o.lane.ix o.ring]).onOffers fun x => x.erase o).streamTaken
    o.lane o.ring List.mem_cons_self o.bytes d)
  have hoffers : ((m.handedOver o).streamTaken o.lane o.ring o.bytes d).offers = m.offers.erase o := rfl
  generalize (m.handedOver o).streamTaken o.lane o.ring o.bytes d = x at *
  obtain ⟨hdma, hkept⟩ := x.portCounts_dma o true
  refine ⟨hkept.trans hoffers, ?_, ?_, fun hport => ?_, htells.countsTaken o (List.subset_cons_self ..)⟩
  · rw [Mach.ring, hdma]
    exact hgot
  · refine Eq.trans (congrArg (·.bits 11 0) (((Mach.FocTells.refl x (captureRegs o)).countsTaken o (List.Subset.refl _)).rd _ ?_)) hhead
    exact not_mem_captureRegs (by unfold Reg.DMA_R_HEAD; omega)
  · obtain ⟨hcount, hasked⟩ := x.captureCount_taken o.lane
    rw [x.portCounts_capture o hport]
    refine ⟨?_, hasked⟩
    rw [hcount, Mach.fld, honly.rd _ fun h => ?_]
    · rfl
    · exact absurd (List.mem_singleton.1 h) (capStat_ne _ (by unfold Reg.DMA_R_HEAD; omega))

theorem Mach.streamOffer_drops (h : m.ringState l r ≠ 1 ∨ m.fld (Reg.DMA_R_CFG l.ix r) 27 25 ≠ o.port ∨ (m.ring l r).fetched = [] ∨
    m.cqFree l r = false) :
    (m.streamOffer o).offers = m.offers.erase o ∧
      (m.streamOffer o).fld (Reg.DMA_R_STAT l.ix r) 31 16 = min (m.fld (Reg.DMA_R_STAT l.ix r) 31 16 + 1) 0xFFFF ∧
      (m.streamOffer o).ring l r = { m.ring l r with dropping := true } ∧ (m.streamOffer o).bit (Reg.DMA_R_IRQ l.ix r) 3 = true ∧
      (o.port = 1 → (m.streamOffer o).fld (Reg.LAW_CAP_STAT l.ix) 31 16 = min (m.fld (Reg.LAW_CAP_STAT l.ix) 31 16 + 1) 0xFFFF ∧
        (m.streamOffer o).bit (Reg.LAW_IRQ_STAT l.ix) 1 = true) ∧
      (o.port = 2 → (m.streamOffer o).fld (Reg.NET_P_CNT (o.bytes.getD 15 0 % 8)) 15 0 =
        min (m.fld (Reg.NET_P_CNT (o.bytes.getD 15 0 % 8)) 15 0 + 1) 0xFFFF) ∧
      m.FocTells (dropRegs o) (m.dropTold l r ++ if o.port = 1 then m.capTold l else []) (m.streamOffer o) := by
  subst hl hr
  have hnone : (m.handedOver o).streamTake o.lane o.ring o.port o.bytes = (false, m.handedOver o) := Mach.streamTake_none _ o.lane o.ring h
  have hring₁ : (m.handedOver o).hasRing o.lane o.ring := hring
  rw [m.streamOffer_dropped o hnone]
  have hgot := Mach.ring_streamDrop hring₁
  obtain ⟨hcount, hasked⟩ := (m.handedOver o).streamDrop_counts o.lane o.ring
  have htells := ((Mach.FocTells.refl m (dropRegs o)).onOffers fun x => x.erase o).streamDrop o.lane o.ring
    (by simp [dropRegs]) (by simp [dropRegs]) rfl
  have honly := ((Mach.FocTells.refl m [Reg.DMA_R_STAT o.lane.ix o.ring, Reg.DMA_R_IRQ o.lane.ix o.ring]).onOffers fun x => x.erase o).streamDrop
    o.lane o.ring (by simp) (by simp) rfl
  have hoffers : ((m.handedOver o).streamDrop o.lane o.ring).offers = m.offers.erase o ∧
      ((m.handedOver o).streamDrop o.lane o.ring).law = m.law := by
    unfold Mach.streamDrop
    dsimp only
    split <;> exact ⟨rfl, rfl⟩
  rw [List.nil_append] at htells
  have hstat : (m.handedOver o).fld (Reg.DMA_R_STAT o.lane.ix o.ring) 31 16 = m.fld (Reg.DMA_R_STAT o.lane.ix o.ring) 31 16 := rfl
  rw [hstat] at hcount
  have hsame : (m.handedOver o).ring o.lane o.ring = m.ring o.lane o.ring := rfl
  rw [hsame] at hgot
  generalize (m.handedOver o).streamDrop o.lane o.ring = x at *
  obtain ⟨hdma, hkept⟩ := x.portCounts_dma o false
  have hports := ((Mach.FocTells.refl x (captureRegs o ++ [Reg.NET_P_CNT (o.bytes.getD 15 0 % 8)])).countsDropped o
    (List.subset_append_left ..) rfl fun _ => by simp).rd
  have hnet := netCnt_ne_ring o
  refine ⟨hkept.trans hoffers.1, ?_, ?_, ?_, fun hport => ?_, fun hport => ?_, ?_⟩
  · exact (congrArg (·.bits 31 16) (hports _ fun hin => (List.mem_append.1 hin).elim
      (not_mem_captureRegs (by unfold Reg.DMA_R_STAT; omega)) fun hin => hnet.1 (List.mem_singleton.1 hin).symm)).trans hcount
  · rw [Mach.ring, hdma]
    exact hgot
  · exact (congrArg (·.bit 3) (hports _ fun hin => (List.mem_append.1 hin).elim
      (not_mem_captureRegs (by unfold Reg.DMA_R_IRQ; omega)) fun hin => hnet.2 (List.mem_singleton.1 hin).symm)).trans hasked
  · obtain ⟨hcap, hirq⟩ := x.captureCount_dropped o.lane
    rw [x.portCounts_capture o hport]
    refine ⟨?_, hirq⟩
    rw [hcap, Mach.fld, honly.rd _ (capStat_not_drop o.lane o.ring)]
    rfl
  · rw [x.portCounts_net o hport, x.fld_incSat (by decide) (by decide), Mach.fld, honly.rd _ fun hin => ?_]
    · rfl
    · simp only [List.mem_cons, List.not_mem_nil, or_false] at hin
      exact hin.elim hnet.1 hnet.2
  · refine htells.countsDropped o (fun b hb => ?_) hoffers.2 fun hport => ?_
    · simp only [dropRegs, List.mem_append, hb, or_true, true_or]
    · simp only [dropRegs, if_pos hport, List.mem_append, List.mem_singleton, or_true]
end

section
variable {s : State} {cyc : Nat} {l : Lane} {r : Fin 16} {o : Offer}
  (ho : (s.m.offers.find? fun o => o.lane == l && o.ring == r.val) = some o)

theorem exec_streamRecord_none (h : (s.m.offers.find? fun o => o.lane == l && o.ring == r.val) = none) :
    ∃ t, exec (.streamRecord cyc l r) s = .next t ∧ t.m.offers = s.m.offers ∧ t.m.dma = s.m.dma ∧ Quiet s t [] := by
  have hf : (match s.m.offers.find? fun o => o.lane == l && o.ring == r.val with
      | some o => (s.at cyc).streamOffer o
      | none => s.at cyc) = s.at cyc := by rw [h]
  obtain ⟨t, ht, hm, hquiet⟩ := run_idle (f := fun m => match m.offers.find? fun o => o.lane == l && o.ring == r.val with
    | some o => m.streamOffer o
    | none => m) hf
  exact ⟨t, ht, by rw [hm]; rfl, by rw [hm]; rfl, hquiet⟩

include ho

theorem offer_place : o.lane = l ∧ o.ring = r.val := by
  have hmatch := List.find?_some ho
  simp only [Bool.and_eq_true, beq_iff_eq] at hmatch
  exact hmatch

/-- The machine that a port's record leaves. -/
theorem run_streamOffer {m : Mach} {regs : List Nat} {es : List Event} (hm : (s.at cyc).streamOffer o = m)
    (h : (s.at cyc).FocTells regs es m) :
    ∃ t, exec (.streamRecord cyc l r) s = .next t ∧ t.m = m.settle ∧ SameRegsBut s t regs ∧ SameMemory s t ∧ Raises s t es := by
  have hf : (match s.m.offers.find? fun o => o.lane == l && o.ring == r.val with
      | some o => (s.at cyc).streamOffer o
      | none => s.at cyc) = m := by rw [ho]; exact hm
  exact run_makes (f := fun m => match m.offers.find? fun o => o.lane == l && o.ring == r.val with
    | some o => m.streamOffer o
    | none => m) hf h

theorem exec_streamRecord_taken (hring : s.m.hasRing l r) {d : DmaDesc} {rest : List DmaDesc}
    (hready : s.m.StreamReady l r o.port o.bytes d rest) :
    ∃ t, exec (.streamRecord cyc l r) s = .next t ∧ t.m.offers = s.m.offers.erase o ∧
      t.m.ring l r = { s.m.ring l r with
        fetched := rest, dropping := false
        active := (s.m.ring l r).active ++
          [startedDesc d o.bytes (min o.bytes.length d.len) (if d.len < o.bytes.length then 4 else 0)] } ∧
      t.m.fld (Reg.DMA_R_HEAD l.ix r) 11 0 = (d.index + 1) % s.m.ringSize l r % 2 ^ 12 ∧
      (o.port = 1 → t.m.fld (Reg.LAW_CAP_STAT l.ix) 15 0 = (s.m.fld (Reg.LAW_CAP_STAT l.ix) 15 0 + 1) % 2 ^ 16 ∧
        t.m.bit (Reg.LAW_IRQ_STAT l.ix) 0 = true) ∧
      Quiet s t (Reg.DMA_R_HEAD l.ix r :: captureRegs o) := by
  obtain ⟨hl, hr⟩ := offer_place ho
  obtain ⟨hoffers, hgot, hhead, hcap, htells⟩ := (s.at cyc).streamOffer_takes hl hr hring (hready.at cyc)
  obtain ⟨t, ht, hm, hregs, hmem, hev⟩ := run_streamOffer (cyc := cyc) ho rfl htells
  rw [State.at_ringSize] at hhead
  have hrd : ∀ b, t.m.rd b = ((s.at cyc).streamOffer o).rd b := fun b => by rw [hm, Mach.settle_rd]
  refine ⟨t, ht, ?_, ?_, (congrArg (·.bits 11 0) (hrd _)).trans hhead, fun hport => ?_, hregs, hmem, hev⟩
  · rw [hm, Mach.settle_offers]
    exact hoffers
  · rw [hm, Mach.settle_ring]
    exact hgot
  · obtain ⟨hcount, hasked⟩ := hcap hport
    exact ⟨(congrArg (·.bits 15 0) (hrd _)).trans hcount, (congrArg (·.bit 0) (hrd _)).trans hasked⟩

theorem exec_streamRecord_dropped (hring : s.m.hasRing l r) (h : s.m.ringState l r ≠ 1 ∨ s.m.fld (Reg.DMA_R_CFG l.ix r) 27 25 ≠ o.port ∨
    (s.m.ring l r).fetched = [] ∨ s.m.cqFree l r = false) :
    ∃ t, exec (.streamRecord cyc l r) s = .next t ∧ t.m.offers = s.m.offers.erase o ∧
      t.m.fld (Reg.DMA_R_STAT l.ix r) 31 16 = min (s.m.fld (Reg.DMA_R_STAT l.ix r) 31 16 + 1) 0xFFFF ∧
      t.m.ring l r = { s.m.ring l r with dropping := true } ∧ t.m.bit (Reg.DMA_R_IRQ l.ix r) 3 = true ∧
      (o.port = 1 → t.m.fld (Reg.LAW_CAP_STAT l.ix) 31 16 = min (s.m.fld (Reg.LAW_CAP_STAT l.ix) 31 16 + 1) 0xFFFF ∧
        t.m.bit (Reg.LAW_IRQ_STAT l.ix) 1 = true) ∧
      (o.port = 2 → o.bytes.getD 15 0 % 8 < 7 → t.m.fld (Reg.NET_P_CNT (o.bytes.getD 15 0 % 8)) 15 0 =
        min (s.m.fld (Reg.NET_P_CNT (o.bytes.getD 15 0 % 8)) 15 0 + 1) 0xFFFF) ∧
      Raises s t ((s.at cyc).dropTold l r ++ if o.port = 1 then (s.at cyc).capTold l else []) ∧
      SameRegsBut s t (dropRegs o) ∧ SameMemory s t := by
  obtain ⟨hl, hr⟩ := offer_place ho
  have hat : (s.at cyc).ringState l r ≠ 1 ∨ (s.at cyc).fld (Reg.DMA_R_CFG l.ix r) 27 25 ≠ o.port ∨ ((s.at cyc).ring l r).fetched = [] ∨
      (s.at cyc).cqFree l r = false := by
    rwa [State.at_ringState, State.at_fld, State.at_ring, State.at_cqFree]
  obtain ⟨hoffers, hcount, hgot, hasked, hcap, hnet, htells⟩ := (s.at cyc).streamOffer_drops hl hr hring hat
  obtain ⟨t, ht, hm, hregs, hmem, hev⟩ := run_streamOffer (cyc := cyc) ho rfl htells
  have hrd : ∀ b, t.m.rd b = ((s.at cyc).streamOffer o).rd b := fun b => by rw [hm, Mach.settle_rd]
  refine ⟨t, ht, ?_, (congrArg (·.bits 31 16) (hrd _)).trans hcount, ?_, (congrArg (·.bit 3) (hrd _)).trans hasked, fun hport => ?_,
    fun hport _ => (congrArg (·.bits 15 0) (hrd _)).trans (hnet hport), hev, hregs, hmem⟩
  · rw [hm, Mach.settle_offers]
    exact hoffers
  · rw [hm, Mach.settle_ring]
    exact hgot
  · obtain ⟨hcounted, htold⟩ := hcap hport
    exact ⟨(congrArg (·.bits 31 16) (hrd _)).trans hcounted, (congrArg (·.bit 1) (hrd _)).trans htold⟩

theorem captureRegs_eq : captureRegs o = if o.port = 1 then [Reg.LAW_CAP_STAT l.ix, Reg.LAW_IRQ_STAT l.ix] else [] := by
  rw [captureRegs, (offer_place ho).1]

theorem dropRegs_eq : dropRegs o = [Reg.DMA_R_STAT l.ix r, Reg.DMA_R_IRQ l.ix r] ++
    (if o.port = 1 then [Reg.LAW_CAP_STAT l.ix, Reg.LAW_IRQ_STAT l.ix] else []) ++
    if o.port = 2 then [Reg.NET_P_CNT (o.bytes.getD 15 0 % 8)] else [] := by
  rw [dropRegs, captureRegs_eq ho, (offer_place ho).1, (offer_place ho).2]

omit ho in
theorem dropEvents_eq : ((s.at cyc).dropTold l r ++ if o.port = 1 then (s.at cyc).capTold l else []) =
    (if (s.m.ring l r).dropping then [] else [eventAt (s.at cyc) 0x3408 0 0xFF [] l.origin]) ++
      if o.port = 1 ∧ (s.m.law.get l).capDropping = false then [eventAt (s.at cyc) 0x1007 0 0xFF [] l.origin] else [] := by
  have hcap : (if o.port = 1 then (s.at cyc).capTold l else []) =
      if o.port = 1 ∧ (s.m.law.get l).capDropping = false then [eventAt (s.at cyc) 0x1007 0 0xFF [] l.origin] else [] := by
    by_cases hport : o.port = 1
    · rw [if_pos hport]
      simp only [hport, true_and]
      rfl
    · rw [if_neg hport, if_neg fun h => hport h.1]
  rw [hcap]
  rfl
end

/-! ### Invalidation (R354) -/

/-- What an invalidation keeps of the cached translations. -/
def invalidKeeps (v : Word) (e : TlbEntry) : Bool :=
  match v.bits 31 30 with
  | 0 => false
  | 1 => !(e.ctx == v.bits 29 28)
  | 2 => !(e.ctx == v.bits 29 28 && e.vpn / 2 ^ (9 * e.level) == v.bits 26 0 / 2 ^ (9 * e.level))
  | _ => true

section
variable (m : Mach) (l : Lane) (v : Word)

theorem Mach.invalidate_eq : m.invalidate l v = m.tlbDrop l fun e => !invalidKeeps v e := by
  unfold Mach.invalidate invalidKeeps
  generalize v.bits 31 30 = scope
  match scope with
  | 0 => rfl
  | 1 => simp only [Bool.not_not]
  | 2 => simp only [Bool.not_not, TlbEntry.covers]
  | _ + 3 =>
    have hall : (m.dma.lanes.get l).iotlb.filter (fun _ => !!true) = (m.dma.lanes.get l).iotlb := List.filter_true _
    have hdrop : m.tlbDrop l (fun _ => !true) = m.onDmaLane l fun d => { d with iotlb := (m.dma.lanes.get l).iotlb } := by
      rw [← hall]
      rfl
    refine Eq.trans ?_ hdrop.symm
    cases l <;> rfl

theorem Mach.tlbDrop_dma (p : TlbEntry → Bool) : ((m.tlbDrop l p).dma.lanes.get l).rings = (m.dma.lanes.get l).rings ∧
    (m.tlbDrop l p).dma.lanes.get l.other = m.dma.lanes.get l.other := by cases l <;> exact ⟨rfl, rfl⟩

theorem exec_iotlbInvalidate (cyc : Nat) (s : State) :
    ∃ t, exec (.iotlbInvalidate cyc (.lane l) l v) s = .next t ∧ (t.m.dma.lanes.get l).rings = (s.m.dma.lanes.get l).rings ∧
      t.m.dma.lanes.get l.other = s.m.dma.lanes.get l.other ∧
      (t.m.dma.lanes.get l).iotlb = (s.m.dma.lanes.get l).iotlb.filter (invalidKeeps v) ∧ Quiet s t [] := by
  have hf := (Mach.ownCopy_own (s.at cyc) l (Reg.DMA_L_INVAL l.ix) fun m => m.invalidate l v).trans ((s.at cyc).invalidate_eq l v)
  obtain ⟨hrings, hother⟩ := (s.at cyc).tlbDrop_dma l fun e => !invalidKeeps v e
  have hiotlb := (s.at cyc).iotlb_tlbDrop l fun e => !invalidKeeps v e
  simp only [Bool.not_not] at hiotlb
  have htells : (s.at cyc).FocTells [] [] ((s.at cyc).tlbDrop l fun e => !invalidKeeps v e) := ⟨rfl, rfl, rfl, fun _ _ => rfl, fun _ _ => rfl, (List.append_nil _).symm⟩
  generalize (s.at cyc).tlbDrop l (fun e => !invalidKeeps v e) = m at *
  obtain ⟨t, ht, hm, hregs, hmem, hev⟩ := run_makes (f := fun m => m.ownCopy (.lane l) l (Reg.DMA_L_INVAL l.ix) fun m => m.invalidate l v) hf htells
  have hdma : t.m.dma = m.dma := by rw [hm, Mach.settle_dma]
  rw [← hdma] at hrings hother hiotlb
  exact ⟨t, ht, hrings, hother, hiotlb, hregs, hmem, hev⟩
end

/-- Settles O42: each command of a ring leaves what its engine makes of that ring, a port's record begins a descriptor or is dropped, and an
invalidation filters the cached translations. -/
theorem ringCommandsStreamsAndInvalidation : Obligations.RingCommandsStreamsAndInvalidation := by
  unfold Obligations.RingCommandsStreamsAndInvalidation
  refine ⟨fun cyc l r s => ?_, fun cyc l r s a x c tail hstate hring ha hp hx _ hc htail hctx hstill => ?_,
    fun cyc l r s hstate hring => ⟨exec_ringAbort_empty cyc l r s hstate hring,
      fun a ha hout => exec_ringAbort_waits cyc l r s hstate hring ha hout,
      fun a ha hout hlocal => exec_ringAbort_ends cyc l r s hstate hring ha hout hlocal⟩,
    fun cyc l r s hstate hring hstill => exec_ringGo cyc l r s hstate hring hstill,
    fun cyc l r s o ho hring => ⟨fun d rest hruns hport hfetched hop hgood hfree hout hroom hfirst => ?_, fun h => ?_⟩,
    fun cyc l r s h => exec_streamRecord_none h,
    fun cyc l v s => ⟨exec_iotlbInvalidate l v cyc s, notTheOwner_ownCopy s cyc l _ fun m => m.invalidate l v⟩⟩
  · obtain ⟨hresume, habort, hgo⟩ := ringCommands_ignored cyc l r s
    exact ⟨hresume, habort, hgo, ringCommands_notTheOwner cyc l r s⟩
  · subst hc
    exact fun hsrcs hdsts => exec_ringResume cyc l r s hstate hring ha hp hx htail.symm hstill ⟨hctx, hsrcs, hdsts⟩
  · rw [← captureRegs_eq ho]
    exact exec_streamRecord_taken ho hring ⟨hruns, hport, hfetched, hop, hgood, hfree, hout, hroom, hfirst⟩
  · rw [← dropRegs_eq ho, ← dropEvents_eq]
    exact exec_streamRecord_dropped ho hring h

end Sys2Proof.Machine
end

section
/-! The bytes that the rings move, codeword by codeword (R346, R347). -/

namespace Sys2Proof.Machine

/-! ### Codewords -/

theorem Memory.writeL_append (mem : List Host.Cell) (a : Nat) (x y : List Nat) :
    Memory.writeL mem a (x ++ y) = Memory.writeL (Memory.writeL mem a x) (a + x.length) y := by
  induction x generalizing mem a with
  | nil => rfl
  | cons b x ih =>
    rw [List.cons_append, Memory.writeL, ih, Memory.writeL, List.length_cons, Nat.add_assoc, Nat.add_comm 1]

theorem codewords_succ (n a : Nat) {bytes : List Nat} (h : bytes ≠ []) :
    codewords (n + 1) a bytes = (a, bytes.take (32 - a % 32)) :: codewords n (a + (32 - a % 32)) (bytes.drop (32 - a % 32)) :=
  if_neg (by rwa [List.isEmpty_iff])

theorem codewords_nil (n a : Nat) : codewords n a [] = [] := by
  cases n <;> rfl

/-- The pieces of a range of bytes are the bytes, in the order of their addresses. -/
theorem codewords_flatten {n a : Nat} {bytes : List Nat} (h : bytes.length < n) :
    ((codewords n a bytes).map fun p => p.2).flatten = bytes := by
  induction n generalizing a bytes with
  | zero => exact absurd h (Nat.not_lt_zero _)
  | succ n ih =>
    by_cases hb : bytes = []
    · subst hb
      rw [codewords_nil]
      rfl
    · have hlen := List.length_pos_iff.2 hb
      rw [codewords_succ n a hb, List.map_cons, List.flatten_cons, ih (by rw [List.length_drop]; omega), List.take_append_drop]

theorem codewords_from {n a : Nat} {bytes : List Nat} : ∀ p ∈ codewords n a bytes, a ≤ p.1 := by
  induction n generalizing a bytes with
  | zero => exact fun p hp => absurd hp List.not_mem_nil
  | succ n ih =>
    by_cases hb : bytes = []
    · subst hb
      rw [codewords_nil]
      exact fun p hp => absurd hp List.not_mem_nil
    · rw [codewords_succ n a hb, List.forall_mem_cons]
      exact ⟨Nat.le_refl a, fun p hp => Nat.le_trans (Nat.le_add_right ..) (ih p hp)⟩

theorem codewords_sorted {n a : Nat} {bytes : List Nat} : (codewords n a bytes).Pairwise fun p q => p.1 ≤ q.1 := by
  induction n generalizing a bytes with
  | zero => exact List.Pairwise.nil
  | succ n ih =>
    by_cases hb : bytes = []
    · subst hb
      rw [codewords_nil]
      exact List.Pairwise.nil
    · rw [codewords_succ n a hb]
      exact List.Pairwise.cons (fun q hq => Nat.le_trans (Nat.le_add_right ..) (codewords_from q hq)) ih

/-- Written piece by piece, the bytes stand as written at once. -/
theorem codewords_written {n a : Nat} {bytes : List Nat} (h : bytes.length < n) (mem : List Host.Cell) :
    (codewords n a bytes).foldl (fun mem p => Memory.writeL mem p.1 p.2) mem = Memory.writeL mem a bytes := by
  induction n generalizing a bytes mem with
  | zero => exact absurd h (Nat.not_lt_zero _)
  | succ n ih =>
    by_cases hb : bytes = []
    · subst hb
      rw [codewords_nil]
      rfl
    · have hlen := List.length_pos_iff.2 hb
      rw [codewords_succ n a hb, List.foldl_cons, ih (by rw [List.length_drop]; omega)]
      by_cases hshort : 32 - a % 32 ≤ bytes.length
      · have hall := Memory.writeL_append mem a (bytes.take (32 - a % 32)) (bytes.drop (32 - a % 32))
        rw [List.take_append_drop, List.length_take_of_le hshort] at hall
        exact hall.symm
      · rw [List.drop_of_length_le (by omega), List.take_of_length_le (by omega)]
        rfl

/-- A whole codeword is one piece. -/
theorem codewords_whole {a : Nat} {bytes : List Nat} (ha : a % 32 = 0) (hlen : bytes.length = 32) : codewords 33 a bytes = [(a, bytes)] := by
  rw [codewords_succ 32 a (by rw [← List.length_pos_iff, hlen]; decide), ha, List.take_of_length_le (Nat.le_of_eq hlen),
    List.drop_of_length_le (Nat.le_of_eq hlen), codewords_nil]

section
variable (m : Mach) (mem : List Host.Cell) (req a : Nat) (bytes : List Nat)

/-- The pieces of a write by their place in the bytes. -/
def pieces (a : Nat) (bytes : List Nat) : List (Nat × List Nat) := (codewords (bytes.length + 1) a bytes).map fun p => (p.1 - a, p.2)

theorem pieces_flatten : ((pieces a bytes).map fun p => p.2).flatten = bytes := by
  rw [pieces, List.map_map]
  exact codewords_flatten (Nat.lt_succ_self _)

theorem pieces_sorted : (pieces a bytes).Pairwise fun p q => p.1 ≤ q.1 := by
  rw [pieces, List.pairwise_map]
  exact codewords_sorted.imp fun h => Nat.sub_le_sub_right h a

/-- Memory without poison takes every byte (R347). -/
theorem Mach.dmaWrite_clean (h : m.dma.poison = []) : m.dmaWrite mem req a bytes = (pieces a bytes, m, Memory.writeL mem a bytes) := by
  have hclean : ∀ x n, m.poisoned x n = false := fun x n => by
    rw [Mach.poisoned, h]
    rfl
  have hfold : ∀ (l : List (Nat × List Nat)) (done : List (Nat × List Nat)) (mem : List Host.Cell),
      l.foldl (fun (x : List (Nat × List Nat) × Mach × List Host.Cell) p =>
        let done := x.1 ++ [(p.1 - a, p.2)]
        if x.2.1.poisoned p.1 p.2.length then
          if p.2.length = 32 then
            (done, x.2.1.onDma fun d => { d with poison := d.poison.erase (p.1 / 32) }, Memory.writeL x.2.2 p.1 p.2)
          else (x.1, x.2.1.poisonRead req p.1 p.2.length, x.2.2)
        else (done, x.2.1, Memory.writeL x.2.2 p.1 p.2)) (done, m, mem) =
        (done ++ l.map (fun p => (p.1 - a, p.2)), m, l.foldl (fun mem p => Memory.writeL mem p.1 p.2) mem) := by
    intro l
    induction l with
    | nil => exact fun done mem => by rw [List.map_nil, List.append_nil]; rfl
    | cons p l ih =>
      intro done mem
      rw [List.foldl_cons]
      dsimp only
      rw [hclean, if_neg Bool.false_ne_true, ih, List.map_cons, List.append_assoc, List.foldl_cons]
      rfl
  rw [Mach.dmaWrite, hfold, codewords_written (Nat.lt_succ_self _), List.nil_append]
  rfl

/-- A whole codeword is written, poisoned or not, and is clean then (R347). -/
theorem Mach.dmaWrite_whole (ha : a % 32 = 0) (hlen : bytes.length = 32) :
    ∃ p, m.dmaWrite mem req a bytes = ([(0, bytes)], m.onDma fun d => { d with poison := p }, Memory.writeL mem a bytes) := by
  rw [Mach.dmaWrite, hlen, codewords_whole ha hlen, List.foldl_cons, List.foldl_nil]
  dsimp only
  rw [Nat.sub_self, if_pos hlen]
  split
  · exact ⟨_, rfl⟩
  · exact ⟨m.dma.poison, rfl⟩
end

/-! ### What a write leaves -/

theorem Memory.read_writeL_at {mem : List Host.Cell} (h : Memory.wf mem = true) {a b : Nat} {bytes : List Nat} (hlo : a ≤ b)
    (hhi : b < a + bytes.length) : (Memory.read (Memory.writeL mem a bytes) b).toNat = bytes.getD (b - a) 0 % 256 := by
  have hread := Memory.read_writeL h a (l := bytes) (i := b - a) (by omega)
  rwa [Nat.add_sub_cancel' hlo] at hread

theorem base40_mod (m : Mach) (lo hi n : Nat) : (m.base40 lo hi + 32 * n) % 32 = 0 := by
  rw [Mach.base40]
  omega

/-! ### The data of a transaction (R358) -/

/-- The data that a transaction moves. -/
def DmaActive.dataOf (a : DmaActive) (mem : List Host.Cell) (x : DmaTxn) : List Nat :=
  if x.reads.isEmpty then a.source x.off x.size else x.reads.flatMap fun p => Memory.readN mem p.1 p.2

theorem txnBytes_eq (s : State) (a : DmaActive) (x : DmaTxn) : a.dataOf s.mem x = txnBytes s a x := by
  unfold DmaActive.dataOf txnBytes
  cases x.reads <;> rfl

/-- Of memory no more has changed than that bytes stand at an address. -/
def Stored (mem mem' : List Host.Cell) (pa n : Nat) (bytes : List Nat) : Prop :=
  ∀ b, (pa ≤ b ∧ b < pa + n → (Memory.read mem' b).toNat = bytes.getD (b - pa) 0 % 256) ∧
    (b < pa ∨ pa + n ≤ b → Memory.read mem' b = Memory.read mem b)

theorem stored_writeL {mem : List Host.Cell} (h : Memory.wf mem = true) (pa : Nat) (bytes : List Nat) :
    Stored mem (Memory.writeL mem pa bytes) pa bytes.length bytes :=
  fun _ => ⟨fun hb => Memory.read_writeL_at h hb.1 hb.2, fun hb => Memory.read_writeL_other h bytes hb⟩

theorem stored_none (mem : List Host.Cell) (pa : Nat) (bytes : List Nat) : Stored mem mem pa 0 bytes :=
  fun _ => ⟨fun hb => absurd hb.1 (by omega), fun _ => rfl⟩

/-- What a transaction moves where nothing is poisoned. -/
structure CleanMove (mem : List Host.Cell) (bytes : List Nat) (stored pa : Nat) (ps : List (Nat × List Nat)) (mem' : List Host.Cell) : Prop where
  data : (ps.map fun p => p.2).flatten = bytes
  sorted : ps.Pairwise fun p q => p.1 ≤ q.1
  holds : Stored mem mem' pa stored bytes

theorem length_flatten_snd (l : List (Nat × List Nat)) :
    ((l.map fun p => p.2).flatten).length = (l.map fun p => p.2.length).sum := by
  rw [List.length_flatten, List.map_map]
  rfl

section
variable {m : Mach} {mem : List Host.Cell} (l : Lane) {a : DmaActive} {x : DmaTxn}

theorem Mach.not_poisoned (h : m.dma.poison = []) (b n : Nat) : m.poisoned b n = false := by
  rw [Mach.poisoned, h]
  rfl

/-- A transaction that only reads, where nothing is poisoned. -/
theorem Mach.moveTxn_reads (h : m.dma.poison = []) (hw : x.writes = []) :
    m.moveTxn mem l a x = (true, [(x.off, a.dataOf mem x)], m, mem) := by
  have hclean : ¬(x.reads.any fun p => m.poisoned p.1 p.2) = true := by
    simp only [Mach.not_poisoned h, List.any_eq_true, Bool.false_eq_true, and_false, exists_false, not_false_eq_true]
  unfold Mach.moveTxn
  rw [if_neg hclean, hw]
  rfl

/-- A transaction that reads or writes one part moves its data as a whole. -/
theorem Mach.moveTxn_clean (hwf : Memory.wf mem = true) (h : m.dma.poison = []) (hwritten : x.written = 0)
    (hlen : (a.dataOf mem x).length = x.size) {pa : Nat} (hw : x.writes = [(pa, x.size)] ∨ x.writes = []) :
    ∃ ps mem', m.moveTxn mem l a x = (true, ps, m, mem') ∧
      CleanMove mem (a.dataOf mem x) (if x.writes = [] then 0 else x.size) pa ps mem' := by
  have hclean : ¬(x.reads.any fun p => m.poisoned p.1 p.2) = true := by
    simp only [Mach.not_poisoned h, List.any_eq_true, Bool.false_eq_true, and_false, exists_false, not_false_eq_true]
  rcases hw with hw | hw
  · have hwrites : x.writes ≠ [] := by
      rw [hw]
      exact List.cons_ne_nil _ _
    refine ⟨(pieces pa (a.dataOf mem x)).map fun c => (x.off + 0 + c.1, c.2), Memory.writeL mem pa (a.dataOf mem x), ?_, ?_, ?_, ?_⟩
    · have htake : ((a.dataOf mem x).drop 0).take x.size = a.dataOf mem x := by rw [List.drop_zero, ← hlen, List.take_length]
      have hsum : (((pieces pa (a.dataOf mem x)).map fun c => (x.off + 0 + c.1, c.2)).map fun c => c.2.length).sum = x.size := by
        rw [List.map_map, ← hlen]
        exact (length_flatten_snd _).symm.trans (congrArg List.length (pieces_flatten pa _))
      generalize hb : a.dataOf mem x = bytes at htake hsum
      unfold DmaActive.dataOf at hb
      unfold Mach.moveTxn
      rw [if_neg hclean, hw, hwritten]
      dsimp only
      rw [hb, List.foldl_cons, List.foldl_nil]
      dsimp only
      rw [htake, Mach.dmaWrite_clean m mem _ pa bytes h]
      dsimp only
      rw [if_pos rfl, List.nil_append, List.nil_append, hsum, beq_self_eq_true]
      rfl
    · rw [List.map_map]
      exact pieces_flatten pa _
    · rw [List.pairwise_map]
      exact (pieces_sorted pa _).imp fun h => Nat.add_le_add_left h _
    · rw [if_neg hwrites, ← hlen]
      exact stored_writeL hwf pa _
  · refine ⟨[(x.off, a.dataOf mem x)], mem, Mach.moveTxn_reads l h hw, List.append_nil _, List.pairwise_singleton .., ?_⟩
    rw [if_pos hw]
    exact stored_none mem pa _
end

end Sys2Proof.Machine
end

section
/-! The rings post, issue, complete and record (R355 to R359, R362 to R364). -/

namespace Sys2Proof.Machine

/-! ### A transaction completes (R358) -/

theorem Mach.hasRing_of_active {m : Mach} {l : Lane} {r : Nat} (h : (m.ring l r).active ≠ []) : m.hasRing l r := by
  rw [Mach.hasRing_iff]
  by_contra hlen
  refine h ?_
  rw [Mach.ring, nth, List.getD_eq_getElem?_getD, List.getElem?_eq_none (Nat.not_lt.1 hlen)]
  rfl

theorem find?_only {a : DmaActive} {seq : Nat} (h : a.desc.seq = seq) : [a].find? (fun b => b.desc.seq == seq) = some a :=
  List.find?_cons_of_pos (beq_iff_eq.2 h)

/-- A descriptor that has moved more pieces. -/
def DmaActive.moving (a : DmaActive) (ps : List (Nat × List Nat)) : DmaActive := { a with chunks := a.chunks ++ ps }

section
variable {m : Mach} {mem : List Host.Cell} {l : Lane} {r i : Nat} {a : DmaActive} {x : DmaTxn}

/-- The machine without the transaction that completes. -/
def Mach.txnGone (m : Mach) (l : Lane) (r i : Nat) : Mach := (m.onRing l r fun g => { g with out := g.out.eraseIdx i }).dmaShow l r

theorem Mach.txnGone_engine (hring : m.hasRing l r) (i : Nat) : m.Engine l r (showRegs l r) []
    { m.ring l r with out := (m.ring l r).out.eraseIdx i } (m.ringState l r) (m.txnGone l r i) :=
  ((Mach.Engine.refl m l r hring (showRegs l r)).onRing fun g => { g with out := g.out.eraseIdx i }).dmaShow (List.Subset.refl _)

theorem Mach.txnGone_poison (hring : m.hasRing l r) (i : Nat) : (m.txnGone l r i).dma.poison = m.dma.poison := by
  rw [(Mach.txnGone_engine hring i).dma]
  rfl

/-- A descriptor's transaction completes: what its data's move has made of the machine, then of the descriptor. -/
theorem Mach.completeTxn_eq (hring : m.hasRing l r) (ha : (m.ring l r).active = [a]) (hx : (m.ring l r).out[i]? = some x)
    (hseq : x.seq = a.desc.seq) {w : Bool × List (Nat × List Nat) × Mach × List Host.Cell} (hw : (m.txnGone l r i).moveTxn mem l a x = w) :
    m.completeTxn mem l r i = ((w.2.2.1.onActive l r x.seq fun a =>
      if w.1 then a.moving w.2.1 else { a.moving w.2.1 with status := 1, issued := a.len }).endDesc l r x.seq, w.2.2.2) := by
  have hfind : ((m.txnGone l r i).ring l r).active.find? (fun a => a.desc.seq == x.seq) = some a := by
    rw [(Mach.txnGone_engine hring i).ring]
    dsimp only
    rw [ha]
    exact find?_only hseq.symm
  unfold Mach.completeTxn
  rw [hx]
  dsimp only
  rw [Mach.txnGone] at hfind hw
  rw [hfind]
  dsimp only
  rw [hw]
  rfl

/-- The ring after its data has moved. -/
def DmaRing.moved (g : DmaRing) (i : Nat) (a : DmaActive) (ps : List (Nat × List Nat)) : DmaRing :=
  { g with out := g.out.eraseIdx i, active := [a.moving ps] }

/-- The transaction's data has moved to the descriptor. -/
theorem Mach.completeTxn_moves (hring : m.hasRing l r) (ha : (m.ring l r).active = [a]) (hx : (m.ring l r).out[i]? = some x)
    (hseq : x.seq = a.desc.seq) {ps : List (Nat × List Nat)} {mem' : List Host.Cell}
    (hmove : (m.txnGone l r i).moveTxn mem l a x = (true, ps, m.txnGone l r i, mem')) :
    ∃ m', m.Engine l r (showRegs l r) [] ((m.ring l r).moved i a ps) (m.ringState l r) m' ∧
      m.completeTxn mem l r i = (m'.endDesc l r x.seq, mem') ∧ m'.lanes = m.lanes ∧ m'.net = m.net := by
  refine ⟨_, ?_, Mach.completeTxn_eq hring ha hx hseq hmove, rfl, rfl⟩
  have hstep := (Mach.txnGone_engine hring i).onRing fun g => { g with
    active := g.active.map fun b => if b.desc.seq = x.seq then b.moving ps else b }
  have hone : { m.ring l r with
      out := (m.ring l r).out.eraseIdx i
      active := (m.ring l r).active.map fun b => if b.desc.seq = x.seq then b.moving ps else b } = (m.ring l r).moved i a ps := by
    rw [ha, List.map_cons, if_pos hseq.symm]
    rfl
  exact hone ▸ hstep

theorem Mach.completeTxn_clean (hring : m.hasRing l r) (ha : (m.ring l r).active = [a]) (hx : (m.ring l r).out[i]? = some x)
    (hseq : x.seq = a.desc.seq) (hwf : Memory.wf mem = true) (hpoison : m.dma.poison = []) (hwritten : x.written = 0)
    (hlen : (a.dataOf mem x).length = x.size) {pa : Nat} (hw : x.writes = [(pa, x.size)] ∨ x.writes = []) :
    ∃ ps mem' m', CleanMove mem (a.dataOf mem x) (if x.writes = [] then 0 else x.size) pa ps mem' ∧
      m.Engine l r (showRegs l r) [] ((m.ring l r).moved i a ps) (m.ringState l r) m' ∧
      m.completeTxn mem l r i = (m'.endDesc l r x.seq, mem') := by
  obtain ⟨ps, mem', hmove, hclean⟩ := Mach.moveTxn_clean l hwf ((Mach.txnGone_poison hring i).trans hpoison) hwritten hlen hw
  obtain ⟨m', hengine, hdone, -, -⟩ := Mach.completeTxn_moves hring ha hx hseq hmove
  exact ⟨ps, mem', m', hclean, hengine, hdone⟩
end

/-! ### The descriptor of a completed transaction (R358) -/

section
variable {m m' : Mach} {l : Lane} {r : Nat} {regs : List Nat} {es : List Event} {g : DmaRing} {c : Nat} {a : DmaActive}

/-- A descriptor with something left to issue or outstanding goes on. -/
theorem Mach.Engine.goesOn (h : m.Engine l r regs es g c m') (ha : g.active = [a])
    (hmore : a.issued < a.len ∨ g.out.any (fun t => t.seq == a.desc.seq) = true) :
    m.Engine l r regs es g c (m'.endDesc l r a.desc.seq) := by
  rcases hmore with hissue | hout
  · have hstays : m'.endDesc l r a.desc.seq = m' := by
      unfold Mach.endDesc
      dsimp only
      rw [h.ring, ha, find?_only rfl]
      exact if_pos (.inl hissue)
    rw [hstays]
    exact h
  · exact h.endWaits hout

/-- A ring without a descriptor settles at once. -/
theorem Mach.Engine.settlesEmpty (h : m.Engine l r regs es g c m') (hactive : g.active = []) (hfetched : g.fetched = []) :
    m.Engine l r regs es g c (m'.settleRing l r) :=
  h.settles (fun b hb => by simp [hactive] at hb) (.inr fun d hd => by simp [hfetched] at hd)

/-- The only descriptor of a ring ends, and sends nothing. -/
theorem Mach.Engine.ends (h : m.Engine l r regs es g c m') (ha : g.active = [a]) (hissued : a.len ≤ a.issued)
    (hout : g.out.any (fun t => t.seq == a.desc.seq) = false) (hparked : g.parked.any (fun t => t.seq == a.desc.seq) = false)
    (hsilent : a.desc.op ≠ 3 ∨ a.status ≠ 0) (hlocal : m'.Local l r) (hfetched : g.fetched = []) :
    ∃ rec_, rec_[20]? = some a.status ∧ m.Engine l r regs es
      { g with active := [], ready := g.ready ++ [(a.desc.seq, rec_, a.desc.flags % 2 == 1)] } c (m'.endDesc l r a.desc.seq) := by
  obtain ⟨rec_, hrec, hfinished⟩ := h.finish hsilent hlocal
  rw [DmaRing.finished_only _ ha] at hfinished
  rw [Mach.endDesc_ends h.ring ha rfl hissued hout hparked]
  exact ⟨rec_, hrec, hfinished.settlesEmpty rfl hfetched⟩

/-- The pieces of a descriptor in order are the bytes that it has moved. -/
theorem DmaActive.moved_eq {ps : List (Nat × List Nat)} {bytes : List Nat} (hnone : a.chunks = [])
    (hsorted : ps.Pairwise fun p q => p.1 ≤ q.1) (hdata : (ps.map fun p => p.2).flatten = bytes) : (a.moving ps).moved = bytes := by
  rw [DmaActive.moved, DmaActive.moving, hnone, List.nil_append,
    List.mergeSort_of_pairwise (hsorted.imp fun h => decide_eq_true h), List.flatMap_def]
  exact hdata
end

section
variable {m m' m₁ : Mach} {l : Lane} {r : Nat} {g : DmaRing} {c : Nat} {a : DmaActive}

/-- The last transaction of a ring's only descriptor has completed: the descriptor's record waits, and nothing is left on the ring. -/
theorem Mach.endDesc_last (h : m.Engine l r (showRegs l r) [] g c m') (ha : g.active = [a]) (hissued : a.len ≤ a.issued)
    (hout : g.out = []) (hparked : g.parked = []) (hfetched : g.fetched = []) {m₀ : Mach}
    (hsent : (if a.desc.op = 3 ∧ m'.fld (Reg.DMA_R_CFG l.ix r) 27 25 = 3 ∧ a.status = 0 then
      m'.netBackground l a.desc.param a.moved else (true, m')) = (true, m₀)) (hlocal : m₀.Local l r)
    (h5 : (if a.desc.op = 3 ∧ m'.fld (Reg.DMA_R_CFG l.ix r) 27 25 = 5 ∧ a.status = 0 then
      m₀.onDma fun x => { x with port5 := x.port5 ++ [⟨l, r, a.desc.param, a.moved⟩] } else m₀) = m₁)
    (hlanes : m₁.dma.lanes = m'.dma.lanes) :
    ∃ t, (∀ t₀, a.issueAt = some t₀ → t = t₀) ∧
      m₁.Engine l r [] [] { g with active := [], ready := g.ready ++ [(a.desc.seq, m₁.recordOf l r a t a.moved, a.desc.flags % 2 == 1)] }
        (m₁.ringState l r) (m'.endDesc l r a.desc.seq) ∧ (m'.endDesc l r a.desc.seq).net = m₁.net := by
  have hring : m₁.ring l r = g := by
    rw [Mach.ring, hlanes]
    exact h.ring
  have hhas : m₁.hasRing l r := by
    rw [Mach.hasRing, hring, hlanes]
    exact h.ring?
  obtain ⟨t, n, ht, heq⟩ := Mach.finishDesc_eq m' l r a hsent hlocal h5
  have hfinished := ((Mach.Engine.refl m₁ l r hhas []).spend n).onRing fun g => g.finished a.desc (m₁.recordOf l r a t a.moved)
  rw [hring, DmaRing.finished_only _ ha] at hfinished
  have hsettled := hfinished.settlesEmpty rfl hfetched
  have hrests : ((m₁.spend n).onRing l r fun g => g.finished a.desc (m₁.recordOf l r a t a.moved)).settleRing l r =
      (m₁.spend n).onRing l r fun g => g.finished a.desc (m₁.recordOf l r a t a.moved) :=
    Mach.settleRing_rests _ l r (fun b hb => by rw [hfinished.ring] at hb; exact absurd hb (Option.not_mem_none _))
      (.inr fun d hd => by rw [hfinished.ring, hfetched] at hd; exact absurd hd (Option.not_mem_none _))
  have hend := Mach.endDesc_ends h.ring ha rfl hissued (by rw [hout]; rfl) (by rw [hparked]; rfl)
  rw [hend, heq]
  exact ⟨t, fun t₀ h₀ => (ht t₀ h₀).1, hsettled, by rw [hrests]; rfl⟩
end

/-! ### The rows of completion -/

section
variable {cyc : Nat} {l : Lane} {r : Fin 16} {i : Fin 32} {s : State} {a : DmaActive} {x : DmaTxn}

theorem exec_transactionComplete_runs (hruns : s.m.dmaRuns = true) {y : Mach × List Host.Cell}
    (h : (s.at cyc).completeTxn s.mem l r i = y) :
    exec (.transactionComplete cyc l r i) s = .next { s with m := y.1.settle, mem := y.2 } :=
  runMem_eq (f := fun m mem => if m.dmaRuns then m.completeTxn mem l r i else (m, mem)) ((if_pos hruns).trans h)

theorem exec_transactionComplete_rests (h : s.m.dmaRuns = false ∨ (s.m.ring l r).out[i.val]? = none) :
    ∃ t, exec (.transactionComplete cyc l r i) s = .next t ∧ t.m.dma = s.m.dma ∧ Quiet s t [] := by
  have hf : (if (s.at cyc).dmaRuns then (s.at cyc).completeTxn s.mem l r i else (s.at cyc, s.mem)) = (s.at cyc, s.mem) := by
    rcases h with h | h
    · exact if_neg (Bool.eq_false_iff.1 h)
    · have hnone : (s.at cyc).completeTxn s.mem l r i = (s.at cyc, s.mem) := by
        unfold Mach.completeTxn
        rw [State.at_ring, h]
      rw [hnone, ite_self]
  obtain ⟨t, ht, hm, hquiet⟩ := runMem_idle (f := fun m mem => if m.dmaRuns then m.completeTxn mem l r i else (m, mem)) hf
  exact ⟨t, ht, by rw [hm]; rfl, hquiet⟩

/-- A transaction whose data moves, from a descriptor that goes on. -/
theorem exec_transactionComplete_goesOn (hwf : Memory.wf s.mem = true) (hruns : s.m.dmaRuns = true) (ha : (s.m.ring l r).active = [a])
    (hx : (s.m.ring l r).out[i.val]? = some x) (hseq : x.seq = a.desc.seq) (hpoison : s.m.dma.poison = []) (hwritten : x.written = 0)
    (hlen : (txnBytes s a x).length = x.size) {pa : Nat} (hw : x.writes = [(pa, x.size)] ∨ x.writes = [])
    (hmore : a.issued < a.len ∨ ∃ y ∈ (s.m.ring l r).out.eraseIdx i, y.seq = a.desc.seq) :
    ∃ t, exec (.transactionComplete cyc l r i) s = .next t ∧ Stored s.mem t.mem pa (if x.writes = [] then 0 else x.size) (txnBytes s a x) ∧
      (∃ ps, (ps.map fun p => p.2).flatten = txnBytes s a x ∧ t.m.ring l r = { s.m.ring l r with
        out := (s.m.ring l r).out.eraseIdx i, active := [{ a with chunks := a.chunks ++ ps }] }) ∧
      SameRegsBut s t (ringRegs l r) ∧ Raises s t [] := by
  rw [← txnBytes_eq] at hlen ⊢
  have hhas : s.m.hasRing l r := Mach.hasRing_of_active (by rw [ha]; exact List.cons_ne_nil _ _)
  obtain ⟨ps, mem', m', hclean, hengine, hdone⟩ := Mach.completeTxn_clean (m := s.at cyc) hhas ha hx hseq hwf hpoison hwritten hlen hw
  have hgoes := hengine.goesOn (a := a.moving ps) rfl (hmore.imp id fun ⟨y, hy, hys⟩ => List.any_eq_true.2 ⟨y, hy, beq_iff_eq.2 hys⟩)
  rw [hseq] at hdone
  refine ⟨_, exec_transactionComplete_runs hruns hdone, hclean.holds, ⟨ps, hclean.data, ?_⟩,
    fun b hb => (Mach.settle_rd _ b).trans (hgoes.tells.rd b fun hin => hb (showRegs_subset l r hin)), hgoes.tells.raised⟩
  exact (Mach.settle_ring ..).trans hgoes.ring
end

/-- What goes to port 5 of a descriptor that completes (R361). -/
def toPort5 (s : State) (l : Lane) (r : Nat) (a : DmaActive) (bytes : List Nat) : List PortData :=
  if a.desc.op = 3 ∧ s.m.fld (Reg.DMA_R_CFG l.ix r) 27 25 = 5 then [⟨l, r, a.desc.param, bytes⟩] else []

/-- The data of a descriptor at port 5. -/
def Mach.atPort5 (m : Mach) (ds : List PortData) : Mach := m.onDma fun x => { x with port5 := x.port5 ++ ds }

theorem Mach.atPort5_nil (m : Mach) : m.atPort5 [] = m := by
  have hnil : m.dma.port5 ++ [] = m.dma.port5 := List.append_nil _
  exact congrArg (fun p => m.onDma fun x => { x with port5 := p }) hnil

theorem cfg_not_shown (l : Lane) (r : Nat) : Reg.DMA_R_CFG l.ix r ∉ showRegs l r := fetch_not_shown l r _ List.mem_cons_self

section
variable {cyc : Nat} {l : Lane} {r : Fin 16} {i : Fin 32} {s : State} {a : DmaActive} {x : DmaTxn}

/-- The last transaction of a ring's only descriptor: the record waits, and the data stands at port 5 where it goes there. -/
theorem exec_transactionComplete_last (hwf : Memory.wf s.mem = true) (hruns : s.m.dmaRuns = true) (ha : (s.m.ring l r).active = [a])
    (hx : (s.m.ring l r).out[i.val]? = some x) (hseq : x.seq = a.desc.seq) (hpoison : s.m.dma.poison = []) (hwritten : x.written = 0)
    (hlen : (txnBytes s a x).length = x.size) {pa : Nat} (hw : x.writes = [(pa, x.size)] ∨ x.writes = []) (hissued : a.len ≤ a.issued)
    (hout : (s.m.ring l r).out = [x]) (hfetched : (s.m.ring l r).fetched = []) (hparked : (s.m.ring l r).parked = [])
    (hchunks : a.chunks = []) (hstatus : a.status = 0) (hissue : a.issueAt.isSome = true) (hlocal : s.m.Local l r)
    (hport : a.desc.op = 3 → s.m.fld (Reg.DMA_R_CFG l.ix r) 27 25 ≠ 3) :
    ∃ t, exec (.transactionComplete cyc l r i) s = .next t ∧ Stored s.mem t.mem pa (if x.writes = [] then 0 else x.size) (txnBytes s a x) ∧
      (t.m.ring l r).active = [] ∧ (t.m.ring l r).out = [] ∧
      (t.m.ring l r).ready = (s.m.ring l r).ready ++ [(a.desc.seq, doneRecord s cyc l r a (txnBytes s a x), a.desc.flags % 2 == 1)] ∧
      t.m.dma.port5 = s.m.dma.port5 ++ toPort5 s l r a (txnBytes s a x) ∧ SameRegsBut s t (ringRegs l r) ∧ Raises s t [] := by
  rw [← txnBytes_eq] at hlen ⊢
  have hi : (s.m.ring l r).out.eraseIdx i = [] := by
    rw [hout] at hx ⊢
    obtain ⟨hlt, -⟩ := List.getElem?_eq_some_iff.1 hx
    have hzero : i.val = 0 := by simpa using hlt
    rw [hzero]
    rfl
  have hhas : s.m.hasRing l r := Mach.hasRing_of_active (by rw [ha]; exact List.cons_ne_nil _ _)
  obtain ⟨ps, mem', m', hclean, hengine, hdone⟩ := Mach.completeTxn_clean (m := s.at cyc) hhas ha hx hseq hwf hpoison hwritten hlen hw
  have hmoved := DmaActive.moved_eq hchunks hclean.sorted hclean.data
  have hcfg : ∀ hi lo, m'.fld (Reg.DMA_R_CFG l.ix r) hi lo = s.m.fld (Reg.DMA_R_CFG l.ix r) hi lo := fun hi lo =>
    congrArg (·.bits hi lo) (hengine.tells.rd _ (cfg_not_shown l r))
  have hkept : m'.Local l r := (congrArg (·.bit 23) (hengine.tells.rd _ (cfg_not_shown l r))).trans hlocal
  have hno : ¬(a.desc.op = 3 ∧ m'.fld (Reg.DMA_R_CFG l.ix r) 27 25 = 3 ∧ a.status = 0) := fun h =>
    hport h.1 ((hcfg 27 25).symm.trans h.2.1)
  have h5 : (if (a.moving ps).desc.op = 3 ∧ m'.fld (Reg.DMA_R_CFG l.ix r) 27 25 = 5 ∧ (a.moving ps).status = 0 then
      m'.onDma fun x => { x with port5 := x.port5 ++ [⟨l, r, (a.moving ps).desc.param, (a.moving ps).moved⟩] } else m') =
      m'.atPort5 (toPort5 s l r a (a.dataOf s.mem x)) := by
    rw [hmoved, toPort5, hcfg]
    by_cases h : a.desc.op = 3 ∧ s.m.fld (Reg.DMA_R_CFG l.ix r) 27 25 = 5
    · rw [if_pos h, if_pos ⟨h.1, h.2, hstatus⟩]
      rfl
    · rw [if_neg h, if_neg fun h' => h ⟨h'.1, h'.2.1⟩, Mach.atPort5_nil]
  obtain ⟨t, ht, hlast, -⟩ := Mach.endDesc_last hengine rfl hissued hi hparked hfetched (if_neg hno) hkept h5 rfl
  rw [hseq] at hdone
  have htells : (s.at cyc).FocTells (showRegs l r) [] (m'.endDesc l r a.desc.seq) :=
    (hengine.tells.onDma _).trans (hlast.tells.mono (List.nil_subset _))
  refine ⟨_, exec_transactionComplete_runs hruns hdone, hclean.holds, ?_, ?_, ?_, ?_,
    fun b hb => (Mach.settle_rd _ b).trans (htells.rd b fun hin => hb (showRegs_subset l r hin)), htells.raised⟩
  · exact congrArg DmaRing.active ((Mach.settle_ring ..).trans hlast.ring)
  · exact (congrArg DmaRing.out ((Mach.settle_ring ..).trans hlast.ring)).trans hi
  · refine (congrArg DmaRing.ready ((Mach.settle_ring ..).trans hlast.ring)).trans ?_
    obtain ⟨t₀, ht₀⟩ := Option.isSome_iff_exists.1 hissue
    have hnow : (m'.atPort5 (toPort5 s l r a (a.dataOf s.mem x))).now = (s.at cyc).now := hengine.tells.now
    have hrec : (m'.atPort5 (toPort5 s l r a (a.dataOf s.mem x))).recordOf l r (a.moving ps) t (a.moving ps).moved =
        doneRecord s cyc l r a (a.dataOf s.mem x) := by
      rw [hmoved, Mach.recordOf, doneRecord, hnow, ht t₀ ht₀, ht₀, DmaActive.moving, hstatus]
      rfl
    rw [hrec]
    rfl
  · have hport5 : (m'.endDesc l r a.desc.seq).dma.port5 = m'.dma.port5 ++ toPort5 s l r a (a.dataOf s.mem x) :=
      congrArg DmaState.port5 hlast.dma
    rw [hengine.dma] at hport5
    exact hport5
end

/-! ### A completed STREAM_OUT to the network, and a poisoned read (R347, R361) -/

section
variable {cyc : Nat} {l : Lane} {r : Fin 16} {s : State} {a : DmaActive} {x : DmaTxn}

/-- A message of a lane that runs alone goes to its port. -/
theorem Mach.netBackground_room {m : Mach} {param : Nat} {bytes : List Nat} (hlive : m.admitted l = true) (hpair : m.pairedLive = false)
    (hflow : m.txFlow (param % 64) = true) (hlen : bytes.length ≤ m.portMax (m.flowPort (param % 64)))
    (hroom : (m.port (m.flowPort (param % 64))).queue.length < 32) : m.netBackground l param bytes = (true, m.onNet fun n => { n with
      ports := upd n.ports (m.flowPort (param % 64)) fun q => { q with queue := q.queue ++ [⟨param % 64, bytes, m.seq, 0⟩] } }) := by
  have hfits : ¬(decide (m.portMax (m.flowPort (param % 64)) < bytes.length) || !m.txFlow (param % 64)) = true := by
    rw [hflow, decide_eq_false (Nat.not_lt.2 hlen)]
    decide
  have halone : ¬(m.pairedLive && m.active != l) = true := by
    rw [hpair]
    exact Bool.false_ne_true
  have hqueued := Mach.netQueue_room (m := m) (x := ⟨param % 64, bytes, m.seq, 0⟩) hroom
  exact (if_neg hfits).trans ((if_neg halone).trans ((if_pos hlive).trans (congrArg (Prod.mk true) hqueued)))

theorem netCfg_not_shown (l : Lane) (r : Fin 16) (n : Nat) :
    Reg.NET_P_CFG n ∉ showRegs l r ∧ Reg.NET_FLOW_W0 n ∉ showRegs l r := by
  have hr := r.isLt
  have hix : l.ix < 2 := by cases l <;> decide
  simp only [showRegs, List.mem_cons, List.not_mem_nil, or_false]
  unfold Reg.NET_P_CFG Reg.NET_FLOW_W0 Reg.DMA_R_STAT Reg.DMA_L_STATUS Reg.DMA_L_FSTAT
  omega

/-- How a message goes out depends on no more than the lanes' states, the flow and the port. -/
theorem Mach.FocTells.sending {m m' : Mach} {es : List Event} (h : m.FocTells (showRegs l r) es m') (hlanes : m'.lanes = m.lanes) :
    m'.admitted = m.admitted ∧ m'.pairedLive = m.pairedLive ∧ m'.flow = m.flow ∧ m'.portMax = m.portMax := by
  have hadm : m'.admitted = m.admitted := by
    funext k
    rw [Mach.admitted, Mach.admitted, h.live_eq, hlanes]
  have harr : m'.arr = m.arr := congrArg (·.bits 5 4) (h.stamp Reg.LANE_STATUS (by decide))
  refine ⟨hadm, ?_, funext fun f => h.rd _ (netCfg_not_shown l r f).2, funext fun p => ?_⟩
  · rw [Mach.pairedLive, Mach.pairedLive, harr, hadm]
  · rw [Mach.portMax, Mach.portMax, Mach.bit, Mach.bit, h.rd _ (netCfg_not_shown l r p).1]

theorem exec_transactionComplete_sends (hruns : s.m.dmaRuns = true) (ha : (s.m.ring l r).active = [a]) (hout : (s.m.ring l r).out = [x])
    (hseq : x.seq = a.desc.seq) (hop : a.desc.op = 3) (hissued : a.len ≤ a.issued) (hfetched : (s.m.ring l r).fetched = [])
    (hparked : (s.m.ring l r).parked = []) (hchunks : a.chunks = []) (hstatus : a.status = 0) (hwrites : x.writes = [])
    (hpoison : s.m.dma.poison = []) (hport : s.m.fld (Reg.DMA_R_CFG l.ix r) 27 25 = 3) (hlocal : s.m.Local l r) (halone : s.alone l)
    (hflow : s.m.txFlow (a.desc.param % 64) = true) (hlen : (txnBytes s a x).length ≤ s.m.portMax (s.m.flowPort (a.desc.param % 64)))
    (hroom : (s.m.port (s.m.flowPort (a.desc.param % 64))).queue.length < 32) :
    ∃ t, exec (.transactionComplete cyc l r 0) s = .next t ∧
      t.m.net.ports = upd s.m.net.ports (s.m.flowPort (a.desc.param % 64)) (fun q => { q with
        queue := q.queue ++ [⟨a.desc.param % 64, txnBytes s a x, s.m.seq, 0⟩] }) ∧ Quiet s t (ringRegs l r) := by
  rw [← txnBytes_eq] at hlen ⊢
  have hhas : s.m.hasRing l r := Mach.hasRing_of_active (by rw [ha]; exact List.cons_ne_nil _ _)
  have hx : (s.m.ring l r).out[0]? = some x := by rw [hout]; rfl
  have hmove := Mach.moveTxn_reads (mem := s.mem) (a := a) l ((Mach.txnGone_poison (m := s.at cyc) hhas 0).trans hpoison) hwrites
  obtain ⟨m', hengine, hdone, hlanes, hnet⟩ := Mach.completeTxn_moves (m := s.at cyc) hhas ha hx hseq hmove
  have hmoved : (a.moving [(x.off, a.dataOf s.mem x)]).moved = a.dataOf s.mem x :=
    DmaActive.moved_eq hchunks (List.pairwise_singleton ..) (List.append_nil _)
  obtain ⟨hadm, hpair, hflows, hmax⟩ := hengine.tells.sending hlanes
  have hcfg := hengine.tells.rd _ (cfg_not_shown l r)
  have hgo : a.desc.op = 3 ∧ m'.fld (Reg.DMA_R_CFG l.ix r) 27 25 = 3 ∧ a.status = 0 :=
    ⟨hop, (congrArg (·.bits 27 25) hcfg).trans hport, hstatus⟩
  have hplace : m'.flowPort = s.m.flowPort := funext fun f => congrArg (·.bits 25 23) (congrFun hflows f)
  have hports : m'.port = s.m.port := funext fun p => congrArg (fun n : NetState => nth n.ports p) hnet
  have hsent := Mach.netBackground_room (m := m') (l := l) (param := a.desc.param) (bytes := a.dataOf s.mem x)
    ((congrFun hadm l).trans halone.1) (hpair.trans halone.2)
    ((congrArg (fun w : Word => w.bit 31 && w.bit 30) (congrFun hflows (a.desc.param % 64))).trans hflow)
    (by rw [hmax, hplace]; exact hlen) (by rw [hports, hplace]; exact hroom)
  rw [hplace, hengine.tells.seq_eq] at hsent
  have hlocal' : m'.Local l r := (congrArg (·.bit 23) hcfg).trans hlocal
  have hif : (if a.desc.op = 3 ∧ m'.fld (Reg.DMA_R_CFG l.ix r) 27 25 = 3 ∧ a.status = 0 then
      m'.netBackground l a.desc.param (a.moving [(x.off, a.dataOf s.mem x)]).moved else (true, m')) = _ :=
    (if_pos hgo).trans ((congrArg (m'.netBackground l a.desc.param) hmoved).trans hsent)
  obtain ⟨t, -, hlast, hnets⟩ := Mach.endDesc_last (a := a.moving [(x.off, a.dataOf s.mem x)]) hengine rfl hissued
    (by rw [DmaRing.moved, State.at_ring, hout]; rfl) hparked hfetched
    hif hlocal' (if_neg fun h => absurd (hgo.2.1.symm.trans h.2.1) (by decide)) rfl
  rw [hseq] at hdone
  have htells : (s.at cyc).FocTells (showRegs l r) [] (m'.endDesc l r a.desc.seq) :=
    (hengine.tells.onNet _).trans (hlast.tells.mono (List.nil_subset _))
  refine ⟨_, exec_transactionComplete_runs hruns hdone, ?_,
    fun b hb => (Mach.settle_rd _ b).trans (htells.rd b fun hin => hb (showRegs_subset l r hin)), fun _ => rfl, htells.raised⟩
  have hqueued := congrArg NetState.ports hnets
  exact hqueued.trans (congrArg (fun n : NetState => upd n.ports (s.m.flowPort (a.desc.param % 64)) fun q => { q with
    queue := q.queue ++ [⟨a.desc.param % 64, a.dataOf s.mem x, s.m.seq, 0⟩] }) hnet)
end

section
variable {m m' : Mach} {mem : List Host.Cell} {l : Lane} {a : DmaActive} {x : DmaTxn}

/-- A read that meets poison moves nothing (R347). -/
theorem Mach.moveTxn_poisoned (h : (x.reads.any fun p => m.poisoned p.1 p.2) = true) :
    ∃ m', m.DmaNoted m' ∧ m.moveTxn mem l a x = (false, [], m', mem) :=
  ⟨_, forL_induct (P := m.DmaNoted) (fun _ _ m' hm' => hm'.trans (.poisonRead m' ..)) (.refl m), if_pos h⟩

theorem Mach.DmaNoted.ring_eq (h : m.DmaNoted m') (r : Nat) : m'.ring l r = m.ring l r ∧ (m.hasRing l r → m'.hasRing l r) := by
  obtain ⟨p, u, hdma⟩ := h.dma
  have hring : m'.ring l r = m.ring l r := by
    rw [Mach.ring, hdma]
    rfl
  refine ⟨hring, fun hhas => ?_⟩
  rw [Mach.hasRing, hring, hdma]
  exact hhas

/-- A descriptor ended by a memory error. -/
def DmaActive.spoilt (a : DmaActive) : DmaActive := { a with chunks := a.chunks ++ [], status := 1, issued := a.len }

theorem ringCfg_not_noted : ∀ (l : Lane) (r : Fin 16), Reg.DMA_R_CFG l.ix r ∉ noteRegs := by
  intro l
  cases l <;> decide
end

section
variable {cyc : Nat} {l : Lane} {r : Fin 16} {s : State} {a : DmaActive} {x : DmaTxn}

theorem exec_transactionComplete_poisoned (hruns : s.m.dmaRuns = true) (ha : (s.m.ring l r).active = [a]) (hout : (s.m.ring l r).out = [x])
    (hseq : x.seq = a.desc.seq) (hfetched : (s.m.ring l r).fetched = []) (hhas : s.m.hasRing l r) (hlocal : s.m.Local l r)
    (hbad : (x.reads.any fun p => s.m.poisoned p.1 p.2) = true) (hparked : (s.m.ring l r).parked = []) :
    ∃ t rec_, exec (.transactionComplete cyc l r 0) s = .next t ∧ SameMemory s t ∧ (t.m.ring l r).active = [] ∧
      (t.m.ring l r).ready = (s.m.ring l r).ready ++ [(a.desc.seq, rec_, a.desc.flags % 2 == 1)] ∧ rec_[20]? = some 1 := by
  have hx : (s.m.ring l r).out[0]? = some x := by rw [hout]; rfl
  have hgone := Mach.txnGone_engine (m := s.at cyc) hhas 0
  have hsame : ∀ b n, ((s.at cyc).txnGone l r 0).poisoned b n = s.m.poisoned b n := fun b n => by
    rw [Mach.poisoned, Mach.txnGone_poison (m := s.at cyc) hhas 0]
    rfl
  obtain ⟨m₂, hnoted, hmove⟩ := Mach.moveTxn_poisoned (m := (s.at cyc).txnGone l r 0) (mem := s.mem) (l := l) (a := a)
    (by simpa only [hsame] using hbad)
  have hdone := Mach.completeTxn_eq (m := s.at cyc) hhas ha hx hseq hmove
  obtain ⟨hring, hkeeps⟩ := hnoted.ring_eq (l := l) r
  rw [hgone.ring, State.at_ring, hout] at hring
  have hlocal₂ : m₂.Local l r := (congrArg (·.bit 23) (hnoted.rd _ (ringCfg_not_noted l r))).trans
    ((congrArg (·.bit 23) (hgone.tells.rd _ (cfg_not_shown l r))).trans hlocal)
  have hspoilt := (Mach.Engine.refl m₂ l r (hkeeps hgone.has) []).onRing fun g => { g with
    active := g.active.map fun b => if b.desc.seq = x.seq then b.spoilt else b }
  have hone : { m₂.ring l r with active := (m₂.ring l r).active.map fun b => if b.desc.seq = x.seq then b.spoilt else b } =
      { s.m.ring l r with out := [], active := [a.spoilt] } := by
    rw [hring]
    dsimp only
    rw [ha, List.map_cons, if_pos hseq.symm]
    rfl
  rw [hone] at hspoilt
  obtain ⟨rec_, hrec, hends⟩ := hspoilt.ends rfl (Nat.le_refl _) rfl (by rw [hparked]; rfl) (.inr Nat.one_ne_zero) hlocal₂ hfetched
  rw [hseq] at hdone hends
  refine ⟨_, rec_, exec_transactionComplete_runs hruns hdone, fun _ => rfl, ?_, ?_, hrec⟩
  · exact congrArg DmaRing.active ((Mach.settle_ring ..).trans hends.ring)
  · exact congrArg DmaRing.ready ((Mach.settle_ring ..).trans hends.ring)
end

end Sys2Proof.Machine
end

section
/-! Posts, issues and completion records of the rings (R355 to R359, R362 to R364). -/

namespace Sys2Proof.Machine

/-! ### Posts (R355) -/

section
variable (m : Mach) (mem : List Host.Cell) (l : Lane) (r : Nat) (v : Word)

/-- The machine with TAIL written. -/
def Mach.tailAt (m : Mach) (l : Lane) (r : Nat) (v : Word) : Mach := m.wrN (Reg.DMA_R_TAIL l.ix r) (v.bits 11 0 % m.ringSize l r)

theorem ringTail_spec : Reg.DMA_R_TAIL l.ix r ∉ stampRegs ∧ Reg.DMA_R_TAIL l.ix r ≠ Reg.DMA_R_STAT l.ix r ∧
    ∀ b ∈ fetchRegs l r, b ∉ [Reg.DMA_R_TAIL l.ix r] := by
  refine ⟨not_mem_stampRegs_of_lt (by unfold Reg.DMA_R_TAIL; omega), by unfold Reg.DMA_R_TAIL Reg.DMA_R_STAT; omega, fun b hb => ?_⟩
  simp only [fetchRegs, List.mem_cons, List.not_mem_nil, or_false] at hb ⊢
  unfold Reg.DMA_R_CFG Reg.DMA_R_BASE_LO Reg.DMA_R_BASE_HI Reg.DMA_R_HEAD at hb
  unfold Reg.DMA_R_TAIL
  omega

theorem Mach.ringSize_spec : 0 < m.ringSize l r ∧ m.ringSize l r ≤ 4096 := by
  rw [Mach.ringSize]
  have hpow := Nat.two_pow_pos (m.fld (Reg.DMA_R_CFG l.ix r) 17 14 + 1)
  omega

theorem Mach.tailAt_tail : (m.tailAt l r v).fld (Reg.DMA_R_TAIL l.ix r) 11 0 = v.bits 11 0 % m.ringSize l r := by
  obtain ⟨hpos, hmax⟩ := m.ringSize_spec l r
  have hlt := Nat.mod_lt (v.bits 11 0) hpos
  rw [Mach.fld, Mach.tailAt, Mach.wrN, Mach.rd_wr_self, Word.bits, BitVec.toNat_ofNat, Nat.shiftRight_zero]
  omega

variable {m l r} in
theorem Mach.tailAt_engine (hring : m.hasRing l r) :
    m.Engine l r [Reg.DMA_R_TAIL l.ix r] [] (m.ring l r) (m.ringState l r) (m.tailAt l r v) :=
  (Mach.Engine.refl m l r hring _).wr List.mem_cons_self (ringTail_spec l r).1 (ringTail_spec l r).2.1 _

theorem Mach.ringPost_rests (hstate : m.ringState l r ≠ 1) (hfence : ∀ a ∈ (m.ring l r).active.head?, a.desc.op ≠ 4) :
    m.ringPost mem l r v = m.tailAt l r v := by
  have hstopped : (m.tailAt l r v).ringState l r = m.ringState l r := Mach.ringState_wr_other (ringTail_spec l r).2.1 _
  have hfetch : (m.tailAt l r v).fetchRing mem l r = m.tailAt l r v := Mach.fetchRing_rests _ mem l r (hstopped ▸ hstate)
  calc m.ringPost mem l r v = ((m.tailAt l r v).fetchRing mem l r).settleRing l r := rfl
    _ = (m.tailAt l r v).settleRing l r := by rw [hfetch]
    _ = m.tailAt l r v := Mach.settleRing_rests _ l r hfence (.inl (hstopped ▸ hstate))

variable {m l r} in
/-- A running ring that has fetched what a post adds. -/
theorem Mach.tailAt_fetched (hring : m.hasRing l r) (hstate : m.ringState l r = 1) :
    (m.tailAt l r v).Engine l r [] [] ((m.ring l r).fetching (m.posted mem l r (v.bits 11 0 % m.ringSize l r))) 1
      ((m.tailAt l r v).fetchRing mem l r) := by
  have hposted := Mach.tailAt_engine v hring
  have hsame : (m.tailAt l r v).posted mem l r (v.bits 11 0 % m.ringSize l r) = m.posted mem l r (v.bits 11 0 % m.ringSize l r) :=
    Mach.posted_congr mem l r _ (fun b hb => hposted.tells.rd b ((ringTail_spec l r).2.2 b hb)) rfl rfl
  have hfetched := (hposted.state.trans hstate ▸ Mach.Engine.refl (m.tailAt l r v) l r hposted.has []).fetch mem (m.tailAt_tail l r v)
    (fun _ _ => List.not_mem_nil) rfl rfl
  rw [hsame, hposted.ring] at hfetched
  exact hfetched

variable {m l r} in
theorem Mach.ringPost_runs (hring : m.hasRing l r) (hstate : m.ringState l r = 1)
    (hstill : m.Still mem l r (v.bits 11 0 % m.ringSize l r)) :
    (m.tailAt l r v).Engine l r [] [] ((m.ring l r).fetching (m.posted mem l r (v.bits 11 0 % m.ringSize l r))) 1
      (m.ringPost mem l r v) :=
  (Mach.tailAt_fetched mem v hring hstate).settles hstill.1 (.inr hstill.2)
end

section
variable (cyc : Nat) (l : Lane) (r : Fin 16) (v : Word) (s : State)

theorem exec_descriptorPost_own : exec (.descriptorPost cyc (.lane l) l r v) s = runMem s cyc fun m mem => (m.ringPost mem l r v, mem) := by
  cases l <;> rfl

theorem descriptorPost_notTheOwner : NotTheOwner s cyc l (Reg.DMA_R_TAIL l.ix r) (exec (.descriptorPost cyc (.lane l.other) l r v) s)
    (exec (.descriptorPost cyc .safety l r v) s) := by
  have hpost : ∀ who, exec (.descriptorPost cyc who l r v) s =
      run s cyc fun m => m.ownCopy who l (Reg.DMA_R_TAIL l.ix r) fun m => m.ringPost s.mem l r v := fun _ => rfl
  rw [hpost, hpost]
  exact notTheOwner_ownCopy s cyc l _ fun m => m.ringPost s.mem l r v

theorem tail_shown {m : Mach} (h : ∀ b, b = Reg.DMA_R_TAIL l.ix r → m.rd b = ((s.at cyc).tailAt l r v).rd b) :
    m.settle.rd (Reg.DMA_R_TAIL l.ix r) = BitVec.ofNat 32 (v.bits 11 0 % s.m.ringSize l r) := by
  rw [Mach.settle_rd, h _ rfl, Mach.tailAt, Mach.wrN, Mach.rd_wr_self, State.at_ringSize]

theorem exec_descriptorPost_rests (hstate : s.m.ringState l r ≠ 1) (hfence : ∀ a ∈ (s.m.ring l r).active.head?, a.desc.op ≠ 4) :
    ∃ t, exec (.descriptorPost cyc (.lane l) l r v) s = .next t ∧
      t.m.rd (Reg.DMA_R_TAIL l.ix r) = BitVec.ofNat 32 (v.bits 11 0 % s.m.ringSize l r) ∧ t.m.dma = s.m.dma ∧
      Quiet s t [Reg.DMA_R_TAIL l.ix r] := by
  have hrests := (s.at cyc).ringPost_rests s.mem l r v (State.at_ringState (s := s) (l := l) (r := r) cyc ▸ hstate) hfence
  have htells : (s.at cyc).FocTells [Reg.DMA_R_TAIL l.ix r] [] ((s.at cyc).tailAt l r v) :=
    (Mach.FocTells.refl _ _).wr List.mem_cons_self (ringTail_spec l r).1 _
  obtain ⟨t, ht, hm, hregs, hmem, hev⟩ := runMem_makes (f := fun m mem => (m.ringPost mem l r v, mem)) (congrArg (·, s.mem) hrests) htells
  refine ⟨t, (exec_descriptorPost_own ..).trans ht, ?_, ?_, hregs, hmem, hev⟩
  · rw [hm]
    exact tail_shown cyc l r v s fun _ _ => rfl
  · rw [hm]
    rfl

/-- What a post leaves, from what it makes of the ring once TAIL is written. -/
theorem exec_descriptorPost {regs : List Nat} {es : List Event} {g : DmaRing} {c : Nat} (hregs : Reg.DMA_R_TAIL l.ix r ∉ regs)
    (h : ((s.at cyc).tailAt l r v).Engine l r regs es g c ((s.at cyc).ringPost s.mem l r v))
    (hes : (s.at cyc).FocTells (Reg.DMA_R_TAIL l.ix r :: regs) es ((s.at cyc).ringPost s.mem l r v)) :
    ∃ t, exec (.descriptorPost cyc (.lane l) l r v) s = .next t ∧
      t.m.rd (Reg.DMA_R_TAIL l.ix r) = BitVec.ofNat 32 (v.bits 11 0 % s.m.ringSize l r) ∧ t.m.ringState l r = c ∧ t.m.ring l r = g ∧
      t.m = ((s.at cyc).ringPost s.mem l r v).settle ∧
      SameRegsBut s t (Reg.DMA_R_TAIL l.ix r :: regs) ∧ SameMemory s t ∧ Raises s t es := by
  have htail : ∀ b, b = Reg.DMA_R_TAIL l.ix r → ((s.at cyc).ringPost s.mem l r v).rd b = ((s.at cyc).tailAt l r v).rd b :=
    fun b hb => h.tells.rd b (hb ▸ hregs)
  have hwide : ((s.at cyc).tailAt l r v).Engine l r (Reg.DMA_R_TAIL l.ix r :: regs) es g c ((s.at cyc).ringPost s.mem l r v) :=
    h.mono (List.subset_cons_self ..)
  obtain ⟨t, ht, hm, hst, hg, hmem, hrd, hev⟩ := runMem_engine (f := fun m mem => (m.ringPost mem l r v, mem)) rfl hwide hes
  refine ⟨t, (exec_descriptorPost_own ..).trans ht, ?_, hst, hg, hm, hrd, fun b => by rw [hmem], hev⟩
  rw [hm]
  exact tail_shown cyc l r v s htail

theorem exec_descriptorPost_runs (hstate : s.m.ringState l r = 1) (hring : s.m.hasRing l r)
    (hstill : NothingFollows s l r (v.bits 11 0 % s.m.ringSize l r)) :
    ∃ t, exec (.descriptorPost cyc (.lane l) l r v) s = .next t ∧
      t.m.rd (Reg.DMA_R_TAIL l.ix r) = BitVec.ofNat 32 (v.bits 11 0 % s.m.ringSize l r) ∧
      t.m.ring l r = fetchedRing s l r (v.bits 11 0 % s.m.ringSize l r) (s.m.ring l r) ∧ Quiet s t [Reg.DMA_R_TAIL l.ix r] := by
  have hpost := Mach.ringPost_runs (m := s.at cyc) s.mem v hring ((State.at_ringState cyc).trans hstate)
    (by rw [State.at_ringSize]; exact State.at_still cyc l r s hstill)
  rw [State.at_ringSize, State.at_posted, fetching_eq_fetchedRing] at hpost
  have htells := (((Mach.FocTells.refl (s.at cyc) [Reg.DMA_R_TAIL l.ix r]).wr List.mem_cons_self (ringTail_spec l r).1 _ :
    (s.at cyc).FocTells _ _ ((s.at cyc).tailAt l r v))).trans (hpost.tells.mono (List.nil_subset _))
  obtain ⟨t, ht, htail, -, hg, -, hregs, hmem, hev⟩ := exec_descriptorPost cyc l r v s List.not_mem_nil hpost htells
  exact ⟨t, ht, htail, hg, hregs, hmem, hev⟩
end

/-! ### What follows of itself (R355, R356) -/

section
variable {m m₁ m₂ m' : Mach} {l : Lane} {r : Nat} {regs regs' : List Nat} {es es' : List Event} {g g' : DmaRing} {c c' : Nat}

/-- What two steps leave, one after the other. -/
theorem Mach.FocTells.append (h : m.FocTells regs es m₁) (h' : m₁.FocTells regs' es' m₂) :
    m.FocTells (regs ++ regs') (es ++ es') m₂ where
  now := h'.now.trans h.now
  cyc := h'.cyc.trans h.cyc
  tick := h'.tick.trans h.tick
  stamp b hb := (h'.stamp b hb).trans (h.stamp b hb)
  rd b hb := (h'.rd b fun h => hb (List.mem_append_right _ h)).trans (h.rd b fun h => hb (List.mem_append_left _ h))
  raised := by rw [h'.raised, h.raised, List.append_assoc]

theorem Mach.Engine.append (h : m.Engine l r regs es g c m₁) (h' : m₁.Engine l r regs' es' g' c' m₂) :
    m.Engine l r (regs ++ regs') (es ++ es') g' c' m₂ :=
  ⟨h.tells.append h'.tells, h.here, h'.dma.trans (Mach.onRing_onRing_dma m l r m₁ g (fun _ => g') h.dma), h'.state⟩

/-- A ring after a descriptor has begun. -/
def DmaRing.began (g : DmaRing) (a : DmaActive) : DmaRing := { g with fetched := g.fetched.drop 1, active := g.active ++ [a] }

theorem Mach.Engine.begin (h : m.Engine l r regs es g c m') (ha : Reg.DMA_R_HEAD l.ix r ∈ regs) (d : DmaDesc) (data : List Nat)
    (len status : Nat) : m.Engine l r regs es (g.began (startedDesc d data len status)) c (m'.beginDesc l r d data len status) :=
  (h.onRing fun g => g.began (startedDesc d data len status)).wr ha (ringHead_not_stamp l r)
    (by unfold Reg.DMA_R_HEAD Reg.DMA_R_STAT; omega) _

/-- With no descriptor under way the first of a running ring decides. -/
theorem Mach.settleOne_next {d : DmaDesc} {rest : List DmaDesc} (hactive : (m.ring l r).active = [])
    (hfetched : (m.ring l r).fetched = d :: rest) (hstate : m.ringState l r = 1) : m.settleOne l r =
      if d.bad then some (m.descError l r d) else if d.op = 4 then some (m.beginDesc l r d [] 0 0) else none := by
  have hruns : ¬m.ringState l r ≠ 1 := not_not.2 hstate
  unfold Mach.settleOne
  dsimp only
  rw [hactive, hfetched]
  exact if_neg hruns

/-- A FENCE with nothing before it completes. -/
theorem Mach.settleOne_fence {a : DmaActive} {rest : List DmaActive} (hactive : (m.ring l r).active = a :: rest) (hop : a.desc.op = 4) :
    m.settleOne l r = some (m.finishDesc l r a) := by
  unfold Mach.settleOne
  dsimp only
  rw [hactive, List.head?_cons, Option.filter_some, if_pos (beq_iff_eq.2 hop)]

theorem Mach.settleRing_one {d : DmaDesc} (hactive : (m.ring l r).active = []) (hfetched : (m.ring l r).fetched = [d]) :
    m.settleRing l r = m.settleSteps l r 2 := by
  rw [Mach.settleRing, hactive, hfetched]
  rfl

theorem Mach.settleSteps_some {n : Nat} (h : m.settleOne l r = some m') : m.settleSteps l r (n + 1) = m'.settleSteps l r n := by
  rw [Mach.settleSteps, h]

theorem Mach.settleSteps_none {n : Nat} (h : m.settleOne l r = none) : m.settleSteps l r n = m := by
  cases n with
  | zero => rfl
  | succ n => rw [Mach.settleSteps, h]

/-- A ring halted by a descriptor error, once the descriptor has begun (R356). -/
def Mach.errorHalt (m : Mach) (l : Lane) (r : Nat) (d : DmaDesc) : Mach :=
  (((m.finishDesc l r (startedDesc d [] 0 3)).setRing l r 3).raise 0x3409 1 0xFF [] l.origin).ringIrq l r 2

theorem Mach.settleOne_empty (hactive : (m.ring l r).active = []) (hfetched : (m.ring l r).fetched = []) : m.settleOne l r = none := by
  unfold Mach.settleOne
  dsimp only
  rw [hactive, hfetched]
  rfl

/-- The ring that a completed descriptor has left, which was its only one. -/
def DmaRing.recorded (g : DmaRing) (d : DmaDesc) (rec_ : List Nat) : DmaRing :=
  { g with fetched := [], active := [], ready := g.ready ++ [(d.seq, rec_, d.flags % 2 == 1)] }

theorem DmaRing.finished_began {d : DmaDesc} {data : List Nat} {len status : Nat} (hactive : g.active = []) (hfetched : g.fetched = [d])
    (rec_ : List Nat) : (g.began (startedDesc d data len status)).finished d rec_ = g.recorded d rec_ := by
  have hone : (g.began (startedDesc d data len status)).active = [startedDesc d data len status] := by
    rw [DmaRing.began, hactive]
    rfl
  refine (DmaRing.finished_only rec_ hone).trans ?_
  rw [DmaRing.began, hfetched]
  rfl

theorem head_not_cfg (l : Lane) (r : Nat) : Reg.DMA_R_CFG l.ix r ∉ [Reg.DMA_R_HEAD l.ix r] := by
  rw [List.mem_singleton]
  unfold Reg.DMA_R_CFG Reg.DMA_R_HEAD
  omega

section
variable {d : DmaDesc} (hring : m.hasRing l r) (hstate : m.ringState l r = 1) (hactive : (m.ring l r).active = [])
  (hfetched : (m.ring l r).fetched = [d]) (hlocal : m.Local l r)
include hring hstate hactive hfetched hlocal

/-- A FENCE at the head of an empty ring begins and completes. -/
theorem Mach.settleRing_fence (hgood : d.bad = false) (hop : d.op = 4) :
    ∃ rec_, rec_[20]? = some 0 ∧
      m.Engine l r [Reg.DMA_R_HEAD l.ix r] [] ((m.ring l r).recorded d rec_) 1 (m.settleRing l r) ∧
      (m.settleRing l r).fld (Reg.DMA_R_HEAD l.ix r) 11 0 = (d.index + 1) % m.ringSize l r % 2 ^ 12 := by
  have hbegin : m.settleOne l r = some (m.beginDesc l r d [] 0 0) := by
    rw [Mach.settleOne_next hactive hfetched hstate, hgood, if_neg Bool.false_ne_true, if_pos hop]
  have hbegun := (hstate ▸ Mach.Engine.refl m l r hring [Reg.DMA_R_HEAD l.ix r] : m.Engine l r _ [] (m.ring l r) 1 m).begin
    List.mem_cons_self d [] 0 0
  have hhead := m.beginDesc_head l r d [] 0 0
  rw [Mach.settleRing_one hactive hfetched, Mach.settleSteps_some hbegin]
  generalize m.beginDesc l r d [] 0 0 = m₁ at hbegun hhead
  have hone : (m₁.ring l r).active = [startedDesc d [] 0 0] := by
    rw [hbegun.ring, DmaRing.began, hactive]
    rfl
  have hkept : m₁.Local l r := Mach.Local.of_engine l r hbegun (head_not_cfg l r) hlocal
  obtain ⟨rec_, hrec, hfinished⟩ := (Mach.Engine.refl m₁ l r hbegun.has []).finish (a := startedDesc d [] 0 0)
    (.inl fun h => absurd (hop.symm.trans h) (by decide)) hkept
  have hsettled : m₁.settleSteps l r 1 = m₁.finishDesc l r (startedDesc d [] 0 0) := by
    rw [Mach.settleSteps_some (Mach.settleOne_fence hone hop)]
    rfl
  have hgone : (m₁.ring l r).finished d rec_ = (m.ring l r).recorded d rec_ := by
    rw [hbegun.ring]
    exact DmaRing.finished_began hactive hfetched rec_
  rw [hsettled]
  refine ⟨rec_, hrec, ?_, (congrArg (·.bits 11 0) (hfinished.tells.rd _ List.not_mem_nil)).trans hhead⟩
  have hboth := hbegun.append hfinished
  rw [hbegun.state] at hboth
  exact hgone ▸ hboth

/-- A descriptor error at the head of an empty ring completes it with DESCERR and halts the ring. -/
theorem Mach.settleRing_error (hbad : d.bad = true) :
    ∃ rec_, rec_[20]? = some 3 ∧
      m.Engine l r [Reg.DMA_R_HEAD l.ix r, Reg.DMA_R_STAT l.ix r, Reg.DMA_R_IRQ l.ix r] [eventAt m 0x3409 1 0xFF [] l.origin]
        ((m.ring l r).recorded d rec_) 3 (m.settleRing l r) ∧
      (m.settleRing l r).fld (Reg.DMA_R_HEAD l.ix r) 11 0 = (d.index + 1) % m.ringSize l r % 2 ^ 12 := by
  have herror : m.settleOne l r = some ((m.beginDesc l r d [] 0 3).errorHalt l r d) := by
    rw [Mach.settleOne_next hactive hfetched hstate, if_pos hbad]
    rfl
  have hbegun := (hstate ▸ Mach.Engine.refl m l r hring [Reg.DMA_R_HEAD l.ix r] : m.Engine l r _ [] (m.ring l r) 1 m).begin
    List.mem_cons_self d [] 0 3
  have hhead := m.beginDesc_head l r d [] 0 3
  rw [Mach.settleRing_one hactive hfetched, Mach.settleSteps_some herror]
  generalize m.beginDesc l r d [] 0 3 = m₁ at hbegun hhead
  have hkept : m₁.Local l r := Mach.Local.of_engine l r hbegun (head_not_cfg l r) hlocal
  obtain ⟨rec_, hrec, hfinished⟩ := (Mach.Engine.refl m₁ l r hbegun.has [Reg.DMA_R_STAT l.ix r, Reg.DMA_R_IRQ l.ix r]).finish
    (a := startedDesc d [] 0 3) (.inr (by decide : 3 ≠ 0)) hkept
  have hgone : (m₁.ring l r).finished d rec_ = (m.ring l r).recorded d rec_ := by
    rw [hbegun.ring]
    exact DmaRing.finished_began hactive hfetched rec_
  have hhalted : m₁.Engine l r _ _ _ 3 (m₁.errorHalt l r d) := ((hfinished.setRing List.mem_cons_self (by decide)).raise 0x3409 1 0xFF []
    l.origin).ringIrq (List.mem_cons_of_mem _ List.mem_cons_self) 2
  rw [List.nil_append, hbegun.tells.eventAt_eq] at hhalted
  have hrests : (m₁.errorHalt l r d).settleOne l r = none := Mach.settleOne_empty
    (by rw [hhalted.ring]; exact congrArg DmaRing.active hgone) (by rw [hhalted.ring]; exact congrArg DmaRing.fetched hgone)
  rw [Mach.settleSteps_none hrests]
  refine ⟨rec_, hrec, hgone ▸ hbegun.append hhalted, (congrArg (·.bits 11 0) (hhalted.tells.rd _ ?_)).trans hhead⟩
  simp only [List.mem_cons, List.not_mem_nil, or_false]
  unfold Reg.DMA_R_HEAD Reg.DMA_R_STAT Reg.DMA_R_IRQ
  omega
end
end

section
variable (cyc : Nat) (l : Lane) (r : Fin 16) (v : Word) (s : State) {d : DmaDesc} (hstate : s.m.ringState l r = 1)
  (hfetched : (s.m.ring l r).fetched = []) (hactive : (s.m.ring l r).active = []) (hlocal : s.m.Local l r) (hring : s.m.hasRing l r)
  (hposted : posted s l r (v.bits 11 0 % s.m.ringSize l r) = [d])

/-- The machine of a ring that has fetched one descriptor. -/
def Mach.postFetched (m : Mach) (mem : List Host.Cell) (l : Lane) (r : Nat) (v : Word) : Mach := (m.tailAt l r v).fetchRing mem l r

theorem tail_not_ringRegs : Reg.DMA_R_TAIL l.ix r ∉ [Reg.DMA_R_HEAD l.ix r, Reg.DMA_R_STAT l.ix r, Reg.DMA_R_IRQ l.ix r] := by
  simp only [List.mem_cons, List.not_mem_nil, or_false]
  unfold Reg.DMA_R_TAIL Reg.DMA_R_HEAD Reg.DMA_R_STAT Reg.DMA_R_IRQ
  omega

include hstate hfetched hactive hlocal hring hposted

/-- The ring has fetched the one descriptor posted. -/
theorem postFetched_engine : ∃ g : DmaRing, g.fetched = [d] ∧ g.active = [] ∧ g.ready = (s.m.ring l r).ready ∧
    ((s.at cyc).tailAt l r v).Engine l r [] [] g 1 ((s.at cyc).postFetched s.mem l r v) ∧
    ((s.at cyc).postFetched s.mem l r v).Local l r ∧
    ((s.at cyc).postFetched s.mem l r v).ringSize l r = s.m.ringSize l r ∧
    (s.at cyc).FocTells [Reg.DMA_R_TAIL l.ix r] [] ((s.at cyc).postFetched s.mem l r v) := by
  have hengine := Mach.tailAt_fetched (m := s.at cyc) s.mem v hring ((State.at_ringState cyc).trans hstate)
  rw [State.at_ringSize, State.at_posted, hposted, State.at_ring] at hengine
  have htells := (((Mach.FocTells.refl (s.at cyc) [Reg.DMA_R_TAIL l.ix r]).wr List.mem_cons_self (ringTail_spec l r).1 _ :
    (s.at cyc).FocTells _ _ ((s.at cyc).tailAt l r v))).trans (hengine.tells.mono (List.nil_subset _))
  have hcfg := htells.rd _ ((ringTail_spec l r).2.2 (Reg.DMA_R_CFG l.ix r) List.mem_cons_self)
  refine ⟨_, ?_, ?_, ?_, hengine, (congrArg (·.bit 23) hcfg).trans hlocal, ?_, htells⟩
  · rw [DmaRing.fetching, hfetched]
    rfl
  · exact hactive
  · rfl
  · exact (congrArg (fun w : Word => min (2 ^ (w.bits 17 14 + 1)) 4096) hcfg)

omit hstate hfetched hactive hlocal hring hposted in
/-- What a post leaves once the descriptor that it adds has completed. -/
theorem exec_descriptorPost_completes {g : DmaRing} {regs : List Nat} {es : List Event} {c : Nat} {rec_ : List Nat}
    (hregs : Reg.DMA_R_TAIL l.ix r ∉ regs) (hready : g.ready = (s.m.ring l r).ready)
    (hpost : ((s.at cyc).tailAt l r v).Engine l r [] [] g 1 ((s.at cyc).postFetched s.mem l r v))
    (htells : (s.at cyc).FocTells [Reg.DMA_R_TAIL l.ix r] [] ((s.at cyc).postFetched s.mem l r v))
    (hdone : ((s.at cyc).postFetched s.mem l r v).Engine l r regs es (g.recorded d rec_) c
      (((s.at cyc).postFetched s.mem l r v).settleRing l r)) :
    ∃ t, exec (.descriptorPost cyc (.lane l) l r v) s = .next t ∧ t.m.ringState l r = c ∧ (t.m.ring l r).fetched = [] ∧
      (t.m.ring l r).active = [] ∧
      (t.m.ring l r).ready = (s.m.ring l r).ready ++ [(d.seq, rec_, d.flags % 2 == 1)] ∧
      (∀ b, t.m.rd b = (((s.at cyc).postFetched s.mem l r v).settleRing l r).rd b) ∧
      SameRegsBut s t (Reg.DMA_R_TAIL l.ix r :: regs) ∧ SameMemory s t ∧ Raises s t es := by
  obtain ⟨t, ht, -, hst, hg, hm, hrd, hmem, hev⟩ := exec_descriptorPost cyc l r v s hregs (hpost.append hdone) (htells.append hdone.tells)
  refine ⟨t, ht, hst, ?_, ?_, ?_, fun b => ?_, hrd, hmem, hev⟩
  · rw [hg]
    rfl
  · rw [hg]
    rfl
  · rw [hg, DmaRing.recorded, hready]
  · rw [hm, Mach.settle_rd]
    rfl

theorem exec_descriptorPost_fence (hgood : d.bad = false) (hop : d.op = 4) :
    ∃ t rec_, exec (.descriptorPost cyc (.lane l) l r v) s = .next t ∧ (t.m.ring l r).fetched = [] ∧ (t.m.ring l r).active = [] ∧
      (t.m.ring l r).ready = (s.m.ring l r).ready ++ [(d.seq, rec_, d.flags % 2 == 1)] ∧ rec_[20]? = some 0 ∧
      t.m.fld (Reg.DMA_R_HEAD l.ix r) 11 0 = (d.index + 1) % s.m.ringSize l r % 2 ^ 12 ∧
      Quiet s t [Reg.DMA_R_TAIL l.ix r, Reg.DMA_R_HEAD l.ix r] := by
  obtain ⟨g, hgf, hga, hgr, hpost, hkept, hsize, htells⟩ := postFetched_engine cyc l r v s hstate hfetched hactive hlocal hring hposted
  obtain ⟨rec_, hrec, hdone, hhead⟩ := Mach.settleRing_fence hpost.has hpost.state (hpost.ring ▸ hga) (hpost.ring ▸ hgf) hkept hgood hop
  rw [hpost.ring] at hdone
  rw [hsize] at hhead
  obtain ⟨t, ht, -, hf, ha, hr, hrd, hregs, hmem, hev⟩ := exec_descriptorPost_completes cyc l r v s
    (fun h => tail_not_ringRegs l r (List.mem_cons.2 (.inl (List.mem_singleton.1 h)))) hgr hpost htells hdone
  exact ⟨t, rec_, ht, hf, ha, hr, hrec, (congrArg (·.bits 11 0) (hrd _)).trans hhead, hregs, hmem, hev⟩

theorem exec_descriptorPost_error (hbad : d.bad = true) :
    ∃ t rec_, exec (.descriptorPost cyc (.lane l) l r v) s = .next t ∧ t.m.ringState l r = 3 ∧
      (t.m.ring l r).ready = (s.m.ring l r).ready ++ [(d.seq, rec_, d.flags % 2 == 1)] ∧ rec_[20]? = some 3 ∧
      t.m.fld (Reg.DMA_R_HEAD l.ix r) 11 0 = (d.index + 1) % s.m.ringSize l r % 2 ^ 12 ∧
      Raises s t [eventAt (s.at cyc) 0x3409 1 0xFF [] l.origin] ∧
      SameRegsBut s t (Reg.DMA_R_TAIL l.ix r :: ringRegs l r) ∧ SameMemory s t := by
  obtain ⟨g, hgf, hga, hgr, hpost, hkept, hsize, htells⟩ := postFetched_engine cyc l r v s hstate hfetched hactive hlocal hring hposted
  obtain ⟨rec_, hrec, hdone, hhead⟩ := Mach.settleRing_error hpost.has hpost.state (hpost.ring ▸ hga) (hpost.ring ▸ hgf) hkept hbad
  rw [hpost.ring, htells.eventAt_eq] at hdone
  rw [hsize] at hhead
  obtain ⟨t, ht, hst, -, -, hr, hrd, hregs, hmem, hev⟩ := exec_descriptorPost_completes cyc l r v s (tail_not_ringRegs l r) hgr hpost htells
    hdone
  refine ⟨t, rec_, ht, hst, hr, hrec, (congrArg (·.bits 11 0) (hrd _)).trans hhead, hev, fun b hb => hregs b fun h => hb ?_, hmem⟩
  simp only [ringRegs, List.mem_cons, List.not_mem_nil, or_false] at h ⊢
  tauto
end

end Sys2Proof.Machine
end

section
/-! Completion records and the issue of transactions (R357, R359, R362 to R364). -/

namespace Sys2Proof.Machine

/-! ### Completion records (R359) -/

section
variable (m : Mach) (mem : List Host.Cell) (l : Lane) (r : Nat)

/-- A ring whose record has left it: the queue's head moves past it. -/
def Mach.headMoved (m : Mach) (l : Lane) (r : Nat) (y : Nat × List Nat × Bool) : Mach :=
  (m.onRing l r fun g => { g with ready := g.ready.erase y }).setFld (Reg.DMA_R_CQHEAD l.ix r) 11 0
    ((m.fld (Reg.DMA_R_CQHEAD l.ix r) 11 0 + 1) % m.ringSize l r)

/-- The ring's interrupt is asked for where the descriptor asks. -/
def Mach.recordLeft (m : Mach) (l : Lane) (r : Nat) (y : Nat × List Nat × Bool) : Mach :=
  if y.2.2 then (m.headMoved l r y).ringIrq l r 0 else m.headMoved l r y

theorem Mach.writeRecord_some {y : Nat × List Nat × Bool} (h : m.nextRecord l r = some y) (hfree : m.cqFree l r = true) :
    m.writeRecord mem l r = ((m.recordLeft l r y).dmaWrite mem (dmaReq l)
      (m.base40 (Reg.DMA_R_CQ_LO l.ix r) (Reg.DMA_R_CQ_HI l.ix r) + 32 * m.fld (Reg.DMA_R_CQHEAD l.ix r) 11 0) y.2.1).2 := by
  have hroom : ¬(!m.cqFree l r) = true := by
    rw [hfree]
    decide
  unfold Mach.writeRecord
  rw [h]
  exact if_neg hroom

theorem Mach.writeRecord_rests (h : m.nextRecord l r = none ∨ m.cqFree l r = false) : m.writeRecord mem l r = (m, mem) := by
  unfold Mach.writeRecord
  rcases h with h | h
  · rw [h]
  · split
    · rfl
    · rw [h]
      rfl

/-- The registers that a completion record writes. -/
abbrev recordRegs (l : Lane) (r : Nat) : List Nat := [Reg.DMA_R_CQHEAD l.ix r, Reg.DMA_R_IRQ l.ix r]

theorem cqHead_spec : Reg.DMA_R_CQHEAD l.ix r ∉ stampRegs ∧ Reg.DMA_R_CQHEAD l.ix r ≠ Reg.DMA_R_STAT l.ix r ∧
    Reg.DMA_R_CQHEAD l.ix r ≠ Reg.DMA_R_IRQ l.ix r := by
  unfold Reg.DMA_R_CQHEAD Reg.DMA_R_STAT Reg.DMA_R_IRQ
  exact ⟨not_mem_stampRegs_of_lt (by omega), by omega, by omega⟩

variable {m l r} in
theorem Mach.recordLeft_engine (hring : m.hasRing l r) (y : Nat × List Nat × Bool) :
    m.Engine l r (recordRegs l r) [] { m.ring l r with ready := (m.ring l r).ready.erase y } (m.ringState l r) (m.recordLeft l r y) := by
  obtain ⟨hstamp, hne, -⟩ := cqHead_spec l r
  have hmoved : m.Engine l r (recordRegs l r) [] { m.ring l r with ready := (m.ring l r).ready.erase y } (m.ringState l r)
      (m.headMoved l r y) :=
    ((Mach.Engine.refl m l r hring (recordRegs l r)).onRing fun g => { g with ready := g.ready.erase y }).wr List.mem_cons_self hstamp hne _
  unfold Mach.recordLeft
  split
  · exact hmoved.ringIrq (List.mem_cons_of_mem _ List.mem_cons_self) 0
  · exact hmoved

theorem Mach.recordLeft_shows (y : Nat × List Nat × Bool) :
    (m.recordLeft l r y).fld (Reg.DMA_R_CQHEAD l.ix r) 11 0 = (m.fld (Reg.DMA_R_CQHEAD l.ix r) 11 0 + 1) % m.ringSize l r ∧
      (m.recordLeft l r y).bit (Reg.DMA_R_IRQ l.ix r) 0 = (y.2.2 || m.bit (Reg.DMA_R_IRQ l.ix r) 0) := by
  obtain ⟨-, -, hne⟩ := cqHead_spec l r
  obtain ⟨hpos, hmax⟩ := m.ringSize_spec l r
  have hlt := Nat.mod_lt (m.fld (Reg.DMA_R_CQHEAD l.ix r) 11 0 + 1) hpos
  have hhead : (m.headMoved l r y).fld (Reg.DMA_R_CQHEAD l.ix r) 11 0 = (m.fld (Reg.DMA_R_CQHEAD l.ix r) 11 0 + 1) % m.ringSize l r :=
    (Mach.fld_setFld _ _ (by decide) (by decide)).trans (Nat.mod_eq_of_lt (by omega))
  have hirq : (m.headMoved l r y).bit (Reg.DMA_R_IRQ l.ix r) 0 = m.bit (Reg.DMA_R_IRQ l.ix r) 0 :=
    congrArg (·.bit 0) (Mach.rd_wr_other _ _ hne.symm)
  unfold Mach.recordLeft
  generalize m.headMoved l r y = m₁ at hhead hirq
  cases hy : y.2.2
  · rw [if_neg Bool.false_ne_true, Bool.false_or]
    exact ⟨hhead, hirq⟩
  · rw [if_pos rfl, Bool.true_or]
    refine ⟨?_, Mach.bit_orr (i := 0) m₁ (by decide)⟩
    rw [Mach.fld, Mach.ringIrq, Mach.rd_orr, if_neg hne]
    exact hhead
end

section
variable (cyc : Nat) (l : Lane) (r : Fin 16) (s : State)

theorem State.at_base40 (lo hi : Nat) : (s.at cyc).base40 lo hi = s.m.base40 lo hi := by
  rw [Mach.base40, Mach.base40, State.at_rd, State.at_fld]

theorem State.at_nextRecord : (s.at cyc).nextRecord l r = s.m.nextRecord l r := rfl

theorem exec_completionWrite_rests (h : s.m.dmaRuns = false ∨ s.m.nextRecord l r = none ∨ s.m.cqFree l r = false) :
    ∃ t, exec (.completionWrite cyc l r) s = .next t ∧ t.m.dma = s.m.dma ∧ Quiet s t [] := by
  have hf : (if (s.at cyc).dmaRuns then (s.at cyc).writeRecord s.mem l r else (s.at cyc, s.mem)) = (s.at cyc, s.mem) := by
    rcases h with h | h
    · exact if_neg (Bool.eq_false_iff.1 h)
    · rw [Mach.writeRecord_rests _ s.mem l r (by rwa [State.at_nextRecord, State.at_cqFree]), ite_self]
  obtain ⟨t, ht, hm, hquiet⟩ := runMem_idle (f := fun m mem => if m.dmaRuns then m.writeRecord mem l r else (m, mem)) hf
  exact ⟨t, ht, by rw [hm]; rfl, hquiet⟩

theorem exec_completionWrite {y : Nat × List Nat × Bool} (hwf : Memory.wf s.mem = true) (hruns : s.m.dmaRuns = true)
    (hy : s.m.nextRecord l r = some y) (hring : s.m.hasRing l r) (hfree : s.m.cqFree l r = true) (hlen : y.2.1.length = 32)
    (hbytes : ∀ b ∈ y.2.1, b < 256) {h a : Nat} (hh : s.m.fld (Reg.DMA_R_CQHEAD l.ix r) 11 0 = h)
    (ha : s.m.base40 (Reg.DMA_R_CQ_LO l.ix r) (Reg.DMA_R_CQ_HI l.ix r) + 32 * h = a) :
    ∃ t, exec (.completionWrite cyc l r) s = .next t ∧ Memory.readN t.mem a 32 = y.2.1 ∧
      (∀ b, b < a ∨ a + 32 ≤ b → Memory.read t.mem b = Memory.read s.mem b) ∧
      t.m.fld (Reg.DMA_R_CQHEAD l.ix r) 11 0 = (h + 1) % s.m.ringSize l r ∧
      (t.m.ring l r).ready = (s.m.ring l r).ready.erase y ∧
      t.m.bit (Reg.DMA_R_IRQ l.ix r) 0 = (y.2.2 || s.m.bit (Reg.DMA_R_IRQ l.ix r) 0) ∧
      SameRegsBut s t [Reg.DMA_R_CQHEAD l.ix r, Reg.DMA_R_IRQ l.ix r] ∧ Raises s t [] := by
  have hwritten := (s.at cyc).writeRecord_some s.mem l r hy ((State.at_cqFree cyc).trans hfree)
  rw [State.at_base40, State.at_fld, hh, ha] at hwritten
  have hleft := Mach.recordLeft_engine (m := s.at cyc) hring y
  obtain ⟨hhead, hirq⟩ := (s.at cyc).recordLeft_shows l r y
  rw [State.at_fld, State.at_ringSize, hh] at hhead
  generalize (s.at cyc).recordLeft l r y = m₁ at hwritten hleft hhead hirq
  obtain ⟨p, hwhole⟩ := Mach.dmaWrite_whole m₁ s.mem (dmaReq l) a y.2.1 (ha ▸ base40_mod ..) hlen
  rw [hwhole] at hwritten
  have hf : (if (s.at cyc).dmaRuns then (s.at cyc).writeRecord s.mem l r else (s.at cyc, s.mem)) =
      (m₁.onDma fun d => { d with poison := p }, Memory.writeL s.mem a y.2.1) := (if_pos hruns).trans hwritten
  obtain ⟨t, ht, hm, hmem, hregs, hev⟩ := runMem_tells (f := fun m mem => if m.dmaRuns then m.writeRecord mem l r else (m, mem)) hf
    (hleft.tells.onDma _)
  have hrd : ∀ b, t.m.rd b = m₁.rd b := fun b => by rw [hm, Mach.settle_rd]; rfl
  refine ⟨t, ht, ?_, fun b hb => ?_, (congrArg (·.bits 11 0) (hrd _)).trans hhead, ?_, (congrArg (·.bit 0) (hrd _)).trans hirq, hregs, hev⟩
  · rw [hmem, ← hlen, Memory.readN_writeL hwf]
    exact map_mod_of_lt hbytes
  · rw [hmem]
    exact Memory.read_writeL_other hwf _ (by rwa [hlen])
  · rw [hm, Mach.settle_ring]
    exact congrArg DmaRing.ready hleft.ring
end

/-! ### The ring and the descriptor that the engine serves (R357) -/

section
variable {m : Mach} {l : Lane} {r : Nat}

theorem Mach.chooseRing_spec (h : m.chooseRing l = some r) : r < 16 ∧ ∃ w, m.nextWork l r = some w := by
  unfold Mach.chooseRing at h
  obtain ⟨p, -, hfind⟩ := List.exists_of_findSome?_eq_some h
  have hmem := List.mem_of_find?_eq_some hfind
  have hwork := List.find?_some hfind
  obtain ⟨i, -, hi⟩ := List.mem_map.1 hmem
  refine ⟨hi ▸ Nat.mod_lt _ (by decide), ?_⟩
  rw [Bool.and_eq_true, Option.any_eq_true] at hwork
  obtain ⟨w, hw, -⟩ := hwork.2
  exact ⟨w, hw⟩

theorem Mach.nextWork_under_way {a : DmaActive} (h : ∃ w, m.nextWork l r = some w) (ha : (m.ring l r).active = [a])
    (hmore : a.issued < a.len) : m.nextWork l r = some (true, a.desc) := by
  obtain ⟨w, hw⟩ := h
  unfold Mach.nextWork at hw ⊢
  dsimp only at hw ⊢
  have hfind : (m.ring l r).active.find? (fun a => decide (a.issued < a.len)) = some a := by
    rw [ha]
    exact List.find?_cons_of_pos (decide_eq_true hmore)
  rw [hfind] at hw ⊢
  split at hw
  · cases hw
  · next hgo => exact if_neg hgo

theorem Mach.nextWork_head {d : DmaDesc} {rest : List DmaDesc} (h : ∃ w, m.nextWork l r = some w) (ha : (m.ring l r).active = [])
    (hf : (m.ring l r).fetched = d :: rest) : m.nextWork l r = some (false, d) := by
  obtain ⟨w, hw⟩ := h
  unfold Mach.nextWork at hw ⊢
  dsimp only at hw ⊢
  rw [ha, hf] at hw ⊢
  dsimp only [List.find?_nil, List.head?_cons] at hw ⊢
  split at hw
  · cases hw
  · next hgo =>
    split at hw
    · cases hw
    · next hfit => exact (if_neg hgo).trans (if_neg hfit)
end

section
variable (m : Mach) (mem : List Host.Cell) (l : Lane) (r : Nat)

/-- The ring served last at its PRIO. -/
def Mach.servedRing (m : Mach) (l : Lane) (r : Nat) : Mach :=
  m.onDmaLane l fun x => { x with served := upd x.served (m.fld (Reg.DMA_R_CFG l.ix r) 21 20) fun _ => r }

/-- A descriptor whose next transaction is on its way. -/
def DmaActive.issuing (a : DmaActive) (n now : Nat) : DmaActive :=
  { a with issueAt := some (a.issueAt.getD now), issued := a.issued + n }

/-- The machine that issues the next transaction of `b`. -/
def Mach.issuing (m : Mach) (l : Lane) (r : Nat) (b : DmaActive) : Mach :=
  (m.servedRing l r).onActive l r b.desc.seq fun a => a.issuing b.nextTxn.size m.now

/-- What comes of a transaction that is issued. -/
def issueDone (l : Lane) (r : Nat) (b : DmaActive) (x : DmaTxn × Option (Nat × Nat) × Mach × List Host.Cell) :
    Mach × List Host.Cell :=
  match x.2.1 with
  | none => ((x.2.2.1.onRing l r fun g => { g with out := g.out ++ [x.1] }).dmaShow l r, x.2.2.2)
  | some e => x.2.2.1.parkRing x.2.2.2 l r b (x.1 :: if b.desc.op = 2 then b.laterTxns 8 (b.nextTxn.off + b.nextTxn.size) else []) e

/-- The descriptor under way. -/
def Mach.workBegun (m : Mach) (l : Lane) (r : Nat) (begun : Bool) (d : DmaDesc) : Mach := if begun then m else m.beginDesc l r d [] d.len 0

theorem Mach.issueRing_eq {begun : Bool} {b : DmaActive} (hwork : m.nextWork l r = some (begun, b.desc))
    (ha : ((m.workBegun l r begun b.desc).ring l r).active = [b]) :
    m.issueRing mem l r = issueDone l r b (((m.workBegun l r begun b.desc).issuing l r b).issueTxn mem l r b b.nextTxn) := by
  unfold Mach.issueRing
  rw [hwork]
  dsimp only
  rw [← Mach.workBegun, ha, find?_only rfl]
  rfl
end

/-! ### A transaction issued in a context without a table (R357) -/

section
variable {m : Mach} {mem : List Host.Cell} {l : Lane} {r : Nat} {b : DmaActive}

theorem Mach.servedRing_ring (m : Mach) (l : Lane) (r : Nat) :
    (m.servedRing l r).ring l r = m.ring l r ∧ (m.hasRing l r → (m.servedRing l r).hasRing l r) := by
  cases l <;> exact ⟨rfl, id⟩

theorem Mach.issuing_ring (hring : m.hasRing l r) (ha : (m.ring l r).active = [b]) :
    (m.issuing l r b).hasRing l r ∧
      (m.issuing l r b).ring l r = { m.ring l r with active := [b.issuing b.nextTxn.size m.now] } := by
  obtain ⟨hsame, hkeeps⟩ := m.servedRing_ring l r
  have hgot := Mach.ring_onRing (hkeeps hring) fun g => { g with
    active := g.active.map fun a => if a.desc.seq = b.desc.seq then a.issuing b.nextTxn.size m.now else a }
  rw [hsame, ha, List.map_cons, if_pos rfl] at hgot
  exact ⟨Mach.hasRing_onRing (hkeeps hring) _, hgot⟩

/-- To issue changes nothing but the engine's own notes. -/
theorem Mach.issuing_keeps (m : Mach) (l : Lane) (r : Nat) (b : DmaActive) (regs : List Nat) :
    m.FocTells regs [] (m.issuing l r b) ∧ (∀ a, (m.issuing l r b).rd a = m.rd a) ∧
      ((m.issuing l r b).dma.lanes.get l).iotlb = (m.dma.lanes.get l).iotlb ∧ (m.issuing l r b).dma.poison = m.dma.poison := by
  refine ⟨⟨rfl, rfl, rfl, fun _ _ => rfl, fun _ _ => rfl, (List.append_nil _).symm⟩, fun _ => rfl, ?_, rfl⟩
  cases l <;> rfl

theorem Mach.issue_direct (hring : m.hasRing l r) (ha : (m.ring l r).active = [b])
    (hreach : m.Reaches l r (b.srcParts b.nextTxn) (b.dstParts b.nextTxn)) :
    ∃ m', issueDone l r b ((m.issuing l r b).issueTxn mem l r b b.nextTxn) = (m', mem) ∧ m.FocTells (showRegs l r) [] m' ∧
      m'.ring l r = { m.ring l r with
        out := (m.ring l r).out ++ [{ b.nextTxn with reads := b.srcParts b.nextTxn, writes := b.dstParts b.nextTxn }]
        active := [b.issuing b.nextTxn.size m.now] } := by
  obtain ⟨htells, hrd, -, -⟩ := m.issuing_keeps l r b (showRegs l r)
  obtain ⟨hhas, hgot⟩ := Mach.issuing_ring hring ha
  have hissue := Mach.issueTxn_direct (m.issuing l r b) mem l r b b.nextTxn (hreach.congr (hrd _) (fun _ => hrd _) (hrd _))
  have hengine := ((Mach.Engine.refl (m.issuing l r b) l r hhas (showRegs l r)).onRing fun g => { g with
    out := g.out ++ [{ b.nextTxn with reads := b.srcParts b.nextTxn, writes := b.dstParts b.nextTxn }] }).dmaShow (List.Subset.refl _)
  rw [hgot] at hengine
  rw [hissue]
  exact ⟨_, rfl, htells.trans hengine.tells, hengine.ring⟩
end

section
variable {cyc : Nat} {l : Lane} {r : Nat} {s : State} {a b : DmaActive} {rest : List DmaDesc}

theorem State.at_chooseRing : (s.at cyc).chooseRing l = s.m.chooseRing l := rfl

theorem exec_transactionIssue (hruns : s.m.dmaRuns = true) (hr : s.m.chooseRing l = some r) {y : Mach × List Host.Cell}
    (hy : (s.at cyc).issueRing s.mem l r = y) : exec (.transactionIssue cyc l) s = .next { s with m := y.1.settle, mem := y.2 } := by
  have hf : (match ((s.at cyc).chooseRing l).filter fun _ => (s.at cyc).dmaRuns with
      | some r => (s.at cyc).issueRing s.mem l r
      | none => (s.at cyc, s.mem)) = y := by
    have hserves : ((s.at cyc).chooseRing l).filter (fun _ => (s.at cyc).dmaRuns) = some r := by
      rw [State.at_chooseRing, hr, Option.filter_some]
      exact if_pos hruns
    rw [hserves]
    exact hy
  exact runMem_eq (f := fun m mem => match (m.chooseRing l).filter fun _ => m.dmaRuns with
    | some r => m.issueRing mem l r
    | none => (m, mem)) hf

theorem exec_transactionIssue_rests (h : s.m.dmaRuns = false ∨ s.m.chooseRing l = none) :
    ∃ t, exec (.transactionIssue cyc l) s = .next t ∧ t.m.dma = s.m.dma ∧ Quiet s t [] := by
  have hf : (match ((s.at cyc).chooseRing l).filter fun _ => (s.at cyc).dmaRuns with
      | some r => (s.at cyc).issueRing s.mem l r
      | none => (s.at cyc, s.mem)) = (s.at cyc, s.mem) := by
    have hrests : ((s.at cyc).chooseRing l).filter (fun _ => (s.at cyc).dmaRuns) = none := by
      rw [State.at_chooseRing, Option.filter_eq_none_iff]
      rcases h with h | h
      · exact fun _ _ => Bool.eq_false_iff.1 h
      · rw [h]
        exact fun _ hx => absurd hx (Option.not_mem_none _)
    rw [hrests]
  obtain ⟨t, ht, hm, hquiet⟩ := runMem_idle (f := fun m mem => match (m.chooseRing l).filter fun _ => m.dmaRuns with
    | some r => m.issueRing mem l r
    | none => (m, mem)) hf
  exact ⟨t, ht, by rw [hm]; rfl, hquiet⟩

/-- The descriptor whose transaction the engine issues: the one under way, or the one at the head, which begins. -/
def Serves (s : State) (l : Lane) (r : Nat) (a b : DmaActive) (rest : List DmaDesc) : Prop :=
  (s.m.ring l r).active = [a] ∧ a.issued < a.len ∧ b = a ∧ rest = (s.m.ring l r).fetched ∨
    (s.m.ring l r).active = [] ∧ (s.m.ring l r).fetched = b.desc :: rest ∧ b = ⟨b.desc, 0, none, [], b.desc.len, 0, 0, []⟩ ∧ 0 < b.len

theorem ringHead_spec (l : Lane) (r : Nat) : Reg.DMA_R_HEAD l.ix r ∈ ringRegs l r ∧ Reg.DMA_R_HEAD l.ix r ∉ showRegs l r ∧
    Reg.DMA_R_CFG l.ix r ≠ Reg.DMA_R_HEAD l.ix r ∧ (∀ c, Reg.DMA_L_CTX_HI l.ix c ≠ Reg.DMA_R_HEAD l.ix r) ∧
    Reg.DMA_MEMCFG ≠ Reg.DMA_R_HEAD l.ix r := by
  simp only [ringRegs, showRegs, List.mem_cons, List.not_mem_nil, or_false, true_or, or_true, true_and]
  unfold Reg.DMA_R_CFG Reg.DMA_L_CTX_HI Reg.DMA_MEMCFG Reg.DMA_R_HEAD Reg.DMA_R_STAT Reg.DMA_L_STATUS Reg.DMA_L_FSTAT
  exact ⟨by omega, by omega, fun c => by omega, by omega⟩

theorem showRegs_subset_nat (l : Lane) (r : Nat) : showRegs l r ⊆ ringRegs l r := by
  simp only [showRegs, ringRegs, List.cons_subset, List.nil_subset, List.mem_cons, true_or, or_true, and_true]

/-- The machine in which the descriptor served is under way. -/
theorem Serves.begun (h : Serves s l r a b rest) (hr : s.m.chooseRing l = some r) (hring : s.m.hasRing l r)
    {srcs dsts : List (Nat × Nat)} (hreach : s.m.Reaches l r srcs dsts) :
    ∃ begun, (s.at cyc).nextWork l r = some (begun, b.desc) ∧ ((s.at cyc).workBegun l r begun b.desc).hasRing l r ∧
      ((s.at cyc).workBegun l r begun b.desc).ring l r = { s.m.ring l r with fetched := rest, active := [b] } ∧
      (s.at cyc).FocTells (ringRegs l r) [] ((s.at cyc).workBegun l r begun b.desc) ∧
      ((s.at cyc).workBegun l r begun b.desc).Reaches l r srcs dsts ∧
      ((s.m.ring l r).active = [a] → (s.at cyc).workBegun l r begun b.desc = s.at cyc) := by
  obtain ⟨-, hwork⟩ := Mach.chooseRing_spec (m := s.at cyc) hr
  obtain ⟨hmem, -, hcfg, hctx, hmemcfg⟩ := ringHead_spec l r
  rcases h with ⟨ha, hmore, rfl, rfl⟩ | ⟨ha, hf, hb, -⟩
  · refine ⟨true, Mach.nextWork_under_way hwork ha hmore, hring, ?_, .refl _ _,
      hreach.congr (State.at_rd ..) (fun _ => State.at_rd ..) (State.at_rd ..), fun _ => rfl⟩
    rw [← ha]
    rfl
  · refine ⟨false, Mach.nextWork_head hwork ha hf, Mach.hasRing_onRing (m := s.at cyc) hring _, ?_,
      (Mach.FocTells.refl _ _).beginDesc l r hmem .., hreach.congr ?_ (fun c => ?_) ?_, fun h => ?_⟩
    · refine (Mach.ring_beginDesc (m := s.at cyc) hring b.desc [] b.desc.len 0).trans ?_
      rw [State.at_ring, ha, hf, List.nil_append, startedDesc, ← hb]
      rfl
    · exact (Mach.rd_wr_other _ _ hcfg).trans (State.at_rd cyc s _)
    · exact (Mach.rd_wr_other _ _ (hctx c)).trans (State.at_rd cyc s _)
    · exact (Mach.rd_wr_other _ _ hmemcfg).trans (State.at_rd cyc s _)
    · rw [ha] at h
      cases h

theorem exec_transactionIssue_direct (hruns : s.m.dmaRuns = true) (hr : s.m.chooseRing l = some r) (h : Serves s l r a b rest)
    (hring : s.m.hasRing l r) (hreach : s.m.Reaches l r (b.srcParts b.nextTxn) (b.dstParts b.nextTxn)) :
    ∃ t, exec (.transactionIssue cyc l) s = .next t ∧
      t.m.ring l r = { s.m.ring l r with
        fetched := rest
        out := (s.m.ring l r).out ++ [{ b.nextTxn with reads := b.srcParts b.nextTxn, writes := b.dstParts b.nextTxn }]
        active := [b.issuing b.nextTxn.size (s.at cyc).now] } ∧
      ((s.m.ring l r).active = [a] → t.m.fld (Reg.DMA_R_HEAD l.ix r) 11 0 = s.m.fld (Reg.DMA_R_HEAD l.ix r) 11 0) ∧
      Quiet s t (ringRegs l r) := by
  obtain ⟨begun, hwork, hhas, hgot, htells, hreach₁, hsame⟩ := h.begun (cyc := cyc) hr hring hreach
  have heq := (s.at cyc).issueRing_eq s.mem l r hwork (by rw [hgot])
  generalize (s.at cyc).workBegun l r begun b.desc = m₁ at hhas hgot htells hreach₁ hsame heq
  obtain ⟨m', hdone, htold, hring'⟩ := Mach.issue_direct (mem := s.mem) hhas (by rw [hgot]) hreach₁
  rw [hgot, show m₁.now = (s.at cyc).now from htells.now] at hring'
  have hall := htells.trans (htold.mono (showRegs_subset_nat l r))
  refine ⟨_, exec_transactionIssue hruns hr (heq.trans hdone), (Mach.settle_ring ..).trans hring', fun ha => ?_,
    fun c hc => (Mach.settle_rd _ c).trans (hall.rd c hc), fun _ => rfl, hall.raised⟩
  have hhead := htold.rd _ (ringHead_spec l r).2.1
  rw [hsame ha] at hhead
  exact congrArg (·.bits 11 0) ((Mach.settle_rd ..).trans hhead)
end

end Sys2Proof.Machine
end

section
/-! A translation that fails, and the whole of the rings' obligation (R362 to R364). -/

namespace Sys2Proof.Machine

/-! ### Causes and fault records (R363, R364) -/

section
variable (m : Mach) (mem : List Host.Cell) (l : Lane) (c va : Nat) (write : Bool)

theorem leafCause_le (pte : Nat) : leafCause pte write ≤ 10 := by
  unfold leafCause
  split_ifs <;> decide

theorem cause_ite {p : Prop} [Decidable p] {x y : Xlate} (hx : x.cause ≤ 10) (hy : y.cause ≤ 10) : (if p then x else y).cause ≤ 10 := by
  split
  · exact hx
  · exact hy

theorem failed_le {pa k : Nat} {fill : Option TlbEntry} (h : k ≤ 10) : (⟨pa, k, fill⟩ : Xlate).cause ≤ 10 := h

/-- The causes are those of R364. -/
theorem Mach.walk_cause (asid level ppn : Nat) : (m.walk mem c asid va write level ppn).cause ≤ 10 := by
  induction level generalizing ppn with
  | zero =>
    rw [Mach.walk]
    exact cause_ite (failed_le (by decide)) (cause_ite (failed_le (by decide)) (cause_ite (failed_le (by decide))
      (cause_ite (failed_le (by decide)) (cause_ite (cause_ite (failed_le (by decide)) (cause_ite (failed_le (by decide))
        (leafCause_le ..))) (failed_le (by decide))))))
  | succ n ih =>
    rw [Mach.walk]
    exact cause_ite (failed_le (by decide)) (cause_ite (failed_le (by decide)) (cause_ite (failed_le (by decide))
      (cause_ite (failed_le (by decide)) (cause_ite (cause_ite (failed_le (by decide)) (cause_ite (failed_le (by decide))
        (leafCause_le ..))) (ih _)))))

theorem Mach.translate_cause : (m.translate mem l c va write).cause ≤ 10 := by
  unfold Mach.translate
  extract_lets hi phys
  have hphys : ∀ x : Xlate, x.cause ≤ 10 → (phys x).cause ≤ 10 := fun x hx => cause_ite (failed_le (by decide)) hx
  refine cause_ite (hphys _ (failed_le (by decide))) (cause_ite (failed_le (by decide)) ?_)
  split
  · exact hphys _ (leafCause_le ..)
  · exact hphys _ (m.walk_cause mem c va write _ 2 _)

/-- What an address translates to depends on the registers, the poison and the lane's cached translations. -/
theorem Mach.translate_congr_iotlb {m m' : Mach} (hrd : ∀ a, m'.rd a = m.rd a)
    (hiotlb : (m'.dma.lanes.get l).iotlb = (m.dma.lanes.get l).iotlb) (hpoison : m'.dma.poison = m.dma.poison) :
    m'.translate mem l c va write = m.translate mem l c va write := by
  have hreach : m'.dmaReach l write = m.dmaReach l write := funext fun a => Mach.dmaReach_congr (hrd _) l write a
  have hwalk : m'.walk mem c = m.walk mem c := by
    funext asid va write level ppn
    exact Mach.walk_congr hpoison mem c asid va write level ppn
  have hrd' : m'.rd = m.rd := funext hrd
  unfold Mach.translate Mach.fld
  rw [hreach, hwalk, hrd', hiotlb]

/-- The record of a fault. -/
def faultBody (now va src cause ctx parked index tag done : Nat) : List Nat :=
  leBytes 8 now ++ leBytes 8 va ++ [src, cause, ctx, parked] ++ leBytes 2 index ++ leBytes 2 tag ++ leBytes 4 done

theorem length_faultBody (now va src cause ctx parked index tag done : Nat) :
    (faultBody now va src cause ctx parked index tag done).length = 28 := by
  simp only [faultBody, List.length_append, length_leBytes, List.length_cons, List.length_nil]

theorem faultBody_lt {now va src cause ctx parked index tag done : Nat} (hsrc : src < 256) (hcause : cause < 256) (hctx : ctx < 256)
    (hparked : parked < 256) : ∀ x ∈ faultBody now va src cause ctx parked index tag done, x < 256 := by
  intro x hx
  simp only [faultBody, List.mem_append, List.mem_cons, List.not_mem_nil, or_false] at hx
  rcases hx with ((((h | h) | rfl | rfl | rfl | rfl) | h) | h) | h
  · exact leBytes_lt h
  · exact leBytes_lt h
  · exact hsrc
  · exact hcause
  · exact hctx
  · exact hparked
  · exact leBytes_lt h
  · exact leBytes_lt h
  · exact leBytes_lt h

/-- A fault ring with room takes the record. -/
theorem Mach.faultRecord_room (src cause ctx parked index tag done : Nat) {h : Nat} (hh : m.fld (Reg.DMA_L_FRHEAD l.ix) 9 0 = h)
    (hroom : h + 1 < 2 ^ m.fld (Reg.DMA_L_FRCFG l.ix) 3 0) (htail : m.fld (Reg.DMA_L_FRTAIL l.ix) 9 0 = 0)
    (hmax : 2 ^ m.fld (Reg.DMA_L_FRCFG l.ix) 3 0 ≤ 1024) :
    ∃ p, m.faultRecord mem l va src cause ctx parked index tag done =
      ((m.setFld (Reg.DMA_L_FRHEAD l.ix) 9 0 (h + 1)).onDma fun d => { d with poison := p },
        Memory.writeL mem (m.base40 (Reg.DMA_L_FRBASE_LO l.ix) (Reg.DMA_L_FRBASE_HI l.ix) + 32 * h)
          (faultBody m.now va src cause ctx parked index tag done ++
            leBytes 4 (crc32c (faultBody m.now va src cause ctx parked index tag done)))) := by
  have hten : min (m.fld (Reg.DMA_L_FRCFG l.ix) 3 0) 10 = m.fld (Reg.DMA_L_FRCFG l.ix) 3 0 := by
    have hle : 2 ^ m.fld (Reg.DMA_L_FRCFG l.ix) 3 0 ≤ 2 ^ 10 := hmax
    have := (Nat.pow_le_pow_iff_right (by decide : 1 < 2)).1 hle
    omega
  have hhead : h % 2 ^ m.fld (Reg.DMA_L_FRCFG l.ix) 3 0 = h := Nat.mod_eq_of_lt (by omega)
  have hnext : (h + 1) % 2 ^ m.fld (Reg.DMA_L_FRCFG l.ix) 3 0 = h + 1 := Nat.mod_eq_of_lt hroom
  have hlen : (faultBody m.now va src cause ctx parked index tag done ++
      leBytes 4 (crc32c (faultBody m.now va src cause ctx parked index tag done))).length = 32 := by
    rw [List.length_append, length_faultBody, length_leBytes]
  obtain ⟨p, hwrite⟩ := Mach.dmaWrite_whole (m.setFld (Reg.DMA_L_FRHEAD l.ix) 9 0 (h + 1)) mem (dmaReq l)
    (m.base40 (Reg.DMA_L_FRBASE_LO l.ix) (Reg.DMA_L_FRBASE_HI l.ix) + 32 * h) _ (base40_mod ..) hlen
  refine ⟨p, ?_⟩
  unfold Mach.faultRecord
  dsimp only
  rw [hten, hh, hhead, hnext, htail, Nat.zero_mod, if_neg (Nat.succ_ne_zero h)]
  exact congrArg Prod.snd hwrite
end

/-! ### A transaction whose translation fails (R362, R363) -/

theorem pageParts_cons (va : Nat) {n : Nat} (h : 0 < n) : ∃ k ps, pageParts va n = (va, k) :: ps := by
  have hne : n ≠ 0 := Nat.pos_iff_ne_zero.1 h
  unfold pageParts
  dsimp only
  rw [if_neg hne]
  split
  · exact ⟨_, _, rfl⟩
  · exact ⟨_, _, rfl⟩

section
variable (m : Mach) (mem : List Host.Cell) (l : Lane) (r : Nat) (a : DmaActive) (x : DmaTxn)

/-- A FILL whose first page does not translate moves nothing. -/
theorem Mach.issueTxn_fails {e va : Nat} (hop : a.desc.op = 1) (hva : a.desc.dst + x.off + x.written = va) (hmore : 0 < x.size - x.written)
    (hcause : (m.translate mem l (m.fld (Reg.DMA_R_CFG l.ix r) 19 18) va true).cause = e) (he : e ≠ 0) (hwalk : e ≠ 10) :
    m.issueTxn mem l r a x = (x, some (e, va), m, mem) := by
  obtain ⟨k, ps, hparts⟩ := pageParts_cons va hmore
  have hfails := Mach.translateParts_fails (m := m) (mem := mem) (l := l) (p := (va, k)) (ps := ps) rfl (hcause ▸ he) (hcause ▸ hwalk)
  have hsrc : ¬(a.desc.op = 0 ∨ a.desc.op = 3) := by omega
  have hdst : ¬a.desc.op = 3 := by omega
  have hcopy : ¬a.desc.op = 0 := by omega
  unfold Mach.issueTxn
  dsimp only
  rw [if_neg hsrc, if_neg hdst, hva, hparts, Mach.translateParts]
  dsimp only
  rw [hfails, hcause]
  dsimp only
  rw [if_neg hcopy]
  rfl

/-- The ring that parks. -/
def Mach.parked (m : Mach) (l : Lane) (r : Nat) (a : DmaActive) (ts : List DmaTxn) (va : Nat) : Mach :=
  ((((((m.onRing l r fun g => { g with parked := ts, faultVa := va }).setRing l r 2).onActive l r a.desc.seq fun b => { b with
    parks := b.parks + 1, issued := if a.desc.op = 2 then b.len else b.issued }).dmaShow l r).ringIrq l r 1).raise 0x3406 0 0xFF [] l.origin).orr
      (Reg.DMA_L_IRQ_STAT l.ix) 4

theorem Mach.parkRing_eq (ts : List DmaTxn) (e : Nat × Nat) : m.parkRing mem l r a ts e =
    (m.parked l r a ts e.2).faultRecord mem l e.2 r e.1 ((m.parked l r a ts e.2).fld (Reg.DMA_R_CFG l.ix r) 19 18) ts.length a.desc.index
      a.desc.tag ((a.chunks.map fun c => c.2.length).sum + (ts.headD default).written) := rfl

/-- The registers of a fault. -/
abbrev faultRegs (l : Lane) (r : Nat) : List Nat := Reg.DMA_L_IRQ_STAT l.ix :: Reg.DMA_R_IRQ l.ix r :: showRegs l r

theorem laneIrq_spec : Reg.DMA_L_IRQ_STAT l.ix ∉ stampRegs ∧ Reg.DMA_L_IRQ_STAT l.ix ≠ Reg.DMA_R_STAT l.ix r ∧
    Reg.DMA_R_IRQ l.ix r ≠ Reg.DMA_L_IRQ_STAT l.ix := by
  unfold Reg.DMA_L_IRQ_STAT Reg.DMA_R_STAT Reg.DMA_R_IRQ
  exact ⟨not_mem_stampRegs_of_lt (by omega), by omega, by omega⟩

/-- A ring with its transactions parked. -/
def DmaRing.parking (g : DmaRing) (a : DmaActive) (ts : List DmaTxn) (va : Nat) : DmaRing :=
  { g with
    parked := ts, faultVa := va
    active := g.active.map fun b => if b.desc.seq = a.desc.seq then { b with
      parks := b.parks + 1, issued := if a.desc.op = 2 then b.len else b.issued } else b }

variable {m l r} in
theorem Mach.parked_engine (hring : m.hasRing l r) (ts : List DmaTxn) (va : Nat) :
    m.Engine l r (faultRegs l r) [eventAt m 0x3406 0 0xFF [] l.origin] ((m.ring l r).parking a ts va) 2 (m.parked l r a ts va) := by
  obtain ⟨hstamp, hne, -⟩ := laneIrq_spec l r
  exact ((((((Mach.Engine.refl m l r hring (faultRegs l r)).onRing fun g => { g with parked := ts, faultVa := va }).setRing
    (by simp) (c' := 2) (by decide)).onRing fun g => { g with
      active := g.active.map fun b => if b.desc.seq = a.desc.seq then { b with
        parks := b.parks + 1, issued := if a.desc.op = 2 then b.len else b.issued } else b }).dmaShow (fun b hb => by simp [faultRegs, hb])).ringIrq
      (by simp) 1 |>.raise 0x3406 0 0xFF [] l.origin).orr List.mem_cons_self hstamp hne 4

theorem Mach.parked_asks (ts : List DmaTxn) (va : Nat) : (m.parked l r a ts va).bit (Reg.DMA_L_IRQ_STAT l.ix) 2 = true ∧
    (m.parked l r a ts va).bit (Reg.DMA_R_IRQ l.ix r) 1 = true := by
  obtain ⟨-, -, hne⟩ := laneIrq_spec l r
  unfold Mach.parked
  refine ⟨Mach.bit_orr (i := 2) _ (by decide), ?_⟩
  rw [Mach.bit, Mach.rd_orr, if_neg hne, Mach.raise_rd]
  exact Mach.bit_orr (i := 1) _ (by decide)
end

/-- The fault ring's registers. -/
abbrev faultRingRegs (l : Lane) : List Nat :=
  [Reg.DMA_L_FRHEAD l.ix, Reg.DMA_L_FRCFG l.ix, Reg.DMA_L_FRTAIL l.ix, Reg.DMA_L_FRBASE_LO l.ix, Reg.DMA_L_FRBASE_HI l.ix]

theorem faultRing_spec (l : Lane) (r : Nat) : (∀ b ∈ faultRingRegs l, b ∉ faultRegs l r) ∧ Reg.DMA_R_CFG l.ix r ∉ faultRegs l r ∧
    Reg.DMA_L_FRHEAD l.ix ∉ stampRegs ∧ Reg.DMA_L_FRHEAD l.ix ≠ Reg.DMA_R_STAT l.ix r ∧
    Reg.DMA_L_IRQ_STAT l.ix ≠ Reg.DMA_L_FRHEAD l.ix ∧ Reg.DMA_R_IRQ l.ix r ≠ Reg.DMA_L_FRHEAD l.ix := by
  refine ⟨fun b hb => ?_, ?_, ?_⟩
  · simp only [faultRingRegs, faultRegs, showRegs, List.mem_cons, List.not_mem_nil, or_false] at hb ⊢
    unfold Reg.DMA_L_FRHEAD Reg.DMA_L_FRCFG Reg.DMA_L_FRTAIL Reg.DMA_L_FRBASE_LO Reg.DMA_L_FRBASE_HI at hb
    unfold Reg.DMA_L_IRQ_STAT Reg.DMA_R_IRQ Reg.DMA_R_STAT Reg.DMA_L_STATUS Reg.DMA_L_FSTAT
    omega
  · simp only [faultRegs, showRegs, List.mem_cons, List.not_mem_nil, or_false]
    unfold Reg.DMA_R_CFG Reg.DMA_L_IRQ_STAT Reg.DMA_R_IRQ Reg.DMA_R_STAT Reg.DMA_L_STATUS Reg.DMA_L_FSTAT
    omega
  · unfold Reg.DMA_L_FRHEAD Reg.DMA_R_STAT Reg.DMA_L_IRQ_STAT Reg.DMA_R_IRQ
    exact ⟨not_mem_stampRegs_of_lt (by omega), by omega, by omega, by omega⟩

theorem faultRegs_subset (l : Lane) (r : Nat) : faultRegs l r ⊆ Reg.DMA_L_IRQ_STAT l.ix :: ringRegs l r := by
  simp only [faultRegs, showRegs, ringRegs, List.cons_subset, List.nil_subset, List.mem_cons, true_or, or_true, and_true]

section
variable {cyc : Nat} {l : Lane} {r : Nat} {s : State} {a : DmaActive} {c e fh : Nat}

/-- The machine in which the ring has parked. -/
def Mach.faulted (m : Mach) (l : Lane) (r : Nat) (a : DmaActive) : Mach :=
  (m.issuing l r a).parked l r a [a.nextTxn] (a.desc.dst + a.issued)

theorem faulted_engine (hring : s.m.hasRing l r) (ha : (s.m.ring l r).active = [a]) :
    ∃ g : DmaRing, g.parked = [a.nextTxn] ∧ g.out = (s.m.ring l r).out ∧ g.faultVa = a.desc.dst + a.issued ∧
      ((s.at cyc).issuing l r a).Engine l r (faultRegs l r) [eventAt (s.at cyc) 0x3406 0 0xFF [] l.origin] g 2 ((s.at cyc).faulted l r a) ∧
      (s.at cyc).FocTells (faultRegs l r) [eventAt (s.at cyc) 0x3406 0 0xFF [] l.origin] ((s.at cyc).faulted l r a) := by
  obtain ⟨hhas, hgot⟩ := Mach.issuing_ring (m := s.at cyc) hring ha
  obtain ⟨htells, -⟩ := (s.at cyc).issuing_keeps l r a (faultRegs l r)
  have hparked := Mach.parked_engine a hhas [a.nextTxn] (a.desc.dst + a.issued)
  rw [htells.eventAt_eq] at hparked
  refine ⟨_, ?_, ?_, ?_, hparked, (htells.append hparked.tells).mono (List.append_subset.2 ⟨List.Subset.refl _, List.Subset.refl _⟩)⟩
  · rfl
  · rw [hgot]
    rfl
  · rfl

theorem issueRing_faults (hr : s.m.chooseRing l = some r) (ha : (s.m.ring l r).active = [a]) (hmore : a.issued < a.len) (hop : a.desc.op = 1)
    (hchunks : a.chunks = []) (hring : s.m.hasRing l r) (hc : s.m.fld (Reg.DMA_R_CFG l.ix r) 19 18 = c)
    (hcause : (s.m.translate s.mem l c (a.desc.dst + a.issued) true).cause = e) (he : e ≠ 0) (hwalk : e ≠ 10) :
    (s.at cyc).issueRing s.mem l r = ((s.at cyc).faulted l r a).faultRecord s.mem l (a.desc.dst + a.issued) r e c 1 a.desc.index
      a.desc.tag 0 := by
  obtain ⟨-, hwork⟩ := Mach.chooseRing_spec (m := s.at cyc) hr
  obtain ⟨-, hrd, hiotlb, hpoison⟩ := (s.at cyc).issuing_keeps l r a []
  have hcfg : ((s.at cyc).issuing l r a).fld (Reg.DMA_R_CFG l.ix r) 19 18 = c := (congrArg (·.bits 19 18) (hrd _)).trans hc
  have hsame := Mach.translate_congr_iotlb s.mem l c (a.desc.dst + a.issued) true (m' := (s.at cyc).issuing l r a) (m := s.m) hrd hiotlb hpoison
  have hfails := ((s.at cyc).issuing l r a).issueTxn_fails s.mem l r a a.nextTxn (e := e) hop rfl
    (by rw [DmaActive.nextTxn]; dsimp only; omega) (by rw [hcfg]; exact (congrArg Xlate.cause hsame).trans hcause) he hwalk
  have hfill : ¬a.desc.op = 2 := by omega
  have heq := (s.at cyc).issueRing_eq s.mem l r (b := a) (Mach.nextWork_under_way hwork ha hmore) ha
  obtain ⟨g, -, -, -, -, htells⟩ := faulted_engine (cyc := cyc) hring ha
  have hcfg' : ((s.at cyc).faulted l r a).fld (Reg.DMA_R_CFG l.ix r) 19 18 = c :=
    (congrArg (·.bits 19 18) (htells.rd _ (faultRing_spec l r).2.1)).trans hc
  rw [Mach.workBegun, if_pos rfl, hfails, issueDone] at heq
  dsimp only at heq
  rw [if_neg hfill, Mach.parkRing_eq, hchunks] at heq
  rw [heq, ← hcfg']
  rfl

theorem exec_transactionIssue_faults (hwf : Memory.wf s.mem = true) (hruns : s.m.dmaRuns = true) (hr : s.m.chooseRing l = some r)
    (ha : (s.m.ring l r).active = [a]) (hmore : a.issued < a.len) (hop : a.desc.op = 1) (hchunks : a.chunks = []) (hring : s.m.hasRing l r)
    (hc : c = s.m.fld (Reg.DMA_R_CFG l.ix r) 19 18) (hcause : (s.m.translate s.mem l c (a.desc.dst + a.issued) true).cause = e)
    (he : e ≠ 0) (hwalk : e ≠ 10) (hfh : fh = s.m.fld (Reg.DMA_L_FRHEAD l.ix) 9 0)
    (hroom : fh + 1 < 2 ^ s.m.fld (Reg.DMA_L_FRCFG l.ix) 3 0) (htail : s.m.fld (Reg.DMA_L_FRTAIL l.ix) 9 0 = 0)
    (hmax : 2 ^ s.m.fld (Reg.DMA_L_FRCFG l.ix) 3 0 ≤ 1024) {fa : Nat}
    (hfa : s.m.base40 (Reg.DMA_L_FRBASE_LO l.ix) (Reg.DMA_L_FRBASE_HI l.ix) + 32 * fh = fa) :
    ∃ t, exec (.transactionIssue cyc l) s = .next t ∧ t.m.ringState l r = 2 ∧ (t.m.ring l r).parked = [a.nextTxn] ∧
      (t.m.ring l r).out = (s.m.ring l r).out ∧ (t.m.ring l r).faultVa = a.desc.dst + a.issued ∧
      (∀ i < 28, (Memory.read t.mem (fa + i)).toNat =
        (faultBody (s.at cyc).now (a.desc.dst + a.issued) r e c 1 a.desc.index a.desc.tag 0).getD i 0) ∧
      (∀ b, b < fa ∨ fa + 32 ≤ b → Memory.read t.mem b = Memory.read s.mem b) ∧
      t.m.fld (Reg.DMA_L_FRHEAD l.ix) 9 0 = fh + 1 ∧ t.m.bit (Reg.DMA_L_IRQ_STAT l.ix) 2 = true ∧
      t.m.bit (Reg.DMA_R_IRQ l.ix r) 1 = true ∧
      Raises s t [eventAt (s.at cyc) 0x3406 0 0xFF [] l.origin] ∧
      SameRegsBut s t (Reg.DMA_L_FRHEAD l.ix :: Reg.DMA_L_IRQ_STAT l.ix :: ringRegs l r) := by
  obtain ⟨hr16, -⟩ := Mach.chooseRing_spec hr
  obtain ⟨hrec, -, hstamp, hstat, hlirq, hrirq⟩ := faultRing_spec l r
  have hissue := issueRing_faults (cyc := cyc) hr ha hmore hop hchunks hring hc.symm hcause he hwalk
  obtain ⟨g, hgp, hgo, hgv, hengine, htells⟩ := faulted_engine (cyc := cyc) hring ha
  obtain ⟨hasked, hasked'⟩ := ((s.at cyc).issuing l r a).parked_asks l r a [a.nextTxn] (a.desc.dst + a.issued)
  rw [← Mach.faulted] at hasked hasked'
  generalize (s.at cyc).faulted l r a = p at hissue hengine htells hasked hasked'
  have hrd : ∀ b ∈ faultRingRegs l, p.rd b = s.m.rd b := fun b hb => htells.rd b (hrec b hb)
  simp only [faultRingRegs, List.forall_mem_cons] at hrd
  obtain ⟨hhead, hcfg, htail', hlo, hhi, -⟩ := hrd
  have hbase : p.base40 (Reg.DMA_L_FRBASE_LO l.ix) (Reg.DMA_L_FRBASE_HI l.ix) + 32 * fh = fa := by
    rw [← hfa, Mach.base40, Mach.base40, Mach.fld, Mach.fld, hlo, hhi]
  have hcfg' := congrArg (·.bits 3 0) hcfg
  obtain ⟨q, hfault⟩ := p.faultRecord_room s.mem l (a.desc.dst + a.issued) r e c 1 a.desc.index a.desc.tag 0
    ((congrArg (·.bits 9 0) hhead).trans hfh.symm) (by rw [Mach.fld, hcfg]; exact hroom) ((congrArg (·.bits 9 0) htail').trans htail)
    (by rw [Mach.fld, hcfg]; exact hmax)
  rw [hbase, show p.now = (s.at cyc).now from htells.now] at hfault
  generalize hbody : faultBody (s.at cyc).now (a.desc.dst + a.issued) r e c 1 a.desc.index a.desc.tag 0 = body at hfault
  have hbody28 : body.length = 28 := by rw [← hbody, length_faultBody]
  have hbytes : ∀ x ∈ body, x < 256 := by
    have hcause10 := s.m.translate_cause s.mem l c (a.desc.dst + a.issued) true
    have hctx : c < 4 := by rw [hc]; exact Nat.mod_lt _ (by decide)
    rw [← hbody]
    exact faultBody_lt (by omega) (by omega) (by omega) (by decide)
  have hlen : (body ++ leBytes 4 (crc32c body)).length = 32 := by rw [List.length_append, hbody28, length_leBytes]
  have hall : (s.at cyc).FocTells (Reg.DMA_L_FRHEAD l.ix :: faultRegs l r) [eventAt (s.at cyc) 0x3406 0 0xFF [] l.origin]
      ((p.setFld (Reg.DMA_L_FRHEAD l.ix) 9 0 (fh + 1)).onDma fun d => { d with poison := q }) :=
    ((htells.mono (List.subset_cons_self ..)).wr List.mem_cons_self hstamp _).onDma _
  have hout := exec_transactionIssue hruns hr (hissue.trans hfault)
  have hkept : ∀ b, b ≠ Reg.DMA_L_FRHEAD l.ix →
      ((p.setFld (Reg.DMA_L_FRHEAD l.ix) 9 0 (fh + 1)).onDma fun d => { d with poison := q }).settle.rd b = p.rd b := fun b hb =>
    (Mach.settle_rd ..).trans (Mach.rd_wr_other _ _ hb)
  have hring' : ((p.setFld (Reg.DMA_L_FRHEAD l.ix) 9 0 (fh + 1)).onDma fun d => { d with poison := q }).settle.ring l r = g :=
    (Mach.settle_ring ..).trans hengine.ring
  refine ⟨_, hout, (congrArg (·.bits 15 14) (hkept _ hstat.symm)).trans hengine.state, ?_, ?_, ?_, fun i hi => ?_, fun b hb => ?_, ?_,
    (congrArg (·.bit 2) (hkept _ hlirq)).trans hasked, (congrArg (·.bit 1) (hkept _ hrirq)).trans hasked', hall.raised, fun b hb => ?_⟩
  · exact (congrArg DmaRing.parked hring').trans hgp
  · exact (congrArg DmaRing.out hring').trans hgo
  · exact (congrArg DmaRing.faultVa hring').trans hgv
  · rw [Memory.read_writeL hwf fa (by omega), nth, List.getD_append _ _ _ _ (by omega), List.getD_eq_getElem _ _ (by omega),
      List.getD_eq_getElem _ _ (by omega)]
    exact Nat.mod_eq_of_lt (hbytes _ (List.getElem_mem _))
  · exact Memory.read_writeL_other hwf _ (by rwa [hlen])
  · refine (Mach.settle_fld ..).trans ((Mach.fld_setFld _ _ (by decide) (by decide)).trans (Nat.mod_eq_of_lt ?_))
    exact Nat.lt_of_lt_of_le hroom hmax
  · exact (Mach.settle_rd ..).trans (hall.rd b fun h => hb (List.cons_subset_cons _ (faultRegs_subset l r) h))
end

/-- Settles O43: each row's work on the ring's engine, and on memory where its data moves. -/
theorem ringsFetchIssueMoveAndRecord : Obligations.RingsFetchIssueMoveAndRecord := by
  unfold Obligations.RingsFetchIssueMoveAndRecord
  refine ⟨fun cyc l r v s => ⟨exec_descriptorPost_rests cyc l r v s, exec_descriptorPost_runs cyc l r v s,
      descriptorPost_notTheOwner cyc l r v s⟩,
    fun cyc l r v s d hstate hfetched hactive hlocal hring hposted =>
      ⟨exec_descriptorPost_fence cyc l r v s hstate hfetched hactive hlocal hring hposted,
        exec_descriptorPost_error cyc l r v s hstate hfetched hactive hlocal hring hposted⟩,
    fun cyc l r s a b rest hruns hr hserves hring _ hctx hsrcs hdsts =>
      exec_transactionIssue_direct hruns hr hserves hring ⟨hctx, hsrcs, hdsts⟩,
    fun cyc l s h => exec_transactionIssue_rests h,
    fun cyc l r s a c e fh hwf hruns hr ha hmore hop hchunks hring hc hcause he hwalk hfh hroom htail hmax =>
      exec_transactionIssue_faults hwf hruns hr ha hmore hop hchunks hring hc hcause he hwalk hfh hroom htail hmax rfl,
    fun cyc l r i s a x pa hwf hruns ha hx hseq hring hpoison hwritten hlen hw => ⟨fun hmore =>
        exec_transactionComplete_goesOn hwf hruns ha hx hseq hpoison hwritten hlen hw hmore,
      fun hissued hout hfetched hparked hchunks hstatus hissue hlocal _ hport =>
        exec_transactionComplete_last hwf hruns ha hx hseq hpoison hwritten hlen hw hissued hout hfetched hparked hchunks hstatus hissue hlocal
          hport⟩,
    fun cyc l r s a x hruns ha hout hseq hop hissued hfetched hparked hchunks hstatus hwrites hpoison hport hlocal halone hflow hlen hroom =>
      exec_transactionComplete_sends hruns ha hout hseq hop hissued hfetched hparked hchunks hstatus hwrites hpoison hport hlocal halone hflow
        hlen hroom,
    fun cyc l r s a x hruns ha hout hseq hfetched hring hlocal hbad hparked =>
      exec_transactionComplete_poisoned hruns ha hout hseq hfetched hring hlocal hbad hparked,
    fun cyc l r i s h => exec_transactionComplete_rests h,
    fun cyc l r s y hwf hruns hy hring hfree hlen hbytes => exec_completionWrite cyc l r s hwf hruns hy hring hfree hlen hbytes rfl rfl,
    fun cyc l r s h => exec_completionWrite_rests cyc l r s h⟩

end Sys2Proof.Machine
end

section
/-! Accession, inbox, journal and checkpoints (R304 to R311). -/

namespace Sys2Proof.Machine

/-! ### A fault of a lane (R320) -/

/-- The registers in which a lane fault shows. -/
abbrev laneFaultRegs (l : Lane) : List Nat := [healthReg l, Reg.LANE_L_IRQ_STAT 0, Reg.LANE_L_IRQ_STAT 1]

theorem Mach.FocTells.laneFault {m₀ m : Mach} {regs : List Nat} {es : List Event} (h : m₀.FocTells regs es m) {l : Lane}
    (hregs : laneFaultRegs l ⊆ regs) (bit : Nat) :
    m₀.FocTells regs (es ++ [eventAt m₀ 0x3002 2 0xFF [bit] l.origin]) (m.laneFault l bit) :=
  ((h.health (hregs (by simp)) bit).raiseF2 l 0x3002 0xFF [bit]).orrBoth (hregs (by simp)) (hregs (by simp)) (by decide) (by decide) _

section
variable (m : Mach) (l x : Lane) (bit : Nat)

/-- What the fault leaves of either lane: all but its health word, its F2 event and the spoilt checkpoint. -/
theorem Mach.laneFault_keeps {β : Type} (P : LaneState → β)
    (hP : ∀ (y : LaneState) h f c, P { y with hwNow := h, f2 := f, ckptSpoilt := c } = P y) :
    P ((m.laneFault l bit).lanes.get x) = P (m.lanes.get x) := by
  have hsame : (m.laneFault l bit).lanes.get x =
      { m.lanes.get x with
        hwNow := ((m.health l bit).lanes.get x).hwNow, f2 := ((m.laneFault l bit).lanes.get x).f2, ckptSpoilt := true } := by
    cases l <;> cases x <;> rfl
  rw [hsame]
  exact hP ..

theorem Mach.laneFault_admitted : (m.laneFault l bit).admitted l = false := by
  have hf2 : ((m.laneFault l bit).lanes.get l).f2 = true := by
    cases l
    all_goals exact Bool.or_true _
  rw [Mach.admitted, hf2, Bool.not_true, Bool.and_false]

end

/-- A settled machine admits the lanes that it admitted. -/
theorem Mach.settle_admitted (m : Mach) (l : Lane) : m.settle.admitted l = m.admitted l := by
  rw [Mach.admitted, Mach.live, Mach.laneCode_congr (Mach.settle_rd ..), Mach.settle_lanes]
  rfl

/-! ### Two accession units (R304, R305) -/

section
variable {m : Mach}

theorem Mach.unitsMeet_equal (ha : m.live .a = true) (hb : m.live .b = true) (i : AsyncIn) : m.unitsMeet i i = m.accede i := by
  rw [Mach.unitsMeet, ha, hb, Bool.and_self, if_pos rfl, if_pos rfl]

theorem Mach.unitsMeet_differ (ha : m.live .a = true) (hb : m.live .b = true) {i j : AsyncIn} (h : i ≠ j) :
    m.unitsMeet i j = (m.dispute .entry).onLb fun b =>
      { b with disputed := b.disputed ++ [(m.entryOf m.accTickNow i, m.entryOf m.accTickNow j)] } := by
  rw [Mach.unitsMeet, ha, hb, Bool.and_self, if_pos rfl, if_neg h]

/-- With one lane LIVE its unit alone counts, and that of lane A with none. -/
theorem Mach.unitsMeet_alone {l : Lane} (ho : m.live l.other = false) (hl : m.live l = true ∨ l = .a) (i j : AsyncIn) :
    m.unitsMeet i j = m.accede (if l = .a then i else j) := by
  cases l
  · have hb : m.live .b = false := ho
    rw [Mach.unitsMeet, hb, Bool.and_false]
    rfl
  · have ha : m.live .a = false := ho
    have hb : m.live .b = true := hl.resolve_right nofun
    rw [Mach.unitsMeet, ha, hb]
    rfl

/-- An entry that finds its tick full and room in the next. -/
theorem Mach.accede_deferred {i : AsyncIn} (hfull : 1024 < m.waitingBytes m.accTickNow + entryBytes i.payload)
    (hearly : m.accTickNow < m.seq + 2) (hroom : m.waitingBytes (m.accTickNow + 1) + entryBytes i.payload ≤ 1024) :
    m.accede i = (m.wait { m.entryOf (m.accTickNow + 1) i with deferred := true }).incSat Reg.LANE_ACCSTAT 15 0 :=
  (if_neg (Nat.not_le.2 hfull)).trans (if_pos ⟨hearly, hroom⟩)

/-- An entry that finds its tick full and the next one too. -/
theorem Mach.accede_dropped {i : AsyncIn} (hfull : 1024 < m.waitingBytes m.accTickNow + entryBytes i.payload)
    (hnext : m.seq + 2 ≤ m.accTickNow ∨ 1024 < m.waitingBytes (m.accTickNow + 1) + entryBytes i.payload) :
    m.accede i = ((m.incSat Reg.LANE_ACCSTAT 31 16).raise 0x300D 1).orrBoth Reg.LANE_L_IRQ_STAT 0x80 :=
  (if_neg (Nat.not_le.2 hfull)).trans
    (if_neg fun ⟨hearly, hroom⟩ => hnext.elim (Nat.not_le.2 hearly) (Nat.not_lt.2 hroom))
end

/-- An entry of at most 992 bytes of payload fits a kilobyte. -/
theorem entryBytes_le {payload : List Nat} (h : payload.length ≤ 992) : entryBytes payload ≤ 1024 := by
  unfold entryBytes
  omega

section
variable {s : State} {cyc : Nat} {m : Mach}

/-- An input enters, and nothing else changes. -/
theorem run_enters {f : Mach → Mach} {i : AsyncIn} (hf : f (s.at cyc) = (s.at cyc).accede i) (hroom : s.roomy)
    (hi : i.payload.length ≤ 992) : ∃ t, run s cyc f = .next t ∧ Enters s t cyc i ∧ Quiet s t [] :=
  run_accede hf hroom (entryBytes_le hi) rfl (fun _ => State.at_rd ..) rfl

theorem exec_asyncInputArrival_equal (i : AsyncIn) (ha : s.m.live .a = true) (hb : s.m.live .b = true) (hroom : s.roomy)
    (hi : i.payload.length ≤ 992) :
    ∃ t, exec (.asyncInputArrival cyc i i none) s = .next t ∧ Enters s t cyc i ∧ Quiet s t [] :=
  run_enters (f := fun m => m.unitsMeet i i) (Mach.unitsMeet_equal (m := s.at cyc) ha hb i) hroom hi

theorem exec_asyncInputArrival_deferred (i : AsyncIn) (ha : s.m.live .a = true) (hb : s.m.live .b = true)
    (hfull : 1024 < s.m.waitingBytes (s.at cyc).accTickNow + entryBytes i.payload)
    (hearly : (s.at cyc).accTickNow < s.m.seq + 2)
    (hroom : s.m.waitingBytes ((s.at cyc).accTickNow + 1) + entryBytes i.payload ≤ 1024) :
    ∃ t, exec (.asyncInputArrival cyc i i none) s = .next t ∧
      t.m.lane.waiting =
        insertEntry { (s.at cyc).entryOf ((s.at cyc).accTickNow + 1) i with deferred := true } s.m.lane.waiting ∧
      t.m.fld Reg.LANE_ACCSTAT 15 0 = min (s.m.fld Reg.LANE_ACCSTAT 15 0 + 1) 0xFFFF ∧ Quiet s t [Reg.LANE_ACCSTAT] := by
  have hf : (s.at cyc).unitsMeet i i = _ :=
    (Mach.unitsMeet_equal (m := s.at cyc) ha hb i).trans (Mach.accede_deferred (m := s.at cyc) hfull hearly hroom)
  obtain ⟨t, ht, hm, hquiet⟩ := run_makes (s := s) (cyc := cyc) (f := fun m => m.unitsMeet i i) hf
    (((Mach.FocTells.refl (s.at cyc) [Reg.LANE_ACCSTAT]).wait _).incSat (by simp) (by decide) 15 0)
  refine ⟨t, ht, ?_, ?_, hquiet⟩
  · rw [hm, Mach.settle_lane]
    rfl
  · rw [hm, Mach.settle_fld, Mach.fld_incSat _ (by decide) (by decide)]
    rfl

theorem exec_asyncInputArrival_dropped (i : AsyncIn) (ha : s.m.live .a = true) (hb : s.m.live .b = true)
    (hfull : 1024 < s.m.waitingBytes (s.at cyc).accTickNow + entryBytes i.payload)
    (hnext : s.m.seq + 2 ≤ (s.at cyc).accTickNow ∨
      1024 < s.m.waitingBytes ((s.at cyc).accTickNow + 1) + entryBytes i.payload) :
    ∃ t, exec (.asyncInputArrival cyc i i none) s = .next t ∧ t.m.lane.waiting = s.m.lane.waiting ∧
      t.m.fld Reg.LANE_ACCSTAT 31 16 = min (s.m.fld Reg.LANE_ACCSTAT 31 16 + 1) 0xFFFF ∧
      Raises s t [eventAt (s.at cyc) 0x300D 1 0xFF [] 0] ∧
      SameRegsBut s t [Reg.LANE_ACCSTAT, Reg.LANE_L_IRQ_STAT 0, Reg.LANE_L_IRQ_STAT 1] ∧ SameMemory s t := by
  have hf : (s.at cyc).unitsMeet i i = _ :=
    (Mach.unitsMeet_equal (m := s.at cyc) ha hb i).trans (Mach.accede_dropped (m := s.at cyc) hfull hnext)
  obtain ⟨t, ht, hm, hregs, hmem, hev⟩ := run_makes (s := s) (cyc := cyc) (f := fun m => m.unitsMeet i i) hf
    ((((Mach.FocTells.refl (s.at cyc) [Reg.LANE_ACCSTAT, Reg.LANE_L_IRQ_STAT 0, Reg.LANE_L_IRQ_STAT 1]).incSat (by simp)
      (by decide) 31 16).raise 0x300D 1 0xFF [] 0).orrBoth (by simp) (by simp) (by decide) (by decide) _)
  refine ⟨t, ht, ?_, ?_, hev, hregs, hmem⟩
  · rw [hm, Mach.settle_lane]
    rfl
  · rw [hm, Mach.settle_fld, Mach.fld, Mach.rd_orrBoth_other _ (by decide) (by decide), Mach.raise_rd, ← Mach.fld,
      Mach.fld_incSat _ (by decide) (by decide)]
    rfl

/-- R304: two entries that differ wait for the tick's verdict. -/
theorem exec_asyncInputArrival_differ (i j : AsyncIn) (ha : s.m.live .a = true) (hb : s.m.live .b = true) (hne : i ≠ j) :
    ∃ t, exec (.asyncInputArrival cyc i j none) s = .next t ∧ t.m.lane.waiting = s.m.lane.waiting ∧
      t.m.lane.disputes = s.m.lane.disputes ++ [.entry] ∧
      t.m.lane.disputed = s.m.lane.disputed ++
        [((s.at cyc).entryOf (s.at cyc).accTickNow i, (s.at cyc).entryOf (s.at cyc).accTickNow j)] ∧ Quiet s t [] := by
  obtain ⟨t, ht, hm, hquiet⟩ := run_quiet (s := s) (cyc := cyc) (f := fun m => m.unitsMeet i j) (regs := [])
    (Mach.unitsMeet_differ (m := s.at cyc) ha hb hne) (fun b _ => State.at_rd cyc s b) rfl
  have hlane := (congrArg Mach.lane hm).trans (Mach.settle_lane _)
  exact ⟨t, ht, by rw [hlane]; rfl, by rw [hlane]; rfl, by rw [hlane]; rfl, hquiet⟩

/-- R304: a transfer that fails its CRC is a fault of its lane, and the other unit's entry enters. -/
theorem exec_asyncInputArrival_bad (i j : AsyncIn) (l : Lane) (ha : s.m.live .a = true) (hb : s.m.live .b = true) (hroom : s.roomy)
    (hi : i.payload.length ≤ 992) (hj : j.payload.length ≤ 992) :
    ∃ t, exec (.asyncInputArrival cyc i j (some l)) s = .next t ∧ Enters s t cyc (if l = .a then j else i) ∧
      t.m.lane.disputes = s.m.lane.disputes ∧ t.m.admitted l = false ∧
      Raises s t [eventAt (s.at cyc) 0x3002 2 0xFF [11] l.origin] ∧ SameRegsBut s t (laneFaultRegs l) ∧ SameMemory s t := by
  have htells := (Mach.FocTells.refl (s.at cyc) (laneFaultRegs l)).laneFault (l := l) (fun _ h => h) 11
  have hlane : ((s.at cyc).laneFault l 11).lane = s.m.lane := rfl
  have hadm := (s.at cyc).laneFault_admitted l 11
  have hi' : (if l = .a then j else i).payload.length ≤ 992 := by split <;> assumption
  have hstep : ∀ m : Mach, m.live .a = true → m.live .b = true →
      (if m.live .a && m.live .b then m.linkError l (if l = .a then j else i) else m.unitsMeet i j) =
        (m.laneFault l 11).accede (if l = .a then j else i) := fun m h h' => by
    rw [h, h']
    rfl
  have hf := hstep (s.at cyc) ha hb
  generalize hw : (s.at cyc).laneFault l 11 = w at hf htells hlane hadm
  rw [Mach.accede_roomy _ (by rw [hlane, hroom]) (entryBytes_le hi'), htells.entryOf_eq] at hf
  obtain ⟨t, ht, hm, hregs, hmem, hev⟩ := run_makes (s := s) (cyc := cyc) (f := fun m =>
    if m.live .a && m.live .b then m.linkError l (if l = .a then j else i) else m.unitsMeet i j) hf (htells.wait _)
  have hlane' := (congrArg Mach.lane hm).trans ((Mach.settle_lane _).trans (Mach.wait_lane ..))
  refine ⟨t, ht, ?_, ?_, ?_, hev, hregs, hmem⟩
  · rw [Enters, hlane', hlane, hroom, insertEntry_nil]
  · rw [hlane', hlane]
  · rw [hm, Mach.settle_admitted]
    exact hadm

theorem exec_asyncInputArrival_alone (i j : AsyncIn) (l : Lane) (bad : Option Lane) (ho : s.m.live l.other = false)
    (hl : s.m.live l = true ∨ l = .a) (hroom : s.roomy) (hi : i.payload.length ≤ 992) (hj : j.payload.length ≤ 992) :
    ∃ t, exec (.asyncInputArrival cyc i j bad) s = .next t ∧ Enters s t cyc (if l = .a then i else j) ∧ Quiet s t [] := by
  have hmeet := Mach.unitsMeet_alone (m := s.at cyc) ho hl i j
  have hi' : (if l = .a then i else j).payload.length ≤ 992 := by split <;> assumption
  cases bad with
  | none => exact run_enters (f := fun m => m.unitsMeet i j) hmeet hroom hi'
  | some x =>
    have hnot : ((s.at cyc).live .a && (s.at cyc).live .b) = false := by
      cases l
      · exact (congrArg _ (show (s.at cyc).live .b = false from ho)).trans (Bool.and_false _)
      · exact (congrArg (· && _) (show (s.at cyc).live .a = false from ho)).trans (Bool.false_and _)
    exact run_enters (f := fun m =>
      if m.live .a && m.live .b then m.linkError x (if x = .a then j else i) else m.unitsMeet i j)
      ((if_neg (by rw [hnot]; exact Bool.false_ne_true)).trans hmeet) hroom hi'
end

end Sys2Proof.Machine
end

section
/-! Inbox, journal and checkpoints (R306 to R311), and the statement of the inputs. -/

namespace Sys2Proof.Machine

variable {s : State} {cyc : Nat}

/-- A lane's admission rests on its state and on its F2 events. -/
theorem Mach.admitted_congr {m m' : Mach} (l : Lane) (hst : m'.rd Reg.LANE_STATUS = m.rd Reg.LANE_STATUS)
    (hf2 : (m'.lanes.get l).f2 = (m.lanes.get l).f2) : m'.admitted l = m.admitted l := by
  rw [Mach.admitted, Mach.admitted, Mach.live, Mach.live, Mach.laneCode_congr hst, hf2]

/-! ### Inbox and journal (R306 to R308) -/

theorem exec_inboxRead (l : Lane) :
    ∃ t, exec (.inboxRead cyc l false) s = .next t ∧
      t.m.reply = .data (BitVec.ofNat 32 ((s.m.lanes.get l).inbox.headD 0)) ∧
      (t.m.lanes.get l).inbox = (s.m.lanes.get l).inbox.drop 1 ∧ t.m.lanes.get l.other = s.m.lanes.get l.other ∧ Quiet s t [] := by
  obtain ⟨t, ht, hm, hquiet⟩ := run_quiet (s := s) (cyc := cyc) (f := fun m => m.inboxRead l) (regs := []) rfl
    (fun b _ => State.at_rd cyc s b) rfl
  have hlanes := (congrArg Mach.lanes hm).trans (Mach.settle_lanes _)
  refine ⟨t, ht, ?_, ?_, ?_, hquiet⟩
  · rw [hm, Mach.settle_reply]
    rfl
  · rw [hlanes]
    cases l <;> rfl
  · rw [hlanes]
    cases l <;> rfl

/-- A bad entry: a fault of the lane, and a free value (R306, R308). -/
theorem Mach.FocTells.journalBad {m₀ m : Mach} {regs : List Nat} {es : List Event} (h : m₀.FocTells regs es m) {l : Lane}
    (hregs : laneFaultRegs l ⊆ regs) :
    m₀.FocTells regs (es ++ [eventAt m₀ 0x3002 2 0xFF [6] l.origin]) (m.journalBad l) :=
  ((h.spend 1).laneFault hregs 6).next (m₂ := m.journalBad l) rfl rfl fun _ => rfl

section
variable (m : Mach) (l : Lane)

theorem Mach.journalBad_admitted : (m.journalBad l).admitted l = false := (m.spend 1).laneFault_admitted l 6

theorem Mach.journalBad_reply : (m.journalBad l).reply = .data (BitVec.ofNat 32 (m.freeVal 32).1) := rfl

theorem Mach.journalBad_inbox : ((m.journalBad l).lanes.get l).inbox = (m.lanes.get l).inbox :=
  (m.spend 1).laneFault_keeps l l 6 LaneState.inbox fun _ _ _ _ => rfl
end

theorem exec_inboxRead_bad (l : Lane) :
    ∃ t, exec (.inboxRead cyc l true) s = .next t ∧ t.m.reply = .data (BitVec.ofNat 32 (s.m.freeVal 32).1) ∧
      (t.m.lanes.get l).inbox = (s.m.lanes.get l).inbox.drop 1 ∧ t.m.admitted l = false ∧
      Raises s t [eventAt (s.at cyc) 0x3002 2 0xFF [6] l.origin] ∧ SameRegsBut s t (laneFaultRegs l) ∧ SameMemory s t := by
  have htaken : (s.at cyc).FocTells (laneFaultRegs l) [] ((s.at cyc).inboxRead l) :=
    (Mach.FocTells.refl (s.at cyc) _).next rfl rfl fun _ => rfl
  have hinbox : (((s.at cyc).inboxRead l).lanes.get l).inbox = (s.m.lanes.get l).inbox.drop 1 := by
    cases l <;> rfl
  have hfree : (((s.at cyc).inboxRead l).freeVal 32).1 = (s.m.freeVal 32).1 := rfl
  generalize hw : (s.at cyc).inboxRead l = w at htaken hinbox hfree
  obtain ⟨t, ht, hm, hregs, hmem, hev⟩ := run_makes (s := s) (cyc := cyc) (f := fun m => (m.inboxRead l).journalBad l)
    (congrArg (·.journalBad l) hw) (htaken.journalBad fun _ h => h)
  refine ⟨t, ht, ?_, ?_, ?_, hev, hregs, hmem⟩
  · rw [hm, Mach.settle_reply, Mach.journalBad_reply, hfree]
  · rw [hm, Mach.settle_lanes, Mach.journalBad_inbox, hinbox]
  · rw [hm, Mach.settle_admitted, Mach.journalBad_admitted]

/-- The word counter of the journal advances, and nothing else of it (R308). -/
theorem Mach.journalNext_fld (m : Mach) {n : Nat} (h : m.fld Reg.LANE_JRN_ADDR 13 0 = n) :
    (m.incMod Reg.LANE_JRN_ADDR 13 0).settle.fld Reg.LANE_JRN_ADDR 13 0 = (n + 1) % 2 ^ 14 := by
  rw [Mach.settle_fld, Mach.fld_incMod _ (by decide) (by decide), h]

theorem Lane.ofIx_ix (l : Lane) : Lane.ofIx l.ix = l := by cases l <;> rfl

theorem exec_journalRead :
    ∃ t, exec (.journalRead cyc false) s = .next t ∧ t.m.reply = .data (BitVec.ofNat 32 s.m.journalWord) ∧
      t.m.fld Reg.LANE_JRN_ADDR 13 0 = (s.m.fld Reg.LANE_JRN_ADDR 13 0 + 1) % 2 ^ 14 ∧ t.m.lanes = s.m.lanes ∧
      Quiet s t [Reg.LANE_JRN_ADDR] := by
  obtain ⟨t, ht, hm, hquiet⟩ := run_makes (s := s) (cyc := cyc)
    (f := fun m => (m.say (.data (BitVec.ofNat 32 m.journalWord))).incMod Reg.LANE_JRN_ADDR 13 0) rfl
    (((Mach.FocTells.refl (s.at cyc) [Reg.LANE_JRN_ADDR]).next (m₂ := (s.at cyc).say (.data (BitVec.ofNat 32 (s.at cyc).journalWord))) rfl rfl fun _ => rfl).wr
      (a := Reg.LANE_JRN_ADDR) (by simp) (by decide) _)
  refine ⟨t, ht, ?_, ?_, ?_, hquiet⟩
  · rw [hm, Mach.settle_reply]
    rfl
  · rw [hm]
    exact Mach.journalNext_fld _ rfl
  · rw [hm, Mach.settle_lanes]
    rfl

theorem exec_journalRead_bad (l : Lane) (hl : s.m.fld Reg.LANE_JRN_ADDR 31 31 = l.ix) :
    ∃ t, exec (.journalRead cyc true) s = .next t ∧ t.m.reply = .data (BitVec.ofNat 32 (s.m.freeVal 32).1) ∧
      t.m.fld Reg.LANE_JRN_ADDR 13 0 = (s.m.fld Reg.LANE_JRN_ADDR 13 0 + 1) % 2 ^ 14 ∧ t.m.admitted l = false ∧
      Raises s t [eventAt (s.at cyc) 0x3002 2 0xFF [6] l.origin] ∧
      SameRegsBut s t (Reg.LANE_JRN_ADDR :: laneFaultRegs l) ∧ SameMemory s t := by
  have htells := (Mach.FocTells.refl (s.at cyc) (Reg.LANE_JRN_ADDR :: laneFaultRegs l)).journalBad (l := l)
    (List.subset_cons_self ..)
  have hadm := (s.at cyc).journalBad_admitted l
  have hreply : ((s.at cyc).journalBad l).reply = .data (BitVec.ofNat 32 (s.m.freeVal 32).1) := rfl
  have hfld : ((s.at cyc).journalBad l).fld Reg.LANE_JRN_ADDR 13 0 = s.m.fld Reg.LANE_JRN_ADDR 13 0 :=
    (congrArg (Word.bits · 13 0) (((Mach.FocTells.refl (s.at cyc) (laneFaultRegs l)).journalBad fun _ h => h).rd Reg.LANE_JRN_ADDR
      (by cases l <;> decide))).trans rfl
  have hstep : ((s.at cyc).journalBad (Lane.ofIx ((s.at cyc).fld Reg.LANE_JRN_ADDR 31 31))).incMod Reg.LANE_JRN_ADDR 13 0 =
      ((s.at cyc).journalBad l).incMod Reg.LANE_JRN_ADDR 13 0 := by
    have hix : Lane.ofIx ((s.at cyc).fld Reg.LANE_JRN_ADDR 31 31) = l := (congrArg Lane.ofIx hl).trans (Lane.ofIx_ix l)
    exact congrArg (fun x => ((s.at cyc).journalBad x).incMod Reg.LANE_JRN_ADDR 13 0) hix
  generalize (s.at cyc).journalBad l = w at htells hadm hreply hfld hstep
  obtain ⟨t, ht, hm, hregs, hmem, hev⟩ := run_makes (s := s) (cyc := cyc)
    (f := fun m => (m.journalBad (Lane.ofIx (m.fld Reg.LANE_JRN_ADDR 31 31))).incMod Reg.LANE_JRN_ADDR 13 0) hstep
    (htells.wr (a := Reg.LANE_JRN_ADDR) (by simp) (by decide) _)
  refine ⟨t, ht, ?_, ?_, ?_, hev, hregs, hmem⟩
  · rw [hm, Mach.settle_reply]
    exact hreply
  · rw [hm]
    exact Mach.journalNext_fld _ hfld
  · rw [hm, Mach.settle_admitted]
    exact (Mach.admitted_congr l ((Mach.rd_setFld ..).trans (if_neg (by decide))) rfl).trans hadm

/-! ### Checkpoints (R310, R311) -/

section
variable (m : Mach)

theorem Mach.showCheckpoint_rd_other {b : Nat} (h : b ≠ Reg.LANE_CKSTAT) : m.showCheckpoint.rd b = m.rd b := by
  unfold Mach.showCheckpoint
  dsimp only
  split
  · rw [Mach.rd_setBit, if_neg h, Mach.rd_setBit, if_neg h, Mach.rd_setFld, if_neg h, Mach.rd_setBit, if_neg h]
  · rw [Mach.rd_setBit, if_neg h, Mach.rd_setBit, if_neg h]

omit m in
theorem Mach.FocTells.showCheckpoint {m₀ m : Mach} {regs : List Nat} {es : List Event} (h : m₀.FocTells regs es m)
    (hreg : Reg.LANE_CKSTAT ∈ regs) : m₀.FocTells regs es m.showCheckpoint := by
  unfold Mach.showCheckpoint
  dsimp only
  split
  · exact (((h.wr hreg (by decide) _).wr hreg (by decide) _).wr hreg (by decide) _).wr hreg (by decide) _
  · exact (h.wr hreg (by decide) _).wr hreg (by decide) _

theorem Mach.showCheckpoint_lanes : m.showCheckpoint.lanes = m.lanes := by
  unfold Mach.showCheckpoint
  dsimp only
  split <;> rfl

theorem Mach.showCheckpoint_law : m.showCheckpoint.law = m.law := by
  unfold Mach.showCheckpoint
  dsimp only
  split <;> rfl

theorem Mach.showCheckpoint_lane : m.showCheckpoint.lane = m.lane := by
  unfold Mach.showCheckpoint
  dsimp only
  split <;> rfl
end

/-- A checkpoint tick of a LIVE lane (R310). -/
def Mach.CheckpointDue (m : Mach) (l : Lane) : Prop :=
  m.live l = true ∧ m.tick.running = true ∧ m.fld Reg.LANE_CFG 4 0 ≠ 0 ∧ (m.seq + 1) % m.fld Reg.LANE_CFG 4 0 = 0

theorem Mach.checkpointDue_iff (m : Mach) (l : Lane) :
    (m.live l && m.tick.running && m.fld Reg.LANE_CFG 4 0 != 0 && (m.seq + 1) % m.fld Reg.LANE_CFG 4 0 == 0) = true ↔
      m.CheckpointDue l := by
  simp only [Bool.and_eq_true, bne_iff_ne, beq_iff_eq, Mach.CheckpointDue, and_assoc]

theorem exec_checkpointStart (l : Lane) (h : s.m.CheckpointDue l) :
    ∃ t, exec (.checkpointStart cyc l) s = .next t ∧
      (t.m.lanes.get l).copying = some ((s.at cyc).takeCheckpoint s.mem l) ∧ (t.m.lanes.get l).complete = none ∧
      t.m.lanes.get l.other = s.m.lanes.get l.other ∧ Quiet s t [Reg.LANE_CKSTAT] := by
  have hlanes := Mach.showCheckpoint_lanes ((s.at cyc).onLane l fun x =>
    { x with copying := some ((s.at cyc).takeCheckpoint s.mem l), complete := none })
  have hf : ((s.at cyc).checkpointStart s.mem l, s.mem) = _ := congrArg (·, s.mem) (if_pos (((s.at cyc).checkpointDue_iff l).2 h))
  obtain ⟨t, ht, hm, hregs, hmem, hev⟩ := runMem_makes (s := s) (cyc := cyc) (f := fun m mem => (m.checkpointStart mem l, mem)) hf
    ((((Mach.FocTells.refl (s.at cyc) [Reg.LANE_CKSTAT]).onLane l fun x =>
      { x with copying := some ((s.at cyc).takeCheckpoint s.mem l), complete := none })).showCheckpoint (by simp))
  replace hlanes := (congrArg Mach.lanes hm).trans ((Mach.settle_lanes _).trans hlanes)
  refine ⟨t, ht, ?_, ?_, ?_, hregs, hmem, hev⟩
  · rw [hlanes, Mach.onLane, Two.get_set_self]
  · rw [hlanes, Mach.onLane, Two.get_set_self]
  · rw [hlanes, Mach.onLane, Two.get_set_other _ _ (by cases l <;> decide)]
    rfl

theorem exec_checkpointStart_rests (l : Lane) (h : ¬ s.m.CheckpointDue l) :
    ∃ t, exec (.checkpointStart cyc l) s = .next t ∧ t.m.lanes = s.m.lanes ∧ Quiet s t [] := by
  have hf : ((s.at cyc).checkpointStart s.mem l, s.mem) = _ := congrArg (·, s.mem) (if_neg fun hdue => h (((s.at cyc).checkpointDue_iff l).1 hdue))
  obtain ⟨t, ht, hm, hquiet⟩ := runMem_idle (s := s) (cyc := cyc) (f := fun m mem => (m.checkpointStart mem l, mem)) hf
  exact ⟨t, ht, by rw [hm, Mach.settle_lanes]; rfl, hquiet⟩

/-! ### The seals of the law banks (R124) -/

/-- A slot's count of checkpoints to come, one nearer to its end unless its swap is asked for. -/
def LawSlot.lifted (x : LawSlot) : LawSlot :=
  if x.sealLeft = 0 then x
  else if x.asked || x.detSwap then { x with sealBefore := x.sealBefore - 1 }
  else { x with sealLeft := x.sealLeft - 1, sealBefore := x.sealLeft - 1 }

theorem LawSlot.lifted_sealLeft (x : LawSlot) :
    x.lifted.sealLeft = if x.asked = true ∨ x.detSwap = true then x.sealLeft else x.sealLeft - 1 := by
  unfold LawSlot.lifted
  split
  next h => rw [h, Nat.zero_sub, ite_self]
  next => simp only [Bool.or_eq_true]; split <;> rfl

/-- One turn of the loop over a lane's slots. -/
def Mach.sealStep (m : Mach) (l : Lane) (k : Nat) : Mach :=
  let s := m.lawSlot l k
  if s.sealLeft = 0 then m
  else if s.asked || s.detSwap then m.onLawSlot l k fun s => { s with sealBefore := s.sealBefore - 1 }
  else
    let m := m.onLawSlot l k fun s => { s with sealLeft := s.sealLeft - 1, sealBefore := s.sealLeft - 1 }
    m.setBit (Reg.LAW_SLOT_STAT l.ix k) 29 (s.sealLeft ≠ 1)

section
variable (m : Mach) (l : Lane) (k : Nat)

theorem Mach.sealStep_at : (m.sealStep l k).lawSlot l k = (m.lawSlot l k).lifted := by
  unfold Mach.sealStep LawSlot.lifted
  dsimp only
  split
  · rfl
  · split
    · exact Mach.lawSlot_onLawSlot _ l rfl k
    · exact Mach.lawSlot_onLawSlot _ l rfl k

theorem Mach.sealStep_lawSlot_other {x : Lane} {j : Nat} (h : x ≠ l ∨ j ≠ k) : (m.sealStep l k).lawSlot x j = m.lawSlot x j := by
  have hon : ∀ f, (m.onLawSlot l k f).lawSlot x j = m.lawSlot x j := fun f => by
    rw [Mach.lawSlot, Mach.onLawSlot, Mach.onLaw_law]
    rcases eq_or_ne l x with rfl | hx
    · rw [Two.get_set_self, nth_upd, if_neg fun hj => (h.resolve_left (· rfl)) hj.1]
      rfl
    · rw [Two.get_set_other _ _ hx]
      rfl
  unfold Mach.sealStep
  dsimp only
  split
  · rfl
  · split
    · exact hon _
    · exact hon _

omit m k in
theorem lawSlotStat_not_stamp {k : Nat} (h : k < 16) : Reg.LAW_SLOT_STAT l.ix k ∉ stampRegs := by
  have hfin : ∀ j : Fin 16, Reg.LAW_SLOT_STAT l.ix j ∉ stampRegs := by cases l <;> decide
  exact hfin ⟨k, h⟩

omit m k in
theorem Mach.FocTells.sealStep {k : Nat} {m₀ m : Mach} {regs : List Nat} {es : List Event} (h : m₀.FocTells regs es m) (hk : k < 16)
    (hreg : Reg.LAW_SLOT_STAT l.ix k ∈ regs) : m₀.FocTells regs es (m.sealStep l k) := by
  have hon : ∀ f, m₀.FocTells regs es (m.onLawSlot l k f) := fun f => h.next rfl rfl fun _ => rfl
  unfold Mach.sealStep
  dsimp only
  split
  · exact h
  · split
    · exact hon _
    · exact (hon _).wr hreg (lawSlotStat_not_stamp l hk) _

theorem Mach.sealStep_lanes : (m.sealStep l k).lanes = m.lanes := by
  unfold Mach.sealStep
  dsimp only
  split
  · rfl
  · split <;> rfl

theorem Mach.sealStep_lane : (m.sealStep l k).lane = m.lane := by
  unfold Mach.sealStep
  dsimp only
  split
  · rfl
  · split <;> rfl

omit k in
theorem Mach.sealLift_lanes : (m.sealLift l).lanes = m.lanes := forN_keeps Mach.lanes (fun k m => m.sealStep_lanes l k) 16 m

omit k in
theorem Mach.sealLift_lane : (m.sealLift l).lane = m.lane := forN_keeps Mach.lane (fun k m => m.sealStep_lane l k) 16 m

theorem Mach.sealLift_at (hk : k < 16) : (m.sealLift l).lawSlot l k = (m.lawSlot l k).lifted :=
  forN_through (P := fun x => x.lawSlot l k = m.lawSlot l k) (Q := fun x => x.lawSlot l k = (m.lawSlot l k).lifted)
    (fun j x hj hx => (x.sealStep_lawSlot_other l j (.inr (Ne.symm hj))).trans hx)
    (fun x hx => (x.sealStep_at l k).trans (congrArg LawSlot.lifted hx))
    (fun j x hj hx => (x.sealStep_lawSlot_other l j (.inr (Ne.symm hj))).trans hx) hk rfl

theorem Mach.sealLift_lawSlot_other {x : Lane} (h : x ≠ l) : (m.sealLift l).lawSlot x k = m.lawSlot x k :=
  forN_keeps (fun y => y.lawSlot x k) (fun j y => y.sealStep_lawSlot_other l j (.inl h)) 16 m

omit m k in
theorem Mach.FocTells.sealLift {m₀ m : Mach} {regs : List Nat} {es : List Event} (h : m₀.FocTells regs es m)
    (hreg : (List.range 16).map (Reg.LAW_SLOT_STAT l.ix) ⊆ regs) : m₀.FocTells regs es (m.sealLift l) :=
  forL_induct (P := m₀.FocTells regs es) (l := List.range 16)
    (fun _ hk _ h => Mach.FocTells.sealStep l h (List.mem_range.1 hk) (hreg (List.mem_map_of_mem hk))) h
end

/-! ### The end of a copy (R310, R311) -/

/-- A copy that verified stands complete. -/
def Mach.copyEnds (m : Mach) (l : Lane) (c : Checkpoint) : Mach :=
  (m.onLane l fun s => { s with copying := none, complete := some c }).showCheckpoint

/-- The seals of the banks that the lane holds are one checkpoint nearer to their end, and those of a lane that recovers beside it. -/
def Mach.lifts (m : Mach) (l : Lane) : Mach :=
  let m := m.sealLift l
  if m.laneCode l.other = 5 then m.sealLift l.other else m

/-- The lanes' checkpoints of one tick are compared. -/
def Mach.compares (m : Mach) (l : Lane) (c : Checkpoint) (slots ms : List Nat) : Mach :=
  match (m.lanes.get l.other).complete with
  | some d => if m.arr = 1 ∧ d.tick = c.tick ∧ d.bcrc slots ms ≠ c.bcrc slots ms then m.dispute .checkpoint else m
  | none => m

/-- What the comparison of a copy with the other lane's finds. -/
def Mach.differs (m : Mach) (l : Lane) (c : Checkpoint) : List Dispute :=
  match (m.lanes.get l.other).complete with
  | some d => if m.arr = 1 ∧ d.tick = c.tick ∧
      d.bcrc (m.ownSlots l) (m.ownMotors l) ≠ c.bcrc (m.ownSlots l) (m.ownMotors l) then [.checkpoint] else []
  | none => []

/-- The registers that a verified copy may change. -/
def copyRegs (l : Lane) (recovers : Prop) [Decidable recovers] : List Nat :=
  Reg.LANE_CKSTAT :: ((List.range 16).map (Reg.LAW_SLOT_STAT l.ix) ++
    if recovers then (List.range 16).map (Reg.LAW_SLOT_STAT l.other.ix) else [])

section
variable (m : Mach) (l : Lane) (c : Checkpoint)

theorem Mach.checkpointComplete_ok (h : (m.lanes.get l).copying = some c) (mem : List Host.Cell) :
    m.checkpointComplete mem l true = (((m.copyEnds l c).lifts l).compares l c (m.ownSlots l) (m.ownMotors l),
      Memory.writeL mem (archiveBase l + 0x20000 * (if (m.lanes.get l).usable = some false then 1 else 0))
        (c.bytes l (m.ownSlots l) (m.ownMotors l))) := by
  rw [Mach.checkpointComplete, h]
  rfl

theorem Mach.checkpointComplete_failed (h : (m.lanes.get l).copying = some c) (mem : List Host.Cell) :
    m.checkpointComplete mem l false =
      ((m.onLane l fun s => { s with copying := none }).showCheckpoint.laneFault l 7, mem) := by
  rw [Mach.checkpointComplete, h]
  rfl

theorem Mach.checkpointComplete_none (h : (m.lanes.get l).copying = none) (mem : List Host.Cell) (ok : Bool) :
    m.checkpointComplete mem l ok = (m, mem) := by
  rw [Mach.checkpointComplete, h]

/-! What each of the three parts leaves of lanes, disputes and law slots. -/

theorem Mach.lifts_lanes : (m.lifts l).lanes = m.lanes := by
  unfold Mach.lifts
  dsimp only
  split
  · rw [Mach.sealLift_lanes, Mach.sealLift_lanes]
  · rw [Mach.sealLift_lanes]

theorem Mach.lifts_lane : (m.lifts l).lane = m.lane := by
  unfold Mach.lifts
  dsimp only
  split
  · rw [Mach.sealLift_lane, Mach.sealLift_lane]
  · rw [Mach.sealLift_lane]

theorem Mach.lifts_lawSlot {k : Nat} (hk : k < 16) : (m.lifts l).lawSlot l k = (m.lawSlot l k).lifted := by
  unfold Mach.lifts
  dsimp only
  split
  · rw [Mach.sealLift_lawSlot_other _ _ _ (by cases l <;> decide), Mach.sealLift_at _ _ _ hk]
  · rw [Mach.sealLift_at _ _ _ hk]

theorem Mach.copyEnds_lanes : (m.copyEnds l c).lanes = (m.onLane l fun s => { s with copying := none, complete := some c }).lanes :=
  Mach.showCheckpoint_lanes _

/-- The comparison changes neither lane beyond the mark that its checkpoint is spoilt. -/
theorem Mach.compares_keeps {β : Type} (P : LaneState → β) (hP : ∀ (y : LaneState) c, P { y with ckptSpoilt := c } = P y)
    (slots ms : List Nat) (x : Lane) : P (((m.compares l c slots ms).lanes).get x) = P (m.lanes.get x) := by
  unfold Mach.compares
  split
  · split
    · cases x <;> exact hP ..
    · rfl
  · rfl

theorem Mach.compares_law (slots ms : List Nat) : (m.compares l c slots ms).law = m.law := by
  unfold Mach.compares
  split
  · split <;> rfl
  · rfl

theorem Mach.compares_disputes {m₀ : Mach} (ho : (m.lanes.get l.other).complete = (m₀.lanes.get l.other).complete)
    (harr : m.arr = m₀.arr) :
    (m.compares l c (m₀.ownSlots l) (m₀.ownMotors l)).lane.disputes = m.lane.disputes ++ m₀.differs l c := by
  unfold Mach.compares Mach.differs
  rw [ho, harr]
  split
  · split
    · rfl
    · exact (List.append_nil _).symm
  · exact (List.append_nil _).symm

section
variable {m₀ : Mach} {regs : List Nat} {es : List Event} {m l c} (h : m₀.FocTells regs es m)
include h

theorem Mach.FocTells.compares (slots ms : List Nat) : m₀.FocTells regs es (m.compares l c slots ms) := by
  unfold Mach.compares
  split
  · split
    · exact h.next rfl rfl fun _ => rfl
    · exact h
  · exact h

theorem Mach.FocTells.lifts (hregs : copyRegs l (m₀.laneCode l.other = 5) ⊆ regs) : m₀.FocTells regs es (m.lifts l) := by
  have hown := Mach.FocTells.sealLift l h (fun a ha => hregs (List.mem_cons_of_mem _ (List.mem_append_left _ ha)))
  have hcode : (m.sealLift l).laneCode l.other = m₀.laneCode l.other := Mach.laneCode_congr (hown.stamp _ (by decide)) _
  unfold Mach.lifts
  dsimp only
  rw [hcode]
  split
  next hr =>
    exact Mach.FocTells.sealLift l.other hown fun a ha => hregs (List.mem_cons_of_mem _ (List.mem_append_right _ (by rw [if_pos hr]; exact ha)))
  next => exact hown
end

end

theorem exec_checkpointComplete (l : Lane) (c : Checkpoint) (hwf : Memory.wf s.mem = true)
    (hc : (s.m.lanes.get l).copying = some c) :
    ∃ t, exec (.checkpointComplete cyc l true) s = .next t ∧ (t.m.lanes.get l).copying = none ∧
      (t.m.lanes.get l).complete = some c ∧ (t.m.lanes.get l).usable = (s.m.lanes.get l).usable ∧
      (let a := archiveBase l + 0x20000 * (if (s.m.lanes.get l).usable = some false then 1 else 0)
       let bytes := c.bytes l (s.m.ownSlots l) (s.m.ownMotors l)
       t.mem = Memory.writeL s.mem a bytes ∧ ∀ b, b < a ∨ a + bytes.length ≤ b → Memory.read t.mem b = Memory.read s.mem b) ∧
      t.m.lane.disputes = s.m.lane.disputes ++ s.m.differs l c ∧
      (∀ k : Fin 16, (t.m.lawSlot l k).sealLeft =
        if (s.m.lawSlot l k).asked = true ∨ (s.m.lawSlot l k).detSwap = true then (s.m.lawSlot l k).sealLeft
        else (s.m.lawSlot l k).sealLeft - 1) ∧
      Raises s t [] ∧ SameRegsBut s t (copyRegs l (s.m.laneCode l.other = 5)) := by
  have hcopy : (s.at cyc).FocTells (copyRegs l (s.m.laneCode l.other = 5)) [] ((s.at cyc).copyEnds l c) :=
    ((Mach.FocTells.refl (s.at cyc) _).onLane l _).showCheckpoint List.mem_cons_self
  have hlanes := Mach.copyEnds_lanes (s.at cyc) l c
  have hlane : ((s.at cyc).copyEnds l c).lane = s.m.lane := Mach.showCheckpoint_lane _
  have hlaw : ((s.at cyc).copyEnds l c).law = s.m.law := Mach.showCheckpoint_law _
  have hf : (s.at cyc).checkpointComplete s.mem l true = _ :=
    (s.at cyc).checkpointComplete_ok l c hc s.mem
  generalize (s.at cyc).copyEnds l c = w at hcopy hlanes hlane hlaw hf
  have hlifts := hcopy.lifts (l := l) fun _ h => h
  have hlanes' : (w.lifts l).lanes = _ := (Mach.lifts_lanes w l).trans hlanes
  have hlane' : (w.lifts l).lane = s.m.lane := (Mach.lifts_lane w l).trans hlane
  have hslot : ∀ k : Fin 16, (w.lifts l).lawSlot l k = (s.m.lawSlot l k).lifted := fun k => by
    rw [Mach.lifts_lawSlot w l k.2, Mach.lawSlot, hlaw]
    rfl
  generalize w.lifts l = u at hlifts hlanes' hlane' hslot hf
  have hother : (u.lanes.get l.other).complete = ((s.at cyc).lanes.get l.other).complete := by
    rw [hlanes', Mach.onLane, Two.get_set_other _ _ (by cases l <;> decide)]
  have hdisputes := Mach.compares_disputes u l c (m₀ := s.at cyc) hother
    (congrArg (Word.bits · 5 4) (hlifts.stamp _ (by decide)))
  obtain ⟨t, ht, hm, hmem, hregs, hev⟩ := runMem_tells (s := s) (cyc := cyc) (f := fun m mem => m.checkpointComplete mem l true) hf
    (hlifts.compares _ _)
  have htl : ∀ {β : Type} (P : LaneState → β), (∀ (y : LaneState) c, P { y with ckptSpoilt := c } = P y) →
      P (t.m.lanes.get l) = P { s.m.lanes.get l with copying := none, complete := some c } := fun P hP => by
    rw [hm, Mach.settle_lanes, Mach.compares_keeps u l c P hP, hlanes', Mach.onLane, Two.get_set_self]
    rfl
  refine ⟨t, ht, htl LaneState.copying fun _ _ => rfl, htl LaneState.complete fun _ _ => rfl,
    htl LaneState.usable fun _ _ => rfl, ⟨hmem, fun b hb => ?_⟩, ?_, fun k => ?_, hev, hregs⟩
  · rw [hmem]
    exact Memory.read_writeL_other hwf _ hb
  · rw [hm, Mach.settle_lane, hdisputes, hlane']
    rfl
  · rw [hm, Mach.lawSlot, Mach.settle_law, Mach.compares_law, ← Mach.lawSlot, hslot, LawSlot.lifted_sealLeft]

theorem exec_checkpointComplete_failed (l : Lane) (c : Checkpoint) (hc : (s.m.lanes.get l).copying = some c) :
    ∃ t, exec (.checkpointComplete cyc l false) s = .next t ∧ (t.m.lanes.get l).copying = none ∧ t.m.admitted l = false ∧
      (t.m.lanes.get l).complete = (s.m.lanes.get l).complete ∧
      Raises s t [eventAt (s.at cyc) 0x3002 2 0xFF [7] l.origin] ∧ SameMemory s t ∧
      SameRegsBut s t (Reg.LANE_CKSTAT :: laneFaultRegs l) := by
  have hcopy : (s.at cyc).FocTells (Reg.LANE_CKSTAT :: laneFaultRegs l) []
      ((s.at cyc).onLane l fun x => { x with copying := none }).showCheckpoint :=
    ((Mach.FocTells.refl (s.at cyc) _).onLane l _).showCheckpoint List.mem_cons_self
  have hlanes := Mach.showCheckpoint_lanes ((s.at cyc).onLane l fun x => { x with copying := none })
  have hf : (s.at cyc).checkpointComplete s.mem l false = _ :=
    (s.at cyc).checkpointComplete_failed l c hc s.mem
  generalize ((s.at cyc).onLane l fun x => { x with copying := none }).showCheckpoint = w at hcopy hlanes hf
  obtain ⟨t, ht, hm, hregs, hmem, hev⟩ := runMem_makes (s := s) (cyc := cyc) (f := fun m mem => m.checkpointComplete mem l false) hf
    (hcopy.laneFault (List.subset_cons_self ..) 7)
  have htl : ∀ {β : Type} (P : LaneState → β), (∀ (y : LaneState) h f c, P { y with hwNow := h, f2 := f, ckptSpoilt := c } = P y) →
      P (t.m.lanes.get l) = P { s.m.lanes.get l with copying := none } := fun P hP => by
    rw [hm, Mach.settle_lanes, Mach.laneFault_keeps w l l 7 P hP, hlanes, Mach.onLane, Two.get_set_self]
    rfl
  refine ⟨t, ht, htl LaneState.copying fun _ _ _ _ => rfl, ?_, htl LaneState.complete fun _ _ _ _ => rfl, hev, hmem, hregs⟩
  rw [hm, Mach.settle_admitted, Mach.laneFault_admitted]

theorem exec_checkpointComplete_none (l : Lane) (ok : Bool) (hc : (s.m.lanes.get l).copying = none) :
    ∃ t, exec (.checkpointComplete cyc l ok) s = .next t ∧ t.m.lanes = s.m.lanes ∧ Quiet s t [] := by
  obtain ⟨t, ht, hm, hquiet⟩ := runMem_idle (s := s) (cyc := cyc) (f := fun m mem => m.checkpointComplete mem l ok)
    ((s.at cyc).checkpointComplete_none l hc s.mem ok)
  exact ⟨t, ht, by rw [hm, Mach.settle_lanes]; rfl, hquiet⟩

/-! ### The statement -/

/-- Settles O34: two units meet, an entry finds its place, inbox and journal give their words, and a copy of a lane's state ends. -/
theorem inputsAndCheckpoints : Obligations.InputsAndCheckpoints := by
  unfold Obligations.InputsAndCheckpoints
  refine ⟨fun cyc i s ha hb hroom hi => exec_asyncInputArrival_equal i ha hb hroom hi,
    fun cyc i s ha hb hfull => ⟨fun he hn => exec_asyncInputArrival_deferred i ha hb hfull he hn,
      fun hn => exec_asyncInputArrival_dropped i ha hb hfull hn⟩,
    fun cyc i j s ha hb hne => exec_asyncInputArrival_differ i j ha hb hne,
    fun cyc i j l s ha hb hroom hi hj => exec_asyncInputArrival_bad i j l ha hb hroom hi hj,
    fun cyc i j l bad s ho hl hroom hi hj => exec_asyncInputArrival_alone i j l bad ho hl hroom hi hj,
    fun cyc l s => ⟨exec_inboxRead l, exec_inboxRead_bad l⟩,
    fun cyc l s hl => ⟨exec_journalRead, exec_journalRead_bad l hl⟩,
    fun cyc l s hlive hrun hcpi hdue => exec_checkpointStart l ⟨hlive, hrun, hcpi, hdue⟩,
    fun cyc l s hno => exec_checkpointStart_rests l fun ⟨hlive, hrun, hcpi, hdue⟩ => ?_,
    fun cyc l s c hwf hc => exec_checkpointComplete l c hwf hc,
    fun cyc l s c hc => exec_checkpointComplete_failed l c hc,
    fun cyc l ok s hc => exec_checkpointComplete_none l ok hc⟩
  simp [hlive, hrun, hcpi, hdue] at hno

end Sys2Proof.Machine
end

section
/-! A lane takes a state, and its reset (R296 to R299, R322). -/

namespace Sys2Proof.Machine

/-! ### A machine beside its registers -/

/-- A machine beside its registers. -/
def Mach.bare (m : Mach) : Mach := { m with regs := [], setNow := [] }

section
variable (m : Mach) (l : Lane)

theorem Mach.bare_wr (a : Nat) (w : Word) : (m.wr a w).bare = m.bare := rfl

theorem Mach.bare_setFld (a hi lo v : Nat) : (m.setFld a hi lo v).bare = m.bare := rfl

theorem Mach.bare_laneIrq (b : Nat) : (m.laneIrq b).bare = m.bare := rfl

theorem Mach.bare_setLaneCode (c : Nat) : (m.setLaneCode l c).bare = m.bare := by cases l <;> rfl

theorem Mach.bare_setRoles : m.setRoles.bare = m.bare := rfl

theorem Mach.bare_setDegraded : m.setDegraded.bare = m.bare := rfl

theorem Mach.bare_showCheckpoint : m.showCheckpoint.bare = m.bare := by
  unfold Mach.showCheckpoint
  dsimp only
  split <;> rfl

theorem Mach.bare_showHold : m.showHold.bare = m.bare := rfl

theorem Mach.bare_toState (c : Nat) : (m.toState l c).bare = m.bare := by
  rw [Mach.toState, Mach.bare_showCheckpoint, Mach.bare_setDegraded, Mach.bare_setRoles, Mach.bare_setLaneCode]

variable {m} {m' : Mach} (h : m'.bare = m.bare)
include h

theorem Mach.lanes_of_bare : m'.lanes = m.lanes := (congrArg Mach.lanes h).trans rfl

theorem Mach.lane_of_bare : m'.lane = m.lane := (congrArg Mach.lane h).trans rfl

theorem Mach.time_of_bare : m'.time = m.time := (congrArg Mach.time h).trans rfl

theorem Mach.tick_of_bare : m'.tick = m.tick := (congrArg Mach.tick h).trans rfl

theorem Mach.image_of_bare : m'.image = m.image := (congrArg Mach.image h).trans rfl

theorem Mach.sys_of_bare : m'.sys = m.sys := (congrArg Mach.sys h).trans rfl

theorem Mach.chg_of_bare : m'.chg = m.chg := (congrArg Mach.chg h).trans rfl

theorem Mach.law_of_bare : m'.law = m.law := (congrArg Mach.law h).trans rfl

theorem Mach.foc_of_bare : m'.foc = m.foc := (congrArg Mach.foc h).trans rfl

theorem Mach.mod_of_bare : m'.mod = m.mod := (congrArg Mach.mod h).trans rfl
end

/-! ### A lane state taken -/

section
variable (m : Mach) (l : Lane)

theorem Mach.setDegraded_rd_other {b : Nat} (hm : b ≠ Reg.SYS_MODE_STAT) (hs : b ≠ Reg.LANE_STATUS) : m.setDegraded.rd b = m.rd b := by
  unfold Mach.setDegraded
  dsimp only
  rw [Mach.rd_setBit, if_neg hs, Mach.rd_setBit, if_neg hm]

/-- DEGRADED is no lane's code. -/
theorem Mach.laneCode_setDegraded (x : Lane) : m.setDegraded.laneCode x = m.laneCode x := by
  unfold Mach.setDegraded
  dsimp only
  cases x
  · exact (Mach.fld_setBit_other _ _ (by decide) (by decide) (by decide)).trans
      (Mach.fld_setBit_other m _ (by decide) (by decide) (by decide))
  · exact (Mach.fld_setBit_other _ _ (by decide) (by decide) (by decide)).trans
      (Mach.fld_setBit_other m _ (by decide) (by decide) (by decide))

/-- The registers that a lane state taken writes. -/
abbrev stateRegs (l : Lane) : List Nat := [Reg.LANE_STATUS, Reg.LANE_CKSTAT, Reg.SYS_MODE_STAT, healthReg l]

theorem Mach.toState_rd_other (c : Nat) {b : Nat} (h : b ∉ stateRegs l) : (m.toState l c).rd b = m.rd b := by
  simp only [stateRegs, List.mem_cons, List.not_mem_nil, or_false, not_or] at h
  obtain ⟨hs, hck, hmode, hh⟩ := h
  rw [Mach.toState, Mach.showCheckpoint_rd_other _ hck, Mach.setDegraded_rd_other _ hmode hs, Mach.rd_setRoles_other _ hs,
    Mach.rd_setLaneCode_other _ _ _ hs hh]

theorem Mach.laneCode_toState_eq (c : Nat) (x : Lane) : (m.toState l c).laneCode x = (m.setLaneCode l c).laneCode x := by
  rw [Mach.toState, Mach.laneCode_congr (Mach.showCheckpoint_rd_other _ (by decide)), Mach.laneCode_setDegraded, Mach.laneCode_setRoles]

theorem Mach.laneCode_toState {c : Nat} (hc : c < 8) : (m.toState l c).laneCode l = c :=
  (m.laneCode_toState_eq l c l).trans (m.laneCode_setLaneCode l hc)

theorem Mach.laneCode_toState_other (c : Nat) : (m.toState l c).laneCode l.other = m.laneCode l.other :=
  (m.laneCode_toState_eq l c l.other).trans (m.laneCode_setLaneCode_other l c)

theorem Mach.lanes_toState (c : Nat) : (m.toState l c).lanes = m.lanes := Mach.lanes_of_bare (m.bare_toState l c)
end

/-! ### What a lane's part of the work tells -/

/-- The registers that the clock reads. -/
abbrev clockRegs : List Nat := [Reg.TICK_SEQ_LO, Reg.TICK_SEQ_HI, Reg.TICK_PERIOD, Reg.TICK_DEADLINE]

/-- `m'` has told `es` more than `m`, at the same clock. -/
structure Mach.Says (m : Mach) (es : List Event) (m' : Mach) : Prop where
  now : m'.time.t = m.time.t
  cyc : m'.time.cyc = m.time.cyc
  running : m'.tick.running = m.tick.running
  clock : ∀ b ∈ clockRegs, m'.rd b = m.rd b
  raised : m'.time.raised = m.time.raised ++ es

section
variable (m : Mach)

theorem Mach.Says.refl : m.Says [] m := ⟨rfl, rfl, rfl, fun _ _ => rfl, (List.append_nil _).symm⟩

variable {m} {m₁ : Mach} {es : List Event} (h : m.Says es m₁)
include h

theorem Mach.Says.trans {m₂ : Mach} {es' : List Event} (h' : m₁.Says es' m₂) : m.Says (es ++ es') m₂ where
  now := h'.now.trans h.now
  cyc := h'.cyc.trans h.cyc
  running := h'.running.trans h.running
  clock b hb := (h'.clock b hb).trans (h.clock b hb)
  raised := by rw [h'.raised, h.raised, List.append_assoc]

/-- A change of registers other than the clock's. -/
theorem Mach.Says.regs {m₂ : Mach} (hbare : m₂.bare = m₁.bare) (hrd : ∀ b ∈ clockRegs, m₂.rd b = m₁.rd b) : m.Says es m₂ where
  now := (congrArg TimeState.t (Mach.time_of_bare hbare)).trans h.now
  cyc := (congrArg TimeState.cyc (Mach.time_of_bare hbare)).trans h.cyc
  running := (congrArg TickState.running (Mach.tick_of_bare hbare)).trans h.running
  clock b hb := (hrd b hb).trans (h.clock b hb)
  raised := (congrArg TimeState.raised (Mach.time_of_bare hbare)).trans h.raised

/-- A change beside the clock, what is told and the registers. -/
theorem Mach.Says.beside {m₂ : Mach} (htime : m₂.time = m₁.time) (hrun : m₂.tick.running = m₁.tick.running) (hrd : ∀ b, m₂.rd b = m₁.rd b) :
    m.Says es m₂ where
  now := (congrArg TimeState.t htime).trans h.now
  cyc := (congrArg TimeState.cyc htime).trans h.cyc
  running := hrun.trans h.running
  clock b hb := (hrd b).trans (h.clock b hb)
  raised := (congrArg TimeState.raised htime).trans h.raised

theorem Mach.Says.seq_eq : m₁.seq = m.seq := by
  rw [Mach.seq, Mach.seq, Mach.rd64, Mach.rd64, h.clock _ (by decide), h.clock _ (by decide)]

theorem Mach.Says.tickNow_eq : m₁.tickNow = m.tickNow := by
  have hperiod : m₁.period = m.period := by
    unfold Mach.period Mach.fld
    rw [h.clock _ (by decide)]
  rw [Mach.tickNow, Mach.tickNow, h.seq_eq, h.running, h.cyc, hperiod]

theorem Mach.Says.eventAt_eq {o : Nat} (ho : m₁.replayed o = m.replayed o) (code cls slot : Nat) (d : List Nat) :
    eventAt m₁ code cls slot d o = eventAt m code cls slot d o := by
  rw [eventAt, eventAt, Mach.now, Mach.now, h.now, h.tickNow_eq, ho]

theorem Mach.Says.raise {o : Nat} (ho : m₁.replayed o = m.replayed o) (code cls slot : Nat) (d : List Nat) :
    m.Says (es ++ [eventAt m code cls slot d o]) (m₁.raise code cls slot d o) where
  now := h.now
  cyc := h.cyc
  running := h.running
  clock := h.clock
  raised := by
    rw [← h.eventAt_eq ho, ← List.append_assoc, ← h.raised]
    rfl

theorem Mach.Says.wr {a : Nat} (ha : a ∉ clockRegs) (w : Word) : m.Says es (m₁.wr a w) :=
  h.regs rfl fun _ hb => Mach.rd_wr_other _ _ fun hba => ha (hba ▸ hb)

theorem Mach.Says.orr {a : Nat} (ha : a ∉ clockRegs) (mask : Nat) : m.Says es (m₁.orr a mask) :=
  h.regs rfl fun b hb => by
    have hne : b ≠ a := fun hba => ha (hba ▸ hb)
    rw [Mach.rd_orr, if_neg hne]

theorem Mach.Says.laneIrq (b : Nat) : m.Says es (m₁.laneIrq b) := (h.orr (by decide) _).orr (by decide) _

theorem Mach.Says.onLane (l : Lane) (f : LaneState → LaneState) : m.Says es (m₁.onLane l f) := h.beside rfl rfl fun _ => rfl

theorem Mach.Says.onLanes (f : Lane → LaneState → LaneState) : m.Says es (m₁.onLanes f) := h.beside rfl rfl fun _ => rfl

theorem Mach.Says.onLb (f : LaneBlock → LaneBlock) : m.Says es (m₁.onLb f) := h.beside rfl rfl fun _ => rfl

theorem Mach.Says.toState (l : Lane) (c : Nat) : m.Says es (m₁.toState l c) :=
  h.regs (m₁.bare_toState l c) fun b hb => m₁.toState_rd_other l c fun hb' => by
    revert b
    cases l <;> decide
end

/-! ### The lane's engines after its reset -/

/-- A register of the DMA and of the check-value units. -/
abbrev engineReg (b : Nat) : Prop := 0xD0000 ≤ b ∧ b < 0xF0000

/-- No more than registers of the engines has changed. -/
structure Mach.EnginesOnly (m m' : Mach) : Prop where
  bare : m'.bare = m.bare
  rd : ∀ b, ¬engineReg b → m'.rd b = m.rd b

section
variable (m : Mach) (l : Lane)

theorem Mach.EnginesOnly.refl : m.EnginesOnly m := ⟨rfl, fun _ _ => rfl⟩

variable {m} in
theorem Mach.EnginesOnly.wr {m₁ : Mach} (h : m.EnginesOnly m₁) {a : Nat} (ha : engineReg a) (w : Word) : m.EnginesOnly (m₁.wr a w) :=
  ⟨(m₁.bare_wr a w).trans h.bare, fun b hb => (Mach.rd_wr_other _ _ (by rintro rfl; exact hb ha)).trans (h.rd b hb)⟩

theorem ringReg_engine {r : Nat} (hr : r < 16) : engineReg (Reg.DMA_R_CFG l.ix r) ∧ engineReg (Reg.DMA_R_STAT l.ix r) ∧
    engineReg (Reg.DMA_L_STATUS l.ix) ∧ engineReg (Reg.DMA_L_FSTAT l.ix) := by
  unfold Reg.DMA_R_CFG Reg.DMA_R_STAT Reg.DMA_L_STATUS Reg.DMA_L_FSTAT engineReg
  cases l <;> simp only [Lane.ix] <;> omega

theorem unitReg_engine : ∀ u < 4, ∀ a ∈ unitRegs l u, engineReg a := by
  cases l <;> decide

variable {m l} in
theorem Mach.EnginesOnly.ringReset {m₁ : Mach} (h : m.EnginesOnly m₁) {r : Nat} (hr : r < 16) :
    m.EnginesOnly (((m₁.setBit (Reg.DMA_R_CFG l.ix r) 0 false).setRing l r 0).dmaShow l r) := by
  obtain ⟨hcfg, hstat, hlane, hfaults⟩ := ringReg_engine l hr
  unfold Mach.dmaShow
  dsimp only
  exact (((((((h.wr hcfg _).wr hstat _).wr hstat _).wr hstat _).wr hlane _).wr hlane _).wr hfaults _)

variable {m l} in
theorem Mach.EnginesOnly.unitReset {m₁ : Mach} (h : m.EnginesOnly m₁) {u : Nat} (hu : u < 4) :
    m.EnginesOnly (((((m₁.wrN (Reg.CRC_U_STAT l.ix u) 0).wrN (Reg.CRC_U_POS l.ix u) 0).wrN (Reg.CRC_U_VAL_LO l.ix u) 0).wrN
      (Reg.CRC_U_VAL_HI l.ix u) 0).showResult l u) := by
  have hreg : ∀ {a : Nat}, a ∈ unitRegs l u → engineReg a := unitReg_engine l u hu _
  exact (((((h.wr (hreg (by simp [unitRegs])) _).wr (hreg (by simp [unitRegs])) _).wr (hreg (by simp [unitRegs])) _).wr
    (hreg (by simp [unitRegs])) _).wr (hreg (by simp [unitRegs])) _).wr (hreg (by simp [unitRegs])) _

/-- A lane's engines fresh, but for their registers. -/
def Mach.enginesFresh (m : Mach) (l : Lane) : Mach :=
  ((m.onDmaLane l fun _ => DmaLane.fresh).onDma fun d =>
    { d with acc := d.acc.filter fun x => x.lane != l, port5 := d.port5.filter fun x => x.lane != l }).onOffers
    fun x => x.filter fun o => o.lane != l

theorem Mach.dmaLaneReset_only : (m.enginesFresh l).EnginesOnly (m.dmaLaneReset l) := by
  unfold Mach.dmaLaneReset
  extract_lets m₁ m₂ m₃ m₄
  have hrings : (m.enginesFresh l).EnginesOnly m₄ :=
    forL_induct (P := (m.enginesFresh l).EnginesOnly) (fun r hr _ h => h.ringReset (List.mem_range.1 hr)) (.refl _)
  exact forL_induct (P := (m.enginesFresh l).EnginesOnly) (fun u hu _ h => h.unitReset (List.mem_range.1 hu)) hrings
end

/-! ### The reset of a lane -/

/-- A register that the reset of a lane leaves as it is. -/
def keptByReset (l : Lane) (b : Nat) : Bool :=
  !laneBlockReg l b && !(laneOwnRegs l).contains b && !([Reg.LANE_JRN_ADDR, Reg.LANE_CKSTAT].contains b) && decide (¬engineReg b)

theorem keptByReset_spec {l : Lane} {b : Nat} (h : keptByReset l b = true) :
    laneBlockReg l b = false ∧ b ∉ laneOwnRegs l ∧ ¬engineReg b := by
  simp only [keptByReset, Bool.and_eq_true, Bool.not_eq_true', decide_eq_true_eq] at h
  obtain ⟨⟨⟨hblock, hown⟩, -⟩, hengine⟩ := h
  exact ⟨hblock, fun hb => absurd (List.contains_iff_mem.2 hb) (Bool.eq_false_iff.1 hown), hengine⟩

/-- The registers of a lane's reset, beside its own and those of the engines. -/
theorem resetReg_not_kept (l : Lane) : keptByReset l Reg.LANE_JRN_ADDR = false ∧ keptByReset l Reg.LANE_CKSTAT = false ∧
    keptByReset l (Reg.LAW_INJ_STAT l.ix) = false ∧ keptByReset l (Reg.LAW_IRQ_STAT l.ix) = false := by
  cases l <;> decide

/-- Of `m` the work on lane `l` has made `m'`: `es` were told at the same clock, no register changed but those that a reset of the lane
may change, and supplies, image, charger and slots stand. -/
structure Mach.Resets (l : Lane) (es : List Event) (m m' : Mach) : Prop where
  now : m'.time.t = m.time.t
  cyc : m'.time.cyc = m.time.cyc
  running : m'.tick.running = m.tick.running
  raised : m'.time.raised = m.time.raised ++ es
  sys : m'.sys = m.sys
  image : m'.image = m.image
  chg : m'.chg = m.chg
  slots : m'.lane.slots = m.lane.slots
  pend : m'.lane.pendRestart = m.lane.pendRestart
  handover : m'.lane.handover = m.lane.handover
  rd : ∀ b, keptByReset l b = true → m'.rd b = m.rd b

section
variable (m : Mach) (l : Lane)

theorem Mach.Resets.refl : m.Resets l [] m :=
  ⟨rfl, rfl, rfl, (List.append_nil _).symm, rfl, rfl, rfl, rfl, rfl, rfl, fun _ _ => rfl⟩

variable {m l} {m₁ m₂ : Mach} {es : List Event}

theorem Mach.Resets.trans {es' : List Event} (h : m.Resets l es m₁) (h' : m₁.Resets l es' m₂) : m.Resets l (es ++ es') m₂ where
  now := h'.now.trans h.now
  cyc := h'.cyc.trans h.cyc
  running := h'.running.trans h.running
  raised := by rw [h'.raised, h.raised, List.append_assoc]
  sys := h'.sys.trans h.sys
  image := h'.image.trans h.image
  chg := h'.chg.trans h.chg
  slots := h'.slots.trans h.slots
  pend := h'.pend.trans h.pend
  handover := h'.handover.trans h.handover
  rd b hb := (h'.rd b hb).trans (h.rd b hb)

/-- A stage that tells nothing. -/
theorem Mach.Resets.quietly (h : m.Resets l es m₁) (h' : m₁.Resets l [] m₂) : m.Resets l es m₂ := by
  have := h.trans h'
  rwa [List.append_nil] at this

theorem Mach.Resets.wr {a : Nat} (ha : keptByReset l a = false) (w : Word) : m.Resets l [] (m.wr a w) where
  now := rfl
  cyc := rfl
  running := rfl
  raised := (List.append_nil _).symm
  sys := rfl
  image := rfl
  chg := rfl
  slots := rfl
  pend := rfl
  handover := rfl
  rd b hb := Mach.rd_wr_other m w fun hba => by rw [hba, ha] at hb; cases hb

theorem Mach.Resets.orr {a : Nat} (ha : keptByReset l a = false) (v : Nat) : m.Resets l [] (m.orr a v) :=
  ⟨rfl, rfl, rfl, (List.append_nil _).symm, rfl, rfl, rfl, rfl, rfl, rfl,
    fun b hb => (Mach.rd_orr ..).trans (if_neg fun hba => by rw [hba, ha] at hb; cases hb)⟩
end

section
variable (m : Mach) (l : Lane)

/-- A lane's own part after its reset. -/
def LaneState.reset (s : LaneState) (now : Nat) : LaneState :=
  { s with f2 := false, writeList := [], inbox := [], msgs := [], copying := none, complete := none, kickAt := now }

/-- A lane whose injection the reset has ended. -/
def Mach.resetInjected (m : Mach) (l : Lane) : Mach := if m.injState l ≠ 0 then m.injEnd l 7 else m

/-- A lane without its registers and snapshots. -/
def Mach.resetCleared (m : Mach) (l : Lane) : Mach :=
  { m with
    regs := m.regs.filter fun c => !(laneResets l c.1 || (laneOwnRegs l).contains c.1)
    snaps := m.snaps.filter fun s => s.1 != l.ix }

/-- The end of an injection shown. -/
def Mach.resetShown (m : Mach) (l : Lane) (ended : Bool) : Mach := if ended then m.setFld (Reg.LAW_INJ_STAT l.ix) 25 22 7 else m

/-- A lane's laws, motors and modulators fresh. -/
def Mach.resetLaws (m : Mach) (l : Lane) : Mach :=
  let m := m.onLaw l fun x => { LawLane.fresh x.words with
    slots := (List.range 16).map fun k => { LawSlot.fresh with states := List.replicate (m.cascade l k).2 (0, 0) } }
  { m with foc := m.foc.set l (List.replicate 2 FocMotor.fresh), mod := m.mod.set l (List.replicate 16 ModSlot.fresh) }

/-- A lane's processor, interrupts and own part fresh. -/
def Mach.resetOwn (m : Mach) (l : Lane) : Mach :=
  ((m.onTick l fun _ => m.laneStart l).onPlic l fun _ => Plic.fresh).onLane l fun s => s.reset m.now

/-- The journal's address of a lane cleared. -/
def Mach.resetJournal (m : Mach) (l : Lane) : Mach := if m.fld Reg.LANE_JRN_ADDR 31 31 = l.ix then m.wrN Reg.LANE_JRN_ADDR 0 else m

/-- A lane's frames and messages on their way gone. -/
def Mach.resetSent (m : Mach) (l : Lane) : Mach :=
  (m.onLb fun b => { b with inFlight := b.inFlight.filter fun f => f.1 != l }).onNet
    fun n => { n with copies := n.copies.filter fun c => c.1 != l, held := n.held.filter fun h => h.lane != l }

/-- The copy under way shown. -/
def Mach.resetCopy (m : Mach) : Mach := m.setBit Reg.LANE_CKSTAT 5 (m.lanes.get m.service).copying.isSome

theorem Mach.laneReset_eq : m.laneReset l =
    ((((((((m.resetInjected l).resetCleared l).resetShown l (decide (m.injState l ≠ 0))).resetLaws l).resetOwn l).resetJournal
      l).resetSent l).resetCopy).dmaLaneReset l := by
  unfold Mach.laneReset Mach.resetInjected
  by_cases h : m.injState l ≠ 0
  · simp only [decide_eq_true h, if_true, if_pos h]
    rfl
  · simp only [decide_eq_false h, if_neg h]
    rfl

/-! Each stage by what it keeps. -/

theorem Mach.Resets.tells (code cls slot : Nat) (d : List Nat) (o : Nat) :
    m.Resets l [eventAt m code cls slot d o] (m.raise code cls slot d o) :=
  ⟨rfl, rfl, rfl, rfl, rfl, rfl, rfl, rfl, rfl, rfl, fun _ _ => rfl⟩

theorem Mach.Resets.onInj (f : Injector → Injector) : m.Resets l [] (m.onInj l f) :=
  ⟨rfl, rfl, rfl, (List.append_nil _).symm, rfl, rfl, rfl, rfl, rfl, rfl, fun _ _ => rfl⟩

theorem Mach.Resets.cleared : m.Resets l [] (m.resetCleared l) := by
  refine ⟨rfl, rfl, rfl, (List.append_nil _).symm, rfl, rfl, rfl, rfl, rfl, rfl, fun b hb => ?_⟩
  obtain ⟨hblock, hown, -⟩ := keptByReset_spec hb
  have hkept : !(laneResets l b || (laneOwnRegs l).contains b) := by
    rw [laneResets, hblock, Bool.false_and, Bool.false_or, Bool.not_eq_true', ← Bool.not_eq_true, List.contains_iff_mem]
    exact hown
  exact congrArg (fun o => o.getD (regReset m.variant b))
    (Cells.get_filter m.regs (p := fun c => !(laneResets l c.1 || (laneOwnRegs l).contains c.1)) fun _ => hkept)

theorem Mach.Resets.laws : m.Resets l [] (m.resetLaws l) :=
  ⟨rfl, rfl, rfl, (List.append_nil _).symm, rfl, rfl, rfl, rfl, rfl, rfl, fun _ _ => rfl⟩

theorem Mach.Resets.own : m.Resets l [] (m.resetOwn l) :=
  ⟨rfl, rfl, rfl, (List.append_nil _).symm, rfl, rfl, rfl, rfl, rfl, rfl, fun _ _ => rfl⟩

theorem Mach.Resets.sent : m.Resets l [] (m.resetSent l) :=
  ⟨rfl, rfl, rfl, (List.append_nil _).symm, rfl, rfl, rfl, rfl, rfl, rfl, fun _ _ => rfl⟩

theorem Mach.Resets.copy : m.Resets l [] m.resetCopy := .wr (resetReg_not_kept l).2.1 _

theorem Mach.Resets.shown (ended : Bool) : m.Resets l [] (m.resetShown l ended) := by
  cases ended
  · exact .refl m l
  · exact .wr (resetReg_not_kept l).2.2.1 _

theorem Mach.Resets.journal : m.Resets l [] (m.resetJournal l) := by
  unfold Mach.resetJournal
  split
  · exact .wr (resetReg_not_kept l).1 _
  · exact .refl m l

theorem Mach.Resets.fresh : m.Resets l [] (m.enginesFresh l) :=
  ⟨rfl, rfl, rfl, (List.append_nil _).symm, rfl, rfl, rfl, rfl, rfl, rfl, fun _ _ => rfl⟩

variable {m l} in
theorem Mach.Resets.engines {m₁ : Mach} (h : m.EnginesOnly m₁) : m.Resets l [] m₁ where
  now := congrArg TimeState.t (Mach.time_of_bare h.bare)
  cyc := congrArg TimeState.cyc (Mach.time_of_bare h.bare)
  running := congrArg TickState.running (Mach.tick_of_bare h.bare)
  raised := (congrArg TimeState.raised (Mach.time_of_bare h.bare)).trans (List.append_nil _).symm
  sys := Mach.sys_of_bare h.bare
  image := Mach.image_of_bare h.bare
  chg := Mach.chg_of_bare h.bare
  slots := congrArg LaneBlock.slots (Mach.lane_of_bare h.bare)
  pend := congrArg LaneBlock.pendRestart (Mach.lane_of_bare h.bare)
  handover := congrArg LaneBlock.handover (Mach.lane_of_bare h.bare)
  rd b hb := h.rd b (keptByReset_spec hb).2.2

/-- What the reset of a lane tells: the end of its injection (R126). -/
def Mach.resetTold (m : Mach) (l : Lane) : List Event :=
  if m.injState l = 0 then [] else [eventAt m 0x1006 0 (m.injSlot l) [7] l.origin]

/-- The work of a lane's reset keeps the clock and the states of the lanes. -/
theorem clock_kept : ∀ b ∈ [Reg.TICK_SEQ_LO, Reg.TICK_SEQ_HI, Reg.TICK_PERIOD, Reg.TICK_DEADLINE, Reg.LANE_STATUS],
    keptByReset l b = true := by
  cases l <;> decide

variable {m l} in
theorem Mach.Resets.eventAt_eq {m₁ : Mach} {es : List Event} (h : m.Resets l es m₁) (code cls slot : Nat) (d : List Nat) (o : Nat) :
    eventAt m₁ code cls slot d o = eventAt m code cls slot d o := by
  have hrd := fun b hb => h.rd b (clock_kept l b hb)
  simp only [List.forall_mem_cons] at hrd
  obtain ⟨hlo, hhi, hperiod, -, hst, -⟩ := hrd
  have htick : m₁.tickNow = m.tickNow := by
    simp only [Mach.tickNow, Mach.seq, Mach.rd64, Mach.period, Mach.fld, hlo, hhi, hperiod, h.running, h.cyc]
  have hreplayed : m₁.replayed o = m.replayed o := by
    simp only [Mach.replayed, Mach.laneCode_congr hst]
  rw [eventAt, eventAt, htick, hreplayed, Mach.now, Mach.now, h.now]

theorem Mach.Resets.injRested (c : Nat) : m.Resets l [] (m.injRested l c) := by
  have hinj := (resetReg_not_kept l).2.2.1
  exact ((Mach.Resets.wr hinj _).quietly (.wr hinj _)).quietly (.onInj _ l _)

theorem Mach.injRested_injSlot (c : Nat) : (m.injRested l c).injSlot l = m.injSlot l := by
  rw [← m.injShown_slot l 0 c, Mach.injSlot, Mach.fld, Mach.injRested_rd, Mach.injSlot, Mach.fld]

theorem Mach.Resets.injEnd (c : Nat) : m.Resets l [eventAt m 0x1006 0 (m.injSlot l) [c] l.origin] (m.injEnd l c) := by
  have hstops := Mach.Resets.injRested m l c
  have hslot := m.injRested_injSlot l c
  rw [Mach.injEnd_eq]
  generalize m.injRested l c = x at hstops hslot
  rw [hslot, ← hstops.eventAt_eq]
  exact (hstops.trans (.tells x l ..)).quietly (.orr (resetReg_not_kept l).2.2.2 _)

theorem Mach.Resets.injected : m.Resets l (m.resetTold l) (m.resetInjected l) := by
  unfold Mach.resetTold Mach.resetInjected
  by_cases h : m.injState l = 0
  · rw [if_pos h, if_neg (not_not.2 h)]
    exact .refl m l
  · rw [if_neg h, if_pos h]
    exact .injEnd m l 7

theorem Mach.Resets.laneReset : m.Resets l (m.resetTold l) (m.laneReset l) := by
  rw [Mach.laneReset_eq]
  have h₁ := (Mach.Resets.injected m l).quietly (.cleared _ l)
  have h₂ := (h₁.quietly (.shown _ l (decide (m.injState l ≠ 0)))).quietly (.laws _ l)
  have h₃ := ((h₂.quietly (.own _ l)).quietly (.journal _ l)).quietly (.sent _ l)
  exact ((h₃.quietly (.copy _ l)).quietly (.fresh _ l)).quietly (.engines (Mach.dmaLaneReset_only _ l))

/-! The lanes' own parts. -/

theorem Mach.injEnd_lanes (c : Nat) : (m.injEnd l c).lanes = m.lanes := rfl

theorem Mach.resetInjected_lanes : (m.resetInjected l).lanes = m.lanes := by
  unfold Mach.resetInjected
  split
  · exact m.injEnd_lanes l 7
  · rfl

theorem Mach.resetShown_lanes (e : Bool) : (m.resetShown l e).lanes = m.lanes := by
  cases e <;> rfl

theorem Mach.resetJournal_lanes : (m.resetJournal l).lanes = m.lanes := by
  unfold Mach.resetJournal
  split <;> rfl

theorem Mach.resetOwn_lanes : (m.resetOwn l).lanes = m.lanes.set l ((m.lanes.get l).reset m.now) := rfl

theorem Mach.dmaLaneReset_lanes : (m.dmaLaneReset l).lanes = m.lanes :=
  (Mach.lanes_of_bare (m.dmaLaneReset_only l).bare).trans rfl

theorem Mach.resetLaws_lanes : (m.resetLaws l).lanes = m.lanes := rfl

theorem Mach.resetCleared_lanes : (m.resetCleared l).lanes = m.lanes := rfl

theorem Mach.resetCopy_lanes : m.resetCopy.lanes = m.lanes := rfl

theorem Mach.resetSent_lanes : (m.resetSent l).lanes = m.lanes := rfl

/-- The reset of a lane leaves of its part what `LaneState.reset` does, and the other's as it is. -/
theorem Mach.laneReset_lanes : (m.laneReset l).lanes = m.lanes.set l ((m.lanes.get l).reset m.now) := by
  have hnow : ((((m.resetInjected l).resetCleared l).resetShown l (decide (m.injState l ≠ 0))).resetLaws l).now = m.now :=
    ((((Mach.Resets.injected m l).quietly (.cleared _ l)).quietly (.shown _ l _)).quietly (.laws _ l)).now
  rw [Mach.laneReset_eq, Mach.dmaLaneReset_lanes, Mach.resetCopy_lanes, Mach.resetSent_lanes, Mach.resetJournal_lanes,
    Mach.resetOwn_lanes, hnow, Mach.resetLaws_lanes, Mach.resetShown_lanes, Mach.resetCleared_lanes, Mach.resetInjected_lanes]
end

end Sys2Proof.Machine
end

section
/-! A lane reset into a state, faults counted, and the hold shown (R297 to R299, R322 to R326, R334). -/

namespace Sys2Proof.Machine

/-! ### What stands beside a lane -/

/-- Supplies, image, charger, slots and what waits for a boundary stand. -/
structure Mach.Beside (m m' : Mach) : Prop where
  sys : m'.sys = m.sys
  image : m'.image = m.image
  chg : m'.chg = m.chg
  slots : m'.lane.slots = m.lane.slots
  pend : m'.lane.pendRestart = m.lane.pendRestart
  handover : m'.lane.handover = m.lane.handover

theorem Mach.Beside.refl (m : Mach) : m.Beside m := ⟨rfl, rfl, rfl, rfl, rfl, rfl⟩

theorem Mach.Beside.trans {m m₁ m₂ : Mach} (h : m.Beside m₁) (h' : m₁.Beside m₂) : m.Beside m₂ :=
  ⟨h'.sys.trans h.sys, h'.image.trans h.image, h'.chg.trans h.chg, h'.slots.trans h.slots, h'.pend.trans h.pend,
    h'.handover.trans h.handover⟩

theorem Mach.Beside.of_bare {m m' : Mach} (h : m'.bare = m.bare) : m.Beside m' :=
  ⟨Mach.sys_of_bare h, Mach.image_of_bare h, Mach.chg_of_bare h, congrArg LaneBlock.slots (Mach.lane_of_bare h),
    congrArg LaneBlock.pendRestart (Mach.lane_of_bare h), congrArg LaneBlock.handover (Mach.lane_of_bare h)⟩

theorem Mach.Beside.onLane {m m₁ : Mach} (h : m.Beside m₁) (l : Lane) (f : LaneState → LaneState) : m.Beside (m₁.onLane l f) :=
  ⟨h.sys, h.image, h.chg, h.slots, h.pend, h.handover⟩

theorem Mach.Beside.toState {m m₁ : Mach} (h : m.Beside m₁) (l : Lane) (c : Nat) : m.Beside (m₁.toState l c) :=
  h.trans (.of_bare (m₁.bare_toState l c))

theorem Mach.Resets.beside {l : Lane} {es : List Event} {m m' : Mach} (h : m.Resets l es m') : m.Beside m' :=
  ⟨h.sys, h.image, h.chg, h.slots, h.pend, h.handover⟩

theorem Mach.Resets.says {l : Lane} {es : List Event} {m m' : Mach} (h : m.Resets l es m') : m.Says es m' :=
  ⟨h.now, h.cyc, h.running, fun b hb => h.rd b (clock_kept l b (by
    revert b
    decide)), h.raised⟩

/-- What a reset would tell, after work that tells `es`. -/
theorem Mach.Says.resetTold_eq {m m' : Mach} {l : Lane} {es : List Event} (h : m.Says es m')
    (ho : m'.replayed l.origin = m.replayed l.origin)
    (hinj : m'.rd (Reg.LAW_INJ_STAT l.ix) = m.rd (Reg.LAW_INJ_STAT l.ix)) : m'.resetTold l = m.resetTold l := by
  have hstate : m'.injState l = m.injState l := congrArg (Word.bits · 31 30) hinj
  have hslot : m'.injSlot l = m.injSlot l := congrArg (Word.bits · 29 26) hinj
  rw [Mach.resetTold, Mach.resetTold, hstate, hslot, h.eventAt_eq ho]

/-! ### A lane reset into a state -/

/-- A lane reset, its own part changed by `f`, in state `c`. -/
def Mach.resetTo (m : Mach) (l : Lane) (f : LaneState → LaneState) (c : Nat) : Mach := ((m.laneReset l).onLane l f).toState l c

section
variable (m : Mach) (l : Lane) (f : LaneState → LaneState) (c : Nat)

theorem Mach.resetTo_says : m.Says (m.resetTold l) (m.resetTo l f c) :=
  ((Mach.Resets.laneReset m l).says.onLane l f).toState l c

theorem Mach.resetTo_beside : m.Beside (m.resetTo l f c) :=
  ((Mach.Resets.laneReset m l).beside.onLane l f).toState l c

theorem Mach.resetTo_lanes : (m.resetTo l f c).lanes = m.lanes.set l (f ((m.lanes.get l).reset m.now)) := by
  rw [Mach.resetTo, Mach.lanes_toState, Mach.onLane, Mach.laneReset_lanes, Two.get_set_self]
  cases l <;> rfl

theorem Mach.resetTo_self : (m.resetTo l f c).lanes.get l = f ((m.lanes.get l).reset m.now) := by
  rw [Mach.resetTo_lanes, Two.get_set_self]

theorem Mach.resetTo_other : (m.resetTo l f c).lanes.get l.other = m.lanes.get l.other := by
  rw [Mach.resetTo_lanes, Two.get_set_other _ _ (by cases l <;> decide)]

theorem Mach.resetTo_rd {b : Nat} (h : keptByReset l b = true) (hs : b ∉ stateRegs l) : (m.resetTo l f c).rd b = m.rd b := by
  rw [Mach.resetTo, Mach.toState_rd_other _ l c hs, Mach.onLane_rd, (Mach.Resets.laneReset m l).rd b h]

theorem Mach.reset_laneCode (x : Lane) : ((m.laneReset l).onLane l f).laneCode x = m.laneCode x :=
  Mach.laneCode_congr (by rw [Mach.onLane_rd, (Mach.Resets.laneReset m l).rd _ (clock_kept l _ (by decide))]) x

theorem Mach.resetTo_laneCode {c : Nat} (hc : c < 8) : (m.resetTo l f c).laneCode l = c := Mach.laneCode_toState _ l hc

theorem Mach.resetTo_laneCode_other : (m.resetTo l f c).laneCode l.other = m.laneCode l.other :=
  (Mach.laneCode_toState_other _ l c).trans (m.reset_laneCode l f l.other)
end

/-! ### The roles (R299) -/

section
variable (m : Mach) (l : Lane)

/-- With the lane LIVE alone, roles and service go to it. -/
theorem Mach.setRoles_alone (hl : m.live l = false) (ho : m.live l.other = true) :
    m.setRoles.active = l.other ∧ m.setRoles.service = l.other := by
  have hlive : ∀ x, m.live x = true ↔ x = l.other := fun x => by
    cases l <;> cases x <;> simp_all [Lane.other]
  have hact : (if m.live m.active then m.active else if m.live m.active.other then m.active.other else m.active) = l.other := by
    split
    next h => exact (hlive _).1 h
    next h =>
      have hx : m.active.other = l.other := by
        have hne : m.active ≠ l.other := fun he => h ((hlive _).2 he)
        revert hne
        cases m.active <;> cases l <;> decide
      rw [if_pos ((hlive _).2 hx)]
      exact hx
  have hsrv : (if (m.arr == 1 && m.live .a == m.live .b && m.laneCode .a != 6 && m.laneCode .b != 6) = true then l.other
      else if m.live .a then Lane.a else Lane.b) = l.other := by
    have hdiff : (m.live .a == m.live .b) = false := by
      cases l <;> simp_all [Lane.other]
    rw [hdiff, Bool.and_false, Bool.false_and, Bool.false_and, if_neg Bool.false_ne_true]
    cases l
    · rw [if_neg (by simp_all [Lane.other])]
      rfl
    · exact if_pos ho
  have heq : m.setRoles = (m.setFld Reg.LANE_STATUS 6 6 l.other.ix).setFld Reg.LANE_STATUS 17 17 l.other.ix := by
    unfold Mach.setRoles
    dsimp only
    rw [hact, hsrv]
  rw [heq, Mach.active, Mach.service, Mach.fld_setFld_other _ _ (by decide) (by decide) (by decide) (.inr (by decide)),
    Mach.fld_setFld _ _ (by decide) (by decide), Mach.fld_setFld _ _ (by decide) (by decide)]
  cases l <;> exact ⟨rfl, rfl⟩

/-- A field of the lanes' status that does not hold DEGRADED. -/
theorem Mach.setDegraded_status {hi lo : Nat} (h : lo ≤ hi) (hd : hi < 16 ∨ 16 < lo) :
    m.setDegraded.fld Reg.LANE_STATUS hi lo = m.fld Reg.LANE_STATUS hi lo := by
  unfold Mach.setDegraded
  dsimp only
  rw [Mach.fld_setBit_other _ _ (by decide) h (.inr hd), Mach.fld_setBit_other m _ (by decide) h (.inl (by decide))]

/-- The arrangement is no lane's state, and no role. -/
theorem Mach.setRoles_arr : m.setRoles.arr = m.arr := by
  unfold Mach.setRoles
  dsimp only
  exact (Mach.fld_setFld_other _ _ (by decide) (by decide) (by decide) (.inr (by decide))).trans
    (Mach.fld_setFld_other m _ (by decide) (by decide) (by decide) (.inr (by decide)))

theorem Mach.setLaneCode_arr (c : Nat) : (m.setLaneCode l c).arr = m.arr := by
  cases l
  · exact (Mach.fld_setFld_other _ _ (by decide) (by decide) (by decide) (.inl (by decide))).trans
      (Mach.fld_setFld_other m _ (by decide) (by decide) (by decide) (.inr (by decide)))
  · exact (Mach.fld_setFld_other _ _ (by decide) (by decide) (by decide) (.inl (by decide))).trans
      (Mach.fld_setFld_other m _ (by decide) (by decide) (by decide) (.inr (by decide)))

theorem Mach.toState_arr (c : Nat) : (m.toState l c).arr = m.arr := by
  rw [Mach.toState, Mach.arr, Mach.fld, Mach.showCheckpoint_rd_other _ (by decide), ← Mach.fld,
    Mach.setDegraded_status _ (by decide) (.inl (by decide)), ← Mach.arr, Mach.setRoles_arr, Mach.setLaneCode_arr]

theorem Mach.resetTo_arr (f : LaneState → LaneState) (c : Nat) : (m.resetTo l f c).arr = m.arr := by
  rw [Mach.resetTo, Mach.toState_arr, Mach.arr, Mach.fld, Mach.onLane_rd,
    (Mach.Resets.laneReset m l).rd _ (clock_kept l _ (by decide))]
  rfl

theorem Mach.toState_alone {c : Nat} (hc : c ≠ 1) (h8 : c < 8) (ho : m.live l.other = true) :
    (m.toState l c).active = l.other ∧ (m.toState l c).service = l.other := by
  have hcode : (m.setLaneCode l c).live l = false := by
    rw [Mach.live, Mach.laneCode_setLaneCode _ _ h8]
    exact beq_eq_false_iff_ne.2 hc
  have hother : (m.setLaneCode l c).live l.other = true := by
    rw [Mach.live, Mach.laneCode_setLaneCode_other]
    exact ho
  have hroles := (m.setLaneCode l c).setRoles_alone l hcode hother
  have hkept : ∀ {lo : Nat}, lo ≠ 16 → ∀ x : Mach,
      x.setDegraded.showCheckpoint.fld Reg.LANE_STATUS lo lo = x.fld Reg.LANE_STATUS lo lo := fun {lo} hlo x => by
    rw [Mach.fld, Mach.showCheckpoint_rd_other _ (by decide), ← Mach.fld, x.setDegraded_status (le_refl lo) (by omega)]
  have hactive : (m.toState l c).active = (m.setLaneCode l c).setRoles.active := congrArg Lane.ofIx (hkept (by decide) _)
  have hservice : (m.toState l c).service = (m.setLaneCode l c).setRoles.service := congrArg Lane.ofIx (hkept (by decide) _)
  exact ⟨hactive.trans hroles.1, hservice.trans hroles.2⟩

/-- Whether a lane alone runs the device is shown (R298). -/
theorem Mach.toState_degraded (c : Nat) :
    (m.toState l c).bit Reg.SYS_MODE_STAT 11 =
      (m.tick.running && ((m.setLaneCode l c).setRoles.unavailable .a || (m.setLaneCode l c).setRoles.unavailable .b)) := by
  have hbare := (Mach.bare_setRoles (m.setLaneCode l c)).trans (m.bare_setLaneCode l c)
  have htick : (m.setLaneCode l c).setRoles.tick.running = m.tick.running := congrArg TickState.running (Mach.tick_of_bare hbare)
  rw [Mach.toState, Mach.bit, Mach.showCheckpoint_rd_other _ (by decide), ← Mach.bit, ← htick]
  generalize (m.setLaneCode l c).setRoles = x
  unfold Mach.setDegraded
  dsimp only
  rw [Mach.bit_setBit_other _ _ (by decide) (.inl (by decide)), Mach.bit_setBit _ _ (by decide)]

/-- The field of a health word that counts faults is no state's. -/
theorem Mach.toState_faults (c : Nat) (x : Lane) : (m.toState l c).fld (healthReg x) 23 16 = m.fld (healthReg x) 23 16 := by
  have hne : healthReg x ≠ Reg.LANE_CKSTAT ∧ healthReg x ≠ Reg.SYS_MODE_STAT ∧ healthReg x ≠ Reg.LANE_STATUS := by
    cases x <;> decide
  obtain ⟨hck, hmode, hst⟩ := hne
  rw [Mach.toState, Mach.fld, Mach.showCheckpoint_rd_other _ hck, Mach.setDegraded_rd_other _ hmode hst, Mach.rd_setRoles_other _ hst,
    ← Mach.fld]
  cases l
  · exact (Mach.fld_setFld_other _ _ (by decide) (by decide) (by decide) (.inr (by decide))).trans
      (Mach.fld_setFld_other m _ (by decide) (by decide) (by decide) (.inl hst))
  · exact (Mach.fld_setFld_other _ _ (by decide) (by decide) (by decide) (.inr (by decide))).trans
      (Mach.fld_setFld_other m _ (by decide) (by decide) (by decide) (.inl hst))
end

/-! ### What a lane's recovery does with the reset (R322, R324, R334) -/

section
variable (m : Mach) (l : Lane)

/-- A lane's part on entering recovery from the fault of tick `t`. -/
def LaneState.recovering (t : Nat) (s : LaneState) : LaneState :=
  { s with step := .reset, faultTick := t, shadowEqual := 0, shadowBad := false, restart := none, afterwards := false }

/-- A lane's part where it waits in reset for the other. -/
def LaneState.waitsReset (s : LaneState) : LaneState := { s with step := .none, restart := none, afterwards := true }

theorem Mach.recover_eq (t : Nat) : m.recover l t = m.resetTo l (LaneState.recovering t) 2 := rfl

theorem Mach.waitReset_eq : m.waitReset l = m.resetTo l LaneState.waitsReset 2 := rfl

/-- The faults of the last second, this one among them. -/
def LaneState.counted (s : LaneState) (now : Nat) : LaneState :=
  { s with faults := now :: (s.faults.filter fun t => decide (now < t + oneSecond)) }

/-- How many faults of a lane lie within the last second. -/
def Mach.recentFaults (m : Mach) (l : Lane) : Nat := ((m.lanes.get l).faults.filter fun t => decide (m.now < t + oneSecond)).length

theorem Mach.countFault_lanes : (m.countFault l).lanes = m.lanes.set l ((m.lanes.get l).counted m.now) := rfl

theorem Mach.countFault_length : ((m.countFault l).lanes.get l).faults.length = m.recentFaults l + 1 := by
  rw [Mach.countFault_lanes, Two.get_set_self]
  rfl

/-- The field that counts them. -/
theorem Mach.countFault_fld (h : m.recentFaults l < 255) : (m.countFault l).fld (healthReg l) 23 16 = m.recentFaults l + 1 := by
  have hcount : (m.onLane l fun s => s.counted m.now).faultCount l = m.recentFaults l + 1 := by
    rw [Mach.faultCount, Mach.onLane, Two.get_set_self]
    have hkept : ((m.now :: (m.lanes.get l).faults.filter fun t => decide (m.now < t + oneSecond)).filter
        fun t => decide (m.now < t + oneSecond)).length = m.recentFaults l + 1 := by
      rw [List.filter_cons_of_pos (by simp [oneSecond]), List.filter_filter]
      simp only [Bool.and_self, List.length_cons, Mach.recentFaults]
    exact (congrArg (min · 255) hkept).trans (by omega)
  exact (Mach.fld_setFld _ _ (by decide) (by decide)).trans (by
    refine (congrArg (· % 2 ^ (23 + 1 - 16)) hcount).trans ?_
    omega)

theorem Mach.countFault_rd_other {b : Nat} (h : b ≠ healthReg l) : (m.countFault l).rd b = m.rd b := by
  rw [Mach.countFault, Mach.rd_setFld, if_neg h, Mach.onLane_rd]

theorem Mach.countFault_says : m.Says [] (m.countFault l) :=
  ((Mach.Says.refl m).onLane l _).wr (by cases l <;> decide) _

theorem Mach.countFault_laneCode (x : Lane) : (m.countFault l).laneCode x = m.laneCode x :=
  Mach.laneCode_congr (m.countFault_rd_other l (by cases l <;> decide)) x

theorem Mach.countFault_resetTold : (m.countFault l).resetTold l = m.resetTold l := by
  have hinj : (m.countFault l).rd (Reg.LAW_INJ_STAT l.ix) = m.rd (Reg.LAW_INJ_STAT l.ix) :=
    m.countFault_rd_other l (by cases l <;> decide)
  exact (m.countFault_says l).resetTold_eq (by simp only [Mach.replayed, Mach.countFault_laneCode]) hinj

theorem Mach.recoverCounted_recovers (t : Nat) (h : m.recentFaults l < 3) :
    m.recoverCounted l t = (m.countFault l).recover l t :=
  if_neg (by rw [Mach.countFault_length]; omega)

theorem Mach.recoverCounted_isolates (t : Nat) (h : 3 ≤ m.recentFaults l) :
    m.recoverCounted l t = (m.countFault l).isolate l :=
  if_pos (by rw [Mach.countFault_length]; omega)

/-- A lane's part where it is isolated. -/
def LaneState.isolated (s : LaneState) : LaneState := { s with step := .none, restart := none, afterwards := false }

/-- What follows the reset of a lane that is isolated. -/
def Mach.isolationTold (m : Mach) (l : Lane) : Mach :=
  let m := (m.raise 0x3008 1).laneIrq 5
  if m.unavailable l.other then m.raiseF4 0x0005
  else if m.arr = 2 then forL (m.ownSlots l) (fun k m => m.slotLost k) m
  else m

omit m l in
theorem Mach.unavailable_of_live {m : Mach} {x : Lane} (h : m.live x = true) : m.unavailable x = false := by
  have hcode : m.laneCode x = 1 := eq_of_beq h
  simp [Mach.unavailable, Mach.heldReset, hcode]

/-- R336: the isolation of a lane beside a LIVE one in pair. -/
theorem Mach.isolate_paired (ho : m.live l.other = true) (harr : m.arr = 1) :
    m.isolate l = ((m.resetTo l LaneState.isolated 6).raise 0x3008 1).laneIrq 5 := by
  have hlive : (m.resetTo l LaneState.isolated 6).live l.other = true := by
    rw [Mach.live, Mach.resetTo_laneCode_other]
    exact ho
  have harr' : (m.resetTo l LaneState.isolated 6).arr = 1 := (m.resetTo_arr l _ 6).trans harr
  have hstep : m.isolate l = ((m.resetTo l LaneState.isolated 6).isolationTold l) := rfl
  rw [hstep]
  generalize m.resetTo l LaneState.isolated 6 = x at hlive harr'
  have hst : ((x.raise 0x3008 1).laneIrq 5).rd Reg.LANE_STATUS = x.rd Reg.LANE_STATUS := by
    rw [Mach.laneIrq, Mach.rd_orrBoth_other _ (by decide) (by decide), Mach.raise_rd]
  have hun : ((x.raise 0x3008 1).laneIrq 5).unavailable l.other = false :=
    Mach.unavailable_of_live ((beq_iff_eq.2 ((Mach.laneCode_congr hst _).trans (eq_of_beq hlive))))
  have hpair : ((x.raise 0x3008 1).laneIrq 5).arr = 1 := (congrArg (Word.bits · 5 4) hst).trans harr'
  unfold Mach.isolationTold
  dsimp only
  rw [hun, if_neg Bool.false_ne_true, hpair, if_neg (by decide)]
end

end Sys2Proof.Machine
end

section
/-! Recovery of one lane, step by step (R322 to R324, R335, R336, R439). -/

namespace Sys2Proof.Machine

/-- A command that tells `es` and leaves memory alone. -/
theorem run_says {s : State} {cyc : Nat} {f : Mach → Mach} {m : Mach} {es : List Event} (hf : f (s.at cyc) = m)
    (h : (s.at cyc).Says es m) : ∃ t, run s cyc f = .next t ∧ t.m = m.settle ∧ Raises s t es ∧ SameMemory s t := by
  subst hf
  exact ⟨_, rfl, rfl, h.raised, fun _ => rfl⟩

theorem Mach.settle_laneCode (m : Mach) (l : Lane) : m.settle.laneCode l = m.laneCode l := Mach.laneCode_congr (Mach.settle_rd ..) l

theorem Mach.settle_live (m : Mach) (l : Lane) : m.settle.live l = m.live l := by
  rw [Mach.live, Mach.live, Mach.settle_laneCode]

/-- What no lane raises is never told as replayed. -/
theorem Mach.replayed_zero (m : Mach) : m.replayed 0 = false := rfl

/-! ### A lane put into recovery -/

/-- Of `m` the recovery of lane `l` from tick `t`, its fault counted as the `n`-th, has made `m'`. -/
structure Mach.Recovered (m : Mach) (l : Lane) (t n : Nat) (m' : Mach) : Prop where
  code : m'.laneCode l = 2
  other : m'.laneCode l.other = m.laneCode l.other
  step : (m'.lanes.get l).step = .reset
  f2 : (m'.lanes.get l).f2 = false
  tick : (m'.lanes.get l).faultTick = t
  counted : m'.fld (healthReg l) 23 16 = n
  roles : m.live l.other = true → m'.active = l.other ∧ m'.service = l.other

theorem keptByReset_health (l : Lane) : keptByReset l (healthReg l) = true := by cases l <;> decide

section
variable (m : Mach) (l : Lane)

theorem Mach.recover_recovered (t : Nat) (h : m.recentFaults l < 3) :
    m.Recovered l t (m.recentFaults l + 1) ((m.countFault l).recover l t) := by
  have hfld := m.countFault_fld l (by omega)
  have hcode := fun x => m.countFault_laneCode l x
  rw [Mach.recover_eq]
  generalize m.countFault l = x at hfld hcode
  have hself := x.resetTo_self l (LaneState.recovering t) 2
  have hlive : x.live l.other = m.live l.other := congrArg (· == 1) (hcode l.other)
  refine ⟨x.resetTo_laneCode l _ (by decide), (x.resetTo_laneCode_other l _ 2).trans (hcode _), by rw [hself]; rfl, by rw [hself]; rfl,
    by rw [hself]; rfl, ?_, fun ho => ?_⟩
  · rw [Mach.resetTo, Mach.toState_faults, Mach.fld, Mach.onLane_rd, (Mach.Resets.laneReset x l).rd _ (keptByReset_health l)]
    exact hfld
  · refine Mach.toState_alone _ l (by decide) (by decide) ?_
    exact (congrArg (· == 1) (x.reset_laneCode l _ l.other)).trans (hlive.trans ho)

theorem Mach.recover_says (t : Nat) : m.Says (m.resetTold l) ((m.countFault l).recover l t) := by
  rw [Mach.recover_eq, ← m.countFault_resetTold l]
  exact (m.countFault_says l).trans ((m.countFault l).resetTo_says l _ 2)

theorem Mach.Recovered.recovers {m m' : Mach} {l : Lane} {n : Nat} {s t : State} (h : m.Recovered l s.m.seq (n + 1) m')
    (hcode : ∀ x, m.laneCode x = s.m.laneCode x) (hm : t.m = m'.settle) (hmem : SameMemory s t) : Recovers s t l n := by
  have hlanes : t.m.lanes = m'.lanes := (congrArg Mach.lanes hm).trans (Mach.settle_lanes _)
  have hfld : ∀ a hi lo, t.m.fld a hi lo = m'.fld a hi lo := fun a hi lo => by rw [hm, Mach.settle_fld]
  refine ⟨?_, ?_, ?_, ?_, ?_, ?_, fun ho => ?_, hmem⟩
  · rw [hm, Mach.settle_laneCode, h.code]
  · rw [hm, Mach.settle_laneCode, h.other, hcode]
  · rw [hlanes, h.step]
  · rw [hlanes, h.f2]
  · rw [hlanes, h.tick]
  · rw [hfld, h.counted]
  · have hroles := h.roles ((congrArg (· == 1) (hcode l.other)).trans ho)
    exact ⟨(congrArg Lane.ofIx (hfld ..)).trans hroles.1, (congrArg Lane.ofIx (hfld ..)).trans hroles.2⟩

/-! ### A lane isolated (R336) -/

omit m l in
theorem Mach.unavailable_of_isolated {m : Mach} {l : Lane} (h : m.laneCode l = 6) : m.unavailable l = true := by
  simp [Mach.unavailable, h]

theorem Mach.isolate_says (ho : m.live l.other = true) (harr : m.arr = 1) :
    m.Says (m.resetTold l ++ [eventAt m 0x3008 1 0xFF [] 0]) (m.isolate l) := by
  rw [m.isolate_paired l ho harr]
  exact ((m.resetTo_says l LaneState.isolated 6).raise (by rw [Mach.replayed_zero, Mach.replayed_zero]) 0x3008 1 0xFF []).laneIrq 5

/-- What the isolation of a lane of a pair leaves: its code, the other's, and DEGRADED. -/
theorem Mach.isolate_shown (ho : m.live l.other = true) (harr : m.arr = 1) :
    (m.isolate l).laneCode l = 6 ∧ (m.isolate l).live l.other = true ∧
      (m.isolate l).bit Reg.SYS_MODE_STAT 11 = m.tick.running := by
  rw [m.isolate_paired l ho harr]
  have hrd : ∀ (x : Mach) b, b ≠ Reg.LANE_L_IRQ_STAT 0 → b ≠ Reg.LANE_L_IRQ_STAT 1 → ((x.raise 0x3008 1).laneIrq 5).rd b = x.rd b :=
    fun x b ha hb => by rw [Mach.laneIrq, Mach.rd_orrBoth_other _ ha hb, Mach.raise_rd]
  have hcode := fun y => Mach.laneCode_congr (hrd (m.resetTo l LaneState.isolated 6) _ (by decide) (by decide)) y
  refine ⟨(hcode l).trans (m.resetTo_laneCode l _ (by decide)), ?_, ?_⟩
  · exact (congrArg (· == 1) ((hcode l.other).trans (m.resetTo_laneCode_other l _ 6))).trans ho
  · rw [Mach.bit, hrd _ _ (by decide) (by decide), ← Mach.bit, Mach.resetTo, Mach.toState_degraded]
    have hrunning : ((m.laneReset l).onLane l LaneState.isolated).tick.running = m.tick.running := by
      rw [Mach.onLane_tick, (Mach.Resets.laneReset m l).running]
    generalize (m.laneReset l).onLane l LaneState.isolated = x at hrunning
    have hgone := Mach.unavailable_of_isolated ((Mach.laneCode_setRoles _ l).trans (x.laneCode_setLaneCode l (c := 6) (by decide)))
    rw [hrunning]
    cases l
    · rw [hgone, Bool.true_or, Bool.and_true]
    · rw [hgone, Bool.or_true, Bool.and_true]

/-! ### A lane that waits in reset -/

theorem Mach.waitReset_waits : ((m.waitReset l).laneCode l = 2) ∧ ((m.waitReset l).lanes.get l).restart = none ∧
    ((m.waitReset l).lanes.get l).afterwards = true := by
  have hself := m.resetTo_self l LaneState.waitsReset 2
  rw [Mach.waitReset_eq]
  exact ⟨m.resetTo_laneCode l _ (by decide), by rw [hself]; rfl, by rw [hself]; rfl⟩

theorem Mach.waitReset_says : m.Says (m.resetTold l) (m.waitReset l) := by
  rw [Mach.waitReset_eq]
  exact m.resetTo_says l _ 2

theorem Mach.waitReset_other : (m.waitReset l).lanes.get l.other = m.lanes.get l.other := by
  rw [Mach.waitReset_eq, Mach.resetTo_other]

theorem Mach.waitReset_laneCode_other : (m.waitReset l).laneCode l.other = m.laneCode l.other := by
  rw [Mach.waitReset_eq, Mach.resetTo_laneCode_other]

theorem Mach.waitReset_beside : m.Beside (m.waitReset l) := by
  rw [Mach.waitReset_eq]
  exact m.resetTo_beside l _ 2
end

end Sys2Proof.Machine
end

section
/-! A restart begun: its slots held, its lanes in RESET (R325, R326, R328, R335). -/

namespace Sys2Proof.Machine

/-! ### The restart of one lane alone, and of both (R325, R335) -/

section
variable (m : Mach)

/-- The lanes of a restart enter RESET, its slots are held, and it counts (R325, R326, R328). -/
def LaneState.restarting (r : Restart) (next : Nat) (s : LaneState) : LaneState :=
  { s with restart := some r, step := .none, next := next, afterwards := false }

/-- The first tick that a lane would replay. -/
def Mach.replayFrom (m : Mach) (l : Lane) : Nat := ((m.lanes.get l).newest.map fun c => c.tick + 1).getD 0

/-- A lane enters RESET for a restart. -/
def Mach.enterRestart (m : Mach) (r : Restart) (l : Lane) : Mach := m.resetTo l (LaneState.restarting r (m.replayFrom l)) 2

/-- The slots of a restart are held. -/
def Mach.holdSlots (m : Mach) (slots : List Nat) : Mach :=
  forL slots (fun k m => m.onSv k fun s => { s with held := !s.forcedSafe, heldCount := 0, limited := false }) m

/-- The restart is counted, and none waits. -/
def Mach.restartCounted (m : Mach) : Mach :=
  ((m.incSat Reg.LANE_FAULTS 31 24).setFld Reg.LANE_STATUS 31 24 0).onLb fun b => { b with pendRestart := none }

/-- The lanes of a restart, all in RESET before the first is reset, enter it one after another. -/
def Mach.enterAll (m : Mach) (r : Restart) (ls : List Lane) : Mach :=
  ls.foldl (fun m l => m.enterRestart r l) (ls.foldl (fun m l => m.setLaneCode l 2) m)

/-- The restart begun, before it shows. -/
def Mach.restartBegun (m : Mach) (ls : List Lane) (r : Restart) : Mach :=
  let entered := (m.holdSlots (m.mapped.filter fun k => ls.any fun l => m.runsSlot l k)).enterAll r ls
  (if r.both then entered.zAbort else entered).restartCounted

/-- A restart of the lanes `ls` with disputed tick `t`. -/
def restartOf (ls : List Lane) (t : Nat) (planned : Bool) : Restart := ⟨t, decide (1 < ls.length), planned, false, 0, 0, true, 0⟩

theorem Mach.beginRestart_eq (ls : List Lane) (t : Nat) (planned : Bool) :
    m.beginRestart ls t planned =
      if ls.all fun l => (m.lanes.get l).newest.any fun c => decide (c.tick < t) then
        (m.restartBegun ls (restartOf ls t planned)).showHold
      else (m.restartBegun ls (restartOf ls t planned)).restartFail := rfl

/-! The hold. -/

/-- A slot that is held, unless its safe state is forced. -/
def SieveSlot.hold (x : SieveSlot) : SieveSlot := { x with held := !x.forcedSafe, heldCount := 0, limited := false }

theorem Mach.holdSlots_eq (slots : List Nat) : ∃ x, m.holdSlots slots = m.onLb fun b => { b with slots := x } := by
  refine forL_induct (P := fun y => ∃ x, y = m.onLb fun b => { b with slots := x }) (fun k _ y hy => ?_) ⟨m.lane.slots, rfl⟩
  obtain ⟨x, rfl⟩ := hy
  exact ⟨_, rfl⟩

theorem Mach.sv_onSv (k j : Nat) (f : SieveSlot → SieveSlot) :
    (m.onSv k f).sv j = if j = k ∧ k < m.lane.slots.length then f (m.sv k) else m.sv j := nth_upd ..

/-- Each slot of the restart is held. -/
theorem Mach.holdSlots_held (slots : List Nat) {k : Nat} (hk : k ∈ slots) (hlen : k < m.lane.slots.length) :
    ((m.holdSlots slots).sv k).held = !(m.sv k).forcedSafe ∧ ((m.holdSlots slots).sv k).heldCount = 0 := by
  have hgen : ∀ (slots : List Nat) (m : Mach), k < m.lane.slots.length →
      (m.holdSlots slots).sv k = if k ∈ slots then (m.sv k).hold else m.sv k := by
    intro slots
    induction slots with
    | nil => exact fun _ _ => rfl
    | cons j t ih =>
      intro m hlen
      have hlen' : k < (m.onSv j SieveSlot.hold).lane.slots.length := by
        rw [Mach.onSv, Mach.onLb, upd, List.length_modify]
        exact hlen
      have hstep : m.holdSlots (j :: t) = (m.onSv j SieveSlot.hold).holdSlots t := rfl
      rw [hstep, ih _ hlen', Mach.sv_onSv]
      by_cases hj : k = j
      · subst hj
        have hsv : (if k = k ∧ k < m.lane.slots.length then SieveSlot.hold (m.sv k) else m.sv k) = SieveSlot.hold (m.sv k) :=
          if_pos ⟨rfl, hlen⟩
        rw [hsv, if_pos List.mem_cons_self]
        split <;> rfl
      · have hsv : (if k = j ∧ j < m.lane.slots.length then SieveSlot.hold (m.sv j) else m.sv k) = m.sv k := if_neg fun h => hj h.1
        rw [hsv]
        simp only [List.mem_cons, hj, false_or]
  rw [hgen slots m hlen, if_pos hk]
  exact ⟨rfl, rfl⟩

/-! The lanes enter. -/

theorem Mach.setLaneCode_rd (l : Lane) (c : Nat) {b : Nat} (h : b ≠ Reg.LANE_STATUS ∧ b ≠ healthReg .a ∧ b ≠ healthReg .b) :
    (m.setLaneCode l c).rd b = m.rd b :=
  Mach.rd_setLaneCode_other _ _ _ h.1 (by cases l; exacts [h.2.1, h.2.2])

theorem Mach.setCodes_bare (ls : List Lane) : (ls.foldl (fun m l => m.setLaneCode l 2) m).bare = m.bare := by
  induction ls generalizing m with
  | nil => rfl
  | cons l t ih => exact (ih _).trans (m.bare_setLaneCode l 2)

theorem Mach.setCodes_rd (ls : List Lane) {b : Nat} (h : b ≠ Reg.LANE_STATUS ∧ b ≠ healthReg .a ∧ b ≠ healthReg .b) :
    (ls.foldl (fun m l => m.setLaneCode l 2) m).rd b = m.rd b := by
  induction ls generalizing m with
  | nil => rfl
  | cons l t ih => exact (ih _).trans (m.setLaneCode_rd l 2 h)

theorem Mach.setCodes_arr (ls : List Lane) : (ls.foldl (fun m l => m.setLaneCode l 2) m).arr = m.arr := by
  induction ls generalizing m with
  | nil => rfl
  | cons l t ih => exact (ih _).trans (m.setLaneCode_arr l 2)

theorem Mach.setCodes_laneCode (ls : List Lane) (x : Lane) :
    (ls.foldl (fun m l => m.setLaneCode l 2) m).laneCode x = if x ∈ ls then 2 else m.laneCode x := by
  induction ls generalizing m with
  | nil => rfl
  | cons l t ih =>
    rw [List.foldl_cons, ih]
    by_cases hx : x = l
    · subst hx
      rw [Mach.laneCode_setLaneCode _ _ (by decide), ite_self, if_pos List.mem_cons_self]
    · have ho : x = l.other := by
        revert hx
        cases x <;> cases l <;> decide
      simp only [ho, Mach.laneCode_setLaneCode_other, List.mem_cons, show l.other ≠ l by cases l <;> decide, false_or]
end

/-- Of `m` the restart `r` of the lanes `ls`, of which `done` have entered it, has made `m'`. -/
structure Mach.Entered (r : Restart) (ls done : List Lane) (m m' : Mach) : Prop where
  tells : m.Says (done.flatMap m.resetTold) m'
  beside : m.Beside m'
  lanes : ∀ l, m'.lanes.get l =
    if l ∈ done then LaneState.restarting r (m.replayFrom l) ((m.lanes.get l).reset m.now) else m.lanes.get l
  codes : ∀ l, m'.laneCode l = if l ∈ ls then 2 else m.laneCode l
  counts : m'.rd Reg.LANE_FAULTS = m.rd Reg.LANE_FAULTS
  inj : ∀ l, l ∉ done → m'.rd (Reg.LAW_INJ_STAT l.ix) = m.rd (Reg.LAW_INJ_STAT l.ix)
  arr : m'.arr = m.arr

section
variable {m : Mach} {r : Restart} {ls done : List Lane}

theorem Mach.Entered.start (m : Mach) (r : Restart) (ls : List Lane) :
    m.Entered r ls [] (ls.foldl (fun m l => m.setLaneCode l 2) m) where
  tells := (Mach.Says.refl m).regs (m.setCodes_bare ls) fun b hb => m.setCodes_rd ls (by
    revert b
    decide)
  beside := .of_bare (m.setCodes_bare ls)
  lanes _ := by rw [Mach.lanes_of_bare (m.setCodes_bare ls), if_neg List.not_mem_nil]
  codes := m.setCodes_laneCode ls
  counts := m.setCodes_rd ls (by decide)
  inj l _ := m.setCodes_rd ls (by cases l <;> decide)
  arr := m.setCodes_arr ls

/-- One more lane, LIVE before, enters. -/
theorem Mach.Entered.enter {m' : Mach} (h : m.Entered r ls done m') {l : Lane} (hl : l ∈ ls) (hd : l ∉ done)
    (hlive : m.live l = true) : m.Entered r ls (done ++ [l]) (m'.enterRestart r l) := by
  have hself : m'.lanes.get l = m.lanes.get l := (h.lanes l).trans (if_neg hd)
  have hcode : m'.laneCode l = 2 := (h.codes l).trans (if_pos hl)
  have hreplayed : m'.replayed l.origin = m.replayed l.origin := by
    rw [Mach.not_replayed_of_live hlive]
    cases l <;> simp [Mach.replayed, Lane.origin, Lane.ix, hcode]
  have htold : m'.resetTold l = m.resetTold l := h.tells.resetTold_eq hreplayed (h.inj l hd)
  have hnow : m'.now = m.now := h.tells.now
  have hother : ∀ {x}, x ≠ l → x = l.other := fun {x} hx => by
    revert hx
    cases x <;> cases l <;> decide
  have hkept : keptByReset l Reg.LANE_FAULTS = true ∧ Reg.LANE_FAULTS ∉ stateRegs l ∧
      keptByReset l (Reg.LAW_INJ_STAT l.other.ix) = true ∧ Reg.LAW_INJ_STAT l.other.ix ∉ stateRegs l := by
    cases l <;> decide
  obtain ⟨hfaults, hfaults', hinj, hinj'⟩ := hkept
  have hfrom : m'.replayFrom l = m.replayFrom l := by rw [Mach.replayFrom, Mach.replayFrom, hself]
  rw [Mach.enterRestart, hfrom]
  refine ⟨?_, h.beside.trans (m'.resetTo_beside l _ 2), fun x => ?_, fun x => ?_, ?_, fun x hx => ?_, ?_⟩
  · rw [List.flatMap_append, List.flatMap_singleton, ← htold]
    exact h.tells.trans (m'.resetTo_says l _ 2)
  · by_cases hx : x = l
    · subst hx
      rw [Mach.resetTo_self, hself, hnow, if_pos (by simp)]
    · obtain rfl := hother hx
      rw [Mach.resetTo_other, h.lanes]
      simp only [List.mem_append, List.mem_singleton, hx, or_false]
  · by_cases hx : x = l
    · subst hx
      rw [Mach.resetTo_laneCode _ _ _ (by decide), if_pos hl]
    · obtain rfl := hother hx
      rw [Mach.resetTo_laneCode_other, h.codes]
  · rw [Mach.resetTo_rd _ _ _ _ hfaults hfaults', h.counts]
  · rw [List.mem_append, List.mem_singleton, not_or] at hx
    obtain ⟨hx, hne⟩ := hx
    obtain rfl := hother hne
    rw [Mach.resetTo_rd _ _ _ _ hinj hinj', h.inj _ hx]
  · rw [Mach.resetTo_arr, h.arr]

theorem Mach.enterAll_one (m : Mach) (r : Restart) {l : Lane} (hl : m.live l = true) : m.Entered r [l] [l] (m.enterAll r [l]) := by
  have hstart := Mach.Entered.start m r [l]
  unfold Mach.enterAll
  generalize [l].foldl (fun m l => m.setLaneCode l 2) m = x at hstart ⊢
  rw [List.foldl_cons, List.foldl_nil]
  exact hstart.enter (List.mem_singleton.2 rfl) List.not_mem_nil hl

theorem Mach.enterAll_both (m : Mach) (r : Restart) (ha : m.live .a = true) (hb : m.live .b = true) :
    m.Entered r [.a, .b] [.a, .b] (m.enterAll r [.a, .b]) := by
  have hstart := Mach.Entered.start m r [.a, .b]
  unfold Mach.enterAll
  generalize [Lane.a, .b].foldl (fun m l => m.setLaneCode l 2) m = x at hstart ⊢
  rw [List.foldl_cons, List.foldl_cons, List.foldl_nil]
  have hfirst := hstart.enter (l := .a) (by decide) List.not_mem_nil ha
  generalize x.enterRestart r .a = y at hfirst ⊢
  exact hfirst.enter (l := .b) (by decide) (by decide) hb
end

/-! The restart counted and shown. -/

/-- A field of the lanes' status beside the one that is written. -/
theorem Mach.setFld_laneCode (m : Mach) {hi lo v : Nat} (h : lo ≤ hi) (hh : hi < 32) (hd : hi < 7 ∨ 12 < lo) (x : Lane) :
    (m.setFld Reg.LANE_STATUS hi lo v).laneCode x = m.laneCode x := by
  cases x
  · exact Mach.fld_setFld_other m _ h hh (by decide) (.inr (by omega))
  · exact Mach.fld_setFld_other m _ h hh (by decide) (.inr (by omega))

theorem Mach.showHold_laneCode (m : Mach) (x : Lane) : m.showHold.laneCode x = m.laneCode x :=
  (Mach.setFld_laneCode _ (le_refl 14) (by decide) (.inr (by decide)) x).trans
    (Mach.setFld_laneCode m (le_refl 15) (by decide) (.inr (by decide)) x)

theorem Mach.showHold_rd_other (m : Mach) {b : Nat} (h : b ≠ Reg.LANE_STATUS) : m.showHold.rd b = m.rd b := by
  unfold Mach.showHold
  dsimp only
  rw [Mach.rd_setBit, if_neg h, Mach.rd_setBit, if_neg h]

theorem Mach.showHold_arr (m : Mach) : m.showHold.arr = m.arr :=
  (Mach.fld_setBit_other _ _ (by decide) (by decide) (.inr (by decide))).trans
    (Mach.fld_setBit_other m _ (by decide) (by decide) (.inr (by decide)))

/-- Of `m` the restart `r` of the lanes `ls` has made `m'`. -/
structure Mach.RestartMade (r : Restart) (ls : List Lane) (m m' : Mach) : Prop where
  tells : m.Says (ls.flatMap m.resetTold) m'
  lanes : ∀ l, m'.lanes.get l =
    if l ∈ ls then LaneState.restarting r (m.replayFrom l) ((m.lanes.get l).reset m.now) else m.lanes.get l
  codes : ∀ l, m'.laneCode l = if l ∈ ls then 2 else m.laneCode l
  held : ∀ k, k < 16 → m.hasSlot k = true → (∃ l ∈ ls, m.runsSlot l k = true) → k < m.lane.slots.length →
    (m'.sv k).held = !(m.sv k).forcedSafe ∧ (m'.sv k).heldCount = 0
  counts : m'.fld Reg.LANE_FAULTS 31 24 = min (m.fld Reg.LANE_FAULTS 31 24 + 1) 0xFF
  arr : m'.arr = m.arr
  pend : m'.lane.pendRestart = none
  handover : m'.lane.handover = m.lane.handover
  sys : m'.sys = m.sys

theorem Mach.restartCounted_rd (m : Mach) (b : Nat) :
    m.restartCounted.rd b = ((m.incSat Reg.LANE_FAULTS 31 24).setFld Reg.LANE_STATUS 31 24 0).rd b := Mach.onLb_rd ..

theorem Mach.restartCounted_laneCode (m : Mach) (l : Lane) : m.restartCounted.laneCode l = m.laneCode l := by
  rw [Mach.laneCode_congr (m.restartCounted_rd _), Mach.setFld_laneCode _ (by decide) (by decide) (.inr (by decide)),
    Mach.laneCode_congr (m' := m.incSat ..) ((Mach.rd_setFld ..).trans (if_neg (by decide)))]

theorem Mach.restartCounted_arr (m : Mach) : m.restartCounted.arr = m.arr := by
  rw [Mach.arr, Mach.fld, m.restartCounted_rd, ← Mach.fld,
    Mach.fld_setFld_other _ _ (by decide) (by decide) (by decide) (.inr (by decide)), Mach.incSat,
    Mach.fld_setFld_other m _ (by decide) (by decide) (by decide) (.inl (by decide)), Mach.arr]

theorem Mach.restartCounted_counts (m : Mach) :
    m.restartCounted.fld Reg.LANE_FAULTS 31 24 = min (m.fld Reg.LANE_FAULTS 31 24 + 1) 0xFF := by
  rw [Mach.fld, m.restartCounted_rd, ← Mach.fld,
    Mach.fld_setFld_other _ _ (by decide) (by decide) (by decide) (.inl (by decide)), Mach.fld_incSat _ (by decide) (by decide)]
  rfl

/-- The machine before and after the hold, but for its slots. -/
theorem Mach.holdSlots_beside (m : Mach) (slots : List Nat) :
    (∀ b, (m.holdSlots slots).rd b = m.rd b) ∧ m.Says [] (m.holdSlots slots) ∧ (m.holdSlots slots).lanes = m.lanes ∧
      (m.holdSlots slots).sys = m.sys ∧ (m.holdSlots slots).lane.handover = m.lane.handover ∧ (m.holdSlots slots).chg = m.chg := by
  obtain ⟨x, hx⟩ := m.holdSlots_eq slots
  rw [hx]
  exact ⟨Mach.onLb_rd _ _, (Mach.Says.refl m).onLb _, rfl, rfl, rfl, rfl⟩

theorem Mach.Entered.made {m₀ m m' : Mach} {r : Restart} {ls : List Lane} {slots : List Nat} (h : m.Entered r ls ls m')
    (hm : m = m₀.holdSlots slots)
    (hslots : ∀ k, k < 16 → m₀.hasSlot k = true → (∃ l ∈ ls, m₀.runsSlot l k = true) → k ∈ slots) :
    m₀.RestartMade r ls m'.restartCounted := by
  obtain ⟨hrd, hstart, hlanes, hsys, hhand, -⟩ := m₀.holdSlots_beside slots
  have hheld := fun {k} hk hlen => m₀.holdSlots_held slots (k := k) hk hlen
  subst hm
  generalize m₀.holdSlots slots = m at h hrd hstart hlanes hsys hhand hheld
  have hcodes : ∀ l, m.laneCode l = m₀.laneCode l := fun l => Mach.laneCode_congr (hrd _) l
  have htold : m.resetTold = m₀.resetTold := funext fun l =>
    hstart.resetTold_eq (by simp only [Mach.replayed, hcodes]) (hrd _)
  have htells : m₀.Says (ls.flatMap m₀.resetTold) m' := by
    have hall := hstart.trans h.tells
    rwa [List.nil_append, htold] at hall
  have hnow : m.now = m₀.now := hstart.now
  refine ⟨((htells.wr (by decide) _).wr (by decide) _).onLb _, fun l => ?_, fun l => ?_, fun k hk hhas hruns hlen => ?_,
    ?_, ?_, rfl, h.beside.handover.trans hhand, h.beside.sys.trans hsys⟩
  · have hlane := h.lanes l
    rw [Mach.replayFrom, hlanes, hnow] at hlane
    exact hlane
  · rw [m'.restartCounted_laneCode, h.codes l, hcodes]
  · have hsv : m'.restartCounted.sv k = m.sv k := congrArg (nth · k) h.beside.slots
    rw [hsv]
    exact hheld (hslots k hk hhas hruns) hlen
  · rw [m'.restartCounted_counts, Mach.fld, h.counts, hrd, Mach.fld]
  · rw [m'.restartCounted_arr, h.arr, Mach.arr, Mach.fld, hrd, Mach.arr, Mach.fld]

theorem Mach.RestartMade.shown {m m' : Mach} {r : Restart} {ls : List Lane} (h : m.RestartMade r ls m') :
    m.RestartMade r ls m'.showHold where
  tells := h.tells.regs m'.bare_showHold fun b hb => m'.showHold_rd_other (by
    revert b
    decide)
  lanes := h.lanes
  codes l := (m'.showHold_laneCode l).trans (h.codes l)
  held := h.held
  counts := (congrArg (Word.bits · 31 24) (m'.showHold_rd_other (by decide))).trans h.counts
  arr := m'.showHold_arr.trans h.arr
  pend := h.pend
  handover := h.handover
  sys := h.sys

/-- The slots of a restart are those that its lanes run. -/
theorem Mach.mem_restartSlots {m : Mach} {ls : List Lane} {k : Nat} (hk : k < 16) (hhas : m.hasSlot k = true)
    (hruns : ∃ l ∈ ls, m.runsSlot l k = true) : k ∈ m.mapped.filter fun k => ls.any fun l => m.runsSlot l k := by
  obtain ⟨l, hl, hrun⟩ := hruns
  exact List.mem_filter.2 ⟨List.mem_filter.2 ⟨List.mem_range.2 hk, hhas⟩, List.any_eq_true.2 ⟨l, hl, hrun⟩⟩

section
variable (m : Mach) (t : Nat) (planned : Bool)

omit t planned in
theorem Mach.zAbort_none {m : Mach} (h : m.chg.zRun = none) : m.zAbort = m := by
  unfold Mach.zAbort
  rw [h]

/-- A usable checkpoint of a tick before `t`. -/
def Mach.checkpointBefore (m : Mach) (t : Nat) (l : Lane) : Prop := ∃ c, (m.lanes.get l).newest = some c ∧ c.tick < t

theorem Mach.holdSlots_live (slots : List Nat) (l : Lane) : (m.holdSlots slots).live l = m.live l := by
  obtain ⟨x, hx⟩ := m.holdSlots_eq slots
  rw [hx]
  rfl

theorem Mach.beginRestart_one {l : Lane} (hl : m.live l = true) (hc : m.checkpointBefore t l) :
    m.RestartMade (restartOf [l] t planned) [l] (m.beginRestart [l] t planned) := by
  obtain ⟨c, hnew, htick⟩ := hc
  have hlive := (m.holdSlots_live (m.mapped.filter fun k => [l].any fun l => m.runsSlot l k) l).trans hl
  have hmade := (Mach.enterAll_one _ (restartOf [l] t planned) hlive).made rfl fun k => Mach.mem_restartSlots
  rw [Mach.beginRestart_eq, if_pos (by simp [hnew, htick])]
  exact hmade.shown

theorem Mach.beginRestart_both (ha : m.live .a = true) (hb : m.live .b = true) (hz : m.chg.zRun = none)
    (hca : m.checkpointBefore t .a) (hcb : m.checkpointBefore t .b) :
    m.RestartMade (restartOf [.a, .b] t planned) [.a, .b] (m.beginRestart [.a, .b] t planned) := by
  obtain ⟨x, hx, hxt⟩ := hca
  obtain ⟨y, hy, hyt⟩ := hcb
  have hheld := m.holdSlots_beside (m.mapped.filter fun k => [Lane.a, .b].any fun l => m.runsSlot l k)
  have hlive := m.holdSlots_live (m.mapped.filter fun k => [Lane.a, .b].any fun l => m.runsSlot l k)
  have hent := Mach.enterAll_both _ (restartOf [.a, .b] t planned) ((hlive .a).trans ha) ((hlive .b).trans hb)
  have hmade := hent.made rfl fun k => Mach.mem_restartSlots
  have hzent := (congrArg ChgState.zRun (hent.beside.chg.trans hheld.2.2.2.2.2)).trans hz
  rw [Mach.beginRestart_eq, if_pos (by simp [hx, hy, hxt, hyt])]
  unfold Mach.restartBegun
  dsimp only
  rw [if_pos (by rfl), Mach.zAbort_none hzent]
  exact hmade.shown
end

end Sys2Proof.Machine
end

section
/-! LANE_RECOVERY_START: what a fault of a lane leads to (R322, R335, R336, R459). -/

namespace Sys2Proof.Machine

variable {s : State} {cyc : Nat}

theorem resetTells_eq (s : State) (cyc : Nat) (l : Lane) : (s.at cyc).resetTold l = resetTells s cyc l := rfl

theorem State.at_laneCode (s : State) (cyc : Nat) (l : Lane) : (s.at cyc).laneCode l = s.m.laneCode l :=
  Mach.laneCode_congr (State.at_rd ..) l

theorem State.at_live (s : State) (cyc : Nat) (l : Lane) : (s.at cyc).live l = s.m.live l := congrArg (· == 1) (s.at_laneCode cyc l)

/-! ### What a lane's F2 event leads to -/

section
variable {m : Mach} {l : Lane} {t : Nat}

theorem Mach.laneRecovery_none (h : (m.lanes.get l).f2 = false ∨ m.laneCode l = 0 ∨ m.laneCode l = 6) : m.laneRecovery l t = m :=
  if_pos (h.elim (fun h => .inl (by rw [h]; rfl)) fun h => .inr h.symm)

variable (hf2 : (m.lanes.get l).f2 = true) (h0 : m.laneCode l ≠ 0) (h6 : m.laneCode l ≠ 6)
include hf2 h0 h6

theorem Mach.laneRecovery_paired (ho : m.live l.other = true) (harr : m.arr = 1) (hr : (m.lanes.get l).restart = none)
    (hro : (m.lanes.get l.other).restart = none) : m.laneRecovery l t = m.recoverCounted l t := by
  have hfault : ¬((!(m.lanes.get l).f2) = true ∨ m.laneCode l = 6 ∨ m.laneCode l = 0) := by simp [hf2, h0, h6]
  exact (if_neg hfault).trans ((if_neg (by rw [hr]; decide)).trans (if_pos ⟨harr, ho, by rw [hro]; rfl⟩))

theorem Mach.laneRecovery_restarting {r : Restart} (hr : (m.lanes.get l).restart = some r) (hfew : m.recentFaults l < 3) :
    m.laneRecovery l t =
      let x := (m.countFault l).waitReset l
      if (x.lanes.get l.other).restart.isNone ∧ !x.live l.other then x.raiseF4 0x3009 else x := by
  have hfault : ¬((!(m.lanes.get l).f2) = true ∨ m.laneCode l = 6 ∨ m.laneCode l = 0) := by simp [hf2, h0, h6]
  exact (if_neg hfault).trans ((if_pos (by rw [hr]; rfl)).trans (if_neg (by rw [Mach.countFault_length]; omega)))

theorem Mach.laneRecovery_alone (hl : m.live l = true) (hr : (m.lanes.get l).restart = none)
    (ho : m.arr ≠ 1 ∨ m.live l.other = false ∨ (m.lanes.get l.other).restart ≠ none) :
    m.laneRecovery l t =
      ((if (m.lanes.get l.other).step ≠ .none then m.waitReset l.other else m).restartEvent 4 t).beginRestart [l] t false := by
  have hfault : ¬((!(m.lanes.get l).f2) = true ∨ m.laneCode l = 6 ∨ m.laneCode l = 0) := by simp [hf2, h0, h6]
  have hpair : ¬(m.arr = 1 ∧ m.live l.other = true ∧ (m.lanes.get l.other).restart.isNone = true) := by
    rintro ⟨harr, hlive, hrest⟩
    rw [hlive] at ho
    exact ho.elim (· harr) fun h => h.elim nofun (· (Option.isNone_iff_eq_none.1 hrest))
  exact (if_neg hfault).trans ((if_neg (by rw [hr]; decide)).trans ((if_neg hpair).trans (if_pos hl)))

theorem Mach.laneRecovery_waits (hl : m.live l = false) (hr : (m.lanes.get l).restart = none)
    (ho : m.arr ≠ 1 ∨ m.live l.other = false ∨ (m.lanes.get l.other).restart ≠ none) : m.laneRecovery l t = m.waitReset l := by
  have hfault : ¬((!(m.lanes.get l).f2) = true ∨ m.laneCode l = 6 ∨ m.laneCode l = 0) := by simp [hf2, h0, h6]
  have hpair : ¬(m.arr = 1 ∧ m.live l.other = true ∧ (m.lanes.get l.other).restart.isNone = true) := by
    rintro ⟨harr, hlive, hrest⟩
    rw [hlive] at ho
    exact ho.elim (· harr) fun h => h.elim nofun (· (Option.isNone_iff_eq_none.1 hrest))
  exact (if_neg hfault).trans ((if_neg (by rw [hr]; decide)).trans ((if_neg hpair).trans (if_neg (by rw [hl]; decide))))
end

/-! ### LANE_RECOVERY_START -/

/-- A lane whose fault is counted and that is isolated. -/
theorem Mach.countIsolate {m : Mach} {l : Lane} (ho : m.live l.other = true) (harr : m.arr = 1) :
    m.Says (m.resetTold l ++ [eventAt m 0x3008 1 0xFF [] 0]) ((m.countFault l).isolate l) ∧
      ((m.countFault l).isolate l).laneCode l = 6 ∧ ((m.countFault l).isolate l).live l.other = true ∧
      ((m.countFault l).isolate l).bit Reg.SYS_MODE_STAT 11 = m.tick.running := by
  have hsays := m.countFault_says l
  have htold := m.countFault_resetTold l
  have hlive : (m.countFault l).live l.other = true := (congrArg (· == 1) (m.countFault_laneCode l l.other)).trans ho
  have harr' : (m.countFault l).arr = 1 := (congrArg (Word.bits · 5 4) (m.countFault_rd_other l (by cases l <;> decide))).trans harr
  have hevent := hsays.eventAt_eq (o := 0) (by rw [Mach.replayed_zero, Mach.replayed_zero]) 0x3008 1 0xFF []
  have hrunning : (m.countFault l).tick.running = m.tick.running := hsays.running
  generalize m.countFault l = x at hsays htold hlive harr' hevent hrunning
  obtain ⟨hcode, hother, hdegraded⟩ := x.isolate_shown l hlive harr'
  refine ⟨?_, hcode, hother, hdegraded.trans hrunning⟩
  rw [← htold, ← hevent]
  exact hsays.trans (x.isolate_says l hlive harr')

theorem Mach.Says.raiseF4 {m m₁ : Mach} {es : List Event} (h : m.Says es m₁) (code : Nat) :
    m.Says (es ++ [eventAt m code 4 0xFF [] 0]) (m₁.raiseF4 code) where
  now := h.now
  cyc := h.cyc
  running := h.running
  clock b hb := (Mach.raiseF4_rd (by revert b; decide) code).trans (h.clock b hb)
  raised := by
    rw [Mach.raiseF4_raised, h.raised, List.append_assoc, h.eventAt_eq (by rw [Mach.replayed_zero, Mach.replayed_zero])]

theorem waitsInReset_of_settle {t : State} {m : Mach} {l : Lane} (hm : t.m = m.settle)
    (h : m.laneCode l = 2 ∧ (m.lanes.get l).restart = none ∧ (m.lanes.get l).afterwards = true) : WaitsInReset t l := by
  obtain ⟨hcode, hrestart, hafter⟩ := h
  have hlanes : t.m.lanes = m.lanes := (congrArg Mach.lanes hm).trans (Mach.settle_lanes _)
  exact ⟨by rw [hm, Mach.settle_laneCode, hcode], by rw [hlanes, hrestart], by rw [hlanes, hafter]⟩

theorem exec_laneRecoveryStart_recovers {l : Lane} (hf2 : (s.m.lanes.get l).f2 = true) (h0 : s.m.laneCode l ≠ 0)
    (h6 : s.m.laneCode l ≠ 6) (ho : s.m.live l.other = true) (harr : s.m.arr = 1) (hr : (s.m.lanes.get l).restart = none)
    (hro : (s.m.lanes.get l.other).restart = none) (hfew : faultsBefore s cyc l < 3) :
    ∃ t, exec (.laneRecoveryStart cyc l) s = .next t ∧ Recovers s t l (faultsBefore s cyc l) ∧ Raises s t (resetTells s cyc l) := by
  have hf : (s.at cyc).laneRecovery l s.m.seq = ((s.at cyc).countFault l).recover l s.m.seq :=
    (Mach.laneRecovery_paired (m := s.at cyc) hf2 h0 h6 ho harr hr hro).trans ((s.at cyc).recoverCounted_recovers l _ hfew)
  obtain ⟨t, ht, hm, hev, hmem⟩ := run_says (s := s) (cyc := cyc) (f := fun m => m.laneRecovery l m.seq) hf ((s.at cyc).recover_says l _)
  exact ⟨t, ht, ((s.at cyc).recover_recovered l s.m.seq hfew).recovers (s.at_laneCode cyc) hm hmem, hev⟩

theorem exec_laneRecoveryStart_isolates {l : Lane} (hf2 : (s.m.lanes.get l).f2 = true) (h0 : s.m.laneCode l ≠ 0)
    (h6 : s.m.laneCode l ≠ 6) (ho : s.m.live l.other = true) (harr : s.m.arr = 1) (hr : (s.m.lanes.get l).restart = none)
    (hro : (s.m.lanes.get l.other).restart = none) (hmany : 3 ≤ faultsBefore s cyc l) :
    ∃ t, exec (.laneRecoveryStart cyc l) s = .next t ∧ t.m.laneCode l = 6 ∧ t.m.live l.other = true ∧
      Raises s t (resetTells s cyc l ++ [eventAt (s.at cyc) 0x3008 1 0xFF [] 0]) ∧
      t.m.bit Reg.SYS_MODE_STAT 11 = s.m.tick.running ∧ SameMemory s t := by
  have hf : (s.at cyc).laneRecovery l s.m.seq = ((s.at cyc).countFault l).isolate l :=
    (Mach.laneRecovery_paired (m := s.at cyc) hf2 h0 h6 ho harr hr hro).trans ((s.at cyc).recoverCounted_isolates l _ hmany)
  obtain ⟨hsays, hcode, hlive, hdegraded⟩ := Mach.countIsolate (m := s.at cyc) (l := l) ho harr
  obtain ⟨t, ht, hm, hev, hmem⟩ := run_says (s := s) (cyc := cyc) (f := fun m => m.laneRecovery l m.seq) hf hsays
  refine ⟨t, ht, ?_, ?_, hev, ?_, hmem⟩
  · rw [hm, Mach.settle_laneCode, hcode]
  · rw [hm, Mach.settle_live, hlive]
  · rw [hm, Mach.bit, Mach.settle_rd, ← Mach.bit, hdegraded]
    rfl

theorem Mach.raiseF4_lanes (m : Mach) (code : Nat) : (m.raiseF4 code).lanes = m.lanes := rfl

/-- A lane that faults in its restart waits in reset. -/
theorem Mach.countWait (m : Mach) (l : Lane) :
    m.Says (m.resetTold l) ((m.countFault l).waitReset l) ∧
      ((m.countFault l).waitReset l).lanes.get l.other = m.lanes.get l.other ∧
      ((m.countFault l).waitReset l).live l.other = m.live l.other ∧ ((m.countFault l).waitReset l).sys = m.sys := by
  have hsays := m.countFault_says l
  have htold := m.countFault_resetTold l
  have hcode := m.countFault_laneCode l l.other
  have hlanes : (m.countFault l).lanes.get l.other = m.lanes.get l.other := by
    rw [Mach.countFault_lanes, Two.get_set_other _ _ (by cases l <;> decide)]
  have hsys : (m.countFault l).sys = m.sys := rfl
  generalize m.countFault l = x at hsays htold hcode hlanes hsys
  refine ⟨?_, (x.waitReset_other l).trans hlanes, congrArg (· == 1) ((x.waitReset_laneCode_other l).trans hcode),
    (x.waitReset_beside l).sys.trans hsys⟩
  rw [← htold]
  exact hsays.trans (x.waitReset_says l)

theorem exec_laneRecoveryStart_restarting {l : Lane} {r : Restart} (hf2 : (s.m.lanes.get l).f2 = true) (h0 : s.m.laneCode l ≠ 0)
    (h6 : s.m.laneCode l ≠ 6) (hr : (s.m.lanes.get l).restart = some r) (hfew : faultsBefore s cyc l < 3) :
    ∃ t, exec (.laneRecoveryStart cyc l) s = .next t ∧ WaitsInReset t l ∧
      Raises s t (resetTells s cyc l ++ (if (s.m.lanes.get l.other).restart = none ∧ s.m.live l.other = false then
        [eventAt (s.at cyc) 0x3009 4 0xFF [] 0] else [])) ∧
      ((s.m.lanes.get l.other).restart = none → s.m.live l.other = false → t.m.sys.f4 = some (s.m.sys.f4.getD 0x3009)) ∧
      SameMemory s t := by
  obtain ⟨hsays, hlane, hlive, hsys⟩ := (s.at cyc).countWait l
  have hwaits := ((s.at cyc).countFault l).waitReset_waits l
  have hf := Mach.laneRecovery_restarting (m := s.at cyc) (t := s.m.seq) hf2 h0 h6 hr hfew
  generalize ((s.at cyc).countFault l).waitReset l = x at hsays hlane hlive hsys hwaits hf
  have hiff : ((x.lanes.get l.other).restart.isNone = true ∧ (!x.live l.other) = true) ↔
      ((s.m.lanes.get l.other).restart = none ∧ s.m.live l.other = false) := by
    rw [hlane, hlive, Bool.not_eq_true', Option.isNone_iff_eq_none]
    exact Iff.rfl
  by_cases h : (s.m.lanes.get l.other).restart = none ∧ s.m.live l.other = false
  · replace hf := hf.trans (if_pos (hiff.2 h))
    obtain ⟨t, ht, hm, hev, hmem⟩ := run_says (s := s) (cyc := cyc) (f := fun m => m.laneRecovery l m.seq) hf (hsays.raiseF4 0x3009)
    rw [← x.raiseF4_lanes 0x3009, ← Mach.laneCode_congr (x.raiseF4_rd (by decide) 0x3009) l] at hwaits
    refine ⟨t, ht, waitsInReset_of_settle hm hwaits, ?_, fun _ _ => ?_, hmem⟩
    · rw [if_pos h]
      exact hev
    · rw [hm, Mach.settle_sys, Mach.raiseF4_sys, hsys]
      rfl
  · replace hf := hf.trans (if_neg fun hx => h (hiff.1 hx))
    obtain ⟨t, ht, hm, hev, hmem⟩ := run_says (s := s) (cyc := cyc) (f := fun m => m.laneRecovery l m.seq) hf hsays
    refine ⟨t, ht, waitsInReset_of_settle hm hwaits, ?_, fun hrest hl => absurd ⟨hrest, hl⟩ h, hmem⟩
    rw [if_neg h, List.append_nil]
    exact hev

theorem exec_laneRecoveryStart_waits {l : Lane} (hf2 : (s.m.lanes.get l).f2 = true) (h0 : s.m.laneCode l ≠ 0)
    (h6 : s.m.laneCode l ≠ 6) (hl : s.m.live l = false) (hr : (s.m.lanes.get l).restart = none)
    (ho : s.m.arr ≠ 1 ∨ s.m.live l.other = false ∨ (s.m.lanes.get l.other).restart ≠ none) :
    ∃ t, exec (.laneRecoveryStart cyc l) s = .next t ∧ WaitsInReset t l ∧ Raises s t (resetTells s cyc l) ∧ SameMemory s t := by
  obtain ⟨t, ht, hm, hev, hmem⟩ := run_says (s := s) (cyc := cyc) (f := fun m => m.laneRecovery l m.seq)
    (Mach.laneRecovery_waits (m := s.at cyc) (t := s.m.seq) hf2 h0 h6 hl hr ho) ((s.at cyc).waitReset_says l)
  exact ⟨t, ht, waitsInReset_of_settle hm ((s.at cyc).waitReset_waits l), hev, hmem⟩

theorem exec_laneRecoveryStart_none {l : Lane} (h : (s.m.lanes.get l).f2 = false ∨ s.m.laneCode l = 0 ∨ s.m.laneCode l = 6) :
    ∃ t, exec (.laneRecoveryStart cyc l) s = .next t ∧ t.m.lanes = s.m.lanes ∧ Quiet s t [] := by
  obtain ⟨t, ht, hm, hquiet⟩ := run_idle (s := s) (cyc := cyc) (f := fun m => m.laneRecovery l m.seq)
    (Mach.laneRecovery_none (m := s.at cyc) h)
  exact ⟨t, ht, by rw [hm, Mach.settle_lanes]; rfl, hquiet⟩

/-! The restart of a lane alone (R335). -/

/-- The event of a restart. -/
theorem Mach.Says.restartEvent {m m₁ : Mach} {es : List Event} (h : m.Says es m₁) (cause t : Nat) :
    m.Says (es ++ [eventAt m 0x3005 2 0xFF (cause :: leBytes 4 t) 0]) (m₁.restartEvent cause t) :=
  (h.raise (by rw [Mach.replayed_zero, Mach.replayed_zero]) 0x3005 2 0xFF _).laneIrq 3

theorem Mach.restartEvent_rd (m : Mach) (cause t : Nat) {b : Nat} (ha : b ≠ Reg.LANE_L_IRQ_STAT 0) (hb : b ≠ Reg.LANE_L_IRQ_STAT 1) :
    (m.restartEvent cause t).rd b = m.rd b := by
  rw [Mach.restartEvent, Mach.laneIrq, Mach.rd_orrBoth_other _ ha hb, Mach.raise_rd]

theorem Mach.restartEvent_lanes (m : Mach) (cause t : Nat) : (m.restartEvent cause t).lanes = m.lanes := rfl

theorem Mach.restartEvent_beside (m : Mach) (cause t : Nat) : m.Beside (m.restartEvent cause t) := ⟨rfl, rfl, rfl, rfl, rfl, rfl⟩

/-- The other lane, where it recovers, waits for the one that restarts alone. -/
def Mach.partnerWaits (m : Mach) (l : Lane) : Mach := if (m.lanes.get l.other).step ≠ .none then m.waitReset l.other else m

/-- What is left of the machine where the restart of lane `l` alone begins. -/
structure Mach.Partnered (l : Lane) (m m' : Mach) : Prop where
  tells : m.Says (if (m.lanes.get l.other).step = .none then [] else m.resetTold l.other) m'
  beside : m.Beside m'
  self : m'.lanes.get l = m.lanes.get l
  code : m'.laneCode l = m.laneCode l
  arr : m'.arr = m.arr
  counts : m'.rd Reg.LANE_FAULTS = m.rd Reg.LANE_FAULTS
  inj : m'.rd (Reg.LAW_INJ_STAT l.ix) = m.rd (Reg.LAW_INJ_STAT l.ix)
  waits : (m.lanes.get l.other).step ≠ .none → m'.laneCode l.other = 2 ∧ (m'.lanes.get l.other).restart = none ∧
    (m'.lanes.get l.other).afterwards = true

theorem Mach.partnerWaits_partnered (m : Mach) (l : Lane) : m.Partnered l (m.partnerWaits l) := by
  unfold Mach.partnerWaits
  by_cases h : (m.lanes.get l.other).step = .none
  · rw [if_neg (not_not.2 h)]
    exact ⟨by rw [if_pos h]; exact .refl m, .refl m, rfl, rfl, rfl, rfl, rfl, fun hx => absurd h hx⟩
  · have hkept : keptByReset l.other Reg.LANE_FAULTS = true ∧ Reg.LANE_FAULTS ∉ stateRegs l.other ∧
        keptByReset l.other (Reg.LAW_INJ_STAT l.ix) = true ∧ Reg.LAW_INJ_STAT l.ix ∉ stateRegs l.other := by
      cases l <;> decide
    obtain ⟨hfaults, hfaults', hinj, hinj'⟩ := hkept
    have hoo : l.other.other = l := by cases l <;> rfl
    have hself := m.waitReset_other l.other
    have hcode := m.waitReset_laneCode_other l.other
    rw [hoo] at hself hcode
    rw [if_pos h]
    refine ⟨by rw [if_neg h]; exact m.waitReset_says _, m.waitReset_beside _, hself, hcode, ?_, ?_, ?_, fun _ => m.waitReset_waits _⟩
    · rw [Mach.waitReset_eq, Mach.resetTo_arr]
    · rw [Mach.waitReset_eq, Mach.resetTo_rd _ _ _ _ hfaults hfaults']
    · rw [Mach.waitReset_eq, Mach.resetTo_rd _ _ _ _ hinj hinj']

/-- The slots of the image, and who runs them. -/
theorem Mach.Beside.runs {m m' : Mach} (h : m.Beside m') (harr : m'.arr = m.arr) (l : Lane) (k : Nat) :
    m'.hasSlot k = m.hasSlot k ∧ m'.runsSlot l k = m.runsSlot l k ∧ m'.sv k = m.sv k ∧ m'.lane.slots = m.lane.slots := by
  have hentry : m'.slotEntry k = m.slotEntry k := by rw [Mach.slotEntry, h.image, Mach.slotEntry]
  refine ⟨by rw [Mach.hasSlot, hentry, Mach.hasSlot], ?_, congrArg (nth · k) h.slots, h.slots⟩
  rw [Mach.runsSlot, Mach.runsSlot, hentry, harr]

theorem exec_laneRecoveryStart_alone {l : Lane} {c : Checkpoint} (hf2 : (s.m.lanes.get l).f2 = true) (hl : s.m.live l = true)
    (hr : (s.m.lanes.get l).restart = none)
    (ho : s.m.arr ≠ 1 ∨ s.m.live l.other = false ∨ (s.m.lanes.get l.other).restart ≠ none)
    (hc : (s.m.lanes.get l).newest = some c) (htick : c.tick < s.m.seq) :
    ∃ t, exec (.laneRecoveryStart cyc l) s = .next t ∧ t.m.laneCode l = 2 ∧
      (t.m.lanes.get l).restart = some ⟨s.m.seq, false, false, false, 0, 0, true, 0⟩ ∧ (t.m.lanes.get l).next = c.tick + 1 ∧
      ((s.m.lanes.get l.other).step ≠ .none → WaitsInReset t l.other) ∧
      (∀ k : Fin 16, s.m.runsSlot l k = true → s.m.hasSlot k = true → k < s.m.lane.slots.length →
        (t.m.sv k).held = !(s.m.sv k).forcedSafe ∧ (t.m.sv k).heldCount = 0) ∧
      t.m.fld Reg.LANE_FAULTS 31 24 = min (s.m.fld Reg.LANE_FAULTS 31 24 + 1) 0xFF ∧
      Raises s t ((if (s.m.lanes.get l.other).step = .none then [] else resetTells s cyc l.other) ++
        [eventAt (s.at cyc) 0x3005 2 0xFF (4 :: leBytes 4 s.m.seq) 0] ++ resetTells s cyc l) ∧ SameMemory s t := by
  have hcode : s.m.laneCode l = 1 := eq_of_beq hl
  have hne : l.other ∉ [l] := by cases l <;> decide
  have hf := Mach.laneRecovery_alone (m := s.at cyc) (t := s.m.seq) hf2 (by rw [s.at_laneCode, hcode]; decide)
    (by rw [s.at_laneCode, hcode]; decide) hl hr ho
  have hpart := (s.at cyc).partnerWaits_partnered l
  have hdef : (s.at cyc).partnerWaits l =
    if ((s.at cyc).lanes.get l.other).step ≠ .none then (s.at cyc).waitReset l.other else s.at cyc := rfl
  rw [← hdef] at hf
  generalize (s.at cyc).partnerWaits l = w at hf hpart
  have htold := hpart.tells.restartEvent 4 s.m.seq
  have hbeside := hpart.beside.trans (w.restartEvent_beside 4 s.m.seq)
  have hlanes := w.restartEvent_lanes 4 s.m.seq
  have hrd := fun {b} ha hb => w.restartEvent_rd 4 s.m.seq (b := b) ha hb
  generalize w.restartEvent 4 s.m.seq = x at hf htold hbeside hlanes hrd
  have hxcode : ∀ y, x.laneCode y = w.laneCode y := fun y => Mach.laneCode_congr (hrd (by decide) (by decide)) y
  have hxlive : x.live l = true := beq_iff_eq.2 ((hxcode l).trans (hpart.code.trans ((s.at_laneCode cyc l).trans hcode)))
  have hxself : x.lanes.get l = s.m.lanes.get l := (congrArg (Two.get · l) hlanes).trans hpart.self
  have hxarr : x.arr = s.m.arr := (congrArg (Word.bits · 5 4) (hrd (by decide) (by decide))).trans hpart.arr
  have hmade := Mach.beginRestart_one x s.m.seq false hxlive ⟨c, by rw [hxself]; exact hc, htick⟩
  have hreset : x.resetTold l = resetTells s cyc l := by
    have hreplayed : x.replayed l.origin = (s.at cyc).replayed l.origin := by
      rw [Mach.not_replayed_of_live hxlive, Mach.not_replayed_of_live ((s.at_live cyc l).trans hl)]
    exact htold.resetTold_eq hreplayed ((hrd (by cases l <;> decide) (by cases l <;> decide)).trans hpart.inj)
  have hsays := htold.trans hmade.tells
  rw [List.flatMap_singleton, hreset] at hsays
  obtain ⟨t, ht, hm, hev, hmem⟩ := run_says (s := s) (cyc := cyc) (f := fun m => m.laneRecovery l m.seq) hf hsays
  have htl := (congrArg Mach.lanes hm).trans (Mach.settle_lanes _)
  have hlane := (congrArg (Two.get · l) htl).trans (hmade.lanes l)
  have hother := (congrArg (Two.get · l.other) htl).trans (hmade.lanes l.other)
  have hcodes := fun y => (congrArg (Mach.laneCode · y) hm).trans ((Mach.settle_laneCode _ y).trans (hmade.codes y))
  rw [if_pos (List.mem_singleton.2 rfl)] at hlane
  rw [if_neg hne, hlanes] at hother
  refine ⟨t, ht, (hcodes l).trans (if_pos (List.mem_singleton.2 rfl)), ?_, ?_, fun hstep => ?_, fun k hruns hhas hlen => ?_, ?_, hev, hmem⟩
  · rw [hlane]
    rfl
  · rw [hlane, LaneState.restarting, Mach.replayFrom, hxself, hc]
    rfl
  · obtain ⟨hocode, horest, hoafter⟩ := hpart.waits hstep
    exact ⟨(hcodes _).trans ((if_neg hne).trans ((hxcode _).trans hocode)), by rw [hother, horest], by rw [hother, hoafter]⟩
  · obtain ⟨hh, hrun, hsv, hslots⟩ := hbeside.runs hxarr l k
    have hheld := hmade.held k k.2 (hh.trans hhas) ⟨l, List.mem_singleton.2 rfl, hrun.trans hruns⟩ (by rw [hslots]; exact hlen)
    have htsv : t.m.sv k = _ := congrArg (nth · k.val) (congrArg LaneBlock.slots ((congrArg Mach.lane hm).trans (Mach.settle_lane _)))
    rw [htsv, ← Mach.sv]
    rw [hsv] at hheld
    exact hheld
  · rw [hm, Mach.settle_fld, hmade.counts, Mach.fld, hrd (by decide) (by decide), hpart.counts]
    rfl

end Sys2Proof.Machine
end

section
/-! Code check, checkpoint load, admission and time limit of a recovery, and the statement (R322 to R324, R439). -/

namespace Sys2Proof.Machine

variable {s : State} {cyc : Nat}

/-- A command that may move memory and tells `es`. -/
theorem runMem_says {s : State} {cyc : Nat} {f : Mach → List Host.Cell → Mach × List Host.Cell} {m : Mach} {mem : List Host.Cell}
    {es : List Event} (hf : f (s.at cyc) s.mem = (m, mem)) (h : (s.at cyc).Says es m) :
    ∃ t, runMem s cyc f = .next t ∧ t.m = m.settle ∧ t.mem = mem ∧ Raises s t es :=
  ⟨_, runMem_eq hf, rfl, rfl, h.raised⟩

/-- A command that may move memory and tells nothing. -/
theorem runMem_raises {s : State} {cyc : Nat} {f : Mach → List Host.Cell → Mach × List Host.Cell} {m : Mach} {mem : List Host.Cell}
    (hf : f (s.at cyc) s.mem = (m, mem)) (h : m.time.raised = (s.at cyc).time.raised) :
    ∃ t, runMem s cyc f = .next t ∧ t.m = m.settle ∧ t.mem = mem ∧ Raises s t [] :=
  ⟨_, runMem_eq hf, rfl, rfl, h.trans (List.append_nil _).symm⟩

/-! ### The code check (R322, R439) -/

/-- Memory after the check of lane `l`'s code: where it failed, the code of a LIVE other lane. -/
def codeMended (m : Mach) (mem : List Host.Cell) (l : Lane) : List Host.Cell :=
  let a := sramBase l + (m.codeRegion l).1
  if crc32c (Memory.readN mem a (m.codeRegion l).2) = m.image.codecrc ∨ m.live l.other = false then mem
  else Memory.writeL mem a (Memory.readN mem (sramBase l.other + (m.codeRegion l).1) (m.codeRegion l).2)

section
variable {m : Mach} {l : Lane} {mem : List Host.Cell}

theorem codeMended_eq : (if crc32c (Memory.readN mem (sramBase l + (m.codeRegion l).1) (m.codeRegion l).2) == m.image.codecrc ||
    !m.live l.other then mem else Memory.writeL mem (sramBase l + (m.codeRegion l).1)
      (Memory.readN mem (sramBase l.other + (m.codeRegion l).1) (m.codeRegion l).2)) = codeMended m mem l := by
  unfold codeMended
  simp only [Bool.or_eq_true, beq_iff_eq, Bool.not_eq_true']

theorem Mach.codeChecked_recovery (h : (m.lanes.get l).step = .check) (hr : (m.lanes.get l).restart = none) :
    m.codeChecked mem l = ((m.onLaw l fun x => { x with words := (m.law.get l.other).words }).onLane l fun s =>
      { s with step := .waitCkpt, waitFrom := m.seq }, codeMended m mem l) := by
  have hstep : ¬(m.lanes.get l).step ≠ .check := not_not.2 h
  rw [← codeMended_eq]
  exact (if_neg hstep).trans (if_neg (by rw [hr]; decide))

theorem Mach.codeChecked_restart (h : (m.lanes.get l).step = .check) (hr : (m.lanes.get l).restart ≠ none) :
    m.codeChecked mem l = ((m.onLane l fun s => { s with step := .none }).toState l 4, codeMended m mem l) := by
  have hstep : ¬(m.lanes.get l).step ≠ .check := not_not.2 h
  rw [← codeMended_eq]
  exact (if_neg hstep).trans (if_pos (Option.isSome_iff_ne_none.2 hr))
end

theorem exec_codeCheckComplete_recovery {l : Lane} (h : (s.m.lanes.get l).step = .check) (hr : (s.m.lanes.get l).restart = none) :
    ∃ t, exec (.codeCheckComplete cyc l) s = .next t ∧ (t.m.lanes.get l).step = .waitCkpt ∧ (t.m.lanes.get l).waitFrom = s.m.seq ∧
      (t.m.law.get l).words = (s.m.law.get l.other).words ∧ t.mem = codeMended s.m s.mem l ∧ SameRegsBut s t [] ∧ Raises s t [] := by
  obtain ⟨t, ht, hm, hmem, hregs, hev⟩ := runMem_tells (s := s) (cyc := cyc) (f := fun m mem => m.codeChecked mem l)
    (Mach.codeChecked_recovery (m := s.at cyc) h hr)
    (((Mach.FocTells.refl (s.at cyc) []).next (m₂ := (s.at cyc).onLaw l _) rfl rfl fun _ => rfl).onLane l _)
  have hlane := congrArg (Two.get · l) ((congrArg Mach.lanes hm).trans (Mach.settle_lanes _))
  refine ⟨t, ht, ?_, ?_, ?_, hmem, hregs, hev⟩
  · refine (congrArg LaneState.step hlane).trans ?_
    cases l <;> rfl
  · refine (congrArg LaneState.waitFrom hlane).trans ?_
    cases l <;> rfl
  · refine (congrArg LawLane.words (congrArg (Two.get · l) ((congrArg Mach.law hm).trans (Mach.settle_law _)))).trans ?_
    cases l <;> rfl

theorem exec_codeCheckComplete_restart {l : Lane} (h : (s.m.lanes.get l).step = .check) (hr : (s.m.lanes.get l).restart ≠ none) :
    ∃ t, exec (.codeCheckComplete cyc l) s = .next t ∧ (t.m.lanes.get l).step = .none ∧ t.m.laneCode l = 4 ∧ t.m.law = s.m.law ∧
      t.mem = codeMended s.m s.mem l ∧ Raises s t [] := by
  have hlanes := ((s.at cyc).onLane l fun x => { x with step := .none }).lanes_toState l 4
  have hcode := ((s.at cyc).onLane l fun x => { x with step := .none }).laneCode_toState l (c := 4) (by decide)
  have hlaw := Mach.law_of_bare (((s.at cyc).onLane l fun x => { x with step := .none }).bare_toState l 4)
  obtain ⟨t, ht, hm, hmem, hev⟩ := runMem_says (s := s) (cyc := cyc) (f := fun m mem => m.codeChecked mem l)
    (Mach.codeChecked_restart (m := s.at cyc) h hr) (((Mach.Says.refl (s.at cyc)).onLane l _).toState l 4)
  refine ⟨t, ht, ?_, ?_, ?_, hmem, hev⟩
  · rw [hm, Mach.settle_lanes, hlanes, Mach.onLane, Two.get_set_self]
  · rw [hm, Mach.settle_laneCode, hcode]
  · rw [hm, Mach.settle_law, hlaw]
    rfl

theorem exec_codeCheckComplete_none {l : Lane} (h : (s.m.lanes.get l).step ≠ .check) :
    ∃ t, exec (.codeCheckComplete cyc l) s = .next t ∧ t.m.lanes = s.m.lanes ∧ Quiet s t [] := by
  obtain ⟨t, ht, hm, hquiet⟩ := runMem_idle (s := s) (cyc := cyc) (f := fun m mem => m.codeChecked mem l) (if_pos h)
  exact ⟨t, ht, by rw [hm, Mach.settle_lanes]; rfl, hquiet⟩

/-! ### The checkpoint of the healthy lane (R322) -/

section
variable (m : Mach) (c : Checkpoint) (l : Lane)

/-- A lane's laws, motors and modulators are those of the checkpoint. -/
theorem Mach.restoreLane_parts : ((m.restoreLane c l).law.get l).slots = c.law ∧ (m.restoreLane c l).foc.get l = c.foc ∧
    (m.restoreLane c l).mod.get l = c.mod ∧ (m.restoreLane c l).lanes = m.lanes := by
  cases l <;> exact ⟨rfl, rfl, rfl, rfl⟩

/-- What a restored lane's own part is taken to be, in state `code`. -/
def Mach.restoredTo (m : Mach) (c : Checkpoint) (l : Lane) (f : LaneState → LaneState) (code : Nat) : Mach :=
  ((m.restoreLane c l).onLane l f).toState l code

theorem Mach.restoredTo_parts (f : LaneState → LaneState) {code : Nat} (hc : code < 8) :
    (m.restoredTo c l f code).laneCode l = code ∧ ((m.restoredTo c l f code).law.get l).slots = c.law ∧
      (m.restoredTo c l f code).foc.get l = c.foc ∧ (m.restoredTo c l f code).mod.get l = c.mod ∧
      (m.restoredTo c l f code).lanes.get l = f (m.lanes.get l) := by
  obtain ⟨hlaw, hfoc, hmod, hlanes⟩ := m.restoreLane_parts c l
  unfold Mach.restoredTo
  generalize m.restoreLane c l = x at hlaw hfoc hmod hlanes
  have hbare := (x.onLane l f).bare_toState l code
  refine ⟨Mach.laneCode_toState _ l hc, ?_, ?_, ?_, ?_⟩
  · rw [Mach.law_of_bare hbare]
    exact hlaw
  · rw [Mach.foc_of_bare hbare]
    exact hfoc
  · rw [Mach.mod_of_bare hbare]
    exact hmod
  · rw [Mach.lanes_of_bare hbare, Mach.onLane, Two.get_set_self, hlanes]

theorem Mach.restoredTo_raised (f : LaneState → LaneState) (code : Nat) : (m.restoredTo c l f code).time.raised = m.time.raised := by
  have hraised : (m.restoreLane c l).time.raised = m.time.raised := rfl
  unfold Mach.restoredTo
  generalize m.restoreLane c l = x at hraised
  rw [Mach.time_of_bare ((x.onLane l f).bare_toState l code)]
  exact hraised
end

theorem State.at_restoreRegion (s : State) (cyc : Nat) (mem : List Host.Cell) (c : Checkpoint) (l : Lane) :
    (s.at cyc).restoreRegion mem c l = s.m.restoreRegion mem c l := by
  have hregion : ∀ x, (s.at cyc).fwRegion x = s.m.fwRegion x := fun x => by
    simp only [Mach.fwRegion, Mach.fld, State.at_rd]
  rw [Mach.restoreRegion, Mach.restoreRegion, hregion, hregion]

/-- A lane's part once the healthy lane's checkpoint is in place. -/
def LaneState.loaded (c : Checkpoint) (s : LaneState) : LaneState :=
  { s with step := .replay, next := c.tick + 1, buf0 := some c, usable := some false }

theorem Mach.crossLoad_loads {m : Mach} {mem : List Host.Cell} {l : Lane} {c : Checkpoint}
    (hc : (m.lanes.get l.other).newest = some c) (h : (m.lanes.get l).step = .waitCkpt) (hfrom : (m.lanes.get l).waitFrom < c.tick + 2) :
    m.crossLoad mem l = (m.restoredTo c l (LaneState.loaded c) 4, m.restoreRegion mem c l) := by
  unfold Mach.crossLoad
  dsimp only
  rw [hc]
  exact if_pos ⟨h, hfrom⟩

theorem exec_recoveryCheckpointLoad {l : Lane} {c : Checkpoint} (hc : (s.m.lanes.get l.other).newest = some c)
    (h : (s.m.lanes.get l).step = .waitCkpt) (hfrom : (s.m.lanes.get l).waitFrom < c.tick + 2) :
    ∃ t, exec (.recoveryCheckpointLoad cyc l) s = .next t ∧ t.m.laneCode l = 4 ∧ (t.m.lanes.get l).step = .replay ∧
      (t.m.lanes.get l).next = c.tick + 1 ∧ (t.m.law.get l).slots = c.law ∧ t.m.foc.get l = c.foc ∧ t.m.mod.get l = c.mod ∧
      t.mem = s.m.restoreRegion s.mem c l ∧ Raises s t [] := by
  have hf := Mach.crossLoad_loads (m := s.at cyc) (mem := s.mem) hc h hfrom
  obtain ⟨hcode, hlaw, hfoc, hmod, hlane⟩ := (s.at cyc).restoredTo_parts c l (LaneState.loaded c) (code := 4) (by decide)
  have hraised := (s.at cyc).restoredTo_raised c l (LaneState.loaded c) 4
  generalize (s.at cyc).restoredTo c l (LaneState.loaded c) 4 = x at hf hcode hlaw hfoc hmod hlane hraised
  obtain ⟨t, ht, hm, hmem, hev⟩ := runMem_raises (s := s) (cyc := cyc) (f := fun m mem => m.crossLoad mem l) hf hraised
  have hlanes := congrArg (Two.get · l) ((congrArg Mach.lanes hm).trans (Mach.settle_lanes _))
  refine ⟨t, ht, ?_, ?_, ?_, ?_, ?_, ?_, hmem.trans (s.at_restoreRegion cyc s.mem c l), hev⟩
  · rw [hm, Mach.settle_laneCode, hcode]
  · rw [hlanes, hlane, LaneState.loaded]
  · rw [hlanes, hlane, LaneState.loaded]
  · rw [hm, Mach.settle_law, hlaw]
  · rw [hm, Mach.settle_foc, hfoc]
  · rw [hm, Mach.settle_mod, hmod]

theorem exec_recoveryCheckpointLoad_none {l : Lane} (h : (s.m.lanes.get l).step ≠ .waitCkpt ∨
      (∀ c, (s.m.lanes.get l.other).newest = some c → c.tick + 2 ≤ (s.m.lanes.get l).waitFrom)) :
    ∃ t, exec (.recoveryCheckpointLoad cyc l) s = .next t ∧ t.m.lanes = s.m.lanes ∧ Quiet s t [] := by
  have hf : (s.at cyc).crossLoad s.mem l = (s.at cyc, s.mem) := by
    unfold Mach.crossLoad
    dsimp only
    split
    next c hc =>
      exact if_neg fun ⟨hstep, hfrom⟩ => h.elim (· hstep) fun hold => absurd (hold c hc) (Nat.not_le.2 hfrom)
    next => rfl
  obtain ⟨t, ht, hm, hquiet⟩ := runMem_idle (s := s) (cyc := cyc) (f := fun m mem => m.crossLoad mem l) hf
  exact ⟨t, ht, by rw [hm, Mach.settle_lanes]; rfl, hquiet⟩

/-! ### Admission (R324) -/

theorem Mach.Says.incSat {m m₁ : Mach} {es : List Event} (h : m.Says es m₁) {a : Nat} (ha : a ∉ clockRegs) (hi lo : Nat) :
    m.Says es (m₁.incSat a hi lo) := h.wr ha _

/-- A lane's part once it is admitted. -/
def LaneState.admittedAt (now : Nat) (s : LaneState) : LaneState := { s with step := .none, kickAt := now }

/-- An admission counted and told; the fault was in tick `n`. -/
def Mach.admissionTold (m : Mach) (l : Lane) (n : Nat) : Mach :=
  ((m.incSat Reg.LANE_FAULTS 23 16).raise 0x3003 0 0xFF (l.ix :: leBytes 4 (m.tickNow - n))).laneIrq 2

theorem Mach.admissionTold_rd (m : Mach) (l : Lane) (n : Nat) {b : Nat} (ha : b ≠ Reg.LANE_L_IRQ_STAT 0) (hb : b ≠ Reg.LANE_L_IRQ_STAT 1) :
    (m.admissionTold l n).rd b = (m.incSat Reg.LANE_FAULTS 23 16).rd b := by
  rw [Mach.admissionTold, Mach.laneIrq, Mach.rd_orrBoth_other _ ha hb, Mach.raise_rd]

theorem Mach.Says.admissionTold {m m₁ : Mach} (h : m.Says [] m₁) (l : Lane) (n : Nat) :
    m.Says [eventAt m 0x3003 0 0xFF (l.ix :: leBytes 4 (m.tickNow - n)) 0] (m₁.admissionTold l n) := by
  rw [← h.tickNow_eq]
  exact ((h.incSat (a := Reg.LANE_FAULTS) (by decide) 23 16).raise (by rw [Mach.replayed_zero, Mach.replayed_zero]) 0x3003 0 0xFF _).laneIrq 2

theorem Mach.admissionTold_lanes (m : Mach) (l : Lane) (n : Nat) : (m.admissionTold l n).lanes = m.lanes := rfl

theorem Mach.admitLane_admits {m : Mach} {l : Lane} (h : (m.lanes.get l).step = .shadow) (hequal : 2 ≤ (m.lanes.get l).shadowEqual) :
    m.admitLane l = ((m.onLane l (LaneState.admittedAt m.now)).toState l 1).admissionTold l (m.lanes.get l).faultTick :=
  if_pos ⟨h, hequal⟩

theorem exec_laneAdmission {l : Lane} (h : (s.m.lanes.get l).step = .shadow) (hequal : 2 ≤ (s.m.lanes.get l).shadowEqual) :
    ∃ t, exec (.laneAdmission cyc l) s = .next t ∧ t.m.live l = true ∧ (t.m.lanes.get l).step = .none ∧
      t.m.fld Reg.LANE_FAULTS 23 16 = min (s.m.fld Reg.LANE_FAULTS 23 16 + 1) 0xFF ∧
      Raises s t [eventAt (s.at cyc) 0x3003 0 0xFF (l.ix :: leBytes 4 ((s.at cyc).tickNow - (s.m.lanes.get l).faultTick)) 0] ∧
      SameRegsBut s t [Reg.LANE_STATUS, Reg.LANE_CKSTAT, Reg.SYS_MODE_STAT, healthReg l, Reg.LANE_FAULTS, Reg.LANE_L_IRQ_STAT 0,
        Reg.LANE_L_IRQ_STAT 1] ∧ SameMemory s t := by
  have hf := Mach.admitLane_admits (m := s.at cyc) h hequal
  have hsays := ((Mach.Says.refl (s.at cyc)).onLane l (LaneState.admittedAt (s.at cyc).now)).toState l 1
  have hcode := ((s.at cyc).onLane l (LaneState.admittedAt (s.at cyc).now)).laneCode_toState l (c := 1) (by decide)
  have hlanes := ((s.at cyc).onLane l (LaneState.admittedAt (s.at cyc).now)).lanes_toState l 1
  have hrd : ∀ {b}, b ∉ stateRegs l → (((s.at cyc).onLane l (LaneState.admittedAt (s.at cyc).now)).toState l 1).rd b = s.m.rd b :=
    fun hb => by rw [Mach.toState_rd_other _ l 1 hb, Mach.onLane_rd, State.at_rd]
  generalize ((s.at cyc).onLane l (LaneState.admittedAt (s.at cyc).now)).toState l 1 = x at hf hsays hcode hlanes hrd
  obtain ⟨t, ht, hm, hev, hmem⟩ := run_says (s := s) (cyc := cyc) (f := fun m => m.admitLane l) hf (hsays.admissionTold l _)
  have htl := (congrArg Mach.lanes hm).trans ((Mach.settle_lanes _).trans ((x.admissionTold_lanes l _).trans hlanes))
  have hcount : ∀ {b}, b ≠ Reg.LANE_FAULTS → (x.incSat Reg.LANE_FAULTS 23 16).rd b = x.rd b := fun hb => (Mach.rd_setFld ..).trans (if_neg hb)
  refine ⟨t, ht, ?_, ?_, ?_, hev, fun b hb => ?_, hmem⟩
  · rw [hm, Mach.settle_live, Mach.live, Mach.laneCode_congr (x.admissionTold_rd l _ (by decide) (by decide)),
      Mach.laneCode_congr (hcount (by decide)), hcode]
    rfl
  · rw [htl, Mach.onLane, Two.get_set_self]
    rfl
  · have hno : Reg.LANE_FAULTS ∉ stateRegs l := by cases l <;> decide
    rw [hm, Mach.settle_fld, Mach.fld, x.admissionTold_rd l _ (by decide) (by decide), ← Mach.fld,
      Mach.fld_incSat _ (by decide) (by decide), Mach.fld, hrd hno]
    rfl
  · simp only [List.mem_cons, List.not_mem_nil, or_false, not_or] at hb
    obtain ⟨hst, hck, hmode, hh, hfaults, ha, hb⟩ := hb
    rw [hm, Mach.settle_rd, x.admissionTold_rd l _ ha hb, hcount hfaults,
      hrd (by simp only [stateRegs, List.mem_cons, List.not_mem_nil, or_false, not_or]; exact ⟨hst, hck, hmode, hh⟩)]

theorem exec_laneAdmission_none {l : Lane} (h : (s.m.lanes.get l).step ≠ .shadow ∨ (s.m.lanes.get l).shadowEqual < 2) :
    ∃ t, exec (.laneAdmission cyc l) s = .next t ∧ t.m.lanes = s.m.lanes ∧ Quiet s t [] := by
  obtain ⟨t, ht, hm, hquiet⟩ := run_idle (s := s) (cyc := cyc) (f := fun m => m.admitLane l)
    (if_neg fun ⟨hstep, hequal⟩ => h.elim (· hstep) fun hfew => absurd hequal (Nat.not_le.2 hfew))
  exact ⟨t, ht, by rw [hm, Mach.settle_lanes]; rfl, hquiet⟩

/-! ### A recovery that fails (R324) -/

/-- The failure of a recovery told. -/
def Mach.failTold (m : Mach) (l : Lane) : Mach := (m.raiseF2 l 0x3004).laneIrq 2

/-- What telling it leaves alone. -/
structure Mach.FailTold (l : Lane) (m m' : Mach) : Prop where
  tells : m.Says [eventAt m 0x3004 2 0xFF [] l.origin] m'
  codes : ∀ x, m'.laneCode x = m.laneCode x
  seq : m'.seq = m.seq
  faults : m'.recentFaults l = m.recentFaults l
  told : m'.resetTold l = m.resetTold l
  arr : m'.arr = m.arr

theorem Mach.failTold_failTold (m : Mach) (l : Lane) : m.FailTold l (m.failTold l) := by
  have hrd : ∀ {b}, b ≠ Reg.LANE_L_IRQ_STAT 0 → b ≠ Reg.LANE_L_IRQ_STAT 1 → (m.failTold l).rd b = m.rd b := fun ha hb => by
    rw [Mach.failTold, Mach.laneIrq, Mach.rd_orrBoth_other _ ha hb, Mach.raiseF2_rd]
  have hcodes : ∀ x, (m.failTold l).laneCode x = m.laneCode x := fun x => Mach.laneCode_congr (hrd (by decide) (by decide)) x
  have hsays : m.Says [eventAt m 0x3004 2 0xFF [] l.origin] (m.failTold l) :=
    (((Mach.Says.refl m).raise rfl 0x3004 2 0xFF []).onLanes _).laneIrq 2
  have hfaults : ∀ x, ((m.failTold l).lanes.get x).faults = (m.lanes.get x).faults := fun x => by cases x <;> rfl
  refine ⟨hsays, hcodes, hsays.seq_eq, ?_, hsays.resetTold_eq ?_ (hrd (by cases l <;> decide) (by cases l <;> decide)),
    congrArg (Word.bits · 5 4) (hrd (by decide) (by decide))⟩
  · rw [Mach.recentFaults, Mach.recentFaults, hfaults, Mach.now, hsays.now]
    rfl
  · simp only [Mach.replayed, hcodes]

theorem Mach.recoveryFails_eq (m : Mach) (l : Lane) : m.recoveryFails l = (m.failTold l).recoverCounted l (m.failTold l).seq := rfl

/-- A recovery that fails begins again. -/
theorem run_recoveryFails {f : Mach → Mach} {l : Lane} (hf : f (s.at cyc) = (s.at cyc).recoveryFails l)
    (hfew : faultsBefore s cyc l < 3) :
    ∃ t, run s cyc f = .next t ∧ Recovers s t l (faultsBefore s cyc l) ∧
      Raises s t (eventAt (s.at cyc) 0x3004 2 0xFF [] l.origin :: resetTells s cyc l) := by
  have hfail := (s.at cyc).failTold_failTold l
  rw [Mach.recoveryFails_eq] at hf
  generalize (s.at cyc).failTold l = x at hf hfail
  have hn : x.recentFaults l = faultsBefore s cyc l := hfail.faults
  have hseq : x.seq = s.m.seq := hfail.seq
  rw [Mach.recoverCounted_recovers _ _ _ (by omega), hseq] at hf
  have hsays := hfail.tells.trans (x.recover_says l s.m.seq)
  rw [hfail.told] at hsays
  obtain ⟨t, ht, hm, hev, hmem⟩ := run_says hf hsays
  have hrecovered := x.recover_recovered l s.m.seq (by omega)
  rw [hn] at hrecovered
  exact ⟨t, ht, hrecovered.recovers (fun y => (hfail.codes y).trans (s.at_laneCode cyc y)) hm hmem, hev⟩

theorem run_recoveryFails_isolates {f : Mach → Mach} {l : Lane} (hf : f (s.at cyc) = (s.at cyc).recoveryFails l)
    (hmany : 3 ≤ faultsBefore s cyc l) (ho : s.m.live l.other = true) (harr : s.m.arr = 1) :
    ∃ t, run s cyc f = .next t ∧ t.m.laneCode l = 6 ∧ SameMemory s t ∧
      Raises s t (eventAt (s.at cyc) 0x3004 2 0xFF [] l.origin :: (resetTells s cyc l ++ [eventAt (s.at cyc) 0x3008 1 0xFF [] 0])) := by
  have hfail := (s.at cyc).failTold_failTold l
  rw [Mach.recoveryFails_eq] at hf
  generalize (s.at cyc).failTold l = x at hf hfail
  have hn : x.recentFaults l = faultsBefore s cyc l := hfail.faults
  rw [Mach.recoverCounted_isolates _ _ _ (by omega)] at hf
  obtain ⟨hsays, hcode, -, -⟩ := Mach.countIsolate (m := x) (l := l)
    ((congrArg (· == 1) ((hfail.codes l.other).trans (s.at_laneCode cyc _))).trans ho) (hfail.arr.trans harr)
  rw [hfail.tells.eventAt_eq (by rw [Mach.replayed_zero, Mach.replayed_zero]), hfail.told] at hsays
  obtain ⟨t, ht, hm, hev, hmem⟩ := run_says hf (hfail.tells.trans hsays)
  exact ⟨t, ht, by rw [hm, Mach.settle_laneCode, hcode], hmem, hev⟩

/-- The 64 ticks of a recovery are over. -/
def Mach.RecoveryLate (m : Mach) (l : Lane) : Prop :=
  (m.lanes.get l).step ≠ .none ∧ (m.lanes.get l).restart = none ∧ (m.lanes.get l).faultTick + 64 < m.tickNow

theorem Mach.recoveryTimeout_late {m : Mach} {l : Lane} (h : m.RecoveryLate l) : m.recoveryTimeout l = m.recoveryFails l :=
  if_pos ⟨h.1, Option.isNone_iff_eq_none.2 h.2.1, h.2.2⟩

theorem exec_recoveryTimeout_none {l : Lane} (h : (s.m.lanes.get l).step = .none ∨ (s.m.lanes.get l).restart ≠ none ∨
      (s.at cyc).tickNow ≤ (s.m.lanes.get l).faultTick + 64) :
    ∃ t, exec (.recoveryTimeout cyc l) s = .next t ∧ t.m.lanes = s.m.lanes ∧ Quiet s t [] := by
  obtain ⟨t, ht, hm, hquiet⟩ := run_idle (s := s) (cyc := cyc) (f := fun m => m.recoveryTimeout l)
    (if_neg fun ⟨hstep, hrest, hlate⟩ => h.elim (hstep ·) fun h => h.elim (· (Option.isNone_iff_eq_none.1 hrest))
      fun hearly => absurd hlate (Nat.not_lt.2 hearly))
  exact ⟨t, ht, by rw [hm, Mach.settle_lanes]; rfl, hquiet⟩

/-! ### The statement -/

/-- Settles O36: what a fault of a lane leads to, and the steps of its recovery one by one. -/
theorem laneRecoveryStepByStep : Obligations.LaneRecoveryStepByStep := by
  unfold Obligations.LaneRecoveryStepByStep
  exact ⟨fun cyc l s hf2 h0 h6 ho harr hr hro => ⟨fun hfew => exec_laneRecoveryStart_recovers hf2 h0 h6 ho harr hr hro hfew,
      fun hmany => exec_laneRecoveryStart_isolates hf2 h0 h6 ho harr hr hro hmany⟩,
    fun cyc l s r hf2 h0 h6 hr hfew => exec_laneRecoveryStart_restarting hf2 h0 h6 hr hfew,
    fun cyc l s c hf2 hl hr ho hc htick => exec_laneRecoveryStart_alone hf2 hl hr ho hc htick,
    fun cyc l s hf2 h0 h6 hl hr ho => exec_laneRecoveryStart_waits hf2 h0 h6 hl hr ho,
    fun cyc l s h => exec_laneRecoveryStart_none h,
    fun cyc l s h => ⟨fun hr => exec_codeCheckComplete_recovery h hr, fun hr => exec_codeCheckComplete_restart h hr⟩,
    fun cyc l s h => exec_codeCheckComplete_none h,
    fun cyc l s => ⟨fun c hc h hfrom => exec_recoveryCheckpointLoad hc h hfrom, fun h => exec_recoveryCheckpointLoad_none h⟩,
    fun cyc l s => ⟨fun h hequal => exec_laneAdmission h hequal, fun h => exec_laneAdmission_none h⟩,
    fun cyc l s hstep hr hlate => ⟨fun hfew => run_recoveryFails (Mach.recoveryTimeout_late (m := s.at cyc) ⟨hstep, hr, hlate⟩) hfew,
      fun hmany ho harr =>
        run_recoveryFails_isolates (Mach.recoveryTimeout_late (m := s.at cyc) ⟨hstep, hr, hlate⟩) hmany ho harr⟩,
    fun cyc l s h => exec_recoveryTimeout_none h⟩

end Sys2Proof.Machine
end

section
/-! The hand-over of the arrangement, the watchdog and a lane's own report (R320, R337 to R339, R343). -/

namespace Sys2Proof.Machine

variable {s : State} {cyc : Nat}

/-! ### The watchdog and a lane's own report (R320, R343) -/

/-- A command of a lane's own copy from the other lane is told and changes nothing, and one of the safety processor changes nothing. -/
theorem run_ownCopy_foreign (l : Lane) (a : Nat) (f : Mach → Mach) :
    (∃ t, (run s cyc fun m => m.ownCopy (.lane l.other) l a f) = .next t ∧ t.m.lanes = s.m.lanes ∧ SameRegsBut s t [] ∧
      SameMemory s t ∧ Raises s t [eventAt (s.at cyc) 0x0001 0 0xFF
        (accessRecord (physical a) (.lane l.other) true .word false 3) 0]) ∧
    (∃ t, (run s cyc fun m => m.ownCopy .safety l a f) = .next t ∧ t.m.lanes = s.m.lanes ∧ Quiet s t []) := by
  have hother : (s.at cyc).ownCopy (.lane l.other) l a f =
      (s.at cyc).raise 0x0001 0 0xFF (accessRecord (physical a) (.lane l.other) true .word false 3) :=
    (Mach.ownCopy_other _ l a (by cases l <;> decide) f).trans (Mach.foreignCopy_eq_raise ..)
  obtain ⟨t, ht, hm, hregs, hmem, hev⟩ := run_makes (f := fun m => m.ownCopy (.lane l.other) l a f) hother
    ((Mach.FocTells.refl (s.at cyc) []).raise 0x0001 0 0xFF _ 0)
  obtain ⟨t', ht', hm', hquiet⟩ := run_idle (s := s) (cyc := cyc) (f := fun m => m.ownCopy .safety l a f)
    (Mach.ownCopy_safety (s.at cyc) l a f)
  exact ⟨⟨t, ht, by rw [hm, Mach.settle_lanes]; rfl, hregs, hmem, hev⟩, ⟨t', ht', by rw [hm', Mach.settle_lanes]; rfl, hquiet⟩⟩

theorem exec_watchdogKick (l : Lane) :
    ∃ t, exec (.watchdogKick cyc (.lane l) l) s = .next t ∧ (t.m.lanes.get l).kickAt = (s.at cyc).now ∧
      t.m.lanes.get l.other = s.m.lanes.get l.other ∧ Quiet s t [] := by
  obtain ⟨t, ht, hm, hquiet⟩ := run_makes (s := s) (cyc := cyc)
    (f := fun m => m.ownCopy (.lane l) l (Reg.LANE_L_CMD l.ix) fun m => m.kick l) (Mach.ownCopy_own (s.at cyc) l _ _)
    ((Mach.FocTells.refl (s.at cyc) []).onLane l _)
  refine ⟨t, ht, ?_, ?_, hquiet⟩
  · rw [hm, Mach.settle_lanes, Mach.kick, Mach.onLane, Two.get_set_self]
  · rw [hm, Mach.settle_lanes, Mach.kick, Mach.onLane, Two.get_set_other _ _ (by cases l <;> decide)]
    rfl

theorem exec_laneSelfFault (l : Lane) :
    ∃ t, exec (.laneSelfFault cyc (.lane l) l) s = .next t ∧ t.m.admitted l = false ∧
      Raises s t [eventAt (s.at cyc) 0x3002 2 0xFF [10] l.origin] ∧ SameRegsBut s t (laneFaultRegs l) ∧ SameMemory s t := by
  obtain ⟨t, ht, hm, hregs, hmem, hev⟩ := run_makes (s := s) (cyc := cyc)
    (f := fun m => m.ownCopy (.lane l) l (Reg.LANE_L_CMD l.ix) fun m => m.laneFault l 10) (Mach.ownCopy_own (s.at cyc) l _ _)
    ((Mach.FocTells.refl (s.at cyc) (laneFaultRegs l)).laneFault (fun _ h => h) 10)
  exact ⟨t, ht, by rw [hm, Mach.settle_admitted, Mach.laneFault_admitted], hev, hregs, hmem⟩

/-- The watchdog of a LIVE lane has run out. -/
def Mach.WatchdogOver (m : Mach) (l : Lane) : Prop :=
  m.live l = true ∧ m.fld (Reg.LANE_L_WDOG l.ix) 7 0 ≠ 0 ∧
    (m.lanes.get l).kickAt + 2000000 * m.fld (Reg.LANE_L_WDOG l.ix) 7 0 ≤ m.now

theorem exec_watchdogExpiry (l : Lane) (h : (s.at cyc).WatchdogOver l) :
    ∃ t, exec (.watchdogExpiry cyc l) s = .next t ∧ t.m.admitted l = false ∧ (t.m.lanes.get l).kickAt = (s.at cyc).now ∧
      Raises s t [eventAt (s.at cyc) 0x3002 2 0xFF [9] l.origin] ∧ SameRegsBut s t (laneFaultRegs l) ∧ SameMemory s t := by
  obtain ⟨hlive, htmo, hlate⟩ := h
  obtain ⟨t, ht, hm, hregs, hmem, hev⟩ := run_makes (s := s) (cyc := cyc) (f := fun m => m.watchdog l) (if_pos ⟨htmo, hlive, hlate⟩)
    (((Mach.FocTells.refl (s.at cyc) (laneFaultRegs l)).onLane l _).laneFault (fun _ h => h) 9)
  refine ⟨t, ht, by rw [hm, Mach.settle_admitted, Mach.laneFault_admitted], ?_, hev, hregs, hmem⟩
  rw [hm, Mach.settle_lanes, Mach.laneFault_keeps _ l l 9 LaneState.kickAt fun _ _ _ _ => rfl, Mach.kick, Mach.onLane, Two.get_set_self]

theorem exec_watchdogExpiry_none (l : Lane) (h : ¬(s.at cyc).WatchdogOver l) :
    ∃ t, exec (.watchdogExpiry cyc l) s = .next t ∧ t.m.lanes = s.m.lanes ∧ Quiet s t [] := by
  obtain ⟨t, ht, hm, hquiet⟩ := run_idle (s := s) (cyc := cyc) (f := fun m => m.watchdog l)
    (if_neg fun ⟨htmo, hlive, hlate⟩ => h ⟨hlive, htmo, hlate⟩)
  exact ⟨t, ht, by rw [hm, Mach.settle_lanes]; rfl, hquiet⟩

/-! ### To split arrangement (R339) -/

theorem Mach.Says.entryOf_eq {m m₁ : Mach} {es : List Event} (h : m.Says es m₁) (x : AsyncIn) :
    m₁.entryOf m₁.accTickNow x = m.entryOf m.accTickNow x := by
  have hdl : m₁.deadline = m.deadline := congrArg (Word.bits · _ _) (h.clock _ (by decide))
  have htick : m₁.accTickNow = m.accTickNow := by
    rw [Mach.accTickNow, Mach.accTickNow, h.seq_eq, h.running, h.cyc, hdl]
  rw [htick, Mach.entryOf, Mach.entryOf, Mach.now, Mach.now, h.now]

section
variable (m : Mach)

theorem Mach.setArrangement_bare (q : Nat) : (m.setArrangement q).bare = m.bare :=
  (Mach.bare_showCheckpoint _).trans ((Mach.bare_setRoles _).trans (m.bare_setFld ..))

theorem Mach.setArrangement_rd (q : Nat) {b : Nat} (hs : b ≠ Reg.LANE_STATUS) (hc : b ≠ Reg.LANE_CKSTAT) :
    (m.setArrangement q).rd b = m.rd b := by
  rw [Mach.setArrangement, Mach.showCheckpoint_rd_other _ hc, Mach.rd_setRoles_other _ hs, Mach.rd_setFld, if_neg hs]

theorem Mach.setArrangement_laneCode (q : Nat) (l : Lane) : (m.setArrangement q).laneCode l = m.laneCode l := by
  rw [Mach.setArrangement, Mach.laneCode_congr (Mach.showCheckpoint_rd_other _ (by decide)), Mach.laneCode_setRoles,
    Mach.setFld_laneCode _ (by decide) (by decide) (.inl (by decide))]

theorem Mach.setArrangement_arr {q : Nat} (hq : q < 4) : (m.setArrangement q).arr = q := by
  rw [Mach.setArrangement, Mach.arr, Mach.fld, Mach.showCheckpoint_rd_other _ (by decide), ← Mach.fld, ← Mach.arr, Mach.setRoles_arr,
    Mach.arr, Mach.fld_setFld _ _ (by decide) (by decide)]
  omega

theorem Mach.setArrangement_says (q : Nat) : m.Says [] (m.setArrangement q) :=
  (Mach.Says.refl m).regs (m.setArrangement_bare q) fun b hb => m.setArrangement_rd q (by
    revert b
    decide) (by
    revert b
    decide)

/-- The hand-over told, before its entry. -/
def Mach.handoverTold (m : Mach) : Mach :=
  (((m.onLb fun b => { b with handover := none }).setBit Reg.LANE_STATUS 13 false).raise 0x300A 0).laneIrq 6

theorem Mach.handoverDone_eq (q : Nat) : m.handoverDone q = m.handoverTold.accede ⟨12, 0, 0, 0, q, []⟩ := rfl

theorem Mach.handoverTold_rd {b : Nat} (ha : b ≠ Reg.LANE_L_IRQ_STAT 0) (hb : b ≠ Reg.LANE_L_IRQ_STAT 1) :
    m.handoverTold.rd b = (m.setBit Reg.LANE_STATUS 13 false).rd b := by
  rw [Mach.handoverTold, Mach.laneIrq, Mach.rd_orrBoth_other _ ha hb, Mach.raise_rd, Mach.rd_setBit, Mach.rd_setBit, Mach.onLb_rd,
    Mach.onLb_rd]

theorem Mach.handoverTold_lane : m.handoverTold.lane = { m.lane with handover := none } := rfl

variable {m} in
theorem Mach.Says.handoverTold {m₁ : Mach} {es : List Event} (h : m.Says es m₁) :
    m.Says (es ++ [eventAt m 0x300A 0 0xFF [] 0]) m₁.handoverTold :=
  (((h.onLb _).wr (by decide) _).raise (by rw [Mach.replayed_zero, Mach.replayed_zero]) 0x300A 0 0xFF []).laneIrq 6
end

/-- The hand-over to split arrangement ends at the end of this tick. -/
def Mach.SplitDue (m : Mach) (a : Nat) : Prop :=
  (m.seq + 1) % max (m.fld Reg.LANE_CFG 4 0) 1 = 0 ∧ a ≤ m.seq ∧ m.live .a = true ∧ m.live .b = true

theorem Mach.handoverStep_split {m : Mach} {a : Nat} (h : m.lane.handover = some (2, a)) (hdue : m.SplitDue a) :
    m.handoverStep m.seq = (m.setArrangement 2).handoverDone 2 := by
  unfold Mach.handoverStep
  dsimp only
  rw [h]
  exact if_pos hdue

theorem Mach.handoverStep_splitWaits {m : Mach} {a : Nat} (h : m.lane.handover = some (2, a)) (hdue : ¬m.SplitDue a) :
    m.handoverStep m.seq = m := by
  unfold Mach.handoverStep
  dsimp only
  rw [h]
  exact if_neg hdue

theorem exec_arrangementHandover_split {a : Nat} (h : s.m.lane.handover = some (2, a)) (hroom : s.roomy) (hdue : s.m.SplitDue a) :
    ∃ t, exec (.arrangementHandover cyc) s = .next t ∧ t.m.arr = 2 ∧ t.m.lane.handover = none ∧
      Enters s t cyc ⟨12, 0, 0, 0, 2, []⟩ ∧ Raises s t [eventAt (s.at cyc) 0x300A 0 0xFF [] 0] ∧
      SameRegsBut s t [Reg.LANE_STATUS, Reg.LANE_CKSTAT, Reg.LANE_L_IRQ_STAT 0, Reg.LANE_L_IRQ_STAT 1] ∧ SameMemory s t := by
  have hf := Mach.handoverStep_split (m := s.at cyc) h hdue
  rw [Mach.handoverDone_eq] at hf
  have hsays := ((s.at cyc).setArrangement_says 2).handoverTold
  have harr : ((s.at cyc).setArrangement 2).arr = 2 := (s.at cyc).setArrangement_arr (by decide)
  have hlane : ((s.at cyc).setArrangement 2).lane = s.m.lane := (Mach.lane_of_bare ((s.at cyc).setArrangement_bare 2)).trans rfl
  have hrd := fun {b} hs hc => (s.at cyc).setArrangement_rd 2 (b := b) hs hc
  generalize (s.at cyc).setArrangement 2 = x at hf hsays harr hlane hrd
  have hroom' : x.handoverTold.lane.waiting = [] := by
    rw [x.handoverTold_lane, hlane]
    exact hroom
  rw [Mach.accede_roomy _ hroom' (by decide), hsays.entryOf_eq] at hf
  obtain ⟨t, ht, hm, hev, hmem⟩ := run_says (s := s) (cyc := cyc) (f := fun m => m.handoverStep m.seq) hf (hsays.onLb _)
  have htl := (congrArg Mach.lane hm).trans (Mach.settle_lane _)
  have htr : ∀ b, b ≠ Reg.LANE_L_IRQ_STAT 0 → b ≠ Reg.LANE_L_IRQ_STAT 1 → t.m.rd b = (x.setBit Reg.LANE_STATUS 13 false).rd b :=
    fun b ha hb => by rw [hm, Mach.settle_rd, Mach.wait_rd, x.handoverTold_rd ha hb]
  refine ⟨t, ht, ?_, ?_, ?_, hev, fun b hb => ?_, hmem⟩
  · rw [Mach.arr, Mach.fld, htr _ (by decide) (by decide), ← Mach.fld, Mach.fld_setBit_other _ _ (by decide) (by decide) (.inr (by decide)),
      ← Mach.arr, harr]
  · rw [htl, Mach.wait_lane, x.handoverTold_lane]
  · rw [Enters, htl, Mach.wait_lane, hroom', insertEntry_nil]
  · simp only [List.mem_cons, List.not_mem_nil, or_false, not_or] at hb
    obtain ⟨hst, hck, ha, hb⟩ := hb
    rw [htr b ha hb, Mach.rd_setBit, if_neg hst, hrd hst hck, State.at_rd]

theorem exec_arrangementHandover_idle (h : (s.at cyc).handoverStep s.m.seq = s.at cyc) :
    ∃ t, exec (.arrangementHandover cyc) s = .next t ∧ t.m.arr = s.m.arr ∧ t.m.lane = s.m.lane ∧ Quiet s t [] := by
  obtain ⟨t, ht, hm, hquiet⟩ := run_idle (s := s) (cyc := cyc) (f := fun m => m.handoverStep m.seq) h
  refine ⟨t, ht, ?_, by rw [hm, Mach.settle_lane]; rfl, hquiet⟩
  rw [hm, Mach.arr, Mach.settle_fld]
  rfl

/-! ### To paired arrangement (R339) -/

/-- A lane's part with the merged checkpoint in place of its newest. -/
def LaneState.merged (c : Checkpoint) (s : LaneState) : LaneState :=
  if s.usable = some true then { s with buf1 := some c } else { s with buf0 := some c }

theorem LaneState.merged_newest {s : LaneState} {x : Checkpoint} (h : s.newest = some x) (c : Checkpoint) :
    (s.merged c).newest = some c := by
  unfold LaneState.newest at h
  unfold LaneState.merged
  split at h
  next hu =>
    rw [if_pos hu]
    simp only [LaneState.newest, hu]
  next hu =>
    rw [if_neg (by rw [hu]; decide)]
    simp only [LaneState.newest, hu]
  next => exact absurd h nofun

/-- The hand-over to paired arrangement at the end of this tick, with the lanes' checkpoints `x` and `y`. -/
def Mach.PairDue (m : Mach) (a : Nat) (x y : Checkpoint) : Prop :=
  x.tick + 1 = m.seq ∧ y.tick + 1 = m.seq ∧ a ≤ x.tick ∧ m.lanes.a.restart = none ∧ m.lanes.b.restart = none

theorem LaneState.restarting_both {x y : LaneState} {t n : Nat} {planned : Bool}
    (h : x = LaneState.restarting (restartOf [.a, .b] t planned) n y) : x.restart = some ⟨t, true, planned, false, 0, 0, true, 0⟩ := by
  rw [h]
  rfl

/-- The Archive stands through a restart. -/
theorem LaneState.restarting_newest (r : Restart) (n now : Nat) (x : LaneState) :
    (LaneState.restarting r n (x.reset now)).newest = x.newest := by
  unfold LaneState.newest LaneState.restarting LaneState.reset
  rfl

/-- Both lanes hold the merged checkpoint, and the arrangement is the paired one. -/
def Mach.paired (m : Mach) (c : Checkpoint) : Mach := (m.onLanes fun _ => LaneState.merged c).setArrangement 1

section
variable {m : Mach} {a : Nat} {x y : Checkpoint} (h : m.lane.handover = some (1, a)) (hx : m.lanes.a.newest = some x)
  (hy : m.lanes.b.newest = some y)
include h hx hy

theorem Mach.handoverStep_pair (hdue : m.PairDue a x y) :
    m.handoverStep m.seq = (m.paired (m.mergeCheckpoints x y)).beginRestart [.a, .b] (m.seq + 1) true := by
  obtain ⟨hxt, hyt, ha, hra, hrb⟩ := hdue
  unfold Mach.handoverStep
  dsimp only
  rw [h]
  rw [hx, hy]
  exact if_pos ⟨hxt, hyt, ha, Option.isNone_iff_eq_none.2 hra, Option.isNone_iff_eq_none.2 hrb⟩

theorem Mach.handoverStep_pairWaits (hdue : ¬m.PairDue a x y) : m.handoverStep m.seq = m := by
  unfold Mach.handoverStep
  dsimp only
  rw [h]
  rw [hx, hy]
  exact if_neg fun ⟨hxt, hyt, ha, hra, hrb⟩ =>
    hdue ⟨hxt, hyt, ha, Option.isNone_iff_eq_none.1 hra, Option.isNone_iff_eq_none.1 hrb⟩
end

theorem exec_arrangementHandover_pair {a : Nat} {x y : Checkpoint} (h : s.m.lane.handover = some (1, a))
    (hx : s.m.lanes.a.newest = some x) (hy : s.m.lanes.b.newest = some y) (hz : s.m.chg.zRun = none) (ha : s.m.live .a = true)
    (hb : s.m.live .b = true) (hdue : s.m.PairDue a x y) :
    ∃ t, exec (.arrangementHandover cyc) s = .next t ∧ t.m.arr = 1 ∧ t.m.laneCode .a = 2 ∧ t.m.laneCode .b = 2 ∧
      t.m.lanes.a.newest = some (s.m.mergeCheckpoints x y) ∧ t.m.lanes.b.newest = some (s.m.mergeCheckpoints x y) ∧
      t.m.lanes.a.restart = some ⟨s.m.seq + 1, true, true, false, 0, 0, true, 0⟩ ∧
      t.m.lanes.b.restart = some ⟨s.m.seq + 1, true, true, false, 0, 0, true, 0⟩ ∧
      Raises s t (resetTells s cyc .a ++ resetTells s cyc .b) ∧ SameMemory s t := by
  have hf := Mach.handoverStep_pair (m := s.at cyc) h hx hy hdue
  have hmerge : (s.at cyc).mergeCheckpoints x y = s.m.mergeCheckpoints x y := rfl
  have hseq : (s.at cyc).seq = s.m.seq := rfl
  rw [hmerge, hseq] at hf
  generalize hc : s.m.mergeCheckpoints x y = c at hf
  have hctick : c.tick = x.tick := by rw [← hc]; rfl
  have hsays : (s.at cyc).Says [] ((s.at cyc).paired c) := ((Mach.Says.refl (s.at cyc)).onLanes _).trans (Mach.setArrangement_says _ 1)
  have hbare := ((s.at cyc).onLanes fun _ => LaneState.merged c).setArrangement_bare 1
  have hcodes : ∀ l, ((s.at cyc).paired c).laneCode l = s.m.laneCode l := fun l => by
    rw [Mach.paired, Mach.setArrangement_laneCode, Mach.laneCode_congr (Mach.onLanes_rd ..), State.at_laneCode]
  have harr : ((s.at cyc).paired c).arr = 1 := Mach.setArrangement_arr _ (by decide)
  have hinj : ∀ l : Lane, ((s.at cyc).paired c).rd (Reg.LAW_INJ_STAT l.ix) = (s.at cyc).rd (Reg.LAW_INJ_STAT l.ix) := fun l => by
    rw [Mach.paired, Mach.setArrangement_rd _ _ (by cases l <;> decide) (by cases l <;> decide), Mach.onLanes_rd]
  have hlanes := Mach.lanes_of_bare hbare
  have hchg : ((s.at cyc).paired c).chg.zRun = none := (congrArg ChgState.zRun (Mach.chg_of_bare hbare)).trans hz
  have hdef : (s.at cyc).paired c = ((s.at cyc).onLanes fun _ => LaneState.merged c).setArrangement 1 := rfl
  rw [← hdef] at hlanes
  generalize (s.at cyc).paired c = w at hf hsays hcodes harr hinj hlanes hchg
  have hna : (w.lanes.get .a).newest = some c := by rw [hlanes]; exact LaneState.merged_newest hx c
  have hnb : (w.lanes.get .b).newest = some c := by rw [hlanes]; exact LaneState.merged_newest hy c
  have hbefore : c.tick < s.m.seq + 1 := by
    obtain ⟨hxt, -⟩ := hdue
    omega
  have hlive : ∀ l, s.m.live l = true → w.live l = true := fun l hl => (congrArg (· == 1) (hcodes l)).trans hl
  have hmade := Mach.beginRestart_both w (s.m.seq + 1) true (hlive .a ha) (hlive .b hb) hchg ⟨c, hna, hbefore⟩ ⟨c, hnb, hbefore⟩
  have htold : ∀ l, w.resetTold l = resetTells s cyc l := fun l =>
    hsays.resetTold_eq (by simp only [Mach.replayed, hcodes, State.at_laneCode]) (hinj l)
  have hall := hsays.trans hmade.tells
  rw [List.flatMap_cons, List.flatMap_singleton, htold, htold] at hall
  obtain ⟨t, ht, hm, hev, hmem⟩ := run_says (s := s) (cyc := cyc) (f := fun m => m.handoverStep m.seq) (hseq ▸ hf) hall
  have htl := fun l => (congrArg (Two.get · l) ((congrArg Mach.lanes hm).trans (Mach.settle_lanes _))).trans (hmade.lanes l)
  have hcode := fun l => (congrArg (Mach.laneCode · l) hm).trans ((Mach.settle_laneCode _ l).trans (hmade.codes l))
  have htla := htl .a
  rw [if_pos (by decide)] at htla
  have htlb := htl .b
  rw [if_pos (by decide)] at htlb
  refine ⟨t, ht, ?_, hcode .a, hcode .b, ?_, ?_, ?_, ?_, hev, hmem⟩
  · rw [hm, Mach.arr, Mach.settle_fld, ← Mach.arr, hmade.arr, harr]
  · exact (congrArg LaneState.newest htla).trans ((LaneState.restarting_newest ..).trans hna)
  · exact (congrArg LaneState.newest htlb).trans ((LaneState.restarting_newest ..).trans hnb)
  · exact LaneState.restarting_both htla
  · exact LaneState.restarting_both htlb

/-! ### The statement -/

/-- Settles O38: the two hand-overs and what they wait for, and what a lane's command register does. -/
theorem handoverAndWatchdog : Obligations.HandoverAndWatchdog := by
  unfold Obligations.HandoverAndWatchdog
  refine ⟨fun cyc s a h hroom => ⟨fun ha hla hlb hcpi => exec_arrangementHandover_split h hroom ⟨hcpi, ha, hla, hlb⟩, fun hno => ?_⟩,
    fun cyc s a x y h hx hy hz => ⟨fun hla hlb hxt hyt ha hra hrb =>
      exec_arrangementHandover_pair h hx hy hz hla hlb ⟨hxt, hyt, ha, hra, hrb⟩, fun hno => ?_⟩,
    fun cyc s h => ?_,
    fun cyc l s => ⟨exec_watchdogKick l, (run_ownCopy_foreign l _ _).1, (run_ownCopy_foreign l _ _).2, exec_laneSelfFault l,
      (run_ownCopy_foreign l _ _).1, (run_ownCopy_foreign l _ _).2⟩,
    fun cyc l s => ⟨fun h => exec_watchdogExpiry l h, fun h => exec_watchdogExpiry_none l h⟩⟩
  · refine exec_arrangementHandover_idle (Mach.handoverStep_splitWaits (m := s.at cyc) h ?_)
    rintro ⟨hcpi, ha, hla, hlb⟩
    rcases hno with hno | hno | hno | hno
    · exact absurd ha (Nat.not_le.2 hno)
    · exact absurd hla (by rw [s.at_live, hno]; decide)
    · exact absurd hlb (by rw [s.at_live, hno]; decide)
    · exact hno hcpi
  · refine exec_arrangementHandover_idle (Mach.handoverStep_pairWaits (m := s.at cyc) h hx hy ?_)
    rintro ⟨hxt, hyt, ha, hra, hrb⟩
    rcases hno with hno | hno | hno | hno | hno
    · exact hno hxt
    · exact hno hyt
    · exact absurd ha (Nat.not_le.2 hno)
    · exact hno hra
    · exact hno hrb
  · refine exec_arrangementHandover_idle ?_
    have hnone : (s.at cyc).lane.handover = none := h
    unfold Mach.handoverStep
    dsimp only
    rw [hnone]

end Sys2Proof.Machine
end

section
/-! Restarts asked for, begun and failed, and the limit of the hold (R325, R328, R334). -/

namespace Sys2Proof.Machine

variable {s : State} {cyc : Nat}

/-! ### A restart that fails (R334) -/

/-- The safe state is forced on slots. -/
def Mach.forceSafe (m : Mach) (slots : List Nat) : Mach :=
  forL slots (fun k m => m.onSv k fun s => { s with forcedSafe := true, held := false }) m

/-- A lane's part where its restart has failed. -/
def LaneState.failed (s : LaneState) : LaneState := { s with restart := none, step := .none }

/-- A lane of a failed restart stays in reset. -/
def Mach.failOut (m : Mach) (l : Lane) : Mach :=
  if (m.lanes.get l).restart.isNone then m else (m.forceSafe (m.ownSlots l)).resetTo l LaneState.failed 2

theorem Mach.forceSafe_eq (m : Mach) (slots : List Nat) : ∃ x, m.forceSafe slots = m.onLb fun b => { b with slots := x } := by
  refine forL_induct (P := fun y => ∃ x, y = m.onLb fun b => { b with slots := x }) (fun k _ y hy => ?_) ⟨m.lane.slots, rfl⟩
  obtain ⟨x, rfl⟩ := hy
  exact ⟨_, rfl⟩

/-- Of `m` the failure of the restart has made `m'`, as far as lane `l` goes. -/
structure Mach.FailedOut (l : Lane) (m m' : Mach) : Prop where
  tells : ∃ es, m.Says es m'
  sys : m'.sys = m.sys
  ended : (m'.lanes.get l).restart = none
  reset : (m.lanes.get l).restart ≠ none → m'.laneCode l = 2 ∧ (m'.lanes.get l).step = .none
  other : m'.lanes.get l.other = m.lanes.get l.other
  otherCode : m'.laneCode l.other = m.laneCode l.other

theorem Mach.failOut_failedOut (m : Mach) (l : Lane) : m.FailedOut l (m.failOut l) := by
  unfold Mach.failOut
  by_cases h : (m.lanes.get l).restart = none
  · rw [if_pos (Option.isNone_iff_eq_none.2 h)]
    exact ⟨⟨[], .refl m⟩, rfl, h, fun hr => absurd h hr, rfl, rfl⟩
  · rw [if_neg fun hn => h (Option.isNone_iff_eq_none.1 hn)]
    obtain ⟨x, hx⟩ := m.forceSafe_eq (m.ownSlots l)
    have hsays : m.Says [] (m.forceSafe (m.ownSlots l)) := by
      rw [hx]
      exact (Mach.Says.refl m).onLb _
    have hlanes : (m.forceSafe (m.ownSlots l)).lanes = m.lanes := by rw [hx, Mach.onLb_lanes]
    have hsys : (m.forceSafe (m.ownSlots l)).sys = m.sys := by rw [hx, Mach.onLb_sys]
    have hcode : (m.forceSafe (m.ownSlots l)).laneCode l.other = m.laneCode l.other :=
      Mach.laneCode_congr (by rw [hx, Mach.onLb_rd]) _
    generalize m.forceSafe (m.ownSlots l) = w at hsays hlanes hsys hcode
    have hself := w.resetTo_self l LaneState.failed 2
    refine ⟨⟨_, hsays.trans (w.resetTo_says l _ 2)⟩, (w.resetTo_beside l _ 2).sys.trans hsys, by rw [hself, LaneState.failed],
      fun _ => ⟨w.resetTo_laneCode l _ (by decide), by rw [hself, LaneState.failed]⟩, ?_, ?_⟩
    · rw [w.resetTo_other, hlanes]
    · rw [w.resetTo_laneCode_other, hcode]

/-- Of `m` the failure of a restart has made `m'`, with all that it tells. -/
structure Mach.RestartFailed (m m' : Mach) : Prop where
  tells : ∃ es o, m.Says (es ++ [⟨m.now, o, 0x3009, 4, 0, false, 0xFF, []⟩]) m'
  f4 : m'.sys.f4 = some (m.sys.f4.getD 0x3009)
  ended : ∀ l, (m'.lanes.get l).restart = none
  pend : m'.lane.pendRestart = none
  reset : ∀ l, (m.lanes.get l).restart ≠ none → m'.laneCode l = 2 ∧ (m'.lanes.get l).step = .none

/-- The last steps of a failure: nothing waits, SAFE_HOLD is demanded. -/
def Mach.failDemands (m : Mach) : Mach := ((m.onLb fun b => { b with pendRestart := none }).raiseF4 0x3009).showHold

theorem Mach.failDemands_lanes (m : Mach) : m.failDemands.lanes = m.lanes := by
  rw [Mach.failDemands, Mach.lanes_of_bare (Mach.bare_showHold _), Mach.raiseF4_lanes, Mach.onLb_lanes]

theorem Mach.failDemands_laneCode (m : Mach) (l : Lane) : m.failDemands.laneCode l = m.laneCode l := by
  rw [Mach.failDemands, Mach.showHold_laneCode, Mach.laneCode_congr (Mach.raiseF4_rd (by decide) _), Mach.laneCode_congr (Mach.onLb_rd ..)]

theorem Mach.failDemands_f4 (m : Mach) : m.failDemands.sys.f4 = some (m.sys.f4.getD 0x3009) := by
  rw [Mach.failDemands, Mach.sys_of_bare (Mach.bare_showHold _), Mach.raiseF4_sys, Mach.onLb_sys]

theorem Mach.failDemands_pend (m : Mach) : m.failDemands.lane.pendRestart = none := by
  rw [Mach.failDemands, Mach.lane_of_bare (Mach.bare_showHold _), Mach.raiseF4_lane, Mach.onLb_lane]

theorem Mach.Says.failDemands {m m₁ : Mach} {es : List Event} (h : m.Says es m₁) :
    m.Says (es ++ [eventAt m 0x3009 4 0xFF [] 0]) m₁.failDemands :=
  ((h.onLb _).raiseF4 0x3009).regs (Mach.bare_showHold _) fun b hb => Mach.showHold_rd_other _ (by
    revert b
    decide)

theorem Mach.restartFail_failed (m : Mach) : m.RestartFailed m.restartFail := by
  have ha := m.failOut_failedOut .a
  have hdef : m.restartFail = ((m.failOut .a).failOut .b).failDemands := rfl
  rw [hdef]
  generalize m.failOut .a = x at ha
  have hb := x.failOut_failedOut .b
  generalize x.failOut .b = y at hb
  obtain ⟨es, hes⟩ := ha.tells
  obtain ⟨es', hes'⟩ := hb.tells
  have hcodea : y.laneCode .a = x.laneCode .a := hb.otherCode
  have hlanea : y.lanes.get .a = x.lanes.get .a := hb.other
  have hlaneb : x.lanes.get .b = m.lanes.get .b := ha.other
  refine ⟨⟨es ++ es', _, (hes.trans hes').failDemands⟩, ?_, fun l => ?_, y.failDemands_pend, fun l hl => ?_⟩
  · rw [y.failDemands_f4, hb.sys, ha.sys]
  · rw [y.failDemands_lanes]
    cases l
    · exact (congrArg LaneState.restart hlanea).trans ha.ended
    · exact hb.ended
  · rw [y.failDemands_lanes, y.failDemands_laneCode]
    cases l
    · rw [hcodea, hlanea]
      exact ha.reset hl
    · exact hb.reset (by rw [hlaneb]; exact hl)

/-- What a failed restart leaves, from the machine `m` that it meets after `es₀` were told. -/
theorem run_restartFails {f : Mach → Mach} {m : Mach} {es₀ : List Event} (hsays : (s.at cyc).Says es₀ m)
    (hf : f (s.at cyc) = m.restartFail) :
    ∃ t, run s cyc f = .next t ∧ t.m = m.restartFail.settle ∧ Tells s t 0x3009 4 0xFF ∧ SameMemory s t := by
  obtain ⟨es, o, htells⟩ := m.restartFail_failed.tells
  obtain ⟨t, ht, hm, hev, hmem⟩ := run_says hf (hsays.trans htells)
  refine ⟨t, ht, hm, ?_, hmem⟩
  rw [Raises] at hev
  exact ⟨_, by rw [hev, List.drop_left]; exact List.mem_append_right _ (List.mem_append_right _ (List.mem_singleton.2 rfl)), rfl, rfl, rfl⟩

theorem run_restartFail {f : Mach → Mach} (hf : f (s.at cyc) = (s.at cyc).restartFail) :
    ∃ t, run s cyc f = .next t ∧ RestartFails s t ∧ SameMemory s t := by
  have hfailed := (s.at cyc).restartFail_failed
  obtain ⟨t, ht, hm, htells, hmem⟩ := run_restartFails (.refl (s.at cyc)) hf
  generalize (s.at cyc).restartFail = x at hfailed hm
  have hlanes := (congrArg Mach.lanes hm).trans (Mach.settle_lanes _)
  refine ⟨t, ht, ⟨htells, ?_, ?_, ?_, ?_, fun l hl => ?_⟩, hmem⟩
  · rw [hm, Mach.settle_sys, hfailed.f4]
    rfl
  · exact (congrArg LaneState.restart (congrArg Two.a hlanes)).trans (hfailed.ended .a)
  · exact (congrArg LaneState.restart (congrArg Two.b hlanes)).trans (hfailed.ended .b)
  · rw [hm, Mach.settle_lane, hfailed.pend]
  · rw [hm, Mach.settle_laneCode, Mach.settle_lanes]
    exact hfailed.reset l hl

/-! ### A restart asked for (R325) -/

/-- Every lane's part once a restart is asked for. -/
def LaneState.outOfTick (s : LaneState) : LaneState := { s with f2 := true, ckptSpoilt := true }

theorem Mach.askRestart_asks {m : Mach} (ha : m.lanes.a.restart = none) (hb : m.lanes.b.restart = none)
    (hp : m.lane.pendRestart = none) (cause : Nat) :
    m.askRestart cause = ((m.onLb fun b => { b with pendRestart := some cause }).restartEvent cause m.seq).onLanes fun _ => LaneState.outOfTick := by
  have hno : ¬(m.lanes.a.restart.isSome || m.lanes.b.restart.isSome) = true := by rw [ha, hb]; decide
  exact (if_neg hno).trans (if_neg (by rw [hp]; decide))

theorem Mach.askRestart_fails {m : Mach} (h : m.lanes.a.restart ≠ none ∨ m.lanes.b.restart ≠ none) (cause : Nat) :
    m.askRestart cause = m.restartFail :=
  if_pos (by simpa only [Bool.or_eq_true, Option.isSome_iff_ne_none] using h)

theorem Mach.askRestart_waits {m : Mach} (ha : m.lanes.a.restart = none) (hb : m.lanes.b.restart = none)
    (hp : m.lane.pendRestart ≠ none) (cause : Nat) : m.askRestart cause = m := by
  have hno : ¬(m.lanes.a.restart.isSome || m.lanes.b.restart.isSome) = true := by rw [ha, hb]; decide
  exact (if_neg hno).trans (if_pos (Option.isSome_iff_ne_none.2 hp))

/-- What the loss of the link does, with both lanes LIVE and otherwise. -/
theorem linkLoss_live (ha : s.m.live .a = true) (hb : s.m.live .b = true) :
    (if (s.at cyc).live .a && (s.at cyc).live .b then (s.at cyc).askRestart 3 else s.at cyc) = (s.at cyc).askRestart 3 :=
  if_pos (by rw [s.at_live, s.at_live, ha, hb]; rfl)

theorem exec_crossLaneLinkLoss_asks (ha : s.m.live .a = true) (hb : s.m.live .b = true) (hra : s.m.lanes.a.restart = none)
    (hrb : s.m.lanes.b.restart = none) (hp : s.m.lane.pendRestart = none) :
    ∃ t, exec (.crossLaneLinkLoss cyc) s = .next t ∧ t.m.lane.pendRestart = some 3 ∧ t.m.admitted .a = false ∧
      t.m.admitted .b = false ∧ Raises s t [eventAt (s.at cyc) 0x3005 2 0xFF (3 :: leBytes 4 s.m.seq) 0] ∧
      SameRegsBut s t [Reg.LANE_L_IRQ_STAT 0, Reg.LANE_L_IRQ_STAT 1] ∧ SameMemory s t := by
  have htells := ((((Mach.FocTells.refl (s.at cyc) [Reg.LANE_L_IRQ_STAT 0, Reg.LANE_L_IRQ_STAT 1]).next
    (m₂ := (s.at cyc).onLb fun b => { b with pendRestart := some 3 }) rfl rfl fun _ => rfl).raise 0x3005 2 0xFF
    (3 :: leBytes 4 (s.at cyc).seq) 0).orrBoth (reg := Reg.LANE_L_IRQ_STAT) (by simp) (by simp) (by decide) (by decide) (2 ^ 3)).onLanes
    fun _ => LaneState.outOfTick
  obtain ⟨t, ht, hm, hregs, hmem, hev⟩ := run_makes (s := s) (cyc := cyc)
    (f := fun m => if m.live .a && m.live .b then m.askRestart 3 else m)
    ((linkLoss_live ha hb).trans (Mach.askRestart_asks (m := s.at cyc) hra hrb hp 3)) htells
  have hlanes := (congrArg Mach.lanes hm).trans (Mach.settle_lanes _)
  refine ⟨t, ht, ?_, ?_, ?_, hev, hregs, hmem⟩
  · rw [hm, Mach.settle_lane, Mach.onLanes_lane]
    rfl
  · exact Mach.not_admitted_of_f2 _ ((congrArg LaneState.f2 (congrArg Two.a hlanes)).trans rfl)
  · exact Mach.not_admitted_of_f2 _ ((congrArg LaneState.f2 (congrArg Two.b hlanes)).trans rfl)

theorem exec_crossLaneLinkLoss_fails (ha : s.m.live .a = true) (hb : s.m.live .b = true)
    (h : s.m.lanes.a.restart ≠ none ∨ s.m.lanes.b.restart ≠ none) :
    ∃ t, exec (.crossLaneLinkLoss cyc) s = .next t ∧ RestartFails s t ∧ SameMemory s t :=
  run_restartFail (f := fun m => if m.live .a && m.live .b then m.askRestart 3 else m)
    ((linkLoss_live ha hb).trans (Mach.askRestart_fails (m := s.at cyc) h 3))

theorem exec_crossLaneLinkLoss_idle (h : s.m.live .a = false ∨ s.m.live .b = false ∨
      (s.m.lanes.a.restart = none ∧ s.m.lanes.b.restart = none ∧ s.m.lane.pendRestart ≠ none)) :
    ∃ t, exec (.crossLaneLinkLoss cyc) s = .next t ∧ t.m.lane = s.m.lane ∧ t.m.lanes = s.m.lanes ∧ Quiet s t [] := by
  have hf : (if (s.at cyc).live .a && (s.at cyc).live .b then (s.at cyc).askRestart 3 else s.at cyc) = s.at cyc := by
    split
    next hlive =>
      rw [Bool.and_eq_true, s.at_live, s.at_live] at hlive
      obtain ⟨ha, hb⟩ := hlive
      rw [ha, hb] at h
      obtain ⟨hra, hrb, hp⟩ := h.resolve_left nofun |>.resolve_left nofun
      exact Mach.askRestart_waits (m := s.at cyc) hra hrb hp 3
    next => rfl
  obtain ⟨t, ht, hm, hquiet⟩ := run_idle (s := s) (cyc := cyc) (f := fun m => if m.live .a && m.live .b then m.askRestart 3 else m) hf
  exact ⟨t, ht, by rw [hm, Mach.settle_lane]; rfl, by rw [hm, Mach.settle_lanes]; rfl, hquiet⟩

/-! ### The limit of the hold (R328) -/

/-- A slot has been held to its limit. -/
def Mach.HeldTooLong (m : Mach) (k : Nat) : Prop :=
  m.pumpRuns k = none ∧ (m.sv k).forcedSafe = false ∧ (m.sv k).limited = false ∧ 0 < (m.sv k).heldCount ∧
    m.fld (Reg.LANE_HOLDLIM (k / 4)) (8 * (k % 4) + 7) (8 * (k % 4)) ≤ (m.sv k).heldCount

theorem Mach.heldTooLong_iff (m : Mach) (k : Nat) :
    ((m.pumpRuns k).isNone && !(m.sv k).forcedSafe && !(m.sv k).limited && decide (0 < (m.sv k).heldCount) &&
      decide (m.fld (Reg.LANE_HOLDLIM (k / 4)) (8 * (k % 4) + 7) (8 * (k % 4)) ≤ (m.sv k).heldCount)) = true ↔ m.HeldTooLong k := by
  simp only [Bool.and_eq_true, Option.isNone_iff_eq_none, Bool.not_eq_true', decide_eq_true_eq, and_assoc, Mach.HeldTooLong]

theorem exec_holdLimitReached (k : Fin 16) (h : (s.at cyc).HeldTooLong k) (hroom : s.roomy) :
    ∃ t, exec (.holdLimitReached cyc k) s = .next t ∧ SlotFault s t cyc 0x3007 k [] ∧
      t.m.lane.slots = upd s.m.lane.slots k (fun x => { x with limited := true }) ∧
      SameRegsBut s t [Reg.LANE_L_IRQ_STAT 0, Reg.LANE_L_IRQ_STAT 1] ∧ SameMemory s t := by
  have hf : (s.at cyc).holdLimit k = _ := if_pos (((s.at cyc).heldTooLong_iff k).2 h)
  have hset : (s.at cyc).FocTells [Reg.LANE_L_IRQ_STAT 0, Reg.LANE_L_IRQ_STAT 1] []
      ((s.at cyc).onSv k fun x => { x with limited := true }) := (Mach.FocTells.refl (s.at cyc) _).next rfl rfl fun _ => rfl
  have hslots : ((s.at cyc).onSv k fun x => { x with limited := true }).lane.slots =
      upd s.m.lane.slots k (fun x => { x with limited := true }) := rfl
  have hno : ((s.at cyc).onSv k fun x => { x with limited := true }).lane.waiting = [] := hroom
  generalize (s.at cyc).onSv k (fun x => { x with limited := true }) = x at hf hset hslots hno
  have hraised := (Mach.FewWait.of_nil hno 0).raiseF3_eq (by decide) (code := 0x3007) (slot := k) (d := [])
  have hwaiting := hset.raiseF3_waiting hno 0x3007 k []
  have hlane : (x.raiseF3 0x3007 k).lane.slots = x.lane.slots := by
    rw [hraised]
    rfl
  have hdone := (Mach.FocTells.raiseF3 (Mach.FewWait.of_nil hno 0) (by decide) 0x3007 k [] hset).orrBoth (reg := Reg.LANE_L_IRQ_STAT) (by simp)
    (by simp) (by decide) (by decide) (2 ^ 4)
  generalize x.raiseF3 0x3007 k = y at hf hwaiting hlane hdone
  obtain ⟨t, ht, hm, hregs, hmem, hev⟩ := run_makes (s := s) (cyc := cyc) (f := fun m => m.holdLimit k) hf hdone
  have htl : t.m.lane = y.lane := (congrArg Mach.lane hm).trans (Mach.settle_lane _)
  exact ⟨t, ht, ⟨hev, by rw [Enters, htl, hwaiting]⟩, by rw [htl, hlane, hslots], hregs, hmem⟩

theorem exec_holdLimitReached_none (k : Fin 16) (h : ¬(s.at cyc).HeldTooLong k) :
    ∃ t, exec (.holdLimitReached cyc k) s = .next t ∧ t.m.lane = s.m.lane ∧ Quiet s t [] := by
  obtain ⟨t, ht, hm, hquiet⟩ := run_idle (s := s) (cyc := cyc) (f := fun m => m.holdLimit k)
    (if_neg fun hdue => h (((s.at cyc).heldTooLong_iff k).1 hdue))
  exact ⟨t, ht, by rw [hm, Mach.settle_lane]; rfl, hquiet⟩

/-! ### A restart of both lanes (R325) -/

section
variable {m : Mach} {t : Nat}

theorem Mach.bothRestart_none (hb : m.bothFault = false) (hp : m.lane.pendRestart = none) : m.bothRestart t = m :=
  if_neg (by rw [hb, hp]; decide)

variable (hdue : m.bothFault = true ∨ m.lane.pendRestart ≠ none)
include hdue

theorem Mach.bothRestart_fails (h : m.lanes.a.restart ≠ none ∨ m.lanes.b.restart ≠ none) : m.bothRestart t = m.restartFail := by
  have hyes : (m.lane.pendRestart.isSome || m.bothFault) = true := by
    rw [Bool.or_eq_true, Option.isSome_iff_ne_none]
    exact hdue.symm
  exact (if_pos hyes).trans (if_pos (by simpa only [Bool.or_eq_true, Option.isSome_iff_ne_none] using h))

/-- The event of a restart that was not asked for. -/
def Mach.restartTold (m : Mach) (t : Nat) : Mach := if m.lane.pendRestart.isSome then m else m.restartEvent 2 t

theorem Mach.bothRestart_begins (ha : m.lanes.a.restart = none) (hb : m.lanes.b.restart = none) :
    m.bothRestart t = (m.restartTold t).beginRestart ([Lane.a, .b].filter fun l => (m.restartTold t).live l) t false := by
  have hyes : (m.lane.pendRestart.isSome || m.bothFault) = true := by
    rw [Bool.or_eq_true, Option.isSome_iff_ne_none]
    exact hdue.symm
  have hno : ¬(m.lanes.a.restart.isSome || m.lanes.b.restart.isSome) = true := by rw [ha, hb]; decide
  exact (if_pos hyes).trans (if_neg hno)
end

/-- What the event of a restart leaves alone. -/
structure Mach.RestartTold (m m' : Mach) : Prop where
  tells : m.Says (if m.lane.pendRestart.isSome then [] else [eventAt m 0x3005 2 0xFF (2 :: leBytes 4 m.seq) 0]) m'
  beside : m.Beside m'
  lanes : m'.lanes = m.lanes
  rd : ∀ b, b ≠ Reg.LANE_L_IRQ_STAT 0 → b ≠ Reg.LANE_L_IRQ_STAT 1 → m'.rd b = m.rd b

theorem Mach.restartTold_told (m : Mach) : m.RestartTold (m.restartTold m.seq) := by
  unfold Mach.restartTold
  by_cases h : m.lane.pendRestart.isSome = true
  · rw [if_pos h]
    exact ⟨by rw [if_pos h]; exact .refl m, .refl m, rfl, fun _ _ _ => rfl⟩
  · rw [if_neg h]
    exact ⟨by rw [if_neg h]; exact (Mach.Says.refl m).restartEvent 2 m.seq, m.restartEvent_beside 2 m.seq,
      m.restartEvent_lanes 2 m.seq, fun _ ha hb => m.restartEvent_rd 2 m.seq ha hb⟩

theorem Mach.RestartTold.live {m m' : Mach} (h : m.RestartTold m') (l : Lane) : m'.live l = m.live l :=
  congrArg (· == 1) (Mach.laneCode_congr (h.rd _ (by decide) (by decide)) l)

/-- Every slot of the image is run by a lane. -/
theorem Mach.runsSlot_of_hasSlot {m : Mach} {k : Nat} (h : m.hasSlot k = true) : ∃ l ∈ [Lane.a, .b], m.runsSlot l k = true := by
  obtain ⟨e, he⟩ := Option.isSome_iff_exists.1 h
  refine ⟨e.slane, by cases e.slane <;> decide, ?_⟩
  rw [Mach.runsSlot, he]
  simp

theorem exec_bothLaneRestart_begins {x y : Checkpoint} (ha : s.m.live .a = true) (hb : s.m.live .b = true)
    (hra : s.m.lanes.a.restart = none) (hrb : s.m.lanes.b.restart = none) (hz : s.m.chg.zRun = none)
    (hx : s.m.lanes.a.newest = some x) (hy : s.m.lanes.b.newest = some y) (hxt : x.tick < s.m.seq) (hyt : y.tick < s.m.seq)
    (hdue : s.m.bothFault = true ∨ s.m.lane.pendRestart ≠ none) :
    ∃ t, exec (.bothLaneRestart cyc) s = .next t ∧ BothRestart s t ∧
      Raises s t ((if s.m.lane.pendRestart.isSome then [] else [eventAt (s.at cyc) 0x3005 2 0xFF (2 :: leBytes 4 s.m.seq) 0]) ++
        (resetTells s cyc .a ++ resetTells s cyc .b)) := by
  have hbothAt : (s.at cyc).bothFault = s.m.bothFault := by
    rw [Mach.bothFault, Mach.bothFault, s.at_live, s.at_live]
    rfl
  have hf := Mach.bothRestart_begins (m := s.at cyc) (t := (s.at cyc).seq) (by rw [hbothAt]; exact hdue) hra hrb
  have htold := (s.at cyc).restartTold_told
  generalize (s.at cyc).restartTold (s.at cyc).seq = w at hf htold
  have hlive := fun l => (htold.live l).trans (s.at_live cyc l)
  have hls : ([Lane.a, .b].filter fun l => w.live l) = [.a, .b] :=
    List.filter_eq_self.2 fun l _ => by cases l; exacts [(hlive .a).trans ha, (hlive .b).trans hb]
  rw [hls] at hf
  have hlanes : ∀ l, w.lanes.get l = s.m.lanes.get l := fun l => congrArg (Two.get · l) htold.lanes
  have hmade := Mach.beginRestart_both w (s.at cyc).seq false ((hlive .a).trans ha) ((hlive .b).trans hb)
    ((congrArg ChgState.zRun htold.beside.chg).trans hz) ⟨x, by rw [hlanes]; exact hx, hxt⟩ ⟨y, by rw [hlanes]; exact hy, hyt⟩
  have hreset : ∀ l, w.resetTold l = resetTells s cyc l := fun l => by
    rw [← resetTells_eq]
    refine htold.tells.resetTold_eq ?_ (htold.rd _ (by cases l <;> decide) (by cases l <;> decide))
    simp only [Mach.replayed, Mach.laneCode_congr (htold.rd Reg.LANE_STATUS (by decide) (by decide))]
  have hsays := htold.tells.trans hmade.tells
  rw [List.flatMap_cons, List.flatMap_singleton, hreset, hreset] at hsays
  generalize w.beginRestart [.a, .b] (s.at cyc).seq false = z at hf hmade hsays
  obtain ⟨t, ht, hm, hev, hmem⟩ := run_says (s := s) (cyc := cyc) (f := fun m => m.bothRestart m.seq) hf hsays
  have htl := fun l => (congrArg (Two.get · l) ((congrArg Mach.lanes hm).trans (Mach.settle_lanes _))).trans (hmade.lanes l)
  have hcode := fun l => (congrArg (Mach.laneCode · l) hm).trans ((Mach.settle_laneCode _ l).trans (hmade.codes l))
  have htlane : t.m.lane = z.lane := (congrArg Mach.lane hm).trans (Mach.settle_lane _)
  have htla := htl .a
  have htlb := htl .b
  rw [if_pos (by decide)] at htla htlb
  have harr : w.arr = s.m.arr := congrArg (Word.bits · 5 4) (htold.rd _ (by decide) (by decide))
  refine ⟨t, ht, ⟨hcode .a, hcode .b, by rw [htlane, hmade.pend], LaneState.restarting_both htla, LaneState.restarting_both htlb,
    fun k hhas hlen => ?_, ?_, hmem⟩, hev⟩
  · obtain ⟨hh, -, hsv, hslots⟩ := htold.beside.runs (harr.trans rfl) .a k
    have hwhas : w.hasSlot k = true := hh.trans hhas
    have hheld := hmade.held k k.2 hwhas (Mach.runsSlot_of_hasSlot hwhas) (by rw [hslots]; exact hlen)
    have htsv : t.m.sv k = z.sv k := congrArg (nth · k.val) (congrArg LaneBlock.slots htlane)
    rw [htsv]
    rw [hsv] at hheld
    exact hheld
  · rw [hm, Mach.settle_fld, hmade.counts, Mach.fld, htold.rd _ (by decide) (by decide)]
    rfl

/-- A restart of lanes without usable checkpoints fails as it begins. -/
theorem Mach.beginRestart_fails {m : Mach} {ls : List Lane} {t : Nat}
    (h : (ls.all fun l => (m.lanes.get l).newest.any fun c => decide (c.tick < t)) = false) :
    m.beginRestart ls t false = (m.restartBegun ls (restartOf ls t false)).restartFail := by
  rw [Mach.beginRestart_eq, if_neg (by rw [h]; exact Bool.false_ne_true)]

/-- An impedance run that a restart ends (R273). -/
theorem Mach.zAbort_says (x : Mach) : ∃ es, x.Says es x.zAbort ∧ x.zAbort.sys = x.sys := by
  unfold Mach.zAbort
  split
  · exact ⟨[], .refl x, rfl⟩
  · generalize hy : x.onChg (fun c => { c with zRun := none, zHold := true, zCommand := .stop }) = y
    have hsays : x.Says [] y := by
      rw [← hy]
      exact (Mach.Says.refl x).beside rfl rfl fun _ => rfl
    have hsys : y.sys = x.sys := by rw [← hy, Mach.onChg_sys]
    unfold Mach.zResult
    dsimp only
    refine ⟨_, ((hsays.beside (m₂ := y.onChg _) rfl rfl fun _ => rfl).raise (o := 0)
      (by rw [Mach.replayed_zero, Mach.replayed_zero]) 0x280C 0 _ _).orr (by decide) _, ?_⟩
    rw [Mach.orr_sys, Mach.raise_sys, Mach.onChg_sys, hsys]

theorem Mach.Says.restartCounted {m m₁ : Mach} {es : List Event} (h : m.Says es m₁) : m.Says es m₁.restartCounted :=
  ((h.wr (by decide) _).wr (by decide) _).onLb _

/-- The restart begun tells something, and demands nothing yet. -/
theorem Mach.restartBegun_says {m : Mach} {ls : List Lane} {r : Restart}
    (h : ∀ m' : Mach, (∀ l, m'.live l = m.live l) → m'.Entered r ls ls (m'.enterAll r ls)) :
    ∃ es, m.Says es (m.restartBegun ls r) ∧ (m.restartBegun ls r).sys = m.sys := by
  obtain ⟨-, hstart, -, hsys, -, -⟩ := m.holdSlots_beside (m.mapped.filter fun k => ls.any fun l => m.runsSlot l k)
  have hlive := m.holdSlots_live (m.mapped.filter fun k => ls.any fun l => m.runsSlot l k)
  have hent := h _ hlive
  unfold Mach.restartBegun
  dsimp only
  generalize m.holdSlots (m.mapped.filter fun k => ls.any fun l => m.runsSlot l k) = w at hstart hsys hlive hent
  have hsays := hstart.trans hent.tells
  have hsys' := hent.beside.sys.trans hsys
  generalize w.enterAll r ls = x at hsays hsys'
  obtain ⟨es, hz, hzsys⟩ : ∃ es, x.Says es (if r.both = true then x.zAbort else x) ∧ (if r.both = true then x.zAbort else x).sys = x.sys := by
    split
    · exact x.zAbort_says
    · exact ⟨[], .refl x, rfl⟩
  generalize (if r.both = true then x.zAbort else x) = y at hz hzsys
  exact ⟨_, (hsays.trans hz).restartCounted, hzsys.trans hsys'⟩

theorem exec_bothLaneRestart_fails (h : s.m.bothFault = true ∨ (s.m.lane.pendRestart ≠ none ∧ s.m.live .a = true))
    (hno : s.m.lanes.a.restart ≠ none ∨ s.m.lanes.b.restart ≠ none ∨ s.m.lanes.a.newest = none) :
    ∃ t, exec (.bothLaneRestart cyc) s = .next t ∧ Tells s t 0x3009 4 0xFF ∧ t.m.sys.f4 = some (s.m.sys.f4.getD 0x3009) ∧
      t.m.lanes.a.restart = none ∧ t.m.lanes.b.restart = none ∧ SameMemory s t := by
  have hbothAt : (s.at cyc).bothFault = s.m.bothFault := by
    rw [Mach.bothFault, Mach.bothFault, s.at_live, s.at_live]
    rfl
  have hdue : (s.at cyc).bothFault = true ∨ (s.at cyc).lane.pendRestart ≠ none := by
    rw [hbothAt]
    exact h.imp_right And.left
  have hlivea : s.m.live .a = true := h.elim (fun hb => by
    simp only [Mach.bothFault, Bool.and_eq_true] at hb
    exact hb.1.2) And.right
  suffices hx : ∃ m es, (s.at cyc).Says es m ∧ m.sys = s.m.sys ∧ (s.at cyc).bothRestart (s.at cyc).seq = m.restartFail by
    obtain ⟨m, es, hsays, hsys, hf⟩ := hx
    have hfailed := m.restartFail_failed
    obtain ⟨t, ht, hm, htells, hmem⟩ := run_restartFails (f := fun m => m.bothRestart m.seq) hsays hf
    generalize m.restartFail = x at hfailed hm
    have hlanes := (congrArg Mach.lanes hm).trans (Mach.settle_lanes _)
    exact ⟨t, ht, htells, by rw [hm, Mach.settle_sys, hfailed.f4, hsys],
      (congrArg LaneState.restart (congrArg Two.a hlanes)).trans (hfailed.ended .a),
      (congrArg LaneState.restart (congrArg Two.b hlanes)).trans (hfailed.ended .b), hmem⟩
  by_cases hr : s.m.lanes.a.restart ≠ none ∨ s.m.lanes.b.restart ≠ none
  · exact ⟨s.at cyc, [], .refl _, rfl, Mach.bothRestart_fails hdue hr⟩
  · obtain ⟨hra, hrb⟩ := not_or.1 hr
    have hnew : s.m.lanes.a.newest = none := (hno.resolve_left hra).resolve_left hrb
    have hf := Mach.bothRestart_begins (m := s.at cyc) (t := (s.at cyc).seq) hdue (not_not.1 hra) (not_not.1 hrb)
    have htold := (s.at cyc).restartTold_told
    generalize (s.at cyc).restartTold (s.at cyc).seq = w at hf htold
    have hlive := fun l => (htold.live l).trans (s.at_live cyc l)
    have hwa : w.live .a = true := (hlive .a).trans hlivea
    have hwnew : (w.lanes.get .a).newest = none := (congrArg LaneState.newest (congrArg Two.a htold.lanes)).trans hnew
    obtain ⟨ls, hls, hmem, hent⟩ : ∃ ls, ([Lane.a, .b].filter fun l => w.live l) = ls ∧ Lane.a ∈ ls ∧
        ∀ r, ∀ m' : Mach, (∀ l, m'.live l = w.live l) → m'.Entered r ls ls (m'.enterAll r ls) := by
      by_cases hb : w.live .b = true
      · exact ⟨[.a, .b], by simp [hwa, hb], by decide, fun r m' h' => m'.enterAll_both r ((h' _).trans hwa) ((h' _).trans hb)⟩
      · exact ⟨[.a], by simp [hwa, hb], by decide, fun r m' h' => m'.enterAll_one r ((h' _).trans hwa)⟩
    rw [hls, Mach.beginRestart_fails (List.all_eq_false.2 ⟨.a, hmem, by rw [hwnew]; exact Bool.false_ne_true⟩)] at hf
    obtain ⟨es, hbegun, hsys⟩ := Mach.restartBegun_says (hent (restartOf ls (s.at cyc).seq false))
    exact ⟨_, _, htold.tells.trans hbegun, hsys.trans (htold.beside.sys.trans rfl), hf⟩

theorem exec_bothLaneRestart_none (hb : s.m.bothFault = false) (hp : s.m.lane.pendRestart = none) :
    ∃ t, exec (.bothLaneRestart cyc) s = .next t ∧ t.m.lanes = s.m.lanes ∧ Quiet s t [] := by
  have hbothAt : (s.at cyc).bothFault = s.m.bothFault := by
    rw [Mach.bothFault, Mach.bothFault, s.at_live, s.at_live]
    rfl
  obtain ⟨t, ht, hm, hquiet⟩ := run_idle (s := s) (cyc := cyc) (f := fun m => m.bothRestart m.seq)
    (Mach.bothRestart_none (hbothAt.trans hb) hp)
  exact ⟨t, ht, by rw [hm, Mach.settle_lanes]; rfl, hquiet⟩

end Sys2Proof.Machine
end

section
/-! Restore, replay and resync of a restart, and the statement (R329 to R332). -/

namespace Sys2Proof.Machine

variable {s : State} {cyc : Nat}

/-! ### A lane restored (R329) -/

/-- A lane's part once its newest checkpoint is restored. -/
def LaneState.restored (r : Restart) (c : Checkpoint) (err : Bool) (x : LaneState) : LaneState :=
  { x with restart := some { r with restored := true }, next := c.tick + 1, step := if err then .check else .none }

theorem Mach.restoreComplete_restores {m : Mach} {l : Lane} {r : Restart} {c : Checkpoint} (hr : (m.lanes.get l).restart = some r)
    (hc : (m.lanes.get l).newest = some c) (hno : r.restored = false) (mem : List Host.Cell) (err : Bool) :
    m.restoreComplete mem l err =
      (m.restoredTo c l (LaneState.restored r c err) (if err then 3 else 4), m.restoreRegion mem c l) := by
  unfold Mach.restoreComplete
  dsimp only
  rw [hr, hc]
  exact if_neg (by rw [hno]; exact Bool.false_ne_true)

theorem exec_restoreComplete {l : Lane} {r : Restart} {c : Checkpoint} (err : Bool) (hr : (s.m.lanes.get l).restart = some r)
    (hc : (s.m.lanes.get l).newest = some c) (hno : r.restored = false) :
    ∃ t, exec (.restoreComplete cyc l err) s = .next t ∧ t.m.laneCode l = (if err then 3 else 4) ∧
      (t.m.lanes.get l).step = (if err then .check else .none) ∧
      (t.m.lanes.get l).restart = some { r with restored := true } ∧ (t.m.lanes.get l).next = c.tick + 1 ∧
      (t.m.law.get l).slots = c.law ∧ t.m.foc.get l = c.foc ∧ t.m.mod.get l = c.mod ∧
      t.mem = s.m.restoreRegion s.mem c l ∧ Raises s t [] := by
  have hf := Mach.restoreComplete_restores (m := s.at cyc) hr hc hno s.mem err
  obtain ⟨hcode, hlaw, hfoc, hmod, hlane⟩ := (s.at cyc).restoredTo_parts c l (LaneState.restored r c err) (code := if err then 3 else 4)
    (by cases err <;> decide)
  have hraised := (s.at cyc).restoredTo_raised c l (LaneState.restored r c err) (if err then 3 else 4)
  generalize (s.at cyc).restoredTo c l (LaneState.restored r c err) (if err then 3 else 4) = x at hf hcode hlaw hfoc hmod hlane hraised
  obtain ⟨t, ht, hm, hmem, hev⟩ := runMem_raises (s := s) (cyc := cyc) (f := fun m mem => m.restoreComplete mem l err) hf hraised
  have hlanes := congrArg (Two.get · l) ((congrArg Mach.lanes hm).trans (Mach.settle_lanes _))
  refine ⟨t, ht, ?_, ?_, ?_, ?_, ?_, ?_, ?_, hmem.trans (s.at_restoreRegion cyc s.mem c l), hev⟩
  · rw [hm, Mach.settle_laneCode, hcode]
  · rw [hlanes, hlane, LaneState.restored]
  · rw [hlanes, hlane, LaneState.restored]
  · rw [hlanes, hlane, LaneState.restored]
  · rw [hm, Mach.settle_law, hlaw]
  · rw [hm, Mach.settle_foc, hfoc]
  · rw [hm, Mach.settle_mod, hmod]

theorem Mach.restoreComplete_none {m : Mach} {l : Lane} (h : (m.lanes.get l).restart = none ∨ (m.lanes.get l).newest = none ∨
      (∃ r, (m.lanes.get l).restart = some r ∧ r.restored = true)) (mem : List Host.Cell) (err : Bool) :
    m.restoreComplete mem l err = (m, mem) := by
  unfold Mach.restoreComplete
  dsimp only
  split
  next r c hr hc =>
    rcases h with h | h | ⟨r', hr', hdone⟩
    · exact absurd (h.symm.trans hr) nofun
    · exact absurd (h.symm.trans hc) nofun
    · obtain rfl := Option.some.inj (hr'.symm.trans hr)
      exact if_pos hdone
  next => rfl

theorem exec_restoreComplete_none {l : Lane} (err : Bool) (h : (s.m.lanes.get l).restart = none ∨ (s.m.lanes.get l).newest = none ∨
      (∃ r, (s.m.lanes.get l).restart = some r ∧ r.restored = true)) :
    ∃ t, exec (.restoreComplete cyc l err) s = .next t ∧ t.m.lanes = s.m.lanes ∧ Quiet s t [] := by
  obtain ⟨t, ht, hm, hquiet⟩ := runMem_idle (s := s) (cyc := cyc) (f := fun m mem => m.restoreComplete mem l err)
    (Mach.restoreComplete_none (m := s.at cyc) h s.mem err)
  exact ⟨t, ht, by rw [hm, Mach.settle_lanes]; rfl, hquiet⟩

/-! ### The next tick replayed (R330) -/

/-- What the tick replayed next makes, in the lanes `ls` of those that have one. -/
def Mach.replayOf (m : Mach) (n : Nat) (ls : List Lane) (wA wB : List (Nat × Word)) (last done : Nat) : Mach :=
  match ls.find? fun l => !m.replayReady l n with
  | some l => m.replayFails l
  | none => m.replayAll ls n (fun l => if l = .a then wA else wB) last done

section
variable (m : Mach) (wA wB : List (Nat × Word)) (last done : Nat)

theorem Mach.replayTick_none (ha : m.replayDue .a = false) (hb : m.replayDue .b = false) : m.replayTick wA wB last done = m := by
  simp [Mach.replayTick, ha, hb]

/-- One lane alone has a tick to replay. -/
theorem Mach.replayTick_one {l : Lane} (hl : m.replayDue l = true) (ho : m.replayDue l.other = false) :
    m.replayTick wA wB last done = m.replayOf (m.lanes.get l).next [l] wA wB last done := by
  have hdue : ([Lane.a, .b].filter m.replayDue) = [l] := by
    cases l
    · simp [hl, show m.replayDue .b = false from ho]
    · simp [hl, show m.replayDue .a = false from ho]
  rw [Mach.replayTick, hdue]
  simp only [List.map_cons, List.map_nil, List.foldl_cons, List.foldl_nil, Nat.min_self, List.filter_cons, List.filter_nil, beq_self_eq_true,
    if_true]
  rfl

/-- Both lanes have the same tick to replay. -/
theorem Mach.replayTick_both {n : Nat} (ha : m.replayDue .a = true) (hb : m.replayDue .b = true) (hna : m.lanes.a.next = n)
    (hnb : m.lanes.b.next = n) : m.replayTick wA wB last done = m.replayOf n [.a, .b] wA wB last done := by
  have hdue : ([Lane.a, .b].filter m.replayDue) = [.a, .b] := by simp [ha, hb]
  have hga : (m.lanes.get .a).next = n := hna
  have hgb : (m.lanes.get .b).next = n := hnb
  rw [Mach.replayTick, hdue]
  simp only [List.map_cons, List.map_nil, hga, hgb, List.foldl_cons, List.foldl_nil, Nat.min_self, List.filter_cons, List.filter_nil,
    beq_self_eq_true, if_true]
  rfl
end

/-- A machine that the command makes of the one that it finds, whatever it is. -/
theorem run_eq {f : Mach → Mach} {m : Mach} (hf : f (s.at cyc) = m) : ∃ t, run s cyc f = .next t ∧ t.mem = s.mem ∧ t.m = m.settle :=
  ⟨_, rfl, rfl, congrArg Mach.settle hf⟩

theorem exec_replayTick_one {l : Lane} {n : Nat} {mark : JEntry} (wA wB : List (Nat × Word)) (last done : Nat)
    (hl : s.m.replayDue l = true) (ho : s.m.replayDue l.other = false) (hn : (s.m.lanes.get l).next = n)
    (hmark : (s.m.lanes.get l).markerOf n = some mark) (hready : s.m.replayReady l n = true) :
    ∃ t, exec (.replayTick cyc wA wB last done) s = .next t ∧ t.mem = s.mem ∧
      t.m = ((((((s.at cyc).replayLane l n mark (if l = .a then wA else wB)).replayMeasured l last done).replayed_ l
        (max last done + 32)).dropFrames l)).settle := by
  have hnAt : ((s.at cyc).lanes.get l).next = n := hn
  have hmarkAt : ((s.at cyc).lanes.get l).markerOf n = some mark := hmark
  have hf := (s.at cyc).replayTick_one wA wB last done (l := l) hl ho
  rw [hnAt] at hf
  have hfind : ([l].find? fun l => !(s.at cyc).replayReady l n) = none := by
    rw [List.find?_singleton, show (s.at cyc).replayReady l n = true from hready]
    rfl
  unfold Mach.replayOf at hf
  rw [hfind] at hf
  refine run_eq (f := fun m => m.replayTick wA wB last done) (hf.trans ?_)
  have hall : ∀ (m : Mach) (w : Lane → List (Nat × Word)), (m.lanes.get l).markerOf n = some mark → m.replayAll [l] n w last done =
      (((m.replayLane l n mark (w l)).replayMeasured l last done).replayed_ l (max last done + 32)).dropFrames l := fun m w h => by
    simp only [Mach.replayAll, forL, List.foldl_cons, List.foldl_nil, h]
    rfl
  exact hall _ _ hmarkAt

theorem exec_replayTick_both {n : Nat} (wA wB : List (Nat × Word)) (last done : Nat) (ha : s.m.replayDue .a = true)
    (hb : s.m.replayDue .b = true) (hna : s.m.lanes.a.next = n) (hnb : s.m.lanes.b.next = n) (hra : s.m.replayReady .a n = true)
    (hrb : s.m.replayReady .b n = true) :
    ∃ t, exec (.replayTick cyc wA wB last done) s = .next t ∧ t.mem = s.mem ∧
      t.m = ((s.at cyc).replayAll [.a, .b] n (fun l => if l = .a then wA else wB) last done).settle := by
  have hf := (s.at cyc).replayTick_both wA wB last done ha hb hna hnb
  have hfind : ([Lane.a, .b].find? fun l => !(s.at cyc).replayReady l n) = none := by
    rw [List.find?_eq_none]
    intro l _
    cases l
    · rw [show (s.at cyc).replayReady .a n = true from hra]
      decide
    · rw [show (s.at cyc).replayReady .b n = true from hrb]
      decide
  unfold Mach.replayOf at hf
  rw [hfind] at hf
  exact run_eq (f := fun m => m.replayTick wA wB last done) hf

/-- A tick that a lane cannot replay. -/
theorem replayTick_unready {l : Lane} (wA wB : List (Nat × Word)) (last done : Nat) (hl : s.m.replayDue l = true)
    (ho : s.m.replayDue l.other = false) (hready : s.m.replayReady l (s.m.lanes.get l).next = false) :
    (s.at cyc).replayTick wA wB last done = (s.at cyc).replayFails l := by
  have hf := (s.at cyc).replayTick_one wA wB last done (l := l) hl ho
  have hreadyAt : (s.at cyc).replayReady l ((s.at cyc).lanes.get l).next = false := hready
  have hfind : ([l].find? fun x => !(s.at cyc).replayReady x ((s.at cyc).lanes.get l).next) = some l := by
    rw [List.find?_singleton, hreadyAt]
    rfl
  unfold Mach.replayOf at hf
  rw [hfind] at hf
  exact hf

theorem exec_replayTick_fails {l : Lane} (wA wB : List (Nat × Word)) (last done : Nat) (hl : s.m.replayDue l = true)
    (ho : s.m.replayDue l.other = false) (hready : s.m.replayReady l (s.m.lanes.get l).next = false) :
    ((s.m.lanes.get l).restart ≠ none →
      ∃ t, exec (.replayTick cyc wA wB last done) s = .next t ∧ RestartFails s t ∧ SameMemory s t) ∧
    ((s.m.lanes.get l).restart = none → faultsBefore s cyc l < 3 →
      ∃ t, exec (.replayTick cyc wA wB last done) s = .next t ∧ Recovers s t l (faultsBefore s cyc l) ∧
        Raises s t (eventAt (s.at cyc) 0x3004 2 0xFF [] l.origin :: resetTells s cyc l)) := by
  have hf := replayTick_unready (cyc := cyc) wA wB last done hl ho hready
  refine ⟨fun hr => ?_, fun hr hfew => ?_⟩
  · have hrAt : ((s.at cyc).lanes.get l).restart.isSome = true := Option.isSome_iff_ne_none.2 hr
    exact run_restartFail (f := fun m => m.replayTick wA wB last done) (hf.trans (if_pos hrAt))
  · have hrAt : ¬((s.at cyc).lanes.get l).restart.isSome = true := by
      rw [show ((s.at cyc).lanes.get l).restart = none from hr]
      decide
    exact run_recoveryFails (f := fun m => m.replayTick wA wB last done) (hf.trans (if_neg hrAt)) hfew

theorem exec_replayTick_none (wA wB : List (Nat × Word)) (last done : Nat) (ha : s.m.replayDue .a = false)
    (hb : s.m.replayDue .b = false) :
    ∃ t, exec (.replayTick cyc wA wB last done) s = .next t ∧ t.m.lanes = s.m.lanes ∧ Quiet s t [] := by
  obtain ⟨t, ht, hm, hquiet⟩ := run_idle (s := s) (cyc := cyc) (f := fun m => m.replayTick wA wB last done)
    ((s.at cyc).replayTick_none wA wB last done ha hb)
  exact ⟨t, ht, by rw [hm, Mach.settle_lanes]; rfl, hquiet⟩

/-! ### The resync tick (R331) -/

/-- A lane's part in its resync tick `n`. -/
def LaneState.resynced (r : Restart) (n now : Nat) (x : LaneState) : LaneState :=
  { x with restart := some { r with resync := 1, more := true, skip := n - r.m }, kickAt := now }

/-- A lane's estimators moved on, and its leg debts cleared. -/
def Mach.resyncParts (m : Mach) (l : Lane) (skip : Nat) : Mach := ((m.resyncMod l).resyncMotor l skip 0).resyncMotor l skip 1

theorem Mach.resyncMod_eq (m : Mach) (l : Lane) : ∃ y, m.resyncMod l = { m with mod := y } := by
  refine forL_induct (P := fun z => ∃ y, z = { m with mod := y }) (fun k _ z hz => ?_) ⟨m.mod, rfl⟩
  obtain ⟨y, rfl⟩ := hz
  exact ⟨_, rfl⟩

theorem Mach.resyncMod_time (m : Mach) (l : Lane) : (m.resyncMod l).time = m.time := by
  obtain ⟨y, hy⟩ := m.resyncMod_eq l
  rw [hy]

theorem Mach.resyncMotor_time (m : Mach) (l : Lane) (skip i : Nat) : (m.resyncMotor l skip i).time = m.time := rfl

/-- With nothing in the journal no entry and no mode transition of the skipped ticks is due. -/
theorem Mach.resyncLane_eq {m : Mach} {l : Lane} {r : Restart} (hr : (m.lanes.get l).restart = some r) (hj : (m.lanes.get l).journal = [])
    (n : Nat) :
    m.resyncLane n l = ((m.resyncParts l (n - r.m)).onLane l (LaneState.resynced r n m.now)).setLaneCode l 1 := by
  have hentries : ((List.range (n - r.m)).flatMap fun i => (m.lanes.get l).entriesOf (r.m + i)) = [] := by
    simp [LaneState.entriesOf, hj]
  have hmoved : ((List.range (n - r.m)).any fun i => ((m.lanes.get l).markerOf (r.m + i)).any fun k =>
      (m.lanes.get l).modeChanged (r.m + i) k) = false := by
    simp [LaneState.markerOf, hj]
  have hnow : ((m.resyncMod l).resyncMotor l (n - r.m) 0).now = m.now := by
    rw [Mach.now, Mach.resyncMotor_time, Mach.resyncMod_time, Mach.now]
  unfold Mach.resyncLane
  rw [hr]
  dsimp only
  rw [hentries, hmoved, Bool.false_and, if_neg Bool.false_ne_true]
  simp only [forL, List.foldl_nil]
  rw [hnow, Mach.resyncParts]
  generalize ((m.resyncMod l).resyncMotor l (n - r.m) 0).resyncMotor l (n - r.m) 1 = x
  rfl

/-- The debts of the legs of a slot are paid. -/
def ModSlot.paid (x : ModSlot) : ModSlot := { x with debts := x.debts.map fun _ => 0 }

section
variable (m : Mach) (l : Lane)

theorem Mach.resyncMod_paid (k : Nat) (hk : k < 16) : (m.resyncMod l).modSlot l k = ((m.modSlot l k)).paid := by
  have hstep : ∀ (j : Nat) (x : Mach), (x.onMod l j ModSlot.paid).modSlot l k =
      if k = j ∧ j < (x.mod.get l).length then (x.modSlot l j).paid else x.modSlot l k := fun j x => by
    rw [Mach.modSlot, Mach.onMod, Two.get_set_self, nth_upd]
    rfl
  refine forN_through (P := fun x => x.modSlot l k = m.modSlot l k) (Q := fun x => x.modSlot l k = (m.modSlot l k).paid)
    (fun j x hj hx => ?_) (fun x hx => ?_) (fun j x hj hx => ?_) hk rfl
  · exact (hstep j x).trans ((if_neg fun h => hj h.1.symm).trans hx)
  · refine (hstep k x).trans ?_
    by_cases hlen : k < (x.mod.get l).length
    · rw [if_pos ⟨rfl, hlen⟩, hx]
    · have hdefault : x.modSlot l k = default := List.getD_eq_default _ _ (Nat.not_lt.1 hlen)
      rw [if_neg fun h => hlen h.2, ← hx, hdefault]
      rfl
  · exact (hstep j x).trans ((if_neg fun h => hj h.1.symm).trans hx)

theorem ModSlot.paid_debts (x : ModSlot) : ∀ d ∈ x.paid.debts, d = 0 := by
  intro d hd
  obtain ⟨-, -, rfl⟩ := List.mem_map.1 hd
  rfl

/-- What moves on in a resync tick beside the lane's own part: motors and modulators. -/
theorem Mach.resyncParts_eq (skip : Nat) : ∃ x y, m.resyncParts l skip = { m with foc := x, mod := y } := by
  obtain ⟨y, hy⟩ := m.resyncMod_eq l
  rw [Mach.resyncParts, hy]
  exact ⟨_, y, rfl⟩

theorem Mach.resyncMotor_mod (skip i : Nat) : (m.resyncMotor l skip i).mod = m.mod := rfl

theorem Mach.resyncParts_paid (skip k : Nat) (hk : k < 16) : (m.resyncParts l skip).modSlot l k = (m.modSlot l k).paid := by
  rw [Mach.resyncParts, Mach.modSlot, Mach.resyncMotor_mod, Mach.resyncMotor_mod]
  exact m.resyncMod_paid l k hk

theorem Mach.resyncMod_modOther : (m.resyncMod l).mod.get l.other = m.mod.get l.other :=
  forN_keeps (fun m : Mach => m.mod.get l.other) (fun _ _ => Two.get_set_other _ _ (by cases l <;> decide)) 16 m

theorem Mach.resyncParts_modOther (skip : Nat) : (m.resyncParts l skip).mod.get l.other = m.mod.get l.other := by
  rw [Mach.resyncParts, Mach.resyncMotor_mod, Mach.resyncMotor_mod, Mach.resyncMod_modOther]
end

/-- Of `m` the resync tick `n` of the lanes `ls` has made `m'`. -/
structure Mach.Resynced (n : Nat) (ls : List Lane) (m m' : Mach) : Prop where
  time : m'.time = m.time
  rd : ∀ b, b ≠ Reg.LANE_STATUS → b ≠ healthReg .a → b ≠ healthReg .b → m'.rd b = m.rd b
  lanes : ∀ l, (l ∉ ls → m'.lanes.get l = m.lanes.get l) ∧
    (l ∈ ls → ∀ r, (m.lanes.get l).restart = some r → m'.lanes.get l = LaneState.resynced r n m.now (m.lanes.get l))
  codes : ∀ l, m'.laneCode l = if l ∈ ls then 1 else m.laneCode l
  paid : ∀ l ∈ ls, ∀ k, k < 16 → ∀ d ∈ (m'.modSlot l k).debts, d = 0

theorem Mach.Resynced.refl (m : Mach) (n : Nat) : m.Resynced n [] m :=
  ⟨rfl, fun _ _ _ _ => rfl, fun _ => ⟨fun _ => rfl, fun h => absurd h List.not_mem_nil⟩, fun _ => (if_neg List.not_mem_nil).symm,
    fun _ h => absurd h List.not_mem_nil⟩

/-- One more lane, with nothing in its journal. -/
theorem Mach.Resynced.lane {m m' : Mach} {n : Nat} {ls : List Lane} (h : m.Resynced n ls m') {l : Lane} {r : Restart} (hl : l ∉ ls)
    (hr : (m.lanes.get l).restart = some r) (hj : (m.lanes.get l).journal = []) : m.Resynced n (ls ++ [l]) (m'.resyncLane n l) := by
  have hself := (h.lanes l).1 hl
  rw [Mach.resyncLane_eq (by rw [hself]; exact hr) (by rw [hself]; exact hj)]
  have hpaid := fun k hk => m'.resyncParts_paid l (n - r.m) k hk
  have hother := m'.resyncParts_modOther l (n - r.m)
  obtain ⟨x, y, hxy⟩ := m'.resyncParts_eq l (n - r.m)
  have htime : (m'.resyncParts l (n - r.m)).time = m.time := by rw [hxy]; exact h.time
  have hrd : ∀ b, (m'.resyncParts l (n - r.m)).rd b = m'.rd b := fun b => by rw [hxy]; rfl
  have hlanes : (m'.resyncParts l (n - r.m)).lanes = m'.lanes := by rw [hxy]
  have hnow : m'.now = m.now := congrArg TimeState.t h.time
  rw [hnow]
  generalize m'.resyncParts l (n - r.m) = w at hpaid hother htime hrd hlanes
  have hbare := (w.onLane l (LaneState.resynced r n m.now)).bare_setLaneCode l 1
  have hsplit : ∀ z, z = l ∨ z = l.other := fun z => by cases l <;> cases z <;> decide
  have hne : l.other ≠ l := by cases l <;> decide
  have hin : l ∈ ls ++ [l] := List.mem_append.2 (.inr List.mem_cons_self)
  have hout : l.other ∈ ls ++ [l] ↔ l.other ∈ ls := by simp [hne]
  refine ⟨(Mach.time_of_bare hbare).trans htime, fun b hs ha hb => ?_, fun z => ?_, fun z => ?_, fun z hz k hk => ?_⟩
  · rw [Mach.setLaneCode_rd _ _ _ ⟨hs, ha, hb⟩, Mach.onLane_rd, hrd, h.rd b hs ha hb]
  · have hset : (w.onLane l (LaneState.resynced r n m.now)).lanes = m'.lanes.set l (LaneState.resynced r n m.now (m'.lanes.get l)) := by
      rw [← hlanes]
      rfl
    rw [Mach.lanes_of_bare hbare, hset]
    obtain rfl | rfl := hsplit z
    · rw [Two.get_set_self, hself]
      exact ⟨fun hz => absurd hin hz, fun _ r' hr' => by rw [Option.some.inj (hr.symm.trans hr')]⟩
    · rw [Two.get_set_other _ _ hne.symm]
      exact ⟨fun hz => (h.lanes _).1 (mt hout.2 hz), fun hz => (h.lanes _).2 (hout.1 hz)⟩
  · obtain rfl | rfl := hsplit z
    · rw [if_pos hin, Mach.laneCode_setLaneCode _ _ (by decide)]
    · rw [Mach.laneCode_setLaneCode_other, if_congr hout rfl rfl, ← h.codes]
      exact Mach.laneCode_congr ((Mach.onLane_rd ..).trans (hrd _)) _
  · rw [Mach.modSlot, Mach.mod_of_bare hbare]
    obtain rfl | rfl := hsplit z
    · exact fun d hd => ModSlot.paid_debts _ d (by rw [← hpaid k hk]; exact hd)
    · exact fun d hd => h.paid _ (hout.1 hz) k hk d (by rw [Mach.modSlot, ← hother]; exact hd)

theorem forL_snoc {α : Type} (xs : List α) (x : α) (f : α → Mach → Mach) (m : Mach) : forL (xs ++ [x]) f m = f x (forL xs f m) := by
  rw [forL, List.foldl_append, List.foldl_cons, List.foldl_nil, ← forL]

/-- Every lane of `ls`, one after another. -/
theorem Mach.Resynced.all (m : Mach) (n : Nat) {ls : List Lane} (hls : ls.Nodup)
    (h : ∀ l ∈ ls, (∃ r, (m.lanes.get l).restart = some r) ∧ (m.lanes.get l).journal = []) :
    m.Resynced n ls (forL ls (fun l m => m.resyncLane n l) m) := by
  induction ls using List.reverseRecOn with
  | nil => exact .refl m n
  | append_singleton ls l ih =>
    obtain ⟨hnodup, -, hnew⟩ := List.nodup_append.1 hls
    obtain ⟨⟨r, hr⟩, hj⟩ := h l (List.mem_append.2 (.inr List.mem_cons_self))
    have hl : l ∉ ls := fun hl => hnew l hl l List.mem_cons_self rfl
    rw [forL_snoc]
    exact (ih hnodup fun z hz => h z (List.mem_append.2 (.inl hz))).lane hl hr hj

/-! ### What a lane in its resync tick is shown (R332) -/

/-- The context word of a lane in its resync tick. -/
theorem ctxWord_reads {skip a b d : Nat} (hs : skip ≤ 255) (ha : a ≤ 1) (hb : b ≤ 1) (hd : d ≤ 1) :
    Word.bit (BitVec.ofNat 32 (skip * 2 ^ 8 + 8 * a + 4 * b + 2 * true.toNat + d)) 1 = true ∧
      Word.bits (BitVec.ofNat 32 (skip * 2 ^ 8 + 8 * a + 4 * b + 2 * true.toNat + d)) 15 8 = skip := by
  have hone : true.toNat = 1 := rfl
  rw [Word.bit, Word.bits, BitVec.toNat_ofNat, Nat.mod_eq_of_lt (by omega), Nat.shiftRight_eq_div_pow, Nat.testBit_eq_decide_div_mod_eq,
    decide_eq_true_iff]
  omega

/-- Of `m` the showing of the contexts of the lanes `ls` has made `m'`. -/
structure Mach.CtxShown (ls : List Lane) (m m' : Mach) : Prop where
  bare : m'.bare = m.bare
  rd : ∀ b, b ≠ Reg.LANE_L_CTX 0 → b ≠ Reg.LANE_L_CTX 1 → m'.rd b = m.rd b
  ctx : ∀ l ∈ ls, ∀ r, (m.lanes.get l).restart = some r →
    m'.bit (Reg.LANE_L_CTX l.ix) 1 = true ∧ m'.fld (Reg.LANE_L_CTX l.ix) 15 8 = min r.skip 255

/-- A lane shown in its resync tick. -/
def Mach.showResync (l : Lane) (m : Mach) : Mach := m.showCtx l true (((m.lanes.get l).restart.map (·.skip)).getD 0)

theorem Mach.CtxShown.lane {m m' : Mach} {ls : List Lane} (h : m.CtxShown ls m') (l : Lane) : m.CtxShown (ls ++ [l]) (m'.showResync l) := by
  have hother : ∀ b, b ≠ Reg.LANE_L_CTX l.ix → (m'.showResync l).rd b = m'.rd b := fun b hb => (Mach.rd_wrN ..).trans (if_neg hb)
  refine ⟨h.bare, fun b ha hb => ?_, fun z hz r hr => ?_⟩
  · exact (hother b (by cases l; exacts [ha, hb])).trans (h.rd b ha hb)
  · obtain rfl | hne := eq_or_ne z l
    · have hr' : (m'.lanes.get z).restart = some r := by rw [Mach.lanes_of_bare h.bare]; exact hr
      have hword : (m'.showResync z).rd (Reg.LANE_L_CTX z.ix) = _ := (Mach.rd_wrN ..).trans (if_pos rfl)
      rw [Mach.bit, Mach.fld, hword, hr']
      exact ctxWord_reads (Nat.min_le_right ..) (Bool.toNat_le _) (Bool.toNat_le _) (Bool.toNat_le _)
    · have hz' : z ∈ ls := (List.mem_append.1 hz).resolve_right fun h => hne (List.mem_singleton.1 h)
      have hreg : Reg.LANE_L_CTX z.ix ≠ Reg.LANE_L_CTX l.ix := by revert hne; cases z <;> cases l <;> decide
      rw [Mach.bit, Mach.fld, hother _ hreg]
      exact h.ctx z hz' r hr

theorem Mach.CtxShown.all (m : Mach) (ls : List Lane) : m.CtxShown ls (forL ls Mach.showResync m) := by
  induction ls using List.reverseRecOn with
  | nil => exact ⟨rfl, fun _ _ _ => rfl, fun _ h => absurd h List.not_mem_nil⟩
  | append_singleton ls l ih =>
    rw [forL_snoc]
    exact ih.lane l

/-! ### The resync tick -/

/-- The lanes whose resync tick it is. -/
def Mach.resyncLanes (m : Mach) : List Lane := [Lane.a, .b].filter m.resyncDue

theorem Mach.mem_resyncLanes (m : Mach) (l : Lane) : l ∈ m.resyncLanes ↔ m.resyncDue l = true := by
  rw [Mach.resyncLanes, List.mem_filter]
  exact ⟨And.right, fun h => ⟨by cases l <;> decide, h⟩⟩

theorem Mach.resyncLanes_nodup (m : Mach) : m.resyncLanes.Nodup := List.Nodup.filter _ (by decide)

theorem Mach.resyncDue_restart {m : Mach} {l : Lane} (h : m.resyncDue l = true) : ∃ r, (m.lanes.get l).restart = some r := by
  unfold Mach.resyncDue at h
  obtain ⟨-, h⟩ := Bool.and_eq_true_iff.1 h
  split at h
  next r hr => exact ⟨r, hr⟩
  next => exact absurd h Bool.false_ne_true

/-- The registers that the roles after a resync tick show. -/
def Mach.roles (m : Mach) : Mach := m.setRoles.setDegraded.showCheckpoint

theorem Mach.bare_roles (m : Mach) : m.roles.bare = m.bare := by
  rw [Mach.roles, Mach.bare_showCheckpoint, Mach.bare_setDegraded, Mach.bare_setRoles]

theorem Mach.laneCode_roles (m : Mach) (l : Lane) : m.roles.laneCode l = m.laneCode l := by
  rw [Mach.roles, Mach.laneCode_congr (Mach.showCheckpoint_rd_other _ (by decide)), Mach.laneCode_setDegraded, Mach.laneCode_setRoles]

theorem Mach.roles_rd_other (m : Mach) {b : Nat} (hs : b ≠ Reg.LANE_STATUS) (hm : b ≠ Reg.SYS_MODE_STAT) (hc : b ≠ Reg.LANE_CKSTAT) :
    m.roles.rd b = m.rd b := by
  rw [Mach.roles, Mach.showCheckpoint_rd_other _ hc, Mach.setDegraded_rd_other _ hm hs, Mach.rd_setRoles_other _ hs]

theorem Mach.resync_eq (m : Mach) (n : Nat) (h : m.resyncLanes ≠ []) :
    m.resync n = forL m.resyncLanes Mach.showResync (forL m.resyncLanes (fun l m => m.resyncLane n l) m).roles :=
  if_neg fun hempty => h (List.isEmpty_iff.1 hempty)

theorem Mach.resync_none (m : Mach) (n : Nat) (h : m.resyncLanes = []) : m.resync n = m := if_pos (List.isEmpty_iff.2 h)

abbrev resyncRegs : List Nat := [Reg.LANE_STATUS, Reg.LANE_CKSTAT, Reg.SYS_MODE_STAT, Reg.LANE_HEALTHA, Reg.LANE_HEALTHB, Reg.LANE_L_CTX 0,
  Reg.LANE_L_CTX 1]

/-- What a resync tick leaves: each lane of it LIVE with its debts paid, and shown so. -/
theorem Mach.resync_parts (m : Mach) (n : Nat) (h : m.resyncLanes ≠ [])
    (hj : ∀ l ∈ m.resyncLanes, (m.lanes.get l).journal = []) :
    (m.resync n).time = m.time ∧ (∀ b, b ∉ resyncRegs → (m.resync n).rd b = m.rd b) ∧
      (∀ l, (m.resync n).laneCode l = if l ∈ m.resyncLanes then 1 else m.laneCode l) ∧
      (∀ l, l ∉ m.resyncLanes → (m.resync n).lanes.get l = m.lanes.get l) ∧
      (∀ l ∈ m.resyncLanes, ∀ r, (m.lanes.get l).restart = some r →
        ((m.resync n).lanes.get l).restart = some { r with resync := 1, more := true, skip := n - r.m } ∧
        (∀ k, k < 16 → ∀ d ∈ ((m.resync n).modSlot l k).debts, d = 0) ∧
        (m.resync n).bit (Reg.LANE_L_CTX l.ix) 1 = true ∧ (m.resync n).fld (Reg.LANE_L_CTX l.ix) 15 8 = min (n - r.m) 255) := by
  rw [m.resync_eq n h]
  have hz := Mach.Resynced.all m n m.resyncLanes_nodup fun l hl => ⟨Mach.resyncDue_restart ((m.mem_resyncLanes l).1 hl), hj l hl⟩
  generalize forL m.resyncLanes (fun l m => m.resyncLane n l) m = z at hz
  obtain ⟨hbare, hrd, hctx⟩ := Mach.CtxShown.all z.roles m.resyncLanes
  have hbare' := hbare.trans z.bare_roles
  generalize forL m.resyncLanes Mach.showResync z.roles = w at hbare hrd hctx hbare'
  have hlanes := Mach.lanes_of_bare hbare'
  have hzlanes := Mach.lanes_of_bare z.bare_roles
  refine ⟨(Mach.time_of_bare hbare').trans hz.time, fun b hb => ?_, fun l => ?_, fun l hl => ?_, fun l hl r hr => ?_⟩
  · simp only [List.mem_cons, List.not_mem_nil, or_false, not_or] at hb
    obtain ⟨hs, hc, hm, ha, hb', h0, h1⟩ := hb
    rw [hrd b h0 h1, Mach.roles_rd_other _ hs hm hc, hz.rd b hs ha hb']
  · rw [Mach.laneCode_congr (hrd _ (by decide) (by decide)), Mach.laneCode_roles, hz.codes]
  · rw [hlanes, (hz.lanes l).1 hl]
  · have hl' := (hz.lanes l).2 hl r hr
    have hskip : (z.roles.lanes.get l).restart = some { r with resync := 1, more := true, skip := n - r.m } := by
      rw [hzlanes, hl', LaneState.resynced]
    refine ⟨by rw [hlanes, hl', LaneState.resynced], fun k hk d hd => ?_, hctx l hl _ hskip⟩
    rw [Mach.modSlot, Mach.mod_of_bare hbare'] at hd
    exact hz.paid l hl k hk d hd

theorem exec_resyncTick (hdue : s.m.resyncDue .a = true ∨ s.m.resyncDue .b = true)
    (hj : ∀ l : Lane, s.m.resyncDue l = true → (s.m.lanes.get l).journal = []) :
    ∃ t, exec (.resyncTick cyc) s = .next t ∧
      (∀ (l : Lane) (r : Restart), s.m.resyncDue l = true → (s.m.lanes.get l).restart = some r →
        t.m.live l = true ∧
        (t.m.lanes.get l).restart = some { r with resync := 1, more := true, skip := s.m.seq + 1 - r.m } ∧
        (∀ k : Fin 16, ∀ x ∈ (t.m.modSlot l k).debts, x = 0) ∧
        t.m.bit (Reg.LANE_L_CTX l.ix) 1 = true ∧ t.m.fld (Reg.LANE_L_CTX l.ix) 15 8 = min (s.m.seq + 1 - r.m) 255) ∧
      (∀ l : Lane, s.m.resyncDue l = false → t.m.lanes.get l = s.m.lanes.get l ∧ t.m.laneCode l = s.m.laneCode l) ∧
      Quiet s t resyncRegs := by
  have hmem : ∀ l, l ∈ (s.at cyc).resyncLanes ↔ s.m.resyncDue l = true := fun l => (s.at cyc).mem_resyncLanes l
  have hne : (s.at cyc).resyncLanes ≠ [] := by
    obtain h | h := hdue
    · exact List.ne_nil_of_mem ((hmem _).2 h)
    · exact List.ne_nil_of_mem ((hmem _).2 h)
  obtain ⟨htime, hrd, hcode, hother, hself⟩ := (s.at cyc).resync_parts (s.m.seq + 1) hne fun l hl => hj l ((hmem l).1 hl)
  obtain ⟨t, ht, hm, hquiet⟩ := run_quiet (s := s) (cyc := cyc) (f := fun m => m.resync (m.seq + 1)) (m := (s.at cyc).resync (s.m.seq + 1))
    rfl (fun b hb => (hrd b hb).trans (State.at_rd ..)) htime
  generalize (s.at cyc).resync (s.m.seq + 1) = w at htime hrd hcode hother hself hm
  have hlanes : t.m.lanes = w.lanes := by rw [hm, Mach.settle_lanes]
  have hcodes : ∀ l, t.m.laneCode l = w.laneCode l := fun l => by rw [hm, Mach.settle_laneCode]
  refine ⟨t, ht, fun l r hl hr => ?_, fun l hl => ?_, hquiet⟩
  · obtain ⟨hrestart, hdebts, hbit, hfld⟩ := hself l ((hmem l).2 hl) r hr
    refine ⟨?_, ?_, fun k x hx => ?_, ?_, ?_⟩
    · rw [Mach.live, hcodes, hcode, if_pos ((hmem l).2 hl)]
      rfl
    · rw [hlanes, hrestart]
    · rw [hm, Mach.modSlot, Mach.settle_mod] at hx
      exact hdebts k k.isLt x hx
    · rw [hm, Mach.bit, Mach.settle_rd]
      exact hbit
    · rw [hm, Mach.fld, Mach.settle_rd]
      exact hfld
  · have hl' : l ∉ (s.at cyc).resyncLanes := fun h => absurd ((hmem l).1 h) (by rw [hl]; decide)
    refine ⟨?_, ?_⟩
    · rw [hlanes, hother l hl']
      rfl
    · rw [hcodes, hcode, if_neg hl', State.at_laneCode]

theorem exec_resyncTick_none (ha : s.m.resyncDue .a = false) (hb : s.m.resyncDue .b = false) :
    ∃ t, exec (.resyncTick cyc) s = .next t ∧ t.m.lanes = s.m.lanes ∧ Quiet s t [] := by
  have hnone : (s.at cyc).resyncLanes = [] := by
    have haAt : (s.at cyc).resyncDue .a = false := ha
    have hbAt : (s.at cyc).resyncDue .b = false := hb
    simp [Mach.resyncLanes, haAt, hbAt]
  obtain ⟨t, ht, hm, hquiet⟩ := run_idle (s := s) (cyc := cyc) (f := fun m => m.resync (m.seq + 1)) ((s.at cyc).resync_none _ hnone)
  exact ⟨t, ht, by rw [hm, Mach.settle_lanes]; rfl, hquiet⟩

theorem State.at_heldTooLong {k : Nat} : (s.at cyc).HeldTooLong k ↔ s.m.HeldTooLong k := by
  unfold Mach.HeldTooLong
  rw [State.at_fld]
  rfl

/-- Settles O37: a restart's commands one after another, from the loss of the link to the resync tick. -/
theorem restartsReplayAndResync : Obligations.RestartsReplayAndResync := by
  refine ⟨fun _ _ ha hb => ⟨fun hra hrb hp => ?_, fun h => ?_, fun hra hrb hp => ?_⟩, fun _ _ h => ?_,
    fun c _ _ _ ha hb hra hrb hz hx hy hxt hyt => ⟨fun hf hp => ?_, fun hp => ?_⟩, fun _ _ h hno => ?_, fun _ _ hb hp => ?_,
    fun _ k _ => ⟨fun hp hs hl hc hroom hlim => ?_, fun h => ?_⟩, fun _ _ _ _ _ err hr hc hno => ?_, fun _ _ _ err h => ?_,
    fun _ wA wB last done _ _ _ _ hl ho hn hmark hready => ?_, fun _ wA wB last done _ _ ha hb hna hnb hra hrb => ?_,
    fun _ wA wB last done _ _ hl ho hready => ?_, fun _ wA wB last done _ ha hb => ?_, fun _ _ hdue hj => ?_, fun _ _ ha hb => ?_⟩
  · exact exec_crossLaneLinkLoss_asks ha hb hra hrb hp
  · exact exec_crossLaneLinkLoss_fails ha hb h
  · exact exec_crossLaneLinkLoss_idle (.inr (.inr ⟨hra, hrb, hp⟩))
  · exact exec_crossLaneLinkLoss_idle (h.elim .inl fun h => .inr (.inl h))
  · have hbegin := exec_bothLaneRestart_begins (cyc := c) ha hb hra hrb hz hx hy hxt hyt (.inl hf)
    rw [hp] at hbegin
    exact hbegin
  · have hbegin := exec_bothLaneRestart_begins (cyc := c) ha hb hra hrb hz hx hy hxt hyt (.inr hp)
    rw [Option.isSome_iff_ne_none.2 hp] at hbegin
    exact hbegin
  · exact exec_bothLaneRestart_fails h hno
  · exact exec_bothLaneRestart_none hb hp
  · exact exec_holdLimitReached k (State.at_heldTooLong.2 ⟨hp, hs, hl, hc, hlim⟩) hroom
  · refine exec_holdLimitReached_none k fun hheld => ?_
    obtain ⟨hp, hs, hl, hc, hlim⟩ := State.at_heldTooLong.1 hheld
    rcases h with h | h | h | h | h
    · exact h hp
    · exact absurd (hs.symm.trans h) Bool.false_ne_true
    · exact absurd (hl.symm.trans h) Bool.false_ne_true
    · exact absurd hc (by rw [h]; exact Nat.lt_irrefl 0)
    · exact absurd hlim (Nat.not_le.2 h)
  · exact exec_restoreComplete err hr hc hno
  · exact exec_restoreComplete_none err h
  · exact exec_replayTick_one wA wB last done hl ho hn hmark hready
  · exact exec_replayTick_both wA wB last done ha hb hna hnb hra hrb
  · exact exec_replayTick_fails wA wB last done hl ho hready
  · exact exec_replayTick_none wA wB last done ha hb
  · exact exec_resyncTick hdue hj
  · exact exec_resyncTick_none ha hb

end Sys2Proof.Machine
end

section
/-! Frames at the Sieve: arrival and comparison (R314, R315, R318). -/

namespace Sys2Proof.Machine

variable {s : State} {cyc : Nat}

/-! ### A frame taken -/

section
variable (m : Mach) (l : Lane)

/-- A lane whose frame fails its envelope is marked. -/
def Mach.marked (bad : Bool) : Mach := if bad then m.health l 8 else m

theorem Mach.marked_lane (bad : Bool) : (m.marked l bad).lane = m.lane := by cases bad <;> rfl

theorem Mach.marked_time (bad : Bool) : (m.marked l bad).time = m.time := by cases bad <;> rfl

theorem Mach.marked_rd (bad : Bool) {b : Nat} (h : b ∉ if bad then [healthReg l] else []) : (m.marked l bad).rd b = m.rd b := by
  cases bad
  · rfl
  · exact Mach.health_rd_other _ _ (List.ne_of_not_mem_cons h) 8

theorem Mach.marked_active (bad : Bool) : (m.marked l bad).active = m.active := by
  rw [Mach.active, Mach.active, Mach.fld, m.marked_rd l bad (by cases bad <;> cases l <;> decide)]
  rfl

theorem Mach.marked_bit {bad : Bool} (h : bad = true) : (m.marked l bad).bit (healthReg l) 8 = true := by
  rw [h]
  exact m.bit_health l (by decide)

/-- The first valid frame of a slot is accepted. -/
def SieveSlot.first (x : Frame × Lane) (now : Nat) (bad : Bool) (s : SieveSlot) : SieveSlot :=
  { s with accepted := some x, acceptedAt := now, acceptedBad := bad }

/-- The other lane's frame comes second. -/
def SieveSlot.later (x : Frame × Lane) (bad : Bool) (s : SieveSlot) : SieveSlot := { s with second := some x, secondBad := bad }

/-- The active lane's frame of the same cycle comes before the accepted one. -/
def SieveSlot.before (x : Frame × Lane) (bad : Bool) (s : SieveSlot) : SieveSlot :=
  { s with accepted := some x, acceptedBad := bad, second := s.accepted, secondBad := s.acceptedBad }

/-- Two frames of a slot compared. -/
def Mach.compared (f g : Frame) : Mach := if f.agrees g then m else m.dispute (.frame f.slot)

theorem Mach.compared_parts (f g : Frame) :
    (m.compared f g).lane = { m.lane with disputes := m.lane.disputes ++ if f.agrees g then [] else [.frame f.slot] } ∧
      (m.compared f g).time = m.time ∧ ∀ b, (m.compared f g).rd b = m.rd b := by
  unfold Mach.compared
  split
  · exact ⟨by rw [List.append_nil], rfl, fun _ => rfl⟩
  · exact ⟨rfl, rfl, fun _ => rfl⟩

variable {m l} {f : Frame}

theorem Mach.takeFrame_first (h : (m.sv f.slot).accepted = none) :
    m.takeFrame l f = (m.marked l (m.envelopeFails l f)).onSv f.slot (SieveSlot.first (f, l) m.time.cyc (m.envelopeFails l f)) := by
  have hsv : ((m.marked l (m.envelopeFails l f)).sv f.slot).accepted = none := by rw [Mach.sv, Mach.marked_lane]; exact h
  have htime := m.marked_time l (m.envelopeFails l f)
  unfold Mach.takeFrame
  dsimp only
  rw [← Mach.marked]
  generalize m.marked l (m.envelopeFails l f) = w at hsv htime
  rw [hsv, htime]
  rfl

theorem Mach.takeFrame_second {g : Frame} (h : (m.sv f.slot).accepted = some (g, l.other)) :
    m.takeFrame l f = if (m.sv f.slot).acceptedAt = m.time.cyc ∧ m.active = l
      then ((m.marked l (m.envelopeFails l f)).onSv f.slot (SieveSlot.before (f, l) (m.envelopeFails l f))).compared f g
      else ((m.marked l (m.envelopeFails l f)).onSv f.slot (SieveSlot.later (f, l) (m.envelopeFails l f))).compared f g := by
  have hlane := m.marked_lane l (m.envelopeFails l f)
  have hsv : (m.marked l (m.envelopeFails l f)).sv f.slot = m.sv f.slot := by rw [Mach.sv, hlane]; rfl
  have htime := m.marked_time l (m.envelopeFails l f)
  have hactive := m.marked_active l (m.envelopeFails l f)
  have hne : ¬l.other = l := by cases l <;> decide
  unfold Mach.takeFrame
  dsimp only
  rw [← Mach.marked]
  generalize m.marked l (m.envelopeFails l f) = w at hlane hsv htime hactive
  rw [hsv, h, htime, hactive]
  dsimp only
  rw [if_neg hne]
  by_cases hswap : (m.sv f.slot).acceptedAt = m.time.cyc ∧ m.active = l
  · rw [if_pos hswap, if_pos hswap]
    rfl
  · rw [if_neg hswap, if_neg hswap]
    rfl
end

/-! ### A frame on its way (R314) -/

/-- A frame that has reached the Sieve is on its way no longer. -/
def Mach.arrived (m : Mach) (x : Lane × Frame) : Mach := m.onLb fun b => { b with inFlight := b.inFlight.erase x }

/-- The first frame of a lane for slot `k` on its way. -/
abbrev Mach.onWay (m : Mach) (l : Lane) (k : Nat) : Option (Lane × Frame) := m.lane.inFlight.find? fun x => x.1 == l && x.2.slot == k

section
variable {m : Mach} {l : Lane} {k : Nat} {f : Frame}

theorem Mach.onWay_slot (h : m.onWay l k = some (l, f)) : f.slot = k := by
  have hfound := List.find?_some h
  rw [Bool.and_eq_true] at hfound
  exact beq_iff_eq.1 hfound.2

theorem Mach.frameArrives_none (h : m.onWay l k = none) (ok : Bool) : m.frameArrives l k ok = m := by
  rw [Mach.onWay] at h
  unfold Mach.frameArrives
  rw [h]

theorem Mach.frameArrives_late (h : m.onWay l k = some (l, f)) (hlate : m.lane.cut = true ∨ m.cutoffCycle < m.time.cyc) (ok : Bool) :
    m.frameArrives l k ok = m.arrived (l, f) := by
  rw [Mach.onWay] at h
  unfold Mach.frameArrives
  rw [h]
  refine if_pos ?_
  rw [Bool.or_eq_true, decide_eq_true_iff]
  exact hlate

/-- A frame before the cutoff. -/
theorem Mach.frameArrives_eq (h : m.onWay l k = some (l, f)) (hcut : m.lane.cut = false) (hcyc : m.time.cyc ≤ m.cutoffCycle) (ok : Bool) :
    m.frameArrives l k ok = if m.laneCode l = 5 then (m.arrived (l, f)).onSv k fun s => { s with shadow := some f }
      else if m.frameValid l f ok then (m.arrived (l, f)).takeFrame l f else m.arrived (l, f) := by
  rw [Mach.onWay] at h
  unfold Mach.frameArrives
  rw [h]
  refine if_neg ?_
  rw [Bool.or_eq_true, decide_eq_true_iff]
  exact not_or.2 ⟨fun hc => absurd (hcut.symm.trans hc) Bool.false_ne_true, Nat.not_lt.2 hcyc⟩
end

theorem Mach.arrived_envelopeFails (m : Mach) (x : Lane × Frame) (l : Lane) (f : Frame) :
    (m.arrived x).envelopeFails l f = m.envelopeFails l f := rfl

theorem State.at_envelopeFails (l : Lane) (f : Frame) : (s.at cyc).envelopeFails l f = s.m.envelopeFails l f := by
  rw [State.at_eq_timed]
  rfl

theorem State.at_frameValid (l : Lane) (f : Frame) (ok : Bool) : (s.at cyc).frameValid l f ok = s.m.frameValid l f ok := by
  rw [State.at_eq_timed]
  rfl

section
variable {l : Lane} {k : Nat} {f : Frame}

/-- A frame that arrives valid before the cutoff is taken. -/
theorem frameArrives_taken (h : s.m.onWay l k = some (l, f)) (hcut : s.m.lane.cut = false) (hcyc : (s.at cyc).time.cyc ≤ s.m.cutoffCycle)
    (hcode : s.m.laneCode l ≠ 5) (hvalid : s.m.frameValid l f true = true) :
    (s.at cyc).frameArrives l k true = ((s.at cyc).arrived (l, f)).takeFrame l f := by
  rw [Mach.frameArrives_eq (m := s.at cyc) h hcut hcyc, s.at_laneCode, if_neg hcode, State.at_frameValid, if_pos hvalid]

/-- A frame taken made `m'` of `m`: its lane marked where it is bad, and the Sieve's part `x`. -/
structure Mach.Takes (m : Mach) (l : Lane) (bad : Bool) (x : LaneBlock) (m' : Mach) : Prop where
  lane : m'.lane = x
  time : m'.time = m.time
  rd : ∀ b, b ∉ (if bad then [healthReg l] else []) → m'.rd b = m.rd b
  bit : bad = true → m'.bit (healthReg l) 8 = true

theorem Mach.Takes.onSv (m : Mach) (l : Lane) (k : Nat) (g : SieveSlot → SieveSlot) (bad : Bool) :
    m.Takes l bad { m.lane with slots := upd m.lane.slots k g } ((m.marked l bad).onSv k g) := by
  have hlane := m.marked_lane l bad
  refine ⟨?_, m.marked_time l bad, fun b hb => m.marked_rd l bad hb, fun hb => m.marked_bit l hb⟩
  rw [← hlane]
  rfl

theorem Mach.Takes.compared {m m' : Mach} {bad : Bool} {x : LaneBlock} (h : m.Takes l bad x m') (f g : Frame) :
    m.Takes l bad { x with disputes := x.disputes ++ if f.agrees g then [] else [.frame f.slot] } (m'.compared f g) := by
  obtain ⟨hlane, htime, hrd⟩ := m'.compared_parts f g
  refine ⟨by rw [hlane, h.lane], htime.trans h.time, fun b hb => (hrd b).trans (h.rd b hb), fun hb => ?_⟩
  rw [Mach.bit, hrd]
  exact h.bit hb

theorem Mach.Takes.of_arrived {m m' : Mach} {bad : Bool} {x : LaneBlock} {y : Lane × Frame} (h : (m.arrived y).Takes l bad x m') :
    m.Takes l bad x m' := ⟨h.lane, h.time, h.rd, h.bit⟩

theorem run_takes {g : Mach → Mach} {bad : Bool} {x : LaneBlock} {w : Mach} (hg : g (s.at cyc) = w) (h : (s.at cyc).Takes l bad x w) :
    ∃ t, run s cyc g = .next t ∧ t.m.lane = x ∧ (bad = true → t.m.bit (healthReg l) 8 = true) ∧
      Quiet s t (if bad then [healthReg l] else []) := by
  obtain ⟨t, ht, hm, hquiet⟩ := run_quiet hg (fun b hb => (h.rd b hb).trans (State.at_rd cyc s b)) h.time
  refine ⟨t, ht, by rw [hm, Mach.settle_lane, h.lane], fun hbad => ?_, hquiet⟩
  rw [hm, Mach.bit, Mach.settle_rd]
  exact h.bit hbad

theorem exec_sieveFrameArrival_first {k : Fin 16} (h : s.m.onWay l k = some (l, f)) (hcut : s.m.lane.cut = false)
    (hcyc : (s.at cyc).time.cyc ≤ s.m.cutoffCycle) (hcode : s.m.laneCode l ≠ 5) (hvalid : s.m.frameValid l f true = true)
    (hnone : (s.m.sv k).accepted = none) :
    ∃ t, exec (.sieveFrameArrival cyc l k true) s = .next t ∧ t.m.lane.inFlight = s.m.lane.inFlight.erase (l, f) ∧
      t.m.lane.slots = upd s.m.lane.slots k (SieveSlot.first (f, l) (s.at cyc).time.cyc (s.m.envelopeFails l f)) ∧
      (s.m.envelopeFails l f = true → t.m.bit (healthReg l) 8 = true) ∧
      Quiet s t (if s.m.envelopeFails l f then [healthReg l] else []) := by
  have hslot := Mach.onWay_slot h
  have hf := frameArrives_taken h hcut hcyc hcode hvalid
  rw [Mach.takeFrame_first (by rw [hslot]; exact hnone), Mach.arrived_envelopeFails, State.at_envelopeFails, hslot] at hf
  obtain ⟨t, ht, hlane, hbit, hquiet⟩ := run_takes (g := fun m => m.frameArrives l k true) hf (Mach.Takes.onSv ..).of_arrived
  exact ⟨t, ht, by rw [hlane]; rfl, by rw [hlane]; rfl, hbit, hquiet⟩

section
variable {k : Fin 16} {g : Frame} (h : s.m.onWay l k = some (l, f)) (hcut : s.m.lane.cut = false)
  (hcyc : (s.at cyc).time.cyc ≤ s.m.cutoffCycle) (hcode : s.m.laneCode l ≠ 5) (hvalid : s.m.frameValid l f true = true)
  (hg : (s.m.sv k).accepted = some (g, l.other))
include h hcut hcyc hcode hvalid hg

theorem frameArrives_second : (s.at cyc).frameArrives l k true =
    ((((s.at cyc).arrived (l, f)).marked l (s.m.envelopeFails l f)).onSv k
      (if (s.m.sv k).acceptedAt = (s.at cyc).time.cyc ∧ s.m.active = l then SieveSlot.before (f, l) (s.m.envelopeFails l f)
        else SieveSlot.later (f, l) (s.m.envelopeFails l f))).compared f g := by
  have hslot := Mach.onWay_slot h
  rw [frameArrives_taken h hcut hcyc hcode hvalid, Mach.takeFrame_second (by rw [hslot]; exact hg), Mach.arrived_envelopeFails,
    State.at_envelopeFails, hslot]
  exact (apply_ite (fun z => ((((s.at cyc).arrived (l, f)).marked l (s.m.envelopeFails l f)).onSv k z).compared f g) ..).symm

theorem exec_sieveFrameArrival_second :
    ∃ t, exec (.sieveFrameArrival cyc l k true) s = .next t ∧ t.m.lane.inFlight = s.m.lane.inFlight.erase (l, f) ∧
      t.m.lane.slots = upd s.m.lane.slots k
        (if (s.m.sv k).acceptedAt = (s.at cyc).time.cyc ∧ s.m.active = l then SieveSlot.before (f, l) (s.m.envelopeFails l f)
          else SieveSlot.later (f, l) (s.m.envelopeFails l f)) ∧
      t.m.lane.disputes = s.m.lane.disputes ++ (if f.agrees g then [] else [.frame k]) ∧
      (s.m.envelopeFails l f = true → t.m.bit (healthReg l) 8 = true) ∧
      Quiet s t (if s.m.envelopeFails l f then [healthReg l] else []) := by
  have hslot := Mach.onWay_slot h
  obtain ⟨t, ht, hlane, hbit, hquiet⟩ := run_takes (g := fun m => m.frameArrives l k true)
    (frameArrives_second h hcut hcyc hcode hvalid hg) ((Mach.Takes.onSv ..).compared f g).of_arrived
  exact ⟨t, ht, by rw [hlane]; rfl, by rw [hlane]; rfl, by rw [hlane, hslot]; rfl, hbit, hquiet⟩
end

/-- A lane in SHADOW sends its frame before the cutoff. -/
theorem exec_sieveFrameArrival_shadow {k : Fin 16} (h : s.m.onWay l k = some (l, f)) (ok : Bool) (hcut : s.m.lane.cut = false)
    (hcyc : (s.at cyc).time.cyc ≤ s.m.cutoffCycle) (hcode : s.m.laneCode l = 5) :
    ∃ t, exec (.sieveFrameArrival cyc l k ok) s = .next t ∧ t.m.lane.inFlight = s.m.lane.inFlight.erase (l, f) ∧
      t.m.lane.slots = upd s.m.lane.slots k (fun x => { x with shadow := some f }) ∧ Quiet s t [] := by
  have hf := Mach.frameArrives_eq (m := s.at cyc) h hcut hcyc ok
  rw [s.at_laneCode, if_pos hcode] at hf
  obtain ⟨t, ht, hm, hquiet⟩ := run_quiet (f := fun m => m.frameArrives l k ok) hf (fun b _ => State.at_rd cyc s b) rfl
  have hlane := (congrArg Mach.lane hm).trans (Mach.settle_lane _)
  exact ⟨t, ht, by rw [hlane]; rfl, by rw [hlane]; rfl, hquiet⟩

theorem exec_sieveFrameArrival_dropped {k : Fin 16} (h : s.m.onWay l k = some (l, f)) (ok : Bool)
    (hdrop : s.m.lane.cut = true ∨ s.m.cutoffCycle < (s.at cyc).time.cyc ∨ (s.m.laneCode l ≠ 5 ∧ s.m.frameValid l f ok = false)) :
    ∃ t, exec (.sieveFrameArrival cyc l k ok) s = .next t ∧ t.m.lane.inFlight = s.m.lane.inFlight.erase (l, f) ∧
      t.m.lane.slots = s.m.lane.slots ∧ t.m.lane.disputes = s.m.lane.disputes ∧ Quiet s t [] := by
  have hf : (s.at cyc).frameArrives l k ok = (s.at cyc).arrived (l, f) := by
    by_cases hlate : (s.at cyc).lane.cut = true ∨ (s.at cyc).cutoffCycle < (s.at cyc).time.cyc
    · exact Mach.frameArrives_late (m := s.at cyc) h hlate ok
    · obtain ⟨hcut, hcyc⟩ := not_or.1 hlate
      obtain ⟨hcode, hvalid⟩ := hdrop.resolve_left hcut |>.resolve_left hcyc
      rw [Mach.frameArrives_eq (m := s.at cyc) h (Bool.eq_false_iff.2 hcut) (Nat.not_lt.1 hcyc) ok, s.at_laneCode, if_neg hcode,
        State.at_frameValid, hvalid]
      rfl
  obtain ⟨t, ht, hm, hquiet⟩ := run_quiet (f := fun m => m.frameArrives l k ok) hf (fun b _ => State.at_rd cyc s b) rfl
  have hlane := (congrArg Mach.lane hm).trans (Mach.settle_lane _)
  exact ⟨t, ht, by rw [hlane]; rfl, by rw [hlane]; rfl, by rw [hlane]; rfl, hquiet⟩

theorem exec_sieveFrameArrival_none {k : Fin 16} (h : s.m.onWay l k = none) (ok : Bool) :
    ∃ t, exec (.sieveFrameArrival cyc l k ok) s = .next t ∧ t.m.lane = s.m.lane ∧ Quiet s t [] := by
  obtain ⟨t, ht, hm, hquiet⟩ := run_idle (s := s) (cyc := cyc) (f := fun m => m.frameArrives l k ok)
    (Mach.frameArrives_none (m := s.at cyc) h ok)
  exact ⟨t, ht, by rw [hm, Mach.settle_lane]; rfl, hquiet⟩
end

end Sys2Proof.Machine
end

section
/-! The cutoff of a tick, stage by stage (R303, R314 to R321). -/

namespace Sys2Proof.Machine

variable {s : State} {cyc : Nat}

/-! ### A slot after the judgement (R316, R319, R321) -/

/-- Of a slot's frames the one that goes on, where `adm` are the lanes that are admitted. -/
def SieveSlot.given (adm : Lane → Bool) (s : SieveSlot) : SieveSlot :=
  match s.accepted.filter fun y => adm y.2, s.second.filter fun y => adm y.2 with
  | some _, _ => s
  | none, some y => { s with accepted := some y, acceptedBad := s.secondBad, second := none }
  | none, none => { s with accepted := none, second := none }

/-- What a slot goes on with passed its envelope. -/
def SieveSlot.Passes (s : SieveSlot) : Prop := ∀ a, s.accepted = some a → s.acceptedBad = false

section
variable {adm : Lane → Bool} {s : SieveSlot} {x y : Frame × Lane}

theorem SieveSlot.given_accepted (h : s.accepted = some x) (hx : adm x.2 = true) : s.given adm = s := by
  rw [SieveSlot.given, h, Option.filter_some, if_pos hx]

theorem SieveSlot.given_second (h : s.accepted.filter (fun y => adm y.2) = none) (hs : s.second = some y) (hy : adm y.2 = true) :
    s.given adm = { s with accepted := some y, acceptedBad := s.secondBad, second := none } := by
  rw [SieveSlot.given, h, hs, Option.filter_some, if_pos hy]

theorem SieveSlot.given_none (h : s.accepted.filter (fun y => adm y.2) = none) (hs : s.second.filter (fun y => adm y.2) = none) :
    s.given adm = { s with accepted := none, second := none } := by
  rw [SieveSlot.given, h, hs]

theorem SieveSlot.given_empty (h : s.accepted = none) (hs : s.second = none) : s.given adm = s := by
  cases s
  rw [SieveSlot.given_none (by rw [h]; rfl) (by rw [hs]; rfl)]
  cases h
  cases hs
  rfl

theorem SieveSlot.given_default : (default : SieveSlot).given adm = default := SieveSlot.given_empty rfl rfl

/-- With no lane admitted no frame goes on. -/
theorem SieveSlot.given_closed (h : ∀ l, adm l = false) : (s.given adm).accepted = none := by
  have hno : ∀ z : Option (Frame × Lane), z.filter (fun y => adm y.2) = none := fun z => by
    rw [Option.filter_eq_none_iff]
    exact fun a _ ha => absurd ((h a.2).symm.trans ha) Bool.false_ne_true
  rw [SieveSlot.given_none (hno _) (hno _)]

theorem SieveSlot.passes_of_none (h : s.accepted = none) : s.Passes := fun _ ha => absurd (h.symm.trans ha) nofun
end

section
variable (m : Mach)

theorem Mach.onSv_self {m : Mach} {k : Nat} {g : SieveSlot → SieveSlot} (h : g (m.sv k) = m.sv k) : m.onSv k g = m := by
  have hslots : upd m.lane.slots k g = m.lane.slots := (upd_congr (g := id) h).trans (List.modify_id ..)
  exact congrArg (fun x => m.onLb fun b => { b with slots := x }) hslots

theorem Mach.onSv_congr {m : Mach} {k : Nat} {f g : SieveSlot → SieveSlot} (h : f (m.sv k) = g (m.sv k)) : m.onSv k f = m.onSv k g :=
  congrArg (fun x => m.onLb fun b => { b with slots := x }) (upd_congr h)

theorem Mach.substitute_eq (k : Nat) : m.substitute k = m.onSv k (SieveSlot.given m.admitted) := by
  unfold Mach.substitute
  dsimp only
  split
  next hx => exact (Mach.onSv_self (by rw [SieveSlot.given, hx])).symm
  next hx hy => exact Mach.onSv_congr (by rw [SieveSlot.given, hx, hy])
  next hx hy => exact Mach.onSv_congr (by rw [SieveSlot.given, hx, hy])

theorem Mach.replaceBad_passes {m : Mach} {k : Nat} (h : (m.sv k).Passes) : m.replaceBad k = m := by
  unfold Mach.replaceBad
  dsimp only
  split
  next a ha => exact if_pos (by rw [h a ha]; rfl)
  next => rfl

/-- The slots after the judgement. -/
def Mach.cutSlots : Mach := forN 16 (fun k m => (m.substitute k).replaceBad k) m

/-- The Sieve's slots replaced. -/
def Mach.withSlots (x : List SieveSlot) : Mach := m.onLb fun b => { b with slots := x }

theorem Mach.withSlots_self : m.withSlots m.lane.slots = m := rfl

/-- Where every slot goes on with a frame that passed, the slots change and nothing else does. -/
theorem Mach.cutSlots_passes {m : Mach} (h : ∀ k, k < 16 → ((m.sv k).given m.admitted).Passes) :
    ∃ x, m.cutSlots = m.withSlots x ∧ (∀ k, nth x k = if k < 16 then (m.sv k).given m.admitted else m.sv k) ∧
      ((∀ k, k < 16 → (m.sv k).given m.admitted = m.sv k) → x = m.lane.slots) := by
  have hsteps : ∀ n, n ≤ 16 → ∃ x, forN n (fun k m => (m.substitute k).replaceBad k) m = m.withSlots x ∧
      (∀ k, nth x k = if k < n then (m.sv k).given m.admitted else m.sv k) ∧
      ((∀ k, k < 16 → (m.sv k).given m.admitted = m.sv k) → x = m.lane.slots) := by
    intro n
    induction n with
    | zero => exact fun _ => ⟨m.lane.slots, rfl, fun k => (if_neg (Nat.not_lt_zero k)).symm, fun _ => rfl⟩
    | succ n ih =>
      intro hn
      obtain ⟨x, hx, hnth, hsame⟩ := ih (Nat.le_of_succ_le hn)
      have hat : nth x n = m.sv n := (hnth n).trans (if_neg (Nat.lt_irrefl n))
      have hnew : ∀ k, nth (upd x n (SieveSlot.given m.admitted)) k =
          if k < n + 1 then (m.sv k).given m.admitted else m.sv k := fun k => by
        rw [nth_upd]
        obtain rfl | hk := eq_or_ne k n
        · rw [if_pos (Nat.lt_succ_self k), hat]
          by_cases hlen : k < x.length
          · rw [if_pos ⟨rfl, hlen⟩]
          · have hdefault : m.sv k = default := hat.symm.trans (List.getD_eq_default _ _ (Nat.not_lt.1 hlen))
            rw [if_neg fun h => hlen h.2, hdefault, SieveSlot.given_default]
        · rw [if_neg fun h => hk h.1, hnth]
          exact if_congr (by omega) rfl rfl
      refine ⟨upd x n (SieveSlot.given m.admitted), ?_, hnew, fun hself => ?_⟩
      · rw [forN_succ, hx, Mach.substitute_eq]
        refine Mach.replaceBad_passes ?_
        have hsv : ((m.withSlots x).onSv n (SieveSlot.given (m.withSlots x).admitted)).sv n = nth (upd x n (SieveSlot.given m.admitted)) n :=
          rfl
        rw [hsv, hnew, if_pos (Nat.lt_succ_self n)]
        exact h n hn
      · rw [hsame hself]
        exact (upd_congr (g := id) (hself n hn)).trans (List.modify_id ..)
  exact hsteps 16 le_rfl

/-- Where every slot stands as it goes on, nothing changes. -/
theorem Mach.cutSlots_self {m : Mach} (h : ∀ k, k < 16 → (m.sv k).given m.admitted = m.sv k ∧ (m.sv k).Passes) : m.cutSlots = m := by
  obtain ⟨x, hx, -, hsame⟩ := Mach.cutSlots_passes (m := m) fun k hk => by
    obtain ⟨hself, hpass⟩ := h k hk
    rw [hself]
    exact hpass
  rw [hx, hsame fun k hk => (h k hk).1, Mach.withSlots_self]
end

/-! ### The stages of the cutoff -/

section
variable (m : Mach)

/-- The cutoff is taken. -/
def Mach.cutTaken : Mach := m.onLb fun b => { b with cut := true }

/-- Missing frames and entries overdue are told. -/
def Mach.cutMissing : Mach := m.missingFrames.accOverdue

/-- Write lists that differ and messages overdue are disagreements. -/
def Mach.cutDisputed : Mach :=
  let m := if m.writesDiffer then m.dispute .writes else m
  if m.pairJudged then forL m.overdue (fun h m => if m.admitted h.lane.other then m.dispute .message else m) m else m

/-- No disagreement of the tick is left. -/
def Mach.undisputed : Mach := m.onLb fun b => { b with disputes := [] }

/-- Pumps without a frame take their governor's. -/
def Mach.cutGoverned : Mach := forL (m.slotsOf .pump) (fun k m => m.governorSub k m.seq) m

/-- What the lanes sent beside their frames is settled. -/
def Mach.cutSettled : Mach := m.settleWrites.settleEntries.releaseHeld

/-- A tick in SHADOW is judged. -/
def Mach.cutShadows : Mach := (m.shadowJudge .a).shadowJudge .b

theorem Mach.sieveCutoff_eq {m : Mach} (hcut : m.lane.cut = false) (hrun : m.tick.running = true) :
    m.sieveCutoff = m.cutTaken.cutMissing.cutDisputed.judge.undisputed.cutSlots.cutGoverned.cutSettled.cutShadows := by
  refine (if_neg ?_).trans rfl
  rw [hcut, hrun]
  decide

theorem Mach.sieveCutoff_idle {m : Mach} (h : m.lane.cut = true ∨ m.tick.running = false) : m.sieveCutoff = m := by
  refine if_pos ?_
  obtain h | h := h
  · rw [h]
    rfl
  · rw [h]
    exact Bool.or_true _

/-- No disagreement and no message of the tick before waits. -/
structure Mach.Unheld : Prop where
  disputed : m.lane.disputed = []
  held : m.net.held = []

variable {m}

theorem Mach.settleEntries_none (h : m.lane.disputed = []) : m.settleEntries = m := by
  have hset : (m.onLb fun b => { b with disputed := [] }) = m := by
    rw [← h]
    rfl
  unfold Mach.settleEntries
  dsimp only
  rw [hset, h]
  split <;> rfl

theorem Mach.releaseHeld_none (h : m.net.held = []) : m.releaseHeld = m := by
  have hset : ∀ p, { m.net with held := m.net.held.filter p } = m.net := fun p => by rw [h, List.filter_nil, ← h]
  unfold Mach.releaseHeld
  dsimp only
  rw [h]
  exact congrArg (fun n => { m with net := n }) (hset _)

theorem Mach.cutSettled_unheld (h : m.settleWrites.Unheld) : m.cutSettled = m.settleWrites := by
  rw [Mach.cutSettled, Mach.settleEntries_none h.disputed, Mach.releaseHeld_none h.held]

theorem Mach.shadowJudge_other {l : Lane} (h : m.laneCode l ≠ 5) : m.shadowJudge l = m := if_pos (.inl h)

theorem Mach.cutShadows_none (ha : m.laneCode .a ≠ 5) (hb : m.laneCode .b ≠ 5) : m.cutShadows = m := by
  rw [Mach.cutShadows, Mach.shadowJudge_other ha, Mach.shadowJudge_other hb]

theorem Mach.cutGoverned_none (h : m.slotsOf .pump = []) : m.cutGoverned = m := by
  rw [Mach.cutGoverned, h]
  rfl

theorem Mach.cutDisputed_alone (h : m.pairJudged = false) : m.cutDisputed = m := by
  have hwrites : m.writesDiffer = false := by rw [Mach.writesDiffer, h]; rfl
  unfold Mach.cutDisputed
  dsimp only
  rw [hwrites, if_neg Bool.false_ne_true, h, if_neg Bool.false_ne_true]

theorem Mach.cutDisputed_agreed (hw : m.writesDiffer = false) (hheld : m.net.held = []) : m.cutDisputed = m := by
  have hover : m.overdue = [] := by rw [Mach.overdue, hheld]; rfl
  unfold Mach.cutDisputed
  dsimp only
  rw [hw, if_neg Bool.false_ne_true, hover]
  split <;> rfl

theorem Mach.judge_alone (h : m.pairJudged = false) : m.judge = m := if_pos (by rw [h]; exact Bool.or_true _)

theorem Mach.judge_agreed (h : m.lane.disputes = []) : m.judge = m := if_pos (by rw [h]; rfl)

theorem Mach.settleWrites_alone (h : m.pairJudged = false) : m.settleWrites = m := if_pos (by rw [h]; rfl)

theorem Mach.undisputed_self (h : m.lane.disputes = []) : m.undisputed = m := by
  rw [Mach.undisputed, ← h]
  rfl

/-- Every slot that an admitted lane runs has its frame. -/
theorem Mach.missingFrames_none (h : ∀ l, m.admitted l = true → ∀ k ∈ m.ownSlots l, (m.sv k).holds l = true) : m.missingFrames = m := by
  have hmissing : ∀ l, (if m.admitted l = true then (m.ownSlots l).filter fun k => !(m.sv k).holds l else []) = [] := fun l => by
    split
    next hl =>
      rw [List.filter_eq_nil_iff]
      intro k hk
      rw [h l hl k hk]
      decide
    next => rfl
  unfold Mach.missingFrames
  dsimp only
  rw [hmissing, hmissing]
  rfl

theorem Mach.accOverdue_none (h : m.dma.acc = []) : m.accOverdue = m := by
  have hset : ∀ p, { m.dma with acc := m.dma.acc.filter p } = m.dma := fun p => by rw [h, List.filter_nil, ← h]
  unfold Mach.accOverdue
  dsimp only
  rw [h]
  exact congrArg (fun d => { m with dma := d }) (hset _)
end

end Sys2Proof.Machine
end

section
/-! A cutoff that raises nothing: frames that stand, or give way to the other lane's (R303, R314 to R316, R322). -/

namespace Sys2Proof.Machine

variable {s : State} {cyc : Nat}

/-! ### One lane's frames go on -/

section
variable {adm : Lane → Bool} {l : Lane} {x : SieveSlot}

/-- Only one lane is admitted, and its frames passed their envelope. -/
structure SieveSlot.OnlyOf (adm : Lane → Bool) (l : Lane) (x : SieveSlot) : Prop where
  shut : adm l.other = false
  admitted : adm l = true
  accepted : ∀ f, x.accepted = some (f, l) → x.acceptedBad = false
  second : ∀ f, x.second = some (f, l) → x.secondBad = false

variable (h : x.OnlyOf adm l)
include h

theorem SieveSlot.OnlyOf.filter_none {z : Option (Frame × Lane)} (hz : ∀ f, z ≠ some (f, l)) : z.filter (fun y => adm y.2) = none := by
  have hside : ∀ k : Lane, k = l ∨ k = l.other := fun k => by cases k <;> cases l <;> decide
  rw [Option.filter_eq_none_iff]
  rintro ⟨f, k⟩ hf hk
  obtain rfl | rfl := hside k
  · exact hz f hf
  · exact absurd (h.shut.symm.trans hk) Bool.false_ne_true

/-- What goes on is the admitted lane's frame, where it stands. -/
theorem SieveSlot.OnlyOf.cases :
    (∃ f, x.accepted = some (f, l) ∧ x.given adm = x) ∨
    ((∀ f, x.accepted ≠ some (f, l)) ∧ ∃ f, x.second = some (f, l) ∧
      x.given adm = { x with accepted := some (f, l), acceptedBad := x.secondBad, second := none }) ∨
    ((∀ f, x.accepted ≠ some (f, l)) ∧ (∀ f, x.second ≠ some (f, l)) ∧ x.given adm = { x with accepted := none, second := none }) := by
  by_cases ha : ∃ f, x.accepted = some (f, l)
  · obtain ⟨f, hf⟩ := ha
    exact .inl ⟨f, hf, SieveSlot.given_accepted hf h.admitted⟩
  · have hnone := h.filter_none (not_exists.1 ha)
    by_cases hs : ∃ f, x.second = some (f, l)
    · obtain ⟨f, hf⟩ := hs
      exact .inr (.inl ⟨not_exists.1 ha, f, hf, SieveSlot.given_second hnone hf h.admitted⟩)
    · exact .inr (.inr ⟨not_exists.1 ha, not_exists.1 hs, SieveSlot.given_none hnone (h.filter_none (not_exists.1 hs))⟩)

theorem SieveSlot.OnlyOf.passes : (x.given adm).Passes := by
  obtain ⟨f, hf, hg⟩ | ⟨-, f, hf, hg⟩ | ⟨-, -, hg⟩ := h.cases
  · rw [hg]
    exact fun _ _ => h.accepted f hf
  · rw [hg]
    exact fun _ _ => h.second f hf
  · rw [hg]
    exact SieveSlot.passes_of_none rfl

theorem SieveSlot.OnlyOf.lane {y : Frame × Lane} (hy : (x.given adm).accepted = some y) : y.2 = l := by
  obtain ⟨f, hf, hg⟩ | ⟨-, f, -, hg⟩ | ⟨-, -, hg⟩ := h.cases
  · rw [hg, hf] at hy
    exact congrArg Prod.snd (Option.some.inj hy).symm
  · rw [hg] at hy
    exact congrArg Prod.snd (Option.some.inj hy).symm
  · rw [hg] at hy
    exact absurd hy nofun

theorem SieveSlot.OnlyOf.keeps {f : Frame} (hf : x.accepted = some (f, l)) : (x.given adm).accepted = some (f, l) := by
  rw [SieveSlot.given_accepted hf h.admitted, hf]

theorem SieveSlot.OnlyOf.gives {f g : Frame} (hg : x.accepted = some (g, l.other)) (hf : x.second = some (f, l)) :
    (x.given adm).accepted = some (f, l) := by
  have hne : l.other ≠ l := by cases l <;> decide
  rw [SieveSlot.given_second (h.filter_none fun e he => hne (congrArg Prod.snd (Option.some.inj (hg.symm.trans he)))) hf h.admitted]
end

/-! ### A cutoff with every frame there -/

/-- A cutoff at which nothing but frames and write lists is to be judged. -/
structure Mach.CutReady (m : Mach) : Prop where
  cut : m.lane.cut = false
  running : m.tick.running = true
  pump : m.slotsOf .pump = []
  acc : m.dma.acc = []
  held : m.net.held = []
  disputed : m.lane.disputed = []

theorem State.at_cutReady (h : CutoffOfFrames s) : (s.at cyc).CutReady := by
  obtain ⟨hcut, hrun, hpump, hacc, hheld, hdisputed⟩ := h
  exact ⟨hcut, hrun, hpump, hacc, hheld, hdisputed⟩

section
variable {m : Mach} (hr : m.CutReady) (hframes : ∀ l, m.admitted l = true → ∀ k ∈ m.ownSlots l, (m.sv k).holds l = true)
include hr hframes

theorem Mach.CutReady.start :
    m.sieveCutoff = m.cutTaken.cutDisputed.judge.undisputed.cutSlots.cutGoverned.cutSettled.cutShadows := by
  have hmissing : m.cutTaken.cutMissing = m.cutTaken := by
    rw [Mach.cutMissing, Mach.missingFrames_none (m := m.cutTaken) hframes, Mach.accOverdue_none (m := m.cutTaken) hr.acc]
  rw [Mach.sieveCutoff_eq hr.cut hr.running, hmissing]

theorem Mach.CutReady.alone (hp : m.pairJudged = false) :
    m.sieveCutoff = m.cutTaken.undisputed.cutSlots.cutGoverned.cutSettled.cutShadows := by
  rw [hr.start hframes, Mach.cutDisputed_alone (m := m.cutTaken) hp, Mach.judge_alone (m := m.cutTaken) hp]

theorem Mach.CutReady.agreed (hw : m.writesDiffer = false) (hd : m.lane.disputes = []) :
    m.sieveCutoff = m.cutTaken.cutSlots.cutGoverned.cutSettled.cutShadows := by
  rw [hr.start hframes, Mach.cutDisputed_agreed (m := m.cutTaken) hw hr.held, Mach.judge_agreed (m := m.cutTaken) hd,
    Mach.undisputed_self (m := m.cutTaken) hd]
end

/-- After the slots nothing is left to be done where no pump runs, nothing is written and no lane is in SHADOW. -/
theorem Mach.cutEnd {m : Mach} (hpump : m.slotsOf .pump = []) (hdisputed : m.lane.disputed = []) (hheld : m.net.held = [])
    (hwrites : m.settleWrites = m) (hcodes : ∀ l, m.laneCode l ≠ 5) : m.cutGoverned.cutSettled.cutShadows = m := by
  rw [Mach.cutGoverned_none hpump, Mach.cutSettled_unheld (by rw [hwrites]; exact ⟨hdisputed, hheld⟩), hwrites,
    Mach.cutShadows_none (hcodes .a) (hcodes .b)]

theorem Mach.pairJudged_of_dead {m : Mach} {l : Lane} (h : m.live l = false) : m.pairJudged = false := by
  cases l
  · rw [Mach.pairJudged, h, Bool.and_false, Bool.false_and]
  · rw [Mach.pairJudged, h, Bool.and_false]

theorem Mach.live_of_code {m : Mach} {l : Lane} {c : Nat} (h : m.laneCode l = c) (hc : c ≠ 1) : m.live l = false := by
  rw [Mach.live, h]
  exact beq_eq_false_iff_ne.2 hc

theorem Mach.code_of_live {m : Mach} {l : Lane} (h : m.live l = true) : m.laneCode l ≠ 5 := by
  rw [Mach.live, beq_iff_eq] at h
  rw [h]
  decide

theorem Mach.live_of_admitted {m : Mach} {l : Lane} (h : m.admitted l = true) : m.live l = true := by
  rw [Mach.admitted, Bool.and_eq_true] at h
  exact h.1

theorem Mach.not_admitted_of_dead {m : Mach} {l : Lane} (h : m.live l = false) : m.admitted l = false := by
  rw [Mach.admitted, h, Bool.false_and]

theorem Lane.all_of {P : Lane → Prop} (l : Lane) (h : P l) (ho : P l.other) : ∀ k, P k := by
  cases l
  · rintro (_ | _)
    exacts [h, ho]
  · rintro (_ | _)
    exacts [ho, h]

/-! ### A tick in SHADOW -/

theorem SlotSettled.stands {m : Mach} {k : Nat} (h : SlotSettled m k) : (m.sv k).given m.admitted = m.sv k ∧ (m.sv k).Passes := by
  obtain ⟨ha, hs⟩ | ⟨x, hx, hadm, hpass⟩ := h
  · exact ⟨SieveSlot.given_empty ha hs, SieveSlot.passes_of_none ha⟩
  · exact ⟨SieveSlot.given_accepted hx hadm, fun _ _ => hpass⟩

theorem Mach.CutReady.shadow {m : Mach} (hr : m.CutReady) {l : Lane} (hcode : m.laneCode l = 5) (ho : m.admitted l.other = true)
    (hframes : ∀ k ∈ m.ownSlots l.other, (m.sv k).holds l.other = true) (hset : ∀ k, k < 16 → SlotSettled m k) :
    m.sieveCutoff = m.cutTaken.undisputed.shadowJudge l := by
  have hdead := Mach.live_of_code hcode (by decide)
  have hpair := Mach.pairJudged_of_dead hdead
  have hslots : m.cutTaken.undisputed.cutSlots = m.cutTaken.undisputed :=
    Mach.cutSlots_self fun k hk => SlotSettled.stands (m := m.cutTaken.undisputed) (hset k hk)
  have hwrites : m.cutTaken.undisputed.settleWrites = m.cutTaken.undisputed := Mach.settleWrites_alone hpair
  have hother : m.laneCode l.other ≠ 5 := Mach.code_of_live (Mach.live_of_admitted ho)
  rw [hr.alone (Lane.all_of l (fun h => absurd ((Mach.not_admitted_of_dead hdead).symm.trans h) Bool.false_ne_true) fun _ => hframes) hpair,
    hslots, Mach.cutGoverned_none (m := m.cutTaken.undisputed) hr.pump,
    Mach.cutSettled_unheld (by rw [hwrites]; exact ⟨hr.disputed, hr.held⟩), hwrites]
  cases l
  · refine Mach.shadowJudge_other (m := m.cutTaken.undisputed.shadowJudge .a) fun h => hother ?_
    have hkept : (m.cutTaken.undisputed.shadowJudge .a).laneCode .b = m.cutTaken.undisputed.laneCode .b := by
      unfold Mach.shadowJudge
      split
      · rfl
      · split <;> rfl
    exact hkept.symm.trans h
  · rw [Mach.cutShadows, Mach.shadowJudge_other (m := m.cutTaken.undisputed) (l := .a) hother]

/-- How often a lane in SHADOW has agreed, and whether it has not, after one more tick. -/
def LaneState.shadowed (agrees : Bool) (x : LaneState) : LaneState :=
  { x with shadowEqual := x.shadowEqual + agrees.toNat, shadowBad := x.shadowBad || !agrees }

theorem Mach.shadowJudge_eq {m : Mach} {l : Lane} (hcode : m.laneCode l = 5) (ho : m.admitted l.other = true) :
    m.shadowJudge l = m.onLane l (LaneState.shadowed (m.shadowAgrees l)) := by
  have hno : ¬(m.laneCode l ≠ 5 ∨ (!m.admitted l.other) = true) := by
    rw [hcode, ho]
    decide
  refine (if_neg hno).trans ?_
  split
  next h =>
    rw [h]
    exact congrArg (m.onLane l) (funext fun x => by rw [LaneState.shadowed, Bool.not_true, Bool.or_false]; rfl)
  next h =>
    rw [Bool.eq_false_iff.2 h]
    exact congrArg (m.onLane l) (funext fun x => by rw [LaneState.shadowed, Bool.not_false, Bool.or_true]; rfl)

theorem exec_sieveCutoff_shadow {l : Lane} (h : CutoffOfFrames s) (hcode : s.m.laneCode l = 5) (ho : s.m.admitted l.other = true)
    (hframes : ∀ k ∈ s.m.ownSlots l.other, (s.m.sv k).holds l.other = true) (hset : ∀ k : Fin 16, SlotSettled s.m k) :
    ∃ t, exec (.sieveCutoff cyc) s = .next t ∧ t.m.lane.cut = true ∧ t.m.lane.slots = s.m.lane.slots ∧ Quiet s t [] ∧
      (t.m.lanes.get l).shadowEqual = (s.m.lanes.get l).shadowEqual + (s.m.shadowAgrees l).toNat ∧
      (t.m.lanes.get l).shadowBad = ((s.m.lanes.get l).shadowBad || !s.m.shadowAgrees l) := by
  have hf := (State.at_cutReady (cyc := cyc) h).shadow (l := l) hcode ho hframes fun k hk => hset ⟨k, hk⟩
  rw [Mach.shadowJudge_eq (m := (s.at cyc).cutTaken.undisputed) hcode ho] at hf
  obtain ⟨t, ht, hm, hquiet⟩ := run_quiet (f := fun m => m.sieveCutoff) hf (fun b _ => State.at_rd cyc s b) rfl
  have hlane := (congrArg Mach.lane hm).trans (Mach.settle_lane _)
  have hlanes := congrArg (Two.get · l) ((congrArg Mach.lanes hm).trans (Mach.settle_lanes _))
  have hself : t.m.lanes.get l = LaneState.shadowed (s.m.shadowAgrees l) (s.m.lanes.get l) := hlanes.trans (Two.get_set_self ..)
  exact ⟨t, ht, by rw [hlane]; rfl, by rw [hlane]; rfl, hquiet, by rw [hself, LaneState.shadowed], by rw [hself, LaneState.shadowed]⟩

theorem exec_sieveCutoff_idle (h : s.m.lane.cut = true ∨ s.m.tick.running = false) :
    ∃ t, exec (.sieveCutoff cyc) s = .next t ∧ t.m.lane = s.m.lane ∧ Quiet s t [] := by
  obtain ⟨t, ht, hm, hquiet⟩ := run_idle (s := s) (cyc := cyc) (f := fun m => m.sieveCutoff) (Mach.sieveCutoff_idle (m := s.at cyc) h)
  exact ⟨t, ht, by rw [hm, Mach.settle_lane]; rfl, hquiet⟩

/-! ### A lane that is admitted no longer -/

/-- One lane alone is admitted, and it has written nothing. -/
theorem Mach.settleWrites_only {m : Mach} {l : Lane} (hl : m.admitted l = false) (ho : m.admitted l.other = true)
    (hw : (m.lanes.get l.other).writeList = []) : m.settleWrites = m := by
  unfold Mach.settleWrites
  split
  next => rfl
  next =>
    cases l
    · rw [hl, show m.admitted .b = true from ho]
      dsimp only
      rw [show m.lanes.b.writeList = [] from hw]
      rfl
    · rw [hl, show m.admitted .a = true from ho]
      dsimp only
      rw [show m.lanes.a.writeList = [] from hw]
      rfl

theorem Mach.CutReady.gaveWay {m : Mach} (hr : m.CutReady) {l : Lane} (hlive : m.live l = true) (hl : m.admitted l = false)
    (ho : m.admitted l.other = true) (hd : m.lane.disputes = []) (hw : (m.lanes.get l.other).writeList = [])
    (hframes : ∀ k ∈ m.ownSlots l.other, (m.sv k).holds l.other = true)
    (hpass : ∀ k, k < 16 → (m.sv k).OnlyOf m.admitted l.other) :
    ∃ x, m.sieveCutoff = m.cutTaken.withSlots x ∧ ∀ k, k < 16 → nth x k = (m.sv k).given m.admitted := by
  have hagree : m.writesDiffer = false := by
    cases l
    · rw [Mach.writesDiffer, hl, Bool.and_false, Bool.false_and, Bool.false_and]
    · rw [Mach.writesDiffer, hl, Bool.and_false, Bool.false_and]
  obtain ⟨x, hx, hnth, -⟩ := Mach.cutSlots_passes (m := m.cutTaken) fun k hk => (hpass k hk).passes
  have hwrites : (m.cutTaken.withSlots x).settleWrites = m.cutTaken.withSlots x :=
    Mach.settleWrites_only hl ho hw
  refine ⟨x, ?_, fun k hk => (hnth k).trans (if_pos hk)⟩
  rw [hr.agreed (Lane.all_of l (fun h => absurd (hl.symm.trans h) Bool.false_ne_true) fun _ => hframes) hagree hd, hx]
  exact Mach.cutEnd (m := m.cutTaken.withSlots x) hr.pump hr.disputed hr.held hwrites
    (Lane.all_of l (Mach.code_of_live hlive) (Mach.code_of_live (Mach.live_of_admitted ho)))

theorem exec_sieveCutoff_gaveWay {l : Lane} (h : CutoffOfFrames s) (hlive : s.m.live l = true) (hl : s.m.admitted l = false)
    (ho : s.m.admitted l.other = true) (hd : s.m.lane.disputes = []) (hw : (s.m.lanes.get l.other).writeList = [])
    (hframes : ∀ k ∈ s.m.ownSlots l.other, (s.m.sv k).holds l.other = true)
    (hpass : ∀ (k : Fin 16) (x : Frame), ((s.m.sv k).accepted = some (x, l.other) → (s.m.sv k).acceptedBad = false) ∧
      ((s.m.sv k).second = some (x, l.other) → (s.m.sv k).secondBad = false)) :
    ∃ t, exec (.sieveCutoff cyc) s = .next t ∧ t.m.lane.cut = true ∧ Quiet s t [] ∧
      ∀ (k : Fin 16) (x : Frame),
        ((s.m.sv k).accepted = some (x, l.other) → (t.m.sv k).accepted = some (x, l.other)) ∧
        (∀ y, (s.m.sv k).accepted = some (y, l) → (s.m.sv k).second = some (x, l.other) →
          (t.m.sv k).accepted = some (x, l.other)) ∧
        ((t.m.sv k).accepted ≠ some (x, l)) := by
  have hback : l.other.other = l := by cases l <;> rfl
  have honly : ∀ k : Fin 16, (s.m.sv k).OnlyOf s.m.admitted l.other := fun k =>
    ⟨by rw [hback]; exact hl, ho, fun x => (hpass k x).1, fun x => (hpass k x).2⟩
  obtain ⟨x, hx, hnth⟩ := (State.at_cutReady (cyc := cyc) h).gaveWay (l := l) hlive hl ho hd hw hframes fun k hk => honly ⟨k, hk⟩
  obtain ⟨t, ht, hm, hquiet⟩ := run_quiet (f := fun m => m.sieveCutoff) hx (fun b _ => State.at_rd cyc s b) rfl
  have hlane := (congrArg Mach.lane hm).trans (Mach.settle_lane _)
  have hsv : ∀ k : Fin 16, t.m.sv k = (s.m.sv k).given s.m.admitted := fun k => by
    rw [Mach.sv, hlane]
    exact hnth k k.isLt
  refine ⟨t, ht, by rw [hlane]; rfl, hquiet, fun k f => ⟨fun hf => ?_, fun y hy hf => ?_, fun hf => ?_⟩⟩
  · rw [hsv]
    exact (honly k).keeps hf
  · rw [hsv]
    exact (honly k).gives (by rw [hback]; exact hy) hf
  · rw [hsv] at hf
    have hne : l ≠ l.other := by cases l <;> decide
    exact hne ((honly k).lane hf)

/-! ### Equal write lists (R303) -/

/-- What a write of the merged list waits as. -/
def Mach.writeEntry (m : Mach) (origin : Nat) (merged : Bool) (w : Nat × Word) : JEntry :=
  { m.entryOf (m.seq + 1) ⟨1, 0, origin, physical w.1 % 2 ^ 32, w.2.toNat, []⟩ with merged := merged }

/-- Entries without a payload. -/
def PlainEntries (es : List JEntry) : Prop := ∀ e ∈ es, e.payload = []

theorem PlainEntries.bytes_le {es : List JEntry} (h : PlainEntries es) : (es.map fun e => entryBytes e.payload).sum = 32 * es.length := by
  have hbytes : ∀ e ∈ es, entryBytes e.payload = 32 := fun e he => by rw [h e he]; rfl
  rw [List.map_congr_left hbytes, List.map_const', List.sum_replicate, smul_eq_mul, Nat.mul_comm]

theorem Mach.waitingBytes_le {m : Mach} (h : PlainEntries m.lane.waiting) (t : Nat) : m.waitingBytes t ≤ 32 * m.lane.waiting.length := by
  have hplain : PlainEntries (m.lane.waiting.filter fun e => e.accTick == t) := fun e he => h e (List.mem_of_mem_filter he)
  rw [Mach.waitingBytes, hplain.bytes_le]
  exact Nat.mul_le_mul_left 32 (List.length_filter_le ..)

theorem entryBytes_nil : entryBytes [] = 32 := rfl

theorem Mach.place_first {m : Mach} {first last : Nat} {entry : Nat → JEntry} (hp : (entry first).payload = [])
    (h : m.waitingBytes first + 32 ≤ 1024) : m.place first last entry = m.wait (entry first) :=
  if_pos (by rw [hp, entryBytes_nil]; exact h)

theorem Mach.place_write {m : Mach} (origin : Nat) (merged : Bool) (w : Nat × Word) (h : PlainEntries m.lane.waiting)
    (hn : m.lane.waiting.length < 32) :
    (m.place (m.seq + 1) (m.seq + 2) fun t =>
      { m.entryOf t ⟨1, 0, origin, physical w.1 % 2 ^ 32, w.2.toNat, []⟩ with merged := merged }) = m.wait (m.writeEntry origin merged w) := by
  have hbytes := Mach.waitingBytes_le h (m.seq + 1)
  exact Mach.place_first rfl (by omega)

/-- The Sieve's entries that wait replaced. -/
def Mach.withWaiting (m : Mach) (x : List JEntry) : Mach := m.onLb fun b => { b with waiting := x }

/-- At most 32 writes find room in the next tick. -/
theorem Mach.journalWrites_waits (origin : Nat) (merged : Bool) (ws : List (Nat × Word)) {m : Mach} (h : PlainEntries m.lane.waiting)
    (hn : m.lane.waiting.length + ws.length ≤ 32) : ∃ x, m.journalWrites ws origin merged = m.withWaiting x := by
  induction ws generalizing m with
  | nil => exact ⟨m.lane.waiting, rfl⟩
  | cons w ws ih =>
    rw [List.length_cons] at hn
    have hperm := insertEntry_perm (m.writeEntry origin merged w) m.lane.waiting
    have hplain : PlainEntries (m.wait (m.writeEntry origin merged w)).lane.waiting := fun e he => by
      obtain rfl | hold := List.mem_cons.1 (hperm.mem_iff.1 he)
      · rfl
      · exact h e hold
    have hlen : (m.wait (m.writeEntry origin merged w)).lane.waiting.length = m.lane.waiting.length + 1 := hperm.length_eq
    obtain ⟨x, hx⟩ := ih hplain (by omega)
    refine ⟨x, Eq.trans ?_ hx⟩
    rw [Mach.journalWrites, forL, List.foldl_cons, Mach.place_write origin merged w h (by omega)]
    rfl

theorem Mach.journalWrites_one {m : Mach} (h : m.lane.waiting = []) (origin : Nat) (merged : Bool) (w : Nat × Word) :
    m.journalWrites [w] origin merged = m.withWaiting [m.writeEntry origin merged w] := by
  have hplain : PlainEntries m.lane.waiting := by
    rw [h]
    exact fun _ he => absurd he List.not_mem_nil
  rw [Mach.journalWrites, forL, List.foldl_cons, List.foldl_nil, Mach.place_write origin merged w hplain (by rw [h]; decide)]
  have hset : m.wait (m.writeEntry origin merged w) = m.withWaiting (insertEntry (m.writeEntry origin merged w) m.lane.waiting) := rfl
  rw [hset, h, insertEntry_nil]

/-- Both lanes have sent their frames, and what stands at each slot is what both sent. -/
theorem BothSent.frames {m : Mach} (h : BothSent m) (l : Lane) : ∀ k ∈ m.ownSlots l, (m.sv k).holds l = true := by
  obtain ⟨-, -, -, hmapped, hboth⟩ := h
  intro k hk
  have hin := List.mem_of_mem_filter hk
  have hlt : k < 16 := List.mem_range.1 (List.mem_of_mem_filter hin)
  obtain ⟨ha, hb⟩ | ⟨hnone, -⟩ := hboth ⟨k, hlt⟩
  · cases l
    exacts [ha, hb]
  · exact absurd hnone (hmapped k hin)

theorem Mach.pairJudged_codes {m : Mach} (h : m.pairJudged = true) : m.laneCode .a ≠ 5 ∧ m.laneCode .b ≠ 5 := by
  rw [Mach.pairJudged, Bool.and_eq_true, Bool.and_eq_true] at h
  obtain ⟨⟨-, ha⟩, hb⟩ := h
  exact ⟨Mach.code_of_live ha, Mach.code_of_live hb⟩

theorem Mach.settleWrites_both {m : Mach} (hp : m.pairJudged = true) (ha : m.admitted .a = true) (hb : m.admitted .b = true) :
    m.settleWrites = m.journalWrites m.lanes.a.writeList m.active.origin true := by
  rw [Mach.settleWrites, hp, if_neg (by decide), ha, hb]

theorem Mach.CutReady.merged {m : Mach} (hr : m.CutReady) (h : BothSent m) (hd : m.lane.disputes = []) (hset : ∀ k, k < 16 → SlotSettled m k)
    {w : List (Nat × Word)} (ha : m.lanes.a.writeList = w) (hb : m.lanes.b.writeList = w) (hroom : m.lane.waiting = [])
    (hn : w.length ≤ 32) :
    ∃ x, m.sieveCutoff = m.cutTaken.withWaiting x ∧ m.cutTaken.journalWrites w m.active.origin true = m.cutTaken.withWaiting x := by
  have hframes := BothSent.frames h
  obtain ⟨hpair, hadma, hadmb, -, -⟩ := h
  obtain ⟨ha5, hb5⟩ := Mach.pairJudged_codes hpair
  have hagree : m.writesDiffer = false := by
    rw [Mach.writesDiffer, ha, hb, bne_self_eq_false, Bool.and_false]
  have hslots : m.cutTaken.cutSlots = m.cutTaken := Mach.cutSlots_self fun k hk => SlotSettled.stands (m := m.cutTaken) (hset k hk)
  have hwaits := Mach.journalWrites_waits (m := m.cutTaken) m.active.origin true w (by
    rw [show m.cutTaken.lane.waiting = [] from hroom]
    exact fun _ he => absurd he List.not_mem_nil) (by rw [show m.cutTaken.lane.waiting = [] from hroom, List.length_nil]; omega)
  obtain ⟨x, hx⟩ := hwaits
  have hwrites : m.cutTaken.settleWrites = m.cutTaken.withWaiting x := by
    rw [Mach.settleWrites_both (m := m.cutTaken) hpair hadma hadmb, show m.cutTaken.lanes.a.writeList = w from ha]
    exact hx
  refine ⟨x, ?_, hx⟩
  rw [hr.agreed (fun l _ => hframes l) hagree hd, hslots, Mach.cutGoverned_none (m := m.cutTaken) hr.pump,
    Mach.cutSettled_unheld (by rw [hwrites]; exact ⟨hr.disputed, hr.held⟩), hwrites]
  exact Mach.cutShadows_none (m := m.cutTaken.withWaiting x) ha5 hb5

theorem exec_sieveCutoff_merged {w : List (Nat × Word)} (h : CutoffOfFrames s) (hsent : BothSent s.m) (hd : s.m.lane.disputes = [])
    (hset : ∀ k : Fin 16, SlotSettled s.m k) (ha : s.m.lanes.a.writeList = w) (hb : s.m.lanes.b.writeList = w) (hroom : s.roomy)
    (hn : w.length ≤ 32) :
    ∃ t, exec (.sieveCutoff cyc) s = .next t ∧ t.m.lane.cut = true ∧ t.m.lane.slots = s.m.lane.slots ∧
      (w = [] → t.m.lane.waiting = []) ∧
      (∀ x, w = [x] → t.m.lane.waiting = [{ (s.at cyc).entryOf (s.m.seq + 1)
        ⟨1, 0, s.m.active.origin, physical x.1 % 2 ^ 32, x.2.toNat, []⟩ with merged := true }]) ∧ Quiet s t [] := by
  obtain ⟨x, hx, hwaits⟩ := (State.at_cutReady (cyc := cyc) h).merged hsent hd (fun k hk => hset ⟨k, hk⟩) ha hb hroom hn
  obtain ⟨t, ht, hm, hquiet⟩ := run_quiet (f := fun m => m.sieveCutoff) hx (fun b _ => State.at_rd cyc s b) rfl
  have hlane := (congrArg Mach.lane hm).trans (Mach.settle_lane _)
  have hwaiting : ∀ y, (s.at cyc).cutTaken.journalWrites w (s.at cyc).active.origin true = (s.at cyc).cutTaken.withWaiting y →
      t.m.lane.waiting = y := fun y hy => by
    rw [hlane]
    exact congrArg (·.lane.waiting) (hwaits.symm.trans hy)
  refine ⟨t, ht, by rw [hlane]; rfl, by rw [hlane]; rfl, fun hw => hwaiting [] ?_, fun y hw => hwaiting _ ?_, hquiet⟩
  · rw [hw, ← show (s.at cyc).cutTaken.lane.waiting = [] from hroom]
    rfl
  · rw [hw]
    exact Mach.journalWrites_one (m := (s.at cyc).cutTaken) hroom _ true y

end Sys2Proof.Machine
end

section
/-! A cutoff with disagreements: one verdict, or a restart of both lanes (R321, R325). -/

namespace Sys2Proof.Machine

variable {s : State} {cyc : Nat}

abbrev laneIrqRegs : List Nat := [Reg.LANE_L_IRQ_STAT 0, Reg.LANE_L_IRQ_STAT 1]

theorem Mach.FocTells.laneIrq {m₀ m : Mach} {regs : List Nat} {es : List Event} (h : m₀.FocTells regs es m) (hregs : laneIrqRegs ⊆ regs)
    (bit : Nat) : m₀.FocTells regs es (m.laneIrq bit) :=
  h.orrBoth (hregs (by decide)) (hregs (by decide)) (by decide) (by decide) _

/-- `m'` is `m` but for registers, events and lanes: the Sieve's part, the ports and the image are the same. -/
structure Mach.SieveKept (m m' : Mach) : Prop where
  lane : m'.lane = m.lane
  net : m'.net = m.net
  image : m'.image = m.image
  dma : m'.dma = m.dma

theorem Mach.net_of_bare {m m' : Mach} (h : m'.bare = m.bare) : m'.net = m.net := (congrArg Mach.net h).trans rfl

theorem Mach.dma_of_bare {m m' : Mach} (h : m'.bare = m.bare) : m'.dma = m.dma := (congrArg Mach.dma h).trans rfl

theorem Mach.SieveKept.of_bare {m m' : Mach} (h : m'.bare = m.bare) : m.SieveKept m' :=
  ⟨Mach.lane_of_bare h, Mach.net_of_bare h, Mach.image_of_bare h, Mach.dma_of_bare h⟩

theorem Mach.SieveKept.trans {m m₁ m₂ : Mach} (h : m.SieveKept m₁) (h' : m₁.SieveKept m₂) : m.SieveKept m₂ :=
  ⟨h'.lane.trans h.lane, h'.net.trans h.net, h'.image.trans h.image, h'.dma.trans h.dma⟩

theorem Mach.slotsOf_congr {m m' : Mach} (h : m'.image = m.image) (t : SlotType) : m'.slotsOf t = m.slotsOf t := by
  unfold Mach.slotsOf Mach.isType Mach.slotType Mach.slotEntry
  rw [h]

/-! ### A lane judged wrong -/

section
variable (m : Mach) (l : Lane) (n : Nat)

theorem Mach.raiseF2_f2_other (code slot : Nat) (d : List Nat) :
    ((m.raiseF2 l code slot d).lanes.get l.other).f2 = (m.lanes.get l.other).f2 := by
  cases l
  · exact Bool.or_false _
  · exact Bool.or_false _

/-- A lane marked wrong, and told so. -/
def Mach.blamed : Mach := (m.onLane l fun s => { s with wrong := true }).raiseF2 l 0x3001 0xFF ([l.ix, n] ++ leBytes 4 m.seq)

theorem Mach.judgeWrong_bare : (m.judgeWrong l n).bare = (m.blamed l n).bare :=
  (Mach.bare_laneIrq ..).trans (Mach.bare_setFld ..)

theorem Mach.judgeWrong_lanes : (m.judgeWrong l n).lanes = (m.blamed l n).lanes := Mach.lanes_of_bare (m.judgeWrong_bare l n)

theorem Mach.judgeWrong_kept : m.SieveKept (m.judgeWrong l n) :=
  Mach.SieveKept.trans (m₁ := m.blamed l n) ⟨rfl, rfl, rfl, rfl⟩ (.of_bare (m.judgeWrong_bare l n))

theorem Mach.judgeWrong_tells {m₀ : Mach} {es : List Event} (h : m₀.FocTells (Reg.LANE_FAULTS :: laneIrqRegs) es m) :
    m₀.FocTells (Reg.LANE_FAULTS :: laneIrqRegs) (es ++ [eventAt m₀ 0x3001 2 0xFF ([l.ix, n] ++ leBytes 4 m.seq) l.origin])
      (m.judgeWrong l n) :=
  (((h.onLane l _).raiseF2 l 0x3001 0xFF ([l.ix, n] ++ leBytes 4 m.seq)).incSat (by decide) (by decide) 15 8).laneIrq (by decide) 0

theorem Mach.judgeWrong_faults :
    (m.judgeWrong l n).fld Reg.LANE_FAULTS 15 8 = min (m.fld Reg.LANE_FAULTS 15 8 + 1) 0xFF := by
  have hrd : (m.judgeWrong l n).rd Reg.LANE_FAULTS =
      (((m.onLane l fun s => { s with wrong := true }).raiseF2 l 0x3001 0xFF ([l.ix, n] ++ leBytes 4 m.seq)).incSat
        Reg.LANE_FAULTS 15 8).rd Reg.LANE_FAULTS := Mach.rd_orrBoth_other _ (by decide) (by decide) _
  rw [Mach.fld, hrd, ← Mach.fld, Mach.fld_incSat _ (by decide) (by decide)]
  rfl

theorem Mach.judgeWrong_rd {b : Nat} (h : b ∉ Reg.LANE_FAULTS :: laneIrqRegs) : (m.judgeWrong l n).rd b = m.rd b :=
  (m.judgeWrong_tells l n (.refl m _)).rd b h

theorem Mach.judgeWrong_laneCode (k : Lane) : (m.judgeWrong l n).laneCode k = m.laneCode k :=
  Mach.laneCode_congr (m.judgeWrong_rd l n (by decide)) k

theorem Mach.judgeWrong_shut : (m.judgeWrong l n).admitted l = false :=
  Mach.not_admitted_of_f2 _ (by rw [Mach.judgeWrong_lanes]; exact Mach.raiseF2_f2 ..)

theorem Mach.judgeWrong_other : (m.judgeWrong l n).admitted l.other = m.admitted l.other := by
  have hf2 : ((m.judgeWrong l n).lanes.get l.other).f2 = (m.lanes.get l.other).f2 := by
    rw [Mach.judgeWrong_lanes]
    exact (Mach.raiseF2_f2_other ..).trans (by cases l <;> rfl)
  rw [Mach.admitted, Mach.live, Mach.judgeWrong_laneCode, hf2]
  rfl

theorem Mach.judgeWrong_writes (k : Lane) : ((m.judgeWrong l n).lanes.get k).writeList = (m.lanes.get k).writeList := by
  rw [Mach.judgeWrong_lanes]
  cases l <;> cases k <;> rfl

end

/-- What both lanes have sent goes on as the one's that stays admitted. -/
theorem BothSent.slot {m : Mach} (h : BothSent m) {l : Lane} {adm : Lane → Bool} (hone : adm l = false) (ho : adm l.other = true) (k : Fin 16)
    (hacc : ∀ x, (m.sv k).accepted = some (x, l.other) → (m.sv k).acceptedBad = false)
    (hsec : ∀ x, (m.sv k).second = some (x, l.other) → (m.sv k).secondBad = false) :
    (m.sv k).OnlyOf adm l.other ∧ ((m.sv k).accepted ≠ none → ((m.sv k).given adm).accepted ≠ none) := by
  have hback : l.other.other = l := by cases l <;> rfl
  have honly : (m.sv k).OnlyOf adm l.other := ⟨by rw [hback]; exact hone, ho, hacc, hsec⟩
  refine ⟨honly, fun hsome => ?_⟩
  obtain ⟨f, hf, hg⟩ | ⟨-, f, -, hg⟩ | ⟨hna, hns, -⟩ := honly.cases
  · rw [hg, hf]
    exact nofun
  · rw [hg]
    exact nofun
  · obtain ⟨-, -, -, -, hboth⟩ := h
    obtain ⟨ha, hb⟩ | ⟨hnone, -⟩ := hboth k
    · have hheld : (m.sv k).holds l.other = true := by cases l; exacts [hb, ha]
      rw [SieveSlot.holds, Bool.or_eq_true, Option.any_eq_true, Option.any_eq_true] at hheld
      obtain ⟨⟨f, z⟩, hf, hz⟩ | ⟨⟨f, z⟩, hf, hz⟩ := hheld
      · exact absurd (hf.trans (congrArg (fun z => some (f, z)) (beq_iff_eq.1 hz))) (hna f)
      · exact absurd (hf.trans (congrArg (fun z => some (f, z)) (beq_iff_eq.1 hz))) (hns f)
    · exact absurd hnone hsome

theorem Mach.judge_wrong {m : Mach} {l : Lane} {n : Nat} (hd : m.lane.disputes ≠ []) (hp : m.pairJudged = true)
    (hv : m.verdict = some (l, n)) : m.judge = m.judgeWrong l n := by
  have hno : ¬(m.lane.disputes.isEmpty || !m.pairJudged) = true := by
    rw [hp, Bool.or_eq_true, List.isEmpty_iff]
    exact not_or.2 ⟨hd, by decide⟩
  refine (if_neg hno).trans ?_
  rw [hv]

/-- The machine after a disagreement with a verdict. -/
theorem Mach.CutReady.judged {m : Mach} (hr : m.CutReady) (h : BothSent m) (hd : m.lane.disputes ≠ []) {l : Lane} {n : Nat}
    (hv : m.verdict = some (l, n)) (ha : m.lanes.a.writeList = []) (hb : m.lanes.b.writeList = [])
    (hacc : ∀ k x, k < 16 → (m.sv k).accepted = some (x, l.other) → (m.sv k).acceptedBad = false)
    (hsec : ∀ k x, k < 16 → (m.sv k).second = some (x, l.other) → (m.sv k).secondBad = false) :
    ∃ x, m.sieveCutoff = (m.cutTaken.judgeWrong l n).undisputed.withSlots x ∧
      ∀ k, k < 16 → nth x k = (m.sv k).given (m.cutTaken.judgeWrong l n).admitted := by
  have hframes := BothSent.frames h
  have hslot := fun (k : Fin 16) (adm : Lane → Bool) h₁ h₂ => BothSent.slot h (adm := adm) (l := l) h₁ h₂ k
    (fun x => hacc k x k.isLt) fun x => hsec k x k.isLt
  obtain ⟨hpair, hadma, hadmb, -, -⟩ := h
  obtain ⟨ha5, hb5⟩ := Mach.pairJudged_codes hpair
  have hagree : m.cutTaken.writesDiffer = false := by
    rw [Mach.writesDiffer, show m.cutTaken.lanes = m.lanes from rfl, ha, hb, bne_self_eq_false, Bool.and_false]
  have hjudge := Mach.judge_wrong (m := m.cutTaken) hd hpair hv
  have hkept := m.cutTaken.judgeWrong_kept l n
  have hcode := m.cutTaken.judgeWrong_laneCode l n
  have hshut := m.cutTaken.judgeWrong_shut l n
  have hother := (m.cutTaken.judgeWrong_other l n).trans (show m.admitted l.other = true by cases l; exacts [hadmb, hadma])
  have hwrite := m.cutTaken.judgeWrong_writes l n l.other
  have hempty : (m.lanes.get l.other).writeList = [] := by cases l; exacts [hb, ha]
  rw [hr.start fun l _ => hframes l, Mach.cutDisputed_agreed (m := m.cutTaken) hagree hr.held, hjudge]
  generalize m.cutTaken.judgeWrong l n = w at hkept hcode hshut hother hwrite
  have hsv : ∀ k, w.undisputed.sv k = m.sv k := fun k => by rw [Mach.sv, Mach.undisputed, Mach.onLb, hkept.lane]; rfl
  obtain ⟨x, hx, hnth, -⟩ := Mach.cutSlots_passes (m := w.undisputed) fun k hk => by
    rw [hsv]
    exact (hslot ⟨k, hk⟩ w.admitted hshut hother).1.passes
  refine ⟨x, ?_, fun k hk => (hnth k).trans ((if_pos hk).trans (by rw [hsv]; rfl))⟩
  rw [hx]
  exact Mach.cutEnd (m := w.undisputed.withSlots x) ((Mach.slotsOf_congr hkept.image _).trans hr.pump)
    ((congrArg LaneBlock.disputed hkept.lane).trans hr.disputed) ((congrArg NetState.held hkept.net).trans hr.held)
    (Mach.settleWrites_only (m := w.undisputed.withSlots x) (l := l) hshut hother (hwrite.trans hempty)) fun z => by
      have hz : (w.undisputed.withSlots x).laneCode z = m.laneCode z := hcode z
      rw [hz]
      cases z
      exacts [ha5, hb5]

theorem exec_sieveCutoff_judged {l : Lane} {n : Nat} (h : CutoffOfFrames s) (hsent : BothSent s.m) (hd : s.m.lane.disputes ≠ [])
    (hv : s.m.verdict = some (l, n)) (ha : s.m.lanes.a.writeList = []) (hb : s.m.lanes.b.writeList = [])
    (hpass : ∀ (k : Fin 16) (x : Frame), ((s.m.sv k).accepted = some (x, l.other) → (s.m.sv k).acceptedBad = false) ∧
      ((s.m.sv k).second = some (x, l.other) → (s.m.sv k).secondBad = false)) :
    ∃ t, exec (.sieveCutoff cyc) s = .next t ∧ t.m.lane.cut = true ∧ t.m.lane.disputes = [] ∧ t.m.admitted l = false ∧
      t.m.admitted l.other = true ∧
      (∀ k : Fin 16, ((s.m.sv k).accepted ≠ none → (t.m.sv k).accepted ≠ none) ∧
        ∀ x, (t.m.sv k).accepted = some x → x.2 = l.other) ∧
      t.m.fld Reg.LANE_FAULTS 15 8 = min (s.m.fld Reg.LANE_FAULTS 15 8 + 1) 0xFF ∧
      Raises s t [eventAt (s.at cyc) 0x3001 2 0xFF ([l.ix, n] ++ leBytes 4 s.m.seq) l.origin] ∧
      SameRegsBut s t [Reg.LANE_FAULTS, Reg.LANE_L_IRQ_STAT 0, Reg.LANE_L_IRQ_STAT 1] ∧ SameMemory s t := by
  obtain ⟨x, hx, hnth⟩ := (State.at_cutReady (cyc := cyc) h).judged hsent hd hv ha hb (fun k f hk => (hpass ⟨k, hk⟩ f).1)
    fun k f hk => (hpass ⟨k, hk⟩ f).2
  have htells := (s.at cyc).cutTaken.judgeWrong_tells l n
    ((Mach.FocTells.refl (s.at cyc) _).next (m₂ := (s.at cyc).cutTaken) rfl rfl fun _ => rfl)
  have hlane := ((s.at cyc).cutTaken.judgeWrong_kept l n).lane
  have hshut := (s.at cyc).cutTaken.judgeWrong_shut l n
  have hother := ((s.at cyc).cutTaken.judgeWrong_other l n).trans (show s.m.admitted l.other = true by
    obtain ⟨-, hadma, hadmb, -, -⟩ := hsent
    cases l
    exacts [hadmb, hadma])
  have hfaults := (s.at cyc).cutTaken.judgeWrong_faults l n
  generalize (s.at cyc).cutTaken.judgeWrong l n = w at hx hnth htells hlane hshut hother hfaults
  have hdone := (htells.next (m₂ := w.undisputed) rfl rfl fun _ => rfl).next (m₂ := w.undisputed.withSlots x) rfl rfl fun _ => rfl
  obtain ⟨t, ht, hm, hregs, hmem, hev⟩ := run_makes (s := s) (cyc := cyc) (f := fun m => m.sieveCutoff) hx hdone
  have htl : t.m.lane = (w.undisputed.withSlots x).lane := (congrArg Mach.lane hm).trans (Mach.settle_lane _)
  have hadm : ∀ z, t.m.admitted z = w.admitted z := fun z => by
    rw [hm, Mach.settle_admitted]
    rfl
  have hslot := fun k : Fin 16 => BothSent.slot hsent hshut hother k (fun f => (hpass k f).1) fun f => (hpass k f).2
  have hsv : ∀ k : Fin 16, t.m.sv k = (s.m.sv k).given w.admitted := fun k => by
    rw [Mach.sv, htl]
    exact hnth k k.isLt
  refine ⟨t, ht, ?_, by rw [htl]; rfl, (hadm l).trans hshut, (hadm _).trans hother, fun k => ?_, ?_, hev, hregs, hmem⟩
  · rw [htl]
    exact congrArg LaneBlock.cut hlane
  · obtain ⟨honly, hstays⟩ := hslot k
    rw [hsv]
    exact ⟨hstays, fun y hy => honly.lane hy⟩
  · rw [hm, Mach.fld, Mach.settle_rd]
    exact hfaults

/-! ### A disagreement without a verdict -/

/-- With no lane admitted every slot is left without a frame. -/
theorem Mach.cutSlots_closed {m : Mach} (h : ∀ l, m.admitted l = false) :
    ∃ x, m.cutSlots = m.withSlots x ∧ ∀ k, k < 16 → (nth x k).accepted = none := by
  obtain ⟨x, hx, hnth, -⟩ := Mach.cutSlots_passes (m := m) fun k _ => SieveSlot.passes_of_none (SieveSlot.given_closed h)
  refine ⟨x, hx, fun k hk => ?_⟩
  rw [hnth, if_pos hk]
  exact SieveSlot.given_closed h

theorem Mach.settleWrites_closed {m : Mach} (h : ∀ l, m.admitted l = false) : m.settleWrites = m := by
  unfold Mach.settleWrites
  rw [h, h]
  split <;> rfl

/-- Both lanes restart at the next boundary, as the frames of the tick disagree. -/
def Mach.restartAsked (m : Mach) : Mach :=
  (((m.incSat Reg.LANE_FAULTS 7 0).onLb fun b => { b with pendRestart := some 1 }).restartEvent 1
    (m.incSat Reg.LANE_FAULTS 7 0).seq).onLanes fun _ => LaneState.outOfTick

section
variable (m : Mach)

theorem Mach.restartAsked_lane : m.restartAsked.lane = { m.lane with pendRestart := some 1 } := by
  rw [Mach.restartAsked, Mach.onLanes_lane, Mach.restartEvent, Mach.lane_of_bare (Mach.bare_laneIrq ..), Mach.raise_lane]
  rfl

theorem Mach.restartAsked_lanes : m.restartAsked.lanes = ⟨m.lanes.a.outOfTick, m.lanes.b.outOfTick⟩ := by
  rw [Mach.restartAsked, Mach.onLanes_lanes, Mach.restartEvent_lanes]
  rfl

theorem Mach.restartAsked_shut (l : Lane) : m.restartAsked.admitted l = false := by
  refine Mach.not_admitted_of_f2 _ ?_
  rw [Mach.restartAsked_lanes]
  cases l <;> rfl

theorem Mach.incSat_seq : (m.incSat Reg.LANE_FAULTS 7 0).seq = m.seq :=
  Mach.FocTells.seq_eq ((Mach.FocTells.refl m [Reg.LANE_FAULTS]).incSat (by decide) (by decide) 7 0)

theorem Mach.restartAsked_tells {m₀ : Mach} {es : List Event} (h : m₀.FocTells (Reg.LANE_FAULTS :: laneIrqRegs) es m) :
    m₀.FocTells (Reg.LANE_FAULTS :: laneIrqRegs) (es ++ [eventAt m₀ 0x3005 2 0xFF (1 :: leBytes 4 m.seq) 0]) m.restartAsked := by
  rw [← m.incSat_seq]
  exact ((((h.incSat (by decide) (by decide) 7 0).next
    (m₂ := (m.incSat Reg.LANE_FAULTS 7 0).onLb fun b => { b with pendRestart := some 1 }) rfl rfl fun _ => rfl).raise 0x3005 2 0xFF
    (1 :: leBytes 4 (m.incSat Reg.LANE_FAULTS 7 0).seq) 0).laneIrq (by decide) 3).onLanes _

theorem Mach.restartAsked_laneCode (l : Lane) : m.restartAsked.laneCode l = m.laneCode l :=
  Mach.laneCode_congr ((m.restartAsked_tells (.refl m _)).rd _ (by decide)) l

theorem Mach.restartAsked_faults : m.restartAsked.fld Reg.LANE_FAULTS 7 0 = min (m.fld Reg.LANE_FAULTS 7 0 + 1) 0xFF := by
  rw [Mach.restartAsked, Mach.onLanes_fld, Mach.fld, Mach.restartEvent_rd _ _ _ (by decide) (by decide), Mach.onLb_rd, ← Mach.fld,
    Mach.fld_incSat _ (by decide) (by decide)]
  rfl

theorem Mach.restartAsked_image : m.restartAsked.image = m.image := by
  rw [Mach.restartAsked, Mach.onLanes_image, Mach.restartEvent, Mach.image_of_bare (Mach.bare_laneIrq ..), Mach.raise_image]
  rfl

theorem Mach.restartAsked_net : m.restartAsked.net = m.net := by
  rw [Mach.restartAsked, Mach.onLanes_net, Mach.restartEvent, Mach.net_of_bare (Mach.bare_laneIrq ..)]
  rfl

/-- No slot has a frame any more. -/
def Mach.unframed : Mach := forN 16 (fun k m => m.onSv k fun s => { s with accepted := none, second := none }) m

theorem Mach.unframed_eq : ∃ x, m.unframed = m.withSlots x := by
  refine forL_induct (P := fun z => ∃ x, z = m.withSlots x) (fun k _ z hz => ?_) ⟨m.lane.slots, rfl⟩
  obtain ⟨x, rfl⟩ := hz
  exact ⟨_, rfl⟩

variable {m}

theorem Mach.judge_restarts (hd : m.lane.disputes ≠ []) (hp : m.pairJudged = true) (hv : m.verdict = none)
    (ha : m.lanes.a.restart = none) (hb : m.lanes.b.restart = none) (hpend : m.lane.pendRestart = none) :
    m.judge = m.restartAsked.unframed := by
  have hno : ¬(m.lane.disputes.isEmpty || !m.pairJudged) = true := by
    rw [hp, Bool.or_eq_true, List.isEmpty_iff]
    exact not_or.2 ⟨hd, by decide⟩
  refine (if_neg hno).trans ?_
  rw [hv]
  exact congrArg Mach.unframed (Mach.askRestart_asks (m := m.incSat Reg.LANE_FAULTS 7 0) ha hb hpend 1)
end

theorem Mach.CutReady.restarts {m : Mach} (hr : m.CutReady) (h : BothSent m) (hd : m.lane.disputes ≠ []) (hv : m.verdict = none)
    (hw : m.lanes.a.writeList = m.lanes.b.writeList) (ha : m.lanes.a.restart = none) (hb : m.lanes.b.restart = none)
    (hpend : m.lane.pendRestart = none) :
    ∃ x y, m.sieveCutoff = ((m.cutTaken.restartAsked.withSlots x).undisputed).withSlots y ∧ ∀ k, k < 16 → (nth y k).accepted = none := by
  have hframes := BothSent.frames h
  obtain ⟨hpair, -, -, -, -⟩ := h
  obtain ⟨ha5, hb5⟩ := Mach.pairJudged_codes hpair
  have hagree : m.cutTaken.writesDiffer = false := by
    rw [Mach.writesDiffer, show m.cutTaken.lanes = m.lanes from rfl, hw, bne_self_eq_false, Bool.and_false]
  have hjudge := Mach.judge_restarts (m := m.cutTaken) hd hpair hv ha hb hpend
  have hlane := m.cutTaken.restartAsked_lane
  have himage := m.cutTaken.restartAsked_image
  have hnet := m.cutTaken.restartAsked_net
  have hshut := m.cutTaken.restartAsked_shut
  have hcode := m.cutTaken.restartAsked_laneCode
  rw [hr.start fun l _ => hframes l, Mach.cutDisputed_agreed (m := m.cutTaken) hagree hr.held, hjudge]
  generalize m.cutTaken.restartAsked = w at hlane himage hnet hshut hcode
  obtain ⟨x, hx⟩ := w.unframed_eq
  obtain ⟨y, hy, hnone⟩ := Mach.cutSlots_closed (m := (w.withSlots x).undisputed) hshut
  refine ⟨x, y, ?_, hnone⟩
  rw [hx, hy]
  refine Mach.cutEnd (m := (w.withSlots x).undisputed.withSlots y) ((Mach.slotsOf_congr himage _).trans hr.pump)
    ((congrArg LaneBlock.disputed hlane).trans hr.disputed) ((congrArg NetState.held hnet).trans hr.held)
    (Mach.settleWrites_closed hshut) fun z => ?_
  have hz : ((w.withSlots x).undisputed.withSlots y).laneCode z = m.laneCode z := hcode z
  rw [hz]
  cases z
  exacts [ha5, hb5]

theorem exec_sieveCutoff_restarts (h : CutoffOfFrames s) (hsent : BothSent s.m) (hd : s.m.lane.disputes ≠ []) (hv : s.m.verdict = none)
    (hw : s.m.lanes.a.writeList = s.m.lanes.b.writeList) (ha : s.m.lanes.a.restart = none) (hb : s.m.lanes.b.restart = none)
    (hpend : s.m.lane.pendRestart = none) :
    ∃ t, exec (.sieveCutoff cyc) s = .next t ∧ t.m.lane.pendRestart = some 1 ∧ t.m.admitted .a = false ∧ t.m.admitted .b = false ∧
      (∀ k : Fin 16, (t.m.sv k).accepted = none) ∧
      t.m.fld Reg.LANE_FAULTS 7 0 = min (s.m.fld Reg.LANE_FAULTS 7 0 + 1) 0xFF ∧
      Raises s t [eventAt (s.at cyc) 0x3005 2 0xFF (1 :: leBytes 4 s.m.seq) 0] ∧
      SameRegsBut s t [Reg.LANE_FAULTS, Reg.LANE_L_IRQ_STAT 0, Reg.LANE_L_IRQ_STAT 1] ∧ SameMemory s t := by
  obtain ⟨x, y, hx, hnone⟩ := (State.at_cutReady (cyc := cyc) h).restarts hsent hd hv hw ha hb hpend
  have htells := (s.at cyc).cutTaken.restartAsked_tells
    ((Mach.FocTells.refl (s.at cyc) _).next (m₂ := (s.at cyc).cutTaken) rfl rfl fun _ => rfl)
  have hlane := (s.at cyc).cutTaken.restartAsked_lane
  have hshut := (s.at cyc).cutTaken.restartAsked_shut
  have hfaults := (s.at cyc).cutTaken.restartAsked_faults
  generalize (s.at cyc).cutTaken.restartAsked = w at hx htells hlane hshut hfaults
  have hdone := htells.next (m₂ := (w.withSlots x).undisputed.withSlots y) rfl rfl fun _ => rfl
  obtain ⟨t, ht, hm, hregs, hmem, hev⟩ := run_makes (s := s) (cyc := cyc) (f := fun m => m.sieveCutoff) hx hdone
  have htl : t.m.lane = ((w.withSlots x).undisputed.withSlots y).lane := (congrArg Mach.lane hm).trans (Mach.settle_lane _)
  have hadm : ∀ z, t.m.admitted z = false := fun z => by
    rw [hm, Mach.settle_admitted]
    exact hshut z
  refine ⟨t, ht, ?_, hadm .a, hadm .b, fun k => ?_, ?_, hev, hregs, hmem⟩
  · rw [htl]
    exact congrArg LaneBlock.pendRestart hlane
  · rw [Mach.sv, htl]
    exact hnone k k.isLt
  · rw [hm, Mach.fld, Mach.settle_rd]
    exact hfaults

end Sys2Proof.Machine
end

section
/-! A cutoff without a frame: a lane that sent none, a frame that failed its envelope, a pump; and the statement (R294, R316, R319). -/

namespace Sys2Proof.Machine

variable {s : State} {cyc : Nat}

/-! ### Entries overdue -/

/-- The machine without its disagreements, its lanes and its transfers. -/
def Mach.unspoilt (m : Mach) : Mach := { m with dma := default, lanes := default, lane := { m.lane with disputes := [] } }

/-- Of `m` the telling of disagreements has made `m'`. -/
structure Mach.Spoilt (m m' : Mach) : Prop where
  rest : m'.unspoilt = m.unspoilt
  f2 : ∀ l, (m'.lanes.get l).f2 = (m.lanes.get l).f2

theorem Mach.Spoilt.dispute {m m' : Mach} (h : m.Spoilt m') (d : Dispute) : m.Spoilt (m'.dispute d) :=
  ⟨(show (m'.dispute d).unspoilt = m'.unspoilt from rfl).trans h.rest,
    fun l => (show ((m'.dispute d).lanes.get l).f2 = (m'.lanes.get l).f2 by cases l <;> rfl).trans (h.f2 l)⟩

theorem Mach.accOverdue_spoilt (m : Mach) : m.Spoilt m.accOverdue :=
  forL_induct (P := m.Spoilt) (fun _ _ _ h => h.dispute _) ⟨rfl, fun _ => rfl⟩

theorem Mach.undisputed_spoilt (m : Mach) : m.Spoilt m.undisputed := ⟨rfl, fun _ => rfl⟩

theorem Mach.Spoilt.trans {m m₁ m₂ : Mach} (h : m.Spoilt m₁) (h' : m₁.Spoilt m₂) : m.Spoilt m₂ :=
  ⟨h'.rest.trans h.rest, fun l => (h'.f2 l).trans (h.f2 l)⟩

section
variable {m m' : Mach} (h : m.Spoilt m')
include h

theorem Mach.Spoilt.of_rest {α : Type} (f : Mach → α) : f m'.unspoilt = f m.unspoilt := congrArg f h.rest

theorem Mach.Spoilt.rd (b : Nat) : m'.rd b = m.rd b := h.of_rest (Mach.rd · b)

theorem Mach.Spoilt.time : m'.time = m.time := h.of_rest Mach.time

theorem Mach.Spoilt.tick : m'.tick = m.tick := h.of_rest Mach.tick

theorem Mach.Spoilt.image : m'.image = m.image := h.of_rest Mach.image

theorem Mach.Spoilt.net : m'.net = m.net := h.of_rest Mach.net

theorem Mach.Spoilt.act : m'.act = m.act := h.of_rest Mach.act

theorem Mach.Spoilt.slots : m'.lane.slots = m.lane.slots := h.of_rest (fun m : Mach => m.lane.slots)

theorem Mach.Spoilt.cut : m'.lane.cut = m.lane.cut := h.of_rest (fun m : Mach => m.lane.cut)

theorem Mach.Spoilt.disputed : m'.lane.disputed = m.lane.disputed := h.of_rest (fun m : Mach => m.lane.disputed)

theorem Mach.Spoilt.laneCode (l : Lane) : m'.laneCode l = m.laneCode l := Mach.laneCode_congr (h.rd _) l

theorem Mach.Spoilt.admitted (l : Lane) : m'.admitted l = m.admitted l := by
  rw [Mach.admitted, Mach.live, h.laneCode, h.f2]
  rfl

theorem Mach.Spoilt.tells {m₀ : Mach} {regs : List Nat} {es : List Event} (ht : m₀.FocTells regs es m) : m₀.FocTells regs es m' :=
  ht.next h.time h.tick h.rd
end

/-! ### A lane without a frame (R316) -/

/-- A lane has sent no frame for slot `k`. -/
def Mach.missed (m : Mach) (l : Lane) (k : Nat) : Mach := ((m.health l 12).raiseF2 l 0x3002 k [12]).laneIrq 1

/-- The one admitted lane sends no frame for its one slot. -/
theorem Mach.missingFrames_one {m : Mach} {l : Lane} {k : Nat} (hl : m.admitted l = true) (ho : m.admitted l.other = false)
    (hown : m.ownSlots l = [k]) (hnone : (m.sv k).holds l = false) (hp : m.pairJudged = false) : m.missingFrames = m.missed l k := by
  have hmissing : (if m.admitted l = true then (m.ownSlots l).filter fun k => !(m.sv k).holds l else []) = [k] := by
    rw [if_pos hl, hown, List.filter_cons, hnone]
    rfl
  have hother : (if m.admitted l.other = true then (m.ownSlots l.other).filter fun k => !(m.sv k).holds l.other else []) = [] :=
    if_neg fun h => Bool.false_ne_true (ho.symm.trans h)
  unfold Mach.missingFrames
  dsimp only
  cases l
  · rw [hmissing, show (if m.admitted .b = true then (m.ownSlots .b).filter fun k => !(m.sv k).holds .b else []) = [] from hother]
    simp only [forL, List.foldl_cons, List.foldl_nil, hp, Bool.false_eq_true, if_false]
    rfl
  · rw [hmissing, show (if m.admitted .a = true then (m.ownSlots .a).filter fun k => !(m.sv k).holds .a else []) = [] from hother]
    simp only [forL, List.foldl_cons, List.foldl_nil, hp, Bool.false_eq_true, if_false]
    rfl

section
variable (m : Mach) (l : Lane) (k : Nat)

theorem Mach.missed_tells {m₀ : Mach} {es : List Event} (h : m₀.FocTells (healthReg l :: laneIrqRegs) es m) :
    m₀.FocTells (healthReg l :: laneIrqRegs) (es ++ [eventAt m₀ 0x3002 2 k [12] l.origin]) (m.missed l k) :=
  ((h.health List.mem_cons_self 12).raiseF2 l 0x3002 k [12]).laneIrq (List.subset_cons_self ..) 1

theorem Mach.missed_kept : m.SieveKept (m.missed l k) :=
  Mach.SieveKept.trans (m₁ := (m.health l 12).raiseF2 l 0x3002 k [12]) ⟨rfl, rfl, rfl, rfl⟩ (.of_bare (Mach.bare_laneIrq ..))

theorem Mach.missed_shut : (m.missed l k).admitted l = false :=
  Mach.not_admitted_of_f2 _ (by rw [Mach.missed, Mach.lanes_of_bare (Mach.bare_laneIrq ..)]; exact Mach.raiseF2_f2 ..)

theorem Mach.missed_laneCode (z : Lane) : (m.missed l k).laneCode z = m.laneCode z :=
  Mach.laneCode_congr ((m.missed_tells l k (.refl m _)).rd _ (by cases l <;> decide)) z
end

theorem Mach.sieveCutoff_missed {m : Mach} {l : Lane} {k : Nat} (hcut : m.lane.cut = false) (hrun : m.tick.running = true)
    (hl : m.admitted l = true) (hcode : m.laneCode l.other = 2) (hmapped : m.mapped = [k]) (hruns : m.runsSlot l k = true)
    (ha : (m.sv k).accepted = none) (hs : (m.sv k).second = none) (hpump : m.slotsOf .pump = []) (hdisputed : m.lane.disputed = [])
    (hheld : m.net.held = []) :
    ∃ w x, m.sieveCutoff = w.withSlots x ∧ (m.cutTaken.missed l k).Spoilt w := by
  have hdead := Mach.live_of_code hcode (by decide)
  have hpair := Mach.pairJudged_of_dead hdead
  have hown : m.ownSlots l = [k] := by rw [Mach.ownSlots, hmapped, List.filter_cons, hruns]; rfl
  have hnone : (m.sv k).holds l = false := by rw [SieveSlot.holds, ha, hs]; rfl
  have hmissed := Mach.missingFrames_one (m := m.cutTaken) hl (Mach.not_admitted_of_dead hdead) hown hnone hpair
  have hkept := m.cutTaken.missed_kept l k
  have hcodes := m.cutTaken.missed_laneCode l k
  have hshut := m.cutTaken.missed_shut l k
  rw [Mach.sieveCutoff_eq hcut hrun, Mach.cutMissing, hmissed]
  generalize m.cutTaken.missed l k = u at hkept hcodes hshut
  have hover := u.accOverdue_spoilt
  generalize u.accOverdue = v at hover
  have hall := hover.trans v.undisputed_spoilt
  have hcodev : ∀ z, v.laneCode z = m.laneCode z := fun z => (hover.laneCode z).trans (hcodes z)
  have hvdead : v.live l.other = false := Mach.live_of_code ((hcodev _).trans hcode) (by decide)
  have hvpair := Mach.pairJudged_of_dead hvdead
  have hclosed : ∀ z, v.undisputed.admitted z = false :=
    Lane.all_of l ((hall.admitted l).trans hshut) (Mach.not_admitted_of_dead (m := v.undisputed) hvdead)
  obtain ⟨x, hx, -⟩ := Mach.cutSlots_closed hclosed
  refine ⟨v.undisputed, x, ?_, hall⟩
  rw [Mach.cutDisputed_alone hvpair, Mach.judge_alone hvpair, hx]
  refine Mach.cutEnd (m := v.undisputed.withSlots x) ((Mach.slotsOf_congr (hall.image.trans hkept.image) _).trans hpump)
    (hall.disputed.trans ((congrArg LaneBlock.disputed hkept.lane).trans hdisputed))
    ((congrArg NetState.held (hall.net.trans hkept.net)).trans hheld) (Mach.settleWrites_closed hclosed) fun z => ?_
  have hz : (v.undisputed.withSlots x).laneCode z = m.laneCode z := hcodev z
  rw [hz]
  refine Lane.all_of (P := fun z => m.laneCode z ≠ 5) l (Mach.code_of_live (Mach.live_of_admitted hl)) ?_ z
  rw [hcode]
  decide

theorem exec_sieveCutoff_missed {l : Lane} {k : Nat} (hcut : s.m.lane.cut = false) (hrun : s.m.tick.running = true)
    (hl : s.m.admitted l = true) (hcode : s.m.laneCode l.other = 2) (hmapped : s.m.mapped = [k]) (hruns : s.m.runsSlot l k = true)
    (ha : (s.m.sv k).accepted = none) (hs : (s.m.sv k).second = none) (hpump : s.m.slotsOf .pump = [])
    (hdisputed : s.m.lane.disputed = []) (hheld : s.m.net.held = []) :
    ∃ t, exec (.sieveCutoff cyc) s = .next t ∧ t.m.lane.cut = true ∧ t.m.admitted l = false ∧
      Raises s t [eventAt (s.at cyc) 0x3002 2 k [12] l.origin] ∧
      SameRegsBut s t [healthReg l, Reg.LANE_L_IRQ_STAT 0, Reg.LANE_L_IRQ_STAT 1] ∧ SameMemory s t := by
  obtain ⟨w, x, hx, hw⟩ := Mach.sieveCutoff_missed (m := s.at cyc) hcut hrun hl hcode hmapped hruns ha hs hpump hdisputed hheld
  have htells := (s.at cyc).cutTaken.missed_tells l k
    ((Mach.FocTells.refl (s.at cyc) _).next (m₂ := (s.at cyc).cutTaken) rfl rfl fun _ => rfl)
  have hkept := (s.at cyc).cutTaken.missed_kept l k
  have hshut := (s.at cyc).cutTaken.missed_shut l k
  generalize (s.at cyc).cutTaken.missed l k = u at hw htells hkept hshut
  have hdone := (hw.tells htells).next (m₂ := w.withSlots x) rfl rfl fun _ => rfl
  obtain ⟨t, ht, hm, hregs, hmem, hev⟩ := run_makes (s := s) (cyc := cyc) (f := fun m => m.sieveCutoff) hx hdone
  refine ⟨t, ht, ?_, ?_, hev, hregs, hmem⟩
  · rw [hm, Mach.settle_lane]
    exact hw.cut.trans (congrArg LaneBlock.cut hkept.lane)
  · rw [hm, Mach.settle_admitted]
    exact (hw.admitted l).trans hshut

/-! ### A frame that failed its envelope (R319) -/

/-- The slot goes on with Bedrock's safe-state command. -/
def SieveSlot.safed (f : Frame) (x : SieveSlot) : SieveSlot := { x with accepted := none, sub := some f }

/-- The accepted frame of slot `k` is replaced, and told. -/
def Mach.safed (m : Mach) (k : Nat) (emfhi : Bool) : Mach :=
  ((m.onSv k (SieveSlot.safed (m.safeFrame k m.seq emfhi))).raiseF3 0x300C k).laneIrq 4

theorem Mach.replaceBad_bad {m : Mach} {k : Nat} {a : Frame × Lane} (ha : (m.sv k).accepted = some a) (hbad : (m.sv k).acceptedBad = true)
    (hs : (m.sv k).second = none) : m.replaceBad k = m.safed k a.1.emfhi := by
  unfold Mach.replaceBad
  dsimp only
  rw [ha]
  dsimp only
  rw [hbad, if_neg (by decide), hs]
  rfl

section
variable {m : Mach} (hroom : m.lane.waiting = []) (k : Nat) (emfhi : Bool)
include hroom

theorem Mach.safed_eq : m.safed k emfhi =
    (((m.onSv k (SieveSlot.safed (m.safeFrame k m.seq emfhi))).raise 0x300C 3 k).wait
      (m.entryOf m.accTickNow ⟨10, k, 0, 0, 0x300C, []⟩)).laneIrq 4 := by
  rw [Mach.safed, (Mach.FewWait.of_nil (m := m.onSv k (SieveSlot.safed (m.safeFrame k m.seq emfhi))) hroom 0).raiseF3_eq (by decide)]
  rfl

theorem Mach.safed_lane : (m.safed k emfhi).lane = { m.lane with
    slots := upd m.lane.slots k (SieveSlot.safed (m.safeFrame k m.seq emfhi))
    waiting := [m.entryOf m.accTickNow ⟨10, k, 0, 0, 0x300C, []⟩] } := by
  rw [Mach.safed_eq hroom, Mach.lane_of_bare (Mach.bare_laneIrq ..), Mach.wait_lane, Mach.raise_lane]
  show { m.lane with
    slots := upd m.lane.slots k (SieveSlot.safed (m.safeFrame k m.seq emfhi))
    waiting := insertEntry (m.entryOf m.accTickNow ⟨10, k, 0, 0, 0x300C, []⟩) m.lane.waiting } = _
  rw [hroom, insertEntry_nil]

theorem Mach.safed_image : (m.safed k emfhi).image = m.image := by
  rw [Mach.safed_eq hroom, Mach.image_of_bare (Mach.bare_laneIrq ..), Mach.wait_image, Mach.raise_image]
  rfl

theorem Mach.safed_net : (m.safed k emfhi).net = m.net := by
  rw [Mach.safed_eq hroom, Mach.net_of_bare (Mach.bare_laneIrq ..), Mach.wait_net, Mach.raise_net]
  rfl

theorem Mach.safed_tells {m₀ : Mach} {es : List Event} (h : m₀.FocTells laneIrqRegs es m) :
    m₀.FocTells laneIrqRegs (es ++ [eventAt m₀ 0x300C 3 k [] 0]) (m.safed k emfhi) := by
  rw [Mach.safed_eq hroom]
  exact (((h.next (m₂ := m.onSv k (SieveSlot.safed (m.safeFrame k m.seq emfhi))) rfl rfl fun _ => rfl).raise 0x300C 3 k [] 0).wait
    _).laneIrq (List.Subset.refl _) 4

theorem Mach.safed_laneCode (l : Lane) : (m.safed k emfhi).laneCode l = m.laneCode l :=
  Mach.laneCode_congr ((Mach.safed_tells hroom k emfhi (.refl m _)).rd _ (by decide)) l
end

/-- The one slot with a frame is the one that is replaced. -/
theorem Mach.cutSlots_bad {m : Mach} {l : Lane} {k : Nat} {f : Frame} (hroom : m.lane.waiting = []) (hk : k < 16)
    (ha : (m.sv k).accepted = some (f, l)) (hl : m.admitted l = true) (hbad : (m.sv k).acceptedBad = true) (hs : (m.sv k).second = none)
    (hothers : ∀ j, j ≠ k → (m.sv j).accepted = none ∧ (m.sv j).second = none) : m.cutSlots = m.safed k f.emfhi := by
  have hempty : ∀ (j : Nat) (x : Mach), (x.sv j).accepted = none → (x.sv j).second = none → (x.substitute j).replaceBad j = x :=
    fun j x hja hjs => by
      rw [Mach.substitute_eq, Mach.onSv_self (SieveSlot.given_empty hja hjs)]
      exact Mach.replaceBad_passes (SieveSlot.passes_of_none hja)
  have hsafed : ∀ j, j ≠ k → (m.safed k f.emfhi).sv j = m.sv j := fun j hj => by
    rw [Mach.sv, Mach.safed_lane hroom]
    exact (nth_upd ..).trans (if_neg fun h => hj h.1)
  refine forN_through (P := fun x => x = m) (Q := fun x => x = m.safed k f.emfhi) (fun j x hj hx => ?_) (fun x hx => ?_) (fun j x hj hx => ?_)
    hk rfl
  · subst hx
    exact hempty j _ (hothers j hj).1 (hothers j hj).2
  · subst hx
    rw [Mach.substitute_eq, Mach.onSv_self (SieveSlot.given_accepted ha hl), Mach.replaceBad_bad ha hbad hs]
  · subst hx
    exact hempty j _ (by rw [hsafed j hj]; exact (hothers j hj).1) (by rw [hsafed j hj]; exact (hothers j hj).2)

theorem Mach.CutReady.safed {m : Mach} (hr : m.CutReady) {l : Lane} {k : Nat} {f : Frame} (hl : m.admitted l = true)
    (hcode : m.laneCode l.other = 2) (hmapped : m.mapped = [k]) (hlen : m.lane.slots.length = 16) (ha : (m.sv k).accepted = some (f, l))
    (hbad : (m.sv k).acceptedBad = true) (hs : (m.sv k).second = none)
    (hothers : ∀ j, j < 16 → j ≠ k → (m.sv j).accepted = none ∧ (m.sv j).second = none) (hroom : m.lane.waiting = []) :
    m.sieveCutoff = m.cutTaken.undisputed.safed k f.emfhi := by
  have hdead := Mach.live_of_code hcode (by decide)
  have hpair := Mach.pairJudged_of_dead hdead
  have hk : k < 16 := List.mem_range.1 (List.mem_of_mem_filter (show k ∈ m.mapped by rw [hmapped]; exact List.mem_cons_self))
  have hframes : ∀ z, m.admitted z = true → ∀ j ∈ m.ownSlots z, (m.sv j).holds z = true :=
    Lane.all_of l (fun _ j hj => by
        have hin := List.mem_of_mem_filter hj
        rw [hmapped, List.mem_singleton] at hin
        rw [hin, SieveSlot.holds, ha, Option.any_some, beq_self_eq_true, Bool.true_or])
      fun h => absurd ((Mach.not_admitted_of_dead hdead).symm.trans h) Bool.false_ne_true
  have hnone : ∀ j, j ≠ k → (m.sv j).accepted = none ∧ (m.sv j).second = none := fun j hj => by
    by_cases hlt : j < 16
    · exact hothers j hlt hj
    · have hdefault : m.sv j = default := List.getD_eq_default _ _ (by rw [hlen]; exact Nat.not_lt.1 hlt)
      rw [hdefault]
      exact ⟨rfl, rfl⟩
  have hslots := Mach.cutSlots_bad (m := m.cutTaken.undisputed) hroom hk ha hl hbad hs hnone
  have hlane := Mach.safed_lane (m := m.cutTaken.undisputed) hroom k f.emfhi
  have himage := Mach.safed_image (m := m.cutTaken.undisputed) hroom k f.emfhi
  have hnet := Mach.safed_net (m := m.cutTaken.undisputed) hroom k f.emfhi
  have hcodes := Mach.safed_laneCode (m := m.cutTaken.undisputed) hroom k f.emfhi
  rw [hr.alone hframes hpair, hslots]
  generalize m.cutTaken.undisputed.safed k f.emfhi = w at hlane himage hnet hcodes
  have hwdead : w.live l.other = false := Mach.live_of_code ((hcodes _).trans hcode) (by decide)
  refine Mach.cutEnd ((Mach.slotsOf_congr himage _).trans hr.pump) ((congrArg LaneBlock.disputed hlane).trans hr.disputed)
    ((congrArg NetState.held hnet).trans hr.held) (Mach.settleWrites_alone (Mach.pairJudged_of_dead hwdead)) fun z => ?_
  rw [hcodes]
  refine Lane.all_of (P := fun z => m.laneCode z ≠ 5) l (Mach.code_of_live (Mach.live_of_admitted hl)) ?_ z
  rw [hcode]
  decide

theorem State.at_safeFrame (k n : Nat) (emfhi : Bool) : (s.at cyc).cutTaken.undisputed.safeFrame k n emfhi = s.m.safeFrame k n emfhi := by
  rw [State.at_eq_timed]
  rfl

theorem exec_sieveCutoff_safed {l : Lane} {k : Nat} {f : Frame} (h : CutoffOfFrames s) (hl : s.m.admitted l = true)
    (hcode : s.m.laneCode l.other = 2) (hmapped : s.m.mapped = [k]) (hlen : s.m.lane.slots.length = 16)
    (ha : (s.m.sv k).accepted = some (f, l)) (hbad : (s.m.sv k).acceptedBad = true) (hs : (s.m.sv k).second = none)
    (hothers : ∀ j < 16, j ≠ k → (s.m.sv j).accepted = none ∧ (s.m.sv j).second = none) (hroom : s.roomy) :
    ∃ t, exec (.sieveCutoff cyc) s = .next t ∧ (t.m.sv k).accepted = none ∧
      (t.m.sv k).sub = some (s.m.safeFrame k s.m.seq f.emfhi) ∧ SlotFault s t cyc 0x300C k [] ∧
      SameRegsBut s t [Reg.LANE_L_IRQ_STAT 0, Reg.LANE_L_IRQ_STAT 1] ∧ SameMemory s t := by
  have hx := (State.at_cutReady (cyc := cyc) h).safed (l := l) hl hcode hmapped hlen ha hbad hs hothers hroom
  have hlane := Mach.safed_lane (m := (s.at cyc).cutTaken.undisputed) hroom k f.emfhi
  have htells := Mach.safed_tells (m := (s.at cyc).cutTaken.undisputed) hroom k f.emfhi
    ((Mach.FocTells.refl (s.at cyc) _).next (m₂ := (s.at cyc).cutTaken.undisputed) rfl rfl fun _ => rfl)
  rw [State.at_safeFrame] at hlane
  generalize (s.at cyc).cutTaken.undisputed.safed k f.emfhi = w at hx hlane htells
  obtain ⟨t, ht, hm, hregs, hmem, hev⟩ := run_makes (s := s) (cyc := cyc) (f := fun m => m.sieveCutoff) hx htells
  have htl : t.m.lane = w.lane := (congrArg Mach.lane hm).trans (Mach.settle_lane _)
  have hk : k < s.m.lane.slots.length := by
    by_contra hno
    have hdefault : s.m.sv k = default := List.getD_eq_default _ _ (Nat.not_lt.1 hno)
    rw [hdefault] at ha
    exact absurd ha nofun
  have hsv : t.m.sv k = SieveSlot.safed (s.m.safeFrame k s.m.seq f.emfhi) (s.m.sv k) := by
    rw [Mach.sv, htl, hlane]
    exact (nth_upd ..).trans (if_pos ⟨rfl, hk⟩)
  exact ⟨t, ht, by rw [hsv, SieveSlot.safed], by rw [hsv, SieveSlot.safed], ⟨hev, by rw [Enters, htl, hlane]; rfl⟩, hregs, hmem⟩

/-! ### A pump without a frame (R294) -/

/-- The slot goes on with its governor's frame. -/
def SieveSlot.governed (f : Frame) (x : SieveSlot) : SieveSlot := { x with sub := some f }

/-- Slot `k` goes on with the frame of drive `d`'s governor. -/
def Mach.governed (m : Mach) (k d : Nat) : Mach := m.onSv k (SieveSlot.governed (m.governorFrame k m.seq d))

/-- The drive is told to run on its governor. -/
def Mach.governorTold (m : Mach) (k d : Nat) : Mach := ((m.onDrv d fun x => { x with gov := true }).raise 0x2C09 0 k).orr Reg.ACT_IRQ_STAT 0x10

theorem Mach.governorSub_eq {m : Mach} {k d : Nat} (hruns : m.pumpRuns k = some d) (ha : (m.sv k).accepted = none)
    (hs : (m.sv k).sub = none) :
    m.governorSub k m.seq = if (m.drv d).gov then m.governed k d else (m.governed k d).governorTold k d := by
  unfold Mach.governorSub
  rw [hruns]
  dsimp only
  rw [ha, hs]
  exact (if_neg (by decide)).trans (if_neg (by decide))

theorem State.at_pumpRuns (k : Nat) : (s.at cyc).pumpRuns k = s.m.pumpRuns k := by
  rw [State.at_eq_timed]
  rfl

theorem Mach.Spoilt.pumpRuns {m m' : Mach} (h : m.Spoilt m') (k : Nat) : m'.pumpRuns k = m.pumpRuns k :=
  (show m'.pumpRuns k = m'.unspoilt.pumpRuns k from rfl).trans ((congrArg (Mach.pumpRuns · k) h.rest).trans rfl)

theorem Mach.Spoilt.governorFrame {m m' : Mach} (h : m.Spoilt m') (k n d : Nat) : m'.governorFrame k n d = m.governorFrame k n d :=
  (show m'.governorFrame k n d = m'.unspoilt.governorFrame k n d from rfl).trans
    ((congrArg (fun m : Mach => m.governorFrame k n d) h.rest).trans rfl)

theorem State.at_governorFrame (k n d : Nat) : (s.at cyc).governorFrame k n d = s.m.governorFrame k n d := by
  rw [State.at_eq_timed]
  rfl

/-- Slot `k` goes on with its governor's frame, and the first of a run of such ticks is told. -/
def Mach.governs (m : Mach) (k d : Nat) : Mach := if (m.drv d).gov then m.governed k d else (m.governed k d).governorTold k d

section
variable (m : Mach) (k d : Nat)

theorem Mach.governs_lane :
    (m.governs k d).lane = { m.lane with slots := upd m.lane.slots k (SieveSlot.governed (m.governorFrame k m.seq d)) } := by
  unfold Mach.governs
  split <;> rfl

theorem Mach.governs_net : (m.governs k d).net = m.net := by
  unfold Mach.governs
  split <;> rfl

theorem Mach.governs_tells {m₀ : Mach} (h : m₀.FocTells [Reg.ACT_IRQ_STAT] [] m) :
    m₀.FocTells [Reg.ACT_IRQ_STAT] (if (m.drv d).gov then [] else [eventAt m₀ 0x2C09 0 k [] 0]) (m.governs k d) := by
  have hset := h.next (m₂ := m.governed k d) rfl rfl fun _ => rfl
  unfold Mach.governs
  split
  · exact hset
  · exact ((hset.onDrv d fun x => { x with gov := true }).raise 0x2C09 0 k [] 0).orr_of_not_stamp List.mem_cons_self (by decide) 0x10

theorem Mach.governs_laneCode (l : Lane) : (m.governs k d).laneCode l = m.laneCode l :=
  Mach.laneCode_congr ((m.governs_tells k d (.refl m _)).rd _ (by decide)) l

theorem Mach.governs_gov (hd : d < m.act.drives.length) : ((m.governs k d).drv d).gov = true := by
  unfold Mach.governs
  split
  next h => exact h
  next =>
    have hdrv : ((m.governed k d).governorTold k d).drv d = { m.drv d with gov := true } :=
      (nth_upd m.act.drives d d fun x => { x with gov := true }).trans (if_pos ⟨rfl, hd⟩)
    rw [hdrv]

theorem Mach.governs_bit (h : (m.drv d).gov = false) : (m.governs k d).bit Reg.ACT_IRQ_STAT 4 = true := by
  have hmask : (0x10 : Nat) = 2 ^ 4 := rfl
  rw [Mach.governs, h, if_neg Bool.false_ne_true, Mach.governorTold, hmask]
  exact Mach.bit_orr _ (by decide)
end

theorem Mach.sieveCutoff_governs {m : Mach} {k d : Nat} (hcut : m.lane.cut = false) (hrun : m.tick.running = true)
    (ha : m.laneCode .a = 2) (hb : m.laneCode .b = 2) (hpump : m.slotsOf .pump = [k]) (hruns : m.pumpRuns k = some d)
    (hdisputed : m.lane.disputed = []) (hheld : m.net.held = [])
    (hnone : ∀ j, j < 16 → (m.sv j).accepted = none ∧ (m.sv j).second = none) (hsub : (m.sv k).sub = none) (hk : k < 16) :
    ∃ u, m.sieveCutoff = u.governs k d ∧ m.cutTaken.Spoilt u := by
  have hdead : ∀ l, m.live l = false := fun l => by
    cases l
    exacts [Mach.live_of_code ha (by decide), Mach.live_of_code hb (by decide)]
  have hmissing : m.cutTaken.missingFrames = m.cutTaken := Mach.missingFrames_none fun l hl =>
    absurd ((Mach.not_admitted_of_dead (m := m.cutTaken) (hdead l)).symm.trans hl) Bool.false_ne_true
  have hover := m.cutTaken.accOverdue_spoilt
  rw [Mach.sieveCutoff_eq hcut hrun, Mach.cutMissing, hmissing]
  generalize m.cutTaken.accOverdue = v at hover
  have hcode : ∀ l, v.laneCode l = 2 := fun l => (hover.laneCode l).trans (by cases l; exacts [ha, hb])
  have hpair : v.pairJudged = false := Mach.pairJudged_of_dead (l := .a) (Mach.live_of_code (hcode .a) (by decide))
  rw [Mach.cutDisputed_alone hpair, Mach.judge_alone hpair]
  have hall := hover.trans v.undisputed_spoilt
  have hcodes : ∀ l, v.undisputed.laneCode l = 2 := hcode
  generalize v.undisputed = u at hall hcodes
  have hsv : ∀ j, u.sv j = m.sv j := fun j => congrArg (nth · j) hall.slots
  have hslots : u.cutSlots = u := Mach.cutSlots_self fun j hj => by
    rw [hsv]
    exact ⟨SieveSlot.given_empty (hnone j hj).1 (hnone j hj).2, SieveSlot.passes_of_none (hnone j hj).1⟩
  have hgoverned : u.cutGoverned = u.governs k d := by
    rw [Mach.cutGoverned, Mach.slotsOf_congr hall.image, show m.cutTaken.slotsOf .pump = [k] from hpump]
    exact Mach.governorSub_eq ((hall.pumpRuns k).trans hruns) (by rw [hsv]; exact (hnone k hk).1) (by rw [hsv]; exact hsub)
  refine ⟨u, ?_, hall⟩
  rw [hslots, hgoverned]
  have hlane := u.governs_lane k d
  have hnet := u.governs_net k d
  have hend := u.governs_laneCode k d
  generalize u.governs k d = w at hlane hnet hend
  have hwcode : ∀ l, w.laneCode l = 2 := fun l => (hend l).trans (hcodes l)
  have hwrites : w.settleWrites = w :=
    Mach.settleWrites_alone (Mach.pairJudged_of_dead (l := .a) (Mach.live_of_code (hwcode .a) (by decide)))
  rw [Mach.cutSettled_unheld (by
      rw [hwrites]
      exact ⟨(congrArg LaneBlock.disputed hlane).trans (hall.disputed.trans hdisputed),
        (congrArg NetState.held hnet).trans ((congrArg NetState.held hall.net).trans hheld)⟩), hwrites,
    Mach.cutShadows_none (by rw [hwcode]; decide) (by rw [hwcode]; decide)]

theorem exec_sieveCutoff_governs {k d : Nat} (hcut : s.m.lane.cut = false) (hrun : s.m.tick.running = true)
    (ha : s.m.laneCode .a = 2) (hb : s.m.laneCode .b = 2) (hpump : s.m.slotsOf .pump = [k]) (hruns : s.m.pumpRuns k = some d)
    (hdisputed : s.m.lane.disputed = []) (hheld : s.m.net.held = []) (hlen : s.m.lane.slots.length = 16)
    (hdrives : s.m.act.drives.length = 6) (hnone : ∀ j < 16, (s.m.sv j).accepted = none ∧ (s.m.sv j).second = none)
    (hsub : (s.m.sv k).sub = none) (hk : k < 16) (hd : d < 6) :
    ∃ t, exec (.sieveCutoff cyc) s = .next t ∧ (t.m.sv k).sub = some (s.m.governorFrame k s.m.seq d) ∧ (t.m.drv d).gov = true ∧
      ((s.m.drv d).gov = false → Raises s t [eventAt (s.at cyc) 0x2C09 0 k [] 0] ∧ t.m.bit Reg.ACT_IRQ_STAT 4 = true) ∧
      ((s.m.drv d).gov = true → Raises s t []) ∧ SameRegsBut s t [Reg.ACT_IRQ_STAT] ∧ SameMemory s t := by
  obtain ⟨u, hx, hu⟩ := Mach.sieveCutoff_governs (m := s.at cyc) hcut hrun ha hb hpump ((State.at_pumpRuns k).trans hruns) hdisputed hheld
    hnone hsub hk
  have hslots : u.lane.slots = s.m.lane.slots := hu.slots
  have hdrv : u.drv d = s.m.drv d := congrArg (fun a : ActState => nth a.drives d) hu.act
  have hframe : u.governorFrame k u.seq d = s.m.governorFrame k s.m.seq d := by
    have hseq : u.seq = s.m.seq := (hu.tells (.refl _ [])).seq_eq.trans rfl
    rw [hu.governorFrame, hseq]
    exact State.at_governorFrame k s.m.seq d
  have htells := u.governs_tells k d (hu.tells ((Mach.FocTells.refl (s.at cyc) _).next (m₂ := (s.at cyc).cutTaken) rfl rfl fun _ => rfl))
  have hlane := u.governs_lane k d
  have hgov := u.governs_gov k d (by rw [hu.act]; exact hdrives ▸ hd)
  have hbit := u.governs_bit k d
  rw [hdrv] at htells hbit
  rw [hframe, hslots] at hlane
  generalize u.governs k d = w at hx htells hlane hgov hbit
  obtain ⟨t, ht, hm, hregs, hmem, hev⟩ := run_makes (s := s) (cyc := cyc) (f := fun m => m.sieveCutoff) hx htells
  have htl : t.m.lane = w.lane := (congrArg Mach.lane hm).trans (Mach.settle_lane _)
  refine ⟨t, ht, ?_, ?_, fun h => ⟨by rw [h] at hev; exact hev, ?_⟩, fun h => by rw [h] at hev; exact hev, hregs, hmem⟩
  · rw [Mach.sv, htl, hlane]
    exact congrArg SieveSlot.sub ((nth_upd ..).trans (if_pos ⟨rfl, by rw [hlen]; exact hk⟩))
  · rw [hm, Mach.drv, Mach.settle_act]
    exact hgov
  · rw [hm, Mach.bit, Mach.settle_rd]
    exact hbit h

/-- Settles O35: each clause of arrival and cutoff, by what the stages of the cutoff leave. -/
theorem theSieveAcceptsAndComparesFrames : Obligations.TheSieveAcceptsAndComparesFrames := by
  refine ⟨fun _ l k s _ h hcut hcyc hcode hvalid => ⟨fun hnone => ?_, fun g hg hlater => ?_, fun g hg hat hact => ?_⟩,
    fun _ _ _ _ _ ok h => ⟨fun hcut hcyc hcode => ?_, fun hdrop => ?_⟩, fun _ _ _ _ ok h => ?_,
    fun _ _ _ _ hcut hrun hl hcode hmapped hruns ha hs hpump hdisputed hheld => ?_,
    fun _ _ _ h hsent hd hset ha hb hroom hn => ?_, fun _ _ _ _ h hsent hd hv ha hb hpass => ?_,
    fun _ _ h hsent hd hv hw ha hb hpend => ?_, fun _ _ _ h hlive hl ho hd hw hframes hpass => ?_,
    fun _ _ _ _ _ h hl hcode hmapped hlen ha hbad hs hothers hroom => ?_,
    fun _ _ _ _ hcut hrun ha hb hpump hruns hdisputed hheld hlen hdrives hnone hsub hk hd => ?_,
    fun _ _ _ h hcode ho hframes hset => ?_, fun _ _ h => ?_⟩
  · exact exec_sieveFrameArrival_first h hcut hcyc hcode hvalid hnone
  · have hsecond := exec_sieveFrameArrival_second h hcut hcyc hcode hvalid hg
    rw [if_neg (not_and_or.2 hlater)] at hsecond
    exact hsecond
  · obtain ⟨t, ht, hflight, hslots, hdisputes, -, hquiet⟩ := exec_sieveFrameArrival_second h hcut hcyc hcode hvalid hg
    rw [if_pos ⟨hat, hact⟩] at hslots
    refine ⟨t, ht, hflight, hslots.trans (upd_congr ?_), hdisputes, hquiet⟩
    rw [SieveSlot.before, show (nth s.m.lane.slots k).accepted = some (g, l.other) from hg]
  · exact exec_sieveFrameArrival_shadow h ok hcut hcyc hcode
  · exact exec_sieveFrameArrival_dropped h ok hdrop
  · exact exec_sieveFrameArrival_none h ok
  · exact exec_sieveCutoff_missed hcut hrun hl hcode hmapped hruns ha hs hpump hdisputed hheld
  · exact exec_sieveCutoff_merged h hsent hd hset ha hb hroom hn
  · exact exec_sieveCutoff_judged h hsent hd hv ha hb hpass
  · exact exec_sieveCutoff_restarts h hsent hd hv hw ha hb hpend
  · exact exec_sieveCutoff_gaveWay h hlive hl ho hd hw hframes hpass
  · exact exec_sieveCutoff_safed h hl hcode hmapped hlen ha hbad hs hothers hroom
  · exact exec_sieveCutoff_governs hcut hrun ha hb hpump hruns hdisputed hheld hlen hdrives hnone hsub hk hd
  · exact exec_sieveCutoff_shadow h hcode ho hframes hset
  · exact exec_sieveCutoff_idle h

end Sys2Proof.Machine
end
